-- ==== Sys2Proof/Word.lean ====
section
/-! DEFINITION. The word types of the manual: registers are 64 bits wide (chapter 16), memory is addressed
by bytes, and a memory line is 128 bytes (R188). -/

namespace Sys2Proof

/-- A 64-bit register or descriptor word (R342). -/
abbrev Word := BitVec 64

/-- One byte of memory. -/
abbrev Byte := BitVec 8

end Sys2Proof
end

