-- ==== Sys2Proof/Syntax.lean ====
section
/-! DEFINITION. The commands of the block: one constructor per row of spec/opcode_table.json, in the
table's order. The table gives no operand fields, so each constructor carries what the rule of its row
needs to say which unit, queue or job it concerns, and what arrives from outside the device with it. -/

namespace Sys2Proof

/-- Who makes an access (R354). `manager` and `core` are application-cluster accesses of partition 8;
`inst i` is a master that acts for instance i through the DTU, `vec e` a vector engine that acts for the instance of
its work item (R238), and `rt c` a real-time core that acts for the instance of its task (R145). -/
inductive Master where
  | manager
  | core (n : Nat)
  | inst (i : Nat)
  | vec (e : Nat)
  | rt (c : Nat)
  /-- a PCIe host through virtual function `vf` of a port (R225) -/
  | host (port : Nat) (vf : Nat)
  | crucible
  | cupola
  | switchCtl
  deriving DecidableEq, Repr

/-- The whole register, or one aligned 32-bit half of it (R344). -/
inductive Half where
  | whole | low | high
  deriving DecidableEq, Repr

/-- The clock domains that the SCLK monitors watch (R15; table of chapter 01). -/
inductive Domain where
  | aclk | hclk0 | hclk1 | tclk | fclk | mclk | kclk | tsclk | recovered | pixel | standby
  deriving DecidableEq, Repr

/-- A unit that runs test bars (R148, R152), by physical number. -/
inductive TBUnit where
  | array (n : Nat) | vec (n : Nat) | rt (n : Nat) | runner
  deriving DecidableEq, Repr

/-- A master that holds lines in a cache (R202). -/
inductive Cacher where
  | l2 (n : Nat) | vec (n : Nat)
  deriving DecidableEq, Repr

/-- Bits that the memory devices have turned over in a stored block of eight lines (R190, R191) since it was written:
of a data burst as (data line 0-6, subchannel 0-3, mask), of a check-line burst as (subchannel, mask). A mask holds the
32 bytes of the burst, the first in its least significant byte. The `copy` lists say the same of the mirror copy's block
(R194). -/
structure BurstErrs where
  data : List (Nat × Nat × Nat) := []
  check : List (Nat × Nat) := []
  copyData : List (Nat × Nat × Nat) := []
  copyCheck : List (Nat × Nat) := []
  deriving DecidableEq, Repr

/-- How a vector work item ends (R244). -/
inductive ItemEnd where
  | ecall (a7 : Nat)
  | exception
  | xlate (va : Nat)
  deriving DecidableEq, Repr

/-- What an instruction of a vector work item writes, other than a vendor instruction or a store (R237, R238): an integer or
floating-point register, a whole vector register as 64 words, the vector type, a CSR, the program counter, or the time
counter read into an integer register. The manual names the RISC-V specifications for the values. -/
inductive VecStep where
  | x (r v : Nat)
  | f (r v : Nat)
  | v (r : Nat) (els : List Nat)
  | vset (sew vl lmul : Nat)
  | csr (n v : Nat)
  | pc (a : Nat)
  | time (rd : Nat)
  deriving DecidableEq, Repr

/-- One retired instruction of a real-time task (R145, R146): the register that it writes (0 to 31 integer, 32 to 63
floating-point) with its value, and its store as the offset within the data window and the data; or a read of the time or
cycle CSR, of a performance counter, of `n` bytes of the input log, or of `n` bytes of the data window, into a register. -/
inductive RtStep where
  | retire (wr : Option (Nat × Nat)) (st : Option (Nat × List Byte))
  | readTime (rd : Nat)
  | readPerf (rd : Nat)
  | readLog (rd off n : Nat)
  | readData (rd off n : Nat)
  deriving DecidableEq, Repr

/-- One CSI-2 packet: its data type, its payload and what the receiver found (R246, R249). -/
structure CamPacket where
  dt : Nat
  pixels : List Nat
  crcErr : Bool := false
  hdrErr : Bool := false
  hdrCorr : Bool := false
  frameEnd : Bool := false
  deriving DecidableEq, Repr

/-- An Ethernet frame that arrives at an external port: bytes from the destination MAC without FCS, and, of a frame that
was secured, the receive channel of its association and its packet number (R287 to R289). -/
structure EthFrame where
  bytes : List Byte
  port : Nat
  pn : Option (Nat × Nat) := none
  deriving DecidableEq, Repr

/-- A CAN frame on the bus (R292, R293): the identifier is aligned as in the frame record. -/
structure CanFrame where
  id : Nat
  fmt : Nat
  brs : Bool := false
  rtr : Bool := false
  esi : Bool := false
  sdt : Nat := 0
  sec : Bool := false
  vcid : Nat := 0
  af : Nat := 0
  data : List Byte
  deriving DecidableEq, Repr

/-- One ACF CAN message of an AVTPDU (R297, R298). -/
structure AcfMsg where
  isCan : Bool
  busId : Nat
  frame : CanFrame
  time : Nat
  deriving DecidableEq, Repr

/-- The fold of a query row so far: the next page, M, L and O, and whether a score was NaN or +∞ (R125, R129). -/
structure FoldPart where
  page : Nat
  m : Nat := 0
  l : Nat := 0
  o : List Nat := []
  bad : Bool := false
  deriving DecidableEq, Repr

/-- A query row on its way between the devices of a spread: entry and row, query head, the row's bytes and the fold. -/
structure SpreadQuery where
  ent : Nat
  u : Nat
  q : Nat
  row : List Byte
  part : FoldPart
  deriving DecidableEq, Repr

/-- What one job of a step or prefill sends to a device of a spread (R129): the receiver's place in the spread record, the
home job, the sequence, the spread record and the operator record, LEN, the new key and value rows of the receiver's pages,
and query rows. -/
structure SpreadRows where
  index : Nat
  job : Nat
  seqId : Nat
  rec_ : List Byte
  op : List Byte
  len : Nat
  kv : List (Nat × Nat × List Byte × List Byte)
  qs : List SpreadQuery
  deriving DecidableEq, Repr

/-- Messages between the attention sequencers of the devices of a spread (R128, R129). -/
inductive SpreadMsg where
  /-- a mirror context is asked for: place in the record, home job, context record, spread record, and for a fork the
  parent and the prefix -/
  | admission (index job : Nat) (ctx rec_ : List Byte) (fork : Option (Nat × Nat))
  /-- the answer: 0 admitted, 1 no free context, 2 the frames are lacking, 3 the parent does not serve -/
  | answer (job code : Nat)
  /-- membership: a sequence released or given up (2), or left (3) -/
  | member (inst seqId act : Nat)
  | rows (r : SpreadRows)
  /-- an output row for OUT_ADDR of the home instance, whether an element saturated, or the status of an error -/
  | out (job addr : Nat) (data : List Byte) (sat : Bool) (status : Nat)
  deriving DecidableEq, Repr

/-- What a Weska cell body carries (R306, R315). -/
inductive CellBody where
  | time (stamp : Nat) (corr : Int)
  | completion (tag : Nat) (ok : Bool) (data : List Byte)
  | posted (addr : Nat) (data : List Byte)
  | nonPosted (addr : Nat) (tag : Nat) (len : Nat) (data : Option (List Byte))
  | ether (frame : List Byte)
  | spread (m : SpreadMsg)
  /-- a cell of a packet ahead of its last cell, which carries the packet here (R306); `post` is the far-side address of a
  posted write -/
  | more (post : Option Nat)
  deriving DecidableEq, Repr

/-- A Weska cell (R306): header fields and body. -/
structure Cell where
  dest : Nat
  src : Nat
  vc : Nat
  ttl : Nat
  crVc : Nat := 0
  crCells : Nat := 0
  ack : Nat := 0
  seq : Nat := 0
  body : CellBody
  deriving DecidableEq, Repr

/-- A wake source of R326. -/
inductive WakeSource where
  | can (c : Nat) | eth (p : Nat) | weska (p : Nat) | wakeIn
  deriving DecidableEq, Repr

/-- The images of the signed boot configuration (table of chapter 15): the fields the ROM writes. -/
structure BootConfig where
  entry : Nat := 0
  /-- the assignment table (R230): its header, whether its signatures and version hold, its SHA-384, and its entries -/
  magic : Nat := 0x4153474E
  format : Nat := 0x0100
  tableOk : Bool := true
  tableDigest : Nat := 0
  assign : List (Nat × Nat × Nat) := []
  rate : Nat := 0
  chCap : Nat := 0
  ranks : Nat := 0
  rot : Nat := 32
  tbPeriod : Nat := 50
  devId : Nat := 0
  timeSrc : Bool := false
  tt : List (Nat × Bool × Nat × Nat) := []
  deriving DecidableEq, Repr

/-- What the Crucible ROM finds in one boot slot (R329): BOOT_ERR 00h when it verifies, or the code. -/
structure BootSlot where
  err : Nat := 0
  /-- SHA-384 of the Crucible firmware, the Cupola image and the application cores' M-mode monitor in the slot -/
  crucibleDigest : Nat := 0
  cupolaDigest : Nat := 0
  monitorDigest : Nat := 0
  config : BootConfig := {}
  deriving DecidableEq, Repr

/-- Where the Cupola finds its newest verified record at start-up (R158, R340). -/
inductive RecordSource where
  | none | billet (reason : Nat) | summary | norCopy
  deriving DecidableEq, Repr

/-- Policy of KEY_DELIVER (R231). -/
structure KeyPolicy where
  keyId : Nat
  flask : Nat
  usage : Nat
  measureMask : Nat
  debugOk : Bool
  salt : Nat
  key : Nat
  deriving DecidableEq, Repr

/-- What a debug access asks for (R236). -/
inductive DebugKind where
  | halt | trace
  deriving DecidableEq, Repr

/-- A link whose retrains the field record counts (R156). -/
inductive LinkId where
  | eth (p : Nat) | pcie (p : Nat) | csi (p : Nat) | display (o : Nat) | ufs
  deriving DecidableEq, Repr

/-- The commands, in the order of the table; each docstring is its row's rule and summary. -/
inductive Instr where
  /-- CLOCK_LOSS_DETECTED (R15): An SCLK safety monitor declares a domain's clock lost or out of tolerance; crossings into that domain close with error completions and SAFE_FLT_N latches. -/
  | clockLossDetected (d : Domain)
  /-- SCLK_LOSS_DETECTED (R155): The FCLK monitor detects loss of SCLK and raises the FLT cause SCLK_LOST. -/
  | sclkLossDetected
  /-- VOLTAGE_FAULT (R155): A supply rail stays outside 92 % to 108 % of nominal for more than 1 µs and the FLT cause VOLT is raised. -/
  | voltageFault (rail : Nat) (pct : Nat)
  /-- TEMPERATURE_EVENT (R155): A temperature sensor crosses 125 °C or 130 °C, setting TEMP_HIGH or TEMP_TRIP. -/
  | temperatureEvent (sensor : Nat) (celsius : Int)
  /-- THERMAL_SHUTDOWN (R369): A sensor reads above 140 °C for 100 µs; the device drives SOC_PWR_EN low without a checkpoint, holds itself in reset and keeps THERMAL set. -/
  | thermalShutdown (sensor : Nat) (celsius : Int)
  /-- TIME_NOW_NS_READ (R14): A read of TIME_NOW_NS captures the counter at one TSCLK edge and loads that edge's fraction into the reading master's TIME_NOW_FRAC latch. -/
  | timeNowNsRead (m : Master)
  /-- TRAJECTORY_RELEASE (R21): The completion of the forwarding write returns, and the active device releases the trajectory to its gateway. -/
  | trajectoryRelease
  /-- ACTIVE_CUTOFF (R21): At t0 + 54.55 ms without a forwarding completion, the active device discards and counts the trajectory and sends none for the frame. -/
  | activeCutoff
  /-- SHADOW_CUTOFF (R22): At t0 + 54.5 ms without the active trajectory in memory, the shadow schedules its own trajectory in its backup window. -/
  | shadowCutoff
  /-- DOORBELL_WRITE (R30): A write of SPR_DB is judged advancing or not, sets the sprue pending bit, takes CPL_CONS when valid, or counts in STALE_DB. -/
  | doorbellWrite (m : Master) (q : Nat) (h : Half) (v : Word)
  /-- QUEUE_ENABLE (R44): Setting EN of SPR_QCFG enables a queue, with its indices set under R44 or taken from SPR_QRESTORE under R224. -/
  | queueEnable (m : Master) (q : Nat) (v : Word)
  /-- QUEUE_DISABLE (R373): A write that clears EN of SPR_QCFG clears EN alone. -/
  | queueDisable (m : Master) (q : Nat) (v : Word)
  /-- SCANNER_ROUND (R38): The sprue scanner copies and clears the pending bitmap and starts a round of queue service. -/
  | scannerRound (served : Nat)
  /-- JOB_FETCH (R31): The dispatcher copies a job descriptor from the submission ring, advances CONS_IDX and validates the job. -/
  | jobFetch (q : Nat)
  /-- JOB_START (R32): A job starts once a completion slot is reserved and its fence and event-counter wait are satisfied. -/
  | jobStart (j : Nat)
  /-- JOB_EXPIRE (R34): An undispatched job whose DEADLINE is reached completes with EXPIRED without running. -/
  | jobExpire (j : Nat)
  /-- JOB_COMPLETE (R42): A job's writes become visible, its counter is signalled, its completion record is written and its interrupt is sent. -/
  | jobComplete (j : Nat)
  /-- JOB_FAULT (R37): A job fault aborts the involved arrays, completes the job with JOB_FAULT and lost jobs with JOB_LOST. -/
  | jobFault (j : Nat) (tile : Nat)
  /-- NOP_JOB (R34): A NOP job does nothing and completes. -/
  | nopJob (j : Nat)
  /-- FENCE_JOB (R34): A FENCE job does nothing beyond its flags. -/
  | fenceJob (j : Nat)
  /-- TENSOR (R64): A TENSOR job places its tiles in the flask's tile queue, or binds them to pour-table entries in a timed flask. -/
  | tensor (j : Nat)
  /-- TILE_DISPATCH (R64): A free array takes the first eligible tile of its flask's tile queue. -/
  | tileDispatch (a : Nat)
  /-- PROGRAM_LOAD (R59): Once NEXT_VALID is 0b, the dispatcher copies a tile's pour program into the free command-store half and sets NEXT_VALID. -/
  | programLoad (a : Nat)
  /-- NEXT_VALID_SET (R59): A software set of NEXT_VALID in ARR_PROG makes the same half be taken again at the next job boundary. -/
  | nextValidSet (m : Master) (a : Nat) (v : Word)
  /-- NOP (R54): Pour-program NOP does nothing. -/
  | nop (a : Nat)
  /-- LDW (R48): LDW loads one weight block with its column scales into the shadow weights. -/
  | ldw (a : Nat)
  /-- SWAPW (R48): SWAPW marks the next armed stream to swap shadow and active weights. -/
  | swapw (a : Nat)
  /-- LDA (R46): LDA arms an activation stream from the mould store, checking ranges, scales and sparsity. -/
  | lda (a : Nat)
  /-- SHIFT (R45): SHIFT executes STEPS atomic wavefront steps of the array. `stalled` is the number of ACLK cycles
  that the array has stood stalled since they were last counted (R61). -/
  | shift (a : Nat) (stalled : Nat)
  /-- ACC (R48): ACC sets the accumulator mode of the next armed stream. -/
  | acc (a : Nat)
  /-- DRAIN (R80): DRAIN writes accumulator rows through the post-operation unit to the mould store with predicted scales. -/
  | drain (a : Nat)
  /-- POST (R79): POST configures the post-operation unit and clears the scale-predictor history. -/
  | post (a : Nat)
  /-- XFER (R57): Pour-program XFER requests a ladle move between memory and the mould store through the DTU. -/
  | xfer (a : Nat)
  /-- WAITQ (R53): WAITQ holds issue until an event counter reaches COUNT, then subtracts it. -/
  | waitq (a : Nat)
  /-- SIG (R58): SIG emits the write-back signature with SIG_ID and restarts it. -/
  | sig (a : Nat)
  /-- SYNC (R56): SYNC holds issue until PARTIES arrays reach the barrier, then releases them together. -/
  | sync (a : Nat)
  /-- LOOP (R55): LOOP repeats its body, applying its increments to working copies of address fields. -/
  | loop (a : Nat)
  /-- FENCE (R52): Pour-program FENCE waits for all asynchronous commands to complete. -/
  | fence (a : Nat)
  /-- END (R58): END waits for outstanding work, emits the final output signature and ends the array job.
  `flip` is what a hardware fault of the array made of its final output signature (0 for none), and `dup` says
  that the two comparator copies of the flask disagree (R142). -/
  | endProg (a : Nat) (flip : Nat) (dup : Bool)
  /-- ASYNC_COMPLETE (R53): An asynchronous LDW, DRAIN or XFER completes and adds 1 to its event counter, faulting on overflow. -/
  | asyncComplete (a : Nat) (k : Nat) (stalled : Nat)
  /-- TILE_WATCHDOG (R62): An array job of a shared flask runs past EST_NS plus WDOG_NS and is aborted with WDOG set. -/
  | tileWatchdog (a : Nat)
  /-- ABORT (R63): Setting ABORT in ARR_CTRL aborts the running array job at the next step boundary. -/
  | abort (m : Master) (a : Nat) (v : Word)
  /-- ABORT_COMPLETE (R63): An aborting array becomes idle once its outstanding XFERs have completed, and ABORT clears. -/
  | abortComplete (a : Nat)
  /-- ARR_SATCFG_WRITE (R82): A write of ARR_SATCFG clears the saturation window counts, refusing WIN_LOG2 outside 10 to 30. -/
  | arrSatcfgWrite (m : Master) (a : Nat) (v : Word)
  /-- CONV_TAP (R97): A CONV job with OP 0h and GROUPS 1 runs as a tap-form convolution on the tensor arrays. -/
  | convTap (j : Nat)
  /-- CONV_GROUPED (R103): A grouped or depth-wise convolution runs on the vector path. -/
  | convGrouped (j : Nat)
  /-- MAX_POOL (R105): CONV OP 1h computes max pooling on the vector path. -/
  | maxPool (j : Nat)
  /-- AVERAGE_POOL (R105): CONV OP 2h or 3h computes average pooling on the vector path. -/
  | averagePool (j : Nat)
  /-- EXPAND (R102): CONV OP 4h writes an expanded buffer with vector-engine loads and stores. -/
  | expand (j : Nat)
  /-- SEQ_ADMIT (R116): SEQ_ADMIT takes a free context for a new sequence, or returns SEQ_TABLE_FULL. -/
  | seqAdmit (j : Nat)
  /-- SEQ_RESTORE (R117): SEQ_ADMIT with RESTORE re-admits a spilled sequence from a verified spill record. -/
  | seqRestore (j : Nat)
  /-- SEQ_FORK (R118): SEQ_ADMIT with FORK maps a parent's prefix pages into the child and raises their counts. -/
  | seqFork (j : Nat)
  /-- SEQ_RELEASE (R119): SEQ_RELEASE removes every mapping of a sequence and frees its context or spill record, waiting while it is busy. -/
  | seqRelease (j : Nat)
  /-- ATTN_STEP (R121): An ATTN_STEP job opens, runs or closes a batched decode step, classifying entries and mapping pages. -/
  | attnStep (j : Nat)
  /-- ATTN_PREFILL (R122): An ATTN_PREFILL job opens, runs or closes the prefill of one sequence. -/
  | attnPrefill (j : Nat)
  /-- SWEEP (R113): Setting SWEEP holds the instance's attention jobs and starts recounting frames and adopting spill records. -/
  | sweep (m : Master) (i : Nat) (v : Word)
  /-- SWEEP_DONE (R113): The sweep writes the new counts, clears SWEEP and lets the held jobs proceed. -/
  | sweepDone (i : Nat)
  /-- POOL_ENABLE (R130): Setting EN in ATT_IPOOL enables the instance's frame pool and raises EPOCH. -/
  | poolEnable (m : Master) (i : Nat) (v : Word)
  /-- POOL_DISABLE (R130): A write that clears EN in ATT_IPOOL disables the pool, refused while contexts or spilled sequences remain. -/
  | poolDisable (m : Master) (i : Nat) (v : Word)
  /-- ISOLATION_DEADLINE (R137): A re-execution not ended 17.0 µs after the later execution's start is aborted and the outcome decided. -/
  | isolationDeadline (a : Nat)
  /-- OVERRUN (R139): An execution without END after 8.0 µs or at the end of its entry is aborted and the other array re-executes. -/
  | overrun (a : Nat)
  /-- ISOLATION_END (R171): The release becomes visible or the tile is found unreleased; lag rises by Δ and held entries start. -/
  | isolationEnd (f : Nat)
  /-- INPUT_LOG_COPY_DONE (R145): The input-log copy of a first task execution completes and the core's executive starts the task. -/
  | inputLogCopyDone (c : Nat)
  /-- RT_TASK_END (R146): A real-time task execution ends; after the second, its signatures and instruction counts are compared.
  `steps` are the instructions that it retired, as the core executed them. -/
  | rtTaskEnd (c : Nat) (steps : List RtStep)
  /-- TEST_BAR_DUE (R150): A unit outside the pour table reaches its TB_PERIOD and runs a test bar at its next tile boundary. -/
  | testBarDue (u : TBUnit)
  /-- TEST_BAR_DONE (R151): A test bar ends and its signatures are compared with the golden record; a failure retires or withdraws the unit.
  `pass` is the outcome on a unit other than an array, whose golden content the manual does not lay out. -/
  | testBarDone (u : TBUnit) (pass : Bool)
  /-- TB_IMAGE_VERIFIED (R149): The Crucible's verification of the test-bar image ends, completing or refusing the MGR lock. -/
  | tbImageVerified (ok : Bool)
  /-- TB_IMAGE_RECHECK (R149): Once per POH_S hour the Crucible re-verifies the test-bar image digest, stopping test bars on a mismatch. -/
  | tbImageRecheck (ok : Bool)
  /-- COUNTER_FOLD (R157): At least once a second the Cupola folds the hardware counters into the live field record. -/
  | counterFold (ufs : Nat)
  /-- SENSOR_SAMPLE (R156): Once a second the Cupola samples every temperature sensor into the histogram. -/
  | sensorSample (temps : List Int) (droops : List (Nat × Nat))
  /-- CHECKPOINT (R157): Every 600 s of POH_S the Cupola increments SEQ and writes the record to the billet and the summary to the NOR. -/
  | checkpoint
  /-- FLRES_WRITE (R160): A write of SYS_FLRES of a free flask names its units and moves it to STATE 1h. -/
  | flresWrite (m : Master) (f : Nat) (v : Word)
  /-- FLASK_CREATE (R160): Setting CREATE checks the flask's resources and starts shakeout in STATE 2h. -/
  | flaskCreate (m : Master) (f : Nat) (v : Word)
  /-- FLASK_DESTROY (R161): Setting DESTROY gives up a building flask, or shakes out a running one and returns its units. -/
  | flaskDestroy (m : Master) (f : Nat) (v : Word)
  /-- SHAKEOUT_DONE (R219): Hardware shakeout ends with a read-back check, moving the flask to STATE 3h or 0h. -/
  | shakeoutDone (f : Nat) (failed : List TBUnit)
  /-- FIRMWARE_CLEAR_DONE (R220): Firmware clearing ends; a unit still failing is withdrawn and the create or destroy resumes. -/
  | firmwareClearDone (f : Nat) (failed : List TBUnit)
  /-- SWAP (R165): Setting SWAP starts validation of the shadow pour-table bank. -/
  | swap (m : Master) (v : Word)
  /-- SWAP_VALIDATED (R167): Validation of the shadow bank ends; on failure SWAP clears with SWAP_REFUSED and BAD_ENTRY. -/
  | swapValidated
  /-- FRAME_BOUNDARY (R164): At a pour-table frame boundary FRAME advances and the boundary's work is done. -/
  | frameBoundary
  /-- SPARE_COPY_DONE (R68): The resident-image copy into a spare completes and the spare may start tiles. -/
  | spareCopyDone (a : Nat)
  /-- POUR_ENTRY_START (R170): A pour-table entry becomes due at START + L and starts its pair, task, test bar, recovery or runner window, or runs empty. -/
  | pourEntryStart (e : Nat)
  /-- POUR_ENTRY_END (R169): A pour-table entry ends; unfinished bound jobs end JOB_LOST and a running task counts as a failed comparison. -/
  | pourEntryEnd (e : Nat)
  /-- POUR_LATE (R174): The pour-table monitor finds an entry not started 2 µs after it is due, setting POUR_LATE. -/
  | pourLate (e : Nat)
  /-- VECTOR_PREEMPT (R181): A vector engine of a shared flask is preempted at its next instruction boundary and saves its context. -/
  | vectorPreempt (e : Nat)
  /-- VECTOR_RESUME (R245): A preempted vector item resumes from its saved context on any engine of the flask. -/
  | vectorResume (e : Nat) (j : Nat) (item : Nat)
  /-- GATE_REFILL (R184): At each microsecond multiple, every gate bucket rises by GUAR or CEIL up to its depth. -/
  | gateRefill
  /-- GATE_REQUEST (R184): A request waits at its master port for the ceiling bucket and leaves in class G or S. -/
  | gateRequest (g : Nat) (bytes : Nat)
  /-- RT_BOUND_EXCEEDED (R186): A real-time master request waits beyond BOUND_NS, raising the guarantee-missed interrupt. -/
  | rtBoundExceeded (rtm : Nat) (waitedNs : Nat)
  /-- GUARANTEE_WINDOW_END (R186): At the end of WIN_US the gate's class-G service is checked, setting MISS on a shortfall. -/
  | guaranteeWindowEnd (g : Nat)
  /-- MEMORY_INIT (R210): Setting INIT trains and initialises all memory channels. -/
  | memoryInit (m : Master) (v : Word)
  /-- MEMORY_READY (R210): Memory initialisation ends, READY is set and INIT clears. -/
  | memoryReady
  /-- MEMORY_READ (R190): A read is served at its home slice or from memory with CRC checking, mirror fallback and tag verification. -/
  | memoryRead (m : Master) (addr : Nat) (bytes : Nat) (errs : BurstErrs)
  /-- MEMORY_WRITE (R190): A full-line write updates the line, its CRCs, parity, mirror copy and tag, clearing any poison. -/
  | memoryWrite (m : Master) (addr : Nat) (data : List Byte)
  /-- PARTIAL_WRITE (R197): A partial write merges into the cached line, or reads and merges the line, poisoning it when unreadable. -/
  | partialWrite (m : Master) (addr : Nat) (data : List Byte) (errs : BurstErrs)
  /-- PATROL_SCRUB (R191): Every 12 hours each controller reads and corrects every block of its channel. -/
  | patrolScrub (block : Nat) (errs : BurstErrs)
  /-- WRITE_BACK (R203): A write-back or clean-eviction notice reaches the home and is accepted or parked as stale. -/
  | writeBack (c : Cacher) (line : Nat) (data : Option (List Byte))
  /-- SNOOP_RESPONSE (R203): A snoop response reaches the home, supplying the line and acknowledging any stale write-back. -/
  | snoopResponse (c : Cacher) (line : Nat) (data : Option (List Byte)) (evicting : Bool)
  /-- WRITE_BACK_ACK (R203): The home's acknowledgement reaches the caching master and frees the write-back buffer entry. -/
  | writeBackAck (c : Cacher) (line : Nat)
  /-- CACHE_WAYS_WRITE (R201): A write of MEM_CWAYS changes a partition's way mask, writing back ways removed from partition 8. -/
  | cacheWaysWrite (m : Master) (p : Nat) (v : Word)
  /-- REGION_ENABLE (R198): Setting EN of MEM_RGN enables a region and draws a fresh tag key. -/
  | regionEnable (m : Master) (n : Nat) (v : Word)
  /-- REGION_DISABLE (R198): Clearing EN of MEM_RGN disables a region and destroys its key. -/
  | regionDisable (m : Master) (n : Nat) (v : Word)
  /-- RETIRE (R205): Setting RETIRE starts copying a channel's granules into the spare area. -/
  | retire (m : Master) (v : Word)
  /-- RETIRE_DONE (R205): The last granule is redirected, RETIRED is set and the channel takes no traffic. -/
  | retireDone
  /-- LADLE_PIECE_DONE (R207): A ladle finishes a 4 KB piece and takes its next piece or a hardware copy, applying any emptied key slot. -/
  | ladlePieceDone (mv : Nat)
  /-- XFER_COPY (R209): An XFER job with OP 0h copies, decrypts or encrypts memory in 64 KB pieces. -/
  | xferCopy (j : Nat) (piece : Nat)
  /-- XFER_FILL (R209): An XFER job with OP 1h fills memory with a repeated pattern in whole lines. -/
  | xferFill (j : Nat) (piece : Nat)
  /-- PAGE_WALK (R214): A DTU walk takes a walker and translates an instance's address, refusing addresses under R213. -/
  | pageWalk (i : Nat) (va : Nat) (write : Bool)
  /-- IOTINVAL_VMA (R212): The DTU command IOTINVAL.VMA invalidates first-stage translations. -/
  | iotinvalVma (gscid : Option Nat) (pscid : Option Nat) (va : Option Nat)
  /-- IOTINVAL_GVMA (R212): The DTU command IOTINVAL.GVMA invalidates second-stage translations. -/
  | iotinvalGvma (gscid : Option Nat) (gpa : Option Nat)
  /-- IODIR_INVAL_DDT (R227): The DTU command IODIR.INVAL_DDT invalidates device contexts, putting a locked TDI whose context changed into ERROR. -/
  | iodirInvalDdt (dev : Option Nat)
  /-- IOFENCE_C (R211): The DTU command IOFENCE.C completes after earlier commands. -/
  | iofenceC (addr : Option Nat) (data : Nat)
  /-- INSTANCE_CREATE (R215): Setting CREATE of SYS_INST makes an instance active in a running flask. -/
  | instanceCreate (m : Master) (i : Nat) (v : Word)
  /-- QUIESCE (R216): Setting QUIESCE stops admissions and ends the instance's running work. -/
  | quiesce (m : Master) (i : Nat) (v : Word)
  /-- QUIESCE_DONE (R216): The instance's work has drained and it enters STATE 3h. -/
  | quiesceDone (i : Nat)
  /-- RESUME (R216): Setting RESUME returns the instance to active and sets pending bits of queues with entries. -/
  | resume (m : Master) (i : Nat) (v : Word)
  /-- INSTANCE_RESET (R217): Setting RESET clears the instance's queues, contexts, counts and translations. -/
  | instanceReset (m : Master) (i : Nat) (v : Word)
  /-- REMOVE (R218): Setting REMOVE resets the instance and writes back the flask's dirty cached lines. -/
  | remove (m : Master) (i : Nat) (v : Word)
  /-- REMOVE_DONE (R218): The removal write-back ends and the instance enters STATE 0h. -/
  | removeDone (i : Nat)
  /-- SPILL_ALL (R223): Setting SPILL_ALL spills every resident idle local context of a quiesced instance. -/
  | spillAll (m : Master) (i : Nat) (v : Word)
  /-- LOCK_INTERFACE_REQUEST (R227): The TDISP request locks the instance's configuration and snapshots its device context. -/
  | lockInterfaceRequest (p : Nat) (vf : Nat)
  /-- GET_DEVICE_INTERFACE_REPORT (R227): The TDISP request returns the instance and flask section of the attestation report. -/
  | getDeviceInterfaceReport (p : Nat) (vf : Nat)
  /-- MONITOR_CALL (R229): An ECALL from HS-mode with a7 = 4757_0001h passes a request to the Crucible and stalls the core for the reply. -/
  | monitorCall (core : Nat) (a7 : Word) (args : List Word)
  /-- KEY_EXCHANGE (R231): An SPDM KEY_EXCHANGE with FINISH opens a secured session with the Crucible. -/
  | keyExchange (tenant : Nat)
  /-- KEY_DELIVER (R231): The Crucible stores a delivered key with its policy. -/
  | keyDeliver (tenant : Nat) (pol : KeyPolicy)
  /-- KEY_REVOKE (R232): The Crucible revokes a key and empties every slot holding it. -/
  | keyRevoke (tenant : Nat) (keyId : Nat)
  /-- CONSENT_INSTALL (R236): The Crucible verifies and installs a debug consent, emptying slots of keys without DEBUG_OK. -/
  | consentInstall (tenant : Nat) (f : Nat) (scope : Nat) (devId : Nat) (lastHour : Nat) (keyId : Nat) (digest : Nat) (ok : Bool)
  /-- CONSENT_EXPIRY (R236): A debug consent ends when its last operating hour passes. -/
  | consentExpiry (f : Nat)
  /-- DEBUG_ACCESS (R236): A JTAG halt, trace or sampling access to a flask unit is served within consent scope or refused. -/
  | debugAccess (f : Nat) (k : DebugKind) (u : Option TBUnit)
  /-- GET_MEASUREMENTS (R235): The SPDM request returns the signed attestation report as measurement block 01h. -/
  | getMeasurements (tenant : Nat) (nonce : Nat)
  /-- GET_CERTIFICATE (R235): The SPDM request returns the certificate chains of slots 0 and 1. -/
  | getCertificate (tenant : Nat) (slot : Nat)
  /-- VEXP_V (R240): VEXP.V computes the fixed exponential per element. In this and the next three commands `pre` is what
  the instructions of the work item before it have written. -/
  | vexpV (e : Nat) (pre : List VecStep) (w : BitVec 32)
  /-- VLSEM_VV (R241): VLSEM.VV performs one log-sum-exp merge fold of a chunk into the fold state. -/
  | vlsemVv (e : Nat) (pre : List VecStep) (w : BitVec 32)
  /-- VDWS_VV (R242): VDWS.VV adds the expanded product of two operands to vd with one rounding. -/
  | vdwsVv (e : Nat) (pre : List VecStep) (w : BitVec 32)
  /-- VDWS0_VV (R242): VDWS0.VV writes the expanded product of two operands into vd. -/
  | vdws0Vv (e : Nat) (pre : List VecStep) (w : BitVec 32)
  /-- VECTOR (R243): A VECTOR job deals its work items to the flask's vector engines. -/
  | vector (j : Nat)
  /-- ITEM_END (R244): A work item ends by ECALL with a7 = 0, or faults on any other exception or ECALL.
  `pre` is what its last instructions have written, `flip` what a hardware fault made of its signature (0 for none), and
  `dup` says that one comparator copy of the flask has a fault (R142). -/
  | itemEnd (e : Nat) (pre : List VecStep) (how : ItemEnd) (flip : Nat) (dup : Bool)
  /-- ITEM_TIMEOUT (R244): An item runs longer than ITEM_US and ends the job as a fault. -/
  | itemTimeout (e : Nat)
  /-- CAMERA_CONTEXT_ENABLE (R247): Setting EN of a camera context reads its buffer table. -/
  | cameraContextEnable (m : Master) (c : Nat) (v : Word)
  /-- CAMERA_CONTEXT_DISABLE (R260): Clearing EN of a camera context stops it at the end of its current frame. -/
  | cameraContextDisable (m : Master) (c : Nat) (v : Word)
  /-- FRAME_START (R248): A CSI-2 Frame Start packet takes the next buffer, or drops the frame when it is locked. -/
  | frameStart (c : Nat)
  /-- CAMERA_PACKET (R246): A CSI-2 packet is stored as a line, or discarded and counted, and the frame dropped if its buffer becomes locked. -/
  | cameraPacket (c : Nat) (pkt : CamPacket)
  /-- INGEST_RECORD (R249): After a frame's pixels are visible, ingest writes its ingest record and advances COUNTER_ADDR. -/
  | ingestRecord (c : Nat)
  /-- RENDER (R250): A RENDER job draws its draw records into a colour target and posts its plane descriptor. -/
  | render (j : Nat)
  /-- PLANE_POST (R254): A write of DSP_FLIP with PENDING set posts a plane descriptor for the next latch. -/
  | planePost (m : Master) (o : Nat) (p : Nat) (v : Word)
  /-- LATCH (R254): At vertical blanking every pending plane fetches its descriptor, VBLANKS advances and escalation returns to 0. -/
  | latch (o : Nat)
  /-- SCANOUT_UNDERRUN (R255): Scan-out cannot fetch a line in time, sends black for the rest of it and counts UNDERRUN. -/
  | scanoutUnderrun (o : Nat)
  /-- TELL_TALE_COMPARE (R257): At the end of the tell-tale rectangle the CRC is compared with EXPECT, driving safe blank. -/
  | tellTaleCompare (o : Nat) (pixels : List Nat)
  /-- ESCALATION_LEVEL_1 (R258): At T − ESC1_US the display queue of the flask moves ahead of all other work. -/
  | escalationLevel1 (o : Nat)
  /-- ESCALATION_LEVEL_2 (R258): At T − 2,000 µs the flask's engines are preempted and arrays take only display-queue tiles. -/
  | escalationLevel2 (o : Nat)
  /-- UPDATE (R264): A RUNNER UPDATE applies occupancy records to the octree and collapses it. -/
  | update (j : Nat)
  /-- PLAN (R269): A RUNNER PLAN sweeps candidates, chooses, confirms, shapes and publishes a plan.
  `disagree`: a hardware fault makes the second check of R153 differ. -/
  | plan (j : Nat) (disagree : Bool)
  /-- REPAIR (R274): A RUNNER REPAIR updates the tree and re-checks the chosen and alternate candidates.
  `disagree` is as for PLAN. -/
  | repair (j : Nat) (disagree : Bool)
  /-- PUBLISH_AT (R273): At PUBLISH_AT an unfinished PLAN or REPAIR abandons its work and publishes under the late-plan rule. -/
  | publishAt (j : Nat)
  /-- TIME_INC_WRITE (R278): The SERVO writer sets the counter increment, clearing HOLDOVER and restarting the sync timeout. -/
  | timeIncWrite (m : Master) (v : Word)
  /-- TIME_STEP_WRITE (R279): The SERVO writer adds a signed offset to the time counter, refused while the pour table runs. -/
  | timeStepWrite (m : Master) (v : Word)
  /-- HOLDOVER (R283): SYNC_TIMEOUT_MS passes without a TIME_INC write, setting HOLDOVER and HOLD_EVT. -/
  | holdover
  /-- COMPARE_ARM (R282): Setting ARM of TIME_CMP arms a compare unit. -/
  | compareArm (m : Master) (n : Nat) (v : Word)
  /-- COMPARE_FIRE (R282): An armed compare unit fires at TARGET, pulses its pin and reloads or disarms. -/
  | compareFire (n : Nat)
  /-- ETH_RING_DOORBELL (R290): A write of PROD in ETH_RINGDB offers new descriptors to an Ethernet ring. -/
  | ethRingDoorbell (m : Master) (r : Nat) (v : Word)
  /-- FRAME_TRANSMIT (R291): A transmit frame leaves when eligible by launch time and gate, then its write-back advances CONS. -/
  | frameTransmit (r : Nat)
  /-- LAUNCH_LATE (R291): A frame not started by LAUNCH_TIME + LATE_US completes with LATE. -/
  | launchLate (can : Option Nat) (r : Nat)
  /-- FRAME_RECEIVE (R289): A received Ethernet frame is filtered and written to its receive ring, or dropped and counted. -/
  | frameReceive (f : EthFrame)
  /-- GATE_LIST_EVENT (R281): A local compare of an 802.1Qbv or 802.1Qci gate list fires and changes gate states. -/
  | gateListEvent (sel : Nat) (n : Nat)
  /-- CAN_ARBITRATION (R293): A CAN controller offers the lowest identifier among its queue heads and transmits it. -/
  | canArbitration (c : Nat)
  /-- CAN_FRAME_RECEIVE (R294): A received CAN frame is searched against the acceptance filters and delivered, tunnelled or routed. -/
  | canFrameReceive (c : Nat) (f : CanFrame)
  /-- BUS_OFF (R292): A controller goes bus-off and every queued frame completes with BUS_OFF. -/
  | busOff (c : Nat)
  /-- BUS_OFF_RECOVERY (R292): With AUTO_RECOVER, a controller rejoins after 128 occurrences of 11 recessive bits. -/
  | busOffRecovery (c : Nat)
  /-- ADDRESS_CLAIM (R296): Setting EN of a CAN_J1939 slot transmits Address Claimed and holds its frames. -/
  | addressClaim (m : Master) (c : Nat) (slot : Nat) (v : Word)
  /-- CLAIM_HOLD_EXPIRY (R296): 250 ms after a claim, the slot enters held and releases its frames. -/
  | claimHoldExpiry (c : Nat) (slot : Nat)
  /-- CANNOT_CLAIM (R296): After its pseudo-random delay, a lost slot without ARB_CAPABLE transmits Cannot Claim. -/
  | cannotClaim (c : Nat) (slot : Nat)
  /-- TUNNEL_ENABLE (R298): Setting EN of CAN_TUNCFG reads the tunnel table. -/
  | tunnelEnable (m : Master) (v : Word)
  /-- TUNNEL_FLUSH (R297): MAX_WAIT_US after its first message, an outbound AVTPDU is sent from port 14. -/
  | tunnelFlush (t : Nat)
  /-- AVTPDU_RECEIVE (R298): An inbound AVTPDU places its ACF CAN messages into the matching controllers' route queues. -/
  | avtpduReceive (stream : Nat) (seq : Nat) (msgs : List AcfMsg)
  /-- BRIDGE_REQUEST (R300): A request into a bridge window is carried to its PCIe or Weska target, or faults. -/
  | bridgeRequest (m : Master) (addr : Nat) (write : Option (List Byte)) (bytes : Nat)
  /-- CPL_TIMEOUT (R301): A non-posted bridge request without a completion within CPL_TIMEOUT_US completes as a fault. -/
  | cplTimeout (tag : Nat)
  /-- POSTED_WRITE_ERROR (R301): A far-side error of a posted write counts in ERRS and interrupts the window's owner. -/
  | postedWriteError (n : Nat)
  /-- LINK_TRAINING (R305): A Weska port trains its lanes at width 4 or 2 and counts retrains. -/
  | linkTraining (p : Nat) (width : Nat) (peer : Nat)
  /-- PORT_DOWN (R313): A Weska port leaves STATE 2h, discarding its unacknowledged cells and rerouting later cells. -/
  | portDown (p : Nat)
  /-- CELL_RECEIVE (R310): A received cell is consumed, forwarded cut-through or dropped, with replay asked on an uncorrectable codeword. -/
  | cellReceive (p : Nat) (c : Cell) (uncorrectable : Bool)
  /-- CELL_TRANSMIT (R308): A cell leaves a Weska port once it holds a credit of its channel at the next device;
  `again` is the SEQ from which the partner asks for replay, if it does (R307). -/
  | cellTransmit (p : Nat) (vc : Nat) (again : Option Nat)
  /-- TIME_MESSAGE_SEND (R315): Every SYNC_US the time-source device sends a time message on channel 0 through every port. -/
  | timeMessageSend
  /-- LINK_DELAY_MEASURE (R315): Once a second each port measures LINK_DELAY_NS by an exchange with its partner. -/
  | linkDelayMeasure (p : Nat) (outNs : Nat) (backNs : Nat)
  /-- RENDEZVOUS (R317): Every WAKE_TICKS a dozing port sends a burst and listens, aligning on a catch or searching on a miss. -/
  | rendezvous (p : Nat) (caught : Option Int)
  /-- WSK_WAKE_PULSE (R319): A pulse on WSK_WAKE powers and trains the port lanes so the partners realign. -/
  | wskWakePulse (p : Nat) (ticks : Nat) (driftNs : Int)
  /-- POWER_UP (R323): The supply rails rise in their sequence until RESET_N may be released. -/
  | powerUp
  /-- RESET_ASSERT (R350): RESET_N low holds the device in reset, with the safety outputs held low. -/
  | resetAssert
  /-- BOOT (R329): A rise of RESET_N resets registers and runs the Crucible ROM boot through the Cupola and real-time cores. -/
  | boot (slotA : BootSlot) (slotB : BootSlot) (rec : RecordSource)
  /-- BROWN_OUT (R324): VDD_SOC or VDD_AON below 85 % for over 10 µs holds the device in reset and records BROWNOUT. -/
  | brownOut (rail : Nat)
  /-- POWER_OFF (R325): The supplies are removed and the device enters OFF. -/
  | powerOff
  /-- POWER_FAIL_WARNING (R327): PFW_N low for 20 µs makes the Cupola write the final PFW_N checkpoint. -/
  | powerFailWarning
  /-- WAKE (R326): A CAN, Ethernet, Weska or WAKE_IN_N wake source in STANDBY raises SOC_PWR_EN and records WAKE_CAUSE. -/
  | wake (w : WakeSource)
  /-- WAKE_TIMER (R326): STBY_SEC reaches a non-zero WAKE_SEC and wakes the device. -/
  | wakeTimer
  /-- STANDBY_SECOND (R325): Each second of STANDBY adds 1 to STBY_SEC. -/
  | standbySecond
  /-- GET_VERSION (R333): The message returns the target's format version, image version and digest. -/
  | getVersion (m : Master) (ch : Nat)
  /-- FW_LOAD (R332): The Crucible verifies an image and makes it the staged image of its target. -/
  | fwLoad (m : Master) (ch : Nat) (ok : Bool)
  /-- FW_RESTART (R335): The Crucible restarts one firmware processor on its staged or running image while hardware holds its settings. -/
  | fwRestart (m : Master) (ch : Nat)
  /-- FW_RESTART_DONE (R335): A restarted firmware processor runs again and serves the work held while it restarted. -/
  | fwRestartDone (proc : Nat) (areaOk : Bool)
  /-- POWER_MODE (R325): The Cupola checkpoints and enters STANDBY when every flask is free, or answers DENIED. -/
  | powerMode (m : Master) (ch : Nat)
  /-- FIELD_RECORD_READ (R333): The Cupola writes the newest record, summary or signed live record into the sender's memory. -/
  | fieldRecordRead (m : Master) (ch : Nat)
  /-- BILLET_PREPARE (R340): The Cupola writes a REASON 04h checkpoint everywhere, stops writing the billet and powers it down. -/
  | billetPrepare (m : Master) (ch : Nat)
  /-- BILLET_PAIR (R338): The Crucible verifies a new billet, programs its RPMB key and writes the binding record. -/
  | billetPair (m : Master) (ch : Nat) (ok : Bool)
  /-- BILLET_STATUS (R339): The Cupola returns the billet's serial, bytes written, endurance and remaining life. -/
  | billetStatus (m : Master) (ch : Nat)
  /-- ATTEST (R235): The Crucible builds and signs the attestation report over the given nonce. -/
  | attest (m : Master) (ch : Nat)
  /-- KEY_RELEASE (R232): The Crucible loads a delivered key into a flask's key slot when its policy holds. -/
  | keyRelease (m : Master) (ch : Nat)
  /-- ETH_PORT_CFG (R334): The switch controller stages configuration items of one port and applies them on COMMIT. -/
  | ethPortCfg (m : Master) (ch : Nat)
  /-- DSP_LINK_CFG (R333): The display controller trains an output link and sets its timing. -/
  | dspLinkCfg (m : Master) (ch : Nat)
  /-- KICK (R336): Setting KICK restarts the Cupola watchdog period. -/
  | kick (m : Master) (v : Word)
  /-- CUPOLA_WATCHDOG (R336): TIMEOUT_MS passes without a kick and the watchdog restarts the Cupola alone. -/
  | cupolaWatchdog
  /-- MGR_LOCK_SET (R349): Setting MGR of SYS_LOCK starts test-bar image verification and creates the spare area. -/
  | mgrLockSet (m : Master) (v : Word)
  /-- IRQ_ENABLE (R359): Setting EN of SYS_IRQCFG sends the manager interrupts whose causes were kept. -/
  | irqEnable (m : Master) (v : Word)
  /-- REGISTER_WRITE (R346): A write to a register without a row of its own takes effect, or is refused or locked and flagged. -/
  | registerWrite (m : Master) (addr : Nat) (h : Half) (v : Word)
  /-- BYPASS (R371): The JTAG instruction BYPASS selects the bypass register. -/
  | bypass
  /-- SAMPLE_PRELOAD (R371): The JTAG instruction SAMPLE/PRELOAD samples and preloads the boundary-scan chain. -/
  | samplePreload (pins : List Bool) (preload : List Bool)
  /-- EXTEST (R371): The JTAG instruction EXTEST drives the balls from the chain. -/
  | extest
  /-- IDCODE (R371): The JTAG instruction IDCODE returns 1964_0B47h. -/
  | idcode
  /-- CLAMP (R371): The JTAG instruction CLAMP holds the outputs from the chain with bypass selected. -/
  | clamp
  /-- HIGHZ (R371): The JTAG instruction HIGHZ places the outputs in high impedance. -/
  | highz
  /-- TSCLK_EDGE (R277): At every TSCLK edge the time counter adds INC_SUB to its sub-fraction and INC plus the carry to its fraction and nanoseconds. -/
  | tsclkEdge
  /-- INSTANCE_RESET_DONE (R217): An instance reset finishes its work in STATE 4h and the instance returns to STATE 1h within 50 µs, clearing RESET. -/
  | instanceResetDone (i : Nat)
  /-- POWER_FAIL_WARNING_END (R328): PFW_N rises again before a collapse, PFW of SYS_PWRSTAT clears and the device continues with the PFW_N record standing. -/
  | powerFailWarningEnd
  /-- BILLET_CHANGE (R340): The billet module is removed or fitted while the device is ON, changing SYS_BILLET STATE between absent and unpaired. -/
  | billetChange (fitted : Bool) (serial : Nat) (endurance : Nat) (foreign : Bool)
  /-- UNKNOWN_MSG_ID (R333): A mailbox request whose MSG_ID is unknown, or whose MAJOR is not served, is answered with BAD_MSG or VERSION. -/
  | unknownMsgId (m : Master) (ch : Nat)
  /-- DENIED_READ (R347): A register read by a master not permitted under R354 returns zero, sets DENIED, counts in COUNT and may capture the access and interrupt. -/
  | deniedRead (m : Master) (addr : Nat) (h : Half)
  /-- START_INTERFACE_REQUEST (R227): The TDISP request moves a locked TDI from CONFIG_LOCKED to RUN, after which it issues requests with the T bit set. -/
  | startInterfaceRequest (p : Nat) (vf : Nat)
  /-- IDE_KM (R226): An IDE_KM key-programming message over a port's SPDM session makes the Crucible program an IDE stream key. -/
  | ideKm (port : Nat) (stream : Nat) (key : Nat)
  /-- LINK_RETRAIN (R156): An Ethernet, PCIe, CSI-2, display or UFS link goes down and retrains, changing the link state and counting in the field record's link retrains. -/
  | linkRetrain (l : LinkId)
  deriving DecidableEq, Repr

end Sys2Proof
end

