-- ==== Sys2Proof/Decode.lean ====
section
/-! DEFINITION. The command a word spells. No row of the table gives its command any bits: commands reach the
block as register accesses, messages, packets and events, so no word spells a command. -/

namespace Sys2Proof

/-- The command that a word of the table's bits spells; the table gives bits to none of its rows. -/
def decodeTableWord (_nbits _w : Nat) : Option Instr := none

end Sys2Proof
end

