-- ==== Sys2Proof/Machine/Bits.lean ====
section
/-! DEFINITION. Bit fields, byte order, sign conversion, the CRC-32 and CRC-16 of the manual, and the
canonical sorted maps in which the state keeps sparse data. -/

namespace Sys2Proof.Machine

/-- Bits [hi:lo] of a number, as the manual writes ranges (R8). -/
def bits (w hi lo : Nat) : Nat := (w / 2 ^ lo) % 2 ^ (hi + 1 - lo)

/-- One bit of a number. -/
def bit (w i : Nat) : Bool := bits w i i == 1

/-- The number with bits [hi:lo] replaced by the low bits of `v`. -/
def putBits (w hi lo v : Nat) : Nat :=
  (w / 2 ^ (hi + 1)) * 2 ^ (hi + 1) + (v % 2 ^ (hi + 1 - lo)) * 2 ^ lo + w % 2 ^ lo

/-- 1 for true, 0 for false. -/
def b2n (b : Bool) : Nat := if b then 1 else 0

/-- The value of an n-bit two's complement code. -/
def sint (n v : Nat) : Int :=
  let u := v % 2 ^ n
  if u < 2 ^ (n - 1) then (u : Int) else (u : Int) - (2 ^ n : Nat)

/-- The n-bit two's complement code of an integer. -/
def uint (n : Nat) (v : Int) : Nat := (v % ((2 ^ n : Nat) : Int)).toNat

/-- R280: `t` has reached `u` when (t − u) mod 2^64, as a signed value, is not negative. -/
def reached (t u : Nat) : Bool := decide (0 ≤ sint 64 ((t + 2 ^ 64 - u % 2 ^ 64) % 2 ^ 64))

/-- The later of two times, by the test of R280. -/
def later (t u : Nat) : Nat := if reached t u then t else u

/-- Unsigned 32-bit distance of two ring indices (R29). -/
def dist32 (a b : Nat) : Nat := (a + 2 ^ 32 - b % 2 ^ 32) % 2 ^ 32

/-- Division rounded up. -/
def cdiv (a b : Nat) : Nat := (a + b - 1) / b

/-- The value of a little-endian byte list (R54, chapter 02). -/
def leNat : List Byte → Nat
  | [] => 0
  | b :: bs => b.toNat + 256 * leNat bs

/-- `n` bytes of a number, little-endian. -/
def toLE : Nat → Nat → List Byte
  | 0, _ => []
  | n + 1, v => BitVec.ofNat 8 v :: toLE n (v / 256)

/-- Little-endian value of `n` bytes at offset `o` of a byte list; missing bytes read as zero. -/
def leAt (bs : List Byte) (o n : Nat) : Nat := leNat ((bs.drop o).take n)

/-- The 64-bit words of a byte list, little-endian. -/
def words64 : Nat → List Byte → List Nat
  | 0, _ => []
  | n + 1, bs => leNat (bs.take 8) :: words64 n (bs.drop 8)

/-- Word `k` of a list of words; absent words read as zero. -/
def wordAt (ws : List Nat) (k : Nat) : Nat := ws.getD k 0

/-- `put xs k v`: the list with element k replaced. -/
def putAt {α : Type} : List α → Nat → α → List α
  | [], _, _ => []
  | _ :: xs, 0, v => v :: xs
  | x :: xs, k + 1, v => x :: putAt xs k v

/-- One bit step of a reflected CRC. -/
def crcStep (poly crc : Nat) : Nat :=
  if crc % 2 = 1 then Nat.xor (crc / 2) poly else crc / 2

/-- Eight bit steps. -/
def crcByte (poly crc : Nat) (b : Byte) : Nat :=
  let c := Nat.xor crc b.toNat
  (List.range 8).foldl (fun c _ => crcStep poly c) c

/-- The CRC-32 of chapter 06: polynomial 04C1_1DB7h reflected, as a running register that starts at
FFFF_FFFFh and is inverted at the end. -/
def crc32Fold (crc : Nat) (bs : List Byte) : Nat := bs.foldl (crcByte 0xEDB88320) crc

/-- Initial value of the running CRC-32. -/
def crc32Init : Nat := 0xFFFFFFFF

/-- Final inversion of the running CRC-32. -/
def crc32Final (crc : Nat) : Nat := Nat.xor crc 0xFFFFFFFF

/-- CRC-32 of a byte list as in IEEE 802.3 (chapter 06). -/
def crc32 (bs : List Byte) : Nat := crc32Final (crc32Fold crc32Init bs)

/-- One bit step of the CRC-16 of R190 (polynomial 1021h, most significant bit first). -/
def crc16Step (crc : Nat) : Nat :=
  if bit crc 15 then Nat.xor ((crc * 2) % 65536) 0x1021 else (crc * 2) % 65536

/-- CRC-16 of R190: polynomial 1021h, initial value FFFFh, bytes in ascending order. -/
def crc16 (bs : List Byte) : Nat :=
  bs.foldl (fun crc b => (List.range 8).foldl (fun c _ => crc16Step c)
    (Nat.xor crc (b.toNat * 256))) 0xFFFF

/-- A sparse map with natural keys in one canonical form: keys strictly rising, and no entry equal to
the value an unlisted key reads as. -/
abbrev NMap (α : Type) := List (Nat × α)

/-- The entry at a key, if listed. -/
def NMap.find {α : Type} : NMap α → Nat → Option α
  | [], _ => none
  | (k, v) :: m, i => if i = k then some v else NMap.find m i

/-- The value at a key; `d` is what an unlisted key reads as. -/
def NMap.get {α : Type} (m : NMap α) (d : α) (i : Nat) : α := (NMap.find m i).getD d

/-- The map with a key removed. -/
def NMap.erase {α : Type} (m : NMap α) (i : Nat) : NMap α := m.filter fun p => p.1 != i

/-- The map with a key listed. -/
def NMap.insert {α : Type} : NMap α → Nat → α → NMap α
  | [], i, x => [(i, x)]
  | (k, v) :: m, i, x =>
    if i = k then (i, x) :: m
    else if i < k then (i, x) :: (k, v) :: m
    else (k, v) :: NMap.insert m i x

/-- The write of a map: writing what an unlisted key reads as removes the entry. -/
def NMap.set {α : Type} [DecidableEq α] (m : NMap α) (d : α) (i : Nat) (x : α) : NMap α :=
  if x = d then NMap.erase m i else NMap.insert m i x

/-- Keys strictly rising from above `lo`, and no entry equal to the default. -/
def NMap.wfFrom {α : Type} [DecidableEq α] (d : α) : Option Nat → NMap α → Bool
  | _, [] => true
  | lo, (k, v) :: m =>
    (match lo with | none => true | some l => decide (l < k)) && decide (v ≠ d)
      && NMap.wfFrom d (some k) m

/-- The canonical form of a sparse map. -/
def NMap.wf {α : Type} [DecidableEq α] (d : α) (m : NMap α) : Bool := NMap.wfFrom d none m

/-- Set membership and update for lists of naturals kept in rising order without repeats. -/
def insNat : List Nat → Nat → List Nat
  | [], x => [x]
  | y :: ys, x => if x = y then y :: ys else if x < y then x :: y :: ys else y :: insNat ys x

/-- A list of naturals without one value. -/
def delNat (xs : List Nat) (x : Nat) : List Nat := xs.filter (fun y => y != x)

/-- The list with element `k` removed. -/
def dropAt {α : Type} : List α → Nat → List α
  | [], _ => []
  | _ :: xs, 0 => xs
  | x :: xs, k + 1 => x :: dropAt xs k

end Sys2Proof.Machine
end

