-- ==== Sys2Proof/Machine/Float.lean ====
section
/-! DEFINITION. The arithmetic of chapter 04: format codes, exact expansion, products, sums in binary32 with
round-to-nearest-even, the conversion of R81, and key-value compaction (R88). Values are exact: a sign, a
natural significand and a power of two. -/

namespace Sys2Proof.Machine

/-- A value: NaN, an infinity, or (−1)^neg × m × 2^e. -/
inductive FV where
  | nan
  | inf (neg : Bool)
  | fin (neg : Bool) (m : Nat) (e : Int)
  deriving DecidableEq, Repr

/-- m / 2^sh rounded to nearest, ties to even. -/
def rneShift (m sh : Nat) : Nat :=
  let q := m / 2 ^ sh
  let r := 2 * (m % 2 ^ sh)
  if r < 2 ^ sh then q else if 2 ^ sh < r then q + 1 else if q % 2 = 0 then q else q + 1

/-- m × 2^e rounded to nearest even to a multiple of 2^t, in units of 2^t. -/
def rneAt (m : Nat) (e t : Int) : Nat :=
  if t ≤ e then m * 2 ^ (e - t).toNat else rneShift m (t - e).toNat

/-- Floor of the binary logarithm of m × 2^e, for m > 0. -/
def flog2 (m : Nat) (e : Int) : Int := e + (Nat.log2 m : Int)

/-- The exponent of the last place of m × 2^e in a format of `p` significant bits and least exponent `emin`. -/
def ulpExp (p : Nat) (emin : Int) (m : Nat) (e : Int) : Int := max (flog2 m e + 1 - p) emin

/-- The magnitude code of m × 2^e in a floating format, exponent field unbounded, rounded to nearest even. -/
def fpMag (mbits bias : Nat) (m : Nat) (e : Int) : Nat :=
  if m = 0 then 0
  else
    let emin : Int := 1 - (bias : Int) - mbits
    let t := ulpExp (mbits + 1) emin m e
    let q := rneAt m e t
    -- q counts units of 2^t; a carry into the next binade adds to the exponent field by itself
    if q < 2 ^ mbits then q else ((t - emin).toNat) * 2 ^ mbits + q

/-- The value of a magnitude code of a floating format. -/
def fpVal (mbits bias code : Nat) : Nat × Int :=
  let ex := code / 2 ^ mbits
  let fr := code % 2 ^ mbits
  if ex = 0 then (fr, 1 - (bias : Int) - mbits)
  else (2 ^ mbits + fr, (ex : Int) - bias - mbits)

/-! ## binary32 -/

/-- The canonical NaN. -/
def nan32 : Nat := 0x7FC00000

/-- An infinity of binary32. -/
def inf32 (neg : Bool) : Nat := 0x7F800000 + b2n neg * 2 ^ 31

/-- The value of a binary32 code. -/
def ofF32 (c : Nat) : FV :=
  let neg := bit c 31
  let mag := c % 2 ^ 31
  if mag = 0x7F800000 then .inf neg
  else if 0x7F800000 < mag then .nan
  else
    let v := fpVal 23 127 mag
    .fin neg v.1 v.2

/-- binary32 of a value, rounded once to nearest even. -/
def toF32 : FV → Nat
  | .nan => nan32
  | .inf neg => inf32 neg
  | .fin neg m e =>
    let c := fpMag 23 127 m e
    if 0x7F800000 ≤ c then inf32 neg else c + b2n neg * 2 ^ 31

/-- The exact sum of two finite values; a sum of zero is +0 unless both are −0. -/
def addFin (n1 : Bool) (m1 : Nat) (e1 : Int) (n2 : Bool) (m2 : Nat) (e2 : Int) : FV :=
  let e := min e1 e2
  let a : Int := (m1 * 2 ^ (e1 - e).toNat : Nat)
  let b : Int := (m2 * 2 ^ (e2 - e).toNat : Nat)
  let v := (if n1 then -a else a) + (if n2 then -b else b)
  if v = 0 then .fin (n1 && n2 && m1 == 0 && m2 == 0) 0 e else .fin (decide (v < 0)) v.natAbs e

/-- The exact sum of two values (R76). -/
def addFV : FV → FV → FV
  | .nan, _ => .nan
  | _, .nan => .nan
  | .inf a, .inf b => if a = b then .inf a else .nan
  | .inf a, .fin .. => .inf a
  | .fin .., .inf b => .inf b
  | .fin n1 m1 e1, .fin n2 m2 e2 => addFin n1 m1 e1 n2 m2 e2

/-- R76: binary32 addition, rounded to nearest even. -/
def f32add (a b : Nat) : Nat := toF32 (addFV (ofF32 a) (ofF32 b))

/-- The exact product of two values (R75). -/
def mulFV : FV → FV → FV
  | .nan, _ => .nan
  | _, .nan => .nan
  | .inf a, .inf b => .inf (a != b)
  | .inf a, .fin n m _ => if m = 0 then .nan else .inf (a != n)
  | .fin n m _, .inf b => if m = 0 then .nan else .inf (n != b)
  | .fin n1 m1 e1, .fin n2 m2 e2 => .fin (n1 != n2) (m1 * m2) (e1 + e2)

/-- What an expansion or product counted (R74, R75). -/
inductive Cnt where
  | none | ovf | flush
  deriving DecidableEq, Repr

/-- R75: the product of two CF19 values in binary32, with the counted exceptions. -/
def f32prod (a b : Nat) : Nat × Cnt :=
  match mulFV (ofF32 a) (ofF32 b) with
  | .nan => (nan32, .none)
  | .inf n => (inf32 n, .none)
  | .fin n m e =>
    if m = 0 then (b2n n * 2 ^ 31, .none)
    else if 128 ≤ flog2 m e then (inf32 n, .ovf)
    else
      let t := ulpExp 24 (-149) m e
      if decide (flog2 m e < -126) && !(decide (t ≤ e) || m % 2 ^ (t - e).toNat == 0)
      then (b2n n * 2 ^ 31, .flush)
      else (toF32 (.fin n m e), .none)

/-- A value times a power of two. -/
def scaleFV (v : FV) (k : Int) : FV :=
  match v with
  | .fin n m e => .fin n m (e + k)
  | v => v

/-- R78: the negation of a binary32 code; NaN stays. -/
def f32neg (c : Nat) : Nat :=
  match ofF32 c with
  | .nan => nan32
  | _ => Nat.xor c (2 ^ 31)

/-- Comparison of values other than NaN: a < b, with −0 below +0 when `zeros` is set. -/
def fvLt (zeros : Bool) : FV → FV → Bool
  | .nan, _ => false
  | _, .nan => false
  | .inf a, .inf b => a && !b
  | .inf a, .fin .. => a
  | .fin .., .inf b => !b
  | .fin n1 m1 e1, .fin n2 m2 e2 =>
    let e := min e1 e2
    let a : Int := (m1 * 2 ^ (e1 - e).toNat : Nat)
    let b : Int := (m2 * 2 ^ (e2 - e).toNat : Nat)
    let x := if n1 then -a else a
    let y := if n2 then -b else b
    if m1 = 0 && m2 = 0 then zeros && n1 && !n2 else decide (x < y)

/-- A correctly rounded quotient of a value by a positive integer, in binary32 (R105). -/
def f32divNat (v : FV) (k : Nat) : Nat :=
  match v with
  | .fin n m e =>
    if m = 0 then b2n n * 2 ^ 31
    else
      -- enough extra bits for an exact rounding decision: a sticky last bit marks a remainder
      let x := m * 2 ^ 64
      let q := x / k
      let q' := 2 * q + (if x % k = 0 then 0 else 1)
      toF32 (.fin n q' (e - 65))
  | v => toF32 v

/-- A correctly rounded quotient of two values in binary32, IEEE 754. -/
def f32div (a b : Nat) : Nat :=
  match ofF32 a, ofF32 b with
  | .nan, _ => nan32
  | _, .nan => nan32
  | .inf _, .inf _ => nan32
  | .inf n, .fin n2 _ _ => inf32 (n != n2)
  | .fin n _ _, .inf n2 => b2n (n != n2) * 2 ^ 31
  | .fin n m e, .fin n2 m2 e2 =>
    if m2 = 0 then (if m = 0 then nan32 else inf32 (n != n2))
    else if m = 0 then b2n (n != n2) * 2 ^ 31
    else
      let x := m * 2 ^ 64
      toF32 (.fin (n != n2) (2 * (x / m2) + (if x % m2 = 0 then 0 else 1)) (e - e2 - 65))

/-- IEEE 754 binary32 product, rounded to nearest even, subnormals kept. -/
def f32mul (a b : Nat) : Nat := toF32 (mulFV (ofF32 a) (ofF32 b))

/-! ## Format codes (R70) -/

/-- Element width in bits. -/
def fmtBits : Nat → Nat
  | 0 => 4
  | 1 => 8
  | 2 => 8
  | 3 => 4
  | 4 => 6
  | 5 => 6
  | 6 => 8
  | 7 => 8
  | 8 => 16
  | 9 => 16
  | _ => 32

/-- Element size in bytes in memory, for the formats of a feature map. -/
def fmtBytes (f : Nat) : Nat := fmtBits f / 8

/-- Fraction bits, exponent bias and largest finite magnitude code of a floating format. -/
def fpSpec : Nat → Nat × Nat × Nat
  | 3 => (1, 1, 7)
  | 4 => (2, 3, 31)
  | 5 => (3, 1, 31)
  | 6 => (3, 7, 0x7E)
  | 7 => (2, 15, 0x7B)
  | 8 => (10, 15, 0x7BFF)
  | 9 => (7, 127, 0x7F7F)
  | 10 => (10, 127, 0x3FBFF)
  | _ => (23, 127, 0x7F7FFFFF)

/-- The format has infinities. -/
def hasInf (f : Nat) : Bool := decide (7 ≤ f)

/-- The format has a NaN. -/
def hasNan (f : Nat) : Bool := decide (6 ≤ f)

/-- The value of a format code, before its scale. A CF19 container's low 13 bits are ignored (R71). -/
def fmtVal (f c : Nat) : FV :=
  match f with
  | 0 => let v := sint 4 c; .fin (decide (v < 0)) v.natAbs 0
  | 1 => let v := sint 8 c; .fin (decide (v < 0)) v.natAbs 0
  | 2 => .fin false (c % 256) 0
  | _ =>
    let sp := fpSpec f
    let w := if f = 10 then 19 else fmtBits f
    let c' := if f = 10 then c / 8192 else c
    let neg := bit c' (w - 1)
    let mag := c' % 2 ^ (w - 1)
    if mag ≤ sp.2.2 then
      let v := fpVal sp.1 sp.2.1 mag
      .fin neg v.1 v.2
    else if hasInf f && mag == sp.2.2 + 1 then .inf neg
    else .nan

/-- R74: the CF19 expansion, as a binary32 code, of an element with scale exponent `e`. -/
def expand (f c : Nat) (e : Int) : Nat × Cnt :=
  match fmtVal f c with
  | .nan => (nan32, .none)
  | .inf n => (inf32 n, .none)
  | .fin n m x =>
    let x' := x + e
    if m = 0 then (b2n n * 2 ^ 31, .none)
    else if f < 9 then (toF32 (.fin n m x'), .none)
    else if 128 ≤ flog2 m x' then (inf32 n, .ovf)
    else
      let t := ulpExp 11 (-136) m x'
      if decide (t ≤ x') || m % 2 ^ (t - x').toNat == 0 then (toF32 (.fin n m x'), .none)
      else (b2n n * 2 ^ 31, .flush)

/-- The result of a conversion: the code, whether it saturated, whether a NaN was written as code 0. -/
structure Conv where
  code : Nat
  sat : Bool := false
  nanOut : Bool := false
  deriving DecidableEq, Repr

/-- The code of a signed integer format. -/
def convInt (w : Nat) (neg : Bool) (q : Nat) : Conv :=
  let top := 2 ^ (w - 1)
  if neg then if top < q then { code := top, sat := true } else { code := uint w (-(q : Int)) }
  else if top ≤ q then { code := top - 1, sat := true } else { code := q }

/-- Rebuild a floating code from sign and magnitude; CF19 lies in the high bits of its container. -/
def fpCode (f : Nat) (neg : Bool) (mag : Nat) : Nat :=
  if f = 10 then (mag + b2n neg * 2 ^ 18) * 8192 else mag + b2n neg * 2 ^ (fmtBits f - 1)

/-- The NaN that a format writes (R81). -/
def fmtNan : Nat → Nat
  | 6 => 0x7F
  | 7 => 0x7F
  | 8 => 0x7E00
  | 9 => 0x7FC0
  | _ => nan32

/-- R81: v × 2^−e converted once, to nearest even, into a format. -/
def convert (f : Nat) (v : FV) (e : Int) : Conv :=
  match v with
  | .nan => if hasNan f then { code := fmtNan f } else { code := 0, nanOut := true }
  | .inf n =>
    match f with
    | 0 => { code := if n then 8 else 7, sat := true }
    | 1 => { code := if n then 128 else 127, sat := true }
    | 2 => { code := if n then 0 else 255, sat := true }
    | _ => { code := fpCode f n (fpSpec f).2.2, sat := true }
  | .fin n m x =>
    let x' := x - e
    match f with
    | 0 => convInt 4 n (rneAt m x' 0)
    | 1 => convInt 8 n (rneAt m x' 0)
    | 2 =>
      let q := rneAt m x' 0
      if n then { code := 0, sat := decide (0 < q) }
      else if 255 < q then { code := 255, sat := true } else { code := q }
    | _ =>
      let sp := fpSpec f
      let c := fpMag sp.1 sp.2.1 m x'
      if sp.2.2 < c then { code := fpCode f n sp.2.2, sat := true } else { code := fpCode f n c }

/-- R100: the code of an element's value × 2^(e − eMax) in its own format; infinities and NaNs keep theirs. -/
def realign (f c : Nat) (d : Int) : Nat :=
  match fmtVal f c with
  | .fin n m x => (convert f (.fin n m (x + d)) 0).code
  | _ => c

/-! ## The post-operation unit (R79) -/

/-- ACT applied to a binary32 value. -/
def actOp (act slope : Nat) (c : Nat) : Nat :=
  match ofF32 c with
  | .nan => nan32
  | v =>
    let pos := fvLt false (.fin false 0 0) v
    match act with
    | 1 => if pos then c else 0
    | 2 => if !pos then 0 else if fvLt false (.fin false 6 0) v then 0x40C00000 else c
    | 3 => if fvLt false v (.fin false 0 0) then toF32 (scaleFV v (-(slope : Int))) else c
    | _ => c

/-- TOP of R80. -/
def topOf : Nat → Int
  | 0 => 2
  | 1 => 6
  | 2 => 7
  | 3 => 2
  | 4 => 4
  | 5 => 2
  | 6 => 8
  | _ => 15

/-- Clamp to the scale range (R73). -/
def clampScale (x : Int) : Int := max (-64) (min 63 x)

/-- R80: the scale of a row, from the history. -/
def rowScale (ofmt : Nat) (hist : List Int) (headroom : Nat) (seed : Int) : Int :=
  if 9 ≤ ofmt then 0
  else
    match hist with
    | [] => seed
    | h :: hs => clampScale (hs.foldl max h + headroom - topOf ofmt)

/-- R80: the magnitude exponent a row adds to the history, if any. -/
def rowMag (vs : List Nat) : Option Int :=
  if vs.any (fun c => match ofF32 c with | .inf _ => true | _ => false) then some 128
  else
    vs.foldl (fun acc c =>
      match ofF32 c with
      | .fin _ m e =>
        if m = 0 then acc
        else match acc with
          | none => some (flog2 m e)
          | some x => some (max x (flog2 m e))
      | _ => acc) none

/-- R80: the history after a row. -/
def histAdd (hist : List Int) (window : Nat) (x : Option Int) : List Int :=
  match x with
  | none => hist
  | some v =>
    let h := hist ++ [v]
    if window + 1 < h.length then h.drop 1 else h

/-! ## Key-value compaction (R88) -/

/-- The shift of a row: the smallest e with m ≤ 448 × 2^e, clamped. -/
def kvShift (xs : List Nat) : Int :=
  let best := xs.foldl (fun (acc : Option FV) c =>
    match ofF32 c with
    | .fin _ m e =>
      if m = 0 then acc
      else match acc with
        | none => some (.fin false m e)
        | some v => if fvLt false v (.fin false m e) then some (.fin false m e) else some v
    | _ => acc) none
  match best with
  | some (.fin _ m e) =>
    -- ceiling(log2(m·2^e / 448)): 448 = 7 × 2^6
    let k := flog2 m e - 8
    clampScale (if fvLt false (.fin false 448 k) (.fin false m e) then k + 1 else k)
  | _ => -64

/-- R88: the codes of a compacted row under its shift. -/
def kvCode (e : Int) (c : Nat) : Nat :=
  match ofF32 c with
  | .fin n m x =>
    if fvLt false (.fin false m x) (.fin false 1 (e - 9)) then 0 else (convert 6 (.fin n m x) e).code
  | _ => 0x7F

end Sys2Proof.Machine
end

