-- ==== Sys2Proof/Config.lean ====
section
/-! DEFINITION. What the manual leaves open: opaque constants without a body. Each is applied to the
operands it may depend on, or to the state's counter of free values, so that no proof can see a value of it. -/

namespace Sys2Proof

/-- A byte that the manual leaves open: the mould store read while an outstanding asynchronous command
writes it (R52), a byte a far side returns (R301), bytes of a line after an uncorrectable error, signatures
and measurements the manual does not compute. Log entry 3. -/
opaque Config.freeByte : Nat → Byte

/-- A number that the manual leaves open. Log entry 3. -/
opaque Config.freeNat : Nat → Nat

/-- The ciphertext of a 4 KB unit under a key and a nonce: AES-256-GCM (R209), which the manual names and
does not restate. Log entry 4. -/
opaque Config.seal : Nat → Nat → List Byte → List Byte

/-- The GCM tag of a ciphertext unit under a key and a nonce. Log entry 4. -/
opaque Config.sealTag : Nat → Nat → List Byte → Nat

/-- The plaintext of a ciphertext unit under a key, nonce and tag; none when it does not authenticate.
Log entry 4. -/
opaque Config.unseal : Nat → Nat → List Byte → Nat → Option (List Byte)

/-- The keyed 64-bit function of an integrity tag (R195): key, address of the line, and its bytes. The manual gives no
algorithm. Log entry 165. -/
opaque Config.lineTag : Nat → Nat → List Byte → Nat

/-- The fixed exponential of the vector engines where R240 gives only an error bound: a binary32 code for a
binary32 code. Log entry 5. -/
opaque Config.vexp : Nat → Nat

/-- The fixed sine and cosine of the runner (R266), of which the manual gives only an error bound: a binary32
code for a binary32 code. Log entry 5. -/
opaque Config.rsin : Nat → Nat
opaque Config.rcos : Nat → Nat

/-- A byte of the attestation report in a section whose content the manual lists without its bit layout (R235): section,
the listed fields, offset in the section. Log entry 47. -/
opaque Config.reportByte : Nat → List Nat → Nat → Byte

/-- The place of a safety output in the boundary-scan chain (R371): 0 SAFE_FLT_N, 1 SAFE_WARN_N. Log entry 50. -/
opaque Config.chainPos : Nat → Nat

/-- SHA-384 of the Crucible ROM (digest slot 0) and of the certificate chain of slot 0, and the 16 bytes of fuse state,
which the report shows (R235). Log entry 47. -/
opaque Config.romDigest : Nat
opaque Config.chainDigest : Nat
opaque Config.fuseState : Nat

/-- The certificate chain of an SPDM slot (R235). Log entry 47. -/
opaque Config.certChain : Nat → List Nat

/-- What a monitor call asks of the Crucible (R229): the MSG_ID and the payload that a0 to a5 stand for; none where they
stand for no message. The manual gives no encoding of the calls. Log entry 49. -/
opaque Config.monitorMsg : List Word → Option (Nat × List Byte)

/-- A field of the 4 KB header of a firmware image, whose byte layout the manual does not give (chapter 15): 0 TARGET,
1 VERSION, 2 security version, 3 the SHA-384 of the body. Log entry 51. -/
opaque Config.imageField : Nat → List Byte → Nat

end Sys2Proof
end

