-- ==== Sys2Proof/Machine/RegMap.lean ====
section
/-! DEFINITION. The register maps of the manual, one `Reg` constructor per map, one `Fld` per field,
with the access type, the reset value and the lock group each map's table gives (R342, R349, R350). -/

namespace Sys2Proof.Machine

/-- Every register map of the manual; a map that occurs many times is indexed (R342, R353). -/
inductive Reg where
  | sprDb
  | sprQstat
  | sprQcfg
  | arrStatus
  | arrProg
  | arrCtrl
  | arrPerf
  | arrRate
  | arrResident
  | arrNumstat
  | arrNumcnt
  | arrSatcfg
  | arrSatcnt
  | arrSatwin
  | attFslice
  | attIpool
  | attIframes
  | attIspill
  | attIquota
  | attIstat
  | attIcnt
  | attIctrl
  | attIspilled
  | arrRcstat
  | sysSafecfg
  | sysTbbase
  | sysSafestat
  | sysFlctrl
  | sysFlres
  | sysFlshare
  | pourCtrl
  | pourT0
  | pourStat
  | pourFlag
  | pourFlog
  | pourQjpf
  | gateCfg
  | gateStat
  | gateRt
  | memCtrl
  | memSpare
  | memChstat
  | memCways
  | memLres
  | memRgn0
  | memRgn1
  | dtuWalk
  | sysInst
  | dtuDlogcfg
  | dtuDlogidx
  | sprQrestore0
  | sprQrestore1
  | sprQrestore2
  | sysVfmap
  | dspCamport
  | dspCamctx0
  | dspCamctx1
  | dspCamstat
  | dspOutcfg
  | dspOutstat
  | dspTtcfg
  | dspTtstat
  | dspFlip
  | runStat
  | runCnt
  | runCnt2
  | timeNowNs
  | timeNowFrac
  | timeInc
  | timeStep
  | timeCtrl
  | timeCmp0
  | timeCmp1
  | ethHostcfg
  | sysBrwin0
  | sysBrwin1
  | sysBrwin2
  | ethRingcfg0
  | ethRingcfg1
  | ethRingdb
  | canCtrl
  | canFltrng
  | canStat
  | canJ19390
  | canJ19391
  | canTuncfg
  | wskId
  | wskStat
  | wskPortcfg
  | wskPortstat
  | wskDozestat
  | wskRoute
  | wskIn0
  | wskIn1
  | sysPwrctrl
  | sysPwrstat
  | sysStbytime
  | sysBootstat
  | sysBillet
  | cupWdog
  | mbxDb
  | sysRegerr
  | sysLock
  | sysId
  | sysAssign
  | sprQsubBase
  | sprQcplBase
  | vecStatus
  | sysIrqcfg
  | canRingcfg0
  | canRingcfg1
  | canRingdb
  | canFltr0
  | canFltr1
  | pourEnt0
  | pourEnt1
  | dtuIommu
  deriving DecidableEq, Repr

/-- Access type of a field (R342) with the lock group of an RWL field (R349). -/
inductive FKind where
  | ro | rw | w1c | w1s | rwlBoot | rwlMgr
  deriving DecidableEq, Repr

/-- One named field of a register map: bits [hi:lo]. -/
structure Fld where
  reg : Reg
  hi : Nat
  lo : Nat
  deriving DecidableEq, Repr

/-! `SPR_DB` (02_alaldonte_contract.md). -/
def SPR_DB.CPL_CONS : Fld := ⟨.sprDb, 63, 32⟩
def SPR_DB.PROD_IDX : Fld := ⟨.sprDb, 31, 0⟩
/-! `SPR_QSTAT` (02_alaldonte_contract.md). -/
def SPR_QSTAT.CONS_IDX : Fld := ⟨.sprQstat, 63, 32⟩
def SPR_QSTAT.STATE : Fld := ⟨.sprQstat, 31, 24⟩
def SPR_QSTAT.ERR_CODE : Fld := ⟨.sprQstat, 23, 16⟩
def SPR_QSTAT.STALE_DB : Fld := ⟨.sprQstat, 15, 0⟩
/-! `SPR_QCFG` (02_alaldonte_contract.md). -/
def SPR_QCFG.EN : Fld := ⟨.sprQcfg, 63, 63⟩
def SPR_QCFG.SUB_LOG2 : Fld := ⟨.sprQcfg, 59, 56⟩
def SPR_QCFG.CPL_LOG2 : Fld := ⟨.sprQcfg, 55, 52⟩
def SPR_QCFG.QOS_MAX : Fld := ⟨.sprQcfg, 51, 48⟩
def SPR_QCFG.IRQ_VEC : Fld := ⟨.sprQcfg, 47, 40⟩
/-! `ARR_STATUS` (03_tensor_arrays.md). -/
def ARR_STATUS.LOGICAL : Fld := ⟨.arrStatus, 63, 56⟩
def ARR_STATUS.FLASK : Fld := ⟨.arrStatus, 55, 52⟩
def ARR_STATUS.STATE : Fld := ⟨.arrStatus, 51, 48⟩
def ARR_STATUS.PC : Fld := ⟨.arrStatus, 47, 36⟩
def ARR_STATUS.PROG_BUSY : Fld := ⟨.arrStatus, 15, 15⟩
def ARR_STATUS.ILLEGAL_CMD : Fld := ⟨.arrStatus, 14, 14⟩
def ARR_STATUS.WDOG : Fld := ⟨.arrStatus, 13, 13⟩
def ARR_STATUS.EVT_OVF : Fld := ⟨.arrStatus, 12, 12⟩
def ARR_STATUS.SYNC_VIOL : Fld := ⟨.arrStatus, 11, 11⟩
def ARR_STATUS.DEGRADED : Fld := ⟨.arrStatus, 10, 10⟩
/-! `ARR_PROG` (03_tensor_arrays.md). -/
def ARR_PROG.NEXT_VALID : Fld := ⟨.arrProg, 63, 63⟩
def ARR_PROG.NEXT_HALF : Fld := ⟨.arrProg, 62, 62⟩
def ARR_PROG.NEXT_LEN : Fld := ⟨.arrProg, 61, 50⟩
def ARR_PROG.CUR_VALID : Fld := ⟨.arrProg, 31, 31⟩
def ARR_PROG.CUR_HALF : Fld := ⟨.arrProg, 30, 30⟩
def ARR_PROG.CUR_LEN : Fld := ⟨.arrProg, 29, 18⟩
/-! `ARR_CTRL` (03_tensor_arrays.md). -/
def ARR_CTRL.ABORT : Fld := ⟨.arrCtrl, 63, 63⟩
def ARR_CTRL.WDOG_NS : Fld := ⟨.arrCtrl, 31, 0⟩
/-! `ARR_PERF` (03_tensor_arrays.md). -/
def ARR_PERF.STALL_CYC : Fld := ⟨.arrPerf, 63, 32⟩
def ARR_PERF.TILES : Fld := ⟨.arrPerf, 31, 16⟩
def ARR_PERF.REFUSED : Fld := ⟨.arrPerf, 15, 0⟩
/-! `ARR_RATE` (03_tensor_arrays.md). -/
def ARR_RATE.RATIO : Fld := ⟨.arrRate, 63, 48⟩
def ARR_RATE.LOW_FRAMES : Fld := ⟨.arrRate, 47, 40⟩
/-! `ARR_RESIDENT` (03_tensor_arrays.md). -/
def ARR_RESIDENT.IMG_ADDR : Fld := ⟨.arrResident, 63, 22⟩
def ARR_RESIDENT.IMG_PAGES : Fld := ⟨.arrResident, 21, 11⟩
/-! `ARR_NUMSTAT` (04_arithmetic.md). -/
def ARR_NUMSTAT.DRIFT : Fld := ⟨.arrNumstat, 7, 7⟩
def ARR_NUMSTAT.SCALE_BAD : Fld := ⟨.arrNumstat, 6, 6⟩
def ARR_NUMSTAT.ZC_BAD : Fld := ⟨.arrNumstat, 5, 5⟩
/-! `ARR_NUMCNT` (04_arithmetic.md). -/
def ARR_NUMCNT.FLUSH_IN : Fld := ⟨.arrNumcnt, 63, 48⟩
def ARR_NUMCNT.FLUSH_PROD : Fld := ⟨.arrNumcnt, 47, 32⟩
def ARR_NUMCNT.OVF : Fld := ⟨.arrNumcnt, 31, 16⟩
def ARR_NUMCNT.NAN_OUT : Fld := ⟨.arrNumcnt, 15, 0⟩
/-! `ARR_SATCFG` (04_arithmetic.md). -/
def ARR_SATCFG.EN : Fld := ⟨.arrSatcfg, 63, 63⟩
def ARR_SATCFG.WIN_LOG2 : Fld := ⟨.arrSatcfg, 60, 56⟩
def ARR_SATCFG.THRESH : Fld := ⟨.arrSatcfg, 31, 16⟩
/-! `ARR_SATCNT` (04_arithmetic.md). -/
def ARR_SATCNT.SAT_TOTAL : Fld := ⟨.arrSatcnt, 63, 32⟩
def ARR_SATCNT.DRIFT_EVENTS : Fld := ⟨.arrSatcnt, 31, 16⟩
/-! `ARR_SATWIN` (04_arithmetic.md). -/
def ARR_SATWIN.WIN_VALUES : Fld := ⟨.arrSatwin, 63, 32⟩
def ARR_SATWIN.WIN_SAT : Fld := ⟨.arrSatwin, 31, 0⟩
/-! `ATT_FSLICE` (06_attention.md). -/
def ATT_FSLICE.STEP : Fld := ⟨.attFslice, 63, 32⟩
def ATT_FSLICE.CTX_BASE : Fld := ⟨.attFslice, 31, 16⟩
def ATT_FSLICE.CTX_COUNT : Fld := ⟨.attFslice, 15, 0⟩
/-! `ATT_IPOOL` (06_attention.md). -/
def ATT_IPOOL.POOL_BASE : Fld := ⟨.attIpool, 63, 16⟩
def ATT_IPOOL.PAGE_CODE : Fld := ⟨.attIpool, 15, 14⟩
def ATT_IPOOL.EN : Fld := ⟨.attIpool, 0, 0⟩
/-! `ATT_IFRAMES` (06_attention.md). -/
def ATT_IFRAMES.FRAMES : Fld := ⟨.attIframes, 63, 43⟩
def ATT_IFRAMES.RC_BASE : Fld := ⟨.attIframes, 42, 22⟩
/-! `ATT_ISPILL` (06_attention.md). -/
def ATT_ISPILL.SPILL_BASE : Fld := ⟨.attIspill, 63, 12⟩
/-! `ATT_IQUOTA` (06_attention.md). -/
def ATT_IQUOTA.CTX_MAX : Fld := ⟨.attIquota, 63, 51⟩
def ATT_IQUOTA.ID_LIMIT : Fld := ⟨.attIquota, 31, 0⟩
/-! `ATT_ISTAT` (06_attention.md). -/
def ATT_ISTAT.FREE : Fld := ⟨.attIstat, 63, 43⟩
def ATT_ISTAT.CTX_USED : Fld := ⟨.attIstat, 42, 30⟩
def ATT_ISTAT.STEP_OPEN : Fld := ⟨.attIstat, 0, 0⟩
/-! `ATT_ICNT` (06_attention.md). -/
def ATT_ICNT.SPILLS : Fld := ⟨.attIcnt, 63, 48⟩
def ATT_ICNT.DEFERRALS : Fld := ⟨.attIcnt, 47, 32⟩
def ATT_ICNT.PAUSES : Fld := ⟨.attIcnt, 31, 16⟩
def ATT_ICNT.COW_COPIES : Fld := ⟨.attIcnt, 15, 0⟩
/-! `ATT_ICTRL` (06_attention.md). -/
def ATT_ICTRL.SWEEP : Fld := ⟨.attIctrl, 63, 63⟩
def ATT_ICTRL.SAT_PINNED : Fld := ⟨.attIctrl, 15, 0⟩
/-! `ATT_ISPILLED` (06_attention.md). -/
def ATT_ISPILLED.SPILLED : Fld := ⟨.attIspilled, 63, 32⟩
def ATT_ISPILLED.EPOCH : Fld := ⟨.attIspilled, 31, 16⟩
/-! `ARR_RCSTAT` (07_safety.md). -/
def ARR_RCSTAT.ISO_PRI : Fld := ⟨.arrRcstat, 63, 48⟩
def ARR_RCSTAT.ISO_RC : Fld := ⟨.arrRcstat, 47, 32⟩
def ARR_RCSTAT.TB_FAIL : Fld := ⟨.arrRcstat, 31, 16⟩
def ARR_RCSTAT.OVERRUN : Fld := ⟨.arrRcstat, 15, 8⟩
def ARR_RCSTAT.FAULTY : Fld := ⟨.arrRcstat, 7, 7⟩
/-! `SYS_SAFECFG` (07_safety.md). -/
def SYS_SAFECFG.ROT : Fld := ⟨.sysSafecfg, 63, 58⟩
def SYS_SAFECFG.TB_PERIOD : Fld := ⟨.sysSafecfg, 57, 48⟩
/-! `SYS_TBBASE` (07_safety.md). -/
def SYS_TBBASE.TB_BASE : Fld := ⟨.sysTbbase, 63, 16⟩
/-! `SYS_SAFESTAT` (07_safety.md). -/
def SYS_SAFESTAT.FLT : Fld := ⟨.sysSafestat, 63, 63⟩
def SYS_SAFESTAT.WARN : Fld := ⟨.sysSafestat, 62, 62⟩
def SYS_SAFESTAT.CMP_DUP : Fld := ⟨.sysSafestat, 15, 15⟩
def SYS_SAFESTAT.RECAST_UNRES : Fld := ⟨.sysSafestat, 14, 14⟩
def SYS_SAFESTAT.CLK_LOST : Fld := ⟨.sysSafestat, 13, 13⟩
def SYS_SAFESTAT.SCLK_LOST : Fld := ⟨.sysSafestat, 12, 12⟩
def SYS_SAFESTAT.VOLT : Fld := ⟨.sysSafestat, 11, 11⟩
def SYS_SAFESTAT.TEMP_TRIP : Fld := ⟨.sysSafestat, 10, 10⟩
def SYS_SAFESTAT.POUR_LATE : Fld := ⟨.sysSafestat, 9, 9⟩
def SYS_SAFESTAT.TEMP_HIGH : Fld := ⟨.sysSafestat, 8, 8⟩
def SYS_SAFESTAT.SPARE_OUT : Fld := ⟨.sysSafestat, 7, 7⟩
def SYS_SAFESTAT.ISOLATED : Fld := ⟨.sysSafestat, 6, 6⟩
def SYS_SAFESTAT.TB_FAIL : Fld := ⟨.sysSafestat, 5, 5⟩
def SYS_SAFESTAT.RT_MISMATCH : Fld := ⟨.sysSafestat, 4, 4⟩
def SYS_SAFESTAT.MEM_UE : Fld := ⟨.sysSafestat, 3, 3⟩
def SYS_SAFESTAT.DISP_SIG : Fld := ⟨.sysSafestat, 2, 2⟩
def SYS_SAFESTAT.RUN_CONFIRM : Fld := ⟨.sysSafestat, 1, 1⟩
/-! `SYS_FLCTRL` (08_scheduling.md). -/
def SYS_FLCTRL.STATE : Fld := ⟨.sysFlctrl, 63, 60⟩
def SYS_FLCTRL.CREATE : Fld := ⟨.sysFlctrl, 59, 59⟩
def SYS_FLCTRL.DESTROY : Fld := ⟨.sysFlctrl, 58, 58⟩
def SYS_FLCTRL.TIMED : Fld := ⟨.sysFlctrl, 57, 57⟩
def SYS_FLCTRL.STANDBY_RT : Fld := ⟨.sysFlctrl, 56, 54⟩
def SYS_FLCTRL.STANDBY_EN : Fld := ⟨.sysFlctrl, 53, 53⟩
/-! `SYS_FLRES` (08_scheduling.md). -/
def SYS_FLRES.ARRAYS : Fld := ⟨.sysFlres, 63, 30⟩
def SYS_FLRES.VECS : Fld := ⟨.sysFlres, 29, 14⟩
def SYS_FLRES.RTCORES : Fld := ⟨.sysFlres, 13, 6⟩
def SYS_FLRES.RUNNER : Fld := ⟨.sysFlres, 5, 5⟩
/-! `SYS_FLSHARE` (08_scheduling.md). -/
def SYS_FLSHARE.SHARE : Fld := ⟨.sysFlshare, 63, 48⟩
def SYS_FLSHARE.SLICE_US : Fld := ⟨.sysFlshare, 47, 36⟩
def SYS_FLSHARE.ACCT : Fld := ⟨.sysFlshare, 35, 0⟩
/-! `POUR_CTRL` (08_scheduling.md). -/
def POUR_CTRL.SWAP : Fld := ⟨.pourCtrl, 63, 63⟩
def POUR_CTRL.ACTIVE_BANK : Fld := ⟨.pourCtrl, 62, 62⟩
def POUR_CTRL.SWAP_REFUSED : Fld := ⟨.pourCtrl, 61, 61⟩
def POUR_CTRL.EN : Fld := ⟨.pourCtrl, 60, 60⟩
def POUR_CTRL.SHADOW_FRAME_US : Fld := ⟨.pourCtrl, 59, 40⟩
def POUR_CTRL.FRAME_US : Fld := ⟨.pourCtrl, 39, 20⟩
def POUR_CTRL.BAD_ENTRY : Fld := ⟨.pourCtrl, 12, 0⟩
/-! `POUR_T0` (08_scheduling.md). -/
def POUR_T0.T0 : Fld := ⟨.pourT0, 63, 0⟩
/-! `POUR_STAT` (08_scheduling.md). -/
def POUR_STAT.FRAME : Fld := ⟨.pourStat, 63, 32⟩
def POUR_STAT.LATE : Fld := ⟨.pourStat, 31, 16⟩
def POUR_STAT.EMPTY : Fld := ⟨.pourStat, 15, 0⟩
/-! `POUR_FLAG` (08_scheduling.md). -/
def POUR_FLAG.LAG : Fld := ⟨.pourFlag, 63, 52⟩
def POUR_FLAG.LAG_MAX : Fld := ⟨.pourFlag, 51, 40⟩
def POUR_FLAG.LAG_EVENTS : Fld := ⟨.pourFlag, 39, 24⟩
/-! `POUR_FLOG` (08_scheduling.md). -/
def POUR_FLOG.LOG_BASE : Fld := ⟨.pourFlog, 63, 12⟩
/-! `POUR_QJPF` (08_scheduling.md). -/
def POUR_QJPF.JPF : Fld := ⟨.pourQjpf, 63, 53⟩
/-! `GATE_CFG` (08_scheduling.md). -/
def GATE_CFG.GUAR : Fld := ⟨.gateCfg, 63, 44⟩
def GATE_CFG.CEIL : Fld := ⟨.gateCfg, 43, 24⟩
def GATE_CFG.DEPTH : Fld := ⟨.gateCfg, 23, 8⟩
/-! `GATE_STAT` (08_scheduling.md). -/
def GATE_STAT.WIN_US : Fld := ⟨.gateStat, 63, 48⟩
def GATE_STAT.MISSED : Fld := ⟨.gateStat, 47, 32⟩
def GATE_STAT.MISS : Fld := ⟨.gateStat, 31, 31⟩
/-! `GATE_RT` (08_scheduling.md). -/
def GATE_RT.BOUND_NS : Fld := ⟨.gateRt, 63, 48⟩
def GATE_RT.CAP : Fld := ⟨.gateRt, 47, 28⟩
def GATE_RT.MISSED : Fld := ⟨.gateRt, 27, 12⟩
def GATE_RT.MISS : Fld := ⟨.gateRt, 11, 11⟩
def GATE_RT.CAPPED : Fld := ⟨.gateRt, 10, 10⟩
/-! `MEM_CTRL` (09_memory_fabric.md). -/
def MEM_CTRL.RATE : Fld := ⟨.memCtrl, 63, 61⟩
def MEM_CTRL.CH_CAP : Fld := ⟨.memCtrl, 60, 58⟩
def MEM_CTRL.RANKS : Fld := ⟨.memCtrl, 57, 57⟩
def MEM_CTRL.INIT : Fld := ⟨.memCtrl, 56, 56⟩
def MEM_CTRL.READY : Fld := ⟨.memCtrl, 55, 55⟩
def MEM_CTRL.RETIRE_CH : Fld := ⟨.memCtrl, 54, 52⟩
def MEM_CTRL.RETIRE : Fld := ⟨.memCtrl, 51, 51⟩
def MEM_CTRL.RETIRED : Fld := ⟨.memCtrl, 50, 50⟩
def MEM_CTRL.BORROW_MAX : Fld := ⟨.memCtrl, 49, 38⟩
/-! `MEM_SPARE` (09_memory_fabric.md). -/
def MEM_SPARE.SPARE_BASE : Fld := ⟨.memSpare, 63, 22⟩
/-! `MEM_CHSTAT` (09_memory_fabric.md). -/
def MEM_CHSTAT.CORRECTED : Fld := ⟨.memChstat, 63, 40⟩
def MEM_CHSTAT.UNCORR : Fld := ⟨.memChstat, 39, 32⟩
def MEM_CHSTAT.TRK_USED : Fld := ⟨.memChstat, 31, 20⟩
def MEM_CHSTAT.LAT_NS : Fld := ⟨.memChstat, 19, 8⟩
/-! `MEM_CWAYS` (09_memory_fabric.md). -/
def MEM_CWAYS.WAYS : Fld := ⟨.memCways, 63, 48⟩
def MEM_CWAYS.OCC : Fld := ⟨.memCways, 47, 28⟩
/-! `MEM_LRES` (09_memory_fabric.md). -/
def MEM_LRES.MIN : Fld := ⟨.memLres, 63, 58⟩
def MEM_LRES.MAX : Fld := ⟨.memLres, 57, 52⟩
def MEM_LRES.HELD : Fld := ⟨.memLres, 51, 46⟩
/-! `MEM_RGN0` (09_memory_fabric.md). -/
def MEM_RGN0.BASE : Fld := ⟨.memRgn0, 63, 21⟩
/-! `MEM_RGN1` (09_memory_fabric.md). -/
def MEM_RGN1.LIMIT : Fld := ⟨.memRgn1, 63, 21⟩
def MEM_RGN1.EN : Fld := ⟨.memRgn1, 20, 20⟩
def MEM_RGN1.TAG : Fld := ⟨.memRgn1, 19, 19⟩
def MEM_RGN1.MIRROR : Fld := ⟨.memRgn1, 18, 18⟩
def MEM_RGN1.OWNER : Fld := ⟨.memRgn1, 17, 14⟩
/-! `DTU_WALK` (10_virtualization_security.md). -/
def DTU_WALK.MIN : Fld := ⟨.dtuWalk, 63, 57⟩
def DTU_WALK.MAX : Fld := ⟨.dtuWalk, 56, 50⟩
def DTU_WALK.HELD : Fld := ⟨.dtuWalk, 49, 43⟩
/-! `SYS_INST` (10_virtualization_security.md). -/
def SYS_INST.STATE : Fld := ⟨.sysInst, 63, 60⟩
def SYS_INST.CREATE : Fld := ⟨.sysInst, 59, 59⟩
def SYS_INST.QUIESCE : Fld := ⟨.sysInst, 58, 58⟩
def SYS_INST.RESUME : Fld := ⟨.sysInst, 57, 57⟩
def SYS_INST.RESET : Fld := ⟨.sysInst, 56, 56⟩
def SYS_INST.REMOVE : Fld := ⟨.sysInst, 55, 55⟩
def SYS_INST.SPILL_ALL : Fld := ⟨.sysInst, 54, 54⟩
def SYS_INST.FLASK : Fld := ⟨.sysInst, 53, 51⟩
def SYS_INST.TDI : Fld := ⟨.sysInst, 50, 48⟩
/-! `DTU_DLOGCFG` (10_virtualization_security.md). -/
def DTU_DLOGCFG.BASE : Fld := ⟨.dtuDlogcfg, 63, 12⟩
def DTU_DLOGCFG.SIZE_LOG2 : Fld := ⟨.dtuDlogcfg, 11, 8⟩
def DTU_DLOGCFG.ALLDIRTY : Fld := ⟨.dtuDlogcfg, 1, 1⟩
def DTU_DLOGCFG.EN : Fld := ⟨.dtuDlogcfg, 0, 0⟩
/-! `DTU_DLOGIDX` (10_virtualization_security.md). -/
def DTU_DLOGIDX.PROD : Fld := ⟨.dtuDlogidx, 63, 32⟩
def DTU_DLOGIDX.CONS : Fld := ⟨.dtuDlogidx, 31, 0⟩
/-! `SPR_QRESTORE0` (10_virtualization_security.md). -/
def SPR_QRESTORE0.CONS_IDX : Fld := ⟨.sprQrestore0, 63, 32⟩
def SPR_QRESTORE0.PROD_IDX : Fld := ⟨.sprQrestore0, 31, 0⟩
/-! `SPR_QRESTORE1` (10_virtualization_security.md). -/
def SPR_QRESTORE1.CPL_PROD : Fld := ⟨.sprQrestore1, 63, 32⟩
def SPR_QRESTORE1.VALID : Fld := ⟨.sprQrestore1, 0, 0⟩
/-! `SPR_QRESTORE2` (10_virtualization_security.md). -/
def SPR_QRESTORE2.CPL_CONS : Fld := ⟨.sprQrestore2, 63, 32⟩
/-! `SYS_VFMAP` (10_virtualization_security.md). -/
def SYS_VFMAP.EN : Fld := ⟨.sysVfmap, 63, 63⟩
def SYS_VFMAP.INSTANCE : Fld := ⟨.sysVfmap, 62, 55⟩
/-! `DSP_CAMPORT` (11_pixels.md). -/
def DSP_CAMPORT.EN : Fld := ⟨.dspCamport, 63, 63⟩
def DSP_CAMPORT.PHY : Fld := ⟨.dspCamport, 62, 62⟩
def DSP_CAMPORT.LANES : Fld := ⟨.dspCamport, 61, 60⟩
def DSP_CAMPORT.RATE : Fld := ⟨.dspCamport, 59, 51⟩
def DSP_CAMPORT.HDR_CORR : Fld := ⟨.dspCamport, 31, 16⟩
def DSP_CAMPORT.CRC_ERR : Fld := ⟨.dspCamport, 15, 0⟩
/-! `DSP_CAMCTX0` (11_pixels.md). -/
def DSP_CAMCTX0.EN : Fld := ⟨.dspCamctx0, 63, 63⟩
def DSP_CAMCTX0.PORT : Fld := ⟨.dspCamctx0, 62, 60⟩
def DSP_CAMCTX0.VC : Fld := ⟨.dspCamctx0, 59, 56⟩
def DSP_CAMCTX0.DT : Fld := ⟨.dspCamctx0, 55, 50⟩
def DSP_CAMCTX0.BUFS : Fld := ⟨.dspCamctx0, 49, 46⟩
def DSP_CAMCTX0.INSTANCE : Fld := ⟨.dspCamctx0, 45, 38⟩
def DSP_CAMCTX0.WIDTH : Fld := ⟨.dspCamctx0, 37, 24⟩
def DSP_CAMCTX0.HEIGHT : Fld := ⟨.dspCamctx0, 23, 10⟩
/-! `DSP_CAMCTX1` (11_pixels.md). -/
def DSP_CAMCTX1.TABLE_ADDR : Fld := ⟨.dspCamctx1, 63, 6⟩
/-! `DSP_CAMSTAT` (11_pixels.md). -/
def DSP_CAMSTAT.FRAMES : Fld := ⟨.dspCamstat, 63, 32⟩
def DSP_CAMSTAT.FRAMES_DROPPED : Fld := ⟨.dspCamstat, 31, 16⟩
def DSP_CAMSTAT.OTHER_DT : Fld := ⟨.dspCamstat, 15, 0⟩
/-! `DSP_OUTCFG` (11_pixels.md). -/
def DSP_OUTCFG.INSTANCE : Fld := ⟨.dspOutcfg, 63, 56⟩
def DSP_OUTCFG.QUEUE : Fld := ⟨.dspOutcfg, 55, 50⟩
def DSP_OUTCFG.ESC1_US : Fld := ⟨.dspOutcfg, 49, 36⟩
def DSP_OUTCFG.ESC_EN : Fld := ⟨.dspOutcfg, 35, 35⟩
/-! `DSP_OUTSTAT` (11_pixels.md). -/
def DSP_OUTSTAT.VBLANKS : Fld := ⟨.dspOutstat, 63, 32⟩
def DSP_OUTSTAT.MISSES : Fld := ⟨.dspOutstat, 31, 16⟩
def DSP_OUTSTAT.UNDERRUN : Fld := ⟨.dspOutstat, 15, 8⟩
def DSP_OUTSTAT.BAD_DESC : Fld := ⟨.dspOutstat, 7, 4⟩
def DSP_OUTSTAT.ESC : Fld := ⟨.dspOutstat, 3, 2⟩
def DSP_OUTSTAT.SAFE_BLANK : Fld := ⟨.dspOutstat, 1, 1⟩
/-! `DSP_TTCFG` (11_pixels.md). -/
def DSP_TTCFG.DESC_ADDR : Fld := ⟨.dspTtcfg, 63, 6⟩
def DSP_TTCFG.EN : Fld := ⟨.dspTtcfg, 5, 5⟩
def DSP_TTCFG.TT_LIMIT : Fld := ⟨.dspTtcfg, 4, 1⟩
/-! `DSP_TTSTAT` (11_pixels.md). -/
def DSP_TTSTAT.LAST_SIG : Fld := ⟨.dspTtstat, 63, 32⟩
def DSP_TTSTAT.TT_MISMATCH : Fld := ⟨.dspTtstat, 31, 16⟩
def DSP_TTSTAT.RUN : Fld := ⟨.dspTtstat, 15, 12⟩
/-! `DSP_FLIP` (11_pixels.md). -/
def DSP_FLIP.NEXT_ADDR : Fld := ⟨.dspFlip, 63, 6⟩
def DSP_FLIP.PENDING : Fld := ⟨.dspFlip, 5, 5⟩
/-! `RUN_STAT` (12_path_engine.md). -/
def RUN_STAT.STATE : Fld := ⟨.runStat, 63, 60⟩
def RUN_STAT.LAST_SOURCE : Fld := ⟨.runStat, 59, 56⟩
def RUN_STAT.REUSE : Fld := ⟨.runStat, 55, 48⟩
def RUN_STAT.PUBLISHED : Fld := ⟨.runStat, 31, 0⟩
/-! `RUN_CNT` (12_path_engine.md). -/
def RUN_CNT.PLANS_NEW : Fld := ⟨.runCnt, 63, 48⟩
def RUN_CNT.PLANS_REUSED : Fld := ⟨.runCnt, 47, 32⟩
def RUN_CNT.PLANS_STOP : Fld := ⟨.runCnt, 31, 16⟩
def RUN_CNT.CONFIRM_REJ : Fld := ⟨.runCnt, 15, 0⟩
/-! `RUN_CNT2` (12_path_engine.md). -/
def RUN_CNT2.NODE_FULL : Fld := ⟨.runCnt2, 63, 32⟩
def RUN_CNT2.STALE_IN : Fld := ⟨.runCnt2, 31, 16⟩
def RUN_CNT2.BAD_REC : Fld := ⟨.runCnt2, 15, 0⟩
/-! `TIME_NOW_NS` (13_gateway_time.md). -/
def TIME_NOW_NS.NS : Fld := ⟨.timeNowNs, 63, 0⟩
/-! `TIME_NOW_FRAC` (13_gateway_time.md). -/
def TIME_NOW_FRAC.FRAC : Fld := ⟨.timeNowFrac, 63, 48⟩
/-! `TIME_INC` (13_gateway_time.md). -/
def TIME_INC.INC : Fld := ⟨.timeInc, 49, 32⟩
def TIME_INC.INC_SUB : Fld := ⟨.timeInc, 23, 0⟩
/-! `TIME_STEP` (13_gateway_time.md). -/
def TIME_STEP.OFFSET : Fld := ⟨.timeStep, 63, 0⟩
/-! `TIME_CTRL` (13_gateway_time.md). -/
def TIME_CTRL.SERVO : Fld := ⟨.timeCtrl, 63, 62⟩
def TIME_CTRL.HOLDOVER : Fld := ⟨.timeCtrl, 61, 61⟩
def TIME_CTRL.HOLD_EVT : Fld := ⟨.timeCtrl, 60, 60⟩
def TIME_CTRL.SYNC_TIMEOUT_MS : Fld := ⟨.timeCtrl, 59, 47⟩
def TIME_CTRL.HOLD_EVENTS : Fld := ⟨.timeCtrl, 46, 31⟩
/-! `TIME_CMP0` (13_gateway_time.md). -/
def TIME_CMP0.TARGET : Fld := ⟨.timeCmp0, 63, 0⟩
/-! `TIME_CMP1` (13_gateway_time.md). -/
def TIME_CMP1.ARM : Fld := ⟨.timeCmp1, 63, 63⟩
def TIME_CMP1.FIRED : Fld := ⟨.timeCmp1, 62, 62⟩
def TIME_CMP1.PIN_EN : Fld := ⟨.timeCmp1, 61, 61⟩
def TIME_CMP1.WIDTH : Fld := ⟨.timeCmp1, 60, 48⟩
def TIME_CMP1.SKIPPED : Fld := ⟨.timeCmp1, 47, 32⟩
def TIME_CMP1.PERIOD : Fld := ⟨.timeCmp1, 31, 0⟩
/-! `ETH_HOSTCFG` (13_gateway_time.md). -/
def ETH_HOSTCFG.DEFAULT_RING : Fld := ⟨.ethHostcfg, 63, 56⟩
def ETH_HOSTCFG.DEFAULT_EN : Fld := ⟨.ethHostcfg, 55, 55⟩
def ETH_HOSTCFG.NOMATCH_DROPS : Fld := ⟨.ethHostcfg, 54, 39⟩
/-! `SYS_BRWIN0` (13_gateway_time.md). -/
def SYS_BRWIN0.BASE : Fld := ⟨.sysBrwin0, 63, 20⟩
def SYS_BRWIN0.OWNER : Fld := ⟨.sysBrwin0, 19, 16⟩
def SYS_BRWIN0.ERRS : Fld := ⟨.sysBrwin0, 15, 0⟩
/-! `SYS_BRWIN1` (13_gateway_time.md). -/
def SYS_BRWIN1.LIMIT : Fld := ⟨.sysBrwin1, 63, 20⟩
def SYS_BRWIN1.EN : Fld := ⟨.sysBrwin1, 19, 19⟩
def SYS_BRWIN1.NP_WRITE : Fld := ⟨.sysBrwin1, 18, 18⟩
def SYS_BRWIN1.TARGET : Fld := ⟨.sysBrwin1, 17, 16⟩
def SYS_BRWIN1.DEV_ID : Fld := ⟨.sysBrwin1, 15, 0⟩
/-! `SYS_BRWIN2` (13_gateway_time.md). -/
def SYS_BRWIN2.REMOTE_BASE : Fld := ⟨.sysBrwin2, 63, 20⟩
def SYS_BRWIN2.CPL_TIMEOUT_US : Fld := ⟨.sysBrwin2, 19, 8⟩
/-! `ETH_RINGCFG0` (13_gateway_time.md). -/
def ETH_RINGCFG0.EN : Fld := ⟨.ethRingcfg0, 63, 63⟩
def ETH_RINGCFG0.INSTANCE : Fld := ⟨.ethRingcfg0, 62, 55⟩
def ETH_RINGCFG0.SIZE_LOG2 : Fld := ⟨.ethRingcfg0, 54, 51⟩
def ETH_RINGCFG0.LATE_US : Fld := ⟨.ethRingcfg0, 50, 40⟩
def ETH_RINGCFG0.IRQ_VEC : Fld := ⟨.ethRingcfg0, 39, 32⟩
def ETH_RINGCFG0.DROPS : Fld := ⟨.ethRingcfg0, 31, 16⟩
/-! `ETH_RINGCFG1` (13_gateway_time.md). -/
def ETH_RINGCFG1.BASE : Fld := ⟨.ethRingcfg1, 63, 6⟩
/-! `ETH_RINGDB` (13_gateway_time.md). -/
def ETH_RINGDB.PROD : Fld := ⟨.ethRingdb, 63, 32⟩
def ETH_RINGDB.CONS : Fld := ⟨.ethRingdb, 31, 0⟩
/-! `CAN_CTRL` (13_gateway_time.md). -/
def CAN_CTRL.EN : Fld := ⟨.canCtrl, 63, 63⟩
def CAN_CTRL.MODE : Fld := ⟨.canCtrl, 62, 60⟩
def CAN_CTRL.ARB : Fld := ⟨.canCtrl, 59, 56⟩
def CAN_CTRL.DATA : Fld := ⟨.canCtrl, 55, 52⟩
def CAN_CTRL.ARB_SP : Fld := ⟨.canCtrl, 51, 45⟩
def CAN_CTRL.DATA_SP : Fld := ⟨.canCtrl, 44, 38⟩
def CAN_CTRL.AUTO_RECOVER : Fld := ⟨.canCtrl, 37, 37⟩
def CAN_CTRL.J1939 : Fld := ⟨.canCtrl, 36, 36⟩
def CAN_CTRL.BUS_ID : Fld := ⟨.canCtrl, 35, 31⟩
def CAN_CTRL.DEFAULT : Fld := ⟨.canCtrl, 30, 28⟩
def CAN_CTRL.DEFAULT_RING : Fld := ⟨.canCtrl, 27, 24⟩
def CAN_CTRL.TEC : Fld := ⟨.canCtrl, 23, 16⟩
def CAN_CTRL.REC : Fld := ⟨.canCtrl, 15, 8⟩
def CAN_CTRL.FC_STATE : Fld := ⟨.canCtrl, 7, 6⟩
/-! `CAN_FLTRNG` (13_gateway_time.md). -/
def CAN_FLTRNG.BASE : Fld := ⟨.canFltrng, 63, 52⟩
def CAN_FLTRNG.COUNT : Fld := ⟨.canFltrng, 51, 39⟩
/-! `CAN_STAT` (13_gateway_time.md). -/
def CAN_STAT.ROUTE_DROP : Fld := ⟨.canStat, 63, 48⟩
def CAN_STAT.SEQ_GAP : Fld := ⟨.canStat, 47, 32⟩
def CAN_STAT.BUSOFF : Fld := ⟨.canStat, 31, 16⟩
def CAN_STAT.XL_UNTUN : Fld := ⟨.canStat, 15, 0⟩
/-! `CAN_J19390` (13_gateway_time.md). -/
def CAN_J19390.NAME : Fld := ⟨.canJ19390, 63, 0⟩
/-! `CAN_J19391` (13_gateway_time.md). -/
def CAN_J19391.ADDR : Fld := ⟨.canJ19391, 63, 56⟩
def CAN_J19391.EN : Fld := ⟨.canJ19391, 55, 55⟩
def CAN_J19391.ARB_CAPABLE : Fld := ⟨.canJ19391, 54, 54⟩
def CAN_J19391.STATE : Fld := ⟨.canJ19391, 53, 52⟩
def CAN_J19391.LOST : Fld := ⟨.canJ19391, 51, 51⟩
/-! `CAN_TUNCFG` (13_gateway_time.md). -/
def CAN_TUNCFG.TUN_BASE : Fld := ⟨.canTuncfg, 63, 6⟩
def CAN_TUNCFG.EN : Fld := ⟨.canTuncfg, 5, 5⟩
/-! `WSK_ID` (14_weska_ring.md). -/
def WSK_ID.DEV_ID : Fld := ⟨.wskId, 63, 48⟩
def WSK_ID.TIME_SRC : Fld := ⟨.wskId, 47, 47⟩
def WSK_ID.FLOOD_PORTS : Fld := ⟨.wskId, 46, 43⟩
def WSK_ID.FLOOD_TTL : Fld := ⟨.wskId, 42, 37⟩
def WSK_ID.SYNC_US : Fld := ⟨.wskId, 36, 21⟩
/-! `WSK_STAT` (14_weska_ring.md). -/
def WSK_STAT.NO_ROUTE : Fld := ⟨.wskStat, 63, 48⟩
def WSK_STAT.TTL_DROP : Fld := ⟨.wskStat, 47, 32⟩
def WSK_STAT.NO_WINDOW : Fld := ⟨.wskStat, 31, 16⟩
def WSK_STAT.TIME_CONFLICT : Fld := ⟨.wskStat, 15, 0⟩
/-! `WSK_PORTCFG` (14_weska_ring.md). -/
def WSK_PORTCFG.EN : Fld := ⟨.wskPortcfg, 63, 63⟩
def WSK_PORTCFG.DOZE_EN : Fld := ⟨.wskPortcfg, 62, 62⟩
def WSK_PORTCFG.WAKE_TICKS : Fld := ⟨.wskPortcfg, 61, 43⟩
/-! `WSK_PORTSTAT` (14_weska_ring.md). -/
def WSK_PORTSTAT.STATE : Fld := ⟨.wskPortstat, 63, 60⟩
def WSK_PORTSTAT.WIDTH : Fld := ⟨.wskPortstat, 59, 58⟩
def WSK_PORTSTAT.PEER_ID : Fld := ⟨.wskPortstat, 57, 42⟩
def WSK_PORTSTAT.RETRAINS : Fld := ⟨.wskPortstat, 31, 16⟩
def WSK_PORTSTAT.MISSES : Fld := ⟨.wskPortstat, 15, 8⟩
def WSK_PORTSTAT.REPLAYS : Fld := ⟨.wskPortstat, 7, 0⟩
/-! `WSK_DOZESTAT` (14_weska_ring.md). -/
def WSK_DOZESTAT.LAST_DRIFT_NS : Fld := ⟨.wskDozestat, 63, 32⟩
def WSK_DOZESTAT.LINK_DELAY_NS : Fld := ⟨.wskDozestat, 31, 16⟩
/-! `WSK_ROUTE` (14_weska_ring.md). -/
def WSK_ROUTE.DEST_LO : Fld := ⟨.wskRoute, 63, 48⟩
def WSK_ROUTE.DEST_HI : Fld := ⟨.wskRoute, 47, 32⟩
def WSK_ROUTE.PRIMARY : Fld := ⟨.wskRoute, 31, 30⟩
def WSK_ROUTE.ALT_EN : Fld := ⟨.wskRoute, 29, 29⟩
def WSK_ROUTE.ALT : Fld := ⟨.wskRoute, 28, 27⟩
def WSK_ROUTE.EN : Fld := ⟨.wskRoute, 26, 26⟩
/-! `WSK_IN0` (14_weska_ring.md). -/
def WSK_IN0.BASE : Fld := ⟨.wskIn0, 63, 20⟩
def WSK_IN0.EN : Fld := ⟨.wskIn0, 19, 19⟩
def WSK_IN0.INSTANCE : Fld := ⟨.wskIn0, 18, 11⟩
/-! `WSK_IN1` (14_weska_ring.md). -/
def WSK_IN1.LIMIT : Fld := ⟨.wskIn1, 63, 20⟩
def WSK_IN1.SRC_ID : Fld := ⟨.wskIn1, 19, 4⟩
/-! `SYS_PWRCTRL` (15_firmware_power.md). -/
def SYS_PWRCTRL.WAKE_CAN : Fld := ⟨.sysPwrctrl, 63, 44⟩
def SYS_PWRCTRL.WAKE_ETH : Fld := ⟨.sysPwrctrl, 43, 34⟩
def SYS_PWRCTRL.WAKE_IN_EN : Fld := ⟨.sysPwrctrl, 33, 33⟩
def SYS_PWRCTRL.WAKE_SEC : Fld := ⟨.sysPwrctrl, 31, 0⟩
/-! `SYS_PWRSTAT` (15_firmware_power.md). -/
def SYS_PWRSTAT.WAKE_CAUSE : Fld := ⟨.sysPwrstat, 63, 60⟩
def SYS_PWRSTAT.WAKE_UNIT : Fld := ⟨.sysPwrstat, 59, 56⟩
def SYS_PWRSTAT.WAKE_OTHER : Fld := ⟨.sysPwrstat, 55, 51⟩
def SYS_PWRSTAT.BROWNOUT : Fld := ⟨.sysPwrstat, 50, 50⟩
def SYS_PWRSTAT.PFW : Fld := ⟨.sysPwrstat, 49, 49⟩
def SYS_PWRSTAT.THERMAL : Fld := ⟨.sysPwrstat, 48, 48⟩
/-! `SYS_STBYTIME` (15_firmware_power.md). -/
def SYS_STBYTIME.STBY_SEC : Fld := ⟨.sysStbytime, 63, 32⟩
/-! `SYS_BOOTSTAT` (15_firmware_power.md). -/
def SYS_BOOTSTAT.BOOT_ERR : Fld := ⟨.sysBootstat, 63, 56⟩
def SYS_BOOTSTAT.SLOT : Fld := ⟨.sysBootstat, 55, 55⟩
def SYS_BOOTSTAT.SLOT_A_BAD : Fld := ⟨.sysBootstat, 54, 54⟩
/-! `SYS_BILLET` (15_firmware_power.md). -/
def SYS_BILLET.STATE : Fld := ⟨.sysBillet, 63, 62⟩
def SYS_BILLET.LIFE_PCT : Fld := ⟨.sysBillet, 61, 55⟩
def SYS_BILLET.WARN_PCT : Fld := ⟨.sysBillet, 54, 48⟩
def SYS_BILLET.LOW : Fld := ⟨.sysBillet, 47, 47⟩
/-! `CUP_WDOG` (15_firmware_power.md). -/
def CUP_WDOG.KICK : Fld := ⟨.cupWdog, 63, 63⟩
def CUP_WDOG.TIMEOUT_MS : Fld := ⟨.cupWdog, 62, 53⟩
def CUP_WDOG.RESTARTS : Fld := ⟨.cupWdog, 52, 37⟩
/-! `MBX_DB` (15_firmware_power.md). -/
def MBX_DB.REQ : Fld := ⟨.mbxDb, 63, 63⟩
def MBX_DB.DONE : Fld := ⟨.mbxDb, 62, 62⟩
def MBX_DB.DROPPED : Fld := ⟨.mbxDb, 47, 32⟩
/-! `SYS_REGERR` (16_registers.md). -/
def SYS_REGERR.REFUSED : Fld := ⟨.sysRegerr, 63, 63⟩
def SYS_REGERR.LOCKED : Fld := ⟨.sysRegerr, 62, 62⟩
def SYS_REGERR.DENIED : Fld := ⟨.sysRegerr, 61, 61⟩
def SYS_REGERR.PART : Fld := ⟨.sysRegerr, 60, 57⟩
def SYS_REGERR.INST : Fld := ⟨.sysRegerr, 56, 49⟩
def SYS_REGERR.OFFSET : Fld := ⟨.sysRegerr, 48, 21⟩
def SYS_REGERR.COUNT : Fld := ⟨.sysRegerr, 20, 5⟩
def SYS_REGERR.READ : Fld := ⟨.sysRegerr, 4, 4⟩
def SYS_REGERR.DOORBELL : Fld := ⟨.sysRegerr, 3, 3⟩
/-! `SYS_LOCK` (16_registers.md). -/
def SYS_LOCK.BOOT : Fld := ⟨.sysLock, 63, 63⟩
def SYS_LOCK.MGR : Fld := ⟨.sysLock, 62, 62⟩
/-! `SYS_ID` (16_registers.md). -/
def SYS_ID.VENDOR : Fld := ⟨.sysId, 63, 48⟩
def SYS_ID.PART : Fld := ⟨.sysId, 47, 32⟩
def SYS_ID.STEPPING : Fld := ⟨.sysId, 31, 24⟩
def SYS_ID.CONTRACT_MAJOR : Fld := ⟨.sysId, 23, 16⟩
/-! `SYS_ASSIGN` (16_registers.md). -/
/-! `SPR_QSUB_BASE` (16_registers.md). -/
def SPR_QSUB_BASE.BASE : Fld := ⟨.sprQsubBase, 63, 7⟩
/-! `SPR_QCPL_BASE` (16_registers.md). -/
def SPR_QCPL_BASE.BASE : Fld := ⟨.sprQcplBase, 63, 5⟩
/-! `VEC_STATUS` (16_registers.md). -/
def VEC_STATUS.LOGICAL : Fld := ⟨.vecStatus, 63, 56⟩
def VEC_STATUS.FLASK : Fld := ⟨.vecStatus, 55, 52⟩
def VEC_STATUS.STATE : Fld := ⟨.vecStatus, 51, 48⟩
/-! `SYS_IRQCFG` (16_registers.md). -/
def SYS_IRQCFG.MSI_ADDR : Fld := ⟨.sysIrqcfg, 63, 2⟩
def SYS_IRQCFG.EN : Fld := ⟨.sysIrqcfg, 0, 0⟩
/-! `CAN_RINGCFG0` (13_gateway_time.md). -/
def CAN_RINGCFG0.EN : Fld := ⟨.canRingcfg0, 63, 63⟩
def CAN_RINGCFG0.INSTANCE : Fld := ⟨.canRingcfg0, 62, 55⟩
def CAN_RINGCFG0.SIZE_LOG2 : Fld := ⟨.canRingcfg0, 54, 51⟩
def CAN_RINGCFG0.LATE_US : Fld := ⟨.canRingcfg0, 50, 40⟩
def CAN_RINGCFG0.IRQ_VEC : Fld := ⟨.canRingcfg0, 39, 32⟩
def CAN_RINGCFG0.DROPS : Fld := ⟨.canRingcfg0, 31, 16⟩
/-! `CAN_RINGCFG1` (13_gateway_time.md). -/
def CAN_RINGCFG1.BASE : Fld := ⟨.canRingcfg1, 63, 6⟩
/-! `CAN_RINGDB` (13_gateway_time.md). -/
def CAN_RINGDB.PROD : Fld := ⟨.canRingdb, 63, 32⟩
def CAN_RINGDB.CONS : Fld := ⟨.canRingdb, 31, 0⟩
/-! `CAN_FLTR0` (13_gateway_time.md). -/
def CAN_FLTR0.ID : Fld := ⟨.canFltr0, 63, 35⟩
def CAN_FLTR0.MASK : Fld := ⟨.canFltr0, 34, 6⟩
def CAN_FLTR0.FORMAT : Fld := ⟨.canFltr0, 5, 4⟩
def CAN_FLTR0.XID : Fld := ⟨.canFltr0, 3, 3⟩
def CAN_FLTR0.EN : Fld := ⟨.canFltr0, 2, 2⟩
/-! `CAN_FLTR1` (13_gateway_time.md). -/
def CAN_FLTR1.AF : Fld := ⟨.canFltr1, 63, 32⟩
def CAN_FLTR1.AF_ANY : Fld := ⟨.canFltr1, 31, 31⟩
def CAN_FLTR1.ACTION : Fld := ⟨.canFltr1, 30, 28⟩
def CAN_FLTR1.RING : Fld := ⟨.canFltr1, 27, 24⟩
def CAN_FLTR1.DEST : Fld := ⟨.canFltr1, 23, 19⟩
def CAN_FLTR1.TUNNEL : Fld := ⟨.canFltr1, 18, 13⟩
/-! `POUR_ENT0` (08_scheduling.md). -/
def POUR_ENT0.START : Fld := ⟨.pourEnt0, 63, 44⟩
def POUR_ENT0.LEN : Fld := ⟨.pourEnt0, 43, 28⟩
def POUR_ENT0.FLASK : Fld := ⟨.pourEnt0, 27, 25⟩
def POUR_ENT0.UNIT_TYPE : Fld := ⟨.pourEnt0, 24, 22⟩
def POUR_ENT0.UNIT : Fld := ⟨.pourEnt0, 21, 16⟩
def POUR_ENT0.KIND : Fld := ⟨.pourEnt0, 15, 12⟩
def POUR_ENT0.VALID : Fld := ⟨.pourEnt0, 11, 11⟩
def POUR_ENT0.RSVD : Fld := ⟨.pourEnt0, 10, 0⟩
/-! `POUR_ENT1` (08_scheduling.md). -/
def POUR_ENT1.INSTANCE : Fld := ⟨.pourEnt1, 63, 56⟩
def POUR_ENT1.QUEUE : Fld := ⟨.pourEnt1, 55, 50⟩
def POUR_ENT1.JOB : Fld := ⟨.pourEnt1, 49, 40⟩
def POUR_ENT1.TILE_INDEX : Fld := ⟨.pourEnt1, 39, 24⟩
def POUR_ENT1.LOWBITS : Fld := ⟨.pourEnt1, 23, 0⟩
/-! `DTU_IOMMU` (10_virtualization_security.md). -/
def DTU_IOMMU.VALUE : Fld := ⟨.dtuIommu, 63, 0⟩

/-- The fields of a map as (high bit, low bit, access type); bits not listed are reserved (R342). -/
def Reg.fields : Reg → List (Nat × Nat × FKind)
  | .sprDb => [(63, 32, .rw), (31, 0, .rw)]
  | .sprQstat => [(63, 32, .ro), (31, 24, .ro), (23, 16, .ro), (15, 0, .ro)]
  | .sprQcfg => [(63, 63, .rw), (59, 56, .rw), (55, 52, .rw), (51, 48, .rw), (47, 40, .rw)]
  | .arrStatus => [(63, 56, .ro), (55, 52, .ro), (51, 48, .ro), (47, 36, .ro), (15, 15, .w1c), (14, 14, .w1c), (13, 13, .w1c), (12, 12, .w1c), (11, 11, .w1c), (10, 10, .w1c)]
  | .arrProg => [(63, 63, .w1s), (62, 62, .rw), (61, 50, .rw), (31, 31, .ro), (30, 30, .ro), (29, 18, .ro)]
  | .arrCtrl => [(63, 63, .w1s), (31, 0, .rw)]
  | .arrPerf => [(63, 32, .rw), (31, 16, .rw), (15, 0, .rw)]
  | .arrRate => [(63, 48, .ro), (47, 40, .ro)]
  | .arrResident => [(63, 22, .rw), (21, 11, .rw)]
  | .arrNumstat => [(7, 7, .w1c), (6, 6, .w1c), (5, 5, .w1c)]
  | .arrNumcnt => [(63, 48, .rw), (47, 32, .rw), (31, 16, .rw), (15, 0, .rw)]
  | .arrSatcfg => [(63, 63, .rw), (60, 56, .rw), (31, 16, .rw)]
  | .arrSatcnt => [(63, 32, .rw), (31, 16, .rw)]
  | .arrSatwin => [(63, 32, .ro), (31, 0, .ro)]
  | .attFslice => [(63, 32, .ro), (31, 16, .rw), (15, 0, .rw)]
  | .attIpool => [(63, 16, .rw), (15, 14, .rw), (0, 0, .rw)]
  | .attIframes => [(63, 43, .rw), (42, 22, .rw)]
  | .attIspill => [(63, 12, .rw)]
  | .attIquota => [(63, 51, .rw), (31, 0, .rw)]
  | .attIstat => [(63, 43, .ro), (42, 30, .ro), (0, 0, .ro)]
  | .attIcnt => [(63, 48, .rw), (47, 32, .rw), (31, 16, .rw), (15, 0, .rw)]
  | .attIctrl => [(63, 63, .w1s), (15, 0, .rw)]
  | .attIspilled => [(63, 32, .ro), (31, 16, .ro)]
  | .arrRcstat => [(63, 48, .rw), (47, 32, .rw), (31, 16, .rw), (15, 8, .rw), (7, 7, .ro)]
  | .sysSafecfg => [(63, 58, .rwlBoot), (57, 48, .rwlBoot)]
  | .sysTbbase => [(63, 16, .rwlMgr)]
  | .sysSafestat => [(63, 63, .ro), (62, 62, .ro), (15, 15, .w1c), (14, 14, .w1c), (13, 13, .w1c), (12, 12, .w1c), (11, 11, .w1c), (10, 10, .w1c), (9, 9, .w1c), (8, 8, .w1c), (7, 7, .w1c), (6, 6, .w1c), (5, 5, .w1c), (4, 4, .w1c), (3, 3, .w1c), (2, 2, .w1c), (1, 1, .w1c)]
  | .sysFlctrl => [(63, 60, .ro), (59, 59, .w1s), (58, 58, .w1s), (57, 57, .rw), (56, 54, .rw), (53, 53, .rw)]
  | .sysFlres => [(63, 30, .rw), (29, 14, .rw), (13, 6, .rw), (5, 5, .rw)]
  | .sysFlshare => [(63, 48, .rw), (47, 36, .rw), (35, 0, .rw)]
  | .pourCtrl => [(63, 63, .w1s), (62, 62, .ro), (61, 61, .w1c), (60, 60, .rw), (59, 40, .rw), (39, 20, .ro), (12, 0, .ro)]
  | .pourT0 => [(63, 0, .rw)]
  | .pourStat => [(63, 32, .ro), (31, 16, .rw), (15, 0, .rw)]
  | .pourFlag => [(63, 52, .ro), (51, 40, .rw), (39, 24, .rw)]
  | .pourFlog => [(63, 12, .rw)]
  | .pourQjpf => [(63, 53, .rw)]
  | .gateCfg => [(63, 44, .rw), (43, 24, .rw), (23, 8, .rw)]
  | .gateStat => [(63, 48, .rw), (47, 32, .rw), (31, 31, .w1c)]
  | .gateRt => [(63, 48, .rw), (47, 28, .rw), (27, 12, .rw), (11, 11, .w1c), (10, 10, .w1c)]
  | .memCtrl => [(63, 61, .rwlBoot), (60, 58, .rwlBoot), (57, 57, .rwlBoot), (56, 56, .w1s), (55, 55, .ro), (54, 52, .rw), (51, 51, .w1s), (50, 50, .ro), (49, 38, .rw)]
  | .memSpare => [(63, 22, .rwlMgr)]
  | .memChstat => [(63, 40, .rw), (39, 32, .rw), (31, 20, .ro), (19, 8, .ro)]
  | .memCways => [(63, 48, .rw), (47, 28, .ro)]
  | .memLres => [(63, 58, .rw), (57, 52, .rw), (51, 46, .ro)]
  | .memRgn0 => [(63, 21, .rw)]
  | .memRgn1 => [(63, 21, .rw), (20, 20, .rw), (19, 19, .rw), (18, 18, .rw), (17, 14, .rw)]
  | .dtuWalk => [(63, 57, .rw), (56, 50, .rw), (49, 43, .ro)]
  | .sysInst => [(63, 60, .ro), (59, 59, .w1s), (58, 58, .w1s), (57, 57, .w1s), (56, 56, .w1s), (55, 55, .w1s), (54, 54, .w1s), (53, 51, .rw), (50, 48, .ro)]
  | .dtuDlogcfg => [(63, 12, .rw), (11, 8, .rw), (1, 1, .w1c), (0, 0, .rw)]
  | .dtuDlogidx => [(63, 32, .ro), (31, 0, .rw)]
  | .sprQrestore0 => [(63, 32, .rw), (31, 0, .rw)]
  | .sprQrestore1 => [(63, 32, .rw), (0, 0, .rw)]
  | .sprQrestore2 => [(63, 32, .rw)]
  | .sysVfmap => [(63, 63, .rw), (62, 55, .rw)]
  | .dspCamport => [(63, 63, .rw), (62, 62, .rw), (61, 60, .rw), (59, 51, .rw), (31, 16, .rw), (15, 0, .rw)]
  | .dspCamctx0 => [(63, 63, .rw), (62, 60, .rw), (59, 56, .rw), (55, 50, .rw), (49, 46, .rw), (45, 38, .rw), (37, 24, .rw), (23, 10, .rw)]
  | .dspCamctx1 => [(63, 6, .rw)]
  | .dspCamstat => [(63, 32, .rw), (31, 16, .rw), (15, 0, .rw)]
  | .dspOutcfg => [(63, 56, .rw), (55, 50, .rw), (49, 36, .rw), (35, 35, .rw)]
  | .dspOutstat => [(63, 32, .ro), (31, 16, .rw), (15, 8, .rw), (7, 4, .rw), (3, 2, .ro), (1, 1, .ro)]
  | .dspTtcfg => [(63, 6, .rwlBoot), (5, 5, .rwlBoot), (4, 1, .rwlBoot)]
  | .dspTtstat => [(63, 32, .ro), (31, 16, .rw), (15, 12, .ro)]
  | .dspFlip => [(63, 6, .rw), (5, 5, .w1s)]
  | .runStat => [(63, 60, .ro), (59, 56, .ro), (55, 48, .ro), (31, 0, .ro)]
  | .runCnt => [(63, 48, .rw), (47, 32, .rw), (31, 16, .rw), (15, 0, .rw)]
  | .runCnt2 => [(63, 32, .rw), (31, 16, .rw), (15, 0, .rw)]
  | .timeNowNs => [(63, 0, .ro)]
  | .timeNowFrac => [(63, 48, .ro)]
  | .timeInc => [(49, 32, .rw), (23, 0, .rw)]
  | .timeStep => [(63, 0, .rw)]
  | .timeCtrl => [(63, 62, .rw), (61, 61, .ro), (60, 60, .w1c), (59, 47, .rw), (46, 31, .rw)]
  | .timeCmp0 => [(63, 0, .rw)]
  | .timeCmp1 => [(63, 63, .w1s), (62, 62, .w1c), (61, 61, .rw), (60, 48, .rw), (47, 32, .rw), (31, 0, .rw)]
  | .ethHostcfg => [(63, 56, .rw), (55, 55, .rw), (54, 39, .rw)]
  | .sysBrwin0 => [(63, 20, .rw), (19, 16, .rw), (15, 0, .rw)]
  | .sysBrwin1 => [(63, 20, .rw), (19, 19, .rw), (18, 18, .rw), (17, 16, .rw), (15, 0, .rw)]
  | .sysBrwin2 => [(63, 20, .rw), (19, 8, .rw)]
  | .ethRingcfg0 => [(63, 63, .rw), (62, 55, .rw), (54, 51, .rw), (50, 40, .rw), (39, 32, .rw), (31, 16, .rw)]
  | .ethRingcfg1 => [(63, 6, .rw)]
  | .ethRingdb => [(63, 32, .rw), (31, 0, .ro)]
  | .canCtrl => [(63, 63, .rw), (62, 60, .rw), (59, 56, .rw), (55, 52, .rw), (51, 45, .rw), (44, 38, .rw), (37, 37, .rw), (36, 36, .rw), (35, 31, .rw), (30, 28, .rw), (27, 24, .rw), (23, 16, .ro), (15, 8, .ro), (7, 6, .ro)]
  | .canFltrng => [(63, 52, .rw), (51, 39, .rw)]
  | .canStat => [(63, 48, .rw), (47, 32, .rw), (31, 16, .rw), (15, 0, .rw)]
  | .canJ19390 => [(63, 0, .rw)]
  | .canJ19391 => [(63, 56, .rw), (55, 55, .rw), (54, 54, .rw), (53, 52, .ro), (51, 51, .w1c)]
  | .canTuncfg => [(63, 6, .rw), (5, 5, .rw)]
  | .wskId => [(63, 48, .rwlBoot), (47, 47, .rwlBoot), (46, 43, .rw), (42, 37, .rw), (36, 21, .rw)]
  | .wskStat => [(63, 48, .rw), (47, 32, .rw), (31, 16, .rw), (15, 0, .rw)]
  | .wskPortcfg => [(63, 63, .rw), (62, 62, .rw), (61, 43, .rw)]
  | .wskPortstat => [(63, 60, .ro), (59, 58, .ro), (57, 42, .ro), (31, 16, .rw), (15, 8, .rw), (7, 0, .rw)]
  | .wskDozestat => [(63, 32, .ro), (31, 16, .ro)]
  | .wskRoute => [(63, 48, .rw), (47, 32, .rw), (31, 30, .rw), (29, 29, .rw), (28, 27, .rw), (26, 26, .rw)]
  | .wskIn0 => [(63, 20, .rw), (19, 19, .rw), (18, 11, .rw)]
  | .wskIn1 => [(63, 20, .rw), (19, 4, .rw)]
  | .sysPwrctrl => [(63, 44, .rw), (43, 34, .rw), (33, 33, .rw), (31, 0, .rw)]
  | .sysPwrstat => [(63, 60, .ro), (59, 56, .ro), (55, 51, .ro), (50, 50, .w1c), (49, 49, .ro), (48, 48, .w1c)]
  | .sysStbytime => [(63, 32, .rw)]
  | .sysBootstat => [(63, 56, .ro), (55, 55, .ro), (54, 54, .ro)]
  | .sysBillet => [(63, 62, .ro), (61, 55, .ro), (54, 48, .rw), (47, 47, .w1c)]
  | .cupWdog => [(63, 63, .w1s), (62, 53, .rw), (52, 37, .rw)]
  | .mbxDb => [(63, 63, .w1s), (62, 62, .w1c), (47, 32, .rw)]
  | .sysRegerr => [(63, 63, .w1c), (62, 62, .w1c), (61, 61, .w1c), (60, 57, .ro), (56, 49, .ro), (48, 21, .ro), (20, 5, .rw), (4, 4, .ro), (3, 3, .ro)]
  | .sysLock => [(63, 63, .w1s), (62, 62, .w1s)]
  | .sysId => [(63, 48, .ro), (47, 32, .ro), (31, 24, .ro), (23, 16, .ro)]
  | .sysAssign => [(63, 60, .rwlBoot), (59, 56, .rwlBoot), (55, 52, .rwlBoot), (51, 48, .rwlBoot), (47, 44, .rwlBoot), (43, 40, .rwlBoot), (39, 36, .rwlBoot), (35, 32, .rwlBoot), (31, 28, .rwlBoot), (27, 24, .rwlBoot), (23, 20, .rwlBoot), (19, 16, .rwlBoot), (15, 12, .rwlBoot), (11, 8, .rwlBoot), (7, 4, .rwlBoot), (3, 0, .rwlBoot)]
  | .sprQsubBase => [(63, 7, .rw)]
  | .sprQcplBase => [(63, 5, .rw)]
  | .vecStatus => [(63, 56, .ro), (55, 52, .ro), (51, 48, .ro)]
  | .sysIrqcfg => [(63, 2, .rw), (0, 0, .rw)]
  | .canRingcfg0 => [(63, 63, .rw), (62, 55, .rw), (54, 51, .rw), (50, 40, .rw), (39, 32, .rw), (31, 16, .rw)]
  | .canRingcfg1 => [(63, 6, .rw)]
  | .canRingdb => [(63, 32, .rw), (31, 0, .ro)]
  | .canFltr0 => [(63, 35, .rw), (34, 6, .rw), (5, 4, .rw), (3, 3, .rw), (2, 2, .rw)]
  | .canFltr1 => [(63, 32, .rw), (31, 31, .rw), (30, 28, .rw), (27, 24, .rw), (23, 19, .rw), (18, 13, .rw)]
  | .pourEnt0 => [(63, 44, .rw), (43, 28, .rw), (27, 25, .rw), (24, 22, .rw), (21, 16, .rw), (15, 12, .rw), (11, 11, .rw), (10, 0, .rw)]
  | .pourEnt1 => [(63, 56, .rw), (55, 50, .rw), (49, 40, .rw), (39, 24, .rw), (23, 0, .rw)]
  | .dtuIommu => [(63, 0, .rw)]

/-- The Reset column of a map as one 64-bit value (R350). SYS_ASSIGN's depends on the class and word:
see `assignReset`. -/
def Reg.resetNat : Reg → Nat
  | .sprDb => 0x0
  | .sprQstat => 0x0
  | .sprQcfg => 0x0
  | .arrStatus => 0xfff0000000000000
  | .arrProg => 0x0
  | .arrCtrl => 0x1f40
  | .arrPerf => 0x0
  | .arrRate => 0x0
  | .arrResident => 0x0
  | .arrNumstat => 0x0
  | .arrNumcnt => 0x0
  | .arrSatcfg => 0x14000000028f0000
  | .arrSatcnt => 0x0
  | .arrSatwin => 0x0
  | .attFslice => 0x0
  | .attIpool => 0x0
  | .attIframes => 0x0
  | .attIspill => 0x0
  | .attIquota => 0x0
  | .attIstat => 0x0
  | .attIcnt => 0x0
  | .attIctrl => 0x0
  | .attIspilled => 0x0
  | .arrRcstat => 0x0
  | .sysSafecfg => 0x8032000000000000
  | .sysTbbase => 0x0
  | .sysSafestat => 0x0
  | .sysFlctrl => 0x0
  | .sysFlres => 0x0
  | .sysFlshare => 0x3e8000000000
  | .pourCtrl => 0xc3500000000000
  | .pourT0 => 0x0
  | .pourStat => 0x0
  | .pourFlag => 0x640000000000
  | .pourFlog => 0x0
  | .pourQjpf => 0x0
  | .gateCfg => 0xfffff040000
  | .gateStat => 0x3e8000000000000
  | .gateRt => 0x7d0000000000000
  | .memCtrl => 0x800000000000
  | .memSpare => 0x0
  | .memChstat => 0x0
  | .memCways => 0x0
  | .memLres => 0x200000000000000
  | .memRgn0 => 0x0
  | .memRgn1 => 0x0
  | .dtuWalk => 0x100000000000000
  | .sysInst => 0x0
  | .dtuDlogcfg => 0x0
  | .dtuDlogidx => 0x0
  | .sprQrestore0 => 0x0
  | .sprQrestore1 => 0x0
  | .sprQrestore2 => 0x0
  | .sysVfmap => 0x0
  | .dspCamport => 0x40000000000000
  | .dspCamctx0 => 0x0
  | .dspCamctx1 => 0x0
  | .dspCamstat => 0x0
  | .dspOutcfg => 0xfa0000000000
  | .dspOutstat => 0x0
  | .dspTtcfg => 0x4
  | .dspTtstat => 0x0
  | .dspFlip => 0x0
  | .runStat => 0x300000000000000
  | .runCnt => 0x0
  | .runCnt2 => 0x0
  | .timeNowNs => 0x0
  | .timeNowFrac => 0x0
  | .timeInc => 0x2000000000000
  | .timeStep => 0x0
  | .timeCtrl => 0x21f4000000000000
  | .timeCmp0 => 0x0
  | .timeCmp1 => 0x1000000000000
  | .ethHostcfg => 0x8000000000000000
  | .sysBrwin0 => 0x80000
  | .sysBrwin1 => 0x0
  | .sysBrwin2 => 0x3200
  | .ethRingcfg0 => 0x0
  | .ethRingcfg1 => 0x0
  | .ethRingdb => 0x0
  | .canCtrl => 0x20a118000000000
  | .canFltrng => 0x0
  | .canStat => 0x0
  | .canJ19390 => 0x0
  | .canJ19391 => 0xfe00000000000000
  | .canTuncfg => 0x0
  | .wskId => 0x7d000000
  | .wskStat => 0x0
  | .wskPortcfg => 0x400000000000000
  | .wskPortstat => 0x0
  | .wskDozestat => 0x0
  | .wskRoute => 0x0
  | .wskIn0 => 0x0
  | .wskIn1 => 0x0
  | .sysPwrctrl => 0x200000000
  | .sysPwrstat => 0x0
  | .sysStbytime => 0x0
  | .sysBootstat => 0x0
  | .sysBillet => 0xa000000000000
  | .cupWdog => 0xc80000000000000
  | .mbxDb => 0x0
  | .sysRegerr => 0x1e00000000000000
  | .sysLock => 0x0
  | .sysId => 0x4757964010010000
  | .sysAssign => 0x0
  | .sprQsubBase => 0x0
  | .sprQcplBase => 0x0
  | .vecStatus => 0xfff0000000000000
  | .sysIrqcfg => 0x0
  | .canRingcfg0 => 0x0
  | .canRingcfg1 => 0x0
  | .canRingdb => 0x0
  | .canFltr0 => 0x0
  | .canFltr1 => 0x0
  | .pourEnt0 => 0x0
  | .pourEnt1 => 0x0
  | .dtuIommu => 0x0

/-- Every map, in the order of the constructors. -/
def Reg.all : List Reg :=
  [.sprDb, .sprQstat, .sprQcfg, .arrStatus, .arrProg, .arrCtrl,
   .arrPerf, .arrRate, .arrResident, .arrNumstat, .arrNumcnt, .arrSatcfg,
   .arrSatcnt, .arrSatwin, .attFslice, .attIpool, .attIframes, .attIspill,
   .attIquota, .attIstat, .attIcnt, .attIctrl, .attIspilled, .arrRcstat,
   .sysSafecfg, .sysTbbase, .sysSafestat, .sysFlctrl, .sysFlres, .sysFlshare,
   .pourCtrl, .pourT0, .pourStat, .pourFlag, .pourFlog, .pourQjpf,
   .gateCfg, .gateStat, .gateRt, .memCtrl, .memSpare, .memChstat,
   .memCways, .memLres, .memRgn0, .memRgn1, .dtuWalk, .sysInst,
   .dtuDlogcfg, .dtuDlogidx, .sprQrestore0, .sprQrestore1, .sprQrestore2, .sysVfmap,
   .dspCamport, .dspCamctx0, .dspCamctx1, .dspCamstat, .dspOutcfg, .dspOutstat,
   .dspTtcfg, .dspTtstat, .dspFlip, .runStat, .runCnt, .runCnt2,
   .timeNowNs, .timeNowFrac, .timeInc, .timeStep, .timeCtrl, .timeCmp0,
   .timeCmp1, .ethHostcfg, .sysBrwin0, .sysBrwin1, .sysBrwin2, .ethRingcfg0,
   .ethRingcfg1, .ethRingdb, .canCtrl, .canFltrng, .canStat, .canJ19390,
   .canJ19391, .canTuncfg, .wskId, .wskStat, .wskPortcfg, .wskPortstat,
   .wskDozestat, .wskRoute, .wskIn0, .wskIn1, .sysPwrctrl, .sysPwrstat,
   .sysStbytime, .sysBootstat, .sysBillet, .cupWdog, .mbxDb, .sysRegerr,
   .sysLock, .sysId, .sysAssign, .sprQsubBase, .sprQcplBase, .vecStatus,
   .sysIrqcfg, .canRingcfg0, .canRingcfg1, .canRingdb, .canFltr0, .canFltr1,
   .pourEnt0, .pourEnt1, .dtuIommu]

/-- The place of a map in that order. -/
def Reg.num : Reg → Nat
  | .sprDb => 0
  | .sprQstat => 1
  | .sprQcfg => 2
  | .arrStatus => 3
  | .arrProg => 4
  | .arrCtrl => 5
  | .arrPerf => 6
  | .arrRate => 7
  | .arrResident => 8
  | .arrNumstat => 9
  | .arrNumcnt => 10
  | .arrSatcfg => 11
  | .arrSatcnt => 12
  | .arrSatwin => 13
  | .attFslice => 14
  | .attIpool => 15
  | .attIframes => 16
  | .attIspill => 17
  | .attIquota => 18
  | .attIstat => 19
  | .attIcnt => 20
  | .attIctrl => 21
  | .attIspilled => 22
  | .arrRcstat => 23
  | .sysSafecfg => 24
  | .sysTbbase => 25
  | .sysSafestat => 26
  | .sysFlctrl => 27
  | .sysFlres => 28
  | .sysFlshare => 29
  | .pourCtrl => 30
  | .pourT0 => 31
  | .pourStat => 32
  | .pourFlag => 33
  | .pourFlog => 34
  | .pourQjpf => 35
  | .gateCfg => 36
  | .gateStat => 37
  | .gateRt => 38
  | .memCtrl => 39
  | .memSpare => 40
  | .memChstat => 41
  | .memCways => 42
  | .memLres => 43
  | .memRgn0 => 44
  | .memRgn1 => 45
  | .dtuWalk => 46
  | .sysInst => 47
  | .dtuDlogcfg => 48
  | .dtuDlogidx => 49
  | .sprQrestore0 => 50
  | .sprQrestore1 => 51
  | .sprQrestore2 => 52
  | .sysVfmap => 53
  | .dspCamport => 54
  | .dspCamctx0 => 55
  | .dspCamctx1 => 56
  | .dspCamstat => 57
  | .dspOutcfg => 58
  | .dspOutstat => 59
  | .dspTtcfg => 60
  | .dspTtstat => 61
  | .dspFlip => 62
  | .runStat => 63
  | .runCnt => 64
  | .runCnt2 => 65
  | .timeNowNs => 66
  | .timeNowFrac => 67
  | .timeInc => 68
  | .timeStep => 69
  | .timeCtrl => 70
  | .timeCmp0 => 71
  | .timeCmp1 => 72
  | .ethHostcfg => 73
  | .sysBrwin0 => 74
  | .sysBrwin1 => 75
  | .sysBrwin2 => 76
  | .ethRingcfg0 => 77
  | .ethRingcfg1 => 78
  | .ethRingdb => 79
  | .canCtrl => 80
  | .canFltrng => 81
  | .canStat => 82
  | .canJ19390 => 83
  | .canJ19391 => 84
  | .canTuncfg => 85
  | .wskId => 86
  | .wskStat => 87
  | .wskPortcfg => 88
  | .wskPortstat => 89
  | .wskDozestat => 90
  | .wskRoute => 91
  | .wskIn0 => 92
  | .wskIn1 => 93
  | .sysPwrctrl => 94
  | .sysPwrstat => 95
  | .sysStbytime => 96
  | .sysBootstat => 97
  | .sysBillet => 98
  | .cupWdog => 99
  | .mbxDb => 100
  | .sysRegerr => 101
  | .sysLock => 102
  | .sysId => 103
  | .sysAssign => 104
  | .sprQsubBase => 105
  | .sprQcplBase => 106
  | .vecStatus => 107
  | .sysIrqcfg => 108
  | .canRingcfg0 => 109
  | .canRingcfg1 => 110
  | .canRingdb => 111
  | .canFltr0 => 112
  | .canFltr1 => 113
  | .pourEnt0 => 114
  | .pourEnt1 => 115
  | .dtuIommu => 116

/-- The number of resources a class of R230 has. -/
def classSize : Nat → Nat
  | 1 => 12
  | 2 => 20
  | 3 => 8
  | 4 => 4
  | 5 => 4
  | 6 => 2
  | 7 => 1
  | 8 => 1
  | 9 => 16
  | _ => 0

/-- Reset of SYS_ASSIGN word `i % 2` of class `i / 2`: 8h for each index the class has, Fh elsewhere (R357). -/
def assignReset (i : Nat) : Nat :=
  (List.range 16).foldl
    (fun v k => v + (if 16 * (i % 2) + k < classSize (i / 2) then 8 else 15) * 16 ^ k) 0

/-- The reset value of occurrence `i` of a map (R350). -/
def Reg.reset (r : Reg) (i : Nat) : Word :=
  match r with
  | .sysAssign => BitVec.ofNat 64 (assignReset i)
  | r => BitVec.ofNat 64 r.resetNat

/-- The key under which occurrence `i` of a map is kept; 128 exceeds the number of maps. -/
def Reg.key (r : Reg) (i : Nat) : Nat := i * 128 + r.num

/-- The reset value that belongs to a key. -/
def keyReset (k : Nat) : Word :=
  match Reg.all[k % 128]? with
  | some r => r.reset (k / 128)
  | none => 0

end Sys2Proof.Machine
end

