-- ==== Sys2Proof/Machine/State.lean ====
section
/-! DEFINITION. The state of the block: every register map (`regs`), the memory, the time counter, and
everything the chapters name beside registers: queues, jobs, array contents, tables, stores, pins. -/

namespace Sys2Proof.Machine

/-- Why a step stops with a fault. -/
inductive Fault where
  /-- Raised by nothing: the manual reports every error of an access as an effect (R15, R193, R301, R351),
  and the model follows it. The constructor keeps the type inhabited; safe. -/
  | none
  deriving DecidableEq, Repr

/-- Why a step refuses a command. -/
inductive Refusal where
  /-- Raised by an arm of the dispatcher that has no meaning yet; safe. -/
  | notModelled (mnemonic : String)
  deriving DecidableEq, Repr

/-! ## What leaves the device -/

/-- Everything the block emits, in order: answers to accesses, interrupts, frames, cells and pin events. -/
inductive Out where
  /-- a read's answer at its master (R344) -/
  | readData (m : Master) (v : Nat)
  /-- memory data at the reader -/
  | memData (m : Master) (bs : List Byte)
  /-- an access or request completes without error and without data -/
  | done (m : Master)
  /-- an access fault at a core, a translation fault at any other master (R344, R351) -/
  | accessFault (m : Master)
  | xlateFault (m : Master)
  /-- an error completion of a crossing closed by a clock monitor (R15) -/
  | clockError (m : Master)
  /-- poisoned or unverifiable data (R193): a hardware-error exception at a core -/
  | poisoned (m : Master)
  /-- an MSI to the manager with an identity of R359, and the unit it names -/
  | mgrIrq (ident : Nat) (unit : Nat)
  /-- an interrupt to the Cupola (R154) -/
  | cupolaIrq (cause : Nat)
  /-- a completion, ring or output interrupt to an instance on a vector -/
  | instIrq (inst : Nat) (vec : Nat)
  /-- a mailbox channel's interrupt (R331) -/
  | mbxIrq (ch : Nat)
  /-- level changes of output pins: name code and level -/
  | pin (name : String) (level : Bool)
  /-- a pulse of TIME_OUT_n, in units of 8 ns (R282) -/
  | timeOut (n : Nat) (width : Nat)
  /-- an Ethernet frame leaving a port -/
  | ethFrame (port : Nat) (bs : List Byte)
  /-- a CAN frame on the bus of a controller -/
  | canFrame (c : Nat) (f : CanFrame)
  /-- an AVTPDU from port 14 (R297) -/
  | avtpdu (dmac vid pcp : Nat) (stream : Nat) (seq : Nat) (msgs : List AcfMsg)
  /-- a cell leaving a Weska port -/
  | cell (p : Nat) (c : Cell)
  /-- a cell ended with a bad-cell marker (R307) -/
  | badCell (p : Nat) (c : Cell)
  /-- a replay request (R307) -/
  | replay (p : Nat)
  /-- a PCIe request leaving port p; that of an instance carries the number of its virtual function, and whether the T bit
  is set (R225, R227) -/
  | pcie (p : Nat) (addr : Nat) (data : Option (List Byte)) (bytes : Nat) (rid : Option (Nat × Bool))
  /-- a time message handed to the servo writer (R315) -/
  | timeToServo (stamp : Nat) (corr : Int) (ingress : Nat)
  /-- a scan line or rectangle shown: output, plane descriptors in composition order -/
  | shown (o : Nat) (descs : List (List Nat))
  /-- black lines sent for an underrun or safe blank -/
  | black (o : Nat)
  /-- a trajectory given to the gateway, and the window of its gate times in ns: that of stage 7 for a release of the
  active device (R21), the backup window for the shadow's own (R22) -/
  | trajectory (dev : Nat) (frame : Nat) (fromNs toNs : Nat)
  /-- the TC10 sleep request to an external PHY (R326) -/
  | tc10Sleep (port : Nat)
  /-- an SPDM, TDISP or IDE_KM answer to a tenant or host -/
  | spdm (tenant : Nat) (ok : Bool) (body : List Nat)
  /-- the answer of a monitor call in a0 and a1 (R229) -/
  | monitorReply (core : Nat) (a0 a1 : Nat)
  /-- a Weska rendezvous burst, or a pull of WSK_WAKE for some ticks -/
  | burst (p : Nat)
  | wakePull (p : Nat) (ticks : Nat)
  /-- what the JTAG data register shows -/
  | tdo (v : Nat)
  /-- a halt, trace or sampling access served (R236) -/
  | debugServed (f : Nat)
  /-- such an access refused as a translation fault -/
  | debugRefused (f : Nat)
  deriving DecidableEq, Repr

/-! ## Jobs and queues (chapter 02) -/

/-- Where a job stands. -/
inductive JobPhase where
  /-- copied from the ring and validated -/
  | waiting
  /-- started with a completion slot reserved (R32) -/
  | running
  /-- its work has ended with a status; the completion record is not yet written -/
  | ended
  deriving DecidableEq, Repr

/-- A job the dispatcher has taken from its ring. -/
structure Job where
  id : Nat
  /-- queue number 64 × instance + queue (R358) -/
  queue : Nat
  ringIdx : Nat
  /-- the sixteen words of the descriptor -/
  desc : List Nat
  phase : JobPhase := .waiting
  status : Nat := 0
  /-- DETAIL, where the manual says what it holds -/
  detail : Option Nat := none
  /-- the operator record, and the tile descriptors as eight words each -/
  param : List Byte := []
  tiles : List (List Nat) := []
  /-- CFLAGS: bit 0 STALE, bit 1 RECOVERED, bit 2 SATURATED -/
  cflags : Nat := 0
  /-- array time charged, in ns (R179) -/
  arrayNs : Nat := 0
  /-- frame and position of R169 -/
  bound : Option (Nat × Nat) := none
  /-- a completion slot is reserved -/
  slot : Bool := false
  /-- tiles, items or pieces finished or issued -/
  doneParts : List Nat := []
  issued : Nat := 0
  /-- lowest error offset by status: TRANSLATION_FAULT, INTEGRITY_FAIL, PROG_BUSY -/
  errX : Option Nat := none
  errI : Option Nat := none
  errB : Option Nat := none
  /-- the next encrypt/decrypt unit may not go on (R209) -/
  stop : Bool := false
  /-- RENDER has missed its target latch (R258, R259) -/
  missed : Bool := false
  /-- RENDER: fragment batches that the front end makes, once known -/
  frags : Option Nat := none
  /-- address and length of every range that the job's pour programs have been told to write (R36, R57) -/
  outs : List (Nat × Nat) := []
  /-- ladles that serve pieces of an XFER job (R206, R208) -/
  ladles : Nat := 0
  /-- answers or output rows that the other devices of spreads still owe (R128, R129), the worst answer so far, and the
  status and DETAIL that the job ends with then -/
  await : Nat := 0
  answer : Nat := 0
  fin : Option (Nat × Nat) := none
  /-- the SEQ_IDs of the batch list of the step or prefill that the job belongs to (R120) -/
  runIds : List Nat := []
  deriving DecidableEq, Repr

/-- What a queue holds beside its registers. -/
structure QueueSt where
  /-- next completion-ring index (R30) -/
  nextCpl : Nat := 0
  /-- completion slots reserved for started jobs (R32) -/
  reserved : Nat := 0
  /-- STATE before the quiesce (R216) -/
  preQuiesce : Nat := 0
  deriving DecidableEq, Repr

/-- The sprue scanner (R38). -/
structure Sprue where
  /-- pending bitmap, as the rising list of set bits -/
  pending : List Nat := []
  /-- queues of the current round still to be served, in order -/
  round : List Nat := []
  /-- queues that the current round has served -/
  served : List Nat := []
  /-- the round has served a step-2 queue -/
  step2 : Bool := false
  /-- flask at which step 2 of the next round begins -/
  turn : Nat := 0
  /-- the dispatchers' ready sets, as the rising list of queues -/
  ready : List Nat := []
  deriving DecidableEq, Repr

/-! ## Tensor arrays (chapters 03, 04) -/

/-- A weight block: CF19 values of the cells as binary32 codes at key 64 × row + column, the 2:4
positions, and whether it is sparse. -/
structure Weights where
  w : NMap Nat := []
  pos : NMap Nat := []
  sparse : Bool := false
  deriving DecidableEq, Repr

/-- Settings of POST (R54). -/
structure PostCfg where
  act : Nat := 0
  slope : Nat := 0
  zc : Bool := false
  headroom : Nat := 0
  windowM1 : Nat := 0
  seed : Int := 0
  biasEn : Bool := false
  biasAddr : Nat := 0
  deriving DecidableEq, Repr

/-- An armed or flowing activation stream (R46). -/
structure Stream where
  src : Nat
  fmt : Nat
  sparse : Bool
  zc : Bool
  /-- serial of the XFER the stream follows (R61) -/
  follow : Option Nat
  m : Nat
  stride : Nat
  /-- mould address of the scale bytes, and the bytes of the rows once they have been read -/
  scaleAddr : Nat
  scales : Option (List Nat)
  /-- rows expanded from zero-compressed blocks, once read -/
  zcRows : Option (List (List Nat)) := none
  accRow : Nat
  accumulate : Bool
  swap : Bool
  /-- rows that have entered -/
  entered : Nat := 0
  /-- step at which row 0 entered -/
  s0 : Nat := 0
  weights : Weights := {}
  /-- the rows that entered, expanded, last row first -/
  rows : List (List Nat) := []
  deriving DecidableEq, Repr

/-- Kinds of asynchronous command (R52). -/
inductive AsyncKind where
  | ldw | drain | xfer
  deriving DecidableEq, Repr

/-- An asynchronous command that has issued and not completed. -/
structure AsyncOp where
  serial : Nat
  kind : AsyncKind
  evt : Option Nat
  /-- XFER: mould range being written, start and length; length 0 for none -/
  lo : Nat := 0
  len : Nat := 0
  /-- DRAIN: the ranges its rows and scale bytes are written to -/
  rows : List (Nat × Nat) := []
  /-- LDW: the block that goes to the shadow weights -/
  block : Option Weights := none
  /-- bytes of the range already written, for FOLLOW -/
  written : Nat := 0
  /-- XFER: direction 1b is towards memory -/
  toMem : Bool := false
  /-- a suppressed XFER of R132 -/
  suppressed : Bool := false
  /-- all of its data has moved -/
  finished : Bool := false
  deriving DecidableEq, Repr

/-- What an array job runs as (R131, R137). -/
inductive Role where
  | single | primary | recast | reexec (transformed : Bool) | testBar (transformed : Bool)
  deriving DecidableEq, Repr

/-- The array job that occupies an array. -/
structure RunJob where
  job : Nat
  tile : Nat
  /-- the eight words of the tile descriptor -/
  desc : List Nat
  role : Role
  startNs : Nat
  flask : Nat
  inst : Nat
  /-- charged to a flask as lent time -/
  lent : Bool := false
  deriving DecidableEq, Repr

/-- A DIR 1b XFER as issued, kept for the release copy of R137. -/
structure OutXfer where
  va : Nat
  maddr : Nat
  len : Nat
  key : Nat
  form : Nat
  arg : Nat
  deriving DecidableEq, Repr

/-- Where an array's test bar stands (R148): saving, loading, its two runs, restoring, and ready for its verdict. -/
inductive BarPhase where
  | save | load | run | restore | over
  deriving DecidableEq, Repr

/-- The contents of one physical array beside its registers. -/
structure ArraySt where
  mould : NMap Byte := []
  /-- the command store: 128-bit commands at index 2048 × half + i -/
  store : NMap Nat := []
  active : Weights := {}
  shadow : Weights := {}
  /-- accumulators at key 64 × row + physical column -/
  accum : NMap Nat := []
  streams : List Stream := []
  /-- SWAPW mark, and accumulate mode of an ACC, waiting for the next LDA (R48) -/
  armSwap : Bool := false
  armAcc : Option Bool := none
  /-- steps executed in this array job (R46) -/
  steps : Nat := 0
  ev : NMap Nat := []
  post : PostCfg := {}
  hist : List Int := []
  /-- iterations completed in the current pass, by index of the LOOP (R55) -/
  loops : NMap Nat := []
  async : List AsyncOp := []
  serial : Nat := 0
  /-- DIR 0b XFERs issued in this array job, newest first: serial, start, length (R61) -/
  fills : List (Nat × Nat × Nat) := []
  /-- DIR 1b XFERs issued in this array job, in order -/
  outs : List OutXfer := []
  /-- index of the command at issue, within the program -/
  pc : Nat := 0
  job : Option RunJob := none
  /-- the tile whose program waits in the NEXT half, or is to be loaded -/
  nextJob : Option RunJob := none
  /-- steps left of a SHIFT that stalled -/
  shiftLeft : Nat := 0
  /-- barrier and parties of a SYNC that waits -/
  sync : Option (Nat × Nat) := none
  /-- time at which a WAITQ began to hold -/
  waitFrom : Option Nat := none
  /-- END has issued and the array holds at its job boundary (R135) -/
  held : Bool := false
  sigCrc : Nat := 0xFFFFFFFF
  outCrc : Nat := 0xFFFFFFFF
  /-- signatures emitted: SIG_ID and value -/
  sigs : List (Nat × Nat) := []
  /-- a spare whose image copy is not complete (R68) -/
  copying : Bool := false
  testBarDue : Bool := false
  /-- a test bar runs, and the time it started; the array is a spare -/
  testBar : Option Nat := none
  barSpare : Bool := false
  /-- its phase, the pairing of formats of its frame, and how its runs ended: signatures, or none for a fault -/
  barPhase : BarPhase := .save
  barPair : Nat := 0
  barRuns : List (Option (List (Nat × Nat) × Nat)) := []
  lastBarNs : Nat := 0
  /-- progress monitor of R67: sums in this frame, and ns to subtract from the running job -/
  estSum : Nat := 0
  busySum : Nat := 0
  pauseNs : Nat := 0
  /-- flask a lent array serves, and ns served in this slice (R178) -/
  slice : Option (Nat × Nat) := none
  /-- SHARE and SLICE_US as of the start of the slice (R162) -/
  sliceShare : Nat := 0
  sliceUs : Nat := 0
  lastFlask : Option Nat := none
  /-- the read-back of a shakeout outside CREATE and DESTROY failed, and firmware clears (R220) -/
  clearing : Bool := false
  /-- retirement (with the cause of R156) or withdrawal is due at the next boundary -/
  retireDue : Option Nat := none
  withdrawDue : Option Nat := none
  deriving DecidableEq, Repr

/-! ## Recast pairs, flasks and the pour table (chapters 07, 08) -/

/-- State of a recast pair. -/
inductive PairPhase where
  | running | reexec | release | faultOut
  deriving DecidableEq, Repr

/-- One recast pair (R131): unit numbers are physical; `vec` says vector engines. -/
structure Pair where
  flask : Nat
  vec : Bool
  job : Nat
  tile : Nat
  pri : Nat
  rc : Nat
  priEnd : Option Nat := none
  rcEnd : Option Nat := none
  laterStart : Nat
  /-- scheduled end of the execution that started first, and the scheduled end of the later execution plus 0.2 µs (R135) -/
  firstEnd : Nat
  releaseNs : Nat
  phase : PairPhase := .running
  /-- signatures of the two executions; none when it overran or faulted -/
  sigP : Option (List (Nat × Nat) × Nat) := none
  sigR : Option (List (Nat × Nat) × Nat) := none
  /-- job faults of the two executions: status and flag (R135) -/
  faultP : Option (Nat × Nat) := none
  faultR : Option (Nat × Nat) := none
  /-- executions that overran: bit 0 primary, bit 1 recast -/
  overran : Nat := 0
  /-- outcome: 0 open, 1 released, 2 not released -/
  outcome : Nat := 0
  /-- the comparator copies disagreed, and no decision took effect (R142) -/
  split : Bool := false
  deriving DecidableEq, Repr

/-- One tile in a tile queue (R64). -/
structure TileQ where
  job : Nat
  tile : Nat
  prio : Nat
  order : Nat
  array : Nat
  /-- the display queue's tiles stand at the head (R258) -/
  urgent : Bool := false
  deriving DecidableEq, Repr

/-- A key slot of a flask (R232, R234). -/
structure KeySlot where
  tenant : Nat
  keyId : Nat
  count : Nat := 0
  deriving DecidableEq, Repr

/-- A debug consent (R236). -/
structure Consent where
  scope : Nat
  lastHour : Nat
  digest : Nat
  deriving DecidableEq, Repr

/-- What a flask holds beside its registers. -/
structure FlaskSt where
  tiles : List TileQ := []
  order : Nat := 0
  /-- virtual time of lending (R178) -/
  vtime : Nat := 0
  slots : NMap KeySlot := []
  consent : Option Consent := none
  /-- entries held by an isolation (R171) -/
  held : List Nat := []
  isolating : Bool := false
  /-- a hardware fault of one copy of the flask's comparator, which the next decision meets (R142) -/
  cmpFault : Bool := false
  /-- end of the isolation that held entries, for R174, and LAG_MAX as of the start of the isolation (R162) -/
  isoEndNs : Nat := 0
  lagMax : Nat := 0
  /-- extra test bars that R147 calls for -/
  extraBars : List TBUnit := []
  /-- the read-back of its hardware shakeout failed and firmware clears (R220) -/
  fwClear : Bool := false
  /-- sub-microsecond array time not yet in ACCT, in ns -/
  acctNs : Nat := 0
  /-- escalation level in force and its output -/
  level : Nat := 0
  escOutput : Nat := 0
  deriving DecidableEq, Repr

/-- The two words of a pour-table entry (R166). -/
structure Ent where
  w0 : Nat
  w1 : Nat
  deriving DecidableEq, Repr

/-- A pour-table entry that has started (R168, R170): 4096 × bank + index and its two words as they were, its frame,
START + L as a time, whether it is empty, and the lag that a recovery entry absorbed. -/
structure Running where
  entry : Nat
  ent : Ent
  frame : Nat
  dueNs : Nat
  empty : Bool := false
  absorbed : Nat := 0
  deriving DecidableEq, Repr

/-- A start of an entry: its index and its two words, its frame and the time of its START. -/
structure Due where
  idx : Nat
  ent : Ent
  frame : Nat
  startNs : Nat
  deriving DecidableEq, Repr

/-- The latest first execution of a task on a core (R145, R146, R175): its input log and the time of its capture, and
once it has ended its signature and instruction count. -/
structure FirstRun where
  task : Nat
  logTime : Nat
  log : NMap Byte := []
  ended : Option (Nat × Nat) := none
  deriving DecidableEq, Repr

/-- A real-time core beside its assignment (R144 to R147). -/
structure RtSt where
  flask : Option Nat := none
  logical : Nat := 0
  withdrawn : Bool := false
  withdrawDue : Bool := false
  /-- task, instance, log record, entry kind, start, and whether the executive has started -/
  task : Option (Nat × Nat × Nat × Nat × Nat) := none
  started : Bool := false
  /-- the first executions, one for each task -/
  firsts : List FirstRun := []
  /-- its registers (0 to 31 integer, 32 to 63 floating-point), and its own physical copy of the data window (R144) -/
  reg : NMap Nat := []
  data : NMap Byte := []
  /-- the image in its tightly-coupled memory, by a number; none once it has been cleared (R219) -/
  tcm : Option Nat := none
  lastBarNs : Nat := 0
  testBar : Bool := false
  /-- outcome of the extra test bars of R147: still to run -/
  extra : Bool := false
  deriving DecidableEq, Repr

/-- The pour table and what runs of it. -/
structure PourSt where
  running : List Running := []
  /-- entries (4096 × bank + index) of the current frame that have started -/
  started : List Nat := []
  /-- entries of earlier frames that lag has carried on -/
  carried : List Due := []
  /-- entries that the monitor has counted late, each with its frame -/
  lateSeen : List (Nat × Nat) := []
  /-- shadow bank validated and waiting for the boundary -/
  validated : Bool := false
  /-- time of the current frame's boundary -/
  frameNs : Nat := 0
  deriving DecidableEq, Repr

/-! ## Vector engines (chapter 11) -/

/-- A work item on a vector engine. -/
structure VItem where
  job : Nat
  item : Nat
  startNs : Nat
  /-- 0 VECTOR item, 1 vertex batch, 2 fragment batch, 3 CONV rows -/
  kind : Nat := 0
  deriving DecidableEq, Repr

/-- A vector engine: lanes of the 32 registers as 32-bit elements at key 64 × register + lane. -/
structure VecSt where
  vreg : NMap Nat := []
  /-- integer and floating-point registers, the program counter, U-mode, and the CSRs fcsr, vstart and vcsr by number -/
  xreg : NMap Nat := []
  freg : NMap Nat := []
  pc : Nat := 0
  user : Bool := false
  csr : NMap Nat := []
  sew : Nat := 32
  vl : Nat := 64
  /-- registers of a group -/
  lmul : Nat := 1
  fmt : Nat := 0
  store : NMap Byte := []
  /-- signature of the item, and the stores of a recast execution or re-execution: address and data, in order (R143) -/
  sig : Nat := 0xFFFFFFFF
  outs : List (Nat × List Byte) := []
  item : Option VItem := none
  testBar : Bool := false
  testBarDue : Bool := false
  withdrawDue : Bool := false
  lastBarNs : Nat := 0
  deriving DecidableEq, Repr

/-- A preempted item (R245, R251): `startNs` of the item holds the time it has run. The context of a VECTOR item lies in
slot `slot` of its save area, which has no place for the program counter; of a batch or of rows of a CONV job the hardware
keeps the engine's whole contents. -/
structure SavedItem where
  it : VItem
  slot : Nat
  pc : Nat
  ctx : Option VecSt := none
  deriving DecidableEq, Repr

/-! ## Attention (chapter 06) -/

/-- A sequence context of the table. -/
structure Ctx where
  seqId : Nat := 0
  state : Nat := 0
  prio : Nat := 0
  layers : Nat := 0
  kvHeads : Nat := 0
  dCode : Nat := 0
  pageCode : Nat := 0
  spread : Bool := false
  vaBase : Nat := 0
  len : Nat := 0
  maxTokens : Nat := 0
  leafAddr : Nat := 0
  pages : Nat := 0
  lastStep : Nat := 0
  spreadAddr : Nat := 0
  resv : Nat := 0
  inst : Nat := 0
  deriving DecidableEq, Repr

/-- An open step or prefill (R120). -/
structure OpenRun where
  inst : Nat
  prefill : Bool
  batch : Nat
  entries : Nat
  ntok : Nat
  /-- run set: list position and SEQ_ID -/
  run : List (Nat × Nat)
  /-- every SEQ_ID of the batch list -/
  ids : List Nat
  deriving DecidableEq, Repr

/-! ## Memory, cache, DTU (chapters 09, 10) -/

/-- A line in the system cache; `used` orders replacement, larger is more recent. -/
structure CacheLine where
  line : Nat
  way : Nat
  dirty : Bool
  used : Nat
  deriving DecidableEq, Repr

/-- M, E or S of a caching master's line (R202). -/
inductive Moesi where
  | m | e | s
  deriving DecidableEq, Repr

/-- A snoop filter record. -/
structure Holder where
  who : Cacher
  line : Nat
  st : Moesi
  deriving DecidableEq, Repr

/-- An entry of a write-back buffer (R203). -/
structure WbEntry where
  who : Cacher
  line : Nat
  data : Option (List Byte)
  /-- found stale at the home -/
  stale : Bool := false
  acked : Bool := false
  deriving DecidableEq, Repr

/-- A read, or a write with its data, of at most one line that waits at its home slice (R202). -/
structure HomeReq where
  m : Master
  addr : Nat
  bytes : Nat
  write : Option (List Byte) := none
  deriving DecidableEq, Repr

/-- A request that waits for a snoop (R202, R203). -/
structure Snoop where
  target : Cacher
  line : Nat
  req : HomeReq
  deriving DecidableEq, Repr

/-- Bits turned over in a stored burst (R190): line and subchannel, or block and subchannel for a check line. -/
structure Flip where
  line : Nat
  sub : Nat
  mask : Nat
  deriving DecidableEq, Repr

/-- What a ladle move is for (R205 to R207): an XFER of a pour program, a copy of the hardware for a flask, or the copy
of a retired channel. -/
inductive MoveKind where
  | pour (array : Nat) (serial : Nat)
  | spareImage (array : Nat)
  | release (array : Nat)
  | inputLog (core : Nat)
  | barSave (array : Nat)
  | barLoad (array : Nat)
  | barRestore (array : Nat)
  | retire (ch : Nat)
  deriving DecidableEq, Repr

/-- A ladle move in 4 KB pieces. -/
structure Move where
  id : Nat
  kind : MoveKind
  part : Nat
  inst : Nat
  /-- towards memory (DIR 1b) -/
  toMem : Bool
  /-- address in memory, mould address, length and bytes already moved -/
  va : Nat
  maddr : Nat
  len : Nat
  done : Nat := 0
  /-- key slot; form 0 plain, 1 window transfer, 2 scatter transfer, with its OFFSET / 64 -/
  key : Nat := 0
  form : Nat := 0
  arg : Nat := 0
  /-- QoS label of its requests (R57, R183), and whether a ladle serves it now (R206) -/
  label : Nat := 0
  ladle : Bool := false
  /-- bytes read from the mould store at issue, for a move towards memory -/
  data : List Byte := []
  /-- job and tile the move serves -/
  job : Nat := 0
  tile : Nat := 0
  deriving DecidableEq, Repr

/-- A cached translation (R212). -/
structure Tlb where
  inst : Nat
  vpn : Nat
  ppn : Nat
  gpn : Nat
  gscid : Nat
  pscid : Nat
  write : Bool
  dirty : Bool
  /-- levels of the leaf entries of the two stages: a leaf of level n maps 512^n pages -/
  slv : Nat := 0
  glv : Nat := 0
  deriving DecidableEq, Repr

/-- A fault-queue report (R213). -/
structure DtuFault where
  inst : Nat
  va : Nat
  write : Bool
  cause : Nat := 0
  deriving DecidableEq, Repr

/-! ## Pixels (chapter 11) -/

/-- A camera ingest context beside its registers. -/
structure CamSt where
  recordBase : Nat := 0
  counterAddr : Nat := 0
  /-- PLANE0, PLANE1, RELEASE_ADDR of each buffer -/
  bufs : List (Nat × Nat × Nat) := []
  next : Nat := 0
  /-- a frame is being received -/
  active : Bool := false
  stopping : Bool := false
  buf : Option Nat := none
  frame : Nat := 0
  lines : Nat := 0
  flags : Nat := 0
  tSof : Nat := 0
  tEof : Nat := 0
  /-- a write was refused: the rest of the frame is not written (R249) -/
  dead : Bool := false
  /-- the frame has ended and its record is due -/
  recordDue : Bool := false
  deriving DecidableEq, Repr

/-- A display output beside its registers. -/
structure DispSt where
  /-- descriptor in force of each plane: eight words, or none -/
  planes : NMap (List Nat) := []
  /-- the tell-tale descriptor in force; none when its fetch faulted -/
  tt : Option (List Nat) := none
  /-- safe blank is to be entered or left at the next latch -/
  blankNext : Bool := false
  unblankNext : Bool := false
  ownerInst : Nat := 0
  /-- instance that posted each plane -/
  posted : NMap Nat := []
  link : List Nat := []
  linkUp : Bool := false
  deriving DecidableEq, Repr

/-! ## Gateway (chapter 13) -/

/-- A gate list or stream gate engine (R281). -/
structure GateEng where
  /-- gate states in force: bit c of a port's list, bit 0 of a stream gate -/
  open_ : Nat := 0xFF
  /-- entry of the operational list, the time it ends, the start of the present cycle -/
  idx : Nat := 0
  target : Nat := 0
  start : Nat := 0
  /-- the operational list (states, interval) and its cycle -/
  ops : List (Nat × Nat) := []
  cycle : Nat := 0
  running : Bool := false
  /-- base time at which the administrative list becomes operational -/
  base : Option Nat := none
  deriving DecidableEq, Repr

/-- One table item held by the switch controller: port, section, index, bytes (R334). -/
structure EthItem where
  port : Nat
  sec : Nat
  idx : Nat
  bs : List Byte
  deriving DecidableEq, Repr

/-- A credit-based shaper (R287): its credit in 10^−6 bit at a time, and whether frames waited since. -/
structure ShaperSt where
  credit : Int := 0
  ns : Nat := 0
  waits : Bool := false
  deriving DecidableEq, Repr

/-- A flow meter (R287): committed and excess buckets in 10^−6 bit, at a time. -/
structure MeterSt where
  c : Nat
  e : Nat
  ns : Nat
  deriving DecidableEq, Repr

/-- A sequence generation or recovery function (R287): the next or the last number, the history of the vector
algorithm (bit k: number seq − k was seen), and the time of the last accepted frame. -/
structure CbSt where
  seq : Nat := 0
  hist : Nat := 0
  takeAny : Bool := true
  ns : Nat := 0
  deriving DecidableEq, Repr

/-- A CAN controller beside its registers. -/
structure CanSt where
  route : List CanFrame := []
  /-- claim frames that wait for the next arbitration -/
  claims : List CanFrame := []
  /-- time of each slot's claim, and the slots that still owe a Cannot Claim (R296) -/
  claimNs : NMap Nat := []
  owe : List Nat := []
  deriving DecidableEq, Repr

/-- A tunnel entry as read at EN, with the AVTPDU being built. -/
structure Tunnel where
  stream : Nat := 0
  dmac : Nat := 0
  vid : Nat := 0
  pcp : Nat := 0
  inbound : Bool := false
  maxWaitUs : Nat := 0
  maxMsgs : Nat := 0
  ctrlMask : Nat := 0
  msgs : List AcfMsg := []
  firstNs : Nat := 0
  seq : Nat := 0
  /-- next sequence number expected of an inbound stream -/
  expect : Option Nat := none
  skipped : Nat := 0
  deriving DecidableEq, Repr

/-- A request a bridge has carried out and not completed (R301). -/
structure BridgeReq where
  tag : Nat
  win : Nat
  master : Master
  write : Bool
  np : Bool
  bytes : Nat
  startNs : Nat
  /-- the active device's trajectory forwarding of R21 -/
  forward : Bool := false
  deriving DecidableEq, Repr

/-! ## Weska (chapter 14) -/

/-- A Weska port beside its registers. -/
structure WskSt where
  trained : Bool := false
  /-- credits held at the next device, by channel -/
  credits : NMap Nat := []
  /-- cells that wait, oldest first: in transit with their ingress port, and local -/
  transit : List (Nat × Cell) := []
  localQ : List Cell := []
  /-- the last cell of a channel served was a transit cell -/
  lastTransit : NMap Nat := []
  unacked : List Cell := []
  txSeq : Nat := 0
  rxSeq : Nat := 0
  replaying : Bool := false
  replays1ms : Nat := 0
  replayNs : Nat := 0
  /-- credits to return, by channel -/
  owed : NMap Nat := []
  searchLeft : Nat := 0
  sawLow : Bool := false
  drift : Nat := 0
  deriving DecidableEq, Repr

/-! ## Firmware, power, field record (chapters 07, 15, 17) -/

/-- A firmware image: version, security version, digest. -/
structure Image where
  version : Nat := 0
  secVersion : Nat := 0
  digest : Nat := 0
  deriving DecidableEq, Repr

/-- A firmware processor (R332, R335). -/
structure FwProc where
  running : Bool := false
  image : Image := {}
  staged : Option Image := none
  restarting : Bool := false
  /-- channel that waits for the restart's answer, and the image it restarts on -/
  waiter : Option Nat := none
  nextImage : Image := {}
  deriving DecidableEq, Repr

/-- Power modes of chapter 15; `reset` is ON held in reset. -/
inductive PMode where
  | off | on | standby | reset
  deriving DecidableEq, Repr

/-- Power, pins and boot. -/
structure PowerSt where
  mode : PMode := .on
  railsUp : Bool := true
  /-- SAFE_FLT_N and SAFE_WARN_N are asserted by their causes (R154), and held low by reset or STANDBY (R363) -/
  safeFlt : Bool := false
  safeWarn : Bool := false
  safeHeld : Bool := false
  socPwrEn : Bool := true
  billetPwrEn : Bool := true
  booted : Bool := false
  /-- the next rise of RESET_N is a cold reset (R350) -/
  coldNext : Bool := true
  /-- a brown-out of VDD_SOC that the Cupola has not counted -/
  brownNew : Bool := false
  /-- end of the last completed PFW_N checkpoint, and a warning latched for a restarting Cupola (R328) -/
  lastPfwNs : Option Nat := none
  pfwLatched : Bool := false
  /-- a wake source has been recorded since STANDBY was entered -/
  wakeSeen : Bool := false
  /-- ENTRY of the boot configuration (R229) -/
  entry : Nat := 0
  /-- clock domains lost (R15) -/
  lost : List Domain := []
  sclkLost : Bool := false
  /-- time of the last kick of the Cupola watchdog (R336) -/
  kickNs : Nat := 0
  /-- the billet module: fitted, its serial number and rated endurance, and whether another device has paired it -/
  billetFitted : Bool := false
  billetSerial : Nat := 0
  billetEndurance : Nat := 0
  billetForeign : Bool := false
  /-- the module's binding record names this device (R338) -/
  billetBound : Bool := false
  deriving DecidableEq, Repr

/-- An entry of the event log (R156). -/
structure LogEvent where
  time : Nat
  hour : Nat
  code : Nat
  unit : Nat
  detail : Nat
  deriving DecidableEq, Repr

/-- The live field record (R156), and the copies of it that the checkpoints keep. -/
structure FieldRecord where
  reason : Nat := 0
  seq : Nat := 0
  poh : Nat := 0
  stby : Nat := 0
  time : Nat := 0
  /-- the words from 0040h: OFF-to-ON, ON-to-STANDBY, PFW_N, brown-outs, thermal, watchdog, updates -/
  counts : NMap Nat := []
  /-- per array: key 8 × array + word -/
  arrays : NMap Nat := []
  vecs : NMap Nat := []
  rts : NMap Nat := []
  runner : NMap Nat := []
  corrected : NMap Nat := []
  uncorr : NMap Nat := []
  mirror : NMap Nat := []
  temp : NMap Nat := []
  droop : NMap Nat := []
  links : NMap Nat := []
  doze : NMap Nat := []
  trajDiff : Nat := 0
  spareActs : Nat := 0
  retired : List Nat := []
  spareEvents : List (Nat × Nat × Nat × Nat) := []
  logIdx : Nat := 0
  log : NMap LogEvent := []
  hot : NMap Nat := []
  replacements : Nat := 0
  serial : Nat := 0
  endurance : Nat := 0
  bytes : Nat := 0
  deriving DecidableEq, Repr

/-- Where checkpoints lie. -/
structure RecordStore where
  slot0 : Option FieldRecord := none
  slot1 : Option FieldRecord := none
  nextSlot : Nat := 0
  summary : Option FieldRecord := none
  summaryIdx : Nat := 0
  norCopy : Option FieldRecord := none
  lastPoh : Nat := 0
  /-- snapshot of the hardware counters already folded, by register key -/
  folded : NMap Nat := []
  /-- arrays retired up to the last reset (R141) -/
  retired : List Nat := []
  deriving DecidableEq, Repr

/-- A delivered key (R231): its tenant and the session it came on, its policy, and the digests at its delivery. -/
structure HeldKey where
  tenant : Nat
  session : Nat
  pol : KeyPolicy
  digests : List Nat
  deriving DecidableEq, Repr

/-- Trust state of the Crucible (chapter 10). -/
structure TrustSt where
  keys : List HeldKey := []
  /-- open SPDM sessions: requester and session number; and the next session number -/
  sessions : NMap Nat := []
  nextSession : Nat := 1
  /-- the lifecycle fuses are in the manufacturing state (R228) -/
  manufacturing : Bool := false
  /-- digest slots 0 to 8 of the report -/
  digests : NMap Nat := []
  deviceId : Nat := 0
  ide : NMap Nat := []
  tdiSnap : NMap (List Nat) := []
  jtagOpen : Bool := false
  traceOpen : Bool := false
  deriving DecidableEq, Repr

/-- The JTAG port (R371). -/
inductive Jtag where
  | bypass | sample | extest | idcode | clamp | highz
  deriving DecidableEq, Repr

/-- The trajectory hand-over of R21 and R22. -/
structure TrajSt where
  /-- frame whose trajectory the active device has forwarded and not released -/
  waiting : Option Nat := none
  released : Bool := false
  returned : Bool := false
  discards : Nat := 0
  /-- frame whose active trajectory lies in the shadow's memory -/
  received : Option Nat := none
  /-- the plan published for the frame -/
  own : Option Nat := none
  ownSig : Nat := 0
  receivedSig : Nat := 0
  deriving DecidableEq, Repr

/-- The time counter (R277), the per-master latches of its fraction (R284) and the sync timer (R283). -/
structure ClockSt where
  /-- nanoseconds, fraction in 2^-16 ns, sub-fraction in 2^-40 ns -/
  ns : Nat := 0
  frac : Nat := 0
  sub : Nat := 0
  /-- TIME_NOW_FRAC latch of each master -/
  latch : List (Master × Nat) := []
  /-- time of the last accepted write of TIME_INC -/
  syncNs : Option Nat := none
  deriving DecidableEq, Repr

/-- Memory, the system cache and the coherence home (chapter 09), and the mailbox pages (R330). -/
structure MemSt where
  /-- memory behind physical addresses; an unlisted byte reads as 00h -/
  cells : List Host.Cell := []
  /-- mailbox request and response bytes, at 4096 × channel + offset -/
  mbx : NMap Byte := []
  /-- lines (usable address / 128) that are poisoned: their burst CRCs are stored inverted (R192) -/
  poison : List Nat := []
  /-- keys of the enabled tagged regions (R195) -/
  keys : NMap Nat := []
  /-- bits turned over in stored data bursts and check-line bursts and not yet corrected (R190, R191) -/
  flips : List Flip := []
  chkFlips : List Flip := []
  cache : List CacheLine := []
  holders : List Holder := []
  wbs : List WbEntry := []
  snoops : List Snoop := []
  /-- requests that wait at a home slice behind a snoop of their line, or for a tracker, oldest first (R202, R204) -/
  homeQ : List HomeReq := []
  useClock : Nat := 0
  spareArea : Bool := false
  /-- the channel that RETIRE named, from the set until reset (R205) -/
  retCh : Option Nat := none
  moves : List Move := []
  nextMove : Nat := 0
  /-- guaranteed and ceiling buckets, class-G bytes of the window, depth reached (R184, R186), and the charges of the
  requests that wait at each gate, oldest first -/
  gates : NMap (Nat × Nat × Nat × Bool) := []
  gateQ : NMap (List Nat) := []
  /-- the settings in force (R162): GATE_CFG and GATE_RT as of the last refill, GATE_STAT as of the start of the window;
  an unlisted one is at its reset value -/
  gateCfg : NMap Nat := []
  rtCfg : NMap Nat := []
  winCfg : NMap Nat := []
  deriving DecidableEq, Repr

/-- The dispatcher: sprue scanner, queues, jobs, and the attention tables (chapters 02, 06). -/
structure WorkSt where
  sprue : Sprue := {}
  queues : NMap QueueSt := []
  jobs : List Job := []
  nextJob : Nat := 0
  ctxs : NMap Ctx := []
  refc : NMap Nat := []
  runs : List OpenRun := []
  /-- instances whose attention jobs a sweep holds -/
  sweeping : List Nat := []
  /-- the sequencer's counts of compaction: inputs that are not finite, and rows limited at 448 (R88) -/
  kvNonFinite : Nat := 0
  kvLimited : Nat := 0
  deriving DecidableEq, Repr

/-- Arrays, vector engines, real-time cores, recast pairs, flasks, the pour table and the gates. -/
structure UnitSt where
  arrays : NMap ArraySt := []
  pairs : List Pair := []
  flasks : NMap FlaskSt := []
  rts : NMap RtSt := []
  pour : PourSt := {}
  /-- bytes used in class RT in the current 1 µs period (R185) -/
  rtUsed : NMap Nat := []
  vecs : NMap VecSt := []
  saved : List SavedItem := []
  /-- the test-bar image is being verified; test bars are stopped (R149) -/
  tbVerifying : Bool := false
  tbStopped : Bool := false
  /-- the runner has failed its test bar: it is withdrawn at the next frame boundary, and has been withdrawn (R152) -/
  runnerDue : Bool := false
  runnerOut : Bool := false
  /-- the verification of the test-bar image has failed: no flask can be created (R149) -/
  tbFailed : Bool := false
  /-- the spare arrays since start-up, whether or not they have been mapped in (R19) -/
  spares : List Nat := [32, 33]
  deriving DecidableEq, Repr

/-- The DTU's caches and fault queue (chapter 10). -/
structure DtuSt where
  tlb : List Tlb := []
  faults : List DtuFault := []
  /-- device contexts the DTU has cached, by device -/
  ddtc : NMap (List Nat) := []
  deriving DecidableEq, Repr

/-- Cameras, displays and the runner (chapters 11, 12). -/
structure PixSt where
  cams : NMap CamSt := []
  disps : NMap DispSt := []
  /-- candidates of the last PLAN (log entry 33) -/
  planCount : Nat := 0
  /-- the runner's node cache: instance, 128-byte group of its address, and bytes, newest first (R275) -/
  nodes : List (Nat × Nat × List Byte) := []
  /-- the RUNNER job in progress when the runner sequencer stopped for a restart (R10) -/
  runKept : Option Nat := none
  deriving DecidableEq, Repr

/-- Ethernet, CAN, tunnels, bridges, Weska (chapters 13, 14). -/
structure NetSt where
  gateEngs : NMap GateEng := []
  ethStaged : List EthItem := []
  ethItems : List EthItem := []
  /-- packet numbers and keys of secure associations: 16 × port + channel (R287, R288) -/
  macPns : NMap Nat := []
  macSak : NMap Nat := []
  /-- shapers: 8 × port + class; flow meters; sequence functions; frames that wait at external ports (R287) -/
  shapers : NMap ShaperSt := []
  meters : NMap MeterSt := []
  cbs : NMap CbSt := []
  egress : NMap (List (Nat × List Byte)) := []
  can : NMap CanSt := []
  tunnels : NMap Tunnel := []
  bridge : List BridgeReq := []
  nextTag : Nat := 0
  wsk : NMap WskSt := []
  /-- cells received of unfinished packets: by SRC, channel and whether broadcast (R306) -/
  parts : NMap Nat := []
  /-- sources of time messages, newest first (R316) -/
  timeSrcs : List Nat := []
  traj : TrajSt := {}
  deriving DecidableEq, Repr

/-- Power, firmware, the field record, trust and the JTAG port (chapters 07, 10, 15, 17). -/
structure SysSt where
  power : PowerSt := {}
  fw : NMap FwProc := []
  record : FieldRecord := {}
  store : RecordStore := {}
  trust : TrustSt := {}
  jtag : Jtag := .idcode
  /-- causes of manager interrupts that arose while EN of SYS_IRQCFG was 0b (R359): identity and unit -/
  keptIrqs : List (Nat × Nat) := []
  chain : List Bool := []
  /-- times of the messages of a channel to the Cupola (R337) -/
  mbxTimes : NMap (List Nat) := []
  deriving DecidableEq, Repr

/-- The whole state. -/
structure State where
  /-- commands that wait, first in first out -/
  pending : List Instr
  /-- every register map of the manual, by `Reg.key`; an unlisted register holds its reset value -/
  regs : NMap Word
  /-- what the device has emitted, newest first -/
  outbox : List Out
  clock : ClockSt
  mem : MemSt
  work : WorkSt
  units : UnitSt
  dtu : DtuSt
  pix : PixSt
  net : NetSt
  sys : SysSt
  /-- the model's own counter that numbers free values -/
  freeCtr : Nat
  deriving DecidableEq, Repr

/-- The state right after a cold reset (R350): every register at the Reset column of its map, memory with
nothing listed, the time counter at 0 (R277), queues empty, nothing running. The power mode is ON with the
boot of R329 not yet run; the fields of `power` that the manual does not give are the model's choice. -/
def State.reset : State where
  pending := []
  regs := []
  outbox := []
  clock := {}
  mem := {}
  work := {}
  units := {}
  dtu := {}
  pix := {}
  net := {}
  sys := {}
  freeCtr := 0

end Sys2Proof.Machine
end

