-- ==== Sys2Proof/Machine/Ops.lean ====
section
/-! DEFINITION. The named operations over the state: registers, what leaves the device, interrupts, the
tables of units, and the free values. -/

namespace Sys2Proof.Machine

/-! ## Registers -/

/-- The 64 bits of occurrence `i` of a register map. -/
def State.r (s : State) (g : Reg) (i : Nat) : Nat :=
  ((NMap.find s.regs (g.key i)).getD (g.reset i)).toNat

/-- The register file with occurrence `i` of a map replaced; the file lists no register at its reset value. -/
def putReg (m : NMap Word) (g : Reg) (i : Nat) (w : Word) : NMap Word :=
  if w = g.reset i then NMap.erase m (g.key i) else NMap.insert m (g.key i) w

/-- A register given a new value by hardware. -/
def State.setR (s : State) (g : Reg) (i v : Nat) : State :=
  { s with regs := putReg s.regs g i (BitVec.ofNat 64 v) }

/-- A field of a register. -/
def State.f (s : State) (x : Fld) (i : Nat) : Nat := bits (s.r x.reg i) x.hi x.lo

/-- A one-bit field. -/
def State.fb (s : State) (x : Fld) (i : Nat) : Bool := s.f x i == 1

/-- A field written by hardware; the value is cut to the field's width. -/
def State.setF (s : State) (x : Fld) (i v : Nat) : State :=
  s.setR x.reg i (putBits (s.r x.reg i) x.hi x.lo v)

/-- The largest value of a field. -/
def Fld.top (x : Fld) : Nat := 2 ^ (x.hi + 1 - x.lo) - 1

/-- A saturating counter field (R342). -/
def State.incSat (s : State) (x : Fld) (i n : Nat) : State := s.setF x i (min (s.f x i + n) x.top)

/-- A wrapping counter field (R342). -/
def State.incWrap (s : State) (x : Fld) (i n : Nat) : State := s.setF x i (s.f x i + n)

/-! ## What leaves the device -/

/-- Something leaves the device. -/
def State.emit (s : State) (o : Out) : State := { s with outbox := o :: s.outbox }

/-- R359: an interrupt to the manager; while EN is 0b nothing is sent and the cause is kept. -/
def State.mgrIrq (s : State) (ident unit : Nat) : State :=
  if s.fb SYS_IRQCFG.EN 0 then s.emit (.mgrIrq ident unit)
  else { s with sys.keptIrqs := s.sys.keptIrqs.filter (fun k => k != (ident, unit)) ++ [(ident, unit)] }

/-- The next free number (a value the manual leaves open). -/
def State.fresh (s : State) : Nat × State :=
  (Config.freeNat s.freeCtr, { s with freeCtr := s.freeCtr + 1 })

/-- `n` free bytes. -/
def State.freshBytes (s : State) (n : Nat) : List Byte × State :=
  ((List.range n).map (fun k => Config.freeByte (s.freeCtr + k)), { s with freeCtr := s.freeCtr + n })

/-! ## Tables of units -/

/-- The current time in ns (R277). -/
def State.now (s : State) : Nat := s.clock.ns

/-- Time since a moment, in ns, by the difference of R280; 0 before it. -/
def State.since (s : State) (t : Nat) : Nat := (sint 64 ((s.now + 2 ^ 64 - t % 2 ^ 64) % 2 ^ 64)).toNat

/-- What a physical array holds. -/
def State.arr (s : State) (a : Nat) : ArraySt := NMap.get s.units.arrays {} a

/-- Replace what a physical array holds. -/
def State.setArr (s : State) (a : Nat) (x : ArraySt) : State :=
  { s with units.arrays := NMap.set s.units.arrays {} a x }

/-- Change what a physical array holds. -/
def State.modArr (s : State) (a : Nat) (f : ArraySt → ArraySt) : State := s.setArr a (f (s.arr a))

/-- What a flask holds beside its registers. -/
def State.flask (s : State) (f : Nat) : FlaskSt := NMap.get s.units.flasks {} f

/-- Change what a flask holds. -/
def State.modFlask (s : State) (f : Nat) (g : FlaskSt → FlaskSt) : State :=
  { s with units.flasks := NMap.set s.units.flasks {} f (g (s.flask f)) }

/-- What a vector engine holds. -/
def State.vec (s : State) (e : Nat) : VecSt := NMap.get s.units.vecs {} e

/-- Change what a vector engine holds. -/
def State.modVec (s : State) (e : Nat) (g : VecSt → VecSt) : State :=
  { s with units.vecs := NMap.set s.units.vecs {} e (g (s.vec e)) }

/-- What a real-time core holds. -/
def State.rt (s : State) (c : Nat) : RtSt := NMap.get s.units.rts {} c

/-- Change what a real-time core holds. -/
def State.modRt (s : State) (c : Nat) (g : RtSt → RtSt) : State :=
  { s with units.rts := NMap.set s.units.rts {} c (g (s.rt c)) }

/-- Change the pour-table state. -/
def State.modPour (s : State) (g : PourSt → PourSt) : State :=
  { s with units.pour := g s.units.pour }

/-- What a queue holds beside its registers. -/
def State.q (s : State) (n : Nat) : QueueSt := NMap.get s.work.queues {} n

/-- Change what a queue holds. -/
def State.modQ (s : State) (n : Nat) (g : QueueSt → QueueSt) : State :=
  { s with work.queues := NMap.set s.work.queues {} n (g (s.q n)) }

/-- A job the dispatcher holds. -/
def State.job (s : State) (j : Nat) : Option Job := s.work.jobs.find? (fun x => x.id == j)

/-- Change a job. -/
def State.modJob (s : State) (j : Nat) (g : Job → Job) : State :=
  { s with work.jobs := s.work.jobs.map (fun x => if x.id = j then g x else x) }

/-- Change every job that a test selects. -/
def State.modJobs (s : State) (p : Job → Bool) (g : Job → Job) : State :=
  { s with work.jobs := s.work.jobs.map (fun x => if p x then g x else x) }

/-- A sequence context (R107). -/
def State.ctx (s : State) (c : Nat) : Ctx := NMap.get s.work.ctxs {} c

/-- Replace a sequence context. -/
def State.setCtx (s : State) (c : Nat) (x : Ctx) : State :=
  { s with work.ctxs := NMap.set s.work.ctxs {} c x }

/-- A camera context. -/
def State.cam (s : State) (c : Nat) : CamSt := NMap.get s.pix.cams {} c

/-- Change a camera context. -/
def State.modCam (s : State) (c : Nat) (g : CamSt → CamSt) : State :=
  { s with pix.cams := NMap.set s.pix.cams {} c (g (s.cam c)) }

/-- A display output. -/
def State.disp (s : State) (o : Nat) : DispSt := NMap.get s.pix.disps {} o

/-- Change a display output. -/
def State.modDisp (s : State) (o : Nat) (g : DispSt → DispSt) : State :=
  { s with pix.disps := NMap.set s.pix.disps {} o (g (s.disp o)) }

/-- A CAN controller. -/
def State.canc (s : State) (c : Nat) : CanSt := NMap.get s.net.can {} c

/-- Change a CAN controller. -/
def State.modCan (s : State) (c : Nat) (g : CanSt → CanSt) : State :=
  { s with net.can := NMap.set s.net.can {} c (g (s.canc c)) }

/-- A tunnel. -/
def State.tun (s : State) (t : Nat) : Tunnel := NMap.get s.net.tunnels {} t

/-- Change a tunnel. -/
def State.modTun (s : State) (t : Nat) (g : Tunnel → Tunnel) : State :=
  { s with net.tunnels := NMap.set s.net.tunnels {} t (g (s.tun t)) }

/-- A Weska port. -/
def State.wport (s : State) (p : Nat) : WskSt := NMap.get s.net.wsk {} p

/-- Change a Weska port. -/
def State.modWsk (s : State) (p : Nat) (g : WskSt → WskSt) : State :=
  { s with net.wsk := NMap.set s.net.wsk {} p (g (s.wport p)) }

/-- A firmware processor. -/
def State.fwp (s : State) (p : Nat) : FwProc := NMap.get s.sys.fw {} p

/-- Change a firmware processor. -/
def State.modFw (s : State) (p : Nat) (g : FwProc → FwProc) : State :=
  { s with sys.fw := NMap.set s.sys.fw {} p (g (s.fwp p)) }

/-- Change the live field record. -/
def State.modRec (s : State) (g : FieldRecord → FieldRecord) : State :=
  { s with sys.record := g s.sys.record }

/-- Change power and boot state. -/
def State.modPower (s : State) (g : PowerSt → PowerSt) : State :=
  { s with sys.power := g s.sys.power }

/-- Change trust state. -/
def State.modTrust (s : State) (g : TrustSt → TrustSt) : State :=
  { s with sys.trust := g s.sys.trust }

/-- A saturating 32-bit counter of the field record kept in a map. -/
def satAdd32 (m : NMap Nat) (k n : Nat) : NMap Nat :=
  NMap.set m 0 k (min (NMap.get m 0 k + n) (2 ^ 32 - 1))

/-- A saturating 16-bit counter of the field record kept in a map. -/
def satAdd16 (m : NMap Nat) (k n : Nat) : NMap Nat :=
  NMap.set m 0 k (min (NMap.get m 0 k + n) (2 ^ 16 - 1))

/-- Apply a state change for every element of a list, in order. -/
def State.each {α : Type} (s : State) (xs : List α) (g : State → α → State) : State := xs.foldl g s

/-- Apply a change when a condition holds. -/
def State.whenB (s : State) (c : Bool) (g : State → State) : State := if c then g s else s

/-- R15: a monitor has declared the clock of a domain lost. -/
def State.clockLost (s : State) (d : Domain) : Bool := s.sys.power.lost.contains d

/-! ## Outcomes -/

/-- The outcome type of a meaning. -/
abbrev Res := Host.Outcome State Fault Refusal

/-- A command whose operand names a unit the device has takes its effect; one that names another unit reaches nothing
and changes nothing (DESIGN CHOICE, log entry 2: the manual names no such command). -/
def unit (s : State) (ok : Bool) (t : State) : Res := .next (if ok then t else s)

/-! ## The device's instances and flasks -/

/-- Queue number of queue q of instance i (R358). -/
def queueNo (i q : Nat) : Nat := 64 * i + q

/-- The instance of a queue. -/
def instOf (n : Nat) : Nat := n / 64

/-- The flask of an instance (SYS_INST). -/
def State.instFlask (s : State) (i : Nat) : Nat := s.f SYS_INST.FLASK i

/-- The flask of a queue. -/
def State.queueFlask (s : State) (n : Nat) : Nat := s.instFlask (instOf n)

/-- A flask timed by the pour table (R160). -/
def State.timed (s : State) (f : Nat) : Bool := s.fb SYS_FLCTRL.TIMED f

/-- The queues of an instance. -/
def instQueues (i : Nat) : List Nat := (List.range 64).map (queueNo i)

end Sys2Proof.Machine
end

