-- ==== Sys2Proof/Machine/Flags.lean ====
section
/-! DEFINITION. Status flags: the safety causes of R154 with the event log of R156, and the flagged
accesses of R347. -/

namespace Sys2Proof.Machine

/-! ## The event log (R156) -/

/-- An entry of the event log: a ring of 512 entries. -/
def State.logEvent (s : State) (code unit detail : Nat) : State :=
  s.modRec fun r =>
    { r with
      log := NMap.insert r.log (r.logIdx % 512)
        { time := s.now, hour := r.poh / 3600, code := code, unit := unit, detail := detail }
      logIdx := (r.logIdx + 1) % 2 ^ 32 }

/-- One 32-bit saturating count of the words from 0040h of the field record. -/
def State.recCount (s : State) (k : Nat) : State :=
  s.modRec fun r => { r with counts := satAdd32 r.counts k 1 }

/-! ## Safety causes (R154, R155) -/

/-- The FLT-class causes are bits 15 to 9 of SYS_SAFESTAT, the WARN-class causes bits 8 to 1. -/
def isFlt (x : Fld) : Bool := decide (9 ≤ x.lo)

/-- The event code of a cause (table of R156); none where the list of codes has none. -/
def causeCode (x : Fld) : Option Nat :=
  match x.lo with
  | 6 => some 1
  | 5 => some 2
  | 4 => some 4
  | 13 => some 5
  | 12 => some 5
  | 11 => some 6
  | 10 => some 7
  | 8 => some 7
  | 3 => some 8
  | 15 => some 9
  | 14 => some 9
  | 9 => some 9
  | _ => none

/-- R371: the boundary-scan chain, not the monitors, drives the outputs. -/
def jtagDrives (j : Jtag) : Bool := j == .extest || j == .clamp || j == .highz

/-- A monitor's level of a safety output reaches its pin. -/
def State.safePin (s : State) (name : String) (level : Bool) : State :=
  if jtagDrives s.sys.jtag then s else s.emit (.pin name level)

/-- SAFE_FLT_N is asserted and latched until reset. -/
def State.assertFlt (s : State) : State :=
  if s.sys.power.safeFlt then s
  else (((s.setF SYS_SAFESTAT.FLT 0 1).modPower fun p => { p with safeFlt := true }).safePin
    "SAFE_FLT_N" false).logEvent 9 0 0

/-- SAFE_WARN_N follows the WARN-class cause bits. -/
def State.updateWarn (s : State) : State :=
  let on := decide (bits (s.r .sysSafestat 0) 8 1 ≠ 0)
  let s' := s.setF SYS_SAFESTAT.WARN 0 (b2n on)
  if s.sys.power.safeWarn == on then s'
  else (s'.modPower fun p => { p with safeWarn := on }).safePin "SAFE_WARN_N" (!on)

/-- R154: a cause sets its bit, drives its class's signal, interrupts the manager and the Cupola, and
writes an entry to the event log. -/
def State.safety (s : State) (x : Fld) (unit detail : Nat) : State :=
  let s1 := s.setF x 0 1
  let (code, s2) := match causeCode x with
    | some c => (c, s1)
    | none => s1.fresh
  let s3 := (s2.logEvent code unit detail)
  let s4 := if isFlt x then s3.assertFlt else s3.updateWarn
  (s4.mgrIrq 1 x.lo).emit (.cupolaIrq x.lo)

/-! ## Flagged accesses (R347) -/

/-- The instance that a master acts for: an engine acts for that of its work item, a real-time core for that of its
task. -/
def State.masterInst (s : State) : Master → Option Nat
  | .inst i => some i
  | .vec e => (s.vec e).item.bind fun v => (s.job v.job).map fun x => instOf x.queue
  | .rt c => (s.rt c).task.map fun t => t.2.1
  | .host p v =>
    if s.fb SYS_VFMAP.EN (256 * p + v) then some (s.f SYS_VFMAP.INSTANCE (256 * p + v)) else none
  | _ => none

/-- Partition of a master (R354); Fh where the manual gives none. -/
def State.partOf (s : State) : Master → Nat
  | .manager => 8
  | .core _ => 8
  | .inst i => s.instFlask i
  | .vec e => s.f VEC_STATUS.FLASK e
  | .rt c => (s.rt c).flask.getD 15
  | .host p v => ((s.masterInst (.host p v)).map s.instFlask).getD 15
  | .crucible => 15
  | .cupola => 15
  | .switchCtl => 15

/-- Instance of a master as a flagged access shows it; 0 for partition 8. -/
def State.instShown (s : State) (m : Master) : Nat := (s.masterInst m).getD 0

/-- R347: a flagged access counts and sets its flag; it is captured, and the register-error interrupt
raised, when no flag was set. -/
def State.regFlag (s : State) (x : Fld) (m : Master) (off : Nat) (read db : Bool) : State :=
  let first := decide (bits (s.r .sysRegerr 0) 63 61 = 0)
  let s1 := (s.incSat SYS_REGERR.COUNT 0 1).setF x 0 1
  if first then
    (((((s1.setF SYS_REGERR.PART 0 (s.partOf m)).setF SYS_REGERR.INST 0 (s.instShown m)).setF
      SYS_REGERR.OFFSET 0 off).setF SYS_REGERR.READ 0 (b2n read)).setF
      SYS_REGERR.DOORBELL 0 (b2n db)).mgrIrq 2 0
  else s1

end Sys2Proof.Machine
end

