-- ==== Sys2Proof/Machine/Gates.lean ====
section
/-! DEFINITION. The gates (R183 to R187): the buckets of flasks and of the application cluster, real-time
masters, and the guarantee-missed interrupt. -/

namespace Sys2Proof.Machine

/-- A gate (0 to 8), or as 9 + m a real-time master (0 to 13). -/
def isGate (g : Nat) : Bool := decide (g < 9)
def isRtm (m : Nat) : Bool := decide (m < 14)

/-- Guaranteed bucket, ceiling bucket, class-G bytes of the window, and whether the depth was reached in it. -/
def State.gate (s : State) (g : Nat) : Nat × Nat × Nat × Bool := NMap.get s.mem.gates (0, 0, 0, false) g

/-- Replace the buckets of a gate. -/
def State.setGate (s : State) (g : Nat) (x : Nat × Nat × Nat × Bool) : State :=
  { s with mem.gates := NMap.set s.mem.gates (0, 0, 0, false) g x }

/-- The charges of the requests that wait at a gate, oldest first. -/
def State.gateWait (s : State) (g : Nat) : List Nat := NMap.get s.mem.gateQ [] g

/-- Replace the requests that wait at a gate. -/
def State.setGateWait (s : State) (g : Nat) (x : List Nat) : State :=
  { s with mem.gateQ := NMap.set s.mem.gateQ [] g x }

/-- R162: a field of a gate's setting in force, of a real-time master's, and of the window of a gate. -/
def State.gateF (s : State) (x : Fld) (g : Nat) : Nat := bits (NMap.get s.mem.gateCfg (Reg.resetNat .gateCfg) g) x.hi x.lo
def State.rtF (s : State) (x : Fld) (m : Nat) : Nat := bits (NMap.get s.mem.rtCfg (Reg.resetNat .gateRt) m) x.hi x.lo
def State.winF (s : State) (x : Fld) (g : Nat) : Nat := bits (NMap.get s.mem.winCfg (Reg.resetNat .gateStat) g) x.hi x.lo

/-- R162: the settings as written take effect at a refill, and that of the window at its start. -/
def State.loadGate (s : State) (g : Nat) : State :=
  { s with mem.gateCfg := NMap.set s.mem.gateCfg (Reg.resetNat .gateCfg) g (s.r .gateCfg g) }
def State.loadRt (s : State) (m : Nat) : State :=
  { s with mem.rtCfg := NMap.set s.mem.rtCfg (Reg.resetNat .gateRt) m (s.r .gateRt m) }
def State.loadWin (s : State) (g : Nat) : State :=
  { s with mem.winCfg := NMap.set s.mem.winCfg (Reg.resetNat .gateStat) g (s.r .gateStat g) }

/-- Depth of a gate's buckets in bytes. -/
def State.gateDepth (s : State) (g : Nat) : Nat := s.gateF GATE_CFG.DEPTH g * 64

/-- R184: the ceiling bucket holds a charge, or there is no ceiling. -/
def State.gateHolds (s : State) (g c : Nat) : Bool :=
  s.gateF GATE_CFG.CEIL g == 0xFFFFF || decide (c ≤ (s.gate g).2.1)

/-- R184: a request leaves: in class G when the guaranteed bucket holds its charge too, otherwise in class S. -/
def State.gateLeave (s : State) (g c : Nat) : State :=
  let (gu, ce, by_, hit) := s.gate g
  if c ≤ gu then s.setGate g (gu - c, ce - c, by_ + c, hit) else s.setGate g (gu, ce - c, by_, hit)

/-- R184: a request of a gate, charged its size rounded up to 64 bytes, leaves or waits behind those of its gate. The
device's own requests (ladles, engines, walks, cores, bridges) pass here too: the wait of one is kept in the queue of the
gate, and what the request does to memory is not held back (DESIGN CHOICE, log entry 166: time). -/
def State.gateReq (s : State) (g bytes : Nat) : State :=
  let c := cdiv bytes 64 * 64
  if !isGate g then s
  else if (s.gateWait g).isEmpty && s.gateHolds g c then s.gateLeave g c
  else s.setGateWait g (s.gateWait g ++ [c])

/-- Requests that wait leave in order while the ceiling bucket holds their charge; one held by a gate holds no request of
another. -/
def gateDrain (g : Nat) : List Nat → State → State
  | [], s => s.setGateWait g []
  | c :: cs, s => if s.gateHolds g c then gateDrain g cs (s.gateLeave g c) else s.setGateWait g (c :: cs)

/-- R184: both buckets rise, up to the depth, and requests that waited leave. -/
def State.refillGate (s0 : State) (g : Nat) : State :=
  let s := s0.loadGate g
  let (gu, ce, by_, hit) := s.gate g
  let d := s.gateDepth g
  let gu' := min (gu + s.gateF GATE_CFG.GUAR g) d
  let s1 := s.setGate g (gu', min (ce + s.gateF GATE_CFG.CEIL g) d, by_, hit || gu' == d)
  if (s1.gateWait g).isEmpty then s1 else gateDrain g (s1.gateWait g) s1

/-- R184, R185: at every multiple of 1,000 ns the buckets rise and the real-time masters start a new period. -/
def execGateRefill (s : State) : Res :=
  .next { (s.each (List.range 9) State.refillGate).each (List.range 14) State.loadRt with units.rtUsed := [] }

/-- R185: a real-time master uses class RT until CAP, then class S with CAPPED set. -/
def rtRequest (m bytes : Nat) (s : State) : State :=
  let used := NMap.get s.units.rtUsed 0 m
  let cap := s.rtF GATE_RT.CAP m
  if cap = 0 || used < cap then { s with units.rtUsed := NMap.set s.units.rtUsed 0 m (used + bytes) }
  else s.setF GATE_RT.CAPPED m 1

/-- A real-time master's transfer of `n` bytes is one request for each line of 128. -/
def rtRequests (m n : Nat) (s : State) : State :=
  s.each (List.range (cdiv n 128)) fun s k => rtRequest m (min 128 (n - 128 * k)) s

/-- R183, R184: `t` has come from `s` by accesses of a real-time master: their `n` bytes are charged to the master and to no
gate. -/
def State.rtCharge (t s : State) (m n : Nat) : State :=
  rtRequests m n { t with mem.gates := s.mem.gates, mem.gateQ := s.mem.gateQ }

/-- The real-time masters (R187): display output o, the Ethernet switch, the CAN controllers; camera ports are 0 to 7. -/
def rtOutput (o : Nat) : Nat := 8 + o
def rtEther : Nat := 12
def rtCan : Nat := 13

/-- R184, R185: GATE_REQUEST. -/
def execGateRequest (g bytes : Nat) (s : State) : Res :=
  unit s (decide (g < 23)) (if isGate g then s.gateReq g bytes else rtRequest (g - 9) bytes s)

/-- R186: RT_BOUND_EXCEEDED. -/
def execRtBoundExceeded (m waitedNs : Nat) (s : State) : Res :=
  unit s (isRtm m)
    (if s.rtF GATE_RT.BOUND_NS m < waitedNs then
      ((s.setF GATE_RT.MISS m 1).incSat GATE_RT.MISSED m 1).mgrIrq 5 (9 + m)
    else s)

/-- R186: the class-G service of a window falls short. -/
def State.windowShort (s : State) (g : Nat) : Bool :=
  let (_, _, by_, hit) := s.gate g
  !hit && decide ((by_ : Int) < (s.gateF GATE_CFG.GUAR g * s.winF GATE_STAT.WIN_US g : Nat) - (s.gateDepth g : Int))

/-- R186: the window ends; the next one starts with no bytes counted, under the setting then written (R162). -/
def windowEndGo (g : Nat) (s : State) : State :=
  let s1 := (if s.windowShort g then ((s.setF GATE_STAT.MISS g 1).incSat GATE_STAT.MISSED g 1).mgrIrq 5 g else s).loadWin g
  let (gu, ce, _, _) := s1.gate g
  s1.setGate g (gu, ce, 0, gu == s1.gateDepth g)

/-- R186: GUARANTEE_WINDOW_END. -/
def execGuaranteeWindowEnd (g : Nat) (s : State) : Res := unit s (isGate g) (windowEndGo g s)

end Sys2Proof.Machine
end

