-- ==== Sys2Proof/Machine/Ring.lean ====
section
/-! DEFINITION. Routing of Weska cells (R308 to R313) and the bridge windows (R300, R301): the operations
that other units use to send requests off the device. -/

namespace Sys2Proof.Machine

/-! ## Weska routing -/

/-- A port is in STATE 2h. -/
def State.wskUp (s : State) (p : Nat) : Bool := s.f WSK_PORTSTAT.STATE p == 2

/-- R310: the port a cell for `dest` leaves through: the first enabled entry whose range holds DEST. -/
def State.wskRoute (s : State) (dest : Nat) : Option Nat :=
  match (List.range 64).find? (fun r => s.fb WSK_ROUTE.EN r && decide (s.f WSK_ROUTE.DEST_LO r ≤ dest)
      && decide (dest ≤ s.f WSK_ROUTE.DEST_HI r)) with
  | none => none
  | some r =>
    if s.wskUp (s.f WSK_ROUTE.PRIMARY r) then some (s.f WSK_ROUTE.PRIMARY r)
    else if s.fb WSK_ROUTE.ALT_EN r && s.wskUp (s.f WSK_ROUTE.ALT r) then some (s.f WSK_ROUTE.ALT r)
    else none

/-- The cells a packet fills (R306): a header of 16 bytes and its data, in bodies of 248 bytes; each packet begins a cell
of its own (log entry 179). -/
def packetCells : CellBody → Nat
  | .completion _ _ bs => cdiv (16 + bs.length) 248
  | .posted _ bs => cdiv (16 + bs.length) 248
  | .nonPosted _ _ _ (some bs) => cdiv (16 + bs.length) 248
  | .ether bs => cdiv (16 + bs.length) 248
  | _ => 1

/-- The far-side address of a posted write. -/
def postAddr : CellBody → Option Nat
  | .posted a _ => some a
  | _ => none

/-- The cells of a packet, the last with the packet itself. -/
def cellsOf (c : Cell) : List Cell :=
  List.replicate (packetCells c.body - 1) { c with body := .more (postAddr c.body) } ++ [c]

/-- A locally injected packet waits at a port (R308). -/
def State.wskLocal (s : State) (p : Nat) (c : Cell) : State :=
  s.modWsk p fun w => { w with localQ := w.localQ ++ cellsOf c }

/-- A cell originated by this device for one destination; dropped and counted without a route (R310). -/
def State.wskOriginate (s : State) (dest vc : Nat) (body : CellBody) : State :=
  match s.wskRoute dest with
  | some p => s.wskLocal p { dest := dest, src := s.f WSK_ID.DEV_ID 0, vc := vc, ttl := 63, body := body }
  | none => s.incSat WSK_STAT.NO_ROUTE 0 1

/-- The ports of FLOOD_PORTS. -/
def State.floodPorts (s : State) : List Nat :=
  (List.range 4).filter (fun p => bit (s.f WSK_ID.FLOOD_PORTS 0) p)

/-- R312: a broadcast originates with TTL FLOOD_TTL and leaves through every port of FLOOD_PORTS. -/
def State.wskBroadcast (s : State) (vc : Nat) (body : CellBody) : State :=
  s.each s.floodPorts fun s p => s.wskLocal p
    { dest := 0xFFFF, src := s.f WSK_ID.DEV_ID 0, vc := vc, ttl := s.f WSK_ID.FLOOD_TTL 0, body := body }

/-! ## Bridge windows -/

/-- The enabled window that holds a physical address. -/
def State.winAt (s : State) (pa : Nat) : Option Nat :=
  (List.range 32).find? fun n => s.fb SYS_BRWIN1.EN n && decide (s.f SYS_BRWIN0.BASE n ≤ pa / 2 ^ 20)
    && decide (pa / 2 ^ 20 ≤ s.f SYS_BRWIN1.LIMIT n)

/-- R300: the window a request of a partition may use. -/
def State.winFor (s : State) (part pa : Nat) : Option Nat :=
  match s.winAt pa with
  | some n => if s.f SYS_BRWIN0.OWNER n = part then some n else none
  | none => none

/-- R300: the far-side address of a request. -/
def State.farAddr (s : State) (n pa : Nat) : Nat :=
  s.f SYS_BRWIN2.REMOTE_BASE n * 2 ^ 20 + (pa - s.f SYS_BRWIN0.BASE n * 2 ^ 20)

/-- R15: the crossing into the links is closed: the recovered clocks of the PCIe and Weska ports, or FCLK, are lost. -/
def State.farClosed (s : State) : Bool := s.clockLost .recovered || s.clockLost .fclk

/-- Number of virtual function v of port p among the occurrences of SYS_VFMAP. -/
def vfNo (p v : Nat) : Nat := 256 * p + v

/-- The instance that a virtual function is bound to (R225). -/
def State.boundTo (s : State) (p vf : Nat) : Option Nat :=
  if s.fb SYS_VFMAP.EN (vfNo p vf) then some (s.f SYS_VFMAP.INSTANCE (vfNo p vf)) else none

/-- R225, R227: what a request of an instance carries on a PCIe port: the number of the virtual function there that is
bound to it, and the T bit of a TDI in RUN. -/
def State.requesterId (s : State) (p : Nat) (who : Option Nat) : Option (Nat × Bool) :=
  who.bind fun i => ((List.range 256).find? fun v => s.boundTo p v == some i).map fun v => (v, s.f SYS_INST.TDI i == 3)

/-- R227: ERROR stops an instance's requests to the host: those into a window of a PCIe port. -/
def State.hostStopped (s : State) (n : Nat) (who : Option Nat) : Bool :=
  decide (s.f SYS_BRWIN1.TARGET n < 2) && who.any fun i => s.f SYS_INST.TDI i == 4

/-- A request leaves through a window: TARGET 00b and 01b are PCIe ports, 10b is Weska. `np` requests
carry a tag on Weska; `who` is the instance of the request, where it has one. -/
def State.farSend (s : State) (n pa : Nat) (data : Option (List Byte)) (bytes : Nat) (np : Bool)
    (tag : Nat) (who : Option Nat := none) : State :=
  let far := s.farAddr n pa
  match s.f SYS_BRWIN1.TARGET n with
  | 2 =>
    let dest := s.f SYS_BRWIN1.DEV_ID n
    match data, np with
    | some bs, false => s.wskOriginate dest 2 (.posted far bs)
    | d, _ => s.wskOriginate dest 3 (.nonPosted far tag bytes d)
  | p =>
    match data, np with
    | some bs, true => (s.emit (.pcie p far (some bs) bytes (s.requesterId p who))).emit
      (.pcie p (far / 4096 * 4096) none 0 (s.requesterId p who))
    | d, _ => s.emit (.pcie p far d bytes (s.requesterId p who))

end Sys2Proof.Machine
end

