-- ==== Sys2Proof/Machine/Memory.lean ====
section
/-! DEFINITION. The physical address map (R351, R352), channels and blocks (R188, R189), inline ECC (R190 to R192),
regions (R194, R195, R205), the system cache (R199, R200), tags (R195, R196), and the one path by which any unit reads
and writes memory. -/

namespace Sys2Proof.Machine

/-! ## The address map -/

/-- Start of the DRAM window (R352). -/
def dramBase : Nat := 0x1_0000_0000

/-- Capacity per channel in GB (MEM_CTRL). -/
def chCapGb : Nat → Nat
  | 0 => 4
  | 1 => 6
  | 2 => 8
  | 3 => 12
  | _ => 16

/-- R189: 7/8 of the capacity of eight channels is usable. -/
def State.usable (s : State) : Nat := chCapGb (s.f MEM_CTRL.CH_CAP 0) * 7 * 2 ^ 30

/-- What lies at a physical address (R351). -/
inductive Place where
  | dram (u : Nat) | nor (o : Nat) | reg (o : Nat) | doorbell (o : Nat) | cmdWin (o : Nat) | window | hole
  deriving DecidableEq, Repr

/-- R351: the place of a physical address; DRAM answers once READY says that memory is usable. -/
def State.place (s : State) (pa : Nat) : Place :=
  if pa < 0x1000_0000 then .nor pa
  else if pa < 0x2000_0000 then .reg (pa - 0x1000_0000)
  else if pa < 0x2010_0000 then .doorbell (pa - 0x2000_0000)
  else if pa < 0x2100_0000 then .hole
  else if pa < 0x2200_0000 then .cmdWin (pa - 0x2100_0000)
  else if pa < dramBase then .hole
  else if pa < dramBase + s.usable then
    if s.fb MEM_CTRL.READY 0 then .dram (pa - dramBase) else .hole
  else if pa < 0x20_0000_0000 then .hole
  else if pa < 0x80_0000_0000 then .window
  else .hole

/-! ## Regions -/

/-- The enabled region that holds a usable address. -/
def State.regionOf (s : State) (u : Nat) : Option Nat :=
  (List.range 32).find? fun n => s.fb MEM_RGN1.EN n && decide (s.f MEM_RGN0.BASE n ≤ u / 2 ^ 21)
    && decide (u / 2 ^ 21 ≤ s.f MEM_RGN1.LIMIT n)

/-- Bytes of a region. -/
def State.regionBytes (s : State) (n : Nat) : Nat :=
  (s.f MEM_RGN1.LIMIT n + 1 - s.f MEM_RGN0.BASE n) * 2 ^ 21

/-- The spare area of R205 holds a usable address. -/
def State.inSpare (s : State) (u : Nat) : Bool :=
  s.mem.spareArea && decide (s.f MEM_SPARE.SPARE_BASE 0 * 2 ^ 22 ≤ u)
    && decide (u < s.f MEM_SPARE.SPARE_BASE 0 * 2 ^ 22 + s.usable / 8)

/-- R194, R195, R205: addresses no master reaches: the upper half of a mirrored region, a tag carve-out,
the spare area. -/
def State.carved (s : State) (u : Nat) : Bool :=
  s.inSpare u ||
  match s.regionOf u with
  | none => false
  | some n =>
    let o := u - s.f MEM_RGN0.BASE n * 2 ^ 21
    let b := s.regionBytes n
    (s.fb MEM_RGN1.TAG n && decide (b - b / 16 ≤ o)) || (s.fb MEM_RGN1.MIRROR n && decide (b / 2 ≤ o))

/-- The line of a usable address lies in a tagged region. -/
def State.taggedAt (s : State) (u : Nat) : Bool :=
  match s.regionOf u with
  | none => false
  | some n => s.fb MEM_RGN1.TAG n

/-! ## Bytes -/

/-- The canonical list of cells with one byte written; an unlisted byte reads as 00h. -/
def putByte (m : List Host.Cell) (a : Nat) (b : Byte) : List Host.Cell := NMap.set m 0 a b

/-- The canonical form of a memory: addresses strictly rising, and no byte listed that reads as an unlisted one. -/
def Memory.wf (m : List Host.Cell) : Bool := NMap.wf 0 m

/-- Bytes written at consecutive addresses. -/
def putBytes (m : List Host.Cell) (a : Nat) : List Byte → List Host.Cell
  | [] => m
  | b :: bs => putBytes (putByte m a b) (a + 1) bs

/-- The byte at a physical address. -/
def State.byte (s : State) (a : Nat) : Byte := NMap.get s.mem.cells 0 a

/-- `n` bytes from a physical address. -/
def State.bytes (s : State) (a : Nat) : Nat → List Byte
  | 0 => []
  | n + 1 => s.byte a :: s.bytes (a + 1) n

/-- Store bytes at a physical address. -/
def State.store (s : State) (a : Nat) (bs : List Byte) : State :=
  { s with mem.cells := putBytes s.mem.cells a bs }

/-! ## Channels and blocks (R188, R189) -/

/-- R189: the channel of a usable address. -/
def chanOf (u : Nat) : Nat := Nat.xor (Nat.xor (bits u 14 12) (bits u 23 21)) (bits u 32 30)

/-- The number of a line among the lines of its channel, in ascending address order. -/
def chanLine (l : Nat) : Nat := 32 * (l / 256) + l % 32

/-- The data line of its block that a line is (log entry 45). -/
def dataLine (l : Nat) : Nat := chanLine l % 7

/-- The block of a line: 8 × its number on the channel + channel (log entry 45). -/
def blockOf (l : Nat) : Nat := 8 * (chanLine l / 7) + chanOf (128 * l)

/-- The line with a number on a channel. -/
def lineOn (ch k : Nat) : Option Nat :=
  ((List.range 8).map fun g => 256 * (k / 32) + 32 * g + k % 32).find? fun l => chanOf (128 * l) == ch

/-- Data line j of a block. -/
def blockLine (b j : Nat) : Option Nat := lineOn (b % 8) (7 * (b / 8) + j)

/-- R188: subchannel s carries bytes 8t + 2s and 8t + 2s + 1 of a line, for t from 0 to 15: the line's burst on s. -/
def burstOf (line : List Byte) (sub : Nat) : List Byte :=
  (List.range 16).flatMap fun t => [line.getD (8 * t + 2 * sub) 0, line.getD (8 * t + 2 * sub + 1) 0]

/-- The line whose four bursts are given. -/
def lineOf (bursts : List (List Byte)) : List Byte :=
  (List.range 16).flatMap fun t => (List.range 4).flatMap fun s =>
    [(bursts.getD s []).getD (2 * t) 0, (bursts.getD s []).getD (2 * t + 1) 0]

/-- Bytes with the bits of a mask turned over. -/
def flipBytes (bs : List Byte) (mask : Nat) : List Byte := (bs.zip (toLE bs.length mask)).map fun p => p.1 ^^^ p.2

/-- The bytes of a line in memory. -/
def State.lineBytes (s : State) (l : Nat) : List Byte := s.bytes (128 * l + dramBase) 128

/-! ## Inline ECC (R190 to R192) -/

/-- The parity group of a data line: A for lines 0 to 3, B for 4 to 6. -/
def sameGroup (i j : Nat) : Bool := decide (i < 4) == decide (j < 4)

/-- The 16 or 12 bursts of a parity group, over the data lines from `lo` up to `hi`. -/
def State.groupParity (s : State) (b lo hi : Nat) : List Byte :=
  let bursts := ((List.range 7).filter fun j => lo ≤ j && j < hi).flatMap fun j =>
    match blockLine b j with
    | some l => (List.range 4).map fun k => burstOf (s.lineBytes l) k
    | none => []
  bursts.foldl (fun acc x => (acc.zip x).map fun p => p.1 ^^^ p.2) (List.replicate 32 0)

/-- R190, R192: the CRC-16 of burst s of data line j of a block as its check line holds it: inverted in a poisoned
line. -/
def State.burstCrc (s : State) (b j sub : Nat) : Nat :=
  match blockLine b j with
  | some l => if s.mem.poison.contains l then Nat.xor (crc16 (burstOf (s.lineBytes l) sub)) 0xFFFF
      else crc16 (burstOf (s.lineBytes l) sub)
  | none => 0

/-- The 120 bytes of a check line before its own CRCs. -/
def State.checkBody (s : State) (b : Nat) : List Byte :=
  ((List.range 7).flatMap fun j => (List.range 4).flatMap fun k => toLE 2 (s.burstCrc b j k))
    ++ s.groupParity b 0 4 ++ s.groupParity b 4 7

/-- R190: the check line of a block: 28 burst CRCs, parity A, parity B, and the CRC of the other 30 bytes of each of its
bursts. -/
def State.checkLine (s : State) (b : Nat) : List Byte :=
  let body := s.checkBody b
  body ++ (List.range 4).flatMap fun k => toLE 2 (crc16 ((burstOf body k).take 30))

/-- R190: a stored data burst with bits turned over fails its CRC. -/
def State.burstFails (s : State) (f : Flip) : Bool :=
  let b := burstOf (s.lineBytes f.line) f.sub
  crc16 (flipBytes b f.mask) != crc16 b

/-- R190: a stored check-line burst with bits turned over fails its own CRC. -/
def State.checkFails (s : State) (f : Flip) : Bool :=
  let b := flipBytes (burstOf (s.checkLine f.line) f.sub) f.mask
  crc16 (b.take 30) != leAt b 30 2

/-- What the memory devices have turned over in the block of a line joins the state; `copy` takes the lists of the mirror
copy's block. -/
def State.addFlips (s : State) (l : Nat) (data : List (Nat × Nat × Nat)) (check : List (Nat × Nat)) : State :=
  let b := blockOf l
  { s with
    mem.flips := s.mem.flips ++ data.filterMap fun e => (blockLine b e.1).map fun k => { line := k, sub := e.2.1, mask := e.2.2 }
    mem.chkFlips := s.mem.chkFlips ++ check.map fun e => { line := b, sub := e.1, mask := e.2 } }

/-- R205: the number of 4 KB granules of a channel. -/
def State.granules (s : State) : Nat := s.usable / 32768

/-- R205: a granule of the channel that is being or has been retired has been redirected. -/
def State.redirected (s : State) (ch u : Nat) : Bool :=
  s.mem.retCh == some ch && !s.inSpare u
    && (s.fb MEM_CTRL.RETIRED 0
      || s.mem.moves.any fun m => m.kind == .retire ch && decide (4096 * (u / 32768) < m.done))

/-- R205: the channel that serves an address; where a retired channel's granule went is free (log entry 44). -/
def State.chanFor (s : State) (u : Nat) : Nat :=
  let c := chanOf u
  if s.redirected c u then
    let k := Config.freeNat (2 ^ 64 + u / 4096) % 7
    if k < c then k else k + 1
  else c

/-- A correction counts in its channel and, by subchannel and bank, in the field record; the bank is free (log entry
45). -/
def State.countCorrected (s : State) (ch sub : Nat) : State :=
  let (v, s1) := (s.incWrap MEM_CHSTAT.CORRECTED ch 1).fresh
  s1.modRec fun r => { r with corrected := satAdd32 r.corrected ((ch * 4 + sub) * 16 + v % 16) 1 }

/-- R192: an uncorrectable line counts in its channel and sets MEM_UE. -/
def State.countUncorr (s : State) (ch sub : Nat) : State :=
  ((s.incSat MEM_CHSTAT.UNCORR ch 1).modRec fun r => { r with uncorr := satAdd16 r.uncorr (ch * 4 + sub) 1 }).safety
    SYS_SAFESTAT.MEM_UE ch 0

/-- The failing bursts of a block: of its data lines, and of its check line. -/
def State.failing (s : State) (b : Nat) : List Flip × List Flip :=
  (s.mem.flips.filter fun f => blockOf f.line == b && s.burstFails f, s.mem.chkFlips.filter fun f => f.line == b && s.checkFails f)

/-- The four bursts of a line as the controller ends up with them: a failing burst is rebuilt from the parity and the
group's other bursts, which carries over the undetected errors of those, and an undetected error stays. -/
def State.readBursts (s : State) (l : Nat) (bad : List Flip) : List (List Byte) :=
  let quiet := s.mem.flips.filter fun f => blockOf f.line == blockOf l && !s.burstFails f
    && sameGroup (dataLine f.line) (dataLine l)
  let all := quiet.foldl (fun m f => Nat.xor m f.mask) 0
  (List.range 4).map fun k =>
    let b := burstOf (s.lineBytes l) k
    if bad.any fun f => f.line == l && f.sub == k then flipBytes b all
    else flipBytes b ((quiet.filter fun f => f.line == l && f.sub == k).foldl (fun m f => Nat.xor m f.mask) 0)

/-- Corrections of a block are made: the errors of line l, and of the check line, are no longer stored. -/
def State.mended (s : State) (l : Nat) : State :=
  { s with mem.flips := s.mem.flips.filter fun f => f.line != l
           mem.chkFlips := s.mem.chkFlips.filter fun f => f.line != blockOf l }

/-- Nothing is turned over in the block of a line. -/
def State.intact (s : State) (l : Nat) : Bool :=
  !((s.mem.flips.any fun f => blockOf f.line == blockOf l) || s.mem.chkFlips.any fun f => f.line == blockOf l)

/-- R190, R191: a controller reads a line: its bytes after correction, or none when two bursts of its parity group fail
or a check-line burst fails with a burst of the line, since parity bytes lie on every check-line burst. -/
def State.eccRead (s : State) (l : Nat) : Option (List Byte) × State :=
  if s.intact l then (some (s.lineBytes l), s)
  else
    let ch := s.chanFor (128 * l)
    let (bad, chk) := s.failing (blockOf l)
    let mine := bad.filter fun f => f.line == l
    if !mine.isEmpty && (!chk.isEmpty || decide (1 < (bad.filter fun f => sameGroup (dataLine f.line) (dataLine l)).length)) then
      (none, s.countUncorr ch ((mine.map fun f => f.sub).foldl min 3))
    else
      let s1 := (mine ++ chk).foldl (fun s f => s.countCorrected ch f.sub) s
      (some (lineOf (s.readBursts l bad)), s1.mended l)

/-! ## Mirroring (R194) -/

/-- R194: the line of the other copy of a line of a mirrored region: from the lower half the copy at p + S with bits
[14:12] exclusive-ORed with d, from the upper half the line whose copy it is. -/
def State.copyLine? (s : State) (l : Nat) : Option Nat :=
  match s.regionOf (128 * l) with
  | none => none
  | some n =>
    if !s.fb MEM_RGN1.MIRROR n then none
    else
      let half := s.regionBytes n / 2
      let u := 128 * l
      let low := decide (u - s.f MEM_RGN0.BASE n * 2 ^ 21 < half)
      let o := if low then u + half else u - half
      let d := Nat.xor (Nat.xor (chanOf u) (chanOf o)) 4
      some (putBits o 14 12 (Nat.xor (bits o 14 12) d) / 128)

/-- The line lies in the lower half of a mirrored region. -/
def State.mirrored (s : State) (l : Nat) : Bool :=
  match s.regionOf (128 * l) with
  | some n => s.fb MEM_RGN1.MIRROR n && decide (128 * l - s.f MEM_RGN0.BASE n * 2 ^ 21 < s.regionBytes n / 2)
  | none => false

/-! ## Tags (R195, R196) -/

/-- R195: the address of the tag of a line of a region: byte 8q of the carve-out, its top 1/16. -/
def State.tagAddr (s : State) (n l : Nat) : Nat :=
  let base := s.f MEM_RGN0.BASE n * 2 ^ 21
  let b := s.regionBytes n
  base + (b - b / 16) + 8 * ((128 * l - base) / 128)

/-- R195: the tag of line data: a keyed function of the data, its address p[47:7] and the region's key. -/
def State.tagOf (s : State) (n l : Nat) (bs : List Byte) : List Byte :=
  toLE 8 (Config.lineTag (NMap.get s.mem.keys 0 n) (l % 2 ^ 41) bs)

/-- The region whose tags cover a line. -/
def State.tagRegion (s : State) (l : Nat) : Option Nat :=
  match s.regionOf (128 * l) with
  | some n => if s.fb MEM_RGN1.TAG n then some n else none
  | none => none

/-- R196: line data verifies against the tag that memory holds. -/
def State.tagGood (s : State) (l : Nat) (bs : List Byte) : Bool :=
  match s.tagRegion l with
  | some n => s.bytes (s.tagAddr n l + dramBase) 8 == s.tagOf n l bs
  | none => true

/-! ## Lines in memory -/

/-- Poison a line (R192). -/
def State.poisonLine (s : State) (l : Nat) : State := { s with mem.poison := insNat s.mem.poison l }

/-- A line in memory holds fresh data and CRCs: nothing is turned over in it, and it is not poisoned. -/
def State.freshLine (s : State) (l : Nat) : State :=
  { s with mem.poison := delNat s.mem.poison l
           mem.flips := s.mem.flips.filter fun f => f.line != l
           mem.chkFlips := s.mem.chkFlips.filter fun f => f.line != blockOf l }

/-- A whole line is stored in memory with fresh CRCs and parity, its tag, and its mirror copy (R190, R193, R194, R196). -/
def State.lineStored (s : State) (l : Nat) : State :=
  let s1 := s.freshLine l
  match s1.tagRegion l with
  | some n => s1.store (s1.tagAddr n l + dramBase) (s1.tagOf n l (s1.lineBytes l))
  | none =>
    match s1.copyLine? l with
    | some c => (s1.store (128 * c + dramBase) (s1.lineBytes l)).freshLine c
    | none => s1

/-- R196: a line does not verify: it is poisoned, and the integrity interrupt names its partition. -/
def State.integrityFail (s : State) (l part : Nat) : State :=
  let p := match s.regionOf (128 * l) with
    | some n => s.f MEM_RGN1.OWNER n
    | none => part
  (s.poisonLine l).mgrIrq 4 p

/-- R191, R192, R194: a line is read from memory: the bytes the controller ends up with, which memory then holds. An
uncorrectable line of a mirrored region is served from its other copy and rewritten from it, and poisoned when that is
uncorrectable too; outside a mirrored region it is poisoned at once. -/
def State.dramLine (s : State) (l : Nat) : Option (List Byte) × State :=
  match s.eccRead l with
  | (some bs, s1) => (some bs, if s.intact l then s1 else s1.store (128 * l + dramBase) bs)
  | (none, s1) =>
    match s1.copyLine? l with
    | none => (none, s1.poisonLine l)
    | some c =>
      match (if s1.mem.poison.contains c then (none, s1) else s1.eccRead c) with
      | (none, s2) => (none, s2.poisonLine l)
      | (some bs, s2) =>
        let ch := s2.chanFor (128 * l)
        let sub := ((s2.mem.flips.filter fun f => f.line == l).map fun f => f.sub).foldl min 3
        (some bs, ((s2.modRec fun r => { r with mirror := satAdd16 r.mirror (ch * 4 + sub) 1 }).store
          (128 * l + dramBase) bs).freshLine l)

/-- How the fetch of a line ends: its data may be used, it is poisoned or uncorrectable, or it does not verify (the
integrity interrupt has then been raised). -/
inductive Fetch where
  | good | bad | unverified
  deriving DecidableEq, Repr

/-- R192, R196: a line that is not in the system cache is fetched. -/
def State.fetchLine (s : State) (part l : Nat) : Fetch × State :=
  if s.mem.poison.contains l then (.bad, s)
  else
    match s.dramLine l with
    | (none, s1) => (.bad, s1)
    | (some bs, s1) => if s1.tagGood l bs then (.good, s1) else (.unverified, s1.integrityFail l part)

/-! ## The system cache -/

/-- R199: slice and set of a physical address. -/
def sliceSet (pa : Nat) : Nat :=
  let slice := Nat.xor (Nat.xor (bits pa 11 7) (bits pa 21 17)) (Nat.xor (bits pa 31 27) (bits pa 41 37))
  slice * 1024 + bits pa 21 12

/-- Slice and set of a line, by its usable line number. -/
def lineSet (l : Nat) : Nat := sliceSet (128 * l + dramBase)

/-- A line is present in the system cache. -/
def State.cached (s : State) (l : Nat) : Bool := s.mem.cache.any (fun c => c.line == l)

/-- OCC of every partition: lines held in the partition's ways. -/
def State.updateOcc (s : State) : State :=
  s.each (List.range 9) fun s p =>
    s.setF MEM_CWAYS.OCC p
      (s.mem.cache.filter (fun c => bit (s.f MEM_CWAYS.WAYS p) c.way)).length

/-- Remove a line from the cache; a dirty line is written to memory whole (R197). -/
def State.evict (s : State) (l : Nat) : State :=
  match s.mem.cache.find? (fun c => c.line == l) with
  | none => s
  | some c =>
    let s1 := { s with mem.cache := s.mem.cache.filter (fun c => c.line != l) }
    if c.dirty then s1.lineStored l else s1

/-- The way a miss takes: a free way of the partition's mask, else the least recently used of them. -/
def State.victim (s : State) (part l : Nat) : Option (Nat × Option Nat) :=
  let ways := (List.range 16).filter (fun w => bit (s.f MEM_CWAYS.WAYS part) w)
  let here := s.mem.cache.filter (fun c => lineSet c.line == lineSet l && ways.contains c.way)
  match ways.find? (fun w => !here.any (fun c => c.way == w)) with
  | some w => some (w, none)
  | none =>
    match here with
    | [] => none
    | c :: cs =>
      let v := cs.foldl (fun a b => if b.used < a.used then b else a) c
      some (v.way, some v.line)

/-- R200: an access of a partition touches a line: a hit updates it, a miss allocates in the partition's
ways, and with an empty mask a written line goes to memory. -/
def State.touch (s : State) (part l : Nat) (dirty : Bool) : State :=
  let clk := s.mem.useClock
  let s0 := { s with mem.useClock := clk + 1 }
  if s.cached l then
    { s0 with mem.cache := s0.mem.cache.map fun c =>
        if c.line = l then { c with dirty := c.dirty || dirty, used := clk } else c }
  else
    match s.victim part l with
    | none => if dirty then s0.lineStored l else s0
    | some (w, old) =>
      let s1 := match old with
        | some o => s0.evict o
        | none => s0
      ({ s1 with mem.cache :=
          { line := l, way := w, dirty := dirty, used := clk } :: s1.mem.cache }).updateOcc

/-! ## Coherence -/

/-- R202: a write by an I/O-coherent master invalidates every cached copy of the line. -/
def State.dropHolders (s : State) (l : Nat) : State :=
  { s with mem.holders := s.mem.holders.filter (fun h => h.line != l) }

/-- R202: a read by an I/O-coherent master snoops a holder of the line in M or E, which keeps it in S. -/
def State.shareLine (s : State) (l : Nat) : State :=
  if s.mem.holders.any fun h => h.line == l && h.st != .s then
    { s with mem.holders := s.mem.holders.map fun h => if h.line = l then { h with st := .s } else h }
  else s

/-! ## Trackers (R204) -/

/-- Trackers that a channel holds: one for each request that waits at a home slice for a snoop (log entry 185). -/
def State.trackers (s : State) (ch : Nat) : Nat := (s.mem.snoops.filter fun q => s.chanFor (128 * q.line) == ch).length

/-- Trackers of the shared pool that a channel holds. -/
def State.borrowed (s : State) (ch : Nat) : Nat := s.trackers ch - 1536

/-- R204: the channel has a tracker for one more transaction: one of its 1,536, or one of the pool of 4,096 within
BORROW_MAX. -/
def State.trackerFree (s : State) (ch : Nat) : Bool :=
  decide (s.trackers ch < 1536)
    || (decide (s.borrowed ch < s.f MEM_CTRL.BORROW_MAX 0) && decide (((List.range 8).map s.borrowed).sum < 4096))

/-! ## Accesses -/

/-- How an access of a unit ends: data (empty for a write), a refused translation or address, a line that is
poisoned or does not verify, or an error completion of a crossing into a lost clock domain (R15). -/
inductive MRes where
  | ok (bs : List Byte) | xlate | integ | clock
  deriving DecidableEq, Repr

/-- A read within one line of DRAM by a unit of a partition, which is I/O-coherent. -/
def State.dramGet (s : State) (part pa n l : Nat) : MRes × State :=
  if s.cached l then (.ok (s.bytes pa n), s.touch part l false)
  else if s.clockLost .mclk then (.clock, s)
  else
    match s.fetchLine part l with
    | (.good, s1) => (.ok (s1.bytes pa n), s1.touch part l false)
    | (_, s1) => (.integ, s1)

/-- A write within one line of DRAM by a unit of a partition (R193, R197). -/
def State.dramPut (s : State) (part pa : Nat) (bs : List Byte) (l : Nat) : MRes × State :=
  let ok (s : State) : MRes × State := (.ok [], ((s.dropHolders l).store pa bs).touch part l true)
  if s.cached l || (bs.length == 128 && pa % 128 == 0) then ok s
  else if s.clockLost .mclk then (.clock, s)
  else
    match s.fetchLine part l with
    | (.good, s1) => ok s1
    | (.bad, s1) => (.integ, s1.integrityFail l part)
    | (.unverified, s1) => (.integ, s1)

/-- A read within one line at a physical address, by a unit of a partition; it passes the partition's gate (R184). -/
def lineRead (s : State) (part pa n : Nat) (who : Option Nat := none) : MRes × State :=
  match s.place pa with
  | .dram u =>
    if s.clockLost .fclk then (.clock, s)
    else if s.carved u then (.xlate, s)
    else ((s.gateReq part n).shareLine (u / 128)).dramGet part pa n (u / 128)
  | .window =>
    match s.winFor part pa with
    | some w =>
      if s.hostStopped w who then (.xlate, s)
      else if s.farClosed then (.clock, s) else
      let (bs, s1) := ((s.gateReq part n).farSend w pa none n true s.net.nextTag who).freshBytes n
      (.ok bs, { s1 with net.nextTag := s1.net.nextTag + 1 })
    | none => (.xlate, s)
  | _ => (.xlate, s)

/-- A write within one line at a physical address, by a unit of a partition; it passes the partition's gate (R184). -/
def lineWrite (s : State) (part pa : Nat) (bs : List Byte) (who : Option Nat := none) : MRes × State :=
  match s.place pa with
  | .dram u =>
    if s.clockLost .fclk then (.clock, s)
    else if s.carved u then (.xlate, s)
    else (s.gateReq part bs.length).dramPut part pa bs (u / 128)
  | .window =>
    match s.winFor part pa with
    | some w =>
      if s.hostStopped w who then (.xlate, s)
      else if s.farClosed then (.clock, s) else
      (.ok [],
        (s.gateReq part bs.length).farSend w pa (some bs) bs.length (s.fb SYS_BRWIN1.NP_WRITE w) s.net.nextTag who)
    | none => (.xlate, s)
  | _ => (.xlate, s)

/-- A range cut at line boundaries: (address, length) pieces; `fuel` bounds their number. -/
def lineChunks : Nat → Nat → Nat → List (Nat × Nat)
  | 0, _, _ => []
  | fuel + 1, a, n =>
    if n = 0 then []
    else
      let k := min n (128 - a % 128)
      (a, k) :: lineChunks fuel (a + k) (n - k)

/-- The pieces of a range. -/
def chunksOf (a n : Nat) : List (Nat × Nat) := lineChunks (n / 128 + 2) a n

/-- Read the pieces of a physical range in order; the first error ends the read. -/
def physReadL (part : Nat) : List (Nat × Nat) → State → MRes × State
  | [], s => (.ok [], s)
  | (a, n) :: cs, s =>
    match lineRead s part a n with
    | (.ok bs, s1) =>
      match physReadL part cs s1 with
      | (.ok bs', s2) => (.ok (bs ++ bs'), s2)
      | r => r
    | r => r

/-- Read a physical range. -/
def physRead (s : State) (part a n : Nat) : MRes × State := physReadL part (chunksOf a n) s

/-- Write the pieces of a physical range in order; the first error ends the write. -/
def physWriteL (part : Nat) : List (Nat × Nat) → List Byte → State → MRes × State
  | [], _, s => (.ok [], s)
  | (a, n) :: cs, bs, s =>
    match lineWrite s part a (bs.take n) with
    | (.ok _, s1) => physWriteL part cs (bs.drop n) s1
    | r => r

/-- Write a physical range. -/
def physWrite (s : State) (part a : Nat) (bs : List Byte) : MRes × State :=
  physWriteL part (chunksOf a bs.length) bs s

end Sys2Proof.Machine
end

