-- ==== Sys2Proof/Machine/Dtu.lean ====
section
/-! DEFINITION. The device translation unit (R211 to R214, R221, R222): device contexts, the two-stage walk
of the RISC-V IOMMU specification 1.0 with the manual's options, cached translations, the check of output
addresses, dirty logging, the fault queue, and the reads and writes an instance's masters make. The formats
of the in-memory structures are those of that specification (PRESUMED, log entry 7). -/

namespace Sys2Proof.Machine

/-! ## Fault causes -/

/-- Why a translation is refused: the CAUSE of the fault record, and its iotval2 (PRESUMED, log entry 7). -/
structure XFault where
  cause : Nat
  val2 : Nat := 0
  deriving DecidableEq, Repr

/-- A result of a walk, or why it is refused. -/
abbrev XRes (α : Type) := Except XFault α × State

/-- Access faults of a read and a write, page faults, and guest-page faults. -/
def accessCause (write : Bool) : Nat := if write then 7 else 5
def pageCause (write : Bool) : Nat := if write then 15 else 13
def guestCause (write : Bool) : Nat := if write then 23 else 21

/-! ## Device contexts -/

/-- The eight words of a device context; absent when the directory refuses the device. -/
abbrev DevCtx := List Nat

/-- Read 8 bytes of a physical address for a walk. -/
def walkRead (s : State) (part pa : Nat) : Option Nat × State :=
  match physRead s part pa 8 with
  | (.ok bs, s1) => (some (leNat bs), s1)
  | (_, s1) => (none, s1)

/-- The address of a device context: 1LVL holds 64 contexts in one page, 2LVL goes through one entry. -/
def State.dcAddr (s : State) (part dev : Nat) : XRes Nat :=
  let ddtp := s.r .dtuIommu 2
  let root := bits ddtp 53 10 * 4096
  match bits ddtp 3 0 with
  | 2 => if dev < 64 then (.ok (root + 64 * dev), s) else (.error { cause := 260 }, s)
  | 3 =>
    match walkRead s part (root + 8 * (dev / 64)) with
    | (some e, s1) =>
      if !bit e 0 then (.error { cause := 258 }, s1)
      else if bits e 9 1 != 0 || bits e 63 54 != 0 then (.error { cause := 259 }, s1)
      else (.ok (bits e 53 10 * 4096 + 64 * (dev % 64)), s1)
    | (none, s1) => (.error { cause := 257 }, s1)
  | _ => (.error { cause := 256 }, s)

/-- A device context asks for something that the options of R211 leave out. -/
def dcBad (ws : DevCtx) : Bool :=
  let tc := wordAt ws 0
  let mode (m : Nat) : Bool := m == 0 || m == 9 || m == 10
  bits tc 3 1 != 0 || bits tc 6 5 != 0 || bits tc 23 9 != 0 || bits tc 63 32 != 0
    || !mode (bits (wordAt ws 1) 63 60) || bits (wordAt ws 1) 1 0 != 0 || !mode (bits (wordAt ws 3) 63 60)

/-- The device context of an instance as its memory holds it. -/
def State.readDc (s : State) (part dev : Nat) : XRes DevCtx :=
  match s.dcAddr part dev with
  | (.ok a, s1) =>
    match physRead s1 part a 64 with
    | (.ok bs, s2) =>
      let ws := words64 8 bs
      if !bit (wordAt ws 0) 0 then (.error { cause := 258 }, s2)
      else if dcBad ws then (.error { cause := 259 }, s2)
      else (.ok ws, s2)
    | (_, s2) => (.error { cause := 257 }, s2)
  | (.error e, s1) => (.error e, s1)

/-- The device context in force: the cached one, or the one in memory, which is then cached. -/
def State.devCtx (s : State) (part dev : Nat) : XRes DevCtx :=
  match NMap.find s.dtu.ddtc dev with
  | some dc => (.ok dc, s)
  | none =>
    match s.readDc part dev with
    | (.ok dc, s1) => (.ok dc, { s1 with dtu.ddtc := NMap.insert s1.dtu.ddtc dev dc })
    | r => r

/-- iohgatp and iosatp modes, PPN, GSCID and PSCID of a device context. -/
def dcGMode (dc : DevCtx) : Nat := bits (wordAt dc 1) 63 60
def dcGPpn (dc : DevCtx) : Nat := bits (wordAt dc 1) 43 0
def dcGscid (dc : DevCtx) : Nat := bits (wordAt dc 1) 59 44
def dcPscid (dc : DevCtx) : Nat := bits (wordAt dc 2) 31 12
def dcSMode (dc : DevCtx) : Nat := bits (wordAt dc 3) 63 60
def dcSPpn (dc : DevCtx) : Nat := bits (wordAt dc 3) 43 0
/-- DTF: translation faults of the device are not reported. -/
def dcQuiet (dc : DevCtx) : Bool := bit (wordAt dc 0) 4

/-! ## One stage of a walk -/

/-- A leaf entry: the address it maps to, where the entry lies, the entry and its level. -/
structure Leaf where
  out : Nat
  at_ : Nat
  pte : Nat
  level : Nat
  deriving DecidableEq, Repr

/-- Index of a level; the root of an x4 table has 11 index bits. -/
def pteIdx (addr lv top : Nat) (x4 : Bool) : Nat :=
  (addr / 2 ^ (12 + 9 * lv)) % (if x4 && lv == top then 2048 else 512)

/-- Walk a table from level `lv` down; `fetch` reads an entry, and `pf` is the fault of an entry that does not serve. -/
def walkTable (fetch : Nat → State → XRes Nat) (pf : XFault) (x4 : Bool) (top addr : Nat) :
    Nat → Nat → State → XRes Leaf
  | lv, base, s =>
    let a := base + 8 * pteIdx addr lv top x4
    match fetch a s with
    | (.error e, s1) => (.error e, s1)
    | (.ok pte, s1) =>
      let next := bits pte 53 10 * 4096
      if !bit pte 0 || (!bit pte 1 && bit pte 2) || bits pte 63 54 != 0 then (.error pf, s1)
      else if bit pte 1 || bit pte 3 then
        if bits pte 53 10 % 512 ^ lv != 0 then (.error pf, s1)
        else (.ok { out := next + addr % 2 ^ (12 + 9 * lv), at_ := a, pte := pte, level := lv }, s1)
      else
        match lv with
        | 0 => (.error pf, s1)
        | lv' + 1 => walkTable fetch pf x4 top addr lv' next s1

/-- The access is permitted: every request is a user request, so U is needed. -/
def leafOk (pte : Nat) (write : Bool) : Bool := bit pte 4 && (if write then bit pte 2 else bit pte 1)

/-- The entry after the hardware update of A and D. -/
def leafAD (pte : Nat) (write : Bool) : Nat :=
  let p := putBits pte 6 6 1
  if write then putBits p 7 7 1 else p

/-! ## Dirty logging (R221, R222) -/

/-- A record for a second-stage leaf whose D the DTU has set. -/
def State.dirtyLog (s : State) (inst gpa level : Nat) : State :=
  if !s.fb DTU_DLOGCFG.EN inst || s.fb DTU_DLOGCFG.ALLDIRTY inst then s
  else
    let size := 2 ^ (s.f DTU_DLOGCFG.SIZE_LOG2 inst + 9)
    let prod := s.f DTU_DLOGIDX.PROD inst
    if size ≤ dist32 prod (s.f DTU_DLOGIDX.CONS inst) then s.setF DTU_DLOGCFG.ALLDIRTY inst 1
    else
      let rec_ := gpa / 2 ^ (12 + 9 * level) * 2 ^ (12 + 9 * level) + level % 4 * 1024
      let a := s.f DTU_DLOGCFG.BASE inst * 4096 + 8 * (prod % size)
      (physWrite s 8 a (toLE 8 rec_)).2.setF DTU_DLOGIDX.PROD inst (prod + 1)

/-! ## The two stages -/

/-- Levels of a mode, less one: Sv48 and Sv48x4 have four, Sv57 and Sv57x4 five (R211). -/
def modeTop : Nat → Option Nat
  | 9 => some 3
  | 10 => some 4
  | _ => none

/-- A page-table entry is read at a physical address; a read that fails is an access fault. -/
def fetchPte (part : Nat) (write : Bool) (a : Nat) (s : State) : XRes Nat :=
  match walkRead s part a with
  | (some v, s1) => (.ok v, s1)
  | (none, s1) => (.error { cause := accessCause write }, s1)

/-- The second stage: a guest-physical address to a physical address and the level of its leaf, with A and D updated.
`val2` is what the fault record tells of an implicit access. -/
def State.gXlate (s : State) (part inst : Nat) (dc : DevCtx) (gpa : Nat) (write : Bool) (pf : XFault) : XRes (Nat × Nat) :=
  if dcGMode dc = 0 then (.ok (gpa, 0), s)
  else
    match modeTop (dcGMode dc) with
    | none => (.error pf, s)
    | some top =>
      if 2 ^ (12 + 9 * (top + 1) + 2) ≤ gpa then (.error pf, s)
      else
        match walkTable (fetchPte part write) pf true top gpa top (dcGPpn dc * 4096) s with
        | (.error e, s1) => (.error e, s1)
        | (.ok lf, s1) =>
          if !leafOk lf.pte write then (.error pf, s1)
          else
            let new := leafAD lf.pte write
            let s2 := if new = lf.pte then s1 else (physWrite s1 part lf.at_ (toLE 8 new)).2
            let s3 := if write && !bit lf.pte 7 then s2.dirtyLog inst gpa lf.level else s2
            (.ok (lf.out, lf.level), s3)

/-- The guest-page fault of an access to a guest-physical address: explicit, or implicit in a first-stage walk. -/
def guestFault (gpa : Nat) (write : Bool) : XFault := { cause := guestCause write, val2 := gpa / 4 * 4 }
def implicitFault (gpa : Nat) (access write : Bool) : XFault :=
  { cause := guestCause access, val2 := gpa / 4 * 4 + 1 + (if write then 2 else 0) }

/-- R213: the output address of a translation is one that the instance's flask may reach. -/
def State.outOk (s : State) (flask pa : Nat) : Bool :=
  match s.place pa with
  | .dram u =>
    !s.carved u &&
    match s.regionOf u with
    | some n => s.f MEM_RGN1.OWNER n == 8 || s.f MEM_RGN1.OWNER n == flask
    | none => true
  | .cmdWin o => o / 0x10000 / 32 == flask
  | .reg _ => true
  | .doorbell _ => true
  | .window => true
  | .nor _ => false
  | .hole => false

/-- R213: the second stage of an implicit access of a first-stage walk, with the check of its output address. -/
def State.implicitXlate (s : State) (part inst : Nat) (dc : DevCtx) (gpa : Nat) (access write : Bool) : XRes Nat :=
  match s.gXlate part inst dc gpa write (implicitFault gpa access write) with
  | (.ok (pa, _), s1) => if s1.outOk part pa then (.ok pa, s1) else (.error { cause := accessCause access }, s1)
  | (.error e, s1) => (.error e, s1)

/-- A first-stage entry is read through the second stage. -/
def fetchS1 (part inst : Nat) (dc : DevCtx) (access : Bool) (a : Nat) (s : State) : XRes Nat :=
  match s.implicitXlate part inst dc a access false with
  | (.ok pa, s1) => fetchPte part access pa s1
  | (.error e, s1) => (.error e, s1)

/-- A virtual address is canonical in a mode of `top + 1` levels. -/
def canonical (va top : Nat) : Bool :=
  let n := 12 + 9 * (top + 1)
  let hi := va / 2 ^ (n - 1)
  hi == 0 || hi == 2 ^ (64 - (n - 1)) - 1

/-- The first stage: an instance address to a guest-physical address and the level of its leaf, with A and D updated. -/
def State.sXlate (s : State) (part inst : Nat) (dc : DevCtx) (va : Nat) (write : Bool) : XRes (Nat × Nat) :=
  let pf : XFault := { cause := pageCause write }
  if dcSMode dc = 0 then (.ok (va, 0), s)
  else
    match modeTop (dcSMode dc) with
    | none => (.error pf, s)
    | some top =>
      if !canonical va top then (.error pf, s)
      else
        match walkTable (fetchS1 part inst dc write) pf false top va top (dcSPpn dc * 4096) s with
        | (.error e, s1) => (.error e, s1)
        | (.ok lf, s1) =>
          if !leafOk lf.pte write then (.error pf, s1)
          else
            let new := leafAD lf.pte write
            if new = lf.pte then (.ok (lf.out, lf.level), s1)
            else
              match s1.implicitXlate part inst dc lf.at_ write true with
              | (.ok pa, s2) => (.ok (lf.out, lf.level), (physWrite s2 part pa (toLE 8 new)).2)
              | (.error e, s2) => (.error e, s2)

/-! ## Faults (R213) -/

/-- The fault queue takes a report when the queue is enabled, has not overflowed or met a memory fault, and has room; the
manager is interrupted (R213, R359). The record is that of the IOMMU specification (PRESUMED, log entry 7). -/
def State.dtuFault (s : State) (inst va : Nat) (write : Bool) (e : XFault) : State :=
  let s1 := { s with dtu.faults := { inst := inst, va := va, write := write, cause := e.cause } :: s.dtu.faults }
  let fq := s.r .dtuIommu 6
  let fqb := s.r .dtuIommu 5
  let csr := s.r .dtuIommu 9
  let size := 2 ^ (bits fqb 4 0 + 1)
  let tail := bits fq 63 32 % size
  let s2 :=
    if !bit csr 48 || bit csr 40 || bit csr 41 then s1
    else if (tail + 1) % size = bits fq 31 0 % size then s1.setR .dtuIommu 9 (putBits csr 41 41 1)
    else
      let hdr := e.cause + (if write then 3 else 2) * 2 ^ 34 + inst * 2 ^ 40
      match physWrite s1 8 (bits fqb 53 10 * 4096 + 32 * tail)
          (toLE 8 hdr ++ toLE 8 0 ++ toLE 8 va ++ toLE 8 e.val2) with
      | (.ok _, t) => t.setR .dtuIommu 6 (putBits fq 63 32 ((tail + 1) % size))
      | (_, t) => t.setR .dtuIommu 9 (putBits csr 40 40 1)
  s2.mgrIrq 6 inst

/-- A cached translation that serves an access (R212). -/
def State.tlbHit (s : State) (inst va : Nat) (write : Bool) : Option Tlb :=
  s.dtu.tlb.find? fun t => t.inst == inst && t.vpn == va / 4096 && (!write || (t.write && t.dirty))

/-- The two stages of a walk for an instance: the translation that the DTU then caches. -/
def State.walkBoth (s : State) (flask inst : Nat) (dc : DevCtx) (va : Nat) (write : Bool) : XRes Tlb :=
  match s.sXlate flask inst dc va write with
  | (.ok (gpa, slv), s1) =>
    match s1.gXlate flask inst dc gpa write (guestFault gpa write) with
    | (.ok (pa, glv), s2) =>
      (.ok { inst := inst, vpn := va / 4096, ppn := pa / 4096, gpn := gpa / 4096, gscid := dcGscid dc,
             pscid := dcPscid dc, write := write, dirty := write, slv := slv, glv := glv }, s2)
    | (.error e, s2) => (.error e, s2)
  | (.error e, s1) => (.error e, s1)

/-- The translation without the output check: Off refuses, Bare passes, else the device context rules. With a refusal
comes whether it is reported. -/
def State.rawXlate (s : State) (inst va : Nat) (write : Bool) : Except (XFault × Bool) Nat × State :=
  let flask := s.instFlask inst
  match bits (s.r .dtuIommu 2) 3 0 with
  | 0 => (.error ({ cause := 256 }, true), s)
  | 1 => (.ok va, s)
  | _ =>
    match s.tlbHit inst va write with
    | some t => (.ok (t.ppn * 4096 + va % 4096), s)
    | none =>
      match s.devCtx flask inst with
      | (.error e, s1) => (.error (e, true), s1)
      | (.ok dc, s1) =>
        match s1.walkBoth flask inst dc va write with
        | (.error e, s2) => (.error (e, !dcQuiet dc), s2)
        | (.ok t, s2) =>
          let old := s2.dtu.tlb.filter fun t => !(t.inst == inst && t.vpn == va / 4096)
          (.ok (t.ppn * 4096 + va % 4096), { s2 with dtu.tlb := t :: old })

/-- R211 to R213: an instance's address is translated; a refusal is reported in the fault queue. -/
def State.xlate (s : State) (inst va : Nat) (write : Bool) : Option Nat × State :=
  match s.rawXlate inst va write with
  | (.ok pa, s1) =>
    if s1.outOk (s1.instFlask inst) pa then (some pa, s1)
    else (none, s1.dtuFault inst va write { cause := accessCause write })
  | (.error (e, shown), s1) => (none, if shown then s1.dtuFault inst va write e else s1)

/-! ## An instance's accesses -/

/-- Read the pieces of a range of an instance's address space; the first error ends the read. -/
def instReadL (inst : Nat) : List (Nat × Nat) → State → MRes × State
  | [], s => (.ok [], s)
  | (a, n) :: cs, s =>
    match s.xlate inst a false with
    | (none, s1) => (.xlate, s1)
    | (some pa, s1) =>
      match lineRead s1 (s1.instFlask inst) pa n (some inst) with
      | (.ok bs, s2) =>
        match instReadL inst cs s2 with
        | (.ok bs', s3) => (.ok (bs ++ bs'), s3)
        | r => r
      | r => r

/-- Read a range of an instance's address space. -/
def instRead (s : State) (inst va n : Nat) : MRes × State := instReadL inst (chunksOf va n) s

/-- Write the pieces of a range of an instance's address space; the first error ends the write. -/
def instWriteL (inst : Nat) : List (Nat × Nat) → List Byte → State → MRes × State
  | [], _, s => (.ok [], s)
  | (a, n) :: cs, bs, s =>
    match s.xlate inst a true with
    | (none, s1) => (.xlate, s1)
    | (some pa, s1) =>
      match lineWrite s1 (s1.instFlask inst) pa (bs.take n) (some inst) with
      | (.ok _, s2) => instWriteL inst cs (bs.drop n) s2
      | r => r

/-- Write a range of an instance's address space. -/
def instWrite (s : State) (inst va : Nat) (bs : List Byte) : MRes × State :=
  instWriteL inst (chunksOf va bs.length) bs s

/-- A 64-bit little-endian word of an instance. -/
def instRead64 (s : State) (inst va : Nat) : Option Nat × State :=
  match instRead s inst va 8 with
  | (.ok bs, s1) => (some (leNat bs), s1)
  | (_, s1) => (none, s1)

/-- R183: what a real-time master reads or writes in an instance's memory is charged to the master, not to the flask's
gate (log entry 166). -/
def rtRead (m : Nat) (s : State) (inst va n : Nat) : MRes × State :=
  let r := instRead s inst va n
  (r.1, r.2.rtCharge s m n)

def rtWrite (m : Nat) (s : State) (inst va : Nat) (bs : List Byte) : MRes × State :=
  let r := instWrite s inst va bs
  (r.1, r.2.rtCharge s m bs.length)

/-- A word that a real-time master reads. -/
def rtRead64 (m : Nat) (s : State) (inst va : Nat) : Option Nat × State :=
  match rtRead m s inst va 8 with
  | (.ok bs, s1) => (some (leNat bs), s1)
  | (_, s1) => (none, s1)

/-- The status a failed access gives a job: TRANSLATION_FAULT 12h, INTEGRITY_FAIL 13h or CLOCK_LOST 17h. -/
def MRes.status : MRes → Nat
  | .ok _ => 0
  | .xlate => 0x12
  | .integ => 0x13
  | .clock => 0x17

/-- The bytes of a successful read. -/
def MRes.bytes : MRes → List Byte
  | .ok bs => bs
  | _ => []

/-- The access succeeded. -/
def MRes.good : MRes → Bool
  | .ok _ => true
  | _ => false

end Sys2Proof.Machine
end

