-- ==== Sys2Proof/Machine/Jobs.lean ====
section
/-! DEFINITION. Jobs: the fields of a job descriptor and a tile descriptor (chapter 02), status codes, the
end of a job, and the arithmetic of array time (R178, R179). -/

namespace Sys2Proof.Machine

/-! ## Status codes (R36) -/

def stOk : Nat := 0x00
def stKvDeferred : Nat := 0x01
def stSeqTableFull : Nat := 0x02
def stExpired : Nat := 0x03
def stMalformed : Nat := 0x10
def stUnsupported : Nat := 0x11
def stXlate : Nat := 0x12
def stInteg : Nat := 0x13
def stJobFault : Nat := 0x14
def stJobLost : Nat := 0x15
def stAborted : Nat := 0x16
def stClockLost : Nat := 0x17
def stProgBusy : Nat := 0x18

/-! ## The job descriptor -/

/-- Word k of the descriptor. -/
def Job.w (x : Job) (k : Nat) : Nat := wordAt x.desc k

def Job.opcode (x : Job) : Nat := bits (x.w 0) 63 56
def Job.qosField (x : Job) : Nat := bits (x.w 0) 55 52
def Job.prio (x : Job) : Nat := bits (x.w 0) 51 48
def Job.flags (x : Job) : Nat := bits (x.w 0) 47 32
def Job.seqno (x : Job) : Nat := bits (x.w 0) 31 0
def Job.tag (x : Job) : Nat := x.w 1
def Job.waitAddr (x : Job) : Nat := x.w 2
def Job.waitValue (x : Job) : Nat := x.w 3
def Job.signalAddr (x : Job) : Nat := x.w 4
def Job.signalIncr (x : Job) : Nat := x.w 5
def Job.paramAddr (x : Job) : Nat := x.w 6
def Job.tileAddr (x : Job) : Nat := x.w 7
def Job.tileCount (x : Job) : Nat := bits (x.w 8) 63 48
def Job.paramLen (x : Job) : Nat := bits (x.w 8) 31 0
def Job.deadline (x : Job) : Nat := x.w 9
def Job.inst (x : Job) : Nat := instOf x.queue
/-- Word k of the inline parameters, from offset 50h. -/
def Job.inl (x : Job) (k : Nat) : Nat := x.w (10 + k)
/-- Word k of the operator record. -/
def Job.pw (x : Job) (k : Nat) : Nat := leAt x.param (8 * k) 8

def Job.fenceBefore (x : Job) : Bool := bit x.flags 0
def Job.irq (x : Job) : Bool := bit x.flags 1
def Job.waitEn (x : Job) : Bool := bit x.flags 2
def Job.signalEn (x : Job) : Bool := bit x.flags 3
def Job.signalOnError (x : Job) : Bool := bit x.flags 4

/-- The flask of a job. -/
def State.jobFlask (s : State) (x : Job) : Nat := s.queueFlask x.queue

/-- R258: the display queue of an output. -/
def State.dispQueue (s : State) (o : Nat) : Nat :=
  queueNo (s.f DSP_OUTCFG.INSTANCE o) (s.f DSP_OUTCFG.QUEUE o)

/-- R258: while its flask is escalated, a job of the display queue goes ahead of the flask's other work. -/
def State.urgent (s : State) (x : Job) : Bool :=
  let q := s.flask (s.jobFlask x)
  decide (0 < q.level) && s.dispQueue q.escOutput == x.queue

/-- R34, R258: the label a job runs with, clamped to QOS_MAX of its queue, and raised to it while the display queue's flask is
escalated. -/
def State.jobQos (s : State) (x : Job) : Nat :=
  if s.urgent x then s.f SPR_QCFG.QOS_MAX x.queue else min x.qosField (s.f SPR_QCFG.QOS_MAX x.queue)

/-- The label of a job by number; 0 for a job that is not held. -/
def State.labelOf (s : State) (j : Nat) : Nat := ((s.job j).map s.jobQos).getD 0

/-- Set CFLAGS bits of a job: 1 STALE, 2 RECOVERED, 4 SATURATED. -/
def State.cflag (s : State) (j b : Nat) : State :=
  s.modJob j fun x => { x with cflags := Nat.lor x.cflags b }

/-! ## The tile descriptor -/

def tdIndex (d : List Nat) : Nat := bits (wordAt d 0) 63 48
def tdArray (d : List Nat) : Nat := bits (wordAt d 0) 47 40
def tdRecast (d : List Nat) : Nat := bits (wordAt d 0) 39 32
def tdEst (d : List Nat) : Nat := bits (wordAt d 0) 31 0
def tdProg (d : List Nat) : Nat := wordAt d 1
def tdProgLen (d : List Nat) : Nat := bits (wordAt d 2) 63 32
def tdAct (d : List Nat) : Nat := wordAt d 3
def tdWgt (d : List Nat) : Nat := wordAt d 4
def tdOut (d : List Nat) : Nat := wordAt d 5
def tdMOff (d : List Nat) : Nat := bits (wordAt d 6) 63 32
def tdMExt (d : List Nat) : Nat := bits (wordAt d 6) 31 0
def tdNOff (d : List Nat) : Nat := bits (wordAt d 7) 63 48
def tdNExt (d : List Nat) : Nat := bits (wordAt d 7) 47 32
def tdKOff (d : List Nat) : Nat := bits (wordAt d 7) 31 16
def tdKExt (d : List Nat) : Nat := bits (wordAt d 7) 15 0

/-! ## Ends -/

/-- The work of a job ends with a status; the first end stands. -/
def State.endJob (s : State) (j status : Nat) (detail : Option Nat) : State :=
  s.modJob j fun x =>
    if x.phase = .ended then x else { x with phase := .ended, status := status, detail := detail }

/-- A job whose parts have all completed ends OK. -/
def State.finishPart (s : State) (j part total : Nat) : State :=
  let s1 := s.modJob j fun x => { x with doneParts := insNat x.doneParts part }
  match s1.job j with
  | some x => if total ≤ x.doneParts.length then s1.endJob j stOk none else s1
  | none => s1

/-- The tile indexes of a job that have not completed, lowest first. -/
def Job.lowestOpen (x : Job) : Nat :=
  ((List.range x.tiles.length).find? (fun k => !x.doneParts.contains k)).getD 0

/-- Remove a job's tiles from its flask's tile queue. -/
def State.dropTiles (s : State) (f j : Nat) : State :=
  s.modFlask f fun x => { x with tiles := x.tiles.filter (fun t => t.job != j) }

/-! ## Array time (R178, R179) -/

/-- Charge array time to a flask and a job: ACCT counts whole array-µs, the remainder is kept. -/
def State.charge (s : State) (f j ns : Nat) : State :=
  let t := (s.flask f).acctNs + ns
  ((s.modFlask f fun x => { x with acctNs := t % 1000 }).incWrap SYS_FLSHARE.ACCT f (t / 1000)).modJob j
    fun x => { x with arrayNs := x.arrayNs + ns }

/-- R178: time on a lent array raises the virtual time of the flask it serves, under the SHARE in force. V is kept in 1/1000 of its
unit (log entry 20). -/
def State.lendCharge (s : State) (f share ns : Nat) : State :=
  s.modFlask f fun x => { x with vtime := x.vtime + ns * 65536 / max 1 share }

end Sys2Proof.Machine
end

