-- ==== Sys2Proof/Machine/Moves.lean ====
section
/-! DEFINITION. Ladles (R206, R207): the pool of 32, what partitions reserve and hold of it, the order in which moves
and XFER jobs take ladles, and the list of moves. -/

namespace Sys2Proof.Machine

/-- A copy that the hardware makes for a flask (R207). -/
def MoveKind.hwCopy : MoveKind → Bool
  | .pour _ _ => false
  | .retire _ => false
  | _ => true

/-- Pieces of 64 KB of an XFER job (R208). -/
def Job.xferPieces (x : Job) : Nat := cdiv (bits (x.inl 3) 63 32) 65536

/-- An XFER job that is at work. -/
def Job.xferRuns (x : Job) : Bool := x.opcode == 9 && x.phase == .running

/-- Ladles that a partition holds, for moves and for XFER jobs; partition 15 stands for moves that take a ladle of the
pool: those of arrays that no flask owns, and of a retirement. -/
def State.ladlesHeld (s : State) (p : Nat) : Nat :=
  (s.mem.moves.filter fun m => m.ladle && m.part == p).length
    + ((s.work.jobs.filter fun x => x.xferRuns && s.jobFlask x == p).map fun x => x.ladles).sum

/-- Ladles that are held or kept for a reservation. -/
def State.ladlesTied (s : State) : Nat :=
  ((List.range 9).map fun p => max (s.ladlesHeld p) (s.f MEM_LRES.MIN p)).sum + s.ladlesHeld 15

/-- R206: a partition may take one more ladle: one of its reservation, or below MAX one that no reservation keeps. -/
def State.ladleFor (s : State) (p : Nat) : Bool :=
  if p < 9 then
    decide (s.ladlesHeld p < s.f MEM_LRES.MAX p)
      && (decide (s.ladlesHeld p < s.f MEM_LRES.MIN p) || decide (s.ladlesTied < 32))
  else decide (s.ladlesTied < 32)

/-- Change a move. -/
def State.modMove (s : State) (id : Nat) (g : Move → Move) : State :=
  { s with mem.moves := s.mem.moves.map fun x => if x.id = id then g x else x }

/-- A move that waits takes a ladle, if its partition may hold one more. -/
def State.giveLadle (s : State) (m : Move) : State :=
  if s.ladleFor m.part then s.modMove m.id fun x => { x with ladle := true } else s

/-- An XFER job takes ladles for the pieces that none serves (R208). -/
def State.giveLadles (s : State) (x : Job) : State :=
  (List.range (x.xferPieces - x.doneParts.length - x.ladles)).foldl (fun s _ =>
    if s.ladleFor (s.jobFlask x) then s.modJob x.id fun y => { y with ladles := y.ladles + 1 } else s) s

/-- R207: free ladles go to copies of the hardware first, then to moves that were interrupted, then to the queued moves
in order, then to XFER jobs (that queued moves go ahead of XFER jobs is a DESIGN CHOICE, log entry 22). -/
def State.dealLadles (s : State) : State :=
  let wait := s.mem.moves.filter fun m => !m.ladle
  let hw := wait.filter fun m => m.kind.hwCopy
  let rest := wait.filter fun m => !m.kind.hwCopy
  let s1 := (hw ++ rest.filter (fun m => decide (0 < m.done)) ++ rest.filter fun m => m.done == 0).foldl State.giveLadle s
  (s1.work.jobs.filter Job.xferRuns).foldl State.giveLadles s1

/-- A partition's ladles are wanted elsewhere at a piece boundary: a copy of the hardware for it waits, it holds more
than MAX, or it holds more than MIN and reservations have grown past the pool. -/
def State.ladleWanted (s : State) (p : Nat) : Bool :=
  (s.mem.moves.any fun m => !m.ladle && m.kind.hwCopy && m.part == p)
    || (decide (p < 9) && decide (s.f MEM_LRES.MAX p < s.ladlesHeld p))
    || ((decide (9 ≤ p) || decide (s.f MEM_LRES.MIN p < s.ladlesHeld p)) && decide (32 < s.ladlesTied))

/-- R207: a piece of a move has ended: the ladle stays with the move unless it is wanted elsewhere. -/
def State.pieceBoundary (s : State) (m : Move) : State :=
  if s.ladleWanted m.part && !m.kind.hwCopy then
    (s.modMove m.id fun x => { x with ladle := false }).dealLadles
  else s

/-- A move is queued. -/
def State.addMove (s : State) (m : Move) : State :=
  ({ s with mem.moves := s.mem.moves ++ [{ m with id := s.mem.nextMove, ladle := false }],
            mem.nextMove := s.mem.nextMove + 1 }).dealLadles

/-- A move is removed, and its ladle is free. -/
def State.dropMove (s : State) (m : Move) : State :=
  ({ s with mem.moves := s.mem.moves.filter fun x => x.id != m.id }).dealLadles

end Sys2Proof.Machine
end

