-- ==== Sys2Proof/Machine/PourTab.lean ====
section
/-! DEFINITION. The entries of the pour table (R166): their fields, the banks, the start of an entry under lag (R168,
R171), and the entry that is to start next under a number. -/

namespace Sys2Proof.Machine

/-! ## Fields of an entry -/

def Ent.start (e : Ent) : Nat := bits e.w0 63 44
def Ent.len (e : Ent) : Nat := bits e.w0 43 28
def Ent.flask (e : Ent) : Nat := bits e.w0 27 25
def Ent.ty (e : Ent) : Nat := bits e.w0 24 22
def Ent.unit (e : Ent) : Nat := bits e.w0 21 16
def Ent.kind (e : Ent) : Nat := bits e.w0 15 12
def Ent.inst (e : Ent) : Nat := bits e.w1 63 56
def Ent.queue (e : Ent) : Nat := queueNo (bits e.w1 63 56) (bits e.w1 55 50)
def Ent.job (e : Ent) : Nat := bits e.w1 49 40
def Ent.tile (e : Ent) : Nat := bits e.w1 39 24
def Ent.partner (e : Ent) : Nat := bits e.w1 49 47
def Ent.task (e : Ent) : Nat := bits e.w1 43 28
def Ent.log (e : Ent) : Nat := bits e.w1 27 16

/-- The entry names a queue: its tiles, or its runner window. -/
def Ent.namesQueue (e : Ent) : Bool := e.kind == 0 || e.kind == 1 || e.kind == 6

/-! ## Banks (R165) -/

/-- The index of entry e of a bank. -/
def entIdx (bank e : Nat) : Nat := 4096 * bank + e

/-- The entry at an index, as its bank holds it now. -/
def State.ent (s : State) (i : Nat) : Ent := ⟨s.r .pourEnt0 i, s.r .pourEnt1 i⟩

/-- The valid entries of a bank, in ascending index; an unlisted entry is not valid. -/
def State.validEntries (s : State) (bank : Nat) : List Nat :=
  s.regs.filterMap fun p =>
    if p.1 % 128 = Reg.num .pourEnt0 && p.1 / 128 / 4096 = bank && bit p.2.toNat 11 then some (p.1 / 128) else none

/-- The active bank. -/
def State.bank (s : State) : Nat := s.f POUR_CTRL.ACTIVE_BANK 0

/-- The frame length whose grid gives the next boundary: FRAME_US, or SHADOW_FRAME_US before the first exchange. -/
def State.frameUs (s : State) : Nat :=
  if s.f POUR_CTRL.FRAME_US 0 = 0 then s.f POUR_CTRL.SHADOW_FRAME_US 0 else s.f POUR_CTRL.FRAME_US 0

/-! ## Starts (R168, R170, R171) -/

/-- The entry of the table that is to start next under a number: one carried on from an earlier frame first, with the
words that it had in its frame. -/
def State.nextDue (s : State) (e : Nat) : Option Due :=
  let p := s.units.pour
  match p.carried.find? fun c => c.idx % 4096 == e with
  | some c => some c
  | none =>
    let i := entIdx s.bank e
    if s.fb POUR_ENT0.VALID i && !p.started.contains i then
      some { idx := i, ent := s.ent i, frame := s.f POUR_STAT.FRAME 0, startNs := p.frameNs + 1000 * (s.ent i).start }
    else none

/-- R171: START + L. -/
def State.dueNs (s : State) (d : Due) : Nat := d.startNs + 1000 * s.f POUR_FLAG.LAG d.ent.flask

/-- R150: a pour-table test bar of an array falls due within 40 µs, in this frame, in the next one, or carried on from
an earlier one. -/
def State.barEntrySoon (s : State) : Bool :=
  let p := s.units.pour
  let soon (e : Ent) (at_ : Nat) : Bool :=
    e.kind == 2 && e.ty == 0 && !reached (at_ + 1000 * s.f POUR_FLAG.LAG e.flask) (s.now + 40000)
  let next := if p.validated then 1 - s.bank else s.bank
  s.fb POUR_CTRL.EN 0
    && ((s.validEntries s.bank).any (fun i => !p.started.contains i && soon (s.ent i) (p.frameNs + 1000 * (s.ent i).start))
      || (s.validEntries next).any (fun i => soon (s.ent i) (p.frameNs + 1000 * (s.frameUs + (s.ent i).start)))
      || p.carried.any fun d => soon d.ent d.startNs)

end Sys2Proof.Machine
end

