-- ==== Sys2Proof/Machine/Arrays.lean ====
section
/-! DEFINITION. Operations over one tensor array: job boundaries (R59, R375), aborts (R63), shakeout (R219),
spares (R67, R68, R141, R151), the mould store with its undefined reads (R51, R52), and row layouts (R72). -/

namespace Sys2Proof.Machine

/-- The physical arrays, 0 to 33. -/
def arrayIds : List Nat := List.range 34

/-- The physical array that holds a logical number of a flask (ARR_STATUS). -/
def State.arrOf (s : State) (f l : Nat) : Option Nat :=
  arrayIds.find? fun a => s.f ARR_STATUS.FLASK a == f && s.f ARR_STATUS.LOGICAL a == l

/-- The number of arrays a flask was created with (SYS_FLRES). -/
def State.flaskArrays (s : State) (f : Nat) : Nat :=
  (arrayIds.filter fun i => bit (s.f SYS_FLRES.ARRAYS f) i).length

/-- An array that serves jobs: not aborting, withdrawn, retired, spare or in a test bar. -/
def State.arrServing (s : State) (a : Nat) : Bool := decide (s.f ARR_STATUS.STATE a ≤ 2)

/-- An array that no flask owns and that is not a spare is lent (R178). -/
def State.arrLent (s : State) (a : Nat) : Bool :=
  s.f ARR_STATUS.FLASK a == 15 && s.arrServing a

/-! ## The mould store -/

/-- Size of the mould store. -/
def mouldTop : Nat := 0x400000

/-- The mould ranges that an asynchronous command writes: of an XFER its range, of a DRAIN its rows and scale bytes.
The bytes between rows that STRIDE leaves are in none. -/
def AsyncOp.ranges (o : AsyncOp) : List (Nat × Nat) := if o.kind = .xfer then [(o.lo, o.len)] else o.rows

/-- A byte of the mould store that an outstanding asynchronous command writes (R52); `skip` is the XFER that
a FOLLOW stream waits for. -/
def ArraySt.hazard (x : ArraySt) (skip : Option Nat) (addr : Nat) : Bool :=
  x.async.any fun o => skip != some o.serial
    && o.ranges.any fun r => decide (r.1 ≤ addr) && decide (addr < r.1 + r.2)

/-- Read the mould store; bytes under an outstanding write are free (R52). -/
def State.mouldRead (s : State) (a lo n : Nat) (skip : Option Nat) : List Byte × State :=
  let x := s.arr a
  if x.async.isEmpty then
    ((List.range n).map fun k => NMap.get x.mould 0 (lo + k), s)
  else
    ((List.range n).map fun k =>
      if x.hazard skip (lo + k) then Config.freeByte (s.freeCtr + k) else NMap.get x.mould 0 (lo + k),
     { s with freeCtr := s.freeCtr + n })

/-- Bytes written into a mould store. -/
def putMould (m : NMap Byte) (lo : Nat) : List Byte → NMap Byte
  | [] => m
  | b :: bs => putMould (NMap.set m 0 lo b) (lo + 1) bs

/-- Write the mould store of an array. -/
def State.mouldWrite (s : State) (a lo : Nat) (bs : List Byte) : State :=
  s.modArr a fun x => { x with mould := putMould x.mould lo bs }

/-- A range of the mould store takes undefined contents (R63: a transfer that an abort discards). -/
def State.mouldFree (s : State) (a lo n : Nat) : State :=
  let r := s.freshBytes n
  r.2.mouldWrite a lo r.1

/-! ## Row layouts (R72) -/

/-- Rows in a group of rows of 64 elements. -/
def rowsPerGroup (f : Nat) : Nat :=
  match fmtBits f with
  | 4 => 2
  | 6 => 4
  | _ => 1

/-- Bytes of a row of `n` elements. -/
def rowBytes (f n : Nat) : Nat := n * fmtBits f / 8

/-- Units of 64 bytes of an activation row. -/
def rowUnits (f n : Nat) : Nat := cdiv (rowBytes f n) 64

/-- Mould address of row `r` of 64 elements. -/
def rowAddr (f src stride r : Nat) : Nat :=
  src + r / rowsPerGroup f * (stride * 64) + r % rowsPerGroup f * rowBytes f 64

/-- Bytes from the start of `n` rows of 64 elements to the end of the one that reaches furthest: the last row, or the
last row of the group before it. -/
def rowsEnd (f stride n : Nat) : Nat :=
  let g := rowsPerGroup f
  max (rowAddr f 0 stride (n - 1)) (rowAddr f 0 stride ((n - 1) / g * g - 1)) + rowBytes f 64

/-- Element `j` of a packed row. -/
def elemAt (f : Nat) (bs : List Byte) (j : Nat) : Nat :=
  let o := j * fmtBits f
  leAt bs (o / 8) ((o % 8 + fmtBits f + 7) / 8) / 2 ^ (o % 8) % 2 ^ fmtBits f

/-- The elements of a packed row. -/
def elems (f n : Nat) (bs : List Byte) : List Nat := (List.range n).map (elemAt f bs)

/-- Elements packed from the least significant bit upward. -/
def packElems (f : Nat) (cs : List Nat) : List Byte :=
  let v := cs.foldr (fun c acc => acc * 2 ^ fmtBits f + c % 2 ^ fmtBits f) 0
  toLE (cdiv (cs.length * fmtBits f) 8) v

/-! ## Job boundaries -/

/-- What an array job starts with (R48, R53, R54, R55): the mould store, weights and accumulators stay. -/
def ArraySt.fresh (x : ArraySt) : ArraySt :=
  { x with
    streams := [], armSwap := false, armAcc := none, steps := 0, ev := [], post := {}, hist := [],
    loops := [], async := [], serial := 0, fills := [], outs := [], pc := 0, shiftLeft := 0, sync := none,
    waitFrom := none, held := false, sigCrc := crc32Init, outCrc := crc32Init, sigs := [],
    pauseNs := 0 }

/-- What an abort discards (R63). -/
def ArraySt.discard (x : ArraySt) : ArraySt :=
  { x with
    accum := [], active := {}, shadow := {}, streams := [], armSwap := false, armAcc := none, ev := [],
    loops := [], shiftLeft := 0, sync := none, waitFrom := none, held := false }

/-- What shakeout clears of a tensor array (R219). -/
def State.shakeArray (s : State) (a : Nat) : State :=
  ((s.modArr a fun x =>
    { x with mould := [], store := [], active := {}, shadow := {}, accum := [], ev := [], loops := [],
             post := {}, hist := [], streams := [], armSwap := false, armAcc := none })
    |>.setF ARR_SATWIN.WIN_VALUES a 0).setF ARR_SATWIN.WIN_SAT a 0

/-- The program index shown in PC. -/
def State.showPc (s : State) (a : Nat) : State :=
  s.setF ARR_STATUS.PC a (2048 * s.f ARR_PROG.CUR_HALF a + (s.arr a).pc)

/-- R59, R375: at a job boundary the array takes the NEXT program, or clears CUR_VALID and is idle. A NEXT
program that software made valid again has no tile of its own and runs under the last one. -/
def State.takeProgram (s : State) (a : Nat) : State :=
  let x := s.arr a
  if s.fb ARR_PROG.NEXT_VALID a then
    let s1 := (((s.setF ARR_PROG.CUR_HALF a (s.f ARR_PROG.NEXT_HALF a)).setF ARR_PROG.CUR_LEN a
      (s.f ARR_PROG.NEXT_LEN a)).setF ARR_PROG.CUR_VALID a 1).setF ARR_PROG.NEXT_VALID a 0
    let rj := (x.nextJob.orElse fun _ => x.job).map fun r => { r with startNs := s.now }
    ((s1.setArr a { x.fresh with job := rj, nextJob := none }).setF ARR_STATUS.STATE a
      (if rj.isSome then 1 else 0)).showPc a
  else
    ((s.setF ARR_PROG.CUR_VALID a 0).setArr a { x.fresh with job := none }).setF ARR_STATUS.STATE a 0

/-! ## Spares and withdrawal -/

/-- A free spare, the lowest-numbered first (log entry 21). -/
def State.freeSpare (s : State) : Option Nat := arrayIds.find? fun a => s.f ARR_STATUS.STATE a == 7

/-- A spare takes an array's logical number: ARR_RESIDENT is loaded, the event is recorded, and a copy of the
resident image starts when `image` is set and there is one (R67, R68). -/
def State.mapSpare (s : State) (a sp cause : Nat) (image : Bool) : State :=
  let f := s.f ARR_STATUS.FLASK a
  let pages := s.f ARR_RESIDENT.IMG_PAGES a
  let s1 := (((s.setF ARR_STATUS.LOGICAL sp (s.f ARR_STATUS.LOGICAL a)).setF ARR_STATUS.FLASK sp f).setF
    ARR_STATUS.STATE sp 0).setR .arrResident sp (s.r .arrResident a)
  let s2 := ((s1.setF ARR_STATUS.LOGICAL a 0xFF).setF ARR_STATUS.FLASK a 0xF).modRec fun r =>
    { r with
      spareActs := min (r.spareActs + 1) (2 ^ 32 - 1)
      spareEvents := ((a, sp, cause, r.poh / 3600) :: r.spareEvents).take 8 }
  let s3 := (s2.setF ARR_SATWIN.WIN_VALUES sp 0).setF ARR_SATWIN.WIN_SAT sp 0
  if image && 0 < pages then
    (s3.addMove { id := 0, kind := .spareImage sp, part := f, inst := 0, toMem := false,
                  va := s3.f ARR_RESIDENT.IMG_ADDR sp * 2 ^ 22, maddr := 0, len := pages * 4096 }).modArr sp
      fun x => { x with copying := true }
  else s3

/-- A retirement (STATE 6h) or withdrawal (STATE 5h) of an array, with a spare in its place; without a free
spare the array stays in service and SPARE_OUT is set (R141). -/
def State.replaceArray (s : State) (a st cause : Nat) (image : Bool) : State :=
  match s.freeSpare with
  | some sp =>
    let s1 := (s.mapSpare a sp cause image).setF ARR_STATUS.STATE a st
    let s2 := s1.shakeArray a
    if st = 6 then
      (s2.modRec fun r => { r with retired := insNat r.retired a,
                                   arrays := NMap.set r.arrays 0 (8 * a + 7) (r.poh / 3600) }).logEvent 3 a cause
    else s2
  | none => s.safety SYS_SAFESTAT.SPARE_OUT a cause

/-- R151: an array of a shared flask, or of none, that failed its test bar is withdrawn at its tile boundary, and a free
spare takes its place; with no spare it is withdrawn all the same. -/
def State.boundaryWithdraw (s : State) (a : Nat) : State :=
  match (s.arr a).withdrawDue with
  | some c =>
    if s.f ARR_STATUS.FLASK a != 15 && s.timed (s.f ARR_STATUS.FLASK a) then s
    else
      let s1 := s.modArr a fun x => { x with withdrawDue := none }
      match s1.freeSpare with
      | some _ => s1.replaceArray a 5 c false
      | none =>
        let s2 := if s.f ARR_STATUS.FLASK a = 15 then s1 else s1.safety SYS_SAFESTAT.SPARE_OUT a c
        (((s2.shakeArray a).setF ARR_STATUS.STATE a 5).setF ARR_STATUS.LOGICAL a 0xFF).setF ARR_STATUS.FLASK a 0xF
  | none => s

/-! ## Test bars of arrays (R148) -/

/-- The mould range of a test bar, and the addresses of its image. -/
def barMould : Nat := 0x3C0000
def barBytes : Nat := 0x40000
def State.tbBase (s : State) : Nat := s.f SYS_TBBASE.TB_BASE 0 * 2 ^ 16
def State.barArea (s : State) (a : Nat) : Nat := s.tbBase + 0x100000 + a * barBytes

/-- Frame f pairs the activation format f mod 11 with the weight format ⌊f / 11⌋ mod 11. -/
def barPairing (f : Nat) : Nat := f % 11 + 11 * (f / 11 % 11)

/-- The partition whose ladles an array's test bar uses: its flask's, or the pool's. -/
def State.barMove (s : State) (a : Nat) (k : MoveKind) (toMem : Bool) (pa : Nat) (data : List Byte) : State :=
  s.addMove { id := 0, kind := k, part := s.f ARR_STATUS.FLASK a, inst := 0, toMem := toMem, va := pa, maddr := barMould,
              len := barBytes, data := data }

/-- The two runs of the test bar of an array occupy it as an array job of no job of a queue. -/
def barJob (a : Nat) : Nat := 2 ^ 64 + a

/-- Commands written into a half of the command store. -/
def putStore (m : NMap Nat) (i : Nat) : List Nat → NMap Nat
  | [] => m
  | w :: ws => putStore (NMap.set m 0 i w) (i + 1) ws

/-- The saved mould range is restored. -/
def State.barBack (s : State) (a : Nat) : State :=
  (((s.modArr a fun x => { x.fresh with job := none, barPhase := .restore }).setF ARR_PROG.CUR_VALID a 0).showPc a).barMove a
    (.barRestore a) false (s.barArea a) []

/-- R150: no array runs a test bar, and none of the pour table falls due within 40 µs. -/
def State.barMay (s : State) (a : Nat) : Bool :=
  !s.units.tbStopped && !(arrayIds.any fun b => b != a && (s.arr b).testBar.isSome) && !s.barEntrySoon

/-- A test bar starts on an idle array (R148, R150): STATE 4h, and its mould range is saved. -/
def State.startBar (s : State) (a : Nat) : State :=
  let r := s.mouldRead a barMould barBytes none
  (((r.2.modArr a fun x =>
    { x with testBar := some s.now, testBarDue := false, barSpare := s.f ARR_STATUS.STATE a == 7, barPhase := .save
             barPair := barPairing (s.f POUR_STAT.FRAME 0), barRuns := [] }).setF
    ARR_STATUS.STATE a 4)).barMove a (.barSave a) true (s.barArea a) r.1

/-- One run of the golden program begins: commands, accumulators and weights as for a re-execution (R137). -/
def State.barRun (s : State) (a : Nat) (desc : List Nat) (transformed : Bool) : State :=
  (s.modArr a fun x =>
    { x.fresh with
      accum := [], active := {}, shadow := {}, barPhase := .run
      job := some { job := barJob a, tile := 0, desc := desc, role := .testBar transformed, startNs := s.now,
                    flask := s.f ARR_STATUS.FLASK a, inst := 0 } }).showPc a

/-- The golden program is read from the image, without its descriptor in the last 64 bytes, into the half that no NEXT
program waits in; where it cannot be read the test bar has failed. -/
def State.barProgram (s : State) (a : Nat) : State :=
  match physRead s (s.f ARR_STATUS.FLASK a) (s.tbBase + 0x1000) 0x8000 with
  | (.ok bs, s1) =>
    let half := if s1.fb ARR_PROG.NEXT_VALID a then 1 - s1.f ARR_PROG.NEXT_HALF a else s1.f ARR_PROG.CUR_HALF a
    let desc := (List.range 8).map fun k => leAt bs (0x7FC0 + 8 * k) 8
    ((((s1.modArr a fun x =>
        { x with store := putStore x.store (2048 * half) ((List.range 2044).map fun k => leAt bs (16 * k) 16) }).setF
      ARR_PROG.CUR_HALF a half).setF ARR_PROG.CUR_LEN a (min 2044 (tdProgLen desc / 16))).setF
      ARR_PROG.CUR_VALID a 1).barRun a desc false
  | (_, s1) => s1.barBack a

/-- R375: the array passes its job boundary: a withdrawal due takes effect, a test bar that is due runs, and
otherwise the NEXT program is taken. While a due test bar must wait, the array stays idle (DESIGN CHOICE, log entry
168). -/
def State.passBoundary (s : State) (a : Nat) : State :=
  let s1 := s.boundaryWithdraw a
  if !s1.arrServing a && s1.f ARR_STATUS.STATE a != 3 then
    (s1.modArr a fun x => { x.fresh with job := none }).setF ARR_PROG.CUR_VALID a 0
  else if (s1.arr a).testBarDue then
    let s2 := ((s1.modArr a fun x => { x.fresh with job := none }).setF ARR_PROG.CUR_VALID a 0).setF ARR_STATUS.STATE a 0
    if s2.barMay a then s2.startBar a else s2
  else s1.takeProgram a

/-! ## Abort (R63) -/

/-- An LDW or DRAIN in progress is discarded: the range it was writing is left undefined. -/
def State.dropAsync (s : State) (a : Nat) : State :=
  let x := s.arr a
  let s1 := s.each ((x.async.filter fun o => o.kind == .drain || (o.kind == .xfer && !o.suppressed && !o.finished)).flatMap
      AsyncOp.ranges) fun s r => s.mouldFree a r.1 r.2
  s1.modArr a fun x => { x with async := x.async.filter fun o => o.kind == .xfer && !o.suppressed && !o.finished }

/-- The ACLK cycles of a stall that an abort ends are counted in STALL_CYC (R61); the model holds no ACLK count, so
their number is a free value. -/
def State.endStall (s : State) (a : Nat) : State :=
  if s.f ARR_STATUS.STATE a = 2 then let r := s.fresh; r.2.incWrap ARR_PERF.STALL_CYC a r.1 else s

/-- R63: the array job of an array is aborted; XFERs already handed to a ladle complete. -/
def State.abortArr (s : State) (a : Nat) : State :=
  (((s.endStall a).dropAsync a).modArr a ArraySt.discard).setF ARR_STATUS.STATE a 3

/-- Arrays that run, or are to run, a tile of a job (R182). -/
def State.involved (s : State) (j : Nat) : List Nat :=
  arrayIds.filter fun a =>
    ((s.arr a).job.any fun r => r.job == j) || ((s.arr a).nextJob.any fun r => r.job == j)

/-- The other jobs of the flask that hold an involved array (R37). -/
def State.lostJobs (s : State) (j : Nat) : List Nat :=
  ((s.involved j).flatMap fun a =>
    (((s.arr a).job.map fun r => r.job).toList ++ ((s.arr a).nextJob.map fun r => r.job).toList)).filter (· != j)

/-- A job in the NEXT half of an array is dropped with its program. -/
def State.dropNext (s : State) (a : Nat) : State :=
  if (s.arr a).nextJob.isSome then
    (s.modArr a fun x => { x with nextJob := none }).setF ARR_PROG.NEXT_VALID a 0
  else s

/-- R37, R182: a job fault ends the job with its status and the tile index, ends every other job that held
an involved array with JOB_LOST, and aborts the arrays involved. -/
def State.faultJob (s : State) (j status tile : Nat) : State :=
  match s.job j with
  | none => s
  | some x =>
    let f := s.jobFlask x
    let inv := s.involved j
    let lost := s.lostJobs j
    let s1 := (s.endJob j status (some tile)).dropTiles f j
    let s2 := s1.each lost fun s k => (s.endJob k stJobLost none).dropTiles f k
    if s.timed f then s2
    else s2.each inv fun s a =>
      let s' := s.dropNext a
      if (s'.arr a).job.isSome then s'.abortArr a else s'

/-- The array runs a test bar's program (R148). -/
def RunJob.bar (r : RunJob) : Bool :=
  match r.role with
  | .testBar _ => true
  | _ => false

/-- An array job is charged the time since its start or its last charge (R179), and the lent time of R178; a test bar is
charged to no flask. -/
def State.chargeRun (s : State) (a : Nat) : State :=
  match (s.arr a).job with
  | none => s
  | some r =>
    if r.bar then s else
    let ns := s.since r.startNs
    let s1 := (s.charge r.flask r.job ns).modArr a fun x =>
      { x with job := x.job.map fun r => { r with startNs := s.now } }
    if r.lent then
      (s1.lendCharge r.flask (s.arr a).sliceShare ns).modArr a fun x => { x with slice := x.slice.map fun p => (p.1, p.2 + ns) }
    else s1

end Sys2Proof.Machine
end

