-- ==== Sys2Proof/Machine/Pairs.lean ====
section
/-! DEFINITION. Recast pairs (R131 to R143): the comparison, isolation, the outcome, the release copy, and
the job faults of array jobs. -/

namespace Sys2Proof.Machine

/-! ## Finding and changing pairs -/

/-- The pair a unit runs for; `vec` says vector engine. -/
def State.pairOf (s : State) (vec : Bool) (u : Nat) : Option Pair :=
  s.units.pairs.find? fun p => p.vec == vec && (p.pri == u || p.rc == u)

/-- Change the pair a unit runs for. -/
def State.modPair (s : State) (vec : Bool) (u : Nat) (g : Pair → Pair) : State :=
  { s with units.pairs := s.units.pairs.map fun p =>
      if p.vec == vec && (p.pri == u || p.rc == u) then g p else p }

/-- Remove the pair a unit runs for. -/
def State.dropPair (s : State) (vec : Bool) (u : Nat) : State :=
  { s with units.pairs := s.units.pairs.filter fun p => !(p.vec == vec && (p.pri == u || p.rc == u)) }

/-- The job boundary of a unit of a pair. -/
def State.passUnit (s : State) (vec : Bool) (u : Nat) : State :=
  if vec then
    (s.modVec u fun v => { v with item := none, outs := [], sig := crc32Init }).setF VEC_STATUS.STATE u
      (if s.f VEC_STATUS.STATE u = 1 then 0 else s.f VEC_STATUS.STATE u)
  else if s.f ARR_STATUS.STATE u = 3 then s.modArr u fun x => { x with held := false }
  else s.passBoundary u

/-! ## Outcomes -/

/-- Signatures match (R134): the same SIGs in order, and equal final output signatures. -/
def sigsMatch (a b : Option (List (Nat × Nat) × Nat)) : Bool :=
  match a, b with
  | some x, some y => decide (x = y)
  | _, _ => false

/-- R141: a unit is found faulty as primary (0), as recast (1) or by an overrun (2). -/
def State.foundFaulty (s : State) (vec : Bool) (u how : Nat) : State :=
  let s1 :=
    if vec then
      (s.modRec fun r => { r with vecs := satAdd32 r.vecs (4 * u + (if how = 1 then 1 else 0)) 1 }).modVec u
        fun v => { v with withdrawDue := true }
    else
      let fld := match how with
        | 0 => ARR_RCSTAT.ISO_PRI
        | 1 => ARR_RCSTAT.ISO_RC
        | _ => ARR_RCSTAT.OVERRUN
      ((s.incSat fld u 1).setF ARR_RCSTAT.FAULTY u 1).modArr u fun x => { x with retireDue := some 1 }
  s1.safety SYS_SAFESTAT.ISOLATED u how

/-- The outcome of an isolation is known: released or not; a release copy may still be due. -/
def State.settle (s : State) (vec : Bool) (u outcome : Nat) : State :=
  s.modPair vec u fun p => { p with outcome := outcome, phase := if outcome = 1 then .release else .faultOut }

/-- R137: the recast array issues the program's DIR 1b XFERs again, in order, this time to memory. -/
def State.releaseCopy (s : State) (a : Nat) : State :=
  match (s.arr a).job with
  | none => s
  | some r =>
    s.each (s.arr a).outs fun s o =>
      let (bs, s1) := s.mouldRead a o.maddr o.len none
      s1.addMove { id := 0, kind := .release a, part := r.flask, inst := r.inst, label := s1.labelOf r.job,
                   toMem := true, va := o.va, maddr := o.maddr, len := o.len, key := o.key,
                   form := o.form, arg := o.arg, data := bs, job := r.job, tile := r.tile }

/-- R137, R143: the stores of a tile whose recast execution on an engine is released go to memory, in order; a refused
one ends the job with its status. -/
def State.releaseStores (s : State) (e : Nat) : State :=
  match (s.vec e).item.bind fun it => s.job it.job with
  | none => s
  | some x =>
    s.each (s.vec e).outs fun s o =>
      match instWrite s x.inst o.1 o.2 with
      | (.ok _, s1) => s1
      | (r, s1) => s1.endJob x.id r.status ((s.vec e).item.map fun it => it.item)

/-- A unit of a pair starts its re-execution: the program or item runs again from its first command, all transfers and
stores to memory suppressed. -/
def State.rerun (s : State) (vec : Bool) (u : Nat) (transformed : Bool) : State :=
  if vec then
    (s.modVec u fun v =>
      { v with outs := [], sig := crc32Init, item := v.item.map fun i => { i with startNs := s.now } }).setF VEC_STATUS.STATE u 1
  else
    ((s.modArr u fun x => { x.fresh with
        accum := [], active := {}, shadow := {},
        job := x.job.map fun r => { r with role := .reexec transformed, startNs := s.now } }).setF
      ARR_STATUS.STATE u 1).showPc u

/-- R137, R139: a unit of a pair re-executes; an array that still ends an abort starts once that is complete. -/
def State.reexecute (s : State) (vec : Bool) (u : Nat) (transformed : Bool) : State :=
  let s1 := s.modPair vec u fun p => { p with phase := .reexec }
  if !vec && s.f ARR_STATUS.STATE u = 3 then s1 else s1.rerun vec u transformed

/-- The unit of a pair that re-executes: the one that overran, or the recast unit. -/
def Pair.again (p : Pair) : Nat := if p.overran = 2 then p.pri else p.rc

/-- From the mismatch until the end of the isolation no entry of the flask starts (R171); LAG_MAX as it stands now holds
for the isolation (R162). -/
def State.startIsolation (s : State) (f : Nat) : State :=
  s.modFlask f fun x => { x with isolating := true, lagMax := s.f POUR_FLAG.LAG_MAX f }

/-- R142: the two comparator copies of a flask disagree on a decision, which then does not take effect: CMP_DUP. -/
def State.splitPair (s : State) (p : Pair) : State :=
  (((s.modFlask p.flask fun x => { x with cmpFault := false }).modPair p.vec p.pri fun q => { q with split := true })).safety
    SYS_SAFESTAT.CMP_DUP p.flask 0

/-- R142: a fault of one comparator copy of a flask waits for the next decision. -/
def State.plantFault (s : State) (f : Nat) (dup : Bool) : State :=
  if dup then s.modFlask f fun x => { x with cmpFault := true } else s

/-- R135: a matching pair is released: the tile is done and both units pass their job boundaries. -/
def State.releasePair (s : State) (p : Pair) : State :=
  let total := ((s.job p.job).map fun x => x.tiles.length).getD 0
  let s1 := (s.dropPair p.vec p.pri).finishPart p.job p.tile total
  (s1.passUnit p.vec p.pri).passUnit p.vec p.rc

/-- R135, R137, R139: what follows once both executions of a pair have ended. -/
def State.comparePair (s : State) (p : Pair) : State :=
  if (s.flask p.flask).cmpFault then s.splitPair p
  else
    match p.overran with
    | 0 =>
      match p.faultP, p.faultR with
      | some x, some y =>
        if x = y then
          let s1 := (s.dropPair p.vec p.pri).faultJob p.job x.1 p.tile
          (s1.passUnit p.vec p.pri).passUnit p.vec p.rc
        else (s.startIsolation p.flask).reexecute p.vec p.rc false
      | none, none =>
        if sigsMatch p.sigP p.sigR then s.releasePair p
        else (s.startIsolation p.flask).reexecute p.vec p.rc false
      | _, _ => (s.startIsolation p.flask).reexecute p.vec p.rc false
    | 1 => (s.startIsolation p.flask).reexecute p.vec p.rc false
    | 2 => (s.startIsolation p.flask).reexecute p.vec p.pri true
    | _ => (s.startIsolation p.flask).settle p.vec p.pri 2

/-- Both executions of a pair have ended, by END, fault or overrun. -/
def Pair.bothEnded (p : Pair) : Bool :=
  (p.priEnd.isSome || bit p.overran 0) && (p.rcEnd.isSome || bit p.overran 1)

/-- One execution of a pair has ended with a signature or a fault; the pair is compared after the later end. -/
def State.pairEnd (s : State) (vec : Bool) (u : Nat) (sig : Option (List (Nat × Nat) × Nat))
    (fault : Option (Nat × Nat)) : State :=
  let s1 := s.modPair vec u fun p =>
    if p.pri = u then { p with priEnd := some s.now, sigP := sig, faultP := fault }
    else { p with rcEnd := some s.now, sigR := sig, faultR := fault }
  match s1.pairOf vec u with
  | some p => if p.bothEnded then s1.comparePair p else s1
  | none => s1

/-- R138, R139: the outcome once the re-execution of unit `u` has ended with a signature, or none when it was
aborted. -/
def State.reexecEnd (s : State) (vec : Bool) (u : Nat) (sig : Option (List (Nat × Nat) × Nat)) : State :=
  match s.pairOf vec u with
  | none => s
  | some p =>
    let copy (s : State) : State := if vec then s.releaseStores u else s.releaseCopy u
    if (s.flask p.flask).cmpFault then s.splitPair p
    else
    match p.overran with
    | 0 =>
      if sigsMatch sig p.sigP then ((s.settle vec u 1).foundFaulty vec p.rc 1)
      else if sigsMatch sig p.sigR then copy ((s.settle vec u 1).foundFaulty vec p.pri 0)
      else (s.settle vec u 1).foundFaulty vec p.rc 1
    | 1 =>
      if sigsMatch sig p.sigR then copy ((s.settle vec u 1).foundFaulty vec p.pri 2)
      else s.settle vec u 2
    | _ =>
      if sigsMatch sig p.sigP then (s.settle vec u 1).foundFaulty vec p.rc 2
      else s.settle vec u 2

/-! ## Real-time tasks (R147) -/

/-- R147: a failed comparison: RT_MISMATCH, and both cores run an extra test bar in the next recovery entry. -/
def State.rtFail (s : State) (f : Nat) (cores : List Nat) : State :=
  let s1 := s.each cores fun s c =>
    (s.modRt c fun x =>
      { x with task := none, started := false, extra := true
               firsts := x.firsts.filter fun r => !(x.task.any fun k => k.1 == r.task) }).modRec
      fun r => { r with rts := satAdd32 r.rts (4 * c) 1 }
  (s1.modFlask f fun x => { x with extraBars := x.extraBars ++ cores.map TBUnit.rt }).safety
    SYS_SAFESTAT.RT_MISMATCH (cores.headD 0) 0

/-! ## Job faults of an array job (R54, R57) -/

/-- The array job of an array ends in a job fault with a status code and, where the manual names one, a flag.
In a pair the execution ends and the pair decides (R135); otherwise the job ends (R37). -/
def State.arrFault (s : State) (a : Nat) (flag : Option Fld) (status : Nat) : State :=
  let s1 := match flag with
    | some x => s.setF x a 1
    | none => s
  match (s1.arr a).job with
  | none => s1
  | some r =>
    let code := (flag.map fun x => x.reg.num * 64 + x.lo).getD 0
    match r.role with
    | .primary => ((s1.chargeRun a).abortArr a).pairEnd false a none (some (status, code))
    | .recast => ((s1.chargeRun a).abortArr a).pairEnd false a none (some (status, code))
    | .reexec _ => ((s1.chargeRun a).abortArr a).reexecEnd false a none
    | .testBar _ => ((s1.dropAsync a).modArr a fun x => { x.discard with async := [], barRuns := x.barRuns ++ [none] }).barBack a
    | _ => s1.faultJob r.job status r.tile

end Sys2Proof.Machine
end

