-- ==== Sys2Proof/Machine/ConvOps.lean ====
section
/-! DEFINITION. Convolution records (R92), their layouts (R95, R96), the pass rows of window transfers and
expanded buffers (R99, R100), scatter transfers (R101), and zero compression (R84 to R87). -/

namespace Sys2Proof.Machine

/-! ## The operator record -/

/-- Word k of a CONV operator record. -/
abbrev ConvRec := Nat → Nat

/-- The record of a job. -/
def Job.conv (x : Job) : ConvRec := x.pw

def cvInH (r : ConvRec) : Nat := bits (r 0) 63 48
def cvInW (r : ConvRec) : Nat := bits (r 0) 47 32
def cvInC (r : ConvRec) : Nat := bits (r 0) 31 16
def cvOutC (r : ConvRec) : Nat := bits (r 0) 15 0
def cvOutH (r : ConvRec) : Nat := bits (r 1) 63 48
def cvOutW (r : ConvRec) : Nat := bits (r 1) 47 32
def cvBatch (r : ConvRec) : Nat := bits (r 1) 31 16
def cvKH (r : ConvRec) : Nat := bits (r 1) 15 8
def cvKW (r : ConvRec) : Nat := bits (r 1) 7 0
def cvGroups (r : ConvRec) : Nat := bits (r 2) 63 48
def cvPadT (r : ConvRec) : Nat := bits (r 2) 47 40
def cvPadB (r : ConvRec) : Nat := bits (r 2) 39 32
def cvPadL (r : ConvRec) : Nat := bits (r 2) 31 24
def cvPadR (r : ConvRec) : Nat := bits (r 2) 23 16
def cvStrY (r : ConvRec) : Nat := bits (r 2) 15 12
def cvStrX (r : ConvRec) : Nat := bits (r 2) 11 8
def cvDilY (r : ConvRec) : Nat := bits (r 2) 7 4
def cvDilX (r : ConvRec) : Nat := bits (r 2) 3 0
def cvInFmt (r : ConvRec) : Nat := bits (r 3) 63 60
def cvWFmt (r : ConvRec) : Nat := bits (r 3) 59 56
def cvOutFmt (r : ConvRec) : Nat := bits (r 3) 55 52
def cvOp (r : ConvRec) : Nat := bits (r 3) 51 48
def cvCblk (r : ConvRec) : Bool := bit (r 3) 47
def cvZcIn (r : ConvRec) : Bool := bit (r 3) 46
def cvSparse (r : ConvRec) : Bool := bit (r 3) 45
def cvInAddr (r : ConvRec) : Nat := r 4
def cvInScale (r : ConvRec) : Nat := r 5
def cvWgtAddr (r : ConvRec) : Nat := r 6
def cvWgtScale (r : ConvRec) : Nat := r 7
def cvOutAddr (r : ConvRec) : Nat := r 8
def cvOutScale (r : ConvRec) : Nat := r 9
def cvAct (r : ConvRec) : Nat := bits (r 10) 63 60
def cvSlope (r : ConvRec) : Nat := bits (r 10) 59 56
def cvHeadroom (r : ConvRec) : Nat := bits (r 10) 55 52
def cvWindow (r : ConvRec) : Nat := bits (r 10) 51 48
def cvSeed (r : ConvRec) : Int := sint 8 (bits (r 10) 47 40)
def cvBiasEn (r : ConvRec) : Bool := bit (r 10) 39
def cvBiasAddr (r : ConvRec) : Nat := r 11

/-- Channels of one pass. -/
def cvPassC (r : ConvRec) : Nat := if cvSparse r then 256 else 128

/-- CP, the number of channel passes. -/
def cvCP (r : ConvRec) : Nat := cdiv (cvInC r) (cvPassC r)

/-- Channels of a block. -/
def cvBlk (r : ConvRec) : Nat := if cvCblk r then 16 else 32

/-- R95: byte offset of channel c of pixel (n, y, x) in a map of C channels and H × W pixels. -/
def fmapOff (blk fmt C H W n y x c : Nat) : Nat :=
  ((((n * cdiv C blk + c / blk) * H + y) * W + x) * blk + c % blk) * fmtBytes fmt

/-- R96: offset of the scale byte of (n, g, y, x). -/
def scaleOff (C H W n g y x : Nat) : Nat := ((n * cdiv C 64 + g) * H + y) * W + x

/-! ## Reading with an error -/

/-- A read of an instance's memory that may fail. -/
abbrev Rd (α : Type) := Except MRes α × State

/-- Read bytes of an instance. -/
def rdBytes (inst va n : Nat) (s : State) : Rd (List Byte) :=
  match instRead s inst va n with
  | (.ok bs, s1) => (.ok bs, s1)
  | (e, s1) => (.error e, s1)

/-- Apply a read to every element of a list; the first error ends it. -/
def readAll {α β : Type} (g : α → State → Rd β) : List α → State → Rd (List β)
  | [], s => (.ok [], s)
  | x :: xs, s =>
    match g x s with
    | (.error e, s1) => (.error e, s1)
    | (.ok b, s1) =>
      match readAll g xs s1 with
      | (.ok bs, s2) => (.ok (b :: bs), s2)
      | (.error e, s2) => (.error e, s2)

/-! ## Pass rows (R99, R100) -/

/-- The codes of channels c0 to c0 + n − 1 of an input pixel inside the image; channels from IN_C on are
zero codes. -/
def readPixel (r : ConvRec) (inst n y x c0 cnt : Nat) (s : State) : Rd (List Nat) :=
  let blk := cvBlk r
  let fmt := cvInFmt r
  let chans := min cnt (cvInC r - c0)
  match readAll (fun k s =>
      rdBytes inst (cvInAddr r + fmapOff blk fmt (cvInC r) (cvInH r) (cvInW r) n y x (c0 + k * blk))
        (min blk (chans - k * blk) * fmtBytes fmt) s) (List.range (cdiv chans blk)) s with
  | (.ok bss, s1) =>
    (.ok (elems fmt chans bss.flatten ++ List.replicate (cnt - chans) 0), s1)
  | (.error e, s1) => (.error e, s1)

/-- The scale bytes of the groups that a pass of a pixel spans. -/
def readScales (r : ConvRec) (inst n y x c0 cnt : Nat) (s : State) : Rd (List Int) :=
  let gs := (List.range (cnt / 64)).filter fun k => decide (c0 + 64 * k < cvInC r)
  readAll (fun k s =>
    match rdBytes inst
        (cvInScale r + scaleOff (cvInC r) (cvInH r) (cvInW r) n (c0 / 64 + k) y x) 1 s with
    | (.ok bs, s1) => (.ok (sint 8 (leNat bs)), s1)
    | (.error e, s1) => (.error e, s1)) gs s

/-- R99, R100: pass row p of pixel (n, y, x): its codes after scale alignment and its scale byte. A pixel in
padding gives zero codes and scale byte 00h. -/
def passRow (r : ConvRec) (inst p n : Nat) (y x : Int) (s : State) : Rd (List Nat × Int) :=
  let cnt := cvPassC r
  if y < 0 || (cvInH r : Int) ≤ y || x < 0 || (cvInW r : Int) ≤ x then
    (.ok (List.replicate cnt 0, 0), s)
  else
    match readPixel r inst n y.toNat x.toNat (cnt * p) cnt s with
    | (.error e, s1) => (.error e, s1)
    | (.ok cs, s1) =>
      match readScales r inst n y.toNat x.toNat (cnt * p) cnt s1 with
      | (.error e, s2) => (.error e, s2)
      | (.ok es, s2) =>
        let emax := es.foldl max (es.headD 0)
        let out := (List.range cs.length).map fun i =>
          let c := cs.getD i 0
          let e := es.getD (i / 64) emax
          if e < emax then realign (cvInFmt r) c (e - emax) else c
        (.ok (out, emax), s2)

/-! ## Zero compression (R84 to R87) -/

/-- Formats that zero compression takes (R85). -/
def zcFmt (f : Nat) : Bool := f == 1 || f == 2 || (6 ≤ f && f ≤ 9)

/-- Element bytes under zero compression. -/
def zcElem (f : Nat) : Nat := if f ≤ 7 then 1 else 2

/-- R85: an element that is zero in its format. -/
def zcZero (f c : Nat) : Bool :=
  match f with
  | 1 => c == 0
  | 2 => c == 0
  | 6 => c % 128 == 0
  | 7 => c % 128 == 0
  | _ => c % 32768 == 0

/-- R84: one block of 256 bytes of elements, compressed. -/
def zcBlock (f : Nat) (cs : List Nat) : List Byte :=
  let kept := cs.filter fun c => !zcZero f c
  let mask := (List.range cs.length).foldl
    (fun m i => if zcZero f (cs.getD i 0) then m else m + 2 ^ i) 0
  let body := kept.flatMap fun c => toLE (zcElem f) c
  let raw := toLE 1 (zcElem f) ++ toLE 1 0 ++ toLE 2 kept.length ++ toLE 32 mask ++ body
  raw ++ List.replicate ((4 - raw.length % 4) % 4) 0

/-- A list cut into pieces of `n` elements; `fuel` bounds their number. -/
def pieces {α : Type} (n : Nat) : Nat → List α → List (List α)
  | 0, _ => []
  | fuel + 1, xs => if xs.isEmpty then [] else xs.take n :: pieces n fuel (xs.drop n)

/-- R86: rows of element codes as one compressed stream; the last block is filled with zero elements. -/
def zcStream (f : Nat) (cs : List Nat) : List Byte :=
  let n := 256 / zcElem f
  (pieces n (cs.length + 1) cs).flatMap fun b => zcBlock f (b ++ List.replicate (n - b.length) 0)

/-- R87: the elements of a block at the start of a byte list and the block's length; none when it is not well
formed. -/
def zcRead (f : Nat) (bs : List Byte) : Option (List Nat × Nat) :=
  let n := 256 / zcElem f
  let nnz := leAt bs 2 2
  let mask := leAt bs 4 32
  let setBits := ((List.range 256).filter fun i => bit mask i).length
  let len := 36 + nnz * zcElem f
  let full := len + (4 - len % 4) % 4
  if bs.length < 36 || leAt bs 0 1 != zcElem f || n < nnz || nnz != setBits || leAt bs 1 1 != 0
      || mask / 2 ^ n != 0 || bs.length < full then none
  else
    let es := (List.range n).foldl (fun (acc : List Nat × Nat) i =>
      if bit mask i then (leAt bs (36 + acc.2 * zcElem f) (zcElem f) :: acc.1, acc.2 + 1)
      else (0 :: acc.1, acc.2)) ([], 0)
    some (es.1.reverse, full)

/-- The elements of consecutive blocks, at least `need` of them; none when a block is not well formed. -/
def zcReadAll (f : Nat) : Nat → Nat → List Byte → Option (List Nat)
  | 0, _, _ => some []
  | fuel + 1, need, bs =>
    if need = 0 then some []
    else
      match zcRead f bs with
      | none => none
      | some (es, len) => (zcReadAll f fuel (need - es.length) (bs.drop len)).map (es ++ ·)

/-! ## Window and scatter transfers -/

/-- TR, OWt, oy0, ox0 and n of a tile (R98). -/
def tileRows (r : ConvRec) (d : List Nat) : Nat :=
  if tdMExt d % cvOutW r = 0 && tdMOff d % cvOutW r = 0 then tdMExt d / cvOutW r else 1
def tileOW (r : ConvRec) (d : List Nat) : Nat :=
  if tdMExt d % cvOutW r = 0 && tdMOff d % cvOutW r = 0 then cvOutW r else tdMExt d
def tileN (r : ConvRec) (d : List Nat) : Nat := tdMOff d / (cvOutH r * cvOutW r)
def tileOy (r : ConvRec) (d : List Nat) : Nat := tdMOff d / cvOutW r % cvOutH r
def tileOx (r : ConvRec) (d : List Nat) : Nat := tdMOff d % cvOutW r

/-- WH, the streams of a window transfer. -/
def winWH (r : ConvRec) (d : List Nat) : Nat :=
  (tileRows r d - 1) * cvStrY r + (cvKH r - 1) * cvDilY r + 1

/-- P, units of a pass row. -/
def passUnits (r : ConvRec) : Nat := rowUnits (cvInFmt r) (cvPassC r)

/-- SLOT, bytes of one stream's slot. -/
def winSlot (r : ConvRec) (d : List Nat) : Nat :=
  let u := tileOW r d * passUnits r
  if cvZcIn r then cdiv (292 * cdiv u 4) 64 * 64 else u * 64

/-- Bytes of a window transfer. -/
def winBytes (r : ConvRec) (d : List Nat) : Nat :=
  winWH r d * winSlot r d + winWH r d * (64 * cdiv (tileOW r d) 64)

/-- Bytes padded with zeros to a length. -/
def padTo (n : Nat) (bs : List Byte) : List Byte := bs ++ List.replicate (n - bs.length) 0

/-- One stream of a window transfer: its slot and its scale bytes. -/
def winStream (r : ConvRec) (d : List Nat) (inst p kx st : Nat) (s : State) :
    Rd (List Byte × List Byte) :=
  let n := tileN r d
  let y : Int := (tileOy r d * cvStrY r : Nat) - (cvPadT r : Int) + st
  match readAll (fun i s =>
      passRow r inst p n y
        (((tileOx r d + i) * cvStrX r + kx * cvDilX r : Nat) - (cvPadL r : Int)) s)
      (List.range (tileOW r d)) s with
  | (.error e, s1) => (.error e, s1)
  | (.ok rows, s1) =>
    let data :=
      if cvZcIn r then zcStream (cvInFmt r) (rows.flatMap fun x => x.1)
      else rows.flatMap fun x => padTo (64 * passUnits r) (packElems (cvInFmt r) x.1)
    let scales := rows.map fun x => BitVec.ofNat 8 (uint 8 x.2)
    (.ok (padTo (winSlot r d) data, padTo (64 * cdiv (tileOW r d) 64) scales), s1)

/-- R99: the bytes a window transfer writes from MADDR. `arg` is OFFSET / 64. -/
def windowBytes (r : ConvRec) (d : List Nat) (inst arg : Nat) (s : State) : Rd (List Byte) :=
  match readAll (fun st s => winStream r d inst (arg / cvKW r) (arg % cvKW r) st s)
      (List.range (winWH r d)) s with
  | (.error e, s1) => (.error e, s1)
  | (.ok xs, s1) => (.ok ((xs.flatMap fun x => x.1) ++ (xs.flatMap fun x => x.2)), s1)

/-- Bytes of a scatter transfer (R101). -/
def scatBytes (r : ConvRec) (d : List Nat) : Nat :=
  (tdMExt d * cdiv (rowBytes (cvOutFmt r) 64) 64 + cdiv (tdMExt d) 64) * 64

/-- The pieces of output pixel `i` of a scatter transfer: (address, bytes) for each block of channels, and
the scale byte. -/
def scatPixel (r : ConvRec) (d : List Nat) (g : Nat) (bs : List Byte) (i : Nat) : List (Nat × List Byte) :=
  let fmt := cvOutFmt r
  let q := tdMOff d + i
  let ox := q % cvOutW r
  let oy := q / cvOutW r % cvOutH r
  let n := q / (cvOutH r * cvOutW r)
  let row := (bs.drop (i * cdiv (rowBytes fmt 64) 64 * 64)).take (rowBytes fmt 64)
  let chans := min 64 (cvOutC r - 64 * g)
  let blk := cvBlk r
  let data := (List.range (cdiv chans blk)).map fun k =>
    (cvOutAddr r + fmapOff blk fmt (cvOutC r) (cvOutH r) (cvOutW r) n oy ox (64 * g + k * blk),
     (row.drop (k * blk * fmtBytes fmt)).take (min blk (chans - k * blk) * fmtBytes fmt))
  let base := tdMExt d * cdiv (rowBytes fmt 64) 64 * 64
  data ++ [(cvOutScale r + scaleOff (cvOutC r) (cvOutH r) (cvOutW r) n g oy ox,
            (bs.drop (base + i)).take 1)]

/-- Write a list of (address, bytes) pieces of an instance; the first error ends the writes. -/
def writeAll (inst : Nat) : List (Nat × List Byte) → State → MRes × State
  | [], s => (.ok [], s)
  | (a, bs) :: ps, s =>
    match instWrite s inst a bs with
    | (.ok _, s1) => writeAll inst ps s1
    | r => r

/-- R101: a scatter transfer writes the rows and scale bytes of scale group `g` of a tile. -/
def scatterWrite (r : ConvRec) (d : List Nat) (inst g : Nat) (bs : List Byte) (s : State) : MRes × State :=
  writeAll inst ((List.range (tdMExt d)).flatMap fun i => scatPixel r d g bs i) s

end Sys2Proof.Machine
end

