-- ==== Sys2Proof/Machine/Issue.lean ====
section
/-! DEFINITION. The issue of pour-program commands (R52, R54, R55): the command at issue, the working copies
of loop increments, and the operations of LDW, LDA, SHIFT, DRAIN and XFER on an array. -/

namespace Sys2Proof.Machine

/-! ## Issue -/

/-- The array issues commands: a job runs and it does not hold at its boundary. -/
def State.issuing (s : State) (a : Nat) : Bool :=
  (s.f ARR_STATUS.STATE a == 1 || s.f ARR_STATUS.STATE a == 2
    || (s.f ARR_STATUS.STATE a == 4 && (s.arr a).barPhase == .run)) && (s.arr a).job.isSome && !(s.arr a).held

/-- Command i of the running program. -/
def State.cmdAt (s : State) (a i : Nat) : Nat :=
  NMap.get (s.arr a).store 0 (2048 * s.f ARR_PROG.CUR_HALF a + i)

/-- R54: an illegal command is a job fault and sets ILLEGAL_CMD. -/
def State.illegal (s : State) (a : Nat) : State := s.arrFault a (some ARR_STATUS.ILLEGAL_CMD) stJobFault

/-- Issue goes on with another command. -/
def State.goTo (s : State) (a pc : Nat) : State := (s.modArr a fun x => { x with pc := pc }).showPc a

/-- Issue goes on with the next command. -/
def State.nextCmd (s : State) (a : Nat) : State := s.goTo a ((s.arr a).pc + 1)

/-- R52, R54: the command at issue, when it has opcode `op`: reserved fields are zero, EVT_EN stands only on
asynchronous commands, and issue past the program's end or of an unlisted opcode is illegal. The state is
unchanged when another command is at issue. -/
def State.issue (s : State) (a op : Nat) (rsv : List (Nat × Nat)) (async : Bool)
    (go : Nat → State → State) : State :=
  if !s.issuing a then s
  else if s.f ARR_PROG.CUR_LEN a ≤ (s.arr a).pc then s.illegal a
  else
    let w := s.cmdAt a (s.arr a).pc
    let o := bits w 127 120
    if 0xE < o then s.illegal a
    else if o ≠ op then s
    else if bits w 115 112 != 0 || (bit w 119 && !async) || rsv.any (fun p => bits w p.1 p.2 != 0) then
      s.illegal a
    else go w s

/-! ## Loops (R55) -/

/-- The LOOPs whose bodies enclose a command, innermost first: index and command. -/
def State.loopsAround (s : State) (a pc : Nat) : List (Nat × Nat) :=
  ((List.range (s.f ARR_PROG.CUR_LEN a)).map fun q => (q, s.cmdAt a q)).filter fun p =>
    decide (pc < p.1) && bits p.2 127 120 == 0xC && decide (p.1 ≤ pc + bits p.2 95 84)

/-- The sum of the enclosing loops' increments, from field [hi:lo], over the iterations completed. -/
def State.loopInc (s : State) (a hi lo : Nat) : Int :=
  (s.loopsAround a (s.arr a).pc).foldl
    (fun acc p => acc + ((NMap.get (s.arr a).loops 0 p.1 : Nat) : Int) * sint 16 (bits p.2 hi lo)) 0

/-- Nesting depth of a LOOP, and that every loop inside it nests properly; `fuel` bounds the depth. -/
def State.nestDepth (s : State) (a : Nat) : Nat → Nat → Option Nat
  | 0, _ => none
  | fuel + 1, q =>
    let body := bits (s.cmdAt a q) 95 84
    if body = 0 || 2047 < body || q < body then none
    else
      ((List.range body).map (fun i => q - body + i)).foldl (fun acc i =>
        match acc with
        | none => none
        | some d =>
          if bits (s.cmdAt a i) 127 120 != 0xC then some d
          else if i < (q - body) + bits (s.cmdAt a i) 95 84 then none
          else
            match s.nestDepth a fuel i with
            | none => none
            | some d' => some (max d (d' + 1))) (some 1)

/-! ## The transform of R132 -/

/-- The execution runs with the transform of R132. -/
def ArraySt.xform (x : ArraySt) : Bool :=
  match x.job with
  | some r =>
    match r.role with
    | .recast => true
    | .reexec t => t
    | .testBar t => t
    | _ => false
  | none => false

/-- The execution is one of a pair, its re-execution, or a run of a test bar, whose two runs write the same bytes (R133,
R149). -/
def ArraySt.paired (x : ArraySt) : Bool :=
  match x.job with
  | some r =>
    match r.role with
    | .primary => true
    | .recast => true
    | .reexec _ => true
    | .testBar _ => true
    | _ => false
  | none => false

/-- The physical column of a logical column. -/
def State.physCol (s : State) (a c : Nat) : Nat :=
  if (s.arr a).xform then (c + s.f SYS_SAFECFG.ROT 0) % 64 else c

/-- Count the exceptions of expansions (R74) or products (R75). -/
def State.countExc (s : State) (a : Nat) (flush : Fld) (cs : List Cnt) : State :=
  let o := (cs.filter (· == .ovf)).length
  let f := (cs.filter (· == .flush)).length
  if o = 0 && f = 0 then s else (s.incSat ARR_NUMCNT.OVF a o).incSat flush a f

/-! ## Asynchronous commands (R52, R53) -/

/-- An asynchronous command is outstanding from its issue. -/
def State.addAsync (s : State) (a w : Nat) (o : AsyncOp) : State :=
  s.modArr a fun x =>
    { x with
      async := x.async ++ [{ o with serial := x.serial, evt := if bit w 119 then some (bits w 118 116) else none }]
      serial := x.serial + 1 }

/-- A mould range is inside the store (R51); addresses carry the working copies. -/
def inMould (lo : Int) (n : Nat) : Bool := decide (0 ≤ lo) && decide (lo + n ≤ (mouldTop : Int))

/-! ## LDW -/

/-- Codes of the rows of a weight block, as the mould store holds them. -/
def State.readRows (s : State) (a fmt src stride rows : Nat) : List (List Nat) × State :=
  (List.range rows).foldl (fun acc r =>
    let (bs, s1) := acc.2.mouldRead a (rowAddr fmt src stride r) (rowBytes fmt 64) none
    (acc.1 ++ [elems fmt 64 bs], s1)) ([], s)

/-- The weights that an LDW loads: CF19 codes by physical row and column, 2:4 positions, and what the
expansions counted. -/
def loadWeights (rot : Nat) (fmt cols : Nat) (sparse : Bool) (rows pos : List (List Nat)) (es : List Int) :
    Weights × List Cnt :=
  let cells := (List.range rows.length).flatMap fun r => (List.range 64).map fun pc => (r, pc)
  let exp := cells.map fun (r, pc) =>
    let c := (pc + 64 - rot) % 64
    if c < cols then expand fmt ((rows.getD r []).getD c 0) (es.getD c 0) else (0, .none)
  let ps := cells.map fun (r, pc) =>
    let c := (pc + 64 - rot) % 64
    if sparse && c < cols then (pos.getD r []).getD c 0 else 0
  ({ w := ((cells.zip exp).filter fun p => p.2.1 != 0).map fun p => (64 * p.1.1 + p.1.2, p.2.1)
     pos := ((cells.zip ps).filter fun p => p.2 != 0).map fun p => (64 * p.1.1 + p.1.2, p.2)
     sparse := sparse },
   exp.map fun p => p.2)

/-- R48, R73, R83: LDW at issue. A sparse block of fewer than 128 rows reads the position rows of those rows alone
(DESIGN CHOICE, log entry 161). The block reaches the shadow weights when the command completes. -/
def State.issueLdw (s : State) (a w : Nat) : State :=
  let src : Int := (bits w 111 90 : Int) + 64 * s.loopInc a 83 68
  let fmt := bits w 89 86
  let sparse := bit w 85
  let rows := bits w 84 78 + 1
  let cols := bits w 77 72 + 1
  let stride := bits w 71 56
  let sc := bits w 55 34
  let dataEnd := rowsEnd fmt stride rows
  let posOff := 128 / rowsPerGroup fmt * stride * 64
  if 10 < fmt || stride == 0 || bits w 111 90 % 64 != 0 || !inMould src dataEnd
      || (sparse && !inMould src (posOff + 16 * rows)) || !inMould sc 64 then s.illegal a
  else
    let base := src.toNat
    let (rs, s1) := s.readRows a fmt base stride rows
    let (pb, s2) := if sparse then s1.mouldRead a (base + posOff) (16 * rows) none else ([], s1)
    let pos := (List.range rows).map fun r =>
      (List.range 64).map fun c => leAt pb (16 * r + c / 4) 1 / 4 ^ (c % 4) % 4
    let (sb, s3) := s2.mouldRead a sc 64 none
    let es := (List.range cols).map fun c => sint 8 (leAt sb c 1)
    if es.any fun e => e < -64 || 63 < e then s3.arrFault a (some ARR_NUMSTAT.SCALE_BAD) stJobFault
    else
      let rot := if (s.arr a).xform then s.f SYS_SAFECFG.ROT 0 else 0
      let (wt, cnt) := loadWeights rot fmt cols sparse rs pos es
      ((s3.countExc a ARR_NUMCNT.FLUSH_IN cnt).addAsync a w
        { serial := 0, kind := .ldw, evt := none, block := some wt }).nextCmd a

/-! ## LDA -/

/-- R61: the XFER a FOLLOW stream waits for: the latest DIR 0b XFER of the job whose range contains SRC, when
it has not completed. -/
def ArraySt.followOp (x : ArraySt) (src : Nat) : Option Nat :=
  match x.fills.find? fun p => decide (p.2.1 ≤ src) && decide (src < p.2.1 + p.2.2) with
  | some p => if x.async.any fun o => o.serial == p.1 then some p.1 else none
  | none => none

/-- A SWAPW that no LDA has followed, or an armed stream whose swap has not yet passed the last cell (R48). -/
def ArraySt.swapOpen (x : ArraySt) : Bool :=
  x.armSwap || x.streams.any fun t => t.swap && (t.entered == 0 || decide (x.steps ≤ t.s0 + 190))

/-- The weights that the next stream to be armed makes active: the swaps of the streams that have not entered and of a
waiting SWAPW, applied in turn (R48). -/
def ArraySt.nextActive (x : ArraySt) : Weights :=
  let swaps := (x.streams.filter fun t => t.swap && t.entered == 0).length + (if x.armSwap then 1 else 0)
  if swaps % 2 = 0 then x.active else x.shadow

/-- R73: the scale bytes of a stream's rows; none when one is out of range. -/
def State.readScales (s : State) (a sc m : Nat) : Option (List Nat) × State :=
  let (sb, s1) := s.mouldRead a sc m none
  let scales := (List.range m).map fun i => leAt sb i 1
  (if scales.any fun c => sint 8 c < -64 || 63 < sint 8 c then none else some scales, s1)

/-- R46, R48, R49, R51, R73, R86: LDA at issue arms a stream; a third armed stream holds issue. The scale bytes of
all rows are read and checked at issue (DESIGN CHOICE, log entry 162), but a compressed stream that follows an
outstanding XFER reads nothing before that XFER has completed. -/
def State.issueLda (s : State) (a w : Nat) : State :=
  let src : Int := (bits w 111 90 : Int) + 64 * s.loopInc a 67 52
  let fmt := bits w 89 86
  let sparse := bit w 85
  let zc := bit w 84
  let follow := bit w 83
  let m := bits w 82 73 + 1
  let stride := bits w 72 57
  let sc := bits w 56 35
  let accRow := bits w 34 25
  let n := if sparse then 256 else 128
  let x := s.arr a
  if 10 < fmt || stride == 0 || bits w 111 90 % 64 != 0 || 1023 < accRow + (m - 1) || !inMould sc m
      || (if zc then !zcFmt fmt || stride != rowUnits fmt n || !inMould src 0
          else !inMould src ((m - 1) * stride * 64 + rowBytes fmt n)) then s.illegal a
  else if 2 ≤ (x.streams.filter fun t => decide (t.entered < t.m)).length then s
  else if sparse != x.nextActive.sparse then s.arrFault a none stJobFault
  else
    let fo := if follow then x.followOp src.toNat else none
    let arm (s : State) (scales : Option (List Nat)) : State :=
      let st : Stream :=
        { src := src.toNat, fmt := fmt, sparse := sparse, zc := zc, follow := fo, m := m, stride := stride,
          scaleAddr := sc, scales := scales, accRow := accRow, accumulate := x.armAcc.getD false, swap := x.armSwap }
      (s.modArr a fun x => { x with streams := x.streams ++ [st], armSwap := false, armAcc := none }).nextCmd a
    if zc && fo.isSome then arm s none
    else
      match s.readScales a sc m with
      | (none, s1) => s1.arrFault a (some ARR_NUMSTAT.SCALE_BAD) stJobFault
      | (some es, s1) => arm s1 (some es)

/-! ## SHIFT -/

/-- The stream whose next row is to enter: the first that has not fully entered. -/
def ArraySt.entering (x : ArraySt) : Option (Nat × Stream) :=
  ((List.range x.streams.length).zip x.streams).find? fun p => decide (p.2.entered < p.2.m)

/-- R61, R86, R132: the row is ready: the XFER that the stream follows has written every byte of the row within its
range, or has completed. A suppressed XFER counts once it has completed, and a compressed stream waits for that. -/
def ArraySt.rowReady (x : ArraySt) (t : Stream) : Bool :=
  match t.follow with
  | none => true
  | some k =>
    match x.async.find? fun o => o.serial == k with
    | none => true
    | some o =>
      if t.zc || o.suppressed then false
      else if o.finished then true
      else
        let lo := t.src + t.entered * t.stride * 64
        let hi := lo + rowBytes t.fmt (if t.sparse then 256 else 128)
        let last := min hi (o.lo + o.len)
        decide (hi ≤ o.lo) || decide (o.lo + o.len ≤ lo) || decide (last ≤ o.lo + o.written)

/-- The element codes of the row that enters; none when a compressed block is not well formed (R87). -/
def State.rowCodes (s : State) (a : Nat) (t : Stream) : Option (List Nat × Option (List (List Nat))) × State :=
  let n := if t.sparse then 256 else 128
  if t.zc then
    match t.zcRows with
    | some rows => (some (rows.getD t.entered [], t.zcRows), s)
    | none =>
      let (bs, s1) := s.mouldRead a t.src (min (mouldTop - t.src) (292 * (t.m * rowBytes t.fmt n / 256 + 1))) t.follow
      match zcReadAll t.fmt (t.m * n + 1) (t.m * n) bs with
      | none => (none, s1)
      | some es =>
        let rows := (List.range t.m).map fun i => (es.drop (i * n)).take n
        (some (rows.getD 0 [], some rows), s1)
  else
    let (bs, s1) := s.mouldRead a (t.src + t.entered * t.stride * 64) (rowBytes t.fmt n) t.follow
    (some (elems t.fmt n bs, none), s1)

/-- R49, R75: the product that cell (k, n) forms with a row, and what it counts. -/
def cellProd (wt : Weights) (row : List Nat) (k n : Nat) : Nat × Cnt :=
  let v := if wt.sparse then row.getD (4 * (k / 2) + NMap.get wt.pos 0 (64 * k + n)) 0 else row.getD k 0
  f32prod v (NMap.get wt.w 0 (64 * k + n))

/-- R76: the column sum of a row for physical column n. -/
def columnSum (wt : Weights) (row : List Nat) (n : Nat) : Nat :=
  match (List.range 128).map fun k => (cellProd wt row k n).1 with
  | [] => 0
  | p :: rest => rest.foldl (fun acc q => f32add acc q) p

/-- R46, R75: what the products of one stream count that are formed in step number `t`: row m meets cell (k, n) at
step s0 + m + k + n. -/
def Stream.formed (st : Stream) (t : Nat) : List Cnt :=
  st.rows.zipIdx.flatMap fun p =>
    let m := st.entered - 1 - p.2
    let d := t - (st.s0 + m)
    if st.s0 + m ≤ t && d ≤ 190 then
      (List.range 64).filterMap fun n => if n ≤ d && d - n < 128 then some (cellProd st.weights p.1 (d - n) n).2 else none
    else []

/-- R46, R47: the sums of one stream that reach the accumulators in step number `t`. -/
def State.landSums (s : State) (a t : Nat) (st : Stream) : State :=
  if st.entered = 0 || t < st.s0 + 128 then s
  else
    (List.range 64).foldl (fun s n =>
      if st.s0 + 128 + n ≤ t && t < st.s0 + 128 + n + st.m then
        let m := t - (st.s0 + 128 + n)
        if m < st.entered then
          let sum := columnSum st.weights (st.rows.getD (st.entered - 1 - m) []) n
          let k := 64 * (st.accRow + m) + n
          let old := NMap.get (s.arr a).accum 0 k
          let v := if st.accumulate then f32add old sum else sum
          s.modArr a fun x => { x with accum := NMap.set x.accum 0 k v }
        else s
      else s) s

/-- R45, R46: the products formed and the sums that land in the step at hand, and the step counted. -/
def State.finishStep (s : State) (a : Nat) : State :=
  let t := (s.arr a).steps
  let s1 := (s.arr a).streams.foldl
    (fun s st => (s.countExc a ARR_NUMCNT.FLUSH_PROD (st.formed t)).landSums a t st) s
  s1.modArr a fun x =>
    { x with steps := t + 1, streams := x.streams.filter fun st => !(st.entered == st.m && st.s0 + st.m + 190 ≤ t) }

/-- How one step ended; a fault sets a flag (R73, R87). -/
inductive StepEnd where
  | done | stall | scaleBad | zcBad
  deriving DecidableEq, Repr

/-- The first row of a stream that swaps takes the swap with it: from here on the shadow weights are active (R48). -/
def State.takeSwap (s : State) (a : Nat) (t : Stream) : State :=
  if t.entered = 0 && t.swap then s.modArr a fun x => { x with active := x.shadow, shadow := x.active } else s

/-- R46, R48, R74: the next row of stream number i enters, under its scale byte. -/
def State.enterRow (s : State) (a i : Nat) (t : Stream) (e : Nat) : StepEnd × State :=
  match s.rowCodes a t with
  | (none, s1) => (.zcBad, s1)
  | (some (cs, zr), s1) =>
    let s2 := s1.takeSwap a t
    let ex := cs.map fun c => expand t.fmt c (sint 8 e)
    let row := ex.map fun p => if (s.arr a).xform then f32neg p.1 else p.1
    let t' := { t with
      entered := t.entered + 1, zcRows := zr, rows := row :: t.rows,
      s0 := if t.entered = 0 then (s.arr a).steps else t.s0
      weights := if t.entered = 0 then (s2.arr a).active else t.weights }
    let s3 := (s2.countExc a ARR_NUMCNT.FLUSH_IN (ex.map fun p => p.2)).modArr a fun x =>
      { x with streams := putAt x.streams i t' }
    (.done, s3.finishStep a)

/-- R45, R46, R61, R73: one atomic step: the next row enters, or a bubble; a row that is not ready stalls. -/
def State.stepArr (s : State) (a : Nat) : StepEnd × State :=
  match (s.arr a).entering with
  | none => (.done, s.finishStep a)
  | some (i, t) =>
    if !(s.arr a).rowReady t then (.stall, s)
    else
      match t.scales with
      | some es => s.enterRow a i t (es.getD t.entered 0)
      | none =>
        match s.readScales a t.scaleAddr t.m with
        | (none, s1) => (.scaleBad, s1)
        | (some es, s1) => s1.enterRow a i { t with scales := some es } (es.getD 0 0)

/-- Up to `n` steps: what is left, and how the last attempt ended. -/
def State.runSteps (a : Nat) : Nat → State → Nat × StepEnd × State
  | 0, s => (0, .done, s)
  | n + 1, s =>
    match s.stepArr a with
    | (.done, s1) => State.runSteps a n s1
    | (e, s1) => (n + 1, e, s1)

/-- R61, R67: cycles that the array has stood stalled under FOLLOW: STALL_CYC counts them, and they are no busy time. -/
def State.countStall (s : State) (a cycles : Nat) : State :=
  if s.f ARR_STATUS.STATE a = 2 then
    (s.incWrap ARR_PERF.STALL_CYC a cycles).modArr a fun x => { x with pauseNs := x.pauseNs + cycles * 4 / 5 }
  else s

/-- What STATE shows while a program runs or stalls; a test bar shows 4h throughout (R148). -/
def State.showRun (s : State) (a st : Nat) : State :=
  if (s.arr a).testBar.isSome then s else s.setF ARR_STATUS.STATE a st

/-- R45, R61: SHIFT runs its steps, or those left after a stall; a stall shows STATE 2h. -/
def State.issueShift (s : State) (a w : Nat) : State :=
  let left := if (s.arr a).shiftLeft = 0 then bits w 111 96 else (s.arr a).shiftLeft
  if bits w 111 96 = 0 then s.illegal a
  else
    match State.runSteps a left s with
    | (_, .done, s1) =>
      ((s1.modArr a fun x => { x with shiftLeft := 0 }).showRun a 1).nextCmd a
    | (k, .stall, s1) => (s1.modArr a fun x => { x with shiftLeft := k }).showRun a 2
    | (_, .scaleBad, s1) => (s1.showRun a 1).arrFault a (some ARR_NUMSTAT.SCALE_BAD) stJobFault
    | (_, .zcBad, s1) => (s1.showRun a 1).arrFault a (some ARR_NUMSTAT.ZC_BAD) stJobFault

/-! ## DRAIN (R79 to R82, R86, R134) -/

/-- One drained row: the values after R79 in logical column order. -/
def State.drainRow (s : State) (a : Nat) (bias : List Nat) (row : Nat) : List Nat :=
  let x := s.arr a
  (List.range 64).map fun c =>
    let acc := NMap.get x.accum 0 (64 * row + s.physCol a c)
    let acc := if x.xform then f32neg acc else acc
    let acc := if x.paired && acc == 2 ^ 31 then 0 else acc
    let v := if x.post.biasEn then f32add acc (bias.getD c 0) else acc
    actOp x.post.act x.post.slope v

/-- R81, R82: what a row's conversions count. -/
def State.countRow (s : State) (a : Nat) (cs : List Conv) : State :=
  let sat := (cs.filter fun c => c.sat).length
  let nan := (cs.filter fun c => c.nanOut).length
  let s1 := (s.incWrap ARR_SATCNT.SAT_TOTAL a sat).incSat ARR_NUMCNT.NAN_OUT a nan
  let s2 :=
    if !s1.fb ARR_SATCFG.EN a then s1
    else
      let v := s1.f ARR_SATWIN.WIN_VALUES a + cs.length
      let w := s1.f ARR_SATWIN.WIN_SAT a + sat
      let lg := s1.f ARR_SATCFG.WIN_LOG2 a
      if v < 2 ^ lg then (s1.setF ARR_SATWIN.WIN_VALUES a v).setF ARR_SATWIN.WIN_SAT a w
      else
        let s' := (s1.setF ARR_SATWIN.WIN_VALUES a 0).setF ARR_SATWIN.WIN_SAT a 0
        if s1.f ARR_SATCFG.THRESH a * 2 ^ lg < w * 2 ^ 16 then
          ((s'.setF ARR_NUMSTAT.DRIFT a 1).incSat ARR_SATCNT.DRIFT_EVENTS a 1).mgrIrq 3 a
        else s'
  match (s2.arr a).job with
  | some r => if sat = 0 then s2 else s2.cflag r.job 4
  | none => s2

/-- Fold bytes into the write-back signature. -/
def State.foldSig (s : State) (a : Nat) (bs : List Byte) : State :=
  s.modArr a fun x => { x with sigCrc := crc32Fold x.sigCrc bs }

/-- One row of a DRAIN: its codes and scale byte; the history, the counts. -/
def State.drainOne (s : State) (a ofmt : Nat) (bias : List Nat) (row : Nat) : List Nat × Byte × State :=
  let x := s.arr a
  let vs := s.drainRow a bias row
  let e := rowScale ofmt x.hist x.post.headroom x.post.seed
  let cs := vs.map fun v => convert ofmt (ofF32 v) e
  let s1 := (s.modArr a fun x => { x with hist := histAdd x.hist x.post.windowM1 (rowMag vs) }).countRow a cs
  (cs.map fun c => c.code, BitVec.ofNat 8 (uint 8 e), s1)

/-- The rows of a DRAIN stored plainly: data, then the scale byte, rows ascending. -/
def State.drainPlain (s : State) (a ofmt dst stride scd row0 : Nat) (bias : List Nat) (rows : Nat) : State :=
  (List.range rows).foldl (fun s i =>
    let (cs, e, s1) := s.drainOne a ofmt bias (row0 + i)
    let bs := packElems ofmt cs
    ((s1.mouldWrite a (rowAddr ofmt dst stride i) bs).mouldWrite a (scd + i) [e]).foldSig a (bs ++ [e])) s

/-- The rows of a DRAIN as one compressed stream (R86); the length of the stream. -/
def State.drainZc (s : State) (a ofmt row0 : Nat) (bias : List Nat) (rows : Nat) :
    List Byte × List Byte × State :=
  let r := (List.range rows).foldl (fun (acc : List Nat × List Byte × State) i =>
    let (cs, e, s1) := acc.2.2.drainOne a ofmt bias (row0 + i)
    (acc.1 ++ cs, acc.2.1 ++ [e], s1)) ([], [], s)
  (zcStream ofmt r.1, r.2.1, r.2.2)

/-- The ranges that a plain DRAIN writes: each row, and the scale bytes. -/
def drainRanges (ofmt dst stride scd rows : Nat) : List (Nat × Nat) :=
  ((List.range rows).map fun i => (rowAddr ofmt dst stride i, rowBytes ofmt 64)) ++ [(scd, rows)]

/-- DRAIN at issue. The range of a zero-compressed DRAIN is that of the stream it makes (DESIGN CHOICE, log entry 163:
R51 does not say whether the largest stream counts). -/
def State.issueDrain (s : State) (a w : Nat) : State :=
  let dst : Int := (bits w 111 90 : Int) + 64 * s.loopInc a 51 36
  let row0 := bits w 89 80
  let rows := bits w 79 70 + 1
  let stride := bits w 69 54
  let ofmt := bits w 53 50
  let scd := bits w 49 28
  let post := (s.arr a).post
  let dataEnd := rowsEnd ofmt stride rows
  if 11 < ofmt || stride == 0 || bits w 111 90 % 64 != 0 || 1023 < row0 + (rows - 1)
      || !inMould scd rows || (!post.zc && !inMould dst dataEnd) || !inMould dst 0
      || (post.zc && (!zcFmt ofmt || stride != rowUnits ofmt 64 || rows % (if zcElem ofmt = 1 then 4 else 2) != 0))
  then s.illegal a
  else
    let (bb, s1) := if post.biasEn then s.mouldRead a post.biasAddr 256 none else ([], s)
    let bias := (List.range 64).map fun c => leAt bb (4 * c) 4
    let d := dst.toNat
    if post.zc then
      let (zs, es, s2) := s1.drainZc a ofmt row0 bias rows
      if !inMould dst zs.length then s.illegal a
      else
        ((((s2.mouldWrite a d zs).mouldWrite a scd es).foldSig a (zs ++ es)).addAsync a w
          { serial := 0, kind := .drain, evt := none, rows := [(d, zs.length), (scd, rows)] }).nextCmd a
    else
      ((s1.drainPlain a ofmt d stride scd row0 bias rows).addAsync a w
        { serial := 0, kind := .drain, evt := none, rows := drainRanges ofmt d stride scd rows }).nextCmd a

/-! ## POST -/

/-- POST at issue (R51, R79, R80). -/
def State.issuePost (s : State) (a w : Nat) : State :=
  let seed := sint 8 (bits w 94 87)
  if 3 < bits w 111 108 || seed < -64 || 63 < seed
      || (bit w 86 && !inMould (bits w 85 64) 256) then s.illegal a
  else
    (s.modArr a fun x =>
      { x with
        post := { act := bits w 111 108, slope := bits w 107 104, zc := bit w 103, headroom := bits w 102 99,
                  windowM1 := bits w 98 95, seed := seed, biasEn := bit w 86, biasAddr := bits w 85 64 }
        hist := [] }).nextCmd a

/-! ## XFER (R57, R61, R99, R101, R132, R234) -/

/-- The slot of a flask holds a key that allows a use (R233). -/
def State.slotAllows (s : State) (f slot usageBit : Nat) : Bool :=
  match NMap.find (s.flask f).slots slot with
  | some k => s.sys.trust.keys.any fun p => p.tenant == k.tenant && p.pol.keyId == k.keyId && bit p.pol.usage usageBit
  | none => false

/-- XFER at issue; a ninth outstanding XFER holds issue. The ranges that it is to write are noted for R36. A test bar's
program moves nothing through its XFERs: the image's data is loaded for it (DESIGN CHOICE, log entry 169). -/
def State.issueXfer (s : State) (a w : Nat) : State :=
  let x := s.arr a
  match x.job with
  | none => s
  | some r =>
    let inc := s.loopInc a 35 20
    let dir := bit w 111
    let base := bits w 110 109
    let off : Int := sint 48 (bits w 108 61) + 64 * inc
    let maddr : Int := (bits w 60 39 : Int) + 64 * inc
    let len := (bits w 38 23 + 1) * 64
    let key := bits w 22 18
    let jb := s.job r.job
    let cv := (jb.map fun j => j.conv).getD fun _ => 0
    let isConv := (jb.any fun j => j.opcode == 2)
    let form := if isConv && !dir && base == 0 then 1 else if isConv && dir && base == 2 then 2 else 0
    let baseA := match base with
      | 0 => tdAct r.desc
      | 1 => tdWgt r.desc
      | _ => tdOut r.desc
    let use := if dir then 2 else 0
    if base == 3 || bits w 108 61 % 64 != 0 || bits w 60 39 % 64 != 0 || !inMould maddr len
        || (form == 1 && (winBytes cv r.desc != len || off < 0))
        || (form == 2 && (scatBytes cv r.desc != len || off < 0))
        || (key != 0 && (off % 4096 != 0 || maddr % 4096 != 0 || len % 4096 != 0
              || !s.slotAllows r.flask key use)) then s.illegal a
    else if 8 ≤ (x.async.filter fun o => o.kind == .xfer).length then s
    else
      let m := maddr.toNat
      let va := ((baseA : Int) + off) % (2 ^ 64 : Nat) |>.toNat
      let arg := (off / 64).toNat
      let sup := match r.role with
        | .recast => dir
        | .reexec _ => true
        | .testBar _ => true
        | _ => false
      let (bs, s1) := if dir then s.mouldRead a m len none else ([], s)
      let folded := if form = 2 then
          ((List.range (tdMExt r.desc)).flatMap fun i => scatPixel cv r.desc arg bs i).flatMap fun p => p.2
        else bs
      let op : AsyncOp := { serial := 0, kind := .xfer, evt := none, lo := m, len := if dir || sup then 0 else len,
                            toMem := dir, suppressed := sup }
      let serial := x.serial
      let s2 := (s1.addAsync a w op).modArr a fun x =>
        { x with
          outCrc := if dir then crc32Fold x.outCrc folded else x.outCrc
          outs := if dir then x.outs ++ [{ va := va, maddr := m, len := len, key := key, form := form, arg := arg }]
                  else x.outs
          fills := if dir then x.fills else (serial, m, len) :: x.fills }
      let dest := if form = 2 then
          ((List.range (tdMExt r.desc)).flatMap fun i => scatPixel cv r.desc arg bs i).map fun p => (p.1, p.2.length)
        else (va, len) :: if key = 0 then [] else [(va + len, len / 128)]
      let s3 := if sup then s2
        else (if dir then s2.modJob r.job fun j => { j with outs := j.outs ++ dest } else s2).addMove
          { id := 0, kind := .pour a serial, part := r.flask, inst := r.inst, label := s2.labelOf r.job,
            toMem := dir, va := va, maddr := m, len := len, key := key, form := form, arg := arg,
            data := bs, job := r.job, tile := r.tile }
      s3.nextCmd a

end Sys2Proof.Machine
end

