-- ==== Sys2Proof/Machine/Ladle.lean ====
section
/-! DEFINITION. Ladle moves in 4 KB pieces (R206, R207), the encrypted units of R209, R233 and R234, and what
each kind of move does with a piece. -/

namespace Sys2Proof.Machine

/-- Bytes of a piece. -/
def pieceBytes : Nat := 4096

/-! ## Encrypted units (R234) -/

/-- The key in a slot of a flask. -/
def State.slotKey (s : State) (f slot : Nat) : Option KeySlot := NMap.find (s.flask f).slots slot

/-- A key that a tenant has delivered, by the tenant's own name of it (R231). -/
def State.heldKey (s : State) (tenant keyId : Nat) : Option HeldKey :=
  s.sys.trust.keys.find? fun k => k.tenant == tenant && k.pol.keyId == keyId

/-- The policy of a key. -/
def State.policy (s : State) (tenant keyId : Nat) : Option KeyPolicy := (s.heldKey tenant keyId).map fun k => k.pol

/-- The key material of a slot. -/
def State.slotMaterial (s : State) (f slot : Nat) : Option Nat :=
  match s.slotKey f slot with
  | some k => (s.policy k.tenant k.keyId).map fun p => p.key
  | none => none

/-- A unit is encrypted: SALT and the slot's count form the nonce, and the count advances; none when the slot
is empty or its count would wrap. The result is the ciphertext and its record. -/
def State.sealUnit (s : State) (f slot : Nat) (plain : List Byte) : Option (List Byte × List Byte) × State :=
  match s.slotKey f slot with
  | none => (none, s)
  | some k =>
    match s.policy k.tenant k.keyId with
    | none => (none, s)
    | some p =>
      if 2 ^ 64 - 1 ≤ k.count then (none, s)
      else
        let nonceBytes := toLE 4 p.salt ++ toLE 8 k.count
        let nonce := leNat nonceBytes
        let ct := Config.seal p.key nonce plain
        let rec_ := nonceBytes ++ toLE 4 0 ++ toLE 16 (Config.sealTag p.key nonce ct)
        (some (padTo pieceBytes (ct.take pieceBytes), rec_),
         s.modFlask f fun x => { x with slots := NMap.insert x.slots slot { k with count := k.count + 1 } })

/-- The plaintext of a ciphertext unit and its record; none when it does not authenticate. -/
def State.openUnit (s : State) (f slot : Nat) (ct rec_ : List Byte) : Option (List Byte) :=
  match s.slotMaterial f slot with
  | none => none
  | some k => (Config.unseal k (leAt rec_ 0 12) ct (leAt rec_ 16 16)).map fun p => padTo pieceBytes (p.take pieceBytes)

/-! ## Pieces -/

/-- The status a refused piece gives. -/
def MRes.fail (r : MRes) : Nat := r.status

/-- The bytes that a piece of a DIR 0b move brings from memory. -/
def State.pieceIn (s : State) (m : Move) (n : Nat) : Except Nat (List Byte) × State :=
  if m.key != 0 then
    match s.slotMaterial m.part m.key with
    | none => (.error stJobFault, s)
    | some _ =>
      match instRead s m.inst (m.va + m.done) n with
      | (.ok ct, s1) =>
        match instRead s1 m.inst (m.va + m.len + 32 * (m.done / pieceBytes)) 32 with
        | (.ok rc, s2) =>
          match s2.openUnit m.part m.key ct rc with
          | some p => (.ok p, s2)
          | none => (.error stInteg, s2)
        | (e, s2) => (.error e.status, s2)
      | (e, s1) => (.error e.status, s1)
  else if m.form = 1 then
    match s.job m.job with
    | none => (.error stJobFault, s)
    | some jb =>
      match windowBytes jb.conv (jb.tiles.getD m.tile []) m.inst m.arg s with
      | (.ok bs, s1) => (.ok ((bs.drop m.done).take n), s1)
      | (.error e, s1) => (.error e.status, s1)
  else
    match instRead s m.inst (m.va + m.done) n with
    | (.ok bs, s1) => (.ok bs, s1)
    | (e, s1) => (.error e.status, s1)

/-- A piece of a DIR 1b move goes to memory; a scatter transfer writes everything with its last piece. -/
def State.pieceOut (s : State) (m : Move) (n : Nat) : Nat × State :=
  let bs := (m.data.drop m.done).take n
  if m.key != 0 then
    match s.sealUnit m.part m.key bs with
    | (none, s1) => (stJobFault, s1)
    | (some (ct, rc), s1) =>
      match instWrite s1 m.inst (m.va + m.done) ct with
      | (.ok _, s2) =>
        match instWrite s2 m.inst (m.va + m.len + 32 * (m.done / pieceBytes)) rc with
        | (r, s3) => (r.status, s3)
      | (r, s2) => (r.status, s2)
  else if m.form = 2 then
    if m.done + n < m.len then (0, s)
    else
      match s.job m.job with
      | none => (stJobFault, s)
      | some jb =>
        match scatterWrite jb.conv (jb.tiles.getD m.tile []) m.inst m.arg m.data s with
        | (r, s1) => (r.status, s1)
  else
    match instWrite s m.inst (m.va + m.done) bs with
    | (r, s1) => (r.status, s1)

/-- A move has gone on by a piece; a complete move leaves, and its XFER has finished; otherwise its ladle may be wanted
for a copy of the hardware. -/
def State.pieceOn (s : State) (m : Move) (n : Nat) : State :=
  let s1 := s.modMove m.id fun x => { x with done := x.done + n }
  let s2 := match m.kind with
    | .pour a k => s1.modArr a fun x =>
        { x with async := x.async.map fun (o : AsyncOp) =>
            if o.serial = k then
              { o with written := o.written + n, finished := o.finished || decide (m.len ≤ m.done + n) }
            else o }
    | _ => s1
  if m.len ≤ m.done + n then s2.dropMove m else s2.pieceBoundary m

/-- Change what the first execution of the task that a core runs holds. -/
def State.modFirst (s : State) (c : Nat) (g : FirstRun → FirstRun) : State :=
  s.modRt c fun x =>
    { x with firsts := x.firsts.map fun r => if x.task.any fun k => k.1 == r.task then g r else r }

/-- R145: a window of an input log could not be read: the task does not start, and its comparison fails (DESIGN CHOICE,
log entry 172). -/
def State.logLost (s : State) (c : Nat) : State :=
  (s.each (s.mem.moves.filter fun m => m.kind == .inputLog c) State.dropMove).rtFail ((s.rt c).flask.getD 0) [c]

/-- R148: the save, the load or the restoring of an array's test bar is complete, and its next step begins. -/
def State.barStep (s : State) (a : Nat) (k : MoveKind) : State :=
  match k with
  | .barSave _ =>
    (s.modArr a fun x => { x with barPhase := .load }).barMove a (.barLoad a) false
      (s.tbBase + 0x1000000 + (s.arr a).barPair * barBytes) []
  | .barLoad _ => s.barProgram a
  | _ => s.modArr a fun x => { x with barPhase := .over }

/-- A piece of a test bar's move; a piece that memory refuses is left out (DESIGN CHOICE, log entry 169). -/
def State.barPiece (s : State) (m : Move) (a n : Nat) : State :=
  let s1 :=
    if m.toMem then (physWrite s m.part (m.va + m.done) ((m.data.drop m.done).take n)).2
    else
      match physRead s m.part (m.va + m.done) n with
      | (.ok bs, s1) => s1.mouldWrite a (m.maddr + m.done) bs
      | (_, s1) => s1
  let s2 := s1.pieceOn m n
  if m.len ≤ m.done + n then s2.barStep a m.kind else s2

/-- R207: a ladle finishes a piece of a move. -/
def State.ladlePiece (s : State) (m : Move) : State :=
  let n := min pieceBytes (m.len - m.done)
  match m.kind with
  | .pour a k =>
    let live := (s.arr a).async.any (fun o => o.serial == k) && s.f ARR_STATUS.STATE a != 3
    if m.toMem then
      match s.pieceOut m n with
      | (0, s1) => s1.pieceOn m n
      | (st, s1) => if live then (s1.dropMove m).arrFault a none st else s1.pieceOn m n
    else
      match s.pieceIn m n with
      | (.ok bs, s1) => ((if live then s1.mouldWrite a (m.maddr + m.done) bs else s1).pieceOn m n)
      | (.error st, s1) => if live then (s1.dropMove m).arrFault a none st else s1.pieceOn m n
  | .spareImage sp =>
    match physRead s m.part (m.va + m.done) n with
    | (.ok bs, s1) => (s1.mouldWrite sp (m.maddr + m.done) bs).pieceOn m n
    | (_, s1) => s1.pieceOn m n
  | .release _ =>
    match s.pieceOut m n with
    | (0, s1) => s1.pieceOn m n
    | (st, s1) => (s1.dropMove m).endJob m.job st (some m.tile)
  | .inputLog c =>
    match instRead s m.inst (m.va + m.done) n with
    | (.ok bs, s1) => (s1.modFirst c fun x => { x with log := putMould x.log (m.maddr + m.done) bs }).pieceOn m n
    | (_, s1) => s1.logLost c
  | .barSave a => s.barPiece m a n
  | .barLoad a => s.barPiece m a n
  | .barRestore a => s.barPiece m a n
  | .retire _ => s.pieceOn m n

end Sys2Proof.Machine
end

