-- ==== Sys2Proof/Machine/Tiles.lean ====
section
/-! DEFINITION. Tile queues (R64), lending (R178), the loading of programs (R59) and the end of an array job
(R58, R67). -/

namespace Sys2Proof.Machine

/-! ## The tile queue (R64) -/

/-- The order of R64: the display queue's tiles first (R258), then PRIO, then arrival, then TILE_INDEX. -/
def tileBefore (x y : TileQ) : Bool :=
  if x.urgent != y.urgent then x.urgent
  else if x.prio != y.prio then decide (y.prio < x.prio)
  else if x.order != y.order then decide (x.order < y.order)
  else decide (x.tile ≤ y.tile)

/-- Insert a tile in order. -/
def tileInsert (t : TileQ) : List TileQ → List TileQ
  | [] => [t]
  | y :: ys => if tileBefore y t then y :: tileInsert t ys else t :: y :: ys

/-- A flask takes part in lending and has a tile that any array may run (R178). -/
def State.lendEligible (s : State) (f : Nat) : Bool :=
  !s.timed f && s.f SYS_FLCTRL.STATE f == 3 && decide (0 < s.f SYS_FLSHARE.SHARE f)
    && (s.flask f).tiles.any fun t => t.array == 0xFF

/-- The smallest V among eligible flasks. -/
def State.minV (s : State) : Option Nat :=
  ((List.range 8).filter fun f => s.lendEligible f).foldl
    (fun acc f => match acc with
      | none => some (s.flask f).vtime
      | some v => some (min v (s.flask f).vtime)) none

/-- A job's tiles enter the tile queue, in whose order they arrive (DESIGN CHOICE, log entry 170: the manual does not
say what the arrival of a job is); a flask that gains an eligible tile after holding none has its V raised
to the smallest V of the flasks then eligible. -/
def State.queueTiles (s : State) (f j prio : Nat) (tiles : List (List Nat)) (urgent : Bool) : State :=
  let had := s.lendEligible f
  let v := s.minV
  let s1 := s.modFlask f fun x =>
    { x with
      tiles := ((List.range tiles.length).zip tiles).foldl (fun q p => tileInsert
        { job := j, tile := p.1, prio := prio, order := x.order, array := tdArray p.2, urgent := urgent } q) x.tiles
      order := x.order + 1 }
  if !had && s1.lendEligible f then
    s1.modFlask f fun x => { x with vtime := max x.vtime (v.getD 0) }
  else s1

/-- The flask that a lent array goes to at a slice boundary: smallest V, ties to the lowest number. -/
def State.sliceFlask (s : State) : Option Nat :=
  ((List.range 8).filter fun f => s.lendEligible f).foldl
    (fun acc f => match acc with
      | none => some f
      | some g => if (s.flask f).vtime < (s.flask g).vtime then some f else some g) none

/-- The first tile of a flask's queue that an array may take. -/
def State.firstTile (s : State) (f l : Nat) (lent : Bool) : Option TileQ :=
  let only := (s.flask f).level == 2 && (s.flask f).tiles.any fun t => t.urgent
  (s.flask f).tiles.find? fun t => (t.array == 0xFF || (!lent && t.array == l)) && (!only || t.urgent)

/-- A tile is given to an array: it waits for its program to be loaded. -/
def State.giveTile (s : State) (a f : Nat) (t : TileQ) (lent : Bool) : State :=
  match s.job t.job with
  | none => s
  | some x =>
    let rj : RunJob := { job := t.job, tile := t.tile, desc := x.tiles.getD t.tile [], role := .single,
                         startNs := s.now, flask := f, inst := x.inst, lent := lent }
    (s.modFlask f fun q => { q with tiles := q.tiles.filter fun y => !(y.job == t.job && y.tile == t.tile) }).modArr a
      fun y => { y with nextJob := some rj }

/-- An array is free to take a tile. A NEXT program that software made valid on an idle array stays in NEXT and keeps
tiles away until a boundary passes (DESIGN CHOICE, log entry 171). -/
def State.arrFree (s : State) (a : Nat) : Bool :=
  s.f ARR_STATUS.STATE a == 0 && (s.arr a).job.isNone && (s.arr a).nextJob.isNone && !(s.arr a).copying
    && !(s.arr a).testBarDue && !s.fb ARR_PROG.NEXT_VALID a && !(s.arr a).clearing

/-- A tile that an array was to take and whose program is not yet loaded goes back to its flask's queue, at the head of its
PRIO (DESIGN CHOICE, log entry 186: the manual does not say where). -/
def State.giveBack (s : State) (a : Nat) : State :=
  let x := s.arr a
  match x.nextJob with
  | some r =>
    if s.fb ARR_PROG.NEXT_VALID a || x.job.isSome then s
    else
      let t : TileQ := { job := r.job, tile := r.tile, prio := ((s.job r.job).map Job.prio).getD 0, order := 0,
                         array := tdArray r.desc, urgent := (s.job r.job).any s.urgent }
      (s.modFlask r.flask fun q => { q with tiles := tileInsert t q.tiles }).modArr a fun y =>
        { y with nextJob := none, slice := none }
  | none => s

/-- R64, R178: a free array takes the first eligible tile; a lent array first takes its slice, and shakeout
clears it when the flask changes. SHARE and SLICE_US hold for the slice as they stand at its start (R162). -/
def State.dispatchTile (s : State) (a : Nat) : State :=
  if !s.arrFree a then s
  else
    let f := s.f ARR_STATUS.FLASK a
    if f = 15 then
      match (s.arr a).slice with
      | some (g, _) =>
        match s.firstTile g 0xFF true with
        | some t => s.giveTile a g t true
        | none => s.modArr a fun x => { x with slice := none, lastFlask := some g }
      | none =>
        match s.sliceFlask with
        | none => s
        | some g =>
          let s1 := if (s.arr a).lastFlask = some g then s else s.shakeArray a
          let s2 := s1.modArr a fun x =>
            { x with slice := some (g, 0), lastFlask := some g
                     sliceShare := s.f SYS_FLSHARE.SHARE g, sliceUs := s.f SYS_FLSHARE.SLICE_US g }
          match s2.firstTile g 0xFF true with
          | some t => s2.giveTile a g t true
          | none => s2
    else if s.timed f then s
    else
      match s.firstTile f (s.f ARR_STATUS.LOGICAL a) false with
      | some t => s.giveTile a f t false
      | none => s

/-! ## Program loading (R59) -/

/-- The commands of a program image, sixteen bytes each, little-endian. -/
def programWords (bs : List Byte) : List Nat := (pieces 16 (bs.length + 1) bs).map leNat

/-- R59: the tile's program is copied into the half that CUR_HALF does not name, while NEXT_VALID is 0b, and
NEXT_VALID is set; an idle array takes it at once. A refused read is a job fault (R57). -/
def State.loadProgram (s : State) (a : Nat) : State :=
  match (s.arr a).nextJob with
  | none => s
  | some r =>
    if s.fb ARR_PROG.NEXT_VALID a || !s.arrServing a then s
    else
      let len := tdProgLen r.desc
      match instRead s r.inst (tdProg r.desc) len with
      | (.ok bs, s1) =>
        let half := 1 - s1.f ARR_PROG.CUR_HALF a
        let s2 := (((s1.modArr a fun x =>
            { x with store := putStore x.store (2048 * half) (programWords bs) }).setF
          ARR_PROG.NEXT_HALF a half).setF ARR_PROG.NEXT_LEN a (len / 16)).setF ARR_PROG.NEXT_VALID a 1
        if s2.f ARR_STATUS.STATE a = 0 && (s2.arr a).job.isNone && !(s2.arr a).testBarDue then s2.takeProgram a else s2
      | (e, s1) =>
        match r.role with
        | .single => s1.faultJob r.job e.status r.tile
        | _ => (s1.modArr a fun x => { x with nextJob := none }).pairEnd false a none (some (e.status, 0))

/-! ## The end of an array job (R58, R67, R179) -/

/-- Busy time and EST_NS of an array job are added to the progress monitor of a timed flask (R67). -/
def State.monitorRun (s : State) (a : Nat) : State :=
  match (s.arr a).job with
  | some r =>
    if s.timed r.flask then
      s.modArr a fun x =>
        { x with estSum := x.estSum + tdEst r.desc, busySum := x.busySum + (s.since r.startNs - x.pauseNs) }
    else s
  | none => s

/-- R178: at an END of a lent array the slice ends when SLICE_US has been served or the flask has no eligible
tile. -/
def State.sliceEnd (s : State) (a : Nat) : State :=
  match (s.arr a).slice with
  | some (g, ns) =>
    if (s.arr a).sliceUs * 1000 ≤ ns || !s.lendEligible g then
      s.modArr a fun x => { x with slice := none, lastFlask := some g }
    else s
  | none => s

/-- R148: a run of a test bar ends. After the identity run comes the transformed one; then the mould range is restored. -/
def State.endBarRun (s : State) (a : Nat) (r : RunJob) (sig : List (Nat × Nat) × Nat) : State :=
  let s1 := s.modArr a fun x => { x with barRuns := x.barRuns ++ [some sig] }
  match r.role with
  | .testBar false => s1.barRun a r.desc true
  | _ => s1.barBack a

/-- R58: the array job of an array ends: TILES counts it, its time is charged, its final output signature is
emitted, and it passes its boundary or holds for its pair. `flip` is a hardware fault's mark on the final
signature, `dup` a fault of one comparator copy of the flask. -/
def State.endRun (s : State) (a flip : Nat) (dup : Bool) : State :=
  match (s.arr a).job with
  | none => s
  | some r =>
    let final := Nat.xor (crc32Final (s.arr a).outCrc) flip
    if r.bar then s.endBarRun a r ((s.arr a).sigs, final) else
    let s1 := ((s.monitorRun a).chargeRun a).incWrap ARR_PERF.TILES a 1
    let s2 := s1.modArr a fun x => { x with held := true }
    let sig := some ((s2.arr a).sigs, final)
    match r.role with
    | .primary => (s2.plantFault r.flask dup).pairEnd false a sig none
    | .recast => (s2.plantFault r.flask dup).pairEnd false a sig none
    | .reexec _ => (s2.plantFault r.flask dup).reexecEnd false a sig
    | _ =>
      let total := ((s2.job r.job).map fun x => x.tiles.length).getD 0
      ((s2.finishPart r.job r.tile total).sliceEnd a).passBoundary a

end Sys2Proof.Machine
end

