-- ==== Sys2Proof/Machine/Validate.lean ====
section
/-! DEFINITION. Validation of a job (R35, R374): the descriptor, the operator record and the tile list of each
class, in the order that R374 gives to MALFORMED and UNSUPPORTED. -/

namespace Sys2Proof.Machine

/-! ## Reads with the offset of the first error -/

/-- Read the pieces of a range; an error gives its status and its byte offset from `base`. -/
def readOffL (inst base : Nat) : List (Nat × Nat) → State → Except (Nat × Nat) (List Byte) × State
  | [], s => (.ok [], s)
  | (a, n) :: cs, s =>
    match instRead s inst a n with
    | (.ok bs, s1) =>
      match readOffL inst base cs s1 with
      | (.ok bs', s2) => (.ok (bs ++ bs'), s2)
      | r => r
    | (e, s1) => (.error (e.status, a - base), s1)

/-- Read a range of an instance; an error gives its status and byte offset. -/
def readOff (s : State) (inst va n : Nat) : Except (Nat × Nat) (List Byte) × State :=
  readOffL inst va (chunksOf va n) s

/-! ## What the flask and the instance offer -/

/-- Vector engines a flask was created with (SYS_FLRES). -/
def State.flaskVecs (s : State) (f : Nat) : Nat :=
  ((List.range 16).filter fun i => bit (s.f SYS_FLRES.VECS f) i).length

/-- R107: the device context of an instance has a first stage. -/
def State.hasStage1 (s : State) (inst : Nat) : Bool × State :=
  match bits (s.r .dtuIommu 2) 3 0 with
  | 0 => (false, s)
  | 1 => (false, s)
  | _ =>
    match s.devCtx (s.instFlask inst) inst with
    | (.ok dc, s1) => (dcSMode dc != 0, s1)
    | (.error _, s1) => (false, s1)

/-- One of the four attention classes. -/
def isAttn (op : Nat) : Bool := 4 ≤ op && op ≤ 7

/-- The classes that a timed flask binds (R169): TENSOR, CONV, VECTOR, RUNNER. -/
def isBound (op : Nat) : Bool := op == 1 || op == 2 || op == 3 || op == 8

/-- A CONV job in the tap form (R91). -/
def isTap (r : ConvRec) : Bool := cvOp r == 0 && cvGroups r == 1

/-! ## The descriptor -/

/-- Reserved inline fields of a class (XFER, SEQ_ADMIT). -/
def inlineBad (x : Job) : Bool :=
  match x.opcode with
  | 9 => bits (x.inl 0) 52 0 != 0 || bits (x.inl 3) 31 0 != 0 || x.inl 5 != 0
  | 6 => bits (x.inl 0) 25 24 != 0 || bits (x.inl 0) 4 0 != 0 || bits (x.inl 2) 31 0 != 0
  | _ => false

/-- R374: a SEQNO other than the ring index, or a reserved byte or flag that is set, is MALFORMED before
anything else. -/
def descBad (x : Job) : Bool :=
  x.seqno != x.ringIdx % 2 ^ 32 || bits (x.w 8) 47 32 != 0 || bits x.flags 15 5 != 0 || inlineBad x

/-- Length of the operator record of a class; 0 where it has none. -/
def paramSize : Nat → Nat
  | 2 => 104
  | 3 => 64
  | 4 => 64
  | 5 => 64
  | 8 => 128
  | 10 => 64
  | _ => 0

/-- Classes whose PARAM_LEN the manual fixes. -/
def paramFixed (op : Nat) : Bool := op == 2 || op == 3 || isAttn op && op != 7 || (8 ≤ op && op ≤ 10)

/-! ## UNSUPPORTED (R34, R92, R107, R108, R169, R208, R250, R261) -/

/-- Format codes that a record offers. -/
def inFmtOk (f : Nat) : Bool := f == 1 || f == 2 || (6 ≤ f && f ≤ 10)
def outFmtOk (f : Nat) : Bool := f == 1 || f == 2 || (6 ≤ f && f ≤ 11)

/-- A code or option of the job that its class answers with UNSUPPORTED. A TENSOR job without a tile list
names no program, and the manual gives neither its record nor the cutting of its tiles (log entry 23). -/
def optionBad (x : Job) : Bool :=
  match x.opcode with
  | 1 => x.tileAddr == 0 && x.tileCount == 0
  | 2 => x.paramLen == 104 &&
      (!inFmtOk (cvInFmt x.conv) || 10 < cvWFmt x.conv || !outFmtOk (cvOutFmt x.conv) || 4 < cvOp x.conv)
  | 6 => !bit (x.inl 0) 6 && bits (x.inl 0) 27 26 == 3
  | 4 => x.paramLen == 64 && attnFmt
  | 5 => x.paramLen == 64 && attnFmt
  | 9 => 1 < bits (x.inl 0) 63 60
  | 10 => x.paramLen == 64 && ((bits (x.pw 5) 15 12 != 0 && bits (x.pw 5) 15 12 != 2) || bits (x.pw 5) 11 10 == 3)
  | _ => false
where
  attnFmt : Bool :=
    !(8 ≤ bits (x.pw 0) 53 50 && bits (x.pw 0) 53 50 ≤ 10)
      || !(bits (x.pw 0) 49 46 == 8 || bits (x.pw 0) 49 46 == 9 || bits (x.pw 0) 49 46 == 11)

/-- R374: the job completes with UNSUPPORTED. -/
def State.unsupported (s : State) (x : Job) : Bool × State :=
  let f := s.jobFlask x
  let op := x.opcode
  if 11 < op then (true, s)
  else if op == 8 && !s.fb SYS_FLRES.RUNNER f then (true, s)
  else if s.timed f && (isAttn op || op == 10) then (true, s)
  else if optionBad x then (true, s)
  else if isAttn op then
    match s.hasStage1 x.inst with
    | (b, s1) => (!b, s1)
  else (false, s)

/-! ## MALFORMED: the records -/

/-- Two byte ranges share a byte. -/
def overlaps (a n b m : Nat) : Bool := decide (a < b + m) && decide (b < a + n)

/-- Extent of a feature map (R95). -/
def fmapBytes (blk fmt n C H W : Nat) : Nat := n * cdiv C blk * H * W * blk * fmtBytes fmt

/-- Extent of the output of a CONV job: a feature map, or the expanded buffer with its scale bytes (R102). -/
def cvOutBytes (r : ConvRec) : Nat :=
  if cvOp r = 4 then
    let q := cvBatch r * cvOutH r * cvOutW r
    let k := cvKH r * cvKW r * cvCP r
    q * k * passUnits r * 64 + k * q
  else fmapBytes (cvBlk r) (cvOutFmt r) (cvBatch r) (cvOutC r) (cvOutH r) (cvOutW r)

/-- R93: an output size agrees with the input, padding, filter and stride. -/
def outSizeOk (out inp padA padB dil k str : Nat) : Bool :=
  decide ((out : Int) = ((inp + padA + padB : Nat) - (dil * (k - 1) : Nat) - 1 : Int).fdiv (str : Int) + 1)

/-- A field lies in 1 to 15. -/
def in15 (x : Nat) : Bool := 1 ≤ x && x ≤ 15

/-- R92, R93: the operator record of a CONV job does not pass. -/
def convBad (r : ConvRec) : Bool :=
  let vec := !isTap r
  let g := cvGroups r
  cvInH r == 0 || cvInW r == 0 || cvInC r == 0 || cvOutC r == 0 || cvBatch r == 0
  || !in15 (cvKH r) || !in15 (cvKW r) || !in15 (cvStrY r) || !in15 (cvStrX r) || !in15 (cvDilY r) || !in15 (cvDilX r)
  || !outSizeOk (cvOutH r) (cvInH r) (cvPadT r) (cvPadB r) (cvDilY r) (cvKH r) (cvStrY r)
  || !outSizeOk (cvOutW r) (cvInW r) (cvPadL r) (cvPadR r) (cvDilX r) (cvKW r) (cvStrX r)
  || cvDilY r * (cvKH r - 1) < max (cvPadT r) (cvPadB r)
  || cvDilX r * (cvKW r - 1) < max (cvPadL r) (cvPadR r)
  || g == 0 || cvInC r % g != 0 || cvOutC r % g != 0
  || (1 ≤ cvOp r && cvOp r ≤ 3 && (g != cvInC r || g != cvOutC r || cvBiasEn r))
  || (vec && (64 < cvInC r / g || 64 < cvOutC r / g || cvSparse r || cvZcIn r || 3 < cvAct r
      || cvSeed r < -64 || 63 < cvSeed r))
  || (!vec && (r 10 != 0 || r 11 != 0))
  || (cvZcIn r && cvInFmt r == 10)
  || overlaps (cvOutAddr r) (cvOutBytes r) (cvInAddr r)
      (fmapBytes (cvBlk r) (cvInFmt r) (cvBatch r) (cvInC r) (cvInH r) (cvInW r))
  || bits (r 3) 44 0 != 0 || bits (r 10) 38 0 != 0 || r 12 != 0

/-- R243: the operator record of a VECTOR job does not pass. -/
def State.vectorBad (s : State) (x : Job) : Bool :=
  let f := s.jobFlask x
  x.pw 0 % 4 != 0 || bits (x.pw 2) 63 32 == 0
  || bits (x.pw 2) 31 24 == 0 || s.flaskVecs f < bits (x.pw 2) 31 24
  || 192 < bits (x.pw 2) 23 14 || bits (x.pw 2) 13 0 != 0 || x.pw 3 % 64 != 0
  || bits (x.pw 4) 31 0 != 0 || x.pw 5 != 0 || x.pw 6 != 0 || x.pw 7 != 0
  || (s.timed f && bits (x.pw 2) 63 32 != x.tileCount)

/-- R250: the operator record of a RENDER job does not pass. -/
def renderBad (x : Job) : Bool :=
  bits (x.pw 1) 63 48 == 0 || bits (x.pw 1) 40 0 != 0
  || (3 < bits (x.pw 1) 47 44 && bits (x.pw 1) 47 44 != 15)
  || x.pw 4 % 256 != 0
  || bits (x.pw 5) 63 48 == 0 || 4096 < bits (x.pw 5) 63 48
  || bits (x.pw 5) 47 32 == 0 || 4096 < bits (x.pw 5) 47 32 || bits (x.pw 5) 9 0 != 0

/-- R262: the operator record of a RUNNER job does not pass. -/
def runnerBad (x : Job) : Bool :=
  let op := bits (x.pw 0) 63 60
  let lv := bits (x.pw 0) 55 52
  let cnt := bits (x.pw 0) 31 0
  let leaf := bits (x.pw 2) 31 0
  let nodes := bits (x.pw 2) 63 32
  let step := bits (x.pw 12) 31 16
  op == 0 || 3 < op || lv == 0 || 12 < lv || nodes < 8 || 16777216 < nodes
  || leaf < 10000 || 1000000 < leaf || step < 50 || 2000 < step
  || (if op == 2 then cnt == 0 || 4096 < cnt else 1048576 < cnt)
  || (op == 3 && (bits (x.pw 14) 7 0 == 0 || 16 < bits (x.pw 14) 7 0))
  || 2 < bits (x.pw 0) 57 56 || bits (x.pw 0) 51 44 == 0 || bits (x.pw 0) 51 44 == 255
  || x.pw 1 % 128 != 0
  || bits (x.pw 0) 43 32 != 0 || bits (x.pw 12) 15 0 != 0 || bits (x.pw 14) 63 8 != 0

/-- The attention operator record does not pass (R35, R120). -/
def attnBad (x : Job) : Bool :=
  bits (x.pw 0) 43 36 == 0 || bits (x.pw 0) 35 32 != 0 || bits (x.pw 0) 31 24 == 0 || bits (x.pw 0) 23 11 != 0
  || bits (x.pw 0) 10 0 == 0 || 1024 < bits (x.pw 0) 10 0 || bits (x.pw 7) 47 0 != 0
  || bits (x.pw 7) 63 48 == 0
  || (x.opcode == 4 && bits (x.pw 0) 10 0 != 1) || (x.opcode == 5 && bits (x.pw 7) 63 48 != 1)

/-- The inline parameters of SEQ_ADMIT do not pass; under RESTORE only SEQ_ID, PRIO and ALLOW_SPILL are read. -/
def admitBad (x : Job) : Bool :=
  !bit (x.inl 0) 6 &&
  (bits (x.inl 0) 23 16 == 0 || bits (x.inl 0) 15 8 == 0 || x.inl 1 % 2 ^ 21 != 0
    || bits (x.inl 2) 63 32 == 0 || x.inl 3 % 4096 != 0)

/-- Fields of an XFER job (R208). -/
def xfOp (x : Job) : Nat := bits (x.inl 0) 63 60
def xfCrypt (x : Job) : Nat := bits (x.inl 0) 59 58
def xfKey (x : Job) : Nat := bits (x.inl 0) 57 53
def xfSrc (x : Job) : Nat := x.inl 1
def xfDst (x : Job) : Nat := x.inl 2
def xfLen (x : Job) : Nat := bits (x.inl 3) 63 32
def xfFill (x : Job) : Nat := x.inl 4

/-- R209, R233: the parameters of an XFER job do not pass. The ranges include record tables (R234). -/
def State.xferBad (s : State) (x : Job) : Bool :=
  let n := xfLen x
  let cr := xfCrypt x
  let sn := n + (if cr == 1 then n / 4096 * 32 else 0)
  let dn := n + (if cr == 2 then n / 4096 * 32 else 0)
  cr == 3 || n == 0 || 0xFFFFF000 < n
  || (xfOp x == 0 && (xfSrc x % 64 != 0 || xfDst x % 64 != 0 || n % 64 != 0
        || overlaps (xfSrc x) sn (xfDst x) dn))
  || (xfOp x == 1 && (xfDst x % 128 != 0 || n % 128 != 0 || cr != 0))
  || (cr != 0 && (xfKey x == 0 || xfSrc x % 4096 != 0 || xfDst x % 4096 != 0 || n % 4096 != 0
        || !s.slotAllows (s.jobFlask x) (xfKey x) cr))
  || (cr == 0 && xfKey x != 0)

/-- The job takes a tile list. -/
def State.takesTiles (s : State) (x : Job) : Bool :=
  match x.opcode with
  | 1 => true
  | 2 => isTap x.conv
  | 3 => s.timed (s.jobFlask x)
  | _ => false

/-- The job must carry a tile list. -/
def State.needsTiles (s : State) (x : Job) : Bool := s.takesTiles x && x.opcode != 1

/-- R35, R169: what a record and its descriptor may not hold, by class. -/
def State.recordBad (s : State) (x : Job) : Bool :=
  let f := s.jobFlask x
  (x.tileAddr == 0) != (x.tileCount == 0)
  || (x.tileAddr != 0 && !s.takesTiles x) || (x.tileAddr == 0 && s.needsTiles x)
  || (paramFixed x.opcode && x.paramLen != paramSize x.opcode)
  || (s.timed f && isBound x.opcode && (s.f POUR_QJPF.JPF x.queue == 0 || x.fenceBefore || x.waitEn))
  || match x.opcode with
     | 2 => convBad x.conv
     | 3 => s.vectorBad x
     | 4 => attnBad x
     | 5 => attnBad x
     | 6 => admitBad x
     | 8 => runnerBad x
     | 9 => s.xferBad x
     | 10 => renderBad x
     | _ => false

/-! ## MALFORMED: the tiles -/

/-- R98: a tap-form tile does not pass. -/
def tapTileBad (r : ConvRec) (d : List Nat) : Bool :=
  let w := cvOutW r
  let img := cvOutH r * w
  let off := tdMOff d
  let ext := tdMExt d
  ext == 0 || 1024 < ext || cvBatch r * img < off + ext || off / img != (off + ext - 1) / img
  || !((off % w == 0 && ext % w == 0) || off / w == (off + ext - 1) / w)
  || tdAct d != cvInAddr r || tdWgt d != cvWgtAddr r || tdOut d != cvOutAddr r
  || tdKOff d != 0 || tdKExt d != cvKH r * cvKW r * cvCP r

/-- R35, R59, R64, R66, R98: tile descriptor number k does not pass. A tile whose ARRAY or RECAST_ARRAY the flask does not
hold, or whose TILE_INDEX is not its position, is taken as MALFORMED (DESIGN CHOICE, log entry 159). -/
def State.tileBad (s : State) (x : Job) (k : Nat) (d : List Nat) : Bool :=
  let f := s.jobFlask x
  let units := if x.opcode = 3 then s.flaskVecs f else s.flaskArrays f
  let a := tdArray d
  let rc := tdRecast d
  8000 < tdEst d || bits (wordAt d 2) 31 0 != 0 || tdIndex d != k
  || tdProgLen d == 0 || tdProgLen d % 16 != 0 || 32768 < tdProgLen d
  || (a != 0xFF && units ≤ a) || (rc != 0xFF && (units ≤ rc || rc == a))
  || (if s.timed f then a == 0xFF || rc == 0xFF else rc != 0xFF)
  || (x.opcode == 2 && tapTileBad x.conv d)

/-- R233: the XFER w of a pour program uses a key of the flask against its USAGE. An empty slot is not judged here: such
an XFER is illegal when it issues. -/
def State.keyMisused (s : State) (f w : Nat) : Bool :=
  let key := bits w 22 18
  bits w 127 120 == 8 && key != 0 && (NMap.find (s.flask f).slots key).isSome
    && !s.slotAllows f key (if bit w 111 then 2 else 0)

/-- R233: the pour program of a tile misuses a key. The program is read for this only while the flask holds keys; a refused
read is left to the loading of the program (DESIGN CHOICE, log entry 173). -/
def State.progBad (s : State) (x : Job) (d : List Nat) : Bool × State :=
  if (s.flask (s.jobFlask x)).slots.isEmpty || !(x.opcode == 1 || x.opcode == 2) then (false, s)
  else
    match instRead s x.inst (tdProg d) (tdProgLen d) with
    | (.ok bs, s1) => (((pieces 16 (bs.length + 1) bs).map leNat).any (s1.keyMisused (s1.jobFlask x)), s1)
    | (_, s1) => (false, s1)

/-- The lowest tile that does not pass. -/
def State.firstBadTile (s : State) (x : Job) : Nat → List (List Nat) → Option Nat × State
  | _, [] => (none, s)
  | k, d :: ds =>
    if s.tileBad x k d then (some k, s)
    else
      match s.progBad x d with
      | (true, s1) => (some k, s1)
      | (false, s1) => s1.firstBadTile x (k + 1) ds

/-! ## The whole job -/

/-- A copied job after validation: running on, or ended with a status (R35, R374). The records read are kept
in the job. DETAIL of MALFORMED is the lowest failing tile, 0 where no tile fails (log entry 24). A refused read of the
operator record ends the job with TRANSLATION_FAULT or INTEGRITY_FAIL before UNSUPPORTED is judged (DESIGN CHOICE, log
entry 158). -/
def State.validate (s : State) (x : Job) : Job × State :=
  let stop (x : Job) (st d : Nat) (s : State) : Job × State :=
    ({ x with phase := .ended, status := st, detail := some d }, s)
  if descBad x then stop x stMalformed 0 s
  else
    let n := paramSize x.opcode
    let want := n != 0 && x.paramLen == n
    match (if want then readOff s x.inst x.paramAddr n else (.ok [], s)) with
    | (.error e, s1) => stop x e.1 e.2 s1
    | (.ok ps, s1) =>
      let x1 := { x with param := ps }
      match s1.unsupported x1 with
      | (true, s2) => stop x1 stUnsupported 0 s2
      | (false, s2) =>
        if s2.recordBad x1 then stop x1 stMalformed 0 s2
        else
          match (if x1.tileAddr = 0 then (.ok [], s2)
                 else readOff s2 x1.inst x1.tileAddr (64 * x1.tileCount)) with
          | (.error e, s3) => stop x1 e.1 e.2 s3
          | (.ok ts, s3) =>
            let x2 := { x1 with tiles := (pieces 64 (x1.tileCount + 1) ts).map (words64 8) }
            match s3.firstBadTile x2 0 x2.tiles with
            | (some k, s4) => stop x2 stMalformed k s4
            | (none, s4) => (x2, s4)

end Sys2Proof.Machine
end

