-- ==== Sys2Proof/Machine/Queue.lean ====
section
/-! DEFINITION. Queues (chapter 02): doorbells (R30), the sprue scanner (R38), the taking of jobs (R31, R35),
their start (R32, R34, R41 to R43), expiry and completion (R33, R42), and queue errors (R44). -/

namespace Sys2Proof.Machine

/-- Entries of a submission ring and of a completion ring (SPR_QCFG). -/
def State.subSize (s : State) (n : Nat) : Nat := 2 ^ (s.f SPR_QCFG.SUB_LOG2 n + 6)
def State.cplSize (s : State) (n : Nat) : Nat := 2 ^ (s.f SPR_QCFG.CPL_LOG2 n + 6)

/-- A queue of the device. -/
def isQueue (n : Nat) : Bool := decide (n < 16384)

/-- The jobs that a queue holds. -/
def State.queueJobs (s : State) (n : Nat) : List Job := s.work.jobs.filter fun x => x.queue == n

/-- Change the sprue. -/
def State.modSprue (s : State) (g : Sprue → Sprue) : State := { s with work.sprue := g s.work.sprue }

/-- STATE of SPR_QSTAT: 02h while the queue holds jobs, 01h from its pending bit until the dispatcher takes it
up, 00h otherwise; the error and quiesced states stand (log entry 25). -/
def State.showQueue (s : State) (n : Nat) : State :=
  let st := s.f SPR_QSTAT.STATE n
  if st = 3 || st = 4 then s
  else
    let p := s.work.sprue
    s.setF SPR_QSTAT.STATE n
      (if !(s.queueJobs n).isEmpty then 2
       else if p.pending.contains n || p.round.contains n || p.ready.contains n then 1 else 0)

/-! ## The scanner (R38) -/

/-- The order of step 1: ascending flask, instance and queue number. -/
def State.scanKey (s : State) (n : Nat) : Nat := s.queueFlask n * 16384 + n

/-- Insert a queue in the order of step 1. -/
def State.scanInsert (s : State) (n : Nat) : List Nat → List Nat
  | [] => [n]
  | y :: ys => if s.scanKey n < s.scanKey y then n :: y :: ys else y :: s.scanInsert n ys

/-- A queue of a flask timed by the pour table. -/
def State.timedQueue (s : State) (n : Nat) : Bool := s.timed (s.queueFlask n)

/-- A queue joins the current round ahead of its step 2. -/
def State.joinRound (s : State) (n : Nat) (round : List Nat) : List Nat :=
  s.scanInsert n (round.filter s.timedQueue) ++ round.filter fun y => !s.timedQueue y

/-- An accepted doorbell sets the queue's pending bit; a timed queue that the current round has not served
joins it. -/
def State.setPending (s : State) (n : Nat) : State :=
  let p := s.work.sprue
  if s.timedQueue n && !p.round.isEmpty && !p.served.contains n then
    if p.round.contains n then s
    else s.modSprue fun p => { p with round := s.joinRound n p.round }
  else s.modSprue fun p => { p with pending := insNat p.pending n }

/-- Remove a queue's bits from the sprue. -/
def State.clearSprue (s : State) (n : Nat) : State :=
  s.modSprue fun p =>
    { p with pending := delNat p.pending n, round := delNat p.round n, ready := delNat p.ready n }

/-- One queue per flask in turn, from flask `turn` on. -/
def interleave (groups : List (List Nat)) : List Nat :=
  (List.range ((groups.map List.length).foldl max 0)).flatMap fun k => groups.filterMap fun g => g[k]?

/-- The order in which a round serves the queues it has copied. -/
def State.roundOrder (s : State) (turn : Nat) (qs : List Nat) : List Nat :=
  let timed := qs.filter s.timedQueue
  let rest := qs.filter fun n => !s.timedQueue n
  (timed.foldl (fun acc n => s.scanInsert n acc) [])
    ++ interleave ((List.range 8).map fun k => rest.filter fun n => s.queueFlask n == (turn + k) % 8)

/-- A round starts: the pending bitmap is copied and cleared. -/
def State.startRound (s : State) : State :=
  s.modSprue fun p =>
    { p with round := s.roundOrder p.turn p.pending, pending := [], served := [], step2 := false }

/-- The scanner serves one queue of the round: it enters its dispatcher's ready set. The flask served first
in step 2 sets where the next round's turns begin. -/
def State.serveOne (s : State) : State :=
  match s.work.sprue.round with
  | [] => s
  | n :: rest =>
    let two := !s.timedQueue n
    (s.modSprue fun p =>
      { p with round := rest, served := n :: p.served, ready := insNat p.ready n
               step2 := p.step2 || two
               turn := if two && !p.step2 then (s.queueFlask n + 1) % 8 else p.turn }).showQueue n

/-- A round, started when the scanner is idle, serves up to `k` queues. -/
def State.scan (s : State) (k : Nat) : State :=
  let s1 := if s.work.sprue.round.isEmpty then s.startRound else s
  (List.range (min k s1.work.sprue.round.length)).foldl (fun s _ => s.serveOne) s1

/-! ## Doorbells (R30, R40) -/

/-- R30: a write of SPR_DB of queue n. A quiesced queue judges and counts the write as any queue does, and keeps only its
PROD_IDX (R216, log entry 116); a disabled queue and a queue in the error state ignore the write. -/
def State.doorbell (s : State) (n cpl prod : Nat) : State :=
  let st := s.f SPR_QSTAT.STATE n
  if !s.fb SPR_QCFG.EN n || st == 3 then s
  else
    let cons := s.f SPR_QSTAT.CONS_IDX n
    let last := s.f SPR_DB.PROD_IDX n
    let d := dist32 prod cons
    let adv := decide (1 ≤ d) && decide (d ≤ s.subSize n) && decide (dist32 last cons < d)
    let cplBad := decide (s.cplSize n < dist32 (s.q n).nextCpl cpl)
    let stale := (!adv && prod != last) || cplBad
    let s1 := if cplBad || st == 4 then s else s.setF SPR_DB.CPL_CONS n cpl
    let s2 := if stale then s1.incSat SPR_QSTAT.STALE_DB n 1 else s1
    let s3 := if adv then s2.setF SPR_DB.PROD_IDX n prod else s2
    if (adv || prod == last) && st != 4 then (s3.setPending n).showQueue n else s3

/-! ## Queue errors (R44) -/

/-- A queue enters the error state with a status code. -/
def State.queueError (s : State) (n code : Nat) : State :=
  ((s.clearSprue n).setF SPR_QSTAT.STATE n 3).setF SPR_QSTAT.ERR_CODE n code

/-! ## Taking a job (R31, R35) -/

/-- The instance of a queue is active in a running flask. -/
def State.instActive (s : State) (i : Nat) : Bool :=
  s.f SYS_INST.STATE i == 1 && s.f SYS_FLCTRL.STATE (s.instFlask i) == 3

/-- The queue may give jobs: enabled, not in error, not quiesced. -/
def State.queueLive (s : State) (n : Nat) : Bool :=
  s.fb SPR_QCFG.EN n && s.f SPR_QSTAT.STATE n != 3 && s.f SPR_QSTAT.STATE n != 4 && s.instActive (instOf n)

/-- R248: a buffer is locked while a job that names it has been taken and has no completion record. -/
def State.bufLocked (s : State) (c b : Nat) : Bool :=
  match (s.cam c).bufs[b]? with
  | none => true
  | some (_, _, rel) =>
    s.work.jobs.any fun x => x.inst == s.f DSP_CAMCTX0.INSTANCE c && x.signalAddr == rel

/-- R248: the frame is dropped and counted. -/
def State.dropFrame (s : State) (c : Nat) : State :=
  (s.incSat DSP_CAMSTAT.FRAMES_DROPPED c 1).modCam c fun k =>
    { k with buf := none, flags := Nat.lor k.flags 1 }

/-- R248: a job that has been taken locks the buffers that it names; the frame that a context is writing into one of them
is dropped. -/
def State.lockBuffers (s : State) (x : Job) : State :=
  s.each ((List.range 24).filter fun c => (s.cam c).active && x.inst == s.f DSP_CAMCTX0.INSTANCE c
      && (s.cam c).buf.any fun b => ((s.cam c).bufs[b]?).any fun p => p.2.2 == x.signalAddr) State.dropFrame

/-- The dispatcher copies the descriptor at CONS_IDX, advances CONS_IDX and validates the job; a queue without
a waiting entry leaves the ready set. -/
def State.fetchJob (s : State) (n : Nat) : State :=
  if !s.work.sprue.ready.contains n then s
  else if !s.queueLive n then s.modSprue fun p => { p with ready := delNat p.ready n }
  else
    let cons := s.f SPR_QSTAT.CONS_IDX n
    if s.f SPR_DB.PROD_IDX n = cons then
      (s.modSprue fun p => { p with ready := delNat p.ready n }).showQueue n
    else
      let va := s.f SPR_QSUB_BASE.BASE n * 128 + 128 * (cons % s.subSize n)
      match instRead s (instOf n) va 128 with
      | (.ok bs, s1) =>
        let s2 := s1.setF SPR_QSTAT.CONS_IDX n (cons + 1)
        let x : Job := { id := s2.work.nextJob, queue := n, ringIdx := cons, desc := words64 16 bs }
        let (y, s3) := s2.validate x
        (({ s3 with work.jobs := s3.work.jobs ++ [y], work.nextJob := s3.work.nextJob + 1 }).lockBuffers y).showQueue n
      | (e, s1) => s1.queueError n e.status

/-! ## Starting a job (R32, R34, R41 to R43) -/

/-- A free completion slot: one that lies within S entries of CPL_CONS and is not reserved. -/
def State.slotFree (s : State) (n : Nat) : Bool :=
  decide (dist32 ((s.q n).nextCpl + (s.q n).reserved) (s.f SPR_DB.CPL_CONS n) < s.cplSize n)

/-- R34: the job's DEADLINE has been reached. -/
def State.expired (s : State) (x : Job) : Bool := x.deadline != 0 && reached s.now x.deadline

/-- R42: every earlier job of the queue has its completion record. -/
def State.fenceOk (s : State) (x : Job) : Bool :=
  !x.fenceBefore || !(s.work.jobs.any fun y => y.queue == x.queue && decide (y.id < x.id))

/-- The wait of R17 and R34: none when its read faults. -/
def State.waitDone (s : State) (x : Job) : Except Nat Bool × State :=
  if !x.waitEn then (.ok true, s)
  else
    match instRead s x.inst x.waitAddr 8 with
    | (.ok bs, s1) => (.ok (reached (leNat bs) x.waitValue), s1)
    | (e, s1) => (.error e.status, s1)

/-- R10: a job of a decode step that is already open. -/
def State.stepJob (s : State) (x : Job) : Bool :=
  x.opcode == 5 && s.work.runs.any fun r => !r.prefill && r.inst == x.inst && r.batch == x.pw 1

/-- A job may be considered for a start: it waits, its queue and instance are live, in a timed flask it is
bound (R169), no sweep holds it (R113), and for the attention classes and RUNNER its controller runs (R10, R330), but for
the jobs of a decode step already open, which complete while the controller restarts. -/
def State.startable (s : State) (x : Job) : Bool :=
  decide (x.phase = .waiting) && s.queueLive x.queue
    && (!isAttn x.opcode || (s.fwp 4).running || s.stepJob x) && (x.opcode != 8 || (s.fwp 5).running)
    && (!s.timed (s.jobFlask x) || !isBound x.opcode || x.bound.isSome)
    && !(isAttn x.opcode && s.work.sweeping.contains x.inst)

/-- R17: a TENSOR, CONV or VECTOR stage of a timed flask first reads the completion record of the stage before it. No field
of its descriptor names that record, so whether it is absent or carries STALE, and with it the job's own STALE bit, is a
free value (DESIGN CHOICE, log entry 156). A RUNNER job names its record (R265). -/
def State.stageFlag (s : State) (x : Job) : Nat × State :=
  if s.timed (s.jobFlask x) && (1 ≤ x.opcode && x.opcode ≤ 3) then
    let (v, s1) := s.fresh
    (Nat.lor x.cflags (v % 2), s1)
  else (x.cflags, s)

/-- The job starts with its completion slot reserved. -/
def State.beginJob (s : State) (x : Job) : State :=
  let (fl, s1) := s.stageFlag x
  (s1.modQ x.queue fun q => { q with reserved := q.reserved + 1 }).modJob x.id
    fun y => { y with phase := .running, slot := true, cflags := fl }

/-- R15: the work of a job class needs a clock domain that is lost: ACLK for arrays, engines and rendering, FCLK for
everything. -/
def State.classLost (s : State) (op : Nat) : Bool :=
  let l := s.sys.power.lost
  l.contains .fclk || (l.contains .aclk && ((1 ≤ op && op ≤ 5) || op == 10))

/-- R32, R34, R42, R43: a job starts once its fence, its wait and a completion slot allow; past its DEADLINE
it ends EXPIRED, whose DETAIL the manual leaves open (a free value). A refused read of the counter at WAIT_ADDR ends the
job with that status and byte offset 0 in DETAIL (DESIGN CHOICE, log entry 157). -/
def State.startJob (s : State) (j : Nat) : State :=
  match s.job j with
  | none => s
  | some x =>
    if !s.startable x then s
    else if s.expired x then s.endJob j stExpired none
    else if !s.fenceOk x then s
    else
      match s.waitDone x with
      | (.error st, s1) => s1.endJob j st (some 0)
      | (.ok false, s1) => s1
      | (.ok true, s1) =>
        if s1.classLost x.opcode then s1.endJob j stClockLost none
        else if s1.slotFree x.queue then s1.beginJob x else s1

/-- R34: a job that waits past its DEADLINE ends EXPIRED; DETAIL is a free value (log entry 192). -/
def State.expireJob (s : State) (j : Nat) : State :=
  match s.job j with
  | none => s
  | some x =>
    if x.phase = .waiting && s.expired x then s.endJob j stExpired none else s

/-! ## Completion (R33, R42) -/

/-- The 32 bytes of a completion record. -/
def cplRecord (x : Job) (phase : Bool) (now detail : Nat) : List Byte :=
  toLE 8 (b2n phase * 2 ^ 63 + x.status % 256 * 2 ^ 48 + x.cflags % 65536 * 2 ^ 32 + x.seqno)
    ++ toLE 8 x.tag ++ toLE 8 now ++ toLE 8 (detail % 2 ^ 32 * 2 ^ 32 + min (cdiv x.arrayNs 1000) (2 ^ 32 - 1))

/-- R33: PHASE of a record: 1 on the first pass, inverted on each later pass. -/
def cplPhase (idx size : Nat) : Bool := idx / size % 2 == 0

/-- R42: the job signals its counter: on success with SIGNAL_EN, on an error also with SIGNAL_ON_ERROR. -/
def Job.signals (x : Job) : Bool := x.signalEn && (x.status < 0x10 || x.signalOnError)

/-- The addition of SIGNAL_INCR; a refused access leaves the record as it is. -/
def State.signalJob (s : State) (x : Job) : State :=
  if !x.signals then s
  else
    match instRead64 s x.inst x.signalAddr with
    | (some v, s1) => (instWrite s1 x.inst x.signalAddr (toLE 8 (v + x.signalIncr))).2
    | (none, s1) => s1

/-- DETAIL of a job: the value its end gave, or a free value where the manual gives none (log entry 192). -/
def State.jobDetail (s : State) (x : Job) : Nat × State :=
  match x.detail with
  | some d => (d, s)
  | none => s.fresh

/-! ## What a job has written (R36, R42) -/

/-- The memory outputs of a job: the ranges its record or its pour programs name. A VECTOR job names none (log entry 57). -/
def Job.outputs (x : Job) : List (Nat × Nat) :=
  match x.opcode with
  | 1 => x.outs
  | 2 => if isTap x.conv then x.outs else [(cvOutAddr x.conv, cvOutBytes x.conv)]
  | 4 => [attnOut]
  | 5 => [attnOut]
  | 8 => if bits (x.pw 0) 63 60 = 2 then [(x.pw 5, 16 * bits (x.pw 0) 31 0)] else []
  | 9 => [(xfDst x, xfLen x)]
  | 10 => (x.pw 4, bits (x.pw 5) 31 16 * 64 * bits (x.pw 5) 47 32) ::
      (match bits (x.pw 5) 11 10 with
       | 0 => []
       | 1 => [(x.pw 6, 2 * (bits (x.pw 5) 63 48 * bits (x.pw 5) 47 32))]
       | _ => [(x.pw 6, 4 * (bits (x.pw 5) 63 48 * bits (x.pw 5) 47 32))])
  | _ => []
where
  attnOut : Nat × Nat :=
    (x.pw 5, bits (x.pw 0) 10 0 * bits (x.pw 7) 63 48 * (bits (x.pw 0) 43 36 * bits (x.pw 0) 31 24)
      * (64 * 2 ^ bits (x.pw 0) 45 44 * fmtBytes (bits (x.pw 0) 49 46)))

/-- The bytes of a range of an instance become free values; no gate is charged and no fault recorded. -/
def State.spoil (s : State) (inst : Nat) (r : Nat × Nat) : State :=
  let (bs, s1) := s.freshBytes r.2
  ({ s1 with mem := { (instWrite s1 inst r.1 bs).2.mem with gates := s1.mem.gates, gateQ := s1.mem.gateQ } }).updateOcc

/-- R36: after an error the memory outputs of a job that had started are undefined (log entry 57). -/
def State.spoilOutputs (s : State) (x : Job) : State :=
  if x.slot && decide (0x10 ≤ x.status) then s.each x.outputs fun s r => s.spoil x.inst r else s

/-- R42: no write of the job to memory is outstanding: no array and no engine still works on it, and no ladle move of its
pour programs or of a release copy remains. -/
def State.jobQuiet (s : State) (j : Nat) : Bool :=
  !(s.units.arrays.any fun a => a.2.job.any fun r => r.job == j)
    && !(s.units.vecs.any fun e => e.2.item.any fun v => v.job == j)
    && !(s.mem.moves.any fun m => m.job == j && match m.kind with
        | .pour _ _ => true
        | .release _ => true
        | _ => false)

/-- R42: once no write of the job is outstanding, signal, completion record and interrupt; a fault of the record's write
puts the queue in error (R44). A job whose end came before its start first needs a free slot (R32). -/
def State.completeJob (s : State) (j : Nat) : State :=
  match s.job j with
  | none => s
  | some x =>
    let n := x.queue
    if x.phase ≠ .ended || !(x.slot || s.slotFree n) || !s.jobQuiet j then s
    else
      let s1 := (s.spoilOutputs x).signalJob x
      let (d, s2) := s1.jobDetail x
      let idx := (s2.q n).nextCpl
      let va := s2.f SPR_QCPL_BASE.BASE n * 32 + 32 * (idx % s2.cplSize n)
      let rec_ := cplRecord x (cplPhase idx (s2.cplSize n)) s2.now d
      let done (s : State) : State :=
        (({ s with work.jobs := s.work.jobs.filter fun y => y.id != j }).modQ n fun q =>
          { q with reserved := if x.slot then q.reserved - 1 else q.reserved })
      match instWrite s2 x.inst va rec_ with
      | (.ok _, s3) =>
        let s4 := (done s3).modQ n fun q => { q with nextCpl := (q.nextCpl + 1) % 2 ^ 32 }
        let s5 := if x.irq then s4.emit (.instIrq x.inst (s4.f SPR_QCFG.IRQ_VEC n)) else s4
        s5.showQueue n
      | (e, s3) => (done s3).queueError n e.status

/-! ## Enabling a queue (R28, R44, R224) -/

/-- The restored indices lie within the two rings. -/
def State.restoreOk (s : State) (n : Nat) : Bool :=
  decide (dist32 (s.f SPR_QRESTORE0.PROD_IDX n) (s.f SPR_QRESTORE0.CONS_IDX n) ≤ s.subSize n)
    && decide (dist32 (s.f SPR_QRESTORE1.CPL_PROD n) (s.f SPR_QRESTORE2.CPL_CONS n) ≤ s.cplSize n)

/-- The four indices of an enable: those of SPR_QRESTORE while its VALID is 1b, which is then cleared, and
otherwise those of R44. -/
def State.enableIdx (s : State) (n : Nat) : State :=
  if s.fb SPR_QRESTORE1.VALID n then
    ((((s.setF SPR_QSTAT.CONS_IDX n (s.f SPR_QRESTORE0.CONS_IDX n)).setF SPR_DB.PROD_IDX n
      (s.f SPR_QRESTORE0.PROD_IDX n)).setF SPR_DB.CPL_CONS n (s.f SPR_QRESTORE2.CPL_CONS n)).modQ n
        fun q => { q with nextCpl := s.f SPR_QRESTORE1.CPL_PROD n }).setF SPR_QRESTORE1.VALID n 0
  else
    ((s.setF SPR_QSTAT.CONS_IDX n (s.f SPR_DB.PROD_IDX n)).setF SPR_DB.CPL_CONS n 0).modQ n
      fun q => { q with nextCpl := 0 }

/-- Setting EN (R44, R224): the queue takes its indices and reads idle, or quiesced while its instance is; after
a restore, entries between CONS_IDX and PROD_IDX set the pending bit. Restored indices that do not lie within
the rings are an invalid configuration of R44: the queue takes them and enters the error state with ERR_CODE 10h
(DESIGN CHOICE, log entry 26). -/
def State.enableQueue (s : State) (n : Nat) : State :=
  let valid := s.fb SPR_QRESTORE1.VALID n
  let st := s.f SYS_INST.STATE (instOf n)
  let s1 := ((s.setF SPR_QSTAT.STATE n (if st = 2 || st = 3 then 4 else 0)).setF SPR_QSTAT.ERR_CODE n 0).modQ n
    fun q => { q with reserved := (s.queueJobs n).countP (fun x => x.slot), preQuiesce := 0 }
  let s2 := s1.enableIdx n
  if valid && !s.restoreOk n then s2.queueError n stMalformed
  else
    (if valid && s2.f SPR_DB.PROD_IDX n != s2.f SPR_QSTAT.CONS_IDX n && s2.f SPR_QSTAT.STATE n != 4 then s2.setPending n
     else s2).showQueue n

/-- Clearing EN: the queue's bits leave the sprue; jobs already started complete. A queue in error leaves that state only
when EN is set again (R44), and a quiesced queue stays quiesced. -/
def State.disableQueue (s : State) (n : Nat) : State := (s.clearSprue n).showQueue n

end Sys2Proof.Machine
end

