-- ==== Sys2Proof/Machine/VExp.lean ====
section
/-! DEFINITION. VEXP (R240) and the merge of R125: the values R240 fixes, the bound it sets, and the free
function within it. -/

namespace Sys2Proof.Machine

/-- ln 2 in units of 2^−96. -/
def ln2Fix : Nat := 54916777467707473351141471128

/-- The Taylor sum of e^r for r in units of 2^−96. -/
def expTaylor (r : Nat) : Nat → Nat → Nat → Nat
  | 0, _, _ => 0
  | fuel + 1, i, term => term + expTaylor r fuel (i + 1) (term * r / 2 ^ 96 / (i + 1))

/-- e^x for x = (−1)^neg × m × 2^e, as a significand in units of 2^−96 and a power of two, correct to about
2^−90 of its value. -/
def expApprox (neg : Bool) (m : Nat) (e : Int) : Nat × Int :=
  let x : Int := rneAt m e (-96)
  let v := if neg then -x else x
  let k := v.fdiv (ln2Fix : Int)
  let r := (v - k * (ln2Fix : Int)).toNat
  (expTaylor r 48 0 (2 ^ 96), k)

/-- R240: a binary32 code lies within the bound of e^x. -/
def vexpBound (s : Nat) (k : Int) (c : Nat) : Bool :=
  match ofF32 c with
  | .fin n m e =>
    -- all three quantities in units of 2^−400
    let t := s * 2 ^ (k + 304).toNat
    let u := m * 2 ^ (e + 400).toNat
    let d := if t < u then u - t else t - u
    !n && (if k < -126 then decide (d ≤ 2 ^ 251) else decide (d * 2 ^ 22 ≤ t))
  | _ => false

/-- R240: the values that VEXP fixes, and elsewhere those of `g` where they keep the bound, and the nearest binary32 where
they do not. -/
def vexpWith (g : Nat → Nat) (c : Nat) : Nat :=
  match ofF32 c with
  | .nan => nan32
  | .inf neg => if neg then 0 else inf32 false
  | .fin neg m e =>
    if m = 0 then 0x3F800000
    else if !neg && 0x42B17217 < c then inf32 false
    else if neg && 0xC2CFF1B5 < c then 0
    else
      let (s, k) := expApprox neg m e
      if vexpBound s k (g c) then g c else toF32 (.fin false s (k - 96))

/-- R240: a function is monotonic non-decreasing over the binary32 operands other than NaN, of `n` codes. -/
def f32mono (n : Nat) (g : Nat → Nat) : Bool :=
  (List.range n).all fun a => (List.range n).all fun b =>
    !fvLt false (ofF32 a) (ofF32 b) || !fvLt false (ofF32 (g b)) (ofF32 (g a))

/-- R240: the free function, when VEXP is monotonic with it as the rule demands, and the nearest binary32 values otherwise. -/
def vexpPick (c : Nat) : Nat :=
  if f32mono (2 ^ 32) (vexpWith Config.vexp) then Config.vexp c
  else
    match ofF32 c with
    | .fin neg m e => let (s, k) := expApprox neg m e; toF32 (.fin false s (k - 96))
    | _ => 0

/-- R240: VEXP. -/
def vexp (c : Nat) : Nat := vexpWith vexpPick c

/-- The larger of two binary32 values other than NaN. -/
def f32max (a b : Nat) : Nat := if fvLt false (ofF32 a) (ofF32 b) then b else a

/-- A fold state: M, L and O (R125). -/
structure FoldSt where
  m : Nat
  l : Nat
  o : List Nat
  deriving DecidableEq, Repr

/-- One further chunk of the merge of R125. -/
def foldChunk (a c : FoldSt) : FoldSt :=
  let n := f32max a.m c.m
  let x := vexp (f32add a.m (f32neg n))
  let y := vexp (f32add c.m (f32neg n))
  { m := n, l := f32add (f32mul a.l x) (f32mul c.l y),
    o := (a.o.zip c.o).map fun p => f32add (f32mul p.1 x) (f32mul p.2 y) }

/-- binary32 as IEEE 754 division by L, then the conversion of R81 at scale 0. -/
def foldOut (fmt : Nat) (a : FoldSt) : List Conv :=
  a.o.map fun v => convert fmt (ofF32 (f32div v a.l)) 0

end Sys2Proof.Machine
end

