-- ==== Sys2Proof/Machine/Attention.lean ====
section
/-! DEFINITION. The attention sequencer's tables (chapter 06): page geometry, leaf tables, frames and reference
counts, contexts and their spill records, admission, release, sweep. -/

namespace Sys2Proof.Machine

/-! ## Results that may fail -/

/-- Go on with a result, or pass its error on. -/
def Rd.andThen {α β : Type} (r : Rd α) (g : α → State → Rd β) : Rd β :=
  match r with
  | (.ok a, s) => g a s
  | (.error e, s) => (.error e, s)

/-! ## Guest-physical accesses -/

/-- The physical address of a guest-physical address of an instance, checked under R213. -/
def State.gpa (s : State) (i a : Nat) (write : Bool) : Option Nat × State :=
  let f := s.instFlask i
  let r : XRes Nat :=
    match bits (s.r .dtuIommu 2) 3 0 with
    | 0 => (.error { cause := 256 }, s)
    | 1 => (.ok a, s)
    | _ =>
      match s.devCtx f i with
      | (.error e, s1) => (.error e, s1)
      | (.ok dc, s1) =>
        match s1.gXlate f i dc a write { cause := guestCause write, val2 := a / 4 * 4 } with
        | (.ok p, s2) => (.ok p.1, s2)
        | (.error e, s2) => (.error e, s2)
  match r with
  | (.ok pa, s1) => if s1.outOk f pa then (some pa, s1) else (none, s1.dtuFault i a write { cause := accessCause write })
  | (.error e, s1) => (none, s1.dtuFault i a write e)

/-- Read guest-physical memory, line by line. -/
def gReadL (i : Nat) : List (Nat × Nat) → State → Rd (List Byte)
  | [], s => (.ok [], s)
  | (a, n) :: cs, s =>
    match s.gpa i a false with
    | (none, s1) => (.error .xlate, s1)
    | (some pa, s1) =>
      match lineRead s1 (s1.instFlask i) pa n (some i) with
      | (.ok bs, s2) => Rd.andThen (gReadL i cs s2) fun bs' s3 => (.ok (bs ++ bs'), s3)
      | (e, s2) => (.error e, s2)

/-- Read guest-physical memory. -/
def gRead (i a n : Nat) (s : State) : Rd (List Byte) := gReadL i (chunksOf a n) s

/-- Write guest-physical memory, line by line. -/
def gWriteL (i : Nat) : List (Nat × Nat) → List Byte → State → Rd Unit
  | [], _, s => (.ok (), s)
  | (a, n) :: cs, bs, s =>
    match s.gpa i a true with
    | (none, s1) => (.error .xlate, s1)
    | (some pa, s1) =>
      match lineWrite s1 (s1.instFlask i) pa (bs.take n) (some i) with
      | (.ok _, s2) => gWriteL i cs (bs.drop n) s2
      | (e, s2) => (.error e, s2)

/-- Write guest-physical memory. -/
def gWrite (i a : Nat) (bs : List Byte) (s : State) : Rd Unit := gWriteL i (chunksOf a bs.length) bs s

/-- A write of guest-physical memory that an earlier check has found possible. -/
def gPut (i a : Nat) (bs : List Byte) (s : State) : State := (gWrite i a bs s).2

/-- A guest-physical address translates for a write. -/
def gCheck (i a : Nat) (s : State) : Rd Unit :=
  match s.gpa i a true with
  | (some _, s1) => (.ok (), s1)
  | (none, s1) => (.error .xlate, s1)

/-! ## Pages (R108 to R111) -/

/-- PS of a page code. -/
def pageSize (code : Nat) : Nat := 16384 * 2 ^ code

/-- Head dimension of a D_CODE. -/
def headDim (code : Nat) : Nat := 64 * 2 ^ code

/-- R108: T, positions of a page. -/
def pagePos (pageCode dCode : Nat) : Nat := pageSize pageCode / (2 * headDim dCode + 2)

/-- T, PS, D and PMAX of a context. -/
def Ctx.t (x : Ctx) : Nat := pagePos x.pageCode x.dCode
def Ctx.ps (x : Ctx) : Nat := pageSize x.pageCode
def Ctx.d (x : Ctx) : Nat := headDim x.dCode
def Ctx.pmax (x : Ctx) : Nat := cdiv x.maxTokens x.t

/-- R110: address of page (l, h, j). -/
def Ctx.pageVa (x : Ctx) (l h j : Nat) : Nat := x.vaBase + ((l * x.kvHeads + h) * x.pmax + j) * x.ps

/-- R111: guest-physical address of the leaf entry of a virtual address. -/
def Ctx.leafAt (x : Ctx) (va : Nat) : Nat := x.leafAddr + (va - x.vaBase) / 4096 * 8

/-- A leaf entry: V, R, A and D set, W as given. U is set too, since the masters of an instance make user
requests (log entry 7). -/
def leafPte (gpa : Nat) (w : Bool) : Nat := gpa / 4096 * 1024 + 0xD3 + (if w then 4 else 0)

/-- The first frame's guest-physical address of an instance's pool, and a frame's. -/
def State.frameGpa (s : State) (i f : Nat) : Nat :=
  s.f ATT_IPOOL.POOL_BASE i * 65536 + f * pageSize (s.f ATT_IPOOL.PAGE_CODE i)

/-- The frame of the instance's own pool that a leaf entry names; none for any other address (R111). -/
def State.pteFrame (s : State) (i pte : Nat) : Option Nat :=
  let a := bits pte 53 10 * 4096
  let base := s.f ATT_IPOOL.POOL_BASE i * 65536
  let f := (a - base) / pageSize (s.f ATT_IPOOL.PAGE_CODE i)
  if a < base || s.f ATT_IFRAMES.FRAMES i ≤ f || s.frameGpa i f != a then none else some f

/-- The first leaf entry of a page: the mapped frame, or none. A valid entry that names no frame of the pool maps none
(DESIGN CHOICE, log entry 175). -/
def readLeaf (i : Nat) (x : Ctx) (p : Nat × Nat × Nat) (s : State) : Rd (Option Nat) :=
  Rd.andThen (gRead i (x.leafAt (x.pageVa p.1 p.2.1 p.2.2)) 8 s) fun bs s1 =>
    let pte := leNat bs
    (.ok (if bit pte 0 then s1.pteFrame i pte else none), s1)

/-- Cached translations of an address range of an instance are invalidated (R111). -/
def State.dropTlb (s : State) (i va n : Nat) : State :=
  { s with dtu.tlb := s.dtu.tlb.filter fun t =>
      !(t.inst == i && decide (va / 4096 ≤ t.vpn) && decide (t.vpn < (va + n) / 4096)) }

/-- Write the leaf entries of a page: mapped to a frame, or cleared. -/
def State.setLeaf (s : State) (i : Nat) (x : Ctx) (p : Nat × Nat × Nat) (dst : Option (Nat × Bool)) : State :=
  let va := x.pageVa p.1 p.2.1 p.2.2
  let ents := (List.range (x.ps / 4096)).flatMap fun k =>
    match dst with
    | some (f, w) => toLE 8 (leafPte (s.frameGpa i f + 4096 * k) w)
    | none => toLE 8 0
  (gPut i (x.leafAt va) ents s).dropTlb i va x.ps

/-! ## Frames and counts (R112, R113) -/

/-- The count of a frame of an instance. -/
def State.refCount (s : State) (i f : Nat) : Nat :=
  NMap.get s.work.refc 0 (s.f ATT_IFRAMES.RC_BASE i + f)

/-- Set the count of a frame of the instance's pool; no other frame has a count of its own. -/
def State.setCount (s : State) (i f n : Nat) : State :=
  if s.f ATT_IFRAMES.FRAMES i ≤ f then s else
  { s with work.refc := NMap.set s.work.refc 0 (s.f ATT_IFRAMES.RC_BASE i + f) n }

/-- A count rises; a saturated count stays and is counted in SAT_PINNED. -/
def State.incCount (s : State) (i f : Nat) : State :=
  if s.refCount i f = 0xFFFF then s.incSat ATT_ICTRL.SAT_PINNED i 1 else s.setCount i f (s.refCount i f + 1)

/-- A count falls; a saturated count stays. -/
def State.decCount (s : State) (i f : Nat) : State :=
  if s.refCount i f = 0xFFFF then s else s.setCount i f (s.refCount i f - 1)

/-- The first key from `k` on that a map does not list. -/
def firstGap {α : Type} : NMap α → Nat → Nat
  | [], k => k
  | (i, _) :: m, k => if i < k then firstGap m k else if i = k then firstGap m (k + 1) else k

/-- The free frame with the lowest number (R112). -/
def State.freeFrame (s : State) (i : Nat) : Option Nat :=
  let base := s.f ATT_IFRAMES.RC_BASE i
  let f := firstGap s.work.refc base - base
  if f < s.f ATT_IFRAMES.FRAMES i then some f else none

/-- Frames of the pool that are reserved by spread sequences and not yet mapped. -/
def State.reservedFrames (s : State) (i : Nat) : Nat :=
  (s.work.ctxs.map fun p => if p.2.inst = i then p.2.resv else 0).sum

/-- FREE: frames whose count is 0, less those reserved (R128). -/
def State.freeFrames (s : State) (i : Nat) : Nat :=
  let base := s.f ATT_IFRAMES.RC_BASE i
  let n := s.f ATT_IFRAMES.FRAMES i
  if !s.fb ATT_IPOOL.EN i then 0
  else n - (s.work.refc.filter fun p => decide (base ≤ p.1) && decide (p.1 < base + n)).length - s.reservedFrames i

/-- Contexts that an instance holds. -/
def State.ctxHeld (s : State) (i : Nat) : Nat :=
  (s.work.ctxs.filter fun p => p.2.state != 0 && p.2.inst == i).length

/-- FREE, CTX_USED and STEP_OPEN of ATT_ISTAT. -/
def State.showAtt (s : State) (i : Nat) : State :=
  ((s.setF ATT_ISTAT.FREE i (s.freeFrames i)).setF ATT_ISTAT.CTX_USED i (s.ctxHeld i)).setF ATT_ISTAT.STEP_OPEN i
    (b2n (s.work.runs.any fun r => r.inst == i && !r.prefill))

/-! ## Contexts and spill records -/

/-- The slot of a resident sequence. -/
def State.seqSlot (s : State) (i id : Nat) : Option Nat :=
  (s.work.ctxs.find? fun p => p.2.state != 0 && p.2.inst == i && p.2.seqId == id).map fun p => p.1

/-- The 64 bytes of a context record with a STATE and an EPOCH, and the CRC of bytes 00h to 37h. -/
def Ctx.record (x : Ctx) (state epoch : Nat) : List Byte :=
  let body :=
    toLE 8 (x.seqId * 2 ^ 32 + state * 2 ^ 28 + x.prio * 2 ^ 24 + x.layers * 2 ^ 16 + x.kvHeads * 2 ^ 8
      + x.dCode * 64 + x.pageCode * 16 + b2n x.spread * 8)
    ++ toLE 8 x.vaBase ++ toLE 8 (x.len * 2 ^ 32 + x.maxTokens) ++ toLE 8 x.leafAddr
    ++ toLE 8 (x.pages * 2 ^ 32 + x.lastStep) ++ toLE 8 x.spreadAddr ++ toLE 8 (x.resv * 2 ^ 32 + epoch)
  body ++ toLE 8 (x.inst * 2 ^ 48 + crc32 body)

/-- A context read back from its record. -/
def ctxOfRecord (bs : List Byte) : Ctx :=
  let w (k : Nat) := leAt bs (8 * k) 8
  { seqId := bits (w 0) 63 32, state := bits (w 0) 31 28, prio := bits (w 0) 27 24, layers := bits (w 0) 23 16,
    kvHeads := bits (w 0) 15 8, dCode := bits (w 0) 7 6, pageCode := bits (w 0) 5 4, spread := bit (w 0) 3,
    vaBase := w 1, len := bits (w 2) 63 32, maxTokens := bits (w 2) 31 0, leafAddr := w 3,
    pages := bits (w 4) 63 32, lastStep := bits (w 4) 31 0, spreadAddr := w 5, resv := bits (w 6) 63 32,
    inst := bits (w 7) 63 48 }

/-- Address of the spill record of a SEQ_ID. -/
def State.spillAt (s : State) (i id : Nat) : Nat := s.f ATT_ISPILL.SPILL_BASE i * 4096 + id * 64

/-- A record is a valid spill record of the current epoch (R117). -/
def State.spillValid (s : State) (i : Nat) (bs : List Byte) : Bool :=
  bits (leAt bs 0 8) 31 28 == 3 && leAt bs 56 4 == crc32 (bs.take 56)
    && leAt bs 48 2 == s.f ATT_ISPILLED.EPOCH i

/-- The valid spill record of a SEQ_ID, if there is one. -/
def readSpill (i id : Nat) (s : State) : Rd (Option Ctx) :=
  Rd.andThen (gRead i (s.spillAt i id) 64 s) fun bs s1 =>
    (.ok (if s1.spillValid i bs then some (ctxOfRecord bs) else none), s1)

/-- STATE of a spill record is cleared and SPILLED falls. -/
def State.clearSpill (s : State) (i id : Nat) : State :=
  match gRead i (s.spillAt i id) 64 s with
  | (.ok bs, s1) =>
    (gPut i (s1.spillAt i id) (toLE 8 (putBits (leAt bs 0 8) 31 28 0)) s1).setF ATT_ISPILLED.SPILLED i
      (s1.f ATT_ISPILLED.SPILLED i - 1)
  | (.error _, s1) => s1

/-- R115: a is less recently used than b. -/
def lessRecent (a b : Nat × Ctx) : Bool :=
  let d := sint 32 (dist32 a.2.lastStep b.2.lastStep)
  decide (d < 0) || (decide (d = 0) && decide (a.1 < b.1))

/-- The least recently used idle local context of an instance. -/
def State.spillVictim (s : State) (i : Nat) : Option (Nat × Ctx) :=
  (s.work.ctxs.filter fun p => p.2.state == 1 && p.2.inst == i && !p.2.spread).foldl
    (fun acc p => match acc with
      | none => some p
      | some q => if lessRecent p q then some p else some q) none

/-- A context is written to its spill record and its slot freed (R116). -/
def spillCtx (i : Nat) (v : Nat × Ctx) (s : State) : Rd Unit :=
  Rd.andThen (gWrite i (s.spillAt i v.2.seqId) (v.2.record 3 (s.f ATT_ISPILLED.EPOCH i)) s) fun _ s1 =>
    (.ok (), (((s1.setCtx v.1 {}).setF ATT_ISPILLED.SPILLED i (s1.f ATT_ISPILLED.SPILLED i + 1)).incSat
      ATT_ICNT.SPILLS i 1).showAtt i)

/-- A free slot of a flask's slice, the lowest. -/
def State.freeSlot (s : State) (f : Nat) : Option Nat :=
  ((List.range (s.f ATT_FSLICE.CTX_COUNT f)).map fun k => s.f ATT_FSLICE.CTX_BASE f + k).find? fun k =>
    (s.ctx k).state == 0

/-- R116: what an admission finds: a slot, a victim to spill into, or a full table. -/
inductive Room where
  | slot (k : Nat) | spill (v : Nat × Ctx) | full
  deriving DecidableEq, Repr

/-- R116: the room for an admission of an instance. -/
def State.room (s : State) (i : Nat) (allow : Bool) : Room :=
  match s.freeSlot (s.instFlask i) with
  | some k =>
    if s.ctxHeld i < s.f ATT_IQUOTA.CTX_MAX i then .slot k else tryAllow
  | none => tryAllow
where
  tryAllow : Room :=
    if !allow then .full
    else match s.spillVictim i with
      | some v => .spill v
      | none => .full

/-! ## Mapping and releasing -/

/-- Every page (l, h, j) of a sequence range. -/
def Ctx.allPages (x : Ctx) : List (Nat × Nat × Nat) :=
  (List.range x.layers).flatMap fun l => (List.range x.kvHeads).flatMap fun h =>
    (List.range x.pmax).map fun j => (l, h, j)

/-- The mapped pages of a sequence with their frames. -/
def mappedPages (i : Nat) (x : Ctx) (ps : List (Nat × Nat × Nat)) (s : State) :
    Rd (List ((Nat × Nat × Nat) × Nat)) :=
  Rd.andThen (readAll (fun p s => Rd.andThen (readLeaf i x p s) fun f s1 => (.ok (p, f), s1)) ps s) fun xs s1 =>
    (.ok (xs.filterMap fun y => y.2.map fun f => (y.1, f)), s1)

/-- Every mapping of a sequence is removed (R119). -/
def State.unmapAll (s : State) (i : Nat) (x : Ctx) (ms : List ((Nat × Nat × Nat) × Nat)) : State :=
  s.each ms fun s m => (s.decCount i m.2).setLeaf i x m.1 none

/-- A released sequence gives up its mappings, its reserved frames and its context. -/
def State.releaseSlot (s : State) (i k : Nat) (ms : List ((Nat × Nat × Nat) × Nat)) : State :=
  ((s.unmapAll i (s.ctx k) ms).setCtx k {}).showAtt i

/-! ## Admission (R116 to R118, R128) -/

/-- The context that SEQ_ADMIT describes. -/
def State.admitCtx (s : State) (x : Job) : Ctx :=
  let w := x.inl 0
  { seqId := bits w 63 32, state := 1, prio := bits w 31 28, layers := bits w 23 16, kvHeads := bits w 15 8,
    dCode := bits w 27 26, pageCode := s.f ATT_IPOOL.PAGE_CODE x.inst, spread := x.inl 5 != 0, vaBase := x.inl 1,
    maxTokens := bits (x.inl 2) 63 32, leafAddr := x.inl 3, lastStep := s.f ATT_FSLICE.STEP (s.jobFlask x),
    spreadAddr := x.inl 5, inst := x.inst }

/-- A job of the sequencer ends with an error of an access. -/
def State.attErr (s : State) (j : Nat) (e : MRes) : State := s.endJob j e.status (some 0)

/-- An admission takes its room, spilling first where it must; `after` completes it on the slot. The job ends
OK, with the spilled SEQ_ID or FFFF_FFFFh in DETAIL. -/
def State.takeRoom (s : State) (x : Job) (id : Nat) (c : Ctx) (after : Nat → State → State) : State :=
  let i := x.inst
  match s.room i (bit (x.inl 0) 7) with
  | .full => s.endJob x.id stSeqTableFull (some id)
  | .slot k => (after k ((s.setCtx k c).showAtt i)).endJob x.id stOk (some 0xFFFFFFFF)
  | .spill v =>
    match spillCtx i v s with
    | (.error e, s1) => s1.attErr x.id e
    | (.ok _, s1) => (after v.1 ((s1.setCtx v.1 c).showAtt i)).endJob x.id stOk (some v.2.seqId)

/-- A SEQ_ID is below ID_LIMIT and names no resident sequence of the instance, and the pool is enabled. -/
def State.idFree (s : State) (i id : Nat) : Bool :=
  decide (id < s.f ATT_IQUOTA.ID_LIMIT i) && (s.seqSlot i id).isNone && s.fb ATT_IPOOL.EN i

/-- R116: a local admission. -/
def State.admitLocal (s : State) (x : Job) : State :=
  let c := s.admitCtx x
  match readSpill x.inst c.seqId s with
  | (.error e, s1) => s1.attErr x.id e
  | (.ok (some _), s1) => s1.endJob x.id stMalformed (some 0)
  | (.ok none, s1) => s1.takeRoom x c.seqId c fun _ s => s

/-- R117: a re-admission from the spill record. -/
def State.admitRestore (s : State) (x : Job) : State :=
  let i := x.inst
  let id := bits (x.inl 0) 63 32
  match readSpill i id s with
  | (.error e, s1) => s1.attErr x.id e
  | (.ok none, s1) => s1.endJob x.id stMalformed (some 0)
  | (.ok (some c), s1) =>
    match gCheck i (s1.spillAt i id) s1 with
    | (.error e, s2) => s2.attErr x.id e
    | (.ok _, s2) =>
      s2.takeRoom x id { c with state := 1, prio := bits (x.inl 0) 31 28, inst := i }
        fun _ s => s.clearSpill i id

/-- The pages of a parent that hold positions 0 to n − 1. -/
def Ctx.prefixPages (x : Ctx) (n : Nat) : List (Nat × Nat × Nat) :=
  (List.range x.layers).flatMap fun l => (List.range x.kvHeads).flatMap fun h =>
    (List.range (cdiv n x.t)).map fun j => (l, h, j)

/-- R118: the parent's prefix pages are mapped into the child, read-only on both sides. -/
def State.sharePages (s : State) (i : Nat) (par : Ctx) (ms : List ((Nat × Nat × Nat) × Nat)) (k : Nat) : State :=
  let c := s.ctx k
  let s1 := s.each ms fun s m =>
    ((s.incCount i m.2).setLeaf i c m.1 (some (m.2, false))).setLeaf i par m.1 (some (m.2, false))
  (s1.setCtx k { c with pages := ms.length }).showAtt i

/-! ## Spread sequences (R127 to R129) -/

/-- The device index of head h, page j under a spread record. -/
def spreadDev (w0 h j kvHeads : Nat) : Nat :=
  let dev := bits w0 59 56
  if bits w0 63 60 = 1 then h * dev / kvHeads else j / bits w0 47 32 % dev

/-- A spread record does not pass. -/
def State.spreadBad (s : State) (rec_ : List Byte) : Bool :=
  let w0 := leAt rec_ 0 8
  let mode := bits w0 63 60
  (mode != 1 && mode != 2) || bits w0 59 56 < 2 || 8 < bits w0 59 56 || bits w0 55 48 != 0 || bits w0 31 0 != 0
    || (mode == 2 && bits w0 47 32 == 0) || leNat (rec_.drop 0x28) != 0
    || leAt rec_ 8 2 != s.f WSK_ID.DEV_ID 0

/-- Frames that the home device holds for a spread sequence up to MAX_TOKENS. -/
def homeFrames (w0 : Nat) (c : Ctx) : Nat :=
  (c.allPages.filter fun p => spreadDev w0 p.2.1 p.2.2 c.kvHeads == 0).length

/-- Pages that device number k holds for a spread sequence up to MAX_TOKENS. -/
def deviceFrames (w0 : Nat) (c : Ctx) (k : Nat) : Nat :=
  (c.allPages.filter fun p => spreadDev w0 p.2.1 p.2.2 c.kvHeads == k).length

/-- The devices of a spread other than a given one: place in the record, device and instance. -/
def spreadPeers (rec_ : List Byte) (me : Nat) : List (Nat × Nat × Nat) :=
  ((List.range (bits (leAt rec_ 0 8) 59 56)).filter (· != me)).map fun k => (k, leAt rec_ (8 + 2 * k) 2, leAt rec_ (24 + 2 * k) 2)

/-- A message to another device's sequencer, over the memory channel (R129). -/
def State.sendSpread (s : State) (dev : Nat) (m : SpreadMsg) : State := s.wskOriginate dev 2 (.spread m)

/-- R128: what a device answers to a spread admission: it needs a free context without spilling, the frames, and under FORK
the parent. -/
def State.spreadAnswer (s : State) (c : Ctx) (w0 k : Nat) (fork : Option (Nat × Nat)) : Nat :=
  match s.room c.inst false with
  | .slot _ =>
    if s.freeFrames c.inst < deviceFrames w0 c k then 2
    else
      match fork with
      | none => 0
      | some (p, n) =>
        match s.seqSlot c.inst p with
        | none => 3
        | some kp =>
          let y := s.ctx kp
          if y.layers ≠ c.layers || y.kvHeads ≠ c.kvHeads || y.dCode ≠ c.dCode || y.len < n then 3 else 0
  | _ => 1

/-- R118, R128: the context of a spread sequence on a device: it is created with the frames reserved, and a fork shares the
parent's prefix pages that the device holds. -/
def State.spreadPlace (s : State) (c : Ctx) (w0 k : Nat) (fork : Option (Nat × Nat)) : State :=
  match s.room c.inst false with
  | .slot slot =>
    let s1 := (s.setCtx slot { c with resv := deviceFrames w0 c k }).showAtt c.inst
    match fork with
    | none => s1
    | some (p, n) =>
      match s1.seqSlot c.inst p with
      | none => s1
      | some kp =>
        match mappedPages c.inst (s1.ctx kp) ((s1.ctx kp).prefixPages n) s1 with
        | (.ok ms, s2) => s2.sharePages c.inst (s2.ctx kp) ms slot
        | (.error _, s2) => s2
  | _ => s

/-- A spread sequence that a device gives up. -/
def State.spreadDrop (s : State) (i id : Nat) : State :=
  match s.seqSlot i id with
  | none => s
  | some k =>
    match mappedPages i (s.ctx k) (s.ctx k).allPages s with
    | (.ok ms, s1) => s1.releaseSlot i k ms
    | (.error _, s1) => (s1.setCtx k {}).showAtt i

/-- R118, R128: the end of a spread admission by its answer. -/
def State.spreadEnd (s : State) (x : Job) (code : Nat) : State :=
  let id := bits (x.inl 0) 63 32
  match code with
  | 0 => s.endJob x.id stOk (some 0xFFFFFFFF)
  | 1 => s.endJob x.id stSeqTableFull (some id)
  | 2 => s.endJob x.id stKvDeferred (some id)
  | _ => s.endJob x.id stMalformed (some 0)

/-- R128: the last answer has come: the admission is complete, or is undone on every device. -/
def State.spreadSettle (s : State) (x : Job) (code : Nat) : State :=
  let id := bits (x.inl 0) 63 32
  if code = 0 then s.spreadEnd x 0
  else
    let s1 := match instRead s x.inst (x.inl 5) 64 with
      | (.ok rec_, s1) => s1.each (spreadPeers rec_ 0) fun s p => s.sendSpread p.2.1 (.member p.2.2 id 2)
      | (_, s1) => s1
    (s1.spreadDrop x.inst id).spreadEnd x code

/-- The worse of two answers: a full table, then lacking frames, then a parent that does not serve (DESIGN CHOICE, log
entry 27). -/
def worseAnswer (a b : Nat) : Nat := if a = 0 then b else if b = 0 then a else min a b

/-- R128: a spread admission on the home device: its own context and frames first, then every other device is asked. A
device that cannot be reached admits nothing; which of the two statuses says so is a free value (log entry 27). -/
def State.admitSpread (s : State) (x : Job) (c : Ctx) (fork : Option (Nat × Nat)) : State :=
  match instRead s x.inst c.spreadAddr 64 with
  | (.ok rec_, s1) =>
    if s1.spreadBad rec_ then s1.endJob x.id stMalformed (some 0)
    else
      let w0 := leAt rec_ 0 8
      match s1.spreadAnswer c w0 0 fork with
      | 0 =>
        let peers := spreadPeers rec_ 0
        if peers.all fun p => (s1.wskRoute p.2.1).isSome then
          let s2 := (s1.spreadPlace c w0 0 fork).modJob x.id fun y => { y with await := peers.length, answer := 0 }
          s2.each peers fun s p => s.sendSpread p.2.1
            (.admission p.1 x.id (({ c with inst := p.2.2 } : Ctx).record 1 0) rec_ fork)
        else
          let (v, s2) := s1.fresh
          s2.endJob x.id (if v % 2 = 0 then stSeqTableFull else stKvDeferred) (some c.seqId)
      | k => s1.spreadEnd x k
  | (e, s1) => s1.attErr x.id e

/-- R118: an admission that shares a prefix. -/
def State.admitFork (s : State) (x : Job) : State :=
  let i := x.inst
  let n := bits (x.inl 4) 31 0
  let c := { s.admitCtx x with len := n }
  match s.seqSlot i (bits (x.inl 4) 63 32) with
  | none => s.endJob x.id stMalformed (some 0)
  | some k =>
    let p := s.ctx k
    if p.state ≠ 1 || p.layers ≠ c.layers || p.kvHeads ≠ c.kvHeads || p.dCode ≠ c.dCode || p.len < n
        || c.maxTokens < n then s.endJob x.id stMalformed (some 0)
    else if c.spread then s.admitSpread x c (some (bits (x.inl 4) 63 32, n))
    else
      match mappedPages i p (p.prefixPages n) s with
      | (.error e, s1) => s1.attErr x.id e
      | (.ok ms, s1) =>
        match readAll (fun q s => gCheck i (c.leafAt (c.pageVa q.1 q.2.1 q.2.2)) s) (c.prefixPages n) s1 with
        | (.error e, s2) => s2.attErr x.id e
        | (.ok _, s2) => s2.takeRoom x c.seqId c fun k s => s.sharePages i p ms k

/-! ## Sweep (R113) -/

/-- A recount that ignores pages whose leaf entries cannot be read. -/
def recountCtx (i : Nat) (x : Ctx) (acc : NMap Nat × State) : NMap Nat × State :=
  x.allPages.foldl (fun a p =>
    match readLeaf i x p a.2 with
    | (.ok (some f), s) => (NMap.set a.1 0 f (min 0xFFFF (NMap.get a.1 0 f + 1)), s)
    | (_, s) => (a.1, s)) acc

/-- A spill record with STATE 3h is recounted and adopted under the current epoch. -/
def adoptSpill (i : Nat) (acc : NMap Nat × Nat × State) (id : Nat) : NMap Nat × Nat × State :=
  let s := acc.2.2
  match gRead i (s.spillAt i id) 64 s with
  | (.ok bs, s1) =>
    if bits (leAt bs 0 8) 31 28 = 3 then
      let x := ctxOfRecord bs
      let (m, s2) := recountCtx i x (acc.1, s1)
      (m, acc.2.1 + 1, gPut i (s2.spillAt i id) (x.record 3 (s2.f ATT_ISPILLED.EPOCH i)) s2)
    else (acc.1, acc.2.1, s1)
  | (.error _, s1) => (acc.1, acc.2.1, s1)

/-- R113: the sweep writes the new counts and adopts the spill records, and the held jobs may proceed. -/
def State.sweepEnd (s : State) (i : Nat) : State :=
  if !s.work.sweeping.contains i then s
  else
    let r1 := (s.work.ctxs.filter fun p => p.2.state != 0 && p.2.inst == i).foldl
      (fun acc p => recountCtx i p.2 acc) ([], s)
    let r2 := (List.range (s.f ATT_IQUOTA.ID_LIMIT i)).foldl (adoptSpill i) (r1.1, 0, r1.2)
    let s2 := r2.2.2
    let base := s2.f ATT_IFRAMES.RC_BASE i
    let n := s2.f ATT_IFRAMES.FRAMES i
    let kept := s2.work.refc.filter fun p => decide (p.1 < base) || decide (base + n ≤ p.1)
    let new := (r2.1.filter fun p => decide (p.1 < n)).foldl (fun m p => NMap.set m 0 (base + p.1) p.2) kept
    ((({ s2 with work.refc := new, work.sweeping := s2.work.sweeping.filter (· != i) }).setF ATT_ISPILLED.SPILLED i
      r2.2.1).setF ATT_ICTRL.SWEEP i 0).showAtt i

/-! ## Ends of steps and prefills (R120, R123) -/

/-- A step or prefill closes: its contexts are idle, and with `add` positions their LEN rises. -/
def State.closeRun (s : State) (r : OpenRun) (add : Nat) : State :=
  let s1 := s.each r.run fun s e =>
    match s.seqSlot r.inst e.2 with
    | some k => s.setCtx k { s.ctx k with state := 1, len := (s.ctx k).len + add }
    | none => s
  ({ s1 with work.runs := s1.work.runs.filter fun y => y != r }).showAtt r.inst

/-- R123: the steps and prefills of an instance close with LEN unchanged. -/
def State.closeRuns (s : State) (i : Nat) : State :=
  s.each (s.work.runs.filter fun r => r.inst == i) fun s r => s.closeRun r 0

end Sys2Proof.Machine
end

