-- ==== Sys2Proof/Machine/AttnRun.lean ====
section
/-! DEFINITION. Steps and prefills (R120 to R125, R129): the first job's classification and mapping, the rows
that every job appends, and the attention it computes. Then the meanings of the attention jobs. -/

namespace Sys2Proof.Machine

/-! ## The operator record -/

def atLayer (x : Job) : Nat := bits (x.pw 0) 63 56
def atFirst (x : Job) : Bool := bit (x.pw 0) 55
def atLast (x : Job) : Bool := bit (x.pw 0) 54
def atQFmt (x : Job) : Nat := bits (x.pw 0) 53 50
def atOutFmt (x : Job) : Nat := bits (x.pw 0) 49 46
def atDCode (x : Job) : Nat := bits (x.pw 0) 45 44
def atKv (x : Job) : Nat := bits (x.pw 0) 43 36
def atGroup (x : Job) : Nat := bits (x.pw 0) 31 24
def atEntries (x : Job) : Nat := bits (x.pw 0) 10 0
def atBatch (x : Job) : Nat := x.pw 1
def atNtok (x : Job) : Nat := bits (x.pw 7) 63 48

/-- Result codes of batch entries. -/
def rRan : Nat := 0
def rPaused : Nat := 1
def rDeferred : Nat := 2
def rNotResident : Nat := 3
def rReleased : Nat := 4
def rLeft : Nat := 5
def rBusy : Nat := 6
def rLimit : Nat := 7
def rShape : Nat := 8
def rPeerLost : Nat := 9

/-- A batch entry under classification: position, SEQ_ID, ACTION, table slot and result. -/
structure BEnt where
  pos : Nat
  id : Nat
  act : Nat
  slot : Nat := 0
  res : Option Nat := none
  /-- LEN of the result word -/
  len : Nat := 0
  /-- what the entry's positions need: page, frame now mapped, and its count (R114, R121) -/
  pages : List ((Nat × Nat × Nat) × Option (Nat × Nat)) := []
  deriving DecidableEq, Repr

/-- R121: the first classification of an entry. -/
def State.classify (s : State) (x : Job) (before : List BEnt) (e : BEnt) : BEnt :=
  match s.seqSlot x.inst e.id with
  | none => { e with res := some rNotResident }
  | some k =>
    let c := s.ctx k
    let e1 := { e with slot := k, len := c.len }
    if c.state = 2 || before.any (fun y => y.id == e.id) then { e1 with res := some rBusy }
    else if c.maxTokens < c.len + atNtok x then { e1 with res := some rLimit }
    else if c.dCode ≠ atDCode x || c.kvHeads ≠ atKv x then { e1 with res := some rShape }
    else e1

/-- Every entry classified in list order. -/
def State.classifyAll (s : State) (x : Job) (es : List BEnt) : List BEnt :=
  es.foldl (fun acc e => acc ++ [s.classify x acc e]) []

/-- The entries of a batch list. -/
def batchEntries (bs : List Byte) (n : Nat) : List BEnt :=
  (List.range n).map fun k =>
    let w := leAt bs (8 * k) 8
    { pos := k, id := bits w 63 32, act := bits w 31 30 }

/-- The pages that the new positions of a sequence fall into, over all layers and heads. -/
def Ctx.newPages (c : Ctx) (ntok : Nat) : List (Nat × Nat × Nat) :=
  let j0 := c.len / c.t
  let j1 := (c.len + ntok - 1) / c.t
  (List.range c.layers).flatMap fun l => (List.range c.kvHeads).flatMap fun h =>
    (List.range (j1 + 1 - j0)).map fun k => (l, h, j0 + k)

/-- The home device's pages of a spread sequence, all pages of a local one. -/
def Ctx.homePage (w0 : Nat) (c : Ctx) (p : Nat × Nat × Nat) : Bool :=
  !c.spread || spreadDev w0 p.2.1 p.2.2 c.kvHeads == 0

/-- Word 0 of a spread record; 0 for a local sequence. -/
def spreadW0 (i : Nat) (c : Ctx) (s : State) : Rd Nat :=
  if !c.spread then (.ok 0, s)
  else
    match instRead s i c.spreadAddr 8 with
    | (.ok bs, s1) => (.ok (leNat bs), s1)
    | (e, s1) => (.error e, s1)

/-! ## The check before any change (R121) -/

/-- A page that is to be copied is read whole. -/
def checkCopy (i : Nat) (c : Ctx) (f : Option Nat) (s : State) : Rd Unit :=
  match f with
  | some fr =>
    if 1 < s.refCount i fr then Rd.andThen (gRead i (s.frameGpa i fr) c.ps s) fun _ s1 => (.ok (), s1)
    else (.ok (), s)
  | none => (.ok (), s)

/-- Every leaf entry that an entry may change is read and translated for a write. -/
def checkPage (i : Nat) (c : Ctx) (copy : Bool) (p : Nat × Nat × Nat) (s : State) : Rd Unit :=
  Rd.andThen (readLeaf i c p s) fun f s1 =>
    Rd.andThen (gCheck i (c.leafAt (c.pageVa p.1 p.2.1 p.2.2)) s1) fun _ s2 =>
      if copy then checkCopy i c f s2 else (.ok (), s2)

/-- The pages an unclassified entry may touch. -/
def State.touched (s : State) (x : Job) (e : BEnt) : List (Nat × Nat × Nat) :=
  let c := s.ctx e.slot
  if e.act = 2 then c.allPages else if e.act = 3 then [] else c.newPages (atNtok x)

/-- The checks of every unclassified entry, and of the result words. -/
def checkAll (x : Job) (es : List BEnt) (s : State) : Rd Unit :=
  Rd.andThen (readAll (fun e s =>
      if e.res.isSome then (.ok (), s)
      else Rd.andThen (readAll (fun p s => checkPage x.inst (s.ctx e.slot) (e.act < 2) p s) (s.touched x e) s)
        fun _ s1 => (.ok (), s1)) es s) fun _ s1 =>
    Rd.andThen (readAll (fun k s =>
      match s.xlate x.inst (x.pw 6 + 8 * k) true with
      | (some _, s2) => (.ok (), s2)
      | (none, s2) => ((.error .xlate : Except MRes Unit), s2)) (List.range (atEntries x)) s1)
      fun _ s2 => (.ok (), s2)

/-! ## Phases (R114, R121) -/

/-- R129: the other devices of a spread sequence hear that it is released (2) or leaves (3). -/
def State.tellPeers (s : State) (i : Nat) (c : Ctx) (act : Nat) : State :=
  if !c.spread then s
  else
    match instRead s i c.spreadAddr 64 with
    | (.ok rec_, s1) => s1.each (spreadPeers rec_ 0) fun s p => s.sendSpread p.2.1 (.member p.2.2 c.seqId act)
    | (_, s1) => s1

/-- Phase 1: releases and leaves. -/
def State.phase1 (x : Job) (acc : List BEnt × State) (e : BEnt) : List BEnt × State :=
  let s := acc.2
  if e.res.isSome then (acc.1 ++ [e], s)
  else if e.act = 2 then
    let c := s.ctx e.slot
    match mappedPages x.inst c c.allPages s with
    | (.ok ms, s1) =>
      (acc.1 ++ [{ e with res := some rReleased }], (s1.tellPeers x.inst c 2).releaseSlot x.inst e.slot ms)
    | (.error _, s1) => (acc.1 ++ [e], s1)
  else if e.act = 3 then (acc.1 ++ [{ e with res := some rLeft }], s.tellPeers x.inst (s.ctx e.slot) 3)
  else (acc.1 ++ [e], s)

/-- The demand of an entry, evaluated after phase 1: its pages with the frame and count of each. A spread
sequence maps its home pages from its reserve. -/
def State.demand (x : Job) (acc : List BEnt × State) (e : BEnt) : List BEnt × State :=
  let s := acc.2
  if e.res.isSome then (acc.1 ++ [e], s)
  else
    let c := s.ctx e.slot
    match spreadW0 x.inst c s with
    | (.error _, s1) => (acc.1 ++ [{ e with res := some rPeerLost }], s1)
    | (.ok w0, s1) =>
      match readAll (fun p s => Rd.andThen (readLeaf x.inst c p s) fun f s2 =>
          (.ok (p, f.map fun fr => (fr, s2.refCount x.inst fr)), s2))
          ((c.newPages (atNtok x)).filter (c.homePage w0)) s1 with
      | (.ok ps, s2) => (acc.1 ++ [{ e with pages := ps }], s2)
      | (.error _, s2) => (acc.1 ++ [e], s2)

/-- R121: need(s): the (l, h) pairs for which a page of the new positions is not mapped or is shared. A pair counts once,
however many of its pages take a frame (log entry 28). -/
def State.need (s : State) (e : BEnt) : Nat :=
  if (s.ctx e.slot).spread then 0
  else ((e.pages.filter fun p => match p.2 with | none => true | some q => decide (1 < q.2)).foldl
    (fun acc p => insNat acc (256 * p.1.1 + p.1.2.1)) []).length

/-- Copy a page into a free frame (R114). -/
def State.copyPage (s : State) (i old new n : Nat) : State :=
  match gRead i (s.frameGpa i old) n s with
  | (.ok bs, s1) => gPut i (s1.frameGpa i new) bs s1
  | (.error _, s1) => s1

/-- Map one page of an entry: a new frame, a copy on write, or W set in the entries that stand. -/
def State.mapOne (i slot : Nat) (s : State) (p : (Nat × Nat × Nat) × Option (Nat × Nat)) : State :=
  let c := s.ctx slot
  let took (s : State) : State :=
    if c.spread then s.setCtx slot { s.ctx slot with resv := (s.ctx slot).resv - 1 } else s
  match p.2 with
  | none =>
    match s.freeFrame i with
    | none => s
    | some f =>
      let s1 := took ((s.setCount i f 1).setLeaf i c p.1 (some (f, true)))
      s1.setCtx slot { s1.ctx slot with pages := (s1.ctx slot).pages + 1 }
  | some (old, n) =>
    if n ≤ 1 then s.setLeaf i c p.1 (some (old, true))
    else
      match s.freeFrame i with
      | none => s
      | some f =>
        (((s.setCount i f 1).copyPage i old f c.ps).decCount i old |>.setLeaf i c p.1 (some (f, true))).incSat
          ATT_ICNT.COW_COPIES i 1

/-- Map the pages of an entry. -/
def State.mapEnt (s : State) (i : Nat) (e : BEnt) : State := e.pages.foldl (State.mapOne i e.slot) s

/-- PRIO descending, then list position ascending. -/
def State.entBefore (s : State) (a b : BEnt) : Bool :=
  let p := (s.ctx a.slot).prio
  let q := (s.ctx b.slot).prio
  decide (q < p) || (p == q && decide (a.pos ≤ b.pos))

/-- Insert an entry in order. -/
def State.entInsert (s : State) (e : BEnt) : List BEnt → List BEnt
  | [] => [e]
  | y :: ys => if s.entBefore y e then y :: s.entInsert e ys else e :: y :: ys

/-- Entries in the order of G. -/
def State.entSort (s : State) (es : List BEnt) : List BEnt := es.foldl (fun acc e => s.entInsert e acc) []

/-- Set the result of the entry at a position. -/
def setRes (es : List BEnt) (pos r : Nat) : List BEnt :=
  es.map fun e => if e.pos = pos then { e with res := some r } else e

/-- Phase 2: the last members of G are paused until the demand of the rest fits. -/
def State.shrink (s : State) (free : Nat) : Nat → List BEnt → List BEnt
  | 0, g => g
  | fuel + 1, g => if (g.map s.need).sum ≤ free then g else s.shrink free fuel g.dropLast

/-- A spread sequence whose devices can all be reached; none of a sequence that is not spread. -/
def State.peersUp (s : State) (i : Nat) (c : Ctx) : Bool × State :=
  if !c.spread then (true, s)
  else
    match instRead s i c.spreadAddr 64 with
    | (.ok rec_, s1) => ((spreadPeers rec_ 0).all fun p => (s1.wskRoute p.2.1).isSome, s1)
    | (_, s1) => (false, s1)

/-- R129: a spread entry whose devices cannot all be reached gets PEER_LOST. -/
def State.forward (x : Job) (acc : List BEnt × State) (e : BEnt) : List BEnt × State :=
  let s := acc.2
  if e.res.isSome then (acc.1 ++ [e], s)
  else
    match s.peersUp x.inst (s.ctx e.slot) with
    | (true, s1) => (acc.1 ++ [e], s1)
    | (false, s1) => (acc.1 ++ [{ e with res := some rPeerLost }], s1)

/-- Phases 2 and 3 over entries whose demand is known. -/
def State.phases (s : State) (x : Job) (es : List BEnt) : List BEnt × State :=
  let i := x.inst
  let free := s.freeFrames i
  let g := s.entSort (es.filter fun e => e.res.isNone && e.act == 0 && 0 < s.need e)
  let kept := s.shrink free g.length g
  let paused := g.filter fun e => !kept.any fun y => y.pos == e.pos
  let es1 := paused.foldl (fun es e => setRes es e.pos rPaused) es
  let s1 := s.incSat ATT_ICNT.PAUSES i paused.length
  let stay := s.entSort (es1.filter fun e => e.res.isNone && e.act == 0)
  let s2 := s1.each stay fun s e => s.mapEnt i e
  let es2 := stay.foldl (fun es e => setRes es e.pos rRan) es1
  let free2 := free - (kept.map s.need).sum
  let js := s.entSort (es2.filter fun e => e.res.isNone && e.act == 1)
  let r := js.foldl (fun (acc : List BEnt × Nat × State) e =>
    let n := s.need e
    if n ≤ acc.2.1 then (setRes acc.1 e.pos rRan, acc.2.1 - n, acc.2.2.mapEnt i e)
    else (setRes acc.1 e.pos rDeferred, acc.2.1, acc.2.2.incSat ATT_ICNT.DEFERRALS i 1)) (es2, free2, s2)
  (r.1, r.2.2.showAtt i)

/-- The contexts of the run set are busy; a step stamps them with its number (R115). -/
def State.markBusy (s : State) (f : Nat) (step : Bool) (es : List BEnt) : State :=
  s.each (es.filter fun e => e.res == some rRan) fun s e =>
    let c := s.ctx e.slot
    s.setCtx e.slot { c with state := 2, lastStep := if step then s.f ATT_FSLICE.STEP f else c.lastStep }

/-- Every result word is written. -/
def State.writeResults (s : State) (x : Job) (es : List BEnt) : MRes × State :=
  writeAll x.inst (es.map fun e =>
    let r := e.res.getD rNotResident
    (x.pw 6 + 8 * e.pos, toLE 8 (r * 2 ^ 56 + (if r = rRan then e.len + atNtok x else e.len) % 2 ^ 32))) s

/-! ## Rows: appending and attending (R123 to R125) -/

/-- A column sum in passes of 128 products (R47, R76): values and weights, padded with +0. -/
def passSum (xs ws : List Nat) (rows : Nat) : Nat :=
  let passes := cdiv rows 128
  let one (p : Nat) : Nat :=
    let ps := (List.range 128).map fun r =>
      let k := 128 * p + r
      if k < xs.length then (f32prod (xs.getD k 0) (ws.getD k 0)).1 else 0
    (ps.drop 1).foldl f32add (ps.headD 0)
  (List.range passes).foldl (fun acc p => if p = 0 then one 0 else f32add acc (one p)) 0

/-- Elements of a row, expanded with scale 0. -/
def rowElems (fmt d : Nat) (bs : List Byte) : List Nat := (elems fmt d bs).map fun c => (expand fmt c 0).1

/-- Bytes of an input row. -/
def atRowBytes (x : Job) (c : Ctx) : Nat := c.d * fmtBytes (atQFmt x)

/-- Read a range of an instance, as a result that may fail. -/
def readBytes (i addr n : Nat) (s : State) : Rd (List Byte) :=
  match instRead s i addr n with
  | (.ok bs, s1) => (.ok bs, s1)
  | (e, s1) => (.error e, s1)

/-- Write a range of an instance, as a result that may fail. -/
def writeBytes (i addr : Nat) (bs : List Byte) (s : State) : Rd Unit :=
  match instWrite s i addr bs with
  | (.ok _, s1) => (.ok (), s1)
  | (e, s1) => (.error e, s1)

/-- R88: a row has a finite element above 448 × 2^63 in magnitude, which is stored limited to 448. -/
def kvOver (xs : List Nat) : Bool :=
  xs.any fun c => match ofF32 c with
    | .fin _ m e => fvLt false (.fin false 448 63) (.fin false m e)
    | _ => false

/-- R88: the sequencer counts the inputs of a row that are not finite, and a limited row. -/
def State.countKv (s : State) (xs : List Nat) : State :=
  let n := (xs.filter fun c => match ofF32 c with | .fin _ _ _ => false | _ => true).length
  { s with work.kvNonFinite := s.work.kvNonFinite + n
           work.kvLimited := s.work.kvLimited + (if kvOver xs then 1 else 0) }

/-- One position's key and value rows of head h, as bytes of the home instance. -/
def kvRows (x : Job) (c : Ctx) (e u h : Nat) (s : State) : Rd (Nat × Nat × List Byte × List Byte) :=
  let row := (e * atNtok x + u) * atKv x + h
  Rd.andThen (readBytes x.inst (x.pw 3 + row * atRowBytes x c) (atRowBytes x c) s) fun ks s1 =>
    Rd.andThen (readBytes x.inst (x.pw 4 + row * atRowBytes x c) (atRowBytes x c) s1) fun vs s2 => (.ok (u, h, ks, vs), s2)

/-- One position's key and value of head h are compacted into its slot (R88, R109). -/
def appendRow (x : Job) (c : Ctx) (r : Nat × Nat × List Byte × List Byte) (s : State) : Rd Unit :=
  let ks := rowElems (atQFmt x) c.d r.2.2.1
  let vs := rowElems (atQFmt x) c.d r.2.2.2
  let p := c.len + r.1
  let va := c.pageVa (atLayer x) r.2.1 (p / c.t)
  let sl := p % c.t
  let code (xs : List Nat) := xs.map fun v => BitVec.ofNat 8 (kvCode (kvShift xs) v)
  Rd.andThen (writeBytes x.inst (va + sl * 2 * c.d) (code ks ++ code vs) ((s.countKv ks).countKv vs)) fun _ s1 =>
    writeBytes x.inst (va + 2 * c.t * c.d + 2 * sl)
      [BitVec.ofNat 8 (uint 8 (kvShift ks)), BitVec.ofNat 8 (uint 8 (kvShift vs))] s1

/-- A stored slot: the expanded key, the value codes expanded with scale 0, and the value shift. -/
structure KvSlot where
  key : List Nat
  val : List Nat
  vshift : Int
  deriving DecidableEq, Repr

/-- Read slot `sl` of a page at address `va`. -/
def readSlot (i : Nat) (c : Ctx) (va sl : Nat) (s : State) : Rd KvSlot :=
  match instRead s i (va + sl * 2 * c.d) (2 * c.d) with
  | (.ok bs, s1) =>
    match instRead s1 i (va + 2 * c.t * c.d + 2 * sl) 2 with
    | (.ok sh, s2) =>
      let ek := sint 8 (leAt sh 0 1)
      (.ok { key := (elems 6 c.d bs).map fun k => (expand 6 k ek).1,
             val := (elems 6 c.d (bs.drop c.d)).map fun k => (expand 6 k 0).1,
             vshift := sint 8 (leAt sh 1 1) }, s2)
    | (e, s2) => (.error e, s2)
  | (e, s1) => (.error e, s1)

/-- R124: p × 2^vshift rounded once into CF19. -/
def cf19Scale (p : Nat) (k : Int) : Nat := (convert 10 (scaleFV (ofF32 p) k) 0).code

/-- R124: the chunk result of a query row over the slots of one page, and whether a score is NaN or +∞. -/
def chunkResult (t : Nat) (q : List Nat) (slots : List KvSlot) : FoldSt × Bool :=
  let ss := slots.map fun k => passSum q k.key (max 128 q.length)
  let m := (ss.drop 1).foldl f32max (ss.headD 0)
  let ps := ss.map fun v => vexp (f32add v (f32neg m))
  let l := (ps.drop 1).foldl f32add (ps.headD 0)
  let ps' := (ps.zip slots).map fun p => cf19Scale p.1 p.2.vshift
  let o := (List.range q.length).map fun d => passSum ps' (slots.map fun k => k.val.getD d 0) t
  ({ m := m, l := l, o := o },
   ss.any fun v => match ofF32 v with | .nan => true | .inf n => !n | _ => false)

/-- The slots of page j that a query at position p attends to. -/
def pageSlots (x : Job) (c : Ctx) (h p j : Nat) (s : State) : Rd (List KvSlot) :=
  let va := c.pageVa (atLayer x) h j
  readAll (fun sl s => readSlot x.inst c va sl s) (List.range (min c.t (p + 1 - j * c.t))) s

/-- R125: the fold takes the chunk of its next page. -/
def foldNext (f : FoldPart) (r : FoldSt × Bool) : FoldPart :=
  let g : FoldSt := if f.page = 0 then r.1 else foldChunk { m := f.m, l := f.l, o := f.o } r.1
  { page := f.page + 1, m := g.m, l := g.l, o := g.o, bad := f.bad || r.2 }

/-- R124, R125, R129: the fold of a query at position p goes on over the pages that device `me` holds, in ascending order,
until the last page or one of another device; `fuel` bounds the pages. -/
def foldPages (x : Job) (c : Ctx) (w0 me h p : Nat) (qs : List Nat) : Nat → FoldPart → State → Rd FoldPart
  | 0, f, s => (.ok f, s)
  | fuel + 1, f, s =>
    if p / c.t < f.page || (c.spread && spreadDev w0 h f.page c.kvHeads != me) then (.ok f, s)
    else
      match pageSlots x c h p f.page s with
      | (.ok sl, s1) => foldPages x c w0 me h p qs fuel (foldNext f (chunkResult c.t qs sl)) s1
      | (.error e, s1) => (.error e, s1)

/-- R125: the output row of a complete fold. -/
def outRow (x : Job) (f : FoldPart) : List Conv :=
  if f.bad then f.o.map fun _ => convert (atOutFmt x) .nan 0
  else foldOut (atOutFmt x) { m := f.m, l := f.l, o := f.o }

/-- Where an output row lies. -/
def outAddr (x : Job) (c : Ctx) (e u q : Nat) : Nat :=
  x.pw 5 + ((e * atNtok x + u) * (atKv x * atGroup x) + q) * (c.d * fmtBytes (atOutFmt x))

/-- R129: one query row on device `me`: the fold goes on here; then the output row is written, or sent to the home device
(device 0), or the fold passes to the device of its next page. The home device notes a row that it sends away. -/
def queryRow (x : Job) (c : Ctx) (rec_ : List Byte) (me : Nat) (y : SpreadQuery) (s : State) : Rd Unit :=
  let w0 := leAt rec_ 0 8
  let h := y.q / atGroup x
  let p := c.len + y.u
  let dev (k : Nat) := leAt rec_ (8 + 2 * k) 2
  Rd.andThen (foldPages x c w0 me h p (rowElems (atQFmt x) c.d y.row) (p / c.t + 1) y.part s) fun f s1 =>
    if p / c.t < f.page then
      let out := outRow x f
      let bs := packElems (atOutFmt x) (out.map fun v => v.code)
      let sat := out.any fun v => v.sat
      let va := outAddr x c y.ent y.u y.q
      if me = 0 then writeBytes x.inst va bs (s1.whenB sat fun s => s.cflag x.id 4)
      else (.ok (), s1.sendSpread (dev 0) (.out x.id va bs sat stOk))
    else
      let k := spreadDev w0 h f.page c.kvHeads
      let m : SpreadRows := { index := k, job := x.id, seqId := c.seqId, rec_ := rec_, op := x.param, len := c.len,
                              kv := [], qs := [{ y with part := f }] }
      let s2 := if me = 0 then s1.modJob x.id fun j => { j with await := j.await + 1 } else s1
      (.ok (), s2.sendSpread (dev k) (.rows m))

/-- R129: an entry whose device has become unreachable: PEER_LOST, and it leaves the run set. -/
def State.losePeer (s : State) (x : Job) (e k : Nat) (r : OpenRun) : State :=
  let c := s.ctx k
  let s1 := (instWrite s x.inst (x.pw 6 + 8 * e) (toLE 8 (rPeerLost * 2 ^ 56 + c.len))).2
  { s1.setCtx k { c with state := 1 } with
    work.runs := s1.work.runs.map fun q => if q = r then { q with run := q.run.filter fun y => y.2 != c.seqId } else q }

/-- The work of one run-set entry: append its rows, then compute its query rows. Of a spread sequence each device gets the
key and value rows of its own pages, and the fold of each query row starts on the device of its first page (R129). -/
def runEntry (x : Job) (r : OpenRun) (e : Nat × Nat) (s : State) : Rd Unit :=
  match s.seqSlot x.inst e.2 with
  | none => (.ok (), s)
  | some k =>
    let c := s.ctx k
    match s.peersUp x.inst c with
    | (false, s1) => (.ok (), s1.losePeer x e.1 k r)
    | (true, s1) =>
      Rd.andThen (if c.spread then readBytes x.inst c.spreadAddr 64 s1 else (.ok [], s1)) fun rec_ s2 =>
        let w0 := leAt rec_ 0 8
        let us := List.range (atNtok x)
        let home (u h : Nat) : Nat := if c.spread then spreadDev w0 h ((c.len + u) / c.t) c.kvHeads else 0
        Rd.andThen (readAll (fun p s => kvRows x c e.1 p.1 p.2 s)
          (us.flatMap fun u => (List.range (atKv x)).map fun h => (u, h)) s2) fun rows s3 =>
          let s4 := if !c.spread then s3 else s3.each (spreadPeers rec_ 0) fun s p => s.sendSpread p.2.1
            (.rows { index := p.1, job := x.id, seqId := c.seqId, rec_ := rec_, op := x.param, len := c.len,
                     kv := rows.filter fun y => home y.1 y.2.1 == p.1, qs := [] })
          Rd.andThen (readAll (appendRow x c) (rows.filter fun y => home y.1 y.2.1 == 0) s4) fun _ s5 =>
            Rd.andThen (readAll (fun (p : Nat × Nat) s =>
              let row := (e.1 * atNtok x + p.1) * (atKv x * atGroup x) + p.2
              Rd.andThen (readBytes x.inst (x.pw 2 + row * atRowBytes x c) (atRowBytes x c) s) fun bs s1 =>
                queryRow x c rec_ 0 { ent := e.1, u := p.1, q := p.2, row := bs, part := { page := 0 } } s1)
              (us.flatMap fun u => (List.range (atKv x * atGroup x)).map fun q => (u, q)) s5) fun _ s6 => (.ok (), s6)

/-- The open step of an instance, or the open prefill that a job names: the one with its BATCH_ADDR, and of several the one
of its sequence. -/
def State.openRun (s : State) (x : Job) (ids : List Nat) : Option OpenRun :=
  if x.opcode = 5 then s.work.runs.find? fun r => r.inst == x.inst && !r.prefill
  else
    match s.work.runs.filter fun r => r.inst == x.inst && r.prefill && r.batch == atBatch x with
    | [] => none
    | [r] => some r
    | rs => rs.find? fun r => r.ids == ids

/-- R123: a job of a step or prefill ends once every output row has been written, and closes it when it is the LAST. -/
def State.rowsDone (s : State) (x : Job) (r : OpenRun) (status detail : Nat) : State :=
  (if atLast x then
      match s.work.runs.find? fun q => q.inst == r.inst && q.prefill == r.prefill && q.batch == r.batch && q.ids == r.ids with
      | some q => s.closeRun q (atNtok x)
      | none => s
    else s).endJob x.id status (some detail)

/-- Every job of a step or prefill: the rows of the run set, and the end, which waits for the rows that other devices
compute (R129). -/
def State.runRows (s : State) (x : Job) (r : OpenRun) (status : Nat) (detail : Nat) : State :=
  match readAll (runEntry x r) r.run (s.modJob x.id fun y => { y with runIds := r.ids }) with
  | (.ok _, s1) =>
    if (s1.job x.id).any fun y => decide (0 < y.await) then s1.modJob x.id fun y => { y with fin := some (status, detail) }
    else s1.rowsDone x r status detail
  | (.error e, s1) => (if atLast x then s1.closeRun r 0 else s1).attErr x.id e

/-! ## The jobs of a step and a prefill (R120 to R122) -/

/-- A prefill of a sequence is open. -/
def State.prefillOpen (s : State) (i id : Nat) : Bool :=
  s.work.runs.any fun r => r.inst == i && r.prefill && r.ids.contains id

/-- The run set is fixed, the step or prefill opens, and the job's own rows follow. -/
def State.openWith (s : State) (x : Job) (es : List BEnt) : State :=
  let step := decide (x.opcode = 5)
  let s1 := s.markBusy (s.jobFlask x) step es
  let r : OpenRun := { inst := x.inst, prefill := !step, batch := atBatch x, entries := atEntries x, ntok := atNtok x,
                       run := (es.filter fun e => e.res == some rRan).map fun e => (e.pos, e.id)
                       ids := es.map fun e => e.id }
  let s2 := ({ s1 with work.runs := s1.work.runs ++ [r] }).showAtt x.inst
  match s2.writeResults x es with
  | (.ok _, s3) =>
    match es.find? fun e => e.res == some rDeferred with
    | some e => s3.runRows x r stKvDeferred e.id
    | none => s3.runRows x r stOk 0
  | (e, s3) => s3.attErr x.id e

/-- The FIRST job over its batch list. A prefill whose demand does not fit changes nothing but its result. -/
def State.openFirst (s : State) (x : Job) (es : List BEnt) : State :=
  let step := decide (x.opcode = 5)
  if !step && es.any (fun e => s.prefillOpen x.inst e.id) then s.endJob x.id stMalformed (some 0)
  else
    let es0 := s.classifyAll x es
    match checkAll x es0 s with
    | (.error e, s1) => s1.attErr x.id e
    | (.ok _, s1) =>
      let s2 := if step then s1.incWrap ATT_FSLICE.STEP (s1.jobFlask x) 1 else s1
      let (es1, s3) := es0.foldl (State.phase1 x) ([], s2)
      let (es2, s4) := es1.foldl (State.demand x) ([], s3)
      let (es3, s5) := es2.foldl (State.forward x) ([], s4)
      if step then
        let (es4, s6) := s5.phases x es3
        s6.openWith x es4
      else
        match es3.find? fun e => e.res.isNone && decide (s5.freeFrames x.inst < s5.need e) with
        | some e =>
          let s6 := s5.incSat ATT_ICNT.DEFERRALS x.inst 1
          match s6.writeResults x (setRes es3 e.pos rDeferred) with
          | (.ok _, s7) => s7.endJob x.id stKvDeferred (some e.id)
          | (r, s7) => s7.attErr x.id r
        | none =>
          let s6 := s5.each (es3.filter fun e => e.res.isNone) fun s e => s.mapEnt x.inst e
          (s6.showAtt x.inst).openWith x (es3.map fun e => if e.res.isNone then { e with res := some rRan } else e)

/-- A job of class 4 or 5 at its turn. The batch list is read for a FIRST job, and where only its sequence tells which of
several open prefills a job belongs to. -/
def State.attnJob (s : State) (x : Job) : State :=
  let go (s : State) (es : List BEnt) : State :=
    match s.openRun x (es.map fun e => e.id) with
    | some r =>
      if atFirst x then (if x.opcode = 4 then s.openFirst x es else s.endJob x.id stMalformed (some 0))
      else if r.batch ≠ atBatch x || r.entries ≠ atEntries x then s.endJob x.id stMalformed (some 0)
      else s.runRows x r stOk 0
    | none => if atFirst x then s.openFirst x es else s.endJob x.id stMalformed (some 0)
  let several := 1 < (s.work.runs.filter fun r => r.inst == x.inst && r.prefill && r.batch == atBatch x).length
  if atFirst x || (x.opcode = 4 && several) then
    match instRead s x.inst (atBatch x) (8 * atEntries x) with
    | (.ok bs, s1) => go s1 (batchEntries bs (atEntries x))
    | (e, s1) => s1.attErr x.id e
  else go s []

/-! ## Meanings -/

/-- A job that runs with an opcode; a sweep holds the attention jobs of its instance (R113). -/
def State.runningJob (s : State) (j op : Nat) (g : Job → State) : State :=
  match s.job j with
  | none => s
  | some x =>
    if x.phase = .running && x.opcode == op && !(isAttn op && s.work.sweeping.contains x.inst) then g x else s

/-- R116, R128: SEQ_ADMIT of a new sequence. -/
def execSeqAdmit (j : Nat) (s : State) : Res :=
  .next (s.runningJob j 6 fun x =>
    if bit (x.inl 0) 6 || bit (x.inl 0) 5 || x.await ≠ 0 then s
    else if !s.idFree x.inst (bits (x.inl 0) 63 32) then s.endJob j stMalformed (some 0)
    else if x.inl 5 = 0 then s.admitLocal x
    else s.admitSpread x (s.admitCtx x) none)

/-- R117: SEQ_ADMIT with RESTORE. -/
def execSeqRestore (j : Nat) (s : State) : Res :=
  .next (s.runningJob j 6 fun x =>
    if !bit (x.inl 0) 6 then s
    else if !s.idFree x.inst (bits (x.inl 0) 63 32) then s.endJob j stMalformed (some 0)
    else s.admitRestore x)

/-- R118: SEQ_ADMIT with FORK. -/
def execSeqFork (j : Nat) (s : State) : Res :=
  .next (s.runningJob j 6 fun x =>
    if bit (x.inl 0) 6 || !bit (x.inl 0) 5 || x.await ≠ 0 then s
    else if !s.idFree x.inst (bits (x.inl 0) 63 32) then s.endJob j stMalformed (some 0)
    else s.admitFork x)

/-- R119: the release of a spilled sequence, from its record. -/
def State.releaseSpilled (s : State) (x : Job) (id : Nat) : State :=
  let i := x.inst
  match readSpill i id s with
  | (.error e, s1) => s1.attErr x.id e
  | (.ok none, s1) => s1.endJob x.id stMalformed (some 0)
  | (.ok (some c), s1) =>
    match mappedPages i c c.allPages s1 with
    | (.error e, s2) => s2.attErr x.id e
    | (.ok ms, s2) => (((s2.unmapAll i c ms).clearSpill i id).showAtt i).endJob x.id stOk (some 0)

/-- R119: SEQ_RELEASE; a release of a busy sequence waits. -/
def execSeqRelease (j : Nat) (s : State) : Res :=
  .next (s.runningJob j 7 fun x =>
    let i := x.inst
    let id := bits (x.inl 0) 63 32
    match s.seqSlot i id with
    | some k =>
      if (s.ctx k).state = 2 then s
      else
        match mappedPages i (s.ctx k) (s.ctx k).allPages s with
        | (.error e, s1) => s1.attErr j e
        | (.ok ms, s1) => ((s1.tellPeers i (s.ctx k) 2).releaseSlot i k ms).endJob j stOk (some 0)
    | none => if id < s.f ATT_IQUOTA.ID_LIMIT i then s.releaseSpilled x id else s.endJob j stMalformed (some 0))

/-- R120, R121: ATTN_STEP. -/
def execAttnStep (j : Nat) (s : State) : Res :=
  .next (s.runningJob j 5 fun x => if x.await = 0 then s.attnJob x else s)

/-- R120, R122: ATTN_PREFILL. -/
def execAttnPrefill (j : Nat) (s : State) : Res :=
  .next (s.runningJob j 4 fun x => if x.await = 0 then s.attnJob x else s)

/-- R113: SWEEP_DONE. -/
def execSweepDone (i : Nat) (s : State) : Res := unit s (decide (i < 256)) (s.sweepEnd i)

end Sys2Proof.Machine
end

