-- ==== Sys2Proof/Machine/Time.lean ====
section
/-! DEFINITION. The time counter (R14, R277 to R280), holdover (R283), the compare units (R282) and the local
compares of schedule engines (R281). -/

namespace Sys2Proof.Machine

/-- R277: one TSCLK edge. -/
def State.edge (s : State) : State :=
  let sub := s.clock.sub + s.f TIME_INC.INC_SUB 0
  let fr := s.clock.frac + s.f TIME_INC.INC 0 + sub / 2 ^ 24
  { s with clock := { s.clock with ns := (s.clock.ns + fr / 2 ^ 16) % 2 ^ 64, frac := fr % 2 ^ 16, sub := sub % 2 ^ 24 } }

/-- R277: TSCLK_EDGE. While the clock of the time unit is lost no edge comes (R15). -/
def execTsclkEdge (s : State) : Res := .next (if s.clockLost .tsclk then s else s.edge)

/-- The latch of a master with a new fraction (R284). -/
def setLatch (m : Master) (v : Nat) (ls : List (Master × Nat)) : List (Master × Nat) :=
  (m, v) :: ls.filter fun p => p.1 != m

/-- R14, R284: TIME_NOW_NS_READ: the counter of one edge, and its fraction into the master's latch; an error
completion while a crossing on its way into the time unit is closed (R15). -/
def execTimeNowNsRead (m : Master) (s : State) : Res :=
  .next (if s.clockLost .tsclk || s.clockLost .fclk then s.emit (.clockError m)
    else ({ s with clock := { s.clock with latch := setLatch m s.clock.frac s.clock.latch } }).emit
      (.readData m s.clock.ns))

/-- R283: the sync timer has run out. -/
def State.syncLost (s : State) : Bool :=
  match s.clock.syncNs with
  | none => false
  | some t => reached s.now ((t + s.f TIME_CTRL.SYNC_TIMEOUT_MS 0 * 1000000) % 2 ^ 64)

/-- R283: HOLDOVER, once for each entry. -/
def execHoldover (s : State) : Res :=
  .next (if s.syncLost && !s.fb TIME_CTRL.HOLDOVER 0 then
      ((s.setF TIME_CTRL.HOLDOVER 0 1).setF TIME_CTRL.HOLD_EVT 0 1).incSat TIME_CTRL.HOLD_EVENTS 0 1
    else s)

/-- R282: the reload of a periodic compare: the periods that put TARGET ahead of the counter. -/
def cmpPeriods (now target period : Nat) : Nat :=
  (sint 64 ((now + 2 ^ 64 - target % 2 ^ 64) % 2 ^ 64)).toNat / period + 1

/-- R282: a compare unit fires. -/
def State.fireCmp (s : State) (n : Nat) : State :=
  let t := s.f TIME_CMP0.TARGET n
  let p := s.f TIME_CMP1.PERIOD n
  let s1 := (s.setF TIME_CMP1.FIRED n 1).mgrIrq (8 + n) n
  let s2 := if s1.fb TIME_CMP1.PIN_EN n then s1.emit (.timeOut n (s1.f TIME_CMP1.WIDTH n)) else s1
  if p = 0 then s2.setF TIME_CMP1.ARM n 0
  else
    let k := cmpPeriods s.now t p
    (s2.setF TIME_CMP0.TARGET n (t + k * p)).incSat TIME_CMP1.SKIPPED n (k - 1)

/-- R282: COMPARE_FIRE. -/
def execCompareFire (n : Nat) (s : State) : Res :=
  unit s (decide (n < 8))
    (if s.fb TIME_CMP1.ARM n && reached s.now (s.f TIME_CMP0.TARGET n) then s.fireCmp n else s)

/-- R281: a local compare with a target w fires; the engine loads it only when it lies less than 1 s ahead. -/
def localFire (now target : Nat) : Bool :=
  decide (sint 64 ((target + 2 ^ 64 - now % 2 ^ 64) % 2 ^ 64) < 1000000000)
    && decide (0 ≤ sint 32 ((now + 2 ^ 64 - target % 2 ^ 64) % 2 ^ 32))

end Sys2Proof.Machine
end

