-- ==== Sys2Proof/Machine/Ether.lean ====
section
/-! DEFINITION. Host rings of the Ethernet switch and of the CAN controllers (R289 to R291, R293), the switch's
configuration items (R287, R334) and its gate lists (R281, R288). -/

namespace Sys2Proof.Machine

/-! ## Rings: `k` false for Ethernet, true for CAN; their registers are laid out alike (R293) -/

def rgEn (k : Bool) : Fld := if k then CAN_RINGCFG0.EN else ETH_RINGCFG0.EN
def rgInst (k : Bool) : Fld := if k then CAN_RINGCFG0.INSTANCE else ETH_RINGCFG0.INSTANCE
def rgSize (k : Bool) : Fld := if k then CAN_RINGCFG0.SIZE_LOG2 else ETH_RINGCFG0.SIZE_LOG2
def rgLate (k : Bool) : Fld := if k then CAN_RINGCFG0.LATE_US else ETH_RINGCFG0.LATE_US
def rgVec (k : Bool) : Fld := if k then CAN_RINGCFG0.IRQ_VEC else ETH_RINGCFG0.IRQ_VEC
def rgDrops (k : Bool) : Fld := if k then CAN_RINGCFG0.DROPS else ETH_RINGCFG0.DROPS
def rgBase (k : Bool) : Fld := if k then CAN_RINGCFG1.BASE else ETH_RINGCFG1.BASE
def rgProd (k : Bool) : Fld := if k then CAN_RINGDB.PROD else ETH_RINGDB.PROD
def rgCons (k : Bool) : Fld := if k then CAN_RINGDB.CONS else ETH_RINGDB.CONS

/-- The real-time master that works on a ring (R187). -/
def rgMaster (k : Bool) : Nat := if k then rtCan else rtEther

/-- Descriptors of a ring. -/
def State.ringSize (s : State) (k : Bool) (r : Nat) : Nat := 2 ^ (s.f (rgSize k) r + 6)

/-- The ring is enabled and has an unconsumed descriptor. -/
def State.ringHas (s : State) (k : Bool) (r : Nat) : Bool :=
  s.fb (rgEn k) r && s.f (rgProd k) r != s.f (rgCons k) r

/-- The address of the descriptor at an index. -/
def State.descAt (s : State) (k : Bool) (r i : Nat) : Nat :=
  s.f (rgBase k) r * 64 + 32 * (i % s.ringSize k r)

/-- The four words of the descriptor at CONS. -/
def State.headDesc (s : State) (k : Bool) (r : Nat) : Option (List Nat) × State :=
  match rtRead (rgMaster k) s (s.f (rgInst k) r) (s.descAt k r (s.f (rgCons k) r)) 32 with
  | (.ok bs, s1) => (some (words64 4 bs), s1)
  | (_, s1) => (none, s1)

/-- R286, R290: a write-back: pieces (offset, bytes) of the descriptor, then CONS, then the interrupt. -/
def State.writeBack (s : State) (k : Bool) (r : Nat) (ps : List (Nat × List Byte)) : State :=
  let i := s.f (rgInst k) r
  let a := s.descAt k r (s.f (rgCons k) r)
  let s1 := s.each ps fun s p => (rtWrite (rgMaster k) s i (a + p.1) p.2).2
  (s1.incWrap (rgCons k) r 1).emit (.instIrq i (s1.f (rgVec k) r))

/-- The write-back of an Ethernet descriptor: bytes 18h to 1Fh stay. -/
def State.ethWb (s : State) (r ts frac status port len vid : Nat) (stream : Option Nat) : State :=
  s.writeBack false r
    [(0, toLE 8 ts ++ toLE 8 (frac * 2 ^ 48 + status * 2 ^ 40 + port * 2 ^ 36 + len * 2 ^ 22 + vid % 4096 * 2 ^ 10
        + (stream.getD 0) % 1024)
      ++ toLE 8 (if stream.isSome then 2 ^ 63 else 0))]

/-! ## Ring status codes -/

def rsOk : Nat := 0
def rsLate : Nat := 1
def rsBadDesc : Nat := 2
def rsXlate : Nat := 3
def rsDropped : Nat := 4
def rsTruncated : Nat := 5
def rsAddrLost : Nat := 6
def rsBusOff : Nat := 7

/-! ## Configuration items (R334) -/

/-- A committed table item. -/
def State.ethItem (s : State) (port sec idx : Nat) : Option (List Byte) :=
  (s.net.ethItems.find? fun i => i.port == port && i.sec == sec && i.idx == idx).map fun i => i.bs

/-- A byte field of an item; 0 without the item. -/
def State.ethField (s : State) (port sec idx off n : Nat) : Nat :=
  match s.ethItem port sec idx with
  | some bs => leAt bs off n
  | none => 0

/-- R330, R334: an external port is up: the switch controller has run and its LINK item enables it. Firmware
that restarts leaves the settings in hardware (R335). -/
def State.ethUp (s : State) (p : Nat) : Bool := decide (p < 12) && s.ethField p 0 0 0 1 == 1

/-- Speed of a port in Mb/s. -/
def ethMbps : Nat → Nat
  | 0 => 100
  | 1 => 1000
  | 2 => 2500
  | 3 => 5000
  | 4 => 10000
  | _ => 25000

/-! ## Gate lists (R281, R288) -/

/-- A gate engine: ports 0 to 11 first, then the stream gates from 16. -/
def State.gateEng (s : State) (n : Nat) : GateEng := NMap.get s.net.gateEngs {} n

/-- Change a gate engine. -/
def State.modGate (s : State) (n : Nat) (g : GateEng → GateEng) : State :=
  { s with net.gateEngs := NMap.set s.net.gateEngs {} n (g (s.gateEng n)) }

/-- End of entry k of the operational list; the last entry lasts to the end of the cycle. -/
def GateEng.entryEnd (g : GateEng) (k : Nat) : Nat :=
  if g.ops.length ≤ k + 1 then g.start + g.cycle
  else min (g.start + g.cycle) (g.start + ((g.ops.take (k + 1)).map fun p => p.2).sum)

/-- The time at which class c closes, while it is open; none when it never does. -/
def GateEng.closes (g : GateEng) (c : Nat) : Option Nat :=
  let shut (k : Nat) : Bool := !bit ((g.ops.getD k (0, 0)).1) c
  match (List.range g.ops.length).find? fun k => g.idx < k && shut k with
  | some k => some (g.entryEnd (k - 1))
  | none =>
    match (List.range g.ops.length).find? shut with
    | some 0 => some (g.start + g.cycle)
    | some k => some (g.entryEnd (k - 1) + g.cycle)
    | none => none

/-- R288: a frame of a class may start on a port now: its gate is open, and the frame ends before it closes. The
length counted is that of the frame with its FCS (log entry 34). -/
def State.gateOpen (s : State) (p c len : Nat) : Bool :=
  let g := s.gateEng p
  let dur := cdiv ((len + 4) * 8 * 1000) (ethMbps (s.ethField p 0 0 1 1))
  bit g.open_ c &&
    (!g.running ||
      match g.closes c with
      | some t => reached t (s.now + dur)
      | none => true)

/-- The administrative list of a port becomes operational. -/
def State.loadGates (s : State) (p base : Nat) : State :=
  let n := s.ethField p 3 0 0x10 2
  let ops := (List.range n).map fun k => (s.ethField p 4 k 0 1, s.ethField p 4 k 4 4)
  let cyc := s.ethField p 3 0 8 4
  s.modGate p fun g =>
    let g1 := { g with ops := ops, cycle := cyc, start := base, idx := 0, running := !ops.isEmpty, base := none,
                       open_ := (ops.headD (0xFF, 0)).1 }
    { g1 with target := g1.entryEnd 0 }

/-- The next entry of a list, or the next cycle. -/
def GateEng.advance (g : GateEng) : GateEng :=
  let g1 := if g.idx + 1 < g.ops.length && g.target < g.start + g.cycle then { g with idx := g.idx + 1 }
    else { g with idx := 0, start := g.start + g.cycle }
  { g1 with open_ := (g1.ops.getD g1.idx (0xFF, 0)).1, target := g1.entryEnd g1.idx }

/-- One event of a port's list: an administrative list takes over at its base time, else the list advances. -/
def State.portGate (s : State) (p : Nat) : State :=
  let g := s.gateEng p
  match g.base with
  | some b =>
    if reached s.now b then s.loadGates p b
    else if g.running && localFire s.now g.target then s.modGate p GateEng.advance else s
  | none => if g.running && localFire s.now g.target then s.modGate p GateEng.advance else s

/-- A stream gate: it starts each cycle closed and changes state at every TOGGLE. -/
def State.streamGate (s : State) (n : Nat) : State :=
  let base := s.ethField 0 7 n 8 8
  let cyc := s.ethField 0 7 n 4 4
  if s.ethField 0 7 n 0 1 != 1 || cyc == 0 || !reached s.now base then s
  else
    let off := ((s.now + 2 ^ 64 - base) % 2 ^ 64) % cyc
    let ts := ((List.range 4).map fun k => s.ethField 0 7 n (0x10 + 4 * k) 4).filter fun t => t != 0xFFFFFFFF
    let k := (ts.filter fun t => decide (t ≤ off)).length
    let begin_ := uint 64 ((s.now : Int) - off)
    let next := begin_ + ((ts.drop k).headD cyc)
    s.modGate (16 + n) fun g => { g with open_ := k % 2, target := next, start := begin_, running := true }

/-! ## Launch times (R291) -/

/-- LAUNCH_EN and LAUNCH_TIME of a descriptor; CAN records launch at TIME when it is not 0. -/
def launchOf (k : Bool) (d : List Nat) : Option Nat :=
  if k then (if wordAt d 0 = 0 then none else some (wordAt d 0))
  else if bit (wordAt d 1) 41 then some (wordAt d 2) else none

/-- R291: the frame at the head has passed its launch time by more than LATE_US. -/
def State.isLate (s : State) (k : Bool) (r : Nat) (d : List Nat) : Bool :=
  match launchOf k d with
  | some t => s.f (rgLate k) r != 0 && reached s.now ((t + s.f (rgLate k) r * 1000) % 2 ^ 64)
  | none => false

/-- R291: the frame at the head may start as far as its launch time goes. -/
def State.eligible (s : State) (k : Bool) (d : List Nat) : Bool :=
  match launchOf k d with
  | some t => reached s.now t
  | none => true

end Sys2Proof.Machine
end

