-- ==== Sys2Proof/Machine/Switch.lean ====
section
/-! DEFINITION. The Ethernet switch (R287 to R291, R299): secure associations, VLANs, streams with their filters, meters
and sequence functions, shapers and egress queues; and frames sent and received. -/

namespace Sys2Proof.Machine

/-! ## MACsec (R288) -/

/-- A secure association stands in a port's key store: its channel is enabled and the Crucible has written its key. -/
def State.macOn (s : State) (p ch : Nat) : Bool :=
  s.ethField p 11 ch 0 1 == 1 && (NMap.find s.net.macSak (16 * p + ch)).isSome

/-- The next packet number of a channel: that of its item until a frame has used one. -/
def State.macPn (s : State) (p ch : Nat) : Nat :=
  (NMap.find s.net.macPns (16 * p + ch)).getD (s.ethField p 11 ch 0x18 8)

/-- Packet numbers of a cipher: 32 bits, 64 in the XPN forms (IEEE 802.1AE). -/
def pnLimit (cipher : Nat) : Nat := if 2 ≤ cipher then 2 ^ 64 else 2 ^ 32

/-- The port may send as far as MACsec goes: it has an association with a packet number left, or needs none. -/
def State.macsecTx (s : State) (p : Nat) : Bool :=
  if s.macOn p 0 then decide (s.macPn p 0 < pnLimit (s.ethField p 11 0 2 1)) else s.ethField p 0 0 7 1 != 1

/-- A frame that leaves uses up a packet number. -/
def State.usePn (s : State) (p : Nat) : State :=
  if s.macOn p 0 then { s with net.macPns := NMap.insert s.net.macPns (16 * p) (s.macPn p 0 + 1) } else s

/-- A received frame is admitted: within the replay window of its association, or unsecured where the port allows that. -/
def State.macsecRx (s : State) (p : Nat) : Option (Nat × Nat) → Bool
  | none => s.ethField p 0 0 7 1 != 1
  | some (ch, pn) => decide (1 ≤ ch) && decide (ch ≤ 8) && s.macOn p ch
      && decide (s.macPn p ch ≤ pn + s.ethField p 11 ch 0x10 4)

/-- The replay window moves past an admitted packet number. -/
def State.notePn (s : State) (p : Nat) : Option (Nat × Nat) → State
  | none => s
  | some (ch, pn) => { s with net.macPns := NMap.insert s.net.macPns (16 * p + ch) (max (s.macPn p ch) (pn + 1)) }

/-! ## VLANs -/

/-- Two bytes of a frame, high byte first. -/
def be2 (bs : List Byte) (o : Nat) : Nat := (bs.getD o 0).toNat * 256 + (bs.getD (o + 1) 0).toNat

/-- The frame carries an 802.1Q tag. -/
def isTagged (bs : List Byte) : Bool := be2 bs 12 == 0x8100

/-- VLAN and priority of a frame at a port: those of its tag, else the port's PVID and default PCP (0 at an internal
port, log entry 178). -/
def State.classOf (s : State) (p : Nat) (bs : List Byte) : Nat × Nat :=
  let dv := if p < 12 then s.ethField p 0 0 4 2 else 0
  if isTagged bs then
    let v := be2 bs 14 % 4096
    (if v = 0 then dv else v, be2 bs 14 / 8192)
  else (dv, if p < 12 then s.ethField p 0 0 6 1 else 0)

/-- A port belongs to a VLAN; internal ports, and external ports without VLAN items, belong to all (log entry 178). -/
def State.member (s : State) (p vid : Nat) : Bool :=
  decide (12 ≤ p) || bit (s.ethField p 1 vid 2 1) 0 || !(s.net.ethItems.any fun i => i.port == p && i.sec == 1)

/-- The form in which a frame leaves an external port: without its tag where the VLAN item says so, else tagged. -/
def State.egressForm (s : State) (p vid pcp : Nat) (bs : List Byte) : List Byte :=
  let plain := if isTagged bs then bs.take 12 ++ bs.drop 16 else bs
  if (s.ethItem p 1 vid).isNone then bs
  else if bit (s.ethField p 1 vid 2 1) 1 then plain
  else
    let tci := pcp % 8 * 8192 + vid
    plain.take 12 ++ [0x81, 0x00, BitVec.ofNat 8 (tci / 256), BitVec.ofNat 8 tci] ++ plain.drop 12

/-! ## Streams: identification, gates and meters (802.1Qci, 802.1CB) -/

/-- A stream filter matches a frame: null and method 2 compare the destination address, method 1 the source. -/
def filterHas (bs : List Byte) (vid : Nat) (i : EthItem) : Bool :=
  i.sec == 6 && leAt i.bs 0 1 == 1 && leAt i.bs 2 2 == vid
    && (i.bs.drop 4).take 6 == (if leAt i.bs 1 1 = 1 then (bs.drop 6).take 6 else bs.take 6)

/-- The filter of a frame: the lowest that matches (log entry 178). -/
def State.streamOf (s : State) (bs : List Byte) (vid : Nat) : Option Nat :=
  (s.net.ethItems.filter (filterHas bs vid)).foldl (fun a i => some (match a with
    | none => i.idx
    | some n => min n i.idx)) none

/-- The buckets of a flow meter now, in units of 10^−6 bit; a meter not used yet is full. With coupling, what the
committed bucket cannot hold goes to the excess bucket. -/
def State.meterNow (s : State) (n : Nat) : MeterSt :=
  let f := s.ethField 0 8 n
  let cMax := f 4 4 * 8000000
  let eMax := f 0xC 4 * 8000000
  match NMap.find s.net.meters n with
  | none => { c := cMax, e := eMax, ns := s.now }
  | some m =>
    let dt := s.since m.ns
    let c := m.c + f 0 4 * dt
    let e := m.e + f 8 4 * dt + (if bit (f 0x10 1) 0 then c - cMax else 0)
    { c := min cMax c, e := min eMax e, ns := s.now }

/-- A frame passes a meter: green from the committed bucket, yellow from the excess bucket unless yellow frames are
dropped, red never (log entry 106). -/
def State.meterPass (s : State) (n len : Nat) : Bool × State :=
  let m := s.meterNow n
  let w := len * 8000000
  let put (m : MeterSt) : State := { s with net.meters := NMap.insert s.net.meters n m }
  if w ≤ m.c then (true, put { m with c := m.c - w })
  else if w ≤ m.e then (!bit (s.ethField 0 8 n 0x10 1) 1, put { m with e := m.e - w })
  else (false, put m)

/-- MAX_SDU and the stream gate of a filter let a frame of a length pass. -/
def State.filterOpen (s : State) (n len : Nat) : Bool :=
  let mx := s.ethField 0 6 n 0x0E 2
  let g := s.ethField 0 6 n 0x0A 2
  (mx == 0 || decide (len ≤ mx)) && (g == 0xFFFF || s.ethField 0 7 g 0 1 != 1 || bit (s.gateEng (16 + g)).open_ 0)

/-- What 802.1Qci does to a frame of a filter: MAX_SDU, the stream gate and the flow meter may drop it. -/
def State.filterPass (s : State) (n len : Nat) : Bool × State :=
  let m := s.ethField 0 6 n 0x0C 2
  if !s.filterOpen n len then (false, s)
  else if m = 0xFFFF then (true, s)
  else s.meterPass m len

/-- The class of a frame: its priority, or the IPV of its stream's gate. -/
def State.classFor (s : State) (stream : Option Nat) (pcp : Nat) : Nat :=
  match stream with
  | none => pcp
  | some n =>
    let g := s.ethField 0 6 n 0x0A 2
    if g = 0xFFFF || s.ethField 0 7 g 0 1 != 1 || s.ethField 0 7 g 1 1 == 0xFF then pcp else s.ethField 0 7 g 1 1

/-! ## Sequence functions (802.1CB) -/

/-- The enabled sequence functions of a stream: generation below 512, recovery from there. -/
def State.cbOf (s : State) (recovery : Bool) (n : Nat) : List EthItem :=
  s.net.ethItems.filter fun i => i.sec == 9 && decide (512 ≤ i.idx) == recovery && leAt i.bs 0 1 == 1 && leAt i.bs 4 2 == n

/-- Where the redundancy tag of a frame stands. -/
def rtagPos (bs : List Byte) : Nat := if isTagged bs then 16 else 12

/-- The sequence number of a frame with a redundancy tag. -/
def rtagOf (bs : List Byte) : Option Nat :=
  if be2 bs (rtagPos bs) = 0xF1C1 then some (be2 bs (rtagPos bs + 4)) else none

/-- A frame with a redundancy tag put in. -/
def putRtag (bs : List Byte) (seq : Nat) : List Byte :=
  let k := rtagPos bs
  bs.take k ++ [0xF1, 0xC1, 0, 0, BitVec.ofNat 8 (seq / 256), BitVec.ofNat 8 seq] ++ bs.drop k

/-- A frame with its redundancy tag taken out. -/
def dropRtag (bs : List Byte) : List Byte := bs.take (rtagPos bs) ++ bs.drop (rtagPos bs + 6)

/-- The state of a sequence function. -/
def State.cb (s : State) (k : Nat) : CbSt := NMap.get s.net.cbs {} k
def State.setCb (s : State) (k : Nat) (x : CbSt) : State := { s with net.cbs := NMap.set s.net.cbs {} k x }

/-- The number a generation function gives a frame of its stream. -/
def State.cbNumber (s : State) (stream : Option Nat) : Option (Nat × Nat) × State :=
  match stream.bind fun n => (s.cbOf false n).head? with
  | none => (none, s)
  | some i =>
    let x := s.cb i.idx
    (some (leAt i.bs 6 2, x.seq), s.setCb i.idx { x with seq := (x.seq + 1) % 65536 })

/-- The match algorithm: a number that repeats the last one is a duplicate. -/
def matchAccept (x : CbSt) (seq : Nat) : Bool × CbSt :=
  if !x.takeAny && seq == x.seq then (false, x) else (true, { x with seq := seq, takeAny := false })

/-- The vector algorithm: a number within the history that has not been seen is accepted. -/
def vectorAccept (x : CbSt) (len seq : Nat) : Bool × CbSt :=
  let d := sint 16 ((seq + 65536 - x.seq) % 65536)
  if x.takeAny then (true, { x with seq := seq, hist := 1, takeAny := false })
  else if (len : Int) ≤ d || d ≤ -(len : Int) then (false, x)
  else if 0 < d then (true, { x with seq := seq, hist := x.hist * 2 ^ d.toNat % 2 ^ len + 1 })
  else if bit x.hist (-d).toNat then (false, x)
  else (true, { x with hist := x.hist + 2 ^ (-d).toNat })

/-- A recovery function decides on a number; after RESET_MS without an accepted frame it takes any. -/
def State.recoverSeq (s : State) (i : EthItem) (seq : Nat) : Bool × State :=
  let x0 := s.cb i.idx
  let x := if leAt i.bs 8 2 * 1000000 ≤ s.since x0.ns then { x0 with takeAny := true } else x0
  let (ok, y) := if leAt i.bs 1 1 = 1 then matchAccept x seq else vectorAccept x (leAt i.bs 2 1) seq
  (ok, s.setCb i.idx (if ok then { y with ns := s.now } else y))

/-- A frame on its way to a port: tagged with its number where a generation function names the port, eliminated or
freed of its tag where a recovery function does. -/
def State.cbAt (s : State) (p : Nat) (stream : Option Nat) (num : Option (Nat × Nat)) (bs : List Byte) :
    Option (List Byte) × State :=
  let bs1 := match num with
    | some (ports, seq) => if bit ports p then putRtag bs seq else bs
    | none => bs
  match stream.bind fun n => (s.cbOf true n).find? fun i => bit (leAt i.bs 6 2) p, rtagOf bs1 with
  | some i, some seq =>
    match s.recoverSeq i seq with
    | (true, s1) => (some (dropRtag bs1), s1)
    | (false, s1) => (none, s1)
  | _, _ => (some bs1, s)

/-! ## Shapers (802.1Qav) and egress -/

/-- A class of a port has an enabled shaper. -/
def State.shaped (s : State) (p c : Nat) : Bool := s.ethField p 5 c 1 1 == 1

def State.shaper (s : State) (p c : Nat) : ShaperSt := NMap.get s.net.shapers {} (8 * p + c)
def State.setShaper (s : State) (p c : Nat) (x : ShaperSt) : State :=
  { s with net.shapers := NMap.set s.net.shapers {} (8 * p + c) x }

/-- The credit of a class now, in units of 10^−6 bit: it rises at IDLE_SLOPE, up to HI_CREDIT while frames wait and to
0 while none does (log entry 106). -/
def State.credit (s : State) (p c : Nat) : Int :=
  let x := s.shaper p c
  let up := x.credit + ((s.ethField p 5 c 4 4 * s.since x.ns : Nat) : Int)
  min (if x.waits then max 0 (sint 32 (s.ethField p 5 c 0xC 4)) * 1000000 else 0) up

/-- A class is looked at: its credit is brought up to now, and whether a frame waits is noted. -/
def State.lookShaper (s : State) (p c : Nat) (waits : Bool) : State :=
  if s.shaped p c then
    s.setShaper p c { credit := s.credit p c, ns := if reached s.now (s.shaper p c).ns then s.now else (s.shaper p c).ns,
                      waits := waits }
  else s

/-- Time on the line of a frame with its FCS, in ns. -/
def State.frameNs (s : State) (p len : Nat) : Nat := cdiv ((len + 4) * 8 * 1000) (ethMbps (s.ethField p 0 0 1 1))

/-- A frame of a class may start on a port now: its gate lets it (R288), and its shaper's credit is not negative. -/
def State.mayStart (s : State) (p c len : Nat) : Bool :=
  s.gateOpen p c len && (!s.shaped p c || decide (0 ≤ s.credit p c))

/-- A frame starts on an external port. Its shaper falls at SEND_SLOPE while it is on the line, not below LO_CREDIT. -/
def State.startFrame (s : State) (p c : Nat) (bs : List Byte) : State :=
  let ns := s.frameNs p bs.length
  let s1 := if s.shaped p c then
      s.setShaper p c { credit := max (sint 32 (s.ethField p 5 c 0x10 4) * 1000000)
                          (s.credit p c + sint 32 (s.ethField p 5 c 8 4) * (ns : Int)), ns := (s.now + ns) % 2 ^ 64 }
    else s
  (s1.usePn p).emit (.ethFrame p bs)

/-- The frames that wait at an external port, with their classes. -/
def State.egress (s : State) (p : Nat) : List (Nat × List Byte) := NMap.get s.net.egress [] p
def State.setEgress (s : State) (p : Nat) (q : List (Nat × List Byte)) : State :=
  { s with net.egress := NMap.set s.net.egress [] p q }

/-- The class whose first waiting frame starts next: the highest that may. -/
def State.nextClass (s : State) (p : Nat) : Option (Nat × List Byte) :=
  ((List.range 8).reverse.filterMap fun c => (s.egress p).find? fun x => x.1 == c).find? fun x => s.mayStart p x.1 x.2.length

/-- The waiting frames of a port start as far as gates and shapers let them; those left are noted as waiting. -/
def State.drainPort (s : State) (p : Nat) : Nat → State
  | 0 => s.each (List.range 8) fun s c => s.lookShaper p c ((s.egress p).any fun x => x.1 == c)
  | n + 1 =>
    match s.nextClass p with
    | some x => ((s.setEgress p ((s.egress p).erase x)).startFrame p x.1 x.2).drainPort p n
    | none => s.drainPort p 0

/-- A frame is offered to an external port: it is dropped where the port is down, the frame longer than its MTU or a
secure association missing, and else waits its turn. -/
def State.offer (s : State) (p c : Nat) (bs : List Byte) : State :=
  if s.ethUp p && s.macsecTx p && decide (bs.length ≤ s.ethField p 0 0 2 2) then
    let s1 := s.setEgress p (s.egress p ++ [(c, bs)])
    s1.drainPort p (s1.egress p).length
  else s

/-! ## Forwarding (R289, R299) -/

/-- The FDB entry of a MAC address and VLAN: PORTS and DEV_ID. -/
def State.fdb (s : State) (mac : List Byte) (vid : Nat) : Option (Nat × Nat) :=
  (s.net.ethItems.find? fun i => i.sec == 2 && i.bs.take 6 == mac && leAt i.bs 6 2 == vid && bit (leAt i.bs 12 1) 0).map
    fun i => (leAt i.bs 8 2, leAt i.bs 10 2)

/-- R299: the ports a frame takes: those of its FDB entry, or every other port of its VLAN; never back to where it came
from. A frame of a transmit ring (`src` 16) floods to no host port (log entry 178). -/
def State.fdbPorts (s : State) (src : Nat) (bs : List Byte) (vid : Nat) : List Nat × Option Nat :=
  match s.fdb (bs.take 6) vid with
  | some (ps, d) => ((List.range 16).filter fun p => bit ps p && p != src && s.member p vid, some d)
  | none =>
    ((List.range 12 ++ (if src = 16 then [15] else [12, 13, 15])).filter fun p => p != src && s.member p vid, none)

/-- A frame of the tunnelled-Ethernet channel leaves port 15: to the device of its FDB entry, or to every device
(R299, R312). -/
def State.weskaFrame (s : State) (dev : Option Nat) (bs : List Byte) : State :=
  match dev with
  | some d => s.wskOriginate d 4 (.ether bs)
  | none => s.wskBroadcast 4 (.ether bs)

/-- A received frame is written to a receive ring. -/
def State.toRing (s : State) (r port vid : Nat) (stream : Option Nat) (f : List Byte) : State :=
  if !s.ringHas false r then s.incSat ETH_RINGCFG0.DROPS r 1
  else
    match s.headDesc false r with
    | (none, s1) => s1.incSat ETH_RINGCFG0.DROPS r 1
    | (some d, s1) =>
      let room := bits (wordAt d 1) 63 50
      if room < 64 || 9600 < room then s1.ethWb r 0 0 rsBadDesc port 0 vid stream
      else
        let bs := f.take room
        match rtWrite rtEther s1 (s1.f ETH_RINGCFG0.INSTANCE r) (wordAt d 0) bs with
        | (.ok _, s2) =>
          s2.ethWb r s2.now s2.clock.frac (if room < f.length then rsTruncated else rsOk) port bs.length vid stream
        | (_, s2) => s2.ethWb r s2.now s2.clock.frac rsXlate port 0 vid stream

/-- R289: a frame for an internal host port `h` of 0 or 1, received at a port: the ring of its filter, else DEFAULT. -/
def State.toHost (s : State) (h port vid : Nat) (stream : Option Nat) (bs : List Byte) : State :=
  match stream with
  | some n => s.toRing (s.ethField 0 6 n 0x10 1) port vid stream bs
  | none =>
    let r := s.f ETH_HOSTCFG.DEFAULT_RING h
    if s.fb ETH_HOSTCFG.DEFAULT_EN h && s.fb ETH_RINGCFG0.EN r then s.toRing r port vid none bs
    else s.incSat ETH_HOSTCFG.NOMATCH_DROPS h 1

/-- A frame leaves through one switch port. What the FDB sends to port 14 reaches the tunnel engine as AVTPDU_RECEIVE. -/
def State.sendPort (s : State) (q src vid pcp : Nat) (stream dev : Option Nat) (bs : List Byte) : State :=
  if q = 15 then s.weskaFrame dev bs
  else if q = 12 || q = 13 then s.toHost (q - 12) src vid stream bs
  else if q = 14 then s
  else s.offer q (s.classFor stream pcp) (s.egressForm q vid pcp bs)

/-- R289, R299: a frame at the switch is filtered and forwarded; false where a filter dropped it. -/
def State.switchFrame (s : State) (src : Nat) (bs : List Byte) : Bool × State :=
  let (vid, pcp) := s.classOf src bs
  let stream := s.streamOf bs vid
  let (ok, s1) := match stream with
    | some n => s.filterPass n bs.length
    | none => (true, s)
  if !ok then (false, s1)
  else
    let (num, s2) := s1.cbNumber stream
    let (ps, dev) := s2.fdbPorts src bs vid
    (true, s2.each ps fun s q =>
      match s.cbAt q stream num bs with
      | (some out, s') => s'.sendPort q src vid pcp stream dev out
      | (none, s') => s')

/-! ## Transmission (R288, R291) -/

/-- Fields of a transmit descriptor. -/
def txLen (d : List Nat) : Nat := bits (wordAt d 1) 63 50
def txPort (d : List Nat) : Nat := bits (wordAt d 1) 49 46
def txPcp (d : List Nat) : Nat := bits (wordAt d 1) 45 43
def txTs (d : List Nat) : Bool := bit (wordAt d 1) 42

/-- BAD_DESC of a transmit descriptor. -/
def txBad (d : List Nat) : Bool :=
  txLen d < 60 || 9600 < txLen d || (11 < txPort d && txPort d != 15) || (txTs d && txPort d == 15)

/-- A transmit descriptor completes with a status and no timestamp. -/
def State.txEnd (s : State) (r status port : Nat) : State := s.ethWb r 0 0 status port 0 0 none

/-- The frame of a descriptor that names an external port, as read: policed by its filter, it leaves by that port
alone, unchanged. -/
def State.transmitTo (s : State) (r : Nat) (d : List Nat) (bs : List Byte) : State :=
  let p := txPort d
  let (ok, s1) := match s.streamOf bs (s.classOf 16 bs).1 with
    | some n => s.filterPass n bs.length
    | none => (true, s)
  if !ok then s1.txEnd r rsDropped p
  else
    let s2 := s1.startFrame p (txPcp d) bs
    let (ts, fr) := if txTs d then (s2.now, s2.clock.frac) else (0, 0)
    s2.ethWb r ts fr rsOk p 0 0 none

/-- The frame of a transmit descriptor leaves: through its port when that is up, its gate open and its shaper willing,
else it stays at the head; or, with PORT Fh, into the switch. -/
def State.transmit (s : State) (r : Nat) (d : List Nat) : State :=
  let p := txPort d
  if txBad d then s.txEnd r rsBadDesc 0
  else if !s.eligible false d then s
  else if s.isLate false r d then s.txEnd r rsLate p
  else if p < 12 && !(s.ethUp p && s.macsecTx p) then s.txEnd r rsDropped p
  else if p < 12 && !s.mayStart p (txPcp d) (txLen d) then s.lookShaper p (txPcp d) true
  else
    match rtRead rtEther s (s.f ETH_RINGCFG0.INSTANCE r) (wordAt d 0) (txLen d) with
    | (.ok bs, s1) =>
      if p < 12 then s1.transmitTo r d bs
      else
        match s1.switchFrame 16 bs with
        | (ok, s2) => s2.txEnd r (if ok then rsOk else rsDropped) p
    | (_, s1) => s1.txEnd r rsXlate p

/-- R291: FRAME_TRANSMIT: the frame at the head of transmit ring r. -/
def execFrameTransmit (r : Nat) (s : State) : Res :=
  unit s (decide (r < 128))
    (if !s.ringHas false r then s
     else
      match s.headDesc false r with
      | (some d, s1) => s1.transmit r d
      | (none, s1) => s1)

/-! ## Reception (R289 to R291) -/

/-- R289, R299: a received frame is admitted, filtered, and forwarded or delivered. -/
def State.receive (s : State) (f : EthFrame) : State :=
  if f.port < 12 && !(s.ethUp f.port && s.macsecRx f.port f.pn && s.member f.port (s.classOf f.port f.bytes).1) then s
  else ((if f.port < 12 then s.notePn f.port f.pn else s).switchFrame f.port f.bytes).2

/-- R289: FRAME_RECEIVE. -/
def execFrameReceive (f : EthFrame) (s : State) : Res := unit s (decide (f.port < 12)) (s.receive f)

/-! ## Gate lists -/

/-- R281: GATE_LIST_EVENT: `sel` 0 names the list of port n, 1 stream gate n. The frames that waited for a gate or a
shaper of the port then start as they may. -/
def execGateListEvent (sel n : Nat) (s : State) : Res :=
  match sel with
  | 0 =>
    unit s (decide (n < 12))
      (let s1 := s.portGate n
       if (s1.egress n).isEmpty then s1 else s1.drainPort n (s1.egress n).length)
  | _ => unit s (decide (sel = 1) && decide (n < 256))
      (if !(s.gateEng (16 + n)).running || localFire s.now (s.gateEng (16 + n)).target then s.streamGate n else s)

end Sys2Proof.Machine
end

