-- ==== Sys2Proof/Machine/Can.lean ====
section
/-! DEFINITION. CAN controllers (R292 to R296) and the tunnel engine (R297, R298). -/

namespace Sys2Proof.Machine

/-! ## Records (R293) -/

/-- The frame of a record, with its data. -/
def canOf (d : List Nat) (bs : List Byte) : CanFrame :=
  let w := wordAt d 1
  { id := bits w 63 35, fmt := bits w 34 32, brs := bit w 31, rtr := bit w 30, esi := bit w 29, sdt := bits w 16 9,
    sec := bit w 8, vcid := bits w 7 0, af := bits (wordAt d 2) 63 32, data := bs }

/-- Word 1 of the record of a frame. -/
def canWord1 (f : CanFrame) : Nat :=
  f.id % 2 ^ 29 * 2 ^ 35 + f.fmt % 8 * 2 ^ 32 + b2n f.brs * 2 ^ 31 + b2n f.rtr * 2 ^ 30 + b2n f.esi * 2 ^ 29
    + f.data.length % 4096 * 2 ^ 17 + f.sdt % 256 * 2 ^ 9 + b2n f.sec * 2 ^ 8 + f.vcid % 256

/-- Data bytes of a record. -/
def canLen (d : List Nat) : Nat := bits (wordAt d 1) 28 17

/-- Lengths of an FD frame. -/
def fdLens : List Nat := [0, 1, 2, 3, 4, 5, 6, 7, 8, 12, 16, 20, 24, 32, 48, 64]

/-- LEN lies in the range of its format. -/
def canLenOk (fmt len : Nat) : Bool :=
  match fmt with
  | 0 => decide (len ≤ 8)
  | 1 => decide (len ≤ 8)
  | 2 => fdLens.contains len
  | 3 => fdLens.contains len
  | 4 => decide (1 ≤ len) && decide (len ≤ 2048)
  | _ => false

/-- An extended identifier. -/
def isExt (fmt : Nat) : Bool := fmt == 1 || fmt == 3

/-- A controller carries a format in its MODE; restricted and monitoring modes send nothing. -/
def State.carries (s : State) (c fmt : Nat) : Bool :=
  match s.f CAN_CTRL.MODE c with
  | 0 => decide (fmt ≤ 1)
  | 1 => decide (fmt ≤ 3)
  | 2 => decide (fmt ≤ 4)
  | 3 => decide (fmt ≤ 4)
  | _ => false

def State.busOff (s : State) (c : Nat) : Bool := s.f CAN_CTRL.FC_STATE c == 2

/-- Ring number of queue or ring q of a controller. -/
def canRing (c q : Nat) : Nat := 16 * c + q

/-! ## Queues -/

/-- The write-back of a transmit record. -/
def State.canWb (s : State) (r : Nat) (d : List Nat) (status ts frac : Nat) : State :=
  s.writeBack true r
    [(0, toLE 8 ts), (16, toLE 8 (bits (wordAt d 2) 63 32 * 2 ^ 32 + frac * 2 ^ 16 + status * 2 ^ 8 + wordAt d 2 % 256))]

/-- Every frame of a queue completes with a status; `fuel` bounds their number. -/
def State.flushQueue (s : State) (r status : Nat) : Nat → State
  | 0 => s
  | n + 1 =>
    if s.f CAN_RINGDB.PROD r = s.f CAN_RINGDB.CONS r then s
    else
      match s.headDesc true r with
      | (some d, s1) => (s1.canWb r d status 0 0).flushQueue r status n
      | (none, s1) => s1.incWrap CAN_RINGDB.CONS r 1 |>.flushQueue r status n

/-! ## J1939 (R296) -/

/-- A slot of a controller. -/
def slotNo (c n : Nat) : Nat := 8 * c + n

/-- The address-claim identifier of a source address, and the Cannot Claim. -/
def claimId (addr : Nat) : Nat := 0x18EEFF00 + addr

/-- A slot's claim. -/
def State.claimFrame (s : State) (k : Nat) : CanFrame :=
  { id := claimId (s.f CAN_J19391.ADDR k), fmt := 1, data := toLE 8 (s.r .canJ19390 k) }

/-- A slot's Cannot Claim. -/
def State.cannotFrame (s : State) (k : Nat) : CanFrame :=
  { id := claimId 0xFE, fmt := 1, data := toLE 8 (s.r .canJ19390 k) }

/-- The slots of a controller that are enabled, with J1939 set. -/
def State.liveSlots (s : State) (c : Nat) : List Nat :=
  if s.fb CAN_CTRL.J1939 c then (List.range 8).filter fun n => s.fb CAN_J19391.EN (slotNo c n) else []

/-- STATE of the enabled slot whose address is the source of a frame. -/
def State.sourceSlot (s : State) (c : Nat) (f : CanFrame) : Option Nat :=
  if !isExt f.fmt then none
  else (s.liveSlots c).find? fun n => s.f CAN_J19391.ADDR (slotNo c n) == f.id % 256

/-- Frames of a source are held while its slot claims. -/
def State.heldSource (s : State) (c : Nat) (f : CanFrame) : Bool :=
  match s.sourceSlot c f with
  | some n => s.f CAN_J19391.STATE (slotNo c n) == 1
  | none => false

/-- Frames of a lost source complete with ADDR_LOST. -/
def State.lostSource (s : State) (c : Nat) (f : CanFrame) : Bool :=
  match s.sourceSlot c f with
  | some n => s.f CAN_J19391.STATE (slotNo c n) == 3
  | none => false

/-- The heads of a queue whose source is lost complete; those behind complete as they reach the head. -/
def State.dropLost (s : State) (c q : Nat) : Nat → State
  | 0 => s
  | n + 1 =>
    if !s.ringHas true (canRing c q) then s
    else
      match s.headDesc true (canRing c q) with
      | (some d, s1) =>
        if s1.lostSource c (canOf d []) then (s1.canWb (canRing c q) d rsAddrLost 0 0).dropLost c q n else s1
      | (none, s1) => s1

/-- An interrupt to the flask that owns a unit, on a vector the manual does not give. -/
def State.ownerIrq (s : State) : State :=
  let (a, s1) := s.fresh
  let (b, s2) := s1.fresh
  s2.emit (.instIrq (a % 256) (b % 256))

/-- R296: a competing claim of a slot's address. -/
def State.compete (s : State) (c n : Nat) (f : CanFrame) : State :=
  let k := slotNo c n
  if s.r .canJ19390 k < leNat f.data then
    s.modCan c fun x => { x with claims := x.claims ++ [s.claimFrame k] }
  else
    let s1 := ((s.setF CAN_J19391.STATE k 3).setF CAN_J19391.LOST k 1).modCan c fun x =>
      { x with claims := x.claims.filter fun g => g.id != claimId (s.f CAN_J19391.ADDR k)
               owe := if s.fb CAN_J19391.ARB_CAPABLE k then x.owe else insNat x.owe n }
    s1.each (List.range 8) (fun s q => s.dropLost c q (s.ringSize true (canRing c q))) |>.ownerIrq

/-- R296: a request for PGN EE00h is answered with a claim or a Cannot Claim. -/
def State.answerRequest (s : State) (c : Nat) (dest : Nat) : State :=
  s.each (s.liveSlots c) fun s n =>
    let k := slotNo c n
    if dest != 0xFF && dest != s.f CAN_J19391.ADDR k then s
    else
      s.modCan c fun x =>
        { x with claims := x.claims ++ [if s.f CAN_J19391.STATE k = 3 then s.cannotFrame k else s.claimFrame k] }

/-- R296: what a received frame means to the claim logic of a controller. -/
def State.j1939Receive (s : State) (c : Nat) (f : CanFrame) : State :=
  if !isExt f.fmt then s
  else if f.id / 256 % 2 ^ 18 = 0xEEFF then
    match (s.liveSlots c).find? fun n => s.f CAN_J19391.ADDR (slotNo c n) == f.id % 256
        && s.f CAN_J19391.STATE (slotNo c n) != 3 with
    | some n => s.compete c n f
    | none => s
  else if f.id / 65536 % 1024 = 0xEA && leAt f.data 0 3 = 0xEE00 then s.answerRequest c (f.id / 256 % 256)
  else s

/-- R296: CLAIM_HOLD_EXPIRY: 250 ms after the claim the slot is held and releases its frames. -/
def execClaimHoldExpiry (c slot : Nat) (s : State) : Res :=
  unit s (decide (c < 20) && decide (slot < 8))
    (let k := slotNo c slot
     if s.f CAN_J19391.STATE k = 1 && reached s.now (NMap.get (s.canc c).claimNs 0 slot + 250000000) then
       s.setF CAN_J19391.STATE k 2
     else s)

/-- R296: CANNOT_CLAIM: a lost slot without ARB_CAPABLE sends Cannot Claim after its delay. -/
def execCannotClaim (c slot : Nat) (s : State) : Res :=
  unit s (decide (c < 20) && decide (slot < 8))
    (if (s.canc c).owe.contains slot then
       s.modCan c fun x => { x with owe := delNat x.owe slot, claims := x.claims ++ [s.cannotFrame (slotNo c slot)] }
     else s)

/-! ## Arbitration (R293) -/

/-- Where an offered frame comes from. -/
inductive CanSrc where
  | queue (q : Nat) | route | claim
  deriving DecidableEq, Repr

/-- The identifier as it stands on the bus: the 29 bits, a standard identifier ahead of an extended one. -/
def busKey (f : CanFrame) : Nat := 2 * f.id + b2n (isExt f.fmt)

/-- The head of a queue as a candidate; late, lost and bad frames complete here without being offered. -/
def State.queueHead (s : State) (c q : Nat) : Option (List Nat × CanFrame) × State :=
  let r := canRing c q
  let s0 := s.dropLost c q (s.ringSize true r)
  if !s0.ringHas true r then (none, s0)
  else
    match s0.headDesc true r with
    | (none, s1) => (none, s1)
    | (some d, s1) =>
      let f := canOf d []
      if !s1.eligible true d || s1.heldSource c f then (none, s1)
      else if s1.isLate true r d then (none, s1.canWb r d rsLate 0 0)
      else if !s1.carries c f.fmt || !canLenOk f.fmt (canLen d) then (none, s1.canWb r d rsBadDesc 0 0)
      else (some (d, f), s1)

/-- The candidates of an arbitration, queues first. -/
def State.canOffers (s : State) (c : Nat) : List (CanSrc × List Nat × CanFrame) × State :=
  let (qs, s1) := (List.range 8).foldl (fun (acc : List (CanSrc × List Nat × CanFrame) × State) q =>
    match acc.2.queueHead c q with
    | (some (d, f), s') => (acc.1 ++ [(.queue q, d, f)], s')
    | (none, s') => (acc.1, s')) ([], s)
  let x := s1.canc c
  (qs ++ (x.route.head?.map fun f => (CanSrc.route, ([] : List Nat), f)).toList
    ++ (x.claims.head?.map fun f => (CanSrc.claim, ([] : List Nat), f)).toList, s1)

/-- The lowest identifier; ties to the first. -/
def lowestOffer : List (CanSrc × List Nat × CanFrame) → Option (CanSrc × List Nat × CanFrame)
  | [] => none
  | o :: os => some (os.foldl (fun a b => if busKey b.2.2 < busKey a.2.2 then b else a) o)

/-- The winner is sent. -/
def State.sendOffer (s : State) (c : Nat) (o : CanSrc × List Nat × CanFrame) : State :=
  match o.1 with
  | .route => (s.modCan c fun x => { x with route := x.route.drop 1 }).emit (.canFrame c o.2.2)
  | .claim => (s.modCan c fun x => { x with claims := x.claims.drop 1 }).emit (.canFrame c o.2.2)
  | .queue q =>
    let r := canRing c q
    match rtRead rtCan s (s.f CAN_RINGCFG0.INSTANCE r) (wordAt o.2.1 3) (canLen o.2.1) with
    | (.ok bs, s1) =>
      (s1.emit (.canFrame c { o.2.2 with data := bs })).canWb r o.2.1 rsOk s1.now s1.clock.frac
    | (_, s1) => s1.canWb r o.2.1 rsXlate 0 0

/-- R293: CAN_ARBITRATION. -/
def execCanArbitration (c : Nat) (s : State) : Res :=
  unit s (decide (c < 20))
    (if !s.fb CAN_CTRL.EN c || s.busOff c || 3 < s.f CAN_CTRL.MODE c then s
     else
      let (os, s1) := s.canOffers c
      match lowestOffer os with
      | some o => s1.sendOffer c o
      | none => s1)

/-- R291, R293: LAUNCH_LATE: the frame at the head of an Ethernet ring or of a CAN queue has passed its limit. -/
def execLaunchLate (can : Option Nat) (r : Nat) (s : State) : Res :=
  match can with
  | none =>
    unit s (decide (r < 128))
      (if !s.ringHas false r then s
       else
        match s.headDesc false r with
        | (some d, s1) => if s1.isLate false r d then s1.txEnd r rsLate (txPort d) else s1
        | (none, s1) => s1)
  | some c =>
    unit s (decide (c < 20) && decide (r < 8))
      (let k := canRing c r
       if !s.ringHas true k then s
       else
        match s.headDesc true k with
        | (some d, s1) => if s1.isLate true k d then s1.canWb k d rsLate 0 0 else s1
        | (none, s1) => s1)

/-! ## The tunnel engine (R297, R298) -/

/-- Bytes of an ACF CAN message in an AVTPDU: a 16-byte header and the payload in quadlets (IEEE 1722). -/
def acfBytes (m : AcfMsg) : Nat := 16 + (m.frame.data.length + 3) / 4 * 4

/-- An AVTPDU leaves from port 14. -/
def State.sendPdu (s : State) (t : Nat) : State :=
  let x := s.tun t
  if x.msgs.isEmpty then s
  else
    (s.emit (.avtpdu x.dmac x.vid x.pcp x.stream x.seq x.msgs)).modTun t fun x => { x with msgs := [], seq := (x.seq + 1) % 256 }

/-- A message enters the AVTPDU of its tunnel entry. -/
def State.tunnelMsg (s : State) (t : Nat) (m : AcfMsg) : State :=
  if !s.fb CAN_TUNCFG.EN 0 || (s.tun t).inbound then s
  else
    let s1 := if 1480 < (((s.tun t).msgs.map acfBytes).sum + acfBytes m) then s.sendPdu t else s
    let s2 := s1.modTun t fun x =>
      { x with msgs := x.msgs ++ [m], firstNs := if x.msgs.isEmpty then s1.now else x.firstNs }
    let x := s2.tun t
    if x.maxMsgs ≤ x.msgs.length || x.maxWaitUs = 0 then s2.sendPdu t else s2

/-- R297: TUNNEL_FLUSH. -/
def execTunnelFlush (t : Nat) (s : State) : Res :=
  unit s (decide (t < 64))
    (let x := s.tun t
     if !x.msgs.isEmpty && reached s.now (x.firstNs + 1000 * x.maxWaitUs) then s.sendPdu t else s)

/-- A tunnel entry as read from its 32 bytes. -/
def tunnelOf (bs : List Byte) : Tunnel :=
  let w1 := leAt bs 8 8
  let w2 := leAt bs 16 8
  { stream := leAt bs 0 8, dmac := bits w1 63 16, vid := bits w1 15 4, pcp := bits w1 3 1, inbound := bit w1 0,
    maxWaitUs := bits w2 63 48, maxMsgs := bits w2 47 40, ctrlMask := bits w2 39 20 }

/-- R298: setting EN of CAN_TUNCFG reads the table, at a physical address (log entry 35); an entry whose read is
refused is empty. -/
def State.readTunnels (s : State) : State :=
  s.each (List.range 64) fun s t =>
    match physRead s 8 (s.f CAN_TUNCFG.TUN_BASE 0 * 64 + 32 * t) 32 with
    | (.ok bs, s1) => s1.modTun t fun _ => tunnelOf bs
    | (_, s1) => s1.modTun t fun _ => {}

/-! ## Routing and reception (R294, R295) -/

/-- R295: a frame enters the route queue of a controller, or is dropped and counted. -/
def State.routeTo (s : State) (c : Nat) (f : CanFrame) : State :=
  if 32 ≤ (s.canc c).route.length || s.busOff c || !s.carries c f.fmt || !s.fb CAN_CTRL.EN c || 19 < c then
    s.incSat CAN_STAT.ROUTE_DROP c 1
  else s.modCan c fun x => { x with route := x.route ++ [f] }

/-- R294: an entry matches a frame. -/
def State.fltrMatch (s : State) (e : Nat) (f : CanFrame) : Bool :=
  let fm := s.f CAN_FLTR0.FORMAT e
  let kind := if f.fmt ≤ 1 then 1 else if f.fmt ≤ 3 then 2 else 3
  s.fb CAN_FLTR0.EN e && (fm == 0 || fm == kind)
    && (f.fmt == 4 || s.fb CAN_FLTR0.XID e == isExt f.fmt)
    && Nat.land (Nat.xor f.id (s.f CAN_FLTR0.ID e)) (s.f CAN_FLTR0.MASK e) == 0
    && (f.fmt != 4 || s.fb CAN_FLTR1.AF_ANY e || s.f CAN_FLTR1.AF e == f.af)

/-- The first entry of a controller's range that matches. -/
def State.fltrFor (s : State) (c : Nat) (f : CanFrame) : Option Nat :=
  ((List.range (s.f CAN_FLTRNG.COUNT c)).map fun k => s.f CAN_FLTRNG.BASE c + k).find? fun e => s.fltrMatch e f

/-- A frame is delivered to receive ring 8 + RING of a controller. -/
def State.canDeliver (s : State) (c ring : Nat) (f : CanFrame) : State :=
  if 7 < ring then s
  else
    let r := canRing c (8 + ring)
    if !s.fb CAN_RINGCFG0.EN r then s
    else if !s.ringHas true r then s.incSat CAN_RINGCFG0.DROPS r 1
    else
      match s.headDesc true r with
      | (none, s1) => s1.incSat CAN_RINGCFG0.DROPS r 1
      | (some d, s1) =>
        let (st, s2) := match rtWrite rtCan s1 (s1.f CAN_RINGCFG0.INSTANCE r) (wordAt d 3) f.data with
          | (.ok _, s2) => (rsOk, s2)
          | (_, s2) => (rsXlate, s2)
        s2.writeBack true r
          [(0, toLE 8 s2.now ++ toLE 8 (canWord1 f) ++ toLE 8 (f.af % 2 ^ 32 * 2 ^ 32 + s2.clock.frac * 2 ^ 16 + st * 2 ^ 8))]

/-- R297: a frame of a controller as an ACF CAN message. -/
def State.acfOf (s : State) (c : Nat) (f : CanFrame) : AcfMsg :=
  { isCan := true, busId := s.f CAN_CTRL.BUS_ID c, frame := f, time := s.now }

/-- R294, R295: an action on a frame. XL frames are never tunnelled. -/
def State.canAction (s : State) (c action ring dest tunnel : Nat) (f : CanFrame) : State :=
  let xl := f.fmt == 4
  match action with
  | 1 => s.canDeliver c ring f
  | 2 => if xl then s.incSat CAN_STAT.XL_UNTUN c 1 else s.tunnelMsg tunnel (s.acfOf c f)
  | 3 =>
    let s1 := s.canDeliver c ring f
    if xl then s1.incSat CAN_STAT.XL_UNTUN c 1 else s1.tunnelMsg tunnel (s1.acfOf c f)
  | 4 => s.routeTo dest f
  | _ => s

/-- R294: a frame is received; the default action has no tunnel entry and no route of its own, so these are free
values (log entry 36). -/
def State.canReceive (s : State) (c : Nat) (f : CanFrame) : State :=
  let s1 := s.j1939Receive c f
  match s1.fltrFor c f with
  | some e =>
    s1.canAction c (s1.f CAN_FLTR1.ACTION e) (s1.f CAN_FLTR1.RING e) (s1.f CAN_FLTR1.DEST e) (s1.f CAN_FLTR1.TUNNEL e) f
  | none =>
    let (d, s2) := s1.fresh
    let (t, s3) := s2.fresh
    s3.canAction c (s3.f CAN_CTRL.DEFAULT c) (s3.f CAN_CTRL.DEFAULT_RING c) (d % 20) (t % 64) f

/-- R294: CAN_FRAME_RECEIVE. -/
def execCanFrameReceive (c : Nat) (f : CanFrame) (s : State) : Res :=
  unit s (decide (c < 20)) (if !s.fb CAN_CTRL.EN c || s.busOff c then s else s.canReceive c f)

/-! ## Bus-off (R292) -/

/-- R292: BUS_OFF. -/
def execBusOff (c : Nat) (s : State) : Res :=
  unit s (decide (c < 20))
    (if !s.fb CAN_CTRL.EN c || s.busOff c then s
     else
      let s1 := (s.setF CAN_CTRL.FC_STATE c 2).incSat CAN_STAT.BUSOFF c 1
      s1.each (List.range 8) fun s q =>
        if s.fb CAN_RINGCFG0.EN (canRing c q) then s.flushQueue (canRing c q) rsBusOff (s.ringSize true (canRing c q)) else s)

/-- R292: BUS_OFF_RECOVERY: the controller rejoins, error active, with its error counts at zero. -/
def execBusOffRecovery (c : Nat) (s : State) : Res :=
  unit s (decide (c < 20))
    (if s.busOff c && s.fb CAN_CTRL.AUTO_RECOVER c then
       ((s.setF CAN_CTRL.FC_STATE c 0).setF CAN_CTRL.TEC c 0).setF CAN_CTRL.REC c 0
     else s)

/-- R298: an inbound message goes to the controller of its bus, or is skipped and counted. -/
def State.inMsg (s : State) (t : Nat) (m : AcfMsg) : State :=
  match (List.range 20).find? fun c => m.isCan && s.f CAN_CTRL.BUS_ID c == m.busId && bit (s.tun t).ctrlMask c with
  | some c => s.routeTo c { m.frame with esi := s.f CAN_CTRL.FC_STATE c == 1 }
  | none => s.modTun t fun x => { x with skipped := x.skipped + 1 }

/-- R298: an inbound AVTPDU; a gap counts at every controller that the entry may reach (log entry 37). -/
def State.inPdu (s : State) (t seq : Nat) (msgs : List AcfMsg) : State :=
  let gap := (s.tun t).expect.any fun e => e != seq % 256
  let s1 := if gap then
      s.each ((List.range 20).filter fun c => bit (s.tun t).ctrlMask c) fun s c => s.incSat CAN_STAT.SEQ_GAP c 1
    else s
  (s1.modTun t fun x => { x with expect := some ((seq + 1) % 256) }).each msgs fun s m => s.inMsg t m

/-- R298: AVTPDU_RECEIVE. -/
def execAvtpduReceive (stream seq : Nat) (msgs : List AcfMsg) (s : State) : Res :=
  .next (if !s.fb CAN_TUNCFG.EN 0 then s
    else
      match (List.range 64).find? fun t => (s.tun t).inbound && (s.tun t).stream == stream with
      | some t => s.inPdu t seq msgs
      | none => s)

end Sys2Proof.Machine
end

