-- ==== Sys2Proof/Machine/ConvRun.lean ====
section
/-! DEFINITION. TENSOR and CONV jobs: the placing of tiles (R64, R97, R258), and the vector path of CONV: grouped
convolution (R103, R104), pooling (R105) and the expanded buffer (R102). -/

namespace Sys2Proof.Machine

/-! ## Tiles -/

/-- R64: the tiles of a job enter the flask's tile queue, once; in a timed flask they stay bound to entries. -/
def State.placeTiles (s : State) (x : Job) : State :=
  let f := s.jobFlask x
  if s.timed f || x.issued != 0 then s
  else
    (s.queueTiles f x.id x.prio x.tiles (s.urgent x)).modJob x.id fun y => { y with issued := y.tiles.length }

/-- R64: TENSOR. -/
def execTensor (j : Nat) (s : State) : Res := .next (s.runningJob j 1 fun x => s.placeTiles x)

/-- R97: CONV_TAP, a CONV job in the tap form. -/
def execConvTap (j : Nat) (s : State) : Res :=
  .next (s.runningJob j 2 fun x => if isTap x.conv then s.placeTiles x else s)

/-! ## Reads of the vector path -/

/-- A computation that may end the job with a status. -/
abbrev Rs (α : Type) := Except Nat α × State

/-- Go on with a result, or keep the status. -/
def Rs.andThen {α β : Type} (r : Rs α) (g : α → State → Rs β) : Rs β :=
  match r with
  | (.ok a, s) => g a s
  | (.error e, s) => (.error e, s)

/-- Bytes of an instance, or the status of a failed access. -/
def vBytes (inst va n : Nat) (s : State) : Rs (List Byte) :=
  match instRead s inst va n with
  | (.ok bs, s1) => (.ok bs, s1)
  | (e, s1) => (.error e.status, s1)

/-- Apply a computation to every element of a list; the first error ends it. -/
def vAll {α β : Type} (g : α → State → Rs β) : List α → State → Rs (List β)
  | [], s => (.ok [], s)
  | x :: xs, s => (g x s).andThen fun b s1 => (vAll g xs s1).andThen fun bs s2 => (.ok (b :: bs), s2)

/-- R242: a scale byte; outside −64 to +63 the item ends in a job fault. -/
def vScale (inst va : Nat) (s : State) : Rs Int :=
  (vBytes inst va 1 s).andThen fun bs s1 =>
    let e := sint 8 (leNat bs)
    if e < -64 || 63 < e then (.error stJobFault, s1) else (.ok e, s1)

/-- R103: an input element inside the image, expanded under its own scale-group byte. -/
def vInput (r : ConvRec) (inst n y x c : Nat) (s : State) : Rs Nat :=
  (vBytes inst (cvInAddr r + fmapOff (cvBlk r) (cvInFmt r) (cvInC r) (cvInH r) (cvInW r) n y x c)
    (fmtBytes (cvInFmt r)) s).andThen fun bs s1 =>
  (vScale inst (cvInScale r + scaleOff (cvInC r) (cvInH r) (cvInW r) n (c / 64) y x) s1).andThen fun e s2 =>
    (.ok (expand (cvInFmt r) (leNat bs) e).1, s2)

/-- Input channels of a group, and output channels of a group. -/
def cvGroupIn (r : ConvRec) : Nat := cvInC r / cvGroups r
def cvGroupOut (r : ConvRec) : Nat := cvOutC r / cvGroups r

/-- R103: weight (co, ky, kx, ci), packed as one row of elements, expanded under the byte of its output channel. -/
def vWeight (r : ConvRec) (inst co ky kx ci : Nat) (s : State) : Rs Nat :=
  let w := fmtBits (cvWFmt r)
  let o := (((co * cvKH r + ky) * cvKW r + kx) * cvGroupIn r + ci) * w
  (vBytes inst (cvWgtAddr r + o / 8) ((o % 8 + w + 7) / 8) s).andThen fun bs s1 =>
  (vScale inst (cvWgtScale r + co) s1).andThen fun e s2 =>
    (.ok (expand (cvWFmt r) (leNat bs / 2 ^ (o % 8) % 2 ^ w) e).1, s2)

/-! ## One output element -/

/-- Input row and column of a window position (R97). -/
def cvY (r : ConvRec) (oy ky : Nat) : Int := (oy * cvStrY r + ky * cvDilY r : Nat) - (cvPadT r : Int)
def cvX (r : ConvRec) (ox kx : Nat) : Int := (ox * cvStrX r + kx * cvDilX r : Nat) - (cvPadL r : Int)

/-- The position lies inside the image. -/
def cvInside (r : ConvRec) (y x : Int) : Bool :=
  decide (0 ≤ y) && decide (y < (cvInH r : Int)) && decide (0 ≤ x) && decide (x < (cvInW r : Int))

/-- Window positions in the order ky, then kx. -/
def cvTaps (r : ConvRec) : List (Nat × Nat) :=
  (List.range (cvKH r)).flatMap fun ky => (List.range (cvKW r)).map fun kx => (ky, kx)

/-- The sum of a list of binary32 codes, starting from the first (R76, R103). -/
def f32sum : List Nat → Nat
  | [] => 0
  | p :: ps => ps.foldl f32add p

/-- R103: one output element of a grouped convolution before the post-operation. -/
def groupedElem (r : ConvRec) (inst n oy ox co : Nat) (s : State) : Rs Nat :=
  let h := co / cvGroupOut r
  let cells := (cvTaps r).flatMap fun t => (List.range (cvGroupIn r)).map fun ci => (t.1, t.2, ci)
  (vAll (fun t s =>
      let y := cvY r oy t.1
      let x := cvX r ox t.2.1
      if !cvInside r y x then (.ok 0, s)
      else
        (vInput r inst n y.toNat x.toNat (h * cvGroupIn r + t.2.2) s).andThen fun a s1 =>
        (vWeight r inst co t.1 t.2.1 t.2.2 s1).andThen fun w s2 => (.ok (f32prod a w).1, s2))
    cells s).andThen fun ps s1 => (.ok (f32sum ps), s1)

/-- The expanded values of a pooling window: none for a padding position. -/
def poolWindow (r : ConvRec) (inst n oy ox c : Nat) (s : State) : Rs (List (Option Nat)) :=
  vAll (fun t s =>
    let y := cvY r oy t.1
    let x := cvX r ox t.2
    if !cvInside r y x then (.ok none, s)
    else (vInput r inst n y.toNat x.toNat c s).andThen fun v s1 => (.ok (some v), s1)) (cvTaps r) s

/-- A free binary32 code: the manual states no result for a pooling window that lies wholly in padding. -/
def vFree (s : State) : Rs Nat :=
  let (v, s1) := s.fresh
  (.ok (v % 2 ^ 32), s1)

/-- R105: the largest of expanded values, +0 above −0; NaN if any is NaN. -/
def poolMax (vs : List Nat) : Nat :=
  if vs.any (fun c => decide (ofF32 c = .nan)) then nan32
  else vs.foldl (fun m c => if fvLt true (ofF32 m) (ofF32 c) then c else m) (vs.headD 0)

/-- R105: one pooled element before the post-operation. -/
def pooledElem (r : ConvRec) (inst n oy ox c : Nat) (s : State) : Rs Nat :=
  (poolWindow r inst n oy ox c s).andThen fun ws s1 =>
    let vs := ws.filterMap id
    match cvOp r with
    | 1 => if vs.isEmpty then vFree s1 else (.ok (poolMax vs), s1)
    | 2 => (.ok (f32divNat (ofF32 (f32sum (ws.map fun o => o.getD 0))) (cvKH r * cvKW r)), s1)
    | _ => if vs.isEmpty then vFree s1 else (.ok (f32divNat (ofF32 (f32sum vs)) vs.length), s1)

/-- The element of an output channel before the post-operation. -/
def cvElem (r : ConvRec) (inst n oy ox co : Nat) (s : State) : Rs Nat :=
  if cvOp r = 0 then groupedElem r inst n oy ox co s else pooledElem r inst n oy ox co s

/-! ## Rows of output channels (R79 to R81, R104) -/

/-- The values of one scale group at one pixel after bias and ACT. -/
def cvRow (r : ConvRec) (inst n oy ox g : Nat) (s : State) : Rs (List Nat) :=
  vAll (fun k s =>
    let co := 64 * g + k
    (cvElem r inst n oy ox co s).andThen fun acc s1 =>
      if cvBiasEn r then
        (vBytes inst (cvBiasAddr r + 4 * co) 4 s1).andThen fun bs s2 =>
          (.ok (actOp (cvAct r) (cvSlope r) (f32add acc (leNat bs))), s2)
      else (.ok (actOp (cvAct r) (cvSlope r) acc), s1))
    (List.range (min 64 (cvOutC r - 64 * g))) s

/-- The pieces that a row of codes and its scale byte occupy in the output. -/
def cvOutPieces (r : ConvRec) (n oy ox g : Nat) (codes : List Nat) (e : Int) : List (Nat × List Byte) :=
  let fmt := cvOutFmt r
  ((List.range codes.length).zip codes).map (fun p =>
      (cvOutAddr r + fmapOff (cvBlk r) fmt (cvOutC r) (cvOutH r) (cvOutW r) n oy ox (64 * g + p.1),
       toLE (fmtBytes fmt) p.2))
    ++ [(cvOutScale r + scaleOff (cvOutC r) (cvOutH r) (cvOutW r) n g oy ox, [BitVec.ofNat 8 (uint 8 e)])]

/-- One row: its scale from the history, its codes written; the history and whether any value saturated. -/
def cvWriteRow (r : ConvRec) (inst n oy g : Nat) (acc : List Int × Bool) (ox : Nat) (s : State) :
    Rs (List Int × Bool) :=
  (cvRow r inst n oy ox g s).andThen fun vs s1 =>
    let e := rowScale (cvOutFmt r) acc.1 (cvHeadroom r) (cvSeed r)
    let cs := vs.map fun v => convert (cvOutFmt r) (ofF32 v) e
    match writeAll inst (cvOutPieces r n oy ox g (cs.map fun c => c.code) e) s1 with
    | (.ok _, s2) => (.ok (histAdd acc.1 (cvWindow r) (rowMag vs), acc.2 || cs.any fun c => c.sat), s2)
    | (x, s2) => (.error x.status, s2)

/-- The rows of one (n, oy, g), in ascending ox from an empty history. -/
def cvLine (r : ConvRec) (inst n oy g : Nat) : List Nat → List Int × Bool → State → Rs Bool
  | [], acc, s => (.ok acc.2, s)
  | ox :: oxs, acc, s =>
    (cvWriteRow r inst n oy g acc ox s).andThen fun acc' s1 => cvLine r inst n oy g oxs acc' s1

/-- The scale groups of one output row (n, oy) of a grouped convolution or of a pooling. -/
def convRow (x : Job) (n oy : Nat) (s : State) : Rs Bool :=
  (vAll (fun g s => cvLine x.conv x.inst n oy g (List.range (cvOutW x.conv)) ([], false) s)
    (List.range (cdiv (cvOutC x.conv) 64)) s).andThen fun bs s1 => (.ok (bs.any id), s1)

/-! ## The expanded buffer (R102) -/

/-- The (q, j) of one output row (n, oy) of an expanded buffer, as n, oy, ox, ky, kx and p. -/
def expandCells (r : ConvRec) (n oy : Nat) : List (Nat × Nat × Nat × Nat × Nat × Nat) :=
  (List.range (cvOutW r)).flatMap fun ox => (cvTaps r).flatMap fun t =>
    (List.range (cvCP r)).map fun p => (n, oy, ox, t.1, t.2, p)

/-- One pass row of the expanded buffer and its scale byte. -/
def expandCell (x : Job) (c : Nat × Nat × Nat × Nat × Nat × Nat) (s : State) : Rs Unit :=
  let r := x.conv
  let (n, oy, ox, ky, kx, p) := c
  let q := (n * cvOutH r + oy) * cvOutW r + ox
  let total := cvBatch r * cvOutH r * cvOutW r
  let k := cvKH r * cvKW r * cvCP r
  let j := (ky * cvKW r + kx) * cvCP r + p
  match passRow r x.inst p n (cvY r oy ky) (cvX r ox kx) s with
  | (.error e, s1) => (.error e.status, s1)
  | (.ok (cs, e), s1) =>
    match writeAll x.inst
        [(cvOutAddr r + (q * k + j) * passUnits r * 64, padTo (64 * passUnits r) (packElems (cvInFmt r) cs)),
         (cvOutAddr r + total * k * passUnits r * 64 + j * total + q, [BitVec.ofNat 8 (uint 8 e)])] s1 with
    | (.ok _, s2) => (.ok (), s2)
    | (b, s2) => (.error b.status, s2)

/-- R91: item k of a CONV job of the vector path is its output row (n, oy) in raster order. -/
def convItem (x : Job) (k : Nat) (s : State) : Rs Bool :=
  let n := k / cvOutH x.conv
  let oy := k % cvOutH x.conv
  if cvOp x.conv = 4 then (vAll (expandCell x) (expandCells x.conv n oy) s).andThen fun _ s1 => (.ok false, s1)
  else convRow x n oy s

end Sys2Proof.Machine
end

