-- ==== Sys2Proof/Machine/Record.lean ====
section
/-! DEFINITION. The field record (R156 to R158): its bytes and those of the summary, the folding of hardware
counters, samples, checkpoints, and the life of the billet (R339); and the safety causes that monitors raise
(R15, R155). -/

namespace Sys2Proof.Machine

/-! ## Bytes -/

/-- Words of a map, n bytes each. -/
def mapBytes (m : NMap Nat) (n count : Nat) : List Byte :=
  (List.range count).flatMap fun k => toLE n (min (NMap.get m 0 k) (2 ^ (8 * n) - 1))

/-- Zero bytes. -/
def zeros (n : Nat) : List Byte := List.replicate n 0

/-- Bit i of the retired-array map for physical array i. -/
def retiredMap (xs : List Nat) : Nat := (xs.map fun a => 2 ^ a).sum

/-- An entry of the event log. -/
def LogEvent.bytes (e : LogEvent) : List Byte :=
  toLE 8 e.time ++ toLE 4 e.hour ++ toLE 2 e.code ++ toLE 2 e.unit ++ toLE 16 e.detail

/-- The record from 0000h, with a CRC field, up to 7EFFh. -/
def FieldRecord.body (r : FieldRecord) (crc : Nat) : List Byte :=
  toLE 4 0x46524543 ++ toLE 2 0x0100 ++ toLE 1 r.reason ++ zeros 1 ++ toLE 8 r.seq ++ toLE 8 r.poh ++ toLE 8 r.stby
    ++ toLE 8 r.time ++ toLE 4 0x8000 ++ toLE 4 crc ++ zeros 16
    ++ mapBytes r.counts 4 16 ++ mapBytes r.arrays 4 (34 * 8) ++ mapBytes r.vecs 4 64 ++ mapBytes r.rts 4 32
    ++ mapBytes r.runner 4 16 ++ mapBytes r.corrected 4 512 ++ mapBytes r.uncorr 2 32 ++ mapBytes r.mirror 2 32
    ++ mapBytes r.temp 4 512 ++ mapBytes r.droop 4 128 ++ mapBytes r.links 4 32 ++ mapBytes r.doze 4 8
    ++ toLE 4 r.trajDiff ++ toLE 4 r.spareActs ++ toLE 8 (retiredMap r.retired)
    ++ ((r.spareEvents.flatMap fun e => toLE 1 e.1 ++ toLE 1 e.2.1 ++ toLE 1 e.2.2.1 ++ zeros 1 ++ toLE 4 e.2.2.2)
        ++ zeros 64).take 64
    ++ toLE 4 r.logIdx ++ zeros 12 ++ toLE 8 r.bytes ++ toLE 8 r.endurance ++ toLE 4 r.replacements ++ zeros 4
    ++ toLE 16 r.serial ++ zeros 24 ++ zeros 1472
    ++ ((List.range 512).flatMap fun k => match NMap.find r.log k with
        | some e => e.bytes
        | none => zeros 32)
    ++ zeros 7936

/-- The 32 KB of a record: HMAC and signature are free bytes; a PFW_N record carries no signature. The CRC covers
what the HMAC covers, with its own field zero (log entry 39). -/
def FieldRecord.bytes32k (r : FieldRecord) (s : State) : List Byte × State :=
  let b := r.body (crc32 (r.body 0))
  let (mac, s1) := s.freshBytes 48
  let (sig, s2) := s1.freshBytes 96
  (b ++ mac ++ (if r.reason = 2 then zeros 96 else sig) ++ zeros 112, s2)

/-- Sum of n entries of a map from a key on. -/
def sumFrom (m : NMap Nat) (k n : Nat) : Nat := ((List.range n).map fun i => NMap.get m 0 (k + i)).sum

/-- The summary up to 1CFh (R157). -/
def FieldRecord.summaryBody (r : FieldRecord) (crc : Nat) : List Byte :=
  let h (v : Nat) : List Byte := toLE 2 (min v 65535)
  toLE 4 0x46524543 ++ toLE 2 0x0100 ++ toLE 1 r.reason ++ zeros 1 ++ toLE 8 r.seq ++ toLE 8 r.poh ++ toLE 8 r.stby
    ++ toLE 4 (NMap.get r.counts 0 0) ++ toLE 4 (NMap.get r.counts 0 2) ++ toLE 4 (NMap.get r.counts 0 3) ++ toLE 4 crc
    ++ ((List.range 34).flatMap fun a => h (sumFrom r.arrays (8 * a) 2) ++ h (NMap.get r.arrays 0 (8 * a + 2)))
    ++ toLE 8 (retiredMap r.retired)
    ++ ((List.range 8).flatMap fun c => h (NMap.get r.rts 0 (4 * c)))
    ++ ((List.range 16).flatMap fun e => h (sumFrom r.vecs (4 * e) 2))
    ++ ((List.range 8).flatMap fun c => toLE 4 (min (sumFrom r.corrected (64 * c) 64) (2 ^ 32 - 1)))
    ++ ((List.range 8).flatMap fun c => h (sumFrom r.uncorr (4 * c) 4))
    ++ mapBytes r.hot 4 16
    ++ ((List.range 16).flatMap fun b => toLE 4 (((List.range 8).map fun v => NMap.get r.droop 0 (16 * v + b)).sum))
    ++ toLE 8 r.bytes ++ h r.replacements ++ h r.spareActs ++ toLE 4 (sumFrom r.links 0 32) ++ zeros 32

/-- The 512 bytes of a summary. -/
def FieldRecord.bytes512 (r : FieldRecord) (s : State) : List Byte × State :=
  let (mac, s1) := s.freshBytes 48
  (r.summaryBody (crc32 (r.summaryBody 0)) ++ mac, s1)

/-- A map with the entries that a list gives. -/
def mapOf (xs : List (Nat × Nat)) : NMap Nat := xs.foldl (fun m e => NMap.set m 0 e.1 e.2) []

/-- R158: a record started from a summary: what the summary holds, and zero where it holds nothing. A sum of several
counters stands in the first of them (log entry 180). -/
def FieldRecord.fromSummary (r : FieldRecord) : FieldRecord :=
  { arrays := mapOf ((List.range 34).flatMap fun a =>
      [(8 * a, min (sumFrom r.arrays (8 * a) 2) 65535), (8 * a + 2, min (NMap.get r.arrays 0 (8 * a + 2)) 65535)])
    vecs := mapOf ((List.range 16).map fun e => (4 * e, min (sumFrom r.vecs (4 * e) 2) 65535))
    rts := mapOf ((List.range 8).map fun c => (4 * c, min (NMap.get r.rts 0 (4 * c)) 65535))
    corrected := mapOf ((List.range 8).map fun c => (64 * c, min (sumFrom r.corrected (64 * c) 64) (2 ^ 32 - 1)))
    uncorr := mapOf ((List.range 8).map fun c => (4 * c, min (sumFrom r.uncorr (4 * c) 4) 65535))
    reason := r.reason, seq := r.seq, poh := r.poh, stby := r.stby
    counts := (NMap.set (NMap.set (NMap.set [] 0 0 (NMap.get r.counts 0 0)) 0 2 (NMap.get r.counts 0 2)) 0 3
      (NMap.get r.counts 0 3))
    retired := r.retired, hot := r.hot, bytes := r.bytes, replacements := r.replacements, spareActs := r.spareActs }

/-! ## Folding (R157) -/

/-- A hardware counter that is folded: the rise since the last fold, or the whole after a clear. -/
def State.foldDelta (s : State) (key cur : Nat) : Nat × State :=
  let old := NMap.get s.sys.store.folded 0 key
  (if old ≤ cur then cur - old else cur, { s with sys.store.folded := NMap.set s.sys.store.folded 0 key cur })

/-- One counter of an array into word k of its entry. -/
def State.foldArr (s : State) (a k cur : Nat) : State :=
  let (d, s1) := s.foldDelta (8 * a + k) cur
  s1.modRec fun r => { r with arrays := satAdd32 r.arrays (8 * a + k) d }

/-- The physical arrays by number. -/
def allArrays : List Nat := List.range 34

/-- R156, R157: the counters of the arrays, their STATE, and the doze counters of the Weska ports (R319). -/
def State.fold (s : State) : State :=
  let s1 := s.each allArrays fun s a =>
    ((((((s.foldArr a 0 (s.f ARR_RCSTAT.ISO_PRI a)).foldArr a 1 (s.f ARR_RCSTAT.ISO_RC a)).foldArr a 2
      (s.f ARR_RCSTAT.TB_FAIL a)).foldArr a 3 (s.f ARR_RCSTAT.OVERRUN a)).foldArr a 5
        (s.f ARR_SATCNT.DRIFT_EVENTS a))).modRec fun r =>
          { r with arrays := NMap.set r.arrays 0 (8 * a + 6) (s.f ARR_STATUS.STATE a) }
  s1.each (List.range 4) fun s p =>
    let (d, s2) := s.foldDelta (1000 + p) (s.f WSK_PORTSTAT.MISSES p)
    s2.modRec fun r =>
      { r with doze := NMap.set (satAdd32 r.doze p d) 0 (4 + p) (max (NMap.get r.doze 0 (4 + p)) (s.wport p).drift) }

/-- The Cupola runs and serves its work (R335). -/
def State.cupolaUp (s : State) : Bool := (s.fwp 1).running

/-- The temperature bin of a reading. -/
def tempBin (c : Int) : Nat :=
  if c < -20 then 0 else if 120 ≤ c then 15 else ((c + 20) / 10 + 1).toNat

/-- R156: a droop event of a rail counts in the bin of its lowest value, in whole % of nominal. -/
def FieldRecord.addDroop (r : FieldRecord) (e : Nat × Nat) : FieldRecord :=
  if e.1 < 8 && e.2 < 98 then { r with droop := satAdd32 r.droop (16 * e.1 + min 15 (97 - e.2)) 1 } else r

/-- R156: SENSOR_SAMPLE: every sensor's bin counts a second, so does the hottest sensor's, and POH_S rises; the droop
events that ended since the last sample count (log entries 40, 113). -/
def execSensorSample (temps : List Int) (droops : List (Nat × Nat)) (s : State) : Res :=
  unit s (temps.length == 32)
    (if !s.cupolaUp then s
     else
      s.modRec fun r0 =>
        let r := droops.foldl FieldRecord.addDroop r0
        { r with
          poh := r.poh + 1
          temp := temps.zipIdx.foldl (fun m p => satAdd32 m (16 * p.2 + tempBin p.1) 1) r.temp
          hot := satAdd32 r.hot (tempBin (temps.foldl max (temps.headD 0))) 1 })

/-! ## The billet (R338, R339) -/

/-- Remaining life in %. -/
def lifePct (bytes endurance : Nat) : Nat := if endurance = 0 then 0 else 100 - 100 * bytes / endurance

/-- LIFE_PCT follows the record; LOW is set and the manager interrupted when it falls to WARN_PCT. -/
def State.updateLife (s : State) : State :=
  let r := s.sys.record
  let new := lifePct r.bytes r.endurance
  let old := s.f SYS_BILLET.LIFE_PCT 0
  let w := s.f SYS_BILLET.WARN_PCT 0
  let s1 := s.setF SYS_BILLET.LIFE_PCT 0 new
  if new ≤ w && w < old then (s1.setF SYS_BILLET.LOW 0 1).mgrIrq 17 0 else s1

/-- The billet is written: paired, and powered (R338, R340). -/
def State.billetLive (s : State) : Bool := s.f SYS_BILLET.STATE 0 == 2 && s.sys.power.billetPwrEn

/-- R339: the UFS host's count of bytes written beside the checkpoints, as to the manager's log area, is folded. -/
def State.foldUfs (s : State) (n : Nat) : State :=
  if s.billetLive && n ≠ 0 then (s.modRec fun r => { r with bytes := r.bytes + n }).updateLife else s

/-- R157, R339: COUNTER_FOLD; `ufs` is what the UFS host has counted since the last fold. -/
def execCounterFold (ufs : Nat) (s : State) : Res := .next (if s.cupolaUp then s.fold.foldUfs ufs else s)

/-- Bytes that a checkpoint adds to the billet's count: a slot and its metadata (R339, R340's example). -/
def checkpointBytes : Nat := 65536

/-! ## Checkpoints (R157) -/

/-- R157: SEQ rises, the record goes to the next slot of the billet, the summary to the NOR; `copy` writes the
full-record copy of the boot NOR as well (R340). -/
def State.checkpoint (s : State) (reason : Nat) (copy : Bool) : State :=
  let s1 := if s.billetLive then (s.modRec fun r => { r with bytes := r.bytes + checkpointBytes }).updateLife else s
  let s2 := s1.modRec fun r => { r with seq := r.seq + 1, reason := reason, time := s.now }
  let r := s2.sys.record
  let st := s2.sys.store
  let st1 := if s.billetLive then
      if st.nextSlot = 0 then { st with slot0 := some r, nextSlot := 1 } else { st with slot1 := some r, nextSlot := 0 }
    else st
  { s2 with sys.store := { st1 with summary := some r, summaryIdx := (st.summaryIdx + 1) % 512, lastPoh := r.poh
                                    norCopy := if copy then some r else st1.norCopy } }

/-- R157: CHECKPOINT, every 600 s of POH_S. -/
def execCheckpoint (s : State) : Res :=
  .next (if s.cupolaUp && s.sys.store.lastPoh + 600 ≤ s.sys.record.poh then s.checkpoint 1 false else s)

/-- R327, R328: the PFW_N event is counted and, unless a PFW_N checkpoint ended less than 1 s ago, written. -/
def State.pfwServe (s : State) : State :=
  let s1 := (s.recCount 2).logEvent 11 0 0
  let recent := s.sys.power.lastPfwNs.any fun t => !reached s.now (t + 1000000000)
  if recent then s1
  else (s1.checkpoint 2 false).modPower fun p => { p with lastPfwNs := some s.now }

/-- R327: POWER_FAIL_WARNING. A restarting Cupola serves the latched warning first. -/
def execPowerFailWarning (s : State) : Res :=
  .next (if s.sys.power.mode ≠ .on then s
    else
      let s1 := s.setF SYS_PWRSTAT.PFW 0 1
      if (s1.fwp 1).restarting then s1.modPower fun p => { p with pfwLatched := true }
      else if s1.cupolaUp then s1.pfwServe else s1)

/-- R328: POWER_FAIL_WARNING_END: the record stands. -/
def execPowerFailWarningEnd (s : State) : Res := .next (s.setF SYS_PWRSTAT.PFW 0 0)

/-! ## Links (R156) -/

/-- The word of a link in the list of retrains. -/
def linkKey : LinkId → Nat
  | .eth p => p
  | .pcie p => 16 + p
  | .csi p => 18 + p
  | .display o => 26 + o
  | .ufs => 30

/-- The device has the link. -/
def linkOk : LinkId → Bool
  | .eth p => decide (p < 12)
  | .pcie p => decide (p < 2)
  | .csi p => decide (p < 8)
  | .display o => decide (o < 4)
  | .ufs => true

/-- R156: LINK_RETRAIN: the link goes down and trains again, and the field record counts it. -/
def execLinkRetrain (l : LinkId) (s : State) : Res :=
  unit s (linkOk l) (s.modRec fun r => { r with links := satAdd32 r.links (linkKey l) 1 })

/-! ## Monitors (R15, R155) -/

/-- Number of a clock domain in the event log, in the order of the table of chapter 01. -/
def domainNo : Domain → Nat
  | .aclk => 0
  | .hclk0 => 1
  | .hclk1 => 2
  | .tclk => 3
  | .fclk => 4
  | .mclk => 5
  | .kclk => 6
  | .tsclk => 7
  | .recovered => 8
  | .pixel => 9
  | .standby => 10

/-- R155: SCLK_LOSS_DETECTED. -/
def execSclkLossDetected (s : State) : Res :=
  .next ((s.modPower fun p => { p with sclkLost := true }).safety SYS_SAFESTAT.SCLK_LOST 0 0)

/-- R155: VOLTAGE_FAULT of one of the eight rails, whose extreme lay at `pct` % of nominal; a fall counts as a droop event
(R156). -/
def execVoltageFault (rail pct : Nat) (s : State) : Res :=
  unit s (decide (rail < 8)) ((s.modRec fun r => r.addDroop (rail, pct)).safety SYS_SAFESTAT.VOLT rail pct)

/-- R155: TEMPERATURE_EVENT: above 125 °C sets TEMP_HIGH, above 130 °C TEMP_TRIP too. -/
def execTemperatureEvent (sensor : Nat) (celsius : Int) (s : State) : Res :=
  unit s (decide (sensor < 32))
    (let s1 := if 125 < celsius then s.safety SYS_SAFESTAT.TEMP_HIGH sensor 0 else s
     if 130 < celsius then s1.safety SYS_SAFESTAT.TEMP_TRIP sensor 0 else s1)

end Sys2Proof.Machine
end

