-- ==== Sys2Proof/Machine/VecOps.lean ====
section
/-! DEFINITION. Vector engines (R143, R181, R237 to R245, R253): the dealing of work items, their ends, preemption
and resumption, and the four vendor instructions. -/

namespace Sys2Proof.Machine

/-! ## Engines and the work they may take (R253) -/

/-- The physical vector engines. -/
def vecIds : List Nat := List.range 16
def isVec (e : Nat) : Bool := decide (e < 16)

/-- The engines of a flask. -/
def State.engines (s : State) (f : Nat) : List Nat := vecIds.filter fun e => s.f VEC_STATUS.FLASK e == f

/-- An engine that may take an item. -/
def State.engFree (s : State) (e : Nat) : Bool :=
  s.f VEC_STATUS.STATE e == 0 && (s.vec e).item.isNone && !(s.vec e).testBarDue

/-- Engines that hold items of a job. -/
def State.heldBy (s : State) (j : Nat) : Nat := (vecIds.filter fun e => (s.vec e).item.any fun i => i.job == j).length

/-- Fields of the VECTOR operator record (R243). -/
def vcItems (x : Job) : Nat := bits (x.pw 2) 63 32
def vcEngines (x : Job) : Nat := bits (x.pw 2) 31 24
def vcStoreKb (x : Job) : Nat := bits (x.pw 2) 23 14
def vcCtx (x : Job) : Nat := x.pw 3
def vcItemUs (x : Job) : Nat := bits (x.pw 4) 63 32

/-- R91: a CONV job of the vector path: its items are the output rows (n, oy). -/
def Job.vecConv (x : Job) : Bool := x.opcode == 2 && !isTap x.conv
def convRows (x : Job) : Nat := cvBatch x.conv * cvOutH x.conv

/-- Vertex batches of a RENDER job: 64 vertices each; `tiles` holds its draw records. -/
def rdVertex (x : Job) : Nat := (x.tiles.map fun d => cdiv (bits (wordAt d 2) 63 32) 64).sum

/-- The items of a job that exist so far. -/
def Job.itemsNow (x : Job) : Nat :=
  if x.opcode = 3 then vcItems x else if x.opcode = 2 then convRows x else rdVertex x + x.frags.getD 0

/-- R253: the job has an item or batch that an engine may take. -/
def State.hasWork (s : State) (x : Job) : Bool :=
  decide (x.phase = .running)
    && ((x.opcode == 3 && decide (x.issued < vcItems x) && decide (s.heldBy x.id < vcEngines x))
      || ((x.opcode == 10 || x.vecConv) && decide (x.issued < x.itemsNow)))

/-- The order in which engines take work: the display queue while escalated, batches before items, then PRIO. -/
def State.workBefore (s : State) (x y : Job) : Bool :=
  if s.urgent x != s.urgent y then s.urgent x
  else if (x.opcode == 10) != (y.opcode == 10) then x.opcode == 10
  else if x.prio != y.prio then decide (y.prio < x.prio)
  else decide (x.id ≤ y.id)

/-- The job of a flask whose work is taken next. -/
def State.nextWork (s : State) (f : Nat) : Option Job :=
  (s.work.jobs.filter fun x => s.jobFlask x == f && s.hasWork x).foldl
    (fun acc x => match acc with
      | none => some x
      | some y => if s.workBefore y x then some y else some x) none

/-- The draw of a vertex batch. -/
def rdDraw (x : Job) : Nat → List (List Nat) → List Nat
  | _, [] => []
  | k, d :: ds => let n := cdiv (bits (wordAt d 2) 63 32) 64; if k < n then d else rdDraw x (k - n) ds

/-- R243, R250: where an item starts, and a0 and a1: the entry point, the argument and the index; of a batch the program and
the constants of its draw. Which draw a fragment batch belongs to, and a1 of a batch, are free values (log entry 176). -/
def State.itemStart (s : State) (x : Job) (i : VItem) : (Nat × Nat × Nat) × State :=
  match i.kind with
  | 0 =>
    if s.timed (s.jobFlask x) then
      let t := x.tiles.getD i.item []
      ((tdProg t, tdAct t, i.item), s)
    else ((x.pw 0, x.pw 1, i.item), s)
  | 1 =>
    let d := rdDraw x i.item x.tiles
    let (v, s1) := s.fresh
    ((wordAt d 3, wordAt d 5, v % 2 ^ 64), s1)
  | 2 =>
    let (k, s1) := s.fresh
    let (v, s2) := s1.fresh
    let d := x.tiles.getD (k % max 1 x.tiles.length) []
    ((wordAt d 4, wordAt d 5, v % 2 ^ 64), s2)
  | _ => ((0, 0, 0), s)

/-- An engine starts an item in U-mode; the contents of its vector store are undefined (R244), and so is what else its
registers hold. -/
def State.giveItem (s : State) (e : Nat) (i : VItem) : State :=
  let (p, s1) := match s.job i.job with
    | some x => s.itemStart x i
    | none => ((0, 0, 0), s)
  (s1.modVec e fun v =>
    { v with item := some i, store := [], sig := crc32Init, outs := [], user := decide (i.kind ≠ 3), pc := p.1
             xreg := NMap.set (NMap.set v.xreg 0 10 p.2.1) 0 11 p.2.2 }).setF VEC_STATUS.STATE e 1

/-- A free engine of a flask takes its next item. -/
def State.dealOne (f : Nat) (s : State) (e : Nat) : State :=
  if !s.engFree e then s
  else
    match s.nextWork f with
    | none => s
    | some x =>
      let kind := if x.opcode = 3 then 0 else if x.opcode = 2 then 3 else if x.issued < rdVertex x then 1 else 2
      (s.giveItem e { job := x.id, item := x.issued, startNs := s.now, kind := kind }).modJob x.id
        fun y => { y with issued := y.issued + 1 }

/-- R253: no engine of a shared flask stays idle while work that it may take is queued. -/
def State.deal (s : State) (f : Nat) : State := if s.timed f then s else (s.engines f).foldl (State.dealOne f) s

/-! ## Boundaries and ends -/

/-- R149, R152: the save area of an engine, and the bytes of its vector store that a test bar saves. -/
def State.vecBarArea (s : State) (e : Nat) : Nat := s.tbBase + 0x980000 + e * 0x10000
def vecBarBytes : Nat := 65536

/-- Bytes put into a vector store. -/
def putStoreBytes (m : NMap Byte) (k : Nat) : List Byte → NMap Byte
  | [] => m
  | b :: bs => putStoreBytes (NMap.insert m k b) (k + 1) bs

/-- `n` bytes of the vector store from address `k`; what nothing has written is free (R244). -/
def State.storeBytes (s : State) (v : VecSt) (k n : Nat) : List Byte × State :=
  ((List.range n).map fun i => (NMap.find v.store (k + i)).getD (Config.freeByte (s.freeCtr + i)),
   { s with freeCtr := s.freeCtr + n })

/-- A test bar starts on an idle engine (R152): 64 KB of its vector store are saved first. A save that memory refuses is
left out (log entry 169). -/
def State.startVecBar (s : State) (e : Nat) : State :=
  let (bs, s1) := s.storeBytes (s.vec e) 0 vecBarBytes
  ((physWrite s1 (s.f VEC_STATUS.FLASK e) (s.vecBarArea e) bs).2.modVec e fun v =>
    { v with testBar := true, testBarDue := false }).setF VEC_STATUS.STATE e 4

/-- A test bar of an engine has ended or is stopped: the saved store bytes are restored. -/
def State.vecBarBack (s : State) (e : Nat) : State :=
  let r := physRead s (s.f VEC_STATUS.FLASK e) (s.vecBarArea e) vecBarBytes
  (r.2.modVec e fun v =>
    { v with testBar := false, lastBarNs := s.now
             store := if r.1.good then putStoreBytes v.store 0 r.1.bytes else v.store }).setF VEC_STATUS.STATE e 0

/-- What shakeout clears of a vector engine: registers, vector store and CSRs (R219). -/
def State.shakeVec (s : State) (e : Nat) : State :=
  { (s.modVec e fun v =>
      { v with vreg := [], xreg := [], freg := [], csr := [], pc := 0, user := false, store := [], sew := 32, vl := 64,
               lmul := 1, fmt := 0, outs := [], sig := crc32Init }) with
    mem.holders := s.mem.holders.filter fun h => h.who != .vec e }

/-- An engine is withdrawn: STATE 5h, without a logical number; there are no spare engines. -/
def State.withdrawVec (s : State) (e : Nat) : State :=
  ((((s.shakeVec e).modVec e fun v => { v with withdrawDue := false, item := none }).setF VEC_STATUS.STATE e 5).setF
    VEC_STATUS.LOGICAL e 0xFF).setF VEC_STATUS.FLASK e 0xF

/-- The engine's item leaves it: a withdrawal or a test bar that is due takes its place, else the engine idles. -/
def State.vecBoundary (s : State) (e : Nat) : State :=
  let f := s.f VEC_STATUS.FLASK e
  let s1 := (s.modVec e fun v => { v with item := none }).setF VEC_STATUS.STATE e 0
  if (s1.vec e).withdrawDue && !s1.timed f then s1.withdrawVec e
  else if (s1.vec e).testBarDue then s1.startVecBar e
  else s1

/-- The items of a job leave every engine and the saved contexts (R244). -/
def State.dropItems (s : State) (j : Nat) : State :=
  let s1 := { s with units.saved := s.units.saved.filter fun k => k.it.job != j }
  (vecIds.filter fun e => (s1.vec e).item.any fun i => i.job == j).foldl State.vecBoundary s1

/-- R244: an item faults: the job ends with its status and the item index, and its other items are aborted. -/
def State.failItem (s : State) (j st item : Nat) : State :=
  match s.job j with
  | none => s
  | some x => ((s.endJob j st (some item)).dropItems j).deal (s.jobFlask x)

/-- An execution of a vector tile of a pair ends with a signature, or with a status (R143). -/
def State.vecPairEnd (s : State) (e : Nat) (p : Pair) (sig : Except Nat Nat) : State :=
  match p.phase, sig with
  | .running, .ok v => s.pairEnd true e (some ([], v)) none
  | .running, .error st => s.pairEnd true e none (some (st, 0))
  | .reexec, .ok v => s.reexecEnd true e (some ([], v))
  | .reexec, .error _ => s.reexecEnd true e none
  | _, _ => s

/-- An item on an engine ends in a fault with a status. -/
def State.itemFault (s : State) (e st : Nat) : State :=
  match (s.vec e).item with
  | none => s
  | some i =>
    match s.pairOf true e with
    | some p => s.vecPairEnd e p (.error st)
    | none => s.failItem i.job st i.item

/-! ## VECTOR items -/

/-- R243: VECTOR. -/
def execVector (j : Nat) (s : State) : Res := .next (s.runningJob j 3 fun x => s.deal (s.jobFlask x))

/-- R91: the rows of a CONV job of the vector path are dealt to the engines of a shared flask. -/
def State.dealConv (s : State) (x : Job) (mine : Bool) : State := if mine && x.vecConv then s.deal (s.jobFlask x) else s

/-- R103: CONV_GROUPED. -/
def execConvGrouped (j : Nat) (s : State) : Res := .next (s.runningJob j 2 fun x => s.dealConv x (cvOp x.conv == 0))

/-- R105: MAX_POOL. -/
def execMaxPool (j : Nat) (s : State) : Res := .next (s.runningJob j 2 fun x => s.dealConv x (cvOp x.conv == 1))

/-- R105: AVERAGE_POOL. -/
def execAveragePool (j : Nat) (s : State) : Res :=
  .next (s.runningJob j 2 fun x => s.dealConv x (cvOp x.conv == 2 || cvOp x.conv == 3))

/-- R102: EXPAND. -/
def execExpand (j : Nat) (s : State) : Res := .next (s.runningJob j 2 fun x => s.dealConv x (cvOp x.conv == 4))

/-- R244: an item runs longer than ITEM_US. -/
def timeoutGo (e : Nat) (s : State) : State :=
  match (s.vec e).item with
  | none => s
  | some i =>
    match s.job i.job with
    | none => s
    | some x =>
      if i.kind = 0 && x.opcode == 3 && vcItemUs x != 0 && reached s.now (i.startNs + 1000 * vcItemUs x + 1) then
        s.itemFault e stJobFault
      else s

/-- R244: ITEM_TIMEOUT. -/
def execItemTimeout (e : Nat) (s : State) : Res := unit s (isVec e) (timeoutGo e s)

/-! ## Preemption (R181, R245) -/

/-- PRIO of the work on an engine. -/
def State.engPrio (s : State) (e : Nat) : Option Nat :=
  match (s.vec e).item with
  | some i => (s.job i.job).map Job.prio
  | none => none

/-- R181, first case: a VECTOR job with more PRIO has work, all engines of the flask run lower-PRIO work, and none
runs lower PRIO than `p`. -/
def State.preemptPrio (s : State) (f p : Nat) : Bool :=
  let ps := (s.engines f).map s.engPrio
  (s.work.jobs.any fun y => s.jobFlask y == f && y.opcode == 3 && s.hasWork y
      && ps.all fun q => q.any fun v => decide (v < y.prio))
    && ps.all fun q => q.any fun v => decide (p ≤ v)

/-- R181, R258, second case: escalation level 2 with display-queue work queued. -/
def State.preemptDisplay (s : State) (f : Nat) (x : Job) : Bool :=
  (s.flask f).level == 2 && !s.urgent x
    && s.work.jobs.any fun y => s.jobFlask y == f && s.urgent y && s.hasWork y

/-- R181, third case: the instance quiesces. -/
def State.preemptQuiesce (s : State) (x : Job) : Bool := s.f SYS_INST.STATE x.inst == 2

/-- The bytes of the 32 vector registers. -/
def vregBytes (v : VecSt) : List Byte := (List.range 2048).flatMap fun k => toLE 4 (NMap.get v.vreg 0 k)

/-- The 512 bytes of a saved context after the vector registers: x1 to x31, f0 to f31, and a word of the CSRs: vl, vstart,
SEW in bytes, LMUL, fcsr, VDWFMT and vcsr (DESIGN CHOICE, log entry 76: the manual gives the length and not the places). -/
def scalarBytes (v : VecSt) : List Byte :=
  ((List.range 31).flatMap fun k => toLE 8 (NMap.get v.xreg 0 (k + 1)))
    ++ ((List.range 32).flatMap fun k => toLE 8 (NMap.get v.freg 0 k))
    ++ toLE 2 v.vl ++ toLE 2 (NMap.get v.csr 0 8)
    ++ [BitVec.ofNat 8 (v.sew / 8 + 16 * v.lmul), BitVec.ofNat 8 (NMap.get v.csr 0 3), BitVec.ofNat 8 v.fmt,
        BitVec.ofNat 8 (NMap.get v.csr 0 15)]

/-- Values put into a register file from a number on. -/
def putRegs (m : NMap Nat) (k : Nat) : List Nat → NMap Nat
  | [] => m
  | v :: vs => putRegs (NMap.set m 0 k v) (k + 1) vs

/-- The registers and CSRs of a saved context. -/
def VecSt.restore (v : VecSt) (bs : List Byte) : VecSt :=
  let sc := bs.drop 8192
  let c := sc.drop 504
  { v with
    vreg := putRegs [] 0 ((List.range 2048).map fun k => leAt bs (4 * k) 4)
    xreg := putRegs [] 1 ((List.range 31).map fun k => leAt sc (8 * k) 8)
    freg := putRegs [] 0 ((List.range 32).map fun k => leAt sc (248 + 8 * k) 8)
    vl := leAt c 0 2, sew := 8 * (leAt c 4 1 % 16), lmul := leAt c 4 1 / 16, fmt := leAt c 6 1
    csr := putRegs (putRegs (putRegs [] 3 [leAt c 5 1]) 8 [leAt c 2 2]) 15 [leAt c 7 1]
    store := putStoreBytes [] 0 (bs.drop 8704) }

/-- Bytes of one slot of the save area. -/
def vcSlotBytes (x : Job) : Nat := 8704 + vcStoreKb x * 1024

/-- The lowest slot of a job's save area that no saved item uses. -/
def State.freeSave (s : State) (j n : Nat) : Nat :=
  ((List.range n).find? fun k => !(s.units.saved.any fun v => v.it.job == j && v.slot == k)).getD 0

/-- R245, R251: the context is saved and the engine is free for other work. A VECTOR item has its save area; where the
context of a batch or of CONV rows goes the manual does not say, and the model keeps it whole (DESIGN CHOICE, log entry 77). -/
def State.saveItem (s : State) (e : Nat) (x : Job) (i : VItem) : State :=
  let v := s.vec e
  let kept (s1 : State) (slot : Nat) (ctx : Option VecSt) : State :=
    let k : SavedItem := { it := { i with startNs := s.since i.startNs }, slot := slot, pc := v.pc, ctx := ctx }
    (({ s1 with units.saved := s1.units.saved ++ [k] }).vecBoundary e).deal (s1.jobFlask x)
  if i.kind = 0 then
    let (bs, s1) := s.storeBytes v 0 (vcStoreKb x * 1024)
    let slot := s1.freeSave x.id (vcEngines x)
    match instWrite s1 x.inst (vcCtx x + slot * vcSlotBytes x) (vregBytes v ++ scalarBytes v ++ bs) with
    | (.ok _, s2) => kept s2 slot none
    | (m, s2) => s2.failItem x.id m.status i.item
  else kept s 0 (some v)

/-- The engine is preempted when a case of R181 applies; under a quiesce its context is discarded (R216). -/
def preemptGo (e : Nat) (s : State) : State :=
  match (s.vec e).item with
  | none => s
  | some i =>
    match s.job i.job with
    | none => s
    | some x =>
      let f := s.f VEC_STATUS.FLASK e
      if s.timed f then s
      else if s.preemptQuiesce x then ((s.endJob x.id stAborted none).dropItems x.id).deal f
      else if s.preemptDisplay f x || s.preemptPrio f x.prio then s.saveItem e x i
      else s

/-- R181: VECTOR_PREEMPT. -/
def execVectorPreempt (e : Nat) (s : State) : Res := unit s (isVec e) (preemptGo e s)

/-- R245: a saved item resumes on a free engine of the flask; the rest of the vector store is undefined. -/
def resumeGo (e j item : Nat) (s : State) : State :=
  match s.job j, s.units.saved.find? fun k => k.it.job == j && k.it.item == item with
  | some x, some k =>
    let s2 := { s with units.saved := s.units.saved.filter fun y => !(y.it.job == j && y.it.item == item) }
    let it : VItem := { k.it with startNs := uint 64 ((s.now : Int) - k.it.startNs) }
    if !(s.engFree e && s.f VEC_STATUS.FLASK e == s.jobFlask x && decide (x.phase = .running)) then s
    else
      match k.ctx with
      | some v =>
        (s2.modVec e fun y =>
          { v with item := some it, testBar := y.testBar, testBarDue := y.testBarDue, withdrawDue := y.withdrawDue
                   lastBarNs := y.lastBarNs }).setF VEC_STATUS.STATE e 1
      | none =>
        if !decide (s.heldBy j < vcEngines x) then s
        else
          match instRead s2 x.inst (vcCtx x + k.slot * vcSlotBytes x) (vcSlotBytes x) with
          | (.ok bs, s3) =>
            (s3.modVec e fun v => { v.restore bs with item := some it, user := true, pc := k.pc }).setF VEC_STATUS.STATE e 1
          | (m, s3) => s3.failItem j m.status item
  | _, _ => s

/-- R245: VECTOR_RESUME. -/
def execVectorResume (e j item : Nat) (s : State) : Res := unit s (isVec e) (resumeGo e j item s)

/-! ## Vendor instructions (R239 to R242) -/

/-- Element i of the group that starts at register r. -/
def vkey (r i : Nat) : Nat := (64 * r + i) % 2048
def VecSt.el (v : VecSt) (r i : Nat) : Nat := NMap.get v.vreg 0 (vkey r i)

/-- Elements written into the group that starts at register r, from element i. -/
def VecSt.putEls (v : VecSt) (r i : Nat) : List Nat → VecSt
  | [] => v
  | x :: xs => ({ v with vreg := NMap.set v.vreg 0 (vkey r i) (x % 2 ^ 32) }).putEls r (i + 1) xs

/-- R143: a write-back of the registers of a group folds into the item's signature, each as its number in one byte and its
64 words (DESIGN CHOICE, log entry 176: the manual gives no widths). -/
def VecSt.foldRegs (v : VecSt) (r n : Nat) : VecSt :=
  { v with sig := (List.range n).foldl (fun c k =>
      crc32Fold c (BitVec.ofNat 8 ((r + k) % 32) :: (List.range 64).flatMap fun i => toLE 4 (v.el (r + k) i))) v.sig }

/-- A vendor instruction writes back its result. -/
def VecSt.writeBack (v : VecSt) (r : Nat) (xs : List Nat) : VecSt := (v.putEls r 0 xs).foldRegs r v.lmul

/-! ## The other instructions of a work item (R237, R238, R242) -/

/-- What one instruction writes; x0 takes nothing. VDWFMT is CSR 800h (R242), and the time CSR reads the time counter. -/
def State.vecStep (s : State) (e : Nat) (p : VecStep) : State :=
  s.modVec e fun v =>
    match p with
    | .x r a => if r % 32 = 0 then v else { v with xreg := NMap.set v.xreg 0 (r % 32) (a % 2 ^ 64) }
    | .f r a => { v with freg := NMap.set v.freg 0 (r % 32) (a % 2 ^ 64) }
    | .v r els => (v.putEls (r % 32) 0 (els.take 64)).foldRegs (r % 32) 1
    | .vset sew vl lmul => { v with sew := sew, vl := vl, lmul := lmul }
    | .csr n a =>
      if n = 0x800 then { v with fmt := a % 256 }
      else if n = 3 || n = 8 || n = 15 then { v with csr := NMap.set v.csr 0 n (a % 2 ^ 16) } else v
    | .pc a => { v with pc := a % 2 ^ 64 }
    | .time r => if r % 32 = 0 then v else { v with xreg := NMap.set v.xreg 0 (r % 32) s.clock.ns }

/-- The instructions of the item on an engine up to now. -/
def State.vecSteps (s : State) (e : Nat) (ps : List VecStep) : State :=
  if (s.vec e).item.isNone then s else ps.foldl (fun s p => s.vecStep e p) s

/-- Fields of a vendor instruction. -/
def vdOf (w : BitVec 32) : Nat := bits w.toNat 11 7
def vs1Of (w : BitVec 32) : Nat := bits w.toNat 19 15
def vs2Of (w : BitVec 32) : Nat := bits w.toNat 24 20
def vmOf (w : BitVec 32) : Bool := bit w.toNat 25
def funct6Of (w : BitVec 32) : Nat := bits w.toNat 31 26

/-- An engine executes a vendor instruction of one row; a custom-2 word with another funct3 or funct6 than the
table's, or SEW other than 32, raises an illegal-instruction exception (R239, R244). -/
def State.vendor (s : State) (e : Nat) (w : BitVec 32) (f6 : Nat) (go : VecSt → State) : State :=
  if (s.vec e).item.isNone || bits w.toNat 6 0 != 0x5B then s
  else if bits w.toNat 14 12 != 0 || 3 < funct6Of w then s.itemFault e stJobFault
  else if funct6Of w != f6 then s
  else if (s.vec e).sew != 32 then s.itemFault e stJobFault
  else go (s.vec e)

/-- Bit i of the mask register v0. -/
def VecSt.mask (v : VecSt) (i : Nat) : Bool := bit (v.el 0 (i / 32)) (i % 32)

/-- R240: VEXP.V per element; inactive elements keep their value. -/
def vexpGo (e : Nat) (w : BitVec 32) (s : State) : State :=
  s.vendor e w 0 fun v =>
    if vs1Of w != 0 then s.itemFault e stJobFault
    else s.modVec e fun _ => v.writeBack (vdOf w) ((List.range v.vl).map fun i =>
      if vmOf w || v.mask i then vexp (v.el (vs2Of w) i) else v.el (vdOf w) i)

/-- R240: VEXP_V. -/
def execVexpV (e : Nat) (pre : List VecStep) (w : BitVec 32) (s : State) : Res :=
  unit s (isVec e) (vexpGo e w (s.vecSteps e pre))

/-- A fold state from the elements of a group. -/
def VecSt.fold (v : VecSt) (r : Nat) : FoldSt :=
  { m := v.el r 0, l := v.el r 1, o := (List.range (v.vl - 2)).map fun i => v.el r (i + 2) }

/-- Two register groups overlap. -/
def VecSt.overlap (v : VecSt) (a b : Nat) : Bool := decide (a < b + v.lmul) && decide (b < a + v.lmul)

/-- R241: VLSEM.VV. -/
def vlsemGo (e : Nat) (w : BitVec 32) (s : State) : State :=
  s.vendor e w 1 fun v =>
    if !vmOf w || v.overlap (vdOf w) (vs2Of w) || decide (v.vl < 3) || vs1Of w != 0 then s.itemFault e stJobFault
    else
      let a := foldChunk (v.fold (vdOf w)) (v.fold (vs2Of w))
      s.modVec e fun _ => v.writeBack (vdOf w) (a.m :: a.l :: a.o)

/-- R241: VLSEM_VV. -/
def execVlsemVv (e : Nat) (pre : List VecStep) (w : BitVec 32) (s : State) : Res :=
  unit s (isVec e) (vlsemGo e w (s.vecSteps e pre))

/-- R242: an operand of VDWS in a format: its expansion, or none for a scale byte outside −64 to +63. -/
def dwsOperand (f x : Nat) : Option Nat :=
  let e := if f = 10 then sint 8 (bits x 7 0) else sint 8 (bits x 23 16)
  if e < -64 || 63 < e then none
  else some (expand f (if f = 10 then bits x 31 13 * 8192 else x % 2 ^ fmtBits f) e).1

/-- The products of VDWS, or none when a scale byte ends the item. -/
def VecSt.dws (v : VecSt) (w : BitVec 32) : Option (List Nat) :=
  (List.range v.vl).mapM fun i =>
    match dwsOperand (bits v.fmt 3 0) (v.el (vs2Of w) i), dwsOperand (bits v.fmt 7 4) (v.el (vs1Of w) i) with
    | some a, some b => some (f32prod a b).1
    | _, _ => none

/-- R242: VDWS.VV and VDWS0.VV; `acc` adds the products to vd with one rounding. R239 makes vm = 0 illegal on VDWS; on VDWS0
it leaves inactive elements as they are (DEDUCED, log entry 79). -/
def vdwsGo (e : Nat) (w : BitVec 32) (f6 : Nat) (acc : Bool) (s : State) : State :=
  s.vendor e w f6 fun v =>
    if (acc && !vmOf w) || 10 < bits v.fmt 3 0 || 10 < bits v.fmt 7 4 then s.itemFault e stJobFault
    else
      match v.dws w with
      | none => s.itemFault e stJobFault
      | some ps =>
        s.modVec e fun _ => v.writeBack (vdOf w) (((List.range v.vl).zip ps).map fun p =>
          if acc then f32add (v.el (vdOf w) p.1) p.2 else if vmOf w || v.mask p.1 then p.2 else v.el (vdOf w) p.1)

/-- R242: VDWS_VV. -/
def execVdwsVv (e : Nat) (pre : List VecStep) (w : BitVec 32) (s : State) : Res :=
  unit s (isVec e) (vdwsGo e w 2 true (s.vecSteps e pre))

/-- R242: VDWS0_VV. -/
def execVdws0Vv (e : Nat) (pre : List VecStep) (w : BitVec 32) (s : State) : Res :=
  unit s (isVec e) (vdwsGo e w 3 false (s.vecSteps e pre))

end Sys2Proof.Machine
end

