-- ==== Sys2Proof/Machine/Pixels.lean ====
section
/-! DEFINITION. RENDER jobs (R250 to R253, R259), the ends of work items (R244), camera ingest (R246 to R249) and
the display outputs (R254 to R258). -/

namespace Sys2Proof.Machine

/-! ## Owners (R230, R357) -/

/-- The owner of index `i` of a resource class. -/
def State.owner (s : State) (cls i : Nat) : Nat :=
  bits (s.r .sysAssign (2 * cls + i / 16)) (4 * (i % 16) + 3) (4 * (i % 16))

/-! ## RENDER -/

/-- Fields of the RENDER operator record. -/
def rdDraws (x : Job) : Nat := bits (x.pw 1) 63 48
def rdOutput (x : Job) : Nat := bits (x.pw 1) 47 44
def rdPlane (x : Job) : Nat := bits (x.pw 1) 43 41
def rdTarget (x : Job) : Nat := x.pw 2
def rdWidth (x : Job) : Nat := bits (x.pw 5) 63 48
def rdHeight (x : Job) : Nat := bits (x.pw 5) 47 32
def rdPitch (x : Job) : Nat := bits (x.pw 5) 31 16
def rdDepthFmt (x : Job) : Nat := bits (x.pw 5) 11 10

/-- R250: a draw record that makes the job MALFORMED: a TOPO other than list or strip, or a reserved field. -/
def drawBad (d : List Nat) : Bool :=
  1 < bits (wordAt d 2) 31 30 || bits (wordAt d 2) 2 0 != 0 || wordAt d 6 != 0 || wordAt d 7 != 0

/-- `n` free bytes written at each of a list of addresses of an instance; the first error ends the writes. -/
def writeFree (inst n : Nat) : List Nat → State → MRes × State
  | [], s => (.ok [], s)
  | a :: as, s =>
    let (bs, s1) := s.freshBytes n
    match instWrite s1 inst a bs with
    | (.ok _, s2) => writeFree inst n as s2
    | r => r

/-- R251: the colour and depth that the programs of the draws give; the manual gives them as functions of
programs whose instructions are no commands, so their values are free. -/
def renderTarget (x : Job) (s : State) : MRes × State :=
  let bpp := if bits (x.pw 5) 15 12 = 0 then 4 else 8
  match writeFree x.inst (rdWidth x * bpp)
      ((List.range (rdHeight x)).map fun y => x.pw 4 + y * rdPitch x * 64) s with
  | (.ok _, s1) =>
    let depth := match rdDepthFmt x with
      | 0 => 0
      | 1 => 2
      | _ => 4
    if depth = 0 then (.ok [], s1)
    else writeFree x.inst (rdWidth x * depth)
      ((List.range (rdHeight x)).map fun y => x.pw 6 + y * rdWidth x * depth) s1
  | r => r

/-- R252: the gather writes the level of detail of each level-0 tile as an atomic minimum. -/
def feedbackBytes (inst : Nat) : List Nat → State → MRes × State
  | [], s => (.ok [], s)
  | a :: as, s =>
    match instRead s inst a 1 with
    | (.ok bs, s1) =>
      let (f, s2) := s1.freshBytes 1
      match instWrite s2 inst a [BitVec.ofNat 8 (min (leNat bs) (leNat f))] with
      | (.ok _, s3) => feedbackBytes inst as s3
      | r => r
    | r => r

/-- The feedback of the textures that the draws gather from. -/
def renderFeedback (x : Job) : List Nat → State → MRes × State
  | [], s => (.ok [], s)
  | slot :: rest, s =>
    match instRead s x.inst (x.pw 7 + 64 * slot) 64 with
    | (.ok bs, s1) =>
      let w := leAt bs 8 8
      let th := if bits w 27 24 = 0 then 128 else 64
      let n := cdiv (bits w 63 48) 128 * cdiv (bits w 47 32) th
      match feedbackBytes x.inst ((List.range n).map fun k => leAt bs 24 8 + k) s1 with
      | (.ok _, s2) => renderFeedback x rest s2
      | r => r
    | r => r

/-- Texture slots of the draws, each once. -/
def rdSlots (x : Job) : List Nat :=
  (x.tiles.map fun d => bits (wordAt d 2) 18 11).foldl (fun acc t => if t = 255 then acc else insNat acc t) []

/-- A flask's escalation level returns to 0, and its tiles take their ordinary order (R258). -/
def State.sortTiles (s : State) (f : Nat) (urgent : TileQ → Bool) : State :=
  s.modFlask f fun q =>
    { q with tiles := (q.tiles.map fun t => { t with urgent := urgent t }).foldl (fun acc t => tileInsert t acc) [] }

/-- A level of a flask for an output: ESC shows it, and the display queue's tiles stand first from level 1 on. -/
def State.setLevel (s : State) (f o lv : Nat) : State :=
  let n := s.dispQueue o
  (if f < 8 then (s.setF DSP_OUTSTAT.ESC o lv).modFlask f fun q => { q with level := lv, escOutput := o }
   else s.setF DSP_OUTSTAT.ESC o lv).sortTiles f
    fun t => decide (0 < lv) && (s.job t.job).any fun x => x.queue == n

/-- A RENDER job for an output that has missed its latch and has not posted (R258, R259). -/
def State.lateRender (s : State) (o : Nat) : Bool :=
  s.work.jobs.any fun x => x.opcode == 10 && x.missed && decide (x.phase ≠ .ended) && rdOutput x == o

/-- R254, R259: the finished job posts its plane descriptor, when its flask owns the output. DETAIL of a job that
missed its latch is the number of latches from TARGET to the one that takes the posting. -/
def State.postRender (s : State) (x : Job) : State :=
  let o := rdOutput x
  let late := (s.f DSP_OUTSTAT.VBLANKS o + 1 + 2 ^ 32 - rdTarget x % 2 ^ 32) % 2 ^ 32
  let s1 := s.endJob x.id stOk (if x.missed then some late else none)
  if o = 15 || s.owner 4 o != s.jobFlask x then s1
  else
    let k := 8 * o + rdPlane x
    let s2 := ((s1.setF DSP_FLIP.NEXT_ADDR k (x.pw 3 / 64)).setF DSP_FLIP.PENDING k 1).modDisp o
      fun d => { d with posted := NMap.set d.posted 0 (rdPlane x) (x.inst + 1) }
    if x.missed && !s2.lateRender o then s2.setLevel (s.jobFlask x) o 0 else s2

/-- The job's batches are all done: targets, feedback, posting. With no vertex nothing is drawn. -/
def State.finishRender (s : State) (x : Job) : State :=
  if rdVertex x = 0 then s.postRender x
  else
    match renderTarget x s with
    | (.ok _, s1) =>
      match renderFeedback x (rdSlots x) s1 with
      | (.ok _, s2) => s2.postRender x
      | (r, s2) => s2.endJob x.id r.status none
    | (r, s1) => s1.endJob x.id r.status none

/-- After a batch: when the vertex batches are done the number of fragment batches is known (it depends on what
the programs produce, and is free); when all batches are done the job finishes. -/
def State.renderOn (s : State) (j : Nat) : State :=
  match s.job j with
  | none => s
  | some x =>
    if x.doneParts.length < rdVertex x then s
    else
      let (n, s1) := match x.frags with
        | some n => (n, s)
        | none => if rdVertex x = 0 then (0, s) else s.fresh
      let s2 := s1.modJob j fun y => { y with frags := some n }
      if x.doneParts.length < rdVertex x + n then s2 else s2.finishRender x

/-- R250: the draw records are read once; a bad one ends the job MALFORMED; then the batches are dealt. -/
def State.startRender (s : State) (x : Job) : State :=
  if !x.tiles.isEmpty then s.deal (s.jobFlask x)
  else
    match instRead s x.inst (x.pw 0) (64 * rdDraws x) with
    | (.ok bs, s1) =>
      let ds := (pieces 64 (rdDraws x + 1) bs).map (words64 8)
      if ds.any drawBad then s1.endJob x.id stMalformed (some 0)
      else ((s1.modJob x.id fun y => { y with tiles := ds }).renderOn x.id).deal (s1.jobFlask x)
    | (r, s1) => s1.endJob x.id r.status (some 0)

/-- R250: RENDER. -/
def execRender (j : Nat) (s : State) : Res := .next (s.runningJob j 10 fun x => s.startRender x)

/-! ## The end of an item (R244, R253) -/

/-- An item of a shared flask is done: its engine passes its boundary and the flask's work is dealt. -/
def State.itemDone (s : State) (e : Nat) (i : VItem) : State :=
  match s.job i.job with
  | none => s.vecBoundary e
  | some x =>
    let s1 := s.vecBoundary e
    let s2 := if x.opcode = 10 then (s1.modJob i.job fun y => { y with doneParts := insNat y.doneParts i.item }).renderOn i.job
      else s1.finishPart i.job i.item x.itemsNow
    s2.deal (s2.jobFlask x)

/-- R91, R244: rows of a CONV job are done: what they compute is written, and its first failed access or bad scale byte ends
the job. -/
def State.rowsItem (s : State) (e : Nat) (i : VItem) : State :=
  match s.job i.job with
  | none => s.itemDone e i
  | some x =>
    match convItem x i.item s with
    | (.ok sat, s1) => (s1.whenB sat fun s => s.cflag x.id 4).itemDone e i
    | (.error st, s1) => ((s1.endJob x.id st none).dropItems x.id).deal (s1.jobFlask x)

/-- R244: an item ends by ECALL with a7 = 0, or faults. In a pair its signature decides (R143). -/
def itemEndGo (e : Nat) (how : ItemEnd) (flip : Nat) (dup : Bool) (s : State) : State :=
  match (s.vec e).item with
  | none => s
  | some i =>
    match how, s.pairOf true e with
    | .ecall 0, some p =>
      (s.plantFault p.flask dup).vecPairEnd e p (.ok (Nat.xor (crc32Final (s.vec e).sig) flip))
    | .ecall 0, none => if i.kind = 3 then s.rowsItem e i else s.itemDone e i
    | .xlate va, _ =>
      let inst := ((s.job i.job).map Job.inst).getD 0
      (s.dtuFault inst va false { cause := accessCause false }).itemFault e stXlate
    | _, _ => s.itemFault e stJobFault

/-- R244: ITEM_END. -/
def execItemEnd (e : Nat) (pre : List VecStep) (how : ItemEnd) (flip : Nat) (dup : Bool) (s : State) : Res :=
  unit s (isVec e) (itemEndGo e how flip dup (s.vecSteps e pre))

/-! ## Camera ingest -/

def isCam (c : Nat) : Bool := decide (c < 24)

/-- R246: the data types and the stored bytes of a pixel; none for other types. -/
def camBytes : Nat → Option Nat
  | 0x2A => some 1
  | 0x2B => some 2
  | 0x2C => some 2
  | 0x2D => some 2
  | 0x2E => some 2
  | 0x2F => some 4
  | 0x1E => some 1
  | 0x1F => some 2
  | _ => none

/-- The data type stores a Y plane and a CbCr plane. -/
def camYuv (dt : Nat) : Bool := dt == 0x1E || dt == 0x1F

/-- R247: setting EN reads the buffer table; a refused read leaves the context without buffers. -/
def State.camEnable (s : State) (c : Nat) : State :=
  let inst := s.f DSP_CAMCTX0.INSTANCE c
  let n := s.f DSP_CAMCTX0.BUFS c
  match rtRead (s.f DSP_CAMCTX0.PORT c) s inst (s.f DSP_CAMCTX1.TABLE_ADDR c * 64) (64 + 32 * n) with
  | (.ok bs, s1) =>
    s1.modCam c fun _ =>
      { recordBase := leAt bs 0 8, counterAddr := leAt bs 8 8
        bufs := (List.range n).map fun b =>
          (leAt bs (64 + 32 * b) 8, leAt bs (72 + 32 * b) 8, leAt bs (80 + 32 * b) 8) }
  | (_, s1) => s1.modCam c fun _ => {}

/-- R249: the ingest record is written and the counter word advances. -/
def State.ingestRecord (s : State) (c : Nat) : State :=
  let k := s.cam c
  if !k.recordDue then s
  else
    let inst := s.f DSP_CAMCTX0.INSTANCE c
    let w := k.buf.getD 0xFF * 2 ^ 56 + k.lines % 2 ^ 16 * 2 ^ 32 + k.flags % 2 ^ 16
    let p := s.f DSP_CAMCTX0.PORT c
    let s1 := (rtWrite p s inst (k.recordBase + k.frame % 16 * 32)
      (toLE 8 k.frame ++ toLE 8 k.tSof ++ toLE 8 k.tEof ++ toLE 8 w)).2
    let s2 := match rtRead64 p s1 inst k.counterAddr with
      | (some v, s2) => (rtWrite p s2 inst k.counterAddr (toLE 8 (v + 1))).2
      | (none, s2) => s2
    s2.modCam c fun k => { k with recordDue := false }

/-- R248: a Frame Start takes the buffer after the last one filled, or the frame is dropped. -/
def frameStartGo (c : Nat) (s : State) : State :=
  if !s.fb DSP_CAMCTX0.EN c || (s.cam c).active then s
  else
    let s0 := s.ingestRecord c
    let n := s0.f DSP_CAMSTAT.FRAMES c
    let b := (s0.cam c).next
    let s1 := (s0.incWrap DSP_CAMSTAT.FRAMES c 1).modCam c fun k =>
      { k with active := true, buf := some b, frame := n, lines := 0, flags := 0, tSof := s.now, dead := false }
    if s1.bufLocked c b then s1.dropFrame c else s1

/-- R248: FRAME_START. -/
def execFrameStart (c : Nat) (s : State) : Res := unit s (isCam c) (frameStartGo c s)

/-- The bytes of one plane of a line. -/
def planeBytes (b : Nat) (px : List Nat) : List Byte := px.flatMap fun v => toLE b v

/-- Every second element, from the first. -/
def evens {α : Type} : List α → List α
  | [] => []
  | [x] => [x]
  | x :: _ :: xs => x :: evens xs

/-- The pieces a line writes: (address, bytes). Samples of YUV lines come in the order Cb, Y, Cr, Y. -/
def camLine (dt width line : Nat) (buf : Nat × Nat × Nat) (px : List Nat) : List (Nat × List Byte) :=
  let b := (camBytes dt).getD 1
  let pitch := cdiv (width * b) 256 * 256
  if camYuv dt then
    [(buf.1 + line * pitch, planeBytes b ((evens (px.drop 1)).take width)),
     (buf.2.1 + line * pitch, planeBytes b ((evens px).take width))]
  else [(buf.1 + line * pitch, planeBytes b (px.take width))]

/-- One line of the frame: counted, and written unless the frame is dropped, has been refused, or is full. -/
def State.camStore (s : State) (c : Nat) (px : List Nat) : State :=
  let k := s.cam c
  let line := k.lines
  let s1 := s.modCam c fun k => { k with lines := k.lines + 1 }
  if s.f DSP_CAMCTX0.HEIGHT c ≤ line then s1.modCam c fun k => { k with flags := Nat.lor k.flags 4 }
  else
    match k.buf with
    | none => s1
    | some b =>
      if k.dead then s1
      else
        let ps := camLine (s.f DSP_CAMCTX0.DT c) (s.f DSP_CAMCTX0.WIDTH c) line ((k.bufs[b]?).getD (0, 0, 0)) px
        let r := writeAll (s.f DSP_CAMCTX0.INSTANCE c) ps s1
        let s2 := r.2.rtCharge s1 (s.f DSP_CAMCTX0.PORT c) (ps.map fun p => p.2.length).sum
        match r.1 with
        | .ok _ => s2
        | _ => s2.modCam c fun k => { k with flags := Nat.lor k.flags 0x20, dead := true }

/-- The frame ends: SHORT when lines are missing, the next buffer, and the record is due. A context whose EN was
cleared stops here (R260). -/
def State.camEnd (s : State) (c : Nat) : State :=
  let h := s.f DSP_CAMCTX0.HEIGHT c
  s.modCam c fun k =>
    { k with
      active := false, recordDue := true, stopping := false, tEof := s.now
      flags := if k.lines < h then Nat.lor k.flags 2 else k.flags
      next := match k.buf with
        | some b => (b + 1) % max 1 k.bufs.length
        | none => k.next }

/-- R246, R249: a packet of a context's camera. One of another data type is counted in OTHER_DT, within a frame and
between frames. -/
def packetGo (c : Nat) (p : CamPacket) (s : State) : State :=
  if !(s.cam c).active && !s.fb DSP_CAMCTX0.EN c then s
  else
    let port := s.f DSP_CAMCTX0.PORT c
    let on := (s.cam c).active
    let s1 := if p.hdrCorr then s.incSat DSP_CAMPORT.HDR_CORR port 1 else s
    if p.hdrErr then s1.modCam c fun k => if on then { k with flags := Nat.lor k.flags 0x10 } else k
    else if p.frameEnd then s1.whenB on fun s => s.camEnd c
    else if (camBytes p.dt).isNone || p.dt != s.f DSP_CAMCTX0.DT c then s1.incSat DSP_CAMSTAT.OTHER_DT c 1
    else if !on then s1
    else
      let s2 := if p.crcErr then
          (s1.incSat DSP_CAMPORT.CRC_ERR port 1).modCam c fun k => { k with flags := Nat.lor k.flags 8 }
        else s1
      s2.camStore c p.pixels

/-- R246: CAMERA_PACKET. -/
def execCameraPacket (c : Nat) (p : CamPacket) (s : State) : Res := unit s (isCam c) (packetGo c p s)

/-- R249: INGEST_RECORD. -/
def execIngestRecord (c : Nat) (s : State) : Res := unit s (isCam c) (s.ingestRecord c)

/-! ## Display outputs -/

def isOut (o : Nat) : Bool := decide (o < 4)

/-- A plane descriptor's size on the screen and in the buffer, and its weight in half bytes (R255). -/
def pdFmt (d : List Nat) : Nat := bits (wordAt d 2) 47 44
def pdZ (d : List Nat) : Nat := bits (wordAt d 2) 43 41
def pdEn (d : List Nat) : Bool := bit (wordAt d 2) 40
def pdHalfBytes (d : List Nat) : Nat :=
  let per := match pdFmt d with
    | 2 => 16
    | 3 => 3
    | 4 => 6
    | _ => 8
  if pdEn d then per * bits (wordAt d 4) 31 16 * bits (wordAt d 4) 15 0 else 0

/-- One axis: DST/SRC within 1/2 to 4. -/
def ratioOk (src dst : Nat) : Bool := decide (0 < src) && decide (src ≤ 2 * dst) && decide (dst ≤ 4 * src)

/-- Active width and height of an output, as DSP_LINK_CFG has set them. -/
def State.activeW (s : State) (o : Nat) : Nat := wordAt (s.disp o).link 5
def State.activeH (s : State) (o : Nat) : Nat := wordAt (s.disp o).link 9

/-- R255: a descriptor passes the checks by itself. -/
def State.pdOk (s : State) (o : Nat) (d : List Nat) : Bool :=
  let dst := wordAt d 4
  let src := wordAt d 3
  pdFmt d ≤ 4 && bits (wordAt d 2) 29 0 == 0 && wordAt d 5 == 0 && wordAt d 6 == 0 && wordAt d 7 == 0
    && ratioOk (bits src 31 16) (bits dst 31 16) && ratioOk (bits src 15 0) (bits dst 15 0)
    && bits dst 63 48 + bits dst 31 16 ≤ s.activeW o && bits dst 47 32 + bits dst 15 0 ≤ s.activeH o

/-- R255: the enabled planes stay within 132,710,400 bytes when a plane takes a descriptor. -/
def State.pdFits (s : State) (o p : Nat) (d : List Nat) : Bool :=
  let others := (s.disp o).planes.filter fun k => k.1 != p
  decide (pdHalfBytes d + (others.map fun k => pdHalfBytes k.2).sum ≤ 2 * 132710400)

/-- A read of output o for a master that posted: an instance plus 1, or 0 for the manager. -/
def postedRead (s : State) (o who va n : Nat) : MRes × State :=
  let r := if who = 0 then physRead s 8 va n else instRead s (who - 1) va n
  (r.1, r.2.rtCharge s (rtOutput o) n)

/-- R254, R255: a pending plane fetches its descriptor; one that is not latched is counted. -/
def State.latchPlane (o : Nat) (s : State) (p : Nat) : State :=
  let k := 8 * o + p
  if !s.fb DSP_FLIP.PENDING k then s
  else
    let r := postedRead s o (NMap.get (s.disp o).posted 0 p) (s.f DSP_FLIP.NEXT_ADDR k * 64) 64
    let s1 := r.2.setF DSP_FLIP.PENDING k 0
    let d := words64 8 r.1.bytes
    if r.1.good && s1.pdOk o d && s1.pdFits o p d then
      s1.modDisp o fun x => { x with planes := NMap.set x.planes [] p d }
    else s1.incSat DSP_OUTSTAT.BAD_DESC o 1

/-- R259: a latch passes that a RENDER job was meant for: the miss is counted, and the job runs at level 2. -/
def State.countMisses (s : State) (o : Nat) : State :=
  let v := s.f DSP_OUTSTAT.VBLANKS o
  let late (x : Job) : Bool :=
    x.opcode == 10 && decide (x.phase ≠ .ended) && !x.missed && rdOutput x == o && rdTarget x % 2 ^ 32 == v
  (s.incSat DSP_OUTSTAT.MISSES o (s.work.jobs.filter late).length).modJobs late fun x => { x with missed := true }

/-- R257: a mismatch of the tell-tale plane: counted, flagged and interrupting; TT_LIMIT of them in a row put the
output in safe blank, and in safe blank they end the run of matches. -/
def State.ttMismatch (s : State) (o : Nat) : State :=
  let (v, s1) := ((s.incSat DSP_TTSTAT.TT_MISMATCH o 1).safety SYS_SAFESTAT.DISP_SIG o 0).fresh
  let s2 := (s1.emit (.instIrq (s1.disp o).ownerInst v)).mgrIrq 18 o
  if s2.fb DSP_OUTSTAT.SAFE_BLANK o then s2.setF DSP_TTSTAT.RUN o 0
  else
    let s3 := s2.incSat DSP_TTSTAT.RUN o 1
    if s3.f DSP_TTCFG.TT_LIMIT o ≤ s3.f DSP_TTSTAT.RUN o then s3.modDisp o fun d => { d with blankNext := true }
    else s3

/-- R257: a match of the tell-tale plane. -/
def State.ttMatch (s : State) (o : Nat) : State :=
  if !s.fb DSP_OUTSTAT.SAFE_BLANK o then s.setF DSP_TTSTAT.RUN o 0
  else
    let s1 := s.incSat DSP_TTSTAT.RUN o 1
    if s1.f DSP_TTCFG.TT_LIMIT o ≤ s1.f DSP_TTSTAT.RUN o then s1.modDisp o fun d => { d with unblankNext := true }
    else s1

/-- R257: safe blank is entered or left at a latch. -/
def State.latchBlank (s : State) (o : Nat) : State :=
  let d := s.disp o
  let s1 := if d.blankNext then (s.setF DSP_OUTSTAT.SAFE_BLANK o 1).setF DSP_TTSTAT.RUN o 0
    else if d.unblankNext then (s.setF DSP_OUTSTAT.SAFE_BLANK o 0).setF DSP_TTSTAT.RUN o 0
    else s
  s1.modDisp o fun d => { d with blankNext := false, unblankNext := false }

/-- R256: the tell-tale descriptor is read at every latch; a faulting fetch counts as a mismatch (R257). -/
def State.latchTellTale (s : State) (o : Nat) : State :=
  if !s.fb DSP_TTCFG.EN o then s
  else
    match rtRead (rtOutput o) s (s.disp o).ownerInst (s.f DSP_TTCFG.DESC_ADDR o * 64) 64 with
    | (.ok bs, s1) => s1.modDisp o fun d => { d with tt := some (words64 8 bs) }
    | (_, s1) => (s1.modDisp o fun d => { d with tt := none }).ttMismatch o

/-- Insert a plane in ascending ZPOS; the lower number of equal ones lies beneath (R255). -/
def zInsert (p : Nat × List Nat) : List (Nat × List Nat) → List (Nat × List Nat)
  | [] => [p]
  | q :: qs => if pdZ p.2 < pdZ q.2 || (pdZ p.2 == pdZ q.2 && p.1 < q.1) then p :: q :: qs else q :: zInsert p qs

/-- The planes that an output shows, in composition order. -/
def State.composed (s : State) (o : Nat) : List (List Nat) :=
  (((s.disp o).planes.filter fun p => pdEn p.2).foldl (fun acc p => zInsert p acc) []).map fun p => p.2

/-- R254 to R259: the latch of an output. -/
def latchGo (o : Nat) (s : State) : State :=
  let s1 := (s.incWrap DSP_OUTSTAT.VBLANKS o 1).countMisses o
  let s2 := ((List.range 8).foldl (State.latchPlane o) s1).latchTellTale o
  let s3 := s2.latchBlank o
  let f := s3.owner 4 o
  let s4 := s3.setLevel f o (if s3.fb DSP_OUTCFG.ESC_EN o && s3.lateRender o then 2 else 0)
  s4.emit (if s4.fb DSP_OUTSTAT.SAFE_BLANK o then .black o else .shown o (s4.composed o))

/-- R254: LATCH. -/
def execLatch (o : Nat) (s : State) : Res := unit s (isOut o) (latchGo o s)

/-- R255: SCANOUT_UNDERRUN. -/
def execScanoutUnderrun (o : Nat) (s : State) : Res :=
  unit s (isOut o) ((s.incSat DSP_OUTSTAT.UNDERRUN o 1).emit (.black o))

/-- R257: the CRC of the pixels of the tell-tale rectangle is compared with EXPECT. -/
def ttCompareGo (o : Nat) (px : List Nat) (s : State) : State :=
  match (s.disp o).tt with
  | none => s
  | some d =>
    let n := bits (wordAt d 1) 31 16 * bits (wordAt d 1) 15 0
    if !s.fb DSP_TTCFG.EN o || px.length != n then s
    else
      let c := crc32 (px.flatMap fun v => toLE 4 (v % 2 ^ 30))
      let s1 := s.setF DSP_TTSTAT.LAST_SIG o c
      if c = bits (wordAt d 2) 63 32 then s1.ttMatch o else s1.ttMismatch o

/-- R257: TELL_TALE_COMPARE. -/
def execTellTaleCompare (o : Nat) (px : List Nat) (s : State) : Res := unit s (isOut o) (ttCompareGo o px s)

/-- R258: an escalation level begins, for the flask that owns the output. -/
def escalate (o lv : Nat) (s : State) : State :=
  let f := s.owner 4 o
  if s.fb DSP_OUTCFG.ESC_EN o && f < 8 && (s.flask f).level < lv then s.setLevel f o lv else s

/-- R258: ESCALATION_LEVEL_1. -/
def execEscalationLevel1 (o : Nat) (s : State) : Res := unit s (isOut o) (escalate o 1 s)

/-- R258: ESCALATION_LEVEL_2. -/
def execEscalationLevel2 (o : Nat) (s : State) : Res := unit s (isOut o) (escalate o 2 s)

end Sys2Proof.Machine
end

