-- ==== Sys2Proof/Machine/PourProg.lean ====
section
/-! DEFINITION. The pour-program commands (chapter 03): one meaning per command of the array's program, the
completion of asynchronous commands, the watchdog and the abort. -/

namespace Sys2Proof.Machine

/-- A physical array of the device. -/
def isArray (a : Nat) : Bool := decide (a < 34)

/-- R54: NOP. -/
def execNop (a : Nat) (s : State) : Res :=
  unit s (isArray a) (s.issue a 0x00 [(111, 0)] false fun _ s => s.nextCmd a)

/-- R48, R73, R83: LDW loads the shadow weights. -/
def execLdw (a : Nat) (s : State) : Res :=
  unit s (isArray a) (s.issue a 0x01 [(33, 0)] true fun w s => s.issueLdw a w)

/-- R48: SWAPW waits for every LDW issued before it, then sets the mark; the sets change places with the stream that
takes the mark (log entry 164). -/
def swapwGo (a : Nat) (s : State) : State :=
  if (s.arr a).async.any fun o => o.kind == .ldw then s
  else (s.modArr a fun x => { x with armSwap := true }).nextCmd a

/-- R48: SWAPW. -/
def execSwapw (a : Nat) (s : State) : Res :=
  unit s (isArray a) (s.issue a 0x02 [(111, 0)] false fun _ s => swapwGo a s)

/-- R46: LDA. -/
def execLda (a : Nat) (s : State) : Res :=
  unit s (isArray a) (s.issue a 0x03 [(24, 0)] false fun w s => s.issueLda a w)

/-- R45, R61: SHIFT; `stalled` is the number of ACLK cycles that the array has stood stalled since they were last
counted. -/
def execShift (a stalled : Nat) (s : State) : Res :=
  unit s (isArray a) (s.issue a 0x04 [(95, 0)] false fun w s => (s.countStall a stalled).issueShift a w)

/-- The mode that an ACC gives: MODE 10b accumulates after the first iteration of the innermost LOOP. -/
def accMode (a w : Nat) (s : State) : Bool :=
  match bits w 111 110 with
  | 0 => false
  | 1 => true
  | _ =>
    match s.loopsAround a (s.arr a).pc with
    | [] => false
    | (q, _) :: _ => NMap.get (s.arr a).loops 0 q != 0

/-- R48: ACC. -/
def execAcc (a : Nat) (s : State) : Res :=
  unit s (isArray a) (s.issue a 0x05 [(109, 0)] false fun w s =>
    if bits w 111 110 = 3 then s.illegal a
    else (s.modArr a fun x => { x with armAcc := some (accMode a w s) }).nextCmd a)

/-- R80: DRAIN. -/
def execDrain (a : Nat) (s : State) : Res :=
  unit s (isArray a) (s.issue a 0x06 [(27, 0)] true fun w s => s.issueDrain a w)

/-- R79: POST. -/
def execPost (a : Nat) (s : State) : Res :=
  unit s (isArray a) (s.issue a 0x07 [(63, 0)] false fun w s => s.issuePost a w)

/-- R57: XFER. -/
def execXfer (a : Nat) (s : State) : Res :=
  unit s (isArray a) (s.issue a 0x08 [(17, 0)] true fun w s => s.issueXfer a w)

/-- R53, R67: WAITQ holds until the counter reaches COUNT, then subtracts it; the time it held is not busy
time. -/
def waitqGo (a w : Nat) (s : State) : State :=
  let x := s.arr a
  let k := bits w 111 109
  let c := bits w 108 93
  if c = 0 then s.illegal a
  else if NMap.get x.ev 0 k < c then
    s.modArr a fun x => { x with waitFrom := some (x.waitFrom.getD s.now) }
  else
    (s.modArr a fun x =>
      { x with ev := NMap.set x.ev 0 k (NMap.get x.ev 0 k - c), waitFrom := none
               pauseNs := x.pauseNs + s.since (x.waitFrom.getD s.now) }).nextCmd a

/-- R53: WAITQ. -/
def execWaitq (a : Nat) (s : State) : Res :=
  unit s (isArray a) (s.issue a 0x09 [(92, 0)] false fun w s => waitqGo a w s)

/-- R58: SIG emits the write-back signature with SIG_ID and restarts it. -/
def execSig (a : Nat) (s : State) : Res :=
  unit s (isArray a) (s.issue a 0x0A [(103, 0)] false fun w s =>
    (s.modArr a fun x =>
      { x with sigs := x.sigs ++ [(bits w 111 104, crc32Final x.sigCrc)], sigCrc := crc32Init }).nextCmd a)

/-- Arrays of a flask that wait at a barrier for a job. -/
def State.atBarrier (s : State) (f j b : Nat) : List Nat :=
  arrayIds.filter fun a =>
    ((s.arr a).job.any fun r => r.flask == f && r.job == j)
      && (match (s.arr a).sync with | some p => p.1 == b | none => false)

/-- R56: SYNC holds until PARTIES arrays that run tiles of the job have issued it, then releases them. -/
def syncGo (a w : Nat) (s : State) : State :=
  match (s.arr a).job with
  | none => s
  | some r =>
    let b := bits w 111 108
    let n := bits w 107 100
    if tdRecast r.desc ≠ 0xFF then s.arrFault a (some ARR_STATUS.SYNC_VIOL) stJobFault
    else if n < 2 || s.flaskArrays r.flask < n then s.illegal a
    else
      let here := s.atBarrier r.flask r.job b
      if here.any fun k => (s.arr k).sync != some (b, n) then s.arrFault a none stJobFault
      else
        let s1 := s.modArr a fun x => { x with sync := some (b, n) }
        let all := s1.atBarrier r.flask r.job b
        if all.length < n then s1
        else s1.each all fun s k => (s.modArr k fun x => { x with sync := none }).nextCmd k

/-- R56: SYNC. -/
def execSync (a : Nat) (s : State) : Res :=
  unit s (isArray a) (s.issue a 0x0B [(99, 0)] false fun w s => syncGo a w s)

/-- R55: LOOP repeats its body, then its pass ends; an improper nest or a fifth level is illegal. -/
def loopGo (a w : Nat) (s : State) : State :=
  let x := s.arr a
  let body := bits w 95 84
  match s.nestDepth a 4 x.pc with
  | none => s.illegal a
  | some _ =>
    let it := NMap.get x.loops 0 x.pc
    if it < bits w 111 96 then
      (s.modArr a fun x => { x with loops := NMap.set x.loops 0 x.pc (it + 1) }).goTo a (x.pc - body)
    else (s.modArr a fun x => { x with loops := NMap.set x.loops 0 x.pc 0 }).nextCmd a

/-- R55: LOOP. -/
def execLoop (a : Nat) (s : State) : Res :=
  unit s (isArray a) (s.issue a 0x0C [(19, 0)] false fun w s => loopGo a w s)

/-- R52: FENCE holds until every asynchronous command has completed. -/
def execFence (a : Nat) (s : State) : Res :=
  unit s (isArray a) (s.issue a 0x0D [(111, 0)] false fun _ s =>
    if (s.arr a).async.isEmpty then s.nextCmd a else s)

/-- R58: END holds until every asynchronous command has completed, then the array job ends. -/
def execEndProg (a flip : Nat) (dup : Bool) (s : State) : Res :=
  unit s (isArray a) (s.issue a 0x0E [(111, 0)] false fun _ s =>
    if (s.arr a).async.isEmpty then s.endRun a flip dup else s)

/-- R48: the block of a complete LDW reaches the shadow weights. -/
def loadShadow (o : AsyncOp) (x : ArraySt) : ArraySt :=
  match o.block with
  | some w => { x with shadow := w }
  | none => x

/-- An outstanding command may complete: an XFER once its data has moved or it is suppressed, an LDW once no swap that
was marked before is still to pass the cells (R48). -/
def ArraySt.mayComplete (x : ArraySt) (o : AsyncOp) : Bool :=
  match o.kind with
  | .xfer => o.finished || o.suppressed
  | .ldw => !x.swapOpen
  | .drain => true

/-- R53: an outstanding command completes; an event counter that would pass FFFFh is a job fault. `stalled`
is the number of ACLK cycles the array has stalled since it was last counted (R61). -/
def asyncDone (a k stalled : Nat) (s : State) : State :=
  match (s.arr a).async.find? fun o => o.serial == k with
  | none => s
  | some o =>
    if !(s.arr a).mayComplete o then s
    else
      let s1 := (s.countStall a stalled).modArr a fun x =>
        loadShadow o { x with async := x.async.filter fun o => o.serial != k }
      match o.evt with
      | none => s1
      | some e =>
        let n := NMap.get (s1.arr a).ev 0 e
        if s.f ARR_STATUS.STATE a = 3 then s1
        else if 0xFFFF ≤ n then s1.arrFault a (some ARR_STATUS.EVT_OVF) stJobFault
        else s1.modArr a fun x => { x with ev := NMap.set x.ev 0 e (n + 1) }

/-- R53: ASYNC_COMPLETE. -/
def execAsyncComplete (a k stalled : Nat) (s : State) : Res := unit s (isArray a) (asyncDone a k stalled s)

/-- R62: in a shared flask an array job past EST_NS plus WDOG_NS is aborted as a job fault. -/
def watchdogGo (a : Nat) (s : State) : State :=
  match (s.arr a).job with
  | none => s
  | some r =>
    if !s.timed r.flask && s.issuing a && !r.bar
        && reached s.now (r.startNs + tdEst r.desc + s.f ARR_CTRL.WDOG_NS a + 1) then
      s.arrFault a (some ARR_STATUS.WDOG) stJobFault
    else s

/-- R62: TILE_WATCHDOG. -/
def execTileWatchdog (a : Nat) (s : State) : Res := unit s (isArray a) (watchdogGo a s)

/-- R63: an aborting array is idle once its outstanding XFERs have completed; ABORT clears, and the array
passes its job boundary (R375). An array of a recast pair that is still to be decided keeps its program and holds at its
boundary (R135); one that is to re-execute starts now (R137, R139). -/
def abortDone (a : Nat) (s : State) : State :=
  if s.f ARR_STATUS.STATE a = 3 && (s.arr a).async.all fun o => o.finished then
    let s1 := ((s.chargeRun a).setF ARR_CTRL.ABORT a 0).modArr a fun x => { x with async := [] }
    match s1.pairOf false a with
    | some p =>
      if p.phase = .reexec && p.again = a then s1.rerun false a (decide (a = p.pri))
      else (s1.modArr a fun x => { x with held := true }).setF ARR_STATUS.STATE a 0
    | none =>
      let s2 := if s1.f ARR_STATUS.FLASK a = 15 then s1.shakeArray a else s1
      (s2.modArr a fun x => { x with job := none, slice := none }).passBoundary a
  else s

/-- R63: ABORT_COMPLETE. -/
def execAbortComplete (a : Nat) (s : State) : Res := unit s (isArray a) (abortDone a s)

/-- R64: TILE_DISPATCH. -/
def execTileDispatch (a : Nat) (s : State) : Res := unit s (isArray a) (s.dispatchTile a)

/-- R59: PROGRAM_LOAD. -/
def execProgramLoad (a : Nat) (s : State) : Res := unit s (isArray a) (s.loadProgram a)

end Sys2Proof.Machine
end

