-- ==== Sys2Proof/Machine/Pour.lean ====
section
/-! DEFINITION. The pour table (R164 to R177): its entries, the validation of a bank, frame boundaries with the
binding of jobs, the progress monitor and the retirements, and real-time task comparisons (R146, R147). -/

namespace Sys2Proof.Machine

/-! ## Logical units -/

/-- The real-time cores. -/
def rtIds : List Nat := List.range 8
def isRt (c : Nat) : Bool := decide (c < 8)

/-- The physical unit that holds a logical number of a flask: UNIT_TYPE 0 array, 1 engine, 2 core, 3 runner. -/
def State.unitOf (s : State) (f ty l : Nat) : Option Nat :=
  match ty with
  | 0 => s.arrOf f l
  | 1 => vecIds.find? fun e => s.f VEC_STATUS.FLASK e == f && s.f VEC_STATUS.LOGICAL e == l
  | 2 => rtIds.find? fun c => (s.rt c).flask == some f && (s.rt c).logical == l && !(s.rt c).withdrawn
  | _ => if s.fb SYS_FLRES.RUNNER f && l == 0 then some 0 else none

/-- The logical units of a flask that must have a test-bar entry, by UNIT_TYPE. -/
def State.barUnits (s : State) (f ty : Nat) : List Nat :=
  (List.range 64).filter fun l => (s.unitOf f ty l).isSome
    && !(ty == 2 && s.fb SYS_FLCTRL.STANDBY_EN f && s.f SYS_FLCTRL.STANDBY_RT f == l)

/-! ## Validation (R167) -/

/-- KIND and UNIT_TYPE form a legal pair. -/
def kindOk (kind ty unit : Nat) : Bool :=
  match kind with
  | 0 => ty ≤ 1
  | 1 => ty ≤ 1
  | 2 => ty ≤ 3
  | 3 => ty == 0 && unit == 0
  | 4 => ty == 2
  | 5 => ty == 2
  | 6 => ty == 3
  | _ => false

/-- Reserved bits of word 1, by KIND. -/
def word1Ok (kind w : Nat) : Bool :=
  match kind with
  | 0 => bits w 23 0 == 0
  | 1 => bits w 23 0 == 0
  | 4 => bits w 55 50 == 0 && bits w 49 44 == 0 && bits w 15 0 == 0
  | 5 => bits w 55 50 == 0 && bits w 46 44 == 0 && bits w 15 0 == 0
  | 6 => bits w 49 0 == 0
  | _ => w == 0

/-- The least length of a test-bar entry in µs, by UNIT_TYPE. -/
def barLen : Nat → Nat
  | 0 => 40
  | 1 => 20
  | 2 => 20
  | _ => 150

/-- Two spans overlap when taken modulo the frame. -/
def overlapMod (p a la b lb : Nat) : Bool :=
  overlaps a la b lb || overlaps (a + p) la b lb || overlaps a la (b + p) lb

/-- Two entries overlap and are of one unit, or either is a recovery entry of the same flask. -/
def Ent.clash (p : Nat) (x y : Ent) : Bool :=
  x.flask == y.flask && (x.kind == 3 || y.kind == 3 || (x.ty == y.ty && x.unit == y.unit))
    && overlapMod p x.start x.len y.start y.len

/-- A valid entry of a bank breaks a rule about entries. -/
def State.entryBad (s : State) (p : Nat) (all : List Nat) (i : Nat) : Bool :=
  let x := s.ent i
  let kind := x.kind
  let ty := x.ty
  let f := x.flask
  bits x.w0 10 0 != 0 || !word1Ok kind x.w1 || !kindOk kind ty x.unit
  || !s.timed f || s.f SYS_FLCTRL.STATE f != 3
  || (kind != 3 && ((s.unitOf f ty x.unit).isNone
        || (ty == 2 && s.fb SYS_FLCTRL.STANDBY_EN f && s.f SYS_FLCTRL.STANDBY_RT f == x.unit)))
  || p ≤ x.start || p < x.len || x.len == 0
  || (ty ≤ 1 && kind != 3 && p < x.start + x.len)
  || (kind == 2 && x.len < barLen ty)
  || (kind == 5 && (x.partner == x.unit || (s.unitOf f 2 x.partner).isNone))
  || all.any fun k => k != i && x.clash p (s.ent k)

/-- A timed flask breaks a rule about the whole flask. -/
def State.flaskRuleBad (s : State) (all : List Nat) (f : Nat) : Bool :=
  let mine := (all.map s.ent).filter fun x => x.flask == f
  let bars (ty l : Nat) : Nat := (mine.filter fun x => x.kind == 2 && x.ty == ty && x.unit == l).length
  decide (((mine.filter fun x => x.kind == 3).map Ent.len).sum < 20)
    || (List.range 4).any fun ty => (s.barUnits f ty).any fun l => bars ty l != 1

/-- R167: the result of a validation: the lowest failing entry, 1FFFh for a rule about a whole flask, or none. -/
def State.bankError (s : State) : Option Nat :=
  let bank := 1 - s.bank
  let p := s.f POUR_CTRL.SHADOW_FRAME_US 0
  let all := s.validEntries bank
  match all.find? fun i => s.entryBad p all i with
  | some i => some (i % 4096)
  | none =>
    if decide (p < 1000) || decide (1000000 < p)
        || (List.range 8).any (fun f => all.any (fun i => (s.ent i).flask == f) && s.flaskRuleBad all f) then some 0x1FFF
    else none

/-- R165: validation of the shadow bank ends. -/
def swapValidatedGo (s : State) : State :=
  if !s.fb POUR_CTRL.SWAP 0 || s.units.pour.validated then s
  else
    match s.bankError with
    | none => s.modPour fun p => { p with validated := true }
    | some e =>
      ((s.setF POUR_CTRL.SWAP 0 0).setF POUR_CTRL.SWAP_REFUSED 0 1).setF POUR_CTRL.BAD_ENTRY 0 e

/-- R167: SWAP_VALIDATED. -/
def execSwapValidated (s : State) : Res := .next (swapValidatedGo s)

/-! ## Bound jobs (R169) -/

/-- The job bound to a frame at a position of its queue. -/
def State.boundJob (s : State) (frame q pos : Nat) : Option Job :=
  s.work.jobs.find? fun x => x.queue == q && x.bound == some (frame, pos)

/-- An entry of a frame that names a queue runs or has still to start. -/
def State.queueOpen (s : State) (frame q : Nat) : Bool :=
  let p := s.units.pour
  let names (e : Ent) : Bool := e.namesQueue && e.queue == q
  p.running.any (fun r => r.frame == frame && names r.ent)
    || p.carried.any (fun c => c.frame == frame && names c.ent)
    || (frame == s.f POUR_STAT.FRAME 0 && (s.validEntries s.bank).any fun i => !p.started.contains i && names (s.ent i))

/-- R169: bound jobs of a frame that no entry can still serve end JOB_LOST, with the lowest tile not run; a pair that has
still to decide keeps its job. -/
def State.loseBound (s : State) : State :=
  s.each (s.work.jobs.filter fun x => decide (x.phase ≠ .ended)
      && x.bound.any fun b => !s.queueOpen b.1 x.queue && !(s.units.pairs.any fun p => p.job == x.id))
    fun s x => s.endJob x.id stJobLost (some x.lowestOpen)

/-- R142: a pair on which the comparator copies disagreed is given up at the frame boundary: its tile is not released and
ends its job, its units pass their boundaries, and the isolation that it kept open ends (DESIGN CHOICE, log entry 143). -/
def State.dropSplit (s : State) (p : Pair) : State :=
  let s1 := (s.dropPair p.vec p.pri).endJob p.job stJobLost (some p.tile)
  ((s1.passUnit p.vec p.pri).passUnit p.vec p.rc).modFlask p.flask fun x =>
    { x with isolating := s1.units.pairs.any (fun q => q.flask == p.flask && decide (q.phase ≠ .running)), isoEndNs := s.now }

/-- Every pair that a disagreement holds is given up. -/
def State.loseSplit (s : State) : State := (s.units.pairs.filter Pair.split).foldl State.dropSplit s

/-- Number the jobs of a queue from a position on. -/
def bindList (frame : Nat) : Nat → List Nat → State → State
  | _, [], s => s
  | pos, j :: js, s => bindList frame (pos + 1) js (s.modJob j fun x => { x with bound := some (frame, pos) })

/-- Jobs of a queue that a boundary may bind, in ring order. -/
def State.bindable (s : State) (q : Nat) : List Job :=
  (s.queueJobs q).filter fun x => decide (x.phase = .waiting) && isBound x.opcode && x.bound.isNone

/-- The queues of timed flasks that hold jobs. -/
def State.timedQueues (s : State) : List Nat :=
  (s.work.jobs.map Job.queue).foldl (fun acc q =>
    if s.timedQueue q && 0 < s.f POUR_QJPF.JPF q then insNat acc q else acc) []

/-- R169: overdue jobs expire, and up to JPF jobs of each timed queue are bound to the new frame. -/
def State.bindFrame (s : State) (frame : Nat) : State :=
  s.each s.timedQueues fun s q =>
    let s1 := s.each ((s.bindable q).filter s.expired) fun s x => s.endJob x.id stExpired none
    bindList frame 0 (((s1.bindable q).take (s.f POUR_QJPF.JPF q)).map Job.id) s1

/-! ## The progress monitor (R67) -/

/-- The monitor at a boundary: a counted frame gives RATIO and extends or ends the run of low frames; the third
one sets DEGRADED, and the array is withdrawn at the boundary after. -/
def State.monitorFrame (s : State) (a : Nat) : State :=
  let x := s.arr a
  if x.busySum = 0 then s
  else
    let low := decide (10 * x.estSum < 9 * x.busySum)
    let s1 := (s.setF ARR_RATE.RATIO a (min (x.estSum * 4096 / x.busySum) 0xFFFF)).modArr a
      fun x => { x with estSum := 0, busySum := 0 }
    if !low then s1.setF ARR_RATE.LOW_FRAMES a 0
    else
      let s2 := s1.incSat ARR_RATE.LOW_FRAMES a 1
      if 3 ≤ s2.f ARR_RATE.LOW_FRAMES a && !s2.fb ARR_STATUS.DEGRADED a then
        ((s2.setF ARR_STATUS.DEGRADED a 1).modRec fun r => { r with arrays := satAdd32 r.arrays (8 * a + 4) 1 }).modArr a
          fun x => { x with withdrawDue := some 3 }
      else s2

/-- R67: an array that is due leaves, when a spare is free; otherwise it stays and the Cupola is notified. -/
def State.withdrawSlow (s : State) (a : Nat) : State :=
  let s1 := s.modArr a fun x => { x with withdrawDue := none }
  match s1.freeSpare with
  | some _ => s1.replaceArray a 5 3 true
  | none =>
    let (c, s2) := s1.fresh
    s2.emit (.cupolaIrq c)

/-! ## Real-time cores (R147, R176) -/

/-- The standby core of a flask that has not yet taken over a logical number. -/
def State.standby (s : State) (f : Nat) : Option Nat :=
  if s.fb SYS_FLCTRL.STANDBY_EN f then
    rtIds.find? fun c => (s.rt c).flask == some f && !(s.rt c).withdrawn && (s.rt c).logical == s.f SYS_FLCTRL.STANDBY_RT f
  else none

/-- R176, R147: a withdrawn core's logical number passes to the standby core, or SPARE_OUT is set. The settings of the
flask stay as the manager wrote them (R162). -/
def State.withdrawRt (s : State) (c : Nat) : State :=
  let f := ((s.rt c).flask).getD 0
  let l := (s.rt c).logical
  let s1 := (s.modRt c fun x =>
    { x with withdrawn := true, withdrawDue := false, task := none, started := false, flask := none, logical := 0 }).modRec
    fun r => { r with rts := satAdd32 r.rts (4 * c + 2) 1 }
  if (s.rt c).flask.isNone then s1
  else
    match s1.standby f with
    | some k => s1.modRt k fun x => { x with logical := l }
    | none => s1.safety SYS_SAFESTAT.SPARE_OUT c 2

/-! ## Frame boundaries (R164, R165) -/

/-- R164: the latest boundary at or before now, by the signed difference. -/
def State.boundaryNs (s : State) : Nat :=
  let d := sint 64 ((s.now + 2 ^ 64 - s.f POUR_T0.T0 0) % 2 ^ 64)
  uint 64 ((s.now : Int) - d % ((s.frameUs * 1000 : Nat) : Int))

/-- A boundary that the model has not yet passed has been reached. -/
def State.atBoundary (s : State) : Bool := s.frameUs != 0 && s.boundaryNs != s.units.pour.frameNs

/-- FRAME advances; entries that lag or an isolation keeps from starting within their frame are carried on with the words
that they have in it (R171). -/
def State.newFrame (s : State) (ns : Nat) : State :=
  let fr := s.f POUR_STAT.FRAME 0
  let p := s.units.pour
  let start (i : Nat) : Nat := p.frameNs + 1000 * (s.ent i).start
  let left := (s.validEntries s.bank).filter fun i => !p.started.contains i
    && ((s.flask (s.ent i).flask).isolating
        || !reached ns (start i + 1000 * s.f POUR_FLAG.LAG (s.ent i).flask + 2001))
  (s.modPour fun p =>
    { p with
      carried := p.carried ++ left.map fun i => { idx := i, ent := s.ent i, frame := fr, startNs := start i }
      started := [], frameNs := ns
      lateSeen := p.lateSeen.filter fun y => p.carried.any (fun c => c.idx == y.1 && c.frame == y.2)
        || (y.2 == fr && left.contains y.1) }).incWrap POUR_STAT.FRAME 0 1

/-- R165: a validated shadow bank becomes active. -/
def State.exchangeBanks (s : State) : State :=
  if !s.units.pour.validated then s
  else
    (((s.setF POUR_CTRL.ACTIVE_BANK 0 (1 - s.bank)).setF POUR_CTRL.FRAME_US 0 (s.f POUR_CTRL.SHADOW_FRAME_US 0)).setF
      POUR_CTRL.SWAP 0 0).modPour fun p => { p with validated := false }

/-- The retirements of R141, then the withdrawals of R67, of arrays of timed flasks that run no tile. -/
def State.boundaryArrays (s : State) : State :=
  let free (s : State) (a : Nat) : Bool := (s.arr a).job.isNone && s.timed (s.f ARR_STATUS.FLASK a) && s.f ARR_STATUS.FLASK a < 8
  let s1 := s.each (arrayIds.filter fun a => free s a && (s.arr a).retireDue.isSome) fun s a =>
    let cause := ((s.arr a).retireDue).getD 1
    (s.modArr a fun x => { x with retireDue := none }).replaceArray a 6 cause true
  let s2 := s1.each (arrayIds.filter fun a => free s1 a && (s1.arr a).withdrawDue.isSome) State.withdrawSlow
  s2.each (arrayIds.filter fun a => s2.timed (s2.f ARR_STATUS.FLASK a)) State.monitorFrame

/-- Engines and cores of timed flasks that failed a test bar are withdrawn (R147, R152); an engine has no spare (R141, R143). -/
def State.boundaryOthers (s : State) : State :=
  let s1 := s.each (vecIds.filter fun e => (s.vec e).withdrawDue && s.timed (s.f VEC_STATUS.FLASK e)) fun s e =>
    (s.withdrawVec e).safety SYS_SAFESTAT.SPARE_OUT (34 + e) 2
  let s2 := s1.each (rtIds.filter fun c => (s1.rt c).withdrawDue) State.withdrawRt
  if s2.units.runnerDue then { s2 with units.runnerDue := false, units.runnerOut := true } else s2

/-- R164: the work of a frame boundary. -/
def frameBoundaryGo (s : State) : State :=
  if !s.atBoundary then s
  else
    let ns := s.boundaryNs
    let on := s.fb POUR_CTRL.EN 0
    let s1 := if on then s.newFrame ns else s.modPour fun p => { p with frameNs := ns }
    let s2 := s1.exchangeBanks.loseSplit.loseBound
    let s3 := if on then s2.bindFrame (s2.f POUR_STAT.FRAME 0) else s2
    s3.boundaryArrays.boundaryOthers

/-- R164: FRAME_BOUNDARY. -/
def execFrameBoundary (s : State) : Res := .next (frameBoundaryGo s)

/-- R68: the copy of the resident image into a spare is complete. -/
def spareCopyGo (a : Nat) (s : State) : State :=
  if s.mem.moves.any fun m => m.kind == .spareImage a then s else s.modArr a fun x => { x with copying := false }

/-- R68: SPARE_COPY_DONE. -/
def execSpareCopyDone (a : Nat) (s : State) : Res := unit s (isArray a) (spareCopyGo a s)

end Sys2Proof.Machine
end

