-- ==== Sys2Proof/Machine/PourRun.lean ====
section
/-! DEFINITION. Pour-table entries as they start and end (R168 to R176), overruns and isolations (R137 to R140,
R171), real-time tasks (R144 to R147) and test bars (R148 to R152). -/

namespace Sys2Proof.Machine

/-! ## Starting an entry -/

/-- R174: when the monitor calls the entry due: START + L, or the end of the isolation that held it. -/
def State.monitorNs (s : State) (d : Due) : Nat :=
  let f := d.ent.flask
  if (s.flask f).held.contains d.idx then later (s.dueNs d) (s.flask f).isoEndNs else s.dueNs d

/-- R174: POUR_LATE is set and LATE counts, once for an entry of a frame. -/
def State.countLate (s : State) (d : Due) : State :=
  if s.units.pour.lateSeen.contains (d.idx, d.frame) then s
  else
    ((s.incSat POUR_STAT.LATE 0 1).safety SYS_SAFESTAT.POUR_LATE (d.idx % 4096) 0).modPour
      fun p => { p with lateSeen := (d.idx, d.frame) :: p.lateSeen }

/-- The entry counts as started, and runs until its end. -/
def State.noteStart (s : State) (d : Due) (empty : Bool) (absorbed : Nat) : State :=
  let r : Running := { entry := d.idx, ent := d.ent, frame := d.frame, dueNs := s.dueNs d, empty := empty,
                       absorbed := absorbed }
  (s.modPour fun p =>
    { p with
      running := p.running ++ [r]
      carried := p.carried.filter fun c => !(c.idx == d.idx && c.frame == d.frame)
      started := if d.frame = s.f POUR_STAT.FRAME 0 then d.idx :: p.started else p.started }).modFlask
    d.ent.flask fun x => { x with held := delNat x.held d.idx }

/-- R170: the entry is empty. -/
def State.emptyEntry (s : State) (d : Due) : State := (s.noteStart d true 0).incSat POUR_STAT.EMPTY 0 1

/-! ## Pairs (R131, R170) -/

/-- The job and tile that a tile entry names, when the job is bound and the tile exists and names the unit. -/
def State.entryTile (s : State) (d : Due) : Option (Job × List Nat) :=
  match s.boundJob d.frame d.ent.queue d.ent.job with
  | none => none
  | some x =>
    match x.tiles[d.ent.tile]? with
    | none => none
    | some t => if (if d.ent.kind = 0 then tdArray t else tdRecast t) = d.ent.unit then some (x, t) else none

/-- An entry is the other one of a pair: the other KIND, the same tile, on the unit that the tile names. -/
def Ent.partnerOf (e x : Ent) (t : List Nat) : Bool :=
  let other := 1 - e.kind
  x.kind == other && x.flask == e.flask && x.ty == e.ty && x.queue == e.queue && x.job == e.job && x.tile == e.tile
    && x.unit == (if other = 0 then tdArray t else tdRecast t)

/-- The other entry of the pair, still to start: of the frame's bank, or carried with the frame. -/
def State.partnerEntry (s : State) (d : Due) (t : List Nat) : Option Ent :=
  if d.frame = s.f POUR_STAT.FRAME 0 then
    ((s.validEntries s.bank).find? fun i => !s.units.pour.started.contains i && d.ent.partnerOf (s.ent i) t).map s.ent
  else (s.units.pour.carried.find? fun c => c.frame == d.frame && d.ent.partnerOf c.ent t).map Due.ent

/-- A unit can start an execution now. -/
def State.unitIdle (s : State) (vec : Bool) (u : Nat) : Bool :=
  if vec then s.f VEC_STATUS.STATE u == 0 && (s.vec u).item.isNone
  else s.f ARR_STATUS.STATE u == 0 && (s.arr u).job.isNone && (s.arr u).nextJob.isNone && !(s.arr u).copying

/-- A unit starts its execution of a tile: an array loads its program and takes it, an engine takes the item. -/
def State.startExec (s : State) (vec : Bool) (u : Nat) (x : Job) (tile : Nat) (t : List Nat) (rc : Bool) : State :=
  if vec then s.giveItem u { job := x.id, item := tile, startNs := s.now }
  else
    let rj : RunJob := { job := x.id, tile := tile, desc := t, role := if rc then .recast else .primary,
                         startNs := s.now, flask := s.jobFlask x, inst := x.inst }
    (s.modArr u fun y => { y with nextJob := some rj }).loadProgram u

/-- The scheduled end of an entry: START + L + LEN. -/
def State.endNs (s : State) (d : Due) : Nat := s.dueNs d + 1000 * d.ent.len

/-- A tile entry starts: the first of a pair decides (R170), the second joins the pair. The release point of R135, the
scheduled end of the later execution plus 0.2 µs, is known once both have started; until then it stands at what the lag
gives now. -/
def State.startTile (s : State) (d : Due) : State :=
  let e := d.ent
  let vec := e.ty == 1
  let rc := e.kind == 1
  match s.unitOf e.flask e.ty e.unit, s.entryTile d with
  | some u, some (x, t) =>
    let mine (p : Pair) : Bool := p.vec == vec && p.job == x.id && p.tile == e.tile && (if rc then p.rc else p.pri) == u
    match s.units.pairs.find? mine with
    | some _ =>
      if !s.unitIdle vec u then s
      else
        ((s.noteStart d false 0).modPair vec u fun p =>
          { p with laterStart := s.now, releaseNs := later p.firstEnd (s.endNs d) + 200 }).startExec vec u x e.tile t rc
    | none =>
      match s.partnerEntry d t with
      | none => s.emptyEntry d
      | some o =>
        match s.unitOf e.flask o.ty o.unit with
        | none => s.emptyEntry d
        | some v =>
          if x.stop || x.doneParts.contains e.tile then s.emptyEntry d
          else if !s.unitIdle vec u then s
          else
            let s1 := s.startJob x.id
            if (s1.job x.id).any fun y => decide (y.phase = .running) then
              let p : Pair := { flask := e.flask, vec := vec, job := x.id, tile := e.tile, pri := if rc then v else u,
                                rc := if rc then u else v, laterStart := s.now, firstEnd := s.endNs d,
                                releaseNs := later (s.endNs d)
                                  (d.startNs - 1000 * e.start + 1000 * (o.start + s.f POUR_FLAG.LAG e.flask + o.len)) + 200 }
              ({ s1.noteStart d false 0 with units.pairs := s1.units.pairs ++ [p] }).startExec vec u x e.tile t rc
            else s1.emptyEntry d
  | _, _ => s.emptyEntry d

/-! ## Recovery entries (R172) -/

/-- R147: an extra test bar starts on its unit, unless test bars have been stopped (R149). -/
def State.extraBar (s : State) (u : TBUnit) : State :=
  if s.units.tbStopped then s
  else
    match u with
    | .rt c => s.modRt c fun x => { x with testBar := true }
    | .vec e => s.startVecBar e
    | .array n => s.startBar n
    | .runner => s.setF RUN_STAT.STATE 0 6

/-- A recovery entry absorbs lag; when it absorbs all of it, the extra test bars of R147 run. -/
def State.startRecovery (s : State) (d : Due) : State :=
  let f := d.ent.flask
  let l := s.f POUR_FLAG.LAG f
  let a := min l d.ent.len
  let s1 := (s.noteStart d false a).setF POUR_FLAG.LAG f (l - a)
  if d.ent.len < l then
    s1.modPour fun p => { p with running := p.running.filter fun r => !(r.entry == d.idx && r.frame == d.frame) }
  else ((s1.flask f).extraBars.foldl State.extraBar s1).modFlask f fun x => { x with extraBars := [] }

/-! ## Real-time tasks (R144, R145, R175) -/

/-- The windows of an input-log record: address, length and offset. -/
def logWindows (bs : List Byte) : List (Nat × Nat × Nat) :=
  ((List.range 8).map fun k => (leAt bs (16 * k) 8, leAt bs (16 * k + 8) 4, leAt bs (16 * k + 12) 4)).filter
    fun w => w.2.1 != 0

/-- R145: the ladle copies of an input log are queued. -/
def State.copyLog (s : State) (f inst c : Nat) (ws : List (Nat × Nat × Nat)) : State :=
  s.each ws fun s w =>
    s.addMove { id := 0, kind := .inputLog c, part := f, inst := inst, toMem := false, va := w.1, maddr := w.2.2,
                len := w.2.1 }

/-- The executive of a core starts its task. -/
def State.startTask (s : State) (c : Nat) : State := s.modRt c fun x => { x with started := true }

/-- A KIND 4h entry: the input log is captured, and the task starts once it is copied. -/
def State.startFirst (s : State) (d : Due) (c : Nat) : State :=
  let e := d.ent
  let f := e.flask
  let first : FirstRun := { task := e.task, logTime := s.clock.ns }
  let s1 := (s.noteStart d false 0).modRt c fun x =>
    { x with task := some (e.task, e.inst, e.log, 4, s.now), started := false
             firsts := first :: x.firsts.filter fun r => r.task != e.task }
  if e.log = 0xFFF then s1.startTask c
  else
    match physRead s1 f (s.f POUR_FLOG.LOG_BASE f * 4096 + 128 * e.log) 128 with
    | (.ok bs, s2) =>
      let ws := logWindows bs
      if 262144 < (ws.map fun w => w.2.1).sum then s2.rtFail f [c]
      else if ws.isEmpty then s2.startTask c
      else s2.copyLog f e.inst c ws
    | (_, s2) => s2.rtFail f [c]

/-- R175: a KIND 5h entry pairs with the most recent KIND 4h entry of its TASK on PARTNER, and maps the same log. -/
def State.startSecond (s : State) (d : Due) (c : Nat) : State :=
  let e := d.ent
  let s1 := s.noteStart d false 0
  match s.unitOf e.flask 2 e.partner with
  | none => s1.rtFail e.flask [c]
  | some p =>
    if (s1.rt p).firsts.any fun r => r.task == e.task then
      (s1.modRt c fun x => { x with task := some (e.task, e.inst, p, 5, s.now) }).startTask c
    else s1.rtFail e.flask [c]

/-- A test-bar entry starts its unit's test bar, unless test bars have been stopped (R149). -/
def State.startBarEntry (s : State) (d : Due) : State :=
  let s1 := s.noteStart d false 0
  if s.units.tbStopped then s1
  else
    match s.unitOf d.ent.flask d.ent.ty d.ent.unit, d.ent.ty with
    | some u, 0 => if s.unitIdle false u then s1.startBar u else s
    | some u, 1 => if s.unitIdle true u then s1.startVecBar u else s
    | some u, 2 => s1.modRt u fun x => { x with testBar := true }
    | _, 3 => s1.setF RUN_STAT.STATE 0 6
    | _, _ => s1

/-- An entry of a KIND starts. -/
def State.startKind (s : State) (d : Due) : State :=
  match d.ent.kind with
  | 0 => s.startTile d
  | 1 => s.startTile d
  | 2 => s.startBarEntry d
  | 3 => s.startRecovery d
  | 4 =>
    match s.unitOf d.ent.flask 2 d.ent.unit with
    | some c => s.startFirst d c
    | none => s.emptyEntry d
  | 5 =>
    match s.unitOf d.ent.flask 2 d.ent.unit with
    | some c => s.startSecond d c
    | none => s.emptyEntry d
  | _ => s.noteStart d false 0

/-- R170: an entry that is due starts, unless an isolation of its flask holds it. -/
def entryStartGo (e : Nat) (s : State) : State :=
  match s.nextDue e with
  | none => s
  | some d =>
    let f := d.ent.flask
    if !s.fb POUR_CTRL.EN 0 || !reached s.now (s.dueNs d) then s
    else if (s.flask f).isolating then s.modFlask f fun x => { x with held := insNat x.held d.idx }
    else
      let s1 := if reached s.now (s.monitorNs d + 2001) then s.countLate d else s
      s1.startKind d

/-- R170: POUR_ENTRY_START. -/
def execPourEntryStart (e : Nat) (s : State) : Res := unit s (decide (e < 4096)) (entryStartGo e s)

/-- R174: the monitor finds an entry that has not started 2 µs after it is due. -/
def pourLateGo (e : Nat) (s : State) : State :=
  match s.nextDue e with
  | none => s
  | some d =>
    if s.fb POUR_CTRL.EN 0 && !(s.flask d.ent.flask).isolating && reached s.now (s.monitorNs d + 2000) then s.countLate d
    else s

/-- R174: POUR_LATE. -/
def execPourLate (e : Nat) (s : State) : Res := unit s (decide (e < 4096)) (pourLateGo e s)

/-! ## Overruns and isolation deadlines (R137, R139) -/

/-- A unit of a pair by number: arrays are 0 to 33, vector engines 34 to 49. -/
def pairUnit (a : Nat) : Bool × Nat := if a < 34 then (false, a) else (true, a - 34)
def isPairUnit (a : Nat) : Bool := decide (a < 50)

/-- When a unit's execution started; none when it runs none. -/
def State.execStart (s : State) (vec : Bool) (u : Nat) : Option Nat :=
  if vec then (s.vec u).item.map fun i => i.startNs
  else if s.f ARR_STATUS.STATE u = 3 then none else (s.arr u).job.map fun r => r.startNs

/-- A unit's execution is aborted (R63). -/
def State.abortUnit (s : State) (vec : Bool) (u : Nat) : State :=
  if vec then (s.modVec u fun v => { v with item := none }).setF VEC_STATUS.STATE u 0
  else (s.chargeRun u).abortArr u

/-- The execution of unit u in a pair has not ended. -/
def Pair.openFor (p : Pair) (u : Nat) : Bool :=
  if p.pri = u then p.priEnd.isNone && !bit p.overran 0 else p.rcEnd.isNone && !bit p.overran 1

/-- R139: the execution overruns: it is aborted, and the pair decides once the other one has ended. -/
def State.overrunUnit (s : State) (vec : Bool) (u : Nat) (p : Pair) : State :=
  let b := if p.pri = u then 1 else 2
  let s1 := (s.abortUnit vec u).modPair vec u fun q => { q with overran := Nat.lor q.overran b }
  match s1.pairOf vec u with
  | some q => if q.bothEnded then s1.comparePair q else s1
  | none => s1

/-- R139: an execution without END 8.0 µs after its start. -/
def overrunGo (a : Nat) (s : State) : State :=
  let (vec, u) := pairUnit a
  match s.pairOf vec u, s.execStart vec u with
  | some p, some t0 => if p.phase = .running && p.openFor u && reached s.now (t0 + 8000) then s.overrunUnit vec u p else s
  | _, _ => s

/-- R139: OVERRUN. -/
def execOverrun (a : Nat) (s : State) : Res := unit s (isPairUnit a) (overrunGo a s)

/-- R137: a re-execution that has not ended 17.0 µs after the later execution's start is aborted, also one that an abort
of its unit still keeps from starting. -/
def isoDeadlineGo (a : Nat) (s : State) : State :=
  let (vec, u) := pairUnit a
  match s.pairOf vec u with
  | some p =>
    if p.phase = .reexec && p.again = u && !p.split && reached s.now (p.laterStart + 17000) then
      ((s.execStart vec u).elim s fun _ => s.abortUnit vec u).reexecEnd vec u none
    else s
  | none => s

/-- R137: ISOLATION_DEADLINE. -/
def execIsolationDeadline (a : Nat) (s : State) : Res := unit s (isPairUnit a) (isoDeadlineGo a s)

/-! ## The end of an isolation (R139, R171) -/

/-- A pair whose outcome is known and whose release copy, if any, has been written. -/
def State.settled (s : State) (f : Nat) : Option Pair :=
  s.units.pairs.find? fun p => p.flask == f && p.outcome != 0
    && !(s.mem.moves.any fun m => match m.kind with
          | .release a => !p.vec && (a == p.pri || a == p.rc)
          | _ => false)

/-- R171, R172: the lag rises by Δ, under the LAG_MAX in force at the start of the isolation (R162): the time from the release point to now in whole µs, rounded up. -/
def State.riseLag (s : State) (f delta : Nat) : State :=
  if delta = 0 then s
  else
    let l := s.f POUR_FLAG.LAG f + delta
    let s1 := (s.setF POUR_FLAG.LAG f (min l 4095)).incSat POUR_FLAG.LAG_EVENTS f 1
    if (s.flask f).lagMax < l then s1.safety SYS_SAFESTAT.POUR_LATE f 1 else s1

/-- R139, R171: the isolation of a flask ends: the tile is released with RECOVERED, or is not released and its
job is lost; the held entries may start. -/
def isolationEndGo (f : Nat) (s : State) : State :=
  match s.settled f with
  | none => s
  | some p =>
    let s1 := s.riseLag f (cdiv (s.since p.releaseNs) 1000)
    let total := ((s1.job p.job).map fun x => x.tiles.length).getD 0
    let s2 := { s1 with units.pairs := s1.units.pairs.filter fun q => q != p }
    let s3 := if p.outcome = 1 then (s2.cflag p.job 2).finishPart p.job p.tile total
      else (s2.endJob p.job stJobLost (some p.tile)).safety SYS_SAFESTAT.RECAST_UNRES f p.tile
    let s4 := (s3.passUnit p.vec p.pri).passUnit p.vec p.rc
    s4.modFlask f fun x =>
      { x with isolating := s4.units.pairs.any fun q => q.flask == f && decide (q.phase ≠ .running), isoEndNs := s.now }

/-- R171: ISOLATION_END. -/
def execIsolationEnd (f : Nat) (s : State) : Res := unit s (decide (f < 8)) (isolationEndGo f s)

/-! ## The end of an entry (R168, R169, R175) -/

/-- When a running entry ends. -/
def Running.endNs (r : Running) : Nat := r.dueNs + 1000 * r.ent.len - 1000 * r.absorbed

/-- A unit that still runs at the end of its entry: an execution overruns, a task is stopped and has failed. -/
def State.endKind (s : State) (r : Running) : State :=
  let e := r.ent
  match s.unitOf e.flask e.ty e.unit with
  | none => s
  | some u =>
    if e.kind ≤ 1 then
      let vec := e.ty == 1
      match s.pairOf vec u, s.execStart vec u with
      | some p, some _ => if p.phase = .running && p.openFor u then s.overrunUnit vec u p else s
      | _, _ => s
    else if e.kind = 4 then
      if (s.rt u).task.any fun t => t.2.2.2.1 == 4 && t.1 == e.task then s.rtFail e.flask [u] else s
    else if e.kind = 5 then
      match (s.rt u).task with
      | some t => if t.2.2.2.1 == 5 && t.1 == e.task then s.rtFail e.flask [u, t.2.2.1] else s
      | none => s
    else s

/-- R169: an entry ends; bound jobs that no entry can still serve are lost. -/
def entryEndGo (e : Nat) (s : State) : State :=
  match s.units.pour.running.find? fun r => r.entry % 4096 == e with
  | none => s
  | some r =>
    if !reached s.now r.endNs then s
    else
      let s1 := if r.empty then s else s.endKind r
      (s1.modPour fun p => { p with running := p.running.filter fun q => q != r }).loseBound

/-- R169: POUR_ENTRY_END. -/
def execPourEntryEnd (e : Nat) (s : State) : Res := unit s (decide (e < 4096)) (entryEndGo e s)

/-! ## Real-time tasks (R145 to R147) -/

/-- R145: the input-log copy is complete, and the core's executive starts the task. -/
def logCopyGo (c : Nat) (s : State) : State :=
  if (s.rt c).task.isSome && !(s.rt c).started && !(s.mem.moves.any fun m => m.kind == .inputLog c) then s.startTask c
  else s

/-- R145: INPUT_LOG_COPY_DONE. -/
def execInputLogCopyDone (c : Nat) (s : State) : Res := unit s (isRt c) (logCopyGo c s)

/-- What a real-time task has done so far: its registers, its copy of the data window, its signature and its count of
retired instructions. -/
structure RtRun where
  reg : NMap Nat
  data : NMap Byte
  sig : Nat := crc32Init
  count : Nat := 0
  deriving DecidableEq, Repr

/-- R146: a register write folds as the register number, one byte, and the 8-byte value; x0 takes nothing. -/
def RtRun.wr (r : RtRun) (rd v : Nat) : RtRun :=
  if rd = 0 then r
  else
    { r with reg := NMap.set r.reg 0 rd (v % 2 ^ 64)
             sig := crc32Fold r.sig (BitVec.ofNat 8 rd :: toLE 8 (v % 2 ^ 64)) }

/-- Bytes written into a data window. -/
def putData (m : NMap Byte) (k : Nat) : List Byte → NMap Byte
  | [] => m
  | b :: bs => putData (NMap.set m 0 k b) (k + 1) bs

/-- R146: a store folds as its 4-byte offset within the data window and its data, and goes to the core's own copy (R144). -/
def RtRun.st (r : RtRun) (off : Nat) (bs : List Byte) : RtRun :=
  { r with data := putData r.data off bs, sig := crc32Fold r.sig (toLE 4 off ++ bs) }

/-- R145, R146: one retired instruction, under the input log of the pair's first execution. -/
def RtRun.step (l : FirstRun) (r : RtRun) (i : RtStep) : RtRun :=
  let r1 := { r with count := r.count + 1 }
  let rd (m : NMap Byte) (off n : Nat) : Nat := leNat ((List.range n).map fun k => NMap.get m 0 (off + k))
  match i with
  | .retire w st =>
    let r2 := match w with
      | some p => r1.wr p.1 p.2
      | none => r1
    match st with
    | some p => r2.st p.1 p.2
    | none => r2
  | .readTime d => r1.wr d l.logTime
  | .readPerf d => r1.wr d 0
  | .readLog d off n => r1.wr d (rd l.log off n)
  | .readData d off n => r1.wr d (rd r1.data off n)

/-- The first execution of a task on a core. -/
def State.firstOf (s : State) (c t : Nat) : Option FirstRun := (s.rt c).firsts.find? fun r => r.task == t

/-- R146: an execution ends with the instructions that it has retired; after the second, signatures and instruction counts
are compared. -/
def rtEndGo (c : Nat) (steps : List RtStep) (s : State) : State :=
  let x := s.rt c
  match x.task with
  | none => s
  | some (t, _, p, kind, _) =>
    if !x.started then s
    else
      let src := if kind = 4 then c else p
      match s.firstOf src t with
      | none => s.rtFail (x.flask.getD 0) [c]
      | some l =>
        let r := steps.foldl (RtRun.step l) { reg := x.reg, data := x.data }
        let res := (crc32Final r.sig, r.count)
        let s1 := s.modRt c fun x => { x with task := none, started := false, reg := r.reg, data := r.data }
        if kind = 4 then
          s1.modRt c fun x => { x with firsts := x.firsts.map fun q => if q.task = t then { q with ended := some res } else q }
        else if l.ended = some res then
          s1.modRt p fun y => { y with firsts := y.firsts.filter fun q => q.task != t }
        else s1.rtFail (x.flask.getD 0) [c, p]

/-- R146: RT_TASK_END. -/
def execRtTaskEnd (c : Nat) (steps : List RtStep) (s : State) : Res := unit s (isRt c) (rtEndGo c steps s)

/-! ## Test bars (R148 to R152) -/

/-- A unit of the device. -/
def isTBUnit : TBUnit → Bool
  | .array n => isArray n
  | .vec n => isVec n
  | .rt n => isRt n
  | .runner => true

/-- TB_PERIOD in ns. -/
def State.tbPeriodNs (s : State) : Nat := s.f SYS_SAFECFG.TB_PERIOD 0 * 1000000

/-- R150: an array's test bar is due outside the pour table, and none is due for it already. -/
def State.arrayBarDue (s : State) (a : Nat) : Bool :=
  let x := s.arr a
  (s.f ARR_STATUS.FLASK a == 15 || !s.timed (s.f ARR_STATUS.FLASK a)) && (s.arrServing a || s.f ARR_STATUS.STATE a == 7)
    && reached s.now (x.lastBarNs + s.tbPeriodNs) && x.testBar.isNone && !x.testBarDue

/-- An array on which a due test bar may start at once: it stands at a tile boundary. -/
def State.atTile (s : State) (a : Nat) : Bool :=
  (s.f ARR_STATUS.STATE a == 0 || s.f ARR_STATUS.STATE a == 7) && (s.arr a).job.isNone

/-- R150: the lowest array whose due test bar waits at a tile boundary starts it, when none runs any longer. -/
def State.nextBar (s : State) : State :=
  match arrayIds.find? fun a => (s.arr a).testBarDue && s.atTile a && s.barMay a with
  | some a => s.startBar a
  | none => s

/-- R150, R152: the unit's test bar is due; an idle unit starts it at once, unless another test bar keeps it waiting. The
test bar of a core outside the pour table runs between tasks. -/
def testBarDueGo (u : TBUnit) (s : State) : State :=
  if s.units.tbStopped || !s.fb SYS_LOCK.MGR 0 then s
  else
    match u with
    | .array a =>
      if (s.arr a).testBarDue then s.nextBar
      else if !s.arrayBarDue a then s
      else if s.atTile a && s.barMay a then s.startBar a
      else s.modArr a fun x => { x with testBarDue := true }
    | .vec e =>
      if (s.f VEC_STATUS.FLASK e != 15 && s.timed (s.f VEC_STATUS.FLASK e)) || 4 ≤ s.f VEC_STATUS.STATE e
          || !reached s.now ((s.vec e).lastBarNs + s.tbPeriodNs) then s
      else if s.f VEC_STATUS.STATE e = 0 && (s.vec e).item.isNone then s.startVecBar e
      else s.modVec e fun v => { v with testBarDue := true }
    | .rt c =>
      if ((s.rt c).flask.any fun f => s.timed f) || (s.rt c).withdrawn || (s.rt c).task.isSome
          || !reached s.now ((s.rt c).lastBarNs + s.tbPeriodNs) then s
      else s.modRt c fun x => { x with testBar := true }
    | .runner => s

/-- R150: TEST_BAR_DUE. -/
def execTestBarDue (u : TBUnit) (s : State) : Res := unit s (isTBUnit u) (testBarDueGo u s)

/-- R151: an array failed its test bar. -/
def State.arrayBarFail (s : State) (a : Nat) : State :=
  let s1 := ((s.incSat ARR_RCSTAT.TB_FAIL a 1).setF ARR_RCSTAT.FAULTY a 1).safety SYS_SAFESTAT.TB_FAIL a 0
  if (s.arr a).barSpare then
    (s1.setF ARR_STATUS.STATE a 6).modRec fun r => { r with retired := insNat r.retired a }
  else if s.f ARR_STATUS.FLASK a != 15 && s.timed (s.f ARR_STATUS.FLASK a) then
    s1.modArr a fun x => { x with retireDue := some 2 }
  else s1.modArr a fun x => { x with withdrawDue := some 2 }

/-- R149: a golden signature record: its NSIG signatures by SIG_ID, and the final output signature. -/
def goldenSigs (bs : List Byte) : List (Nat × Nat) × Nat :=
  ((List.range (leAt bs 0 1)).map fun k => (leAt bs (8 + 8 * k) 1, leAt bs (12 + 8 * k) 4), leAt bs 4 4)

/-- R148: both runs of an array's test bar gave the golden signatures of the pairing of their frame. -/
def State.barPassed (s : State) (a : Nat) : Bool × State :=
  match physRead s (s.f ARR_STATUS.FLASK a) (s.tbBase + 0x9000 + 128 * (s.arr a).barPair) 128 with
  | (.ok bs, s1) => ((s.arr a).barRuns == [some (goldenSigs bs), some (goldenSigs bs)], s1)
  | (_, s1) => (false, s1)

/-- R151: an array's test bar ends, once its mould range is restored: the verdict, and what it leads to. -/
def State.arrayBarDone (s : State) (a : Nat) : State :=
  if (s.arr a).testBar.isNone || (s.arr a).barPhase != .over then s
  else
    let (pass, s0) := s.barPassed a
    let s1 := (s0.modArr a fun x => { x with testBar := none, lastBarNs := s.now }).setF ARR_STATUS.STATE a
      (if (s.arr a).barSpare then 7 else 0)
    let s2 := if pass || s.units.tbStopped then s1 else s1.arrayBarFail a
    (if (s.arr a).barSpare then s2.modArr a fun x => { x with barSpare := false } else s2.passBoundary a).nextBar

/-- R152: a vector engine's test bar ends. -/
def State.vecBarDone (s : State) (e : Nat) (pass : Bool) : State :=
  if !(s.vec e).testBar then s
  else
    let s1 := s.vecBarBack e
    let s2 := if pass then s1
      else ((s1.modVec e fun v => { v with withdrawDue := true }).modRec
        fun r => { r with vecs := satAdd32 r.vecs (4 * e + 2) 1 }).safety SYS_SAFESTAT.TB_FAIL (34 + e) 0
    let s3 := s2.vecBoundary e
    if s3.f VEC_STATUS.FLASK e = 15 then s3 else s3.deal (s3.f VEC_STATUS.FLASK e)

/-- R152, R147: a real-time core's test bar ends; a failure withdraws it, in a timed flask at the next boundary. -/
def State.rtBarDone (s : State) (c : Nat) (pass : Bool) : State :=
  if !(s.rt c).testBar then s
  else
    let s1 := s.modRt c fun x => { x with testBar := false, extra := false, lastBarNs := s.now }
    if pass then s1
    else
      let s2 := (s1.modRec fun r => { r with rts := satAdd32 r.rts (4 * c + 1) 1 }).safety SYS_SAFESTAT.TB_FAIL (50 + c) 0
      if (s.rt c).flask.any fun f => s.timed f then s2.modRt c fun x => { x with withdrawDue := true }
      else s2.withdrawRt c

/-- R152: the runner's test bar ends; a failure counts in the field record and withdraws the runner at the next frame
boundary, as R151 does with an array of a timed flask. The node cache is invalidated (R275). -/
def State.runnerBarDone (s : State) (pass : Bool) : State :=
  if s.f RUN_STAT.STATE 0 != 6 then s
  else
    let s1 := { s.setF RUN_STAT.STATE 0 0 with pix.nodes := [] }
    if pass then s1
    else
      { (s1.modRec fun r => { r with runner := satAdd32 r.runner 0 1 }).safety SYS_SAFESTAT.TB_FAIL 58 0 with
        units.runnerDue := true }

/-- R151, R152: TEST_BAR_DONE. -/
def testBarDoneGo (u : TBUnit) (pass : Bool) (s : State) : State :=
  match u with
  | .array a => s.arrayBarDone a
  | .vec e => s.vecBarDone e pass
  | .rt c => s.rtBarDone c pass
  | .runner => s.runnerBarDone pass

/-- R151: TEST_BAR_DONE. -/
def execTestBarDone (u : TBUnit) (pass : Bool) (s : State) : Res := unit s (isTBUnit u) (testBarDoneGo u pass s)

/-- R205: an enabled region reaches into the range that SPARE_BASE names. -/
def State.spareClash (s : State) : Bool :=
  let lo := s.f MEM_SPARE.SPARE_BASE 0 * 2 ^ 22
  (List.range 32).any fun n => s.fb MEM_RGN1.EN n
    && overlaps (s.f MEM_RGN0.BASE n * 2 ^ 21) (s.regionBytes n) lo (s.usable / 8)

/-- R149, R349: verification ends: MGR is set and the spare area exists, or the set is refused and flagged. -/
def tbVerifiedGo (ok : Bool) (s : State) : State :=
  if !s.units.tbVerifying then s
  else
    let s1 := { s with units.tbVerifying := false, units.tbFailed := !ok }
    if ok && !s.spareClash then { s1.setF SYS_LOCK.MGR 0 1 with mem.spareArea := true }
    else s1.regFlag SYS_REGERR.REFUSED .manager 0x10 false false

/-- R149: TB_IMAGE_VERIFIED. -/
def execTbImageVerified (ok : Bool) (s : State) : Res := .next (tbVerifiedGo ok s)

/-- R149: the test bar of an array is stopped: what it has saved is restored, and no verdict follows. -/
def State.stopBar (s : State) (a : Nat) : State :=
  let s1 := s.modArr a fun x => { x with testBarDue := false }
  if (s.arr a).testBar.isNone || (s.arr a).barPhase == .restore || (s.arr a).barPhase == .over then s1
  else
    let s2 := s1.each (s1.mem.moves.filter fun m => m.kind == .barSave a || m.kind == .barLoad a) State.dropMove
    if (s.arr a).barPhase == .save then s2.modArr a fun x => { x with barPhase := .over } else (s2.dropAsync a).barBack a

/-- R149: the hourly check of the test-bar image; on a mismatch every test bar stops until reset. -/
def tbRecheckGo (ok : Bool) (s : State) : State :=
  if ok || !s.fb SYS_LOCK.MGR 0 then s
  else
    let s1 := { s with units.tbStopped := true }
    let s2 := s1.each arrayIds State.stopBar
    let s3 := s2.each (vecIds.filter fun e => (s.vec e).testBar || (s.vec e).testBarDue) fun s e =>
      let s' := s.modVec e fun v => { v with testBarDue := false }
      if (s.vec e).testBar then s'.vecBarBack e else s'
    let s4 := (s3.each rtIds fun s c => s.modRt c fun x => { x with testBar := false }).each (List.range 8) fun s f =>
      s.modFlask f fun x => { x with extraBars := [] }
    (if s4.f RUN_STAT.STATE 0 = 6 then s4.setF RUN_STAT.STATE 0 0 else s4).safety SYS_SAFESTAT.TB_FAIL 59 0

/-- R149: TB_IMAGE_RECHECK. -/
def execTbImageRecheck (ok : Bool) (s : State) : Res := .next (tbRecheckGo ok s)

end Sys2Proof.Machine
end

