-- ==== Sys2Proof/Machine/RunTree.lean ====
section
/-! DEFINITION. The runner's arithmetic and its tree: the fixed sine and cosine (R266), square roots, the octree
(R263) with its updates (R264), and the exact test of an enlarged box against cubes (R267, R268). -/

namespace Sys2Proof.Machine

/-! ## binary32 operations -/

/-- binary32 of a natural number. -/
def f32nat (n : Nat) : Nat := toF32 (.fin false n 0)

/-- IEEE 754 subtraction. -/
def f32sub (a b : Nat) : Nat := f32add a (f32neg b)

/-- The magnitude of a binary32 code. -/
def f32abs (a : Nat) : Nat := a % 2 ^ 31

/-- A finite binary32 code. -/
def f32fin (a : Nat) : Bool :=
  match ofF32 a with
  | .fin .. => true
  | _ => false

/-- a < b and a ≤ b of binary32 values; false for NaN. -/
def f32lt (a b : Nat) : Bool := fvLt false (ofF32 a) (ofF32 b)
def f32le (a b : Nat) : Bool :=
  match ofF32 a, ofF32 b with
  | .nan, _ => false
  | _, .nan => false
  | x, y => !fvLt false y x

/-- Floor of the square root of n < 2^128. -/
def isqrt (n : Nat) : Nat :=
  (List.range 64).reverse.foldl (fun r b => if (r + 2 ^ b) * (r + 2 ^ b) ≤ n then r + 2 ^ b else r) 0

/-- A correctly rounded square root, IEEE 754. -/
def f32sqrt (a : Nat) : Nat :=
  match ofF32 a with
  | .nan => nan32
  | .inf neg => if neg then nan32 else inf32 false
  | .fin neg m e =>
    if m = 0 then a
    else if neg then nan32
    else
      let k : Nat := if e % 2 = 0 then 80 else 81
      let n := m * 2 ^ k
      let q := isqrt n
      toF32 (.fin false (2 * q + (if q * q = n then 0 else 1)) ((e - k) / 2 - 1))

/-! ## The fixed sine and cosine (R266) -/

/-- 2π in units of 2^−300. -/
def twoPi300 : Nat :=
  12799074516701066808997804592552191239937198809484765912489140366271425664275751838873863962

/-- An alternating Taylor sum: the term of degree `i`, and those two degrees apart. -/
def trigSum (r2 : Nat) : Nat → Nat → Nat → Int
  | 0, _, _ => 0
  | fuel + 1, i, term => (term : Int) - trigSum r2 fuel (i + 2) (term * r2 / 2 ^ 600 / ((i + 1) * (i + 2)))

/-- Sine and cosine of m × 2^e in units of 2^−300, for a finite binary32 magnitude. -/
def sinCos300 (m : Nat) (e : Int) : Int × Int :=
  let r := (m * 2 ^ (e + 300).toNat) % twoPi300
  (trigSum (r * r) 40 1 r, trigSum (r * r) 40 0 (2 ^ 300))

/-- A binary32 code lies within 2^−22 of a value in units of 2^−300. -/
def trigBound (v : Int) (c : Nat) : Bool :=
  match ofF32 c with
  | .fin n m e =>
    let u : Int := (m * 2 ^ (e + 300).toNat : Nat)
    decide (((if n then -u else u) - v).natAbs ≤ 2 ^ 278)
  | _ => false

/-- A value in units of 2^−300 as the nearest binary32. -/
def trigNear (v : Int) : Nat := toF32 (.fin (decide (v < 0)) v.natAbs (-300))

/-- RSIN: the free function where it keeps the bound of R266, the nearest binary32 otherwise (log entry 5). -/
def rsin (c : Nat) : Nat :=
  match ofF32 c with
  | .fin n m e =>
    let v := (sinCos300 m e).1
    let w := if n then -v else v
    if trigBound w (Config.rsin c) then Config.rsin c else trigNear w
  | _ => Config.rsin c

/-- RCOS, in the same way. -/
def rcos (c : Nat) : Nat :=
  match ofF32 c with
  | .fin _ m e =>
    let v := (sinCos300 m e).2
    if trigBound v (Config.rcos c) then Config.rcos c else trigNear v
  | _ => Config.rcos c

/-! ## The octree (R263) -/

/-- A node: OCC, MAXOCC, STAMP and CHILD_MASK. -/
structure ONode where
  occ : Nat
  maxocc : Nat
  stamp : Nat
  mask : Nat
  deriving DecidableEq, Repr

/-- A tree by path: the root has key 1, and octant o of key k has key 8k + o. -/
abbrev OTree := NMap ONode

/-- The octants that have a child. -/
def octants (mask : Nat) : List Nat := (List.range 8).filter fun o => bit mask o

/-- The key of the cube (x, y, z) at level `lv`. -/
def cubeKey (x y z : Nat) : Nat → Nat
  | 0 => 1
  | lv + 1 => 8 * cubeKey (x / 2) (y / 2) (z / 2) lv + (4 * (z % 2) + 2 * (y % 2) + x % 2)

/-- Groups of 16 nodes that the node cache holds (R275). -/
def nodeGroups : Nat := 32768

/-- R275: a node is read through the runner's node cache: a miss reads one 128-byte group of 16 nodes into it, and the
group read longest ago leaves a full cache (DESIGN CHOICE, log entry 177). -/
def nodeRead (inst va : Nat) (s : State) : Rs (List Byte) :=
  match s.pix.nodes.find? fun g => g.1 == inst && g.2.1 == va / 128 with
  | some g => (.ok ((g.2.2.drop (va % 128)).take 8), s)
  | none =>
    (vBytes inst (va / 128 * 128) 128 s).andThen fun bs s1 =>
      (.ok ((bs.drop (va % 128)).take 8),
       { s1 with pix.nodes := ((inst, va / 128, bs) :: s1.pix.nodes).take nodeGroups })

/-- R275: the node cache is invalidated. -/
def State.dropNodes (s : State) : State := { s with pix.nodes := [] }

/-- The nodes of one level: keys with their indexes in the pool. -/
def loadLevel (inst base : Nat) : List (Nat × Nat) → State → Rs (List (Nat × ONode × Nat))
  := vAll fun p s =>
    (nodeRead inst (base + 8 * p.2) s).andThen fun bs s1 =>
      let w := leNat bs
      (.ok (p.1, { occ := bits w 31 24, maxocc := bits w 23 16, stamp := bits w 15 0, mask := bits w 39 32 },
            bits w 63 40), s1)

/-- Read the tree level by level, `lv` levels below the present one. -/
def loadTree (inst base : Nat) : Nat → List (Nat × Nat) → State → Rs OTree
  | lv, front, s =>
    (loadLevel inst base front s).andThen fun ns s1 =>
      let here : OTree := ns.map fun n => (n.1, if lv = 0 then { n.2.1 with mask := 0 } else n.2.1)
      match lv with
      | 0 => (.ok here, s1)
      | lv' + 1 =>
        let next := ns.flatMap fun n =>
          let os := octants n.2.1.mask
          os.zipIdx.map fun p => (8 * n.1 + p.1, n.2.2 + p.2)
        if next.isEmpty then (.ok here, s1)
        else (loadTree inst base lv' next s1).andThen fun t s2 => (.ok (here ++ t), s2)

/-- The pool as written back: nodes in ascending key, so that children lie together in octant order; their
places in the pool are the model's choice (log entry 31). -/
def storeTree (t : OTree) : List Byte :=
  let keys := t.map fun p => p.1
  t.flatMap fun p =>
    let n := p.2
    let base := match octants n.mask with
      | [] => 0
      | o :: _ => keys.idxOf (8 * p.1 + o)
    toLE 8 (base * 2 ^ 40 + n.mask * 2 ^ 32 + n.occ * 2 ^ 24 + n.maxocc * 2 ^ 16 + n.stamp)

/-! ## UPDATE (R264) -/

/-- Key `k` lies below key `a`. -/
def keyUnder (a k : Nat) : Bool := (List.range 12).any fun d => k / 8 ^ (d + 1) == a

/-- The tree without what lies below a key. -/
def dropBelow (t : OTree) (a : Nat) : OTree := t.filter fun p => !keyUnder a p.1

/-- All eight children of a key exist; those created inherit its OCC. -/
def splitNode (stamp k : Nat) (t : OTree) : OTree :=
  match NMap.find t k with
  | none => t
  | some n =>
    (List.range 8).foldl (fun t o =>
      if bit n.mask o then t
      else NMap.insert t (8 * k + o) { occ := n.occ, maxocc := min n.occ 254, stamp := stamp, mask := 0 })
      (NMap.insert t k { n with mask := 255, stamp := if n.mask = 255 then n.stamp else stamp })

/-- The keys from the root to a cube, root first. -/
def pathKeys (x y z lv : Nat) : List Nat :=
  (List.range (lv + 1)).map fun j => cubeKey (x / 2 ^ (lv - j)) (y / 2 ^ (lv - j)) (z / 2 ^ (lv - j)) j

/-- Children that are missing along a path above the cube itself. -/
def missing (t : OTree) (path : List Nat) : Nat :=
  (path.dropLast.map fun k =>
    match NMap.find t k with
    | some n => 8 - (octants n.mask).length
    | none => 8).sum

/-- One update record; answers the tree with the counts of NODE_FULL and BAD_REC. -/
def applyRec (levels pool stamp : Nat) (acc : OTree × Nat × Nat) (w : Nat) : OTree × Nat × Nat :=
  let (t, full, bad) := acc
  let lv := bits w 27 24
  let occ := bits w 23 16
  let x := bits w 63 52
  let y := bits w 51 40
  let z := bits w 39 28
  if levels < lv || 2 ^ lv ≤ x || 2 ^ lv ≤ y || 2 ^ lv ≤ z then (t, full, bad + 1)
  else
    let path := pathKeys x y z lv
    let key := cubeKey x y z lv
    if t.length + missing t path ≤ pool then
      let t1 := path.dropLast.foldl (fun t k => splitNode stamp k t) t
      (NMap.insert (dropBelow t1 key) key { occ := occ, maxocc := min occ 254, stamp := stamp, mask := 0 }, full, bad)
    else
      let anc := (path.filter fun k => (NMap.find t k).isSome).getLast?.getD 1
      match NMap.find t anc with
      | some n => (NMap.insert t anc { n with occ := max n.occ occ, stamp := stamp }, full + 1, bad)
      | none => (t, full + 1, bad)

/-- MAXOCC and the collapse of one node whose children are done. -/
def settleNode (stamp : Nat) (t : OTree) (k : Nat) : OTree :=
  match NMap.find t k with
  | none => t
  | some n =>
    let kids := (octants n.mask).filterMap fun o => NMap.find t (8 * k + o)
    let same := match kids with
      | [] => false
      | c :: cs => kids.length == 8 && kids.all (fun c => c.mask == 0) && cs.all fun d => d.occ == c.occ
    if same then
      let o := (kids.headD n).occ
      NMap.insert (dropBelow t k) k { occ := o, maxocc := min o 254, stamp := stamp, mask := 0 }
    else
      let m := kids.foldl (fun a c => max a c.maxocc) (min n.occ 254)
      NMap.insert t k { n with maxocc := m, stamp := if m = n.maxocc then n.stamp else stamp }

/-- After the last record: MAXOCC upward, and the collapse, deepest nodes first. -/
def settleTree (stamp : Nat) (t : OTree) : OTree :=
  (t.reverse.map fun p => p.1).foldl (fun t k => settleNode stamp t k) t

/-! ## Boxes (R267) and the test (R268) -/

/-- A value of binary32 in units of 2^−149. -/
def q149 (c : Nat) : Option Int :=
  match ofF32 c with
  | .fin n m e => let u : Int := (m * 2 ^ (e + 149).toNat : Nat); some (if n then -u else u)
  | _ => none

/-- An enlarged box, in units of 2^−149 m: reference point, direction, extents and enlargement. -/
structure RBox where
  x : Int
  y : Int
  z : Int
  c : Int
  s : Int
  front : Int
  rear : Int
  half : Int
  height : Int
  e : Int
  deriving DecidableEq, Repr

/-- The cube of a tree: minimum corner in units of 2^−149 m, leaf edge in µm, and depth. -/
structure Geo where
  ox : Int
  oy : Int
  oz : Int
  leafUm : Nat
  levels : Nat
  deriving DecidableEq, Repr

/-- Two closed ranges meet. -/
def meets (a b c d : Int) : Bool := decide (a ≤ d) && decide (c ≤ b)

/-- The closed ranges spanned by two lists meet. -/
def rangesMeet (p q : List Int) : Bool :=
  match p, q with
  | a :: as, b :: bs =>
    meets (as.foldl min a) (as.foldl max a) (bs.foldl min b) (bs.foldl max b)
  | _, _ => false

/-- The corners of a box in the plane, in units of 2^−298 × 10^−6 m. -/
def RBox.corners (b : RBox) : List (Int × Int) :=
  let f := b.front + b.e
  let r := -(b.rear + b.e)
  let w := b.half + b.e
  [(f, w), (f, -w), (r, w), (r, -w)].map fun p =>
    ((b.x * 2 ^ 149 + p.1 * b.c - p.2 * b.s) * 1000000, (b.y * 2 ^ 149 + p.1 * b.s + p.2 * b.c) * 1000000)

/-- R268: an enlarged box intersects the cube (x, y, z) of a level: no axis separates them. -/
def boxMeets (g : Geo) (b : RBox) (lv x y z : Nat) : Bool :=
  let edge : Int := (g.leafUm * 2 ^ (g.levels - lv) : Nat)
  let lo (o : Int) (i : Nat) : Int := o * 2 ^ 149 * 1000000 + edge * i * 2 ^ 298
  let span (o : Int) (i : Nat) : List Int := [lo o i, lo o i + edge * 2 ^ 298]
  let cs := b.corners
  let sq := (span g.ox x).flatMap fun u => (span g.oy y).map fun v => (u, v)
  let zs := [(b.z - b.e) * 2 ^ 149 * 1000000, (b.z + b.height + b.e) * 2 ^ 149 * 1000000]
  rangesMeet zs (span g.oz z)
    && rangesMeet (cs.map fun p => p.1) (span g.ox x) && rangesMeet (cs.map fun p => p.2) (span g.oy y)
    && rangesMeet (cs.map fun p => p.1 * b.c + p.2 * b.s) (sq.map fun p => p.1 * b.c + p.2 * b.s)
    && rangesMeet (cs.map fun p => p.2 * b.c - p.1 * b.s) (sq.map fun p => p.2 * b.c - p.1 * b.s)

/-- R268: OCC of every childless node or leaf that a box touches, from a key down. -/
def touched (t : OTree) (g : Geo) (b : RBox) : Nat → Nat → Nat → Nat → Nat → Nat → List Nat
  | fuel, key, lv, x, y, z =>
    match NMap.find t key with
    | none => []
    | some n =>
      if n.maxocc = 0 || !boxMeets g b lv x y z then []
      else if n.mask = 0 then [n.occ]
      else
        match fuel with
        | 0 => [n.occ]
        | fuel' + 1 =>
          (octants n.mask).flatMap fun o =>
            touched t g b fuel' (8 * key + o) (lv + 1) (2 * x + o % 2) (2 * y + o / 2 % 2) (2 * z + o / 4)

end Sys2Proof.Machine
end

