-- ==== Sys2Proof/Machine/RunSweep.lean ====
section
/-! DEFINITION. The runner's candidates: the integration of R266, the boxes of R267, collisions and sums of R268,
results and costs, and the shaping of R270 and R271. -/

namespace Sys2Proof.Machine

def f32one : Nat := 0x3F800000
def f32half : Nat := 0x3F000000
def f32two : Nat := 0x40000000
def f32inf : Nat := 0x7F800000

/-- What a check of candidates works with. `fr` numbers its free values. -/
structure RunEnv where
  tree : OTree
  geo : Geo
  collide : Nat
  unknownBlocks : Bool
  trailers : Nat
  step : Nat
  wRisk : Nat
  wCurv : Nat
  veh : List Byte
  lim : List Byte
  fr : Nat
  deriving DecidableEq, Repr

/-- A binary32 field of the vehicle record and of the limits record. -/
def RunEnv.v (e : RunEnv) (o : Nat) : Nat := leAt e.veh o 4
def RunEnv.l (e : RunEnv) (o : Nat) : Nat := leAt e.lim o 4

/-- A candidate: PRIOR, SEGS and the segments (KAPPA, LEN). -/
structure Cand where
  prior : Nat
  segs : Nat
  seg : List (Nat × Nat)
  deriving DecidableEq, Repr

/-- A candidate from its 528 bytes. -/
def candOf (bs : List Byte) : Cand :=
  { prior := leAt bs 0 4, segs := leAt bs 4 1,
    seg := (List.range (min (leAt bs 4 1) 64)).map fun k => (leAt bs (16 + 8 * k) 4, leAt bs (20 + 8 * k) 4) }

/-- R266: BAD_CAND. -/
def Cand.bad (c : Cand) : Bool :=
  c.segs == 0 || 64 < c.segs
    || c.seg.any fun p => !f32fin p.1 || !f32fin p.2 || !f32lt 0 p.2

/-! ## Integration (R266) -/

/-- Pose, sums, and where the first collision or jackknife lies. -/
structure Sweep where
  x : Nat
  y : Nat
  t0 : Nat
  t1 : Nat
  t2 : Nat
  risk : Nat := 0
  curv : Nat := 0
  first : Option (Nat × Nat) := none
  jack : Bool := false
  coll : Bool := false
  deriving DecidableEq, Repr

/-- The state of the vehicle record; PHIi is θ(i−1) − θi. -/
def RunEnv.start (e : RunEnv) : Sweep :=
  let t1 := f32sub (e.v 0x0C) (e.v 0x14)
  { x := e.v 0, y := e.v 4, t0 := e.v 0x0C, t1 := t1, t2 := f32sub t1 (e.v 0x18) }

/-- Rates of the three bodies at the start of a substep: (v, w) each. -/
def RunEnv.rates (e : RunEnv) (p : Sweep) (kappa : Nat) : List (Nat × Nat) :=
  let d1 := f32sub p.t0 p.t1
  let m0 := f32mul (e.v 0x38) kappa
  let v1 := f32add (rcos d1) (f32mul m0 (rsin d1))
  let w1 := f32div (f32sub (rsin d1) (f32mul m0 (rcos d1))) (e.v 0x3C)
  let d2 := f32sub p.t1 p.t2
  let m1 := f32mul (e.v 0x50) w1
  let v2 := f32add (f32mul v1 (rcos d2)) (f32mul m1 (rsin d2))
  let w2 := f32div (f32sub (f32mul v1 (rsin d2)) (f32mul m1 (rcos d2))) (e.v 0x54)
  [(f32one, kappa), (v1, w1), (v2, w2)].take (e.trailers + 1)

/-- The pose after a substep. -/
def RunEnv.advance (_e : RunEnv) (p : Sweep) (kappa h : Nat) (rs : List (Nat × Nat)) : Sweep :=
  let w (i : Nat) : Nat := (rs.getD i (0, 0)).2
  let a := f32add p.t0 (f32div (f32mul kappa h) f32two)
  { p with
    x := f32add p.x (f32mul h (rcos a))
    y := f32add p.y (f32mul h (rsin a))
    t0 := f32add p.t0 (f32mul kappa h)
    t1 := if 1 < rs.length then f32add p.t1 (f32mul (w 1) h) else p.t1
    t2 := if 2 < rs.length then f32add p.t2 (f32mul (w 2) h) else p.t2 }

/-! ## Boxes (R267) -/

/-- FRONT, REAR, WIDTH, HEIGHT of a body. -/
def RunEnv.dims (e : RunEnv) (b : Nat) : Nat × Nat × Nat × Nat :=
  let o := if b = 0 then 0x28 else if b = 1 then 0x40 else 0x58
  (e.v o, e.v (o + 4), e.v (o + 8), e.v (o + 12))

/-- The reference points of the bodies, from the tractor's pose through the hitch geometry. -/
def RunEnv.refs (e : RunEnv) (p : Sweep) : List (Nat × Nat × Nat) :=
  let back (x y th d : Nat) : Nat × Nat := (f32sub x (f32mul d (rcos th)), f32sub y (f32mul d (rsin th)))
  let h1 := back p.x p.y p.t0 (e.v 0x38)
  let a1 := back h1.1 h1.2 p.t1 (e.v 0x3C)
  let h2 := back a1.1 a1.2 p.t1 (e.v 0x50)
  let a2 := back h2.1 h2.2 p.t2 (e.v 0x54)
  [(p.x, p.y, p.t0), (a1.1, a1.2, p.t1), (a2.1, a2.2, p.t2)].take (e.trailers + 1)

/-- The enlargement of a body's box: MARGIN + (h / 2) × (vb + |wb| × Rb). -/
def RunEnv.enlarge (e : RunEnv) (b h : Nat) (r : Nat × Nat) : Nat :=
  let (fr, re, wi, _) := e.dims b
  let far := if f32lt fr re then re else fr
  let hw := f32mul wi f32half
  let rb := f32sqrt (f32add (f32mul far far) (f32mul hw hw))
  f32add (e.l 0x1C) (f32mul (f32div h f32two) (f32add r.1 (f32mul (f32abs r.2) rb)))

/-- The enlarged box of a body; none when a value is not finite. -/
def RunEnv.box (e : RunEnv) (b h : Nat) (at_ : Nat × Nat × Nat) (r : Nat × Nat) : Option RBox :=
  let (fr, re, wi, he) := e.dims b
  match q149 at_.1, q149 at_.2.1, q149 (e.v 8), q149 (rcos at_.2.2), q149 (rsin at_.2.2), q149 fr, q149 re,
      q149 (f32mul wi f32half), q149 he, q149 (e.enlarge b h r) with
  | some x, some y, some z, some c, some s, some f, some rr, some w, some hh, some en =>
    some { x := x, y := y, z := z, c := c, s := s, front := f, rear := rr, half := w, height := hh, e := en }
  | _, _, _, _, _, _, _, _, _, _ => none

/-- OCC of everything the boxes of a pose touch; a pose without finite values touches a free value. -/
def RunEnv.touch (e : RunEnv) (p : Sweep) (h : Nat) (rs : List (Nat × Nat)) : List Nat :=
  ((e.refs p).zip rs).zipIdx.flatMap fun q =>
    match e.box q.2 h q.1.1 q.1.2 with
    | some b => touched e.tree e.geo b e.geo.levels 1 0 0 0 0
    | none => [Config.freeNat e.fr % 256]

/-- R268: an OCC collides: occupied at or above OCC_COLLIDE, or unknown where unknown space blocks. -/
def RunEnv.hits (e : RunEnv) (o : Nat) : Bool := if o = 255 then e.unknownBlocks else decide (e.collide ≤ o)

/-- R266: a trailer's angle lies above its limit. -/
def RunEnv.jackknifed (e : RunEnv) (p : Sweep) : Bool :=
  (decide (0 < e.trailers) && f32lt (e.v 0x68) (f32abs (f32sub p.t0 p.t1)))
    || (decide (1 < e.trailers) && f32lt (e.v 0x6C) (f32abs (f32sub p.t1 p.t2)))

/-- One substep; the start pose is tested with the first substep of the first segment. -/
def RunEnv.substep (e : RunEnv) (k i h kappa : Nat) (p : Sweep) : Sweep :=
  if p.coll then p
  else
    let rs := e.rates p kappa
    let p1 := e.advance p kappa h rs
    let os := (if k = 0 && i = 0 then e.touch p h rs else []) ++ e.touch p1 h rs
    let jack := e.jackknifed p1
    let coll := os.any e.hits
    let o := os.foldl (fun a o => max a (min o 254)) 0
    let p2 := { p1 with jack := p.jack || jack, coll := coll }
    if p.first.isSome then p2
    else if jack || coll then { p2 with first := some (k, i) }
    else
      { p2 with
        risk := f32add p.risk (f32mul (f32div (f32nat o) (f32nat 254)) h)
        curv := f32add p.curv (f32mul (f32mul kappa kappa) h) }

/-- Substeps of a segment: n = ceiling(LEN / STEP). -/
def RunEnv.subs (e : RunEnv) (len : Nat) : Nat :=
  match ofF32 (f32div len e.step) with
  | .fin _ m x => if 0 ≤ x then m * 2 ^ x.toNat else cdiv m (2 ^ (-x).toNat)
  | _ => 0

/-- The substeps of a segment, in order. -/
def RunEnv.runSeg (e : RunEnv) (k h kappa : Nat) : Nat → Nat → Sweep → Sweep
  | 0, _, p => p
  | n + 1, i, p => if p.coll then p else e.runSeg k h kappa n (i + 1) (e.substep k i h kappa p)

/-- The whole candidate. -/
def RunEnv.sweep (e : RunEnv) (c : Cand) : Sweep :=
  c.seg.zipIdx.foldl (fun p q =>
    let n := e.subs q.1.2
    e.runSeg q.2 (f32div q.1.2 (f32nat n)) q.1.1 n 0 p) e.start

/-! ## Results -/

/-- A candidate result: byte 0, FIRST_SEG, FIRST_SUB, RISK, CURV, COST. -/
structure CandRes where
  bits0 : Nat
  seg : Nat
  sub : Nat
  risk : Nat
  curv : Nat
  cost : Nat
  deriving DecidableEq, Repr

/-- COST of R268's table. -/
def RunEnv.cost (e : RunEnv) (bits0 prior risk curv : Nat) : Nat :=
  if bits0 ≠ 0 then f32inf
  else f32add (f32add (f32mul e.wRisk risk) (f32mul e.wCurv curv)) prior

/-- The result of a candidate; FIRST_SUB without a first substep is a free value. -/
def RunEnv.result (e : RunEnv) (c : Cand) : CandRes :=
  let free := Config.freeNat (e.fr + 1) % 65536
  if c.bad then { bits0 := 4, seg := 0xFF, sub := free, risk := 0, curv := 0, cost := f32inf }
  else
    let p := e.sweep c
    let b := b2n p.coll + 2 * b2n p.jack
    let (sg, sb) := p.first.getD (0xFF, free)
    { bits0 := b, seg := sg, sub := sb, risk := p.risk, curv := p.curv, cost := e.cost b c.prior p.risk p.curv }

/-- The 16 bytes of a result. -/
def CandRes.bytes (r : CandRes) : List Byte :=
  toLE 1 r.bits0 ++ toLE 1 r.seg ++ toLE 2 r.sub ++ toLE 4 r.risk ++ toLE 4 r.curv ++ toLE 4 r.cost

/-- A result from its 16 bytes. -/
def resOf (bs : List Byte) : CandRes :=
  { bits0 := leAt bs 0 1, seg := leAt bs 1 1, sub := leAt bs 2 2, risk := leAt bs 4 4, curv := leAt bs 8 4,
    cost := leAt bs 12 4 }

/-- R269: the least finite COST, ties by the lowest index. -/
def bestOf (rs : List (Nat × CandRes)) : Option (Nat × CandRes) :=
  rs.foldl (fun acc r =>
    if !f32fin r.2.cost then acc
    else match acc with
      | none => some r
      | some b => if f32lt r.2.cost b.2.cost || (!f32lt b.2.cost r.2.cost && r.1 < b.1) then some r else some b) none

/-! ## Shaping (R270, R271), in binary32 like the rest of the runner (log entry 32) -/

/-- A limits record that does not pass: SMOOTH_TOL above MARGIN, D_STOP below D_MAX, DT_MS outside 1 to 100, a
value that is not finite or is negative. -/
def limitsBad (lim : List Byte) : Bool :=
  let f (k : Nat) : Nat := leAt lim (4 * k) 4
  (List.range 10).any (fun k => !f32fin (f k) || f32lt (f k) 0)
    || f32lt (f 7) (f 8) || f32lt (f 3) (f 2) || leAt lim 0x28 2 == 0 || 100 < leAt lim 0x28 2

/-- The samples of a path: (κ, |dκ/ds|, h) every h and at the end, with a ramp centred on each join. -/
def RunEnv.samples (e : RunEnv) (c : Cand) : List (Nat × Nat × Nat) :=
  let ramp (a b : Nat) : Nat :=
    let d := f32abs (f32sub b a)
    if f32le d 0 then 0
    else
      let x := f32div d (e.l 0x14)
      let y := f32sqrt (f32div (f32mul (f32nat 24) (e.l 0x20)) d)
      if f32lt y x then y else x
  let segs := c.seg.zipIdx
  let last := (c.seg.getLast?.map fun s => s.1).getD 0
  (segs.flatMap fun q =>
    let (kap, len) := q.1
    let n := e.subs len
    let h := f32div len (f32nat n)
    let prev := (c.seg[q.2 - 1]?).map (fun s => s.1)
    let next := (c.seg[q.2 + 1]?).map (fun s => s.1)
    (List.range n).map fun i =>
      let s := f32mul (f32nat i) h
      let left := f32sub len s
      let inRamp (o : Nat) (dist : Nat) : Option (Nat × Nat) :=
        let l := ramp o kap
        if f32lt dist (f32mul l f32half) then
          let rate := f32div (f32sub kap o) l
          -- distance from the ramp's far end, half the ramp plus what has been left of the join
          let t := f32add (f32mul l f32half) dist
          some (f32add o (f32mul rate t), f32abs rate)
        else none
      let a := match prev with
        | some o => if q.2 = 0 then none else inRamp o s
        | none => none
      match a with
      | some (k, r) => (k, r, h)
      | none =>
        match next.bind fun o => inRamp o left with
        | some (k, r) => (k, r, h)
        | none => (kap, 0, h)) ++ [(last, 0, 0)]

/-- The speed limit at a sample. -/
def RunEnv.limit (e : RunEnv) (q : Nat × Nat × Nat) : Nat :=
  let mn (a b : Nat) : Nat := if f32lt b a then b else a
  let k := f32abs q.1
  let a := if f32le k 0 then e.l 0 else mn (e.l 0) (f32sqrt (f32div (e.l 0x10) k))
  if f32le q.2.1 0 then a else mn a (f32div (e.l 0x18) q.2.1)

/-- The backward pass over squares of speeds, from V_END: the speed allowed at each sample. -/
def RunEnv.backward (e : RunEnv) : List (Nat × Nat × Nat) → List Nat
  | [] => []
  | q :: qs =>
    let rest := e.backward qs
    let nxt := rest.headD (e.l 0x24)
    let cap := f32sqrt (f32add (f32mul nxt nxt) (f32mul (f32mul f32two (e.l 0x08)) q.2.2))
    let lim := e.limit q
    (if f32lt cap lim then cap else lim) :: rest

/-- The forward pass from a speed: the speeds of the samples. -/
def RunEnv.forward (e : RunEnv) (v : Nat) : List (Nat × Nat × Nat × Nat) → List Nat
  | [] => []
  | (_, _, h, cap) :: qs =>
    let u := if f32lt cap v then cap else v
    u :: e.forward (f32sqrt (f32add (f32mul u u) (f32mul (f32mul f32two (e.l 0x04)) h))) qs

/-- The time along the path, 2h / (v(i) + v(i+1)) between samples, until the speed reaches zero. -/
def pathTime : List (Nat × Nat) → Nat → Nat
  | (v, h) :: (w, k) :: qs, t =>
    let s := f32add v w
    if f32le s 0 then t else pathTime ((w, k) :: qs) (f32add t (f32div (f32mul f32two h) s))
  | _, t => t

/-- R271: the plan takes LIMITS, or holds this many points. -/
def RunEnv.shape (e : RunEnv) (c : Cand) : Option Nat :=
  let qs := e.samples c
  let back := e.backward qs
  let v := e.v 0x10
  if f32lt (back.headD (e.l 0x24)) v then none
  else
    let sp := e.forward v ((qs.zip back).map fun p => (p.1.1, p.1.2.1, p.1.2.2, p.2))
    let t := pathTime (sp.zip (qs.map fun q => q.2.2)) 0
    let k := f32div (f32mul t (f32nat 1000)) (f32nat (leAt e.lim 0x28 2))
    match ofF32 k with
    | .fin _ m x => some (min 512 ((if 0 ≤ x then m * 2 ^ x.toNat else m / 2 ^ (-x).toNat) + 1))
    | _ => some 512

end Sys2Proof.Machine
end

