-- ==== Sys2Proof/Machine/Runner.lean ====
section
/-! DEFINITION. RUNNER jobs: UPDATE (R264), PLAN (R269 to R273), REPAIR (R274) and the late-plan rule, the
publication area (R272), and the hand-over of trajectories between two devices (R21 to R23). -/

namespace Sys2Proof.Machine

/-! ## The operator record (R262) -/

def Job.rnOp (x : Job) : Nat := bits (x.pw 0) 63 60
def Job.rnCount (x : Job) : Nat := bits (x.pw 0) 31 0
def Job.rnLevels (x : Job) : Nat := bits (x.pw 0) 55 52
def Job.rnTree (x : Job) : Nat := x.pw 1
def Job.rnNodes (x : Job) : Nat := bits (x.pw 2) 63 32
def Job.rnIn (x : Job) : Nat := x.pw 3
def Job.rnVeh (x : Job) : Nat := x.pw 4
def Job.rnOut (x : Job) : Nat := x.pw 5
def Job.rnPlan (x : Job) : Nat := x.pw 6
def Job.rnPred (x : Job) : Nat := x.pw 7
def Job.rnPredTag (x : Job) : Nat := x.pw 8
def Job.rnPublishAt (x : Job) : Nat := x.pw 9
def Job.rnLimits (x : Job) : Nat := x.pw 10
def Job.rnRepairK (x : Job) : Nat := bits (x.pw 14) 7 0
def Job.rnAux (x : Job) : Nat := x.pw 15
/-- The frame of a bound job; 0 in a shared flask. -/
def Job.rnFrame (x : Job) : Nat := (x.bound.map fun b => b.1).getD 0

/-- R10: while the runner sequencer restarts, only the descriptor that was in progress goes on. -/
def State.sequencerServes (s : State) (x : Job) : Bool := (s.fwp 5).running || s.pix.runKept == some x.id

/-- R261: the runner works on this job now: it runs, its window is open, it is the first of its flask, and no test bar has
withdrawn the runner (R152). -/
def State.runnerTakes (s : State) (x : Job) : Bool :=
  let f := s.jobFlask x
  let open_ := !s.timed f
    || s.units.pour.running.any fun r => r.ent.kind == 6 && r.ent.queue == x.queue && !r.empty
        && x.bound.any fun b => b.1 == r.frame
  decide (x.phase = .running) && x.opcode == 8 && s.f RUN_STAT.STATE 0 != 6 && !s.units.runnerOut && open_ && s.sequencerServes x
    && !(s.work.jobs.any fun y => y.opcode == 8 && decide (y.phase = .running) && s.jobFlask y == f
          && decide (y.id < x.id) && (!s.timed f || y.queue == x.queue))

/-- A RUNNER job with an operation of R262 that the runner works on. -/
def State.runnerJob (s : State) (j : Nat) (ops : List Nat) (g : Job → State) : State :=
  match s.job j with
  | some x => if s.runnerTakes x && ops.contains x.rnOp then g x else s
  | none => s

/-- The end of a computation that may end its job with an error. -/
def Rs.close (r : Rs Unit) (j : Nat) : State :=
  match r with
  | (.ok _, s) => s
  | (.error st, s) => s.endJob j st none

/-! ## The predecessor (R265) -/

/-- R265: whether the predecessor is absent, and whether its completion carries STALE. -/
def predState (x : Job) (s : State) : Rs (Bool × Bool) :=
  if x.rnPred = 0 then (.ok (false, false), s)
  else
    (vBytes x.inst x.rnPred 32 s).andThen fun bs s1 =>
      let w := leAt bs 0 8
      if leAt bs 8 8 = x.rnPredTag && bits w 55 48 < 0x10 then (.ok (false, bit (bits w 47 32) 0), s1)
      else (.ok (true, false), s1.incSat RUN_CNT2.STALE_IN 0 1)

/-! ## The tree of a job -/

/-- The tree as memory holds it. -/
def runTree (x : Job) (s : State) : Rs OTree := loadTree x.inst x.rnTree x.rnLevels [(1, 0)] s

/-- R264: the update records are applied and the tree is written back; the node cache is invalidated (R275). -/
def applyUpdates (x : Job) (s : State) : Rs OTree :=
  let fr := x.rnFrame % 65536
  let root : OTree := [(1, { occ := 255, maxocc := 254, stamp := fr, mask := 0 })]
  (if x.rnOp = 1 && bit (x.pw 0) 59 then (.ok root, s) else runTree x s.dropNodes : Rs OTree).andThen fun t s1 =>
  (vBytes x.inst x.rnIn (8 * x.rnCount) s1).andThen fun bs s2 =>
    let (t1, full, bad) := (words64 x.rnCount bs).foldl (applyRec x.rnLevels x.rnNodes fr) (t, 0, 0)
    let t2 := settleTree fr t1
    let s3 := (s2.incSat RUN_CNT2.NODE_FULL 0 full).incSat RUN_CNT2.BAD_REC 0 bad
    match instWrite s3 x.inst x.rnTree (storeTree t2) with
    | (.ok _, s4) => (.ok t2, s4.dropNodes)
    | (e, s4) => (.error e.status, s4.dropNodes)

/-- R264, R265: UPDATE. -/
def updateGo (x : Job) (s : State) : Rs Unit :=
  (predState x s).andThen fun p s1 =>
    if p.1 then (.ok (), (s1.cflag x.id 1).endJob x.id stOk none)
    else
      (applyUpdates x s1).andThen fun _ s2 =>
        (.ok (), (if p.2 then s2.cflag x.id 1 else s2).endJob x.id stOk none)

/-- R264: UPDATE. -/
def execUpdate (j : Nat) (s : State) : Res :=
  .next (s.runnerJob j [1] fun x => (updateGo x s).close j)

/-! ## The hand-over of a trajectory (R21 to R23) -/

/-- R164: the boundary of a frame. -/
def State.frameT0 (s : State) (fr : Nat) : Nat :=
  uint 64 ((s.units.pour.frameNs : Int) - (dist32 (s.f POUR_STAT.FRAME 0) fr * s.frameUs * 1000 : Nat))

/-- The ports in STATE 2h. -/
def State.upPorts (s : State) : List Nat := (List.range 4).filter fun p => s.wskUp p

/-- The partner's device id: that of a port that is up, else one that a port has learnt. -/
def State.partnerId (s : State) : Option Nat :=
  match s.upPorts with
  | p :: _ => some (s.f WSK_PORTSTAT.PEER_ID p)
  | [] => ((List.range 4).map fun p => s.f WSK_PORTSTAT.PEER_ID p).find? fun d => d != 0

/-- Change the hand-over state. -/
def State.modTraj (s : State) (g : TrajSt → TrajSt) : State := { s with net.traj := g s.net.traj }

/-- R22: the shadow's own trajectory of a frame and the one received for it are compared; a difference is logged in
the field record. -/
def State.trajCompare (s : State) (fr : Nat) : State :=
  let t := s.net.traj
  if t.own == some fr && t.received == some fr && t.ownSig != t.receivedSig then
    s.modRec fun r => { r with trajDiff := min (r.trajDiff + 1) (2 ^ 32 - 1) }
  else s

/-- The requests that forward a trajectory leave the bridge. -/
def State.dropForward (s : State) : State := { s with net.bridge := s.net.bridge.filter fun r => !r.forward }

/-- R21: this device gives its trajectory of a frame to the gateway for its stage-7 gate times, which lie from t0 + 54.6 ms
to t0 + 55.5 ms. -/
def State.sendStage7 (s : State) (fr : Nat) : State :=
  s.emit (.trajectory (s.f WSK_ID.DEV_ID 0) fr (s.frameT0 fr + 54600000) (s.frameT0 fr + 55500000))

/-- R22: the shadow gives its own trajectory of a frame to the gateway for the gate times of its backup window, from
t0 + 56.0 ms to t0 + 57.0 ms. -/
def State.sendBackup (s : State) (fr : Nat) : State :=
  s.emit (.trajectory (s.f WSK_ID.DEV_ID 0) fr (s.frameT0 fr + 56000000) (s.frameT0 fr + 57000000))

/-- The trajectory that waits for its forwarding is released. -/
def State.releaseTraj (s : State) (fr : Nat) : State :=
  (s.dropForward.modTraj fun t => { t with waiting := none, released := true }).sendStage7 fr

/-- R21, R22, R23: a published trajectory of a frame: the active device forwards it, or releases it when its partner
is absent; the shadow keeps it. -/
def State.forwardPlan (s : State) (fr : Nat) (plan : List Byte) : State :=
  let me := s.f WSK_ID.DEV_ID 0
  match s.partnerId with
  | none => s.sendStage7 fr
  | some peer =>
    if peer < me then
      (s.modTraj fun t => { t with own := some fr, ownSig := crc32 plan }).trajCompare fr
    else if s.upPorts.isEmpty then s.sendStage7 fr
    else
      let tag := s.net.nextTag
      let (a, s1) := s.dropForward.fresh
      let r : BridgeReq := { tag := tag, win := 32, master := .inst 0, write := true, np := true, bytes := plan.length,
                             startNs := s.now, forward := true }
      (({ s1 with net.nextTag := tag + 1, net.bridge := s1.net.bridge ++ [r] }).wskOriginate peer 3
        (.nonPosted (a % 2 ^ 48) tag plan.length (some plan))).modTraj
          fun t => { t with waiting := some fr, released := false, returned := false }

/-- R21: the completion of the forwarding write arrives; it counts when it has returned by t0 + 54.55 ms. -/
def State.forwardDone (s : State) : State :=
  match s.net.traj.waiting with
  | some fr => if !reached s.now (s.frameT0 fr + 54550001) then s.modTraj fun t => { t with returned := true } else s
  | none => s

/-- R23: with no path left the partner counts as absent, and the trajectory that waits is released for stage 7. -/
def State.partnerLost (s : State) : State :=
  match s.net.traj.waiting with
  | some fr => if s.upPorts.isEmpty then s.releaseTraj fr else s
  | none => s

/-- R21: TRAJECTORY_RELEASE, once the completion has returned by t0 + 54.55 ms. -/
def execTrajectoryRelease (s : State) : Res :=
  .next (match s.net.traj.waiting with
    | none => s
    | some fr => if s.net.traj.returned then s.releaseTraj fr else s)

/-- R21: ACTIVE_CUTOFF: at t0 + 54.55 ms a trajectory whose completion has not returned is discarded and counted. -/
def execActiveCutoff (s : State) : Res :=
  .next (match s.net.traj.waiting with
    | none => s
    | some fr =>
      if reached s.now (s.frameT0 fr + 54550000) && !s.net.traj.returned then
        s.dropForward.modTraj fun t => { t with waiting := none, discards := t.discards + 1 }
      else s)

/-- R22: SHADOW_CUTOFF: at t0 + 54.5 ms without the active trajectory, the shadow schedules its own for its backup
window. -/
def execShadowCutoff (s : State) : Res :=
  .next (match s.net.traj.own with
    | none => s
    | some fr =>
      if reached s.now (s.frameT0 fr + 54500000) && s.net.traj.received != some fr then
        (s.modTraj fun t => { t with own := none }).sendBackup fr
      else s)

/-! ## Publication (R272) -/

/-- FLAGS of a plan header. -/
def pfStale : Nat := 1
def pfNoCandidate : Nat := 2
def pfConfirm : Nat := 4
def pfLate : Nat := 8
def pfLimits : Nat := 16
def pfShort : Nat := 32
def pfRepaired : Nat := 64

/-- What a plan publishes. -/
structure PlanOut where
  source : Nat
  reuse : Nat
  tBase : Nat
  chosen : Nat
  flags : Nat
  cost : Nat
  points : List (List Byte)
  deriving DecidableEq, Repr

/-- Header and points as bytes, with the CRC over 00h to 37h and the points. -/
def planBytes (p : PlanOut) (frame t0 : Nat) : List Byte :=
  let h := toLE 8 (frame % 2 ^ 32 * 2 ^ 32 + p.source * 2 ^ 24 + p.reuse * 2 ^ 16 + p.points.length)
    ++ toLE 8 p.tBase ++ toLE 8 t0 ++ toLE 8 (p.chosen * 2 ^ 48 + p.flags * 2 ^ 32) ++ toLE 8 (p.cost * 2 ^ 32)
    ++ toLE 8 0 ++ toLE 8 0
  let pts := p.points.flatMap fun b => b
  h ++ toLE 8 (crc32 (h ++ pts)) ++ pts

/-- The address of a slot. -/
def slotAddr (x : Job) (n : Nat) : Nat := x.rnPlan + 0x40 + n % 2 * 0x4040

/-- The counter field of a SOURCE. -/
def sourceCnt : Nat → Option Fld
  | 0 => some RUN_CNT.PLANS_NEW
  | 1 => some RUN_CNT.PLANS_REUSED
  | 2 => some RUN_CNT.PLANS_STOP
  | _ => none

/-- R272: a plan is written to its slot, then PUBLISHED rises. In a timed flask the plan of SOURCE 0h to 2h is the frame's
trajectory of R21; a plan of SOURCE 3h holds no points, and the model neither forwards nor releases it (DESIGN CHOICE, log
entry 155). -/
def publish (x : Job) (p : PlanOut) (s : State) : Rs Unit :=
  let f := s.jobFlask x
  let t0 := if s.timed f then s.frameT0 x.rnFrame else 0
  let bs := planBytes p x.rnFrame t0
  (vBytes x.inst x.rnPlan 8 s).andThen fun c s1 =>
    let n := leNat c
    match instWrite s1 x.inst (slotAddr x n) bs with
    | (.ok _, s2) =>
      match instWrite s2 x.inst x.rnPlan (toLE 8 (n + 1)) with
      | (.ok _, s3) =>
        let s4 := ((s3.incWrap RUN_STAT.PUBLISHED 0 1).setF RUN_STAT.LAST_SOURCE 0 p.source).setF RUN_STAT.REUSE 0 p.reuse
        let s5 := match sourceCnt p.source with
          | some c => s4.incSat c 0 1
          | none => s4
        (.ok (), if s.timed f && p.source != 3 then s5.forwardPlan x.rnFrame bs else s5)
      | (e, s3) => (.error e.status, s3)
    | (e, s2) => (.error e.status, s2)

/-! ## The late-plan rule (R273) -/

/-- The newest plan of the publication area: its header words and its points. -/
def newestPlan (x : Job) (s : State) : Rs (Option (List Nat × List (List Byte))) :=
  (vBytes x.inst x.rnPlan 8 s).andThen fun c s1 =>
    if leNat c = 0 then (.ok none, s1)
    else
      let a := slotAddr x (leNat c + 1)
      (vBytes x.inst a 64 s1).andThen fun h s2 =>
        let n := min 512 (bits (leAt h 0 8) 15 0)
        (vBytes x.inst (a + 64) (32 * n) s2).andThen fun ps s3 =>
          (.ok (some (words64 8 h, (List.range n).map fun k => (ps.drop (32 * k)).take 32)), s3)

/-- Points whose contents the manual does not fix to the bit: T_OFF is given, the rest are free bytes. -/
def freePoints (dtUs n : Nat) (s : State) : List (List Byte) × State :=
  let (bs, s1) := s.freshBytes (28 * n)
  ((List.range n).map fun k => toLE 4 (k * dtUs) ++ (bs.drop (28 * k)).take 28, s1)

/-- R273: a stop along the path of P; its points and its origin are free values. -/
def stopPlan (lim : List Byte) (h : List Nat) (reuse flags : Nat) (s : State) : PlanOut × State :=
  let (n, s1) := s.fresh
  let (tb, s2) := s1.fresh
  let (sh, s3) := s2.fresh
  let (ps, s4) := freePoints (leAt lim 0x28 2 * 1000) (n % 513) s3
  ({ source := 2, reuse := reuse, tBase := tb % 2 ^ 64, chosen := bits (wordAt h 3) 63 48,
     flags := Nat.lor flags (if sh % 2 = 1 then pfShort else 0), cost := bits (wordAt h 4) 63 32, points := ps }, s4)

/-- R273: P is still long enough and young enough to be published again. A stop profile stays a stop. -/
def reusable (x : Job) (lim : List Byte) (h : List Nat) (ps : List (List Byte)) : Bool :=
  let last : Int := ((ps.getLast?.map fun p => leAt p 0 4).getD 0 : Nat)
  let gone := sint 64 ((x.rnPublishAt + 2 ^ 64 - wordAt h 1 % 2 ^ 64) % 2 ^ 64)
  bits (wordAt h 0) 31 24 != 2 && !ps.isEmpty
    && decide ((leAt lim 0x2A 2 * 1000000 : Nat) ≤ last * 1000 - gone)
    && decide (bits (wordAt h 0) 23 16 + 1 < leAt lim 0x2C 1)

/-- R273: what the late-plan rule publishes. -/
def latePlan (x : Job) (lim : List Byte) (flags : Nat) (p : Option (List Nat × List (List Byte))) (s : State) :
    PlanOut × State :=
  let none_ (reuse : Nat) : PlanOut :=
    { source := 3, reuse := reuse, tBase := 0, chosen := 0xFFFF, flags := flags, cost := 0, points := [] }
  match p with
  | none => (none_ 1, s)
  | some (h, ps) =>
    let reuse := min 255 (bits (wordAt h 0) 23 16 + 1)
    if bits (wordAt h 0) 31 24 = 3 then (none_ reuse, s)
    else if reusable x lim h ps then
      ({ source := 1, reuse := reuse, tBase := wordAt h 1, chosen := bits (wordAt h 3) 63 48, flags := flags,
         cost := bits (wordAt h 4) 63 32, points := ps }, s)
    else stopPlan lim h reuse flags s

/-- R273: the job publishes under the late-plan rule and completes with OK and STALE. -/
def lateRule (x : Job) (lim : List Byte) (flags : Nat) (s : State) : Rs Unit :=
  (newestPlan x s).andThen fun p s1 =>
    let (out, s2) := latePlan x lim flags p s1
    (publish x out s2).andThen fun _ s3 => (.ok (), (s3.cflag x.id 1).endJob x.id stOk none)

/-! ## PLAN (R269 to R273) -/

/-- The limits record and the predecessor, which every PLAN and REPAIR reads first. -/
def planHead (x : Job) (s : State) : Rs (List Byte × Nat) :=
  (vBytes x.inst x.rnLimits 64 s).andThen fun lim s1 =>
    if limitsBad lim then (.error stMalformed, s1)
    else
      (predState x s1).andThen fun p s2 => (.ok (lim, if p.1 || p.2 then pfStale else 0), s2)

/-- What the check of candidates works with. -/
def runEnv (x : Job) (lim veh : List Byte) (t : OTree) (fr : Nat) : RunEnv :=
  let o (k hi lo : Nat) : Int := (q149 (bits (x.pw k) hi lo)).getD 0
  { tree := t
    geo := { ox := o 11 63 32, oy := o 11 31 0, oz := o 12 63 32, leafUm := bits (x.pw 2) 31 0, levels := x.rnLevels }
    collide := bits (x.pw 0) 51 44, unknownBlocks := bit (x.pw 0) 58, trailers := bits (x.pw 0) 57 56
    step := f32div (f32nat (bits (x.pw 12) 31 16)) (f32nat 1000)
    wRisk := bits (x.pw 13) 63 32, wCurv := bits (x.pw 13) 31 0, veh := veh, lim := lim, fr := fr }

/-- One candidate is read and checked, and its result written at OUT_ADDR. -/
def checkCand (x : Job) (e : RunEnv) (list : Nat) (k : Nat) (s : State) : Rs (Nat × Cand × CandRes) :=
  (vBytes x.inst (list + 528 * k) 528 s).andThen fun bs s1 =>
    let c := candOf bs
    let r := e.result c
    match instWrite s1 x.inst (x.rnOut + 16 * k) r.bytes with
    | (.ok _, s2) => (.ok (k, c, r), s2)
    | (m, s2) => (.error m.status, s2)

/-- R153: the second check rejects the choice. -/
def State.confirmReject (s : State) : State :=
  ((s.incSat RUN_CNT.CONFIRM_REJ 0 1).modRec fun r => { r with runner := satAdd32 r.runner 1 1 }).safety
    SYS_SAFESTAT.RUN_CONFIRM 58 0

/-- The points of a new plan: point 0 holds the state of the vehicle record, the rest is shaped. -/
def newPoints (e : RunEnv) (n : Nat) (s : State) : List (List Byte) × State :=
  let (ps, s1) := freePoints (leAt e.lim 0x28 2 * 1000) n s
  match ps with
  | [] => ([], s1)
  | p :: rest =>
    ((p.take 4 ++ e.veh.take 8 ++ (e.veh.drop 0x0C).take 4 ++ (p.drop 16).take 4 ++ (e.veh.drop 0x10).take 4
      ++ p.drop 24) :: rest, s1)

/-- The chosen candidate is confirmed, shaped and published, or the late-plan rule applies. -/
def confirmPublish (x : Job) (e : RunEnv) (disagree : Bool) (extra : Nat) (k : Nat) (c : Cand) (r : CandRes)
    (detail : Option Nat) (s : State) : Rs Unit :=
  if disagree then lateRule x e.lim pfConfirm s.confirmReject
  else
    match e.shape c with
    | none => lateRule x e.lim pfLimits s
    | some n =>
      let (ps, s1) := newPoints e n s
      (publish x { source := 0, reuse := 0, tBase := leAt e.veh 0x20 8, chosen := k, flags := extra, cost := r.cost,
                   points := ps } s1).andThen fun _ s2 => (.ok (), s2.endJob x.id stOk detail)

/-- R269: PLAN before PUBLISH_AT. -/
def planWork (x : Job) (lim : List Byte) (disagree : Bool) (s : State) : Rs Unit :=
  (vBytes x.inst x.rnVeh 128 s).andThen fun veh s1 =>
  (runTree x s1).andThen fun t s2 =>
    let e := runEnv x lim veh t s2.freeCtr
    (vAll (checkCand x e x.rnIn) (List.range x.rnCount) { s2 with freeCtr := s2.freeCtr + 2 }).andThen fun rs s3 =>
      let s4 := { s3 with pix.planCount := x.rnCount }
      match bestOf (rs.map fun q => (q.1, q.2.2)) with
      | none => lateRule x lim pfNoCandidate s4
      | some (k, r) =>
        match rs[k]? with
        | none => lateRule x lim pfNoCandidate s4
        | some q => confirmPublish x e disagree 0 k q.2.1 r none s4

/-! ## REPAIR (R274) -/

/-- Order of results by COST, then index; a COST that is not a number comes last. -/
def resLt (a b : Nat × CandRes) : Bool :=
  let x := ofF32 a.2.cost
  let y := ofF32 b.2.cost
  if x = .nan then y == .nan && decide (a.1 < b.1)
  else if y = .nan then true
  else fvLt false x y || (!fvLt false y x && decide (a.1 < b.1))

/-- Insert a result in that order. -/
def resInsert (a : Nat × CandRes) : List (Nat × CandRes) → List (Nat × CandRes)
  | [] => [a]
  | b :: bs => if resLt a b then a :: b :: bs else b :: resInsert a bs

/-- One stored result. -/
def storedRes (x : Job) (k : Nat) (s : State) : Rs (Nat × CandRes) :=
  (vBytes x.inst (x.rnOut + 16 * k) 16 s).andThen fun bs s1 => (.ok (k, resOf bs), s1)

/-- R274: the candidates to check again: CHOSEN, and the REPAIR_K that follow it in the order of the results. -/
def repairSet (chosen k : Nat) (rs : List (Nat × CandRes)) : List Nat :=
  let sorted := (rs.foldl (fun acc r => resInsert r acc) []).map fun r => r.1
  if sorted.contains chosen then chosen :: ((sorted.drop (sorted.idxOf chosen + 1)).take k) else sorted.take k

/-- R274: REPAIR before PUBLISH_AT. `planCount` is COUNT of the PLAN being repaired (log entry 33). -/
def repairWork (x : Job) (lim : List Byte) (disagree : Bool) (s : State) : Rs Unit :=
  (applyUpdates x s).andThen fun t s1 =>
  (newestPlan x s1).andThen fun p s2 =>
  (vBytes x.inst x.rnVeh 128 s2).andThen fun veh s3 =>
  (vAll (storedRes x) (List.range s3.pix.planCount) s3).andThen fun old s4 =>
    let chosen := match p with
      | some (h, _) => bits (wordAt h 3) 63 48
      | none => 0xFFFF
    let e := runEnv x lim veh t s4.freeCtr
    (vAll (checkCand x e x.rnAux) (repairSet chosen x.rnRepairK old)
        { s4 with freeCtr := s4.freeCtr + 2 }).andThen fun rs s5 =>
      if rs.any fun q => q.1 == chosen && q.2.2.bits0 == 0 then (.ok (), s5.endJob x.id stOk (some 0))
      else
        match bestOf (rs.map fun q => (q.1, q.2.2)) with
        | some (k, r) =>
          match rs.find? fun q => q.1 == k with
          | some q => confirmPublish x e disagree pfRepaired k q.2.1 r (some 1) s5
          | none => lateRule x lim 0 s5
        | none =>
          match p with
          | none => lateRule x lim pfNoCandidate s5
          | some (h, _) =>
            if bits (wordAt h 0) 31 24 = 3 then lateRule x lim pfNoCandidate s5
            else
              let (out, s6) := stopPlan lim h (min 255 (bits (wordAt h 0) 23 16 + 1)) pfNoCandidate s5
              (publish x out s6).andThen fun _ s7 => (.ok (), (s7.cflag x.id 1).endJob x.id stOk none)

/-- PLAN and REPAIR: limits and predecessor first, then the late-plan rule where time is up (R273) or the frame is
flagged (R17, R265), and the work otherwise. -/
def planGo (work : Job → List Byte → Bool → State → Rs Unit) (x : Job) (disagree : Bool) (s : State) : Rs Unit :=
  (planHead x s).andThen fun h s1 =>
    if reached s1.now x.rnPublishAt then lateRule x h.1 (h.2 + pfLate) s1
    else if h.2 ≠ 0 then lateRule x h.1 h.2 s1
    else work x h.1 disagree s1

/-- R269: PLAN. -/
def execPlan (j : Nat) (disagree : Bool) (s : State) : Res :=
  .next (s.runnerJob j [2] fun x => (planGo planWork x disagree s).close j)

/-- R274: REPAIR. -/
def execRepair (j : Nat) (disagree : Bool) (s : State) : Res :=
  .next (s.runnerJob j [3] fun x => (planGo repairWork x disagree s).close j)

/-- R273: PUBLISH_AT: a PLAN or REPAIR that has not published falls under the late-plan rule. -/
def execPublishAt (j : Nat) (s : State) : Res :=
  .next (s.runnerJob j [2, 3] fun x =>
    if reached s.now x.rnPublishAt then
      ((planHead x s).andThen fun h s1 => lateRule x h.1 (h.2 + pfLate) s1).close j
    else s)

end Sys2Proof.Machine
end

