-- ==== Sys2Proof/Machine/Spread.lean ====
section
/-! DEFINITION. What a device does with the messages of another device's attention sequencer (R128, R129): mirror
contexts and their frames, rows appended and folded here, and answers and output rows that come home. -/

namespace Sys2Proof.Machine

/-! ## Mirror contexts (R128) -/

/-- R128: a mirror context is asked for: the same SEQ_ID in PEER_INST, with the pages of the own pool; a SEQ_ID that the
instance cannot take counts as a context that is lacking (log entry 27). -/
def State.takeAdmit (s : State) (src k job : Nat) (ctx rec_ : List Byte) (fork : Option (Nat × Nat)) : State :=
  let i := leAt rec_ (24 + 2 * k) 2
  let c := { ctxOfRecord ctx with inst := i, pageCode := s.f ATT_IPOOL.PAGE_CODE i, state := 1, spread := true }
  let w0 := leAt rec_ 0 8
  let code := if s.idFree i c.seqId then s.spreadAnswer c w0 k fork else 1
  (if code = 0 then s.spreadPlace c w0 k fork else s).sendSpread src (.answer job code)

/-- A job of class 4 to 6 that waits for other devices. -/
def State.awaiting (s : State) (j : Nat) : Option Job :=
  (s.job j).bind fun x => if x.phase = .running && isAttn x.opcode && 0 < x.await then some x else none

/-- R128: an answer has come home; the last one settles the admission. -/
def State.takeAnswer (s : State) (j code : Nat) : State :=
  match s.awaiting j with
  | none => s
  | some x =>
    let a := worseAnswer x.answer code
    let s1 := s.modJob j fun y => { y with await := y.await - 1, answer := a }
    if x.await ≤ 1 then s1.spreadSettle x a else s1

/-! ## Rows (R129) -/

/-- The job of another device as its rows run here: its operator record under PEER_INST. -/
def spreadJob (m : SpreadRows) : Job :=
  { id := m.job, queue := 64 * leAt m.rec_ (24 + 2 * m.index) 2, ringIdx := 0, desc := [], param := m.op }

/-- The page of a new row takes a reserved frame, or stands already. -/
def mapFor (i slot : Nat) (x : Job) (r : Nat × Nat × List Byte × List Byte) (s : State) : Rd Unit :=
  let c := s.ctx slot
  let p := (atLayer x, r.2.1, (c.len + r.1) / c.t)
  Rd.andThen (readLeaf i c p s) fun f s1 =>
    (.ok (), (State.mapOne i slot s1 (p, f.map fun fr => (fr, s1.refCount i fr))).showAtt i)

/-- R129: rows that another device has sent: the new rows are appended, the query rows go on with their folds, and LAST ends
the positions. -/
def State.takeRows (s : State) (src : Nat) (m : SpreadRows) : State :=
  let x := spreadJob m
  let i := x.inst
  match s.seqSlot i m.seqId with
  | none => s.sendSpread src (.out m.job 0 [] false stXlate)
  | some k =>
    let r := Rd.andThen (readAll (mapFor i k x) m.kv (s.setCtx k { s.ctx k with len := m.len })) fun _ s1 =>
      let c := s1.ctx k
      Rd.andThen (readAll (appendRow x c) m.kv s1) fun _ s2 => readAll (queryRow x c m.rec_ m.index) m.qs s2
    match r with
    | (.ok _, s1) => if atLast x then s1.setCtx k { s1.ctx k with len := m.len + atNtok x } else s1
    | (.error e, s1) => s1.sendSpread (leAt m.rec_ 8 2) (.out m.job 0 [] false e.status)

/-- R129: an output row, or the end of its fold by an error, has come home. -/
def State.takeOut (s : State) (j addr : Nat) (bs : List Byte) (sat : Bool) (status : Nat) : State :=
  match s.awaiting j with
  | none => s
  | some x =>
    let run := s.openRun x x.runIds
    let fail (s : State) (st : Nat) : State :=
      (match run with | some r => if atLast x then s.closeRun r 0 else s | none => s).endJob j st (some 0)
    if status ≠ stOk then fail s status
    else
      match writeBytes x.inst addr bs s with
      | (.error e, s1) => fail s1 e.status
      | (.ok _, s1) =>
        let s2 := (s1.whenB sat fun s => s.cflag j 4).modJob j fun y => { y with await := y.await - 1 }
        match x.fin, run with
        | some f, some r => if x.await ≤ 1 then s2.rowsDone x r f.1 f.2 else s2
        | _, _ => s2

/-- R128, R129: a message of another device's attention sequencer. -/
def State.takeSpread (s : State) (src : Nat) : SpreadMsg → State
  | .admission k j ctx rec_ fork => s.takeAdmit src k j ctx rec_ fork
  | .answer j code => s.takeAnswer j code
  | .member i id act => if act = 2 then s.spreadDrop i id else s
  | .rows m => s.takeRows src m
  | .out j addr bs sat st => s.takeOut j addr bs sat st

/-- R123: a job of a step or prefill that a fault or a lost clock ends closes it with LEN unchanged. -/
def State.closeRunOf (s : State) (x : Job) : State :=
  if x.opcode = 4 || x.opcode = 5 then
    match s.openRun x x.runIds with
    | some r => s.closeRun r 0
    | none => s
  else s

end Sys2Proof.Machine
end

