-- ==== Sys2Proof/Machine/Weska.lean ====
section
/-! DEFINITION. Weska ports and cells (R305 to R316) and the bridges (R300 to R302). -/

namespace Sys2Proof.Machine

def isPort (p : Nat) : Bool := decide (p < 4)

/-- The answer to a refused or failed request of a master: an access fault at a core, a translation fault elsewhere
(R301, R344). -/
def faultAt : Master → Out
  | .core n => .accessFault (.core n)
  | .manager => .accessFault .manager
  | m => .xlateFault m

/-! ## Bridge requests (R300, R301) -/

/-- A request into a window is carried, posted or with a tag of its own. -/
def State.bridge (s : State) (m : Master) (addr : Nat) (write : Option (List Byte)) (bytes : Nat) : State :=
  match s.winFor (s.partOf m) addr with
  | none => s.emit (faultAt m)
  | some n =>
    if s.hostStopped n (s.masterInst m) then s.emit (faultAt m)
    else if s.farClosed then s.emit (.clockError m) else
    let np := write.isNone || s.fb SYS_BRWIN1.NP_WRITE n
    let tag := s.net.nextTag
    if !np then (s.farSend n addr write bytes false tag (s.masterInst m)).emit (.done m)
    else
      let r : BridgeReq := { tag := tag, win := n, master := m, write := write.isSome, np := true, bytes := bytes,
                             startNs := s.now }
      { s with net.nextTag := tag + 1, net.bridge := s.net.bridge ++ [r] }.farSend n addr write bytes true tag
        (s.masterInst m)

/-- R300: BRIDGE_REQUEST. -/
def execBridgeRequest (m : Master) (addr : Nat) (write : Option (List Byte)) (bytes : Nat) (s : State) : Res :=
  .next (s.bridge m addr write bytes)

/-- The request of a tag. -/
def State.bridgeReq (s : State) (tag : Nat) : Option BridgeReq := s.net.bridge.find? fun r => r.tag == tag

/-- A request leaves the bridge. -/
def State.dropReq (s : State) (tag : Nat) : State :=
  { s with net.bridge := s.net.bridge.filter fun r => r.tag != tag }

/-- R301: CPL_TIMEOUT: a request without completion within CPL_TIMEOUT_US completes as a fault. -/
def execCplTimeout (tag : Nat) (s : State) : Res :=
  .next (match s.bridgeReq tag with
    | none => s
    | some r =>
      if r.forward || !reached s.now (r.startNs + 1000 * s.f SYS_BRWIN2.CPL_TIMEOUT_US r.win) then s
      else (s.dropReq tag).emit (faultAt r.master))

/-- R301: an error of a posted write counts and interrupts the window's owner. -/
def State.postedError (s : State) (n : Nat) : State :=
  let s1 := s.incSat SYS_BRWIN0.ERRS n 1
  if s.f SYS_BRWIN0.OWNER n = 8 then s1.mgrIrq 19 n else s1.ownerIrq

/-- R301: POSTED_WRITE_ERROR. -/
def execPostedWriteError (n : Nat) (s : State) : Res := unit s (decide (n < 32)) (s.postedError n)

/-! ## Training (R305) -/

/-- Receive credits of a channel (R308). -/
def vcCredits : Nat → Nat
  | 0 => 4
  | 1 => 96
  | 2 => 96
  | 3 => 32
  | _ => 48

/-- The initial credits of the five channels. -/
def fullCredits : NMap Nat := (List.range 5).map fun v => (v, vcCredits v)

/-- A training of a port ends; every training after the first counts, here and in the field record. -/
def State.train (s : State) (p width peer : Nat) : State :=
  let w := s.wport p
  let s1 := if w.trained then
      (s.incSat WSK_PORTSTAT.RETRAINS p 1).modRec fun r => { r with links := satAdd32 r.links (12 + p) 1 }
    else s
  (((s1.setF WSK_PORTSTAT.STATE p 2).setF WSK_PORTSTAT.WIDTH p (if width = 4 then 2 else 1)).setF
    WSK_PORTSTAT.PEER_ID p peer).modWsk p fun w =>
      { w with trained := true, credits := fullCredits, owed := [], unacked := [], txSeq := 0, rxSeq := 0,
               replaying := false, replays1ms := 0 }

/-! ## Ports that leave STATE 2h (R313) -/

/-- The window through which a posted write of this device went. -/
def State.postedWin (s : State) (c : Cell) : Option Nat :=
  match (match c.body with
    | .more a => a
    | b => postAddr b) with
  | some addr =>
    (List.range 32).find? fun n => s.fb SYS_BRWIN1.EN n && s.f SYS_BRWIN1.TARGET n == 2
      && s.f SYS_BRWIN1.DEV_ID n == c.dest && decide (s.f SYS_BRWIN2.REMOTE_BASE n ≤ addr / 2 ^ 20)
      && decide (addr / 2 ^ 20 ≤ s.f SYS_BRWIN2.REMOTE_BASE n + (s.f SYS_BRWIN1.LIMIT n - s.f SYS_BRWIN0.BASE n))
  | none => none

/-- The lost cells that stand for a lost packet each: last cells, and the newest of a packet whose last cell still waits. -/
def lostPackets (cs : List Cell) : List Cell :=
  let part (c : Cell) : Bool := match c.body with
    | .more _ => true
    | _ => false
  (cs.filter fun c => !part c) ++ ((List.range 5).filterMap fun v =>
    ((cs.filter fun c => c.vc == v).getLast?).bind fun c => if part c then some c else none)

/-- An unacknowledged cell is lost; a posted write of this device counts in its window. -/
def State.loseCell (s : State) (c : Cell) : State :=
  if c.src != s.f WSK_ID.DEV_ID 0 then s
  else
    match s.postedWin c with
    | some n => s.postedError n
    | none => s

/-- A buffer of a channel is free again: a credit is owed to the partner. -/
def State.owe (s : State) (p vc : Nat) : State :=
  s.modWsk p fun w => { w with owed := NMap.set w.owed 0 vc (NMap.get w.owed 0 vc + 1) }

/-- A copy of a broadcast cell that came in at port i waits at some port. -/
def State.copyWaits (s : State) (i : Nat) (c : Cell) : Bool :=
  c.dest == 0xFFFF && (List.range 4).any fun q => (s.wport q).transit.contains (i, c)

/-- A cell that came in at port i has left or is dropped: its buffer there is free, that of a broadcast with its last copy
(log entry 193). -/
def State.freeBuf (s : State) (i : Nat) (c : Cell) : State := if s.copyWaits i c then s else s.owe i c.vc

/-- A cell that waited at a port takes its route again; a broadcast, or a cell without a route, is dropped. -/
def State.reroute (s : State) (from_ : Option Nat) (c : Cell) : State :=
  let freed (s : State) : State :=
    match from_ with
    | some i => s.freeBuf i c
    | none => s
  if c.dest = 0xFFFF then freed s
  else
    match s.wskRoute c.dest with
    | none => freed (s.incSat WSK_STAT.NO_ROUTE 0 1)
    | some q =>
      s.modWsk q fun w =>
        match from_ with
        | some i => { w with transit := w.transit ++ [(i, c)] }
        | none => { w with localQ := w.localQ ++ [c] }

/-- R313: a port leaves STATE 2h. -/
def State.portDown (s : State) (p st : Nat) : State :=
  let w := s.wport p
  let s1 := ((s.setF WSK_PORTSTAT.STATE p st).setF WSK_PORTSTAT.WIDTH p 0).modWsk p fun w =>
    { w with unacked := [], transit := [], localQ := [], replaying := false }
  ((s1.each (lostPackets w.unacked) fun s c => s.loseCell c).each w.transit fun s q => s.reroute (some q.1) q.2).each w.localQ
    fun s c => s.reroute none c

/-- R305: LINK_TRAINING: an enabled port trains at width 4 or 2. -/
def execLinkTraining (p width peer : Nat) (s : State) : Res :=
  unit s (isPort p && (width == 4 || width == 2))
    (if !s.fb WSK_PORTCFG.EN p then s
     else (if s.wskUp p then s.portDown p 1 else s).train p width peer)

/-- R313: PORT_DOWN. -/
def execPortDown (p : Nat) (s : State) : Res := unit s (isPort p) (if s.wskUp p then (s.portDown p 0).partnerLost else s)

/-! ## Reception (R307, R310, R312, R314) -/

/-- R307: a replay is asked for; 16 within 1 ms retrain the port. -/
def State.askReplay (s : State) (p : Nat) : State :=
  let w := s.wport p
  let fresh := 1000000 < s.since w.replayNs || w.replays1ms == 0
  let n := if fresh then 1 else w.replays1ms + 1
  let s1 := ((s.incSat WSK_PORTSTAT.REPLAYS p 1).emit (.replay p)).modWsk p fun w =>
    { w with replaying := true, replays1ms := n, replayNs := if fresh then s.now else w.replayNs }
  if 16 ≤ n then (s1.modWsk p fun w => { w with replays1ms := 0 }).portDown p 1 |>.partnerLost else s1

/-- The WSK_IN window that admits a packet (R314). -/
def State.wskIn (s : State) (src addr : Nat) : Option Nat :=
  (List.range 16).find? fun w => s.fb WSK_IN0.EN w && s.f WSK_IN1.SRC_ID w == src
    && decide (s.f WSK_IN0.BASE w ≤ addr / 2 ^ 20) && decide (addr / 2 ^ 20 ≤ s.f WSK_IN1.LIMIT w)

/-- The address of an admitted packet in its instance. -/
def State.wskVa (s : State) (w addr : Nat) : Nat := addr - s.f WSK_IN0.BASE w * 2 ^ 20

/-- A trajectory of the partner: a plan whose CRC holds (log entry 38). -/
def planFrame (bs : List Byte) : Option Nat :=
  if 64 ≤ bs.length && leAt bs 0x38 4 == crc32 (bs.take 0x38 ++ bs.drop 64) then some (leAt bs 4 4) else none

/-- R22: the shadow notes a trajectory that has been written into its memory. -/
def State.noteTraj (s : State) (bs : List Byte) : State :=
  match planFrame bs with
  | some fr => (s.modTraj fun t => { t with received := some fr, receivedSig := crc32 bs }).trajCompare fr
  | none => s

/-- R314: a non-posted packet: its access in the window's instance, and its completion. -/
def State.inNonPosted (s : State) (src addr tag len : Nat) (data : Option (List Byte)) : State :=
  match s.wskIn src addr with
  | none => (s.incSat WSK_STAT.NO_WINDOW 0 1).wskOriginate src 1 (.completion tag false [])
  | some w =>
    let i := s.f WSK_IN0.INSTANCE w
    match data with
    | some bs =>
      match instWrite s i (s.wskVa w addr) bs with
      | (.ok _, s1) => (s1.noteTraj bs).wskOriginate src 1 (.completion tag true [])
      | (_, s1) => s1.wskOriginate src 1 (.completion tag false [])
    | none =>
      match instRead s i (s.wskVa w addr) len with
      | (.ok bs, s1) => s1.wskOriginate src 1 (.completion tag true bs)
      | (_, s1) => s1.wskOriginate src 1 (.completion tag false [])

/-- R314: a posted packet. -/
def State.inPosted (s : State) (src addr : Nat) (bs : List Byte) : State :=
  match s.wskIn src addr with
  | none => s.incSat WSK_STAT.NO_WINDOW 0 1
  | some w => (instWrite s (s.f WSK_IN0.INSTANCE w) (s.wskVa w addr) bs).2

/-- R301: a completion arrives at the bridge. -/
def State.complete (s : State) (tag : Nat) (ok : Bool) (bs : List Byte) : State :=
  match s.bridgeReq tag with
  | none => s
  | some r =>
    let s1 := s.dropReq tag
    if r.forward then (if ok then s1.forwardDone else s1)
    else if !ok then s1.emit (faultAt r.master)
    else if r.write then s1.emit (.done r.master)
    else s1.emit (.memData r.master bs)

/-- R315, R316: a time message is passed to the servo's writer, unless two sources send. The first source is this
device while its TIME_SRC is set. -/
def State.inTime (s : State) (src stamp : Nat) (corr : Int) : State :=
  let old := s.net.timeSrcs
  let seen := if old.contains src then old else src :: old
  let s1 := { s with net.timeSrcs := seen }
  let first := if s.fb WSK_ID.TIME_SRC 0 then some (s.f WSK_ID.DEV_ID 0) else seen.getLast?
  if first != some src then s1.incSat WSK_STAT.TIME_CONFLICT 0 1
  else if 2 ≤ seen.length then s1
  else s1.emit (.timeToServo stamp corr s.now)

/-- R299: a frame of the tunnelled-Ethernet channel enters switch port 15. -/
def State.inEther (s : State) (bs : List Byte) : State := (s.switchFrame 15 bs).2

/-- A packet for this device is consumed. -/
def State.takePacket (s : State) (c : Cell) : State :=
  match c.body with
  | .time st k => s.inTime c.src st k
  | .completion tag ok bs => s.complete tag ok bs
  | .posted a bs => s.inPosted c.src a bs
  | .nonPosted a tag len d => s.inNonPosted c.src a tag len d
  | .ether bs => s.inEther bs
  | .spread m => s.takeSpread c.src m
  | .more _ => s

/-- A cell for this device is consumed: a packet counts once all its cells have come in order; one that lacks a cell is
discarded (R306, R313). -/
def State.consume (s : State) (c : Cell) : State :=
  let k := 16 * c.src + 2 * c.vc + b2n (c.dest == 0xFFFF)
  let n := NMap.get s.net.parts 0 k
  let put (n : Nat) : State := { s with net.parts := NMap.set s.net.parts 0 k n }
  match c.body with
  | .more _ => put (n + 1)
  | _ => if n + 1 = packetCells c.body then (put 0).takePacket c else put 0

/-- R315: the correction of a time message that passes: minus its ingress time, plus the ingress link's delay; the
egress adds its own time. -/
def State.ingressBody (s : State) (p : Nat) (b : CellBody) : CellBody :=
  match b with
  | .time st k =>
    .time st (k + (s.f WSK_DOZESTAT.LINK_DELAY_NS p : Int) * 65536 - ((s.clock.ns * 65536 + s.clock.frac : Nat) : Int))
  | b => b

/-- A received cell as it waits for its egress. -/
def State.onward (s : State) (p : Nat) (c : Cell) : Cell := { c with ttl := c.ttl - 1, body := s.ingressBody p c.body }

/-- A cell goes on through an egress port, with one hop fewer; it is dropped where it would leave with TTL 0. -/
def State.passOn (s : State) (p q : Nat) (c : Cell) : State :=
  if c.ttl ≤ 1 then s.incSat WSK_STAT.TTL_DROP 0 1
  else s.modWsk q fun w => { w with transit := w.transit ++ [(p, s.onward p c)] }

/-- R312: the ports a received broadcast goes on through; a time source does not pass time messages on (R315). -/
def State.floodOn (s : State) (p : Nat) (c : Cell) : List Nat :=
  match c.body with
  | .time .. => if s.fb WSK_ID.TIME_SRC 0 then [] else s.floodPorts.filter fun q => q != p
  | _ => s.floodPorts.filter fun q => q != p

/-- R310, R312: what a received cell does. -/
def State.accept (s : State) (p : Nat) (c : Cell) : State :=
  if c.dest = 0xFFFF then ((s.consume c).each (s.floodOn p c) fun s q => s.passOn p q c).freeBuf p (s.onward p c)
  else if c.dest = s.f WSK_ID.DEV_ID 0 then (s.consume c).owe p c.vc
  else
    match s.wskRoute c.dest with
    | some q => if c.ttl ≤ 1 then (s.passOn p q c).owe p c.vc else s.passOn p q c
    | none => (s.incSat WSK_STAT.NO_ROUTE 0 1).owe p c.vc

/-- The acknowledgement and the credits that a cell header carries. -/
def State.takeHeader (s : State) (p : Nat) (c : Cell) : State :=
  s.modWsk p fun w =>
    let k := w.unacked.findIdx fun u => u.seq == c.ack
    { w with
      unacked := if k < w.unacked.length then w.unacked.drop (k + 1) else w.unacked
      credits := NMap.set w.credits 0 c.crVc (NMap.get w.credits 0 c.crVc + c.crCells) }

/-- R307: an uncorrectable codeword: the cell is lost, and a cell already being forwarded ends with a bad-cell
marker. -/
def State.badCell (s : State) (p : Nat) (c : Cell) : State :=
  let s1 := if c.dest = 0xFFFF || c.dest = s.f WSK_ID.DEV_ID 0 then s
    else
      match s.wskRoute c.dest with
      | some q => s.emit (.badCell q c)
      | none => s
  if (s1.wport p).replaying then s1 else s1.askReplay p

/-- R310: CELL_RECEIVE. -/
def execCellReceive (p : Nat) (c : Cell) (uncorrectable : Bool) (s : State) : Res :=
  unit s (isPort p)
    (if !s.wskUp p then s
     else if uncorrectable then s.badCell p c
     else if c.seq % 256 != (s.wport p).rxSeq then s
     else
      ((s.modWsk p fun w => { w with rxSeq := (w.rxSeq + 1) % 256, replaying := false }).takeHeader p c).accept p c)

/-! ## Transmission (R308, R309) -/

/-- The next cell of a channel at a port: transit and local cells alternate; a transit cell needs one credit, a
local one two. Answers whether the cell is in transit. -/
def WskSt.pick (w : WskSt) (vc : Nat) : Option (Bool × Nat × Cell) :=
  let cr := NMap.get w.credits 0 vc
  let t := (w.transit.find? fun q => q.2.vc == vc).bind fun q => if 1 ≤ cr then some (true, q.1, q.2) else none
  let l := (w.localQ.find? fun c => c.vc == vc).bind fun c => if 2 ≤ cr then some (false, 0, c) else none
  if NMap.get w.lastTransit 0 vc = 1 then (match l with | some x => some x | none => t)
  else (match t with | some x => some x | none => l)

/-- The body at its egress timestamp (R315). -/
def State.egressBody (s : State) (transit : Bool) (b : CellBody) : CellBody :=
  match b with
  | .time st k =>
    if transit then .time st (k + ((s.clock.ns * 65536 + s.clock.frac : Nat) : Int)) else .time s.clock.ns 0
  | b => b

/-- Remove the first element that a test selects. -/
def dropFirst {α : Type} (g : α → Bool) : List α → List α
  | [] => []
  | x :: xs => if g x then xs else x :: dropFirst g xs

/-- A picked cell leaves with SEQ, ACK and the credits it returns. -/
def State.sendCell (s : State) (p vc : Nat) (x : Bool × Nat × Cell) : State :=
  let w := s.wport p
  let back := (w.owed.head?).map fun o => (o.1, min o.2 15)
  let (cv, cn) := back.getD (0, 0)
  let c : Cell := { x.2.2 with seq := w.txSeq, ack := (w.rxSeq + 255) % 256, crVc := cv, crCells := cn,
                               body := s.egressBody x.1 x.2.2.body }
  let s1 := s.modWsk p fun w =>
    { w with
      credits := NMap.set w.credits 0 vc (NMap.get w.credits 0 vc - 1)
      owed := NMap.set w.owed 0 cv (NMap.get w.owed 0 cv - cn)
      transit := if x.1 then dropFirst (fun q => q.2.vc == vc) w.transit else w.transit
      localQ := if x.1 then w.localQ else dropFirst (fun q => q.vc == vc) w.localQ
      lastTransit := NMap.set w.lastTransit 0 vc (b2n x.1)
      unacked := w.unacked ++ [c], txSeq := (w.txSeq + 1) % 256 }
  (if x.1 then s1.freeBuf x.2.1 x.2.2 else s1).emit (.cell p c)

/-- R307: the unacknowledged cells of a port leave again in order, from a SEQ on. -/
def State.resend (s : State) (p q : Nat) : State :=
  let cs := (s.wport p).unacked
  (cs.drop (cs.findIdx fun c => c.seq == q)).foldl (fun s c => s.emit (.cell p c)) s

/-- R308: CELL_TRANSMIT: a channel sends when no channel ahead of it can, and fewer than 128 cells are unacknowledged;
where the partner asks for replay, the cells it asks for are sent instead (R307). -/
def execCellTransmit (p vc : Nat) (again : Option Nat) (s : State) : Res :=
  unit s (isPort p && decide (vc < 5))
    (let w := s.wport p
     if s.wskUp p && again.isSome then s.resend p (again.getD 0)
     else if !s.wskUp p || 128 ≤ w.unacked.length || (List.range vc).any fun v => (w.pick v).isSome then s
     else
      match w.pick vc with
      | some x => s.sendCell p vc x
      | none => s)

/-! ## Time (R315) -/

/-- R315: TIME_MESSAGE_SEND: the time source sends through every enabled port. -/
def execTimeMessageSend (s : State) : Res :=
  .next (if !s.fb WSK_ID.TIME_SRC 0 then s
    else s.each ((List.range 4).filter fun p => s.fb WSK_PORTCFG.EN p) fun s p =>
      s.wskLocal p { dest := 0xFFFF, src := s.f WSK_ID.DEV_ID 0, vc := 0, ttl := s.f WSK_ID.FLOOD_TTL 0,
                     body := .time s.clock.ns 0 })

/-- R315: LINK_DELAY_MEASURE: the mean of the two directions. -/
def execLinkDelayMeasure (p outNs backNs : Nat) (s : State) : Res :=
  unit s (isPort p) (if s.wskUp p then s.setF WSK_DOZESTAT.LINK_DELAY_NS p ((outNs + backNs) / 2) else s)

end Sys2Proof.Machine
end

