-- ==== Sys2Proof/Machine/Power.lean ====
section
/-! DEFINITION. Clock loss (R15), power modes, reset and boot (R322 to R330, R350, R363, R369), wake sources
(R325, R326), the doze of Weska ports (R317 to R320), and a change of the billet (R340). -/

namespace Sys2Proof.Machine

/-! ## Clock loss -/

/-- A running job whose class needs a lost domain ends with CLOCK_LOST. -/
def State.clockEnds (s : State) (d : Domain) : State :=
  let lose (x : Job) : Bool := x.phase == .running && (d == .fclk || d == .mclk || (d == .aclk && isAttn x.opcode))
  (s.each (s.work.jobs.filter lose) fun s x => s.closeRunOf x).modJobs
    (fun x => x.phase == .running && (d == .fclk || d == .mclk
      || (d == .aclk && ((1 ≤ x.opcode && x.opcode ≤ 5) || x.opcode == 10))))
    fun x => { x with phase := .ended, status := stClockLost, detail := none }

/-- The domain of a caching master: the L2 of a core in its HCLK group, an engine's data cache in ACLK. -/
def cacherDomain : Cacher → Domain
  | .l2 n => if n < 8 then .hclk0 else .hclk1
  | .vec _ => .aclk

/-- R15: the requests that wait in a crossing into a lost domain complete with an error: snoops of the caching masters
there, and bridge requests whose link has lost its clock. -/
def State.clockWaits (s : State) (d : Domain) : State :=
  let gone (q : Snoop) : Bool := d == .fclk || cacherDomain q.target == d
  let behind (q : HomeReq) : Bool := s.mem.snoops.any fun x => gone x && x.line == (q.addr - dramBase) / 128
  let lost := ((s.mem.snoops.filter gone).map fun q => q.req) ++ s.mem.homeQ.filter behind
  let s1 := { s.each lost (fun s q => s.emit (.clockError q.m)) with
    mem.snoops := s.mem.snoops.filter fun q => !gone q
    mem.homeQ := s.mem.homeQ.filter fun q => !behind q }
  if d = .recovered || d = .fclk then
    { s1.each (s1.net.bridge.filter fun r => !r.forward) (fun s r => s.emit (.clockError r.master)) with
      net.bridge := s1.net.bridge.filter fun r => r.forward }
  else s1

/-- R15: CLOCK_LOSS_DETECTED: crossings into the domain close, what waits there ends with an error completion, and the
cause CLK_LOST is raised. -/
def execClockLossDetected (d : Domain) (s : State) : Res :=
  .next (if s.sys.power.lost.contains d then s
    else
      let s1 := (s.modPower fun p => { p with lost := d :: p.lost }).clockEnds d
      let s2 := s1.clockWaits d
      s2.safety SYS_SAFESTAT.CLK_LOST (domainNo d) 0)

/-! ## Reset and power -/

/-- The registers that VDD_AON retains (R350). -/
def aonReg (k : Nat) : Bool :=
  k == Reg.sysPwrctrl.key 0 || k == Reg.sysPwrstat.key 0 || k == Reg.sysStbytime.key 0

/-- The registers of the rendezvous logic, which runs in STANDBY (R317, R325). -/
def wskReg (k : Nat) : Bool :=
  k % 128 == Reg.wskId.num || k % 128 == Reg.wskPortcfg.num || k % 128 == Reg.wskPortstat.num
    || k % 128 == Reg.wskDozestat.num

/-- Everything outside VDD_AON loses its state, but the Cupola's map of retired arrays persists (R141); `doze` keeps the Weska rendezvous logic, `cold` loses VDD_AON too. -/
def State.wipe (s : State) (doze cold : Bool) : State :=
  { s with
    regs := if cold then [] else s.regs.filter fun e => aonReg e.1 || (doze && wskReg e.1)
    clock := {}, mem := {}, work := {}, units := {}, dtu := {}, pix := {}
    net := if doze then { wsk := s.net.wsk } else {}
    sys.fw := []
    sys.record := {}
    sys.store.retired := s.sys.record.retired.foldl insNat s.sys.store.retired
    sys.keptIrqs := []
    sys.mbxTimes := []
    sys.trust := { deviceId := s.sys.trust.deviceId, manufacturing := s.sys.trust.manufacturing } }

/-- R363: the safety outputs are held low. -/
def State.holdSafe (s : State) : State :=
  if s.sys.power.safeHeld then s
  else ((s.modPower fun p => { p with safeHeld := true, safeFlt := false, safeWarn := false }).safePin
    "SAFE_FLT_N" false).safePin "SAFE_WARN_N" false

/-- The outputs are no longer held. -/
def State.releaseSafe (s : State) : State :=
  if s.sys.power.safeHeld then
    ((s.modPower fun p => { p with safeHeld := false }).safePin "SAFE_FLT_N" true).safePin "SAFE_WARN_N" true
  else s

/-- The SOC_PWR_EN output. -/
def State.socPower (s : State) (on : Bool) : State :=
  if s.sys.power.socPwrEn == on then s
  else (s.modPower fun p => { p with socPwrEn := on }).emit (.pin "SOC_PWR_EN" on)

/-- The device is held in reset. -/
def State.toReset (s : State) (cold : Bool) : State :=
  ((s.wipe false cold).modPower fun p => { p with mode := .reset, booted := false }).holdSafe

/-- R323: POWER_UP: from OFF the rails rise; RESET_N is still low. -/
def execPowerUp (s : State) : Res :=
  .next (if s.sys.power.mode = .off then
      ((s.toReset true).modPower fun p => { p with railsUp := true, coldNext := true }).socPower true
    else s)

/-- R350: RESET_ASSERT. -/
def execResetAssert (s : State) : Res := .next (if s.sys.power.mode = .off then s else s.toReset false)

/-- R324: BROWN_OUT of VDD_AON (rail 0) erases what it retains and makes the next start cold; of VDD_SOC (rail 2) it
sets BROWNOUT. VDD_SOC is off in STANDBY. No other rail's fall is a brown-out. -/
def execBrownOut (rail : Nat) (s : State) : Res :=
  unit s (decide (rail < 8))
    (if s.sys.power.mode = .off then s
     else if rail = 0 then (s.toReset true).modPower fun p => { p with coldNext := true, brownNew := false }
     else if rail = 2 && s.sys.power.mode ≠ .standby then
       ((s.toReset false).setF SYS_PWRSTAT.BROWNOUT 0 1).modPower fun p => { p with brownNew := true }
     else s)

/-- R369: THERMAL_SHUTDOWN above 140 °C. -/
def execThermalShutdown (sensor : Nat) (celsius : Int) (s : State) : Res :=
  unit s (decide (sensor < 32))
    (if s.sys.power.mode ≠ .on || celsius ≤ 140 then s
     else ((s.setF SYS_PWRSTAT.THERMAL 0 1).socPower false).toReset false)

/-- R325: POWER_OFF: the supplies are removed. -/
def execPowerOff (s : State) : Res :=
  .next (((s.wipe false true).modPower fun p =>
    { p with mode := .off, booted := false, railsUp := false, coldNext := true, brownNew := false }).holdSafe.socPower
      false)

/-! ## Boot (R329) -/

/-- R230: the table does not verify, its header or COUNT is none of version 1.0, or it names a resource twice or an unknown
class, index or owner. -/
def assignBad (c : BootConfig) : Bool :=
  !c.tableOk || c.magic != 0x4153474E || c.format != 0x0100 || decide (c.assign.length < 1) || decide (512 < c.assign.length)
    || c.assign.any (fun e => decide (classSize e.1 ≤ e.2.1) || decide (10 < e.2.2))
    || !decide ((c.assign.map fun e => (e.1, e.2.1)).Nodup)

/-- The owner field of a resource in SYS_ASSIGN. -/
def State.setOwner (s : State) (cls idx owner : Nat) : State :=
  let i := 2 * cls + idx / 16
  let lo := 4 * (idx % 16)
  s.setR .sysAssign i (putBits (s.r .sysAssign i) (lo + 3) lo owner)

/-- R329 step 2: the assignment registers and the RWL images are written and locked. -/
def State.writeImages (s : State) (c : BootConfig) : State :=
  let s1 := s.each c.assign fun s e => s.setOwner e.1 e.2.1 e.2.2
  let s2 := ((((((s1.setF MEM_CTRL.RATE 0 c.rate).setF MEM_CTRL.CH_CAP 0 c.chCap).setF MEM_CTRL.RANKS 0 c.ranks).setF
    SYS_SAFECFG.ROT 0 c.rot).setF SYS_SAFECFG.TB_PERIOD 0 c.tbPeriod).setF WSK_ID.DEV_ID 0 c.devId).setF
    WSK_ID.TIME_SRC 0 (b2n c.timeSrc)
  let s3 := s2.each (c.tt.take 4).zipIdx fun s e =>
    (((s.setF DSP_TTCFG.DESC_ADDR e.2 (e.1.1 / 64)).setF DSP_TTCFG.EN e.2 (b2n e.1.2.1)).setF DSP_TTCFG.TT_LIMIT e.2
      e.1.2.2.1).modDisp e.2 fun d => { d with ownerInst := e.1.2.2.2 }
  (s3.setF SYS_LOCK.BOOT 0 1).modPower fun p => { p with entry := c.entry }

/-- R158, R340: the newest verified record: of the billet's slots the one with the higher SEQ that carries the REASON
found. -/
def RecordStore.newest (st : RecordStore) (reason : Nat) : FieldRecord :=
  match st.slot0.filter (fun r => r.reason == reason), st.slot1.filter (fun r => r.reason == reason) with
  | some a, some b => if a.seq ≤ b.seq then b else a
  | some a, none => a
  | none, some b => b
  | none, none => {}

/-- R340: a module is paired: the record goes to both slots with its new billet fields. -/
def State.pairBillet (s : State) : State :=
  let p := s.sys.power
  let s1 := (s.modRec fun r =>
      { r with replacements := r.replacements + 1, serial := p.billetSerial, bytes := 0, endurance := p.billetEndurance
        }).logEvent 12 0 0
  let r := s1.sys.record
  ((({ s1 with sys.store := { s1.sys.store with slot0 := some r, slot1 := some r, nextSlot := 0 } }.setF SYS_BILLET.STATE
    0 2).modPower fun q => { q with billetBound := true, billetPwrEn := true }).modRec fun r =>
      { r with bytes := 2 * checkpointBytes }).updateLife

/-- R338: the Crucible checks the billet's binding at the start; R340: a module that is not bound is paired. -/
def State.startBillet (s : State) : State :=
  let p := s.sys.power
  if !p.billetFitted then s.setF SYS_BILLET.STATE 0 0
  else if p.billetForeign then s.setF SYS_BILLET.STATE 0 3
  else if p.billetBound then
    ((s.setF SYS_BILLET.STATE 0 2).modPower fun q => { q with billetPwrEn := true }).updateLife
  else s.pairBillet

/-- R158, R340: the Cupola takes its record; the retirements of the time before stand in it (R141, log entry 183). -/
def State.takeRecord (s : State) (rec : RecordSource) : State :=
  (match rec with
   | .none => s
   | .billet reason => { s with sys.record := s.sys.store.newest reason }
   | .summary => ({ s with sys.record := (s.sys.store.summary.getD {}).fromSummary }).logEvent 12 0 0
   | .norCopy => { s with sys.record := s.sys.store.norCopy.getD {} }).modRec fun r =>
    { r with retired := s.sys.store.retired.foldl insNat r.retired }

/-- R158: a PFW_N record is signed and written back as a periodic checkpoint. -/
def State.signPfw (s : State) : State := if s.sys.record.reason = 2 then s.checkpoint 1 false else s

/-- The counts of a start: OFF-to-ON, brown-outs (R324), thermal trips (R369), and the time in STANDBY (R325). -/
def State.startCounts (s : State) : State :=
  let p := s.sys.power
  let s1 := if p.coldNext then s.recCount 0 else s
  let s2 := if p.brownNew then s1.recCount 3 else s1
  let s3 := if s2.fb SYS_PWRSTAT.THERMAL 0 then (s2.recCount 4).setF SYS_PWRSTAT.THERMAL 0 0 else s2
  let s4 := s3.modRec fun r => { r with stby := r.stby + s3.f SYS_STBYTIME.STBY_SEC 0 }
  (s4.setF SYS_STBYTIME.STBY_SEC 0 0).modPower fun p => { p with coldNext := false, brownNew := false }

/-- R141: the retired-array map is applied; what is left of the two spares are the highest-numbered arrays that are not
retired (log entry 41). -/
def State.applyRetired (s : State) : State :=
  let ret := s.sys.record.retired
  let s1 := s.each allArrays fun s a => if ret.contains a then s.setF ARR_STATUS.STATE a 6 else s
  let good := allArrays.reverse.filter fun a => !ret.contains a
  let sp := good.take (good.length - 32)
  { s1.each sp (fun s a => s.setF ARR_STATUS.STATE a 7) with units.spares := sp }

/-- R235: the digest slots of what a boot runs: the Crucible's firmware, the Cupola, the application cores' monitor and the
assignment table; slot 0 is the ROM's, the others are of firmware that is not loaded yet. -/
def slotDigests (x : BootSlot) : NMap Nat :=
  mapOf [(1, x.crucibleDigest), (2, x.cupolaDigest), (7, x.monitorDigest), (8, x.config.tableDigest)]

/-- R329 steps 3 to 5 after the images: Cupola, field record, memory, real-time cores and application cores. -/
def State.bootRest (s : State) (slot : BootSlot) (rec : RecordSource) : State :=
  let s1 := { s with sys.fw := [(1, { running := true, image := { digest := slot.cupolaDigest } }),
                                (2, { running := true, image := { digest := slot.crucibleDigest } })] }
  let s2 := s1.modTrust fun t => { t with digests := slotDigests slot }
  let s3 := ((s2.takeRecord rec).startBillet).signPfw.startCounts
  let s4 := { s3.applyRetired with sys.store.folded := [] }
  ({ s4 with sys.store.lastPoh := s4.sys.record.poh }.setF MEM_CTRL.READY 0 1).modPower fun p => { p with booted := true }

/-- The boot stops in the ROM with its cause. -/
def State.bootStop (s : State) (err : Nat) : State := (s.setF SYS_BOOTSTAT.BOOT_ERR 0 err).assertFlt

/-- R329: the ROM has taken a slot. -/
def State.bootSlot (s : State) (slot : BootSlot) (rec : RecordSource) : State :=
  if slot.err ≠ 0 then s.bootStop slot.err
  else if assignBad slot.config then s.bootStop 0x12
  else (s.writeImages slot.config).bootRest slot rec

/-- An image verifies, whatever step 2 then finds in its configuration. -/
def slotVerifies (x : BootSlot) : Bool := x.err == 0 || x.err == 0x11 || x.err == 0x12

/-- R320: a device that leaves STANDBY pulls WSK_WAKE of each enabled port for 33 ticks. -/
def State.wakePorts (s : State) : State :=
  s.each ((List.range 4).filter fun p => s.fb WSK_PORTCFG.EN p) fun s p => s.emit (.wakePull p 33)

/-- The state in which RESET_N rises: registers at their reset values, with what VDD_AON keeps, and clocks running. -/
def State.rise (s : State) : State :=
  let s1 := if s.sys.power.mode = .standby then s.wakePorts else s
  ((s1.wipe false s.sys.power.coldNext).modPower fun p =>
    { p with mode := .on, booted := false, lost := [], sclkLost := false, lastPfwNs := none, pfwLatched := false, wakeSeen := false
             safeFlt := false, safeWarn := false, kickNs := 0 }).releaseSafe.socPower true

/-- RESET_N may rise: the rails are up and the device is in reset, leaving STANDBY, or not yet started. -/
def State.mayBoot (s : State) : Bool :=
  let p := s.sys.power
  p.railsUp && (p.mode == .reset || (p.mode == .standby && p.socPwrEn) || (p.mode == .on && !p.booted))

/-- R329: BOOT. When no slot verifies, BOOT_ERR holds what slot B gave (log entry 42). -/
def execBoot (slotA slotB : BootSlot) (rec : RecordSource) (s : State) : Res :=
  .next (if !s.mayBoot then s
    else
      let s1 := s.rise
      if slotVerifies slotA then s1.bootSlot slotA rec
      else
        let s2 := s1.setF SYS_BOOTSTAT.SLOT_A_BAD 0 1
        if slotVerifies slotB then (s2.setF SYS_BOOTSTAT.SLOT 0 1).bootSlot slotB rec else s2.bootStop slotB.err)

/-! ## Wake (R325, R326) -/

/-- A wake source with its cause and unit: the first is recorded in WAKE_CAUSE and raises SOC_PWR_EN, a later one in
WAKE_OTHER. -/
def State.wake (s : State) (cause n : Nat) : State :=
  if s.sys.power.mode ≠ .standby then s
  else if s.sys.power.wakeSeen then
    s.setF SYS_PWRSTAT.WAKE_OTHER 0 (Nat.lor (s.f SYS_PWRSTAT.WAKE_OTHER 0) (2 ^ (cause - 1)))
  else
    (((((s.setF SYS_PWRSTAT.WAKE_CAUSE 0 cause).setF SYS_PWRSTAT.WAKE_UNIT 0 n).setF SYS_PWRSTAT.WAKE_OTHER 0
      0).modPower fun p => { p with wakeSeen := true }).socPower true)

/-- R326: WAKE. -/
def execWake (w : WakeSource) (s : State) : Res :=
  match w with
  | .can c => unit s (decide (c < 20)) (if bit (s.f SYS_PWRCTRL.WAKE_CAN 0) c then s.wake 1 c else s)
  | .eth p => unit s (decide (2 ≤ p) && decide (p < 12)) (if bit (s.f SYS_PWRCTRL.WAKE_ETH 0) (p - 2) then s.wake 2 p else s)
  | .weska p => unit s (isPort p) (if s.fb WSK_PORTCFG.EN p then s.wake 3 p else s)
  | .wakeIn => .next (if s.fb SYS_PWRCTRL.WAKE_IN_EN 0 then s.wake 5 0 else s)

/-- R326: WAKE_TIMER. -/
def execWakeTimer (s : State) : Res :=
  let t := s.f SYS_PWRCTRL.WAKE_SEC 0
  .next (if decide (0 < t) && decide (t ≤ s.f SYS_STBYTIME.STBY_SEC 0) then s.wake 4 0 else s)

/-- R325: STANDBY_SECOND. -/
def execStandbySecond (s : State) : Res :=
  .next (if s.sys.power.mode = .standby then s.incSat SYS_STBYTIME.STBY_SEC 0 1 else s)

/-! ## Doze (R317 to R320) -/

/-- This device is the higher-ID partner of a port. -/
def State.higherId (s : State) (p : Nat) : Bool := decide (s.f WSK_PORTSTAT.PEER_ID p < s.f WSK_ID.DEV_ID 0)

/-- An offset in ns to 1 µs (log entry 43). -/
def toMicro (d : Int) : Int := Int.tdiv d 1000 * 1000

/-- The higher-ID partner records a measured offset and aligns to it. -/
def State.alignDoze (s : State) (p : Nat) (d : Int) : State :=
  if s.higherId p then
    (s.setF WSK_DOZESTAT.LAST_DRIFT_NS p (uint 32 d)).modWsk p fun w => { w with drift := max w.drift d.natAbs }
  else s

/-- A missed rendezvous. -/
def State.missDoze (s : State) (p : Nat) : State :=
  let s1 := s.incSat WSK_PORTSTAT.MISSES p 1
  if s1.f WSK_PORTSTAT.STATE p = 3 then
    (s1.setF WSK_PORTSTAT.STATE p 4).modWsk p fun w => { w with searchLeft := 4, sawLow := false }
  else
    let w := s1.wport p
    let s2 := s1.modWsk p fun w => { w with searchLeft := w.searchLeft - 1 }
    if w.searchLeft = 1 && !w.sawLow then s2.emit (.wakePull p 4) else s2

/-- R317, R318: RENDEZVOUS: each partner sends its burst and listens; a port trained by a search pulse dozes again. -/
def execRendezvous (p : Nat) (caught : Option Int) (s : State) : Res :=
  unit s (isPort p)
    (if s.sys.power.mode ≠ .standby || !s.fb WSK_PORTCFG.DOZE_EN p then s
     else
       let st := s.f WSK_PORTSTAT.STATE p
       if st = 2 then (s.setF WSK_PORTSTAT.STATE p 3).emit (.burst p)
       else if st = 3 || st = 4 then
         let s1 := s.emit (.burst p)
         match caught with
         | some d => (s1.setF WSK_PORTSTAT.STATE p 3).alignDoze p (toMicro d)
         | none => s1.missDoze p
       else s)

/-- R319, R320: WSK_WAKE_PULSE: a dozing or searching port trains and its higher-ID partner measures the offset; a pulse
of 16 ticks or more is a Weska wake. -/
def execWskWakePulse (p ticks : Nat) (driftNs : Int) (s : State) : Res :=
  unit s (isPort p)
    (let st := s.f WSK_PORTSTAT.STATE p
     let s1 := if st = 3 || st = 4 then
         ((s.train p (if s.f WSK_PORTSTAT.WIDTH p = 1 then 2 else 4) (s.f WSK_PORTSTAT.PEER_ID p)).modWsk p fun w =>
           { w with sawLow := true }).alignDoze p (toMicro driftNs)
       else s
     if decide (16 ≤ ticks) && s1.fb WSK_PORTCFG.EN p then s1.wake 3 p else s1)

/-! ## The billet module (R340) -/

/-- R340: BILLET_CHANGE: the module is removed, or one is fitted; the slots of another module hold no record of this
device. -/
def execBilletChange (fitted : Bool) (serial endurance : Nat) (foreign : Bool) (s : State) : Res :=
  let same := s.sys.power.billetSerial == serial
  let s1 := if fitted then
      let s2 := s.modPower fun p =>
        { p with billetFitted := true, billetSerial := serial, billetEndurance := endurance, billetForeign := foreign
                 billetBound := p.billetBound && same && !foreign }
      if same then s2 else { s2 with sys.store := { s2.sys.store with slot0 := none, slot1 := none } }
    else s.modPower fun p => { p with billetFitted := false }
  .next (if s.sys.power.mode = .on then
      s1.setF SYS_BILLET.STATE 0 (if !fitted then 0 else if foreign then 3 else 1)
    else s1)

end Sys2Proof.Machine
end

