-- ==== Sys2Proof/Machine/MemCmd.lean ====
section
/-! DEFINITION. Memory commands: requests of masters at their home slices (R190 to R197, R202, R204), snoops and write-backs
(R203), the patrol (R191), the end of initialisation and of a channel retirement (R205, R210), ladle pieces (R207), and
XFER jobs (R208, R209, R60). -/

namespace Sys2Proof.Machine

/-! ## Masters at the home slices -/

/-- The cache of a caching master (R202). -/
def masterCacher : Master → Option Cacher
  | .core n => some (.l2 n)
  | .vec e => some (.vec e)
  | _ => none

/-- The domain that an answer to a master crosses into, where the table of chapter 01 names it (R15). -/
def masterDomain : Master → Option Domain
  | .core n => some (cacherDomain (.l2 n))
  | .vec _ => some .aclk
  | .rt _ => some .tclk
  | .crucible => some .kclk
  | .host _ _ => some .recovered
  | _ => none

/-- The usable line of a request. -/
def HomeReq.line (q : HomeReq) : Nat := (q.addr - dramBase) / 128

/-- Another caching master holds the line in M or E (R202). -/
def State.snoopTarget (s : State) (m : Master) (l : Nat) : Option Cacher :=
  (s.mem.holders.find? fun h => h.line == l && h.st != .s && some h.who != masterCacher m).map fun h => h.who

/-- The holder that a request snoops; a write of a whole line needs no other value of the line (R193). -/
def State.snoopFor (s : State) (q : HomeReq) : Option Cacher :=
  if q.write.any fun bs => bs.length == 128 then none else s.snoopTarget q.m q.line

/-- R202: a caching master that reads a line holds it: alone in E, else in S. -/
def State.fillHolder (s : State) (m : Master) (l : Nat) : State :=
  match masterCacher m with
  | some c =>
    if s.mem.holders.any fun h => h.line == l && h.who == c then s
    else
      { s with mem.holders :=
          { who := c, line := l, st := if s.mem.holders.any (fun h => h.line == l) then .s else .e } :: s.mem.holders }
  | none => s

/-- A request is served at its home: from the slice, or from memory with its checks (R191 to R197). -/
def State.serve (s : State) (q : HomeReq) : State :=
  let part := s.partOf q.m
  match q.write with
  | none =>
    match s.dramGet part q.addr q.bytes q.line with
    | (.ok bs, s1) => (s1.emit (.memData q.m bs)).fillHolder q.m q.line
    | (.clock, s1) => s1.emit (.clockError q.m)
    | (_, s1) => s1.emit (.poisoned q.m)
  | some bs =>
    match s.dramPut part q.addr bs q.line with
    | (.ok _, s1) => s1.emit (.done q.m)
    | (.clock, s1) => s1.emit (.clockError q.m)
    | (_, s1) => s1.emit (.poisoned q.m)

/-- R202 to R204: the home takes the transactions of a line one at a time, in arrival order. A request snoops a holder in M
or E, for which it holds a tracker of its channel; a request behind it, or without a tracker, waits. -/
def State.arrive (s : State) (q : HomeReq) : State :=
  let wait : State := { s with mem.homeQ := s.mem.homeQ ++ [q] }
  if (s.mem.snoops.any fun x => x.line == q.line) || s.mem.homeQ.any fun x => x.line == q.line then wait
  else
    match s.snoopFor q with
    | none => s.serve q
    | some c =>
      if s.trackerFree (s.chanFor (128 * q.line)) then
        { s with mem.snoops := s.mem.snoops ++ [{ target := c, line := q.line, req := q }] }
      else wait

/-- The requests that waited arrive again, in order. -/
def State.drainHome (s : State) : State := s.mem.homeQ.foldl State.arrive { s with mem.homeQ := [] }

/-- What the memory devices have turned over in the block of a line, and in that of its copy, is now stored. -/
def State.found (s : State) (l : Nat) (errs : BurstErrs) : State :=
  let s1 := s.addFlips l errs.data errs.check
  match s1.copyLine? l with
  | some c => s1.addFlips c errs.copyData errs.copyCheck
  | none => s1

/-- R190, R194, R195, R197, R202: a request of a master for at most one line of DRAM passes its gate and reaches its home. -/
def State.dramReq (s : State) (q : HomeReq) (errs : BurstErrs) : State :=
  if s.clockLost .fclk || (masterDomain q.m).any s.clockLost then s.emit (.clockError q.m)
  else if s.carved (q.addr - dramBase) then s.emit (.xlateFault q.m)
  else ((s.gateReq (s.partOf q.m) q.bytes).found q.line errs).arrive q

/-- A read of at most one line. -/
def State.dramRead (s : State) (m : Master) (pa n : Nat) (errs : BurstErrs) : State :=
  s.dramReq { m := m, addr := pa, bytes := min n (128 - pa % 128) } errs

/-- A write of at most one line. -/
def State.dramWrite (s : State) (m : Master) (pa : Nat) (data : List Byte) (errs : BurstErrs) : State :=
  let bs := data.take (128 - pa % 128)
  s.dramReq { m := m, addr := pa, bytes := bs.length, write := some bs } errs

/-! ## The patrol (R191) -/

/-- The lines of a block that exist. -/
def State.blockLines (s : State) (b : Nat) : List Nat :=
  ((List.range 7).filterMap fun j => blockLine b j).filter fun l => decide (128 * l < s.usable)

/-- R191: PATROL_SCRUB of a block, numbered 8 × block + channel: each line that is not poisoned is read and corrected. -/
def execPatrolScrub (block : Nat) (errs : BurstErrs) (s : State) : Res :=
  .next (if !s.fb MEM_CTRL.READY 0 || s.clockLost .mclk then s
    else
      match s.blockLines block with
      | [] => s
      | l :: ls =>
        (s.found l errs).each (l :: ls) fun s k => if s.mem.poison.contains k then s else (s.dramLine k).2)

/-! ## Coherence (R203) -/

/-- The device has the caching master. -/
def cacherOk : Cacher → Bool
  | .l2 n => decide (n < 16)
  | .vec e => decide (e < 16)

/-- Entries of a write-back buffer. -/
def wbSize : Cacher → Nat
  | .l2 _ => 16
  | .vec _ => 8

/-- The partition of a caching master. -/
def State.cacherPart (s : State) : Cacher → Nat
  | .l2 _ => 8
  | .vec e => s.f VEC_STATUS.FLASK e

/-- A line supplied by a cache is placed in the slice as dirty. -/
def State.placeLine (s : State) (c : Cacher) (l : Nat) (bs : List Byte) : State :=
  (s.store (128 * l + dramBase) ((bs ++ List.replicate 128 0).take 128)).touch (s.cacherPart c) l true

/-- A master leaves the snoop filter's record of a line. -/
def State.clearHolder (s : State) (c : Cacher) (l : Nat) : State :=
  { s with mem.holders := s.mem.holders.filter fun h => !(h.line == l && h.who == c) }

/-- R203: WRITE_BACK: stale when a snoop to the master is outstanding or the filter no longer lists it; otherwise
accepted. -/
def State.takeWriteBack (s : State) (c : Cacher) (l : Nat) (data : Option (List Byte)) : State :=
  let e : WbEntry := { who := c, line := l, data := data }
  let add (s : State) (e : WbEntry) : State := { s with mem.wbs := s.mem.wbs ++ [e] }
  if s.mem.snoops.any fun q => q.target == c && q.line == l then add s { e with stale := true }
  else if s.mem.holders.any fun h => h.line == l && h.who == c then
    let s1 := match data with
      | some bs => s.placeLine c l bs
      | none => s
    add (s1.clearHolder c l) { e with acked := true }
  else add s { e with stale := true, acked := true }

/-- R203: WRITE_BACK; a master with a full buffer sends none. -/
def execWriteBack (c : Cacher) (line : Nat) (data : Option (List Byte)) (s : State) : Res :=
  unit s (cacherOk c)
    (if decide (wbSize c ≤ (s.mem.wbs.filter fun e => e.who == c).length) || decide (s.usable ≤ 128 * line) then s
     else s.takeWriteBack c line data)

/-- R203: what a snoop finds: the buffer entry of an eviction under way answers it, with its data and EVICTING. -/
def State.snoopAnswer (s : State) (c : Cacher) (l : Nat) (data : Option (List Byte)) (evicting : Bool) :
    Option (List Byte) × Bool :=
  match s.mem.wbs.find? fun e => e.who == c && e.line == l && !e.acked with
  | some e => (e.data, true)
  | none => (data, evicting)

/-- R203: SNOOP_RESPONSE: the home takes the line's value, acknowledges a parked write-back, and serves what waited. -/
def State.takeSnoop (s : State) (c : Cacher) (l : Nat) (data : Option (List Byte)) (evicting : Bool) : State :=
  match s.mem.snoops.find? fun q => q.target == c && q.line == l with
  | none => s
  | some q =>
    let a := s.snoopAnswer c l data evicting
    let s1 := { s with mem.snoops := s.mem.snoops.filter fun q => !(q.target == c && q.line == l) }
    let s2 := match a.1 with
      | some bs => s1.placeLine c l bs
      | none => s1
    let s3 := if a.2 then s2.clearHolder c l
      else { s2 with mem.holders := s2.mem.holders.map fun h => if h.line = l && h.who = c then { h with st := .s } else h }
    let s4 := { s3 with mem.wbs := s3.mem.wbs.map fun (e : WbEntry) =>
      if e.who = c && e.line = l && e.stale then { e with acked := true } else e }
    (s4.serve q.req).drainHome

/-- R203: SNOOP_RESPONSE. -/
def execSnoopResponse (c : Cacher) (line : Nat) (data : Option (List Byte)) (evicting : Bool) (s : State) : Res :=
  unit s (cacherOk c) (s.takeSnoop c line data evicting)

/-- R203: WRITE_BACK_ACK frees the buffer entry. -/
def execWriteBackAck (c : Cacher) (line : Nat) (s : State) : Res :=
  unit s (cacherOk c)
    { s with mem.wbs := s.mem.wbs.filter fun e => !(e.who == c && e.line == line && e.acked) }

/-! ## Initialisation and retirement -/

/-- R210: MEMORY_READY. -/
def execMemoryReady (s : State) : Res :=
  .next (if s.fb MEM_CTRL.INIT 0 then (s.setF MEM_CTRL.READY 0 1).setF MEM_CTRL.INIT 0 0 else s)

/-- R205: granules of a retirement are still to be copied. -/
def State.retiring (s : State) : Bool := s.mem.moves.any fun m => match m.kind with
  | .retire _ => true
  | _ => false

/-- R205: RETIRE_DONE: the last granule is redirected. -/
def execRetireDone (s : State) : Res :=
  .next (if s.fb MEM_CTRL.RETIRE 0 && !s.retiring then (s.setF MEM_CTRL.RETIRED 0 1).setF MEM_CTRL.RETIRE 0 0 else s)

/-- R207: a piece of a move ends; a move without a ladle has no piece in progress. -/
def pieceDone (mv : Nat) (s : State) : State :=
  match s.mem.moves.find? fun x => x.id == mv && x.ladle with
  | some x => s.ladlePiece x
  | none => s

/-- R207: LADLE_PIECE_DONE. -/
def execLadlePieceDone (mv : Nat) (s : State) : Res := .next (pieceDone mv s.dealLadles)

/-! ## XFER jobs (R208, R209) -/

/-- Bytes of a piece of a job. -/
def xferPiece : Nat := 65536

/-- The lower of two optional offsets. -/
def minOff (a : Option Nat) (b : Nat) : Option Nat := some (match a with | none => b | some x => min x b)

/-- An error of a job at an offset: its lowest TRANSLATION_FAULT, INTEGRITY_FAIL, or its first refused window write. -/
def State.xferX (s : State) (j o : Nat) : State := s.modJob j fun x => { x with errX := minOff x.errX o }
def State.xferI (s : State) (j o : Nat) : State := s.modJob j fun x => { x with errI := minOff x.errI o }
def State.xferB (s : State) (j o : Nat) : State := s.modJob j fun x => { x with errB := x.errB.orElse fun _ => some o }

/-- R355: the array and the command index that an offset of the command-store windows reaches. -/
def State.winTarget (s : State) (o : Nat) : Option Nat × Nat := (s.arrOf (o / 0x10000 / 32) (o / 0x10000 % 32), o % 0x10000 / 16)

/-- The command of an index lies in a half that CUR or NEXT names while it is valid. -/
def State.liveHalf (s : State) (a k : Nat) : Bool :=
  let h := k / 2048
  (s.fb ARR_PROG.CUR_VALID a && s.f ARR_PROG.CUR_HALF a == h) || (s.fb ARR_PROG.NEXT_VALID a && s.f ARR_PROG.NEXT_HALF a == h)

/-- R60: a 64-byte write into a command-store window. -/
def State.cmdWrite (s : State) (j o : Nat) (bs : List Byte) : State :=
  match s.winTarget o with
  | (none, _) => s.xferB j (o % 0x10000)
  | (some a, k) =>
    if s.liveHalf a k then ((s.setF ARR_STATUS.PROG_BUSY a 1).incSat ARR_PERF.REFUSED a 1).xferB j (o % 0x10000)
    else
      s.modArr a fun x =>
        let st := (List.range 4).foldl (fun (m : NMap Nat) i => NMap.set m 0 (k + i) (leAt bs (16 * i) 16)) x.store
        { x with store := st }

/-- A line is left poisoned in memory: no copy of it remains valid. -/
def State.poisonDest (s : State) (pa : Nat) : State :=
  match s.place pa with
  | .dram u =>
    (({ s with mem.cache := s.mem.cache.filter fun c => c.line != u / 128 }).updateOcc.dropHolders (u / 128)).poisonLine
      (u / 128)
  | _ => s

/-- The bytes of one destination line go to memory, or to a command-store window. -/
def State.xferPut (s : State) (j inst o va : Nat) (bs : List Byte) : State :=
  match s.xlate inst va true with
  | (none, s1) => s1.xferX j o
  | (some pa, s1) =>
    match s1.place pa with
    | .cmdWin w =>
      s1.each (List.range (bs.length / 64)) fun s k => s.cmdWrite j (w + 64 * k) ((bs.drop (64 * k)).take 64)
    | _ =>
      match lineWrite s1 (s1.instFlask inst) pa bs (some inst) with
      | (.ok _, s2) => s2
      | (.xlate, s2) => s2.xferX j o
      | (.integ, s2) => s2.xferI j o
      | (.clock, s2) => s2.endJob j stClockLost none

/-- R209: one destination line of a copy: a poisoned source leaves it poisoned. -/
def State.copyLine (s : State) (j inst src dst : Nat) (c : Nat × Nat) : State :=
  let o := c.1 - dst
  let parts := (List.range (c.2 / 64)).map fun k => 64 * k
  let (bs, bad, s1) := parts.foldl (fun (acc : List Byte × Option (Nat × MRes) × State) k =>
      match instRead acc.2.2 inst (src + o + k) 64 with
      | (.ok b, t) => (acc.1 ++ b, acc.2.1, t)
      | (e, t) => (acc.1 ++ List.replicate 64 0, acc.2.1.orElse (fun _ => some (o + k, e)), t)) ([], none, s)
  match bad with
  | none => s1.xferPut j inst o c.1 bs
  | some (k, .integ) =>
    match s1.xlate inst c.1 true with
    | (some pa, s2) => (s2.poisonDest pa).xferI j k
    | (none, s2) => s2.xferX j o
  | some (_, .clock) => s1.endJob j stClockLost none
  | some (k, _) => s1.xferX j k

/-- The translations of a range of at most 4 KB all pass. -/
def State.xlateOk (s : State) (inst va n : Nat) (write : Bool) : Bool × State :=
  match s.xlate inst va write with
  | (none, s1) => (false, s1)
  | (some _, s1) =>
    if va / 4096 = (va + n - 1) / 4096 then (true, s1)
    else
      match s1.xlate inst (va + n - 1) write with
      | (some _, s2) => (true, s2)
      | (none, s2) => (false, s2)

/-- The offsets of the 4 KB units of a range from `lo` up to `hi`. -/
def unitsOf (lo hi : Nat) : List Nat := (List.range (cdiv (hi - lo) 4096)).map fun k => lo + 4096 * k

/-- R209: a 4 KB unit of a plain copy. -/
def State.copyUnit (s : State) (x : Job) (o : Nat) : State :=
  let n := min 4096 (xfLen x - o)
  match s.xlateOk x.inst (xfSrc x + o) n false with
  | (false, s1) => s1.xferX x.id o
  | (true, s1) =>
    match s1.xlateOk x.inst (xfDst x + o) n true with
    | (false, s2) => s2.xferX x.id o
    | (true, s2) => s2.each (chunksOf (xfDst x + o) n) fun s c => s.copyLine x.id x.inst (xfSrc x) (xfDst x) c

/-- The job stops at a unit. -/
def State.xferStop (s : State) (j status o : Nat) : State :=
  (s.modJob j fun x => { x with stop := true }).endJob j status (some o)

/-- R209, R234: the pieces of memory that an encrypted unit uses: ciphertext or plaintext and, of the side that holds them,
its record. All translations pass, or the unit is neither read nor written. -/
def State.unitOk (s : State) (x : Job) (o : Nat) : Bool × State :=
  let rc := xfLen x + 32 * (o / 4096)
  let dec := xfCrypt x == 1
  [(xfSrc x + o, 4096, false), (xfDst x + o, 4096, true),
    (if dec then (xfSrc x + rc, 32, false) else (xfDst x + rc, 32, true))].foldl
    (fun acc p => if acc.1 then acc.2.xlateOk x.inst p.1 p.2.1 p.2.2 else acc) (true, s)

/-- The lines of a unit are read in order; with the first that fails comes its offset in the move. -/
def unitRead (inst base : Nat) : List (Nat × Nat) → State → Except (Nat × MRes) (List Byte) × State
  | [], s => (.ok [], s)
  | c :: cs, s =>
    match instRead s inst c.1 c.2 with
    | (.ok bs, s1) =>
      match unitRead inst base cs s1 with
      | (.ok r, s2) => (.ok (bs ++ r), s2)
      | r => r
    | (e, s1) => (.error (c.1 - base, e), s1)

/-- A unit that cannot be processed because of a read at an offset: a refused translation leaves it, a poisoned source
poisons its destination. -/
def State.unitError (s : State) (x : Job) (o k : Nat) (e : MRes) : State :=
  match e with
  | .xlate => s.xferX x.id k
  | .clock => s.endJob x.id stClockLost none
  | _ =>
    (s.each (chunksOf (xfDst x + o) 4096) fun s c =>
      match s.xlate x.inst c.1 true with
      | (some pa, s1) => s1.poisonDest pa
      | (none, s1) => s1.xferX x.id (c.1 - xfDst x)).xferI x.id k

/-- The lines of a unit are written in order, each like a line of a plain copy (R60, R197). -/
def State.unitWrite (s : State) (x : Job) (base va : Nat) (bs : List Byte) : State :=
  s.each (chunksOf va bs.length) fun s c => s.xferPut x.id x.inst (c.1 - base) c.1 ((bs.drop (c.1 - va)).take c.2)

/-- R209, R233, R234: a unit is decrypted; one that does not authenticate is not written and stops the job. -/
def State.openCopy (s : State) (x : Job) (o : Nat) : State :=
  let f := s.jobFlask x
  if (s.slotMaterial f (xfKey x)).isNone then s.xferStop x.id stAborted o
  else
    match unitRead x.inst (xfSrc x) (chunksOf (xfSrc x + o) 4096) s with
    | (.ok ct, s1) =>
      match instRead s1 x.inst (xfSrc x + xfLen x + 32 * (o / 4096)) 32 with
      | (.ok rc, s2) =>
        match s2.openUnit f (xfKey x) ct rc with
        | some p => s2.unitWrite x (xfDst x) (xfDst x + o) p
        | none => s2.xferStop x.id stInteg o
      | (e, s2) => s2.unitError x o o e
    | (.error (k, e), s1) => s1.unitError x o k e

/-- R234: a unit is encrypted and its record written; an error of the record counts at its unit. -/
def State.sealCopy (s : State) (x : Job) (o : Nat) : State :=
  match unitRead x.inst (xfSrc x) (chunksOf (xfSrc x + o) 4096) s with
  | (.ok pl, s1) =>
    match s1.sealUnit (s.jobFlask x) (xfKey x) pl with
    | (none, s2) => s2.xferStop x.id stAborted o
    | (some (ct, rc), s2) =>
      let va := xfDst x + xfLen x + 32 * (o / 4096)
      (s2.unitWrite x (xfDst x) (xfDst x + o) ct).unitWrite x (va - o) va rc
  | (.error (k, e), s1) => s1.unitError x o k e

/-- A unit under CRYPT. -/
def State.cryptUnit (s : State) (x : Job) (o : Nat) : State :=
  match s.unitOk x o with
  | (false, s1) => s1.xferX x.id o
  | (true, s1) => if xfCrypt x == 1 then s1.openCopy x o else s1.sealCopy x o

/-- A unit of a copy, unless the job has stopped. -/
def State.xferUnit (s : State) (x : Job) (o : Nat) : State :=
  if (s.job x.id).any fun y => y.stop || y.phase != .running then s
  else
    if xfCrypt x == 0 then s.copyUnit x o else s.cryptUnit x o

/-- R209: a unit of a fill. -/
def State.fillUnit (s : State) (x : Job) (o : Nat) : State :=
  let n := min 4096 (xfLen x - o)
  match s.xlateOk x.inst (xfDst x + o) n true with
  | (false, s1) => s1.xferX x.id o
  | (true, s1) =>
    s1.each (List.range (n / 128)) fun s k =>
      s.xferPut x.id x.inst (o + 128 * k) (xfDst x + o + 128 * k) ((List.range 16).flatMap fun _ => toLE 8 (xfFill x))

/-- The job's status once every piece has completed: a refused translation before a failed line before a refused window
write (log entry 46). -/
def Job.xferStatus (x : Job) : Nat × Option Nat :=
  match x.errX, x.errI, x.errB with
  | some o, _, _ => (stXlate, some o)
  | none, some o, _ => (stInteg, some o)
  | none, none, some o => (stProgBusy, some o)
  | none, none, none => (stOk, none)

/-- A piece has completed; the last one ends the job. -/
def State.pieceEnd (s : State) (j piece total : Nat) : State :=
  let s1 := s.modJob j fun x => { x with doneParts := insNat x.doneParts piece }
  match s1.job j with
  | some x => if total ≤ x.doneParts.length then s1.endJob j x.xferStatus.1 x.xferStatus.2 else s1
  | none => s1

/-- R206, R208: a piece of a running XFER job that holds a ladle for it, which is free again at its end. Encrypted pieces
are taken in order (log entry 46). -/
def State.xferGo (s : State) (x : Job) (op piece : Nat) (g : State → Nat → State) : State :=
  let total := cdiv (xfLen x) xferPiece
  if xfOp x != op || x.doneParts.contains piece || decide (total ≤ piece) || x.ladles == 0
      || (xfCrypt x != 0 && x.doneParts.length != piece) then s
  else
    (((s.each (unitsOf (xferPiece * piece) (min (xfLen x) (xferPiece * (piece + 1)))) g).modJob x.id fun y =>
      { y with ladles := y.ladles - 1 }).pieceEnd x.id piece total).dealLadles

/-- Ladles are dealt (R207), then the piece runs. -/
def xferPieceGo (j op piece : Nat) (g : Job → State → Nat → State) (s : State) : State :=
  s.runningJob j 9 fun x => s.xferGo x op piece (g x)

/-- R209: XFER_COPY. -/
def execXferCopy (j piece : Nat) (s : State) : Res :=
  .next (xferPieceGo j 0 piece (fun x s o => s.xferUnit x o) s.dealLadles)

/-- R209: XFER_FILL. -/
def execXferFill (j piece : Nat) (s : State) : Res :=
  .next (xferPieceGo j 1 piece (fun x s o => s.fillUnit x o) s.dealLadles)

end Sys2Proof.Machine
end

