-- ==== Sys2Proof/Machine/Flasks.lean ====
section
/-! DEFINITION. Creating and destroying flasks (R160 to R162), shakeout and firmware clearing (R219, R220). -/

namespace Sys2Proof.Machine

/-- The device's flasks. -/
def isFlask (f : Nat) : Bool := decide (f < 8)

/-! ## Units of a flask -/

/-- The units that SYS_FLRES names, by physical number. -/
def State.namedArrays (s : State) (f : Nat) : List Nat := arrayIds.filter fun i => bit (s.f SYS_FLRES.ARRAYS f) i
def State.namedVecs (s : State) (f : Nat) : List Nat := vecIds.filter fun i => bit (s.f SYS_FLRES.VECS f) i
def State.namedRts (s : State) (f : Nat) : List Nat := rtIds.filter fun i => bit (s.f SYS_FLRES.RTCORES f) i

/-- Another flask in STATE 2h to 4h owns the runner. -/
def State.runnerTaken (s : State) (f : Nat) : Bool :=
  (List.range 8).any fun g => g != f && s.fb SYS_FLRES.RUNNER g && decide (2 ≤ s.f SYS_FLCTRL.STATE g)

/-- An array that a flask may not be given: a spare, whether or not it has been mapped in (R19), withdrawn or retired, or
owned by a flask. -/
def State.arrayUnfit (s : State) (a : Nat) : Bool :=
  s.units.spares.contains a || decide (5 ≤ s.f ARR_STATUS.STATE a) || s.f ARR_STATUS.FLASK a != 15

/-- R160, R149: CREATE is refused; `s` holds SYS_FLCTRL as the write would leave it. A withdrawn engine, core or runner is in
no pool that a flask could be given it from (R161, R152). -/
def State.createBad (s : State) (f : Nat) : Bool :=
  s.f SYS_FLCTRL.STATE f != 1 || s.units.tbFailed
    || (s.namedArrays f).any s.arrayUnfit
    || (s.namedVecs f).any (fun e => s.f VEC_STATUS.FLASK e != 15 || s.f VEC_STATUS.STATE e == 5)
    || (s.namedRts f).any (fun c => (s.rt c).flask.isSome || (s.rt c).withdrawn)
    || (s.fb SYS_FLRES.RUNNER f && (s.runnerTaken f || s.units.runnerOut))
    || (s.fb SYS_FLCTRL.STANDBY_EN f
        && (!s.fb SYS_FLCTRL.TIMED f || decide ((s.namedRts f).length ≤ s.f SYS_FLCTRL.STANDBY_RT f)))
    || (s.fb SYS_FLCTRL.TIMED f && (decide (s.f MEM_LRES.MIN f < 2) || decide (s.f DTU_WALK.MIN f < 4)))

/-- R160: an accepted CREATE: STATE 2h, and the named units get their logical numbers in ascending physical order. An
array that is given to a flask starts its saturation window anew (R82), and a lent tile that it has not begun goes back. -/
def State.createFlask (s : State) (f : Nat) : State :=
  let s1 := (s.setF SYS_FLCTRL.CREATE f 0).setF SYS_FLCTRL.STATE f 2
  let s2 := s1.each (s.namedArrays f).zipIdx fun s p =>
    ((((s.giveBack p.1).setF ARR_STATUS.FLASK p.1 f).setF ARR_STATUS.LOGICAL p.1 p.2).setF ARR_SATWIN.WIN_VALUES p.1 0).setF
      ARR_SATWIN.WIN_SAT p.1 0
  let s3 := s2.each (s.namedVecs f).zipIdx fun s p =>
    (s.setF VEC_STATUS.FLASK p.1 f).setF VEC_STATUS.LOGICAL p.1 p.2
  (s3.each (s.namedRts f).zipIdx fun s p =>
    s.modRt p.1 fun x => { x with flask := some f, logical := p.2 }).modFlask f fun x => { x with fwClear := false }

/-! ## Shakeout (R219) -/

/-- The arrays, engines and cores that a flask holds. -/
def State.heldArrays (s : State) (f : Nat) : List Nat := arrayIds.filter fun a => s.f ARR_STATUS.FLASK a == f
def State.heldRts (s : State) (f : Nat) : List Nat := rtIds.filter fun c => (s.rt c).flask == some f

/-- The registers and caches of a core are cleared, with the windows and logs of its tasks; at DESTROY also its
tightly-coupled memory. -/
def State.shakeRt (s : State) (destroy : Bool) (c : Nat) : State :=
  s.modRt c fun x =>
    { x with task := none, started := false, firsts := [], reg := [], data := [], tcm := if destroy then none else x.tcm }

/-- The runner's stores are cleared. -/
def State.shakeRunner (s : State) : State := { s with pix.planCount := 0, pix.nodes := [], pix.runKept := none }

/-- The cache lines in a flask's ways are invalidated and their data zeroed. -/
def State.shakeWays (s : State) (f : Nat) : State :=
  ({ s with mem.cache := s.mem.cache.filter fun c => !bit (s.f MEM_CWAYS.WAYS f) c.way }).updateOcc

/-- R219: the compute state of a flask and its cache ways are cleared, with the data caches and saved contexts of its
engines, and the runner's stores when the flask owns it. -/
def State.shakeFlask (s : State) (f : Nat) : State :=
  let es := s.engines f
  let destroy := s.f SYS_FLCTRL.STATE f == 4
  let s1 := ((s.each (s.heldArrays f) State.shakeArray).each es State.shakeVec).each (s.heldRts f) fun s c =>
    s.shakeRt destroy c
  let s2 := { s1 with units.saved := s1.units.saved.filter fun k => !(s1.job k.it.job).any fun x => s1.jobFlask x == f }
  (if s2.fb SYS_FLRES.RUNNER f then s2.shakeRunner else s2).shakeWays f

/-- A flask loses its resources in the registers and is free. -/
def State.freeFlask (s : State) (f : Nat) : State :=
  ((((s.setR .sysFlres f 0).setF MEM_CWAYS.WAYS f 0).setF ATT_FSLICE.CTX_COUNT f 0).setF SYS_FLCTRL.DESTROY f 0).setF
    SYS_FLCTRL.STATE f 0

/-- The units that a flask holds return to the pool. -/
def State.returnUnits (s : State) (f : Nat) : State :=
  let s1 := s.each (s.heldArrays f) fun s a => (s.setF ARR_STATUS.FLASK a 15).setF ARR_STATUS.LOGICAL a 0xFF
  let s2 := s1.each (s1.engines f) fun s e => (s.setF VEC_STATUS.FLASK e 15).setF VEC_STATUS.LOGICAL e 0xFF
  s2.each (s2.heldRts f) fun s c => s.modRt c fun x => { x with flask := none, logical := 0 }

/-- R161, R232, R236: the end of a destroy: key slots emptied, consent ended, units returned, ACCT and LAG cleared. -/
def State.endDestroy (s : State) (f : Nat) : State :=
  ((((s.returnUnits f).modFlask f fun _ => {}).setF SYS_FLSHARE.ACCT f 0).setF POUR_FLAG.LAG f 0).freeFlask f

/-- The end of a shakeout whose units all read back as zero. -/
def State.endShake (s : State) (f : Nat) : State :=
  if s.f SYS_FLCTRL.STATE f = 2 then s.setF SYS_FLCTRL.STATE f 3 else s.endDestroy f

/-- A unit belongs to a flask. -/
def State.unitHeld (s : State) (f : Nat) : TBUnit → Bool
  | .array a => s.f ARR_STATUS.FLASK a == f
  | .vec e => s.f VEC_STATUS.FLASK e == f
  | .rt c => (s.rt c).flask == some f
  | .runner => s.fb SYS_FLRES.RUNNER f

/-- The flask shakes out, and none of its arrays still ends a lent tile (R180). -/
def State.shaking (s : State) (f : Nat) : Bool :=
  (s.f SYS_FLCTRL.STATE f == 2 || s.f SYS_FLCTRL.STATE f == 4)
    && !(s.heldArrays f).any fun a => (s.arr a).job.isSome

/-- The arrays of a list that no flask owns and that hold no program: those whose shakeout at a change of the flask of R178,
a withdrawal or a retirement may just have ended. -/
def State.clearedArrays (s : State) (us : List TBUnit) : List Nat :=
  us.filterMap fun u => match u with
    | .array a => if a < 34 && s.f ARR_STATUS.FLASK a == 15 && (s.arr a).job.isNone && !s.fb ARR_PROG.NEXT_VALID a then some a
        else none
    | _ => none

/-- R219, R220: the read-back of a shakeout outside CREATE and DESTROY failed on some arrays, which firmware then clears; a
lent array stays unassigned. -/
def State.poolShakeout (s : State) (failed : List TBUnit) : State :=
  s.each (s.clearedArrays failed) fun s a =>
    (s.giveBack a).modArr a fun x => { x with slice := none, lastFlask := none, clearing := true }

/-- R219: the hardware shakeout of a flask ends. -/
def State.flaskShakeout (s : State) (f : Nat) (failed : List TBUnit) : State :=
  if !s.shaking f || (s.flask f).fwClear then s
  else
    let s1 := s.shakeFlask f
    if failed.any (s1.unitHeld f) then s1.modFlask f fun x => { x with fwClear := true } else s1.endShake f

/-- R219: SHAKEOUT_DONE; units whose read-back failed are left to the firmware. Flask number Fh speaks of arrays that no
flask owns (DESIGN CHOICE, log entry 186). -/
def execShakeoutDone (f : Nat) (failed : List TBUnit) (s : State) : Res :=
  unit s (isFlask f || f == 15) (if f = 15 then s.poolShakeout failed else s.flaskShakeout f failed)

/-- A unit that firmware could not clear is withdrawn with STATE 5h, and the event is logged. -/
def State.withdrawUnit (s : State) (u : TBUnit) : State :=
  let (c, s0) := s.fresh
  match u with
  | .array a =>
    (((s0.setF ARR_STATUS.STATE a (if s.f ARR_STATUS.STATE a = 6 then 6 else 5)).setF ARR_STATUS.FLASK a 15).setF
      ARR_STATUS.LOGICAL a 0xFF).logEvent (c % 65536) a 0
  | .vec e => (s0.withdrawVec e).logEvent (c % 65536) e 0
  | .rt k => (s0.modRt k fun x => { x with withdrawn := true, flask := none, logical := 0 }).logEvent (c % 65536) k 0
  | .runner => ({ s0 with units.runnerOut := true }).logEvent (c % 65536) 0 0

/-- R220: the firmware has cleared arrays that no flask owns. -/
def State.poolClear (s : State) (failed : List TBUnit) : State :=
  s.each (arrayIds.filter fun a => (s.arr a).clearing) fun s a =>
    let s1 := (s.shakeArray a).modArr a fun x => { x with clearing := false }
    if failed.contains (.array a) then s1.withdrawUnit (.array a) else s1

/-- R220: the firmware has cleared a flask's units: one that still fails is withdrawn; a CREATE then returns to STATE 1h, a
DESTROY completes. -/
def State.flaskClear (s : State) (f : Nat) (failed : List TBUnit) : State :=
  if !s.shaking f || !(s.flask f).fwClear then s
  else
    let bad := failed.filter (s.unitHeld f)
    let s1 := s.modFlask f fun x => { x with fwClear := false }
    if bad.isEmpty then s1.endShake f
    else
      let s2 := s1.each bad State.withdrawUnit
      if s2.f SYS_FLCTRL.STATE f = 2 then (s2.returnUnits f).setF SYS_FLCTRL.STATE f 1 else s2.endShake f

/-- R220: FIRMWARE_CLEAR_DONE. -/
def execFirmwareClearDone (f : Nat) (failed : List TBUnit) (s : State) : Res :=
  unit s (isFlask f || f == 15)
    (if !s.cupolaUp then s else if f = 15 then s.poolClear failed else s.flaskClear f failed)

/-! ## DESTROY (R161) -/

/-- R161: a set of DESTROY is refused. -/
def State.destroyBad (s : State) (f : Nat) : Bool :=
  match s.f SYS_FLCTRL.STATE f with
  | 1 => false
  | 3 =>
    (List.range 256).any (fun i => s.f SYS_INST.STATE i != 0 && s.instFlask i == f)
      || (s.timed f && (s.validEntries s.bank).any fun k => (s.ent k).flask == f)
  | _ => true

/-- R161: an accepted DESTROY: a flask being built is given up at once, a running one shakes out. -/
def State.destroyFlask (s : State) (f : Nat) : State :=
  if s.f SYS_FLCTRL.STATE f = 1 then s.freeFlask f else s.setF SYS_FLCTRL.STATE f 4

end Sys2Proof.Machine
end

