-- ==== Sys2Proof/Machine/Inst.lean ====
section
/-! DEFINITION. The life of an instance (R215 to R218, R223), the DTU's commands and walks (R211 to R214), and TDISP
(R225, R227). -/

namespace Sys2Proof.Machine

/-- The device's instances. -/
def isInst (i : Nat) : Bool := decide (i < 256)

/-- The jobs of an instance. -/
def State.instJobs (s : State) (i : Nat) : List Job := s.work.jobs.filter fun x => x.inst == i

/-! ## QUIESCE (R216) -/

/-- Every queue of the instance takes STATE 04h and leaves the sprue. -/
def State.quiesceQueues (s : State) (i : Nat) : State :=
  s.each (instQueues i) fun s n =>
    ((s.clearSprue n).modQ n fun q => { q with preQuiesce := s.f SPR_QSTAT.STATE n }).setF SPR_QSTAT.STATE n 4

/-- An array still runs a tile of the job. -/
def State.jobOnArray (s : State) (j : Nat) : Bool := arrayIds.any fun a => (s.arr a).job.any fun r => r.job == j

/-- A recast pair still runs or decides a tile of the job. -/
def State.jobInPair (s : State) (j : Nat) : Bool := s.units.pairs.any fun p => p.job == j

/-- Work of a job that has not started is dropped: tiles in the queue, programs in NEXT halves, vector items. Units of a
timed flask are never preempted (R181). -/
def State.stopWork (s : State) (x : Job) : State :=
  if s.timed (s.jobFlask x) then s
  else
    let s1 := s.dropTiles (s.jobFlask x) x.id
    let s2 := s1.each (arrayIds.filter fun a => (s1.arr a).nextJob.any fun r => r.job == x.id) State.dropNext
    s2.dropItems x.id

/-- Work that a quiesce leaves to run: a tile on an array or in a pair, or the runner descriptor in progress. -/
def State.keepsRunning (s : State) (x : Job) : Bool := s.jobOnArray x.id || s.jobInPair x.id || s.runnerTakes x

/-- R216: a quiesce starts: what runs goes on to its end, after which the entries of a bound job are empty; every other job
ends ABORTED. -/
def State.startQuiesce (s : State) (i : Nat) : State :=
  let s1 := (s.setF SYS_INST.STATE i 2).quiesceQueues i
  let s2 := s1.each ((s1.instJobs i).filter fun x => x.phase != .ended) fun s x =>
    let s' := s.stopWork x
    if s'.keepsRunning x then s'.modJob x.id fun y => { y with stop := true } else s'.endJob x.id stAborted none
  s2.closeRuns i

/-- A move is made for the instance that it names. -/
def MoveKind.ofInst : MoveKind → Bool
  | .pour _ _ => true
  | .release _ => true
  | .inputLog _ => true
  | _ => false

/-- Work of an instance that has not drained: jobs that still run, tiles that arrays run or abort, moves, requests that wait
at a home slice, and bridge requests. -/
def State.draining (s : State) (i : Nat) : Bool :=
  let mine (m : Master) : Bool := s.masterInst m == some i
  (s.instJobs i).any s.keepsRunning
    || (arrayIds.any fun a => (s.arr a).job.any fun r => !r.bar && r.inst == i)
    || (s.mem.moves.any fun m => m.kind.ofInst && m.inst == i)
    || (s.mem.snoops.any fun q => mine q.req.m) || (s.mem.homeQ.any fun q => mine q.m)
    || s.net.bridge.any fun r => mine r.master

/-- R216: QUIESCE_DONE: once running tiles have ended, what is left of a job ends ABORTED; STATE becomes 3h when every
completion record has been written. -/
def execQuiesceDone (i : Nat) (s : State) : Res :=
  unit s (isInst i)
    (if s.f SYS_INST.STATE i ≠ 2 || s.draining i then s
     else
       let s1 := s.each ((s.instJobs i).filter fun x => x.phase != .ended) fun s x => s.endJob x.id stAborted none
       if (s1.instJobs i).isEmpty then (s1.setF SYS_INST.QUIESCE i 0).setF SYS_INST.STATE i 3 else s1)

/-! ## RESUME, RESET and REMOVE -/

/-- R216: a queue leaves STATE 04h. One that was in error before the quiesce, or has entered the error state since, stays
there (R44). -/
def State.resumeQueue (s : State) (n : Nat) : State :=
  if (s.q n).preQuiesce = 3 || s.f SPR_QSTAT.STATE n = 3 then s.setF SPR_QSTAT.STATE n 3
  else
    let s1 := s.setF SPR_QSTAT.STATE n 0
    if s.fb SPR_QCFG.EN n && s.f SPR_DB.PROD_IDX n != s.f SPR_QSTAT.CONS_IDX n then (s1.setPending n).showQueue n
    else s1.showQueue n

/-- R216: RESUME. -/
def State.resumeInst (s : State) (i : Nat) : State :=
  (((s.setF SYS_INST.RESUME i 0).setF SYS_INST.STATE i 1).each (instQueues i) State.resumeQueue)

/-- R217: the three steps of a reset. -/
def State.resetWork (s : State) (i : Nat) : State :=
  let s1 := s.each (instQueues i) fun s n =>
    ((((s.clearSprue n).setF SPR_QCFG.EN n 0).setR .sprDb n 0).setR .sprQstat n 0).setF SPR_QRESTORE1.VALID n 0
  let s2 := s1.each (instQueues i) fun s n => s.modQ n fun _ => {}
  let base := s2.f ATT_IFRAMES.RC_BASE i
  let n := s2.f ATT_IFRAMES.FRAMES i
  let s3 := { s2 with
    work.ctxs := s2.work.ctxs.filter fun p => p.2.inst != i || p.2.state == 0
    work.refc := s2.work.refc.filter fun p => !(decide (base ≤ p.1) && decide (p.1 < base + n))
    dtu.tlb := s2.dtu.tlb.filter fun t => t.inst != i }
  ((s3.setF ATT_ISPILLED.SPILLED i 0).setF ATT_IPOOL.EN i 0).showAtt i

/-- R217: RESET starts. -/
def State.resetInst (s : State) (i : Nat) : State := (s.setF SYS_INST.STATE i 4).resetWork i

/-- R217: INSTANCE_RESET_DONE. -/
def execInstanceResetDone (i : Nat) (s : State) : Res :=
  unit s (isInst i)
    (if s.f SYS_INST.STATE i = 4 then (s.setF SYS_INST.RESET i 0).setF SYS_INST.STATE i 1 else s)

/-- R218: REMOVE starts with the steps of a reset. -/
def State.removeInst (s : State) (i : Nat) : State := (s.setF SYS_INST.STATE i 5).resetWork i

/-- R218: dirty lines in the flask's ways and in the data caches of its engines are written back and stay valid. -/
def State.cleanWays (s : State) (f : Nat) : State :=
  let mine (c : CacheLine) : Bool := bit (s.f MEM_CWAYS.WAYS f) c.way
  let s1 := s.each (s.mem.cache.filter fun c => mine c && c.dirty) fun s c => s.lineStored c.line
  let es := s.engines f
  { s1 with
    mem.cache := s1.mem.cache.map fun c => if mine c then { c with dirty := false } else c
    mem.holders := s1.mem.holders.map fun h =>
      if h.st = .m && es.any (fun e => h.who == Cacher.vec e) then { h with st := .e } else h }

/-- R218: every SYS_VFMAP entry that names the instance is cleared, whether or not its binding is in force. -/
def State.unbind (s : State) (i : Nat) : State :=
  s.each ((List.range 512).filter fun k => s.f SYS_VFMAP.INSTANCE k == i) fun s k => s.setR .sysVfmap k 0

/-- R218: REMOVE_DONE. -/
def execRemoveDone (i : Nat) (s : State) : Res :=
  unit s (isInst i)
    (if s.f SYS_INST.STATE i ≠ 5 then s
     else
       ((((s.cleanWays (s.instFlask i)).unbind i).setF SYS_INST.TDI i 0).setF SYS_INST.REMOVE i 0).setF SYS_INST.STATE i 0)

/-- R223: SPILL_ALL spills every resident idle local context; one whose record cannot be written stays. -/
def State.spillAll (s : State) (i : Nat) : State :=
  (s.each (s.work.ctxs.filter fun p => p.2.state == 1 && p.2.inst == i && !p.2.spread) fun s p =>
    (spillCtx i p s).2).setF SYS_INST.SPILL_ALL i 0

/-- The instance holds a spread context. -/
def State.holdsSpread (s : State) (i : Nat) : Bool :=
  s.work.ctxs.any fun p => p.2.state != 0 && p.2.inst == i && p.2.spread

/-- R215: the command bits of SYS_INST that a write sets. -/
def instCmds (v : Nat) : List Nat := [59, 58, 57, 56, 55, 54].filter fun k => bit v k

/-- R215: a set that STATE does not permit. -/
def State.instCmdBad (s : State) (i flask k : Nat) : Bool :=
  let st := s.f SYS_INST.STATE i
  match k with
  | 59 => st != 0 || s.f SYS_FLCTRL.STATE flask != 3
  | 58 => st != 1
  | 54 => st != 3 || s.holdsSpread i
  | _ => st != 3

/-! ## TDISP (R227) -/

/-- A TDI enters ERROR: an active instance is quiesced. -/
def State.tdiError (s : State) (i : Nat) : State :=
  let s1 := s.setF SYS_INST.TDI i 4
  if s1.f SYS_INST.STATE i = 1 then (s1.setF SYS_INST.QUIESCE i 1).startQuiesce i else s1

/-- The TDI is locked: CONFIG_LOCKED or RUN. -/
def State.tdiLocked (s : State) (i : Nat) : Bool := s.f SYS_INST.TDI i == 2 || s.f SYS_INST.TDI i == 3

/-- The TDI keeps its locked registers: in ERROR too, which only REMOVE leaves. -/
def State.tdiHeld (s : State) (i : Nat) : Bool := s.tdiLocked i || s.f SYS_INST.TDI i == 4

/-- R215, R227: the command of a write of SYS_INST that was taken; a QUIESCE of a locked TDI puts it into ERROR. -/
def State.instCmd (s : State) (i k : Nat) : State :=
  match k with
  | 59 => (s.setF SYS_INST.CREATE i 0).setF SYS_INST.STATE i 1
  | 58 => if s.tdiLocked i then s.tdiError i else s.startQuiesce i
  | 57 => s.resumeInst i
  | 56 => s.resetInst i
  | 55 => s.removeInst i
  | _ => s.spillAll i

/-- The device has the virtual function. -/
def isVf (p vf : Nat) : Bool := decide (p < 2) && decide (vf < 256)

/-- The Crucible serves requests. -/
def State.crucibleUp (s : State) : Bool := (s.fwp 2).running && !(s.fwp 2).restarting && !s.clockLost .kclk

/-- The words of a device context; none of one that cannot be read. -/
def ctxWords : Except XFault DevCtx → List Nat
  | .ok ws => ws
  | .error _ => []

/-- R227: a lock: the device context is snapshotted. -/
def State.lockTdi (s : State) (i : Nat) : State :=
  let (dc, s1) := s.readDc (s.instFlask i) i
  ((s1.setF SYS_INST.TDI i 2).modTrust fun t => { t with tdiSnap := NMap.insert t.tdiSnap i (ctxWords dc) })

/-- R227: LOCK_INTERFACE_REQUEST. -/
def State.lockRequest (s : State) (p vf : Nat) : State :=
  match s.boundTo p vf with
  | none => s.emit (.spdm (vfNo p vf) false [])
  | some i =>
    let alone := !(List.range 256).any fun k => k != i && s.f SYS_INST.STATE k != 0 && s.instFlask k == s.instFlask i
    if alone && s.f SYS_INST.TDI i == 1 then (s.lockTdi i).emit (.spdm (vfNo p vf) true [])
    else s.emit (.spdm (vfNo p vf) false [])

/-- R227: LOCK_INTERFACE_REQUEST. -/
def execLockInterfaceRequest (p vf : Nat) (s : State) : Res :=
  unit s (isVf p vf) (if s.crucibleUp then s.lockRequest p vf else s)

/-- R227: START_INTERFACE_REQUEST: a locked TDI runs. -/
def State.startRequest (s : State) (p vf : Nat) : State :=
  match s.boundTo p vf with
  | some i =>
    if s.f SYS_INST.TDI i = 2 then (s.setF SYS_INST.TDI i 3).emit (.spdm (vfNo p vf) true [])
    else s.emit (.spdm (vfNo p vf) false [])
  | none => s.emit (.spdm (vfNo p vf) false [])

/-- R227: START_INTERFACE_REQUEST. -/
def execStartInterfaceRequest (p vf : Nat) (s : State) : Res :=
  unit s (isVf p vf) (if s.crucibleUp then s.startRequest p vf else s)

/-! ## The DTU's walks and commands (R211 to R214) -/

/-- R214: PAGE_WALK. -/
def execPageWalk (i va : Nat) (write : Bool) (s : State) : Res :=
  unit s (isInst i)
    (match s.xlate i va write with
     | (some _, s1) => s1.emit (.done (.inst i))
     | (none, s1) => s1.emit (.xlateFault (.inst i)))

/-- The command queue's head advances past a command (R211; offsets PRESUMED, log entry 7). -/
def State.cqNext (s : State) : State :=
  let q := s.r .dtuIommu 4
  let size := 2 ^ (bits (s.r .dtuIommu 3) 4 0 + 1)
  s.setR .dtuIommu 4 (putBits q 31 0 ((bits q 31 0 + 1) % size))

/-- The command queue is on, holds a command, and no error stops it. -/
def State.cqRuns (s : State) : Bool :=
  let csr := s.r .dtuIommu 9
  let q := s.r .dtuIommu 4
  bit csr 16 && bits csr 10 8 == 0 && bits q 31 0 != bits q 63 32

/-- The address of the command at the head of the queue. -/
def State.cqAddr (s : State) : Nat := bits (s.r .dtuIommu 3) 53 10 * 4096 + 16 * bits (s.r .dtuIommu 4) 31 0

/-- Word 0 of a command that the options of R211 support: IOTINVAL.VMA, IOTINVAL.GVMA, IOFENCE.C, IODIR.INVAL_DDT. -/
def cqLegal (w : Nat) : Bool :=
  (bits w 6 0 == 1 && bits w 9 7 ≤ 1) || (bits w 6 0 == 2 && bits w 9 7 == 0) || (bits w 6 0 == 3 && bits w 9 7 == 0)

/-- An optional field of a command: its valid bit at `v` and its value at `p`. -/
def cqField (o : Option Nat) (v p : Nat) : Nat :=
  match o with
  | some x => 2 ^ v + x * 2 ^ p
  | none => 0

/-- R211: the DTU takes the command at the head of its queue: one that it does not support sets cmd_ill and one that it
cannot read sets cqmf, and both stop the queue; the words given are those of the command at hand. -/
def State.cqTake (s : State) (w0 w1 : Nat) (go : State → State) : State :=
  if !s.cqRuns then s
  else
    match physRead s 8 s.cqAddr 16 with
    | (.ok bs, s1) =>
      if !cqLegal (leAt bs 0 8) then s1.setR .dtuIommu 9 (putBits (s1.r .dtuIommu 9) 10 10 1)
      else if leAt bs 0 8 = w0 && leAt bs 8 8 = w1 then (go s1).cqNext
      else s1
    | (_, s1) => s1.setR .dtuIommu 9 (putBits (s1.r .dtuIommu 9) 8 8 1)

/-- A selector that is absent selects everything. -/
def sel (o : Option Nat) (v : Nat) : Bool := o.all fun x => x == v

/-- An address selects what its leaf maps: the pages of one leaf entry of a level go together. -/
def selPage (o : Option Nat) (page level : Nat) : Bool := sel (o.map fun a => a / 4096 / 512 ^ level) (page / 512 ^ level)

/-- R212: IOTINVAL.VMA. -/
def execIotinvalVma (gscid pscid va : Option Nat) (s : State) : Res :=
  .next (s.cqTake (1 + cqField va 10 64 % 2 ^ 64 + cqField pscid 32 12 + cqField gscid 33 44) ((va.getD 0) / 4096 * 1024)
    fun s => { s with dtu.tlb := s.dtu.tlb.filter fun t =>
      !(sel gscid t.gscid && sel pscid t.pscid && selPage va t.vpn t.slv) })

/-- R212: IOTINVAL.GVMA. -/
def execIotinvalGvma (gscid gpa : Option Nat) (s : State) : Res :=
  .next (s.cqTake (1 + 128 + cqField gpa 10 64 % 2 ^ 64 + cqField gscid 33 44) ((gpa.getD 0) / 4096 * 1024)
    fun s => { s with dtu.tlb := s.dtu.tlb.filter fun t => !(sel gscid t.gscid && selPage gpa t.gpn t.glv) })

/-- R227: a locked TDI whose re-read device context differs from its snapshot enters ERROR. -/
def State.recheckTdi (s : State) (i : Nat) : State :=
  if !s.tdiLocked i then s
  else
    let (dc, s1) := s.readDc (s.instFlask i) i
    if NMap.find s1.sys.trust.tdiSnap i = some (ctxWords dc) then s1 else s1.tdiError i

/-- R211, R227: IODIR.INVAL_DDT of one device, or of all. -/
def execIodirInvalDdt (dev : Option Nat) (s : State) : Res :=
  .next (s.cqTake (3 + cqField dev 33 40) 0 fun s =>
    { s with
      dtu.ddtc := s.dtu.ddtc.filter fun e => !sel dev e.1
      dtu.tlb := s.dtu.tlb.filter fun t => !sel dev t.inst }.each
      ((List.range 256).filter fun i => sel dev i) State.recheckTdi)

/-- R211: IOFENCE.C completes after the commands before it, and writes its data where it carries an address. -/
def execIofenceC (addr : Option Nat) (data : Nat) (s : State) : Res :=
  .next (s.cqTake (2 + (if addr.isSome then 2 ^ 10 + data * 2 ^ 32 else 0)) ((addr.getD 0) / 4) fun s =>
    match addr with
    | some a => (physWrite s 8 a (toLE 4 data)).2
    | none => s)

end Sys2Proof.Machine
end

