-- ==== Sys2Proof/Machine/Trust.lean ====
section
/-! DEFINITION. Keys (R231 to R233), the attestation report (R235), debug consent (R236), IDE keys (R226), and the
JTAG port (R371). -/

namespace Sys2Proof.Machine

/-! ## Keys -/

/-- The session that a requester has with the Crucible. -/
def State.session (s : State) (tenant : Nat) : Option Nat := NMap.find s.sys.trust.sessions tenant

/-- The digest slots of the report, 0 to 8; slot 0 is that of the ROM. -/
def State.digests (s : State) : List Nat :=
  Config.romDigest :: (List.range 8).map fun k => NMap.get s.sys.trust.digests 0 (k + 1)

/-- R231: KEY_EXCHANGE with FINISH opens a session in place of the requester's earlier one. -/
def execKeyExchange (tenant : Nat) (s : State) : Res :=
  .next (if s.crucibleUp then
      (s.modTrust fun t =>
        { t with sessions := NMap.insert t.sessions tenant t.nextSession, nextSession := t.nextSession + 1 }).emit
        (.spdm tenant true [])
    else s)

/-- R231: KEY_DELIVER over the tenant's session: at most 1,024 keys; the digests at delivery are kept. A KEY_ID that the
tenant has delivered already is answered with an error (log entry 48). -/
def State.keyDeliver (s : State) (tenant : Nat) (p : KeyPolicy) : State :=
  match s.session tenant with
  | none => s.emit (.spdm tenant false [])
  | some n =>
    if !isFlask p.flask || decide (1024 ≤ s.sys.trust.keys.length) || (s.heldKey tenant p.keyId).isSome then
      s.emit (.spdm tenant false [])
    else
      (s.modTrust fun t =>
        { t with keys := t.keys ++ [{ tenant := tenant, session := n, pol := p, digests := s.digests }] }).emit
        (.spdm tenant true [])

/-- R231: KEY_DELIVER. -/
def execKeyDeliver (tenant : Nat) (pol : KeyPolicy) (s : State) : Res :=
  .next (if s.crucibleUp then s.keyDeliver tenant pol else s)

/-- The slots of every flask whose key a test selects are emptied (R232). -/
def State.emptySlots (s : State) (f : Option Nat) (g : HeldKey → Bool) : State :=
  s.each ((List.range 8).filter fun k => f.all fun x => x == k) fun s k =>
    s.modFlask k fun x => { x with slots := x.slots.filter fun e => !(s.heldKey e.2.tenant e.2.keyId).any g }

/-- R232: KEY_REVOKE of a key of the tenant. -/
def State.keyRevoke (s : State) (tenant keyId : Nat) : State :=
  let mine (k : HeldKey) : Bool := k.tenant == tenant && k.pol.keyId == keyId
  if (s.session tenant).isNone || (s.heldKey tenant keyId).isNone then s.emit (.spdm tenant false [])
  else
    ((s.emptySlots none mine).modTrust fun t => { t with keys := t.keys.filter fun k => !mine k }).emit (.spdm tenant true [])

/-- R232: KEY_REVOKE. -/
def execKeyRevoke (tenant keyId : Nat) (s : State) : Res :=
  .next (if s.crucibleUp then s.keyRevoke tenant keyId else s)

/-- The digests that a key's MEASURE_MASK selects are those of its delivery. -/
def State.measured (s : State) (k : HeldKey) : Bool :=
  (List.range 9).all fun i => !bit k.pol.measureMask i || k.digests.getD i 0 == s.digests.getD i 0

/-- R232: the conditions of a release into a flask. -/
def State.releaseOk (s : State) (k : HeldKey) (f : Nat) : Bool :=
  k.pol.flask == f && s.f SYS_FLCTRL.STATE f == 3 && s.measured k && ((s.flask f).consent.isNone || k.pol.debugOk)

/-- A key is loaded into a slot; its nonce count starts at 0 (log entry 48). -/
def State.releaseKey (s : State) (k : HeldKey) (f slot : Nat) : State :=
  s.modFlask f fun x => { x with slots := NMap.insert x.slots slot { tenant := k.tenant, keyId := k.pol.keyId } }

/-- R232: a digest slot changes; the key slots whose mask selects it are emptied. -/
def State.setDigest (s : State) (k d : Nat) : State :=
  if NMap.get s.sys.trust.digests 0 k = d then s
  else
    (s.modTrust fun t => { t with digests := NMap.set t.digests 0 k d }).emptySlots none fun p => bit p.pol.measureMask k

/-! ## Debug consent (R236) -/

/-- The key that signs a consent is one that the tenant delivered on the session it now has. -/
def State.consentKey (s : State) (tenant keyId : Nat) : Bool :=
  (s.session tenant).any fun n => (s.heldKey tenant keyId).any fun k => k.session == n

/-- R236: CONSENT_INSTALL; an empty scope ends the consent. `ok` is the verification of its signature. A consent for a flask
that the device does not have is answered with an error (DESIGN CHOICE, log entry 2). -/
def State.consentInstall (s : State) (tenant f scope devId lastHour keyId digest : Nat) (ok : Bool) : State :=
  if !s.consentKey tenant keyId || !ok || devId != s.sys.trust.deviceId || !isFlask f then s.emit (.spdm tenant false [])
  else if scope % 4 = 0 then (s.modFlask f fun x => { x with consent := none }).emit (.spdm tenant true [])
  else
    ((s.modFlask f fun x => { x with consent := some { scope := scope, lastHour := lastHour, digest := digest } }).emptySlots
      (some f) fun p => !p.pol.debugOk).emit (.spdm tenant true [])

/-- R236: CONSENT_INSTALL. -/
def execConsentInstall (tenant f scope devId lastHour keyId digest : Nat) (ok : Bool) (s : State) : Res :=
  .next (if s.crucibleUp then s.consentInstall tenant f scope devId lastHour keyId digest ok else s)

/-- R236: CONSENT_EXPIRY: the operating hour has passed. -/
def execConsentExpiry (f : Nat) (s : State) : Res :=
  unit s (isFlask f)
    (if (s.flask f).consent.any fun c => decide (c.lastHour < s.sys.record.poh / 3600) then
       s.modFlask f fun x => { x with consent := none }
     else s)

/-- R236: a debug access reaches a unit of a flask only within the scope of the flask's consent. -/
def State.debugUnit (s : State) (f : Nat) (k : DebugKind) (u : TBUnit) : Bool :=
  let b := match k with
    | .halt => 0
    | .trace => 1
  s.unitHeld f u && (s.flask f).consent.any fun c => bit c.scope b

/-- R228, R236: DEBUG_ACCESS to a unit of a flask, or (none) to the Crucible's SRAM, ROM or key store, which it reaches only
in the manufacturing state of the lifecycle fuses. -/
def execDebugAccess (f : Nat) (k : DebugKind) (u : Option TBUnit) (s : State) : Res :=
  unit s (isFlask f && u.all isTBUnit)
    (s.emit (if (match u with
      | some x => s.debugUnit f k x
      | none => s.sys.trust.manufacturing) then .debugServed f else .debugRefused f))

/-! ## The attestation report (R235) -/

/-- Bytes of a section whose layout the manual leaves open. -/
def openBytes (section_ n : Nat) (fields : List Nat) : List Byte :=
  (List.range n).map fun k => Config.reportByte section_ fields k

/-- The 32 bytes of a flask. -/
def State.flaskReport (s : State) (f : Nat) : List Byte :=
  openBytes f 32
    [s.f SYS_FLCTRL.STATE f, s.f SYS_FLCTRL.TIMED f, ((s.heldArrays f).map fun a => 2 ^ a).sum,
     ((s.engines f).map fun e => 2 ^ e).sum, ((s.heldRts f).map fun c => 2 ^ c).sum, s.f SYS_FLRES.RUNNER f,
     s.f MEM_CWAYS.WAYS f,
     ((List.range 256).filter fun i => s.f SYS_INST.STATE i != 0 && s.instFlask i == f).length,
     ((s.flask f).slots.map fun e => 2 ^ e.1).sum]

/-- Port and virtual function of an instance: FFFFh for none. -/
def State.vfOf (s : State) (i : Nat) : Nat :=
  ((List.range 512).find? fun k => s.fb SYS_VFMAP.EN k && s.f SYS_VFMAP.INSTANCE k == i).getD 0xFFFF

/-- The 8 bytes of an instance. -/
def State.instReport (s : State) (i : Nat) : List Byte :=
  openBytes (256 + i) 8
    [s.f SYS_INST.STATE i, s.instFlask i, s.vfOf i, s.f SYS_INST.TDI i, s.f DTU_DLOGCFG.EN i]

/-- The instance and flask section of the report (R227). -/
def State.unitReport (s : State) : List Byte :=
  ((List.range 8).flatMap s.flaskReport) ++ (List.range 256).flatMap s.instReport

/-- The debug state. -/
def State.debugState (s : State) : Nat :=
  b2n s.sys.trust.jtagOpen + 2 * b2n s.sys.trust.traceOpen
    + ((List.range 8).map fun f => if (s.flask f).consent.isSome then 2 ^ (8 + f) else 0).sum

/-- The 6,672 bytes of a report: the chain digest and the fuse state are what the device holds, and the signatures are free
bytes (log entry 47). -/
def State.report (s : State) (nonce : Nat) : List Byte × State :=
  let (sigs, s1) := s.freshBytes (96 + 3309)
  (toLE 4 0x41545354 ++ toLE 2 0x0100 ++ zeros 2 ++ toLE 32 nonce ++ toLE 16 s.sys.trust.deviceId ++ toLE 48 Config.chainDigest
    ++ (s.digests.flatMap fun d => toLE 48 d) ++ toLE 16 Config.fuseState ++ toLE 8 s.debugState ++ s.unitReport
    ++ ((List.range 8).flatMap fun f => toLE 48 (((s.flask f).consent.map fun c => c.digest).getD 0))
    ++ toLE 8 s.now ++ zeros 8 ++ sigs ++ zeros 3, s1)

/-- Bytes as numbers, for an answer that leaves the device. -/
def natBytes (bs : List Byte) : List Nat := bs.map fun b => b.toNat

/-- R235: GET_MEASUREMENTS answers with the report. -/
def execGetMeasurements (tenant nonce : Nat) (s : State) : Res :=
  .next (if !s.crucibleUp then s
    else
      let (bs, s1) := s.report nonce
      s1.emit (.spdm tenant true (natBytes bs)))

/-- R235: GET_CERTIFICATE of slot 0 or 1. -/
def execGetCertificate (tenant slot : Nat) (s : State) : Res :=
  .next (if !s.crucibleUp then s
    else if slot < 2 then s.emit (.spdm tenant true (Config.certChain slot))
    else s.emit (.spdm tenant false []))

/-- R227: GET_DEVICE_INTERFACE_REPORT: the instance and flask section of the report. -/
def State.tdiReport (s : State) (p vf : Nat) : State :=
  match s.boundTo p vf with
  | some i =>
    if s.tdiLocked i then s.emit (.spdm (vfNo p vf) true (natBytes s.unitReport))
    else s.emit (.spdm (vfNo p vf) false [])
  | none => s.emit (.spdm (vfNo p vf) false [])

/-- R227: GET_DEVICE_INTERFACE_REPORT. -/
def execGetDeviceInterfaceReport (p vf : Nat) (s : State) : Res :=
  unit s (isVf p vf) (if s.crucibleUp then s.tdiReport p vf else s)

/-! ## IDE keys -/

/-- The requester number of a PCIe port's own SPDM session (DESIGN CHOICE, log entry 181). -/
def portTenant (p : Nat) : Nat := 0x10000 + p

/-- R226: IDE_KM over the port's SPDM session: the keys of its link stream and 8 selective streams. -/
def execIdeKm (port stream key : Nat) (s : State) : Res :=
  unit s (decide (port < 2))
    (if !s.crucibleUp then s
     else if stream ≤ 8 && (s.session (portTenant port)).isSome then
       (s.modTrust fun t => { t with ide := NMap.set t.ide 0 (16 * port + stream) key }).emit (.spdm port true [])
     else s.emit (.spdm port false []))

/-! ## JTAG (R371) -/

/-- The identification code. -/
def idcodeValue : Nat := 0x19640B47

/-- The levels at which the monitors, or the hold of R363, would drive the two safety outputs. -/
def State.safeLevels (s : State) : Bool × Bool :=
  let p := s.sys.power
  (!(p.safeFlt || p.safeHeld), !(p.safeWarn || p.safeHeld))

/-- Both safety outputs at given levels. -/
def State.bothPins (s : State) (x : Bool × Bool) : State :=
  (s.emit (.pin "SAFE_FLT_N" x.1)).emit (.pin "SAFE_WARN_N" x.2)

/-- An instruction of the JTAG port takes force: under EXTEST and CLAMP the safety outputs follow the chain, under HIGHZ
their pull-ups, and afterwards the monitors again. -/
def State.jtag (s : State) (j : Jtag) : State :=
  let s1 := { s with sys.jtag := j }
  if j = .highz then s1.bothPins (true, true)
  else if jtagDrives j then
    s1.bothPins (s.sys.chain.getD (Config.chainPos 0) true, s.sys.chain.getD (Config.chainPos 1) true)
  else if jtagDrives s.sys.jtag then s1.bothPins s1.safeLevels
  else s1

/-- R371: BYPASS: the data register is the single bypass bit. -/
def execBypass (s : State) : Res := .next ((s.jtag .bypass).emit (.tdo 0))

/-- R371: SAMPLE/PRELOAD: the pins are captured and shifted out, the preload enters the chain. -/
def execSamplePreload (pins preload : List Bool) (s : State) : Res :=
  let v := (pins.zipIdx.map fun p => b2n p.1 * 2 ^ p.2).sum
  .next (({ s with sys.chain := preload }.jtag .sample).emit (.tdo v))

/-- R371: EXTEST: the outputs follow the chain. -/
def execExtest (s : State) : Res := .next (s.jtag .extest)

/-- R371: IDCODE. -/
def execIdcode (s : State) : Res := .next ((s.jtag .idcode).emit (.tdo idcodeValue))

/-- R371: CLAMP: the outputs follow the chain, with the bypass bit between TDI and TDO. -/
def execClamp (s : State) : Res := .next ((s.jtag .clamp).emit (.tdo 0))

/-- R371: HIGHZ: the outputs are released. -/
def execHighz (s : State) : Res := .next ((s.jtag .highz).emit (.tdo 0))

end Sys2Proof.Machine
end

