-- ==== Sys2Proof/Machine/Mailbox.lean ====
section
/-! DEFINITION. The mailbox and its messages (R329 to R340): requests, responses, firmware loads and restarts, power
modes, the field record, the billet, attestation, keys, port and output configuration; and the Cupola's watchdog. -/

namespace Sys2Proof.Machine

/-! ## Requests and responses -/

/-- Response status codes. -/
def mbOk : Nat := 0
def mbBusy : Nat := 1
def mbVersion : Nat := 2
def mbDenied : Nat := 3
def mbBadMsg : Nat := 4
def mbAuthFail : Nat := 5
def mbRestarting : Nat := 6

/-- What the target makes of a request: a status and payload, BUSY with RETRY_US, or an answer that comes later. -/
inductive Reply where
  | now (status : Nat) (payload : List Byte)
  | busy (retry : Nat)
  | later
  deriving DecidableEq, Repr

/-- `n` bytes of a channel's page. -/
def State.mbxBytes (s : State) (ch off n : Nat) : List Byte :=
  (List.range n).map fun k => NMap.get s.mem.mbx 0 (4096 * ch + off + k)

/-- A little-endian field of a request's payload. -/
def State.mbxArg (s : State) (ch off n : Nat) : Nat := leNat (s.mbxBytes ch (16 + off) n)

/-- Header words of the request in a channel. -/
def State.mbxW0 (s : State) (ch : Nat) : Nat := leNat (s.mbxBytes ch 0 8)
def State.mbxW1 (s : State) (ch : Nat) : Nat := leNat (s.mbxBytes ch 8 8)
def State.mbxTarget (s : State) (ch : Nat) : Nat := bits (s.mbxW0 ch) 47 40
def State.mbxMsg (s : State) (ch : Nat) : Nat := bits (s.mbxW0 ch) 31 16
def State.mbxLen (s : State) (ch : Nat) : Nat := bits (s.mbxW1 ch) 63 48

/-- Bytes written into a channel's page. -/
def putMbx (m : NMap Byte) (a : Nat) : List Byte → NMap Byte
  | [] => m
  | b :: bs => putMbx (NMap.set m 0 a b) (a + 1) bs

/-- The page in which the M-mode monitor of an application core hands a call on (R229): behind those of the 64 channels. -/
def monitorChan (core : Nat) : Nat := 64 + core

/-- R331: the response is written, DONE set, REQ cleared, and the channel's interrupt raised. -/
def State.respondMbx (s : State) (ch status retry : Nat) (payload : List Byte) : State :=
  let w0 := 2 ^ 56 + s.mbxTarget ch * 2 ^ 40 + s.mbxMsg ch * 2 ^ 16 + bits (s.mbxW0 ch) 15 0
  let w1 := payload.length * 2 ^ 48 + status * 2 ^ 40 + retry % 2 ^ 16 * 2 ^ 24
  let s1 := { s with mem.mbx := putMbx s.mem.mbx (4096 * ch + 0x800) (toLE 8 w0 ++ toLE 8 w1 ++ payload) }
  let s2 := (s1.setF MBX_DB.DONE ch 1).setF MBX_DB.REQ ch 0
  if ch = 0 then s2.mgrIrq 16 0 else s2.emit (.mbxIrq ch)

/-- R229: the reply of a monitor call returns in a0 and a1 and the core goes on. RESTARTING stands in a0 (R335); what else the
registers hold the manual does not say: they are free values (log entry 49). -/
def State.respondCall (s : State) (core status : Nat) : State :=
  let (a1, s1) := s.fresh
  if status = mbRestarting then s1.emit (.monitorReply core mbRestarting a1)
  else
    let (a0, s2) := s1.fresh
    s2.emit (.monitorReply core a0 a1)

/-- The answer to a request of a channel, or to a monitor call. -/
def State.respond (s : State) (ch status : Nat) (payload : List Byte) : State :=
  if ch < 64 then s.respondMbx ch status 0 payload else s.respondCall (ch - 64) status

/-- R333: a write into the sender's memory: guest-physical for an instance, physical for the manager. -/
def State.senderWrite (s : State) (m : Master) (a : Nat) (bs : List Byte) : Bool × State :=
  match s.masterInst m with
  | some i =>
    match gWrite i a bs s with
    | (.ok _, s1) => (true, s1)
    | (.error _, s1) => (false, s1)
  | none =>
    match physWrite s (s.partOf m) a bs with
    | (.ok _, s1) => (true, s1)
    | (_, s1) => (false, s1)

/-- R333: a read of the sender's memory. -/
def State.senderRead (s : State) (m : Master) (a n : Nat) : Option (List Byte) × State :=
  match s.masterInst m with
  | some i =>
    match gRead i a n s with
    | (.ok bs, s1) => (some bs, s1)
    | (.error _, s1) => (none, s1)
  | none =>
    match physRead s (s.partOf m) a n with
    | (.ok bs, s1) => (some bs, s1)
    | (_, s1) => (none, s1)

/-! ## Firmware (R332, R335) -/

/-- The digest slot of a firmware processor (R235). -/
def digestSlot : Nat → Nat
  | 1 => 2
  | 2 => 1
  | p => p

/-- GET_VERSION. -/
def State.msgVersion (s : State) (ch : Nat) : Reply × State :=
  let i := (s.fwp (s.mbxTarget ch)).image
  if s.mbxLen ch ≠ 0 then (.now mbBadMsg [], s)
  else
    (.now mbOk (toLE 1 1 ++ toLE 1 0 ++ zeros 2 ++ toLE 4 i.version ++ toLE 4 i.secVersion ++ zeros 4 ++ toLE 48 i.digest), s)

/-- R332: FW_LOAD; `ok` is the verification of the image. -/
def State.msgLoad (s : State) (m : Master) (ch : Nat) (ok : Bool) : Reply × State :=
  let a := s.mbxArg ch 0 8
  let n := s.mbxArg ch 8 8
  if s.mbxLen ch ≠ 16 || a % 4096 ≠ 0 || n < 4096 || 16777216 < n then (.now mbBadMsg [], s)
  else
    match s.senderRead m a 4096 with
    | (none, s1) => (.now mbBadMsg [], s1)
    | (some h, s1) =>
      let t := Config.imageField 0 h
      let i : Image := { version := Config.imageField 1 h, secVersion := Config.imageField 2 h,
                         digest := Config.imageField 3 h }
      if t < 1 || 6 < t then (.now mbBadMsg [], s1)
      else if !ok then (.now mbAuthFail [], s1)
      else
        (.now mbOk (toLE 1 t ++ zeros 3 ++ toLE 4 i.version ++ toLE 4 i.secVersion ++ zeros 4 ++ toLE 48 i.digest),
         s1.modFw t fun p => { p with staged := some i })

/-- A firmware processor stops for its restart on an image; the Crucible's sessions are dropped, and of the runner's
descriptors the one in progress is noted (R10). -/
def State.stopFw (s : State) (p : Nat) (i : Image) (waiter : Option Nat) : State :=
  let s1 := s.modFw p fun x => { x with running := false, restarting := true, nextImage := i, waiter := waiter }
  if p = 2 then s1.modTrust fun t => { t with sessions := [] }
  else if p = 5 then { s1 with pix.runKept := (s.work.jobs.find? s.runnerTakes).map fun x => x.id }
  else s1

/-- R332, R336: FW_RESTART: on the staged image, or on the running one; the Cupola first writes a checkpoint with REASON
03h, and a restart on a staged image counts as an update. A processor without any image is DENIED (log entry 52). -/
def State.msgRestart (s : State) (ch : Nat) : Reply × State :=
  let p := s.mbxArg ch 0 1
  let fl := s.mbxArg ch 1 1
  let x := s.fwp p
  if s.mbxLen ch ≠ 8 || p < 1 || 6 < p || 1 < fl then (.now mbBadMsg [], s)
  else if x.restarting then (.now mbRestarting [], s)
  else if !x.running && x.staged.isNone then (.now mbDenied [], s)
  else
    let use := (if fl = 1 then none else x.staged)
    let s1 := if use.isSome then s.recCount 6 else s
    let s2 := if p = 1 then s1.checkpoint 3 false else s1
    let s3 := if use.isSome then s2.modFw p fun y => { y with staged := none } else s2
    (.later, s3.stopFw p (use.getD x.image) (some ch))

/-- The newest of the stored records. -/
def RecordStore.best (st : RecordStore) : Option FieldRecord :=
  ((st.slot0.toList ++ st.slot1.toList) ++ st.norCopy.toList).foldl
    (fun acc r => match acc with
      | none => some r
      | some a => if a.seq < r.seq then some r else some a) none

/-- R336: the restarted Cupola continues from its retained area, or reloads the newest checkpoint, and first serves a
latched power-fail warning (R328). The map of retired arrays persists (R141, log entry 183). -/
def State.startCupola (s : State) (areaOk : Bool) : State :=
  let r := (s.sys.store.best.orElse fun _ => s.sys.store.summary).getD {}
  let s1 := if areaOk then s else { s with sys.record := { r with retired := s.sys.record.retired.foldl insNat r.retired } }
  let s2 := s1.modPower fun p => { p with kickNs := s.now }
  if s2.sys.power.pfwLatched then (s2.modPower fun p => { p with pfwLatched := false }).pfwServe else s2

/-- R335: a firmware processor runs again; its digest enters the report, and the request that asked for the restart is
answered. A new digest of any processor, the Cupola's among them, empties the slots whose MEASURE_MASK selects it: R232
says so of every selected digest, R9 names the Crucible's alone (DEDUCED, log entry 160). -/
def State.startFw (s : State) (p : Nat) (areaOk : Bool) : State :=
  let x := s.fwp p
  let s1 := (s.modFw p fun y => { y with running := true, restarting := false, image := x.nextImage, waiter := none }).setDigest
    (digestSlot p) x.nextImage.digest
  let s2 := if p = 1 then s1.startCupola areaOk else s1
  match x.waiter with
  | some ch => s2.respond ch mbOk (toLE 48 x.nextImage.digest)
  | none => s2

/-- R335: FW_RESTART_DONE. -/
def execFwRestartDone (proc : Nat) (areaOk : Bool) (s : State) : Res :=
  unit s (decide (1 ≤ proc) && decide (proc ≤ 6)) (if (s.fwp proc).restarting then s.startFw proc areaOk else s)

/-- R336: CUPOLA_WATCHDOG: TIMEOUT_MS without a kick restarts the Cupola alone. -/
def execCupolaWatchdog (s : State) : Res :=
  .next (if !(s.fwp 1).running || !reached s.now (s.sys.power.kickNs + s.f CUP_WDOG.TIMEOUT_MS 0 * 1000000) then s
    else
      (((s.incSat CUP_WDOG.RESTARTS 0 1).recCount 5).logEvent 10 0 0).stopFw 1 (s.fwp 1).image none)

/-! ## Power, record and billet -/

/-- R317, R325: the device enters STANDBY: checkpoint, TC10 sleep requests, doze, SOC_PWR_EN low. -/
def State.enterStandby (s : State) : State :=
  let s1 := (s.recCount 1).checkpoint 5 false
  let s2 := if (s1.fwp 3).running then
      s1.each ((List.range 10).filter fun k => bit (s1.f SYS_PWRCTRL.WAKE_ETH 0) k) fun s k => s.emit (.tc10Sleep (k + 2))
    else s1
  let s3 := s2.each (List.range 4) fun s p =>
    if s.fb WSK_PORTCFG.EN p && s.fb WSK_PORTCFG.DOZE_EN p && s.wskUp p then s.setF WSK_PORTSTAT.STATE p 3
    else s.setF WSK_PORTSTAT.STATE p 0
  ((s3.wipe true false).modPower fun p => { p with mode := .standby, booted := false, wakeSeen := false }).holdSafe.socPower
    false

/-- POWER_MODE; the answer is sent before SOC_PWR_EN falls. -/
def State.msgPower (s : State) (ch : Nat) : Reply × State :=
  if s.mbxLen ch ≠ 8 || s.mbxArg ch 0 1 ≠ 1 then (.now mbBadMsg [], s)
  else if (List.range 8).any fun f => s.f SYS_FLCTRL.STATE f != 0 then (.now mbDenied [], s)
  else (.later, (s.respond ch mbOk []).enterStandby)

/-- The record that FIELD_RECORD_READ names: the newest stored one, the newest summary, or the live one. -/
def State.whatRecord (s : State) (what : Nat) : Option FieldRecord :=
  match what with
  | 0 => s.sys.store.best
  | 1 => s.sys.store.summary
  | _ => some { s.sys.record with reason := 5 }

/-- FIELD_RECORD_READ; with nothing stored it is DENIED (log entry 53). -/
def State.msgRecord (s : State) (m : Master) (ch : Nat) : Reply × State :=
  let what := s.mbxArg ch 0 1
  let dst := s.mbxArg ch 8 8
  let n := if what = 1 then 512 else 32768
  if s.mbxLen ch ≠ 24 || 2 < what || dst % 64 ≠ 0 || s.mbxArg ch 16 4 < n then (.now mbBadMsg [], s)
  else
    match s.whatRecord what with
    | none => (.now mbDenied [], s)
    | some r =>
      let (bs, s1) := if what = 1 then r.bytes512 s else r.bytes32k s
      match s1.senderWrite m dst bs with
      | (false, s2) => (.now mbBadMsg [], s2)
      | (true, s2) => (.now mbOk (toLE 8 r.seq ++ toLE 4 n ++ toLE 1 r.reason ++ zeros 3), s2)

/-- R340: BILLET_PREPARE. -/
def State.msgPrepare (s : State) (ch : Nat) : Reply × State :=
  if s.mbxLen ch ≠ 0 then (.now mbBadMsg [], s)
  else
    let s1 := s.checkpoint 4 true
    (.now mbOk (toLE 8 s1.sys.record.seq),
     (s1.modPower fun p => { p with billetPwrEn := false }).emit (.pin "BILLET_PWR_EN" false))

/-- R338, R340: BILLET_PAIR; `ok` is the verification of the module. -/
def State.msgPair (s : State) (ch : Nat) (ok : Bool) : Reply × State :=
  if s.mbxLen ch ≠ 0 then (.now mbBadMsg [], s)
  else if s.f SYS_BILLET.STATE 0 ≠ 1 then (.now mbDenied [], s)
  else if !ok then (.now mbAuthFail [], s)
  else
    let s1 := (if s.sys.power.billetPwrEn then s else s.emit (.pin "BILLET_PWR_EN" true)).pairBillet
    (.now mbOk (toLE 16 s1.sys.record.serial ++ toLE 8 s1.sys.record.endurance), s1)

/-- R339: BILLET_STATUS. -/
def State.msgBillet (s : State) (ch : Nat) : Reply × State :=
  let r := s.sys.record
  if s.mbxLen ch ≠ 0 then (.now mbBadMsg [], s)
  else
    (.now mbOk (toLE 16 r.serial ++ toLE 8 r.bytes ++ toLE 8 r.endurance ++ toLE 1 (s.f SYS_BILLET.LIFE_PCT 0)
      ++ toLE 1 (s.f SYS_BILLET.STATE 0) ++ toLE 2 r.replacements ++ zeros 4), s)

/-! ## Attestation and keys -/

/-- R235: ATTEST. -/
def State.msgAttest (s : State) (m : Master) (ch : Nat) : Reply × State :=
  let dst := s.mbxArg ch 0x20 8
  if s.mbxLen ch ≠ 48 || dst % 64 ≠ 0 || s.mbxArg ch 0x28 4 < 6672 then (.now mbBadMsg [], s)
  else
    let (bs, s1) := s.report (s.mbxArg ch 0 32)
    match s1.senderWrite m dst bs with
    | (false, s2) => (.now mbBadMsg [], s2)
    | (true, s2) => (.now mbOk (toLE 4 6672 ++ zeros 4), s2)

/-- The key that a KEY_ID names for a flask: that of the tenant whose policy names the flask, before one of another tenant
(log entry 48). -/
def State.namedKey (s : State) (id f : Nat) : Option HeldKey :=
  (s.sys.trust.keys.find? fun k => k.pol.keyId == id && k.pol.flask == f).orElse fun _ =>
    s.sys.trust.keys.find? fun k => k.pol.keyId == id

/-- R232: KEY_RELEASE. -/
def State.msgRelease (s : State) (ch : Nat) : Reply × State :=
  let f := s.mbxArg ch 4 1
  let slot := s.mbxArg ch 5 1
  if s.mbxLen ch ≠ 8 || 7 < f || slot < 1 || 31 < slot then (.now mbBadMsg [], s)
  else
    match s.namedKey (s.mbxArg ch 0 4) f with
    | none => (.now mbBadMsg [], s)
    | some k => if s.releaseOk k f then (.now mbOk [], s.releaseKey k f slot) else (.now mbDenied [], s)

/-! ## ETH_PORT_CFG (R287, R334) -/

/-- Bytes of an item of a section; 0 for an unknown section. -/
def itemSize : Nat → Nat
  | 0 => 16
  | 1 => 4
  | 2 => 16
  | 3 => 24
  | 4 => 8
  | 5 => 24
  | 6 => 24
  | 7 => 32
  | 8 => 24
  | 9 => 16
  | 10 => 16
  | 11 => 32
  | _ => 0

/-- A section that the switch shares among all ports. -/
def sharedSec (sec : Nat) : Bool := sec == 2 || (decide (6 ≤ sec) && decide (sec ≤ 9))

/-- The table index of item i: FIRST + i, or the entry that the item names. -/
def itemIdx (sec first i : Nat) (b : List Byte) : Nat :=
  match sec with
  | 0 => 0
  | 1 => leAt b 0 2 % 4096
  | 3 => 0
  | 5 => leAt b 0 1
  | _ => first + i

/-- Entries of a section's table. -/
def secEntries : Nat → Nat
  | 2 => 8192
  | 4 => 256
  | 6 => 1024
  | 7 => 256
  | 8 => 512
  | 9 => 1024
  | 10 => 2
  | 11 => 9
  | _ => 4096

/-- Toggles of a stream gate ascend, unused ones last. -/
def togglesOk (b : List Byte) : Bool :=
  let t := (List.range 4).map fun k => leAt b (0x10 + 4 * k) 4
  (List.range 3).all fun k => t.getD k 0 < t.getD (k + 1) 0 || t.getD k 0 == 0xFFFFFFFF && t.getD (k + 1) 0 == 0xFFFFFFFF

/-- A field of an item lies outside its range (R287, table of sections). -/
def itemBad (port sec idx : Nat) (b : List Byte) : Bool :=
  let f := leAt b
  decide (secEntries sec ≤ idx) ||
  match sec with
  | 0 => decide (1 < f 0 1) || (if port < 2 then f 1 1 != 5 else decide (4 < f 1 1)) || decide (f 2 2 < 64)
      || decide (9600 < f 2 2) || decide (4094 < f 4 2) || decide (7 < f 6 1) || decide (1 < f 7 1)
  | 1 => f 0 2 % 4096 == 0 || decide (4094 < f 0 2 % 4096) || decide (3 < f 2 1)
  | 2 => decide (4094 < f 6 2)
  | 3 => decide (f 8 4 < 1000) || decide (10 ^ 9 < f 8 4) || decide (f 0x10 2 < 1) || decide (256 < f 0x10 2)
      || decide (1 < f 0x12 1)
  | 4 => decide (f 4 4 < 8) || decide (10 ^ 9 < f 4 4)
  | 5 => decide (7 < f 0 1) || decide (1 < f 1 1)
  | 6 => decide (1 < f 0 1) || decide (2 < f 1 1) || decide (4094 < f 2 2) || (decide (255 < f 0x0A 2) && f 0x0A 2 != 0xFFFF)
      || (decide (511 < f 0x0C 2) && f 0x0C 2 != 0xFFFF) || decide (f 0x10 1 < 0x80)
  | 7 => decide (1 < f 0 1) || (decide (7 < f 1 1) && f 1 1 != 0xFF) || !togglesOk b
  | 8 => decide (3 < f 0x10 1)
  | 9 => decide (1 < f 0 1) || decide (1 < f 1 1) || (decide (512 ≤ idx) && (f 2 1 == 0 || decide (32 < f 2 1)))
  | 10 => decide (1 < f 0 1) || decide (1 < f 3 1)
  | _ => decide (1 < f 0 1) || decide (3 < f 1 1) || decide (3 < f 2 1) || decide (2 ^ 30 < f 0x10 4)

/-- The items of a list with one replaced or added. -/
def putItem (xs : List EthItem) (i : EthItem) : List EthItem :=
  xs.filter (fun y => !(y.port == i.port && y.sec == i.sec && y.idx == i.idx)) ++ [i]

/-- A field of an item as it will be once the staged items have taken effect. -/
def State.stagedField (s : State) (port sec idx off n : Nat) : Nat :=
  match s.net.ethStaged.find? fun i => i.port == port && i.sec == sec && i.idx == idx with
  | some i => leAt i.bs off n
  | none => s.ethField port sec idx off n

/-- R287, R334: at most 4 classes of a port with a shaper, and a single domain that drives the counter. -/
def State.portBad (s : State) (port : Nat) : Bool :=
  decide (4 < ((List.range 8).filter fun c => s.stagedField port 5 c 1 1 == 1).length)
    || ((List.range 2).all fun d => s.stagedField port 10 d 3 1 == 1)

/-- The committed gate control of a port: its list becomes operational at BASE_TIME; with GATE_EN 0 every gate is open. -/
def State.armGates (s : State) (port : Nat) : State :=
  if s.ethField port 3 0 0x12 1 = 1 then
    s.modGate port fun g =>
      { g with base := some (s.ethField port 3 0 0 8)
               open_ := if g.running then g.open_ else s.ethField port 3 0 0x13 1 }
  else s.modGate port fun _ => {}

/-- R288, R334: the secure association key of a channel, which the Crucible derives from the connectivity association key
that KEY_ID names; none where it holds no such key. The key itself is a free value (log entry 106). -/
def State.deriveSak (s : State) (i : EthItem) : State :=
  let k := 16 * i.port + i.idx
  let s1 := { s with net.macPns := NMap.erase s.net.macPns k, net.macSak := NMap.erase s.net.macSak k }
  if s.sys.trust.keys.any fun x => x.pol.keyId == leAt i.bs 4 4 then
    let (v, s2) := s1.fresh
    { s2 with net.macSak := NMap.insert s2.net.macSak k v }
  else s1

/-- What a committed item starts afresh: a shaper's credit, a meter's buckets, a sequence function, an association. -/
def State.itemTakes (s : State) (i : EthItem) : State :=
  match i.sec with
  | 5 => { s with net.shapers := NMap.erase s.net.shapers (8 * i.port + i.idx) }
  | 8 => { s with net.meters := NMap.erase s.net.meters i.idx }
  | 9 => { s with net.cbs := NMap.erase s.net.cbs i.idx }
  | 11 => s.deriveSak i
  | _ => s

/-- A commit makes the staged items of a port, or those of the shared tables, take effect together (log entry 54). -/
def State.commitItems (s : State) (port : Nat) (shared : Bool) : State :=
  let mine (i : EthItem) : Bool := i.port == port && sharedSec i.sec == shared
  let xs := s.net.ethStaged.filter mine
  let s1 := { s with net.ethItems := xs.foldl putItem s.net.ethItems
                     net.ethStaged := s.net.ethStaged.filter fun i => !mine i }.each xs State.itemTakes
  if xs.any fun i => i.sec == 3 then s1.armGates port else s1

/-- ETH_PORT_CFG. -/
def State.msgEth (s : State) (m : Master) (ch : Nat) : Reply × State :=
  let port0 := s.mbxArg ch 0 1
  let sec := s.mbxArg ch 1 1
  let count := s.mbxArg ch 2 2
  let first := s.mbxArg ch 4 2
  let fl := s.mbxArg ch 6 2
  let port := if sharedSec sec then 0 else port0
  let n := itemSize sec
  if n = 0 || 11 < port || count < 1 || s.mbxLen ch ≠ 8 + count * n || 2016 < s.mbxLen ch || 1 < fl
      || ((sec = 0 || sec = 3) && count ≠ 1) then (.now mbBadMsg [], s)
  else if (if sharedSec sec then ch != 0 || s.partOf m != 8 else s.partOf m != s.owner 1 port) then (.now mbDenied [], s)
  else
    let items : List EthItem := (List.range count).map fun i =>
      let b := s.mbxBytes ch (24 + i * n) n
      { port := port, sec := sec, idx := itemIdx sec first i b, bs := b }
    let s1 := { s with net.ethStaged := items.foldl putItem s.net.ethStaged }
    if (items.any fun i => itemBad port sec i.idx i.bs) || s1.portBad port then (.now mbBadMsg [], s)
    else
      let s2 := if fl = 1 then s1.commitItems port (sharedSec sec) else s1
      (.now mbOk (toLE 1 (b2n (s2.ethUp port)) ++ toLE 1 (s2.ethField port 0 0 1 1) ++ toLE 2 count ++ zeros 4), s2)

/-! ## DSP_LINK_CFG -/

/-- The refresh rate of a timing in mHz, from the pixel clock in kHz and the eight widths and heights. -/
def refreshMhz (pclk : Nat) (t : List Nat) : Nat := pclk * 1000000 / ((t.take 4).sum * (t.drop 4).sum)

/-- Timing of an output: HACTIVE to VSYNC back porch. -/
def State.dspTiming (s : State) (ch : Nat) : List Nat := (List.range 8).map fun k => s.mbxArg ch (0x0C + 2 * k) 2

/-- A timing beyond 3,840 × 2,160 at 60 Hz (R6, chapter 11), or one of no pixels. -/
def timingBad (pclk : Nat) (t : List Nat) : Bool :=
  let total := (t.take 4).sum * (t.drop 4).sum
  decide (3840 < t.getD 0 0) || decide (2160 < t.getD 4 0) || total == 0 || decide (60 * total < pclk * 1000)

/-- A field of DSP_LINK_CFG lies outside its range: DisplayPort and eDP on outputs 0 and 1, DSI-2 on 2 and 3. -/
def State.dspBad (s : State) (ch : Nat) : Bool :=
  let o := s.mbxArg ch 0 1
  let fl := s.mbxArg ch 1 1
  let lanes := s.mbxArg ch 2 1
  let bpc := s.mbxArg ch 3 1
  let rate := s.mbxArg ch 4 2
  s.mbxLen ch != 28 || decide (3 < o) || decide (63 < fl) || !(bpc == 6 || bpc == 8 || bpc == 10)
    || decide (600000 < s.mbxArg ch 8 4) || timingBad (s.mbxArg ch 8 4) (s.dspTiming ch)
    || (if o < 2 then decide (3 < rate) || bit fl 5 || !(lanes == 1 || lanes == 2 || lanes == 4)
        else decide (rate < 8) || decide (450 < rate) || bit fl 3 || bit fl 4 || lanes != (if bit fl 5 then 3 else 4))

/-- DSP_LINK_CFG: link and timing of an output. -/
def State.msgDsp (s : State) (m : Master) (ch : Nat) : Reply × State :=
  let o := s.mbxArg ch 0 1
  let t := s.dspTiming ch
  let en := bit (s.mbxArg ch 1 1) 0
  let pclk := s.mbxArg ch 8 4
  if s.dspBad ch then (.now mbBadMsg [], s)
  else if s.partOf m ≠ s.owner 4 o then (.now mbDenied [], s)
  else
    (.now mbOk (toLE 1 (s.mbxArg ch 2 1) ++ toLE 1 (s.mbxArg ch 4 2) ++ zeros 2 ++ toLE 4 (refreshMhz pclk t)),
     s.modDisp o fun d =>
       { d with link := [s.mbxArg ch 1 1, s.mbxArg ch 2 1, s.mbxArg ch 3 1, s.mbxArg ch 4 2, pclk] ++ t, linkUp := en })

/-! ## Delivery (R331) -/

/-- The processor that serves a message; 0 for any, 7 for a MSG_ID that no processor knows. -/
def msgTarget : Nat → Nat
  | 0x0001 => 0
  | 0x0010 => 2
  | 0x0011 => 2
  | 0x0020 => 1
  | 0x0030 => 1
  | 0x0031 => 1
  | 0x0032 => 1
  | 0x0033 => 1
  | 0x0040 => 2
  | 0x0041 => 2
  | 0x0050 => 3
  | 0x0060 => 6
  | _ => 7

/-- A message that only the manager may send. -/
def managerMsg (msg : Nat) : Bool := !(msg == 0x0001 || msg == 0x0040 || msg == 0x0050 || msg == 0x0060)

/-- The work of a message; `ok` is what the target's verification finds where it verifies something. -/
def State.msgWork (s : State) (m : Master) (ch : Nat) (ok : Bool) : Reply × State :=
  match s.mbxMsg ch with
  | 0x0001 => s.msgVersion ch
  | 0x0010 => s.msgLoad m ch ok
  | 0x0011 => s.msgRestart ch
  | 0x0020 => s.msgPower ch
  | 0x0030 => s.msgRecord m ch
  | 0x0031 => s.msgPrepare ch
  | 0x0032 => s.msgPair ch ok
  | 0x0033 => s.msgBillet ch
  | 0x0040 => s.msgAttest m ch
  | 0x0041 => s.msgRelease ch
  | 0x0050 => s.msgEth m ch
  | 0x0060 => s.msgDsp m ch
  | _ => (.now mbBadMsg [], s)

/-- R229: with ENTRY 1 the application cores reach the Crucible by monitor calls alone; PCIe hosts, and so an instance bound
to a virtual function, keep the mailbox (DESIGN CHOICE: such a request is DENIED, log entry 182). -/
def State.entryDenied (s : State) (m : Master) (ch : Nat) : Bool :=
  s.sys.power.entry == 1 && s.mbxTarget ch == 2 && decide (ch < 64) &&
    (match m with
     | .manager => true
     | .core _ => true
     | .inst i => s.vfOf i == 0xFFFF
     | _ => false)

/-- The last messages of a channel to the Cupola that count against its allowance: those of the last 10 ms. -/
def State.mbxRecent (s : State) (ch : Nat) : List Nat :=
  (NMap.get s.sys.mbxTimes [] ch).filter fun t => !reached s.now (t + 10000000)

/-- R337: what an overloaded Cupola does with a request beyond the allowance of its channel, 8 messages in any 10 ms, or beyond
32 requests pending: BUSY, with the time until the allowance refills. Whether it is overloaded is a free value (log entry
187). Channel 0 has no allowance limit. -/
def State.shed (s : State) (ch : Nat) : Option Nat × State :=
  if s.mbxTarget ch ≠ 1 then (none, s)
  else
    let xs := s.mbxRecent ch
    let beyond := ch != 0 && decide (8 ≤ xs.length)
    let full := decide (32 < ((List.range 64).filter fun c => s.fb MBX_DB.REQ c).length)
    let (v, s1) := if beyond || full then s.fresh else (0, s)
    if v % 2 = 1 then
      (some (if beyond then (10000999 - s.since (xs.getD (xs.length - 8) s.now)) / 1000 else 0), s1)
    else (none, { s1 with sys.mbxTimes := NMap.set s1.sys.mbxTimes [] ch (xs ++ [s.now]) })

/-- The target's answer: an unknown target or message is BAD_MSG; a restarting processor, or one that has not been loaded,
answers RESTARTING (log entry 55); then version, sender and message are judged. -/
def State.msgServe (s : State) (m : Master) (ch : Nat) (ok : Bool) : Reply × State :=
  let t := s.mbxTarget ch
  let k := msgTarget (s.mbxMsg ch)
  if t < 1 || 6 < t then (.now mbBadMsg [], s)
  else if !(s.fwp t).running then (.now mbRestarting [], s)
  else
    match s.shed ch with
    | (some r, s1) => (.busy r, s1)
    | (none, s1) =>
      if bits (s1.mbxW0 ch) 63 56 ≠ 1 then (.now mbVersion [], s1)
      else if k = 7 || (k ≠ 0 && k ≠ t) then (.now mbBadMsg [], s1)
      else if (managerMsg (s1.mbxMsg ch) && ch != 0 && decide (ch < 64)) || s1.entryDenied m ch then (.now mbDenied [], s1)
      else s1.msgWork m ch ok

/-- R15: the crossing to the target of a request is closed: the Cupola lies in SCLK, the Crucible in KCLK. -/
def State.targetClosed (s : State) (ch : Nat) : Bool :=
  (s.mbxTarget ch == 1 && s.sys.power.sclkLost) || (s.mbxTarget ch == 2 && s.clockLost .kclk)

/-- R331: a set of REQ: while REQ is 1b it is ignored and counted; otherwise the request is delivered and answered. -/
def State.setReq (s : State) (m : Master) (ch : Nat) (ok : Bool) : State :=
  if s.fb MBX_DB.REQ ch then s.incSat MBX_DB.DROPPED ch 1
  else if s.targetClosed ch then s.emit (.clockError m)
  else
    match (s.setF MBX_DB.REQ ch 1).msgServe m ch ok with
    | (.now st bs, s1) => s1.respond ch st bs
    | (.busy r, s1) => s1.respondMbx ch mbBusy r []
    | (.later, s1) => s1

/-- R229: a monitor call at the Crucible, served as the message of the manager that Config.monitorMsg reads from a0 to a5
(log entry 49). While the Crucible restarts the call returns RESTARTING in a0. -/
def State.monitorServe (s : State) (core : Nat) (args : List Word) : State :=
  let ch := monitorChan core
  match Config.monitorMsg args with
  | none => s.respond ch (if (s.fwp 2).running then mbBadMsg else mbRestarting) []
  | some (msg, bs) =>
    let page := toLE 8 (2 ^ 56 + 2 * 2 ^ 40 + msg % 2 ^ 16 * 2 ^ 16) ++ toLE 8 (bs.length * 2 ^ 48) ++ bs.take 2016
    match { s with mem.mbx := putMbx s.mem.mbx (4096 * ch) page }.msgServe .manager ch true with
    | (.now st _, s1) => { s1 with mem.mbx := s.mem.mbx }.respond ch st []
    | (.busy _, s1) => { s1 with mem.mbx := s.mem.mbx }
    | (.later, s1) => { s1 with mem.mbx := s.mem.mbx }

/-- R229: MONITOR_CALL: an ECALL from HS-mode with a7 = 4757_0001h, under ENTRY 1. -/
def execMonitorCall (core : Nat) (a7 : Word) (args : List Word) (s : State) : Res :=
  unit s (decide (core < 16) && args.length == 6)
    (if s.sys.power.entry = 1 && a7.toNat = 0x47570001 && s.sys.power.mode = .on then s.monitorServe core args else s)

/-- Offset of MBX_DB of a channel within the register region. -/
def mbxOff (ch : Nat) : Nat := 0x40000 + 0x1000 * ch + 0x7F0

/-- The device has the channel. -/
def isChannel (ch : Nat) : Bool := decide (ch < 64)

/-- R354: channel 0 is the manager's page; another page accepts its instance and partition 8. -/
def State.chanDenied (s : State) (m : Master) (ch : Nat) : Bool := ch == 0 && s.partOf m != 8

/-- A set of REQ by a master on a channel whose request carries a message; R15 where the crossing is closed. -/
def State.mbxRow (s : State) (m : Master) (ch msg : Nat) (ok : Bool) : State :=
  if s.sys.power.mode ≠ .on || (!s.fb MBX_DB.REQ ch && s.mbxMsg ch ≠ msg) then s
  else if s.clockLost .fclk then s.emit (.clockError m)
  else if s.chanDenied m ch then s.regFlag SYS_REGERR.DENIED m (mbxOff ch) false false
  else s.setReq m ch ok

/-- R333: GET_VERSION. -/
def execGetVersion (m : Master) (ch : Nat) (s : State) : Res := unit s (isChannel ch) (s.mbxRow m ch 0x0001 true)

/-- R332: FW_LOAD. -/
def execFwLoad (m : Master) (ch : Nat) (ok : Bool) (s : State) : Res := unit s (isChannel ch) (s.mbxRow m ch 0x0010 ok)

/-- R332: FW_RESTART. -/
def execFwRestart (m : Master) (ch : Nat) (s : State) : Res := unit s (isChannel ch) (s.mbxRow m ch 0x0011 true)

/-- R325: POWER_MODE. -/
def execPowerMode (m : Master) (ch : Nat) (s : State) : Res := unit s (isChannel ch) (s.mbxRow m ch 0x0020 true)

/-- R333: FIELD_RECORD_READ. -/
def execFieldRecordRead (m : Master) (ch : Nat) (s : State) : Res := unit s (isChannel ch) (s.mbxRow m ch 0x0030 true)

/-- R340: BILLET_PREPARE. -/
def execBilletPrepare (m : Master) (ch : Nat) (s : State) : Res := unit s (isChannel ch) (s.mbxRow m ch 0x0031 true)

/-- R338: BILLET_PAIR. -/
def execBilletPair (m : Master) (ch : Nat) (ok : Bool) (s : State) : Res := unit s (isChannel ch) (s.mbxRow m ch 0x0032 ok)

/-- R339: BILLET_STATUS. -/
def execBilletStatus (m : Master) (ch : Nat) (s : State) : Res := unit s (isChannel ch) (s.mbxRow m ch 0x0033 true)

/-- R235: ATTEST. -/
def execAttest (m : Master) (ch : Nat) (s : State) : Res := unit s (isChannel ch) (s.mbxRow m ch 0x0040 true)

/-- R232: KEY_RELEASE. -/
def execKeyRelease (m : Master) (ch : Nat) (s : State) : Res := unit s (isChannel ch) (s.mbxRow m ch 0x0041 true)

/-- R334: ETH_PORT_CFG. -/
def execEthPortCfg (m : Master) (ch : Nat) (s : State) : Res := unit s (isChannel ch) (s.mbxRow m ch 0x0050 true)

/-- R333: DSP_LINK_CFG. -/
def execDspLinkCfg (m : Master) (ch : Nat) (s : State) : Res := unit s (isChannel ch) (s.mbxRow m ch 0x0060 true)

/-- R333: UNKNOWN_MSG_ID: a request whose MSG_ID no processor knows, or whose MAJOR is not served. -/
def execUnknownMsgId (m : Master) (ch : Nat) (s : State) : Res :=
  unit s (isChannel ch)
    (if msgTarget (s.mbxMsg ch) = 7 || bits (s.mbxW0 ch) 63 56 ≠ 1 then s.mbxRow m ch (s.mbxMsg ch) true else s)

end Sys2Proof.Machine
end

