-- ==== Sys2Proof/Machine/QueueCmd.lean ====
section
/-! DEFINITION. The commands of queues and jobs: scanner rounds, the taking, start, expiry, completion and fault
of jobs, and the NOP and FENCE jobs (chapter 02). -/

namespace Sys2Proof.Machine

/-- R38: SCANNER_ROUND: a round starts when none runs, and `served` of its queues are served. -/
def execScannerRound (served : Nat) (s : State) : Res := .next (s.scan served)

/-- R31, R35: JOB_FETCH. -/
def execJobFetch (q : Nat) (s : State) : Res := unit s (isQueue q) (s.fetchJob q)

/-- R32, R42, R43: JOB_START. -/
def execJobStart (j : Nat) (s : State) : Res := .next (s.startJob j)

/-- R34: JOB_EXPIRE. -/
def execJobExpire (j : Nat) (s : State) : Res := .next (s.expireJob j)

/-- R42: JOB_COMPLETE. -/
def execJobComplete (j : Nat) (s : State) : Res := .next (s.completeJob j)

/-- R37, R182: JOB_FAULT of a running job, at one of its tiles; the step or prefill of an attention job closes (R123). -/
def execJobFault (j : Nat) (tile : Nat) (s : State) : Res :=
  .next (match s.job j with
    | some x => if x.phase = .running then (s.closeRunOf x).faultJob j stJobFault tile else s
    | none => s)

/-- R34: NOP_JOB does nothing and completes. -/
def execNopJob (j : Nat) (s : State) : Res := .next (s.runningJob j 0 fun _ => s.endJob j stOk none)

/-- R34: FENCE_JOB does nothing beyond its flags. -/
def execFenceJob (j : Nat) (s : State) : Res := .next (s.runningJob j 11 fun _ => s.endJob j stOk none)

end Sys2Proof.Machine
end

