-- ==== Sys2Proof/Machine/Operands.lean ====
section
/-! DEFINITION. Operands of register accesses: the decoding of addresses (R344, R351, R353, R358 and the offset lists
of the chapters), the masters that each register accepts (R354), the value a read returns (R343, R344), and the
capability views (R27, R356). -/

namespace Sys2Proof.Machine

/-! ## What lies at an offset -/

/-- What an aligned 64-bit location of the register region or the doorbell region holds. -/
inductive Loc where
  /-- occurrence `i` of a register map -/
  | reg (r : Reg) (i : Nat)
  /-- occurrence `i` of a map seen through a read-only window -/
  | view (r : Reg) (i : Nat)
  /-- entry k of SYS_CAP -/
  | cap (k : Nat)
  /-- entry k of the capability view of instance i -/
  | instCap (i k : Nat)
  /-- eight bytes of the request or response of a mailbox channel -/
  | mbx (ch off : Nat)
  /-- reserved space of a sprue page: reads zero and ignores writes -/
  | zero
  /-- an offset of a block that no chapter assigns (R353) -/
  | unassigned
  /-- no block, or the CRU block, where every access faults (R228, R351) -/
  | fault
  deriving DecidableEq, Repr

/-- A location at stride `k` when its number is below `n`. -/
def strided (o k n : Nat) (r : Reg) : Loc :=
  if o % k = 0 && o / k < n then .reg r (o / k) else .unassigned

/-- One of several registers of a record of `k` bytes. -/
def record (o k n : Nat) (rs : List Reg) : Loc :=
  if o / k < n then
    match rs[o % k / 8]? with
    | some r => .reg r (o / k)
    | none => .unassigned
  else .unassigned

/-- One register of a list at consecutive offsets, without an index. -/
def fixed (o : Nat) (rs : List Reg) : Loc :=
  match rs[o / 8]? with
  | some r => .reg r 0
  | none => .unassigned

/-- The SYS block (table "SYS block offsets" of chapter 16). -/
def sysAt (o : Nat) : Loc :=
  if o < 0x20 then fixed o [.sysId, .sysRegerr, .sysLock, .sysIrqcfg]
  else if o < 0x40 then fixed (o - 0x20) [.sysSafecfg, .sysTbbase, .sysSafestat]
  else if o < 0x100 then fixed (o - 0x40) [.sysPwrctrl, .sysPwrstat, .sysStbytime, .sysBootstat, .sysBillet]
  else if o < 0x800 then record (o - 0x100) 0x20 8 [.sysFlctrl, .sysFlres, .sysFlshare]
  else if o < 0x1000 then strided (o - 0x800) 8 256 .sysInst
  else if o < 0x2000 then strided (o - 0x1000) 8 512 .sysVfmap
  else if o < 0x3000 then
    let k := (o - 0x2000) / 0x10
    if 1 ≤ k && k ≤ 9 then .reg .sysAssign (2 * k + (o - 0x2000) % 0x10 / 8) else .unassigned
  else if o < 0x8000 then record (o - 0x3000) 0x20 32 [.sysBrwin0, .sysBrwin1, .sysBrwin2]
  else if o < 0x9000 then .cap ((o - 0x8000) / 8)
  else if o < 0x40000 then .unassigned
  else
    let ch := (o - 0x40000) / 0x1000
    let p := o % 0x1000
    if p = 0x7F0 then .reg .mbxDb ch else if p = 0x7F8 then .unassigned else .mbx ch p

/-- The TIME block (R284). -/
def timeAt (o : Nat) : Loc :=
  if o < 0x100 then fixed o [.timeNowNs, .timeNowFrac, .timeInc, .timeStep, .timeCtrl]
  else record (o - 0x100) 0x10 8 [.timeCmp0, .timeCmp1]

/-- The GATE block (R187). -/
def gateAt (o : Nat) : Loc :=
  if o < 0x200 then record o 0x20 9 [.gateCfg, .gateStat] else strided (o - 0x200) 8 14 .gateRt

/-- The DSP block (R260). -/
def dspAt (o : Nat) : Loc :=
  if o < 0x100 then strided o 8 8 .dspCamport
  else if o < 0x400 then record (o - 0x100) 0x20 24 [.dspCamctx0, .dspCamctx1, .dspCamstat]
  else if o < 0x500 then record (o - 0x400) 0x40 4 [.dspOutcfg, .dspOutstat, .dspTtcfg, .dspTtstat]
  else strided (o - 0x500) 8 32 .dspFlip

/-- The WSK block (R321). -/
def wskAt (o : Nat) : Loc :=
  if o < 0x100 then fixed o [.wskId, .wskStat]
  else if o < 0x1000 then record (o - 0x100) 0x20 4 [.wskPortcfg, .wskPortstat, .wskDozestat]
  else if o < 0x2000 then strided (o - 0x1000) 8 64 .wskRoute
  else record (o - 0x2000) 0x10 16 [.wskIn0, .wskIn1]

/-- The MEM block (R210). -/
def memAt (o : Nat) : Loc :=
  if o < 0x100 then fixed o [.memCtrl, .memSpare]
  else if o < 0x200 then strided (o - 0x100) 8 8 .memChstat
  else if o < 0x300 then strided (o - 0x200) 8 9 .memCways
  else if o < 0x1000 then strided (o - 0x300) 8 9 .memLres
  else record (o - 0x1000) 0x10 32 [.memRgn0, .memRgn1]

/-- The ARR block (R69, R90, R159). -/
def arrAt (o : Nat) : Loc :=
  record o 0x1000 34 [.arrStatus, .arrProg, .arrCtrl, .arrPerf, .arrRate, .arrResident, .arrNumstat, .arrNumcnt,
    .arrSatcfg, .arrSatcnt, .arrSatwin, .arrRcstat]

/-- The DTU block (R211, R214, R221). -/
def dtuAt (o : Nat) : Loc :=
  if o < 0x100 then .unassigned
  else if o < 0x8000 then strided (o - 0x100) 8 8 .dtuWalk
  else if o < 0x9000 then .reg .dtuIommu ((o - 0x8000) / 8)
  else if o < 0x10000 then .unassigned
  else record (o - 0x10000) 0x10 256 [.dtuDlogcfg, .dtuDlogidx]

/-- The ATT block (R130). -/
def attAt (o : Nat) : Loc :=
  if o < 0x100 then .unassigned
  else if o < 0x10000 then strided (o - 0x100) 8 8 .attFslice
  else record (o - 0x10000) 0x40 256
    [.attIpool, .attIframes, .attIspill, .attIquota, .attIstat, .attIcnt, .attIctrl, .attIspilled]

/-- The POUR block (R177); the windows show the banks that are shadow and active (R165). -/
def State.pourAt (s : State) (o : Nat) : Loc :=
  let ent (p bank : Nat) (f : Reg → Nat → Loc) : Loc :=
    f (if p % 16 = 0 then .pourEnt0 else .pourEnt1) (4096 * bank + p / 16)
  if o < 0x100 then fixed o [.pourCtrl, .pourT0, .pourStat]
  else if o < 0x140 then strided (o - 0x100) 8 8 .pourFlag
  else if o < 0x10000 then strided (o - 0x140) 8 8 .pourFlog
  else if o < 0x40000 then strided (o - 0x10000) 8 16384 .pourQjpf
  else if o < 0x50000 then ent (o - 0x40000) (1 - s.f POUR_CTRL.ACTIVE_BANK 0) .reg
  else if o < 0x60000 then ent (o - 0x50000) (s.f POUR_CTRL.ACTIVE_BANK 0) .view
  else .unassigned

/-- The SPR block (R358). -/
def sprAt (o : Nat) : Loc :=
  record o 0x40 16384 [.sprQcfg, .sprQsubBase, .sprQcplBase, .sprQrestore0, .sprQrestore1, .sprQrestore2]

/-- The ETH block (R304). -/
def ethAt (o : Nat) : Loc :=
  if o < 0x1000 then strided o 8 2 .ethHostcfg
  else if o < 0x10000 then record (o - 0x1000) 0x10 256 [.ethRingcfg0, .ethRingcfg1]
  else strided (o - 0x10000) 0x1000 256 .ethRingdb

/-- The CAN block (R304). -/
def canAt (o : Nat) : Loc :=
  if o < 0x20000 then
    let c := o / 0x1000
    let p := o % 0x1000
    if 20 ≤ c then .unassigned
    else if p = 0 then .reg .canCtrl c
    else if p = 8 then .reg .canFltrng c
    else if p = 0x10 then .reg .canStat c
    else if 0x20 ≤ p && p < 0xA0 then
      .reg (if p % 0x10 = 0 then .canJ19390 else .canJ19391) (8 * c + (p - 0x20) / 0x10)
    else .unassigned
  else if o < 0x30000 then
    record (o - 0x20000) 0x10 320 [.canRingcfg0, .canRingcfg1]
  else if o < 0x40000 then fixed (o - 0x30000) [.canTuncfg]
  else if o < 0x80000 then record (o - 0x40000) 0x10 4096 [.canFltr0, .canFltr1]
  else strided (o - 0x80000) 0x1000 320 .canRingdb

/-- R353: the location at an 8-byte aligned offset of the register region. -/
def State.locAt (s : State) (o : Nat) : Loc :=
  if o < 0x80000 then sysAt o
  else if o < 0x81000 then fixed (o - 0x80000) [.cupWdog]
  else if o < 0xA0000 then .fault
  else if o < 0xA1000 then timeAt (o - 0xA0000)
  else if o < 0xB0000 then .fault
  else if o < 0xB1000 then gateAt (o - 0xB0000)
  else if o < 0xC0000 then .fault
  else if o < 0xC1000 then fixed (o - 0xC0000) [.runStat, .runCnt, .runCnt2]
  else if o < 0xD0000 then .fault
  else if o < 0xD1000 then dspAt (o - 0xD0000)
  else if o < 0xE0000 then .fault
  else if o < 0xE4000 then wskAt (o - 0xE0000)
  else if o < 0x100000 then .fault
  else if o < 0x110000 then memAt (o - 0x100000)
  else if o < 0x120000 then strided (o - 0x110000) 0x1000 16 .vecStatus
  else if o < 0x200000 then .fault
  else if o < 0x240000 then arrAt (o - 0x200000)
  else if o < 0x300000 then .fault
  else if o < 0x320000 then dtuAt (o - 0x300000)
  else if o < 0x400000 then .fault
  else if o < 0x420000 then attAt (o - 0x400000)
  else if o < 0x800000 then .fault
  else if o < 0x880000 then s.pourAt (o - 0x800000)
  else if o < 0x1000000 then .fault
  else if o < 0x1100000 then sprAt (o - 0x1000000)
  else if o < 0x2000000 then .fault
  else if o < 0x2200000 then ethAt (o - 0x2000000)
  else if o < 0x4000000 then .fault
  else if o < 0x4200000 then canAt (o - 0x4000000)
  else .fault

/-- The location at an 8-byte aligned offset of the doorbell region: page i is the sprue page of instance i. -/
def doorAt (o : Nat) : Loc :=
  let i := o / 0x1000
  let p := o % 0x1000
  if p < 0x200 then .reg .sprDb (queueNo i (p / 8))
  else if p < 0x400 then .reg .sprQstat (queueNo i ((p - 0x200) / 8))
  else if p < 0x800 then .zero
  else .instCap i ((p - 0x800) / 8)

/-! ## Where a register lies: the offset that SYS_REGERR captures (R347) -/

/-- Offset of occurrence `i` of a map in its region; `s` tells which bank the shadow window shows. -/
def Reg.offset (r : Reg) (i : Nat) : Nat :=
  match r with
  | .sprDb => i / 64 * 0x1000 + i % 64 * 8
  | .sprQstat => i / 64 * 0x1000 + 0x200 + i % 64 * 8
  | .sprQcfg => 0x1000000 + 0x40 * i
  | .sprQsubBase => 0x1000008 + 0x40 * i
  | .sprQcplBase => 0x1000010 + 0x40 * i
  | .sprQrestore0 => 0x1000018 + 0x40 * i
  | .sprQrestore1 => 0x1000020 + 0x40 * i
  | .sprQrestore2 => 0x1000028 + 0x40 * i
  | .arrStatus => 0x200000 + 0x1000 * i
  | .arrProg => 0x200008 + 0x1000 * i
  | .arrCtrl => 0x200010 + 0x1000 * i
  | .arrPerf => 0x200018 + 0x1000 * i
  | .arrRate => 0x200020 + 0x1000 * i
  | .arrResident => 0x200028 + 0x1000 * i
  | .arrNumstat => 0x200030 + 0x1000 * i
  | .arrNumcnt => 0x200038 + 0x1000 * i
  | .arrSatcfg => 0x200040 + 0x1000 * i
  | .arrSatcnt => 0x200048 + 0x1000 * i
  | .arrSatwin => 0x200050 + 0x1000 * i
  | .arrRcstat => 0x200058 + 0x1000 * i
  | .attFslice => 0x400100 + 8 * i
  | .attIpool => 0x410000 + 0x40 * i
  | .attIframes => 0x410008 + 0x40 * i
  | .attIspill => 0x410010 + 0x40 * i
  | .attIquota => 0x410018 + 0x40 * i
  | .attIstat => 0x410020 + 0x40 * i
  | .attIcnt => 0x410028 + 0x40 * i
  | .attIctrl => 0x410030 + 0x40 * i
  | .attIspilled => 0x410038 + 0x40 * i
  | .sysId => 0
  | .sysRegerr => 8
  | .sysLock => 0x10
  | .sysIrqcfg => 0x18
  | .sysSafecfg => 0x20
  | .sysTbbase => 0x28
  | .sysSafestat => 0x30
  | .sysPwrctrl => 0x40
  | .sysPwrstat => 0x48
  | .sysStbytime => 0x50
  | .sysBootstat => 0x58
  | .sysBillet => 0x60
  | .sysFlctrl => 0x100 + 0x20 * i
  | .sysFlres => 0x108 + 0x20 * i
  | .sysFlshare => 0x110 + 0x20 * i
  | .sysInst => 0x800 + 8 * i
  | .sysVfmap => 0x1000 + 8 * i
  | .sysAssign => 0x2000 + 8 * i
  | .sysBrwin0 => 0x3000 + 0x20 * i
  | .sysBrwin1 => 0x3008 + 0x20 * i
  | .sysBrwin2 => 0x3010 + 0x20 * i
  | .mbxDb => 0x407F0 + 0x1000 * i
  | .cupWdog => 0x80000
  | .timeNowNs => 0xA0000
  | .timeNowFrac => 0xA0008
  | .timeInc => 0xA0010
  | .timeStep => 0xA0018
  | .timeCtrl => 0xA0020
  | .timeCmp0 => 0xA0100 + 0x10 * i
  | .timeCmp1 => 0xA0108 + 0x10 * i
  | .gateCfg => 0xB0000 + 0x20 * i
  | .gateStat => 0xB0008 + 0x20 * i
  | .gateRt => 0xB0200 + 8 * i
  | .runStat => 0xC0000
  | .runCnt => 0xC0008
  | .runCnt2 => 0xC0010
  | .dspCamport => 0xD0000 + 8 * i
  | .dspCamctx0 => 0xD0100 + 0x20 * i
  | .dspCamctx1 => 0xD0108 + 0x20 * i
  | .dspCamstat => 0xD0110 + 0x20 * i
  | .dspOutcfg => 0xD0400 + 0x40 * i
  | .dspOutstat => 0xD0408 + 0x40 * i
  | .dspTtcfg => 0xD0410 + 0x40 * i
  | .dspTtstat => 0xD0418 + 0x40 * i
  | .dspFlip => 0xD0500 + 8 * i
  | .wskId => 0xE0000
  | .wskStat => 0xE0008
  | .wskPortcfg => 0xE0100 + 0x20 * i
  | .wskPortstat => 0xE0108 + 0x20 * i
  | .wskDozestat => 0xE0110 + 0x20 * i
  | .wskRoute => 0xE1000 + 8 * i
  | .wskIn0 => 0xE2000 + 0x10 * i
  | .wskIn1 => 0xE2008 + 0x10 * i
  | .memCtrl => 0x100000
  | .memSpare => 0x100008
  | .memChstat => 0x100100 + 8 * i
  | .memCways => 0x100200 + 8 * i
  | .memLres => 0x100300 + 8 * i
  | .memRgn0 => 0x101000 + 0x10 * i
  | .memRgn1 => 0x101008 + 0x10 * i
  | .vecStatus => 0x110000 + 0x1000 * i
  | .dtuWalk => 0x300100 + 8 * i
  | .dtuIommu => 0x308000 + 8 * i
  | .dtuDlogcfg => 0x310000 + 0x10 * i
  | .dtuDlogidx => 0x310008 + 0x10 * i
  | .pourCtrl => 0x800000
  | .pourT0 => 0x800008
  | .pourStat => 0x800010
  | .pourFlag => 0x800100 + 8 * i
  | .pourFlog => 0x800140 + 8 * i
  | .pourQjpf => 0x810000 + 8 * i
  | .pourEnt0 => 0x840000 + i % 4096 * 16
  | .pourEnt1 => 0x840008 + i % 4096 * 16
  | .ethHostcfg => 0x2000000 + 8 * i
  | .ethRingcfg0 => 0x2001000 + 0x10 * i
  | .ethRingcfg1 => 0x2001008 + 0x10 * i
  | .ethRingdb => 0x2010000 + 0x1000 * i
  | .canCtrl => 0x4000000 + 0x1000 * i
  | .canFltrng => 0x4000008 + 0x1000 * i
  | .canStat => 0x4000010 + 0x1000 * i
  | .canJ19390 => 0x4000020 + i / 8 * 0x1000 + i % 8 * 0x10
  | .canJ19391 => 0x4000028 + i / 8 * 0x1000 + i % 8 * 0x10
  | .canRingcfg0 => 0x4020000 + 0x10 * i
  | .canRingcfg1 => 0x4020008 + 0x10 * i
  | .canTuncfg => 0x4030000
  | .canFltr0 => 0x4040000 + 0x10 * i
  | .canFltr1 => 0x4040008 + 0x10 * i
  | .canRingdb => 0x4080000 + 0x1000 * i

/-- The register lies in the sprue doorbell region. -/
def Reg.inDoor (r : Reg) : Bool := r == .sprDb || r == .sprQstat

/-! ## Who may reach a register (R354) -/

/-- The controllers whose filter range holds entry e. -/
def State.fltrUsers (s : State) (e : Nat) : List Nat :=
  (List.range 20).filter fun c => decide (s.f CAN_FLTRNG.BASE c ≤ e) &&
    decide (e < s.f CAN_FLTRNG.BASE c + s.f CAN_FLTRNG.COUNT c)

/-- The master is the writer that SERVO names (R278). -/
def State.isServo (s : State) (m : Master) : Bool :=
  if s.f TIME_CTRL.SERVO 0 = 0 then m == .switchCtl else s.partOf m == 8

/-- A resource of a class accepts instances of the flask that owns it, partition 8 where the manager does, or the Crucible
or the Cupola (R230). -/
def State.ownedOk (s : State) (cls idx : Nat) (m : Master) : Bool :=
  let o := s.owner cls idx
  if o = 9 then m == .crucible else if o = 10 then m == .cupola else decide (o ≤ 8) && s.partOf m == o

/-- A page mapped to an instance accepts that instance and partition 8. -/
def State.pageOk (s : State) (i : Nat) (m : Master) : Bool := s.partOf m == 8 || s.masterInst m == some i

/-- A PCIe host reaches nothing but the sprue page of its instance, through BAR0 of its function (R225). -/
def hostBars (r : Reg) : Master → Bool
  | .host _ _ => r == .sprDb || r == .sprQstat
  | _ => true

/-- R354: the register accepts an access of the master. `port` is the camera port that decides for a context. -/
def State.permits (s : State) (r : Reg) (i : Nat) (m : Master) (write : Bool) (port : Nat) : Bool :=
  hostBars r m &&
  match r with
  | .sprDb => s.pageOk (instOf i) m
  | .sprQstat => s.pageOk (instOf i) m
  | .mbxDb => i != 0 || s.partOf m == 8
  | .ethRingdb => s.pageOk (s.f ETH_RINGCFG0.INSTANCE i) m
  | .canRingdb => s.pageOk (s.f CAN_RINGCFG0.INSTANCE i) m
  | .dspCamport => s.ownedOk 3 i m
  | .dspCamctx0 => s.ownedOk 3 port m
  | .dspCamctx1 => s.ownedOk 3 port m
  | .dspCamstat => s.ownedOk 3 port m
  | .dspOutcfg => s.ownedOk 4 i m
  | .dspOutstat => s.ownedOk 4 i m
  | .dspTtstat => s.ownedOk 4 i m
  | .dspFlip => s.ownedOk 4 (i / 8) m
  | .canCtrl => s.ownedOk 2 i m
  | .canFltrng => s.ownedOk 2 i m
  | .canStat => s.ownedOk 2 i m
  | .canJ19390 => s.ownedOk 2 (i / 8) m
  | .canJ19391 => s.ownedOk 2 (i / 8) m
  | .canRingcfg0 => s.ownedOk 2 (i / 16) m
  | .canRingcfg1 => s.ownedOk 2 (i / 16) m
  | .canFltr0 => if (s.fltrUsers i).isEmpty then s.partOf m == 8 else (s.fltrUsers i).any fun c => s.ownedOk 2 c m
  | .canFltr1 => if (s.fltrUsers i).isEmpty then s.partOf m == 8 else (s.fltrUsers i).any fun c => s.ownedOk 2 c m
  | .timeNowNs => true
  | .timeNowFrac => true
  | .timeInc => write || s.partOf m == 8 || s.isServo m
  | .timeStep => write || s.partOf m == 8 || s.isServo m
  | .timeCtrl => s.partOf m == 8 || (!write && s.isServo m)
  | .timeCmp0 => s.partOf m == 8 || (!write && s.isServo m)
  | .timeCmp1 => s.partOf m == 8 || (!write && s.isServo m)
  | .sysLock => s.partOf m == 8 || m == .crucible
  | _ => s.partOf m == 8

/-! ## Clock domains of the blocks (R15) -/

/-- The clock domain whose loss closes the path to a register: the domain of the block that holds it, by the table of
chapter 01 (log entry 19). CUP_WDOG lies in SCLK, which `State.regClosed` adds. -/
def Reg.domain (r : Reg) : Domain :=
  match r with
  | .arrStatus | .arrProg | .arrCtrl | .arrPerf | .arrRate | .arrResident | .arrNumstat | .arrNumcnt | .arrSatcfg
  | .arrSatcnt | .arrSatwin | .arrRcstat | .vecStatus => .aclk
  | .timeNowNs | .timeNowFrac | .timeInc | .timeStep | .timeCtrl | .timeCmp0 | .timeCmp1 => .tsclk
  | .dspCamport | .dspCamctx0 | .dspCamctx1 | .dspCamstat | .wskId | .wskStat | .wskPortcfg | .wskPortstat | .wskDozestat
  | .wskRoute | .wskIn0 | .wskIn1 => .recovered
  | .dspOutcfg | .dspOutstat | .dspTtcfg | .dspTtstat | .dspFlip => .pixel
  | .memCtrl | .memSpare | .memChstat => .mclk
  | _ => .fclk

/-- The crossing to the register is closed: its block's domain is lost, or FCLK, through which every access passes. -/
def State.regClosed (s : State) (r : Reg) : Bool :=
  s.clockLost r.domain || s.clockLost .fclk || (r == .cupWdog && s.sys.power.sclkLost)

/-! ## Capability views (R27, R356) -/

/-- Arrays in service and free spares. -/
def State.isSpare (s : State) (a : Nat) : Bool :=
  s.f ARR_STATUS.STATE a == 7 || ((s.arr a).testBar.isSome && (s.arr a).barSpare)
def State.activeArrays (s : State) : Nat :=
  (arrayIds.filter fun a => decide (s.f ARR_STATUS.STATE a ≤ 4) && !s.isSpare a).length
def State.spareArrays (s : State) : Nat := (arrayIds.filter s.isSpare).length

/-- The device entries of the capability table. -/
def State.deviceCaps (s : State) : List Nat :=
  ([(0x0001, 2 ^ 32), (0x0002, 0x804020), (0x0003, 0x0610), (0x0010, s.activeArrays), (0x0011, s.spareArrays),
    (0x0012, 0x800040), (0x0013, 4194304), (0x0014, 8000), (0x0015, 0x7FF), (0x0016, 1), (0x0020, 0x100800),
    (0x0030, 8 * 2 ^ 32 + 256 * 65536 + 64), (0x0031, 4096 * 65536 + 1000), (0x0040, 4096 * 65536 + 1024),
    (0x0041, 7 * 2 ^ 40 + 1048576), (0x0050, 4096 * 65536 + 64), (0x0060, 32 * 2 ^ 32 + 8 * 2 ^ 24 + 16 * 65536)] :
    List (Nat × Nat)).map fun e => e.1 * 2 ^ 48 + e.2

/-- The largest QOS_MAX among the enabled queues of an instance. -/
def State.instQos (s : State) (i : Nat) : Nat :=
  (instQueues i).foldl (fun a n => if s.fb SPR_QCFG.EN n then max a (s.f SPR_QCFG.QOS_MAX n) else a) 0

/-- The entries of an instance and its flask. -/
def State.instCaps (s : State) (i : Nat) : List Nat :=
  let f := s.instFlask i
  ([(0x8000, i), (0x8001, f * 256 + b2n (s.timed f)),
    (0x8002, s.flaskArrays f * 65536 + s.flaskVecs f), (0x8003, s.f ATT_FSLICE.CTX_COUNT f), (0x8004, s.instQos i)] :
    List (Nat × Nat)).map fun e => e.1 * 2 ^ 48 + e.2

/-! ## The value of a register as a read finds it -/

/-- The capabilities of the DTU for the options of R211: version 1.0, Sv48, Sv57, Sv48x4, Sv57x4, hardware A and D
updates, and 39 physical address bits (PRESUMED, log entry 7). -/
def iommuCaps : Nat := 0x10 + 2 ^ 10 + 2 ^ 11 + 2 ^ 18 + 2 ^ 19 + 2 ^ 24 + 39 * 2 ^ 32

/-- R210: TRK_USED and HELD show the trackers and ladles held, and LAT_NS of MEM_CHSTAT is a measurement of time, a free
value at each instant (log entry 167). R224: SPR_QRESTORE shows the live indices while VALID is 0b. R284: FRAC is the reader's latch. -/
def State.regRead (s : State) (r : Reg) (i : Nat) (m : Master) : Nat :=
  match r with
  | .timeNowNs => s.clock.ns
  | .dtuIommu => if i = 0 then iommuCaps else s.r r i
  | .memChstat =>
    putBits (putBits (s.r r i) 31 20 (s.trackers i)) 19 8 (Config.freeNat (2 ^ 65 + 8 * s.clock.ns + i))
  | .memLres => putBits (s.r r i) 51 46 (s.dealLadles.ladlesHeld i)
  | .timeNowFrac => ((s.clock.latch.find? fun p => p.1 == m).map fun p => p.2 * 2 ^ 48).getD 0
  | .sprQrestore0 =>
    if s.fb SPR_QRESTORE1.VALID i then s.r r i else s.f SPR_QSTAT.CONS_IDX i * 2 ^ 32 + s.f SPR_DB.PROD_IDX i
  | .sprQrestore1 => if s.fb SPR_QRESTORE1.VALID i then s.r r i else (s.q i).nextCpl * 2 ^ 32
  | .sprQrestore2 => if s.fb SPR_QRESTORE1.VALID i then s.r r i else s.f SPR_DB.CPL_CONS i * 2 ^ 32
  | r => s.r r i

/-- The part of a 64-bit value that an access returns, at its place in the register. -/
def halfOf (h : Half) (v : Nat) : Nat :=
  match h with
  | .whole => v
  | .low => v % 2 ^ 32
  | .high => v / 2 ^ 32 * 2 ^ 32

/-- Offset of the access within its location. -/
def halfOff : Half → Nat
  | .high => 4
  | _ => 0

end Sys2Proof.Machine
end

