-- ==== Sys2Proof/Machine/RegWrite.lean ====
section
/-! DEFINITION. The one path of a software write to a register (R342 to R349, R354, R373): access types and locks,
what each chapter refuses, and what a write that is taken starts. -/

namespace Sys2Proof.Machine

/-! ## Fields (R342, R344, R349) -/

/-- Fields of the DTU's IOMMU registers by 8-byte index, where they are not all RW (log entry 7). -/
def iommuFields : Nat → List (Nat × Nat × FKind)
  | 0 => [(63, 0, .ro)]
  | 4 => [(63, 32, .rw), (31, 0, .ro)]
  | 6 => [(63, 32, .ro), (31, 0, .rw)]
  | 9 => [(48, 48, .ro), (41, 41, .w1c), (40, 40, .w1c), (33, 33, .rw), (32, 32, .rw), (16, 16, .ro), (11, 11, .w1c), (10, 10, .w1c), (9, 9, .w1c),
          (8, 8, .w1c), (1, 1, .rw), (0, 0, .rw)]
  | 10 => [(35, 35, .w1c), (34, 34, .w1c), (33, 33, .w1c), (32, 32, .w1c), (31, 0, .rw)]
  | _ => [(63, 0, .rw)]

/-- The fields of occurrence `i` of a map; SYS_ASSIGN has those of the indices that its class has (R357). -/
def Reg.fieldsAt (r : Reg) (i : Nat) : List (Nat × Nat × FKind) :=
  match r with
  | .sysAssign => r.fields.filter fun f => decide (16 * (i % 2) + f.2.1 / 4 < classSize (i / 2))
  | .dtuIommu => iommuFields i
  | r => r.fields

/-- The access reaches a bit of the field. -/
def touches (h : Half) (hi lo : Nat) : Bool :=
  match h with
  | .whole => true
  | .low => decide (lo < 32)
  | .high => decide (32 ≤ hi)

/-- R344: the written half joined with the other half of the register. -/
def joined (h : Half) (old v : Nat) : Nat :=
  match h with
  | .whole => v
  | .low => old / 2 ^ 32 * 2 ^ 32 + v % 2 ^ 32
  | .high => v / 2 ^ 32 * 2 ^ 32 + old % 2 ^ 32

/-- One field of a write: `w` holds the bits written, `j` the joined value. -/
def writeField (w j : Nat) (boot mgr : Bool) (acc : Nat) (f : Nat × Nat × FKind) : Nat :=
  let rw := putBits acc f.1 f.2.1 (bits j f.1 f.2.1)
  match f.2.2 with
  | .ro => acc
  | .rw => rw
  | .w1c => if bit w f.2.1 then putBits acc f.2.1 f.2.1 0 else acc
  | .w1s => if bit w f.2.1 then putBits acc f.2.1 f.2.1 1 else acc
  | .rwlBoot => if boot then acc else rw
  | .rwlMgr => if mgr then acc else rw

/-- R342: the register after a write of the fields by their access types. -/
def State.merged (s : State) (r : Reg) (i : Nat) (h : Half) (v : Nat) : Nat :=
  (r.fieldsAt i).foldl
    (writeField (halfOf h v) (joined h (s.r r i) v) (s.fb SYS_LOCK.BOOT 0) (s.fb SYS_LOCK.MGR 0)) (s.r r i)

/-- R346: the write reaches an RWL field after its lock. -/
def State.hitsLock (s : State) (r : Reg) (i : Nat) (h : Half) : Bool :=
  (r.fieldsAt i).any fun f => touches h f.1 f.2.1 &&
    match f.2.2 with
    | .rwlBoot => s.fb SYS_LOCK.BOOT 0
    | .rwlMgr => s.fb SYS_LOCK.MGR 0
    | _ => false

/-! ## EN (R373) -/

/-- The EN bit of a map whose writes are refused while it is 1b, except one that clears it. -/
def enField : Reg → Option Fld
  | .sprQcfg => some SPR_QCFG.EN
  | .attIpool => some ATT_IPOOL.EN
  | .memRgn1 => some MEM_RGN1.EN
  | .sysVfmap => some SYS_VFMAP.EN
  | .dspCamport => some DSP_CAMPORT.EN
  | .dspCamctx0 => some DSP_CAMCTX0.EN
  | .sysBrwin1 => some SYS_BRWIN1.EN
  | .ethRingcfg0 => some ETH_RINGCFG0.EN
  | .canRingcfg0 => some CAN_RINGCFG0.EN
  | .wskPortcfg => some WSK_PORTCFG.EN
  | .wskRoute => some WSK_ROUTE.EN
  | .wskIn0 => some WSK_IN0.EN
  | _ => none

/-- The EN bit that guards a map without one of its own. -/
def guardField : Reg → Option Fld
  | .sprQsubBase => some SPR_QCFG.EN
  | .sprQcplBase => some SPR_QCFG.EN
  | .sprQrestore0 => some SPR_QCFG.EN
  | .sprQrestore1 => some SPR_QCFG.EN
  | .sprQrestore2 => some SPR_QCFG.EN
  | .attIframes => some ATT_IPOOL.EN
  | .attIspill => some ATT_IPOOL.EN
  | .memRgn0 => some MEM_RGN1.EN
  | .dspCamctx1 => some DSP_CAMCTX0.EN
  | .sysBrwin0 => some SYS_BRWIN1.EN
  | .sysBrwin2 => some SYS_BRWIN1.EN
  | .ethRingcfg1 => some ETH_RINGCFG0.EN
  | .canRingcfg1 => some CAN_RINGCFG0.EN
  | .wskIn1 => some WSK_IN0.EN
  | .pourQjpf => some SPR_QCFG.EN
  | _ => none

/-- R373: the write clears EN: EN is 1b, and the write carries 0b for it. -/
def State.clearsEn (s : State) (r : Reg) (i : Nat) (new : Nat) : Option Fld :=
  match enField r with
  | some x => if s.fb x i && !bit new x.lo then some x else none
  | none => none

/-- A write while EN is 1b that does not clear it. -/
def State.enBusy (s : State) (r : Reg) (i : Nat) (new : Nat) : Bool :=
  (match enField r with
   | some x => s.fb x i && bit new x.lo
   | none => false)
  || match guardField r with
     | some x => s.fb x i
     | none => false

/-! ## What the chapters refuse -/

/-- A timed flask in STATE 2h to 4h (R206, R214). -/
def State.timedLive (s : State) (f : Nat) : Bool :=
  decide (f < 8) && s.timed f && decide (2 ≤ s.f SYS_FLCTRL.STATE f)

/-- The sum of a field over occurrences 0 to n − 1. -/
def State.sumF (s : State) (x : Fld) (n : Nat) : Nat := ((List.range n).map fun k => s.f x k).sum

/-- Two ranges that are not empty overlap. -/
def spansMeet (a n b m : Nat) : Bool := n != 0 && m != 0 && overlaps a n b m

/-- R130: the pool of instance `i`, as `t` would leave it, is bad. -/
def State.poolBad (t : State) (i : Nat) : Bool :=
  let lo := t.f ATT_IFRAMES.RC_BASE i
  let n := t.f ATT_IFRAMES.FRAMES i
  t.f ATT_IPOOL.PAGE_CODE i == 3 || decide (1048576 < lo + n)
    || (List.range 256).any fun k => k != i && t.fb ATT_IPOOL.EN k
      && spansMeet lo n (t.f ATT_IFRAMES.RC_BASE k) (t.f ATT_IFRAMES.FRAMES k)

/-- R130: a flask holds a sequence context. -/
def State.flaskCtx (s : State) (f : Nat) : Bool :=
  s.work.ctxs.any fun p => p.2.state != 0 && s.instFlask p.2.inst == f

/-- R198: region n, as `t` would leave it, is bad. -/
def State.regionBad (t : State) (n : Nat) : Bool :=
  let lo := t.f MEM_RGN0.BASE n
  let hi := t.f MEM_RGN1.LIMIT n
  let k := hi + 1 - lo
  decide (hi < lo)
    || (List.range 32).any (fun q => q != n && t.fb MEM_RGN1.EN q
        && decide (lo ≤ t.f MEM_RGN1.LIMIT q) && decide (t.f MEM_RGN0.BASE q ≤ hi))
    || (t.mem.spareArea && overlaps (lo * 2 ^ 21) (k * 2 ^ 21) (t.f MEM_SPARE.SPARE_BASE 0 * 2 ^ 22) (t.usable / 8))
    || (t.fb MEM_RGN1.TAG n && t.fb MEM_RGN1.MIRROR n)
    || (t.fb MEM_RGN1.TAG n && k % 16 != 0)
    || (t.fb MEM_RGN1.MIRROR n && k % 2 != 0)
    || decide (8 < t.f MEM_RGN1.OWNER n)

/-- R206: MEM_LRES of partition p, as `t` would leave it, is bad. -/
def State.lresBad (t : State) (p : Nat) : Bool :=
  let lo := t.f MEM_LRES.MIN p
  let hi := t.f MEM_LRES.MAX p
  decide (32 < lo) || decide (hi < 1) || decide (32 < hi) || decide (32 < t.sumF MEM_LRES.MIN 9) || decide (hi < lo)
    || (t.timedLive p && decide (lo < 2))

/-- R214: DTU_WALK of flask f, as `t` would leave it, is bad. -/
def State.walkBad (t : State) (f : Nat) : Bool :=
  let lo := t.f DTU_WALK.MIN f
  let hi := t.f DTU_WALK.MAX f
  decide (48 < t.sumF DTU_WALK.MIN 8) || decide (hi < lo) || decide (hi < 1) || decide (64 < hi)
    || (t.timedLive f && decide (lo < 4))

/-- R300: window n, as `t` would leave it, is bad. -/
def State.winBad (t : State) (n : Nat) : Bool :=
  let lo := t.f SYS_BRWIN0.BASE n
  let hi := t.f SYS_BRWIN1.LIMIT n
  let (a, b) := match t.f SYS_BRWIN1.TARGET n with
    | 0 => (0x20000, 0x2FFFF)
    | 1 => (0x30000, 0x3FFFF)
    | _ => (0x40000, 0x7FFFF)
  decide (hi < lo) || decide (lo < a) || decide (b < hi)
    || (List.range 32).any fun q => q != n && t.fb SYS_BRWIN1.EN q
        && decide (lo ≤ t.f SYS_BRWIN1.LIMIT q) && decide (t.f SYS_BRWIN0.BASE q ≤ hi)

/-- R321: inbound window w, as `t` would leave it, is bad. -/
def State.wskInBad (t : State) (w : Nat) : Bool :=
  let lo := t.f WSK_IN0.BASE w
  let hi := t.f WSK_IN1.LIMIT w
  decide (hi < lo)
    || (List.range 16).any fun q => q != w && t.fb WSK_IN0.EN q && t.f WSK_IN1.SRC_ID q == t.f WSK_IN1.SRC_ID w
        && decide (lo ≤ t.f WSK_IN1.LIMIT q) && decide (t.f WSK_IN0.BASE q ≤ hi)

/-- R247, R260: camera context c, as `t` would leave it, is bad. -/
def State.camBad (t : State) (c : Nat) : Bool :=
  let ok (v : Nat) : Bool := decide (1 ≤ v) && decide (v ≤ 8192)
  decide (t.f DSP_CAMCTX0.BUFS c < 3) || decide (8 < t.f DSP_CAMCTX0.BUFS c)
    || (camBytes (t.f DSP_CAMCTX0.DT c)).isNone
    || !ok (t.f DSP_CAMCTX0.WIDTH c) || !ok (t.f DSP_CAMCTX0.HEIGHT c)
    || (List.range 24).any fun q => q != c && t.fb DSP_CAMCTX0.EN q
        && t.f DSP_CAMCTX0.PORT q == t.f DSP_CAMCTX0.PORT c && t.f DSP_CAMCTX0.VC q == t.f DSP_CAMCTX0.VC c

/-- R221: the second stage of an instance is Bare, or it has no device context. -/
def State.secondBare (s : State) (i : Nat) : Bool :=
  match (s.devCtx (s.instFlask i) i).1 with
  | .ok dc => dcGMode dc == 0
  | .error _ => true

/-- R294, R295: filter entry e, as `t` would leave it, is bad. -/
def State.fltrBad (t : State) (e : Nat) : Bool :=
  let a := t.f CAN_FLTR1.ACTION e
  decide (4 < a) || (t.f CAN_FLTR0.FORMAT e == 3 && (a == 2 || a == 3))

/-- R225: another virtual function is bound to the instance, or the instance is free. -/
def State.vfBad (t : State) (k : Nat) : Bool :=
  let i := t.f SYS_VFMAP.INSTANCE k
  t.f SYS_INST.STATE i == 0
    || (List.range 512).any fun q => q != k && t.fb SYS_VFMAP.EN q && t.f SYS_VFMAP.INSTANCE q == i

/-- R162: the fields of SYS_FLCTRL that stand while the flask exists. -/
def flFixed (v : Nat) : Nat := bits v 57 53

/-- R201: ways of partition p, as `t` would leave them, overlap another partition's. -/
def State.waysClash (t : State) (p : Nat) : Bool :=
  (List.range 9).any fun q => q != p && Nat.land (t.f MEM_CWAYS.WAYS q) (t.f MEM_CWAYS.WAYS p) != 0

/-- R227: the locked TDI that a write would change, if any; the lock holds on in ERROR. -/
def State.lockedBy (s : State) (r : Reg) (i : Nat) : Option Nat :=
  let pick (k : Nat) : Option Nat := if s.tdiHeld k then some k else none
  match r with
  | .sprQcfg => pick (instOf i)
  | .sprQsubBase => pick (instOf i)
  | .sprQcplBase => pick (instOf i)
  | .attIpool => pick i
  | .attIframes => pick i
  | .attIspill => pick i
  | .attIquota => pick i
  | .attIstat => pick i
  | .attIcnt => pick i
  | .attIctrl => pick i
  | .attIspilled => pick i
  | .sysVfmap => if s.fb SYS_VFMAP.EN i then pick (s.f SYS_VFMAP.INSTANCE i) else none
  | _ => none

/-- The write sets a bit that was 0b. -/
def rises (old new k : Nat) : Bool := !bit old k && bit new k

/-- The write clears a bit that was 1b. -/
def falls (old new k : Nat) : Bool := bit old k && !bit new k

/-- R215: a write of SYS_INST of instance i is refused; `w` holds the bits written. -/
def State.instBad (s t : State) (i w : Nat) : Bool :=
  decide (1 < (instCmds w).length)
    || (s.f SYS_INST.STATE i != 0 && t.f SYS_INST.FLASK i != s.f SYS_INST.FLASK i)
    || (instCmds w).any fun k => s.instCmdBad i (t.f SYS_INST.FLASK i) k

/-- A write that the chapters refuse, beside the EN rules: `old` and `new` are the register before and after, `w` the
bits written, `m` the master. -/
def State.refuses (s : State) (r : Reg) (i : Nat) (m : Master) (old new w : Nat) : Bool :=
  let t := s.setR r i new
  match r with
  | .sprQcfg => decide (10 < t.f SPR_QCFG.SUB_LOG2 i) || decide (10 < t.f SPR_QCFG.CPL_LOG2 i)
  | .arrSatcfg => decide (t.f ARR_SATCFG.WIN_LOG2 i < 10) || decide (30 < t.f ARR_SATCFG.WIN_LOG2 i)
  | .attFslice => s.flaskCtx i || (List.range 8).any fun f => f != i
      && spansMeet (t.f ATT_FSLICE.CTX_BASE i) (t.f ATT_FSLICE.CTX_COUNT i) (t.f ATT_FSLICE.CTX_BASE f)
        (t.f ATT_FSLICE.CTX_COUNT f)
  | .attIpool => bit new 0 && t.poolBad i
  | .attIquota => decide (4096 < t.f ATT_IQUOTA.CTX_MAX i)
  | .sysSafecfg => t.f SYS_SAFECFG.ROT 0 == 0 || decide (t.f SYS_SAFECFG.TB_PERIOD 0 < 10)
      || decide (1000 < t.f SYS_SAFECFG.TB_PERIOD 0)
  | .sysFlctrl => (decide (2 ≤ s.f SYS_FLCTRL.STATE i) && flFixed new != flFixed old)
      || (bit w 59 && t.createBad i) || (bit w 58 && s.destroyBad i)
  | .sysFlres => decide (2 ≤ s.f SYS_FLCTRL.STATE i) && new != old
  | .pourCtrl => s.fb POUR_CTRL.SWAP 0 && t.f POUR_CTRL.SHADOW_FRAME_US 0 != s.f POUR_CTRL.SHADOW_FRAME_US 0
  | .pourT0 => s.fb POUR_CTRL.EN 0
  | .pourEnt0 => s.fb POUR_CTRL.SWAP 0
  | .pourEnt1 => s.fb POUR_CTRL.SWAP 0
  | .gateCfg => decide (t.f GATE_CFG.CEIL i < t.f GATE_CFG.GUAR i)
  | .memCtrl => decide (4 < t.f MEM_CTRL.RATE 0) || decide (4 < t.f MEM_CTRL.CH_CAP 0)
      || decide (2048 < t.f MEM_CTRL.BORROW_MAX 0)
      || (bit w 51 && (!s.mem.spareArea || s.fb MEM_CTRL.RETIRE 0 || s.fb MEM_CTRL.RETIRED 0))
  | .memCways => (decide (i < 8) && s.f SYS_FLCTRL.STATE i != 1) || t.waysClash i
  | .memLres => t.lresBad i
  | .memRgn1 => bit new 20 && t.regionBad i
  | .dtuWalk => t.walkBad i
  | .sysInst => s.instBad t i w
  | .dtuDlogcfg => rises old new 0 && s.secondBare i
  | .sysVfmap => bit new 63 && t.vfBad i
  | .dspCamctx0 => bit new 63 && t.camBad i
  | .timeInc => !s.isServo m || decide (t.f TIME_INC.INC 0 < 0x1FF7D) || decide (0x20083 < t.f TIME_INC.INC 0)
  | .timeStep => !s.isServo m || s.fb POUR_CTRL.EN 0
  | .timeCtrl => decide (1 < t.f TIME_CTRL.SERVO 0) || t.f TIME_CTRL.SYNC_TIMEOUT_MS 0 == 0
  | .timeCmp1 => t.f TIME_CMP1.WIDTH i == 0
  | .ethHostcfg => decide (t.f ETH_HOSTCFG.DEFAULT_RING i < 0x80)
  | .ethRingcfg0 => bit new 63 && decide (10 < t.f ETH_RINGCFG0.SIZE_LOG2 i)
  | .canRingcfg0 => bit new 63 && decide (10 < t.f CAN_RINGCFG0.SIZE_LOG2 i)
  | .canCtrl => decide (5 < t.f CAN_CTRL.MODE i)
  | .canFltrng => decide (4096 < t.f CAN_FLTRNG.BASE i + t.f CAN_FLTRNG.COUNT i)
  | .canFltr0 => t.fltrBad i
  | .canFltr1 => t.fltrBad i
  | .canJ19391 => bit new 55 && (List.range 8).any fun n =>
      let k := slotNo (i / 8) n
      k != i && t.fb CAN_J19391.EN k && t.f CAN_J19391.ADDR k == t.f CAN_J19391.ADDR i
  | .sysBrwin1 => t.f SYS_BRWIN1.TARGET i == 3 || (bit new 19 && t.winBad i)
  | .wskPortcfg => bit new 63 && (decide (t.f WSK_PORTCFG.WAKE_TICKS i < 328)
      || decide (327680 < t.f WSK_PORTCFG.WAKE_TICKS i) || decide (s.f WSK_ID.SYNC_US 0 < 1000))
  | .wskIn0 => bit new 19 && t.wskInBad i
  | .sysLock => (bit w 63 && m != .crucible) || (bit w 62 && !s.fb SYS_LOCK.MGR 0 && s.spareClash)
  | _ => false

/-- A clear of EN that is refused all the same (R130, R260). -/
def State.clearBad (s : State) (r : Reg) (i : Nat) : Bool :=
  match r with
  | .attIpool => s.f ATT_ISTAT.CTX_USED i != 0 || s.f ATT_ISPILLED.SPILLED i != 0
  | .dspCamport => (List.range 24).any fun c => s.fb DSP_CAMCTX0.EN c && s.f DSP_CAMCTX0.PORT c == i
  | _ => false

/-! ## What a write that is taken starts -/

/-- R359: the status bit of a kept cause still stands. -/
def State.causeStands (s : State) (k : Nat × Nat) : Bool :=
  match k.1 with
  | 1 => bit (s.r .sysSafestat 0) k.2
  | 2 => bits (s.r .sysRegerr 0) 63 61 != 0
  | 3 => s.fb ARR_NUMSTAT.DRIFT k.2
  | 5 => if k.2 < 9 then s.fb GATE_STAT.MISS k.2 else s.fb GATE_RT.MISS (k.2 - 9)
  | 6 => bits (s.r .dtuIommu 6) 31 0 != bits (s.r .dtuIommu 6) 63 32
  | 16 => s.fb MBX_DB.DONE 0
  | 17 => s.fb SYS_BILLET.LOW 0
  | 18 => s.fb SYS_SAFESTAT.DISP_SIG 0
  | n => decide (8 ≤ n) && decide (n < 16) && s.fb TIME_CMP1.FIRED (n - 8)

/-- R359: a setting of EN sends the kept causes whose status bits stand. -/
def State.sendKept (s : State) : State :=
  { s with sys.keptIrqs := [] }.each (s.sys.keptIrqs.filter s.causeStands) fun s k => s.mgrIrq k.1 k.2

/-- R63: ABORT of ARR_CTRL: the running array job is aborted and its job ends ABORTED; in a pair the execution ends
and the pair decides (R135). On an idle array ABORT clears at once. -/
def State.abortSet (s : State) (a : Nat) : State :=
  let st := s.f ARR_STATUS.STATE a
  match (s.arr a).job with
  | none => if st = 3 then s else s.setF ARR_CTRL.ABORT a 0
  | some r =>
    if st = 3 then s
    else
      match r.role with
      | .single => ((s.endJob r.job stAborted none).dropTiles r.flask r.job).abortArr a
      | _ => s.arrFault a none stAborted

/-- R195, R198: a setting of EN gives the region a fresh key, and clearing EN destroys it. -/
def State.drawKey (s : State) (n : Nat) : State :=
  let r := s.fresh
  { r.2 with mem.keys := NMap.insert r.2.mem.keys n r.1 }
def State.dropKey (s : State) (n : Nat) : State := { s with mem.keys := NMap.erase s.mem.keys n }

/-- R211: the queues of the DTU are on while they are enabled; enabling one clears its index and its errors
(PRESUMED, log entry 7). -/
def State.iommuQueues (s : State) (old new : Nat) : State :=
  let w := putBits (putBits new 16 16 (bits new 0 0)) 48 48 (bits new 32 32)
  let s1 := s.setR .dtuIommu 9 (putBits (putBits w 11 8 (if rises old new 0 then 0 else bits w 11 8)) 41 40
    (if rises old new 32 then 0 else bits w 41 40))
  let s2 := if rises old new 0 then s1.setR .dtuIommu 4 (putBits (s1.r .dtuIommu 4) 31 0 0) else s1
  if rises old new 32 then s2.setR .dtuIommu 6 (putBits (s2.r .dtuIommu 6) 63 32 0) else s2

/-- R201: ways that a change takes from a partition are written back and invalidated. -/
def State.changeWays (s : State) (p old new : Nat) : State :=
  let gone (w : Nat) : Bool := bit (bits old 63 48) w && !bit (bits new 63 48) w
  (if p = 8 then s.each (s.mem.cache.filter fun c => gone c.way) fun s c => s.evict c.line else s).updateOcc

/-- R205: an accepted RETIRE: the channel is the one that RETIRE_CH names now, and one ladle of the pool copies its
granules; before any region is enabled it takes effect at once. -/
def State.startRetire (s : State) : State :=
  let ch := s.f MEM_CTRL.RETIRE_CH 0
  let s1 := { s with mem.retCh := some ch }
  if (List.range 32).any fun n => s.fb MEM_RGN1.EN n then
    s1.addMove { id := 0, kind := .retire ch, part := 15, inst := 0, toMem := true, va := 0, maddr := 0,
                 len := 4096 * s.granules }
  else (s1.setF MEM_CTRL.RETIRED 0 1).setF MEM_CTRL.RETIRE 0 0

/-- R296: EN of a slot set, or its address changed: the slot claims; EN cleared: it is idle. -/
def State.claimWrite (s : State) (k old new : Nat) : State :=
  let c := k / 8
  if bit new 55 && (!bit old 55 || bits old 63 56 != bits new 63 56) then
    (s.setF CAN_J19391.STATE k 1).modCan c fun x =>
      { x with claimNs := NMap.insert x.claimNs (k % 8) s.now, owe := delNat x.owe (k % 8)
               claims := x.claims ++ [s.claimFrame k] }
  else if falls old new 55 then
    (s.setF CAN_J19391.STATE k 0).modCan c fun x => { x with owe := delNat x.owe (k % 8) }
  else s

/-- R225: a binding set or cleared shows in TDI. -/
def State.bindWrite (s : State) (old new : Nat) : State :=
  if rises old new 63 then s.setF SYS_INST.TDI (bits new 62 55) 1
  else if falls old new 63 then s.setF SYS_INST.TDI (bits old 62 55) 0
  else s

/-- The commands that a write of SYS_FLCTRL carries (R160, R161). -/
def State.flaskCmd (s : State) (f w : Nat) : State :=
  let s1 := if bit w 59 then s.createFlask f else s
  if bit w 58 then s1.destroyFlask f else s1

/-- What a write that was taken starts: `old` and `new` are the register before and after, `w` the bits written. -/
def State.afterWrite (s : State) (r : Reg) (i : Nat) (m : Master) (old new w : Nat) : State :=
  match r with
  | .sprQcfg => if rises old new 63 then s.enableQueue i else if falls old new 63 then s.disableQueue i else s
  | .arrCtrl => if bit w 63 then s.abortSet i else s
  | .arrSatcfg => s.setR .arrSatwin i 0
  | .attIpool =>
    if rises old new 0 then (s.incWrap ATT_ISPILLED.EPOCH i 1).showAtt i
    else if falls old new 0 then s.showAtt i else s
  | .attIctrl => if bit w 63 then { s with work.sweeping := insNat s.work.sweeping i } else s
  | .sysFlctrl => s.flaskCmd i w
  | .sysFlres => if s.f SYS_FLCTRL.STATE i = 0 then s.setF SYS_FLCTRL.STATE i 1 else s
  | .pourCtrl => if bit w 63 && !bit old 63 then s.modPour fun p => { p with validated := false } else s
  | .memCtrl =>
    let s1 := if bit w 56 then s.setF MEM_CTRL.READY 0 0 else s
    if bit w 51 then s1.startRetire else s1
  | .memCways => s.changeWays i old new
  | .memRgn1 =>
    if rises old new 20 then (if bit new 19 then s.drawKey i else s) else if falls old new 20 then s.dropKey i else s
  | .dtuIommu => if i = 9 then s.iommuQueues old new else s
  | .sysInst => s.each (instCmds w) fun s k => s.instCmd i k
  | .sysVfmap => s.bindWrite old new
  | .dspCamctx0 =>
    if rises old new 63 then s.camEnable i
    else if falls old new 63 && (s.cam i).active then s.modCam i fun k => { k with stopping := true }
    else s
  | .dspFlip =>
    if bit w 5 then
      s.modDisp (i / 8) fun d => { d with posted := NMap.set d.posted 0 (i % 8) (((s.masterInst m).map fun k => k + 1).getD 0) }
    else s
  | .timeInc => { s.setF TIME_CTRL.HOLDOVER 0 0 with clock.syncNs := some s.now }
  | .timeStep => { s with clock.ns := uint 64 ((s.clock.ns : Int) + sint 64 new) }
  | .canJ19391 => s.claimWrite i old new
  | .canTuncfg => if rises old new 5 then s.readTunnels else s
  | .sysLock => if bit w 62 && !s.fb SYS_LOCK.MGR 0 then { s with units.tbVerifying := true } else s
  | .sysIrqcfg => if rises old new 0 then s.sendKept else s
  | .sysSafestat => s.updateWarn
  | .cupWdog => if bit w 63 then (s.setF CUP_WDOG.KICK 0 0).modPower fun p => { p with kickNs := s.now } else s
  | _ => s

/-! ## The write -/

/-- R346: a refused write changes nothing and is flagged. -/
def State.refuseWrite (s : State) (r : Reg) (i : Nat) (m : Master) (h : Half) : State :=
  s.regFlag SYS_REGERR.REFUSED m (r.offset i + halfOff h) false r.inDoor

/-- A write that is taken: the register, its flag for a locked field, and what it starts. -/
def State.takeWrite (s : State) (r : Reg) (i : Nat) (m : Master) (h : Half) (old new w : Nat) : State :=
  let s1 := s.setR r i new
  let s2 := if s.hitsLock r i h then s1.regFlag SYS_REGERR.LOCKED m (r.offset i + halfOff h) false r.inDoor else s1
  s2.afterWrite r i m old new w

/-- The value a write would leave: SYS_LOCK keeps MGR until the image has verified (R149), and MBX_DB takes REQ apart
(R331). -/
def State.newValue (s : State) (r : Reg) (i : Nat) (h : Half) (v : Nat) : Nat :=
  let n := s.merged r i h v
  match r with
  | .sysLock => putBits n 62 62 (bits (s.r r i) 62 62)
  | .mbxDb => putBits n 63 63 (bits (s.r r i) 63 63)
  | _ => n

/-- R346, R373: a permitted write is refused, clears EN alone, or is taken by its access types. -/
def State.judgeWrite (s : State) (r : Reg) (i : Nat) (m : Master) (h : Half) (v : Nat) : State :=
  let old := s.r r i
  let new := s.newValue r i h v
  let w := halfOf h v
  match s.lockedBy r i with
  | some k => (s.refuseWrite r i m h).tdiError k
  | none =>
    match s.clearsEn r i new with
    | some x =>
      if s.clearBad r i then s.refuseWrite r i m h
      else
        let cut := putBits old x.lo x.lo 0
        (s.setR r i cut).afterWrite r i m old cut 0
    | none =>
      if s.enBusy r i new || s.refuses r i m old new w then s.refuseWrite r i m h
      else s.takeWrite r i m h old new w

/-- R30, R218: a write of SPR_DB, its other half joined; an instance in STATE 0h ignores it. -/
def State.doorWrite (s : State) (q : Nat) (h : Half) (v : Nat) : State :=
  let j := joined h (s.r .sprDb q) v
  if s.f SYS_INST.STATE (instOf q) = 0 then s else s.doorbell q (bits j 63 32) (bits j 31 0)

/-- R331: a write of MBX_DB: DONE and DROPPED by their types, then a set of REQ. Whether an image or billet that the
message names verifies is free here; the rows of these messages carry it. -/
def State.mbxWrite (s : State) (m : Master) (ch : Nat) (h : Half) (v : Nat) : State :=
  let s1 := s.judgeWrite .mbxDb ch m h v
  if bit (halfOf h v) 63 then
    let (b, s2) := s1.fresh
    s2.setReq m ch (b % 2 == 1)
  else s1

/-- The camera port that decides who may write a context: the one that the write names while the context is disabled. -/
def State.camPort (s : State) (r : Reg) (i : Nat) (h : Half) (v : Nat) : Nat :=
  let c := s.f DSP_CAMCTX0.PORT i
  if r = .dspCamctx0 && !s.fb DSP_CAMCTX0.EN i then bits (joined h (s.r .dspCamctx0 i) v) 62 60 else c

/-- A software write of a register: R15, R354, R346. -/
def State.regWrite (s : State) (r : Reg) (i : Nat) (m : Master) (h : Half) (v : Nat) : State :=
  if s.sys.power.mode ≠ .on then s
  else if s.regClosed r then s.emit (.clockError m)
  else if !s.permits r i m true (s.camPort r i h v) then
    s.regFlag SYS_REGERR.DENIED m (r.offset i + halfOff h) false r.inDoor
  else
    match r with
    | .sprDb => s.doorWrite i h v
    | .mbxDb => s.mbxWrite m i h v
    | r => s.judgeWrite r i m h v

/-- A register value with one bit forced. -/
def withBit (v : Word) (k : Nat) : Nat := putBits v.toNat k k 1
def withoutBit (v : Word) (k : Nat) : Nat := putBits v.toNat k k 0

end Sys2Proof.Machine
end

