-- ==== Sys2Proof/Machine/RegCmd.lean ====
section
/-! DEFINITION. The commands that are register writes and reads, and the memory accesses of a master: one path for
each (R342 to R355), the rows of single registers, and MEMORY_READ, MEMORY_WRITE and PARTIAL_WRITE (R190, R193, R197,
R351). -/

namespace Sys2Proof.Machine

/-! ## Accesses by address -/

/-- R354: rights at a location that is no register of a map: windows and the capability table are the manager's, a
mailbox page and a sprue page as their registers. -/
def State.locOk (s : State) (l : Loc) (o : Nat) (m : Master) : Bool :=
  match l with
  | .view _ _ => s.partOf m == 8
  | .cap _ => s.partOf m == 8
  | .mbx ch _ => ch != 0 || s.partOf m == 8
  | .instCap i _ => s.pageOk i m
  | .zero => s.pageOk (o / 0x1000) m
  | _ => true

/-- Eight bytes of a mailbox page. -/
def State.mbxWord (s : State) (ch off : Nat) : Nat := leNat (s.mbxBytes ch off 8)

/-- A write at a location of the register region (`door` false) or the doorbell region. -/
def State.locWrite (s : State) (l : Loc) (o : Nat) (door : Bool) (m : Master) (h : Half) (v : Nat) : State :=
  if s.clockLost .fclk then s.emit (.clockError m)
  else if !s.locOk l o m then s.regFlag SYS_REGERR.DENIED m (o + halfOff h) false door
  else
    match l with
    | .reg r i => s.regWrite r i m h v
    | .mbx ch off =>
      { s with mem.mbx := putMbx s.mem.mbx (4096 * ch + off) (toLE 8 (joined h (s.mbxWord ch off) v)) }
    | .unassigned => s.regFlag SYS_REGERR.REFUSED m (o + halfOff h) false door
    | .fault => s.emit (faultAt m)
    | _ => s

/-- The value at a location that is no register of a map. -/
def State.locValue (s : State) (l : Loc) : Nat :=
  match l with
  | .view r i => s.r r i
  | .cap k => s.deviceCaps.getD k 0
  | .instCap i k => (s.deviceCaps ++ s.instCaps i).getD k 0
  | .mbx ch off => s.mbxWord ch off
  | _ => 0

/-- R14, R284: a read of TIME_NOW_NS loads the reader's latch; no other read has an effect (R343). -/
def State.readLatch (s : State) (r : Reg) (m : Master) : State :=
  if r = .timeNowNs then { s with clock := { s.clock with latch := setLatch m s.clock.frac s.clock.latch } } else s

/-- A read of a register: R15, R354. -/
def State.readReg (s : State) (r : Reg) (i : Nat) (m : Master) (h : Half) : State :=
  if s.regClosed r then s.emit (.clockError m)
  else if s.permits r i m false (s.f DSP_CAMCTX0.PORT i) then
    (s.readLatch r m).emit (.readData m (halfOf h (s.regRead r i m)))
  else (s.regFlag SYS_REGERR.DENIED m (r.offset i + halfOff h) true r.inDoor).emit (.readData m 0)

/-- A read at a location. -/
def State.locRead (s : State) (l : Loc) (o : Nat) (door : Bool) (m : Master) (h : Half) : State :=
  if s.clockLost .fclk then s.emit (.clockError m)
  else if !s.locOk l o m then
    (s.regFlag SYS_REGERR.DENIED m (o + halfOff h) true door).emit (.readData m 0)
  else
    match l with
    | .reg r i => s.readReg r i m h
    | .fault => s.emit (faultAt m)
    | l => s.emit (.readData m (halfOf h (s.locValue l)))

/-- R344: a register write at a physical address; any access that is not aligned, or not in the two regions, faults. -/
def State.busWrite (s : State) (m : Master) (addr : Nat) (h : Half) (v : Nat) : State :=
  if s.sys.power.mode ≠ .on then s
  else if addr % 8 ≠ 0 then s.emit (faultAt m)
  else
    match s.place addr with
    | .reg o => s.locWrite (s.locAt o) o false m h v
    | .doorbell o => s.locWrite (doorAt o) o true m h v
    | _ => s.emit (faultAt m)

/-- R344: a register read at a physical address. -/
def State.busRead (s : State) (m : Master) (addr : Nat) (h : Half) : State :=
  if s.sys.power.mode ≠ .on then s
  else if addr % 8 ≠ 0 then s.emit (faultAt m)
  else
    match s.place addr with
    | .reg o => s.locRead (s.locAt o) o false m h
    | .doorbell o => s.locRead (doorAt o) o true m h
    | _ => s.emit (faultAt m)

/-- R346: REGISTER_WRITE. -/
def execRegisterWrite (m : Master) (addr : Nat) (h : Half) (v : Word) (s : State) : Res :=
  .next (s.busWrite m addr h v.toNat)

/-- R347, R354: DENIED_READ: a register read; one that is denied reads zero and is flagged. -/
def execDeniedRead (m : Master) (addr : Nat) (h : Half) (s : State) : Res := .next (s.busRead m addr h)

/-! ## Memory accesses (R190, R193, R197, R351) -/

/-- R344: the half that an access of 8 or 4 aligned bytes reaches. -/
def accessHalf (addr n : Nat) : Option Half :=
  if n = 8 && addr % 8 = 0 then some .whole
  else if n = 4 && addr % 8 = 0 then some .low
  else if n = 4 && addr % 8 = 4 then some .high
  else none

/-- R351: what a read does at an address that is not DRAM. -/
def State.otherRead (s : State) (m : Master) (pa n : Nat) : State :=
  match s.place pa with
  | .nor _ =>
    if m = .crucible || m = .cupola then
      let (bs, s1) := s.freshBytes n
      s1.emit (.memData m bs)
    else s.emit (faultAt m)
  | .window => s.bridge m pa none n
  | .reg _ =>
    match accessHalf pa n with
    | some h => s.busRead m (pa / 8 * 8) h
    | none => s.emit (faultAt m)
  | .doorbell _ =>
    match accessHalf pa n with
    | some h => s.busRead m (pa / 8 * 8) h
    | none => s.emit (faultAt m)
  | _ => s.emit (faultAt m)

/-- The bytes of a write at their place in the 64-bit register. -/
def placed (h : Half) (bs : List Byte) : Nat :=
  match h with
  | .high => leNat bs * 2 ^ 32
  | _ => leNat bs

/-- R351: what a write does at an address that is not DRAM: a window carries it; registers take aligned halves; it
faults everywhere else. -/
def State.otherWrite (s : State) (m : Master) (pa : Nat) (data : List Byte) : State :=
  match s.place pa with
  | .window => s.bridge m pa (some data) data.length
  | .reg _ =>
    match accessHalf pa data.length with
    | some h => s.busWrite m (pa / 8 * 8) h (placed h data)
    | none => s.emit (faultAt m)
  | .doorbell _ =>
    match accessHalf pa data.length with
    | some h => s.busWrite m (pa / 8 * 8) h (placed h data)
    | none => s.emit (faultAt m)
  | _ => s.emit (faultAt m)

/-- What an access of a master reaches: a physical address, its engine's vector store, or nothing. -/
inductive Reach where
  | phys (pa : Nat) | store (k : Nat) | refused
  deriving DecidableEq, Repr

/-- A translated address, or none. -/
def reachOf (r : Option Nat × State) : Reach × State :=
  match r.1 with
  | some pa => (.phys pa, r.2)
  | none => (.refused, r.2)

/-- R211, R225, R238: an instance's accesses, those of a work item on an engine and of a task on a core pass the DTU in their
instance; the low addresses of a work item are its engine's vector store; a host's BAR2 is 4 GB of guest-physical memory of
the instance of its function. Every other master uses physical addresses. -/
def State.reach (s : State) (m : Master) (addr : Nat) (write : Bool) : Reach × State :=
  match m with
  | .inst i => reachOf (s.xlate i addr write)
  | .vec e =>
    match s.masterInst (.vec e) with
    | some i => if addr < 0x80000 then (.store addr, s) else reachOf (s.xlate i addr write)
    | none => (.refused, s)
  | .rt c =>
    match s.masterInst (.rt c) with
    | some i => reachOf (s.xlate i addr write)
    | none => (.refused, s)
  | .host p v =>
    match s.masterInst (.host p v) with
    | some i => if addr < 2 ^ 32 then reachOf (s.gpa i addr write) else (.refused, s)
    | none => (.refused, s)
  | _ => (.phys addr, s)

/-- The engine of a master. -/
def masterVec : Master → Option Nat
  | .vec e => some e
  | _ => none

/-- R143: a store of a work item folds into its signature as its offset, in four bytes, and its data (log entry 176). -/
def State.foldStore (s : State) (m : Master) (addr : Nat) (data : List Byte) : State :=
  match masterVec m with
  | some e => s.modVec e fun v => { v with sig := crc32Fold v.sig (toLE 4 addr ++ data) }
  | none => s

/-- R137, R143: the engine runs a recast execution or a re-execution, whose stores write nothing to memory. -/
def State.storesHeld (s : State) (m : Master) : Option Nat :=
  match masterVec m with
  | some e =>
    match s.pairOf true e with
    | some p => if p.rc = e || p.phase = .reexec then some e else none
    | none => none
  | none => none

/-- Bytes of an access that lie in the vector store. -/
def storeLen (k n : Nat) : Nat := min n (0x80000 - k)

/-- A read of a master. -/
def memRead (m : Master) (addr bytes : Nat) (errs : BurstErrs) (s : State) : State :=
  if s.sys.power.mode ≠ .on then s
  else
    match s.reach m addr false with
    | (.refused, s1) => s1.emit (faultAt m)
    | (.store k, s1) =>
      let r := s1.storeBytes (s1.vec ((masterVec m).getD 0)) k (storeLen k bytes)
      r.2.emit (.memData m r.1)
    | (.phys pa, s1) =>
      match s1.place pa with
      | .dram _ => s1.dramRead m pa bytes errs
      | _ => s1.otherRead m pa bytes

/-- A write of a master that reaches a physical address. -/
def State.physStore (s : State) (m : Master) (pa : Nat) (data : List Byte) (errs : BurstErrs) : State :=
  match s.place pa with
  | .dram _ => s.dramWrite m pa data errs
  | _ => s.otherWrite m pa data

/-- A write of a master; one of a work item folds into its signature (R143). -/
def memWrite (m : Master) (addr : Nat) (data : List Byte) (errs : BurstErrs) (s : State) : State :=
  if s.sys.power.mode ≠ .on then s
  else
    match s.storesHeld m, decide (addr < 0x80000) with
    | some e, false =>
      let bs := data.take (128 - addr % 128)
      ((s.foldStore m addr bs).modVec e fun v => { v with outs := v.outs ++ [(addr, bs)] }).emit (.done m)
    | _, _ =>
      match s.reach m addr true with
      | (.refused, s1) => s1.emit (faultAt m)
      | (.store k, s1) =>
        let bs := data.take (storeLen k data.length)
        ((s1.foldStore m k bs).modVec ((masterVec m).getD 0) fun v => { v with store := putStoreBytes v.store k bs }).emit
          (.done m)
      | (.phys pa, s1) => (s1.foldStore m addr (data.take (128 - addr % 128))).physStore m pa data errs

/-- R190, R202: MEMORY_READ. -/
def execMemoryRead (m : Master) (addr bytes : Nat) (errs : BurstErrs) (s : State) : Res := .next (memRead m addr bytes errs s)

/-- R190, R193: MEMORY_WRITE. -/
def execMemoryWrite (m : Master) (addr : Nat) (data : List Byte) (s : State) : Res := .next (memWrite m addr data {} s)

/-- R197: PARTIAL_WRITE. -/
def execPartialWrite (m : Master) (addr : Nat) (data : List Byte) (errs : BurstErrs) (s : State) : Res :=
  .next (memWrite m addr data errs s)

/-! ## Queues -/

/-- R30: DOORBELL_WRITE. -/
def execDoorbellWrite (m : Master) (q : Nat) (h : Half) (v : Word) (s : State) : Res :=
  unit s (isQueue q) (s.regWrite .sprDb q m h v.toNat)

/-- R44, R224: QUEUE_ENABLE. -/
def execQueueEnable (m : Master) (q : Nat) (v : Word) (s : State) : Res :=
  unit s (isQueue q) (s.regWrite .sprQcfg q m .whole (withBit v 63))

/-- R373: QUEUE_DISABLE. -/
def execQueueDisable (m : Master) (q : Nat) (v : Word) (s : State) : Res :=
  unit s (isQueue q) (s.regWrite .sprQcfg q m .whole (withoutBit v 63))

/-! ## Arrays -/

/-- R59: NEXT_VALID_SET. -/
def execNextValidSet (m : Master) (a : Nat) (v : Word) (s : State) : Res :=
  unit s (isArray a) (s.regWrite .arrProg a m .whole (withBit v 63))

/-- R63: ABORT. -/
def execAbort (m : Master) (a : Nat) (v : Word) (s : State) : Res :=
  unit s (isArray a) (s.regWrite .arrCtrl a m .whole (withBit v 63))

/-- R82: ARR_SATCFG_WRITE. -/
def execArrSatcfgWrite (m : Master) (a : Nat) (v : Word) (s : State) : Res :=
  unit s (isArray a) (s.regWrite .arrSatcfg a m .whole v.toNat)

/-! ## Attention pools -/

/-- R113: SWEEP. -/
def execSweep (m : Master) (i : Nat) (v : Word) (s : State) : Res :=
  unit s (isInst i) (s.regWrite .attIctrl i m .whole (withBit v 63))

/-- R130: POOL_ENABLE. -/
def execPoolEnable (m : Master) (i : Nat) (v : Word) (s : State) : Res :=
  unit s (isInst i) (s.regWrite .attIpool i m .whole (withBit v 0))

/-- R130: POOL_DISABLE. -/
def execPoolDisable (m : Master) (i : Nat) (v : Word) (s : State) : Res :=
  unit s (isInst i) (s.regWrite .attIpool i m .whole (withoutBit v 0))

/-! ## Flasks and the pour table -/

/-- R160: FLRES_WRITE. -/
def execFlresWrite (m : Master) (f : Nat) (v : Word) (s : State) : Res :=
  unit s (isFlask f) (s.regWrite .sysFlres f m .whole v.toNat)

/-- R160: FLASK_CREATE. -/
def execFlaskCreate (m : Master) (f : Nat) (v : Word) (s : State) : Res :=
  unit s (isFlask f) (s.regWrite .sysFlctrl f m .whole (withBit v 59))

/-- R161: FLASK_DESTROY. -/
def execFlaskDestroy (m : Master) (f : Nat) (v : Word) (s : State) : Res :=
  unit s (isFlask f) (s.regWrite .sysFlctrl f m .whole (withBit v 58))

/-- R165: SWAP. -/
def execSwap (m : Master) (v : Word) (s : State) : Res := .next (s.regWrite .pourCtrl 0 m .whole (withBit v 63))

/-! ## Memory -/

/-- R210: MEMORY_INIT. -/
def execMemoryInit (m : Master) (v : Word) (s : State) : Res :=
  .next (s.regWrite .memCtrl 0 m .whole (withBit v 56))

/-- R201: CACHE_WAYS_WRITE. -/
def execCacheWaysWrite (m : Master) (p : Nat) (v : Word) (s : State) : Res :=
  unit s (decide (p < 9)) (s.regWrite .memCways p m .whole v.toNat)

/-- R198: REGION_ENABLE. -/
def execRegionEnable (m : Master) (n : Nat) (v : Word) (s : State) : Res :=
  unit s (decide (n < 32)) (s.regWrite .memRgn1 n m .whole (withBit v 20))

/-- R198: REGION_DISABLE. -/
def execRegionDisable (m : Master) (n : Nat) (v : Word) (s : State) : Res :=
  unit s (decide (n < 32)) (s.regWrite .memRgn1 n m .whole (withoutBit v 20))

/-- R205: RETIRE. -/
def execRetire (m : Master) (v : Word) (s : State) : Res := .next (s.regWrite .memCtrl 0 m .whole (withBit v 51))

/-! ## Instances (R215) -/

/-- R215: INSTANCE_CREATE. -/
def execInstanceCreate (m : Master) (i : Nat) (v : Word) (s : State) : Res :=
  unit s (isInst i) (s.regWrite .sysInst i m .whole (withBit v 59))

/-- R216: QUIESCE. -/
def execQuiesce (m : Master) (i : Nat) (v : Word) (s : State) : Res :=
  unit s (isInst i) (s.regWrite .sysInst i m .whole (withBit v 58))

/-- R216: RESUME. -/
def execResume (m : Master) (i : Nat) (v : Word) (s : State) : Res :=
  unit s (isInst i) (s.regWrite .sysInst i m .whole (withBit v 57))

/-- R217: INSTANCE_RESET. -/
def execInstanceReset (m : Master) (i : Nat) (v : Word) (s : State) : Res :=
  unit s (isInst i) (s.regWrite .sysInst i m .whole (withBit v 56))

/-- R218: REMOVE. -/
def execRemove (m : Master) (i : Nat) (v : Word) (s : State) : Res :=
  unit s (isInst i) (s.regWrite .sysInst i m .whole (withBit v 55))

/-- R223: SPILL_ALL. -/
def execSpillAll (m : Master) (i : Nat) (v : Word) (s : State) : Res :=
  unit s (isInst i) (s.regWrite .sysInst i m .whole (withBit v 54))

/-! ## Cameras and displays -/

/-- R247: CAMERA_CONTEXT_ENABLE. -/
def execCameraContextEnable (m : Master) (c : Nat) (v : Word) (s : State) : Res :=
  unit s (isCam c) (s.regWrite .dspCamctx0 c m .whole (withBit v 63))

/-- R260: CAMERA_CONTEXT_DISABLE. -/
def execCameraContextDisable (m : Master) (c : Nat) (v : Word) (s : State) : Res :=
  unit s (isCam c) (s.regWrite .dspCamctx0 c m .whole (withoutBit v 63))

/-- R254: PLANE_POST. -/
def execPlanePost (m : Master) (o p : Nat) (v : Word) (s : State) : Res :=
  unit s (isOut o && decide (p < 8)) (s.regWrite .dspFlip (8 * o + p) m .whole (withBit v 5))

/-! ## Time -/

/-- R278: TIME_INC_WRITE. -/
def execTimeIncWrite (m : Master) (v : Word) (s : State) : Res := .next (s.regWrite .timeInc 0 m .whole v.toNat)

/-- R279: TIME_STEP_WRITE. -/
def execTimeStepWrite (m : Master) (v : Word) (s : State) : Res := .next (s.regWrite .timeStep 0 m .whole v.toNat)

/-- R282: COMPARE_ARM. -/
def execCompareArm (m : Master) (n : Nat) (v : Word) (s : State) : Res :=
  unit s (decide (n < 8)) (s.regWrite .timeCmp1 n m .whole (withBit v 63))

/-! ## Gateway -/

/-- R290: ETH_RING_DOORBELL. -/
def execEthRingDoorbell (m : Master) (r : Nat) (v : Word) (s : State) : Res :=
  unit s (decide (r < 256)) (s.regWrite .ethRingdb r m .whole v.toNat)

/-- R296: ADDRESS_CLAIM. -/
def execAddressClaim (m : Master) (c slot : Nat) (v : Word) (s : State) : Res :=
  unit s (decide (c < 20) && decide (slot < 8)) (s.regWrite .canJ19391 (slotNo c slot) m .whole (withBit v 55))

/-- R298: TUNNEL_ENABLE. -/
def execTunnelEnable (m : Master) (v : Word) (s : State) : Res :=
  .next (s.regWrite .canTuncfg 0 m .whole (withBit v 5))

/-! ## System -/

/-- R336: KICK. -/
def execKick (m : Master) (v : Word) (s : State) : Res := .next (s.regWrite .cupWdog 0 m .whole (withBit v 63))

/-- R149, R349: MGR_LOCK_SET. -/
def execMgrLockSet (m : Master) (v : Word) (s : State) : Res :=
  .next (s.regWrite .sysLock 0 m .whole (withBit v 62))

/-- R359: IRQ_ENABLE. -/
def execIrqEnable (m : Master) (v : Word) (s : State) : Res :=
  .next (s.regWrite .sysIrqcfg 0 m .whole (withBit v 0))

end Sys2Proof.Machine
end

