-- ==== Sys2Proof/Machine/Dispatch.lean ====
section
/-! DEFINITION. The dispatcher: one arm per command, each one direct call of the meaning of that command. -/

namespace Sys2Proof.Machine

/-- What a command does to everything but the queue. -/
def exec (i : Instr) (s : State) : Host.Outcome State Fault Refusal :=
  match i with
  | .clockLossDetected d => Sys2Proof.Machine.execClockLossDetected d s
  | .sclkLossDetected => Sys2Proof.Machine.execSclkLossDetected s
  | .voltageFault rail pct => Sys2Proof.Machine.execVoltageFault rail pct s
  | .temperatureEvent sensor celsius => Sys2Proof.Machine.execTemperatureEvent sensor celsius s
  | .thermalShutdown sensor celsius => Sys2Proof.Machine.execThermalShutdown sensor celsius s
  | .timeNowNsRead m => Sys2Proof.Machine.execTimeNowNsRead m s
  | .trajectoryRelease => Sys2Proof.Machine.execTrajectoryRelease s
  | .activeCutoff => Sys2Proof.Machine.execActiveCutoff s
  | .shadowCutoff => Sys2Proof.Machine.execShadowCutoff s
  | .doorbellWrite m q h v => Sys2Proof.Machine.execDoorbellWrite m q h v s
  | .queueEnable m q v => Sys2Proof.Machine.execQueueEnable m q v s
  | .queueDisable m q v => Sys2Proof.Machine.execQueueDisable m q v s
  | .scannerRound served => Sys2Proof.Machine.execScannerRound served s
  | .jobFetch q => Sys2Proof.Machine.execJobFetch q s
  | .jobStart j => Sys2Proof.Machine.execJobStart j s
  | .jobExpire j => Sys2Proof.Machine.execJobExpire j s
  | .jobComplete j => Sys2Proof.Machine.execJobComplete j s
  | .jobFault j tile => Sys2Proof.Machine.execJobFault j tile s
  | .nopJob j => Sys2Proof.Machine.execNopJob j s
  | .fenceJob j => Sys2Proof.Machine.execFenceJob j s
  | .tensor j => Sys2Proof.Machine.execTensor j s
  | .tileDispatch a => Sys2Proof.Machine.execTileDispatch a s
  | .programLoad a => Sys2Proof.Machine.execProgramLoad a s
  | .nextValidSet m a v => Sys2Proof.Machine.execNextValidSet m a v s
  | .nop a => Sys2Proof.Machine.execNop a s
  | .ldw a => Sys2Proof.Machine.execLdw a s
  | .swapw a => Sys2Proof.Machine.execSwapw a s
  | .lda a => Sys2Proof.Machine.execLda a s
  | .shift a stalled => Sys2Proof.Machine.execShift a stalled s
  | .acc a => Sys2Proof.Machine.execAcc a s
  | .drain a => Sys2Proof.Machine.execDrain a s
  | .post a => Sys2Proof.Machine.execPost a s
  | .xfer a => Sys2Proof.Machine.execXfer a s
  | .waitq a => Sys2Proof.Machine.execWaitq a s
  | .sig a => Sys2Proof.Machine.execSig a s
  | .sync a => Sys2Proof.Machine.execSync a s
  | .loop a => Sys2Proof.Machine.execLoop a s
  | .fence a => Sys2Proof.Machine.execFence a s
  | .endProg a flip dup => Sys2Proof.Machine.execEndProg a flip dup s
  | .asyncComplete a k stalled => Sys2Proof.Machine.execAsyncComplete a k stalled s
  | .tileWatchdog a => Sys2Proof.Machine.execTileWatchdog a s
  | .abort m a v => Sys2Proof.Machine.execAbort m a v s
  | .abortComplete a => Sys2Proof.Machine.execAbortComplete a s
  | .arrSatcfgWrite m a v => Sys2Proof.Machine.execArrSatcfgWrite m a v s
  | .convTap j => Sys2Proof.Machine.execConvTap j s
  | .convGrouped j => Sys2Proof.Machine.execConvGrouped j s
  | .maxPool j => Sys2Proof.Machine.execMaxPool j s
  | .averagePool j => Sys2Proof.Machine.execAveragePool j s
  | .expand j => Sys2Proof.Machine.execExpand j s
  | .seqAdmit j => Sys2Proof.Machine.execSeqAdmit j s
  | .seqRestore j => Sys2Proof.Machine.execSeqRestore j s
  | .seqFork j => Sys2Proof.Machine.execSeqFork j s
  | .seqRelease j => Sys2Proof.Machine.execSeqRelease j s
  | .attnStep j => Sys2Proof.Machine.execAttnStep j s
  | .attnPrefill j => Sys2Proof.Machine.execAttnPrefill j s
  | .sweep m idx v => Sys2Proof.Machine.execSweep m idx v s
  | .sweepDone idx => Sys2Proof.Machine.execSweepDone idx s
  | .poolEnable m idx v => Sys2Proof.Machine.execPoolEnable m idx v s
  | .poolDisable m idx v => Sys2Proof.Machine.execPoolDisable m idx v s
  | .isolationDeadline a => Sys2Proof.Machine.execIsolationDeadline a s
  | .overrun a => Sys2Proof.Machine.execOverrun a s
  | .isolationEnd f => Sys2Proof.Machine.execIsolationEnd f s
  | .inputLogCopyDone c => Sys2Proof.Machine.execInputLogCopyDone c s
  | .rtTaskEnd c steps => Sys2Proof.Machine.execRtTaskEnd c steps s
  | .testBarDue u => Sys2Proof.Machine.execTestBarDue u s
  | .testBarDone u pass => Sys2Proof.Machine.execTestBarDone u pass s
  | .tbImageVerified ok => Sys2Proof.Machine.execTbImageVerified ok s
  | .tbImageRecheck ok => Sys2Proof.Machine.execTbImageRecheck ok s
  | .counterFold ufs => Sys2Proof.Machine.execCounterFold ufs s
  | .sensorSample temps droops => Sys2Proof.Machine.execSensorSample temps droops s
  | .checkpoint => Sys2Proof.Machine.execCheckpoint s
  | .flresWrite m f v => Sys2Proof.Machine.execFlresWrite m f v s
  | .flaskCreate m f v => Sys2Proof.Machine.execFlaskCreate m f v s
  | .flaskDestroy m f v => Sys2Proof.Machine.execFlaskDestroy m f v s
  | .shakeoutDone f failed => Sys2Proof.Machine.execShakeoutDone f failed s
  | .firmwareClearDone f failed => Sys2Proof.Machine.execFirmwareClearDone f failed s
  | .swap m v => Sys2Proof.Machine.execSwap m v s
  | .swapValidated => Sys2Proof.Machine.execSwapValidated s
  | .frameBoundary => Sys2Proof.Machine.execFrameBoundary s
  | .spareCopyDone a => Sys2Proof.Machine.execSpareCopyDone a s
  | .pourEntryStart e => Sys2Proof.Machine.execPourEntryStart e s
  | .pourEntryEnd e => Sys2Proof.Machine.execPourEntryEnd e s
  | .pourLate e => Sys2Proof.Machine.execPourLate e s
  | .vectorPreempt e => Sys2Proof.Machine.execVectorPreempt e s
  | .vectorResume e j item => Sys2Proof.Machine.execVectorResume e j item s
  | .gateRefill => Sys2Proof.Machine.execGateRefill s
  | .gateRequest g bytes => Sys2Proof.Machine.execGateRequest g bytes s
  | .rtBoundExceeded rtm waitedNs => Sys2Proof.Machine.execRtBoundExceeded rtm waitedNs s
  | .guaranteeWindowEnd g => Sys2Proof.Machine.execGuaranteeWindowEnd g s
  | .memoryInit m v => Sys2Proof.Machine.execMemoryInit m v s
  | .memoryReady => Sys2Proof.Machine.execMemoryReady s
  | .memoryRead m addr bytes errs => Sys2Proof.Machine.execMemoryRead m addr bytes errs s
  | .memoryWrite m addr data => Sys2Proof.Machine.execMemoryWrite m addr data s
  | .partialWrite m addr data errs => Sys2Proof.Machine.execPartialWrite m addr data errs s
  | .patrolScrub block errs => Sys2Proof.Machine.execPatrolScrub block errs s
  | .writeBack c line data => Sys2Proof.Machine.execWriteBack c line data s
  | .snoopResponse c line data evicting => Sys2Proof.Machine.execSnoopResponse c line data evicting s
  | .writeBackAck c line => Sys2Proof.Machine.execWriteBackAck c line s
  | .cacheWaysWrite m p v => Sys2Proof.Machine.execCacheWaysWrite m p v s
  | .regionEnable m n v => Sys2Proof.Machine.execRegionEnable m n v s
  | .regionDisable m n v => Sys2Proof.Machine.execRegionDisable m n v s
  | .retire m v => Sys2Proof.Machine.execRetire m v s
  | .retireDone => Sys2Proof.Machine.execRetireDone s
  | .ladlePieceDone mv => Sys2Proof.Machine.execLadlePieceDone mv s
  | .xferCopy j piece => Sys2Proof.Machine.execXferCopy j piece s
  | .xferFill j piece => Sys2Proof.Machine.execXferFill j piece s
  | .pageWalk idx va write => Sys2Proof.Machine.execPageWalk idx va write s
  | .iotinvalVma gscid pscid va => Sys2Proof.Machine.execIotinvalVma gscid pscid va s
  | .iotinvalGvma gscid gpa => Sys2Proof.Machine.execIotinvalGvma gscid gpa s
  | .iodirInvalDdt dev => Sys2Proof.Machine.execIodirInvalDdt dev s
  | .iofenceC addr data => Sys2Proof.Machine.execIofenceC addr data s
  | .instanceCreate m idx v => Sys2Proof.Machine.execInstanceCreate m idx v s
  | .quiesce m idx v => Sys2Proof.Machine.execQuiesce m idx v s
  | .quiesceDone idx => Sys2Proof.Machine.execQuiesceDone idx s
  | .resume m idx v => Sys2Proof.Machine.execResume m idx v s
  | .instanceReset m idx v => Sys2Proof.Machine.execInstanceReset m idx v s
  | .remove m idx v => Sys2Proof.Machine.execRemove m idx v s
  | .removeDone idx => Sys2Proof.Machine.execRemoveDone idx s
  | .spillAll m idx v => Sys2Proof.Machine.execSpillAll m idx v s
  | .lockInterfaceRequest p vf => Sys2Proof.Machine.execLockInterfaceRequest p vf s
  | .getDeviceInterfaceReport p vf => Sys2Proof.Machine.execGetDeviceInterfaceReport p vf s
  | .monitorCall core a7 args => Sys2Proof.Machine.execMonitorCall core a7 args s
  | .keyExchange tenant => Sys2Proof.Machine.execKeyExchange tenant s
  | .keyDeliver tenant pol => Sys2Proof.Machine.execKeyDeliver tenant pol s
  | .keyRevoke tenant keyId => Sys2Proof.Machine.execKeyRevoke tenant keyId s
  | .consentInstall tenant f scope devId lastHour keyId digest ok => Sys2Proof.Machine.execConsentInstall tenant f scope devId lastHour keyId digest ok s
  | .consentExpiry f => Sys2Proof.Machine.execConsentExpiry f s
  | .debugAccess f k u => Sys2Proof.Machine.execDebugAccess f k u s
  | .getMeasurements tenant nonce => Sys2Proof.Machine.execGetMeasurements tenant nonce s
  | .getCertificate tenant slot => Sys2Proof.Machine.execGetCertificate tenant slot s
  | .vexpV e pre w => Sys2Proof.Machine.execVexpV e pre w s
  | .vlsemVv e pre w => Sys2Proof.Machine.execVlsemVv e pre w s
  | .vdwsVv e pre w => Sys2Proof.Machine.execVdwsVv e pre w s
  | .vdws0Vv e pre w => Sys2Proof.Machine.execVdws0Vv e pre w s
  | .vector j => Sys2Proof.Machine.execVector j s
  | .itemEnd e pre how flip dup => Sys2Proof.Machine.execItemEnd e pre how flip dup s
  | .itemTimeout e => Sys2Proof.Machine.execItemTimeout e s
  | .cameraContextEnable m c v => Sys2Proof.Machine.execCameraContextEnable m c v s
  | .cameraContextDisable m c v => Sys2Proof.Machine.execCameraContextDisable m c v s
  | .frameStart c => Sys2Proof.Machine.execFrameStart c s
  | .cameraPacket c pkt => Sys2Proof.Machine.execCameraPacket c pkt s
  | .ingestRecord c => Sys2Proof.Machine.execIngestRecord c s
  | .render j => Sys2Proof.Machine.execRender j s
  | .planePost m o p v => Sys2Proof.Machine.execPlanePost m o p v s
  | .latch o => Sys2Proof.Machine.execLatch o s
  | .scanoutUnderrun o => Sys2Proof.Machine.execScanoutUnderrun o s
  | .tellTaleCompare o pixels => Sys2Proof.Machine.execTellTaleCompare o pixels s
  | .escalationLevel1 o => Sys2Proof.Machine.execEscalationLevel1 o s
  | .escalationLevel2 o => Sys2Proof.Machine.execEscalationLevel2 o s
  | .update j => Sys2Proof.Machine.execUpdate j s
  | .plan j disagree => Sys2Proof.Machine.execPlan j disagree s
  | .repair j disagree => Sys2Proof.Machine.execRepair j disagree s
  | .publishAt j => Sys2Proof.Machine.execPublishAt j s
  | .timeIncWrite m v => Sys2Proof.Machine.execTimeIncWrite m v s
  | .timeStepWrite m v => Sys2Proof.Machine.execTimeStepWrite m v s
  | .holdover => Sys2Proof.Machine.execHoldover s
  | .compareArm m n v => Sys2Proof.Machine.execCompareArm m n v s
  | .compareFire n => Sys2Proof.Machine.execCompareFire n s
  | .ethRingDoorbell m r v => Sys2Proof.Machine.execEthRingDoorbell m r v s
  | .frameTransmit r => Sys2Proof.Machine.execFrameTransmit r s
  | .launchLate can r => Sys2Proof.Machine.execLaunchLate can r s
  | .frameReceive f => Sys2Proof.Machine.execFrameReceive f s
  | .gateListEvent sel n => Sys2Proof.Machine.execGateListEvent sel n s
  | .canArbitration c => Sys2Proof.Machine.execCanArbitration c s
  | .canFrameReceive c f => Sys2Proof.Machine.execCanFrameReceive c f s
  | .busOff c => Sys2Proof.Machine.execBusOff c s
  | .busOffRecovery c => Sys2Proof.Machine.execBusOffRecovery c s
  | .addressClaim m c slot v => Sys2Proof.Machine.execAddressClaim m c slot v s
  | .claimHoldExpiry c slot => Sys2Proof.Machine.execClaimHoldExpiry c slot s
  | .cannotClaim c slot => Sys2Proof.Machine.execCannotClaim c slot s
  | .tunnelEnable m v => Sys2Proof.Machine.execTunnelEnable m v s
  | .tunnelFlush t => Sys2Proof.Machine.execTunnelFlush t s
  | .avtpduReceive stream seq msgs => Sys2Proof.Machine.execAvtpduReceive stream seq msgs s
  | .bridgeRequest m addr write bytes => Sys2Proof.Machine.execBridgeRequest m addr write bytes s
  | .cplTimeout tag => Sys2Proof.Machine.execCplTimeout tag s
  | .postedWriteError n => Sys2Proof.Machine.execPostedWriteError n s
  | .linkTraining p width peer => Sys2Proof.Machine.execLinkTraining p width peer s
  | .portDown p => Sys2Proof.Machine.execPortDown p s
  | .cellReceive p c uncorrectable => Sys2Proof.Machine.execCellReceive p c uncorrectable s
  | .cellTransmit p vc again => Sys2Proof.Machine.execCellTransmit p vc again s
  | .timeMessageSend => Sys2Proof.Machine.execTimeMessageSend s
  | .linkDelayMeasure p outNs backNs => Sys2Proof.Machine.execLinkDelayMeasure p outNs backNs s
  | .rendezvous p caught => Sys2Proof.Machine.execRendezvous p caught s
  | .wskWakePulse p ticks driftNs => Sys2Proof.Machine.execWskWakePulse p ticks driftNs s
  | .powerUp => Sys2Proof.Machine.execPowerUp s
  | .resetAssert => Sys2Proof.Machine.execResetAssert s
  | .boot slotA slotB rec => Sys2Proof.Machine.execBoot slotA slotB rec s
  | .brownOut rail => Sys2Proof.Machine.execBrownOut rail s
  | .powerOff => Sys2Proof.Machine.execPowerOff s
  | .powerFailWarning => Sys2Proof.Machine.execPowerFailWarning s
  | .wake w => Sys2Proof.Machine.execWake w s
  | .wakeTimer => Sys2Proof.Machine.execWakeTimer s
  | .standbySecond => Sys2Proof.Machine.execStandbySecond s
  | .getVersion m ch => Sys2Proof.Machine.execGetVersion m ch s
  | .fwLoad m ch ok => Sys2Proof.Machine.execFwLoad m ch ok s
  | .fwRestart m ch => Sys2Proof.Machine.execFwRestart m ch s
  | .fwRestartDone proc areaOk => Sys2Proof.Machine.execFwRestartDone proc areaOk s
  | .powerMode m ch => Sys2Proof.Machine.execPowerMode m ch s
  | .fieldRecordRead m ch => Sys2Proof.Machine.execFieldRecordRead m ch s
  | .billetPrepare m ch => Sys2Proof.Machine.execBilletPrepare m ch s
  | .billetPair m ch ok => Sys2Proof.Machine.execBilletPair m ch ok s
  | .billetStatus m ch => Sys2Proof.Machine.execBilletStatus m ch s
  | .attest m ch => Sys2Proof.Machine.execAttest m ch s
  | .keyRelease m ch => Sys2Proof.Machine.execKeyRelease m ch s
  | .ethPortCfg m ch => Sys2Proof.Machine.execEthPortCfg m ch s
  | .dspLinkCfg m ch => Sys2Proof.Machine.execDspLinkCfg m ch s
  | .kick m v => Sys2Proof.Machine.execKick m v s
  | .cupolaWatchdog => Sys2Proof.Machine.execCupolaWatchdog s
  | .mgrLockSet m v => Sys2Proof.Machine.execMgrLockSet m v s
  | .irqEnable m v => Sys2Proof.Machine.execIrqEnable m v s
  | .registerWrite m addr h v => Sys2Proof.Machine.execRegisterWrite m addr h v s
  | .bypass => Sys2Proof.Machine.execBypass s
  | .samplePreload pins preload => Sys2Proof.Machine.execSamplePreload pins preload s
  | .extest => Sys2Proof.Machine.execExtest s
  | .idcode => Sys2Proof.Machine.execIdcode s
  | .clamp => Sys2Proof.Machine.execClamp s
  | .highz => Sys2Proof.Machine.execHighz s
  | .tsclkEdge => Sys2Proof.Machine.execTsclkEdge s
  | .instanceResetDone idx => Sys2Proof.Machine.execInstanceResetDone idx s
  | .powerFailWarningEnd => Sys2Proof.Machine.execPowerFailWarningEnd s
  | .billetChange fitted serial endurance foreign => Sys2Proof.Machine.execBilletChange fitted serial endurance foreign s
  | .unknownMsgId m ch => Sys2Proof.Machine.execUnknownMsgId m ch s
  | .deniedRead m addr h => Sys2Proof.Machine.execDeniedRead m addr h s
  | .startInterfaceRequest p vf => Sys2Proof.Machine.execStartInterfaceRequest p vf s
  | .ideKm port stream key => Sys2Proof.Machine.execIdeKm port stream key s
  | .linkRetrain l => Sys2Proof.Machine.execLinkRetrain l s

end Sys2Proof.Machine
end

