-- ==== Sys2Proof/WellFormed.lean ====
section
/-! DEFINITION. Which commands can reach the device: every unit that an operand names exists (chapters 01, 07, 11, 13,
14, 16), and a master that makes an access is one of R354. -/

namespace Sys2Proof

/-- A unit that runs test bars exists: 34 arrays, 16 vector engines, 8 real-time cores, the runner (R1, chapter 07). -/
def TBUnit.ok : TBUnit → Bool
  | .array n => decide (n < 34)
  | .vec n => decide (n < 16)
  | .rt n => decide (n < 8)
  | .runner => true

/-- A coherent master exists (R202). -/
def Cacher.ok : Cacher → Bool
  | .l2 n => decide (n < 16)
  | .vec e => decide (e < 16)

/-- A link whose retrains the field record counts exists (R156). -/
def LinkId.ok : LinkId → Bool
  | .eth p => decide (p < 12)
  | .pcie p => decide (p < 2)
  | .csi p => decide (p < 8)
  | .display o => decide (o < 4)
  | .ufs => true

/-- A wake source exists: the Ethernet ports that wake are ports 2 to 11 (R326). -/
def WakeSource.ok : WakeSource → Bool
  | .can c => decide (c < 20)
  | .eth p => decide (2 ≤ p) && decide (p < 12)
  | .weska p => decide (p < 4)
  | .wakeIn => true

/-- A master of R354: sixteen application cores, instances 0 to 255 (R347), sixteen vector engines, eight real-time cores,
and the 256 virtual functions of two PCIe ports (R225). -/
def Master.ok : Master → Bool
  | .core n => decide (n < 16)
  | .inst i => decide (i < 256)
  | .vec e => decide (e < 16)
  | .rt c => decide (c < 8)
  | .host p v => decide (p < 2) && decide (v < 256)
  | .manager => true
  | .crucible => true
  | .cupola => true
  | .switchCtl => true

/-- Every unit that the command names exists. -/
def Instr.unitsOk : Instr → Bool
  | .clockLossDetected _ => true
  | .sclkLossDetected => true
  | .voltageFault rail _ => decide (rail < 8)
  | .temperatureEvent sensor _ => decide (sensor < 32)
  | .thermalShutdown sensor _ => decide (sensor < 32)
  | .timeNowNsRead _ => true
  | .trajectoryRelease => true
  | .activeCutoff => true
  | .shadowCutoff => true
  | .doorbellWrite _ q _ _ => decide (q < 16384)
  | .queueEnable _ q _ => decide (q < 16384)
  | .queueDisable _ q _ => decide (q < 16384)
  | .scannerRound _ => true
  | .jobFetch q => decide (q < 16384)
  | .jobStart _ => true
  | .jobExpire _ => true
  | .jobComplete _ => true
  | .jobFault _ _ => true
  | .nopJob _ => true
  | .fenceJob _ => true
  | .tensor _ => true
  | .tileDispatch a => decide (a < 34)
  | .programLoad a => decide (a < 34)
  | .nextValidSet _ a _ => decide (a < 34)
  | .nop a => decide (a < 34)
  | .ldw a => decide (a < 34)
  | .swapw a => decide (a < 34)
  | .lda a => decide (a < 34)
  | .shift a _ => decide (a < 34)
  | .acc a => decide (a < 34)
  | .drain a => decide (a < 34)
  | .post a => decide (a < 34)
  | .xfer a => decide (a < 34)
  | .waitq a => decide (a < 34)
  | .sig a => decide (a < 34)
  | .sync a => decide (a < 34)
  | .loop a => decide (a < 34)
  | .fence a => decide (a < 34)
  | .endProg a _ _ => decide (a < 34)
  | .asyncComplete a _ _ => decide (a < 34)
  | .tileWatchdog a => decide (a < 34)
  | .abort _ a _ => decide (a < 34)
  | .abortComplete a => decide (a < 34)
  | .arrSatcfgWrite _ a _ => decide (a < 34)
  | .convTap _ => true
  | .convGrouped _ => true
  | .maxPool _ => true
  | .averagePool _ => true
  | .expand _ => true
  | .seqAdmit _ => true
  | .seqRestore _ => true
  | .seqFork _ => true
  | .seqRelease _ => true
  | .attnStep _ => true
  | .attnPrefill _ => true
  | .sweep _ i _ => decide (i < 256)
  | .sweepDone i => decide (i < 256)
  | .poolEnable _ i _ => decide (i < 256)
  | .poolDisable _ i _ => decide (i < 256)
  | .isolationDeadline a => decide (a < 50)
  | .overrun a => decide (a < 50)
  | .isolationEnd f => decide (f < 8)
  | .inputLogCopyDone c => decide (c < 8)
  | .rtTaskEnd c _ => decide (c < 8)
  | .testBarDue u => u.ok
  | .testBarDone u _ => u.ok
  | .tbImageVerified _ => true
  | .tbImageRecheck _ => true
  | .counterFold _ => true
  | .sensorSample temps _ => temps.length == 32
  | .checkpoint => true
  | .flresWrite _ f _ => decide (f < 8)
  | .flaskCreate _ f _ => decide (f < 8)
  | .flaskDestroy _ f _ => decide (f < 8)
  | .shakeoutDone f _ => decide (f < 8) || f == 15
  | .firmwareClearDone f _ => decide (f < 8) || f == 15
  | .swap _ _ => true
  | .swapValidated => true
  | .frameBoundary => true
  | .spareCopyDone a => decide (a < 34)
  | .pourEntryStart e => decide (e < 4096)
  | .pourEntryEnd e => decide (e < 4096)
  | .pourLate e => decide (e < 4096)
  | .vectorPreempt e => decide (e < 16)
  | .vectorResume e _ _ => decide (e < 16)
  | .gateRefill => true
  | .gateRequest g _ => decide (g < 23)
  | .rtBoundExceeded rtm _ => decide (rtm < 14)
  | .guaranteeWindowEnd g => decide (g < 9)
  | .memoryInit _ _ => true
  | .memoryReady => true
  | .memoryRead _ _ _ _ => true
  | .memoryWrite _ _ _ => true
  | .partialWrite _ _ _ _ => true
  | .patrolScrub _ _ => true
  | .writeBack c _ _ => c.ok
  | .snoopResponse c _ _ _ => c.ok
  | .writeBackAck c _ => c.ok
  | .cacheWaysWrite _ p _ => decide (p < 9)
  | .regionEnable _ n _ => decide (n < 32)
  | .regionDisable _ n _ => decide (n < 32)
  | .retire _ _ => true
  | .retireDone => true
  | .ladlePieceDone _ => true
  | .xferCopy _ _ => true
  | .xferFill _ _ => true
  | .pageWalk i _ _ => decide (i < 256)
  | .iotinvalVma _ _ _ => true
  | .iotinvalGvma _ _ => true
  | .iodirInvalDdt _ => true
  | .iofenceC _ _ => true
  | .instanceCreate _ i _ => decide (i < 256)
  | .quiesce _ i _ => decide (i < 256)
  | .quiesceDone i => decide (i < 256)
  | .resume _ i _ => decide (i < 256)
  | .instanceReset _ i _ => decide (i < 256)
  | .remove _ i _ => decide (i < 256)
  | .removeDone i => decide (i < 256)
  | .spillAll _ i _ => decide (i < 256)
  | .lockInterfaceRequest p vf => decide (p < 2) && decide (vf < 256)
  | .getDeviceInterfaceReport p vf => decide (p < 2) && decide (vf < 256)
  | .monitorCall core _ args => decide (core < 16) && args.length == 6
  | .keyExchange _ => true
  | .keyDeliver _ _ => true
  | .keyRevoke _ _ => true
  | .consentInstall _ _ _ _ _ _ _ _ => true
  | .consentExpiry f => decide (f < 8)
  | .debugAccess f _ u => decide (f < 8) && u.all TBUnit.ok
  | .getMeasurements _ _ => true
  | .getCertificate _ _ => true
  | .vexpV e _ _ => decide (e < 16)
  | .vlsemVv e _ _ => decide (e < 16)
  | .vdwsVv e _ _ => decide (e < 16)
  | .vdws0Vv e _ _ => decide (e < 16)
  | .vector _ => true
  | .itemEnd e _ _ _ _ => decide (e < 16)
  | .itemTimeout e => decide (e < 16)
  | .cameraContextEnable _ c _ => decide (c < 24)
  | .cameraContextDisable _ c _ => decide (c < 24)
  | .frameStart c => decide (c < 24)
  | .cameraPacket c _ => decide (c < 24)
  | .ingestRecord c => decide (c < 24)
  | .render _ => true
  | .planePost _ o p _ => decide (o < 4) && decide (p < 8)
  | .latch o => decide (o < 4)
  | .scanoutUnderrun o => decide (o < 4)
  | .tellTaleCompare o _ => decide (o < 4)
  | .escalationLevel1 o => decide (o < 4)
  | .escalationLevel2 o => decide (o < 4)
  | .update _ => true
  | .plan _ _ => true
  | .repair _ _ => true
  | .publishAt _ => true
  | .timeIncWrite _ _ => true
  | .timeStepWrite _ _ => true
  | .holdover => true
  | .compareArm _ n _ => decide (n < 8)
  | .compareFire n => decide (n < 8)
  | .ethRingDoorbell _ r _ => decide (r < 256)
  | .frameTransmit r => decide (r < 128)
  | .launchLate can r => (match can with | none => decide (r < 128) | some k => decide (k < 20) && decide (r < 8))
  | .frameReceive f => decide (f.port < 12)
  | .gateListEvent sel n => (match sel with | 0 => decide (n < 12) | _ => decide (sel = 1) && decide (n < 256))
  | .canArbitration c => decide (c < 20)
  | .canFrameReceive c _ => decide (c < 20)
  | .busOff c => decide (c < 20)
  | .busOffRecovery c => decide (c < 20)
  | .addressClaim _ c slot _ => decide (c < 20) && decide (slot < 8)
  | .claimHoldExpiry c slot => decide (c < 20) && decide (slot < 8)
  | .cannotClaim c slot => decide (c < 20) && decide (slot < 8)
  | .tunnelEnable _ _ => true
  | .tunnelFlush t => decide (t < 64)
  | .avtpduReceive _ _ _ => true
  | .bridgeRequest _ _ _ _ => true
  | .cplTimeout _ => true
  | .postedWriteError n => decide (n < 32)
  | .linkTraining p width _ => decide (p < 4) && (width == 4 || width == 2)
  | .portDown p => decide (p < 4)
  | .cellReceive p _ _ => decide (p < 4)
  | .cellTransmit p vc _ => decide (p < 4) && decide (vc < 5)
  | .timeMessageSend => true
  | .linkDelayMeasure p _ _ => decide (p < 4)
  | .rendezvous p _ => decide (p < 4)
  | .wskWakePulse p _ _ => decide (p < 4)
  | .powerUp => true
  | .resetAssert => true
  | .boot _ _ _ => true
  | .brownOut rail => decide (rail < 8)
  | .powerOff => true
  | .powerFailWarning => true
  | .wake w => w.ok
  | .wakeTimer => true
  | .standbySecond => true
  | .getVersion _ ch => decide (ch < 64)
  | .fwLoad _ ch _ => decide (ch < 64)
  | .fwRestart _ ch => decide (ch < 64)
  | .fwRestartDone proc _ => decide (1 ≤ proc) && decide (proc ≤ 6)
  | .powerMode _ ch => decide (ch < 64)
  | .fieldRecordRead _ ch => decide (ch < 64)
  | .billetPrepare _ ch => decide (ch < 64)
  | .billetPair _ ch _ => decide (ch < 64)
  | .billetStatus _ ch => decide (ch < 64)
  | .attest _ ch => decide (ch < 64)
  | .keyRelease _ ch => decide (ch < 64)
  | .ethPortCfg _ ch => decide (ch < 64)
  | .dspLinkCfg _ ch => decide (ch < 64)
  | .kick _ _ => true
  | .cupolaWatchdog => true
  | .mgrLockSet _ _ => true
  | .irqEnable _ _ => true
  | .registerWrite _ _ _ _ => true
  | .bypass => true
  | .samplePreload _ _ => true
  | .extest => true
  | .idcode => true
  | .clamp => true
  | .highz => true
  | .tsclkEdge => true
  | .instanceResetDone i => decide (i < 256)
  | .powerFailWarningEnd => true
  | .billetChange _ _ _ _ => true
  | .unknownMsgId _ ch => decide (ch < 64)
  | .deniedRead _ _ _ => true
  | .startInterfaceRequest p vf => decide (p < 2) && decide (vf < 256)
  | .ideKm port _ _ => decide (port < 2)
  | .linkRetrain l => l.ok

/-- Every master that the command names exists. -/
def Instr.mastersOk : Instr → Bool
  | .clockLossDetected _ => true
  | .sclkLossDetected => true
  | .voltageFault _ _ => true
  | .temperatureEvent _ _ => true
  | .thermalShutdown _ _ => true
  | .timeNowNsRead m => m.ok
  | .trajectoryRelease => true
  | .activeCutoff => true
  | .shadowCutoff => true
  | .doorbellWrite m _ _ _ => m.ok
  | .queueEnable m _ _ => m.ok
  | .queueDisable m _ _ => m.ok
  | .scannerRound _ => true
  | .jobFetch _ => true
  | .jobStart _ => true
  | .jobExpire _ => true
  | .jobComplete _ => true
  | .jobFault _ _ => true
  | .nopJob _ => true
  | .fenceJob _ => true
  | .tensor _ => true
  | .tileDispatch _ => true
  | .programLoad _ => true
  | .nextValidSet m _ _ => m.ok
  | .nop _ => true
  | .ldw _ => true
  | .swapw _ => true
  | .lda _ => true
  | .shift _ _ => true
  | .acc _ => true
  | .drain _ => true
  | .post _ => true
  | .xfer _ => true
  | .waitq _ => true
  | .sig _ => true
  | .sync _ => true
  | .loop _ => true
  | .fence _ => true
  | .endProg _ _ _ => true
  | .asyncComplete _ _ _ => true
  | .tileWatchdog _ => true
  | .abort m _ _ => m.ok
  | .abortComplete _ => true
  | .arrSatcfgWrite m _ _ => m.ok
  | .convTap _ => true
  | .convGrouped _ => true
  | .maxPool _ => true
  | .averagePool _ => true
  | .expand _ => true
  | .seqAdmit _ => true
  | .seqRestore _ => true
  | .seqFork _ => true
  | .seqRelease _ => true
  | .attnStep _ => true
  | .attnPrefill _ => true
  | .sweep m _ _ => m.ok
  | .sweepDone _ => true
  | .poolEnable m _ _ => m.ok
  | .poolDisable m _ _ => m.ok
  | .isolationDeadline _ => true
  | .overrun _ => true
  | .isolationEnd _ => true
  | .inputLogCopyDone _ => true
  | .rtTaskEnd _ _ => true
  | .testBarDue _ => true
  | .testBarDone _ _ => true
  | .tbImageVerified _ => true
  | .tbImageRecheck _ => true
  | .counterFold _ => true
  | .sensorSample _ _ => true
  | .checkpoint => true
  | .flresWrite m _ _ => m.ok
  | .flaskCreate m _ _ => m.ok
  | .flaskDestroy m _ _ => m.ok
  | .shakeoutDone _ _ => true
  | .firmwareClearDone _ _ => true
  | .swap m _ => m.ok
  | .swapValidated => true
  | .frameBoundary => true
  | .spareCopyDone _ => true
  | .pourEntryStart _ => true
  | .pourEntryEnd _ => true
  | .pourLate _ => true
  | .vectorPreempt _ => true
  | .vectorResume _ _ _ => true
  | .gateRefill => true
  | .gateRequest _ _ => true
  | .rtBoundExceeded _ _ => true
  | .guaranteeWindowEnd _ => true
  | .memoryInit m _ => m.ok
  | .memoryReady => true
  | .memoryRead m _ _ _ => m.ok
  | .memoryWrite m _ _ => m.ok
  | .partialWrite m _ _ _ => m.ok
  | .patrolScrub _ _ => true
  | .writeBack _ _ _ => true
  | .snoopResponse _ _ _ _ => true
  | .writeBackAck _ _ => true
  | .cacheWaysWrite m _ _ => m.ok
  | .regionEnable m _ _ => m.ok
  | .regionDisable m _ _ => m.ok
  | .retire m _ => m.ok
  | .retireDone => true
  | .ladlePieceDone _ => true
  | .xferCopy _ _ => true
  | .xferFill _ _ => true
  | .pageWalk _ _ _ => true
  | .iotinvalVma _ _ _ => true
  | .iotinvalGvma _ _ => true
  | .iodirInvalDdt _ => true
  | .iofenceC _ _ => true
  | .instanceCreate m _ _ => m.ok
  | .quiesce m _ _ => m.ok
  | .quiesceDone _ => true
  | .resume m _ _ => m.ok
  | .instanceReset m _ _ => m.ok
  | .remove m _ _ => m.ok
  | .removeDone _ => true
  | .spillAll m _ _ => m.ok
  | .lockInterfaceRequest _ _ => true
  | .getDeviceInterfaceReport _ _ => true
  | .monitorCall _ _ _ => true
  | .keyExchange _ => true
  | .keyDeliver _ _ => true
  | .keyRevoke _ _ => true
  | .consentInstall _ _ _ _ _ _ _ _ => true
  | .consentExpiry _ => true
  | .debugAccess _ _ _ => true
  | .getMeasurements _ _ => true
  | .getCertificate _ _ => true
  | .vexpV _ _ _ => true
  | .vlsemVv _ _ _ => true
  | .vdwsVv _ _ _ => true
  | .vdws0Vv _ _ _ => true
  | .vector _ => true
  | .itemEnd _ _ _ _ _ => true
  | .itemTimeout _ => true
  | .cameraContextEnable m _ _ => m.ok
  | .cameraContextDisable m _ _ => m.ok
  | .frameStart _ => true
  | .cameraPacket _ _ => true
  | .ingestRecord _ => true
  | .render _ => true
  | .planePost m _ _ _ => m.ok
  | .latch _ => true
  | .scanoutUnderrun _ => true
  | .tellTaleCompare _ _ => true
  | .escalationLevel1 _ => true
  | .escalationLevel2 _ => true
  | .update _ => true
  | .plan _ _ => true
  | .repair _ _ => true
  | .publishAt _ => true
  | .timeIncWrite m _ => m.ok
  | .timeStepWrite m _ => m.ok
  | .holdover => true
  | .compareArm m _ _ => m.ok
  | .compareFire _ => true
  | .ethRingDoorbell m _ _ => m.ok
  | .frameTransmit _ => true
  | .launchLate _ _ => true
  | .frameReceive _ => true
  | .gateListEvent _ _ => true
  | .canArbitration _ => true
  | .canFrameReceive _ _ => true
  | .busOff _ => true
  | .busOffRecovery _ => true
  | .addressClaim m _ _ _ => m.ok
  | .claimHoldExpiry _ _ => true
  | .cannotClaim _ _ => true
  | .tunnelEnable m _ => m.ok
  | .tunnelFlush _ => true
  | .avtpduReceive _ _ _ => true
  | .bridgeRequest m _ _ _ => m.ok
  | .cplTimeout _ => true
  | .postedWriteError _ => true
  | .linkTraining _ _ _ => true
  | .portDown _ => true
  | .cellReceive _ _ _ => true
  | .cellTransmit _ _ _ => true
  | .timeMessageSend => true
  | .linkDelayMeasure _ _ _ => true
  | .rendezvous _ _ => true
  | .wskWakePulse _ _ _ => true
  | .powerUp => true
  | .resetAssert => true
  | .boot _ _ _ => true
  | .brownOut _ => true
  | .powerOff => true
  | .powerFailWarning => true
  | .wake _ => true
  | .wakeTimer => true
  | .standbySecond => true
  | .getVersion m _ => m.ok
  | .fwLoad m _ _ => m.ok
  | .fwRestart m _ => m.ok
  | .fwRestartDone _ _ => true
  | .powerMode m _ => m.ok
  | .fieldRecordRead m _ => m.ok
  | .billetPrepare m _ => m.ok
  | .billetPair m _ _ => m.ok
  | .billetStatus m _ => m.ok
  | .attest m _ => m.ok
  | .keyRelease m _ => m.ok
  | .ethPortCfg m _ => m.ok
  | .dspLinkCfg m _ => m.ok
  | .kick m _ => m.ok
  | .cupolaWatchdog => true
  | .mgrLockSet m _ => m.ok
  | .irqEnable m _ => m.ok
  | .registerWrite m _ _ _ => m.ok
  | .bypass => true
  | .samplePreload _ _ => true
  | .extest => true
  | .idcode => true
  | .clamp => true
  | .highz => true
  | .tsclkEdge => true
  | .instanceResetDone _ => true
  | .powerFailWarningEnd => true
  | .billetChange _ _ _ _ => true
  | .unknownMsgId m _ => m.ok
  | .deniedRead m _ _ => m.ok
  | .startInterfaceRequest _ _ => true
  | .ideKm _ _ _ => true
  | .linkRetrain _ => true

/-- A well-formed command. -/
def Instr.wf (c : Instr) : Bool := c.unitsOk && c.mastersOk

end Sys2Proof
end

