-- ==== Sys2Proof/Safety.lean ====
section
/-! DEFINITION. The terms in which claims speak of safe states and safe runs: the canonical forms, what a command
leaves unchanged, and when a register write is taken. -/

namespace Sys2Proof.Machine

/-! ## Canonical forms -/

/-- The register file is canonical: keys strictly rising, each the key of a register map, and no register listed that
holds its reset value. -/
def regsWf : Option Nat → NMap Word → Bool
  | _, [] => true
  | lo, (k, v) :: m =>
    (match lo with | none => true | some l => decide (l < k)) && decide (v ≠ keyReset k)
      && (Reg.all[k % 128]?).isSome && regsWf (some k) m

/-- A tidy state: the register file, the memory and the mailbox pages are in their canonical forms. -/
def State.tidy (s : State) : Bool :=
  regsWf none s.regs && Memory.wf s.mem.cells && NMap.wf 0 s.mem.mbx

/-! ## Frames -/

/-- The state of power and reset without what the safety monitors assert. -/
def PowerSt.calm (p : PowerSt) : PowerSt := { p with safeFlt := false, safeWarn := false }

/-- What the safety monitors assert: SAFE_FLT_N and SAFE_WARN_N. -/
def PowerSt.pins (p : PowerSt) : Bool × Bool := (p.safeFlt, p.safeWarn)

/-- The parts of the state beside the register file. -/
inductive Part where
  | queue | outbox | clock | freeCtr | dtuTlb | dtuFaults | dtuContexts | cells
  | mbx | poison | keys | flips | chkFlips | cache | holders | wbs
  | snoops | homeQ | useClock | spareArea | retCh | moves | nextMove | gates
  | gateQ | gateCfg | rtCfg | winCfg | sprue | queues | jobs | nextJob
  | ctxs | refc | runs | sweeping | kvNonFinite | kvLimited | arrays | pairs
  | flasks | rts | pour | rtUsed | vecs | saved | tbVerifying | tbStopped
  | tbFailed | runnerDue | runnerOut | spares | cams | disps | planCount | nodes
  | runKept | gateEngs | ethStaged | ethItems | macPns | macSak | shapers | meters
  | cbs | egress | can | tunnels | bridge | nextTag | wsk | parts
  | timeSrcs | traj | power | safePins | fw | record | store | trust | jtag
  | keptIrqs | chain | mbxTimes
  deriving DecidableEq, Repr

/-- A part of the state is the same in `s` and `t`. -/
def Part.same (p : Part) (s t : State) : Prop :=
  match p with
  | .queue => t.pending = s.pending
  | .outbox => t.outbox = s.outbox
  | .clock => t.clock = s.clock
  | .freeCtr => t.freeCtr = s.freeCtr
  | .dtuTlb => t.dtu.tlb = s.dtu.tlb
  | .dtuFaults => t.dtu.faults = s.dtu.faults
  | .dtuContexts => t.dtu.ddtc = s.dtu.ddtc
  | .cells => t.mem.cells = s.mem.cells
  | .mbx => t.mem.mbx = s.mem.mbx
  | .poison => t.mem.poison = s.mem.poison
  | .keys => t.mem.keys = s.mem.keys
  | .flips => t.mem.flips = s.mem.flips
  | .chkFlips => t.mem.chkFlips = s.mem.chkFlips
  | .cache => t.mem.cache = s.mem.cache
  | .holders => t.mem.holders = s.mem.holders
  | .wbs => t.mem.wbs = s.mem.wbs
  | .snoops => t.mem.snoops = s.mem.snoops
  | .homeQ => t.mem.homeQ = s.mem.homeQ
  | .useClock => t.mem.useClock = s.mem.useClock
  | .spareArea => t.mem.spareArea = s.mem.spareArea
  | .retCh => t.mem.retCh = s.mem.retCh
  | .moves => t.mem.moves = s.mem.moves
  | .nextMove => t.mem.nextMove = s.mem.nextMove
  | .gates => t.mem.gates = s.mem.gates
  | .gateQ => t.mem.gateQ = s.mem.gateQ
  | .gateCfg => t.mem.gateCfg = s.mem.gateCfg
  | .rtCfg => t.mem.rtCfg = s.mem.rtCfg
  | .winCfg => t.mem.winCfg = s.mem.winCfg
  | .sprue => t.work.sprue = s.work.sprue
  | .queues => t.work.queues = s.work.queues
  | .jobs => t.work.jobs = s.work.jobs
  | .nextJob => t.work.nextJob = s.work.nextJob
  | .ctxs => t.work.ctxs = s.work.ctxs
  | .refc => t.work.refc = s.work.refc
  | .runs => t.work.runs = s.work.runs
  | .sweeping => t.work.sweeping = s.work.sweeping
  | .kvNonFinite => t.work.kvNonFinite = s.work.kvNonFinite
  | .kvLimited => t.work.kvLimited = s.work.kvLimited
  | .arrays => t.units.arrays = s.units.arrays
  | .pairs => t.units.pairs = s.units.pairs
  | .flasks => t.units.flasks = s.units.flasks
  | .rts => t.units.rts = s.units.rts
  | .pour => t.units.pour = s.units.pour
  | .rtUsed => t.units.rtUsed = s.units.rtUsed
  | .vecs => t.units.vecs = s.units.vecs
  | .saved => t.units.saved = s.units.saved
  | .tbVerifying => t.units.tbVerifying = s.units.tbVerifying
  | .tbStopped => t.units.tbStopped = s.units.tbStopped
  | .tbFailed => t.units.tbFailed = s.units.tbFailed
  | .runnerDue => t.units.runnerDue = s.units.runnerDue
  | .runnerOut => t.units.runnerOut = s.units.runnerOut
  | .spares => t.units.spares = s.units.spares
  | .cams => t.pix.cams = s.pix.cams
  | .disps => t.pix.disps = s.pix.disps
  | .planCount => t.pix.planCount = s.pix.planCount
  | .nodes => t.pix.nodes = s.pix.nodes
  | .runKept => t.pix.runKept = s.pix.runKept
  | .gateEngs => t.net.gateEngs = s.net.gateEngs
  | .ethStaged => t.net.ethStaged = s.net.ethStaged
  | .ethItems => t.net.ethItems = s.net.ethItems
  | .macPns => t.net.macPns = s.net.macPns
  | .macSak => t.net.macSak = s.net.macSak
  | .shapers => t.net.shapers = s.net.shapers
  | .meters => t.net.meters = s.net.meters
  | .cbs => t.net.cbs = s.net.cbs
  | .egress => t.net.egress = s.net.egress
  | .can => t.net.can = s.net.can
  | .tunnels => t.net.tunnels = s.net.tunnels
  | .bridge => t.net.bridge = s.net.bridge
  | .nextTag => t.net.nextTag = s.net.nextTag
  | .wsk => t.net.wsk = s.net.wsk
  | .parts => t.net.parts = s.net.parts
  | .timeSrcs => t.net.timeSrcs = s.net.timeSrcs
  | .traj => t.net.traj = s.net.traj
  | .power => t.sys.power.calm = s.sys.power.calm
  | .safePins => t.sys.power.pins = s.sys.power.pins
  | .fw => t.sys.fw = s.sys.fw
  | .record => t.sys.record = s.sys.record
  | .store => t.sys.store = s.sys.store
  | .trust => t.sys.trust = s.sys.trust
  | .jtag => t.sys.jtag = s.sys.jtag
  | .keptIrqs => t.sys.keptIrqs = s.sys.keptIrqs
  | .chain => t.sys.chain = s.sys.chain
  | .mbxTimes => t.sys.mbxTimes = s.sys.mbxTimes

/-- Every register but those that `q` selects holds in `t` what it held in `s`. -/
def SameRegs (q : Reg → Nat → Prop) (s t : State) : Prop := ∀ r i, ¬ q r i → t.r r i = s.r r i

/-- From `s` to `t` nothing changes but the listed parts of the state and the registers that `q` selects. -/
def Leaves (ps : List Part) (q : Reg → Nat → Prop) (s t : State) : Prop :=
  (∀ p, p ∉ ps → p.same s t) ∧ SameRegs q s t

/-- No register. -/
def noReg (_ : Reg) (_ : Nat) : Prop := False

/-- The occurrence `i` of the map `r`, and no other register. -/
def oneReg (r : Reg) (i : Nat) (q : Reg) (j : Nat) : Prop := q = r ∧ j = i

/-! ## Runs -/

/-- The device is ON, no clock is lost, and no reset is held. -/
abbrev State.live (s : State) : Prop := s.sys.power.mode = .on ∧ s.sys.power.lost = [] ∧ s.sys.power.sclkLost = false

/-- R346, R354, R373, R227: a write of a register reaches it and is neither denied, refused nor locked out. -/
def State.accepts (s : State) (r : Reg) (i : Nat) (m : Master) (h : Half) (v : Nat) : Prop :=
  s.live ∧ s.permits r i m true (s.camPort r i h v) = true ∧ s.lockedBy r i = none
    ∧ s.clearsEn r i (s.newValue r i h v) = none ∧ s.enBusy r i (s.newValue r i h v) = false
    ∧ s.refuses r i m (s.r r i) (s.newValue r i h v) (halfOf h v) = false

/-- R373: a write of a register that clears its EN reaches it and is neither denied, refused nor locked out. -/
def State.clears (s : State) (r : Reg) (i : Nat) (m : Master) (h : Half) (v : Nat) (x : Fld) : Prop :=
  s.live ∧ s.permits r i m true (s.camPort r i h v) = true ∧ s.lockedBy r i = none
    ∧ s.clearsEn r i (s.newValue r i h v) = some x ∧ s.clearBad r i = false

/-! ## Terms of the statements -/

/-- What an access of an instance's address space may change beside the memory it writes: the DTU's caches, fault queue
and dirty log, the system cache and its ways, the holders of its lines, the gate it passes, what the memory controller
corrects, counts and reports, and what leaves through a fault or a window. -/
def accessParts : List Part :=
  [.outbox, .freeCtr, .dtuTlb, .dtuFaults, .dtuContexts, .cells, .poison, .flips, .chkFlips, .cache, .holders, .useClock,
    .gates, .gateQ, .wsk, .nextTag, .record, .safePins, .keptIrqs]

/-- The registers that an access of an instance's address space may change. -/
def accessRegs (r : Reg) (_ : Nat) : Prop :=
  r = .dtuDlogcfg ∨ r = .dtuDlogidx ∨ r = .dtuIommu ∨ r = .memCways ∨ r = .memChstat ∨ r = .sysSafestat ∨ r = .wskStat

/-- What an access of a real-time master may change: that, and what the master has used of its period (R185). -/
def rtParts : List Part := .rtUsed :: accessParts
def rtRegs (r : Reg) (i : Nat) : Prop := accessRegs r i ∨ r = .gateRt

/-- From `s` to `t` job `j` becomes `y`, and every other job stays as it was. -/
def JobTo (j : Nat) (y : Job) (s t : State) : Prop := t.job j = some y ∧ ∀ k, k ≠ j → t.job k = s.job k

/-- From `s` to `t` job `k` stays as it was, but for the number of ladles that serve it (R206). -/
def SameJob (k : Nat) (s t : State) : Prop :=
  ((t.job k).map fun x => { x with ladles := 0 }) = (s.job k).map fun x => { x with ladles := 0 }

/-- From `s` to `t` ladles may have been dealt (R206), and nothing else has changed. -/
def DealsOnly (s t : State) : Prop :=
  (t.mem.moves.map fun m => { m with ladle := false }) = (s.mem.moves.map fun m => { m with ladle := false })
    ∧ (∀ j, SameJob j s t) ∧ Leaves [.moves, .jobs] noReg s t

/-- A job that has ended with a status. -/
def Job.over (x : Job) (status : Nat) (detail : Option Nat) : Job :=
  { x with phase := .ended, status := status, detail := detail }

/-- The hardware itself keeps something in the byte: a tag of a line of a tagged region (R195) or the copy of a line of a
mirrored one (R194). -/
def State.hwByte (s : State) (k : Nat) : Prop :=
  (∃ l n, s.tagRegion l = some n ∧ s.tagAddr n l + dramBase ≤ k ∧ k < s.tagAddr n l + dramBase + 8)
    ∨ ∃ l c, s.copyLine? l = some c ∧ 128 * c + dramBase ≤ k ∧ k < 128 * c + dramBase + 128

/-- The line can be used: it lies in the system cache, or it is intact in memory and MCLK runs (R190 to R192, R196). -/
def State.lineReady (s : State) (l : Nat) : Prop :=
  s.cached l = true ∨ (s.clockLost .mclk = false ∧ l ∉ s.mem.poison ∧ (∀ f ∈ s.mem.flips, blockOf f.line ≠ blockOf l)
    ∧ (∀ f ∈ s.mem.chkFlips, f.line ≠ blockOf l) ∧ s.tagGood l (s.lineBytes l) = true)

/-- A request of a master reaches the home slice of a physical address: DRAM that no carve-out holds, over clocks that run
(R15, R194, R195), and no other request of the line is under way (R202). -/
def State.atHome (s : State) (m : Master) (pa : Nat) : Prop :=
  s.place pa = .dram (pa - dramBase) ∧ s.clockLost .fclk = false ∧ (masterDomain m).any s.clockLost = false
    ∧ s.carved (pa - dramBase) = false ∧ (∀ q ∈ s.mem.snoops, q.line ≠ (pa - dramBase) / 128)
    ∧ ∀ q ∈ s.mem.homeQ, q.line ≠ (pa - dramBase) / 128

/-- The parts of the state that a line may change on its way through a home slice. -/
def lineParts : List Part := [.cells, .cache, .holders, .useClock, .poison, .flips, .chkFlips, .gates, .gateQ]

/-- No registers but those of cache occupancy. -/
def occOnly (r : Reg) (_ : Nat) : Prop := r = .memCways

/-- Job `j` runs, is of class `op`, and no sweep holds it. -/
def State.runs (s : State) (j op : Nat) (x : Job) : Prop :=
  s.job j = some x ∧ x.phase = .running ∧ x.opcode = op ∧ (isAttn op && s.work.sweeping.contains x.inst) = false

/-- The queue is in the sprue's pending bitmap or in its current round. -/
def State.queuePending (s : State) (q : Nat) : Prop := q ∈ s.work.sprue.pending ∨ q ∈ s.work.sprue.round

/-- A write of occurrence `i` of the register starts nothing: its effect is on its own fields. The ninth register of the
IOMMU's map holds the controls of its queues. -/
def writesOnly (r : Reg) (i : Nat) : Bool :=
  !(r == .dtuIommu && i == 9) && !([Reg.sprDb, .mbxDb, .sprQcfg, .arrCtrl, .arrSatcfg, .attIpool, .attIctrl, .sysFlctrl, .sysFlres, .pourCtrl, .memCtrl,
    .memCways, .memRgn1, .sysInst, .sysVfmap, .dspCamctx0, .dspFlip, .timeInc, .timeStep, .canJ19391, .canTuncfg,
    .sysLock, .sysIrqcfg, .sysSafestat, .cupWdog].contains r)

/-- The command `w` is at issue on array `a`: an array job runs it, its opcode is `op`, its reserved bits [115:112] and
[`rsv`:0] are zero, and EVT_EN stands only on an asynchronous command (R52, R54). -/
def State.atIssue (s : State) (a op rsv : Nat) (async : Bool) (w : Nat) : Prop :=
  a < 34 ∧ s.issuing a = true ∧ (s.arr a).pc < s.f ARR_PROG.CUR_LEN a ∧ s.cmdAt a (s.arr a).pc = w
    ∧ bits w 127 120 = op ∧ bits w 115 112 = 0 ∧ bits w rsv 0 = 0 ∧ (async = false → bit w 119 = false)

/-- From `s` to `t` array `a` comes to hold `x`; of its registers PC of ARR_STATUS alone follows. -/
def OnlyArray (a : Nat) (x : ArraySt) (s t : State) : Prop :=
  t.arr a = x ∧ (∀ b, b ≠ a → t.arr b = s.arr b) ∧ bits (t.r .arrStatus a) 63 48 = bits (s.r .arrStatus a) 63 48
    ∧ bits (t.r .arrStatus a) 35 0 = bits (s.r .arrStatus a) 35 0 ∧ Leaves [.arrays] (oneReg .arrStatus a) s t

/-- From `s` to `t` the test bar of array `a` begins (R148): STATE 4h, and the save of its mould range to the image's area
is handed to a ladle. -/
def BarBegins (a : Nat) (s t : State) : Prop :=
  t.f ARR_STATUS.STATE a = 4 ∧ (∀ b, b ≠ a → t.arr b = s.arr b)
    ∧ t.arr a = { s.arr a with
        testBar := some s.now, testBarDue := false, barSpare := decide (s.f ARR_STATUS.STATE a = 7), barPhase := .save
        barPair := barPairing (s.f POUR_STAT.FRAME 0), barRuns := [] }
    ∧ (∃ mv ∈ t.mem.moves, mv.kind = .barSave a ∧ mv.toMem = true ∧ mv.va = s.barArea a ∧ mv.maddr = barMould
        ∧ mv.len = barBytes ∧ mv.data = (s.mouldRead a barMould barBytes none).1)
    ∧ (∀ k, SameJob k s t) ∧ Leaves [.arrays, .jobs, .moves, .nextMove, .freeCtr] (oneReg .arrStatus a) s t

/-- `n` bytes of a mould store from an address on. -/
def ArraySt.bytes (x : ArraySt) (lo n : Nat) : List Byte := (List.range n).map fun k => NMap.get x.mould 0 (lo + k)

/-- The asynchronous command that array state `x` adds for the command `w` (R52, R53). -/
def ArraySt.asyncOf (x : ArraySt) (w : Nat) (o : AsyncOp) : AsyncOp :=
  { o with serial := x.serial, evt := if bit w 119 then some (bits w 118 116) else none }

/-- From `s` to `t` ring `r` (Ethernet, or CAN with `k`) writes its descriptor at CONS back: the pieces `ps` (offset and
bytes) stand in it, CONS has advanced by one, and the ring's vector is the last thing to leave (R286, R290). -/
def Consumed (k : Bool) (r : Nat) (ps : List (Nat × List Byte)) (s t : State) : Prop :=
  t.f (rgCons k) r = (s.f (rgCons k) r + 1) % 2 ^ 32
    ∧ t.outbox.head? = some (.instIrq (s.f (rgInst k) r) (s.f (rgVec k) r))
    ∧ t.mem.cells = (s.each ps fun s p =>
        (rtWrite (rgMaster k) s (s.f (rgInst k) r) (s.descAt k r (s.f (rgCons k) r) + p.1) p.2).2).mem.cells

/-- A received frame is admitted: its port is up, its secure association or the lack of one is allowed, and the port belongs
to its VLAN (R288). -/
def State.admits (s : State) (f : EthFrame) : Prop :=
  f.port < 12 ∧ s.ethUp f.port = true ∧ s.macsecRx f.port f.pn = true
    ∧ s.member f.port (s.classOf f.port f.bytes).1 = true

/-- A frame at port `src` has an FDB entry that names port `q` alone (R299). -/
def State.oneWay (s : State) (src q : Nat) (bs : List Byte) : Prop :=
  q ≠ src ∧ s.member q (s.classOf src bs).1 = true
    ∧ ∃ ps d, s.fdb (bs.take 6) (s.classOf src bs).1 = some (ps, d) ∧ ∀ k, k < 16 → (bit ps k = true ↔ k = q)

/-- A frame of a class may leave an external port at once: the port is up, its association has packet numbers left, the frame
fits its MTU, and no frame waits there (R288). -/
def State.portTakes (s : State) (q c len : Nat) : Prop :=
  q < 12 ∧ c < 8 ∧ s.ethUp q = true ∧ s.macsecTx q = true ∧ len ≤ s.ethField q 0 0 2 2 ∧ s.egress q = []

/-- What a frame may change on its way through the switch. -/
def switchParts : List Part := [.macPns, .meters, .cbs, .shapers, .egress] ++ rtParts

/-- The registers that a frame may change on its way through the switch. -/
def switchRegs (r : Reg) (i : Nat) : Prop :=
  rtRegs r i ∨ r = .ethRingdb ∨ r = .ethRingcfg0 ∨ r = .ethHostcfg ∨ r = .wskStat

/-- The time counter as one number, in units of 2^-40 ns (R277). -/
def timeValue (s : State) : Nat := s.clock.ns * 2 ^ 40 + s.clock.frac * 2 ^ 24 + s.clock.sub

/-- A request of a channel lies within what an overloaded Cupola serves: 7 messages or fewer of the channel in the last 10 ms,
and 31 requests or fewer pending beside it (R337). -/
abbrev State.unshed (s : State) (ch : Nat) : Prop :=
  s.mbxTarget ch = 1 → (ch = 0 ∨ (s.mbxRecent ch).length < 8)
    ∧ ((List.range 64).filter fun c => s.fb MBX_DB.REQ c).length < 32

/-- A mailbox request of master `m` on channel `ch` reaches its processor's work: no request is outstanding, the page
carries the message `msg`, its TARGET runs, sheds no load and serves the message, MAJOR is 1 and the sender may send it (R229,
R331, R333, R337). -/
def State.asks (s : State) (m : Master) (ch msg : Nat) : Prop :=
  ch < 64 ∧ s.live ∧ s.chanDenied m ch = false ∧ s.fb MBX_DB.REQ ch = false ∧ s.mbxMsg ch = msg
    ∧ 1 ≤ s.mbxTarget ch ∧ s.mbxTarget ch ≤ 6 ∧ (s.fwp (s.mbxTarget ch)).running = true
    ∧ bits (s.mbxW0 ch) 63 56 = 1 ∧ (msgTarget msg = 0 ∨ msgTarget msg = s.mbxTarget ch)
    ∧ (managerMsg msg = true → ch = 0) ∧ s.entryDenied m ch = false ∧ s.unshed ch

/-- From `s` to `t` the request of channel `ch` is answered: the response header with its status, the payload, DONE set,
REQ clear, and the channel's interrupt raised last (R331). -/
def Answered (ch status : Nat) (payload : List Byte) (s t : State) : Prop :=
  t.fb MBX_DB.DONE ch = true ∧ t.fb MBX_DB.REQ ch = false
    ∧ t.mbxBytes ch 0x800 (16 + payload.length) = toLE 8 (2 ^ 56 + s.mbxTarget ch * 2 ^ 40 + s.mbxMsg ch * 2 ^ 16
        + bits (s.mbxW0 ch) 15 0) ++ toLE 8 (payload.length * 2 ^ 48 + status * 2 ^ 40) ++ payload
    ∧ (ch ≠ 0 → t.outbox.head? = some (.mbxIrq ch))
    ∧ (ch = 0 → s.fb SYS_IRQCFG.EN 0 = true → t.outbox.head? = some (.mgrIrq 16 0))

/-- What an answer of a channel may change. -/
def AnswerOnly (ch : Nat) (s t : State) : Prop := Leaves [.mbx, .outbox, .keptIrqs, .mbxTimes] (oneReg .mbxDb ch) s t

end Sys2Proof.Machine
end

