-- ==== Sys2Proof/Certificates/Slice0/Obligations.lean ====
section
/-! DEFINITION. The statements for the provers, chapter by chapter: what the block's commands do, what they leave
unchanged, where they complete, and the invariants that every step keeps. -/

open Sys2Proof Sys2Proof.Machine

/-- With a command at the front of the queue, a step is that command's meaning on the state with the queue's rest. With no
command waiting the block idles (log entry 1: the model's choice). -/
def Obligations.StepRunsTheFrontCommandOrIdles : Prop :=
  (∀ (s : State) (c : Instr) (rest : List Instr),
      step { s with pending := c :: rest } = exec c { s with pending := rest })
  ∧ (∀ s : State, s.pending = [] → step s = .next s)

/-- Every command completes: no command faults and none is refused. A command that names a unit the device does not have
changes nothing (log entry 2: the model's choice). A queue of commands is worked off in order, one command a step, and
no step stops. -/
def Obligations.CommandsCompleteAndQueuesAreWorkedOff : Prop :=
  (∀ (c : Instr) (s : State), (∃ t, exec c s = .next t) ∧ (c.unitsOk = false → exec c s = .next s))
  ∧ (∀ (k : Nat) (s : State),
      ∃ t, Host.Core.run Sys2Proof.core k s = .next t ∧ t.pending = s.pending.drop k)

/-- Every step keeps the canonical forms of the register file, the memory and the mailbox pages. What has left the device
stays in its record, and the counter of free values never falls. -/
def Obligations.EveryStepKeepsTheFormsAndWhatLeft : Prop :=
  (∀ s t : State, s.tidy = true → step s = .next t → t.tidy = true)
  ∧ (∀ s t : State, step s = .next t → s.outbox <:+ t.outbox ∧ s.freeCtr ≤ t.freeCtr)

/-- R277, R350: reset leaves the time counter at 0, every register at its Reset value and the queue empty, and the state
is tidy. -/
def Obligations.ResetIsTidyWithTheCounterAtZero : Prop :=
  State.reset.tidy = true ∧ State.reset.clock.ns = 0 ∧ State.reset.clock.frac = 0 ∧ State.reset.clock.sub = 0
    ∧ (∀ (r : Reg) (i : Nat), State.reset.r r i = (r.reset i).toNat) ∧ State.reset.pending = []
    ∧ State.reset.f TIME_INC.INC 0 = 0x20000 ∧ State.reset.fb TIME_CTRL.HOLDOVER 0 = true
    ∧ State.reset.fb TIME_CTRL.HOLD_EVT 0 = false ∧ State.reset.f ARR_STATUS.LOGICAL 0 = 0xFF
    ∧ State.reset.f ARR_STATUS.FLASK 0 = 0xF ∧ State.reset.fb SYS_IRQCFG.EN 0 = false
    ∧ State.reset.fb SYS_LOCK.MGR 0 = false

/-- R342, R344: a write that is taken gives every RW field the written value, keeps every RO field, sets a W1S bit and
clears a W1C bit where a 1b is written, in every register map whose write starts nothing else; no other register but
the flags of SYS_REGERR changes. -/
def Obligations.TakenWritesFollowTheFieldTypes : Prop :=
  ∀ (s : State) (m : Master) (addr o : Nat) (h : Half) (v : Word) (r : Reg) (i : Nat),
    addr % 8 = 0 → s.place addr = .reg o → s.locAt o = .reg r i → writesOnly r i = true → s.accepts r i m h v.toNat →
    ∃ t, exec (.registerWrite m addr h v) s = .next t
      ∧ (∀ hi lo, (hi, lo, .rw) ∈ r.fieldsAt i → bits (t.r r i) hi lo = bits (joined h (s.r r i) v.toNat) hi lo)
      ∧ (∀ hi lo, (hi, lo, .ro) ∈ r.fieldsAt i → bits (t.r r i) hi lo = bits (s.r r i) hi lo)
      ∧ (∀ k, (k, k, .w1s) ∈ r.fieldsAt i →
          bits (t.r r i) k k = if bit (halfOf h v.toNat) k then 1 else bits (s.r r i) k k)
      ∧ (∀ k, (k, k, .w1c) ∈ r.fieldsAt i →
          bits (t.r r i) k k = if bit (halfOf h v.toNat) k then 0 else bits (s.r r i) k k)
      ∧ Leaves [.outbox, .keptIrqs] (fun q j => (q = r ∧ j = i) ∨ (q = .sysRegerr ∧ j = 0)) s t

/-- R346, R347, R354, R346, R373: an access that its master may not make does nothing but set DENIED, count and, when no
flag stood, capture itself; a denied read returns zero. A refused write, and a write of a configuration while its EN
is 1b that does not clear it, change no register but the flags of SYS_REGERR. -/
def Obligations.DeniedAndRefusedAccessesAreFlagged : Prop :=
  ((∀ (s : State) (m : Master) (addr o : Nat) (h : Half) (r : Reg) (i : Nat),
      s.live → addr % 8 = 0 → s.place addr = .reg o → s.locAt o = .reg r i →
      s.permits r i m false (s.f DSP_CAMCTX0.PORT i) = false →
      ∃ t, exec (.deniedRead m addr h) s = .next t ∧ t.outbox.head? = some (.readData m 0)
        ∧ t.f SYS_REGERR.DENIED 0 = 1 ∧ t.f SYS_REGERR.COUNT 0 = min (s.f SYS_REGERR.COUNT 0 + 1) 0xFFFF
        ∧ (bits (s.r .sysRegerr 0) 63 61 = 0 → t.f SYS_REGERR.OFFSET 0 = (r.offset i + halfOff h) % 2 ^ 28
            ∧ t.f SYS_REGERR.PART 0 = s.partOf m % 16 ∧ t.fb SYS_REGERR.READ 0 = true)
        ∧ Leaves [.outbox, .keptIrqs] (oneReg .sysRegerr 0) s t)
    ∧ (∀ (s : State) (m : Master) (addr o : Nat) (h : Half) (v : Word) (r : Reg) (i : Nat),
      s.live → addr % 8 = 0 → s.place addr = .reg o → s.locAt o = .reg r i →
      s.permits r i m true (s.camPort r i h v.toNat) = false →
      ∃ t, exec (.registerWrite m addr h v) s = .next t
        ∧ t.f SYS_REGERR.DENIED 0 = 1 ∧ t.f SYS_REGERR.COUNT 0 = min (s.f SYS_REGERR.COUNT 0 + 1) 0xFFFF
        ∧ (bits (s.r .sysRegerr 0) 63 61 = 0 → t.f SYS_REGERR.OFFSET 0 = (r.offset i + halfOff h) % 2 ^ 28
            ∧ t.f SYS_REGERR.PART 0 = s.partOf m % 16 ∧ t.fb SYS_REGERR.READ 0 = false)
        ∧ Leaves [.outbox, .keptIrqs] (oneReg .sysRegerr 0) s t))
  ∧ (∀ (s : State) (m : Master) (addr o : Nat) (h : Half) (v : Word) (r : Reg) (i : Nat),
      s.live → addr % 8 = 0 → s.place addr = .reg o → s.locAt o = .reg r i → r ≠ .sprDb → r ≠ .mbxDb →
      s.permits r i m true (s.camPort r i h v.toNat) = true → s.lockedBy r i = none →
      s.clearsEn r i (s.newValue r i h v.toNat) = none →
      (s.enBusy r i (s.newValue r i h v.toNat) = true
        ∨ s.refuses r i m (s.r r i) (s.newValue r i h v.toNat) (halfOf h v.toNat) = true) →
      ∃ t, exec (.registerWrite m addr h v) s = .next t
        ∧ t.f SYS_REGERR.REFUSED 0 = 1 ∧ t.f SYS_REGERR.COUNT 0 = min (s.f SYS_REGERR.COUNT 0 + 1) 0xFFFF
        ∧ Leaves [.outbox, .keptIrqs] (oneReg .sysRegerr 0) s t)

/-- R373: a write that clears EN clears that bit alone, whatever it carries, and is not flagged. -/
def Obligations.ClearingEnChangesNoOtherField : Prop :=
  ∀ (s : State) (m : Master) (addr o : Nat) (h : Half) (v : Word) (r : Reg) (i : Nat) (x : Fld), addr % 8 = 0 →
    s.place addr = .reg o → s.locAt o = .reg r i → s.clears r i m h v.toNat x →
    ∃ t, exec (.registerWrite m addr h v) s = .next t ∧ t.fb x i = false
      ∧ (∀ hi lo, lo ≤ hi → x.lo < lo ∨ hi < x.lo → bits (t.r r i) hi lo = bits (s.r r i) hi lo)
      ∧ t.r .sysRegerr 0 = s.r .sysRegerr 0

/-- R277: the counter with its fraction and sub-fraction is 0 at reset, and at a TSCLK edge it rises by INC and INC_SUB,
with every carry, and wraps at 2^64 ns; the three keep their widths. -/
def Obligations.TsclkEdgeAddsTheIncrement : Prop :=
  timeValue State.reset = 0
  ∧ ∀ s : State, .tsclk ∉ s.sys.power.lost → s.clock.ns < 2 ^ 64 → s.clock.frac < 2 ^ 16 → s.clock.sub < 2 ^ 24 →
    ∃ t, exec .tsclkEdge s = .next t
      ∧ timeValue t = (timeValue s + s.f TIME_INC.INC 0 * 2 ^ 24 + s.f TIME_INC.INC_SUB 0) % 2 ^ 104
      ∧ t.clock.ns < 2 ^ 64 ∧ t.clock.frac < 2 ^ 16 ∧ t.clock.sub < 2 ^ 24
      ∧ t.clock.latch = s.clock.latch ∧ t.clock.syncNs = s.clock.syncNs ∧ Leaves [.clock] noReg s t

/-- R14, R284, R343: a read of TIME_NOW_NS answers the counter of one edge and loads the fraction of that edge into the
reader's latch alone; a permitted read of any other register answers its value and has no side effect. -/
def Obligations.OnlyTimeReadsHaveASideEffect : Prop :=
  (∀ (s : State) (m : Master), .tsclk ∉ s.sys.power.lost → .fclk ∉ s.sys.power.lost →
    ∃ t, exec (.timeNowNsRead m) s = .next t ∧ t.outbox = .readData m s.clock.ns :: s.outbox
      ∧ (∀ f, (m, f) ∈ t.clock.latch ↔ f = s.clock.frac)
      ∧ (∀ k f, k ≠ m → ((k, f) ∈ t.clock.latch ↔ (k, f) ∈ s.clock.latch))
      ∧ timeValue t = timeValue s ∧ t.clock.syncNs = s.clock.syncNs ∧ Leaves [.clock, .outbox] noReg s t)
  ∧ (∀ (s : State) (m : Master) (addr o : Nat) (h : Half) (r : Reg) (i : Nat), s.live → addr % 8 = 0 →
    s.place addr = .reg o → s.locAt o = .reg r i → s.permits r i m false (s.f DSP_CAMCTX0.PORT i) = true →
    (r ≠ .timeNowNs → ∃ t, exec (.deniedRead m addr h) s = .next t
      ∧ t.outbox = .readData m (halfOf h (s.regRead r i m)) :: s.outbox ∧ Leaves [.outbox] noReg s t)
    ∧ (r = .timeNowNs → ∃ t, exec (.deniedRead m addr h) s = .next t
      ∧ (∀ f, (m, f) ∈ t.clock.latch ↔ f = s.clock.frac)
      ∧ (∀ k f, k ≠ m → ((k, f) ∈ t.clock.latch ↔ (k, f) ∈ s.clock.latch))
      ∧ timeValue t = timeValue s ∧ t.clock.syncNs = s.clock.syncNs ∧ Leaves [.clock, .outbox] noReg s t))

/-- R278, R279, R283: a taken write of TIME_INC sets both increments, clears HOLDOVER and restarts the sync timer; a taken
write of TIME_STEP adds its signed value to the counter and leaves the fraction; while POUR_CTRL.EN is 1b, or from
another master than the servo's, the write is refused and moves nothing. Once SYNC_TIMEOUT_MS has passed since the
last TIME_INC write, holdover is entered once. -/
def Obligations.ServoWritesAndHoldover : Prop :=
  ((∀ (s : State) (m : Master) (v : Word), s.accepts .timeInc 0 m .whole v.toNat →
      ∃ t, exec (.timeIncWrite m v) s = .next t ∧ t.f TIME_INC.INC 0 = bits v.toNat 49 32
        ∧ t.f TIME_INC.INC_SUB 0 = bits v.toNat 23 0 ∧ t.fb TIME_CTRL.HOLDOVER 0 = false
        ∧ t.clock.syncNs = some s.clock.ns ∧ timeValue t = timeValue s
        ∧ Leaves [.clock] (fun r i => (r = .timeInc ∨ r = .timeCtrl) ∧ i = 0) s t)
    ∧ (∀ (s : State) (m : Master) (v : Word), s.accepts .timeStep 0 m .whole v.toNat →
      ∃ t, exec (.timeStepWrite m v) s = .next t
        ∧ (t.clock.ns : Int) = ((s.clock.ns : Int) + sint 64 v.toNat) % 2 ^ 64
        ∧ t.clock.frac = s.clock.frac ∧ t.clock.sub = s.clock.sub ∧ t.clock.syncNs = s.clock.syncNs
        ∧ Leaves [.clock] (oneReg .timeStep 0) s t)
    ∧ (∀ (s : State) (m : Master) (v : Word), s.live → s.isServo m = false →
      (∃ t, exec (.timeIncWrite m v) s = .next t ∧ t.f SYS_REGERR.REFUSED 0 = 1
        ∧ Leaves [.outbox, .keptIrqs] (oneReg .sysRegerr 0) s t)
      ∧ (∃ t, exec (.timeStepWrite m v) s = .next t ∧ t.f SYS_REGERR.REFUSED 0 = 1
        ∧ Leaves [.outbox, .keptIrqs] (oneReg .sysRegerr 0) s t))
    ∧ (∀ (s : State) (m : Master) (v : Word), s.live → s.fb POUR_CTRL.EN 0 = true →
      ∃ t, exec (.timeStepWrite m v) s = .next t ∧ t.f SYS_REGERR.REFUSED 0 = 1
        ∧ Leaves [.outbox, .keptIrqs] (oneReg .sysRegerr 0) s t))
  ∧ ((∀ s : State, s.syncLost = true → s.fb TIME_CTRL.HOLDOVER 0 = false →
      ∃ t, exec .holdover s = .next t ∧ t.fb TIME_CTRL.HOLDOVER 0 = true ∧ t.fb TIME_CTRL.HOLD_EVT 0 = true
        ∧ t.f TIME_CTRL.HOLD_EVENTS 0 = min (s.f TIME_CTRL.HOLD_EVENTS 0 + 1) TIME_CTRL.HOLD_EVENTS.top
        ∧ Leaves [] (oneReg .timeCtrl 0) s t)
    ∧ (∀ s : State, s.syncLost = false ∨ s.fb TIME_CTRL.HOLDOVER 0 = true → exec .holdover s = .next s))

/-- R282: arming sets ARM; a compare whose TARGET is reached sets FIRED, pulses its pin and interrupts, and disarms
without a period, or moves TARGET by the least number of periods that puts it ahead and counts those skipped. -/
def Obligations.CompareUnitsFireAndReload : Prop :=
  (∀ (s : State) (m : Master) (n : Nat) (v : Word), n < 8 → s.accepts .timeCmp1 n m .whole (withBit v 63) →
    ∃ t, exec (.compareArm m n v) s = .next t ∧ t.fb TIME_CMP1.ARM n = true
      ∧ t.f TIME_CMP1.WIDTH n = bits (withBit v 63) 60 48 ∧ t.f TIME_CMP1.PERIOD n = bits (withBit v 63) 31 0
      ∧ Leaves [] (oneReg .timeCmp1 n) s t)
  ∧ (∀ (s : State) (n : Nat), n < 8 → s.fb TIME_CMP1.ARM n = true →
    reached s.clock.ns (s.f TIME_CMP0.TARGET n) = true →
    ∃ t, exec (.compareFire n) s = .next t ∧ t.fb TIME_CMP1.FIRED n = true
      ∧ (s.fb TIME_CMP1.PIN_EN n = true → .timeOut n (s.f TIME_CMP1.WIDTH n) ∈ t.outbox)
      ∧ (s.fb SYS_IRQCFG.EN 0 = true → .mgrIrq (8 + n) n ∈ t.outbox)
      ∧ (s.f TIME_CMP1.PERIOD n = 0 → t.fb TIME_CMP1.ARM n = false ∧ t.f TIME_CMP0.TARGET n = s.f TIME_CMP0.TARGET n)
      ∧ (s.f TIME_CMP1.PERIOD n ≠ 0 → ∃ k, 1 ≤ k ∧ t.fb TIME_CMP1.ARM n = true
          ∧ t.f TIME_CMP0.TARGET n = (s.f TIME_CMP0.TARGET n + k * s.f TIME_CMP1.PERIOD n) % 2 ^ 64
          ∧ t.f TIME_CMP1.SKIPPED n = min (s.f TIME_CMP1.SKIPPED n + (k - 1)) TIME_CMP1.SKIPPED.top
          ∧ (k - 1) * s.f TIME_CMP1.PERIOD n ≤ (s.clock.ns + 2 ^ 64 - s.f TIME_CMP0.TARGET n) % 2 ^ 64
          ∧ (s.clock.ns + 2 ^ 64 - s.f TIME_CMP0.TARGET n) % 2 ^ 64 < k * s.f TIME_CMP1.PERIOD n)
      ∧ Leaves [.outbox, .keptIrqs] (fun r i => (r = .timeCmp0 ∨ r = .timeCmp1) ∧ i = n) s t)
  ∧ (∀ (s : State) (n : Nat), n < 8 →
    (s.fb TIME_CMP1.ARM n = false ∨ reached s.clock.ns (s.f TIME_CMP0.TARGET n) = false) →
    exec (.compareFire n) s = .next s)

/-- R15, R154, R155, R156: a lost clock, the loss of SCLK, a supply outside its band and a temperature above its limit set
their cause, latch SAFE_FLT_N where the cause is of the FLT class, and tell the Cupola; a fall of a supply counts as a
droop event. -/
def Obligations.MonitorsRaiseTheirSafetyCause : Prop :=
  (∀ (s : State) (d : Domain), d ∉ s.sys.power.lost →
    ∃ t, exec (.clockLossDetected d) s = .next t ∧ t.sys.power.lost = d :: s.sys.power.lost
      ∧ t.f SYS_SAFESTAT.CLK_LOST 0 = 1 ∧ t.sys.power.safeFlt = true ∧ .cupolaIrq SYS_SAFESTAT.CLK_LOST.lo ∈ t.outbox
      ∧ ((∀ x ∈ s.work.jobs, x.phase = .running → isAttn x.opcode = false) →
          Leaves [.outbox, .freeCtr, .power, .safePins, .record, .keptIrqs, .jobs, .snoops, .homeQ, .bridge]
            (oneReg .sysSafestat 0) s t))
  ∧ (∀ s : State, ∃ t, exec .sclkLossDetected s = .next t ∧ t.sys.power.sclkLost = true
      ∧ t.f SYS_SAFESTAT.SCLK_LOST 0 = 1 ∧ t.sys.power.safeFlt = true ∧ .cupolaIrq SYS_SAFESTAT.SCLK_LOST.lo ∈ t.outbox
      ∧ Leaves [.outbox, .freeCtr, .power, .safePins, .record, .keptIrqs] (oneReg .sysSafestat 0) s t)
  ∧ (∀ (s : State) (rail pct : Nat), rail < 8 → ∃ t, exec (.voltageFault rail pct) s = .next t
      ∧ t.f SYS_SAFESTAT.VOLT 0 = 1 ∧ t.sys.power.safeFlt = true ∧ .cupolaIrq SYS_SAFESTAT.VOLT.lo ∈ t.outbox
      ∧ (98 ≤ pct → t.sys.record.droop = s.sys.record.droop)
      ∧ (pct < 98 → t.sys.record.droop = satAdd32 s.sys.record.droop (16 * rail + min 15 (97 - pct)) 1)
      ∧ Leaves [.outbox, .freeCtr, .safePins, .record, .keptIrqs] (oneReg .sysSafestat 0) s t)
  ∧ (∀ (s : State) (k : Nat) (c : Int), k < 32 → 125 < c → ∃ t, exec (.temperatureEvent k c) s = .next t
      ∧ t.f SYS_SAFESTAT.TEMP_HIGH 0 = 1
      ∧ (130 < c → t.f SYS_SAFESTAT.TEMP_TRIP 0 = 1 ∧ t.sys.power.safeFlt = true)
      ∧ Leaves [.outbox, .freeCtr, .safePins, .record, .keptIrqs] (oneReg .sysSafestat 0) s t)
  ∧ (∀ (s : State) (k : Nat) (c : Int), k < 32 → c ≤ 125 → exec (.temperatureEvent k c) s = .next s)

/-- R21 to R23: a forwarded trajectory is released to the gateway's stage-7 gate times, from t0 + 54.6 ms, once its
completion has returned, and discarded and counted at t0 + 54.55 ms otherwise; the completion of the forwarding write
counts when it arrives by then. A trajectory that waits when no path is left is released. A shadow that has received
none by t0 + 54.5 ms gives its own to the gateway for its backup window, from t0 + 56.0 ms to t0 + 57.0 ms. -/
def Obligations.TrajectoriesAreReleasedOrDiscardedInTime : Prop :=
  (∀ (s : State) (fr : Nat), s.net.traj.waiting = some fr → s.net.traj.returned = true →
    ∃ t, exec .trajectoryRelease s = .next t ∧ t.net.traj = { s.net.traj with waiting := none, released := true }
      ∧ t.outbox = .trajectory (s.f WSK_ID.DEV_ID 0) fr (s.frameT0 fr + 54600000) (s.frameT0 fr + 55500000) :: s.outbox
      ∧ (∀ r, r ∈ t.net.bridge ↔ r ∈ s.net.bridge ∧ r.forward = false) ∧ Leaves [.traj, .outbox, .bridge] noReg s t)
  ∧ (∀ s : State, (s.net.traj.waiting = none ∨ s.net.traj.returned = false) → exec .trajectoryRelease s = .next s)
  ∧ (∀ (s : State) (fr : Nat), s.net.traj.waiting = some fr →
    (reached s.now (s.frameT0 fr + 54550001) = false → s.forwardDone.net.traj = { s.net.traj with returned := true })
      ∧ (reached s.now (s.frameT0 fr + 54550001) = true → s.forwardDone = s) ∧ Leaves [.traj] noReg s s.forwardDone)
  ∧ (∀ (s : State) (fr : Nat), s.net.traj.waiting = some fr →
    (s.upPorts = [] → s.partnerLost.net.traj = { s.net.traj with waiting := none, released := true }
        ∧ s.partnerLost.outbox
            = .trajectory (s.f WSK_ID.DEV_ID 0) fr (s.frameT0 fr + 54600000) (s.frameT0 fr + 55500000) :: s.outbox)
      ∧ (s.upPorts ≠ [] → s.partnerLost = s))
  ∧ (∀ (s : State) (fr : Nat), s.net.traj.waiting = some fr → reached s.now (s.frameT0 fr + 54550000) = true →
    s.net.traj.returned = false →
    ∃ t, exec .activeCutoff s = .next t ∧ t.net.traj = { s.net.traj with
        waiting := none, discards := s.net.traj.discards + 1 }
      ∧ (∀ r, r ∈ t.net.bridge ↔ r ∈ s.net.bridge ∧ r.forward = false) ∧ Leaves [.traj, .bridge] noReg s t)
  ∧ (∀ s : State, (s.net.traj.returned = true
      ∨ ∀ fr, s.net.traj.waiting = some fr → reached s.now (s.frameT0 fr + 54550000) = false) →
    exec .activeCutoff s = .next s)
  ∧ (∀ (s : State) (fr : Nat), s.net.traj.own = some fr → reached s.now (s.frameT0 fr + 54500000) = true →
    s.net.traj.received ≠ some fr →
    ∃ t, exec .shadowCutoff s = .next t ∧ t.net.traj = { s.net.traj with own := none }
      ∧ t.outbox = .trajectory (s.f WSK_ID.DEV_ID 0) fr (s.frameT0 fr + 56000000) (s.frameT0 fr + 57000000) :: s.outbox
      ∧ Leaves [.traj, .outbox] noReg s t)
  ∧ (∀ (s : State) (fr : Nat), s.net.traj.own = some fr → s.net.traj.received = some fr →
    exec .shadowCutoff s = .next s)

/-- R30: a doorbell of an enabled queue whose PROD lies ahead of the last one and within the ring advances the queue and
sets its pending bit; one that repeats the last PROD sets the bit alone; any other is stale and counted; CPL_CONS is
taken unless it lies too far behind, and a disabled queue or one in error ignores the write. A quiesced queue judges and
counts the write in the same way and keeps its PROD_IDX alone (log entry 116: the model's reading). -/
def Obligations.DoorbellsAdvanceTheRing : Prop :=
  ∀ (s : State) (m : Master) (q : Nat) (v : Word), q < 16384 → s.live → s.pageOk (instOf q) m = true →
    (s.f SYS_INST.STATE (instOf q) = 0 ∨ s.fb SPR_QCFG.EN q = false ∨ s.f SPR_QSTAT.STATE q = 3 →
      exec (.doorbellWrite m q .whole v) s = .next s)
    ∧ (s.f SYS_INST.STATE (instOf q) ≠ 0 → s.fb SPR_QCFG.EN q = true → s.f SPR_QSTAT.STATE q ≠ 3 →
        s.f SPR_QSTAT.STATE q ≠ 4 →
      ∃ t, exec (.doorbellWrite m q .whole v) s = .next t
        ∧ (let prod := bits v.toNat 31 0
           let d := dist32 prod (s.f SPR_QSTAT.CONS_IDX q)
           let adv := 1 ≤ d ∧ d ≤ s.subSize q ∧ dist32 (s.f SPR_DB.PROD_IDX q) (s.f SPR_QSTAT.CONS_IDX q) < d
           let late := s.cplSize q < dist32 (s.q q).nextCpl (bits v.toNat 63 32)
           (adv → t.f SPR_DB.PROD_IDX q = prod) ∧ (¬ adv → t.f SPR_DB.PROD_IDX q = s.f SPR_DB.PROD_IDX q)
           ∧ (adv ∨ prod = s.f SPR_DB.PROD_IDX q → t.queuePending q)
           ∧ (¬ (adv ∨ prod = s.f SPR_DB.PROD_IDX q) → t.work.sprue = s.work.sprue)
           ∧ (¬ late → t.f SPR_DB.CPL_CONS q = bits v.toNat 63 32)
           ∧ (late → t.f SPR_DB.CPL_CONS q = s.f SPR_DB.CPL_CONS q)
           ∧ t.f SPR_QSTAT.STALE_DB q
               = (if (¬ adv ∧ prod ≠ s.f SPR_DB.PROD_IDX q) ∨ late then min (s.f SPR_QSTAT.STALE_DB q + 1) 0xFFFF
                  else s.f SPR_QSTAT.STALE_DB q))
        ∧ t.f SPR_QSTAT.CONS_IDX q = s.f SPR_QSTAT.CONS_IDX q
        ∧ Leaves [.sprue] (fun r i => (r = .sprDb ∨ r = .sprQstat) ∧ i = q) s t)
    ∧ (s.f SYS_INST.STATE (instOf q) ≠ 0 → s.fb SPR_QCFG.EN q = true → s.f SPR_QSTAT.STATE q = 4 →
      ∃ t, exec (.doorbellWrite m q .whole v) s = .next t
        ∧ (let prod := bits v.toNat 31 0
           let d := dist32 prod (s.f SPR_QSTAT.CONS_IDX q)
           let adv := 1 ≤ d ∧ d ≤ s.subSize q ∧ dist32 (s.f SPR_DB.PROD_IDX q) (s.f SPR_QSTAT.CONS_IDX q) < d
           let late := s.cplSize q < dist32 (s.q q).nextCpl (bits v.toNat 63 32)
           (adv → t.f SPR_DB.PROD_IDX q = prod) ∧ (¬ adv → t.f SPR_DB.PROD_IDX q = s.f SPR_DB.PROD_IDX q)
           ∧ t.f SPR_QSTAT.STALE_DB q
               = (if (¬ adv ∧ prod ≠ s.f SPR_DB.PROD_IDX q) ∨ late then min (s.f SPR_QSTAT.STALE_DB q + 1) 0xFFFF
                  else s.f SPR_QSTAT.STALE_DB q))
        ∧ t.f SPR_DB.CPL_CONS q = s.f SPR_DB.CPL_CONS q ∧ t.f SPR_QSTAT.STATE q = 4
        ∧ Leaves [] (fun r i => (r = .sprDb ∨ r = .sprQstat) ∧ i = q) s t)

/-- R44, R224, R373: setting EN gives the queue its indices: without VALID its ring stands empty at PROD and the
completion ring at 0, with VALID the restored ones, and VALID clears; restored indices that do not lie within the rings
put the queue in the error state (log entry 26: the model's choice). Clearing EN keeps the configuration and takes
the queue out of the sprue; a queue in the error state stays there until EN is set again. -/
def Obligations.EnablingAQueueSetsItsIndices : Prop :=
  (∀ (s : State) (m : Master) (q : Nat) (v : Word), q < 16384 →
    s.accepts .sprQcfg q m .whole (withBit v 63) → s.fb SPR_QRESTORE1.VALID q = false →
    ∃ t, exec (.queueEnable m q v) s = .next t ∧ t.fb SPR_QCFG.EN q = true
      ∧ t.f SPR_QCFG.SUB_LOG2 q = bits v.toNat 59 56 ∧ t.f SPR_QCFG.CPL_LOG2 q = bits v.toNat 55 52
      ∧ t.f SPR_QSTAT.CONS_IDX q = s.f SPR_DB.PROD_IDX q ∧ t.f SPR_DB.PROD_IDX q = s.f SPR_DB.PROD_IDX q
      ∧ t.f SPR_DB.CPL_CONS q = 0 ∧ (t.q q).nextCpl = 0 ∧ t.f SPR_QSTAT.ERR_CODE q = 0
      ∧ (s.f SYS_INST.STATE (instOf q) = 2 ∨ s.f SYS_INST.STATE (instOf q) = 3 → t.f SPR_QSTAT.STATE q = 4)
      ∧ (s.f SYS_INST.STATE (instOf q) = 1 → s.queueJobs q = [] → ¬ s.queuePending q → q ∉ s.work.sprue.ready →
          t.f SPR_QSTAT.STATE q = 0)
      ∧ Leaves [.queues] (fun r i => (r = .sprQcfg ∨ r = .sprQstat ∨ r = .sprDb) ∧ i = q) s t)
  ∧ (∀ (s : State) (m : Master) (q : Nat) (v : Word), q < 16384 →
    s.accepts .sprQcfg q m .whole (withBit v 63) → s.fb SPR_QRESTORE1.VALID q = true →
    dist32 (s.f SPR_QRESTORE0.PROD_IDX q) (s.f SPR_QRESTORE0.CONS_IDX q) ≤ 2 ^ (bits v.toNat 59 56 + 6) →
    dist32 (s.f SPR_QRESTORE1.CPL_PROD q) (s.f SPR_QRESTORE2.CPL_CONS q) ≤ 2 ^ (bits v.toNat 55 52 + 6) →
    ∃ t, exec (.queueEnable m q v) s = .next t ∧ t.fb SPR_QCFG.EN q = true ∧ t.fb SPR_QRESTORE1.VALID q = false
      ∧ t.f SPR_QSTAT.CONS_IDX q = s.f SPR_QRESTORE0.CONS_IDX q ∧ t.f SPR_DB.PROD_IDX q = s.f SPR_QRESTORE0.PROD_IDX q
      ∧ t.f SPR_DB.CPL_CONS q = s.f SPR_QRESTORE2.CPL_CONS q ∧ (t.q q).nextCpl = s.f SPR_QRESTORE1.CPL_PROD q
      ∧ (s.f SPR_QRESTORE0.PROD_IDX q ≠ s.f SPR_QRESTORE0.CONS_IDX q → s.f SYS_INST.STATE (instOf q) = 1 →
          t.queuePending q)
      ∧ Leaves [.queues, .sprue]
          (fun r i => (r = .sprQcfg ∨ r = .sprQstat ∨ r = .sprDb ∨ r = .sprQrestore1) ∧ i = q) s t)
  ∧ (∀ (s : State) (m : Master) (q : Nat) (v : Word), q < 16384 →
    s.accepts .sprQcfg q m .whole (withBit v 63) → s.fb SPR_QRESTORE1.VALID q = true →
    2 ^ (bits v.toNat 59 56 + 6) < dist32 (s.f SPR_QRESTORE0.PROD_IDX q) (s.f SPR_QRESTORE0.CONS_IDX q) →
    ∃ t, exec (.queueEnable m q v) s = .next t ∧ t.fb SPR_QCFG.EN q = true ∧ t.fb SPR_QRESTORE1.VALID q = false
      ∧ t.f SPR_QSTAT.STATE q = 3 ∧ t.f SPR_QSTAT.ERR_CODE q = stMalformed ∧ ¬ t.queuePending q)
  ∧ (∀ (s : State) (m : Master) (q : Nat) (v : Word), q < 16384 →
    s.clears .sprQcfg q m .whole (withoutBit v 63) SPR_QCFG.EN →
    ∃ t, exec (.queueDisable m q v) s = .next t ∧ t.fb SPR_QCFG.EN q = false
      ∧ (s.f SPR_QSTAT.STATE q = 3 ∨ s.f SPR_QSTAT.STATE q = 4 → t.f SPR_QSTAT.STATE q = s.f SPR_QSTAT.STATE q)
      ∧ (s.f SPR_QSTAT.STATE q ≠ 3 → s.f SPR_QSTAT.STATE q ≠ 4 → s.queueJobs q = [] → t.f SPR_QSTAT.STATE q = 0)
      ∧ t.f SPR_QSTAT.ERR_CODE q = s.f SPR_QSTAT.ERR_CODE q
      ∧ ¬ t.queuePending q ∧ q ∉ t.work.sprue.ready ∧ bits (t.r .sprQcfg q) 62 0 = bits (s.r .sprQcfg q) 62 0
      ∧ Leaves [.sprue] (fun r i => (r = .sprQcfg ∨ r = .sprQstat) ∧ i = q) s t)

/-- R38, R31, R35, R44: a round is a copy of the pending bitmap: queues of timed flasks stand first, in ascending order of
flask and queue, and each served queue leaves the round for its dispatcher's ready set. The dispatcher copies the
descriptor at CONS_IDX of a ready queue and advances CONS_IDX; a job whose descriptor does not pass ends MALFORMED,
and a descriptor that cannot be read puts the queue in the error state. -/
def Obligations.RoundsServeQueuesAndFetchDescriptors : Prop :=
  ((∀ (s : State) (k : Nat), ∃ t, exec (.scannerRound k) s = .next t
        ∧ (let r := if s.work.sprue.round = [] then s.roundOrder s.work.sprue.turn s.work.sprue.pending
                    else s.work.sprue.round
           t.work.sprue.round = r.drop k ∧ (∀ q, q ∈ t.work.sprue.ready ↔ q ∈ s.work.sprue.ready ∨ q ∈ r.take k))
        ∧ (s.work.sprue.round = [] → t.work.sprue.pending = [])
        ∧ (s.work.sprue.round ≠ [] → t.work.sprue.pending = s.work.sprue.pending)
        ∧ Leaves [.sprue] (fun r _ => r = .sprQstat) s t)
    ∧ (∀ (s : State) (turn : Nat) (qs : List Nat), (∀ q, q ∈ s.roundOrder turn qs ↔ q ∈ qs)
        ∧ (s.roundOrder turn qs).Pairwise (fun a b => s.timedQueue b = true →
            s.timedQueue a = true ∧ (s.queueFlask a < s.queueFlask b ∨ s.queueFlask a = s.queueFlask b ∧ a ≤ b ∨ 16384 ≤ b))))
  ∧ ((∀ (s s1 : State) (q : Nat) (bs : List Byte), q < 16384 → q ∈ s.work.sprue.ready → s.queueLive q = true →
      s.f SPR_DB.PROD_IDX q ≠ s.f SPR_QSTAT.CONS_IDX q →
      instRead s (instOf q) (s.f SPR_QSUB_BASE.BASE q * 128 + 128 * (s.f SPR_QSTAT.CONS_IDX q % s.subSize q)) 128
        = (.ok bs, s1) →
      ∃ t y, exec (.jobFetch q) s = .next t ∧ t.f SPR_QSTAT.CONS_IDX q = (s.f SPR_QSTAT.CONS_IDX q + 1) % 2 ^ 32
        ∧ t.work.jobs = s.work.jobs ++ [y] ∧ t.work.nextJob = s.work.nextJob + 1 ∧ y.id = s.work.nextJob ∧ y.queue = q
        ∧ y.ringIdx = s.f SPR_QSTAT.CONS_IDX q ∧ y.desc = words64 16 bs
        ∧ (y.phase = .waiting ∨ y.phase = .ended) ∧ y.slot = false ∧ t.f SPR_QSTAT.STATE q = 2
        ∧ (y.seqno ≠ s.f SPR_QSTAT.CONS_IDX q → y.phase = .ended ∧ y.status = stMalformed)
        ∧ (bits (y.w 8) 47 32 ≠ 0 ∨ bits y.flags 15 5 ≠ 0 → y.phase = .ended ∧ y.status = stMalformed)
        ∧ Leaves (.jobs :: .nextJob :: .cams :: accessParts)
            (fun r i => accessRegs r i ∨ r = .dspCamstat ∨ (r = .sprQstat ∧ i = q)) s t)
    ∧ (∀ (s s1 : State) (q : Nat) (e : MRes), q < 16384 → q ∈ s.work.sprue.ready → s.queueLive q = true →
      s.f SPR_DB.PROD_IDX q ≠ s.f SPR_QSTAT.CONS_IDX q → e.good = false →
      instRead s (instOf q) (s.f SPR_QSUB_BASE.BASE q * 128 + 128 * (s.f SPR_QSTAT.CONS_IDX q % s.subSize q)) 128
        = (e, s1) →
      ∃ t, exec (.jobFetch q) s = .next t ∧ t.f SPR_QSTAT.STATE q = 3 ∧ t.f SPR_QSTAT.ERR_CODE q = e.status
        ∧ t.f SPR_QSTAT.CONS_IDX q = s.f SPR_QSTAT.CONS_IDX q ∧ ¬ t.queuePending q ∧ q ∉ t.work.sprue.ready
        ∧ Leaves (.sprue :: accessParts) (fun r i => accessRegs r i ∨ (r = .sprQstat ∧ i = q)) s t)
    ∧ (∀ (s : State) (q : Nat), q < 16384 → q ∉ s.work.sprue.ready → exec (.jobFetch q) s = .next s))

/-- R32, R34, R42, R43, R34, R37, R64, R182: a waiting job whose fence and wait allow it starts with a completion slot;
past its DEADLINE it ends EXPIRED, and without a free slot it goes on waiting. Where a stage of a timed flask starts, the
completion record of the stage before it may mark it STALE (log entry 156: a free value). A NOP or a FENCE job ends OK with no
other effect; a TENSOR job of a flask that the pour table does not time puts its tiles into the flask's queue once; a
fault ends a running job with JOB_FAULT at its tile. -/
def Obligations.JobsStartRunAndEnd : Prop :=
  ((∀ (s : State) (j : Nat) (x : Job), s.job j = some x → s.startable x = true → s.expired x = false →
      s.fenceOk x = true → x.waitEn = false → s.classLost x.opcode = false →
      (s.slotFree x.queue = true → ∃ t b, exec (.jobStart j) s = .next t ∧ b ≤ 1
        ∧ (s.timed (s.jobFlask x) = false ∨ x.opcode = 0 ∨ 3 < x.opcode → b = 0 ∧ t.freeCtr = s.freeCtr)
        ∧ JobTo j { x with phase := .running, slot := true, cflags := Nat.lor x.cflags b } s t
        ∧ (t.q x.queue).reserved = (s.q x.queue).reserved + 1 ∧ (t.q x.queue).nextCpl = (s.q x.queue).nextCpl
        ∧ (∀ k, k ≠ x.queue → t.q k = s.q k) ∧ Leaves [.jobs, .queues, .freeCtr] noReg s t)
      ∧ (s.slotFree x.queue = false → exec (.jobStart j) s = .next s))
    ∧ (∀ (s s1 : State) (j : Nat) (x : Job) (bs : List Byte), s.job j = some x → s.startable x = true →
      s.expired x = false → s.fenceOk x = true → x.waitEn = true →
      instRead s x.inst x.waitAddr 8 = (.ok bs, s1) →
      (reached (leNat bs) x.waitValue = false → exec (.jobStart j) s = .next s1)
      ∧ (reached (leNat bs) x.waitValue = true → s.classLost x.opcode = false → s.slotFree x.queue = true →
        ∃ t b, exec (.jobStart j) s = .next t ∧ b ≤ 1
          ∧ (s.timed (s.jobFlask x) = false ∨ x.opcode = 0 ∨ 3 < x.opcode → b = 0)
          ∧ JobTo j { x with phase := .running, slot := true, cflags := Nat.lor x.cflags b } s t
          ∧ Leaves (.jobs :: .queues :: accessParts) accessRegs s t))
    ∧ (∀ (s : State) (j : Nat) (x : Job), s.job j = some x → s.startable x = true → s.expired x = false →
      s.fenceOk x = false → exec (.jobStart j) s = .next s)
    ∧ (∀ (s : State) (j : Nat) (x : Job), s.job j = some x → x.phase = .waiting → s.expired x = true →
      (∃ t, exec (.jobExpire j) s = .next t ∧ JobTo j (x.over stExpired none) s t ∧ Leaves [.jobs] noReg s t)
      ∧ (s.startable x = true →
        ∃ t, exec (.jobStart j) s = .next t ∧ JobTo j (x.over stExpired none) s t ∧ Leaves [.jobs] noReg s t)))
  ∧ ((∀ (s : State) (j : Nat) (x : Job), s.runs j 0 x →
      ∃ t, exec (.nopJob j) s = .next t ∧ JobTo j (x.over stOk none) s t ∧ Leaves [.jobs] noReg s t)
    ∧ (∀ (s : State) (j : Nat) (x : Job), s.runs j 11 x →
      ∃ t, exec (.fenceJob j) s = .next t ∧ JobTo j (x.over stOk none) s t ∧ Leaves [.jobs] noReg s t)
    ∧ (∀ (s : State) (j : Nat) (x : Job), s.runs j 1 x → s.timed (s.jobFlask x) = false → x.issued = 0 →
      ∃ t, exec (.tensor j) s = .next t ∧ JobTo j { x with issued := x.tiles.length } s t
        ∧ (∀ k < x.tiles.length, ∃ q ∈ (t.flask (s.jobFlask x)).tiles, q.job = j ∧ q.tile = k)
        ∧ (∀ q ∈ (s.flask (s.jobFlask x)).tiles, q ∈ (t.flask (s.jobFlask x)).tiles)
        ∧ (∀ f, f ≠ s.jobFlask x → t.flask f = s.flask f) ∧ Leaves [.jobs, .flasks] noReg s t)
    ∧ (∀ (s : State) (j tile : Nat) (x : Job), s.job j = some x → x.phase = .running →
      ∃ t, exec (.jobFault j tile) s = .next t ∧ t.job j = some (x.over stJobFault (some tile))
        ∧ (∀ q ∈ (t.flask (s.jobFlask x)).tiles, q.job ≠ j)
        ∧ (x.opcode ≠ 4 → x.opcode ≠ 5 →
            Leaves [.jobs, .flasks, .arrays, .freeCtr] (fun r _ => r = .arrProg ∨ r = .arrStatus ∨ r = .arrPerf) s t))
    ∧ (∀ (s : State) (j tile : Nat) (x : Job), s.job j = some x → x.phase ≠ .running →
      exec (.nopJob j) s = .next s ∧ exec (.fenceJob j) s = .next s ∧ exec (.tensor j) s = .next s
        ∧ exec (.jobFault j tile) s = .next s))

/-- R33, R36, R42, R44: a job whose work has ended, and no write of which is outstanding, completes: its 32-byte record is
written at the next completion index of its queue, after its outputs have become undefined by an error and its counter
is signalled; it interrupts where the job asks for it and frees its slot. A record that cannot be written puts the queue
in the error state. -/
def Obligations.CompletionsAreRecordedInTheRing : Prop :=
  (∀ (s : State) (j : Nat) (x : Job), s.job j = some x → x.phase = .ended →
    (x.slot = true ∨ s.slotFree x.queue = true) → s.jobQuiet j = true →
    let d := ((s.spoilOutputs x).signalJob x).jobDetail x
    let w := instWrite d.2 x.inst
      (s.f SPR_QCPL_BASE.BASE x.queue * 32 + 32 * ((s.q x.queue).nextCpl % s.cplSize x.queue))
      (cplRecord x (cplPhase (s.q x.queue).nextCpl (s.cplSize x.queue)) s.now d.1)
    ∃ t, exec (.jobComplete j) s = .next t ∧ t.job j = none ∧ (∀ k, k ≠ j → t.job k = s.job k)
      ∧ (t.q x.queue).reserved = (if x.slot then (s.q x.queue).reserved - 1 else (s.q x.queue).reserved)
      ∧ t.mem.cells = w.2.mem.cells
      ∧ (w.1.good = true → (t.q x.queue).nextCpl = ((s.q x.queue).nextCpl + 1) % 2 ^ 32
          ∧ (x.irq = true → t.outbox.head? = some (.instIrq x.inst (s.f SPR_QCFG.IRQ_VEC x.queue)))
          ∧ Leaves (.jobs :: .queues :: accessParts)
              (fun r i => accessRegs r i ∨ (r = .sprQstat ∧ i = x.queue)) s t)
      ∧ (w.1.good = false → t.f SPR_QSTAT.STATE x.queue = 3 ∧ t.f SPR_QSTAT.ERR_CODE x.queue = w.1.status
          ∧ (t.q x.queue).nextCpl = (s.q x.queue).nextCpl ∧ ¬ t.queuePending x.queue
          ∧ Leaves (.jobs :: .queues :: .sprue :: accessParts)
              (fun r i => accessRegs r i ∨ (r = .sprQstat ∧ i = x.queue)) s t))
  ∧ (∀ (s : State) (j : Nat) (x : Job), s.job j = some x →
    (x.phase ≠ .ended ∨ (x.slot = false ∧ s.slotFree x.queue = false) ∨ s.jobQuiet j = false) →
    exec (.jobComplete j) s = .next s)
  ∧ (∀ (x : Job) (ph : Bool) (now d : Nat), now < 2 ^ 64 →
    let r := cplRecord x ph now d
    r.length = 32 ∧ bit (leAt r 0 8) 63 = ph ∧ bits (leAt r 0 8) 55 48 = x.status % 256
      ∧ bits (leAt r 0 8) 47 32 = x.cflags % 65536 ∧ bits (leAt r 0 8) 31 0 = x.seqno
      ∧ leAt r 8 8 = x.tag % 2 ^ 64 ∧ leAt r 16 8 = now ∧ bits (leAt r 24 8) 63 32 = d % 2 ^ 32
      ∧ bits (leAt r 24 8) 31 0 = min (cdiv x.arrayNs 1000) (2 ^ 32 - 1))
  ∧ (∀ idx size, 0 < size → cplPhase (idx + size) size = !cplPhase idx size)

/-- R54, R55, R52, R54: NOP goes on to the next command; ACC arms the accumulate mode; POST sets the post path and empties
the scale history; SIG emits the running signature and restarts it; FENCE waits for every asynchronous command. On an
array that runs a tile outside a pair in a flask that the pour table does not time, issue past the program's end, an
unlisted opcode, and a command with a reserved bit set are job faults that set ILLEGAL_CMD. -/
def Obligations.CommandsIssueInOrderOrFault : Prop :=
  ((∀ (s : State) (a w : Nat), s.atIssue a 0x00 111 false w →
      ∃ t, exec (.nop a) s = .next t ∧ OnlyArray a { s.arr a with pc := (s.arr a).pc + 1 } s t
        ∧ t.f ARR_STATUS.PC a = (2048 * s.f ARR_PROG.CUR_HALF a + (s.arr a).pc + 1) % 4096)
    ∧ (∀ (s : State) (a w : Nat), s.atIssue a 0x05 109 false w → bits w 111 110 < 2 →
      ∃ t, exec (.acc a) s = .next t
        ∧ OnlyArray a { s.arr a with armAcc := some (bits w 111 110 == 1), pc := (s.arr a).pc + 1 } s t)
    ∧ (∀ (s : State) (a w q v : Nat) (l : List (Nat × Nat)), s.atIssue a 0x05 109 false w → bits w 111 110 = 2 →
      s.loopsAround a (s.arr a).pc = (q, v) :: l →
      ∃ t, exec (.acc a) s = .next t
        ∧ OnlyArray a { s.arr a with armAcc := some (NMap.get (s.arr a).loops 0 q != 0), pc := (s.arr a).pc + 1 } s t)
    ∧ (∀ (s : State) (a w : Nat), s.atIssue a 0x07 63 false w → bits w 111 108 ≤ 3 → -64 ≤ sint 8 (bits w 94 87) →
      sint 8 (bits w 94 87) ≤ 63 → (bit w 86 = true → bits w 85 64 + 256 ≤ mouldTop) →
      ∃ t, exec (.post a) s = .next t
        ∧ OnlyArray a { s.arr a with
            post := { act := bits w 111 108, slope := bits w 107 104, zc := bit w 103, headroom := bits w 102 99,
                      windowM1 := bits w 98 95, seed := sint 8 (bits w 94 87), biasEn := bit w 86,
                      biasAddr := bits w 85 64 }
            hist := [], pc := (s.arr a).pc + 1 } s t)
    ∧ (∀ (s : State) (a w : Nat), s.atIssue a 0x0A 103 false w →
      ∃ t, exec (.sig a) s = .next t
        ∧ OnlyArray a { s.arr a with
            sigs := (s.arr a).sigs ++ [(bits w 111 104, crc32Final (s.arr a).sigCrc)], sigCrc := 0xFFFFFFFF
            pc := (s.arr a).pc + 1 } s t)
    ∧ (∀ (s : State) (a w : Nat), s.atIssue a 0x0D 111 false w →
      ((s.arr a).async = [] → ∃ t, exec (.fence a) s = .next t
        ∧ OnlyArray a { s.arr a with pc := (s.arr a).pc + 1 } s t)
      ∧ ((s.arr a).async ≠ [] → exec (.fence a) s = .next s)))
  ∧ (∀ (s : State) (a : Nat) (r : RunJob) (x : Job), a < 34 → s.issuing a = true → (s.arr a).job = some r →
      r.role = .single → s.job r.job = some x → x.phase = .running → s.timed (s.jobFlask x) = false →
      (s.f ARR_PROG.CUR_LEN a ≤ (s.arr a).pc ∨ 0xE < bits (s.cmdAt a (s.arr a).pc) 127 120
        ∨ (bits (s.cmdAt a (s.arr a).pc) 127 120 = 0
            ∧ (bit (s.cmdAt a (s.arr a).pc) 119 = true ∨ bits (s.cmdAt a (s.arr a).pc) 115 0 ≠ 0))) →
      ∃ t, exec (.nop a) s = .next t ∧ t.fb ARR_STATUS.ILLEGAL_CMD a = true
        ∧ t.job r.job = some (x.over stJobFault (some r.tile)) ∧ t.f ARR_STATUS.STATE a = 3
        ∧ (∀ q ∈ (t.flask (s.jobFlask x)).tiles, q.job ≠ r.job)
        ∧ Leaves [.jobs, .flasks, .arrays, .freeCtr] (fun g _ => g = .arrProg ∨ g = .arrStatus ∨ g = .arrPerf) s t)

/-- R53, R55, R56: WAITQ takes COUNT from its event counter or holds; LOOP goes back over its body until its count is
reached and then ends its pass; SYNC holds until PARTIES arrays of its job have come to the barrier. -/
def Obligations.ControlCommandsCountAndHold : Prop :=
  (∀ (s : State) (a w : Nat), s.atIssue a 0x09 92 false w → bits w 108 93 ≠ 0 →
    (bits w 108 93 ≤ NMap.get (s.arr a).ev 0 (bits w 111 109) → ∃ t, exec (.waitq a) s = .next t
      ∧ NMap.get (t.arr a).ev 0 (bits w 111 109) = NMap.get (s.arr a).ev 0 (bits w 111 109) - bits w 108 93
      ∧ (∀ k, k ≠ bits w 111 109 → NMap.get (t.arr a).ev 0 k = NMap.get (s.arr a).ev 0 k)
      ∧ (t.arr a).waitFrom = none ∧ (t.arr a).pc = (s.arr a).pc + 1 ∧ Leaves [.arrays] (oneReg .arrStatus a) s t)
    ∧ (NMap.get (s.arr a).ev 0 (bits w 111 109) < bits w 108 93 → ∃ t, exec (.waitq a) s = .next t
      ∧ OnlyArray a { s.arr a with waitFrom := some ((s.arr a).waitFrom.getD s.now) } s t))
  ∧ (∀ (s : State) (a w d : Nat), s.atIssue a 0x0C 19 false w → s.nestDepth a 4 (s.arr a).pc = some d →
    (NMap.get (s.arr a).loops 0 (s.arr a).pc < bits w 111 96 → ∃ t, exec (.loop a) s = .next t
      ∧ (t.arr a).pc = (s.arr a).pc - bits w 95 84
      ∧ NMap.get (t.arr a).loops 0 (s.arr a).pc = NMap.get (s.arr a).loops 0 (s.arr a).pc + 1
      ∧ Leaves [.arrays] (oneReg .arrStatus a) s t)
    ∧ (bits w 111 96 ≤ NMap.get (s.arr a).loops 0 (s.arr a).pc → ∃ t, exec (.loop a) s = .next t
      ∧ (t.arr a).pc = (s.arr a).pc + 1 ∧ NMap.get (t.arr a).loops 0 (s.arr a).pc = 0
      ∧ Leaves [.arrays] (oneReg .arrStatus a) s t))
  ∧ (∀ (s : State) (a w : Nat) (r : RunJob), s.atIssue a 0x0B 99 false w → (s.arr a).job = some r →
    tdRecast r.desc = 0xFF → 2 ≤ bits w 107 100 → bits w 107 100 ≤ s.flaskArrays r.flask →
    (∀ k ∈ s.atBarrier r.flask r.job (bits w 111 108), (s.arr k).sync = some (bits w 111 108, bits w 107 100)) →
    a ∉ s.atBarrier r.flask r.job (bits w 111 108) →
    ((s.atBarrier r.flask r.job (bits w 111 108)).length + 1 < bits w 107 100 →
      ∃ t, exec (.sync a) s = .next t
        ∧ OnlyArray a { s.arr a with sync := some (bits w 111 108, bits w 107 100) } s t)
    ∧ (bits w 107 100 ≤ (s.atBarrier r.flask r.job (bits w 111 108)).length + 1 →
      ∃ t, exec (.sync a) s = .next t
        ∧ (∀ k, k = a ∨ k ∈ s.atBarrier r.flask r.job (bits w 111 108) →
            t.arr k = { s.arr k with sync := none, pc := (s.arr k).pc + 1 })
        ∧ Leaves [.arrays] (fun g _ => g = .arrStatus) s t))

/-- R46, R48, R72, R73: LDW expands its rows and scales into the block that is to become the shadow weights; SWAPW waits
for every LDW issued before it and then marks the swap; LDA arms a stream, which takes the mark and the settings that
wait for it, and a third armed stream holds issue. -/
def Obligations.WeightsAndStreamsAreLoaded : Prop :=
  (∀ (s : State) (a w : Nat), s.atIssue a 0x01 33 true w → (∀ k, (s.arr a).hazard none k = false) →
    (let x := s.arr a
     let fmt := bits w 89 86
     let stride := bits w 71 56
     let rows := bits w 84 78 + 1
     let cols := bits w 77 72 + 1
     let rot := if x.xform then s.f SYS_SAFECFG.ROT 0 else 0
     let scale := fun c => sint 8 (leAt (x.bytes (bits w 55 34) 64) c 1)
     ∀ base : Nat, (base : Int) = (bits w 111 90 : Int) + 64 * s.loopInc a 83 68 →
      fmt ≤ 10 → stride ≠ 0 → bits w 111 90 % 64 = 0 →
      base + rowsEnd fmt stride rows ≤ mouldTop →
      (bit w 85 = true → base + 128 / rowsPerGroup fmt * stride * 64 + 16 * rows ≤ mouldTop) →
      bits w 55 34 + 64 ≤ mouldTop → (∀ c < cols, -64 ≤ scale c ∧ scale c ≤ 63) →
      ∃ t wt, exec (.ldw a) s = .next t
        ∧ (∀ r < rows, ∀ c < cols, NMap.get wt.w 0 (64 * r + (c + rot) % 64)
            = (expand fmt (elemAt fmt (x.bytes (rowAddr fmt base stride r) (rowBytes fmt 64)) c) (scale c)).1)
        ∧ wt.sparse = bit w 85
        ∧ t.arr a = { x with
            async := x.async ++ [x.asyncOf w { serial := 0, kind := .ldw, evt := none, block := some wt }]
            serial := x.serial + 1, pc := x.pc + 1 }
        ∧ (∀ b, b ≠ a → t.arr b = s.arr b)
        ∧ Leaves [.arrays, .freeCtr] (fun g i => (g = .arrStatus ∨ g = .arrNumcnt) ∧ i = a) s t))
  ∧ (∀ (s : State) (a w : Nat), s.atIssue a 0x02 111 false w →
    ((∃ o ∈ (s.arr a).async, o.kind = .ldw) → exec (.swapw a) s = .next s)
    ∧ ((∀ o ∈ (s.arr a).async, o.kind ≠ .ldw) → ∃ t, exec (.swapw a) s = .next t
      ∧ OnlyArray a { s.arr a with armSwap := true, pc := (s.arr a).pc + 1 } s t))
  ∧ (∀ (s : State) (a w : Nat), s.atIssue a 0x03 24 false w → (∀ k, (s.arr a).hazard none k = false) →
    (let x := s.arr a
     let fmt := bits w 89 86
     let m := bits w 82 73 + 1
     let n := if bit w 85 then 256 else 128
     ∀ src : Nat, (src : Int) = (bits w 111 90 : Int) + 64 * s.loopInc a 67 52 →
      fmt ≤ 10 → bits w 72 57 ≠ 0 → bits w 111 90 % 64 = 0 → bits w 34 25 + m ≤ 1024 → bits w 56 35 + m ≤ mouldTop →
      (bit w 84 = false → src + (m - 1) * bits w 72 57 * 64 + rowBytes fmt n ≤ mouldTop) →
      (bit w 84 = true → zcFmt fmt = true ∧ bits w 72 57 = rowUnits fmt n ∧ src ≤ mouldTop) →
      (2 ≤ (x.streams.filter fun t => decide (t.entered < t.m)).length → exec (.lda a) s = .next s)
      ∧ ((x.streams.filter fun t => decide (t.entered < t.m)).length < 2 → bit w 85 = x.nextActive.sparse →
        (∀ k < m, -64 ≤ sint 8 (leAt (x.bytes (bits w 56 35) m) k 1) ∧ sint 8 (leAt (x.bytes (bits w 56 35) m) k 1) ≤ 63) →
        ∃ t st, exec (.lda a) s = .next t
          ∧ t.arr a = { x with streams := x.streams ++ [st], armSwap := false, armAcc := none, pc := x.pc + 1 }
          ∧ (∀ b, b ≠ a → t.arr b = s.arr b) ∧ Leaves [.arrays, .freeCtr] (oneReg .arrStatus a) s t
          ∧ st.src = src ∧ st.fmt = fmt ∧ st.m = m ∧ st.stride = bits w 72 57 ∧ st.sparse = bit w 85 ∧ st.zc = bit w 84
          ∧ st.accRow = bits w 34 25 ∧ st.accumulate = x.armAcc.getD false ∧ st.swap = x.armSwap ∧ st.entered = 0
          ∧ st.rows = [] ∧ (bit w 83 = false → st.follow = none) ∧ st.scaleAddr = bits w 56 35
          ∧ (bit w 84 = false ∨ st.follow = none →
              st.scales = some ((List.range m).map fun k => leAt (x.bytes (bits w 56 35) m) k 1)))))

/-- R45 to R48, R61, R75: SHIFT runs its steps and stalls in STATE 2h on a row that is not ready; the cycles of a stall
are counted. In one step a ready row enters its stream, the first row of a stream that swaps exchanges the two weight
sets, and the sum of row m and column n reaches accumulator row ACC_ROW + m exactly 128 + n + m steps after the stream's
first row, replacing or adding; the products of a step that overflow are counted. -/
def Obligations.ShiftsMoveRowsAndLandSums : Prop :=
  (∀ (s s1 : State) (a w k c : Nat), s.atIssue a 0x04 95 false w → bits w 111 96 ≠ 0 →
    (let n := if (s.arr a).shiftLeft = 0 then bits w 111 96 else (s.arr a).shiftLeft
     (State.runSteps a n (s.countStall a c) = (k, .done, s1) → ∃ t, exec (.shift a c) s = .next t
        ∧ t.arr a = { s1.arr a with shiftLeft := 0, pc := (s.arr a).pc + 1 } ∧ (t.arr a).steps = (s.arr a).steps + n
        ∧ t.f ARR_STATUS.STATE a = (if (s.arr a).testBar.isSome then s.f ARR_STATUS.STATE a else 1)
        ∧ Leaves [.arrays, .freeCtr] (fun g i => (g = .arrStatus ∨ g = .arrNumcnt ∨ g = .arrPerf) ∧ i = a) s t)
     ∧ (State.runSteps a n (s.countStall a c) = (k, .stall, s1) → ∃ t, exec (.shift a c) s = .next t
        ∧ t.arr a = { s1.arr a with shiftLeft := k } ∧ (t.arr a).pc = (s.arr a).pc
        ∧ t.f ARR_STATUS.STATE a = (if (s.arr a).testBar.isSome then s.f ARR_STATUS.STATE a else 2)
        ∧ (t.arr a).steps + k = (s.arr a).steps + n
        ∧ Leaves [.arrays, .freeCtr] (fun g i => (g = .arrStatus ∨ g = .arrNumcnt ∨ g = .arrPerf) ∧ i = a) s t)))
  ∧ (∀ (s : State) (a c : Nat),
      (s.f ARR_STATUS.STATE a = 2 → (s.countStall a c).f ARR_PERF.STALL_CYC a = (s.f ARR_PERF.STALL_CYC a + c) % 2 ^ 32)
      ∧ (s.f ARR_STATUS.STATE a ≠ 2 → s.countStall a c = s))
  ∧ (∀ (s : State) (a i : Nat) (st : Stream), (s.arr a).entering = some (i, st) → (s.arr a).rowReady st = false →
    s.stepArr a = (.stall, s))
  ∧ (∀ (s : State) (a : Nat) (st : Stream) (es : List Nat), (s.arr a).streams = [st] → st.entered < st.m →
    (0 < st.entered → (s.arr a).steps = st.s0 + st.entered) → st.zc = false → st.follow = none → st.scales = some es →
    (s.arr a).async = [] →
    ∃ u t', s.stepArr a = (.done, u) ∧ (u.arr a).streams = [t'] ∧ t'.entered = st.entered + 1
      ∧ t'.s0 = (if st.entered = 0 then (s.arr a).steps else st.s0)
      ∧ t'.rows = ((elems st.fmt (if st.sparse then 256 else 128)
          ((s.arr a).bytes (st.src + st.entered * st.stride * 64) (rowBytes st.fmt (if st.sparse then 256 else 128)))).map
            fun c => if (s.arr a).xform then f32neg (expand st.fmt c (sint 8 (es.getD st.entered 0))).1
              else (expand st.fmt c (sint 8 (es.getD st.entered 0))).1) :: st.rows
      ∧ (st.entered = 0 → st.swap = true → (u.arr a).active = (s.arr a).shadow ∧ (u.arr a).shadow = (s.arr a).active
          ∧ t'.weights = (s.arr a).shadow)
      ∧ (st.entered = 0 → st.swap = false → t'.weights = (s.arr a).active)
      ∧ (st.swap = false ∨ 0 < st.entered →
          (u.arr a).active = (s.arr a).active ∧ (u.arr a).shadow = (s.arr a).shadow)
      ∧ (0 < st.entered → t'.weights = st.weights)
      ∧ (u.arr a).steps = (s.arr a).steps + 1)
  ∧ (∀ (s : State) (a : Nat) (st : Stream), (s.arr a).streams = [st] → st.entered = st.m → 0 < st.m →
    st.s0 + 128 ≤ (s.arr a).steps →
    ∃ u, s.stepArr a = (.done, u)
      ∧ (∀ n < 64, ∀ m < st.m, (s.arr a).steps = st.s0 + 128 + n + m →
          (let sum := columnSum st.weights (st.rows.getD (st.m - 1 - m) []) n
           let key := 64 * (st.accRow + m) + n
           NMap.get (u.arr a).accum 0 key = if st.accumulate then f32add (NMap.get (s.arr a).accum 0 key) sum else sum))
      ∧ (∀ r n, n < 64 → (∀ m < st.m, r = st.accRow + m → (s.arr a).steps ≠ st.s0 + 128 + n + m) →
          NMap.get (u.arr a).accum 0 (64 * r + n) = NMap.get (s.arr a).accum 0 (64 * r + n))
      ∧ u.f ARR_NUMCNT.OVF a = min (s.f ARR_NUMCNT.OVF a
          + ((st.formed (s.arr a).steps).filter fun c => c == .ovf).length) ARR_NUMCNT.OVF.top)

/-- R57, R61, R79 to R81, R132: a DRAIN of one row stores the converted values and the scale byte of its accumulators and
folds them into the signature; an XFER hands its range to a ladle unless it is suppressed, and towards memory folds it
into the final signature. -/
def Obligations.DrainsStoreAndTransfersAreHandedOn : Prop :=
  (∀ (s : State) (a w : Nat), s.atIssue a 0x06 27 true w → (∀ k, (s.arr a).hazard none k = false) → (s.arr a).post.zc = false →
    (let x := s.arr a
     let ofmt := bits w 53 50
     let rows := bits w 79 70 + 1
     let vs := s.drainRow a ((List.range 64).map fun c =>
        if x.post.biasEn then leAt (x.bytes x.post.biasAddr 256) (4 * c) 4 else 0) (bits w 89 80)
     let e := rowScale ofmt x.hist x.post.headroom x.post.seed
     let data := packElems ofmt (vs.map fun v => (convert ofmt (ofF32 v) e).code)
     ∀ dst : Nat, (dst : Int) = (bits w 111 90 : Int) + 64 * s.loopInc a 51 36 →
      ofmt ≤ 11 → bits w 69 54 ≠ 0 → bits w 111 90 % 64 = 0 → bits w 89 80 + rows ≤ 1024 →
      bits w 49 28 + rows ≤ mouldTop → dst + rowsEnd ofmt (bits w 69 54) rows ≤ mouldTop →
      ∃ t, exec (.drain a) s = .next t ∧ (t.arr a).pc = x.pc + 1 ∧ (t.arr a).accum = x.accum
        ∧ (t.arr a).async = x.async ++ [x.asyncOf w
            { serial := 0, kind := .drain, evt := none, rows := drainRanges ofmt dst (bits w 69 54) (bits w 49 28) rows }]
        ∧ (∀ k, (∀ p ∈ drainRanges ofmt dst (bits w 69 54) (bits w 49 28) rows, k < p.1 ∨ p.1 + p.2 ≤ k) →
            NMap.get (t.arr a).mould 0 k = NMap.get x.mould 0 k)
        ∧ (rows = 1 → (bits w 49 28 < dst ∨ dst + rowBytes ofmt 64 ≤ bits w 49 28) →
            (t.arr a).bytes dst (rowBytes ofmt 64) = data
              ∧ (t.arr a).bytes (bits w 49 28) 1 = [BitVec.ofNat 8 (uint 8 e)]
              ∧ (t.arr a).sigCrc = crc32Fold x.sigCrc (data ++ [BitVec.ofNat 8 (uint 8 e)])
              ∧ (t.arr a).hist = histAdd x.hist x.post.windowM1 (rowMag vs))
        ∧ Leaves [.arrays, .jobs, .outbox, .keptIrqs, .freeCtr]
            (fun g i => (g = .arrStatus ∨ g = .arrNumcnt ∨ g = .arrNumstat ∨ g = .arrSatcnt ∨ g = .arrSatwin) ∧ i = a) s t))
  ∧ (∀ (s : State) (a w : Nat) (r : RunJob) (y : Job), s.atIssue a 0x08 17 true w → (s.arr a).job = some r →
    s.job r.job = some y →
    (let x := s.arr a
     let dir := bit w 111
     let len := (bits w 38 23 + 1) * 64
     let off : Int := sint 48 (bits w 108 61) + 64 * s.loopInc a 35 20
     let base := match bits w 110 109 with | 0 => tdAct r.desc | 1 => tdWgt r.desc | _ => tdOut r.desc
     let va := (((base : Int) + off) % (2 ^ 64 : Nat)).toNat
     let sup := match r.role with | .recast => dir | .reexec _ => true | .testBar _ => true | _ => false
     let window := y.opcode = 2 ∧ dir = false ∧ bits w 110 109 = 0
     let scatter := y.opcode = 2 ∧ dir = true ∧ bits w 110 109 = 2
     ∀ maddr : Nat, (maddr : Int) = (bits w 60 39 : Int) + 64 * s.loopInc a 35 20 →
      bits w 110 109 ≠ 3 → bits w 108 61 % 64 = 0 → bits w 60 39 % 64 = 0 → maddr + len ≤ mouldTop →
      (window → winBytes y.conv r.desc = len ∧ 0 ≤ off) → (scatter → scatBytes y.conv r.desc = len ∧ 0 ≤ off) →
      (bits w 22 18 ≠ 0 → off % 4096 = 0 ∧ maddr % 4096 = 0 ∧ len % 4096 = 0
        ∧ s.slotAllows r.flask (bits w 22 18) (if dir then 2 else 0) = true) →
      (8 ≤ (x.async.filter fun o => o.kind == .xfer).length → exec (.xfer a) s = .next s)
      ∧ ((x.async.filter fun o => o.kind == .xfer).length < 8 →
        ∃ t, exec (.xfer a) s = .next t ∧ (t.arr a).pc = x.pc + 1 ∧ (t.arr a).mould = x.mould
        ∧ (t.arr a).async = x.async ++ [x.asyncOf w
            { serial := 0, kind := .xfer, evt := none, lo := maddr, len := if dir || sup then 0 else len, toMem := dir,
              suppressed := sup }]
        ∧ (sup = true → t.mem.moves = s.mem.moves ∧ t.work.jobs = s.work.jobs)
        ∧ (sup = false → ∃ mv, (t.mem.moves.map fun m => { m with ladle := false })
                = (s.mem.moves.map fun m => { m with ladle := false }) ++ [mv]
            ∧ mv.id = s.mem.nextMove ∧ mv.inst = r.inst
            ∧ mv.part = r.flask ∧ mv.toMem = dir ∧ mv.va = va ∧ mv.maddr = maddr ∧ mv.len = len ∧ mv.done = 0
            ∧ mv.key = bits w 22 18 ∧ mv.kind = .pour a x.serial
            ∧ (dir = true → x.async = [] → mv.data = x.bytes maddr len))
        ∧ (dir = true → x.async = [] → ¬ scatter → (t.arr a).outCrc = crc32Fold x.outCrc (x.bytes maddr len))
        ∧ (dir = false → (t.arr a).outCrc = x.outCrc ∧ (t.arr a).fills = (x.serial, maddr, len) :: x.fills)
        ∧ Leaves [.arrays, .jobs, .moves, .nextMove, .freeCtr] (oneReg .arrStatus a) s t)))

/-- R59, R64, R178: a free array takes the first tile of its flask's queue, or of the flask whose slice it serves; the
tile's program is copied into the half that CUR_HALF does not name, and an idle array starts it at once. -/
def Obligations.TilesAreGivenToFreeArraysAndLoaded : Prop :=
  (∀ (s : State) (a : Nat) (q : TileQ) (x : Job), a < 34 → s.arrFree a = true → s.f ARR_STATUS.FLASK a ≠ 15 →
    s.timed (s.f ARR_STATUS.FLASK a) = false →
    s.firstTile (s.f ARR_STATUS.FLASK a) (s.f ARR_STATUS.LOGICAL a) false = some q → s.job q.job = some x →
    ∃ t r, exec (.tileDispatch a) s = .next t ∧ t.arr a = { s.arr a with nextJob := some r }
      ∧ r.job = q.job ∧ r.tile = q.tile ∧ r.desc = x.tiles.getD q.tile [] ∧ r.role = .single ∧ r.inst = x.inst
      ∧ r.flask = s.f ARR_STATUS.FLASK a ∧ r.lent = false
      ∧ (∀ y, y ∈ (t.flask (s.f ARR_STATUS.FLASK a)).tiles
          ↔ y ∈ (s.flask (s.f ARR_STATUS.FLASK a)).tiles ∧ ¬ (y.job = q.job ∧ y.tile = q.tile))
      ∧ (∀ b, b ≠ a → t.arr b = s.arr b) ∧ Leaves [.arrays, .flasks] noReg s t)
  ∧ (∀ (s : State) (a g ns : Nat) (q : TileQ) (x : Job), a < 34 → s.arrFree a = true → s.f ARR_STATUS.FLASK a = 15 →
    (s.arr a).slice = some (g, ns) → s.firstTile g 0xFF true = some q → s.job q.job = some x →
    ∃ t r, exec (.tileDispatch a) s = .next t ∧ t.arr a = { s.arr a with nextJob := some r }
      ∧ r.job = q.job ∧ r.tile = q.tile ∧ r.flask = g ∧ r.lent = true ∧ Leaves [.arrays, .flasks] noReg s t)
  ∧ (∀ (s : State) (a : Nat), a < 34 → s.arrFree a = false → exec (.tileDispatch a) s = .next s)
  ∧ (∀ (s s1 : State) (a : Nat) (r : RunJob) (bs : List Byte), a < 34 → (s.arr a).nextJob = some r →
    s.fb ARR_PROG.NEXT_VALID a = false → s.arrServing a = true →
    instRead s r.inst (tdProg r.desc) (tdProgLen r.desc) = (.ok bs, s1) → bs.length = tdProgLen r.desc →
    bs.length % 16 = 0 →
    ∃ t, exec (.programLoad a) s = .next t
      ∧ (∀ k < bs.length / 16,
          NMap.get (t.arr a).store 0 (2048 * (1 - s.f ARR_PROG.CUR_HALF a) + k) = leAt bs (16 * k) 16)
      ∧ ((s.f ARR_STATUS.STATE a ≠ 0 ∨ (s.arr a).job ≠ none) → t.fb ARR_PROG.NEXT_VALID a = true
          ∧ t.f ARR_PROG.NEXT_HALF a = 1 - s.f ARR_PROG.CUR_HALF a
          ∧ t.f ARR_PROG.NEXT_LEN a = bs.length / 16 % 4096 ∧ (t.arr a).job = (s.arr a).job)
      ∧ (s.f ARR_STATUS.STATE a = 0 → (s.arr a).job = none → (s.arr a).testBarDue = false →
          t.fb ARR_PROG.NEXT_VALID a = false ∧ t.fb ARR_PROG.CUR_VALID a = true ∧ t.f ARR_PROG.CUR_HALF a = 1 - s.f ARR_PROG.CUR_HALF a
          ∧ t.f ARR_PROG.CUR_LEN a = bs.length / 16 % 4096 ∧ t.f ARR_STATUS.STATE a = 1
          ∧ (t.arr a).job = some { r with startNs := s.now } ∧ (t.arr a).pc = 0 ∧ (t.arr a).nextJob = none)
      ∧ (∀ b, b ≠ a → t.arr b = s.arr b)
      ∧ Leaves (.arrays :: accessParts) (fun g i => accessRegs g i ∨ ((g = .arrProg ∨ g = .arrStatus) ∧ i = a)) s t)
  ∧ (∀ (s s1 : State) (a : Nat) (r : RunJob) (x : Job) (e : MRes), a < 34 → (s.arr a).nextJob = some r →
    s.fb ARR_PROG.NEXT_VALID a = false → s.arrServing a = true → r.role = .single → s.job r.job = some x →
    x.phase = .running → e.good = false → instRead s r.inst (tdProg r.desc) (tdProgLen r.desc) = (e, s1) →
    ∃ t, exec (.programLoad a) s = .next t ∧ t.job r.job = some (x.over e.status (some r.tile)))

/-- R58, R59, R178, R375: END ends the array job once no asynchronous command is outstanding: TILES counts it, the tile is
done, the last tile ends its job OK, and the array takes its NEXT program or is idle; in a pair the array holds with
its signature until the other execution has ended. -/
def Obligations.EndFinishesTheTileAndTakesTheNextProgram : Prop :=
  (∀ (s : State) (a flip w : Nat) (dup : Bool), s.atIssue a 0x0E 111 false w → (s.arr a).async ≠ [] →
    exec (.endProg a flip dup) s = .next s)
  ∧ (∀ (s : State) (a flip w : Nat) (dup : Bool) (r : RunJob) (x : Job), s.atIssue a 0x0E 111 false w →
    (s.arr a).async = [] → (s.arr a).job = some r → r.role = .single → s.job r.job = some x → x.phase = .running →
    s.arrServing a = true → (s.arr a).withdrawDue = none → (s.arr a).testBarDue = false →
    ∃ t y, exec (.endProg a flip dup) s = .next t ∧ t.f ARR_PERF.TILES a = (s.f ARR_PERF.TILES a + 1) % 65536
      ∧ t.job r.job = some y ∧ r.tile ∈ y.doneParts ∧ (∀ k ∈ x.doneParts, k ∈ y.doneParts)
      ∧ y.arrayNs = x.arrayNs + s.since r.startNs
      ∧ (x.tiles.length ≤ (insNat x.doneParts r.tile).length → y.phase = .ended ∧ y.status = stOk)
      ∧ ((insNat x.doneParts r.tile).length < x.tiles.length → y.phase = .running)
      ∧ (s.fb ARR_PROG.NEXT_VALID a = false → t.f ARR_STATUS.STATE a = 0 ∧ t.fb ARR_PROG.CUR_VALID a = false
          ∧ (t.arr a).job = none)
      ∧ (s.fb ARR_PROG.NEXT_VALID a = true → t.f ARR_STATUS.STATE a = 1 ∧ t.fb ARR_PROG.NEXT_VALID a = false
          ∧ t.f ARR_PROG.CUR_HALF a = s.f ARR_PROG.NEXT_HALF a ∧ t.f ARR_PROG.CUR_LEN a = s.f ARR_PROG.NEXT_LEN a
          ∧ (t.arr a).pc = 0 ∧ (t.arr a).nextJob = none)
      ∧ (t.arr a).mould = (s.arr a).mould ∧ (t.arr a).accum = (s.arr a).accum ∧ (t.arr a).active = (s.arr a).active
      ∧ (∀ b, b ≠ a → t.arr b = s.arr b)
      ∧ Leaves [.arrays, .flasks, .jobs]
          (fun g i => (g = .arrProg ∨ g = .arrStatus ∨ g = .arrPerf) ∧ i = a ∨ g = .sysFlshare) s t)
  ∧ (∀ (s : State) (a flip w : Nat) (dup : Bool) (r : RunJob) (p : Pair), s.atIssue a 0x0E 111 false w →
    (s.arr a).async = [] → (s.arr a).job = some r → r.role = .primary ∨ r.role = .recast →
    s.pairOf false a = some p → p.overran = 0 → p.priEnd = none → p.rcEnd = none →
    ∃ t, exec (.endProg a flip dup) s = .next t ∧ (t.arr a).held = true ∧ (t.arr a).job.isSome = true
      ∧ (p.pri = a → t.pairOf false a = some { p with
            priEnd := some s.now, faultP := none
            sigP := some ((s.arr a).sigs, Nat.xor (crc32Final (s.arr a).outCrc) flip) })
      ∧ (p.pri ≠ a → t.pairOf false a = some { p with
            rcEnd := some s.now, faultR := none
            sigR := some ((s.arr a).sigs, Nat.xor (crc32Final (s.arr a).outCrc) flip) })
      ∧ Leaves [.arrays, .flasks, .jobs, .pairs] (fun g i => g = .arrPerf ∧ i = a ∨ g = .sysFlshare) s t)

/-- R48, R53, R61, R62: a completed asynchronous command leaves the array and raises its event counter, the block of a
completed LDW is the array's shadow weights, a command whose data is still to move or to pass does not complete, a counter that would
pass FFFFh is a job fault, and an array job past EST_NS plus WDOG_NS in a flask that is not timed is one too. -/
def Obligations.CompletionsRaiseCountersAndWatchdogsFault : Prop :=
  (∀ (s : State) (a k n : Nat) (o : AsyncOp), a < 34 → (s.arr a).async.find? (fun o => o.serial == k) = some o →
    (s.arr a).mayComplete o = true →
    (∀ e, o.evt = some e → s.f ARR_STATUS.STATE a ≠ 3 → NMap.get (s.arr a).ev 0 e < 0xFFFF) →
    ∃ t, exec (.asyncComplete a k n) s = .next t
      ∧ (∀ y, y ∈ (t.arr a).async ↔ y ∈ (s.arr a).async ∧ y.serial ≠ k)
      ∧ (∀ e, o.evt = some e → s.f ARR_STATUS.STATE a ≠ 3 →
          NMap.get (t.arr a).ev 0 e = NMap.get (s.arr a).ev 0 e + 1)
      ∧ (∀ e, o.evt ≠ some e → NMap.get (t.arr a).ev 0 e = NMap.get (s.arr a).ev 0 e)
      ∧ (s.f ARR_STATUS.STATE a = 2 → t.f ARR_PERF.STALL_CYC a = (s.f ARR_PERF.STALL_CYC a + n) % 2 ^ 32)
      ∧ (t.arr a).shadow = o.block.getD (s.arr a).shadow ∧ (t.arr a).active = (s.arr a).active
      ∧ (t.arr a).mould = (s.arr a).mould ∧ (t.arr a).pc = (s.arr a).pc ∧ (∀ b, b ≠ a → t.arr b = s.arr b)
      ∧ Leaves [.arrays] (oneReg .arrPerf a) s t)
  ∧ (∀ (s : State) (a k n : Nat) (o : AsyncOp), a < 34 → (s.arr a).async.find? (fun o => o.serial == k) = some o →
    (s.arr a).mayComplete o = false → exec (.asyncComplete a k n) s = .next s)
  ∧ (∀ (s : State) (a k n e : Nat) (o : AsyncOp) (r : RunJob) (x : Job), a < 34 →
    (s.arr a).async.find? (fun o => o.serial == k) = some o → (s.arr a).mayComplete o = true → o.evt = some e →
    0xFFFF ≤ NMap.get (s.arr a).ev 0 e → s.f ARR_STATUS.STATE a ≠ 3 → (s.arr a).job = some r → r.role = .single →
    s.job r.job = some x → x.phase = .running →
    ∃ t, exec (.asyncComplete a k n) s = .next t ∧ t.fb ARR_STATUS.EVT_OVF a = true
      ∧ t.job r.job = some (x.over stJobFault (some r.tile)))
  ∧ (∀ (s : State) (a : Nat) (r : RunJob) (x : Job), a < 34 → (s.arr a).job = some r → r.role = .single →
    s.timed r.flask = false → s.issuing a = true → s.job r.job = some x → x.phase = .running →
    reached s.now (r.startNs + tdEst r.desc + s.f ARR_CTRL.WDOG_NS a + 1) = true →
    ∃ t, exec (.tileWatchdog a) s = .next t ∧ t.fb ARR_STATUS.WDOG a = true
      ∧ t.job r.job = some (x.over stJobFault (some r.tile))
      ∧ Leaves [.jobs, .flasks, .arrays, .freeCtr] (fun g _ => g = .arrProg ∨ g = .arrStatus ∨ g = .arrPerf) s t)
  ∧ (∀ (s : State) (a : Nat) (r : RunJob), a < 34 → (s.arr a).job = some r →
    (s.timed r.flask = true ∨ s.issuing a = false 
      ∨ reached s.now (r.startNs + tdEst r.desc + s.f ARR_CTRL.WDOG_NS a + 1) = false) →
    exec (.tileWatchdog a) s = .next s)

/-- R59, R63, R82: a taken write with NEXT_VALID makes the NEXT program valid; ABORT ends the running job ABORTED and puts
the array into STATE 3h, and on an idle array clears at once; the array is idle again when its transfers have
completed, and keeps its program while its pair is still to be decided; a write of ARR_SATCFG restarts the window. -/
def Obligations.ArrayRegistersControlTheArray : Prop :=
  (∀ (s : State) (m : Master) (a : Nat) (v : Word), a < 34 → s.accepts .arrProg a m .whole (withBit v 63) →
    ∃ t, exec (.nextValidSet m a v) s = .next t ∧ t.fb ARR_PROG.NEXT_VALID a = true
      ∧ t.f ARR_PROG.NEXT_HALF a = bits v.toNat 62 62 ∧ t.f ARR_PROG.NEXT_LEN a = bits v.toNat 61 50
      ∧ bits (t.r .arrProg a) 49 0 = bits (s.r .arrProg a) 49 0 ∧ Leaves [] (oneReg .arrProg a) s t)
  ∧ (∀ (s : State) (m : Master) (a : Nat) (v : Word) (r : RunJob) (x : Job), a < 34 →
    s.accepts .arrCtrl a m .whole (withBit v 63) → s.f ARR_STATUS.STATE a ≠ 3 → (s.arr a).job = some r →
    r.role = .single → s.job r.job = some x → x.phase = .running →
    ∃ t, exec (.abort m a v) s = .next t ∧ t.f ARR_STATUS.STATE a = 3 ∧ t.fb ARR_CTRL.ABORT a = true
      ∧ t.job r.job = some (x.over stAborted none) ∧ (∀ q ∈ (t.flask r.flask).tiles, q.job ≠ r.job)
      ∧ (t.arr a).accum = [] ∧ (t.arr a).streams = [] ∧ (∀ b, b ≠ a → t.arr b = s.arr b)
      ∧ Leaves [.arrays, .flasks, .jobs, .freeCtr] (fun g i => (g = .arrCtrl ∨ g = .arrStatus ∨ g = .arrPerf) ∧ i = a) s t)
  ∧ (∀ (s : State) (m : Master) (a : Nat) (v : Word), a < 34 → s.accepts .arrCtrl a m .whole (withBit v 63) →
    s.f ARR_STATUS.STATE a ≠ 3 → (s.arr a).job = none →
    ∃ t, exec (.abort m a v) s = .next t ∧ t.fb ARR_CTRL.ABORT a = false
      ∧ t.f ARR_CTRL.WDOG_NS a = bits v.toNat 31 0 ∧ Leaves [] (oneReg .arrCtrl a) s t)
  ∧ (∀ (s : State) (a : Nat), a < 34 → s.f ARR_STATUS.STATE a = 3 → (∀ o ∈ (s.arr a).async, o.finished = true) →
    s.f ARR_STATUS.FLASK a ≠ 15 → (s.arr a).withdrawDue = none → (s.arr a).testBarDue = false →
    s.fb ARR_PROG.NEXT_VALID a = false → s.pairOf false a = none →
    ∃ t, exec (.abortComplete a) s = .next t ∧ t.fb ARR_CTRL.ABORT a = false ∧ t.f ARR_STATUS.STATE a = 0
      ∧ t.fb ARR_PROG.CUR_VALID a = false ∧ (t.arr a).job = none ∧ (t.arr a).async = []
      ∧ (∀ b, b ≠ a → t.arr b = s.arr b)
      ∧ Leaves [.arrays, .flasks, .jobs]
          (fun g i => (g = .arrCtrl ∨ g = .arrProg ∨ g = .arrStatus) ∧ i = a ∨ g = .sysFlshare) s t)
  ∧ (∀ (s : State) (a : Nat) (p : Pair), a < 34 → s.f ARR_STATUS.STATE a = 3 →
    (∀ o ∈ (s.arr a).async, o.finished = true) → s.pairOf false a = some p → p.phase ≠ .reexec →
    ∃ t, exec (.abortComplete a) s = .next t ∧ t.fb ARR_CTRL.ABORT a = false ∧ t.f ARR_STATUS.STATE a = 0
      ∧ (t.arr a).held = true ∧ (t.arr a).job.isSome = (s.arr a).job.isSome
      ∧ t.fb ARR_PROG.CUR_VALID a = s.fb ARR_PROG.CUR_VALID a ∧ t.f ARR_PROG.CUR_HALF a = s.f ARR_PROG.CUR_HALF a)
  ∧ (∀ (s : State) (a : Nat), a < 34 → (s.f ARR_STATUS.STATE a ≠ 3 ∨ ∃ o ∈ (s.arr a).async, o.finished = false) →
    exec (.abortComplete a) s = .next s)
  ∧ (∀ (s : State) (m : Master) (a : Nat) (v : Word), a < 34 → s.accepts .arrSatcfg a m .whole v.toNat →
    ∃ t, exec (.arrSatcfgWrite m a v) s = .next t ∧ t.fb ARR_SATCFG.EN a = bit v.toNat 63
      ∧ t.f ARR_SATCFG.WIN_LOG2 a = bits v.toNat 60 56 ∧ t.f ARR_SATCFG.THRESH a = bits v.toNat 31 16
      ∧ t.r .arrSatwin a = 0 ∧ Leaves [] (fun g i => (g = .arrSatcfg ∨ g = .arrSatwin) ∧ i = a) s t)

/-- R64, R97, R99, R103, R105: a CONV job in the tap form puts its tiles into the queue of a flask that the pour table
does not time. R91, R102 to R105: on the vector path the output rows of a grouped convolution, a pooling and an
expansion are dealt to the flask's engines; a row that ends is written and done, with SATURATED when a value saturated,
the last row ends the job OK, and a failed access ends it with its status. A pass row of a pixel in padding is zero codes with scale byte 00h; average pooling divides the sum by the
window, or by the positions inside the image; the largest value of a maximum pooling is one of the window's values,
none of them exceeds it, and a NaN gives NaN. -/
def Obligations.ConvJobsRunByTheirOperator : Prop :=
  ((∀ (s : State) (j : Nat) (x : Job), s.runs j 2 x → isTap x.conv = true → s.timed (s.jobFlask x) = false →
      x.issued = 0 →
      ∃ t, exec (.convTap j) s = .next t ∧ JobTo j { x with issued := x.tiles.length } s t
        ∧ (∀ k < x.tiles.length, ∃ q ∈ (t.flask (s.jobFlask x)).tiles, q.job = j ∧ q.tile = k)
        ∧ (∀ q ∈ (s.flask (s.jobFlask x)).tiles, q ∈ (t.flask (s.jobFlask x)).tiles) ∧ Leaves [.jobs, .flasks] noReg s t)
    ∧ (∀ (s : State) (j : Nat) (x : Job) (c : Instr), s.runs j 2 x → isTap x.conv = false →
      s.timed (s.jobFlask x) = false →
      (c = .convGrouped j ∧ cvOp x.conv = 0 ∨ c = .maxPool j ∧ cvOp x.conv = 1
        ∨ c = .averagePool j ∧ (cvOp x.conv = 2 ∨ cvOp x.conv = 3) ∨ c = .expand j ∧ cvOp x.conv = 4) →
      (∀ e, (s.engines (s.jobFlask x)).find? s.engFree = some e → s.nextWork (s.jobFlask x) = some x →
        ∃ t y, exec c s = .next t
          ∧ (t.vec e).item = some { job := j, item := x.issued, startNs := s.now, kind := 3 }
          ∧ t.f VEC_STATUS.STATE e = 1 ∧ t.job j = some y ∧ x.issued < y.issued
          ∧ Leaves [.jobs, .vecs, .freeCtr] (fun r _ => r = .vecStatus) s t)
      ∧ ((s.engines (s.jobFlask x)).find? s.engFree = none → exec c s = .next s))
    ∧ (∀ (s s1 : State) (e flip : Nat) (dup sat : Bool) (i : VItem) (x : Job), e < 16 → (s.vec e).item = some i →
      i.kind = 3 → s.pairOf true e = none → s.job i.job = some x → x.phase = .running → x.opcode = 2 →
      (s.vec e).testBarDue = false → convItem x i.item s = (.ok sat, s1) →
      ∃ t y, exec (.itemEnd e [] (.ecall 0) flip dup) s = .next t ∧ t.job i.job = some y
        ∧ t.mem.cells = s1.mem.cells ∧ y.doneParts = insNat x.doneParts i.item
        ∧ y.cflags = (if sat then Nat.lor x.cflags 4 else x.cflags)
        ∧ (convRows x ≤ (insNat x.doneParts i.item).length → y.phase = .ended ∧ y.status = stOk)
        ∧ ((insNat x.doneParts i.item).length < convRows x → y.phase = .running))
    ∧ (∀ (s s1 : State) (e flip st : Nat) (dup : Bool) (i : VItem) (x : Job), e < 16 → (s.vec e).item = some i →
      i.kind = 3 → s.pairOf true e = none → s.job i.job = some x → x.phase = .running → x.opcode = 2 →
      convItem x i.item s = (.error st, s1) →
      ∃ t y, exec (.itemEnd e [] (.ecall 0) flip dup) s = .next t ∧ t.job i.job = some y ∧ y.phase = .ended
        ∧ y.status = st))
  ∧ ((∀ (r : ConvRec) (i p n : Nat) (y x : Int) (s : State), cvInside r y x = false →
      passRow r i p n y x s = (.ok (List.replicate (cvPassC r) 0, 0), s))
    ∧ (∀ (r : ConvRec) (i n oy ox c : Nat) (s s1 : State) (ws : List (Option Nat)),
      poolWindow r i n oy ox c s = (.ok ws, s1) →
      (cvOp r = 2 → pooledElem r i n oy ox c s
          = (.ok (f32divNat (ofF32 (f32sum (ws.map fun o => o.getD 0))) (cvKH r * cvKW r)), s1))
      ∧ (cvOp r = 3 → (∃ v, some v ∈ ws) → pooledElem r i n oy ox c s
          = (.ok (f32divNat (ofF32 (f32sum (ws.filterMap id))) (ws.filterMap id).length), s1))
      ∧ (cvOp r = 1 → (∃ v, some v ∈ ws) → pooledElem r i n oy ox c s = (.ok (poolMax (ws.filterMap id)), s1)))
    ∧ (∀ vs : List Nat, vs ≠ [] →
      ((∃ v ∈ vs, ofF32 v = .nan) → poolMax vs = nan32)
      ∧ ((∀ v ∈ vs, ofF32 v ≠ .nan) → poolMax vs ∈ vs ∧ ∀ v ∈ vs, fvLt true (ofF32 (poolMax vs)) (ofF32 v) = false)))

/-- R116, R128, R117 to R119: an admission takes the lowest free slot of its flask's slice, or the least recently used
idle context once that is spilled, and describes its sequence there; with no room it ends SEQ_TABLE_FULL; an id that
is not free, or that a spill record holds, is MALFORMED; a spread admission, with or without FORK, takes a context and
its frames and asks every other device, or ends for want of them, and the last answer ends it. A re-admission takes its context from a valid spill record, a fork shares the pages of its parent's
prefix and counts a reference to each frame, and a release gives up the sequence's mappings, frames and context; a
release of a busy sequence waits. -/
def Obligations.SequencesAreAdmittedRestoredAndReleased : Prop :=
  ((∀ (s s1 : State) (j : Nat) (x : Job), s.runs j 6 x → bit (x.inl 0) 6 = false → bit (x.inl 0) 5 = false →
      x.await = 0 → s.idFree x.inst (bits (x.inl 0) 63 32) = true → x.inl 5 = 0 →
      readSpill x.inst (bits (x.inl 0) 63 32) s = (.ok none, s1) →
      (∀ k, s.room x.inst (bit (x.inl 0) 7) = .slot k → ∃ t, exec (.seqAdmit j) s = .next t
        ∧ JobTo j (x.over stOk (some 0xFFFFFFFF)) s t ∧ t.ctx k = s.admitCtx x ∧ (∀ n, n ≠ k → t.ctx n = s.ctx n)
        ∧ t.work.refc = s.work.refc
        ∧ Leaves (.jobs :: .ctxs :: accessParts) (fun r i => accessRegs r i ∨ (r = .attIstat ∧ i = x.inst)) s t)
      ∧ (∀ v s2, s.room x.inst (bit (x.inl 0) 7) = .spill v → spillCtx x.inst v s1 = (.ok (), s2) →
        ∃ t, exec (.seqAdmit j) s = .next t ∧ JobTo j (x.over stOk (some v.2.seqId)) s t ∧ t.ctx v.1 = s.admitCtx x
          ∧ (∀ n, n ≠ v.1 → t.ctx n = s.ctx n) ∧ t.work.refc = s.work.refc
          ∧ t.f ATT_ISPILLED.SPILLED x.inst = (s.f ATT_ISPILLED.SPILLED x.inst + 1) % 2 ^ 32)
      ∧ (s.room x.inst (bit (x.inl 0) 7) = .full → ∃ t, exec (.seqAdmit j) s = .next t
        ∧ JobTo j (x.over stSeqTableFull (some (bits (x.inl 0) 63 32))) s t ∧ t.work.ctxs = s.work.ctxs))
    ∧ (∀ (s s1 : State) (j : Nat) (x : Job) (c : Ctx), s.runs j 6 x → bit (x.inl 0) 6 = false → bit (x.inl 0) 5 = false →
      x.await = 0 → s.idFree x.inst (bits (x.inl 0) 63 32) = true → x.inl 5 = 0 →
      readSpill x.inst (bits (x.inl 0) 63 32) s = (.ok (some c), s1) →
      ∃ t, exec (.seqAdmit j) s = .next t ∧ JobTo j (x.over stMalformed (some 0)) s t ∧ t.work.ctxs = s.work.ctxs)
    ∧ (∀ (s : State) (j : Nat) (x : Job), s.runs j 6 x → bit (x.inl 0) 6 = false → bit (x.inl 0) 5 = false →
      x.await = 0 → s.idFree x.inst (bits (x.inl 0) 63 32) = false →
      ∃ t, exec (.seqAdmit j) s = .next t ∧ JobTo j (x.over stMalformed (some 0)) s t ∧ Leaves [.jobs] noReg s t)
    ∧ (∀ (s s1 : State) (j : Nat) (x : Job) (bs : List Byte) (cmd : Instr) (c : Ctx) (fork : Option (Nat × Nat)),
      s.runs j 6 x → x.await = 0 → bit (x.inl 0) 6 = false → s.idFree x.inst (bits (x.inl 0) 63 32) = true →
      x.inl 5 ≠ 0 →
      (cmd = .seqAdmit j ∧ bit (x.inl 0) 5 = false ∧ fork = none ∧ c = s.admitCtx x
        ∨ cmd = .seqFork j ∧ bit (x.inl 0) 5 = true ∧ fork = some (bits (x.inl 4) 63 32, bits (x.inl 4) 31 0)
          ∧ c = { s.admitCtx x with len := bits (x.inl 4) 31 0 } ∧ bits (x.inl 4) 31 0 ≤ c.maxTokens
          ∧ ∃ k, s.seqSlot x.inst (bits (x.inl 4) 63 32) = some k ∧ (s.ctx k).state = 1 ∧ (s.ctx k).layers = c.layers
              ∧ (s.ctx k).kvHeads = c.kvHeads ∧ (s.ctx k).dCode = c.dCode ∧ bits (x.inl 4) 31 0 ≤ (s.ctx k).len) →
      instRead s x.inst (x.inl 5) 64 = (.ok bs, s1) → s.spreadBad bs = false →
      (s.spreadAnswer c (leAt bs 0 8) 0 fork = 1 → ∃ t, exec cmd s = .next t
        ∧ JobTo j (x.over stSeqTableFull (some (bits (x.inl 0) 63 32))) s t ∧ t.work.ctxs = s.work.ctxs)
      ∧ (s.spreadAnswer c (leAt bs 0 8) 0 fork = 2 → ∃ t, exec cmd s = .next t
        ∧ JobTo j (x.over stKvDeferred (some (bits (x.inl 0) 63 32))) s t ∧ t.work.ctxs = s.work.ctxs)
      ∧ (s.spreadAnswer c (leAt bs 0 8) 0 fork = 0 → (∀ p ∈ spreadPeers bs 0, (s.wskRoute p.2.1).isSome = true) →
        ∃ t, exec cmd s = .next t
          ∧ JobTo j { x with await := (spreadPeers bs 0).length, answer := 0 } s t
          ∧ (fork = none → ∀ k, s.room x.inst false = .slot k →
              t.ctx k = { c with resv := deviceFrames (leAt bs 0 8) c 0 } ∧ ∀ n, n ≠ k → t.ctx n = s.ctx n)
          ∧ (∀ p ∈ spreadPeers bs 0, ∀ q, s.wskRoute p.2.1 = some q → ∃ y ∈ (t.wport q).localQ, y.dest = p.2.1
              ∧ y.body = .spread (.admission p.1 j (({ c with inst := p.2.2 } : Ctx).record 1 0) bs fork))))
    ∧ (∀ (s : State) (j code : Nat) (x : Job), s.job j = some x → x.phase = .running → x.opcode = 6 → 0 < x.await →
      (1 < x.await → (s.takeAnswer j code).job j
          = some { x with await := x.await - 1, answer := worseAnswer x.answer code })
      ∧ (x.await = 1 → worseAnswer x.answer code = 0 → ∃ y, (s.takeAnswer j code).job j = some y ∧ y.phase = .ended
          ∧ y.status = stOk ∧ (s.takeAnswer j code).work.ctxs = s.work.ctxs)
      ∧ (x.await = 1 → worseAnswer x.answer code = 1 → ∃ y, (s.takeAnswer j code).job j = some y ∧ y.phase = .ended
          ∧ y.status = stSeqTableFull ∧ (∀ k, s.seqSlot x.inst (bits (x.inl 0) 63 32) = some k →
              (s.takeAnswer j code).ctx k = {}))))
  ∧ ((∀ (s s1 s2 : State) (j k : Nat) (x : Job) (c : Ctx), s.runs j 6 x → bit (x.inl 0) 6 = true →
      s.idFree x.inst (bits (x.inl 0) 63 32) = true →
      readSpill x.inst (bits (x.inl 0) 63 32) s = (.ok (some c), s1) →
      gCheck x.inst (s.spillAt x.inst (bits (x.inl 0) 63 32)) s1 = (.ok (), s2) →
      s.room x.inst (bit (x.inl 0) 7) = .slot k →
      ∃ t, exec (.seqRestore j) s = .next t ∧ JobTo j (x.over stOk (some 0xFFFFFFFF)) s t
        ∧ t.ctx k = { c with state := 1, prio := bits (x.inl 0) 31 28, inst := x.inst }
        ∧ (∀ n, n ≠ k → t.ctx n = s.ctx n) ∧ t.work.refc = s.work.refc
        ∧ Leaves (.jobs :: .ctxs :: accessParts)
            (fun r i => accessRegs r i ∨ ((r = .attIstat ∨ r = .attIspilled) ∧ i = x.inst)) s t)
    ∧ (∀ (s s1 : State) (j : Nat) (x : Job), s.runs j 6 x → bit (x.inl 0) 6 = true →
      s.idFree x.inst (bits (x.inl 0) 63 32) = true → readSpill x.inst (bits (x.inl 0) 63 32) s = (.ok none, s1) →
      ∃ t, exec (.seqRestore j) s = .next t ∧ JobTo j (x.over stMalformed (some 0)) s t ∧ t.work.ctxs = s.work.ctxs)
    ∧ (∀ (s s1 s2 : State) (j k k' : Nat) (x : Job) (ms : List ((Nat × Nat × Nat) × Nat)) (us : List Unit),
      (let n := bits (x.inl 4) 31 0
       let c := { s.admitCtx x with len := n }
       let p := s.ctx k
       s.runs j 6 x → bit (x.inl 0) 6 = false → bit (x.inl 0) 5 = true → x.await = 0 → x.inl 5 = 0 →
        s.idFree x.inst (bits (x.inl 0) 63 32) = true → s.seqSlot x.inst (bits (x.inl 4) 63 32) = some k →
        p.state = 1 → p.layers = c.layers → p.kvHeads = c.kvHeads → p.dCode = c.dCode → n ≤ p.len → n ≤ c.maxTokens →
        mappedPages x.inst p (p.prefixPages n) s = (.ok ms, s1) →
        readAll (fun q s => gCheck x.inst (c.leafAt (c.pageVa q.1 q.2.1 q.2.2)) s) (c.prefixPages n) s1 = (.ok us, s2) →
        s.room x.inst (bit (x.inl 0) 7) = .slot k' →
        ∃ t, exec (.seqFork j) s = .next t ∧ JobTo j (x.over stOk (some 0xFFFFFFFF)) s t
          ∧ t.ctx k' = { c with pages := ms.length } ∧ (∀ n, n ≠ k' → t.ctx n = s.ctx n)
          ∧ ((ms.map fun m => m.2).Nodup → ∀ m ∈ ms, t.refCount x.inst m.2 = min (s.refCount x.inst m.2 + 1) 0xFFFF
              ∨ 0xFFFF < s.refCount x.inst m.2)
          ∧ (∀ f, (∀ m ∈ ms, m.2 ≠ f) → t.refCount x.inst f = s.refCount x.inst f)
          ∧ Leaves (.jobs :: .ctxs :: .refc :: accessParts)
              (fun r i => accessRegs r i ∨ ((r = .attIstat ∨ r = .attIctrl) ∧ i = x.inst)) s t))
    ∧ (∀ (s s1 : State) (j k : Nat) (x : Job) (ms : List ((Nat × Nat × Nat) × Nat)), s.runs j 7 x →
      s.seqSlot x.inst (bits (x.inl 0) 63 32) = some k → (s.ctx k).state ≠ 2 →
      mappedPages x.inst (s.ctx k) (s.ctx k).allPages s = (.ok ms, s1) →
      ∃ t, exec (.seqRelease j) s = .next t ∧ JobTo j (x.over stOk (some 0)) s t ∧ t.ctx k = {}
        ∧ (∀ n, n ≠ k → t.ctx n = s.ctx n)
        ∧ ((ms.map fun m => m.2).Nodup → ∀ m ∈ ms, s.refCount x.inst m.2 ≠ 0xFFFF →
            t.refCount x.inst m.2 = s.refCount x.inst m.2 - 1)
        ∧ (∀ f, (∀ m ∈ ms, m.2 ≠ f) → t.refCount x.inst f = s.refCount x.inst f)
        ∧ Leaves (.jobs :: .ctxs :: .refc :: accessParts)
            (fun r i => accessRegs r i ∨ (r = .attIstat ∧ i = x.inst)) s t)
    ∧ (∀ (s : State) (j k : Nat) (x : Job), s.runs j 7 x → s.seqSlot x.inst (bits (x.inl 0) 63 32) = some k →
      (s.ctx k).state = 2 → exec (.seqRelease j) s = .next s)
    ∧ (∀ (s : State) (j : Nat) (x : Job), s.runs j 7 x → s.seqSlot x.inst (bits (x.inl 0) 63 32) = none →
      s.f ATT_IQUOTA.ID_LIMIT x.inst ≤ bits (x.inl 0) 63 32 →
      ∃ t, exec (.seqRelease j) s = .next t ∧ JobTo j (x.over stMalformed (some 0)) s t ∧ Leaves [.jobs] noReg s t))

/-- R120 to R123: a job that does not belong to an open step or prefill, and is not FIRST, is MALFORMED; a FIRST job whose
checks pass opens its step under the next step number; the jobs that follow compute the run set's rows, and the one
with LAST closes the step, its sequences idle and longer by the new tokens. A job of local sequences ends by its one
command. -/
def Obligations.StepsAndPrefillsOpenRunAndClose : Prop :=
  (∀ (s : State) (j : Nat) (x : Job), (s.runs j 5 x ∨ s.runs j 4 x) → x.await = 0 →
    (∀ p ∈ s.work.ctxs, p.2.inst = x.inst → p.2.spread = false) →
    ∃ t y, exec (if x.opcode = 5 then .attnStep j else .attnPrefill j) s = .next t ∧ t.job j = some y
      ∧ y.phase = .ended ∧ (∀ k, k ≠ j → t.job k = s.job k)
      ∧ Leaves (.jobs :: .ctxs :: .runs :: .refc :: .kvNonFinite :: .kvLimited :: accessParts)
          (fun g i => accessRegs g i ∨ g = .attFslice ∨ ((g = .attIstat ∨ g = .attIcnt) ∧ i = x.inst)) s t)
  ∧ (∀ (s : State) (j : Nat) (x : Job), (s.runs j 5 x ∨ s.runs j 4 x) → 0 < x.await →
    exec (if x.opcode = 5 then .attnStep j else .attnPrefill j) s = .next s)
  ∧ (∀ (s : State) (j : Nat) (x : Job), (s.runs j 5 x ∨ s.runs j 4 x) → x.await = 0 → atFirst x = false →
    ((∃ r, x.opcode = 5 ∧ s.openRun x [] = some r ∧ (r.batch ≠ atBatch x ∨ r.entries ≠ atEntries x))
      ∨ (s.openRun x [] = none ∧ ∀ r ∈ s.work.runs, r.inst = x.inst → r.prefill = true → r.batch ≠ atBatch x)) →
    ∃ t, exec (if x.opcode = 5 then .attnStep j else .attnPrefill j) s = .next t
      ∧ JobTo j (x.over stMalformed (some 0)) s t ∧ Leaves [.jobs] noReg s t)
  ∧ (∀ (s : State) (j : Nat) (x : Job) (r : OpenRun), (s.runs j 5 x ∨ s.runs j 4 x) → x.await = 0 → atFirst x = false →
    s.openRun x [] = some r →
    (x.opcode = 5 ∨ (s.work.runs.filter fun q => q.inst == x.inst && q.prefill && q.batch == atBatch x).length = 1) →
    r.batch = atBatch x → r.entries = atEntries x →
    (∀ p ∈ s.work.ctxs, p.2.inst = x.inst → p.2.spread = false) →
    let w := readAll (runEntry x r) r.run (s.modJob j fun y => { y with runIds := r.ids })
    ∃ t y, exec (if x.opcode = 5 then .attnStep j else .attnPrefill j) s = .next t ∧ t.job j = some y
      ∧ y.phase = .ended ∧ (∀ us, w.1 = .ok us → y.status = stOk) ∧ (∀ e, w.1 = .error e → y.status = e.status)
      ∧ t.mem.cells = w.2.mem.cells
      ∧ (atLast x = false → t.work.ctxs = s.work.ctxs ∧ t.work.runs = s.work.runs)
      ∧ (atLast x = true → (∀ q, q ∈ t.work.runs ↔ q ∈ s.work.runs ∧ q ≠ r)
          ∧ (∀ p id k us, r.run = [(p, id)] → s.seqSlot r.inst id = some k → w.1 = .ok us →
              t.ctx k = { s.ctx k with state := 1, len := (s.ctx k).len + atNtok x })
          ∧ (∀ p id k e, r.run = [(p, id)] → s.seqSlot r.inst id = some k → w.1 = .error e →
              t.ctx k = { s.ctx k with state := 1 })
          ∧ (∀ n, (∀ e ∈ r.run, s.seqSlot r.inst e.2 ≠ some n) → t.ctx n = s.ctx n))
      ∧ t.work.refc = s.work.refc)
  ∧ (∀ (s s1 s2 : State) (j : Nat) (x : Job) (bs : List Byte), s.runs j 5 x → x.await = 0 → s.openRun x [] = none →
    atFirst x = true → atLast x = false → (∀ p ∈ s.work.ctxs, p.2.inst = x.inst → p.2.spread = false) →
    instRead s x.inst (atBatch x) (8 * atEntries x) = (.ok bs, s1) →
    checkAll x (s.classifyAll x (batchEntries bs (atEntries x))) s1 = (.ok (), s2) →
    ∃ t y r, exec (.attnStep j) s = .next t ∧ t.job j = some y ∧ y.phase = .ended
      ∧ t.f ATT_FSLICE.STEP (s.jobFlask x) = (s.f ATT_FSLICE.STEP (s.jobFlask x) + 1) % 2 ^ 32
      ∧ t.work.runs = s.work.runs ++ [r] ∧ r.inst = x.inst ∧ r.prefill = false ∧ r.batch = atBatch x
      ∧ r.entries = atEntries x ∧ r.ntok = atNtok x
      ∧ r.ids = (batchEntries bs (atEntries x)).map fun e => e.id)
  ∧ (∀ (s s1 s2 : State) (j : Nat) (x : Job) (bs : List Byte), s.runs j 4 x → x.await = 0 → atFirst x = true →
    atLast x = false → (∀ p ∈ s.work.ctxs, p.2.inst = x.inst → p.2.spread = false) →
    instRead s x.inst (atBatch x) (8 * atEntries x) = (.ok bs, s1) →
    ((∃ e ∈ batchEntries bs (atEntries x), s.prefillOpen x.inst e.id = true) →
      ∃ t, exec (.attnPrefill j) s = .next t ∧ JobTo j (x.over stMalformed (some 0)) s t ∧ t.work.runs = s.work.runs)
    ∧ ((∀ e ∈ batchEntries bs (atEntries x), s.prefillOpen x.inst e.id = false) →
      checkAll x (s.classifyAll x (batchEntries bs (atEntries x))) s1 = (.ok (), s2) →
      ∃ t y, exec (.attnPrefill j) s = .next t ∧ t.job j = some y ∧ y.phase = .ended
        ∧ (∀ f, t.f ATT_FSLICE.STEP f = s.f ATT_FSLICE.STEP f)
        ∧ (t.work.runs = s.work.runs
            ∨ ∃ r, t.work.runs = s.work.runs ++ [r] ∧ r.inst = x.inst ∧ r.prefill = true ∧ r.batch = atBatch x)))

/-- R113, R130: SWEEP holds the instance's attention jobs until the sweep is done, which leaves the counts of other pools
alone; enabling a pool begins a new epoch; a pool without contexts or spilled sequences can be disabled. -/
def Obligations.PoolsAreEnabledSweptAndDisabled : Prop :=
  (∀ (s : State) (m : Master) (i : Nat) (v : Word), i < 256 → s.accepts .attIctrl i m .whole (withBit v 63) →
    ∃ t, exec (.sweep m i v) s = .next t ∧ i ∈ t.work.sweeping ∧ (∀ k ∈ s.work.sweeping, k ∈ t.work.sweeping)
      ∧ t.fb ATT_ICTRL.SWEEP i = true ∧ t.f ATT_ICTRL.SAT_PINNED i = bits v.toNat 15 0
      ∧ Leaves [.sweeping] (oneReg .attIctrl i) s t)
  ∧ (∀ (s : State) (i : Nat), i < 256 → i ∈ s.work.sweeping →
    ∃ t, exec (.sweepDone i) s = .next t ∧ i ∉ t.work.sweeping ∧ t.fb ATT_ICTRL.SWEEP i = false
      ∧ (∀ k ∈ s.work.sweeping, k ≠ i → k ∈ t.work.sweeping)
      ∧ (∀ k, k < s.f ATT_IFRAMES.RC_BASE i ∨ s.f ATT_IFRAMES.RC_BASE i + s.f ATT_IFRAMES.FRAMES i ≤ k →
          NMap.get t.work.refc 0 k = NMap.get s.work.refc 0 k)
      ∧ Leaves (.refc :: .sweeping :: accessParts)
          (fun r k => accessRegs r k ∨ ((r = .attIctrl ∨ r = .attIspilled ∨ r = .attIstat) ∧ k = i)) s t)
  ∧ (∀ (s : State) (i : Nat), i < 256 → i ∉ s.work.sweeping → exec (.sweepDone i) s = .next s)
  ∧ (∀ (s : State) (m : Master) (i : Nat) (v : Word), i < 256 → s.accepts .attIpool i m .whole (withBit v 0) →
    ∃ t, exec (.poolEnable m i v) s = .next t ∧ t.fb ATT_IPOOL.EN i = true
      ∧ t.f ATT_IPOOL.POOL_BASE i = bits v.toNat 63 16 ∧ t.f ATT_IPOOL.PAGE_CODE i = bits v.toNat 15 14
      ∧ t.f ATT_ISPILLED.EPOCH i = (s.f ATT_ISPILLED.EPOCH i + 1) % 65536
      ∧ t.f ATT_ISPILLED.SPILLED i = s.f ATT_ISPILLED.SPILLED i
      ∧ Leaves [] (fun r k => (r = .attIpool ∨ r = .attIspilled ∨ r = .attIstat) ∧ k = i) s t)
  ∧ (∀ (s : State) (m : Master) (i : Nat) (v : Word), i < 256 →
    s.clears .attIpool i m .whole (withoutBit v 0) ATT_IPOOL.EN →
    ∃ t, exec (.poolDisable m i v) s = .next t ∧ t.fb ATT_IPOOL.EN i = false
      ∧ bits (t.r .attIpool i) 63 14 = bits (s.r .attIpool i) 63 14
      ∧ Leaves [] (fun r k => (r = .attIpool ∨ r = .attIstat) ∧ k = i) s t)
  ∧ (∀ (s : State) (m : Master) (i : Nat) (v : Word), i < 256 → s.live → s.permits .attIpool i m true 0 = true →
    s.lockedBy .attIpool i = none → s.fb ATT_IPOOL.EN i = true →
    (s.f ATT_ISTAT.CTX_USED i ≠ 0 ∨ s.f ATT_ISPILLED.SPILLED i ≠ 0) →
    ∃ t, exec (.poolDisable m i v) s = .next t ∧ t.f SYS_REGERR.REFUSED 0 = 1
      ∧ Leaves [.outbox, .keptIrqs] (oneReg .sysRegerr 0) s t)

/-- R137, R139, R142, R171: an execution of a pair that has not ended 8.0 µs after its start is aborted and its overrun
noted; a re-execution that has not ended 17.0 µs after the later start is aborted, and the outcome is the one of an
aborted re-execution, also where an abort of its unit has kept it from starting; where the comparator copies of the
flask disagree, no outcome is taken. The isolation of a flask ends when its outcome is known and its release copy is written: the lag
rises by the time since the release point in whole microseconds, rounded up; the released job is RECOVERED, the other
one lost. -/
def Obligations.ExecutionsAreAbortedAndIsolationsEnd : Prop :=
  ((∀ (s : State) (a t0 : Nat) (p : Pair), a < 50 → s.pairOf (pairUnit a).1 (pairUnit a).2 = some p →
      s.execStart (pairUnit a).1 (pairUnit a).2 = some t0 → p.phase = .running → p.pri ≠ p.rc → p.openFor p.pri = true →
      p.openFor p.rc = true → reached s.now (t0 + 8000) = true →
      ∃ t, exec (.overrun a) s = .next t
        ∧ t.pairOf (pairUnit a).1 (pairUnit a).2
            = some { p with overran := Nat.lor p.overran (if p.pri = (pairUnit a).2 then 1 else 2) }
        ∧ (a < 34 → t.f ARR_STATUS.STATE a = 3) ∧ (34 ≤ a → (t.vec (a - 34)).item = none)
        ∧ Leaves [.pairs, .arrays, .vecs, .flasks, .jobs, .freeCtr]
            (fun r i => r = .sysFlshare ∨ ((r = .arrStatus ∨ r = .arrPerf) ∧ i = a) ∨ (r = .vecStatus ∧ i + 34 = a)) s t)
    ∧ (∀ (s : State) (a t0 : Nat) (p : Pair), a < 50 → s.pairOf (pairUnit a).1 (pairUnit a).2 = some p →
      s.execStart (pairUnit a).1 (pairUnit a).2 = some t0 →
      (p.phase ≠ .running ∨ p.openFor (pairUnit a).2 = false ∨ reached s.now (t0 + 8000) = false) → exec (.overrun a) s = .next s)
    ∧ (∀ (s : State) (a : Nat) (p : Pair), a < 50 → s.pairOf (pairUnit a).1 (pairUnit a).2 = some p →
      p.phase = .reexec → p.again = (pairUnit a).2 → p.split = false → reached s.now (p.laterStart + 17000) = true →
      (s.flask p.flask).cmpFault = false → p.overran = 0 →
      ∃ t, exec (.isolationDeadline a) s = .next t
        ∧ t.pairOf (pairUnit a).1 (pairUnit a).2 = some { p with outcome := 1, phase := .release }
        ∧ t.fb SYS_SAFESTAT.ISOLATED 0 = true
        ∧ (a < 34 → t.fb ARR_RCSTAT.FAULTY p.rc = true
            ∧ t.f ARR_RCSTAT.ISO_RC p.rc = min (s.f ARR_RCSTAT.ISO_RC p.rc + 1) ARR_RCSTAT.ISO_RC.top
            ∧ (t.arr p.rc).retireDue = some 1)
        ∧ (34 ≤ a → (t.vec (a - 34)).item = none ∧ (t.vec p.rc).withdrawDue = true)
        ∧ (a < 34 → (s.execStart false a).isSome = true → t.f ARR_STATUS.STATE a = 3)
        ∧ Leaves [.arrays, .flasks, .freeCtr, .jobs, .keptIrqs, .outbox, .pairs, .safePins, .record, .vecs]
            (fun r i => r = .sysFlshare ∨ ((r = .arrStatus ∨ r = .arrPerf) ∧ i = a) ∨ (r = .vecStatus ∧ i + 34 = a)
              ∨ (r = .arrRcstat ∧ i = p.rc) ∨ (r = .sysSafestat ∧ i = 0)) s t)
    ∧ (∀ (s : State) (a : Nat) (p : Pair), a < 50 → s.pairOf (pairUnit a).1 (pairUnit a).2 = some p →
      p.phase = .reexec → p.again = (pairUnit a).2 → p.split = false → reached s.now (p.laterStart + 17000) = true →
      (s.flask p.flask).cmpFault = false → p.overran ≠ 0 →
      ∃ t, exec (.isolationDeadline a) s = .next t
        ∧ t.pairOf (pairUnit a).1 (pairUnit a).2 = some { p with outcome := 2, phase := .faultOut }
        ∧ (a < 34 → (s.execStart false a).isSome = true → t.f ARR_STATUS.STATE a = 3)
        ∧ Leaves [.pairs, .arrays, .vecs, .flasks, .jobs, .freeCtr]
            (fun r i => r = .sysFlshare ∨ ((r = .arrStatus ∨ r = .arrPerf) ∧ i = a) ∨ (r = .vecStatus ∧ i + 34 = a)) s t)
    ∧ (∀ (s : State) (a : Nat) (p : Pair), a < 50 → s.pairOf (pairUnit a).1 (pairUnit a).2 = some p →
      p.phase = .reexec → p.again = (pairUnit a).2 → p.split = false → reached s.now (p.laterStart + 17000) = true →
      (s.flask p.flask).cmpFault = true →
      ∃ t, exec (.isolationDeadline a) s = .next t
        ∧ t.pairOf (pairUnit a).1 (pairUnit a).2 = some { p with split := true } ∧ t.fb SYS_SAFESTAT.CMP_DUP 0 = true
        ∧ (t.flask p.flask).cmpFault = false)
    ∧ (∀ (s : State) (a : Nat) (p : Pair), a < 50 → s.pairOf (pairUnit a).1 (pairUnit a).2 = some p →
      (p.phase ≠ .reexec ∨ p.again ≠ (pairUnit a).2 ∨ p.split = true ∨ reached s.now (p.laterStart + 17000) = false) →
      exec (.isolationDeadline a) s = .next s))
  ∧ ((∀ (s : State) (f : Nat) (p : Pair), f < 8 → s.settled f = some p →
      ∃ t, exec (.isolationEnd f) s = .next t
        ∧ t.f POUR_FLAG.LAG f = min (s.f POUR_FLAG.LAG f + cdiv (s.since p.releaseNs) 1000) 4095
        ∧ p ∉ t.units.pairs ∧ (∀ q ∈ s.units.pairs, q ≠ p → q ∈ t.units.pairs) ∧ (t.flask f).isoEndNs = s.now
        ∧ (p.outcome = 1 → ∀ x, s.job p.job = some x → ∃ y, t.job p.job = some y ∧ bit y.cflags 1 = true
            ∧ p.tile ∈ y.doneParts)
        ∧ (p.outcome ≠ 1 → t.fb SYS_SAFESTAT.RECAST_UNRES 0 = true ∧ ∀ x, s.job p.job = some x → x.phase ≠ .ended →
            ∃ y, t.job p.job = some y ∧ y.phase = .ended ∧ y.status = stJobLost ∧ y.detail = some p.tile)
        ∧ (∀ k, k ≠ p.job → SameJob k s t)
        ∧ Leaves [.arrays, .flasks, .freeCtr, .jobs, .keptIrqs, .moves, .nextMove, .outbox, .pairs, .safePins, .record, .vecs]
            (fun r i => (r = .pourFlag ∧ i = f) ∨ r = .sysSafestat ∨ r = .vecStatus ∨ r = .arrStatus ∨ r = .arrProg
              ∨ r = .arrResident ∨ r = .arrSatwin) s t)
    ∧ (∀ (s : State) (f : Nat), f < 8 → s.settled f = none → exec (.isolationEnd f) s = .next s))

/-- R145, R146, R147: a task starts once its input log is copied; the first execution keeps the signature and the count
of the instructions it retired; a second one that gives the same two ends quietly, and one that does not is a mismatch
that both cores' extra test bars follow. A register write and a store fold into the signature, x0 takes nothing; time
reads answer the time of the capture, counters 0, and the log and the data window answer what the task's core holds of
them. -/
def Obligations.RealTimeTasksRunTwiceAndAreCompared : Prop :=
  (∀ (s : State) (c : Nat), c < 8 → (s.rt c).task.isSome = true → (s.rt c).started = false →
    (∀ m ∈ s.mem.moves, m.kind ≠ .inputLog c) →
    ∃ t, exec (.inputLogCopyDone c) s = .next t ∧ t.rt c = { s.rt c with started := true }
      ∧ (∀ k, k ≠ c → t.rt k = s.rt k) ∧ Leaves [.rts] noReg s t)
  ∧ (∀ (s : State) (c : Nat), c < 8 →
    ((s.rt c).task = none ∨ (s.rt c).started = true ∨ ∃ m ∈ s.mem.moves, m.kind = .inputLog c) →
    exec (.inputLogCopyDone c) s = .next s)
  ∧ (∀ (s : State) (c tk i p kind t0 : Nat) (l : FirstRun) (steps : List RtStep), c < 8 → p < 8 → p ≠ c →
    (s.rt c).task = some (tk, i, p, kind, t0) → (s.rt c).started = true → s.firstOf (if kind = 4 then c else p) tk = some l →
    let r := steps.foldl (RtRun.step l) { reg := (s.rt c).reg, data := (s.rt c).data }
    let res := (crc32Final r.sig, r.count)
    (kind = 4 → ∃ t, exec (.rtTaskEnd c steps) s = .next t ∧ s.firstOf c tk = some l
      ∧ t.firstOf c tk = some { l with ended := some res } ∧ (∀ k, k ≠ tk → t.firstOf c k = s.firstOf c k)
      ∧ t.rt c = { s.rt c with task := none, started := false, reg := r.reg, data := r.data, firsts := (t.rt c).firsts }
      ∧ (∀ k, k ≠ c → t.rt k = s.rt k) ∧ Leaves [.rts] noReg s t)
    ∧ (kind ≠ 4 → l.ended = some res → ∃ t, exec (.rtTaskEnd c steps) s = .next t
      ∧ t.rt c = { s.rt c with task := none, started := false, reg := r.reg, data := r.data }
      ∧ t.firstOf p tk = none ∧ (∀ k, k ≠ tk → t.firstOf p k = s.firstOf p k)
      ∧ t.rt p = { s.rt p with firsts := (t.rt p).firsts }
      ∧ (∀ k, k ≠ c → k ≠ p → t.rt k = s.rt k) ∧ Leaves [.rts] noReg s t)
    ∧ (kind ≠ 4 → l.ended ≠ some res → ∃ t, exec (.rtTaskEnd c steps) s = .next t
      ∧ t.fb SYS_SAFESTAT.RT_MISMATCH 0 = true
      ∧ (∀ k, k = c ∨ k = p → (t.rt k).task = none ∧ (t.rt k).started = false ∧ (t.rt k).extra = true)
      ∧ (∀ k, k ≠ c → k ≠ p → t.rt k = s.rt k)
      ∧ (t.flask ((s.rt c).flask.getD 0)).extraBars = (s.flask ((s.rt c).flask.getD 0)).extraBars ++ [.rt c, .rt p]
      ∧ Leaves [.flasks, .freeCtr, .keptIrqs, .outbox, .safePins, .record, .rts] (oneReg .sysSafestat 0) s t))
  ∧ (∀ (s : State) (c tk i p kind t0 : Nat) (steps : List RtStep), c < 8 → (s.rt c).task = some (tk, i, p, kind, t0) →
    (s.rt c).started = true → s.firstOf (if kind = 4 then c else p) tk = none →
    ∃ t, exec (.rtTaskEnd c steps) s = .next t ∧ t.fb SYS_SAFESTAT.RT_MISMATCH 0 = true ∧ (t.rt c).task = none
      ∧ (t.rt c).extra = true ∧ ∀ k, k ≠ c → t.rt k = s.rt k)
  ∧ (∀ (s : State) (c : Nat) (steps : List RtStep), c < 8 → (s.rt c).task = none ∨ (s.rt c).started = false →
    exec (.rtTaskEnd c steps) s = .next s)
  ∧ (∀ (l : FirstRun) (r : RtRun) (d v off n : Nat) (bs : List Byte), 0 < d →
    r.step l (.retire (some (d, v)) none)
      = { r with count := r.count + 1, reg := NMap.set r.reg 0 d (v % 2 ^ 64)
                 sig := crc32Fold r.sig (BitVec.ofNat 8 d :: toLE 8 (v % 2 ^ 64)) }
    ∧ r.step l (.retire (some (0, v)) none) = { r with count := r.count + 1 }
    ∧ (r.step l (.retire none (some (off, bs)))).sig = crc32Fold r.sig (toLE 4 off ++ bs)
    ∧ r.step l (.readTime d) = r.step l (.retire (some (d, l.logTime)) none)
    ∧ r.step l (.readPerf d) = r.step l (.retire (some (d, 0)) none)
    ∧ r.step l (.readLog d off n)
        = r.step l (.retire (some (d, leNat ((List.range n).map fun k => NMap.get l.log 0 (off + k)))) none)
    ∧ r.step l (.readData d off n)
        = r.step l (.retire (some (d, leNat ((List.range n).map fun k => NMap.get r.data 0 (off + k)))) none))

/-- R148 to R152, R349: a test bar that is due starts on a unit at its boundary and waits on a busy one; of arrays only one
runs a test bar at a time. An array's mould range is saved, the image's is loaded, the golden program runs in identity
and in transform, the range is restored, and the verdict compares both runs' signatures with the golden ones of the
frame's pairing. A passed bar returns the unit to its state, a failed one counts, raises TB_FAIL and marks the unit for
withdrawal. The manager lock is set only once the test-bar image has verified; an image that does not verify leaves it
clear and is flagged; a later mismatch stops every test bar. -/
def Obligations.TestBarsRunAndGuardTheManagerLock : Prop :=
  ((∀ (s : State) (a : Nat), a < 34 → s.units.tbStopped = false → s.fb SYS_LOCK.MGR 0 = true → s.arrayBarDue a = true →
      (s.atTile a = true → s.barMay a = true →
        ∃ t, exec (.testBarDue (.array a)) s = .next t ∧ BarBegins a s t)
      ∧ ((s.atTile a && s.barMay a) = false →
        ∃ t, exec (.testBarDue (.array a)) s = .next t ∧ t.arr a = { s.arr a with testBarDue := true }
          ∧ (∀ b, b ≠ a → t.arr b = s.arr b) ∧ Leaves [.arrays] noReg s t))
    ∧ (∀ (s : State) (a b : Nat), a < 34 → b < 34 → s.units.tbStopped = false → s.fb SYS_LOCK.MGR 0 = true →
      (s.arr a).testBarDue = true → (s.arr b).testBarDue = true → s.atTile b = true → s.barMay b = true →
      (∀ k, k < b → ((s.arr k).testBarDue && s.atTile k && s.barMay k) = false) →
      ∃ t, exec (.testBarDue (.array a)) s = .next t ∧ BarBegins b s t)
    ∧ (∀ (s : State) (e : Nat), e < 16 → s.units.tbStopped = false → s.fb SYS_LOCK.MGR 0 = true →
      s.f VEC_STATUS.STATE e = 0 → (s.vec e).item = none → reached s.now ((s.vec e).lastBarNs + s.tbPeriodNs) = true →
      (s.f VEC_STATUS.FLASK e = 15 ∨ s.timed (s.f VEC_STATUS.FLASK e) = false) →
      ∃ t, exec (.testBarDue (.vec e)) s = .next t ∧ t.f VEC_STATUS.STATE e = 4
        ∧ t.vec e = { s.vec e with testBar := true, testBarDue := false } ∧ (∀ k, k ≠ e → t.vec k = s.vec k)
        ∧ Leaves (.vecs :: accessParts) (fun r i => accessRegs r i ∨ (r = .vecStatus ∧ i = e)) s t)
    ∧ (∀ (s : State) (c : Nat), c < 8 → s.units.tbStopped = false → s.fb SYS_LOCK.MGR 0 = true →
      (∀ f, (s.rt c).flask = some f → s.timed f = false) → (s.rt c).withdrawn = false → (s.rt c).task = none →
      reached s.now ((s.rt c).lastBarNs + s.tbPeriodNs) = true →
      ∃ t, exec (.testBarDue (.rt c)) s = .next t ∧ t.rt c = { s.rt c with testBar := true }
        ∧ (∀ k, k ≠ c → t.rt k = s.rt k) ∧ Leaves [.rts] noReg s t)
    ∧ (∀ (s : State) (u : TBUnit), isTBUnit u = true → (s.units.tbStopped = true ∨ s.fb SYS_LOCK.MGR 0 = false) →
      exec (.testBarDue u) s = .next s)
    ∧ (∀ (s : State) (a flip w : Nat) (dup : Bool) (r : RunJob), s.atIssue a 0x0E 111 false w → (s.arr a).async = [] →
      (s.arr a).job = some r → r.bar = true →
      ∃ t, exec (.endProg a flip dup) s = .next t
        ∧ (t.arr a).barRuns
            = (s.arr a).barRuns ++ [some ((s.arr a).sigs, Nat.xor (crc32Final (s.arr a).outCrc) flip)]
        ∧ (r.role = .testBar false → (t.arr a).pc = 0 ∧ (t.arr a).accum = [] ∧ (t.arr a).active = {}
            ∧ (t.arr a).shadow = {} ∧ t.mem.moves = s.mem.moves
            ∧ (t.arr a).job = some { job := barJob a, tile := 0, desc := r.desc, role := .testBar true, startNs := s.now,
                                     flask := s.f ARR_STATUS.FLASK a, inst := 0 })
        ∧ (r.role ≠ .testBar false → (t.arr a).barPhase = .restore ∧ (t.arr a).job = none
            ∧ ∃ mv ∈ t.mem.moves, mv.kind = .barRestore a ∧ mv.toMem = false ∧ mv.va = s.barArea a
                ∧ mv.maddr = barMould ∧ mv.len = barBytes)
        ∧ t.f ARR_PERF.TILES a = s.f ARR_PERF.TILES a ∧ ∀ k, SameJob k s t)
    ∧ (∀ (s : State) (a : Nat) (pass : Bool), a < 34 → (s.arr a).testBar.isSome = true → (s.arr a).barPhase = .over →
      (s.arr a).barSpare = true → s.units.tbStopped = false → (∀ b, b < 34 → (s.arr b).testBarDue = false) →
      ∃ t, exec (.testBarDone (.array a) pass) s = .next t ∧ (t.arr a).testBar = none ∧ (t.arr a).lastBarNs = s.now
        ∧ t.f ARR_STATUS.STATE a = (if (s.barPassed a).1 then 7 else 6)
        ∧ ((s.barPassed a).1 = true →
            Leaves (.arrays :: accessParts) (fun r i => accessRegs r i ∨ (r = .arrStatus ∧ i = a)) s t)
        ∧ ((s.barPassed a).1 = false → t.fb ARR_RCSTAT.FAULTY a = true ∧ t.fb SYS_SAFESTAT.TB_FAIL 0 = true
            ∧ t.f ARR_RCSTAT.TB_FAIL a = min (s.f ARR_RCSTAT.TB_FAIL a + 1) ARR_RCSTAT.TB_FAIL.top
            ∧ a ∈ t.sys.record.retired))
    ∧ (∀ (s : State) (a : Nat) (pass : Bool), a < 34 → (s.arr a).testBar.isSome = true → (s.arr a).barPhase = .over →
      (s.arr a).barSpare = false → (s.arr a).testBarDue = false → s.timed (s.f ARR_STATUS.FLASK a) = true →
      s.f ARR_STATUS.FLASK a < 8 → s.units.tbStopped = false → (s.barPassed a).1 = false →
      ∃ t, exec (.testBarDone (.array a) pass) s = .next t ∧ (t.arr a).testBar = none
        ∧ (t.arr a).retireDue = some 2 ∧ t.fb ARR_RCSTAT.FAULTY a = true ∧ t.fb SYS_SAFESTAT.TB_FAIL 0 = true)
    ∧ (∀ (s : State) (a : Nat) (pass : Bool), a < 34 → ((s.arr a).testBar = none ∨ (s.arr a).barPhase ≠ .over) →
      exec (.testBarDone (.array a) pass) s = .next s)
    ∧ (∀ (s : State) (pass : Bool), s.f RUN_STAT.STATE 0 = 6 →
      ∃ t, exec (.testBarDone .runner pass) s = .next t ∧ t.f RUN_STAT.STATE 0 = 0 ∧ t.pix.nodes = []
        ∧ (pass = true → Leaves [.nodes] (oneReg .runStat 0) s t)
        ∧ (pass = false → t.fb SYS_SAFESTAT.TB_FAIL 0 = true ∧ t.units.runnerDue = true
            ∧ NMap.get t.sys.record.runner 0 0 = min (NMap.get s.sys.record.runner 0 0 + 1) 0xFFFFFFFF
            ∧ Leaves [.freeCtr, .keptIrqs, .nodes, .outbox, .safePins, .record, .runnerDue]
                (fun r i => (r = .runStat ∨ r = .sysSafestat) ∧ i = 0) s t)))
  ∧ ((∀ (s : State) (m : Master) (v : Word), s.accepts .sysLock 0 m .whole (withBit v 62) → s.fb SYS_LOCK.MGR 0 = false →
      ∃ t, exec (.mgrLockSet m v) s = .next t ∧ t.fb SYS_LOCK.MGR 0 = false ∧ t.units.tbVerifying = true
        ∧ (∀ r, r ≠ .sysLock → r ≠ .sysRegerr → ∀ i, t.r r i = s.r r i))
    ∧ (∀ s : State, s.units.tbVerifying = true → s.spareClash = false →
      ∃ t, exec (.tbImageVerified true) s = .next t ∧ t.fb SYS_LOCK.MGR 0 = true ∧ t.units.tbVerifying = false
        ∧ t.units.tbFailed = false ∧ t.mem.spareArea = true
        ∧ Leaves [.spareArea, .tbFailed, .tbVerifying] (oneReg .sysLock 0) s t)
    ∧ (∀ s : State, s.units.tbVerifying = true →
      ∃ t, exec (.tbImageVerified false) s = .next t ∧ t.units.tbVerifying = false ∧ t.units.tbFailed = true
        ∧ t.f SYS_REGERR.REFUSED 0 = 1
        ∧ Leaves [.keptIrqs, .outbox, .tbFailed, .tbVerifying] (oneReg .sysRegerr 0) s t)
    ∧ (∀ (s : State) (ok : Bool), s.units.tbVerifying = false → exec (.tbImageVerified ok) s = .next s)
    ∧ (∀ s : State, s.fb SYS_LOCK.MGR 0 = true →
      ∃ t, exec (.tbImageRecheck false) s = .next t ∧ t.units.tbStopped = true ∧ t.fb SYS_SAFESTAT.TB_FAIL 0 = true
        ∧ (∀ a, a < 34 → (t.arr a).testBarDue = false ∧ ((s.arr a).testBar = none → (t.arr a).testBar = none)
            ∧ ((s.arr a).testBar.isSome = true →
                (t.arr a).barPhase = (if (s.arr a).barPhase = .save ∨ (s.arr a).barPhase = .over then .over else .restore)))
        ∧ (∀ e, e < 16 → (t.vec e).testBar = false ∧ (t.vec e).testBarDue = false)
        ∧ (∀ c, c < 8 → (t.rt c).testBar = false) ∧ (∀ f, f < 8 → (t.flask f).extraBars = [])
        ∧ ∀ k, SameJob k s t)
    ∧ (∀ s : State, exec (.tbImageRecheck true) s = .next s))

/-- R156, R157, R339: a fold adds each array counter's rise since the last fold to the field record, and what the UFS
host has counted to the billet's bytes; a sample counts one second in every sensor's bin and in the hottest one's, and a
droop event in its rail's bin; a checkpoint advances SEQ and stores the record. -/
def Obligations.TheFieldRecordCountsAndIsStored : Prop :=
  (∀ (s : State) (ufs : Nat), s.cupolaUp = true → ∃ t, exec (.counterFold ufs) s = .next t
      ∧ (∀ a, a < 34 → ∀ k x, (k, x) ∈ [(0, ARR_RCSTAT.ISO_PRI), (1, ARR_RCSTAT.ISO_RC), (2, ARR_RCSTAT.TB_FAIL),
            (3, ARR_RCSTAT.OVERRUN), (5, ARR_SATCNT.DRIFT_EVENTS)] →
          let old := NMap.get s.sys.store.folded 0 (8 * a + k)
          let cur := s.f x a
          NMap.get t.sys.record.arrays 0 (8 * a + k)
              = min (NMap.get s.sys.record.arrays 0 (8 * a + k) + (if old ≤ cur then cur - old else cur)) 0xFFFFFFFF
            ∧ NMap.get t.sys.store.folded 0 (8 * a + k) = cur)
      ∧ (∀ a, a < 34 → NMap.get t.sys.record.arrays 0 (8 * a + 6) = s.f ARR_STATUS.STATE a)
      ∧ t.sys.record.bytes = s.sys.record.bytes + (if s.billetLive then ufs else 0)
      ∧ ((s.billetLive = false ∨ ufs = 0) → Leaves [.record, .store] noReg s t)
      ∧ Leaves [.keptIrqs, .outbox, .record, .store] (oneReg .sysBillet 0) s t)
  ∧ (∀ (s : State) (ufs : Nat), s.cupolaUp = false → exec (.counterFold ufs) s = .next s)
  ∧ (∀ (s : State) (temps : List Int) (droops : List (Nat × Nat)), s.cupolaUp = true → temps.length = 32 →
    ∃ t, exec (.sensorSample temps droops) s = .next t ∧ t.sys.record.poh = s.sys.record.poh + 1
      ∧ (∀ k c, temps[k]? = some c → NMap.get t.sys.record.temp 0 (16 * k + tempBin c)
          = min (NMap.get s.sys.record.temp 0 (16 * k + tempBin c) + 1) 0xFFFFFFFF)
      ∧ (∀ c, c ∈ temps → (∀ d ∈ temps, d ≤ c) → NMap.get t.sys.record.hot 0 (tempBin c)
          = min (NMap.get s.sys.record.hot 0 (tempBin c) + 1) 0xFFFFFFFF)
      ∧ (droops = [] → t.sys.record.droop = s.sys.record.droop)
      ∧ (∀ k v, droops = [(k, v)] → k < 8 → v < 98 → NMap.get t.sys.record.droop 0 (16 * k + min 15 (97 - v))
          = min (NMap.get s.sys.record.droop 0 (16 * k + min 15 (97 - v)) + 1) 0xFFFFFFFF)
      ∧ Leaves [.record] noReg s t)
  ∧ (∀ s : State, s.cupolaUp = true → s.sys.store.lastPoh + 600 ≤ s.sys.record.poh →
    ∃ t, exec .checkpoint s = .next t ∧ t.sys.record.seq = s.sys.record.seq + 1 ∧ t.sys.record.reason = 1
      ∧ t.sys.record.time = s.now ∧ t.sys.store.summary = some t.sys.record ∧ t.sys.store.lastPoh = s.sys.record.poh
      ∧ (s.billetLive = true → t.sys.record.bytes = s.sys.record.bytes + 65536
          ∧ (if s.sys.store.nextSlot = 0 then t.sys.store.slot0 = some t.sys.record
            else t.sys.store.slot1 = some t.sys.record))
      ∧ (s.billetLive = false → t.sys.store.slot0 = s.sys.store.slot0 ∧ t.sys.store.slot1 = s.sys.store.slot1)
      ∧ Leaves [.keptIrqs, .outbox, .record, .store] (oneReg .sysBillet 0) s t)
  ∧ (∀ s : State, (s.cupolaUp = false ∨ s.sys.record.poh < s.sys.store.lastPoh + 600) → exec .checkpoint s = .next s)

/-- R160, R161, R219, R220, R161: naming resources builds a flask; CREATE gives the named units their logical numbers in
ascending physical order; DESTROY frees a flask being built and shakes out a running one. Shakeout clears the compute
state of a flask, and a CREATE then runs, a DESTROY returns its units; a unit whose read-back fails is left to the
firmware, which ends the shakeout the same way. Flask Fh names the arrays that no flask owns (log entry 186: the model's
choice): one whose read-back failed takes no tile until the firmware has cleared it. -/
def Obligations.FlasksAreBuiltClearedAndDestroyed : Prop :=
  ((∀ (s : State) (m : Master) (f : Nat) (v : Word), f < 8 → s.accepts .sysFlres f m .whole v.toNat →
      s.f SYS_FLCTRL.STATE f ≤ 1 →
      ∃ t, exec (.flresWrite m f v) s = .next t ∧ t.f SYS_FLCTRL.STATE f = 1
        ∧ t.f SYS_FLRES.ARRAYS f = bits v.toNat 63 30 ∧ t.f SYS_FLRES.VECS f = bits v.toNat 29 14
        ∧ t.f SYS_FLRES.RTCORES f = bits v.toNat 13 6 ∧ t.f SYS_FLRES.RUNNER f = bits v.toNat 5 5
        ∧ Leaves [] (fun r i => (r = .sysFlres ∨ r = .sysFlctrl) ∧ i = f) s t)
    ∧ (∀ (s : State) (m : Master) (f : Nat) (v : Word), f < 8 → s.live → s.permits .sysFlres f m true 0 = true →
      s.lockedBy .sysFlres f = none → 2 ≤ s.f SYS_FLCTRL.STATE f → s.merged .sysFlres f .whole v.toNat ≠ s.r .sysFlres f →
      ∃ t, exec (.flresWrite m f v) s = .next t ∧ t.f SYS_REGERR.REFUSED 0 = 1
        ∧ Leaves [.outbox, .keptIrqs] (oneReg .sysRegerr 0) s t)
    ∧ (∀ (s : State) (m : Master) (f : Nat) (v : Word), f < 8 → s.accepts .sysFlctrl f m .whole (withBit v 59) →
      bit v.toNat 58 = false →
      ∃ t, exec (.flaskCreate m f v) s = .next t ∧ t.f SYS_FLCTRL.STATE f = 2 ∧ t.fb SYS_FLCTRL.CREATE f = false
        ∧ t.fb SYS_FLCTRL.TIMED f = bit v.toNat 57
        ∧ (∀ k a, (s.namedArrays f)[k]? = some a → t.f ARR_STATUS.FLASK a = f ∧ t.f ARR_STATUS.LOGICAL a = k)
        ∧ (∀ k e, (s.namedVecs f)[k]? = some e → t.f VEC_STATUS.FLASK e = f ∧ t.f VEC_STATUS.LOGICAL e = k)
        ∧ (∀ k c, (s.namedRts f)[k]? = some c → (t.rt c).flask = some f ∧ (t.rt c).logical = k)
        ∧ (∀ c, c ∉ s.namedRts f → t.rt c = s.rt c)
        ∧ (∀ a ∈ s.namedArrays f, t.f ARR_SATWIN.WIN_VALUES a = 0 ∧ t.f ARR_SATWIN.WIN_SAT a = 0)
        ∧ (∀ a, (a ∉ s.namedArrays f ∨ (s.arr a).nextJob = none) → t.arr a = s.arr a)
        ∧ Leaves [.arrays, .flasks, .rts] (fun r i => (r = .sysFlctrl ∧ i = f)
            ∨ ((r = .arrStatus ∨ r = .arrSatwin) ∧ i ∈ s.namedArrays f) ∨ (r = .vecStatus ∧ i ∈ s.namedVecs f)) s t)
    ∧ (∀ (s : State) (m : Master) (f : Nat) (v : Word), f < 8 → s.accepts .sysFlctrl f m .whole (withBit v 58) →
      bit v.toNat 59 = false →
      ∃ t, exec (.flaskDestroy m f v) s = .next t
        ∧ (s.f SYS_FLCTRL.STATE f = 1 → t.f SYS_FLCTRL.STATE f = 0 ∧ t.r .sysFlres f = 0 ∧ t.f MEM_CWAYS.WAYS f = 0)
        ∧ (s.f SYS_FLCTRL.STATE f ≠ 1 → t.f SYS_FLCTRL.STATE f = 4 ∧ t.r .sysFlres f = s.r .sysFlres f)
        ∧ Leaves [] (fun r i => (r = .sysFlctrl ∨ r = .sysFlres ∨ r = .memCways ∨ r = .attFslice) ∧ i = f) s t))
  ∧ ((∀ (s : State) (f : Nat) (bad : List TBUnit), f < 8 → s.shaking f = true → (s.flask f).fwClear = false →
      (∀ u ∈ bad, s.unitHeld f u = false) →
      ∃ t, exec (.shakeoutDone f bad) s = .next t
        ∧ t.f SYS_FLCTRL.STATE f = (if s.f SYS_FLCTRL.STATE f = 2 then 3 else 0)
        ∧ (∀ a ∈ s.heldArrays f, (t.arr a).mould = [] ∧ (t.arr a).store = [] ∧ (t.arr a).accum = [] ∧ (t.arr a).active = {}
            ∧ (t.arr a).shadow = {} ∧ (t.arr a).ev = [] ∧ t.f ARR_SATWIN.WIN_VALUES a = 0)
        ∧ (∀ e ∈ s.engines f, (t.vec e).vreg = [] ∧ (t.vec e).store = [] ∧ (t.vec e).xreg = [] ∧ (t.vec e).freg = []
            ∧ (t.vec e).csr = [] ∧ ∀ h ∈ t.mem.holders, h.who ≠ .vec e)
        ∧ (∀ c ∈ s.heldRts f, (t.rt c).reg = [] ∧ (t.rt c).data = [] ∧ (t.rt c).firsts = [] ∧ (t.rt c).task = none)
        ∧ (s.fb SYS_FLRES.RUNNER f = true → t.pix.nodes = [] ∧ t.pix.planCount = 0)
        ∧ (∀ a, a ∉ s.heldArrays f → t.arr a = s.arr a ∧ t.r .arrStatus a = s.r .arrStatus a)
        ∧ (s.f SYS_FLCTRL.STATE f = 4 → (∀ a ∈ s.heldArrays f, t.f ARR_STATUS.FLASK a = 15 ∧ t.f ARR_STATUS.LOGICAL a = 0xFF)
            ∧ t.flask f = {} ∧ t.r .sysFlres f = 0 ∧ t.f SYS_FLSHARE.ACCT f = 0 ∧ t.f POUR_FLAG.LAG f = 0)
        ∧ Leaves [.arrays, .cache, .flasks, .holders, .nodes, .planCount, .runKept, .rts, .saved, .vecs]
            (fun r i => ((r = .sysFlctrl ∨ r = .sysFlres ∨ r = .sysFlshare ∨ r = .attFslice ∨ r = .pourFlag) ∧ i = f)
              ∨ r = .memCways ∨ (r = .arrSatwin ∧ i ∈ s.heldArrays f)
              ∨ (s.f SYS_FLCTRL.STATE f = 4 ∧ (r = .arrStatus ∨ r = .vecStatus))) s t)
    ∧ (∀ (s : State) (f : Nat) (bad : List TBUnit), f < 8 → s.shaking f = true → (s.flask f).fwClear = false →
      (∃ u ∈ bad, s.unitHeld f u = true) →
      ∃ t, exec (.shakeoutDone f bad) s = .next t ∧ (t.flask f).fwClear = true
        ∧ t.f SYS_FLCTRL.STATE f = s.f SYS_FLCTRL.STATE f)
    ∧ (∀ (s : State) (f : Nat) (bad : List TBUnit), f < 8 → (s.shaking f = false ∨ (s.flask f).fwClear = true) →
      exec (.shakeoutDone f bad) s = .next s)
    ∧ (∀ (s : State) (f : Nat) (bad : List TBUnit), f < 8 → s.shaking f = true → (s.flask f).fwClear = true →
      s.cupolaUp = true → (∀ u ∈ bad, s.unitHeld f u = false) →
      ∃ t, exec (.firmwareClearDone f bad) s = .next t ∧ (t.flask f).fwClear = false
        ∧ t.f SYS_FLCTRL.STATE f = (if s.f SYS_FLCTRL.STATE f = 2 then 3 else 0) ∧ t.sys.record = s.sys.record)
    ∧ (∀ (s : State) (f a : Nat), f < 8 → a < 34 → s.shaking f = true → (s.flask f).fwClear = true → s.cupolaUp = true →
      s.f ARR_STATUS.FLASK a = f → s.f ARR_STATUS.STATE a ≠ 6 →
      ∃ t, exec (.firmwareClearDone f [.array a]) s = .next t ∧ (t.flask f).fwClear = false
        ∧ t.f SYS_FLCTRL.STATE f = (if s.f SYS_FLCTRL.STATE f = 2 then 1 else 0)
        ∧ t.f ARR_STATUS.STATE a = 5 ∧ t.f ARR_STATUS.FLASK a = 15 ∧ t.f ARR_STATUS.LOGICAL a = 0xFF)
    ∧ (∀ (s : State) (a : Nat), a < 34 → s.f ARR_STATUS.FLASK a = 15 → (s.arr a).job = none →
      s.fb ARR_PROG.NEXT_VALID a = false →
      ∃ t, exec (.shakeoutDone 15 [.array a]) s = .next t ∧ (t.arr a).clearing = true ∧ t.arrFree a = false
        ∧ (∀ b, b ≠ a → t.arr b = s.arr b) ∧ Leaves [.arrays, .flasks] noReg s t)
    ∧ (∀ (s : State), s.cupolaUp = true →
      ∃ t, exec (.firmwareClearDone 15 []) s = .next t
        ∧ (∀ a, a < 34 → (t.arr a).clearing = false ∧ ((s.arr a).clearing = true → (t.arr a).mould = [] ∧ (t.arr a).accum = []))
        ∧ (∀ a, (s.arr a).clearing = false → t.arr a = s.arr a) ∧ Leaves [.arrays] (fun r _ => r = .arrSatwin) s t))

/-- R164 to R168: SWAP asks for a validation, which readies the shadow bank or clears SWAP with the failing entry; a frame
boundary advances FRAME and exchanges the banks only when the shadow bank was ready. -/
def Obligations.BanksAreValidatedAndExchangedAtABoundary : Prop :=
  (∀ (s : State) (m : Master) (v : Word), s.accepts .pourCtrl 0 m .whole (withBit v 63) →
    ∃ t, exec (.swap m v) s = .next t ∧ t.fb POUR_CTRL.SWAP 0 = true ∧ t.fb POUR_CTRL.EN 0 = bit v.toNat 60
      ∧ t.f POUR_CTRL.SHADOW_FRAME_US 0 = bits v.toNat 59 40 ∧ t.f POUR_CTRL.ACTIVE_BANK 0 = s.f POUR_CTRL.ACTIVE_BANK 0
      ∧ t.f POUR_CTRL.FRAME_US 0 = s.f POUR_CTRL.FRAME_US 0
      ∧ (s.fb POUR_CTRL.SWAP 0 = false → t.units.pour = { s.units.pour with validated := false })
      ∧ Leaves [.pour] (oneReg .pourCtrl 0) s t)
  ∧ (∀ s : State, s.fb POUR_CTRL.SWAP 0 = true → s.units.pour.validated = false →
    (s.bankError = none → ∃ t, exec .swapValidated s = .next t
      ∧ t.units.pour = { s.units.pour with validated := true } ∧ Leaves [.pour] noReg s t)
    ∧ (∀ e, s.bankError = some e → ∃ t, exec .swapValidated s = .next t ∧ t.fb POUR_CTRL.SWAP 0 = false
        ∧ t.fb POUR_CTRL.SWAP_REFUSED 0 = true ∧ t.f POUR_CTRL.BAD_ENTRY 0 = e ∧ Leaves [] (oneReg .pourCtrl 0) s t))
  ∧ (∀ s : State, (s.fb POUR_CTRL.SWAP 0 = false ∨ s.units.pour.validated = true) → exec .swapValidated s = .next s)
  ∧ (∀ s : State, s.atBoundary = true →
    ∃ t, exec .frameBoundary s = .next t ∧ t.units.pour.frameNs = s.boundaryNs
      ∧ (s.fb POUR_CTRL.EN 0 = true → t.f POUR_STAT.FRAME 0 = (s.f POUR_STAT.FRAME 0 + 1) % 2 ^ 32
          ∧ t.units.pour.started = [])
      ∧ (s.fb POUR_CTRL.EN 0 = false → t.f POUR_STAT.FRAME 0 = s.f POUR_STAT.FRAME 0)
      ∧ (s.units.pour.validated = true → t.f POUR_CTRL.ACTIVE_BANK 0 = 1 - s.f POUR_CTRL.ACTIVE_BANK 0
          ∧ t.f POUR_CTRL.FRAME_US 0 = s.f POUR_CTRL.SHADOW_FRAME_US 0 ∧ t.fb POUR_CTRL.SWAP 0 = false
          ∧ t.units.pour.validated = false)
      ∧ (s.units.pour.validated = false → t.r .pourCtrl 0 = s.r .pourCtrl 0)
      ∧ (∀ p ∈ t.units.pairs, p ∈ s.units.pairs ∧ p.split = false)
      ∧ Leaves [.arrays, .flasks, .freeCtr, .holders, .jobs, .keptIrqs, .moves, .nextMove, .outbox, .pairs, .pour, .safePins,
            .record, .rts, .runnerDue, .runnerOut, .vecs]
          (fun r i => ((r = .pourCtrl ∨ r = .pourStat ∨ r = .sysSafestat) ∧ i = 0) ∨ r = .arrStatus ∨ r = .arrRate
            ∨ r = .arrProg ∨ r = .arrResident ∨ r = .arrSatwin ∨ r = .vecStatus) s t)
  ∧ (∀ s : State, s.atBoundary = false → exec .frameBoundary s = .next s)
  ∧ (∀ (s : State) (a : Nat), a < 34 →
    ((∀ m ∈ s.mem.moves, m.kind ≠ .spareImage a) → ∃ t, exec (.spareCopyDone a) s = .next t
      ∧ t.arr a = { s.arr a with copying := false } ∧ (∀ b, b ≠ a → t.arr b = s.arr b) ∧ Leaves [.arrays] noReg s t)
    ∧ ((∃ m ∈ s.mem.moves, m.kind = .spareImage a) → exec (.spareCopyDone a) s = .next s))

/-- R168 to R175: an entry starts at START plus its flask's lag and not before, with the words that it had in its frame;
the first entry of a pair forms the pair, the second joins it, and the release point follows their scheduled ends; a
recovery entry absorbs lag, an entry without a job is empty; an entry that has ended leaves, and one that is late is
counted once in its frame. -/
def Obligations.EntriesStartWhenDueAndAreCounted : Prop :=
  (∀ (s : State) (e : Nat), e < 4096 →
    (s.nextDue e = none ∨ s.fb POUR_CTRL.EN 0 = false ∨ ∃ d, s.nextDue e = some d ∧ reached s.now (s.dueNs d) = false) →
    exec (.pourEntryStart e) s = .next s)
  ∧ (∀ (s : State) (e : Nat) (d : Due), e < 4096 → s.nextDue e = some d →
    ((d ∈ s.units.pour.carried ∧ d.idx % 4096 = e)
      ∨ (d.idx = 4096 * s.f POUR_CTRL.ACTIVE_BANK 0 + e ∧ d.ent = ⟨s.r .pourEnt0 d.idx, s.r .pourEnt1 d.idx⟩
          ∧ d.frame = s.f POUR_STAT.FRAME 0 ∧ d.startNs = s.units.pour.frameNs + 1000 * bits (s.r .pourEnt0 d.idx) 63 44))
    ∧ s.dueNs d = d.startNs + 1000 * s.f POUR_FLAG.LAG d.ent.flask)
  ∧ (∀ (s : State) (e : Nat) (d : Due), e < 4096 → s.nextDue e = some d → s.fb POUR_CTRL.EN 0 = true →
    reached s.now (s.dueNs d) = true → (s.flask d.ent.flask).isolating = true →
    ∃ t, exec (.pourEntryStart e) s = .next t ∧ d.idx ∈ (t.flask d.ent.flask).held ∧ Leaves [.flasks] noReg s t)
  ∧ (∀ (s : State) (e : Nat) (d : Due), e < 4096 → s.nextDue e = some d → s.fb POUR_CTRL.EN 0 = true →
    reached s.now (s.dueNs d) = true → reached s.now (s.monitorNs d + 2001) = false → (s.flask d.ent.flask).isolating = false →
    let lag := s.f POUR_FLAG.LAG d.ent.flask
    let run : Running := { entry := d.idx, ent := d.ent, frame := d.frame, dueNs := s.dueNs d }
    (d.ent.kind = 6 → ∃ t, exec (.pourEntryStart e) s = .next t
      ∧ t.units.pour.running = s.units.pour.running ++ [run] ∧ Leaves [.flasks, .pour] noReg s t)
    ∧ (d.ent.kind = 3 → ∃ t, exec (.pourEntryStart e) s = .next t
      ∧ t.f POUR_FLAG.LAG d.ent.flask = lag - d.ent.len
      ∧ (lag ≤ d.ent.len → (t.flask d.ent.flask).extraBars = []
          ∧ t.units.pour.running = s.units.pour.running ++ [{ run with absorbed := lag }])
      ∧ (d.ent.len < lag → (t.flask d.ent.flask).extraBars = (s.flask d.ent.flask).extraBars
          ∧ Leaves [.flasks, .pour] (oneReg .pourFlag d.ent.flask) s t))
    ∧ (d.ent.kind ≤ 1 → s.entryTile d = none → ∃ t, exec (.pourEntryStart e) s = .next t
      ∧ t.f POUR_STAT.EMPTY 0 = min (s.f POUR_STAT.EMPTY 0 + 1) POUR_STAT.EMPTY.top
      ∧ t.units.pour.running = s.units.pour.running ++ [{ run with empty := true }]
      ∧ Leaves [.flasks, .pour] (oneReg .pourStat 0) s t)
    ∧ (∀ c, d.ent.kind = 4 → s.unitOf d.ent.flask 2 d.ent.unit = some c → d.ent.log = 0xFFF →
      ∃ t, exec (.pourEntryStart e) s = .next t ∧ (t.rt c).started = true
        ∧ t.firstOf c d.ent.task = some { task := d.ent.task, logTime := s.now }
        ∧ (t.rt c).task = some (d.ent.task, d.ent.inst, 0xFFF, 4, s.now)
        ∧ (∀ k, k ≠ c → t.rt k = s.rt k) ∧ Leaves [.flasks, .pour, .rts] noReg s t)
    ∧ (∀ c p, d.ent.kind = 5 → s.unitOf d.ent.flask 2 d.ent.unit = some c →
      s.unitOf d.ent.flask 2 d.ent.partner = some p →
      ((s.firstOf p d.ent.task).isSome = true → ∃ t, exec (.pourEntryStart e) s = .next t
        ∧ t.rt c = { s.rt c with task := some (d.ent.task, d.ent.inst, p, 5, s.now), started := true }
        ∧ (∀ k, k ≠ c → t.rt k = s.rt k) ∧ Leaves [.flasks, .pour, .rts] noReg s t)
      ∧ (s.firstOf p d.ent.task = none → ∃ t, exec (.pourEntryStart e) s = .next t
        ∧ t.fb SYS_SAFESTAT.RT_MISMATCH 0 = true ∧ (t.rt c).task = none ∧ (t.rt c).extra = true))
    ∧ (∀ (u v : Nat) (o : Ent) (x : Job) (td : List Nat),
      let vec := d.ent.ty == 1
      let rc := d.ent.kind == 1
      d.ent.kind ≤ 1 → s.unitOf d.ent.flask d.ent.ty d.ent.unit = some u →
      s.entryTile d = some (x, td) → s.pairOf vec u = none → s.partnerEntry d td = some o →
      s.unitOf d.ent.flask o.ty o.unit = some v → x.stop = false → d.ent.tile ∉ x.doneParts → s.unitIdle vec u = true →
      ((s.startJob x.id).job x.id).any (fun y => decide (y.phase = .running)) = true →
      ∃ t p, exec (.pourEntryStart e) s = .next t ∧ t.pairOf vec u = some p ∧ p.job = x.id ∧ p.tile = d.ent.tile
        ∧ p.pri = (if rc then v else u) ∧ p.rc = (if rc then u else v) ∧ p.phase = .running ∧ p.laterStart = s.now
        ∧ p.firstEnd = s.dueNs d + 1000 * d.ent.len
        ∧ p.releaseNs = later (s.dueNs d + 1000 * d.ent.len)
            (d.startNs - 1000 * d.ent.start + 1000 * (o.start + lag + o.len)) + 200)
    ∧ (∀ (u : Nat) (q : Pair) (x : Job) (td : List Nat),
      let vec := d.ent.ty == 1
      let rc := d.ent.kind == 1
      d.ent.kind ≤ 1 → s.unitOf d.ent.flask d.ent.ty d.ent.unit = some u → s.entryTile d = some (x, td) →
      s.pairOf vec u = some q → q.job = x.id → q.tile = d.ent.tile → (if rc then q.rc else q.pri) = u →
      q.priEnd = none → q.rcEnd = none → q.overran = 0 → s.unitIdle vec u = true →
      ∃ t p, exec (.pourEntryStart e) s = .next t ∧ t.pairOf vec u = some p ∧ p.laterStart = s.now ∧ p.phase = q.phase
        ∧ p.pri = q.pri ∧ p.rc = q.rc ∧ p.releaseNs = later q.firstEnd (s.dueNs d + 1000 * d.ent.len) + 200))
  ∧ (∀ (s : State) (e : Nat) (r : Running), e < 4096 →
    s.units.pour.running.find? (fun r => r.entry % 4096 == e) = some r →
    (reached s.now (r.dueNs + 1000 * r.ent.len - 1000 * r.absorbed) = false → exec (.pourEntryEnd e) s = .next s)
    ∧ (reached s.now (r.dueNs + 1000 * r.ent.len - 1000 * r.absorbed) = true → ∃ t, exec (.pourEntryEnd e) s = .next t
        ∧ (∀ q, q ∈ t.units.pour.running ↔ q ∈ s.units.pour.running ∧ q ≠ r)
        ∧ (r.empty = true → Leaves [.pour, .jobs] noReg s t)))
  ∧ (∀ (s : State) (e : Nat), e < 4096 → s.units.pour.running.find? (fun r => r.entry % 4096 == e) = none →
    exec (.pourEntryEnd e) s = .next s)
  ∧ (∀ (s : State) (e : Nat) (d : Due), e < 4096 → s.nextDue e = some d → s.fb POUR_CTRL.EN 0 = true →
    (s.flask d.ent.flask).isolating = false → reached s.now (s.monitorNs d + 2000) = true →
    ((d.idx, d.frame) ∈ s.units.pour.lateSeen → exec (.pourLate e) s = .next s)
    ∧ ((d.idx, d.frame) ∉ s.units.pour.lateSeen → ∃ t, exec (.pourLate e) s = .next t
        ∧ t.f POUR_STAT.LATE 0 = min (s.f POUR_STAT.LATE 0 + 1) POUR_STAT.LATE.top
        ∧ t.fb SYS_SAFESTAT.POUR_LATE 0 = true ∧ (d.idx, d.frame) ∈ t.units.pour.lateSeen
        ∧ Leaves [.freeCtr, .keptIrqs, .outbox, .pour, .safePins, .record]
            (fun r i => (r = .pourStat ∨ r = .sysSafestat) ∧ i = 0) s t))

/-- R162, R184 to R186: the settings as written take effect at a refill, where the buckets rise and the requests that wait
leave in order while the ceiling holds their charge; a request waits behind those of its gate and for its ceiling or is
charged, in class G while the guaranteed bucket holds it; a real-time master keeps class RT up to its cap; a missed bound
or guarantee is flagged. -/
def Obligations.GatesChargeRequestsAndReportMisses : Prop :=
  (∀ s : State, ∃ t, exec .gateRefill s = .next t ∧ t.units.rtUsed = []
      ∧ (∀ g, g < 9 →
          let d := s.f GATE_CFG.DEPTH g * 64
          let gu := min ((s.gate g).1 + s.f GATE_CFG.GUAR g) d
          let ce := min ((s.gate g).2.1 + s.f GATE_CFG.CEIL g) d
          (∀ x : Fld, x.reg = .gateCfg → t.gateF x g = s.f x g)
          ∧ (s.gateWait g = [] → t.gateWait g = [] ∧ (t.gate g).1 = gu ∧ (t.gate g).2.1 = ce
              ∧ (t.gate g).2.2.1 = (s.gate g).2.2.1)
          ∧ (∀ c cs, s.gateWait g = c :: cs → s.f GATE_CFG.CEIL g ≠ 0xFFFFF → ce < c →
              t.gateWait g = s.gateWait g ∧ (t.gate g).1 = gu ∧ (t.gate g).2.1 = ce)
          ∧ (∀ c, s.gateWait g = [c] → (s.f GATE_CFG.CEIL g = 0xFFFFF ∨ c ≤ ce) →
              t.gateWait g = [] ∧ (t.gate g).1 = (if c ≤ gu then gu - c else gu) ∧ (t.gate g).2.1 = ce - c))
      ∧ (∀ (m : Nat) (x : Fld), m < 14 → x.reg = .gateRt → t.rtF x m = s.f x m)
      ∧ Leaves [.gates, .gateQ, .gateCfg, .rtCfg, .rtUsed] noReg s t)
  ∧ (∀ (s : State) (g n : Nat), g < 9 →
    let c := cdiv n 64 * 64
    let x := s.gate g
    let holds := s.gateF GATE_CFG.CEIL g = 0xFFFFF ∨ c ≤ x.2.1
    ((s.gateWait g ≠ [] ∨ ¬ holds) → ∃ t, exec (.gateRequest g n) s = .next t
        ∧ t.gateWait g = s.gateWait g ++ [c] ∧ (∀ k, k ≠ g → t.gateWait k = s.gateWait k) ∧ Leaves [.gateQ] noReg s t)
    ∧ (s.gateWait g = [] → holds → ∃ t, exec (.gateRequest g n) s = .next t
        ∧ t.gate g = (if c ≤ x.1 then (x.1 - c, x.2.1 - c, x.2.2.1 + c, x.2.2.2) else (x.1, x.2.1 - c, x.2.2))
        ∧ (∀ k, k ≠ g → t.gate k = s.gate k) ∧ Leaves [.gates] noReg s t))
  ∧ (∀ (s : State) (m n : Nat), m < 14 →
    let used := NMap.get s.units.rtUsed 0 m
    ((s.rtF GATE_RT.CAP m = 0 ∨ used < s.rtF GATE_RT.CAP m) → ∃ t, exec (.gateRequest (9 + m) n) s = .next t
        ∧ NMap.get t.units.rtUsed 0 m = used + n ∧ Leaves [.rtUsed] noReg s t)
    ∧ (s.rtF GATE_RT.CAP m ≠ 0 → s.rtF GATE_RT.CAP m ≤ used → ∃ t, exec (.gateRequest (9 + m) n) s = .next t
        ∧ t.fb GATE_RT.CAPPED m = true ∧ Leaves [] (oneReg .gateRt m) s t))
  ∧ (∀ (s : State) (m n : Nat), m < 14 →
    (n ≤ s.rtF GATE_RT.BOUND_NS m → exec (.rtBoundExceeded m n) s = .next s)
    ∧ (s.rtF GATE_RT.BOUND_NS m < n → ∃ t, exec (.rtBoundExceeded m n) s = .next t ∧ t.fb GATE_RT.MISS m = true
        ∧ t.f GATE_RT.MISSED m = min (s.f GATE_RT.MISSED m + 1) GATE_RT.MISSED.top
        ∧ (s.fb SYS_IRQCFG.EN 0 = true → .mgrIrq 5 (9 + m) ∈ t.outbox)
        ∧ Leaves [.outbox, .keptIrqs] (oneReg .gateRt m) s t))
  ∧ (∀ (s : State) (g : Nat), g < 9 → ∃ t, exec (.guaranteeWindowEnd g) s = .next t
      ∧ (t.gate g).1 = (s.gate g).1 ∧ (t.gate g).2.1 = (s.gate g).2.1 ∧ (t.gate g).2.2.1 = 0
      ∧ (∀ k, k ≠ g → t.gate k = s.gate k)
      ∧ (s.windowShort g = true → t.fb GATE_STAT.MISS g = true
          ∧ t.f GATE_STAT.MISSED g = min (s.f GATE_STAT.MISSED g + 1) GATE_STAT.MISSED.top
          ∧ (s.fb SYS_IRQCFG.EN 0 = true → .mgrIrq 5 g ∈ t.outbox))
      ∧ t.winF GATE_STAT.WIN_US g = s.f GATE_STAT.WIN_US g
      ∧ (s.windowShort g = false → Leaves [.gates, .winCfg] noReg s t)
      ∧ Leaves [.gates, .winCfg, .outbox, .keptIrqs] (oneReg .gateStat g) s t)

/-- R190, R193, R194, R195, R197, R202, R204, R210: a read of DRAM within a line answers the bytes there and a write
replaces exactly the bytes it carries, beside the tags and mirror copies that the hardware keeps; a request of a line that
another cache holds in M or E snoops it under a tracker, and one behind a request of its line, or without a tracker,
waits; a carve-out, a hole and a poisoned line answer errors; INIT makes memory unusable until it is READY. -/
def Obligations.MasterAccessesReadAndWriteMemory : Prop :=
  (∀ (s s1 : State) (m : Master) (a pa n : Nat), s.sys.power.mode = .on → s.reach m a false = (.phys pa, s1) →
    s1.atHome m pa → s1.snoopTarget m ((pa - dramBase) / 128) = none → s1.lineReady ((pa - dramBase) / 128) →
    ∃ t, exec (.memoryRead m a n {}) s = .next t
      ∧ t.outbox = .memData m (s1.bytes pa (min n (128 - pa % 128))) :: s1.outbox
      ∧ (∀ k, ¬ s1.hwByte k → t.byte k = s1.byte k)
      ∧ (∀ c, masterCacher m = some c → ∃ h ∈ t.mem.holders, h.who = c ∧ h.line = (pa - dramBase) / 128)
      ∧ Leaves (.outbox :: lineParts) occOnly s1 t)
  ∧ (∀ (s s1 : State) (m : Master) (a pa n : Nat) (c : Cacher), s.sys.power.mode = .on →
    s.reach m a false = (.phys pa, s1) → s1.atHome m pa → s1.snoopTarget m ((pa - dramBase) / 128) = some c →
    let q : HomeReq := { m := m, addr := pa, bytes := min n (128 - pa % 128) }
    ∃ t, exec (.memoryRead m a n {}) s = .next t
      ∧ (s1.trackerFree (s1.chanFor (128 * q.line)) = true →
          t.mem.snoops = s1.mem.snoops ++ [{ target := c, line := q.line, req := q }] ∧ t.mem.homeQ = s1.mem.homeQ)
      ∧ (s1.trackerFree (s1.chanFor (128 * q.line)) = false →
          t.mem.homeQ = s1.mem.homeQ ++ [q] ∧ t.mem.snoops = s1.mem.snoops)
      ∧ Leaves [.snoops, .homeQ, .gates, .gateQ] noReg s1 t)
  ∧ (∀ (s s1 : State) (m : Master) (a pa n : Nat), s.sys.power.mode = .on → s.reach m a false = (.phys pa, s1) →
    s1.place pa = .dram (pa - dramBase) → s1.clockLost .fclk = false → (masterDomain m).any s1.clockLost = false →
    s1.carved (pa - dramBase) = false →
    ((∃ q ∈ s1.mem.snoops, q.line = (pa - dramBase) / 128) ∨ ∃ q ∈ s1.mem.homeQ, q.line = (pa - dramBase) / 128) →
    ∃ t, exec (.memoryRead m a n {}) s = .next t
      ∧ t.mem.homeQ = s1.mem.homeQ ++ [{ m := m, addr := pa, bytes := min n (128 - pa % 128) }]
      ∧ Leaves [.homeQ, .gates, .gateQ] noReg s1 t)
  ∧ (∀ (s s1 : State) (m : Master) (a pa n : Nat) (errs : BurstErrs), s.sys.power.mode = .on →
    s.reach m a false = (.phys pa, s1) →
    (s1.place pa = .hole → ∃ t, exec (.memoryRead m a n errs) s = .next t ∧ t.outbox = faultAt m :: s1.outbox
      ∧ Leaves [.outbox] noReg s1 t)
    ∧ (s1.place pa = .dram (pa - dramBase) → s1.clockLost .fclk = false → (masterDomain m).any s1.clockLost = false →
      s1.carved (pa - dramBase) = true →
      ∃ t, exec (.memoryRead m a n errs) s = .next t ∧ t.outbox = .xlateFault m :: s1.outbox
        ∧ Leaves [.outbox] noReg s1 t))
  ∧ (∀ (s s1 : State) (m : Master) (a pa : Nat) (bs : List Byte), s.sys.power.mode = .on → s.storesHeld m = none →
    s.reach m a true = (.phys pa, s1) → s1.atHome m pa → bs.length = 128 → pa % 128 = 0 → a % 128 = 0 →
    ∃ t, exec (.memoryWrite m a bs) s = .next t ∧ t.outbox = .done m :: s1.outbox
      ∧ (∀ k, ¬ s1.hwByte k → t.byte k = if pa ≤ k ∧ k < pa + 128 then bs.getD (k - pa) 0 else s1.byte k)
      ∧ (∀ h ∈ t.mem.holders, h.line ≠ (pa - dramBase) / 128)
      ∧ (masterVec m = none → t.units.vecs = s1.units.vecs) ∧ Leaves (.outbox :: .vecs :: lineParts) occOnly s1 t)
  ∧ (∀ (s s1 : State) (m : Master) (a pa : Nat) (bs : List Byte), s.sys.power.mode = .on → s.storesHeld m = none →
    s.reach m a true = (.phys pa, s1) → s1.atHome m pa → bs.length < 128 → pa % 128 + bs.length ≤ 128 →
    s1.snoopTarget m ((pa - dramBase) / 128) = none → s1.lineReady ((pa - dramBase) / 128) →
    ∃ t, exec (.partialWrite m a bs {}) s = .next t ∧ t.outbox = .done m :: s1.outbox
      ∧ (∀ k, ¬ s1.hwByte k → t.byte k = if pa ≤ k ∧ k < pa + bs.length then bs.getD (k - pa) 0 else s1.byte k)
      ∧ (masterVec m = none → t.units.vecs = s1.units.vecs) ∧ Leaves (.outbox :: .vecs :: lineParts) occOnly s1 t)
  ∧ (∀ (s s1 : State) (m : Master) (a pa : Nat) (bs : List Byte), s.sys.power.mode = .on → s.storesHeld m = none →
    s.reach m a true = (.phys pa, s1) → s1.atHome m pa → bs.length < 128 →
    s1.snoopTarget m ((pa - dramBase) / 128) = none → s1.cached ((pa - dramBase) / 128) = false →
    s1.clockLost .mclk = false → (pa - dramBase) / 128 ∈ s1.mem.poison →
    ∃ t, exec (.partialWrite m a bs {}) s = .next t ∧ .poisoned m ∈ t.outbox ∧ t.mem.cells = s1.mem.cells)
  ∧ (∀ (s : State) (m : Master) (v : Word), s.accepts .memCtrl 0 m .whole (withBit v 56) → bit v.toNat 51 = false →
    ∃ t, exec (.memoryInit m v) s = .next t ∧ t.fb MEM_CTRL.INIT 0 = true ∧ t.fb MEM_CTRL.READY 0 = false
      ∧ t.f MEM_CTRL.BORROW_MAX 0 = bits v.toNat 49 38
      ∧ Leaves [.outbox, .keptIrqs] (fun r i => (r = .memCtrl ∨ r = .sysRegerr) ∧ i = 0) s t)
  ∧ (∀ s : State, s.fb MEM_CTRL.INIT 0 = true → ∃ t, exec .memoryReady s = .next t
      ∧ t.fb MEM_CTRL.READY 0 = true ∧ t.fb MEM_CTRL.INIT 0 = false ∧ Leaves [] (oneReg .memCtrl 0) s t)
  ∧ (∀ s : State, s.fb MEM_CTRL.INIT 0 = false → exec .memoryReady s = .next s)

/-- R190 to R192, R194, R203: the patrol counts and mends a burst that fails its CRC, poisons a line with two failing
bursts of one parity group, and rewrites such a line from its mirror copy; a write-back is accepted only from a master
that the filter lists and that no snoop asks; a snoop's answer, which an eviction under way gives itself, is placed in
memory and served to the request that waited; an acknowledgement frees the buffer. -/
def Obligations.ScrubsAndWriteBacksKeepMemoryCoherent : Prop :=
  (∀ (s : State) (b : Nat), (∀ f ∈ s.mem.flips, blockOf f.line ≠ b) → (∀ f ∈ s.mem.chkFlips, f.line ≠ b) →
    exec (.patrolScrub b {}) s = .next s)
  ∧ (∀ (s : State) (b l sub mask : Nat), s.fb MEM_CTRL.READY 0 = true → s.clockLost .mclk = false → s.mem.retCh = none →
    l ∈ s.blockLines b → l ∉ s.mem.poison → (∀ f ∈ s.mem.flips, blockOf f.line ≠ b) →
    (∀ f ∈ s.mem.chkFlips, f.line ≠ b) →
    (sub < 4 → s.burstFails { line := l, sub := sub, mask := mask } = true →
      ∃ t, exec (.patrolScrub b { data := [(dataLine l, sub, mask)] }) s = .next t
      ∧ t.f MEM_CHSTAT.CORRECTED (b % 8) = (s.f MEM_CHSTAT.CORRECTED (b % 8) + 1) % 2 ^ 24
      ∧ Leaves [.freeCtr, .record] (oneReg .memChstat (b % 8)) s t)
    ∧ (∀ mask2, sub + 1 < 4 → s.burstFails { line := l, sub := sub, mask := mask } = true →
      s.burstFails { line := l, sub := sub + 1, mask := mask2 } = true →
      (s.copyLine? l = none →
        ∃ t, exec (.patrolScrub b { data := [(dataLine l, sub, mask), (dataLine l, sub + 1, mask2)] }) s = .next t
        ∧ l ∈ t.mem.poison ∧ t.fb SYS_SAFESTAT.MEM_UE 0 = true
        ∧ t.f MEM_CHSTAT.UNCORR (b % 8) = min (s.f MEM_CHSTAT.UNCORR (b % 8) + 1) MEM_CHSTAT.UNCORR.top
        ∧ Leaves [.flips, .freeCtr, .keptIrqs, .outbox, .poison, .safePins, .record]
            (fun r i => (r = .memChstat ∧ i = b % 8) ∨ (r = .sysSafestat ∧ i = 0)) s t)
      ∧ (∀ c, s.copyLine? l = some c → blockOf c ≠ b → c ∉ s.mem.poison → (∀ f ∈ s.mem.flips, blockOf f.line ≠ blockOf c) →
        (∀ f ∈ s.mem.chkFlips, f.line ≠ blockOf c) →
        ∃ t, exec (.patrolScrub b { data := [(dataLine l, sub, mask), (dataLine l, sub + 1, mask2)] }) s = .next t
        ∧ l ∉ t.mem.poison ∧ t.lineBytes l = s.lineBytes c ∧ t.fb SYS_SAFESTAT.MEM_UE 0 = true
        ∧ ∀ k, (k < 128 * l + dramBase ∨ 128 * l + dramBase + 128 ≤ k) → t.byte k = s.byte k)))
  ∧ (∀ (s : State) (c : Cacher) (l : Nat) (d : Option (List Byte)), cacherOk c = true → 128 * l < s.usable →
    (s.mem.wbs.filter fun e => e.who == c).length < wbSize c →
    (((∃ q ∈ s.mem.snoops, q.target = c ∧ q.line = l) → ∃ t, exec (.writeBack c l d) s = .next t
        ∧ t.mem.wbs = s.mem.wbs ++ [{ who := c, line := l, data := d, stale := true }]
        ∧ Leaves [.wbs] noReg s t)
    ∧ ((∀ q ∈ s.mem.snoops, ¬(q.target = c ∧ q.line = l)) → (∀ h ∈ s.mem.holders, ¬(h.line = l ∧ h.who = c)) →
        ∃ t, exec (.writeBack c l d) s = .next t
        ∧ t.mem.wbs = s.mem.wbs ++ [{ who := c, line := l, data := d, stale := true, acked := true }]
        ∧ Leaves [.wbs] noReg s t)
    ∧ (∀ bs, d = some bs → bs.length = 128 → (∀ q ∈ s.mem.snoops, ¬(q.target = c ∧ q.line = l)) →
        (∃ h ∈ s.mem.holders, h.line = l ∧ h.who = c) → ∃ t, exec (.writeBack c l d) s = .next t
        ∧ t.mem.wbs = s.mem.wbs ++ [{ who := c, line := l, data := d, acked := true }]
        ∧ (∀ h, h ∈ t.mem.holders ↔ h ∈ s.mem.holders ∧ ¬(h.line = l ∧ h.who = c))
        ∧ (∀ k, ¬ s.hwByte k → t.byte k = if 128 * l + dramBase ≤ k ∧ k < 128 * l + dramBase + 128
            then bs.getD (k - (128 * l + dramBase)) 0 else s.byte k)
        ∧ Leaves (.wbs :: lineParts) occOnly s t)))
  ∧ (∀ (s : State) (c : Cacher) (l : Nat) (d : Option (List Byte)), cacherOk c = true →
    (wbSize c ≤ (s.mem.wbs.filter fun e => e.who == c).length ∨ s.usable ≤ 128 * l) → exec (.writeBack c l d) s = .next s)
  ∧ (∀ (s : State) (c : Cacher) (l : Nat), cacherOk c = true → ∃ t, exec (.writeBackAck c l) s = .next t
      ∧ (∀ e, e ∈ t.mem.wbs ↔ e ∈ s.mem.wbs ∧ ¬(e.who = c ∧ e.line = l ∧ e.acked = true)) ∧ Leaves [.wbs] noReg s t)
  ∧ (∀ (s : State) (c : Cacher) (l : Nat) (d : Option (List Byte)) (ev : Bool), cacherOk c = true →
    (∀ q ∈ s.mem.snoops, ¬(q.target = c ∧ q.line = l)) → exec (.snoopResponse c l d ev) s = .next s)
  ∧ (∀ (s : State) (c : Cacher) (l : Nat) (bs d : List Byte) (ev : Bool) (q : Snoop), cacherOk c = true →
    bs.length = 128 → (s.mem.snoops.filter fun q => q.target == c && q.line == l) = [q] → q.req.write = none →
    s.mem.homeQ = [] → q.req.line = l → 128 * l + dramBase ≤ q.req.addr →
    q.req.addr + q.req.bytes ≤ 128 * l + dramBase + 128 →
    (s.cached l = true ∨ s.f MEM_CWAYS.WAYS (s.cacherPart c) ≠ 0) →
    (∀ k, 128 * l + dramBase ≤ k → k < 128 * l + dramBase + 128 → ¬ s.hwByte k) →
    ((d = bs ∧ ∀ e ∈ s.mem.wbs, e.who = c → e.line = l → e.acked = true)
      ∨ (s.mem.wbs.find? fun e => e.who == c && e.line == l && !e.acked).any (fun e => e.data == some bs) = true) →
    ∃ t, exec (.snoopResponse c l (some d) ev) s = .next t
      ∧ t.outbox = .memData q.req.m ((bs.drop (q.req.addr - (128 * l + dramBase))).take q.req.bytes) :: s.outbox
      ∧ (∀ y, y ∈ t.mem.snoops ↔ y ∈ s.mem.snoops ∧ ¬(y.target = c ∧ y.line = l))
      ∧ (∀ e ∈ t.mem.wbs, e.who = c → e.line = l → e.stale = true → e.acked = true)
      ∧ (∀ k, ¬ s.hwByte k → t.byte k = if 128 * l + dramBase ≤ k ∧ k < 128 * l + dramBase + 128
            then bs.getD (k - (128 * l + dramBase)) 0 else s.byte k))

/-- R195, R198, R201, R205: a partition's ways are set and lines leave the ways it gives up; a tagged region draws a fresh
key when it is enabled and loses it when it is disabled; a channel retires at once while no region is enabled and otherwise
once a ladle has copied its granules. -/
def Obligations.WaysRegionsAndChannelsAreConfigured : Prop :=
  (∀ (s : State) (m : Master) (p : Nat) (v : Word), p < 9 → s.accepts .memCways p m .whole v.toNat →
    ∃ t, exec (.cacheWaysWrite m p v) s = .next t ∧ t.f MEM_CWAYS.WAYS p = bits v.toNat 63 48
      ∧ (∀ q, q ≠ p → t.f MEM_CWAYS.WAYS q = s.f MEM_CWAYS.WAYS q)
      ∧ (p ≠ 8 → t.mem.cache = s.mem.cache ∧ Leaves [] (fun r _ => r = .memCways) s t)
      ∧ (p = 8 → ∀ c ∈ t.mem.cache, c ∈ s.mem.cache
          ∧ ¬(bit (s.f MEM_CWAYS.WAYS 8) c.way = true ∧ bit (bits v.toNat 63 48) c.way = false))
      ∧ (∀ k, ¬ s.hwByte k → t.byte k = s.byte k)
      ∧ Leaves [.cache, .cells, .poison, .flips, .chkFlips] (fun r _ => r = .memCways) s t)
  ∧ (∀ (s : State) (m : Master) (n : Nat) (v : Word), n < 32 → s.accepts .memRgn1 n m .whole (withBit v 20) →
    ∃ t, exec (.regionEnable m n v) s = .next t ∧ t.fb MEM_RGN1.EN n = true
      ∧ t.f MEM_RGN1.LIMIT n = bits v.toNat 63 21 ∧ t.fb MEM_RGN1.TAG n = bit v.toNat 19
      ∧ t.fb MEM_RGN1.MIRROR n = bit v.toNat 18 ∧ t.f MEM_RGN1.OWNER n = bits v.toNat 17 14
      ∧ (s.fb MEM_RGN1.EN n = false → bit v.toNat 19 = true → NMap.find t.mem.keys n = some (Config.freeNat s.freeCtr))
      ∧ (∀ k, k ≠ n → NMap.find t.mem.keys k = NMap.find s.mem.keys k)
      ∧ Leaves [.keys, .freeCtr] (oneReg .memRgn1 n) s t)
  ∧ (∀ (s : State) (m : Master) (n : Nat) (v : Word), n < 32 → s.clears .memRgn1 n m .whole (withoutBit v 20) MEM_RGN1.EN →
    ∃ t, exec (.regionDisable m n v) s = .next t ∧ t.fb MEM_RGN1.EN n = false
      ∧ t.f MEM_RGN1.LIMIT n = s.f MEM_RGN1.LIMIT n ∧ t.f MEM_RGN1.OWNER n = s.f MEM_RGN1.OWNER n
      ∧ NMap.find t.mem.keys n = none ∧ (∀ k, k ≠ n → NMap.find t.mem.keys k = NMap.find s.mem.keys k)
      ∧ Leaves [.keys] (oneReg .memRgn1 n) s t)
  ∧ (∀ (s : State) (m : Master) (v : Word), s.accepts .memCtrl 0 m .whole (withBit v 51) → bit v.toNat 56 = false →
    ∃ t, exec (.retire m v) s = .next t ∧ t.f MEM_CTRL.RETIRE_CH 0 = bits v.toNat 54 52
      ∧ ((∀ n, n < 32 → s.fb MEM_RGN1.EN n = false) → t.fb MEM_CTRL.RETIRED 0 = true ∧ t.fb MEM_CTRL.RETIRE 0 = false)
      ∧ ((∃ n, n < 32 ∧ s.fb MEM_RGN1.EN n = true) → t.fb MEM_CTRL.RETIRE 0 = true
          ∧ t.fb MEM_CTRL.RETIRED 0 = s.fb MEM_CTRL.RETIRED 0
          ∧ ∃ mv ∈ t.mem.moves, mv.kind = .retire (bits v.toNat 54 52) ∧ mv.len = 4096 * t.granules ∧ mv.done = 0)
      ∧ t.mem.retCh = some (bits v.toNat 54 52) ∧ (∀ k, SameJob k s t)
      ∧ Leaves [.outbox, .keptIrqs, .retCh, .moves, .nextMove, .jobs]
          (fun r i => (r = .memCtrl ∨ r = .sysRegerr) ∧ i = 0) s t)
  ∧ (∀ s : State, s.fb MEM_CTRL.RETIRE 0 = true → s.retiring = false → ∃ t, exec .retireDone s = .next t
      ∧ t.fb MEM_CTRL.RETIRED 0 = true ∧ t.fb MEM_CTRL.RETIRE 0 = false ∧ Leaves [] (oneReg .memCtrl 0) s t)
  ∧ (∀ s : State, (s.fb MEM_CTRL.RETIRE 0 = false ∨ s.retiring = true) → exec .retireDone s = .next s)

/-- R206 to R209: free ladles are dealt, and a piece of a move that holds one moves its bytes; the move goes on or leaves.
A fill writes its pattern through the piece's range and a copy its source's bytes, and the job ends once every piece has
completed; a piece without a ladle does not run. -/
def Obligations.LadlesAndXferJobsMoveBytes : Prop :=
  (∀ (s : State) (k : Nat), s.mem.moves.find? (fun x => x.id == k) = none →
    ∃ t, exec (.ladlePieceDone k) s = .next t ∧ DealsOnly s t)
  ∧ (∀ (s s1 : State) (k a c : Nat) (v : Move) (bs : List Byte), s.mem.moves.find? (fun x => x.id == k) = some v →
    v.ladle = true → v.kind = .pour a c → v.toMem = false → v.key = 0 → v.form = 0 → s.f ARR_STATUS.STATE a ≠ 3 →
    (∃ o ∈ (s.arr a).async, o.serial = c) →
    instRead s.dealLadles v.inst (v.va + v.done) (min pieceBytes (v.len - v.done)) = (.ok bs, s1) →
    ∃ t, exec (.ladlePieceDone k) s = .next t
      ∧ (∀ i, NMap.get (t.arr a).mould 0 i = if v.maddr + v.done ≤ i ∧ i < v.maddr + v.done + bs.length
          then bs.getD (i - (v.maddr + v.done)) 0 else NMap.get (s.arr a).mould 0 i)
      ∧ (v.len ≤ v.done + min pieceBytes (v.len - v.done) → ∀ y ∈ t.mem.moves, y.id ≠ k)
      ∧ (v.done + min pieceBytes (v.len - v.done) < v.len →
          (t.mem.moves.find? (fun x => x.id == k)).map (fun m => { m with ladle := true })
            = some { v with done := v.done + min pieceBytes (v.len - v.done) })
      ∧ (∀ b, b ≠ a → t.arr b = s.arr b) ∧ (∀ j, SameJob j s t)
      ∧ Leaves (.arrays :: .jobs :: .moves :: accessParts) accessRegs s t)
  ∧ (∀ (s s1 : State) (k a c : Nat) (v : Move), s.mem.moves.find? (fun x => x.id == k) = some v → v.ladle = true →
    v.kind = .pour a c → v.toMem = true → v.key = 0 → v.form ≠ 2 →
    instWrite s.dealLadles v.inst (v.va + v.done) ((v.data.drop v.done).take (min pieceBytes (v.len - v.done)))
      = (.ok [], s1) →
    ∃ t, exec (.ladlePieceDone k) s = .next t ∧ t.mem.cells = s1.mem.cells ∧ (t.arr a).mould = (s.arr a).mould
      ∧ (∀ j, SameJob j s t) ∧ Leaves (.arrays :: .jobs :: .moves :: accessParts) accessRegs s t)
  ∧ (∀ (s : State) (k c : Nat) (v : Move), s.mem.moves.find? (fun x => x.id == k) = some v → v.ladle = true →
    v.kind = .retire c →
    ∃ t, exec (.ladlePieceDone k) s = .next t ∧ (∀ j, SameJob j s t) ∧ Leaves [.moves, .jobs] noReg s t
      ∧ (v.len ≤ v.done + min pieceBytes (v.len - v.done) → ∀ y ∈ t.mem.moves, y.id ≠ k)
      ∧ (v.done + min pieceBytes (v.len - v.done) < v.len →
          (t.mem.moves.find? (fun x => x.id == k)).map (fun m => { m with ladle := true })
            = some { v with done := v.done + min pieceBytes (v.len - v.done) }))
  ∧ (∀ (s : State) (j p : Nat) (x : Job), s.dealLadles.runs j 9 x →
    (xfOp x ≠ 0 ∨ p ∈ x.doneParts ∨ cdiv (xfLen x) xferPiece ≤ p ∨ x.ladles = 0) →
    ∃ t, exec (.xferCopy j p) s = .next t ∧ DealsOnly s t)
  ∧ (∀ (s : State) (j p : Nat) (x : Job), s.runs j 9 x → 0 < x.ladles → xfOp x = 1 → xfCrypt x = 0 → p ∉ x.doneParts →
    p < cdiv (xfLen x) xferPiece → xfDst x % 128 = 0 → xfLen x % 128 = 0 → bits (s.r .dtuIommu 2) 3 0 = 1 →
    s.clockLost .fclk = false →
    (∀ a, xfDst x ≤ a → a < xfDst x + xfLen x →
      s.place a = .dram (a - dramBase) ∧ s.outOk (s.instFlask x.inst) a = true) →
    ∃ t y, exec (.xferFill j p) s = .next t ∧ t.job j = some y ∧ p ∈ y.doneParts
      ∧ (cdiv (xfLen x) xferPiece ≤ (insNat x.doneParts p).length → y.phase = .ended ∧ y.status = x.xferStatus.1)
      ∧ ((insNat x.doneParts p).length < cdiv (xfLen x) xferPiece → y.phase = .running)
      ∧ (∀ a, ¬ s.hwByte a → t.byte a
          = if xfDst x + xferPiece * p ≤ a ∧ a < xfDst x + min (xfLen x) (xferPiece * (p + 1))
            then (toLE 8 (xfFill x)).getD ((a - xfDst x) % 8) 0 else s.byte a)
      ∧ (∀ k, k ≠ j → SameJob k s t)
      ∧ Leaves (.jobs :: .moves :: accessParts) accessRegs s t)
  ∧ (∀ (s : State) (j p : Nat) (x : Job), s.runs j 9 x → 0 < x.ladles → xfOp x = 0 → xfCrypt x = 0 → x.stop = false →
    p ∉ x.doneParts → p < cdiv (xfLen x) xferPiece → xfDst x % 128 = 0 → xfSrc x % 64 = 0 → xfLen x % 128 = 0 →
    s.clockLost .fclk = false → s.clockLost .mclk = false → bits (s.r .dtuIommu 2) 3 0 = 1 → s.mem.flips = [] →
    s.mem.chkFlips = [] →
    (∀ a, xfDst x ≤ a → a < xfDst x + xfLen x →
      s.place a = .dram (a - dramBase) ∧ s.outOk (s.instFlask x.inst) a = true) →
    (∀ a, xfSrc x ≤ a → a < xfSrc x + xfLen x →
      s.place a = .dram (a - dramBase) ∧ s.outOk (s.instFlask x.inst) a = true ∧ (a - dramBase) / 128 ∉ s.mem.poison
        ∧ s.taggedAt (a - dramBase) = false ∧ ¬ s.hwByte a) →
    (xfSrc x + xfLen x ≤ xfDst x ∨ xfDst x + xfLen x ≤ xfSrc x) →
    ∃ t y, exec (.xferCopy j p) s = .next t ∧ t.job j = some y ∧ p ∈ y.doneParts
      ∧ (cdiv (xfLen x) xferPiece ≤ (insNat x.doneParts p).length → y.phase = .ended ∧ y.status = x.xferStatus.1)
      ∧ (∀ a, ¬ s.hwByte a → t.byte a
          = if xfDst x + xferPiece * p ≤ a ∧ a < xfDst x + min (xfLen x) (xferPiece * (p + 1))
            then s.byte (xfSrc x + (a - xfDst x)) else s.byte a)
      ∧ (∀ k, k ≠ j → SameJob k s t)
      ∧ Leaves (.jobs :: .moves :: accessParts) accessRegs s t)

/-- R211 to R214: a walk answers its master or reports a fault; the command at the head of the DTU's queue is taken while
the queue runs, and advances its head: an invalidation removes exactly the cached translations that it selects, with an
address those of the leaf entry that maps it; a fence writes its data. A command that the DTU does not support sets
cmd_ill, and a queue that is off takes none (formats: log entry 7, the model's choice). -/
def Obligations.WalksAnswerAndInvalidationsForget : Prop :=
  (∀ (s s1 : State) (i va pa : Nat) (w : Bool), i < 256 → s.xlate i va w = (some pa, s1) →
    ∃ t, exec (.pageWalk i va w) s = .next t ∧ t.outbox.head? = some (.done (.inst i))
      ∧ t.dtu.tlb = s1.dtu.tlb ∧ t.mem.cells = s1.mem.cells
      ∧ Leaves accessParts accessRegs s t)
  ∧ (∀ (s : State) (i va : Nat) (w : Bool), i < 256 → bits (s.r .dtuIommu 2) 3 0 = 1 →
    s.outOk (s.instFlask i) va = true →
    ∃ t, exec (.pageWalk i va w) s = .next t ∧ t.outbox = .done (.inst i) :: s.outbox ∧ Leaves [.outbox] noReg s t)
  ∧ (∀ (s : State) (i va : Nat) (w : Bool), i < 256 →
    (bits (s.r .dtuIommu 2) 3 0 = 0 ∨ (bits (s.r .dtuIommu 2) 3 0 = 1 ∧ s.outOk (s.instFlask i) va = false)) →
    ∃ t, exec (.pageWalk i va w) s = .next t ∧ t.outbox.head? = some (.xlateFault (.inst i))
      ∧ t.dtu.faults = { inst := i, va := va, write := w
                         cause := if bits (s.r .dtuIommu 2) 3 0 = 0 then 256 else if w then 7 else 5 } :: s.dtu.faults
      ∧ Leaves accessParts accessRegs s t)
  ∧ (∀ (s s1 : State) (bs : List Byte), s.cqRuns = true → physRead s 8 s.cqAddr 16 = (.ok bs, s1) →
    let cq := .dtuTlb :: .dtuContexts :: accessParts
    (∀ g p va : Option Nat,
      leAt bs 0 8 = 1 + cqField va 10 64 % 2 ^ 64 + cqField p 32 12 + cqField g 33 44 →
      leAt bs 8 8 = va.getD 0 / 4096 * 1024 → cqLegal (leAt bs 0 8) = true →
      ∃ t, exec (.iotinvalVma g p va) s = .next t
        ∧ (∀ e, e ∈ t.dtu.tlb ↔ e ∈ s.dtu.tlb ∧ ¬(sel g e.gscid = true ∧ sel p e.pscid = true
            ∧ (∀ a, va = some a → a / 4096 / 512 ^ e.slv = e.vpn / 512 ^ e.slv)))
        ∧ t.r .dtuIommu 4 = s.cqNext.r .dtuIommu 4 ∧ Leaves cq accessRegs s t)
    ∧ (∀ g a : Option Nat,
      leAt bs 0 8 = 1 + 128 + cqField a 10 64 % 2 ^ 64 + cqField g 33 44 →
      leAt bs 8 8 = a.getD 0 / 4096 * 1024 → cqLegal (leAt bs 0 8) = true →
      ∃ t, exec (.iotinvalGvma g a) s = .next t
        ∧ (∀ e, e ∈ t.dtu.tlb ↔ e ∈ s.dtu.tlb ∧ ¬(sel g e.gscid = true
            ∧ (∀ p, a = some p → p / 4096 / 512 ^ e.glv = e.gpn / 512 ^ e.glv)))
        ∧ t.r .dtuIommu 4 = s.cqNext.r .dtuIommu 4 ∧ Leaves cq accessRegs s t)
    ∧ (∀ d : Option Nat, leAt bs 0 8 = 3 + cqField d 33 40 → leAt bs 8 8 = 0 → cqLegal (leAt bs 0 8) = true →
      (∀ i, i < 256 → sel d i = true → s.tdiLocked i = false) →
      ∃ t, exec (.iodirInvalDdt d) s = .next t
        ∧ (∀ e, e ∈ t.dtu.tlb ↔ e ∈ s.dtu.tlb ∧ sel d e.inst = false)
        ∧ (∀ e, e ∈ t.dtu.ddtc ↔ e ∈ s.dtu.ddtc ∧ sel d e.1 = false)
        ∧ t.r .dtuIommu 4 = s.cqNext.r .dtuIommu 4 ∧ Leaves cq accessRegs s t)
    ∧ (leAt bs 0 8 = 2 → leAt bs 8 8 = 0 → ∀ d, ∃ t, exec (.iofenceC none d) s = .next t
        ∧ t.r .dtuIommu 4 = s.cqNext.r .dtuIommu 4 ∧ t.mem.cells = s1.mem.cells ∧ Leaves accessParts accessRegs s t)
    ∧ (∀ (s2 : State) (a d : Nat), leAt bs 0 8 = 2 + 2 ^ 10 + d * 2 ^ 32 → leAt bs 8 8 = a / 4 →
        cqLegal (leAt bs 0 8) = true → physWrite s1 8 a (toLE 4 d) = (.ok [], s2) →
        ∃ t, exec (.iofenceC (some a) d) s = .next t ∧ t.mem.cells = s2.mem.cells
          ∧ t.r .dtuIommu 4 = s.cqNext.r .dtuIommu 4 ∧ Leaves accessParts accessRegs s t)
    ∧ (cqLegal (leAt bs 0 8) = false → ∀ d, ∃ t, exec (.iofenceC none d) s = .next t
        ∧ bit (t.r .dtuIommu 9) 10 = true ∧ t.r .dtuIommu 4 = s.r .dtuIommu 4 ∧ t.cqRuns = false))
  ∧ (∀ (s : State) (g p va d a : Option Nat) (n : Nat), s.cqRuns = false →
    exec (.iotinvalVma g p va) s = .next s ∧ exec (.iotinvalGvma g a) s = .next s
      ∧ exec (.iodirInvalDdt d) s = .next s ∧ exec (.iofenceC a n) s = .next s)

/-- R215 to R218, R223: the life of an instance: CREATE makes it active, QUIESCE stops its queues and aborts what has not
started, QUIESCE_DONE, RESUME, RESET, REMOVE and SPILL_ALL take it where the rules say. -/
def Obligations.InstancesLiveByTheirCommands : Prop :=
  (∀ (s : State) (m : Master) (i : Nat) (v : Word), i < 256 → s.accepts .sysInst i m .whole (withBit v 59) →
    ∃ t, exec (.instanceCreate m i v) s = .next t ∧ t.f SYS_INST.STATE i = 1 ∧ t.fb SYS_INST.CREATE i = false
      ∧ t.f SYS_INST.FLASK i = bits v.toNat 53 51 ∧ Leaves [] (oneReg .sysInst i) s t)
  ∧ (∀ (s : State) (m : Master) (i : Nat) (v : Word), i < 256 → s.accepts .sysInst i m .whole (withBit v 58) →
    ∃ t, exec (.quiesce m i v) s = .next t ∧ t.f SYS_INST.STATE i = 2 ∧ t.fb SYS_INST.QUIESCE i = true
      ∧ (s.tdiLocked i = true → t.f SYS_INST.TDI i = 4)
      ∧ (∀ q ∈ instQueues i, t.f SPR_QSTAT.STATE q = 4 ∧ q ∉ t.work.sprue.pending ∧ q ∉ t.work.sprue.round
          ∧ q ∉ t.work.sprue.ready)
      ∧ (∀ j x, s.job j = some x → x.inst = i → x.phase ≠ .ended → x.opcode ≠ 8 → s.jobOnArray j = false →
          s.jobInPair j = false →
          ∃ y, t.job j = some y ∧ y.phase = .ended ∧ y.status = stAborted)
      ∧ ((s.work.jobs.map Job.id).Nodup → ∀ j x, s.job j = some x → x.inst ≠ i → t.job j = some x))
  ∧ (∀ (s : State) (i : Nat), i < 256 → s.f SYS_INST.STATE i = 2 → s.draining i = false →
    ∃ t, exec (.quiesceDone i) s = .next t
      ∧ (s.instJobs i = [] → t.f SYS_INST.STATE i = 3 ∧ t.fb SYS_INST.QUIESCE i = false)
      ∧ (s.instJobs i ≠ [] → t.f SYS_INST.STATE i = 2)
      ∧ (∀ j x, s.job j = some x → x.inst = i → ∃ y, t.job j = some y ∧ y.phase = .ended)
      ∧ Leaves [.jobs] (oneReg .sysInst i) s t)
  ∧ (∀ (s : State) (i : Nat), i < 256 → (s.f SYS_INST.STATE i ≠ 2 ∨ s.draining i = true) →
    exec (.quiesceDone i) s = .next s)
  ∧ (∀ (s : State) (m : Master) (i : Nat) (v : Word), i < 256 → s.accepts .sysInst i m .whole (withBit v 57) →
    ∃ t, exec (.resume m i v) s = .next t ∧ t.f SYS_INST.STATE i = 1 ∧ t.fb SYS_INST.RESUME i = false
      ∧ (∀ q ∈ instQueues i, if (s.q q).preQuiesce = 3 ∨ s.f SPR_QSTAT.STATE q = 3 then t.f SPR_QSTAT.STATE q = 3 else t.f SPR_QSTAT.STATE q ≤ 2)
      ∧ Leaves [.sprue] (fun r k => (r = .sysInst ∧ k = i) ∨ (r = .sprQstat ∧ k ∈ instQueues i)) s t)
  ∧ (∀ (s : State) (m : Master) (i : Nat) (v : Word), i < 256 → s.accepts .sysInst i m .whole (withBit v 56) →
    ∃ t, exec (.instanceReset m i v) s = .next t ∧ t.f SYS_INST.STATE i = 4 ∧ t.fb SYS_INST.RESET i = true
      ∧ (∀ q ∈ instQueues i, t.fb SPR_QCFG.EN q = false ∧ t.r .sprDb q = 0 ∧ t.r .sprQstat q = 0)
      ∧ (∀ e ∈ t.dtu.tlb, e.inst ≠ i) ∧ t.fb ATT_IPOOL.EN i = false ∧ t.f ATT_ISPILLED.SPILLED i = 0
      ∧ (∀ k, s.f ATT_IFRAMES.RC_BASE i ≤ k → k < s.f ATT_IFRAMES.RC_BASE i + s.f ATT_IFRAMES.FRAMES i →
          NMap.get t.work.refc 0 k = 0)
      ∧ t.work.jobs = s.work.jobs ∧ t.mem.cells = s.mem.cells)
  ∧ (∀ (s : State) (i : Nat), i < 256 → s.f SYS_INST.STATE i = 4 → ∃ t, exec (.instanceResetDone i) s = .next t
      ∧ t.f SYS_INST.STATE i = 1 ∧ t.fb SYS_INST.RESET i = false ∧ Leaves [] (oneReg .sysInst i) s t)
  ∧ (∀ (s : State) (i : Nat), i < 256 → s.f SYS_INST.STATE i ≠ 4 → exec (.instanceResetDone i) s = .next s)
  ∧ (∀ (s : State) (m : Master) (i : Nat) (v : Word), i < 256 → s.accepts .sysInst i m .whole (withBit v 55) →
    ∃ t, exec (.remove m i v) s = .next t ∧ t.f SYS_INST.STATE i = 5 ∧ t.fb SYS_INST.REMOVE i = true
      ∧ (∀ q ∈ instQueues i, t.fb SPR_QCFG.EN q = false) ∧ (∀ e ∈ t.dtu.tlb, e.inst ≠ i)
      ∧ t.mem.cells = s.mem.cells)
  ∧ (∀ (s : State) (i : Nat), i < 256 → s.f SYS_INST.STATE i = 5 → ∃ t, exec (.removeDone i) s = .next t
      ∧ t.f SYS_INST.STATE i = 0 ∧ t.fb SYS_INST.REMOVE i = false ∧ t.f SYS_INST.TDI i = 0
      ∧ (∀ k, k < 512 → s.f SYS_VFMAP.INSTANCE k = i → t.r .sysVfmap k = 0)
      ∧ (∀ c ∈ t.mem.cache, bit (s.f MEM_CWAYS.WAYS (s.instFlask i)) c.way = true → c.dirty = false)
      ∧ (∀ k, ¬ s.hwByte k → t.byte k = s.byte k)
      ∧ (∀ h ∈ t.mem.holders, h.st = .m → ∀ e ∈ s.engines (s.instFlask i), h.who ≠ .vec e)
      ∧ Leaves [.cache, .cells, .holders, .poison, .flips, .chkFlips] (fun r k => (r = .sysInst ∧ k = i) ∨ r = .sysVfmap) s t)
  ∧ (∀ (s : State) (i : Nat), i < 256 → s.f SYS_INST.STATE i ≠ 5 → exec (.removeDone i) s = .next s)
  ∧ (∀ (s : State) (m : Master) (i : Nat) (v : Word), i < 256 → s.accepts .sysInst i m .whole (withBit v 54) →
    ∃ t, exec (.spillAll m i v) s = .next t ∧ t.fb SYS_INST.SPILL_ALL i = false ∧ t.f SYS_INST.STATE i = 3
      ∧ (∀ k, (∀ p ∈ s.work.ctxs, p.1 = k → p.2.state ≠ 1 ∨ p.2.inst ≠ i ∨ p.2.spread = true) → t.ctx k = s.ctx k)
      ∧ (∀ k, t.ctx k = s.ctx k ∨ t.ctx k = {}) ∧ t.work.jobs = s.work.jobs)

/-- R225 to R229, R231, R232, R235, R236: the Crucible's answers: TDISP locks and starts, keys are delivered and revoked
with their slots per tenant, consents gate debug accesses, reports carry the nonce, and a restarting Crucible says so. (The
answer to a consent for a flask that the device does not have, to a KEY_ID delivered twice, and the port's session number
are the model's choices: log entries 2, 48 and 181.) -/
def Obligations.TrustRequestsAreAnswered : Prop :=
  (∀ (s : State) (p vf i : Nat), p < 2 → vf < 256 → s.crucibleUp = true → s.boundTo p vf = some i →
    (∀ k, k < 256 → k ≠ i → s.f SYS_INST.STATE k = 0 ∨ s.instFlask k ≠ s.instFlask i) → s.f SYS_INST.TDI i = 1 →
    ∃ t, exec (.lockInterfaceRequest p vf) s = .next t ∧ t.f SYS_INST.TDI i = 2
      ∧ t.outbox.head? = some (.spdm (vfNo p vf) true [])
      ∧ NMap.find t.sys.trust.tdiSnap i = some (ctxWords (s.readDc (s.instFlask i) i).1)
      ∧ Leaves (.trust :: accessParts) (fun r k => accessRegs r k ∨ (r = .sysInst ∧ k = i)) s t)
  ∧ (∀ (s : State) (p vf : Nat), p < 2 → vf < 256 → s.crucibleUp = true →
    (s.boundTo p vf = none ∨ ∃ i, s.boundTo p vf = some i ∧ s.f SYS_INST.TDI i ≠ 1) →
    ∃ t, exec (.lockInterfaceRequest p vf) s = .next t ∧ t.outbox = .spdm (vfNo p vf) false [] :: s.outbox
      ∧ Leaves [.outbox] noReg s t)
  ∧ (∀ (s : State) (p vf : Nat), p < 2 → vf < 256 → s.crucibleUp = false →
    exec (.lockInterfaceRequest p vf) s = .next s ∧ exec (.startInterfaceRequest p vf) s = .next s
      ∧ exec (.getDeviceInterfaceReport p vf) s = .next s)
  ∧ (∀ (s : State) (p vf i : Nat), p < 2 → vf < 256 → s.crucibleUp = true → s.boundTo p vf = some i →
    (s.f SYS_INST.TDI i = 2 → ∃ t, exec (.startInterfaceRequest p vf) s = .next t ∧ t.f SYS_INST.TDI i = 3
        ∧ t.outbox = .spdm (vfNo p vf) true [] :: s.outbox ∧ Leaves [.outbox] (oneReg .sysInst i) s t)
    ∧ (s.f SYS_INST.TDI i ≠ 2 → ∃ t, exec (.startInterfaceRequest p vf) s = .next t
        ∧ t.outbox = .spdm (vfNo p vf) false [] :: s.outbox ∧ Leaves [.outbox] noReg s t)
    ∧ (s.tdiLocked i = true → ∃ t, exec (.getDeviceInterfaceReport p vf) s = .next t
        ∧ t.outbox = .spdm (vfNo p vf) true (natBytes s.unitReport) :: s.outbox ∧ Leaves [.outbox] noReg s t)
    ∧ (s.tdiLocked i = false → ∃ t, exec (.getDeviceInterfaceReport p vf) s = .next t
        ∧ t.outbox = .spdm (vfNo p vf) false [] :: s.outbox ∧ Leaves [.outbox] noReg s t))
  ∧ (∀ (s : State) (core : Nat) (a7 : Word) (args : List Word), core < 16 → args.length = 6 → s.sys.power.mode = .on →
    s.sys.power.entry = 1 → a7.toNat = 0x47570001 →
    ((s.fwp 2).running = false → ∃ t a1, exec (.monitorCall core a7 args) s = .next t
        ∧ t.outbox = .monitorReply core mbRestarting a1 :: s.outbox ∧ Leaves [.freeCtr, .outbox] noReg s t)
    ∧ ((s.fwp 2).running = true → Config.monitorMsg args = none → ∃ t a0 a1, exec (.monitorCall core a7 args) s = .next t
        ∧ t.outbox = .monitorReply core a0 a1 :: s.outbox ∧ Leaves [.freeCtr, .outbox] noReg s t)
    ∧ (∃ t, exec (.monitorCall core a7 args) s = .next t ∧ t.mem.mbx = s.mem.mbx))
  ∧ (∀ (s : State) (core : Nat) (a7 : Word) (args : List Word), core < 16 → args.length = 6 →
    (s.sys.power.entry ≠ 1 ∨ a7.toNat ≠ 0x47570001) → exec (.monitorCall core a7 args) s = .next s)
  ∧ (∀ (s : State) (n : Nat), s.crucibleUp = true → ∃ t, exec (.keyExchange n) s = .next t
      ∧ t.session n = some s.sys.trust.nextSession ∧ t.sys.trust.nextSession = s.sys.trust.nextSession + 1
      ∧ (∀ m, m ≠ n → t.session m = s.session m) ∧ t.sys.trust.keys = s.sys.trust.keys
      ∧ t.outbox = .spdm n true [] :: s.outbox ∧ Leaves [.outbox, .trust] noReg s t)
  ∧ (∀ (s : State) (n : Nat) (p : KeyPolicy), s.crucibleUp = true →
    (∀ v, s.session n = some v → p.flask < 8 → s.sys.trust.keys.length < 1024 → s.heldKey n p.keyId = none →
      let k : HeldKey := { tenant := n, session := v, pol := p, digests := s.digests }
      ∃ t, exec (.keyDeliver n p) s = .next t ∧ t.sys.trust.keys = s.sys.trust.keys ++ [k]
        ∧ t.heldKey n p.keyId = some k
        ∧ (∀ m i, (m ≠ n ∨ i ≠ p.keyId) → t.heldKey m i = s.heldKey m i) ∧ t.sys.trust.sessions = s.sys.trust.sessions
        ∧ t.outbox = .spdm n true [] :: s.outbox ∧ Leaves [.outbox, .trust] noReg s t)
    ∧ ((s.session n = none ∨ 8 ≤ p.flask ∨ 1024 ≤ s.sys.trust.keys.length ∨ (s.heldKey n p.keyId).isSome = true) →
      ∃ t, exec (.keyDeliver n p) s = .next t
        ∧ t.outbox = .spdm n false [] :: s.outbox ∧ Leaves [.outbox] noReg s t))
  ∧ (∀ (s : State) (n k : Nat), s.crucibleUp = true →
    ((s.session n).isSome = true → (s.heldKey n k).isSome = true → ∃ t, exec (.keyRevoke n k) s = .next t
      ∧ t.heldKey n k = none ∧ (∀ m i, (m ≠ n ∨ i ≠ k) → t.heldKey m i = s.heldKey m i)
      ∧ (∀ f, f < 8 → ∀ e, e ∈ (t.flask f).slots ↔ e ∈ (s.flask f).slots ∧ ¬(e.2.tenant = n ∧ e.2.keyId = k))
      ∧ t.outbox = .spdm n true [] :: s.outbox ∧ Leaves [.flasks, .outbox, .trust] noReg s t)
    ∧ (((s.session n).isNone = true ∨ (s.heldKey n k).isNone = true) → ∃ t, exec (.keyRevoke n k) s = .next t
      ∧ t.outbox = .spdm n false [] :: s.outbox ∧ Leaves [.outbox] noReg s t))
  ∧ (∀ (s : State) (n f sc hour key dig : Nat), f < 8 → s.crucibleUp = true → s.consentKey n key = true → sc % 4 ≠ 0 →
    ∃ t, exec (.consentInstall n f sc s.sys.trust.deviceId hour key dig true) s = .next t
      ∧ (t.flask f).consent = some { scope := sc, lastHour := hour, digest := dig }
      ∧ (∀ e, e ∈ (t.flask f).slots ↔ e ∈ (s.flask f).slots
          ∧ ∀ k, s.heldKey e.2.tenant e.2.keyId = some k → k.pol.debugOk = true)
      ∧ t.outbox = .spdm n true [] :: s.outbox
      ∧ (∀ g, g ≠ f → t.flask g = s.flask g) ∧ Leaves [.flasks, .outbox] noReg s t)
  ∧ (∀ (s : State) (n f sc hour key dig : Nat), f < 8 → s.crucibleUp = true → s.consentKey n key = true → sc % 4 = 0 →
    ∃ t, exec (.consentInstall n f sc s.sys.trust.deviceId hour key dig true) s = .next t
      ∧ t.flask f = { s.flask f with consent := none } ∧ (∀ g, g ≠ f → t.flask g = s.flask g)
      ∧ t.outbox = .spdm n true [] :: s.outbox ∧ Leaves [.flasks, .outbox] noReg s t)
  ∧ (∀ (s : State) (n f sc dev hour key dig : Nat) (ok : Bool), s.crucibleUp = true →
    (ok = false ∨ s.consentKey n key = false ∨ dev ≠ s.sys.trust.deviceId ∨ 8 ≤ f) →
    ∃ t, exec (.consentInstall n f sc dev hour key dig ok) s = .next t
      ∧ t.outbox = .spdm n false [] :: s.outbox ∧ Leaves [.outbox] noReg s t)
  ∧ (∀ (s : State) (f : Nat) (c : Consent), f < 8 → (s.flask f).consent = some c →
    (c.lastHour < s.sys.record.poh / 3600 → ∃ t, exec (.consentExpiry f) s = .next t
      ∧ t.flask f = { s.flask f with consent := none } ∧ (∀ g, g ≠ f → t.flask g = s.flask g)
      ∧ Leaves [.flasks] noReg s t)
    ∧ (s.sys.record.poh / 3600 ≤ c.lastHour → exec (.consentExpiry f) s = .next s))
  ∧ (∀ (s : State) (f : Nat) (k : DebugKind) (u : TBUnit), f < 8 → isTBUnit u = true →
    ∃ t, exec (.debugAccess f k (some u)) s = .next t
      ∧ t.outbox = (if s.unitHeld f u && (s.flask f).consent.any (fun c => bit c.scope (if k = .halt then 0 else 1))
          then Out.debugServed f else .debugRefused f) :: s.outbox
      ∧ Leaves [.outbox] noReg s t)
  ∧ (∀ (s : State) (f : Nat) (k : DebugKind), f < 8 → ∃ t, exec (.debugAccess f k none) s = .next t
      ∧ t.outbox = (if s.sys.trust.manufacturing then Out.debugServed f else .debugRefused f) :: s.outbox
      ∧ Leaves [.outbox] noReg s t)
  ∧ (∀ (s : State) (n nonce : Nat), s.crucibleUp = true → nonce < 2 ^ 256 → ∃ t bs, exec (.getMeasurements n nonce) s = .next t
      ∧ t.outbox = .spdm n true (natBytes bs) :: s.outbox ∧ bs.length = 6672 ∧ leAt bs 0 4 = 0x41545354
      ∧ leNat ((bs.drop 8).take 32) = nonce
      ∧ ((bs.drop 104).take 432) = (s.digests.flatMap fun d => toLE 48 d)
      ∧ Leaves [.freeCtr, .outbox] noReg s t)
  ∧ (∀ (s : State) (n k : Nat), s.crucibleUp = true → ∃ t, exec (.getCertificate n k) s = .next t
      ∧ t.outbox = .spdm n (decide (k < 2)) (if k < 2 then Config.certChain k else []) :: s.outbox
      ∧ Leaves [.outbox] noReg s t)
  ∧ (∀ (s : State) (p k key : Nat), p < 2 → s.crucibleUp = true → (s.session (portTenant p)).isSome = true →
    ∃ t, exec (.ideKm p k key) s = .next t ∧ t.outbox = .spdm p (decide (k ≤ 8)) [] :: s.outbox
      ∧ (k ≤ 8 → NMap.get t.sys.trust.ide 0 (16 * p + k) = key)
      ∧ Leaves [.outbox, .trust] noReg s t)
  ∧ (∀ (s : State) (p k key : Nat), p < 2 → s.crucibleUp = true → (s.session (portTenant p)).isSome = false →
    ∃ t, exec (.ideKm p k key) s = .next t ∧ t.outbox = .spdm p false [] :: s.outbox ∧ Leaves [.outbox] noReg s t)

/-- R143, R239 to R242: a vendor instruction on an engine that runs an item with SEW 32 writes its results into vd's group,
folds them into the item's signature and changes nothing else; with another SEW it is illegal and its item ends in a
JOB_FAULT; the instructions before it write their registers, CSR 800h is VDWFMT; VEXP has the special values of R240. (That
inactive elements of VDWS0 keep their values is DEDUCED, log entry 79; the fold's widths are the model's, log entry 176.) -/
def Obligations.VendorInstructionsWriteTheirGroup : Prop :=
  (∀ (s : State) (e : Nat) (w : BitVec 32), e < 16 → (s.vec e).item.isSome = true → bits w.toNat 6 0 = 0x5B →
    bits w.toNat 14 12 = 0 → (s.vec e).sew = 32 → (s.vec e).vl ≤ 2048 →
    let folded (t : State) : Prop :=
      (t.vec e).sig = (({ t.vec e with sig := (s.vec e).sig } : VecSt).foldRegs (vdOf w) (s.vec e).lmul).sig
        ∧ (∀ k, (∀ i, i < (s.vec e).vl → vkey (vdOf w) i ≠ k) → NMap.get (t.vec e).vreg 0 k = NMap.get (s.vec e).vreg 0 k)
        ∧ (t.vec e).item = (s.vec e).item ∧ (t.vec e).store = (s.vec e).store
        ∧ (∀ n, n ≠ e → t.vec n = s.vec n) ∧ Leaves [.vecs] noReg s t
    (funct6Of w = 0 → vs1Of w = 0 → ∃ t, exec (.vexpV e [] w) s = .next t
      ∧ (∀ i, i < (s.vec e).vl → (t.vec e).el (vdOf w) i
          = (if vmOf w || (s.vec e).mask i then vexp ((s.vec e).el (vs2Of w) i) else (s.vec e).el (vdOf w) i) % 2 ^ 32)
      ∧ folded t)
    ∧ (funct6Of w = 1 → vs1Of w = 0 → vmOf w = true → (s.vec e).overlap (vdOf w) (vs2Of w) = false → 3 ≤ (s.vec e).vl →
      let a := foldChunk ((s.vec e).fold (vdOf w)) ((s.vec e).fold (vs2Of w))
      ∃ t, exec (.vlsemVv e [] w) s = .next t ∧ (t.vec e).el (vdOf w) 0 = a.m % 2 ^ 32
        ∧ (t.vec e).el (vdOf w) 1 = a.l % 2 ^ 32
        ∧ (∀ i o, a.o[i]? = some o → (t.vec e).el (vdOf w) (i + 2) = o % 2 ^ 32) ∧ folded t)
    ∧ (∀ ps : List Nat, bits (s.vec e).fmt 3 0 ≤ 10 → bits (s.vec e).fmt 7 4 ≤ 10 → (s.vec e).dws w = some ps →
      (funct6Of w = 2 → vmOf w = true → ∃ t, exec (.vdwsVv e [] w) s = .next t
        ∧ (∀ i p, ps[i]? = some p → (t.vec e).el (vdOf w) i = f32add ((s.vec e).el (vdOf w) i) p % 2 ^ 32) ∧ folded t)
      ∧ (funct6Of w = 3 → ∃ t, exec (.vdws0Vv e [] w) s = .next t
        ∧ (∀ i p, ps[i]? = some p → (t.vec e).el (vdOf w) i
            = (if vmOf w || (s.vec e).mask i then p else (s.vec e).el (vdOf w) i) % 2 ^ 32) ∧ folded t)))
  ∧ (∀ (s : State) (e : Nat) (w : BitVec 32) (i : VItem) (x : Job) (c : Instr × Nat), e < 16 →
    c ∈ [(Instr.vexpV e [] w, 0), (.vlsemVv e [] w, 1), (.vdwsVv e [] w, 2), (.vdws0Vv e [] w, 3)] →
    (s.vec e).item = some i → bits w.toNat 6 0 = 0x5B → bits w.toNat 14 12 = 0 → funct6Of w = c.2 →
    ((s.vec e).sew ≠ 32 ∨ (0 < c.2 ∧ c.2 < 3 ∧ vmOf w = false) ∨ (c.2 < 2 ∧ vs1Of w ≠ 0)
      ∨ (c.2 = 1 ∧ ((s.vec e).overlap (vdOf w) (vs2Of w) = true ∨ (s.vec e).vl < 3))
      ∨ (1 < c.2 ∧ (10 < bits (s.vec e).fmt 3 0 ∨ 10 < bits (s.vec e).fmt 7 4 ∨ (s.vec e).dws w = none))) →
    s.pairOf true e = none → s.job i.job = some x → x.phase ≠ .ended →
    ∃ t y, exec c.1 s = .next t ∧ t.job i.job = some y ∧ y.phase = .ended ∧ y.status = stJobFault ∧ y.detail = some i.item)
  ∧ (∀ (s : State) (e : Nat) (pre : List VecStep) (w : BitVec 32), e < 16 →
    ((s.vec e).item = none → exec (.vexpV e pre w) s = .next s ∧ exec (.vlsemVv e pre w) s = .next s
      ∧ exec (.vdwsVv e pre w) s = .next s ∧ exec (.vdws0Vv e pre w) s = .next s)
    ∧ (bits w.toNat 6 0 ≠ 0x5B → exec (.vexpV e [] w) s = .next s ∧ exec (.vlsemVv e [] w) s = .next s
      ∧ exec (.vdwsVv e [] w) s = .next s ∧ exec (.vdws0Vv e [] w) s = .next s)
    ∧ exec (.vexpV e pre w) s = exec (.vexpV e [] w) (s.vecSteps e pre)
    ∧ exec (.vlsemVv e pre w) s = exec (.vlsemVv e [] w) (s.vecSteps e pre)
    ∧ exec (.vdwsVv e pre w) s = exec (.vdwsVv e [] w) (s.vecSteps e pre)
    ∧ exec (.vdws0Vv e pre w) s = exec (.vdws0Vv e [] w) (s.vecSteps e pre))
  ∧ (∀ (s : State) (e : Nat) (p : VecStep), (s.vec e).item.isSome = true →
    let t := s.vecSteps e [p]
    (∀ n, n ≠ e → t.vec n = s.vec n) ∧ Leaves [.vecs] noReg s t ∧ NMap.get (t.vec e).xreg 0 0 = NMap.get (s.vec e).xreg 0 0
      ∧ (∀ r v, p = .x r v → 0 < r → r < 32 → v < 2 ^ 64 → NMap.get (t.vec e).xreg 0 r = v)
      ∧ (∀ r v, p = .f r v → r < 32 → v < 2 ^ 64 → NMap.get (t.vec e).freg 0 r = v)
      ∧ (∀ r els, p = .v r els → r < 32 → ∀ i v, i < 64 → els[i]? = some v → (t.vec e).el r i = v % 2 ^ 32)
      ∧ (∀ v, p = .csr 0x800 v → (t.vec e).fmt = v % 256)
      ∧ (∀ r, p = .time r → 0 < r → r < 32 → NMap.get (t.vec e).xreg 0 r = s.clock.ns))
  ∧ vexp 0 = 0x3F800000 ∧ vexp 0x80000000 = 0x3F800000 ∧ vexp 0x7F800000 = 0x7F800000 ∧ vexp 0xFF800000 = 0
  ∧ vexp 0x42B17218 = 0x7F800000 ∧ vexp 0xC2CFF1B6 = 0 ∧ vexp 0x7F800001 = 0x7FC00000

/-- R143, R181, R216, R243 to R245, R253: no engine of a shared flask stays free while it may take work; an item that ends
completes its part, one that faults or overstays ends its job; the end of an item of a pair gives its signature; a preempted
item is saved and resumes with its context. (The places within the context and the whole kept context of batches and rows
are the model's choices, log entries 76 and 77.) -/
def Obligations.VectorItemsAreDealtEndedAndPreempted : Prop :=
  (∀ (s : State) (j : Nat) (x : Job), s.runs j 3 x → s.timed (s.jobFlask x) = false →
    ∃ t, exec (.vector j) s = .next t
      ∧ (∀ e ∈ s.engines (s.jobFlask x), t.engFree e = true → t.nextWork (s.jobFlask x) = none)
      ∧ (∀ e, s.engFree e = false → t.vec e = s.vec e) ∧ Leaves [.freeCtr, .jobs, .vecs] (fun r _ => r = .vecStatus) s t)
  ∧ (∀ (s : State) (j : Nat) (x : Job), s.runs j 3 x → s.timed (s.jobFlask x) = true → exec (.vector j) s = .next s)
  ∧ (∀ (s : State) (e flip : Nat) (dup : Bool) (i : VItem) (x : Job), e < 16 → (s.vec e).item = some i →
    s.pairOf true e = none → s.job i.job = some x → x.phase = .running →
    (x.opcode = 3 → i.kind = 0 → ∃ t y, exec (.itemEnd e [] (.ecall 0) flip dup) s = .next t ∧ t.job i.job = some y
      ∧ y.doneParts = insNat x.doneParts i.item
      ∧ (vcItems x ≤ (insNat x.doneParts i.item).length → y.phase = .ended ∧ y.status = stOk)
      ∧ ((insNat x.doneParts i.item).length < vcItems x → y.phase = .running))
    ∧ (∀ how, how = .exception ∨ how = .ecall 1 → ∃ t y, exec (.itemEnd e [] how flip dup) s = .next t
      ∧ t.job i.job = some y ∧ y.phase = .ended ∧ y.status = stJobFault ∧ y.detail = some i.item)
    ∧ (∀ va, ∃ t y, exec (.itemEnd e [] (.xlate va) flip dup) s = .next t ∧ t.job i.job = some y ∧ y.phase = .ended
      ∧ y.status = stXlate ∧ y.detail = some i.item
      ∧ t.dtu.faults = { inst := x.inst, va := va, write := false, cause := accessCause false } :: s.dtu.faults)
    ∧ (i.kind = 0 → x.opcode = 3 → vcItemUs x ≠ 0 → reached s.now (i.startNs + 1000 * vcItemUs x + 1) = true →
      ∃ t y, exec (.itemTimeout e) s = .next t ∧ t.job i.job = some y ∧ y.phase = .ended ∧ y.status = stJobFault
        ∧ y.detail = some i.item)
    ∧ ((vcItemUs x = 0 ∨ reached s.now (i.startNs + 1000 * vcItemUs x + 1) = false) → exec (.itemTimeout e) s = .next s))
  ∧ (∀ (s : State) (e flip : Nat) (pre : List VecStep) (how : ItemEnd) (dup : Bool), e < 16 →
    ((s.vec e).item = none → exec (.itemEnd e pre how flip dup) s = .next s ∧ exec (.itemTimeout e) s = .next s
      ∧ exec (.vectorPreempt e) s = .next s)
    ∧ exec (.itemEnd e pre how flip dup) s = exec (.itemEnd e [] how flip dup) (s.vecSteps e pre))
  ∧ (∀ (s : State) (e flip : Nat) (dup : Bool) (i : VItem) (p : Pair), e < 16 → (s.vec e).item = some i →
    s.pairOf true e = some p → p.phase = .running → p.pri = e → p.rc ≠ e → p.rcEnd = none → bit p.overran 1 = false →
    ∃ t, exec (.itemEnd e [] (.ecall 0) flip dup) s = .next t
      ∧ t.pairOf true e = some { p with priEnd := some s.now, faultP := none
                                        sigP := some ([], Nat.xor (crc32Final (s.vec e).sig) flip) })
  ∧ (∀ (s s1 s2 : State) (e : Nat) (i : VItem) (x : Job) (bs : List Byte), e < 16 → (s.vec e).item = some i →
    s.job i.job = some x → s.timed (s.f VEC_STATUS.FLASK e) = false → s.preemptQuiesce x = false → i.kind = 0 →
    (s.vec e).testBarDue = false →
    (s.preemptDisplay (s.f VEC_STATUS.FLASK e) x = true ∨ s.preemptPrio (s.f VEC_STATUS.FLASK e) x.prio = true) →
    s.storeBytes (s.vec e) 0 (vcStoreKb x * 1024) = (bs, s1) →
    instWrite s1 x.inst (vcCtx x + s1.freeSave x.id (vcEngines x) * vcSlotBytes x)
        (vregBytes (s.vec e) ++ scalarBytes (s.vec e) ++ bs) = (.ok [], s2) →
    ∃ t, exec (.vectorPreempt e) s = .next t
      ∧ t.units.saved = s.units.saved ++ [{ it := { i with startNs := s.since i.startNs },
                                            slot := s.freeSave x.id (vcEngines x), pc := (s.vec e).pc }]
      ∧ t.mem.cells = s2.mem.cells)
  ∧ (∀ (s : State) (e : Nat) (i : VItem) (x : Job), e < 16 → (s.vec e).item = some i →
    s.job i.job = some x → s.timed (s.f VEC_STATUS.FLASK e) = false → s.preemptQuiesce x = false → i.kind ≠ 0 →
    (s.preemptDisplay (s.f VEC_STATUS.FLASK e) x = true ∨ s.preemptPrio (s.f VEC_STATUS.FLASK e) x.prio = true) →
    ∃ t, exec (.vectorPreempt e) s = .next t
      ∧ t.units.saved = s.units.saved ++ [{ it := { i with startNs := s.since i.startNs }, slot := 0,
                                            pc := (s.vec e).pc, ctx := some (s.vec e) }])
  ∧ (∀ (s : State) (e : Nat) (i : VItem) (x : Job), e < 16 → (s.vec e).item = some i → s.job i.job = some x →
    x.phase ≠ .ended → s.timed (s.f VEC_STATUS.FLASK e) = false → s.preemptQuiesce x = true →
    ∃ t y, exec (.vectorPreempt e) s = .next t ∧ t.job i.job = some y ∧ y.phase = .ended ∧ y.status = stAborted
      ∧ (∀ k ∈ t.units.saved, k.it.job ≠ i.job))
  ∧ (∀ (s : State) (e : Nat) (i : VItem) (x : Job), e < 16 → (s.vec e).item = some i → s.job i.job = some x →
    (s.timed (s.f VEC_STATUS.FLASK e) = true ∨ (s.preemptQuiesce x = false
      ∧ s.preemptDisplay (s.f VEC_STATUS.FLASK e) x = false ∧ s.preemptPrio (s.f VEC_STATUS.FLASK e) x.prio = false)) →
    exec (.vectorPreempt e) s = .next s)
  ∧ (∀ (s : State) (e j n : Nat) (x : Job) (k : SavedItem), e < 16 → s.job j = some x →
    s.units.saved.find? (fun k => k.it.job == j && k.it.item == n) = some k → s.engFree e = true →
    s.f VEC_STATUS.FLASK e = s.jobFlask x → x.phase = .running →
    (k.ctx = none → s.heldBy j < vcEngines x → ∀ (s1 : State) (bs : List Byte),
      instRead { s with units.saved := s.units.saved.filter fun y => !(y.it.job == j && y.it.item == n) } x.inst
        (vcCtx x + k.slot * vcSlotBytes x) (vcSlotBytes x) = (.ok bs, s1) →
      ∃ t, exec (.vectorResume e j n) s = .next t ∧ t.f VEC_STATUS.STATE e = 1
        ∧ t.vec e = { (s.vec e).restore bs with item := some { k.it with startNs := uint 64 ((s.now : Int) - k.it.startNs) }, user := true
                                                pc := k.pc }
        ∧ (∀ y ∈ t.units.saved, ¬(y.it.job = j ∧ y.it.item = n)) ∧ (∀ q, q ≠ e → t.vec q = s.vec q)
        ∧ Leaves (.saved :: .vecs :: accessParts) (fun r q => accessRegs r q ∨ (r = .vecStatus ∧ q = e)) s t)
    ∧ (∀ v, k.ctx = some v → ∃ t, exec (.vectorResume e j n) s = .next t ∧ t.f VEC_STATUS.STATE e = 1
        ∧ (t.vec e).item = some { k.it with startNs := uint 64 ((s.now : Int) - k.it.startNs) } ∧ (t.vec e).vreg = v.vreg
        ∧ (t.vec e).xreg = v.xreg ∧ (t.vec e).freg = v.freg ∧ (t.vec e).store = v.store ∧ (t.vec e).pc = v.pc
        ∧ (∀ y ∈ t.units.saved, ¬(y.it.job = j ∧ y.it.item = n)) ∧ (∀ q, q ≠ e → t.vec q = s.vec q)
        ∧ Leaves [.saved, .vecs] (oneReg .vecStatus e) s t))
  ∧ (∀ (o v : VecSt), v.sew / 8 < 16 → v.lmul < 16 → v.vl < 65536 → v.fmt < 256 →
    ∀ st : List Byte, let u := o.restore (vregBytes v ++ scalarBytes v ++ st)
      (∀ k, k < 2048 → NMap.get u.vreg 0 k = NMap.get v.vreg 0 k % 2 ^ 32)
      ∧ (∀ k, 0 < k → k < 32 → NMap.get u.xreg 0 k = NMap.get v.xreg 0 k % 2 ^ 64)
      ∧ (∀ k, k < 32 → NMap.get u.freg 0 k = NMap.get v.freg 0 k % 2 ^ 64)
      ∧ u.vl = v.vl ∧ u.sew = 8 * (v.sew / 8) ∧ u.lmul = v.lmul ∧ u.fmt = v.fmt)
  ∧ (∀ (s : State) (e j n : Nat), e < 16 → (s.job j = none ∨ s.engFree e = false) →
    exec (.vectorResume e j n) s = .next s)

/-- R246 to R249, R260: enabling a context reads its buffers; a Frame Start takes the next buffer or drops the frame; a
line goes to its buffer; the end of a frame makes its record due, and the record and the counter are written once. -/
def Obligations.CameraContextsIngestFrames : Prop :=
  (∀ (s s1 : State) (m : Master) (c : Nat) (v : Word) (bs : List Byte), c < 24 →
    s.accepts .dspCamctx0 c m .whole (withBit v 63) →
    rtRead (bits v.toNat 62 60) (s.setR .dspCamctx0 c (s.newValue .dspCamctx0 c .whole (withBit v 63))) (bits v.toNat 45 38)
      (s.f DSP_CAMCTX1.TABLE_ADDR c * 64) (64 + 32 * bits v.toNat 49 46) = (.ok bs, s1) →
    ∃ t, exec (.cameraContextEnable m c v) s = .next t ∧ t.fb DSP_CAMCTX0.EN c = true
      ∧ (t.cam c).recordBase = leAt bs 0 8 ∧ (t.cam c).counterAddr = leAt bs 8 8
      ∧ (t.cam c).bufs = (List.range (bits v.toNat 49 46)).map (fun b =>
          (leAt bs (64 + 32 * b) 8, leAt bs (72 + 32 * b) 8, leAt bs (80 + 32 * b) 8))
      ∧ (t.cam c).active = false ∧ (∀ k, k ≠ c → t.cam k = s.cam k))
  ∧ (∀ (s : State) (m : Master) (c : Nat) (v : Word), c < 24 →
    s.clears .dspCamctx0 c m .whole (withoutBit v 63) DSP_CAMCTX0.EN →
    ∃ t, exec (.cameraContextDisable m c v) s = .next t ∧ t.fb DSP_CAMCTX0.EN c = false
      ∧ t.cam c = (if (s.cam c).active then { s.cam c with stopping := true } else s.cam c)
      ∧ (∀ k, k ≠ c → t.cam k = s.cam k) ∧ Leaves [.cams] (oneReg .dspCamctx0 c) s t)
  ∧ (∀ (s : State) (c : Nat), c < 24 → s.fb DSP_CAMCTX0.EN c = true → (s.cam c).active = false →
    (s.cam c).recordDue = false →
    ∃ t, exec (.frameStart c) s = .next t ∧ (t.cam c).active = true ∧ (t.cam c).frame = s.f DSP_CAMSTAT.FRAMES c
      ∧ (t.cam c).tSof = s.now ∧ (t.cam c).lines = 0
      ∧ t.f DSP_CAMSTAT.FRAMES c = (s.f DSP_CAMSTAT.FRAMES c + 1) % 2 ^ 32
      ∧ (s.bufLocked c (s.cam c).next = false → (t.cam c).buf = some (s.cam c).next
          ∧ t.f DSP_CAMSTAT.FRAMES_DROPPED c = s.f DSP_CAMSTAT.FRAMES_DROPPED c)
      ∧ (s.bufLocked c (s.cam c).next = true → (t.cam c).buf = none ∧ bit (t.cam c).flags 0 = true
          ∧ t.f DSP_CAMSTAT.FRAMES_DROPPED c
              = min (s.f DSP_CAMSTAT.FRAMES_DROPPED c + 1) DSP_CAMSTAT.FRAMES_DROPPED.top)
      ∧ (∀ k, k ≠ c → t.cam k = s.cam k) ∧ Leaves [.cams] (oneReg .dspCamstat c) s t)
  ∧ (∀ (s : State) (c : Nat), c < 24 → (s.fb DSP_CAMCTX0.EN c = false ∨ (s.cam c).active = true) →
    exec (.frameStart c) s = .next s)
  ∧ (∀ (s : State) (c : Nat) (p : CamPacket), c < 24 → (s.cam c).active = false →
    (s.fb DSP_CAMCTX0.EN c = false → exec (.cameraPacket c p) s = .next s)
    ∧ (s.fb DSP_CAMCTX0.EN c = true → p.hdrErr = false → p.hdrCorr = false → p.frameEnd = false →
      (p.dt = s.f DSP_CAMCTX0.DT c → (camBytes p.dt).isSome = true → exec (.cameraPacket c p) s = .next s)
      ∧ (p.dt ≠ s.f DSP_CAMCTX0.DT c → ∃ t, exec (.cameraPacket c p) s = .next t
        ∧ t.f DSP_CAMSTAT.OTHER_DT c = min (s.f DSP_CAMSTAT.OTHER_DT c + 1) DSP_CAMSTAT.OTHER_DT.top
        ∧ Leaves [] (oneReg .dspCamstat c) s t)))
  ∧ (∀ (s : State) (c : Nat) (p : CamPacket), c < 24 → (s.cam c).active = true → p.hdrErr = true → p.hdrCorr = false →
    ∃ t, exec (.cameraPacket c p) s = .next t ∧ t.cam c = { s.cam c with flags := Nat.lor (s.cam c).flags 0x10 }
      ∧ Leaves [.cams] noReg s t)
  ∧ (∀ (s : State) (c : Nat) (p : CamPacket), c < 24 → (s.cam c).active = true → p.hdrErr = false → p.hdrCorr = false →
    (p.frameEnd = true → ∃ t, exec (.cameraPacket c p) s = .next t ∧ (t.cam c).active = false
      ∧ (t.cam c).recordDue = true ∧ (t.cam c).tEof = s.now
      ∧ ((s.cam c).lines < s.f DSP_CAMCTX0.HEIGHT c → bit (t.cam c).flags 1 = true)
      ∧ (∀ b, (s.cam c).buf = some b → (t.cam c).next = (b + 1) % max 1 (s.cam c).bufs.length)
      ∧ Leaves [.cams] noReg s t)
    ∧ (p.frameEnd = false → p.dt ≠ s.f DSP_CAMCTX0.DT c → ∃ t, exec (.cameraPacket c p) s = .next t
      ∧ t.f DSP_CAMSTAT.OTHER_DT c = min (s.f DSP_CAMSTAT.OTHER_DT c + 1) DSP_CAMSTAT.OTHER_DT.top
      ∧ Leaves [] (oneReg .dspCamstat c) s t)
    ∧ (∀ (b : Nat) (s1 : State) (us : List Byte), p.frameEnd = false → p.crcErr = false → p.dt = s.f DSP_CAMCTX0.DT c →
      (camBytes p.dt).isSome = true → (s.cam c).lines < s.f DSP_CAMCTX0.HEIGHT c → (s.cam c).buf = some b →
      (s.cam c).dead = false →
      writeAll (s.f DSP_CAMCTX0.INSTANCE c) (camLine p.dt (s.f DSP_CAMCTX0.WIDTH c) (s.cam c).lines
        (((s.cam c).bufs[b]?).getD (0, 0, 0)) p.pixels) (s.modCam c fun k => { k with lines := k.lines + 1 })
          = (.ok us, s1) →
      ∃ t, exec (.cameraPacket c p) s = .next t ∧ t.mem.cells = s1.mem.cells
        ∧ t.cam c = { s.cam c with lines := (s.cam c).lines + 1 } ∧ Leaves (.cams :: rtParts) rtRegs s t))
  ∧ (∀ (s : State) (c : Nat), c < 24 → (s.cam c).recordDue = false → exec (.ingestRecord c) s = .next s)
  ∧ (∀ (s s1 s2 s3 : State) (c v : Nat) (r r' : MRes),
    let k := s.cam c
    let i := s.f DSP_CAMCTX0.INSTANCE c
    c < 24 → k.recordDue = true →
    rtWrite (s.f DSP_CAMCTX0.PORT c) s i (k.recordBase + k.frame % 16 * 32) (toLE 8 k.frame ++ toLE 8 k.tSof ++ toLE 8 k.tEof
      ++ toLE 8 (k.buf.getD 0xFF * 2 ^ 56 + k.lines % 2 ^ 16 * 2 ^ 32 + k.flags % 2 ^ 16)) = (r, s1) →
    rtRead64 (s.f DSP_CAMCTX0.PORT c) s1 i k.counterAddr = (some v, s2) →
    rtWrite (s.f DSP_CAMCTX0.PORT c) s2 i k.counterAddr (toLE 8 (v + 1)) = (r', s3) →
    ∃ t, exec (.ingestRecord c) s = .next t ∧ t.mem.cells = s3.mem.cells
      ∧ t.cam c = { k with recordDue := false } ∧ Leaves (.cams :: rtParts) rtRegs s t)

/-- R250, R254 to R259: a posting waits for the latch, which counts a blanking, takes or counts the pending descriptors
and shows the planes; tell-tale CRCs are compared; an escalation level begins for the owner's display queue. -/
def Obligations.DisplaysLatchCompareAndEscalate : Prop :=
  (∀ (s : State) (m : Master) (o p : Nat) (v : Word), o < 4 → p < 8 → s.accepts .dspFlip (8 * o + p) m .whole (withBit v 5) →
    ∃ t, exec (.planePost m o p v) s = .next t ∧ t.fb DSP_FLIP.PENDING (8 * o + p) = true
      ∧ t.f DSP_FLIP.NEXT_ADDR (8 * o + p) = bits v.toNat 63 6
      ∧ NMap.get (t.disp o).posted 0 p = (match m with | .inst k => k + 1 | _ => 0)
      ∧ (t.disp o).planes = (s.disp o).planes ∧ Leaves [.disps] (oneReg .dspFlip (8 * o + p)) s t)
  ∧ (∀ (s : State) (o : Nat), o < 4 → ∃ t, exec (.latch o) s = .next t
      ∧ t.f DSP_OUTSTAT.VBLANKS o = (s.f DSP_OUTSTAT.VBLANKS o + 1) % 2 ^ 32
      ∧ (∀ p, p < 8 → t.fb DSP_FLIP.PENDING (8 * o + p) = false)
      ∧ t.outbox.head? = some (if t.fb DSP_OUTSTAT.SAFE_BLANK o then .black o else .shown o (t.composed o))
      ∧ (∀ p, p < 8 → s.fb DSP_FLIP.PENDING (8 * o + p) = false →
          NMap.get (t.disp o).planes [] p = NMap.get (s.disp o).planes [] p)
      ∧ (∀ q, q ≠ o → t.disp q = s.disp q))
  ∧ (∀ (s s2 : State) (o p : Nat) (bs : List Byte),
    let s1 := (s.incWrap DSP_OUTSTAT.VBLANKS o 1).countMisses o
    o < 4 → p < 8 → (∀ q, q < 8 → s.fb DSP_FLIP.PENDING (8 * o + q) = decide (q = p)) →
    postedRead s1 o (NMap.get (s.disp o).posted 0 p) (s.f DSP_FLIP.NEXT_ADDR (8 * o + p) * 64) 64 = (.ok bs, s2) →
    ∃ t, exec (.latch o) s = .next t
      ∧ (s.pdOk o (words64 8 bs) = true → s.pdFits o p (words64 8 bs) = true →
          NMap.get (t.disp o).planes [] p = words64 8 bs)
      ∧ ((s.pdOk o (words64 8 bs) = false ∨ s.pdFits o p (words64 8 bs) = false) →
          t.f DSP_OUTSTAT.BAD_DESC o = min (s.f DSP_OUTSTAT.BAD_DESC o + 1) DSP_OUTSTAT.BAD_DESC.top
            ∧ NMap.get (t.disp o).planes [] p = NMap.get (s.disp o).planes [] p))
  ∧ (∀ (s : State) (o : Nat), o < 4 → ∃ t, exec (.scanoutUnderrun o) s = .next t ∧ t.outbox = .black o :: s.outbox
      ∧ t.f DSP_OUTSTAT.UNDERRUN o = min (s.f DSP_OUTSTAT.UNDERRUN o + 1) DSP_OUTSTAT.UNDERRUN.top
      ∧ Leaves [.outbox] (oneReg .dspOutstat o) s t)
  ∧ (∀ (s : State) (o : Nat) (px d : List Nat), o < 4 → (s.disp o).tt = some d → s.fb DSP_TTCFG.EN o = true →
    px.length = bits (wordAt d 1) 31 16 * bits (wordAt d 1) 15 0 →
    let c := crc32 (px.flatMap fun v => toLE 4 (v % 2 ^ 30))
    (c = bits (wordAt d 2) 63 32 → s.fb DSP_OUTSTAT.SAFE_BLANK o = false → ∃ t, exec (.tellTaleCompare o px) s = .next t
      ∧ t.f DSP_TTSTAT.LAST_SIG o = c ∧ t.f DSP_TTSTAT.RUN o = 0
      ∧ t.f DSP_TTSTAT.TT_MISMATCH o = s.f DSP_TTSTAT.TT_MISMATCH o ∧ Leaves [] (oneReg .dspTtstat o) s t)
    ∧ (c ≠ bits (wordAt d 2) 63 32 → ∃ t, exec (.tellTaleCompare o px) s = .next t ∧ t.fb SYS_SAFESTAT.DISP_SIG 0 = true
      ∧ t.f DSP_TTSTAT.TT_MISMATCH o = min (s.f DSP_TTSTAT.TT_MISMATCH o + 1) DSP_TTSTAT.TT_MISMATCH.top
      ∧ (s.fb SYS_IRQCFG.EN 0 = true → .mgrIrq 18 o ∈ t.outbox)
      ∧ Leaves [.disps, .freeCtr, .keptIrqs, .outbox, .record, .safePins]
          (fun r i => (r = .dspTtstat ∧ i = o) ∨ (r = .sysSafestat ∧ i = 0)) s t))
  ∧ (∀ (s : State) (o : Nat) (px : List Nat), o < 4 → ((s.disp o).tt = none ∨ s.fb DSP_TTCFG.EN o = false) →
    exec (.tellTaleCompare o px) s = .next s)
  ∧ (∀ (s : State) (o lv : Nat) (c : Instr), o < 4 → (c, lv) ∈ [(Instr.escalationLevel1 o, 1), (.escalationLevel2 o, 2)] →
    (s.fb DSP_OUTCFG.ESC_EN o = true → s.owner 4 o < 8 → (s.flask (s.owner 4 o)).level < lv →
      ∃ t, exec c s = .next t ∧ t.f DSP_OUTSTAT.ESC o = lv ∧ (t.flask (s.owner 4 o)).level = lv
        ∧ (t.flask (s.owner 4 o)).escOutput = o ∧ (∀ g, g ≠ s.owner 4 o → t.flask g = s.flask g)
        ∧ Leaves [.flasks] (oneReg .dspOutstat o) s t)
    ∧ ((s.fb DSP_OUTCFG.ESC_EN o = false ∨ 8 ≤ s.owner 4 o ∨ lv ≤ (s.flask (s.owner 4 o)).level) → exec c s = .next s))
  ∧ (∀ (s s1 : State) (j : Nat) (x : Job) (bs : List Byte), s.runs j 10 x → x.tiles = [] →
    instRead s x.inst (x.pw 0) (64 * rdDraws x) = (.ok bs, s1) →
    let ds := (pieces 64 (rdDraws x + 1) bs).map (words64 8)
    (ds.any drawBad = true → ∃ t, exec (.render j) s = .next t ∧ JobTo j (x.over stMalformed (some 0)) s t
      ∧ Leaves (.jobs :: accessParts) accessRegs s t)
    ∧ (ds.any drawBad = false → x.doneParts = [] → 0 < (ds.map fun d => cdiv (bits (wordAt d 2) 63 32) 64).sum →
      ∃ t y, exec (.render j) s = .next t ∧ t.job j = some y ∧ y.tiles = ds ∧ y.phase = .running
        ∧ Leaves (.jobs :: .vecs :: accessParts) (fun r i => accessRegs r i ∨ r = .vecStatus) s t))

/-- R10, R261, R264, R269 to R275: the command of a RUNNER job that the runner works on runs the whole job: it ends with OK,
or with the status of its first failed access or bad limits record, and nothing but the runner's state, its counters, its
memory and the hand-over of a trajectory changes; an UPDATE whose predecessor stands changes the tree and empties the node
cache, one without is STALE; a PLAN publishes its confirmed choice as a new plan; when time is up, or without a predecessor,
the late-plan rule publishes and the job is STALE; a REPAIR whose choice still stands publishes nothing. -/
def Obligations.RunnerJobsUpdateAndPublish : Prop :=
  (∀ (s : State) (j : Nat) (x : Job) (d : Bool) (c : Instr), s.job j = some x → s.runnerTakes x = true →
    ((c = .update j ∧ x.rnOp = 1) ∨ (c = .plan j d ∧ x.rnOp = 2) ∨ (c = .repair j d ∧ x.rnOp = 3)
      ∨ (c = .publishAt j ∧ (x.rnOp = 2 ∨ x.rnOp = 3) ∧ reached s.now x.rnPublishAt = true)) →
    let w : Rs Unit := match c with
      | .update _ => updateGo x s
      | .plan _ d => planGo planWork x d s
      | .repair _ d => planGo repairWork x d s
      | _ => (planHead x s).andThen fun h s1 => lateRule x h.1 (h.2 + pfLate) s1
    ∃ t y, exec c s = .next t ∧ t.job j = some y ∧ y.phase = .ended
      ∧ (w.1 = .ok () → y.status = stOk) ∧ (∀ st, w.1 = .error st → y.status = st)
      ∧ (∀ k, k ≠ j → t.job k = s.job k) ∧ (∀ b, c = .update j → (predState x s).1 = .ok (false, b) → w.1 = .ok () → t.pix.nodes = [])
      ∧ Leaves (.jobs :: .planCount :: .nodes :: .traj :: .bridge :: accessParts)
          (fun r i => accessRegs r i ∨ r = .runStat ∨ r = .runCnt ∨ r = .runCnt2) s t)
  ∧ (∀ (s s1 : State) (j : Nat) (x : Job) (st : Bool), s.job j = some x → s.runnerTakes x = true → x.rnOp = 1 →
    (predState x s = (.ok (true, st), s1) → ∃ t y, exec (.update j) s = .next t ∧ t.job j = some y ∧ y.phase = .ended
      ∧ y.status = stOk ∧ bit y.cflags 0 = true ∧ t.mem.cells = s1.mem.cells)
    ∧ (∀ s2 tr, predState x s = (.ok (false, st), s1) → applyUpdates x s1 = (.ok tr, s2) →
      ∃ t y, exec (.update j) s = .next t ∧ t.job j = some y ∧ y.phase = .ended ∧ y.status = stOk
        ∧ (st = true → bit y.cflags 0 = true) ∧ (st = false → y.cflags = x.cflags) ∧ t.mem.cells = s2.mem.cells
        ∧ (∀ k, k ≠ j → t.job k = s.job k)))
  ∧ (∀ (s : State) (j : Nat) (x : Job) (d : Bool), s.job j = some x → s.runnerTakes x = false →
    exec (.update j) s = .next s ∧ exec (.plan j d) s = .next s ∧ exec (.repair j d) s = .next s
      ∧ exec (.publishAt j) s = .next s)
  ∧ (∀ (s s1 s2 s3 s4 : State) (j k n : Nat) (x : Job) (lim veh : List Byte) (tr : OTree)
      (rs : List (Nat × Cand × CandRes)) (q : Nat × Cand × CandRes) (r : CandRes),
    let e := runEnv x lim veh tr s3.freeCtr
    let s5 := { s4 with pix.planCount := x.rnCount }
    let pl := newPoints e n s5
    s.job j = some x → s.runnerTakes x = true → x.rnOp = 2 → planHead x s = (.ok (lim, 0), s1) →
    reached s1.now x.rnPublishAt = false → vBytes x.inst x.rnVeh 128 s1 = (.ok veh, s2) → runTree x s2 = (.ok tr, s3) →
    vAll (checkCand x e x.rnIn) (List.range x.rnCount) { s3 with freeCtr := s3.freeCtr + 2 } = (.ok rs, s4) →
    bestOf (rs.map fun q => (q.1, q.2.2)) = some (k, r) → rs[k]? = some q → e.shape q.2.1 = some n →
    (∃ s6, publish x { source := 0, reuse := 0, tBase := leAt veh 0x20 8, chosen := k, flags := 0, cost := r.cost,
                       points := pl.1 } pl.2 = (.ok (), s6)) →
    ∃ t y, exec (.plan j false) s = .next t ∧ t.job j = some y ∧ y.phase = .ended ∧ y.status = stOk
      ∧ y.cflags = x.cflags ∧ t.f RUN_STAT.LAST_SOURCE 0 = 0
      ∧ t.f RUN_STAT.PUBLISHED 0 = (s.f RUN_STAT.PUBLISHED 0 + 1) % (RUN_STAT.PUBLISHED.top + 1)
      ∧ t.pix.planCount = x.rnCount)
  ∧ (∀ (s s1 s2 : State) (j fl : Nat) (x : Job) (lim : List Byte) (c : Instr),
    let late := if reached s1.now x.rnPublishAt then fl + pfLate else fl
    let out : PlanOut :=
      { source := 3, reuse := 1, tBase := 0, chosen := 0xFFFF, flags := late, cost := 0, points := [] }
    s.job j = some x → s.runnerTakes x = true → (c, x.rnOp) ∈ [(Instr.plan j false, 2), (.repair j false, 3)] →
    planHead x s = (.ok (lim, fl), s1) → (reached s1.now x.rnPublishAt = true ∨ fl ≠ 0) →
    newestPlan x s1 = (.ok none, s2) → (∃ s3, publish x out s2 = (.ok (), s3)) →
    ∃ t y, exec c s = .next t ∧ t.job j = some y ∧ y.phase = .ended ∧ y.status = stOk ∧ bit y.cflags 0 = true
      ∧ t.f RUN_STAT.LAST_SOURCE 0 = 3 ∧ t.f RUN_STAT.REUSE 0 = 1
      ∧ t.f RUN_STAT.PUBLISHED 0 = (s.f RUN_STAT.PUBLISHED 0 + 1) % (RUN_STAT.PUBLISHED.top + 1))
  ∧ (∀ (s s1 s2 : State) (j fl : Nat) (x : Job) (lim : List Byte),
    let out : PlanOut :=
      { source := 3, reuse := 1, tBase := 0, chosen := 0xFFFF, flags := fl + pfLate, cost := 0, points := [] }
    s.job j = some x → s.runnerTakes x = true → (x.rnOp = 2 ∨ x.rnOp = 3) →
    (reached s.now x.rnPublishAt = false → exec (.publishAt j) s = .next s)
    ∧ (reached s.now x.rnPublishAt = true → planHead x s = (.ok (lim, fl), s1) → newestPlan x s1 = (.ok none, s2) →
      (∃ s3, publish x out s2 = (.ok (), s3)) →
      ∃ t y, exec (.publishAt j) s = .next t ∧ t.job j = some y ∧ y.phase = .ended ∧ y.status = stOk
        ∧ bit y.cflags 0 = true ∧ t.f RUN_STAT.LAST_SOURCE 0 = 3))
  ∧ (∀ (s s1 s2 s3 s4 s5 s6 : State) (j : Nat) (x : Job) (lim veh : List Byte) (tr : OTree) (h : List Nat)
      (ps : List (List Byte)) (old : List (Nat × CandRes)) (rs : List (Nat × Cand × CandRes)) (d : Bool),
    let e := runEnv x lim veh tr s5.freeCtr
    let chosen := bits (wordAt h 3) 63 48
    s.job j = some x → s.runnerTakes x = true → x.rnOp = 3 → planHead x s = (.ok (lim, 0), s1) →
    reached s1.now x.rnPublishAt = false → applyUpdates x s1 = (.ok tr, s2) →
    newestPlan x s2 = (.ok (some (h, ps)), s3) → vBytes x.inst x.rnVeh 128 s3 = (.ok veh, s4) →
    vAll (storedRes x) (List.range s4.pix.planCount) s4 = (.ok old, s5) →
    vAll (checkCand x e x.rnAux) (repairSet chosen x.rnRepairK old) { s5 with freeCtr := s5.freeCtr + 2 } = (.ok rs, s6) →
    (∃ q ∈ rs, q.1 = chosen ∧ q.2.2.bits0 = 0) →
    ∃ t y, exec (.repair j d) s = .next t ∧ t.job j = some y ∧ y.phase = .ended ∧ y.status = stOk ∧ y.detail = some 0
      ∧ y.cflags = x.cflags ∧ t.f RUN_STAT.PUBLISHED 0 = s.f RUN_STAT.PUBLISHED 0)

/-- R286 to R291, R299: a frame leaves when it may and its descriptor is written back; a late, bad or unsendable one is
written back with its status, and one that must wait is left alone; a received frame is admitted, filtered, metered and
forwarded, fills the descriptor of its ring or is dropped and counted; sequence recovery drops a number it has taken; gate
lists follow their entries. (The forms of meters, shapers and sequence functions and the switch's open points are the
model's, log entries 106 and 178.) -/
def Obligations.RingsSendReceiveAndWriteBack : Prop :=
  (∀ (s : State) (m : Master) (r : Nat) (v : Word), r < 256 → s.accepts .ethRingdb r m .whole v.toNat →
    ∃ t, exec (.ethRingDoorbell m r v) s = .next t ∧ t.f ETH_RINGDB.PROD r = bits v.toNat 63 32
      ∧ t.f ETH_RINGDB.CONS r = s.f ETH_RINGDB.CONS r ∧ Leaves [] (oneReg .ethRingdb r) s t)
  ∧ (∀ (s : State) (r : Nat), r < 128 → s.ringHas false r = false →
    exec (.frameTransmit r) s = .next s ∧ exec (.launchLate none r) s = .next s)
  ∧ (∀ (s s1 : State) (r : Nat) (d : List Nat),
    let p := txPort d
    let ready := txBad d = false ∧ s.eligible false d = true ∧ s.isLate false r d = false
    let usable := p = 15 ∨ (s.ethUp p = true ∧ s.macsecTx p = true)
    let done (st q ts fr : Nat) : List (Nat × List Byte) :=
      [(0, toLE 8 ts ++ toLE 8 (fr * 2 ^ 48 + st * 2 ^ 40 + q * 2 ^ 36) ++ toLE 8 0)]
    r < 128 → s.ringHas false r = true → s.headDesc false r = (some d, s1) →
    (txBad d = false → s.eligible false d = false → exec (.frameTransmit r) s = .next s1)
    ∧ (ready → usable → p < 12 → s.mayStart p (txPcp d) (txLen d) = false →
        ∃ t, exec (.frameTransmit r) s = .next t ∧ Leaves [.shapers] noReg s1 t)
    ∧ (∀ st q, (txBad d = true ∧ st = rsBadDesc ∧ q = 0)
          ∨ (txBad d = false ∧ s.eligible false d = true ∧ s.isLate false r d = true ∧ st = rsLate ∧ q = p)
          ∨ (ready ∧ ¬ usable ∧ st = rsDropped ∧ q = p) →
        ∃ t, exec (.frameTransmit r) s = .next t ∧ Consumed false r (done st q 0 0) s1 t
          ∧ Leaves rtParts (fun x i => rtRegs x i ∨ (x = .ethRingdb ∧ i = r)) s t)
    ∧ (∀ bs s2, ready → usable → (p < 12 → s.mayStart p (txPcp d) (txLen d) = true) →
        rtRead rtEther s1 (s.f ETH_RINGCFG0.INSTANCE r) (wordAt d 0) (txLen d) = (.ok bs, s2) →
        let w := match s2.streamOf bs (s2.classOf 16 bs).1 with
          | some n => s2.filterPass n bs.length
          | none => (true, s2)
        (p < 12 → w.1 = true → ∃ t, exec (.frameTransmit r) s = .next t ∧ .ethFrame p bs ∈ t.outbox
            ∧ Consumed false r (done rsOk p (if txTs d then s.now else 0) (if txTs d then s.clock.frac else 0))
                (w.2.startFrame p (txPcp d) bs) t
            ∧ (s.macOn p 0 = true → t.macPn p 0 = s.macPn p 0 + 1)
            ∧ (s.shaped p (txPcp d) = true → (t.shaper p (txPcp d)).credit
                = max (sint 32 (s.ethField p 5 (txPcp d) 0x10 4) * 1000000) (s.credit p (txPcp d)
                    + sint 32 (s.ethField p 5 (txPcp d) 8 4) * (s.frameNs p bs.length : Int)))
            ∧ Leaves switchParts (fun x i => rtRegs x i ∨ (x = .ethRingdb ∧ i = r)) s t)
        ∧ (p < 12 → w.1 = false → ∃ t, exec (.frameTransmit r) s = .next t
            ∧ Consumed false r (done rsDropped p 0 0) w.2 t)
        ∧ (p = 15 → ∃ t, exec (.frameTransmit r) s = .next t
            ∧ Consumed false r (done (if (s2.switchFrame 16 bs).1 then rsOk else rsDropped) p 0 0) (s2.switchFrame 16 bs).2 t
            ∧ Leaves switchParts switchRegs s t))
    ∧ (s.isLate false r d = true → ∃ t, exec (.launchLate none r) s = .next t
        ∧ Consumed false r (done rsLate p 0 0) s1 t)
    ∧ (s.isLate false r d = false → exec (.launchLate none r) s = .next s1))
  ∧ (∀ (s : State) (c q : Nat), c < 20 → q < 8 → s.ringHas true (canRing c q) = false →
    exec (.launchLate (some c) q) s = .next s)
  ∧ (∀ (s s1 : State) (c q : Nat) (d : List Nat), c < 20 → q < 8 → s.ringHas true (canRing c q) = true →
    s.headDesc true (canRing c q) = (some d, s1) →
    (s.isLate true (canRing c q) d = false → exec (.launchLate (some c) q) s = .next s1)
    ∧ (s.isLate true (canRing c q) d = true → ∃ t, exec (.launchLate (some c) q) s = .next t
        ∧ Consumed true (canRing c q) [(0, toLE 8 0),
            (16, toLE 8 (bits (wordAt d 2) 63 32 * 2 ^ 32 + rsLate * 2 ^ 8 + wordAt d 2 % 256))] s1 t))
  ∧ (∀ (s : State) (f : EthFrame), f.port < 12 → (¬ s.admits f → exec (.frameReceive f) s = .next s)
    ∧ (s.admits f → ∃ t, exec (.frameReceive f) s = .next t ∧ Leaves switchParts switchRegs s t
        ∧ ∀ ch n, f.pn = some (ch, n) → t.macPn f.port ch = max (s.macPn f.port ch) (n + 1)))
  ∧ (∀ (s : State) (f : EthFrame),
    let v := s.classOf f.port f.bytes
    let st := s.streamOf f.bytes v.1
    let w := match st with
      | some n => (s.notePn f.port f.pn).filterPass n f.bytes.length
      | none => (true, s.notePn f.port f.pn)
    s.admits f →
    (w.1 = false → ∃ t, exec (.frameReceive f) s = .next t ∧ Leaves [.macPns, .meters] noReg s t)
    ∧ (∀ q, st = none → q ≠ f.port → s.member q v.1 = true → v.2 < 8 →
        s.portTakes q v.2 (s.egressForm q v.1 v.2 f.bytes).length →
        s.mayStart q v.2 (s.egressForm q v.1 v.2 f.bytes).length = true →
        ((∃ ps d, s.fdb (f.bytes.take 6) v.1 = some (ps, d) ∧ bit ps q = true) ∨ s.fdb (f.bytes.take 6) v.1 = none) →
        ∃ t, exec (.frameReceive f) s = .next t ∧ .ethFrame q (s.egressForm q v.1 v.2 f.bytes) ∈ t.outbox
          ∧ t.egress q = [])
    ∧ (∀ q, st = none → s.oneWay f.port q f.bytes →
        s.portTakes q v.2 (s.egressForm q v.1 v.2 f.bytes).length →
        s.mayStart q v.2 (s.egressForm q v.1 v.2 f.bytes).length = false →
        ∃ t, exec (.frameReceive f) s = .next t ∧ t.egress q = [(v.2, s.egressForm q v.1 v.2 f.bytes)]
          ∧ (∀ k, k ≠ q → t.egress k = s.egress k) ∧ Leaves [.macPns, .egress, .shapers] noReg s t)
    ∧ (∀ q, st = none → s.oneWay f.port q f.bytes → (q = 12 ∨ q = 13) →
        (s.fb ETH_HOSTCFG.DEFAULT_EN (q - 12) = false
          ∨ s.fb ETH_RINGCFG0.EN (s.f ETH_HOSTCFG.DEFAULT_RING (q - 12)) = false) →
        ∃ t, exec (.frameReceive f) s = .next t
          ∧ t.f ETH_HOSTCFG.NOMATCH_DROPS (q - 12) = min (s.f ETH_HOSTCFG.NOMATCH_DROPS (q - 12) + 1) 0xFFFF
          ∧ Leaves [.macPns] (oneReg .ethHostcfg (q - 12)) s t)
    ∧ (∀ q r, w.1 = true → s.oneWay f.port q f.bytes → (q = 12 ∨ q = 13) →
        (st = none ∧ s.fb ETH_HOSTCFG.DEFAULT_EN (q - 12) = true ∧ r = s.f ETH_HOSTCFG.DEFAULT_RING (q - 12)
            ∧ s.fb ETH_RINGCFG0.EN r = true)
          ∨ (∃ n, st = some n ∧ r = s.ethField 0 6 n 0x10 1 ∧ ∀ b, s.cbOf b n = []) →
        (s.ringHas false r = false → ∃ t, exec (.frameReceive f) s = .next t
          ∧ t.f ETH_RINGCFG0.DROPS r = min (s.f ETH_RINGCFG0.DROPS r + 1) 0xFFFF
          ∧ Leaves [.macPns, .meters] (oneReg .ethRingcfg0 r) s t)
        ∧ (∀ d s1 s2 xs, s.ringHas false r = true → w.2.headDesc false r = (some d, s1) → 64 ≤ bits (wordAt d 1) 63 50 →
            bits (wordAt d 1) 63 50 ≤ 9600 →
            rtWrite rtEther s1 (s.f ETH_RINGCFG0.INSTANCE r) (wordAt d 0) (f.bytes.take (bits (wordAt d 1) 63 50)) = (.ok xs, s2) →
          ∃ t, exec (.frameReceive f) s = .next t
            ∧ Consumed false r [(0, toLE 8 s.now ++ toLE 8 (s.clock.frac * 2 ^ 48
                + (if bits (wordAt d 1) 63 50 < f.bytes.length then rsTruncated else rsOk) * 2 ^ 40 + f.port * 2 ^ 36
                + min (bits (wordAt d 1) 63 50) f.bytes.length * 2 ^ 22 + v.1 % 4096 * 2 ^ 10 + (st.getD 0) % 1024)
                ++ toLE 8 (if st.isSome then 2 ^ 63 else 0))] s2 t
            ∧ Leaves switchParts (fun x i => rtRegs x i ∨ (x = .ethRingdb ∧ i = r)) s t)))
  ∧ (∀ (s : State) (i : EthItem) (seq : Nat), 0 < leAt i.bs 8 2 → (s.recoverSeq i seq).1 = true →
    ((s.recoverSeq i seq).2.recoverSeq i seq).1 = false)
  ∧ (∀ (s : State) (n len : Nat), let m := s.meterNow n
    (len * 8000000 ≤ m.c → (s.meterPass n len).1 = true ∧ ((s.meterPass n len).2.meterNow n).c = m.c - len * 8000000)
    ∧ (m.c < len * 8000000 → m.e < len * 8000000 → (s.meterPass n len).1 = false))
  ∧ (∀ (s : State) (p : Nat), p < 12 → s.egress p ≠ [] → ∃ t, exec (.gateListEvent 0 p) s = .next t
    ∧ t.nextClass p = none ∧ (∀ x ∈ t.egress p, x ∈ s.egress p) ∧ (∀ q, q ≠ p → t.egress q = s.egress q)
    ∧ (∀ x ∈ s.egress p, x ∈ t.egress p ∨ .ethFrame p x.2 ∈ t.outbox)
    ∧ Leaves [.gateEngs, .egress, .shapers, .macPns, .outbox] noReg s t)
  ∧ (∀ (s : State) (p : Nat), p < 12 → s.egress p = [] →
    let g := s.gateEng p
    let due := g.running = true ∧ localFire s.now g.target = true
    (∀ b, g.base = some b → reached s.now b = true → ∃ t, exec (.gateListEvent 0 p) s = .next t
      ∧ (t.gateEng p).base = none ∧ (t.gateEng p).start = b ∧ (t.gateEng p).idx = 0
      ∧ (t.gateEng p).cycle = s.ethField p 3 0 8 4 ∧ (t.gateEng p).ops.length = s.ethField p 3 0 0x10 2
      ∧ (0 < s.ethField p 3 0 0x10 2 → (t.gateEng p).open_ = s.ethField p 4 0 0 1)
      ∧ (∀ q, q ≠ p → t.gateEng q = s.gateEng q) ∧ Leaves [.gateEngs] noReg s t)
    ∧ ((∀ b, g.base = some b → reached s.now b = false) → ¬ due → exec (.gateListEvent 0 p) s = .next s)
    ∧ ((∀ b, g.base = some b → reached s.now b = false) → due → ∃ t, exec (.gateListEvent 0 p) s = .next t
      ∧ (g.idx + 1 < g.ops.length → g.target < g.start + g.cycle → (t.gateEng p).idx = g.idx + 1
          ∧ (t.gateEng p).start = g.start ∧ (t.gateEng p).open_ = (g.ops.getD (g.idx + 1) (0xFF, 0)).1)
      ∧ (g.ops.length ≤ g.idx + 1 ∨ g.start + g.cycle ≤ g.target → (t.gateEng p).idx = 0
          ∧ (t.gateEng p).start = g.start + g.cycle ∧ (t.gateEng p).open_ = (g.ops.getD 0 (0xFF, 0)).1)
      ∧ (∀ q, q ≠ p → t.gateEng q = s.gateEng q) ∧ Leaves [.gateEngs] noReg s t))
  ∧ (∀ (s : State) (n : Nat), n < 256 →
    let base := s.ethField 0 7 n 8 8
    let cyc := s.ethField 0 7 n 4 4
    let on := s.ethField 0 7 n 0 1 = 1 ∧ cyc ≠ 0 ∧ reached s.now base = true
      ∧ ((s.gateEng (16 + n)).running = false ∨ localFire s.now (s.gateEng (16 + n)).target = true)
    (¬ on → exec (.gateListEvent 1 n) s = .next s)
    ∧ (on → ∃ t, exec (.gateListEvent 1 n) s = .next t
      ∧ (t.gateEng (16 + n)).open_ = (((List.range 4).map fun k => s.ethField 0 7 n (0x10 + 4 * k) 4).filter fun x =>
          x != 0xFFFFFFFF && decide (x ≤ (s.now + 2 ^ 64 - base) % 2 ^ 64 % cyc)).length % 2
      ∧ (t.gateEng (16 + n)).running = true ∧ (∀ q, q ≠ 16 + n → t.gateEng q = s.gateEng q)
      ∧ Leaves [.gateEngs] noReg s t))

/-- R292 to R296: an arbitration sends the frame of the lowest identifier among the heads; a received frame takes the
action of the first entry that matches, else the default one; a controller that goes bus-off completes its queues; an
address claim is sent, repeated, lost or answered by NAME. -/
def Obligations.CanFramesAreOfferedFilteredAndRouted : Prop :=
  (∀ (s : State) (c : Nat) (f : CanFrame), c < 20 →
    (s.fb CAN_CTRL.EN c = false ∨ s.f CAN_CTRL.FC_STATE c = 2 →
      exec (.canArbitration c) s = .next s ∧ exec (.canFrameReceive c f) s = .next s ∧ exec (.busOff c) s = .next s)
    ∧ (3 < s.f CAN_CTRL.MODE c → exec (.canArbitration c) s = .next s))
  ∧ (∀ (s s1 : State) (c : Nat) (os : List (CanSrc × List Nat × CanFrame)), c < 20 → s.fb CAN_CTRL.EN c = true →
    s.f CAN_CTRL.FC_STATE c ≠ 2 → s.f CAN_CTRL.MODE c ≤ 3 → s.canOffers c = (os, s1) →
    (os = [] → exec (.canArbitration c) s = .next s1)
    ∧ (∀ src d f, (src, d, f) ∈ os → (∀ o ∈ os, o = (src, d, f) ∨ busKey f < busKey o.2.2) →
      (src = .route → ∃ t, exec (.canArbitration c) s = .next t ∧ t.outbox = .canFrame c f :: s1.outbox
        ∧ t.canc c = { s1.canc c with route := (s1.canc c).route.drop 1 } ∧ Leaves [.can, .outbox] noReg s1 t)
      ∧ (src = .claim → ∃ t, exec (.canArbitration c) s = .next t ∧ t.outbox = .canFrame c f :: s1.outbox
        ∧ t.canc c = { s1.canc c with claims := (s1.canc c).claims.drop 1 } ∧ Leaves [.can, .outbox] noReg s1 t)
      ∧ (∀ q bs s2, src = .queue q →
          rtRead rtCan s1 (s1.f CAN_RINGCFG0.INSTANCE (canRing c q)) (wordAt d 3) (canLen d) = (.ok bs, s2) →
        ∃ t, exec (.canArbitration c) s = .next t ∧ .canFrame c { f with data := bs } ∈ t.outbox
          ∧ Consumed true (canRing c q) [(0, toLE 8 s.now), (16, toLE 8 (bits (wordAt d 2) 63 32 * 2 ^ 32
              + s.clock.frac * 2 ^ 16 + wordAt d 2 % 256))] (s2.emit (.canFrame c { f with data := bs })) t
          ∧ Leaves rtParts (fun x i => rtRegs x i ∨ (x = .canRingdb ∧ i = canRing c q)) s1 t)))
  ∧ (∀ (s : State) (c : Nat) (f : CanFrame) (fs : List CanFrame), c < 20 → s.fb CAN_CTRL.EN c = true →
    s.f CAN_CTRL.FC_STATE c ≠ 2 → s.f CAN_CTRL.MODE c ≤ 3 → (∀ q, q < 8 → s.ringHas true (canRing c q) = false) →
    (s.canc c).route = f :: fs → (s.canc c).claims = [] →
    ∃ t, exec (.canArbitration c) s = .next t ∧ t.outbox = .canFrame c f :: s.outbox ∧ (t.canc c).route = fs
      ∧ (∀ k, k ≠ c → t.canc k = s.canc k) ∧ Leaves [.can, .outbox] noReg s t)
  ∧ (∀ (s : State) (c act ring : Nat) (f : CanFrame), c < 20 → s.fb CAN_CTRL.EN c = true →
    s.f CAN_CTRL.FC_STATE c ≠ 2 → s.fb CAN_CTRL.J1939 c = false →
    (∃ e, s.f CAN_FLTRNG.BASE c ≤ e ∧ e < s.f CAN_FLTRNG.BASE c + s.f CAN_FLTRNG.COUNT c ∧ s.fltrMatch e f = true
        ∧ (∀ k, s.f CAN_FLTRNG.BASE c ≤ k → k < e → s.fltrMatch k f = false)
        ∧ act = s.f CAN_FLTR1.ACTION e ∧ ring = s.f CAN_FLTR1.RING e)
      ∨ ((∀ k, s.f CAN_FLTRNG.BASE c ≤ k → k < s.f CAN_FLTRNG.BASE c + s.f CAN_FLTRNG.COUNT c → s.fltrMatch k f = false)
        ∧ act = s.f CAN_CTRL.DEFAULT c ∧ ring = s.f CAN_CTRL.DEFAULT_RING c) →
    (act = 0 → ∃ t, exec (.canFrameReceive c f) s = .next t ∧ Leaves [.freeCtr] noReg s t)
    ∧ (act = 2 → f.fmt = 4 → ∃ t, exec (.canFrameReceive c f) s = .next t
        ∧ t.f CAN_STAT.XL_UNTUN c = min (s.f CAN_STAT.XL_UNTUN c + 1) 0xFFFF ∧ Leaves [.freeCtr] (oneReg .canStat c) s t)
    ∧ (act = 1 → ring < 8 → s.fb CAN_RINGCFG0.EN (canRing c (8 + ring)) = true →
        s.ringHas true (canRing c (8 + ring)) = false → ∃ t, exec (.canFrameReceive c f) s = .next t
        ∧ t.f CAN_RINGCFG0.DROPS (canRing c (8 + ring)) = min (s.f CAN_RINGCFG0.DROPS (canRing c (8 + ring)) + 1) 0xFFFF
        ∧ Leaves [.freeCtr] (oneReg .canRingcfg0 (canRing c (8 + ring))) s t))
  ∧ (∀ (s s1 s2 : State) (c e : Nat) (f : CanFrame) (d : List Nat) (xs : List Byte), c < 20 →
    s.fb CAN_CTRL.EN c = true → s.f CAN_CTRL.FC_STATE c ≠ 2 → s.fb CAN_CTRL.J1939 c = false →
    s.f CAN_FLTRNG.BASE c ≤ e → e < s.f CAN_FLTRNG.BASE c + s.f CAN_FLTRNG.COUNT c → s.fltrMatch e f = true →
    (∀ k, s.f CAN_FLTRNG.BASE c ≤ k → k < e → s.fltrMatch k f = false) →
    (s.f CAN_FLTR1.ACTION e = 1 → s.f CAN_FLTR1.RING e < 8 →
      s.headDesc true (canRing c (8 + s.f CAN_FLTR1.RING e)) = (some d, s1) →
      s.ringHas true (canRing c (8 + s.f CAN_FLTR1.RING e)) = true →
      rtWrite rtCan s1 (s.f CAN_RINGCFG0.INSTANCE (canRing c (8 + s.f CAN_FLTR1.RING e))) (wordAt d 3) f.data = (.ok xs, s2) →
      ∃ t, exec (.canFrameReceive c f) s = .next t
        ∧ Consumed true (canRing c (8 + s.f CAN_FLTR1.RING e)) [(0, toLE 8 s.now ++ toLE 8 (canWord1 f)
            ++ toLE 8 (f.af % 2 ^ 32 * 2 ^ 32 + s.clock.frac * 2 ^ 16))] s2 t)
    ∧ (s.f CAN_FLTR1.ACTION e = 2 → f.fmt ≠ 4 → s.fb CAN_TUNCFG.EN 0 = true →
      (s.tun (s.f CAN_FLTR1.TUNNEL e)).inbound = false → (s.tun (s.f CAN_FLTR1.TUNNEL e)).msgs = [] →
      f.data.length ≤ 1464 →
      1 < (s.tun (s.f CAN_FLTR1.TUNNEL e)).maxMsgs → (s.tun (s.f CAN_FLTR1.TUNNEL e)).maxWaitUs ≠ 0 →
      ∃ t, exec (.canFrameReceive c f) s = .next t
        ∧ t.tun (s.f CAN_FLTR1.TUNNEL e) = { s.tun (s.f CAN_FLTR1.TUNNEL e) with
            msgs := [{ isCan := true, busId := s.f CAN_CTRL.BUS_ID c, frame := f, time := s.now }], firstNs := s.now }
        ∧ Leaves [.tunnels] noReg s t)
    ∧ (∀ b, s.f CAN_FLTR1.ACTION e = 4 → b = s.f CAN_FLTR1.DEST e → b < 20 →
      ((s.canc b).route.length < 32 → s.f CAN_CTRL.FC_STATE b ≠ 2 → s.carries b f.fmt = true → s.fb CAN_CTRL.EN b = true →
        ∃ t, exec (.canFrameReceive c f) s = .next t
          ∧ t.canc b = { s.canc b with route := (s.canc b).route ++ [f] }
          ∧ (∀ k, k ≠ b → t.canc k = s.canc k) ∧ Leaves [.can] noReg s t)
      ∧ (32 ≤ (s.canc b).route.length ∨ s.f CAN_CTRL.FC_STATE b = 2 ∨ s.carries b f.fmt = false →
        ∃ t, exec (.canFrameReceive c f) s = .next t
          ∧ t.f CAN_STAT.ROUTE_DROP b = min (s.f CAN_STAT.ROUTE_DROP b + 1) 0xFFFF ∧ Leaves [] (oneReg .canStat b) s t)))
  ∧ (∀ (s : State) (c n : Nat) (f : CanFrame), c < 20 → s.fb CAN_CTRL.EN c = true → s.f CAN_CTRL.FC_STATE c ≠ 2 →
    s.fb CAN_CTRL.J1939 c = true → n < 8 → s.fb CAN_J19391.EN (slotNo c n) = true → isExt f.fmt = true →
    (f.id = 0x18EEFF00 + s.f CAN_J19391.ADDR (slotNo c n) → s.f CAN_J19391.STATE (slotNo c n) ≠ 3 →
      (∀ k, k < 8 → k ≠ n → s.fb CAN_J19391.EN (slotNo c k) = true →
        s.f CAN_J19391.ADDR (slotNo c k) ≠ s.f CAN_J19391.ADDR (slotNo c n)) →
      ∃ t, exec (.canFrameReceive c f) s = .next t
        ∧ (s.r .canJ19390 (slotNo c n) < leNat f.data → t.r .canJ19391 (slotNo c n) = s.r .canJ19391 (slotNo c n)
            ∧ (t.canc c).claims = (s.canc c).claims ++ [s.claimFrame (slotNo c n)])
        ∧ (leNat f.data ≤ s.r .canJ19390 (slotNo c n) → t.f CAN_J19391.STATE (slotNo c n) = 3
            ∧ t.fb CAN_J19391.LOST (slotNo c n) = true
            ∧ (s.fb CAN_J19391.ARB_CAPABLE (slotNo c n) = false → n ∈ (t.canc c).owe)))
    ∧ (f.id / 65536 % 1024 = 0xEA → leAt f.data 0 3 = 0xEE00 →
      (f.id / 256 % 256 = 0xFF ∨ f.id / 256 % 256 = s.f CAN_J19391.ADDR (slotNo c n)) →
      ∃ t, exec (.canFrameReceive c f) s = .next t
        ∧ (s.f CAN_J19391.STATE (slotNo c n) ≠ 3 → s.claimFrame (slotNo c n) ∈ (t.canc c).claims)
        ∧ (s.f CAN_J19391.STATE (slotNo c n) = 3 → s.cannotFrame (slotNo c n) ∈ (t.canc c).claims)))
  ∧ (∀ (s : State) (c : Nat), c < 20 → s.fb CAN_CTRL.EN c = true → s.f CAN_CTRL.FC_STATE c ≠ 2 →
    ∃ t, exec (.busOff c) s = .next t ∧ t.f CAN_CTRL.FC_STATE c = 2
      ∧ t.f CAN_STAT.BUSOFF c = min (s.f CAN_STAT.BUSOFF c + 1) 0xFFFF
      ∧ (∀ q, q < 8 → s.fb CAN_RINGCFG0.EN (canRing c q) = true →
          dist32 (s.f CAN_RINGDB.PROD (canRing c q)) (s.f CAN_RINGDB.CONS (canRing c q)) ≤ s.ringSize true (canRing c q) →
          t.f CAN_RINGDB.CONS (canRing c q) = s.f CAN_RINGDB.PROD (canRing c q))
      ∧ Leaves rtParts (fun x i => rtRegs x i ∨ ((x = .canCtrl ∨ x = .canStat) ∧ i = c)
          ∨ (x = .canRingdb ∧ ∃ q, q < 8 ∧ i = canRing c q ∧ s.fb CAN_RINGCFG0.EN i = true)) s t)
  ∧ (∀ (s : State) (c : Nat), c < 20 →
    (s.f CAN_CTRL.FC_STATE c = 2 → s.fb CAN_CTRL.AUTO_RECOVER c = true → ∃ t, exec (.busOffRecovery c) s = .next t
      ∧ t.f CAN_CTRL.FC_STATE c = 0 ∧ t.f CAN_CTRL.TEC c = 0 ∧ t.f CAN_CTRL.REC c = 0
      ∧ Leaves [] (oneReg .canCtrl c) s t)
    ∧ (s.f CAN_CTRL.FC_STATE c ≠ 2 ∨ s.fb CAN_CTRL.AUTO_RECOVER c = false → exec (.busOffRecovery c) s = .next s))
  ∧ (∀ (s : State) (m : Master) (c n : Nat) (v : Word), c < 20 → n < 8 →
    s.accepts .canJ19391 (slotNo c n) m .whole (withBit v 55) →
    (s.fb CAN_J19391.EN (slotNo c n) = false ∨ s.f CAN_J19391.ADDR (slotNo c n) ≠ bits v.toNat 63 56) →
    ∃ t, exec (.addressClaim m c n v) s = .next t ∧ t.f CAN_J19391.STATE (slotNo c n) = 1
      ∧ t.fb CAN_J19391.EN (slotNo c n) = true ∧ t.f CAN_J19391.ADDR (slotNo c n) = bits v.toNat 63 56
      ∧ (t.canc c).claims = (s.canc c).claims
          ++ [{ id := 0x18EEFF00 + bits v.toNat 63 56, fmt := 1, data := toLE 8 (s.r .canJ19390 (slotNo c n)) }]
      ∧ NMap.get (t.canc c).claimNs 0 n = s.now ∧ Leaves [.can] (oneReg .canJ19391 (slotNo c n)) s t)
  ∧ (∀ (s : State) (c n : Nat), c < 20 → n < 8 →
    (s.f CAN_J19391.STATE (slotNo c n) = 1 → reached s.now (NMap.get (s.canc c).claimNs 0 n + 250000000) = true →
      ∃ t, exec (.claimHoldExpiry c n) s = .next t ∧ t.f CAN_J19391.STATE (slotNo c n) = 2
        ∧ t.f CAN_J19391.ADDR (slotNo c n) = s.f CAN_J19391.ADDR (slotNo c n)
        ∧ Leaves [] (oneReg .canJ19391 (slotNo c n)) s t)
    ∧ (s.f CAN_J19391.STATE (slotNo c n) ≠ 1 ∨ reached s.now (NMap.get (s.canc c).claimNs 0 n + 250000000) = false →
      exec (.claimHoldExpiry c n) s = .next s)
    ∧ (n ∈ (s.canc c).owe → ∃ t, exec (.cannotClaim c n) s = .next t
      ∧ (t.canc c).claims = (s.canc c).claims
          ++ [{ id := 0x18EEFFFE, fmt := 1, data := toLE 8 (s.r .canJ19390 (slotNo c n)) }]
      ∧ n ∉ (t.canc c).owe ∧ Leaves [.can] noReg s t)
    ∧ (n ∉ (s.canc c).owe → exec (.cannotClaim c n) s = .next s))

/-- R15, R225, R227, R297, R298, R300, R301: the tunnel table is read at EN, an AVTPDU leaves when its wait is over and an
inbound one is routed by bus; a bridged request is carried through its owner's window, posted or with a completion that may
time out, under the requester ID of its instance's virtual function; a TDI in ERROR sends none to the host, and over lost
recovered clocks none leaves. -/
def Obligations.TunnelsAndBridgesCarryMessages : Prop :=
  (∀ (s : State) (m : Master) (v : Word), s.accepts .canTuncfg 0 m .whole (withBit v 5) →
    s.fb CAN_TUNCFG.EN 0 = false →
    (∀ a, bits v.toNat 63 6 * 64 ≤ a → a < bits v.toNat 63 6 * 64 + 2048 → s.place a = .dram (a - dramBase)
      ∧ s.carved (a - dramBase) = false ∧ (a - dramBase) / 128 ∉ s.mem.poison
      ∧ (∀ x ∈ s.mem.flips, blockOf x.line ≠ blockOf ((a - dramBase) / 128))
      ∧ (∀ x ∈ s.mem.chkFlips, x.line ≠ blockOf ((a - dramBase) / 128))
      ∧ s.tagGood ((a - dramBase) / 128) (s.lineBytes ((a - dramBase) / 128)) = true) →
    ∃ t, exec (.tunnelEnable m v) s = .next t ∧ t.fb CAN_TUNCFG.EN 0 = true
      ∧ t.f CAN_TUNCFG.TUN_BASE 0 = bits v.toNat 63 6
      ∧ (∀ k, k < 64 → t.tun k = tunnelOf (s.bytes (bits v.toNat 63 6 * 64 + 32 * k) 32))
      ∧ Leaves (.tunnels :: accessParts) (fun r i => (r = .canTuncfg ∧ i = 0) ∨ accessRegs r i) s t)
  ∧ (∀ (s : State) (m : Master) (v : Word), s.accepts .canTuncfg 0 m .whole (withBit v 5) → s.fb CAN_TUNCFG.EN 0 = true →
    ∃ t, exec (.tunnelEnable m v) s = .next t ∧ Leaves [] (oneReg .canTuncfg 0) s t)
  ∧ (∀ (s : State) (k : Nat), k < 64 →
    ((s.tun k).msgs ≠ [] → reached s.now ((s.tun k).firstNs + 1000 * (s.tun k).maxWaitUs) = true →
      ∃ t, exec (.tunnelFlush k) s = .next t 
        ∧ t.outbox = .avtpdu (s.tun k).dmac (s.tun k).vid (s.tun k).pcp (s.tun k).stream (s.tun k).seq (s.tun k).msgs :: s.outbox
        ∧ t.tun k = { s.tun k with msgs := [], seq := ((s.tun k).seq + 1) % 256 }
        ∧ (∀ j, j ≠ k → t.tun j = s.tun j) ∧ Leaves [.outbox, .tunnels] noReg s t)
    ∧ ((s.tun k).msgs = [] ∨ reached s.now ((s.tun k).firstNs + 1000 * (s.tun k).maxWaitUs) = false →
      exec (.tunnelFlush k) s = .next s))
  ∧ (∀ (s : State) (stream seq : Nat) (ms : List AcfMsg), (s.fb CAN_TUNCFG.EN 0 = false
      ∨ ∀ k, k < 64 → ¬((s.tun k).inbound = true ∧ (s.tun k).stream = stream)) →
    exec (.avtpduReceive stream seq ms) s = .next s)
  ∧ (∀ (s : State) (k stream seq : Nat) (ms : List AcfMsg), s.fb CAN_TUNCFG.EN 0 = true → k < 64 →
    (s.tun k).inbound = true → (s.tun k).stream = stream →
    (∀ j, j < k → ¬((s.tun j).inbound = true ∧ (s.tun j).stream = stream)) →
    ∃ t, exec (.avtpduReceive stream seq ms) s = .next t ∧ (t.tun k).expect = some ((seq + 1) % 256)
      ∧ (∀ c, c < 20 → t.f CAN_STAT.SEQ_GAP c = if bit (s.tun k).ctrlMask c = true ∧ (s.tun k).expect.isSome = true
            ∧ (s.tun k).expect ≠ some (seq % 256) then min (s.f CAN_STAT.SEQ_GAP c + 1) 0xFFFF else s.f CAN_STAT.SEQ_GAP c)
      ∧ (∀ x, ms = [x] → (∀ c, c < 20 → ¬(x.isCan = true ∧ s.f CAN_CTRL.BUS_ID c = x.busId
            ∧ bit (s.tun k).ctrlMask c = true)) → (t.tun k).skipped = (s.tun k).skipped + 1 ∧ t.net.can = s.net.can)
      ∧ (∀ x c, ms = [x] → c < 20 → x.isCan = true → s.f CAN_CTRL.BUS_ID c = x.busId → bit (s.tun k).ctrlMask c = true →
          (∀ b, b < c → ¬(s.f CAN_CTRL.BUS_ID b = x.busId ∧ bit (s.tun k).ctrlMask b = true)) →
          (s.canc c).route.length < 32 → s.f CAN_CTRL.FC_STATE c ≠ 2 → s.carries c x.frame.fmt = true →
          s.fb CAN_CTRL.EN c = true →
          t.canc c = { s.canc c with
            route := (s.canc c).route ++ [{ x.frame with esi := decide (s.f CAN_CTRL.FC_STATE c = 1) }] })
      ∧ Leaves [.can, .tunnels] (fun r i => r = .canStat ∧ i < 20) s t)
  ∧ (∀ (s : State) (m : Master) (a k : Nat) (w : Option (List Byte)),
    ((∀ n, n < 32 → ¬(s.fb SYS_BRWIN1.EN n = true ∧ s.f SYS_BRWIN0.BASE n ≤ a / 2 ^ 20
        ∧ a / 2 ^ 20 ≤ s.f SYS_BRWIN1.LIMIT n ∧ s.f SYS_BRWIN0.OWNER n = s.partOf m)) →
      ∃ t, exec (.bridgeRequest m a w k) s = .next t ∧ t.outbox = faultAt m :: s.outbox ∧ Leaves [.outbox] noReg s t)
    ∧ (∀ n, n < 32 → s.fb SYS_BRWIN1.EN n = true → s.f SYS_BRWIN0.BASE n ≤ a / 2 ^ 20 →
      a / 2 ^ 20 ≤ s.f SYS_BRWIN1.LIMIT n → s.f SYS_BRWIN0.OWNER n = s.partOf m →
      (∀ j, j < 32 → j ≠ n → ¬(s.fb SYS_BRWIN1.EN j = true ∧ s.f SYS_BRWIN0.BASE j ≤ a / 2 ^ 20
        ∧ a / 2 ^ 20 ≤ s.f SYS_BRWIN1.LIMIT j)) →
      let far := s.f SYS_BRWIN2.REMOTE_BASE n * 2 ^ 20 + (a - s.f SYS_BRWIN0.BASE n * 2 ^ 20)
      let req : BridgeReq := { tag := s.net.nextTag, win := n, master := m, write := w.isSome, np := true, bytes := k,
                               startNs := s.now }
      let id := s.requesterId (s.f SYS_BRWIN1.TARGET n) (s.masterInst m)
      let cell (vc : Nat) (b : CellBody) : Cell :=
        { dest := s.f SYS_BRWIN1.DEV_ID n, src := s.f WSK_ID.DEV_ID 0, vc := vc, ttl := 63, body := b }
      (s.hostStopped n (s.masterInst m) = true → ∃ t, exec (.bridgeRequest m a w k) s = .next t
          ∧ t.outbox = faultAt m :: s.outbox ∧ Leaves [.outbox] noReg s t)
      ∧ (s.hostStopped n (s.masterInst m) = false → s.farClosed = true → ∃ t, exec (.bridgeRequest m a w k) s = .next t
          ∧ t.outbox = .clockError m :: s.outbox ∧ Leaves [.outbox] noReg s t)
      ∧ (s.hostStopped n (s.masterInst m) = false → s.farClosed = false →
      (∀ bs, w = some bs → s.fb SYS_BRWIN1.NP_WRITE n = false → s.f SYS_BRWIN1.TARGET n ≠ 2 →
        ∃ t, exec (.bridgeRequest m a w k) s = .next t
          ∧ t.outbox = .done m :: .pcie (s.f SYS_BRWIN1.TARGET n) far (some bs) k id :: s.outbox
          ∧ Leaves [.outbox] noReg s t)
      ∧ (∀ bs p, w = some bs → s.fb SYS_BRWIN1.NP_WRITE n = false → s.f SYS_BRWIN1.TARGET n = 2 →
        s.wskRoute (s.f SYS_BRWIN1.DEV_ID n) = some p →
        ∃ t, exec (.bridgeRequest m a w k) s = .next t ∧ t.outbox = .done m :: s.outbox
          ∧ (t.wport p).localQ = (s.wport p).localQ ++ cellsOf (cell 2 (.posted far bs)) ∧ Leaves [.outbox, .wsk] noReg s t)
      ∧ (w = none → s.f SYS_BRWIN1.TARGET n ≠ 2 → ∃ t, exec (.bridgeRequest m a w k) s = .next t
          ∧ t.outbox = .pcie (s.f SYS_BRWIN1.TARGET n) far none k id :: s.outbox ∧ t.net.bridge = s.net.bridge ++ [req]
          ∧ t.net.nextTag = s.net.nextTag + 1 ∧ Leaves [.outbox, .bridge, .nextTag] noReg s t)
      ∧ (∀ bs, w = some bs → s.fb SYS_BRWIN1.NP_WRITE n = true → s.f SYS_BRWIN1.TARGET n ≠ 2 →
        ∃ t, exec (.bridgeRequest m a w k) s = .next t
          ∧ t.outbox = .pcie (s.f SYS_BRWIN1.TARGET n) (far / 4096 * 4096) none 0 id
              :: .pcie (s.f SYS_BRWIN1.TARGET n) far (some bs) k id :: s.outbox
          ∧ t.net.bridge = s.net.bridge ++ [req] ∧ t.net.nextTag = s.net.nextTag + 1
          ∧ Leaves [.outbox, .bridge, .nextTag] noReg s t)
      ∧ (∀ p, (w = none ∨ s.fb SYS_BRWIN1.NP_WRITE n = true) → s.f SYS_BRWIN1.TARGET n = 2 →
        s.wskRoute (s.f SYS_BRWIN1.DEV_ID n) = some p →
        ∃ t, exec (.bridgeRequest m a w k) s = .next t ∧ t.outbox = s.outbox
          ∧ (t.wport p).localQ = (s.wport p).localQ ++ cellsOf (cell 3 (.nonPosted far s.net.nextTag k w))
          ∧ t.net.bridge = s.net.bridge ++ [req] ∧ Leaves [.wsk, .bridge, .nextTag] noReg s t))))
  ∧ (∀ (s : State) (tag : Nat) (r : BridgeReq), s.net.bridge.find? (fun r => r.tag == tag) = some r → r.forward = false →
    (reached s.now (r.startNs + 1000 * s.f SYS_BRWIN2.CPL_TIMEOUT_US r.win) = false → exec (.cplTimeout tag) s = .next s)
    ∧ (reached s.now (r.startNs + 1000 * s.f SYS_BRWIN2.CPL_TIMEOUT_US r.win) = true → ∃ t, exec (.cplTimeout tag) s = .next t
      ∧ t.outbox = faultAt r.master :: s.outbox ∧ (∀ x, x ∈ t.net.bridge ↔ x ∈ s.net.bridge ∧ x.tag ≠ tag)
      ∧ Leaves [.outbox, .bridge] noReg s t))
  ∧ (∀ (s : State) (tag : Nat), (∀ r ∈ s.net.bridge, r.tag ≠ tag) → exec (.cplTimeout tag) s = .next s)
  ∧ (∀ (s : State) (n : Nat), n < 32 → ∃ t, exec (.postedWriteError n) s = .next t
      ∧ t.f SYS_BRWIN0.ERRS n = min (s.f SYS_BRWIN0.ERRS n + 1) 0xFFFF
      ∧ (s.f SYS_BRWIN0.OWNER n = 8 → s.fb SYS_IRQCFG.EN 0 = true → t.outbox = .mgrIrq 19 n :: s.outbox)
      ∧ (s.f SYS_BRWIN0.OWNER n ≠ 8 → ∃ i k, t.outbox = .instIrq i k :: s.outbox)
      ∧ Leaves [.freeCtr, .keptIrqs, .outbox] (oneReg .sysBrwin0 n) s t)

/-- R301, R305 to R310, R312 to R314: a port trains and comes down; cells arrive in order once, acknowledge and return
credits, make up whole packets that are consumed, or are passed on or dropped and counted; a cell leaves on its credits, by
precedence, and again where the partner asks for replay. (That each packet begins a cell of its own is the model's choice, log entry 179.) -/
def Obligations.PortsTrainAndCarryCells : Prop :=
  (∀ (s : State) (p width peer : Nat), p < 4 → (width = 4 ∨ width = 2) →
    (s.fb WSK_PORTCFG.EN p = false → exec (.linkTraining p width peer) s = .next s)
    ∧ (s.fb WSK_PORTCFG.EN p = true → ∃ t, exec (.linkTraining p width peer) s = .next t
        ∧ t.f WSK_PORTSTAT.STATE p = 2 ∧ t.f WSK_PORTSTAT.WIDTH p = (if width = 4 then 2 else 1)
        ∧ t.f WSK_PORTSTAT.PEER_ID p = peer % 2 ^ 16 ∧ (t.wport p).trained = true ∧ (t.wport p).unacked = []
        ∧ (t.wport p).txSeq = 0 ∧ (t.wport p).rxSeq = 0
        ∧ [0, 1, 2, 3, 4].map (fun v => NMap.get (t.wport p).credits 0 v) = [4, 96, 96, 32, 48]
        ∧ t.f WSK_PORTSTAT.RETRAINS p = (if (s.wport p).trained then min (s.f WSK_PORTSTAT.RETRAINS p + 1) 0xFFFF
            else s.f WSK_PORTSTAT.RETRAINS p)
        ∧ (s.f WSK_PORTSTAT.STATE p ≠ 2 → (∀ q, q ≠ p → t.wport q = s.wport q)
            ∧ Leaves [.wsk, .record] (oneReg .wskPortstat p) s t)
        ∧ Leaves [.wsk, .record, .freeCtr, .keptIrqs, .outbox]
            (fun r i => (r = .wskPortstat ∧ i = p) ∨ r = .sysBrwin0 ∨ r = .wskStat) s t))
  ∧ (∀ (s : State) (p : Nat), p < 4 → (s.f WSK_PORTSTAT.STATE p ≠ 2 → exec (.portDown p) s = .next s)
    ∧ (s.f WSK_PORTSTAT.STATE p = 2 → ∃ t, exec (.portDown p) s = .next t ∧ t.f WSK_PORTSTAT.STATE p = 0
        ∧ t.f WSK_PORTSTAT.WIDTH p = 0 ∧ (t.wport p).unacked = [] ∧ (t.wport p).transit = [] ∧ (t.wport p).localQ = []
        ∧ (∀ c n, (s.wport p).unacked = [c] → c.vc < 5 → c.src = s.f WSK_ID.DEV_ID 0 → s.postedWin c = some n →
            t.f SYS_BRWIN0.ERRS n = min (s.f SYS_BRWIN0.ERRS n + 1) 0xFFFF)
        ∧ (∀ c, (s.wport p).transit = [] → (s.wport p).localQ = [c] → c.dest ≠ 0xFFFF →
            (t.wskRoute c.dest = none → t.f WSK_STAT.NO_ROUTE 0 = min (s.f WSK_STAT.NO_ROUTE 0 + 1) 0xFFFF)
            ∧ (∀ q, t.wskRoute c.dest = some q → (t.wport q).localQ = (s.wport q).localQ ++ [c]))
        ∧ (∀ fr, s.net.traj.waiting = some fr → t.upPorts = [] →
            t.net.traj.waiting = none ∧ t.net.traj.released = true)
        ∧ Leaves [.wsk, .freeCtr, .keptIrqs, .outbox, .traj, .bridge]
            (fun r i => (r = .wskPortstat ∧ i = p) ∨ r = .sysBrwin0 ∨ r = .wskStat) s t))
  ∧ (∀ (s : State) (p : Nat) (c : Cell), p < 4 →
    (s.f WSK_PORTSTAT.STATE p ≠ 2 → ∀ b, exec (.cellReceive p c b) s = .next s)
    ∧ (c.seq % 256 ≠ (s.wport p).rxSeq → exec (.cellReceive p c false) s = .next s)
    ∧ (s.f WSK_PORTSTAT.STATE p = 2 → (s.wport p).replaying = false → (s.wport p).replays1ms = 0 →
        ∃ t, exec (.cellReceive p c true) s = .next t ∧ .replay p ∈ t.outbox ∧ (t.wport p).replaying = true
          ∧ (t.wport p).rxSeq = (s.wport p).rxSeq
          ∧ t.f WSK_PORTSTAT.REPLAYS p = min (s.f WSK_PORTSTAT.REPLAYS p + 1) 0xFF
          ∧ Leaves [.wsk, .outbox] (oneReg .wskPortstat p) s t)
    ∧ (s.f WSK_PORTSTAT.STATE p = 2 → (s.wport p).replaying = false → (s.wport p).replays1ms = 15 →
        s.since (s.wport p).replayNs ≤ 1000000 →
        ∃ t, exec (.cellReceive p c true) s = .next t ∧ t.f WSK_PORTSTAT.STATE p = 1))
  ∧ (∀ (s : State) (p : Nat) (c : Cell), p < 4 → s.f WSK_PORTSTAT.STATE p = 2 → c.seq % 256 = (s.wport p).rxSeq →
    c.dest ≠ 0xFFFF →
    let k := 16 * c.src + 2 * c.vc
    let n := NMap.get s.net.parts 0 k
    let whole := (∀ a, c.body ≠ .more a) ∧ n + 1 = packetCells c.body
    let s1 := (s.modWsk p fun w => { w with rxSeq := (w.rxSeq + 1) % 256, replaying := false }).takeHeader p c
    let s0 : State := { s1 with net.parts := NMap.set s1.net.parts 0 k 0 }
    ∃ t, exec (.cellReceive p c false) s = .next t
      ∧ (t.wport p).rxSeq = ((s.wport p).rxSeq + 1) % 256 ∧ (t.wport p).replaying = false
      ∧ NMap.get (t.wport p).credits 0 c.crVc = NMap.get (s.wport p).credits 0 c.crVc + c.crCells
      ∧ (∀ a, (s.wport p).unacked.find? (fun u => u.seq == c.ack) = some a →
          ∃ xs, (s.wport p).unacked = xs ++ a :: (t.wport p).unacked)
      ∧ ((∀ u ∈ (s.wport p).unacked, u.seq ≠ c.ack) → (t.wport p).unacked = (s.wport p).unacked)
      ∧ (c.dest ≠ s.f WSK_ID.DEV_ID 0 → s.wskRoute c.dest = none →
          t.f WSK_STAT.NO_ROUTE 0 = min (s.f WSK_STAT.NO_ROUTE 0 + 1) 0xFFFF
          ∧ NMap.get (t.wport p).owed 0 c.vc = NMap.get (s.wport p).owed 0 c.vc + 1
          ∧ Leaves [.wsk] (oneReg .wskStat 0) s t)
      ∧ (∀ q, c.dest ≠ s.f WSK_ID.DEV_ID 0 → s.wskRoute c.dest = some q → c.ttl ≤ 1 →
          t.f WSK_STAT.TTL_DROP 0 = min (s.f WSK_STAT.TTL_DROP 0 + 1) 0xFFFF
          ∧ NMap.get (t.wport p).owed 0 c.vc = NMap.get (s.wport p).owed 0 c.vc + 1
          ∧ Leaves [.wsk] (oneReg .wskStat 0) s t)
      ∧ (∀ q, c.dest ≠ s.f WSK_ID.DEV_ID 0 → s.wskRoute c.dest = some q → 1 < c.ttl → (∀ a k, c.body ≠ .time a k) →
          (t.wport q).transit = (s.wport q).transit ++ [(p, { c with ttl := c.ttl - 1 })]
          ∧ NMap.get (t.wport p).owed 0 c.vc = NMap.get (s.wport p).owed 0 c.vc ∧ Leaves [.wsk] noReg s t)
      ∧ (c.dest = s.f WSK_ID.DEV_ID 0 → NMap.get (t.wport p).owed 0 c.vc = NMap.get (s.wport p).owed 0 c.vc + 1)
      ∧ (∀ a, c.dest = s.f WSK_ID.DEV_ID 0 → c.body = .more a → NMap.get t.net.parts 0 k = n + 1
          ∧ Leaves [.wsk, .parts] noReg s t)
      ∧ (c.dest = s.f WSK_ID.DEV_ID 0 → (∀ a, c.body ≠ .more a) → n + 1 ≠ packetCells c.body →
          NMap.get t.net.parts 0 k = 0 ∧ Leaves [.wsk, .parts] noReg s t)
      ∧ (∀ tag ok bs r, c.dest = s.f WSK_ID.DEV_ID 0 → whole → c.body = .completion tag ok bs →
          s.net.bridge.find? (fun r => r.tag == tag) = some r → r.forward = false →
          (∀ x, x ∈ t.net.bridge ↔ x ∈ s.net.bridge ∧ x.tag ≠ tag)
          ∧ t.outbox = (if ok = false then faultAt r.master else if r.write then .done r.master
              else .memData r.master bs) :: s.outbox ∧ Leaves [.wsk, .bridge, .outbox, .parts] noReg s t)
      ∧ (∀ a bs, c.dest = s.f WSK_ID.DEV_ID 0 → whole → c.body = .posted a bs →
          (∀ w, w < 16 → ¬(s.fb WSK_IN0.EN w = true ∧ s.f WSK_IN1.SRC_ID w = c.src
            ∧ s.f WSK_IN0.BASE w ≤ a / 2 ^ 20 ∧ a / 2 ^ 20 ≤ s.f WSK_IN1.LIMIT w)) →
          t.f WSK_STAT.NO_WINDOW 0 = min (s.f WSK_STAT.NO_WINDOW 0 + 1) 0xFFFF ∧ Leaves [.wsk, .parts] (oneReg .wskStat 0) s t)
      ∧ (∀ a bs w, c.dest = s.f WSK_ID.DEV_ID 0 → whole → c.body = .posted a bs → s.wskIn c.src a = some w →
          t.mem.cells = (instWrite s0 (s.f WSK_IN0.INSTANCE w) (a - s.f WSK_IN0.BASE w * 2 ^ 20) bs).2.mem.cells)
      ∧ (∀ a tag len d q, c.dest = s.f WSK_ID.DEV_ID 0 → whole → c.body = .nonPosted a tag len d →
          s.wskIn c.src a = none → s.wskRoute c.src = some q →
          t.f WSK_STAT.NO_WINDOW 0 = min (s.f WSK_STAT.NO_WINDOW 0 + 1) 0xFFFF
          ∧ (t.wport q).localQ = (s.wport q).localQ ++ cellsOf { dest := c.src, src := c.dest, vc := 1, ttl := 63,
                                                                 body := .completion tag false [] })
      ∧ (∀ a tag len q w bs s1, c.dest = s.f WSK_ID.DEV_ID 0 → whole → c.body = .nonPosted a tag len none →
          s.wskIn c.src a = some w → s.wskRoute c.src = some q →
          instRead s0 (s.f WSK_IN0.INSTANCE w) (a - s.f WSK_IN0.BASE w * 2 ^ 20) len = (.ok bs, s1) →
          (t.wport q).localQ = (s1.wport q).localQ ++ cellsOf { dest := c.src, src := c.dest, vc := 1, ttl := 63,
                                                                  body := .completion tag true bs })
      ∧ (∀ a tag len bs q w xs s1, c.dest = s.f WSK_ID.DEV_ID 0 → whole → c.body = .nonPosted a tag len (some bs) →
          s.wskIn c.src a = some w → s.wskRoute c.src = some q →
          instWrite s0 (s.f WSK_IN0.INSTANCE w) (a - s.f WSK_IN0.BASE w * 2 ^ 20) bs = (.ok xs, s1) →
          t.mem.cells = s1.mem.cells
          ∧ (t.wport q).localQ = (s1.wport q).localQ ++ cellsOf { dest := c.src, src := c.dest, vc := 1, ttl := 63,
                                                                    body := .completion tag true [] }))
  ∧ (∀ (s : State) (p vc : Nat), p < 4 → vc < 5 →
    (s.f WSK_PORTSTAT.STATE p ≠ 2 ∨ 128 ≤ (s.wport p).unacked.length
        ∨ (∃ v, v < vc ∧ ((s.wport p).pick v).isSome = true) ∨ NMap.get (s.wport p).credits 0 vc = 0
        ∨ ((∀ x ∈ (s.wport p).transit, x.2.vc ≠ vc) ∧ NMap.get (s.wport p).credits 0 vc ≤ 1)
        ∨ ((∀ x ∈ (s.wport p).transit, x.2.vc ≠ vc) ∧ (∀ c ∈ (s.wport p).localQ, c.vc ≠ vc)) →
      exec (.cellTransmit p vc none) s = .next s)
    ∧ (s.f WSK_PORTSTAT.STATE p = 2 → (s.wport p).unacked.length < 128 →
      (∀ v, v < vc → (s.wport p).pick v = none) →
      (∀ i c, (s.wport p).transit.find? (fun x => x.2.vc == vc) = some (i, c) → (∀ a k, c.body ≠ .time a k) →
        1 ≤ NMap.get (s.wport p).credits 0 vc →
        (NMap.get (s.wport p).lastTransit 0 vc ≠ 1 ∨ (∀ x ∈ (s.wport p).localQ, x.vc ≠ vc)) →
        ∃ t cv cn, exec (.cellTransmit p vc none) s = .next t ∧ cn ≤ 15
          ∧ (let o : Cell := { c with
               seq := (s.wport p).txSeq, ack := ((s.wport p).rxSeq + 255) % 256, crVc := cv, crCells := cn }
             t.outbox = .cell p o :: s.outbox ∧ (t.wport p).unacked = (s.wport p).unacked ++ [o])
          ∧ NMap.get (t.wport p).credits 0 vc = NMap.get (s.wport p).credits 0 vc - 1
          ∧ (t.wport p).txSeq = ((s.wport p).txSeq + 1) % 256 ∧ (t.wport p).localQ = (s.wport p).localQ
          ∧ (t.wport p).transit.length + 1 = (s.wport p).transit.length
          ∧ (i ≠ p → NMap.get (t.wport i).owed 0 vc
              = NMap.get (s.wport i).owed 0 vc + if t.copyWaits i c then 0 else 1)
          ∧ Leaves [.wsk, .outbox] noReg s t)
      ∧ (∀ c, (s.wport p).localQ.find? (fun x => x.vc == vc) = some c → (∀ a k, c.body ≠ .time a k) →
        2 ≤ NMap.get (s.wport p).credits 0 vc →
        (NMap.get (s.wport p).lastTransit 0 vc = 1 ∨ (∀ x ∈ (s.wport p).transit, x.2.vc ≠ vc)) →
        ∃ t cv cn, exec (.cellTransmit p vc none) s = .next t ∧ cn ≤ 15
          ∧ (let o : Cell := { c with
               seq := (s.wport p).txSeq, ack := ((s.wport p).rxSeq + 255) % 256, crVc := cv, crCells := cn }
             t.outbox = .cell p o :: s.outbox ∧ (t.wport p).unacked = (s.wport p).unacked ++ [o])
          ∧ NMap.get (t.wport p).credits 0 vc = NMap.get (s.wport p).credits 0 vc - 1
          ∧ (t.wport p).transit = (s.wport p).transit ∧ (t.wport p).localQ.length + 1 = (s.wport p).localQ.length
          ∧ NMap.get (t.wport p).owed 0 cv + cn = NMap.get (s.wport p).owed 0 cv
          ∧ (∀ q, q ≠ p → t.wport q = s.wport q) ∧ Leaves [.wsk, .outbox] noReg s t))
    ∧ (∀ q, s.f WSK_PORTSTAT.STATE p = 2 → ∃ t, exec (.cellTransmit p vc (some q)) s = .next t
      ∧ t.outbox = (((s.wport p).unacked.drop ((s.wport p).unacked.findIdx fun c => c.seq == q)).map
          fun c => Out.cell p c).reverse ++ s.outbox
      ∧ Leaves [.outbox] noReg s t))

/-- R312, R315 to R320: the time source sends through every enabled port; a time message passes on with its correction and
goes to the servo unless two sources send; delays are averaged; dozing partners meet, search, pull and align. -/
def Obligations.RingTimeAndDozeKeepPartnersAligned : Prop :=
  (∀ s : State, s.fb WSK_ID.TIME_SRC 0 = false → exec .timeMessageSend s = .next s)
  ∧ (∀ s : State, s.fb WSK_ID.TIME_SRC 0 = true → ∃ t, exec .timeMessageSend s = .next t
      ∧ (∀ p, t.wport p = if p < 4 ∧ s.fb WSK_PORTCFG.EN p = true then { s.wport p with
            localQ := (s.wport p).localQ ++ [{ dest := 0xFFFF, src := s.f WSK_ID.DEV_ID 0, vc := 0,
                                               ttl := s.f WSK_ID.FLOOD_TTL 0, body := .time s.now 0 }] } else s.wport p)
      ∧ Leaves [.wsk] noReg s t)
  ∧ (∀ (s : State) (p : Nat) (c : Cell) (stamp : Nat) (k : Int), p < 4 → s.f WSK_PORTSTAT.STATE p = 2 →
    c.seq % 256 = (s.wport p).rxSeq → c.dest = 0xFFFF → c.body = .time stamp k →
    NMap.get s.net.parts 0 (16 * c.src + 2 * c.vc + 1) = 0 →
    ∃ t, exec (.cellReceive p c false) s = .next t
      ∧ (s.fb WSK_ID.TIME_SRC 0 = false → s.net.timeSrcs = [] ∨ s.net.timeSrcs = [c.src] →
          t.outbox = .timeToServo stamp k s.now :: s.outbox
          ∧ (∀ q, q < 4 → q ≠ p → bit (s.f WSK_ID.FLOOD_PORTS 0) q = true → 1 < c.ttl →
              (t.wport q).transit = (s.wport q).transit ++ [(p, { c with
                ttl := c.ttl - 1
                body := .time stamp (k + (s.f WSK_DOZESTAT.LINK_DELAY_NS p : Int) * 65536
                  - ((s.clock.ns * 65536 + s.clock.frac : Nat) : Int)) })]))
      ∧ (s.fb WSK_ID.TIME_SRC 0 = true → c.src ≠ s.f WSK_ID.DEV_ID 0 →
          t.f WSK_STAT.TIME_CONFLICT 0 = min (s.f WSK_STAT.TIME_CONFLICT 0 + 1) 0xFFFF ∧ t.outbox = s.outbox
          ∧ (∀ q, q ≠ p → t.wport q = s.wport q))
      ∧ Leaves [.wsk, .parts, .timeSrcs, .outbox] (oneReg .wskStat 0) s t)
  ∧ (∀ (s : State) (p a b : Nat), p < 4 →
    (s.f WSK_PORTSTAT.STATE p = 2 → ∃ t, exec (.linkDelayMeasure p a b) s = .next t
      ∧ t.f WSK_DOZESTAT.LINK_DELAY_NS p = (a + b) / 2 % 2 ^ 16
      ∧ t.f WSK_DOZESTAT.LAST_DRIFT_NS p = s.f WSK_DOZESTAT.LAST_DRIFT_NS p ∧ Leaves [] (oneReg .wskDozestat p) s t)
    ∧ (s.f WSK_PORTSTAT.STATE p ≠ 2 → exec (.linkDelayMeasure p a b) s = .next s))
  ∧ (∀ (s : State) (p : Nat) (caught : Option Int), p < 4 →
    let st := s.f WSK_PORTSTAT.STATE p
    let dozes := s.sys.power.mode = .standby ∧ s.fb WSK_PORTCFG.DOZE_EN p = true
    (¬ dozes ∨ st ≤ 1 → exec (.rendezvous p caught) s = .next s)
    ∧ (dozes → st = 2 → ∃ t, exec (.rendezvous p caught) s = .next t ∧ t.f WSK_PORTSTAT.STATE p = 3
        ∧ t.outbox = .burst p :: s.outbox ∧ Leaves [.outbox] (oneReg .wskPortstat p) s t)
    ∧ (∀ d, dozes → st = 3 ∨ st = 4 → caught = some d → ∃ t, exec (.rendezvous p caught) s = .next t
        ∧ t.f WSK_PORTSTAT.STATE p = 3 ∧ t.f WSK_PORTSTAT.MISSES p = s.f WSK_PORTSTAT.MISSES p
        ∧ t.outbox = .burst p :: s.outbox
        ∧ (s.f WSK_PORTSTAT.PEER_ID p < s.f WSK_ID.DEV_ID 0 →
            t.f WSK_DOZESTAT.LAST_DRIFT_NS p = uint 32 (Int.tdiv d 1000 * 1000)
            ∧ (t.wport p).drift = max (s.wport p).drift (Int.tdiv d 1000 * 1000).natAbs)
        ∧ (s.f WSK_ID.DEV_ID 0 ≤ s.f WSK_PORTSTAT.PEER_ID p → t.net.wsk = s.net.wsk ∧ t.r .wskDozestat p = s.r .wskDozestat p)
        ∧ Leaves [.outbox, .wsk] (fun r i => (r = .wskPortstat ∨ r = .wskDozestat) ∧ i = p) s t)
    ∧ (dozes → st = 3 ∨ st = 4 → caught = none → ∃ t, exec (.rendezvous p caught) s = .next t
        ∧ t.f WSK_PORTSTAT.STATE p = 4 ∧ t.f WSK_PORTSTAT.MISSES p = min (s.f WSK_PORTSTAT.MISSES p + 1) 0xFF
        ∧ (st = 3 → (t.wport p).searchLeft = 4 ∧ t.outbox = .burst p :: s.outbox)
        ∧ (st = 4 → (t.wport p).searchLeft = (s.wport p).searchLeft - 1
            ∧ t.outbox = (if (s.wport p).searchLeft = 1 ∧ (s.wport p).sawLow = false then [.wakePull p 4] else [])
                ++ .burst p :: s.outbox)
        ∧ Leaves [.outbox, .wsk] (oneReg .wskPortstat p) s t))
  ∧ (∀ (s : State) (p ticks : Nat) (d : Int), p < 4 →
    let st := s.f WSK_PORTSTAT.STATE p
    let wakes := 16 ≤ ticks ∧ s.fb WSK_PORTCFG.EN p = true ∧ s.sys.power.mode = .standby
    (st ≠ 3 → st ≠ 4 → ¬ wakes → exec (.wskWakePulse p ticks d) s = .next s)
    ∧ (st = 3 ∨ st = 4 → ¬ wakes → ∃ t, exec (.wskWakePulse p ticks d) s = .next t
        ∧ t.f WSK_PORTSTAT.STATE p = 2 ∧ (t.wport p).trained = true ∧ (t.wport p).sawLow = true
        ∧ (s.f WSK_PORTSTAT.PEER_ID p < s.f WSK_ID.DEV_ID 0 →
            t.f WSK_DOZESTAT.LAST_DRIFT_NS p = uint 32 (Int.tdiv d 1000 * 1000))
        ∧ t.sys.power = s.sys.power
        ∧ Leaves [.wsk, .record] (fun r i => (r = .wskPortstat ∨ r = .wskDozestat) ∧ i = p) s t)
    ∧ (wakes → s.sys.power.wakeSeen = false → ∃ t, exec (.wskWakePulse p ticks d) s = .next t
        ∧ t.f SYS_PWRSTAT.WAKE_CAUSE 0 = 3 ∧ t.f SYS_PWRSTAT.WAKE_UNIT 0 = p ∧ t.sys.power.socPwrEn = true))

/-- R141, R230, R235, R323 to R325, R329, R350, R363, R369: the rails, resets and trips take the device to its modes; what
VDD_AON holds survives a warm reset alone, the map of retired arrays every reset; a boot takes the first slot that verifies,
writes its images and records their digests. (Where the map of retired arrays is kept is the model's choice, log entry 183.) -/
def Obligations.PowerModesFollowTheRails : Prop :=
  let kept (s t : State) : Prop :=
    t.sys.store = { s.sys.store with retired := s.sys.record.retired.foldl insNat s.sys.store.retired }
  (∀ s : State, s.sys.power.mode = .off → ∃ t, exec .powerUp s = .next t ∧ t.sys.power.mode = .reset
      ∧ t.sys.power.railsUp = true ∧ t.sys.power.coldNext = true ∧ t.sys.power.socPwrEn = true
      ∧ t.sys.power.safeHeld = true ∧ t.regs = [] ∧ t.mem = {} ∧ t.work = {} ∧ kept s t)
  ∧ (∀ s : State, s.sys.power.mode ≠ .off → exec .powerUp s = .next s)
  ∧ (∀ s : State, s.sys.power.mode ≠ .off → ∃ t, exec .resetAssert s = .next t ∧ t.sys.power.mode = .reset
      ∧ t.sys.power.booted = false ∧ t.sys.power.safeHeld = true
      ∧ (∀ r i, t.r r i = if (r = .sysPwrctrl ∨ r = .sysPwrstat ∨ r = .sysStbytime) ∧ i = 0 then s.r r i
          else State.reset.r r i)
      ∧ t.mem = {} ∧ t.work = {} ∧ t.units = {} ∧ kept s t ∧ t.sys.record = {})
  ∧ (∀ s : State, s.sys.power.mode = .off → exec .resetAssert s = .next s)
  ∧ (∀ (s : State) (a b : BootSlot) (rec : RecordSource), s.mayBoot = false → exec (.boot a b rec) s = .next s)
  ∧ (∀ (s : State) (a b x : BootSlot) (rec : RecordSource), s.mayBoot = true →
    (slotVerifies a = true ∧ x = a) ∨ (slotVerifies a = false ∧ slotVerifies b = true ∧ x = b) →
    ∃ t, exec (.boot a b rec) s = .next t ∧ t.sys.power.mode = .on ∧ t.sys.power.safeHeld = false
      ∧ t.sys.power.socPwrEn = true ∧ t.fb SYS_BOOTSTAT.SLOT_A_BAD 0 = !(slotVerifies a)
      ∧ t.fb SYS_BOOTSTAT.SLOT 0 = !(slotVerifies a)
      ∧ (x.err ≠ 0 → t.f SYS_BOOTSTAT.BOOT_ERR 0 = x.err % 256 ∧ t.sys.power.safeFlt = true ∧ t.sys.power.booted = false)
      ∧ (x.err = 0 → assignBad x.config = true → t.f SYS_BOOTSTAT.BOOT_ERR 0 = 0x12
          ∧ t.sys.power.safeFlt = true ∧ t.sys.power.booted = false)
      ∧ (x.err = 0 → assignBad x.config = false → t.sys.power.booted = true
          ∧ t.f SYS_BOOTSTAT.BOOT_ERR 0 = 0 ∧ t.fb SYS_LOCK.BOOT 0 = true ∧ t.fb SYS_LOCK.MGR 0 = false
          ∧ (∀ e ∈ x.config.assign, t.owner e.1 e.2.1 = e.2.2)
          ∧ t.f WSK_ID.DEV_ID 0 = x.config.devId % 2 ^ 16 ∧ t.fb WSK_ID.TIME_SRC 0 = x.config.timeSrc
          ∧ t.fb MEM_CTRL.READY 0 = true ∧ (t.fwp 1).running = true ∧ (t.fwp 1).image.digest = x.cupolaDigest
          ∧ (t.fwp 2).running = true ∧ (∀ p, p ≠ 1 → p ≠ 2 → (t.fwp p).running = false)
          ∧ t.sys.trust.digests = slotDigests x ∧ t.sys.trust.keys = []
          ∧ (∀ k, k < 34 → (k ∈ s.sys.store.retired ∨ k ∈ s.sys.record.retired) → t.f ARR_STATUS.STATE k = 6)
          ∧ (∀ k ∈ t.units.spares, t.f ARR_STATUS.STATE k = 7) ∧ t.units.spares.length ≤ 2
          ∧ (rec = .none → NMap.get t.sys.record.counts 0 0 = b2n s.sys.power.coldNext))
      ∧ (s.sys.power.coldNext = false → t.f SYS_PWRSTAT.WAKE_CAUSE 0 = s.f SYS_PWRSTAT.WAKE_CAUSE 0))
  ∧ (∀ (s : State) (a b : BootSlot) (rec : RecordSource), s.mayBoot = true → slotVerifies a = false →
    slotVerifies b = false → ∃ t, exec (.boot a b rec) s = .next t ∧ t.sys.power.mode = .on
      ∧ t.sys.power.booted = false ∧ t.f SYS_BOOTSTAT.BOOT_ERR 0 = b.err % 256 ∧ t.sys.power.safeFlt = true
      ∧ t.sys.fw = [])
  ∧ (∀ s : State, s.sys.power.mode ≠ .off →
    (∃ t, exec (.brownOut 0) s = .next t ∧ t.sys.power.mode = .reset ∧ t.sys.power.coldNext = true ∧ t.regs = []
      ∧ t.mem = {} ∧ t.sys.power.safeHeld = true)
    ∧ (s.sys.power.mode ≠ .standby → ∃ t, exec (.brownOut 2) s = .next t ∧ t.sys.power.mode = .reset
      ∧ t.fb SYS_PWRSTAT.BROWNOUT 0 = true ∧ t.sys.power.coldNext = s.sys.power.coldNext ∧ t.mem = {}
      ∧ t.f SYS_PWRSTAT.WAKE_CAUSE 0 = s.f SYS_PWRSTAT.WAKE_CAUSE 0)
    ∧ (s.sys.power.mode = .standby → exec (.brownOut 2) s = .next s)
    ∧ (∀ r, r < 8 → r ≠ 0 → r ≠ 2 → exec (.brownOut r) s = .next s))
  ∧ (∀ (s : State) (r : Nat), r < 8 → s.sys.power.mode = .off → exec (.brownOut r) s = .next s)
  ∧ (∀ (s : State) (n : Nat) (c : Int), n < 32 →
    (s.sys.power.mode ≠ .on ∨ c ≤ 140 → exec (.thermalShutdown n c) s = .next s)
    ∧ (s.sys.power.mode = .on → 140 < c → ∃ t, exec (.thermalShutdown n c) s = .next t ∧ t.sys.power.mode = .reset
      ∧ t.fb SYS_PWRSTAT.THERMAL 0 = true ∧ t.sys.power.socPwrEn = false ∧ t.sys.power.safeHeld = true
      ∧ kept s t ∧ t.mem = {}))
  ∧ (∀ s : State, ∃ t, exec .powerOff s = .next t ∧ t.sys.power.mode = .off ∧ t.regs = [] ∧ t.mem = {} ∧ t.work = {}
      ∧ t.sys.power.railsUp = false ∧ t.sys.power.coldNext = true ∧ t.sys.power.socPwrEn = false
      ∧ t.sys.power.safeHeld = true ∧ kept s t)

/-- R156, R325 to R328, R336, R338 to R340, R359: wake sources are recorded in order; a power-fail warning writes its
checkpoint once a second; the Cupola restarts alone when it is not kicked; kept causes are sent at EN; a changed
billet shows in its state. -/
def Obligations.WakesAndWarningsAreRecorded : Prop :=
  (∀ (s : State) (w : WakeSource) (cause n : Nat),
    (∃ c, w = .can c ∧ c < 20 ∧ cause = 1 ∧ n = c ∧ bit (s.f SYS_PWRCTRL.WAKE_CAN 0) c = true)
      ∨ (∃ p, w = .eth p ∧ 2 ≤ p ∧ p < 12 ∧ cause = 2 ∧ n = p ∧ bit (s.f SYS_PWRCTRL.WAKE_ETH 0) (p - 2) = true)
      ∨ (∃ p, w = .weska p ∧ p < 4 ∧ cause = 3 ∧ n = p ∧ s.fb WSK_PORTCFG.EN p = true)
      ∨ (w = .wakeIn ∧ cause = 5 ∧ n = 0 ∧ s.fb SYS_PWRCTRL.WAKE_IN_EN 0 = true) →
    (s.sys.power.mode ≠ .standby → exec (.wake w) s = .next s)
    ∧ (s.sys.power.mode = .standby → s.sys.power.wakeSeen = false → ∃ t, exec (.wake w) s = .next t
        ∧ t.f SYS_PWRSTAT.WAKE_CAUSE 0 = cause ∧ t.f SYS_PWRSTAT.WAKE_UNIT 0 = n % 16 ∧ t.f SYS_PWRSTAT.WAKE_OTHER 0 = 0
        ∧ t.sys.power.wakeSeen = true ∧ t.sys.power.socPwrEn = true
        ∧ (s.sys.power.socPwrEn = false → t.outbox = .pin "SOC_PWR_EN" true :: s.outbox)
        ∧ Leaves [.outbox, .power] (oneReg .sysPwrstat 0) s t)
    ∧ (s.sys.power.mode = .standby → s.sys.power.wakeSeen = true → ∃ t, exec (.wake w) s = .next t
        ∧ t.f SYS_PWRSTAT.WAKE_CAUSE 0 = s.f SYS_PWRSTAT.WAKE_CAUSE 0
        ∧ t.f SYS_PWRSTAT.WAKE_OTHER 0 = Nat.lor (s.f SYS_PWRSTAT.WAKE_OTHER 0) (2 ^ (cause - 1))
        ∧ Leaves [] (oneReg .sysPwrstat 0) s t))
  ∧ (∀ s : State, let t0 := s.f SYS_PWRCTRL.WAKE_SEC 0
    (t0 = 0 ∨ s.f SYS_STBYTIME.STBY_SEC 0 < t0 ∨ s.sys.power.mode ≠ .standby → exec .wakeTimer s = .next s)
    ∧ (t0 ≠ 0 → t0 ≤ s.f SYS_STBYTIME.STBY_SEC 0 → s.sys.power.mode = .standby → s.sys.power.wakeSeen = false →
      ∃ t, exec .wakeTimer s = .next t ∧ t.f SYS_PWRSTAT.WAKE_CAUSE 0 = 4 ∧ t.sys.power.socPwrEn = true
        ∧ Leaves [.outbox, .power] (oneReg .sysPwrstat 0) s t))
  ∧ (∀ s : State, (s.sys.power.mode ≠ .standby → exec .standbySecond s = .next s)
    ∧ (s.sys.power.mode = .standby → ∃ t, exec .standbySecond s = .next t
      ∧ t.f SYS_STBYTIME.STBY_SEC 0 = min (s.f SYS_STBYTIME.STBY_SEC 0 + 1) SYS_STBYTIME.STBY_SEC.top
      ∧ Leaves [] (oneReg .sysStbytime 0) s t))
  ∧ (∀ s : State, (s.sys.power.mode ≠ .on → exec .powerFailWarning s = .next s)
    ∧ (s.sys.power.mode = .on → (s.fwp 1).restarting = true → ∃ t, exec .powerFailWarning s = .next t
      ∧ t.fb SYS_PWRSTAT.PFW 0 = true ∧ t.sys.power.pfwLatched = true ∧ Leaves [.power] (oneReg .sysPwrstat 0) s t)
    ∧ (s.sys.power.mode = .on → (s.fwp 1).restarting = false → (s.fwp 1).running = true →
      (∀ x, s.sys.power.lastPfwNs = some x → reached s.now (x + 1000000000) = true) → ∃ t, exec .powerFailWarning s = .next t
      ∧ t.fb SYS_PWRSTAT.PFW 0 = true ∧ t.sys.record.reason = 2 ∧ t.sys.record.seq = s.sys.record.seq + 1
      ∧ NMap.get t.sys.record.counts 0 2 = min (NMap.get s.sys.record.counts 0 2 + 1) 0xFFFFFFFF
      ∧ t.sys.store.summary = some t.sys.record ∧ t.sys.power.lastPfwNs = some s.now
      ∧ (s.f SYS_BILLET.STATE 0 = 2 → s.sys.power.billetPwrEn = true → s.sys.store.nextSlot = 0 →
          t.sys.store.slot0 = some t.sys.record ∧ t.sys.store.slot1 = s.sys.store.slot1)
      ∧ Leaves [.keptIrqs, .outbox, .power, .record, .store]
          (fun r i => (r = .sysBillet ∨ r = .sysPwrstat) ∧ i = 0) s t)
    ∧ (∀ x, s.sys.power.mode = .on → (s.fwp 1).restarting = false → (s.fwp 1).running = true →
      s.sys.power.lastPfwNs = some x → reached s.now (x + 1000000000) = false → ∃ t, exec .powerFailWarning s = .next t
      ∧ t.sys.store = s.sys.store ∧ t.sys.record.seq = s.sys.record.seq
      ∧ NMap.get t.sys.record.counts 0 2 = min (NMap.get s.sys.record.counts 0 2 + 1) 0xFFFFFFFF
      ∧ Leaves [.record] (oneReg .sysPwrstat 0) s t))
  ∧ (∀ s : State, ∃ t, exec .powerFailWarningEnd s = .next t ∧ t.fb SYS_PWRSTAT.PFW 0 = false
      ∧ Leaves [] (oneReg .sysPwrstat 0) s t)
  ∧ (∀ (s : State) (l : LinkId), linkOk l = true → ∃ t, exec (.linkRetrain l) s = .next t
      ∧ (∀ k, NMap.get t.sys.record.links 0 k = if k = linkKey l then min (NMap.get s.sys.record.links 0 k + 1) 0xFFFFFFFF
          else NMap.get s.sys.record.links 0 k) ∧ Leaves [.record] noReg s t)
  ∧ (∀ (s : State) (fit frn : Bool) (serial endu : Nat), ∃ t, exec (.billetChange fit serial endu frn) s = .next t
      ∧ t.sys.power.billetFitted = fit
      ∧ (s.sys.power.mode = .on → t.f SYS_BILLET.STATE 0 = if fit = false then 0 else if frn then 3 else 1)
      ∧ (fit = true → t.sys.power.billetSerial = serial ∧ t.sys.power.billetEndurance = endu)
      ∧ (fit = false ∨ s.sys.power.billetSerial = serial → t.sys.store = s.sys.store)
      ∧ Leaves [.power, .store] (oneReg .sysBillet 0) s t)
  ∧ (∀ (s : State) (m : Master) (v : Word), s.accepts .cupWdog 0 m .whole (withBit v 63) →
    ∃ t, exec (.kick m v) s = .next t ∧ t.sys.power.kickNs = s.now ∧ t.fb CUP_WDOG.KICK 0 = false
      ∧ t.f CUP_WDOG.TIMEOUT_MS 0 = bits v.toNat 62 53 ∧ Leaves [.power] (oneReg .cupWdog 0) s t)
  ∧ (∀ s : State,
    let due := (s.fwp 1).running = true ∧ reached s.now (s.sys.power.kickNs + s.f CUP_WDOG.TIMEOUT_MS 0 * 1000000) = true
    (¬ due → exec .cupolaWatchdog s = .next s)
    ∧ (due → ∃ t, exec .cupolaWatchdog s = .next t ∧ (t.fwp 1).running = false ∧ (t.fwp 1).restarting = true
      ∧ (t.fwp 1).nextImage = (s.fwp 1).image ∧ (∀ p, p ≠ 1 → t.fwp p = s.fwp p)
      ∧ t.f CUP_WDOG.RESTARTS 0 = min (s.f CUP_WDOG.RESTARTS 0 + 1) 0xFFFF
      ∧ Leaves [.fw, .record] (oneReg .cupWdog 0) s t))
  ∧ (∀ (s : State) (m : Master) (v : Word), s.accepts .sysIrqcfg 0 m .whole (withBit v 0) →
    ∃ t, exec (.irqEnable m v) s = .next t ∧ t.fb SYS_IRQCFG.EN 0 = true
      ∧ (s.fb SYS_IRQCFG.EN 0 = false → t.sys.keptIrqs = []
          ∧ t.outbox = ((s.sys.keptIrqs.filter s.causeStands).map fun k => Out.mgrIrq k.1 k.2).reverse ++ s.outbox)
      ∧ (s.fb SYS_IRQCFG.EN 0 = true → t.sys.keptIrqs = s.sys.keptIrqs ∧ t.outbox = s.outbox)
      ∧ Leaves [.keptIrqs, .outbox] (oneReg .sysIrqcfg 0) s t)

/-- R229, R232, R235, R287, R325, R331 to R340: a request that is outstanding, misaddressed, of another version or from a
sender without the right is counted or answered with its status, one that an overloaded Cupola sheds with BUSY (whether it is
overloaded is a free value, log entry 187); the others do the work of their message and are answered; a processor that has
restarted answers the request that asked for it. (DENIED under ENTRY 1 is the model's choice, log entry 182.) -/
def Obligations.MailboxRequestsAreAnswered : Prop :=
  (∀ (s : State) (m : Master) (ch msg : Nat) (ok : Bool) (c : Instr), ch < 64 →
    (c, msg) ∈ [(Instr.getVersion m ch, 0x0001), (.fwLoad m ch ok, 0x0010), (.fwRestart m ch, 0x0011),
      (.powerMode m ch, 0x0020), (.fieldRecordRead m ch, 0x0030), (.billetPrepare m ch, 0x0031),
      (.billetPair m ch ok, 0x0032), (.billetStatus m ch, 0x0033), (.attest m ch, 0x0040), (.keyRelease m ch, 0x0041),
      (.ethPortCfg m ch, 0x0050), (.dspLinkCfg m ch, 0x0060)] →
    (s.sys.power.mode ≠ .on ∨ (s.fb MBX_DB.REQ ch = false ∧ s.mbxMsg ch ≠ msg) → exec c s = .next s)
    ∧ (s.live → s.chanDenied m ch = false → s.fb MBX_DB.REQ ch = true → ∃ t, exec c s = .next t
        ∧ t.f MBX_DB.DROPPED ch = min (s.f MBX_DB.DROPPED ch + 1) 0xFFFF ∧ Leaves [] (oneReg .mbxDb ch) s t)
    ∧ (s.live → s.chanDenied m ch = false → s.fb MBX_DB.REQ ch = false → s.mbxMsg ch = msg →
      ∀ st, (¬(1 ≤ s.mbxTarget ch ∧ s.mbxTarget ch ≤ 6) ∧ st = mbBadMsg)
          ∨ ((1 ≤ s.mbxTarget ch ∧ s.mbxTarget ch ≤ 6) ∧ (s.fwp (s.mbxTarget ch)).running = false ∧ st = mbRestarting)
          ∨ ((1 ≤ s.mbxTarget ch ∧ s.mbxTarget ch ≤ 6) ∧ (s.fwp (s.mbxTarget ch)).running = true
              ∧ s.unshed ch ∧ bits (s.mbxW0 ch) 63 56 ≠ 1 ∧ st = mbVersion)
          ∨ ((1 ≤ s.mbxTarget ch ∧ s.mbxTarget ch ≤ 6) ∧ (s.fwp (s.mbxTarget ch)).running = true
              ∧ s.unshed ch ∧ bits (s.mbxW0 ch) 63 56 = 1 ∧ msgTarget msg ≠ 0 ∧ msgTarget msg ≠ s.mbxTarget ch
              ∧ st = mbBadMsg)
          ∨ ((1 ≤ s.mbxTarget ch ∧ s.mbxTarget ch ≤ 6) ∧ (s.fwp (s.mbxTarget ch)).running = true
              ∧ s.unshed ch ∧ bits (s.mbxW0 ch) 63 56 = 1 ∧ (msgTarget msg = 0 ∨ msgTarget msg = s.mbxTarget ch)
              ∧ ((managerMsg msg = true ∧ ch ≠ 0) ∨ s.entryDenied m ch = true) ∧ st = mbDenied) →
        ∃ t, exec c s = .next t ∧ Answered ch st [] s t ∧ AnswerOnly ch s t)
    ∧ (s.live → s.chanDenied m ch = false → s.fb MBX_DB.REQ ch = false → s.mbxMsg ch = msg → s.mbxTarget ch = 1 →
      (s.fwp 1).running = true → ch ≠ 0 → 8 ≤ (s.mbxRecent ch).length → Config.freeNat s.freeCtr % 2 = 1 →
      let w := ((s.mbxRecent ch).getD ((s.mbxRecent ch).length - 8) s.now + 10000999 - s.now) / 1000
      ∃ t, exec c s = .next t ∧ t.fb MBX_DB.DONE ch = true ∧ t.fb MBX_DB.REQ ch = false
        ∧ t.mbxBytes ch 0x800 16 = toLE 8 (2 ^ 56 + 2 ^ 40 + msg * 2 ^ 16 + bits (s.mbxW0 ch) 15 0)
            ++ toLE 8 (mbBusy * 2 ^ 40 + w % 2 ^ 16 * 2 ^ 24)
        ∧ Leaves [.mbx, .outbox, .freeCtr] (oneReg .mbxDb ch) s t))
  ∧ (∀ (s : State) (m : Master) (ch : Nat),
    let s0 := s.setF MBX_DB.REQ ch 1
    let i := (s.fwp (s.mbxTarget ch)).image
    (s.asks m ch 0x0001 → s.mbxLen ch = 0 → ∃ t, exec (.getVersion m ch) s = .next t
      ∧ Answered ch mbOk (toLE 1 1 ++ toLE 1 0 ++ zeros 2 ++ toLE 4 i.version ++ toLE 4 i.secVersion ++ zeros 4
          ++ toLE 48 i.digest) s t ∧ AnswerOnly ch s t)
    ∧ (∀ (ok : Bool) h s1, s.asks m ch 0x0010 → s.mbxLen ch = 16 → s.mbxArg ch 0 8 % 4096 = 0 → 4096 ≤ s.mbxArg ch 8 8 →
      s.mbxArg ch 8 8 ≤ 16777216 → s0.senderRead m (s.mbxArg ch 0 8) 4096 = (some h, s1) →
      ∃ t, exec (.fwLoad m ch ok) s = .next t
      ∧ t.fb MBX_DB.DONE ch = true ∧ t.fb MBX_DB.REQ ch = false
      ∧ (ok = true → 1 ≤ Config.imageField 0 h → Config.imageField 0 h ≤ 6 →
          (t.fwp (Config.imageField 0 h)).staged = some { version := Config.imageField 1 h,
                                                          secVersion := Config.imageField 2 h,
                                                          digest := Config.imageField 3 h })
      ∧ (ok = false → t.sys.fw = s.sys.fw) ∧ (∀ p, (t.fwp p).running = (s.fwp p).running))
    ∧ (s.asks m ch 0x0011 → s.mbxLen ch = 8 → 1 ≤ s.mbxArg ch 0 1 → s.mbxArg ch 0 1 ≤ 6 → s.mbxArg ch 1 1 ≤ 1 →
      let p := s.mbxArg ch 0 1
      let use := if s.mbxArg ch 1 1 = 1 then none else (s.fwp p).staged
      ((s.fwp p).restarting = true → ∃ t, exec (.fwRestart m ch) s = .next t ∧ Answered ch mbRestarting [] s t
        ∧ AnswerOnly ch s t)
      ∧ ((s.fwp p).restarting = false → (s.fwp p).running = true → ∃ t, exec (.fwRestart m ch) s = .next t
        ∧ (t.fwp p).running = false ∧ (t.fwp p).restarting = true ∧ (t.fwp p).nextImage = use.getD (s.fwp p).image
        ∧ (t.fwp p).waiter = some ch ∧ (∀ q, q ≠ p → t.fwp q = s.fwp q) ∧ t.fb MBX_DB.REQ ch = true
        ∧ Leaves [.fw, .record, .trust, .store, .outbox, .keptIrqs, .runKept]
            (fun r k => (r = .mbxDb ∧ k = ch) ∨ (r = .sysBillet ∧ k = 0)) s t)))
  ∧ (∀ (s : State) (p : Nat) (ok : Bool), 1 ≤ p → p ≤ 6 →
    ((s.fwp p).restarting = false → exec (.fwRestartDone p ok) s = .next s)
    ∧ ((s.fwp p).restarting = true → ∃ t, exec (.fwRestartDone p ok) s = .next t ∧ (t.fwp p).running = true
      ∧ (t.fwp p).restarting = false ∧ (t.fwp p).image = (s.fwp p).nextImage
      ∧ NMap.get t.sys.trust.digests 0 (digestSlot p) = (s.fwp p).nextImage.digest
      ∧ (∀ ch, (s.fwp p).waiter = some ch → ch < 64 → t.fb MBX_DB.DONE ch = true ∧ t.fb MBX_DB.REQ ch = false
          ∧ t.mbxBytes ch 0x810 48 = toLE 48 (s.fwp p).nextImage.digest)
      ∧ (p ≠ 1 → t.sys.record = s.sys.record) ∧ (p = 1 → t.sys.power.kickNs = s.now)))
  ∧ (∀ (s : State) (m : Master) (ch : Nat), s.asks m ch 0x0020 → s.mbxLen ch = 8 → s.mbxArg ch 0 1 = 1 →
    ((∃ f, f < 8 ∧ s.f SYS_FLCTRL.STATE f ≠ 0) → ∃ t, exec (.powerMode m ch) s = .next t
      ∧ Answered ch mbDenied [] s t ∧ AnswerOnly ch s t)
    ∧ ((∀ f, f < 8 → s.f SYS_FLCTRL.STATE f = 0) → ∃ t, exec (.powerMode m ch) s = .next t
      ∧ t.sys.power.mode = .standby ∧ t.sys.power.socPwrEn = false ∧ t.sys.power.safeHeld = true ∧ t.mem = {}
      ∧ (∀ p, p < 4 → t.f WSK_PORTSTAT.STATE p = if s.fb WSK_PORTCFG.EN p = true ∧ s.fb WSK_PORTCFG.DOZE_EN p = true
          ∧ s.f WSK_PORTSTAT.STATE p = 2 then 3 else 0)
      ∧ (∀ k, k < 10 → bit (s.f SYS_PWRCTRL.WAKE_ETH 0) k = true → (s.fwp 3).running = true →
          .tc10Sleep (k + 2) ∈ t.outbox)
      ∧ t.f SYS_PWRCTRL.WAKE_SEC 0 = s.f SYS_PWRCTRL.WAKE_SEC 0))
  ∧ (∀ (s : State) (m : Master) (ch : Nat),
    let s0 := s.setF MBX_DB.REQ ch 1
    let sc : State := { s0 with sys.mbxTimes := NMap.set s0.sys.mbxTimes [] ch (s.mbxRecent ch ++ [s.now]) }
    (s.asks m ch 0x0030 → s.mbxLen ch = 24 → s.mbxArg ch 0 1 = 2 → s.mbxArg ch 8 8 % 64 = 0 → 32768 ≤ s.mbxArg ch 16 4 →
      let w := { s.sys.record with reason := 5 }.bytes32k sc
      ∃ t, exec (.fieldRecordRead m ch) s = .next t ∧ t.fb MBX_DB.DONE ch = true ∧ t.fb MBX_DB.REQ ch = false
      ∧ (∀ s1, w.2.senderWrite m (s.mbxArg ch 8 8) w.1 = (true, s1) → t.mem.cells = s1.mem.cells
          ∧ t.mbxBytes ch 0x810 16 = toLE 8 s.sys.record.seq ++ toLE 4 32768 ++ toLE 1 5 ++ zeros 3))
    ∧ (s.asks m ch 0x0030 → s.mbxLen ch = 24 → s.mbxArg ch 0 1 = 0 → s.mbxArg ch 8 8 % 64 = 0 → 32768 ≤ s.mbxArg ch 16 4 →
      s.sys.store.slot0 = none → s.sys.store.slot1 = none → s.sys.store.norCopy = none →
      ∃ t, exec (.fieldRecordRead m ch) s = .next t ∧ Answered ch mbDenied [] s t ∧ AnswerOnly ch s t)
    ∧ (s.asks m ch 0x0031 → s.mbxLen ch = 0 → ∃ t, exec (.billetPrepare m ch) s = .next t
      ∧ Answered ch mbOk (toLE 8 (s.sys.record.seq + 1)) s t ∧ t.sys.power.billetPwrEn = false
      ∧ t.sys.record.reason = 4 ∧ t.sys.record.seq = s.sys.record.seq + 1 ∧ t.sys.store.norCopy = some t.sys.record
      ∧ t.sys.store.summary = some t.sys.record ∧ .pin "BILLET_PWR_EN" false ∈ t.outbox)
    ∧ (∀ ok : Bool, s.asks m ch 0x0032 → s.mbxLen ch = 0 →
      (s.f SYS_BILLET.STATE 0 ≠ 1 → ∃ t, exec (.billetPair m ch ok) s = .next t ∧ Answered ch mbDenied [] s t
        ∧ AnswerOnly ch s t)
      ∧ (s.f SYS_BILLET.STATE 0 = 1 → ok = false → ∃ t, exec (.billetPair m ch ok) s = .next t
        ∧ Answered ch mbAuthFail [] s t ∧ AnswerOnly ch s t)
      ∧ (s.f SYS_BILLET.STATE 0 = 1 → ok = true → ∃ t, exec (.billetPair m ch ok) s = .next t
        ∧ t.f SYS_BILLET.STATE 0 = 2 ∧ t.sys.power.billetBound = true ∧ t.sys.power.billetPwrEn = true
        ∧ t.sys.record.serial = s.sys.power.billetSerial ∧ t.sys.record.endurance = s.sys.power.billetEndurance
        ∧ t.sys.record.bytes = 0 ∧ t.sys.record.replacements = s.sys.record.replacements + 1
        ∧ t.sys.store.slot0 = some t.sys.record ∧ t.sys.store.slot1 = some t.sys.record
        ∧ Answered ch mbOk (toLE 16 s.sys.power.billetSerial ++ toLE 8 s.sys.power.billetEndurance) s t))
    ∧ (s.asks m ch 0x0033 → s.mbxLen ch = 0 → ∃ t, exec (.billetStatus m ch) s = .next t
      ∧ Answered ch mbOk (toLE 16 s.sys.record.serial ++ toLE 8 s.sys.record.bytes ++ toLE 8 s.sys.record.endurance
          ++ toLE 1 (s.f SYS_BILLET.LIFE_PCT 0) ++ toLE 1 (s.f SYS_BILLET.STATE 0) ++ toLE 2 s.sys.record.replacements
          ++ zeros 4) s t ∧ AnswerOnly ch s t)
    ∧ (s.asks m ch 0x0040 → s.mbxLen ch = 48 → s.mbxArg ch 0x20 8 % 64 = 0 → 6672 ≤ s.mbxArg ch 0x28 4 →
      let w := s0.report (s.mbxArg ch 0 32)
      ∃ t, exec (.attest m ch) s = .next t ∧ t.fb MBX_DB.DONE ch = true
      ∧ (∀ s1, w.2.senderWrite m (s.mbxArg ch 0x20 8) w.1 = (true, s1) → t.mem.cells = s1.mem.cells
          ∧ t.mbxBytes ch 0x810 8 = toLE 4 6672 ++ zeros 4))
    ∧ (∀ k : HeldKey, s.asks m ch 0x0041 → s.mbxLen ch = 8 → s.mbxArg ch 4 1 ≤ 7 → 1 ≤ s.mbxArg ch 5 1 →
      s.mbxArg ch 5 1 ≤ 31 → s.namedKey (s.mbxArg ch 0 4) (s.mbxArg ch 4 1) = some k →
      (s.releaseOk k (s.mbxArg ch 4 1) = true → ∃ t, exec (.keyRelease m ch) s = .next t ∧ Answered ch mbOk [] s t
        ∧ NMap.find (t.flask (s.mbxArg ch 4 1)).slots (s.mbxArg ch 5 1) 
            = some { tenant := k.tenant, keyId := k.pol.keyId }
        ∧ (∀ g, g ≠ s.mbxArg ch 4 1 → t.flask g = s.flask g)
        ∧ Leaves [.mbx, .outbox, .keptIrqs, .flasks] (oneReg .mbxDb ch) s t)
      ∧ (s.releaseOk k (s.mbxArg ch 4 1) = false → ∃ t, exec (.keyRelease m ch) s = .next t
        ∧ Answered ch mbDenied [] s t ∧ AnswerOnly ch s t))
    ∧ (s.asks m ch 0x0050 → s.mbxArg ch 1 1 = 0 → s.mbxArg ch 2 2 = 1 → s.mbxLen ch = 24 → s.mbxArg ch 0 1 ≤ 11 →
      s.mbxArg ch 6 2 ≤ 1 →
      let b := s.mbxBytes ch 24 16
      let port := s.mbxArg ch 0 1
      let bad := ({ s with net.ethStaged := putItem s.net.ethStaged { port := port, sec := 0, idx := 0, bs := b } } : State).portBad
        port
      (s.partOf m ≠ s.owner 1 port → ∃ t, exec (.ethPortCfg m ch) s = .next t ∧ Answered ch mbDenied [] s t
        ∧ AnswerOnly ch s t)
      ∧ (s.partOf m = s.owner 1 port → (itemBad port 0 0 b = true ∨ bad = true) → ∃ t, exec (.ethPortCfg m ch) s = .next t
        ∧ Answered ch mbBadMsg [] s t ∧ AnswerOnly ch s t)
      ∧ (s.partOf m = s.owner 1 port → itemBad port 0 0 b = false → bad = false →
        ∃ t, exec (.ethPortCfg m ch) s = .next t ∧ t.fb MBX_DB.DONE ch = true
        ∧ (s.mbxArg ch 6 2 = 1 → t.ethItem port 0 0 = some b ∧ (∀ i ∈ t.net.ethStaged, ¬(i.port = port ∧ i.sec = 0)))
        ∧ (s.mbxArg ch 6 2 = 0 → t.net.ethItems = s.net.ethItems
            ∧ { port := port, sec := 0, idx := 0, bs := b } ∈ t.net.ethStaged)
        ∧ (∀ q, q ≠ port → t.gateEng q = s.gateEng q)))
    ∧ (s.asks m ch 0x0060 → s.dspBad ch = false →
      (s.partOf m ≠ s.owner 4 (s.mbxArg ch 0 1) → ∃ t, exec (.dspLinkCfg m ch) s = .next t
        ∧ Answered ch mbDenied [] s t ∧ AnswerOnly ch s t)
      ∧ (s.partOf m = s.owner 4 (s.mbxArg ch 0 1) → ∃ t, exec (.dspLinkCfg m ch) s = .next t
        ∧ (t.disp (s.mbxArg ch 0 1)).linkUp = bit (s.mbxArg ch 1 1) 0 ∧ t.fb MBX_DB.DONE ch = true
        ∧ (t.disp (s.mbxArg ch 0 1)).link.take 5 = [s.mbxArg ch 1 1, s.mbxArg ch 2 1, s.mbxArg ch 3 1, s.mbxArg ch 4 2,
            s.mbxArg ch 8 4]
        ∧ (∀ o, o ≠ s.mbxArg ch 0 1 → t.disp o = s.disp o)
        ∧ Leaves [.mbx, .outbox, .keptIrqs, .disps] (oneReg .mbxDb ch) s t)))
  ∧ (∀ (s : State) (m : Master) (ch : Nat), ch < 64 →
    (msgTarget (s.mbxMsg ch) ≠ 7 → bits (s.mbxW0 ch) 63 56 = 1 → exec (.unknownMsgId m ch) s = .next s)
    ∧ (s.live → s.chanDenied m ch = false → s.fb MBX_DB.REQ ch = false → 1 ≤ s.mbxTarget ch → s.mbxTarget ch ≤ 6 →
      s.unshed ch → (s.fwp (s.mbxTarget ch)).running = true →
      (bits (s.mbxW0 ch) 63 56 ≠ 1 → ∃ t, exec (.unknownMsgId m ch) s = .next t ∧ Answered ch mbVersion [] s t
        ∧ AnswerOnly ch s t)
      ∧ (bits (s.mbxW0 ch) 63 56 = 1 → msgTarget (s.mbxMsg ch) = 7 → ∃ t, exec (.unknownMsgId m ch) s = .next t
        ∧ Answered ch mbBadMsg [] s t ∧ AnswerOnly ch s t)))

/-- R371: each JTAG instruction takes force and shifts out its register; under EXTEST and CLAMP the two safety outputs
follow the preloaded chain, under HIGHZ their pull-ups, and afterwards the levels of the monitors again. -/
def Obligations.BoundaryScanDrivesTheSafetyPins : Prop :=
  ∀ s : State,
    let pins (a b : Bool) : List Out := [.pin "SAFE_WARN_N" b, .pin "SAFE_FLT_N" a]
    let chain := pins (s.sys.chain.getD (Config.chainPos 0) true) (s.sys.chain.getD (Config.chainPos 1) true)
    let back := if s.sys.jtag = .extest ∨ s.sys.jtag = .clamp ∨ s.sys.jtag = .highz then
        pins (!(s.sys.power.safeFlt || s.sys.power.safeHeld)) (!(s.sys.power.safeWarn || s.sys.power.safeHeld)) else []
    (∃ t, exec .bypass s = .next t ∧ t.sys.jtag = .bypass ∧ t.outbox = .tdo 0 :: back ++ s.outbox
      ∧ Leaves [.jtag, .outbox] noReg s t)
    ∧ (∃ t, exec .idcode s = .next t ∧ t.sys.jtag = .idcode ∧ t.outbox = .tdo 0x19640B47 :: back ++ s.outbox
      ∧ Leaves [.jtag, .outbox] noReg s t)
    ∧ (∀ xs ys, ∃ t, exec (.samplePreload xs ys) s = .next t ∧ t.sys.jtag = .sample ∧ t.sys.chain = ys
      ∧ t.outbox = .tdo ((xs.zipIdx.map fun p => b2n p.1 * 2 ^ p.2).sum) :: back ++ s.outbox
      ∧ Leaves [.jtag, .chain, .outbox] noReg s t)
    ∧ (∃ t, exec .extest s = .next t ∧ t.sys.jtag = .extest ∧ t.outbox = chain ++ s.outbox
      ∧ Leaves [.jtag, .outbox] noReg s t)
    ∧ (∃ t, exec .clamp s = .next t ∧ t.sys.jtag = .clamp ∧ t.outbox = .tdo 0 :: chain ++ s.outbox
      ∧ Leaves [.jtag, .outbox] noReg s t)
    ∧ (∃ t, exec .highz s = .next t ∧ t.sys.jtag = .highz ∧ t.outbox = .tdo 0 :: pins true true ++ s.outbox
      ∧ Leaves [.jtag, .outbox] noReg s t)
end

