-- ==== Sys2Proof/Laws/Maps.lean ====
section
/-! SUPPORT. Laws of bit fields, of the sparse maps and their canonical form, and of register keys. -/

namespace Sys2Proof.Machine

/-! ## Bit fields -/

theorem bits_lt (w hi lo : Nat) : bits w hi lo < 2 ^ (hi + 1 - lo) := Nat.mod_lt _ (Nat.two_pow_pos _)

/-- A field read in full width is the number below it. -/
theorem bits_of_lt {w n : Nat} (h : w < 2 ^ (n + 1)) : bits w n 0 = w := by
  simp only [bits, pow_zero, Nat.div_one, Nat.sub_zero]
  exact Nat.mod_eq_of_lt h

/-- Splitting a number at a field. -/
theorem bits_split (w hi lo : Nat) (h : lo ≤ hi + 1) :
    w = w / 2 ^ (hi + 1) * 2 ^ (hi + 1) + bits w hi lo * 2 ^ lo + w % 2 ^ lo := by
  have e : hi + 1 = lo + (hi + 1 - lo) := by omega
  have h1 : w / 2 ^ (hi + 1) = w / 2 ^ lo / 2 ^ (hi + 1 - lo) := by
    rw [Nat.div_div_eq_div_mul, ← pow_add, ← e]
  have h2 := Nat.div_add_mod (w / 2 ^ lo) (2 ^ (hi + 1 - lo))
  have h3 := Nat.div_add_mod w (2 ^ lo)
  have h4 : 2 ^ (hi + 1) = 2 ^ lo * 2 ^ (hi + 1 - lo) := by rw [← pow_add, ← e]
  unfold bits
  rw [h1, h4]
  calc w = 2 ^ lo * (w / 2 ^ lo) + w % 2 ^ lo := h3.symm
    _ = 2 ^ lo * (2 ^ (hi + 1 - lo) * (w / 2 ^ lo / 2 ^ (hi + 1 - lo)) + w / 2 ^ lo % 2 ^ (hi + 1 - lo))
        + w % 2 ^ lo := by rw [h2]
    _ = _ := by ring

/-- The low part of a field put into a number is below the field's upper end. -/
theorem putBits_low (w hi lo v : Nat) (h : lo ≤ hi + 1) :
    (v % 2 ^ (hi + 1 - lo)) * 2 ^ lo + w % 2 ^ lo < 2 ^ (hi + 1) := by
  have e : 2 ^ (hi + 1) = 2 ^ (hi + 1 - lo) * 2 ^ lo := by rw [← pow_add]; congr 1; omega
  have h1 : v % 2 ^ (hi + 1 - lo) + 1 ≤ 2 ^ (hi + 1 - lo) := Nat.mod_lt _ (Nat.two_pow_pos _)
  have h2 : w % 2 ^ lo < 2 ^ lo := Nat.mod_lt _ (Nat.two_pow_pos _)
  have h3 := Nat.mul_le_mul_right (2 ^ lo) h1
  rw [Nat.add_mul, Nat.one_mul] at h3
  omega

/-- Reading a field that was just put. -/
theorem bits_putBits (w hi lo v : Nat) (h : lo ≤ hi + 1) :
    bits (putBits w hi lo v) hi lo = v % 2 ^ (hi + 1 - lo) := by
  have e : 2 ^ (hi + 1) = 2 ^ (hi + 1 - lo) * 2 ^ lo := by rw [← pow_add]; congr 1; omega
  have h2 : w % 2 ^ lo < 2 ^ lo := Nat.mod_lt _ (Nat.two_pow_pos _)
  have h3 : putBits w hi lo v =
      w % 2 ^ lo + 2 ^ lo * (v % 2 ^ (hi + 1 - lo) + 2 ^ (hi + 1 - lo) * (w / 2 ^ (hi + 1))) := by
    unfold putBits; rw [e]; ring
  unfold bits
  rw [h3, Nat.add_mul_div_left _ _ (Nat.two_pow_pos _), Nat.div_eq_of_lt h2, Nat.zero_add,
    Nat.add_mul_mod_self_left, Nat.mod_mod]

/-- Putting a field leaves every field above it. -/
theorem bits_putBits_above (w hi lo v a b : Nat) (h : lo ≤ hi + 1) (hb : hi < b) :
    bits (putBits w hi lo v) a b = bits w a b := by
  have hl := putBits_low w hi lo v h
  have h1 : putBits w hi lo v / 2 ^ (hi + 1) = w / 2 ^ (hi + 1) := by
    unfold putBits
    rw [Nat.add_assoc, Nat.mul_comm, Nat.mul_add_div (Nat.two_pow_pos _), Nat.div_eq_of_lt hl, Nat.add_zero]
  have e : b = (hi + 1) + (b - (hi + 1)) := by omega
  have h2 : ∀ x : Nat, x / 2 ^ b = x / 2 ^ (hi + 1) / 2 ^ (b - (hi + 1)) := by
    intro x; rw [Nat.div_div_eq_div_mul, ← pow_add, ← e]
  unfold bits
  rw [h2, h1, ← h2]

/-- Putting a field leaves every field below it. -/
theorem bits_putBits_below (w hi lo v a b : Nat) (h : lo ≤ hi + 1) (ha : a < lo) :
    bits (putBits w hi lo v) a b = bits w a b := by
  have h1 : putBits w hi lo v % 2 ^ (a + 1) = w % 2 ^ (a + 1) := by
    have e : 2 ^ (hi + 1) = 2 ^ (a + 1) * 2 ^ (hi - a) := by rw [← pow_add]; congr 1; omega
    have e2 : 2 ^ lo = 2 ^ (a + 1) * 2 ^ (lo - (a + 1)) := by rw [← pow_add]; congr 1; omega
    have h3 : putBits w hi lo v = w % 2 ^ lo + 2 ^ (a + 1) *
        (w / 2 ^ (hi + 1) * 2 ^ (hi - a) + v % 2 ^ (hi + 1 - lo) * 2 ^ (lo - (a + 1))) := by
      unfold putBits
      rw [Nat.mul_add, Nat.add_comm (w % 2 ^ lo)]
      congr 1
      rw [e, e2]; ring
    rw [h3, Nat.add_mul_mod_self_left]
    exact Nat.mod_mod_of_dvd _ (pow_dvd_pow 2 (by omega))
  by_cases hab : b ≤ a
  · have h4 : ∀ x : Nat, bits x a b = x % 2 ^ (a + 1) / 2 ^ b := by
      intro x
      have e : 2 ^ (a + 1) = 2 ^ b * 2 ^ (a + 1 - b) := by rw [← pow_add]; congr 1; omega
      unfold bits
      rw [e, Nat.mod_mul_right_div_self]
    rw [h4, h1, ← h4]
  · have h5 : a + 1 - b = 0 := by omega
    simp [bits, h5, Nat.mod_one]

/-- A field put into a 64-bit number gives a 64-bit number. -/
theorem putBits_lt (w hi lo v : Nat) (h : lo ≤ hi + 1) (hh : hi < 64) (hw : w < 2 ^ 64) :
    putBits w hi lo v < 2 ^ 64 := by
  have hl := putBits_low w hi lo v h
  have e : 2 ^ 64 = 2 ^ (63 - hi) * 2 ^ (hi + 1) := by rw [← pow_add]; congr 1; omega
  have h1 : w / 2 ^ (hi + 1) + 1 ≤ 2 ^ (63 - hi) := by
    refine Nat.div_lt_of_lt_mul ?_
    rw [Nat.mul_comm, ← e]; exact hw
  have h2 := Nat.mul_le_mul_right (2 ^ (hi + 1)) h1
  rw [Nat.add_mul, Nat.one_mul, ← e] at h2
  unfold putBits
  omega

/-- Putting back what a field holds changes nothing. -/
theorem putBits_self (w hi lo : Nat) (h : lo ≤ hi + 1) : putBits w hi lo (bits w hi lo) = w := by
  have h1 : bits w hi lo % 2 ^ (hi + 1 - lo) = bits w hi lo := Nat.mod_eq_of_lt (bits_lt w hi lo)
  unfold putBits
  rw [h1]
  exact (bits_split w hi lo h).symm

/-- The last of two writes of one field stands. -/
theorem putBits_putBits (w hi lo u v : Nat) (h : lo ≤ hi + 1) :
    putBits (putBits w hi lo u) hi lo v = putBits w hi lo v := by
  have hl := putBits_low w hi lo u h
  have h1 : putBits w hi lo u / 2 ^ (hi + 1) = w / 2 ^ (hi + 1) := by
    rw [show putBits w hi lo u = 2 ^ (hi + 1) * (w / 2 ^ (hi + 1)) +
      ((u % 2 ^ (hi + 1 - lo)) * 2 ^ lo + w % 2 ^ lo) by unfold putBits; ring,
      Nat.mul_add_div (Nat.two_pow_pos _), Nat.div_eq_of_lt hl, Nat.add_zero]
  have h2 : putBits w hi lo u % 2 ^ lo = w % 2 ^ lo := by
    have e : 2 ^ (hi + 1) = 2 ^ lo * 2 ^ (hi + 1 - lo) := by rw [← pow_add]; congr 1; omega
    rw [show putBits w hi lo u = w % 2 ^ lo + 2 ^ lo * (w / 2 ^ (hi + 1) * 2 ^ (hi + 1 - lo)
      + u % 2 ^ (hi + 1 - lo)) by unfold putBits; rw [e]; ring, Nat.add_mul_mod_self_left, Nat.mod_mod]
  rw [show putBits (putBits w hi lo u) hi lo v = putBits w hi lo u / 2 ^ (hi + 1) * 2 ^ (hi + 1)
    + (v % 2 ^ (hi + 1 - lo)) * 2 ^ lo + putBits w hi lo u % 2 ^ lo from rfl, h1, h2]
  rfl

/-! ## Sparse maps -/

theorem NMap.find_insert {α : Type} (m : NMap α) (i j : Nat) (x : α) :
    NMap.find (NMap.insert m i x) j = if j = i then some x else NMap.find m j := by
  induction m with
  | nil => simp [NMap.insert, NMap.find]
  | cons p m ih =>
    obtain ⟨k, v⟩ := p
    unfold NMap.insert
    split
    · subst ‹i = k›
      by_cases h : j = i <;> simp [NMap.find, h]
    · split
      · by_cases h : j = i <;> simp [NMap.find, h]
      · by_cases h : j = k
        · subst h
          have : j ≠ i := fun e => ‹¬ i = j› e.symm
          simp [NMap.find, this]
        · simp [NMap.find, h, ih]

theorem NMap.find_erase {α : Type} (m : NMap α) (i j : Nat) :
    NMap.find (NMap.erase m i) j = if j = i then none else NMap.find m j := by
  unfold NMap.erase
  induction m with
  | nil => simp [NMap.find]
  | cons p m ih =>
    obtain ⟨k, v⟩ := p
    by_cases hk : k = i
    · subst hk
      simp only [List.filter_cons, bne_self_eq_false, Bool.false_eq_true, if_false, NMap.find]
      rw [ih]
      by_cases h : j = k <;> simp [h]
    · have hb : (k != i) = true := by simpa using hk
      simp only [List.filter_cons, hb, if_true, NMap.find]
      by_cases h : j = k
      · subst h; simp [hk]
      · simp [h, ih]

/-- Reading a map after a write. -/
@[simp] theorem NMap.get_set {α : Type} [DecidableEq α] (m : NMap α) (d : α) (i j : Nat) (x : α) :
    NMap.get (NMap.set m d i x) d j = if j = i then x else NMap.get m d j := by
  unfold NMap.get NMap.set
  split
  · subst ‹x = d›
    rw [NMap.find_erase]
    by_cases h : j = i <;> simp [h]
  · rw [NMap.find_insert]
    by_cases h : j = i <;> simp [h]

theorem NMap.get_insert {α : Type} (m : NMap α) (d : α) (i j : Nat) (x : α) :
    NMap.get (NMap.insert m i x) d j = if j = i then x else NMap.get m d j := by
  unfold NMap.get
  rw [NMap.find_insert]
  by_cases h : j = i <;> simp [h]

/-! ## The canonical form -/

/-- The lower bound of the first key. -/
def NMap.above (lo : Option Nat) (k : Nat) : Prop := ∀ l, lo = some l → l < k

theorem NMap.wfFrom_cons {α : Type} [DecidableEq α] (d : α) (lo : Option Nat) (k : Nat) (v : α) (m : NMap α) :
    NMap.wfFrom d lo ((k, v) :: m) = true ↔ NMap.above lo k ∧ v ≠ d ∧ NMap.wfFrom d (some k) m = true := by
  cases lo <;> simp [NMap.wfFrom, NMap.above, and_assoc]

theorem NMap.wfFrom_mono {α : Type} [DecidableEq α] (d : α) (lo lo' : Option Nat) (m : NMap α)
    (h : ∀ k, NMap.above lo k → NMap.above lo' k) (hm : NMap.wfFrom d lo m = true) :
    NMap.wfFrom d lo' m = true := by
  cases m with
  | nil => rfl
  | cons p m =>
    obtain ⟨k, v⟩ := p
    rw [NMap.wfFrom_cons] at hm ⊢
    exact ⟨h k hm.1, hm.2⟩

theorem NMap.wfFrom_insert {α : Type} [DecidableEq α] (d : α) (i : Nat) (x : α) (hx : x ≠ d) (m : NMap α) :
    ∀ lo, NMap.above lo i → NMap.wfFrom d lo m = true → NMap.wfFrom d lo (NMap.insert m i x) = true := by
  induction m with
  | nil => intro lo hi _; exact (NMap.wfFrom_cons d lo i x []).mpr ⟨hi, hx, rfl⟩
  | cons p m ih =>
    obtain ⟨k, v⟩ := p
    intro lo hi hm
    have hm' := (NMap.wfFrom_cons d lo k v m).mp hm
    unfold NMap.insert
    split
    · subst ‹i = k›
      exact (NMap.wfFrom_cons d lo i x m).mpr ⟨hi, hx, hm'.2.2⟩
    · split
      · refine (NMap.wfFrom_cons d lo i x _).mpr ⟨hi, hx, ?_⟩
        refine (NMap.wfFrom_cons d (some i) k v m).mpr ⟨?_, hm'.2⟩
        intro l hl; cases hl; assumption
      · refine (NMap.wfFrom_cons d lo k v _).mpr ⟨hm'.1, hm'.2.1, ih (some k) ?_ hm'.2.2⟩
        intro l hl; cases hl; omega

theorem NMap.wfFrom_filter {α : Type} [DecidableEq α] (d : α) (q : Nat × α → Bool) (m : NMap α) :
    ∀ lo, NMap.wfFrom d lo m = true → NMap.wfFrom d lo (m.filter q) = true := by
  induction m with
  | nil => intro lo h; exact h
  | cons p m ih =>
    obtain ⟨k, v⟩ := p
    intro lo h
    have h' := (NMap.wfFrom_cons d lo k v m).mp h
    by_cases hq : q (k, v) = true
    · rw [List.filter_cons_of_pos hq]
      exact (NMap.wfFrom_cons d lo k v _).mpr ⟨h'.1, h'.2.1, ih _ h'.2.2⟩
    · rw [List.filter_cons_of_neg hq]
      refine NMap.wfFrom_mono d (some k) lo _ ?_ (ih _ h'.2.2)
      intro j hj l hl
      have h1 := hj k rfl
      have h2 := h'.1 l hl
      omega

/-- A write of a map keeps the canonical form. -/
theorem NMap.wf_set {α : Type} [DecidableEq α] (d : α) (m : NMap α) (i : Nat) (x : α)
    (h : NMap.wf d m = true) : NMap.wf d (NMap.set m d i x) = true := by
  unfold NMap.wf NMap.set NMap.erase at *
  split
  · exact NMap.wfFrom_filter d _ m none h
  · exact NMap.wfFrom_insert d i x ‹_› m none (by intro l hl; cases hl) h

/-- A filter of a map keeps the canonical form. -/
theorem NMap.wf_filter {α : Type} [DecidableEq α] (d : α) (m : NMap α) (q : Nat × α → Bool)
    (h : NMap.wf d m = true) : NMap.wf d (m.filter q) = true := NMap.wfFrom_filter d q m none h

/-! ## Register keys -/

theorem Reg.num_lt (r : Reg) : r.num < 128 := by cases r <;> decide

theorem Reg.num_inj (r q : Reg) (h : r.num = q.num) : r = q := by
  have hr : Reg.all[r.num]? = some r := by cases r <;> rfl
  have hq : Reg.all[q.num]? = some q := by cases q <;> rfl
  rw [h, hq] at hr
  exact (Option.some.inj hr).symm

theorem Reg.key_inj (r q : Reg) (i j : Nat) : r.key i = q.key j ↔ r = q ∧ i = j := by
  constructor
  · intro h
    have h1 := r.num_lt
    have h2 := q.num_lt
    unfold Reg.key at h
    exact ⟨Reg.num_inj r q (by omega), by omega⟩
  · rintro ⟨rfl, rfl⟩; rfl

theorem keyReset_key (r : Reg) (i : Nat) : keyReset (r.key i) = r.reset i := by
  have h1 := r.num_lt
  have e1 : r.key i % 128 = r.num := by unfold Reg.key; omega
  have e2 : r.key i / 128 = i := by unfold Reg.key; omega
  have hr : Reg.all[r.num]? = some r := by cases r <;> rfl
  unfold keyReset
  rw [e1, e2, hr]

end Sys2Proof.Machine
end

