-- ==== Sys2Proof/Laws/State.lean ====
section
/-! SUPPORT. One lemma per field of the state for every named update: the fields an update does not touch, and what
the touched one reads as afterwards. -/

namespace Sys2Proof.Machine

/-! ## Fields that an update does not touch -/

section
variable (s : State) (g : Reg) (i v : Nat)
@[simp] theorem State.setR_pending : (s.setR g i v).pending = s.pending := (rfl)
@[simp] theorem State.setR_outbox : (s.setR g i v).outbox = s.outbox := (rfl)
@[simp] theorem State.setR_clock : (s.setR g i v).clock = s.clock := (rfl)
@[simp] theorem State.setR_mem : (s.setR g i v).mem = s.mem := (rfl)
@[simp] theorem State.setR_work : (s.setR g i v).work = s.work := (rfl)
@[simp] theorem State.setR_units : (s.setR g i v).units = s.units := (rfl)
@[simp] theorem State.setR_dtu : (s.setR g i v).dtu = s.dtu := (rfl)
@[simp] theorem State.setR_pix : (s.setR g i v).pix = s.pix := (rfl)
@[simp] theorem State.setR_net : (s.setR g i v).net = s.net := (rfl)
@[simp] theorem State.setR_sys : (s.setR g i v).sys = s.sys := (rfl)
@[simp] theorem State.setR_freeCtr : (s.setR g i v).freeCtr = s.freeCtr := (rfl)
@[simp] theorem State.setR_byte (b : Nat) : (s.setR g i v).byte b = s.byte b := (rfl)
@[simp] theorem State.setR_now : (s.setR g i v).now = s.now := (rfl)
@[simp] theorem State.setR_arr (k : Nat) : (s.setR g i v).arr k = s.arr k := (rfl)
@[simp] theorem State.setR_flask (k : Nat) : (s.setR g i v).flask k = s.flask k := (rfl)
@[simp] theorem State.setR_vec (k : Nat) : (s.setR g i v).vec k = s.vec k := (rfl)
@[simp] theorem State.setR_rt (k : Nat) : (s.setR g i v).rt k = s.rt k := (rfl)
@[simp] theorem State.setR_q (k : Nat) : (s.setR g i v).q k = s.q k := (rfl)
@[simp] theorem State.setR_job (k : Nat) : (s.setR g i v).job k = s.job k := (rfl)
@[simp] theorem State.setR_ctx (k : Nat) : (s.setR g i v).ctx k = s.ctx k := (rfl)
@[simp] theorem State.setR_cam (k : Nat) : (s.setR g i v).cam k = s.cam k := (rfl)
@[simp] theorem State.setR_disp (k : Nat) : (s.setR g i v).disp k = s.disp k := (rfl)
@[simp] theorem State.setR_canc (k : Nat) : (s.setR g i v).canc k = s.canc k := (rfl)
@[simp] theorem State.setR_tun (k : Nat) : (s.setR g i v).tun k = s.tun k := (rfl)
@[simp] theorem State.setR_wport (k : Nat) : (s.setR g i v).wport k = s.wport k := (rfl)
@[simp] theorem State.setR_fwp (k : Nat) : (s.setR g i v).fwp k = s.fwp k := (rfl)
end

section
variable (s : State) (x : Fld) (i v : Nat)
@[simp] theorem State.setF_pending : (s.setF x i v).pending = s.pending := (rfl)
@[simp] theorem State.setF_outbox : (s.setF x i v).outbox = s.outbox := (rfl)
@[simp] theorem State.setF_clock : (s.setF x i v).clock = s.clock := (rfl)
@[simp] theorem State.setF_mem : (s.setF x i v).mem = s.mem := (rfl)
@[simp] theorem State.setF_work : (s.setF x i v).work = s.work := (rfl)
@[simp] theorem State.setF_units : (s.setF x i v).units = s.units := (rfl)
@[simp] theorem State.setF_dtu : (s.setF x i v).dtu = s.dtu := (rfl)
@[simp] theorem State.setF_pix : (s.setF x i v).pix = s.pix := (rfl)
@[simp] theorem State.setF_net : (s.setF x i v).net = s.net := (rfl)
@[simp] theorem State.setF_sys : (s.setF x i v).sys = s.sys := (rfl)
@[simp] theorem State.setF_freeCtr : (s.setF x i v).freeCtr = s.freeCtr := (rfl)
@[simp] theorem State.setF_byte (b : Nat) : (s.setF x i v).byte b = s.byte b := (rfl)
@[simp] theorem State.setF_now : (s.setF x i v).now = s.now := (rfl)
@[simp] theorem State.setF_arr (k : Nat) : (s.setF x i v).arr k = s.arr k := (rfl)
@[simp] theorem State.setF_flask (k : Nat) : (s.setF x i v).flask k = s.flask k := (rfl)
@[simp] theorem State.setF_vec (k : Nat) : (s.setF x i v).vec k = s.vec k := (rfl)
@[simp] theorem State.setF_rt (k : Nat) : (s.setF x i v).rt k = s.rt k := (rfl)
@[simp] theorem State.setF_q (k : Nat) : (s.setF x i v).q k = s.q k := (rfl)
@[simp] theorem State.setF_job (k : Nat) : (s.setF x i v).job k = s.job k := (rfl)
@[simp] theorem State.setF_ctx (k : Nat) : (s.setF x i v).ctx k = s.ctx k := (rfl)
@[simp] theorem State.setF_cam (k : Nat) : (s.setF x i v).cam k = s.cam k := (rfl)
@[simp] theorem State.setF_disp (k : Nat) : (s.setF x i v).disp k = s.disp k := (rfl)
@[simp] theorem State.setF_canc (k : Nat) : (s.setF x i v).canc k = s.canc k := (rfl)
@[simp] theorem State.setF_tun (k : Nat) : (s.setF x i v).tun k = s.tun k := (rfl)
@[simp] theorem State.setF_wport (k : Nat) : (s.setF x i v).wport k = s.wport k := (rfl)
@[simp] theorem State.setF_fwp (k : Nat) : (s.setF x i v).fwp k = s.fwp k := (rfl)
end

section
variable (s : State) (x : Fld) (i n : Nat)
@[simp] theorem State.incSat_pending : (s.incSat x i n).pending = s.pending := (rfl)
@[simp] theorem State.incSat_outbox : (s.incSat x i n).outbox = s.outbox := (rfl)
@[simp] theorem State.incSat_clock : (s.incSat x i n).clock = s.clock := (rfl)
@[simp] theorem State.incSat_mem : (s.incSat x i n).mem = s.mem := (rfl)
@[simp] theorem State.incSat_work : (s.incSat x i n).work = s.work := (rfl)
@[simp] theorem State.incSat_units : (s.incSat x i n).units = s.units := (rfl)
@[simp] theorem State.incSat_dtu : (s.incSat x i n).dtu = s.dtu := (rfl)
@[simp] theorem State.incSat_pix : (s.incSat x i n).pix = s.pix := (rfl)
@[simp] theorem State.incSat_net : (s.incSat x i n).net = s.net := (rfl)
@[simp] theorem State.incSat_sys : (s.incSat x i n).sys = s.sys := (rfl)
@[simp] theorem State.incSat_freeCtr : (s.incSat x i n).freeCtr = s.freeCtr := (rfl)
@[simp] theorem State.incSat_byte (b : Nat) : (s.incSat x i n).byte b = s.byte b := (rfl)
@[simp] theorem State.incSat_now : (s.incSat x i n).now = s.now := (rfl)
@[simp] theorem State.incSat_arr (k : Nat) : (s.incSat x i n).arr k = s.arr k := (rfl)
@[simp] theorem State.incSat_flask (k : Nat) : (s.incSat x i n).flask k = s.flask k := (rfl)
@[simp] theorem State.incSat_vec (k : Nat) : (s.incSat x i n).vec k = s.vec k := (rfl)
@[simp] theorem State.incSat_rt (k : Nat) : (s.incSat x i n).rt k = s.rt k := (rfl)
@[simp] theorem State.incSat_q (k : Nat) : (s.incSat x i n).q k = s.q k := (rfl)
@[simp] theorem State.incSat_job (k : Nat) : (s.incSat x i n).job k = s.job k := (rfl)
@[simp] theorem State.incSat_ctx (k : Nat) : (s.incSat x i n).ctx k = s.ctx k := (rfl)
@[simp] theorem State.incSat_cam (k : Nat) : (s.incSat x i n).cam k = s.cam k := (rfl)
@[simp] theorem State.incSat_disp (k : Nat) : (s.incSat x i n).disp k = s.disp k := (rfl)
@[simp] theorem State.incSat_canc (k : Nat) : (s.incSat x i n).canc k = s.canc k := (rfl)
@[simp] theorem State.incSat_tun (k : Nat) : (s.incSat x i n).tun k = s.tun k := (rfl)
@[simp] theorem State.incSat_wport (k : Nat) : (s.incSat x i n).wport k = s.wport k := (rfl)
@[simp] theorem State.incSat_fwp (k : Nat) : (s.incSat x i n).fwp k = s.fwp k := (rfl)
end

section
variable (s : State) (x : Fld) (i n : Nat)
@[simp] theorem State.incWrap_pending : (s.incWrap x i n).pending = s.pending := (rfl)
@[simp] theorem State.incWrap_outbox : (s.incWrap x i n).outbox = s.outbox := (rfl)
@[simp] theorem State.incWrap_clock : (s.incWrap x i n).clock = s.clock := (rfl)
@[simp] theorem State.incWrap_mem : (s.incWrap x i n).mem = s.mem := (rfl)
@[simp] theorem State.incWrap_work : (s.incWrap x i n).work = s.work := (rfl)
@[simp] theorem State.incWrap_units : (s.incWrap x i n).units = s.units := (rfl)
@[simp] theorem State.incWrap_dtu : (s.incWrap x i n).dtu = s.dtu := (rfl)
@[simp] theorem State.incWrap_pix : (s.incWrap x i n).pix = s.pix := (rfl)
@[simp] theorem State.incWrap_net : (s.incWrap x i n).net = s.net := (rfl)
@[simp] theorem State.incWrap_sys : (s.incWrap x i n).sys = s.sys := (rfl)
@[simp] theorem State.incWrap_freeCtr : (s.incWrap x i n).freeCtr = s.freeCtr := (rfl)
@[simp] theorem State.incWrap_byte (b : Nat) : (s.incWrap x i n).byte b = s.byte b := (rfl)
@[simp] theorem State.incWrap_now : (s.incWrap x i n).now = s.now := (rfl)
@[simp] theorem State.incWrap_arr (k : Nat) : (s.incWrap x i n).arr k = s.arr k := (rfl)
@[simp] theorem State.incWrap_flask (k : Nat) : (s.incWrap x i n).flask k = s.flask k := (rfl)
@[simp] theorem State.incWrap_vec (k : Nat) : (s.incWrap x i n).vec k = s.vec k := (rfl)
@[simp] theorem State.incWrap_rt (k : Nat) : (s.incWrap x i n).rt k = s.rt k := (rfl)
@[simp] theorem State.incWrap_q (k : Nat) : (s.incWrap x i n).q k = s.q k := (rfl)
@[simp] theorem State.incWrap_job (k : Nat) : (s.incWrap x i n).job k = s.job k := (rfl)
@[simp] theorem State.incWrap_ctx (k : Nat) : (s.incWrap x i n).ctx k = s.ctx k := (rfl)
@[simp] theorem State.incWrap_cam (k : Nat) : (s.incWrap x i n).cam k = s.cam k := (rfl)
@[simp] theorem State.incWrap_disp (k : Nat) : (s.incWrap x i n).disp k = s.disp k := (rfl)
@[simp] theorem State.incWrap_canc (k : Nat) : (s.incWrap x i n).canc k = s.canc k := (rfl)
@[simp] theorem State.incWrap_tun (k : Nat) : (s.incWrap x i n).tun k = s.tun k := (rfl)
@[simp] theorem State.incWrap_wport (k : Nat) : (s.incWrap x i n).wport k = s.wport k := (rfl)
@[simp] theorem State.incWrap_fwp (k : Nat) : (s.incWrap x i n).fwp k = s.fwp k := (rfl)
end

section
variable (s : State) (o : Out)
@[simp] theorem State.emit_pending : (s.emit o).pending = s.pending := (rfl)
@[simp] theorem State.emit_regs : (s.emit o).regs = s.regs := (rfl)
@[simp] theorem State.emit_clock : (s.emit o).clock = s.clock := (rfl)
@[simp] theorem State.emit_mem : (s.emit o).mem = s.mem := (rfl)
@[simp] theorem State.emit_work : (s.emit o).work = s.work := (rfl)
@[simp] theorem State.emit_units : (s.emit o).units = s.units := (rfl)
@[simp] theorem State.emit_dtu : (s.emit o).dtu = s.dtu := (rfl)
@[simp] theorem State.emit_pix : (s.emit o).pix = s.pix := (rfl)
@[simp] theorem State.emit_net : (s.emit o).net = s.net := (rfl)
@[simp] theorem State.emit_sys : (s.emit o).sys = s.sys := (rfl)
@[simp] theorem State.emit_freeCtr : (s.emit o).freeCtr = s.freeCtr := (rfl)
@[simp] theorem State.emit_r (q : Reg) (k : Nat) : (s.emit o).r q k = s.r q k := (rfl)
@[simp] theorem State.emit_f (y : Fld) (k : Nat) : (s.emit o).f y k = s.f y k := (rfl)
@[simp] theorem State.emit_fb (y : Fld) (k : Nat) : (s.emit o).fb y k = s.fb y k := (rfl)
@[simp] theorem State.emit_byte (b : Nat) : (s.emit o).byte b = s.byte b := (rfl)
@[simp] theorem State.emit_now : (s.emit o).now = s.now := (rfl)
@[simp] theorem State.emit_arr (k : Nat) : (s.emit o).arr k = s.arr k := (rfl)
@[simp] theorem State.emit_flask (k : Nat) : (s.emit o).flask k = s.flask k := (rfl)
@[simp] theorem State.emit_vec (k : Nat) : (s.emit o).vec k = s.vec k := (rfl)
@[simp] theorem State.emit_rt (k : Nat) : (s.emit o).rt k = s.rt k := (rfl)
@[simp] theorem State.emit_q (k : Nat) : (s.emit o).q k = s.q k := (rfl)
@[simp] theorem State.emit_job (k : Nat) : (s.emit o).job k = s.job k := (rfl)
@[simp] theorem State.emit_ctx (k : Nat) : (s.emit o).ctx k = s.ctx k := (rfl)
@[simp] theorem State.emit_cam (k : Nat) : (s.emit o).cam k = s.cam k := (rfl)
@[simp] theorem State.emit_disp (k : Nat) : (s.emit o).disp k = s.disp k := (rfl)
@[simp] theorem State.emit_canc (k : Nat) : (s.emit o).canc k = s.canc k := (rfl)
@[simp] theorem State.emit_tun (k : Nat) : (s.emit o).tun k = s.tun k := (rfl)
@[simp] theorem State.emit_wport (k : Nat) : (s.emit o).wport k = s.wport k := (rfl)
@[simp] theorem State.emit_fwp (k : Nat) : (s.emit o).fwp k = s.fwp k := (rfl)
end

section
variable (s : State) (a : Nat) (x : ArraySt)
@[simp] theorem State.setArr_pending : (s.setArr a x).pending = s.pending := (rfl)
@[simp] theorem State.setArr_regs : (s.setArr a x).regs = s.regs := (rfl)
@[simp] theorem State.setArr_outbox : (s.setArr a x).outbox = s.outbox := (rfl)
@[simp] theorem State.setArr_clock : (s.setArr a x).clock = s.clock := (rfl)
@[simp] theorem State.setArr_mem : (s.setArr a x).mem = s.mem := (rfl)
@[simp] theorem State.setArr_work : (s.setArr a x).work = s.work := (rfl)
@[simp] theorem State.setArr_dtu : (s.setArr a x).dtu = s.dtu := (rfl)
@[simp] theorem State.setArr_pix : (s.setArr a x).pix = s.pix := (rfl)
@[simp] theorem State.setArr_net : (s.setArr a x).net = s.net := (rfl)
@[simp] theorem State.setArr_sys : (s.setArr a x).sys = s.sys := (rfl)
@[simp] theorem State.setArr_freeCtr : (s.setArr a x).freeCtr = s.freeCtr := (rfl)
@[simp] theorem State.setArr_r (q : Reg) (k : Nat) : (s.setArr a x).r q k = s.r q k := (rfl)
@[simp] theorem State.setArr_f (y : Fld) (k : Nat) : (s.setArr a x).f y k = s.f y k := (rfl)
@[simp] theorem State.setArr_fb (y : Fld) (k : Nat) : (s.setArr a x).fb y k = s.fb y k := (rfl)
@[simp] theorem State.setArr_byte (b : Nat) : (s.setArr a x).byte b = s.byte b := (rfl)
@[simp] theorem State.setArr_now : (s.setArr a x).now = s.now := (rfl)
@[simp] theorem State.setArr_flask (k : Nat) : (s.setArr a x).flask k = s.flask k := (rfl)
@[simp] theorem State.setArr_vec (k : Nat) : (s.setArr a x).vec k = s.vec k := (rfl)
@[simp] theorem State.setArr_rt (k : Nat) : (s.setArr a x).rt k = s.rt k := (rfl)
@[simp] theorem State.setArr_q (k : Nat) : (s.setArr a x).q k = s.q k := (rfl)
@[simp] theorem State.setArr_job (k : Nat) : (s.setArr a x).job k = s.job k := (rfl)
@[simp] theorem State.setArr_ctx (k : Nat) : (s.setArr a x).ctx k = s.ctx k := (rfl)
@[simp] theorem State.setArr_cam (k : Nat) : (s.setArr a x).cam k = s.cam k := (rfl)
@[simp] theorem State.setArr_disp (k : Nat) : (s.setArr a x).disp k = s.disp k := (rfl)
@[simp] theorem State.setArr_canc (k : Nat) : (s.setArr a x).canc k = s.canc k := (rfl)
@[simp] theorem State.setArr_tun (k : Nat) : (s.setArr a x).tun k = s.tun k := (rfl)
@[simp] theorem State.setArr_wport (k : Nat) : (s.setArr a x).wport k = s.wport k := (rfl)
@[simp] theorem State.setArr_fwp (k : Nat) : (s.setArr a x).fwp k = s.fwp k := (rfl)
@[simp] theorem State.setArr_units_pairs : (s.setArr a x).units.pairs = s.units.pairs := (rfl)
@[simp] theorem State.setArr_units_flasks : (s.setArr a x).units.flasks = s.units.flasks := (rfl)
@[simp] theorem State.setArr_units_rts : (s.setArr a x).units.rts = s.units.rts := (rfl)
@[simp] theorem State.setArr_units_pour : (s.setArr a x).units.pour = s.units.pour := (rfl)
@[simp] theorem State.setArr_units_rtUsed : (s.setArr a x).units.rtUsed = s.units.rtUsed := (rfl)
@[simp] theorem State.setArr_units_vecs : (s.setArr a x).units.vecs = s.units.vecs := (rfl)
@[simp] theorem State.setArr_units_saved : (s.setArr a x).units.saved = s.units.saved := (rfl)
@[simp] theorem State.setArr_units_spares : (s.setArr a x).units.spares = s.units.spares := (rfl)
@[simp] theorem State.setArr_units_runnerDue : (s.setArr a x).units.runnerDue = s.units.runnerDue := (rfl)
@[simp] theorem State.setArr_units_runnerOut : (s.setArr a x).units.runnerOut = s.units.runnerOut := (rfl)
@[simp] theorem State.setArr_units_tbVerifying : (s.setArr a x).units.tbVerifying = s.units.tbVerifying := (rfl)
@[simp] theorem State.setArr_units_tbStopped : (s.setArr a x).units.tbStopped = s.units.tbStopped := (rfl)
@[simp] theorem State.setArr_units_tbFailed : (s.setArr a x).units.tbFailed = s.units.tbFailed := (rfl)
end

section
variable (s : State) (a : Nat) (f : ArraySt → ArraySt)
@[simp] theorem State.modArr_pending : (s.modArr a f).pending = s.pending := (rfl)
@[simp] theorem State.modArr_regs : (s.modArr a f).regs = s.regs := (rfl)
@[simp] theorem State.modArr_outbox : (s.modArr a f).outbox = s.outbox := (rfl)
@[simp] theorem State.modArr_clock : (s.modArr a f).clock = s.clock := (rfl)
@[simp] theorem State.modArr_mem : (s.modArr a f).mem = s.mem := (rfl)
@[simp] theorem State.modArr_work : (s.modArr a f).work = s.work := (rfl)
@[simp] theorem State.modArr_dtu : (s.modArr a f).dtu = s.dtu := (rfl)
@[simp] theorem State.modArr_pix : (s.modArr a f).pix = s.pix := (rfl)
@[simp] theorem State.modArr_net : (s.modArr a f).net = s.net := (rfl)
@[simp] theorem State.modArr_sys : (s.modArr a f).sys = s.sys := (rfl)
@[simp] theorem State.modArr_freeCtr : (s.modArr a f).freeCtr = s.freeCtr := (rfl)
@[simp] theorem State.modArr_r (q : Reg) (k : Nat) : (s.modArr a f).r q k = s.r q k := (rfl)
@[simp] theorem State.modArr_f (y : Fld) (k : Nat) : (s.modArr a f).f y k = s.f y k := (rfl)
@[simp] theorem State.modArr_fb (y : Fld) (k : Nat) : (s.modArr a f).fb y k = s.fb y k := (rfl)
@[simp] theorem State.modArr_byte (b : Nat) : (s.modArr a f).byte b = s.byte b := (rfl)
@[simp] theorem State.modArr_now : (s.modArr a f).now = s.now := (rfl)
@[simp] theorem State.modArr_flask (k : Nat) : (s.modArr a f).flask k = s.flask k := (rfl)
@[simp] theorem State.modArr_vec (k : Nat) : (s.modArr a f).vec k = s.vec k := (rfl)
@[simp] theorem State.modArr_rt (k : Nat) : (s.modArr a f).rt k = s.rt k := (rfl)
@[simp] theorem State.modArr_q (k : Nat) : (s.modArr a f).q k = s.q k := (rfl)
@[simp] theorem State.modArr_job (k : Nat) : (s.modArr a f).job k = s.job k := (rfl)
@[simp] theorem State.modArr_ctx (k : Nat) : (s.modArr a f).ctx k = s.ctx k := (rfl)
@[simp] theorem State.modArr_cam (k : Nat) : (s.modArr a f).cam k = s.cam k := (rfl)
@[simp] theorem State.modArr_disp (k : Nat) : (s.modArr a f).disp k = s.disp k := (rfl)
@[simp] theorem State.modArr_canc (k : Nat) : (s.modArr a f).canc k = s.canc k := (rfl)
@[simp] theorem State.modArr_tun (k : Nat) : (s.modArr a f).tun k = s.tun k := (rfl)
@[simp] theorem State.modArr_wport (k : Nat) : (s.modArr a f).wport k = s.wport k := (rfl)
@[simp] theorem State.modArr_fwp (k : Nat) : (s.modArr a f).fwp k = s.fwp k := (rfl)
@[simp] theorem State.modArr_units_pairs : (s.modArr a f).units.pairs = s.units.pairs := (rfl)
@[simp] theorem State.modArr_units_flasks : (s.modArr a f).units.flasks = s.units.flasks := (rfl)
@[simp] theorem State.modArr_units_rts : (s.modArr a f).units.rts = s.units.rts := (rfl)
@[simp] theorem State.modArr_units_pour : (s.modArr a f).units.pour = s.units.pour := (rfl)
@[simp] theorem State.modArr_units_rtUsed : (s.modArr a f).units.rtUsed = s.units.rtUsed := (rfl)
@[simp] theorem State.modArr_units_vecs : (s.modArr a f).units.vecs = s.units.vecs := (rfl)
@[simp] theorem State.modArr_units_saved : (s.modArr a f).units.saved = s.units.saved := (rfl)
@[simp] theorem State.modArr_units_spares : (s.modArr a f).units.spares = s.units.spares := (rfl)
@[simp] theorem State.modArr_units_runnerDue : (s.modArr a f).units.runnerDue = s.units.runnerDue := (rfl)
@[simp] theorem State.modArr_units_runnerOut : (s.modArr a f).units.runnerOut = s.units.runnerOut := (rfl)
@[simp] theorem State.modArr_units_tbVerifying : (s.modArr a f).units.tbVerifying = s.units.tbVerifying := (rfl)
@[simp] theorem State.modArr_units_tbStopped : (s.modArr a f).units.tbStopped = s.units.tbStopped := (rfl)
@[simp] theorem State.modArr_units_tbFailed : (s.modArr a f).units.tbFailed = s.units.tbFailed := (rfl)
end

section
variable (s : State) (f : Nat) (g : FlaskSt → FlaskSt)
@[simp] theorem State.modFlask_pending : (s.modFlask f g).pending = s.pending := (rfl)
@[simp] theorem State.modFlask_regs : (s.modFlask f g).regs = s.regs := (rfl)
@[simp] theorem State.modFlask_outbox : (s.modFlask f g).outbox = s.outbox := (rfl)
@[simp] theorem State.modFlask_clock : (s.modFlask f g).clock = s.clock := (rfl)
@[simp] theorem State.modFlask_mem : (s.modFlask f g).mem = s.mem := (rfl)
@[simp] theorem State.modFlask_work : (s.modFlask f g).work = s.work := (rfl)
@[simp] theorem State.modFlask_dtu : (s.modFlask f g).dtu = s.dtu := (rfl)
@[simp] theorem State.modFlask_pix : (s.modFlask f g).pix = s.pix := (rfl)
@[simp] theorem State.modFlask_net : (s.modFlask f g).net = s.net := (rfl)
@[simp] theorem State.modFlask_sys : (s.modFlask f g).sys = s.sys := (rfl)
@[simp] theorem State.modFlask_freeCtr : (s.modFlask f g).freeCtr = s.freeCtr := (rfl)
@[simp] theorem State.modFlask_r (q : Reg) (k : Nat) : (s.modFlask f g).r q k = s.r q k := (rfl)
@[simp] theorem State.modFlask_f (y : Fld) (k : Nat) : (s.modFlask f g).f y k = s.f y k := (rfl)
@[simp] theorem State.modFlask_fb (y : Fld) (k : Nat) : (s.modFlask f g).fb y k = s.fb y k := (rfl)
@[simp] theorem State.modFlask_byte (b : Nat) : (s.modFlask f g).byte b = s.byte b := (rfl)
@[simp] theorem State.modFlask_now : (s.modFlask f g).now = s.now := (rfl)
@[simp] theorem State.modFlask_arr (k : Nat) : (s.modFlask f g).arr k = s.arr k := (rfl)
@[simp] theorem State.modFlask_vec (k : Nat) : (s.modFlask f g).vec k = s.vec k := (rfl)
@[simp] theorem State.modFlask_rt (k : Nat) : (s.modFlask f g).rt k = s.rt k := (rfl)
@[simp] theorem State.modFlask_q (k : Nat) : (s.modFlask f g).q k = s.q k := (rfl)
@[simp] theorem State.modFlask_job (k : Nat) : (s.modFlask f g).job k = s.job k := (rfl)
@[simp] theorem State.modFlask_ctx (k : Nat) : (s.modFlask f g).ctx k = s.ctx k := (rfl)
@[simp] theorem State.modFlask_cam (k : Nat) : (s.modFlask f g).cam k = s.cam k := (rfl)
@[simp] theorem State.modFlask_disp (k : Nat) : (s.modFlask f g).disp k = s.disp k := (rfl)
@[simp] theorem State.modFlask_canc (k : Nat) : (s.modFlask f g).canc k = s.canc k := (rfl)
@[simp] theorem State.modFlask_tun (k : Nat) : (s.modFlask f g).tun k = s.tun k := (rfl)
@[simp] theorem State.modFlask_wport (k : Nat) : (s.modFlask f g).wport k = s.wport k := (rfl)
@[simp] theorem State.modFlask_fwp (k : Nat) : (s.modFlask f g).fwp k = s.fwp k := (rfl)
@[simp] theorem State.modFlask_units_arrays : (s.modFlask f g).units.arrays = s.units.arrays := (rfl)
@[simp] theorem State.modFlask_units_pairs : (s.modFlask f g).units.pairs = s.units.pairs := (rfl)
@[simp] theorem State.modFlask_units_rts : (s.modFlask f g).units.rts = s.units.rts := (rfl)
@[simp] theorem State.modFlask_units_pour : (s.modFlask f g).units.pour = s.units.pour := (rfl)
@[simp] theorem State.modFlask_units_rtUsed : (s.modFlask f g).units.rtUsed = s.units.rtUsed := (rfl)
@[simp] theorem State.modFlask_units_vecs : (s.modFlask f g).units.vecs = s.units.vecs := (rfl)
@[simp] theorem State.modFlask_units_saved : (s.modFlask f g).units.saved = s.units.saved := (rfl)
@[simp] theorem State.modFlask_units_spares : (s.modFlask f g).units.spares = s.units.spares := (rfl)
@[simp] theorem State.modFlask_units_runnerDue : (s.modFlask f g).units.runnerDue = s.units.runnerDue := (rfl)
@[simp] theorem State.modFlask_units_runnerOut : (s.modFlask f g).units.runnerOut = s.units.runnerOut := (rfl)
@[simp] theorem State.modFlask_units_tbVerifying : (s.modFlask f g).units.tbVerifying = s.units.tbVerifying := (rfl)
@[simp] theorem State.modFlask_units_tbStopped : (s.modFlask f g).units.tbStopped = s.units.tbStopped := (rfl)
@[simp] theorem State.modFlask_units_tbFailed : (s.modFlask f g).units.tbFailed = s.units.tbFailed := (rfl)
end

section
variable (s : State) (e : Nat) (g : VecSt → VecSt)
@[simp] theorem State.modVec_pending : (s.modVec e g).pending = s.pending := (rfl)
@[simp] theorem State.modVec_regs : (s.modVec e g).regs = s.regs := (rfl)
@[simp] theorem State.modVec_outbox : (s.modVec e g).outbox = s.outbox := (rfl)
@[simp] theorem State.modVec_clock : (s.modVec e g).clock = s.clock := (rfl)
@[simp] theorem State.modVec_mem : (s.modVec e g).mem = s.mem := (rfl)
@[simp] theorem State.modVec_work : (s.modVec e g).work = s.work := (rfl)
@[simp] theorem State.modVec_dtu : (s.modVec e g).dtu = s.dtu := (rfl)
@[simp] theorem State.modVec_pix : (s.modVec e g).pix = s.pix := (rfl)
@[simp] theorem State.modVec_net : (s.modVec e g).net = s.net := (rfl)
@[simp] theorem State.modVec_sys : (s.modVec e g).sys = s.sys := (rfl)
@[simp] theorem State.modVec_freeCtr : (s.modVec e g).freeCtr = s.freeCtr := (rfl)
@[simp] theorem State.modVec_r (q : Reg) (k : Nat) : (s.modVec e g).r q k = s.r q k := (rfl)
@[simp] theorem State.modVec_f (y : Fld) (k : Nat) : (s.modVec e g).f y k = s.f y k := (rfl)
@[simp] theorem State.modVec_fb (y : Fld) (k : Nat) : (s.modVec e g).fb y k = s.fb y k := (rfl)
@[simp] theorem State.modVec_byte (b : Nat) : (s.modVec e g).byte b = s.byte b := (rfl)
@[simp] theorem State.modVec_now : (s.modVec e g).now = s.now := (rfl)
@[simp] theorem State.modVec_arr (k : Nat) : (s.modVec e g).arr k = s.arr k := (rfl)
@[simp] theorem State.modVec_flask (k : Nat) : (s.modVec e g).flask k = s.flask k := (rfl)
@[simp] theorem State.modVec_rt (k : Nat) : (s.modVec e g).rt k = s.rt k := (rfl)
@[simp] theorem State.modVec_q (k : Nat) : (s.modVec e g).q k = s.q k := (rfl)
@[simp] theorem State.modVec_job (k : Nat) : (s.modVec e g).job k = s.job k := (rfl)
@[simp] theorem State.modVec_ctx (k : Nat) : (s.modVec e g).ctx k = s.ctx k := (rfl)
@[simp] theorem State.modVec_cam (k : Nat) : (s.modVec e g).cam k = s.cam k := (rfl)
@[simp] theorem State.modVec_disp (k : Nat) : (s.modVec e g).disp k = s.disp k := (rfl)
@[simp] theorem State.modVec_canc (k : Nat) : (s.modVec e g).canc k = s.canc k := (rfl)
@[simp] theorem State.modVec_tun (k : Nat) : (s.modVec e g).tun k = s.tun k := (rfl)
@[simp] theorem State.modVec_wport (k : Nat) : (s.modVec e g).wport k = s.wport k := (rfl)
@[simp] theorem State.modVec_fwp (k : Nat) : (s.modVec e g).fwp k = s.fwp k := (rfl)
@[simp] theorem State.modVec_units_arrays : (s.modVec e g).units.arrays = s.units.arrays := (rfl)
@[simp] theorem State.modVec_units_pairs : (s.modVec e g).units.pairs = s.units.pairs := (rfl)
@[simp] theorem State.modVec_units_flasks : (s.modVec e g).units.flasks = s.units.flasks := (rfl)
@[simp] theorem State.modVec_units_rts : (s.modVec e g).units.rts = s.units.rts := (rfl)
@[simp] theorem State.modVec_units_pour : (s.modVec e g).units.pour = s.units.pour := (rfl)
@[simp] theorem State.modVec_units_rtUsed : (s.modVec e g).units.rtUsed = s.units.rtUsed := (rfl)
@[simp] theorem State.modVec_units_saved : (s.modVec e g).units.saved = s.units.saved := (rfl)
@[simp] theorem State.modVec_units_spares : (s.modVec e g).units.spares = s.units.spares := (rfl)
@[simp] theorem State.modVec_units_runnerDue : (s.modVec e g).units.runnerDue = s.units.runnerDue := (rfl)
@[simp] theorem State.modVec_units_runnerOut : (s.modVec e g).units.runnerOut = s.units.runnerOut := (rfl)
@[simp] theorem State.modVec_units_tbVerifying : (s.modVec e g).units.tbVerifying = s.units.tbVerifying := (rfl)
@[simp] theorem State.modVec_units_tbStopped : (s.modVec e g).units.tbStopped = s.units.tbStopped := (rfl)
@[simp] theorem State.modVec_units_tbFailed : (s.modVec e g).units.tbFailed = s.units.tbFailed := (rfl)
end

section
variable (s : State) (c : Nat) (g : RtSt → RtSt)
@[simp] theorem State.modRt_pending : (s.modRt c g).pending = s.pending := (rfl)
@[simp] theorem State.modRt_regs : (s.modRt c g).regs = s.regs := (rfl)
@[simp] theorem State.modRt_outbox : (s.modRt c g).outbox = s.outbox := (rfl)
@[simp] theorem State.modRt_clock : (s.modRt c g).clock = s.clock := (rfl)
@[simp] theorem State.modRt_mem : (s.modRt c g).mem = s.mem := (rfl)
@[simp] theorem State.modRt_work : (s.modRt c g).work = s.work := (rfl)
@[simp] theorem State.modRt_dtu : (s.modRt c g).dtu = s.dtu := (rfl)
@[simp] theorem State.modRt_pix : (s.modRt c g).pix = s.pix := (rfl)
@[simp] theorem State.modRt_net : (s.modRt c g).net = s.net := (rfl)
@[simp] theorem State.modRt_sys : (s.modRt c g).sys = s.sys := (rfl)
@[simp] theorem State.modRt_freeCtr : (s.modRt c g).freeCtr = s.freeCtr := (rfl)
@[simp] theorem State.modRt_r (q : Reg) (k : Nat) : (s.modRt c g).r q k = s.r q k := (rfl)
@[simp] theorem State.modRt_f (y : Fld) (k : Nat) : (s.modRt c g).f y k = s.f y k := (rfl)
@[simp] theorem State.modRt_fb (y : Fld) (k : Nat) : (s.modRt c g).fb y k = s.fb y k := (rfl)
@[simp] theorem State.modRt_byte (b : Nat) : (s.modRt c g).byte b = s.byte b := (rfl)
@[simp] theorem State.modRt_now : (s.modRt c g).now = s.now := (rfl)
@[simp] theorem State.modRt_arr (k : Nat) : (s.modRt c g).arr k = s.arr k := (rfl)
@[simp] theorem State.modRt_flask (k : Nat) : (s.modRt c g).flask k = s.flask k := (rfl)
@[simp] theorem State.modRt_vec (k : Nat) : (s.modRt c g).vec k = s.vec k := (rfl)
@[simp] theorem State.modRt_q (k : Nat) : (s.modRt c g).q k = s.q k := (rfl)
@[simp] theorem State.modRt_job (k : Nat) : (s.modRt c g).job k = s.job k := (rfl)
@[simp] theorem State.modRt_ctx (k : Nat) : (s.modRt c g).ctx k = s.ctx k := (rfl)
@[simp] theorem State.modRt_cam (k : Nat) : (s.modRt c g).cam k = s.cam k := (rfl)
@[simp] theorem State.modRt_disp (k : Nat) : (s.modRt c g).disp k = s.disp k := (rfl)
@[simp] theorem State.modRt_canc (k : Nat) : (s.modRt c g).canc k = s.canc k := (rfl)
@[simp] theorem State.modRt_tun (k : Nat) : (s.modRt c g).tun k = s.tun k := (rfl)
@[simp] theorem State.modRt_wport (k : Nat) : (s.modRt c g).wport k = s.wport k := (rfl)
@[simp] theorem State.modRt_fwp (k : Nat) : (s.modRt c g).fwp k = s.fwp k := (rfl)
@[simp] theorem State.modRt_units_arrays : (s.modRt c g).units.arrays = s.units.arrays := (rfl)
@[simp] theorem State.modRt_units_pairs : (s.modRt c g).units.pairs = s.units.pairs := (rfl)
@[simp] theorem State.modRt_units_flasks : (s.modRt c g).units.flasks = s.units.flasks := (rfl)
@[simp] theorem State.modRt_units_pour : (s.modRt c g).units.pour = s.units.pour := (rfl)
@[simp] theorem State.modRt_units_rtUsed : (s.modRt c g).units.rtUsed = s.units.rtUsed := (rfl)
@[simp] theorem State.modRt_units_vecs : (s.modRt c g).units.vecs = s.units.vecs := (rfl)
@[simp] theorem State.modRt_units_saved : (s.modRt c g).units.saved = s.units.saved := (rfl)
@[simp] theorem State.modRt_units_spares : (s.modRt c g).units.spares = s.units.spares := (rfl)
@[simp] theorem State.modRt_units_runnerDue : (s.modRt c g).units.runnerDue = s.units.runnerDue := (rfl)
@[simp] theorem State.modRt_units_runnerOut : (s.modRt c g).units.runnerOut = s.units.runnerOut := (rfl)
@[simp] theorem State.modRt_units_tbVerifying : (s.modRt c g).units.tbVerifying = s.units.tbVerifying := (rfl)
@[simp] theorem State.modRt_units_tbStopped : (s.modRt c g).units.tbStopped = s.units.tbStopped := (rfl)
@[simp] theorem State.modRt_units_tbFailed : (s.modRt c g).units.tbFailed = s.units.tbFailed := (rfl)
end

section
variable (s : State) (g : PourSt → PourSt)
@[simp] theorem State.modPour_pending : (s.modPour g).pending = s.pending := (rfl)
@[simp] theorem State.modPour_regs : (s.modPour g).regs = s.regs := (rfl)
@[simp] theorem State.modPour_outbox : (s.modPour g).outbox = s.outbox := (rfl)
@[simp] theorem State.modPour_clock : (s.modPour g).clock = s.clock := (rfl)
@[simp] theorem State.modPour_mem : (s.modPour g).mem = s.mem := (rfl)
@[simp] theorem State.modPour_work : (s.modPour g).work = s.work := (rfl)
@[simp] theorem State.modPour_dtu : (s.modPour g).dtu = s.dtu := (rfl)
@[simp] theorem State.modPour_pix : (s.modPour g).pix = s.pix := (rfl)
@[simp] theorem State.modPour_net : (s.modPour g).net = s.net := (rfl)
@[simp] theorem State.modPour_sys : (s.modPour g).sys = s.sys := (rfl)
@[simp] theorem State.modPour_freeCtr : (s.modPour g).freeCtr = s.freeCtr := (rfl)
@[simp] theorem State.modPour_r (q : Reg) (k : Nat) : (s.modPour g).r q k = s.r q k := (rfl)
@[simp] theorem State.modPour_f (y : Fld) (k : Nat) : (s.modPour g).f y k = s.f y k := (rfl)
@[simp] theorem State.modPour_fb (y : Fld) (k : Nat) : (s.modPour g).fb y k = s.fb y k := (rfl)
@[simp] theorem State.modPour_byte (b : Nat) : (s.modPour g).byte b = s.byte b := (rfl)
@[simp] theorem State.modPour_now : (s.modPour g).now = s.now := (rfl)
@[simp] theorem State.modPour_arr (k : Nat) : (s.modPour g).arr k = s.arr k := (rfl)
@[simp] theorem State.modPour_flask (k : Nat) : (s.modPour g).flask k = s.flask k := (rfl)
@[simp] theorem State.modPour_vec (k : Nat) : (s.modPour g).vec k = s.vec k := (rfl)
@[simp] theorem State.modPour_rt (k : Nat) : (s.modPour g).rt k = s.rt k := (rfl)
@[simp] theorem State.modPour_q (k : Nat) : (s.modPour g).q k = s.q k := (rfl)
@[simp] theorem State.modPour_job (k : Nat) : (s.modPour g).job k = s.job k := (rfl)
@[simp] theorem State.modPour_ctx (k : Nat) : (s.modPour g).ctx k = s.ctx k := (rfl)
@[simp] theorem State.modPour_cam (k : Nat) : (s.modPour g).cam k = s.cam k := (rfl)
@[simp] theorem State.modPour_disp (k : Nat) : (s.modPour g).disp k = s.disp k := (rfl)
@[simp] theorem State.modPour_canc (k : Nat) : (s.modPour g).canc k = s.canc k := (rfl)
@[simp] theorem State.modPour_tun (k : Nat) : (s.modPour g).tun k = s.tun k := (rfl)
@[simp] theorem State.modPour_wport (k : Nat) : (s.modPour g).wport k = s.wport k := (rfl)
@[simp] theorem State.modPour_fwp (k : Nat) : (s.modPour g).fwp k = s.fwp k := (rfl)
@[simp] theorem State.modPour_units_arrays : (s.modPour g).units.arrays = s.units.arrays := (rfl)
@[simp] theorem State.modPour_units_pairs : (s.modPour g).units.pairs = s.units.pairs := (rfl)
@[simp] theorem State.modPour_units_flasks : (s.modPour g).units.flasks = s.units.flasks := (rfl)
@[simp] theorem State.modPour_units_rts : (s.modPour g).units.rts = s.units.rts := (rfl)
@[simp] theorem State.modPour_units_rtUsed : (s.modPour g).units.rtUsed = s.units.rtUsed := (rfl)
@[simp] theorem State.modPour_units_vecs : (s.modPour g).units.vecs = s.units.vecs := (rfl)
@[simp] theorem State.modPour_units_saved : (s.modPour g).units.saved = s.units.saved := (rfl)
@[simp] theorem State.modPour_units_spares : (s.modPour g).units.spares = s.units.spares := (rfl)
@[simp] theorem State.modPour_units_runnerDue : (s.modPour g).units.runnerDue = s.units.runnerDue := (rfl)
@[simp] theorem State.modPour_units_runnerOut : (s.modPour g).units.runnerOut = s.units.runnerOut := (rfl)
@[simp] theorem State.modPour_units_tbVerifying : (s.modPour g).units.tbVerifying = s.units.tbVerifying := (rfl)
@[simp] theorem State.modPour_units_tbStopped : (s.modPour g).units.tbStopped = s.units.tbStopped := (rfl)
@[simp] theorem State.modPour_units_tbFailed : (s.modPour g).units.tbFailed = s.units.tbFailed := (rfl)
end

section
variable (s : State) (n : Nat) (g : QueueSt → QueueSt)
@[simp] theorem State.modQ_pending : (s.modQ n g).pending = s.pending := (rfl)
@[simp] theorem State.modQ_regs : (s.modQ n g).regs = s.regs := (rfl)
@[simp] theorem State.modQ_outbox : (s.modQ n g).outbox = s.outbox := (rfl)
@[simp] theorem State.modQ_clock : (s.modQ n g).clock = s.clock := (rfl)
@[simp] theorem State.modQ_mem : (s.modQ n g).mem = s.mem := (rfl)
@[simp] theorem State.modQ_units : (s.modQ n g).units = s.units := (rfl)
@[simp] theorem State.modQ_dtu : (s.modQ n g).dtu = s.dtu := (rfl)
@[simp] theorem State.modQ_pix : (s.modQ n g).pix = s.pix := (rfl)
@[simp] theorem State.modQ_net : (s.modQ n g).net = s.net := (rfl)
@[simp] theorem State.modQ_sys : (s.modQ n g).sys = s.sys := (rfl)
@[simp] theorem State.modQ_freeCtr : (s.modQ n g).freeCtr = s.freeCtr := (rfl)
@[simp] theorem State.modQ_r (q : Reg) (k : Nat) : (s.modQ n g).r q k = s.r q k := (rfl)
@[simp] theorem State.modQ_f (y : Fld) (k : Nat) : (s.modQ n g).f y k = s.f y k := (rfl)
@[simp] theorem State.modQ_fb (y : Fld) (k : Nat) : (s.modQ n g).fb y k = s.fb y k := (rfl)
@[simp] theorem State.modQ_byte (b : Nat) : (s.modQ n g).byte b = s.byte b := (rfl)
@[simp] theorem State.modQ_now : (s.modQ n g).now = s.now := (rfl)
@[simp] theorem State.modQ_arr (k : Nat) : (s.modQ n g).arr k = s.arr k := (rfl)
@[simp] theorem State.modQ_flask (k : Nat) : (s.modQ n g).flask k = s.flask k := (rfl)
@[simp] theorem State.modQ_vec (k : Nat) : (s.modQ n g).vec k = s.vec k := (rfl)
@[simp] theorem State.modQ_rt (k : Nat) : (s.modQ n g).rt k = s.rt k := (rfl)
@[simp] theorem State.modQ_job (k : Nat) : (s.modQ n g).job k = s.job k := (rfl)
@[simp] theorem State.modQ_ctx (k : Nat) : (s.modQ n g).ctx k = s.ctx k := (rfl)
@[simp] theorem State.modQ_cam (k : Nat) : (s.modQ n g).cam k = s.cam k := (rfl)
@[simp] theorem State.modQ_disp (k : Nat) : (s.modQ n g).disp k = s.disp k := (rfl)
@[simp] theorem State.modQ_canc (k : Nat) : (s.modQ n g).canc k = s.canc k := (rfl)
@[simp] theorem State.modQ_tun (k : Nat) : (s.modQ n g).tun k = s.tun k := (rfl)
@[simp] theorem State.modQ_wport (k : Nat) : (s.modQ n g).wport k = s.wport k := (rfl)
@[simp] theorem State.modQ_fwp (k : Nat) : (s.modQ n g).fwp k = s.fwp k := (rfl)
@[simp] theorem State.modQ_work_sprue : (s.modQ n g).work.sprue = s.work.sprue := (rfl)
@[simp] theorem State.modQ_work_jobs : (s.modQ n g).work.jobs = s.work.jobs := (rfl)
@[simp] theorem State.modQ_work_nextJob : (s.modQ n g).work.nextJob = s.work.nextJob := (rfl)
@[simp] theorem State.modQ_work_ctxs : (s.modQ n g).work.ctxs = s.work.ctxs := (rfl)
@[simp] theorem State.modQ_work_refc : (s.modQ n g).work.refc = s.work.refc := (rfl)
@[simp] theorem State.modQ_work_runs : (s.modQ n g).work.runs = s.work.runs := (rfl)
@[simp] theorem State.modQ_work_sweeping : (s.modQ n g).work.sweeping = s.work.sweeping := (rfl)
@[simp] theorem State.modQ_work_kvNonFinite : (s.modQ n g).work.kvNonFinite = s.work.kvNonFinite := (rfl)
@[simp] theorem State.modQ_work_kvLimited : (s.modQ n g).work.kvLimited = s.work.kvLimited := (rfl)
end

section
variable (s : State) (j : Nat) (g : Job → Job)
@[simp] theorem State.modJob_pending : (s.modJob j g).pending = s.pending := (rfl)
@[simp] theorem State.modJob_regs : (s.modJob j g).regs = s.regs := (rfl)
@[simp] theorem State.modJob_outbox : (s.modJob j g).outbox = s.outbox := (rfl)
@[simp] theorem State.modJob_clock : (s.modJob j g).clock = s.clock := (rfl)
@[simp] theorem State.modJob_mem : (s.modJob j g).mem = s.mem := (rfl)
@[simp] theorem State.modJob_units : (s.modJob j g).units = s.units := (rfl)
@[simp] theorem State.modJob_dtu : (s.modJob j g).dtu = s.dtu := (rfl)
@[simp] theorem State.modJob_pix : (s.modJob j g).pix = s.pix := (rfl)
@[simp] theorem State.modJob_net : (s.modJob j g).net = s.net := (rfl)
@[simp] theorem State.modJob_sys : (s.modJob j g).sys = s.sys := (rfl)
@[simp] theorem State.modJob_freeCtr : (s.modJob j g).freeCtr = s.freeCtr := (rfl)
@[simp] theorem State.modJob_r (q : Reg) (k : Nat) : (s.modJob j g).r q k = s.r q k := (rfl)
@[simp] theorem State.modJob_f (y : Fld) (k : Nat) : (s.modJob j g).f y k = s.f y k := (rfl)
@[simp] theorem State.modJob_fb (y : Fld) (k : Nat) : (s.modJob j g).fb y k = s.fb y k := (rfl)
@[simp] theorem State.modJob_byte (b : Nat) : (s.modJob j g).byte b = s.byte b := (rfl)
@[simp] theorem State.modJob_now : (s.modJob j g).now = s.now := (rfl)
@[simp] theorem State.modJob_arr (k : Nat) : (s.modJob j g).arr k = s.arr k := (rfl)
@[simp] theorem State.modJob_flask (k : Nat) : (s.modJob j g).flask k = s.flask k := (rfl)
@[simp] theorem State.modJob_vec (k : Nat) : (s.modJob j g).vec k = s.vec k := (rfl)
@[simp] theorem State.modJob_rt (k : Nat) : (s.modJob j g).rt k = s.rt k := (rfl)
@[simp] theorem State.modJob_q (k : Nat) : (s.modJob j g).q k = s.q k := (rfl)
@[simp] theorem State.modJob_ctx (k : Nat) : (s.modJob j g).ctx k = s.ctx k := (rfl)
@[simp] theorem State.modJob_cam (k : Nat) : (s.modJob j g).cam k = s.cam k := (rfl)
@[simp] theorem State.modJob_disp (k : Nat) : (s.modJob j g).disp k = s.disp k := (rfl)
@[simp] theorem State.modJob_canc (k : Nat) : (s.modJob j g).canc k = s.canc k := (rfl)
@[simp] theorem State.modJob_tun (k : Nat) : (s.modJob j g).tun k = s.tun k := (rfl)
@[simp] theorem State.modJob_wport (k : Nat) : (s.modJob j g).wport k = s.wport k := (rfl)
@[simp] theorem State.modJob_fwp (k : Nat) : (s.modJob j g).fwp k = s.fwp k := (rfl)
@[simp] theorem State.modJob_work_sprue : (s.modJob j g).work.sprue = s.work.sprue := (rfl)
@[simp] theorem State.modJob_work_queues : (s.modJob j g).work.queues = s.work.queues := (rfl)
@[simp] theorem State.modJob_work_nextJob : (s.modJob j g).work.nextJob = s.work.nextJob := (rfl)
@[simp] theorem State.modJob_work_ctxs : (s.modJob j g).work.ctxs = s.work.ctxs := (rfl)
@[simp] theorem State.modJob_work_refc : (s.modJob j g).work.refc = s.work.refc := (rfl)
@[simp] theorem State.modJob_work_runs : (s.modJob j g).work.runs = s.work.runs := (rfl)
@[simp] theorem State.modJob_work_sweeping : (s.modJob j g).work.sweeping = s.work.sweeping := (rfl)
@[simp] theorem State.modJob_work_kvNonFinite : (s.modJob j g).work.kvNonFinite = s.work.kvNonFinite := (rfl)
@[simp] theorem State.modJob_work_kvLimited : (s.modJob j g).work.kvLimited = s.work.kvLimited := (rfl)
end

section
variable (s : State) (p : Job → Bool) (g : Job → Job)
@[simp] theorem State.modJobs_pending : (s.modJobs p g).pending = s.pending := (rfl)
@[simp] theorem State.modJobs_regs : (s.modJobs p g).regs = s.regs := (rfl)
@[simp] theorem State.modJobs_outbox : (s.modJobs p g).outbox = s.outbox := (rfl)
@[simp] theorem State.modJobs_clock : (s.modJobs p g).clock = s.clock := (rfl)
@[simp] theorem State.modJobs_mem : (s.modJobs p g).mem = s.mem := (rfl)
@[simp] theorem State.modJobs_units : (s.modJobs p g).units = s.units := (rfl)
@[simp] theorem State.modJobs_dtu : (s.modJobs p g).dtu = s.dtu := (rfl)
@[simp] theorem State.modJobs_pix : (s.modJobs p g).pix = s.pix := (rfl)
@[simp] theorem State.modJobs_net : (s.modJobs p g).net = s.net := (rfl)
@[simp] theorem State.modJobs_sys : (s.modJobs p g).sys = s.sys := (rfl)
@[simp] theorem State.modJobs_freeCtr : (s.modJobs p g).freeCtr = s.freeCtr := (rfl)
@[simp] theorem State.modJobs_r (q : Reg) (k : Nat) : (s.modJobs p g).r q k = s.r q k := (rfl)
@[simp] theorem State.modJobs_f (y : Fld) (k : Nat) : (s.modJobs p g).f y k = s.f y k := (rfl)
@[simp] theorem State.modJobs_fb (y : Fld) (k : Nat) : (s.modJobs p g).fb y k = s.fb y k := (rfl)
@[simp] theorem State.modJobs_byte (b : Nat) : (s.modJobs p g).byte b = s.byte b := (rfl)
@[simp] theorem State.modJobs_now : (s.modJobs p g).now = s.now := (rfl)
@[simp] theorem State.modJobs_arr (k : Nat) : (s.modJobs p g).arr k = s.arr k := (rfl)
@[simp] theorem State.modJobs_flask (k : Nat) : (s.modJobs p g).flask k = s.flask k := (rfl)
@[simp] theorem State.modJobs_vec (k : Nat) : (s.modJobs p g).vec k = s.vec k := (rfl)
@[simp] theorem State.modJobs_rt (k : Nat) : (s.modJobs p g).rt k = s.rt k := (rfl)
@[simp] theorem State.modJobs_q (k : Nat) : (s.modJobs p g).q k = s.q k := (rfl)
@[simp] theorem State.modJobs_ctx (k : Nat) : (s.modJobs p g).ctx k = s.ctx k := (rfl)
@[simp] theorem State.modJobs_cam (k : Nat) : (s.modJobs p g).cam k = s.cam k := (rfl)
@[simp] theorem State.modJobs_disp (k : Nat) : (s.modJobs p g).disp k = s.disp k := (rfl)
@[simp] theorem State.modJobs_canc (k : Nat) : (s.modJobs p g).canc k = s.canc k := (rfl)
@[simp] theorem State.modJobs_tun (k : Nat) : (s.modJobs p g).tun k = s.tun k := (rfl)
@[simp] theorem State.modJobs_wport (k : Nat) : (s.modJobs p g).wport k = s.wport k := (rfl)
@[simp] theorem State.modJobs_fwp (k : Nat) : (s.modJobs p g).fwp k = s.fwp k := (rfl)
@[simp] theorem State.modJobs_work_sprue : (s.modJobs p g).work.sprue = s.work.sprue := (rfl)
@[simp] theorem State.modJobs_work_queues : (s.modJobs p g).work.queues = s.work.queues := (rfl)
@[simp] theorem State.modJobs_work_nextJob : (s.modJobs p g).work.nextJob = s.work.nextJob := (rfl)
@[simp] theorem State.modJobs_work_ctxs : (s.modJobs p g).work.ctxs = s.work.ctxs := (rfl)
@[simp] theorem State.modJobs_work_refc : (s.modJobs p g).work.refc = s.work.refc := (rfl)
@[simp] theorem State.modJobs_work_runs : (s.modJobs p g).work.runs = s.work.runs := (rfl)
@[simp] theorem State.modJobs_work_sweeping : (s.modJobs p g).work.sweeping = s.work.sweeping := (rfl)
@[simp] theorem State.modJobs_work_kvNonFinite : (s.modJobs p g).work.kvNonFinite = s.work.kvNonFinite := (rfl)
@[simp] theorem State.modJobs_work_kvLimited : (s.modJobs p g).work.kvLimited = s.work.kvLimited := (rfl)
end

section
variable (s : State) (c : Nat) (x : Ctx)
@[simp] theorem State.setCtx_pending : (s.setCtx c x).pending = s.pending := (rfl)
@[simp] theorem State.setCtx_regs : (s.setCtx c x).regs = s.regs := (rfl)
@[simp] theorem State.setCtx_outbox : (s.setCtx c x).outbox = s.outbox := (rfl)
@[simp] theorem State.setCtx_clock : (s.setCtx c x).clock = s.clock := (rfl)
@[simp] theorem State.setCtx_mem : (s.setCtx c x).mem = s.mem := (rfl)
@[simp] theorem State.setCtx_units : (s.setCtx c x).units = s.units := (rfl)
@[simp] theorem State.setCtx_dtu : (s.setCtx c x).dtu = s.dtu := (rfl)
@[simp] theorem State.setCtx_pix : (s.setCtx c x).pix = s.pix := (rfl)
@[simp] theorem State.setCtx_net : (s.setCtx c x).net = s.net := (rfl)
@[simp] theorem State.setCtx_sys : (s.setCtx c x).sys = s.sys := (rfl)
@[simp] theorem State.setCtx_freeCtr : (s.setCtx c x).freeCtr = s.freeCtr := (rfl)
@[simp] theorem State.setCtx_r (q : Reg) (k : Nat) : (s.setCtx c x).r q k = s.r q k := (rfl)
@[simp] theorem State.setCtx_f (y : Fld) (k : Nat) : (s.setCtx c x).f y k = s.f y k := (rfl)
@[simp] theorem State.setCtx_fb (y : Fld) (k : Nat) : (s.setCtx c x).fb y k = s.fb y k := (rfl)
@[simp] theorem State.setCtx_byte (b : Nat) : (s.setCtx c x).byte b = s.byte b := (rfl)
@[simp] theorem State.setCtx_now : (s.setCtx c x).now = s.now := (rfl)
@[simp] theorem State.setCtx_arr (k : Nat) : (s.setCtx c x).arr k = s.arr k := (rfl)
@[simp] theorem State.setCtx_flask (k : Nat) : (s.setCtx c x).flask k = s.flask k := (rfl)
@[simp] theorem State.setCtx_vec (k : Nat) : (s.setCtx c x).vec k = s.vec k := (rfl)
@[simp] theorem State.setCtx_rt (k : Nat) : (s.setCtx c x).rt k = s.rt k := (rfl)
@[simp] theorem State.setCtx_q (k : Nat) : (s.setCtx c x).q k = s.q k := (rfl)
@[simp] theorem State.setCtx_job (k : Nat) : (s.setCtx c x).job k = s.job k := (rfl)
@[simp] theorem State.setCtx_cam (k : Nat) : (s.setCtx c x).cam k = s.cam k := (rfl)
@[simp] theorem State.setCtx_disp (k : Nat) : (s.setCtx c x).disp k = s.disp k := (rfl)
@[simp] theorem State.setCtx_canc (k : Nat) : (s.setCtx c x).canc k = s.canc k := (rfl)
@[simp] theorem State.setCtx_tun (k : Nat) : (s.setCtx c x).tun k = s.tun k := (rfl)
@[simp] theorem State.setCtx_wport (k : Nat) : (s.setCtx c x).wport k = s.wport k := (rfl)
@[simp] theorem State.setCtx_fwp (k : Nat) : (s.setCtx c x).fwp k = s.fwp k := (rfl)
@[simp] theorem State.setCtx_work_sprue : (s.setCtx c x).work.sprue = s.work.sprue := (rfl)
@[simp] theorem State.setCtx_work_queues : (s.setCtx c x).work.queues = s.work.queues := (rfl)
@[simp] theorem State.setCtx_work_jobs : (s.setCtx c x).work.jobs = s.work.jobs := (rfl)
@[simp] theorem State.setCtx_work_nextJob : (s.setCtx c x).work.nextJob = s.work.nextJob := (rfl)
@[simp] theorem State.setCtx_work_refc : (s.setCtx c x).work.refc = s.work.refc := (rfl)
@[simp] theorem State.setCtx_work_runs : (s.setCtx c x).work.runs = s.work.runs := (rfl)
@[simp] theorem State.setCtx_work_sweeping : (s.setCtx c x).work.sweeping = s.work.sweeping := (rfl)
@[simp] theorem State.setCtx_work_kvNonFinite : (s.setCtx c x).work.kvNonFinite = s.work.kvNonFinite := (rfl)
@[simp] theorem State.setCtx_work_kvLimited : (s.setCtx c x).work.kvLimited = s.work.kvLimited := (rfl)
end

section
variable (s : State) (c : Nat) (g : CamSt → CamSt)
@[simp] theorem State.modCam_pending : (s.modCam c g).pending = s.pending := (rfl)
@[simp] theorem State.modCam_regs : (s.modCam c g).regs = s.regs := (rfl)
@[simp] theorem State.modCam_outbox : (s.modCam c g).outbox = s.outbox := (rfl)
@[simp] theorem State.modCam_clock : (s.modCam c g).clock = s.clock := (rfl)
@[simp] theorem State.modCam_mem : (s.modCam c g).mem = s.mem := (rfl)
@[simp] theorem State.modCam_work : (s.modCam c g).work = s.work := (rfl)
@[simp] theorem State.modCam_units : (s.modCam c g).units = s.units := (rfl)
@[simp] theorem State.modCam_dtu : (s.modCam c g).dtu = s.dtu := (rfl)
@[simp] theorem State.modCam_net : (s.modCam c g).net = s.net := (rfl)
@[simp] theorem State.modCam_sys : (s.modCam c g).sys = s.sys := (rfl)
@[simp] theorem State.modCam_freeCtr : (s.modCam c g).freeCtr = s.freeCtr := (rfl)
@[simp] theorem State.modCam_r (q : Reg) (k : Nat) : (s.modCam c g).r q k = s.r q k := (rfl)
@[simp] theorem State.modCam_f (y : Fld) (k : Nat) : (s.modCam c g).f y k = s.f y k := (rfl)
@[simp] theorem State.modCam_fb (y : Fld) (k : Nat) : (s.modCam c g).fb y k = s.fb y k := (rfl)
@[simp] theorem State.modCam_byte (b : Nat) : (s.modCam c g).byte b = s.byte b := (rfl)
@[simp] theorem State.modCam_now : (s.modCam c g).now = s.now := (rfl)
@[simp] theorem State.modCam_arr (k : Nat) : (s.modCam c g).arr k = s.arr k := (rfl)
@[simp] theorem State.modCam_flask (k : Nat) : (s.modCam c g).flask k = s.flask k := (rfl)
@[simp] theorem State.modCam_vec (k : Nat) : (s.modCam c g).vec k = s.vec k := (rfl)
@[simp] theorem State.modCam_rt (k : Nat) : (s.modCam c g).rt k = s.rt k := (rfl)
@[simp] theorem State.modCam_q (k : Nat) : (s.modCam c g).q k = s.q k := (rfl)
@[simp] theorem State.modCam_job (k : Nat) : (s.modCam c g).job k = s.job k := (rfl)
@[simp] theorem State.modCam_ctx (k : Nat) : (s.modCam c g).ctx k = s.ctx k := (rfl)
@[simp] theorem State.modCam_disp (k : Nat) : (s.modCam c g).disp k = s.disp k := (rfl)
@[simp] theorem State.modCam_canc (k : Nat) : (s.modCam c g).canc k = s.canc k := (rfl)
@[simp] theorem State.modCam_tun (k : Nat) : (s.modCam c g).tun k = s.tun k := (rfl)
@[simp] theorem State.modCam_wport (k : Nat) : (s.modCam c g).wport k = s.wport k := (rfl)
@[simp] theorem State.modCam_fwp (k : Nat) : (s.modCam c g).fwp k = s.fwp k := (rfl)
@[simp] theorem State.modCam_pix_disps : (s.modCam c g).pix.disps = s.pix.disps := (rfl)
@[simp] theorem State.modCam_pix_planCount : (s.modCam c g).pix.planCount = s.pix.planCount := (rfl)
@[simp] theorem State.modCam_pix_nodes : (s.modCam c g).pix.nodes = s.pix.nodes := (rfl)
@[simp] theorem State.modCam_pix_runKept : (s.modCam c g).pix.runKept = s.pix.runKept := (rfl)
end

section
variable (s : State) (o : Nat) (g : DispSt → DispSt)
@[simp] theorem State.modDisp_pending : (s.modDisp o g).pending = s.pending := (rfl)
@[simp] theorem State.modDisp_regs : (s.modDisp o g).regs = s.regs := (rfl)
@[simp] theorem State.modDisp_outbox : (s.modDisp o g).outbox = s.outbox := (rfl)
@[simp] theorem State.modDisp_clock : (s.modDisp o g).clock = s.clock := (rfl)
@[simp] theorem State.modDisp_mem : (s.modDisp o g).mem = s.mem := (rfl)
@[simp] theorem State.modDisp_work : (s.modDisp o g).work = s.work := (rfl)
@[simp] theorem State.modDisp_units : (s.modDisp o g).units = s.units := (rfl)
@[simp] theorem State.modDisp_dtu : (s.modDisp o g).dtu = s.dtu := (rfl)
@[simp] theorem State.modDisp_net : (s.modDisp o g).net = s.net := (rfl)
@[simp] theorem State.modDisp_sys : (s.modDisp o g).sys = s.sys := (rfl)
@[simp] theorem State.modDisp_freeCtr : (s.modDisp o g).freeCtr = s.freeCtr := (rfl)
@[simp] theorem State.modDisp_r (q : Reg) (k : Nat) : (s.modDisp o g).r q k = s.r q k := (rfl)
@[simp] theorem State.modDisp_f (y : Fld) (k : Nat) : (s.modDisp o g).f y k = s.f y k := (rfl)
@[simp] theorem State.modDisp_fb (y : Fld) (k : Nat) : (s.modDisp o g).fb y k = s.fb y k := (rfl)
@[simp] theorem State.modDisp_byte (b : Nat) : (s.modDisp o g).byte b = s.byte b := (rfl)
@[simp] theorem State.modDisp_now : (s.modDisp o g).now = s.now := (rfl)
@[simp] theorem State.modDisp_arr (k : Nat) : (s.modDisp o g).arr k = s.arr k := (rfl)
@[simp] theorem State.modDisp_flask (k : Nat) : (s.modDisp o g).flask k = s.flask k := (rfl)
@[simp] theorem State.modDisp_vec (k : Nat) : (s.modDisp o g).vec k = s.vec k := (rfl)
@[simp] theorem State.modDisp_rt (k : Nat) : (s.modDisp o g).rt k = s.rt k := (rfl)
@[simp] theorem State.modDisp_q (k : Nat) : (s.modDisp o g).q k = s.q k := (rfl)
@[simp] theorem State.modDisp_job (k : Nat) : (s.modDisp o g).job k = s.job k := (rfl)
@[simp] theorem State.modDisp_ctx (k : Nat) : (s.modDisp o g).ctx k = s.ctx k := (rfl)
@[simp] theorem State.modDisp_cam (k : Nat) : (s.modDisp o g).cam k = s.cam k := (rfl)
@[simp] theorem State.modDisp_canc (k : Nat) : (s.modDisp o g).canc k = s.canc k := (rfl)
@[simp] theorem State.modDisp_tun (k : Nat) : (s.modDisp o g).tun k = s.tun k := (rfl)
@[simp] theorem State.modDisp_wport (k : Nat) : (s.modDisp o g).wport k = s.wport k := (rfl)
@[simp] theorem State.modDisp_fwp (k : Nat) : (s.modDisp o g).fwp k = s.fwp k := (rfl)
@[simp] theorem State.modDisp_pix_cams : (s.modDisp o g).pix.cams = s.pix.cams := (rfl)
@[simp] theorem State.modDisp_pix_planCount : (s.modDisp o g).pix.planCount = s.pix.planCount := (rfl)
@[simp] theorem State.modDisp_pix_nodes : (s.modDisp o g).pix.nodes = s.pix.nodes := (rfl)
@[simp] theorem State.modDisp_pix_runKept : (s.modDisp o g).pix.runKept = s.pix.runKept := (rfl)
end

section
variable (s : State) (c : Nat) (g : CanSt → CanSt)
@[simp] theorem State.modCan_pending : (s.modCan c g).pending = s.pending := (rfl)
@[simp] theorem State.modCan_regs : (s.modCan c g).regs = s.regs := (rfl)
@[simp] theorem State.modCan_outbox : (s.modCan c g).outbox = s.outbox := (rfl)
@[simp] theorem State.modCan_clock : (s.modCan c g).clock = s.clock := (rfl)
@[simp] theorem State.modCan_mem : (s.modCan c g).mem = s.mem := (rfl)
@[simp] theorem State.modCan_work : (s.modCan c g).work = s.work := (rfl)
@[simp] theorem State.modCan_units : (s.modCan c g).units = s.units := (rfl)
@[simp] theorem State.modCan_dtu : (s.modCan c g).dtu = s.dtu := (rfl)
@[simp] theorem State.modCan_pix : (s.modCan c g).pix = s.pix := (rfl)
@[simp] theorem State.modCan_sys : (s.modCan c g).sys = s.sys := (rfl)
@[simp] theorem State.modCan_freeCtr : (s.modCan c g).freeCtr = s.freeCtr := (rfl)
@[simp] theorem State.modCan_r (q : Reg) (k : Nat) : (s.modCan c g).r q k = s.r q k := (rfl)
@[simp] theorem State.modCan_f (y : Fld) (k : Nat) : (s.modCan c g).f y k = s.f y k := (rfl)
@[simp] theorem State.modCan_fb (y : Fld) (k : Nat) : (s.modCan c g).fb y k = s.fb y k := (rfl)
@[simp] theorem State.modCan_byte (b : Nat) : (s.modCan c g).byte b = s.byte b := (rfl)
@[simp] theorem State.modCan_now : (s.modCan c g).now = s.now := (rfl)
@[simp] theorem State.modCan_arr (k : Nat) : (s.modCan c g).arr k = s.arr k := (rfl)
@[simp] theorem State.modCan_flask (k : Nat) : (s.modCan c g).flask k = s.flask k := (rfl)
@[simp] theorem State.modCan_vec (k : Nat) : (s.modCan c g).vec k = s.vec k := (rfl)
@[simp] theorem State.modCan_rt (k : Nat) : (s.modCan c g).rt k = s.rt k := (rfl)
@[simp] theorem State.modCan_q (k : Nat) : (s.modCan c g).q k = s.q k := (rfl)
@[simp] theorem State.modCan_job (k : Nat) : (s.modCan c g).job k = s.job k := (rfl)
@[simp] theorem State.modCan_ctx (k : Nat) : (s.modCan c g).ctx k = s.ctx k := (rfl)
@[simp] theorem State.modCan_cam (k : Nat) : (s.modCan c g).cam k = s.cam k := (rfl)
@[simp] theorem State.modCan_disp (k : Nat) : (s.modCan c g).disp k = s.disp k := (rfl)
@[simp] theorem State.modCan_tun (k : Nat) : (s.modCan c g).tun k = s.tun k := (rfl)
@[simp] theorem State.modCan_wport (k : Nat) : (s.modCan c g).wport k = s.wport k := (rfl)
@[simp] theorem State.modCan_fwp (k : Nat) : (s.modCan c g).fwp k = s.fwp k := (rfl)
@[simp] theorem State.modCan_net_gateEngs : (s.modCan c g).net.gateEngs = s.net.gateEngs := (rfl)
@[simp] theorem State.modCan_net_ethStaged : (s.modCan c g).net.ethStaged = s.net.ethStaged := (rfl)
@[simp] theorem State.modCan_net_ethItems : (s.modCan c g).net.ethItems = s.net.ethItems := (rfl)
@[simp] theorem State.modCan_net_macPns : (s.modCan c g).net.macPns = s.net.macPns := (rfl)
@[simp] theorem State.modCan_net_macSak : (s.modCan c g).net.macSak = s.net.macSak := (rfl)
@[simp] theorem State.modCan_net_shapers : (s.modCan c g).net.shapers = s.net.shapers := (rfl)
@[simp] theorem State.modCan_net_meters : (s.modCan c g).net.meters = s.net.meters := (rfl)
@[simp] theorem State.modCan_net_cbs : (s.modCan c g).net.cbs = s.net.cbs := (rfl)
@[simp] theorem State.modCan_net_egress : (s.modCan c g).net.egress = s.net.egress := (rfl)
@[simp] theorem State.modCan_net_parts : (s.modCan c g).net.parts = s.net.parts := (rfl)
@[simp] theorem State.modCan_net_tunnels : (s.modCan c g).net.tunnels = s.net.tunnels := (rfl)
@[simp] theorem State.modCan_net_bridge : (s.modCan c g).net.bridge = s.net.bridge := (rfl)
@[simp] theorem State.modCan_net_nextTag : (s.modCan c g).net.nextTag = s.net.nextTag := (rfl)
@[simp] theorem State.modCan_net_wsk : (s.modCan c g).net.wsk = s.net.wsk := (rfl)
@[simp] theorem State.modCan_net_timeSrcs : (s.modCan c g).net.timeSrcs = s.net.timeSrcs := (rfl)
@[simp] theorem State.modCan_net_traj : (s.modCan c g).net.traj = s.net.traj := (rfl)
end

section
variable (s : State) (c : Nat) (g : Tunnel → Tunnel)
@[simp] theorem State.modTun_pending : (s.modTun c g).pending = s.pending := (rfl)
@[simp] theorem State.modTun_regs : (s.modTun c g).regs = s.regs := (rfl)
@[simp] theorem State.modTun_outbox : (s.modTun c g).outbox = s.outbox := (rfl)
@[simp] theorem State.modTun_clock : (s.modTun c g).clock = s.clock := (rfl)
@[simp] theorem State.modTun_mem : (s.modTun c g).mem = s.mem := (rfl)
@[simp] theorem State.modTun_work : (s.modTun c g).work = s.work := (rfl)
@[simp] theorem State.modTun_units : (s.modTun c g).units = s.units := (rfl)
@[simp] theorem State.modTun_dtu : (s.modTun c g).dtu = s.dtu := (rfl)
@[simp] theorem State.modTun_pix : (s.modTun c g).pix = s.pix := (rfl)
@[simp] theorem State.modTun_sys : (s.modTun c g).sys = s.sys := (rfl)
@[simp] theorem State.modTun_freeCtr : (s.modTun c g).freeCtr = s.freeCtr := (rfl)
@[simp] theorem State.modTun_r (q : Reg) (k : Nat) : (s.modTun c g).r q k = s.r q k := (rfl)
@[simp] theorem State.modTun_f (y : Fld) (k : Nat) : (s.modTun c g).f y k = s.f y k := (rfl)
@[simp] theorem State.modTun_fb (y : Fld) (k : Nat) : (s.modTun c g).fb y k = s.fb y k := (rfl)
@[simp] theorem State.modTun_byte (b : Nat) : (s.modTun c g).byte b = s.byte b := (rfl)
@[simp] theorem State.modTun_now : (s.modTun c g).now = s.now := (rfl)
@[simp] theorem State.modTun_arr (k : Nat) : (s.modTun c g).arr k = s.arr k := (rfl)
@[simp] theorem State.modTun_flask (k : Nat) : (s.modTun c g).flask k = s.flask k := (rfl)
@[simp] theorem State.modTun_vec (k : Nat) : (s.modTun c g).vec k = s.vec k := (rfl)
@[simp] theorem State.modTun_rt (k : Nat) : (s.modTun c g).rt k = s.rt k := (rfl)
@[simp] theorem State.modTun_q (k : Nat) : (s.modTun c g).q k = s.q k := (rfl)
@[simp] theorem State.modTun_job (k : Nat) : (s.modTun c g).job k = s.job k := (rfl)
@[simp] theorem State.modTun_ctx (k : Nat) : (s.modTun c g).ctx k = s.ctx k := (rfl)
@[simp] theorem State.modTun_cam (k : Nat) : (s.modTun c g).cam k = s.cam k := (rfl)
@[simp] theorem State.modTun_disp (k : Nat) : (s.modTun c g).disp k = s.disp k := (rfl)
@[simp] theorem State.modTun_canc (k : Nat) : (s.modTun c g).canc k = s.canc k := (rfl)
@[simp] theorem State.modTun_wport (k : Nat) : (s.modTun c g).wport k = s.wport k := (rfl)
@[simp] theorem State.modTun_fwp (k : Nat) : (s.modTun c g).fwp k = s.fwp k := (rfl)
@[simp] theorem State.modTun_net_gateEngs : (s.modTun c g).net.gateEngs = s.net.gateEngs := (rfl)
@[simp] theorem State.modTun_net_ethStaged : (s.modTun c g).net.ethStaged = s.net.ethStaged := (rfl)
@[simp] theorem State.modTun_net_ethItems : (s.modTun c g).net.ethItems = s.net.ethItems := (rfl)
@[simp] theorem State.modTun_net_macPns : (s.modTun c g).net.macPns = s.net.macPns := (rfl)
@[simp] theorem State.modTun_net_macSak : (s.modTun c g).net.macSak = s.net.macSak := (rfl)
@[simp] theorem State.modTun_net_shapers : (s.modTun c g).net.shapers = s.net.shapers := (rfl)
@[simp] theorem State.modTun_net_meters : (s.modTun c g).net.meters = s.net.meters := (rfl)
@[simp] theorem State.modTun_net_cbs : (s.modTun c g).net.cbs = s.net.cbs := (rfl)
@[simp] theorem State.modTun_net_egress : (s.modTun c g).net.egress = s.net.egress := (rfl)
@[simp] theorem State.modTun_net_parts : (s.modTun c g).net.parts = s.net.parts := (rfl)
@[simp] theorem State.modTun_net_can : (s.modTun c g).net.can = s.net.can := (rfl)
@[simp] theorem State.modTun_net_bridge : (s.modTun c g).net.bridge = s.net.bridge := (rfl)
@[simp] theorem State.modTun_net_nextTag : (s.modTun c g).net.nextTag = s.net.nextTag := (rfl)
@[simp] theorem State.modTun_net_wsk : (s.modTun c g).net.wsk = s.net.wsk := (rfl)
@[simp] theorem State.modTun_net_timeSrcs : (s.modTun c g).net.timeSrcs = s.net.timeSrcs := (rfl)
@[simp] theorem State.modTun_net_traj : (s.modTun c g).net.traj = s.net.traj := (rfl)
end

section
variable (s : State) (p : Nat) (g : WskSt → WskSt)
@[simp] theorem State.modWsk_pending : (s.modWsk p g).pending = s.pending := (rfl)
@[simp] theorem State.modWsk_regs : (s.modWsk p g).regs = s.regs := (rfl)
@[simp] theorem State.modWsk_outbox : (s.modWsk p g).outbox = s.outbox := (rfl)
@[simp] theorem State.modWsk_clock : (s.modWsk p g).clock = s.clock := (rfl)
@[simp] theorem State.modWsk_mem : (s.modWsk p g).mem = s.mem := (rfl)
@[simp] theorem State.modWsk_work : (s.modWsk p g).work = s.work := (rfl)
@[simp] theorem State.modWsk_units : (s.modWsk p g).units = s.units := (rfl)
@[simp] theorem State.modWsk_dtu : (s.modWsk p g).dtu = s.dtu := (rfl)
@[simp] theorem State.modWsk_pix : (s.modWsk p g).pix = s.pix := (rfl)
@[simp] theorem State.modWsk_sys : (s.modWsk p g).sys = s.sys := (rfl)
@[simp] theorem State.modWsk_freeCtr : (s.modWsk p g).freeCtr = s.freeCtr := (rfl)
@[simp] theorem State.modWsk_r (q : Reg) (k : Nat) : (s.modWsk p g).r q k = s.r q k := (rfl)
@[simp] theorem State.modWsk_f (y : Fld) (k : Nat) : (s.modWsk p g).f y k = s.f y k := (rfl)
@[simp] theorem State.modWsk_fb (y : Fld) (k : Nat) : (s.modWsk p g).fb y k = s.fb y k := (rfl)
@[simp] theorem State.modWsk_byte (b : Nat) : (s.modWsk p g).byte b = s.byte b := (rfl)
@[simp] theorem State.modWsk_now : (s.modWsk p g).now = s.now := (rfl)
@[simp] theorem State.modWsk_arr (k : Nat) : (s.modWsk p g).arr k = s.arr k := (rfl)
@[simp] theorem State.modWsk_flask (k : Nat) : (s.modWsk p g).flask k = s.flask k := (rfl)
@[simp] theorem State.modWsk_vec (k : Nat) : (s.modWsk p g).vec k = s.vec k := (rfl)
@[simp] theorem State.modWsk_rt (k : Nat) : (s.modWsk p g).rt k = s.rt k := (rfl)
@[simp] theorem State.modWsk_q (k : Nat) : (s.modWsk p g).q k = s.q k := (rfl)
@[simp] theorem State.modWsk_job (k : Nat) : (s.modWsk p g).job k = s.job k := (rfl)
@[simp] theorem State.modWsk_ctx (k : Nat) : (s.modWsk p g).ctx k = s.ctx k := (rfl)
@[simp] theorem State.modWsk_cam (k : Nat) : (s.modWsk p g).cam k = s.cam k := (rfl)
@[simp] theorem State.modWsk_disp (k : Nat) : (s.modWsk p g).disp k = s.disp k := (rfl)
@[simp] theorem State.modWsk_canc (k : Nat) : (s.modWsk p g).canc k = s.canc k := (rfl)
@[simp] theorem State.modWsk_tun (k : Nat) : (s.modWsk p g).tun k = s.tun k := (rfl)
@[simp] theorem State.modWsk_fwp (k : Nat) : (s.modWsk p g).fwp k = s.fwp k := (rfl)
@[simp] theorem State.modWsk_net_gateEngs : (s.modWsk p g).net.gateEngs = s.net.gateEngs := (rfl)
@[simp] theorem State.modWsk_net_ethStaged : (s.modWsk p g).net.ethStaged = s.net.ethStaged := (rfl)
@[simp] theorem State.modWsk_net_ethItems : (s.modWsk p g).net.ethItems = s.net.ethItems := (rfl)
@[simp] theorem State.modWsk_net_macPns : (s.modWsk p g).net.macPns = s.net.macPns := (rfl)
@[simp] theorem State.modWsk_net_macSak : (s.modWsk p g).net.macSak = s.net.macSak := (rfl)
@[simp] theorem State.modWsk_net_shapers : (s.modWsk p g).net.shapers = s.net.shapers := (rfl)
@[simp] theorem State.modWsk_net_meters : (s.modWsk p g).net.meters = s.net.meters := (rfl)
@[simp] theorem State.modWsk_net_cbs : (s.modWsk p g).net.cbs = s.net.cbs := (rfl)
@[simp] theorem State.modWsk_net_egress : (s.modWsk p g).net.egress = s.net.egress := (rfl)
@[simp] theorem State.modWsk_net_parts : (s.modWsk p g).net.parts = s.net.parts := (rfl)
@[simp] theorem State.modWsk_net_can : (s.modWsk p g).net.can = s.net.can := (rfl)
@[simp] theorem State.modWsk_net_tunnels : (s.modWsk p g).net.tunnels = s.net.tunnels := (rfl)
@[simp] theorem State.modWsk_net_bridge : (s.modWsk p g).net.bridge = s.net.bridge := (rfl)
@[simp] theorem State.modWsk_net_nextTag : (s.modWsk p g).net.nextTag = s.net.nextTag := (rfl)
@[simp] theorem State.modWsk_net_timeSrcs : (s.modWsk p g).net.timeSrcs = s.net.timeSrcs := (rfl)
@[simp] theorem State.modWsk_net_traj : (s.modWsk p g).net.traj = s.net.traj := (rfl)
end

section
variable (s : State) (p : Nat) (g : FwProc → FwProc)
@[simp] theorem State.modFw_pending : (s.modFw p g).pending = s.pending := (rfl)
@[simp] theorem State.modFw_regs : (s.modFw p g).regs = s.regs := (rfl)
@[simp] theorem State.modFw_outbox : (s.modFw p g).outbox = s.outbox := (rfl)
@[simp] theorem State.modFw_clock : (s.modFw p g).clock = s.clock := (rfl)
@[simp] theorem State.modFw_mem : (s.modFw p g).mem = s.mem := (rfl)
@[simp] theorem State.modFw_work : (s.modFw p g).work = s.work := (rfl)
@[simp] theorem State.modFw_units : (s.modFw p g).units = s.units := (rfl)
@[simp] theorem State.modFw_dtu : (s.modFw p g).dtu = s.dtu := (rfl)
@[simp] theorem State.modFw_pix : (s.modFw p g).pix = s.pix := (rfl)
@[simp] theorem State.modFw_net : (s.modFw p g).net = s.net := (rfl)
@[simp] theorem State.modFw_freeCtr : (s.modFw p g).freeCtr = s.freeCtr := (rfl)
@[simp] theorem State.modFw_r (q : Reg) (k : Nat) : (s.modFw p g).r q k = s.r q k := (rfl)
@[simp] theorem State.modFw_f (y : Fld) (k : Nat) : (s.modFw p g).f y k = s.f y k := (rfl)
@[simp] theorem State.modFw_fb (y : Fld) (k : Nat) : (s.modFw p g).fb y k = s.fb y k := (rfl)
@[simp] theorem State.modFw_byte (b : Nat) : (s.modFw p g).byte b = s.byte b := (rfl)
@[simp] theorem State.modFw_now : (s.modFw p g).now = s.now := (rfl)
@[simp] theorem State.modFw_arr (k : Nat) : (s.modFw p g).arr k = s.arr k := (rfl)
@[simp] theorem State.modFw_flask (k : Nat) : (s.modFw p g).flask k = s.flask k := (rfl)
@[simp] theorem State.modFw_vec (k : Nat) : (s.modFw p g).vec k = s.vec k := (rfl)
@[simp] theorem State.modFw_rt (k : Nat) : (s.modFw p g).rt k = s.rt k := (rfl)
@[simp] theorem State.modFw_q (k : Nat) : (s.modFw p g).q k = s.q k := (rfl)
@[simp] theorem State.modFw_job (k : Nat) : (s.modFw p g).job k = s.job k := (rfl)
@[simp] theorem State.modFw_ctx (k : Nat) : (s.modFw p g).ctx k = s.ctx k := (rfl)
@[simp] theorem State.modFw_cam (k : Nat) : (s.modFw p g).cam k = s.cam k := (rfl)
@[simp] theorem State.modFw_disp (k : Nat) : (s.modFw p g).disp k = s.disp k := (rfl)
@[simp] theorem State.modFw_canc (k : Nat) : (s.modFw p g).canc k = s.canc k := (rfl)
@[simp] theorem State.modFw_tun (k : Nat) : (s.modFw p g).tun k = s.tun k := (rfl)
@[simp] theorem State.modFw_wport (k : Nat) : (s.modFw p g).wport k = s.wport k := (rfl)
@[simp] theorem State.modFw_sys_power : (s.modFw p g).sys.power = s.sys.power := (rfl)
@[simp] theorem State.modFw_sys_record : (s.modFw p g).sys.record = s.sys.record := (rfl)
@[simp] theorem State.modFw_sys_store : (s.modFw p g).sys.store = s.sys.store := (rfl)
@[simp] theorem State.modFw_sys_trust : (s.modFw p g).sys.trust = s.sys.trust := (rfl)
@[simp] theorem State.modFw_sys_jtag : (s.modFw p g).sys.jtag = s.sys.jtag := (rfl)
@[simp] theorem State.modFw_sys_keptIrqs : (s.modFw p g).sys.keptIrqs = s.sys.keptIrqs := (rfl)
@[simp] theorem State.modFw_sys_chain : (s.modFw p g).sys.chain = s.sys.chain := (rfl)
@[simp] theorem State.modFw_sys_mbxTimes : (s.modFw p g).sys.mbxTimes = s.sys.mbxTimes := (rfl)
end

section
variable (s : State) (g : FieldRecord → FieldRecord)
@[simp] theorem State.modRec_pending : (s.modRec g).pending = s.pending := (rfl)
@[simp] theorem State.modRec_regs : (s.modRec g).regs = s.regs := (rfl)
@[simp] theorem State.modRec_outbox : (s.modRec g).outbox = s.outbox := (rfl)
@[simp] theorem State.modRec_clock : (s.modRec g).clock = s.clock := (rfl)
@[simp] theorem State.modRec_mem : (s.modRec g).mem = s.mem := (rfl)
@[simp] theorem State.modRec_work : (s.modRec g).work = s.work := (rfl)
@[simp] theorem State.modRec_units : (s.modRec g).units = s.units := (rfl)
@[simp] theorem State.modRec_dtu : (s.modRec g).dtu = s.dtu := (rfl)
@[simp] theorem State.modRec_pix : (s.modRec g).pix = s.pix := (rfl)
@[simp] theorem State.modRec_net : (s.modRec g).net = s.net := (rfl)
@[simp] theorem State.modRec_freeCtr : (s.modRec g).freeCtr = s.freeCtr := (rfl)
@[simp] theorem State.modRec_r (q : Reg) (k : Nat) : (s.modRec g).r q k = s.r q k := (rfl)
@[simp] theorem State.modRec_f (y : Fld) (k : Nat) : (s.modRec g).f y k = s.f y k := (rfl)
@[simp] theorem State.modRec_fb (y : Fld) (k : Nat) : (s.modRec g).fb y k = s.fb y k := (rfl)
@[simp] theorem State.modRec_byte (b : Nat) : (s.modRec g).byte b = s.byte b := (rfl)
@[simp] theorem State.modRec_now : (s.modRec g).now = s.now := (rfl)
@[simp] theorem State.modRec_arr (k : Nat) : (s.modRec g).arr k = s.arr k := (rfl)
@[simp] theorem State.modRec_flask (k : Nat) : (s.modRec g).flask k = s.flask k := (rfl)
@[simp] theorem State.modRec_vec (k : Nat) : (s.modRec g).vec k = s.vec k := (rfl)
@[simp] theorem State.modRec_rt (k : Nat) : (s.modRec g).rt k = s.rt k := (rfl)
@[simp] theorem State.modRec_q (k : Nat) : (s.modRec g).q k = s.q k := (rfl)
@[simp] theorem State.modRec_job (k : Nat) : (s.modRec g).job k = s.job k := (rfl)
@[simp] theorem State.modRec_ctx (k : Nat) : (s.modRec g).ctx k = s.ctx k := (rfl)
@[simp] theorem State.modRec_cam (k : Nat) : (s.modRec g).cam k = s.cam k := (rfl)
@[simp] theorem State.modRec_disp (k : Nat) : (s.modRec g).disp k = s.disp k := (rfl)
@[simp] theorem State.modRec_canc (k : Nat) : (s.modRec g).canc k = s.canc k := (rfl)
@[simp] theorem State.modRec_tun (k : Nat) : (s.modRec g).tun k = s.tun k := (rfl)
@[simp] theorem State.modRec_wport (k : Nat) : (s.modRec g).wport k = s.wport k := (rfl)
@[simp] theorem State.modRec_fwp (k : Nat) : (s.modRec g).fwp k = s.fwp k := (rfl)
@[simp] theorem State.modRec_sys_power : (s.modRec g).sys.power = s.sys.power := (rfl)
@[simp] theorem State.modRec_sys_fw : (s.modRec g).sys.fw = s.sys.fw := (rfl)
@[simp] theorem State.modRec_sys_store : (s.modRec g).sys.store = s.sys.store := (rfl)
@[simp] theorem State.modRec_sys_trust : (s.modRec g).sys.trust = s.sys.trust := (rfl)
@[simp] theorem State.modRec_sys_jtag : (s.modRec g).sys.jtag = s.sys.jtag := (rfl)
@[simp] theorem State.modRec_sys_keptIrqs : (s.modRec g).sys.keptIrqs = s.sys.keptIrqs := (rfl)
@[simp] theorem State.modRec_sys_chain : (s.modRec g).sys.chain = s.sys.chain := (rfl)
@[simp] theorem State.modRec_sys_mbxTimes : (s.modRec g).sys.mbxTimes = s.sys.mbxTimes := (rfl)
end

section
variable (s : State) (g : PowerSt → PowerSt)
@[simp] theorem State.modPower_pending : (s.modPower g).pending = s.pending := (rfl)
@[simp] theorem State.modPower_regs : (s.modPower g).regs = s.regs := (rfl)
@[simp] theorem State.modPower_outbox : (s.modPower g).outbox = s.outbox := (rfl)
@[simp] theorem State.modPower_clock : (s.modPower g).clock = s.clock := (rfl)
@[simp] theorem State.modPower_mem : (s.modPower g).mem = s.mem := (rfl)
@[simp] theorem State.modPower_work : (s.modPower g).work = s.work := (rfl)
@[simp] theorem State.modPower_units : (s.modPower g).units = s.units := (rfl)
@[simp] theorem State.modPower_dtu : (s.modPower g).dtu = s.dtu := (rfl)
@[simp] theorem State.modPower_pix : (s.modPower g).pix = s.pix := (rfl)
@[simp] theorem State.modPower_net : (s.modPower g).net = s.net := (rfl)
@[simp] theorem State.modPower_freeCtr : (s.modPower g).freeCtr = s.freeCtr := (rfl)
@[simp] theorem State.modPower_r (q : Reg) (k : Nat) : (s.modPower g).r q k = s.r q k := (rfl)
@[simp] theorem State.modPower_f (y : Fld) (k : Nat) : (s.modPower g).f y k = s.f y k := (rfl)
@[simp] theorem State.modPower_fb (y : Fld) (k : Nat) : (s.modPower g).fb y k = s.fb y k := (rfl)
@[simp] theorem State.modPower_byte (b : Nat) : (s.modPower g).byte b = s.byte b := (rfl)
@[simp] theorem State.modPower_now : (s.modPower g).now = s.now := (rfl)
@[simp] theorem State.modPower_arr (k : Nat) : (s.modPower g).arr k = s.arr k := (rfl)
@[simp] theorem State.modPower_flask (k : Nat) : (s.modPower g).flask k = s.flask k := (rfl)
@[simp] theorem State.modPower_vec (k : Nat) : (s.modPower g).vec k = s.vec k := (rfl)
@[simp] theorem State.modPower_rt (k : Nat) : (s.modPower g).rt k = s.rt k := (rfl)
@[simp] theorem State.modPower_q (k : Nat) : (s.modPower g).q k = s.q k := (rfl)
@[simp] theorem State.modPower_job (k : Nat) : (s.modPower g).job k = s.job k := (rfl)
@[simp] theorem State.modPower_ctx (k : Nat) : (s.modPower g).ctx k = s.ctx k := (rfl)
@[simp] theorem State.modPower_cam (k : Nat) : (s.modPower g).cam k = s.cam k := (rfl)
@[simp] theorem State.modPower_disp (k : Nat) : (s.modPower g).disp k = s.disp k := (rfl)
@[simp] theorem State.modPower_canc (k : Nat) : (s.modPower g).canc k = s.canc k := (rfl)
@[simp] theorem State.modPower_tun (k : Nat) : (s.modPower g).tun k = s.tun k := (rfl)
@[simp] theorem State.modPower_wport (k : Nat) : (s.modPower g).wport k = s.wport k := (rfl)
@[simp] theorem State.modPower_fwp (k : Nat) : (s.modPower g).fwp k = s.fwp k := (rfl)
@[simp] theorem State.modPower_sys_fw : (s.modPower g).sys.fw = s.sys.fw := (rfl)
@[simp] theorem State.modPower_sys_record : (s.modPower g).sys.record = s.sys.record := (rfl)
@[simp] theorem State.modPower_sys_store : (s.modPower g).sys.store = s.sys.store := (rfl)
@[simp] theorem State.modPower_sys_trust : (s.modPower g).sys.trust = s.sys.trust := (rfl)
@[simp] theorem State.modPower_sys_jtag : (s.modPower g).sys.jtag = s.sys.jtag := (rfl)
@[simp] theorem State.modPower_sys_keptIrqs : (s.modPower g).sys.keptIrqs = s.sys.keptIrqs := (rfl)
@[simp] theorem State.modPower_sys_chain : (s.modPower g).sys.chain = s.sys.chain := (rfl)
@[simp] theorem State.modPower_sys_mbxTimes : (s.modPower g).sys.mbxTimes = s.sys.mbxTimes := (rfl)
end

section
variable (s : State) (g : TrustSt → TrustSt)
@[simp] theorem State.modTrust_pending : (s.modTrust g).pending = s.pending := (rfl)
@[simp] theorem State.modTrust_regs : (s.modTrust g).regs = s.regs := (rfl)
@[simp] theorem State.modTrust_outbox : (s.modTrust g).outbox = s.outbox := (rfl)
@[simp] theorem State.modTrust_clock : (s.modTrust g).clock = s.clock := (rfl)
@[simp] theorem State.modTrust_mem : (s.modTrust g).mem = s.mem := (rfl)
@[simp] theorem State.modTrust_work : (s.modTrust g).work = s.work := (rfl)
@[simp] theorem State.modTrust_units : (s.modTrust g).units = s.units := (rfl)
@[simp] theorem State.modTrust_dtu : (s.modTrust g).dtu = s.dtu := (rfl)
@[simp] theorem State.modTrust_pix : (s.modTrust g).pix = s.pix := (rfl)
@[simp] theorem State.modTrust_net : (s.modTrust g).net = s.net := (rfl)
@[simp] theorem State.modTrust_freeCtr : (s.modTrust g).freeCtr = s.freeCtr := (rfl)
@[simp] theorem State.modTrust_r (q : Reg) (k : Nat) : (s.modTrust g).r q k = s.r q k := (rfl)
@[simp] theorem State.modTrust_f (y : Fld) (k : Nat) : (s.modTrust g).f y k = s.f y k := (rfl)
@[simp] theorem State.modTrust_fb (y : Fld) (k : Nat) : (s.modTrust g).fb y k = s.fb y k := (rfl)
@[simp] theorem State.modTrust_byte (b : Nat) : (s.modTrust g).byte b = s.byte b := (rfl)
@[simp] theorem State.modTrust_now : (s.modTrust g).now = s.now := (rfl)
@[simp] theorem State.modTrust_arr (k : Nat) : (s.modTrust g).arr k = s.arr k := (rfl)
@[simp] theorem State.modTrust_flask (k : Nat) : (s.modTrust g).flask k = s.flask k := (rfl)
@[simp] theorem State.modTrust_vec (k : Nat) : (s.modTrust g).vec k = s.vec k := (rfl)
@[simp] theorem State.modTrust_rt (k : Nat) : (s.modTrust g).rt k = s.rt k := (rfl)
@[simp] theorem State.modTrust_q (k : Nat) : (s.modTrust g).q k = s.q k := (rfl)
@[simp] theorem State.modTrust_job (k : Nat) : (s.modTrust g).job k = s.job k := (rfl)
@[simp] theorem State.modTrust_ctx (k : Nat) : (s.modTrust g).ctx k = s.ctx k := (rfl)
@[simp] theorem State.modTrust_cam (k : Nat) : (s.modTrust g).cam k = s.cam k := (rfl)
@[simp] theorem State.modTrust_disp (k : Nat) : (s.modTrust g).disp k = s.disp k := (rfl)
@[simp] theorem State.modTrust_canc (k : Nat) : (s.modTrust g).canc k = s.canc k := (rfl)
@[simp] theorem State.modTrust_tun (k : Nat) : (s.modTrust g).tun k = s.tun k := (rfl)
@[simp] theorem State.modTrust_wport (k : Nat) : (s.modTrust g).wport k = s.wport k := (rfl)
@[simp] theorem State.modTrust_fwp (k : Nat) : (s.modTrust g).fwp k = s.fwp k := (rfl)
@[simp] theorem State.modTrust_sys_power : (s.modTrust g).sys.power = s.sys.power := (rfl)
@[simp] theorem State.modTrust_sys_fw : (s.modTrust g).sys.fw = s.sys.fw := (rfl)
@[simp] theorem State.modTrust_sys_record : (s.modTrust g).sys.record = s.sys.record := (rfl)
@[simp] theorem State.modTrust_sys_store : (s.modTrust g).sys.store = s.sys.store := (rfl)
@[simp] theorem State.modTrust_sys_jtag : (s.modTrust g).sys.jtag = s.sys.jtag := (rfl)
@[simp] theorem State.modTrust_sys_keptIrqs : (s.modTrust g).sys.keptIrqs = s.sys.keptIrqs := (rfl)
@[simp] theorem State.modTrust_sys_chain : (s.modTrust g).sys.chain = s.sys.chain := (rfl)
@[simp] theorem State.modTrust_sys_mbxTimes : (s.modTrust g).sys.mbxTimes = s.sys.mbxTimes := (rfl)
end

section
variable (s : State) (l : Nat)
@[simp] theorem State.poisonLine_pending : (s.poisonLine l).pending = s.pending := (rfl)
@[simp] theorem State.poisonLine_regs : (s.poisonLine l).regs = s.regs := (rfl)
@[simp] theorem State.poisonLine_outbox : (s.poisonLine l).outbox = s.outbox := (rfl)
@[simp] theorem State.poisonLine_clock : (s.poisonLine l).clock = s.clock := (rfl)
@[simp] theorem State.poisonLine_work : (s.poisonLine l).work = s.work := (rfl)
@[simp] theorem State.poisonLine_units : (s.poisonLine l).units = s.units := (rfl)
@[simp] theorem State.poisonLine_dtu : (s.poisonLine l).dtu = s.dtu := (rfl)
@[simp] theorem State.poisonLine_pix : (s.poisonLine l).pix = s.pix := (rfl)
@[simp] theorem State.poisonLine_net : (s.poisonLine l).net = s.net := (rfl)
@[simp] theorem State.poisonLine_sys : (s.poisonLine l).sys = s.sys := (rfl)
@[simp] theorem State.poisonLine_freeCtr : (s.poisonLine l).freeCtr = s.freeCtr := (rfl)
@[simp] theorem State.poisonLine_r (q : Reg) (k : Nat) : (s.poisonLine l).r q k = s.r q k := (rfl)
@[simp] theorem State.poisonLine_f (y : Fld) (k : Nat) : (s.poisonLine l).f y k = s.f y k := (rfl)
@[simp] theorem State.poisonLine_fb (y : Fld) (k : Nat) : (s.poisonLine l).fb y k = s.fb y k := (rfl)
@[simp] theorem State.poisonLine_byte (b : Nat) : (s.poisonLine l).byte b = s.byte b := (rfl)
@[simp] theorem State.poisonLine_now : (s.poisonLine l).now = s.now := (rfl)
@[simp] theorem State.poisonLine_arr (k : Nat) : (s.poisonLine l).arr k = s.arr k := (rfl)
@[simp] theorem State.poisonLine_flask (k : Nat) : (s.poisonLine l).flask k = s.flask k := (rfl)
@[simp] theorem State.poisonLine_vec (k : Nat) : (s.poisonLine l).vec k = s.vec k := (rfl)
@[simp] theorem State.poisonLine_rt (k : Nat) : (s.poisonLine l).rt k = s.rt k := (rfl)
@[simp] theorem State.poisonLine_q (k : Nat) : (s.poisonLine l).q k = s.q k := (rfl)
@[simp] theorem State.poisonLine_job (k : Nat) : (s.poisonLine l).job k = s.job k := (rfl)
@[simp] theorem State.poisonLine_ctx (k : Nat) : (s.poisonLine l).ctx k = s.ctx k := (rfl)
@[simp] theorem State.poisonLine_cam (k : Nat) : (s.poisonLine l).cam k = s.cam k := (rfl)
@[simp] theorem State.poisonLine_disp (k : Nat) : (s.poisonLine l).disp k = s.disp k := (rfl)
@[simp] theorem State.poisonLine_canc (k : Nat) : (s.poisonLine l).canc k = s.canc k := (rfl)
@[simp] theorem State.poisonLine_tun (k : Nat) : (s.poisonLine l).tun k = s.tun k := (rfl)
@[simp] theorem State.poisonLine_wport (k : Nat) : (s.poisonLine l).wport k = s.wport k := (rfl)
@[simp] theorem State.poisonLine_fwp (k : Nat) : (s.poisonLine l).fwp k = s.fwp k := (rfl)
@[simp] theorem State.poisonLine_mem_cells : (s.poisonLine l).mem.cells = s.mem.cells := (rfl)
@[simp] theorem State.poisonLine_mem_mbx : (s.poisonLine l).mem.mbx = s.mem.mbx := (rfl)
@[simp] theorem State.poisonLine_mem_cache : (s.poisonLine l).mem.cache = s.mem.cache := (rfl)
@[simp] theorem State.poisonLine_mem_holders : (s.poisonLine l).mem.holders = s.mem.holders := (rfl)
@[simp] theorem State.poisonLine_mem_wbs : (s.poisonLine l).mem.wbs = s.mem.wbs := (rfl)
@[simp] theorem State.poisonLine_mem_snoops : (s.poisonLine l).mem.snoops = s.mem.snoops := (rfl)
@[simp] theorem State.poisonLine_mem_useClock : (s.poisonLine l).mem.useClock = s.mem.useClock := (rfl)
@[simp] theorem State.poisonLine_mem_spareArea : (s.poisonLine l).mem.spareArea = s.mem.spareArea := (rfl)
@[simp] theorem State.poisonLine_mem_keys : (s.poisonLine l).mem.keys = s.mem.keys := (rfl)
@[simp] theorem State.poisonLine_mem_flips : (s.poisonLine l).mem.flips = s.mem.flips := (rfl)
@[simp] theorem State.poisonLine_mem_chkFlips : (s.poisonLine l).mem.chkFlips = s.mem.chkFlips := (rfl)
@[simp] theorem State.poisonLine_mem_homeQ : (s.poisonLine l).mem.homeQ = s.mem.homeQ := (rfl)
@[simp] theorem State.poisonLine_mem_retCh : (s.poisonLine l).mem.retCh = s.mem.retCh := (rfl)
@[simp] theorem State.poisonLine_mem_gates : (s.poisonLine l).mem.gates = s.mem.gates := (rfl)
@[simp] theorem State.poisonLine_mem_gateQ : (s.poisonLine l).mem.gateQ = s.mem.gateQ := (rfl)
@[simp] theorem State.poisonLine_mem_gateCfg : (s.poisonLine l).mem.gateCfg = s.mem.gateCfg := (rfl)
@[simp] theorem State.poisonLine_mem_rtCfg : (s.poisonLine l).mem.rtCfg = s.mem.rtCfg := (rfl)
@[simp] theorem State.poisonLine_mem_winCfg : (s.poisonLine l).mem.winCfg = s.mem.winCfg := (rfl)
@[simp] theorem State.poisonLine_mem_moves : (s.poisonLine l).mem.moves = s.mem.moves := (rfl)
@[simp] theorem State.poisonLine_mem_nextMove : (s.poisonLine l).mem.nextMove = s.mem.nextMove := (rfl)
end

section
variable (s : State) (a : Nat) (bs : List Byte)
@[simp] theorem State.store_pending : (s.store a bs).pending = s.pending := (rfl)
@[simp] theorem State.store_regs : (s.store a bs).regs = s.regs := (rfl)
@[simp] theorem State.store_outbox : (s.store a bs).outbox = s.outbox := (rfl)
@[simp] theorem State.store_clock : (s.store a bs).clock = s.clock := (rfl)
@[simp] theorem State.store_work : (s.store a bs).work = s.work := (rfl)
@[simp] theorem State.store_units : (s.store a bs).units = s.units := (rfl)
@[simp] theorem State.store_dtu : (s.store a bs).dtu = s.dtu := (rfl)
@[simp] theorem State.store_pix : (s.store a bs).pix = s.pix := (rfl)
@[simp] theorem State.store_net : (s.store a bs).net = s.net := (rfl)
@[simp] theorem State.store_sys : (s.store a bs).sys = s.sys := (rfl)
@[simp] theorem State.store_freeCtr : (s.store a bs).freeCtr = s.freeCtr := (rfl)
@[simp] theorem State.store_r (q : Reg) (k : Nat) : (s.store a bs).r q k = s.r q k := (rfl)
@[simp] theorem State.store_f (y : Fld) (k : Nat) : (s.store a bs).f y k = s.f y k := (rfl)
@[simp] theorem State.store_fb (y : Fld) (k : Nat) : (s.store a bs).fb y k = s.fb y k := (rfl)
@[simp] theorem State.store_now : (s.store a bs).now = s.now := (rfl)
@[simp] theorem State.store_arr (k : Nat) : (s.store a bs).arr k = s.arr k := (rfl)
@[simp] theorem State.store_flask (k : Nat) : (s.store a bs).flask k = s.flask k := (rfl)
@[simp] theorem State.store_vec (k : Nat) : (s.store a bs).vec k = s.vec k := (rfl)
@[simp] theorem State.store_rt (k : Nat) : (s.store a bs).rt k = s.rt k := (rfl)
@[simp] theorem State.store_q (k : Nat) : (s.store a bs).q k = s.q k := (rfl)
@[simp] theorem State.store_job (k : Nat) : (s.store a bs).job k = s.job k := (rfl)
@[simp] theorem State.store_ctx (k : Nat) : (s.store a bs).ctx k = s.ctx k := (rfl)
@[simp] theorem State.store_cam (k : Nat) : (s.store a bs).cam k = s.cam k := (rfl)
@[simp] theorem State.store_disp (k : Nat) : (s.store a bs).disp k = s.disp k := (rfl)
@[simp] theorem State.store_canc (k : Nat) : (s.store a bs).canc k = s.canc k := (rfl)
@[simp] theorem State.store_tun (k : Nat) : (s.store a bs).tun k = s.tun k := (rfl)
@[simp] theorem State.store_wport (k : Nat) : (s.store a bs).wport k = s.wport k := (rfl)
@[simp] theorem State.store_fwp (k : Nat) : (s.store a bs).fwp k = s.fwp k := (rfl)
@[simp] theorem State.store_mem_mbx : (s.store a bs).mem.mbx = s.mem.mbx := (rfl)
@[simp] theorem State.store_mem_poison : (s.store a bs).mem.poison = s.mem.poison := (rfl)
@[simp] theorem State.store_mem_cache : (s.store a bs).mem.cache = s.mem.cache := (rfl)
@[simp] theorem State.store_mem_holders : (s.store a bs).mem.holders = s.mem.holders := (rfl)
@[simp] theorem State.store_mem_wbs : (s.store a bs).mem.wbs = s.mem.wbs := (rfl)
@[simp] theorem State.store_mem_snoops : (s.store a bs).mem.snoops = s.mem.snoops := (rfl)
@[simp] theorem State.store_mem_useClock : (s.store a bs).mem.useClock = s.mem.useClock := (rfl)
@[simp] theorem State.store_mem_spareArea : (s.store a bs).mem.spareArea = s.mem.spareArea := (rfl)
@[simp] theorem State.store_mem_keys : (s.store a bs).mem.keys = s.mem.keys := (rfl)
@[simp] theorem State.store_mem_flips : (s.store a bs).mem.flips = s.mem.flips := (rfl)
@[simp] theorem State.store_mem_chkFlips : (s.store a bs).mem.chkFlips = s.mem.chkFlips := (rfl)
@[simp] theorem State.store_mem_homeQ : (s.store a bs).mem.homeQ = s.mem.homeQ := (rfl)
@[simp] theorem State.store_mem_retCh : (s.store a bs).mem.retCh = s.mem.retCh := (rfl)
@[simp] theorem State.store_mem_gates : (s.store a bs).mem.gates = s.mem.gates := (rfl)
@[simp] theorem State.store_mem_gateQ : (s.store a bs).mem.gateQ = s.mem.gateQ := (rfl)
@[simp] theorem State.store_mem_gateCfg : (s.store a bs).mem.gateCfg = s.mem.gateCfg := (rfl)
@[simp] theorem State.store_mem_rtCfg : (s.store a bs).mem.rtCfg = s.mem.rtCfg := (rfl)
@[simp] theorem State.store_mem_winCfg : (s.store a bs).mem.winCfg = s.mem.winCfg := (rfl)
@[simp] theorem State.store_mem_moves : (s.store a bs).mem.moves = s.mem.moves := (rfl)
@[simp] theorem State.store_mem_nextMove : (s.store a bs).mem.nextMove = s.mem.nextMove := (rfl)
end

section
variable (s : State) (l : Nat)
@[simp] theorem State.dropHolders_pending : (s.dropHolders l).pending = s.pending := (rfl)
@[simp] theorem State.dropHolders_regs : (s.dropHolders l).regs = s.regs := (rfl)
@[simp] theorem State.dropHolders_outbox : (s.dropHolders l).outbox = s.outbox := (rfl)
@[simp] theorem State.dropHolders_clock : (s.dropHolders l).clock = s.clock := (rfl)
@[simp] theorem State.dropHolders_work : (s.dropHolders l).work = s.work := (rfl)
@[simp] theorem State.dropHolders_units : (s.dropHolders l).units = s.units := (rfl)
@[simp] theorem State.dropHolders_dtu : (s.dropHolders l).dtu = s.dtu := (rfl)
@[simp] theorem State.dropHolders_pix : (s.dropHolders l).pix = s.pix := (rfl)
@[simp] theorem State.dropHolders_net : (s.dropHolders l).net = s.net := (rfl)
@[simp] theorem State.dropHolders_sys : (s.dropHolders l).sys = s.sys := (rfl)
@[simp] theorem State.dropHolders_freeCtr : (s.dropHolders l).freeCtr = s.freeCtr := (rfl)
@[simp] theorem State.dropHolders_r (q : Reg) (k : Nat) : (s.dropHolders l).r q k = s.r q k := (rfl)
@[simp] theorem State.dropHolders_f (y : Fld) (k : Nat) : (s.dropHolders l).f y k = s.f y k := (rfl)
@[simp] theorem State.dropHolders_fb (y : Fld) (k : Nat) : (s.dropHolders l).fb y k = s.fb y k := (rfl)
@[simp] theorem State.dropHolders_byte (b : Nat) : (s.dropHolders l).byte b = s.byte b := (rfl)
@[simp] theorem State.dropHolders_now : (s.dropHolders l).now = s.now := (rfl)
@[simp] theorem State.dropHolders_arr (k : Nat) : (s.dropHolders l).arr k = s.arr k := (rfl)
@[simp] theorem State.dropHolders_flask (k : Nat) : (s.dropHolders l).flask k = s.flask k := (rfl)
@[simp] theorem State.dropHolders_vec (k : Nat) : (s.dropHolders l).vec k = s.vec k := (rfl)
@[simp] theorem State.dropHolders_rt (k : Nat) : (s.dropHolders l).rt k = s.rt k := (rfl)
@[simp] theorem State.dropHolders_q (k : Nat) : (s.dropHolders l).q k = s.q k := (rfl)
@[simp] theorem State.dropHolders_job (k : Nat) : (s.dropHolders l).job k = s.job k := (rfl)
@[simp] theorem State.dropHolders_ctx (k : Nat) : (s.dropHolders l).ctx k = s.ctx k := (rfl)
@[simp] theorem State.dropHolders_cam (k : Nat) : (s.dropHolders l).cam k = s.cam k := (rfl)
@[simp] theorem State.dropHolders_disp (k : Nat) : (s.dropHolders l).disp k = s.disp k := (rfl)
@[simp] theorem State.dropHolders_canc (k : Nat) : (s.dropHolders l).canc k = s.canc k := (rfl)
@[simp] theorem State.dropHolders_tun (k : Nat) : (s.dropHolders l).tun k = s.tun k := (rfl)
@[simp] theorem State.dropHolders_wport (k : Nat) : (s.dropHolders l).wport k = s.wport k := (rfl)
@[simp] theorem State.dropHolders_fwp (k : Nat) : (s.dropHolders l).fwp k = s.fwp k := (rfl)
@[simp] theorem State.dropHolders_mem_cells : (s.dropHolders l).mem.cells = s.mem.cells := (rfl)
@[simp] theorem State.dropHolders_mem_mbx : (s.dropHolders l).mem.mbx = s.mem.mbx := (rfl)
@[simp] theorem State.dropHolders_mem_poison : (s.dropHolders l).mem.poison = s.mem.poison := (rfl)
@[simp] theorem State.dropHolders_mem_cache : (s.dropHolders l).mem.cache = s.mem.cache := (rfl)
@[simp] theorem State.dropHolders_mem_wbs : (s.dropHolders l).mem.wbs = s.mem.wbs := (rfl)
@[simp] theorem State.dropHolders_mem_snoops : (s.dropHolders l).mem.snoops = s.mem.snoops := (rfl)
@[simp] theorem State.dropHolders_mem_useClock : (s.dropHolders l).mem.useClock = s.mem.useClock := (rfl)
@[simp] theorem State.dropHolders_mem_spareArea : (s.dropHolders l).mem.spareArea = s.mem.spareArea := (rfl)
@[simp] theorem State.dropHolders_mem_keys : (s.dropHolders l).mem.keys = s.mem.keys := (rfl)
@[simp] theorem State.dropHolders_mem_flips : (s.dropHolders l).mem.flips = s.mem.flips := (rfl)
@[simp] theorem State.dropHolders_mem_chkFlips : (s.dropHolders l).mem.chkFlips = s.mem.chkFlips := (rfl)
@[simp] theorem State.dropHolders_mem_homeQ : (s.dropHolders l).mem.homeQ = s.mem.homeQ := (rfl)
@[simp] theorem State.dropHolders_mem_retCh : (s.dropHolders l).mem.retCh = s.mem.retCh := (rfl)
@[simp] theorem State.dropHolders_mem_gates : (s.dropHolders l).mem.gates = s.mem.gates := (rfl)
@[simp] theorem State.dropHolders_mem_gateQ : (s.dropHolders l).mem.gateQ = s.mem.gateQ := (rfl)
@[simp] theorem State.dropHolders_mem_gateCfg : (s.dropHolders l).mem.gateCfg = s.mem.gateCfg := (rfl)
@[simp] theorem State.dropHolders_mem_rtCfg : (s.dropHolders l).mem.rtCfg = s.mem.rtCfg := (rfl)
@[simp] theorem State.dropHolders_mem_winCfg : (s.dropHolders l).mem.winCfg = s.mem.winCfg := (rfl)
@[simp] theorem State.dropHolders_mem_moves : (s.dropHolders l).mem.moves = s.mem.moves := (rfl)
@[simp] theorem State.dropHolders_mem_nextMove : (s.dropHolders l).mem.nextMove = s.mem.nextMove := (rfl)
end

section
variable (s : State) (l : Nat)
@[simp] theorem State.freshLine_pending : (s.freshLine l).pending = s.pending := (rfl)
@[simp] theorem State.freshLine_regs : (s.freshLine l).regs = s.regs := (rfl)
@[simp] theorem State.freshLine_outbox : (s.freshLine l).outbox = s.outbox := (rfl)
@[simp] theorem State.freshLine_clock : (s.freshLine l).clock = s.clock := (rfl)
@[simp] theorem State.freshLine_work : (s.freshLine l).work = s.work := (rfl)
@[simp] theorem State.freshLine_units : (s.freshLine l).units = s.units := (rfl)
@[simp] theorem State.freshLine_dtu : (s.freshLine l).dtu = s.dtu := (rfl)
@[simp] theorem State.freshLine_pix : (s.freshLine l).pix = s.pix := (rfl)
@[simp] theorem State.freshLine_net : (s.freshLine l).net = s.net := (rfl)
@[simp] theorem State.freshLine_sys : (s.freshLine l).sys = s.sys := (rfl)
@[simp] theorem State.freshLine_freeCtr : (s.freshLine l).freeCtr = s.freeCtr := (rfl)
@[simp] theorem State.freshLine_r (q : Reg) (k : Nat) : (s.freshLine l).r q k = s.r q k := (rfl)
@[simp] theorem State.freshLine_f (y : Fld) (k : Nat) : (s.freshLine l).f y k = s.f y k := (rfl)
@[simp] theorem State.freshLine_fb (y : Fld) (k : Nat) : (s.freshLine l).fb y k = s.fb y k := (rfl)
@[simp] theorem State.freshLine_now : (s.freshLine l).now = s.now := (rfl)
@[simp] theorem State.freshLine_arr (k : Nat) : (s.freshLine l).arr k = s.arr k := (rfl)
@[simp] theorem State.freshLine_flask (k : Nat) : (s.freshLine l).flask k = s.flask k := (rfl)
@[simp] theorem State.freshLine_vec (k : Nat) : (s.freshLine l).vec k = s.vec k := (rfl)
@[simp] theorem State.freshLine_rt (k : Nat) : (s.freshLine l).rt k = s.rt k := (rfl)
@[simp] theorem State.freshLine_q (k : Nat) : (s.freshLine l).q k = s.q k := (rfl)
@[simp] theorem State.freshLine_job (k : Nat) : (s.freshLine l).job k = s.job k := (rfl)
@[simp] theorem State.freshLine_ctx (k : Nat) : (s.freshLine l).ctx k = s.ctx k := (rfl)
@[simp] theorem State.freshLine_cam (k : Nat) : (s.freshLine l).cam k = s.cam k := (rfl)
@[simp] theorem State.freshLine_disp (k : Nat) : (s.freshLine l).disp k = s.disp k := (rfl)
@[simp] theorem State.freshLine_canc (k : Nat) : (s.freshLine l).canc k = s.canc k := (rfl)
@[simp] theorem State.freshLine_tun (k : Nat) : (s.freshLine l).tun k = s.tun k := (rfl)
@[simp] theorem State.freshLine_wport (k : Nat) : (s.freshLine l).wport k = s.wport k := (rfl)
@[simp] theorem State.freshLine_fwp (k : Nat) : (s.freshLine l).fwp k = s.fwp k := (rfl)
@[simp] theorem State.freshLine_mem_mbx : (s.freshLine l).mem.mbx = s.mem.mbx := (rfl)
@[simp] theorem State.freshLine_mem_cache : (s.freshLine l).mem.cache = s.mem.cache := (rfl)
@[simp] theorem State.freshLine_mem_holders : (s.freshLine l).mem.holders = s.mem.holders := (rfl)
@[simp] theorem State.freshLine_mem_wbs : (s.freshLine l).mem.wbs = s.mem.wbs := (rfl)
@[simp] theorem State.freshLine_mem_snoops : (s.freshLine l).mem.snoops = s.mem.snoops := (rfl)
@[simp] theorem State.freshLine_mem_useClock : (s.freshLine l).mem.useClock = s.mem.useClock := (rfl)
@[simp] theorem State.freshLine_mem_spareArea : (s.freshLine l).mem.spareArea = s.mem.spareArea := (rfl)
@[simp] theorem State.freshLine_mem_keys : (s.freshLine l).mem.keys = s.mem.keys := (rfl)
@[simp] theorem State.freshLine_mem_homeQ : (s.freshLine l).mem.homeQ = s.mem.homeQ := (rfl)
@[simp] theorem State.freshLine_mem_retCh : (s.freshLine l).mem.retCh = s.mem.retCh := (rfl)
@[simp] theorem State.freshLine_mem_gates : (s.freshLine l).mem.gates = s.mem.gates := (rfl)
@[simp] theorem State.freshLine_mem_gateQ : (s.freshLine l).mem.gateQ = s.mem.gateQ := (rfl)
@[simp] theorem State.freshLine_mem_gateCfg : (s.freshLine l).mem.gateCfg = s.mem.gateCfg := (rfl)
@[simp] theorem State.freshLine_mem_rtCfg : (s.freshLine l).mem.rtCfg = s.mem.rtCfg := (rfl)
@[simp] theorem State.freshLine_mem_winCfg : (s.freshLine l).mem.winCfg = s.mem.winCfg := (rfl)
@[simp] theorem State.freshLine_mem_moves : (s.freshLine l).mem.moves = s.mem.moves := (rfl)
@[simp] theorem State.freshLine_mem_nextMove : (s.freshLine l).mem.nextMove = s.mem.nextMove := (rfl)
@[simp] theorem State.freshLine_mem_cells : (s.freshLine l).mem.cells = s.mem.cells := (rfl)
@[simp] theorem State.freshLine_byte (b : Nat) : (s.freshLine l).byte b = s.byte b := (rfl)
end

section
variable (s : State) (l : Nat)
@[simp] theorem State.mended_pending : (s.mended l).pending = s.pending := (rfl)
@[simp] theorem State.mended_regs : (s.mended l).regs = s.regs := (rfl)
@[simp] theorem State.mended_outbox : (s.mended l).outbox = s.outbox := (rfl)
@[simp] theorem State.mended_clock : (s.mended l).clock = s.clock := (rfl)
@[simp] theorem State.mended_work : (s.mended l).work = s.work := (rfl)
@[simp] theorem State.mended_units : (s.mended l).units = s.units := (rfl)
@[simp] theorem State.mended_dtu : (s.mended l).dtu = s.dtu := (rfl)
@[simp] theorem State.mended_pix : (s.mended l).pix = s.pix := (rfl)
@[simp] theorem State.mended_net : (s.mended l).net = s.net := (rfl)
@[simp] theorem State.mended_sys : (s.mended l).sys = s.sys := (rfl)
@[simp] theorem State.mended_freeCtr : (s.mended l).freeCtr = s.freeCtr := (rfl)
@[simp] theorem State.mended_r (q : Reg) (k : Nat) : (s.mended l).r q k = s.r q k := (rfl)
@[simp] theorem State.mended_f (y : Fld) (k : Nat) : (s.mended l).f y k = s.f y k := (rfl)
@[simp] theorem State.mended_fb (y : Fld) (k : Nat) : (s.mended l).fb y k = s.fb y k := (rfl)
@[simp] theorem State.mended_now : (s.mended l).now = s.now := (rfl)
@[simp] theorem State.mended_arr (k : Nat) : (s.mended l).arr k = s.arr k := (rfl)
@[simp] theorem State.mended_flask (k : Nat) : (s.mended l).flask k = s.flask k := (rfl)
@[simp] theorem State.mended_vec (k : Nat) : (s.mended l).vec k = s.vec k := (rfl)
@[simp] theorem State.mended_rt (k : Nat) : (s.mended l).rt k = s.rt k := (rfl)
@[simp] theorem State.mended_q (k : Nat) : (s.mended l).q k = s.q k := (rfl)
@[simp] theorem State.mended_job (k : Nat) : (s.mended l).job k = s.job k := (rfl)
@[simp] theorem State.mended_ctx (k : Nat) : (s.mended l).ctx k = s.ctx k := (rfl)
@[simp] theorem State.mended_cam (k : Nat) : (s.mended l).cam k = s.cam k := (rfl)
@[simp] theorem State.mended_disp (k : Nat) : (s.mended l).disp k = s.disp k := (rfl)
@[simp] theorem State.mended_canc (k : Nat) : (s.mended l).canc k = s.canc k := (rfl)
@[simp] theorem State.mended_tun (k : Nat) : (s.mended l).tun k = s.tun k := (rfl)
@[simp] theorem State.mended_wport (k : Nat) : (s.mended l).wport k = s.wport k := (rfl)
@[simp] theorem State.mended_fwp (k : Nat) : (s.mended l).fwp k = s.fwp k := (rfl)
@[simp] theorem State.mended_mem_mbx : (s.mended l).mem.mbx = s.mem.mbx := (rfl)
@[simp] theorem State.mended_mem_cache : (s.mended l).mem.cache = s.mem.cache := (rfl)
@[simp] theorem State.mended_mem_holders : (s.mended l).mem.holders = s.mem.holders := (rfl)
@[simp] theorem State.mended_mem_wbs : (s.mended l).mem.wbs = s.mem.wbs := (rfl)
@[simp] theorem State.mended_mem_snoops : (s.mended l).mem.snoops = s.mem.snoops := (rfl)
@[simp] theorem State.mended_mem_useClock : (s.mended l).mem.useClock = s.mem.useClock := (rfl)
@[simp] theorem State.mended_mem_spareArea : (s.mended l).mem.spareArea = s.mem.spareArea := (rfl)
@[simp] theorem State.mended_mem_keys : (s.mended l).mem.keys = s.mem.keys := (rfl)
@[simp] theorem State.mended_mem_homeQ : (s.mended l).mem.homeQ = s.mem.homeQ := (rfl)
@[simp] theorem State.mended_mem_retCh : (s.mended l).mem.retCh = s.mem.retCh := (rfl)
@[simp] theorem State.mended_mem_gates : (s.mended l).mem.gates = s.mem.gates := (rfl)
@[simp] theorem State.mended_mem_gateQ : (s.mended l).mem.gateQ = s.mem.gateQ := (rfl)
@[simp] theorem State.mended_mem_gateCfg : (s.mended l).mem.gateCfg = s.mem.gateCfg := (rfl)
@[simp] theorem State.mended_mem_rtCfg : (s.mended l).mem.rtCfg = s.mem.rtCfg := (rfl)
@[simp] theorem State.mended_mem_winCfg : (s.mended l).mem.winCfg = s.mem.winCfg := (rfl)
@[simp] theorem State.mended_mem_moves : (s.mended l).mem.moves = s.mem.moves := (rfl)
@[simp] theorem State.mended_mem_nextMove : (s.mended l).mem.nextMove = s.mem.nextMove := (rfl)
@[simp] theorem State.mended_mem_cells : (s.mended l).mem.cells = s.mem.cells := (rfl)
@[simp] theorem State.mended_byte (b : Nat) : (s.mended l).byte b = s.byte b := (rfl)
@[simp] theorem State.mended_mem_poison : (s.mended l).mem.poison = s.mem.poison := (rfl)
end

section
variable (s : State) (g : Nat) (x : Nat × Nat × Nat × Bool)
@[simp] theorem State.setGate_pending : (s.setGate g x).pending = s.pending := (rfl)
@[simp] theorem State.setGate_regs : (s.setGate g x).regs = s.regs := (rfl)
@[simp] theorem State.setGate_outbox : (s.setGate g x).outbox = s.outbox := (rfl)
@[simp] theorem State.setGate_clock : (s.setGate g x).clock = s.clock := (rfl)
@[simp] theorem State.setGate_work : (s.setGate g x).work = s.work := (rfl)
@[simp] theorem State.setGate_units : (s.setGate g x).units = s.units := (rfl)
@[simp] theorem State.setGate_dtu : (s.setGate g x).dtu = s.dtu := (rfl)
@[simp] theorem State.setGate_pix : (s.setGate g x).pix = s.pix := (rfl)
@[simp] theorem State.setGate_net : (s.setGate g x).net = s.net := (rfl)
@[simp] theorem State.setGate_sys : (s.setGate g x).sys = s.sys := (rfl)
@[simp] theorem State.setGate_freeCtr : (s.setGate g x).freeCtr = s.freeCtr := (rfl)
@[simp] theorem State.setGate_r (q : Reg) (k : Nat) : (s.setGate g x).r q k = s.r q k := (rfl)
@[simp] theorem State.setGate_f (y : Fld) (k : Nat) : (s.setGate g x).f y k = s.f y k := (rfl)
@[simp] theorem State.setGate_fb (y : Fld) (k : Nat) : (s.setGate g x).fb y k = s.fb y k := (rfl)
@[simp] theorem State.setGate_now : (s.setGate g x).now = s.now := (rfl)
@[simp] theorem State.setGate_arr (k : Nat) : (s.setGate g x).arr k = s.arr k := (rfl)
@[simp] theorem State.setGate_flask (k : Nat) : (s.setGate g x).flask k = s.flask k := (rfl)
@[simp] theorem State.setGate_vec (k : Nat) : (s.setGate g x).vec k = s.vec k := (rfl)
@[simp] theorem State.setGate_rt (k : Nat) : (s.setGate g x).rt k = s.rt k := (rfl)
@[simp] theorem State.setGate_q (k : Nat) : (s.setGate g x).q k = s.q k := (rfl)
@[simp] theorem State.setGate_job (k : Nat) : (s.setGate g x).job k = s.job k := (rfl)
@[simp] theorem State.setGate_ctx (k : Nat) : (s.setGate g x).ctx k = s.ctx k := (rfl)
@[simp] theorem State.setGate_cam (k : Nat) : (s.setGate g x).cam k = s.cam k := (rfl)
@[simp] theorem State.setGate_disp (k : Nat) : (s.setGate g x).disp k = s.disp k := (rfl)
@[simp] theorem State.setGate_canc (k : Nat) : (s.setGate g x).canc k = s.canc k := (rfl)
@[simp] theorem State.setGate_tun (k : Nat) : (s.setGate g x).tun k = s.tun k := (rfl)
@[simp] theorem State.setGate_wport (k : Nat) : (s.setGate g x).wport k = s.wport k := (rfl)
@[simp] theorem State.setGate_fwp (k : Nat) : (s.setGate g x).fwp k = s.fwp k := (rfl)
@[simp] theorem State.setGate_mem_mbx : (s.setGate g x).mem.mbx = s.mem.mbx := (rfl)
@[simp] theorem State.setGate_mem_cache : (s.setGate g x).mem.cache = s.mem.cache := (rfl)
@[simp] theorem State.setGate_mem_holders : (s.setGate g x).mem.holders = s.mem.holders := (rfl)
@[simp] theorem State.setGate_mem_wbs : (s.setGate g x).mem.wbs = s.mem.wbs := (rfl)
@[simp] theorem State.setGate_mem_snoops : (s.setGate g x).mem.snoops = s.mem.snoops := (rfl)
@[simp] theorem State.setGate_mem_useClock : (s.setGate g x).mem.useClock = s.mem.useClock := (rfl)
@[simp] theorem State.setGate_mem_spareArea : (s.setGate g x).mem.spareArea = s.mem.spareArea := (rfl)
@[simp] theorem State.setGate_mem_keys : (s.setGate g x).mem.keys = s.mem.keys := (rfl)
@[simp] theorem State.setGate_mem_homeQ : (s.setGate g x).mem.homeQ = s.mem.homeQ := (rfl)
@[simp] theorem State.setGate_mem_retCh : (s.setGate g x).mem.retCh = s.mem.retCh := (rfl)
@[simp] theorem State.setGate_mem_gateQ : (s.setGate g x).mem.gateQ = s.mem.gateQ := (rfl)
@[simp] theorem State.setGate_mem_gateCfg : (s.setGate g x).mem.gateCfg = s.mem.gateCfg := (rfl)
@[simp] theorem State.setGate_mem_rtCfg : (s.setGate g x).mem.rtCfg = s.mem.rtCfg := (rfl)
@[simp] theorem State.setGate_mem_winCfg : (s.setGate g x).mem.winCfg = s.mem.winCfg := (rfl)
@[simp] theorem State.setGate_mem_moves : (s.setGate g x).mem.moves = s.mem.moves := (rfl)
@[simp] theorem State.setGate_mem_nextMove : (s.setGate g x).mem.nextMove = s.mem.nextMove := (rfl)
@[simp] theorem State.setGate_mem_cells : (s.setGate g x).mem.cells = s.mem.cells := (rfl)
@[simp] theorem State.setGate_byte (b : Nat) : (s.setGate g x).byte b = s.byte b := (rfl)
@[simp] theorem State.setGate_mem_poison : (s.setGate g x).mem.poison = s.mem.poison := (rfl)
@[simp] theorem State.setGate_mem_flips : (s.setGate g x).mem.flips = s.mem.flips := (rfl)
@[simp] theorem State.setGate_mem_chkFlips : (s.setGate g x).mem.chkFlips = s.mem.chkFlips := (rfl)
end

section
variable (s : State) (g : Nat) (x : List Nat)
@[simp] theorem State.setGateWait_pending : (s.setGateWait g x).pending = s.pending := (rfl)
@[simp] theorem State.setGateWait_regs : (s.setGateWait g x).regs = s.regs := (rfl)
@[simp] theorem State.setGateWait_outbox : (s.setGateWait g x).outbox = s.outbox := (rfl)
@[simp] theorem State.setGateWait_clock : (s.setGateWait g x).clock = s.clock := (rfl)
@[simp] theorem State.setGateWait_work : (s.setGateWait g x).work = s.work := (rfl)
@[simp] theorem State.setGateWait_units : (s.setGateWait g x).units = s.units := (rfl)
@[simp] theorem State.setGateWait_dtu : (s.setGateWait g x).dtu = s.dtu := (rfl)
@[simp] theorem State.setGateWait_pix : (s.setGateWait g x).pix = s.pix := (rfl)
@[simp] theorem State.setGateWait_net : (s.setGateWait g x).net = s.net := (rfl)
@[simp] theorem State.setGateWait_sys : (s.setGateWait g x).sys = s.sys := (rfl)
@[simp] theorem State.setGateWait_freeCtr : (s.setGateWait g x).freeCtr = s.freeCtr := (rfl)
@[simp] theorem State.setGateWait_r (q : Reg) (k : Nat) : (s.setGateWait g x).r q k = s.r q k := (rfl)
@[simp] theorem State.setGateWait_f (y : Fld) (k : Nat) : (s.setGateWait g x).f y k = s.f y k := (rfl)
@[simp] theorem State.setGateWait_fb (y : Fld) (k : Nat) : (s.setGateWait g x).fb y k = s.fb y k := (rfl)
@[simp] theorem State.setGateWait_now : (s.setGateWait g x).now = s.now := (rfl)
@[simp] theorem State.setGateWait_arr (k : Nat) : (s.setGateWait g x).arr k = s.arr k := (rfl)
@[simp] theorem State.setGateWait_flask (k : Nat) : (s.setGateWait g x).flask k = s.flask k := (rfl)
@[simp] theorem State.setGateWait_vec (k : Nat) : (s.setGateWait g x).vec k = s.vec k := (rfl)
@[simp] theorem State.setGateWait_rt (k : Nat) : (s.setGateWait g x).rt k = s.rt k := (rfl)
@[simp] theorem State.setGateWait_q (k : Nat) : (s.setGateWait g x).q k = s.q k := (rfl)
@[simp] theorem State.setGateWait_job (k : Nat) : (s.setGateWait g x).job k = s.job k := (rfl)
@[simp] theorem State.setGateWait_ctx (k : Nat) : (s.setGateWait g x).ctx k = s.ctx k := (rfl)
@[simp] theorem State.setGateWait_cam (k : Nat) : (s.setGateWait g x).cam k = s.cam k := (rfl)
@[simp] theorem State.setGateWait_disp (k : Nat) : (s.setGateWait g x).disp k = s.disp k := (rfl)
@[simp] theorem State.setGateWait_canc (k : Nat) : (s.setGateWait g x).canc k = s.canc k := (rfl)
@[simp] theorem State.setGateWait_tun (k : Nat) : (s.setGateWait g x).tun k = s.tun k := (rfl)
@[simp] theorem State.setGateWait_wport (k : Nat) : (s.setGateWait g x).wport k = s.wport k := (rfl)
@[simp] theorem State.setGateWait_fwp (k : Nat) : (s.setGateWait g x).fwp k = s.fwp k := (rfl)
@[simp] theorem State.setGateWait_mem_mbx : (s.setGateWait g x).mem.mbx = s.mem.mbx := (rfl)
@[simp] theorem State.setGateWait_mem_cache : (s.setGateWait g x).mem.cache = s.mem.cache := (rfl)
@[simp] theorem State.setGateWait_mem_holders : (s.setGateWait g x).mem.holders = s.mem.holders := (rfl)
@[simp] theorem State.setGateWait_mem_wbs : (s.setGateWait g x).mem.wbs = s.mem.wbs := (rfl)
@[simp] theorem State.setGateWait_mem_snoops : (s.setGateWait g x).mem.snoops = s.mem.snoops := (rfl)
@[simp] theorem State.setGateWait_mem_useClock : (s.setGateWait g x).mem.useClock = s.mem.useClock := (rfl)
@[simp] theorem State.setGateWait_mem_spareArea : (s.setGateWait g x).mem.spareArea = s.mem.spareArea := (rfl)
@[simp] theorem State.setGateWait_mem_keys : (s.setGateWait g x).mem.keys = s.mem.keys := (rfl)
@[simp] theorem State.setGateWait_mem_homeQ : (s.setGateWait g x).mem.homeQ = s.mem.homeQ := (rfl)
@[simp] theorem State.setGateWait_mem_retCh : (s.setGateWait g x).mem.retCh = s.mem.retCh := (rfl)
@[simp] theorem State.setGateWait_mem_gates : (s.setGateWait g x).mem.gates = s.mem.gates := (rfl)
@[simp] theorem State.setGateWait_mem_gateCfg : (s.setGateWait g x).mem.gateCfg = s.mem.gateCfg := (rfl)
@[simp] theorem State.setGateWait_mem_rtCfg : (s.setGateWait g x).mem.rtCfg = s.mem.rtCfg := (rfl)
@[simp] theorem State.setGateWait_mem_winCfg : (s.setGateWait g x).mem.winCfg = s.mem.winCfg := (rfl)
@[simp] theorem State.setGateWait_mem_moves : (s.setGateWait g x).mem.moves = s.mem.moves := (rfl)
@[simp] theorem State.setGateWait_mem_nextMove : (s.setGateWait g x).mem.nextMove = s.mem.nextMove := (rfl)
@[simp] theorem State.setGateWait_mem_cells : (s.setGateWait g x).mem.cells = s.mem.cells := (rfl)
@[simp] theorem State.setGateWait_byte (b : Nat) : (s.setGateWait g x).byte b = s.byte b := (rfl)
@[simp] theorem State.setGateWait_mem_poison : (s.setGateWait g x).mem.poison = s.mem.poison := (rfl)
@[simp] theorem State.setGateWait_mem_flips : (s.setGateWait g x).mem.flips = s.mem.flips := (rfl)
@[simp] theorem State.setGateWait_mem_chkFlips : (s.setGateWait g x).mem.chkFlips = s.mem.chkFlips := (rfl)
end

section
variable (s : State) (l : Nat)
@[simp] theorem State.lineStored_pending : (s.lineStored l).pending = s.pending := by
  unfold State.lineStored; dsimp only; repeat' split
  all_goals rfl
@[simp] theorem State.lineStored_regs : (s.lineStored l).regs = s.regs := by
  unfold State.lineStored; dsimp only; repeat' split
  all_goals rfl
@[simp] theorem State.lineStored_outbox : (s.lineStored l).outbox = s.outbox := by
  unfold State.lineStored; dsimp only; repeat' split
  all_goals rfl
@[simp] theorem State.lineStored_clock : (s.lineStored l).clock = s.clock := by
  unfold State.lineStored; dsimp only; repeat' split
  all_goals rfl
@[simp] theorem State.lineStored_work : (s.lineStored l).work = s.work := by
  unfold State.lineStored; dsimp only; repeat' split
  all_goals rfl
@[simp] theorem State.lineStored_units : (s.lineStored l).units = s.units := by
  unfold State.lineStored; dsimp only; repeat' split
  all_goals rfl
@[simp] theorem State.lineStored_dtu : (s.lineStored l).dtu = s.dtu := by
  unfold State.lineStored; dsimp only; repeat' split
  all_goals rfl
@[simp] theorem State.lineStored_pix : (s.lineStored l).pix = s.pix := by
  unfold State.lineStored; dsimp only; repeat' split
  all_goals rfl
@[simp] theorem State.lineStored_net : (s.lineStored l).net = s.net := by
  unfold State.lineStored; dsimp only; repeat' split
  all_goals rfl
@[simp] theorem State.lineStored_sys : (s.lineStored l).sys = s.sys := by
  unfold State.lineStored; dsimp only; repeat' split
  all_goals rfl
@[simp] theorem State.lineStored_freeCtr : (s.lineStored l).freeCtr = s.freeCtr := by
  unfold State.lineStored; dsimp only; repeat' split
  all_goals rfl
@[simp] theorem State.lineStored_r (q : Reg) (k : Nat) : (s.lineStored l).r q k = s.r q k := by
  unfold State.lineStored; dsimp only; repeat' split
  all_goals rfl
@[simp] theorem State.lineStored_f (y : Fld) (k : Nat) : (s.lineStored l).f y k = s.f y k := by
  unfold State.lineStored; dsimp only; repeat' split
  all_goals rfl
@[simp] theorem State.lineStored_fb (y : Fld) (k : Nat) : (s.lineStored l).fb y k = s.fb y k := by
  unfold State.lineStored; dsimp only; repeat' split
  all_goals rfl
@[simp] theorem State.lineStored_now : (s.lineStored l).now = s.now := by
  unfold State.lineStored; dsimp only; repeat' split
  all_goals rfl
@[simp] theorem State.lineStored_arr (k : Nat) : (s.lineStored l).arr k = s.arr k := by
  unfold State.lineStored; dsimp only; repeat' split
  all_goals rfl
@[simp] theorem State.lineStored_flask (k : Nat) : (s.lineStored l).flask k = s.flask k := by
  unfold State.lineStored; dsimp only; repeat' split
  all_goals rfl
@[simp] theorem State.lineStored_vec (k : Nat) : (s.lineStored l).vec k = s.vec k := by
  unfold State.lineStored; dsimp only; repeat' split
  all_goals rfl
@[simp] theorem State.lineStored_rt (k : Nat) : (s.lineStored l).rt k = s.rt k := by
  unfold State.lineStored; dsimp only; repeat' split
  all_goals rfl
@[simp] theorem State.lineStored_q (k : Nat) : (s.lineStored l).q k = s.q k := by
  unfold State.lineStored; dsimp only; repeat' split
  all_goals rfl
@[simp] theorem State.lineStored_job (k : Nat) : (s.lineStored l).job k = s.job k := by
  unfold State.lineStored; dsimp only; repeat' split
  all_goals rfl
@[simp] theorem State.lineStored_ctx (k : Nat) : (s.lineStored l).ctx k = s.ctx k := by
  unfold State.lineStored; dsimp only; repeat' split
  all_goals rfl
@[simp] theorem State.lineStored_cam (k : Nat) : (s.lineStored l).cam k = s.cam k := by
  unfold State.lineStored; dsimp only; repeat' split
  all_goals rfl
@[simp] theorem State.lineStored_disp (k : Nat) : (s.lineStored l).disp k = s.disp k := by
  unfold State.lineStored; dsimp only; repeat' split
  all_goals rfl
@[simp] theorem State.lineStored_canc (k : Nat) : (s.lineStored l).canc k = s.canc k := by
  unfold State.lineStored; dsimp only; repeat' split
  all_goals rfl
@[simp] theorem State.lineStored_tun (k : Nat) : (s.lineStored l).tun k = s.tun k := by
  unfold State.lineStored; dsimp only; repeat' split
  all_goals rfl
@[simp] theorem State.lineStored_wport (k : Nat) : (s.lineStored l).wport k = s.wport k := by
  unfold State.lineStored; dsimp only; repeat' split
  all_goals rfl
@[simp] theorem State.lineStored_fwp (k : Nat) : (s.lineStored l).fwp k = s.fwp k := by
  unfold State.lineStored; dsimp only; repeat' split
  all_goals rfl
@[simp] theorem State.lineStored_mem_mbx : (s.lineStored l).mem.mbx = s.mem.mbx := by
  unfold State.lineStored; dsimp only; repeat' split
  all_goals rfl
@[simp] theorem State.lineStored_mem_cache : (s.lineStored l).mem.cache = s.mem.cache := by
  unfold State.lineStored; dsimp only; repeat' split
  all_goals rfl
@[simp] theorem State.lineStored_mem_holders : (s.lineStored l).mem.holders = s.mem.holders := by
  unfold State.lineStored; dsimp only; repeat' split
  all_goals rfl
@[simp] theorem State.lineStored_mem_wbs : (s.lineStored l).mem.wbs = s.mem.wbs := by
  unfold State.lineStored; dsimp only; repeat' split
  all_goals rfl
@[simp] theorem State.lineStored_mem_snoops : (s.lineStored l).mem.snoops = s.mem.snoops := by
  unfold State.lineStored; dsimp only; repeat' split
  all_goals rfl
@[simp] theorem State.lineStored_mem_useClock : (s.lineStored l).mem.useClock = s.mem.useClock := by
  unfold State.lineStored; dsimp only; repeat' split
  all_goals rfl
@[simp] theorem State.lineStored_mem_spareArea : (s.lineStored l).mem.spareArea = s.mem.spareArea := by
  unfold State.lineStored; dsimp only; repeat' split
  all_goals rfl
@[simp] theorem State.lineStored_mem_keys : (s.lineStored l).mem.keys = s.mem.keys := by
  unfold State.lineStored; dsimp only; repeat' split
  all_goals rfl
@[simp] theorem State.lineStored_mem_homeQ : (s.lineStored l).mem.homeQ = s.mem.homeQ := by
  unfold State.lineStored; dsimp only; repeat' split
  all_goals rfl
@[simp] theorem State.lineStored_mem_retCh : (s.lineStored l).mem.retCh = s.mem.retCh := by
  unfold State.lineStored; dsimp only; repeat' split
  all_goals rfl
@[simp] theorem State.lineStored_mem_gates : (s.lineStored l).mem.gates = s.mem.gates := by
  unfold State.lineStored; dsimp only; repeat' split
  all_goals rfl
@[simp] theorem State.lineStored_mem_gateQ : (s.lineStored l).mem.gateQ = s.mem.gateQ := by
  unfold State.lineStored; dsimp only; repeat' split
  all_goals rfl
@[simp] theorem State.lineStored_mem_gateCfg : (s.lineStored l).mem.gateCfg = s.mem.gateCfg := by
  unfold State.lineStored; dsimp only; repeat' split
  all_goals rfl
@[simp] theorem State.lineStored_mem_rtCfg : (s.lineStored l).mem.rtCfg = s.mem.rtCfg := by
  unfold State.lineStored; dsimp only; repeat' split
  all_goals rfl
@[simp] theorem State.lineStored_mem_winCfg : (s.lineStored l).mem.winCfg = s.mem.winCfg := by
  unfold State.lineStored; dsimp only; repeat' split
  all_goals rfl
@[simp] theorem State.lineStored_mem_moves : (s.lineStored l).mem.moves = s.mem.moves := by
  unfold State.lineStored; dsimp only; repeat' split
  all_goals rfl
@[simp] theorem State.lineStored_mem_nextMove : (s.lineStored l).mem.nextMove = s.mem.nextMove := by
  unfold State.lineStored; dsimp only; repeat' split
  all_goals rfl
end

/-! ## What the touched field reads as -/

/-- A register read is below 2^64. -/
theorem State.r_lt (s : State) (g : Reg) (i : Nat) : s.r g i < 2 ^ 64 := BitVec.isLt _

theorem putReg_find (m : NMap Word) (g q : Reg) (i j : Nat) (w : Word) :
    (NMap.find (putReg m g i w) (q.key j)).getD (q.reset j)
      = if q = g ∧ j = i then w else (NMap.find m (q.key j)).getD (q.reset j) := by
  unfold putReg
  by_cases h : q = g ∧ j = i
  · obtain ⟨rfl, rfl⟩ := h
    split
    · subst ‹w = _›; simp [NMap.find_erase]
    · simp [NMap.find_insert]
  · have hk : ¬ q.key j = g.key i := fun e => h ((Reg.key_inj q g j i).mp e)
    rw [if_neg h]; split <;> simp [NMap.find_erase, NMap.find_insert, hk]

/-- A register after a write by hardware. -/
@[simp] theorem State.setR_r (s : State) (g q : Reg) (i j v : Nat) :
    (s.setR g i v).r q j = if q = g ∧ j = i then v % 2 ^ 64 else s.r q j := by
  unfold State.r State.setR
  simp only [putReg_find]
  split <;> simp

theorem State.setF_r (s : State) (x : Fld) (q : Reg) (i j v : Nat) :
    (s.setF x i v).r q j =
      if q = x.reg ∧ j = i then putBits (s.r x.reg i) x.hi x.lo v % 2 ^ 64 else s.r q j := by
  unfold State.setF; rw [State.setR_r]

/-- A register of another map, or another occurrence, is not touched by a write of a field. -/
theorem State.setF_r_ne (s : State) (x : Fld) (q : Reg) (i j v : Nat) (h : ¬ (q = x.reg ∧ j = i)) :
    (s.setF x i v).r q j = s.r q j := by rw [State.setF_r, if_neg h]

/-- A field is well placed: its bits lie in the register, low end first. -/
abbrev Fld.fits (x : Fld) : Prop := x.lo ≤ x.hi ∧ x.hi < 64

theorem State.setF_r_same (s : State) (x : Fld) (i v : Nat) (h : x.fits) :
    (s.setF x i v).r x.reg i = putBits (s.r x.reg i) x.hi x.lo v := by
  rw [State.setF_r, if_pos ⟨rfl, rfl⟩]
  exact Nat.mod_eq_of_lt (putBits_lt _ _ _ _ (by have := h.1; omega) h.2 (s.r_lt _ _))

/-- A field read back after it was written. -/
theorem State.setF_f_same (s : State) (x : Fld) (i v : Nat) (h : x.fits) :
    (s.setF x i v).f x i = v % 2 ^ (x.hi + 1 - x.lo) := by
  unfold State.f
  rw [State.setF_r_same s x i v h, bits_putBits _ _ _ _ (by have := h.1; omega)]

/-- A field of every occurrence after one was written. -/
theorem State.setF_f (s : State) (x : Fld) (i j v : Nat) (h : x.fits) :
    (s.setF x i v).f x j = if j = i then v % 2 ^ (x.hi + 1 - x.lo) else s.f x j := by
  by_cases e : j = i
  · subst e; rw [if_pos rfl, State.setF_f_same s x j v h]
  · rw [if_neg e]; unfold State.f; rw [State.setF_r_ne s x x.reg i j v (fun q => e q.2)]

/-- Fields that lie apart: another map, or other bits. -/
abbrev Fld.apart (x y : Fld) : Prop := y.reg ≠ x.reg ∨ x.hi < y.lo ∨ (y.hi < x.lo ∧ y.lo ≤ y.hi)

/-- A field that lies apart is not touched. -/
theorem State.setF_f_apart (s : State) (x y : Fld) (i j v : Nat) (h : x.fits) (ha : x.apart y) :
    (s.setF x i v).f y j = s.f y j := by
  unfold State.f
  by_cases hr : y.reg = x.reg ∧ j = i
  · obtain ⟨e1, rfl⟩ := hr
    rw [e1, State.setF_r_same s x j v h]
    rcases ha with ha | ha | ha
    · exact absurd e1 ha
    · exact bits_putBits_above _ _ _ _ _ _ (by have := h.1; omega) ha
    · exact bits_putBits_below _ _ _ _ _ _ (by have := h.1; omega) ha.1
  · rw [State.setF_r_ne s x y.reg i j v hr]

@[simp] theorem State.emit_outbox (s : State) (o : Out) : (s.emit o).outbox = o :: s.outbox := (rfl)

@[simp] theorem State.setArr_arr (s : State) (a b : Nat) (x : ArraySt) :
    (s.setArr a x).arr b = if b = a then x else s.arr b := NMap.get_set _ _ _ _ _

@[simp] theorem State.modArr_arr (s : State) (a b : Nat) (f : ArraySt → ArraySt) :
    (s.modArr a f).arr b = if b = a then f (s.arr a) else s.arr b := NMap.get_set _ _ _ _ _

@[simp] theorem State.modFlask_flask (s : State) (f h : Nat) (g : FlaskSt → FlaskSt) :
    (s.modFlask f g).flask h = if h = f then g (s.flask f) else s.flask h := NMap.get_set _ _ _ _ _

@[simp] theorem State.modVec_vec (s : State) (e h : Nat) (g : VecSt → VecSt) :
    (s.modVec e g).vec h = if h = e then g (s.vec e) else s.vec h := NMap.get_set _ _ _ _ _

@[simp] theorem State.modRt_rt (s : State) (e h : Nat) (g : RtSt → RtSt) :
    (s.modRt e g).rt h = if h = e then g (s.rt e) else s.rt h := NMap.get_set _ _ _ _ _

@[simp] theorem State.modQ_q (s : State) (e h : Nat) (g : QueueSt → QueueSt) :
    (s.modQ e g).q h = if h = e then g (s.q e) else s.q h := NMap.get_set _ _ _ _ _

@[simp] theorem State.setCtx_ctx (s : State) (e h : Nat) (x : Ctx) :
    (s.setCtx e x).ctx h = if h = e then x else s.ctx h := NMap.get_set _ _ _ _ _

@[simp] theorem State.modCam_cam (s : State) (e h : Nat) (g : CamSt → CamSt) :
    (s.modCam e g).cam h = if h = e then g (s.cam e) else s.cam h := NMap.get_set _ _ _ _ _

@[simp] theorem State.modDisp_disp (s : State) (e h : Nat) (g : DispSt → DispSt) :
    (s.modDisp e g).disp h = if h = e then g (s.disp e) else s.disp h := NMap.get_set _ _ _ _ _

@[simp] theorem State.modCan_canc (s : State) (e h : Nat) (g : CanSt → CanSt) :
    (s.modCan e g).canc h = if h = e then g (s.canc e) else s.canc h := NMap.get_set _ _ _ _ _

@[simp] theorem State.modTun_tun (s : State) (e h : Nat) (g : Tunnel → Tunnel) :
    (s.modTun e g).tun h = if h = e then g (s.tun e) else s.tun h := NMap.get_set _ _ _ _ _

@[simp] theorem State.modWsk_wport (s : State) (e h : Nat) (g : WskSt → WskSt) :
    (s.modWsk e g).wport h = if h = e then g (s.wport e) else s.wport h := NMap.get_set _ _ _ _ _

@[simp] theorem State.modFw_fwp (s : State) (e h : Nat) (g : FwProc → FwProc) :
    (s.modFw e g).fwp h = if h = e then g (s.fwp e) else s.fwp h := NMap.get_set _ _ _ _ _

@[simp] theorem State.modRec_record (s : State) (g : FieldRecord → FieldRecord) :
    (s.modRec g).sys.record = g s.sys.record := (rfl)

@[simp] theorem State.modPower_power (s : State) (g : PowerSt → PowerSt) :
    (s.modPower g).sys.power = g s.sys.power := (rfl)

@[simp] theorem State.modTrust_trust (s : State) (g : TrustSt → TrustSt) :
    (s.modTrust g).sys.trust = g s.sys.trust := (rfl)

@[simp] theorem State.modPour_pour (s : State) (g : PourSt → PourSt) :
    (s.modPour g).units.pour = g s.units.pour := (rfl)

theorem State.modJob_job (s : State) (j : Nat) (g : Job → Job) (hg : ∀ x, (g x).id = x.id) (x : Job)
    (h : s.job j = some x) : (s.modJob j g).job j = some (g x) := by
  unfold State.job State.modJob at *
  simp only at *
  generalize s.work.jobs = js at h
  induction js with
  | nil => simp at h
  | cons y ys ih =>
    by_cases hy : y.id = j
    · rw [List.find?_cons_of_pos (by simpa using hy)] at h
      cases h
      rw [List.map_cons, if_pos hy, List.find?_cons_of_pos (by simpa [hg] using hy)]
    · rw [List.find?_cons_of_neg (by simpa using hy)] at h
      rw [List.map_cons, if_neg hy, List.find?_cons_of_neg (by simpa using hy)]
      exact ih h

/-! ## Memory -/

theorem putBytes_get (m : List Host.Cell) (bs : List Byte) : ∀ a b,
    NMap.get (putBytes m a bs) 0 b = if a ≤ b ∧ b < a + bs.length then bs.getD (b - a) 0 else NMap.get m 0 b := by
  induction bs generalizing m with
  | nil => intro a b; simp [putBytes]
  | cons x xs ih =>
    intro a b
    unfold putBytes
    rw [ih]
    unfold putByte
    rw [NMap.get_set, List.length_cons]
    by_cases h1 : a + 1 ≤ b ∧ b < a + 1 + xs.length
    · have h2 : a ≤ b ∧ b < a + (xs.length + 1) := by omega
      have h3 : b - a = (b - (a + 1)) + 1 := by omega
      rw [if_pos h1, if_pos h2, h3, List.getD_cons_succ]
    · rw [if_neg h1]
      by_cases h2 : b = a
      · subst h2; simp
      · have h3 : ¬ (a ≤ b ∧ b < a + (xs.length + 1)) := by omega
        rw [if_neg h2, if_neg h3]

/-- A byte after a store. -/
theorem State.store_byte (s : State) (a : Nat) (bs : List Byte) (b : Nat) :
    (s.store a bs).byte b = if a ≤ b ∧ b < a + bs.length then bs.getD (b - a) 0 else s.byte b :=
  putBytes_get _ _ _ _

/-- A store leaves every byte outside its range. -/
theorem State.store_byte_outside (s : State) (a : Nat) (bs : List Byte) (b : Nat)
    (h : ¬ (a ≤ b ∧ b < a + bs.length)) : (s.store a bs).byte b = s.byte b := by
  rw [State.store_byte, if_neg h]

theorem Memory.wf_putByte (m : List Host.Cell) (a : Nat) (b : Byte) (h : Memory.wf m = true) :
    Memory.wf (putByte m a b) = true := NMap.wf_set _ _ _ _ h

theorem Memory.wf_putBytes (bs : List Byte) : ∀ m a, Memory.wf m = true → Memory.wf (putBytes m a bs) = true := by
  induction bs with
  | nil => intro m a h; exact h
  | cons b bs ih => intro m a h; exact ih _ _ (Memory.wf_putByte m a b h)

/-- Every store keeps the canonical form of the memory. -/
theorem State.store_wf (s : State) (a : Nat) (bs : List Byte) (h : Memory.wf s.mem.cells = true) :
    Memory.wf (s.store a bs).mem.cells = true := Memory.wf_putBytes bs _ _ h

/-! ## Order of field access -/

theorem State.fb_eq (s : State) (x : Fld) (i : Nat) : s.fb x i = (s.f x i == 1) := (rfl)

theorem State.incSat_eq (s : State) (x : Fld) (i n : Nat) :
    s.incSat x i n = s.setF x i (min (s.f x i + n) x.top) := (rfl)

theorem State.incWrap_eq (s : State) (x : Fld) (i n : Nat) : s.incWrap x i n = s.setF x i (s.f x i + n) := (rfl)

@[simp] theorem State.whenB_true (s : State) (g : State → State) : s.whenB true g = g s := (rfl)
@[simp] theorem State.whenB_false (s : State) (g : State → State) : s.whenB false g = s := (rfl)

@[simp] theorem unit_true (s t : State) : unit s true t = .next t := (rfl)
@[simp] theorem unit_false (s t : State) : unit s false t = .next s := (rfl)

end Sys2Proof.Machine
end

