-- ==== Sys2Proof/Laws/Ops.lean ====
section
/-! SUPPORT. What each shared operation over flags, interrupts and the event log can do, and what it leaves. -/

namespace Sys2Proof.Machine

section
variable (s : State) (m n : Nat)
@[simp] theorem State.mgrIrq_pending : (s.mgrIrq m n).pending = s.pending := by unfold State.mgrIrq; split <;> rfl
@[simp] theorem State.mgrIrq_regs : (s.mgrIrq m n).regs = s.regs := by unfold State.mgrIrq; split <;> rfl
@[simp] theorem State.mgrIrq_clock : (s.mgrIrq m n).clock = s.clock := by unfold State.mgrIrq; split <;> rfl
@[simp] theorem State.mgrIrq_mem : (s.mgrIrq m n).mem = s.mem := by unfold State.mgrIrq; split <;> rfl
@[simp] theorem State.mgrIrq_work : (s.mgrIrq m n).work = s.work := by unfold State.mgrIrq; split <;> rfl
@[simp] theorem State.mgrIrq_units : (s.mgrIrq m n).units = s.units := by unfold State.mgrIrq; split <;> rfl
@[simp] theorem State.mgrIrq_dtu : (s.mgrIrq m n).dtu = s.dtu := by unfold State.mgrIrq; split <;> rfl
@[simp] theorem State.mgrIrq_pix : (s.mgrIrq m n).pix = s.pix := by unfold State.mgrIrq; split <;> rfl
@[simp] theorem State.mgrIrq_net : (s.mgrIrq m n).net = s.net := by unfold State.mgrIrq; split <;> rfl
@[simp] theorem State.mgrIrq_freeCtr : (s.mgrIrq m n).freeCtr = s.freeCtr := by unfold State.mgrIrq; split <;> rfl
@[simp] theorem State.mgrIrq_power : (s.mgrIrq m n).sys.power = s.sys.power := by unfold State.mgrIrq; split <;> rfl
@[simp] theorem State.mgrIrq_record : (s.mgrIrq m n).sys.record = s.sys.record := by unfold State.mgrIrq; split <;> rfl
@[simp] theorem State.mgrIrq_store : (s.mgrIrq m n).sys.store = s.sys.store := by unfold State.mgrIrq; split <;> rfl
@[simp] theorem State.mgrIrq_trust : (s.mgrIrq m n).sys.trust = s.sys.trust := by unfold State.mgrIrq; split <;> rfl
@[simp] theorem State.mgrIrq_fw : (s.mgrIrq m n).sys.fw = s.sys.fw := by unfold State.mgrIrq; split <;> rfl
@[simp] theorem State.mgrIrq_jtag : (s.mgrIrq m n).sys.jtag = s.sys.jtag := by unfold State.mgrIrq; split <;> rfl
@[simp] theorem State.mgrIrq_chain : (s.mgrIrq m n).sys.chain = s.sys.chain := by unfold State.mgrIrq; split <;> rfl
@[simp] theorem State.mgrIrq_r (y : Reg) (k : Nat) : (s.mgrIrq m n).r y k = s.r y k := by unfold State.r; rw [State.mgrIrq_regs]
@[simp] theorem State.mgrIrq_f (y : Fld) (k : Nat) : (s.mgrIrq m n).f y k = s.f y k := by unfold State.f; rw [State.mgrIrq_r]
@[simp] theorem State.mgrIrq_fb (y : Fld) (k : Nat) : (s.mgrIrq m n).fb y k = s.fb y k := by unfold State.fb; rw [State.mgrIrq_f]
@[simp] theorem State.mgrIrq_arr (k : Nat) : (s.mgrIrq m n).arr k = s.arr k := by unfold State.arr; rw [State.mgrIrq_units]
@[simp] theorem State.mgrIrq_flask (k : Nat) : (s.mgrIrq m n).flask k = s.flask k := by unfold State.flask; rw [State.mgrIrq_units]
@[simp] theorem State.mgrIrq_vec (k : Nat) : (s.mgrIrq m n).vec k = s.vec k := by unfold State.vec; rw [State.mgrIrq_units]
@[simp] theorem State.mgrIrq_rt (k : Nat) : (s.mgrIrq m n).rt k = s.rt k := by unfold State.rt; rw [State.mgrIrq_units]
@[simp] theorem State.mgrIrq_q (k : Nat) : (s.mgrIrq m n).q k = s.q k := by unfold State.q; rw [State.mgrIrq_work]
@[simp] theorem State.mgrIrq_job (k : Nat) : (s.mgrIrq m n).job k = s.job k := by unfold State.job; rw [State.mgrIrq_work]
@[simp] theorem State.mgrIrq_ctx (k : Nat) : (s.mgrIrq m n).ctx k = s.ctx k := by unfold State.ctx; rw [State.mgrIrq_work]
@[simp] theorem State.mgrIrq_cam (k : Nat) : (s.mgrIrq m n).cam k = s.cam k := by unfold State.cam; rw [State.mgrIrq_pix]
@[simp] theorem State.mgrIrq_disp (k : Nat) : (s.mgrIrq m n).disp k = s.disp k := by unfold State.disp; rw [State.mgrIrq_pix]
@[simp] theorem State.mgrIrq_canc (k : Nat) : (s.mgrIrq m n).canc k = s.canc k := by unfold State.canc; rw [State.mgrIrq_net]
@[simp] theorem State.mgrIrq_tun (k : Nat) : (s.mgrIrq m n).tun k = s.tun k := by unfold State.tun; rw [State.mgrIrq_net]
@[simp] theorem State.mgrIrq_wport (k : Nat) : (s.mgrIrq m n).wport k = s.wport k := by unfold State.wport; rw [State.mgrIrq_net]
@[simp] theorem State.mgrIrq_now : (s.mgrIrq m n).now = s.now := by unfold State.now; rw [State.mgrIrq_clock]
@[simp] theorem State.mgrIrq_byte (k : Nat) : (s.mgrIrq m n).byte k = s.byte k := by unfold State.byte; rw [State.mgrIrq_mem]
end

section
variable (s : State) (c u d : Nat)
@[simp] theorem State.logEvent_pending : (s.logEvent c u d).pending = s.pending := (rfl)
@[simp] theorem State.logEvent_regs : (s.logEvent c u d).regs = s.regs := (rfl)
@[simp] theorem State.logEvent_outbox : (s.logEvent c u d).outbox = s.outbox := (rfl)
@[simp] theorem State.logEvent_clock : (s.logEvent c u d).clock = s.clock := (rfl)
@[simp] theorem State.logEvent_mem : (s.logEvent c u d).mem = s.mem := (rfl)
@[simp] theorem State.logEvent_work : (s.logEvent c u d).work = s.work := (rfl)
@[simp] theorem State.logEvent_units : (s.logEvent c u d).units = s.units := (rfl)
@[simp] theorem State.logEvent_dtu : (s.logEvent c u d).dtu = s.dtu := (rfl)
@[simp] theorem State.logEvent_pix : (s.logEvent c u d).pix = s.pix := (rfl)
@[simp] theorem State.logEvent_net : (s.logEvent c u d).net = s.net := (rfl)
@[simp] theorem State.logEvent_freeCtr : (s.logEvent c u d).freeCtr = s.freeCtr := (rfl)
@[simp] theorem State.logEvent_power : (s.logEvent c u d).sys.power = s.sys.power := (rfl)
@[simp] theorem State.logEvent_store : (s.logEvent c u d).sys.store = s.sys.store := (rfl)
@[simp] theorem State.logEvent_trust : (s.logEvent c u d).sys.trust = s.sys.trust := (rfl)
@[simp] theorem State.logEvent_fw : (s.logEvent c u d).sys.fw = s.sys.fw := (rfl)
@[simp] theorem State.logEvent_jtag : (s.logEvent c u d).sys.jtag = s.sys.jtag := (rfl)
@[simp] theorem State.logEvent_chain : (s.logEvent c u d).sys.chain = s.sys.chain := (rfl)
@[simp] theorem State.logEvent_keptIrqs : (s.logEvent c u d).sys.keptIrqs = s.sys.keptIrqs := (rfl)
@[simp] theorem State.logEvent_r (y : Reg) (k : Nat) : (s.logEvent c u d).r y k = s.r y k := by unfold State.r; rw [State.logEvent_regs]
@[simp] theorem State.logEvent_f (y : Fld) (k : Nat) : (s.logEvent c u d).f y k = s.f y k := by unfold State.f; rw [State.logEvent_r]
@[simp] theorem State.logEvent_fb (y : Fld) (k : Nat) : (s.logEvent c u d).fb y k = s.fb y k := by unfold State.fb; rw [State.logEvent_f]
@[simp] theorem State.logEvent_arr (k : Nat) : (s.logEvent c u d).arr k = s.arr k := by unfold State.arr; rw [State.logEvent_units]
@[simp] theorem State.logEvent_flask (k : Nat) : (s.logEvent c u d).flask k = s.flask k := by unfold State.flask; rw [State.logEvent_units]
@[simp] theorem State.logEvent_vec (k : Nat) : (s.logEvent c u d).vec k = s.vec k := by unfold State.vec; rw [State.logEvent_units]
@[simp] theorem State.logEvent_rt (k : Nat) : (s.logEvent c u d).rt k = s.rt k := by unfold State.rt; rw [State.logEvent_units]
@[simp] theorem State.logEvent_q (k : Nat) : (s.logEvent c u d).q k = s.q k := by unfold State.q; rw [State.logEvent_work]
@[simp] theorem State.logEvent_job (k : Nat) : (s.logEvent c u d).job k = s.job k := by unfold State.job; rw [State.logEvent_work]
@[simp] theorem State.logEvent_ctx (k : Nat) : (s.logEvent c u d).ctx k = s.ctx k := by unfold State.ctx; rw [State.logEvent_work]
@[simp] theorem State.logEvent_cam (k : Nat) : (s.logEvent c u d).cam k = s.cam k := by unfold State.cam; rw [State.logEvent_pix]
@[simp] theorem State.logEvent_disp (k : Nat) : (s.logEvent c u d).disp k = s.disp k := by unfold State.disp; rw [State.logEvent_pix]
@[simp] theorem State.logEvent_canc (k : Nat) : (s.logEvent c u d).canc k = s.canc k := by unfold State.canc; rw [State.logEvent_net]
@[simp] theorem State.logEvent_tun (k : Nat) : (s.logEvent c u d).tun k = s.tun k := by unfold State.tun; rw [State.logEvent_net]
@[simp] theorem State.logEvent_wport (k : Nat) : (s.logEvent c u d).wport k = s.wport k := by unfold State.wport; rw [State.logEvent_net]
@[simp] theorem State.logEvent_now : (s.logEvent c u d).now = s.now := by unfold State.now; rw [State.logEvent_clock]
@[simp] theorem State.logEvent_byte (k : Nat) : (s.logEvent c u d).byte k = s.byte k := by unfold State.byte; rw [State.logEvent_mem]
end

section
variable (s : State) (k : Nat)
@[simp] theorem State.recCount_pending : (s.recCount k).pending = s.pending := (rfl)
@[simp] theorem State.recCount_regs : (s.recCount k).regs = s.regs := (rfl)
@[simp] theorem State.recCount_outbox : (s.recCount k).outbox = s.outbox := (rfl)
@[simp] theorem State.recCount_clock : (s.recCount k).clock = s.clock := (rfl)
@[simp] theorem State.recCount_mem : (s.recCount k).mem = s.mem := (rfl)
@[simp] theorem State.recCount_work : (s.recCount k).work = s.work := (rfl)
@[simp] theorem State.recCount_units : (s.recCount k).units = s.units := (rfl)
@[simp] theorem State.recCount_dtu : (s.recCount k).dtu = s.dtu := (rfl)
@[simp] theorem State.recCount_pix : (s.recCount k).pix = s.pix := (rfl)
@[simp] theorem State.recCount_net : (s.recCount k).net = s.net := (rfl)
@[simp] theorem State.recCount_freeCtr : (s.recCount k).freeCtr = s.freeCtr := (rfl)
@[simp] theorem State.recCount_power : (s.recCount k).sys.power = s.sys.power := (rfl)
@[simp] theorem State.recCount_store : (s.recCount k).sys.store = s.sys.store := (rfl)
@[simp] theorem State.recCount_trust : (s.recCount k).sys.trust = s.sys.trust := (rfl)
@[simp] theorem State.recCount_fw : (s.recCount k).sys.fw = s.sys.fw := (rfl)
@[simp] theorem State.recCount_jtag : (s.recCount k).sys.jtag = s.sys.jtag := (rfl)
@[simp] theorem State.recCount_chain : (s.recCount k).sys.chain = s.sys.chain := (rfl)
@[simp] theorem State.recCount_keptIrqs : (s.recCount k).sys.keptIrqs = s.sys.keptIrqs := (rfl)
@[simp] theorem State.recCount_r (y : Reg) (k : Nat) : (s.recCount k).r y k = s.r y k := by unfold State.r; rw [State.recCount_regs]
@[simp] theorem State.recCount_f (y : Fld) (k : Nat) : (s.recCount k).f y k = s.f y k := by unfold State.f; rw [State.recCount_r]
@[simp] theorem State.recCount_fb (y : Fld) (k : Nat) : (s.recCount k).fb y k = s.fb y k := by unfold State.fb; rw [State.recCount_f]
@[simp] theorem State.recCount_arr (k : Nat) : (s.recCount k).arr k = s.arr k := by unfold State.arr; rw [State.recCount_units]
@[simp] theorem State.recCount_flask (k : Nat) : (s.recCount k).flask k = s.flask k := by unfold State.flask; rw [State.recCount_units]
@[simp] theorem State.recCount_vec (k : Nat) : (s.recCount k).vec k = s.vec k := by unfold State.vec; rw [State.recCount_units]
@[simp] theorem State.recCount_rt (k : Nat) : (s.recCount k).rt k = s.rt k := by unfold State.rt; rw [State.recCount_units]
@[simp] theorem State.recCount_q (k : Nat) : (s.recCount k).q k = s.q k := by unfold State.q; rw [State.recCount_work]
@[simp] theorem State.recCount_job (k : Nat) : (s.recCount k).job k = s.job k := by unfold State.job; rw [State.recCount_work]
@[simp] theorem State.recCount_ctx (k : Nat) : (s.recCount k).ctx k = s.ctx k := by unfold State.ctx; rw [State.recCount_work]
@[simp] theorem State.recCount_cam (k : Nat) : (s.recCount k).cam k = s.cam k := by unfold State.cam; rw [State.recCount_pix]
@[simp] theorem State.recCount_disp (k : Nat) : (s.recCount k).disp k = s.disp k := by unfold State.disp; rw [State.recCount_pix]
@[simp] theorem State.recCount_canc (k : Nat) : (s.recCount k).canc k = s.canc k := by unfold State.canc; rw [State.recCount_net]
@[simp] theorem State.recCount_tun (k : Nat) : (s.recCount k).tun k = s.tun k := by unfold State.tun; rw [State.recCount_net]
@[simp] theorem State.recCount_wport (k : Nat) : (s.recCount k).wport k = s.wport k := by unfold State.wport; rw [State.recCount_net]
@[simp] theorem State.recCount_now : (s.recCount k).now = s.now := by unfold State.now; rw [State.recCount_clock]
@[simp] theorem State.recCount_byte (k : Nat) : (s.recCount k).byte k = s.byte k := by unfold State.byte; rw [State.recCount_mem]
end

section
variable (s : State) (n : String) (l : Bool)
@[simp] theorem State.safePin_pending : (s.safePin n l).pending = s.pending := by unfold State.safePin; split <;> rfl
@[simp] theorem State.safePin_regs : (s.safePin n l).regs = s.regs := by unfold State.safePin; split <;> rfl
@[simp] theorem State.safePin_clock : (s.safePin n l).clock = s.clock := by unfold State.safePin; split <;> rfl
@[simp] theorem State.safePin_mem : (s.safePin n l).mem = s.mem := by unfold State.safePin; split <;> rfl
@[simp] theorem State.safePin_work : (s.safePin n l).work = s.work := by unfold State.safePin; split <;> rfl
@[simp] theorem State.safePin_units : (s.safePin n l).units = s.units := by unfold State.safePin; split <;> rfl
@[simp] theorem State.safePin_dtu : (s.safePin n l).dtu = s.dtu := by unfold State.safePin; split <;> rfl
@[simp] theorem State.safePin_pix : (s.safePin n l).pix = s.pix := by unfold State.safePin; split <;> rfl
@[simp] theorem State.safePin_net : (s.safePin n l).net = s.net := by unfold State.safePin; split <;> rfl
@[simp] theorem State.safePin_sys : (s.safePin n l).sys = s.sys := by unfold State.safePin; split <;> rfl
@[simp] theorem State.safePin_freeCtr : (s.safePin n l).freeCtr = s.freeCtr := by unfold State.safePin; split <;> rfl
@[simp] theorem State.safePin_power : (s.safePin n l).sys.power = s.sys.power := by unfold State.safePin; split <;> rfl
@[simp] theorem State.safePin_r (y : Reg) (k : Nat) : (s.safePin n l).r y k = s.r y k := by unfold State.r; rw [State.safePin_regs]
@[simp] theorem State.safePin_f (y : Fld) (k : Nat) : (s.safePin n l).f y k = s.f y k := by unfold State.f; rw [State.safePin_r]
@[simp] theorem State.safePin_fb (y : Fld) (k : Nat) : (s.safePin n l).fb y k = s.fb y k := by unfold State.fb; rw [State.safePin_f]
@[simp] theorem State.safePin_arr (k : Nat) : (s.safePin n l).arr k = s.arr k := by unfold State.arr; rw [State.safePin_units]
@[simp] theorem State.safePin_flask (k : Nat) : (s.safePin n l).flask k = s.flask k := by unfold State.flask; rw [State.safePin_units]
@[simp] theorem State.safePin_vec (k : Nat) : (s.safePin n l).vec k = s.vec k := by unfold State.vec; rw [State.safePin_units]
@[simp] theorem State.safePin_rt (k : Nat) : (s.safePin n l).rt k = s.rt k := by unfold State.rt; rw [State.safePin_units]
@[simp] theorem State.safePin_q (k : Nat) : (s.safePin n l).q k = s.q k := by unfold State.q; rw [State.safePin_work]
@[simp] theorem State.safePin_job (k : Nat) : (s.safePin n l).job k = s.job k := by unfold State.job; rw [State.safePin_work]
@[simp] theorem State.safePin_ctx (k : Nat) : (s.safePin n l).ctx k = s.ctx k := by unfold State.ctx; rw [State.safePin_work]
@[simp] theorem State.safePin_cam (k : Nat) : (s.safePin n l).cam k = s.cam k := by unfold State.cam; rw [State.safePin_pix]
@[simp] theorem State.safePin_disp (k : Nat) : (s.safePin n l).disp k = s.disp k := by unfold State.disp; rw [State.safePin_pix]
@[simp] theorem State.safePin_canc (k : Nat) : (s.safePin n l).canc k = s.canc k := by unfold State.canc; rw [State.safePin_net]
@[simp] theorem State.safePin_tun (k : Nat) : (s.safePin n l).tun k = s.tun k := by unfold State.tun; rw [State.safePin_net]
@[simp] theorem State.safePin_wport (k : Nat) : (s.safePin n l).wport k = s.wport k := by unfold State.wport; rw [State.safePin_net]
@[simp] theorem State.safePin_now : (s.safePin n l).now = s.now := by unfold State.now; rw [State.safePin_clock]
@[simp] theorem State.safePin_byte (k : Nat) : (s.safePin n l).byte k = s.byte k := by unfold State.byte; rw [State.safePin_mem]
end

section
variable (s : State) 
@[simp] theorem State.assertFlt_pending : (s.assertFlt).pending = s.pending := by unfold State.assertFlt; split <;> simp
@[simp] theorem State.assertFlt_clock : (s.assertFlt).clock = s.clock := by unfold State.assertFlt; split <;> simp
@[simp] theorem State.assertFlt_mem : (s.assertFlt).mem = s.mem := by unfold State.assertFlt; split <;> simp
@[simp] theorem State.assertFlt_work : (s.assertFlt).work = s.work := by unfold State.assertFlt; split <;> simp
@[simp] theorem State.assertFlt_units : (s.assertFlt).units = s.units := by unfold State.assertFlt; split <;> simp
@[simp] theorem State.assertFlt_dtu : (s.assertFlt).dtu = s.dtu := by unfold State.assertFlt; split <;> simp
@[simp] theorem State.assertFlt_pix : (s.assertFlt).pix = s.pix := by unfold State.assertFlt; split <;> simp
@[simp] theorem State.assertFlt_net : (s.assertFlt).net = s.net := by unfold State.assertFlt; split <;> simp
@[simp] theorem State.assertFlt_freeCtr : (s.assertFlt).freeCtr = s.freeCtr := by unfold State.assertFlt; split <;> simp
@[simp] theorem State.assertFlt_store : (s.assertFlt).sys.store = s.sys.store := by unfold State.assertFlt; split <;> simp
@[simp] theorem State.assertFlt_trust : (s.assertFlt).sys.trust = s.sys.trust := by unfold State.assertFlt; split <;> simp
@[simp] theorem State.assertFlt_fw : (s.assertFlt).sys.fw = s.sys.fw := by unfold State.assertFlt; split <;> simp
@[simp] theorem State.assertFlt_jtag : (s.assertFlt).sys.jtag = s.sys.jtag := by unfold State.assertFlt; split <;> simp
@[simp] theorem State.assertFlt_chain : (s.assertFlt).sys.chain = s.sys.chain := by unfold State.assertFlt; split <;> simp
@[simp] theorem State.assertFlt_keptIrqs : (s.assertFlt).sys.keptIrqs = s.sys.keptIrqs := by unfold State.assertFlt; split <;> simp
@[simp] theorem State.assertFlt_arr (k : Nat) : (s.assertFlt).arr k = s.arr k := by unfold State.arr; rw [State.assertFlt_units]
@[simp] theorem State.assertFlt_flask (k : Nat) : (s.assertFlt).flask k = s.flask k := by unfold State.flask; rw [State.assertFlt_units]
@[simp] theorem State.assertFlt_vec (k : Nat) : (s.assertFlt).vec k = s.vec k := by unfold State.vec; rw [State.assertFlt_units]
@[simp] theorem State.assertFlt_rt (k : Nat) : (s.assertFlt).rt k = s.rt k := by unfold State.rt; rw [State.assertFlt_units]
@[simp] theorem State.assertFlt_q (k : Nat) : (s.assertFlt).q k = s.q k := by unfold State.q; rw [State.assertFlt_work]
@[simp] theorem State.assertFlt_job (k : Nat) : (s.assertFlt).job k = s.job k := by unfold State.job; rw [State.assertFlt_work]
@[simp] theorem State.assertFlt_ctx (k : Nat) : (s.assertFlt).ctx k = s.ctx k := by unfold State.ctx; rw [State.assertFlt_work]
@[simp] theorem State.assertFlt_cam (k : Nat) : (s.assertFlt).cam k = s.cam k := by unfold State.cam; rw [State.assertFlt_pix]
@[simp] theorem State.assertFlt_disp (k : Nat) : (s.assertFlt).disp k = s.disp k := by unfold State.disp; rw [State.assertFlt_pix]
@[simp] theorem State.assertFlt_canc (k : Nat) : (s.assertFlt).canc k = s.canc k := by unfold State.canc; rw [State.assertFlt_net]
@[simp] theorem State.assertFlt_tun (k : Nat) : (s.assertFlt).tun k = s.tun k := by unfold State.tun; rw [State.assertFlt_net]
@[simp] theorem State.assertFlt_wport (k : Nat) : (s.assertFlt).wport k = s.wport k := by unfold State.wport; rw [State.assertFlt_net]
@[simp] theorem State.assertFlt_now : (s.assertFlt).now = s.now := by unfold State.now; rw [State.assertFlt_clock]
@[simp] theorem State.assertFlt_byte (k : Nat) : (s.assertFlt).byte k = s.byte k := by unfold State.byte; rw [State.assertFlt_mem]
end

section
variable (s : State) 
@[simp] theorem State.updateWarn_pending : (s.updateWarn).pending = s.pending := by unfold State.updateWarn; simp only; split <;> simp
@[simp] theorem State.updateWarn_clock : (s.updateWarn).clock = s.clock := by unfold State.updateWarn; simp only; split <;> simp
@[simp] theorem State.updateWarn_mem : (s.updateWarn).mem = s.mem := by unfold State.updateWarn; simp only; split <;> simp
@[simp] theorem State.updateWarn_work : (s.updateWarn).work = s.work := by unfold State.updateWarn; simp only; split <;> simp
@[simp] theorem State.updateWarn_units : (s.updateWarn).units = s.units := by unfold State.updateWarn; simp only; split <;> simp
@[simp] theorem State.updateWarn_dtu : (s.updateWarn).dtu = s.dtu := by unfold State.updateWarn; simp only; split <;> simp
@[simp] theorem State.updateWarn_pix : (s.updateWarn).pix = s.pix := by unfold State.updateWarn; simp only; split <;> simp
@[simp] theorem State.updateWarn_net : (s.updateWarn).net = s.net := by unfold State.updateWarn; simp only; split <;> simp
@[simp] theorem State.updateWarn_freeCtr : (s.updateWarn).freeCtr = s.freeCtr := by unfold State.updateWarn; simp only; split <;> simp
@[simp] theorem State.updateWarn_store : (s.updateWarn).sys.store = s.sys.store := by unfold State.updateWarn; simp only; split <;> simp
@[simp] theorem State.updateWarn_trust : (s.updateWarn).sys.trust = s.sys.trust := by unfold State.updateWarn; simp only; split <;> simp
@[simp] theorem State.updateWarn_fw : (s.updateWarn).sys.fw = s.sys.fw := by unfold State.updateWarn; simp only; split <;> simp
@[simp] theorem State.updateWarn_jtag : (s.updateWarn).sys.jtag = s.sys.jtag := by unfold State.updateWarn; simp only; split <;> simp
@[simp] theorem State.updateWarn_chain : (s.updateWarn).sys.chain = s.sys.chain := by unfold State.updateWarn; simp only; split <;> simp
@[simp] theorem State.updateWarn_keptIrqs : (s.updateWarn).sys.keptIrqs = s.sys.keptIrqs := by unfold State.updateWarn; simp only; split <;> simp
@[simp] theorem State.updateWarn_record : (s.updateWarn).sys.record = s.sys.record := by unfold State.updateWarn; simp only; split <;> simp
@[simp] theorem State.updateWarn_arr (k : Nat) : (s.updateWarn).arr k = s.arr k := by unfold State.arr; rw [State.updateWarn_units]
@[simp] theorem State.updateWarn_flask (k : Nat) : (s.updateWarn).flask k = s.flask k := by unfold State.flask; rw [State.updateWarn_units]
@[simp] theorem State.updateWarn_vec (k : Nat) : (s.updateWarn).vec k = s.vec k := by unfold State.vec; rw [State.updateWarn_units]
@[simp] theorem State.updateWarn_rt (k : Nat) : (s.updateWarn).rt k = s.rt k := by unfold State.rt; rw [State.updateWarn_units]
@[simp] theorem State.updateWarn_q (k : Nat) : (s.updateWarn).q k = s.q k := by unfold State.q; rw [State.updateWarn_work]
@[simp] theorem State.updateWarn_job (k : Nat) : (s.updateWarn).job k = s.job k := by unfold State.job; rw [State.updateWarn_work]
@[simp] theorem State.updateWarn_ctx (k : Nat) : (s.updateWarn).ctx k = s.ctx k := by unfold State.ctx; rw [State.updateWarn_work]
@[simp] theorem State.updateWarn_cam (k : Nat) : (s.updateWarn).cam k = s.cam k := by unfold State.cam; rw [State.updateWarn_pix]
@[simp] theorem State.updateWarn_disp (k : Nat) : (s.updateWarn).disp k = s.disp k := by unfold State.disp; rw [State.updateWarn_pix]
@[simp] theorem State.updateWarn_canc (k : Nat) : (s.updateWarn).canc k = s.canc k := by unfold State.canc; rw [State.updateWarn_net]
@[simp] theorem State.updateWarn_tun (k : Nat) : (s.updateWarn).tun k = s.tun k := by unfold State.tun; rw [State.updateWarn_net]
@[simp] theorem State.updateWarn_wport (k : Nat) : (s.updateWarn).wport k = s.wport k := by unfold State.wport; rw [State.updateWarn_net]
@[simp] theorem State.updateWarn_now : (s.updateWarn).now = s.now := by unfold State.now; rw [State.updateWarn_clock]
@[simp] theorem State.updateWarn_byte (k : Nat) : (s.updateWarn).byte k = s.byte k := by unfold State.byte; rw [State.updateWarn_mem]
end

section
variable (s : State) (x : Fld) (u d : Nat)
@[simp] theorem State.safety_pending : (s.safety x u d).pending = s.pending := by unfold State.safety; simp only; split <;> split <;> simp [State.fresh]
@[simp] theorem State.safety_clock : (s.safety x u d).clock = s.clock := by unfold State.safety; simp only; split <;> split <;> simp [State.fresh]
@[simp] theorem State.safety_mem : (s.safety x u d).mem = s.mem := by unfold State.safety; simp only; split <;> split <;> simp [State.fresh]
@[simp] theorem State.safety_work : (s.safety x u d).work = s.work := by unfold State.safety; simp only; split <;> split <;> simp [State.fresh]
@[simp] theorem State.safety_units : (s.safety x u d).units = s.units := by unfold State.safety; simp only; split <;> split <;> simp [State.fresh]
@[simp] theorem State.safety_dtu : (s.safety x u d).dtu = s.dtu := by unfold State.safety; simp only; split <;> split <;> simp [State.fresh]
@[simp] theorem State.safety_pix : (s.safety x u d).pix = s.pix := by unfold State.safety; simp only; split <;> split <;> simp [State.fresh]
@[simp] theorem State.safety_net : (s.safety x u d).net = s.net := by unfold State.safety; simp only; split <;> split <;> simp [State.fresh]
@[simp] theorem State.safety_store : (s.safety x u d).sys.store = s.sys.store := by unfold State.safety; simp only; split <;> split <;> simp [State.fresh]
@[simp] theorem State.safety_trust : (s.safety x u d).sys.trust = s.sys.trust := by unfold State.safety; simp only; split <;> split <;> simp [State.fresh]
@[simp] theorem State.safety_fw : (s.safety x u d).sys.fw = s.sys.fw := by unfold State.safety; simp only; split <;> split <;> simp [State.fresh]
@[simp] theorem State.safety_jtag : (s.safety x u d).sys.jtag = s.sys.jtag := by unfold State.safety; simp only; split <;> split <;> simp [State.fresh]
@[simp] theorem State.safety_chain : (s.safety x u d).sys.chain = s.sys.chain := by unfold State.safety; simp only; split <;> split <;> simp [State.fresh]
@[simp] theorem State.safety_arr (k : Nat) : (s.safety x u d).arr k = s.arr k := by unfold State.arr; rw [State.safety_units]
@[simp] theorem State.safety_flask (k : Nat) : (s.safety x u d).flask k = s.flask k := by unfold State.flask; rw [State.safety_units]
@[simp] theorem State.safety_vec (k : Nat) : (s.safety x u d).vec k = s.vec k := by unfold State.vec; rw [State.safety_units]
@[simp] theorem State.safety_rt (k : Nat) : (s.safety x u d).rt k = s.rt k := by unfold State.rt; rw [State.safety_units]
@[simp] theorem State.safety_q (k : Nat) : (s.safety x u d).q k = s.q k := by unfold State.q; rw [State.safety_work]
@[simp] theorem State.safety_job (k : Nat) : (s.safety x u d).job k = s.job k := by unfold State.job; rw [State.safety_work]
@[simp] theorem State.safety_ctx (k : Nat) : (s.safety x u d).ctx k = s.ctx k := by unfold State.ctx; rw [State.safety_work]
@[simp] theorem State.safety_cam (k : Nat) : (s.safety x u d).cam k = s.cam k := by unfold State.cam; rw [State.safety_pix]
@[simp] theorem State.safety_disp (k : Nat) : (s.safety x u d).disp k = s.disp k := by unfold State.disp; rw [State.safety_pix]
@[simp] theorem State.safety_canc (k : Nat) : (s.safety x u d).canc k = s.canc k := by unfold State.canc; rw [State.safety_net]
@[simp] theorem State.safety_tun (k : Nat) : (s.safety x u d).tun k = s.tun k := by unfold State.tun; rw [State.safety_net]
@[simp] theorem State.safety_wport (k : Nat) : (s.safety x u d).wport k = s.wport k := by unfold State.wport; rw [State.safety_net]
@[simp] theorem State.safety_now : (s.safety x u d).now = s.now := by unfold State.now; rw [State.safety_clock]
@[simp] theorem State.safety_byte (k : Nat) : (s.safety x u d).byte k = s.byte k := by unfold State.byte; rw [State.safety_mem]
end

section
variable (s : State) (x : Fld) (m : Master) (o : Nat) (b c : Bool)
@[simp] theorem State.regFlag_pending : (s.regFlag x m o b c).pending = s.pending := by unfold State.regFlag; simp only; split <;> simp
@[simp] theorem State.regFlag_clock : (s.regFlag x m o b c).clock = s.clock := by unfold State.regFlag; simp only; split <;> simp
@[simp] theorem State.regFlag_mem : (s.regFlag x m o b c).mem = s.mem := by unfold State.regFlag; simp only; split <;> simp
@[simp] theorem State.regFlag_work : (s.regFlag x m o b c).work = s.work := by unfold State.regFlag; simp only; split <;> simp
@[simp] theorem State.regFlag_units : (s.regFlag x m o b c).units = s.units := by unfold State.regFlag; simp only; split <;> simp
@[simp] theorem State.regFlag_dtu : (s.regFlag x m o b c).dtu = s.dtu := by unfold State.regFlag; simp only; split <;> simp
@[simp] theorem State.regFlag_pix : (s.regFlag x m o b c).pix = s.pix := by unfold State.regFlag; simp only; split <;> simp
@[simp] theorem State.regFlag_net : (s.regFlag x m o b c).net = s.net := by unfold State.regFlag; simp only; split <;> simp
@[simp] theorem State.regFlag_freeCtr : (s.regFlag x m o b c).freeCtr = s.freeCtr := by unfold State.regFlag; simp only; split <;> simp
@[simp] theorem State.regFlag_power : (s.regFlag x m o b c).sys.power = s.sys.power := by unfold State.regFlag; simp only; split <;> simp
@[simp] theorem State.regFlag_record : (s.regFlag x m o b c).sys.record = s.sys.record := by unfold State.regFlag; simp only; split <;> simp
@[simp] theorem State.regFlag_store : (s.regFlag x m o b c).sys.store = s.sys.store := by unfold State.regFlag; simp only; split <;> simp
@[simp] theorem State.regFlag_trust : (s.regFlag x m o b c).sys.trust = s.sys.trust := by unfold State.regFlag; simp only; split <;> simp
@[simp] theorem State.regFlag_fw : (s.regFlag x m o b c).sys.fw = s.sys.fw := by unfold State.regFlag; simp only; split <;> simp
@[simp] theorem State.regFlag_jtag : (s.regFlag x m o b c).sys.jtag = s.sys.jtag := by unfold State.regFlag; simp only; split <;> simp
@[simp] theorem State.regFlag_chain : (s.regFlag x m o b c).sys.chain = s.sys.chain := by unfold State.regFlag; simp only; split <;> simp
@[simp] theorem State.regFlag_arr (k : Nat) : (s.regFlag x m o b c).arr k = s.arr k := by unfold State.arr; rw [State.regFlag_units]
@[simp] theorem State.regFlag_flask (k : Nat) : (s.regFlag x m o b c).flask k = s.flask k := by unfold State.flask; rw [State.regFlag_units]
@[simp] theorem State.regFlag_vec (k : Nat) : (s.regFlag x m o b c).vec k = s.vec k := by unfold State.vec; rw [State.regFlag_units]
@[simp] theorem State.regFlag_rt (k : Nat) : (s.regFlag x m o b c).rt k = s.rt k := by unfold State.rt; rw [State.regFlag_units]
@[simp] theorem State.regFlag_q (k : Nat) : (s.regFlag x m o b c).q k = s.q k := by unfold State.q; rw [State.regFlag_work]
@[simp] theorem State.regFlag_job (k : Nat) : (s.regFlag x m o b c).job k = s.job k := by unfold State.job; rw [State.regFlag_work]
@[simp] theorem State.regFlag_ctx (k : Nat) : (s.regFlag x m o b c).ctx k = s.ctx k := by unfold State.ctx; rw [State.regFlag_work]
@[simp] theorem State.regFlag_cam (k : Nat) : (s.regFlag x m o b c).cam k = s.cam k := by unfold State.cam; rw [State.regFlag_pix]
@[simp] theorem State.regFlag_disp (k : Nat) : (s.regFlag x m o b c).disp k = s.disp k := by unfold State.disp; rw [State.regFlag_pix]
@[simp] theorem State.regFlag_canc (k : Nat) : (s.regFlag x m o b c).canc k = s.canc k := by unfold State.canc; rw [State.regFlag_net]
@[simp] theorem State.regFlag_tun (k : Nat) : (s.regFlag x m o b c).tun k = s.tun k := by unfold State.tun; rw [State.regFlag_net]
@[simp] theorem State.regFlag_wport (k : Nat) : (s.regFlag x m o b c).wport k = s.wport k := by unfold State.wport; rw [State.regFlag_net]
@[simp] theorem State.regFlag_now : (s.regFlag x m o b c).now = s.now := by unfold State.now; rw [State.regFlag_clock]
@[simp] theorem State.regFlag_byte (k : Nat) : (s.regFlag x m o b c).byte k = s.byte k := by unfold State.byte; rw [State.regFlag_mem]
end

/-! ## Registers of the flag operations -/

theorem State.assertFlt_r (s : State) (y : Reg) (k : Nat) (h : y ≠ .sysSafestat ∨ k ≠ 0) :
    s.assertFlt.r y k = s.r y k := by
  unfold State.assertFlt
  split
  · rfl
  · simp only [State.logEvent_r, State.safePin_r, State.modPower_r]
    exact State.setF_r_ne _ _ _ _ _ _ (by rintro ⟨h1, h2⟩; rcases h with h | h <;> exact h (by assumption))

theorem State.updateWarn_r (s : State) (y : Reg) (k : Nat) (h : y ≠ .sysSafestat ∨ k ≠ 0) :
    s.updateWarn.r y k = s.r y k := by
  have e : ∀ v, (s.setF SYS_SAFESTAT.WARN 0 v).r y k = s.r y k := fun v =>
    State.setF_r_ne _ _ _ _ _ _ (by rintro ⟨h1, h2⟩; rcases h with h | h <;> exact h (by assumption))
  unfold State.updateWarn
  simp only
  split <;> simp [e]

/-- A cause of R154 changes the register file in SYS_SAFESTAT alone. -/
theorem State.safety_r (s : State) (x : Fld) (u d : Nat) (y : Reg) (k : Nat) (hx : x.reg = .sysSafestat)
    (h : y ≠ .sysSafestat ∨ k ≠ 0) : (s.safety x u d).r y k = s.r y k := by
  have e : (s.setF x 0 1).r y k = s.r y k := State.setF_r_ne _ _ _ _ _ _ (by
    rw [hx]; rintro ⟨h1, h2⟩; rcases h with h | h <;> exact h (by assumption))
  unfold State.safety
  simp only [State.emit_r, State.mgrIrq_r]
  split <;> split <;> simp [State.assertFlt_r _ _ _ h, State.updateWarn_r _ _ _ h, State.fresh, e] <;> exact e

theorem State.assertFlt_f (s : State) (y : Fld) (k : Nat) (h : SYS_SAFESTAT.FLT.apart y) :
    s.assertFlt.f y k = s.f y k := by
  unfold State.assertFlt
  split
  · rfl
  · simp only [State.logEvent_f, State.safePin_f, State.modPower_f]
    exact State.setF_f_apart _ _ _ _ _ _ (by decide) h

theorem State.updateWarn_f (s : State) (y : Fld) (k : Nat) (h : SYS_SAFESTAT.WARN.apart y) :
    s.updateWarn.f y k = s.f y k := by
  have e : ∀ v, (s.setF SYS_SAFESTAT.WARN 0 v).f y k = s.f y k := fun v =>
    State.setF_f_apart _ _ _ _ _ _ (by decide) h
  unfold State.updateWarn
  simp only
  split <;> simp [e]

/-- R154: a cause sets its bit. -/
theorem State.safety_f (s : State) (x : Fld) (u d : Nat) (hx : x.fits) (h1 : x.hi = x.lo)
    (hf : SYS_SAFESTAT.FLT.apart x) (hw : SYS_SAFESTAT.WARN.apart x) : (s.safety x u d).f x 0 = 1 := by
  have e : (s.setF x 0 1).f x 0 = 1 := by rw [State.setF_f_same _ _ _ _ hx, h1]; simp
  unfold State.safety
  simp only [State.emit_f, State.mgrIrq_f]
  split <;> split <;> simp [State.assertFlt_f _ _ _ hf, State.updateWarn_f _ _ _ hw, State.fresh, e] <;> exact e

theorem State.assertFlt_safeFlt (s : State) : s.assertFlt.sys.power.safeFlt = true := by
  unfold State.assertFlt
  split
  · assumption
  · simp

/-- R154: an FLT-class cause latches SAFE_FLT_N. -/
theorem State.safety_safeFlt (s : State) (x : Fld) (u d : Nat) (h : 9 ≤ x.lo) :
    (s.safety x u d).sys.power.safeFlt = true := by
  have e : isFlt x = true := by simp [isFlt, h]
  unfold State.safety
  simp only [State.emit_sys, State.mgrIrq_power, e, if_true]
  exact State.assertFlt_safeFlt _

/-- R347: a flagged access changes the register file in SYS_REGERR alone. -/
theorem State.regFlag_r (s : State) (x : Fld) (m : Master) (o : Nat) (b c : Bool) (y : Reg) (k : Nat)
    (hx : x.reg = .sysRegerr) (h : y ≠ .sysRegerr ∨ k ≠ 0) : (s.regFlag x m o b c).r y k = s.r y k := by
  have e : ∀ (t : State) (z : Fld) (v : Nat), z.reg = .sysRegerr → (t.setF z 0 v).r y k = t.r y k := fun t z v hz =>
    State.setF_r_ne _ _ _ _ _ _ (by rw [hz]; rintro ⟨h1, h2⟩; rcases h with h | h <;> exact h (by assumption))
  unfold State.regFlag
  simp only [State.incSat]
  split
  · simp only [State.mgrIrq_r]
    rw [e _ _ _ rfl, e _ _ _ rfl, e _ _ _ rfl, e _ _ _ rfl, e _ _ _ rfl, e _ _ _ hx, e _ _ _ rfl]
  · rw [e _ _ _ hx, e _ _ _ rfl]

end Sys2Proof.Machine
end

