-- ==== Sys2Proof/Laws/Exec.lean ====
section
/-! SUPPORT. One lemma per command: which meaning the dispatcher gives it. -/

namespace Sys2Proof.Machine

theorem exec_clockLossDetected (d : Domain) (s : State) :
    exec (.clockLossDetected d) s = execClockLossDetected d s := (rfl)
theorem exec_sclkLossDetected (s : State) :
    exec (.sclkLossDetected) s = execSclkLossDetected s := (rfl)
theorem exec_voltageFault (rail : Nat) (pct : Nat) (s : State) :
    exec (.voltageFault rail pct) s = execVoltageFault rail pct s := (rfl)
theorem exec_temperatureEvent (sensor : Nat) (celsius : Int) (s : State) :
    exec (.temperatureEvent sensor celsius) s = execTemperatureEvent sensor celsius s := (rfl)
theorem exec_thermalShutdown (sensor : Nat) (celsius : Int) (s : State) :
    exec (.thermalShutdown sensor celsius) s = execThermalShutdown sensor celsius s := (rfl)
theorem exec_timeNowNsRead (m : Master) (s : State) :
    exec (.timeNowNsRead m) s = execTimeNowNsRead m s := (rfl)
theorem exec_trajectoryRelease (s : State) :
    exec (.trajectoryRelease) s = execTrajectoryRelease s := (rfl)
theorem exec_activeCutoff (s : State) :
    exec (.activeCutoff) s = execActiveCutoff s := (rfl)
theorem exec_shadowCutoff (s : State) :
    exec (.shadowCutoff) s = execShadowCutoff s := (rfl)
theorem exec_doorbellWrite (m : Master) (q : Nat) (h : Half) (v : Word) (s : State) :
    exec (.doorbellWrite m q h v) s = execDoorbellWrite m q h v s := (rfl)
theorem exec_queueEnable (m : Master) (q : Nat) (v : Word) (s : State) :
    exec (.queueEnable m q v) s = execQueueEnable m q v s := (rfl)
theorem exec_queueDisable (m : Master) (q : Nat) (v : Word) (s : State) :
    exec (.queueDisable m q v) s = execQueueDisable m q v s := (rfl)
theorem exec_scannerRound (served : Nat) (s : State) :
    exec (.scannerRound served) s = execScannerRound served s := (rfl)
theorem exec_jobFetch (q : Nat) (s : State) :
    exec (.jobFetch q) s = execJobFetch q s := (rfl)
theorem exec_jobStart (j : Nat) (s : State) :
    exec (.jobStart j) s = execJobStart j s := (rfl)
theorem exec_jobExpire (j : Nat) (s : State) :
    exec (.jobExpire j) s = execJobExpire j s := (rfl)
theorem exec_jobComplete (j : Nat) (s : State) :
    exec (.jobComplete j) s = execJobComplete j s := (rfl)
theorem exec_jobFault (j : Nat) (tile : Nat) (s : State) :
    exec (.jobFault j tile) s = execJobFault j tile s := (rfl)
theorem exec_nopJob (j : Nat) (s : State) :
    exec (.nopJob j) s = execNopJob j s := (rfl)
theorem exec_fenceJob (j : Nat) (s : State) :
    exec (.fenceJob j) s = execFenceJob j s := (rfl)
theorem exec_tensor (j : Nat) (s : State) :
    exec (.tensor j) s = execTensor j s := (rfl)
theorem exec_tileDispatch (a : Nat) (s : State) :
    exec (.tileDispatch a) s = execTileDispatch a s := (rfl)
theorem exec_programLoad (a : Nat) (s : State) :
    exec (.programLoad a) s = execProgramLoad a s := (rfl)
theorem exec_nextValidSet (m : Master) (a : Nat) (v : Word) (s : State) :
    exec (.nextValidSet m a v) s = execNextValidSet m a v s := (rfl)
theorem exec_nop (a : Nat) (s : State) :
    exec (.nop a) s = execNop a s := (rfl)
theorem exec_ldw (a : Nat) (s : State) :
    exec (.ldw a) s = execLdw a s := (rfl)
theorem exec_swapw (a : Nat) (s : State) :
    exec (.swapw a) s = execSwapw a s := (rfl)
theorem exec_lda (a : Nat) (s : State) :
    exec (.lda a) s = execLda a s := (rfl)
theorem exec_shift (a : Nat) (stalled : Nat) (s : State) :
    exec (.shift a stalled) s = execShift a stalled s := (rfl)
theorem exec_acc (a : Nat) (s : State) :
    exec (.acc a) s = execAcc a s := (rfl)
theorem exec_drain (a : Nat) (s : State) :
    exec (.drain a) s = execDrain a s := (rfl)
theorem exec_post (a : Nat) (s : State) :
    exec (.post a) s = execPost a s := (rfl)
theorem exec_xfer (a : Nat) (s : State) :
    exec (.xfer a) s = execXfer a s := (rfl)
theorem exec_waitq (a : Nat) (s : State) :
    exec (.waitq a) s = execWaitq a s := (rfl)
theorem exec_sig (a : Nat) (s : State) :
    exec (.sig a) s = execSig a s := (rfl)
theorem exec_sync (a : Nat) (s : State) :
    exec (.sync a) s = execSync a s := (rfl)
theorem exec_loop (a : Nat) (s : State) :
    exec (.loop a) s = execLoop a s := (rfl)
theorem exec_fence (a : Nat) (s : State) :
    exec (.fence a) s = execFence a s := (rfl)
theorem exec_endProg (a : Nat) (flip : Nat) (dup : Bool) (s : State) :
    exec (.endProg a flip dup) s = execEndProg a flip dup s := (rfl)
theorem exec_asyncComplete (a : Nat) (k : Nat) (stalled : Nat) (s : State) :
    exec (.asyncComplete a k stalled) s = execAsyncComplete a k stalled s := (rfl)
theorem exec_tileWatchdog (a : Nat) (s : State) :
    exec (.tileWatchdog a) s = execTileWatchdog a s := (rfl)
theorem exec_abort (m : Master) (a : Nat) (v : Word) (s : State) :
    exec (.abort m a v) s = execAbort m a v s := (rfl)
theorem exec_abortComplete (a : Nat) (s : State) :
    exec (.abortComplete a) s = execAbortComplete a s := (rfl)
theorem exec_arrSatcfgWrite (m : Master) (a : Nat) (v : Word) (s : State) :
    exec (.arrSatcfgWrite m a v) s = execArrSatcfgWrite m a v s := (rfl)
theorem exec_convTap (j : Nat) (s : State) :
    exec (.convTap j) s = execConvTap j s := (rfl)
theorem exec_convGrouped (j : Nat) (s : State) :
    exec (.convGrouped j) s = execConvGrouped j s := (rfl)
theorem exec_maxPool (j : Nat) (s : State) :
    exec (.maxPool j) s = execMaxPool j s := (rfl)
theorem exec_averagePool (j : Nat) (s : State) :
    exec (.averagePool j) s = execAveragePool j s := (rfl)
theorem exec_expand (j : Nat) (s : State) :
    exec (.expand j) s = execExpand j s := (rfl)
theorem exec_seqAdmit (j : Nat) (s : State) :
    exec (.seqAdmit j) s = execSeqAdmit j s := (rfl)
theorem exec_seqRestore (j : Nat) (s : State) :
    exec (.seqRestore j) s = execSeqRestore j s := (rfl)
theorem exec_seqFork (j : Nat) (s : State) :
    exec (.seqFork j) s = execSeqFork j s := (rfl)
theorem exec_seqRelease (j : Nat) (s : State) :
    exec (.seqRelease j) s = execSeqRelease j s := (rfl)
theorem exec_attnStep (j : Nat) (s : State) :
    exec (.attnStep j) s = execAttnStep j s := (rfl)
theorem exec_attnPrefill (j : Nat) (s : State) :
    exec (.attnPrefill j) s = execAttnPrefill j s := (rfl)
theorem exec_sweep (m : Master) (idx : Nat) (v : Word) (s : State) :
    exec (.sweep m idx v) s = execSweep m idx v s := (rfl)
theorem exec_sweepDone (idx : Nat) (s : State) :
    exec (.sweepDone idx) s = execSweepDone idx s := (rfl)
theorem exec_poolEnable (m : Master) (idx : Nat) (v : Word) (s : State) :
    exec (.poolEnable m idx v) s = execPoolEnable m idx v s := (rfl)
theorem exec_poolDisable (m : Master) (idx : Nat) (v : Word) (s : State) :
    exec (.poolDisable m idx v) s = execPoolDisable m idx v s := (rfl)
theorem exec_isolationDeadline (a : Nat) (s : State) :
    exec (.isolationDeadline a) s = execIsolationDeadline a s := (rfl)
theorem exec_overrun (a : Nat) (s : State) :
    exec (.overrun a) s = execOverrun a s := (rfl)
theorem exec_isolationEnd (f : Nat) (s : State) :
    exec (.isolationEnd f) s = execIsolationEnd f s := (rfl)
theorem exec_inputLogCopyDone (c : Nat) (s : State) :
    exec (.inputLogCopyDone c) s = execInputLogCopyDone c s := (rfl)
theorem exec_rtTaskEnd (c : Nat) (steps : List RtStep) (s : State) :
    exec (.rtTaskEnd c steps) s = execRtTaskEnd c steps s := (rfl)
theorem exec_testBarDue (u : TBUnit) (s : State) :
    exec (.testBarDue u) s = execTestBarDue u s := (rfl)
theorem exec_testBarDone (u : TBUnit) (pass : Bool) (s : State) :
    exec (.testBarDone u pass) s = execTestBarDone u pass s := (rfl)
theorem exec_tbImageVerified (ok : Bool) (s : State) :
    exec (.tbImageVerified ok) s = execTbImageVerified ok s := (rfl)
theorem exec_tbImageRecheck (ok : Bool) (s : State) :
    exec (.tbImageRecheck ok) s = execTbImageRecheck ok s := (rfl)
theorem exec_counterFold (ufs : Nat) (s : State) :
    exec (.counterFold ufs) s = execCounterFold ufs s := (rfl)
theorem exec_sensorSample (temps : List Int) (droops : List (Nat × Nat)) (s : State) :
    exec (.sensorSample temps droops) s = execSensorSample temps droops s := (rfl)
theorem exec_checkpoint (s : State) :
    exec (.checkpoint) s = execCheckpoint s := (rfl)
theorem exec_flresWrite (m : Master) (f : Nat) (v : Word) (s : State) :
    exec (.flresWrite m f v) s = execFlresWrite m f v s := (rfl)
theorem exec_flaskCreate (m : Master) (f : Nat) (v : Word) (s : State) :
    exec (.flaskCreate m f v) s = execFlaskCreate m f v s := (rfl)
theorem exec_flaskDestroy (m : Master) (f : Nat) (v : Word) (s : State) :
    exec (.flaskDestroy m f v) s = execFlaskDestroy m f v s := (rfl)
theorem exec_shakeoutDone (f : Nat) (failed : List TBUnit) (s : State) :
    exec (.shakeoutDone f failed) s = execShakeoutDone f failed s := (rfl)
theorem exec_firmwareClearDone (f : Nat) (failed : List TBUnit) (s : State) :
    exec (.firmwareClearDone f failed) s = execFirmwareClearDone f failed s := (rfl)
theorem exec_swap (m : Master) (v : Word) (s : State) :
    exec (.swap m v) s = execSwap m v s := (rfl)
theorem exec_swapValidated (s : State) :
    exec (.swapValidated) s = execSwapValidated s := (rfl)
theorem exec_frameBoundary (s : State) :
    exec (.frameBoundary) s = execFrameBoundary s := (rfl)
theorem exec_spareCopyDone (a : Nat) (s : State) :
    exec (.spareCopyDone a) s = execSpareCopyDone a s := (rfl)
theorem exec_pourEntryStart (e : Nat) (s : State) :
    exec (.pourEntryStart e) s = execPourEntryStart e s := (rfl)
theorem exec_pourEntryEnd (e : Nat) (s : State) :
    exec (.pourEntryEnd e) s = execPourEntryEnd e s := (rfl)
theorem exec_pourLate (e : Nat) (s : State) :
    exec (.pourLate e) s = execPourLate e s := (rfl)
theorem exec_vectorPreempt (e : Nat) (s : State) :
    exec (.vectorPreempt e) s = execVectorPreempt e s := (rfl)
theorem exec_vectorResume (e : Nat) (j : Nat) (item : Nat) (s : State) :
    exec (.vectorResume e j item) s = execVectorResume e j item s := (rfl)
theorem exec_gateRefill (s : State) :
    exec (.gateRefill) s = execGateRefill s := (rfl)
theorem exec_gateRequest (g : Nat) (bytes : Nat) (s : State) :
    exec (.gateRequest g bytes) s = execGateRequest g bytes s := (rfl)
theorem exec_rtBoundExceeded (rtm : Nat) (waitedNs : Nat) (s : State) :
    exec (.rtBoundExceeded rtm waitedNs) s = execRtBoundExceeded rtm waitedNs s := (rfl)
theorem exec_guaranteeWindowEnd (g : Nat) (s : State) :
    exec (.guaranteeWindowEnd g) s = execGuaranteeWindowEnd g s := (rfl)
theorem exec_memoryInit (m : Master) (v : Word) (s : State) :
    exec (.memoryInit m v) s = execMemoryInit m v s := (rfl)
theorem exec_memoryReady (s : State) :
    exec (.memoryReady) s = execMemoryReady s := (rfl)
theorem exec_memoryRead (m : Master) (addr : Nat) (bytes : Nat) (errs : BurstErrs) (s : State) :
    exec (.memoryRead m addr bytes errs) s = execMemoryRead m addr bytes errs s := (rfl)
theorem exec_memoryWrite (m : Master) (addr : Nat) (data : List Byte) (s : State) :
    exec (.memoryWrite m addr data) s = execMemoryWrite m addr data s := (rfl)
theorem exec_partialWrite (m : Master) (addr : Nat) (data : List Byte) (errs : BurstErrs) (s : State) :
    exec (.partialWrite m addr data errs) s = execPartialWrite m addr data errs s := (rfl)
theorem exec_patrolScrub (block : Nat) (errs : BurstErrs) (s : State) :
    exec (.patrolScrub block errs) s = execPatrolScrub block errs s := (rfl)
theorem exec_writeBack (c : Cacher) (line : Nat) (data : Option (List Byte)) (s : State) :
    exec (.writeBack c line data) s = execWriteBack c line data s := (rfl)
theorem exec_snoopResponse (c : Cacher) (line : Nat) (data : Option (List Byte)) (evicting : Bool) (s : State) :
    exec (.snoopResponse c line data evicting) s = execSnoopResponse c line data evicting s := (rfl)
theorem exec_writeBackAck (c : Cacher) (line : Nat) (s : State) :
    exec (.writeBackAck c line) s = execWriteBackAck c line s := (rfl)
theorem exec_cacheWaysWrite (m : Master) (p : Nat) (v : Word) (s : State) :
    exec (.cacheWaysWrite m p v) s = execCacheWaysWrite m p v s := (rfl)
theorem exec_regionEnable (m : Master) (n : Nat) (v : Word) (s : State) :
    exec (.regionEnable m n v) s = execRegionEnable m n v s := (rfl)
theorem exec_regionDisable (m : Master) (n : Nat) (v : Word) (s : State) :
    exec (.regionDisable m n v) s = execRegionDisable m n v s := (rfl)
theorem exec_retire (m : Master) (v : Word) (s : State) :
    exec (.retire m v) s = execRetire m v s := (rfl)
theorem exec_retireDone (s : State) :
    exec (.retireDone) s = execRetireDone s := (rfl)
theorem exec_ladlePieceDone (mv : Nat) (s : State) :
    exec (.ladlePieceDone mv) s = execLadlePieceDone mv s := (rfl)
theorem exec_xferCopy (j : Nat) (piece : Nat) (s : State) :
    exec (.xferCopy j piece) s = execXferCopy j piece s := (rfl)
theorem exec_xferFill (j : Nat) (piece : Nat) (s : State) :
    exec (.xferFill j piece) s = execXferFill j piece s := (rfl)
theorem exec_pageWalk (idx : Nat) (va : Nat) (write : Bool) (s : State) :
    exec (.pageWalk idx va write) s = execPageWalk idx va write s := (rfl)
theorem exec_iotinvalVma (gscid : Option Nat) (pscid : Option Nat) (va : Option Nat) (s : State) :
    exec (.iotinvalVma gscid pscid va) s = execIotinvalVma gscid pscid va s := (rfl)
theorem exec_iotinvalGvma (gscid : Option Nat) (gpa : Option Nat) (s : State) :
    exec (.iotinvalGvma gscid gpa) s = execIotinvalGvma gscid gpa s := (rfl)
theorem exec_iodirInvalDdt (dev : Option Nat) (s : State) :
    exec (.iodirInvalDdt dev) s = execIodirInvalDdt dev s := (rfl)
theorem exec_iofenceC (addr : Option Nat) (data : Nat) (s : State) :
    exec (.iofenceC addr data) s = execIofenceC addr data s := (rfl)
theorem exec_instanceCreate (m : Master) (idx : Nat) (v : Word) (s : State) :
    exec (.instanceCreate m idx v) s = execInstanceCreate m idx v s := (rfl)
theorem exec_quiesce (m : Master) (idx : Nat) (v : Word) (s : State) :
    exec (.quiesce m idx v) s = execQuiesce m idx v s := (rfl)
theorem exec_quiesceDone (idx : Nat) (s : State) :
    exec (.quiesceDone idx) s = execQuiesceDone idx s := (rfl)
theorem exec_resume (m : Master) (idx : Nat) (v : Word) (s : State) :
    exec (.resume m idx v) s = execResume m idx v s := (rfl)
theorem exec_instanceReset (m : Master) (idx : Nat) (v : Word) (s : State) :
    exec (.instanceReset m idx v) s = execInstanceReset m idx v s := (rfl)
theorem exec_remove (m : Master) (idx : Nat) (v : Word) (s : State) :
    exec (.remove m idx v) s = execRemove m idx v s := (rfl)
theorem exec_removeDone (idx : Nat) (s : State) :
    exec (.removeDone idx) s = execRemoveDone idx s := (rfl)
theorem exec_spillAll (m : Master) (idx : Nat) (v : Word) (s : State) :
    exec (.spillAll m idx v) s = execSpillAll m idx v s := (rfl)
theorem exec_lockInterfaceRequest (p : Nat) (vf : Nat) (s : State) :
    exec (.lockInterfaceRequest p vf) s = execLockInterfaceRequest p vf s := (rfl)
theorem exec_getDeviceInterfaceReport (p : Nat) (vf : Nat) (s : State) :
    exec (.getDeviceInterfaceReport p vf) s = execGetDeviceInterfaceReport p vf s := (rfl)
theorem exec_monitorCall (core : Nat) (a7 : Word) (args : List Word) (s : State) :
    exec (.monitorCall core a7 args) s = execMonitorCall core a7 args s := (rfl)
theorem exec_keyExchange (tenant : Nat) (s : State) :
    exec (.keyExchange tenant) s = execKeyExchange tenant s := (rfl)
theorem exec_keyDeliver (tenant : Nat) (pol : KeyPolicy) (s : State) :
    exec (.keyDeliver tenant pol) s = execKeyDeliver tenant pol s := (rfl)
theorem exec_keyRevoke (tenant : Nat) (keyId : Nat) (s : State) :
    exec (.keyRevoke tenant keyId) s = execKeyRevoke tenant keyId s := (rfl)
theorem exec_consentInstall (tenant : Nat) (f : Nat) (scope : Nat) (devId : Nat) (lastHour : Nat) (keyId : Nat) (digest : Nat) (ok : Bool) (s : State) :
    exec (.consentInstall tenant f scope devId lastHour keyId digest ok) s = execConsentInstall tenant f scope devId lastHour keyId digest ok s := (rfl)
theorem exec_consentExpiry (f : Nat) (s : State) :
    exec (.consentExpiry f) s = execConsentExpiry f s := (rfl)
theorem exec_debugAccess (f : Nat) (k : DebugKind) (u : Option TBUnit) (s : State) :
    exec (.debugAccess f k u) s = execDebugAccess f k u s := (rfl)
theorem exec_getMeasurements (tenant : Nat) (nonce : Nat) (s : State) :
    exec (.getMeasurements tenant nonce) s = execGetMeasurements tenant nonce s := (rfl)
theorem exec_getCertificate (tenant : Nat) (slot : Nat) (s : State) :
    exec (.getCertificate tenant slot) s = execGetCertificate tenant slot s := (rfl)
theorem exec_vexpV (e : Nat) (pre : List VecStep) (w : BitVec 32) (s : State) :
    exec (.vexpV e pre w) s = execVexpV e pre w s := (rfl)
theorem exec_vlsemVv (e : Nat) (pre : List VecStep) (w : BitVec 32) (s : State) :
    exec (.vlsemVv e pre w) s = execVlsemVv e pre w s := (rfl)
theorem exec_vdwsVv (e : Nat) (pre : List VecStep) (w : BitVec 32) (s : State) :
    exec (.vdwsVv e pre w) s = execVdwsVv e pre w s := (rfl)
theorem exec_vdws0Vv (e : Nat) (pre : List VecStep) (w : BitVec 32) (s : State) :
    exec (.vdws0Vv e pre w) s = execVdws0Vv e pre w s := (rfl)
theorem exec_vector (j : Nat) (s : State) :
    exec (.vector j) s = execVector j s := (rfl)
theorem exec_itemEnd (e : Nat) (pre : List VecStep) (how : ItemEnd) (flip : Nat) (dup : Bool) (s : State) :
    exec (.itemEnd e pre how flip dup) s = execItemEnd e pre how flip dup s := (rfl)
theorem exec_itemTimeout (e : Nat) (s : State) :
    exec (.itemTimeout e) s = execItemTimeout e s := (rfl)
theorem exec_cameraContextEnable (m : Master) (c : Nat) (v : Word) (s : State) :
    exec (.cameraContextEnable m c v) s = execCameraContextEnable m c v s := (rfl)
theorem exec_cameraContextDisable (m : Master) (c : Nat) (v : Word) (s : State) :
    exec (.cameraContextDisable m c v) s = execCameraContextDisable m c v s := (rfl)
theorem exec_frameStart (c : Nat) (s : State) :
    exec (.frameStart c) s = execFrameStart c s := (rfl)
theorem exec_cameraPacket (c : Nat) (pkt : CamPacket) (s : State) :
    exec (.cameraPacket c pkt) s = execCameraPacket c pkt s := (rfl)
theorem exec_ingestRecord (c : Nat) (s : State) :
    exec (.ingestRecord c) s = execIngestRecord c s := (rfl)
theorem exec_render (j : Nat) (s : State) :
    exec (.render j) s = execRender j s := (rfl)
theorem exec_planePost (m : Master) (o : Nat) (p : Nat) (v : Word) (s : State) :
    exec (.planePost m o p v) s = execPlanePost m o p v s := (rfl)
theorem exec_latch (o : Nat) (s : State) :
    exec (.latch o) s = execLatch o s := (rfl)
theorem exec_scanoutUnderrun (o : Nat) (s : State) :
    exec (.scanoutUnderrun o) s = execScanoutUnderrun o s := (rfl)
theorem exec_tellTaleCompare (o : Nat) (pixels : List Nat) (s : State) :
    exec (.tellTaleCompare o pixels) s = execTellTaleCompare o pixels s := (rfl)
theorem exec_escalationLevel1 (o : Nat) (s : State) :
    exec (.escalationLevel1 o) s = execEscalationLevel1 o s := (rfl)
theorem exec_escalationLevel2 (o : Nat) (s : State) :
    exec (.escalationLevel2 o) s = execEscalationLevel2 o s := (rfl)
theorem exec_update (j : Nat) (s : State) :
    exec (.update j) s = execUpdate j s := (rfl)
theorem exec_plan (j : Nat) (disagree : Bool) (s : State) :
    exec (.plan j disagree) s = execPlan j disagree s := (rfl)
theorem exec_repair (j : Nat) (disagree : Bool) (s : State) :
    exec (.repair j disagree) s = execRepair j disagree s := (rfl)
theorem exec_publishAt (j : Nat) (s : State) :
    exec (.publishAt j) s = execPublishAt j s := (rfl)
theorem exec_timeIncWrite (m : Master) (v : Word) (s : State) :
    exec (.timeIncWrite m v) s = execTimeIncWrite m v s := (rfl)
theorem exec_timeStepWrite (m : Master) (v : Word) (s : State) :
    exec (.timeStepWrite m v) s = execTimeStepWrite m v s := (rfl)
theorem exec_holdover (s : State) :
    exec (.holdover) s = execHoldover s := (rfl)
theorem exec_compareArm (m : Master) (n : Nat) (v : Word) (s : State) :
    exec (.compareArm m n v) s = execCompareArm m n v s := (rfl)
theorem exec_compareFire (n : Nat) (s : State) :
    exec (.compareFire n) s = execCompareFire n s := (rfl)
theorem exec_ethRingDoorbell (m : Master) (r : Nat) (v : Word) (s : State) :
    exec (.ethRingDoorbell m r v) s = execEthRingDoorbell m r v s := (rfl)
theorem exec_frameTransmit (r : Nat) (s : State) :
    exec (.frameTransmit r) s = execFrameTransmit r s := (rfl)
theorem exec_launchLate (can : Option Nat) (r : Nat) (s : State) :
    exec (.launchLate can r) s = execLaunchLate can r s := (rfl)
theorem exec_frameReceive (f : EthFrame) (s : State) :
    exec (.frameReceive f) s = execFrameReceive f s := (rfl)
theorem exec_gateListEvent (sel : Nat) (n : Nat) (s : State) :
    exec (.gateListEvent sel n) s = execGateListEvent sel n s := (rfl)
theorem exec_canArbitration (c : Nat) (s : State) :
    exec (.canArbitration c) s = execCanArbitration c s := (rfl)
theorem exec_canFrameReceive (c : Nat) (f : CanFrame) (s : State) :
    exec (.canFrameReceive c f) s = execCanFrameReceive c f s := (rfl)
theorem exec_busOff (c : Nat) (s : State) :
    exec (.busOff c) s = execBusOff c s := (rfl)
theorem exec_busOffRecovery (c : Nat) (s : State) :
    exec (.busOffRecovery c) s = execBusOffRecovery c s := (rfl)
theorem exec_addressClaim (m : Master) (c : Nat) (slot : Nat) (v : Word) (s : State) :
    exec (.addressClaim m c slot v) s = execAddressClaim m c slot v s := (rfl)
theorem exec_claimHoldExpiry (c : Nat) (slot : Nat) (s : State) :
    exec (.claimHoldExpiry c slot) s = execClaimHoldExpiry c slot s := (rfl)
theorem exec_cannotClaim (c : Nat) (slot : Nat) (s : State) :
    exec (.cannotClaim c slot) s = execCannotClaim c slot s := (rfl)
theorem exec_tunnelEnable (m : Master) (v : Word) (s : State) :
    exec (.tunnelEnable m v) s = execTunnelEnable m v s := (rfl)
theorem exec_tunnelFlush (t : Nat) (s : State) :
    exec (.tunnelFlush t) s = execTunnelFlush t s := (rfl)
theorem exec_avtpduReceive (stream : Nat) (seq : Nat) (msgs : List AcfMsg) (s : State) :
    exec (.avtpduReceive stream seq msgs) s = execAvtpduReceive stream seq msgs s := (rfl)
theorem exec_bridgeRequest (m : Master) (addr : Nat) (write : Option (List Byte)) (bytes : Nat) (s : State) :
    exec (.bridgeRequest m addr write bytes) s = execBridgeRequest m addr write bytes s := (rfl)
theorem exec_cplTimeout (tag : Nat) (s : State) :
    exec (.cplTimeout tag) s = execCplTimeout tag s := (rfl)
theorem exec_postedWriteError (n : Nat) (s : State) :
    exec (.postedWriteError n) s = execPostedWriteError n s := (rfl)
theorem exec_linkTraining (p : Nat) (width : Nat) (peer : Nat) (s : State) :
    exec (.linkTraining p width peer) s = execLinkTraining p width peer s := (rfl)
theorem exec_portDown (p : Nat) (s : State) :
    exec (.portDown p) s = execPortDown p s := (rfl)
theorem exec_cellReceive (p : Nat) (c : Cell) (uncorrectable : Bool) (s : State) :
    exec (.cellReceive p c uncorrectable) s = execCellReceive p c uncorrectable s := (rfl)
theorem exec_cellTransmit (p : Nat) (vc : Nat) (again : Option Nat) (s : State) :
    exec (.cellTransmit p vc again) s = execCellTransmit p vc again s := (rfl)
theorem exec_timeMessageSend (s : State) :
    exec (.timeMessageSend) s = execTimeMessageSend s := (rfl)
theorem exec_linkDelayMeasure (p : Nat) (outNs : Nat) (backNs : Nat) (s : State) :
    exec (.linkDelayMeasure p outNs backNs) s = execLinkDelayMeasure p outNs backNs s := (rfl)
theorem exec_rendezvous (p : Nat) (caught : Option Int) (s : State) :
    exec (.rendezvous p caught) s = execRendezvous p caught s := (rfl)
theorem exec_wskWakePulse (p : Nat) (ticks : Nat) (driftNs : Int) (s : State) :
    exec (.wskWakePulse p ticks driftNs) s = execWskWakePulse p ticks driftNs s := (rfl)
theorem exec_powerUp (s : State) :
    exec (.powerUp) s = execPowerUp s := (rfl)
theorem exec_resetAssert (s : State) :
    exec (.resetAssert) s = execResetAssert s := (rfl)
theorem exec_boot (slotA : BootSlot) (slotB : BootSlot) (rec : RecordSource) (s : State) :
    exec (.boot slotA slotB rec) s = execBoot slotA slotB rec s := (rfl)
theorem exec_brownOut (rail : Nat) (s : State) :
    exec (.brownOut rail) s = execBrownOut rail s := (rfl)
theorem exec_powerOff (s : State) :
    exec (.powerOff) s = execPowerOff s := (rfl)
theorem exec_powerFailWarning (s : State) :
    exec (.powerFailWarning) s = execPowerFailWarning s := (rfl)
theorem exec_wake (w : WakeSource) (s : State) :
    exec (.wake w) s = execWake w s := (rfl)
theorem exec_wakeTimer (s : State) :
    exec (.wakeTimer) s = execWakeTimer s := (rfl)
theorem exec_standbySecond (s : State) :
    exec (.standbySecond) s = execStandbySecond s := (rfl)
theorem exec_getVersion (m : Master) (ch : Nat) (s : State) :
    exec (.getVersion m ch) s = execGetVersion m ch s := (rfl)
theorem exec_fwLoad (m : Master) (ch : Nat) (ok : Bool) (s : State) :
    exec (.fwLoad m ch ok) s = execFwLoad m ch ok s := (rfl)
theorem exec_fwRestart (m : Master) (ch : Nat) (s : State) :
    exec (.fwRestart m ch) s = execFwRestart m ch s := (rfl)
theorem exec_fwRestartDone (proc : Nat) (areaOk : Bool) (s : State) :
    exec (.fwRestartDone proc areaOk) s = execFwRestartDone proc areaOk s := (rfl)
theorem exec_powerMode (m : Master) (ch : Nat) (s : State) :
    exec (.powerMode m ch) s = execPowerMode m ch s := (rfl)
theorem exec_fieldRecordRead (m : Master) (ch : Nat) (s : State) :
    exec (.fieldRecordRead m ch) s = execFieldRecordRead m ch s := (rfl)
theorem exec_billetPrepare (m : Master) (ch : Nat) (s : State) :
    exec (.billetPrepare m ch) s = execBilletPrepare m ch s := (rfl)
theorem exec_billetPair (m : Master) (ch : Nat) (ok : Bool) (s : State) :
    exec (.billetPair m ch ok) s = execBilletPair m ch ok s := (rfl)
theorem exec_billetStatus (m : Master) (ch : Nat) (s : State) :
    exec (.billetStatus m ch) s = execBilletStatus m ch s := (rfl)
theorem exec_attest (m : Master) (ch : Nat) (s : State) :
    exec (.attest m ch) s = execAttest m ch s := (rfl)
theorem exec_keyRelease (m : Master) (ch : Nat) (s : State) :
    exec (.keyRelease m ch) s = execKeyRelease m ch s := (rfl)
theorem exec_ethPortCfg (m : Master) (ch : Nat) (s : State) :
    exec (.ethPortCfg m ch) s = execEthPortCfg m ch s := (rfl)
theorem exec_dspLinkCfg (m : Master) (ch : Nat) (s : State) :
    exec (.dspLinkCfg m ch) s = execDspLinkCfg m ch s := (rfl)
theorem exec_kick (m : Master) (v : Word) (s : State) :
    exec (.kick m v) s = execKick m v s := (rfl)
theorem exec_cupolaWatchdog (s : State) :
    exec (.cupolaWatchdog) s = execCupolaWatchdog s := (rfl)
theorem exec_mgrLockSet (m : Master) (v : Word) (s : State) :
    exec (.mgrLockSet m v) s = execMgrLockSet m v s := (rfl)
theorem exec_irqEnable (m : Master) (v : Word) (s : State) :
    exec (.irqEnable m v) s = execIrqEnable m v s := (rfl)
theorem exec_registerWrite (m : Master) (addr : Nat) (h : Half) (v : Word) (s : State) :
    exec (.registerWrite m addr h v) s = execRegisterWrite m addr h v s := (rfl)
theorem exec_bypass (s : State) :
    exec (.bypass) s = execBypass s := (rfl)
theorem exec_samplePreload (pins : List Bool) (preload : List Bool) (s : State) :
    exec (.samplePreload pins preload) s = execSamplePreload pins preload s := (rfl)
theorem exec_extest (s : State) :
    exec (.extest) s = execExtest s := (rfl)
theorem exec_idcode (s : State) :
    exec (.idcode) s = execIdcode s := (rfl)
theorem exec_clamp (s : State) :
    exec (.clamp) s = execClamp s := (rfl)
theorem exec_highz (s : State) :
    exec (.highz) s = execHighz s := (rfl)
theorem exec_tsclkEdge (s : State) :
    exec (.tsclkEdge) s = execTsclkEdge s := (rfl)
theorem exec_instanceResetDone (idx : Nat) (s : State) :
    exec (.instanceResetDone idx) s = execInstanceResetDone idx s := (rfl)
theorem exec_powerFailWarningEnd (s : State) :
    exec (.powerFailWarningEnd) s = execPowerFailWarningEnd s := (rfl)
theorem exec_billetChange (fitted : Bool) (serial : Nat) (endurance : Nat) (foreign : Bool) (s : State) :
    exec (.billetChange fitted serial endurance foreign) s = execBilletChange fitted serial endurance foreign s := (rfl)
theorem exec_unknownMsgId (m : Master) (ch : Nat) (s : State) :
    exec (.unknownMsgId m ch) s = execUnknownMsgId m ch s := (rfl)
theorem exec_deniedRead (m : Master) (addr : Nat) (h : Half) (s : State) :
    exec (.deniedRead m addr h) s = execDeniedRead m addr h s := (rfl)
theorem exec_startInterfaceRequest (p : Nat) (vf : Nat) (s : State) :
    exec (.startInterfaceRequest p vf) s = execStartInterfaceRequest p vf s := (rfl)
theorem exec_ideKm (port : Nat) (stream : Nat) (key : Nat) (s : State) :
    exec (.ideKm port stream key) s = execIdeKm port stream key s := (rfl)
theorem exec_linkRetrain (l : LinkId) (s : State) :
    exec (.linkRetrain l) s = execLinkRetrain l s := (rfl)

end Sys2Proof.Machine
end

