-- ==== Sys2Proof/Laws/Frames.lean ====
section
/-! SUPPORT. Frames: how `Leaves` composes, and what an access of memory can change: every read, write and translation
leaves all but `accessParts` and `accessRegs`, and one of a real-time master all but `rtParts` and `rtRegs`. -/

namespace Sys2Proof.Machine

/-! ## Frames compose -/

theorem Leaves.refl (ps : List Part) (q : Reg → Nat → Prop) (s : State) : Leaves ps q s s :=
  ⟨fun p _ => by cases p <;> rfl, fun _ _ _ => rfl⟩

/-- Sameness of a part passes on. -/
theorem Part.same_trans {p : Part} {s t u : State} (h : p.same s t) (g : p.same t u) : p.same s u := by
  cases p <;> exact Eq.trans g h

theorem Leaves.trans {ps : List Part} {q : Reg → Nat → Prop} {s t u : State} (h : Leaves ps q s t) (g : Leaves ps q t u) :
    Leaves ps q s u :=
  ⟨fun p hp => Part.same_trans (h.1 p hp) (g.1 p hp), fun r i hq => (g.2 r i hq).trans (h.2 r i hq)⟩

theorem Leaves.mono {ps rs : List Part} {q k : Reg → Nat → Prop} {s t : State} (h : Leaves ps q s t) (h1 : ps ⊆ rs)
    (h2 : ∀ r i, q r i → k r i) : Leaves rs k s t :=
  ⟨fun p hp => h.1 p fun x => hp (h1 x), fun r i hk => h.2 r i fun x => hk (h2 r i x)⟩

/-- Steps that all leave the same, in a row. -/
theorem Leaves.each {α : Type} {ps : List Part} {q : Reg → Nat → Prop} (g : State → α → State)
    (h : ∀ s x, Leaves ps q s (g s x)) (xs : List α) : ∀ s, Leaves ps q s (s.each xs g) := by
  induction xs with
  | nil => exact fun s => Leaves.refl _ _ s
  | cons x xs ih => exact fun s => (h s x).trans (ih (g s x))

/-- A field set changes its register alone. -/
theorem leaves_setF (s : State) (x : Fld) (i v : Nat) : Leaves [] (oneReg x.reg i) s (s.setF x i v) :=
  ⟨fun p _ => by cases p <;> rfl, fun r j h => State.setF_r_ne s x r i j v h⟩

theorem leaves_setR (s : State) (g : Reg) (i v : Nat) : Leaves [] (oneReg g i) s (s.setR g i v) :=
  ⟨fun p _ => by cases p <;> rfl, fun r j h => by rw [State.setR_r]; exact if_neg h⟩

theorem leaves_emit (s : State) (o : Out) : Leaves [.outbox] noReg s (s.emit o) :=
  ⟨fun p hp => by cases p <;> first | rfl | simp at hp, fun _ _ _ => rfl⟩

theorem leaves_mgrIrq (s : State) (n k : Nat) : Leaves [.outbox, .keptIrqs] noReg s (s.mgrIrq n k) := by
  unfold State.mgrIrq
  split
  · exact (leaves_emit s _).mono (by simp) fun _ _ h => h
  · exact ⟨fun p hp => by cases p <;> first | rfl | simp at hp, fun _ _ _ => rfl⟩

/-! ## Accesses -/

/-- From `s` to `t` at most what an access may change has changed. -/
abbrev Accessed (s t : State) : Prop := Leaves accessParts accessRegs s t

/-- A change of parts that an access may change. -/
theorem accessed_of_regs {s t : State} (h : ∀ p, p ∉ accessParts → p.same s t) (g : t.regs = s.regs) : Accessed s t :=
  ⟨h, fun r i _ => by unfold State.r; rw [g]⟩

theorem accessed_setF (s : State) (x : Fld) (i v : Nat) (h : accessRegs x.reg i) : Accessed s (s.setF x i v) :=
  (leaves_setF s x i v).mono (by simp) fun r j e => by
    obtain ⟨rfl, rfl⟩ := e
    exact h

theorem accessed_setR (s : State) (g : Reg) (i v : Nat) (h : accessRegs g i) : Accessed s (s.setR g i v) :=
  (leaves_setR s g i v).mono (by simp) fun r j e => by
    obtain ⟨rfl, rfl⟩ := e
    exact h

theorem accessed_emit (s : State) (o : Out) : Accessed s (s.emit o) :=
  (leaves_emit s o).mono (by simp [accessParts]) fun _ _ h => h.elim

theorem accessed_mgrIrq (s : State) (n k : Nat) : Accessed s (s.mgrIrq n k) :=
  (leaves_mgrIrq s n k).mono (by simp [accessParts]) fun _ _ h => h.elim

theorem accessed_store (s : State) (a : Nat) (bs : List Byte) : Accessed s (s.store a bs) :=
  accessed_of_regs (fun p hp => by cases p <;> first | rfl | simp [accessParts] at hp) rfl

theorem accessed_freshLine (s : State) (l : Nat) : Accessed s (s.freshLine l) :=
  accessed_of_regs (fun p hp => by cases p <;> first | rfl | simp [accessParts] at hp) rfl

theorem accessed_mended (s : State) (l : Nat) : Accessed s (s.mended l) :=
  accessed_of_regs (fun p hp => by cases p <;> first | rfl | simp [accessParts] at hp) rfl

theorem accessed_shareLine (s : State) (l : Nat) : Accessed s (s.shareLine l) := by
  unfold State.shareLine
  split
  · exact accessed_of_regs (fun p hp => by cases p <;> first | rfl | simp [accessParts] at hp) rfl
  · exact Leaves.refl _ _ s

theorem accessed_lineStored (s : State) (l : Nat) : Accessed s (s.lineStored l) := by
  unfold State.lineStored
  simp only
  split
  · exact (accessed_freshLine s l).trans (accessed_store _ _ _)
  · split
    · exact ((accessed_freshLine s l).trans (accessed_store _ _ _)).trans (accessed_freshLine _ _)
    · exact accessed_freshLine s l

theorem accessed_modRec (s : State) (g : FieldRecord → FieldRecord) : Accessed s (s.modRec g) :=
  accessed_of_regs (fun p hp => by cases p <;> first | rfl | simp [accessParts] at hp) rfl

theorem accessed_freshBytes (s : State) (n : Nat) : Accessed s (s.freshBytes n).2 :=
  accessed_of_regs (fun p hp => by cases p <;> first | rfl | simp [accessParts] at hp) rfl

theorem accessed_nextTag (s : State) (n : Nat) : Accessed s { s with net.nextTag := n } :=
  accessed_of_regs (fun p hp => by cases p <;> first | rfl | simp [accessParts] at hp) rfl

theorem accessed_fresh (s : State) : Accessed s s.fresh.2 :=
  accessed_of_regs (fun p hp => by cases p <;> first | rfl | simp [accessParts] at hp) rfl

/-! ### Gates -/

theorem accessed_setGate (s : State) (g : Nat) (x : Nat × Nat × Nat × Bool) : Accessed s (s.setGate g x) :=
  accessed_of_regs (fun p hp => by cases p <;> first | rfl | simp [accessParts] at hp) rfl

theorem accessed_setGateWait (s : State) (g : Nat) (x : List Nat) : Accessed s (s.setGateWait g x) :=
  accessed_of_regs (fun p hp => by cases p <;> first | rfl | simp [accessParts] at hp) rfl

/-- A request passes its gate. -/
theorem accessed_gateReq (s : State) (g n : Nat) : Accessed s (s.gateReq g n) := by
  unfold State.gateReq State.gateLeave
  simp only
  repeat' split
  all_goals first | exact Leaves.refl _ _ s | exact accessed_setGate _ _ _ | exact accessed_setGateWait _ _ _

/-! ### What the memory controller reports -/

theorem accessed_safePin (s : State) (n : String) (v : Bool) : Accessed s (s.safePin n v) := by
  unfold State.safePin
  split
  · exact Leaves.refl _ _ s
  · exact accessed_emit s _

/-- The monitors assert or release an output. -/
theorem accessed_modPower (s : State) (g : PowerSt → PowerSt) (h : ∀ p, (g p).calm = p.calm) : Accessed s (s.modPower g) :=
  accessed_of_regs (fun p hp => by cases p <;> first | exact h _ | rfl | simp [accessParts] at hp) rfl

theorem accessed_assertFlt (s : State) : Accessed s s.assertFlt := by
  unfold State.assertFlt
  split
  · exact Leaves.refl _ _ s
  · refine Leaves.trans (Leaves.trans (Leaves.trans (accessed_setF s SYS_SAFESTAT.FLT 0 1 ?_)
      (accessed_modPower _ _ ?_)) (accessed_safePin _ _ _)) (accessed_modRec _ _)
    · simp [accessRegs, SYS_SAFESTAT.FLT]
    · exact fun p => rfl

theorem accessed_updateWarn (s : State) : Accessed s s.updateWarn := by
  unfold State.updateWarn
  have h : ∀ v, Accessed s (s.setF SYS_SAFESTAT.WARN 0 v) := fun v =>
    accessed_setF s _ _ _ (by simp [accessRegs, SYS_SAFESTAT.WARN])
  simp only
  split
  · exact h _
  · refine Leaves.trans (Leaves.trans (h _) (accessed_modPower _ _ ?_)) (accessed_safePin _ _ _)
    exact fun p => rfl

/-- A safety cause is reported. -/
theorem accessed_safety (s : State) (x : Fld) (u d : Nat) (h : x.reg = .sysSafestat) : Accessed s (s.safety x u d) := by
  have h1 : Accessed s (s.setF x 0 1) := accessed_setF s _ _ _ (by simp [accessRegs, h])
  have h2 : ∀ (t : State) c, Accessed t (t.logEvent c u d) := fun t c => accessed_modRec _ _
  have h3 : ∀ t : State, Accessed t (if isFlt x then t.assertFlt else t.updateWarn) := by
    intro t
    split
    · exact accessed_assertFlt _
    · exact accessed_updateWarn _
  unfold State.safety
  simp only
  refine Leaves.trans ?_ (accessed_emit _ _)
  refine Leaves.trans ?_ (accessed_mgrIrq _ _ _)
  refine Leaves.trans ?_ (h3 _)
  cases causeCode x with
  | some c => exact h1.trans (h2 _ _)
  | none => exact (h1.trans (accessed_fresh _)).trans (h2 _ _)

theorem accessed_countCorrected (s : State) (ch sub : Nat) : Accessed s (s.countCorrected ch sub) :=
  ((accessed_setF s _ _ _ (by simp [accessRegs, MEM_CHSTAT.CORRECTED])).trans (accessed_fresh _)).trans (accessed_modRec _ _)

theorem accessed_countUncorr (s : State) (ch sub : Nat) : Accessed s (s.countUncorr ch sub) :=
  ((accessed_setF s _ _ _ (by simp [accessRegs, MEM_CHSTAT.UNCORR])).trans (accessed_modRec _ _)).trans
    (accessed_safety _ _ _ _ rfl)

theorem accessed_corrections (ch : Nat) (fs : List Flip) :
    ∀ s, Accessed s (fs.foldl (fun s f => s.countCorrected ch f.sub) s) := by
  induction fs with
  | nil => exact fun s => Leaves.refl _ _ s
  | cons f fs ih => exact fun s => (accessed_countCorrected s ch f.sub).trans (ih _)

/-- A line is read through the error correction. -/
theorem accessed_eccRead (s : State) (l : Nat) : Accessed s (s.eccRead l).2 := by
  unfold State.eccRead
  split
  · exact Leaves.refl _ _ s
  · simp only
    split
    · exact accessed_countUncorr _ _ _
    · exact (accessed_corrections _ _ s).trans (accessed_mended _ _)

theorem accessed_poisonLine (s : State) (l : Nat) : Accessed s (s.poisonLine l) :=
  accessed_of_regs (fun p hp => by cases p <;> first | rfl | simp [accessParts] at hp) rfl

theorem accessed_integrityFail (s : State) (l part : Nat) : Accessed s (s.integrityFail l part) :=
  (accessed_poisonLine s l).trans (accessed_mgrIrq _ _ _)

theorem accessed_evict (s : State) (l : Nat) : Accessed s (s.evict l) := by
  have h : ∀ c, Accessed s { s with mem.cache := c } := fun c =>
    accessed_of_regs (fun p hp => by cases p <;> first | rfl | simp [accessParts] at hp) rfl
  unfold State.evict
  split
  · exact Leaves.refl _ _ s
  · simp only
    split
    · exact (h _).trans (accessed_lineStored _ _)
    · exact h _

theorem accessed_updateOcc (s : State) : Accessed s s.updateOcc :=
  Leaves.each _ (fun s p => accessed_setF s _ p _ (by simp [accessRegs, MEM_CWAYS.OCC])) _ s

theorem accessed_touch (s : State) (part l : Nat) (dirty : Bool) : Accessed s (s.touch part l dirty) := by
  have h : ∀ (s : State) k c, Accessed s { s with mem.useClock := k, mem.cache := c } := fun s k c =>
    accessed_of_regs (fun p hp => by cases p <;> first | rfl | simp [accessParts] at hp) rfl
  have h1 : ∀ (s : State) k, Accessed s { s with mem.useClock := k } := fun s k => h s k s.mem.cache
  have h2 : ∀ (s : State) c, Accessed s { s with mem.cache := c } := fun s c => h s s.mem.useClock c
  unfold State.touch
  simp only
  split
  · exact h s _ _
  · split
    · split
      · exact (h1 s _).trans (accessed_lineStored _ _)
      · exact h1 s _
    · refine Leaves.trans ?_ (accessed_updateOcc _)
      split
      · exact ((h1 s _).trans (accessed_evict _ _)).trans (h2 _ _)
      · exact (h1 s _).trans (h2 _ _)

theorem accessed_dropHolders (s : State) (l : Nat) : Accessed s (s.dropHolders l) :=
  accessed_of_regs (fun p hp => by cases p <;> first | rfl | simp [accessParts] at hp) rfl

theorem accessed_wskOriginate (s : State) (d vc : Nat) (b : CellBody) : Accessed s (s.wskOriginate d vc b) := by
  unfold State.wskOriginate
  split
  · exact accessed_of_regs (fun p hp => by cases p <;> first | rfl | simp [accessParts] at hp) rfl
  · exact accessed_setF s _ _ _ (by simp [accessRegs, WSK_STAT.NO_ROUTE])

theorem accessed_farSend (s : State) (n pa : Nat) (d : Option (List Byte)) (k : Nat) (np : Bool) (tag : Nat)
    (who : Option Nat) : Accessed s (s.farSend n pa d k np tag who) := by
  unfold State.farSend
  simp only
  split <;> split
  · exact accessed_wskOriginate _ _ _ _
  · exact accessed_wskOriginate _ _ _ _
  · exact (accessed_emit _ _).trans (accessed_emit _ _)
  · exact accessed_emit _ _

/-- A line is read from memory. -/
theorem accessed_dramLine (s : State) (l : Nat) : Accessed s (s.dramLine l).2 := by
  have h := accessed_eccRead s l
  unfold State.dramLine
  split <;> rename_i e <;> rw [e] at h
  · simp only
    split
    · exact h
    · exact h.trans (accessed_store _ _ _)
  · rename_i s1
    split
    · exact h.trans (accessed_poisonLine _ _)
    · rename_i c _
      have g : Accessed s1 (if s1.mem.poison.contains c then (none, s1) else s1.eccRead c).2 := by
        split
        · exact Leaves.refl _ _ s1
        · exact accessed_eccRead s1 c
      split <;> rename_i e2 <;> rw [e2] at g
      · exact (h.trans g).trans (accessed_poisonLine _ _)
      · exact (((h.trans g).trans (accessed_modRec _ _)).trans (accessed_store _ _ _)).trans (accessed_freshLine _ _)

/-- A line that is not cached is fetched. -/
theorem accessed_fetchLine (s : State) (part l : Nat) : Accessed s (s.fetchLine part l).2 := by
  have h := accessed_dramLine s l
  unfold State.fetchLine
  split
  · exact Leaves.refl _ _ s
  · split <;> rename_i e <;> rw [e] at h
    · exact h
    · split
      · exact h
      · exact h.trans (accessed_integrityFail _ _ _)

theorem accessed_dramGet (s : State) (part pa n l : Nat) : Accessed s (s.dramGet part pa n l).2 := by
  have h := accessed_fetchLine s part l
  unfold State.dramGet
  split
  · exact accessed_touch _ _ _ _
  · split
    · exact Leaves.refl _ _ s
    · split
      · rename_i e
        rw [e] at h
        exact h.trans (accessed_touch _ _ _ _)
      · rename_i s1 _ e
        rw [e] at h
        exact h

theorem accessed_dramPut (s : State) (part pa : Nat) (bs : List Byte) (l : Nat) : Accessed s (s.dramPut part pa bs l).2 := by
  have k : ∀ t : State, Accessed t (((t.dropHolders l).store pa bs).touch part l true) := fun t =>
    ((accessed_dropHolders t l).trans (accessed_store _ _ _)).trans (accessed_touch _ _ _ _)
  have h := accessed_fetchLine s part l
  unfold State.dramPut
  simp only
  split
  · exact k s
  · split
    · exact Leaves.refl _ _ s
    · split <;> rename_i e <;> rw [e] at h
      · exact h.trans (k _)
      · exact h.trans (accessed_integrityFail _ _ _)
      · exact h

/-- A read within a line. -/
theorem accessed_lineRead (s : State) (part pa n : Nat) (who : Option Nat) : Accessed s (lineRead s part pa n who).2 := by
  unfold lineRead
  split
  · split
    · exact Leaves.refl _ _ s
    · split
      · exact Leaves.refl _ _ s
      · exact ((accessed_gateReq s _ _).trans (accessed_shareLine _ _)).trans (accessed_dramGet _ _ _ _ _)
  · split
    · split
      · exact Leaves.refl _ _ s
      · split
        · exact Leaves.refl _ _ s
        · exact (((accessed_gateReq s _ _).trans (accessed_farSend _ _ _ _ _ _ _ _)).trans (accessed_freshBytes _ _)).trans
            (accessed_nextTag _ _)
    · exact Leaves.refl _ _ s
  · exact Leaves.refl _ _ s

/-- A write within a line. -/
theorem accessed_lineWrite (s : State) (part pa : Nat) (bs : List Byte) (who : Option Nat) :
    Accessed s (lineWrite s part pa bs who).2 := by
  unfold lineWrite
  repeat' split
  all_goals first
    | exact Leaves.refl _ _ s
    | exact (accessed_gateReq s _ _).trans (accessed_dramPut _ _ _ _ _)
    | exact (accessed_gateReq s _ _).trans (accessed_farSend _ _ _ _ _ _ _ _)

theorem accessed_physReadL (part : Nat) (cs : List (Nat × Nat)) : ∀ s, Accessed s (physReadL part cs s).2 := by
  induction cs with
  | nil => exact fun s => Leaves.refl _ _ s
  | cons c cs ih =>
    intro s
    unfold physReadL
    have h := accessed_lineRead s part c.1 c.2 none
    split
    · rename_i bs s1 e
      rw [e] at h
      have g := ih s1
      split
      · rename_i e2
        rw [e2] at g
        exact h.trans g
      · exact h.trans g
    · exact h

/-- A physical read. -/
theorem accessed_physRead (s : State) (part a n : Nat) : Accessed s (physRead s part a n).2 := accessed_physReadL _ _ s

theorem accessed_physWriteL (part : Nat) (cs : List (Nat × Nat)) : ∀ bs s, Accessed s (physWriteL part cs bs s).2 := by
  induction cs with
  | nil => exact fun _ s => Leaves.refl _ _ s
  | cons c cs ih =>
    intro bs s
    unfold physWriteL
    have h := accessed_lineWrite s part c.1 (bs.take c.2) none
    split
    · rename_i e
      rw [e] at h
      exact h.trans (ih _ _)
    · exact h

/-- A physical write. -/
theorem accessed_physWrite (s : State) (part a : Nat) (bs : List Byte) : Accessed s (physWrite s part a bs).2 :=
  accessed_physWriteL _ _ _ s

/-! ## Translation -/

theorem accessed_walkRead (s : State) (part pa : Nat) : Accessed s (walkRead s part pa).2 := by
  have h := accessed_physRead s part pa 8
  unfold walkRead
  split <;> rename_i e <;> rw [e] at h <;> exact h

theorem accessed_dcAddr (s : State) (part dev : Nat) : Accessed s (s.dcAddr part dev).2 := by
  have h := accessed_walkRead s part (bits (s.r .dtuIommu 2) 53 10 * 4096 + 8 * (dev / 64))
  unfold State.dcAddr
  simp only
  split
  · split <;> exact Leaves.refl _ _ s
  · split <;> rename_i e <;> rw [e] at h
    · repeat' split
      all_goals exact h
    · exact h
  · exact Leaves.refl _ _ s

theorem accessed_readDc (s : State) (part dev : Nat) : Accessed s (s.readDc part dev).2 := by
  have h := accessed_dcAddr s part dev
  unfold State.readDc
  split <;> rename_i e <;> rw [e] at h
  · rename_i a s1
    have g := accessed_physRead s1 part a 64
    split <;> rename_i e2 <;> rw [e2] at g
    · simp only
      repeat' split
      all_goals exact h.trans g
    · exact h.trans g
  · exact h

theorem accessed_devCtx (s : State) (part dev : Nat) : Accessed s (s.devCtx part dev).2 := by
  have h := accessed_readDc s part dev
  unfold State.devCtx
  split
  · exact Leaves.refl _ _ s
  · split
    · rename_i e
      rw [e] at h
      exact h.trans (accessed_of_regs (fun p hp => by cases p <;> first | rfl | simp [accessParts] at hp) rfl)
    · exact h

/-- A walk whose fetches are accesses is one. -/
theorem accessed_walkTable (fetch : Nat → State → XRes Nat) (hf : ∀ a s, Accessed s (fetch a s).2) (pf : XFault) (x4 : Bool)
    (top addr : Nat) : ∀ lv base s, Accessed s (walkTable fetch pf x4 top addr lv base s).2 := by
  intro lv
  induction lv with
  | zero =>
    intro base s
    unfold walkTable
    have h := hf (base + 8 * pteIdx addr 0 top x4) s
    simp only
    split <;> rename_i e <;> rw [e] at h
    · exact h
    · repeat' split
      all_goals exact h
  | succ lv ih =>
    intro base s
    unfold walkTable
    have h := hf (base + 8 * pteIdx addr (lv + 1) top x4) s
    simp only
    split <;> rename_i e <;> rw [e] at h
    · exact h
    · repeat' split
      all_goals first | exact h | exact h.trans (ih _ _)

theorem accessed_dirtyLog (s : State) (inst gpa level : Nat) : Accessed s (s.dirtyLog inst gpa level) := by
  unfold State.dirtyLog
  split
  · exact Leaves.refl _ _ s
  · simp only
    split
    · exact accessed_setF s _ _ _ (by simp [accessRegs, DTU_DLOGCFG.ALLDIRTY])
    · exact (accessed_physWrite s _ _ _).trans (accessed_setF _ _ _ _ (by simp [accessRegs, DTU_DLOGIDX.PROD]))

theorem accessed_fetchPte (part : Nat) (w : Bool) (a : Nat) (s : State) : Accessed s (fetchPte part w a s).2 := by
  have h := accessed_walkRead s part a
  unfold fetchPte
  split <;> rename_i e <;> rw [e] at h <;> exact h

theorem accessed_gXlate (s : State) (part inst : Nat) (dc : DevCtx) (gpa : Nat) (w : Bool) (pf : XFault) :
    Accessed s (s.gXlate part inst dc gpa w pf).2 := by
  unfold State.gXlate
  split
  · exact Leaves.refl _ _ s
  · split
    · exact Leaves.refl _ _ s
    · rename_i top _
      split
      · exact Leaves.refl _ _ s
      · have h := accessed_walkTable (fetchPte part w) (accessed_fetchPte part w) pf true top gpa top (dcGPpn dc * 4096) s
        split <;> rename_i e <;> rw [e] at h
        · exact h
        · rename_i lf s1
          split
          · exact h
          · have h2 : Accessed s (if leafAD lf.pte w = lf.pte then s1 else (physWrite s1 part lf.at_ (toLE 8 (leafAD lf.pte w))).2) := by
              split
              · exact h
              · exact h.trans (accessed_physWrite _ _ _ _)
            simp only
            split
            · exact h2.trans (accessed_dirtyLog _ _ _ _)
            · exact h2

theorem accessed_implicitXlate (s : State) (part inst : Nat) (dc : DevCtx) (gpa : Nat) (a w : Bool) :
    Accessed s (s.implicitXlate part inst dc gpa a w).2 := by
  have h := accessed_gXlate s part inst dc gpa w (implicitFault gpa a w)
  unfold State.implicitXlate
  split <;> rename_i e <;> rw [e] at h
  · split <;> exact h
  · exact h

theorem accessed_fetchS1 (part inst : Nat) (dc : DevCtx) (w : Bool) (a : Nat) (s : State) :
    Accessed s (fetchS1 part inst dc w a s).2 := by
  have h := accessed_implicitXlate s part inst dc a w false
  unfold fetchS1
  split <;> rename_i e <;> rw [e] at h
  · exact h.trans (accessed_fetchPte _ _ _ _)
  · exact h

theorem accessed_sXlate (s : State) (part inst : Nat) (dc : DevCtx) (va : Nat) (w : Bool) :
    Accessed s (s.sXlate part inst dc va w).2 := by
  unfold State.sXlate
  simp only
  split
  · exact Leaves.refl _ _ s
  · split
    · exact Leaves.refl _ _ s
    · rename_i top _
      split
      · exact Leaves.refl _ _ s
      · have h := accessed_walkTable (fetchS1 part inst dc w) (accessed_fetchS1 part inst dc w) { cause := pageCause w } false
          top va top (dcSPpn dc * 4096) s
        split <;> rename_i e <;> rw [e] at h
        · exact h
        · rename_i lf s1
          split
          · exact h
          · split
            · exact h
            · have g := accessed_implicitXlate s1 part inst dc lf.at_ w true
              split <;> rename_i e2 <;> rw [e2] at g
              · exact (h.trans g).trans (accessed_physWrite _ _ _ _)
              · exact h.trans g

theorem accessed_walkBoth (s : State) (f inst : Nat) (dc : DevCtx) (va : Nat) (w : Bool) :
    Accessed s (s.walkBoth f inst dc va w).2 := by
  have h := accessed_sXlate s f inst dc va w
  unfold State.walkBoth
  split <;> rename_i e <;> rw [e] at h
  · rename_i gpa lv s1
    have g := accessed_gXlate s1 f inst dc gpa w (guestFault gpa w)
    split <;> rename_i e2 <;> rw [e2] at g <;> exact h.trans g
  · exact h

theorem accessed_rawXlate (s : State) (inst va : Nat) (w : Bool) : Accessed s (s.rawXlate inst va w).2 := by
  unfold State.rawXlate
  simp only
  split
  · exact Leaves.refl _ _ s
  · exact Leaves.refl _ _ s
  · split
    · exact Leaves.refl _ _ s
    · have h := accessed_devCtx s (s.instFlask inst) inst
      split <;> rename_i e <;> rw [e] at h
      · exact h
      · rename_i dc s1
        have g := accessed_walkBoth s1 (s.instFlask inst) inst dc va w
        split <;> rename_i e2 <;> rw [e2] at g
        · exact h.trans g
        · exact (h.trans g).trans
            (accessed_of_regs (fun p hp => by cases p <;> first | rfl | simp [accessParts] at hp) rfl)

theorem accessed_dtuFault (s : State) (inst va : Nat) (w : Bool) (e : XFault) : Accessed s (s.dtuFault inst va w e) := by
  have h : ∀ fs, Accessed s { s with dtu.faults := fs } := fun fs =>
    accessed_of_regs (fun p hp => by cases p <;> first | rfl | simp [accessParts] at hp) rfl
  have k : ∀ t i v, Accessed t (t.setR .dtuIommu i v) := fun t i v => accessed_setR _ _ _ _ (by simp [accessRegs])
  unfold State.dtuFault
  refine Leaves.trans ?_ (accessed_mgrIrq _ _ _)
  simp only
  split
  · exact h _
  · split
    · exact (h _).trans (k _ _ _)
    · split <;> rename_i e2
      all_goals
        refine Leaves.trans ?_ (k _ _ _)
        exact (h _).trans (e2 ▸ accessed_physWrite _ 8 _ _)

/-- A translation. -/
theorem accessed_xlate (s : State) (inst va : Nat) (w : Bool) : Accessed s (s.xlate inst va w).2 := by
  have h := accessed_rawXlate s inst va w
  unfold State.xlate
  split <;> rename_i e <;> rw [e] at h
  · split
    · exact h
    · exact h.trans (accessed_dtuFault _ _ _ _ _)
  · simp only
    split
    · exact h.trans (accessed_dtuFault _ _ _ _ _)
    · exact h

theorem accessed_instReadL (inst : Nat) (cs : List (Nat × Nat)) : ∀ s, Accessed s (instReadL inst cs s).2 := by
  induction cs with
  | nil => exact fun s => Leaves.refl _ _ s
  | cons c cs ih =>
    intro s
    unfold instReadL
    have h := accessed_xlate s inst c.1 false
    split <;> rename_i e <;> rw [e] at h
    · exact h
    · rename_i pa s1
      have g := accessed_lineRead s1 (s1.instFlask inst) pa c.2 (some inst)
      split
      · rename_i s2 e2
        rw [e2] at g
        have k := ih s2
        split
        · rename_i e3
          rw [e3] at k
          exact (h.trans g).trans k
        · exact (h.trans g).trans k
      · exact h.trans g

/-- A read of an instance's memory. -/
theorem accessed_instRead (s : State) (inst va n : Nat) : Accessed s (instRead s inst va n).2 := accessed_instReadL _ _ s

theorem accessed_instWriteL (inst : Nat) (cs : List (Nat × Nat)) : ∀ bs s, Accessed s (instWriteL inst cs bs s).2 := by
  induction cs with
  | nil => exact fun _ s => Leaves.refl _ _ s
  | cons c cs ih =>
    intro bs s
    unfold instWriteL
    have h := accessed_xlate s inst c.1 true
    split <;> rename_i e <;> rw [e] at h
    · exact h
    · rename_i pa s1
      have g := accessed_lineWrite s1 (s1.instFlask inst) pa (bs.take c.2) (some inst)
      split
      · rename_i e2
        rw [e2] at g
        exact (h.trans g).trans (ih _ _)
      · exact h.trans g

/-- A write of an instance's memory. -/
theorem accessed_instWrite (s : State) (inst va : Nat) (bs : List Byte) : Accessed s (instWrite s inst va bs).2 :=
  accessed_instWriteL _ _ _ s

/-! ### Real-time masters (R183, R185) -/

/-- A request of a real-time master uses its allowance or sets CAPPED. -/
theorem leaves_rtRequest (s : State) (m n : Nat) : Leaves rtParts rtRegs s (rtRequest m n s) := by
  unfold rtRequest
  simp only
  split
  · exact ⟨fun p hp => by cases p <;> first | rfl | simp [rtParts, accessParts] at hp, fun _ _ _ => rfl⟩
  · exact (leaves_setF s GATE_RT.CAPPED m 1).mono (by simp) fun r i e => Or.inr e.1

theorem leaves_rtRequests (s : State) (m n : Nat) : Leaves rtParts rtRegs s (rtRequests m n s) :=
  Leaves.each _ (fun _ _ => leaves_rtRequest _ _ _) _ s

/-- Accesses that are charged to a real-time master leave what accesses leave, and the master's allowance apart. -/
theorem leaves_rtCharge {s t : State} (m n : Nat) (h : Leaves accessParts accessRegs s t) :
    Leaves rtParts rtRegs s (t.rtCharge s m n) := by
  refine Leaves.trans ?_ (leaves_rtRequests _ m n)
  refine (h.mono (List.subset_cons_self _ _) fun r i e => Or.inl e).trans ?_
  exact ⟨fun p hp => by cases p <;> first | rfl | simp [rtParts, accessParts] at hp, fun _ _ _ => rfl⟩

theorem leaves_rtRead (m : Nat) (s : State) (inst va n : Nat) : Leaves rtParts rtRegs s (rtRead m s inst va n).2 :=
  leaves_rtCharge m n (accessed_instRead s inst va n)

theorem leaves_rtWrite (m : Nat) (s : State) (inst va : Nat) (bs : List Byte) :
    Leaves rtParts rtRegs s (rtWrite m s inst va bs).2 :=
  leaves_rtCharge m _ (accessed_instWrite s inst va bs)

end Sys2Proof.Machine
end

