-- ==== Sys2Proof/Laws/RegWrite.lean ====
section
/-! SUPPORT. What a register write leaves in each field, by its access type (R342), and that an accepted write is
taken (R346). -/

namespace Sys2Proof.Machine

/-! ## Field ranges -/

/-- A field range of a map: low end, high end, within the register. -/
abbrev rangeOk (f : Nat × Nat × FKind) : Prop := f.2.1 ≤ f.1 ∧ f.1 < 64

/-- Two ranges share no bit. -/
abbrev rangesApart (f g : Nat × Nat × FKind) : Prop := f.1 < g.2.1 ∨ g.1 < f.2.1

theorem Reg.fields_ok (r : Reg) : (∀ f ∈ r.fields, rangeOk f) ∧ r.fields.Pairwise rangesApart := by
  cases r <;> decide

theorem iommuFields_ok (i : Nat) :
    (∀ f ∈ iommuFields i, rangeOk f) ∧ (iommuFields i).Pairwise rangesApart := by
  unfold iommuFields
  split <;> decide

/-- The fields of every occurrence of every map lie apart, within the register. -/
theorem Reg.fieldsAt_ok (r : Reg) (i : Nat) :
    (∀ f ∈ r.fieldsAt i, rangeOk f) ∧ (r.fieldsAt i).Pairwise rangesApart := by
  unfold Reg.fieldsAt
  split
  · refine ⟨fun f hf => (Reg.fields_ok _).1 f (List.mem_filter.mp hf).1, ?_⟩
    exact (Reg.fields_ok _).2.filter _
  · exact iommuFields_ok i
  · exact Reg.fields_ok r

/-! ## One field -/

/-- A write of one field leaves every range apart from it. -/
theorem writeField_apart (w j : Nat) (b m : Bool) (acc : Nat) (f : Nat × Nat × FKind) (hi lo : Nat)
    (hf : f.2.1 ≤ f.1) (_h : lo ≤ hi) (ha : f.1 < lo ∨ hi < f.2.1) :
    bits (writeField w j b m acc f) hi lo = bits acc hi lo := by
  have e1 : ∀ v, bits (putBits acc f.1 f.2.1 v) hi lo = bits acc hi lo := by
    intro v
    rcases ha with ha | ha
    · exact bits_putBits_above _ _ _ _ _ _ (by omega) ha
    · exact bits_putBits_below _ _ _ _ _ _ (by omega) ha
  have e2 : ∀ v, bits (putBits acc f.2.1 f.2.1 v) hi lo = bits acc hi lo := by
    intro v
    rcases ha with ha | ha
    · exact bits_putBits_above _ _ _ _ _ _ (by omega) (by omega)
    · exact bits_putBits_below _ _ _ _ _ _ (by omega) ha
  unfold writeField
  simp only
  split <;> (try split) <;> first | rfl | exact e1 _ | exact e2 _

theorem foldl_apart (w j : Nat) (b m : Bool) (hi lo : Nat) (h : lo ≤ hi) (fs : List (Nat × Nat × FKind)) :
    ∀ acc, (∀ f ∈ fs, rangeOk f ∧ (f.1 < lo ∨ hi < f.2.1)) →
      bits (fs.foldl (writeField w j b m) acc) hi lo = bits acc hi lo := by
  induction fs with
  | nil => intro acc _; rfl
  | cons f fs ih =>
    intro acc hf
    rw [List.foldl_cons, ih _ (fun g hg => hf g (List.mem_cons_of_mem _ hg))]
    have := hf f List.mem_cons_self
    exact writeField_apart w j b m acc f hi lo this.1.1 h this.2

/-- A write of all fields leaves in each what the write of that field alone leaves. -/
theorem foldl_field (w j : Nat) (b m : Bool) (g : Nat × Nat × FKind) (fs : List (Nat × Nat × FKind)) :
    ∀ acc, (∀ f ∈ fs, rangeOk f) → fs.Pairwise rangesApart → g ∈ fs →
      ∃ a, bits a g.1 g.2.1 = bits acc g.1 g.2.1 ∧
        bits (fs.foldl (writeField w j b m) acc) g.1 g.2.1 = bits (writeField w j b m a g) g.1 g.2.1 := by
  induction fs with
  | nil => intro acc _ _ hg; simp at hg
  | cons f fs ih =>
    intro acc hok hp hg
    rw [List.pairwise_cons] at hp
    rcases List.mem_cons.mp hg with rfl | hg
    · refine ⟨acc, rfl, ?_⟩
      rw [List.foldl_cons]
      refine foldl_apart w j b m _ _ (hok g List.mem_cons_self).1 fs _ (fun f hf => ⟨hok f (List.mem_cons_of_mem _ hf), ?_⟩)
      have := hp.1 f hf
      rcases this with h | h
      · exact Or.inr h
      · exact Or.inl h
    · obtain ⟨a, ha, he⟩ := ih (writeField w j b m acc f) (fun f hf => hok f (List.mem_cons_of_mem _ hf)) hp.2 hg
      refine ⟨a, ?_, he⟩
      rw [ha]
      have hgk := hok g (List.mem_cons_of_mem _ hg)
      have := hp.1 g hg
      exact writeField_apart w j b m acc f _ _ (hok f List.mem_cons_self).1 hgk.1 this

/-! ## The merged value -/

/-- R342: an RW field takes the written value. -/
theorem State.merged_rw (s : State) (r : Reg) (i : Nat) (h : Half) (v hi lo : Nat) (hm : (hi, lo, .rw) ∈ r.fieldsAt i) :
    bits (s.merged r i h v) hi lo = bits (joined h (s.r r i) v) hi lo := by
  have ok := Reg.fieldsAt_ok r i
  obtain ⟨a, _, he⟩ := foldl_field (halfOf h v) (joined h (s.r r i) v) (s.fb SYS_LOCK.BOOT 0) (s.fb SYS_LOCK.MGR 0)
    (hi, lo, .rw) _ (s.r r i) ok.1 ok.2 hm
  unfold State.merged
  rw [he]
  show bits (putBits a hi lo (bits (joined h (s.r r i) v) hi lo)) hi lo = _
  rw [bits_putBits _ _ _ _ (by have := (ok.1 _ hm).1; simp at this; omega)]
  exact Nat.mod_eq_of_lt (bits_lt _ _ _)

/-- R342: an RO field keeps its value. -/
theorem State.merged_ro (s : State) (r : Reg) (i : Nat) (h : Half) (v hi lo : Nat) (hm : (hi, lo, .ro) ∈ r.fieldsAt i) :
    bits (s.merged r i h v) hi lo = bits (s.r r i) hi lo := by
  have ok := Reg.fieldsAt_ok r i
  obtain ⟨a, ha, he⟩ := foldl_field (halfOf h v) (joined h (s.r r i) v) (s.fb SYS_LOCK.BOOT 0) (s.fb SYS_LOCK.MGR 0)
    (hi, lo, .ro) _ (s.r r i) ok.1 ok.2 hm
  unfold State.merged
  rw [he]
  exact ha

/-- R342: a W1S bit is set by a 1b and kept by a 0b. -/
theorem State.merged_w1s (s : State) (r : Reg) (i : Nat) (h : Half) (v k : Nat) (hm : (k, k, .w1s) ∈ r.fieldsAt i) :
    bits (s.merged r i h v) k k = if bit (halfOf h v) k then 1 else bits (s.r r i) k k := by
  have ok := Reg.fieldsAt_ok r i
  obtain ⟨a, ha, he⟩ := foldl_field (halfOf h v) (joined h (s.r r i) v) (s.fb SYS_LOCK.BOOT 0) (s.fb SYS_LOCK.MGR 0)
    (k, k, .w1s) _ (s.r r i) ok.1 ok.2 hm
  unfold State.merged
  rw [he]
  show bits (if bit (halfOf h v) k then putBits a k k 1 else a) k k = _
  split
  · rw [bits_putBits _ _ _ _ (by omega)]; simp
  · exact ha

/-- R342: a W1C bit is cleared by a 1b and kept by a 0b. -/
theorem State.merged_w1c (s : State) (r : Reg) (i : Nat) (h : Half) (v k : Nat) (hm : (k, k, .w1c) ∈ r.fieldsAt i) :
    bits (s.merged r i h v) k k = if bit (halfOf h v) k then 0 else bits (s.r r i) k k := by
  have ok := Reg.fieldsAt_ok r i
  obtain ⟨a, ha, he⟩ := foldl_field (halfOf h v) (joined h (s.r r i) v) (s.fb SYS_LOCK.BOOT 0) (s.fb SYS_LOCK.MGR 0)
    (k, k, .w1c) _ (s.r r i) ok.1 ok.2 hm
  unfold State.merged
  rw [he]
  show bits (if bit (halfOf h v) k then putBits a k k 0 else a) k k = _
  split
  · rw [bits_putBits _ _ _ _ (by omega)]; simp
  · exact ha

theorem writeField_lt (w j : Nat) (b m : Bool) (acc : Nat) (f : Nat × Nat × FKind) (hf : rangeOk f)
    (h : acc < 2 ^ 64) : writeField w j b m acc f < 2 ^ 64 := by
  have e1 : ∀ v, putBits acc f.1 f.2.1 v < 2 ^ 64 := fun v => putBits_lt _ _ _ _ (by omega) hf.2 h
  have e2 : ∀ v, putBits acc f.2.1 f.2.1 v < 2 ^ 64 := fun v => putBits_lt _ _ _ _ (by omega) (by omega) h
  unfold writeField
  simp only
  split <;> (try split) <;> first | exact h | exact e1 _ | exact e2 _

theorem State.merged_lt (s : State) (r : Reg) (i : Nat) (h : Half) (v : Nat) : s.merged r i h v < 2 ^ 64 := by
  unfold State.merged
  have ok := (Reg.fieldsAt_ok r i).1
  generalize r.fieldsAt i = fs at ok
  have : ∀ acc, acc < 2 ^ 64 → fs.foldl (writeField (halfOf h v) (joined h (s.r r i) v) (s.fb SYS_LOCK.BOOT 0)
      (s.fb SYS_LOCK.MGR 0)) acc < 2 ^ 64 := by
    induction fs with
    | nil => intro acc h; exact h
    | cons f fs ih =>
      intro acc h1
      rw [List.foldl_cons]
      exact ih (fun g hg => ok g (List.mem_cons_of_mem _ hg)) _
        (writeField_lt _ _ _ _ _ _ (ok f List.mem_cons_self) h1)
  exact this _ (s.r_lt r i)

/-! ## Accepted writes -/

/-- No clock is lost: the path to every register is open. -/
theorem State.live_open (s : State) (r : Reg) (h : s.live) : s.regClosed r = false := by
  simp [State.regClosed, State.clockLost, h.2]

/-- An accepted write is taken, but for the doorbells of chapters 02 and 15. -/
theorem State.regWrite_accepted (s : State) (r : Reg) (i : Nat) (m : Master) (h : Half) (v : Nat)
    (h1 : r ≠ .sprDb) (h2 : r ≠ .mbxDb) (a : s.accepts r i m h v) :
    s.regWrite r i m h v = s.takeWrite r i m h (s.r r i) (s.newValue r i h v) (halfOf h v) := by
  obtain ⟨hl, hp, hk, hc, he, hr⟩ := a
  have e : s.regWrite r i m h v = s.judgeWrite r i m h v := by
    unfold State.regWrite
    rw [if_neg (by simp [hl.1]), State.live_open s r hl, if_neg (by simp), hp]
    simp only [Bool.not_true, Bool.false_eq_true, if_false]
  rw [e]
  unfold State.judgeWrite
  simp only [hk, hc, he, hr, Bool.or_self, Bool.false_eq_true, if_false]

/-- An accepted write of a map without locked fields writes the register and starts what belongs to it. -/
theorem State.takeWrite_plain (s : State) (r : Reg) (i : Nat) (m : Master) (h : Half) (old new w : Nat)
    (hk : s.hitsLock r i h = false) :
    s.takeWrite r i m h old new w = (s.setR r i new).afterWrite r i m old new w := by
  unfold State.takeWrite
  simp only [hk, Bool.false_eq_true, if_false]

/-- A clearing write clears EN alone and starts what belongs to it (R373). -/
theorem State.regWrite_clears (s : State) (r : Reg) (i : Nat) (m : Master) (h : Half) (v : Nat) (x : Fld)
    (h1 : r ≠ .sprDb) (h2 : r ≠ .mbxDb) (a : s.clears r i m h v x) :
    s.regWrite r i m h v = (s.setR r i (putBits (s.r r i) x.lo x.lo 0)).afterWrite r i m (s.r r i)
      (putBits (s.r r i) x.lo x.lo 0) 0 := by
  obtain ⟨hl, hp, hk, hc, hb⟩ := a
  have e : s.regWrite r i m h v = s.judgeWrite r i m h v := by
    unfold State.regWrite
    rw [if_neg (by simp [hl.1]), State.live_open s r hl, if_neg (by simp), hp]
    simp only [Bool.not_true, Bool.false_eq_true, if_false]
  rw [e]
  unfold State.judgeWrite
  simp only [hk, hc, hb, Bool.false_eq_true, if_false]

/-- R346: a refused write changes the register file in SYS_REGERR alone. -/
theorem State.refuseWrite_r (s : State) (r : Reg) (i : Nat) (m : Master) (h : Half) (y : Reg) (k : Nat)
    (hy : y ≠ .sysRegerr ∨ k ≠ 0) : (s.refuseWrite r i m h).r y k = s.r y k :=
  State.regFlag_r _ _ _ _ _ _ _ _ rfl hy

/-- The bit that a command row sets is set in what it writes. -/
theorem bits_withBit (v : Word) (k : Nat) : bits (withBit v k) k k = 1 := by
  unfold withBit
  rw [bits_putBits _ _ _ _ (by omega)]
  simp

theorem bit_withBit (v : Word) (k : Nat) : bit (withBit v k) k = true := by
  unfold bit; rw [bits_withBit]; rfl

theorem bits_withoutBit (v : Word) (k : Nat) : bits (withoutBit v k) k k = 0 := by
  unfold withoutBit
  rw [bits_putBits _ _ _ _ (by omega)]
  simp

theorem bit_withoutBit (v : Word) (k : Nat) : bit (withoutBit v k) k = false := by
  unfold bit; rw [bits_withoutBit]; rfl

end Sys2Proof.Machine
end

