-- ==== Sys2Proof/Tests/Slice0.lean ====
section
/-! SUPPORT. Small tests: what WellFormed refuses, worked examples of the manual, and for every statement with hypotheses
a concrete state and operands that meet them together. -/

namespace Sys2Proof.Tests

open Sys2Proof Sys2Proof.Machine

-- One theorem at a time: the checks of many would each hold a thread and its stack.
set_option Elab.async false

/-- The check of units refuses each of these terms: every one names a unit that does not exist. -/
theorem test_wellformed_units_1 : ((
    [.voltageFault 8 0, .temperatureEvent 32 0, .thermalShutdown 32 0, .doorbellWrite .manager 16384 .whole 0,
      .queueEnable .manager 16384 0, .queueDisable .manager 16384 0, .jobFetch 16384, .tileDispatch 34,
      .programLoad 34, .nextValidSet .manager 34 0, .nop 34, .ldw 34, .swapw 34, .lda 34, .shift 34 0, .acc 34,
      .drain 34, .post 34, .xfer 34, .waitq 34, .sig 34, .sync 34, .loop 34, .fence 34, .endProg 34 0 false,
      .asyncComplete 34 0 0, .tileWatchdog 34, .abort .manager 34 0, .abortComplete 34,
      .arrSatcfgWrite .manager 34 0, .sweep .manager 256 0, .sweepDone 256, .poolEnable .manager 256 0,
      .poolDisable .manager 256 0, .isolationDeadline 50, .overrun 50, .isolationEnd 8, .inputLogCopyDone 8,
      .rtTaskEnd 8 [], .testBarDue (.array 34)] : List Instr).all fun c => !c.unitsOk) = true := by decide +kernel

/-- The check of units refuses each of these terms: every one names a unit that does not exist. -/
theorem test_wellformed_units_2 : ((
    [.testBarDue (.vec 16), .testBarDue (.rt 8), .testBarDone (.vec 16) true, .sensorSample [1] [],
      .flresWrite .manager 8 0, .flaskCreate .manager 8 0, .flaskDestroy .manager 8 0, .shakeoutDone 8 [],
      .firmwareClearDone 8 [], .spareCopyDone 34, .pourEntryStart 4096, .pourEntryEnd 4096, .pourLate 4096,
      .vectorPreempt 16, .vectorResume 16 0 0, .gateRequest 23 0, .rtBoundExceeded 14 0, .guaranteeWindowEnd 9,
      .writeBack (.l2 16) 0 none, .writeBack (.vec 16) 0 none, .snoopResponse (.l2 16) 0 none false,
      .writeBackAck (.vec 16) 0, .cacheWaysWrite .manager 9 0, .regionEnable .manager 32 0,
      .regionDisable .manager 32 0, .pageWalk 256 0 false, .instanceCreate .manager 256 0, .quiesce .manager 256 0,
      .quiesceDone 256, .resume .manager 256 0, .instanceReset .manager 256 0, .remove .manager 256 0,
      .removeDone 256, .spillAll .manager 256 0, .lockInterfaceRequest 2 0, .lockInterfaceRequest 0 256,
      .getDeviceInterfaceReport 2 0, .monitorCall 16 1 [0, 0, 0, 0, 0, 0],
      .monitorCall 0 1 []] : List Instr).all fun c => !c.unitsOk) = true := by decide +kernel

/-- The check of units refuses each of these terms: every one names a unit that does not exist. -/
theorem test_wellformed_units_3 : ((
    [.consentExpiry 8, .debugAccess 8 .halt none, .debugAccess 0 .halt (some (.array 34)), .vexpV 16 [] 0,
      .vlsemVv 16 [] 0, .vdwsVv 16 [] 0, .vdws0Vv 16 [] 0, .itemEnd 16 [] .exception 0 false, .itemTimeout 16,
      .cameraContextEnable .manager 24 0, .cameraContextDisable .manager 24 0, .frameStart 24,
      .cameraPacket 24 { dt := 0, pixels := [] }, .ingestRecord 24, .planePost .manager 4 0 0,
      .planePost .manager 0 8 0, .latch 4, .scanoutUnderrun 4, .tellTaleCompare 4 [], .escalationLevel1 4,
      .escalationLevel2 4, .compareArm .manager 8 0, .compareFire 8, .ethRingDoorbell .manager 256 0,
      .frameTransmit 128, .launchLate none 128, .launchLate (some 20) 0,
      .launchLate (some 0) 8, .frameReceive { bytes := [], port := 12 }, .gateListEvent 0 12,
      .gateListEvent 1 256, .gateListEvent 2 0, .canArbitration 20,
      .canFrameReceive 20 { id := 0, fmt := 0, data := [] }, .busOff 20, .busOffRecovery 20,
      .addressClaim .manager 20 0 0, .addressClaim .manager 0 8 0] : List Instr).all fun c => !c.unitsOk) = true := by decide +kernel

/-- The check of units refuses each of these terms: every one names a unit that does not exist. -/
theorem test_wellformed_units_4 : ((
    [.claimHoldExpiry 20 0, .claimHoldExpiry 0 8, .cannotClaim 20 0, .cannotClaim 0 8, .tunnelFlush 64,
      .postedWriteError 32, .linkTraining 4 4 0, .linkTraining 0 3 0, .portDown 4,
      .cellReceive 4 { dest := 0, src := 0, vc := 0, ttl := 0, body := .ether [] } false, .cellTransmit 4 0 none,
      .cellTransmit 0 5 none, .linkDelayMeasure 4 0 0, .rendezvous 4 none, .wskWakePulse 4 0 0, .brownOut 8,
      .wake (.can 20), .wake (.eth 1), .wake (.eth 12), .wake (.weska 4), .getVersion .manager 64,
      .fwLoad .manager 64 true, .fwRestart .manager 64, .fwRestartDone 0 true, .fwRestartDone 7 true,
      .powerMode .manager 64, .fieldRecordRead .manager 64, .billetPrepare .manager 64,
      .billetPair .manager 64 true, .billetStatus .manager 64, .attest .manager 64, .keyRelease .manager 64,
      .ethPortCfg .manager 64, .dspLinkCfg .manager 64, .instanceResetDone 256, .unknownMsgId .manager 64,
      .startInterfaceRequest 0 256, .ideKm 2 0 0, .linkRetrain (.eth 12), .linkRetrain (.pcie 2)] : List Instr).all fun c => !c.unitsOk) = true := by decide +kernel

/-- The check of units refuses each of these terms: every one names a unit that does not exist. -/
theorem test_wellformed_units_5 : ((
    [.linkRetrain (.csi 8), .linkRetrain (.display 4)] : List Instr).all fun c => !c.unitsOk) = true := by decide +kernel

/-- The check of masters refuses an instance that does not exist. -/
theorem test_wellformed_masters_1 : ((
    [.timeNowNsRead (.inst 256), .doorbellWrite (.inst 256) 0 .whole 0, .queueEnable (.inst 256) 0 0,
      .queueDisable (.inst 256) 0 0, .nextValidSet (.inst 256) 0 0, .abort (.inst 256) 0 0,
      .arrSatcfgWrite (.inst 256) 0 0, .sweep (.inst 256) 0 0, .poolEnable (.inst 256) 0 0,
      .poolDisable (.inst 256) 0 0, .flresWrite (.inst 256) 0 0, .flaskCreate (.inst 256) 0 0,
      .flaskDestroy (.inst 256) 0 0, .swap (.inst 256) 0, .memoryInit (.inst 256) 0,
      .memoryRead (.inst 256) 0 0 {}, .memoryWrite (.inst 256) 0 [], .partialWrite (.inst 256) 0 [] {},
      .cacheWaysWrite (.inst 256) 0 0, .regionEnable (.inst 256) 0 0, .regionDisable (.inst 256) 0 0,
      .retire (.inst 256) 0, .instanceCreate (.inst 256) 0 0, .quiesce (.inst 256) 0 0, .resume (.inst 256) 0 0,
      .instanceReset (.inst 256) 0 0, .remove (.inst 256) 0 0, .spillAll (.inst 256) 0 0,
      .cameraContextEnable (.inst 256) 0 0, .cameraContextDisable (.inst 256) 0 0, .planePost (.inst 256) 0 0 0,
      .timeIncWrite (.inst 256) 0, .timeStepWrite (.inst 256) 0, .compareArm (.inst 256) 0 0,
      .ethRingDoorbell (.inst 256) 0 0, .addressClaim (.inst 256) 0 0 0, .tunnelEnable (.inst 256) 0,
      .bridgeRequest (.inst 256) 0 none 0, .getVersion (.inst 256) 0, .fwLoad (.inst 256) 0 true] : List Instr).all fun c => !c.mastersOk) = true := by decide +kernel

/-- The check of masters refuses an instance that does not exist. -/
theorem test_wellformed_masters_2 : ((
    [.fwRestart (.inst 256) 0, .powerMode (.inst 256) 0, .fieldRecordRead (.inst 256) 0,
      .billetPrepare (.inst 256) 0, .billetPair (.inst 256) 0 true, .billetStatus (.inst 256) 0,
      .attest (.inst 256) 0, .keyRelease (.inst 256) 0, .ethPortCfg (.inst 256) 0, .dspLinkCfg (.inst 256) 0,
      .kick (.inst 256) 0, .mgrLockSet (.inst 256) 0, .irqEnable (.inst 256) 0,
      .registerWrite (.inst 256) 0 .whole 0, .unknownMsgId (.inst 256) 0, .deniedRead (.inst 256) 0 .whole] : List Instr).all fun c => !c.mastersOk) = true := by decide +kernel

/-- Terms that pass both checks. -/
theorem test_wellformed_accepts : ([.ldw 33, .doorbellWrite (.inst 255) 16383 .whole 0, .testBarDue (.rt 7),
    .gateListEvent 1 255, .linkTraining 3 2 0, .fwRestartDone 6 true, .wake (.eth 11)] : List Instr).all Instr.wf = true := by
  decide +kernel
/-! ## Small states -/

/-- Memory is ready, the DTU passes addresses on, and instance 0 is active in flask 0, which runs untimed. -/
def up : State :=
  ((((State.reset.setF MEM_CTRL.READY 0 1).setR .dtuIommu 2 1).setF SYS_INST.FLASK 0 0).setF SYS_INST.STATE 0 1).setF
    SYS_FLCTRL.STATE 0 3

/-- The bytes of DRAM from its start plus an offset. -/
def poke (s : State) (o : Nat) (bs : List Byte) : State :=
  { s with mem.cells := putBytes s.mem.cells (dramBase + o) bs }

/-- The time counter at a value. -/
def atNs (s : State) (t : Nat) : State := { s with clock.ns := t }

/-- The physical address of a register offset. -/
def reg (o : Nat) : Nat := 0x1000_0000 + o

/-- A command completes. -/
def runs (c : Instr) (s : State) : Bool :=
  match exec c s with
  | .next _ => true
  | _ => false

/-- What holds after a command that completes. -/
def after (c : Instr) (s : State) (p : State → Bool) : Bool :=
  match exec c s with
  | .next t => p t
  | _ => false

/-- A write that its statement's hypotheses accept. -/
def taken (s : State) (r : Reg) (i : Nat) (m : Master) (v : Nat) : Bool :=
  decide (s.sys.power.mode = .on) && s.sys.power.lost.isEmpty && !s.sys.power.sclkLost
    && s.permits r i m true (s.camPort r i .whole v)
    && (s.lockedBy r i).isNone && (s.clearsEn r i (s.newValue r i .whole v)).isNone
    && !s.enBusy r i (s.newValue r i .whole v) && !s.refuses r i m (s.r r i) (s.newValue r i .whole v) v

/-- A taken write is an accepted one. -/
theorem accepts_of_taken {s : State} {r : Reg} {i : Nat} {m : Master} {v : Nat} (h : taken s r i m v = true) :
    s.accepts r i m .whole v := by
  simp only [taken, Bool.and_eq_true, decide_eq_true_eq, Bool.not_eq_true', Option.isNone_iff_eq_none,
    List.isEmpty_iff] at h
  obtain ⟨⟨⟨⟨⟨⟨⟨h1, h2⟩, h8⟩, h3⟩, h4⟩, h5⟩, h6⟩, h7⟩ := h
  exact ⟨⟨h1, h2, h8⟩, h3, h4, h5, h6, by simpa [halfOf] using h7⟩

/-- Word 0 of a descriptor. -/
def w0 (op flags seq : Nat) : Nat := op * 2 ^ 56 + flags * 2 ^ 32 + seq

/-- Job 1 of queue 0 with a descriptor. -/
def job1 (desc : List Nat) : Job := { id := 1, queue := 0, ringIdx := 0, desc := desc }

/-- Queue 0 enabled, with submission ring at DRAM + 0 and completion ring at DRAM + 4000h. -/
def upQ : State :=
  ((up.setF SPR_QCFG.EN 0 1).setF SPR_QSUB_BASE.BASE 0 (dramBase / 128)).setF SPR_QCPL_BASE.BASE 0
    ((dramBase + 0x4000) / 32)

/-- The dispatcher holds a job. -/
def holds (s : State) (x : Job) : State := { s with work.jobs := s.work.jobs ++ [x] }

/-- Bytes of a list of 64-bit words. -/
def words (ws : List Nat) : List Byte := ws.flatMap fun w => toLE 8 w

/-- A pour command: opcode and fields, each a value at its lowest bit. -/
def pcmd (op : Nat) (fs : List (Nat × Nat)) : Nat := op * 2 ^ 120 + (fs.map fun p => p.2 * 2 ^ p.1).sum

/-- Tile 0 of job 1, from a tile descriptor. -/
def tile0 (desc : List Nat) : RunJob :=
  { job := 1, tile := 0, desc := desc, role := .single, startNs := 0, flask := 0, inst := 0 }

/-- A running job of class TENSOR in flask 0, with one tile. -/
def tjob : Job := { job1 [w0 1 0 0] with phase := .running, tiles := [[0xFF * 2 ^ 32]], issued := 1 }

/-- Commands from index 0 of a command store. -/
def putCmds (m : NMap Nat) (p : List Nat) : NMap Nat :=
  ((List.range p.length).zip p).foldl (fun m q => NMap.set m 0 q.1 q.2) m

/-- Array 0 runs tile 0 of job 1 with a program; `g` sets the rest of the array. -/
def pour (p : List Nat) (g : ArraySt → ArraySt := id) : State :=
  (((holds up tjob).setF ARR_STATUS.STATE 0 1).setF ARR_PROG.CUR_LEN 0 p.length |>.setF ARR_PROG.CUR_VALID 0 1 |>.setF SYS_FLRES.ARRAYS 0 3 |>.setF ARR_STATUS.FLASK 0 0
    |>.setF ARR_STATUS.FLASK 1 0).modArr 0
    fun x => g { x with job := some (tile0 [0xFF * 2 ^ 32]), store := putCmds x.store p }

/-- A command is at issue. -/
def issued (s : State) (a op rsv : Nat) (async : Bool) (w : Nat) : Bool :=
  decide (a < 34) && s.issuing a && decide ((s.arr a).pc < s.f ARR_PROG.CUR_LEN a) && s.cmdAt a (s.arr a).pc == w
    && bits w 127 120 == op && bits w 115 112 == 0 && bits w rsv 0 == 0 && (async || !bit w 119)

/-- An issued command is one at issue. -/
theorem atIssue_of_issued {s : State} {a op rsv w : Nat} {async : Bool} (h : issued s a op rsv async w = true) :
    s.atIssue a op rsv async w := by
  simp only [issued, Bool.and_eq_true, decide_eq_true_eq, beq_iff_eq, Bool.or_eq_true, Bool.not_eq_true'] at h
  obtain ⟨⟨⟨⟨⟨⟨⟨h1, h2⟩, h3⟩, h4⟩, h5⟩, h6⟩, h7⟩, h8⟩ := h
  exact ⟨h1, h2, h3, h4, h5, h6, h7, fun e => by simpa [e] using h8⟩

/-- A computation has a result. -/
def isOk {ε α : Type} (r : Except ε α × State) : Bool :=
  match r.1 with
  | .ok _ => true
  | .error _ => false

/-- What a computation answers. -/
def got {ε α : Type} (r : Except ε α × State) : Option α :=
  match r.1 with
  | .ok v => some v
  | .error _ => none

/-! ## Registers and time -/

/-- State and operands of TakenWritesFollowTheFieldTypes: GATE_CFG 0, and the W1C flags of SYS_REGERR. -/
theorem wit_takenWrites :
    (up.place (reg 0xB0000) = .reg 0xB0000 ∧ up.locAt 0xB0000 = .reg .gateCfg 0 ∧ writesOnly .gateCfg 0 = true
      ∧ taken up .gateCfg 0 .manager 5 = true)
    ∧ (up.place (reg 8) = .reg 8 ∧ up.locAt 8 = .reg .sysRegerr 0 ∧ writesOnly .sysRegerr 0 = true
      ∧ taken up .sysRegerr 0 .manager (2 ^ 63) = true) := by decide +kernel

/-- R342: a W1C flag clears where a 1b is written, and a write of the high half leaves the low half of a field. -/
theorem test_w1c_and_rw :
    after (.registerWrite .manager (reg 8) .whole (2 ^ 63)) (up.setF SYS_REGERR.REFUSED 0 1)
      (fun t => t.f SYS_REGERR.REFUSED 0 == 0) = true
    ∧ after (.registerWrite .manager (reg 0xB0000) .high (7 * 2 ^ 44)) up (fun t => t.f GATE_CFG.GUAR 0 == 7
        && t.f GATE_CFG.CEIL 0 == 0xFF) = true := by
  decide +kernel

/-- Those of DeniedAndRefusedAccessesAreFlagged: an instance at a register of the manager, a write while EN is 1b, and
a SERVO code that is refused. -/
theorem wit_deniedAndRefused :
    (up.permits .gateCfg 0 (.inst 0) false (up.f DSP_CAMCTX0.PORT 0) = false
      ∧ up.permits .gateCfg 0 (.inst 0) true (up.camPort .gateCfg 0 .whole 5) = false
      ∧ bits (up.r .sysRegerr 0) 63 61 = 0)
    ∧ (let s := up.setF SPR_QCFG.EN 0 1
       s.locAt 0x1000000 = .reg .sprQcfg 0 ∧ s.permits .sprQcfg 0 .manager true 0 = true ∧ s.lockedBy .sprQcfg 0 = none
        ∧ s.clearsEn .sprQcfg 0 (s.newValue .sprQcfg 0 .whole (2 ^ 63)) = none
        ∧ s.enBusy .sprQcfg 0 (s.newValue .sprQcfg 0 .whole (2 ^ 63)) = true)
    ∧ (let v := putBits 0 TIME_CTRL.SERVO.hi TIME_CTRL.SERVO.lo 3
       up.clearsEn .timeCtrl 0 (up.newValue .timeCtrl 0 .whole v) = none
        ∧ up.refuses .timeCtrl 0 .manager (up.r .timeCtrl 0) (up.newValue .timeCtrl 0 .whole v) v = true) := by
  decide +kernel

/-- R347: the first flagged access is captured, the next one only counted. -/
theorem test_regerr_captures_once :
    after (.registerWrite (.inst 7) (reg 0xB0008) .whole 1) up (fun t =>
      t.f SYS_REGERR.DENIED 0 == 1 && t.f SYS_REGERR.COUNT 0 == 1 && t.f SYS_REGERR.OFFSET 0 == 0xB0008
        && after (.registerWrite .manager (reg 0xA0020) .whole (putBits 0 TIME_CTRL.SERVO.hi TIME_CTRL.SERVO.lo 3)) t
            (fun u => u.f SYS_REGERR.COUNT 0 == 2 && u.f SYS_REGERR.OFFSET 0 == 0xB0008)) = true := by decide +kernel

/-- Those of ClearingEnChangesNoOtherField: a queue that is enabled, and a write of zero. -/
theorem wit_clearingEn :
    let s := up.setF SPR_QCFG.EN 0 1
    s.permits .sprQcfg 0 .manager true 0 = true ∧ s.lockedBy .sprQcfg 0 = none
      ∧ s.clearsEn .sprQcfg 0 (s.newValue .sprQcfg 0 .whole 0) = some SPR_QCFG.EN ∧ s.clearBad .sprQcfg 0 = false := by
  decide +kernel

/-- R277: at 500 MHz the counter rises by 2 ns; fractions carry. -/
theorem test_tsclk_edge :
    State.reset.clock.ns < 2 ^ 64 ∧ Domain.tsclk ∉ State.reset.sys.power.lost
    ∧ after .tsclkEdge State.reset (fun t => t.clock.ns == 2) = true
    ∧ after .tsclkEdge ({ State.reset with clock := { ns := 2 ^ 64 - 1, frac := 0xFFFF, sub := 0xFFFFFF } }.setF
        TIME_INC.INC_SUB 0 1) (fun t => t.clock.ns == 2 && t.clock.frac == 0 && t.clock.sub == 0) = true := by decide +kernel

/-- Those of OnlyTimeReadsHaveASideEffect: a permitted read of another register and of TIME_NOW_NS. -/
theorem wit_reads :
    up.permits .gateCfg 0 .manager false (up.f DSP_CAMCTX0.PORT 0) = true ∧ up.locAt 0xA0000 = .reg .timeNowNs 0
      ∧ up.permits .timeNowNs 0 (.inst 3) false (up.f DSP_CAMCTX0.PORT 0) = true := by decide +kernel

/-- R284: the fraction of the edge of a TIME_NOW_NS read is what its reader then reads. -/
theorem test_time_latch :
    after (.timeNowNsRead (.inst 1)) { up with clock := { ns := 9, frac := 77 } } (fun t =>
      t.outbox == [.readData (.inst 1) 9] && after (.deniedRead (.inst 1) (reg 0xA0008) .whole)
        { t with clock := { t.clock with frac := 5 } } (fun u => u.outbox.head? == some (.readData (.inst 1) (77 * 2 ^ 48))
          || u.outbox.head? == some (.readData (.inst 1) 77))) = true := by decide +kernel

/-- Those of ServoWritesAndHoldover: each of the two servos writes; another master; the pour table enabled;
a sync timer that has run out, and one that has not. -/
theorem wit_servo :
    taken up .timeInc 0 .switchCtl 0x0002_0000_0000_0000 = true
    ∧ taken (up.setF TIME_CTRL.SERVO 0 1) .timeStep 0 .manager (2 ^ 64 - 5) = true ∧ up.isServo (.inst 4) = false
    ∧ (up.setF POUR_CTRL.EN 0 1).fb POUR_CTRL.EN 0 = true
    ∧ (let s := (({ up with clock := { ns := 2000000000, syncNs := some 1 } }).setF TIME_CTRL.HOLDOVER 0 0)
       s.syncLost = true ∧ s.fb TIME_CTRL.HOLDOVER 0 = false)
    ∧ State.reset.syncLost = false := by decide +kernel

/-- R279: a step of −5 ns leaves the fraction. -/
theorem test_time_step :
    after (.timeStepWrite .switchCtl (BitVec.ofInt 64 (-5))) { up with clock := { ns := 3, frac := 9 } }
      (fun t => t.clock.ns == 2 ^ 64 - 2 && t.clock.frac == 9) = true := by decide +kernel

/-- R278, R283: the slew values of the manual's example, INC 1_FFC9h and INC_SUB EE_CBFBh; 2_0084h is refused. -/
theorem test_slew :
    after (.timeIncWrite .switchCtl 0x0001_FFC9_00EE_CBFB) up (fun s => after .tsclkEdge s (fun t =>
      t.clock.ns == 1 && t.clock.frac == 0xFFC9 && t.clock.sub == 0xEECBFB)) = true
    ∧ after (.timeIncWrite .switchCtl 0x0002_0084_0000_0000) up (fun t => t.fb SYS_REGERR.REFUSED 0
      && t.f TIME_INC.INC 0 == 0x20000) = true := by decide +kernel

/-- R283: holdover is entered once. -/
theorem test_holdover :
    after .holdover (({ up with clock := { ns := 2000000000, syncNs := some 1 } }).setF TIME_CTRL.HOLDOVER 0 0)
      (fun t => t.fb TIME_CTRL.HOLDOVER 0 && t.f TIME_CTRL.HOLD_EVENTS 0 == 1
        && after .holdover t (fun u => u.f TIME_CTRL.HOLD_EVENTS 0 == 1)) = true := by decide +kernel

/-- R280: a time just after the wrap has reached one just before it, and lies 10 ns after it. -/
theorem test_times_wrap :
    reached 5 (2 ^ 64 - 5) = true ∧ reached (2 ^ 64 - 5) 5 = false ∧ later 5 (2 ^ 64 - 5) = 5
      ∧ ({ up with clock.ns := 5 } : State).since (2 ^ 64 - 5) = 10 := by decide +kernel

/-- Those of CompareUnitsFireAndReload: arming, a unit that is due once, one with a period, and one that is not armed. -/
theorem wit_compare :
    taken up .timeCmp1 2 .manager (withBit 0x0001_0000_0000_0064 63) = true
    ∧ (let s := atNs ((up.setF TIME_CMP1.ARM 2 1).setF TIME_CMP0.TARGET 2 100) 350
       s.fb TIME_CMP1.ARM 2 = true ∧ reached s.clock.ns (s.f TIME_CMP0.TARGET 2) = true)
    ∧ up.fb TIME_CMP1.ARM 2 = false := by decide +kernel

/-- R282: a compare of period 100 that is 250 ns late moves three periods on and counts two skipped. -/
theorem test_compare_skips :
    after (.compareFire 2) (atNs (((up.setF TIME_CMP1.ARM 2 1).setF TIME_CMP0.TARGET 2 100).setF TIME_CMP1.PERIOD 2 100) 350)
      (fun t => t.f TIME_CMP0.TARGET 2 == 400 && t.f TIME_CMP1.SKIPPED 2 == 2 && t.fb TIME_CMP1.ARM 2) = true := by decide +kernel

/-- Those of MonitorsRaiseTheirSafetyCause. -/
theorem wit_monitors :
    Domain.aclk ∉ up.sys.power.lost ∧ (7 : Nat) < 8 ∧ (31 : Nat) < 32 ∧ (125 : Int) < 131 ∧ (130 : Int) < 131 := by decide +kernel

/-- R155: 126 °C sets TEMP_HIGH alone, 131 °C also TEMP_TRIP, with SAFE_FLT_N. -/
theorem test_temperature :
    after (.temperatureEvent 0 126) up (fun t => t.fb SYS_SAFESTAT.TEMP_HIGH 0 && !t.fb SYS_SAFESTAT.TEMP_TRIP 0
      && !t.sys.power.safeFlt) = true
    ∧ after (.temperatureEvent 0 131) up (fun t => t.fb SYS_SAFESTAT.TEMP_TRIP 0 && t.sys.power.safeFlt) = true
    ∧ after (.temperatureEvent 0 125) up (fun t => !t.fb SYS_SAFESTAT.TEMP_HIGH 0) = true := by decide +kernel

/-- A trajectory of frame 0 that waits, a state at a time. -/
def traj (t : Nat) : State := { atNs up t with net.traj := { waiting := some 0, own := some 0 } }

/-- Those of TrajectoriesAreReleasedOrDiscardedInTime, at the time where the clauses meet and beside it. -/
theorem wit_trajectories :
    let t0 := (traj 0).frameT0 0
    (reached (traj (t0 + 54550000)).now ((traj (t0 + 54550000)).frameT0 0 + 54550001) = false)
      ∧ reached (traj (t0 + 54550001)).now ((traj (t0 + 54550001)).frameT0 0 + 54550001) = true
      ∧ reached (traj (t0 + 54550000)).now ((traj (t0 + 54550000)).frameT0 0 + 54550000) = true
      ∧ reached (traj (t0 + 54500000)).now ((traj (t0 + 54500000)).frameT0 0 + 54500000) = true
      ∧ (traj 0).net.traj.received ≠ some 0 := by decide +kernel

/-- R22: the shadow that has received nothing sends its own trajectory at 54.5 ms, and none before. -/
theorem test_shadow_cutoff :
    after .shadowCutoff (traj 54500000) (fun t => t.outbox.length == 1 && t.net.traj.own.isNone) = true
    ∧ after .shadowCutoff (traj 54499999) (fun t => t.outbox.isEmpty && t.net.traj.own.isSome) = true := by decide +kernel

/-! ## Queues and jobs -/

/-- Those of DoorbellsAdvanceTheRing: a disabled queue; PROD ahead, repeated, beyond the ring, and CPL_CONS too far behind. -/
theorem wit_doorbells :
    up.pageOk (instOf 0) (.inst 0) = true ∧ up.fb SPR_QCFG.EN 0 = false
    ∧ (upQ.f SYS_INST.STATE (instOf 0) ≠ 0 ∧ upQ.fb SPR_QCFG.EN 0 = true ∧ upQ.f SPR_QSTAT.STATE 0 ≠ 3
        ∧ upQ.f SPR_QSTAT.STATE 0 ≠ 4)
    ∧ (1 ≤ dist32 64 (upQ.f SPR_QSTAT.CONS_IDX 0) ∧ dist32 64 (upQ.f SPR_QSTAT.CONS_IDX 0) ≤ upQ.subSize 0
        ∧ upQ.subSize 0 < dist32 65 (upQ.f SPR_QSTAT.CONS_IDX 0))
    ∧ (upQ.cplSize 0 < dist32 (upQ.q 0).nextCpl 1 ∧ ¬ upQ.cplSize 0 < dist32 (upQ.q 0).nextCpl 0) := by decide +kernel

/-- R30: in a ring of 64 a PROD of 64 is taken, one of 65 is stale. -/
theorem test_doorbell_ring_edge :
    after (.doorbellWrite (.inst 0) 0 .whole 64) upQ (fun t => t.f SPR_DB.PROD_IDX 0 == 64 && t.work.sprue.pending == [0]
      && t.f SPR_QSTAT.STALE_DB 0 == 0) = true
    ∧ after (.doorbellWrite (.inst 0) 0 .whole 65) upQ (fun t => t.f SPR_DB.PROD_IDX 0 == 0 && t.work.sprue.pending.isEmpty
      && t.f SPR_QSTAT.STALE_DB 0 == 1) = true := by decide +kernel

/-- Those of EnablingAQueueSetsItsIndices: a plain enable, a restore with full rings, a disable. -/
theorem wit_queueEnable :
    taken up .sprQcfg 0 .manager (withBit 0 63) = true ∧ up.fb SPR_QRESTORE1.VALID 0 = false
      ∧ up.f SYS_INST.STATE (instOf 0) = 1 ∧ up.queueJobs 0 = []
    ∧ (let s := ((((up.setF SPR_QRESTORE1.VALID 0 1).setF SPR_QRESTORE0.PROD_IDX 0 70).setF SPR_QRESTORE0.CONS_IDX 0
          6).setF SPR_QRESTORE1.CPL_PROD 0 6).setF SPR_QRESTORE2.CPL_CONS 0 6
       taken s .sprQcfg 0 .manager (withBit 0 63) = true ∧ s.fb SPR_QRESTORE1.VALID 0 = true
        ∧ dist32 (s.f SPR_QRESTORE0.PROD_IDX 0) (s.f SPR_QRESTORE0.CONS_IDX 0) = 2 ^ (0 + 6)
        ∧ dist32 (s.f SPR_QRESTORE1.CPL_PROD 0) (s.f SPR_QRESTORE2.CPL_CONS 0) ≤ 2 ^ (0 + 6))
    ∧ (upQ.clearsEn .sprQcfg 0 (upQ.newValue .sprQcfg 0 .whole (withoutBit 0 63)) = some SPR_QCFG.EN
        ∧ upQ.clearBad .sprQcfg 0 = false) := by decide +kernel

/-- R44: after an enable the ring stands empty at PROD. -/
theorem test_queue_enable :
    after (.queueEnable .manager 0 0) (up.setF SPR_DB.PROD_IDX 0 9) (fun t => t.f SPR_QSTAT.CONS_IDX 0 == 9
      && t.f SPR_QSTAT.STATE 0 == 0 && t.fb SPR_QCFG.EN 0) = true
    ∧ after (.queueDisable .manager 0 0) upQ (fun t => !t.fb SPR_QCFG.EN 0) = true := by decide +kernel

/-- A queue whose ring holds a NOP at index 0, ready at its dispatcher. -/
def nopQ : State :=
  let s := (poke upQ 0 (words [w0 0 0 0, 77])).setF SPR_DB.PROD_IDX 0 1
  { s with work.sprue.ready := [0] }

/-- Those of RoundsServeQueuesAndFetchDescriptors: a descriptor that reads, one that does not, a queue that is not ready. -/
theorem wit_fetch :
    (0 ∈ nopQ.work.sprue.ready ∧ nopQ.queueLive 0 = true ∧ nopQ.f SPR_DB.PROD_IDX 0 ≠ nopQ.f SPR_QSTAT.CONS_IDX 0
      ∧ (instRead nopQ (instOf 0) (nopQ.f SPR_QSUB_BASE.BASE 0 * 128) 128).1.good = true)
    ∧ (instRead (nopQ.setR .dtuIommu 2 0) (instOf 0) (nopQ.f SPR_QSUB_BASE.BASE 0 * 128) 128).1.good = false
    ∧ 0 ∉ upQ.work.sprue.ready := by decide +kernel

/-- R31: a fetch copies the descriptor, and one that faults puts the queue in error with the fault's status. -/
theorem test_fetch :
    after (.jobFetch 0) nopQ (fun t => (t.work.jobs.map fun x => (x.opcode, x.tag, x.phase)) == [(0, 77, .waiting)]
      && t.f SPR_QSTAT.CONS_IDX 0 == 1) = true
    ∧ after (.jobFetch 0) (nopQ.setR .dtuIommu 2 0) (fun t => t.f SPR_QSTAT.STATE 0 == 3
      && t.f SPR_QSTAT.ERR_CODE 0 == 0x12) = true := by decide +kernel

/-- Those of JobsStartRunAndEnd: a job that starts, with and without a free slot, one that waits on a counter, one behind a
fence, one past its deadline, and running jobs. -/
theorem wit_jobs :
    (let x := job1 [w0 0 0 0]
     let s := holds upQ x
     s.job 1 = some x ∧ s.startable x = true ∧ s.expired x = false ∧ s.fenceOk x = true ∧ x.waitEn = false
      ∧ s.classLost x.opcode = false ∧ s.slotFree x.queue = true
      ∧ (s.modQ 0 fun q => { q with reserved := 64 }).slotFree x.queue = false)
    ∧ (let x := job1 [w0 0 4 0, 0, dramBase, 5]
       let s := poke (holds upQ x) 0 (words [5])
       s.startable x = true ∧ s.expired x = false ∧ s.fenceOk x = true ∧ x.waitEn = true
        ∧ (instRead s x.inst x.waitAddr 8).1 = .ok (words [5]) ∧ reached (leNat (words [5])) x.waitValue = true
        ∧ reached 4 x.waitValue = false)
    ∧ (let x := { job1 [w0 0 1 1] with id := 2, ringIdx := 1 }
       let s := holds (holds upQ (job1 [w0 0 0 0])) x
       s.job 2 = some x ∧ s.startable x = true ∧ s.expired x = false ∧ s.fenceOk x = false)
    ∧ (let x := job1 [w0 0 0 0, 0, 0, 0, 0, 0, 0, 0, 0, 100]
       (atNs (holds upQ x) 100).expired x = true ∧ (atNs (holds upQ x) 99).expired x = false ∧ x.phase = .waiting)
    ∧ (let x := { job1 [w0 1 0 0] with phase := .running, tiles := [[0, 0], [0, 0]] }
       upQ.timed (upQ.jobFlask x) = false ∧ x.issued = 0 ∧ x.opcode = 1) := by decide +kernel

/-- R34: a job of a class that does nothing ends OK; a job past its deadline ends EXPIRED. -/
theorem test_nop_fence_expire :
    after (.nopJob 1) (holds upQ { job1 [w0 0 0 0] with phase := .running }) (fun t =>
      (t.job 1).any fun x => x.phase == .ended && x.status == 0) = true
    ∧ after (.fenceJob 1) (holds upQ { job1 [w0 11 0 0] with phase := .running }) (fun t =>
      (t.job 1).any fun x => x.phase == .ended && x.status == 0) = true
    ∧ after (.jobExpire 1) (atNs (holds upQ (job1 [w0 0 0 0, 0, 0, 0, 0, 0, 0, 0, 0, 100])) 100) (fun t =>
      (t.job 1).any fun x => x.status == 3) = true := by decide +kernel

/-- R34, R43: a job starts when its counter has reached WAIT_VALUE; a TENSOR job queues its tiles; a fault ends it. -/
theorem test_start_tensor_fault :
    after (.jobStart 1) (poke (holds upQ (job1 [w0 0 4 0, 0, dramBase, 5])) 0 (words [5])) (fun t =>
      (t.job 1).any fun x => x.phase == .running && x.slot) = true
    ∧ after (.tensor 1) (holds upQ { job1 [w0 1 0 0] with phase := .running, tiles := [[0xFFFF * 2 ^ 32], [0xFFFF * 2 ^ 32]] })
      (fun t => (t.flask 0).tiles.map (fun q => (q.job, q.tile)) == [(1, 0), (1, 1)]) = true
    ∧ after (.jobFault 1 3) (holds upQ { job1 [w0 1 0 0] with phase := .running }) (fun t =>
      (t.job 1).any fun x => x.status == 0x14 && x.detail == some 3) = true := by decide +kernel

/-- A job that has ended with status OK, with a reserved slot and an interrupt. -/
def doneJob : State :=
  (holds upQ { job1 [w0 0 2 0, 77] with phase := .ended, slot := true, detail := some 0 }).modQ 0 fun q =>
    { q with reserved := 1 }

/-- Those of CompletionsAreRecordedInTheRing, for a record that is written and for one that is not. -/
theorem wit_completion :
    (doneJob.job 1).isSome = true
    ∧ (instWrite doneJob 0 (dramBase + 0x4000) (List.replicate 32 0)).1.good = true
    ∧ (instWrite (doneJob.setR .dtuIommu 2 0) 0 (dramBase + 0x4000) (List.replicate 32 0)).1.good = false
    ∧ (doneJob.setR .dtuIommu 2 0 |>.f SPR_QCPL_BASE.BASE 0) * 32 = dramBase + 0x4000 ∧ (0 : Nat) < 2 ^ 64 := by
  decide +kernel

/-- R33: the first pass of the ring writes PHASE 1; the record carries the tag and the time. -/
theorem test_completion :
    after (.jobComplete 1) (atNs doneJob 0x1234) (fun t => t.bytes (dramBase + 0x4000) 24
        == words [2 ^ 63, 77, 0x1234] && (t.q 0).nextCpl == 1 && (t.q 0).reserved == 0 && t.work.jobs.isEmpty
        && t.outbox == [.instIrq 0 0]) = true := by decide +kernel

/-! ## Pour programs -/

/-- Those of CommandsIssueInOrderOrFault: NOP; ACC by itself and in a loop; POST at the ends of SEED; SIG; FENCE; and issue
past the program, of an unlisted opcode, and of reserved bits. -/
theorem wit_issue :
    issued (pour [0]) 0 0x00 111 false 0 = true
    ∧ issued (pour [pcmd 5 [(110, 1)]]) 0 0x05 109 false (pcmd 5 [(110, 1)]) = true
    ∧ bits (pcmd 5 [(110, 1)]) 111 110 < 2
    ∧ (let w := pcmd 5 [(110, 2)]
       let s := pour [w, pcmd 12 [(96, 3), (84, 1)]]
       issued s 0 0x05 109 false w = true ∧ bits w 111 110 = 2
        ∧ s.loopsAround 0 (s.arr 0).pc = [(1, pcmd 12 [(96, 3), (84, 1)])])
    ∧ (let w := pcmd 7 [(108, 3), (87, 192), (86, 1), (64, 0x3FFF00)]
       issued (pour [w]) 0 0x07 63 false w = true ∧ bits w 111 108 ≤ 3 ∧ sint 8 (bits w 94 87) = -64 ∧ bit w 86 = true
        ∧ bits w 85 64 + 256 = mouldTop)
    ∧ (let w := pcmd 7 [(87, 63)]
       issued (pour [w]) 0 0x07 63 false w = true ∧ sint 8 (bits w 94 87) = 63 ∧ bit w 86 = false)
    ∧ issued (pour [pcmd 10 [(104, 5)]]) 0 0x0A 103 false (pcmd 10 [(104, 5)]) = true
    ∧ issued (pour [pcmd 13 []]) 0 0x0D 111 false (pcmd 13 []) = true ∧ ((pour [pcmd 13 []]).arr 0).async = []
    ∧ (pour []).issuing 0 = true ∧ (pour []).f ARR_PROG.CUR_LEN 0 ≤ ((pour []).arr 0).pc
    ∧ ((pour []).arr 0).job = some (tile0 [0xFF * 2 ^ 32]) ∧ (pour []).job 1 = some tjob
    ∧ (pour []).timed ((pour []).jobFlask tjob) = false
    ∧ (0xE < bits ((pour [pcmd 15 []]).cmdAt 0 0) 127 120) ∧ bit ((pour [2 ^ 119]).cmdAt 0 0) 119 = true
    ∧ bits ((pour [1]).cmdAt 0 0) 115 0 ≠ 0 := by decide +kernel

/-- R52, R54: NOP and FENCE go on, an ACC arms its mode, and issue past the program's end is a job fault. -/
theorem test_issue :
    after (.nop 0) (pour [0]) (fun t => (t.arr 0).pc == 1 && t.f ARR_STATUS.PC 0 == 1) = true
    ∧ after (.fence 0) (pour [pcmd 13 []]) (fun t => (t.arr 0).pc == 1) = true
    ∧ after (.acc 0) (pour [pcmd 5 [(110, 1)]]) (fun t => (t.arr 0).armAcc == some true) = true
    ∧ after (.sig 0) (pour [pcmd 10 [(104, 5)]]) (fun t => (t.arr 0).sigs == [(5, 0)]) = true
    ∧ after (.nop 0) (pour []) (fun t => t.fb ARR_STATUS.ILLEGAL_CMD 0 && t.f ARR_STATUS.STATE 0 == 3
        && ((t.job 1).any fun x => x.status == 0x14 && x.detail == some 0)) = true := by decide +kernel

/-- Those of ControlCommandsCountAndHold, at and next to each count. -/
theorem wit_control :
    (let w := pcmd 9 [(109, 2), (93, 3)]
     issued (pour [w]) 0 0x09 92 false w = true ∧ bits w 108 93 ≠ 0
      ∧ bits w 108 93 ≤ NMap.get ((pour [w] fun x => { x with ev := [(2, 3)] }).arr 0).ev 0 (bits w 111 109)
      ∧ NMap.get ((pour [w] fun x => { x with ev := [(2, 2)] }).arr 0).ev 0 (bits w 111 109) < bits w 108 93)
    ∧ (let w := pcmd 12 [(96, 2), (84, 1)]
       let s := fun n => pour [0, w] fun x => { x with pc := 1, loops := [(1, n)] }
       issued (s 1) 0 0x0C 19 false w = true ∧ (s 1).nestDepth 0 4 ((s 1).arr 0).pc = some 1
        ∧ NMap.get ((s 1).arr 0).loops 0 1 < bits w 111 96 ∧ bits w 111 96 ≤ NMap.get ((s 2).arr 0).loops 0 1)
    ∧ (let w := pcmd 11 [(108, 4), (100, 2)]
       let s := pour [w]
       let u := s.modArr 1 fun x => { x with job := some (tile0 [0xFF * 2 ^ 32]), sync := some (4, 2) }
       issued s 0 0x0B 99 false w = true ∧ tdRecast [0xFF * 2 ^ 32] = 0xFF ∧ 2 ≤ bits w 107 100
        ∧ bits w 107 100 ≤ s.flaskArrays 0 ∧ s.atBarrier 0 1 4 = [] ∧ issued u 0 0x0B 99 false w = true
        ∧ u.atBarrier 0 1 4 = [1] ∧ (u.arr 1).sync = some (bits w 111 108, bits w 107 100)
        ∧ bits w 107 100 ≤ (u.atBarrier 0 1 4).length + 1) := by decide +kernel

/-- R53, R55: WAITQ takes its count; LOOP goes back while its count is ahead and resets it at the end. -/
theorem test_waitq_loop :
    after (.waitq 0) (pour [pcmd 9 [(109, 2), (93, 3)]] fun x => { x with ev := [(2, 5)] })
      (fun t => (t.arr 0).ev == [(2, 2)] && (t.arr 0).pc == 1) = true
    ∧ after (.loop 0) (pour [0, pcmd 12 [(96, 2), (84, 1)]] fun x => { x with pc := 1, loops := [(1, 1)] })
      (fun t => (t.arr 0).pc == 0 && (t.arr 0).loops == [(1, 2)]) = true
    ∧ after (.loop 0) (pour [0, pcmd 12 [(96, 2), (84, 1)]] fun x => { x with pc := 1, loops := [(1, 2)] })
      (fun t => (t.arr 0).pc == 2 && (t.arr 0).loops.isEmpty) = true := by decide +kernel

/-- R56: two arrays of one job meet at a barrier of two parties. -/
theorem test_sync :
    (let w := pcmd 11 [(108, 4), (100, 2)]
     after (.sync 0) ((pour [w]).modArr 1 fun x => { x with job := some (tile0 [0xFF * 2 ^ 32]), sync := some (4, 2) })
      (fun t => (t.arr 0).pc == 1 && (t.arr 1).pc == 1 && (t.arr 1).sync.isNone)) = true
    ∧ after (.sync 0) (pour [pcmd 11 [(108, 4), (100, 2)]])
      (fun t => (t.arr 0).pc == 0 && (t.arr 0).sync == some (4, 2)) = true := by decide +kernel

/-- An LDW of two E4M3 rows with column scales at 100h, in one column. -/
def ldwW : Nat := pcmd 1 [(90, 0x1000), (86, 6), (78, 1), (72, 0), (56, 1), (34, 0x100)]

/-- An LDA of one INT8 row at 2000h, with its scale at 300h. -/
def ldaW : Nat := pcmd 3 [(90, 0x2000), (86, 1), (73, 0), (57, 2), (35, 0x300), (25, 1023)]

/-- A SHIFT of one step. -/
def shiftW : Nat := pcmd 4 [(96, 1)]

/-- A stream of one INT8 row at mould address 0 with scale 0. -/
def st1 : Stream where
  src := 0
  fmt := 1
  sparse := false
  zc := false
  follow := none
  m := 1
  stride := 2
  scales := some [0]
  scaleAddr := 0
  accRow := 0
  accumulate := false
  swap := false

/-- Those of WeightsAndStreamsAreLoaded: LDW; SWAPW behind an LDW, unmarked and marked; LDA with no, and with two streams
still entering. -/
theorem wit_weights :
    (let s := pour [ldwW]
     issued s 0 0x01 33 true ldwW = true ∧ (s.arr 0).async = [] ∧ s.loopInc 0 83 68 = 0
      ∧ bits ldwW 89 86 ≤ 10 ∧ bits ldwW 71 56 ≠ 0 ∧ bits ldwW 111 90 % 64 = 0 ∧ bit ldwW 85 = false
      ∧ 0x1000 + rowsEnd (bits ldwW 89 86) (bits ldwW 71 56) 2 ≤ mouldTop ∧ bits ldwW 55 34 + 64 ≤ mouldTop
      ∧ sint 8 (leAt ((s.arr 0).bytes (bits ldwW 55 34) 64) 0 1) = 0)
    ∧ (let w := pcmd 2 []
       let o : AsyncOp := { serial := 0, kind := .ldw, evt := none }
       issued (pour [w]) 0 0x02 111 false w = true ∧ ((pour [w]).arr 0).armSwap = false
        ∧ issued (pour [w] fun x => { x with armSwap := true }) 0 0x02 111 false w = true
        ∧ ((pour [w] fun x => { x with async := [o] }).arr 0).async = [o])
    ∧ (let s := pour [ldaW]
       issued s 0 0x03 24 false ldaW = true ∧ (s.arr 0).streams = [] ∧ bits ldaW 34 25 + 1 = 1024
        ∧ bit ldaW 84 = false ∧ bit ldaW 85 = (s.arr 0).active.sparse
        ∧ 0x2000 + rowBytes (bits ldaW 89 86) 128 ≤ mouldTop ∧ s.loopInc 0 67 52 = 0
        ∧ sint 8 (leAt ((s.arr 0).bytes (bits ldaW 56 35) 1) 0 1) = 0
        ∧ (((pour [ldaW] fun x => { x with streams := [st1, st1] }).arr 0).streams.filter
            fun t => decide (t.entered < t.m)).length = 2) := by decide +kernel

/-! ## Formats and rows -/

/-- The worked examples of R74: FP8 E4M3 5Ch at scale -3, INT8 A6h at scale -5, their product, and a BF16 that flushes. -/
theorem test_expand_examples :
    expand 6 0x5C (-3) = (0x40400000, .none) ∧ expand 1 0xA6 (-5) = (0xC0340000, .none)
    ∧ f32mul 0x40400000 0xC0340000 = 0xC1070000 ∧ expand 9 0x0DC0 (-40) = (0, .flush) := by decide +kernel

/-- R81 states -0.5, -0.7, 127.4 and 127.5; R80's example has 3,000 saturate in FP16 at scale -5. -/
theorem test_convert_examples :
    convert 2 (ofF32 0xBF000000) 0 = { code := 0 } ∧ convert 2 (ofF32 0xBF333333) 0 = { code := 0, sat := true }
    ∧ convert 1 (ofF32 0x42FECCCD) 0 = { code := 127 } ∧ convert 1 (ofF32 0x42FF0000) 0 = { code := 127, sat := true }
    ∧ convert 8 (ofF32 0x453B8000) (-5) = { code := 0x7BFF, sat := true }
    ∧ convert 8 (ofF32 0x451C4000) (-3) = { code := 0x74E2 } := by decide +kernel

/-- The scales of the three rows of R80's example, with the exponents that the rows of 1,000 and 3,000 add. -/
theorem test_rowScale_example :
    rowScale 8 [] 1 (-4) = -4 ∧ rowMag [0x447A0000] = some 9 ∧ rowScale 8 [9] 1 (-4) = -5
    ∧ rowMag [0, 0x453B8000] = some 11 ∧ rowScale 8 [9, 11] 1 (-4) = -3 ∧ histAdd [9] 7 (some 11) = [9, 11]
    ∧ histAdd [1, 2] 1 (some 3) = [2, 3] := by decide +kernel

/-- R88's example: a head row with largest magnitude 3.1; 0.0123, 0.0001 and 2^-17 under its shift. -/
theorem test_compaction_example :
    kvShift [0x40466666, 0x3C498C7E] = -7 ∧ kvCode (-7) 0x3C498C7E = 0x3D ∧ kvCode (-7) 0x38D1B717 = 0x07
    ∧ kvCode (-7) 0x37000000 = 0 := by decide +kernel

/-- R48: the block that an LDW loads is the shadow weights once it completes, SWAPW marks the swap of the stream that
the next LDA arms, and the sets change places as that stream's first row enters. -/
theorem test_weights :
    after (.ldw 0) (pour [ldwW] fun x => { x with mould := [(0x100, 0xFD), (0x1000, 0x5C), (0x1040, 0x40)] })
      (fun t => (t.arr 0).pc == 1 && (t.arr 0).shadow.w == [] && after (.asyncComplete 0 0 0) t (fun u =>
        NMap.get (u.arr 0).shadow.w 0 0 == 0x40400000 && (u.arr 0).async.isEmpty)) = true
    ∧ after (.swapw 0) (pour [pcmd 2 []] fun x => { x with shadow.w := [(0, 7)] })
      (fun t => (t.arr 0).active.w == [] && (t.arr 0).armSwap) = true
    ∧ after (.shift 0 0) (pour [shiftW] fun x => { x with streams := [{ st1 with swap := true }], shadow.w := [(0, 7)] })
      (fun t => (t.arr 0).active.w == [(0, 7)] && (t.arr 0).shadow.w == []) = true
    ∧ after (.lda 0) (pour [ldaW]) (fun t => (t.arr 0).streams.map (fun q => (q.src, q.m, q.accRow)) == [(0x2000, 1, 1023)])
      = true := by decide +kernel

/-- A stream whose row has entered, at step 5. -/
def landSt : Stream :=
  { st1 with entered := 1, s0 := 5, weights := { w := [(0, 0x40400000)] }, rows := [[0xC0340000]] }

/-- The step at which its first sum lands: the product of the two elements of R74's example is at row 0, column 0. -/
def landing : State :=
  pour [shiftW] fun x => { x with
    streams := [landSt]
    steps := 133 }

/-- Those of ShiftsMoveRowsAndLandSums: a step that is done, one that stalls on an XFER, a row that enters, sums that land. -/
theorem wit_shift :
    (let s := pour [shiftW]
     issued s 0 0x04 95 false shiftW = true ∧ bits shiftW 111 96 ≠ 0 ∧ (s.arr 0).shiftLeft = 0
      ∧ (State.runSteps 0 1 s).1 = 0 ∧ (State.runSteps 0 1 s).2.1 = .done)
    ∧ (let st : Stream := { st1 with follow := some 3 }
       let s := pour [shiftW] fun x =>
        { x with streams := [st], async := [{ serial := 3, kind := .xfer, evt := none, lo := 0, len := 64 }] }
       issued s 0 0x04 95 false shiftW = true ∧ (State.runSteps 0 1 s).1 = 1 ∧ (State.runSteps 0 1 s).2.1 = .stall
        ∧ (s.arr 0).entering = some (0, st) ∧ (s.arr 0).rowReady st = false)
    ∧ (let s := pour [shiftW] fun x => { x with streams := [st1] }
       (s.arr 0).streams = [st1] ∧ st1.entered < st1.m ∧ st1.entered < 128 ∧ st1.zc = false ∧ st1.follow = none
        ∧ (s.arr 0).async = [] ∧ (s.arr 0).xform = false)
    ∧ ((landing.arr 0).streams = [landSt] ∧ landSt.entered = landSt.m ∧ 0 < landSt.m
        ∧ landSt.s0 + 128 ≤ (landing.arr 0).steps ∧ (landing.arr 0).steps = landSt.s0 + 128 + 0 + 0) := by
  decide +kernel

/-- R46: a sum reaches its accumulator 128 steps after its row entered, in column 0. -/
theorem test_shift_lands :
    after (.shift 0 0) landing (fun t => NMap.get (t.arr 0).accum 0 0 == 0xC1070000 && (t.arr 0).steps == 134
      && (t.arr 0).pc == 1) = true
    ∧ after (.shift 0 0) (pour [shiftW] fun x => { x with streams := [st1], mould := [(0, 0xA6)], steps := 5 })
      (fun t => (t.arr 0).streams.map (fun q => (q.entered, q.s0, q.rows.head?.map fun r => r.head?))
        == [(1, 5, some (some 0xC2B40000))]) = true := by decide +kernel

/-- A DRAIN of accumulator row 0 as FP16 to 4000h, with its scale at 8000h. -/
def drainW : Nat := pcmd 6 [(90, 0x4000), (80, 0), (70, 0), (54, 2), (50, 8), (28, 0x8000)]

/-- An XFER of 64 bytes between memory at BASE 0 and the mould store at 40h, in a direction, with event 5. -/
def xferW (dir : Nat) : Nat := pcmd 8 [(119, 1), (116, 5), (111, dir), (39, 0x40)]

/-- Those of DrainsStoreAndTransfersAreHandedOn: DRAIN; XFER each way, with and without room. -/
theorem wit_drain_xfer :
    (let s := pour [drainW]
     issued s 0 0x06 27 true drainW = true ∧ (s.arr 0).async = [] ∧ (s.arr 0).post.zc = false ∧ s.loopInc 0 51 36 = 0
      ∧ bits drainW 53 50 ≤ 11 ∧ bits drainW 69 54 ≠ 0 ∧ bits drainW 111 90 % 64 = 0 ∧ bits drainW 89 80 + 1 ≤ 1024
      ∧ bits drainW 49 28 + 1 ≤ mouldTop ∧ 0x4000 + rowsEnd 8 2 1 ≤ mouldTop ∧ 0x4000 + rowBytes 8 64 ≤ bits drainW 49 28)
    ∧ (∀ d ∈ [0, 1],
       let s := pour [xferW d]
       issued s 0 0x08 17 true (xferW d) = true ∧ (s.arr 0).job = some (tile0 [0xFF * 2 ^ 32]) ∧ s.job 1 = some tjob
        ∧ s.loopInc 0 35 20 = 0 ∧ tjob.opcode ≠ 2 ∧ bits (xferW d) 110 109 ≠ 3 ∧ bits (xferW d) 108 61 % 64 = 0
        ∧ bits (xferW d) 60 39 = 0x40 ∧ bits (xferW d) 22 18 = 0 ∧ (s.arr 0).async = []
        ∧ ((pour [xferW d] fun x => { x with async := List.replicate 8 { serial := 0, kind := .xfer, evt := none } }).arr
            0).async.length = 8) := by decide +kernel

/-- R80, R81: a drained row and its scale byte; R57: an XFER is handed to a ladle. -/
theorem test_drain_xfer :
    after (.drain 0) (pour [drainW] fun x => { x with accum := [(0, 0x447A0000)], post.seed := -4 })
      (fun t => (t.arr 0).bytes 0x4000 2 == toLE 2 0x73D0 && (t.arr 0).bytes 0x8000 1 == [0xFC] && (t.arr 0).hist == [9])
      = true
    ∧ after (.xfer 0) (pour [xferW 0]) (fun t => t.mem.moves.map (fun v => (v.maddr, v.len, v.toMem)) == [(0x40, 64, false)]
        && (t.arr 0).async.map (fun o => (o.evt, o.finished)) == [(some 5, false)]) = true
    ∧ after (.xfer 0) (pour [xferW 1] fun x => { x with mould := [(0x40, 9)] }) (fun t =>
        t.mem.moves.map (fun v => (v.toMem, v.data.head?)) == [(true, some 9)]) = true := by decide +kernel

/-! ## Tiles and array jobs -/

/-- A tile of job 1 in a tile queue. -/
def tq (k : Nat) : TileQ := { job := 1, tile := k, prio := 0, order := 0, array := 0xFF }

/-- Job 1 with two tiles in the queue of flask 0; array 0 is of flask 0 or lent to it. -/
def queued (f : Nat) : State :=
  let s := (holds up { tjob with tiles := [[7], [8]], issued := 2 }).setF ARR_STATUS.FLASK 0 f
  (s.modFlask 0 fun x => { x with tiles := [tq 0, tq 1] }).modArr 0 fun x =>
    { x with slice := if f = 15 then some (0, 0) else none }

/-- The tile descriptor with its program of 16 bytes at DRAM + 100h. -/
def progTile : List Nat := [0xFF * 2 ^ 32, dramBase + 0x100, 16 * 2 ^ 32]

/-- Array 0 with a tile whose program is to be loaded; `st` and `j` are its STATE and the job that still runs. -/
def toLoad (st : Nat) (j : Option RunJob) : State :=
  ((poke (holds up tjob) 0x100 [5, 6]).setF ARR_STATUS.STATE 0 st).modArr 0 fun x =>
    { x with nextJob := some (tile0 progTile), job := j }

/-- Those of TilesAreGivenToFreeArraysAndLoaded: an owned and a lent free array, a busy one, an idle and a busy array that
loads, and a load that fails. -/
theorem wit_tiles :
    (let s := queued 0
     s.arrFree 0 = true ∧ s.f ARR_STATUS.FLASK 0 = 0 ∧ s.timed 0 = false ∧ (s.job 1).isSome = true
      ∧ s.firstTile 0 (s.f ARR_STATUS.LOGICAL 0) false = some (tq 0))
    ∧ (let s := queued 15
       s.arrFree 0 = true ∧ s.f ARR_STATUS.FLASK 0 = 15 ∧ (s.arr 0).slice = some (0, 0)
        ∧ s.firstTile 0 0xFF true = some (tq 0))
    ∧ (pour [0]).arrFree 0 = false
    ∧ (let s := toLoad 0 none
       (s.arr 0).nextJob = some (tile0 progTile) ∧ s.fb ARR_PROG.NEXT_VALID 0 = false ∧ s.arrServing 0 = true
        ∧ (instRead s 0 (tdProg progTile) (tdProgLen progTile)).1 = .ok ([5, 6] ++ List.replicate 14 0)
        ∧ s.f ARR_STATUS.STATE 0 = 0 ∧ (s.arr 0).job = none)
    ∧ (toLoad 1 (some (tile0 [])) |>.f ARR_STATUS.STATE 0) ≠ 0
    ∧ (let s := (toLoad 0 none).setR .dtuIommu 2 0
       (instRead s 0 (tdProg progTile) (tdProgLen progTile)).1.good = false ∧ s.job 1 = some tjob
        ∧ tjob.phase = .running) := by decide +kernel

/-- R64, R59: a tile goes to a free array; an idle array starts its program, in the half that CUR_HALF does not name. -/
theorem test_tiles :
    after (.tileDispatch 0) (queued 0) (fun t => ((t.arr 0).nextJob.map fun r => (r.tile, r.desc)) == some (0, [7])
      && (t.flask 0).tiles == [tq 1]) = true
    ∧ after (.programLoad 0) (toLoad 0 none) (fun t => t.f ARR_STATUS.STATE 0 == 1 && t.f ARR_PROG.CUR_HALF 0 == 1
      && t.f ARR_PROG.CUR_LEN 0 == 1 && NMap.get (t.arr 0).store 0 2048 == 0x0605) = true
    ∧ after (.programLoad 0) (toLoad 1 (some (tile0 []))) (fun t => t.fb ARR_PROG.NEXT_VALID 0 && t.f ARR_PROG.NEXT_LEN 0 == 1
      && t.f ARR_STATUS.STATE 0 == 1) = true := by decide +kernel

/-- END at issue, and the array at its end. -/
def endW : Nat := pcmd 14 []

/-- Array 0 runs the primary execution of a pair with array 1. -/
def paired : State :=
  let s := pour [endW] fun x => { x with job := some { tile0 [1 * 2 ^ 32] with role := .primary } }
  let p : Pair :=
    { flask := 0, vec := false, job := 1, tile := 0, pri := 0, rc := 1, laterStart := 0, firstEnd := 0, releaseNs := 0 }
  { s with units.pairs := [p] }

/-- Those of EndFinishesTheTileAndTakesTheNextProgram: END with a command outstanding, END of a last tile and of one before it,
with and without a NEXT program, and END in a pair. -/
theorem wit_end :
    (let s := pour [endW] fun x => { x with async := [{ serial := 0, kind := .ldw, evt := none }] }
     issued s 0 0x0E 111 false endW = true ∧ (s.arr 0).async ≠ [])
    ∧ (let s := pour [endW]
       issued s 0 0x0E 111 false endW = true ∧ (s.arr 0).async = [] ∧ s.job 1 = some tjob ∧ tjob.phase = .running
        ∧ (s.arr 0).withdrawDue = none ∧ (s.arr 0).testBarDue = false
        ∧ tjob.tiles.length ≤ (insNat tjob.doneParts 0).length
        ∧ (insNat tjob.doneParts 0).length < [tjob.tiles, tjob.tiles].length ∧ s.fb ARR_PROG.NEXT_VALID 0 = false
        ∧ (s.setF ARR_PROG.NEXT_VALID 0 1).fb ARR_PROG.NEXT_VALID 0 = true)
    ∧ (issued paired 0 0x0E 111 false endW = true ∧ (paired.arr 0).async = []
        ∧ ((paired.arr 0).job.map fun r => r.role) = some .primary
        ∧ (paired.pairOf false 0).any fun p => p.overran == 0 && p.priEnd.isNone && p.rcEnd.isNone && p.pri == 0
            && p.rc == 1) := by decide +kernel

/-- R58, R59: END of the only tile ends its job OK; R135: in a pair the array holds with its signature. -/
theorem test_end :
    after (.endProg 0 0 false) (pour [endW]) (fun t => t.f ARR_STATUS.STATE 0 == 0 && t.f ARR_PERF.TILES 0 == 1
      && ((t.job 1).any fun x => x.phase == .ended && x.status == 0)) = true
    ∧ after (.endProg 0 0 false) paired (fun t => (t.arr 0).held && ((t.pairOf false 0).any fun p => p.sigP == some ([], 0)
      && p.priEnd == some 0)) = true := by decide +kernel

/-- An array with one finished command outstanding, whose event counter stands at `n`. -/
def ending (n : Nat) (kind : AsyncKind) : State :=
  pour [endW] fun x => { x with async := [{ serial := 4, kind := kind, evt := some 2, finished := true }], ev := [(2, n)] }

/-- Those of CompletionsRaiseCountersAndWatchdogsFault, at the counter's top and below it, and on both sides of the
watchdog's time. -/
theorem wit_completions :
    (let s := ending 0xFFFE .xfer
     ((s.arr 0).async.find? fun o => o.serial == 4).any (fun o => o.finished && o.evt == some 2) = true
      ∧ s.f ARR_STATUS.STATE 0 ≠ 3 ∧ NMap.get (s.arr 0).ev 0 2 < 0xFFFF)
    ∧ 0xFFFF ≤ NMap.get ((ending 0xFFFF .ldw).arr 0).ev 0 2
    ∧ (let w := (pour [0]).f ARR_CTRL.WDOG_NS 0
       (pour [0]).issuing 0 = true ∧ (pour [0]).job 1 = some tjob ∧ (atNs (pour [0]) (w + 1)).timed 0 = false
        ∧ reached (atNs (pour [0]) (w + 1)).now (0 + tdEst [0xFF * 2 ^ 32] + w + 1) = true
        ∧ reached (atNs (pour [0]) w).now (0 + tdEst [0xFF * 2 ^ 32] + w + 1) = false) := by decide +kernel

/-- R53, R62: the counter rises, overflows, and a tile that is too long faults. -/
theorem test_completions :
    after (.asyncComplete 0 4 0) (ending 0xFFFE .xfer) (fun t => (t.arr 0).ev == [(2, 0xFFFF)] && (t.arr 0).async.isEmpty)
      = true
    ∧ after (.asyncComplete 0 4 0) (ending 0xFFFF .ldw) (fun t => t.fb ARR_STATUS.EVT_OVF 0 && t.f ARR_STATUS.STATE 0 == 3)
      = true
    ∧ after (.tileWatchdog 0) (atNs ((pour [0]).setF ARR_CTRL.WDOG_NS 0 8) 9) (fun t => t.fb ARR_STATUS.WDOG 0
      && ((t.job 1).any fun x => x.status == 0x14)) = true
    ∧ after (.tileWatchdog 0) (atNs ((pour [0]).setF ARR_CTRL.WDOG_NS 0 8) 8) (fun t => !t.fb ARR_STATUS.WDOG 0) = true := by
  decide +kernel

/-- Those of ArrayRegistersControlTheArray: the three writes, an abort of a running and of an idle array, and its end. -/
theorem wit_arrayRegisters :
    taken (pour [0]) .arrProg 0 .manager (withBit (0x10 * 2 ^ 50) 63) = true
    ∧ (taken (pour [0]) .arrCtrl 0 .manager (withBit 0 63) = true ∧ (pour [0]).f ARR_STATUS.STATE 0 ≠ 3
        ∧ ((pour [0]).arr 0).job = some (tile0 [0xFF * 2 ^ 32]) ∧ (pour [0]).job 1 = some tjob)
    ∧ (taken up .arrCtrl 0 .manager (withBit 0 63) = true ∧ up.f ARR_STATUS.STATE 0 ≠ 3 ∧ (up.arr 0).job = none)
    ∧ (let s := (pour [0]).setF ARR_STATUS.STATE 0 3
       (s.arr 0).async = [] ∧ s.f ARR_STATUS.FLASK 0 ≠ 15 ∧ (s.arr 0).withdrawDue = none ∧ (s.arr 0).testBarDue = false
        ∧ s.fb ARR_PROG.NEXT_VALID 0 = false)
    ∧ taken up .arrSatcfg 0 .manager (2 ^ 63 + 10 * 2 ^ 56 + 5 * 2 ^ 16) = true := by decide +kernel

/-- R63: ABORT ends the job ABORTED and the array is idle again at once when nothing is outstanding. -/
theorem test_abort :
    after (.abort .manager 0 0) (pour [0]) (fun s => s.f ARR_STATUS.STATE 0 == 3
      && ((s.job 1).any fun x => x.status == 0x16)
      && after (.abortComplete 0) s (fun t => t.f ARR_STATUS.STATE 0 == 0 && !t.fb ARR_CTRL.ABORT 0)) = true
    ∧ after (.arrSatcfgWrite .manager 0 (BitVec.ofNat 64 (2 ^ 63 + 9 * 2 ^ 56))) up (fun t =>
      t.fb SYS_REGERR.REFUSED 0 && !t.fb ARR_SATCFG.EN 0) = true := by decide +kernel

/-! ## Convolution -/

/-- A pooling record: one image of `h` × 1 pixels with one channel in blocks of 16 at DRAM + 1000h, filter `kh` × 1, operator
`op`, INT8 in and out to DRAM + 3000h, scale bytes at DRAM + 2000h and DRAM + 4000h. -/
def convRec (op h kh pad : Nat) : List Nat :=
  [h * 2 ^ 48 + 2 ^ 32 + 2 ^ 16 + 1, (h + 2 * pad - kh + 1) * 2 ^ 48 + 2 ^ 32 + 2 ^ 16 + kh * 2 ^ 8 + 1,
    2 ^ 48 + pad * 2 ^ 40 + pad * 2 ^ 32 + 0x1111, 2 ^ 60 + 2 ^ 56 + 2 ^ 52 + op * 2 ^ 48 + 2 ^ 47, dramBase + 0x1000,
    dramBase + 0x2000, 0, 0, dramBase + 0x3000, dramBase + 0x4000, 0, 0, 0]

/-- A running CONV job with a record. -/
def convJob (r : List Nat) : Job := { job1 [w0 2 0 0] with phase := .running, param := words r, tiles := [] }

/-- The job, with the pixels 5, -3 (and zeros) of its input. -/
def convS (r : List Nat) : State := poke (holds up (convJob r)) 0x1000 ([5] ++ List.replicate 15 0 ++ [0xFD])

/-- The same with engine 0 in the flask, which holds the job's first row of output. -/
def convE (r : List Nat) : State :=
  ((convS r).setF VEC_STATUS.FLASK 0 0).modVec 0 fun v => { v with item := some { job := 1, item := 0, startNs := 0, kind := 3 } }

/-- Those of ConvJobsRunByTheirOperator: a tap-form job; each operator of the vector path, with and without a free engine;
a row that is read, and one that is not. -/
theorem wit_conv :
    (let x := { convJob (convRec 0 1 1 0) with tiles := [[0xFF * 2 ^ 32]] }
     x.phase = .running ∧ x.opcode = 2 ∧ isTap x.conv = true ∧ (holds up x).job 1 = some x
      ∧ (holds up x).timed ((holds up x).jobFlask x) = false ∧ x.issued = 0
      ∧ isAttn 2 = false)
    ∧ (∀ op ∈ [1, 2, 3], isOk (convItem (convJob (convRec op 2 2 0)) 0 (convE (convRec op 2 2 0))) = true
        ∧ cvOp (convJob (convRec op 2 2 0)).conv = op)
    ∧ (let x := convJob (convRec 1 2 2 0)
       let s := (convS (convRec 1 2 2 0)).setF VEC_STATUS.FLASK 0 0
       isTap x.conv = false ∧ s.timed (s.jobFlask x) = false ∧ (s.engines (s.jobFlask x)).find? s.engFree = some 0
        ∧ s.nextWork (s.jobFlask x) = some x ∧ (up.engines 0).find? up.engFree = none)
    ∧ (let s := convE (convRec 1 2 2 0)
       s.pairOf true 0 = none ∧ s.job 1 = some (convJob (convRec 1 2 2 0)) ∧ (s.vec 0).testBarDue = false
        ∧ convRows (convJob (convRec 1 2 2 0)) = 1 ∧ convRows (convJob (convRec 2 2 2 1)) = 3)
    ∧ (let r := [2 ^ 48 + 2 ^ 32 + 2 * 2 ^ 16 + 2, 2 ^ 48 + 2 ^ 32 + 2 ^ 16 + 2 ^ 8 + 1, 2 * 2 ^ 48 + 0x1111,
          2 ^ 60 + 2 ^ 56 + 2 ^ 52, dramBase + 0x1000, dramBase + 0x2000, dramBase + 0x5000, dramBase + 0x6000,
          dramBase + 0x3000, dramBase + 0x4000, 0, 0, 0]
       isOk (convItem (convJob r) 0 (convS r)) = true ∧ isTap (convJob r).conv = false ∧ cvOp (convJob r).conv = 0)
    ∧ isOk (convItem (convJob (convRec 1 2 2 0)) 0 ((convE (convRec 1 2 2 0)).setR .dtuIommu 2 0)) = false
    ∧ (let x := convJob (convRec 4 1 1 0)
       isOk (convItem x 0 (convS (convRec 4 1 1 0))) = true ∧ cvOp x.conv = 4)
    ∧ cvInside (convJob (convRec 1 2 2 1)).conv (-1) 0 = false
    ∧ (ofF32 0x3F800000 ≠ .nan) ∧ ofF32 0x7FC00000 = .nan := by decide +kernel

/-- R105: the largest of 5 and -3 is 5; their mean is 1, and with one row of padding 5 / 2 counts it or not. -/
theorem test_pool :
    after (.maxPool 1) ((convS (convRec 1 2 2 0)).setF VEC_STATUS.FLASK 0 0) (fun s =>
      (s.vec 0).item == some { job := 1, item := 0, startNs := 0, kind := 3 }
        && after (.itemEnd 0 [] (.ecall 0) 0 false) s (fun t => t.bytes (dramBase + 0x3000) 1 == [5]
          && ((t.job 1).any fun x => x.phase == .ended && x.status == 0))) = true
    ∧ after (.itemEnd 0 [] (.ecall 0) 0 false) (convE (convRec 2 2 2 0)) (fun t => t.bytes (dramBase + 0x3000) 1 == [1]) = true
    ∧ after (.itemEnd 0 [] (.ecall 0) 0 false) (convE (convRec 2 2 2 1)) (fun t => t.bytes (dramBase + 0x3000) 1 == [2]) = true
    ∧ after (.itemEnd 0 [] (.ecall 0) 0 false) (convE (convRec 3 2 2 1)) (fun t => t.bytes (dramBase + 0x3000) 1 == [5])
      = true := by
  decide +kernel

/-! ## Attention -/

/-- Instance 0 has a pool of eight frames of 16 KB, two contexts, SEQ_IDs below 16 and spill records at DRAM + 8000h. -/
def kv : State :=
  (((((((up.setF ATT_FSLICE.CTX_COUNT 0 2).setF ATT_IQUOTA.CTX_MAX 0 2).setF ATT_IQUOTA.ID_LIMIT 0 16).setF ATT_IPOOL.EN 0
    1).setF ATT_IPOOL.POOL_BASE 0 ((dramBase + 0x40000) / 65536)).setF ATT_IFRAMES.FRAMES 0 8).setF ATT_ISPILL.SPILL_BASE 0
    ((dramBase + 0x8000) / 4096))

/-- A context of instance 0 with one layer and one head of 64 elements, leaf table at DRAM + 20000h. -/
def seq (id st : Nat) : Ctx where
  seqId := id
  state := st
  layers := 1
  kvHeads := 1
  vaBase := dramBase + 0x100000
  maxTokens := 126
  leafAddr := dramBase + 0x20000

/-- A running job of a class with its inline words. -/
def ajob (op : Nat) (inl : List Nat) : Job :=
  { job1 ([w0 op 0 0] ++ List.replicate 9 0 ++ inl) with phase := .running }

/-- The inline words of an admission of SEQ_ID 5 as `seq 5 1`, with flags, spread record, and parent and prefix. -/
def admitW (flags par spread : Nat) : List Nat :=
  [5 * 2 ^ 32 + 2 ^ 16 + 2 ^ 8 + flags, dramBase + 0x100000, 126 * 2 ^ 32, dramBase + 0x20000, par, spread]

/-- SEQ_ADMIT of SEQ_ID 5. -/
def admitJob (flags par spread : Nat) : Job := ajob 6 (admitW flags par spread)

/-- The job beside contexts in slots 0 and 1. -/
def admS (x : Job) (a b : Ctx) : State := ((holds kv x).setCtx 0 a).setCtx 1 b

/-- A spill record of SEQ_ID 5. -/
def spilled (s : State) : State := poke s (0x8000 + 5 * 64) ((seq 5 1).record 3 0)

/-- Those of SequencesAreAdmittedRestoredAndReleased for an admission: a free slot, a spill, a full table; an id in use, an id
that a record holds, and a spread record. -/
theorem wit_admit :
    (let x := admitJob 0 0 0
     let s := admS x (seq 2 1) {}
     x.phase = .running ∧ x.opcode = 6 ∧ s.job 1 = some x ∧ bit (x.inl 0) 6 = false ∧ bit (x.inl 0) 5 = false
      ∧ s.work.sweeping = [] ∧ s.idFree 0 5 = true ∧ bits (x.inl 0) 63 32 = 5 ∧ x.inl 5 = 0
      ∧ got (readSpill 0 5 s) = some none ∧ s.room 0 false = .slot 1 ∧ s.admitCtx x = seq 5 1)
    ∧ (let x := admitJob 0x80 0 0
       let s := admS x (seq 2 1) (seq 3 1)
       bit (x.inl 0) 7 = true ∧ s.room 0 true = .spill (0, seq 2 1) ∧ isOk (spillCtx 0 (0, seq 2 1) s) = true
        ∧ s.room 0 false = .full ∧ s.idFree 0 5 = true)
    ∧ (admS (admitJob 0 0 0) (seq 5 1) {}).idFree 0 5 = false
    ∧ got (readSpill 0 5 (spilled (admS (admitJob 0 0 0) {} {}))) = some (some (seq 5 3))
    ∧ (let x := admitJob 0 0 (dramBase + 0x700)
       let rec_ := words [2 ^ 60 + 2 * 2 ^ 56, 2 ^ 16]
       let s := poke (admS x {} {}) 0x700 rec_
       x.inl 5 ≠ 0 ∧ (instRead s 0 (x.inl 5) 64).1 = .ok (rec_ ++ List.replicate 48 0)
        ∧ s.spreadBad (rec_ ++ List.replicate 48 0) = false ∧ s.room 0 false = .slot 0) := by
  decide +kernel

/-- Those for a restore with and without a record, and a fork that shares a page. -/
theorem wit_restore :
    (let x := admitJob 0x40 0 0
     let s := spilled (admS x {} {})
     bit (x.inl 0) 6 = true ∧ s.idFree 0 5 = true ∧ got (readSpill 0 5 s) = some (some (seq 5 3))
      ∧ isOk (gCheck 0 (s.spillAt 0 5) s) = true ∧ s.room 0 false = .slot 0 ∧ s.job 1 = some x
      ∧ got (readSpill 0 5 (admS x {} {})) = some none)
    ∧ (let x := admitJob 0x20 (2 * 2 ^ 32 + 3) 0
       let p := { seq 2 1 with len := 10 }
       let s := poke (admS x p {}) 0x20000 (toLE 8 (leafPte (dramBase + 0x40000) true))
       let c := { s.admitCtx x with len := 3 }
       bit (x.inl 0) 6 = false ∧ bit (x.inl 0) 5 = true ∧ bits (x.inl 4) 31 0 = 3 ∧ bits (x.inl 4) 63 32 = 2
        ∧ s.seqSlot 0 2 = some 0 ∧ s.ctx 0 = p ∧ p.layers = c.layers ∧ p.kvHeads = c.kvHeads ∧ p.dCode = c.dCode
        ∧ 3 ≤ p.len ∧ 3 ≤ c.maxTokens ∧ got (mappedPages 0 p (p.prefixPages 3) s) = some [((0, 0, 0), 0)]
        ∧ isOk (readAll (fun q s => gCheck 0 (c.leafAt (c.pageVa q.1 q.2.1 q.2.2)) s) (c.prefixPages 3) s) = true
        ∧ s.room 0 false = .slot 1 ∧ s.refCount 0 0 ≤ 0xFFFF) := by decide +kernel

/-- Those for releases of an idle, a busy and an absent sequence. -/
theorem wit_release :
    (let x := ajob 7 [2 * 2 ^ 32]
       let s := poke (admS x (seq 2 1) {}) 0x20000 (toLE 8 (leafPte (dramBase + 0x40000) true))
       x.opcode = 7 ∧ s.seqSlot 0 (bits (x.inl 0) 63 32) = some 0 ∧ (s.ctx 0).state ≠ 2
        ∧ got (mappedPages 0 (s.ctx 0) (s.ctx 0).allPages s) = some [((0, 0, 0), 0)]
        ∧ s.refCount 0 0 ≠ 0xFFFF ∧ ((admS x (seq 2 2) {}).ctx 0).state = 2)
    ∧ (let x := ajob 7 [16 * 2 ^ 32]
       (admS x {} {}).seqSlot 0 (bits (x.inl 0) 63 32) = none
        ∧ (admS x {} {}).f ATT_IQUOTA.ID_LIMIT 0 ≤ bits (x.inl 0) 63 32) := by decide +kernel

/-- The manual's example of chapter 06: SEQ_ID 391h is spilled to SPILL_BASE + E440h, and DETAIL names it; a full table without
ALLOW_SPILL names the new id. R108: T is 254 for D 128 in pages of 64 KB. -/
theorem test_admit_examples :
    kv.spillAt 0 0x391 = dramBase + 0x8000 + 0xE440 ∧ pagePos 2 1 = 254
    ∧ after (.seqAdmit 1) (admS (admitJob 0x80 0 0) (seq 2 1) { seq 3 1 with lastStep := 0xFFFFFFFF }) (fun t =>
        ((t.job 1).any fun x => x.status == 0 && x.detail == some 3) && t.ctx 1 == seq 5 1
          && got (readSpill 0 3 t) == some (some { seq 3 3 with lastStep := 0xFFFFFFFF })) = true
    ∧ after (.seqAdmit 1) (admS (admitJob 0 0 0) (seq 2 1) (seq 3 1)) (fun t =>
        (t.job 1).any fun x => x.status == stSeqTableFull && x.detail == some 5) = true := by decide +kernel

/-- R117 to R119: a restore takes the record, a fork counts a reference, a release gives it up. -/
theorem test_restore_fork_release :
    after (.seqRestore 1) (spilled (admS (admitJob 0x40 0 0) {} {})) (fun t => t.ctx 0 == seq 5 1
      && got (readSpill 0 5 t) == some none) = true
    ∧ after (.seqFork 1) ((poke (admS (admitJob 0x20 (2 * 2 ^ 32 + 3) 0) { seq 2 1 with len := 10 } {}) 0x20000
      (toLE 8 (leafPte (dramBase + 0x40000) true))).setCount 0 0 1) (fun t => t.refCount 0 0 == 2
        && t.ctx 1 == { seq 5 1 with len := 3, pages := 1 }) = true
    ∧ after (.seqRelease 1) ((poke (admS (ajob 7 [2 * 2 ^ 32]) (seq 2 1) {}) 0x20000
      (toLE 8 (leafPte (dramBase + 0x40000) true))).setCount 0 0 1) (fun t => t.refCount 0 0 == 0 && t.ctx 0 == {}) = true := by
  decide +kernel

/-- A step or prefill over one entry of layer 0 with 64 elements: FIRST, LAST and GROUP as given (with GROUP 0 rows are appended
and none is computed, which keeps a test short), one head, BF16 in and out, batch at
DRAM + 0, queries, keys and values at DRAM + 200h, 400h and 600h, output at DRAM + 800h, results at DRAM + A00h. -/
def stepJob (op : Nat) (first last : Nat) (group : Nat := 1) : Job :=
  { ajob op [] with param := words [first * 2 ^ 55 + last * 2 ^ 54 + 9 * 2 ^ 50 + 9 * 2 ^ 46 + 2 ^ 36 + group * 2 ^ 24 + 1,
      dramBase, dramBase + 0x200, dramBase + 0x400, dramBase + 0x600, dramBase + 0x800, dramBase + 0xA00, 2 ^ 48] }

/-- SEQ_ID 2 in slot 0, named by the batch list. -/
def stepS (op first last : Nat) (st : Nat) (group : Nat := 1) : State :=
  poke (admS (stepJob op first last group) (seq 2 st) {}) 0 (words [2 * 2 ^ 32])

/-- The step that is open. -/
def run1 (prefill : Bool) : OpenRun where
  inst := 0
  prefill := prefill
  batch := dramBase
  entries := 1
  ntok := 1
  run := [(0, 2)]
  ids := [2]

/-- A step or prefill is open. -/
def opened (s : State) (r : OpenRun) : State := { s with work.runs := [r] }

/-- Those of StepsAndPrefillsOpenRunAndClose: no run and no FIRST; a FIRST job of an open step; a following job; FIRST jobs. -/
theorem wit_steps :
    (∀ op ∈ [4, 5], (stepS op 0 0 1).openRun (stepJob op 0 0) [] = none ∧ atFirst (stepJob op 0 0) = false
      ∧ (stepJob op 0 0).opcode = op)
    ∧ ((opened (stepS 5 1 0 2) (run1 false)).openRun (stepJob 5 1 0) [] = some (run1 false) ∧ atFirst (stepJob 5 1 0) = true)
    ∧ (∀ op ∈ [4, 5],
       let s := opened (stepS op 0 1 2 0) (run1 (op == 4))
       let x := stepJob op 0 1 0
       s.openRun x [] = some (run1 (op == 4)) ∧ x.await = 0 ∧ (s.work.ctxs.all fun p => !p.2.spread) = true ∧ atBatch x = dramBase ∧ atEntries x = 1 ∧ atLast x = true
        ∧ atLast (stepJob op 0 0 0) = false ∧ s.seqSlot 0 2 = some 0
        ∧ isOk (readAll (runEntry x (run1 (op == 4))) (run1 (op == 4)).run s) = true)
    ∧ (∀ op ∈ [4, 5],
       let s := stepS op 1 0 1
       let x := stepJob op 1 0
       s.openRun x [] = none ∧ atFirst x = true ∧ atLast x = false
        ∧ (instRead s 0 (atBatch x) (8 * atEntries x)).1 = .ok (words [2 * 2 ^ 32])
        ∧ (∀ e ∈ batchEntries (words [2 * 2 ^ 32]) 1, s.prefillOpen 0 e.id = false)
        ∧ (∀ e ∈ batchEntries (words [2 * 2 ^ 32]) 1, (opened s (run1 true)).prefillOpen 0 e.id = true)
        ∧ isOk (checkAll x (s.classifyAll x (batchEntries (words [2 * 2 ^ 32]) 1)) s) = true) := by decide +kernel

/-- R124, R125: a query of one element that attends to one key with value 2.0 gives 2.0, to values 2.0 and 4.0 under equal
scores 3.0. -/
theorem test_chunk :
    foldOut 11 (chunkResult 2 [0x3F800000] [{ key := [0x3F800000], val := [0x40000000], vshift := 0 }]).1
      = [{ code := 0x40000000 }]
    ∧ foldOut 11 (chunkResult 2 [0x3F800000] [{ key := [0x3F800000], val := [0x40000000], vshift := 0 },
        { key := [0x3F800000], val := [0x40000000], vshift := 1 }]).1 = [{ code := 0x40400000 }] := by decide +kernel

/-- R123: a step with LAST appends its row (value 2.0 is code 78h at shift -7: 256 × 2^-7) and closes with LEN 1. -/
theorem test_step_closes :
    after (.attnStep 1) (poke (opened (stepS 5 0 1 2 0) (run1 false)) 0x600 [0x00, 0x40]) (fun t => t.work.runs.isEmpty
      && t.ctx 0 == { seq 2 1 with len := 1 } && t.bytes (dramBase + 0x100000 + 64) 2 == [0x78, 0]
      && t.bytes (dramBase + 0x100000 + 2 * 126 * 64) 2 == [0xC0, 0xF9]
      && ((t.job 1).any fun x => x.status == 0)) = true := by decide +kernel

/-- R121: a FIRST job maps a frame and opens its step; the result word says ran. -/
theorem test_step_opens :
    after (.attnStep 1) (stepS 5 1 0 1 0) (fun t => t.work.runs == [run1 false] && (t.ctx 0).state == 2 && (t.ctx 0).pages == 1
      && t.refCount 0 0 == 1 && t.f ATT_FSLICE.STEP 0 == 1 && t.bytes (dramBase + 0xA00) 8 == words [1]) = true := by
  decide +kernel

/-- Those of PoolsAreEnabledSweptAndDisabled. -/
theorem wit_pools :
    taken kv .attIctrl 0 .manager (withBit 0 63) = true
    ∧ ((0 : Nat) ∈ ({ kv with work.sweeping := [0] } : State).work.sweeping) ∧ (0 : Nat) ∉ kv.work.sweeping
    ∧ taken up .attIpool 0 .manager (withBit 0 0) = true
    ∧ (kv.permits .attIpool 0 .manager true 0 = true ∧ kv.lockedBy .attIpool 0 = none
        ∧ kv.clearsEn .attIpool 0 (kv.newValue .attIpool 0 .whole (withoutBit 0 0)) = some ATT_IPOOL.EN
        ∧ kv.clearBad .attIpool 0 = false)
    ∧ (let s := kv.setF ATT_ISPILLED.SPILLED 0 1
       s.permits .attIpool 0 .manager true 0 = true ∧ s.lockedBy .attIpool 0 = none ∧ s.fb ATT_IPOOL.EN 0 = true
        ∧ s.f ATT_ISPILLED.SPILLED 0 ≠ 0) := by decide +kernel

/-- R130, R113: enabling a pool begins a new epoch; a pool in use stays enabled. -/
theorem test_pools :
    after (.poolEnable .manager 0 0) up (fun t => t.fb ATT_IPOOL.EN 0 && t.f ATT_ISPILLED.EPOCH 0 == 1) = true
    ∧ after (.poolDisable .manager 0 0) (kv.setF ATT_ISPILLED.SPILLED 0 1) (fun t => t.fb ATT_IPOOL.EN 0
      && t.fb SYS_REGERR.REFUSED 0) = true
    ∧ after (.sweepDone 0) ({ kv with work.sweeping := [0], work.refc := [(3, 9)] }) (fun t => t.work.sweeping.isEmpty
      && t.work.refc.isEmpty) = true := by decide +kernel

/-! ## Pairs and isolations, at the times of the example of chapter 08 -/

/-- Job 1 of a tile whose primary runs on array 2 from 20,000 µs and whose recast runs on array 7 from 20,001 µs. -/
def twins (p : Pair) (now : Nat) : State :=
  let run (s : State) (a : Nat) (r : Role) (t : Nat) : State :=
    (s.setF ARR_STATUS.STATE a 1).modArr a fun x => { x with job := some { tile0 [7 * 2 ^ 32] with role := r, startNs := t } }
  let s := run (run (atNs (holds up tjob) now) 2 .primary 20000000) 7 .recast 20001000
  { s with units.pairs := [p] }

/-- Their pair. -/
def pair27 : Pair where
  flask := 0
  vec := false
  job := 1
  tile := 0
  pri := 2
  rc := 7
  laterStart := 20001000
  firstEnd := 20008000
  releaseNs := 20009200

/-- The pair while array 7 runs its tile again. -/
def pairAgain : Pair := { pair27 with phase := .reexec, priEnd := some 20007600, rcEnd := some 20008600 }

/-- Those of ExecutionsAreAbortedAndIsolationsEnd, at each deadline and one ns before it. -/
theorem wit_isolations :
    (let s := twins pair27 20008000
     pairUnit 2 = (false, 2) ∧ s.pairOf false 2 = some pair27 ∧ s.execStart false 2 = some 20000000
      ∧ pair27.phase = .running ∧ pair27.pri ≠ pair27.rc ∧ pair27.openFor 2 = true ∧ pair27.openFor 7 = true
      ∧ reached s.now (20000000 + 8000) = true ∧ reached (twins pair27 20007999).now (20000000 + 8000) = false)
    ∧ (let s := twins pairAgain 20018000
       s.pairOf false 7 = some pairAgain ∧ s.execStart false 7 = some 20001000 ∧ pairAgain.phase = .reexec
        ∧ pairAgain.again = 7 ∧ reached s.now (pairAgain.laterStart + 17000) = true ∧ pairAgain.overran = 0
        ∧ reached (twins pairAgain 20017999).now (pairAgain.laterStart + 17000) = false)
    ∧ (let p : Pair := { pairAgain with overran := 2 }
       (twins p 20018000).pairOf false 2 = some p ∧ p.again = 2 ∧ p.overran ≠ 0
        ∧ (twins p 20018000).execStart false 2 = some 20000000)
    ∧ (∀ o ∈ [1, 2], (twins { pairAgain with outcome := o } 20018500).settled 0 = some { pairAgain with outcome := o })
    ∧ (twins pairAgain 0).settled 0 = none := by decide +kernel

/-- R137, R139: an overrun is aborted; the deadline 20,018.0 ends the re-execution. -/
theorem test_overrun_deadline :
    after (.overrun 2) (twins pair27 20008000) (fun t => (t.pairOf false 2).any (fun p => p.overran == 1)
      && t.f ARR_STATUS.STATE 2 == 3) = true
    ∧ after (.isolationDeadline 7) (twins pairAgain 20018000) (fun t => (t.pairOf false 2).any (fun p =>
      p.outcome == 1 && p.phase == .release) && t.fb SYS_SAFESTAT.ISOLATED 0) = true := by decide +kernel

/-- R171: release visible at 20,018.5 against a release point of 20,009.2 makes L 10. -/
theorem test_isolation_lag :
    after (.isolationEnd 0) (twins { pairAgain with outcome := 1 } 20018500) (fun t => t.f POUR_FLAG.LAG 0 == 10
      && t.units.pairs.isEmpty && ((t.job 1).any fun x => x.status == 0 && x.cflags == 2)) = true
    ∧ after (.isolationEnd 0) (twins { pairAgain with outcome := 2 } 20018500) (fun t =>
      (t.job 1).any fun x => x.status == 0x15 && x.detail == some 0) = true := by decide +kernel

/-! ## Real-time tasks and test bars -/

/-- The first execution of task 9 captured its input at 77 ns. -/
def run9 : FirstRun := { task := 9, logTime := 77, log := [(0, 3)] }

/-- What a task retires: r5 := 6, a store of one byte at 0 of its window, and a read of the time into r6. -/
def rtSteps : List RtStep := [.retire (some (5, 6)) (some (0, [1])), .readTime 6]

/-- The signature and the count of that. -/
def rtRes : Nat × Nat := let r := rtSteps.foldl (RtRun.step run9) { reg := [], data := [] }; (crc32Final r.sig, r.count)

/-- Core 1 of flask 0 runs task 9, started at the end of its input-log copy or not; its partner is core 0. The first
execution is that of core 1 itself (KIND 4h) or of core 0 (5h), and has ended with a result or not. -/
def rtS (kind : Nat) (started : Bool) (ended : Option (Nat × Nat)) : State :=
  let l : List FirstRun := [{ run9 with ended := ended }]
  (up.modRt 0 fun x => { x with flask := some 0, firsts := if kind = 5 then l else [] }).modRt 1 fun x =>
    { x with flask := some 0, task := some (9, 0, 0, kind, 0), started := started, firsts := if kind = 4 then l else [] }

/-- Those of RealTimeTasksRunTwiceAndAreCompared. -/
theorem wit_rt :
    (((rtS 4 false none).rt 1).task.isSome = true ∧ ((rtS 4 false none).rt 1).started = false
      ∧ (rtS 4 false none).mem.moves = [])
    ∧ (up.rt 1).task = none
    ∧ (((rtS 4 true none).rt 1).task = some (9, 0, 0, 4, 0) ∧ ((rtS 4 true none).rt 1).started = true
      ∧ (rtS 4 true none).firstOf 1 9 = some run9 ∧ ((rtS 4 true none).rt 1).reg = []
      ∧ (((rtS 4 true none).modRt 1 fun x => { x with firsts := [] }).firstOf 1 9) = none)
    ∧ (let s := rtS 5 true (some rtRes)
       (s.rt 1).task = some (9, 0, 0, 5, 0) ∧ (0 : Nat) ≠ 1 ∧ (s.rt 1).started = true
        ∧ (s.firstOf 0 9).any (fun l => l.ended == some rtRes) = true
        ∧ ((rtS 5 true none).firstOf 0 9).all (fun l => l.ended != some rtRes) = true) := by
  decide +kernel

/-- R145, R146: the two reads of one time give one signature, a result that differs is a mismatch. -/
theorem test_rt_compare :
    after (.rtTaskEnd 1 rtSteps) (rtS 5 true (some rtRes)) (fun t => !t.fb SYS_SAFESTAT.RT_MISMATCH 0
      && (t.firstOf 0 9).isNone && NMap.get (t.rt 1).reg 0 6 == 77) = true
    ∧ after (.rtTaskEnd 1 (.readPerf 7 :: rtSteps)) (rtS 5 true (some rtRes)) (fun t => t.fb SYS_SAFESTAT.RT_MISMATCH 0
      && (t.flask 0).extraBars == [.rt 1, .rt 0]) = true := by decide +kernel

/-- The manager lock is set, and the time is past every test-bar period. -/
def locked : State := atNs (up.setF SYS_LOCK.MGR 0 1) (2 ^ 62)

/-- The test bar of array 0 stands in a phase. -/
def inBar (s : State) (spare : Bool) (ph : BarPhase := .over) : State :=
  (s.setF ARR_STATUS.STATE 0 4).modArr 0 fun x => { x with testBar := some 5, barSpare := spare, barPhase := ph }

/-- Array 0 stands at the END of the identity run of its test bar. -/
def barEnd : State :=
  ((inBar (pour [endW]) false .run).modArr 0 fun x =>
    { x with job := some { job := barJob 0, tile := 0, desc := [], role := .testBar false, startNs := 0, flask := 0, inst := 0 } })

/-- Those of TestBarsRunAndGuardTheManagerLock for the bars. -/
theorem wit_testBars :
    (locked.units.tbStopped = false ∧ locked.fb SYS_LOCK.MGR 0 = true ∧ locked.arrayBarDue 0 = true
      ∧ locked.atTile 0 = true ∧ locked.barMay 0 = true)
    ∧ ((locked.setF ARR_STATUS.STATE 0 1).arrayBarDue 0 = true ∧ (locked.setF ARR_STATUS.STATE 0 1).atTile 0 = false)
    ∧ (let s := (locked.modArr 3 fun x => { x with testBarDue := true }).modArr 2 fun x => { x with testBarDue := true }
       (s.arr 3).testBarDue = true ∧ (s.arr 2).testBarDue = true ∧ s.atTile 2 = true ∧ s.barMay 2 = true
        ∧ ∀ k < 2, ((s.arr k).testBarDue && s.atTile k && s.barMay k) = false)
    ∧ (locked.f VEC_STATUS.STATE 3 = 0 ∧ (locked.vec 3).item = none ∧ locked.f VEC_STATUS.FLASK 3 = 15
        ∧ reached locked.now ((locked.vec 3).lastBarNs + locked.tbPeriodNs) = true)
    ∧ ((locked.rt 4).flask = none ∧ (locked.rt 4).withdrawn = false ∧ (locked.rt 4).task = none
        ∧ reached locked.now ((locked.rt 4).lastBarNs + locked.tbPeriodNs) = true)
    ∧ (issued barEnd 0 0x0E 111 false endW = true ∧ (barEnd.arr 0).async = [] ∧ (barEnd.arr 0).job.any (fun r => r.bar) = true)
    ∧ (isTBUnit (.array 33) = true ∧ isTBUnit .runner = true ∧ up.fb SYS_LOCK.MGR 0 = false)
    ∧ (((inBar locked true).arr 0).testBar.isSome = true ∧ ((inBar locked true).arr 0).barSpare = true
        ∧ ((inBar locked true).arr 0).barPhase = .over ∧ ((inBar locked true).barPassed 0).1 = false
        ∧ ∀ b < 34, ((inBar locked true).arr b).testBarDue = false)
    ∧ (let s := ((inBar locked false).setF ARR_STATUS.FLASK 0 2).setF SYS_FLCTRL.TIMED 2 1
       (s.arr 0).testBar.isSome = true ∧ (s.arr 0).barSpare = false ∧ (s.arr 0).testBarDue = false
        ∧ s.timed (s.f ARR_STATUS.FLASK 0) = true ∧ s.f ARR_STATUS.FLASK 0 < 8 ∧ (s.barPassed 0).1 = false)
    ∧ (up.arr 0).testBar = none ∧ (up.setF RUN_STAT.STATE 0 6).f RUN_STAT.STATE 0 = 6 := by decide +kernel

/-- R150, R148, R152: a due bar starts on an idle array; the run in identity is followed by the one in transform; a spare
whose bar fails is retired. -/
theorem test_testBar :
    after (.testBarDue (.array 0)) locked (fun t => t.f ARR_STATUS.STATE 0 == 4 && (t.arr 0).testBar == some (2 ^ 62)) = true
    ∧ after (.endProg 0 0 false) barEnd (fun t => (t.arr 0).barRuns == [some ([], 0)]
      && ((t.arr 0).job.any fun r => r.role == .testBar true)) = true
    ∧ after (.testBarDone (.array 0) false) (inBar locked true) (fun t => t.f ARR_STATUS.STATE 0 == 6
      && t.fb SYS_SAFESTAT.TB_FAIL 0 && t.f ARR_RCSTAT.TB_FAIL 0 == 1) = true := by decide +kernel

/-- The test-bar image is being verified. -/
def verifying : State := { up with units.tbVerifying := true }

/-- Those of the manager lock. -/
theorem wit_managerLock :
    taken up .sysLock 0 .manager (withBit 0 62) = true ∧ up.fb SYS_LOCK.MGR 0 = false
    ∧ verifying.units.tbVerifying = true ∧ verifying.spareClash = false ∧ up.units.tbVerifying = false
    ∧ locked.fb SYS_LOCK.MGR 0 = true := by decide +kernel

/-- R349: the lock waits for the image, and an image that does not verify is flagged. -/
theorem test_managerLock :
    after (.mgrLockSet .manager (BitVec.ofNat 64 (2 ^ 62))) up (fun s => !s.fb SYS_LOCK.MGR 0
      && after (.tbImageVerified true) s (fun t => t.fb SYS_LOCK.MGR 0 && t.mem.spareArea)) = true
    ∧ after (.tbImageVerified false) verifying (fun t => !t.fb SYS_LOCK.MGR 0 && t.fb SYS_REGERR.REFUSED 0) = true
    ∧ after (.tbImageRecheck false) (inBar locked true) (fun t => t.units.tbStopped && (t.arr 0).barPhase == .over) = true := by
  decide +kernel

/-! ## The field record -/

/-- The cupola runs, and 600 s have passed since the last checkpoint; the billet holds a slot or not. -/
def recS (billet : Bool) : State :=
  let s := up.modFw 1 fun x => { x with running := true }
  let s := if billet then { s.setF SYS_BILLET.STATE 0 2 with sys.power.billetPwrEn := true } else s
  { s with sys.record.poh := 600 }

/-- Readings at the edges of bins. -/
def temps : List Int := [-21, -20, -11, -10, 90, 99, 100, 119, 120] ++ List.replicate 23 0

/-- Those of TheFieldRecordCountsAndIsStored. -/
theorem wit_record :
    (recS true).cupolaUp = true ∧ (recS true).billetLive = true ∧ (recS false).billetLive = false
    ∧ temps.length = 32 ∧ temps[8]? = some 120 ∧ (∀ d ∈ temps, d ≤ 120)
    ∧ (recS true).sys.store.lastPoh + 600 ≤ (recS true).sys.record.poh ∧ up.cupolaUp = false := by decide +kernel

/-- R156: 93.4 °C of chapter 17's example falls in bin 12, which covers 90 to 100; the hottest of the readings is in bin 15. -/
theorem test_record :
    tempBin 93 = 12 ∧ tempBin 100 = 13 ∧ tempBin (-20) = 1 ∧ tempBin (-21) = 0 ∧ tempBin 119 = 14
    ∧ after (.sensorSample temps [(2, 90)]) (recS true) (fun t => t.sys.record.poh == 601
      && t.sys.record.droop == [(16 * 2 + 7, 1)] && NMap.get t.sys.record.hot 0 15 == 1
      && NMap.get t.sys.record.temp 0 (16 * 4 + 12) == 1) = true
    ∧ after .checkpoint (recS true) (fun t => t.sys.record.seq == 1 && t.sys.record.bytes == 65536 && t.sys.store.slot0.isSome)
      = true
    ∧ after (.counterFold 0) ((recS true).setF ARR_RCSTAT.TB_FAIL 18 2) (fun t => NMap.get t.sys.record.arrays 0 (8 * 18 + 2) == 2)
      = true := by decide +kernel

/-! ## Flasks -/

/-- Flask 2 shakes out with array 5, engine 1 and core 3; it is created (STATE 2h) or destroyed (4h). -/
def shakes (st : Nat) (fw : Bool) : State :=
  let s := (((recS false).setF SYS_FLCTRL.STATE 2 st).setF ARR_STATUS.FLASK 5 2).setF VEC_STATUS.FLASK 1 2
  (((s.modRt 3 fun x => { x with flask := some 2 }).modArr 5 fun x => { x with mould := [(0, 1)] }).modFlask 2 fun x =>
    { x with fwClear := fw }).setF SYS_FLRES.ARRAYS 2 32

/-- Those of FlasksAreBuiltClearedAndDestroyed. -/
theorem wit_flasks :
    (taken up .sysFlres 2 .manager (32 * 2 ^ 30 + 2 * 2 ^ 14 + 8 * 2 ^ 6) = true ∧ up.f SYS_FLCTRL.STATE 2 ≤ 1)
    ∧ (let s := shakes 3 false
       s.permits .sysFlres 2 .manager true 0 = true ∧ s.lockedBy .sysFlres 2 = none ∧ 2 ≤ s.f SYS_FLCTRL.STATE 2
        ∧ s.merged .sysFlres 2 .whole 0 ≠ s.r .sysFlres 2 ∧ s.sys.power.mode = .on ∧ s.sys.power.lost = [])
    ∧ (let s := ((up.setF SYS_FLCTRL.STATE 2 1).setR .sysFlres 2
          (32 * 2 ^ 30 + 2 * 2 ^ 14 + 8 * 2 ^ 6)).setF ATT_FSLICE.CTX_COUNT 2 1
       taken s .sysFlctrl 2 .manager (withBit 0 59) = true ∧ s.namedArrays 2 = [5] ∧ s.namedVecs 2 = [1]
        ∧ s.namedRts 2 = [3] ∧ taken s .sysFlctrl 2 .manager (withBit 0 58) = true ∧ s.f SYS_FLCTRL.STATE 2 = 1)
    ∧ (taken (shakes 3 false) .sysFlctrl 2 .manager (withBit 0 58) = true ∧ (shakes 3 false).f SYS_FLCTRL.STATE 2 ≠ 1)
    ∧ (∀ st ∈ [2, 4],
       let s := shakes st false
       s.shaking 2 = true ∧ (s.flask 2).fwClear = false ∧ s.unitHeld 2 (.vec 2) = false ∧ s.unitHeld 2 (.array 5) = true
        ∧ s.heldArrays 2 = [5] ∧ s.engines 2 = [1])
    ∧ (let s := shakes 2 true
       s.shaking 2 = true ∧ (s.flask 2).fwClear = true ∧ s.cupolaUp = true ∧ s.f ARR_STATUS.FLASK 5 = 2) := by
  decide +kernel

/-- R161, R219, R220: CREATE numbers the units and shakes out; a destroyed flask returns them; a unit that cannot be cleared is
withdrawn. -/
theorem test_flasks :
    after (.flaskCreate .manager 2 (BitVec.ofNat 64 (2 ^ 59))) (((up.setF SYS_FLCTRL.STATE 2 1).setR .sysFlres 2
      (0x30 * 2 ^ 30)).setF ATT_FSLICE.CTX_COUNT 2 1) (fun t => t.f SYS_FLCTRL.STATE 2 == 2
        && t.f ARR_STATUS.LOGICAL 4 == 0 && t.f ARR_STATUS.LOGICAL 5 == 1 && t.f ARR_STATUS.FLASK 5 == 2) = true
    ∧ after (.shakeoutDone 2 []) (shakes 4 false) (fun t => t.f SYS_FLCTRL.STATE 2 == 0 && t.f ARR_STATUS.FLASK 5 == 15
      && (t.arr 5).mould.isEmpty) = true
    ∧ after (.firmwareClearDone 2 [.array 5]) (shakes 2 true) (fun t => t.f ARR_STATUS.STATE 5 == 5
      && t.f SYS_FLCTRL.STATE 2 == 1) = true := by decide +kernel

/-! ## The pour table -/

/-- Entry words: START, LEN, flask, unit type, unit, KIND; instance, queue, job, tile. -/
def ent0 (start len f ty u kind : Nat) : Nat :=
  start * 2 ^ 44 + len * 2 ^ 28 + f * 2 ^ 25 + ty * 2 ^ 22 + u * 2 ^ 16 + kind * 2 ^ 12 + 2 ^ 11
def ent1 (inst q job tile : Nat) : Nat := inst * 2 ^ 56 + q * 2 ^ 50 + job * 2 ^ 40 + tile * 2 ^ 24

/-- The pour table runs bank 0 with frames of 50 ms, with the given entries (index, words 0 and 1). -/
def table (es : List (Nat × Nat × Nat)) (now : Nat) : State :=
  (((atNs up now).setF POUR_CTRL.EN 0 1).setF POUR_CTRL.FRAME_US 0 50000).each es fun s e =>
    (s.setR .pourEnt0 e.1 e.2.1).setR .pourEnt1 e.1 e.2.2

/-- Those of BanksAreValidatedAndExchangedAtABoundary: a swap, a bank that passes and one whose frame is too short, a boundary
with and without a ready bank, and a spare image that is copied or not. -/
theorem wit_banks :
    taken up .pourCtrl 0 .manager (withBit (50000 * 2 ^ 40 + 2 ^ 60) 63) = true
    ∧ (let s := (up.setF POUR_CTRL.SWAP 0 1).setF POUR_CTRL.SHADOW_FRAME_US 0 1000
       s.fb POUR_CTRL.SWAP 0 = true ∧ s.units.pour.validated = false ∧ s.bankError = none
        ∧ (s.setF POUR_CTRL.SHADOW_FRAME_US 0 999).bankError = some 0x1FFF)
    ∧ (let s := table [] 50000000
       s.atBoundary = true ∧ s.fb POUR_CTRL.EN 0 = true ∧ (table [] 49999999).atBoundary = false
        ∧ ({ s with units.pour.validated := true } : State).atBoundary = true ∧ s.units.pour.validated = false
        ∧ (s.setF POUR_CTRL.EN 0 0).atBoundary = true)
    ∧ up.mem.moves = []
    ∧ (let v : Move := { id := 0, kind := .spareImage 4, part := 0, inst := 0, toMem := false, va := 0, maddr := 0, len := 1 }
       ∃ m ∈ ({ up with mem.moves := [v] } : State).mem.moves, m.kind = .spareImage 4) := by
  refine ⟨by decide +kernel, by decide +kernel, by decide +kernel, rfl, _, List.mem_singleton.2 rfl, rfl⟩

/-- R164, R165: FRAME advances at 50,000 µs and the banks exchange only when the shadow bank was ready. -/
theorem test_boundary :
    after .frameBoundary (table [] 50000000) (fun t => t.f POUR_STAT.FRAME 0 == 1 && t.f POUR_CTRL.ACTIVE_BANK 0 == 0) = true
    ∧ after .frameBoundary (let s := table [] 50000000; { s with units.pour.validated := true }) (fun t =>
      t.f POUR_CTRL.ACTIVE_BANK 0 == 1 && !t.units.pour.validated) = true
    ∧ after .swapValidated ((up.setF POUR_CTRL.SWAP 0 1).setF POUR_CTRL.SHADOW_FRAME_US 0 999) (fun t => t.fb POUR_CTRL.SWAP_REFUSED 0
      && t.f POUR_CTRL.BAD_ENTRY 0 == 0x1FFF) = true := by decide +kernel

/-- Array 2 and 7 have logical numbers 2 and 7 in flask 0. -/
def twoArrays (s : State) : State :=
  (((s.setF ARR_STATUS.FLASK 2 0).setF ARR_STATUS.LOGICAL 2 2).setF ARR_STATUS.FLASK 7 0).setF ARR_STATUS.LOGICAL 7 7

/-- The pair of chapter 08's example in the table: entry 10 runs the primary on array 2 from 20,000 for 8 µs, entry 11 the recast
on array 7 from 20,001; job 1 is bound to frame 0. -/
def pairTable (now : Nat) : State :=
  twoArrays (holds (table [(10, ent0 20000 8 0 0 2 0, ent1 0 0 0 0), (11, ent0 20001 8 0 0 7 1, ent1 0 0 0 0)] now)
    { job1 [w0 1 0 0] with phase := .running, tiles := [[2 * 2 ^ 40 + 7 * 2 ^ 32]], bound := some (0, 0) })

/-- The entry of a table that is next due, with its words. -/
def due (i start : Nat) (w0 w1 : Nat) : Due := { idx := i, ent := ⟨w0, w1⟩, frame := 0, startNs := 1000 * start }

/-- A table of one entry. -/
def one (i w0 w1 now : Nat) : State := table [(i, w0, w1)] now

/-- Those of EntriesStartWhenDueAndAreCounted, at START, one ns before it and 2 µs after it, and at an entry's end. -/
theorem wit_entries :
    (let w := ent0 20000 8 0 0 2 2
     let s := one 10 w 0 20000000
     let d := due 10 20000 w 0
     s.nextDue 10 = some d ∧ s.fb POUR_CTRL.EN 0 = true ∧ reached s.now (s.dueNs d) = true
      ∧ reached (one 10 w 0 19999999).now (s.dueNs d) = false
      ∧ s.nextDue 11 = none ∧ reached s.now (s.monitorNs d + 2001) = false ∧ d.ent.flask = 0 ∧ (s.flask 0).isolating = false
      ∧ ((s.modFlask 0 fun x => { x with isolating := true }).flask 0).isolating = true
      ∧ reached 20002000 ((one 10 w 0 20002000).monitorNs d + 2000) = true ∧ s.units.pour.lateSeen = [])
    ∧ ((⟨ent0 0 500 0 3 0 6, 0⟩ : Ent).kind = 6 ∧ (⟨ent0 0 500 0 0 0 3, 0⟩ : Ent).kind = 3
        ∧ (⟨ent0 0 500 0 0 0 3, 0⟩ : Ent).len = 500)
    ∧ (let w := ent0 0 8 0 0 2 0
       (due 1 0 w 0).ent.kind ≤ 1 ∧ (one 1 w 0 0).entryTile (due 1 0 w 0) = none ∧ (one 1 w 0 0).nextDue 1 = some (due 1 0 w 0))
    ∧ (∀ k ∈ [4, 5],
       let w := ent0 0 8 0 2 0 k
       let v := 2 ^ 47 + 9 * 2 ^ 28 + 0xFFF * 2 ^ 16
       let l : List FirstRun := [{ task := 9, logTime := 0 }]
       let s := ((one 1 w v 0).modRt 3 fun x => { x with flask := some 0 }).modRt 4 fun x =>
        { x with flask := some 0, logical := 1, firsts := l }
       let e := (due 1 0 w v).ent
       s.nextDue 1 = some (due 1 0 w v) ∧ e.kind = k ∧ s.unitOf e.flask 2 e.unit = some 3 ∧ e.log = 0xFFF
        ∧ s.unitOf e.flask 2 e.partner = some 4 ∧ (s.firstOf 4 e.task).isSome = true
        ∧ (s.modRt 4 fun x => { x with firsts := [] }).firstOf 4 e.task = none)
    ∧ (let r : Running := { entry := 10, ent := ⟨ent0 20000 8 0 0 2 2, 0⟩, frame := 0, dueNs := 20000000, empty := true }
       let s := (one 10 (ent0 20000 8 0 0 2 2) 0 20008000).modPour fun p => { p with running := [r] }
       s.units.pour.running = [r] ∧ r.dueNs + 1000 * r.ent.len - 1000 * r.absorbed = s.now
        ∧ reached (atNs s 20007999).now (r.dueNs + 1000 * r.ent.len - 1000 * r.absorbed) = false) := by
  decide +kernel

/-- Those of the two entries of a pair: the first one, and the second one once the first has started. -/
theorem wit_pairEntry :
    (let s := pairTable 20000000
     let d := due 10 20000 (ent0 20000 8 0 0 2 0) (ent1 0 0 0 0)
     s.nextDue 10 = some d ∧ d.ent.kind = 0 ∧ s.unitOf 0 0 2 = some 2
      ∧ ((s.entryTile d).map fun p => (p.1.id, p.2)) = some (1, [2 * 2 ^ 40 + 7 * 2 ^ 32])
      ∧ s.pairOf false 2 = none ∧ (s.partnerEntry d [2 * 2 ^ 40 + 7 * 2 ^ 32]).map Ent.unit = some 7 ∧ s.unitOf 0 0 7 = some 7
      ∧ s.units.pour.started = [] ∧ s.unitIdle false 2 = true
      ∧ ((s.startJob 1).job 1).any (fun y => decide (y.phase = .running) && y.doneParts.isEmpty && !y.stop) = true)
    ∧ after (.pourEntryStart 10) (pairTable 20000000) (fun t =>
        let s := atNs t 20001000
        let d := due 11 20001 (ent0 20001 8 0 0 7 1) (ent1 0 0 0 0)
        s.nextDue 11 == some d && s.unitOf 0 0 7 == some 7 && (s.entryTile d).any (fun p => p.1.id == 1) && s.unitIdle false 7
          && (s.pairOf false 7).any fun q => q.job == 1 && q.tile == 0 && q.rc == 7 && q.priEnd.isNone && q.rcEnd.isNone
              && q.overran == 0) = true := by decide +kernel

/-- R170, R135: the pair forms with the release point 20,009.2 µs; an entry without a job is empty; lag is absorbed. -/
theorem test_entryStart :
    after (.pourEntryStart 10) (pairTable 20000000) (fun t => ((t.pairOf false 2).any fun p => p.releaseNs == 20009200
      && p.pri == 2 && p.rc == 7) && after (.pourEntryStart 11) (atNs t 20001000) (fun u =>
        (u.pairOf false 7).any fun p => p.releaseNs == 20009200 && p.laterStart == 20001000)) = true
    ∧ after (.pourEntryStart 1) (table [(1, ent0 0 8 0 0 2 0, 0)] 0) (fun t => t.f POUR_STAT.EMPTY 0 == 1) = true
    ∧ after (.pourEntryStart 1) ((table [(1, ent0 0 500 0 0 0 3, 0)] 10000).setF POUR_FLAG.LAG 0 10) (fun t =>
      t.f POUR_FLAG.LAG 0 == 0) = true
    ∧ after (.pourLate 10) (table [(10, ent0 20000 8 0 0 2 2, 0)] 20002000) (fun t => t.f POUR_STAT.LATE 0 == 1
      && t.fb SYS_SAFESTAT.POUR_LATE 0) = true := by decide +kernel

/-! ## Gates -/

/-- Gate 3 holds 1,024 guaranteed and 2,048 ceiling bytes, with a guarantee of 320 and a ceiling of 1,000 bytes per µs; requests
may wait at it. -/
def gated (waits : List Nat := []) : State :=
  let s := (((up.setF GATE_CFG.GUAR 3 320).setF GATE_CFG.CEIL 3 1000).setF GATE_CFG.DEPTH 3 64).setGate 3 (1024, 2048, 0, false)
  { s.loadGate 3 with mem.gateQ := if waits.isEmpty then [] else [(3, waits)] }

/-- Those of GatesChargeRequestsAndReportMisses, at and beside each limit. -/
theorem wit_gates :
    (gated.gateF GATE_CFG.CEIL 3 ≠ 0xFFFFF ∧ (gated.gate 3).2.1 < cdiv 2049 64 * 64 ∧ cdiv 2048 64 * 64 ≤ (gated.gate 3).2.1
      ∧ gated.gateWait 3 = [])
    ∧ ((gated [3072]).gateWait 3 = [3072] ∧ min (2048 + 1000) 4096 < 3072 ∧ (gated [3008]).gateWait 3 = [3008]
        ∧ 3008 ≤ min (2048 + 1000) 4096 ∧ ∀ x ∈ [GATE_CFG.CEIL, GATE_CFG.GUAR], x.reg = .gateCfg)
    ∧ (up.gateF GATE_CFG.CEIL 4 = 0xFFFFF)
    ∧ (let s := (up.setF GATE_RT.CAP 3 500).loadRt 3
       up.rtF GATE_RT.CAP 3 = 0 ∧ NMap.get s.units.rtUsed 0 3 < s.rtF GATE_RT.CAP 3
        ∧ s.rtF GATE_RT.CAP 3 ≤ NMap.get ({ s with units.rtUsed := [(3, 500)] } : State).units.rtUsed 0 3)
    ∧ (let s := (up.setF GATE_RT.BOUND_NS 3 2000).loadRt 3
       2000 ≤ s.rtF GATE_RT.BOUND_NS 3 ∧ s.rtF GATE_RT.BOUND_NS 3 < 2001)
    ∧ (({ gated with mem.winCfg := [(3, putBits 0 GATE_STAT.WIN_US.hi GATE_STAT.WIN_US.lo 1000)] } : State).windowShort 3 = true
        ∧ up.windowShort 3 = false) := by decide +kernel

/-- R184: a refill adds GUAR and CEIL up to the depth of 64 × 64 and lets a request go; a request of 100 bytes costs 128, and
one above the ceiling waits. -/
theorem test_gates :
    after .gateRefill gated (fun t => t.gate 3 == (1344, 3048, 0, false)) = true
    ∧ after .gateRefill (gated [2560]) (fun t => t.gate 3 == (1344, 488, 0, false) && t.gateWait 3 == []) = true
    ∧ after (.gateRequest 3 100) gated (fun t => t.gate 3 == (896, 1920, 128, false)) = true
    ∧ after (.gateRequest 3 1100) gated (fun t => t.gate 3 == (1024, 896, 0, false)) = true
    ∧ after (.gateRequest 3 2049) gated (fun t => t.gate 3 == gated.gate 3 && t.gateWait 3 == [2112]) = true := by decide +kernel

/-- The worked example of R343: GATE_RT of port 3 is written with MISSED 0, MISS 1b and CAPPED 1b while MISSED is 5 and both flags
are set; a request that then passes BOUND_NS leaves MISSED 1, MISS 1b, CAPPED 0b. -/
theorem test_gateRt_example :
    (let s := ((up.setF GATE_RT.MISSED 3 5).setF GATE_RT.MISS 3 1).setF GATE_RT.CAPPED 3 1
       let v := putBits (putBits (putBits 0 GATE_RT.BOUND_NS.hi GATE_RT.BOUND_NS.lo 0x7D0) GATE_RT.MISS.hi GATE_RT.MISS.lo 1)
        GATE_RT.CAPPED.hi GATE_RT.CAPPED.lo 1
       after (.rtBoundExceeded 3 0x7D1) ((s.setR .gateRt 3 (s.newValue .gateRt 3 .whole v)).loadRt 3) (fun t =>
        t.f GATE_RT.BOUND_NS 3 == 0x7D0 && t.f GATE_RT.MISSED 3 == 1 && t.fb GATE_RT.MISS 3 && !t.fb GATE_RT.CAPPED 3))
      = true := by decide +kernel

/-! ## Memory -/

/-- Line 2 of DRAM holds bytes 0 to 127; core 1 owns it modified or not. -/
def ram (owned : Bool) : State :=
  let s := poke up 256 ((List.range 128).map (BitVec.ofNat 8))
  if owned then { s with mem.holders := [{ who := .l2 1, line := 2, st := .m }] } else s

/-- `atHome` and `lineReady` for a state without snoops and waiting requests, as a test. -/
def home (s : State) (m : Master) (pa : Nat) : Bool :=
  decide (s.place pa = .dram (pa - dramBase)) && !s.clockLost .fclk && !(masterDomain m).any s.clockLost
    && !s.carved (pa - dramBase) && s.mem.snoops.isEmpty && s.mem.homeQ.isEmpty && !s.clockLost .mclk
    && !s.mem.poison.contains ((pa - dramBase) / 128) && s.mem.flips.isEmpty && s.mem.chkFlips.isEmpty
    && s.tagGood ((pa - dramBase) / 128) (s.lineBytes ((pa - dramBase) / 128))

theorem home_ready {s : State} {m : Master} {pa : Nat} (h : home s m pa = true) :
    s.atHome m pa ∧ s.lineReady ((pa - dramBase) / 128) := by
  simp only [home, Bool.and_eq_true, decide_eq_true_eq, Bool.not_eq_true', List.isEmpty_iff, List.contains_eq_mem,
    decide_eq_false_iff_not] at h
  obtain ⟨⟨⟨⟨⟨⟨⟨⟨⟨⟨h1, h2⟩, h3⟩, h4⟩, h5⟩, h6⟩, h7⟩, h8⟩, h9⟩, h10⟩, h11⟩ := h
  exact ⟨⟨h1, h2, h3, h4, by simp [h5], by simp [h6]⟩, .inr ⟨h7, h8, by simp [h9], by simp [h10], h11⟩⟩

/-- A snoop of line 2 asks core 1 for a reader; a tracker of the line's channel is held. -/
def snoop2 : Snoop := { target := .l2 1, line := 2, req := { m := .manager, addr := dramBase + 260, bytes := 4 } }

/-- That snoop is under way. -/
def snooped : State := { (ram true).setF MEM_CWAYS.WAYS 8 0xFF with mem.snoops := [snoop2] }

/-- Those of MasterAccessesReadAndWriteMemory. -/
theorem wit_memory :
    ((ram false).sys.power.mode = .on ∧ ((ram false).reach .manager (dramBase + 300) false).1 = .phys (dramBase + 300)
      ∧ home (ram false) .manager (dramBase + 300) = true ∧ (ram false).snoopTarget .manager 2 = none
      ∧ (ram false).storesHeld .manager = none ∧ masterVec .manager = none)
    ∧ ((ram true).snoopTarget .manager 2 = some (.l2 1) ∧ home (ram true) .manager (dramBase + 300) = true
        ∧ (ram true).trackerFree ((ram true).chanFor 256) = true
        ∧ (({ ram true with mem.snoops := List.replicate 1536 snoop2 } : State).setF MEM_CTRL.BORROW_MAX 0 0).trackerFree
            (chanOf 256) = false)
    ∧ (snooped.mem.snoops.any (fun q => q.line == (dramBase + 300 - dramBase) / 128) = true
        ∧ snooped.place (dramBase + 300) = .dram 300 ∧ snooped.clockLost .fclk = false ∧ snooped.carved 300 = false)
    ∧ up.place 0x7000_0000 = .hole
    ∧ ((dramBase + 256) % 128 = 0 ∧ (dramBase + 256 + 120) % 128 + 8 ≤ 128)
    ∧ (({ ram false with mem.poison := [2] } : State).mem.poison.contains 2 = true ∧ (ram false).cached 2 = false)
    ∧ (taken up .memCtrl 0 .manager (withBit 0 56) = true)
    ∧ (up.setF MEM_CTRL.INIT 0 1).fb MEM_CTRL.INIT 0 = true ∧ up.fb MEM_CTRL.INIT 0 = false := by decide +kernel

/-- R190, R192: a read stops at the end of its line; a partial write of a poisoned line is answered with poison. -/
theorem test_memory :
    after (.memoryRead .manager (dramBase + 380) 8 {}) (ram false) (fun t => t.outbox == [.memData .manager [124, 125, 126, 127]])
      = true
    ∧ after (.partialWrite .manager (dramBase + 258) [9, 8] {}) (ram false) (fun t => t.bytes (dramBase + 257) 4 == [1, 9, 8, 4])
      = true
    ∧ after (.partialWrite .manager (dramBase + 258) [9, 8] {}) { ram false with mem.poison := [2] } (fun t =>
      t.outbox.contains (.poisoned .manager) && t.bytes (dramBase + 257) 2 == [1, 2]) = true
    ∧ after (.memoryRead .manager (dramBase + 256) 128 {}) (ram true) (fun t => t.mem.snoops.length == 1 && t.outbox.isEmpty)
      = true := by decide +kernel

/-- Those of ScrubsAndWriteBacksKeepMemoryCoherent: a burst of line 0 that fails with one bit turned over, and the next one;
a line with a mirror copy; an owner that writes back, with and without room; a snoop that the owner answers. -/
theorem wit_coherence :
    (up.fb MEM_CTRL.READY 0 = true ∧ up.clockLost .mclk = false ∧ up.mem.retCh = none ∧ 0 ∈ up.blockLines (blockOf 0)
      ∧ up.mem.poison = [] ∧ up.mem.flips = [] ∧ up.mem.chkFlips = [] ∧ up.burstFails { line := 0, sub := 0, mask := 1 } = true
      ∧ up.burstFails { line := 0, sub := 1, mask := 1 } = true ∧ up.copyLine? 0 = none)
    ∧ (let s := ((up.setF MEM_RGN1.EN 0 1).setF MEM_RGN1.MIRROR 0 1).setF MEM_RGN1.LIMIT 0 (2 ^ 12)
       (s.copyLine? 0).any (fun c => blockOf c != blockOf 0) = true)
    ∧ (cacherOk (.l2 1) = true ∧ 128 * 2 < (ram true).usable ∧ (ram true).mem.wbs.length < wbSize (.l2 1))
    ∧ ((∃ q ∈ snooped.mem.snoops, q.target = .l2 1 ∧ q.line = 2) ∧ (ram true).mem.snoops = []
        ∧ (∃ h ∈ (ram true).mem.holders, h.line = 2 ∧ h.who = .l2 1) ∧ (ram false).mem.holders = [])
    ∧ wbSize (.l2 1) ≤ (({ up with mem.wbs := List.replicate 16 { who := .l2 1, line := 2, data := none } } : State).mem.wbs.filter
        fun e => e.who == .l2 1).length
    ∧ ((snooped.mem.snoops.filter fun q => q.target == .l2 1 && q.line == 2).length = 1 ∧ snooped.mem.homeQ = []
        ∧ (snooped.cached 2 = true ∨ snooped.f MEM_CWAYS.WAYS (snooped.cacherPart (.l2 1)) ≠ 0)
        ∧ snooped.mem.wbs = [])
    ∧ 128 * 2 + dramBase ≤ dramBase + 260 ∧ dramBase + 260 + 4 ≤ 128 * 2 + dramBase + 128 := by
  refine ⟨by decide +kernel, by decide +kernel, by decide +kernel, ⟨⟨_, List.mem_singleton.2 rfl, rfl, rfl⟩, rfl,
    ⟨_, List.mem_singleton.2 rfl, rfl, rfl⟩, rfl⟩, by decide +kernel, by decide +kernel, by decide +kernel, by decide +kernel⟩

/-- R202, R203: the owner's line serves the reader and stands in memory; a write-back of the owner is accepted. -/
theorem test_coherence :
    after (.snoopResponse (.l2 1) 2 (some (List.replicate 128 7)) false) snooped (fun t =>
      t.outbox == [.memData .manager [7, 7, 7, 7]] && t.bytes (dramBase + 256) 1 == [7] && t.mem.snoops.isEmpty) = true
    ∧ after (.writeBack (.l2 1) 2 (some (List.replicate 128 6))) (ram true) (fun t => t.bytes (dramBase + 383) 1 == [6]
      && t.mem.holders.isEmpty && t.mem.wbs.map (fun e => (e.stale, e.acked)) == [(false, true)]) = true
 := by decide +kernel

/-- R190 to R192: two failing bursts of one line cannot be corrected, one can. -/
theorem test_ecc :
    (let s : State := { up with mem.flips := [{ line := 0, sub := 1, mask := 1 }, { line := 0, sub := 2, mask := 1 }] }
     (s.eccRead 0).1 = none ∧ (s.eccRead 0).2.fb SYS_SAFESTAT.MEM_UE 0 = true)
    ∧ (let s : State := { up with mem.flips := [{ line := 0, sub := 1, mask := 1 }] }
       (s.eccRead 0).1 = some (s.lineBytes 0) ∧ (s.eccRead 0).2.mem.flips = []) := by decide +kernel

/-- The spare area exists. -/
def spareUp : State := { up with mem.spareArea := true }

/-- Those of WaysRegionsAndChannelsAreConfigured. -/
theorem wit_ways :
    taken up .memCways 8 .manager (0x00FF * 2 ^ 48) = true ∧ taken ((up.setF MEM_CWAYS.WAYS 8 0x00FF).setF SYS_FLCTRL.STATE 0 1) .memCways 0 .manager (0xFF00 * 2 ^ 48) = true
    ∧ taken up .memRgn1 5 .manager (withBit (3 * 2 ^ 21) 20) = true
    ∧ (let s := up.setF MEM_RGN1.EN 5 1
       s.permits .memRgn1 5 .manager true 0 = true ∧ s.lockedBy .memRgn1 5 = none
        ∧ s.clearsEn .memRgn1 5 (s.newValue .memRgn1 5 .whole (withoutBit 0 20)) = some MEM_RGN1.EN
        ∧ s.clearBad .memRgn1 5 = false)
    ∧ taken spareUp .memCtrl 0 .manager (withBit 0 51) = true ∧ (∀ n < 32, up.fb MEM_RGN1.EN n = false)
    ∧ (up.setF MEM_RGN1.EN 31 1).fb MEM_RGN1.EN 31 = true ∧ (up.setF MEM_CTRL.RETIRE 0 1).fb MEM_CTRL.RETIRE 0 = true
    ∧ (up.setF MEM_CTRL.RETIRE 0 1).retiring = false
    ∧ up.fb MEM_CTRL.RETIRE 0 = false := by decide +kernel

/-- R205: a channel retires at once while no region is enabled, and otherwise at RETIRE_DONE once its granules are copied. -/
theorem test_retire :
    after (.retire .manager (BitVec.ofNat 64 (2 ^ 51 + 5 * 2 ^ 52))) spareUp (fun t => t.fb MEM_CTRL.RETIRED 0
      && t.f MEM_CTRL.RETIRE_CH 0 == 5) = true
    ∧ after (.retire .manager (BitVec.ofNat 64 (2 ^ 51 + 5 * 2 ^ 52))) (spareUp.setF MEM_RGN1.EN 31 1) (fun s =>
      !s.fb MEM_CTRL.RETIRED 0 && s.retiring && after .retireDone s (fun t => !t.fb MEM_CTRL.RETIRED 0)
        && after .retireDone { s with mem.moves := [] } (fun t => t.fb MEM_CTRL.RETIRED 0)) = true := by decide +kernel

/-! ## Ladles and XFER -/

/-- A move of 64 bytes between array 0 and DRAM + 1000h. -/
def mv (dir : Bool) : Move where
  id := 4
  kind := .pour 0 9
  part := 0
  inst := 0
  toMem := dir
  va := dramBase + 0x1000
  maddr := 0x40
  len := 64
  ladle := true
  data := List.replicate 64 7

/-- The move, for an XFER of array 0. -/
def moving (dir : Bool) : State :=
  let s := (poke up 0x1000 (List.replicate 64 3)).modArr 0 fun x =>
    { x with async := [{ serial := 9, kind := .xfer, evt := none, toMem := dir }] }
  { s with mem.moves := [mv dir] }

/-- An XFER job of 128 bytes: copy or fill, from DRAM + 1000h to DRAM + 2000h. -/
def xfJob (op : Nat) : Job := ajob 9 [op * 2 ^ 60, dramBase + 0x1000, dramBase + 0x2000, 128 * 2 ^ 32, 0x1122334455667788]

/-- The job while it holds a ladle. -/
def xfRun (op : Nat) : Job := { xfJob op with ladles := 1 }

/-- Those of LadlesAndXferJobsMoveBytes. -/
theorem wit_ladles :
    up.mem.moves = []
    ∧ (let s := moving false
       (s.mem.moves.find? (fun x => x.id == 4)) = some (mv false) ∧ s.f ARR_STATUS.STATE 0 ≠ 3
        ∧ ((s.arr 0).async.any fun o => o.serial == 9) = true
        ∧ (instRead s.dealLadles 0 (dramBase + 0x1000) (min pieceBytes 64)).1.good = true)
    ∧ (let s := moving true
       (s.mem.moves.find? (fun x => x.id == 4)) = some (mv true)
        ∧ (instWrite s.dealLadles 0 (dramBase + 0x1000) ((mv true).data.take 64)).1 = .ok [])
    ∧ (xfOp (xfRun 1) ≠ 0 ∧ (xfRun 1).opcode = 9 ∧ cdiv (xfLen (xfRun 0)) xferPiece ≤ 1
        ∧ (holds up (xfRun 1)).dealLadles.job 1 = some (xfRun 1) ∧ (xfJob 0).ladles = 0)
    ∧ (∀ op ∈ [0, 1],
       let x := xfRun op
       let s := poke (holds up x) 0x1000 [1, 2, 3]
       s.job 1 = some x ∧ x.phase = .running ∧ 0 < x.ladles ∧ s.mem.flips = [] ∧ s.mem.chkFlips = [] ∧ s.clockLost .fclk = false ∧ xfOp x = op ∧ xfCrypt x = 0 ∧ x.stop = false ∧ x.doneParts = []
        ∧ 0 < cdiv (xfLen x) xferPiece ∧ xfDst x % 128 = 0 ∧ xfSrc x % 64 = 0 ∧ xfLen x % 128 = 0
        ∧ s.clockLost .mclk = false ∧ bits (s.r .dtuIommu 2) 3 0 = 1 ∧ xfSrc x + xfLen x ≤ xfDst x
        ∧ ∀ k < 128, s.place (xfDst x + k) = .dram (0x2000 + k) ∧ s.outOk (s.instFlask 0) (xfDst x + k) = true
            ∧ s.place (xfSrc x + k) = .dram (0x1000 + k) ∧ s.outOk (s.instFlask 0) (xfSrc x + k) = true
            ∧ (0x1000 + k) / 128 ∉ s.mem.poison ∧ s.taggedAt (0x1000 + k) = false) := by decide +kernel

/-- R207, R209: a piece arrives in the mould store; a fill and a copy end their job. -/
theorem test_ladles :
    after (.ladlePieceDone 4) (moving false) (fun t => (t.arr 0).bytes 0x40 2 == [3, 3] && t.mem.moves.isEmpty) = true
    ∧ after (.ladlePieceDone 4) (moving true) (fun t => t.bytes (dramBase + 0x103F) 2 == [7, 0]) = true
    ∧ after (.xferFill 1 0) (holds up (xfRun 1)) (fun t => t.bytes (dramBase + 0x2001) 2 == [0x77, 0x66]
      && t.bytes (dramBase + 0x2080) 1 == [0] && ((t.job 1).any fun x => x.phase == .ended && x.status == 0)) = true
    ∧ after (.xferCopy 1 0) (poke (holds up (xfRun 0)) 0x1000 [1, 2, 3]) (fun t => t.bytes (dramBase + 0x2000) 4 == [1, 2, 3, 0])
      = true := by decide +kernel

/-! ## Translation -/

/-- A cached translation. -/
def tlb1 : Tlb := { inst := 3, gscid := 1, pscid := 2, vpn := 5, gpn := 6, ppn := 7, write := true, dirty := true }

/-- The queue of the DTU holds one command, at DRAM + 1000h. -/
def cqS (w0 w1 : Nat) : State :=
  (((poke up 0x1000 (words [w0, w1])).setR .dtuIommu 9 (2 ^ 16)).setR .dtuIommu 3 ((dramBase + 0x1000) / 4096 * 1024)).setR
    .dtuIommu 4 (2 ^ 32)

/-- Those of WalksAnswerAndInvalidationsForget: an address that passes on, one that does not, a walk that is off; a
command that can be read, of each kind, a fence with data, one that is not supported, and a queue that is off. -/
theorem wit_walks :
    ((up.xlate 3 (dramBase + 0x1000) true).1 = some (dramBase + 0x1000) ∧ bits (up.r .dtuIommu 2) 3 0 = 1
      ∧ up.outOk (up.instFlask 3) (dramBase + 0x1000) = true ∧ up.outOk (up.instFlask 3) 0x7000_0000 = false)
    ∧ bits ((up.setR .dtuIommu 2 0).r .dtuIommu 2) 3 0 = 0
    ∧ (let s := cqS (2 + 2 ^ 10 + 9 * 2 ^ 32) ((dramBase + 0x40) / 4)
       s.cqRuns = true ∧ s.cqAddr = dramBase + 0x1000
        ∧ (physRead s 8 s.cqAddr 16).1 = .ok (words [2 + 2 ^ 10 + 9 * 2 ^ 32, (dramBase + 0x40) / 4])
        ∧ (physWrite (physRead s 8 s.cqAddr 16).2 8 (dramBase + 0x40) (toLE 4 9)).1 = .ok [])
    ∧ (cqLegal (1 + cqField (some 4096) 10 64 % 2 ^ 64 + cqField (some 2) 32 12 + cqField (some 1) 33 44) = true
        ∧ cqLegal (1 + 128 + cqField none 10 64 % 2 ^ 64 + cqField none 33 44) = true ∧ cqLegal (3 + cqField none 33 40) = true
        ∧ cqLegal 2 = true ∧ cqLegal 4 = false ∧ up.cqRuns = false)
    ∧ (∀ i < 256, sel none i = true → up.tdiLocked i = false) := by decide +kernel

/-- R212: an invalidation by PSCID forgets that translation alone; R214: a fault is reported with its address. -/
theorem test_walks :
    after (.iotinvalVma (some 1) (some 2) none) { cqS (1 + 2 * 2 ^ 12 + 2 ^ 32 + 2 ^ 44 + 2 ^ 33) 0 with dtu.tlb := [tlb1, { tlb1 with pscid := 3 }] } (fun t =>
      t.dtu.tlb == [{ tlb1 with pscid := 3 }]) = true
    ∧ after (.pageWalk 3 0x7000_0000 true) up (fun t => t.outbox.head? == some (.xlateFault (.inst 3))
      && (t.dtu.faults.map fun f => (f.inst, f.va, f.write)) == [(3, 0x7000_0000, true)]) = true
    ∧ after (.iofenceC (some (dramBase + 0x40)) 0x0908) (cqS (2 + 2 ^ 10 + 0x0908 * 2 ^ 32) ((dramBase + 0x40) / 4)) (fun t => t.bytes (dramBase + 0x40) 2 == [8, 9]) = true := by
  decide +kernel

/-! ## Instances -/

/-- Instance 0 in a STATE. -/
def inst (st : Nat) : State := up.setF SYS_INST.STATE 0 st

/-- Those of InstancesLiveByTheirCommands. -/
theorem wit_instances :
    taken (inst 0) .sysInst 0 .manager (withBit 0 59) = true ∧ taken (inst 1) .sysInst 0 .manager (withBit 0 58) = true
    ∧ ((inst 2).draining 0 = false ∧ (inst 2).instJobs 0 = [] ∧ (inst 2).f SYS_INST.STATE 0 = 2)
    ∧ ((holds (inst 2) (job1 [0])).draining 0 = false ∧ (holds (inst 2) (job1 [0])).instJobs 0 ≠ [])
    ∧ (((moving false).modArr 0 fun x => { x with job := some (tile0 []) }).setF SYS_INST.STATE 0 2).draining 0 = true
    ∧ taken (inst 3) .sysInst 0 .manager (withBit 0 57) = true ∧ taken (inst 3) .sysInst 0 .manager (withBit 0 56) = true
    ∧ (inst 4).f SYS_INST.STATE 0 = 4 ∧ taken (inst 3) .sysInst 0 .manager (withBit 0 55) = true
    ∧ (inst 5).f SYS_INST.STATE 0 = 5 ∧ taken ((inst 3).setF ATT_IPOOL.EN 0 1) .sysInst 0 .manager (withBit 0 54) = true := by
  decide +kernel

/-- R215, R216: QUIESCE ends a waiting job ABORTED and stops the queues; once its record is written the instance is quiesced;
a RESUME of an active instance is refused. -/
theorem test_instances :
    after (.quiesce .manager 0 (BitVec.ofNat 64 (2 ^ 58))) (holds (inst 1) (job1 [w0 1 0 0])) (fun t =>
      ((t.job 1).any fun x => x.status == 0x16) && t.f SPR_QSTAT.STATE 63 == 4 && t.f SYS_INST.STATE 0 == 2) = true
    ∧ after (.quiesceDone 0) (inst 2) (fun t => t.f SYS_INST.STATE 0 == 3 && !t.fb SYS_INST.QUIESCE 0) = true
    ∧ after (.resume .manager 0 (BitVec.ofNat 64 (2 ^ 57))) (inst 1) (fun t => t.fb SYS_REGERR.REFUSED 0) = true := by
  decide +kernel

/-! ## The Crucible -/

/-- A key of flask 0 that forbids debug. -/
def key7 : KeyPolicy where
  keyId := 7
  flask := 0
  usage := 1
  measureMask := 0
  debugOk := false
  salt := 0
  key := 0

/-- The Crucible serves requests; virtual function 5 of port 0 is bound to instance 9, whose interface is in a state; host 3 has a
session; flask 0 has a key and a consent for hour 10. -/
def trusty (tdi : Nat) : State :=
  let s := (((up.modFw 2 fun x => { x with running := true }).setF SYS_VFMAP.EN 5 1).setF SYS_VFMAP.INSTANCE 5 9).setF
    SYS_INST.TDI 9 tdi
  let s := (s.setF SYS_INST.FLASK 9 2).modFlask 0 fun x =>
    { x with consent := some { scope := 1, lastHour := 10, digest := 0 }, slots := [(4, { tenant := 3, keyId := 7 })] }
  { s with sys.trust.sessions := [(3, 1)], sys.trust.keys := [{ tenant := 3, session := 1, pol := key7, digests := [] }] }

/-- Those of TrustRequestsAreAnswered. -/
theorem wit_trust :
    ((trusty 1).crucibleUp = true ∧ (trusty 1).boundTo 0 5 = some 9 ∧ (trusty 1).f SYS_INST.TDI 9 = 1
      ∧ (∀ k < 256, k ≠ 9 → (trusty 1).f SYS_INST.STATE k = 0 ∨ (trusty 1).instFlask k ≠ (trusty 1).instFlask 9))
    ∧ ((trusty 0).boundTo 0 6 = none ∧ (trusty 0).f SYS_INST.TDI 9 ≠ 1 ∧ up.crucibleUp = false)
    ∧ ((trusty 2).f SYS_INST.TDI 9 = 2 ∧ (trusty 2).tdiLocked 9 = true ∧ (trusty 1).tdiLocked 9 = false)
    ∧ (({ up with sys.power.entry := 1 } : State).sys.power.entry = 1 ∧ ({ up with sys.power.entry := 0 } : State).sys.power.entry ≠ 1)
    ∧ ((trusty 1).session 3 = some 1 ∧ (trusty 1).session 4 = none ∧ (trusty 1).sys.trust.keys.length < 1024
        ∧ (trusty 1).heldKey 3 8 = none ∧ ((trusty 1).heldKey 3 7).isSome = true
      ∧ (trusty 1).consentKey 3 7 = true ∧ (trusty 1).consentKey 4 7 = false ∧ (trusty 1).session (portTenant 0) = none)
    ∧ (let s := { trusty 1 with sys.trust.sessions := [(portTenant 0, 2)] }
       (s.session (portTenant 0)).isSome = true ∧ s.crucibleUp = true)
    ∧ (1 % 4 ≠ 0 ∧ ((trusty 1).flask 0).consent = some { scope := 1, lastHour := 10, digest := 0 })
    ∧ (({ trusty 1 with sys.record.poh := 39600 } : State).sys.record.poh / 3600 = 11)
    ∧ (({ trusty 1 with sys.record.poh := 39599 } : State).sys.record.poh / 3600 ≤ 10) := by decide +kernel

/-- R227, R235, R232, R236: a locked interface starts; a consent ends after its hour; a revoked key leaves its slot; a key that
forbids debug leaves at a consent. -/
theorem test_trust :
    after (.startInterfaceRequest 0 5) (trusty 2) (fun t => t.f SYS_INST.TDI 9 == 3 && t.outbox == [.spdm 5 true []]) = true
    ∧ after (.consentExpiry 0) { trusty 1 with sys.record.poh := 39600 } (fun t => (t.flask 0).consent.isNone) = true
    ∧ after (.consentExpiry 0) { trusty 1 with sys.record.poh := 39599 } (fun t => (t.flask 0).consent.isSome) = true
    ∧ after (.keyRevoke 3 7) (trusty 1) (fun t => (t.heldKey 3 7).isNone && (t.flask 0).slots.isEmpty) = true := by
  decide +kernel

/-- R229, R236: an interface is locked; another instance's debug access is refused; a certificate has no such slot. -/
theorem test_trust_refusals :
    after (.lockInterfaceRequest 0 5) (trusty 1) (fun t => t.f SYS_INST.TDI 9 == 2) = true
    ∧ after (.debugAccess 0 .trace (some (.array 0))) ((trusty 1).setF ARR_STATUS.FLASK 0 0) (fun t => t.outbox == [.debugRefused 0])
      = true
    ∧ after (.debugAccess 0 .halt (some (.array 0))) ((trusty 1).setF ARR_STATUS.FLASK 0 0) (fun t => t.outbox == [.debugServed 0])
      = true
    ∧ after (.getDeviceInterfaceReport 0 5) (trusty 1) (fun t => t.outbox == [.spdm 5 false []]) = true := by decide +kernel

/-! ## Vector engines -/

/-- A vendor word: funct6, vm, vs2, vs1, vd. -/
def vword (f6 vm vs2 vs1 vd : Nat) : BitVec 32 :=
  BitVec.ofNat 32 (f6 * 2 ^ 26 + vm * 2 ^ 25 + vs2 * 2 ^ 20 + vs1 * 2 ^ 15 + vd * 2 ^ 7 + 0x5B)

/-- A VECTOR job of four items for one engine, 1,000 µs each, its save area at DRAM + 8000h. -/
def vecJob : Job :=
  { job1 [w0 3 0 0] with phase := .running, param := words [0, 0, 4 * 2 ^ 32 + 2 ^ 24, dramBase + 0x8000, 1000 * 2 ^ 32] }

/-- Engine 2 of flask 0, on which item 0 of job 1 runs. -/
def vecS (g : VecSt → VecSt) : State :=
  ((holds up { vecJob with issued := 1 }).setF VEC_STATUS.FLASK 2 0).modVec 2 fun x =>
    g { x with item := some { job := 1, item := 0, startNs := 0 } }

/-- Those of VendorInstructionsWriteTheirGroup. -/
theorem wit_vendor :
    let s := vecS fun x => { x with vl := 3 }
    (s.vec 2).item.isSome = true ∧ (s.vec 2).sew = 32 ∧ (s.vec 2).vl ≤ 2048 ∧ (s.vec 2).overlap 1 2 = false
      ∧ 3 ≤ (s.vec 2).vl ∧ bits (s.vec 2).fmt 3 0 ≤ 10 ∧ bits (s.vec 2).fmt 7 4 ≤ 10
      ∧ (up.vec 2).item.isNone = true ∧ bits (BitVec.toNat (0x57 : BitVec 32)) 6 0 ≠ 0x5B := by decide +kernel

/-- Their words: one for each funct6. -/
theorem wit_vendor_words :
    ([0, 1, 2, 3].all fun f =>
      let w := vword f 1 2 0 1
      bits w.toNat 6 0 == 0x5B && bits w.toNat 14 12 == 0 && funct6Of w == f && vs1Of w == 0 && vmOf w && vdOf w == 1
        && vs2Of w == 2 && (((vecS fun x => { x with vl := 3 }).vec 2).dws w).isSome) = true := by decide +kernel

/-- An item whose element width is not 32 bits. -/
theorem wit_vendor_sew :
    let s := vecS fun x => { x with sew := 16 }
    (s.vec 2).sew ≠ 32 ∧ (s.pairOf true 2).isNone = true
      ∧ (s.job 1).any (fun x => decide (x.phase ≠ .ended)) = true := by decide +kernel

/-- R240 to R242: VEXP.V of 0 is 1.0; VLSEM folds two equal maxima; VDWS0 multiplies INT8 elements with their scales. -/
theorem test_vendor :
    after (.vexpV 2 [] (vword 0 1 2 0 1)) (vecS fun x => { x with vl := 1 }) (fun t => (t.vec 2).el 1 0 == 0x3F800000) = true
    ∧ after (.vlsemVv 2 [] (vword 1 1 2 0 1)) (vecS fun x => { x with
        vl := 3
        vreg := [(vkey 1 0, 0x3F800000), (vkey 1 1, 0x40000000), (vkey 1 2, 0x40400000), (vkey 2 0, 0x3F800000),
          (vkey 2 1, 0x3F800000), (vkey 2 2, 0x3F800000)] })
      (fun t => ((List.range 3).map ((t.vec 2).el 1)) == [0x3F800000, 0x40400000, 0x40800000]) = true
    ∧ after (.vdws0Vv 2 [] (vword 3 1 2 3 1)) (vecS fun x => { x with
        vl := 1, fmt := 0x61, vreg := [(vkey 2 0, 0xFB00A6), (vkey 3 0, 0xFD005C)] })
      (fun t => (t.vec 2).el 1 0 == 0xC1070000) = true
    ∧ after (.vexpV 2 [] (vword 0 1 2 0 1)) (vecS fun x => { x with sew := 64 }) (fun t =>
      (t.job 1).any fun x => x.status == 0x14 && x.detail == some 0) = true := by decide +kernel

/-- An item of job 1, saved in slot 0. -/
def saved1 : SavedItem where
  it := { job := 1, item := 3, startNs := 70 }
  slot := 0
  pc := 0x40

/-- A free engine of flask 0 and a saved item of the job that stands at PRIO 5. -/
def resumable : State := { (holds up vecJob).setF VEC_STATUS.FLASK 2 0 with units.saved := [saved1] }

/-- Those of VectorItemsAreDealtEndedAndPreempted: items to deal. -/
theorem wit_vectorItems :
    let s := (holds up vecJob).setF VEC_STATUS.FLASK 2 0
    s.job 1 = some vecJob ∧ vecJob.phase = .running ∧ vecJob.opcode = 3 ∧ s.timed (s.jobFlask vecJob) = false
      ∧ (s.setF SYS_FLCTRL.TIMED 0 1).timed 0 = true ∧ s.engines 0 = [2] ∧ s.engFree 2 = true := by decide +kernel

/-- An item one nanosecond beyond its time, and one at its last. -/
theorem wit_itemTimeout :
    let s := atNs (vecS id) 1000001
    ((s.vec 2).item.map fun i => (i.job, i.kind, i.startNs)) = some (1, 0, 0) ∧ (s.pairOf true 2).isNone = true
      ∧ (s.job 1).any (fun x => x.phase == .running && x.opcode == 3 && vcItemUs x == 1000) = true
      ∧ reached s.now (0 + 1000 * 1000 + 1) = true ∧ reached (atNs s 1000000).now (0 + 1000 * 1000 + 1) = false := by decide +kernel

/-- An item of the primary of a pair. -/
theorem wit_pairItem :
    let p : Pair := { flask := 0, vec := true, job := 1, tile := 0, pri := 2, rc := 3, laterStart := 0, firstEnd := 0, releaseNs := 0 }
    ({ vecS id with units.pairs := [p] }).pairOf true 2 = some p ∧ p.phase = .running ∧ p.rc ≠ 2 ∧ p.rcEnd = none
      ∧ bit p.overran 1 = false := by decide +kernel

/-- A job of higher priority that has work preempts, and without it nothing does. -/
theorem wit_preempt :
    let s := (holds (vecS id) { vecJob with id := 2, desc := [w0 3 0 0 + 15 * 2 ^ 48] }).setF VEC_STATUS.FLASK 2 0
    (s.job 1).any (fun x => !s.preemptQuiesce x && !s.preemptDisplay 0 x && s.preemptPrio 0 x.prio) = true
      ∧ ((vecS id).job 1).any (fun x => !(vecS id).preemptQuiesce x && !(vecS id).preemptDisplay 0 x
          && !(vecS id).preemptPrio 0 x.prio) = true ∧ s.timed 0 = false := by decide +kernel

/-- Its save area can be written. -/
theorem wit_preempt_save :
    (let s := vecS id
     let p := s.storeBytes (s.vec 2) 0 (vcStoreKb vecJob * 1024)
     (instWrite p.2 0 (vcCtx vecJob + p.2.freeSave 1 (vcEngines vecJob) * vcSlotBytes vecJob)
       (vregBytes (s.vec 2) ++ scalarBytes (s.vec 2) ++ p.1)).1.good) = true := by decide +kernel

/-- A batch of the same standing; an item whose flask is in a quiesce; a kept context. -/
theorem wit_preempt_kinds :
    (let s := (holds (vecS fun x => { x with item := some { job := 1, item := 0, startNs := 0, kind := 1 } })
       { vecJob with id := 2, desc := [w0 3 0 0 + 15 * 2 ^ 48] }).setF VEC_STATUS.FLASK 2 0
     (s.vec 2).item.any (fun i => decide (i.kind ≠ 0)) = true
      ∧ (s.job 1).any (fun x => !s.preemptQuiesce x && s.preemptPrio 0 x.prio) = true)
    ∧ (((vecS id).setF SYS_INST.STATE 0 2).job 1).any (fun x => ((vecS id).setF SYS_INST.STATE 0 2).preemptQuiesce x) = true
    ∧ ({ saved1 with ctx := some {} } : SavedItem).ctx = some {} := by decide +kernel

/-- A saved item and a free engine. -/
theorem wit_vectorResume :
    (resumable.units.saved.find? fun k => k.it.job == 1 && k.it.item == 3) = some saved1 ∧ resumable.engFree 2 = true
      ∧ resumable.f VEC_STATUS.FLASK 2 = resumable.jobFlask vecJob ∧ resumable.heldBy 1 < vcEngines vecJob := by
  decide +kernel

/-- Its save area can be read. -/
theorem wit_vectorResume_read :
    (instRead resumable 0 (vcCtx vecJob) (vcSlotBytes vecJob)).1.good = true := by decide +kernel

/-- R243 to R245: the free engine takes item 0; the last item ends the job; one beyond its time faults; a saved item resumes. -/
theorem test_vectorItems :
    after (.vector 1) ((holds up vecJob).setF VEC_STATUS.FLASK 2 0) (fun t => (t.vec 2).item.isSome
      && (t.job 1).any fun x => x.issued == 1) = true
    ∧ after (.itemEnd 2 [] (.ecall 0) 0 false) ((vecS id).modJob 1 fun x => { x with doneParts := [1, 2, 3], issued := 4 }) (fun t =>
      (t.job 1).any fun x => x.phase == .ended && x.status == 0) = true
    ∧ after (.itemTimeout 2) (atNs (vecS id) 1000001) (fun t => (t.job 1).any fun x => x.status == 0x14) = true
    ∧ after (.itemTimeout 2) (atNs (vecS id) 1000000) (fun t => (t.job 1).any fun x => x.phase == .running) = true := by
  decide +kernel

/-! ## Cameras and displays -/

/-- Context 3 is enabled for RAW8 lines of 4 pixels, 2 to a frame, with three buffers; a frame is active or not. -/
def camS (active : Bool) : State :=
  (((((up.setF DSP_CAMCTX0.EN 3 1).setF DSP_CAMCTX0.DT 3 0x2A).setF DSP_CAMCTX0.WIDTH 3 4).setF DSP_CAMCTX0.HEIGHT 3
    2).setF DSP_CAMCTX0.BUFS 3 3).modCam 3 fun x => { x with
      recordBase := dramBase + 0x100
      counterAddr := dramBase + 0x400
      bufs := [(dramBase + 0x1000, 0, 1), (dramBase + 0x2000, 0, 2), (dramBase + 0x3000, 0, 3)]
      active := active
      buf := if active then some 0 else none }

/-- A line of four pixels, and the end of a frame. -/
def line : CamPacket := { dt := 0x2A, pixels := [1, 2, 3, 4] }
def eof : CamPacket := { dt := 0x2A, pixels := [], frameEnd := true }

/-- The write that enables a context of RAW8 lines of 4 pixels, 2 to a frame, with three buffers. -/
def camEn : Nat := 0x2A * 2 ^ 50 + 3 * 2 ^ 46 + 4 * 2 ^ 24 + 2 * 2 ^ 10

/-- Those of CameraContextsIngestFrames. -/
theorem wit_cameras :
    (let s := up.setF DSP_CAMCTX1.TABLE_ADDR 3 (dramBase / 64)
     taken s .dspCamctx0 3 .manager (withBit (BitVec.ofNat 64 camEn) 63) = true
      ∧ (rtRead 0 (s.setR .dspCamctx0 3 (s.newValue .dspCamctx0 3 .whole (withBit (BitVec.ofNat 64 camEn) 63))) 0
          (s.f DSP_CAMCTX1.TABLE_ADDR 3 * 64) (64 + 32 * 3)).1.good = true)
    ∧ (let s := camS true
       s.permits .dspCamctx0 3 .manager true (s.camPort .dspCamctx0 3 .whole 0) = true ∧ s.lockedBy .dspCamctx0 3 = none
        ∧ s.clearsEn .dspCamctx0 3 (s.newValue .dspCamctx0 3 .whole 0) = some DSP_CAMCTX0.EN ∧ s.clearBad .dspCamctx0 3 = false
        ∧ (s.cam 3).active = true)
    ∧ ((camS false).fb DSP_CAMCTX0.EN 3 = true ∧ ((camS false).cam 3).active = false ∧ ((camS false).cam 3).recordDue = false
        ∧ (camS false).bufLocked 3 ((camS false).cam 3).next = false ∧ up.fb DSP_CAMCTX0.EN 3 = false)
    ∧ (let s := holds (camS false) (job1 [0, 0, 0, 0, 1])
       (s.work.jobs.any fun x => x.signalAddr == 1) = true → s.bufLocked 3 0 = true)
    ∧ (let s := camS true
       line.hdrErr = false ∧ line.hdrCorr = false ∧ eof.frameEnd = true ∧ (s.cam 3).lines < s.f DSP_CAMCTX0.HEIGHT 3
        ∧ (s.cam 3).buf = some 0 ∧ line.frameEnd = false ∧ line.dt = s.f DSP_CAMCTX0.DT 3 ∧ line.crcErr = false
        ∧ (camBytes line.dt).isSome = true ∧ (s.cam 3).dead = false ∧ s.bufLocked 3 0 = false
        ∧ ({ line with dt := 0x12 } : CamPacket).dt ≠ s.f DSP_CAMCTX0.DT 3
        ∧ (writeAll 0 (camLine 0x2A 4 0 (dramBase + 0x1000, 0, 1) line.pixels) s).1.good = true)
    ∧ (let s := (camS false).modCam 3 fun x => { x with recordDue := true }
       (s.cam 3).recordDue = true ∧ (rtRead64 0 s 0 (dramBase + 0x400)).1 = some 0) := by decide +kernel

/-- R246 to R249: a frame takes a buffer, stores a line, ends short (flag bit 1), and its record counts it. -/
theorem test_cameras :
    after (.frameStart 3) (camS false) (fun t => (t.cam 3).active && (t.cam 3).buf == some 0 && t.f DSP_CAMSTAT.FRAMES 3 == 1)
      = true
    ∧ after (.cameraPacket 3 line) (camS true) (fun t => t.bytes (dramBase + 0x1000) 5 == [1, 2, 3, 4, 0]
      && (t.cam 3).lines == 1) = true
    ∧ after (.cameraPacket 3 eof) (camS true) (fun t => (t.cam 3).recordDue && bit (t.cam 3).flags 1 && (t.cam 3).next == 1)
      = true
    ∧ after (.ingestRecord 3) (((camS false).modCam 3 fun x => { x with recordDue := true, frame := 17, lines := 2, tSof := 8 }))
      (fun t => t.bytes (dramBase + 0x120) 16 == words [17, 8] && t.bytes (dramBase + 0x400) 1 == [1]
        && !(t.cam 3).recordDue) = true := by decide +kernel

/-- A plane descriptor of 8 × 8 pixels. -/
def pd : List Nat := [0, 0, 0, 8 * 2 ^ 16 + 8, 8 * 2 ^ 16 + 8, 0, 0, 0]

/-- Output 1 belongs to flask 0, escalates, and has a posting of plane 2 at DRAM + 0. -/
def dispS : State :=
  let s := (((poke up 0 (words pd)).setF DSP_FLIP.PENDING 10 1).setF DSP_FLIP.NEXT_ADDR 10 (dramBase / 64)).setF
    DSP_OUTCFG.ESC_EN 1 1
  s.setR .sysAssign 8 0

/-- The tell-tale plane of output 1 is one pixel with the CRC of its value 5. -/
def ttS (crc : Nat) : State := (dispS.setF DSP_TTCFG.EN 1 1).modDisp 1 fun d => { d with tt := some [0, 2 ^ 16 + 1, crc * 2 ^ 32] }

/-- Those of DisplaysLatchCompareAndEscalate. -/
theorem wit_displays :
    taken up .dspFlip 10 .manager (withBit 0x40 5) = true
    ∧ ((∀ q < 8, dispS.fb DSP_FLIP.PENDING (8 * 1 + q) = decide (q = 2))
        ∧ (postedRead ((dispS.incWrap DSP_OUTSTAT.VBLANKS 1 1).countMisses 1) 1 (NMap.get (dispS.disp 1).posted 0 2)
            (dispS.f DSP_FLIP.NEXT_ADDR 10 * 64) 64).1 = .ok (words pd))
    ∧ (up.disp 1).tt.isNone = true := by decide +kernel

/-- A tell-tale plane that agrees with its reference, and one that does not. -/
theorem wit_tellTale :
    (let c := crc32 (toLE 4 5)
     ((ttS c).disp 1).tt = some [0, 2 ^ 16 + 1, c * 2 ^ 32] ∧ (ttS c).fb DSP_TTCFG.EN 1 = true
        ∧ 1 = bits (2 ^ 16 + 1) 31 16 * bits (2 ^ 16 + 1) 15 0 ∧ c = bits (c * 2 ^ 32) 63 32
        ∧ (ttS c).fb DSP_OUTSTAT.SAFE_BLANK 1 = false ∧ c ≠ bits ((c + 1) * 2 ^ 32) 63 32)
    ∧ (dispS.fb DSP_OUTCFG.ESC_EN 1 = true ∧ dispS.owner 4 1 < 8 ∧ (dispS.flask (dispS.owner 4 1)).level < 1
        ∧ up.fb DSP_OUTCFG.ESC_EN 1 = false) := by decide +kernel

/-- A RENDER job with one draw of three vertices, or of a reserved topology, at DRAM + 600h. -/
def renderS (topo : Nat) : State :=
  poke (holds up { job1 [w0 10 0 0] with phase := .running, param := words [dramBase + 0x600, 2 ^ 48] }) 0x600
    (words [0, 0, 3 * 2 ^ 32 + topo * 2 ^ 30])

/-- Those of a RENDER job. -/
theorem wit_render :
    ∀ topo ∈ [0, 2],
      (renderS topo).job 1 |>.any fun x => x.tiles.isEmpty && x.doneParts.isEmpty
        && (instRead (renderS topo) 0 (x.pw 0) (64 * rdDraws x)).1.good
        && drawBad (words64 8 ((renderS topo).bytes (dramBase + 0x600) 64)) == decide (topo = 2) := by decide +kernel

/-- R254, R257, R258: a latch counts the blanking and shows black or the planes; a tell-tale that differs is counted. -/
theorem test_displays :
    after (.latch 1) dispS (fun t => t.f DSP_OUTSTAT.VBLANKS 1 == 1 && !t.fb DSP_FLIP.PENDING 10) = true
    ∧ after (.tellTaleCompare 1 [5]) (ttS (crc32 (toLE 4 5))) (fun t => t.f DSP_TTSTAT.TT_MISMATCH 1 == 0) = true
    ∧ after (.escalationLevel1 1) dispS (fun t => t.f DSP_OUTSTAT.ESC 1 == 1 && (t.flask 0).level == 1) = true
    ∧ after (.scanoutUnderrun 1) dispS (fun t => t.outbox == [.black 1]) = true
    ∧ after (.render 1) (renderS 2) (fun t => (t.job 1).any fun x => x.status == stMalformed) = true := by decide +kernel

/-! ## Runner -/

/-- A RUNNER job: its operation, PUBLISH_AT, and where results go; the tree is at DRAM + 0, input at 1000h, the vehicle
record at 2000h, the publication area at 3000h, limits at D000h and candidates of a REPAIR at E000h. -/
def rjob (op pubAt out pred : Nat) : Job :=
  { job1 [w0 8 0 0] with
    phase := .running
    param := words [op * 2 ^ 60 + 255 * 2 ^ 44 + 1, dramBase, 8 * 2 ^ 32, dramBase + 0x1000, dramBase + 0x2000, out,
      dramBase + 0x3000, pred, 7, pubAt, dramBase + 0xD000, 0, 1000 * 2 ^ 16, 0, 1, dramBase + 0xE000] }

/-- The job, with the sequencer firmware, where its limits allow a plan every millisecond, with one candidate of one straight segment of 1 m. -/
def rS (x : Job) : State :=
  poke (poke (poke ((holds up x).modFw 5 fun y => { y with running := true }) 0x1004 (toLE 1 1 ++ List.replicate 11 0 ++ toLE 4 0 ++ toLE 4 0x3F800000)) 0xE004
    (toLE 1 1 ++ List.replicate 11 0 ++ toLE 4 0 ++ toLE 4 0x3F800000)) 0xD028 (toLE 2 1)

/-- Those of RunnerJobsUpdateAndPublish for an UPDATE without a predecessor, with one that completed, with one that did not,
and for a job that is not the runner's. -/
theorem wit_update :
    (let x := rjob 1 1000 (dramBase + 0xC000) 0
     let s := rS x
     s.job 1 = some x ∧ s.runnerTakes x = true ∧ x.rnOp = 1 ∧ got (predState x s) = some (false, false)
      ∧ isOk (applyUpdates x s) = true ∧ s.runnerTakes { x with id := 2 } = false)
    ∧ (let x := rjob 1 1000 (dramBase + 0xC000) (dramBase + 0xF000)
       got (predState x (rS x)) = some (true, false)
        ∧ got (predState x (poke (rS x) 0xF000 (words [2 ^ 32, 7]))) = some (false, true)) := by decide +kernel

/-- Those for a PLAN or REPAIR that is late or has no predecessor, and no earlier plan. -/
theorem wit_late :
    ([(2, 0, 0), (3, 0, 0), (2, 1000, dramBase + 0xF000), (3, 1000, dramBase + 0xF000)].all fun q =>
      let x := rjob q.1 q.2.1 (dramBase + 0xC000) q.2.2
      let s := rS x
      let fl := if q.2.2 = 0 then 0 else pfStale
      let out : PlanOut := { source := 3, reuse := 1, tBase := 0, chosen := 0xFFFF
                             flags := fl + (if q.2.1 = 0 then pfLate else 0), cost := 0, points := [] }
      s.runnerTakes x && ((got (planHead x s)).map fun h => h.2) == some fl
        && reached s.now x.rnPublishAt == decide (q.2.1 = 0) && (got (newestPlan x s)).any (fun p => p.isNone)
        && isOk (publish x out s)) = true := by decide +kernel

/-- R264, R273: an UPDATE that sets the whole cube ends OK; a late PLAN publishes SOURCE 3. -/
theorem test_runner :
    after (.update 1) (rS (rjob 1 1000 0 0)) (fun t => (t.job 1).any fun x => x.phase == .ended && x.status == 0) = true
    ∧ after (.plan 1 false) (rS (rjob 2 0 0 0)) (fun t => t.f RUN_STAT.LAST_SOURCE 0 == 3
      && t.bytes (dramBase + 0x3000) 1 == [1]) = true
    ∧ after (.publishAt 1) (rS (rjob 3 0 0 0)) (fun t => t.f RUN_STAT.PUBLISHED 0 == 1) = true
    ∧ after (.repair 1 false) (rS (rjob 3 1000 0 (dramBase + 0xF000))) (fun t =>
      (t.job 1).any fun x => x.phase == .ended && bit x.cflags 0) = true := by decide +kernel

/-- The tree of one free leaf. -/
def freeTree : OTree := [(1, { occ := 0, maxocc := 0, stamp := 0, mask := 0 })]

/-- In a free tree a pose touches nothing, or a value below 256. -/
theorem touch_free {e : RunEnv} (h : e.tree = freeTree) (p : Sweep) (l : Nat) (rs : List (Nat × Nat)) :
    ∀ o ∈ e.touch p l rs, o < 256 := by
  intro o ho
  simp only [RunEnv.touch, List.mem_flatMap] at ho
  obtain ⟨q, -, hq⟩ := ho
  split at hq
  · rw [h] at hq
    unfold touched at hq
    simp [freeTree, NMap.find] at hq
  · simp only [List.mem_singleton] at hq
    omega

/-- Where only unknown space reaches OCC_COLLIDE and unknown space is free, nothing collides. -/
theorem hits_free {e : RunEnv} (hc : e.collide = 255) (hu : e.unknownBlocks = false) {o : Nat} (ho : o < 256) :
    e.hits o = false := by
  by_cases h : o = 255
  · simp [RunEnv.hits, h, hu]
  · simp [RunEnv.hits, h, hc]
    omega

/-- The largest OCC is at most 254. -/
theorem foldl_occ (os : List Nat) (a : Nat) (ha : a ≤ 254) : os.foldl (fun a o => max a (min o 254)) a ≤ 254 := by
  induction os generalizing a with
  | nil => simpa using ha
  | cons o os ih => exact ih _ (by simp only; omega)

/-- The straight segment of one metre. -/
def straight : Cand := { prior := 0, segs := 1, seg := [(0, f32one)] }

/-- One substep without a trailer in a free tree: nothing is hit, and RISK is that of some OCC up to 254. -/
theorem straight_result {e : RunEnv} (ht : e.tree = freeTree) (hc : e.collide = 255) (hu : e.unknownBlocks = false)
    (h0 : e.trailers = 0) (hs : e.step = f32one) (hw : e.wRisk = 0) (hv : e.wCurv = 0) :
    (e.result straight).bits0 = 0 ∧ f32fin (e.result straight).cost = true := by
  have hj : ∀ p, e.jackknifed p = false := fun p => by simp [RunEnv.jackknifed, h0]
  have hn : e.subs f32one = 1 := by rw [RunEnv.subs, hs]; decide +kernel
  have hb : straight.bad = false := by decide +kernel
  have hall : ∀ p l rs, (e.touch p l rs).any e.hits = false := fun p l rs =>
    List.any_eq_false.2 fun o ho => by simp [hits_free hc hu (touch_free ht p l rs o ho)]
  have e1 : e.sweep straight = e.substep 0 0 (f32div f32one (f32nat 1)) 0 e.start := by
    simp only [RunEnv.sweep, straight, List.zipIdx, List.foldl, hn]
    simp [RunEnv.runSeg, RunEnv.start]
  obtain ⟨o, ho, h1, h2, h3, h4, h5⟩ : ∃ o ≤ 254, (e.sweep straight).coll = false ∧ (e.sweep straight).jack = false
      ∧ (e.sweep straight).first = none
      ∧ (e.sweep straight).risk = f32add 0 (f32mul (f32div (f32nat o) (f32nat 254)) (f32div f32one (f32nat 1)))
      ∧ (e.sweep straight).curv = f32add 0 (f32mul (f32mul 0 0) (f32div f32one (f32nat 1))) := by
    refine ⟨_, foldl_occ (e.touch e.start (f32div f32one (f32nat 1)) (e.rates e.start 0)
      ++ e.touch (e.advance e.start 0 (f32div f32one (f32nat 1)) (e.rates e.start 0)) (f32div f32one (f32nat 1))
        (e.rates e.start 0)) 0 (by omega), ?_⟩
    rw [e1]
    have e2 : e.start.coll = false := rfl
    have e3 : e.start.first = none := rfl
    have e4 : e.start.risk = 0 := rfl
    have e5 : e.start.curv = 0 := rfl
    have e6 : e.start.jack = false := rfl
    simp [RunEnv.substep, RunEnv.advance, e2, e3, e4, e5, e6, hj, hall, List.any_append]
  have hr : ∀ o ≤ 254, f32mul 0 (f32add 0 (f32mul (f32div (f32nat o) (f32nat 254)) (f32div f32one (f32nat 1)))) = 0 := by
    decide +kernel
  have hp : straight.prior = 0 := rfl
  have hf : f32fin (f32add (f32add 0 (f32mul 0 (f32add 0 (f32mul (f32mul 0 0) (f32div f32one (f32nat 1)))))) 0) = true := by
    decide +kernel
  constructor
  · simp [RunEnv.result, hb, h1, h2, h3, b2n]
  · simpa [RunEnv.result, hb, h1, h2, h3, h4, h5, b2n, RunEnv.cost, hw, hv, hp, hr o ho] using hf

/-- The PLAN of one straight candidate, whose result goes out through bridge window 0. -/
def planX : Job := { rjob 2 1000 0x20_0000_0000 0 with tiles := [] }
def planS : State :=
  ((((rS planX).setF SYS_BRWIN1.EN 0 1).setF SYS_BRWIN1.LIMIT 0 0x20000).setF SYS_BRWIN0.BASE 0 0x20000).setF SYS_BRWIN0.OWNER 0 0

/-- The states and values along the PLAN. -/
def pl1 : State := (planHead planX planS).2
def pl2 : State := (vBytes 0 planX.rnVeh 128 pl1).2
def pl3 : State := (runTree planX pl2).2
def plLim : List Byte := toLE 40 0 ++ toLE 24 1
def plE : RunEnv := runEnv planX plLim (List.replicate 128 0) freeTree pl3.freeCtr

/-- What `got` says. -/
theorem eq_of_got {ε α : Type} {r : Except ε α × State} {v : α} (h : got r = some v) : r = (.ok v, r.2) := by
  obtain ⟨_ | _, _⟩ := r <;> simp_all [got]

/-- A computation that `isOk` has an answer. -/
theorem ok_of_isOk {ε : Type} {r : Except ε Unit × State} (h : isOk r = true) : r = (.ok (), r.2) := by
  obtain ⟨_ | _, _⟩ := r <;> simp_all [isOk]

/-- The check of candidate 0. -/
theorem check_straight {x : Job} {e : RunEnv} {l : Nat} {s : State}
    (hc : (got (vBytes x.inst (l + 528 * 0) 528 s)).map candOf = some straight)
    (hw : (instWrite (vBytes x.inst (l + 528 * 0) 528 s).2 x.inst (x.rnOut + 16 * 0) (e.result straight).bytes).1.good
      = true) :
    ∃ s', vAll (checkCand x e l) (List.range 1) s = (.ok [(0, straight, e.result straight)], s') := by
  rw [Option.map_eq_some_iff] at hc
  obtain ⟨bs, hb, hc⟩ := hc
  have hb := eq_of_got hb
  generalize hi : instWrite (vBytes x.inst (l + 528 * 0) 528 s).2 x.inst (x.rnOut + 16 * 0) (e.result straight).bytes = w at hw
  obtain ⟨_ | _ | _ | _, s'⟩ := w <;> simp [MRes.good] at hw
  refine ⟨s', ?_⟩
  have h1 : checkCand x e l 0 s = (.ok (0, straight, e.result straight), s') := by
    rw [checkCand, hb]
    simp only [Rs.andThen, hc, hi]
  simp [List.range_succ, vAll, h1, Rs.andThen]

/-- Those of RunnerJobsUpdateAndPublish for a PLAN that publishes its choice. -/
theorem wit_plan :
    planS.job 1 = some planX ∧ planS.runnerTakes planX = true ∧ planX.rnOp = 2
      ∧ got (planHead planX planS) = some (plLim, 0) ∧ reached pl1.now planX.rnPublishAt = false
      ∧ got (vBytes planX.inst planX.rnVeh 128 pl1) = some (List.replicate 128 0) ∧ got (runTree planX pl2) = some freeTree := by
  decide +kernel

/-- The state after its check, and the shaped points. -/
def pl4 : State := (vAll (checkCand planX plE planX.rnIn) (List.range 1) { pl3 with freeCtr := pl3.freeCtr + 2 }).2
def plPts : List (List Byte) × State := newPoints plE 1 { pl4 with pix.planCount := 1 }

/-- Its one candidate is checked, chosen, within the limits, and published. -/
theorem wit_plan_choice :
    ∃ r, vAll (checkCand planX plE planX.rnIn) (List.range planX.rnCount) { pl3 with freeCtr := pl3.freeCtr + 2 }
        = (.ok [(0, straight, r)], pl4)
      ∧ bestOf [(0, r)] = some (0, r) ∧ plE.shape straight = some 1
      ∧ isOk (publish planX { source := 0, reuse := 0, tBase := leAt (List.replicate 128 0) 0x20 8, chosen := 0, flags := 0
                              cost := r.cost, points := plPts.1 } plPts.2) = true := by
  obtain ⟨s4, h4⟩ := check_straight (x := planX) (e := plE) (l := planX.rnIn) (s := { pl3 with freeCtr := pl3.freeCtr + 2 })
    (by decide +kernel) (by decide +kernel)
  have hr := (straight_result (e := plE) rfl (by decide +kernel) (by decide +kernel) (by decide +kernel) (by decide +kernel)
    (by decide +kernel) (by decide +kernel)).2
  have e4 : pl4 = s4 := by rw [pl4, h4]
  exact ⟨_, e4 ▸ h4, by simp [bestOf, hr], by decide +kernel, by decide +kernel⟩

/-- The REPAIR of the same candidate, which the newest plan has chosen. -/
def repX : Job := rjob 3 1000 (dramBase + 0xC000) 0
def repS : State := poke (rS repX) 0x3000 (toLE 8 1) |> fun s => { s with pix.planCount := 1 }
def re1 : State := (planHead repX repS).2
def re2 : State := (applyUpdates repX re1).2
def re3 : State := (newestPlan repX re2).2
def re4 : State := (vBytes 0 repX.rnVeh 128 re3).2
def re5 : State := (vAll (storedRes repX) (List.range 1) re4).2
def reE : RunEnv := runEnv repX plLim (List.replicate 128 0) freeTree re5.freeCtr
/-- A stored result of zeros. -/
def res0 : CandRes := { bits0 := 0, seg := 0, sub := 0, risk := 0, curv := 0, cost := 0 }

/-- Those for a REPAIR. -/
theorem wit_repair :
    repS.job 1 = some repX ∧ repS.runnerTakes repX = true ∧ repX.rnOp = 3 ∧ got (planHead repX repS) = some (plLim, 0)
      ∧ reached re1.now repX.rnPublishAt = false ∧ got (applyUpdates repX re1) = some freeTree := by decide +kernel

/-- Its newest plan, and the stored result. -/
theorem wit_repair_old :
    got (newestPlan repX re2) = some (some (List.replicate 8 0, [])) ∧ bits (wordAt (List.replicate 8 0) 3) 63 48 = 0
      ∧ got (vBytes repX.inst repX.rnVeh 128 re3) = some (List.replicate 128 0) ∧ re4.pix.planCount = 1
      ∧ got (vAll (storedRes repX) (List.range 1) re4) = some [(0, res0)] ∧ repairSet 0 repX.rnRepairK [(0, res0)] = [0] := by
  decide +kernel

/-- Its choice still stands. -/
theorem wit_repair_stands :
    ∃ s6 r, vAll (checkCand repX reE repX.rnAux) (List.range 1) { re5 with freeCtr := re5.freeCtr + 2 }
      = (.ok [(0, straight, r)], s6) ∧ r.bits0 = 0 := by
  obtain ⟨s6, h6⟩ := check_straight (x := repX) (e := reE) (l := repX.rnAux) (s := { re5 with freeCtr := re5.freeCtr + 2 })
    (by decide +kernel) (by decide +kernel)
  exact ⟨s6, _, h6, (straight_result (e := reE) rfl (by decide +kernel) (by decide +kernel) (by decide +kernel)
    (by decide +kernel) (by decide +kernel) (by decide +kernel)).1⟩

/-! ## Ethernet rings -/

/-- Ring `r` of either kind is enabled, 64 descriptors at DRAM + 0, with one that waits. -/
def ring (k : Bool) (r : Nat) (s : State) : State :=
  ((s.setF (rgEn k) r 1).setF (rgBase k) r (dramBase / 64)).setF (rgProd k) r 1

/-- The LINK item of an external port: up, 1 Gb/s, MTU 1,500. -/
def link (p : Nat) : EthItem := { port := p, sec := 0, idx := 0, bs := [1, 1] ++ toLE 2 1500 ++ zeros 4 }

/-- Port 1 is up; ring `r` has a descriptor; a list of switch items. -/
def eth (r : Nat) (d : List Nat) (its : List EthItem := []) : State :=
  { poke (ring false r up) 0 (words d) with net.ethItems := link 1 :: its }

/-- A transmit descriptor of `len` bytes at DRAM + 1000h for a port. -/
def txd (len port : Nat) : List Nat := [dramBase + 0x1000, len * 2 ^ 50 + port * 2 ^ 46, 0, 0]
/-- One with a launch time. -/
def txl (t : Nat) : List Nat := [dramBase + 0x1000, 60 * 2 ^ 50 + 2 ^ 46 + 2 ^ 41, t, 0]

/-- Filter 5 takes frames to one address, every byte of it `m`: no gate, no meter, MAX_SDU, ring 130. -/
def flt (m : Byte) (mx : Nat) : EthItem :=
  { port := 0, sec := 6, idx := 5
    bs := [1, 0, 0, 0] ++ List.replicate 6 m ++ toLE 2 0xFFFF ++ toLE 2 0xFFFF ++ toLE 2 mx ++ [130] }

/-- The gates of port 1 are closed. -/
def shut (s : State) : State := s.modGate 1 fun g => { g with open_ := 0 }

/-- Those of RingsSendReceiveAndWriteBack for a transmission: sent, kept, bad, late, dropped and into the switch. -/
theorem wit_tx :
    (let s := eth 0 (txd 60 1)
     taken up .ethRingdb 0 .manager (2 ^ 32) = true ∧ s.ringHas false 0 = true ∧ up.ringHas false 0 = false
      ∧ (s.headDesc false 0).1 = some (txd 60 1) ∧ txPort (txd 60 1) = 1 ∧ txBad (txd 60 1) = false
      ∧ s.eligible false (txd 60 1) = true ∧ s.isLate false 0 (txd 60 1) = false ∧ s.ethUp 1 = true ∧ s.macsecTx 1 = true
      ∧ s.mayStart 1 0 60 = true ∧ (instRead s 0 (dramBase + 0x1000) 60).1.good = true
      ∧ s.streamOf (zeros 60) (s.classOf 16 (zeros 60)).1 = none ∧ (shut s).mayStart 1 0 60 = false)
    ∧ (let s := eth 0 (txd 60 1) [flt 0 59]
       s.streamOf (zeros 60) (s.classOf 16 (zeros 60)).1 = some 5 ∧ (s.filterPass 5 60).1 = false)
    ∧ txBad (txd 59 1) = true ∧ txPort (txd 60 15) = 15 ∧ txBad (txd 60 15) = false
    ∧ (eth 0 (txd 60 2)).ethUp 2 = false
    ∧ (let s := (eth 0 (txl 5000)).setF ETH_RINGCFG0.LATE_US 0 1
       (s.headDesc false 0).1 = some (txl 5000) ∧ (atNs s 4999).eligible false (txl 5000) = false
        ∧ (atNs s 5000).eligible false (txl 5000) = true ∧ (atNs s 5999).isLate false 0 (txl 5000) = false
        ∧ (atNs s 6000).isLate false 0 (txl 5000) = true) := by decide +kernel

/-- R286, R291: a frame leaves and its descriptor is written back; a bad and a late one carry their status. -/
theorem test_tx :
    after (.ethRingDoorbell .manager 0 (BitVec.ofNat 64 (2 ^ 32))) up (fun t => t.f ETH_RINGDB.PROD 0 == 1) = true
    ∧ after (.frameTransmit 0) (eth 0 (txd 60 1)) (fun t => t.outbox.getLast? == some (.ethFrame 1 (List.replicate 60 0))
      && t.f ETH_RINGDB.CONS 0 == 1) = true
    ∧ after (.frameTransmit 0) (eth 0 (txd 59 1)) (fun t => t.bytes (dramBase + 8) 8 == toLE 8 (2 * 2 ^ 40)) = true
    ∧ after (.launchLate none 0) (atNs ((eth 0 (txl 5000)).setF ETH_RINGCFG0.LATE_US 0 1) 6000)
      (fun t => t.bytes (dramBase + 8) 8 == toLE 8 (2 ^ 40 + 2 ^ 36)) = true := by decide +kernel

/-- A frame of 64 bytes from port 1 to the address 07-07-07-07-07-07, and the FDB entry that gives that address its ports. -/
def fr : EthFrame := { bytes := List.replicate 64 7, port := 1 }
def fdbTo (ports : Nat) : EthItem :=
  { port := 0, sec := 2, idx := 0, bs := List.replicate 6 7 ++ toLE 2 0 ++ toLE 2 ports ++ toLE 2 0 ++ [1] }

/-- Those for a reception: what is admitted, and what goes to ring 130 of host port 0. -/
theorem wit_rx :
    (let d := [dramBase + 0x1000, 64 * 2 ^ 50, 0, 0]
     let s := eth 130 d [flt 7 0, fdbTo (2 ^ 12)]
     s.ethUp 1 = true ∧ s.macsecRx 1 none = true ∧ s.classOf 1 fr.bytes = (0, 0) ∧ s.member 1 0 = true ∧ up.ethUp 1 = false
      ∧ s.streamOf fr.bytes 0 = some 5 ∧ (s.filterPass 5 64).1 = true ∧ s.ethField 0 6 5 0x10 1 = 130
      ∧ s.cbOf true 5 = [] ∧ s.cbOf false 5 = []
      ∧ ((eth 130 [] [flt 7 63]).filterPass 5 64).1 = false ∧ s.ringHas false 130 = true
      ∧ (s.headDesc false 130).1 = some d ∧ bits (wordAt d 1) 63 50 = 64
      ∧ (instWrite s 0 (dramBase + 0x1000) (List.replicate 64 7)).1.good = true
      ∧ s.fdb (fr.bytes.take 6) 0 = some (2 ^ 12, 0) ∧ (∀ k < 16, bit (2 ^ 12) k = true ↔ k = 12)
      ∧ s.fb ETH_HOSTCFG.DEFAULT_EN 0 = false ∧ (eth 0 []).ringHas false 130 = false)
    ∧ (let s := ((eth 130 [] [fdbTo (2 ^ 12)]).setF ETH_HOSTCFG.DEFAULT_EN 0 1).setF ETH_HOSTCFG.DEFAULT_RING 0 130
       s.fb ETH_HOSTCFG.DEFAULT_EN 0 = true ∧ s.f ETH_HOSTCFG.DEFAULT_RING 0 = 130 ∧ s.fb ETH_RINGCFG0.EN 130 = true
        ∧ s.streamOf fr.bytes 0 = none) := by decide +kernel

/-- Those for a port: one that takes a frame, one whose gates are closed, and an association with its replay window. -/
theorem wit_forward :
    (let s := eth 0 [] [link 2, fdbTo (2 ^ 2)]
     s.streamOf fr.bytes 0 = none ∧ s.fdb (fr.bytes.take 6) 0 = some (2 ^ 2, 0) ∧ (∀ k < 16, bit (2 ^ 2) k = true ↔ k = 2)
      ∧ s.member 2 0 = true ∧ s.egressForm 2 0 0 fr.bytes = fr.bytes ∧ s.ethUp 2 = true ∧ s.macsecTx 2 = true
      ∧ 64 ≤ s.ethField 2 0 0 2 2 ∧ s.egress 2 = [] ∧ s.mayStart 2 0 64 = true
      ∧ (s.modGate 2 fun g => { g with open_ := 0 }).mayStart 2 0 64 = false
      ∧ (eth 0 [] [link 2]).fdb (fr.bytes.take 6) 0 = none)
    ∧ (let s := { eth 0 [] [{ port := 1, sec := 11, idx := 3, bs := [1] ++ zeros 15 ++ toLE 4 2 ++ zeros 12 }] with
         net.macSak := [(19, 5)], net.macPns := [(19, 9)] }
       s.macsecRx 1 (some (3, 7)) = true ∧ s.macsecRx 1 (some (3, 6)) = false) := by decide +kernel

/-- Recovery function 600 of stream 5 by the vector algorithm, 8 numbers, RESET_MS 1; meter 7 of 1,000 committed bytes. -/
def recov : EthItem :=
  { port := 0, sec := 9, idx := 600, bs := [1, 0, 8, 0] ++ toLE 2 5 ++ toLE 2 (2 ^ 12) ++ toLE 2 1 }
def metered : State := eth 0 [] [{ port := 0, sec := 8, idx := 7, bs := toLE 4 8 ++ toLE 4 1000 ++ zeros 12 }]

/-- Those for sequence recovery, meters and the frames that wait at a port. -/
theorem wit_streams :
    0 < leAt recov.bs 8 2 ∧ (up.recoverSeq recov 4).1 = true
    ∧ 1000 * 8000000 = (metered.meterNow 7).c ∧ (metered.meterNow 7).e < 1 * 8000000
    ∧ (({ metered with net.meters := [(7, { c := 0, e := 0, ns := 0 })] } : State).meterNow 7).c < 1 * 8000000
    ∧ ((eth 0 []).setEgress 1 [(0, fr.bytes)]).egress 1 ≠ [] := by decide +kernel

/-- R288, R289, R299: a frame of a filter fills its ring's descriptor, one without a ring is counted, one for a port leaves
there; a number that has been taken is a duplicate; a closed gate keeps a frame until it opens. -/
theorem test_rx :
    after (.frameReceive fr) (eth 130 [dramBase + 0x1000, 64 * 2 ^ 50, 0, 0] [flt 7 0, fdbTo (2 ^ 12)]) (fun t =>
      t.bytes (dramBase + 0x1000) 64 == List.replicate 64 7
        && t.bytes (dramBase + 8) 8 == toLE 8 (2 ^ 36 + 64 * 2 ^ 22 + 5)) = true
    ∧ after (.frameReceive fr) (eth 0 [] [fdbTo (2 ^ 13)]) (fun t => t.f ETH_HOSTCFG.NOMATCH_DROPS 1 == 1) = true
    ∧ after (.frameReceive fr) (eth 0 [] [link 2, fdbTo (2 ^ 2)]) (fun t => t.outbox == [.ethFrame 2 (List.replicate 64 7)])
      = true
    ∧ after (.frameReceive fr) ((eth 0 [] [link 2, fdbTo (2 ^ 2)]).modGate 2 fun g => { g with open_ := 0 }) (fun t =>
      t.outbox.isEmpty && t.egress 2 == [(0, fr.bytes)]) = true
    ∧ after (.gateListEvent 0 1) ((eth 0 []).setEgress 1 [(0, fr.bytes)]) (fun t =>
      t.outbox == [.ethFrame 1 fr.bytes] && t.egress 1 == []) = true
    ∧ ((vectorAccept { takeAny := false, seq := 9, hist := 1 } 8 7).1
        && !(vectorAccept { takeAny := false, seq := 9, hist := 5 } 8 7).1
        && !(vectorAccept { takeAny := false, seq := 9, hist := 1 } 8 1).1) = true := by decide +kernel

/-- Port 3's list: two entries of 100 ns and 200 ns in a cycle of 300 ns; stream gate 4 toggles at 50 and 150 in 200 ns. -/
def gates : List EthItem :=
  [{ port := 3, sec := 3, idx := 0, bs := List.replicate 8 0 ++ toLE 4 300 ++ toLE 4 0 ++ toLE 2 2 },
   { port := 3, sec := 4, idx := 0, bs := [1, 0, 0, 0] ++ toLE 4 100 }, { port := 3, sec := 4, idx := 1, bs := [2, 0, 0, 0] ++ toLE 4 200 },
   { port := 0, sec := 7, idx := 4, bs := [1, 0, 0, 0] ++ toLE 4 200 ++ toLE 8 0 ++ toLE 4 50 ++ toLE 4 150 ++ toLE 8 (2 ^ 64 - 1) }]

/-- The list of port 3 in force since 1000 ns, in its entry `i`. -/
def listS (i t : Nat) : State :=
  (eth 0 [] gates).modGate 3 fun g =>
    { g with ops := [(1, 100), (2, 200)], cycle := 300, start := 1000, idx := i, target := t, running := true, open_ := i + 1 }

/-- Those for gate lists. -/
theorem wit_gateLists :
    (let s := atNs ((eth 0 [] gates).modGate 3 fun g => { g with base := some 1000 }) 1000
     (s.gateEng 3).base = some 1000 ∧ reached s.now 1000 = true ∧ reached (atNs s 999).now 1000 = false
      ∧ (s.gateEng 3).running = false ∧ 0 < s.ethField 3 3 0 0x10 2)
    ∧ (let g := (listS 0 1100).gateEng 3
       g.base = none ∧ g.running = true ∧ localFire 1100 g.target = true ∧ localFire 1099 g.target = false
        ∧ g.idx + 1 < g.ops.length ∧ g.target < g.start + g.cycle)
    ∧ (let g := (listS 1 1300).gateEng 3
       localFire 1300 g.target = true ∧ g.ops.length ≤ g.idx + 1 ∧ g.start + g.cycle ≤ g.target)
    ∧ (let s := atNs (eth 0 [] gates) 420
       s.ethField 0 7 4 0 1 = 1 ∧ s.ethField 0 7 4 4 4 ≠ 0 ∧ reached s.now (s.ethField 0 7 4 8 8) = true
        ∧ (s.gateEng 20).running = false ∧ s.ethField 0 7 5 0 1 ≠ 1) := by decide +kernel

/-- R281, R288: the first entry opens at the base time, the next at its end, the first again at the end of the cycle;
a stream gate is open between its toggles. -/
theorem test_gateLists :
    after (.gateListEvent 0 3) (atNs ((eth 0 [] gates).modGate 3 fun g => { g with base := some 1000 }) 1000)
      (fun t => (t.gateEng 3).open_ == 1 && (t.gateEng 3).target == 1100) = true
    ∧ after (.gateListEvent 0 3) (atNs (listS 0 1100) 1100) (fun t => (t.gateEng 3).open_ == 2 && (t.gateEng 3).target == 1300)
      = true
    ∧ after (.gateListEvent 0 3) (atNs (listS 1 1300) 1300) (fun t => (t.gateEng 3).open_ == 1 && (t.gateEng 3).start == 1300)
      = true
    ∧ after (.gateListEvent 1 4) (atNs (eth 0 [] gates) 460) (fun t => (t.gateEng 20).open_ == 1 && (t.gateEng 20).target == 550)
      = true := by decide +kernel

/-! ## CAN -/

/-- Controller 2 is enabled in CAN FD mode. -/
def can : State := (up.setF CAN_CTRL.EN 2 1).setF CAN_CTRL.MODE 2 1

/-- A transmit record: a frame of 8 bytes with a standard identifier, its data at DRAM + 1000h. -/
def canD (t id : Nat) : List Nat := [t, id * 2 ^ 35 + 8 * 2 ^ 17, 0, dramBase + 0x1000]

/-- Queue 3 of the controller has a record. -/
def canQ (d : List Nat) : State := poke (ring true 35 can) 0 (words d)

/-- A frame of the bus. -/
def cf (id fmt : Nat) (d : List Byte := [1, 2]) : CanFrame := { id := id, fmt := fmt, data := d }

/-- Those of CanFramesAreOfferedFilteredAndRouted for an arbitration: nothing, a queue, a route and a claim. -/
theorem wit_can :
    can.fb CAN_CTRL.EN 2 = true ∧ can.f CAN_CTRL.FC_STATE 2 ≠ 2 ∧ can.f CAN_CTRL.MODE 2 ≤ 3 ∧ up.fb CAN_CTRL.EN 2 = false
      ∧ 3 < (can.setF CAN_CTRL.MODE 2 4).f CAN_CTRL.MODE 2 ∧ (can.setF CAN_CTRL.FC_STATE 2 2).f CAN_CTRL.FC_STATE 2 = 2
      ∧ (can.canOffers 2).1.isEmpty = true
      ∧ (let s := (canQ (canD 0 0x123)).modCan 2 fun x => { x with route := [cf 0x124 0], claims := [cf 0x18EEFF80 1] }
         ((s.canOffers 2).1.map fun o => (o.1, busKey o.2.2))
           = [(.queue 3, 0x246), (.route, 0x248), (.claim, 0x31DDFF01)])
      ∧ (rtRead rtCan (canQ (canD 0 0x123)) 0 (dramBase + 0x1000) (canLen (canD 0 0x123))).1.good = true := by decide +kernel

/-- Those for a lone route or claim, and a late head. -/
theorem wit_can_late :
    ((can.modCan 2 fun x => { x with claims := [cf 0x18EEFF80 1] }).canOffers 2).1.map (fun o => o.1) = [.claim]
    ∧ ((List.range 8).all fun q => !can.ringHas true (canRing 2 q)) = true
    ∧ (let s := (canQ (canD 5000 0x123)).setF CAN_RINGCFG0.LATE_US 35 1
       s.ringHas true 35 = true ∧ (s.headDesc true 35).1 = some (canD 5000 0x123)
        ∧ (atNs s 5999).isLate true 35 (canD 5000 0x123) = false ∧ (atNs s 6000).isLate true 35 (canD 5000 0x123) = true)
    ∧ can.ringHas true (canRing 2 3) = false := by decide +kernel

/-- R293: the lowest identifier wins and its record is written back; a late head is written back unsent. -/
theorem test_can :
    after (.canArbitration 2) ((canQ (canD 0 0x123)).modCan 2 fun x => { x with route := [cf 0x122 0] })
      (fun t => t.outbox == [.canFrame 2 (cf 0x122 0)] && (t.canc 2).route.isEmpty) = true
    ∧ after (.canArbitration 2) ((canQ (canD 0 0x123)).modCan 2 fun x => { x with route := [cf 0x123 1] })
      (fun t => t.f CAN_RINGDB.CONS 35 == 1 && t.outbox.getLast? == some (.canFrame 2 (cf 0x123 0 (List.replicate 8 0)))) = true
    ∧ after (.launchLate (some 2) 3) (atNs ((canQ (canD 5000 0x123)).setF CAN_RINGCFG0.LATE_US 35 1) 6000)
      (fun t => t.bytes (dramBase + 16) 8 == toLE 8 (2 ^ 8)) = true := by decide +kernel

/-- Filter 40, in the range of the controller, takes identifier 123h; action, ring, destination and tunnel are given. -/
def filt (act rng dest tun : Nat) : State :=
  ((((((((can.setF CAN_FLTRNG.BASE 2 40).setF CAN_FLTRNG.COUNT 2 2).setF CAN_FLTR0.EN 40 1).setF CAN_FLTR0.ID 40
    0x123).setF CAN_FLTR0.MASK 40 0x1FFFFFFF).setF CAN_FLTR1.ACTION 40 act).setF CAN_FLTR1.RING 40 rng).setF CAN_FLTR1.DEST 40
    dest).setF CAN_FLTR1.TUNNEL 40 tun

/-- Those for receptions: discarded, delivered, tunnelled, routed and by default. -/
theorem wit_canRx :
    (let s := filt 1 4 0 0
     s.fltrMatch 40 (cf 0x123 0) = true ∧ s.fltrMatch 40 (cf 0x124 0) = false ∧ s.fltrMatch 41 (cf 0x124 0) = false
      ∧ s.f CAN_FLTRNG.BASE 2 = 40 ∧ s.f CAN_FLTRNG.COUNT 2 = 2 ∧ s.f CAN_FLTR1.ACTION 40 = 1
      ∧ s.fb CAN_CTRL.J1939 2 = false ∧ s.f CAN_CTRL.DEFAULT 2 = 0 ∧ (filt 0 0 0 0).f CAN_FLTR1.ACTION 40 = 0
      ∧ (filt 2 0 0 0).f CAN_FLTR1.ACTION 40 = 2)
    ∧ (let s := poke (ring true 44 (filt 1 4 0 0)) 0 (canD 0 0)
       canRing 2 (8 + s.f CAN_FLTR1.RING 40) = 44 ∧ s.ringHas true 44 = true ∧ (s.headDesc true 44).1.isSome = true
        ∧ (instWrite s 0 (dramBase + 0x1000) [1, 2]).1.good = true
        ∧ (s.setF CAN_RINGDB.CONS 44 1).fb CAN_RINGCFG0.EN 44 = true ∧ (s.setF CAN_RINGDB.CONS 44 1).ringHas true 44 = false)
    ∧ (let s := (filt 2 0 0 7).setF CAN_TUNCFG.EN 0 1 |>.modTun 7 fun x => { x with maxMsgs := 2, maxWaitUs := 5 }
       s.fb CAN_TUNCFG.EN 0 = true ∧ (s.tun 7).inbound = false ∧ (s.tun 7).msgs = [] ∧ 1 < (s.tun 7).maxMsgs
        ∧ (s.tun 7).maxWaitUs ≠ 0)
    ∧ (let s := (filt 4 0 3 0).setF CAN_CTRL.EN 3 1
       s.f CAN_FLTR1.DEST 40 = 3 ∧ s.carries 3 0 = true ∧ s.carries 3 2 = false ∧ s.fb CAN_CTRL.EN 3 = true
        ∧ (s.canc 3).route.length < 32) := by decide +kernel

/-- R294, R295: delivery, an XL frame of a tunnel, a route into a full queue and a bus-off. -/
theorem test_canRx :
    after (.canFrameReceive 2 (cf 0x123 0)) (poke (ring true 44 (filt 1 4 0 0)) 0 (words (canD 0 0))) (fun t =>
      t.bytes (dramBase + 0x1000) 2 == [1, 2] && t.bytes (dramBase + 8) 8 == toLE 8 (0x123 * 2 ^ 35 + 2 * 2 ^ 17)) = true
    ∧ after (.canFrameReceive 2 (cf 0x123 4)) ((filt 2 0 0 0).setF CAN_FLTR1.AF_ANY 40 1)
      (fun t => t.f CAN_STAT.XL_UNTUN 2 == 1) = true
    ∧ after (.canFrameReceive 2 (cf 0x123 0)) (((filt 4 0 3 0).setF CAN_CTRL.EN 3 1).modCan 3 fun x =>
      { x with route := List.replicate 32 (cf 1 0) }) (fun t => t.f CAN_STAT.ROUTE_DROP 3 == 1) = true
    ∧ after (.busOff 2) (canQ (canD 0 0x123)) (fun t => t.f CAN_CTRL.FC_STATE 2 == 2 && t.f CAN_RINGDB.CONS 35 == 1
      && t.bytes (dramBase + 16) 8 == toLE 8 (7 * 2 ^ 8)) = true := by decide +kernel

/-- Slot 5 of the controller stands at address 80h with NAME 1000. -/
def j19 (st : Nat) : State :=
  ((((can.setF CAN_CTRL.J1939 2 1).setF CAN_J19391.EN 21 1).setF CAN_J19391.ADDR 21 0x80).setF CAN_J19391.STATE 21 st).setR
    .canJ19390 21 1000

/-- Those for claims, requests, recovery, holds and Cannot Claim. -/
theorem wit_j1939 :
    slotNo 2 5 = 21 ∧ (j19 2).fb CAN_J19391.EN 21 = true ∧ isExt (cf 0x18EEFF80 1).fmt = true
      ∧ (j19 2).f CAN_J19391.ADDR 21 = 0x80 ∧ (j19 2).f CAN_J19391.STATE 21 ≠ 3 ∧ (j19 3).f CAN_J19391.STATE 21 = 3
      ∧ (j19 2).r .canJ19390 21 < leNat (toLE 8 1001) ∧ leNat (toLE 8 1000) ≤ (j19 2).r .canJ19390 21
      ∧ (List.range 8).all (fun k => k == 5 || !(j19 2).fb CAN_J19391.EN (slotNo 2 k)) = true
      ∧ (j19 2).fb CAN_J19391.ARB_CAPABLE 21 = false
      ∧ 0x18EA80F9 / 65536 % 1024 = 0xEA ∧ leAt [0, 0xEE, 0] 0 3 = 0xEE00 ∧ 0x18EA80F9 / 256 % 256 = 0x80
      ∧ taken can .canJ19391 21 .manager (withBit (BitVec.ofNat 64 (0x80 * 2 ^ 56)) 55) = true
      ∧ (atNs (j19 1) 250000000).now = 0 + 250000000 ∧ (j19 1).f CAN_J19391.STATE 21 = 1
      ∧ (((j19 3).modCan 2 fun x => { x with owe := [5] }).canc 2).owe = [5] := by decide +kernel

/-- R292, R296: a greater NAME is answered, an equal one loses the address; a claim is sent, held and its loss announced;
a controller recovers. -/
theorem test_j1939 :
    after (.canFrameReceive 2 (cf 0x18EEFF80 1 (toLE 8 1001))) (j19 2) (fun t =>
      (t.canc 2).claims == [cf 0x18EEFF80 1 (toLE 8 1000)]) = true
    ∧ after (.canFrameReceive 2 (cf 0x18EEFF80 1 (toLE 8 1000))) (j19 2) (fun t => t.f CAN_J19391.STATE 21 == 3
      && (t.canc 2).owe == [5]) = true
    ∧ after (.canFrameReceive 2 (cf 0x18EA80F9 1 [0, 0xEE, 0])) (j19 3) (fun t =>
      (t.canc 2).claims == [cf 0x18EEFFFE 1 (toLE 8 1000)]) = true
    ∧ after (.addressClaim .manager 2 5 (BitVec.ofNat 64 (0x80 * 2 ^ 56))) can (fun t => t.f CAN_J19391.STATE 21 == 1) = true
    ∧ after (.claimHoldExpiry 2 5) (atNs (j19 1) 250000000) (fun t => t.f CAN_J19391.STATE 21 == 2) = true
    ∧ after (.cannotClaim 2 5) ((j19 3).modCan 2 fun x => { x with owe := [5] }) (fun t => (t.canc 2).owe.isEmpty) = true
    ∧ after (.busOffRecovery 2) (((can.setF CAN_CTRL.FC_STATE 2 2).setF CAN_CTRL.AUTO_RECOVER 2 1).setF CAN_CTRL.TEC 2 9)
      (fun t => t.f CAN_CTRL.FC_STATE 2 == 0 && t.f CAN_CTRL.TEC 2 == 0) = true := by decide +kernel

/-! ## Tunnels and bridges -/

/-- An ACF CAN message of bus 6. -/
def acf (k : Bool) : AcfMsg := { isCan := k, busId := 6, frame := cf 0x123 0, time := 7 }

/-- Entry 9 collects an outbound stream, or takes an inbound one for controller 2 on bus 6. -/
def tunS (inb : Bool) (ms : List AcfMsg) : State :=
  ((can.setF CAN_TUNCFG.EN 0 1).setF CAN_CTRL.BUS_ID 2 6).modTun 9 fun x =>
    { x with stream := 77, inbound := inb, ctrlMask := 4, msgs := ms, firstNs := 1000, maxWaitUs := 2, maxMsgs := 8, seq := 255
             expect := some 4 }

/-- The table is read at EN; memory holds no poison and no error. -/
theorem wit_tunnel_table :
    taken up .canTuncfg 0 .manager (withBit (BitVec.ofNat 64 dramBase) 5) = true ∧ up.fb CAN_TUNCFG.EN 0 = false
      ∧ (tunS false []).fb CAN_TUNCFG.EN 0 = true ∧ taken (tunS false []) .canTuncfg 0 .manager (withBit 0 5) = true
      ∧ bits (BitVec.ofNat 64 dramBase).toNat 63 6 * 64 = dramBase
      ∧ up.mem.poison = [] ∧ up.mem.flips = [] ∧ up.mem.chkFlips = [] := by decide +kernel

/-- Every byte of a table at DRAM + 0 can be read. -/
theorem wit_tunnel_bytes (a : Nat) (h1 : dramBase ≤ a) (h2 : a < dramBase + 2048) :
    up.place a = .dram (a - dramBase) ∧ up.carved (a - dramBase) = false
      ∧ up.tagGood ((a - dramBase) / 128) (up.lineBytes ((a - dramBase) / 128)) = true := by
  have hu : 2048 ≤ up.usable ∧ up.fb MEM_CTRL.READY 0 = true := by decide +kernel
  have he : ∀ n < 32, up.fb MEM_RGN1.EN n = false := by decide +kernel
  have hs : ∀ u, up.inSpare u = false := fun u => by
    rw [State.inSpare, show up.mem.spareArea = false from rfl, Bool.false_and, Bool.false_and]
  have hr : ∀ u, up.regionOf u = none := fun u =>
    List.find?_eq_none.2 fun n hn => by simp [he n (List.mem_range.1 hn)]
  refine ⟨?_, by simp [State.carved, hr, hs], by simp [State.tagGood, State.tagRegion, hr]⟩
  have hb : dramBase = 0x1_0000_0000 := rfl
  have hw := hu.1
  rw [State.place]
  generalize up.usable = n at hw ⊢
  rw [if_neg (show ¬a < 0x1000_0000 by omega), if_neg (show ¬a < 0x2000_0000 by omega),
    if_neg (show ¬a < 0x2010_0000 by omega), if_neg (show ¬a < 0x2100_0000 by omega),
    if_neg (show ¬a < 0x2200_0000 by omega), if_neg (show ¬a < dramBase by omega),
    if_pos (show a < dramBase + n by omega), if_pos hu.2]

/-- Those of TunnelsAndBridgesCarryMessages for AVTPDUs. -/
theorem wit_tunnels :
    ((tunS false [acf true]).tun 9).msgs = [acf true] ∧ 1000 + 1000 * 2 = (atNs (tunS false [acf true]) 3000).now
      ∧ ((tunS true []).tun 9).inbound = true ∧ ((tunS true []).tun 9).stream = 77
      ∧ ((List.range 9).all fun j => !((tunS true []).tun j).inbound) = true
      ∧ ((tunS true []).tun 9).expect.isSome = true ∧ bit ((tunS true []).tun 9).ctrlMask 2 = true
      ∧ (tunS true []).f CAN_CTRL.BUS_ID 2 = (acf true).busId ∧ (tunS true []).carries 2 0 = true
      ∧ ((List.range 20).all fun c => c == 2 || (tunS true []).f CAN_CTRL.BUS_ID c != 6) = true := by decide +kernel

/-- R297, R298: a flush at the end of the wait; a gap, a route by bus and a skipped message. -/
theorem test_tunnels :
    after (.tunnelFlush 9) (atNs (tunS false [acf true]) 3000) (fun t => t.outbox == [.avtpdu 0 0 0 77 255 [acf true]]
      && (t.tun 9).seq == 0) = true
    ∧ after (.avtpduReceive 77 5 [acf true]) (tunS true []) (fun t => t.f CAN_STAT.SEQ_GAP 2 == 1
      && (t.canc 2).route == [cf 0x123 0]) = true
    ∧ after (.avtpduReceive 77 4 [acf false]) (tunS true []) (fun t => t.f CAN_STAT.SEQ_GAP 2 == 0 && (t.tun 9).skipped == 1)
      = true := by decide +kernel

/-- Window 3 of the manager holds the megabyte at 20_0010_0000h, which lies at 5 MB on the far side. -/
def winS (target np : Nat) : State :=
  ((((((up.setF SYS_BRWIN1.EN 3 1).setF SYS_BRWIN0.BASE 3 0x20001).setF SYS_BRWIN1.LIMIT 3 0x20001).setF SYS_BRWIN0.OWNER 3
    8).setF SYS_BRWIN2.REMOTE_BASE 3 5).setF SYS_BRWIN1.TARGET 3 target).setF SYS_BRWIN1.NP_WRITE 3 np

/-- Device 40 lies behind port 1, which is up. -/
def wsk (s : State) : State :=
  (((((s.setF WSK_ROUTE.EN 0 1).setF WSK_ROUTE.DEST_LO 0 40).setF WSK_ROUTE.DEST_HI 0 40).setF WSK_ROUTE.PRIMARY 0
    1).setF WSK_PORTSTAT.STATE 1 2).setF WSK_ID.DEV_ID 0 7

/-- A waiting request of the manager. -/
def breq : BridgeReq :=
  { tag := 12, win := 3, master := .manager, write := false, np := true, bytes := 8, startNs := 1000 }

/-- Those for a bridge: a window of one partition, first and last megabyte, by PCIe and by Weska; a completion that is due. -/
theorem wit_bridge :
    (winS 0 0).fb SYS_BRWIN1.EN 3 = true ∧ (winS 0 0).f SYS_BRWIN0.BASE 3 = 0x2000100000 / 2 ^ 20
      ∧ 0x20001FFFFF / 2 ^ 20 = (winS 0 0).f SYS_BRWIN1.LIMIT 3 ∧ (winS 0 0).f SYS_BRWIN0.OWNER 3 = (winS 0 0).partOf .manager
      ∧ ((List.range 32).all fun j => j == 3 || !(winS 0 0).fb SYS_BRWIN1.EN j) = true
      ∧ (winS 0 0).fb SYS_BRWIN1.NP_WRITE 3 = false ∧ (winS 0 1).fb SYS_BRWIN1.NP_WRITE 3 = true
      ∧ (winS 0 0).f SYS_BRWIN1.TARGET 3 ≠ 2 ∧ (winS 2 0).f SYS_BRWIN1.TARGET 3 = 2
      ∧ (wsk ((winS 2 0).setF SYS_BRWIN1.DEV_ID 3 40)).wskRoute 40 = some 1
      ∧ (winS 0 0).f SYS_BRWIN0.OWNER 3 ≠ (winS 0 0).partOf (.inst 0)
      ∧ (winS 0 0).hostStopped 3 ((winS 0 0).masterInst .manager) = false ∧ (winS 0 0).farClosed = false
      ∧ ((winS 0 0).setF SYS_INST.TDI 0 4).hostStopped 3 ((winS 0 0).masterInst (.inst 0)) = true
      ∧ ({ winS 0 0 with sys.power.lost := [.recovered] } : State).farClosed = true
      ∧ [breq].find? (fun r => r.tag == 12) = some breq ∧ breq.forward = false
      ∧ breq.startNs + 1000 * ((winS 0 0).setF SYS_BRWIN2.CPL_TIMEOUT_US 3 4).f SYS_BRWIN2.CPL_TIMEOUT_US 3 = 5000
      ∧ (winS 0 0).f SYS_BRWIN0.OWNER 3 = 8 ∧ ((winS 0 0).setF SYS_IRQCFG.EN 0 1).fb SYS_IRQCFG.EN 0 = true := by decide +kernel

/-- R300, R301: a posted write, a read that waits, a refused request, a time-out and an error of a posted write. -/
theorem test_bridge :
    after (.bridgeRequest .manager 0x2000100010 (some [9]) 1) (winS 0 0) (fun t =>
      t.outbox == [.done .manager, .pcie 0 0x500010 (some [9]) 1 none]) = true
    ∧ after (.bridgeRequest .manager 0x2000100010 none 8) (wsk ((winS 2 0).setF SYS_BRWIN1.DEV_ID 3 40)) (fun t =>
      (t.wport 1).localQ.map (fun c => (c.dest, c.vc)) == [(40, 3)] && t.net.bridge.length == 1) = true
    ∧ after (.bridgeRequest (.inst 0) 0x2000100010 none 8) (winS 0 0) (fun t => t.outbox == [.xlateFault (.inst 0)]) = true
    ∧ after (.cplTimeout 12) { atNs ((winS 0 0).setF SYS_BRWIN2.CPL_TIMEOUT_US 3 4) 5000 with net.bridge := [breq] } (fun t =>
      t.outbox == [.accessFault .manager] && t.net.bridge.isEmpty) = true
    ∧ after (.postedWriteError 3) (winS 0 0) (fun t => t.f SYS_BRWIN0.ERRS 3 == 1) = true := by decide +kernel

/-! ## Weska -/

/-- A cell from device 40. -/
def cell (dst vc ttl seq : Nat) (b : CellBody) : Cell := { dest := dst, src := 40, vc := vc, ttl := ttl, seq := seq, body := b }

/-- The device with id 7: port 1 is up and leads to 40, port 2 is up and leads to 50; port 1 expects sequence 255. -/
def ports : State :=
  (((((wsk up).setF WSK_ROUTE.EN 1 1).setF WSK_ROUTE.DEST_LO 1 50).setF WSK_ROUTE.DEST_HI 1 50).setF WSK_ROUTE.PRIMARY 1
    2).setF WSK_PORTSTAT.STATE 2 2 |>.modWsk 1 fun w =>
      { w with rxSeq := 255, txSeq := 255, trained := true, credits := fullCredits, owed := [(2, 20)]
               unacked := [cell 50 2 63 3 (.ether []), cell 50 2 63 4 (.ether [])] }

/-- Those of PortsTrainAndCarryCells for trainings, ports that come down and replays. -/
theorem wit_ports :
    ports.fb WSK_PORTCFG.EN 1 = false ∧ (ports.setF WSK_PORTCFG.EN 1 1).fb WSK_PORTCFG.EN 1 = true
      ∧ ports.f WSK_PORTSTAT.STATE 1 = 2 ∧ ports.f WSK_PORTSTAT.STATE 0 ≠ 2 ∧ (ports.wport 1).replaying = false
      ∧ (ports.wport 1).replays1ms = 0
      ∧ (let s := atNs (ports.modWsk 1 fun w => { w with replays1ms := 15, replayNs := 0 }) 1000000
         (s.wport 1).replays1ms = 15 ∧ s.since (s.wport 1).replayNs ≤ 1000000)
      ∧ (let c : Cell := { cell 40 2 63 0 (.posted (5 * 2 ^ 20) [1]) with src := 7 }
         let s := wsk ((winS 2 0).setF SYS_BRWIN1.DEV_ID 3 40) |>.modWsk 1 fun w => { w with unacked := [c] }
         (s.wport 1).unacked = [c] ∧ c.src = s.f WSK_ID.DEV_ID 0 ∧ s.postedWin c = some 3)
      ∧ (let s := ports.modWsk 1 fun w => { w with localQ := [cell 50 2 63 0 (.ether [])] }
         (s.wport 1).transit = [] ∧ (s.wport 1).localQ.length = 1) := by decide +kernel

/-- Those for received cells: without a route, at their last hop, on their way, and for this device. -/
theorem wit_cells :
    (cell 50 2 63 511 (.ether [])).seq % 256 = (ports.wport 1).rxSeq ∧ ports.wskRoute 60 = none ∧ ports.wskRoute 50 = some 2
      ∧ ports.f WSK_ID.DEV_ID 0 = 7 ∧ ((ports.wport 1).unacked.find? fun u => u.seq == 3).isSome = true
      ∧ (∀ u ∈ (ports.wport 1).unacked, u.seq ≠ 5) ∧ ports.wskRoute 40 = some 1 ∧ ports.wskIn 40 0x100000 = none
      ∧ (let s := (((ports.setF WSK_IN0.EN 4 1).setF WSK_IN0.BASE 4 1).setF WSK_IN1.LIMIT 4 2047).setF WSK_IN1.SRC_ID 4 40
         s.wskIn 40 (0x100000 + dramBase) = none
          ∧ (s.setF WSK_IN1.LIMIT 4 0xFFFFF).wskIn 40 (0x100000 + dramBase) = some 4
          ∧ (instRead (s.takeHeader 1 (cell 7 3 63 255 (.nonPosted 0 1 8 none))) 0 dramBase 8).1.good = true
          ∧ (instWrite (s.takeHeader 1 (cell 7 3 63 255 (.nonPosted 0 1 8 none))) 0 dramBase [1]).1.good = true) := by
  decide +kernel

/-- Those for packets of several cells, and for a trajectory that waits while the last port comes down. -/
theorem wit_packets :
    NMap.get ports.net.parts 0 (16 * 40 + 2 * 2) + 1 ≠ packetCells (.posted 0 (zeros 300))
    ∧ NMap.get ({ ports with net.parts := [(16 * 40 + 2 * 2, 1)] } : State).net.parts 0 (16 * 40 + 2 * 2) + 1
        = packetCells (.posted 0 (zeros 300))
    ∧ NMap.get ports.net.parts 0 (16 * 40 + 2 * 2) + 1 = packetCells (.posted 0 [1])
    ∧ (let s := { ports.setF WSK_PORTSTAT.STATE 2 0 with net.traj.waiting := some 3 }
       s.net.traj.waiting = some 3 ∧ s.f WSK_PORTSTAT.STATE 1 = 2
        ∧ after (.portDown 1) s (fun t => t.upPorts.isEmpty) = true) := by decide +kernel

/-- R305, R307, R310, R313, R314: a training, a replay, a cell passed on, one at its last hop, one without a window and a
completion. -/
theorem test_cells :
    after (.linkTraining 0 2 9) (ports.setF WSK_PORTCFG.EN 0 1) (fun t => t.f WSK_PORTSTAT.WIDTH 0 == 1
      && t.f WSK_PORTSTAT.RETRAINS 0 == 0) = true
    ∧ after (.portDown 1) (ports.modWsk 1 fun w => { w with localQ := [cell 50 2 63 0 (.ether [])] }) (fun t =>
      t.f WSK_PORTSTAT.STATE 1 == 0 && (t.wport 2).localQ.length == 1) = true
    ∧ after (.cellReceive 1 (cell 50 2 63 255 (.ether [])) true) ports (fun t => t.f WSK_PORTSTAT.REPLAYS 1 == 1
      && (t.wport 1).rxSeq == 255) = true
    ∧ after (.cellReceive 1 { cell 50 2 2 255 (.posted 0 [1]) with ack := 3, crVc := 1, crCells := 4 } false) ports (fun t =>
      (t.wport 2).transit.map (fun q => (q.1, q.2.ttl)) == [(1, 1)] && (t.wport 1).rxSeq == 0
        && (t.wport 1).unacked.map (fun c => c.seq) == [4] && NMap.get (t.wport 1).credits 0 1 == 100) = true
    ∧ after (.cellReceive 1 (cell 50 2 1 255 (.posted 0 [1])) false) ports (fun t => t.f WSK_STAT.TTL_DROP 0 == 1) = true
    ∧ after (.cellReceive 1 (cell 7 3 63 255 (.nonPosted 0x100000 8 4 none)) false) ports (fun t =>
      t.f WSK_STAT.NO_WINDOW 0 == 1 && (t.wport 1).localQ.map (fun c => c.body) == [.completion 8 false []]) = true
    ∧ after (.cellReceive 1 (cell 7 1 63 255 (.completion 12 true [5])) false) { ports with net.bridge := [breq] } (fun t =>
      t.outbox == [.memData .manager [5]] && t.net.bridge.isEmpty) = true
    ∧ after (.cellReceive 1 (cell 7 2 63 255 (.more none)) false) ports (fun t => NMap.get t.net.parts 0 (16 * 40 + 4) == 1)
      = true := by decide +kernel

/-- Port 1 with a transit cell from port 2 and a local one, both of channel 2, and its credits. -/
def txS (tr lo : List Nat) (cr : Nat) : State :=
  ports.modWsk 1 fun w => { w with
    transit := tr.map fun v => (2, cell 40 v 60 0 (.ether []))
    localQ := lo.map fun v => cell 40 v 63 0 (.ether [])
    credits := NMap.set w.credits 0 2 cr }

/-- Those for transmissions. -/
theorem wit_cellTx :
    ((txS [2] [] 1).wport 1).unacked.length < 128 ∧ (∀ v < 2, ((txS [2] [] 1).wport 1).pick v = none)
      ∧ (((txS [2] [] 1).wport 1).transit.find? fun x => x.2.vc == 2).isSome = true
      ∧ NMap.get ((txS [2] [] 1).wport 1).credits 0 2 = 1 ∧ NMap.get ((txS [2] [] 1).wport 1).lastTransit 0 2 ≠ 1
      ∧ (((txS [] [2] 2).wport 1).localQ.find? fun x => x.vc == 2).isSome = true
      ∧ NMap.get ((txS [] [2] 2).wport 1).credits 0 2 = 2 ∧ ((txS [] [1, 2] 2).wport 1).pick 1 ≠ none
      ∧ NMap.get ((txS [] [2] 1).wport 1).credits 0 2 ≤ 1 := by decide +kernel

/-- R308, R309: one credit sends a transit cell, a local cell needs two; at most 15 credits are returned; a channel ahead
goes first. -/
theorem test_cellTx :
    after (.cellTransmit 1 2 none) (txS [2] [2] 1) (fun t => (t.wport 1).txSeq == 0 && (t.wport 1).transit.isEmpty
      && NMap.get (t.wport 1).owed 0 2 == 5 && NMap.get (t.wport 2).owed 0 2 == 1
      && t.outbox.any fun o => match o with
          | .cell p c => p == 1 && c.seq == 255 && c.ack == 254 && c.crCells == 15
          | _ => false) = true
    ∧ after (.cellTransmit 1 2 none) (txS [] [2] 1) (fun t => t.outbox.isEmpty) = true
    ∧ after (.cellTransmit 1 2 none) (txS [] [2] 2) (fun t => (t.wport 1).localQ.isEmpty) = true
    ∧ after (.cellTransmit 1 2 none) (txS [] [1, 2] 2) (fun t => t.outbox.isEmpty) = true
    ∧ after (.cellTransmit 1 2 (some 3)) ports (fun t => t.outbox == [.cell 1 (cell 50 2 63 4 (.ether [])), .cell 1
      (cell 50 2 63 3 (.ether []))]) = true := by decide +kernel

/-- Standby, with port 1 dozing or searching; the partner's id is below or above this device's. -/
def doze (st peer left : Nat) : State :=
  { ((ports.setF WSK_PORTSTAT.STATE 1 st).setF WSK_PORTSTAT.PEER_ID 1 peer).setF WSK_PORTCFG.DOZE_EN 1 1 with
    sys.power.mode := .standby } |>.modWsk 1 fun w => { w with searchLeft := left }

/-- Those of RingTimeAndDozeKeepPartnersAligned. -/
theorem wit_doze :
    (ports.setF WSK_ID.TIME_SRC 0 1).fb WSK_ID.TIME_SRC 0 = true ∧ ports.fb WSK_ID.TIME_SRC 0 = false
      ∧ ports.net.timeSrcs = [] ∧ (cell 0xFFFF 0 5 255 (.time 9 0)).src ≠ ports.f WSK_ID.DEV_ID 0
      ∧ (doze 3 6 0).sys.power.mode = .standby ∧ (doze 3 6 0).fb WSK_PORTCFG.DOZE_EN 1 = true
      ∧ (doze 3 6 0).f WSK_PORTSTAT.STATE 1 = 3 ∧ (doze 4 8 1).f WSK_PORTSTAT.STATE 1 = 4
      ∧ (doze 3 6 0).f WSK_PORTSTAT.PEER_ID 1 < (doze 3 6 0).f WSK_ID.DEV_ID 0
      ∧ (doze 3 8 0).f WSK_ID.DEV_ID 0 ≤ (doze 3 8 0).f WSK_PORTSTAT.PEER_ID 1 ∧ ((doze 4 8 1).wport 1).searchLeft = 1
      ∧ ((doze 4 8 1).wport 1).sawLow = false ∧ (doze 3 6 0).sys.power.wakeSeen = false
      ∧ (ports.setF WSK_PORTCFG.EN 1 1).fb WSK_PORTCFG.EN 1 = true := by decide +kernel

/-- R315 to R319: messages of the time source; a correction; the mean delay; a miss, a pull, and the drift of the worked
example, which the partner of the higher id measures. -/
theorem test_doze :
    after .timeMessageSend (atNs ((ports.setF WSK_ID.TIME_SRC 0 1).setF WSK_PORTCFG.EN 2 1) 88) (fun t =>
      (t.wport 2).localQ.map (fun c => (c.dest, c.vc, c.body)) == [(0xFFFF, 0, .time 88 0)] && (t.wport 1).localQ.isEmpty) = true
    ∧ after (.cellReceive 1 (cell 0xFFFF 0 5 255 (.time 9 0)) false) (atNs ((ports.setF WSK_ID.FLOOD_PORTS 0 6).setF
        WSK_DOZESTAT.LINK_DELAY_NS 1 30) 100) (fun t => t.outbox == [.timeToServo 9 0 100]
      && (t.wport 2).transit.map (fun q => (q.2.ttl, q.2.body)) == [(4, .time 9 (-70 * 65536))]) = true
    ∧ after (.linkDelayMeasure 1 31 40) ports (fun t => t.f WSK_DOZESTAT.LINK_DELAY_NS 1 == 35) = true
    ∧ after (.rendezvous 1 none) (doze 3 6 0) (fun t => t.f WSK_PORTSTAT.STATE 1 == 4 && (t.wport 1).searchLeft == 4) = true
    ∧ after (.rendezvous 1 none) (doze 4 8 1) (fun t => t.outbox == [.wakePull 1 4, .burst 1]) = true
    ∧ after (.wskWakePulse 1 4 2014000) (doze 4 6 0) (fun t => t.f WSK_PORTSTAT.STATE 1 == 2
      && t.f WSK_DOZESTAT.LAST_DRIFT_NS 1 == 2014000 && (t.wport 1).drift == 2014000) = true
    ∧ after (.wskWakePulse 1 16 0) ((doze 3 8 0).setF WSK_PORTCFG.EN 1 1) (fun t => t.f SYS_PWRSTAT.WAKE_CAUSE 0 == 3
      && t.f SYS_PWRSTAT.WAKE_UNIT 0 == 1) = true := by decide +kernel

/-! ## Power, wakes, checkpoints -/

/-- A power mode. -/
def mode (m : PMode) (s : State := up) : State := { s with sys.power.mode := m }

/-- A slot that verifies, one whose assignment table names a resource twice, and one that does not verify. -/
def slotOk : BootSlot := { cupolaDigest := 99, config := { assign := [(1, 3, 5)], devId := 7 } }
def slotTwice : BootSlot := { config := { assign := [(1, 3, 5), (1, 3, 6)] } }

/-- Those of PowerModesFollowTheRails. -/
theorem wit_power :
    (mode .off).sys.power.mode = .off ∧ up.sys.power.mode ≠ .off ∧ State.reset.mayBoot = true
      ∧ (mode .reset).mayBoot = true ∧ (mode .off { up with sys.power.railsUp := false }).mayBoot = false
      ∧ slotVerifies slotOk = true ∧ slotVerifies { err := 0x11 } = true ∧ slotVerifies { err := 0x10 } = false
      ∧ assignBad slotOk.config = false ∧ assignBad slotTwice.config = true ∧ slotTwice.err = 0
      ∧ (mode .standby).sys.power.mode = .standby := by decide +kernel

/-- R323, R324, R325, R329, R350, R369: the rails, a boot from slot B, a table with a repeat, a trip above 140 °C. -/
theorem test_power :
    after .powerUp (mode .off) (fun t => t.sys.power.mode == .reset && t.sys.power.coldNext) = true
    ∧ after (.boot { err := 0x10 } slotOk .none) State.reset (fun t => t.sys.power.booted && t.fb SYS_BOOTSTAT.SLOT 0
      && t.owner 1 3 == 5 && t.f WSK_ID.DEV_ID 0 == 7 && NMap.get t.sys.record.counts 0 0 == 1) = true
    ∧ after (.boot slotTwice slotOk .none) State.reset (fun t => t.f SYS_BOOTSTAT.BOOT_ERR 0 == 0x12 && t.sys.power.safeFlt)
      = true
    ∧ after (.thermalShutdown 31 141) up (fun t => t.fb SYS_PWRSTAT.THERMAL 0 && !t.sys.power.socPwrEn) = true
    ∧ after (.thermalShutdown 31 140) up (fun t => t.sys.power.mode == .on) = true
    ∧ after (.brownOut 2) up (fun t => t.fb SYS_PWRSTAT.BROWNOUT 0 && t.sys.power.mode == .reset) = true
    ∧ after .resetAssert (up.setF SYS_PWRCTRL.WAKE_SEC 0 60) (fun t => t.f SYS_PWRCTRL.WAKE_SEC 0 == 60
      && !t.fb MEM_CTRL.READY 0) = true
    ∧ after .powerOff up (fun t => t.sys.power.mode == .off && t.regs.isEmpty) = true := by decide +kernel

/-- STANDBY with wake sources: CAN 19, port 11, WAKE_IN, and the timer at 60 s. -/
def stby : State :=
  mode .standby { ((((up.setF SYS_PWRCTRL.WAKE_CAN 0 (2 ^ 19)).setF SYS_PWRCTRL.WAKE_ETH 0 (2 ^ 9)).setF
    SYS_PWRCTRL.WAKE_IN_EN 0 1).setF SYS_PWRCTRL.WAKE_SEC 0 60).setF SYS_STBYTIME.STBY_SEC 0 60 with sys.power.socPwrEn := false }

/-- A Cupola that runs, with the billet paired. -/
def cup : State :=
  { (up.setF SYS_BILLET.STATE 0 2).setF CUP_WDOG.TIMEOUT_MS 0 3 with
    sys.fw := [(1, { running := true, image := { digest := 8 } })] }

/-- Those of WakesAndWarningsAreRecorded. -/
theorem wit_wakes :
    bit (stby.f SYS_PWRCTRL.WAKE_CAN 0) 19 = true ∧ bit (stby.f SYS_PWRCTRL.WAKE_ETH 0) (11 - 2) = true
      ∧ stby.fb SYS_PWRCTRL.WAKE_IN_EN 0 = true ∧ (ports.setF WSK_PORTCFG.EN 3 1).fb WSK_PORTCFG.EN 3 = true
      ∧ stby.sys.power.wakeSeen = false ∧ stby.sys.power.socPwrEn = false
      ∧ stby.f SYS_PWRCTRL.WAKE_SEC 0 = 60 ∧ stby.f SYS_STBYTIME.STBY_SEC 0 = 60 ∧ up.f SYS_PWRCTRL.WAKE_SEC 0 = 0
      ∧ cup.sys.power.mode = .on ∧ (cup.fwp 1).restarting = false ∧ (cup.fwp 1).running = true
      ∧ cup.sys.power.lastPfwNs.isNone = true ∧ cup.f SYS_BILLET.STATE 0 = 2 ∧ cup.sys.power.billetPwrEn = true
      ∧ cup.sys.store.nextSlot = 0 ∧ taken up .cupWdog 0 .manager (withBit 0 63) = true
      ∧ cup.sys.power.kickNs + cup.f CUP_WDOG.TIMEOUT_MS 0 * 1000000 = 3000000 ∧ (up.fwp 1).running = false
      ∧ taken up .sysIrqcfg 0 .manager (withBit 0 0) = true ∧ up.fb SYS_IRQCFG.EN 0 = false
      ∧ linkOk (.eth 11) = true ∧ linkOk .ufs = true := by decide +kernel

/-- R325, R326: the first source is the cause, a later one is noted; the timer wakes at its second; STANDBY counts. -/
theorem test_wakes :
    after (.wake (.can 19)) stby (fun t => t.f SYS_PWRSTAT.WAKE_CAUSE 0 == 1 && t.f SYS_PWRSTAT.WAKE_UNIT 0 == 3
      && t.outbox == [.pin "SOC_PWR_EN" true]) = true
    ∧ after (.wake (.eth 11)) { stby with sys.power.wakeSeen := true } (fun t => t.f SYS_PWRSTAT.WAKE_OTHER 0 == 2
      && t.f SYS_PWRSTAT.WAKE_CAUSE 0 == 0) = true
    ∧ after .wakeTimer stby (fun t => t.f SYS_PWRSTAT.WAKE_CAUSE 0 == 4) = true
    ∧ after .wakeTimer (stby.setF SYS_STBYTIME.STBY_SEC 0 59) (fun t => !t.sys.power.wakeSeen) = true
    ∧ after .standbySecond stby (fun t => t.f SYS_STBYTIME.STBY_SEC 0 == 61) = true
    ∧ after .powerFailWarning cup (fun t => t.fb SYS_PWRSTAT.PFW 0 && t.sys.store.slot0.isSome) = true
    ∧ after .powerFailWarning { cup with sys.power.lastPfwNs := some 0, clock.ns := 999999999 }
      (fun t => t.sys.store.slot0.isNone) = true
    ∧ after .powerFailWarningEnd (cup.setF SYS_PWRSTAT.PFW 0 1) (fun t => !t.fb SYS_PWRSTAT.PFW 0) = true := by decide +kernel

/-- R156, R336, R340, R359: a retrain, another billet, a kick, a watchdog that expires, and causes kept until EN; the life
of the worked example. -/
theorem test_warnings :
    after (.linkRetrain .ufs) up (fun t => NMap.get t.sys.record.links 0 30 == 1) = true
    ∧ after (.billetChange true 55 1000 false) cup (fun t => t.f SYS_BILLET.STATE 0 == 1 && t.sys.power.billetSerial == 55) = true
    ∧ after (.kick .manager (BitVec.ofNat 64 (5 * 2 ^ 53))) (atNs cup 900) (fun t => t.sys.power.kickNs == 900
      && t.f CUP_WDOG.TIMEOUT_MS 0 == 5) = true
    ∧ after .cupolaWatchdog (atNs cup 3000000) (fun t => (t.fwp 1).restarting && t.f CUP_WDOG.RESTARTS 0 == 1) = true
    ∧ after .cupolaWatchdog (atNs cup 2999999) (fun t => (t.fwp 1).running) = true
    ∧ after (.irqEnable .manager 0) { up.setF MBX_DB.DONE 0 1 with sys.keptIrqs := [(16, 0), (17, 0)] }
      (fun t => t.outbox == [.mgrIrq 16 0] && t.sys.keptIrqs.isEmpty) = true
    ∧ ({ up with sys.record := { endurance := 30000000000000, bytes := 25630000000000 } }).updateLife.f SYS_BILLET.LIFE_PCT 0
      = 15 := by decide +kernel

/-! ## Mailbox -/

/-- A request in a channel: target, message, MAJOR and payload; processors 1, 2, 3 and 6 run. -/
def mbx (ch tgt msg : Nat) (pl : List Byte) (major : Nat := 1) : State :=
  { up with
    sys.fw := [(1, { running := true }), (2, { running := true, image := { version := 4, digest := 6 } }),
               (3, { running := true }), (6, { running := true })]
    mem.mbx := putMbx [] (4096 * ch) (toLE 8 (major * 2 ^ 56 + tgt * 2 ^ 40 + msg * 2 ^ 16 + 77) ++ toLE 8 (pl.length * 2 ^ 48)
      ++ pl) }

/-- The request of a channel is one that its target works on, with its length. -/
def asking (s : State) (m : Master) (ch msg len : Nat) : Bool :=
  decide (ch < 64) && decide s.live && !s.chanDenied m ch && !s.fb MBX_DB.REQ ch
    && s.mbxMsg ch == msg && decide (1 ≤ s.mbxTarget ch) && decide (s.mbxTarget ch ≤ 6) && (s.fwp (s.mbxTarget ch)).running
    && bits (s.mbxW0 ch) 63 56 == 1 && (msgTarget msg == 0 || msgTarget msg == s.mbxTarget ch)
    && (!managerMsg msg || ch == 0) && !s.entryDenied m ch && decide (s.unshed ch) && s.mbxLen ch == len

/-- Such a request is one that asks. -/
theorem asks_of_asking {s : State} {m : Master} {ch msg len : Nat} (h : asking s m ch msg len = true) :
    s.asks m ch msg ∧ s.mbxLen ch = len := by
  simp only [asking, Bool.and_eq_true, decide_eq_true_eq, Bool.not_eq_true', beq_iff_eq, Bool.or_eq_true] at h
  obtain ⟨⟨⟨⟨⟨⟨⟨⟨⟨⟨⟨⟨⟨h1, h2⟩, h4⟩, h5⟩, h6⟩, h7⟩, h8⟩, h9⟩, h10⟩, h11⟩, h12⟩, h14⟩, h15⟩, h13⟩ := h
  exact ⟨⟨h1, h2, h4, h5, h6, h7, h8, h9, h10, h11, fun e => by simpa [e] using h12, h14, h15⟩, h13⟩

/-- Those of MailboxRequestsAreAnswered for a request that is outstanding, or that its target turns away. -/
theorem wit_mbx_refused :
    (let s := mbx 0 1 0x0020 []
     s.chanDenied .manager 0 = false ∧ (s.setF MBX_DB.REQ 0 1).fb MBX_DB.REQ 0 = true ∧ s.mbxMsg 0 = 0x0020
      ∧ s.fb MBX_DB.REQ 0 = false)
    ∧ (mbx 0 7 0x0020 []).mbxTarget 0 = 7 ∧ (mbx 0 0 0x0020 []).mbxTarget 0 = 0
    ∧ ((mbx 0 4 0x0020 []).fwp 4).running = false ∧ bits ((mbx 0 1 0x0020 [] 2).mbxW0 0) 63 56 = 2
    ∧ msgTarget 0x0020 ≠ (mbx 0 2 0x0020 []).mbxTarget 0
    ∧ managerMsg 0x0020 = true ∧ msgTarget 0x0020 = (mbx 5 1 0x0020 []).mbxTarget 5 ∧ managerMsg 0x0001 = false
    ∧ msgTarget ((mbx 0 1 0x0099 []).mbxMsg 0) = 7 := by decide +kernel

/-- Those for versions, loads and restarts. -/
theorem wit_mbx_fw :
    asking (mbx 0 2 0x0001 []) .manager 0 0x0001 0 = true
    ∧ (let s := mbx 0 2 0x0010 (toLE 8 dramBase ++ toLE 8 4096)
       asking s .manager 0 0x0010 16 = true ∧ s.mbxArg 0 0 8 % 4096 = 0 ∧ s.mbxArg 0 8 8 = 4096
        ∧ ((s.setF MBX_DB.REQ 0 1).senderRead .manager (s.mbxArg 0 0 8) 4096).1.isSome = true)
    ∧ (let s := mbx 0 2 0x0011 [3, 0, 0, 0, 0, 0, 0, 0]
       asking s .manager 0 0x0011 8 = true ∧ s.mbxArg 0 0 1 = 3 ∧ s.mbxArg 0 1 1 = 0 ∧ (s.fwp 3).restarting = false
        ∧ (s.fwp 3).running = true ∧ ((s.modFw 3 fun x => { x with restarting := true }).fwp 3).restarting = true) := by
  decide +kernel

/-- Those for the power mode, the record and the billet. -/
theorem wit_mbx_power :
    (let s := mbx 0 1 0x0020 [1, 0, 0, 0, 0, 0, 0, 0]
     asking s .manager 0 0x0020 8 = true ∧ s.mbxArg 0 0 1 = 1 ∧ s.f SYS_FLCTRL.STATE 0 ≠ 0
      ∧ ((List.range 8).all fun f => (s.setF SYS_FLCTRL.STATE 0 0).f SYS_FLCTRL.STATE f == 0) = true)
    ∧ (let s := mbx 0 1 0x0030 (toLE 8 0 ++ toLE 8 dramBase ++ toLE 8 32768)
       asking s .manager 0 0x0030 24 = true ∧ s.mbxArg 0 0 1 = 0 ∧ s.mbxArg 0 8 8 % 64 = 0 ∧ s.mbxArg 0 16 4 = 32768
        ∧ s.sys.store.slot0.isNone = true ∧ s.sys.store.slot1.isNone = true ∧ s.sys.store.norCopy.isNone = true)
    ∧ (let s := mbx 0 1 0x0030 (toLE 8 2 ++ toLE 8 dramBase ++ toLE 8 32768)
       asking s .manager 0 0x0030 24 = true ∧ s.mbxArg 0 0 1 = 2)
    ∧ asking (mbx 0 1 0x0031 []) .manager 0 0x0031 0 = true ∧ asking (mbx 0 1 0x0032 []) .manager 0 0x0032 0 = true
    ∧ (mbx 0 1 0x0032 []).f SYS_BILLET.STATE 0 ≠ 1 ∧ ((mbx 0 1 0x0032 []).setF SYS_BILLET.STATE 0 1).f SYS_BILLET.STATE 0 = 1
    ∧ asking (mbx 0 1 0x0033 []) .manager 0 0x0033 0 = true := by decide +kernel

/-- A policy of key 9 for flask 0, and the requests that release it, configure port 1 and output 2. -/
def pol (mask : Nat) : KeyPolicy := { keyId := 9, flask := 0, usage := 0, measureMask := mask, debugOk := false, salt := 0, key := 5 }
def key9 (mask : Nat) : HeldKey := { tenant := 3, session := 1, pol := pol mask, digests := [] }
def keyReq (mask : Nat) : State := { mbx 0 2 0x0041 (toLE 4 9 ++ [0, 4, 0, 0]) with
    sys.trust.sessions := [(3, 1)], sys.trust.keys := [key9 mask] }
def ethReq (fl mtu : Nat) : State :=
  mbx 5 3 0x0050 (([1, 0] : List Byte) ++ toLE 2 1 ++ toLE 2 0 ++ toLE 2 fl ++ [1, 5] ++ toLE 2 mtu ++ zeros 12)
def dspReq : State :=
  mbx 5 6 0x0060 ([2, 1, 4, 8, 80, 0, 0, 0] ++ toLE 4 96 ++ (List.range 8).flatMap fun _ => toLE 2 10)

/-- Those for attestation, keys, ports and outputs. -/
theorem wit_mbx_cfg :
    (let s := mbx 0 2 0x0040 (zeros 32 ++ toLE 8 dramBase ++ toLE 4 6672 ++ zeros 4)
     asking s .manager 0 0x0040 48 = true ∧ s.mbxArg 0 0x20 8 % 64 = 0 ∧ s.mbxArg 0 0x28 4 = 6672)
    ∧ asking (keyReq 0) .manager 0 0x0041 8 = true ∧ (keyReq 0).mbxArg 0 4 1 = 0 ∧ (keyReq 0).mbxArg 0 5 1 = 4
    ∧ (keyReq 0).namedKey ((keyReq 0).mbxArg 0 0 4) 0 = some (key9 0) ∧ (keyReq 0).releaseOk (key9 0) 0 = true
    ∧ (keyReq 0).releaseOk (key9 0) 1 = false
    ∧ (let s := ethReq 1 1500
       asking s .manager 5 0x0050 24 = true ∧ s.mbxArg 5 0 1 = 1 ∧ s.mbxArg 5 1 1 = 0 ∧ s.mbxArg 5 2 2 = 1
        ∧ s.mbxArg 5 6 2 = 1 ∧ s.partOf .manager = s.owner 1 1 ∧ itemBad 1 0 0 (s.mbxBytes 5 24 16) = false
        ∧ itemBad 1 0 0 ((ethReq 1 63).mbxBytes 5 24 16) = true
        ∧ ({ s with net.ethStaged := putItem s.net.ethStaged { port := 1, sec := 0, idx := 0, bs := s.mbxBytes 5 24 16 } } : State).portBad
            1 = false
        ∧ s.partOf (.inst 0) ≠ s.owner 1 1)
    ∧ asking dspReq .manager 5 0x0060 28 = true ∧ dspReq.dspBad 5 = false ∧ dspReq.partOf .manager = dspReq.owner 4 2 := by
  decide +kernel

/-- R331, R332, R333: an answer, a dropped request, a wrong version, a restart and its end. -/
theorem test_mbx :
    after (.getVersion .manager 0) (mbx 0 2 0x0001 []) (fun t => t.fb MBX_DB.DONE 0 && t.mbxBytes 0 0x810 8 == [1, 0, 0, 0, 4, 0, 0, 0])
      = true
    ∧ after (.getVersion .manager 0) ((mbx 0 2 0x0001 []).setF MBX_DB.REQ 0 1) (fun t => t.f MBX_DB.DROPPED 0 == 1) = true
    ∧ after (.unknownMsgId .manager 5) (mbx 5 1 0x0001 [] 2) (fun t => t.mbxBytes 5 0x80D 1 == [2] && t.outbox == [.mbxIrq 5])
      = true
    ∧ after (.unknownMsgId .manager 5) (mbx 5 1 0x0099 []) (fun t => t.mbxBytes 5 0x80D 1 == [4]) = true
    ∧ after (.fwRestart .manager 0) (mbx 0 2 0x0011 [3, 0, 0, 0, 0, 0, 0, 0]) (fun t => (t.fwp 3).restarting
      && t.fb MBX_DB.REQ 0) = true
    ∧ after (.fwRestartDone 3 true) ((mbx 0 2 0x0011 []).modFw 3 fun x => { x with restarting := true, waiter := some 0 })
      (fun t => (t.fwp 3).running && t.fb MBX_DB.DONE 0) = true
    ∧ after (.fwLoad .manager 0 false) (mbx 0 2 0x0010 (toLE 8 (dramBase + 1) ++ toLE 8 4096)) (fun t =>
      t.mbxBytes 0 0x80D 1 == [4]) = true := by decide +kernel

/-- R325, R332, R334, R338 to R340, R287: STANDBY, a stored record that is absent, the billet, a key, a port and an output. -/
theorem test_mbx_work :
    after (.powerMode .manager 0) ((mbx 0 1 0x0020 [1, 0, 0, 0, 0, 0, 0, 0]).setF SYS_FLCTRL.STATE 0 0) (fun t =>
      t.sys.power.mode == .standby && !t.sys.power.socPwrEn) = true
    ∧ after (.fieldRecordRead .manager 0) (mbx 0 1 0x0030 (toLE 8 0 ++ toLE 8 dramBase ++ toLE 8 32768)) (fun t =>
      t.mbxBytes 0 0x80D 1 == [3]) = true
    ∧ after (.billetPrepare .manager 0) (mbx 0 1 0x0031 []) (fun t => t.sys.store.norCopy.isSome && !t.sys.power.billetPwrEn)
      = true
    ∧ after (.billetPair .manager 0 true) ((mbx 0 1 0x0032 []).setF SYS_BILLET.STATE 0 1) (fun t =>
      t.f SYS_BILLET.STATE 0 == 2 && t.sys.record.replacements == 1) = true
    ∧ after (.billetStatus .manager 0) (mbx 0 1 0x0033 []) (fun t => t.mbxBytes 0 0x80E 2 == [40, 0]) = true
    ∧ after (.keyRelease .manager 0) (keyReq 0) (fun t => NMap.find (t.flask 0).slots 4 == some { tenant := 3, keyId := 9 }) = true
    ∧ after (.ethPortCfg .manager 5) (ethReq 1 1500) (fun t => t.ethUp 1) = true
    ∧ after (.dspLinkCfg .manager 5) dspReq (fun t => (t.disp 2).linkUp) = true := by decide +kernel

/-- R371: the identification code, and the levels that the preloaded chain gives the safety pins. -/
theorem test_jtag :
    after .idcode up (fun t => t.outbox == [.tdo 0x19640B47]) = true
    ∧ after .bypass { up with sys.jtag := .highz } (fun t => t.outbox == [.tdo 0, .pin "SAFE_WARN_N" true, .pin "SAFE_FLT_N" true])
      = true
    ∧ after (.samplePreload [true, false, true] [false]) up (fun t => t.sys.chain == [false] && t.outbox == [.tdo 5]) = true
    ∧ after .highz up (fun t => t.outbox == [.tdo 0, .pin "SAFE_WARN_N" true, .pin "SAFE_FLT_N" true]) = true
    ∧ after .clamp up (fun t => t.sys.jtag == .clamp) = true ∧ after .extest up (fun t => t.sys.jtag == .extest) = true := by
  decide +kernel

/-! ## Steps -/

/-- Those of StepRunsTheFrontCommandOrIdles, CommandsCompleteAndQueuesAreWorkedOff and EveryStepKeepsTheFormsAndWhatLeft: a
tidy state with a queue of two commands, an empty queue, and a command that names no unit of the device. -/
theorem wit_queue :
    ({ State.reset with pending := [.tsclkEdge, .timeMessageSend] } : State).tidy = true
      ∧ ((step { State.reset with pending := [.tsclkEdge, .timeMessageSend] }) matches .next _) = true
      ∧ Instr.tsclkEdge.wf = true ∧ Instr.timeMessageSend.wf = true ∧ State.reset.pending = []
      ∧ (Instr.busOff 19).unitsOk = true ∧ (Instr.busOff 20).unitsOk = false := by decide +kernel

/-- Those of TsclkEdgeAddsTheIncrement: the last value of the counter before it wraps. -/
theorem wit_tsclkEdge :
    let s := { State.reset with clock.ns := 2 ^ 64 - 1, clock.frac := 2 ^ 16 - 1, clock.sub := 2 ^ 24 - 1 }
    s.sys.power.lost.isEmpty = true ∧ s.clock.ns < 2 ^ 64 ∧ s.clock.frac < 2 ^ 16 ∧ s.clock.sub < 2 ^ 24 := by decide +kernel

end Sys2Proof.Tests
end

section
/-! PROOFS. The time unit of chapter 13: the counter at a TSCLK edge (R277), and what a write of the servo's registers
by a PCIe host comes to (R225, R278). -/

namespace Sys2Proof.Machine

/-! ## The counter at a TSCLK edge (R277) -/

/-- A change of the time counter alone. -/
theorem leaves_clock (s : State) (c : ClockSt) : Leaves [.clock] noReg s { s with clock := c } := by
  refine ⟨fun p hp => ?_, fun _ _ _ => rfl⟩
  cases p
  case clock => simp at hp
  all_goals rfl

theorem State.leaves_edge (s : State) : Leaves [.clock] noReg s s.edge := leaves_clock s _

/-- The three parts of the counter keep their widths. -/
theorem State.edge_widths (s : State) :
    s.edge.clock.ns < 2 ^ 64 ∧ s.edge.clock.frac < 2 ^ 16 ∧ s.edge.clock.sub < 2 ^ 24 :=
  ⟨Nat.mod_lt _ (by decide), Nat.mod_lt _ (by decide), Nat.mod_lt _ (by decide)⟩

/-- Adding part by part, each carry into the next part above, is adding the whole numbers. -/
theorem sum_of_carries (ns fr su inc isub : Nat) :
    (ns + (fr + inc + (su + isub) / 2 ^ 24) / 2 ^ 16) * 2 ^ 40
        + (fr + inc + (su + isub) / 2 ^ 24) % 2 ^ 16 * 2 ^ 24 + (su + isub) % 2 ^ 24
      = ns * 2 ^ 40 + fr * 2 ^ 24 + su + inc * 2 ^ 24 + isub := by omega

/-- Nanoseconds that wrap at 2^64 wrap the whole counter at 2^104. -/
theorem wrap_of_ns (ns fr su : Nat) (hf : fr < 2 ^ 16) (hs : su < 2 ^ 24) :
    ns % 2 ^ 64 * 2 ^ 40 + fr * 2 ^ 24 + su = (ns * 2 ^ 40 + fr * 2 ^ 24 + su) % 2 ^ 104 := by omega

/-- R277: an edge adds INC and INC_SUB to the counter as one number. -/
theorem State.timeValue_edge (s : State) :
    timeValue s.edge = (timeValue s + s.f TIME_INC.INC 0 * 2 ^ 24 + s.f TIME_INC.INC_SUB 0) % 2 ^ 104 := by
  obtain ⟨-, hf, hs⟩ := s.edge_widths
  calc timeValue s.edge
      = _ := wrap_of_ns _ _ _ hf hs
    _ = _ := congrArg (· % 2 ^ 104) (sum_of_carries _ _ _ _ _)

/-- R15: while the clock of the time unit runs, TSCLK_EDGE is an edge. -/
theorem exec_tsclkEdge_running (s : State) (h : .tsclk ∉ s.sys.power.lost) : exec .tsclkEdge s = .next s.edge := by
  have hc : s.clockLost .tsclk = false := by simpa [State.clockLost] using h
  rw [exec_tsclkEdge, execTsclkEdge, hc]
  rfl

/-- Settles O8: the edge adds part by part with carries, which is adding the whole numbers (`sum_of_carries`), and the
nanoseconds alone wrap (`wrap_of_ns`). -/
theorem tsclkEdgeAddsTheIncrement : Obligations.TsclkEdgeAddsTheIncrement := by
  refine ⟨rfl, fun s hrun _ _ _ => ?_⟩
  obtain ⟨hns, hfrac, hsub⟩ := s.edge_widths
  exact ⟨s.edge, exec_tsclkEdge_running s hrun, s.timeValue_edge, hns, hfrac, hsub, rfl, rfl, s.leaves_edge⟩

/-! ## A PCIe host at a register outside the sprue page (R225) -/

/-- R347: a flagged access leaves every flag of SYS_REGERR but the one that it raises. -/
theorem State.regFlag_f_otherFlag (s : State) (x y : Fld) (m : Master) (o : Nat) (b c : Bool) (k : Nat) (hx : x.fits)
    (hxy : x.apart y) (hy : 61 ≤ y.lo) : (s.regFlag x m o b c).f y k = s.f y k := by
  have flag : ∀ (t : State) v, (t.setF x 0 v).f y k = t.f y k := fun t v => State.setF_f_apart t x y 0 k v hx hxy
  have below : ∀ (t : State) (z : Fld) v, z.fits → z.hi < 61 → (t.setF z 0 v).f y k = t.f y k :=
    fun t z v hz h => State.setF_f_apart t z y 0 k v hz (.inr (.inl (by omega)))
  unfold State.regFlag
  simp only [State.incSat_eq]
  split
  · rw [State.mgrIrq_f, below _ _ _ (by decide) (by decide), below _ _ _ (by decide) (by decide),
      below _ _ _ (by decide) (by decide), below _ _ _ (by decide) (by decide), below _ _ _ (by decide) (by decide), flag,
      below _ _ _ (by decide) (by decide)]
  · rw [flag, below _ _ _ (by decide) (by decide)]

/-- R225, R354: a write of a PCIe host to a register that its BAR0 does not show is denied. -/
theorem State.regWrite_hostBars (s : State) (r : Reg) (i : Nat) (m : Master) (h : Half) (v : Nat) (hl : s.live)
    (hm : hostBars r m = false) :
    s.regWrite r i m h v = s.regFlag SYS_REGERR.DENIED m (r.offset i + halfOff h) false r.inDoor := by
  have hp : s.permits r i m true (s.camPort r i h v) = false := by
    unfold State.permits
    rw [hm, Bool.false_and]
  unfold State.regWrite
  rw [if_neg (by simp [hl.1]), State.live_open s r hl, if_neg (by simp), hp]
  rfl

/-- A TIME_INC write of a PCIe host does not set REFUSED. -/
theorem timeIncWrite_host_keeps_refused (s t : State) (p f : Nat) (v : Word) (hl : s.live)
    (he : exec (.timeIncWrite (.host p f) v) s = .next t) : t.f SYS_REGERR.REFUSED 0 = s.f SYS_REGERR.REFUSED 0 := by
  rw [exec_timeIncWrite, execTimeIncWrite, State.regWrite_hostBars s .timeInc 0 _ .whole _ hl rfl] at he
  cases he
  exact State.regFlag_f_otherFlag _ _ _ _ _ _ _ _ (by decide) (by decide) (by decide)

/-- Refutes O10: SERVO never names a PCIe host, but its write of TIME_INC is stopped before it can be refused (R225 leaves
it the sprue page alone). At reset such a write sets DENIED, and REFUSED stays 0b. -/
theorem not_servoWritesAndHoldover : ¬ Obligations.ServoWritesAndHoldover := by
  unfold Obligations.ServoWritesAndHoldover
  rintro ⟨⟨-, -, otherMaster, -⟩, -⟩
  have live : State.reset.live := ⟨rfl, rfl, rfl⟩
  obtain ⟨⟨t, he, refused, -⟩, -⟩ := otherMaster State.reset (.host 0 0) 0 live rfl
  have kept := timeIncWrite_host_keeps_refused _ t 0 0 0 live he
  have reset0 : State.reset.f SYS_REGERR.REFUSED 0 = 0 := by decide
  omega

end Sys2Proof.Machine
end

section
/-! PROOFS. Register accesses of chapter 16: the path of an access to a register's address (R344, R354), a write that clears
EN (R373), and the one side effect of a read (R284, R343). -/

namespace Sys2Proof.Machine

/-! ## The path to a register (R344, R354) -/

/-- While no clock is lost, a write at a register's address is a write of that register. -/
theorem exec_registerWrite_reg (s : State) (m : Master) (addr o : Nat) (h : Half) (v : Word) (r : Reg) (i : Nat)
    (hl : s.live) (ha : addr % 8 = 0) (hp : s.place addr = .reg o) (hr : s.locAt o = .reg r i) :
    exec (.registerWrite m addr h v) s = .next (s.regWrite r i m h v.toNat) := by
  obtain ⟨hon, hlost, -⟩ := hl
  simp [exec_registerWrite, execRegisterWrite, State.busWrite, State.locWrite, State.locOk, State.clockLost, hon, hlost, ha,
    hp, hr]

/-- While no clock is lost, a read at a register's address is a read of that register. -/
theorem exec_deniedRead_reg (s : State) (m : Master) (addr o : Nat) (h : Half) (r : Reg) (i : Nat)
    (hl : s.live) (ha : addr % 8 = 0) (hp : s.place addr = .reg o) (hr : s.locAt o = .reg r i) :
    exec (.deniedRead m addr h) s = .next (s.readReg r i m h) := by
  obtain ⟨hon, hlost, -⟩ := hl
  simp [exec_deniedRead, execDeniedRead, State.busRead, State.locRead, State.locOk, State.clockLost, hon, hlost, ha, hp, hr]

/-- R354: a permitted read answers the register's value, after its side effect. -/
theorem State.readReg_permitted (s : State) (r : Reg) (i : Nat) (m : Master) (h : Half) (hl : s.live)
    (hp : s.permits r i m false (s.f DSP_CAMCTX0.PORT i) = true) :
    s.readReg r i m h = (s.readLatch r m).emit (.readData m (halfOf h (s.regRead r i m))) := by
  unfold State.readReg
  rw [State.live_open s r hl, if_neg (by simp), if_pos hp]

/-! ## The latch of TIME_NOW_FRAC (R284) -/

/-- A latch that is loaded holds the loaded fraction alone. -/
theorem mem_setLatch_self (m : Master) (v f : Nat) (ls : List (Master × Nat)) : (m, f) ∈ setLatch m v ls ↔ f = v := by
  simp [setLatch]

/-- The latches of the other masters are left. -/
theorem mem_setLatch_other (m k : Master) (v f : Nat) (ls : List (Master × Nat)) (hk : k ≠ m) :
    (k, f) ∈ setLatch m v ls ↔ (k, f) ∈ ls := by
  simp [setLatch, hk]

/-- From `s` to `t` the latch of `m` takes the fraction of the counter, and nothing else changes but what has left. -/
def Latched (m : Master) (s t : State) : Prop :=
  (∀ f, (m, f) ∈ t.clock.latch ↔ f = s.clock.frac)
    ∧ (∀ k f, k ≠ m → ((k, f) ∈ t.clock.latch ↔ (k, f) ∈ s.clock.latch))
    ∧ timeValue t = timeValue s ∧ t.clock.syncNs = s.clock.syncNs ∧ Leaves [.clock, .outbox] noReg s t

/-- R284: the side effect of a read of TIME_NOW_NS, and its answer. -/
theorem State.latched_readLatch (s : State) (m : Master) (o : Out) : Latched m s ((s.readLatch .timeNowNs m).emit o) := by
  refine ⟨fun f => mem_setLatch_self _ _ _ _, fun k f hk => mem_setLatch_other _ _ _ _ _ hk, rfl, rfl, ?_⟩
  have clock : Leaves [.clock, .outbox] noReg s (s.readLatch .timeNowNs m) :=
    (leaves_clock s _).mono (by simp) fun _ _ no => no
  exact clock.trans ((leaves_emit _ o).mono (by simp) fun _ _ no => no)

/-- R343: a read of another register has no side effect. -/
theorem State.readLatch_other (s : State) (r : Reg) (m : Master) (hr : r ≠ .timeNowNs) : s.readLatch r m = s := if_neg hr

/-- R15: while the clocks on the way into the time unit run, TIME_NOW_NS_READ loads the latch and answers the counter. -/
theorem exec_timeNowNsRead_running (s : State) (m : Master) (ht : .tsclk ∉ s.sys.power.lost)
    (hf : .fclk ∉ s.sys.power.lost) :
    exec (.timeNowNsRead m) s = .next ((s.readLatch .timeNowNs m).emit (.readData m s.clock.ns)) := by
  simp [exec_timeNowNsRead, execTimeNowNsRead, State.readLatch, State.clockLost, ht, hf]

/-- Settles O9: each of these reads is `readLatch` followed by the answer, and `readLatch` loads the latch for TIME_NOW_NS
and changes nothing for another register. -/
theorem onlyTimeReadsHaveASideEffect : Obligations.OnlyTimeReadsHaveASideEffect := by
  refine ⟨fun s m ht hf => ?_, fun s m addr o h r i hl ha hp hloc hperm => ?_⟩
  · exact ⟨_, exec_timeNowNsRead_running s m ht hf, rfl, s.latched_readLatch m _⟩
  · have read := exec_deniedRead_reg s m addr o h r i hl ha hp hloc
    rw [State.readReg_permitted s r i m h hl hperm] at read
    constructor
    · intro other
      rw [State.readLatch_other s r m other] at read
      exact ⟨_, read, rfl, leaves_emit s _⟩
    · rintro rfl
      exact ⟨_, read, s.latched_readLatch m _⟩

/-! ## A write that clears EN (R373) -/

/-- EN is one bit of its own map, which is neither a doorbell nor SYS_REGERR. -/
theorem enField_bit (r : Reg) (x : Fld) (hx : enField r = some x) :
    x.reg = r ∧ x.hi = x.lo ∧ x.lo < 64 ∧ r ≠ .sprDb ∧ r ≠ .mbxDb ∧ r ≠ .sysRegerr := by
  unfold enField at hx
  split at hx <;> cases hx <;> decide

/-- A write clears only the EN that its map has. -/
theorem State.clears_enField (s : State) (r : Reg) (i : Nat) (m : Master) (h : Half) (v : Nat) (x : Fld)
    (a : s.clears r i m h v x) : enField r = some x := by
  obtain ⟨-, -, -, clear, -⟩ := a
  unfold State.clearsEn at clear
  split at clear
  · split at clear
    · rw [← clear]
      assumption
    · cases clear
  · cases clear

/-- A bit that is put to 0b does not rise. -/
theorem rises_cleared (old k : Nat) : rises old (putBits old k k 0) k = false := by
  have zero : bit (putBits old k k 0) k = false := by
    unfold bit
    rw [bits_putBits _ _ _ _ (by omega), Nat.zero_mod]
    rfl
  simp [rises, zero]

/-- Disabling a queue shows in SPR_QSTAT alone. -/
theorem State.disableQueue_r (s : State) (n : Nat) (q : Reg) (j : Nat) (hq : q ≠ .sprQstat) :
    (s.disableQueue n).r q j = s.r q j := by
  unfold State.disableQueue State.showQueue
  simp only
  split
  · rfl
  · exact State.setF_r_ne _ _ _ _ _ _ fun e => hq e.1

/-- The state of a pool shows in ATT_ISTAT alone. -/
theorem State.showAtt_r (s : State) (i : Nat) (q : Reg) (j : Nat) (hq : q ≠ .attIstat) :
    (s.showAtt i).r q j = s.r q j := by
  have kept : ∀ (t : State) (x : Fld) v, x.reg = .attIstat → (t.setF x i v).r q j = t.r q j := fun t x v hx =>
    State.setF_r_ne _ _ _ _ _ _ fun e => hq (e.1.trans hx)
  unfold State.showAtt
  rw [kept _ _ _ rfl, kept _ _ _ rfl, kept _ _ _ rfl]

/-- A binding shows in SYS_INST alone. -/
theorem State.bindWrite_r (s : State) (old new : Nat) (q : Reg) (j : Nat) (hq : q ≠ .sysInst) :
    (s.bindWrite old new).r q j = s.r q j := by
  have kept : ∀ k v, (s.setF SYS_INST.TDI k v).r q j = s.r q j := fun k v => State.setF_r_ne _ _ _ _ _ _ fun e => hq e.1
  unfold State.bindWrite
  split
  · exact kept _ _
  · split
    · exact kept _ _
    · rfl

/-- Of what a change of EN starts, a clear starts the second part at most. -/
theorem State.r_of_enSwitch (s t u : State) (rise fall : Bool) (q : Reg) (j : Nat) (hrise : rise = false)
    (hu : u.r q j = s.r q j) : (if rise then t else if fall then u else s).r q j = s.r q j := by
  subst hrise
  cases fall
  · rfl
  · exact hu

/-- What a clear of EN starts shows in the status registers of queues, pools and instances alone. -/
theorem State.afterWrite_cleared_r (s : State) (r : Reg) (i : Nat) (m : Master) (old w : Nat) (x : Fld) (q : Reg) (j : Nat)
    (hx : enField r = some x) (hq : q ≠ .sprQstat ∧ q ≠ .attIstat ∧ q ≠ .sysInst) :
    (s.afterWrite r i m old (putBits old x.lo x.lo 0) w).r q j = s.r q j := by
  obtain ⟨queue, pool, inst⟩ := hq
  have still := rises_cleared old x.lo
  cases r <;> cases hx
  case sprQcfg => exact s.r_of_enSwitch _ _ _ _ q j still (s.disableQueue_r i q j queue)
  case attIpool => exact s.r_of_enSwitch _ _ _ _ q j still (s.showAtt_r i q j pool)
  case memRgn1 => exact s.r_of_enSwitch _ _ _ _ q j still rfl
  case sysVfmap => exact s.bindWrite_r old _ q j inst
  case dspCamctx0 => exact s.r_of_enSwitch _ _ _ _ q j still rfl
  case dspCamport | sysBrwin1 | ethRingcfg0 | canRingcfg0 | wskPortcfg | wskRoute | wskIn0 => rfl

/-- R373: a clearing write leaves its register with EN at 0b and every other bit as it was, and SYS_REGERR as it was. -/
theorem State.regWrite_clears_r (s : State) (r : Reg) (i : Nat) (m : Master) (h : Half) (v : Nat) (x : Fld)
    (a : s.clears r i m h v x) :
    (s.regWrite r i m h v).r r i = putBits (s.r r i) x.lo x.lo 0
      ∧ (s.regWrite r i m h v).r .sysRegerr 0 = s.r .sysRegerr 0 := by
  have hx := s.clears_enField r i m h v x a
  obtain ⟨-, -, hlo, hdb, hmbx, herr⟩ := enField_bit r x hx
  have hr : r ≠ .sprQstat ∧ r ≠ .attIstat ∧ r ≠ .sysInst := by
    refine ⟨?_, ?_, ?_⟩ <;> rintro rfl <;> cases hx
  rw [State.regWrite_clears s r i m h v x hdb hmbx a]
  constructor
  · rw [State.afterWrite_cleared_r _ r i m _ 0 x r i hx hr, State.setR_r, if_pos ⟨rfl, rfl⟩]
    exact Nat.mod_eq_of_lt (putBits_lt _ _ _ _ (by omega) hlo (s.r_lt r i))
  · rw [State.afterWrite_cleared_r _ r i m _ 0 x .sysRegerr 0 hx (by decide), State.setR_r,
      if_neg fun e => herr e.1.symm]

/-- Settles O7: the write puts 0b in the one bit of EN (`regWrite_clears_r`), which leaves every range beside that bit. -/
theorem clearingEnChangesNoOtherField : Obligations.ClearingEnChangesNoOtherField := by
  intro s m addr o h v r i x ha hp hloc a
  obtain ⟨hreg, hbit, -⟩ := enField_bit r x (s.clears_enField r i m h v.toNat x a)
  obtain ⟨cut, unflagged⟩ := s.regWrite_clears_r r i m h v.toNat x a
  refine ⟨_, exec_registerWrite_reg s m addr o h v r i a.1 ha hp hloc, ?_, fun hi lo _ beside => ?_, unflagged⟩
  · unfold State.fb State.f
    rw [hreg, cut, hbit, bits_putBits _ _ _ _ (by omega), Nat.zero_mod]
    rfl
  · rw [cut]
    rcases beside with above | below
    · exact bits_putBits_above _ _ _ _ _ _ (by omega) above
    · exact bits_putBits_below _ _ _ _ _ _ (by omega) below

end Sys2Proof.Machine
end

section
/-! PROOFS. What every operation of the model keeps: the queue of commands, the record of what has left, the counter of free
values, and the canonical forms. The many short proofs of these sections are elaborated one after another
(`Elab.async false`): each proof that waits for an equation of the model holds a thread. -/

namespace Sys2Proof.Machine

/-- A Weska port apart from the cells of this device that wait there. -/
def WskSt.link (w : WskSt) : WskSt := { w with localQ := [] }

/-- From `s` to `t` the queue of commands stays as it was, what has left the device stays recorded, the counter of free
values does not fall, and the canonical forms are kept; where `φ` holds, cells may have been added to those that wait at the
Weska ports, and nothing else has changed there. -/
structure Keeps (s t : State) (φ : Prop := False) : Prop where
  queue : t.pending = s.pending
  record : s.outbox <:+ t.outbox
  free : s.freeCtr ≤ t.freeCtr
  forms : s.tidy = true → t.tidy = true
  ports : φ → ∀ p, (t.wport p).link = (s.wport p).link

theorem Keeps.refl {φ : Prop} (s : State) : Keeps s s φ := ⟨rfl, List.suffix_refl _, Nat.le_refl _, id, fun _ _ => rfl⟩

theorem Keeps.trans {φ : Prop} {s t u : State} (h : Keeps s t φ) (g : Keeps t u φ) : Keeps s u φ :=
  ⟨g.queue.trans h.queue, h.record.trans g.record, h.free.trans g.free, g.forms ∘ h.forms, fun c p => (g.ports c p).trans (h.ports c p)⟩

/-! ## Canonical forms -/

/-- The forms of a tidy state, part by part. -/
theorem State.tidy_iff (s : State) :
    s.tidy = true ↔ regsWf none s.regs = true ∧ Memory.wf s.mem.cells = true ∧ NMap.wf 0 s.mem.mbx = true := by
  simp [State.tidy, and_assoc]

theorem regsWf_cons (lo : Option Nat) (k : Nat) (v : Word) (m : NMap Word) :
    regsWf lo ((k, v) :: m) = true
      ↔ NMap.above lo k ∧ v ≠ keyReset k ∧ (Reg.all[k % 128]?).isSome = true ∧ regsWf (some k) m = true := by
  cases lo <;> simp [regsWf, NMap.above, and_assoc]

theorem regsWf_mono (lo lo' : Option Nat) (m : NMap Word) (h : ∀ k, NMap.above lo k → NMap.above lo' k)
    (hm : regsWf lo m = true) : regsWf lo' m = true := by
  cases m with
  | nil => rfl
  | cons e m =>
    obtain ⟨k, v⟩ := e
    rw [regsWf_cons] at hm ⊢
    exact ⟨h k hm.1, hm.2⟩

theorem regsWf_filter (q : Nat × Word → Bool) (m : NMap Word) :
    ∀ lo, regsWf lo m = true → regsWf lo (m.filter q) = true := by
  induction m with
  | nil => exact fun _ h => h
  | cons e m ih =>
    obtain ⟨k, v⟩ := e
    intro lo h
    obtain ⟨above, value, known, rest⟩ := (regsWf_cons lo k v m).mp h
    by_cases hq : q (k, v) = true
    · rw [List.filter_cons_of_pos hq]
      exact (regsWf_cons lo k v _).mpr ⟨above, value, known, ih _ rest⟩
    · rw [List.filter_cons_of_neg hq]
      refine regsWf_mono (some k) lo _ (fun j hj l hl => ?_) (ih _ rest)
      exact (above l hl).trans (hj k rfl)

theorem regsWf_insert (i : Nat) (x : Word) (hx : x ≠ keyReset i) (hi : (Reg.all[i % 128]?).isSome = true) (m : NMap Word) :
    ∀ lo, NMap.above lo i → regsWf lo m = true → regsWf lo (NMap.insert m i x) = true := by
  induction m with
  | nil => exact fun lo above _ => (regsWf_cons lo i x []).mpr ⟨above, hx, hi, rfl⟩
  | cons e m ih =>
    obtain ⟨k, v⟩ := e
    intro lo above h
    obtain ⟨above', value, known, rest⟩ := (regsWf_cons lo k v m).mp h
    unfold NMap.insert
    split
    · subst ‹i = k›
      exact (regsWf_cons lo i x m).mpr ⟨above, hx, hi, rest⟩
    · split
      · refine (regsWf_cons lo i x _).mpr ⟨above, hx, hi, (regsWf_cons (some i) k v m).mpr ⟨?_, value, known, rest⟩⟩
        rintro l ⟨⟩
        assumption
      · refine (regsWf_cons lo k v _).mpr ⟨above', value, known, ih (some k) ?_ rest⟩
        rintro l ⟨⟩
        omega

/-- A register's number is in the table of register maps. -/
theorem Reg.key_known (r : Reg) (i : Nat) : (Reg.all[r.key i % 128]?).isSome = true := by
  have hn := r.num_lt
  have hk : r.key i % 128 = r.num := by unfold Reg.key; omega
  have hr : Reg.all[r.num]? = some r := by cases r <;> rfl
  rw [hk, hr]
  rfl

/-- A write of a register keeps the register file canonical. -/
theorem regsWf_putReg (m : NMap Word) (r : Reg) (i : Nat) (w : Word) (h : regsWf none m = true) :
    regsWf none (putReg m r i w) = true := by
  unfold putReg
  split
  · exact regsWf_filter _ m none h
  · rename_i hw
    rw [← keyReset_key r i] at hw
    exact regsWf_insert _ w hw (r.key_known i) m none (by rintro l ⟨⟩) h

/-! ## Changes of a part of the state -/

section
variable {b s : State} {φ : Prop}

/-- The state of a result that a match has taken apart. -/
theorem Keeps.of_eq {α : Type} {p : α × State} {a : α} (e : p = (a, s)) (h : Keeps b p.2 φ) : Keeps b s φ := by
  subst e
  exact h

theorem Keeps.of_eq₂ {α β : Type} {p : α × β × State} {a : α} {c : β} (e : p = (a, c, s)) (h : Keeps b p.2.2) : Keeps b s := by
  subst e
  exact h

/-- A change beside the queue, the record, the counter of free values, the register file, and memory's canonical maps. -/
theorem Keeps.beside {c : ClockSt} {m : MemSt} {w : WorkSt} {u : UnitSt} {d : DtuSt} {p : PixSt} {n : NetSt} {y : SysSt}
    (h : Keeps b s φ) (hc : m.cells = s.mem.cells := by rfl) (hm : m.mbx = s.mem.mbx := by rfl)
    (hn : φ → n.wsk = s.net.wsk := by exact fun _ => rfl) :
    Keeps b { s with clock := c, mem := m, work := w, units := u, dtu := d, pix := p, net := n, sys := y } φ := by
  refine ⟨h.queue, h.record, h.free, fun hb => ?_, fun c p => ?_⟩
  · simpa [State.tidy, hc, hm] using h.forms hb
  · rw [← h.ports c p, State.wport, State.wport, hn c]

theorem Keeps.ite {c : Prop} [Decidable c] {t : State} (h : Keeps b s φ) (g : Keeps b t φ) : Keeps b (if c then s else t) φ := by
  split
  · exact h
  · exact g

theorem Keeps.iteSnd {α : Type} {c : Prop} [Decidable c] {p q : α × State} (h : Keeps b p.2 φ) (g : Keeps b q.2 φ) :
    Keeps b (if c then p else q).2 φ := by
  split
  · exact h
  · exact g

theorem Keeps.iteSnd₂ {α β : Type} {c : Prop} [Decidable c] {p q : α × β × State} (h : Keeps b p.2.2) (g : Keeps b q.2.2) :
    Keeps b (if c then p else q).2.2 := by
  split
  · exact h
  · exact g

theorem Keeps.foldl {α : Type} {xs : List α} {g : State → α → State} (h : Keeps b s φ)
    (hg : ∀ x t, Keeps b t φ → Keeps b (g t x) φ) : Keeps b (xs.foldl g s) φ := by
  induction xs generalizing s with
  | nil => exact h
  | cons x xs ih => exact ih (hg x s h)

theorem Keeps.each {α : Type} {xs : List α} {g : State → α → State} (h : Keeps b s φ)
    (hg : ∀ x t, Keeps b t φ → Keeps b (g t x) φ) : Keeps b (s.each xs g) φ := h.foldl hg

theorem Keeps.whenB {c : Bool} {g : State → State} (h : Keeps b s φ) (hg : Keeps b (g s) φ) : Keeps b (s.whenB c g) φ := by
  cases c
  · exact h
  · exact hg

theorem Keeps.foldlSnd {α β : Type} {xs : List α} {g : β × State → α → β × State} {a : β × State} (h : Keeps b a.2)
    (hg : ∀ x t, Keeps b t.2 → Keeps b (g t x).2) : Keeps b (xs.foldl g a).2 := by
  induction xs generalizing a with
  | nil => exact h
  | cons x xs ih => exact ih (hg x a h)

theorem Keeps.foldlSnd₂ {α β γ : Type} {xs : List α} {g : γ × β × State → α → γ × β × State} {a : γ × β × State}
    (h : Keeps b a.2.2) (hg : ∀ x t, Keeps b t.2.2 → Keeps b (g t x).2.2) : Keeps b (xs.foldl g a).2.2 := by
  induction xs generalizing a with
  | nil => exact h
  | cons x xs ih => exact ih (hg x a h)

theorem Keeps.rdThen {α β : Type} {r : Rd α} {g : α → State → Rd β} (h : Keeps b r.2 φ)
    (hg : ∀ x t, Keeps b t φ → Keeps b (g x t).2 φ) : Keeps b (r.andThen g).2 φ := by
  unfold Rd.andThen
  split
  · exact hg _ _ h
  · exact h

theorem Keeps.rsThen {α β : Type} {r : Rs α} {g : α → State → Rs β} (h : Keeps b r.2)
    (hg : ∀ x t, Keeps b t → Keeps b (g x t).2) : Keeps b (r.andThen g).2 := by
  unfold Rs.andThen
  split
  · exact hg _ _ h
  · exact h

theorem Keeps.setR {g : Reg} {i v : Nat} (h : Keeps b s φ) : Keeps b (s.setR g i v) φ := by
  refine ⟨h.queue, h.record, h.free, fun hb => ?_, h.ports⟩
  have := h.forms hb
  rw [State.tidy_iff] at this ⊢
  exact ⟨regsWf_putReg _ g i _ this.1, this.2⟩

theorem Keeps.emit {o : Out} (h : Keeps b s φ) : Keeps b (s.emit o) φ :=
  ⟨h.queue, h.record.trans (List.suffix_cons _ _), h.free, h.forms, h.ports⟩

theorem Keeps.freeUp {n : Nat} (h : Keeps b s φ) : Keeps b { s with freeCtr := s.freeCtr + n } φ :=
  ⟨h.queue, h.record, h.free.trans (Nat.le_add_right _ _), h.forms, h.ports⟩

theorem Keeps.store {a : Nat} {bs : List Byte} (h : Keeps b s φ) : Keeps b (s.store a bs) φ := by
  refine ⟨h.queue, h.record, h.free, fun hb => ?_, h.ports⟩
  have := h.forms hb
  rw [State.tidy_iff] at this ⊢
  exact ⟨this.1, s.store_wf a bs this.2.1, this.2.2⟩

/-- Memory's part of another state that the same operations have led to. -/
theorem Keeps.withMem {t : State} {m : MemSt} (h : Keeps b s) (g : Keeps b t) (hc : m.cells = t.mem.cells := by rfl)
    (hm : m.mbx = t.mem.mbx := by rfl) : Keeps b { s with mem := m } := by
  refine ⟨h.queue, h.record, h.free, fun hb => ?_, h.ports⟩
  have hs := (State.tidy_iff s).mp (h.forms hb)
  have ht := (State.tidy_iff t).mp (g.forms hb)
  exact (State.tidy_iff _).mpr ⟨hs.1, hc ▸ ht.2.1, hm ▸ ht.2.2⟩

theorem putMbx_wf (bs : List Byte) :
    ∀ (m : NMap Byte) (a : Nat), NMap.wf 0 m = true → NMap.wf 0 (putMbx m a bs) = true := by
  induction bs with
  | nil => exact fun _ _ h => h
  | cons x bs ih => exact fun m a h => ih _ _ (NMap.wf_set _ m a x h)

/-- A write of a mailbox page. -/
theorem Keeps.putMbx {a : Nat} {bs : List Byte} (h : Keeps b s) :
    Keeps b { s with mem.mbx := Machine.putMbx s.mem.mbx a bs } := by
  refine ⟨h.queue, h.record, h.free, fun hb => ?_, h.ports⟩
  have hs := (State.tidy_iff s).mp (h.forms hb)
  exact (State.tidy_iff _).mpr ⟨hs.1, hs.2.1, putMbx_wf bs _ a hs.2.2⟩

/-- The mailbox pages as they were in a state before. -/
theorem Keeps.mbxOf {t : State} (h : Keeps b s) (g : Keeps b t) : Keeps b { s with mem.mbx := t.mem.mbx } := by
  refine ⟨h.queue, h.record, h.free, fun hb => ?_, h.ports⟩
  have hs := (State.tidy_iff s).mp (h.forms hb)
  have ht := (State.tidy_iff t).mp (g.forms hb)
  exact (State.tidy_iff _).mpr ⟨hs.1, hs.2.1, ht.2.2⟩

end
end Sys2Proof.Machine
end

section
/-! PROOFS. What the operations keep: the shared operations (Sys2Proof/Machine/Ops.lean). -/

namespace Sys2Proof.Machine

section
set_option Elab.async false
variable {b s : State} {φ : Prop}

theorem Keeps.setF {x : Fld} {i v : Nat} (h : Keeps b s φ) : Keeps b (s.setF x i v) φ :=
  h.setR

theorem Keeps.incSat {x : Fld} {i n : Nat} (h : Keeps b s φ) : Keeps b (s.incSat x i n) φ :=
  h.setF

theorem Keeps.incWrap {x : Fld} {i n : Nat} (h : Keeps b s φ) : Keeps b (s.incWrap x i n) φ :=
  h.setF

theorem Keeps.mgrIrq {ident unit : Nat} (h : Keeps b s φ) : Keeps b (s.mgrIrq ident unit) φ :=
  .ite h.emit h.beside

theorem Keeps.fresh (h : Keeps b s φ) : Keeps b s.fresh.2 φ :=
  h.freeUp

theorem Keeps.freshBytes {n : Nat} (h : Keeps b s φ) : Keeps b (s.freshBytes n).2 φ :=
  h.freeUp

theorem Keeps.setArr {a : Nat} {x : ArraySt} (h : Keeps b s) : Keeps b (s.setArr a x) :=
  h.beside

theorem Keeps.modArr {a : Nat} {f : ArraySt → ArraySt} (h : Keeps b s) : Keeps b (s.modArr a f) :=
  h.setArr

theorem Keeps.modFlask {f : Nat} {g : FlaskSt → FlaskSt} (h : Keeps b s) : Keeps b (s.modFlask f g) :=
  h.beside

theorem Keeps.modVec {e : Nat} {g : VecSt → VecSt} (h : Keeps b s) : Keeps b (s.modVec e g) :=
  h.beside

theorem Keeps.modRt {c : Nat} {g : RtSt → RtSt} (h : Keeps b s) : Keeps b (s.modRt c g) :=
  h.beside

theorem Keeps.modPour {g : PourSt → PourSt} (h : Keeps b s) : Keeps b (s.modPour g) :=
  h.beside

theorem Keeps.modQ {n : Nat} {g : QueueSt → QueueSt} (h : Keeps b s) : Keeps b (s.modQ n g) :=
  h.beside

theorem Keeps.modJob {j : Nat} {g : Job → Job} (h : Keeps b s φ) : Keeps b (s.modJob j g) φ :=
  h.beside

theorem Keeps.modJobs {p : Job → Bool} {g : Job → Job} (h : Keeps b s) : Keeps b (s.modJobs p g) :=
  h.beside

theorem Keeps.setCtx {c : Nat} {x : Ctx} (h : Keeps b s φ) : Keeps b (s.setCtx c x) φ :=
  h.beside

theorem Keeps.modCam {c : Nat} {g : CamSt → CamSt} (h : Keeps b s) : Keeps b (s.modCam c g) :=
  h.beside

theorem Keeps.modDisp {o : Nat} {g : DispSt → DispSt} (h : Keeps b s) : Keeps b (s.modDisp o g) :=
  h.beside

theorem Keeps.modCan {c : Nat} {g : CanSt → CanSt} (h : Keeps b s) : Keeps b (s.modCan c g) :=
  h.beside

theorem Keeps.modTun {t : Nat} {g : Tunnel → Tunnel} (h : Keeps b s) : Keeps b (s.modTun t g) :=
  h.beside

theorem Keeps.modWsk {p : Nat} {g : WskSt → WskSt} (h : Keeps b s) : Keeps b (s.modWsk p g) :=
  h.beside (hn := False.elim)

/-- Cells are added to those that wait at a port. -/
theorem Keeps.wskWaits {p : Nat} {g : WskSt → WskSt} (h : Keeps b s φ) (hg : ∀ w, (g w).link = w.link) : Keeps b (s.modWsk p g) φ := by
  refine ⟨h.queue, h.record, h.free, h.forms, fun c q => ?_⟩
  rw [← h.ports c q, State.modWsk_wport]
  split <;> rename_i e
  · rw [hg, e]
  · rfl

theorem Keeps.modFw {p : Nat} {g : FwProc → FwProc} (h : Keeps b s) : Keeps b (s.modFw p g) :=
  h.beside

theorem Keeps.modRec {g : FieldRecord → FieldRecord} (h : Keeps b s φ) : Keeps b (s.modRec g) φ :=
  h.beside

theorem Keeps.modPower {g : PowerSt → PowerSt} (h : Keeps b s φ) : Keeps b (s.modPower g) φ :=
  h.beside

theorem Keeps.modTrust {g : TrustSt → TrustSt} (h : Keeps b s) : Keeps b (s.modTrust g) :=
  h.beside

end

end Sys2Proof.Machine
end

section
/-! PROOFS. What the operations keep: flags, events and interrupts (Sys2Proof/Machine/Flags.lean). -/

namespace Sys2Proof.Machine

section
set_option Elab.async false
variable {b s : State} {φ : Prop}

theorem Keeps.logEvent {code unit detail : Nat} (h : Keeps b s φ) : Keeps b (s.logEvent code unit detail) φ :=
  h.modRec

theorem Keeps.recCount {k : Nat} (h : Keeps b s) : Keeps b (s.recCount k) :=
  h.modRec

theorem Keeps.safePin {name : String} {level : Bool} (h : Keeps b s φ) : Keeps b (s.safePin name level) φ :=
  .ite h h.emit

theorem Keeps.assertFlt (h : Keeps b s φ) : Keeps b s.assertFlt φ :=
  .ite h h.setF.modPower.safePin.logEvent

theorem Keeps.updateWarn (h : Keeps b s φ) : Keeps b s.updateWarn φ :=
  .ite h.setF h.setF.modPower.safePin

theorem Keeps.safety {x : Fld} {unit detail : Nat} (h : Keeps b s φ) : Keeps b (s.safety x unit detail) φ := by
  unfold State.safety
  refine .emit ?_
  refine .mgrIrq ?_
  refine .ite ?_ ?_
  · refine .assertFlt ?_
    refine .logEvent ?_
    split
    · exact h.setF
    · exact h.setF.fresh
  · refine .updateWarn ?_
    refine .logEvent ?_
    split
    · exact h.setF
    · exact h.setF.fresh

theorem Keeps.regFlag {x : Fld} {m : Master} {off : Nat} {read db : Bool} (h : Keeps b s) :
    Keeps b (s.regFlag x m off read db) :=
  .ite h.incSat.setF.setF.setF.setF.setF.setF.mgrIrq h.incSat.setF

end

end Sys2Proof.Machine
end

section
/-! PROOFS. What the operations keep: the memory gates (Sys2Proof/Machine/Gates.lean). -/

namespace Sys2Proof.Machine

section
set_option Elab.async false
variable {b s : State} {φ : Prop}

theorem Keeps.setGate {g : Nat} {x : Nat × Nat × Nat × Bool} (h : Keeps b s φ) : Keeps b (s.setGate g x) φ :=
  h.beside

theorem Keeps.setGateWait {g : Nat} {x : List Nat} (h : Keeps b s φ) : Keeps b (s.setGateWait g x) φ :=
  h.beside

theorem Keeps.loadGate {g : Nat} (h : Keeps b s) : Keeps b (s.loadGate g) :=
  h.beside

theorem Keeps.loadRt {m : Nat} (h : Keeps b s) : Keeps b (s.loadRt m) :=
  h.beside

theorem Keeps.loadWin {g : Nat} (h : Keeps b s) : Keeps b (s.loadWin g) :=
  h.beside

theorem Keeps.gateLeave {g c : Nat} (h : Keeps b s φ) : Keeps b (s.gateLeave g c) φ :=
  .ite h.setGate h.setGate

theorem Keeps.gateReq {g bytes : Nat} (h : Keeps b s φ) : Keeps b (s.gateReq g bytes) φ :=
  .ite h (.ite h.gateLeave h.setGateWait)

theorem Keeps.gateDrain {g : Nat} {cs : List Nat} (h : Keeps b s) : Keeps b (gateDrain g cs s) := by
  induction cs generalizing s with
  | nil => exact h.setGateWait
  | cons c cs ih => exact .ite (ih h.gateLeave) h.setGateWait

theorem Keeps.refillGate {g : Nat} (h : Keeps b s) : Keeps b (s.refillGate g) :=
  .ite h.loadGate.setGate h.loadGate.setGate.gateDrain

theorem Keeps.rtRequest {m bytes : Nat} (h : Keeps b s φ) : Keeps b (rtRequest m bytes s) φ :=
  .ite h.beside h.setF

theorem Keeps.rtRequests {m n : Nat} (h : Keeps b s φ) : Keeps b (rtRequests m n s) φ :=
  h.each (fun _ _ h₁ => h₁.rtRequest)

theorem Keeps.rtCharge {t : State} {s : State} {m n : Nat} (h : Keeps b t φ) : Keeps b (t.rtCharge s m n) φ :=
  h.beside.rtRequests

theorem Keeps.windowEndGo {g : Nat} (h : Keeps b s) : Keeps b (windowEndGo g s) :=
  .setGate (.loadWin (.ite h.setF.incSat.mgrIrq h))

end

end Sys2Proof.Machine
end

section
/-! PROOFS. What the operations keep: ring transfers (Sys2Proof/Machine/Ring.lean). -/

namespace Sys2Proof.Machine

section
set_option Elab.async false
variable {b s : State} {φ : Prop}

theorem Keeps.wskLocal {p : Nat} {c : Cell} (h : Keeps b s φ) : Keeps b (s.wskLocal p c) φ :=
  h.wskWaits fun _ => rfl

theorem Keeps.wskOriginate {dest vc : Nat} {body : CellBody} (h : Keeps b s φ) : Keeps b (s.wskOriginate dest vc body) φ := by
  unfold State.wskOriginate
  split
  · exact h.wskLocal
  · exact h.incSat

theorem Keeps.wskBroadcast {vc : Nat} {body : CellBody} (h : Keeps b s φ) : Keeps b (s.wskBroadcast vc body) φ :=
  h.each (fun _ _ h₁ => h₁.wskLocal)

theorem Keeps.farSend {n pa : Nat} {data : Option (List Byte)} {bytes : Nat} {np : Bool} {tag : Nat} {who : Option Nat}
    (h : Keeps b s φ) :
    Keeps b (s.farSend n pa data bytes np tag who) φ := by
  unfold State.farSend
  split
  · rename_i e
    split <;> exact h.wskOriginate
  · rename_i e
    split
    · exact h.emit.emit
    · exact h.emit

end

end Sys2Proof.Machine
end

section
/-! PROOFS. What the operations keep: memory accesses (Sys2Proof/Machine/Memory.lean). -/

namespace Sys2Proof.Machine

section
set_option Elab.async false
variable {b s : State} {φ : Prop}

theorem Keeps.addFlips {l : Nat} {data : List (Nat × Nat × Nat)} {check : List (Nat × Nat)} (h : Keeps b s) :
    Keeps b (s.addFlips l data check) :=
  h.beside

theorem Keeps.countCorrected {ch sub : Nat} (h : Keeps b s φ) : Keeps b (s.countCorrected ch sub) φ := by
  unfold State.countCorrected
  exact h.incWrap.fresh.modRec

theorem Keeps.countUncorr {ch sub : Nat} (h : Keeps b s φ) : Keeps b (s.countUncorr ch sub) φ :=
  h.incSat.modRec.safety

theorem Keeps.mended {l : Nat} (h : Keeps b s φ) : Keeps b (s.mended l) φ :=
  h.beside

theorem Keeps.eccRead {l : Nat} (h : Keeps b s φ) : Keeps b (s.eccRead l).2 φ :=
  .iteSnd h (.iteSnd h.countUncorr ((h.foldl (fun _ _ h₁ => h₁.countCorrected)).mended))

theorem Keeps.poisonLine {l : Nat} (h : Keeps b s φ) : Keeps b (s.poisonLine l) φ :=
  h.beside

theorem Keeps.freshLine {l : Nat} (h : Keeps b s φ) : Keeps b (s.freshLine l) φ :=
  h.beside

theorem Keeps.lineStored {l : Nat} (h : Keeps b s φ) : Keeps b (s.lineStored l) φ := by
  unfold State.lineStored
  dsimp only
  split
  · exact h.freshLine.store
  · rename_i e
    split
    · exact h.freshLine.store.freshLine
    · exact h.freshLine

theorem Keeps.integrityFail {l part : Nat} (h : Keeps b s φ) : Keeps b (s.integrityFail l part) φ :=
  h.poisonLine.mgrIrq

theorem Keeps.dramLine {l : Nat} (h : Keeps b s φ) : Keeps b (s.dramLine l).2 φ := by
  unfold State.dramLine
  split
  · rename_i e
    exact .ite (h.eccRead.of_eq e) ((h.eccRead.of_eq e).store)
  · rename_i e
    split
    · exact (h.eccRead.of_eq e).poisonLine
    · split
      · rename_i e₁
        exact .poisonLine (.of_eq e₁ (.iteSnd (h.eccRead.of_eq e) ((h.eccRead.of_eq e).eccRead)))
      · rename_i e₁
        exact .freshLine (.store (.modRec (.of_eq e₁ (.iteSnd (h.eccRead.of_eq e) ((h.eccRead.of_eq e).eccRead)))))

theorem Keeps.fetchLine {part l : Nat} (h : Keeps b s φ) : Keeps b (s.fetchLine part l).2 φ := by
  unfold State.fetchLine
  refine .iteSnd h ?_
  split
  · rename_i e
    exact h.dramLine.of_eq e
  · rename_i e
    exact .iteSnd (h.dramLine.of_eq e) ((h.dramLine.of_eq e).integrityFail)

theorem Keeps.updateOcc (h : Keeps b s φ) : Keeps b s.updateOcc φ :=
  h.each (fun _ _ h₁ => h₁.setF)

theorem Keeps.evict {l : Nat} (h : Keeps b s φ) : Keeps b (s.evict l) φ := by
  unfold State.evict
  split
  · exact h
  · exact .ite h.beside.lineStored h.beside

theorem Keeps.touch {part l : Nat} {dirty : Bool} (h : Keeps b s φ) : Keeps b (s.touch part l dirty) φ := by
  unfold State.touch
  refine .ite h.beside.beside ?_
  split
  · exact .ite h.beside.lineStored h.beside
  · rename_i e
    refine .updateOcc ?_
    refine .beside ?_
    split
    · exact h.beside.evict
    · exact h.beside

theorem Keeps.dropHolders {l : Nat} (h : Keeps b s φ) : Keeps b (s.dropHolders l) φ :=
  h.beside

theorem Keeps.shareLine {l : Nat} (h : Keeps b s φ) : Keeps b (s.shareLine l) φ :=
  .ite h.beside h

theorem Keeps.dramGet {part pa n l : Nat} (h : Keeps b s φ) : Keeps b (s.dramGet part pa n l).2 φ := by
  unfold State.dramGet
  refine .iteSnd h.touch ?_
  refine .iteSnd h ?_
  split
  · rename_i e
    exact (h.fetchLine.of_eq e).touch
  · rename_i e
    exact h.fetchLine.of_eq e

theorem Keeps.dramPut {part pa : Nat} {bs : List Byte} {l : Nat} (h : Keeps b s φ) : Keeps b (s.dramPut part pa bs l).2 φ := by
  unfold State.dramPut
  refine .iteSnd h.dropHolders.store.touch ?_
  refine .iteSnd h ?_
  split
  · rename_i e
    exact (((h.fetchLine.of_eq e).dropHolders).store).touch
  · rename_i e
    exact (h.fetchLine.of_eq e).integrityFail
  · rename_i e
    exact h.fetchLine.of_eq e

theorem Keeps.lineRead {part pa n : Nat} {who : Option Nat} (h : Keeps b s φ) : Keeps b (lineRead s part pa n who).2 φ := by
  unfold Machine.lineRead
  split
  · exact .iteSnd h (.iteSnd h h.gateReq.shareLine.dramGet)
  · rename_i e
    split
    · exact .iteSnd h (.iteSnd h h.gateReq.farSend.freshBytes.beside)
    · exact h
  · exact h

theorem Keeps.lineWrite {part pa : Nat} {bs : List Byte} {who : Option Nat} (h : Keeps b s φ) :
    Keeps b (lineWrite s part pa bs who).2 φ := by
  unfold Machine.lineWrite
  split
  · exact .iteSnd h (.iteSnd h h.gateReq.dramPut)
  · rename_i e
    split
    · exact .iteSnd h (.iteSnd h h.gateReq.farSend)
    · exact h
  · exact h

theorem Keeps.physReadL {part : Nat} {cs : List (Nat × Nat)} (h : Keeps b s φ) : Keeps b (physReadL part cs s).2 φ := by
  induction cs generalizing s with
  | nil => exact h
  | cons c cs ih =>
    unfold Machine.physReadL
    split
    · rename_i e
      have h₁ := h.lineRead.of_eq e
      split
      · rename_i e'
        exact (ih h₁).of_eq e'
      · exact ih h₁
    · exact h.lineRead

theorem Keeps.physRead {part a n : Nat} (h : Keeps b s φ) : Keeps b (physRead s part a n).2 φ :=
  h.physReadL

theorem Keeps.physWriteL {part : Nat} {cs : List (Nat × Nat)} {bs : List Byte} (h : Keeps b s φ) :
    Keeps b (physWriteL part cs bs s).2 φ := by
  induction cs generalizing s bs with
  | nil => exact h
  | cons c cs ih =>
    unfold Machine.physWriteL
    split
    · rename_i e
      exact ih (h.lineWrite.of_eq e)
    · exact h.lineWrite

theorem Keeps.physWrite {part a : Nat} {bs : List Byte} (h : Keeps b s φ) : Keeps b (physWrite s part a bs).2 φ :=
  h.physWriteL

end

end Sys2Proof.Machine
end

section
/-! PROOFS. What the operations keep: translation and the DTU (Sys2Proof/Machine/Dtu.lean). -/

namespace Sys2Proof.Machine

section
set_option Elab.async false
variable {b s : State} {φ : Prop}

theorem Keeps.walkRead {part pa : Nat} (h : Keeps b s φ) : Keeps b (walkRead s part pa).2 φ := by
  unfold Machine.walkRead
  split
  · rename_i e
    exact h.physRead.of_eq e
  · rename_i e
    exact h.physRead.of_eq e

theorem Keeps.dcAddr {part dev : Nat} (h : Keeps b s φ) : Keeps b (s.dcAddr part dev).2 φ := by
  unfold State.dcAddr
  dsimp only
  split
  · exact .iteSnd h h
  · rename_i e
    split
    · rename_i e₁
      exact .iteSnd (h.walkRead.of_eq e₁) (.iteSnd (h.walkRead.of_eq e₁) (h.walkRead.of_eq e₁))
    · rename_i e₁
      exact h.walkRead.of_eq e₁
  · exact h

theorem Keeps.readDc {part dev : Nat} (h : Keeps b s φ) : Keeps b (s.readDc part dev).2 φ := by
  unfold State.readDc
  split
  · rename_i e
    split
    · rename_i e₁
      exact .iteSnd (((h.dcAddr.of_eq e).physRead).of_eq e₁) (.iteSnd (((h.dcAddr.of_eq e).physRead).of_eq e₁)
          (((h.dcAddr.of_eq e).physRead).of_eq e₁))
    · rename_i e₁
      exact ((h.dcAddr.of_eq e).physRead).of_eq e₁
  · rename_i e
    exact h.dcAddr.of_eq e

theorem Keeps.devCtx {part dev : Nat} (h : Keeps b s φ) : Keeps b (s.devCtx part dev).2 φ := by
  unfold State.devCtx
  split
  · exact h
  · rename_i e
    split
    · rename_i e₁
      exact (h.readDc.of_eq e₁).beside
    · exact h.readDc

theorem Keeps.walkTable {fetch : Nat → State → XRes Nat} {pf : XFault} {x4 : Bool} {top addr lv base : Nat} (h : Keeps b s φ)
    (hfetch : ∀ x t, Keeps b t φ → Keeps b (fetch x t).2 φ) : Keeps b (walkTable fetch pf x4 top addr lv base s).2 φ := by
  induction lv generalizing s base with
  | zero =>
    unfold Machine.walkTable
    dsimp only
    split
    · rename_i e
      exact (hfetch _ _ h).of_eq e
    · rename_i e
      have h₁ := (hfetch _ _ h).of_eq e
      exact .iteSnd h₁ (.iteSnd (.iteSnd h₁ h₁) h₁)
  | succ lv ih =>
    unfold Machine.walkTable
    dsimp only
    split
    · rename_i e
      exact (hfetch _ _ h).of_eq e
    · rename_i e
      have h₁ := (hfetch _ _ h).of_eq e
      exact .iteSnd h₁ (.iteSnd (.iteSnd h₁ h₁) (ih h₁))

theorem Keeps.dirtyLog {inst gpa level : Nat} (h : Keeps b s φ) : Keeps b (s.dirtyLog inst gpa level) φ :=
  .ite h (.ite h.setF h.physWrite.setF)

theorem Keeps.fetchPte {part : Nat} {write : Bool} {a : Nat} (h : Keeps b s φ) : Keeps b (fetchPte part write a s).2 φ := by
  unfold Machine.fetchPte
  split
  · rename_i e
    exact h.walkRead.of_eq e
  · rename_i e
    exact h.walkRead.of_eq e

theorem Keeps.gXlate {part inst : Nat} {dc : DevCtx} {gpa : Nat} {write : Bool} {pf : XFault} (h : Keeps b s φ) :
    Keeps b (s.gXlate part inst dc gpa write pf).2 φ := by
  unfold State.gXlate
  refine .iteSnd h ?_
  split
  · exact h
  · rename_i e
    refine .iteSnd h ?_
    split
    · rename_i e₁
      exact (h.walkTable (fun _ _ h₁ => h₁.fetchPte)).of_eq e₁
    · rename_i e₁
      exact .iteSnd ((h.walkTable (fun _ _ h₁ => h₁.fetchPte)).of_eq e₁) (.ite (.dirtyLog (.ite ((h.walkTable
          (fun _ _ h₁ => h₁.fetchPte)).of_eq e₁) (((h.walkTable (fun _ _ h₁ => h₁.fetchPte)).of_eq e₁).physWrite))) (.ite
          ((h.walkTable (fun _ _ h₁ => h₁.fetchPte)).of_eq e₁) (((h.walkTable
          (fun _ _ h₁ => h₁.fetchPte)).of_eq e₁).physWrite)))

theorem Keeps.implicitXlate {part inst : Nat} {dc : DevCtx} {gpa : Nat} {access write : Bool} (h : Keeps b s φ) :
    Keeps b (s.implicitXlate part inst dc gpa access write).2 φ := by
  unfold State.implicitXlate
  split
  · rename_i e
    exact .iteSnd (h.gXlate.of_eq e) (h.gXlate.of_eq e)
  · rename_i e
    exact h.gXlate.of_eq e

theorem Keeps.fetchS1 {part inst : Nat} {dc : DevCtx} {access : Bool} {a : Nat} (h : Keeps b s φ) :
    Keeps b (fetchS1 part inst dc access a s).2 φ := by
  unfold Machine.fetchS1
  split
  · rename_i e
    exact (h.implicitXlate.of_eq e).fetchPte
  · rename_i e
    exact h.implicitXlate.of_eq e

theorem Keeps.sXlate {part inst : Nat} {dc : DevCtx} {va : Nat} {write : Bool} (h : Keeps b s φ) :
    Keeps b (s.sXlate part inst dc va write).2 φ := by
  unfold State.sXlate
  refine .iteSnd h ?_
  split
  · exact h
  · rename_i e
    refine .iteSnd h ?_
    split
    · rename_i e₁
      exact (h.walkTable (fun _ _ h₁ => h₁.fetchS1)).of_eq e₁
    · rename_i e₁
      refine .iteSnd ((h.walkTable (fun _ _ h₁ => h₁.fetchS1)).of_eq e₁) ?_
      refine .iteSnd ((h.walkTable (fun _ _ h₁ => h₁.fetchS1)).of_eq e₁) ?_
      split
      · rename_i e₂
        exact ((((h.walkTable (fun _ _ h₁ => h₁.fetchS1)).of_eq e₁).implicitXlate).of_eq e₂).physWrite
      · rename_i e₂
        exact (((h.walkTable (fun _ _ h₁ => h₁.fetchS1)).of_eq e₁).implicitXlate).of_eq e₂

theorem Keeps.dtuFault {inst va : Nat} {write : Bool} {e : XFault} (h : Keeps b s φ) :
    Keeps b (s.dtuFault inst va write e) φ := by
  unfold State.dtuFault
  dsimp only
  refine .mgrIrq ?_
  refine .ite h.beside ?_
  refine .ite h.beside.setR ?_
  split
  · rename_i e
    exact (h.beside.physWrite.of_eq e).setR
  · rename_i e
    exact (h.beside.physWrite.of_eq e).setR

theorem Keeps.walkBoth {flask inst : Nat} {dc : DevCtx} {va : Nat} {write : Bool} (h : Keeps b s φ) :
    Keeps b (s.walkBoth flask inst dc va write).2 φ := by
  unfold State.walkBoth
  split
  · rename_i e
    split
    · rename_i e₁
      exact ((h.sXlate.of_eq e).gXlate).of_eq e₁
    · rename_i e₁
      exact ((h.sXlate.of_eq e).gXlate).of_eq e₁
  · rename_i e
    exact h.sXlate.of_eq e

theorem Keeps.rawXlate {inst va : Nat} {write : Bool} (h : Keeps b s φ) : Keeps b (s.rawXlate inst va write).2 φ := by
  unfold State.rawXlate
  split
  · exact h
  · exact h
  · rename_i e
    split
    · exact h
    · dsimp only
      split
      · rename_i e₁
        exact h.devCtx.of_eq e₁
      · rename_i e₁
        split
        · rename_i e₂
          exact ((h.devCtx.of_eq e₁).walkBoth).of_eq e₂
        · rename_i e₂
          exact (((h.devCtx.of_eq e₁).walkBoth).of_eq e₂).beside

theorem Keeps.xlate {inst va : Nat} {write : Bool} (h : Keeps b s φ) : Keeps b (s.xlate inst va write).2 φ := by
  unfold State.xlate
  split
  · rename_i e
    exact .iteSnd (h.rawXlate.of_eq e) ((h.rawXlate.of_eq e).dtuFault)
  · rename_i e
    exact .ite ((h.rawXlate.of_eq e).dtuFault) (h.rawXlate.of_eq e)

theorem Keeps.instReadL {inst : Nat} {cs : List (Nat × Nat)} (h : Keeps b s φ) : Keeps b (instReadL inst cs s).2 φ := by
  induction cs generalizing s with
  | nil => exact h
  | cons c cs ih =>
    unfold Machine.instReadL
    split
    · rename_i e
      exact h.xlate.of_eq e
    · rename_i e
      have h₁ := h.xlate.of_eq e
      split
      · rename_i e'
        have h₂ := h₁.lineRead.of_eq e'
        split
        · rename_i e''
          exact (ih h₂).of_eq e''
        · exact ih h₂
      · exact h₁.lineRead

theorem Keeps.instRead {inst va n : Nat} (h : Keeps b s φ) : Keeps b (instRead s inst va n).2 φ :=
  h.instReadL

theorem Keeps.instWriteL {inst : Nat} {cs : List (Nat × Nat)} {bs : List Byte} (h : Keeps b s φ) :
    Keeps b (instWriteL inst cs bs s).2 φ := by
  induction cs generalizing s bs with
  | nil => exact h
  | cons c cs ih =>
    unfold Machine.instWriteL
    split
    · rename_i e
      exact h.xlate.of_eq e
    · rename_i e
      have h₁ := h.xlate.of_eq e
      split
      · rename_i e'
        exact ih (h₁.lineWrite.of_eq e')
      · exact h₁.lineWrite

theorem Keeps.instWrite {inst va : Nat} {bs : List Byte} (h : Keeps b s φ) : Keeps b (instWrite s inst va bs).2 φ :=
  h.instWriteL

theorem Keeps.instRead64 {inst va : Nat} (h : Keeps b s) : Keeps b (instRead64 s inst va).2 := by
  unfold Machine.instRead64
  split
  · rename_i e
    exact h.instRead.of_eq e
  · rename_i e
    exact h.instRead.of_eq e

theorem Keeps.rtRead {m inst va n : Nat} (h : Keeps b s φ) : Keeps b (rtRead m s inst va n).2 φ :=
  h.instRead.rtCharge

theorem Keeps.rtWrite {m inst va : Nat} {bs : List Byte} (h : Keeps b s φ) : Keeps b (rtWrite m s inst va bs).2 φ :=
  h.instWrite.rtCharge

theorem Keeps.rtRead64 {m inst va : Nat} (h : Keeps b s) : Keeps b (rtRead64 m s inst va).2 := by
  unfold Machine.rtRead64
  split
  · rename_i e
    exact h.rtRead.of_eq e
  · rename_i e
    exact h.rtRead.of_eq e

end

end Sys2Proof.Machine
end

section
/-! PROOFS. What the operations keep: jobs (Sys2Proof/Machine/Jobs.lean). -/

namespace Sys2Proof.Machine

section
set_option Elab.async false
variable {b s : State} {φ : Prop}

theorem Keeps.cflag {j b1 : Nat} (h : Keeps b s φ) : Keeps b (s.cflag j b1) φ :=
  h.modJob

theorem Keeps.endJob {j status : Nat} {detail : Option Nat} (h : Keeps b s φ) : Keeps b (s.endJob j status detail) φ :=
  h.modJob

theorem Keeps.finishPart {j part total : Nat} (h : Keeps b s) : Keeps b (s.finishPart j part total) := by
  unfold State.finishPart
  dsimp only
  split
  · exact .ite h.modJob.endJob h.modJob
  · exact h.modJob

theorem Keeps.dropTiles {f j : Nat} (h : Keeps b s) : Keeps b (s.dropTiles f j) :=
  h.modFlask

theorem Keeps.charge {f j ns : Nat} (h : Keeps b s) : Keeps b (s.charge f j ns) :=
  h.modFlask.incWrap.modJob

theorem Keeps.lendCharge {f share ns : Nat} (h : Keeps b s) : Keeps b (s.lendCharge f share ns) :=
  h.modFlask

end

end Sys2Proof.Machine
end

section
/-! PROOFS. What the operations keep: moves and ladles (Sys2Proof/Machine/Moves.lean). -/

namespace Sys2Proof.Machine

section
set_option Elab.async false
variable {b s : State} {φ : Prop}

theorem Keeps.modMove {id : Nat} {g : Move → Move} (h : Keeps b s) : Keeps b (s.modMove id g) :=
  h.beside

theorem Keeps.giveLadle {m : Move} (h : Keeps b s) : Keeps b (s.giveLadle m) :=
  .ite h.modMove h

theorem Keeps.giveLadles {x : Job} (h : Keeps b s) : Keeps b (s.giveLadles x) :=
  h.foldl (fun _ _ h₁ => .ite h₁.modJob h₁)

theorem Keeps.dealLadles (h : Keeps b s) : Keeps b s.dealLadles :=
  (h.foldl (fun _ _ h₁ => h₁.giveLadle)).foldl (fun _ _ h₁ => h₁.giveLadles)

theorem Keeps.pieceBoundary {m : Move} (h : Keeps b s) : Keeps b (s.pieceBoundary m) :=
  .ite h.modMove.dealLadles h

theorem Keeps.addMove {m : Move} (h : Keeps b s) : Keeps b (s.addMove m) :=
  h.beside.dealLadles

theorem Keeps.dropMove {m : Move} (h : Keeps b s) : Keeps b (s.dropMove m) :=
  h.beside.dealLadles

end

end Sys2Proof.Machine
end

section
/-! PROOFS. What the operations keep: the arrays (Sys2Proof/Machine/Arrays.lean). -/

namespace Sys2Proof.Machine

section
set_option Elab.async false
variable {b s : State} {φ : Prop}

theorem Keeps.mouldRead {a lo n : Nat} {skip : Option Nat} (h : Keeps b s) : Keeps b (s.mouldRead a lo n skip).2 :=
  .iteSnd h h.freeUp

theorem Keeps.mouldWrite {a lo : Nat} {bs : List Byte} (h : Keeps b s) : Keeps b (s.mouldWrite a lo bs) :=
  h.modArr

theorem Keeps.mouldFree {a lo n : Nat} (h : Keeps b s) : Keeps b (s.mouldFree a lo n) :=
  h.freshBytes.mouldWrite

theorem Keeps.shakeArray {a : Nat} (h : Keeps b s) : Keeps b (s.shakeArray a) :=
  h.modArr.setF.setF

theorem Keeps.showPc {a : Nat} (h : Keeps b s) : Keeps b (s.showPc a) :=
  h.setF

theorem Keeps.takeProgram {a : Nat} (h : Keeps b s) : Keeps b (s.takeProgram a) :=
  .ite h.setF.setF.setF.setF.setArr.setF.showPc h.setF.setArr.setF

theorem Keeps.mapSpare {a sp cause : Nat} {image : Bool} (h : Keeps b s) : Keeps b (s.mapSpare a sp cause image) :=
  .ite h.setF.setF.setF.setR.setF.setF.modRec.setF.setF.addMove.modArr h.setF.setF.setF.setR.setF.setF.modRec.setF.setF

theorem Keeps.replaceArray {a st cause : Nat} {image : Bool} (h : Keeps b s) : Keeps b (s.replaceArray a st cause image) := by
  unfold State.replaceArray
  split
  · exact .ite h.mapSpare.setF.shakeArray.modRec.logEvent h.mapSpare.setF.shakeArray
  · exact h.safety

theorem Keeps.boundaryWithdraw {a : Nat} (h : Keeps b s) : Keeps b (s.boundaryWithdraw a) := by
  unfold State.boundaryWithdraw
  dsimp only
  split
  · rename_i e
    refine .ite h ?_
    split
    · exact h.modArr.replaceArray
    · exact .setF (.setF (.setF (.shakeArray (.ite h.modArr h.modArr.safety))))
  · exact h

theorem Keeps.barMove {a : Nat} {k : MoveKind} {toMem : Bool} {pa : Nat} {data : List Byte} (h : Keeps b s) :
    Keeps b (s.barMove a k toMem pa data) :=
  h.addMove

theorem Keeps.barBack {a : Nat} (h : Keeps b s) : Keeps b (s.barBack a) :=
  h.modArr.setF.showPc.barMove

theorem Keeps.startBar {a : Nat} (h : Keeps b s) : Keeps b (s.startBar a) :=
  h.mouldRead.modArr.setF.barMove

theorem Keeps.barRun {a : Nat} {desc : List Nat} {transformed : Bool} (h : Keeps b s) :
    Keeps b (s.barRun a desc transformed) :=
  h.modArr.showPc

theorem Keeps.barProgram {a : Nat} (h : Keeps b s) : Keeps b (s.barProgram a) := by
  unfold State.barProgram
  split
  · rename_i e
    exact (((((h.physRead.of_eq e).modArr).setF).setF).setF).barRun
  · rename_i e
    exact (h.physRead.of_eq e).barBack

theorem Keeps.passBoundary {a : Nat} (h : Keeps b s) : Keeps b (s.passBoundary a) :=
  .ite h.boundaryWithdraw.modArr.setF (.ite
      (.ite h.boundaryWithdraw.modArr.setF.setF.startBar h.boundaryWithdraw.modArr.setF.setF)
      h.boundaryWithdraw.takeProgram)

theorem Keeps.dropAsync {a : Nat} (h : Keeps b s) : Keeps b (s.dropAsync a) := by
  unfold State.dropAsync
  exact (h.each (fun _ _ h₁ => h₁.mouldFree)).modArr

theorem Keeps.endStall {a : Nat} (h : Keeps b s) : Keeps b (s.endStall a) :=
  .ite h.fresh.incWrap h

theorem Keeps.abortArr {a : Nat} (h : Keeps b s) : Keeps b (s.abortArr a) :=
  h.endStall.dropAsync.modArr.setF

theorem Keeps.dropNext {a : Nat} (h : Keeps b s) : Keeps b (s.dropNext a) :=
  .ite h.modArr.setF h

theorem Keeps.faultJob {j status tile : Nat} (h : Keeps b s) : Keeps b (s.faultJob j status tile) := by
  unfold State.faultJob
  split
  · exact h
  · exact .ite (h.endJob.dropTiles.each (fun _ _ h₁ => h₁.endJob.dropTiles)) ((h.endJob.dropTiles.each
        (fun _ _ h₁ => h₁.endJob.dropTiles)).each (fun _ _ h₁ => .ite h₁.dropNext.abortArr h₁.dropNext))

theorem Keeps.chargeRun {a : Nat} (h : Keeps b s) : Keeps b (s.chargeRun a) := by
  unfold State.chargeRun
  split
  · exact h
  · exact .ite h (.ite h.charge.modArr.lendCharge.modArr h.charge.modArr)

end

end Sys2Proof.Machine
end

section
/-! PROOFS. What the operations keep: pairs (Sys2Proof/Machine/Pairs.lean). -/

namespace Sys2Proof.Machine

section
set_option Elab.async false
variable {b s : State} {φ : Prop}

theorem Keeps.modPair {vec : Bool} {u : Nat} {g : Pair → Pair} (h : Keeps b s) : Keeps b (s.modPair vec u g) :=
  h.beside

theorem Keeps.dropPair {vec : Bool} {u : Nat} (h : Keeps b s) : Keeps b (s.dropPair vec u) :=
  h.beside

theorem Keeps.passUnit {vec : Bool} {u : Nat} (h : Keeps b s) : Keeps b (s.passUnit vec u) :=
  .ite h.modVec.setF (.ite h.modArr h.passBoundary)

theorem Keeps.foundFaulty {vec : Bool} {u how : Nat} (h : Keeps b s) : Keeps b (s.foundFaulty vec u how) :=
  .safety (.ite h.modRec.modVec h.incSat.setF.modArr)

theorem Keeps.settle {vec : Bool} {u outcome : Nat} (h : Keeps b s) : Keeps b (s.settle vec u outcome) :=
  h.modPair

theorem Keeps.releaseCopy {a : Nat} (h : Keeps b s) : Keeps b (s.releaseCopy a) := by
  unfold State.releaseCopy
  split
  · exact h
  · exact h.each (fun _ _ h₁ => h₁.mouldRead.addMove)

theorem Keeps.releaseStores {e : Nat} (h : Keeps b s) : Keeps b (s.releaseStores e) := by
  unfold State.releaseStores
  split
  · exact h
  · refine .each h ?_
    intro _ _ h₁
    split
    · rename_i e
      exact h₁.instWrite.of_eq e
    · rename_i e
      exact (h₁.instWrite.of_eq e).endJob

theorem Keeps.rerun {vec : Bool} {u : Nat} {transformed : Bool} (h : Keeps b s) : Keeps b (s.rerun vec u transformed) :=
  .ite h.modVec.setF h.modArr.setF.showPc

theorem Keeps.reexecute {vec : Bool} {u : Nat} {transformed : Bool} (h : Keeps b s) :
    Keeps b (s.reexecute vec u transformed) :=
  .ite h.modPair h.modPair.rerun

theorem Keeps.startIsolation {f : Nat} (h : Keeps b s) : Keeps b (s.startIsolation f) :=
  h.modFlask

theorem Keeps.splitPair {p : Pair} (h : Keeps b s) : Keeps b (s.splitPair p) :=
  h.modFlask.modPair.safety

theorem Keeps.plantFault {f : Nat} {dup : Bool} (h : Keeps b s) : Keeps b (s.plantFault f dup) :=
  .ite h.modFlask h

theorem Keeps.releasePair {p : Pair} (h : Keeps b s) : Keeps b (s.releasePair p) :=
  h.dropPair.finishPart.passUnit.passUnit

theorem Keeps.comparePair {p : Pair} (h : Keeps b s) : Keeps b (s.comparePair p) := by
  unfold State.comparePair
  refine .ite h.splitPair ?_
  split
  · rename_i e
    split
    · exact .ite h.dropPair.faultJob.passUnit.passUnit h.startIsolation.reexecute
    · exact .ite h.releasePair h.startIsolation.reexecute
    · exact h.startIsolation.reexecute
  · exact h.startIsolation.reexecute
  · exact h.startIsolation.reexecute
  · exact h.startIsolation.settle

theorem Keeps.pairEnd {vec : Bool} {u : Nat} {sig : Option (List (Nat × Nat) × Nat)} {fault : Option (Nat × Nat)}
    (h : Keeps b s) :
    Keeps b (s.pairEnd vec u sig fault) := by
  unfold State.pairEnd
  dsimp only
  split
  · exact .ite h.modPair.comparePair h.modPair
  · exact h.modPair

theorem Keeps.reexecEnd {vec : Bool} {u : Nat} {sig : Option (List (Nat × Nat) × Nat)} (h : Keeps b s) :
    Keeps b (s.reexecEnd vec u sig) := by
  unfold State.reexecEnd
  split
  · exact h
  · rename_i e
    refine .ite h.splitPair ?_
    split
    · exact .ite h.settle.foundFaulty (.ite
          (.ite h.settle.foundFaulty.releaseStores h.settle.foundFaulty.releaseCopy) h.settle.foundFaulty)
    · exact .ite (.ite h.settle.foundFaulty.releaseStores h.settle.foundFaulty.releaseCopy) h.settle
    · exact .ite h.settle.foundFaulty h.settle

theorem Keeps.rtFail {f : Nat} {cores : List Nat} (h : Keeps b s) : Keeps b (s.rtFail f cores) :=
  ((h.each (fun _ _ h₁ => h₁.modRt.modRec)).modFlask).safety

theorem Keeps.arrFault {a : Nat} {flag : Option Fld} {status : Nat} (h : Keeps b s) : Keeps b (s.arrFault a flag status) := by
  have h₁ : Keeps b (match flag with | some x => s.setF x a 1 | none => s) := by
    cases flag with
    | none => exact h
    | some x => exact h.setF
  unfold State.arrFault
  dsimp only
  split
  · exact h₁
  · rename_i r _
    cases r.role with
    | primary | recast => exact h₁.chargeRun.abortArr.pairEnd
    | reexec _ => exact h₁.chargeRun.abortArr.reexecEnd
    | testBar _ => exact h₁.dropAsync.modArr.barBack
    | single => exact h₁.faultJob

end

end Sys2Proof.Machine
end

section
/-! PROOFS. What the operations keep: convolution rows (Sys2Proof/Machine/ConvOps.lean). -/

namespace Sys2Proof.Machine

section
set_option Elab.async false
variable {b s : State} {φ : Prop}

theorem Keeps.rdBytes {inst va n : Nat} (h : Keeps b s) : Keeps b (rdBytes inst va n s).2 := by
  unfold Machine.rdBytes
  split
  · rename_i e
    exact h.instRead.of_eq e
  · rename_i e
    exact h.instRead.of_eq e

theorem Keeps.readAll {α β : Type} {g : α → State → Rd β} {xs : List α} (h : Keeps b s φ)
    (hg : ∀ x t, Keeps b t φ → Keeps b (g x t).2 φ) : Keeps b (readAll g xs s).2 φ := by
  induction xs generalizing s with
  | nil => exact h
  | cons x xs ih =>
    unfold Machine.readAll
    split
    · rename_i e
      exact (hg x s h).of_eq e
    · rename_i e
      have h₁ := ih ((hg x s h).of_eq e)
      split <;> (rename_i e'; exact h₁.of_eq e')

theorem Keeps.readPixel {r : ConvRec} {inst n y x c0 cnt : Nat} (h : Keeps b s) :
    Keeps b (readPixel r inst n y x c0 cnt s).2 := by
  unfold Machine.readPixel
  dsimp only
  split
  · rename_i e
    exact (h.readAll (fun _ _ h₁ => h₁.rdBytes)).of_eq e
  · rename_i e
    exact (h.readAll (fun _ _ h₁ => h₁.rdBytes)).of_eq e

theorem Keeps.readScales {r : ConvRec} {inst n y x c0 cnt : Nat} (h : Keeps b s) :
    Keeps b (readScales r inst n y x c0 cnt s).2 := by
  unfold Machine.readScales
  refine .readAll h ?_
  intro _ _ h₁
  split
  · rename_i e
    exact h₁.rdBytes.of_eq e
  · rename_i e
    exact h₁.rdBytes.of_eq e

theorem Keeps.passRow {r : ConvRec} {inst p n : Nat} {y x : Int} (h : Keeps b s) : Keeps b (passRow r inst p n y x s).2 := by
  unfold Machine.passRow
  refine .iteSnd h ?_
  split
  · rename_i e
    exact h.readPixel.of_eq e
  · rename_i e
    split
    · rename_i e₁
      exact ((h.readPixel.of_eq e).readScales).of_eq e₁
    · rename_i e₁
      exact ((h.readPixel.of_eq e).readScales).of_eq e₁

theorem Keeps.winStream {r : ConvRec} {d : List Nat} {inst p kx st : Nat} (h : Keeps b s) :
    Keeps b (winStream r d inst p kx st s).2 := by
  unfold Machine.winStream
  dsimp only
  split
  · rename_i e
    exact (h.readAll (fun _ _ h₁ => h₁.passRow)).of_eq e
  · rename_i e
    exact (h.readAll (fun _ _ h₁ => h₁.passRow)).of_eq e

theorem Keeps.windowBytes {r : ConvRec} {d : List Nat} {inst arg : Nat} (h : Keeps b s) :
    Keeps b (windowBytes r d inst arg s).2 := by
  unfold Machine.windowBytes
  split
  · rename_i e
    exact (h.readAll (fun _ _ h₁ => h₁.winStream)).of_eq e
  · rename_i e
    exact (h.readAll (fun _ _ h₁ => h₁.winStream)).of_eq e

theorem Keeps.writeAll {inst : Nat} {ps : List (Nat × List Byte)} (h : Keeps b s) : Keeps b (writeAll inst ps s).2 := by
  induction ps generalizing s with
  | nil => exact h
  | cons p ps ih =>
    unfold Machine.writeAll
    split
    · rename_i e
      exact ih (h.instWrite.of_eq e)
    · exact h.instWrite

theorem Keeps.scatterWrite {r : ConvRec} {d : List Nat} {inst g : Nat} {bs : List Byte} (h : Keeps b s) :
    Keeps b (scatterWrite r d inst g bs s).2 :=
  h.writeAll

end

end Sys2Proof.Machine
end

section
/-! PROOFS. What the operations keep: the issue of array commands (Sys2Proof/Machine/Issue.lean). -/

namespace Sys2Proof.Machine

section
set_option Elab.async false
variable {b s : State} {φ : Prop}

theorem Keeps.illegal {a : Nat} (h : Keeps b s) : Keeps b (s.illegal a) :=
  h.arrFault

theorem Keeps.goTo {a pc : Nat} (h : Keeps b s) : Keeps b (s.goTo a pc) :=
  h.modArr.showPc

theorem Keeps.nextCmd {a : Nat} (h : Keeps b s) : Keeps b (s.nextCmd a) :=
  h.goTo

theorem Keeps.issue {a op : Nat} {rsv : List (Nat × Nat)} {async : Bool} {go : Nat → State → State}
    (h : Keeps b s) (hgo : ∀ x t, Keeps b t → Keeps b (go x t)) :
    Keeps b (s.issue a op rsv async go) :=
  .ite h (.ite h.illegal (.ite h.illegal (.ite h (.ite h.illegal (hgo _ _ h)))))

theorem Keeps.countExc {a : Nat} {flush : Fld} {cs : List Cnt} (h : Keeps b s) : Keeps b (s.countExc a flush cs) :=
  .ite h h.incSat.incSat

theorem Keeps.addAsync {a w : Nat} {o : AsyncOp} (h : Keeps b s) : Keeps b (s.addAsync a w o) :=
  h.modArr

theorem Keeps.readRows {a fmt src stride rows : Nat} (h : Keeps b s) : Keeps b (s.readRows a fmt src stride rows).2 :=
  h.foldlSnd (fun _ _ h₁ => h₁.mouldRead)

theorem Keeps.issueLdw {a w : Nat} (h : Keeps b s) : Keeps b (s.issueLdw a w) :=
  .ite h.illegal (.ite (.arrFault (.mouldRead (.iteSnd h.readRows.mouldRead h.readRows))) (.nextCmd (.addAsync (.countExc
      (.mouldRead (.iteSnd h.readRows.mouldRead h.readRows))))))

theorem Keeps.readArrScales {a sc m : Nat} (h : Keeps b s) : Keeps b (s.readScales a sc m).2 :=
  h.mouldRead

theorem Keeps.issueLda {a w : Nat} (h : Keeps b s) : Keeps b (s.issueLda a w) := by
  unfold State.issueLda
  refine .ite h.illegal ?_
  refine .ite h ?_
  refine .ite h.arrFault ?_
  refine .ite h.modArr.nextCmd ?_
  split
  · rename_i e
    exact (h.readArrScales.of_eq e).arrFault
  · rename_i e
    exact ((h.readArrScales.of_eq e).modArr).nextCmd

theorem Keeps.rowCodes {a : Nat} {t : Stream} (h : Keeps b s) : Keeps b (s.rowCodes a t).2 := by
  unfold State.rowCodes
  dsimp only
  refine .iteSnd ?_ h.mouldRead
  split
  · exact h
  · rename_i e
    split <;> exact h.mouldRead

theorem Keeps.landSums {a t : Nat} {st : Stream} (h : Keeps b s) : Keeps b (s.landSums a t st) :=
  .ite h (h.foldl (fun _ _ h₁ => .ite (.ite h₁.modArr h₁) h₁))

theorem Keeps.finishStep {a : Nat} (h : Keeps b s) : Keeps b (s.finishStep a) := by
  unfold State.finishStep
  exact (h.foldl (fun _ _ h₁ => h₁.countExc.landSums)).modArr

theorem Keeps.takeSwap {a : Nat} {t : Stream} (h : Keeps b s) : Keeps b (s.takeSwap a t) :=
  .ite h.modArr h

theorem Keeps.enterRow {a i : Nat} {t : Stream} {e : Nat} (h : Keeps b s) : Keeps b (s.enterRow a i t e).2 := by
  unfold State.enterRow
  split
  · rename_i e
    exact h.rowCodes.of_eq e
  · rename_i e
    exact ((((h.rowCodes.of_eq e).takeSwap).countExc).modArr).finishStep

theorem Keeps.stepArr {a : Nat} (h : Keeps b s) : Keeps b (s.stepArr a).2 := by
  unfold State.stepArr
  split
  · exact h.finishStep
  · rename_i e
    refine .iteSnd h ?_
    split
    · exact h.enterRow
    · split
      · rename_i e₁
        exact h.readArrScales.of_eq e₁
      · rename_i e₁
        exact (h.readArrScales.of_eq e₁).enterRow

theorem Keeps.runSteps {a n : Nat} (h : Keeps b s) : Keeps b (s.runSteps a n).2.2 := by
  induction n generalizing s with
  | zero => exact h
  | succ n ih =>
    unfold State.runSteps
    split
    · rename_i e
      exact ih (h.stepArr.of_eq e)
    · rename_i e
      exact h.stepArr.of_eq e

theorem Keeps.countStall {a cycles : Nat} (h : Keeps b s) : Keeps b (s.countStall a cycles) :=
  .ite h.incWrap.modArr h

theorem Keeps.showRun {a st : Nat} (h : Keeps b s) : Keeps b (s.showRun a st) :=
  .ite h h.setF

theorem Keeps.issueShift {a w : Nat} (h : Keeps b s) : Keeps b (s.issueShift a w) := by
  unfold State.issueShift
  refine .ite h.illegal ?_
  split
  · rename_i e
    exact (((h.runSteps.of_eq₂ e).modArr).showRun).nextCmd
  · rename_i e
    exact ((h.runSteps.of_eq₂ e).modArr).showRun
  · rename_i e
    exact ((h.runSteps.of_eq₂ e).showRun).arrFault
  · rename_i e
    exact ((h.runSteps.of_eq₂ e).showRun).arrFault

/-- The accessor of the array's state stands as a variable while the kernel compares the two forms of the goal: it would
evaluate the window's arithmetic under it. -/
theorem Keeps.countRow {a : Nat} {cs : List Conv} (h : Keeps b s) : Keeps b (s.countRow a cs) := by
  have h₁ := (h.incWrap (x := ARR_SATCNT.SAT_TOTAL) (i := a) (n := (cs.filter fun c => c.sat).length)).incSat
    (x := ARR_NUMCNT.NAN_OUT) (i := a) (n := (cs.filter fun c => c.nanOut).length)
  rw [show State.countRow = _ from by delta State.countRow; exact rfl]
  obtain ⟨arr, e⟩ : ∃ arr, State.arr = arr := ⟨_, rfl⟩
  rw [e]
  extract_lets _ _ _ v w lg cleared counted
  have h₂ : Keeps b counted :=
    .ite h₁ (.ite h₁.setF.setF (.ite h₁.setF.setF.setF.incSat.mgrIrq h₁.setF.setF))
  split
  · exact .ite h₂ h₂.cflag
  · exact h₂

theorem Keeps.foldSig {a : Nat} {bs : List Byte} (h : Keeps b s) : Keeps b (s.foldSig a bs) :=
  h.modArr

theorem Keeps.drainOne {a ofmt : Nat} {bias : List Nat} {row : Nat} (h : Keeps b s) :
    Keeps b (s.drainOne a ofmt bias row).2.2 :=
  h.modArr.countRow

theorem Keeps.drainPlain {a ofmt dst stride scd row0 : Nat} {bias : List Nat} {rows : Nat} (h : Keeps b s) :
    Keeps b (s.drainPlain a ofmt dst stride scd row0 bias rows) :=
  h.foldl (fun _ _ h₁ => h₁.drainOne.mouldWrite.mouldWrite.foldSig)

theorem Keeps.drainZc {a ofmt row0 : Nat} {bias : List Nat} {rows : Nat} (h : Keeps b s) :
    Keeps b (s.drainZc a ofmt row0 bias rows).2.2 :=
  h.foldlSnd₂ (fun _ _ h₁ => h₁.drainOne)

theorem Keeps.issueDrain {a w : Nat} (h : Keeps b s) : Keeps b (s.issueDrain a w) :=
  .ite h.illegal (.ite (.ite h.illegal (.nextCmd (.addAsync (.foldSig (.mouldWrite (.mouldWrite (.drainZc
      (.iteSnd h.mouldRead h)))))))) (.nextCmd (.addAsync (.drainPlain (.iteSnd h.mouldRead h)))))

theorem Keeps.issuePost {a w : Nat} (h : Keeps b s) : Keeps b (s.issuePost a w) :=
  .ite h.illegal h.modArr.nextCmd

theorem Keeps.issueXfer {a w : Nat} (h : Keeps b s) : Keeps b (s.issueXfer a w) := by
  unfold State.issueXfer
  dsimp only
  split
  · exact h
  · exact .ite h.illegal (.ite h (.nextCmd (.ite (.modArr (.addAsync (.iteSnd h.mouldRead h))) (.addMove (.ite (.modJob
        (.modArr (.addAsync (.iteSnd h.mouldRead h)))) (.modArr (.addAsync (.iteSnd h.mouldRead h))))))))

end

end Sys2Proof.Machine
end

section
/-! PROOFS. What the operations keep: ladle pieces (Sys2Proof/Machine/Ladle.lean). -/

namespace Sys2Proof.Machine

section
set_option Elab.async false
variable {b s : State} {φ : Prop}

theorem Keeps.sealUnit {f slot : Nat} {plain : List Byte} (h : Keeps b s) : Keeps b (s.sealUnit f slot plain).2 := by
  unfold State.sealUnit
  dsimp only
  split
  · exact h
  · split
    · exact h
    · split
      · exact h
      · dsimp only
        exact h.modFlask

theorem Keeps.pieceIn {m : Move} {n : Nat} (h : Keeps b s) : Keeps b (s.pieceIn m n).2 := by
  unfold State.pieceIn
  refine .iteSnd ?_ ?_
  · split
    · exact h
    · rename_i e
      split
      · rename_i e₁
        split
        · rename_i e₂
          split <;> exact ((h.instRead.of_eq e₁).instRead).of_eq e₂
        · rename_i e₂
          exact ((h.instRead.of_eq e₁).instRead).of_eq e₂
      · rename_i e₁
        exact h.instRead.of_eq e₁
  · refine .iteSnd ?_ ?_
    · split
      · exact h
      · rename_i e
        split
        · rename_i e₁
          exact h.windowBytes.of_eq e₁
        · rename_i e₁
          exact h.windowBytes.of_eq e₁
    · split
      · rename_i e
        exact h.instRead.of_eq e
      · rename_i e
        exact h.instRead.of_eq e

theorem Keeps.pieceOut {m : Move} {n : Nat} (h : Keeps b s) : Keeps b (s.pieceOut m n).2 := by
  unfold State.pieceOut
  refine .iteSnd ?_ ?_
  · split
    · rename_i e
      exact h.sealUnit.of_eq e
    · rename_i e
      split
      · rename_i e₁
        exact (((h.sealUnit.of_eq e).instWrite).of_eq e₁).instWrite
      · rename_i e₁
        exact ((h.sealUnit.of_eq e).instWrite).of_eq e₁
  · refine .iteSnd ?_ h.instWrite
    refine .iteSnd h ?_
    split
    · exact h
    · exact h.scatterWrite

theorem Keeps.pieceOn {m : Move} {n : Nat} (h : Keeps b s) : Keeps b (s.pieceOn m n) := by
  unfold State.pieceOn
  refine .ite ?_ ?_
  · refine .dropMove ?_
    split
    · exact h.modMove.modArr
    · exact h.modMove
  · refine .pieceBoundary ?_
    split
    · exact h.modMove.modArr
    · exact h.modMove

theorem Keeps.modFirst {c : Nat} {g : FirstRun → FirstRun} (h : Keeps b s) : Keeps b (s.modFirst c g) :=
  h.modRt

theorem Keeps.logLost {c : Nat} (h : Keeps b s) : Keeps b (s.logLost c) :=
  (h.each (fun _ _ h₁ => h₁.dropMove)).rtFail

theorem Keeps.barStep {a : Nat} {k : MoveKind} (h : Keeps b s) : Keeps b (s.barStep a k) := by
  unfold State.barStep
  split
  · exact h.modArr.barMove
  · exact h.barProgram
  · exact h.modArr

theorem Keeps.barPiece {m : Move} {a n : Nat} (h : Keeps b s) : Keeps b (s.barPiece m a n) := by
  unfold State.barPiece
  refine .ite ?_ ?_
  · refine .barStep ?_
    refine .pieceOn ?_
    refine .ite h.physWrite ?_
    split
    · rename_i e
      exact (h.physRead.of_eq e).mouldWrite
    · rename_i e
      exact h.physRead.of_eq e
  · refine .pieceOn ?_
    refine .ite h.physWrite ?_
    split
    · rename_i e
      exact (h.physRead.of_eq e).mouldWrite
    · rename_i e
      exact h.physRead.of_eq e

theorem Keeps.ladlePiece {m : Move} (h : Keeps b s) : Keeps b (s.ladlePiece m) := by
  unfold State.ladlePiece
  split
  · rename_i e
    refine .ite ?_ ?_
    · split
      · rename_i e₁
        exact (h.pieceOut.of_eq e₁).pieceOn
      · rename_i e₁
        exact .ite (((h.pieceOut.of_eq e₁).dropMove).arrFault) ((h.pieceOut.of_eq e₁).pieceOn)
    · split
      · rename_i e₁
        exact .pieceOn (.ite ((h.pieceIn.of_eq e₁).mouldWrite) (h.pieceIn.of_eq e₁))
      · rename_i e₁
        exact .ite (((h.pieceIn.of_eq e₁).dropMove).arrFault) ((h.pieceIn.of_eq e₁).pieceOn)
  · rename_i e
    dsimp only
    split
    · rename_i e₁
      exact ((h.physRead.of_eq e₁).mouldWrite).pieceOn
    · rename_i e₁
      exact (h.physRead.of_eq e₁).pieceOn
  · rename_i e
    dsimp only
    split
    · rename_i e₁
      exact (h.pieceOut.of_eq e₁).pieceOn
    · rename_i e₁
      exact ((h.pieceOut.of_eq e₁).dropMove).endJob
  · rename_i e
    dsimp only
    split
    · rename_i e₁
      exact ((h.instRead.of_eq e₁).modFirst).pieceOn
    · rename_i e₁
      exact (h.instRead.of_eq e₁).logLost
  · exact h.barPiece
  · exact h.barPiece
  · exact h.barPiece
  · exact h.pieceOn

end

end Sys2Proof.Machine
end

section
/-! PROOFS. What the operations keep: tiles (Sys2Proof/Machine/Tiles.lean). -/

namespace Sys2Proof.Machine

section
set_option Elab.async false
variable {b s : State} {φ : Prop}

theorem Keeps.queueTiles {f j prio : Nat} {tiles : List (List Nat)} {urgent : Bool} (h : Keeps b s) :
    Keeps b (s.queueTiles f j prio tiles urgent) :=
  .ite h.modFlask.modFlask h.modFlask

theorem Keeps.giveTile {a f : Nat} {t : TileQ} {lent : Bool} (h : Keeps b s) : Keeps b (s.giveTile a f t lent) := by
  unfold State.giveTile
  split
  · exact h
  · exact h.modFlask.modArr

theorem Keeps.giveBack {a : Nat} (h : Keeps b s) : Keeps b (s.giveBack a) := by
  unfold State.giveBack
  dsimp only
  split
  · exact .ite h h.modFlask.modArr
  · exact h

theorem Keeps.dispatchTile {a : Nat} (h : Keeps b s) : Keeps b (s.dispatchTile a) := by
  unfold State.dispatchTile
  dsimp only
  refine .ite h ?_
  refine .ite ?_ ?_
  · split
    · rename_i e
      split
      · exact h.giveTile
      · exact h.modArr
    · rename_i e
      split
      · exact h
      · split
        · exact .giveTile (.modArr (.ite h h.shakeArray))
        · exact .modArr (.ite h h.shakeArray)
  · refine .ite h ?_
    split
    · exact h.giveTile
    · exact h

theorem Keeps.loadProgram {a : Nat} (h : Keeps b s) : Keeps b (s.loadProgram a) := by
  unfold State.loadProgram
  dsimp only
  split
  · exact h
  · rename_i e
    refine .ite h ?_
    split
    · rename_i e₁
      exact .ite ((((((h.instRead.of_eq e₁).modArr).setF).setF).setF).takeProgram)
          (((((h.instRead.of_eq e₁).modArr).setF).setF).setF)
    · rename_i e₁
      split
      · exact (h.instRead.of_eq e₁).faultJob
      · exact ((h.instRead.of_eq e₁).modArr).pairEnd

theorem Keeps.monitorRun {a : Nat} (h : Keeps b s) : Keeps b (s.monitorRun a) := by
  unfold State.monitorRun
  split
  · exact .ite h.modArr h
  · exact h

theorem Keeps.sliceEnd {a : Nat} (h : Keeps b s) : Keeps b (s.sliceEnd a) := by
  unfold State.sliceEnd
  split
  · exact .ite h.modArr h
  · exact h

theorem Keeps.endBarRun {a : Nat} {r : RunJob} {sig : List (Nat × Nat) × Nat} (h : Keeps b s) :
    Keeps b (s.endBarRun a r sig) := by
  unfold State.endBarRun
  split
  · exact h.modArr.barRun
  · exact h.modArr.barBack

theorem Keeps.endRun {a flip : Nat} {dup : Bool} (h : Keeps b s) : Keeps b (s.endRun a flip dup) := by
  unfold State.endRun
  split
  · exact h
  · rename_i e
    refine .ite h.endBarRun ?_
    split
    · exact h.monitorRun.chargeRun.incWrap.modArr.plantFault.pairEnd
    · exact h.monitorRun.chargeRun.incWrap.modArr.plantFault.pairEnd
    · exact h.monitorRun.chargeRun.incWrap.modArr.plantFault.reexecEnd
    · exact h.monitorRun.chargeRun.incWrap.modArr.finishPart.sliceEnd.passBoundary

end

end Sys2Proof.Machine
end

section
/-! PROOFS. What the operations keep: descriptor checks (Sys2Proof/Machine/Validate.lean). -/

namespace Sys2Proof.Machine

section
set_option Elab.async false
variable {b s : State} {φ : Prop}

theorem Keeps.readOffL {inst base : Nat} {cs : List (Nat × Nat)} (h : Keeps b s) : Keeps b (readOffL inst base cs s).2 := by
  induction cs generalizing s with
  | nil => exact h
  | cons c cs ih =>
    unfold Machine.readOffL
    split
    · rename_i e
      have h₁ := ih (h.instRead.of_eq e)
      split
      · rename_i e'
        exact h₁.of_eq e'
      · exact h₁
    · rename_i e
      exact h.instRead.of_eq e

theorem Keeps.readOff {inst va n : Nat} (h : Keeps b s) : Keeps b (readOff s inst va n).2 :=
  h.readOffL

theorem Keeps.hasStage1 {inst : Nat} (h : Keeps b s) : Keeps b (s.hasStage1 inst).2 := by
  unfold State.hasStage1
  split
  · exact h
  · exact h
  · rename_i e
    split
    · rename_i e₁
      exact h.devCtx.of_eq e₁
    · rename_i e₁
      exact h.devCtx.of_eq e₁

theorem Keeps.unsupported {x : Job} (h : Keeps b s) : Keeps b (s.unsupported x).2 :=
  .iteSnd h (.iteSnd h (.iteSnd h (.iteSnd h (.iteSnd h.hasStage1 h))))

theorem Keeps.progBad {x : Job} {d : List Nat} (h : Keeps b s) : Keeps b (s.progBad x d).2 := by
  unfold State.progBad
  refine .iteSnd h ?_
  split
  · rename_i e
    exact h.instRead.of_eq e
  · rename_i e
    exact h.instRead.of_eq e

theorem Keeps.firstBadTile {x : Job} {k : Nat} {ds : List (List Nat)} (h : Keeps b s) :
    Keeps b (s.firstBadTile x k ds).2 := by
  induction ds generalizing s k with
  | nil => exact h
  | cons d ds ih =>
    unfold State.firstBadTile
    refine .iteSnd h ?_
    split
    · rename_i e
      exact h.progBad.of_eq e
    · rename_i e
      exact ih (h.progBad.of_eq e)

theorem Keeps.validate {x : Job} (h : Keeps b s) : Keeps b (s.validate x).2 := by
  unfold State.validate
  refine .iteSnd h ?_
  dsimp only
  split
  · rename_i e
    exact .of_eq e (.iteSnd h.readOff h)
  · rename_i e
    split
    · rename_i e₁
      exact .of_eq e₁ (.unsupported (.of_eq e (.iteSnd h.readOff h)))
    · rename_i e₁
      refine .iteSnd (.of_eq e₁ (.unsupported (.of_eq e (.iteSnd h.readOff h)))) ?_
      split
      · rename_i e₂
        exact .of_eq e₂ (.iteSnd (.of_eq e₁ (.unsupported (.of_eq e (.iteSnd h.readOff h)))) (.readOff (.of_eq e₁
            (.unsupported (.of_eq e (.iteSnd h.readOff h))))))
      · rename_i e₂
        split
        · rename_i e₃
          exact .of_eq e₃ (.firstBadTile (.of_eq e₂ (.iteSnd (.of_eq e₁ (.unsupported (.of_eq e (.iteSnd h.readOff h))))
              (.readOff (.of_eq e₁ (.unsupported (.of_eq e (.iteSnd h.readOff h))))))))
        · rename_i e₃
          exact .of_eq e₃ (.firstBadTile (.of_eq e₂ (.iteSnd (.of_eq e₁ (.unsupported (.of_eq e (.iteSnd h.readOff h))))
              (.readOff (.of_eq e₁ (.unsupported (.of_eq e (.iteSnd h.readOff h))))))))

end

end Sys2Proof.Machine
end

section
/-! PROOFS. What the operations keep: queues and completions (Sys2Proof/Machine/Queue.lean). -/

namespace Sys2Proof.Machine

section
set_option Elab.async false
variable {b s : State} {φ : Prop}

theorem Keeps.modSprue {g : Sprue → Sprue} (h : Keeps b s) : Keeps b (s.modSprue g) :=
  h.beside

theorem Keeps.showQueue {n : Nat} (h : Keeps b s) : Keeps b (s.showQueue n) :=
  .ite h h.setF

theorem Keeps.setPending {n : Nat} (h : Keeps b s) : Keeps b (s.setPending n) :=
  .ite (.ite h h.modSprue) h.modSprue

theorem Keeps.clearSprue {n : Nat} (h : Keeps b s) : Keeps b (s.clearSprue n) :=
  h.modSprue

theorem Keeps.startRound (h : Keeps b s) : Keeps b s.startRound :=
  h.modSprue

theorem Keeps.serveOne (h : Keeps b s) : Keeps b s.serveOne := by
  unfold State.serveOne
  split
  · exact h
  · exact h.modSprue.showQueue

theorem Keeps.scan {k : Nat} (h : Keeps b s) : Keeps b (s.scan k) :=
  .foldl (.ite h.startRound h) (fun _ _ h₁ => h₁.serveOne)

theorem Keeps.doorbell {n cpl prod : Nat} (h : Keeps b s) : Keeps b (s.doorbell n cpl prod) :=
  .ite h (.ite (.showQueue (.setPending (.ite (.setF (.ite (.incSat (.ite h h.setF)) (.ite h h.setF))) (.ite (.incSat
      (.ite h h.setF)) (.ite h h.setF))))) (.ite (.setF (.ite (.incSat (.ite h h.setF)) (.ite h h.setF))) (.ite (.incSat
      (.ite h h.setF)) (.ite h h.setF))))

theorem Keeps.queueError {n code : Nat} (h : Keeps b s) : Keeps b (s.queueError n code) :=
  h.clearSprue.setF.setF

theorem Keeps.dropFrame {c : Nat} (h : Keeps b s) : Keeps b (s.dropFrame c) :=
  h.incSat.modCam

theorem Keeps.lockBuffers {x : Job} (h : Keeps b s) : Keeps b (s.lockBuffers x) :=
  h.each (fun _ _ h₁ => h₁.dropFrame)

theorem Keeps.fetchJob {n : Nat} (h : Keeps b s) : Keeps b (s.fetchJob n) := by
  unfold State.fetchJob
  refine .ite h ?_
  refine .ite h.modSprue ?_
  refine .ite h.modSprue.showQueue ?_
  dsimp only
  split
  · rename_i e
    exact (((((h.instRead.of_eq e).setF).validate).beside).lockBuffers).showQueue
  · rename_i e
    exact (h.instRead.of_eq e).queueError

theorem Keeps.waitDone {x : Job} (h : Keeps b s) : Keeps b (s.waitDone x).2 := by
  unfold State.waitDone
  refine .iteSnd h ?_
  split
  · rename_i e
    exact h.instRead.of_eq e
  · rename_i e
    exact h.instRead.of_eq e

theorem Keeps.stageFlag {x : Job} (h : Keeps b s) : Keeps b (s.stageFlag x).2 :=
  .iteSnd h.fresh h

theorem Keeps.beginJob {x : Job} (h : Keeps b s) : Keeps b (s.beginJob x) :=
  h.stageFlag.modQ.modJob

theorem Keeps.startJob {j : Nat} (h : Keeps b s) : Keeps b (s.startJob j) := by
  unfold State.startJob
  split
  · exact h
  · rename_i e
    refine .ite h ?_
    refine .ite h.endJob ?_
    refine .ite h ?_
    split
    · rename_i e₁
      exact (h.waitDone.of_eq e₁).endJob
    · rename_i e₁
      exact h.waitDone.of_eq e₁
    · rename_i e₁
      exact .ite ((h.waitDone.of_eq e₁).endJob) (.ite ((h.waitDone.of_eq e₁).beginJob) (h.waitDone.of_eq e₁))

theorem Keeps.expireJob {j : Nat} (h : Keeps b s) : Keeps b (s.expireJob j) := by
  unfold State.expireJob
  split
  · exact h
  · exact .ite h.endJob h

theorem Keeps.signalJob {x : Job} (h : Keeps b s) : Keeps b (s.signalJob x) := by
  unfold State.signalJob
  refine .ite h ?_
  split
  · rename_i e
    exact (h.instRead64.of_eq e).instWrite
  · rename_i e
    exact h.instRead64.of_eq e

theorem Keeps.jobDetail {x : Job} (h : Keeps b s) : Keeps b (s.jobDetail x).2 := by
  unfold State.jobDetail
  split
  · exact h
  · exact h.fresh

theorem Keeps.spoil {inst : Nat} {r : Nat × Nat} (h : Keeps b s) : Keeps b (s.spoil inst r) :=
  (h.freshBytes.withMem h.freshBytes.instWrite).updateOcc

theorem Keeps.spoilOutputs {x : Job} (h : Keeps b s) : Keeps b (s.spoilOutputs x) :=
  .ite (h.each (fun _ _ h₁ => h₁.spoil)) h

theorem Keeps.completeJob {j : Nat} (h : Keeps b s) : Keeps b (s.completeJob j) := by
  unfold State.completeJob
  dsimp only
  split
  · exact h
  · rename_i e
    refine .ite h ?_
    split
    · rename_i e₁
      exact .showQueue (.ite (((((h.spoilOutputs.signalJob.jobDetail.instWrite.of_eq e₁).beside).modQ).modQ).emit)
          ((((h.spoilOutputs.signalJob.jobDetail.instWrite.of_eq e₁).beside).modQ).modQ))
    · rename_i e₁
      exact (((h.spoilOutputs.signalJob.jobDetail.instWrite.of_eq e₁).beside).modQ).queueError

theorem Keeps.enableIdx {n : Nat} (h : Keeps b s) : Keeps b (s.enableIdx n) :=
  .ite h.setF.setF.setF.modQ.setF h.setF.setF.modQ

theorem Keeps.enableQueue {n : Nat} (h : Keeps b s) : Keeps b (s.enableQueue n) :=
  .ite h.setF.setF.modQ.enableIdx.queueError (.showQueue
      (.ite h.setF.setF.modQ.enableIdx.setPending h.setF.setF.modQ.enableIdx))

theorem Keeps.disableQueue {n : Nat} (h : Keeps b s) : Keeps b (s.disableQueue n) :=
  h.clearSprue.showQueue

end

end Sys2Proof.Machine
end

section
/-! PROOFS. What the operations keep: sequence contexts (Sys2Proof/Machine/Attention.lean). -/

namespace Sys2Proof.Machine

section
set_option Elab.async false
variable {b s : State} {φ : Prop}

theorem Keeps.gpa {i a : Nat} {write : Bool} (h : Keeps b s φ) : Keeps b (s.gpa i a write).2 φ := by
  unfold State.gpa
  dsimp only
  split
  · rename_i e
    refine .iteSnd ?_ ?_
    · refine .of_eq e ?_
      split
      · exact h
      · exact h
      · split
        · rename_i e₁
          exact h.devCtx.of_eq e₁
        · rename_i e₁
          split
          · rename_i e₂
            exact ((h.devCtx.of_eq e₁).gXlate).of_eq e₂
          · rename_i e₂
            exact ((h.devCtx.of_eq e₁).gXlate).of_eq e₂
    · refine .dtuFault ?_
      refine .of_eq e ?_
      split
      · exact h
      · exact h
      · split
        · rename_i e₁
          exact h.devCtx.of_eq e₁
        · rename_i e₁
          split
          · rename_i e₂
            exact ((h.devCtx.of_eq e₁).gXlate).of_eq e₂
          · rename_i e₂
            exact ((h.devCtx.of_eq e₁).gXlate).of_eq e₂
  · rename_i e
    refine .dtuFault ?_
    refine .of_eq e ?_
    split
    · exact h
    · exact h
    · split
      · rename_i e₁
        exact h.devCtx.of_eq e₁
      · rename_i e₁
        split
        · rename_i e₂
          exact ((h.devCtx.of_eq e₁).gXlate).of_eq e₂
        · rename_i e₂
          exact ((h.devCtx.of_eq e₁).gXlate).of_eq e₂

theorem Keeps.gReadL {i : Nat} {cs : List (Nat × Nat)} (h : Keeps b s φ) : Keeps b (gReadL i cs s).2 φ := by
  induction cs generalizing s with
  | nil => exact h
  | cons c cs ih =>
    unfold Machine.gReadL
    split
    · rename_i e
      exact h.gpa.of_eq e
    · rename_i e
      have h₁ := h.gpa.of_eq e
      split
      · rename_i e'
        exact .rdThen (ih (h₁.lineRead.of_eq e')) fun _ _ h₂ => h₂
      · rename_i e'
        exact h₁.lineRead.of_eq e'

theorem Keeps.gRead {i a n : Nat} (h : Keeps b s φ) : Keeps b (gRead i a n s).2 φ :=
  h.gReadL

theorem Keeps.gWriteL {i : Nat} {cs : List (Nat × Nat)} {bs : List Byte} (h : Keeps b s φ) : Keeps b (gWriteL i cs bs s).2 φ := by
  induction cs generalizing s bs with
  | nil => exact h
  | cons c cs ih =>
    unfold Machine.gWriteL
    split
    · rename_i e
      exact h.gpa.of_eq e
    · rename_i e
      have h₁ := h.gpa.of_eq e
      split
      · rename_i e'
        exact ih (h₁.lineWrite.of_eq e')
      · rename_i e'
        exact h₁.lineWrite.of_eq e'

theorem Keeps.gWrite {i a : Nat} {bs : List Byte} (h : Keeps b s φ) : Keeps b (gWrite i a bs s).2 φ :=
  h.gWriteL

theorem Keeps.gPut {i a : Nat} {bs : List Byte} (h : Keeps b s φ) : Keeps b (gPut i a bs s) φ :=
  h.gWrite

theorem Keeps.gCheck {i a : Nat} (h : Keeps b s) : Keeps b (gCheck i a s).2 := by
  unfold Machine.gCheck
  split
  · rename_i e
    exact h.gpa.of_eq e
  · rename_i e
    exact h.gpa.of_eq e

theorem Keeps.readLeaf {i : Nat} {x : Ctx} {p : Nat × Nat × Nat} (h : Keeps b s φ) : Keeps b (readLeaf i x p s).2 φ :=
  h.gRead.rdThen (fun _ _ h₁ => h₁)

theorem Keeps.dropTlb {i va n : Nat} (h : Keeps b s φ) : Keeps b (s.dropTlb i va n) φ :=
  h.beside

theorem Keeps.setLeaf {i : Nat} {x : Ctx} {p : Nat × Nat × Nat} {dst : Option (Nat × Bool)} (h : Keeps b s φ) :
    Keeps b (s.setLeaf i x p dst) φ :=
  h.gPut.dropTlb

theorem Keeps.setCount {i f n : Nat} (h : Keeps b s φ) : Keeps b (s.setCount i f n) φ :=
  .ite h h.beside

theorem Keeps.incCount {i f : Nat} (h : Keeps b s φ) : Keeps b (s.incCount i f) φ :=
  .ite h.incSat h.setCount

theorem Keeps.decCount {i f : Nat} (h : Keeps b s φ) : Keeps b (s.decCount i f) φ :=
  .ite h h.setCount

theorem Keeps.showAtt {i : Nat} (h : Keeps b s φ) : Keeps b (s.showAtt i) φ :=
  h.setF.setF.setF

theorem Keeps.readSpill {i id : Nat} (h : Keeps b s) : Keeps b (readSpill i id s).2 :=
  h.gRead.rdThen (fun _ _ h₁ => h₁)

theorem Keeps.clearSpill {i id : Nat} (h : Keeps b s) : Keeps b (s.clearSpill i id) := by
  unfold State.clearSpill
  split
  · rename_i e
    exact ((h.gRead.of_eq e).gPut).setF
  · rename_i e
    exact h.gRead.of_eq e

theorem Keeps.spillCtx {i : Nat} {v : Nat × Ctx} (h : Keeps b s) : Keeps b (spillCtx i v s).2 :=
  h.gWrite.rdThen (fun _ _ h₁ => h₁.setCtx.setF.incSat.showAtt)

theorem Keeps.mappedPages {i : Nat} {x : Ctx} {ps : List (Nat × Nat × Nat)} (h : Keeps b s φ) :
    Keeps b (mappedPages i x ps s).2 φ :=
  (h.readAll (fun _ _ h₁ => h₁.readLeaf.rdThen (fun _ _ h₂ => h₂))).rdThen (fun _ _ h₁ => h₁)

theorem Keeps.unmapAll {i : Nat} {x : Ctx} {ms : List ((Nat × Nat × Nat) × Nat)} (h : Keeps b s φ) :
    Keeps b (s.unmapAll i x ms) φ :=
  h.each (fun _ _ h₁ => h₁.decCount.setLeaf)

theorem Keeps.releaseSlot {i k : Nat} {ms : List ((Nat × Nat × Nat) × Nat)} (h : Keeps b s φ) :
    Keeps b (s.releaseSlot i k ms) φ :=
  h.unmapAll.setCtx.showAtt

theorem Keeps.attErr {j : Nat} {e : MRes} (h : Keeps b s) : Keeps b (s.attErr j e) :=
  h.endJob

theorem Keeps.takeRoom {x : Job} {id : Nat} {c : Ctx} {after : Nat → State → State}
    (h : Keeps b s) (hafter : ∀ x' t, Keeps b t → Keeps b (after x' t)) :
    Keeps b (s.takeRoom x id c after) := by
  unfold State.takeRoom
  dsimp only
  split
  · exact h.endJob
  · exact (hafter _ _ h.setCtx.showAtt).endJob
  · rename_i e
    split
    · rename_i e₁
      exact (h.spillCtx.of_eq e₁).attErr
    · rename_i e₁
      exact (hafter _ _ (((h.spillCtx.of_eq e₁).setCtx).showAtt)).endJob

theorem Keeps.admitLocal {x : Job} (h : Keeps b s) : Keeps b (s.admitLocal x) := by
  unfold State.admitLocal
  dsimp only
  split
  · rename_i e
    exact (h.readSpill.of_eq e).attErr
  · rename_i e
    exact (h.readSpill.of_eq e).endJob
  · rename_i e
    exact (h.readSpill.of_eq e).takeRoom (fun _ _ h₁ => h₁)

theorem Keeps.admitRestore {x : Job} (h : Keeps b s) : Keeps b (s.admitRestore x) := by
  unfold State.admitRestore
  dsimp only
  split
  · rename_i e
    exact (h.readSpill.of_eq e).attErr
  · rename_i e
    exact (h.readSpill.of_eq e).endJob
  · rename_i e
    split
    · rename_i e₁
      exact (((h.readSpill.of_eq e).gCheck).of_eq e₁).attErr
    · rename_i e₁
      exact (((h.readSpill.of_eq e).gCheck).of_eq e₁).takeRoom (fun _ _ h₁ => h₁.clearSpill)

theorem Keeps.sharePages {i : Nat} {par : Ctx} {ms : List ((Nat × Nat × Nat) × Nat)} {k : Nat} (h : Keeps b s φ) :
    Keeps b (s.sharePages i par ms k) φ :=
  ((h.each (fun _ _ h₁ => h₁.incCount.setLeaf.setLeaf)).setCtx).showAtt

theorem Keeps.sendSpread {dev : Nat} {m : SpreadMsg} (h : Keeps b s φ) : Keeps b (s.sendSpread dev m) φ :=
  h.wskOriginate

theorem Keeps.spreadPlace {c : Ctx} {w0 k : Nat} {fork : Option (Nat × Nat)} (h : Keeps b s φ) :
    Keeps b (s.spreadPlace c w0 k fork) φ := by
  unfold State.spreadPlace
  split
  · rename_i e
    split
    · exact h.setCtx.showAtt
    · dsimp only
      split
      · exact h.setCtx.showAtt
      · split
        · rename_i e₁
          exact (h.setCtx.showAtt.mappedPages.of_eq e₁).sharePages
        · rename_i e₁
          exact h.setCtx.showAtt.mappedPages.of_eq e₁
  · exact h

theorem Keeps.spreadDrop {i id : Nat} (h : Keeps b s φ) : Keeps b (s.spreadDrop i id) φ := by
  unfold State.spreadDrop
  split
  · exact h
  · rename_i e
    split
    · rename_i e₁
      exact (h.mappedPages.of_eq e₁).releaseSlot
    · rename_i e₁
      exact ((h.mappedPages.of_eq e₁).setCtx).showAtt

theorem Keeps.spreadEnd {x : Job} {code : Nat} (h : Keeps b s φ) : Keeps b (s.spreadEnd x code) φ := by
  unfold State.spreadEnd
  split <;> exact h.endJob

theorem Keeps.spreadSettle {x : Job} {code : Nat} (h : Keeps b s φ) : Keeps b (s.spreadSettle x code) φ := by
  unfold State.spreadSettle
  refine .ite h.spreadEnd ?_
  refine .spreadEnd ?_
  refine .spreadDrop ?_
  split
  · rename_i e
    exact (h.instRead.of_eq e).each (fun _ _ h₁ => h₁.sendSpread)
  · rename_i e
    exact h.instRead.of_eq e

theorem Keeps.admitSpread {x : Job} {c : Ctx} {fork : Option (Nat × Nat)} (h : Keeps b s) :
    Keeps b (s.admitSpread x c fork) := by
  unfold State.admitSpread
  dsimp only
  split
  · rename_i e
    refine .ite ((h.instRead.of_eq e).endJob) ?_
    split
    · exact .ite ((((h.instRead.of_eq e).spreadPlace).modJob).each (fun _ _ h₁ => h₁.sendSpread))
          (((h.instRead.of_eq e).fresh).endJob)
    · exact (h.instRead.of_eq e).spreadEnd
  · rename_i e
    exact (h.instRead.of_eq e).attErr

theorem Keeps.admitFork {x : Job} (h : Keeps b s) : Keeps b (s.admitFork x) := by
  unfold State.admitFork
  dsimp only
  split
  · exact h.endJob
  · rename_i e
    refine .ite h.endJob ?_
    refine .ite h.admitSpread ?_
    split
    · rename_i e₁
      exact (h.mappedPages.of_eq e₁).attErr
    · rename_i e₁
      split
      · rename_i e₂
        exact (((h.mappedPages.of_eq e₁).readAll (fun _ _ h₁ => h₁.gCheck)).of_eq e₂).attErr
      · rename_i e₂
        exact (((h.mappedPages.of_eq e₁).readAll (fun _ _ h₁ => h₁.gCheck)).of_eq e₂).takeRoom (fun _ _ h₁ => h₁.sharePages)

theorem Keeps.recountCtx {i : Nat} {x : Ctx} {acc : NMap Nat × State} (h : Keeps b acc.2) :
    Keeps b (recountCtx i x acc).2 := by
  unfold Machine.recountCtx
  refine .foldlSnd h ?_
  intro _ _ h₁
  split
  · rename_i e
    exact h₁.readLeaf.of_eq e
  · rename_i e
    exact h₁.readLeaf.of_eq e

theorem Keeps.adoptSpill {i id : Nat} {acc : NMap Nat × Nat × State} (h : Keeps b acc.2.2) :
    Keeps b (adoptSpill i acc id).2.2 := by
  unfold Machine.adoptSpill
  dsimp only
  split
  · rename_i e
    exact .iteSnd₂ (((h.gRead.of_eq e).recountCtx).gPut) (h.gRead.of_eq e)
  · rename_i e
    exact h.gRead.of_eq e

theorem Keeps.sweepEnd {i : Nat} (h : Keeps b s) : Keeps b (s.sweepEnd i) :=
  .ite h ((((((h.foldlSnd (fun _ _ h₁ => h₁.recountCtx)).foldlSnd₂
      (fun _ _ h₁ => h₁.adoptSpill)).beside).setF).setF).showAtt)

theorem Keeps.closeRun {r : OpenRun} {add : Nat} (h : Keeps b s φ) : Keeps b (s.closeRun r add) φ := by
  unfold State.closeRun
  refine .showAtt ?_
  refine .beside ?_
  refine .each h ?_
  intro _ _ h₁
  split
  · exact h₁.setCtx
  · exact h₁

theorem Keeps.closeRuns {i : Nat} (h : Keeps b s) : Keeps b (s.closeRuns i) :=
  h.each (fun _ _ h₁ => h₁.closeRun)

end

end Sys2Proof.Machine
end

section
/-! PROOFS. What the operations keep: attention steps (Sys2Proof/Machine/AttnRun.lean). -/

namespace Sys2Proof.Machine

section
set_option Elab.async false
variable {b s : State} {φ : Prop}

theorem Keeps.spreadW0 {i : Nat} {c : Ctx} (h : Keeps b s) : Keeps b (spreadW0 i c s).2 := by
  unfold Machine.spreadW0
  refine .iteSnd h ?_
  split
  · rename_i e
    exact h.instRead.of_eq e
  · rename_i e
    exact h.instRead.of_eq e

theorem Keeps.checkCopy {i : Nat} {c : Ctx} {f : Option Nat} (h : Keeps b s) : Keeps b (checkCopy i c f s).2 := by
  unfold Machine.checkCopy
  split
  · exact .iteSnd (h.gRead.rdThen (fun _ _ h₁ => h₁)) h
  · exact h

theorem Keeps.checkPage {i : Nat} {c : Ctx} {copy : Bool} {p : Nat × Nat × Nat} (h : Keeps b s) :
    Keeps b (checkPage i c copy p s).2 :=
  h.readLeaf.rdThen (fun _ _ h₁ => h₁.gCheck.rdThen (fun _ _ h₂ => .iteSnd h₂.checkCopy h₂))

theorem Keeps.checkAll {x : Job} {es : List BEnt} (h : Keeps b s) : Keeps b (checkAll x es s).2 := by
  unfold Machine.checkAll
  refine .rdThen (h.readAll (fun _ _ h₁ => .iteSnd h₁ ((h₁.readAll (fun _ _ h₂ => h₂.checkPage)).rdThen
      (fun _ _ h₂ => h₂)))) ?_
  intro _ _ h₁
  refine .rdThen ?_ (fun _ _ h₂ => h₂)
  refine .readAll h₁ ?_
  intro _ _ h₂
  split
  · rename_i e
    exact h₂.xlate.of_eq e
  · rename_i e
    exact h₂.xlate.of_eq e

theorem Keeps.tellPeers {i : Nat} {c : Ctx} {act : Nat} (h : Keeps b s) : Keeps b (s.tellPeers i c act) := by
  unfold State.tellPeers
  refine .ite h ?_
  split
  · rename_i e
    exact (h.instRead.of_eq e).each (fun _ _ h₁ => h₁.sendSpread)
  · rename_i e
    exact h.instRead.of_eq e

theorem Keeps.phase1 {x : Job} {e : BEnt} {acc : List BEnt × State} (h : Keeps b acc.2) :
    Keeps b (State.phase1 x acc e).2 := by
  unfold State.phase1
  refine .iteSnd h ?_
  refine .iteSnd ?_ (.iteSnd h.tellPeers h)
  dsimp only
  split
  · rename_i e
    exact ((h.mappedPages.of_eq e).tellPeers).releaseSlot
  · rename_i e
    exact h.mappedPages.of_eq e

theorem Keeps.demand {x : Job} {e : BEnt} {acc : List BEnt × State} (h : Keeps b acc.2) :
    Keeps b (State.demand x acc e).2 := by
  unfold State.demand
  refine .iteSnd h ?_
  dsimp only
  split
  · rename_i e
    exact h.spreadW0.of_eq e
  · rename_i e
    split
    · rename_i e₁
      exact ((h.spreadW0.of_eq e).readAll (fun _ _ h₁ => h₁.readLeaf.rdThen (fun _ _ h₂ => h₂))).of_eq e₁
    · rename_i e₁
      exact ((h.spreadW0.of_eq e).readAll (fun _ _ h₁ => h₁.readLeaf.rdThen (fun _ _ h₂ => h₂))).of_eq e₁

theorem Keeps.copyPage {i old new n : Nat} (h : Keeps b s φ) : Keeps b (s.copyPage i old new n) φ := by
  unfold State.copyPage
  split
  · rename_i e
    exact (h.gRead.of_eq e).gPut
  · rename_i e
    exact h.gRead.of_eq e

theorem Keeps.mapOne {i slot : Nat} {p : (Nat × Nat × Nat) × Option (Nat × Nat)} (h : Keeps b s φ) :
    Keeps b (s.mapOne i slot p) φ := by
  unfold State.mapOne
  split
  · rename_i e
    split
    · exact h
    · exact .setCtx (.ite h.setCount.setLeaf.setCtx h.setCount.setLeaf)
  · rename_i e
    refine .ite h.setLeaf ?_
    split
    · exact h
    · exact h.setCount.copyPage.decCount.setLeaf.incSat

theorem Keeps.mapEnt {i : Nat} {e : BEnt} (h : Keeps b s) : Keeps b (s.mapEnt i e) :=
  h.foldl (fun _ _ h₁ => h₁.mapOne)

theorem Keeps.peersUp {i : Nat} {c : Ctx} (h : Keeps b s) : Keeps b (s.peersUp i c).2 := by
  unfold State.peersUp
  refine .iteSnd h ?_
  split
  · rename_i e
    exact h.instRead.of_eq e
  · rename_i e
    exact h.instRead.of_eq e

theorem Keeps.forward {x : Job} {e : BEnt} {acc : List BEnt × State} (h : Keeps b acc.2) :
    Keeps b (State.forward x acc e).2 := by
  unfold State.forward
  refine .iteSnd h ?_
  split
  · rename_i e
    exact h.peersUp.of_eq e
  · rename_i e
    exact h.peersUp.of_eq e

theorem Keeps.phases {x : Job} {es : List BEnt} (h : Keeps b s) : Keeps b (s.phases x es).2 :=
  ((h.incSat.each (fun _ _ h₁ => h₁.mapEnt)).foldlSnd₂ (fun _ _ h₁ => .iteSnd₂ h₁.mapEnt h₁.incSat)).showAtt

theorem Keeps.markBusy {f : Nat} {step : Bool} {es : List BEnt} (h : Keeps b s) : Keeps b (s.markBusy f step es) :=
  h.each (fun _ _ h₁ => h₁.setCtx)

theorem Keeps.writeResults {x : Job} {es : List BEnt} (h : Keeps b s) : Keeps b (s.writeResults x es).2 :=
  h.writeAll

theorem Keeps.readBytes {i addr n : Nat} (h : Keeps b s) : Keeps b (readBytes i addr n s).2 := by
  unfold Machine.readBytes
  split
  · rename_i e
    exact h.instRead.of_eq e
  · rename_i e
    exact h.instRead.of_eq e

theorem Keeps.writeBytes {i addr : Nat} {bs : List Byte} (h : Keeps b s φ) : Keeps b (writeBytes i addr bs s).2 φ := by
  unfold Machine.writeBytes
  split
  · rename_i e
    exact h.instWrite.of_eq e
  · rename_i e
    exact h.instWrite.of_eq e

theorem Keeps.countKv {xs : List Nat} (h : Keeps b s φ) : Keeps b (s.countKv xs) φ :=
  h.beside

theorem Keeps.kvRows {x : Job} {c : Ctx} {e u hf : Nat} (h : Keeps b s) : Keeps b (kvRows x c e u hf s).2 :=
  h.readBytes.rdThen (fun _ _ h₁ => h₁.readBytes.rdThen (fun _ _ h₂ => h₂))

theorem Keeps.appendRow {x : Job} {c : Ctx} {r : Nat × Nat × List Byte × List Byte} (h : Keeps b s φ) :
    Keeps b (appendRow x c r s).2 φ :=
  h.countKv.countKv.writeBytes.rdThen (fun _ _ h₁ => h₁.writeBytes)

theorem Keeps.readSlot {i : Nat} {c : Ctx} {va sl : Nat} (h : Keeps b s φ) : Keeps b (readSlot i c va sl s).2 φ := by
  unfold Machine.readSlot
  split
  · rename_i e
    split
    · rename_i e₁
      exact ((h.instRead.of_eq e).instRead).of_eq e₁
    · rename_i e₁
      exact ((h.instRead.of_eq e).instRead).of_eq e₁
  · rename_i e
    exact h.instRead.of_eq e

theorem Keeps.pageSlots {x : Job} {c : Ctx} {hf p j : Nat} (h : Keeps b s φ) : Keeps b (pageSlots x c hf p j s).2 φ :=
  h.readAll (fun _ _ h₁ => h₁.readSlot)

theorem Keeps.foldPages {x : Job} {c : Ctx} {w0 me hf p : Nat} {qs : List Nat} {fuel : Nat} {f : FoldPart} (h : Keeps b s φ) :
    Keeps b (foldPages x c w0 me hf p qs fuel f s).2 φ := by
  induction fuel generalizing s f with
  | zero => exact h
  | succ fuel ih =>
    unfold Machine.foldPages
    refine .iteSnd h ?_
    split
    · rename_i e
      exact ih (h.pageSlots.of_eq e)
    · rename_i e
      exact h.pageSlots.of_eq e

theorem Keeps.queryRow {x : Job} {c : Ctx} {rec_ : List Byte} {me : Nat} {y : SpreadQuery} (h : Keeps b s φ) :
    Keeps b (queryRow x c rec_ me y s).2 φ :=
  h.foldPages.rdThen (fun _ _ h₁ => .iteSnd (.iteSnd ((h₁.whenB h₁.cflag).writeBytes) h₁.sendSpread) (.sendSpread
      (.ite h₁.modJob h₁)))

theorem Keeps.losePeer {x : Job} {e k : Nat} {r : OpenRun} (h : Keeps b s) : Keeps b (s.losePeer x e k r) :=
  h.instWrite.setCtx.beside

theorem Keeps.runEntry {x : Job} {r : OpenRun} {e : Nat × Nat} (h : Keeps b s) : Keeps b (runEntry x r e s).2 := by
  unfold Machine.runEntry
  split
  · exact h
  · dsimp only
    split
    · rename_i e
      exact (h.peersUp.of_eq e).losePeer
    · rename_i e
      exact .rdThen (.iteSnd ((h.peersUp.of_eq e).readBytes) (h.peersUp.of_eq e)) (fun _ _ h₁ => (h₁.readAll
          (fun _ _ h₂ => h₂.kvRows)).rdThen (fun _ _ h₂ => .rdThen (.readAll (.ite h₂ (h₂.each
          (fun _ _ h₃ => h₃.sendSpread))) (fun _ _ h₃ => h₃.appendRow)) (fun _ _ h₃ => (h₃.readAll
          (fun _ _ h₄ => h₄.readBytes.rdThen (fun _ _ h₅ => h₅.queryRow))).rdThen (fun _ _ h₄ => h₄))))

theorem Keeps.rowsDone {x : Job} {r : OpenRun} {status detail : Nat} (h : Keeps b s φ) :
    Keeps b (s.rowsDone x r status detail) φ := by
  unfold State.rowsDone
  refine .endJob ?_
  refine .ite ?_ h
  split
  · exact h.closeRun
  · exact h

theorem Keeps.runRows {x : Job} {r : OpenRun} {status detail : Nat} (h : Keeps b s) :
    Keeps b (s.runRows x r status detail) := by
  unfold State.runRows
  split
  · rename_i e
    exact .ite (((h.modJob.readAll (fun _ _ h₁ => h₁.runEntry)).of_eq e).modJob) (((h.modJob.readAll
        (fun _ _ h₁ => h₁.runEntry)).of_eq e).rowsDone)
  · rename_i e
    exact .attErr (.ite (((h.modJob.readAll (fun _ _ h₁ => h₁.runEntry)).of_eq e).closeRun) ((h.modJob.readAll
        (fun _ _ h₁ => h₁.runEntry)).of_eq e))

theorem Keeps.openWith {x : Job} {es : List BEnt} (h : Keeps b s) : Keeps b (s.openWith x es) := by
  unfold State.openWith
  dsimp only
  split
  · rename_i e
    split <;> exact (h.markBusy.beside.showAtt.writeResults.of_eq e).runRows
  · rename_i e
    exact (h.markBusy.beside.showAtt.writeResults.of_eq e).attErr

theorem Keeps.openFirst {x : Job} {es : List BEnt} (h : Keeps b s) : Keeps b (s.openFirst x es) := by
  unfold State.openFirst
  dsimp only
  refine .ite h.endJob ?_
  split
  · rename_i e
    exact (h.checkAll.of_eq e).attErr
  · rename_i e
    refine .ite (.openWith (.phases (.foldlSnd (.foldlSnd (.foldlSnd (.ite ((h.checkAll.of_eq e).incWrap)
        (h.checkAll.of_eq e)) (fun _ _ h₁ => h₁.phase1)) (fun _ _ h₁ => h₁.demand)) (fun _ _ h₁ => h₁.forward)))) ?_
    split
    · split
      · rename_i e₁
        exact .endJob (.of_eq e₁ (.writeResults (.incSat (.foldlSnd (.foldlSnd (.foldlSnd (.ite
            ((h.checkAll.of_eq e).incWrap) (h.checkAll.of_eq e)) (fun _ _ h₁ => h₁.phase1)) (fun _ _ h₁ => h₁.demand))
            (fun _ _ h₁ => h₁.forward)))))
      · rename_i e₁
        exact .attErr (.of_eq e₁ (.writeResults (.incSat (.foldlSnd (.foldlSnd (.foldlSnd (.ite
            ((h.checkAll.of_eq e).incWrap) (h.checkAll.of_eq e)) (fun _ _ h₁ => h₁.phase1)) (fun _ _ h₁ => h₁.demand))
            (fun _ _ h₁ => h₁.forward)))))
    · exact .openWith (.showAtt (.each (.foldlSnd (.foldlSnd (.foldlSnd (.ite ((h.checkAll.of_eq e).incWrap)
          (h.checkAll.of_eq e)) (fun _ _ h₁ => h₁.phase1)) (fun _ _ h₁ => h₁.demand)) (fun _ _ h₁ => h₁.forward))
          (fun _ _ h₁ => h₁.mapEnt)))

theorem Keeps.attnJob {x : Job} (h : Keeps b s) : Keeps b (s.attnJob x) := by
  unfold State.attnJob
  dsimp only
  refine .ite ?_ ?_
  · split
    · rename_i e
      split
      · exact .ite (.ite ((h.instRead.of_eq e).openFirst) ((h.instRead.of_eq e).endJob)) (.ite
            ((h.instRead.of_eq e).endJob) ((h.instRead.of_eq e).runRows))
      · exact .ite ((h.instRead.of_eq e).openFirst) ((h.instRead.of_eq e).endJob)
    · rename_i e
      exact (h.instRead.of_eq e).attErr
  · split
    · exact .ite (.ite h.openFirst h.endJob) (.ite h.endJob h.runRows)
    · exact .ite h.openFirst h.endJob

theorem Keeps.runningJob {j op : Nat} {g : Job → State} (h : Keeps b s) (hg : ∀ x, Keeps b (g x)) :
    Keeps b (s.runningJob j op g) := by
  unfold State.runningJob
  split
  · exact h
  · exact .ite (hg _) h

theorem Keeps.releaseSpilled {x : Job} {id : Nat} (h : Keeps b s) : Keeps b (s.releaseSpilled x id) := by
  unfold State.releaseSpilled
  dsimp only
  split
  · rename_i e
    exact (h.readSpill.of_eq e).attErr
  · rename_i e
    exact (h.readSpill.of_eq e).endJob
  · rename_i e
    split
    · rename_i e₁
      exact (((h.readSpill.of_eq e).mappedPages).of_eq e₁).attErr
    · rename_i e₁
      exact ((((((h.readSpill.of_eq e).mappedPages).of_eq e₁).unmapAll).clearSpill).showAtt).endJob

end

end Sys2Proof.Machine
end

section
/-! PROOFS. What the operations keep: the time counter (Sys2Proof/Machine/Time.lean). -/

namespace Sys2Proof.Machine

section
set_option Elab.async false
variable {b s : State} {φ : Prop}

theorem Keeps.edge (h : Keeps b s) : Keeps b s.edge :=
  h.beside

theorem Keeps.fireCmp {n : Nat} (h : Keeps b s) : Keeps b (s.fireCmp n) :=
  .ite (.setF (.ite h.setF.mgrIrq.emit h.setF.mgrIrq)) (.incSat (.setF (.ite h.setF.mgrIrq.emit h.setF.mgrIrq)))

end

end Sys2Proof.Machine
end

section
/-! PROOFS. What the operations keep: host rings (Sys2Proof/Machine/Ether.lean). -/

namespace Sys2Proof.Machine

section
set_option Elab.async false
variable {b s : State} {φ : Prop}

theorem Keeps.headDesc {k : Bool} {r : Nat} (h : Keeps b s φ) : Keeps b (s.headDesc k r).2 φ := by
  unfold State.headDesc
  split
  · rename_i e
    exact h.rtRead.of_eq e
  · rename_i e
    exact h.rtRead.of_eq e

theorem Keeps.writeBack {k : Bool} {r : Nat} {ps : List (Nat × List Byte)} (h : Keeps b s φ) : Keeps b (s.writeBack k r ps) φ :=
  ((h.each (fun _ _ h₁ => h₁.rtWrite)).incWrap).emit

theorem Keeps.ethWb {r ts frac status port len vid : Nat} {stream : Option Nat} (h : Keeps b s φ) :
    Keeps b (s.ethWb r ts frac status port len vid stream) φ :=
  h.writeBack

theorem Keeps.modGate {n : Nat} {g : GateEng → GateEng} (h : Keeps b s) : Keeps b (s.modGate n g) :=
  h.beside

theorem Keeps.loadGates {p base : Nat} (h : Keeps b s) : Keeps b (s.loadGates p base) := by
  unfold State.loadGates
  exact h.modGate

theorem Keeps.portGate {p : Nat} (h : Keeps b s) : Keeps b (s.portGate p) := by
  unfold State.portGate
  dsimp only
  split
  · exact .ite h.loadGates (.ite h.modGate h)
  · exact .ite h.modGate h

theorem Keeps.streamGate {n : Nat} (h : Keeps b s) : Keeps b (s.streamGate n) :=
  .ite h h.modGate

end

end Sys2Proof.Machine
end

section
/-! PROOFS. What the operations keep: the switch (Sys2Proof/Machine/Switch.lean). -/

namespace Sys2Proof.Machine

section
set_option Elab.async false
variable {b s : State} {φ : Prop}

theorem Keeps.usePn {p : Nat} (h : Keeps b s φ) : Keeps b (s.usePn p) φ :=
  .ite h.beside h

theorem Keeps.notePn {p : Nat} {y0 : Option (Nat × Nat)} (h : Keeps b s) : Keeps b (s.notePn p y0) := by
  unfold State.notePn
  split
  · exact h
  · exact h.beside

theorem Keeps.meterPass {n len : Nat} (h : Keeps b s φ) : Keeps b (s.meterPass n len).2 φ :=
  .iteSnd h.beside (.iteSnd h.beside h.beside)

theorem Keeps.filterPass {n len : Nat} (h : Keeps b s φ) : Keeps b (s.filterPass n len).2 φ :=
  .iteSnd h (.iteSnd h h.meterPass)

theorem Keeps.setCb {k : Nat} {x : CbSt} (h : Keeps b s φ) : Keeps b (s.setCb k x) φ :=
  h.beside

theorem Keeps.cbNumber {stream : Option Nat} (h : Keeps b s φ) : Keeps b (s.cbNumber stream).2 φ := by
  unfold State.cbNumber
  split
  · exact h
  · exact h.setCb

theorem Keeps.recoverSeq {i : EthItem} {seq : Nat} (h : Keeps b s φ) : Keeps b (s.recoverSeq i seq).2 φ :=
  h.setCb

theorem Keeps.cbAt {p : Nat} {stream : Option Nat} {num : Option (Nat × Nat)} {bs : List Byte} (h : Keeps b s φ) :
    Keeps b (s.cbAt p stream num bs).2 φ := by
  unfold State.cbAt
  dsimp only
  split
  · rename_i e
    split
    · rename_i e₁
      exact h.recoverSeq.of_eq e₁
    · rename_i e₁
      exact h.recoverSeq.of_eq e₁
  · exact h

theorem Keeps.setShaper {p c : Nat} {x : ShaperSt} (h : Keeps b s φ) : Keeps b (s.setShaper p c x) φ :=
  h.beside

theorem Keeps.lookShaper {p c : Nat} {waits : Bool} (h : Keeps b s φ) : Keeps b (s.lookShaper p c waits) φ :=
  .ite h.setShaper h

theorem Keeps.startFrame {p c : Nat} {bs : List Byte} (h : Keeps b s φ) : Keeps b (s.startFrame p c bs) φ :=
  .emit (.usePn (.ite h.setShaper h))

theorem Keeps.setEgress {p : Nat} {q : List (Nat × List Byte)} (h : Keeps b s φ) : Keeps b (s.setEgress p q) φ :=
  h.beside

theorem Keeps.drainPort {p n : Nat} (h : Keeps b s φ) : Keeps b (s.drainPort p n) φ := by
  induction n generalizing s with
  | zero =>
    unfold State.drainPort
    exact h.each fun _ _ h => h.lookShaper
  | succ n ih =>
    unfold State.drainPort
    split
    · exact ih h.setEgress.startFrame
    · unfold State.drainPort
      exact h.each fun _ _ h => h.lookShaper

theorem Keeps.offer {p c : Nat} {bs : List Byte} (h : Keeps b s φ) : Keeps b (s.offer p c bs) φ :=
  .ite h.setEgress.drainPort h

theorem Keeps.weskaFrame {dev : Option Nat} {bs : List Byte} (h : Keeps b s φ) : Keeps b (s.weskaFrame dev bs) φ := by
  unfold State.weskaFrame
  split
  · exact h.wskOriginate
  · exact h.wskBroadcast

theorem Keeps.toRing {r port vid : Nat} {stream : Option Nat} {f : List Byte} (h : Keeps b s φ) :
    Keeps b (s.toRing r port vid stream f) φ := by
  unfold State.toRing
  dsimp only
  refine .ite h.incSat ?_
  split
  · rename_i e
    exact (h.headDesc.of_eq e).incSat
  · rename_i e
    refine .ite ((h.headDesc.of_eq e).ethWb) ?_
    split
    · rename_i e₁
      exact (((h.headDesc.of_eq e).rtWrite).of_eq e₁).ethWb
    · rename_i e₁
      exact (((h.headDesc.of_eq e).rtWrite).of_eq e₁).ethWb

theorem Keeps.toHost {hf port vid : Nat} {stream : Option Nat} {bs : List Byte} (h : Keeps b s φ) :
    Keeps b (s.toHost hf port vid stream bs) φ := by
  unfold State.toHost
  split
  · exact h.toRing
  · exact .ite h.toRing h.incSat

theorem Keeps.sendPort {q src vid pcp : Nat} {stream dev : Option Nat} {bs : List Byte} (h : Keeps b s φ) :
    Keeps b (s.sendPort q src vid pcp stream dev bs) φ :=
  .ite h.weskaFrame (.ite h.toHost (.ite h h.offer))

theorem Keeps.switchFrame {src : Nat} {bs : List Byte} (h : Keeps b s φ) : Keeps b (s.switchFrame src bs).2 φ := by
  unfold State.switchFrame
  refine .iteSnd ?_ ?_
  · split
    · exact h.filterPass
    · exact h
  · refine .each ?_ ?_
    · refine .cbNumber ?_
      split
      · exact h.filterPass
      · exact h
    · intro _ _ h₁
      split
      · rename_i e
        exact (h₁.cbAt.of_eq e).sendPort
      · rename_i e
        exact h₁.cbAt.of_eq e

theorem Keeps.txEnd {r status port : Nat} (h : Keeps b s) : Keeps b (s.txEnd r status port) :=
  h.ethWb

theorem Keeps.transmitTo {r : Nat} {d : List Nat} {bs : List Byte} (h : Keeps b s) : Keeps b (s.transmitTo r d bs) := by
  unfold State.transmitTo
  refine .ite ?_ ?_
  · refine .txEnd ?_
    split
    · exact h.filterPass
    · exact h
  · refine .ethWb ?_
    refine .startFrame ?_
    split
    · exact h.filterPass
    · exact h

theorem Keeps.transmit {r : Nat} {d : List Nat} (h : Keeps b s) : Keeps b (s.transmit r d) := by
  unfold State.transmit
  refine .ite h.txEnd ?_
  refine .ite h ?_
  refine .ite h.txEnd ?_
  refine .ite h.txEnd ?_
  refine .ite h.lookShaper ?_
  split
  · rename_i e
    exact .ite ((h.rtRead.of_eq e).transmitTo) (((h.rtRead.of_eq e).switchFrame).txEnd)
  · rename_i e
    exact (h.rtRead.of_eq e).txEnd

theorem Keeps.receive {f : EthFrame} (h : Keeps b s) : Keeps b (s.receive f) :=
  .ite h (.switchFrame (.ite h.notePn h))

end

end Sys2Proof.Machine
end

section
/-! PROOFS. What the operations keep: the CAN controllers (Sys2Proof/Machine/Can.lean). -/

namespace Sys2Proof.Machine

section
set_option Elab.async false
variable {b s : State} {φ : Prop}

theorem Keeps.canWb {r : Nat} {d : List Nat} {status ts frac : Nat} (h : Keeps b s) : Keeps b (s.canWb r d status ts frac) :=
  h.writeBack

theorem Keeps.flushQueue {r status n : Nat} (h : Keeps b s) : Keeps b (s.flushQueue r status n) := by
  induction n generalizing s with
  | zero => exact h
  | succ n ih =>
    unfold State.flushQueue
    refine .ite h ?_
    split
    · rename_i e
      exact ih (h.headDesc.of_eq e).canWb
    · rename_i e
      exact ih (h.headDesc.of_eq e).incWrap

theorem Keeps.dropLost {c q n : Nat} (h : Keeps b s) : Keeps b (s.dropLost c q n) := by
  induction n generalizing s with
  | zero => exact h
  | succ n ih =>
    unfold State.dropLost
    refine .ite h ?_
    split
    · rename_i e
      have h₁ := h.headDesc.of_eq e
      exact .ite (ih h₁.canWb) h₁
    · rename_i e
      exact h.headDesc.of_eq e

theorem Keeps.ownerIrq (h : Keeps b s) : Keeps b s.ownerIrq :=
  h.fresh.fresh.emit

theorem Keeps.compete {c n : Nat} {f : CanFrame} (h : Keeps b s) : Keeps b (s.compete c n f) :=
  .ite h.modCan ((h.setF.setF.modCan.each (fun _ _ h₁ => h₁.dropLost)).ownerIrq)

theorem Keeps.answerRequest {c dest : Nat} (h : Keeps b s) : Keeps b (s.answerRequest c dest) :=
  h.each (fun _ _ h₁ => .ite h₁ h₁.modCan)

theorem Keeps.j1939Receive {c : Nat} {f : CanFrame} (h : Keeps b s) : Keeps b (s.j1939Receive c f) := by
  unfold State.j1939Receive
  refine .ite h ?_
  refine .ite ?_ (.ite h.answerRequest h)
  split
  · exact h.compete
  · exact h

theorem Keeps.queueHead {c q : Nat} (h : Keeps b s) : Keeps b (s.queueHead c q).2 := by
  unfold State.queueHead
  refine .iteSnd h.dropLost ?_
  split
  · rename_i e
    exact h.dropLost.headDesc.of_eq e
  · rename_i e
    exact .iteSnd (h.dropLost.headDesc.of_eq e) (.iteSnd ((h.dropLost.headDesc.of_eq e).canWb) (.iteSnd
        ((h.dropLost.headDesc.of_eq e).canWb) (h.dropLost.headDesc.of_eq e)))

theorem Keeps.canOffers {c : Nat} (h : Keeps b s) : Keeps b (s.canOffers c).2 := by
  unfold State.canOffers
  refine .foldlSnd h ?_
  intro _ _ h₁
  split
  · rename_i e
    exact h₁.queueHead.of_eq e
  · rename_i e
    exact h₁.queueHead.of_eq e

theorem Keeps.sendOffer {c : Nat} {o : CanSrc × List Nat × CanFrame} (h : Keeps b s) : Keeps b (s.sendOffer c o) := by
  unfold State.sendOffer
  split
  · exact h.modCan.emit
  · exact h.modCan.emit
  · rename_i e
    dsimp only
    split
    · rename_i e₁
      exact ((h.rtRead.of_eq e₁).emit).canWb
    · rename_i e₁
      exact (h.rtRead.of_eq e₁).canWb

theorem Keeps.sendPdu {t : Nat} (h : Keeps b s) : Keeps b (s.sendPdu t) :=
  .ite h h.emit.modTun

theorem Keeps.tunnelMsg {t : Nat} {m : AcfMsg} (h : Keeps b s) : Keeps b (s.tunnelMsg t m) :=
  .ite h (.ite (.sendPdu (.modTun (.ite h.sendPdu h))) (.modTun (.ite h.sendPdu h)))

theorem Keeps.readTunnels (h : Keeps b s) : Keeps b s.readTunnels := by
  unfold State.readTunnels
  refine .each h ?_
  intro _ _ h₁
  split
  · rename_i e
    exact (h₁.physRead.of_eq e).modTun
  · rename_i e
    exact (h₁.physRead.of_eq e).modTun

theorem Keeps.routeTo {c : Nat} {f : CanFrame} (h : Keeps b s) : Keeps b (s.routeTo c f) :=
  .ite h.incSat h.modCan

theorem Keeps.canDeliver {c ring : Nat} {f : CanFrame} (h : Keeps b s) : Keeps b (s.canDeliver c ring f) := by
  unfold State.canDeliver
  refine .ite h ?_
  refine .ite h ?_
  refine .ite h.incSat ?_
  split
  · rename_i e
    exact (h.headDesc.of_eq e).incSat
  · rename_i e
    refine .writeBack ?_
    split
    · rename_i e₁
      exact ((h.headDesc.of_eq e).rtWrite).of_eq e₁
    · rename_i e₁
      exact ((h.headDesc.of_eq e).rtWrite).of_eq e₁

theorem Keeps.canAction {c action ring dest tunnel : Nat} {f : CanFrame} (h : Keeps b s) :
    Keeps b (s.canAction c action ring dest tunnel f) := by
  unfold State.canAction
  split
  · exact h.canDeliver
  · exact .ite h.incSat h.tunnelMsg
  · exact .ite h.canDeliver.incSat h.canDeliver.tunnelMsg
  · exact h.routeTo
  · exact h

theorem Keeps.canReceive {c : Nat} {f : CanFrame} (h : Keeps b s) : Keeps b (s.canReceive c f) := by
  unfold State.canReceive
  dsimp only
  split
  · exact h.j1939Receive.canAction
  · exact h.j1939Receive.fresh.fresh.canAction

theorem Keeps.inMsg {t : Nat} {m : AcfMsg} (h : Keeps b s) : Keeps b (s.inMsg t m) := by
  unfold State.inMsg
  split
  · exact h.routeTo
  · exact h.modTun

theorem Keeps.inPdu {t seq : Nat} {msgs : List AcfMsg} (h : Keeps b s) : Keeps b (s.inPdu t seq msgs) :=
  .each (.modTun (.ite (h.each (fun _ _ h₁ => h₁.incSat)) h)) (fun _ _ h₁ => h₁.inMsg)

end

end Sys2Proof.Machine
end

section
/-! PROOFS. What the operations keep: CONV jobs (Sys2Proof/Machine/ConvRun.lean). -/

namespace Sys2Proof.Machine

section
set_option Elab.async false
variable {b s : State} {φ : Prop}

theorem Keeps.placeTiles {x : Job} (h : Keeps b s) : Keeps b (s.placeTiles x) :=
  .ite h h.queueTiles.modJob

theorem Keeps.vBytes {inst va n : Nat} (h : Keeps b s) : Keeps b (vBytes inst va n s).2 := by
  unfold Machine.vBytes
  split
  · rename_i e
    exact h.instRead.of_eq e
  · rename_i e
    exact h.instRead.of_eq e

theorem Keeps.vAll {α β : Type} {g : α → State → Rs β} {xs : List α} (h : Keeps b s)
    (hg : ∀ x t, Keeps b t → Keeps b (g x t).2) : Keeps b (vAll g xs s).2 := by
  induction xs generalizing s with
  | nil => exact h
  | cons x xs ih => exact .rsThen (hg x s h) fun _ _ h₁ => .rsThen (ih h₁) fun _ _ h₂ => h₂

theorem Keeps.vScale {inst va : Nat} (h : Keeps b s) : Keeps b (vScale inst va s).2 :=
  h.vBytes.rsThen (fun _ _ h₁ => .iteSnd h₁ h₁)

theorem Keeps.vInput {r : ConvRec} {inst n y x c : Nat} (h : Keeps b s) : Keeps b (vInput r inst n y x c s).2 :=
  h.vBytes.rsThen (fun _ _ h₁ => h₁.vScale.rsThen (fun _ _ h₂ => h₂))

theorem Keeps.vWeight {r : ConvRec} {inst co ky kx ci : Nat} (h : Keeps b s) : Keeps b (vWeight r inst co ky kx ci s).2 :=
  h.vBytes.rsThen (fun _ _ h₁ => h₁.vScale.rsThen (fun _ _ h₂ => h₂))

theorem Keeps.groupedElem {r : ConvRec} {inst n oy ox co : Nat} (h : Keeps b s) :
    Keeps b (groupedElem r inst n oy ox co s).2 :=
  (h.vAll (fun _ _ h₁ => .iteSnd h₁ (h₁.vInput.rsThen (fun _ _ h₂ => h₂.vWeight.rsThen (fun _ _ h₃ => h₃))))).rsThen
      (fun _ _ h₁ => h₁)

theorem Keeps.poolWindow {r : ConvRec} {inst n oy ox c : Nat} (h : Keeps b s) : Keeps b (poolWindow r inst n oy ox c s).2 :=
  h.vAll (fun _ _ h₁ => .iteSnd h₁ (h₁.vInput.rsThen (fun _ _ h₂ => h₂)))

theorem Keeps.vFree (h : Keeps b s) : Keeps b (vFree s).2 :=
  h.fresh

theorem Keeps.pooledElem {r : ConvRec} {inst n oy ox c : Nat} (h : Keeps b s) :
    Keeps b (pooledElem r inst n oy ox c s).2 := by
  unfold Machine.pooledElem
  refine .rsThen h.poolWindow ?_
  intro _ _ h₁
  split
  · exact .iteSnd h₁.vFree h₁
  · exact h₁
  · exact .iteSnd h₁.vFree h₁

theorem Keeps.cvElem {r : ConvRec} {inst n oy ox co : Nat} (h : Keeps b s) : Keeps b (cvElem r inst n oy ox co s).2 :=
  .iteSnd h.groupedElem h.pooledElem

theorem Keeps.cvRow {r : ConvRec} {inst n oy ox g : Nat} (h : Keeps b s) : Keeps b (cvRow r inst n oy ox g s).2 :=
  h.vAll (fun _ _ h₁ => h₁.cvElem.rsThen (fun _ _ h₂ => .iteSnd (h₂.vBytes.rsThen (fun _ _ h₃ => h₃)) h₂))

theorem Keeps.cvWriteRow {r : ConvRec} {inst n oy g : Nat} {acc : List Int × Bool} {ox : Nat} (h : Keeps b s) :
    Keeps b (cvWriteRow r inst n oy g acc ox s).2 := by
  unfold Machine.cvWriteRow
  refine .rsThen h.cvRow ?_
  intro _ _ h₁
  dsimp only
  split
  · rename_i e
    exact h₁.writeAll.of_eq e
  · rename_i e
    exact h₁.writeAll.of_eq e

theorem Keeps.cvLine {r : ConvRec} {inst n oy g : Nat} {oxs : List Nat} {acc : List Int × Bool} (h : Keeps b s) :
    Keeps b (cvLine r inst n oy g oxs acc s).2 := by
  induction oxs generalizing s acc with
  | nil => exact h
  | cons ox oxs ih => exact .rsThen h.cvWriteRow fun _ _ h₁ => ih h₁

theorem Keeps.convRow {x : Job} {n oy : Nat} (h : Keeps b s) : Keeps b (convRow x n oy s).2 :=
  (h.vAll (fun _ _ h₁ => h₁.cvLine)).rsThen (fun _ _ h₁ => h₁)

theorem Keeps.expandCell {x : Job} {c : Nat × Nat × Nat × Nat × Nat × Nat} (h : Keeps b s) :
    Keeps b (expandCell x c s).2 := by
  unfold Machine.expandCell
  dsimp only
  split
  · rename_i e
    exact h.passRow.of_eq e
  · rename_i e
    split
    · rename_i e₁
      exact ((h.passRow.of_eq e).writeAll).of_eq e₁
    · rename_i e₁
      exact ((h.passRow.of_eq e).writeAll).of_eq e₁

theorem Keeps.convItem {x : Job} {k : Nat} (h : Keeps b s) : Keeps b (convItem x k s).2 :=
  .iteSnd ((h.vAll (fun _ _ h₁ => h₁.expandCell)).rsThen (fun _ _ h₁ => h₁)) h.convRow

end

end Sys2Proof.Machine
end

section
/-! PROOFS. What the operations keep: the field record (Sys2Proof/Machine/Record.lean). -/

namespace Sys2Proof.Machine

section
set_option Elab.async false
variable {b s : State} {φ : Prop}

theorem Keeps.bytes32k {r : FieldRecord} (h : Keeps b s) : Keeps b (FieldRecord.bytes32k r s).2 := by
  unfold FieldRecord.bytes32k
  generalize r.body (crc32 (r.body 0)) = body
  exact h.freshBytes.freshBytes

theorem Keeps.bytes512 {r : FieldRecord} (h : Keeps b s) : Keeps b (FieldRecord.bytes512 r s).2 := by
  unfold FieldRecord.bytes512
  dsimp only
  exact h.freshBytes

theorem Keeps.foldDelta {key cur : Nat} (h : Keeps b s) : Keeps b (s.foldDelta key cur).2 :=
  h.beside

theorem Keeps.foldArr {a k cur : Nat} (h : Keeps b s) : Keeps b (s.foldArr a k cur) := by
  unfold State.foldArr
  exact h.foldDelta.modRec

theorem Keeps.fold (h : Keeps b s) : Keeps b s.fold :=
  (h.each (fun _ _ h₁ => h₁.foldArr.foldArr.foldArr.foldArr.foldArr.modRec)).each (fun _ _ h₁ => h₁.foldDelta.modRec)

theorem Keeps.updateLife (h : Keeps b s) : Keeps b s.updateLife :=
  .ite h.setF.setF.mgrIrq h.setF

theorem Keeps.foldUfs {n : Nat} (h : Keeps b s) : Keeps b (s.foldUfs n) :=
  .ite h.modRec.updateLife h

theorem Keeps.checkpoint {reason : Nat} {copy : Bool} (h : Keeps b s) : Keeps b (s.checkpoint reason copy) := by
  unfold State.checkpoint
  dsimp only
  exact Keeps.beside (.modRec (.ite h.modRec.updateLife h))

theorem Keeps.pfwServe (h : Keeps b s) : Keeps b s.pfwServe :=
  .ite h.recCount.logEvent h.recCount.logEvent.checkpoint.modPower

end

end Sys2Proof.Machine
end

section
/-! PROOFS. What the operations keep: the vector engines (Sys2Proof/Machine/VecOps.lean). -/

namespace Sys2Proof.Machine

section
set_option Elab.async false
variable {b s : State} {φ : Prop}

theorem Keeps.itemStart {x : Job} {i : VItem} (h : Keeps b s) : Keeps b (s.itemStart x i).2 := by
  unfold State.itemStart
  split
  · exact .iteSnd h h
  · exact h.fresh
  · exact h.fresh.fresh
  · exact h

theorem Keeps.giveItem {e : Nat} {i : VItem} (h : Keeps b s) : Keeps b (s.giveItem e i) := by
  unfold State.giveItem
  refine .setF ?_
  refine .modVec ?_
  split
  · exact .itemStart h
  · exact h

theorem Keeps.dealOne {f e : Nat} (h : Keeps b s) : Keeps b (s.dealOne f e) := by
  unfold State.dealOne
  refine .ite h ?_
  split
  · exact h
  · exact h.giveItem.modJob

theorem Keeps.deal {f : Nat} (h : Keeps b s) : Keeps b (s.deal f) :=
  .ite h (h.foldl (fun _ _ h₁ => h₁.dealOne))

theorem Keeps.storeBytes {v : VecSt} {k n : Nat} (h : Keeps b s) : Keeps b (s.storeBytes v k n).2 :=
  h.freeUp

theorem Keeps.startVecBar {e : Nat} (h : Keeps b s) : Keeps b (s.startVecBar e) := by
  unfold State.startVecBar
  dsimp only
  exact h.storeBytes.physWrite.modVec.setF

theorem Keeps.vecBarBack {e : Nat} (h : Keeps b s) : Keeps b (s.vecBarBack e) :=
  h.physRead.modVec.setF

theorem Keeps.shakeVec {e : Nat} (h : Keeps b s) : Keeps b (s.shakeVec e) :=
  h.modVec.beside

theorem Keeps.withdrawVec {e : Nat} (h : Keeps b s) : Keeps b (s.withdrawVec e) :=
  h.shakeVec.modVec.setF.setF.setF

theorem Keeps.vecBoundary {e : Nat} (h : Keeps b s) : Keeps b (s.vecBoundary e) :=
  .ite h.modVec.setF.withdrawVec (.ite h.modVec.setF.startVecBar h.modVec.setF)

theorem Keeps.dropItems {j : Nat} (h : Keeps b s) : Keeps b (s.dropItems j) :=
  h.beside.foldl (fun _ _ h₁ => h₁.vecBoundary)

theorem Keeps.failItem {j st item : Nat} (h : Keeps b s) : Keeps b (s.failItem j st item) := by
  unfold State.failItem
  split
  · exact h
  · exact h.endJob.dropItems.deal

theorem Keeps.vecPairEnd {e : Nat} {p : Pair} {sig : Except Nat Nat} (h : Keeps b s) : Keeps b (s.vecPairEnd e p sig) := by
  unfold State.vecPairEnd
  split
  · exact h.pairEnd
  · exact h.pairEnd
  · exact h.reexecEnd
  · exact h.reexecEnd
  · exact h

theorem Keeps.itemFault {e st : Nat} (h : Keeps b s) : Keeps b (s.itemFault e st) := by
  unfold State.itemFault
  split
  · exact h
  · split
    · exact h.vecPairEnd
    · exact h.failItem

theorem Keeps.dealConv {x : Job} {mine : Bool} (h : Keeps b s) : Keeps b (s.dealConv x mine) :=
  .ite h.deal h

theorem Keeps.timeoutGo {e : Nat} (h : Keeps b s) : Keeps b (timeoutGo e s) := by
  unfold Machine.timeoutGo
  split
  · exact h
  · split
    · exact h
    · exact .ite (.itemFault h) h

theorem Keeps.saveItem {e : Nat} {x : Job} {i : VItem} (h : Keeps b s) : Keeps b (s.saveItem e x i) := by
  unfold State.saveItem
  dsimp only
  refine .ite ?_ h.beside.vecBoundary.deal
  split
  · rename_i e
    exact (((h.storeBytes.instWrite.of_eq e).beside).vecBoundary).deal
  · rename_i e
    exact (h.storeBytes.instWrite.of_eq e).failItem

theorem Keeps.preemptGo {e : Nat} (h : Keeps b s) : Keeps b (preemptGo e s) := by
  unfold Machine.preemptGo
  split
  · exact h
  · split
    · exact h
    · exact .ite h (.ite h.endJob.dropItems.deal (.ite h.saveItem h))

theorem Keeps.resumeGo {e j item : Nat} (h : Keeps b s) : Keeps b (resumeGo e j item s) := by
  unfold Machine.resumeGo
  split
  · refine .ite h ?_
    split
    · exact h.beside.modVec.setF
    · refine .ite h ?_
      split
      · rename_i e
        exact ((h.beside.instRead.of_eq e).modVec).setF
      · rename_i e
        exact (h.beside.instRead.of_eq e).failItem
  · exact h

theorem Keeps.vecStep {e : Nat} {p : VecStep} (h : Keeps b s) : Keeps b (s.vecStep e p) :=
  h.modVec

theorem Keeps.vecSteps {e : Nat} {ps : List VecStep} (h : Keeps b s) : Keeps b (s.vecSteps e ps) :=
  .ite h (h.foldl (fun _ _ h₁ => h₁.vecStep))

theorem Keeps.vendor {e : Nat} {w : BitVec 32} {f6 : Nat} {go : VecSt → State} (h : Keeps b s) (hgo : ∀ x, Keeps b (go x)) :
    Keeps b (s.vendor e w f6 go) :=
  .ite h (.ite (.itemFault h) (.ite h (.ite (.itemFault h) (hgo _))))

theorem Keeps.vexpGo {e : Nat} {w : BitVec 32} (h : Keeps b s) : Keeps b (vexpGo e w s) :=
  h.vendor (fun _ => .ite (.itemFault h) h.modVec)

theorem Keeps.vlsemGo {e : Nat} {w : BitVec 32} (h : Keeps b s) : Keeps b (vlsemGo e w s) :=
  h.vendor (fun _ => .ite (.itemFault h) h.modVec)

theorem Keeps.vdwsGo {e : Nat} {w : BitVec 32} {f6 : Nat} {acc : Bool} (h : Keeps b s) : Keeps b (vdwsGo e w f6 acc s) := by
  unfold Machine.vdwsGo
  refine .vendor h ?_
  intro _
  refine .ite (.itemFault h) ?_
  split
  · exact .itemFault h
  · exact h.modVec

end

end Sys2Proof.Machine
end

section
/-! PROOFS. What the operations keep: cameras and displays (Sys2Proof/Machine/Pixels.lean). -/

namespace Sys2Proof.Machine

section
set_option Elab.async false
variable {b s : State} {φ : Prop}

theorem Keeps.writeFree {inst n : Nat} {as : List Nat} (h : Keeps b s) : Keeps b (writeFree inst n as s).2 := by
  induction as generalizing s with
  | nil => exact h
  | cons a as ih =>
    unfold Machine.writeFree
    dsimp only
    split
    · rename_i e
      exact ih (h.freshBytes.instWrite.of_eq e)
    · exact h.freshBytes.instWrite

theorem Keeps.renderTarget {x : Job} (h : Keeps b s) : Keeps b (renderTarget x s).2 := by
  unfold Machine.renderTarget
  dsimp only
  split
  · rename_i e
    exact .iteSnd (h.writeFree.of_eq e) ((h.writeFree.of_eq e).writeFree)
  · exact h.writeFree

theorem Keeps.feedbackBytes {inst : Nat} {as : List Nat} (h : Keeps b s) : Keeps b (feedbackBytes inst as s).2 := by
  induction as generalizing s with
  | nil => exact h
  | cons a as ih =>
    unfold Machine.feedbackBytes
    split
    · rename_i e
      have h₁ := (h.instRead.of_eq e).freshBytes (n := 1)
      dsimp only
      split
      · rename_i e'
        exact ih (h₁.instWrite.of_eq e')
      · exact h₁.instWrite
    · exact h.instRead

theorem Keeps.renderFeedback {x : Job} {slots : List Nat} (h : Keeps b s) : Keeps b (renderFeedback x slots s).2 := by
  induction slots generalizing s with
  | nil => exact h
  | cons slot rest ih =>
    unfold Machine.renderFeedback
    split
    · rename_i e
      have h₁ := h.instRead.of_eq e
      dsimp only
      split
      · rename_i e'
        exact ih (h₁.feedbackBytes.of_eq e')
      · exact h₁.feedbackBytes
    · exact h.instRead

theorem Keeps.sortTiles {f : Nat} {urgent : TileQ → Bool} (h : Keeps b s) : Keeps b (s.sortTiles f urgent) :=
  h.modFlask

theorem Keeps.setLevel {f o lv : Nat} (h : Keeps b s) : Keeps b (s.setLevel f o lv) :=
  .sortTiles (.ite h.setF.modFlask h.setF)

theorem Keeps.postRender {x : Job} (h : Keeps b s) : Keeps b (s.postRender x) :=
  .ite h.endJob (.ite h.endJob.setF.setF.modDisp.setLevel h.endJob.setF.setF.modDisp)

theorem Keeps.finishRender {x : Job} (h : Keeps b s) : Keeps b (s.finishRender x) := by
  unfold State.finishRender
  refine .ite h.postRender ?_
  split
  · rename_i e
    split
    · rename_i e₁
      exact (((h.renderTarget.of_eq e).renderFeedback).of_eq e₁).postRender
    · rename_i e₁
      exact (((h.renderTarget.of_eq e).renderFeedback).of_eq e₁).endJob
  · rename_i e
    exact (h.renderTarget.of_eq e).endJob

theorem Keeps.renderOn {j : Nat} (h : Keeps b s) : Keeps b (s.renderOn j) := by
  unfold State.renderOn
  split
  · exact h
  · rename_i e
    refine .ite h ?_
    refine .ite ?_ ?_
    · refine .modJob ?_
      split
      · exact h
      · exact .iteSnd h h.fresh
    · refine .finishRender ?_
      refine .modJob ?_
      split
      · exact h
      · exact .iteSnd h h.fresh

theorem Keeps.startRender {x : Job} (h : Keeps b s) : Keeps b (s.startRender x) := by
  unfold State.startRender
  refine .ite h.deal ?_
  split
  · rename_i e
    exact .ite ((h.instRead.of_eq e).endJob) ((((h.instRead.of_eq e).modJob).renderOn).deal)
  · rename_i e
    exact (h.instRead.of_eq e).endJob

theorem Keeps.itemDone {e : Nat} {i : VItem} (h : Keeps b s) : Keeps b (s.itemDone e i) := by
  unfold State.itemDone
  split
  · exact h.vecBoundary
  · exact .deal (.ite h.vecBoundary.modJob.renderOn h.vecBoundary.finishPart)

theorem Keeps.rowsItem {e : Nat} {i : VItem} (h : Keeps b s) : Keeps b (s.rowsItem e i) := by
  unfold State.rowsItem
  split
  · exact .itemDone h
  · split
    · rename_i e
      exact .itemDone ((h.convItem.of_eq e).whenB ((h.convItem.of_eq e).cflag))
    · rename_i e
      exact (((h.convItem.of_eq e).endJob).dropItems).deal

theorem Keeps.itemEndGo {e : Nat} {how : ItemEnd} {flip : Nat} {dup : Bool} (h : Keeps b s) :
    Keeps b (itemEndGo e how flip dup s) := by
  unfold Machine.itemEndGo
  split
  · exact h
  · split
    · exact h.plantFault.vecPairEnd
    · exact .ite h.rowsItem (.itemDone h)
    · exact .itemFault h.dtuFault
    · exact .itemFault h

theorem Keeps.camEnable {c : Nat} (h : Keeps b s) : Keeps b (s.camEnable c) := by
  unfold State.camEnable
  dsimp only
  split
  · rename_i e
    exact (h.rtRead.of_eq e).modCam
  · rename_i e
    exact (h.rtRead.of_eq e).modCam

theorem Keeps.ingestRecord {c : Nat} (h : Keeps b s) : Keeps b (s.ingestRecord c) := by
  unfold State.ingestRecord
  refine .ite h ?_
  refine .modCam ?_
  split
  · rename_i e
    exact (h.rtWrite.rtRead64.of_eq e).rtWrite
  · rename_i e
    exact h.rtWrite.rtRead64.of_eq e

theorem Keeps.frameStartGo {c : Nat} (h : Keeps b s) : Keeps b (frameStartGo c s) :=
  .ite h (.ite h.ingestRecord.incWrap.modCam.dropFrame h.ingestRecord.incWrap.modCam)

theorem Keeps.camStore {c : Nat} {px : List Nat} (h : Keeps b s) : Keeps b (s.camStore c px) := by
  unfold State.camStore
  refine .ite h.modCam.modCam ?_
  split
  · exact h.modCam
  · rename_i e
    refine .ite h.modCam ?_
    dsimp only
    split
    · exact h.modCam.writeAll.rtCharge
    · exact h.modCam.writeAll.rtCharge.modCam

theorem Keeps.camEnd {c : Nat} (h : Keeps b s) : Keeps b (s.camEnd c) := by
  unfold State.camEnd
  exact h.modCam

theorem Keeps.packetGo {c : Nat} {p : CamPacket} (h : Keeps b s) : Keeps b (packetGo c p s) :=
  .ite h (.ite (.modCam (.ite h.incSat h)) (.ite (.whenB (.ite h.incSat h) (.camEnd (.ite h.incSat h))) (.ite (.incSat
      (.ite h.incSat h)) (.ite (.ite h.incSat h) (.camStore (.ite (.modCam (.incSat (.ite h.incSat h)))
      (.ite h.incSat h)))))))

theorem Keeps.postedRead {o who va n : Nat} (h : Keeps b s) : Keeps b (postedRead s o who va n).2 :=
  .rtCharge (.iteSnd h.physRead h.instRead)

theorem Keeps.latchPlane {o p : Nat} (h : Keeps b s) : Keeps b (s.latchPlane o p) :=
  .ite h (.ite h.postedRead.setF.modDisp h.postedRead.setF.incSat)

theorem Keeps.countMisses {o : Nat} (h : Keeps b s) : Keeps b (s.countMisses o) :=
  h.incSat.modJobs

theorem Keeps.ttMismatch {o : Nat} (h : Keeps b s) : Keeps b (s.ttMismatch o) :=
  .ite h.incSat.safety.fresh.emit.mgrIrq.setF
      (.ite h.incSat.safety.fresh.emit.mgrIrq.incSat.modDisp h.incSat.safety.fresh.emit.mgrIrq.incSat)

theorem Keeps.ttMatch {o : Nat} (h : Keeps b s) : Keeps b (s.ttMatch o) :=
  .ite h.setF (.ite h.incSat.modDisp h.incSat)

theorem Keeps.latchBlank {o : Nat} (h : Keeps b s) : Keeps b (s.latchBlank o) := by
  unfold State.latchBlank
  exact .modDisp (.ite h.setF.setF (.ite h.setF.setF h))

theorem Keeps.latchTellTale {o : Nat} (h : Keeps b s) : Keeps b (s.latchTellTale o) := by
  unfold State.latchTellTale
  refine .ite h ?_
  split
  · rename_i e
    exact (h.rtRead.of_eq e).modDisp
  · rename_i e
    exact ((h.rtRead.of_eq e).modDisp).ttMismatch

theorem Keeps.latchGo {o : Nat} (h : Keeps b s) : Keeps b (latchGo o s) :=
  ((((h.incWrap.countMisses.foldl (fun _ _ h₁ => h₁.latchPlane)).latchTellTale).latchBlank).setLevel).emit

theorem Keeps.ttCompareGo {o : Nat} {px : List Nat} (h : Keeps b s) : Keeps b (ttCompareGo o px s) := by
  unfold Machine.ttCompareGo
  split
  · exact h
  · exact .ite h (.ite h.setF.ttMatch h.setF.ttMismatch)

theorem Keeps.escalate {o lv : Nat} (h : Keeps b s) : Keeps b (escalate o lv s) :=
  .ite h.setLevel h

end

end Sys2Proof.Machine
end

section
/-! PROOFS. What the operations keep: pour-table programs (Sys2Proof/Machine/PourProg.lean). -/

namespace Sys2Proof.Machine

section
set_option Elab.async false
variable {b s : State} {φ : Prop}

theorem Keeps.swapwGo {a : Nat} (h : Keeps b s) : Keeps b (swapwGo a s) :=
  .ite h h.modArr.nextCmd

theorem Keeps.waitqGo {a w : Nat} (h : Keeps b s) : Keeps b (waitqGo a w s) :=
  .ite h.illegal (.ite h.modArr h.modArr.nextCmd)

theorem Keeps.syncGo {a w : Nat} (h : Keeps b s) : Keeps b (syncGo a w s) := by
  unfold Machine.syncGo
  split
  · exact h
  · exact .ite h.arrFault (.ite h.illegal (.ite h.arrFault (.ite h.modArr (h.modArr.each
        (fun _ _ h₁ => h₁.modArr.nextCmd)))))

theorem Keeps.loopGo {a w : Nat} (h : Keeps b s) : Keeps b (loopGo a w s) := by
  unfold Machine.loopGo
  dsimp only
  split
  · exact h.illegal
  · exact .ite h.modArr.goTo h.modArr.nextCmd

theorem Keeps.asyncDone {a k stalled : Nat} (h : Keeps b s) : Keeps b (asyncDone a k stalled s) := by
  unfold Machine.asyncDone
  split
  · exact h
  · rename_i e
    refine .ite h ?_
    split
    · exact h.countStall.modArr
    · exact .ite h.countStall.modArr (.ite h.countStall.modArr.arrFault h.countStall.modArr.modArr)

theorem Keeps.watchdogGo {a : Nat} (h : Keeps b s) : Keeps b (watchdogGo a s) := by
  unfold Machine.watchdogGo
  split
  · exact h
  · exact .ite h.arrFault h

theorem Keeps.abortDone {a : Nat} (h : Keeps b s) : Keeps b (abortDone a s) := by
  unfold Machine.abortDone
  refine .ite ?_ h
  dsimp only
  split
  · exact .ite h.chargeRun.setF.modArr.rerun h.chargeRun.setF.modArr.modArr.setF
  · exact .passBoundary (.modArr (.ite h.chargeRun.setF.modArr.shakeArray h.chargeRun.setF.modArr))

end

end Sys2Proof.Machine
end

section
/-! PROOFS. What the operations keep: the pour table (Sys2Proof/Machine/Pour.lean). -/

namespace Sys2Proof.Machine

section
set_option Elab.async false
variable {b s : State} {φ : Prop}

theorem Keeps.swapValidatedGo (h : Keeps b s) : Keeps b (swapValidatedGo s) := by
  unfold Machine.swapValidatedGo
  refine .ite h ?_
  split
  · exact h.modPour
  · exact h.setF.setF.setF

theorem Keeps.loseBound (h : Keeps b s) : Keeps b s.loseBound :=
  h.each (fun _ _ h₁ => h₁.endJob)

theorem Keeps.dropSplit {p : Pair} (h : Keeps b s) : Keeps b (s.dropSplit p) := by
  unfold State.dropSplit
  exact h.dropPair.endJob.passUnit.passUnit.modFlask

theorem Keeps.loseSplit (h : Keeps b s) : Keeps b s.loseSplit :=
  h.foldl (fun _ _ h₁ => h₁.dropSplit)

theorem Keeps.bindList {frame pos : Nat} {js : List Nat} (h : Keeps b s) : Keeps b (bindList frame pos js s) := by
  induction js generalizing s pos with
  | nil => exact h
  | cons j js ih => exact ih h.modJob

theorem Keeps.bindFrame {frame : Nat} (h : Keeps b s) : Keeps b (s.bindFrame frame) :=
  h.each (fun _ _ h₁ => (h₁.each (fun _ _ h₂ => h₂.endJob)).bindList)

theorem Keeps.monitorFrame {a : Nat} (h : Keeps b s) : Keeps b (s.monitorFrame a) :=
  .ite h (.ite h.setF.modArr.setF (.ite h.setF.modArr.incSat.setF.modRec.modArr h.setF.modArr.incSat))

theorem Keeps.withdrawSlow {a : Nat} (h : Keeps b s) : Keeps b (s.withdrawSlow a) := by
  unfold State.withdrawSlow
  dsimp only
  split
  · exact h.modArr.replaceArray
  · exact h.modArr.fresh.emit

theorem Keeps.withdrawRt {c : Nat} (h : Keeps b s) : Keeps b (s.withdrawRt c) := by
  unfold State.withdrawRt
  refine .ite h.modRt.modRec ?_
  split
  · exact h.modRt.modRec.modRt
  · exact h.modRt.modRec.safety

theorem Keeps.newFrame {ns : Nat} (h : Keeps b s) : Keeps b (s.newFrame ns) :=
  h.modPour.incWrap

theorem Keeps.exchangeBanks (h : Keeps b s) : Keeps b s.exchangeBanks :=
  .ite h h.setF.setF.setF.modPour

theorem Keeps.boundaryArrays (h : Keeps b s) : Keeps b s.boundaryArrays :=
  ((h.each (fun _ _ h₁ => h₁.modArr.replaceArray)).each (fun _ _ h₁ => h₁.withdrawSlow)).each
      (fun _ _ h₁ => h₁.monitorFrame)

theorem Keeps.boundaryOthers (h : Keeps b s) : Keeps b s.boundaryOthers :=
  .ite (((h.each (fun _ _ h₁ => h₁.withdrawVec.safety)).each (fun _ _ h₁ => h₁.withdrawRt)).beside) ((h.each
      (fun _ _ h₁ => h₁.withdrawVec.safety)).each (fun _ _ h₁ => h₁.withdrawRt))

theorem Keeps.frameBoundaryGo (h : Keeps b s) : Keeps b (frameBoundaryGo s) :=
  .ite h (.boundaryOthers (.boundaryArrays (.ite (.bindFrame (.loseBound (.loseSplit (.exchangeBanks
      (.ite h.newFrame h.modPour))))) (.loseBound (.loseSplit (.exchangeBanks (.ite h.newFrame h.modPour)))))))

theorem Keeps.spareCopyGo {a : Nat} (h : Keeps b s) : Keeps b (spareCopyGo a s) :=
  .ite h h.modArr

end

end Sys2Proof.Machine
end

section
/-! PROOFS. What the operations keep: pour-table entries (Sys2Proof/Machine/PourRun.lean). -/

namespace Sys2Proof.Machine

section
set_option Elab.async false
variable {b s : State} {φ : Prop}

theorem Keeps.countLate {d : Due} (h : Keeps b s) : Keeps b (s.countLate d) :=
  .ite h h.incSat.safety.modPour

theorem Keeps.noteStart {d : Due} {empty : Bool} {absorbed : Nat} (h : Keeps b s) :
    Keeps b (s.noteStart d empty absorbed) := by
  unfold State.noteStart
  exact h.modPour.modFlask

theorem Keeps.emptyEntry {d : Due} (h : Keeps b s) : Keeps b (s.emptyEntry d) :=
  h.noteStart.incSat

theorem Keeps.startExec {vec : Bool} {u : Nat} {x : Job} {tile : Nat} {t : List Nat} {rc : Bool} (h : Keeps b s) :
    Keeps b (s.startExec vec u x tile t rc) :=
  .ite h.giveItem h.modArr.loadProgram

theorem Keeps.startTile {d : Due} (h : Keeps b s) : Keeps b (s.startTile d) := by
  unfold State.startTile
  dsimp only
  split
  · rename_i e
    split
    · exact .ite h h.noteStart.modPair.startExec
    · split
      · exact h.emptyEntry
      · split
        · exact h.emptyEntry
        · exact .ite h.emptyEntry (.ite h (.ite h.startJob.noteStart.beside.startExec h.startJob.emptyEntry))
  · exact h.emptyEntry

theorem Keeps.extraBar {u : TBUnit} (h : Keeps b s) : Keeps b (s.extraBar u) := by
  unfold State.extraBar
  refine .ite h ?_
  split
  · exact h.modRt
  · exact h.startVecBar
  · exact h.startBar
  · exact h.setF

theorem Keeps.startRecovery {d : Due} (h : Keeps b s) : Keeps b (s.startRecovery d) :=
  .ite h.noteStart.setF.modPour ((h.noteStart.setF.foldl (fun _ _ h₁ => h₁.extraBar)).modFlask)

theorem Keeps.copyLog {f inst c : Nat} {ws : List (Nat × Nat × Nat)} (h : Keeps b s) : Keeps b (s.copyLog f inst c ws) :=
  h.each (fun _ _ h₁ => h₁.addMove)

theorem Keeps.startTask {c : Nat} (h : Keeps b s) : Keeps b (s.startTask c) :=
  h.modRt

theorem Keeps.startFirst {d : Due} {c : Nat} (h : Keeps b s) : Keeps b (s.startFirst d c) := by
  unfold State.startFirst
  refine .ite h.noteStart.modRt.startTask ?_
  split
  · rename_i e
    exact .ite ((h.noteStart.modRt.physRead.of_eq e).rtFail) (.ite ((h.noteStart.modRt.physRead.of_eq e).startTask)
        ((h.noteStart.modRt.physRead.of_eq e).copyLog))
  · rename_i e
    exact (h.noteStart.modRt.physRead.of_eq e).rtFail

theorem Keeps.startSecond {d : Due} {c : Nat} (h : Keeps b s) : Keeps b (s.startSecond d c) := by
  unfold State.startSecond
  dsimp only
  split
  · exact h.noteStart.rtFail
  · exact .ite h.noteStart.modRt.startTask h.noteStart.rtFail

theorem Keeps.startBarEntry {d : Due} (h : Keeps b s) : Keeps b (s.startBarEntry d) := by
  unfold State.startBarEntry
  refine .ite h.noteStart ?_
  split
  · exact .ite h.noteStart.startBar h
  · exact .ite h.noteStart.startVecBar h
  · exact h.noteStart.modRt
  · exact h.noteStart.setF
  · exact h.noteStart

theorem Keeps.startKind {d : Due} (h : Keeps b s) : Keeps b (s.startKind d) := by
  unfold State.startKind
  split
  · exact h.startTile
  · exact h.startTile
  · exact h.startBarEntry
  · exact h.startRecovery
  · rename_i e
    split
    · exact h.startFirst
    · exact h.emptyEntry
  · rename_i e
    split
    · exact h.startSecond
    · exact h.emptyEntry
  · exact h.noteStart

theorem Keeps.entryStartGo {e : Nat} (h : Keeps b s) : Keeps b (entryStartGo e s) := by
  unfold Machine.entryStartGo
  split
  · exact h
  · exact .ite h (.ite h.modFlask (.startKind (.ite h.countLate h)))

theorem Keeps.pourLateGo {e : Nat} (h : Keeps b s) : Keeps b (pourLateGo e s) := by
  unfold Machine.pourLateGo
  split
  · exact h
  · exact .ite h.countLate h

theorem Keeps.abortUnit {vec : Bool} {u : Nat} (h : Keeps b s) : Keeps b (s.abortUnit vec u) :=
  .ite h.modVec.setF h.chargeRun.abortArr

theorem Keeps.overrunUnit {vec : Bool} {u : Nat} {p : Pair} (h : Keeps b s) : Keeps b (s.overrunUnit vec u p) := by
  unfold State.overrunUnit
  dsimp only
  split
  · exact .ite h.abortUnit.modPair.comparePair h.abortUnit.modPair
  · exact h.abortUnit.modPair

theorem Keeps.overrunGo {a : Nat} (h : Keeps b s) : Keeps b (overrunGo a s) := by
  unfold Machine.overrunGo
  dsimp only
  split
  · exact .ite h.overrunUnit h
  · exact h

theorem Keeps.isoDeadlineGo {a : Nat} (h : Keeps b s) : Keeps b (isoDeadlineGo a s) := by
  unfold Machine.isoDeadlineGo
  dsimp only
  split
  · refine .ite (Keeps.reexecEnd ?_) h
    cases s.execStart (pairUnit a).1 (pairUnit a).2 with
    | none => exact h
    | some _ => exact h.abortUnit
  · exact h

theorem Keeps.riseLag {f delta : Nat} (h : Keeps b s) : Keeps b (s.riseLag f delta) :=
  .ite h (.ite h.setF.incSat.safety h.setF.incSat)

theorem Keeps.isolationEndGo {f : Nat} (h : Keeps b s) : Keeps b (isolationEndGo f s) := by
  unfold Machine.isolationEndGo
  split
  · exact h
  · exact .modFlask (.passUnit (.passUnit (.ite h.riseLag.beside.cflag.finishPart h.riseLag.beside.endJob.safety)))

theorem Keeps.endKind {r : Running} (h : Keeps b s) : Keeps b (s.endKind r) := by
  unfold State.endKind
  dsimp only
  split
  · exact h
  · rename_i e
    refine .ite ?_ ?_
    · split
      · exact .ite h.overrunUnit h
      · exact h
    · refine .ite (.ite h.rtFail h) ?_
      refine .ite ?_ h
      split
      · exact .ite h.rtFail h
      · exact h

theorem Keeps.entryEndGo {e : Nat} (h : Keeps b s) : Keeps b (entryEndGo e s) := by
  unfold Machine.entryEndGo
  split
  · exact h
  · exact .ite h (.loseBound (.modPour (.ite h h.endKind)))

theorem Keeps.logCopyGo {c : Nat} (h : Keeps b s) : Keeps b (logCopyGo c s) :=
  .ite h.startTask h

theorem Keeps.rtEndGo {c : Nat} {steps : List RtStep} (h : Keeps b s) : Keeps b (rtEndGo c steps s) := by
  unfold Machine.rtEndGo
  dsimp only
  split
  · exact h
  · rename_i e
    refine .ite h ?_
    split
    · exact h.rtFail
    · exact .ite h.modRt.modRt (.ite h.modRt.modRt h.modRt.rtFail)

theorem Keeps.nextBar (h : Keeps b s) : Keeps b s.nextBar := by
  unfold State.nextBar
  split
  · exact h.startBar
  · exact h

theorem Keeps.testBarDueGo {u : TBUnit} (h : Keeps b s) : Keeps b (testBarDueGo u s) := by
  unfold Machine.testBarDueGo
  refine .ite h ?_
  split
  · exact .ite h.nextBar (.ite h (.ite h.startBar h.modArr))
  · exact .ite h (.ite h.startVecBar h.modVec)
  · exact .ite h h.modRt
  · exact h

theorem Keeps.arrayBarFail {a : Nat} (h : Keeps b s) : Keeps b (s.arrayBarFail a) :=
  .ite h.incSat.setF.safety.setF.modRec (.ite h.incSat.setF.safety.modArr h.incSat.setF.safety.modArr)

theorem Keeps.barPassed {a : Nat} (h : Keeps b s) : Keeps b (s.barPassed a).2 := by
  unfold State.barPassed
  split
  · rename_i e
    exact h.physRead.of_eq e
  · rename_i e
    exact h.physRead.of_eq e

theorem Keeps.arrayBarDone {a : Nat} (h : Keeps b s) : Keeps b (s.arrayBarDone a) :=
  .ite h (.nextBar (.ite (.modArr (.ite h.barPassed.modArr.setF h.barPassed.modArr.setF.arrayBarFail)) (.passBoundary
      (.ite h.barPassed.modArr.setF h.barPassed.modArr.setF.arrayBarFail))))

theorem Keeps.vecBarDone {e : Nat} {pass : Bool} (h : Keeps b s) : Keeps b (s.vecBarDone e pass) :=
  .ite h (.ite (.vecBoundary (.ite h.vecBarBack h.vecBarBack.modVec.modRec.safety)) (.deal (.vecBoundary
      (.ite h.vecBarBack h.vecBarBack.modVec.modRec.safety))))

theorem Keeps.rtBarDone {c : Nat} {pass : Bool} (h : Keeps b s) : Keeps b (s.rtBarDone c pass) :=
  .ite h (.ite h.modRt (.ite h.modRt.modRec.safety.modRt h.modRt.modRec.safety.withdrawRt))

theorem Keeps.runnerBarDone {pass : Bool} (h : Keeps b s) : Keeps b (s.runnerBarDone pass) :=
  .ite h (.ite h.setF.beside h.setF.beside.modRec.safety.beside)

theorem Keeps.testBarDoneGo {u : TBUnit} {pass : Bool} (h : Keeps b s) : Keeps b (testBarDoneGo u pass s) := by
  unfold Machine.testBarDoneGo
  split
  · exact h.arrayBarDone
  · exact h.vecBarDone
  · exact h.rtBarDone
  · exact h.runnerBarDone

theorem Keeps.tbVerifiedGo {ok : Bool} (h : Keeps b s) : Keeps b (tbVerifiedGo ok s) :=
  .ite h (.ite h.beside.setF.beside h.beside.regFlag)

theorem Keeps.stopBar {a : Nat} (h : Keeps b s) : Keeps b (s.stopBar a) :=
  .ite h.modArr (.ite ((h.modArr.each (fun _ _ h₁ => h₁.dropMove)).modArr) (((h.modArr.each
      (fun _ _ h₁ => h₁.dropMove)).dropAsync).barBack))

theorem Keeps.tbRecheckGo {ok : Bool} (h : Keeps b s) : Keeps b (tbRecheckGo ok s) :=
  .ite h (.safety (.ite (((((h.beside.each (fun _ _ h₁ => h₁.stopBar)).each
      (fun _ _ h₁ => .ite h₁.modVec.vecBarBack h₁.modVec)).each (fun _ _ h₁ => h₁.modRt)).each
      (fun _ _ h₁ => h₁.modFlask)).setF) ((((h.beside.each (fun _ _ h₁ => h₁.stopBar)).each
      (fun _ _ h₁ => .ite h₁.modVec.vecBarBack h₁.modVec)).each (fun _ _ h₁ => h₁.modRt)).each
      (fun _ _ h₁ => h₁.modFlask))))

end

end Sys2Proof.Machine
end

section
/-! PROOFS. What the operations keep: the runner's tree (Sys2Proof/Machine/RunTree.lean). -/

namespace Sys2Proof.Machine

section
set_option Elab.async false
variable {b s : State} {φ : Prop}

theorem Keeps.nodeRead {inst va : Nat} (h : Keeps b s) : Keeps b (nodeRead inst va s).2 := by
  unfold Machine.nodeRead
  split
  · exact h
  · exact h.vBytes.rsThen (fun _ _ h₁ => h₁.beside)

theorem Keeps.dropNodes (h : Keeps b s) : Keeps b s.dropNodes :=
  h.beside

theorem Keeps.loadLevel {inst base : Nat} {y0 : List (Nat × Nat)} (h : Keeps b s) : Keeps b (loadLevel inst base y0 s).2 :=
  h.vAll (fun _ _ h₁ => h₁.nodeRead.rsThen (fun _ _ h₂ => h₂))

theorem Keeps.loadTree {inst base lv : Nat} {front : List (Nat × Nat)} (h : Keeps b s) :
    Keeps b (loadTree inst base lv front s).2 := by
  induction lv generalizing s front with
  | zero => exact .rsThen h.loadLevel fun _ _ h₁ => h₁
  | succ lv ih =>
    exact .rsThen h.loadLevel fun _ _ h₁ => .iteSnd h₁ (.rsThen (ih h₁) fun _ _ h₂ => h₂)

end

end Sys2Proof.Machine
end

section
/-! PROOFS. What the operations keep: RUNNER jobs (Sys2Proof/Machine/Runner.lean). -/

namespace Sys2Proof.Machine

section
set_option Elab.async false
variable {b s : State} {φ : Prop}

theorem Keeps.runnerJob {j : Nat} {ops : List Nat} {g : Job → State} (h : Keeps b s) (hg : ∀ x, Keeps b (g x)) :
    Keeps b (s.runnerJob j ops g) := by
  unfold State.runnerJob
  split
  · exact .ite (hg _) h
  · exact h

theorem Keeps.close {j : Nat} {r : Rs Unit} (h : Keeps b r.2) : Keeps b (Rs.close r j) := by
  unfold Rs.close
  split
  · exact h
  · exact h.endJob

theorem Keeps.predState {x : Job} (h : Keeps b s) : Keeps b (predState x s).2 :=
  .iteSnd h (h.vBytes.rsThen (fun _ _ h₁ => .iteSnd h₁ h₁.incSat))

theorem Keeps.runTree {x : Job} (h : Keeps b s) : Keeps b (runTree x s).2 :=
  h.loadTree

theorem Keeps.applyUpdates {x : Job} (h : Keeps b s) : Keeps b (applyUpdates x s).2 := by
  unfold Machine.applyUpdates
  dsimp only
  refine .rsThen (.iteSnd h h.dropNodes.runTree) ?_
  intro _ _ h₁
  refine .rsThen h₁.vBytes ?_
  intro _ _ h₂
  split
  · rename_i e
    exact (h₂.incSat.incSat.instWrite.of_eq e).dropNodes
  · rename_i e
    exact (h₂.incSat.incSat.instWrite.of_eq e).dropNodes

theorem Keeps.updateGo {x : Job} (h : Keeps b s) : Keeps b (updateGo x s).2 :=
  h.predState.rsThen (fun _ _ h₁ => .iteSnd h₁.cflag.endJob (h₁.applyUpdates.rsThen (fun _ _ h₂ => .endJob
      (.ite h₂.cflag h₂))))

theorem Keeps.modTraj {g : TrajSt → TrajSt} (h : Keeps b s φ) : Keeps b (s.modTraj g) φ :=
  h.beside

theorem Keeps.trajCompare {fr : Nat} (h : Keeps b s φ) : Keeps b (s.trajCompare fr) φ :=
  .ite h.modRec h

theorem Keeps.dropForward (h : Keeps b s) : Keeps b s.dropForward :=
  h.beside

theorem Keeps.sendStage7 {fr : Nat} (h : Keeps b s) : Keeps b (s.sendStage7 fr) :=
  h.emit

theorem Keeps.sendBackup {fr : Nat} (h : Keeps b s) : Keeps b (s.sendBackup fr) :=
  h.emit

theorem Keeps.releaseTraj {fr : Nat} (h : Keeps b s) : Keeps b (s.releaseTraj fr) :=
  h.dropForward.modTraj.sendStage7

theorem Keeps.forwardPlan {fr : Nat} {plan : List Byte} (h : Keeps b s) : Keeps b (s.forwardPlan fr plan) := by
  unfold State.forwardPlan
  split
  · exact h.sendStage7
  · exact .ite h.modTraj.trajCompare (.ite h.sendStage7 h.dropForward.fresh.beside.wskOriginate.modTraj)

theorem Keeps.forwardDone (h : Keeps b s φ) : Keeps b s.forwardDone φ := by
  unfold State.forwardDone
  split
  · exact .ite h.modTraj h
  · exact h

theorem Keeps.partnerLost (h : Keeps b s) : Keeps b s.partnerLost := by
  unfold State.partnerLost
  split
  · exact .ite h.releaseTraj h
  · exact h

theorem Keeps.publish {x : Job} {p : PlanOut} (h : Keeps b s) : Keeps b (publish x p s).2 := by
  unfold Machine.publish
  dsimp only
  refine .rsThen h.vBytes ?_
  intro _ _ h₁
  split
  · rename_i e
    split
    · rename_i e₁
      refine .ite ?_ ?_
      · refine .forwardPlan ?_
        split
        · exact ((((((h₁.instWrite.of_eq e).instWrite).of_eq e₁).incWrap).setF).setF).incSat
        · exact (((((h₁.instWrite.of_eq e).instWrite).of_eq e₁).incWrap).setF).setF
      · split
        · exact ((((((h₁.instWrite.of_eq e).instWrite).of_eq e₁).incWrap).setF).setF).incSat
        · exact (((((h₁.instWrite.of_eq e).instWrite).of_eq e₁).incWrap).setF).setF
    · rename_i e₁
      exact ((h₁.instWrite.of_eq e).instWrite).of_eq e₁
  · rename_i e
    exact h₁.instWrite.of_eq e

theorem Keeps.newestPlan {x : Job} (h : Keeps b s) : Keeps b (newestPlan x s).2 :=
  h.vBytes.rsThen (fun _ _ h₁ => .iteSnd h₁ (h₁.vBytes.rsThen (fun _ _ h₂ => h₂.vBytes.rsThen (fun _ _ h₃ => h₃))))

theorem Keeps.freePoints {dtUs n : Nat} (h : Keeps b s) : Keeps b (freePoints dtUs n s).2 :=
  h.freshBytes

theorem Keeps.stopPlan {lim : List Byte} {hf : List Nat} {reuse flags : Nat} (h : Keeps b s) :
    Keeps b (stopPlan lim hf reuse flags s).2 := by
  unfold Machine.stopPlan
  dsimp only
  exact h.fresh.fresh.fresh.freePoints

theorem Keeps.latePlan {x : Job} {lim : List Byte} {flags : Nat} {p : Option (List Nat × List (List Byte))} (h : Keeps b s) :
    Keeps b (latePlan x lim flags p s).2 := by
  unfold Machine.latePlan
  split
  · exact h
  · exact .iteSnd h (.iteSnd h h.stopPlan)

theorem Keeps.lateRule {x : Job} {lim : List Byte} {flags : Nat} (h : Keeps b s) : Keeps b (lateRule x lim flags s).2 :=
  h.newestPlan.rsThen (fun _ _ h₁ => h₁.latePlan.publish.rsThen (fun _ _ h₂ => h₂.cflag.endJob))

theorem Keeps.planHead {x : Job} (h : Keeps b s) : Keeps b (planHead x s).2 :=
  h.vBytes.rsThen (fun _ _ h₁ => .iteSnd h₁ (h₁.predState.rsThen (fun _ _ h₂ => h₂)))

theorem Keeps.checkCand {x : Job} {e : RunEnv} {list k : Nat} (h : Keeps b s) : Keeps b (checkCand x e list k s).2 := by
  unfold Machine.checkCand
  refine .rsThen h.vBytes ?_
  intro _ _ h₁
  dsimp only
  split
  · rename_i e
    exact h₁.instWrite.of_eq e
  · rename_i e
    exact h₁.instWrite.of_eq e

theorem Keeps.confirmReject (h : Keeps b s) : Keeps b s.confirmReject :=
  h.incSat.modRec.safety

theorem Keeps.newPoints {e : RunEnv} {n : Nat} (h : Keeps b s) : Keeps b (newPoints e n s).2 := by
  unfold Machine.newPoints
  dsimp only
  split <;> exact Keeps.freePoints (dtUs := leAt e.lim 0x28 2 * 1000) h

theorem Keeps.confirmPublish {x : Job} {e : RunEnv} {disagree : Bool} {extra k : Nat} {c : Cand} {r : CandRes}
    {detail : Option Nat} (h : Keeps b s) :
    Keeps b (confirmPublish x e disagree extra k c r detail s).2 := by
  unfold Machine.confirmPublish
  refine .iteSnd h.confirmReject.lateRule ?_
  split
  · exact h.lateRule
  · exact h.newPoints.publish.rsThen (fun _ _ h₁ => h₁.endJob)

theorem Keeps.planWork {x : Job} {lim : List Byte} {disagree : Bool} (h : Keeps b s) :
    Keeps b (planWork x lim disagree s).2 := by
  unfold Machine.planWork
  refine .rsThen h.vBytes ?_
  intro _ _ h₁
  refine .rsThen h₁.runTree ?_
  intro _ _ h₂
  refine .rsThen (h₂.freeUp.vAll (fun _ _ h₃ => h₃.checkCand)) ?_
  intro _ _ h₃
  split
  · exact h₃.beside.lateRule
  · rename_i e
    split
    · exact h₃.beside.lateRule
    · exact h₃.beside.confirmPublish

theorem Keeps.storedRes {x : Job} {k : Nat} (h : Keeps b s) : Keeps b (storedRes x k s).2 :=
  h.vBytes.rsThen (fun _ _ h₁ => h₁)

theorem Keeps.repairWork {x : Job} {lim : List Byte} {disagree : Bool} (h : Keeps b s) :
    Keeps b (repairWork x lim disagree s).2 := by
  unfold Machine.repairWork
  dsimp only
  refine .rsThen h.applyUpdates ?_
  intro _ _ h₁
  refine .rsThen h₁.newestPlan ?_
  intro _ _ h₂
  refine .rsThen h₂.vBytes ?_
  intro _ _ h₃
  refine .rsThen (h₃.vAll (fun _ _ h₄ => h₄.storedRes)) ?_
  intro _ _ h₄
  refine .rsThen (h₄.freeUp.vAll (fun _ _ h₅ => h₅.checkCand)) ?_
  intro _ _ h₅
  refine .iteSnd h₅.endJob ?_
  split
  · rename_i e
    split
    · exact h₅.confirmPublish
    · exact h₅.lateRule
  · rename_i e
    split
    · exact h₅.lateRule
    · exact .iteSnd h₅.lateRule (h₅.stopPlan.publish.rsThen (fun _ _ h₆ => h₆.cflag.endJob))

theorem Keeps.planGo {work : Job → List Byte → Bool → State → Rs Unit} {x : Job} {disagree : Bool} (h : Keeps b s)
    (hwork : ∀ x' y z t, Keeps b t → Keeps b (work x' y z t).2) : Keeps b (planGo work x disagree s).2 := by
  unfold Machine.planGo Rs.andThen
  split
  · rename_i hd t e
    have h₁ := h.planHead.of_eq e
    by_cases hr : reached t.now x.rnPublishAt
    · simp only [if_pos hr]
      exact h₁.lateRule
    · simp only [if_neg hr]
      exact .iteSnd h₁.lateRule (hwork x hd.1 disagree t h₁)
  · rename_i e
    exact h.planHead.of_eq e

end

end Sys2Proof.Machine
end

section
/-! PROOFS. What the operations keep: spread sequences (Sys2Proof/Machine/Spread.lean). -/

namespace Sys2Proof.Machine

section
set_option Elab.async false
variable {b s : State} {φ : Prop}

theorem Keeps.takeAdmit {src k job : Nat} {ctx rec_ : List Byte} {fork : Option (Nat × Nat)} (h : Keeps b s φ) :
    Keeps b (s.takeAdmit src k job ctx rec_ fork) φ :=
  .sendSpread (.ite h.spreadPlace h)

theorem Keeps.takeAnswer {j code : Nat} (h : Keeps b s φ) : Keeps b (s.takeAnswer j code) φ := by
  unfold State.takeAnswer
  split
  · exact h
  · exact .ite h.modJob.spreadSettle h.modJob

theorem Keeps.mapFor {i slot : Nat} {x : Job} {r : Nat × Nat × List Byte × List Byte} (h : Keeps b s φ) :
    Keeps b (mapFor i slot x r s).2 φ :=
  h.readLeaf.rdThen (fun _ _ h₁ => h₁.mapOne.showAtt)

theorem Keeps.takeRows {src : Nat} {m : SpreadRows} (h : Keeps b s φ) : Keeps b (s.takeRows src m) φ := by
  unfold State.takeRows
  dsimp only
  split
  · exact h.sendSpread
  · rename_i e
    split
    · rename_i e₁
      exact .ite ((((h.setCtx.readAll (fun _ _ h₁ => h₁.mapFor)).rdThen (fun _ _ h₁ => (h₁.readAll
          (fun _ _ h₂ => h₂.appendRow)).rdThen (fun _ _ h₂ => h₂.readAll (fun _ _ h₃ => h₃.queryRow)))).of_eq e₁).setCtx)
          (((h.setCtx.readAll (fun _ _ h₁ => h₁.mapFor)).rdThen (fun _ _ h₁ => (h₁.readAll
          (fun _ _ h₂ => h₂.appendRow)).rdThen (fun _ _ h₂ => h₂.readAll (fun _ _ h₃ => h₃.queryRow)))).of_eq e₁)
    · rename_i e₁
      exact (((h.setCtx.readAll (fun _ _ h₁ => h₁.mapFor)).rdThen (fun _ _ h₁ => (h₁.readAll
          (fun _ _ h₂ => h₂.appendRow)).rdThen (fun _ _ h₂ => h₂.readAll (fun _ _ h₃ => h₃.queryRow)))).of_eq e₁).sendSpread

theorem Keeps.takeOut {j addr : Nat} {bs : List Byte} {sat : Bool} {status : Nat} (h : Keeps b s φ) :
    Keeps b (s.takeOut j addr bs sat status) φ := by
  unfold State.takeOut
  split
  · exact h
  · rename_i e
    refine .ite ?_ ?_
    · refine .endJob ?_
      split
      · exact .ite h.closeRun h
      · exact h
    · split
      · rename_i e₁
        refine .endJob ?_
        split
        · exact .ite ((h.writeBytes.of_eq e₁).closeRun) (h.writeBytes.of_eq e₁)
        · exact h.writeBytes.of_eq e₁
      · rename_i e₁
        split
        · exact .ite ((((h.writeBytes.of_eq e₁).whenB ((h.writeBytes.of_eq e₁).cflag)).modJob).rowsDone)
              (((h.writeBytes.of_eq e₁).whenB ((h.writeBytes.of_eq e₁).cflag)).modJob)
        · exact ((h.writeBytes.of_eq e₁).whenB ((h.writeBytes.of_eq e₁).cflag)).modJob

theorem Keeps.takeSpread {src : Nat} {y0 : SpreadMsg} (h : Keeps b s φ) : Keeps b (s.takeSpread src y0) φ := by
  unfold State.takeSpread
  split
  · exact h.takeAdmit
  · exact h.takeAnswer
  · exact .ite h.spreadDrop h
  · exact h.takeRows
  · exact h.takeOut

theorem Keeps.closeRunOf {x : Job} (h : Keeps b s) : Keeps b (s.closeRunOf x) := by
  unfold State.closeRunOf
  refine .ite ?_ h
  split
  · exact h.closeRun
  · exact h

end

end Sys2Proof.Machine
end

section
/-! PROOFS. What the operations keep: the Weska ports (Sys2Proof/Machine/Weska.lean). -/

namespace Sys2Proof.Machine

section
set_option Elab.async false
variable {b s : State} {φ : Prop}

theorem Keeps.bridge {m : Master} {addr : Nat} {write : Option (List Byte)} {bytes : Nat} (h : Keeps b s) :
    Keeps b (s.bridge m addr write bytes) := by
  unfold State.bridge
  split
  · exact h.emit
  · exact .ite h.emit (.ite h.emit (.ite h.farSend.emit h.beside.farSend))

theorem Keeps.dropReq {tag : Nat} (h : Keeps b s φ) : Keeps b (s.dropReq tag) φ :=
  h.beside

theorem Keeps.postedError {n : Nat} (h : Keeps b s) : Keeps b (s.postedError n) :=
  .ite h.incSat.mgrIrq h.incSat.ownerIrq

theorem Keeps.train {p width peer : Nat} (h : Keeps b s) : Keeps b (s.train p width peer) := by
  unfold State.train
  exact .modWsk (.setF (.setF (.setF (.ite h.incSat.modRec h))))

theorem Keeps.loseCell {c : Cell} (h : Keeps b s) : Keeps b (s.loseCell c) := by
  unfold State.loseCell
  refine .ite h ?_
  split
  · exact h.postedError
  · exact h

theorem Keeps.owe {p vc : Nat} (h : Keeps b s) : Keeps b (s.owe p vc) :=
  h.modWsk

theorem Keeps.freeBuf {i : Nat} {c : Cell} (h : Keeps b s) : Keeps b (s.freeBuf i c) :=
  .ite h h.owe

theorem Keeps.reroute {from_ : Option Nat} {c : Cell} (h : Keeps b s) : Keeps b (s.reroute from_ c) := by
  unfold State.reroute
  refine .ite ?_ ?_
  · split
    · exact h.freeBuf
    · exact h
  · split
    · rename_i e
      split
      · exact h.incSat.freeBuf
      · exact h.incSat
    · exact h.modWsk

theorem Keeps.portDown {p st : Nat} (h : Keeps b s) : Keeps b (s.portDown p st) :=
  ((h.setF.setF.modWsk.each (fun _ _ h₁ => h₁.loseCell)).each (fun _ _ h₁ => h₁.reroute)).each (fun _ _ h₁ => h₁.reroute)

theorem Keeps.askReplay {p : Nat} (h : Keeps b s) : Keeps b (s.askReplay p) :=
  .ite h.incSat.emit.modWsk.modWsk.portDown.partnerLost h.incSat.emit.modWsk

theorem Keeps.noteTraj {bs : List Byte} (h : Keeps b s φ) : Keeps b (s.noteTraj bs) φ := by
  unfold State.noteTraj
  split
  · exact h.modTraj.trajCompare
  · exact h

theorem Keeps.inNonPosted {src addr tag len : Nat} {data : Option (List Byte)} (h : Keeps b s φ) :
    Keeps b (s.inNonPosted src addr tag len data) φ := by
  unfold State.inNonPosted
  split
  · exact h.incSat.wskOriginate
  · rename_i e
    split
    · dsimp only
      split
      · rename_i e₁
        exact ((h.instWrite.of_eq e₁).noteTraj).wskOriginate
      · rename_i e₁
        exact (h.instWrite.of_eq e₁).wskOriginate
    · dsimp only
      split
      · rename_i e₁
        exact (h.instRead.of_eq e₁).wskOriginate
      · rename_i e₁
        exact (h.instRead.of_eq e₁).wskOriginate

theorem Keeps.inPosted {src addr : Nat} {bs : List Byte} (h : Keeps b s φ) : Keeps b (s.inPosted src addr bs) φ := by
  unfold State.inPosted
  split
  · exact h.incSat
  · exact h.instWrite

theorem Keeps.complete {tag : Nat} {ok : Bool} {bs : List Byte} (h : Keeps b s φ) : Keeps b (s.complete tag ok bs) φ := by
  unfold State.complete
  split
  · exact h
  · exact .ite (.ite h.dropReq.forwardDone h.dropReq) (.ite h.dropReq.emit (.ite h.dropReq.emit h.dropReq.emit))

theorem Keeps.inTime {src stamp : Nat} {corr : Int} (h : Keeps b s φ) : Keeps b (s.inTime src stamp corr) φ :=
  .ite h.beside.incSat (.ite h.beside h.beside.emit)

theorem Keeps.inEther {bs : List Byte} (h : Keeps b s φ) : Keeps b (s.inEther bs) φ :=
  h.switchFrame

theorem Keeps.takePacket {c : Cell} (h : Keeps b s φ) : Keeps b (s.takePacket c) φ := by
  unfold State.takePacket
  split
  · exact h.inTime
  · exact h.complete
  · exact h.inPosted
  · exact h.inNonPosted
  · exact h.inEther
  · exact h.takeSpread
  · exact h

theorem Keeps.consume {c : Cell} (h : Keeps b s φ) : Keeps b (s.consume c) φ := by
  unfold State.consume
  split
  · exact h.beside
  · exact .ite h.beside.takePacket h.beside

theorem Keeps.passOn {p q : Nat} {c : Cell} (h : Keeps b s) : Keeps b (s.passOn p q c) :=
  .ite h.incSat h.modWsk

theorem Keeps.accept {p : Nat} {c : Cell} (h : Keeps b s) : Keeps b (s.accept p c) := by
  unfold State.accept
  refine .ite ((h.consume.each (fun _ _ h₁ => h₁.passOn)).freeBuf) ?_
  refine .ite h.consume.owe ?_
  split
  · exact .ite h.passOn.owe h.passOn
  · exact h.incSat.owe

theorem Keeps.takeHeader {p : Nat} {c : Cell} (h : Keeps b s) : Keeps b (s.takeHeader p c) :=
  h.modWsk

theorem Keeps.badCell {p : Nat} {c : Cell} (h : Keeps b s) : Keeps b (s.badCell p c) := by
  unfold State.badCell
  refine .ite ?_ ?_
  · refine .ite h ?_
    split
    · exact h.emit
    · exact h
  · refine .askReplay ?_
    refine .ite h ?_
    split
    · exact h.emit
    · exact h

theorem Keeps.sendCell {p vc : Nat} {x : Bool × Nat × Cell} (h : Keeps b s) : Keeps b (s.sendCell p vc x) :=
  .emit (.ite h.modWsk.freeBuf h.modWsk)

theorem Keeps.resend {p q : Nat} (h : Keeps b s) : Keeps b (s.resend p q) :=
  h.foldl (fun _ _ h₁ => h₁.emit)

end

end Sys2Proof.Machine
end

section
/-! PROOFS. What the operations keep: power and resets (Sys2Proof/Machine/Power.lean). -/

namespace Sys2Proof.Machine

section
set_option Elab.async false
variable {b s : State} {φ : Prop}

theorem Keeps.clockEnds {d : Domain} (h : Keeps b s) : Keeps b (s.clockEnds d) :=
  (h.each (fun _ _ h₁ => h₁.closeRunOf)).modJobs

theorem Keeps.clockWaits {d : Domain} (h : Keeps b s) : Keeps b (s.clockWaits d) :=
  .ite ((((h.each (fun _ _ h₁ => h₁.emit)).beside).each (fun _ _ h₁ => h₁.emit)).beside) ((h.each
      (fun _ _ h₁ => h₁.emit)).beside)

theorem Keeps.wipe {doze cold : Bool} (h : Keeps b s) : Keeps b (s.wipe doze cold) := by
  refine ⟨h.queue, h.record, h.free, fun hb => ?_, False.elim⟩
  have hs := ((State.tidy_iff s).mp (h.forms hb)).1
  refine (State.tidy_iff _).mpr ⟨?_, rfl, rfl⟩
  cases cold
  · exact regsWf_filter _ _ _ hs
  · rfl

theorem Keeps.holdSafe (h : Keeps b s) : Keeps b s.holdSafe :=
  .ite h h.modPower.safePin.safePin

theorem Keeps.releaseSafe (h : Keeps b s) : Keeps b s.releaseSafe :=
  .ite h.modPower.safePin.safePin h

theorem Keeps.socPower {on : Bool} (h : Keeps b s) : Keeps b (s.socPower on) :=
  .ite h h.modPower.emit

theorem Keeps.toReset {cold : Bool} (h : Keeps b s) : Keeps b (s.toReset cold) :=
  h.wipe.modPower.holdSafe

theorem Keeps.setOwner {cls idx owner : Nat} (h : Keeps b s) : Keeps b (s.setOwner cls idx owner) :=
  h.setR

theorem Keeps.writeImages {c : BootConfig} (h : Keeps b s) : Keeps b (s.writeImages c) := by
  unfold State.writeImages
  exact ((((((((((h.each (fun _ _ h₁ => h₁.setOwner)).setF).setF).setF).setF).setF).setF).setF).each
      (fun _ _ h₁ => h₁.setF.setF.setF.modDisp)).setF).modPower

theorem Keeps.pairBillet (h : Keeps b s) : Keeps b s.pairBillet :=
  h.modRec.logEvent.beside.setF.modPower.modRec.updateLife

theorem Keeps.startBillet (h : Keeps b s) : Keeps b s.startBillet :=
  .ite h.setF (.ite h.setF (.ite h.setF.modPower.updateLife h.pairBillet))

theorem Keeps.takeRecord {rec : RecordSource} (h : Keeps b s) : Keeps b (s.takeRecord rec) := by
  unfold State.takeRecord
  refine .modRec ?_
  split
  · exact h
  · exact h.beside
  · exact h.beside.logEvent
  · exact h.beside

theorem Keeps.signPfw (h : Keeps b s) : Keeps b s.signPfw :=
  .ite h.checkpoint h

theorem Keeps.startCounts (h : Keeps b s) : Keeps b s.startCounts := by
  unfold State.startCounts
  exact .modPower (.setF (.modRec (.ite (.setF (.recCount (.ite (.recCount (.ite h.recCount h)) (.ite h.recCount h))))
      (.ite (.recCount (.ite h.recCount h)) (.ite h.recCount h)))))

theorem Keeps.applyRetired (h : Keeps b s) : Keeps b s.applyRetired :=
  ((h.each (fun _ _ h₁ => .ite h₁.setF h₁)).each (fun _ _ h₁ => h₁.setF)).beside

theorem Keeps.bootRest {slot : BootSlot} {rec : RecordSource} (h : Keeps b s) : Keeps b (s.bootRest slot rec) := by
  unfold State.bootRest
  exact h.beside.modTrust.takeRecord.startBillet.signPfw.startCounts.applyRetired.beside.beside.setF.modPower

theorem Keeps.bootStop {err : Nat} (h : Keeps b s) : Keeps b (s.bootStop err) :=
  h.setF.assertFlt

theorem Keeps.bootSlot {slot : BootSlot} {rec : RecordSource} (h : Keeps b s) : Keeps b (s.bootSlot slot rec) :=
  .ite h.bootStop (.ite h.bootStop h.writeImages.bootRest)

theorem Keeps.wakePorts (h : Keeps b s) : Keeps b s.wakePorts :=
  h.each (fun _ _ h₁ => h₁.emit)

theorem Keeps.rise (h : Keeps b s) : Keeps b s.rise :=
  .socPower (.releaseSafe (.modPower (.wipe (.ite h.wakePorts h))))

theorem Keeps.wake {cause n : Nat} (h : Keeps b s) : Keeps b (s.wake cause n) :=
  .ite h (.ite h.setF h.setF.setF.setF.modPower.socPower)

theorem Keeps.alignDoze {p : Nat} {d : Int} (h : Keeps b s) : Keeps b (s.alignDoze p d) :=
  .ite h.setF.modWsk h

theorem Keeps.missDoze {p : Nat} (h : Keeps b s) : Keeps b (s.missDoze p) :=
  .ite h.incSat.setF.modWsk (.ite h.incSat.modWsk.emit h.incSat.modWsk)

end

end Sys2Proof.Machine
end

section
/-! PROOFS. What the operations keep: memory commands (Sys2Proof/Machine/MemCmd.lean). -/

namespace Sys2Proof.Machine

section
set_option Elab.async false
variable {b s : State} {φ : Prop}

theorem Keeps.fillHolder {m : Master} {l : Nat} (h : Keeps b s) : Keeps b (s.fillHolder m l) := by
  unfold State.fillHolder
  split
  · exact .ite h h.beside
  · exact h

theorem Keeps.serve {q : HomeReq} (h : Keeps b s) : Keeps b (s.serve q) := by
  unfold State.serve
  split
  · rename_i e
    dsimp only
    split
    · rename_i e₁
      exact ((h.dramGet.of_eq e₁).emit).fillHolder
    · rename_i e₁
      exact (h.dramGet.of_eq e₁).emit
    · rename_i e₁
      exact (h.dramGet.of_eq e₁).emit
  · rename_i e
    dsimp only
    split
    · rename_i e₁
      exact (h.dramPut.of_eq e₁).emit
    · rename_i e₁
      exact (h.dramPut.of_eq e₁).emit
    · rename_i e₁
      exact (h.dramPut.of_eq e₁).emit

theorem Keeps.arrive {q : HomeReq} (h : Keeps b s) : Keeps b (s.arrive q) := by
  unfold State.arrive
  refine .ite h.beside ?_
  split
  · exact h.serve
  · exact .ite h.beside h.beside

theorem Keeps.drainHome (h : Keeps b s) : Keeps b s.drainHome :=
  h.beside.foldl (fun _ _ h₁ => h₁.arrive)

theorem Keeps.found {l : Nat} {errs : BurstErrs} (h : Keeps b s) : Keeps b (s.found l errs) := by
  unfold State.found
  dsimp only
  split
  · exact h.addFlips.addFlips
  · exact h.addFlips

theorem Keeps.dramReq {q : HomeReq} {errs : BurstErrs} (h : Keeps b s) : Keeps b (s.dramReq q errs) :=
  .ite h.emit (.ite h.emit h.gateReq.found.arrive)

theorem Keeps.dramRead {m : Master} {pa n : Nat} {errs : BurstErrs} (h : Keeps b s) : Keeps b (s.dramRead m pa n errs) :=
  h.dramReq

theorem Keeps.dramWrite {m : Master} {pa : Nat} {data : List Byte} {errs : BurstErrs} (h : Keeps b s) :
    Keeps b (s.dramWrite m pa data errs) :=
  h.dramReq

theorem Keeps.placeLine {c : Cacher} {l : Nat} {bs : List Byte} (h : Keeps b s) : Keeps b (s.placeLine c l bs) :=
  h.store.touch

theorem Keeps.clearHolder {c : Cacher} {l : Nat} (h : Keeps b s) : Keeps b (s.clearHolder c l) :=
  h.beside

theorem Keeps.takeWriteBack {c : Cacher} {l : Nat} {data : Option (List Byte)} (h : Keeps b s) :
    Keeps b (s.takeWriteBack c l data) := by
  unfold State.takeWriteBack
  refine .ite h.beside ?_
  refine .ite ?_ h.beside
  refine .beside ?_
  refine .clearHolder ?_
  split
  · exact h.placeLine
  · exact h

theorem Keeps.takeSnoop {c : Cacher} {l : Nat} {data : Option (List Byte)} {evicting : Bool} (h : Keeps b s) :
    Keeps b (s.takeSnoop c l data evicting) := by
  unfold State.takeSnoop
  split
  · exact h
  · rename_i e
    refine .drainHome ?_
    refine .serve ?_
    refine .beside ?_
    refine .ite ?_ ?_
    · refine .clearHolder ?_
      split
      · exact h.beside.placeLine
      · exact h.beside
    · refine .beside ?_
      split
      · exact h.beside.placeLine
      · exact h.beside

theorem Keeps.pieceDone {mv : Nat} (h : Keeps b s) : Keeps b (pieceDone mv s) := by
  unfold Machine.pieceDone
  split
  · exact h.ladlePiece
  · exact h

theorem Keeps.xferX {j o : Nat} (h : Keeps b s) : Keeps b (s.xferX j o) :=
  h.modJob

theorem Keeps.xferI {j o : Nat} (h : Keeps b s) : Keeps b (s.xferI j o) :=
  h.modJob

theorem Keeps.xferB {j o : Nat} (h : Keeps b s) : Keeps b (s.xferB j o) :=
  h.modJob

theorem Keeps.cmdWrite {j o : Nat} {bs : List Byte} (h : Keeps b s) : Keeps b (s.cmdWrite j o bs) := by
  unfold State.cmdWrite
  split
  · exact h.xferB
  · exact .ite h.setF.incSat.xferB h.modArr

theorem Keeps.poisonDest {pa : Nat} (h : Keeps b s) : Keeps b (s.poisonDest pa) := by
  unfold State.poisonDest
  split
  · exact h.beside.updateOcc.dropHolders.poisonLine
  · exact h

theorem Keeps.xferPut {j inst o va : Nat} {bs : List Byte} (h : Keeps b s) : Keeps b (s.xferPut j inst o va bs) := by
  unfold State.xferPut
  split
  · rename_i e
    exact (h.xlate.of_eq e).xferX
  · rename_i e
    split
    · exact (h.xlate.of_eq e).each (fun _ _ h₁ => h₁.cmdWrite)
    · split
      · rename_i e₁
        exact ((h.xlate.of_eq e).lineWrite).of_eq e₁
      · rename_i e₁
        exact (((h.xlate.of_eq e).lineWrite).of_eq e₁).xferX
      · rename_i e₁
        exact (((h.xlate.of_eq e).lineWrite).of_eq e₁).xferI
      · rename_i e₁
        exact (((h.xlate.of_eq e).lineWrite).of_eq e₁).endJob

theorem Keeps.copyLine {j inst src dst : Nat} {c : Nat × Nat} (h : Keeps b s) : Keeps b (s.copyLine j inst src dst c) := by
  unfold State.copyLine
  dsimp only
  split
  · rename_i e
    refine .xferPut ?_
    refine .foldlSnd₂ h ?_
    intro _ _ h₁
    split
    · rename_i e₁
      exact h₁.instRead.of_eq e₁
    · rename_i e₁
      exact h₁.instRead.of_eq e₁
  · rename_i e
    split
    · rename_i e₁
      refine .xferI ?_
      refine .poisonDest ?_
      refine .of_eq e₁ ?_
      refine .xlate ?_
      refine .foldlSnd₂ h ?_
      intro _ _ h₁
      split
      · rename_i e₂
        exact h₁.instRead.of_eq e₂
      · rename_i e₂
        exact h₁.instRead.of_eq e₂
    · rename_i e₁
      refine .xferX ?_
      refine .of_eq e₁ ?_
      refine .xlate ?_
      refine .foldlSnd₂ h ?_
      intro _ _ h₁
      split
      · rename_i e₂
        exact h₁.instRead.of_eq e₂
      · rename_i e₂
        exact h₁.instRead.of_eq e₂
  · rename_i e
    refine .endJob ?_
    refine .foldlSnd₂ h ?_
    intro _ _ h₁
    split
    · rename_i e₁
      exact h₁.instRead.of_eq e₁
    · rename_i e₁
      exact h₁.instRead.of_eq e₁
  · rename_i e
    refine .xferX ?_
    refine .foldlSnd₂ h ?_
    intro _ _ h₁
    split
    · rename_i e₁
      exact h₁.instRead.of_eq e₁
    · rename_i e₁
      exact h₁.instRead.of_eq e₁

theorem Keeps.xlateOk {inst va n : Nat} {write : Bool} (h : Keeps b s) : Keeps b (s.xlateOk inst va n write).2 := by
  unfold State.xlateOk
  split
  · rename_i e
    exact h.xlate.of_eq e
  · rename_i e
    refine .iteSnd (h.xlate.of_eq e) ?_
    split
    · rename_i e₁
      exact ((h.xlate.of_eq e).xlate).of_eq e₁
    · rename_i e₁
      exact ((h.xlate.of_eq e).xlate).of_eq e₁

theorem Keeps.copyUnit {x : Job} {o : Nat} (h : Keeps b s) : Keeps b (s.copyUnit x o) := by
  unfold State.copyUnit
  dsimp only
  split
  · rename_i e
    exact (h.xlateOk.of_eq e).xferX
  · rename_i e
    split
    · rename_i e₁
      exact (((h.xlateOk.of_eq e).xlateOk).of_eq e₁).xferX
    · rename_i e₁
      exact (((h.xlateOk.of_eq e).xlateOk).of_eq e₁).each (fun _ _ h₁ => h₁.copyLine)

theorem Keeps.xferStop {j status o : Nat} (h : Keeps b s) : Keeps b (s.xferStop j status o) :=
  h.modJob.endJob

theorem Keeps.unitOk {x : Job} {o : Nat} (h : Keeps b s) : Keeps b (s.unitOk x o).2 :=
  h.foldlSnd (fun _ _ h₁ => .iteSnd h₁.xlateOk h₁)

theorem Keeps.unitRead {inst base : Nat} {cs : List (Nat × Nat)} (h : Keeps b s) : Keeps b (unitRead inst base cs s).2 := by
  induction cs generalizing s with
  | nil => exact h
  | cons c cs ih =>
    unfold Machine.unitRead
    split
    · rename_i e
      have h₁ := ih (h.instRead.of_eq e)
      split
      · rename_i e'
        exact h₁.of_eq e'
      · exact h₁
    · rename_i e
      exact h.instRead.of_eq e

theorem Keeps.unitError {x : Job} {o k : Nat} {e : MRes} (h : Keeps b s) : Keeps b (s.unitError x o k e) := by
  unfold State.unitError
  split
  · exact h.xferX
  · exact h.endJob
  · refine .xferI ?_
    refine .each h ?_
    intro _ _ h₁
    split
    · rename_i e
      exact (h₁.xlate.of_eq e).poisonDest
    · rename_i e
      exact (h₁.xlate.of_eq e).xferX

theorem Keeps.unitWrite {x : Job} {base va : Nat} {bs : List Byte} (h : Keeps b s) : Keeps b (s.unitWrite x base va bs) :=
  h.each (fun _ _ h₁ => h₁.xferPut)

theorem Keeps.openCopy {x : Job} {o : Nat} (h : Keeps b s) : Keeps b (s.openCopy x o) := by
  unfold State.openCopy
  refine .ite h.xferStop ?_
  split
  · rename_i e
    split
    · rename_i e₁
      split
      · exact (((h.unitRead.of_eq e).instRead).of_eq e₁).unitWrite
      · exact (((h.unitRead.of_eq e).instRead).of_eq e₁).xferStop
    · rename_i e₁
      exact (((h.unitRead.of_eq e).instRead).of_eq e₁).unitError
  · rename_i e
    exact (h.unitRead.of_eq e).unitError

theorem Keeps.sealCopy {x : Job} {o : Nat} (h : Keeps b s) : Keeps b (s.sealCopy x o) := by
  unfold State.sealCopy
  split
  · rename_i e
    split
    · rename_i e₁
      exact (((h.unitRead.of_eq e).sealUnit).of_eq e₁).xferStop
    · rename_i e₁
      exact ((((h.unitRead.of_eq e).sealUnit).of_eq e₁).unitWrite).unitWrite
  · rename_i e
    exact (h.unitRead.of_eq e).unitError

theorem Keeps.cryptUnit {x : Job} {o : Nat} (h : Keeps b s) : Keeps b (s.cryptUnit x o) := by
  unfold State.cryptUnit
  split
  · rename_i e
    exact (h.unitOk.of_eq e).xferX
  · rename_i e
    exact .ite ((h.unitOk.of_eq e).openCopy) ((h.unitOk.of_eq e).sealCopy)

theorem Keeps.xferUnit {x : Job} {o : Nat} (h : Keeps b s) : Keeps b (s.xferUnit x o) :=
  .ite h (.ite h.copyUnit h.cryptUnit)

theorem Keeps.fillUnit {x : Job} {o : Nat} (h : Keeps b s) : Keeps b (s.fillUnit x o) := by
  unfold State.fillUnit
  dsimp only
  split
  · rename_i e
    exact (h.xlateOk.of_eq e).xferX
  · rename_i e
    exact (h.xlateOk.of_eq e).each (fun _ _ h₁ => h₁.xferPut)

theorem Keeps.pieceEnd {j piece total : Nat} (h : Keeps b s) : Keeps b (s.pieceEnd j piece total) := by
  unfold State.pieceEnd
  dsimp only
  split
  · exact .ite h.modJob.endJob h.modJob
  · exact h.modJob

theorem Keeps.xferGo {x : Job} {op piece : Nat} {g : State → Nat → State}
    (h : Keeps b s) (hg : ∀ x' t, Keeps b t → Keeps b (g t x')) :
    Keeps b (s.xferGo x op piece g) :=
  .ite h ((((h.each (fun _ _ h₁ => hg _ _ h₁)).modJob).pieceEnd).dealLadles)

theorem Keeps.xferPieceGo {j op piece : Nat} {g : Job → State → Nat → State}
    (h : Keeps b s) (hg : ∀ x y t, Keeps b t → Keeps b (g x t y)) :
    Keeps b (xferPieceGo j op piece g s) :=
  h.runningJob (fun _ => h.xferGo (fun _ _ h₁ => hg _ _ _ h₁))

end

end Sys2Proof.Machine
end

section
/-! PROOFS. What the operations keep: flasks (Sys2Proof/Machine/Flasks.lean). -/

namespace Sys2Proof.Machine

section
set_option Elab.async false
variable {b s : State} {φ : Prop}

theorem Keeps.createFlask {f : Nat} (h : Keeps b s) : Keeps b (s.createFlask f) := by
  unfold State.createFlask
  exact (((h.setF.setF.each (fun _ _ h₁ => h₁.giveBack.setF.setF.setF.setF)).each (fun _ _ h₁ => h₁.setF.setF)).each
      (fun _ _ h₁ => h₁.modRt)).modFlask

theorem Keeps.shakeRt {destroy : Bool} {c : Nat} (h : Keeps b s) : Keeps b (s.shakeRt destroy c) :=
  h.modRt

theorem Keeps.shakeRunner (h : Keeps b s) : Keeps b s.shakeRunner :=
  h.beside

theorem Keeps.shakeWays {f : Nat} (h : Keeps b s) : Keeps b (s.shakeWays f) :=
  h.beside.updateOcc

theorem Keeps.shakeFlask {f : Nat} (h : Keeps b s) : Keeps b (s.shakeFlask f) :=
  .shakeWays (.ite (((((h.each (fun _ _ h₁ => h₁.shakeArray)).each (fun _ _ h₁ => h₁.shakeVec)).each
      (fun _ _ h₁ => h₁.shakeRt)).beside).shakeRunner) ((((h.each (fun _ _ h₁ => h₁.shakeArray)).each
      (fun _ _ h₁ => h₁.shakeVec)).each (fun _ _ h₁ => h₁.shakeRt)).beside))

theorem Keeps.freeFlask {f : Nat} (h : Keeps b s) : Keeps b (s.freeFlask f) :=
  h.setR.setF.setF.setF.setF

theorem Keeps.returnUnits {f : Nat} (h : Keeps b s) : Keeps b (s.returnUnits f) :=
  ((h.each (fun _ _ h₁ => h₁.setF.setF)).each (fun _ _ h₁ => h₁.setF.setF)).each (fun _ _ h₁ => h₁.modRt)

theorem Keeps.endDestroy {f : Nat} (h : Keeps b s) : Keeps b (s.endDestroy f) :=
  h.returnUnits.modFlask.setF.setF.freeFlask

theorem Keeps.endShake {f : Nat} (h : Keeps b s) : Keeps b (s.endShake f) :=
  .ite h.setF h.endDestroy

theorem Keeps.poolShakeout {failed : List TBUnit} (h : Keeps b s) : Keeps b (s.poolShakeout failed) :=
  h.each (fun _ _ h₁ => h₁.giveBack.modArr)

theorem Keeps.flaskShakeout {f : Nat} {failed : List TBUnit} (h : Keeps b s) : Keeps b (s.flaskShakeout f failed) :=
  .ite h (.ite h.shakeFlask.modFlask h.shakeFlask.endShake)

theorem Keeps.withdrawUnit {u : TBUnit} (h : Keeps b s) : Keeps b (s.withdrawUnit u) := by
  unfold State.withdrawUnit
  dsimp only
  split
  · exact h.fresh.setF.setF.setF.logEvent
  · exact h.fresh.withdrawVec.logEvent
  · exact h.fresh.modRt.logEvent
  · exact h.fresh.beside.logEvent

theorem Keeps.poolClear {failed : List TBUnit} (h : Keeps b s) : Keeps b (s.poolClear failed) :=
  h.each (fun _ _ h₁ => .ite h₁.shakeArray.modArr.withdrawUnit h₁.shakeArray.modArr)

theorem Keeps.flaskClear {f : Nat} {failed : List TBUnit} (h : Keeps b s) : Keeps b (s.flaskClear f failed) :=
  .ite h (.ite h.modFlask.endShake (.ite (((h.modFlask.each (fun _ _ h₁ => h₁.withdrawUnit)).returnUnits).setF)
      ((h.modFlask.each (fun _ _ h₁ => h₁.withdrawUnit)).endShake)))

theorem Keeps.destroyFlask {f : Nat} (h : Keeps b s) : Keeps b (s.destroyFlask f) :=
  .ite h.freeFlask h.setF

end

end Sys2Proof.Machine
end

section
/-! PROOFS. What the operations keep: instances (Sys2Proof/Machine/Inst.lean). -/

namespace Sys2Proof.Machine

section
set_option Elab.async false
variable {b s : State} {φ : Prop}

theorem Keeps.quiesceQueues {i : Nat} (h : Keeps b s) : Keeps b (s.quiesceQueues i) :=
  h.each (fun _ _ h₁ => h₁.clearSprue.modQ.setF)

theorem Keeps.stopWork {x : Job} (h : Keeps b s) : Keeps b (s.stopWork x) :=
  .ite h ((h.dropTiles.each (fun _ _ h₁ => h₁.dropNext)).dropItems)

theorem Keeps.startQuiesce {i : Nat} (h : Keeps b s) : Keeps b (s.startQuiesce i) :=
  (h.setF.quiesceQueues.each (fun _ _ h₁ => .ite h₁.stopWork.modJob h₁.stopWork.endJob)).closeRuns

theorem Keeps.resumeQueue {n : Nat} (h : Keeps b s) : Keeps b (s.resumeQueue n) :=
  .ite h.setF (.ite h.setF.setPending.showQueue h.setF.showQueue)

theorem Keeps.resumeInst {i : Nat} (h : Keeps b s) : Keeps b (s.resumeInst i) :=
  h.setF.setF.each (fun _ _ h₁ => h₁.resumeQueue)

theorem Keeps.resetWork {i : Nat} (h : Keeps b s) : Keeps b (s.resetWork i) :=
  (((((h.each (fun _ _ h₁ => h₁.clearSprue.setF.setR.setR.setF)).each (fun _ _ h₁ => h₁.modQ)).beside).setF).setF).showAtt

theorem Keeps.resetInst {i : Nat} (h : Keeps b s) : Keeps b (s.resetInst i) :=
  h.setF.resetWork

theorem Keeps.removeInst {i : Nat} (h : Keeps b s) : Keeps b (s.removeInst i) :=
  h.setF.resetWork

theorem Keeps.cleanWays {f : Nat} (h : Keeps b s) : Keeps b (s.cleanWays f) :=
  (h.each (fun _ _ h₁ => h₁.lineStored)).beside

theorem Keeps.unbind {i : Nat} (h : Keeps b s) : Keeps b (s.unbind i) :=
  h.each (fun _ _ h₁ => h₁.setR)

theorem Keeps.spillAll {i : Nat} (h : Keeps b s) : Keeps b (s.spillAll i) :=
  (h.each (fun _ _ h₁ => h₁.spillCtx)).setF

theorem Keeps.tdiError {i : Nat} (h : Keeps b s) : Keeps b (s.tdiError i) :=
  .ite h.setF.setF.startQuiesce h.setF

theorem Keeps.instCmd {i k : Nat} (h : Keeps b s) : Keeps b (s.instCmd i k) := by
  unfold State.instCmd
  split
  · exact h.setF.setF
  · exact .ite h.tdiError h.startQuiesce
  · exact h.resumeInst
  · exact h.resetInst
  · exact h.removeInst
  · exact h.spillAll

theorem Keeps.lockTdi {i : Nat} (h : Keeps b s) : Keeps b (s.lockTdi i) := by
  unfold State.lockTdi
  exact h.readDc.setF.modTrust

theorem Keeps.lockRequest {p vf : Nat} (h : Keeps b s) : Keeps b (s.lockRequest p vf) := by
  unfold State.lockRequest
  split
  · exact h.emit
  · exact .ite h.lockTdi.emit h.emit

theorem Keeps.startRequest {p vf : Nat} (h : Keeps b s) : Keeps b (s.startRequest p vf) := by
  unfold State.startRequest
  split
  · exact .ite h.setF.emit h.emit
  · exact h.emit

theorem Keeps.cqNext (h : Keeps b s) : Keeps b s.cqNext :=
  h.setR

theorem Keeps.cqTake {w0 w1 : Nat} {go : State → State} (h : Keeps b s) (hgo : ∀ t, Keeps b t → Keeps b (go t)) :
    Keeps b (s.cqTake w0 w1 go) := by
  unfold State.cqTake
  refine .ite h ?_
  split
  · rename_i e
    exact .ite ((h.physRead.of_eq e).setR) (.ite ((hgo _ (h.physRead.of_eq e)).cqNext) (h.physRead.of_eq e))
  · rename_i e
    exact (h.physRead.of_eq e).setR

theorem Keeps.recheckTdi {i : Nat} (h : Keeps b s) : Keeps b (s.recheckTdi i) :=
  .ite h (.ite h.readDc h.readDc.tdiError)

end

end Sys2Proof.Machine
end

section
/-! PROOFS. What the operations keep: trust (Sys2Proof/Machine/Trust.lean). -/

namespace Sys2Proof.Machine

section
set_option Elab.async false
variable {b s : State} {φ : Prop}

theorem Keeps.keyDeliver {tenant : Nat} {p : KeyPolicy} (h : Keeps b s) : Keeps b (s.keyDeliver tenant p) := by
  unfold State.keyDeliver
  split
  · exact h.emit
  · exact .ite h.emit h.modTrust.emit

theorem Keeps.emptySlots {f : Option Nat} {g : HeldKey → Bool} (h : Keeps b s) : Keeps b (s.emptySlots f g) :=
  h.each (fun _ _ h₁ => h₁.modFlask)

theorem Keeps.keyRevoke {tenant keyId : Nat} (h : Keeps b s) : Keeps b (s.keyRevoke tenant keyId) :=
  .ite h.emit h.emptySlots.modTrust.emit

theorem Keeps.releaseKey {k : HeldKey} {f slot : Nat} (h : Keeps b s) : Keeps b (s.releaseKey k f slot) :=
  h.modFlask

theorem Keeps.setDigest {k d : Nat} (h : Keeps b s) : Keeps b (s.setDigest k d) :=
  .ite h h.modTrust.emptySlots

theorem Keeps.consentInstall {tenant f scope devId lastHour keyId digest : Nat} {ok : Bool} (h : Keeps b s) :
    Keeps b (s.consentInstall tenant f scope devId lastHour keyId digest ok) :=
  .ite h.emit (.ite h.modFlask.emit h.modFlask.emptySlots.emit)

theorem Keeps.report {nonce : Nat} (h : Keeps b s) : Keeps b (s.report nonce).2 :=
  h.freshBytes

theorem Keeps.tdiReport {p vf : Nat} (h : Keeps b s) : Keeps b (s.tdiReport p vf) := by
  unfold State.tdiReport
  split
  · exact .ite h.emit h.emit
  · exact h.emit

theorem Keeps.bothPins {x : Bool × Bool} (h : Keeps b s) : Keeps b (s.bothPins x) :=
  h.emit.emit

theorem Keeps.jtag {j : Jtag} (h : Keeps b s) : Keeps b (s.jtag j) :=
  .ite h.beside.bothPins (.ite h.beside.bothPins (.ite h.beside.bothPins h.beside))

end

end Sys2Proof.Machine
end

section
/-! PROOFS. What the operations keep: the mailbox (Sys2Proof/Machine/Mailbox.lean). -/

namespace Sys2Proof.Machine

section
set_option Elab.async false
variable {b s : State} {φ : Prop}

theorem Keeps.respondMbx {ch status retry : Nat} {payload : List Byte} (h : Keeps b s) :
    Keeps b (s.respondMbx ch status retry payload) :=
  .ite h.putMbx.setF.setF.mgrIrq h.putMbx.setF.setF.emit

theorem Keeps.respondCall {core status : Nat} (h : Keeps b s) : Keeps b (s.respondCall core status) :=
  .ite h.fresh.emit h.fresh.fresh.emit

theorem Keeps.respond {ch status : Nat} {payload : List Byte} (h : Keeps b s) : Keeps b (s.respond ch status payload) :=
  .ite h.respondMbx h.respondCall

theorem Keeps.senderWrite {m : Master} {a : Nat} {bs : List Byte} (h : Keeps b s) : Keeps b (s.senderWrite m a bs).2 := by
  unfold State.senderWrite
  split
  · rename_i e
    split
    · rename_i e₁
      exact h.gWrite.of_eq e₁
    · rename_i e₁
      exact h.gWrite.of_eq e₁
  · rename_i e
    split
    · rename_i e₁
      exact h.physWrite.of_eq e₁
    · rename_i e₁
      exact h.physWrite.of_eq e₁

theorem Keeps.senderRead {m : Master} {a n : Nat} (h : Keeps b s) : Keeps b (s.senderRead m a n).2 := by
  unfold State.senderRead
  split
  · rename_i e
    split
    · rename_i e₁
      exact h.gRead.of_eq e₁
    · rename_i e₁
      exact h.gRead.of_eq e₁
  · rename_i e
    split
    · rename_i e₁
      exact h.physRead.of_eq e₁
    · rename_i e₁
      exact h.physRead.of_eq e₁

theorem Keeps.msgVersion {ch : Nat} (h : Keeps b s) : Keeps b (s.msgVersion ch).2 :=
  .iteSnd h h

theorem Keeps.msgLoad {m : Master} {ch : Nat} {ok : Bool} (h : Keeps b s) : Keeps b (s.msgLoad m ch ok).2 := by
  unfold State.msgLoad
  dsimp only
  refine .iteSnd h ?_
  split <;> rename_i e
  · exact h.senderRead.of_eq e
  · have h₁ := h.senderRead.of_eq e
    refine .iteSnd h₁ (.iteSnd h₁ ?_)
    dsimp only
    exact h₁.modFw

theorem Keeps.stopFw {p : Nat} {i : Image} {waiter : Option Nat} (h : Keeps b s) : Keeps b (s.stopFw p i waiter) :=
  .ite h.modFw.modTrust (.ite h.modFw.beside h.modFw)

theorem Keeps.msgRestart {ch : Nat} (h : Keeps b s) : Keeps b (s.msgRestart ch).2 :=
  .iteSnd h (.iteSnd h (.iteSnd h (.stopFw (.ite (.modFw (.ite (.checkpoint (.ite h.recCount h)) (.ite h.recCount h)))
      (.ite (.checkpoint (.ite h.recCount h)) (.ite h.recCount h))))))

theorem Keeps.startCupola {areaOk : Bool} (h : Keeps b s) : Keeps b (s.startCupola areaOk) :=
  .ite (.pfwServe (.modPower (.modPower (.ite h h.beside)))) (.modPower (.ite h h.beside))

theorem Keeps.startFw {p : Nat} {areaOk : Bool} (h : Keeps b s) : Keeps b (s.startFw p areaOk) := by
  unfold State.startFw
  dsimp only
  split
  · exact .respond (.ite h.modFw.setDigest.startCupola h.modFw.setDigest)
  · exact .ite h.modFw.setDigest.startCupola h.modFw.setDigest

theorem Keeps.enterStandby (h : Keeps b s) : Keeps b s.enterStandby :=
  .socPower (.holdSafe (.modPower (.wipe (.each (.ite (h.recCount.checkpoint.each
      (fun _ _ h₁ => h₁.emit)) h.recCount.checkpoint) (fun _ _ h₁ => .ite h₁.setF h₁.setF)))))

theorem Keeps.msgPower {ch : Nat} (h : Keeps b s) : Keeps b (s.msgPower ch).2 :=
  .iteSnd h (.iteSnd h h.respond.enterStandby)

theorem Keeps.msgRecord {m : Master} {ch : Nat} (h : Keeps b s) : Keeps b (s.msgRecord m ch).2 := by
  unfold State.msgRecord
  dsimp only
  refine .iteSnd h ?_
  split
  · exact h
  · rename_i e
    split
    · rename_i e₁
      exact .of_eq e₁ (.senderWrite (.iteSnd h.bytes512 h.bytes32k))
    · rename_i e₁
      exact .of_eq e₁ (.senderWrite (.iteSnd h.bytes512 h.bytes32k))

theorem Keeps.msgPrepare {ch : Nat} (h : Keeps b s) : Keeps b (s.msgPrepare ch).2 :=
  .iteSnd h h.checkpoint.modPower.emit

theorem Keeps.msgPair {ch : Nat} {ok : Bool} (h : Keeps b s) : Keeps b (s.msgPair ch ok).2 :=
  .iteSnd h (.iteSnd h (.iteSnd h (.pairBillet (.ite h h.emit))))

theorem Keeps.msgBillet {ch : Nat} (h : Keeps b s) : Keeps b (s.msgBillet ch).2 :=
  .iteSnd h h

theorem Keeps.msgAttest {m : Master} {ch : Nat} (h : Keeps b s) : Keeps b (s.msgAttest m ch).2 := by
  unfold State.msgAttest
  dsimp only
  refine .iteSnd h ?_
  split
  · rename_i e
    exact h.report.senderWrite.of_eq e
  · rename_i e
    exact h.report.senderWrite.of_eq e

theorem Keeps.msgRelease {ch : Nat} (h : Keeps b s) : Keeps b (s.msgRelease ch).2 := by
  unfold State.msgRelease
  refine .iteSnd h ?_
  split
  · exact h
  · exact .iteSnd h.releaseKey h

theorem Keeps.armGates {port : Nat} (h : Keeps b s) : Keeps b (s.armGates port) :=
  .ite h.modGate h.modGate

theorem Keeps.deriveSak {i : EthItem} (h : Keeps b s) : Keeps b (s.deriveSak i) :=
  .ite h.beside.fresh.beside h.beside

theorem Keeps.itemTakes {i : EthItem} (h : Keeps b s) : Keeps b (s.itemTakes i) := by
  unfold State.itemTakes
  split
  · exact h.beside
  · exact h.beside
  · exact h.beside
  · exact h.deriveSak
  · exact h

theorem Keeps.commitItems {port : Nat} {shared : Bool} (h : Keeps b s) : Keeps b (s.commitItems port shared) :=
  .ite ((h.beside.each (fun _ _ h₁ => .itemTakes h₁)).armGates) (h.beside.each (fun _ _ h₁ => .itemTakes h₁))

theorem Keeps.msgEth {m : Master} {ch : Nat} (h : Keeps b s) : Keeps b (s.msgEth m ch).2 :=
  .iteSnd h (.iteSnd h (.iteSnd h (.ite h.beside.commitItems h.beside)))

theorem Keeps.msgDsp {m : Master} {ch : Nat} (h : Keeps b s) : Keeps b (s.msgDsp m ch).2 := by
  unfold State.msgDsp
  dsimp only
  refine .iteSnd h (.iteSnd h ?_)
  dsimp only
  exact h.modDisp

theorem Keeps.msgWork {m : Master} {ch : Nat} {ok : Bool} (h : Keeps b s) : Keeps b (s.msgWork m ch ok).2 := by
  unfold State.msgWork
  split
  · exact h.msgVersion
  · exact h.msgLoad
  · exact h.msgRestart
  · exact h.msgPower
  · exact h.msgRecord
  · exact h.msgPrepare
  · exact h.msgPair
  · exact h.msgBillet
  · exact h.msgAttest
  · exact h.msgRelease
  · exact h.msgEth
  · exact h.msgDsp
  · exact h

theorem Keeps.shed {ch : Nat} (h : Keeps b s) : Keeps b (s.shed ch).2 := by
  unfold State.shed
  dsimp only
  refine .iteSnd h (.iteSnd (.iteSnd h.fresh h) ?_)
  exact Keeps.beside (.iteSnd h.fresh h)

theorem Keeps.msgServe {m : Master} {ch : Nat} {ok : Bool} (h : Keeps b s) : Keeps b (s.msgServe m ch ok).2 := by
  unfold State.msgServe
  refine .iteSnd h ?_
  refine .iteSnd h ?_
  split
  · rename_i e
    exact h.shed.of_eq e
  · rename_i e
    exact .iteSnd (h.shed.of_eq e) (.iteSnd (h.shed.of_eq e) (.iteSnd (h.shed.of_eq e) ((h.shed.of_eq e).msgWork)))

theorem Keeps.setReq {m : Master} {ch : Nat} {ok : Bool} (h : Keeps b s) : Keeps b (s.setReq m ch ok) := by
  unfold State.setReq
  refine .ite h.incSat ?_
  refine .ite h.emit ?_
  split
  · rename_i e
    exact (h.setF.msgServe.of_eq e).respond
  · rename_i e
    exact (h.setF.msgServe.of_eq e).respondMbx
  · rename_i e
    exact h.setF.msgServe.of_eq e

theorem Keeps.monitorServe {core : Nat} {args : List Word} (h : Keeps b s) : Keeps b (s.monitorServe core args) := by
  unfold State.monitorServe
  dsimp only
  split
  · exact h.respond
  · split <;> rename_i e
    · exact ((h.putMbx.msgServe.of_eq e).mbxOf h).respond
    · exact (h.putMbx.msgServe.of_eq e).mbxOf h
    · exact (h.putMbx.msgServe.of_eq e).mbxOf h

theorem Keeps.mbxRow {m : Master} {ch msg : Nat} {ok : Bool} (h : Keeps b s) : Keeps b (s.mbxRow m ch msg ok) :=
  .ite h (.ite h.emit (.ite h.regFlag h.setReq))

end

end Sys2Proof.Machine
end

section
/-! PROOFS. What the operations keep: register writes (Sys2Proof/Machine/RegWrite.lean). -/

namespace Sys2Proof.Machine

section
set_option Elab.async false
variable {b s : State} {φ : Prop}

theorem Keeps.sendKept (h : Keeps b s) : Keeps b s.sendKept :=
  h.beside.each (fun _ _ h₁ => h₁.mgrIrq)

theorem Keeps.abortSet {a : Nat} (h : Keeps b s) : Keeps b (s.abortSet a) := by
  unfold State.abortSet
  split
  · exact .ite h h.setF
  · rename_i e
    refine .ite h ?_
    split
    · exact h.endJob.dropTiles.abortArr
    · exact h.arrFault

theorem Keeps.drawKey {n : Nat} (h : Keeps b s) : Keeps b (s.drawKey n) :=
  h.fresh.beside

theorem Keeps.dropKey {n : Nat} (h : Keeps b s) : Keeps b (s.dropKey n) :=
  h.beside

theorem Keeps.iommuQueues {old new : Nat} (h : Keeps b s) : Keeps b (s.iommuQueues old new) :=
  .ite (.setR (.ite h.setR.setR h.setR)) (.ite h.setR.setR h.setR)

theorem Keeps.changeWays {p old new : Nat} (h : Keeps b s) : Keeps b (s.changeWays p old new) :=
  .updateOcc (.ite (h.each (fun _ _ h₁ => h₁.evict)) h)

theorem Keeps.startRetire (h : Keeps b s) : Keeps b s.startRetire :=
  .ite h.beside.addMove h.beside.setF.setF

theorem Keeps.claimWrite {k old new : Nat} (h : Keeps b s) : Keeps b (s.claimWrite k old new) :=
  .ite h.setF.modCan (.ite h.setF.modCan h)

theorem Keeps.bindWrite {old new : Nat} (h : Keeps b s) : Keeps b (s.bindWrite old new) :=
  .ite h.setF (.ite h.setF h)

theorem Keeps.flaskCmd {f w : Nat} (h : Keeps b s) : Keeps b (s.flaskCmd f w) :=
  .ite (.destroyFlask (.ite h.createFlask h)) (.ite h.createFlask h)

theorem Keeps.afterWrite {r : Reg} {i : Nat} {m : Master} {old new w : Nat} (h : Keeps b s) :
    Keeps b (s.afterWrite r i m old new w) := by
  unfold State.afterWrite
  split
  · exact .ite h.enableQueue (.ite h.disableQueue h)
  · exact .ite h.abortSet h
  · exact h.setR
  · exact .ite h.incWrap.showAtt (.ite h.showAtt h)
  · exact .ite h.beside h
  · exact h.flaskCmd
  · exact .ite h.setF h
  · exact .ite h.modPour h
  · exact .ite (.startRetire (.ite h.setF h)) (.ite h.setF h)
  · exact h.changeWays
  · exact .ite (.ite h.drawKey h) (.ite h.dropKey h)
  · exact .ite h.iommuQueues h
  · exact h.each (fun _ _ h₁ => h₁.instCmd)
  · exact h.bindWrite
  · exact .ite h.camEnable (.ite h.modCam h)
  · exact .ite h.modDisp h
  · exact h.setF.beside
  · exact h.beside
  · exact h.claimWrite
  · exact .ite h.readTunnels h
  · exact .ite h.beside h
  · exact .ite h.sendKept h
  · exact h.updateWarn
  · exact .ite h.setF.modPower h
  · exact h

theorem Keeps.refuseWrite {r : Reg} {i : Nat} {m : Master} {hf : Half} (h : Keeps b s) : Keeps b (s.refuseWrite r i m hf) :=
  h.regFlag

theorem Keeps.takeWrite {r : Reg} {i : Nat} {m : Master} {hf : Half} {old new w : Nat} (h : Keeps b s) :
    Keeps b (s.takeWrite r i m hf old new w) :=
  .afterWrite (.ite h.setR.regFlag h.setR)

theorem Keeps.judgeWrite {r : Reg} {i : Nat} {m : Master} {hf : Half} {v : Nat} (h : Keeps b s) :
    Keeps b (s.judgeWrite r i m hf v) := by
  unfold State.judgeWrite
  dsimp only
  split
  · exact h.refuseWrite.tdiError
  · rename_i e
    split
    · exact .ite h.refuseWrite h.setR.afterWrite
    · exact .ite h.refuseWrite h.takeWrite

theorem Keeps.doorWrite {q : Nat} {hf : Half} {v : Nat} (h : Keeps b s) : Keeps b (s.doorWrite q hf v) :=
  .ite h h.doorbell

theorem Keeps.mbxWrite {m : Master} {ch : Nat} {hf : Half} {v : Nat} (h : Keeps b s) : Keeps b (s.mbxWrite m ch hf v) :=
  .ite h.judgeWrite.fresh.setReq h.judgeWrite

theorem Keeps.regWrite {r : Reg} {i : Nat} {m : Master} {hf : Half} {v : Nat} (h : Keeps b s) :
    Keeps b (s.regWrite r i m hf v) := by
  unfold State.regWrite
  refine .ite h ?_
  refine .ite h.emit ?_
  refine .ite h.regFlag ?_
  split
  · exact h.doorWrite
  · exact h.mbxWrite
  · exact h.judgeWrite

end

end Sys2Proof.Machine
end

section
/-! PROOFS. What the operations keep: commands by register (Sys2Proof/Machine/RegCmd.lean). -/

namespace Sys2Proof.Machine

section
set_option Elab.async false
variable {b s : State} {φ : Prop}

theorem Keeps.locWrite {l : Loc} {o : Nat} {door : Bool} {m : Master} {hf : Half} {v : Nat} (h : Keeps b s) :
    Keeps b (s.locWrite l o door m hf v) := by
  unfold State.locWrite
  refine .ite h.emit (.ite h.regFlag ?_)
  cases l with
  | reg r i => exact h.regWrite
  | mbx ch off => exact h.putMbx
  | unassigned => exact h.regFlag
  | fault => exact h.emit
  | view | cap | instCap | zero => exact h

theorem Keeps.readLatch {r : Reg} {m : Master} (h : Keeps b s) : Keeps b (s.readLatch r m) :=
  .ite h.beside h

theorem Keeps.readReg {r : Reg} {i : Nat} {m : Master} {hf : Half} (h : Keeps b s) : Keeps b (s.readReg r i m hf) :=
  .ite h.emit (.ite h.readLatch.emit h.regFlag.emit)

theorem Keeps.locRead {l : Loc} {o : Nat} {door : Bool} {m : Master} {hf : Half} (h : Keeps b s) :
    Keeps b (s.locRead l o door m hf) := by
  unfold State.locRead
  refine .ite h.emit ?_
  refine .ite h.regFlag.emit ?_
  split
  · exact h.readReg
  · exact h.emit
  · exact h.emit

theorem Keeps.busWrite {m : Master} {addr : Nat} {hf : Half} {v : Nat} (h : Keeps b s) :
    Keeps b (s.busWrite m addr hf v) := by
  unfold State.busWrite
  refine .ite h ?_
  refine .ite h.emit ?_
  split
  · exact h.locWrite
  · exact h.locWrite
  · exact h.emit

theorem Keeps.busRead {m : Master} {addr : Nat} {hf : Half} (h : Keeps b s) : Keeps b (s.busRead m addr hf) := by
  unfold State.busRead
  refine .ite h ?_
  refine .ite h.emit ?_
  split
  · exact h.locRead
  · exact h.locRead
  · exact h.emit

theorem Keeps.otherRead {m : Master} {pa n : Nat} (h : Keeps b s) : Keeps b (s.otherRead m pa n) := by
  unfold State.otherRead
  split
  · exact .ite h.freshBytes.emit h.emit
  · exact h.bridge
  · rename_i e
    split
    · exact h.busRead
    · exact h.emit
  · rename_i e
    split
    · exact h.busRead
    · exact h.emit
  · exact h.emit

theorem Keeps.otherWrite {m : Master} {pa : Nat} {data : List Byte} (h : Keeps b s) : Keeps b (s.otherWrite m pa data) := by
  unfold State.otherWrite
  split
  · exact h.bridge
  · rename_i e
    split
    · exact h.busWrite
    · exact h.emit
  · rename_i e
    split
    · exact h.busWrite
    · exact h.emit
  · exact h.emit

theorem Keeps.reachOf {r : Option Nat × State} (h : Keeps b r.2) : Keeps b (reachOf r).2 := by
  unfold Machine.reachOf
  split <;> exact h

theorem Keeps.reach {m : Master} {addr : Nat} {write : Bool} (h : Keeps b s) : Keeps b (s.reach m addr write).2 := by
  unfold State.reach
  split
  · exact h.xlate.reachOf
  · rename_i e
    split
    · exact .iteSnd h h.xlate.reachOf
    · exact h
  · rename_i e
    split
    · exact h.xlate.reachOf
    · exact h
  · rename_i e
    split
    · exact .iteSnd h.gpa.reachOf h
    · exact h
  · exact h

theorem Keeps.foldStore {m : Master} {addr : Nat} {data : List Byte} (h : Keeps b s) : Keeps b (s.foldStore m addr data) := by
  unfold State.foldStore
  split
  · exact h.modVec
  · exact h

theorem Keeps.memRead {m : Master} {addr bytes : Nat} {errs : BurstErrs} (h : Keeps b s) :
    Keeps b (memRead m addr bytes errs s) := by
  unfold Machine.memRead
  refine .ite h ?_
  split
  · rename_i e
    exact (h.reach.of_eq e).emit
  · rename_i e
    exact ((h.reach.of_eq e).storeBytes).emit
  · rename_i e
    split
    · exact (h.reach.of_eq e).dramRead
    · exact (h.reach.of_eq e).otherRead

theorem Keeps.physStore {m : Master} {pa : Nat} {data : List Byte} {errs : BurstErrs} (h : Keeps b s) :
    Keeps b (s.physStore m pa data errs) := by
  unfold State.physStore
  split
  · exact h.dramWrite
  · exact h.otherWrite

theorem Keeps.memWrite {m : Master} {addr : Nat} {data : List Byte} {errs : BurstErrs} (h : Keeps b s) :
    Keeps b (memWrite m addr data errs s) := by
  unfold Machine.memWrite
  refine .ite h ?_
  split
  · exact h.foldStore.modVec.emit
  · rename_i e
    split
    · rename_i e₁
      exact (h.reach.of_eq e₁).emit
    · rename_i e₁
      exact (((h.reach.of_eq e₁).foldStore).modVec).emit
    · rename_i e₁
      exact ((h.reach.of_eq e₁).foldStore).physStore

end

end Sys2Proof.Machine
end

section
/-! PROOFS. Every command completes: a step is total, works off the queue and keeps the forms. -/

namespace Sys2Proof.Machine

/-- The meaning of a command on `s` completes: it goes on to a state whose queue, record, counter and canonical forms are
kept, and where the unit is not one of the device's it changes nothing. -/
def Completes (ok : Bool) (s : State) (r : Res) : Prop := ∃ t, r = .next t ∧ Keeps s t ∧ (ok = false → t = s)

theorem Completes.unit {ok : Bool} {s t : State} (h : Keeps s t) : Completes ok s (unit s ok t) := by
  cases ok with
  | false => exact ⟨s, rfl, .refl s, fun _ => rfl⟩
  | true => exact ⟨t, rfl, h, fun e => nomatch e⟩

theorem Completes.next {s t : State} (h : Keeps s t) : Completes true s (.next t) := ⟨t, rfl, h, fun e => nomatch e⟩

/-- Every command completes on every state. -/
theorem exec_completes (c : Instr) (s : State) : Completes c.unitsOk s (exec c s) := by
  have h : Keeps s s := .refl s
  cases c with
  | clockLossDetected _ => exact .next (.ite h h.modPower.clockEnds.clockWaits.safety)
  | sclkLossDetected => exact .next (h.modPower.safety)
  | voltageFault _ _ => exact .unit (h.modRec.safety)
  | temperatureEvent _ _ => exact .unit (.ite (.safety (.ite h.safety h)) (.ite h.safety h))
  | thermalShutdown _ _ => exact .unit (.ite h h.setF.socPower.toReset)
  | timeNowNsRead _ => exact .next (.ite h.emit h.beside.emit)
  | trajectoryRelease =>
    refine .next ?_
    split
    · exact h
    · exact .ite h.releaseTraj h
  | activeCutoff =>
    refine .next ?_
    split
    · exact h
    · exact .ite h.dropForward.modTraj h
  | shadowCutoff =>
    refine .next ?_
    split
    · exact h
    · exact .ite h.modTraj.sendBackup h
  | doorbellWrite _ _ _ _ => exact .unit (h.regWrite)
  | queueEnable _ _ _ => exact .unit (h.regWrite)
  | queueDisable _ _ _ => exact .unit (h.regWrite)
  | scannerRound _ => exact .next (h.scan)
  | jobFetch _ => exact .unit (h.fetchJob)
  | jobStart _ => exact .next (h.startJob)
  | jobExpire _ => exact .next (h.expireJob)
  | jobComplete _ => exact .next (h.completeJob)
  | jobFault _ _ =>
    refine .next ?_
    split
    · exact .ite h.closeRunOf.faultJob h
    · exact h
  | nopJob _ => exact .next (h.runningJob (fun _ => h.endJob))
  | fenceJob _ => exact .next (h.runningJob (fun _ => h.endJob))
  | tensor _ => exact .next (h.runningJob (fun _ => h.placeTiles))
  | tileDispatch _ => exact .unit (h.dispatchTile)
  | programLoad _ => exact .unit (h.loadProgram)
  | nextValidSet _ _ _ => exact .unit (h.regWrite)
  | nop _ => exact .unit (h.issue (fun _ _ h₁ => h₁.nextCmd))
  | ldw _ => exact .unit (h.issue (fun _ _ h₁ => h₁.issueLdw))
  | swapw _ => exact .unit (h.issue (fun _ _ h₁ => h₁.swapwGo))
  | lda _ => exact .unit (h.issue (fun _ _ h₁ => h₁.issueLda))
  | shift _ _ => exact .unit (h.issue (fun _ _ h₁ => h₁.countStall.issueShift))
  | acc _ => exact .unit (h.issue (fun _ _ h₁ => .ite h₁.illegal h₁.modArr.nextCmd))
  | drain _ => exact .unit (h.issue (fun _ _ h₁ => h₁.issueDrain))
  | post _ => exact .unit (h.issue (fun _ _ h₁ => h₁.issuePost))
  | xfer _ => exact .unit (h.issue (fun _ _ h₁ => h₁.issueXfer))
  | waitq _ => exact .unit (h.issue (fun _ _ h₁ => h₁.waitqGo))
  | sig _ => exact .unit (h.issue (fun _ _ h₁ => h₁.modArr.nextCmd))
  | sync _ => exact .unit (h.issue (fun _ _ h₁ => h₁.syncGo))
  | loop _ => exact .unit (h.issue (fun _ _ h₁ => h₁.loopGo))
  | fence _ => exact .unit (h.issue (fun _ _ h₁ => .ite h₁.nextCmd h₁))
  | endProg _ _ _ => exact .unit (h.issue (fun _ _ h₁ => .ite h₁.endRun h₁))
  | asyncComplete _ _ _ => exact .unit (h.asyncDone)
  | tileWatchdog _ => exact .unit (h.watchdogGo)
  | abort _ _ _ => exact .unit (h.regWrite)
  | abortComplete _ => exact .unit (h.abortDone)
  | arrSatcfgWrite _ _ _ => exact .unit (h.regWrite)
  | convTap _ => exact .next (h.runningJob (fun _ => .ite h.placeTiles h))
  | convGrouped _ => exact .next (h.runningJob (fun _ => h.dealConv))
  | maxPool _ => exact .next (h.runningJob (fun _ => h.dealConv))
  | averagePool _ => exact .next (h.runningJob (fun _ => h.dealConv))
  | expand _ => exact .next (h.runningJob (fun _ => h.dealConv))
  | seqAdmit _ => exact .next (h.runningJob (fun _ => .ite h (.ite h.endJob (.ite h.admitLocal h.admitSpread))))
  | seqRestore _ => exact .next (h.runningJob (fun _ => .ite h (.ite h.endJob h.admitRestore)))
  | seqFork _ => exact .next (h.runningJob (fun _ => .ite h (.ite h.endJob h.admitFork)))
  | seqRelease _ =>
    refine .next ?_
    refine .runningJob h ?_
    intro _
    dsimp only
    split
    · rename_i e
      refine .ite h ?_
      split
      · rename_i e₁
        exact (h.mappedPages.of_eq e₁).attErr
      · rename_i e₁
        exact (((h.mappedPages.of_eq e₁).tellPeers).releaseSlot).endJob
    · exact .ite h.releaseSpilled h.endJob
  | attnStep _ => exact .next (h.runningJob (fun _ => .ite h.attnJob h))
  | attnPrefill _ => exact .next (h.runningJob (fun _ => .ite h.attnJob h))
  | sweep _ _ _ => exact .unit (h.regWrite)
  | sweepDone _ => exact .unit (h.sweepEnd)
  | poolEnable _ _ _ => exact .unit (h.regWrite)
  | poolDisable _ _ _ => exact .unit (h.regWrite)
  | isolationDeadline _ => exact .unit (h.isoDeadlineGo)
  | overrun _ => exact .unit (h.overrunGo)
  | isolationEnd _ => exact .unit (h.isolationEndGo)
  | inputLogCopyDone _ => exact .unit (h.logCopyGo)
  | rtTaskEnd _ _ => exact .unit (h.rtEndGo)
  | testBarDue _ => exact .unit (h.testBarDueGo)
  | testBarDone _ _ => exact .unit (h.testBarDoneGo)
  | tbImageVerified _ => exact .next (h.tbVerifiedGo)
  | tbImageRecheck _ => exact .next (h.tbRecheckGo)
  | counterFold _ => exact .next (.ite h.fold.foldUfs h)
  | sensorSample _ _ => exact .unit (.ite h h.modRec)
  | checkpoint => exact .next (.ite h.checkpoint h)
  | flresWrite _ _ _ => exact .unit (h.regWrite)
  | flaskCreate _ _ _ => exact .unit (h.regWrite)
  | flaskDestroy _ _ _ => exact .unit (h.regWrite)
  | shakeoutDone _ _ => exact .unit (.ite h.poolShakeout h.flaskShakeout)
  | firmwareClearDone _ _ => exact .unit (.ite h (.ite h.poolClear h.flaskClear))
  | swap _ _ => exact .next (h.regWrite)
  | swapValidated => exact .next (h.swapValidatedGo)
  | frameBoundary => exact .next (h.frameBoundaryGo)
  | spareCopyDone _ => exact .unit (h.spareCopyGo)
  | pourEntryStart _ => exact .unit (h.entryStartGo)
  | pourEntryEnd _ => exact .unit (h.entryEndGo)
  | pourLate _ => exact .unit (h.pourLateGo)
  | vectorPreempt _ => exact .unit (h.preemptGo)
  | vectorResume _ _ _ => exact .unit (h.resumeGo)
  | gateRefill =>
    have h₁ : Keeps s ((s.each (List.range 9) State.refillGate).each (List.range 14) State.loadRt) :=
      (h.each fun _ _ h₁ => h₁.refillGate).each fun _ _ h₁ => h₁.loadRt
    exact .next h₁.beside
  | gateRequest _ _ => exact .unit (.ite h.gateReq h.rtRequest)
  | rtBoundExceeded _ _ => exact .unit (.ite h.setF.incSat.mgrIrq h)
  | guaranteeWindowEnd _ => exact .unit (h.windowEndGo)
  | memoryInit _ _ => exact .next (h.regWrite)
  | memoryReady => exact .next (.ite h.setF.setF h)
  | memoryRead _ _ _ _ => exact .next (h.memRead)
  | memoryWrite _ _ _ => exact .next (h.memWrite)
  | partialWrite _ _ _ _ => exact .next (h.memWrite)
  | patrolScrub _ _ =>
    refine .next ?_
    refine .ite h ?_
    split
    · exact h
    · exact h.found.each (fun _ _ h₁ => .ite h₁ h₁.dramLine)
  | writeBack _ _ _ => exact .unit (.ite h h.takeWriteBack)
  | snoopResponse _ _ _ _ => exact .unit (h.takeSnoop)
  | writeBackAck _ _ => exact .unit (h.beside)
  | cacheWaysWrite _ _ _ => exact .unit (h.regWrite)
  | regionEnable _ _ _ => exact .unit (h.regWrite)
  | regionDisable _ _ _ => exact .unit (h.regWrite)
  | retire _ _ => exact .next (h.regWrite)
  | retireDone => exact .next (.ite h.setF.setF h)
  | ladlePieceDone _ => exact .next (h.dealLadles.pieceDone)
  | xferCopy _ _ => exact .next (h.dealLadles.xferPieceGo (fun _ _ _ h₁ => h₁.xferUnit))
  | xferFill _ _ => exact .next (h.dealLadles.xferPieceGo (fun _ _ _ h₁ => h₁.fillUnit))
  | pageWalk _ _ _ =>
    refine .unit ?_
    split
    · rename_i e
      exact (h.xlate.of_eq e).emit
    · rename_i e
      exact (h.xlate.of_eq e).emit
  | iotinvalVma _ _ _ => exact .next (h.cqTake (fun _ h₁ => h₁.beside))
  | iotinvalGvma _ _ => exact .next (h.cqTake (fun _ h₁ => h₁.beside))
  | iodirInvalDdt _ => exact .next (h.cqTake (fun _ h₁ => h₁.beside.each (fun _ _ h₂ => h₂.recheckTdi)))
  | iofenceC _ _ =>
    refine .next ?_
    refine .cqTake h ?_
    intro _ h₁
    split
    · exact h₁.physWrite
    · exact h₁
  | instanceCreate _ _ _ => exact .unit (h.regWrite)
  | quiesce _ _ _ => exact .unit (h.regWrite)
  | quiesceDone _ => exact .unit (.ite h (.ite (((h.each (fun _ _ h₁ => h₁.endJob)).setF).setF) (h.each
      (fun _ _ h₁ => h₁.endJob))))
  | resume _ _ _ => exact .unit (h.regWrite)
  | instanceReset _ _ _ => exact .unit (h.regWrite)
  | remove _ _ _ => exact .unit (h.regWrite)
  | removeDone _ => exact .unit (.ite h h.cleanWays.unbind.setF.setF.setF)
  | spillAll _ _ _ => exact .unit (h.regWrite)
  | lockInterfaceRequest _ _ => exact .unit (.ite h.lockRequest h)
  | getDeviceInterfaceReport _ _ => exact .unit (.ite h.tdiReport h)
  | monitorCall _ _ _ => exact .unit (.ite h.monitorServe h)
  | keyExchange _ => exact .next (.ite h.modTrust.emit h)
  | keyDeliver _ _ => exact .next (.ite h.keyDeliver h)
  | keyRevoke _ _ => exact .next (.ite h.keyRevoke h)
  | consentInstall _ _ _ _ _ _ _ _ => exact .next (.ite h.consentInstall h)
  | consentExpiry _ => exact .unit (.ite h.modFlask h)
  | debugAccess _ _ _ => exact .unit (h.emit)
  | getMeasurements _ nonce =>
    exact .next (.ite h (h.report (nonce := nonce)).emit)
  | getCertificate _ _ => exact .next (.ite h (.ite h.emit h.emit))
  | vexpV _ _ _ => exact .unit (h.vecSteps.vexpGo)
  | vlsemVv _ _ _ => exact .unit (h.vecSteps.vlsemGo)
  | vdwsVv _ _ _ => exact .unit (h.vecSteps.vdwsGo)
  | vdws0Vv _ _ _ => exact .unit (h.vecSteps.vdwsGo)
  | vector _ => exact .next (h.runningJob (fun _ => h.deal))
  | itemEnd _ _ _ _ _ => exact .unit (.itemEndGo h.vecSteps)
  | itemTimeout _ => exact .unit (h.timeoutGo)
  | cameraContextEnable _ _ _ => exact .unit (h.regWrite)
  | cameraContextDisable _ _ _ => exact .unit (h.regWrite)
  | frameStart _ => exact .unit (h.frameStartGo)
  | cameraPacket _ _ => exact .unit (h.packetGo)
  | ingestRecord _ => exact .unit (h.ingestRecord)
  | render _ => exact .next (h.runningJob (fun _ => h.startRender))
  | planePost _ _ _ _ => exact .unit (h.regWrite)
  | latch _ => exact .unit (h.latchGo)
  | scanoutUnderrun _ => exact .unit (h.incSat.emit)
  | tellTaleCompare _ _ => exact .unit (h.ttCompareGo)
  | escalationLevel1 _ => exact .unit (h.escalate)
  | escalationLevel2 _ => exact .unit (h.escalate)
  | update _ => exact .next (h.runnerJob (fun _ => h.updateGo.close))
  | plan _ _ => exact .next (h.runnerJob (fun _ => (h.planGo (fun _ _ _ _ h₁ => h₁.planWork)).close))
  | repair _ _ => exact .next (h.runnerJob (fun _ => (h.planGo (fun _ _ _ _ h₁ => h₁.repairWork)).close))
  | publishAt _ => exact .next (h.runnerJob (fun _ => .ite ((h.planHead.rsThen (fun _ _ h₁ => h₁.lateRule)).close) h))
  | timeIncWrite _ _ => exact .next (h.regWrite)
  | timeStepWrite _ _ => exact .next (h.regWrite)
  | holdover => exact .next (.ite h.setF.setF.incSat h)
  | compareArm _ _ _ => exact .unit (h.regWrite)
  | compareFire _ => exact .unit (.ite h.fireCmp h)
  | ethRingDoorbell _ _ _ => exact .unit (h.regWrite)
  | frameTransmit _ =>
    refine .unit ?_
    refine .ite h ?_
    split
    · rename_i e
      exact (h.headDesc.of_eq e).transmit
    · rename_i e
      exact h.headDesc.of_eq e
  | launchLate can _ =>
    cases can with
    | none =>
      refine .unit (.ite h ?_)
      split
      · rename_i e
        have h₁ := h.headDesc.of_eq e
        exact .ite h₁.txEnd h₁
      · rename_i e
        exact h.headDesc.of_eq e
    | some _ =>
      refine .unit (.ite h ?_)
      split
      · rename_i e
        have h₁ := h.headDesc.of_eq e
        exact .ite h₁.canWb h₁
      · rename_i e
        exact h.headDesc.of_eq e
  | frameReceive _ => exact .unit (h.receive)
  | gateListEvent sel _ =>
    cases sel with
    | zero => exact .unit (.ite h.portGate h.portGate.drainPort)
    | succ _ => exact .unit (.ite h.streamGate h)
  | canArbitration c =>
    refine .unit (.ite h ?_)
    have h₁ := h.canOffers (c := c)
    dsimp only
    split
    · exact h₁.sendOffer
    · exact h₁
  | canFrameReceive _ _ => exact .unit (.ite h h.canReceive)
  | busOff _ => exact .unit (.ite h (h.setF.incSat.each (fun _ _ h₁ => .ite h₁.flushQueue h₁)))
  | busOffRecovery _ => exact .unit (.ite h.setF.setF.setF h)
  | addressClaim _ _ _ _ => exact .unit (h.regWrite)
  | claimHoldExpiry _ _ => exact .unit (.ite h.setF h)
  | cannotClaim _ _ => exact .unit (.ite h.modCan h)
  | tunnelEnable _ _ => exact .next (h.regWrite)
  | tunnelFlush _ => exact .unit (.ite h.sendPdu h)
  | avtpduReceive _ _ _ =>
    refine .next ?_
    refine .ite h ?_
    split
    · exact h.inPdu
    · exact h
  | bridgeRequest _ _ _ _ => exact .next (h.bridge)
  | cplTimeout _ =>
    refine .next ?_
    split
    · exact h
    · exact .ite h h.dropReq.emit
  | postedWriteError _ => exact .unit (h.postedError)
  | linkTraining _ _ _ => exact .unit (.ite h (.train (.ite h.portDown h)))
  | portDown _ => exact .unit (.ite h.portDown.partnerLost h)
  | cellReceive _ _ _ => exact .unit (.ite h (.ite h.badCell (.ite h h.modWsk.takeHeader.accept)))
  | cellTransmit _ _ _ =>
    refine .unit ?_
    refine .ite h.resend ?_
    refine .ite h ?_
    split
    · exact h.sendCell
    · exact h
  | timeMessageSend => exact .next (.ite h (h.each (fun _ _ h₁ => h₁.wskLocal)))
  | linkDelayMeasure _ _ _ => exact .unit (.ite h.setF h)
  | rendezvous _ _ =>
    refine .unit ?_
    refine .ite h ?_
    refine .ite h.setF.emit ?_
    refine .ite ?_ h
    split
    · exact h.emit.setF.alignDoze
    · exact h.emit.missDoze
  | wskWakePulse _ _ _ => exact .unit (.ite (.wake (.ite h.train.modWsk.alignDoze h)) (.ite h.train.modWsk.alignDoze h))
  | powerUp => exact .next (.ite h.toReset.modPower.socPower h)
  | resetAssert => exact .next (.ite h h.toReset)
  | boot _ _ _ => exact .next (.ite h (.ite h.rise.bootSlot (.ite h.rise.setF.setF.bootSlot h.rise.setF.bootStop)))
  | brownOut _ => exact .unit (.ite h (.ite h.toReset.modPower (.ite h.toReset.setF.modPower h)))
  | powerOff => exact .next (h.wipe.modPower.holdSafe.socPower)
  | powerFailWarning => exact .next (.ite h (.ite h.setF.modPower (.ite h.setF.pfwServe h.setF)))
  | wake w =>
    cases w with
    | can _ | eth _ | weska _ => exact .unit (.ite h.wake h)
    | wakeIn => exact .next (.ite h.wake h)
  | wakeTimer => exact .next (.ite h.wake h)
  | standbySecond => exact .next (.ite h.incSat h)
  | getVersion _ _ => exact .unit (h.mbxRow)
  | fwLoad _ _ _ => exact .unit (h.mbxRow)
  | fwRestart _ _ => exact .unit (h.mbxRow)
  | fwRestartDone _ _ => exact .unit (.ite h.startFw h)
  | powerMode _ _ => exact .unit (h.mbxRow)
  | fieldRecordRead _ _ => exact .unit (h.mbxRow)
  | billetPrepare _ _ => exact .unit (h.mbxRow)
  | billetPair _ _ _ => exact .unit (h.mbxRow)
  | billetStatus _ _ => exact .unit (h.mbxRow)
  | attest _ _ => exact .unit (h.mbxRow)
  | keyRelease _ _ => exact .unit (h.mbxRow)
  | ethPortCfg _ _ => exact .unit (h.mbxRow)
  | dspLinkCfg _ _ => exact .unit (h.mbxRow)
  | kick _ _ => exact .next (h.regWrite)
  | cupolaWatchdog => exact .next (.ite h h.incSat.recCount.logEvent.stopFw)
  | mgrLockSet _ _ => exact .next (h.regWrite)
  | irqEnable _ _ => exact .next (h.regWrite)
  | registerWrite _ _ _ _ => exact .next (h.busWrite)
  | bypass => exact .next (h.jtag.emit)
  | samplePreload _ _ => exact .next h.beside.jtag.emit
  | extest => exact .next (h.jtag)
  | idcode => exact .next (h.jtag.emit)
  | clamp => exact .next (h.jtag.emit)
  | highz => exact .next (h.jtag.emit)
  | tsclkEdge => exact .next (.ite h h.edge)
  | instanceResetDone _ => exact .unit (.ite h.setF.setF h)
  | powerFailWarningEnd => exact .next (h.setF)
  | billetChange _ _ _ _ => exact .next (.ite (.setF (.ite (.ite h.modPower (Keeps.beside h.modPower)) h.modPower))
      (.ite (.ite h.modPower (Keeps.beside h.modPower)) h.modPower))
  | unknownMsgId _ _ => exact .unit (.ite h.mbxRow h)
  | deniedRead _ _ _ => exact .next (h.busRead)
  | startInterfaceRequest _ _ => exact .unit (.ite h.startRequest h)
  | ideKm _ _ _ => exact .unit (.ite h (.ite h.modTrust.emit h.emit))
  | linkRetrain _ => exact .unit (h.modRec)

theorem step_completes (s : State) : ∃ t, step s = .next t ∧ t.pending = s.pending.drop 1
    ∧ s.outbox <:+ t.outbox ∧ s.freeCtr ≤ t.freeCtr ∧ (s.tidy = true → t.tidy = true) := by
  unfold step
  split
  · rename_i e
    exact ⟨s, rfl, by rw [e]; rfl, List.suffix_refl _, Nat.le_refl _, id⟩
  · rename_i c rest e
    obtain ⟨t, run, keeps, -⟩ := exec_completes c { s with pending := rest }
    exact ⟨t, run, by rw [keeps.queue, e]; rfl, keeps.record, keeps.free, keeps.forms⟩

/-- A step that goes on is the first of a run. -/
theorem run_of_step (M : Host.Core) (k : Nat) (s t : M.State) (h : M.step s = .next t) : M.run (k + 1) s = M.run k t := by
  rw [Host.Core.run, h]

/-- Settles O2: every meaning of a command goes on to a next state, and a step takes one command off the queue. -/
theorem commandsCompleteAndQueuesAreWorkedOff : Obligations.CommandsCompleteAndQueuesAreWorkedOff := by
  unfold Obligations.CommandsCompleteAndQueuesAreWorkedOff
  refine ⟨fun c s => ?_, fun k => ?_⟩
  · obtain ⟨t, run, -, absent⟩ := exec_completes c s
    exact ⟨⟨t, run⟩, fun e => by rw [run, absent e]⟩
  · induction k with
    | zero => exact fun s => ⟨s, rfl, rfl⟩
    | succ k ih =>
      intro s
      obtain ⟨t, first, queue, -⟩ := step_completes s
      obtain ⟨u, others, queue'⟩ := ih t
      refine ⟨u, ?_, ?_⟩
      · exact (run_of_step core k s t first).trans others
      · rw [queue', queue, List.drop_drop, Nat.add_comm]

/-- Settles O3: every operation a command is made of keeps the canonical forms, the record and the counter. -/
theorem everyStepKeepsTheFormsAndWhatLeft : Obligations.EveryStepKeepsTheFormsAndWhatLeft := by
  unfold Obligations.EveryStepKeepsTheFormsAndWhatLeft
  refine ⟨fun s t tidy run => ?_, fun s t run => ?_⟩ <;> obtain ⟨u, run', -, record, free, forms⟩ := step_completes s <;>
    obtain rfl : u = t := by simpa [run'] using run
  · exact forms tidy
  · exact ⟨record, free⟩

end Sys2Proof.Machine
end

section
/-! PROOFS. Frames, change by change: what a state leaves unchanged after one more change. -/

set_option Elab.async false

namespace Sys2Proof.Machine

section
variable {ps : List Part} {q : Reg → Nat → Prop} {b s : State}

theorem Leaves.setR {g : Reg} {i v : Nat} (h : Leaves ps q b s) (hq : q g i) : Leaves ps q b (s.setR g i v) :=
  h.trans ((leaves_setR s g i v).mono (List.nil_subset _) fun _ _ e => e.1 ▸ e.2 ▸ hq)

theorem Leaves.setF {x : Fld} {i v : Nat} (h : Leaves ps q b s) (hq : q x.reg i) : Leaves ps q b (s.setF x i v) :=
  h.setR hq

theorem Leaves.incSat {x : Fld} {i n : Nat} (h : Leaves ps q b s) (hq : q x.reg i) : Leaves ps q b (s.incSat x i n) :=
  h.setR hq

theorem Leaves.incWrap {x : Fld} {i n : Nat} (h : Leaves ps q b s) (hq : q x.reg i) : Leaves ps q b (s.incWrap x i n) :=
  h.setR hq

/-- A change beside the register file of parts that are listed. -/
theorem Leaves.parts {t : State} (h : Leaves ps q b s)
    (hp : ∀ p, p ∉ ps → p.same s t := by intro p hp; cases p <;> first | rfl | simp at hp)
    (hr : t.regs = s.regs := by rfl) : Leaves ps q b t :=
  h.trans ⟨hp, fun r i _ => by unfold State.r; rw [hr]⟩

/-- A change of the state's record, beside the register file and the queue, of parts that are listed. -/
theorem Leaves.beside {o : List Out} {c : ClockSt} {m : MemSt} {w : WorkSt} {u : UnitSt} {d : DtuSt} {x : PixSt} {n : NetSt}
    {y : SysSt} {k : Nat} (h : Leaves ps q b s)
    (hp : ∀ p, p ∉ ps → p.same s { s with
        outbox := o, clock := c, mem := m, work := w, units := u, dtu := d, pix := x, net := n, sys := y, freeCtr := k } := by
      intro p hp; cases p <;> first | rfl | simp at hp) :
    Leaves ps q b { s with
      outbox := o, clock := c, mem := m, work := w, units := u, dtu := d, pix := x, net := n, sys := y, freeCtr := k } :=
  h.parts hp

theorem Leaves.emit {o : Out} (h : Leaves ps q b s) (ho : .outbox ∈ ps := by simp) : Leaves ps q b (s.emit o) :=
  h.trans ((leaves_emit s o).mono (by simpa using ho) fun _ _ no => no.elim)

theorem Leaves.mgrIrq {k u : Nat} (h : Leaves ps q b s) (ho : .outbox ∈ ps := by simp) (hk : .keptIrqs ∈ ps := by simp) :
    Leaves ps q b (s.mgrIrq k u) :=
  h.trans ((leaves_mgrIrq s k u).mono (by simp [ho, hk]) fun _ _ no => no.elim)

theorem Leaves.ite {c : Prop} [Decidable c] {t : State} (h : Leaves ps q b s) (g : Leaves ps q b t) :
    Leaves ps q b (if c then s else t) := by
  split
  · exact h
  · exact g

theorem Leaves.over {α : Type} {xs : List α} {g : State → α → State} (h : Leaves ps q b s)
    (hg : ∀ x t, Leaves ps q b t → Leaves ps q b (g t x)) : Leaves ps q b (s.each xs g) := by
  induction xs generalizing s with
  | nil => exact h
  | cons x xs ih => exact ih (hg x s h)

/-- What an operation leaves, where it changes no more than is listed. -/
theorem Leaves.into {ps' : List Part} {q' : Reg → Nat → Prop} {t : State} (h : Leaves ps q b s) (g : Leaves ps' q' s t)
    (hp : ps' ⊆ ps := by simp) (hq : ∀ r i, q' r i → q r i) : Leaves ps q b t :=
  h.trans (g.mono hp hq)

end

end Sys2Proof.Machine
end

section
/-! PROOFS. The step, and the state after reset. -/

set_option Elab.async false

namespace Sys2Proof.Machine

/-- Settles O1: `step` matches on the queue. -/
theorem stepRunsTheFrontCommandOrIdles : Obligations.StepRunsTheFrontCommandOrIdles :=
  ⟨fun _ _ _ => rfl, fun s empty => by rw [step, empty]⟩

/-- After reset no register is listed, so each holds its Reset value. -/
theorem State.reset_r (r : Reg) (i : Nat) : State.reset.r r i = (r.reset i).toNat := rfl

/-- Settles O4: the reset state is a concrete one, with an empty register file. -/
theorem resetIsTidyWithTheCounterAtZero : Obligations.ResetIsTidyWithTheCounterAtZero := by
  refine ⟨rfl, rfl, rfl, rfl, State.reset_r, rfl, ?_⟩
  decide

end Sys2Proof.Machine
end

section
/-! PROOFS. Register accesses of chapter 16: what a taken write stores (R342, R344), and what a denied or refused access
leaves (R346, R347, R354). -/

set_option Elab.async false

namespace Sys2Proof.Machine

/-! ## A flagged access (R347) -/

/-- Of the state's parts a flagged access changes the interrupts of the manager alone. -/
theorem leaves_regFlag (s : State) (x : Fld) (m : Master) (o : Nat) (read door : Bool) (hx : x.reg = .sysRegerr) :
    Leaves [.outbox, .keptIrqs] (oneReg .sysRegerr 0) s (s.regFlag x m o read door) := by
  have set : ∀ (t : State) (y : Fld) (v : Nat), y.reg = .sysRegerr →
      Leaves [.outbox, .keptIrqs] (oneReg .sysRegerr 0) t (t.setF y 0 v) := fun t y v hy =>
    (leaves_setF t y 0 v).mono (by simp) (by simp [oneReg, hy])
  have irq : ∀ t : State, Leaves [.outbox, .keptIrqs] (oneReg .sysRegerr 0) t (t.mgrIrq 2 0) := fun t =>
    (leaves_mgrIrq t 2 0).mono (by simp) fun _ _ no => no.elim
  have raised : Leaves [.outbox, .keptIrqs] (oneReg .sysRegerr 0) s ((s.incSat SYS_REGERR.COUNT 0 1).setF x 0 1) :=
    (set _ _ _ rfl).trans (set _ _ _ hx)
  unfold State.regFlag
  dsimp only
  split
  · exact (((((raised.trans (set _ _ _ rfl)).trans (set _ _ _ rfl)).trans (set _ _ _ rfl)).trans (set _ _ _ rfl)).trans
      (set _ _ _ rfl)).trans (irq _)
  · exact raised

/-- The flag and the count of a flagged access. -/
theorem State.regFlag_raised (s : State) (x : Fld) (m : Master) (o : Nat) (read door : Bool)
    (hx : x = SYS_REGERR.DENIED ∨ x = SYS_REGERR.REFUSED) :
    (s.regFlag x m o read door).f x 0 = 1
      ∧ (s.regFlag x m o read door).f SYS_REGERR.COUNT 0 = min (s.f SYS_REGERR.COUNT 0 + 1) 0xFFFF := by
  have count : min (s.f SYS_REGERR.COUNT 0 + 1) SYS_REGERR.COUNT.top % 2 ^ 16 = min (s.f SYS_REGERR.COUNT 0 + 1) 0xFFFF :=
    Nat.mod_eq_of_lt (by simp [SYS_REGERR.COUNT, Fld.top])
  unfold State.regFlag
  simp only [State.incSat_eq]
  rcases hx with rfl | rfl <;> split <;> constructor <;>
    simp (disch := decide) only [State.mgrIrq_f, State.setF_f_apart, State.setF_f_same]
  all_goals first | rfl | exact count

/-- The first flagged access captures itself. -/
theorem State.regFlag_first (s : State) (x : Fld) (m : Master) (o : Nat) (read door : Bool)
    (hf : bits (s.r .sysRegerr 0) 63 61 = 0) :
    (s.regFlag x m o read door).f SYS_REGERR.OFFSET 0 = o % 2 ^ 28
      ∧ (s.regFlag x m o read door).f SYS_REGERR.PART 0 = s.partOf m % 16
      ∧ (s.regFlag x m o read door).fb SYS_REGERR.READ 0 = read := by
  unfold State.regFlag
  simp only [hf, decide_true, if_true]
  refine ⟨?_, ?_, ?_⟩
  · simp (disch := decide) only [State.mgrIrq_f, State.setF_f_apart, State.setF_f_same]
    rfl
  · simp (disch := decide) only [State.mgrIrq_f, State.setF_f_apart, State.setF_f_same]
    rfl
  · unfold State.fb
    simp (disch := decide) only [State.mgrIrq_f, State.setF_f_apart, State.setF_f_same]
    cases read <;> rfl

/-! ## What a taken write stores (R342, R344) -/

/-- A write of a map that starts nothing goes no further than its register. -/
theorem State.afterWrite_of_writesOnly (s : State) (r : Reg) (i : Nat) (m : Master) (old new w : Nat)
    (hr : writesOnly r i = true) : s.afterWrite r i m old new w = s := by
  cases r
  case dtuIommu =>
    have h9 : i ≠ 9 := by
      rintro rfl
      exact absurd hr (by decide)
    simp [State.afterWrite, h9]
  all_goals first | rfl | exact absurd hr (by simp [writesOnly])

/-- The map of SYS_REGERR has no field that a lock holds. -/
theorem State.hitsLock_regerr (s : State) (i : Nat) (h : Half) : s.hitsLock .sysRegerr i h = false := by
  simp [State.hitsLock, Reg.fieldsAt, Reg.fields]

/-- A taken write of a map that starts nothing: the register holds the merged value, and of the others SYS_REGERR alone can
change, where the write touches a locked field. -/
theorem State.takeWrite_writesOnly (s : State) (r : Reg) (i : Nat) (m : Master) (h : Half) (old new w : Nat)
    (hr : writesOnly r i = true) (hn : new < 2 ^ 64) :
    (s.takeWrite r i m h old new w).r r i = new
      ∧ Leaves [.outbox, .keptIrqs] (fun q j => (q = r ∧ j = i) ∨ (q = .sysRegerr ∧ j = 0)) s
          (s.takeWrite r i m h old new w) := by
  have stored : (s.setR r i new).r r i = new := by rw [State.setR_r, if_pos ⟨rfl, rfl⟩, Nat.mod_eq_of_lt hn]
  have written : Leaves [.outbox, .keptIrqs] (fun q j => (q = r ∧ j = i) ∨ (q = .sysRegerr ∧ j = 0)) s (s.setR r i new) :=
    (leaves_setR s r i new).mono (by simp) fun _ _ => .inl
  unfold State.takeWrite
  simp only [State.afterWrite_of_writesOnly _ r i m old new w hr]
  split
  · rename_i locked
    have other : r ≠ .sysRegerr := by
      rintro rfl
      rw [State.hitsLock_regerr] at locked
      cases locked
    rw [State.regFlag_r _ _ _ _ _ _ _ _ rfl (.inl other)]
    exact ⟨stored, written.trans ((leaves_regFlag _ _ _ _ _ _ rfl).mono (List.Subset.refl _) fun _ _ => .inr)⟩
  · exact ⟨stored, written⟩

/-- Only the doorbells, SYS_LOCK and MBX_DB take another value than the merged one, and their writes start something. -/
theorem writesOnly_map (s : State) (r : Reg) (i : Nat) (h : Half) (v : Nat) (hr : writesOnly r i = true) :
    r ≠ .sprDb ∧ r ≠ .mbxDb ∧ s.newValue r i h v = s.merged r i h v := by
  cases r
  case sprDb | mbxDb | sysLock => exact absurd hr (by simp [writesOnly])
  all_goals exact ⟨by decide, by decide, rfl⟩

/-- Settles O5: the write stores the merged value (`takeWrite_writesOnly`), whose fields the laws of `merged` give. -/
theorem takenWritesFollowTheFieldTypes : Obligations.TakenWritesFollowTheFieldTypes := by
  intro s m addr o h v r i ha hp hloc hr acc
  obtain ⟨door, mailbox, merged⟩ := writesOnly_map s r i h v.toNat hr
  have run := exec_registerWrite_reg s m addr o h v r i acc.1 ha hp hloc
  rw [State.regWrite_accepted s r i m h v.toNat door mailbox acc, merged] at run
  obtain ⟨stored, leaves⟩ := State.takeWrite_writesOnly s r i m h (s.r r i) (s.merged r i h v.toNat) (halfOf h v.toNat) hr
    (s.merged_lt r i h v.toNat)
  refine ⟨_, run, ?_, ?_, ?_, ?_, leaves⟩ <;> rw [stored]
  · exact fun hi lo => s.merged_rw r i h v.toNat hi lo
  · exact fun hi lo => s.merged_ro r i h v.toNat hi lo
  · exact fun k => s.merged_w1s r i h v.toNat k
  · exact fun k => s.merged_w1c r i h v.toNat k

/-! ## Denied and refused accesses (R346, R354) -/

/-- R354: a denied read answers zero and is flagged. -/
theorem State.readReg_denied (s : State) (r : Reg) (i : Nat) (m : Master) (h : Half) (hl : s.live)
    (hp : s.permits r i m false (s.f DSP_CAMCTX0.PORT i) = false) :
    s.readReg r i m h
      = (s.regFlag SYS_REGERR.DENIED m (r.offset i + halfOff h) true r.inDoor).emit (.readData m 0) := by
  unfold State.readReg
  rw [State.live_open s r hl, if_neg (by simp), if_neg (by simp [hp])]

/-- R354: a denied write is flagged. -/
theorem State.regWrite_denied (s : State) (r : Reg) (i : Nat) (m : Master) (h : Half) (v : Nat) (hl : s.live)
    (hp : s.permits r i m true (s.camPort r i h v) = false) :
    s.regWrite r i m h v = s.regFlag SYS_REGERR.DENIED m (r.offset i + halfOff h) false r.inDoor := by
  unfold State.regWrite
  rw [if_neg (by simp [hl.1]), State.live_open s r hl, if_neg (by simp), hp]
  rfl

/-- R346: a permitted write that the chapters refuse is flagged. -/
theorem State.regWrite_refused (s : State) (r : Reg) (i : Nat) (m : Master) (h : Half) (v : Nat) (hl : s.live)
    (h1 : r ≠ .sprDb) (h2 : r ≠ .mbxDb) (hp : s.permits r i m true (s.camPort r i h v) = true)
    (hk : s.lockedBy r i = none) (hc : s.clearsEn r i (s.newValue r i h v) = none)
    (bad : s.enBusy r i (s.newValue r i h v) = true
      ∨ s.refuses r i m (s.r r i) (s.newValue r i h v) (halfOf h v) = true) :
    s.regWrite r i m h v = s.refuseWrite r i m h := by
  have judged : s.regWrite r i m h v = s.judgeWrite r i m h v := by
    unfold State.regWrite
    rw [if_neg (by simp [hl.1]), State.live_open s r hl, if_neg (by simp), hp]
    simp only [Bool.not_true, Bool.false_eq_true, if_false]
  rw [judged]
  unfold State.judgeWrite
  simp only [hk, hc, Bool.or_eq_true]
  exact if_pos bad

/-- Settles O6: each of these accesses is a flagged one (`regFlag`), whose effect is on SYS_REGERR alone. -/
theorem deniedAndRefusedAccessesAreFlagged : Obligations.DeniedAndRefusedAccessesAreFlagged := by
  refine ⟨⟨fun s m addr o h r i hl ha hp hloc no => ?_, fun s m addr o h v r i hl ha hp hloc no => ?_⟩,
    fun s m addr o h v r i hl ha hp hloc door mailbox yes unlocked keeps bad => ?_⟩
  · have run := exec_deniedRead_reg s m addr o h r i hl ha hp hloc
    rw [State.readReg_denied s r i m h hl no] at run
    obtain ⟨flag, count⟩ := s.regFlag_raised SYS_REGERR.DENIED m (r.offset i + halfOff h) true r.inDoor (.inl rfl)
    exact ⟨_, run, rfl, flag, count, s.regFlag_first _ m _ true r.inDoor,
      (leaves_regFlag s _ _ _ _ _ rfl).trans ((leaves_emit _ _).mono (by simp) fun _ _ no => no.elim)⟩
  · have run := exec_registerWrite_reg s m addr o h v r i hl ha hp hloc
    rw [State.regWrite_denied s r i m h v.toNat hl no] at run
    obtain ⟨flag, count⟩ := s.regFlag_raised SYS_REGERR.DENIED m (r.offset i + halfOff h) false r.inDoor (.inl rfl)
    exact ⟨_, run, flag, count, s.regFlag_first _ m _ false r.inDoor, leaves_regFlag s _ _ _ _ _ rfl⟩
  · have run := exec_registerWrite_reg s m addr o h v r i hl ha hp hloc
    rw [State.regWrite_refused s r i m h v.toNat hl door mailbox yes unlocked keeps bad] at run
    obtain ⟨flag, count⟩ := s.regFlag_raised SYS_REGERR.REFUSED m (r.offset i + halfOff h) false r.inDoor (.inr rfl)
    exact ⟨_, run, flag, count, leaves_regFlag s _ _ _ _ _ rfl⟩

end Sys2Proof.Machine
end

section
/-! PROOFS. The compare units of chapter 13 (R282). -/

set_option Elab.async false

namespace Sys2Proof.Machine

/-- A taken whole write of a map that starts nothing and has no locked field: its register holds the merged value, and
nothing else changes. -/
theorem State.regWrite_writesOnly (s : State) (r : Reg) (i : Nat) (m : Master) (h : Half) (v : Nat)
    (hr : writesOnly r i = true) (hk : s.hitsLock r i h = false) (acc : s.accepts r i m h v) :
    s.regWrite r i m h v = s.setR r i (s.merged r i h v) := by
  obtain ⟨door, mailbox, merged⟩ := writesOnly_map s r i h v hr
  rw [State.regWrite_accepted s r i m h v door mailbox acc, State.takeWrite_plain s r i m h _ _ _ hk,
    State.afterWrite_of_writesOnly _ r i m _ _ _ hr, merged]

/-- A field of a register that was written whole. -/
theorem State.setR_f (s : State) (x : Fld) (i w : Nat) (hw : w < 2 ^ 64) : (s.setR x.reg i w).f x i = bits w x.hi x.lo := by
  unfold State.f
  rw [State.setR_r, if_pos ⟨rfl, rfl⟩, Nat.mod_eq_of_lt hw]

theorem State.fb_of_f {s : State} {x : Fld} {i : Nat} (h : s.f x i = 1) : s.fb x i = true := beq_iff_eq.mpr h

theorem State.f_lt (s : State) (x : Fld) (i : Nat) : s.f x i < 2 ^ (x.hi + 1 - x.lo) := bits_lt _ _ _

/-- A field of a known width after it was written. -/
theorem State.setF_f_width (s : State) (x : Fld) (i v n : Nat) (h : x.fits) (hn : x.hi + 1 - x.lo = n) :
    (s.setF x i v).f x i = v % 2 ^ n := hn ▸ State.setF_f_same s x i v h

/-- A saturating counter after it was counted up. -/
theorem State.incSat_f_same (s : State) (x : Fld) (i n : Nat) (h : x.fits) :
    (s.incSat x i n).f x i = min (s.f x i + n) x.top := by
  rw [State.incSat_eq, State.setF_f_same _ _ _ _ h]
  refine Nat.mod_eq_of_lt ?_
  have := Nat.two_pow_pos (x.hi + 1 - x.lo)
  unfold Fld.top
  omega

/-- The time that a reached target lies behind the counter. -/
theorem reached_iff (t u : Nat) (hu : u < 2 ^ 64) : reached t u = true ↔ (t + 2 ^ 64 - u) % 2 ^ 64 < 2 ^ 63 := by
  unfold reached sint
  rw [Nat.mod_eq_of_lt hu, decide_eq_true_iff]
  dsimp only
  rw [Nat.mod_mod]
  split <;> omega

/-- R282: the periods of a reload are the least number that puts the target ahead of the counter. -/
theorem cmpPeriods_least (now target period : Nat) (ht : target < 2 ^ 64) (hp : period ≠ 0) (hr : reached now target = true) :
    1 ≤ cmpPeriods now target period
      ∧ (cmpPeriods now target period - 1) * period ≤ (now + 2 ^ 64 - target) % 2 ^ 64
      ∧ (now + 2 ^ 64 - target) % 2 ^ 64 < cmpPeriods now target period * period := by
  have behind := (reached_iff now target ht).mp hr
  have value : (sint 64 ((now + 2 ^ 64 - target % 2 ^ 64) % 2 ^ 64)).toNat = (now + 2 ^ 64 - target) % 2 ^ 64 := by
    unfold sint
    dsimp only
    rw [Nat.mod_eq_of_lt ht, Nat.mod_mod, if_pos behind, Int.toNat_natCast]
  unfold cmpPeriods
  rw [value]
  generalize (now + 2 ^ 64 - target) % 2 ^ 64 = late
  refine ⟨Nat.le_add_left _ _, ?_, ?_⟩
  · rw [Nat.add_sub_cancel]
    exact Nat.div_mul_le_self _ _
  · exact Nat.lt_mul_of_div_lt (Nat.lt_succ_self _) (Nat.pos_of_ne_zero hp)

/-- What a firing compare unit leaves. -/
theorem State.leaves_fireCmp (s : State) (n : Nat) :
    Leaves [.outbox, .keptIrqs] (fun r i => (r = .timeCmp0 ∨ r = .timeCmp1) ∧ i = n) s (s.fireCmp n) := by
  have raised : Leaves [.outbox, .keptIrqs] (fun r i => (r = .timeCmp0 ∨ r = .timeCmp1) ∧ i = n) s
      ((s.setF TIME_CMP1.FIRED n 1).mgrIrq (8 + n) n) :=
    ((Leaves.refl _ _ s).setF ⟨.inr rfl, rfl⟩).mgrIrq
  unfold State.fireCmp
  exact .ite ((raised.emit.ite raised).setF ⟨.inr rfl, rfl⟩)
    (((raised.emit.ite raised).setF ⟨.inl rfl, rfl⟩).incSat ⟨.inr rfl, rfl⟩)

/-- The fields of a compare unit after the pulse on its pin. -/
theorem State.f_pulsed (s : State) (c : Prop) [Decidable c] (o : Out) (x : Fld) (k : Nat) :
    (if c then s.emit o else s).f x k = s.f x k := by
  split <;> rfl

/-- What has left before an interrupt to the manager has still left, and so has the interrupt where EN is 1b. -/
theorem State.mem_mgrIrq (s : State) (k u : Nat) (o : Out)
    (h : o ∈ s.outbox ∨ (s.fb SYS_IRQCFG.EN 0 = true ∧ o = .mgrIrq k u)) : o ∈ (s.mgrIrq k u).outbox := by
  unfold State.mgrIrq
  split
  · rcases h with h | ⟨-, rfl⟩
    · exact List.mem_cons_of_mem _ h
    · exact List.mem_cons_self
  · rename_i en
    rcases h with h | ⟨h, -⟩
    · exact h
    · exact absurd h en

/-- R282: a firing unit sets FIRED. -/
theorem State.fireCmp_fired (s : State) (n : Nat) : (s.fireCmp n).f TIME_CMP1.FIRED n = 1 := by
  unfold State.fireCmp
  dsimp only
  split <;> simp (disch := decide) only [State.incSat_eq, State.setF_f_apart, State.f_pulsed, State.mgrIrq_f,
    State.setF_f_same] <;> rfl

/-- R282: without a period the unit disarms and keeps its target. -/
theorem State.fireCmp_once (s : State) (n : Nat) (h : s.f TIME_CMP1.PERIOD n = 0) :
    (s.fireCmp n).f TIME_CMP1.ARM n = 0 ∧ (s.fireCmp n).f TIME_CMP0.TARGET n = s.f TIME_CMP0.TARGET n := by
  unfold State.fireCmp
  rw [if_pos h]
  constructor
  · rw [State.setF_f_same _ _ _ _ (by decide), Nat.zero_mod]
  · simp (disch := decide) only [State.setF_f_apart, State.f_pulsed, State.mgrIrq_f]

/-- R282: with a period the unit stays armed, its target moves ahead and the skipped periods are counted. -/
theorem State.fireCmp_periodic_arm (s : State) (n : Nat) (h : s.f TIME_CMP1.PERIOD n ≠ 0) :
    (s.fireCmp n).f TIME_CMP1.ARM n = s.f TIME_CMP1.ARM n := by
  unfold State.fireCmp
  rw [if_neg h]
  simp (disch := decide) only [State.incSat_eq, State.setF_f_apart, State.f_pulsed, State.mgrIrq_f]

theorem State.fireCmp_periodic_target (s : State) (n : Nat) (h : s.f TIME_CMP1.PERIOD n ≠ 0) :
    (s.fireCmp n).f TIME_CMP0.TARGET n = (s.f TIME_CMP0.TARGET n
      + cmpPeriods s.now (s.f TIME_CMP0.TARGET n) (s.f TIME_CMP1.PERIOD n) * s.f TIME_CMP1.PERIOD n) % 2 ^ 64 := by
  unfold State.fireCmp
  dsimp only
  rw [if_neg h]
  rw [State.incSat_eq, State.setF_f_apart _ _ _ _ _ _ (by decide) (by decide),
    State.setF_f_width _ _ _ _ 64 (by decide) rfl]

theorem State.fireCmp_periodic_skipped (s : State) (n : Nat) (h : s.f TIME_CMP1.PERIOD n ≠ 0) :
    (s.fireCmp n).f TIME_CMP1.SKIPPED n = min (s.f TIME_CMP1.SKIPPED n
      + (cmpPeriods s.now (s.f TIME_CMP0.TARGET n) (s.f TIME_CMP1.PERIOD n) - 1)) TIME_CMP1.SKIPPED.top := by
  unfold State.fireCmp
  rw [if_neg h, State.incSat_f_same _ _ _ _ (by decide)]
  simp (disch := decide) only [State.setF_f_apart, State.f_pulsed, State.mgrIrq_f]

/-- R282: the last changes of a firing unit are on its registers alone. -/
theorem State.outbox_fireCmp (s : State) (n : Nat) : (s.fireCmp n).outbox
    = (if s.fb TIME_CMP1.PIN_EN n then
        ((s.setF TIME_CMP1.FIRED n 1).mgrIrq (8 + n) n).emit (.timeOut n (s.f TIME_CMP1.WIDTH n))
      else (s.setF TIME_CMP1.FIRED n 1).mgrIrq (8 + n) n).outbox := by
  unfold State.fireCmp State.fb
  dsimp only
  split <;> simp (disch := decide) only [State.mgrIrq_f, State.setF_f_apart, State.setF_outbox, State.incSat_outbox]

theorem State.pulse_fireCmp (s : State) (n : Nat) (h : s.fb TIME_CMP1.PIN_EN n = true) :
    .timeOut n (s.f TIME_CMP1.WIDTH n) ∈ (s.fireCmp n).outbox := by
  rw [State.outbox_fireCmp, if_pos h]
  exact List.mem_cons_self

theorem State.irq_fireCmp (s : State) (n : Nat) (h : s.fb SYS_IRQCFG.EN 0 = true) :
    .mgrIrq (8 + n) n ∈ (s.fireCmp n).outbox := by
  have en : (s.setF TIME_CMP1.FIRED n 1).fb SYS_IRQCFG.EN 0 = true := by
    unfold State.fb
    rw [State.setF_f_apart _ _ _ _ _ _ (by decide) (by decide)]
    exact h
  have sent := State.mem_mgrIrq (s.setF TIME_CMP1.FIRED n 1) (8 + n) n _ (.inr ⟨en, rfl⟩)
  rw [State.outbox_fireCmp]
  split
  · exact List.mem_cons_of_mem _ sent
  · exact sent

/-- Settles O11: arming is a plain write (`regWrite_writesOnly`); firing sets the fields in turn, and its reload is the least
number of periods that helps (`cmpPeriods_least`). -/
theorem compareUnitsFireAndReload : Obligations.CompareUnitsFireAndReload := by
  refine ⟨fun s m n v hn acc => ?_, fun s n hn armed hit => ?_, fun s n hn idle => ?_⟩
  · have run : exec (.compareArm m n v) s = .next (s.regWrite .timeCmp1 n m .whole (withBit v 63)) := by
      rw [exec_compareArm, execCompareArm, decide_eq_true hn, unit_true]
    rw [State.regWrite_writesOnly s .timeCmp1 n m .whole _ rfl (by simp [State.hitsLock, Reg.fieldsAt, Reg.fields]) acc] at run
    have hw := s.merged_lt .timeCmp1 n .whole (withBit v 63)
    refine ⟨_, run, ?_, ?_, ?_, leaves_setR _ _ _ _⟩
    · have set := s.merged_w1s .timeCmp1 n .whole (withBit v 63) 63 (by simp [Reg.fieldsAt, Reg.fields])
      exact State.fb_of_f ((State.setR_f _ TIME_CMP1.ARM n _ hw).trans (set.trans (if_pos (bit_withBit v 63))))
    · exact (State.setR_f _ TIME_CMP1.WIDTH n _ hw).trans
        (s.merged_rw .timeCmp1 n .whole _ 60 48 (by simp [Reg.fieldsAt, Reg.fields]))
    · exact (State.setR_f _ TIME_CMP1.PERIOD n _ hw).trans
        (s.merged_rw .timeCmp1 n .whole _ 31 0 (by simp [Reg.fieldsAt, Reg.fields]))
  · have run : exec (.compareFire n) s = .next (s.fireCmp n) := by
      have now : reached s.now (s.f TIME_CMP0.TARGET n) = true := hit
      rw [exec_compareFire, execCompareFire, decide_eq_true hn, unit_true, armed, now, Bool.true_and, if_pos rfl]
    refine ⟨_, run, ?_, ?_, ?_, ?_, ?_, s.leaves_fireCmp n⟩
    · exact State.fb_of_f (s.fireCmp_fired n)
    · intro pin
      exact s.pulse_fireCmp n pin
    · intro en
      exact s.irq_fireCmp n en
    · intro once
      obtain ⟨arm, target⟩ := s.fireCmp_once n once
      exact ⟨by unfold State.fb; rw [arm]; rfl, target⟩
    · intro periodic
      obtain ⟨pos, least, ahead⟩ := cmpPeriods_least s.clock.ns (s.f TIME_CMP0.TARGET n) (s.f TIME_CMP1.PERIOD n)
        (s.f_lt TIME_CMP0.TARGET n) periodic hit
      exact ⟨_, pos, State.fb_of_f ((s.fireCmp_periodic_arm n periodic).trans (beq_iff_eq.mp armed)),
        s.fireCmp_periodic_target n periodic, s.fireCmp_periodic_skipped n periodic, least, ahead⟩
  · have stays : (s.fb TIME_CMP1.ARM n && reached s.now (s.f TIME_CMP0.TARGET n)) = false := by
      rcases idle with h | h
      · rw [h, Bool.false_and]
      · rw [show s.now = s.clock.ns from rfl, h, Bool.and_false]
    rw [exec_compareFire, execCompareFire, decide_eq_true hn, unit_true, stays, if_neg Bool.false_ne_true]

end Sys2Proof.Machine
end

section
/-! PROOFS. The safety monitors (R15, R154 to R156): what a cause raises and what it leaves. -/

set_option Elab.async false

namespace Sys2Proof.Machine

/-! ## A safety cause (R154) -/

/-- What a safety cause may change beside its register. -/
def safetyParts : List Part := [.outbox, .freeCtr, .safePins, .record, .keptIrqs]

section
variable {ps : List Part} {q : Reg → Nat → Prop} {b s : State}

theorem Leaves.safePin {n : String} {v : Bool} (h : Leaves ps q b s) (ho : .outbox ∈ ps) : Leaves ps q b (s.safePin n v) := by
  unfold State.safePin
  split
  · exact h
  · exact h.emit ho

/-- A change of the levels of the safety outputs alone. -/
theorem Leaves.pins {g : PowerSt → PowerSt} (h : Leaves ps q b s) (hg : ∀ p, (g p).calm = p.calm) (hs : .safePins ∈ ps) :
    Leaves ps q b (s.modPower g) := by
  refine h.parts (fun p hp => ?_)
  cases p
  case power => exact hg _
  case safePins => exact absurd hs hp
  all_goals rfl

theorem Leaves.modRec {g : FieldRecord → FieldRecord} (h : Leaves ps q b s) (hr : .record ∈ ps) :
    Leaves ps q b (s.modRec g) := by
  refine h.parts (fun p hp => ?_)
  cases p
  case record => exact absurd hr hp
  all_goals rfl

theorem Leaves.assertFlt (h : Leaves ps q b s) (hp : safetyParts ⊆ ps) (hq : q .sysSafestat 0) : Leaves ps q b s.assertFlt := by
  unfold State.assertFlt
  exact h.ite (.modRec (.safePin (.pins (h.setF hq) (fun _ => rfl) (hp (by decide))) (hp (by decide))) (hp (by decide)))

theorem Leaves.updateWarn (h : Leaves ps q b s) (hp : safetyParts ⊆ ps) (hq : q .sysSafestat 0) :
    Leaves ps q b s.updateWarn :=
  .ite (h.setF hq) (.safePin (.pins (h.setF hq) (fun _ => rfl) (hp (by decide))) (hp (by decide)))

/-- A cause is reported through its register, the safety outputs, the event log and interrupts. -/
theorem Leaves.safety {x : Fld} {u d : Nat} (h : Leaves ps q b s) (hx : x.reg = .sysSafestat)
    (hp : safetyParts ⊆ ps := by decide) (hq : q .sysSafestat 0 := by exact ⟨rfl, rfl⟩) : Leaves ps q b (s.safety x u d) := by
  have set : Leaves ps q b (s.setF x 0 1) := h.setF (hx ▸ hq)
  have raised : ∀ t, Leaves ps q b t → Leaves ps q b (if isFlt x then t.assertFlt else t.updateWarn) := fun t ht =>
    (ht.assertFlt hp hq).ite (ht.updateWarn hp hq)
  unfold State.safety
  refine Leaves.emit (Leaves.mgrIrq (raised _ (Leaves.modRec ?_ (hp (by decide)))) (hp (by decide)) (hp (by decide)))
    (hp (by decide))
  cases causeCode x with
  | some c => exact set
  | none =>
    refine set.parts (fun p hn => ?_)
    cases p
    case freeCtr => exact absurd (hp (by decide)) hn
    all_goals rfl

end

/-- A cause leaves the fields beside its own and the two signals'. -/
theorem State.safety_f_apart (s : State) (x y : Fld) (u d : Nat) (hx : x.fits) (hxy : x.apart y)
    (hf : SYS_SAFESTAT.FLT.apart y) (hw : SYS_SAFESTAT.WARN.apart y) : (s.safety x u d).f y 0 = s.f y 0 := by
  have set : (s.setF x 0 1).f y 0 = s.f y 0 := State.setF_f_apart _ _ _ _ _ _ hx hxy
  unfold State.safety
  simp only [State.emit_f, State.mgrIrq_f]
  split <;> split <;>
    simp only [State.assertFlt_f _ _ _ hf, State.updateWarn_f _ _ _ hw, State.logEvent_f, State.fresh] <;> exact set

/-- A report to the Cupola is the last thing to leave with a cause. -/
theorem State.cupola_safety (s : State) (x : Fld) (u d : Nat) : .cupolaIrq x.lo ∈ (s.safety x u d).outbox :=
  List.mem_cons_self

theorem State.record_safePin (s : State) (n : String) (v : Bool) : (s.safePin n v).sys.record = s.sys.record := by
  unfold State.safePin
  split <;> rfl

theorem State.droop_assertFlt (s : State) : s.assertFlt.sys.record.droop = s.sys.record.droop := by
  unfold State.assertFlt
  split
  · rfl
  · unfold State.logEvent
    rw [State.modRec_record, State.record_safePin, State.modPower_sys_record, State.setF_sys]

theorem State.droop_updateWarn (s : State) : s.updateWarn.sys.record.droop = s.sys.record.droop := by
  unfold State.updateWarn
  dsimp only
  split
  · rw [State.setF_sys]
  · rw [State.record_safePin, State.modPower_sys_record, State.setF_sys]

/-- A cause writes an entry to the event log, and the droop events of the record stay. -/
theorem State.droop_safety (s : State) (x : Fld) (u d : Nat) :
    (s.safety x u d).sys.record.droop = s.sys.record.droop := by
  unfold State.safety
  simp only [State.emit_sys, State.mgrIrq_record]
  split <;> simp only [State.droop_assertFlt, State.droop_updateWarn] <;> split <;> rfl

/-- R154: the bit of a cause of the FLT class, its signal and its report. -/
theorem State.safety_flt (s : State) (x : Fld) (u d : Nat) (hx : x.fits) (h1 : x.hi = x.lo) (h9 : 9 ≤ x.lo)
    (hf : SYS_SAFESTAT.FLT.apart x) (hw : SYS_SAFESTAT.WARN.apart x) :
    (s.safety x u d).f x 0 = 1 ∧ (s.safety x u d).sys.power.safeFlt = true ∧ .cupolaIrq x.lo ∈ (s.safety x u d).outbox :=
  ⟨s.safety_f x u d hx h1 hf hw, s.safety_safeFlt x u d h9, s.cupola_safety x u d⟩

/-! ## A lost clock (R15) -/

/-- The state of a pool shows in ATT_ISTAT alone. -/
theorem Leaves.showAtt {ps : List Part} {q : Reg → Nat → Prop} {b s : State} {i : Nat} (h : Leaves ps q b s)
    (hq : q .attIstat i) : Leaves ps q b (s.showAtt i) :=
  ((h.setF hq).setF hq).setF hq

/-- A job that leaves its step or prefill closes it. -/
theorem State.leaves_closeRunOf (s : State) (x : Job) :
    Leaves [.ctxs, .runs] (fun r _ => r = .attIstat) s (s.closeRunOf x) := by
  unfold State.closeRunOf
  split
  · split
    · unfold State.closeRun
      refine Leaves.showAtt (Leaves.parts (Leaves.over (.refl _ _ s) fun e t h => ?_)) rfl
      dsimp only
      split
      · exact h.parts
      · exact h
    · exact .refl _ _ s
  · exact .refl _ _ s

theorem State.leaves_clockEnds (s : State) (d : Domain) :
    Leaves [.ctxs, .runs, .jobs] (fun r _ => r = .attIstat) s (s.clockEnds d) :=
  (Leaves.over (.refl _ _ s) fun x t h => h.into (t.leaves_closeRunOf x) (by simp) fun _ _ e => e).parts

theorem State.leaves_clockWaits (s : State) (d : Domain) :
    Leaves [.outbox, .snoops, .homeQ, .bridge] noReg s (s.clockWaits d) := by
  have ended : ∀ lost : List HomeReq, Leaves [.outbox, .snoops, .homeQ, .bridge] noReg s
      (s.each lost fun s q => s.emit (.clockError q.m)) := fun _ => .over (.refl _ _ s) fun _ _ h => h.emit
  exact .ite (Leaves.beside (.over (ended _).beside fun _ _ h => h.emit)) (ended _).beside

/-- With no attention job running, a lost clock closes no step. -/
theorem State.leaves_clockEnds_plain (s : State) (d : Domain)
    (plain : ∀ x ∈ s.work.jobs, x.phase = .running → isAttn x.opcode = false) :
    Leaves [.jobs] noReg s (s.clockEnds d) := by
  have untouched : ∀ (xs : List Job) (t : State), (∀ x ∈ xs, isAttn x.opcode = false) →
      t.each xs (fun s x => s.closeRunOf x) = t := by
    intro xs
    induction xs with
    | nil => exact fun _ _ => rfl
    | cons x xs ih =>
      intro t h
      have first : t.closeRunOf x = t := by
        have no := h x List.mem_cons_self
        simp only [isAttn, Bool.and_eq_false_iff, decide_eq_false_iff_not] at no
        unfold State.closeRunOf
        rw [if_neg]
        simp only [Bool.or_eq_true, decide_eq_true_eq]
        omega
      exact (congrArg (fun u => State.each u xs fun s x => s.closeRunOf x) first).trans
        (ih t fun y hy => h y (List.mem_cons_of_mem _ hy))
  unfold State.clockEnds
  dsimp only
  rw [untouched _ s fun x hx => ?_]
  · exact (Leaves.refl _ _ s).parts
  · obtain ⟨mem, lose⟩ := List.mem_filter.mp hx
    simp only [Bool.and_eq_true, beq_iff_eq] at lose
    exact plain x mem lose.1

/-! ## The monitors -/

theorem exec_clockLossDetected_open (s : State) (d : Domain) (h : d ∉ s.sys.power.lost) :
    exec (.clockLossDetected d) s = .next ((((s.modPower fun p => { p with lost := d :: p.lost }).clockEnds d).clockWaits
      d).safety SYS_SAFESTAT.CLK_LOST (domainNo d) 0) := by
  rw [exec_clockLossDetected, execClockLossDetected, if_neg (by simpa using h)]

/-- Settles O12: every monitor raises its cause (`safety_flt`), and a lost clock ends what waited before. -/
theorem monitorsRaiseTheirSafetyCause : Obligations.MonitorsRaiseTheirSafetyCause := by
  refine ⟨fun s d hd => ?_, fun s => ?_, fun s rail pct hr => ?_, fun s k c hk hc => ?_, fun s k c hk hc => ?_⟩
  · have run := exec_clockLossDetected_open s d hd
    obtain ⟨cause, signal, told⟩ := State.safety_flt (((s.modPower fun p => { p with lost := d :: p.lost }).clockEnds
      d).clockWaits d) SYS_SAFESTAT.CLK_LOST (domainNo d) 0 (by decide) rfl (by decide) (by decide) (by decide)
    refine ⟨_, run, ?_, cause, signal, told, fun plain => ?_⟩
    · have ended := ((s.modPower fun p => { p with lost := d :: p.lost }).leaves_clockEnds d).1 .power (by simp)
      have waited := (State.leaves_clockWaits ((s.modPower fun p => { p with lost := d :: p.lost }).clockEnds d) d).1 .power
        (by simp)
      have told := (Leaves.safety (ps := safetyParts) (u := domainNo d) (d := 0) (.refl _ (oneReg .sysSafestat 0)
        (((s.modPower fun p => { p with lost := d :: p.lost }).clockEnds d).clockWaits d))
        (rfl : SYS_SAFESTAT.CLK_LOST.reg = .sysSafestat)).1 .power (by simp [safetyParts])
      exact congrArg PowerSt.lost (told.trans (waited.trans ended))
    · have lost : Leaves [.outbox, .freeCtr, .power, .safePins, .record, .keptIrqs, .jobs, .snoops, .homeQ, .bridge]
          (oneReg .sysSafestat 0) s (s.modPower fun p => { p with lost := d :: p.lost }) := .beside (.refl _ _ s)
      have ended := lost.into (State.leaves_clockEnds_plain _ d plain) (hq := fun _ _ no => False.elim no)
      have waited := ended.into (State.leaves_clockWaits _ d) (hq := fun _ _ no => False.elim no)
      exact waited.safety (x := SYS_SAFESTAT.CLK_LOST) rfl
  · obtain ⟨cause, signal, told⟩ := State.safety_flt (s.modPower fun p => { p with sclkLost := true })
      SYS_SAFESTAT.SCLK_LOST 0 0 (by decide) rfl (by decide) (by decide) (by decide)
    have leaves : Leaves [.outbox, .freeCtr, .power, .safePins, .record, .keptIrqs] (oneReg .sysSafestat 0) s
        ((s.modPower fun p => { p with sclkLost := true }).safety SYS_SAFESTAT.SCLK_LOST 0 0) :=
      Leaves.safety (Leaves.beside (.refl _ _ s)) rfl
    have told' := (Leaves.safety (ps := safetyParts) (u := 0) (d := 0) (.refl _ (oneReg .sysSafestat 0)
      (s.modPower fun p => { p with sclkLost := true })) (rfl : SYS_SAFESTAT.SCLK_LOST.reg = .sysSafestat)).1 .power
        (by simp [safetyParts])
    exact ⟨_, rfl, congrArg PowerSt.sclkLost told', cause, signal, told, leaves⟩
  · have run : exec (.voltageFault rail pct) s
        = .next ((s.modRec fun r => r.addDroop (rail, pct)).safety SYS_SAFESTAT.VOLT rail pct) := by
      rw [exec_voltageFault, execVoltageFault, decide_eq_true hr, unit_true]
    obtain ⟨cause, signal, told⟩ := State.safety_flt (s.modRec fun r => r.addDroop (rail, pct))
      SYS_SAFESTAT.VOLT rail pct (by decide) rfl (by decide) (by decide) (by decide)
    refine ⟨_, run, cause, signal, told, fun high => ?_, fun low => ?_, ((Leaves.refl _ _ s).modRec (by simp)).safety rfl⟩
    · rw [State.droop_safety, State.modRec_record, FieldRecord.addDroop, if_neg]
      simp only [Bool.and_eq_true, decide_eq_true_eq]
      omega
    · rw [State.droop_safety, State.modRec_record, FieldRecord.addDroop, if_pos]
      simp only [Bool.and_eq_true, decide_eq_true_eq]
      exact ⟨hr, low⟩
  · have run : exec (.temperatureEvent k c) s = .next (if 130 < c
        then (s.safety SYS_SAFESTAT.TEMP_HIGH k 0).safety SYS_SAFESTAT.TEMP_TRIP k 0
        else s.safety SYS_SAFESTAT.TEMP_HIGH k 0) := by
      rw [exec_temperatureEvent, execTemperatureEvent, decide_eq_true hk, unit_true, if_pos hc]
    have high := s.safety_f SYS_SAFESTAT.TEMP_HIGH k 0 (by decide) rfl (by decide) (by decide)
    have hot : Leaves safetyParts (oneReg .sysSafestat 0) s (s.safety SYS_SAFESTAT.TEMP_HIGH k 0) :=
      (Leaves.refl _ _ s).safety rfl
    refine ⟨_, run, ?_, fun trip => ?_, (hot.safety rfl).ite hot⟩
    · split
      · exact (State.safety_f_apart _ _ _ _ _ (by decide) (by decide) (by decide) (by decide)).trans high
      · exact high
    · obtain ⟨cause, signal, -⟩ := (s.safety SYS_SAFESTAT.TEMP_HIGH k 0).safety_flt SYS_SAFESTAT.TEMP_TRIP k 0 (by decide)
        rfl (by decide) (by decide) (by decide)
      rw [if_pos trip]
      exact ⟨cause, signal⟩
  · rw [exec_temperatureEvent, execTemperatureEvent, decide_eq_true hk, unit_true, if_neg (by omega), if_neg (by omega)]

end Sys2Proof.Machine
end

section
/-! PROOFS. The hand-over of a trajectory. -/

set_option Elab.async false

namespace Sys2Proof.Machine

theorem State.mem_dropForward (s : State) (r : BridgeReq) :
    r ∈ s.dropForward.net.bridge ↔ r ∈ s.net.bridge ∧ r.forward = false := by
  simp [State.dropForward]

theorem State.releaseTraj_outbox (s : State) (fr : Nat) : (s.releaseTraj fr).outbox
    = .trajectory (s.f WSK_ID.DEV_ID 0) fr (s.frameT0 fr + 54600000) (s.frameT0 fr + 55500000) :: s.outbox := rfl

theorem State.releaseTraj_traj (s : State) (fr : Nat) :
    (s.releaseTraj fr).net.traj = { s.net.traj with waiting := none, released := true } := rfl

theorem State.releaseTraj_bridge (s : State) (fr : Nat) : (s.releaseTraj fr).net.bridge = s.dropForward.net.bridge := rfl

theorem State.leaves_releaseTraj (s : State) (fr : Nat) : Leaves [.traj, .outbox, .bridge] noReg s (s.releaseTraj fr) :=
  Leaves.emit (Leaves.beside (Leaves.beside (.refl _ _ s)))

/-- Settles O13: each cut-off matches on the trajectory that waits and on the time. -/
theorem trajectoriesAreReleasedOrDiscardedInTime : Obligations.TrajectoriesAreReleasedOrDiscardedInTime := by
  refine ⟨fun s fr waits back => ?_, fun s none => ?_, fun s fr waits => ⟨fun early => ?_, fun late => ?_, ?_⟩,
    fun s fr waits => ⟨fun lost => ?_, fun up => ?_⟩, fun s fr waits late out => ?_, fun s none => ?_,
    fun s fr own late diff => ?_, fun s fr own same => ?_⟩
  · have run : exec .trajectoryRelease s = .next (s.releaseTraj fr) := by
      simp only [exec_trajectoryRelease, execTrajectoryRelease, waits, if_pos back]
    exact ⟨_, run, s.releaseTraj_traj fr, s.releaseTraj_outbox fr, s.mem_dropForward, s.leaves_releaseTraj fr⟩
  · rw [exec_trajectoryRelease, execTrajectoryRelease]
    rcases none with none | none
    · simp only [none]
    · split
      · rfl
      · simp [none]
  · simp only [State.forwardDone, waits, early, Bool.not_false, if_true, State.modTraj]
  · simp only [State.forwardDone, waits, late, Bool.not_true, Bool.false_eq_true, if_false]
  · simp only [State.forwardDone, waits]
    exact (Leaves.beside (.refl _ _ s)).ite (.refl _ _ s)
  · have gone : s.partnerLost = s.releaseTraj fr := by simp [State.partnerLost, waits, lost]
    exact gone ▸ ⟨s.releaseTraj_traj fr, s.releaseTraj_outbox fr⟩
  · simp [State.partnerLost, waits, up]
  · have run : exec .activeCutoff s
        = .next (s.dropForward.modTraj fun t => { t with waiting := none, discards := t.discards + 1 }) := by
      simp only [exec_activeCutoff, execActiveCutoff, waits, late, out, Bool.not_false, Bool.and_self, if_true]
    exact ⟨_, run, rfl, s.mem_dropForward, Leaves.beside (Leaves.beside (.refl _ _ s))⟩
  · rw [exec_activeCutoff, execActiveCutoff]
    split
    · rfl
    · rename_i fr waits
      rcases none with back | early
      · simp [back]
      · simp [early fr waits]
  · have run : exec .shadowCutoff s = .next ((s.modTraj fun t => { t with own := none }).sendBackup fr) := by
      simp [exec_shadowCutoff, execShadowCutoff, own, late, diff]
    exact ⟨_, run, rfl, rfl, Leaves.emit (Leaves.beside (.refl _ _ s))⟩
  · simp [exec_shadowCutoff, execShadowCutoff, own, same]

end Sys2Proof.Machine
end

section
/-! PROOFS. The sprue and a queue's state: what sets and clears its bits and what shows in SPR_QSTAT. -/

set_option Elab.async false

namespace Sys2Proof.Machine

theorem mem_insNat (xs : List Nat) (x y : Nat) : y ∈ insNat xs x ↔ y ∈ xs ∨ y = x := by
  induction xs with
  | nil => simp [insNat]
  | cons z xs ih =>
    unfold insNat
    split_ifs with e lt
    · simp only [List.mem_cons, e]
      tauto
    · simp only [List.mem_cons]
      tauto
    · simp only [List.mem_cons, ih]
      tauto

theorem mem_delNat (xs : List Nat) (x y : Nat) : y ∈ delNat xs x ↔ y ∈ xs ∧ y ≠ x := by simp [delNat]

theorem State.mem_scanInsert (s : State) (n y : Nat) (xs : List Nat) : y ∈ s.scanInsert n xs ↔ y = n ∨ y ∈ xs := by
  induction xs with
  | nil => simp [State.scanInsert]
  | cons z xs ih =>
    unfold State.scanInsert
    split
    · simp only [List.mem_cons]
    · simp only [List.mem_cons, ih]
      tauto

section
variable {ps : List Part} {q : Reg → Nat → Prop} {b s : State}

theorem Leaves.modSprue {g : Sprue → Sprue} (h : Leaves ps q b s) (hp : .sprue ∈ ps := by simp) :
    Leaves ps q b (s.modSprue g) :=
  h.parts fun p hn => by
    cases p
    case sprue => exact absurd hp hn
    all_goals rfl

theorem Leaves.modQ {n : Nat} {g : QueueSt → QueueSt} (h : Leaves ps q b s) (hp : .queues ∈ ps := by simp) :
    Leaves ps q b (s.modQ n g) :=
  h.parts fun p hn => by
    cases p
    case queues => exact absurd hp hn
    all_goals rfl

theorem Leaves.showQueue {n : Nat} (h : Leaves ps q b s) (hq : q .sprQstat n) : Leaves ps q b (s.showQueue n) :=
  .ite h (h.setF hq)

theorem Leaves.setPending {n : Nat} (h : Leaves ps q b s) (hp : .sprue ∈ ps := by simp) : Leaves ps q b (s.setPending n) :=
  .ite (.ite h (h.modSprue hp)) (h.modSprue hp)

theorem Leaves.clearSprue {n : Nat} (h : Leaves ps q b s) (hp : .sprue ∈ ps := by simp) : Leaves ps q b (s.clearSprue n) :=
  h.modSprue hp

theorem Leaves.queueError {n c : Nat} (h : Leaves ps q b s) (hq : q .sprQstat n) (hp : .sprue ∈ ps := by simp) :
    Leaves ps q b (s.queueError n c) := ((h.clearSprue hp).setF hq).setF hq

end

section
variable (s : State) (n k : Nat) (x : Fld)

theorem State.showQueue_work : (s.showQueue n).work = s.work := by
  unfold State.showQueue
  dsimp only
  split
  · rfl
  · exact State.setF_work ..

theorem State.showQueue_q : (s.showQueue n).q k = s.q k := by
  unfold State.q
  rw [State.showQueue_work]

theorem State.showQueue_f_apart (h : SPR_QSTAT.STATE.apart x) : (s.showQueue n).f x k = s.f x k := by
  unfold State.showQueue
  dsimp only
  split
  · rfl
  · exact State.setF_f_apart _ _ _ _ _ _ (by decide) h

theorem State.showQueue_r (r : Reg) (h : r ≠ .sprQstat) : (s.showQueue n).r r k = s.r r k := by
  unfold State.showQueue
  dsimp only
  split
  · rfl
  · exact State.setF_r_ne _ _ _ _ _ _ fun e => h e.1

/-- The error state and the quiesced one stand. -/
theorem State.showQueue_stands (h : s.f SPR_QSTAT.STATE n = 3 ∨ s.f SPR_QSTAT.STATE n = 4) : s.showQueue n = s := by
  unfold State.showQueue
  rw [if_pos (by simpa using h)]

/-- A queue without jobs that stands nowhere in the sprue is idle. -/
theorem State.showQueue_idle (h3 : s.f SPR_QSTAT.STATE n ≠ 3) (h4 : s.f SPR_QSTAT.STATE n ≠ 4) (jobs : s.queueJobs n = [])
    (bits : ¬ s.queuePending n) (ready : n ∉ s.work.sprue.ready) : (s.showQueue n).f SPR_QSTAT.STATE n = 0 := by
  unfold State.queuePending at bits
  unfold State.showQueue
  rw [if_neg (by simp [h3, h4])]
  dsimp only
  rw [State.setF_f_width _ _ _ _ 8 (by decide) rfl, if_neg (by simp [jobs]), if_neg (by simpa [ready] using bits), Nat.zero_mod]

/-- A queue that holds jobs is at work. -/
theorem State.showQueue_working (h3 : s.f SPR_QSTAT.STATE n ≠ 3) (h4 : s.f SPR_QSTAT.STATE n ≠ 4)
    (jobs : s.queueJobs n ≠ []) : (s.showQueue n).f SPR_QSTAT.STATE n = 2 := by
  unfold State.showQueue
  rw [if_neg (by simp [h3, h4])]
  dsimp only
  rw [State.setF_f_width _ _ _ _ 8 (by decide) rfl, if_pos (by simpa using jobs), (by decide : 2 % 2 ^ 8 = 2)]

theorem State.setPending_r (r : Reg) : (s.setPending n).r r k = s.r r k := by
  unfold State.setPending
  dsimp only
  split
  · split <;> rfl
  · rfl

theorem State.setPending_f : (s.setPending n).f x k = s.f x k := by
  unfold State.f
  rw [State.setPending_r]

theorem State.setPending_q : (s.setPending n).q k = s.q k := by
  unfold State.setPending
  dsimp only
  split
  · split <;> rfl
  · rfl

/-- A queue whose bit is set is pending, in the bitmap or in the round. -/
theorem State.queuePending_setPending : (s.setPending n).queuePending n := by
  unfold State.setPending State.queuePending
  dsimp only
  split
  · split
    · rename_i stands
      exact .inr (by simpa using stands)
    · refine .inr (List.mem_append_left _ ?_)
      exact (State.mem_scanInsert _ _ _ _).mpr (.inl rfl)
  · exact .inl ((mem_insNat _ _ _).mpr (.inr rfl))

theorem State.queuePending_of_sprue {s t : State} (h : t.work.sprue = s.work.sprue) (n : Nat) :
    t.queuePending n ↔ s.queuePending n := by
  unfold State.queuePending
  rw [h]

theorem State.clearSprue_r (r : Reg) : (s.clearSprue n).r r k = s.r r k := rfl

theorem State.clearSprue_f : (s.clearSprue n).f x k = s.f x k := rfl

theorem State.not_queuePending_clearSprue : ¬ (s.clearSprue n).queuePending n := by
  simp [State.queuePending, State.clearSprue, State.modSprue, mem_delNat]

theorem State.not_ready_clearSprue : n ∉ (s.clearSprue n).work.sprue.ready := by
  simp [State.clearSprue, State.modSprue, mem_delNat]

theorem State.modQ_same (g : QueueSt → QueueSt) : (s.modQ n g).q n = g (s.q n) := by
  simp [State.modQ, State.q]

end

/-! ## A queue in error -/

section
variable (s : State) (n c : Nat)

theorem State.queueError_state : (s.queueError n c).f SPR_QSTAT.STATE n = 3 := by
  unfold State.queueError
  rw [State.setF_f_apart _ _ _ _ _ _ (by decide) (by decide), State.setF_f_width _ _ _ _ 8 (by decide) rfl,
    (by decide : 3 % 2 ^ 8 = 3)]

theorem State.queueError_code : (s.queueError n c).f SPR_QSTAT.ERR_CODE n = c % 256 :=
  State.setF_f_width _ _ _ _ 8 (by decide) rfl

theorem State.queueError_f (x : Fld) (k : Nat) (hs : SPR_QSTAT.STATE.apart x) (hc : SPR_QSTAT.ERR_CODE.apart x) :
    (s.queueError n c).f x k = s.f x k := by
  unfold State.queueError
  rw [State.setF_f_apart _ _ _ _ _ _ (by decide) hc, State.setF_f_apart _ _ _ _ _ _ (by decide) hs,
    State.clearSprue_f]

theorem State.queueError_work : (s.queueError n c).work = (s.clearSprue n).work := by
  simp only [State.queueError, State.setF_work]

theorem State.not_queuePending_queueError : ¬ (s.queueError n c).queuePending n := by
  rw [State.queuePending_of_sprue (congrArg _ (s.queueError_work n c))]
  exact s.not_queuePending_clearSprue n

theorem State.not_ready_queueError : n ∉ (s.queueError n c).work.sprue.ready := by
  rw [State.queueError_work]
  exact s.not_ready_clearSprue n

end

end Sys2Proof.Machine
end

section
/-! PROOFS. Doorbells (R30). -/

set_option Elab.async false

namespace Sys2Proof.Machine

/-- The ring's registers after a doorbell: CPL_CONS unless it is kept, the count of a stale write, PROD_IDX where it
advances. -/
def State.ringWritten (s : State) (n cpl prod : Nat) (keep stale adv : Bool) : State :=
  let s1 := if keep then s else s.setF SPR_DB.CPL_CONS n cpl
  let s2 := if stale then s1.incSat SPR_QSTAT.STALE_DB n 1 else s1
  if adv then s2.setF SPR_DB.PROD_IDX n prod else s2

section
variable (s : State) (n cpl prod : Nat) (keep stale adv : Bool)

theorem State.ringWritten_prod : (s.ringWritten n cpl prod keep stale adv).f SPR_DB.PROD_IDX n
    = if adv then prod % 2 ^ 32 else s.f SPR_DB.PROD_IDX n := by
  unfold State.ringWritten
  cases keep <;> cases stale <;> cases adv <;>
    simp (disch := decide) [State.incSat_eq, State.setF_f_apart, State.setF_f_width _ _ _ _ 32]

theorem State.ringWritten_cpl : (s.ringWritten n cpl prod keep stale adv).f SPR_DB.CPL_CONS n
    = if keep then s.f SPR_DB.CPL_CONS n else cpl % 2 ^ 32 := by
  unfold State.ringWritten
  cases keep <;> cases stale <;> cases adv <;>
    simp (disch := decide) [State.incSat_eq, State.setF_f_apart, State.setF_f_width _ _ _ _ 32]

theorem State.ringWritten_stale : (s.ringWritten n cpl prod keep stale adv).f SPR_QSTAT.STALE_DB n
    = if stale then min (s.f SPR_QSTAT.STALE_DB n + 1) 0xFFFF else s.f SPR_QSTAT.STALE_DB n := by
  have counted : ∀ t : State, t.f SPR_QSTAT.STALE_DB n = s.f SPR_QSTAT.STALE_DB n →
      (t.incSat SPR_QSTAT.STALE_DB n 1).f SPR_QSTAT.STALE_DB n = min (s.f SPR_QSTAT.STALE_DB n + 1) 0xFFFF := by
    intro t same
    rw [State.incSat_f_same _ _ _ _ (by decide), same, (by decide : SPR_QSTAT.STALE_DB.top = 0xFFFF)]
  have first : (s.setF SPR_DB.CPL_CONS n cpl).f SPR_QSTAT.STALE_DB n = s.f SPR_QSTAT.STALE_DB n :=
    State.setF_f_apart _ _ _ _ _ _ (by decide) (by decide)
  unfold State.ringWritten
  cases keep <;> cases stale <;> cases adv <;>
    simp (disch := first | decide | assumption | rfl) [State.setF_f_apart, counted, first]

theorem State.ringWritten_stat (x : Fld) (h : x.reg = .sprQstat) (hx : SPR_QSTAT.STALE_DB.apart x) :
    (s.ringWritten n cpl prod keep stale adv).f x n = s.f x n := by
  have cpl' : SPR_DB.CPL_CONS.apart x := .inl (by rw [h]; decide)
  have prod' : SPR_DB.PROD_IDX.apart x := .inl (by rw [h]; decide)
  have fits : ∀ y ∈ [SPR_DB.CPL_CONS, SPR_DB.PROD_IDX, SPR_QSTAT.STALE_DB], y.fits := by decide
  have kept : ∀ (t : State) (y : Fld) (v : Nat), y ∈ [SPR_DB.CPL_CONS, SPR_DB.PROD_IDX, SPR_QSTAT.STALE_DB] → y.apart x →
      (t.setF y n v).f x n = t.f x n := fun t y v hy => State.setF_f_apart t y x n n v (fits y hy)
  unfold State.ringWritten
  cases keep <;> cases stale <;> cases adv <;> simp [State.incSat_eq, kept, cpl', prod', hx]

theorem State.ringWritten_sprue : (s.ringWritten n cpl prod keep stale adv).work.sprue = s.work.sprue := by
  unfold State.ringWritten
  cases keep <;> cases stale <;> cases adv <;> simp

theorem State.leaves_ringWritten : Leaves [] (fun r i => (r = .sprDb ∨ r = .sprQstat) ∧ i = n) s
    (s.ringWritten n cpl prod keep stale adv) := by
  have first : Leaves [] (fun r i => (r = .sprDb ∨ r = .sprQstat) ∧ i = n) s
      (if keep then s else s.setF SPR_DB.CPL_CONS n cpl) := .ite (.refl _ _ s) ((Leaves.refl _ _ s).setF ⟨.inl rfl, rfl⟩)
  have second := Leaves.ite (c := stale = true) (first.incSat (x := SPR_QSTAT.STALE_DB) (i := n) (n := 1) ⟨.inr rfl, rfl⟩)
    first
  exact .ite (second.setF ⟨.inl rfl, rfl⟩) second

end

/-- PROD lies ahead of the last one and within the ring. -/
def State.advances (s : State) (n prod : Nat) : Bool :=
  decide (1 ≤ dist32 prod (s.f SPR_QSTAT.CONS_IDX n)) && decide (dist32 prod (s.f SPR_QSTAT.CONS_IDX n) ≤ s.subSize n)
    && decide (dist32 (s.f SPR_DB.PROD_IDX n) (s.f SPR_QSTAT.CONS_IDX n) < dist32 prod (s.f SPR_QSTAT.CONS_IDX n))

/-- CPL_CONS lies too far behind the next completion record. -/
def State.cplLate (s : State) (n cpl : Nat) : Bool := decide (s.cplSize n < dist32 (s.q n).nextCpl cpl)

/-- A doorbell that an instance and its queue take. -/
theorem State.doorbell_taken (s : State) (n cpl prod : Nat) (hen : s.fb SPR_QCFG.EN n = true)
    (h3 : s.f SPR_QSTAT.STATE n ≠ 3) (t : State)
    (ht : s.ringWritten n cpl prod (s.cplLate n cpl || s.f SPR_QSTAT.STATE n == 4)
      ((!s.advances n prod && prod != s.f SPR_DB.PROD_IDX n) || s.cplLate n cpl) (s.advances n prod) = t) :
    s.doorbell n cpl prod = if (s.advances n prod || prod == s.f SPR_DB.PROD_IDX n) && s.f SPR_QSTAT.STATE n != 4
      then (t.setPending n).showQueue n else t := by
  subst ht
  unfold State.doorbell State.ringWritten State.advances State.cplLate
  dsimp only
  rw [if_neg (by simp [hen, h3])]

theorem State.doorbell_ignored (s : State) (n cpl prod : Nat)
    (h : s.fb SPR_QCFG.EN n = false ∨ s.f SPR_QSTAT.STATE n = 3) : s.doorbell n cpl prod = s := by
  unfold State.doorbell
  dsimp only
  rw [if_pos]
  rcases h with h | h <;> simp [h]

/-- A whole doorbell write of a live device that the page takes. -/
theorem exec_doorbellWrite_whole (s : State) (m : Master) (q : Nat) (v : Word) (hq : q < 16384) (hl : s.live)
    (hp : s.pageOk (instOf q) m = true) : exec (.doorbellWrite m q .whole v) s =
      .next (if s.f SYS_INST.STATE (instOf q) = 0 then s else s.doorbell q (bits v.toNat 63 32) (bits v.toNat 31 0)) := by
  have may : s.permits .sprDb q m true (s.camPort .sprDb q .whole v.toNat) = true := by
    cases m <;> simpa [State.permits, hostBars] using hp
  have run : s.regWrite .sprDb q m .whole v.toNat = s.doorWrite q .whole v.toNat := by
    unfold State.regWrite
    rw [if_neg (by simp [hl.1]), State.live_open s _ hl, if_neg (by simp), if_neg (by simp [may])]
  rw [exec_doorbellWrite, execDoorbellWrite, isQueue, decide_eq_true hq, unit_true, run, State.doorWrite, joined]

/-- The pending bit is set and shown where a doorbell asks for it: the registers of the ring stay. -/
theorem State.shownPending_f (s : State) (n : Nat) (c : Prop) [Decidable c] (x : Fld) (h : SPR_QSTAT.STATE.apart x) :
    (if c then (s.setPending n).showQueue n else s).f x n = s.f x n := by
  split
  · rw [State.showQueue_f_apart _ _ _ _ h, State.setPending_f]
  · rfl

/-- Settles O14: a taken doorbell is `ringWritten`, with the pending bit where it advances or repeats. -/
theorem doorbellsAdvanceTheRing : Obligations.DoorbellsAdvanceTheRing := by
  intro s m q v hq hl hp
  have run := exec_doorbellWrite_whole s m q v hq hl hp
  have short : ∀ hi lo, hi + 1 - lo = 32 → bits v.toNat hi lo % 2 ^ 32 = bits v.toNat hi lo := fun hi lo e =>
    Nat.mod_eq_of_lt (e ▸ bits_lt v.toNat hi lo)
  have advances : ∀ prod, (1 ≤ dist32 prod (s.f SPR_QSTAT.CONS_IDX q) ∧ dist32 prod (s.f SPR_QSTAT.CONS_IDX q) ≤ s.subSize q
      ∧ dist32 (s.f SPR_DB.PROD_IDX q) (s.f SPR_QSTAT.CONS_IDX q) < dist32 prod (s.f SPR_QSTAT.CONS_IDX q))
      ↔ s.advances q prod = true := fun prod => by simp [State.advances, and_assoc]
  have late : ∀ cpl, s.cplSize q < dist32 (s.q q).nextCpl cpl ↔ s.cplLate q cpl = true := fun cpl => by
    simp [State.cplLate]
  refine ⟨fun off => ?_, fun inst en ok3 ok4 => ?_, fun inst en quiet => ?_⟩
  · rw [run]
    split
    · rfl
    · rename_i inst
      rw [State.doorbell_ignored _ _ _ _ (off.resolve_left inst)]
  · rw [if_neg inst, State.doorbell_taken s q _ _ en ok3 _ rfl] at run
    have open4 : (s.f SPR_QSTAT.STATE q == 4) = false := by simpa using ok4
    refine ⟨_, run, ?_⟩
    dsimp only
    simp only [advances, late, open4, bne, Bool.or_false, Bool.not_false, Bool.and_true]
    generalize hadv : s.advances q (bits v.toNat 31 0) = adv
    generalize hlate : s.cplLate q (bits v.toNat 63 32) = late
    have leaves : Leaves [.sprue] (fun r i => (r = .sprDb ∨ r = .sprQstat) ∧ i = q) s (s.ringWritten q (bits v.toNat 63 32)
        (bits v.toNat 31 0) late (!adv && !(bits v.toNat 31 0 == s.f SPR_DB.PROD_IDX q) || late) adv) :=
      (s.leaves_ringWritten ..).mono (by simp) fun _ _ e => e
    refine ⟨⟨fun h => ?_, fun h => ?_, fun h => ?_, fun h => ?_, fun h => ?_, fun h => ?_, ?_⟩, ?_,
      .ite ((leaves.setPending).showQueue ⟨.inr rfl, rfl⟩) leaves⟩
    · rw [State.shownPending_f _ _ _ _ (by decide), State.ringWritten_prod, if_pos h, short _ _ rfl]
    · rw [State.shownPending_f _ _ _ _ (by decide), State.ringWritten_prod, if_neg h]
    · rw [if_pos (by simpa using h), State.queuePending_of_sprue (congrArg _ (State.showQueue_work _ _))]
      exact State.queuePending_setPending _ _
    · rw [if_neg (by simpa using h), State.ringWritten_sprue]
    · rw [State.shownPending_f _ _ _ _ (by decide), State.ringWritten_cpl, if_neg h, short _ _ rfl]
    · rw [State.shownPending_f _ _ _ _ (by decide), State.ringWritten_cpl, if_pos h]
    · rw [State.shownPending_f _ _ _ _ (by decide), State.ringWritten_stale]
      simp
    · rw [State.shownPending_f _ _ _ _ (by decide), State.ringWritten_stat _ _ _ _ _ _ _ _ rfl (by decide)]
  · rw [if_neg inst, State.doorbell_taken s q _ _ en (by omega) _ rfl, quiet] at run
    simp only [bne_self_eq_false, Bool.and_false, Bool.false_eq_true, if_false] at run
    refine ⟨_, run, ?_⟩
    dsimp only
    simp only [advances, late]
    refine ⟨⟨fun h => ?_, fun h => ?_, ?_⟩, ?_, ?_, s.leaves_ringWritten ..⟩
    · rw [State.ringWritten_prod, if_pos h, short _ _ rfl]
    · rw [State.ringWritten_prod, if_neg h]
    · rw [State.ringWritten_stale]
      simp
    · rw [State.ringWritten_cpl, if_pos (by simp)]
    · rw [State.ringWritten_stat _ _ _ _ _ _ _ _ rfl (by decide), quiet]

end Sys2Proof.Machine
end

section
/-! PROOFS. Enabling and disabling a queue (R44, R224, R373). -/

set_option Elab.async false

namespace Sys2Proof.Machine

/-- The written queue configuration, with EN set. -/
def State.cfgWritten (s : State) (q : Nat) (v : Word) : State :=
  s.setR .sprQcfg q (s.merged .sprQcfg q .whole (withBit v 63))

section
variable (s : State) (q : Nat) (v : Word)

theorem bits_withBit_below (hi lo : Nat) (h : hi < 63) : bits (withBit v 63) hi lo = bits v.toNat hi lo :=
  bits_putBits_below _ _ _ _ _ _ (by omega) h

theorem State.cfgWritten_f (x : Fld) (hx : x.reg = .sprQcfg) (hm : (x.hi, x.lo, FKind.rw) ∈ Reg.fields .sprQcfg) :
    (s.cfgWritten q v).f x q = bits (withBit v 63) x.hi x.lo := by
  unfold State.cfgWritten
  rw [← hx, State.setR_f _ _ _ _ (s.merged_lt _ _ _ _), hx, State.merged_rw s .sprQcfg q .whole _ _ _ hm]
  rfl

theorem State.cfgWritten_en : (s.cfgWritten q v).fb SPR_QCFG.EN q = true := by
  refine State.fb_of_f ?_
  rw [State.cfgWritten_f s q v _ rfl (by decide)]
  exact bits_withBit v 63

theorem State.cfgWritten_apart (x : Fld) (k : Nat) (hx : x.reg ≠ .sprQcfg) : (s.cfgWritten q v).f x k = s.f x k := by
  unfold State.f State.cfgWritten
  rw [State.setR_r, if_neg fun e => hx e.1]

/-- The enabling write of a queue that is not enabled takes its configuration and enables it. -/
theorem exec_queueEnable_accepted (m : Master) (hq : q < 16384) (a : s.accepts .sprQcfg q m .whole (withBit v 63)) :
    exec (.queueEnable m q v) s = .next ((s.cfgWritten q v).enableQueue q) := by
  have rises : rises (s.r .sprQcfg q) (s.newValue .sprQcfg q .whole (withBit v 63)) 63 = true := by
    have new : bit (s.newValue .sprQcfg q .whole (withBit v 63)) 63 = true := by
      have := State.merged_rw s .sprQcfg q .whole (withBit v 63) 63 63 (by simp [Reg.fieldsAt, Reg.fields])
      simp only [bit, State.newValue, this, joined, bits_withBit, beq_self_eq_true]
    have off := a.2.2.2.2.1
    simp only [State.enBusy, enField, guardField, Bool.or_false, SPR_QCFG.EN, new, Bool.and_true] at off
    simp only [Sys2Proof.Machine.rises, new, Bool.and_true, Bool.not_eq_true']
    exact off
  rw [exec_queueEnable, execQueueEnable, isQueue, decide_eq_true hq, unit_true,
    State.regWrite_accepted s .sprQcfg q m .whole _ (by decide) (by decide) a,
    State.takeWrite_plain s .sprQcfg q m .whole _ _ _ (by simp [State.hitsLock, Reg.fieldsAt, Reg.fields])]
  simp only [State.afterWrite, rises, if_true]
  rfl

end

/-- Where an enable leaves STATE, the error code and the completion slots, before the indices. -/
def State.queueOpened (s : State) (n : Nat) : State :=
  ((s.setF SPR_QSTAT.STATE n (if s.f SYS_INST.STATE (instOf n) = 2 || s.f SYS_INST.STATE (instOf n) = 3 then 4 else 0)).setF
    SPR_QSTAT.ERR_CODE n 0).modQ n
      fun q => { q with reserved := (s.queueJobs n).countP (fun x => x.slot), preQuiesce := 0 }

section
variable (s : State) (n : Nat)

theorem State.enableQueue_plain (h : s.fb SPR_QRESTORE1.VALID n = false) :
    s.enableQueue n = ((s.queueOpened n).enableIdx n).showQueue n := by
  unfold State.enableQueue State.queueOpened
  simp only [h, Bool.false_and, Bool.false_eq_true, if_false]

theorem State.enableQueue_restored (h : s.fb SPR_QRESTORE1.VALID n = true) (ok : s.restoreOk n = true) (t : State)
    (ht : (s.queueOpened n).enableIdx n = t) :
    s.enableQueue n = (if t.f SPR_DB.PROD_IDX n != t.f SPR_QSTAT.CONS_IDX n && t.f SPR_QSTAT.STATE n != 4
      then t.setPending n else t).showQueue n := by
  subst ht
  unfold State.enableQueue State.queueOpened
  simp only [h, ok, Bool.true_and, Bool.not_true, Bool.and_false, Bool.false_eq_true, if_false]

theorem State.enableQueue_bad (h : s.fb SPR_QRESTORE1.VALID n = true) (bad : s.restoreOk n = false) :
    s.enableQueue n = ((s.queueOpened n).enableIdx n).queueError n stMalformed := by
  unfold State.enableQueue State.queueOpened
  simp only [h, bad, Bool.true_and, Bool.not_false, if_true]

theorem State.queueOpened_f (x : Fld) (k : Nat) (hs : SPR_QSTAT.STATE.apart x) (he : SPR_QSTAT.ERR_CODE.apart x) :
    (s.queueOpened n).f x k = s.f x k := by
  unfold State.queueOpened
  rw [State.modQ_f, State.setF_f_apart _ _ _ _ _ _ (by decide) he, State.setF_f_apart _ _ _ _ _ _ (by decide) hs]

theorem State.queueOpened_err : (s.queueOpened n).f SPR_QSTAT.ERR_CODE n = 0 := by
  unfold State.queueOpened
  rw [State.modQ_f, State.setF_f_width _ _ _ _ 8 (by decide) rfl, Nat.zero_mod]

theorem State.queueOpened_state : (s.queueOpened n).f SPR_QSTAT.STATE n
    = if s.f SYS_INST.STATE (instOf n) = 2 ∨ s.f SYS_INST.STATE (instOf n) = 3 then 4 else 0 := by
  unfold State.queueOpened
  rw [State.modQ_f, State.setF_f_apart _ _ _ _ _ _ (by decide) (by decide), State.setF_f_width _ _ _ _ 8 (by decide) rfl]
  simp only [Bool.or_eq_true, decide_eq_true_eq]
  split <;> rfl

theorem State.leaves_queueOpened :
    Leaves [.queues] (fun r i => (r = .sprQcfg ∨ r = .sprQstat ∨ r = .sprDb) ∧ i = n) s (s.queueOpened n) :=
  .modQ (.setF (.setF (.refl _ _ s) (by simp [SPR_QSTAT.STATE])) (by simp [SPR_QSTAT.ERR_CODE]))

/-- Without VALID the ring stands empty at PROD and the completion ring at 0. -/
theorem State.enableIdx_plain (h : s.fb SPR_QRESTORE1.VALID n = false) (t : State) (ht : s.enableIdx n = t) :
    t.f SPR_QSTAT.CONS_IDX n = s.f SPR_DB.PROD_IDX n ∧ t.f SPR_DB.PROD_IDX n = s.f SPR_DB.PROD_IDX n
      ∧ t.f SPR_DB.CPL_CONS n = 0 ∧ (t.q n).nextCpl = 0 ∧ t.work.jobs = s.work.jobs ∧ t.work.sprue = s.work.sprue
      ∧ Leaves [.queues] (fun r i => (r = .sprQcfg ∨ r = .sprQstat ∨ r = .sprDb) ∧ i = n) s t := by
  have prod : s.f SPR_DB.PROD_IDX n % 2 ^ 32 = s.f SPR_DB.PROD_IDX n := Nat.mod_eq_of_lt (State.f_lt s SPR_DB.PROD_IDX n)
  subst ht
  unfold State.enableIdx
  rw [if_neg (by simp [h])]
  refine ⟨?_, ?_, ?_, ?_, by simp [State.modQ], by simp [State.modQ],
    .modQ (.setF (.setF (.refl _ _ s) (by simp [SPR_QSTAT.CONS_IDX])) (by simp [SPR_DB.CPL_CONS]))⟩
  · rw [State.modQ_f, State.setF_f_apart _ _ _ _ _ _ (by decide) (by decide), State.setF_f_width _ _ _ _ 32 (by decide) rfl,
      prod]
  · rw [State.modQ_f, State.setF_f_apart _ _ _ _ _ _ (by decide) (by decide),
      State.setF_f_apart _ _ _ _ _ _ (by decide) (by decide)]
  · rw [State.modQ_f, State.setF_f_width _ _ _ _ 32 (by decide) rfl, Nat.zero_mod]
  · rw [State.modQ_same]

/-- With VALID the restored indices are taken, and VALID clears. -/
theorem State.enableIdx_restored (h : s.fb SPR_QRESTORE1.VALID n = true) (t : State) (ht : s.enableIdx n = t) :
    t.f SPR_QSTAT.CONS_IDX n = s.f SPR_QRESTORE0.CONS_IDX n ∧ t.f SPR_DB.PROD_IDX n = s.f SPR_QRESTORE0.PROD_IDX n
      ∧ t.f SPR_DB.CPL_CONS n = s.f SPR_QRESTORE2.CPL_CONS n ∧ (t.q n).nextCpl = s.f SPR_QRESTORE1.CPL_PROD n
      ∧ t.f SPR_QRESTORE1.VALID n = 0
      ∧ Leaves [.queues] (fun r i => (r = .sprQcfg ∨ r = .sprQstat ∨ r = .sprDb ∨ r = .sprQrestore1) ∧ i = n) s t := by
  have cons := Nat.mod_eq_of_lt (State.f_lt s SPR_QRESTORE0.CONS_IDX n)
  have prod := Nat.mod_eq_of_lt (State.f_lt s SPR_QRESTORE0.PROD_IDX n)
  have cpl := Nat.mod_eq_of_lt (State.f_lt s SPR_QRESTORE2.CPL_CONS n)
  subst ht
  unfold State.enableIdx
  rw [if_pos h]
  refine ⟨?_, ?_, ?_, ?_, ?_, .setF (.modQ (.setF (.setF (.setF (.refl _ _ s) (by simp [SPR_QSTAT.CONS_IDX]))
    (by simp [SPR_DB.PROD_IDX])) (by simp [SPR_DB.CPL_CONS]))) (by simp [SPR_QRESTORE1.VALID])⟩
  · simp (disch := decide) only [State.modQ_f, State.setF_f_apart, State.setF_f_same]
    exact cons
  · simp (disch := decide) only [State.modQ_f, State.setF_f_apart, State.setF_f_same]
    exact prod
  · simp (disch := decide) only [State.modQ_f, State.setF_f_apart, State.setF_f_same]
    exact cpl
  · rw [State.setF_q, State.modQ_same]
  · rw [State.setF_f_width _ _ _ _ 1 (by decide) rfl, Nat.zero_mod]

/-- The indices are the ring's registers and VALID alone. -/
theorem State.enableIdx_f (x : Fld) (h : ∀ y ∈ [SPR_QSTAT.CONS_IDX, SPR_DB.PROD_IDX, SPR_DB.CPL_CONS,
    SPR_QRESTORE1.VALID], y.apart x) : (s.enableIdx n).f x n = s.f x n := by
  have kept : ∀ (t : State) (y : Fld) (v : Nat), y ∈ [SPR_QSTAT.CONS_IDX, SPR_DB.PROD_IDX, SPR_DB.CPL_CONS,
      SPR_QRESTORE1.VALID] → (t.setF y n v).f x n = t.f x n := fun t y v hy =>
    State.setF_f_apart _ _ _ _ _ _ ((by decide : ∀ y ∈ [SPR_QSTAT.CONS_IDX, SPR_DB.PROD_IDX, SPR_DB.CPL_CONS,
      SPR_QRESTORE1.VALID], y.fits) y hy) (h y hy)
  unfold State.enableIdx
  split <;> simp [kept]

end

/-- Restored indices that lie within the rings, as the written configuration makes them. -/
theorem State.restoreOk_cfgWritten (s : State) (q : Nat) (v : Word) : (s.cfgWritten q v).restoreOk q = true ↔
    dist32 (s.f SPR_QRESTORE0.PROD_IDX q) (s.f SPR_QRESTORE0.CONS_IDX q) ≤ 2 ^ (bits v.toNat 59 56 + 6)
      ∧ dist32 (s.f SPR_QRESTORE1.CPL_PROD q) (s.f SPR_QRESTORE2.CPL_CONS q) ≤ 2 ^ (bits v.toNat 55 52 + 6) := by
  have sub : (s.cfgWritten q v).f SPR_QCFG.SUB_LOG2 q = bits v.toNat 59 56 :=
    (s.cfgWritten_f q v _ rfl (by decide)).trans (bits_withBit_below v _ _ (by decide))
  have cpl : (s.cfgWritten q v).f SPR_QCFG.CPL_LOG2 q = bits v.toNat 55 52 :=
    (s.cfgWritten_f q v _ rfl (by decide)).trans (bits_withBit_below v _ _ (by decide))
  unfold State.restoreOk State.subSize State.cplSize
  rw [sub, cpl, State.cfgWritten_apart _ _ _ _ _ (by decide), State.cfgWritten_apart _ _ _ _ _ (by decide),
    State.cfgWritten_apart _ _ _ _ _ (by decide), State.cfgWritten_apart _ _ _ _ _ (by decide), Bool.and_eq_true,
    decide_eq_true_eq, decide_eq_true_eq]

theorem State.leaves_cfgWritten (s : State) (q : Nat) (v : Word) : Leaves [] (oneReg .sprQcfg q) s (s.cfgWritten q v) :=
  (Leaves.refl _ _ s).setR ⟨rfl, rfl⟩

/-- The clearing write of a queue takes EN alone and disables it. -/
theorem exec_queueDisable_clears (s : State) (m : Master) (q : Nat) (v : Word) (hq : q < 16384)
    (a : s.clears .sprQcfg q m .whole (withoutBit v 63) SPR_QCFG.EN) :
    exec (.queueDisable m q v) s = .next ((s.setF SPR_QCFG.EN q 0).disableQueue q) := by
  have on : s.fb SPR_QCFG.EN q = true := by
    have := a.2.2.2.1
    simp only [State.clearsEn, enField] at this
    split at this
    · rename_i h
      exact (Bool.and_eq_true_iff.mp h).1
    · cases this
  have off : bit (putBits (s.r .sprQcfg q) 63 63 0) 63 = false := by
    simp [bit, bits_putBits]
  have fell : falls (s.r .sprQcfg q) (putBits (s.r .sprQcfg q) 63 63 0) 63 = true := by
    simp only [falls, off, Bool.not_false, Bool.and_true]
    exact on
  have norise : rises (s.r .sprQcfg q) (putBits (s.r .sprQcfg q) 63 63 0) 63 = false := by
    simp only [rises, off, Bool.and_false]
  rw [exec_queueDisable, execQueueDisable, isQueue, decide_eq_true hq, unit_true,
    State.regWrite_clears s .sprQcfg q m .whole _ _ (by decide) (by decide) a]
  simp only [SPR_QCFG.EN, State.afterWrite, fell, norise, Bool.false_eq_true, if_false, if_true, State.setF]

/-- What a queue holds after a configuration write and the opening. -/
theorem State.opened_jobs (s : State) (q : Nat) (v : Word) : ((s.cfgWritten q v).queueOpened q).work.jobs = s.work.jobs := by
  simp [State.cfgWritten, State.queueOpened, State.modQ]

theorem State.opened_sprue (s : State) (q : Nat) (v : Word) : ((s.cfgWritten q v).queueOpened q).work.sprue = s.work.sprue := by
  simp [State.cfgWritten, State.queueOpened, State.modQ]

/-- A register that neither the configuration nor the opening writes. -/
theorem State.opened_f (s : State) (q k : Nat) (v : Word) (x : Fld) (hx : x.reg ≠ .sprQcfg)
    (hs : SPR_QSTAT.STATE.apart x) (he : SPR_QSTAT.ERR_CODE.apart x) :
    ((s.cfgWritten q v).queueOpened q).f x k = s.f x k := by
  rw [State.queueOpened_f _ _ _ _ hs he, State.cfgWritten_apart _ _ _ _ _ hx]

/-- EN is set once the queue has its indices. -/
theorem State.indexed_en (s : State) (q : Nat) (v : Word) :
    (((s.cfgWritten q v).queueOpened q).enableIdx q).f SPR_QCFG.EN q = 1 := by
  rw [State.enableIdx_f _ _ _ (by decide), State.queueOpened_f _ _ _ _ (by decide) (by decide)]
  exact beq_iff_eq.mp (s.cfgWritten_en q v)

/-- Settles O15: an enable takes the configuration, then the indices (`enableIdx`), and shows the queue. -/
theorem enablingAQueueSetsItsIndices : Obligations.EnablingAQueueSetsItsIndices := by
  have valid_kept : ∀ (s : State) (q : Nat) (v : Word),
      (s.cfgWritten q v).fb SPR_QRESTORE1.VALID q = s.fb SPR_QRESTORE1.VALID q := fun s q v => by
    rw [State.fb_eq, State.fb_eq, State.cfgWritten_apart _ _ _ _ _ (by decide)]
  have valid_open : ∀ (s : State) (q : Nat) (v : Word),
      ((s.cfgWritten q v).queueOpened q).fb SPR_QRESTORE1.VALID q = s.fb SPR_QRESTORE1.VALID q := fun s q v => by
    rw [State.fb_eq, State.fb_eq, State.opened_f _ _ _ _ _ (by decide) (by decide) (by decide)]
  have opened : ∀ (s : State) (q : Nat) (v : Word), Leaves [.queues] (fun r i => (r = .sprQcfg ∨ r = .sprQstat ∨ r = .sprDb) ∧ i = q)
      s ((s.cfgWritten q v).queueOpened q) := fun s q v =>
    ((s.leaves_cfgWritten q v).mono (by simp) fun _ _ e => ⟨.inl e.1, e.2⟩).trans (State.leaves_queueOpened _ _)
  refine ⟨fun s m q v hq a plain => ?_, fun s m q v hq a valid sub cpl => ?_, fun s m q v hq a valid sub => ?_,
    fun s m q v hq c => ?_⟩
  · have run := exec_queueEnable_accepted s q v m hq a
    rw [State.enableQueue_plain _ _ ((valid_kept s q v).trans plain)] at run
    obtain ⟨cons, prod, cpl, next, jobs, sprue, leaves⟩ := State.enableIdx_plain _ q ((valid_open s q v).trans plain) _ rfl
    refine ⟨_, run, ?_, ?_, ?_, ?_, ?_, ?_, ?_, ?_, fun quiet => ?_, fun active jobless nobits noready => ?_,
      .showQueue ((opened s q v).trans leaves) ⟨.inr (.inl rfl), rfl⟩⟩
    · exact State.fb_of_f ((State.showQueue_f_apart _ _ _ _ (by decide)).trans (s.indexed_en q v))
    · rw [State.showQueue_f_apart _ _ _ _ (by decide), State.enableIdx_f _ _ _ (by decide),
        State.queueOpened_f _ _ _ _ (by decide) (by decide), State.cfgWritten_f _ _ _ _ rfl (by decide)]
      exact bits_withBit_below v _ _ (by decide)
    · rw [State.showQueue_f_apart _ _ _ _ (by decide), State.enableIdx_f _ _ _ (by decide),
        State.queueOpened_f _ _ _ _ (by decide) (by decide), State.cfgWritten_f _ _ _ _ rfl (by decide)]
      exact bits_withBit_below v _ _ (by decide)
    · rw [State.showQueue_f_apart _ _ _ _ (by decide), cons, State.opened_f _ _ _ _ _ (by decide) (by decide) (by decide)]
    · rw [State.showQueue_f_apart _ _ _ _ (by decide), prod, State.opened_f _ _ _ _ _ (by decide) (by decide) (by decide)]
    · rw [State.showQueue_f_apart _ _ _ _ (by decide), cpl]
    · rw [State.showQueue_q, next]
    · rw [State.showQueue_f_apart _ _ _ _ (by decide), State.enableIdx_f _ _ _ (by decide), State.queueOpened_err]
    · have four : (((s.cfgWritten q v).queueOpened q).enableIdx q).f SPR_QSTAT.STATE q = 4 := by
        rw [State.enableIdx_f _ _ _ (by decide), State.queueOpened_state, if_pos]
        rwa [State.cfgWritten_apart _ _ _ _ _ (by decide)]
      rw [State.showQueue_stands _ _ (.inr four), four]
    · have zero : (((s.cfgWritten q v).queueOpened q).enableIdx q).f SPR_QSTAT.STATE q = 0 := by
        rw [State.enableIdx_f _ _ _ (by decide), State.queueOpened_state, if_neg]
        rw [State.cfgWritten_apart _ _ _ _ _ (by decide), active]
        decide
      rw [State.opened_sprue] at sprue
      refine State.showQueue_idle _ _ (by omega) (by omega) ?_ ?_ ?_
      · unfold State.queueJobs
        rw [jobs, State.opened_jobs]
        exact jobless
      · rwa [State.queuePending_of_sprue sprue]
      · rwa [sprue]
  · have run := exec_queueEnable_accepted s q v m hq a
    rw [State.enableQueue_restored _ _ ((valid_kept s q v).trans valid) ((s.restoreOk_cfgWritten q v).mpr ⟨sub, cpl⟩) _ rfl]
      at run
    obtain ⟨cons, prod, cpl, next, cleared, leaves⟩ :=
      State.enableIdx_restored _ q ((valid_open s q v).trans valid) _ rfl
    have en := s.indexed_en q v
    have state := (State.enableIdx_f _ q SPR_QSTAT.STATE (by decide)).trans ((s.cfgWritten q v).queueOpened_state q)
    generalize ((s.cfgWritten q v).queueOpened q).enableIdx q = t at run cons prod cpl next cleared leaves en state
    rw [State.opened_f _ _ _ _ _ (by decide) (by decide) (by decide)] at cons prod cpl next
    have pended : ∀ (c : Bool) (x : Fld), (if c then t.setPending q else t).f x q = t.f x q := fun c x => by
      split
      · exact State.setPending_f _ _ _ _
      · rfl
    have whole : Leaves [.queues, .sprue]
        (fun r i => (r = .sprQcfg ∨ r = .sprQstat ∨ r = .sprDb ∨ r = .sprQrestore1) ∧ i = q) s t :=
      ((opened s q v).mono (by simp) fun _ _ e => ⟨by tauto, e.2⟩).trans (leaves.mono (by simp) fun _ _ e => e)
    refine ⟨_, run, ?_, ?_, ?_, ?_, ?_, ?_, fun work active => ?_,
      .showQueue (.ite whole.setPending whole) ⟨.inr (.inl rfl), rfl⟩⟩
    · exact State.fb_of_f (by rw [State.showQueue_f_apart _ _ _ _ (by decide), pended, en])
    · rw [State.fb_eq, State.showQueue_f_apart _ _ _ _ (by decide), pended, cleared]
      rfl
    · rw [State.showQueue_f_apart _ _ _ _ (by decide), pended, cons]
    · rw [State.showQueue_f_apart _ _ _ _ (by decide), pended, prod]
    · rw [State.showQueue_f_apart _ _ _ _ (by decide), pended, cpl]
    · rw [State.showQueue_q]
      split
      · rw [State.setPending_q, next]
      · exact next
    · rw [State.queuePending_of_sprue (congrArg _ (State.showQueue_work _ _)), if_pos]
      · exact State.queuePending_setPending _ _
      · rw [State.cfgWritten_apart _ _ _ _ _ (by decide), active] at state
        rw [cons, prod, state]
        simp [work]
  · have run := exec_queueEnable_accepted s q v m hq a
    have bad : (s.cfgWritten q v).restoreOk q = false := by
      rw [Bool.eq_false_iff, ne_eq, State.restoreOk_cfgWritten]
      omega
    rw [State.enableQueue_bad _ _ ((valid_kept s q v).trans valid) bad] at run
    obtain ⟨-, -, -, -, cleared, -⟩ := State.enableIdx_restored _ q ((valid_open s q v).trans valid) _ rfl
    refine ⟨_, run, ?_, ?_, State.queueError_state _ _ _,
      (State.queueError_code _ _ _).trans (by decide), State.not_queuePending_queueError _ _ _⟩
    · exact State.fb_of_f (by rw [State.queueError_f _ _ _ _ _ (by decide) (by decide), s.indexed_en q v])
    · rw [State.fb_eq, State.queueError_f _ _ _ _ _ (by decide) (by decide), cleared]
      rfl
  · have run := exec_queueDisable_clears s m q v hq c
    unfold State.disableQueue at run
    have kept : ∀ x : Fld, SPR_QCFG.EN.apart x → ((s.setF SPR_QCFG.EN q 0).clearSprue q).f x q = s.f x q := fun x hx => by
      rw [State.clearSprue_f, State.setF_f_apart _ _ _ _ _ _ (by decide) hx]
    have cfg : ((s.setF SPR_QCFG.EN q 0).clearSprue q).r .sprQcfg q = putBits (s.r .sprQcfg q) 63 63 0 := by
      rw [State.clearSprue_r]
      exact s.setF_r_same SPR_QCFG.EN q 0 (by decide)
    refine ⟨_, run, ?_, fun stands => ?_, fun n3 n4 jobs => ?_, ?_, ?_, ?_, ?_, .showQueue
      (.clearSprue (.setF (.refl _ _ s) ⟨.inl rfl, rfl⟩)) ⟨.inr rfl, rfl⟩⟩
    · rw [State.fb_eq, State.showQueue_f_apart _ _ _ _ (by decide), State.clearSprue_f,
        State.setF_f_width _ _ _ _ 1 (by decide) rfl]
      rfl
    · rw [State.showQueue_stands _ _ (by rwa [kept _ (by decide)]), kept _ (by decide)]
    · have held : ((s.setF SPR_QCFG.EN q 0).clearSprue q).queueJobs q = s.queueJobs q := by
        simp only [State.queueJobs, State.clearSprue, State.modSprue, State.setF_work]
      refine State.showQueue_idle _ _ (by rwa [kept _ (by decide)]) (by rwa [kept _ (by decide)]) (held.trans jobs)
        (State.not_queuePending_clearSprue _ _) (State.not_ready_clearSprue _ _)
    · rw [State.showQueue_f_apart _ _ _ _ (by decide), kept _ (by decide)]
    · rw [State.queuePending_of_sprue (congrArg _ (State.showQueue_work _ _))]
      exact State.not_queuePending_clearSprue _ _
    · rw [State.showQueue_work]
      exact State.not_ready_clearSprue _ _
    · rw [State.showQueue_r _ _ _ _ (by decide), cfg, bits_putBits_below _ _ _ _ _ _ (by decide) (by decide)]

end Sys2Proof.Machine
end

section
/-! PROOFS. Frames of the operations that change one part of the state. -/

set_option Elab.async false

namespace Sys2Proof.Machine

section
variable {ps : List Part} {q : Reg → Nat → Prop} {b s t : State}

/-- A change of one listed part. -/
theorem Leaves.one (p : Part) (h : Leaves ps q b s) (hp : p ∈ ps)
    (hs : ∀ p', p' ≠ p → p'.same s t := by intro p' hn; cases p' <;> first | rfl | exact absurd rfl hn)
    (hr : t.regs = s.regs := by rfl) : Leaves ps q b t :=
  h.parts (fun p' hn => hs p' fun e => hn (e ▸ hp)) hr

theorem Leaves.modArr {a : Nat} {g : ArraySt → ArraySt} (h : Leaves ps q b s) (hp : .arrays ∈ ps := by simp) : Leaves ps q b (s.modArr a g) :=
  h.one .arrays hp

theorem Leaves.modFlask {f : Nat} {g : FlaskSt → FlaskSt} (h : Leaves ps q b s) (hp : .flasks ∈ ps := by simp) : Leaves ps q b (s.modFlask f g) :=
  h.one .flasks hp

theorem Leaves.modVec {e : Nat} {g : VecSt → VecSt} (h : Leaves ps q b s) (hp : .vecs ∈ ps := by simp) : Leaves ps q b (s.modVec e g) :=
  h.one .vecs hp

theorem Leaves.modRt {c : Nat} {g : RtSt → RtSt} (h : Leaves ps q b s) (hp : .rts ∈ ps := by simp) : Leaves ps q b (s.modRt c g) :=
  h.one .rts hp

theorem Leaves.modPour {g : PourSt → PourSt} (h : Leaves ps q b s) (hp : .pour ∈ ps := by simp) : Leaves ps q b (s.modPour g) :=
  h.one .pour hp

theorem Leaves.modJob {j : Nat} {g : Job → Job} (h : Leaves ps q b s) (hp : .jobs ∈ ps := by simp) : Leaves ps q b (s.modJob j g) :=
  h.one .jobs hp

theorem Leaves.modJobs {p : Job → Bool} {g : Job → Job} (h : Leaves ps q b s) (hp : .jobs ∈ ps := by simp) : Leaves ps q b (s.modJobs p g) :=
  h.one .jobs hp

theorem Leaves.setCtx {c : Nat} {x : Ctx} (h : Leaves ps q b s) (hp : .ctxs ∈ ps := by simp) : Leaves ps q b (s.setCtx c x) :=
  h.one .ctxs hp

theorem Leaves.modDisp {o : Nat} {g : DispSt → DispSt} (h : Leaves ps q b s) (hp : .disps ∈ ps := by simp) : Leaves ps q b (s.modDisp o g) :=
  h.one .disps hp

theorem Leaves.modCan {c : Nat} {g : CanSt → CanSt} (h : Leaves ps q b s) (hp : .can ∈ ps := by simp) : Leaves ps q b (s.modCan c g) :=
  h.one .can hp

theorem Leaves.modTun {k : Nat} {g : Tunnel → Tunnel} (h : Leaves ps q b s) (hp : .tunnels ∈ ps := by simp) : Leaves ps q b (s.modTun k g) :=
  h.one .tunnels hp

theorem Leaves.modWsk {p : Nat} {g : WskSt → WskSt} (h : Leaves ps q b s) (hp : .wsk ∈ ps := by simp) : Leaves ps q b (s.modWsk p g) :=
  h.one .wsk hp

theorem Leaves.modFw {p : Nat} {g : FwProc → FwProc} (h : Leaves ps q b s) (hp : .fw ∈ ps := by simp) : Leaves ps q b (s.modFw p g) :=
  h.one .fw hp

theorem Leaves.modTrust {g : TrustSt → TrustSt} (h : Leaves ps q b s) (hp : .trust ∈ ps := by simp) : Leaves ps q b (s.modTrust g) :=
  h.one .trust hp

theorem Leaves.modMove {k : Nat} {g : Move → Move} (h : Leaves ps q b s) (hp : .moves ∈ ps := by simp) : Leaves ps q b (s.modMove k g) :=
  h.one .moves hp

theorem Leaves.modTraj {g : TrajSt → TrajSt} (h : Leaves ps q b s) (hp : .traj ∈ ps := by simp) : Leaves ps q b (s.modTraj g) :=
  h.one .traj hp

theorem Leaves.setCb {k : Nat} {x : CbSt} (h : Leaves ps q b s) (hp : .cbs ∈ ps := by simp) : Leaves ps q b (s.setCb k x) :=
  h.one .cbs hp

theorem Leaves.setArr {a : Nat} {x : ArraySt} (h : Leaves ps q b s) (hp : .arrays ∈ ps := by simp) :
    Leaves ps q b (s.setArr a x) := h.one .arrays hp

theorem Leaves.fresh (h : Leaves ps q b s) (hp : .freeCtr ∈ ps := by simp) : Leaves ps q b s.fresh.2 := h.one .freeCtr hp

theorem Leaves.freshBytes {n : Nat} (h : Leaves ps q b s) (hp : .freeCtr ∈ ps := by simp) :
    Leaves ps q b (s.freshBytes n).2 := h.one .freeCtr hp

/-- A job ends. -/
theorem Leaves.endJob {j st : Nat} {d : Option Nat} (h : Leaves ps q b s) (hp : .jobs ∈ ps := by simp) :
    Leaves ps q b (s.endJob j st d) := h.modJob hp

theorem Leaves.dropTiles {f j : Nat} (h : Leaves ps q b s) (hp : .flasks ∈ ps := by simp) :
    Leaves ps q b (s.dropTiles f j) := h.modFlask hp

end

/-! ## A job among the jobs -/

section
variable {s : State} {j : Nat} {x : Job}

theorem State.id_of_job (h : s.job j = some x) : x.id = j := by
  have := List.find?_some h
  simpa using this

/-- A change of one job leaves the others. -/
theorem State.modJob_job_ne (s : State) (j k : Nat) (g : Job → Job) (hg : ∀ x, (g x).id = x.id) (hk : k ≠ j) :
    (s.modJob j g).job k = s.job k := by
  unfold State.job State.modJob
  induction s.work.jobs with
  | nil => rfl
  | cons y ys ih =>
    dsimp only at ih ⊢
    rw [List.map_cons]
    by_cases hy : y.id = j
    · rw [if_pos hy, List.find?_cons_of_neg (by simp [hg, hy, Ne.symm hk]), List.find?_cons_of_neg (by simp [hy, Ne.symm hk])]
      exact ih
    · rw [if_neg hy]
      by_cases hyk : y.id = k
      · rw [List.find?_cons_of_pos (by simpa using hyk), List.find?_cons_of_pos (by simpa using hyk)]
      · rw [List.find?_cons_of_neg (by simpa using hyk), List.find?_cons_of_neg (by simpa using hyk)]
        exact ih

theorem JobTo.of_modJob (g : Job → Job) (hg : ∀ x, (g x).id = x.id) (h : s.job j = some x) : JobTo j (g x) s (s.modJob j g) :=
  ⟨s.modJob_job j g hg x h, fun _ hk => s.modJob_job_ne j _ g hg hk⟩

theorem JobTo.of_endJob (st : Nat) (d : Option Nat) (h : s.job j = some x) (open_ : x.phase ≠ .ended) :
    JobTo j (x.over st d) s (s.endJob j st d) := by
  have := JobTo.of_modJob (fun x => if x.phase = .ended then x else { x with phase := .ended, status := st, detail := d })
    (fun x => by split <;> rfl) h
  rwa [if_neg open_] at this

/-- Jobs seen through a change beside them. -/
theorem JobTo.trans_same {y : Job} {t u : State} (h : JobTo j y s t) (same : u.work.jobs = t.work.jobs) : JobTo j y s u := by
  have eq : ∀ k, u.job k = t.job k := fun k => by rw [State.job, State.job, same]
  exact ⟨(eq j).trans h.1, fun k hk => (eq k).trans (h.2 k hk)⟩

theorem JobTo.after_same {y : Job} {t u : State} (same : t.work.jobs = s.work.jobs) (h : JobTo j y t u) : JobTo j y s u :=
  ⟨h.1, fun k hk => (h.2 k hk).trans (by rw [State.job, State.job, same])⟩

theorem State.job_of_jobs {s t : State} (h : t.work.jobs = s.work.jobs) (k : Nat) : t.job k = s.job k := by
  rw [State.job, State.job, h]

end

end Sys2Proof.Machine
end

section
/-! PROOFS. What reading and checking a job's records changes: its accesses alone. -/

set_option Elab.async false

namespace Sys2Proof.Machine

section
variable {ps : List Part} {q : Reg → Nat → Prop} {b s : State}

theorem Leaves.of_eq {α : Type} {p : α × State} {a : α} (e : p = (a, s)) (h : Leaves ps q b p.2) : Leaves ps q b s := by
  subst e
  exact h

theorem Leaves.iteSnd {α : Type} {c : Prop} [Decidable c] {p t : α × State} (h : Leaves ps q b p.2) (g : Leaves ps q b t.2) :
    Leaves ps q b (if c then p else t).2 := by
  split
  · exact h
  · exact g

theorem Accessed.instRead {inst va n : Nat} (h : Accessed b s) : Accessed b (instRead s inst va n).2 :=
  h.trans (accessed_instRead ..)

theorem Accessed.readOffL {inst base : Nat} {cs : List (Nat × Nat)} (h : Accessed b s) :
    Accessed b (readOffL inst base cs s).2 := by
  induction cs generalizing s with
  | nil => exact h
  | cons c cs ih =>
    unfold Machine.readOffL
    split
    · rename_i e
      have rest := ih (.of_eq e h.instRead)
      split
      · rename_i e'
        exact .of_eq e' rest
      · exact rest
    · rename_i e
      exact .of_eq e h.instRead

theorem Accessed.readOff {inst va n : Nat} (h : Accessed b s) : Accessed b (readOff s inst va n).2 :=
  h.readOffL

theorem Accessed.hasStage1 {inst : Nat} (h : Accessed b s) : Accessed b (s.hasStage1 inst).2 := by
  have ctx := h.trans (accessed_devCtx s (s.instFlask inst) inst)
  unfold State.hasStage1
  split
  · exact h
  · exact h
  · split <;> rename_i e <;> exact .of_eq e ctx

theorem Accessed.unsupported {x : Job} (h : Accessed b s) : Accessed b (s.unsupported x).2 :=
  .iteSnd h (.iteSnd h (.iteSnd h (.iteSnd h (.iteSnd h.hasStage1 h))))

theorem Accessed.progBad {x : Job} {d : List Nat} (h : Accessed b s) : Accessed b (s.progBad x d).2 := by
  unfold State.progBad
  refine .iteSnd h ?_
  split <;> rename_i e <;> exact .of_eq e h.instRead

theorem Accessed.firstBadTile {x : Job} {k : Nat} {ds : List (List Nat)} (h : Accessed b s) :
    Accessed b (s.firstBadTile x k ds).2 := by
  induction ds generalizing s k with
  | nil => exact h
  | cons d ds ih =>
    unfold State.firstBadTile
    refine .iteSnd h ?_
    split <;> rename_i e
    · exact .of_eq e h.progBad
    · exact ih (.of_eq e h.progBad)

theorem Accessed.validate {x : Job} (h : Accessed b s) : Accessed b (s.validate x).2 := by
  have record : ∀ c : Bool, Accessed b (if c then Machine.readOff s x.inst x.paramAddr (paramSize x.opcode) else (.ok [], s)).2 :=
    fun _ => .iteSnd h.readOff h
  unfold State.validate
  refine .iteSnd h ?_
  dsimp only
  split <;> rename_i e
  · exact .of_eq e (record _)
  · have read := Leaves.of_eq e (record _)
    split <;> rename_i e₁
    · exact .of_eq e₁ (Accessed.unsupported read)
    · have judged := Leaves.of_eq e₁ (Accessed.unsupported read)
      refine .iteSnd judged ?_
      split <;> rename_i e₂
      · exact .of_eq e₂ (.iteSnd judged (Accessed.readOff judged))
      · have tiles := Leaves.of_eq e₂ (.iteSnd judged (Accessed.readOff judged))
        split <;> rename_i e₃ <;> exact .of_eq e₃ (Accessed.firstBadTile tiles)

end

/-- A job after validation is the job that was copied, on its way or ended. -/
def Validated (x y : Job) : Prop :=
  y.id = x.id ∧ y.queue = x.queue ∧ y.ringIdx = x.ringIdx ∧ y.desc = x.desc ∧ y.slot = x.slot
    ∧ (y.phase = x.phase ∨ y.phase = .ended)

theorem State.validate_same (s : State) (x : Job) : Validated x (s.validate x).1 := by
  unfold State.validate
  dsimp only
  repeat' split
  all_goals exact ⟨rfl, rfl, rfl, rfl, rfl, by simp⟩

/-- A descriptor that does not pass ends its job MALFORMED before anything is read. -/
theorem State.validate_bad (s : State) (x : Job) (h : descBad x = true) :
    s.validate x = ({ x with phase := .ended, status := stMalformed, detail := some 0 }, s) := by
  unfold State.validate
  rw [if_pos h]

end Sys2Proof.Machine
end

section
/-! PROOFS. The scanner's rounds (R38). -/

set_option Elab.async false

namespace Sys2Proof.Machine

/-! ## The order of a round -/

section
variable (s : State)

/-- The timed queues of a round, inserted one by one. -/
def State.timedOrder (qs : List Nat) : List Nat := qs.foldl (fun acc n => s.scanInsert n acc) []

theorem State.mem_inserted (qs acc : List Nat) (q : Nat) :
    q ∈ qs.foldl (fun acc n => s.scanInsert n acc) acc ↔ q ∈ qs ∨ q ∈ acc := by
  induction qs generalizing acc with
  | nil => simp
  | cons n qs ih =>
    rw [List.foldl_cons, ih, State.mem_scanInsert, List.mem_cons]
    tauto

theorem State.sorted_scanInsert (n : Nat) (xs : List Nat) (h : xs.Pairwise fun a b => s.scanKey a ≤ s.scanKey b) :
    (s.scanInsert n xs).Pairwise fun a b => s.scanKey a ≤ s.scanKey b := by
  induction xs with
  | nil => exact List.pairwise_singleton _ _
  | cons y ys ih =>
    obtain ⟨first, rest⟩ := List.pairwise_cons.mp h
    unfold State.scanInsert
    split
    · rename_i lt
      refine List.pairwise_cons.mpr ⟨fun z hz => ?_, h⟩
      rcases List.mem_cons.mp hz with rfl | hz
      · exact Nat.le_of_lt lt
      · exact Nat.le_trans (Nat.le_of_lt lt) (first z hz)
    · rename_i ge
      refine List.pairwise_cons.mpr ⟨fun z hz => ?_, ih rest⟩
      rcases (s.mem_scanInsert _ _ _).mp hz with rfl | hz
      · omega
      · exact first z hz

theorem State.sorted_inserted (qs acc : List Nat) (h : acc.Pairwise fun a b => s.scanKey a ≤ s.scanKey b) :
    (qs.foldl (fun acc n => s.scanInsert n acc) acc).Pairwise fun a b => s.scanKey a ≤ s.scanKey b := by
  induction qs generalizing acc with
  | nil => exact h
  | cons n qs ih => exact ih _ (s.sorted_scanInsert n acc h)

theorem mem_interleave (groups : List (List Nat)) (q : Nat) : q ∈ interleave groups ↔ ∃ g ∈ groups, q ∈ g := by
  unfold interleave
  simp only [List.mem_flatMap, List.mem_range, List.mem_filterMap]
  constructor
  · rintro ⟨k, -, g, hg, hq⟩
    exact ⟨g, hg, List.mem_of_getElem? hq⟩
  · rintro ⟨g, hg, hq⟩
    obtain ⟨k, hk, rfl⟩ := List.mem_iff_getElem.mp hq
    refine ⟨k, Nat.lt_of_lt_of_le hk ?_, g, hg, List.getElem?_eq_getElem hk⟩
    rw [List.foldl_eq_foldr]
    exact List.le_max_of_le' 0 (List.mem_map.mpr ⟨g, hg, rfl⟩) (Nat.le_refl _)

theorem State.queueFlask_lt (n : Nat) : s.queueFlask n < 8 := State.f_lt s SYS_INST.FLASK (instOf n)

theorem State.mem_roundOrder (turn : Nat) (qs : List Nat) (q : Nat) : q ∈ s.roundOrder turn qs ↔ q ∈ qs := by
  have group : (∃ k < 8, s.queueFlask q = (turn + k) % 8) :=
    ⟨(s.queueFlask q + 8 - turn % 8) % 8, by omega, by have := s.queueFlask_lt q; omega⟩
  unfold State.roundOrder
  simp only [List.mem_append, State.mem_inserted, mem_interleave, List.mem_map, List.mem_range, List.mem_filter,
    List.not_mem_nil, or_false]
  constructor
  · rintro (⟨h, -⟩ | ⟨g, ⟨k, -, rfl⟩, h⟩)
    · exact h
    · exact (List.mem_filter.mp (List.mem_filter.mp h).1).1
  · intro h
    by_cases timed : s.timedQueue q = true
    · exact .inl ⟨h, timed⟩
    · obtain ⟨k, hk, e⟩ := group
      exact .inr ⟨_, ⟨k, hk, rfl⟩, List.mem_filter.mpr ⟨List.mem_filter.mpr ⟨h, by simpa using timed⟩, by simpa using e⟩⟩

/-- Queues of timed flasks stand first, in ascending order of flask and queue. -/
theorem State.ordered_roundOrder (turn : Nat) (qs : List Nat) : (s.roundOrder turn qs).Pairwise (fun a b =>
    s.timedQueue b = true → s.timedQueue a = true
      ∧ (s.queueFlask a < s.queueFlask b ∨ s.queueFlask a = s.queueFlask b ∧ a ≤ b ∨ 16384 ≤ b)) := by
  unfold State.roundOrder
  dsimp only
  have untimed : ∀ b ∈ interleave ((List.range 8).map fun k => (qs.filter fun n => !s.timedQueue n).filter fun n =>
      s.queueFlask n == (turn + k) % 8), s.timedQueue b = false := by
    intro b hb
    obtain ⟨g, hg, h⟩ := (mem_interleave _ _).mp hb
    obtain ⟨k, -, rfl⟩ := List.mem_map.mp hg
    simpa using (List.mem_filter.mp (List.mem_filter.mp h).1).2
  refine List.pairwise_append.mpr ⟨?_, ?_, fun a _ b hb timed => ?_⟩
  · refine (s.sorted_inserted (qs.filter s.timedQueue) [] List.Pairwise.nil).imp_of_mem fun {a b} ha _ le _ => ?_
    have timed := ((s.mem_inserted _ _ _).mp ha).resolve_right (List.not_mem_nil)
    refine ⟨(List.mem_filter.mp timed).2, ?_⟩
    unfold State.scanKey at le
    omega
  · exact List.pairwise_of_forall_mem_list fun a _ b hb timed => absurd timed (by simp [untimed b hb])
  · exact absurd timed (by simp [untimed b hb])

end

/-! ## Serving a round -/

theorem State.serveOne_sprue (s : State) (n : Nat) (rest : List Nat) (h : s.work.sprue.round = n :: rest) :
    s.serveOne.work.sprue.round = rest ∧ s.serveOne.work.sprue.ready = insNat s.work.sprue.ready n
      ∧ s.serveOne.work.sprue.pending = s.work.sprue.pending ∧ Leaves [.sprue] (fun r _ => r = .sprQstat) s s.serveOne := by
  unfold State.serveOne
  rw [h]
  dsimp only
  rw [State.showQueue_work]
  exact ⟨rfl, rfl, rfl, .showQueue (.modSprue (.refl _ _ s)) rfl⟩

/-- What serving the first `k` queues of a round leaves. -/
theorem State.served_sprue (s : State) (k : Nat) (hk : k ≤ s.work.sprue.round.length) (t : State)
    (ht : (List.range k).foldl (fun s _ => s.serveOne) s = t) :
    t.work.sprue.round = s.work.sprue.round.drop k
      ∧ (∀ q, q ∈ t.work.sprue.ready ↔ q ∈ s.work.sprue.ready ∨ q ∈ s.work.sprue.round.take k)
      ∧ t.work.sprue.pending = s.work.sprue.pending ∧ Leaves [.sprue] (fun r _ => r = .sprQstat) s t := by
  subst ht
  induction k with
  | zero => exact ⟨rfl, by simp, rfl, .refl _ _ s⟩
  | succ k ih =>
    obtain ⟨round, ready, pending, leaves⟩ := ih (by omega)
    rw [List.range_succ, List.foldl_append, List.foldl_cons, List.foldl_nil]
    generalize (List.range k).foldl (fun s _ => s.serveOne) s = t at round ready pending leaves
    rw [List.drop_eq_getElem_cons (by omega)] at round
    obtain ⟨round', ready', pending', leaves'⟩ := t.serveOne_sprue _ _ round
    refine ⟨round', fun q => ?_, pending'.trans pending, leaves.trans leaves'⟩
    rw [ready', mem_insNat, ready, List.take_succ_eq_append_getElem (by omega), List.mem_append, List.mem_singleton]
    tauto

/-- A scanner round serves the round that stands, or one that begins with the pending bitmap. -/
theorem State.scan_sprue (s : State) (k : Nat) (r : List Nat)
    (hr : (if s.work.sprue.round = [] then s.roundOrder s.work.sprue.turn s.work.sprue.pending
      else s.work.sprue.round) = r) :
    (s.scan k).work.sprue.round = r.drop k
      ∧ (∀ q, q ∈ (s.scan k).work.sprue.ready ↔ q ∈ s.work.sprue.ready ∨ q ∈ r.take k)
      ∧ (s.work.sprue.round = [] → (s.scan k).work.sprue.pending = [])
      ∧ (s.work.sprue.round ≠ [] → (s.scan k).work.sprue.pending = s.work.sprue.pending)
      ∧ Leaves [.sprue] (fun r _ => r = .sprQstat) s (s.scan k) := by
  have capped : ∀ t : State, t.work.sprue.round.drop (min k t.work.sprue.round.length) = t.work.sprue.round.drop k
      ∧ t.work.sprue.round.take (min k t.work.sprue.round.length) = t.work.sprue.round.take k := fun t => by
    rcases Nat.le_total k t.work.sprue.round.length with le | le
    · rw [Nat.min_eq_left le]
      exact ⟨rfl, rfl⟩
    · rw [Nat.min_eq_right le, List.drop_of_length_le le, List.take_of_length_le le]
      exact ⟨List.drop_length, List.take_length⟩
  unfold State.scan
  dsimp only
  by_cases empty : s.work.sprue.round = []
  · rw [if_pos (by simp [empty])]
    obtain ⟨round, ready, pending, leaves⟩ := s.startRound.served_sprue _ (Nat.min_le_right k _) _ rfl
    rw [(capped _).1] at round
    rw [(capped _).2] at ready
    rw [if_pos empty] at hr
    subst hr
    exact ⟨round, ready, fun _ => pending, fun no => absurd empty no, (Leaves.modSprue (.refl _ _ s)).trans leaves⟩
  · rw [if_neg (by simpa using empty)]
    obtain ⟨round, ready, pending, leaves⟩ := s.served_sprue _ (Nat.min_le_right k _) _ rfl
    rw [(capped _).1] at round
    rw [(capped _).2] at ready
    rw [if_neg empty] at hr
    subst hr
    exact ⟨round, ready, fun no => absurd no empty, fun _ => pending, leaves⟩

/-! ## Taking a job -/

section
variable {ps : List Part} {q : Reg → Nat → Prop} {b s : State}

theorem Leaves.modCam {c : Nat} {g : CamSt → CamSt} (h : Leaves ps q b s) (hp : .cams ∈ ps := by simp) :
    Leaves ps q b (s.modCam c g) :=
  h.parts fun p hn => by
    cases p
    case cams => exact absurd hp hn
    all_goals rfl

theorem State.leaves_lockBuffers (s : State) (x : Job) : Leaves [.cams] (fun r _ => r = .dspCamstat) s (s.lockBuffers x) :=
  .over (.refl _ _ s) fun _ _ h => .modCam (h.incSat rfl)

end

/-- A register that is not listed keeps its fields. -/
theorem Leaves.f_same {ps : List Part} {q : Reg → Nat → Prop} {s t : State} (h : Leaves ps q s t) (x : Fld) (i : Nat)
    (hx : ¬ q x.reg i) : t.f x i = s.f x i := by
  unfold State.f
  rw [h.2 _ _ hx]

theorem Accessed.stat_same {s t : State} (h : Accessed s t) (x : Fld) (i : Nat) (hx : x.reg = .sprQstat) : t.f x i = s.f x i :=
  h.f_same x i (by simp [accessRegs, hx])

/-- The dispatcher takes the descriptor that it has read: what the queue and its job are then. -/
theorem State.fetchJob_read (s s1 : State) (n : Nat) (bs : List Byte) (hr : n ∈ s.work.sprue.ready)
    (hl : s.queueLive n = true) (hp : s.f SPR_DB.PROD_IDX n ≠ s.f SPR_QSTAT.CONS_IDX n)
    (h : instRead s (instOf n) (s.f SPR_QSUB_BASE.BASE n * 128 + 128 * (s.f SPR_QSTAT.CONS_IDX n % s.subSize n)) 128
      = (.ok bs, s1)) (v : Job × State)
    (hv : (s1.setF SPR_QSTAT.CONS_IDX n (s.f SPR_QSTAT.CONS_IDX n + 1)).validate
      { id := s1.work.nextJob, queue := n, ringIdx := s.f SPR_QSTAT.CONS_IDX n, desc := words64 16 bs } = v) :
    s.fetchJob n = (({ v.2 with work.jobs := v.2.work.jobs ++ [v.1], work.nextJob := v.2.work.nextJob + 1 }).lockBuffers
      v.1).showQueue n := by
  unfold State.fetchJob
  rw [if_neg (by simpa using hr), if_neg (by simp [hl])]
  dsimp only
  rw [if_neg hp, h]
  dsimp only
  rw [State.setF_work, hv]

/-- A descriptor that cannot be read puts the queue in the error state. -/
theorem State.fetchJob_fails (s s1 : State) (n : Nat) (e : MRes) (hr : n ∈ s.work.sprue.ready)
    (hl : s.queueLive n = true) (hp : s.f SPR_DB.PROD_IDX n ≠ s.f SPR_QSTAT.CONS_IDX n) (he : e.good = false)
    (h : instRead s (instOf n) (s.f SPR_QSUB_BASE.BASE n * 128 + 128 * (s.f SPR_QSTAT.CONS_IDX n % s.subSize n)) 128
      = (e, s1)) : s.fetchJob n = s1.queueError n e.status := by
  unfold State.fetchJob
  rw [if_neg (by simpa using hr), if_neg (by simp [hl])]
  dsimp only
  rw [if_neg hp, h]
  cases e with
  | ok bs => cases he
  | xlate => rfl
  | integ => rfl
  | clock => rfl

theorem MRes.status_lt (e : MRes) : e.status < 256 := by cases e <;> simp [MRes.status]

theorem exec_jobFetch_queue (s : State) (q : Nat) (hq : q < 16384) : exec (.jobFetch q) s = .next (s.fetchJob q) := by
  rw [exec_jobFetch, execJobFetch, isQueue, decide_eq_true hq, unit_true]

/-- A live queue is neither in error nor quiesced. -/
theorem State.queueLive_state {s : State} {n : Nat} (h : s.queueLive n = true) :
    s.f SPR_QSTAT.STATE n ≠ 3 ∧ s.f SPR_QSTAT.STATE n ≠ 4 := by
  simp only [State.queueLive, Bool.and_eq_true, bne_iff_ne] at h
  exact ⟨h.1.1.2, h.1.2⟩

/-- R31, R35: the dispatcher copies the descriptor at CONS_IDX of a ready queue and advances CONS_IDX. -/
theorem jobFetch_takes (s s1 : State) (q : Nat) (bs : List Byte) (hq : q < 16384) (hr : q ∈ s.work.sprue.ready)
    (hl : s.queueLive q = true) (hp : s.f SPR_DB.PROD_IDX q ≠ s.f SPR_QSTAT.CONS_IDX q)
    (h : instRead s (instOf q) (s.f SPR_QSUB_BASE.BASE q * 128 + 128 * (s.f SPR_QSTAT.CONS_IDX q % s.subSize q)) 128
      = (.ok bs, s1)) :
    ∃ t y, exec (.jobFetch q) s = .next t ∧ t.f SPR_QSTAT.CONS_IDX q = (s.f SPR_QSTAT.CONS_IDX q + 1) % 2 ^ 32
      ∧ t.work.jobs = s.work.jobs ++ [y] ∧ t.work.nextJob = s.work.nextJob + 1 ∧ y.id = s.work.nextJob ∧ y.queue = q
      ∧ y.ringIdx = s.f SPR_QSTAT.CONS_IDX q ∧ y.desc = words64 16 bs
      ∧ (y.phase = .waiting ∨ y.phase = .ended) ∧ y.slot = false ∧ t.f SPR_QSTAT.STATE q = 2
      ∧ (y.seqno ≠ s.f SPR_QSTAT.CONS_IDX q → y.phase = .ended ∧ y.status = stMalformed)
      ∧ (bits (y.w 8) 47 32 ≠ 0 ∨ bits y.flags 15 5 ≠ 0 → y.phase = .ended ∧ y.status = stMalformed)
      ∧ Leaves (.jobs :: .nextJob :: .cams :: accessParts)
          (fun r i => accessRegs r i ∨ r = .dspCamstat ∨ (r = .sprQstat ∧ i = q)) s t := by
  have read : Accessed s s1 := .of_eq h (accessed_instRead ..)
  generalize hx : ({ id := s1.work.nextJob, queue := q, ringIdx := s.f SPR_QSTAT.CONS_IDX q, desc := words64 16 bs } : Job) = x
  generalize hv : (s1.setF SPR_QSTAT.CONS_IDX q (s.f SPR_QSTAT.CONS_IDX q + 1)).validate x = v
  have run := s.fetchJob_read s1 q bs hr hl hp h v (by rw [hx, hv])
  have checked : Accessed _ v.2 := hv ▸ Accessed.validate (.refl _ _ _)
  have same : Validated x v.1 := hv ▸ State.validate_same _ x
  have bad : descBad x = true → v.1.phase = .ended ∧ v.1.status = stMalformed := fun bad => by
    rw [← hv, State.validate_bad _ _ bad]
    exact ⟨rfl, rfl⟩
  have jobs : v.2.work.jobs = s.work.jobs := by
    have := (checked.1 .jobs (by simp [accessParts])).trans (congrArg WorkSt.jobs (State.setF_work ..))
    exact this.trans (read.1 .jobs (by simp [accessParts]))
  have nextJob : v.2.work.nextJob = s.work.nextJob := by
    have := (checked.1 .nextJob (by simp [accessParts])).trans (congrArg WorkSt.nextJob (State.setF_work ..))
    exact this.trans (read.1 .nextJob (by simp [accessParts]))
  have cons : v.2.f SPR_QSTAT.CONS_IDX q = (s.f SPR_QSTAT.CONS_IDX q + 1) % 2 ^ 32 := by
    rw [checked.stat_same _ _ rfl, State.setF_f_width _ _ _ _ 32 (by decide) rfl]
  have state : v.2.f SPR_QSTAT.STATE q = s.f SPR_QSTAT.STATE q := by
    rw [checked.stat_same _ _ rfl, State.setF_f_apart _ _ _ _ _ _ (by decide) (by decide), read.stat_same _ _ rfl]
  obtain ⟨id, queue, ringIdx, desc, slot, phase⟩ := same
  have taken := State.leaves_lockBuffers
    { v.2 with work.jobs := v.2.work.jobs ++ [v.1], work.nextJob := v.2.work.nextJob + 1 } v.1
  generalize ({ v.2 with work.jobs := v.2.work.jobs ++ [v.1], work.nextJob := v.2.work.nextJob + 1 } : State).lockBuffers v.1
    = t at run taken
  have held : t.work.jobs = s.work.jobs ++ [v.1] := jobs ▸ taken.1 .jobs (by simp)
  have numbered : t.work.nextJob = s.work.nextJob + 1 := nextJob ▸ taken.1 .nextJob (by simp)
  have stat : ∀ x : Fld, x.reg = .sprQstat → t.f x q = v.2.f x q := fun x hx => taken.f_same x q (by simp [hx])
  have live := State.queueLive_state hl
  have read_of : ∀ k, v.1.w k = x.w k := fun k => by rw [Job.w, Job.w, desc]
  refine ⟨_, v.1, by rw [exec_jobFetch_queue s q hq, run], ?_, ?_, ?_, ?_, by rw [queue, ← hx], by rw [ringIdx, ← hx],
    by rw [desc, ← hx], by rw [← hx] at phase; exact phase, by rw [slot, ← hx], ?_, fun seqno => ?_, fun reserved => ?_, ?_⟩
  · rw [State.showQueue_f_apart _ _ _ _ (by decide), stat _ rfl, cons]
  · rw [State.showQueue_work, held]
  · rw [State.showQueue_work, numbered]
  · rw [id, ← hx]
    exact read.1 .nextJob (by simp [accessParts])
  · refine State.showQueue_working _ _ ?_ ?_ fun none => ?_
    · rw [stat _ rfl, state]
      exact live.1
    · rw [stat _ rfl, state]
      exact live.2
    · rw [State.queueJobs, held, List.filter_append] at none
      simp [queue, ← hx] at none
  · refine bad ?_
    have short := Nat.mod_eq_of_lt (s.f_lt SPR_QSTAT.CONS_IDX q)
    have ring : x.ringIdx % 2 ^ 32 = s.f SPR_QSTAT.CONS_IDX q := by rw [← hx]; exact short
    rw [Job.seqno, read_of] at seqno
    unfold descBad
    rw [ring]
    simp [Job.seqno, seqno]
  · refine bad ?_
    rw [Job.flags, read_of, read_of] at reserved
    unfold descBad
    rcases reserved with h | h <;> simp [Job.flags, h]
  · have sub : accessParts ⊆ .jobs :: .nextJob :: .cams :: accessParts := fun _ h => by simp [h]
    have whole : Leaves (.jobs :: .nextJob :: .cams :: accessParts)
        (fun r i => accessRegs r i ∨ r = .dspCamstat ∨ (r = .sprQstat ∧ i = q)) s v.2 :=
      .into (.setF (read.mono sub fun _ _ => .inl) (.inr (.inr ⟨rfl, rfl⟩))) checked sub fun _ _ => .inl
    exact .showQueue (.into whole.beside taken (by simp) fun _ _ e => .inr (.inl e)) (.inr (.inr ⟨rfl, rfl⟩))

/-- R44: a descriptor that cannot be read puts the queue in the error state. -/
theorem jobFetch_fails (s s1 : State) (q : Nat) (e : MRes) (hq : q < 16384) (hr : q ∈ s.work.sprue.ready)
    (hl : s.queueLive q = true) (hp : s.f SPR_DB.PROD_IDX q ≠ s.f SPR_QSTAT.CONS_IDX q) (he : e.good = false)
    (h : instRead s (instOf q) (s.f SPR_QSUB_BASE.BASE q * 128 + 128 * (s.f SPR_QSTAT.CONS_IDX q % s.subSize q)) 128
      = (e, s1)) :
    ∃ t, exec (.jobFetch q) s = .next t ∧ t.f SPR_QSTAT.STATE q = 3 ∧ t.f SPR_QSTAT.ERR_CODE q = e.status
      ∧ t.f SPR_QSTAT.CONS_IDX q = s.f SPR_QSTAT.CONS_IDX q ∧ ¬ t.queuePending q ∧ q ∉ t.work.sprue.ready
      ∧ Leaves (.sprue :: accessParts) (fun r i => accessRegs r i ∨ (r = .sprQstat ∧ i = q)) s t := by
  have read : Accessed s s1 := .of_eq h (accessed_instRead ..)
  have whole : Leaves (.sprue :: accessParts) (fun r i => accessRegs r i ∨ (r = .sprQstat ∧ i = q)) s s1 :=
    read.mono (fun _ h => by simp [h]) fun _ _ => .inl
  refine ⟨_, by rw [exec_jobFetch_queue s q hq, s.fetchJob_fails s1 q e hr hl hp he h], State.queueError_state _ _ _, ?_, ?_,
    State.not_queuePending_queueError _ _ _, State.not_ready_queueError _ _ _, whole.queueError (.inr ⟨rfl, rfl⟩)⟩
  · rw [State.queueError_code, Nat.mod_eq_of_lt e.status_lt]
  · rw [State.queueError_f _ _ _ _ _ (by decide) (by decide), read.stat_same _ _ rfl]

/-- Settles O16: rounds serve the list that `scan_sprue` names; a fetch copies, checks and holds the job. -/
theorem roundsServeQueuesAndFetchDescriptors : Obligations.RoundsServeQueuesAndFetchDescriptors := by
  refine ⟨⟨fun s k => ?_, fun s turn qs => ⟨s.mem_roundOrder turn qs, s.ordered_roundOrder turn qs⟩⟩, jobFetch_takes,
    jobFetch_fails, fun s q hq no => ?_⟩
  · obtain ⟨round, ready, cleared, kept, leaves⟩ := s.scan_sprue k _ rfl
    exact ⟨_, exec_scannerRound k s, ⟨round, ready⟩, cleared, kept, leaves⟩
  · rw [exec_jobFetch_queue s q hq, State.fetchJob, if_pos (by simpa using no)]

end Sys2Proof.Machine
end

section
/-! PROOFS. Starting a job (R32, R34, R41 to R43). -/

set_option Elab.async false

namespace Sys2Proof.Machine

section
variable {s : State} {j : Nat} {x : Job}

/-- What a start takes: the job runs with a slot, its queue reserves one, and a stage may learn that it is stale. -/
theorem State.beginJob_begins (s : State) (x : Job) (h : s.job x.id = some x) (t : State) (ht : s.beginJob x = t) :
    ∃ b, b ≤ 1
      ∧ (s.timed (s.jobFlask x) = false ∨ x.opcode = 0 ∨ 3 < x.opcode → b = 0 ∧ t.freeCtr = s.freeCtr)
      ∧ JobTo x.id { x with phase := .running, slot := true, cflags := Nat.lor x.cflags b } s t
      ∧ (t.q x.queue).reserved = (s.q x.queue).reserved + 1 ∧ (t.q x.queue).nextCpl = (s.q x.queue).nextCpl
      ∧ (∀ k, k ≠ x.queue → t.q k = s.q k) ∧ Leaves [.jobs, .queues, .freeCtr] noReg s t := by
  have main : ∀ (b : Nat) (s1 : State), s1.work = s.work → Leaves [.jobs, .queues, .freeCtr] noReg s s1 → ∀ u,
      (s1.modQ x.queue fun q => { q with reserved := q.reserved + 1 }).modJob x.id
        (fun y => { y with phase := .running, slot := true, cflags := Nat.lor x.cflags b }) = u →
      JobTo x.id { x with phase := .running, slot := true, cflags := Nat.lor x.cflags b } s u
      ∧ (u.q x.queue).reserved = (s.q x.queue).reserved + 1 ∧ (u.q x.queue).nextCpl = (s.q x.queue).nextCpl
      ∧ (∀ k, k ≠ x.queue → u.q k = s.q k) ∧ Leaves [.jobs, .queues, .freeCtr] noReg s u := by
    rintro b s1 work leaves _ rfl
    have queues : ∀ k, s1.q k = s.q k := fun k => by rw [State.q, State.q, work]
    have same : s1.work.jobs = s.work.jobs := congrArg _ work
    have held : (s1.modQ x.queue fun q => { q with reserved := q.reserved + 1 }).job x.id = some x := by
      rw [State.modQ_job, State.job_of_jobs same, h]
    refine ⟨.after_same same (.after_same rfl (.of_modJob _ (fun _ => rfl) held)), ?_, ?_, fun k hk => ?_, leaves.modQ.modJob⟩
    · rw [State.modJob_q, State.modQ_same, queues]
    · rw [State.modJob_q, State.modQ_same, queues]
    · rw [State.modJob_q, ← queues]
      simp [State.modQ, State.q, hk]
  unfold State.beginJob State.stageFlag at ht
  by_cases staged : (s.timed (s.jobFlask x) && (decide (1 ≤ x.opcode) && decide (x.opcode ≤ 3))) = true
  · rw [if_pos staged] at ht
    refine ⟨s.fresh.1 % 2, by omega, fun no => ?_, main _ s.fresh.2 rfl (.fresh (.refl _ _ s)) t ht⟩
    simp only [Bool.and_eq_true, decide_eq_true_eq] at staged
    simp only [staged.1, Bool.true_eq_false, false_or] at no
    omega
  · rw [if_neg staged] at ht
    dsimp only at ht
    have none : Nat.lor x.cflags 0 = x.cflags := Nat.or_zero _
    exact ⟨0, by omega, fun _ => ⟨rfl, ht ▸ rfl⟩, main 0 s rfl (.refl _ _ s) t (by rw [none]; exact ht)⟩

/-- A job without a wait starts once it has a slot. -/
theorem State.startJob_free (hj : s.job j = some x) (hs : s.startable x = true) (he : s.expired x = false)
    (hf : s.fenceOk x = true) (hw : x.waitEn = false) (hc : s.classLost x.opcode = false) :
    s.startJob j = if s.slotFree x.queue then s.beginJob x else s := by
  unfold State.startJob State.waitDone
  simp only [hj, hs, he, hf, hw, hc, Bool.not_true, Bool.not_false, Bool.false_eq_true, if_false, if_true]

/-- The counter that a job waits for has been read. -/
theorem State.startJob_read {s1 : State} {bs : List Byte} (hj : s.job j = some x) (hs : s.startable x = true)
    (he : s.expired x = false) (hf : s.fenceOk x = true) (hw : x.waitEn = true)
    (hr : instRead s x.inst x.waitAddr 8 = (.ok bs, s1)) :
    s.startJob j = if reached (leNat bs) x.waitValue then
        if s1.classLost x.opcode then s1.endJob j stClockLost none
        else if s1.slotFree x.queue then s1.beginJob x else s1
      else s1 := by
  unfold State.startJob State.waitDone
  simp only [hj, hs, he, hf, hw, hr, Bool.not_true, Bool.false_eq_true, if_false]
  cases reached (leNat bs) x.waitValue
  · simp only [Bool.false_eq_true, if_false]
  · simp only [if_true]

/-- An access leaves what a start looks at. -/
theorem Accessed.slotFree {t : State} (h : Accessed s t) (n : Nat) : t.slotFree n = s.slotFree n := by
  have queues : t.q n = s.q n := by rw [State.q, State.q, h.1 .queues (by simp [accessParts])]
  unfold State.slotFree State.cplSize
  rw [queues, h.f_same SPR_DB.CPL_CONS n (by simp [accessRegs, SPR_DB.CPL_CONS]),
    h.f_same SPR_QCFG.CPL_LOG2 n (by simp [accessRegs, SPR_QCFG.CPL_LOG2])]

theorem Accessed.classLost {t : State} (h : Accessed s t) (op : Nat) : t.classLost op = s.classLost op := by
  have lost : t.sys.power.lost = s.sys.power.lost := by
    have calm : t.sys.power.calm = s.sys.power.calm := h.1 .power (by simp [accessParts])
    have lost := congrArg PowerSt.lost calm
    exact lost
  unfold State.classLost
  rw [lost]

theorem Accessed.timedJob {t : State} (h : Accessed s t) : t.timed (t.jobFlask x) = s.timed (s.jobFlask x) := by
  have flask : t.jobFlask x = s.jobFlask x := h.f_same SYS_INST.FLASK _ (by simp [accessRegs, SYS_INST.FLASK])
  rw [flask, State.timed, State.timed, State.fb_eq, State.fb_eq,
    h.f_same SYS_FLCTRL.TIMED _ (by simp [accessRegs, SYS_FLCTRL.TIMED])]

end

end Sys2Proof.Machine
end

section
/-! PROOFS. What aborts and job faults leave (R37, R63, R182). -/

set_option Elab.async false

namespace Sys2Proof.Machine

/-- What a list of changes keeps, each of them keeping it. -/
theorem State.each_keeps {α : Type} {P : State → Prop} {g : State → α → State} {xs : List α} {s : State} (h : P s)
    (step : ∀ t, ∀ x ∈ xs, P t → P (g t x)) : P (s.each xs g) := by
  induction xs generalizing s with
  | nil => exact h
  | cons x xs ih => exact ih (step s x List.mem_cons_self h) fun t y hy => step t y (List.mem_cons_of_mem _ hy)

section
variable {ps : List Part} {q : Reg → Nat → Prop} {b s : State}

theorem Leaves.mouldWrite {a lo : Nat} {bs : List Byte} (h : Leaves ps q b s) (hp : .arrays ∈ ps := by simp) :
    Leaves ps q b (s.mouldWrite a lo bs) := h.modArr hp

theorem Leaves.mouldFree {a lo n : Nat} (h : Leaves ps q b s) (hp : .arrays ∈ ps := by simp)
    (hf : .freeCtr ∈ ps := by simp) : Leaves ps q b (s.mouldFree a lo n) := (h.freshBytes hf).mouldWrite hp

theorem Leaves.endStall {a : Nat} (h : Leaves ps q b s) (hq : q .arrPerf a) (hf : .freeCtr ∈ ps := by simp) :
    Leaves ps q b (s.endStall a) := .ite ((h.fresh hf).incWrap hq) h

theorem Leaves.dropAsync {a : Nat} (h : Leaves ps q b s) (hp : .arrays ∈ ps := by simp) (hf : .freeCtr ∈ ps := by simp) :
    Leaves ps q b (s.dropAsync a) := .modArr (.over h fun _ _ g => g.mouldFree hp hf) hp

theorem Leaves.abortArr {a : Nat} (h : Leaves ps q b s) (hq : q .arrPerf a) (hs : q .arrStatus a)
    (hp : .arrays ∈ ps := by simp) (hf : .freeCtr ∈ ps := by simp) : Leaves ps q b (s.abortArr a) :=
  .setF (.modArr (.dropAsync (h.endStall hq hf) hp hf) hp) hs

theorem Leaves.dropNext {a : Nat} (h : Leaves ps q b s) (hq : q .arrProg a) (hp : .arrays ∈ ps := by simp) :
    Leaves ps q b (s.dropNext a) := .ite ((h.modArr hp).setF hq) h

end

/-- The registers of arrays that a job fault may change. -/
def faultRegs (r : Reg) (_ : Nat) : Prop := r = .arrProg ∨ r = .arrStatus ∨ r = .arrPerf

/-- The arrays involved in a fault are stopped. -/
theorem State.leaves_stopArrays (s : State) (xs : List Nat) : Leaves [.arrays, .freeCtr] faultRegs s
    (s.each xs fun s a => let s' := s.dropNext a; if (s'.arr a).job.isSome then s'.abortArr a else s') :=
  .over (.refl _ _ s) fun _ _ h =>
    .ite (.abortArr (h.dropNext (.inl rfl)) (.inr (.inr rfl)) (.inr (.inl rfl))) (h.dropNext (.inl rfl))

/-- A flask's tiles after one job's are dropped. -/
theorem State.mem_dropTiles (s : State) (f j : Nat) (q : TileQ) :
    q ∈ ((s.dropTiles f j).flask f).tiles ↔ q ∈ (s.flask f).tiles ∧ q.job ≠ j := by
  simp [State.dropTiles, State.modFlask, State.flask]

/-- Job `j` is `y`, flask `f` queues no tile of it, and nothing has changed but jobs, flasks and arrays. -/
def Faulted (j f : Nat) (y : Job) (s t : State) : Prop :=
  t.job j = some y ∧ (∀ q ∈ (t.flask f).tiles, q.job ≠ j) ∧ Leaves [.jobs, .flasks, .arrays, .freeCtr] faultRegs s t

/-- The end of another job keeps it so. -/
theorem Faulted.other {j f k : Nat} {y : Job} {s t : State} (h : Faulted j f y s t) (hk : k ≠ j) :
    Faulted j f y s ((t.endJob k stJobLost none).dropTiles f k) := by
  obtain ⟨job, tiles, leaves⟩ := h
  refine ⟨?_, fun q hq => tiles q ((State.mem_dropTiles _ _ _ _).mp hq).1, leaves.endJob.dropTiles⟩
  rw [State.dropTiles, State.modFlask_job, State.endJob, State.modJob_job_ne _ _ _ _ (fun x => by split <;> rfl) hk.symm, job]

/-- R37: what a job fault does to the job, its tiles and the rest. -/
theorem State.faultJob_ends (s : State) (j st tile : Nat) (x : Job) (hj : s.job j = some x) (open_ : x.phase ≠ .ended) :
    Faulted j (s.jobFlask x) (x.over st (some tile)) s (s.faultJob j st tile) := by
  have ended : Faulted j (s.jobFlask x) (x.over st (some tile)) s
      ((s.endJob j st (some tile)).dropTiles (s.jobFlask x) j) := by
    refine ⟨?_, fun q hq => ((State.mem_dropTiles _ _ _ _).mp hq).2, .dropTiles (.endJob (.refl _ _ s))⟩
    rw [State.dropTiles, State.modFlask_job, (JobTo.of_endJob st (some tile) hj open_).1]
  have lost : Faulted j (s.jobFlask x) (x.over st (some tile)) s
      (((s.endJob j st (some tile)).dropTiles (s.jobFlask x) j).each (s.lostJobs j) fun t k =>
        (t.endJob k stJobLost none).dropTiles (s.jobFlask x) k) :=
    State.each_keeps ended fun t k hk h => h.other (by simpa using (List.mem_filter.mp hk).2)
  unfold State.faultJob
  rw [hj]
  dsimp only
  split
  · exact lost
  · obtain ⟨job, tiles, leaves⟩ := lost
    have stopped := State.leaves_stopArrays (((s.endJob j st (some tile)).dropTiles (s.jobFlask x) j).each (s.lostJobs j)
      fun t k => (t.endJob k stJobLost none).dropTiles (s.jobFlask x) k) (s.involved j)
    refine ⟨?_, ?_, leaves.into stopped (by simp) fun _ _ e => e⟩
    · rw [State.job_of_jobs (stopped.1 .jobs (by simp)), job]
    · rw [State.flask, stopped.1 .flasks (by simp)]
      exact tiles

end Sys2Proof.Machine
end

section
/-! PROOFS. The tiles of a job in its flask's queue (R64). -/

set_option Elab.async false

namespace Sys2Proof.Machine

theorem mem_tileInsert (t q : TileQ) (xs : List TileQ) : q ∈ tileInsert t xs ↔ q = t ∨ q ∈ xs := by
  induction xs with
  | nil => simp [tileInsert]
  | cons y ys ih =>
    unfold tileInsert
    split
    · simp only [List.mem_cons, ih]
      tauto
    · simp only [List.mem_cons]

theorem mem_tilesInserted {α : Type} (g : α → TileQ) (ps : List α) (xs : List TileQ) (q : TileQ) :
    q ∈ ps.foldl (fun q p => tileInsert (g p) q) xs ↔ (∃ p ∈ ps, q = g p) ∨ q ∈ xs := by
  induction ps generalizing xs with
  | nil => simp
  | cons p ps ih =>
    rw [List.foldl_cons, ih, mem_tileInsert]
    simp only [List.mem_cons, exists_eq_or_imp, or_assoc, or_left_comm]

/-- A tile of a job, with its number, as it enters the queue. -/
def State.queuedTile (s : State) (f j prio : Nat) (urgent : Bool) (p : Nat × List Nat) : TileQ :=
  { job := j, tile := p.1, prio := prio, order := (s.flask f).order, array := tdArray p.2, urgent := urgent }

/-- The tiles that a job queues, beside those that its flask held. -/
theorem State.queueTiles_flask (s : State) (f j prio : Nat) (tiles : List (List Nat)) (urgent : Bool) :
    (∀ k < tiles.length, ∃ q ∈ ((s.queueTiles f j prio tiles urgent).flask f).tiles, q.job = j ∧ q.tile = k)
      ∧ (∀ q ∈ (s.flask f).tiles, q ∈ ((s.queueTiles f j prio tiles urgent).flask f).tiles)
      ∧ (∀ g, g ≠ f → (s.queueTiles f j prio tiles urgent).flask g = s.flask g)
      ∧ (s.queueTiles f j prio tiles urgent).work = s.work
      ∧ Leaves [.flasks] noReg s (s.queueTiles f j prio tiles urgent) := by
  have mem : ∀ q, q ∈ ((s.queueTiles f j prio tiles urgent).flask f).tiles ↔
      (∃ p ∈ (List.range tiles.length).zip tiles, q = s.queuedTile f j prio urgent p) ∨ q ∈ (s.flask f).tiles := by
    intro q
    rw [← mem_tilesInserted]
    unfold State.queueTiles State.queuedTile
    dsimp only
    split <;> simp [State.modFlask, State.flask]
  refine ⟨fun k hk => ?_, fun q hq => (mem q).mpr (.inr hq), fun g hg => ?_, ?_, ?_⟩
  · refine ⟨_, (mem _).mpr (.inl ⟨(k, tiles[k]), ?_, rfl⟩), rfl, rfl⟩
    refine List.mem_iff_getElem.mpr ⟨k, by simpa using hk, ?_⟩
    rw [List.getElem_zip, List.getElem_range]
  · unfold State.queueTiles
    dsimp only
    split <;> simp [State.modFlask, State.flask, hg]
  · unfold State.queueTiles
    dsimp only
    split <;> rfl
  · exact .ite (.modFlask (.modFlask (.refl _ _ s))) (.modFlask (.refl _ _ s))

/-- A running job of its class does its work. -/
theorem State.runningJob_runs {s : State} {j op : Nat} {x : Job} (h : s.runs j op x) (g : Job → State) :
    s.runningJob j op g = g x := by
  obtain ⟨job, phase, opcode, sweep⟩ := h
  unfold State.runningJob
  rw [job]
  dsimp only
  rw [if_pos (by rw [sweep]; simp [phase, opcode])]

/-- A job that does not run does nothing. -/
theorem State.runningJob_idle {s : State} {j op : Nat} {x : Job} (h : s.job j = some x) (hp : x.phase ≠ .running)
    (g : Job → State) : s.runningJob j op g = s := by
  unfold State.runningJob
  rw [h]
  dsimp only
  rw [if_neg (by simp [hp])]

/-- The tiles of a job enter the queue of a flask that the pour table does not time. -/
theorem State.placeTiles_queues (s : State) (x : Job) (held : s.job x.id = some x) (hf : s.timed (s.jobFlask x) = false)
    (hi : x.issued = 0) : JobTo x.id { x with issued := x.tiles.length } s (s.placeTiles x)
      ∧ (∀ k < x.tiles.length, ∃ q ∈ ((s.placeTiles x).flask (s.jobFlask x)).tiles, q.job = x.id ∧ q.tile = k)
      ∧ (∀ q ∈ (s.flask (s.jobFlask x)).tiles, q ∈ ((s.placeTiles x).flask (s.jobFlask x)).tiles)
      ∧ (∀ f, f ≠ s.jobFlask x → (s.placeTiles x).flask f = s.flask f)
      ∧ Leaves [.jobs, .flasks] noReg s (s.placeTiles x) := by
  obtain ⟨queued, others, rest, work, leaves⟩ := s.queueTiles_flask (s.jobFlask x) x.id x.prio x.tiles (s.urgent x)
  rw [State.placeTiles, if_neg (by simp [hf, hi])]
  have same : (s.queueTiles (s.jobFlask x) x.id x.prio x.tiles (s.urgent x)).work.jobs = s.work.jobs := congrArg _ work
  exact ⟨.after_same same (.of_modJob _ (fun _ => rfl) (by rw [State.job_of_jobs same]; exact held)), queued, others,
    rest, (leaves.mono (by simp) fun _ _ e => e).modJob⟩

/-- A TENSOR job of a flask that the pour table does not time queues its tiles. -/
theorem tensor_queues (s : State) (j : Nat) (x : Job) (h : s.runs j 1 x) (hf : s.timed (s.jobFlask x) = false)
    (hi : x.issued = 0) : ∃ t, exec (.tensor j) s = .next t ∧ JobTo j { x with issued := x.tiles.length } s t
      ∧ (∀ k < x.tiles.length, ∃ q ∈ (t.flask (s.jobFlask x)).tiles, q.job = j ∧ q.tile = k)
      ∧ (∀ q ∈ (s.flask (s.jobFlask x)).tiles, q ∈ (t.flask (s.jobFlask x)).tiles)
      ∧ (∀ f, f ≠ s.jobFlask x → t.flask f = s.flask f) ∧ Leaves [.jobs, .flasks] noReg s t := by
  obtain rfl := State.id_of_job h.1
  exact ⟨_, by rw [exec_tensor, execTensor, State.runningJob_runs h], s.placeTiles_queues x h.1 hf hi⟩

end Sys2Proof.Machine
end

section
/-! PROOFS. Jobs start, run and end. -/

set_option Elab.async false

namespace Sys2Proof.Machine

/-- Settles O17: a start is `beginJob_begins`, a fault `faultJob_ends`. -/
theorem jobsStartRunAndEnd : Obligations.JobsStartRunAndEnd := by
  refine ⟨⟨fun s j x hj hs he hf hw hc => ⟨fun slot => ?_, fun none => ?_⟩, fun s s1 j x bs hj hs he hf hw hr =>
    ⟨fun early => ?_, fun due hc slot => ?_⟩, fun s j x hj hs he hf => ?_, fun s j x hj waits late =>
    ⟨?_, fun hs => ?_⟩⟩, fun s j x h => ?_, fun s j x h => ?_, tensor_queues, fun s j tile x hj runs => ?_,
    fun s j tile x hj idle => ?_⟩
  · obtain rfl := State.id_of_job hj
    obtain ⟨b, small, plain, rest⟩ := s.beginJob_begins x hj _ rfl
    exact ⟨_, b, by rw [exec_jobStart, execJobStart, State.startJob_free hj hs he hf hw hc, if_pos slot], small, plain, rest⟩
  · rw [exec_jobStart, execJobStart, State.startJob_free hj hs he hf hw hc, if_neg (by simp [none])]
  · rw [exec_jobStart, execJobStart, State.startJob_read hj hs he hf hw hr, if_neg (by simp [early])]
  · have read : Accessed s s1 := .of_eq hr (accessed_instRead ..)
    have same : s1.work.jobs = s.work.jobs := read.1 .jobs (by simp [accessParts])
    obtain rfl := State.id_of_job hj
    obtain ⟨b, small, plain, job, -, -, -, leaves⟩ := s1.beginJob_begins x (by rw [State.job_of_jobs same, hj]) _ rfl
    refine ⟨_, b, ?_, small, fun no => (plain (by rwa [read.timedJob])).1, .after_same same job, ?_⟩
    · rw [exec_jobStart, execJobStart, State.startJob_read hj hs he hf hw hr, if_pos due,
        if_neg (by simp [read.classLost, hc]), if_pos (by rw [read.slotFree, slot])]
    · exact .into (read.mono (fun _ h => by simp [h]) fun _ _ e => e) leaves (by simp [accessParts])
        fun _ _ no => False.elim no
  · rw [exec_jobStart, execJobStart, State.startJob]
    simp only [hj, hs, he, hf, Bool.not_true, Bool.not_false, Bool.false_eq_true, if_false, if_true]
  · refine ⟨_, ?_, .of_endJob stExpired none hj (by simp [waits]), .endJob (.refl _ _ s)⟩
    rw [exec_jobExpire, execJobExpire, State.expireJob]
    simp only [hj, waits, late, decide_true, Bool.and_self, if_true]
  · refine ⟨_, ?_, .of_endJob stExpired none hj (by simp [waits]), .endJob (.refl _ _ s)⟩
    rw [exec_jobStart, execJobStart, State.startJob]
    simp only [hj, hs, late, Bool.not_true, Bool.false_eq_true, if_false, if_true]
  · exact ⟨_, by rw [exec_nopJob, execNopJob, State.runningJob_runs h], .of_endJob stOk none h.1 (by simp [h.2.1]),
      .endJob (.refl _ _ s)⟩
  · exact ⟨_, by rw [exec_fenceJob, execFenceJob, State.runningJob_runs h], .of_endJob stOk none h.1 (by simp [h.2.1]),
      .endJob (.refl _ _ s)⟩
  · have closed := s.leaves_closeRunOf x
    have held : (s.closeRunOf x).job j = some x := by rw [State.job_of_jobs (closed.1 .jobs (by simp)), hj]
    have flask : (s.closeRunOf x).jobFlask x = s.jobFlask x := closed.f_same SYS_INST.FLASK _ (by simp [SYS_INST.FLASK])
    obtain ⟨job, tiles, leaves⟩ := (s.closeRunOf x).faultJob_ends j stJobFault tile x held (by simp [runs])
    rw [flask] at tiles
    refine ⟨_, ?_, job, tiles, fun no4 no5 => ?_⟩
    · rw [exec_jobFault, execJobFault]
      simp only [hj, runs, if_true]
    · have none : s.closeRunOf x = s := by rw [State.closeRunOf, if_neg (by simp [no4, no5])]
      rw [none] at leaves ⊢
      exact leaves
  · refine ⟨?_, ?_, ?_, ?_⟩
    · rw [exec_nopJob, execNopJob, State.runningJob_idle hj idle]
    · rw [exec_fenceJob, execFenceJob, State.runningJob_idle hj idle]
    · rw [exec_tensor, execTensor, State.runningJob_idle hj idle]
    · rw [exec_jobFault, execJobFault]
      simp only [hj, if_neg idle]

end Sys2Proof.Machine
end

section
/-! PROOFS. Little-endian bytes. -/

set_option Elab.async false

namespace Sys2Proof.Machine

theorem length_toLE (n v : Nat) : (toLE n v).length = n := by
  induction n generalizing v with
  | zero => rfl
  | succ n ih => rw [toLE, List.length_cons, ih]

theorem leNat_toLE (n v : Nat) : leNat (toLE n v) = v % 256 ^ n := by
  induction n generalizing v with
  | zero => simp [toLE, leNat, Nat.mod_one]
  | succ n ih =>
    rw [toLE, leNat, ih, BitVec.toNat_ofNat, Nat.pow_succ' (n := n) (m := 256)]
    exact Nat.mod_mul.symm

/-- A field of words that are written one after another. -/
theorem leAt_append_left (xs ys : List Byte) (o n : Nat) (h : o + n ≤ xs.length) : leAt (xs ++ ys) o n = leAt xs o n := by
  unfold leAt
  rw [List.drop_append_of_le_length (by omega), List.take_append_of_le_length (by simp; omega)]

theorem leAt_append_right (xs ys : List Byte) (o n : Nat) (h : xs.length ≤ o) :
    leAt (xs ++ ys) o n = leAt ys (o - xs.length) n := by
  unfold leAt
  rw [List.drop_append, List.drop_of_length_le h, List.nil_append]

theorem leAt_toLE (n v : Nat) : leAt (toLE n v) 0 n = v % 256 ^ n := by
  rw [leAt, List.drop_zero, List.take_of_length_le (by rw [length_toLE]), leNat_toLE]

/-- A field of a number given by its parts. -/
theorem bits_of_parts {v hi lo top mid low : Nat} (h : v = top * 2 ^ (hi + 1) + mid * 2 ^ lo + low) (hl : lo ≤ hi + 1)
    (hm : mid < 2 ^ (hi + 1 - lo)) (hlow : low < 2 ^ lo) : bits v hi lo = mid := by
  have e : 2 ^ (hi + 1) = 2 ^ (hi + 1 - lo) * 2 ^ lo := by rw [← pow_add]; congr 1; omega
  have parts : v = low + 2 ^ lo * (mid + 2 ^ (hi + 1 - lo) * top) := by rw [h, e]; ring
  unfold bits
  rw [parts, Nat.add_mul_div_left _ _ (Nat.two_pow_pos _), Nat.div_eq_of_lt hlow, Nat.zero_add,
    Nat.add_mul_mod_self_left, Nat.mod_eq_of_lt hm]

end Sys2Proof.Machine
end

section
/-! PROOFS. Completion records (R33, R36, R42, R44). -/

set_option Elab.async false

namespace Sys2Proof.Machine

/-! ## The record -/

/-- Four words one after another. -/
theorem leAt_fourWords (a b c d : Nat) (r : List Byte) (hr : toLE 8 a ++ toLE 8 b ++ toLE 8 c ++ toLE 8 d = r) :
    r.length = 32 ∧ leAt r 0 8 = a % 256 ^ 8 ∧ leAt r 8 8 = b % 256 ^ 8 ∧ leAt r 16 8 = c % 256 ^ 8
      ∧ leAt r 24 8 = d % 256 ^ 8 := by
  subst hr
  refine ⟨by simp [length_toLE], ?_, ?_, ?_, ?_⟩
  · rw [List.append_assoc, List.append_assoc, leAt_append_left _ _ _ _ (by rw [length_toLE]), leAt_toLE]
  · rw [List.append_assoc, List.append_assoc, leAt_append_right _ _ _ _ (by rw [length_toLE]), length_toLE,
      leAt_append_left _ _ _ _ (by simp [length_toLE]), Nat.sub_self, leAt_toLE]
  · rw [List.append_assoc, leAt_append_right _ _ _ _ (by simp [length_toLE]),
      leAt_append_left _ _ _ _ (by simp [length_toLE])]
    simp only [List.length_append, length_toLE]
    rw [leAt_toLE]
  · rw [leAt_append_right _ _ _ _ (by simp [length_toLE])]
    simp only [List.length_append, length_toLE]
    rw [leAt_toLE]

theorem cplRecord_fields (x : Job) (ph : Bool) (now d : Nat) (hn : now < 2 ^ 64) (r : List Byte)
    (hr : cplRecord x ph now d = r) :
    r.length = 32 ∧ bit (leAt r 0 8) 63 = ph ∧ bits (leAt r 0 8) 55 48 = x.status % 256
      ∧ bits (leAt r 0 8) 47 32 = x.cflags % 65536 ∧ bits (leAt r 0 8) 31 0 = x.seqno
      ∧ leAt r 8 8 = x.tag % 2 ^ 64 ∧ leAt r 16 8 = now ∧ bits (leAt r 24 8) 63 32 = d % 2 ^ 32
      ∧ bits (leAt r 24 8) 31 0 = min (cdiv x.arrayNs 1000) (2 ^ 32 - 1) := by
  have seqno : x.seqno < 2 ^ 32 := bits_lt _ _ _
  have phase : b2n ph < 2 := by cases ph <;> decide
  obtain ⟨length, first, second, third, fourth⟩ := leAt_fourWords _ _ _ _ r hr
  have small : min (cdiv x.arrayNs 1000) (2 ^ 32 - 1) < 2 ^ 32 := by omega
  rw [Nat.mod_eq_of_lt (by omega)] at first third fourth
  rw [first, second, third, fourth, length]
  refine ⟨rfl, ?_, ?_, ?_, ?_, ?_, rfl, ?_, ?_⟩
  · have stamp := bits_of_parts (v := b2n ph * 2 ^ 63 + x.status % 256 * 2 ^ 48 + x.cflags % 65536 * 2 ^ 32 + x.seqno)
      (hi := 63) (lo := 63) (top := 0) (mid := b2n ph) (low := x.status % 256 * 2 ^ 48 + x.cflags % 65536 * 2 ^ 32 + x.seqno)
      (by omega) (by omega) (by omega) (by omega)
    rw [bit, stamp]
    cases ph <;> rfl
  · exact bits_of_parts (top := b2n ph * 2 ^ 7) (low := x.cflags % 65536 * 2 ^ 32 + x.seqno) (by omega) (by omega) (by omega)
      (by omega)
  · exact bits_of_parts (top := b2n ph * 2 ^ 15 + x.status % 256) (low := x.seqno) (by omega) (by omega) (by omega) (by omega)
  · exact bits_of_parts (top := b2n ph * 2 ^ 31 + x.status % 256 * 2 ^ 16 + x.cflags % 65536) (low := 0) (by omega) (by omega)
      (by omega) (by omega)
  · rfl
  · exact bits_of_parts (top := 0) (low := min (cdiv x.arrayNs 1000) (2 ^ 32 - 1)) (by omega) (by omega) (by omega) (by omega)
  · exact bits_of_parts (top := d % 2 ^ 32) (low := 0) (by omega) (by omega) (by omega) (by omega)

/-- PHASE is inverted on each pass of the ring. -/
theorem cplPhase_next (idx size : Nat) (h : 0 < size) : cplPhase (idx + size) size = !cplPhase idx size := by
  unfold cplPhase
  rw [Nat.add_div_right _ h]
  generalize idx / size = n
  rcases Nat.mod_two_eq_zero_or_one n with e | e
  · simp [e, Nat.add_mod]
  · simp [e, Nat.add_mod]

/-! ## What an ended job accesses before its record -/

section
variable {b s : State}

theorem Accessed.instWrite {inst va : Nat} {bs : List Byte} (h : Accessed b s) : Accessed b (instWrite s inst va bs).2 :=
  h.trans (accessed_instWrite ..)

theorem Accessed.spoil {inst : Nat} {r : Nat × Nat} (h : Accessed b s) : Accessed b (s.spoil inst r) := by
  have written := accessed_instWrite (s.freshBytes r.2).2 inst r.1 (s.freshBytes r.2).1
  refine Leaves.trans (h.trans (accessed_of_regs (t := { (s.freshBytes r.2).2 with
    mem := { (Machine.instWrite (s.freshBytes r.2).2 inst r.1 (s.freshBytes r.2).1).2.mem with
      gates := (s.freshBytes r.2).2.mem.gates, gateQ := (s.freshBytes r.2).2.mem.gateQ } }) ?_ rfl)) (accessed_updateOcc _)
  intro p hp
  have kept := written.1 p hp
  cases p
  case freeCtr => exact absurd (by simp [accessParts]) hp
  all_goals first | rfl | exact kept

theorem Accessed.spoilOutputs {x : Job} (h : Accessed b s) : Accessed b (s.spoilOutputs x) :=
  .ite (.over h fun _ _ g => Accessed.spoil g) h

theorem Accessed.signalJob {x : Job} (h : Accessed b s) : Accessed b (s.signalJob x) := by
  unfold State.signalJob instRead64
  split
  · exact h
  · split <;> rename_i e
    · split at e <;> rename_i e₁ <;> cases e
      exact Accessed.instWrite (.of_eq e₁ h.instRead)
    · split at e <;> rename_i e₁ <;> cases e
      exact .of_eq e₁ h.instRead

theorem Accessed.jobDetail {x : Job} (h : Accessed b s) : Accessed b (s.jobDetail x).2 := by
  unfold State.jobDetail
  split
  · exact h
  · exact h.trans (accessed_fresh s)

end

/-! ## The end of a job -/

/-- The job leaves the dispatcher, and its slot is freed. -/
def State.jobGone (s : State) (j : Nat) (x : Job) : State :=
  ({ s with work.jobs := s.work.jobs.filter fun y => y.id != j }).modQ x.queue fun q =>
    { q with reserved := if x.slot then q.reserved - 1 else q.reserved }

/-- The completion record is written. -/
def State.recordWritten (s : State) (x : Job) : MRes × State :=
  instWrite (((s.spoilOutputs x).signalJob x).jobDetail x).2 x.inst
    (s.f SPR_QCPL_BASE.BASE x.queue * 32 + 32 * ((s.q x.queue).nextCpl % s.cplSize x.queue))
    (cplRecord x (cplPhase (s.q x.queue).nextCpl (s.cplSize x.queue)) s.now (((s.spoilOutputs x).signalJob x).jobDetail x).1)

section
variable (s : State) (j : Nat) (x : Job)

theorem State.accessed_jobDetail : Accessed s (((s.spoilOutputs x).signalJob x).jobDetail x).2 :=
  .jobDetail (.signalJob (.spoilOutputs (.refl _ _ s)))

/-- The queue's indices and the time are those before the job's last accesses. -/
theorem State.completeJob_ended (hj : s.job j = some x) (ended : x.phase = .ended)
    (slot : x.slot = true ∨ s.slotFree x.queue = true) (quiet : s.jobQuiet j = true) :
    s.completeJob j = match s.recordWritten x with
      | (.ok _, t) =>
        let u := (t.jobGone j x).modQ x.queue fun q => { q with nextCpl := (q.nextCpl + 1) % 2 ^ 32 }
        (if x.irq then u.emit (.instIrq x.inst (u.f SPR_QCFG.IRQ_VEC x.queue)) else u).showQueue x.queue
      | (e, t) => (t.jobGone j x).queueError x.queue e.status := by
  have acc := s.accessed_jobDetail x
  unfold State.completeJob State.recordWritten
  rw [hj]
  dsimp only
  rw [if_neg (by rcases slot with h | h <;> simp [ended, h, quiet])]
  generalize ((s.spoilOutputs x).signalJob x).jobDetail x = d at acc ⊢
  obtain ⟨detail, t⟩ := d
  dsimp only at acc ⊢
  have queue : t.q x.queue = s.q x.queue := by rw [State.q, State.q, acc.1 .queues (by simp [accessParts])]
  have size : t.cplSize x.queue = s.cplSize x.queue := by
    rw [State.cplSize, State.cplSize, acc.f_same SPR_QCFG.CPL_LOG2 _ (by simp [accessRegs, SPR_QCFG.CPL_LOG2])]
  have now : t.now = s.now := congrArg ClockSt.ns (acc.1 .clock (by simp [accessParts]))
  rw [queue, size, now, acc.f_same SPR_QCPL_BASE.BASE _ (by simp [accessRegs, SPR_QCPL_BASE.BASE])]
  rfl

theorem State.jobGone_job : (s.jobGone j x).job j = none ∧ ∀ k, k ≠ j → (s.jobGone j x).job k = s.job k := by
  unfold State.jobGone State.job State.modQ
  dsimp only
  constructor
  · rw [List.find?_eq_none]
    intro y hy
    have := (List.mem_filter.mp hy).2
    simpa using this
  · intro k hk
    rw [List.find?_filter]
    congr 1
    funext y
    by_cases h : y.id = k
    · simp [h, hk]
    · simp [h]

theorem State.jobGone_q : ((s.jobGone j x).q x.queue).reserved
      = (if x.slot then (s.q x.queue).reserved - 1 else (s.q x.queue).reserved)
    ∧ ((s.jobGone j x).q x.queue).nextCpl = (s.q x.queue).nextCpl := by
  unfold State.jobGone
  rw [State.modQ_same]
  exact ⟨rfl, rfl⟩

theorem Leaves.jobGone {ps : List Part} {q : Reg → Nat → Prop} {b s : State} (h : Leaves ps q b s) (hj : .jobs ∈ ps := by simp)
    (hq : .queues ∈ ps := by simp) : Leaves ps q b (s.jobGone j x) := .modQ (h.one .jobs hj) hq

/-- The interrupt of a job that asks for one leaves the rest. -/
theorem State.interrupted_same (c : Bool) (o : Out) : (if c then s.emit o else s).work = s.work
    ∧ (if c then s.emit o else s).mem = s.mem := by
  cases c <;> exact ⟨rfl, rfl⟩

theorem State.showQueue_beside : (s.showQueue j).mem = s.mem ∧ (s.showQueue j).outbox = s.outbox := by
  unfold State.showQueue
  dsimp only
  split
  · exact ⟨rfl, rfl⟩
  · exact ⟨State.setF_mem .., State.setF_outbox ..⟩

theorem State.queueError_beside (c : Nat) : (s.queueError j c).mem = s.mem := by
  unfold State.queueError
  rw [State.setF_mem, State.setF_mem]
  rfl

end

/-- The record's access leaves the job, its queue and the interrupt vector. -/
theorem State.accessed_recordWritten (s : State) (x : Job) : Accessed s (s.recordWritten x).2 :=
  .instWrite (s.accessed_jobDetail x)

theorem Accessed.q_same {s t : State} (h : Accessed s t) (n : Nat) : t.q n = s.q n := by
  rw [State.q, State.q, h.1 .queues (by simp [accessParts])]

theorem Accessed.job_same {s t : State} (h : Accessed s t) (k : Nat) : t.job k = s.job k :=
  State.job_of_jobs (h.1 .jobs (by simp [accessParts])) k

/-- R33, R42: the record is written, and the queue goes on to its next index. -/
theorem jobComplete_recorded (s t : State) (j : Nat) (x : Job) (bs : List Byte) (hj : s.job j = some x) (ended : x.phase = .ended)
    (slot : x.slot = true ∨ s.slotFree x.queue = true) (quiet : s.jobQuiet j = true) (hw : s.recordWritten x = (.ok bs, t)) :
    ∃ u, exec (.jobComplete j) s = .next u ∧ u.job j = none ∧ (∀ k, k ≠ j → u.job k = s.job k)
      ∧ (u.q x.queue).reserved = (if x.slot then (s.q x.queue).reserved - 1 else (s.q x.queue).reserved)
      ∧ u.mem.cells = t.mem.cells ∧ (u.q x.queue).nextCpl = ((s.q x.queue).nextCpl + 1) % 2 ^ 32
      ∧ (x.irq = true → u.outbox.head? = some (.instIrq x.inst (s.f SPR_QCFG.IRQ_VEC x.queue)))
      ∧ Leaves (.jobs :: .queues :: accessParts) (fun r i => accessRegs r i ∨ (r = .sprQstat ∧ i = x.queue)) s u := by
  have acc : Accessed s t := .of_eq hw (s.accessed_recordWritten x)
  have run := s.completeJob_ended j x hj ended slot quiet
  rw [hw] at run
  dsimp only at run
  obtain ⟨gone, others⟩ := t.jobGone_job j x
  obtain ⟨reserved, next⟩ := t.jobGone_q j x
  have whole : Leaves (.jobs :: .queues :: accessParts) (fun r i => accessRegs r i ∨ (r = .sprQstat ∧ i = x.queue)) s
      ((t.jobGone j x).modQ x.queue fun q => { q with nextCpl := (q.nextCpl + 1) % 2 ^ 32 }) :=
    .modQ (Leaves.jobGone j x (acc.mono (fun _ h => by simp [h]) fun _ _ => .inl))
  have vec : ((t.jobGone j x).modQ x.queue fun q => { q with nextCpl := (q.nextCpl + 1) % 2 ^ 32 }).f SPR_QCFG.IRQ_VEC x.queue
      = s.f SPR_QCFG.IRQ_VEC x.queue := whole.f_same _ _ (by simp [accessRegs, SPR_QCFG.IRQ_VEC])
  have held : ∀ k, ((t.jobGone j x).modQ x.queue fun q => { q with nextCpl := (q.nextCpl + 1) % 2 ^ 32 }).job k
      = (t.jobGone j x).job k := fun k => State.modQ_job ..
  have queue := (t.jobGone j x).modQ_same x.queue fun q => { q with nextCpl := (q.nextCpl + 1) % 2 ^ 32 }
  have cells : ((t.jobGone j x).modQ x.queue fun q => { q with nextCpl := (q.nextCpl + 1) % 2 ^ 32 }).mem = t.mem := rfl
  generalize (t.jobGone j x).modQ x.queue (fun q => { q with nextCpl := (q.nextCpl + 1) % 2 ^ 32 }) = u
    at run whole vec held queue cells
  have work := u.interrupted_same x.irq (.instIrq x.inst (u.f SPR_QCFG.IRQ_VEC x.queue))
  refine ⟨_, by rw [exec_jobComplete, execJobComplete, run], ?_, fun k hk => ?_, ?_, ?_, ?_, fun irq => ?_,
    .showQueue (.ite (whole.emit (by simp [accessParts])) whole) (.inr ⟨rfl, rfl⟩)⟩
  · rw [State.job_of_jobs (congrArg WorkSt.jobs ((State.showQueue_work _ _).trans work.1)), held, gone]
  · rw [State.job_of_jobs (congrArg WorkSt.jobs ((State.showQueue_work _ _).trans work.1)), held, others k hk,
      acc.job_same]
  · rw [State.showQueue_q, State.q, work.1, ← State.q, queue]
    exact reserved.trans (by rw [acc.q_same])
  · rw [(State.showQueue_beside _ _).1, work.2, cells]
  · rw [State.showQueue_q, State.q, work.1, ← State.q, queue, next, acc.q_same]
  · rw [(State.showQueue_beside _ _).2, if_pos irq, ← vec]
    rfl

/-- R44: a record that cannot be written puts the queue in the error state. -/
theorem jobComplete_lost (s t : State) (j : Nat) (x : Job) (e : MRes) (hj : s.job j = some x) (ended : x.phase = .ended)
    (slot : x.slot = true ∨ s.slotFree x.queue = true) (quiet : s.jobQuiet j = true) (he : e.good = false)
    (hw : s.recordWritten x = (e, t)) :
    ∃ u, exec (.jobComplete j) s = .next u ∧ u.job j = none ∧ (∀ k, k ≠ j → u.job k = s.job k)
      ∧ (u.q x.queue).reserved = (if x.slot then (s.q x.queue).reserved - 1 else (s.q x.queue).reserved)
      ∧ u.mem.cells = t.mem.cells ∧ u.f SPR_QSTAT.STATE x.queue = 3 ∧ u.f SPR_QSTAT.ERR_CODE x.queue = e.status
      ∧ (u.q x.queue).nextCpl = (s.q x.queue).nextCpl ∧ ¬ u.queuePending x.queue
      ∧ Leaves (.jobs :: .queues :: .sprue :: accessParts)
          (fun r i => accessRegs r i ∨ (r = .sprQstat ∧ i = x.queue)) s u := by
  have acc : Accessed s t := .of_eq hw (s.accessed_recordWritten x)
  have run : s.completeJob j = (t.jobGone j x).queueError x.queue e.status := by
    rw [s.completeJob_ended j x hj ended slot quiet, hw]
    cases e with
    | ok bs => cases he
    | xlate => rfl
    | integ => rfl
    | clock => rfl
  obtain ⟨gone, others⟩ := t.jobGone_job j x
  obtain ⟨reserved, next⟩ := t.jobGone_q j x
  have held : ∀ k, ((t.jobGone j x).queueError x.queue e.status).job k = (t.jobGone j x).job k := fun k =>
    State.job_of_jobs (by rw [State.queueError_work]; rfl) k
  have queue : ((t.jobGone j x).queueError x.queue e.status).q x.queue = (t.jobGone j x).q x.queue := by
    rw [State.q, State.queueError_work]
    rfl
  refine ⟨_, by rw [exec_jobComplete, execJobComplete, run], ?_, fun k hk => ?_, ?_, ?_, State.queueError_state _ _ _, ?_, ?_,
    State.not_queuePending_queueError _ _ _, .queueError (Leaves.jobGone j x (acc.mono (fun _ h => by simp [h])
      fun _ _ => .inl)) (.inr ⟨rfl, rfl⟩)⟩
  · rw [held, gone]
  · rw [held, others k hk, acc.job_same]
  · rw [queue, reserved, acc.q_same]
  · rw [State.queueError_beside]
    rfl
  · rw [State.queueError_code, Nat.mod_eq_of_lt e.status_lt]
  · rw [queue, next, acc.q_same]

/-- Settles O18: the record is written (`jobComplete_recorded`) or not (`jobComplete_lost`). -/
theorem completionsAreRecordedInTheRing : Obligations.CompletionsAreRecordedInTheRing := by
  refine ⟨fun s j x hj ended slot quiet => ?_, fun s j x hj waits => ?_, fun x ph now d hn => cplRecord_fields x ph now d hn _ rfl,
    cplPhase_next⟩
  · intro d w
    have hw : s.recordWritten x = w := rfl
    clear_value w
    obtain ⟨e, t⟩ := w
    by_cases good : e.good = true
    · obtain ⟨bs, rfl⟩ : ∃ bs, e = .ok bs := by cases e <;> simp_all [MRes.good]
      obtain ⟨u, run, gone, others, reserved, cells, next, irq, leaves⟩ :=
        jobComplete_recorded s t j x bs hj ended slot quiet hw
      exact ⟨u, run, gone, others, reserved, cells, fun _ => ⟨next, irq, leaves⟩, fun no => absurd no (by simp [good])⟩
    · obtain ⟨u, run, gone, others, reserved, cells, rest⟩ :=
        jobComplete_lost s t j x e hj ended slot quiet (by simpa using good) hw
      exact ⟨u, run, gone, others, reserved, cells, fun yes => absurd yes good, fun _ => rest⟩
  · rw [exec_jobComplete, execJobComplete, State.completeJob, hj]
    dsimp only
    rw [if_pos]
    rcases waits with h | ⟨h, h'⟩ | h
    · simp [h]
    · simp [h, h']
    · simp [h]

end Sys2Proof.Machine
end

section
/-! PROOFS. Issue on a tensor array (R52, R54): the command at issue, its effect on its array alone, and illegal ones. -/

set_option Elab.async false

namespace Sys2Proof.Machine

section
variable {s t u : State} {a : Nat} {x y : ArraySt}

theorem OnlyArray.trans (h : OnlyArray a x s t) (g : OnlyArray a y t u) : OnlyArray a y s u := by
  obtain ⟨-, others, high, low, leaves⟩ := h
  obtain ⟨here, others', high', low', leaves'⟩ := g
  exact ⟨here, fun b hb => (others' b hb).trans (others b hb), high'.trans high, low'.trans low, leaves.trans leaves'⟩

theorem OnlyArray.of_modArr (s : State) (a : Nat) (g : ArraySt → ArraySt) : OnlyArray a (g (s.arr a)) s (s.modArr a g) :=
  ⟨by rw [State.modArr_arr, if_pos rfl], fun b hb => by rw [State.modArr_arr, if_neg hb], rfl, rfl, .modArr (.refl _ _ s)⟩

theorem OnlyArray.of_showPc (s : State) (a : Nat) : OnlyArray a (s.arr a) s (s.showPc a) := by
  have shown := s.setF_r_same ARR_STATUS.PC a (2048 * s.f ARR_PROG.CUR_HALF a + (s.arr a).pc) (by decide)
  refine ⟨State.setF_arr .., fun b _ => State.setF_arr .., ?_, ?_, .setF (.refl _ _ s) ⟨rfl, rfl⟩⟩
  · rw [State.showPc]
    exact (congrArg (bits · 63 48) shown).trans (bits_putBits_above _ _ _ _ _ _ (by decide) (by decide))
  · rw [State.showPc]
    exact (congrArg (bits · 35 0) shown).trans (bits_putBits_below _ _ _ _ _ _ (by decide) (by decide))

theorem OnlyArray.of_goTo (s : State) (a pc : Nat) : OnlyArray a { s.arr a with pc := pc } s (s.goTo a pc) := by
  have set := OnlyArray.of_modArr s a fun x => { x with pc := pc }
  have shown := OnlyArray.of_showPc (s.modArr a fun x => { x with pc := pc }) a
  rw [set.1] at shown
  exact set.trans shown

/-- A command that changes its array and goes on. -/
theorem OnlyArray.of_next (s : State) (a : Nat) (g : ArraySt → ArraySt) :
    OnlyArray a { g (s.arr a) with pc := (g (s.arr a)).pc + 1 } s ((s.modArr a g).nextCmd a) := by
  have set := OnlyArray.of_modArr s a g
  have next := OnlyArray.of_goTo (s.modArr a g) a (((s.modArr a g).arr a).pc + 1)
  rw [set.1] at next
  rw [State.nextCmd, set.1]
  exact set.trans next

theorem OnlyArray.of_nextCmd (s : State) (a : Nat) : OnlyArray a { s.arr a with pc := (s.arr a).pc + 1 } s (s.nextCmd a) :=
  .of_goTo s a _

theorem State.goTo_pc (s : State) (a pc : Nat) :
    (s.goTo a pc).f ARR_STATUS.PC a = (2048 * s.f ARR_PROG.CUR_HALF a + pc) % 4096 := by
  unfold State.goTo State.showPc
  rw [State.setF_f_width _ _ _ _ 12 (by decide) rfl, State.modArr_f, State.modArr_arr, if_pos rfl,
    (by decide : 2 ^ 12 = 4096)]

/-- The command at issue runs. -/
theorem State.issue_atIssue {op rsv w : Nat} {async : Bool} (h : s.atIssue a op rsv async w) (ho : op ≤ 0xE)
    (go : Nat → State → State) : s.issue a op [(rsv, 0)] async go = go w s := by
  obtain ⟨-, issuing, within, cmd, opcode, reserved, field, event⟩ := h
  unfold State.issue
  rw [if_neg (by simp [issuing]), if_neg (by omega)]
  dsimp only
  rw [cmd, if_neg (by omega), if_neg (by simp [opcode]), if_neg]
  simp only [reserved, List.any_cons, field, List.any_nil, bne_self_eq_false, Bool.or_false, Bool.false_or, Bool.and_eq_true,
    Bool.not_eq_true', not_and, Bool.not_eq_false]
  intro bit119
  cases async with
  | true => rfl
  | false => simp [event rfl] at bit119

theorem State.isArray_of_atIssue {op rsv w : Nat} {async : Bool} (h : s.atIssue a op rsv async w) : isArray a = true := by
  simpa [isArray] using h.1

end

/-! ## Illegal commands -/

/-- Issue past the end of the program, of an unlisted opcode, or with a reserved bit set, is illegal. -/
theorem State.issue_illegal (s : State) (a : Nat) (go : Nat → State → State) (issuing : s.issuing a = true)
    (h : s.f ARR_PROG.CUR_LEN a ≤ (s.arr a).pc ∨ 0xE < bits (s.cmdAt a (s.arr a).pc) 127 120
      ∨ (bits (s.cmdAt a (s.arr a).pc) 127 120 = 0
          ∧ (bit (s.cmdAt a (s.arr a).pc) 119 = true ∨ bits (s.cmdAt a (s.arr a).pc) 115 0 ≠ 0))) :
    s.issue a 0 [(111, 0)] false go = s.illegal a := by
  unfold State.issue
  rw [if_neg (by simp [issuing])]
  split
  · rfl
  · rename_i within
    dsimp only
    split
    · rfl
    · rename_i listed
      obtain ⟨nop, reserved⟩ := (h.resolve_left within).resolve_left listed
      rw [if_neg (by simp [nop]), if_pos]
      rcases reserved with event | field
      · simp [event]
      · have split16 : bits (s.cmdAt a (s.arr a).pc) 115 0
            = bits (s.cmdAt a (s.arr a).pc) 115 112 * 2 ^ 112 + bits (s.cmdAt a (s.arr a).pc) 111 0 := by
          unfold bits
          omega
        by_cases low : bits (s.cmdAt a (s.arr a).pc) 111 0 = 0
        · have high : bits (s.cmdAt a (s.arr a).pc) 115 112 ≠ 0 := fun e => field (by rw [split16, e, low, Nat.zero_mul])
          simp [high]
        · simp [low]

/-! ### An array that a fault stops -/

section
variable (s : State) (a b : Nat)

theorem State.job_mouldFree (lo n : Nat) : ((s.mouldFree a lo n).arr b).job = (s.arr b).job := by
  unfold State.mouldFree State.mouldWrite
  rw [State.modArr_arr]
  split
  · rename_i e
    exact e ▸ rfl
  · rfl

theorem State.job_dropAsync : ((s.dropAsync a).arr b).job = (s.arr b).job := by
  have freed : ∀ rs : List (Nat × Nat), ((s.each rs fun s r => s.mouldFree a r.1 r.2).arr b).job = (s.arr b).job := fun rs =>
    State.each_keeps (P := fun t => (t.arr b).job = (s.arr b).job) rfl fun t r _ h => (t.job_mouldFree a b _ _).trans h
  unfold State.dropAsync
  rw [State.modArr_arr]
  split
  · rename_i e
    subst e
    exact freed _
  · exact freed _

theorem State.job_endStall : ((s.endStall a).arr b).job = (s.arr b).job := by
  unfold State.endStall
  split
  · dsimp only
    rw [State.incWrap_arr]
    rfl
  · rfl

theorem State.job_abortArr : ((s.abortArr a).arr b).job = (s.arr b).job := by
  unfold State.abortArr
  rw [State.setF_arr, State.modArr_arr]
  split
  · rename_i e
    rw [← e]
    exact ((s.endStall b).job_dropAsync b b).trans (s.job_endStall b b)
  · exact ((s.endStall a).job_dropAsync a b).trans (s.job_endStall a b)

theorem State.job_dropNext : ((s.dropNext a).arr b).job = (s.arr b).job := by
  unfold State.dropNext
  split
  · rw [State.setF_arr, State.modArr_arr]
    split
    · rename_i e
      rw [e]
    · rfl
  · rfl

theorem State.abortArr_state : (s.abortArr a).f ARR_STATUS.STATE a = 3 := by
  unfold State.abortArr
  rw [State.setF_f_width _ _ _ _ 4 (by decide) rfl, (by decide : 3 % 2 ^ 4 = 3)]

/-- A status field other than STATE stays when an array is aborted. -/
theorem State.abortArr_status (x : Fld) (hx : x.reg = .arrStatus) (h : ARR_STATUS.STATE.apart x ∨ b ≠ a) :
    (s.abortArr a).f x b = s.f x b := by
  have before : ((s.endStall a).dropAsync a |>.modArr a ArraySt.discard).f x b = s.f x b :=
    (Leaves.modArr (Leaves.dropAsync (Leaves.endStall (ps := [.arrays, .freeCtr]) (q := fun r _ => r = .arrPerf) (.refl _ _ s)
      rfl))).f_same x b (by simp [hx])
  rw [State.abortArr, ← before]
  rcases h with h | h
  · exact State.setF_f_apart _ _ _ _ _ _ (by decide) h
  · rw [State.f, State.setF_r_ne _ _ _ _ _ _ fun e => h e.2]
    rfl

theorem State.dropNext_status (x : Fld) (hx : x.reg = .arrStatus) : (s.dropNext a).f x b = s.f x b :=
  (Leaves.dropNext (ps := [.arrays]) (q := fun r _ => r = .arrProg) (.refl _ _ s) rfl).f_same x b (by simp [hx])

/-- A fault stops an involved array: its NEXT program is dropped and its job aborted. -/
def State.stopArray (s : State) (a : Nat) : State :=
  let s' := s.dropNext a
  if (s'.arr a).job.isSome then s'.abortArr a else s'

theorem State.job_stopArray : ((s.stopArray a).arr b).job = (s.arr b).job := by
  unfold State.stopArray
  dsimp only
  split
  · exact (State.job_abortArr _ _ _).trans (s.job_dropNext a b)
  · exact s.job_dropNext a b

theorem State.stopArray_status (x : Fld) (hx : x.reg = .arrStatus) (h : ARR_STATUS.STATE.apart x ∨ b ≠ a) :
    (s.stopArray a).f x b = s.f x b := by
  unfold State.stopArray
  dsimp only
  split
  · rw [State.abortArr_status _ _ _ _ hx h, State.dropNext_status _ _ _ _ hx]
  · exact State.dropNext_status _ _ _ _ hx

theorem State.stopArray_state (h : (s.arr a).job.isSome = true) : (s.stopArray a).f ARR_STATUS.STATE a = 3 := by
  unfold State.stopArray
  dsimp only
  rw [if_pos (by rw [State.job_dropNext, h]), State.abortArr_state]

theorem State.stopped_state (xs : List Nat) (ha : a ∈ xs) (h : (s.arr a).job.isSome = true) :
    (s.each xs State.stopArray).f ARR_STATUS.STATE a = 3 := by
  have stays : ∀ (ys : List Nat) (t : State), t.f ARR_STATUS.STATE a = 3 → (t.arr a).job.isSome = true →
      (t.each ys State.stopArray).f ARR_STATUS.STATE a = 3 := by
    intro ys t h3 hj
    refine (State.each_keeps (P := fun t => t.f ARR_STATUS.STATE a = 3 ∧ (t.arr a).job.isSome = true) ⟨h3, hj⟩
      fun t y _ ⟨h3, hj⟩ => ⟨?_, by rw [State.job_stopArray, hj]⟩).1
    by_cases e : a = y
    · subst e
      exact t.stopArray_state a hj
    · exact (t.stopArray_status y a _ rfl (.inr e)).trans h3
  induction xs generalizing s with
  | nil => cases ha
  | cons x xs ih =>
    by_cases e : a = x
    · subst e
      exact stays xs _ (s.stopArray_state a h) (by rw [State.job_stopArray, h])
    · exact ih _ ((List.mem_cons.mp ha).resolve_left e) (by rw [State.job_stopArray, h])

end

/-- A fault of a job of a flask that the pour table does not time stops the arrays involved, beside jobs and tile queues. -/
theorem State.faultJob_stops (s : State) (j st tile : Nat) (x : Job) (hj : s.job j = some x)
    (free : s.timed (s.jobFlask x) = false) : ∃ t, s.faultJob j st tile = t.each (s.involved j) State.stopArray
      ∧ Leaves [.jobs, .flasks] noReg s t := by
  refine ⟨((s.endJob j st (some tile)).dropTiles (s.jobFlask x) j).each (s.lostJobs j) fun t k =>
    (t.endJob k stJobLost none).dropTiles (s.jobFlask x) k, ?_, .over (.dropTiles (.endJob (.refl _ _ s)))
      fun _ _ h => .dropTiles (.endJob h)⟩
  unfold State.faultJob State.stopArray
  simp only [hj, free, Bool.false_eq_true, if_false]

/-- R54: an illegal command of a tile outside a pair, in a flask that the pour table does not time, is a job fault. -/
theorem State.illegal_faults (s : State) (a : Nat) (r : RunJob) (x : Job) (ha : a < 34) (hr : (s.arr a).job = some r)
    (single : r.role = .single) (hj : s.job r.job = some x) (runs : x.phase = .running)
    (free : s.timed (s.jobFlask x) = false) (t : State) (ht : s.illegal a = t) :
    t.fb ARR_STATUS.ILLEGAL_CMD a = true ∧ t.job r.job = some (x.over stJobFault (some r.tile))
      ∧ t.f ARR_STATUS.STATE a = 3 ∧ (∀ q ∈ (t.flask (s.jobFlask x)).tiles, q.job ≠ r.job)
      ∧ Leaves [.jobs, .flasks, .arrays, .freeCtr] (fun g _ => g = .arrProg ∨ g = .arrStatus ∨ g = .arrPerf) s t := by
  have flagged : Leaves [.jobs, .flasks, .arrays, .freeCtr] faultRegs s (s.setF ARR_STATUS.ILLEGAL_CMD a 1) :=
    .setF (.refl _ _ s) (.inr (.inl rfl))
  have fault : s.illegal a = (s.setF ARR_STATUS.ILLEGAL_CMD a 1).faultJob r.job stJobFault r.tile := by
    unfold State.illegal State.arrFault
    simp only [State.setF_arr, hr, single]
  have held : (s.setF ARR_STATUS.ILLEGAL_CMD a 1).job r.job = some x := (State.setF_job ..).trans hj
  have flask : (s.setF ARR_STATUS.ILLEGAL_CMD a 1).jobFlask x = s.jobFlask x :=
    State.setF_f_apart _ _ _ _ _ _ (by decide) (by decide)
  have untimed : (s.setF ARR_STATUS.ILLEGAL_CMD a 1).timed ((s.setF ARR_STATUS.ILLEGAL_CMD a 1).jobFlask x) = false := by
    rw [flask, State.timed, State.fb_eq, State.setF_f_apart _ _ _ _ _ _ (by decide) (by decide), ← State.fb_eq]
    exact free
  obtain ⟨job, tiles, leaves⟩ := (s.setF ARR_STATUS.ILLEGAL_CMD a 1).faultJob_ends r.job stJobFault r.tile x held
    (by simp [runs])
  obtain ⟨u, stops, beside⟩ := (s.setF ARR_STATUS.ILLEGAL_CMD a 1).faultJob_stops r.job stJobFault r.tile x held untimed
  have arrays : ∀ b, u.arr b = s.arr b := fun b => by
    rw [State.arr, beside.1 .arrays (by simp), ← State.arr, State.setF_arr]
  have involved : a ∈ (s.setF ARR_STATUS.ILLEGAL_CMD a 1).involved r.job := by
    refine List.mem_filter.mpr ⟨List.mem_range.mpr ha, ?_⟩
    rw [State.setF_arr, hr]
    simp
  have flag : u.f ARR_STATUS.ILLEGAL_CMD a = 1 := by
    rw [beside.f_same _ _ (fun no => no), State.setF_f_width _ _ _ _ 1 (by decide) rfl, (by decide : 1 % 2 ^ 1 = 1)]
  rw [flask] at tiles
  rw [← fault, ht] at stops job tiles leaves
  refine ⟨State.fb_of_f ?_, job, ?_, tiles, flagged.trans leaves⟩
  · rw [stops]
    exact State.each_keeps (P := fun t => t.f ARR_STATUS.ILLEGAL_CMD a = 1) flag fun t b _ h =>
      (t.stopArray_status b a _ rfl (.inl (by decide))).trans h
  · rw [stops]
    exact u.stopped_state a _ involved (by rw [arrays, hr]; rfl)

/-- Settles O19: a command at issue changes its array and goes on (`OnlyArray.of_next`); an illegal one is a fault. -/
theorem commandsIssueInOrderOrFault : Obligations.CommandsIssueInOrderOrFault := by
  refine ⟨⟨fun s a w h => ?_, fun s a w h mode => ?_, fun s a w q v l h mode loop => ?_,
    fun s a w h act low high bias => ?_, fun s a w h => ?_, fun s a w h => ⟨fun none => ?_, fun waits => ?_⟩⟩,
    fun s a r x ha issuing hr single hj runs free ill => ?_⟩
  · refine ⟨_, by rw [exec_nop, execNop, State.isArray_of_atIssue h, unit_true, State.issue_atIssue h (by decide)],
      .of_nextCmd s a, ?_⟩
    rw [State.nextCmd, State.goTo_pc, Nat.add_assoc]
  · refine ⟨_, ?_, .of_next s a fun x => { x with armAcc := some (bits w 111 110 == 1) }⟩
    rw [exec_acc, execAcc, State.isArray_of_atIssue h, unit_true, State.issue_atIssue h (by decide), if_neg (by omega)]
    have choice : accMode a w s = (bits w 111 110 == 1) := by
      unfold accMode
      generalize bits w 111 110 = k at mode
      match k, mode with
      | 0, _ => rfl
      | 1, _ => rfl
    rw [choice]
  · refine ⟨_, ?_, .of_next s a fun x => { x with armAcc := some (NMap.get (s.arr a).loops 0 q != 0) }⟩
    rw [exec_acc, execAcc, State.isArray_of_atIssue h, unit_true, State.issue_atIssue h (by decide), if_neg (by omega)]
    have choice : accMode a w s = (NMap.get (s.arr a).loops 0 q != 0) := by
      unfold accMode
      simp only [mode, loop]
    rw [choice]
  · refine ⟨_, ?_, .of_next s a fun x => { x with
      post := { act := bits w 111 108, slope := bits w 107 104, zc := bit w 103, headroom := bits w 102 99,
                windowM1 := bits w 98 95, seed := sint 8 (bits w 94 87), biasEn := bit w 86, biasAddr := bits w 85 64 }
      hist := [] }⟩
    rw [exec_post, execPost, State.isArray_of_atIssue h, unit_true, State.issue_atIssue h (by decide), State.issuePost,
      if_neg]
    have inside : bit w 86 = true → inMould (bits w 85 64) 256 = true := fun on => by
      have := bias on
      simp only [inMould, Bool.and_eq_true, decide_eq_true_eq]
      omega
    simp only [Bool.or_eq_true, decide_eq_true_eq, Bool.and_eq_true, Bool.not_eq_true', not_or, not_and, Bool.not_eq_false]
    exact ⟨⟨⟨by omega, by omega⟩, by omega⟩, inside⟩
  · exact ⟨_, by rw [exec_sig, execSig, State.isArray_of_atIssue h, unit_true, State.issue_atIssue h (by decide)],
      .of_next s a fun x => { x with sigs := x.sigs ++ [(bits w 111 104, crc32Final x.sigCrc)], sigCrc := crc32Init }⟩
  · refine ⟨_, ?_, .of_nextCmd s a⟩
    rw [exec_fence, execFence, State.isArray_of_atIssue h, unit_true, State.issue_atIssue h (by decide), if_pos (by simp [none])]
  · rw [exec_fence, execFence, State.isArray_of_atIssue h, unit_true, State.issue_atIssue h (by decide),
      if_neg (by simpa using waits)]
  · refine ⟨_, ?_, State.illegal_faults s a r x ha hr single hj runs free _ rfl⟩
    rw [exec_nop, execNop, isArray, decide_eq_true ha, unit_true, s.issue_illegal a _ issuing ill]

end Sys2Proof.Machine
end

section
/-! PROOFS. Loops, waits and barriers of array commands (R53, R55, R56). -/

set_option Elab.async false

namespace Sys2Proof.Machine

/-- Changes of different arrays, one after another. -/
theorem State.arr_each (G : ArraySt → ArraySt) (g : State → Nat → State)
    (hg : ∀ t k b, (g t k).arr b = if b = k then G (t.arr k) else t.arr b) (xs : List Nat) (nd : xs.Nodup) (s : State)
    (b : Nat) : (s.each xs g).arr b = if b ∈ xs then G (s.arr b) else s.arr b := by
  induction xs generalizing s with
  | nil => simp [State.each]
  | cons x xs ih =>
    obtain ⟨fresh, rest⟩ := List.nodup_cons.mp nd
    refine (ih rest (g s x)).trans ?_
    rw [hg]
    by_cases e : b = x
    · subst e
      simp [fresh]
    · simp [e]

/-- One more element passes a test. -/
theorem length_filter_add (xs : List Nat) (p p' : Nat → Bool) (a : Nat) (nd : xs.Nodup) (ha : a ∈ xs) (no : p a = false)
    (yes : p' a = true) (same : ∀ b, b ≠ a → p' b = p b) : (xs.filter p').length = (xs.filter p).length + 1 := by
  induction xs with
  | nil => cases ha
  | cons x xs ih =>
    obtain ⟨fresh, rest⟩ := List.nodup_cons.mp nd
    rcases List.mem_cons.mp ha with rfl | inside
    · have rest_same : xs.filter p' = xs.filter p := List.filter_congr fun b hb => same b fun e => fresh (e ▸ hb)
      rw [List.filter_cons_of_pos yes, List.filter_cons_of_neg (by simp [no]), List.length_cons, rest_same]
    · have other : x ≠ a := fun e => fresh (e ▸ inside)
      by_cases hx : p x = true
      · rw [List.filter_cons_of_pos hx, List.filter_cons_of_pos (by rw [same x other, hx]), List.length_cons,
          List.length_cons, ih rest inside]
      · rw [List.filter_cons_of_neg hx, List.filter_cons_of_neg (by rwa [same x other]), ih rest inside]

/-! ## The barrier -/

section
variable (s : State) (a : Nat) (r : RunJob)

/-- An array stands at the barrier of a job with a number of parties. -/
def ArraySt.standsAt (x : ArraySt) (f j b : Nat) : Bool :=
  (x.job.any fun r => r.flask == f && r.job == j) && (match x.sync with | some p => p.1 == b | none => false)

theorem State.atBarrier_eq (f j b : Nat) : s.atBarrier f j b = arrayIds.filter fun k => (s.arr k).standsAt f j b := rfl

/-- The arrays at the barrier once `a` has come. -/
theorem State.atBarrier_come (ha : a < 34) (hr : (s.arr a).job = some r) (b n : Nat)
    (fresh : a ∉ s.atBarrier r.flask r.job b) :
    (((s.modArr a fun x => { x with sync := some (b, n) }).atBarrier r.flask r.job b).length
        = (s.atBarrier r.flask r.job b).length + 1)
      ∧ ∀ k, k ∈ (s.modArr a fun x => { x with sync := some (b, n) }).atBarrier r.flask r.job b
          ↔ k = a ∨ k ∈ s.atBarrier r.flask r.job b := by
  have inside : a ∈ arrayIds := List.mem_range.mpr ha
  have yes : ((s.modArr a fun x => { x with sync := some (b, n) }).arr a).standsAt r.flask r.job b = true := by
    rw [State.modArr_arr, if_pos rfl]
    simp [ArraySt.standsAt, hr]
  have same : ∀ k, k ≠ a → ((s.modArr a fun x => { x with sync := some (b, n) }).arr k).standsAt r.flask r.job b
      = (s.arr k).standsAt r.flask r.job b := fun k hk => by rw [State.modArr_arr, if_neg hk]
  rw [State.atBarrier_eq] at fresh
  have no : (s.arr a).standsAt r.flask r.job b = false := by
    rw [← Bool.not_eq_true]
    exact fun e => fresh (List.mem_filter.mpr ⟨inside, e⟩)
  rw [State.atBarrier_eq, State.atBarrier_eq]
  refine ⟨length_filter_add arrayIds _ _ a List.nodup_range inside no yes same, fun k => ?_⟩
  rw [List.mem_filter, List.mem_filter]
  by_cases e : k = a
  · subst e
    exact iff_of_true ⟨inside, yes⟩ (.inl rfl)
  · rw [same k e, or_iff_right e]

theorem State.released_arr (xs : List Nat) (nd : xs.Nodup) (b : Nat) (hb : b ∈ xs) :
    (s.each xs fun s k => (s.modArr k fun x => { x with sync := none }).nextCmd k).arr b
      = { s.arr b with sync := none, pc := (s.arr b).pc + 1 } := by
  refine (State.arr_each (fun x => { x with sync := none, pc := x.pc + 1 }) _ (fun t k c => ?_) xs nd s b).trans (if_pos hb)
  have next := OnlyArray.of_next t k fun x => { x with sync := none }
  split
  · rename_i e
    rw [e, next.1]
  · rename_i e
    exact next.2.1 c e

end

/-- Settles O20: each command's branch, with `OnlyArray` for its array. -/
theorem controlCommandsCountAndHold : Obligations.ControlCommandsCountAndHold := by
  refine ⟨fun s a w h count => ⟨fun enough => ?_, fun few => ?_⟩, fun s a w d h nest => ⟨fun again => ?_, fun last => ?_⟩,
    fun s a w r h hr recast two most agree fresh => ?_⟩
  · have next := OnlyArray.of_next s a fun x => { x with
      ev := NMap.set x.ev 0 (bits w 111 109) (NMap.get x.ev 0 (bits w 111 109) - bits w 108 93), waitFrom := none
      pauseNs := x.pauseNs + s.since (x.waitFrom.getD s.now) }
    refine ⟨_, ?_, ?_, fun k hk => ?_, ?_, ?_, next.2.2.2.2⟩
    · rw [exec_waitq, execWaitq, State.isArray_of_atIssue h, unit_true, State.issue_atIssue h (by decide), waitqGo,
        if_neg count, if_neg (by omega)]
    · rw [next.1, NMap.get_set, if_pos rfl]
    · rw [next.1, NMap.get_set, if_neg hk]
    · rw [next.1]
    · rw [next.1]
  · refine ⟨_, ?_, .of_modArr s a fun x => { x with waitFrom := some (x.waitFrom.getD s.now) }⟩
    rw [exec_waitq, execWaitq, State.isArray_of_atIssue h, unit_true, State.issue_atIssue h (by decide), waitqGo,
      if_neg count, if_pos few]
  · have set := OnlyArray.of_modArr s a fun x => { x with
      loops := NMap.set x.loops 0 x.pc (NMap.get (s.arr a).loops 0 (s.arr a).pc + 1) }
    have next := set.trans (OnlyArray.of_goTo _ a ((s.arr a).pc - bits w 95 84))
    refine ⟨_, ?_, ?_, ?_, next.2.2.2.2⟩
    · rw [exec_loop, execLoop, State.isArray_of_atIssue h, unit_true, State.issue_atIssue h (by decide), loopGo]
      simp only [nest]
      rw [if_pos again]
    · rw [next.1]
    · rw [next.1, set.1, NMap.get_set, if_pos rfl]
  · have next := OnlyArray.of_next s a fun x => { x with loops := NMap.set x.loops 0 x.pc 0 }
    refine ⟨_, ?_, ?_, ?_, next.2.2.2.2⟩
    · rw [exec_loop, execLoop, State.isArray_of_atIssue h, unit_true, State.issue_atIssue h (by decide), loopGo]
      simp only [nest]
      rw [if_neg (by omega)]
    · rw [next.1]
    · rw [next.1, NMap.get_set, if_pos rfl]
  · obtain ⟨length, members⟩ := s.atBarrier_come a r h.1 hr (bits w 111 108) (bits w 107 100) fresh
    have come := OnlyArray.of_modArr s a fun x => { x with sync := some (bits w 111 108, bits w 107 100) }
    have run : exec (.sync a) s = .next
        (if (s.atBarrier r.flask r.job (bits w 111 108)).length + 1 < bits w 107 100 then
          s.modArr a fun x => { x with sync := some (bits w 111 108, bits w 107 100) }
        else (s.modArr a fun x => { x with sync := some (bits w 111 108, bits w 107 100) }).each
          ((s.modArr a fun x => { x with sync := some (bits w 111 108, bits w 107 100) }).atBarrier r.flask r.job
            (bits w 111 108)) fun s k => (s.modArr k fun x => { x with sync := none }).nextCmd k) := by
      have agreed : ((s.atBarrier r.flask r.job (bits w 111 108)).any fun k =>
          (s.arr k).sync != some (bits w 111 108, bits w 107 100)) = false := by
        simpa using agree
      rw [exec_sync, execSync, State.isArray_of_atIssue h, unit_true, State.issue_atIssue h (by decide), syncGo]
      simp only [hr]
      rw [if_neg (by simp [recast]), if_neg (by simp; omega), agreed, length]
      rfl
    generalize hu : (s.modArr a fun x => { x with sync := some (bits w 111 108, bits w 107 100) }) = u at run members come
    refine ⟨fun few => ⟨_, by rw [run, if_pos few], come⟩, fun enough => ⟨_, by rw [run, if_neg (by omega)], fun k hk => ?_, ?_⟩⟩
    · have nodup : (u.atBarrier r.flask r.job (bits w 111 108)).Nodup := List.Nodup.filter _ List.nodup_range
      rw [State.released_arr _ _ nodup k ((members k).mpr hk)]
      by_cases e : k = a
      · subst e
        rw [come.1]
      · rw [come.2.1 k e]
    · exact .over (come.2.2.2.2.mono (List.Subset.refl _) fun _ _ e => e.1) fun k t g =>
        g.trans ((OnlyArray.of_next t k fun x => { x with sync := none }).2.2.2.2.mono (List.Subset.refl _) fun _ _ e => e.1)

end Sys2Proof.Machine
end

section
/-! PROOFS. Reads of the mould store, counts of exceptions, and asynchronous commands. -/

set_option Elab.async false

namespace Sys2Proof.Machine

section
variable (s : State) (a : Nat)

/-- A read under no outstanding write finds the bytes; only free values may be drawn. -/
theorem State.mouldRead_clean (lo n : Nat) (clean : ∀ k, (s.arr a).hazard none k = false) :
    (s.mouldRead a lo n none).1 = (s.arr a).bytes lo n ∧ (∀ b, (s.mouldRead a lo n none).2.arr b = s.arr b)
      ∧ (∀ r i, (s.mouldRead a lo n none).2.r r i = s.r r i) ∧ Leaves [.freeCtr] noReg s (s.mouldRead a lo n none).2 := by
  unfold State.mouldRead ArraySt.bytes
  dsimp only
  split
  · exact ⟨rfl, fun _ => rfl, fun _ _ => rfl, .refl _ _ s⟩
  · refine ⟨?_, fun _ => rfl, fun _ _ => rfl, .beside (.refl _ _ s)⟩
    simp [clean]

theorem Leaves.mouldRead {ps : List Part} {q : Reg → Nat → Prop} {b s : State} {a lo n : Nat} {k : Option Nat}
    (h : Leaves ps q b s) (hp : .freeCtr ∈ ps := by simp) : Leaves ps q b (s.mouldRead a lo n k).2 := by
  unfold State.mouldRead
  dsimp only
  split
  · exact h
  · exact h.one .freeCtr hp

/-- The rows of a block, read one after another. -/
theorem State.readRows_clean (fmt src stride rows : Nat) (clean : ∀ k, (s.arr a).hazard none k = false) :
    (s.readRows a fmt src stride rows).1
        = (List.range rows).map (fun r => elems fmt 64 ((s.arr a).bytes (rowAddr fmt src stride r) (rowBytes fmt 64)))
      ∧ (∀ b, (s.readRows a fmt src stride rows).2.arr b = s.arr b)
      ∧ Leaves [.freeCtr] noReg s (s.readRows a fmt src stride rows).2 := by
  unfold State.readRows
  induction rows with
  | zero => exact ⟨rfl, fun _ => rfl, .refl _ _ s⟩
  | succ n ih =>
    obtain ⟨rows, arrays, leaves⟩ := ih
    rw [List.range_succ, List.foldl_append, List.foldl_cons, List.foldl_nil]
    generalize List.foldl _ _ _ = acc at rows arrays leaves ⊢
    obtain ⟨list, t⟩ := acc
    dsimp only at rows arrays leaves ⊢
    obtain ⟨bytes, same, -, frees⟩ := t.mouldRead_clean a (rowAddr fmt src stride n) (rowBytes fmt 64) (by rwa [arrays])
    generalize t.mouldRead a (rowAddr fmt src stride n) (rowBytes fmt 64) none = d at bytes same frees ⊢
    obtain ⟨bs, u⟩ := d
    dsimp only at bytes same frees ⊢
    refine ⟨?_, fun b => (same b).trans (arrays b), leaves.trans frees⟩
    rw [List.map_append, rows, bytes, arrays]
    rfl

theorem State.leaves_countExc (flush : Fld) (cs : List Cnt) (hf : flush.reg = .arrNumcnt) :
    Leaves [] (oneReg .arrNumcnt a) s (s.countExc a flush cs) :=
  .ite (.refl _ _ s) (.incSat (.incSat (.refl _ _ s) ⟨rfl, rfl⟩) ⟨hf, rfl⟩)

theorem State.countExc_arr (flush : Fld) (cs : List Cnt) (b : Nat) : (s.countExc a flush cs).arr b = s.arr b := by
  unfold State.countExc
  dsimp only
  split
  · rfl
  · rw [State.incSat_arr, State.incSat_arr]

theorem State.addAsync_arr (w : Nat) (o : AsyncOp) (b : Nat) : (s.addAsync a w o).arr b = if b = a
    then { s.arr a with async := (s.arr a).async ++ [(s.arr a).asyncOf w o], serial := (s.arr a).serial + 1 } else s.arr b := by
  unfold State.addAsync
  rw [State.modArr_arr]
  rfl

end

end Sys2Proof.Machine
end

section
/-! PROOFS. The weights that an LDW loads (R48, R73, R83). -/

set_option Elab.async false

namespace Sys2Proof.Machine

/-- The entry of a key in a list built from distinct keys, where entries that hold 0 are left out. -/
theorem NMap.get_filterMap (ks : List (Nat × Nat)) (key : Nat × Nat → Nat) (val : Nat × Nat → Nat)
    (inj : ∀ p ∈ ks, ∀ q ∈ ks, key p = key q → p = q) (p : Nat × Nat) (hp : p ∈ ks) :
    NMap.get (((ks.filter fun p => val p != 0).map fun p => (key p, val p)) : NMap Nat) 0 (key p) = val p := by
  have absent : ∀ xs : List (Nat × Nat), (∀ q ∈ xs, key p = key q → p = q) → p ∉ xs →
      NMap.find (((xs.filter fun p => val p != 0).map fun p => (key p, val p)) : NMap Nat) (key p) = none := by
    intro xs inj' no
    induction xs with
    | nil => rfl
    | cons x xs ih =>
      have rest := ih (fun q hq => inj' q (List.mem_cons_of_mem _ hq)) fun h => no (List.mem_cons_of_mem _ h)
      have other : key p ≠ key x := fun e => no ((inj' x List.mem_cons_self e) ▸ List.mem_cons_self)
      by_cases hx : (val x != 0) = true
      · rw [List.filter_cons, if_pos hx, List.map_cons, NMap.find, if_neg other, rest]
      · rw [List.filter_cons, if_neg hx, rest]
  induction ks with
  | nil => cases hp
  | cons x xs ih =>
    have injp : ∀ q ∈ xs, key p = key q → p = q := fun q hq => inj p hp q (List.mem_cons_of_mem _ hq)
    by_cases e : p = x
    · subst e
      by_cases hx : (val p != 0) = true
      · rw [List.filter_cons, if_pos hx, List.map_cons, NMap.get, NMap.find, if_pos rfl, Option.getD_some]
      · have zero : val p = 0 := by simpa using hx
        rw [List.filter_cons, if_neg hx]
        by_cases again : p ∈ xs
        · exact ih (fun q hq r hr => inj q (List.mem_cons_of_mem _ hq) r (List.mem_cons_of_mem _ hr)) again
        · rw [NMap.get, absent xs injp again, zero]
          rfl
    · have inside := (List.mem_cons.mp hp).resolve_left e
      have other : key p ≠ key x := fun k => e (inj p hp x List.mem_cons_self k)
      have rest := ih (fun q hq r hr => inj q (List.mem_cons_of_mem _ hq) r (List.mem_cons_of_mem _ hr)) inside
      by_cases hx : (val x != 0) = true
      · rw [List.filter_cons, if_pos hx, List.map_cons, NMap.get, NMap.find, if_neg other]
        exact rest
      · rw [List.filter_cons, if_neg hx]
        exact rest

theorem zip_map_self {α β : Type} (xs : List α) (f : α → β) : xs.zip (xs.map f) = xs.map fun x => (x, f x) := by
  induction xs with
  | nil => rfl
  | cons x xs ih => rw [List.map_cons, List.zip_cons_cons, ih, List.map_cons]

/-- R48: the code of logical column `c` of row `r` stands in the column that the transform gives it. -/
theorem loadWeights_w (rot fmt cols : Nat) (sparse : Bool) (rows pos : List (List Nat)) (es : List Int) (hrot : rot < 64)
    (r c : Nat) (hr : r < rows.length) (hc : c < cols) (hc64 : c < 64) :
    NMap.get (loadWeights rot fmt cols sparse rows pos es).1.w 0 (64 * r + (c + rot) % 64)
      = (expand fmt ((rows.getD r []).getD c 0) (es.getD c 0)).1 := by
  have column : ((c + rot) % 64 + 64 - rot) % 64 = c := by omega
  have cell : (r, (c + rot) % 64) ∈ (List.range rows.length).flatMap fun r => (List.range 64).map fun pc => (r, pc) := by
    simp only [List.mem_flatMap, List.mem_range, List.mem_map]
    exact ⟨r, hr, (c + rot) % 64, Nat.mod_lt _ (by decide), rfl⟩
  have keys : ∀ p ∈ (List.range rows.length).flatMap (fun r => (List.range 64).map fun pc => (r, pc)), p.2 < 64 := by
    intro p hp
    simp only [List.mem_flatMap, List.mem_range, List.mem_map] at hp
    obtain ⟨r, -, pc, h, rfl⟩ := hp
    exact h
  unfold loadWeights
  dsimp only
  generalize (List.range rows.length).flatMap (fun r => (List.range 64).map fun pc => (r, pc)) = cells at cell keys ⊢
  rw [zip_map_self, List.filter_map, List.map_map]
  refine (NMap.get_filterMap cells (fun p => 64 * p.1 + p.2) (fun p => (if (p.2 + 64 - rot) % 64 < cols then
    expand fmt ((rows.getD p.1 []).getD ((p.2 + 64 - rot) % 64) 0) (es.getD ((p.2 + 64 - rot) % 64) 0) else (0, .none)).1)
    (fun p hp q hq e => ?_) _ cell).trans ?_
  · have := keys p hp
    have := keys q hq
    exact Prod.ext (by omega) (by omega)
  · dsimp only
    rw [column, if_pos hc]

theorem elems_getD (fmt n c : Nat) (bs : List Byte) (h : c < n) : (elems fmt n bs).getD c 0 = elemAt fmt bs c := by
  unfold elems
  simp [List.getD_eq_getElem?_getD, h]

/-- A range of the mould store, as an operand names it. -/
theorem inMould_nat (lo : Int) (base n : Nat) (hb : (base : Int) = lo) (h : base + n ≤ mouldTop) : inMould lo n = true := by
  simp only [inMould, Bool.and_eq_true, decide_eq_true_eq]
  omega

/-- The scale bytes of an LDW. -/
def ldwScales (x : ArraySt) (w : Nat) : List Int :=
  (List.range (bits w 77 72 + 1)).map fun c => sint 8 (leAt (x.bytes (bits w 55 34) 64) c 1)

/-- The rows of an LDW as its array holds them. -/
def ldwRows (x : ArraySt) (w base : Nat) : List (List Nat) :=
  (List.range (bits w 84 78 + 1)).map fun r =>
    elems (bits w 89 86) 64 (x.bytes (rowAddr (bits w 89 86) base (bits w 71 56) r) (rowBytes (bits w 89 86) 64))

/-- The weights of an LDW whose row positions are `pos`. -/
def State.ldwLoaded (s : State) (a w base : Nat) (pos : List (List Nat)) : Weights × List Cnt :=
  loadWeights (if (s.arr a).xform then s.f SYS_SAFECFG.ROT 0 else 0) (bits w 89 86) (bits w 77 72 + 1) (bit w 85)
    (ldwRows (s.arr a) w base) pos (ldwScales (s.arr a) w)

/-- What LDW does once its operands are in range and its bytes are read. -/
theorem State.issueLdw_reads (s : State) (a w : Nat) (clean : ∀ k, (s.arr a).hazard none k = false)
    (base : Nat) (hb : (base : Int) = (bits w 111 90 : Int) + 64 * s.loopInc a 83 68) (fmt : bits w 89 86 ≤ 10)
    (stride : bits w 71 56 ≠ 0) (aligned : bits w 111 90 % 64 = 0)
    (data : base + rowsEnd (bits w 89 86) (bits w 71 56) (bits w 84 78 + 1) ≤ mouldTop)
    (positions : bit w 85 = true → base + 128 / rowsPerGroup (bits w 89 86) * bits w 71 56 * 64 + 16 * (bits w 84 78 + 1)
      ≤ mouldTop) (scales : bits w 55 34 + 64 ≤ mouldTop)
    (legal : ∀ c < bits w 77 72 + 1, -64 ≤ sint 8 (leAt ((s.arr a).bytes (bits w 55 34) 64) c 1)
      ∧ sint 8 (leAt ((s.arr a).bytes (bits w 55 34) 64) c 1) ≤ 63) :
    ∃ (u : State) (pos : List (List Nat)), (∀ b, u.arr b = s.arr b) ∧ Leaves [.freeCtr] noReg s u
      ∧ s.issueLdw a w = (let l := s.ldwLoaded a w base pos
        ((u.countExc a ARR_NUMCNT.FLUSH_IN l.2).addAsync a w
          { serial := 0, kind := .ldw, evt := none, block := some l.1 }).nextCmd a) := by
  have source : ((bits w 111 90 : Int) + 64 * s.loopInc a 83 68).toNat = base := by omega
  unfold State.issueLdw
  dsimp only
  rw [if_neg, source]
  · obtain ⟨rows, arrays, frees⟩ := s.readRows_clean a (bits w 89 86) base (bits w 71 56) (bits w 84 78 + 1) clean
    generalize s.readRows a (bits w 89 86) base (bits w 71 56) (bits w 84 78 + 1) = d at rows arrays frees ⊢
    obtain ⟨rs, s1⟩ := d
    dsimp only at rows arrays frees ⊢
    have second : (∀ b, (if bit w 85 = true then s1.mouldRead a (base + 128 / rowsPerGroup (bits w 89 86) * bits w 71 56 * 64)
        (16 * (bits w 84 78 + 1)) none else ([], s1)).2.arr b = s.arr b) ∧ Leaves [.freeCtr] noReg s
        (if bit w 85 = true then s1.mouldRead a (base + 128 / rowsPerGroup (bits w 89 86) * bits w 71 56 * 64)
          (16 * (bits w 84 78 + 1)) none else ([], s1)).2 := by
      split
      · obtain ⟨-, same, -, more⟩ := s1.mouldRead_clean a (base + 128 / rowsPerGroup (bits w 89 86) * bits w 71 56 * 64)
          (16 * (bits w 84 78 + 1)) (by rwa [arrays])
        exact ⟨fun b => (same b).trans (arrays b), frees.trans more⟩
      · exact ⟨arrays, frees⟩
    generalize (if bit w 85 = true then s1.mouldRead a (base + 128 / rowsPerGroup (bits w 89 86) * bits w 71 56 * 64)
      (16 * (bits w 84 78 + 1)) none else ([], s1)) = d at second ⊢
    obtain ⟨pb, s2⟩ := d
    obtain ⟨arrays2, frees2⟩ := second
    dsimp only at arrays2 frees2 ⊢
    obtain ⟨bytes, same, -, more⟩ := s2.mouldRead_clean a (bits w 55 34) 64 (by rwa [arrays2])
    generalize s2.mouldRead a (bits w 55 34) 64 none = d at bytes same more ⊢
    obtain ⟨sb, s3⟩ := d
    dsimp only at bytes same more ⊢
    rw [arrays2] at bytes
    subst bytes rows
    have ok : ((List.range (bits w 77 72 + 1)).map fun c => sint 8 (leAt ((s.arr a).bytes (bits w 55 34) 64) c 1)).any
        (fun e => decide (e < -64) || decide (63 < e)) = false := by
      simp only [List.any_map, List.any_eq_false, List.mem_range, Function.comp, Bool.or_eq_true, decide_eq_true_eq]
      intro c hc
      have := legal c hc
      omega
    refine ⟨s3, (List.range (bits w 84 78 + 1)).map fun r => (List.range 64).map fun c => leAt pb (16 * r + c / 4) 1 / 4 ^ (c % 4) % 4,
      fun b => (same b).trans (arrays2 b), frees2.trans more, ?_⟩
    rw [ok]
    rfl
  · have block := inMould_nat _ base _ hb data
    have scale := inMould_nat (bits w 55 34 : Int) (bits w 55 34) 64 rfl scales
    have pos : bit w 85 = true → inMould ((bits w 111 90 : Int) + 64 * s.loopInc a 83 68)
        (128 / rowsPerGroup (bits w 89 86) * bits w 71 56 * 64 + 16 * (bits w 84 78 + 1)) = true := fun on =>
      inMould_nat _ base _ hb (by rw [← Nat.add_assoc]; exact positions on)
    simp only [block, scale, aligned, stride, bne_self_eq_false, Bool.not_true, Bool.or_false, Bool.or_eq_true,
      decide_eq_true_eq, beq_iff_eq, Bool.and_eq_true, Bool.not_eq_true', or_false, not_or, not_and, Bool.not_eq_false]
    exact ⟨by omega, pos⟩

/-- R48, R73, R83: LDW with its operands in range loads the block that is to become the shadow weights. -/
theorem ldw_loads (s : State) (a w : Nat) (h : s.atIssue a 0x01 33 true w) (clean : ∀ k, (s.arr a).hazard none k = false)
    (base : Nat) (hb : (base : Int) = (bits w 111 90 : Int) + 64 * s.loopInc a 83 68) (fmt : bits w 89 86 ≤ 10)
    (stride : bits w 71 56 ≠ 0) (aligned : bits w 111 90 % 64 = 0)
    (data : base + rowsEnd (bits w 89 86) (bits w 71 56) (bits w 84 78 + 1) ≤ mouldTop)
    (positions : bit w 85 = true → base + 128 / rowsPerGroup (bits w 89 86) * bits w 71 56 * 64 + 16 * (bits w 84 78 + 1)
      ≤ mouldTop) (scales : bits w 55 34 + 64 ≤ mouldTop)
    (legal : ∀ c < bits w 77 72 + 1, -64 ≤ sint 8 (leAt ((s.arr a).bytes (bits w 55 34) 64) c 1)
      ∧ sint 8 (leAt ((s.arr a).bytes (bits w 55 34) 64) c 1) ≤ 63) :
    ∃ t wt, exec (.ldw a) s = .next t
      ∧ (∀ r < bits w 84 78 + 1, ∀ c < bits w 77 72 + 1,
          NMap.get wt.w 0 (64 * r + (c + (if (s.arr a).xform then s.f SYS_SAFECFG.ROT 0 else 0)) % 64)
            = (expand (bits w 89 86) (elemAt (bits w 89 86) ((s.arr a).bytes (rowAddr (bits w 89 86) base (bits w 71 56) r)
                (rowBytes (bits w 89 86) 64)) c) (sint 8 (leAt ((s.arr a).bytes (bits w 55 34) 64) c 1))).1)
      ∧ wt.sparse = bit w 85
      ∧ t.arr a = { s.arr a with
          async := (s.arr a).async ++ [(s.arr a).asyncOf w { serial := 0, kind := .ldw, evt := none, block := some wt }]
          serial := (s.arr a).serial + 1, pc := (s.arr a).pc + 1 }
      ∧ (∀ b, b ≠ a → t.arr b = s.arr b)
      ∧ Leaves [.arrays, .freeCtr] (fun g i => (g = .arrStatus ∨ g = .arrNumcnt) ∧ i = a) s t := by
  have rotation : (if (s.arr a).xform then s.f SYS_SAFECFG.ROT 0 else 0) < 64 := by
    split
    · exact s.f_lt SYS_SAFECFG.ROT 0
    · decide
  obtain ⟨u, pos, arrays, frees, issue⟩ := s.issueLdw_reads a w clean base hb fmt stride aligned data positions scales legal
  generalize hl : s.ldwLoaded a w base pos = l at issue
  dsimp only at issue
  have next := OnlyArray.of_nextCmd ((u.countExc a ARR_NUMCNT.FLUSH_IN l.2).addAsync a w
    { serial := 0, kind := .ldw, evt := none, block := some l.1 }) a
  have added : ∀ b, ((u.countExc a ARR_NUMCNT.FLUSH_IN l.2).addAsync a w
      { serial := 0, kind := .ldw, evt := none, block := some l.1 }).arr b = if b = a then { s.arr a with
        async := (s.arr a).async ++ [(s.arr a).asyncOf w { serial := 0, kind := .ldw, evt := none, block := some l.1 }]
        serial := (s.arr a).serial + 1 } else s.arr b := fun b => by
    rw [State.addAsync_arr, State.countExc_arr, State.countExc_arr, arrays, arrays]
  refine ⟨_, l.1, by rw [exec_ldw, execLdw, State.isArray_of_atIssue h, unit_true, State.issue_atIssue h (by decide), issue],
    fun r hr c hc => ?_, ?_, ?_, fun b hb => ?_, ?_⟩
  · have width : bits w 77 72 < 2 ^ 6 := bits_lt _ _ _
    rw [← hl, State.ldwLoaded, loadWeights_w _ _ _ _ _ _ _ rotation r c (by simpa [ldwRows] using hr) hc (by omega)]
    have row : (ldwRows (s.arr a) w base).getD r [] = elems (bits w 89 86) 64
        ((s.arr a).bytes (rowAddr (bits w 89 86) base (bits w 71 56) r) (rowBytes (bits w 89 86) 64)) := by
      simp [ldwRows, List.getD_eq_getElem?_getD, hr]
    have scale : (ldwScales (s.arr a) w).getD c 0 = sint 8 (leAt ((s.arr a).bytes (bits w 55 34) 64) c 1) := by
      simp [ldwScales, List.getD_eq_getElem?_getD, hc]
    rw [row, scale, elems_getD _ _ _ _ (by omega)]
  · rw [← hl]
    rfl
  · rw [next.1, added, if_pos rfl]
  · rw [next.2.1 b hb, added, if_neg hb]
  · have counted : Leaves [.arrays, .freeCtr] (fun g i => (g = .arrStatus ∨ g = .arrNumcnt) ∧ i = a) s
        (u.countExc a ARR_NUMCNT.FLUSH_IN l.2) :=
      (frees.mono (List.subset_cons_self .arrays _) fun _ _ no => False.elim no).trans
        ((u.leaves_countExc a ARR_NUMCNT.FLUSH_IN l.2 rfl).mono (List.nil_subset _) fun _ _ e => ⟨.inr e.1, e.2⟩)
    exact (Leaves.modArr counted).trans (next.2.2.2.2.mono (by simp) fun _ _ e => ⟨.inl e.1, e.2⟩)

end Sys2Proof.Machine
end

section
/-! PROOFS. SWAPW, LDA, and what O21 says of the three (R46, R48). -/

set_option Elab.async false

namespace Sys2Proof.Machine

theorem swapw_waits (s : State) (a w : Nat) (h : s.atIssue a 0x02 111 false w) (ldw : ∃ o ∈ (s.arr a).async, o.kind = .ldw) :
    exec (.swapw a) s = .next s := by
  have outstanding : (s.arr a).async.any (fun o => o.kind == .ldw) = true := by simpa using ldw
  rw [exec_swapw, execSwapw, State.isArray_of_atIssue h, unit_true, State.issue_atIssue h (by decide), swapwGo, outstanding,
    if_pos rfl]

theorem swapw_marks (s : State) (a w : Nat) (h : s.atIssue a 0x02 111 false w) (none : ∀ o ∈ (s.arr a).async, o.kind ≠ .ldw) :
    ∃ t, exec (.swapw a) s = .next t ∧ OnlyArray a { s.arr a with armSwap := true, pc := (s.arr a).pc + 1 } s t := by
  have free : ((s.arr a).async.any fun o => o.kind == .ldw) = false := by simpa using none
  refine ⟨_, ?_, OnlyArray.of_next s a fun x => { x with armSwap := true }⟩
  rw [exec_swapw, execSwapw, State.isArray_of_atIssue h, unit_true, State.issue_atIssue h (by decide), swapwGo, free]
  rfl

/-- The stream that an LDA arms at `src`. -/
def ArraySt.ldaStream (x : ArraySt) (w src : Nat) (follow : Option Nat) (scales : Option (List Nat)) : Stream :=
  { src := src, fmt := bits w 89 86, sparse := bit w 85, zc := bit w 84, follow := follow, m := bits w 82 73 + 1,
    stride := bits w 72 57, scaleAddr := bits w 56 35, scales := scales, accRow := bits w 34 25,
    accumulate := x.armAcc.getD false, swap := x.armSwap }

/-- The operands of an LDA whose source stands at `src` are in range. -/
structure LdaLegal (s : State) (a w src : Nat) : Prop where
  source : (src : Int) = (bits w 111 90 : Int) + 64 * s.loopInc a 67 52
  fmt : bits w 89 86 ≤ 10
  stride : bits w 72 57 ≠ 0
  aligned : bits w 111 90 % 64 = 0
  rows : bits w 34 25 + (bits w 82 73 + 1) ≤ 1024
  scales : bits w 56 35 + (bits w 82 73 + 1) ≤ mouldTop
  plain : bit w 84 = false → src + (bits w 82 73 + 1 - 1) * bits w 72 57 * 64
    + rowBytes (bits w 89 86) (if bit w 85 then 256 else 128) ≤ mouldTop
  packed : bit w 84 = true → zcFmt (bits w 89 86) = true
    ∧ bits w 72 57 = rowUnits (bits w 89 86) (if bit w 85 then 256 else 128) ∧ src ≤ mouldTop

/-- What LDA arms: its scale bytes are read, except where a compressed stream follows an outstanding XFER. -/
def State.ldaArms (s : State) (a w src : Nat) : State :=
  let x := s.arr a
  let fo := if bit w 83 then x.followOp src else none
  let arm (s : State) (scales : Option (List Nat)) : State :=
    (s.modArr a fun y => { y with
      streams := y.streams ++ [x.ldaStream w src fo scales], armSwap := false, armAcc := none }).nextCmd a
  if bit w 84 && fo.isSome then arm s none
  else
    match s.readScales a (bits w 56 35) (bits w 82 73 + 1) with
    | (none, s1) => s1.arrFault a (some ARR_NUMSTAT.SCALE_BAD) stJobFault
    | (some es, s1) => arm s1 (some es)

theorem State.issueLda_legal {s : State} {a w src : Nat} (ok : LdaLegal s a w src) :
    s.issueLda a w = if 2 ≤ ((s.arr a).streams.filter fun t => decide (t.entered < t.m)).length then s
      else if bit w 85 != (s.arr a).nextActive.sparse then s.arrFault a none stJobFault else s.ldaArms a w src := by
  obtain ⟨source, fmt, stride, aligned, rows, scales, plain, packed⟩ := ok
  have back : ((bits w 111 90 : Int) + 64 * s.loopInc a 67 52).toNat = src := by omega
  unfold State.issueLda State.ldaArms
  dsimp only
  rw [if_neg, back]
  · rfl
  · have scale := inMould_nat (bits w 56 35 : Int) (bits w 56 35) (bits w 82 73 + 1) rfl scales
    have range : (if bit w 84 = true then !zcFmt (bits w 89 86)
          || bits w 72 57 != rowUnits (bits w 89 86) (if bit w 85 = true then 256 else 128)
          || !inMould ((bits w 111 90 : Int) + 64 * s.loopInc a 67 52) 0
        else !inMould ((bits w 111 90 : Int) + 64 * s.loopInc a 67 52) ((bits w 82 73 + 1 - 1) * bits w 72 57 * 64
          + rowBytes (bits w 89 86) (if bit w 85 = true then 256 else 128))) = false := by
      split
      case isTrue zc =>
        obtain ⟨zf, units, top⟩ := packed zc
        rw [zf, units, inMould_nat _ src 0 source (by omega)]
        simp
      case isFalse zc =>
        have inside := plain (by simpa using zc)
        rw [Nat.add_assoc] at inside
        rw [inMould_nat _ src _ source inside]
        rfl
    rw [range]
    simp only [scale, aligned, stride, bne_self_eq_false, Bool.not_true, Bool.or_false, Bool.or_eq_true, decide_eq_true_eq,
      beq_iff_eq, or_false, not_or]
    omega

/-- R73: every scale byte of a stream lies in the range of a scale exponent. -/
def scalesLegal (bs : List Byte) (m : Nat) : Prop := ∀ k < m, -64 ≤ sint 8 (leAt bs k 1) ∧ sint 8 (leAt bs k 1) ≤ 63

theorem State.readScales_clean (s : State) (a sc m : Nat) (clean : ∀ k, (s.arr a).hazard none k = false)
    (legal : scalesLegal ((s.arr a).bytes sc m) m) :
    (s.readScales a sc m).1 = some ((List.range m).map fun k => leAt ((s.arr a).bytes sc m) k 1)
      ∧ (∀ b, (s.readScales a sc m).2.arr b = s.arr b) ∧ Leaves [.freeCtr] noReg s (s.readScales a sc m).2 := by
  obtain ⟨bytes, same, -, frees⟩ := s.mouldRead_clean a sc m clean
  have ok : ((List.range m).map fun k => leAt ((s.arr a).bytes sc m) k 1).any
      (fun c => decide (sint 8 c < -64) || decide (63 < sint 8 c)) = false := by
    simp only [List.any_map, List.any_eq_false, List.mem_range, Function.comp, Bool.or_eq_true, decide_eq_true_eq]
    intro k hk
    have := legal k hk
    omega
  refine ⟨?_, same, frees⟩
  unfold State.readScales
  dsimp only
  rw [bytes, ok]
  rfl

/-- A stream is armed with the bytes of its scales, unless a compressed stream follows an outstanding XFER. -/
theorem State.ldaArms_arms (s : State) (a w src : Nat) (clean : ∀ k, (s.arr a).hazard none k = false)
    (legal : scalesLegal ((s.arr a).bytes (bits w 56 35) (bits w 82 73 + 1)) (bits w 82 73 + 1)) :
    ∃ (u : State) (scales : Option (List Nat)),
      (∀ b, u.arr b = s.arr b) ∧ Leaves [.freeCtr] noReg s u
      ∧ (bit w 84 = false ∨ (if bit w 83 then (s.arr a).followOp src else none) = none → scales =
          some ((List.range (bits w 82 73 + 1)).map fun k => leAt ((s.arr a).bytes (bits w 56 35) (bits w 82 73 + 1)) k 1))
      ∧ s.ldaArms a w src = (u.modArr a fun y => { y with
          streams := y.streams ++ [(s.arr a).ldaStream w src (if bit w 83 then (s.arr a).followOp src else none) scales]
          armSwap := false
          armAcc := none }).nextCmd a := by
  unfold State.ldaArms
  dsimp only
  generalize (if bit w 83 = true then (s.arr a).followOp src else none) = fo
  split
  case isTrue later =>
    refine ⟨s, none, fun _ => rfl, .refl _ _ s, fun h => ?_, rfl⟩
    rw [Bool.and_eq_true] at later
    obtain ⟨zc, some⟩ := later
    rcases h with h | h
    · rw [h] at zc
      cases zc
    · rw [h] at some
      cases some
  case isFalse now =>
    obtain ⟨bytes, same, frees⟩ := s.readScales_clean a (bits w 56 35) (bits w 82 73 + 1) clean legal
    generalize s.readScales a (bits w 56 35) (bits w 82 73 + 1) = d at bytes same frees ⊢
    obtain ⟨es, u⟩ := d
    dsimp only at bytes same frees ⊢
    subst bytes
    exact ⟨u, _, same, frees, fun _ => rfl, rfl⟩

theorem lda_holds_issue (s : State) (a w src : Nat) (h : s.atIssue a 0x03 24 false w) (ok : LdaLegal s a w src)
    (two : 2 ≤ ((s.arr a).streams.filter fun t => decide (t.entered < t.m)).length) : exec (.lda a) s = .next s := by
  rw [exec_lda, execLda, State.isArray_of_atIssue h, unit_true, State.issue_atIssue h (by decide), State.issueLda_legal ok,
    if_pos two]

theorem lda_arms (s : State) (a w src : Nat) (h : s.atIssue a 0x03 24 false w) (ok : LdaLegal s a w src)
    (clean : ∀ k, (s.arr a).hazard none k = false)
    (room : ((s.arr a).streams.filter fun t => decide (t.entered < t.m)).length < 2)
    (sparse : bit w 85 = (s.arr a).nextActive.sparse)
    (legal : scalesLegal ((s.arr a).bytes (bits w 56 35) (bits w 82 73 + 1)) (bits w 82 73 + 1)) :
    ∃ t fo scales, exec (.lda a) s = .next t
      ∧ t.arr a = { s.arr a with
          streams := (s.arr a).streams ++ [(s.arr a).ldaStream w src fo scales], armSwap := false, armAcc := none
          pc := (s.arr a).pc + 1 }
      ∧ (∀ b, b ≠ a → t.arr b = s.arr b) ∧ Leaves [.arrays, .freeCtr] (oneReg .arrStatus a) s t
      ∧ (bit w 83 = false → fo = none)
      ∧ (bit w 84 = false ∨ fo = none → scales =
          some ((List.range (bits w 82 73 + 1)).map fun k => leAt ((s.arr a).bytes (bits w 56 35) (bits w 82 73 + 1)) k 1)) := by
  obtain ⟨u, scales, same, frees, bytes, arms⟩ := s.ldaArms_arms a w src clean legal
  have next := OnlyArray.of_next u a fun y => { y with
    streams := y.streams ++ [(s.arr a).ldaStream w src (if bit w 83 then (s.arr a).followOp src else none) scales]
    armSwap := false
    armAcc := none }
  have free : Leaves [.arrays, .freeCtr] (oneReg .arrStatus a) s u :=
    frees.mono (List.subset_cons_self Part.arrays _) fun _ _ no => False.elim no
  refine ⟨_, _, scales, ?_, ?_, fun b hb => ?_, free.trans (next.2.2.2.2.mono (rs := [Part.arrays, .freeCtr]) (by simp) fun _ _ e => e), fun no => ?_, bytes⟩
  · rw [exec_lda, execLda, State.isArray_of_atIssue h, unit_true, State.issue_atIssue h (by decide), State.issueLda_legal ok,
      if_neg (by omega), ← sparse, if_neg (by simp), arms]
  · rw [next.1, same]
  · rw [next.2.1 b hb, same]
  · rw [no]
    rfl

/-- Settles O21: an LDW reads its rows, positions and scales and hands the block on with the command; a SWAPW waits for
LDWs; an LDA arms its stream unless two are armed. -/
theorem weightsAndStreamsAreLoaded : Obligations.WeightsAndStreamsAreLoaded := by
  refine ⟨fun s a w h clean base hb fmt stride aligned data positions scales legal =>
      ldw_loads s a w h clean base hb fmt stride aligned data positions scales legal,
    fun s a w h => ⟨swapw_waits s a w h, swapw_marks s a w h⟩,
    fun s a w h clean src source fmt stride aligned rows scales plain packed => ?_⟩
  have ok : LdaLegal s a w src := ⟨source, fmt, stride, aligned, rows, scales, plain, packed⟩
  refine ⟨lda_holds_issue s a w src h ok, fun room sparse legal => ?_⟩
  obtain ⟨t, fo, es, run, arr, others, leaves, unfollowed, bytes⟩ := lda_arms s a w src h ok clean room sparse legal
  exact ⟨t, _, run, arr, others, leaves, rfl, rfl, rfl, rfl, rfl, rfl, rfl, rfl, rfl, rfl, rfl, unfollowed, rfl, bytes⟩

end Sys2Proof.Machine
end

section
/-! PROOFS. Steps of the wavefront (R45 to R48, R75): what one step keeps, and which sums land. -/

set_option Elab.async false

namespace Sys2Proof.Machine

theorem State.mouldRead_arr (s : State) (a lo n : Nat) (k : Option Nat) (b : Nat) : (s.mouldRead a lo n k).2.arr b = s.arr b := by
  unfold State.mouldRead
  dsimp only
  split <;> rfl

/-- A step of array `a` leaves its program where it is; of the registers it moves the exception counters alone. -/
structure StepKeeps (a : Nat) (s t : State) : Prop where
  pc : (t.arr a).pc = (s.arr a).pc
  testBar : (t.arr a).testBar = (s.arr a).testBar
  leaves : Leaves [.arrays, .freeCtr] (oneReg .arrNumcnt a) s t

namespace StepKeeps

section
variable {s t u : State} {a : Nat}

theorem refl (s : State) (a : Nat) : StepKeeps a s s := ⟨rfl, rfl, .refl _ _ s⟩

theorem trans (h : StepKeeps a s t) (g : StepKeeps a t u) : StepKeeps a s u :=
  ⟨g.pc.trans h.pc, g.testBar.trans h.testBar, h.leaves.trans g.leaves⟩

theorem of_modArr (s : State) (a : Nat) (g : ArraySt → ArraySt) (pc : ∀ x, (g x).pc = x.pc) (bar : ∀ x, (g x).testBar = x.testBar) :
    StepKeeps a s (s.modArr a g) := by
  refine ⟨?_, ?_, .modArr (.refl _ _ s)⟩
  · rw [State.modArr_arr, if_pos rfl, pc]
  · rw [State.modArr_arr, if_pos rfl, bar]

theorem of_countExc (s : State) (a : Nat) (flush : Fld) (cs : List Cnt) (hf : flush.reg = .arrNumcnt) :
    StepKeeps a s (s.countExc a flush cs) :=
  ⟨by rw [State.countExc_arr], by rw [State.countExc_arr],
    (s.leaves_countExc a flush cs hf).mono (List.nil_subset _) fun _ _ h => h⟩

theorem of_mouldRead (s : State) (a lo n : Nat) (k : Option Nat) : StepKeeps a s (s.mouldRead a lo n k).2 :=
  ⟨by rw [State.mouldRead_arr], by rw [State.mouldRead_arr], .mouldRead (.refl _ _ s)⟩

end

end StepKeeps

section
variable (s : State) (a t : Nat) (st : Stream)

/-- The sum of physical column `n` that lands in step `t`. -/
def State.landSum (n : Nat) : State :=
  if st.s0 + 128 + n ≤ t && t < st.s0 + 128 + n + st.m then
    let m := t - (st.s0 + 128 + n)
    if m < st.entered then
      let sum := columnSum st.weights (st.rows.getD (st.entered - 1 - m) []) n
      let k := 64 * (st.accRow + m) + n
      let old := NMap.get (s.arr a).accum 0 k
      let v := if st.accumulate then f32add old sum else sum
      s.modArr a fun x => { x with accum := NMap.set x.accum 0 k v }
    else s
  else s

/-- From `s` to `t` the accumulators of array `a` alone have changed. -/
def OnlyAccum (a : Nat) (s t : State) : Prop :=
  (∃ acc, t.arr a = { s.arr a with accum := acc }) ∧ (∀ r i, t.r r i = s.r r i) ∧ StepKeeps a s t

theorem OnlyAccum.refl : OnlyAccum a s s := ⟨⟨_, rfl⟩, fun _ _ => rfl, .refl s a⟩

theorem OnlyAccum.trans {s u v : State} {a : Nat} (h : OnlyAccum a s u) (g : OnlyAccum a u v) : OnlyAccum a s v := by
  obtain ⟨⟨_, e⟩, regs, keeps⟩ := h
  obtain ⟨⟨acc, e'⟩, regs', keeps'⟩ := g
  exact ⟨⟨acc, e'.trans (by rw [e])⟩, fun r i => (regs' r i).trans (regs r i), keeps.trans keeps'⟩

theorem State.landSum_only (n : Nat) : OnlyAccum a s (s.landSum a t st n) := by
  unfold State.landSum
  dsimp only
  split
  case isFalse => exact .refl s a
  split
  case isFalse => exact .refl s a
  exact ⟨⟨_, by rw [State.modArr_arr, if_pos rfl]⟩, fun _ _ => rfl, .of_modArr s a _ (fun _ => rfl) fun _ => rfl⟩

theorem State.landed_only (ns : List Nat) : OnlyAccum a s (ns.foldl (fun s n => s.landSum a t st n) s) := by
  induction ns generalizing s with
  | nil => exact .refl s a
  | cons n ns ih => exact (s.landSum_only a t st n).trans (ih _)

theorem State.landSums_only : OnlyAccum a s (s.landSums a t st) := by
  unfold State.landSums
  split
  · exact .refl s a
  · exact s.landed_only a t st (List.range 64)

/-- R46, R47: what the accumulator of row `m` of a stream and column `n` comes to hold. -/
def Stream.landValue (x : ArraySt) (st : Stream) (n m : Nat) : Nat :=
  let sum := columnSum st.weights (st.rows.getD (st.m - 1 - m) []) n
  if st.accumulate then f32add (NMap.get x.accum 0 (64 * (st.accRow + m) + n)) sum else sum

theorem State.landSum_hits (n m : Nat) (full : st.entered = st.m) (hm : m < st.m) (due : t = st.s0 + 128 + n + m) :
    ((s.landSum a t st n).arr a).accum
      = NMap.set (s.arr a).accum 0 (64 * (st.accRow + m) + n) (st.landValue (s.arr a) n m) := by
  have row : t - (st.s0 + 128 + n) = m := by omega
  unfold State.landSum
  dsimp only
  rw [if_pos (by simp only [Bool.and_eq_true, decide_eq_true_eq]; omega), row, full, if_pos hm, State.modArr_arr, if_pos rfl]
  rfl

theorem State.landSum_misses (n : Nat) (early : ∀ m < st.m, t ≠ st.s0 + 128 + n + m) :
    s.landSum a t st n = s := by
  unfold State.landSum
  rw [if_neg]
  simp only [Bool.and_eq_true, decide_eq_true_eq]
  intro h
  exact early (t - (st.s0 + 128 + n)) (by omega) (by omega)

/-- The first `c` columns have landed: each accumulator that is due holds its sum, and no other has changed. -/
theorem State.landed_accum (c : Nat) (hc : c ≤ 64) (full : st.entered = st.m) :
    (∀ n < c, ∀ m < st.m, t = st.s0 + 128 + n + m →
        NMap.get (((List.range c).foldl (fun s n => s.landSum a t st n) s).arr a).accum 0 (64 * (st.accRow + m) + n)
          = st.landValue (s.arr a) n m)
      ∧ (∀ r n, n < 64 → (c ≤ n ∨ ∀ m < st.m, r = st.accRow + m → t ≠ st.s0 + 128 + n + m) →
        NMap.get (((List.range c).foldl (fun s n => s.landSum a t st n) s).arr a).accum 0 (64 * r + n)
          = NMap.get (s.arr a).accum 0 (64 * r + n)) := by
  induction c with
  | zero => exact ⟨fun _ h => absurd h (Nat.not_lt_zero _), fun _ _ _ _ => rfl⟩
  | succ c ih =>
    obtain ⟨hits, misses⟩ := ih (by omega)
    rw [List.range_succ, List.foldl_append, List.foldl_cons, List.foldl_nil]
    generalize (List.range c).foldl (fun s n => s.landSum a t st n) s = u at hits misses ⊢
    by_cases due : ∃ m < st.m, t = st.s0 + 128 + c + m
    · obtain ⟨m0, hm0, due⟩ := due
      have value : st.landValue (u.arr a) c m0 = st.landValue (s.arr a) c m0 := by
        rw [Stream.landValue, misses _ c (by omega) (.inl (Nat.le_refl _)), Stream.landValue]
      rw [u.landSum_hits a t st c m0 full hm0 due, value]
      constructor
      · intro n hn m hm e
        rw [NMap.get_set]
        split
        case isTrue same =>
          obtain rfl : n = c := by omega
          obtain rfl : m = m0 := by omega
          rfl
        case isFalse apart => exact hits n (by omega) m hm e
      · intro r n hn h
        rw [NMap.get_set, if_neg]
        · exact misses r n hn (h.imp (fun h => by omega) id)
        · intro same
          obtain rfl : n = c := by omega
          rcases h with h | h
          · omega
          · exact h m0 hm0 (by omega) due
    · have early : ∀ m < st.m, t ≠ st.s0 + 128 + c + m := fun m hm e => due ⟨m, hm, e⟩
      rw [u.landSum_misses a t st c early]
      refine ⟨fun n hn m hm e => hits n (Nat.lt_of_le_of_ne (by omega) ?_) m hm e, fun r n hn h => ?_⟩
      · rintro rfl
        exact early m hm e
      · rcases h with h | h
        · exact misses r n hn (.inl (by omega))
        · exact misses r n hn (.inr h)

end

end Sys2Proof.Machine
end

section
/-! PROOFS. One step of an array, and a SHIFT (R45, R61). -/

set_option Elab.async false

namespace Sys2Proof.Machine

section
variable (s : State) (a : Nat)

/-- What one step makes of an array whose streams are `ts` once the row has entered. -/
def ArraySt.stepped (x : ArraySt) (acc : NMap Nat) : ArraySt :=
  { x with accum := acc, steps := x.steps + 1
           streams := x.streams.filter fun st => !(st.entered == st.m && st.s0 + st.m + 190 ≤ x.steps) }

/-- One stream in the step at hand: its products are counted, and its sums land. -/
theorem State.streamStep_keeps (t : Nat) (st : Stream) :
    StepKeeps a s ((s.countExc a ARR_NUMCNT.FLUSH_PROD (st.formed t)).landSums a t st)
      ∧ ∃ acc, ((s.countExc a ARR_NUMCNT.FLUSH_PROD (st.formed t)).landSums a t st).arr a = { s.arr a with accum := acc } := by
  obtain ⟨⟨acc, arr⟩, -, keeps⟩ := (s.countExc a ARR_NUMCNT.FLUSH_PROD (st.formed t)).landSums_only a t st
  rw [State.countExc_arr] at arr
  exact ⟨(StepKeeps.of_countExc s a _ _ rfl).trans keeps, acc, arr⟩

theorem State.finishStep_keeps :
    StepKeeps a s (s.finishStep a) ∧ ∃ acc, (s.finishStep a).arr a = (s.arr a).stepped acc := by
  have counted : ∀ (t : Nat) (ts : List Stream) (u : State),
      StepKeeps a u (ts.foldl (fun s st => (s.countExc a ARR_NUMCNT.FLUSH_PROD (st.formed t)).landSums a t st) u)
        ∧ ∃ acc, (ts.foldl (fun s st => (s.countExc a ARR_NUMCNT.FLUSH_PROD (st.formed t)).landSums a t st) u).arr a
          = { u.arr a with accum := acc } := by
    intro t ts
    induction ts with
    | nil => exact fun u => ⟨.refl u a, _, rfl⟩
    | cons st ts ih =>
      intro u
      obtain ⟨keeps, acc, arr⟩ := u.streamStep_keeps a t st
      obtain ⟨keeps', acc', arr'⟩ := ih ((u.countExc a ARR_NUMCNT.FLUSH_PROD (st.formed t)).landSums a t st)
      exact ⟨keeps.trans keeps', acc', arr'.trans (by rw [arr])⟩
  obtain ⟨keeps, acc, arr⟩ := counted (s.arr a).steps (s.arr a).streams s
  unfold State.finishStep
  refine ⟨keeps.trans (.of_modArr _ a _ (fun _ => rfl) fun _ => rfl), acc, ?_⟩
  rw [State.modArr_arr, if_pos rfl, arr]
  rfl

theorem State.rowCodes_arr (t : Stream) (b : Nat) : (s.rowCodes a t).2.arr b = s.arr b := by
  unfold State.rowCodes
  dsimp only
  split
  · split
    · rfl
    · split <;> exact State.mouldRead_arr ..
  · exact State.mouldRead_arr ..

theorem State.rowCodes_keeps (t : Stream) : StepKeeps a s (s.rowCodes a t).2 := by
  refine ⟨by rw [s.rowCodes_arr a t a], by rw [s.rowCodes_arr a t a], ?_⟩
  unfold State.rowCodes
  dsimp only
  split
  · split
    · exact .refl _ _ s
    · split <;> exact .mouldRead (.refl _ _ s)
  · exact .mouldRead (.refl _ _ s)

theorem State.takeSwap_keeps (t : Stream) : StepKeeps a s (s.takeSwap a t) ∧ ((s.takeSwap a t).arr a).steps = (s.arr a).steps := by
  unfold State.takeSwap
  split
  · exact ⟨.of_modArr s a _ (fun _ => rfl) fun _ => rfl, by rw [State.modArr_arr, if_pos rfl]⟩
  · exact ⟨.refl s a, rfl⟩

/-- Stream number `i` becomes `t'` with the row that has entered, and the step ends. -/
def State.placeRow (i : Nat) (t' : Stream) (cs : List Cnt) : State :=
  ((s.countExc a ARR_NUMCNT.FLUSH_IN cs).modArr a fun x => { x with streams := putAt x.streams i t' }).finishStep a

theorem State.placeRow_arr (i : Nat) (t' : Stream) (cs : List Cnt) :
    ∃ acc, (s.placeRow a i t' cs).arr a = ({ s.arr a with streams := putAt (s.arr a).streams i t' } : ArraySt).stepped acc := by
  obtain ⟨-, acc, arr⟩ := State.finishStep_keeps
    ((s.countExc a ARR_NUMCNT.FLUSH_IN cs).modArr a fun x => { x with streams := putAt x.streams i t' }) a
  rw [State.modArr_arr, if_pos rfl, State.countExc_arr] at arr
  exact ⟨acc, arr⟩

theorem State.placeRow_keeps (i : Nat) (t' : Stream) (cs : List Cnt) :
    StepKeeps a s (s.placeRow a i t' cs) ∧ ((s.placeRow a i t' cs).arr a).steps = (s.arr a).steps + 1 := by
  constructor
  · have put : StepKeeps a (s.countExc a ARR_NUMCNT.FLUSH_IN cs)
        ((s.countExc a ARR_NUMCNT.FLUSH_IN cs).modArr a fun x => { x with streams := putAt x.streams i t' }) :=
      .of_modArr _ a _ (fun _ => rfl) fun _ => rfl
    exact ((StepKeeps.of_countExc s a _ cs rfl).trans put).trans (State.finishStep_keeps _ a).1
  · obtain ⟨acc, arr⟩ := s.placeRow_arr a i t' cs
    rw [arr]
    rfl

/-- A row that enters leaves the program where it is, and the step is counted. -/
theorem State.enterRow_keeps (i : Nat) (t : Stream) (e : Nat) : StepKeeps a s (s.enterRow a i t e).2
    ∧ (s.enterRow a i t e).1 ≠ .stall
    ∧ ((s.enterRow a i t e).1 = .done → ((s.enterRow a i t e).2.arr a).steps = (s.arr a).steps + 1) := by
  have read := s.rowCodes_keeps a t
  have same := s.rowCodes_arr a t a
  unfold State.enterRow
  generalize s.rowCodes a t = d at read same ⊢
  obtain ⟨codes, u⟩ := d
  rcases codes with _ | ⟨cs, zr⟩
  · exact ⟨read, nofun, nofun⟩
  · dsimp only at read same ⊢
    obtain ⟨swap, steps⟩ := u.takeSwap_keeps a t
    generalize u.takeSwap a t = v at swap steps ⊢
    obtain ⟨keeps, counted⟩ := v.placeRow_keeps a i { t with
      entered := t.entered + 1, zcRows := zr
      rows := ((cs.map fun c => expand t.fmt c (sint 8 e)).map fun p => if (s.arr a).xform then f32neg p.1 else p.1) :: t.rows
      s0 := if t.entered = 0 then (s.arr a).steps else t.s0
      weights := if t.entered = 0 then (v.arr a).active else t.weights }
      ((cs.map fun c => expand t.fmt c (sint 8 e)).map fun p => p.2)
    exact ⟨(read.trans swap).trans keeps, nofun, fun _ => counted.trans (by rw [steps, same])⟩

/-- A step leaves the program where it is; one that is done is counted, and one that stalls changes nothing. -/
theorem State.stepArr_keeps : StepKeeps a s (s.stepArr a).2
    ∧ ((s.stepArr a).1 = .done → ((s.stepArr a).2.arr a).steps = (s.arr a).steps + 1)
    ∧ ((s.stepArr a).1 = .stall → (s.stepArr a).2 = s) := by
  unfold State.stepArr
  split
  · obtain ⟨keeps, acc, arr⟩ := s.finishStep_keeps a
    exact ⟨keeps, fun _ => by rw [arr, ArraySt.stepped], nofun⟩
  · next i t _ =>
    split
    · exact ⟨.refl s a, nofun, fun _ => rfl⟩
    · split
      · next es _ =>
        obtain ⟨keeps, went, steps⟩ := s.enterRow_keeps a i t (es.getD t.entered 0)
        exact ⟨keeps, steps, fun e => absurd e went⟩
      · have read := StepKeeps.of_mouldRead s a t.scaleAddr t.m none
        have same := s.mouldRead_arr a t.scaleAddr t.m none a
        have scales : (s.readScales a t.scaleAddr t.m).2 = (s.mouldRead a t.scaleAddr t.m none).2 := rfl
        rw [← scales] at read same
        generalize s.readScales a t.scaleAddr t.m = d at read same ⊢
        obtain ⟨es, u⟩ := d
        rcases es with _ | es
        · exact ⟨read, nofun, nofun⟩
        · obtain ⟨keeps, went, steps⟩ := u.enterRow_keeps a i { t with scales := some es } (es.getD 0 0)
          exact ⟨read.trans keeps, fun e => (steps e).trans (by rw [same]), fun e => absurd e went⟩

/-- The steps that have run are counted; those that are left when one stalls are kept. -/
theorem State.runSteps_keeps (n k : Nat) (e : StepEnd) (u : State) (run : State.runSteps a n s = (k, e, u)) :
    StepKeeps a s u ∧ (e = .done → (u.arr a).steps = (s.arr a).steps + n)
      ∧ (e = .stall → (u.arr a).steps + k = (s.arr a).steps + n) := by
  induction n generalizing s with
  | zero =>
    rw [State.runSteps] at run
    cases run
    exact ⟨.refl _ a, fun _ => rfl, nofun⟩
  | succ n ih =>
    obtain ⟨keeps, counted, stalled⟩ := s.stepArr_keeps a
    rw [State.runSteps] at run
    generalize s.stepArr a = d at keeps counted stalled run
    obtain ⟨e', v⟩ := d
    cases e'
    case done =>
      have one := counted rfl
      obtain ⟨rest, steps, left⟩ := ih v run
      dsimp only at one
      exact ⟨keeps.trans rest, fun h => by rw [steps h, one]; omega, fun h => by rw [left h, one]; omega⟩
    case stall =>
      have same := stalled rfl
      cases run
      dsimp only at same
      subst same
      exact ⟨keeps, nofun, fun _ => rfl⟩
    all_goals
      cases run
      exact ⟨keeps, nofun, nofun⟩

end

end Sys2Proof.Machine
end

section
/-! PROOFS. SHIFT, a row that enters, and the sums that land (R45 to R48, R61, R75). -/

set_option Elab.async false

namespace Sys2Proof.Machine

section
variable (s : State) (a : Nat)

theorem State.countStall_counts (c : Nat) (stalled : s.f ARR_STATUS.STATE a = 2) :
    (s.countStall a c).f ARR_PERF.STALL_CYC a = (s.f ARR_PERF.STALL_CYC a + c) % 2 ^ 32 := by
  rw [State.countStall, if_pos stalled, State.modArr_f, State.incWrap_eq,
    State.setF_f_width _ _ _ _ 32 (by decide) rfl]

theorem State.countStall_runs (c : Nat) (running : s.f ARR_STATUS.STATE a ≠ 2) : s.countStall a c = s := by
  rw [State.countStall, if_neg running]

theorem State.countStall_keeps (c : Nat) : ((s.countStall a c).arr a).pc = (s.arr a).pc
    ∧ ((s.countStall a c).arr a).testBar = (s.arr a).testBar ∧ ((s.countStall a c).arr a).steps = (s.arr a).steps
    ∧ ((s.countStall a c).arr a).shiftLeft = (s.arr a).shiftLeft
    ∧ Leaves [.arrays] (oneReg .arrPerf a) s (s.countStall a c) := by
  unfold State.countStall
  split
  · rw [State.modArr_arr, if_pos rfl, State.incWrap_arr]
    exact ⟨rfl, rfl, rfl, rfl, .modArr (.incWrap (.refl _ _ s) ⟨rfl, rfl⟩)⟩
  · exact ⟨rfl, rfl, rfl, rfl, .refl _ _ s⟩

/-- What STATE shows of a program that runs or stalls. -/
theorem State.showRun_state (st : Nat) (hst : st < 16) :
    (s.showRun a st).f ARR_STATUS.STATE a = if (s.arr a).testBar.isSome then s.f ARR_STATUS.STATE a else st := by
  unfold State.showRun
  split
  · rfl
  · rw [State.setF_f_width _ _ _ _ 4 (by decide) rfl, (by decide : 2 ^ 4 = 16), Nat.mod_eq_of_lt hst]

theorem State.showRun_arr (st b : Nat) : (s.showRun a st).arr b = s.arr b := by
  unfold State.showRun
  split
  · rfl
  · rw [State.setF_arr]

theorem State.leaves_showRun (st : Nat) : Leaves [] (oneReg .arrStatus a) s (s.showRun a st) :=
  .ite (.refl _ _ s) (.setF (.refl _ _ s) ⟨rfl, rfl⟩)

theorem State.nextCmd_state : (s.nextCmd a).f ARR_STATUS.STATE a = s.f ARR_STATUS.STATE a :=
  State.setF_f_apart _ ARR_STATUS.PC ARR_STATUS.STATE a a _ (by decide) (by decide)

/-- The steps that a SHIFT still has to run. -/
def ArraySt.shiftSteps (x : ArraySt) (w : Nat) : Nat := if x.shiftLeft = 0 then bits w 111 96 else x.shiftLeft

/-- The registers of its array that a SHIFT may move. -/
abbrev shiftRegs : Reg → Nat → Prop := fun g i => (g = .arrStatus ∨ g = .arrNumcnt ∨ g = .arrPerf) ∧ i = a

theorem State.shift_steps (w k c : Nat) (e : StepEnd) (s1 : State)
    (run : State.runSteps a ((s.arr a).shiftSteps w) (s.countStall a c) = (k, e, s1)) :
    (s1.arr a).pc = (s.arr a).pc ∧ (s1.arr a).testBar = (s.arr a).testBar
      ∧ (e = .done → (s1.arr a).steps = (s.arr a).steps + (s.arr a).shiftSteps w)
      ∧ (e = .stall → (s1.arr a).steps + k = (s.arr a).steps + (s.arr a).shiftSteps w)
      ∧ s1.f ARR_STATUS.STATE a = s.f ARR_STATUS.STATE a ∧ Leaves [.arrays, .freeCtr] (shiftRegs a) s s1 := by
  obtain ⟨pc, bar, steps, -, counted⟩ := s.countStall_keeps a c
  obtain ⟨keeps, done, stalled⟩ := (s.countStall a c).runSteps_keeps a _ k e s1 run
  have both := (counted.mono (rs := [.arrays, .freeCtr]) (k := shiftRegs a) (by simp) fun _ _ h => ⟨.inr (.inr h.1), h.2⟩).trans
    (keeps.leaves.mono (fun _ h => h) fun _ _ h => ⟨.inr (.inl h.1), h.2⟩)
  refine ⟨keeps.pc.trans pc, keeps.testBar.trans bar, fun h => (done h).trans (by rw [steps]),
    fun h => (stalled h).trans (by rw [steps]), ?_, both⟩
  exact (keeps.leaves.f_same ARR_STATUS.STATE a (by rintro ⟨h, -⟩; cases h)).trans
    (counted.f_same ARR_STATUS.STATE a (by rintro ⟨h, -⟩; cases h))

end

theorem shift_done (s s1 : State) (a w k c : Nat) (h : s.atIssue a 0x04 95 false w) (count : bits w 111 96 ≠ 0)
    (run : State.runSteps a ((s.arr a).shiftSteps w) (s.countStall a c) = (k, .done, s1)) :
    ∃ t, exec (.shift a c) s = .next t
      ∧ t.arr a = { s1.arr a with shiftLeft := 0, pc := (s.arr a).pc + 1 }
      ∧ (t.arr a).steps = (s.arr a).steps + (s.arr a).shiftSteps w
      ∧ t.f ARR_STATUS.STATE a = (if (s.arr a).testBar.isSome then s.f ARR_STATUS.STATE a else 1)
      ∧ Leaves [.arrays, .freeCtr] (shiftRegs a) s t := by
  obtain ⟨pc, bar, done, -, state, leaves⟩ := s.shift_steps a w k c .done s1 run
  have set := OnlyArray.of_modArr s1 a fun x => { x with shiftLeft := 0 }
  have next := OnlyArray.of_nextCmd ((s1.modArr a fun x => { x with shiftLeft := 0 }).showRun a 1) a
  have issued : (s.countStall a c).issueShift a w
      = ((s1.modArr a fun x => { x with shiftLeft := 0 }).showRun a 1).nextCmd a := by
    unfold State.issueShift
    dsimp only
    rw [if_neg count, (s.countStall_keeps a c).2.2.2.1]
    unfold ArraySt.shiftSteps at run
    rw [run]
  have arr : (((s1.modArr a fun x => { x with shiftLeft := 0 }).showRun a 1).nextCmd a).arr a
      = { s1.arr a with shiftLeft := 0, pc := (s.arr a).pc + 1 } := by
    rw [next.1, State.showRun_arr, set.1, pc]
  refine ⟨_, by rw [exec_shift, execShift, State.isArray_of_atIssue h, unit_true, State.issue_atIssue h (by decide), issued],
    arr, ?_, ?_, ?_⟩
  · rw [arr]
    exact done rfl
  · rw [State.nextCmd_state, State.showRun_state _ _ _ (by decide), set.1, bar, State.modArr_f, state]
  · exact leaves.trans (((set.2.2.2.2.trans ((State.leaves_showRun _ a 1).mono (List.nil_subset _) fun _ _ h => h)).trans
      next.2.2.2.2).mono (by simp) fun _ _ h => ⟨.inl h.1, h.2⟩)


theorem shift_stalls (s s1 : State) (a w k c : Nat) (h : s.atIssue a 0x04 95 false w) (count : bits w 111 96 ≠ 0)
    (run : State.runSteps a ((s.arr a).shiftSteps w) (s.countStall a c) = (k, .stall, s1)) :
    ∃ t, exec (.shift a c) s = .next t
      ∧ t.arr a = { s1.arr a with shiftLeft := k } ∧ (t.arr a).pc = (s.arr a).pc
      ∧ t.f ARR_STATUS.STATE a = (if (s.arr a).testBar.isSome then s.f ARR_STATUS.STATE a else 2)
      ∧ (t.arr a).steps + k = (s.arr a).steps + (s.arr a).shiftSteps w
      ∧ Leaves [.arrays, .freeCtr] (shiftRegs a) s t := by
  obtain ⟨pc, bar, -, stalled, state, leaves⟩ := s.shift_steps a w k c .stall s1 run
  have set := OnlyArray.of_modArr s1 a fun x => { x with shiftLeft := k }
  have issued : (s.countStall a c).issueShift a w = (s1.modArr a fun x => { x with shiftLeft := k }).showRun a 2 := by
    unfold State.issueShift
    dsimp only
    rw [if_neg count, (s.countStall_keeps a c).2.2.2.1]
    unfold ArraySt.shiftSteps at run
    rw [run]
  have arr : ((s1.modArr a fun x => { x with shiftLeft := k }).showRun a 2).arr a = { s1.arr a with shiftLeft := k } := by
    rw [State.showRun_arr, set.1]
  refine ⟨_, by rw [exec_shift, execShift, State.isArray_of_atIssue h, unit_true, State.issue_atIssue h (by decide), issued],
    arr, ?_, ?_, ?_, ?_⟩
  · rw [arr]
    exact pc
  · rw [State.showRun_state _ _ _ (by decide), set.1, bar, State.modArr_f, state]
  · rw [arr]
    exact stalled rfl
  · exact leaves.trans ((set.2.2.2.2.trans ((State.leaves_showRun _ a 2).mono (List.nil_subset _) fun _ _ h => h)).mono
      (by simp) fun _ _ h => ⟨.inl h.1, h.2⟩)

theorem stepArr_stalls (s : State) (a i : Nat) (st : Stream) (entering : (s.arr a).entering = some (i, st))
    (wait : (s.arr a).rowReady st = false) : s.stepArr a = (.stall, s) := by
  unfold State.stepArr
  rw [entering]
  dsimp only
  rw [wait]
  rfl

/-- The expanded elements of the row of a stream that enters. -/
def ArraySt.rowExpanded (x : ArraySt) (st : Stream) (e : Nat) : List (Nat × Cnt) :=
  (elems st.fmt (if st.sparse then 256 else 128)
    (x.bytes (st.src + st.entered * st.stride * 64) (rowBytes st.fmt (if st.sparse then 256 else 128)))).map
      fun c => expand st.fmt c (sint 8 e)

/-- The stream once its next row has entered, under the weights `active`. -/
def ArraySt.rowEntered (x : ArraySt) (st : Stream) (e : Nat) (active : Weights) : Stream :=
  { st with
    entered := st.entered + 1, zcRows := none, rows := ((x.rowExpanded st e).map fun p => if x.xform then f32neg p.1 else p.1) :: st.rows
    s0 := if st.entered = 0 then x.steps else st.s0
    weights := if st.entered = 0 then active else st.weights }

section
variable (s : State) (a : Nat) (st : Stream) (es : List Nat)

/-- With one stream whose row is ready, a step places that row. -/
theorem State.stepArr_enters (one : (s.arr a).streams = [st]) (more : st.entered < st.m) (plain : st.zc = false)
    (free : st.follow = none) (scales : st.scales = some es) (idle : (s.arr a).async = []) :
    s.stepArr a = (.done, (s.takeSwap a st).placeRow a 0
      ((s.arr a).rowEntered st (es.getD st.entered 0) ((s.takeSwap a st).arr a).active)
      (((s.arr a).rowExpanded st (es.getD st.entered 0)).map fun p => p.2)) := by
  have entering : (s.arr a).entering = some (0, st) := by simp [ArraySt.entering, one, more]
  have ready : (s.arr a).rowReady st = true := by rw [ArraySt.rowReady, free]
  have read : s.mouldRead a (st.src + st.entered * st.stride * 64) (rowBytes st.fmt (if st.sparse then 256 else 128)) st.follow
      = ((s.arr a).bytes (st.src + st.entered * st.stride * 64) (rowBytes st.fmt (if st.sparse then 256 else 128)), s) := by
    unfold State.mouldRead
    dsimp only
    rw [idle]
    rfl
  have codes : s.rowCodes a st = (some (elems st.fmt (if st.sparse then 256 else 128) ((s.arr a).bytes
      (st.src + st.entered * st.stride * 64) (rowBytes st.fmt (if st.sparse then 256 else 128))), none), s) := by
    unfold State.rowCodes
    dsimp only
    rw [plain, read]
    rfl
  have entered : s.enterRow a 0 st (es.getD st.entered 0) = (.done, (s.takeSwap a st).placeRow a 0
      ((s.arr a).rowEntered st (es.getD st.entered 0) ((s.takeSwap a st).arr a).active)
      (((s.arr a).rowExpanded st (es.getD st.entered 0)).map fun p => p.2)) := by
    unfold State.enterRow
    rw [codes]
    rfl
  unfold State.stepArr
  rw [entering]
  dsimp only
  rw [ready, scales]
  exact entered

/-- A stream that swaps takes the two weight sets with its first row; otherwise they stay. -/
theorem State.takeSwap_arr : (s.takeSwap a st).arr a = if st.entered = 0 ∧ st.swap = true
    then { s.arr a with active := (s.arr a).shadow, shadow := (s.arr a).active } else s.arr a := by
  unfold State.takeSwap
  simp only [Bool.and_eq_true, decide_eq_true_eq]
  split
  · rw [State.modArr_arr, if_pos rfl]
  · rfl

end

/-- A stream whose last row has just entered is still in the cells. -/
theorem ArraySt.stepped_streams (x : ArraySt) (st : Stream) (acc : NMap Nat) (one : x.streams = [st])
    (young : x.steps < st.s0 + st.m + 190) : (x.stepped acc).streams = [st] := by
  have stays : (st.entered == st.m && decide (st.s0 + st.m + 190 ≤ x.steps)) = false := by
    simp only [Bool.and_eq_false_iff, decide_eq_false_iff_not]
    exact .inr (by omega)
  rw [ArraySt.stepped, one, List.filter_cons, stays]
  rfl

/-- R45, R48, R74: the next row of the only stream enters. -/
theorem row_enters (s : State) (a : Nat) (st : Stream) (es : List Nat) (one : (s.arr a).streams = [st]) (more : st.entered < st.m)
    (inStep : 0 < st.entered → (s.arr a).steps = st.s0 + st.entered) (plain : st.zc = false) (free : st.follow = none)
    (scales : st.scales = some es) (idle : (s.arr a).async = []) :
    ∃ u acc, s.stepArr a = (.done, u)
      ∧ (u.arr a).streams = [(s.arr a).rowEntered st (es.getD st.entered 0) ((s.takeSwap a st).arr a).active]
      ∧ u.arr a = ({ (s.takeSwap a st).arr a with
          streams := [(s.arr a).rowEntered st (es.getD st.entered 0) ((s.takeSwap a st).arr a).active] } : ArraySt).stepped acc := by
  have step := s.stepArr_enters a st es one more plain free scales idle
  obtain ⟨acc, arr⟩ := (s.takeSwap a st).placeRow_arr a 0
    ((s.arr a).rowEntered st (es.getD st.entered 0) ((s.takeSwap a st).arr a).active)
    (((s.arr a).rowExpanded st (es.getD st.entered 0)).map fun p => p.2)
  have streams : ((s.takeSwap a st).arr a).streams = [st] := by
    rw [s.takeSwap_arr a st]
    split <;> exact one
  have steps : ((s.takeSwap a st).arr a).steps = (s.arr a).steps := (s.takeSwap_keeps a st).2
  rw [streams] at arr
  refine ⟨_, acc, step, ?_, arr⟩
  rw [arr]
  refine ArraySt.stepped_streams _ _ _ rfl ?_
  dsimp only
  rw [steps, ArraySt.rowEntered]
  dsimp only
  split
  · omega
  · have := inStep (by omega)
    omega

theorem State.countExc_ovf (s : State) (a : Nat) (flush : Fld) (cs : List Cnt) (fits : flush.fits)
    (apart : flush.apart ARR_NUMCNT.OVF) : (s.countExc a flush cs).f ARR_NUMCNT.OVF a
      = min (s.f ARR_NUMCNT.OVF a + (cs.filter (· == .ovf)).length) ARR_NUMCNT.OVF.top := by
  unfold State.countExc
  dsimp only
  split
  case isTrue none =>
    simp only [Bool.and_eq_true, decide_eq_true_eq] at none
    have small := s.f_lt ARR_NUMCNT.OVF a
    rw [none.1, Nat.add_zero, Nat.min_eq_left]
    exact Nat.le_sub_one_of_lt small
  case isFalse =>
    rw [State.incSat_eq (State.incSat ..), State.setF_f_apart _ _ _ _ _ _ fits apart, State.incSat_f_same _ _ _ _ (by decide)]

/-- R46, R47, R75: with every row in, a step lands the sums that are due and counts the products that overflow. -/
theorem sums_land (s : State) (a : Nat) (st : Stream) (one : (s.arr a).streams = [st]) (full : st.entered = st.m) (rows : 0 < st.m)
    (late : st.s0 + 128 ≤ (s.arr a).steps) :
    ∃ u, s.stepArr a = (.done, u)
      ∧ (∀ n < 64, ∀ m < st.m, (s.arr a).steps = st.s0 + 128 + n + m →
          NMap.get (u.arr a).accum 0 (64 * (st.accRow + m) + n) = st.landValue (s.arr a) n m)
      ∧ (∀ r n, n < 64 → (∀ m < st.m, r = st.accRow + m → (s.arr a).steps ≠ st.s0 + 128 + n + m) →
          NMap.get (u.arr a).accum 0 (64 * r + n) = NMap.get (s.arr a).accum 0 (64 * r + n))
      ∧ u.f ARR_NUMCNT.OVF a = min (s.f ARR_NUMCNT.OVF a
          + ((st.formed (s.arr a).steps).filter fun c => c == .ovf).length) ARR_NUMCNT.OVF.top := by
  have entering : (s.arr a).entering = none := by simp [ArraySt.entering, one, full]
  obtain ⟨hits, misses⟩ := (s.countExc a ARR_NUMCNT.FLUSH_PROD (st.formed (s.arr a).steps)).landed_accum a (s.arr a).steps st 64
    (Nat.le_refl _) full
  obtain ⟨-, regs, -⟩ := (s.countExc a ARR_NUMCNT.FLUSH_PROD (st.formed (s.arr a).steps)).landSums_only a (s.arr a).steps st
  have step : s.stepArr a = (.done, ((s.countExc a ARR_NUMCNT.FLUSH_PROD (st.formed (s.arr a).steps)).landSums a (s.arr a).steps
      st).modArr a fun x => { x with
        steps := (s.arr a).steps + 1
        streams := x.streams.filter fun st => !(st.entered == st.m && st.s0 + st.m + 190 ≤ (s.arr a).steps) }) := by
    unfold State.stepArr State.finishStep
    rw [entering, one]
    rfl
  have lands : ∀ v : State, v.landSums a (s.arr a).steps st
      = (List.range 64).foldl (fun s' n => s'.landSum a (s.arr a).steps st n) v := fun v => by
    rw [State.landSums, if_neg]
    · rfl
    · simp only [Bool.or_eq_true, decide_eq_true_eq]
      omega
  rw [← lands, State.countExc_arr] at hits misses
  refine ⟨_, step, fun n hn m hm due => ?_, fun r n hn early => ?_, ?_⟩
  · rw [State.modArr_arr, if_pos rfl]
    exact hits n hn m hm due
  · rw [State.modArr_arr, if_pos rfl]
    exact misses r n hn (.inr early)
  · rw [State.modArr_f]
    refine (congrArg (bits · ARR_NUMCNT.OVF.hi ARR_NUMCNT.OVF.lo) (regs .arrNumcnt a)).trans ?_
    exact s.countExc_ovf a ARR_NUMCNT.FLUSH_PROD _ (by decide) (by decide)

/-- Settles O22: a SHIFT runs its steps; a step with a row ready places that row, and a step with every row in lands the
sums that are due, each in an accumulator of its own. -/
theorem shiftsMoveRowsAndLandSums : Obligations.ShiftsMoveRowsAndLandSums := by
  refine ⟨fun s s1 a w k c h count => ⟨shift_done s s1 a w k c h count, shift_stalls s s1 a w k c h count⟩,
    fun s a c => ⟨s.countStall_counts a c, s.countStall_runs a c⟩, stepArr_stalls,
    fun s a st es one more inStep plain free scales idle => ?_, sums_land⟩
  obtain ⟨u, acc, step, streams, arr⟩ := row_enters s a st es one more inStep plain free scales idle
  have swapped := s.takeSwap_arr a st
  refine ⟨u, _, step, streams, rfl, rfl, congrArg (· :: st.rows) List.map_map, fun first swap => ?_, fun first stay => ?_, fun stay => ?_, fun later => ?_, ?_⟩
  · rw [if_pos ⟨first, swap⟩] at swapped
    rw [arr, ArraySt.rowEntered, swapped]
    exact ⟨rfl, rfl, if_pos first⟩
  · rw [if_neg (by simp [stay])] at swapped
    rw [ArraySt.rowEntered, swapped]
    exact if_pos first
  · rw [if_neg (by rintro ⟨first, swap⟩; rcases stay with h | h; · simp [h] at swap
                   · omega)] at swapped
    rw [arr, swapped]
    exact ⟨rfl, rfl⟩
  · exact if_neg (by omega)
  · rw [arr]
    exact congrArg (· + 1) (s.takeSwap_keeps a st).2

end Sys2Proof.Machine
end

section
/-! PROOFS. DRAIN (R79 to R82): the rows it stores, what it counts, and the signature. -/

set_option Elab.async false

namespace Sys2Proof.Machine

/-- Bytes written at `lo` stand there, and nothing else changes. -/
theorem putMould_get (m : NMap Byte) (lo : Nat) (bs : List Byte) (k : Nat) :
    NMap.get (putMould m lo bs) 0 k = if lo ≤ k ∧ k < lo + bs.length then bs.getD (k - lo) 0 else NMap.get m 0 k := by
  induction bs generalizing m lo with
  | nil =>
    rw [putMould, if_neg]
    rw [List.length_nil]
    omega
  | cons b bs ih =>
    rw [putMould, ih, NMap.get_set, List.length_cons]
    by_cases here : k = lo
    · subst here
      rw [if_neg (by omega), if_pos rfl, if_pos (by omega), Nat.sub_self, List.getD_cons_zero]
    · by_cases inside : lo + 1 ≤ k ∧ k < lo + 1 + bs.length
      · rw [if_pos inside, if_pos (by omega), (by omega : k - lo = (k - (lo + 1)) + 1), List.getD_cons_succ]
      · rw [if_neg inside, if_neg here, if_neg (by omega)]

theorem bytes_putMould (x : ArraySt) (lo : Nat) (bs : List Byte) :
    ({ x with mould := putMould x.mould lo bs } : ArraySt).bytes lo bs.length = bs := by
  refine List.ext_getElem (by simp [ArraySt.bytes]) fun k h1 h2 => ?_
  simp only [ArraySt.bytes, List.getElem_map, List.getElem_range, putMould_get]
  rw [if_pos (by omega), Nat.add_sub_cancel_left, List.getD_eq_getElem?_getD, List.getElem?_eq_getElem h2, Option.getD_some]

theorem bytes_putMould_apart (x : ArraySt) (lo n at' : Nat) (bs : List Byte) (apart : at' + bs.length ≤ lo ∨ lo + n ≤ at') :
    ({ x with mould := putMould x.mould at' bs } : ArraySt).bytes lo n = x.bytes lo n := by
  refine List.map_congr_left fun k hk => ?_
  rw [List.mem_range] at hk
  rw [putMould_get, if_neg (by omega)]

section
variable (s : State) (a : Nat)

/-- The registers that count a drained row. -/
abbrev rowCounts : Reg → Nat → Prop :=
  fun g i => (g = .arrNumcnt ∨ g = .arrNumstat ∨ g = .arrSatcnt ∨ g = .arrSatwin) ∧ i = a

theorem State.leaves_countRow (cs : List Conv) :
    Leaves [.jobs, .outbox, .keptIrqs] (rowCounts a) s (s.countRow a cs) := by
  rw [show State.countRow = _ from by delta State.countRow; exact rfl]
  obtain ⟨arr, e⟩ : ∃ arr, State.arr = arr := ⟨_, rfl⟩
  rw [e]
  extract_lets sat nan s1 v w lg cleared counted
  have total : Leaves [.jobs, .outbox, .keptIrqs] (rowCounts a) s s1 :=
    .incSat (.incWrap (.refl _ _ s) ⟨.inr (.inr (.inl rfl)), rfl⟩) ⟨.inl rfl, rfl⟩
  have window : ∀ (x : Fld) (v : Nat) {t : State}, x.reg = .arrSatwin → Leaves [.jobs, .outbox, .keptIrqs] (rowCounts a) s t →
      Leaves [.jobs, .outbox, .keptIrqs] (rowCounts a) s (t.setF x a v) :=
    fun x v t hx h => .setF h ⟨.inr (.inr (.inr hx)), rfl⟩
  have restarted : Leaves [.jobs, .outbox, .keptIrqs] (rowCounts a) s cleared := window _ _ rfl (window _ _ rfl total)
  have all : Leaves [.jobs, .outbox, .keptIrqs] (rowCounts a) s counted :=
    .ite total (.ite (window _ _ rfl (window _ _ rfl total))
      (.ite (.mgrIrq (.incSat (.setF restarted ⟨.inr (.inl rfl), rfl⟩) ⟨.inr (.inr (.inl rfl)), rfl⟩)) restarted))
  split
  · exact .ite all (.modJob all)
  · exact all

theorem Leaves.arr_same {ps : List Part} {q : Reg → Nat → Prop} {s t : State} (h : Leaves ps q s t)
    (hp : Part.arrays ∉ ps := by simp) (b : Nat) : t.arr b = s.arr b := by
  have same : t.units.arrays = s.units.arrays := h.1 .arrays hp
  rw [State.arr, State.arr, same]

/-- The values of a drained row. -/
abbrev drainedScale (x : ArraySt) (ofmt : Nat) : Int := rowScale ofmt x.hist x.post.headroom x.post.seed

/-- The bytes of a drained row. -/
def State.drainedData (ofmt : Nat) (bias : List Nat) (row : Nat) : List Byte :=
  packElems ofmt ((s.drainRow a bias row).map fun v => (convert ofmt (ofF32 v) (drainedScale (s.arr a) ofmt)).code)

/-- The scale byte of a drained row. -/
def ArraySt.drainedByte (x : ArraySt) (ofmt : Nat) : Byte := BitVec.ofNat 8 (uint 8 (drainedScale x ofmt))

theorem State.length_drainedData (ofmt : Nat) (bias : List Nat) (row : Nat) :
    (s.drainedData a ofmt bias row).length = rowBytes ofmt 64 := by
  have values : (s.drainRow a bias row).length = 64 := by simp [State.drainRow]
  rw [State.drainedData, packElems, length_toLE, List.length_map, values, cdiv, rowBytes]
  omega

/-- Row `i` of a plain DRAIN: its data, its scale byte, and the signature. -/
def State.drainStep (ofmt dst stride scd row0 : Nat) (bias : List Nat) (i : Nat) : State :=
  let (cs, e, s1) := s.drainOne a ofmt bias (row0 + i)
  let bs := packElems ofmt cs
  ((s1.mouldWrite a (rowAddr ofmt dst stride i) bs).mouldWrite a (scd + i) [e]).foldSig a (bs ++ [e])

theorem State.drainPlain_steps (ofmt dst stride scd row0 : Nat) (bias : List Nat) (rows : Nat) :
    s.drainPlain a ofmt dst stride scd row0 bias rows
      = (List.range rows).foldl (fun s i => s.drainStep a ofmt dst stride scd row0 bias i) s := rfl

theorem State.drainOne_arr (ofmt : Nat) (bias : List Nat) (row b : Nat) :
    (s.drainOne a ofmt bias row).2.2.arr b = if b = a then { s.arr a with
      hist := histAdd (s.arr a).hist (s.arr a).post.windowM1 (rowMag (s.drainRow a bias row)) } else s.arr b := by
  unfold State.drainOne
  dsimp only
  rw [(State.leaves_countRow _ a _).arr_same, State.modArr_arr]

theorem State.leaves_drainStep (ofmt dst stride scd row0 : Nat) (bias : List Nat) (i : Nat) :
    Leaves [.arrays, .jobs, .outbox, .keptIrqs] (rowCounts a) s (s.drainStep a ofmt dst stride scd row0 bias i) := by
  have one : Leaves [.arrays, .jobs, .outbox, .keptIrqs] (rowCounts a) s (s.drainOne a ofmt bias (row0 + i)).2.2 := by
    unfold State.drainOne
    dsimp only
    exact (Leaves.modArr (.refl _ _ s)).trans
      ((State.leaves_countRow _ a _).mono (List.subset_cons_self Part.arrays _) fun _ _ h => h)
  exact .modArr (.mouldWrite (.mouldWrite one))

theorem State.drainStep_arr (ofmt dst stride scd row0 : Nat) (bias : List Nat) (i : Nat) :
    (s.drainStep a ofmt dst stride scd row0 bias i).arr a = { s.arr a with
      hist := histAdd (s.arr a).hist (s.arr a).post.windowM1 (rowMag (s.drainRow a bias (row0 + i)))
      mould := putMould (putMould (s.arr a).mould (rowAddr ofmt dst stride i) (s.drainedData a ofmt bias (row0 + i))) (scd + i)
        [(s.arr a).drainedByte ofmt]
      sigCrc := crc32Fold (s.arr a).sigCrc (s.drainedData a ofmt bias (row0 + i) ++ [(s.arr a).drainedByte ofmt]) } := by
  have codes : (s.drainOne a ofmt bias (row0 + i)).1
      = (s.drainRow a bias (row0 + i)).map fun v => (convert ofmt (ofF32 v) (drainedScale (s.arr a) ofmt)).code := List.map_map
  have scale : (s.drainOne a ofmt bias (row0 + i)).2.1 = (s.arr a).drainedByte ofmt := rfl
  have arr := s.drainOne_arr a ofmt bias (row0 + i) a
  unfold State.drainStep
  generalize s.drainOne a ofmt bias (row0 + i) = d at codes scale arr ⊢
  obtain ⟨cs, e, u⟩ := d
  dsimp only at codes scale arr ⊢
  subst codes scale
  rw [if_pos rfl] at arr
  unfold State.foldSig State.mouldWrite
  rw [State.modArr_arr, if_pos rfl, State.modArr_arr, if_pos rfl, State.modArr_arr, if_pos rfl, arr]
  rfl

/-- What the rows of a plain DRAIN leave of their array: all but the mould store, the scale history and the signature. -/
def DrainKeeps (x y : ArraySt) : Prop := ∃ m h c, y = { x with mould := m, hist := h, sigCrc := c }

theorem DrainKeeps.trans {x y z : ArraySt} (h : DrainKeeps x y) (g : DrainKeeps y z) : DrainKeeps x z := by
  obtain ⟨_, _, _, rfl⟩ := h
  obtain ⟨m, h, c, rfl⟩ := g
  exact ⟨m, h, c, rfl⟩

/-- The rows of a plain DRAIN write their ranges alone. -/
theorem State.drainPlain_keeps (ofmt dst stride scd row0 : Nat) (bias : List Nat) (rows : Nat) :
    DrainKeeps (s.arr a) ((s.drainPlain a ofmt dst stride scd row0 bias rows).arr a)
      ∧ Leaves [.arrays, .jobs, .outbox, .keptIrqs] (rowCounts a) s (s.drainPlain a ofmt dst stride scd row0 bias rows)
      ∧ ∀ k, (∀ p ∈ drainRanges ofmt dst stride scd rows, k < p.1 ∨ p.1 + p.2 ≤ k) →
        NMap.get ((s.drainPlain a ofmt dst stride scd row0 bias rows).arr a).mould 0 k = NMap.get (s.arr a).mould 0 k := by
  rw [State.drainPlain_steps]
  induction rows with
  | zero => exact ⟨⟨_, _, _, rfl⟩, .refl _ _ s, fun _ _ => rfl⟩
  | succ n ih =>
    obtain ⟨keeps, leaves, outside⟩ := ih
    rw [List.range_succ, List.foldl_append, List.foldl_cons, List.foldl_nil]
    generalize (List.range n).foldl (fun s i => s.drainStep a ofmt dst stride scd row0 bias i) s = u at keeps leaves outside ⊢
    have arr := u.drainStep_arr a ofmt dst stride scd row0 bias n
    refine ⟨keeps.trans ⟨_, _, _, arr⟩, leaves.trans (u.leaves_drainStep a ofmt dst stride scd row0 bias n),
      fun k apart => ?_⟩
    have scales := apart (scd, n + 1) (by simp [drainRanges])
    have data := apart (rowAddr ofmt dst stride n, rowBytes ofmt 64)
      (List.mem_append_left _ (List.mem_map.mpr ⟨n, List.mem_range.mpr (Nat.lt_succ_self n), rfl⟩))
    dsimp only at scales data
    have before := outside k fun p hp => by
      simp only [drainRanges, List.mem_append, List.mem_map, List.mem_range, List.mem_singleton] at hp
      rcases hp with ⟨i, hi, rfl⟩ | rfl
      · exact apart _ (by simp only [drainRanges, List.mem_append, List.mem_map, List.mem_range]; exact .inl ⟨i, by omega, rfl⟩)
      · dsimp only
        omega
    rw [arr, putMould_get, if_neg (by rw [List.length_singleton]; omega), putMould_get,
      if_neg (by rw [State.length_drainedData]; omega)]
    exact before

/-- One row of a plain DRAIN whose scale byte lies apart from its data. -/
theorem State.drainPlain_one (ofmt dst stride scd row0 : Nat) (bias : List Nat) (apart : scd < dst ∨ dst + rowBytes ofmt 64 ≤ scd) :
    ((s.drainPlain a ofmt dst stride scd row0 bias 1).arr a).bytes dst (rowBytes ofmt 64) = s.drainedData a ofmt bias row0
      ∧ ((s.drainPlain a ofmt dst stride scd row0 bias 1).arr a).bytes scd 1 = [(s.arr a).drainedByte ofmt]
      ∧ ((s.drainPlain a ofmt dst stride scd row0 bias 1).arr a).sigCrc
        = crc32Fold (s.arr a).sigCrc (s.drainedData a ofmt bias row0 ++ [(s.arr a).drainedByte ofmt])
      ∧ ((s.drainPlain a ofmt dst stride scd row0 bias 1).arr a).hist
        = histAdd (s.arr a).hist (s.arr a).post.windowM1 (rowMag (s.drainRow a bias row0)) := by
  have arr := s.drainStep_arr a ofmt dst stride scd row0 bias 0
  have address : rowAddr ofmt dst stride 0 = dst := by simp [rowAddr]
  rw [Nat.add_zero, Nat.add_zero, address] at arr
  have long := s.length_drainedData a ofmt bias row0
  rw [State.drainPlain_steps, List.range_one, List.foldl_cons, List.foldl_nil, arr]
  refine ⟨?_, ?_, rfl, rfl⟩
  · rw [← long] at apart ⊢
    exact (bytes_putMould_apart { s.arr a with mould := putMould (s.arr a).mould dst (s.drainedData a ofmt bias row0) } dst
      (s.drainedData a ofmt bias row0).length scd [(s.arr a).drainedByte ofmt] (by rw [List.length_singleton]; omega)).trans
      (bytes_putMould (s.arr a) dst _)
  · exact bytes_putMould { s.arr a with mould := putMould (s.arr a).mould dst (s.drainedData a ofmt bias row0) } scd
      [(s.arr a).drainedByte ofmt]

end

end Sys2Proof.Machine
end

section
/-! PROOFS. DRAIN at issue (R57, R79 to R81). -/

set_option Elab.async false

namespace Sys2Proof.Machine

section
variable (s : State) (a w : Nat)

/-- A plain DRAIN to `dst` that is outstanding. -/
def drainOp (dst : Nat) : AsyncOp :=
  { serial := 0, kind := .drain, evt := none
    rows := drainRanges (bits w 53 50) dst (bits w 69 54) (bits w 49 28) (bits w 79 70 + 1) }

/-- The bias of a DRAIN, as the post path has it. -/
def ArraySt.drainBias (x : ArraySt) : List Nat :=
  (List.range 64).map fun c => if x.post.biasEn then leAt (x.bytes x.post.biasAddr 256) (4 * c) 4 else 0

/-- The operands of a plain DRAIN whose destination stands at `dst` are in range. -/
structure DrainLegal (dst : Nat) : Prop where
  plain : (s.arr a).post.zc = false
  dest : (dst : Int) = (bits w 111 90 : Int) + 64 * s.loopInc a 51 36
  fmt : bits w 53 50 ≤ 11
  stride : bits w 69 54 ≠ 0
  aligned : bits w 111 90 % 64 = 0
  rows : bits w 89 80 + (bits w 79 70 + 1) ≤ 1024
  scales : bits w 49 28 + (bits w 79 70 + 1) ≤ mouldTop
  data : dst + rowsEnd (bits w 53 50) (bits w 69 54) (bits w 79 70 + 1) ≤ mouldTop

/-- A plain DRAIN reads its bias, stores its rows, and stays outstanding. -/
theorem State.issueDrain_plain (dst : Nat) (ok : DrainLegal s a w dst) (clean : ∀ k, (s.arr a).hazard none k = false) :
    ∃ u, (∀ b, u.arr b = s.arr b) ∧ Leaves [.freeCtr] noReg s u
      ∧ s.issueDrain a w = ((u.drainPlain a (bits w 53 50) dst (bits w 69 54) (bits w 49 28) (bits w 89 80) (s.arr a).drainBias
          (bits w 79 70 + 1)).addAsync a w (drainOp w dst)).nextCmd a := by
  obtain ⟨plain, dest, fmt, stride, aligned, rows, scales, data⟩ := ok
  have back : ((bits w 111 90 : Int) + 64 * s.loopInc a 51 36).toNat = dst := by omega
  have read : ∃ u, (∀ b, u.arr b = s.arr b) ∧ Leaves [.freeCtr] noReg s u
      ∧ ∃ bb, (if (s.arr a).post.biasEn = true then s.mouldRead a (s.arr a).post.biasAddr 256 none else ([], s)) = (bb, u)
        ∧ ((List.range 64).map fun c => leAt bb (4 * c) 4) = (s.arr a).drainBias := by
    unfold ArraySt.drainBias
    split
    · obtain ⟨bytes, same, -, frees⟩ := s.mouldRead_clean a (s.arr a).post.biasAddr 256 clean
      exact ⟨(s.mouldRead a (s.arr a).post.biasAddr 256 none).2, same, frees,
        (s.mouldRead a (s.arr a).post.biasAddr 256 none).1, rfl, by rw [bytes]⟩
    · exact ⟨s, fun _ => rfl, .refl _ _ s, [], rfl, List.map_congr_left fun c _ => by simp [leAt, leNat]⟩
  obtain ⟨u, same, frees, bb, bias, values⟩ := read
  refine ⟨u, same, frees, ?_⟩
  unfold State.issueDrain
  dsimp only
  rw [if_neg, bias]
  · dsimp only
    rw [plain, back, values]
    rfl
  · have scale := inMould_nat (bits w 49 28 : Int) (bits w 49 28) _ rfl scales
    have block := inMould_nat _ dst _ dest data
    have first := inMould_nat _ dst 0 dest (by omega)
    simp only [scale, block, first, plain, aligned, stride, bne_self_eq_false, Bool.not_true, Bool.or_false, Bool.and_false,
      Bool.false_and, Bool.or_eq_true, decide_eq_true_eq, beq_iff_eq, or_false, not_or]
    omega

/-- The registers that a DRAIN moves. -/
abbrev drainRegs : Reg → Nat → Prop :=
  fun g i => (g = .arrStatus ∨ g = .arrNumcnt ∨ g = .arrNumstat ∨ g = .arrSatcnt ∨ g = .arrSatwin) ∧ i = a

theorem drain_stores (dst : Nat) (h : s.atIssue a 0x06 27 true w) (clean : ∀ k, (s.arr a).hazard none k = false)
    (ok : DrainLegal s a w dst) : ∃ t, exec (.drain a) s = .next t
      ∧ (t.arr a).pc = (s.arr a).pc + 1 ∧ (t.arr a).accum = (s.arr a).accum
      ∧ (t.arr a).async = (s.arr a).async ++ [(s.arr a).asyncOf w (drainOp w dst)]
      ∧ (∀ k, (∀ p ∈ drainRanges (bits w 53 50) dst (bits w 69 54) (bits w 49 28) (bits w 79 70 + 1), k < p.1 ∨ p.1 + p.2 ≤ k) →
          NMap.get (t.arr a).mould 0 k = NMap.get (s.arr a).mould 0 k)
      ∧ (bits w 79 70 + 1 = 1 → (bits w 49 28 < dst ∨ dst + rowBytes (bits w 53 50) 64 ≤ bits w 49 28) →
          (t.arr a).bytes dst (rowBytes (bits w 53 50) 64) = s.drainedData a (bits w 53 50) (s.arr a).drainBias (bits w 89 80)
            ∧ (t.arr a).bytes (bits w 49 28) 1 = [(s.arr a).drainedByte (bits w 53 50)]
            ∧ (t.arr a).sigCrc = crc32Fold (s.arr a).sigCrc
              (s.drainedData a (bits w 53 50) (s.arr a).drainBias (bits w 89 80) ++ [(s.arr a).drainedByte (bits w 53 50)])
            ∧ (t.arr a).hist = histAdd (s.arr a).hist (s.arr a).post.windowM1
              (rowMag (s.drainRow a (s.arr a).drainBias (bits w 89 80))))
      ∧ Leaves [.arrays, .jobs, .outbox, .keptIrqs, .freeCtr] (drainRegs a) s t := by
  obtain ⟨u, same, frees, issue⟩ := s.issueDrain_plain a w dst ok clean
  obtain ⟨keeps, leaves, outside⟩ := u.drainPlain_keeps a (bits w 53 50) dst (bits w 69 54) (bits w 49 28) (bits w 89 80)
    (s.arr a).drainBias (bits w 79 70 + 1)
  have single := u.drainPlain_one a (bits w 53 50) dst (bits w 69 54) (bits w 49 28) (bits w 89 80) (s.arr a).drainBias
  have config : u.drainRow a (s.arr a).drainBias (bits w 89 80) = s.drainRow a (s.arr a).drainBias (bits w 89 80) := by
    unfold State.drainRow State.physCol
    rw [same, frees.f_same SYS_SAFECFG.ROT 0 id]
  have data : u.drainedData a (bits w 53 50) (s.arr a).drainBias (bits w 89 80)
      = s.drainedData a (bits w 53 50) (s.arr a).drainBias (bits w 89 80) := by
    rw [State.drainedData, config, same, State.drainedData]
  rw [same, data, config] at single
  rw [same] at keeps outside
  generalize hv : u.drainPlain a (bits w 53 50) dst (bits w 69 54) (bits w 49 28) (bits w 89 80) (s.arr a).drainBias
    (bits w 79 70 + 1) = v at issue keeps leaves outside
  have next := OnlyArray.of_nextCmd (v.addAsync a w (drainOp w dst)) a
  obtain ⟨m, hist, c, arr⟩ := keeps
  have here := next.1
  rw [State.addAsync_arr, if_pos rfl] at here
  refine ⟨_, by rw [exec_drain, execDrain, State.isArray_of_atIssue h, unit_true, State.issue_atIssue h (by decide), issue],
    ?_, ?_, ?_, fun k apart => ?_, fun one apart => ?_, ?_⟩
  · rw [here, arr]
  · rw [here, arr]
  · rw [here, arr]
    rfl
  · rw [here]
    exact outside k apart
  · rw [one] at hv
    rw [hv] at single
    rw [here]
    exact single apart
  · have counted : Leaves [.arrays, .jobs, .outbox, .keptIrqs, .freeCtr] (drainRegs a) s v :=
      (frees.mono (by simp) fun _ _ no => no.elim).trans (leaves.mono (by simp) fun _ _ h => ⟨.inr h.1, h.2⟩)
    exact (Leaves.modArr counted).trans (next.2.2.2.2.mono (by simp) fun _ _ h => ⟨.inl h.1, h.2⟩)

end

end Sys2Proof.Machine
end

section
/-! PROOFS. XFER at issue, the hand-over to a ladle (R57, R61, R99, R132), and what O23 says. -/

set_option Elab.async false

namespace Sys2Proof.Machine

/-- The moves of a state, whatever ladles they hold. -/
def State.unladled (s : State) : List Move := s.mem.moves.map fun m => { m with ladle := false }

/-- Dealing ladles changes which moves and jobs hold one, and nothing else. -/
theorem State.dealLadles_keeps (s : State) : s.dealLadles.unladled = s.unladled ∧ Leaves [.moves, .jobs] noReg s s.dealLadles := by
  have give : ∀ (u : State) (m : Move), (u.giveLadle m).unladled = u.unladled ∧ Leaves [.moves, .jobs] noReg u (u.giveLadle m) := by
    intro u m
    unfold State.giveLadle
    split
    · refine ⟨?_, .modMove (.refl _ _ u)⟩
      unfold State.unladled State.modMove
      rw [List.map_map]
      refine List.map_congr_left fun x _ => ?_
      rw [Function.comp]
      split <;> rfl
    · exact ⟨rfl, .refl _ _ u⟩
  have gives : ∀ (u : State) (x : Job), (u.giveLadles x).unladled = u.unladled ∧ Leaves [.moves, .jobs] noReg u (u.giveLadles x) := by
    intro u x
    unfold State.giveLadles
    refine List.foldlRecOn (motive := fun v => v.unladled = u.unladled ∧ Leaves [.moves, .jobs] noReg u v) _ _
      ⟨rfl, .refl _ _ u⟩ fun v hv _ _ => ?_
    split
    · exact ⟨hv.1, .modJob hv.2⟩
    · exact hv
  unfold State.dealLadles
  dsimp only
  have start : s.unladled = s.unladled ∧ Leaves [.moves, .jobs] noReg s s := ⟨rfl, .refl _ _ s⟩
  refine List.foldlRecOn (motive := fun v => v.unladled = s.unladled ∧ Leaves [.moves, .jobs] noReg s v) _ _
    (List.foldlRecOn (motive := fun v => v.unladled = s.unladled ∧ Leaves [.moves, .jobs] noReg s v) _ _ start
      fun v hv m _ => ?_) fun v hv x _ => ?_
  · obtain ⟨same, leaves⟩ := give v m
    exact ⟨same.trans hv.1, hv.2.trans leaves⟩
  · obtain ⟨same, leaves⟩ := gives v x
    exact ⟨same.trans hv.1, hv.2.trans leaves⟩

/-- A move is queued behind the others, under the next number. -/
theorem State.addMove_moves (s : State) (m : Move) :
    (s.addMove m).unladled = s.unladled ++ [{ m with id := s.mem.nextMove, ladle := false }] := by
  rw [State.addMove, (State.dealLadles_keeps _).1, State.unladled, List.map_append]
  rfl

theorem Leaves.addMove {ps : List Part} {q : Reg → Nat → Prop} {b s : State} {m : Move} (h : Leaves ps q b s)
    (hm : .moves ∈ ps := by simp) (hn : .nextMove ∈ ps := by simp) (hj : .jobs ∈ ps := by simp) : Leaves ps q b (s.addMove m) := by
  have queued : Leaves [.moves, .nextMove] noReg s
      { s with mem.moves := s.mem.moves ++ [{ m with id := s.mem.nextMove, ladle := false }], mem.nextMove := s.mem.nextMove + 1 } :=
    .beside (.refl _ _ s)
  exact h.trans ((queued.mono (by simp [hm, hn]) fun _ _ no => no.elim).trans
    ((State.dealLadles_keeps _).2.mono (by simp [hm, hj]) fun _ _ no => no.elim))

section
variable (s : State) (a w : Nat) (r : RunJob)
/-- The offset of an XFER from its base (R55, R57). -/
def State.xferOff : Int := sint 48 (bits w 108 61) + 64 * s.loopInc a 35 20

/-- The bytes that an XFER moves. -/
def xferLen : Nat := (bits w 38 23 + 1) * 64

/-- The base of an XFER in the tile descriptor. -/
def RunJob.xferBase : Int :=
  match bits w 110 109 with
  | 0 => (tdAct r.desc : Int)
  | 1 => (tdWgt r.desc : Int)
  | _ => (tdOut r.desc : Int)

/-- The virtual address of an XFER. -/
def State.xferVa : Nat := ((r.xferBase w + s.xferOff a w) % (2 ^ 64 : Nat)).toNat

/-- An XFER of this execution is suppressed (R132, log entry 169). -/
def RunJob.xferSup : Bool :=
  match r.role with
  | .recast => bit w 111
  | .reexec _ => true
  | .testBar _ => true
  | _ => false

/-- The form of an XFER: of a CONV job a window (1) or a scatter (2). -/
def State.xferForm : Nat :=
  let isConv := (s.job r.job).any fun j => j.opcode == 2
  if isConv && !bit w 111 && bits w 110 109 == 0 then 1 else if isConv && bit w 111 && bits w 110 109 == 2 then 2 else 0

/-- The pixels of a scatter of the bytes `bs`. -/
def State.xferPixels (bs : List Byte) : List (Nat × List Byte) :=
  (List.range (tdMExt r.desc)).flatMap fun i =>
    scatPixel (((s.job r.job).map fun j => j.conv).getD fun _ => 0) r.desc (s.xferOff a w / 64).toNat bs i

/-- The ranges of memory that an XFER is to write (R36). -/
def State.xferDest (bs : List Byte) : List (Nat × Nat) :=
  if s.xferForm w r = 2 then (s.xferPixels a w r bs).map fun p => (p.1, p.2.length)
  else (s.xferVa a w r, xferLen w) :: if bits w 22 18 = 0 then [] else [(s.xferVa a w r + xferLen w, xferLen w / 128)]

/-- The outstanding command of an XFER at `maddr`. -/
def RunJob.xferOp (maddr : Nat) : AsyncOp :=
  { serial := 0, kind := .xfer, evt := none, lo := maddr, len := if bit w 111 || r.xferSup w then 0 else xferLen w,
    toMem := bit w 111, suppressed := r.xferSup w }

/-- What the array notes of an XFER of the bytes `bs`. -/
def State.xferNote (maddr : Nat) (bs : List Byte) (x : ArraySt) : ArraySt :=
  { x with
    outCrc := if bit w 111 then crc32Fold x.outCrc
        (if s.xferForm w r = 2 then (s.xferPixels a w r bs).flatMap fun p => p.2 else bs) else x.outCrc
    outs := if bit w 111 then x.outs ++ [{ va := s.xferVa a w r, maddr := maddr, len := xferLen w, key := bits w 22 18,
                                           form := s.xferForm w r, arg := (s.xferOff a w / 64).toNat }] else x.outs
    fills := if bit w 111 then x.fills else ((s.arr a).serial, maddr, xferLen w) :: x.fills }

/-- The move that carries an XFER out. -/
def State.xferMove (maddr : Nat) (bs : List Byte) (id label : Nat) : Move :=
  { id := id, kind := .pour a (s.arr a).serial, part := r.flask, inst := r.inst, label := label, toMem := bit w 111,
    va := s.xferVa a w r, maddr := maddr, len := xferLen w, key := bits w 22 18, form := s.xferForm w r,
    arg := (s.xferOff a w / 64).toNat, data := bs, job := r.job, tile := r.tile }

/-- The bytes that an XFER towards memory reads. -/
def State.xferRead (maddr : Nat) : List Byte × State := if bit w 111 then s.mouldRead a maddr (xferLen w) none else ([], s)

/-- An XFER is handed to a ladle, unless it is suppressed. -/
def State.xferHand (u : State) (maddr : Nat) (bs : List Byte) : State :=
  if r.xferSup w then u
  else (if bit w 111 then u.modJob r.job fun j => { j with outs := j.outs ++ s.xferDest a w r bs } else u).addMove
    (s.xferMove a w r maddr bs 0 (u.labelOf r.job))

/-- The operands of an XFER at `maddr` are in range, for the job `y`. -/
structure XferLegal (y : Job) (maddr : Nat) : Prop where
  addr : (maddr : Int) = (bits w 60 39 : Int) + 64 * s.loopInc a 35 20
  base : bits w 110 109 ≠ 3
  offset : bits w 108 61 % 64 = 0
  aligned : bits w 60 39 % 64 = 0
  range : maddr + xferLen w ≤ mouldTop
  window : y.opcode = 2 ∧ bit w 111 = false ∧ bits w 110 109 = 0 → winBytes y.conv r.desc = xferLen w ∧ 0 ≤ s.xferOff a w
  scatter : y.opcode = 2 ∧ bit w 111 = true ∧ bits w 110 109 = 2 → scatBytes y.conv r.desc = xferLen w ∧ 0 ≤ s.xferOff a w
  key : bits w 22 18 ≠ 0 → s.xferOff a w % 4096 = 0 ∧ maddr % 4096 = 0 ∧ xferLen w % 4096 = 0
    ∧ s.slotAllows r.flask (bits w 22 18) (if bit w 111 then 2 else 0) = true

theorem State.xferForm_eq {y : Job} (hy : s.job r.job = some y) : s.xferForm w r
    = if y.opcode = 2 ∧ bit w 111 = false ∧ bits w 110 109 = 0 then 1
      else if y.opcode = 2 ∧ bit w 111 = true ∧ bits w 110 109 = 2 then 2 else 0 := by
  unfold State.xferForm
  rw [hy]
  simp only [Option.any_some, Bool.and_eq_true, Bool.not_eq_true', beq_iff_eq, and_assoc]

/-- What an XFER with its operands in range does. -/
theorem State.issueXfer_legal {y : Job} (maddr : Nat) (job : (s.arr a).job = some r) (hy : s.job r.job = some y)
    (ok : XferLegal s a w r y maddr) : s.issueXfer a w
    = if 8 ≤ ((s.arr a).async.filter fun o => o.kind == .xfer).length then s
      else (s.xferHand a w r (((s.xferRead a w maddr).2.addAsync a w (r.xferOp w maddr)).modArr a
        (s.xferNote a w r maddr (s.xferRead a w maddr).1)) maddr (s.xferRead a w maddr).1).nextCmd a := by
  obtain ⟨addr, base, offset, aligned, range, window, scatter, key⟩ := ok
  have back : ((bits w 60 39 : Int) + 64 * s.loopInc a 35 20).toNat = maddr := by omega
  have form := s.xferForm_eq w r hy
  unfold State.issueXfer
  dsimp only
  rw [job]
  dsimp only
  rw [if_neg, back]
  · rfl
  · have block := inMould_nat _ maddr (xferLen w) addr range
    have windowOk : (s.xferForm w r == 1 && (winBytes y.conv r.desc != xferLen w || decide (s.xferOff a w < 0))) = false := by
      by_cases one : y.opcode = 2 ∧ bit w 111 = false ∧ bits w 110 109 = 0
      · obtain ⟨bytes, low⟩ := window one
        rw [bytes, bne_self_eq_false, Bool.false_or, decide_eq_false (by omega), Bool.and_false]
      · have other : s.xferForm w r ≠ 1 := by
          rw [form, if_neg one]
          split <;> decide
        rw [beq_false_of_ne other, Bool.false_and]
    have scatterOk : (s.xferForm w r == 2 && (scatBytes y.conv r.desc != xferLen w || decide (s.xferOff a w < 0))) = false := by
      by_cases two : y.opcode = 2 ∧ bit w 111 = true ∧ bits w 110 109 = 2
      · obtain ⟨bytes, low⟩ := scatter two
        rw [bytes, bne_self_eq_false, Bool.false_or, decide_eq_false (by omega), Bool.and_false]
      · have other : s.xferForm w r ≠ 2 := by
          rw [form, if_neg two]
          split <;> decide
        rw [beq_false_of_ne other, Bool.false_and]
    have keyOk : (bits w 22 18 != 0 && (s.xferOff a w % 4096 != 0 || ((bits w 60 39 : Int) + 64 * s.loopInc a 35 20) % 4096 != 0
        || xferLen w % 4096 != 0 || !s.slotAllows r.flask (bits w 22 18) (if bit w 111 then 2 else 0))) = false := by
      by_cases none : bits w 22 18 = 0
      · rw [none]
        rfl
      · obtain ⟨off, at', len, allows⟩ := key none
        have whole : ((bits w 60 39 : Int) + 64 * s.loopInc a 35 20) % 4096 = 0 := by omega
        rw [off, whole, len, allows]
        simp
    have cv : ((s.job r.job).map fun j => j.conv).getD (fun _ => 0) = y.conv := by rw [hy]; rfl
    rw [cv]
    rw [xferLen] at block windowOk scatterOk keyOk
    rw [State.xferOff] at windowOk scatterOk keyOk
    rw [State.xferForm] at windowOk scatterOk
    rw [windowOk, scatterOk, keyOk, block, offset, aligned, beq_false_of_ne base]
    decide

theorem State.xferRead_keeps (maddr : Nat) : (∀ b, (s.xferRead a w maddr).2.arr b = s.arr b)
    ∧ Leaves [.freeCtr] noReg s (s.xferRead a w maddr).2
    ∧ (bit w 111 = true → (s.arr a).async = [] → (s.xferRead a w maddr).1 = (s.arr a).bytes maddr (xferLen w)) := by
  unfold State.xferRead
  split
  · refine ⟨s.mouldRead_arr a maddr (xferLen w) none, .mouldRead (.refl _ _ s), fun _ idle => ?_⟩
    exact (s.mouldRead_clean a maddr (xferLen w) fun k => by rw [ArraySt.hazard, idle]; rfl).1
  · exact ⟨fun _ => rfl, .refl _ _ s, fun on => absurd on ‹_›⟩

/-- An XFER that is noted: what its array comes to hold. -/
def State.xferNoted (maddr : Nat) : State :=
  ((s.xferRead a w maddr).2.addAsync a w (r.xferOp w maddr)).modArr a (s.xferNote a w r maddr (s.xferRead a w maddr).1)

theorem State.xferNoted_arr (maddr : Nat) : (s.xferNoted a w r maddr).arr a = s.xferNote a w r maddr (s.xferRead a w maddr).1
    { s.arr a with async := (s.arr a).async ++ [(s.arr a).asyncOf w (r.xferOp w maddr)], serial := (s.arr a).serial + 1 } := by
  rw [State.xferNoted, State.modArr_arr, if_pos rfl, State.addAsync_arr, if_pos rfl, (s.xferRead_keeps a w maddr).1]

theorem State.leaves_xferNoted (maddr : Nat) : Leaves [.arrays, .freeCtr] noReg s (s.xferNoted a w r maddr) :=
  .modArr (.modArr ((s.xferRead_keeps a w maddr).2.1.mono (by simp) fun _ _ no => no))

theorem State.leaves_xferHand {ps : List Part} {q : Reg → Nat → Prop} {b u : State} (maddr : Nat) (bs : List Byte) (h : Leaves ps q b u)
    (hm : .moves ∈ ps := by simp) (hn : .nextMove ∈ ps := by simp) (hj : .jobs ∈ ps := by simp) :
    Leaves ps q b (s.xferHand a w r u maddr bs) := by
  unfold State.xferHand
  split
  · exact h
  · exact .addMove (.ite (.modJob h hj) h) hm hn hj

/-- An XFER that is not suppressed is the last of the moves. -/
theorem State.xferHand_moves (u : State) (maddr : Nat) (bs : List Byte) (go : r.xferSup w = false) :
    ∃ label, (s.xferHand a w r u maddr bs).unladled = u.unladled ++ [s.xferMove a w r maddr bs u.mem.nextMove label] := by
  rw [State.xferHand, go, if_neg (by decide)]
  refine ⟨u.labelOf r.job, (State.addMove_moves _ _).trans ?_⟩
  split <;> rfl

theorem State.unladled_same {s t : State} (h : t.mem.moves = s.mem.moves) : t.unladled = s.unladled := by
  rw [State.unladled, State.unladled, h]

theorem xfer_hands_on {y : Job} (maddr : Nat) (h : s.atIssue a 0x08 17 true w) (job : (s.arr a).job = some r)
    (hy : s.job r.job = some y) (ok : XferLegal s a w r y maddr)
    (room : ((s.arr a).async.filter fun o => o.kind == .xfer).length < 8) :
    ∃ t, exec (.xfer a) s = .next t
      ∧ t.arr a = { (s.xferNoted a w r maddr).arr a with pc := (s.arr a).pc + 1 }
      ∧ (r.xferSup w = true → t.mem.moves = s.mem.moves ∧ t.work.jobs = s.work.jobs)
      ∧ (r.xferSup w = false → ∃ label, t.unladled
        = s.unladled ++ [s.xferMove a w r maddr (s.xferRead a w maddr).1 s.mem.nextMove label])
      ∧ Leaves [.arrays, .jobs, .moves, .nextMove, .freeCtr] (oneReg .arrStatus a) s t := by
  have noted := s.leaves_xferNoted a w r maddr
  have arr : (s.xferHand a w r (s.xferNoted a w r maddr) maddr (s.xferRead a w maddr).1).arr a
      = (s.xferNoted a w r maddr).arr a :=
    (s.leaves_xferHand a w r (ps := [.moves, .nextMove, .jobs]) (q := noReg) maddr (s.xferRead a w maddr).1
      (.refl _ _ (s.xferNoted a w r maddr))).arr_same (by simp) a
  have all : Leaves [.arrays, .jobs, .moves, .nextMove, .freeCtr] (oneReg .arrStatus a) s
      (s.xferHand a w r (s.xferNoted a w r maddr) maddr (s.xferRead a w maddr).1) :=
    s.leaves_xferHand a w r maddr _ (noted.mono (by simp) fun _ _ no => no.elim)
  have next := OnlyArray.of_nextCmd (s.xferHand a w r (s.xferNoted a w r maddr) maddr (s.xferRead a w maddr).1) a
  have calm := next.2.2.2.2
  refine ⟨_, ?_, ?_, fun sup => ?_, fun go => ?_, all.trans (calm.mono (by simp) fun _ _ h => h)⟩
  · rw [exec_xfer, execXfer, State.isArray_of_atIssue h, unit_true, State.issue_atIssue h (by decide),
      s.issueXfer_legal a w r maddr job hy ok, if_neg (by omega)]
    rfl
  · rw [next.1, arr, State.xferNoted_arr]
    rfl
  · have same := calm.1
    rw [State.xferHand, sup, if_pos rfl] at same
    rw [State.xferHand, sup, if_pos rfl]
    exact ⟨(same .moves (by simp)).trans (noted.1 .moves (by simp)), (same .jobs (by simp)).trans (noted.1 .jobs (by simp))⟩
  · obtain ⟨label, moves⟩ := s.xferHand_moves a w r (s.xferNoted a w r maddr) maddr (s.xferRead a w maddr).1 go
    have number : (s.xferNoted a w r maddr).mem.nextMove = s.mem.nextMove := noted.1 .nextMove (by simp)
    rw [number, State.unladled_same (noted.1 .moves (by simp))] at moves
    exact ⟨label, (State.unladled_same (calm.1 .moves (by simp))).trans moves⟩

end

theorem xfer_holds_issue (s : State) (a w : Nat) (r : RunJob) {y : Job} (maddr : Nat) (h : s.atIssue a 0x08 17 true w)
    (job : (s.arr a).job = some r) (hy : s.job r.job = some y) (ok : XferLegal s a w r y maddr)
    (full : 8 ≤ ((s.arr a).async.filter fun o => o.kind == .xfer).length) : exec (.xfer a) s = .next s := by
  rw [exec_xfer, execXfer, State.isArray_of_atIssue h, unit_true, State.issue_atIssue h (by decide),
    s.issueXfer_legal a w r maddr job hy ok, if_pos full]

/-- Settles O23: a plain DRAIN writes row by row into its ranges alone; an XFER is noted by its array and, unless its
execution suppresses it, queued behind the other moves. -/
theorem drainsStoreAndTransfersAreHandedOn : Obligations.DrainsStoreAndTransfersAreHandedOn := by
  refine ⟨fun s a w h clean plain dst dest fmt stride aligned rows scales data => ?_,
    fun s a w r y h job hy maddr addr base offset aligned range window scatter key => ?_⟩
  · obtain ⟨t, run, pc, accum, async, outside, single, leaves⟩ := drain_stores s a w dst h clean
      ⟨plain, dest, fmt, stride, aligned, rows, scales, data⟩
    exact ⟨t, run, pc, accum, async, outside, single, leaves⟩
  · have ok : XferLegal s a w r y maddr := ⟨addr, base, offset, aligned, range, window, scatter, key⟩
    refine ⟨xfer_holds_issue s a w r maddr h job hy ok, fun room => ?_⟩
    obtain ⟨t, run, arr, still, handed, leaves⟩ := xfer_hands_on s a w r maddr h job hy ok room
    rw [State.xferNoted_arr] at arr
    have bytes := (s.xferRead_keeps a w maddr).2.2
    refine ⟨t, run, ?_, ?_, ?_, still, fun go => ?_, fun dir idle plain => ?_, fun dir => ⟨?_, ?_⟩, leaves⟩
    · rw [arr]
    · rw [arr]
      rfl
    · rw [arr]
      rfl
    · obtain ⟨label, moves⟩ := handed go
      exact ⟨_, moves, rfl, rfl, rfl, rfl, rfl, rfl, rfl, rfl, rfl, rfl, bytes⟩
    · have form : s.xferForm w r ≠ 2 := by
        rw [s.xferForm_eq w r hy, if_neg (by simp [dir])]
        rw [if_neg plain]
        decide
      rw [arr, State.xferNote, if_neg form, bytes dir idle]
      exact if_pos dir
    · rw [arr, State.xferNote, dir]
      rfl
    · rw [arr, State.xferNote, dir]
      rfl

end Sys2Proof.Machine
end

section
/-! PROOFS. Job boundaries of an array (R59, R375): the NEXT program is taken, or the array is idle. -/

set_option Elab.async false

namespace Sys2Proof.Machine

section
variable (s : State) (a : Nat)

theorem State.showPc_f (x : Fld) (i : Nat) (h : ARR_STATUS.PC.apart x) : (s.showPc a).f x i = s.f x i :=
  State.setF_f_apart _ _ _ _ _ _ (by decide) h

/-- The job that a NEXT program runs under. -/
def State.nextRun : Option RunJob := ((s.arr a).nextJob.orElse fun _ => (s.arr a).job).map fun r => { r with startNs := s.now }

/-- The registers of an array that a job boundary moves. -/
abbrev progRegs : Reg → Nat → Prop := fun g i => (g = .arrProg ∨ g = .arrStatus) ∧ i = a

/-- R59: at a job boundary a valid NEXT program becomes the current one. -/
theorem State.takeProgram_next (valid : s.fb ARR_PROG.NEXT_VALID a = true) :
    (s.takeProgram a).fb ARR_PROG.NEXT_VALID a = false ∧ (s.takeProgram a).fb ARR_PROG.CUR_VALID a = true
      ∧ (s.takeProgram a).f ARR_PROG.CUR_HALF a = s.f ARR_PROG.NEXT_HALF a
      ∧ (s.takeProgram a).f ARR_PROG.CUR_LEN a = s.f ARR_PROG.NEXT_LEN a
      ∧ (s.takeProgram a).f ARR_STATUS.STATE a = (if (s.nextRun a).isSome then 1 else 0)
      ∧ (∀ b, (s.takeProgram a).arr b
        = if b = a then { (s.arr a).fresh with job := s.nextRun a, nextJob := none } else s.arr b)
      ∧ Leaves [.arrays] (progRegs a) s (s.takeProgram a) := by
  have half : s.f ARR_PROG.NEXT_HALF a < 2 ^ 1 := s.f_lt ARR_PROG.NEXT_HALF a
  have len : s.f ARR_PROG.NEXT_LEN a < 2 ^ 12 := s.f_lt ARR_PROG.NEXT_LEN a
  have unfolded : s.takeProgram a = ((((((s.setF ARR_PROG.CUR_HALF a (s.f ARR_PROG.NEXT_HALF a)).setF ARR_PROG.CUR_LEN a
      (s.f ARR_PROG.NEXT_LEN a)).setF ARR_PROG.CUR_VALID a 1).setF ARR_PROG.NEXT_VALID a 0).setArr a
      { (s.arr a).fresh with job := s.nextRun a, nextJob := none }).setF ARR_STATUS.STATE a
        (if (s.nextRun a).isSome then 1 else 0)).showPc a := by
    unfold State.takeProgram
    rw [if_pos valid]
    rfl
  rw [unfolded]
  refine ⟨?_, ?_, ?_, ?_, ?_, fun b => ?_, ?_⟩
  · rw [State.fb_eq, State.showPc_f _ _ _ _ (by decide), State.setF_f_apart _ _ _ _ _ _ (by decide) (by decide), State.setArr_f,
      State.setF_f_same _ _ _ _ (by decide), Nat.zero_mod]
    rfl
  · rw [State.fb_eq, State.showPc_f _ _ _ _ (by decide), State.setF_f_apart _ _ _ _ _ _ (by decide) (by decide), State.setArr_f,
      State.setF_f_apart _ _ _ _ _ _ (by decide) (by decide), State.setF_f_width _ _ _ _ 1 (by decide) rfl]
    rfl
  · rw [State.showPc_f _ _ _ _ (by decide), State.setF_f_apart _ _ _ _ _ _ (by decide) (by decide), State.setArr_f,
      State.setF_f_apart _ _ _ _ _ _ (by decide) (by decide), State.setF_f_apart _ _ _ _ _ _ (by decide) (by decide),
      State.setF_f_apart _ _ _ _ _ _ (by decide) (by decide), State.setF_f_width _ _ _ _ 1 (by decide) rfl,
      Nat.mod_eq_of_lt half]
  · rw [State.showPc_f _ _ _ _ (by decide), State.setF_f_apart _ _ _ _ _ _ (by decide) (by decide), State.setArr_f,
      State.setF_f_apart _ _ _ _ _ _ (by decide) (by decide), State.setF_f_apart _ _ _ _ _ _ (by decide) (by decide),
      State.setF_f_width _ _ _ _ 12 (by decide) rfl, Nat.mod_eq_of_lt len]
  · rw [State.showPc_f _ _ _ _ (by decide), State.setF_f_width _ _ _ _ 4 (by decide) rfl]
    split <;> rfl
  · rw [State.showPc, State.setF_arr, State.setF_arr, State.setArr_arr, State.setF_arr, State.setF_arr, State.setF_arr,
      State.setF_arr]
  · exact .setF (.setF (.setArr (.setF (.setF (.setF (.setF (.refl _ _ s) ⟨.inl rfl, rfl⟩) ⟨.inl rfl, rfl⟩) ⟨.inl rfl, rfl⟩)
      ⟨.inl rfl, rfl⟩)) ⟨.inr rfl, rfl⟩) ⟨.inr rfl, rfl⟩

/-- R375: without one it is idle. -/
theorem State.takeProgram_idle (none : s.fb ARR_PROG.NEXT_VALID a = false) :
    (s.takeProgram a).fb ARR_PROG.CUR_VALID a = false ∧ (s.takeProgram a).f ARR_STATUS.STATE a = 0
      ∧ (∀ b, (s.takeProgram a).arr b = if b = a then { (s.arr a).fresh with job := Option.none } else s.arr b)
      ∧ Leaves [.arrays] (progRegs a) s (s.takeProgram a) := by
  have unfolded : s.takeProgram a
      = ((s.setF ARR_PROG.CUR_VALID a 0).setArr a { (s.arr a).fresh with job := Option.none }).setF ARR_STATUS.STATE a 0 := by
    unfold State.takeProgram
    rw [if_neg (by rw [none]; decide)]
  rw [unfolded]
  refine ⟨?_, ?_, fun b => ?_, ?_⟩
  · rw [State.fb_eq, State.setF_f_apart _ _ _ _ _ _ (by decide) (by decide), State.setArr_f,
      State.setF_f_same _ _ _ _ (by decide), Nat.zero_mod]
    rfl
  · rw [State.setF_f_same _ _ _ _ (by decide), Nat.zero_mod]
  · rw [State.setF_arr, State.setArr_arr, State.setF_arr]
  · exact .setF (.setArr (.setF (.refl _ _ s) ⟨.inl rfl, rfl⟩)) ⟨.inr rfl, rfl⟩

end

end Sys2Proof.Machine
end

section
/-! PROOFS. Tiles are given to arrays, and their programs are loaded (R59, R64, R178). -/

set_option Elab.async false

namespace Sys2Proof.Machine

/-- Commands stored from index `i` stand there. -/
theorem putStore_get (m : NMap Nat) (i : Nat) (ws : List Nat) (k : Nat) :
    NMap.get (putStore m i ws) 0 k = if i ≤ k ∧ k < i + ws.length then ws.getD (k - i) 0 else NMap.get m 0 k := by
  induction ws generalizing m i with
  | nil =>
    rw [putStore, if_neg]
    rw [List.length_nil]
    omega
  | cons w ws ih =>
    rw [putStore, ih, NMap.get_set, List.length_cons]
    by_cases here : k = i
    · subst here
      rw [if_neg (by omega), if_pos rfl, if_pos (by omega), Nat.sub_self, List.getD_cons_zero]
    · by_cases inside : i + 1 ≤ k ∧ k < i + 1 + ws.length
      · rw [if_pos inside, if_pos (by omega), (by omega : k - i = (k - (i + 1)) + 1), List.getD_cons_succ]
      · rw [if_neg inside, if_neg here, if_neg (by omega)]

theorem pieces_getElem? {α : Type} (n fuel k : Nat) (xs : List α) (inside : n * k < xs.length) (hf : k < fuel) :
    (pieces n fuel xs)[k]? = some ((xs.drop (n * k)).take n) := by
  induction k generalizing xs fuel with
  | zero =>
    obtain _ | fuel := fuel
    · omega
    cases xs with
    | nil => simp at inside
    | cons x xs => rfl
  | succ k ih =>
    obtain _ | fuel := fuel
    · omega
    have more : xs.isEmpty = false := by
      cases xs with
      | nil => simp at inside
      | cons x xs => rfl
    rw [Nat.mul_succ] at inside
    rw [pieces, more, if_neg (by decide), List.getElem?_cons_succ,
      ih fuel (xs.drop n) (by rw [List.length_drop]; omega) (by omega), List.drop_drop, Nat.mul_succ, Nat.add_comm]

/-- R59: command `k` of an image is its sixteen bytes from `16 × k`. -/
theorem programWords_getElem? (bs : List Byte) (k : Nat) (h : k < bs.length / 16) :
    (programWords bs)[k]? = some (leAt bs (16 * k) 16) := by
  rw [programWords, List.getElem?_map, pieces_getElem? 16 _ k bs (by omega) (by omega)]
  rfl

theorem putStore_program (m : NMap Nat) (i : Nat) (bs : List Byte) (k : Nat) (h : k < bs.length / 16) :
    NMap.get (putStore m i (programWords bs)) 0 (i + k) = leAt bs (16 * k) 16 := by
  have word := programWords_getElem? bs k h
  obtain ⟨inside, -⟩ := List.getElem?_eq_some_iff.mp word
  rw [putStore_get, if_pos (by omega), Nat.add_sub_cancel_left, List.getD_eq_getElem?_getD, word]
  rfl

section
variable (s : State) (a : Nat)

/-- The run that a tile of a queue becomes on an array. -/
def State.tileRun (f : Nat) (q : TileQ) (x : Job) (lent : Bool) : RunJob :=
  { job := q.job, tile := q.tile, desc := x.tiles.getD q.tile [], role := .single, startNs := s.now, flask := f,
    inst := x.inst, lent := lent }

/-- R64: a tile that is given to an array leaves its flask's queue. -/
theorem State.giveTile_gives (f : Nat) (q : TileQ) (x : Job) (lent : Bool) (hx : s.job q.job = some x) :
    (∀ b, (s.giveTile a f q lent).arr b = if b = a then { s.arr a with nextJob := some (s.tileRun f q x lent) } else s.arr b)
      ∧ (∀ y, y ∈ ((s.giveTile a f q lent).flask f).tiles ↔ y ∈ (s.flask f).tiles ∧ ¬ (y.job = q.job ∧ y.tile = q.tile))
      ∧ Leaves [.arrays, .flasks] noReg s (s.giveTile a f q lent) := by
  unfold State.giveTile
  rw [hx]
  refine ⟨fun b => ?_, fun y => ?_, .modArr (.modFlask (.refl _ _ s))⟩
  · dsimp only
    rw [State.modArr_arr]
    rfl
  · dsimp only
    rw [State.modArr_flask, State.modFlask_flask, if_pos rfl]
    simp only [List.mem_filter, Bool.not_eq_true', Bool.and_eq_false_iff, beq_eq_false_iff_ne, ne_eq, not_and_or]

end

/-- The image of a tile's program in the half that CUR_HALF does not name, marked valid (R59). -/
def State.placeProgram (s : State) (a : Nat) (bs : List Byte) (len : Nat) : State :=
  (((s.modArr a fun x => { x with store := putStore x.store (2048 * (1 - s.f ARR_PROG.CUR_HALF a)) (programWords bs) }).setF
    ARR_PROG.NEXT_HALF a (1 - s.f ARR_PROG.CUR_HALF a)).setF ARR_PROG.NEXT_LEN a (len / 16)).setF ARR_PROG.NEXT_VALID a 1

section
variable (s : State) (a : Nat) (bs : List Byte) (len : Nat)

theorem State.placeProgram_places :
    (s.placeProgram a bs len).fb ARR_PROG.NEXT_VALID a = true
      ∧ (s.placeProgram a bs len).f ARR_PROG.NEXT_HALF a = 1 - s.f ARR_PROG.CUR_HALF a
      ∧ (s.placeProgram a bs len).f ARR_PROG.NEXT_LEN a = len / 16 % 4096
      ∧ (s.placeProgram a bs len).f ARR_STATUS.STATE a = s.f ARR_STATUS.STATE a
      ∧ (∀ b, (s.placeProgram a bs len).arr b = if b = a then { s.arr a with
          store := putStore (s.arr a).store (2048 * (1 - s.f ARR_PROG.CUR_HALF a)) (programWords bs) } else s.arr b)
      ∧ Leaves [.arrays] (oneReg .arrProg a) s (s.placeProgram a bs len) := by
  unfold State.placeProgram
  refine ⟨?_, ?_, ?_, ?_, fun b => ?_, ?_⟩
  · rw [State.fb_eq, State.setF_f_width _ _ _ _ 1 (by decide) rfl]
    rfl
  · rw [State.setF_f_apart _ _ _ _ _ _ (by decide) (by decide), State.setF_f_apart _ _ _ _ _ _ (by decide) (by decide),
      State.setF_f_width _ _ _ _ 1 (by decide) rfl, Nat.mod_eq_of_lt (by omega)]
  · rw [State.setF_f_apart _ _ _ _ _ _ (by decide) (by decide), State.setF_f_width _ _ _ _ 12 (by decide) rfl,
      (by decide : 2 ^ 12 = 4096)]
  · rw [State.setF_f_apart _ _ _ _ _ _ (by decide) (by decide), State.setF_f_apart _ _ _ _ _ _ (by decide) (by decide),
      State.setF_f_apart _ _ _ _ _ _ (by decide) (by decide), State.modArr_f]
  · rw [State.setF_arr, State.setF_arr, State.setF_arr, State.modArr_arr]
  · exact .setF (.setF (.setF (.modArr (.refl _ _ s)) ⟨rfl, rfl⟩) ⟨rfl, rfl⟩) ⟨rfl, rfl⟩

/-- What a load leads to once the image is read. -/
theorem State.loadProgram_reads (s1 : State) (r : RunJob) (next : (s.arr a).nextJob = some r)
    (free : s.fb ARR_PROG.NEXT_VALID a = false) (serves : s.arrServing a = true)
    (read : instRead s r.inst (tdProg r.desc) (tdProgLen r.desc) = (.ok bs, s1)) : s.loadProgram a
    = if (s1.placeProgram a bs (tdProgLen r.desc)).f ARR_STATUS.STATE a = 0
          && ((s1.placeProgram a bs (tdProgLen r.desc)).arr a).job.isNone
          && !((s1.placeProgram a bs (tdProgLen r.desc)).arr a).testBarDue
      then (s1.placeProgram a bs (tdProgLen r.desc)).takeProgram a else s1.placeProgram a bs (tdProgLen r.desc) := by
  unfold State.loadProgram
  rw [next]
  dsimp only
  rw [free, serves, if_neg (by decide), read]
  rfl

end

theorem State.isArray_of_lt {a : Nat} (h : a < 34) : isArray a = true := decide_eq_true h

theorem tileDispatch_gives (s : State) (a : Nat) (q : TileQ) (ha : a < 34) (free : s.arrFree a = true)
    (owned : s.f ARR_STATUS.FLASK a ≠ 15) (untimed : s.timed (s.f ARR_STATUS.FLASK a) = false)
    (first : s.firstTile (s.f ARR_STATUS.FLASK a) (s.f ARR_STATUS.LOGICAL a) false = some q) :
    exec (.tileDispatch a) s = .next (s.giveTile a (s.f ARR_STATUS.FLASK a) q false) := by
  rw [exec_tileDispatch, execTileDispatch, State.isArray_of_lt ha, unit_true, State.dispatchTile, free]
  dsimp only
  rw [if_neg (by decide), if_neg owned, untimed, if_neg (by decide), first]

theorem tileDispatch_lends (s : State) (a g ns : Nat) (q : TileQ) (ha : a < 34) (free : s.arrFree a = true)
    (lent : s.f ARR_STATUS.FLASK a = 15) (slice : (s.arr a).slice = some (g, ns)) (first : s.firstTile g 0xFF true = some q) :
    exec (.tileDispatch a) s = .next (s.giveTile a g q true) := by
  rw [exec_tileDispatch, execTileDispatch, State.isArray_of_lt ha, unit_true, State.dispatchTile, free]
  dsimp only
  rw [if_neg (by decide), if_pos lent, slice]
  dsimp only
  rw [first]

/-- What a PROGRAM_LOAD leaves of the registers. -/
abbrev loadRegs (a : Nat) : Reg → Nat → Prop := fun g i => accessRegs g i ∨ ((g = .arrProg ∨ g = .arrStatus) ∧ i = a)

section
variable {s s1 : State} {a : Nat} {r : RunJob} {bs : List Byte}

/-- From `s` to `u` the image `bs` has been placed in the half of array `a` that is not current, and marked valid. -/
structure Placed (s : State) (a : Nat) (bs : List Byte) (u : State) : Prop where
  valid : u.fb ARR_PROG.NEXT_VALID a = true
  half : u.f ARR_PROG.NEXT_HALF a = 1 - s.f ARR_PROG.CUR_HALF a
  len : u.f ARR_PROG.NEXT_LEN a = bs.length / 16 % 4096
  state : u.f ARR_STATUS.STATE a = s.f ARR_STATUS.STATE a
  store : ∀ k < bs.length / 16, NMap.get (u.arr a).store 0 (2048 * (1 - s.f ARR_PROG.CUR_HALF a) + k) = leAt bs (16 * k) 16
  run : (u.arr a).job = (s.arr a).job ∧ (u.arr a).nextJob = (s.arr a).nextJob ∧ (u.arr a).testBarDue = (s.arr a).testBarDue
  others : ∀ b, b ≠ a → u.arr b = s.arr b
  now : u.now = s.now
  leaves : Leaves (.arrays :: accessParts) (loadRegs a) s u

theorem Placed.of_read (read : instRead s r.inst (tdProg r.desc) (tdProgLen r.desc) = (.ok bs, s1))
    (len : bs.length = tdProgLen r.desc) : Placed s a bs (s1.placeProgram a bs (tdProgLen r.desc)) := by
  have accessed : Accessed s s1 := Leaves.of_eq read (accessed_instRead s _ _ _)
  have arrays := fun b => accessed.arr_same (by simp [accessParts]) b
  have half : s1.f ARR_PROG.CUR_HALF a = s.f ARR_PROG.CUR_HALF a :=
    accessed.f_same ARR_PROG.CUR_HALF a (by simp [accessRegs, ARR_PROG.CUR_HALF])
  have state1 : s1.f ARR_STATUS.STATE a = s.f ARR_STATUS.STATE a :=
    accessed.f_same ARR_STATUS.STATE a (by simp [accessRegs, ARR_STATUS.STATE])
  have clock : s1.now = s.now := by rw [State.now, State.now, accessed.1 .clock (by simp [accessParts])]
  obtain ⟨valid, nextHalf, nextLen, state, arr, leaves⟩ := s1.placeProgram_places a bs (tdProgLen r.desc)
  have here := arr a
  rw [if_pos rfl, half, arrays] at here
  refine ⟨valid, nextHalf.trans (by rw [half]), nextLen.trans (by rw [len]), state.trans state1, fun k hk => ?_,
    by rw [here]; exact ⟨rfl, rfl, rfl⟩, fun b hb => by rw [arr b, if_neg hb, arrays], ?_, ?_⟩
  · rw [here]
    exact putStore_program _ _ bs k hk
  · rw [← clock, State.now, State.now, leaves.1 .clock (by simp)]
  · exact (accessed.mono (List.subset_cons_self Part.arrays _) fun _ _ h => .inl h).trans
      (leaves.mono (by simp) fun _ _ h => .inr ⟨.inl h.1, h.2⟩)

/-- An idle array takes the program that has been placed. -/
theorem Placed.taken {u : State} (h : Placed s a bs u) (next : (s.arr a).nextJob = some r) :
    (∀ k < bs.length / 16,
        NMap.get ((u.takeProgram a).arr a).store 0 (2048 * (1 - s.f ARR_PROG.CUR_HALF a) + k) = leAt bs (16 * k) 16)
      ∧ ((u.takeProgram a).fb ARR_PROG.NEXT_VALID a = false ∧ (u.takeProgram a).fb ARR_PROG.CUR_VALID a = true
          ∧ (u.takeProgram a).f ARR_PROG.CUR_HALF a = 1 - s.f ARR_PROG.CUR_HALF a
          ∧ (u.takeProgram a).f ARR_PROG.CUR_LEN a = bs.length / 16 % 4096 ∧ (u.takeProgram a).f ARR_STATUS.STATE a = 1
          ∧ ((u.takeProgram a).arr a).job = some { r with startNs := s.now } ∧ ((u.takeProgram a).arr a).pc = 0
          ∧ ((u.takeProgram a).arr a).nextJob = none)
      ∧ (∀ b, b ≠ a → (u.takeProgram a).arr b = s.arr b)
      ∧ Leaves (.arrays :: accessParts) (loadRegs a) s (u.takeProgram a) := by
  obtain ⟨taken, cur, curHalf, curLen, running, fresh, boundary⟩ := u.takeProgram_next a h.valid
  have rj : u.nextRun a = some { r with startNs := s.now } := by
    rw [State.nextRun, h.run.2.1, next, h.now]
    rfl
  have here := fresh a
  rw [if_pos rfl, rj] at here
  rw [rj] at running
  rw [here]
  exact ⟨h.store, ⟨taken, cur, curHalf.trans h.half, curLen.trans h.len, running, rfl, rfl, rfl⟩,
    fun b hb => by rw [fresh b, if_neg hb, h.others b hb], h.leaves.trans (boundary.mono (by simp) fun _ _ h => .inr h)⟩

/-- The image stands in its half, whether or not the array takes it at once. -/
theorem programLoad_loads (ha : a < 34) (next : (s.arr a).nextJob = some r) (free : s.fb ARR_PROG.NEXT_VALID a = false)
    (serves : s.arrServing a = true) (read : instRead s r.inst (tdProg r.desc) (tdProgLen r.desc) = (.ok bs, s1))
    (len : bs.length = tdProgLen r.desc) :
    ∃ t, exec (.programLoad a) s = .next t
      ∧ (∀ k < bs.length / 16,
          NMap.get (t.arr a).store 0 (2048 * (1 - s.f ARR_PROG.CUR_HALF a) + k) = leAt bs (16 * k) 16)
      ∧ ((s.f ARR_STATUS.STATE a ≠ 0 ∨ (s.arr a).job ≠ none) → t.fb ARR_PROG.NEXT_VALID a = true
          ∧ t.f ARR_PROG.NEXT_HALF a = 1 - s.f ARR_PROG.CUR_HALF a
          ∧ t.f ARR_PROG.NEXT_LEN a = bs.length / 16 % 4096 ∧ (t.arr a).job = (s.arr a).job)
      ∧ (s.f ARR_STATUS.STATE a = 0 → (s.arr a).job = none → (s.arr a).testBarDue = false →
          t.fb ARR_PROG.NEXT_VALID a = false ∧ t.fb ARR_PROG.CUR_VALID a = true
          ∧ t.f ARR_PROG.CUR_HALF a = 1 - s.f ARR_PROG.CUR_HALF a
          ∧ t.f ARR_PROG.CUR_LEN a = bs.length / 16 % 4096 ∧ t.f ARR_STATUS.STATE a = 1
          ∧ (t.arr a).job = some { r with startNs := s.now } ∧ (t.arr a).pc = 0 ∧ (t.arr a).nextJob = none)
      ∧ (∀ b, b ≠ a → t.arr b = s.arr b)
      ∧ Leaves (.arrays :: accessParts) (loadRegs a) s t := by
  have placed : Placed s a bs (s1.placeProgram a bs (tdProgLen r.desc)) := .of_read read len
  have loaded := s.loadProgram_reads a bs s1 r next free serves read
  have run : exec (.programLoad a) s = .next (s.loadProgram a) := by
    rw [exec_programLoad, execProgramLoad, State.isArray_of_lt ha, unit_true]
  generalize s1.placeProgram a bs (tdProgLen r.desc) = u at placed loaded
  rw [placed.state, placed.run.1, placed.run.2.2] at loaded
  by_cases idle : s.f ARR_STATUS.STATE a = 0 ∧ (s.arr a).job = none ∧ (s.arr a).testBarDue = false
  · obtain ⟨free0, nojob, nobar⟩ := idle
    rw [free0, nojob, nobar, if_pos (by rfl)] at loaded
    obtain ⟨store, taken, others, leaves⟩ := placed.taken next
    rw [← loaded] at store taken others leaves
    exact ⟨_, run, store, fun busy => absurd busy (by simp [free0, nojob]), fun _ _ _ => taken, others, leaves⟩
  · rw [if_neg (by simpa [and_assoc] using idle)] at loaded
    rw [← loaded] at placed
    exact ⟨_, run, placed.store, fun _ => ⟨placed.valid, placed.half, placed.len, placed.run.1⟩,
      fun a b c => absurd ⟨a, b, c⟩ idle, placed.others, placed.leaves⟩

theorem programLoad_refused {x : Job} {e : MRes} (ha : a < 34) (next : (s.arr a).nextJob = some r)
    (free : s.fb ARR_PROG.NEXT_VALID a = false) (serves : s.arrServing a = true) (single : r.role = .single)
    (hx : s.job r.job = some x) (runs : x.phase = .running) (bad : e.good = false)
    (read : instRead s r.inst (tdProg r.desc) (tdProgLen r.desc) = (e, s1)) :
    ∃ t, exec (.programLoad a) s = .next t ∧ t.job r.job = some (x.over e.status (some r.tile)) := by
  have accessed : Accessed s s1 := Leaves.of_eq read (accessed_instRead s _ _ _)
  have faulted := (s1.faultJob_ends r.job e.status r.tile x ((accessed.job_same r.job).trans hx) (by rw [runs]; decide)).1
  refine ⟨_, ?_, faulted⟩
  rw [exec_programLoad, execProgramLoad, State.isArray_of_lt ha, unit_true, State.loadProgram, next]
  dsimp only
  rw [free, serves, if_neg (by decide), read]
  cases e with
  | ok bs => cases bad
  | _ =>
    dsimp only
    rw [single]

end

/-- Settles O24: a free array takes the first tile it may run; a load places the image in the half that is not current,
and an idle array takes it at once. -/
theorem tilesAreGivenToFreeArraysAndLoaded : Obligations.TilesAreGivenToFreeArraysAndLoaded := by
  refine ⟨fun s a q x ha free owned untimed first hx => ?_, fun s a g ns q x ha free lent slice first hx => ?_,
    fun s a ha busy => ?_, fun s s1 a r bs ha next free serves read len _ => programLoad_loads ha next free serves read len,
    fun s s1 a r x e ha next free serves single hx runs bad read => programLoad_refused ha next free serves single hx runs bad read⟩
  · obtain ⟨arr, tiles, leaves⟩ := s.giveTile_gives a (s.f ARR_STATUS.FLASK a) q x false hx
    refine ⟨_, s.tileRun (s.f ARR_STATUS.FLASK a) q x false, tileDispatch_gives s a q ha free owned untimed first,
      (arr a).trans (if_pos rfl), rfl, rfl, rfl, rfl, rfl, rfl, rfl, tiles, fun b hb => (arr b).trans (if_neg hb), leaves⟩
  · obtain ⟨arr, -, leaves⟩ := s.giveTile_gives a g q x true hx
    exact ⟨_, s.tileRun g q x true, tileDispatch_lends s a g ns q ha free lent slice first, (arr a).trans (if_pos rfl), rfl, rfl,
      rfl, rfl, leaves⟩
  · rw [exec_tileDispatch, execTileDispatch, State.isArray_of_lt ha, unit_true, State.dispatchTile, busy]
    rfl

end Sys2Proof.Machine
end

section
/-! PROOFS. The end of an array job (R58, R67, R178, R179): its time is charged, and its part is done. -/

set_option Elab.async false

namespace Sys2Proof.Machine

/-- What charging the time of an array job leaves of its array: all but the progress sums, the slice and the run's start. -/
def ChargedFrom (x y : ArraySt) : Prop :=
  y = { x with
    estSum := y.estSum, busySum := y.busySum, slice := y.slice, lastFlask := y.lastFlask, job := y.job, held := y.held }
  ∧ y.job.isSome = x.job.isSome

theorem ChargedFrom.refl (x : ArraySt) : ChargedFrom x x := ⟨rfl, rfl⟩

theorem ChargedFrom.trans {x y z : ArraySt} (h : ChargedFrom x y) (g : ChargedFrom y z) : ChargedFrom x z := by
  obtain ⟨fields, job⟩ := h
  obtain ⟨fields', job'⟩ := g
  exact ⟨fields'.trans (by rw [fields]), job'.trans job⟩

/-- The registers that the end of an array job may move, beside those of its boundary. -/
abbrev endRegs (a : Nat) : Reg → Nat → Prop := fun g i => g = .arrPerf ∧ i = a ∨ g = .sysFlshare

/-- From `s` to `t` array `a` has been charged, no other array has changed, and `w` holds of what the jobs have become. -/
structure Charged (a : Nat) (s t : State) : Prop where
  here : ChargedFrom (s.arr a) (t.arr a)
  others : ∀ b, b ≠ a → t.arr b = s.arr b
  leaves : Leaves [.arrays, .flasks, .jobs] (endRegs a) s t

section
variable {s t u : State} {a : Nat} {r : RunJob}

theorem Charged.trans (h : Charged a s t) (g : Charged a t u) : Charged a s u :=
  ⟨h.here.trans g.here, fun b hb => (g.others b hb).trans (h.others b hb), h.leaves.trans g.leaves⟩

theorem Charged.refl (s : State) (a : Nat) : Charged a s s := ⟨.refl _, fun _ _ => rfl, .refl _ _ s⟩

/-- A change of the array within what a charge moves. -/
theorem Charged.of_modArr (g : ArraySt → ArraySt) (hg : ∀ x, ChargedFrom x (g x)) : Charged a s (s.modArr a g) :=
  ⟨by rw [State.modArr_arr, if_pos rfl]; exact hg _, fun b hb => by rw [State.modArr_arr, if_neg hb], .modArr (.refl _ _ s)⟩

/-- A change that leaves the arrays alone. -/
theorem Charged.of_leaves (h : Leaves [.flasks, .jobs] (endRegs a) s t) : Charged a s t :=
  ⟨by rw [h.arr_same (by simp) a]; exact .refl _, fun b _ => h.arr_same (by simp) b, h.mono (by simp) fun _ _ h => h⟩

theorem Charged.monitorRun (s : State) (a : Nat) : Charged a s (s.monitorRun a) := by
  unfold State.monitorRun
  split
  · split
    · exact .of_modArr _ fun _ => ⟨rfl, rfl⟩
    · exact .refl s a
  · exact .refl s a

theorem State.monitorRun_keeps (s : State) (a : Nat) :
    ((s.monitorRun a).arr a).job = (s.arr a).job ∧ (s.monitorRun a).work = s.work ∧ ∀ x i, (s.monitorRun a).f x i = s.f x i := by
  unfold State.monitorRun
  split
  · split
    · exact ⟨by rw [State.modArr_arr, if_pos rfl], rfl, fun _ _ => rfl⟩
    · exact ⟨rfl, rfl, fun _ _ => rfl⟩
  · exact ⟨rfl, rfl, fun _ _ => rfl⟩

theorem Charged.chargeRun (s : State) (a : Nat) : Charged a s (s.chargeRun a) := by
  unfold State.chargeRun
  split
  · exact .refl s a
  · next r _ =>
    split
    · exact .refl s a
    have charge : Charged a s (s.charge r.flask r.job (s.since r.startNs)) :=
      .of_leaves (.modJob (.incWrap (.modFlask (.refl _ _ s)) (.inr rfl)))
    have restarted : Charged a s ((s.charge r.flask r.job (s.since r.startNs)).modArr a fun x =>
        { x with job := x.job.map fun r => { r with startNs := s.now } }) :=
      charge.trans (.of_modArr _ fun x => ⟨rfl, Option.isSome_map⟩)
    dsimp only
    split
    · exact (restarted.trans (.of_leaves (.modFlask (.refl _ _ _)))).trans (.of_modArr _ fun _ => ⟨rfl, rfl⟩)
    · exact restarted

/-- The job is charged the time since the run's start. -/
theorem State.chargeRun_job (s : State) (a : Nat) (r : RunJob) (x : Job) (hr : (s.arr a).job = some r) (real : r.bar = false)
    (hx : s.job r.job = some x) : (s.chargeRun a).job r.job = some { x with arrayNs := x.arrayNs + s.since r.startNs } := by
  have charged : (s.charge r.flask r.job (s.since r.startNs)).job r.job
      = some { x with arrayNs := x.arrayNs + s.since r.startNs } := by
    rw [State.charge, State.modJob_job _ r.job (fun x => { x with arrayNs := x.arrayNs + s.since r.startNs }) (fun _ => rfl) x]
    rw [State.incWrap_job, State.modFlask_job, hx]
  unfold State.chargeRun
  rw [hr]
  dsimp only
  rw [real, if_neg (by decide)]
  split
  · rw [State.modArr_job, State.lendCharge, State.modFlask_job, State.modArr_job, charged]
  · rw [State.modArr_job, charged]

theorem State.leaves_chargeRun (s : State) (a : Nat) :
    Leaves [.arrays, .flasks, .jobs] (fun g _ => g = .sysFlshare) s (s.chargeRun a) := by
  unfold State.chargeRun
  split
  · exact .refl _ _ s
  · next r _ =>
    split
    · exact .refl _ _ s
    have charge : Leaves [.arrays, .flasks, .jobs] (fun g _ => g = .sysFlshare) s
        (s.charge r.flask r.job (s.since r.startNs)) := .modJob (.incWrap (.modFlask (.refl _ _ s)) rfl)
    dsimp only
    split
    · exact .modArr (.modFlask (.modArr charge))
    · exact .modArr charge

theorem State.chargeRun_f (s : State) (a : Nat) (x : Fld) (i : Nat) (hx : x.reg ≠ .sysFlshare) :
    (s.chargeRun a).f x i = s.f x i := (s.leaves_chargeRun a).f_same x i hx

/-- The array job has been charged and counted, and the array holds. -/
def State.runCounted (s : State) (a : Nat) : State :=
  (((s.monitorRun a).chargeRun a).incWrap ARR_PERF.TILES a 1).modArr a fun x => { x with held := true }

theorem State.runCounted_charged (s : State) (a : Nat) : Charged a s (s.runCounted a) :=
  (((Charged.monitorRun s a).trans (.chargeRun _ a)).trans (.of_leaves (.incWrap (.refl _ _ _) (.inl ⟨rfl, rfl⟩)))).trans
    (.of_modArr _ fun _ => ⟨rfl, rfl⟩)

theorem State.runCounted_tiles (s : State) (a : Nat) :
    (s.runCounted a).f ARR_PERF.TILES a = (s.f ARR_PERF.TILES a + 1) % 65536 := by
  rw [State.runCounted, State.modArr_f, State.incWrap_eq, State.setF_f_width _ _ _ _ 16 (by decide) rfl,
    State.chargeRun_f _ _ _ _ (by decide), (s.monitorRun_keeps a).2.2, (by decide : 2 ^ 16 = 65536)]

theorem State.runCounted_job (s : State) (a : Nat) (r : RunJob) (x : Job) (hr : (s.arr a).job = some r) (real : r.bar = false)
    (hx : s.job r.job = some x) :
    (s.runCounted a).job r.job = some { x with arrayNs := x.arrayNs + s.since r.startNs } := by
  obtain ⟨job, work, -⟩ := s.monitorRun_keeps a
  have since : (s.monitorRun a).since r.startNs = s.since r.startNs := by
    rw [State.since, State.since, State.now, State.now, (Charged.monitorRun s a).leaves.1 .clock (by simp)]
  rw [State.runCounted, State.modArr_job, State.incWrap_job, State.chargeRun_job _ a r x (job.trans hr) real
    (by rw [State.job, work]; exact hx), since]

/-- The tile `r.tile` of job `r.job` is done. -/
theorem State.finishPart_job (s : State) (j part total : Nat) (x : Job) (hx : s.job j = some x) (runs : x.phase = .running) :
    (total ≤ (insNat x.doneParts part).length →
        (s.finishPart j part total).job j = some (({ x with doneParts := insNat x.doneParts part } : Job).over stOk none))
      ∧ ((insNat x.doneParts part).length < total →
        (s.finishPart j part total).job j = some { x with doneParts := insNat x.doneParts part }) := by
  have marked : (s.modJob j fun x => { x with doneParts := insNat x.doneParts part }).job j
      = some { x with doneParts := insNat x.doneParts part } :=
    State.modJob_job _ _ (fun x => { x with doneParts := insNat x.doneParts part }) (fun _ => rfl) x hx
  unfold State.finishPart
  dsimp only
  rw [marked]
  dsimp only
  constructor
  · intro all
    rw [if_pos all]
    exact (JobTo.of_endJob stOk none marked (by rw [runs]; decide)).1
  · intro some
    rw [if_neg (by omega), marked]

theorem State.leaves_finishPart (s : State) (j part total : Nat) : Leaves [.jobs] noReg s (s.finishPart j part total) := by
  unfold State.finishPart
  dsimp only
  split
  · exact .ite (.endJob (.modJob (.refl _ _ s))) (.modJob (.refl _ _ s))
  · exact .modJob (.refl _ _ s)

theorem Charged.sliceEnd (s : State) (a : Nat) : Charged a s (s.sliceEnd a) ∧ (s.sliceEnd a).work = s.work
    ∧ ∀ x i, (s.sliceEnd a).f x i = s.f x i := by
  unfold State.sliceEnd
  split
  · split
    · exact ⟨.of_modArr _ fun _ => ⟨rfl, rfl⟩, rfl, fun _ _ => rfl⟩
    · exact ⟨.refl s a, rfl, fun _ _ => rfl⟩
  · exact ⟨.refl s a, rfl, fun _ _ => rfl⟩

/-- A boundary without a withdrawal or a test bar that is due takes the NEXT program, if any. -/
theorem State.passBoundary_takes (s : State) (a : Nat) (serves : s.arrServing a = true) (stays : (s.arr a).withdrawDue = none)
    (nobar : (s.arr a).testBarDue = false) : s.passBoundary a = s.takeProgram a := by
  have calm : s.boundaryWithdraw a = s := by rw [State.boundaryWithdraw, stays]
  unfold State.passBoundary
  dsimp only
  rw [calm, serves, nobar]
  rfl

end

end Sys2Proof.Machine
end

section
/-! PROOFS. END (R58, R135, R375), and what O25 says. -/

set_option Elab.async false

namespace Sys2Proof.Machine

/-- R375: what an array becomes at a boundary. -/
structure Boundary (s : State) (a : Nat) (t : State) : Prop where
  idle : s.fb ARR_PROG.NEXT_VALID a = false → t.f ARR_STATUS.STATE a = 0 ∧ t.fb ARR_PROG.CUR_VALID a = false ∧ (t.arr a).job = none
  next : s.fb ARR_PROG.NEXT_VALID a = true → t.f ARR_STATUS.STATE a = 1 ∧ t.fb ARR_PROG.NEXT_VALID a = false
    ∧ t.f ARR_PROG.CUR_HALF a = s.f ARR_PROG.NEXT_HALF a ∧ t.f ARR_PROG.CUR_LEN a = s.f ARR_PROG.NEXT_LEN a
    ∧ (t.arr a).pc = 0 ∧ (t.arr a).nextJob = none
  stores : (t.arr a).mould = (s.arr a).mould ∧ (t.arr a).accum = (s.arr a).accum ∧ (t.arr a).active = (s.arr a).active
  others : ∀ b, b ≠ a → t.arr b = s.arr b
  leaves : Leaves [.arrays] (progRegs a) s t

theorem Boundary.of_takeProgram (s : State) (a : Nat) (job : (s.arr a).job.isSome = true) : Boundary s a (s.takeProgram a) := by
  cases valid : s.fb ARR_PROG.NEXT_VALID a
  · obtain ⟨cur, state, arr, leaves⟩ := s.takeProgram_idle a valid
    have here := arr a
    rw [if_pos rfl] at here
    refine ⟨fun _ => ⟨state, cur, by rw [here]⟩, fun h => ?_, by rw [here]; exact ⟨rfl, rfl, rfl⟩,
      fun b hb => by rw [arr b, if_neg hb], leaves⟩
    rw [valid] at h
    cases h
  · obtain ⟨next, -, half, len, state, arr, leaves⟩ := s.takeProgram_next a valid
    have runs : (s.nextRun a).isSome = true := by
      rw [State.nextRun, Option.isSome_map]
      cases h : (s.arr a).nextJob
      · exact job
      · rfl
    have here := arr a
    rw [if_pos rfl] at here
    rw [runs, if_pos rfl] at state
    refine ⟨fun h => ?_, fun _ => ⟨state, next, half, len, by rw [here]; exact ⟨rfl, rfl⟩⟩, by rw [here]; exact ⟨rfl, rfl, rfl⟩,
      fun b hb => by rw [arr b, if_neg hb], leaves⟩
    rw [valid] at h
    cases h

section
variable {s : State} {a flip w : Nat} {dup : Bool} {r : RunJob}

/-- The tile of a single execution is done, and the array stands at its boundary. -/
def State.tileDone (s : State) (a : Nat) (r : RunJob) (total : Nat) : State :=
  ((s.runCounted a).finishPart r.job r.tile total).sliceEnd a

theorem State.tileDone_charged (s : State) (a : Nat) (r : RunJob) (total : Nat) : Charged a s (s.tileDone a r total) :=
  ((s.runCounted_charged a).trans (.of_leaves ((State.leaves_finishPart _ _ _ _).mono (by simp) fun _ _ no => no.elim))).trans
    (Charged.sliceEnd _ a).1

theorem endProg_waits (h : s.atIssue a 0x0E 111 false w) (busy : (s.arr a).async ≠ []) : exec (.endProg a flip dup) s = .next s := by
  rw [exec_endProg, execEndProg, State.isArray_of_atIssue h, unit_true, State.issue_atIssue h (by decide), if_neg]
  rwa [List.isEmpty_iff]

theorem endProg_ends (h : s.atIssue a 0x0E 111 false w) (idle : (s.arr a).async = []) :
    exec (.endProg a flip dup) s = .next (s.endRun a flip dup) := by
  rw [exec_endProg, execEndProg, State.isArray_of_atIssue h, unit_true, State.issue_atIssue h (by decide), if_pos]
  rw [idle]
  rfl

theorem State.endRun_single {x : Job} (job : (s.arr a).job = some r) (single : r.role = .single) (hx : s.job r.job = some x) :
    s.endRun a flip dup = (s.tileDone a r x.tiles.length).passBoundary a := by
  have real : r.bar = false := by rw [RunJob.bar, single]
  have counted := s.runCounted_job a r x job real hx
  have total : ((s.runCounted a).job r.job).map (fun x => x.tiles.length) = some x.tiles.length := by rw [counted]; rfl
  unfold State.endRun
  rw [job]
  dsimp only
  rw [real, if_neg (by decide), single]
  dsimp only
  rw [State.tileDone]
  unfold State.runCounted at total ⊢
  rw [total]
  rfl

/-- R58: END of a single execution. -/
theorem endProg_single {x : Job} (h : s.atIssue a 0x0E 111 false w) (idle : (s.arr a).async = []) (job : (s.arr a).job = some r)
    (single : r.role = .single) (hx : s.job r.job = some x) (runs : x.phase = .running) (serves : s.arrServing a = true)
    (stays : (s.arr a).withdrawDue = none) (nobar : (s.arr a).testBarDue = false) :
    ∃ t y, exec (.endProg a flip dup) s = .next t ∧ t.f ARR_PERF.TILES a = (s.f ARR_PERF.TILES a + 1) % 65536
      ∧ t.job r.job = some y ∧ r.tile ∈ y.doneParts ∧ (∀ k ∈ x.doneParts, k ∈ y.doneParts)
      ∧ y.arrayNs = x.arrayNs + s.since r.startNs
      ∧ (x.tiles.length ≤ (insNat x.doneParts r.tile).length → y.phase = .ended ∧ y.status = stOk)
      ∧ ((insNat x.doneParts r.tile).length < x.tiles.length → y.phase = .running)
      ∧ (s.fb ARR_PROG.NEXT_VALID a = false → t.f ARR_STATUS.STATE a = 0 ∧ t.fb ARR_PROG.CUR_VALID a = false
          ∧ (t.arr a).job = none)
      ∧ (s.fb ARR_PROG.NEXT_VALID a = true → t.f ARR_STATUS.STATE a = 1 ∧ t.fb ARR_PROG.NEXT_VALID a = false
          ∧ t.f ARR_PROG.CUR_HALF a = s.f ARR_PROG.NEXT_HALF a ∧ t.f ARR_PROG.CUR_LEN a = s.f ARR_PROG.NEXT_LEN a
          ∧ (t.arr a).pc = 0 ∧ (t.arr a).nextJob = none)
      ∧ (t.arr a).mould = (s.arr a).mould ∧ (t.arr a).accum = (s.arr a).accum ∧ (t.arr a).active = (s.arr a).active
      ∧ (∀ b, b ≠ a → t.arr b = s.arr b)
      ∧ Leaves [.arrays, .flasks, .jobs]
          (fun g i => (g = .arrProg ∨ g = .arrStatus ∨ g = .arrPerf) ∧ i = a ∨ g = .sysFlshare) s t := by
  have real : r.bar = false := by rw [RunJob.bar, single]
  have counted := s.runCounted_job a r x job real hx
  have tiles := s.runCounted_tiles a
  obtain ⟨all, some⟩ := (s.runCounted a).finishPart_job r.job r.tile x.tiles.length _ counted runs
  have charged := s.tileDone_charged a r x.tiles.length
  have jobs : ∀ k, (s.tileDone a r x.tiles.length).job k
      = ((s.runCounted a).finishPart r.job r.tile x.tiles.length).job k := fun k => by
    rw [State.tileDone, State.job, State.job, (Charged.sliceEnd _ a).2.1]
  have done : (s.tileDone a r x.tiles.length).f ARR_PERF.TILES a = (s.runCounted a).f ARR_PERF.TILES a := by
    rw [State.tileDone, (Charged.sliceEnd _ a).2.2, (State.leaves_finishPart _ _ _ _).f_same _ _ id]
  rw [← jobs] at all some
  rw [tiles] at done
  have ended := s.endRun_single (flip := flip) (dup := dup) job single hx
  generalize s.tileDone a r x.tiles.length = u at all some charged done ended
  have prog : ∀ (y : Fld), y.reg ≠ .arrPerf → y.reg ≠ .sysFlshare → u.f y a = s.f y a := fun y h1 h2 =>
    charged.leaves.f_same y a (by rintro (⟨h, -⟩ | h); exacts [h1 h, h2 h])
  have fields := charged.here.1
  have boundary := Boundary.of_takeProgram u a (charged.here.2.trans (by rw [job]; rfl))
  have passes : u.passBoundary a = u.takeProgram a := by
    refine u.passBoundary_takes a ?_ ?_ ?_
    · rw [State.arrServing, prog ARR_STATUS.STATE (by decide) (by decide)]
      exact serves
    · rw [fields]
      exact stays
    · rw [fields]
      exact nobar
  rw [passes] at ended
  have jobSame : (u.takeProgram a).job r.job = u.job r.job := State.job_of_jobs (boundary.leaves.1 .jobs (by simp)) _
  rw [← jobSame] at all some
  have valid : u.fb ARR_PROG.NEXT_VALID a = s.fb ARR_PROG.NEXT_VALID a := by
    rw [State.fb_eq, State.fb_eq, prog _ (by decide) (by decide)]
  have stores := boundary.stores
  rw [fields] at stores
  have idle' := boundary.idle
  have next' := boundary.next
  rw [valid] at idle' next'
  rw [prog ARR_PROG.NEXT_HALF (by decide) (by decide), prog ARR_PROG.NEXT_LEN (by decide) (by decide)] at next'
  have leaves : Leaves [.arrays, .flasks, .jobs]
      (fun g i => (g = .arrProg ∨ g = .arrStatus ∨ g = .arrPerf) ∧ i = a ∨ g = .sysFlshare) s (u.takeProgram a) := by
    refine (charged.leaves.mono (fun _ h => h) fun g i h => ?_).trans (boundary.leaves.mono (by simp) fun g i h => ?_)
    · exact h.imp (fun h => ⟨.inr (.inr h.1), h.2⟩) id
    · exact .inl ⟨h.1.elim .inl fun h => .inr (.inl h), h.2⟩
  have run : exec (.endProg a flip dup) s = .next (u.takeProgram a) := by rw [endProg_ends h idle, ended]
  have others : ∀ b, b ≠ a → (u.takeProgram a).arr b = s.arr b := fun b hb => (boundary.others b hb).trans (charged.others b hb)
  have count : (u.takeProgram a).f ARR_PERF.TILES a = (s.f ARR_PERF.TILES a + 1) % 65536 :=
    (boundary.leaves.f_same ARR_PERF.TILES a (by rintro ⟨h | h, -⟩ <;> cases h)).trans done
  have isDone : ∀ k, k ∈ insNat x.doneParts r.tile ↔ k ∈ x.doneParts ∨ k = r.tile := mem_insNat _ _
  rcases Nat.lt_or_ge (insNat x.doneParts r.tile).length x.tiles.length with more | last
  · exact ⟨_, _, run, count, some more, (isDone _).mpr (.inr rfl), fun k hk => (isDone k).mpr (.inl hk), rfl,
      fun h => absurd h (by omega), fun _ => runs, idle', next', stores.1, stores.2.1, stores.2.2, others, leaves⟩
  · exact ⟨_, _, run, count, all last, (isDone _).mpr (.inr rfl), fun k hk => (isDone k).mpr (.inl hk), rfl,
      fun _ => ⟨rfl, rfl⟩, fun h => absurd h (by omega), idle', next', stores.1, stores.2.1, stores.2.2, others, leaves⟩

theorem find?_map_modify {α : Type} (c : α → Bool) (g : α → α) (hg : ∀ q, c (g q) = c q) (xs : List α) (p : α)
    (hp : xs.find? c = some p) : (xs.map fun p => if c p then g p else p).find? c = some (g p) := by
  induction xs with
  | nil => cases hp
  | cons q qs ih =>
    rw [List.map_cons]
    by_cases hq : c q = true
    · rw [List.find?_cons_of_pos hq] at hp
      cases hp
      rw [if_pos hq, List.find?_cons_of_pos (by rw [hg, hq])]
    · rw [List.find?_cons_of_neg hq] at hp
      rw [if_neg hq, List.find?_cons_of_neg hq]
      exact ih hp

/-- Changing a pair finds it again. -/
theorem State.modPair_pairOf (s : State) (vec : Bool) (u : Nat) (g : Pair → Pair) (p : Pair) (hp : s.pairOf vec u = some p)
    (hg : ∀ q, (g q).vec = q.vec ∧ (g q).pri = q.pri ∧ (g q).rc = q.rc) : (s.modPair vec u g).pairOf vec u = some (g p) := by
  refine find?_map_modify (fun p : Pair => p.vec == vec && (p.pri == u || p.rc == u)) g (fun q => ?_) s.units.pairs p hp
  obtain ⟨v, pri, rc⟩ := hg q
  rw [v, pri, rc]

theorem Leaves.modPair {ps : List Part} {q : Reg → Nat → Prop} {b s : State} {vec : Bool} {u : Nat} {g : Pair → Pair}
    (h : Leaves ps q b s) (hp : .pairs ∈ ps := by simp) : Leaves ps q b (s.modPair vec u g) := h.one .pairs hp

/-- A pair one of whose executions has ended. -/
def Pair.oneEnded (p : Pair) (u now : Nat) (sig : Option (List (Nat × Nat) × Nat)) (fault : Option (Nat × Nat)) : Pair :=
  if p.pri = u then { p with priEnd := some now, sigP := sig, faultP := fault }
  else { p with rcEnd := some now, sigR := sig, faultR := fault }

/-- The first execution of a pair that ends is noted. -/
theorem State.pairEnd_first (s : State) (vec : Bool) (u : Nat) (sig : Option (List (Nat × Nat) × Nat)) (fault : Option (Nat × Nat))
    (p : Pair) (hp : s.pairOf vec u = some p) (none : p.overran = 0) (pri : p.priEnd = Option.none) (rc : p.rcEnd = Option.none) :
    s.pairEnd vec u sig fault = s.modPair vec u (fun p => p.oneEnded u s.now sig fault)
      ∧ (s.modPair vec u fun p => p.oneEnded u s.now sig fault).pairOf vec u = some (p.oneEnded u s.now sig fault) := by
  have found := s.modPair_pairOf vec u (fun p => p.oneEnded u s.now sig fault) p hp fun q => by
    unfold Pair.oneEnded
    split <;> exact ⟨rfl, rfl, rfl⟩
  have waits : (p.oneEnded u s.now sig fault).bothEnded = false := by
    unfold Pair.oneEnded Pair.bothEnded
    split
    · dsimp only
      rw [none, rc]
      rfl
    · dsimp only
      rw [none, pri]
      rfl
  refine ⟨?_, found⟩
  unfold State.pairEnd
  unfold Pair.oneEnded at found waits ⊢
  dsimp only
  rw [found]
  dsimp only
  rw [waits]
  rfl

/-- R135: END of an execution of a pair whose other one has not ended. -/
theorem endProg_pair {p : Pair} (h : s.atIssue a 0x0E 111 false w) (idle : (s.arr a).async = []) (job : (s.arr a).job = some r)
    (role : r.role = .primary ∨ r.role = .recast) (hp : s.pairOf false a = some p) (none : p.overran = 0)
    (pri : p.priEnd = Option.none) (rc : p.rcEnd = Option.none) :
    ∃ t, exec (.endProg a flip dup) s = .next t ∧ (t.arr a).held = true ∧ (t.arr a).job.isSome = true
      ∧ t.pairOf false a = some (p.oneEnded a s.now (some ((s.arr a).sigs, Nat.xor (crc32Final (s.arr a).outCrc) flip)) Option.none)
      ∧ Leaves [.arrays, .flasks, .jobs, .pairs] (endRegs a) s t := by
  have real : r.bar = false := by rcases role with e | e <;> rw [RunJob.bar, e]
  have charged := s.runCounted_charged a
  have held : ((s.runCounted a).arr a).held = true := by rw [State.runCounted, State.modArr_arr, if_pos rfl]
  have planted : Leaves [.flasks] noReg (s.runCounted a) ((s.runCounted a).plantFault r.flask dup) :=
    .ite (.modFlask (.refl _ _ _)) (.refl _ _ _)
  have ended : s.endRun a flip dup = ((s.runCounted a).plantFault r.flask dup).pairEnd false a
      (some (((s.runCounted a).arr a).sigs, Nat.xor (crc32Final (s.arr a).outCrc) flip)) Option.none := by
    unfold State.endRun
    rw [job]
    dsimp only
    rw [real, if_neg (by decide)]
    rcases role with e | e <;> (rw [e]; rfl)
  have sigs : ((s.runCounted a).arr a).sigs = (s.arr a).sigs := by rw [charged.here.1]
  rw [sigs] at ended
  have arr : ((s.runCounted a).plantFault r.flask dup).arr a = (s.runCounted a).arr a := planted.arr_same (by simp) a
  have now : ((s.runCounted a).plantFault r.flask dup).now = s.now := by
    rw [State.now, State.now, planted.1 .clock (by simp), charged.leaves.1 .clock (by simp)]
  have pairs : ((s.runCounted a).plantFault r.flask dup).pairOf false a = some p := by
    rw [State.pairOf, planted.1 .pairs (by simp), charged.leaves.1 .pairs (by simp)]
    exact hp
  have all : Leaves [.arrays, .flasks, .jobs, .pairs] (endRegs a) s ((s.runCounted a).plantFault r.flask dup) :=
    (charged.leaves.mono (by simp) fun _ _ h => h).trans (planted.mono (by simp) fun _ _ no => no.elim)
  have busy := charged.here.2
  generalize (s.runCounted a).plantFault r.flask dup = u at ended arr now pairs all
  obtain ⟨first, found⟩ := u.pairEnd_first false a (some ((s.arr a).sigs, Nat.xor (crc32Final (s.arr a).outCrc) flip))
    Option.none p pairs none pri rc
  rw [now] at first found
  refine ⟨_, endProg_ends h idle, ?_, ?_, ?_, ?_⟩
  · rw [ended, first, (Leaves.modPair (q := noReg) (ps := [.pairs]) (.refl _ _ u)).arr_same (by simp) a, arr, held]
  · rw [ended, first, (Leaves.modPair (q := noReg) (ps := [.pairs]) (.refl _ _ u)).arr_same (by simp) a, arr, busy, job]
    rfl
  · rw [ended, first, found]
  · rw [ended, first]
    exact Leaves.modPair all

end

/-- Settles O25: END waits for asynchronous commands; a single execution is charged, its tile done, and its array passes its
boundary; an execution of a pair holds with its signature. -/
theorem endFinishesTheTileAndTakesTheNextProgram : Obligations.EndFinishesTheTileAndTakesTheNextProgram := by
  refine ⟨fun s a flip w dup h busy => endProg_waits h busy,
    fun s a flip w dup r x h idle job single hx runs serves stays nobar =>
      endProg_single h idle job single hx runs serves stays nobar,
    fun s a flip w dup r p h idle job role hp none pri rc => ?_⟩
  obtain ⟨t, run, held, busy, pair, leaves⟩ := endProg_pair (flip := flip) (dup := dup) h idle job role hp none pri rc
  exact ⟨t, run, held, busy, fun first => pair.trans (congrArg some (if_pos first)),
    fun second => pair.trans (congrArg some (if_neg second)), leaves⟩

end Sys2Proof.Machine
end

section
/-! PROOFS. Completions of asynchronous commands, and the watchdog (R53, R61, R62). -/

set_option Elab.async false

namespace Sys2Proof.Machine

/-- A status field other than STATE stays when a job faults. -/
theorem State.faultJob_status (s : State) (j st tile b : Nat) (x : Fld) (hx : x.reg = .arrStatus) (apart : ARR_STATUS.STATE.apart x) :
    (s.faultJob j st tile).f x b = s.f x b := by
  unfold State.faultJob
  split
  · rfl
  · next y _ =>
    have jobs : Leaves [.jobs, .flasks] noReg s (((s.endJob j st (some tile)).dropTiles (s.jobFlask y) j).each (s.lostJobs j)
        fun t k => (t.endJob k stJobLost none).dropTiles (s.jobFlask y) k) :=
      .over (.dropTiles (.endJob (.refl _ _ s))) fun _ _ h => .dropTiles (.endJob h)
    have kept := jobs.f_same x b id
    dsimp only
    split
    · exact kept
    · exact State.each_keeps (P := fun t => t.f x b = s.f x b) kept fun t a _ h => (t.stopArray_status a b x hx (.inl apart)).trans h

/-- A fault that an array of a single execution reports under a flag of ARR_STATUS. -/
theorem State.arrFault_single (s : State) (a : Nat) (flag : Fld) (r : RunJob) (x : Job) (hr : (s.arr a).job = some r)
    (single : r.role = .single) (hj : s.job r.job = some x) (runs : x.phase = .running) (hf : flag.reg = .arrStatus)
    (fits : flag.fits) (bit1 : flag.hi + 1 - flag.lo = 1) (apart : ARR_STATUS.STATE.apart flag) :
    (s.arrFault a (some flag) stJobFault).fb flag a = true
      ∧ (s.arrFault a (some flag) stJobFault).job r.job = some (x.over stJobFault (some r.tile))
      ∧ Leaves [.jobs, .flasks, .arrays, .freeCtr] faultRegs s (s.arrFault a (some flag) stJobFault) := by
  have fault : s.arrFault a (some flag) stJobFault = (s.setF flag a 1).faultJob r.job stJobFault r.tile := by
    unfold State.arrFault
    simp only [State.setF_arr, hr, single]
  have flagged : Leaves [.jobs, .flasks, .arrays, .freeCtr] faultRegs s (s.setF flag a 1) :=
    .setF (.refl _ _ s) (.inr (.inl hf))
  obtain ⟨job, -, leaves⟩ := (s.setF flag a 1).faultJob_ends r.job stJobFault r.tile x ((State.setF_job ..).trans hj)
    (by rw [runs]; decide)
  rw [fault]
  refine ⟨State.fb_of_f ?_, job, flagged.trans leaves⟩
  rw [State.faultJob_status _ _ _ _ _ _ hf apart, State.setF_f_same _ _ _ _ fits, bit1, (by decide : 1 % 2 ^ 1 = 1)]

section
variable {s : State} {a k n : Nat} {o : AsyncOp}

/-- The command that completes leaves its array, with the cycles of a stall counted. -/
def State.asyncGone (s : State) (a k n : Nat) (o : AsyncOp) : State :=
  (s.countStall a n).modArr a fun x => loadShadow o { x with async := x.async.filter fun o => o.serial != k }

theorem asyncDone_completes (found : (s.arr a).async.find? (fun o => o.serial == k) = some o)
    (may : (s.arr a).mayComplete o = true) : asyncDone a k n s
    = match o.evt with
      | none => s.asyncGone a k n o
      | some e =>
        if s.f ARR_STATUS.STATE a = 3 then s.asyncGone a k n o
        else if 0xFFFF ≤ NMap.get ((s.asyncGone a k n o).arr a).ev 0 e then
          (s.asyncGone a k n o).arrFault a (some ARR_STATUS.EVT_OVF) stJobFault
        else (s.asyncGone a k n o).modArr a fun x =>
          { x with ev := NMap.set x.ev 0 e (NMap.get ((s.asyncGone a k n o).arr a).ev 0 e + 1) } := by
  unfold asyncDone
  rw [found]
  dsimp only
  rw [may]
  rfl

theorem loadShadow_eq (o : AsyncOp) (x : ArraySt) : loadShadow o x = { x with shadow := o.block.getD x.shadow } := by
  unfold loadShadow
  split
  · next w h => rw [h]; rfl
  · next h => rw [h]; rfl

theorem State.countStall_arr (s : State) (a n b : Nat) :
    (s.countStall a n).arr b = if b = a then { s.arr a with pauseNs := ((s.countStall a n).arr a).pauseNs } else s.arr b := by
  unfold State.countStall
  split
  · rw [State.modArr_arr, State.incWrap_arr]
    split
    · rw [State.modArr_arr, if_pos rfl, State.incWrap_arr]
    · rw [State.incWrap_arr]
  · split
    · next h => rw [h]
    · rfl

theorem State.asyncGone_arr (s : State) (a k n : Nat) (o : AsyncOp) (b : Nat) :
    (s.asyncGone a k n o).arr b = if b = a then { s.arr a with
      pauseNs := ((s.countStall a n).arr a).pauseNs, async := (s.arr a).async.filter fun o => o.serial != k
      shadow := o.block.getD (s.arr a).shadow } else s.arr b := by
  rw [State.asyncGone, State.modArr_arr, loadShadow_eq, s.countStall_arr a n b]
  split
  · rw [s.countStall_arr a n a, if_pos rfl]
  · rfl

theorem State.leaves_asyncGone (s : State) (a k n : Nat) (o : AsyncOp) :
    Leaves [.arrays] (oneReg .arrPerf a) s (s.asyncGone a k n o) := .modArr (s.countStall_keeps a n).2.2.2.2

/-- R53: a command that completes without passing its counter's end. -/
theorem asyncComplete_raises (ha : a < 34) (found : (s.arr a).async.find? (fun o => o.serial == k) = some o)
    (may : (s.arr a).mayComplete o = true)
    (room : ∀ e, o.evt = some e → s.f ARR_STATUS.STATE a ≠ 3 → NMap.get (s.arr a).ev 0 e < 0xFFFF) :
    ∃ t ev, exec (.asyncComplete a k n) s = .next t
      ∧ t.arr a = { (s.asyncGone a k n o).arr a with ev := ev }
      ∧ (∀ e, o.evt = some e → s.f ARR_STATUS.STATE a ≠ 3 → NMap.get ev 0 e = NMap.get (s.arr a).ev 0 e + 1)
      ∧ (∀ e, o.evt ≠ some e → NMap.get ev 0 e = NMap.get (s.arr a).ev 0 e)
      ∧ t.f ARR_PERF.STALL_CYC a = (s.countStall a n).f ARR_PERF.STALL_CYC a
      ∧ (∀ b, b ≠ a → t.arr b = s.arr b) ∧ Leaves [.arrays] (oneReg .arrPerf a) s t := by
  have run : exec (.asyncComplete a k n) s = .next (asyncDone a k n s) := by
    rw [exec_asyncComplete, execAsyncComplete, State.isArray_of_lt ha, unit_true]
  have done := asyncDone_completes (n := n) found may
  have here := s.asyncGone_arr a k n o a
  rw [if_pos rfl] at here
  have counters : ((s.asyncGone a k n o).arr a).ev = (s.arr a).ev := by rw [here]
  have others : ∀ b, b ≠ a → (s.asyncGone a k n o).arr b = s.arr b := fun b hb => by rw [s.asyncGone_arr a k n o b, if_neg hb]
  have leaves := s.leaves_asyncGone a k n o
  have stall : (s.asyncGone a k n o).f ARR_PERF.STALL_CYC a = (s.countStall a n).f ARR_PERF.STALL_CYC a := State.modArr_f ..
  rw [counters] at done
  generalize s.asyncGone a k n o = u at done here counters others leaves stall ⊢
  have quiet : (∀ e, o.evt = some e → s.f ARR_STATUS.STATE a ≠ 3 → False) → asyncDone a k n s = u →
      ∃ t ev, exec (.asyncComplete a k n) s = .next t ∧ t.arr a = { u.arr a with ev := ev }
      ∧ (∀ e, o.evt = some e → s.f ARR_STATUS.STATE a ≠ 3 → NMap.get ev 0 e = NMap.get (s.arr a).ev 0 e + 1)
      ∧ (∀ e, o.evt ≠ some e → NMap.get ev 0 e = NMap.get (s.arr a).ev 0 e)
      ∧ t.f ARR_PERF.STALL_CYC a = (s.countStall a n).f ARR_PERF.STALL_CYC a
      ∧ (∀ b, b ≠ a → t.arr b = s.arr b) ∧ Leaves [.arrays] (oneReg .arrPerf a) s t := fun none same =>
    ⟨u, (u.arr a).ev, by rw [run, same], rfl, fun e he hs => (none e he hs).elim, fun _ _ => by rw [counters], stall, others, leaves⟩
  cases evt : o.evt with
  | none =>
    rw [evt] at done
    rw [← evt]
    exact quiet (fun e he => by rw [evt] at he; cases he) done
  | some e =>
    rw [evt] at done
    dsimp only at done
    by_cases aborting : s.f ARR_STATUS.STATE a = 3
    · rw [if_pos aborting] at done
      rw [← evt]
      exact quiet (fun _ _ hs => absurd aborting hs) done
    · have below := room e evt aborting
      rw [if_neg aborting, if_neg (by omega)] at done
      refine ⟨asyncDone a k n s, NMap.set (u.arr a).ev 0 e (NMap.get (s.arr a).ev 0 e + 1), run, ?_, fun e' he' _ => ?_,
        fun e' he' => ?_, ?_, fun b hb => ?_, ?_⟩
      · rw [done, State.modArr_arr, if_pos rfl]
      · cases he'
        rw [NMap.get_set, if_pos rfl]
      · rw [NMap.get_set, if_neg fun h => he' (by rw [h]), counters]
      · rw [done, State.modArr_f, stall]
      · rw [done, State.modArr_arr, if_neg hb, others b hb]
      · rw [done]
        exact .modArr leaves

theorem asyncComplete_waits (ha : a < 34) (found : (s.arr a).async.find? (fun o => o.serial == k) = some o)
    (may : (s.arr a).mayComplete o = false) : exec (.asyncComplete a k n) s = .next s := by
  rw [exec_asyncComplete, execAsyncComplete, State.isArray_of_lt ha, unit_true, asyncDone, found]
  dsimp only
  rw [may]
  rfl

end

theorem tileWatchdog_quiet (s : State) (a : Nat) (r : RunJob) (ha : a < 34) (hr : (s.arr a).job = some r)
    (quiet : s.timed r.flask = true ∨ s.issuing a = false
      ∨ reached s.now (r.startNs + tdEst r.desc + s.f ARR_CTRL.WDOG_NS a + 1) = false) :
    exec (.tileWatchdog a) s = .next s := by
  rw [exec_tileWatchdog, execTileWatchdog, State.isArray_of_lt ha, unit_true, watchdogGo, hr]
  dsimp only
  rw [if_neg]
  simp only [Bool.and_eq_true, Bool.not_eq_true', not_and, Bool.not_eq_true]
  rcases quiet with h | h | h <;> simp [h]

/-- Settles O26: a completion takes the command off its array and raises its counter, or faults where it is full; the
watchdog faults an overlong tile. -/
theorem completionsRaiseCountersAndWatchdogsFault : Obligations.CompletionsRaiseCountersAndWatchdogsFault := by
  refine ⟨fun s a k n o ha found may room => ?_, fun s a k n o ha found may => asyncComplete_waits ha found may,
    fun s a k n e o r x ha found may evt full run hr single hj runs => ?_,
    fun s a r x ha hr single free issuing hj runs late => ?_, tileWatchdog_quiet⟩
  · obtain ⟨t, ev, run, arr, raised, kept, stall, others, leaves⟩ := asyncComplete_raises (n := n) ha found may room
    rw [State.asyncGone_arr, if_pos rfl] at arr
    refine ⟨t, run, fun y => ?_, fun e he hs => ?_, fun e he => ?_, fun stalled => stall.trans (s.countStall_counts a n stalled),
      ?_, ?_, ?_, ?_, others, leaves⟩
    · rw [arr]
      simp
    · rw [arr]
      exact raised e he hs
    · rw [arr]
      exact kept e he
    all_goals rw [arr]
  · have gone := s.asyncGone_arr a k n o a
    rw [if_pos rfl] at gone
    have same : (s.asyncGone a k n o).job r.job = s.job r.job :=
      State.job_of_jobs ((s.leaves_asyncGone a k n o).1 .jobs (by simp)) _
    obtain ⟨flag, job, -⟩ := (s.asyncGone a k n o).arrFault_single a ARR_STATUS.EVT_OVF r x (by rw [gone]; exact hr) single
      (same.trans hj) runs rfl (by decide) rfl (by decide)
    refine ⟨_, ?_, flag, job⟩
    rw [exec_asyncComplete, execAsyncComplete, State.isArray_of_lt ha, unit_true, asyncDone_completes found may, evt]
    dsimp only
    rw [if_neg run, if_pos (by rw [gone]; exact full)]
  · obtain ⟨flag, job, leaves⟩ := s.arrFault_single a ARR_STATUS.WDOG r x hr single hj runs rfl (by decide) rfl (by decide)
    refine ⟨_, ?_, flag, job, leaves⟩
    have real : r.bar = false := by rw [RunJob.bar, single]
    rw [exec_tileWatchdog, execTileWatchdog, State.isArray_of_lt ha, unit_true, watchdogGo, hr]
    dsimp only
    rw [free, issuing, real, late]
    rfl

end Sys2Proof.Machine
end

section
/-! PROOFS. The registers of an array (R59, R63, R82): NEXT_VALID, ABORT and the calibration-drift window. -/

set_option Elab.async false

namespace Sys2Proof.Machine

section
variable (s : State) (i v : Nat)

/-- A register map that a whole write of `v` has merged into. -/
def State.wrote (r : Reg) : State := s.setR r i (s.merged r i .whole v)

theorem State.wrote_rw (x : Fld) (hm : (x.hi, x.lo, FKind.rw) ∈ x.reg.fieldsAt i) :
    (s.wrote i v x.reg).f x i = bits v x.hi x.lo := by
  rw [State.wrote, State.setR_f _ _ _ _ (s.merged_lt _ _ _ _), State.merged_rw s _ i .whole _ _ _ hm]
  rfl

theorem State.wrote_w1s (x : Fld) (one : x.hi = x.lo) (hm : (x.lo, x.lo, FKind.w1s) ∈ x.reg.fieldsAt i) (on : bit v x.lo = true) :
    (s.wrote i v x.reg).fb x i = true := by
  refine State.fb_of_f ?_
  rw [State.wrote, State.setR_f _ _ _ _ (s.merged_lt _ _ _ _), one, State.merged_w1s s _ i .whole _ _ hm]
  exact if_pos on

theorem State.leaves_wrote (r : Reg) : Leaves [] (oneReg r i) s (s.wrote i v r) := .setR (.refl _ _ s) ⟨rfl, rfl⟩

theorem State.wrote_f (r : Reg) (x : Fld) (k : Nat) (hx : x.reg ≠ r) : (s.wrote i v r).f x k = s.f x k :=
  (s.leaves_wrote i v r).f_same x k fun h => hx h.1

end

/-- A taken whole write: the register takes the merged value, and what the write starts follows. -/
theorem State.regWrite_whole (s : State) (r : Reg) (i v : Nat) (m : Master) (acc : s.accepts r i m .whole v)
    (door : r ≠ .sprDb ∧ r ≠ .mbxDb) (hk : s.hitsLock r i .whole = false) (plain : s.newValue r i .whole v = s.merged r i .whole v) :
    s.regWrite r i m .whole v = (s.wrote i v r).afterWrite r i m (s.r r i) (s.merged r i .whole v) v := by
  rw [State.regWrite_accepted s r i m .whole v door.1 door.2 acc, State.takeWrite_plain s r i m .whole _ _ _ hk, plain]
  rfl

section
variable (s : State) (m : Master) (a : Nat) (v : Word)

theorem nextValidSet_sets (ha : a < 34) (acc : s.accepts .arrProg a m .whole (withBit v 63)) :
    exec (.nextValidSet m a v) s = .next (s.wrote a (withBit v 63) .arrProg) := by
  rw [exec_nextValidSet, execNextValidSet, State.isArray_of_lt ha, unit_true, State.regWrite_writesOnly s .arrProg a m .whole _ rfl
    (by simp [State.hitsLock, Reg.fieldsAt, Reg.fields]) acc]
  rfl

/-- A field that is read-only or lies above leaves the bits below as they are. -/
theorem bits_writeField_below (w j : Nat) (boot mgr : Bool) (acc : Nat) (f : Nat × Nat × FKind) (hi lo : Nat)
    (h : f.2.2 = .ro ∨ hi < f.2.1 ∧ f.2.1 ≤ f.1) : bits (writeField w j boot mgr acc f) hi lo = bits acc hi lo := by
  obtain ⟨top, low, kind⟩ := f
  rcases h with ro | ⟨above, order⟩
  · dsimp only at ro
    subst ro
    rfl
  · dsimp only at above order
    have whole : ∀ x, bits (putBits acc top low x) hi lo = bits acc hi lo := fun x =>
      bits_putBits_below _ _ _ _ _ _ (by omega) above
    have one : ∀ x, bits (putBits acc low low x) hi lo = bits acc hi lo := fun x =>
      bits_putBits_below _ _ _ _ _ _ (by omega) above
    unfold writeField
    cases kind <;> dsimp only
    case rw => exact whole _
    case w1c =>
      split
      · exact one _
      · rfl
    case w1s =>
      split
      · exact one _
      · rfl
    case rwlBoot =>
      split
      · rfl
      · exact whole _
    case rwlMgr =>
      split
      · rfl
      · exact whole _

theorem State.merged_below (s : State) (r : Reg) (i w hi lo : Nat)
    (h : ∀ f ∈ r.fieldsAt i, f.2.2 = .ro ∨ hi < f.2.1 ∧ f.2.1 ≤ f.1) :
    bits (s.merged r i .whole w) hi lo = bits (s.r r i) hi lo := by
  unfold State.merged
  refine List.foldlRecOn (motive := fun acc => bits acc hi lo = bits (s.r r i) hi lo) _ _ rfl fun acc hacc f hf => ?_
  rw [bits_writeField_below _ _ _ _ _ _ _ _ (h f hf), hacc]

/-- The bits of ARR_PROG below NEXT_LEN are read-only or reserved. -/
theorem State.merged_arrProg_low (w : Nat) : bits (s.merged .arrProg a .whole w) 49 0 = bits (s.r .arrProg a) 49 0 :=
  s.merged_below .arrProg a w 49 0 (by simp [Reg.fieldsAt, Reg.fields])

theorem abort_sets (ha : a < 34) (acc : s.accepts .arrCtrl a m .whole (withBit v 63)) :
    exec (.abort m a v) s = .next ((s.wrote a (withBit v 63) .arrCtrl).abortSet a) := by
  rw [exec_abort, execAbort, State.isArray_of_lt ha, unit_true, State.regWrite_whole s .arrCtrl a _ m acc (by decide)
    (by simp [State.hitsLock, Reg.fieldsAt, Reg.fields]) rfl, State.afterWrite, bit_withBit, if_pos rfl]

theorem arrSatcfgWrite_restarts (ha : a < 34) (acc : s.accepts .arrSatcfg a m .whole v.toNat) :
    exec (.arrSatcfgWrite m a v) s = .next ((s.wrote a v.toNat .arrSatcfg).setR .arrSatwin a 0) := by
  rw [exec_arrSatcfgWrite, execArrSatcfgWrite, State.isArray_of_lt ha, unit_true, State.regWrite_whole s .arrSatcfg a _ m acc
    (by decide) (by simp [State.hitsLock, Reg.fieldsAt, Reg.fields]) rfl, State.afterWrite]

end

/-! ### An array that is aborted -/

section
variable (s : State) (a : Nat)

theorem State.mouldFree_arr_ne (lo n b : Nat) (hb : b ≠ a) : (s.mouldFree a lo n).arr b = s.arr b := by
  unfold State.mouldFree State.mouldWrite
  rw [State.modArr_arr, if_neg hb]
  rfl

theorem State.dropAsync_arr_ne (b : Nat) (hb : b ≠ a) : (s.dropAsync a).arr b = s.arr b := by
  unfold State.dropAsync
  rw [State.modArr_arr, if_neg hb]
  exact State.each_keeps (P := fun t => t.arr b = s.arr b) rfl fun t r _ h => (t.mouldFree_arr_ne a _ _ b hb).trans h

theorem State.endStall_arr (b : Nat) : (s.endStall a).arr b = s.arr b := by
  unfold State.endStall
  split
  · dsimp only
    rw [State.incWrap_arr]
    rfl
  · rfl

/-- An aborted array holds no accumulators and no streams; no other array has changed. -/
theorem State.abortArr_arr : ((s.abortArr a).arr a).accum = [] ∧ ((s.abortArr a).arr a).streams = []
    ∧ ∀ b, b ≠ a → (s.abortArr a).arr b = s.arr b := by
  unfold State.abortArr
  refine ⟨?_, ?_, fun b hb => ?_⟩
  · rw [State.setF_arr, State.modArr_arr, if_pos rfl, ArraySt.discard]
  · rw [State.setF_arr, State.modArr_arr, if_pos rfl, ArraySt.discard]
  · rw [State.setF_arr, State.modArr_arr, if_neg hb, State.dropAsync_arr_ne _ _ _ hb, State.endStall_arr]

theorem State.leaves_abortArr : Leaves [.arrays, .freeCtr] (fun g i => (g = .arrStatus ∨ g = .arrPerf) ∧ i = a) s (s.abortArr a) :=
  .abortArr (.refl _ _ s) ⟨.inr rfl, rfl⟩ ⟨.inl rfl, rfl⟩

end

/-- R63: ABORT of a running single execution. -/
theorem State.abortSet_running (s : State) (a : Nat) (r : RunJob) (x : Job) (goes : s.f ARR_STATUS.STATE a ≠ 3)
    (job : (s.arr a).job = some r) (single : r.role = .single) (hx : s.job r.job = some x) (runs : x.phase = .running) :
    (s.abortSet a).f ARR_STATUS.STATE a = 3 ∧ (s.abortSet a).job r.job = some (x.over stAborted none)
      ∧ (∀ q ∈ ((s.abortSet a).flask r.flask).tiles, q.job ≠ r.job)
      ∧ ((s.abortSet a).arr a).accum = [] ∧ ((s.abortSet a).arr a).streams = []
      ∧ (∀ b, b ≠ a → (s.abortSet a).arr b = s.arr b)
      ∧ Leaves [.arrays, .flasks, .jobs, .freeCtr] (fun g i => (g = .arrStatus ∨ g = .arrPerf) ∧ i = a) s (s.abortSet a) := by
  have aborts : s.abortSet a = ((s.endJob r.job stAborted none).dropTiles r.flask r.job).abortArr a := by
    unfold State.abortSet
    dsimp only
    rw [job]
    dsimp only
    rw [if_neg goes, single]
  have ended : Leaves [.flasks, .jobs] noReg s ((s.endJob r.job stAborted none).dropTiles r.flask r.job) :=
    .dropTiles (.endJob (.refl _ _ s))
  have jobs : ((s.endJob r.job stAborted none).dropTiles r.flask r.job).job r.job = some (x.over stAborted none) := by
    rw [State.dropTiles, State.modFlask_job]
    exact (JobTo.of_endJob stAborted none hx (by rw [runs]; decide)).1
  have tiles : ∀ q ∈ (((s.endJob r.job stAborted none).dropTiles r.flask r.job).flask r.flask).tiles, q.job ≠ r.job :=
    fun q hq => ((State.mem_dropTiles _ _ _ _).mp hq).2
  rw [aborts]
  generalize (s.endJob r.job stAborted none).dropTiles r.flask r.job = u at ended jobs tiles
  have stop := u.leaves_abortArr a
  obtain ⟨accum, streams, others⟩ := u.abortArr_arr a
  refine ⟨u.abortArr_state a, (State.job_of_jobs (stop.1 .jobs (by simp)) _).trans jobs, ?_, accum, streams,
    fun b hb => (others b hb).trans (ended.arr_same (by simp) b),
    (ended.mono (by simp) fun _ _ no => no.elim).trans (stop.mono (by simp) fun _ _ h => h)⟩
  rw [State.flask, stop.1 .flasks (by simp)]
  exact tiles

/-- On an idle array ABORT clears at once. -/
theorem State.abortSet_idle (s : State) (a : Nat) (goes : s.f ARR_STATUS.STATE a ≠ 3) (idle : (s.arr a).job = none) :
    s.abortSet a = s.setF ARR_CTRL.ABORT a 0 := by
  unfold State.abortSet
  dsimp only
  rw [idle]
  dsimp only
  rw [if_neg goes]

/-- An array whose abort is complete: charged, ABORT clear, and nothing outstanding. -/
def State.abortCleared (s : State) (a : Nat) : State :=
  ((s.chargeRun a).setF ARR_CTRL.ABORT a 0).modArr a fun x => { x with async := [] }

/-- The registers that the completion of an abort moves before the boundary. -/
abbrev clearRegs (a : Nat) : Reg → Nat → Prop := fun g i => g = .arrCtrl ∧ i = a ∨ g = .sysFlshare

theorem State.abortCleared_keeps (s : State) (a : Nat) :
    (s.abortCleared a).fb ARR_CTRL.ABORT a = false ∧ ((s.abortCleared a).arr a).async = []
      ∧ ((s.abortCleared a).arr a).job.isSome = (s.arr a).job.isSome
      ∧ ((s.abortCleared a).arr a).withdrawDue = (s.arr a).withdrawDue
      ∧ ((s.abortCleared a).arr a).testBarDue = (s.arr a).testBarDue
      ∧ (∀ b, b ≠ a → (s.abortCleared a).arr b = s.arr b)
      ∧ (∀ x : Fld, x.reg = .arrProg ∨ x.reg = .arrStatus → (s.abortCleared a).f x a = s.f x a)
      ∧ Leaves [.arrays, .flasks, .jobs] (clearRegs a) s (s.abortCleared a) := by
  have charged := Charged.chargeRun s a
  have fields := charged.here.1
  have arr : (s.abortCleared a).arr a = { (s.chargeRun a).arr a with async := [] } := by
    rw [State.abortCleared, State.modArr_arr, if_pos rfl, State.setF_arr]
  refine ⟨?_, by rw [arr], by rw [arr]; exact charged.here.2, by rw [arr]; rw [fields], by rw [arr]; rw [fields], fun b hb => ?_,
    fun x hx => ?_, ?_⟩
  · rw [State.abortCleared, State.fb_eq, State.modArr_f, State.setF_f_same _ _ _ _ (by decide), Nat.zero_mod]
    rfl
  · rw [State.abortCleared, State.modArr_arr, if_neg hb, State.setF_arr, charged.others b hb]
  · rw [State.abortCleared, State.modArr_f, State.setF_f_apart _ _ _ _ _ _ (by decide), State.chargeRun_f]
    · rcases hx with e | e <;> rw [e] <;> decide
    · exact .inl (by rcases hx with e | e <;> rw [e] <;> decide)
  · exact .modArr (.setF ((s.leaves_chargeRun a).mono (fun _ h => h) fun _ _ h => .inr h) (.inl ⟨rfl, rfl⟩))

/-- The completion of an abort of an array outside a pair: it passes its boundary, where no program waits. -/
theorem abortComplete_idle (s : State) (a : Nat) (ha : a < 34) (aborting : s.f ARR_STATUS.STATE a = 3)
    (finished : ∀ o ∈ (s.arr a).async, o.finished = true) (owned : s.f ARR_STATUS.FLASK a ≠ 15)
    (stays : (s.arr a).withdrawDue = none) (nobar : (s.arr a).testBarDue = false) (empty : s.fb ARR_PROG.NEXT_VALID a = false)
    (alone : s.pairOf false a = none) :
    ∃ t, exec (.abortComplete a) s = .next t ∧ t.fb ARR_CTRL.ABORT a = false ∧ t.f ARR_STATUS.STATE a = 0
      ∧ t.fb ARR_PROG.CUR_VALID a = false ∧ (t.arr a).job = none ∧ (t.arr a).async = []
      ∧ (∀ b, b ≠ a → t.arr b = s.arr b)
      ∧ Leaves [.arrays, .flasks, .jobs]
          (fun g i => (g = .arrCtrl ∨ g = .arrProg ∨ g = .arrStatus) ∧ i = a ∨ g = .sysFlshare) s t := by
  obtain ⟨abort, -, -, withdraw, bar, others, status, leaves⟩ := s.abortCleared_keeps a
  have all : ((s.arr a).async.all fun o => o.finished) = true := by simpa using finished
  have pair : (s.abortCleared a).pairOf false a = none := by
    rw [State.pairOf, leaves.1 .pairs (by simp)]
    exact alone
  have done : abortDone a s = ((s.abortCleared a).modArr a fun x => { x with job := none, slice := none }).passBoundary a := by
    unfold abortDone
    rw [aborting, all, if_pos (by rfl)]
    unfold State.abortCleared at pair status ⊢
    dsimp only
    rw [pair]
    dsimp only
    rw [if_neg (by rw [status ARR_STATUS.FLASK (.inr rfl)]; exact owned)]
  generalize s.abortCleared a = u at *
  have set := OnlyArray.of_modArr u a fun x => { x with job := none, slice := none }
  have stateU : (u.modArr a fun x => { x with job := none, slice := none }).f ARR_STATUS.STATE a = 3 := by
    rw [State.modArr_f, status _ (.inr rfl), aborting]
  have validU : (u.modArr a fun x => { x with job := none, slice := none }).fb ARR_PROG.NEXT_VALID a = false := by
    rw [State.fb_eq, State.modArr_f, status _ (.inl rfl)]
    exact empty
  have abortU : (u.modArr a fun x => { x with job := none, slice := none }).fb ARR_CTRL.ABORT a = false := by
    rw [State.fb_eq, State.modArr_f]
    exact abort
  have withdrawU : ((u.modArr a fun x => { x with job := none, slice := none }).arr a).withdrawDue = none := by
    rw [set.1, withdraw, stays]
  have barU : ((u.modArr a fun x => { x with job := none, slice := none }).arr a).testBarDue = false := by
    rw [set.1, bar, nobar]
  have leavesU : Leaves [.arrays, .flasks, .jobs] (clearRegs a) s (u.modArr a fun x => { x with job := none, slice := none }) :=
    .modArr leaves
  have othersU : ∀ b, b ≠ a → (u.modArr a fun x => { x with job := none, slice := none }).arr b = s.arr b := fun b hb =>
    (set.2.1 b hb).trans (others b hb)
  generalize (u.modArr a fun x => { x with job := none, slice := none }) = v at *
  have calm : v.boundaryWithdraw a = v := by rw [State.boundaryWithdraw, withdrawU]
  have passes : v.passBoundary a = v.takeProgram a := by
    unfold State.passBoundary
    dsimp only
    rw [calm, barU, stateU]
    simp
  obtain ⟨cur, state, arr, boundary⟩ := v.takeProgram_idle a validU
  have here := arr a
  rw [if_pos rfl] at here
  refine ⟨v.takeProgram a, ?_, ?_, state, cur, by rw [here], by rw [here]; rfl, fun b hb => ?_, ?_⟩
  · rw [exec_abortComplete, execAbortComplete, State.isArray_of_lt ha, unit_true, done, passes]
  · rw [State.fb_eq, boundary.f_same ARR_CTRL.ABORT a (by rintro ⟨h | h, -⟩ <;> cases h)]
    exact abortU
  · rw [arr b, if_neg hb, othersU b hb]
  · refine (leavesU.mono (fun _ h => h) fun g i h => ?_).trans (boundary.mono (by simp) fun g i h => ?_)
    · exact h.imp (fun h => ⟨.inl h.1, h.2⟩) id
    · exact .inl ⟨.inr h.1, h.2⟩

/-- The completion of an abort in a pair that is still to be decided: the array holds with its program. -/
theorem abortComplete_pair (s : State) (a : Nat) (p : Pair) (ha : a < 34) (aborting : s.f ARR_STATUS.STATE a = 3)
    (finished : ∀ o ∈ (s.arr a).async, o.finished = true) (hp : s.pairOf false a = some p) (phase : p.phase ≠ .reexec) :
    ∃ t, exec (.abortComplete a) s = .next t ∧ t.fb ARR_CTRL.ABORT a = false ∧ t.f ARR_STATUS.STATE a = 0
      ∧ (t.arr a).held = true ∧ (t.arr a).job.isSome = (s.arr a).job.isSome
      ∧ t.fb ARR_PROG.CUR_VALID a = s.fb ARR_PROG.CUR_VALID a ∧ t.f ARR_PROG.CUR_HALF a = s.f ARR_PROG.CUR_HALF a := by
  obtain ⟨abort, -, job, -, -, -, status, leaves⟩ := s.abortCleared_keeps a
  have all : ((s.arr a).async.all fun o => o.finished) = true := by simpa using finished
  have pair : (s.abortCleared a).pairOf false a = some p := by
    rw [State.pairOf, leaves.1 .pairs (by simp)]
    exact hp
  have done : abortDone a s = ((s.abortCleared a).modArr a fun x => { x with held := true }).setF ARR_STATUS.STATE a 0 := by
    unfold abortDone
    rw [aborting, all, if_pos (by rfl)]
    unfold State.abortCleared at pair ⊢
    dsimp only
    rw [pair]
    dsimp only
    rw [if_neg (by simp [phase])]
  generalize s.abortCleared a = u at *
  refine ⟨(u.modArr a fun x => { x with held := true }).setF ARR_STATUS.STATE a 0, ?_, ?_, ?_, ?_, ?_, ?_, ?_⟩
  · rw [exec_abortComplete, execAbortComplete, State.isArray_of_lt ha, unit_true, done]
  · rw [State.fb_eq, State.setF_f_apart _ _ _ _ _ _ (by decide) (by decide), State.modArr_f]
    exact abort
  · rw [State.setF_f_same _ _ _ _ (by decide), Nat.zero_mod]
  · rw [State.setF_arr, State.modArr_arr, if_pos rfl]
  · rw [State.setF_arr, State.modArr_arr, if_pos rfl]
    exact job
  · rw [State.fb_eq, State.fb_eq, State.setF_f_apart _ _ _ _ _ _ (by decide) (by decide), State.modArr_f, status _ (.inl rfl)]
  · rw [State.setF_f_apart _ _ _ _ _ _ (by decide) (by decide), State.modArr_f, status _ (.inl rfl)]

theorem abortComplete_waits (s : State) (a : Nat) (ha : a < 34)
    (wait : s.f ARR_STATUS.STATE a ≠ 3 ∨ ∃ o ∈ (s.arr a).async, o.finished = false) : exec (.abortComplete a) s = .next s := by
  rw [exec_abortComplete, execAbortComplete, State.isArray_of_lt ha, unit_true, abortDone, if_neg]
  simp only [Bool.and_eq_true, decide_eq_true_eq, List.all_eq_true, not_and]
  intro aborting all
  rcases wait with h | ⟨o, ho, open_⟩
  · exact h aborting
  · rw [all o ho] at open_
    cases open_

/-- Settles O27: taken writes of the array registers set what they write and start what they say; the completion of an
abort clears ABORT and passes the boundary, or holds for the pair. -/
theorem arrayRegistersControlTheArray : Obligations.ArrayRegistersControlTheArray := by
  refine ⟨fun s m a v ha acc => ?_, fun s m a v r x ha acc goes job single hx runs => ?_, fun s m a v ha acc goes idle => ?_,
    abortComplete_idle, abortComplete_pair, abortComplete_waits, fun s m a v ha acc => ?_⟩
  · refine ⟨_, nextValidSet_sets s m a v ha acc, ?_, ?_, ?_, ?_, s.leaves_wrote a _ _⟩
    · exact s.wrote_w1s a _ ARR_PROG.NEXT_VALID rfl (by simp [Reg.fieldsAt, Reg.fields, ARR_PROG.NEXT_VALID]) (bit_withBit v 63)
    · exact (s.wrote_rw a _ ARR_PROG.NEXT_HALF (by simp [Reg.fieldsAt, Reg.fields, ARR_PROG.NEXT_HALF])).trans
        (bits_withBit_below v _ _ (by decide))
    · exact (s.wrote_rw a _ ARR_PROG.NEXT_LEN (by simp [Reg.fieldsAt, Reg.fields, ARR_PROG.NEXT_LEN])).trans
        (bits_withBit_below v _ _ (by decide))
    · rw [State.wrote, State.setR_r, if_pos ⟨rfl, rfl⟩, Nat.mod_eq_of_lt (s.merged_lt _ _ _ _)]
      exact s.merged_arrProg_low a _
  · have written := s.leaves_wrote a (withBit v 63) .arrCtrl
    have on : (s.wrote a (withBit v 63) .arrCtrl).fb ARR_CTRL.ABORT a = true :=
      s.wrote_w1s a _ ARR_CTRL.ABORT rfl (by simp [Reg.fieldsAt, Reg.fields, ARR_CTRL.ABORT]) (bit_withBit v 63)
    obtain ⟨state, ended, tiles, accum, streams, others, leaves⟩ := State.abortSet_running (s.wrote a (withBit v 63) .arrCtrl) a r x
      (by rw [s.wrote_f a _ _ _ _ (by decide)]; exact goes) ((congrArg ArraySt.job (written.arr_same (by simp) a)).trans job) single
      ((State.job_of_jobs (written.1 .jobs (by simp)) _).trans hx) runs
    refine ⟨_, abort_sets s m a v ha acc, state, ?_, ended, tiles, accum, streams,
      fun b hb => (others b hb).trans (written.arr_same (by simp) b), ?_⟩
    · rw [State.fb_eq, leaves.f_same ARR_CTRL.ABORT a (by rintro ⟨h | h, -⟩ <;> cases h)]
      exact on
    · exact (written.mono (by simp) fun _ _ h => ⟨.inl h.1, h.2⟩).trans (leaves.mono (fun _ h => h) fun _ _ h => ⟨.inr h.1, h.2⟩)
  · have written := s.leaves_wrote a (withBit v 63) .arrCtrl
    have cleared := State.abortSet_idle (s.wrote a (withBit v 63) .arrCtrl) a
      (by rw [s.wrote_f a _ _ _ _ (by decide)]; exact goes) ((congrArg ArraySt.job (written.arr_same (by simp) a)).trans idle)
    refine ⟨_, (abort_sets s m a v ha acc).trans (by rw [cleared]), ?_, ?_, .setF written ⟨rfl, rfl⟩⟩
    · rw [State.fb_eq, State.setF_f_same _ _ _ _ (by decide), Nat.zero_mod]
      rfl
    · rw [State.setF_f_apart _ _ _ _ _ _ (by decide) (by decide)]
      exact (s.wrote_rw a _ ARR_CTRL.WDOG_NS (by simp [Reg.fieldsAt, Reg.fields, ARR_CTRL.WDOG_NS])).trans
        (bits_withBit_below v _ _ (by decide))
  · have apart : ∀ x : Fld, x.reg = .arrSatcfg → (x.hi, x.lo, FKind.rw) ∈ x.reg.fieldsAt a →
        ((s.wrote a v.toNat .arrSatcfg).setR .arrSatwin a 0).f x a = bits v.toNat x.hi x.lo := fun x hx hm => by
      have same : Leaves [] (oneReg .arrSatwin a) (s.wrote a v.toNat .arrSatcfg)
        ((s.wrote a v.toNat .arrSatcfg).setR .arrSatwin a 0) := .setR (.refl _ _ _) ⟨rfl, rfl⟩
      rw [same.f_same x a (by rw [hx]; rintro ⟨h, -⟩; cases h), ← hx, s.wrote_rw a _ x hm]
    refine ⟨_, arrSatcfgWrite_restarts s m a v ha acc, ?_, ?_, ?_, ?_, .setR ((s.leaves_wrote a _ _).mono (fun _ h => h)
      fun _ _ h => ⟨.inl h.1, h.2⟩) ⟨.inr rfl, rfl⟩⟩
    · rw [State.fb_eq, apart _ rfl (by simp [Reg.fieldsAt, Reg.fields, ARR_SATCFG.EN])]
      rfl
    · exact apart _ rfl (by simp [Reg.fieldsAt, Reg.fields, ARR_SATCFG.WIN_LOG2])
    · exact apart _ rfl (by simp [Reg.fieldsAt, Reg.fields, ARR_SATCFG.THRESH])
    · rw [State.setR_r, if_pos ⟨rfl, rfl⟩, Nat.zero_mod]

end Sys2Proof.Machine
end

section
/-! PROOFS. The order of values (R105): the largest of a list by the comparison with +0 above −0. -/

set_option Elab.async false

namespace Sys2Proof.Machine

/-- The value of a finite operand of a comparison. -/
def finVal (neg : Bool) (m : Nat) (e : Int) : ℚ := (if neg then -1 else 1) * m * 2 ^ e

theorem finVal_eq_zero (neg : Bool) (m : Nat) (e : Int) : finVal neg m e = 0 ↔ m = 0 := by
  have : (2 : ℚ) ^ e ≠ 0 := by positivity
  unfold finVal
  cases neg <;> simp [this]

/-- Scaling two operands to one exponent keeps their order. -/
theorem scaled_lt_iff (n1 n2 : Bool) (m1 m2 : Nat) (e1 e2 : Int) :
    ((if n1 then -((m1 * 2 ^ (e1 - min e1 e2).toNat : Nat) : Int) else ((m1 * 2 ^ (e1 - min e1 e2).toNat : Nat) : Int))
      < (if n2 then -((m2 * 2 ^ (e2 - min e1 e2).toNat : Nat) : Int) else ((m2 * 2 ^ (e2 - min e1 e2).toNat : Nat) : Int)))
      ↔ finVal n1 m1 e1 < finVal n2 m2 e2 := by
  have pos : (0 : ℚ) < 2 ^ min e1 e2 := by positivity
  have scale : ∀ (n : Bool) (m : Nat) (e : Int), min e1 e2 ≤ e →
      finVal n m e = ((if n then -((m * 2 ^ (e - min e1 e2).toNat : Nat) : Int)
        else ((m * 2 ^ (e - min e1 e2).toNat : Nat) : Int) : Int) : ℚ) * 2 ^ min e1 e2 := by
    intro n m e h
    have split : (2 : ℚ) ^ e = 2 ^ (e - min e1 e2).toNat * 2 ^ min e1 e2 := by
      rw [← zpow_natCast, Int.toNat_of_nonneg (by omega), ← zpow_add₀ (by norm_num)]
      congr 1
      omega
    unfold finVal
    rw [split]
    cases n <;> simp <;> ring
  rw [scale n1 m1 e1 (min_le_left _ _), scale n2 m2 e2 (min_le_right _ _), mul_lt_mul_iff_left₀ pos, Int.cast_lt]

theorem fvLt_fin (n1 n2 : Bool) (m1 m2 : Nat) (e1 e2 : Int) : fvLt true (.fin n1 m1 e1) (.fin n2 m2 e2) = true
    ↔ (m1 = 0 ∧ m2 = 0 ∧ n1 = true ∧ n2 = false) ∨ finVal n1 m1 e1 < finVal n2 m2 e2 := by
  have order := scaled_lt_iff n1 n2 m1 m2 e1 e2
  unfold fvLt
  dsimp only
  by_cases zero : m1 = 0 ∧ m2 = 0
  · obtain ⟨rfl, rfl⟩ := zero
    have same : ¬ finVal n1 0 e1 < finVal n2 0 e2 := by
      rw [(finVal_eq_zero n1 0 e1).mpr rfl, (finVal_eq_zero n2 0 e2).mpr rfl]
      exact lt_irrefl _
    simp [same]
  · rw [if_neg (by simpa using zero), decide_eq_true_iff, order]
    exact ⟨.inr, fun h => h.resolve_left fun h => zero ⟨h.1, h.2.1⟩⟩

/-- The order of values with +0 above −0 is strict. -/
theorem fvLt_irrefl (a : FV) : fvLt true a a = false := by
  cases a with
  | nan => rfl
  | inf n => cases n <;> rfl
  | fin n m e =>
    rw [Bool.eq_false_iff, ne_eq, fvLt_fin]
    rintro (⟨-, -, h, g⟩ | h)
    · rw [h] at g
      cases g
    · exact lt_irrefl _ h

theorem fvLt_trans (a b c : FV) (h : fvLt true a b = true) (g : fvLt true b c = true) : fvLt true a c = true := by
  cases a with
  | nan => cases h
  | inf n1 =>
    cases b with
    | nan => cases h
    | inf n2 =>
      cases c with
      | nan => cases g
      | inf n3 => simp_all [fvLt]
      | fin => simp_all [fvLt]
    | fin =>
      cases c with
      | nan => cases g
      | inf n3 => simp_all [fvLt]
      | fin => simp_all [fvLt]
  | fin n1 m1 e1 =>
    cases b with
    | nan => cases h
    | inf n2 =>
      cases c with
      | nan => cases g
      | inf n3 => simp_all [fvLt]
      | fin => simp_all [fvLt]
    | fin n2 m2 e2 =>
      cases c with
      | nan => cases g
      | inf n3 => simpa [fvLt] using g
      | fin n3 m3 e3 =>
        rw [fvLt_fin] at h g ⊢
        rcases h with ⟨z1, z2, s1, s2⟩ | h
        · rcases g with ⟨-, -, s2', -⟩ | g
          · rw [s2] at s2'
            cases s2'
          · rw [(finVal_eq_zero n2 m2 e2).mpr z2] at g
            rw [(finVal_eq_zero n1 m1 e1).mpr z1]
            exact .inr g
        · rcases g with ⟨z2, z3, -, -⟩ | g
          · rw [(finVal_eq_zero n2 m2 e2).mpr z2] at h
            rw [(finVal_eq_zero n3 m3 e3).mpr z3]
            exact .inr h
          · exact .inr (h.trans g)

/-- The running largest value of a list, from `m` on. -/
def largest (m : Nat) (vs : List Nat) : Nat := vs.foldl (fun m c => if fvLt true (ofF32 m) (ofF32 c) then c else m) m

theorem largest_spec (vs : List Nat) (m : Nat) : (largest m vs = m ∨ largest m vs ∈ vs)
    ∧ (largest m vs = m ∨ fvLt true (ofF32 m) (ofF32 (largest m vs)) = true)
    ∧ ∀ v ∈ vs, fvLt true (ofF32 (largest m vs)) (ofF32 v) = false := by
  induction vs generalizing m with
  | nil => exact ⟨.inl rfl, .inl rfl, nofun⟩
  | cons c vs ih =>
    have step : largest m (c :: vs) = largest (if fvLt true (ofF32 m) (ofF32 c) then c else m) vs := rfl
    rw [step]
    cases less : fvLt true (ofF32 m) (ofF32 c)
    · rw [if_neg (by decide)]
      obtain ⟨found, above, top⟩ := ih m
      refine ⟨found.imp id (List.mem_cons_of_mem _), above, fun v hv => ?_⟩
      rcases List.mem_cons.mp hv with rfl | hv
      · rcases above with same | up
        · rw [same]
          exact less
        · rw [Bool.eq_false_iff]
          intro h
          rw [fvLt_trans _ _ _ up h] at less
          cases less
      · exact top v hv
    · rw [if_pos rfl]
      obtain ⟨found, above, top⟩ := ih c
      refine ⟨?_, ?_, fun v hv => ?_⟩
      · rcases found with same | inside
        · exact .inr (by rw [same]; exact List.mem_cons_self)
        · exact .inr (List.mem_cons_of_mem _ inside)
      · rcases above with same | up
        · rw [same]
          exact .inr less
        · exact .inr (fvLt_trans _ _ _ less up)
      · rcases List.mem_cons.mp hv with rfl | hv
        · rcases above with same | up
          · rw [same]
            exact fvLt_irrefl _
          · rw [Bool.eq_false_iff]
            intro h
            have loop := fvLt_trans _ _ _ up h
            rw [fvLt_irrefl] at loop
            cases loop
        · exact top v hv

theorem poolMax_nan (vs : List Nat) (h : ∃ v ∈ vs, ofF32 v = .nan) : poolMax vs = nan32 := by
  rw [poolMax, if_pos]
  simpa using h

theorem poolMax_largest (vs : List Nat) (some : vs ≠ []) (h : ∀ v ∈ vs, ofF32 v ≠ .nan) :
    poolMax vs ∈ vs ∧ ∀ v ∈ vs, fvLt true (ofF32 (poolMax vs)) (ofF32 v) = false := by
  have plain : poolMax vs = largest (vs.headD 0) vs := by
    rw [poolMax, if_neg]
    · rfl
    · simpa using h
  obtain ⟨found, -, top⟩ := largest_spec vs (vs.headD 0)
  rw [plain]
  refine ⟨?_, top⟩
  rcases found with same | inside
  · rw [same]
    cases vs with
    | nil => exact absurd rfl some
    | cons v vs => exact List.mem_cons_self
  · exact inside

end Sys2Proof.Machine
end

section
/-! PROOFS. What the reads and writes of the vector path leave (R91, R103 to R105): at most what an access may change. -/

set_option Elab.async false

namespace Sys2Proof.Machine

section
variable {b s : State}

theorem Accessed.of_eq {α : Type} {p : α × State} {a : α} (e : p = (a, s)) (h : Accessed b p.2) : Accessed b s := Leaves.of_eq e h

theorem Accessed.fresh (h : Accessed b s) : Accessed b s.fresh.2 := h.trans (accessed_fresh s)

theorem Accessed.rsThen {α β : Type} {r : Rs α} {g : α → State → Rs β} (h : Accessed b r.2)
    (hg : ∀ x t, Accessed b t → Accessed b (g x t).2) : Accessed b (r.andThen g).2 := by
  unfold Rs.andThen
  split
  · exact hg _ _ h
  · exact h

theorem Accessed.rdThen {α β : Type} {r : Rd α} {g : α → State → Rd β} (h : Accessed b r.2)
    (hg : ∀ x t, Accessed b t → Accessed b (g x t).2) : Accessed b (r.andThen g).2 := by
  unfold Rd.andThen
  split
  · exact hg _ _ h
  · exact h

theorem Accessed.rdBytes {inst va n : Nat} (h : Accessed b s) : Accessed b (rdBytes inst va n s).2 := by
  unfold Machine.rdBytes
  split
  · rename_i e
    exact h.instRead.of_eq e
  · rename_i e
    exact h.instRead.of_eq e

theorem Accessed.readAll {α β : Type} {g : α → State → Rd β} {xs : List α} (h : Accessed b s)
    (hg : ∀ x t, Accessed b t → Accessed b (g x t).2) : Accessed b (readAll g xs s).2 := by
  induction xs generalizing s with
  | nil => exact h
  | cons x xs ih =>
    unfold Machine.readAll
    split
    · rename_i e
      exact (hg x s h).of_eq e
    · rename_i e
      have h₁ := ih ((hg x s h).of_eq e)
      split <;> (rename_i e'; exact h₁.of_eq e')

theorem Accessed.readPixel {r : ConvRec} {inst n y x c0 cnt : Nat} (h : Accessed b s) :
    Accessed b (readPixel r inst n y x c0 cnt s).2 := by
  unfold Machine.readPixel
  dsimp only
  split
  · rename_i e
    exact (h.readAll (fun _ _ h₁ => h₁.rdBytes)).of_eq e
  · rename_i e
    exact (h.readAll (fun _ _ h₁ => h₁.rdBytes)).of_eq e

theorem Accessed.readScales {r : ConvRec} {inst n y x c0 cnt : Nat} (h : Accessed b s) :
    Accessed b (readScales r inst n y x c0 cnt s).2 := by
  unfold Machine.readScales
  refine .readAll h ?_
  intro _ _ h₁
  split
  · rename_i e
    exact h₁.rdBytes.of_eq e
  · rename_i e
    exact h₁.rdBytes.of_eq e

theorem Accessed.passRow {r : ConvRec} {inst p n : Nat} {y x : Int} (h : Accessed b s) : Accessed b (passRow r inst p n y x s).2 := by
  unfold Machine.passRow
  refine .iteSnd h ?_
  split
  · rename_i e
    exact h.readPixel.of_eq e
  · rename_i e
    split
    · rename_i e₁
      exact ((h.readPixel.of_eq e).readScales).of_eq e₁
    · rename_i e₁
      exact ((h.readPixel.of_eq e).readScales).of_eq e₁

theorem Accessed.writeAll {inst : Nat} {ps : List (Nat × List Byte)} (h : Accessed b s) : Accessed b (writeAll inst ps s).2 := by
  induction ps generalizing s with
  | nil => exact h
  | cons p ps ih =>
    unfold Machine.writeAll
    split
    · rename_i e
      exact ih (h.instWrite.of_eq e)
    · exact h.instWrite

theorem Accessed.vBytes {inst va n : Nat} (h : Accessed b s) : Accessed b (vBytes inst va n s).2 := by
  unfold Machine.vBytes
  split
  · rename_i e
    exact h.instRead.of_eq e
  · rename_i e
    exact h.instRead.of_eq e

theorem Accessed.vAll {α β : Type} {g : α → State → Rs β} {xs : List α} (h : Accessed b s)
    (hg : ∀ x t, Accessed b t → Accessed b (g x t).2) : Accessed b (vAll g xs s).2 := by
  induction xs generalizing s with
  | nil => exact h
  | cons x xs ih => exact .rsThen (hg x s h) fun _ _ h₁ => .rsThen (ih h₁) fun _ _ h₂ => h₂

theorem Accessed.vScale {inst va : Nat} (h : Accessed b s) : Accessed b (vScale inst va s).2 :=
  h.vBytes.rsThen (fun _ _ h₁ => .iteSnd h₁ h₁)

theorem Accessed.vInput {r : ConvRec} {inst n y x c : Nat} (h : Accessed b s) : Accessed b (vInput r inst n y x c s).2 :=
  h.vBytes.rsThen (fun _ _ h₁ => h₁.vScale.rsThen (fun _ _ h₂ => h₂))

theorem Accessed.vWeight {r : ConvRec} {inst co ky kx ci : Nat} (h : Accessed b s) : Accessed b (vWeight r inst co ky kx ci s).2 :=
  h.vBytes.rsThen (fun _ _ h₁ => h₁.vScale.rsThen (fun _ _ h₂ => h₂))

theorem Accessed.groupedElem {r : ConvRec} {inst n oy ox co : Nat} (h : Accessed b s) :
    Accessed b (groupedElem r inst n oy ox co s).2 :=
  (h.vAll (fun _ _ h₁ => .iteSnd h₁ (h₁.vInput.rsThen (fun _ _ h₂ => h₂.vWeight.rsThen (fun _ _ h₃ => h₃))))).rsThen
      (fun _ _ h₁ => h₁)

theorem Accessed.poolWindow {r : ConvRec} {inst n oy ox c : Nat} (h : Accessed b s) : Accessed b (poolWindow r inst n oy ox c s).2 :=
  h.vAll (fun _ _ h₁ => .iteSnd h₁ (h₁.vInput.rsThen (fun _ _ h₂ => h₂)))

theorem Accessed.vFree (h : Accessed b s) : Accessed b (vFree s).2 :=
  h.fresh

theorem Accessed.pooledElem {r : ConvRec} {inst n oy ox c : Nat} (h : Accessed b s) :
    Accessed b (pooledElem r inst n oy ox c s).2 := by
  unfold Machine.pooledElem
  refine .rsThen h.poolWindow ?_
  intro _ _ h₁
  split
  · exact .iteSnd h₁.vFree h₁
  · exact h₁
  · exact .iteSnd h₁.vFree h₁

theorem Accessed.cvElem {r : ConvRec} {inst n oy ox co : Nat} (h : Accessed b s) : Accessed b (cvElem r inst n oy ox co s).2 :=
  .iteSnd h.groupedElem h.pooledElem

theorem Accessed.cvRow {r : ConvRec} {inst n oy ox g : Nat} (h : Accessed b s) : Accessed b (cvRow r inst n oy ox g s).2 :=
  h.vAll (fun _ _ h₁ => h₁.cvElem.rsThen (fun _ _ h₂ => .iteSnd (h₂.vBytes.rsThen (fun _ _ h₃ => h₃)) h₂))

theorem Accessed.cvWriteRow {r : ConvRec} {inst n oy g : Nat} {acc : List Int × Bool} {ox : Nat} (h : Accessed b s) :
    Accessed b (cvWriteRow r inst n oy g acc ox s).2 := by
  unfold Machine.cvWriteRow
  refine .rsThen h.cvRow ?_
  intro _ _ h₁
  dsimp only
  split
  · rename_i e
    exact h₁.writeAll.of_eq e
  · rename_i e
    exact h₁.writeAll.of_eq e

theorem Accessed.cvLine {r : ConvRec} {inst n oy g : Nat} {oxs : List Nat} {acc : List Int × Bool} (h : Accessed b s) :
    Accessed b (cvLine r inst n oy g oxs acc s).2 := by
  induction oxs generalizing s acc with
  | nil => exact h
  | cons ox oxs ih => exact .rsThen h.cvWriteRow fun _ _ h₁ => ih h₁

theorem Accessed.convRow {x : Job} {n oy : Nat} (h : Accessed b s) : Accessed b (convRow x n oy s).2 :=
  (h.vAll (fun _ _ h₁ => h₁.cvLine)).rsThen (fun _ _ h₁ => h₁)

theorem Accessed.expandCell {x : Job} {c : Nat × Nat × Nat × Nat × Nat × Nat} (h : Accessed b s) :
    Accessed b (expandCell x c s).2 := by
  unfold Machine.expandCell
  dsimp only
  split
  · rename_i e
    exact h.passRow.of_eq e
  · rename_i e
    split
    · rename_i e₁
      exact ((h.passRow.of_eq e).writeAll).of_eq e₁
    · rename_i e₁
      exact ((h.passRow.of_eq e).writeAll).of_eq e₁

theorem Accessed.convItem {x : Job} {k : Nat} (h : Accessed b s) : Accessed b (convItem x k s).2 :=
  .iteSnd ((h.vAll (fun _ _ h₁ => h₁.expandCell)).rsThen (fun _ _ h₁ => h₁)) h.convRow

end

end Sys2Proof.Machine
end

section
/-! PROOFS. Items are dealt to the vector engines. -/

set_option Elab.async false

namespace Sys2Proof.Machine

/-- The status register of an engine. -/
def vecStat (r : Reg) (_ : Nat) : Prop := r = .vecStatus

/-- Every job goes on, with no fewer items issued and otherwise as it is. -/
def IssuedOn (s t : State) : Prop := ∀ j x, s.job j = some x → ∃ n, x.issued ≤ n ∧ t.job j = some { x with issued := n }

section
variable {s t u : State}

theorem IssuedOn.of_jobs (h : t.work.jobs = s.work.jobs) : IssuedOn s t :=
  fun _ x hx => ⟨x.issued, Nat.le_refl _, (State.job_of_jobs h _).trans hx⟩

theorem IssuedOn.trans (h : IssuedOn s t) (g : IssuedOn t u) : IssuedOn s u := by
  intro j x hx
  obtain ⟨n, le, hn⟩ := h j x hx
  obtain ⟨m, le', hm⟩ := g j _ hn
  exact ⟨m, Nat.le_trans le le', hm⟩

theorem IssuedOn.of_modJob (k : Nat) : IssuedOn s (s.modJob k fun y => { y with issued := y.issued + 1 }) := by
  intro j x hx
  by_cases e : j = k
  · subst e
    exact ⟨x.issued + 1, Nat.le_succ _, State.modJob_job _ _ (fun y => { y with issued := y.issued + 1 }) (fun _ => rfl) x hx⟩
  · exact ⟨x.issued, Nat.le_refl _, (State.modJob_job_ne _ _ _ (fun y => { y with issued := y.issued + 1 }) (fun _ => rfl) e).trans hx⟩

end

section
variable {ps : List Part} {q : Reg → Nat → Prop} {b s : State}

theorem Leaves.itemStart {x : Job} {i : VItem} (h : Leaves ps q b s) (hp : .freeCtr ∈ ps := by simp) :
    Leaves ps q b (s.itemStart x i).2 := by
  unfold State.itemStart
  split
  · exact .iteSnd h h
  · exact h.fresh hp
  · exact (h.fresh hp).fresh hp
  · exact h

theorem Leaves.giveItem {e : Nat} {i : VItem} (h : Leaves ps q b s) (hq : q .vecStatus e)
    (hp : [.vecs, .freeCtr] ⊆ ps := by simp) : Leaves ps q b (s.giveItem e i) := by
  unfold State.giveItem
  refine .setF (.modVec ?_ (hp (by simp))) hq
  split
  · exact .itemStart h (hp (by simp))
  · exact h

theorem Leaves.dealOne {f e : Nat} (h : Leaves ps q b s) (hq : q .vecStatus e)
    (hp : [.jobs, .vecs, .freeCtr] ⊆ ps := by simp) : Leaves ps q b (s.dealOne f e) := by
  unfold State.dealOne
  refine .ite h ?_
  split
  · exact h
  · exact .modJob (.giveItem h hq fun _ m => hp (.tail _ m)) (hp (by simp))

theorem Leaves.over' {α : Type} {xs : List α} {g : State → α → State} (h : Leaves ps q b s)
    (hg : ∀ x t, Leaves ps q b t → Leaves ps q b (g t x)) : Leaves ps q b (xs.foldl g s) := h.over hg

theorem Leaves.deal {f : Nat} (h : Leaves ps q b s) (hq : ∀ e, q .vecStatus e)
    (hp : [.jobs, .vecs, .freeCtr] ⊆ ps := by simp) : Leaves ps q b (s.deal f) :=
  .ite h (h.over' fun e _ g => g.dealOne (hq e) hp)

end

section
variable (s : State) (e : Nat)

theorem State.giveItem_vec (i : VItem) (k : Nat) :
    ((s.giveItem e i).vec e).item = some i ∧ (k ≠ e → (s.giveItem e i).vec k = s.vec k) := by
  have drawn : ∀ x, (s.itemStart x i).2.vec = s.vec := by
    intro x
    have h := (Leaves.itemStart (ps := [.freeCtr]) (q := noReg) (x := x) (i := i) (.refl _ _ s)).1 .vecs (by simp)
    funext k
    exact congrArg (fun m => NMap.get m {} k) h
  unfold State.giveItem
  split
  rename_i p s1 hp
  have same : s1.vec = s.vec := by
    split at hp
    · rw [← drawn, hp]
    · rw [← (Prod.mk.inj hp).2]
  constructor
  · rw [State.setF_vec, State.modVec_vec, if_pos rfl]
  · intro ne
    rw [State.setF_vec, State.modVec_vec, if_neg ne, same]

theorem State.giveItem_state (i : VItem) : (s.giveItem e i).f VEC_STATUS.STATE e = 1 := by
  unfold State.giveItem
  split
  rw [State.setF_f_same _ VEC_STATUS.STATE e 1 (by decide)]
  rfl

theorem State.dealOne_busy (f : Nat) (busy : s.engFree e = false) : s.dealOne f e = s := by
  rw [State.dealOne, if_pos (by simp [busy])]

/-- A free engine takes an item of the job whose work is next. -/
theorem State.dealOne_gives (f : Nat) (x : Job) (free : s.engFree e = true) (next : s.nextWork f = some x) :
    ∃ k, s.dealOne f e = (s.giveItem e { job := x.id, item := x.issued, startNs := s.now, kind := k }).modJob x.id
          (fun y => { y with issued := y.issued + 1 })
      ∧ (x.opcode = 2 → k = 3) := by
  refine ⟨_, by rw [State.dealOne, if_neg (by simp [free]), next], fun op => ?_⟩
  rw [if_neg (by omega), if_pos op]

theorem IssuedOn.dealOne (f : Nat) : IssuedOn s (s.dealOne f e) := by
  cases free : s.engFree e with
  | false => rw [s.dealOne_busy e f free]; exact .of_jobs rfl
  | true =>
    cases next : s.nextWork f with
    | none => rw [State.dealOne, if_neg (by simp [free]), next]; exact .of_jobs rfl
    | some x =>
      obtain ⟨k, run, -⟩ := s.dealOne_gives e f x free next
      rw [run]
      have leaves := Leaves.giveItem (ps := [.vecs, .freeCtr]) (q := vecStat) (e := e)
        (i := { job := x.id, item := x.issued, startNs := s.now, kind := k }) (.refl _ _ s) rfl
      exact (IssuedOn.of_jobs (leaves.1 .jobs (by simp))).trans (.of_modJob _)

/-- An engine that is not free goes on as it is while engines are dealt. -/
theorem State.dealOne_vec (f k : Nat) (busy : s.engFree e = false) :
    (s.dealOne f k).vec e = s.vec e ∧ (s.dealOne f k).f VEC_STATUS.STATE e = s.f VEC_STATUS.STATE e := by
  cases free : s.engFree k with
  | false => rw [s.dealOne_busy k f free]; exact ⟨rfl, rfl⟩
  | true =>
    cases next : s.nextWork f with
    | none => rw [State.dealOne, if_neg (by simp [free]), next]; exact ⟨rfl, rfl⟩
    | some x =>
      have ne : e ≠ k := fun h => by rw [h, free] at busy; cases busy
      obtain ⟨n, run, -⟩ := s.dealOne_gives k f x free next
      have leaves := Leaves.giveItem (ps := [.vecs, .freeCtr]) (q := oneReg .vecStatus k) (e := k)
        (i := { job := x.id, item := x.issued, startNs := s.now, kind := n }) (.refl _ _ s) ⟨rfl, rfl⟩
      rw [run, State.modJob_vec, State.modJob_f]
      exact ⟨(s.giveItem_vec k _ e).2 ne, leaves.f_same VEC_STATUS.STATE e (fun h => ne h.2)⟩

theorem State.engFree_of_same {s t : State} {e : Nat} (v : t.vec e = s.vec e)
    (st : t.f VEC_STATUS.STATE e = s.f VEC_STATUS.STATE e) : t.engFree e = s.engFree e := by
  unfold State.engFree
  rw [v, st]

theorem IssuedOn.deals (f : Nat) (es : List Nat) : IssuedOn s (es.foldl (State.dealOne f) s) := by
  induction es generalizing s with
  | nil => exact .of_jobs rfl
  | cons k es ih => exact (IssuedOn.dealOne s k f).trans (ih _)

theorem IssuedOn.deal (f : Nat) : IssuedOn s (s.deal f) := by
  unfold State.deal
  split
  · exact .of_jobs rfl
  · exact .deals s f _

theorem State.deals_vec (f : Nat) (es : List Nat) (busy : s.engFree e = false) :
    (es.foldl (State.dealOne f) s).vec e = s.vec e
      ∧ (es.foldl (State.dealOne f) s).f VEC_STATUS.STATE e = s.f VEC_STATUS.STATE e := by
  induction es generalizing s with
  | nil => exact ⟨rfl, rfl⟩
  | cons k es ih =>
    obtain ⟨v, st⟩ := s.dealOne_vec e f k busy
    obtain ⟨v', st'⟩ := ih (s.dealOne f k) (by rw [State.engFree_of_same v st, busy])
    exact ⟨v'.trans v, st'.trans st⟩

theorem State.deals_busy (f : Nat) (es : List Nat) (busy : ∀ k ∈ es, s.engFree k = false) :
    es.foldl (State.dealOne f) s = s := by
  induction es with
  | nil => rfl
  | cons k es ih =>
    rw [List.foldl_cons, s.dealOne_busy k f (busy k (by simp))]
    exact ih fun n hn => busy n (by simp [hn])

/-- No free engine: nothing is dealt. -/
theorem State.deal_none (f : Nat) (none : (s.engines f).find? s.engFree = none) : s.deal f = s := by
  unfold State.deal
  split
  · rfl
  · exact s.deals_busy f _ fun k hk => by simpa using List.find?_eq_none.1 none k hk

/-- The first free engine of a flask takes the next item of the job whose work is next. -/
theorem State.deal_first (f : Nat) (x : Job) (plain : s.timed f = false)
    (first : (s.engines f).find? s.engFree = some e) (next : s.nextWork f = some x) (held : s.job x.id = some x) :
    ∃ k y, ((s.deal f).vec e).item = some { job := x.id, item := x.issued, startNs := s.now, kind := k }
      ∧ (x.opcode = 2 → k = 3) ∧ (s.deal f).f VEC_STATUS.STATE e = 1 ∧ (s.deal f).job x.id = some y ∧ x.issued < y.issued := by
  obtain ⟨free, before, after, split, busy⟩ := List.find?_eq_some_iff_append.1 first
  obtain ⟨k, run, kind⟩ := s.dealOne_gives e f x free next
  rw [State.deal, if_neg (by simp [plain]), split, List.foldl_append,
    s.deals_busy f before fun n hn => by simpa using busy n hn, List.foldl_cons]
  have item : ((s.dealOne f e).vec e).item = some { job := x.id, item := x.issued, startNs := s.now, kind := k } := by
    rw [run, State.modJob_vec]
    exact (s.giveItem_vec e _ e).1
  have state : (s.dealOne f e).f VEC_STATUS.STATE e = 1 := by
    rw [run, State.modJob_f]
    exact s.giveItem_state e _
  have taken : (s.dealOne f e).engFree e = false := by simp [State.engFree, item]
  obtain ⟨v, st⟩ := (s.dealOne f e).deals_vec e f after taken
  have one : ∃ y, (s.dealOne f e).job x.id = some y ∧ x.issued < y.issued := by
    rw [run]
    have leaves := Leaves.giveItem (ps := [.vecs, .freeCtr]) (q := vecStat) (e := e)
      (i := { job := x.id, item := x.issued, startNs := s.now, kind := k }) (.refl _ _ s) rfl
    have kept := (State.job_of_jobs (leaves.1 .jobs (by simp)) x.id).trans held
    exact ⟨_, State.modJob_job _ _ (fun y => { y with issued := y.issued + 1 }) (fun _ => rfl) x kept, Nat.lt_succ_self _⟩
  obtain ⟨y, hy, more⟩ := one
  obtain ⟨n, le, hn⟩ := IssuedOn.deals (s.dealOne f e) f after x.id y hy
  exact ⟨k, _, by rw [v, item], kind, by rw [st, state], hn, Nat.lt_of_lt_of_le more le⟩

end

end Sys2Proof.Machine
end

section
/-! PROOFS. Items end on the vector engines. -/

set_option Elab.async false

namespace Sys2Proof.Machine

section
variable {ps : List Part} {q : Reg → Nat → Prop} {b s : State}

theorem Leaves.physWrite {p a : Nat} {bs : List Byte} (h : Leaves ps q b s) (hp : accessParts ⊆ ps)
    (hq : ∀ r i, accessRegs r i → q r i) : Leaves ps q b (physWrite s p a bs).2 :=
  h.into (accessed_physWrite s p a bs) hp hq

theorem Leaves.shakeVec {e : Nat} (h : Leaves ps q b s) (hp : [.vecs, .holders] ⊆ ps) : Leaves ps q b (s.shakeVec e) :=
  (h.modVec (hp (by simp))).one .holders (hp (by simp))

theorem Leaves.withdrawVec {e : Nat} (h : Leaves ps q b s) (hp : [.vecs, .holders] ⊆ ps) (hq : q .vecStatus e) :
    Leaves ps q b (s.withdrawVec e) :=
  .setF (.setF (.setF (.modVec (h.shakeVec hp) (hp (by simp))) hq) hq) hq

theorem Leaves.vecBoundary {e : Nat} (h : Leaves ps q b s) (hp : .vecs :: accessParts ⊆ ps)
    (hq : ∀ r i, accessRegs r i ∨ vecStat r i → q r i) : Leaves ps q b (s.vecBoundary e) := by
  have stat : q .vecStatus e := hq _ _ (.inr rfl)
  have vecs : .vecs ∈ ps := hp (by simp)
  have left : Leaves ps q b ((s.modVec e fun v => { v with item := none }).setF VEC_STATUS.STATE e 0) :=
    .setF (.modVec h vecs) stat
  unfold State.vecBoundary
  refine .ite (left.withdrawVec (fun _ m => hp (by revert m; simp [accessParts]; tauto)) stat) (.ite ?_ left)
  unfold State.startVecBar
  dsimp only
  exact .setF (.modVec (.physWrite (left.one .freeCtr (hp (by simp [accessParts]))) (fun _ m => hp (.tail _ m))
    fun _ _ a => hq _ _ (.inl a)) vecs) stat

/-- An engine without a test bar that is due passes its boundary without an access. -/
theorem State.vecBoundary_plain (s : State) (e : Nat) (idle : (s.vec e).testBarDue = false) :
    Leaves [.vecs, .holders] vecStat s (s.vecBoundary e) := by
  have left : Leaves [.vecs, .holders] vecStat s ((s.modVec e fun v => { v with item := none }).setF VEC_STATUS.STATE e 0) :=
    .setF (.modVec (.refl _ _ s)) rfl
  have still : (((s.modVec e fun v => { v with item := none }).setF VEC_STATUS.STATE e 0).vec e).testBarDue = false := by
    rw [State.setF_vec, State.modVec_vec, if_pos rfl, idle]
  unfold State.vecBoundary
  dsimp only
  rw [still, if_neg (by decide : ¬ false = true)]
  exact .ite (left.withdrawVec (by simp) rfl) left

theorem Leaves.dropItems {j : Nat} (h : Leaves ps q b s) (hp : .saved :: .vecs :: accessParts ⊆ ps)
    (hq : ∀ r i, accessRegs r i ∨ vecStat r i → q r i) : Leaves ps q b (s.dropItems j) :=
  Leaves.over (h.one .saved (hp (by simp))) fun _ _ g => g.vecBoundary (fun _ m => hp (.tail _ m)) hq

end

/-- A part of a job of a shared flask is done: its record counts it, it ends OK with the last part, and the engines are
dealt. -/
theorem State.itemDone_counts (s : State) (e : Nat) (i : VItem) (x : Job) (held : s.job i.job = some x)
    (runs : x.phase = .running) (op : x.opcode ≠ 10) (idle : (s.vec e).testBarDue = false) :
    ∃ y, (s.itemDone e i).job i.job = some y ∧ (s.itemDone e i).mem.cells = s.mem.cells
      ∧ y.doneParts = insNat x.doneParts i.item ∧ y.cflags = x.cflags
      ∧ (x.itemsNow ≤ (insNat x.doneParts i.item).length → y.phase = .ended ∧ y.status = stOk)
      ∧ ((insNat x.doneParts i.item).length < x.itemsNow → y.phase = .running) := by
  have left := s.vecBoundary_plain e idle
  have before : (s.vecBoundary e).job i.job = some x := (State.job_of_jobs (left.1 .jobs (by simp)) _).trans held
  obtain ⟨all, some_⟩ := (s.vecBoundary e).finishPart_job i.job i.item x.itemsNow x before runs
  have counted := (s.vecBoundary e).leaves_finishPart i.job i.item x.itemsNow
  have run : s.itemDone e i = ((s.vecBoundary e).finishPart i.job i.item x.itemsNow).deal
      (((s.vecBoundary e).finishPart i.job i.item x.itemsNow).jobFlask x) := by
    unfold State.itemDone
    rw [held]
    exact congrArg (fun t : State => t.deal (t.jobFlask x)) (if_neg op)
  rw [run]
  generalize (s.vecBoundary e).finishPart i.job i.item x.itemsNow = t at all some_ counted ⊢
  have dealt : Leaves [.jobs, .vecs, .freeCtr] vecStat t (t.deal (t.jobFlask x)) := .deal (.refl _ _ t) fun _ => rfl
  have cells : (t.deal (t.jobFlask x)).mem.cells = s.mem.cells :=
    (dealt.1 .cells (by simp)).trans ((counted.1 .cells (by simp)).trans (left.1 .cells (by simp)))
  rcases Nat.lt_or_ge (insNat x.doneParts i.item).length x.itemsNow with less | least
  · obtain ⟨n, -, job⟩ := IssuedOn.deal t (t.jobFlask x) _ _ (some_ less)
    exact ⟨_, job, cells, rfl, rfl, fun no => absurd no (by omega), fun _ => runs⟩
  · obtain ⟨n, -, job⟩ := IssuedOn.deal t (t.jobFlask x) _ _ (all least)
    exact ⟨_, job, cells, rfl, rfl, fun _ => ⟨rfl, rfl⟩, fun no => absurd no (by omega)⟩

/-- Without a pair, ECALL with a7 = 0 ends an item of rows by what they compute. -/
theorem itemEnd_rows {s : State} {e flip : Nat} {dup : Bool} {i : VItem} (small : e < 16) (item : (s.vec e).item = some i)
    (kind : i.kind = 3) (alone : s.pairOf true e = none) : exec (.itemEnd e [] (.ecall 0) flip dup) s = .next (s.rowsItem e i) := by
  have none_ : s.vecSteps e [] = s := by
    unfold State.vecSteps
    split <;> rfl
  rw [exec_itemEnd, execItemEnd, unit, if_pos (by simp [isVec, small]), none_, itemEndGo, item]
  rw [alone]
  exact congrArg Host.Outcome.next (if_pos kind)

/-- A job that has ended keeps its end while its items are dropped and the engines are dealt. -/
theorem State.endJob_drops (s : State) (j st f : Nat) (d : Option Nat) (x : Job) (held : s.job j = some x)
    (runs : x.phase = .running) :
    ∃ y, ((((s.endJob j st d).dropItems j).deal f).job j) = some y ∧ y.phase = .ended ∧ y.status = st ∧ y.detail = d := by
  have ended := (JobTo.of_endJob st d held (by rw [runs]; decide)).1
  have dropped : Leaves (.saved :: .vecs :: accessParts) (fun r i => accessRegs r i ∨ vecStat r i) (s.endJob j st d)
      ((s.endJob j st d).dropItems j) := .dropItems (.refl _ _ _) (fun _ m => m) fun _ _ a => a
  obtain ⟨n, -, job⟩ := IssuedOn.deal ((s.endJob j st d).dropItems j) f _ _
    ((State.job_of_jobs (dropped.1 .jobs (by simp [accessParts])) _).trans ended)
  exact ⟨_, job, rfl, rfl, rfl⟩

end Sys2Proof.Machine
end

section
/-! PROOFS. CONV jobs run by their operator. -/

set_option Elab.async false

namespace Sys2Proof.Machine

/-- The rows of a CONV job of the vector path go to the engines of a shared flask. -/
theorem conv_deals {s : State} {j : Nat} {x : Job} {c : Instr} (h : s.runs j 2 x) (tap : isTap x.conv = false)
    (cmd : c = .convGrouped j ∧ cvOp x.conv = 0 ∨ c = .maxPool j ∧ cvOp x.conv = 1
        ∨ c = .averagePool j ∧ (cvOp x.conv = 2 ∨ cvOp x.conv = 3) ∨ c = .expand j ∧ cvOp x.conv = 4) :
    exec c s = .next (s.deal (s.jobFlask x)) := by
  have vec : x.vecConv = true := by simp [Job.vecConv, h.2.2.1, tap]
  have mine : ∀ m : Bool, m = true → s.dealConv x m = s.deal (s.jobFlask x) := fun m hm => by
    rw [State.dealConv, hm, vec]; rfl
  rcases cmd with ⟨rfl, op⟩ | ⟨rfl, op⟩ | ⟨rfl, op⟩ | ⟨rfl, op⟩
  · rw [exec_convGrouped, execConvGrouped, State.runningJob_runs h, mine _ (by simp [op])]
  · rw [exec_maxPool, execMaxPool, State.runningJob_runs h, mine _ (by simp [op])]
  · rw [exec_averagePool, execAveragePool, State.runningJob_runs h, mine _ (by simpa using op)]
  · rw [exec_expand, execExpand, State.runningJob_runs h, mine _ (by simp [op])]

theorem passRow_padding (r : ConvRec) (i p n : Nat) (y x : Int) (s : State) (out : cvInside r y x = false) :
    passRow r i p n y x s = (.ok (List.replicate (cvPassC r) 0, 0), s) := by
  have padding : (y < 0 || (cvInH r : Int) ≤ y || x < 0 || (cvInW r : Int) ≤ x) = true := by
    simp only [cvInside, Bool.and_eq_false_iff, decide_eq_false_iff_not, Bool.or_eq_true, decide_eq_true_eq] at out ⊢
    omega
  unfold passRow
  dsimp only
  rw [if_pos padding]

theorem pooledElem_window {r : ConvRec} {i n oy ox c : Nat} {s s1 : State} {ws : List (Option Nat)}
    (read : poolWindow r i n oy ox c s = (.ok ws, s1)) :
    (cvOp r = 2 → pooledElem r i n oy ox c s
        = (.ok (f32divNat (ofF32 (f32sum (ws.map fun o => o.getD 0))) (cvKH r * cvKW r)), s1))
      ∧ (cvOp r = 3 → (∃ v, some v ∈ ws) → pooledElem r i n oy ox c s
          = (.ok (f32divNat (ofF32 (f32sum (ws.filterMap id))) (ws.filterMap id).length), s1))
      ∧ (cvOp r = 1 → (∃ v, some v ∈ ws) → pooledElem r i n oy ox c s = (.ok (poolMax (ws.filterMap id)), s1)) := by
  have inside : (∃ v, some v ∈ ws) → (ws.filterMap id).isEmpty = false := by
    rintro ⟨v, hv⟩
    exact List.isEmpty_eq_false_iff_exists_mem.2 ⟨v, List.mem_filterMap.2 ⟨some v, hv, rfl⟩⟩
  unfold pooledElem Rs.andThen
  rw [read]
  dsimp only
  refine ⟨fun op => ?_, fun op some => ?_, fun op some => ?_⟩
  · simp only [op]
  · simp only [op]
    rw [inside some, if_neg (by decide)]
  · simp only [op]
    rw [inside some, if_neg (by decide)]

/-- Settles O28: tiles are queued as those of a TENSOR job, rows are dealt to the engines, and a row ends as `convItem` says. -/
theorem convJobsRunByTheirOperator : Obligations.ConvJobsRunByTheirOperator := by
  refine ⟨⟨fun s j x h tap plain new => ?_, fun s j x c h tap plain cmd => ⟨fun e first next => ?_, fun none => ?_⟩,
    fun s s1 e flip dup sat i x small item kind alone held runs op idle rows => ?_,
    fun s s1 e flip st dup i x small item kind alone held runs op rows => ?_⟩, passRow_padding, fun _ _ _ _ _ _ _ _ _ =>
    pooledElem_window, fun vs some => ⟨poolMax_nan vs, poolMax_largest vs some⟩⟩
  · obtain rfl := State.id_of_job h.1
    obtain ⟨job, queued, others, -, leaves⟩ := s.placeTiles_queues x h.1 plain new
    exact ⟨_, by rw [exec_convTap, execConvTap, State.runningJob_runs h, if_pos tap], job, queued, others, leaves⟩
  · obtain rfl := State.id_of_job h.1
    obtain ⟨k, y, took, kind, state, job, more⟩ := s.deal_first e (s.jobFlask x) x plain first next h.1
    exact ⟨_, y, conv_deals h tap cmd, by rw [took, kind h.2.2.1], state, job, more, .deal (.refl _ _ s) fun _ => rfl⟩
  · rw [conv_deals h tap cmd, s.deal_none _ none]
  · have read : Accessed s s1 := .of_eq rows (.convItem (.refl _ _ s))
    have id := State.id_of_job held
    have same : s1.job i.job = some x := (State.job_of_jobs (read.1 .jobs (by simp [accessParts])) _).trans held
    have still : (s1.vec e).testBarDue = false := by
      rw [State.vec, read.1 .vecs (by simp [accessParts])]
      exact idle
    have run : s.rowsItem e i = (s1.whenB sat fun s => s.cflag i.job 4).itemDone e i := by
      unfold State.rowsItem
      rw [held]
      dsimp only
      rw [rows, id]
    have total : x.itemsNow = convRows x := by rw [Job.itemsNow, if_neg (by omega), if_pos op]
    rw [itemEnd_rows small item kind alone, run, ← total, State.whenB]
    cases sat with
    | false =>
      obtain ⟨y, job, cells, done, flags, all, some⟩ := s1.itemDone_counts e i x same runs (by omega) still
      exact ⟨_, y, rfl, job, cells, done, flags, all, some⟩
    | true =>
      have flagged : (s1.cflag i.job 4).job i.job = some { x with cflags := Nat.lor x.cflags 4 } := by
        rw [State.cflag]
        exact State.modJob_job _ _ (fun y => { y with cflags := Nat.lor y.cflags 4 }) (fun _ => rfl) x same
      obtain ⟨y, job, cells, done, flags, all, some⟩ := (s1.cflag i.job 4).itemDone_counts e i _ flagged runs
        (by change x.opcode ≠ 10; omega) (by rw [State.cflag, State.modJob_vec]; exact still)
      exact ⟨_, y, rfl, job, cells, done, flags, all, some⟩
  · have read : Accessed s s1 := .of_eq rows (.convItem (.refl _ _ s))
    have same : s1.job i.job = some x := (State.job_of_jobs (read.1 .jobs (by simp [accessParts])) _).trans held
    have run : s.rowsItem e i = ((s1.endJob i.job st none).dropItems i.job).deal (s1.jobFlask x) := by
      unfold State.rowsItem
      rw [held]
      dsimp only
      rw [rows, State.id_of_job held]
    obtain ⟨y, job, ended, status, -⟩ := s1.endJob_drops i.job st (s1.jobFlask x) none x same runs
    exact ⟨_, y, by rw [itemEnd_rows small item kind alone, run], job, ended, status⟩

end Sys2Proof.Machine
end

section
/-! PROOFS. Accesses of guest-physical memory by the sequencer. -/

set_option Elab.async false

namespace Sys2Proof.Machine

section
variable {b s : State}

theorem Accessed.devCtx {p d : Nat} (h : Accessed b s) : Accessed b (s.devCtx p d).2 := h.trans (accessed_devCtx s p d)

theorem Accessed.gXlate {p i : Nat} {dc : DevCtx} {a : Nat} {w : Bool} {pf : XFault} (h : Accessed b s) :
    Accessed b (s.gXlate p i dc a w pf).2 := h.trans (accessed_gXlate s p i dc a w pf)

theorem Accessed.dtuFault {i va : Nat} {w : Bool} {e : XFault} (h : Accessed b s) : Accessed b (s.dtuFault i va w e) :=
  h.trans (accessed_dtuFault s i va w e)

theorem Accessed.lineRead {p pa n : Nat} {who : Option Nat} (h : Accessed b s) : Accessed b (lineRead s p pa n who).2 :=
  h.trans (accessed_lineRead s p pa n who)

theorem Accessed.lineWrite {p pa : Nat} {bs : List Byte} {who : Option Nat} (h : Accessed b s) :
    Accessed b (lineWrite s p pa bs who).2 := h.trans (accessed_lineWrite s p pa bs who)

theorem Accessed.gpa {i a : Nat} {write : Bool} (h : Accessed b s) : Accessed b (s.gpa i a write).2 := by
  unfold State.gpa
  dsimp only
  split
  · rename_i e
    refine .iteSnd ?_ ?_
    · refine .of_eq e ?_
      split
      · exact h
      · exact h
      · split
        · rename_i e₁
          exact h.devCtx.of_eq e₁
        · rename_i e₁
          split
          · rename_i e₂
            exact ((h.devCtx.of_eq e₁).gXlate).of_eq e₂
          · rename_i e₂
            exact ((h.devCtx.of_eq e₁).gXlate).of_eq e₂
    · refine Accessed.dtuFault ?_
      refine .of_eq e ?_
      split
      · exact h
      · exact h
      · split
        · rename_i e₁
          exact h.devCtx.of_eq e₁
        · rename_i e₁
          split
          · rename_i e₂
            exact ((h.devCtx.of_eq e₁).gXlate).of_eq e₂
          · rename_i e₂
            exact ((h.devCtx.of_eq e₁).gXlate).of_eq e₂
  · rename_i e
    refine Accessed.dtuFault ?_
    refine .of_eq e ?_
    split
    · exact h
    · exact h
    · split
      · rename_i e₁
        exact h.devCtx.of_eq e₁
      · rename_i e₁
        split
        · rename_i e₂
          exact ((h.devCtx.of_eq e₁).gXlate).of_eq e₂
        · rename_i e₂
          exact ((h.devCtx.of_eq e₁).gXlate).of_eq e₂

theorem Accessed.gReadL {i : Nat} {cs : List (Nat × Nat)} (h : Accessed b s) : Accessed b (gReadL i cs s).2 := by
  induction cs generalizing s with
  | nil => exact h
  | cons c cs ih =>
    unfold Machine.gReadL
    split
    · rename_i e
      exact h.gpa.of_eq e
    · rename_i e
      have h₁ := h.gpa.of_eq e
      split
      · rename_i e'
        exact .rdThen (ih (h₁.lineRead.of_eq e')) fun _ _ h₂ => h₂
      · rename_i e'
        exact h₁.lineRead.of_eq e'

theorem Accessed.gRead {i a n : Nat} (h : Accessed b s) : Accessed b (gRead i a n s).2 :=
  h.gReadL

theorem Accessed.gWriteL {i : Nat} {cs : List (Nat × Nat)} {bs : List Byte} (h : Accessed b s) : Accessed b (gWriteL i cs bs s).2 := by
  induction cs generalizing s bs with
  | nil => exact h
  | cons c cs ih =>
    unfold Machine.gWriteL
    split
    · rename_i e
      exact h.gpa.of_eq e
    · rename_i e
      have h₁ := h.gpa.of_eq e
      split
      · rename_i e'
        exact ih (h₁.lineWrite.of_eq e')
      · rename_i e'
        exact h₁.lineWrite.of_eq e'

theorem Accessed.gWrite {i a : Nat} {bs : List Byte} (h : Accessed b s) : Accessed b (gWrite i a bs s).2 :=
  h.gWriteL

theorem Accessed.gPut {i a : Nat} {bs : List Byte} (h : Accessed b s) : Accessed b (gPut i a bs s) :=
  h.gWrite

theorem Accessed.gCheck {i a : Nat} (h : Accessed b s) : Accessed b (gCheck i a s).2 := by
  unfold Machine.gCheck
  split
  · rename_i e
    exact h.gpa.of_eq e
  · rename_i e
    exact h.gpa.of_eq e

theorem Accessed.readLeaf {i : Nat} {x : Ctx} {p : Nat × Nat × Nat} (h : Accessed b s) : Accessed b (readLeaf i x p s).2 :=
  h.gRead.rdThen (fun _ _ h₁ => h₁)

theorem Accessed.dropTlb {i va n : Nat} (h : Accessed b s) : Accessed b (s.dropTlb i va n) :=
  Leaves.one .dtuTlb h (by simp [accessParts])

theorem Accessed.setLeaf {i : Nat} {x : Ctx} {p : Nat × Nat × Nat} {dst : Option (Nat × Bool)} (h : Accessed b s) :
    Accessed b (s.setLeaf i x p dst) :=
  h.gPut.dropTlb

theorem Accessed.readSpill {i id : Nat} (h : Accessed b s) : Accessed b (readSpill i id s).2 :=
  h.gRead.rdThen (fun _ _ h₁ => h₁)

theorem Accessed.mappedPages {i : Nat} {x : Ctx} {ps : List (Nat × Nat × Nat)} (h : Accessed b s) :
    Accessed b (mappedPages i x ps s).2 :=
  (h.readAll (fun _ _ h₁ => h₁.readLeaf.rdThen (fun _ _ h₂ => h₂))).rdThen (fun _ _ h₁ => h₁)

theorem Accessed.iteSnd {α : Type} {c : Prop} [Decidable c] {p t : α × State} (h : Accessed b p.2) (g : Accessed b t.2) :
    Accessed b (if c then p else t).2 := Leaves.iteSnd h g

theorem Accessed.sendSpread {dev : Nat} {m : SpreadMsg} (h : Accessed b s) : Accessed b (s.sendSpread dev m) :=
  h.trans (accessed_wskOriginate ..)

theorem Accessed.over {α : Type} {xs : List α} {g : State → α → State} (h : Accessed b s)
    (hg : ∀ x t, Accessed b t → Accessed b (g t x)) : Accessed b (s.each xs g) := Leaves.over h hg

theorem Accessed.tellPeers {i act : Nat} {c : Ctx} (h : Accessed b s) : Accessed b (s.tellPeers i c act) := by
  unfold State.tellPeers
  refine Leaves.ite h ?_
  split
  · rename_i e
    exact (h.instRead.of_eq e).over fun _ _ h₁ => h₁.sendSpread
  · rename_i e
    exact h.instRead.of_eq e

theorem Accessed.ctx_same {t : State} (h : Accessed s t) (k : Nat) : t.ctx k = s.ctx k := by
  rw [State.ctx, State.ctx, h.1 .ctxs (by simp [accessParts])]

theorem Accessed.ctxs_same {t : State} (h : Accessed s t) : t.work.ctxs = s.work.ctxs := h.1 .ctxs (by simp [accessParts])

theorem Accessed.refc_same {t : State} (h : Accessed s t) : t.work.refc = s.work.refc := h.1 .refc (by simp [accessParts])

theorem Accessed.f_same {t : State} (h : Accessed s t) (x : Fld) (i : Nat) (hx : ¬ accessRegs x.reg i) : t.f x i = s.f x i :=
  Leaves.f_same h x i hx

end

end Sys2Proof.Machine
end

section
/-! PROOFS. The room, the frames and the contexts of an instance. -/

set_option Elab.async false

namespace Sys2Proof.Machine

/-- The same contexts, counts and tables of the attention engine. -/
structure AttSame (s t : State) : Prop where
  ctxs : t.work.ctxs = s.work.ctxs
  refc : t.work.refc = s.work.refc
  regs : ∀ x : Fld, ∀ i, x.reg = .attFslice ∨ x.reg = .attIquota ∨ x.reg = .attIpool ∨ x.reg = .attIframes
      ∨ x.reg = .attIspill ∨ x.reg = .sysInst → t.f x i = s.f x i

section
variable {s t : State}

theorem Accessed.attSame (h : Accessed s t) : AttSame s t :=
  ⟨h.ctxs_same, h.refc_same, fun x i hx => h.f_same x i (by rcases hx with e | e | e | e | e | e <;> simp [accessRegs, e])⟩

theorem AttSame.ctx (h : AttSame s t) (k : Nat) : t.ctx k = s.ctx k := by rw [State.ctx, State.ctx, h.ctxs]

theorem AttSame.seqSlot (h : AttSame s t) (i id : Nat) : t.seqSlot i id = s.seqSlot i id := by
  rw [State.seqSlot, State.seqSlot, h.ctxs]

theorem AttSame.instFlask (h : AttSame s t) (i : Nat) : t.instFlask i = s.instFlask i := by
  rw [State.instFlask, State.instFlask, h.regs SYS_INST.FLASK _ (by simp [SYS_INST.FLASK])]

theorem AttSame.freeSlot (h : AttSame s t) (f : Nat) : t.freeSlot f = s.freeSlot f := by
  unfold State.freeSlot
  rw [h.regs ATT_FSLICE.CTX_COUNT _ (by simp [ATT_FSLICE.CTX_COUNT]), h.regs ATT_FSLICE.CTX_BASE _ (by simp [ATT_FSLICE.CTX_BASE])]
  simp only [h.ctx]

theorem AttSame.ctxHeld (h : AttSame s t) (i : Nat) : t.ctxHeld i = s.ctxHeld i := by
  rw [State.ctxHeld, State.ctxHeld, h.ctxs]

theorem AttSame.spillVictim (h : AttSame s t) (i : Nat) : t.spillVictim i = s.spillVictim i := by
  rw [State.spillVictim, State.spillVictim, h.ctxs]

theorem AttSame.room (h : AttSame s t) (i : Nat) (allow : Bool) : t.room i allow = s.room i allow := by
  unfold State.room State.room.tryAllow
  rw [h.instFlask, h.freeSlot, h.ctxHeld, h.spillVictim, h.regs ATT_IQUOTA.CTX_MAX _ (by simp [ATT_IQUOTA.CTX_MAX])]

theorem AttSame.freeFrames (h : AttSame s t) (i : Nat) : t.freeFrames i = s.freeFrames i := by
  unfold State.freeFrames State.reservedFrames State.fb
  rw [h.ctxs, h.refc, h.regs ATT_IFRAMES.RC_BASE _ (by simp [ATT_IFRAMES.RC_BASE]), h.regs ATT_IFRAMES.FRAMES _ (by simp [ATT_IFRAMES.FRAMES]),
    h.regs ATT_IPOOL.EN _ (by simp [ATT_IPOOL.EN])]

theorem AttSame.spreadAnswer (h : AttSame s t) (c : Ctx) (w0 k : Nat) (fork : Option (Nat × Nat)) :
    t.spreadAnswer c w0 k fork = s.spreadAnswer c w0 k fork := by
  unfold State.spreadAnswer
  simp only [h.room, h.freeFrames, h.seqSlot, h.ctx]

theorem AttSame.spillAt (h : AttSame s t) (i id : Nat) : t.spillAt i id = s.spillAt i id := by
  rw [State.spillAt, State.spillAt, h.regs ATT_ISPILL.SPILL_BASE _ (by simp [ATT_ISPILL.SPILL_BASE])]

theorem AttSame.refCount (h : AttSame s t) (i f : Nat) : t.refCount i f = s.refCount i f := by
  rw [State.refCount, State.refCount, h.refc, h.regs ATT_IFRAMES.RC_BASE _ (by simp [ATT_IFRAMES.RC_BASE])]

end

/-- The registers that show an instance's contexts and frames. -/
def attStat (i : Nat) : Reg → Nat → Prop := oneReg .attIstat i

section
variable (s : State)

theorem State.showAtt_work (i : Nat) : (s.showAtt i).work = s.work := by
  rw [State.showAtt, State.setF_work, State.setF_work, State.setF_work]

theorem State.showAtt_ctx (i k : Nat) : (s.showAtt i).ctx k = s.ctx k := by rw [State.ctx, State.ctx, s.showAtt_work]

theorem State.leaves_showAtt (i : Nat) : Leaves [] (attStat i) s (s.showAtt i) := .showAtt (.refl _ _ s) ⟨rfl, rfl⟩

theorem State.showAtt_f (x : Fld) (i j : Nat) (hx : x.reg ≠ .attIstat) : (s.showAtt i).f x j = s.f x j :=
  (s.leaves_showAtt i).f_same x j fun h => hx h.1

end

end Sys2Proof.Machine
end

section
/-! PROOFS. The counts of frames. -/

set_option Elab.async false

namespace Sys2Proof.Machine

/-- A step that gives one frame of the pool a new count. -/
structure Counted (i : Nat) (new : Nat → Nat) (frame : Nat) (s t : State) : Prop where
  here : frame < s.f ATT_IFRAMES.FRAMES i → t.refCount i frame = new (s.refCount i frame)
  else_ : ∀ f, f ≠ frame → t.refCount i f = s.refCount i f
  frames : t.f ATT_IFRAMES.FRAMES i = s.f ATT_IFRAMES.FRAMES i

/-- A count that rises stays at its limit; so does one that falls. -/
def countUp (n : Nat) : Nat := if n = 0xFFFF then n else n + 1
def countDown (n : Nat) : Nat := if n = 0xFFFF then n else n - 1

section
variable {s t u : State} {i frame : Nat} {new : Nat → Nat}

theorem Counted.then_same (h : Counted i new frame s t) (same : AttSame t u) : Counted i new frame s u :=
  ⟨fun lt => (same.refCount i frame).trans (h.here lt), fun f ne => (same.refCount i f).trans (h.else_ f ne),
    (same.regs ATT_IFRAMES.FRAMES _ (by simp [ATT_IFRAMES.FRAMES])).trans h.frames⟩

theorem State.setCount_refCount (s : State) (i f n g : Nat) :
    (f < s.f ATT_IFRAMES.FRAMES i → (s.setCount i f n).refCount i f = n) ∧ (g ≠ f → (s.setCount i f n).refCount i g = s.refCount i g) := by
  unfold State.setCount
  split
  · exact ⟨fun lt => absurd lt (by omega), fun _ => rfl⟩
  · have get : ∀ k, ({ s with work.refc := NMap.set s.work.refc 0 (s.f ATT_IFRAMES.RC_BASE i + f) n } : State).refCount i k
        = if s.f ATT_IFRAMES.RC_BASE i + k = s.f ATT_IFRAMES.RC_BASE i + f then n else s.refCount i k :=
      fun k => NMap.get_set _ _ _ _ _
    exact ⟨fun _ => by rw [get, if_pos rfl], fun ne => by rw [get, if_neg (by omega)]⟩

theorem State.leaves_setCount (s : State) (i f n : Nat) : Leaves [.refc] noReg s (s.setCount i f n) :=
  .ite (.refl _ _ s) (.beside (.refl _ _ s))

theorem counted_setCount (s : State) (i f : Nat) (g : Nat → Nat) : Counted i g f s (s.setCount i f (g (s.refCount i f))) :=
  ⟨(s.setCount_refCount i f _ 0).1, fun k ne => (s.setCount_refCount i f _ k).2 ne, (s.leaves_setCount i f _).f_same _ _ (by simp [noReg])⟩

theorem counted_incCount (s : State) (i f : Nat) : Counted i countUp f s (s.incCount i f) := by
  unfold State.incCount
  split
  · rename_i full
    have same : AttSame s (s.incSat ATT_ICTRL.SAT_PINNED i 1) := by
      have h : Leaves [] (oneReg .attIctrl i) s (s.incSat ATT_ICTRL.SAT_PINNED i 1) := .incSat (.refl _ _ s) ⟨rfl, rfl⟩
      exact ⟨h.1 .ctxs (by simp), h.1 .refc (by simp), fun x j hx => h.f_same x j
        (by rcases hx with e | e | e | e | e | e <;> simp [oneReg, e])⟩
    exact ⟨fun _ => by rw [same.refCount, countUp, if_pos full], fun k _ => same.refCount i k,
      same.regs ATT_IFRAMES.FRAMES _ (by simp [ATT_IFRAMES.FRAMES])⟩
  · rename_i open_
    have h := counted_setCount s i f (· + 1)
    exact ⟨fun lt => by rw [h.here lt, countUp, if_neg open_], h.else_, h.frames⟩

theorem counted_decCount (s : State) (i f : Nat) : Counted i countDown f s (s.decCount i f) := by
  unfold State.decCount
  split
  · rename_i full
    exact ⟨fun _ => by rw [countDown, if_pos full], fun _ _ => rfl, rfl⟩
  · rename_i open_
    have h := counted_setCount s i f (· - 1)
    exact ⟨fun lt => by rw [h.here lt, countDown, if_neg open_], h.else_, h.frames⟩

/-- Over a list of pages, the counts of their frames are renewed once each, and no other one. -/
theorem State.each_counts {α : Type} (s : State) (i : Nat) (new : Nat → Nat) (ms : List (α × Nat)) (g : State → α × Nat → State)
    (hg : ∀ s m, Counted i new m.2 s (g s m)) :
    (∀ f, (∀ m ∈ ms, m.2 ≠ f) → (s.each ms g).refCount i f = s.refCount i f)
      ∧ ((ms.map fun m => m.2).Nodup → (∀ m ∈ ms, m.2 < s.f ATT_IFRAMES.FRAMES i) →
          ∀ m ∈ ms, (s.each ms g).refCount i m.2 = new (s.refCount i m.2)) := by
  induction ms generalizing s with
  | nil => exact ⟨fun _ _ => rfl, fun _ _ m hm => absurd hm (by simp)⟩
  | cons a ms ih =>
    have one := hg s a
    obtain ⟨others, each⟩ := ih (g s a)
    refine ⟨fun f away => (others f fun m hm => away m (by simp [hm])).trans (one.else_ f (Ne.symm (away a (by simp)))),
      fun nodup small m hm => ?_⟩
    obtain ⟨notin, nodup⟩ := List.nodup_cons.1 nodup
    have apart : ∀ m ∈ ms, m.2 ≠ a.2 := fun m hm e => notin (List.mem_map.2 ⟨m, hm, e⟩)
    rcases List.mem_cons.1 hm with rfl | hm
    · exact (others _ apart).trans (one.here (small m (by simp)))
    · rw [← one.else_ _ (apart m hm)]
      exact each nodup (fun n hn => by rw [one.frames]; exact small n (by simp [hn])) m hm

end

end Sys2Proof.Machine
end

section
/-! PROOFS. Admissions, restores, forks and releases of local sequences. -/

set_option Elab.async false

namespace Sys2Proof.Machine

section
variable {s t : State}

/-- The end of a job whose jobs are so far as they were. -/
theorem JobTo.end_same {x : Job} (same : t.work.jobs = s.work.jobs) (held : s.job x.id = some x) (runs : x.phase = .running)
    (st : Nat) (d : Option Nat) : JobTo x.id (x.over st d) s (t.endJob x.id st d) :=
  .after_same same (.of_endJob st d ((State.job_of_jobs same _).trans held) (by rw [runs]; decide))

theorem Accessed.jobs_same (h : Accessed s t) : t.work.jobs = s.work.jobs := h.1 .jobs (by simp [accessParts])

theorem Accessed.room (h : Accessed s t) (i : Nat) (allow : Bool) : t.room i allow = s.room i allow := h.attSame.room i allow

end

section
variable (s : State)

/-- A context is described in a slot. -/
theorem State.setCtx_shown (k i : Nat) (c : Ctx) :
    ((s.setCtx k c).showAtt i).ctx k = c ∧ (∀ n, n ≠ k → ((s.setCtx k c).showAtt i).ctx n = s.ctx n)
      ∧ ((s.setCtx k c).showAtt i).work.refc = s.work.refc
      ∧ Leaves [.ctxs] (attStat i) s ((s.setCtx k c).showAtt i) := by
  refine ⟨?_, fun n ne => ?_, ?_, .showAtt (.setCtx (.refl _ _ s)) ⟨rfl, rfl⟩⟩
  · rw [State.showAtt_ctx, State.setCtx_ctx, if_pos rfl]
  · rw [State.showAtt_ctx, State.setCtx_ctx, if_neg ne]
  · rw [State.showAtt_work, State.setCtx]

theorem State.takeRoom_slot {x : Job} {id k : Nat} {c : Ctx} {after : Nat → State → State}
    (room : s.room x.inst (bit (x.inl 0) 7) = .slot k) :
    s.takeRoom x id c after = (after k ((s.setCtx k c).showAtt x.inst)).endJob x.id stOk (some 0xFFFFFFFF) := by
  rw [State.takeRoom, room]

theorem State.takeRoom_full {x : Job} {id : Nat} {c : Ctx} {after : Nat → State → State}
    (room : s.room x.inst (bit (x.inl 0) 7) = .full) : s.takeRoom x id c after = s.endJob x.id stSeqTableFull (some id) := by
  rw [State.takeRoom, room]

theorem State.takeRoom_spill {x : Job} {id : Nat} {v : Nat × Ctx} {s1 : State} {c : Ctx} {after : Nat → State → State}
    (room : s.room x.inst (bit (x.inl 0) 7) = .spill v) (spilled : spillCtx x.inst v s = (.ok (), s1)) :
    s.takeRoom x id c after = (after v.1 ((s1.setCtx v.1 c).showAtt x.inst)).endJob x.id stOk (some v.2.seqId) := by
  rw [State.takeRoom, room]
  dsimp only
  rw [spilled]

/-- A spilled context leaves its slot and is counted. -/
theorem spillCtx_frees {s t : State} {i : Nat} {v : Nat × Ctx} (spilled : spillCtx i v s = (.ok (), t)) :
    (∀ n, n ≠ v.1 → t.ctx n = s.ctx n) ∧ t.work.refc = s.work.refc ∧ t.work.jobs = s.work.jobs
      ∧ t.f ATT_ISPILLED.SPILLED i = (s.f ATT_ISPILLED.SPILLED i + 1) % 2 ^ 32 := by
  unfold spillCtx at spilled
  generalize written : gWrite i _ _ s = w at spilled
  obtain ⟨r, s1⟩ := w
  have acc : Accessed s s1 := .of_eq written (.gWrite (.refl _ _ s))
  cases r with
  | error e => exact absurd (congrArg Prod.fst spilled) (by simp [Rd.andThen])
  | ok u =>
    obtain rfl : (((s1.setCtx v.1 {}).setF ATT_ISPILLED.SPILLED i (s1.f ATT_ISPILLED.SPILLED i + 1)).incSat
      ATT_ICNT.SPILLS i 1).showAtt i = t := congrArg Prod.snd spilled
    refine ⟨fun n ne => ?_, ?_, ?_, ?_⟩
    · rw [State.showAtt_ctx, State.incSat_ctx, State.setF_ctx, State.setCtx_ctx, if_neg ne, acc.ctx_same]
    · rw [State.showAtt_work, State.incSat_work, State.setF_work]
      exact acc.refc_same
    · rw [State.showAtt_work, State.incSat_work, State.setF_work]
      exact acc.jobs_same
    · have after : Leaves [] (fun r _ => r = .attIcnt ∨ r = .attIstat)
          ((s1.setCtx v.1 {}).setF ATT_ISPILLED.SPILLED i (s1.f ATT_ISPILLED.SPILLED i + 1)) _ :=
        .showAtt (i := i) (.incSat (x := ATT_ICNT.SPILLS) (i := i) (n := 1) (.refl _ _ _) (.inl rfl)) (.inr rfl)
      rw [after.f_same ATT_ISPILLED.SPILLED i (by simp [ATT_ISPILLED.SPILLED]),
        State.setF_f_same _ ATT_ISPILLED.SPILLED _ _ (by decide),
        acc.f_same ATT_ISPILLED.SPILLED i (by simp [accessRegs, ATT_ISPILLED.SPILLED])]
      rfl

/-- A spill record is cleared. -/
theorem State.leaves_clearSpill (i id : Nat) :
    Leaves accessParts (fun r k => accessRegs r k ∨ (r = .attIspilled ∧ k = i)) s (s.clearSpill i id) := by
  have wide : ∀ {t : State}, Accessed s t → Leaves accessParts (fun r k => accessRegs r k ∨ (r = .attIspilled ∧ k = i)) s t :=
    fun h => h.mono (fun _ m => m) fun _ _ e => .inl e
  unfold State.clearSpill
  split
  · rename_i e
    exact .setF (wide ((Accessed.of_eq e (.gRead (.refl _ _ s))).gPut)) (.inr ⟨rfl, rfl⟩)
  · rename_i e
    exact wide (.of_eq e (.gRead (.refl _ _ s)))

/-- What sharing or giving up pages may change beside the counts. -/
def shareRegs (i : Nat) (r : Reg) (k : Nat) : Prop := accessRegs r k ∨ (r = .attIctrl ∧ k = i)

theorem State.leaves_incCount (i f : Nat) : Leaves (.refc :: accessParts) (shareRegs i) s (s.incCount i f) :=
  .ite (.incSat (.refl _ _ s) (.inr ⟨rfl, rfl⟩)) ((s.leaves_setCount i f _).mono (by simp) fun _ _ e => e.elim)

theorem State.leaves_decCount (i f : Nat) : Leaves (.refc :: accessParts) accessRegs s (s.decCount i f) :=
  .ite (.refl _ _ s) ((s.leaves_setCount i f _).mono (by simp) fun _ _ e => e.elim)

theorem Leaves.accessed {ps : List Part} {q : Reg → Nat → Prop} {b s t : State} (h : Leaves ps q b s) (g : Accessed s t)
    (hp : accessParts ⊆ ps) (hq : ∀ r i, accessRegs r i → q r i) : Leaves ps q b t := h.into g hp hq

/-- Pages are shared with the context in slot `k`. -/
theorem State.sharePages_counts (i : Nat) (par : Ctx) (ms : List ((Nat × Nat × Nat) × Nat)) (k : Nat) :
    (s.sharePages i par ms k).ctx k = { s.ctx k with pages := ms.length }
      ∧ (∀ n, n ≠ k → (s.sharePages i par ms k).ctx n = s.ctx n)
      ∧ ((ms.map fun m => m.2).Nodup → (∀ m ∈ ms, m.2 < s.f ATT_IFRAMES.FRAMES i) →
          ∀ m ∈ ms, (s.sharePages i par ms k).refCount i m.2 = countUp (s.refCount i m.2))
      ∧ (∀ f, (∀ m ∈ ms, m.2 ≠ f) → (s.sharePages i par ms k).refCount i f = s.refCount i f)
      ∧ Leaves (.ctxs :: .refc :: accessParts) (fun r n => shareRegs i r n ∨ attStat i r n) s (s.sharePages i par ms k) := by
  unfold State.sharePages
  dsimp only
  generalize hg : (fun (u : State) (m : (Nat × Nat × Nat) × Nat) =>
    ((u.incCount i m.2).setLeaf i (s.ctx k) m.1 (some (m.2, false))).setLeaf i par m.1 (some (m.2, false))) = g
  have leaf : ∀ (u : State) (m : (Nat × Nat × Nat) × Nat), Accessed (u.incCount i m.2) (g u m) := by
    intro u m
    rw [← hg]
    exact .setLeaf (.setLeaf (.refl _ _ _))
  obtain ⟨others, each⟩ := s.each_counts i countUp ms g fun u m => (counted_incCount u i m.2).then_same (leaf u m).attSame
  have shared : Leaves (.refc :: accessParts) (shareRegs i) s (s.each ms g) :=
    .over (.refl _ _ s) fun m u h => (h.trans (u.leaves_incCount i m.2)).accessed (leaf u m) (by simp) fun _ _ e => .inl e
  have ctxs : ∀ n, (s.each ms g).ctx n = s.ctx n := fun n => by
    rw [State.ctx, State.ctx, shared.1 .ctxs (by simp [accessParts])]
  generalize s.each ms g = t at others each shared ctxs
  obtain ⟨here, rest, counts, leaves⟩ := t.setCtx_shown k i { s.ctx k with pages := ms.length }
  have same : ∀ f, ((t.setCtx k { s.ctx k with pages := ms.length }).showAtt i).refCount i f = t.refCount i f := fun f => by
    rw [State.refCount, State.refCount, counts, leaves.f_same ATT_IFRAMES.RC_BASE i (by simp [attStat, oneReg, ATT_IFRAMES.RC_BASE])]
  refine ⟨here, fun n ne => (rest n ne).trans (ctxs n), fun nd small m hm => (same _).trans (each nd small m hm),
    fun f away => (same f).trans (others f away), ?_⟩
  exact (shared.mono (by simp) fun _ _ e => .inl e).into leaves (by simp) fun _ _ e => .inr e

/-- The pages of the context in slot `k` are given up. -/
theorem State.releaseSlot_counts (i k : Nat) (ms : List ((Nat × Nat × Nat) × Nat)) :
    (s.releaseSlot i k ms).ctx k = {} ∧ (∀ n, n ≠ k → (s.releaseSlot i k ms).ctx n = s.ctx n)
      ∧ ((ms.map fun m => m.2).Nodup → (∀ m ∈ ms, m.2 < s.f ATT_IFRAMES.FRAMES i) →
          ∀ m ∈ ms, (s.releaseSlot i k ms).refCount i m.2 = countDown (s.refCount i m.2))
      ∧ (∀ f, (∀ m ∈ ms, m.2 ≠ f) → (s.releaseSlot i k ms).refCount i f = s.refCount i f)
      ∧ Leaves (.ctxs :: .refc :: accessParts) (fun r n => accessRegs r n ∨ attStat i r n) s (s.releaseSlot i k ms) := by
  unfold State.releaseSlot State.unmapAll
  generalize hg : (fun (u : State) (m : (Nat × Nat × Nat) × Nat) => (u.decCount i m.2).setLeaf i (s.ctx k) m.1 none) = g
  have leaf : ∀ (u : State) (m : (Nat × Nat × Nat) × Nat), Accessed (u.decCount i m.2) (g u m) := by
    intro u m
    rw [← hg]
    exact .setLeaf (.refl _ _ _)
  obtain ⟨others, each⟩ := s.each_counts i countDown ms g fun u m => (counted_decCount u i m.2).then_same (leaf u m).attSame
  have left : Leaves (.refc :: accessParts) accessRegs s (s.each ms g) :=
    .over (.refl _ _ s) fun m u h => (h.trans (u.leaves_decCount i m.2)).accessed (leaf u m) (by simp) fun _ _ e => e
  have ctxs : ∀ n, (s.each ms g).ctx n = s.ctx n := fun n => by
    rw [State.ctx, State.ctx, left.1 .ctxs (by simp [accessParts])]
  generalize s.each ms g = t at others each left ctxs
  obtain ⟨here, rest, counts, leaves⟩ := t.setCtx_shown k i {}
  have same : ∀ f, ((t.setCtx k {}).showAtt i).refCount i f = t.refCount i f := fun f => by
    rw [State.refCount, State.refCount, counts, leaves.f_same ATT_IFRAMES.RC_BASE i (by simp [attStat, oneReg, ATT_IFRAMES.RC_BASE])]
  refine ⟨here, fun n ne => (rest n ne).trans (ctxs n), fun nd small m hm => (same _).trans (each nd small m hm),
    fun f away => (same f).trans (others f away), ?_⟩
  exact (left.mono (by simp) fun _ _ e => .inl e).into leaves (by simp) fun _ _ e => .inr e

/-- What a read gives of every element of a list, where each read gives it. -/
theorem readAll_all {α β : Type} (P : β → Prop) (g : α → State → Rd β) (acc : ∀ x t, Accessed t (g x t).2)
    (hg : ∀ x t c t', Accessed s t → g x t = (.ok c, t') → P c) (xs : List α) :
    ∀ t cs t', Accessed s t → readAll g xs t = (.ok cs, t') → ∀ c ∈ cs, P c := by
  induction xs with
  | nil =>
    rintro t cs t' - e c hc
    obtain rfl : [] = cs := Except.ok.inj (congrArg Prod.fst e)
    exact absurd hc (by simp)
  | cons x xs ih =>
    intro t cs t' h e c hc
    unfold readAll at e
    generalize first : g x t = r at e
    obtain ⟨r, t1⟩ := r
    cases r with
    | error e' => exact absurd (congrArg Prod.fst e) (by simp)
    | ok d =>
      dsimp only at e
      generalize rest : readAll g xs t1 = r at e
      obtain ⟨r, t2⟩ := r
      cases r with
      | error e' => exact absurd (congrArg Prod.fst e) (by simp)
      | ok ds =>
        obtain rfl : d :: ds = cs := Except.ok.inj (congrArg Prod.fst e)
        rcases List.mem_cons.1 hc with rfl | hc
        · exact hg x t _ _ h first
        · exact ih t1 ds t2 (h.trans (.of_eq first (acc x t))) rest c hc

theorem State.pteFrame_lt (i pte f : Nat) (h : s.pteFrame i pte = some f) : f < s.f ATT_IFRAMES.FRAMES i := by
  unfold State.pteFrame at h
  dsimp only at h
  split at h
  · cases h
  · rename_i inside
    obtain rfl := Option.some.inj h
    simp only [Bool.or_eq_true, decide_eq_true_eq, not_or, Nat.not_le] at inside
    exact inside.1.2

theorem readLeaf_lt (i : Nat) (x : Ctx) (p : Nat × Nat × Nat) (t t' : State) (o : Option Nat) (h : Accessed s t)
    (e : readLeaf i x p t = (.ok o, t')) : ∀ f, o = some f → f < s.f ATT_IFRAMES.FRAMES i := by
  intro f hf
  unfold readLeaf at e
  generalize read : gRead i _ 8 t = r at e
  obtain ⟨r, t1⟩ := r
  have same : Accessed s t1 := h.trans (.of_eq read (Accessed.gRead (.refl _ _ t)))
  cases r with
  | error e' => exact absurd (congrArg Prod.fst e) (by simp [Rd.andThen])
  | ok bs =>
    have := Except.ok.inj (congrArg Prod.fst e)
    rw [hf] at this
    split at this
    · rw [← same.f_same ATT_IFRAMES.FRAMES i (by simp [accessRegs, ATT_IFRAMES.FRAMES])]
      exact t1.pteFrame_lt i _ f this
    · cases this

/-- The mapped pages of a sequence lie in frames of the pool. -/
theorem mappedPages_lt (i : Nat) (x : Ctx) (ps : List (Nat × Nat × Nat)) (t : State) (ms : List ((Nat × Nat × Nat) × Nat))
    (e : mappedPages i x ps s = (.ok ms, t)) : ∀ m ∈ ms, m.2 < s.f ATT_IFRAMES.FRAMES i := by
  unfold mappedPages at e
  generalize read : readAll _ ps s = r at e
  obtain ⟨r, t1⟩ := r
  cases r with
  | error e' => exact absurd (congrArg Prod.fst e) (by simp [Rd.andThen])
  | ok xs =>
    obtain rfl := Except.ok.inj (congrArg Prod.fst e)
    have all := readAll_all s (fun y : (Nat × Nat × Nat) × Option Nat => ∀ f, y.2 = some f → f < s.f ATT_IFRAMES.FRAMES i) _
      (fun _ u => (Accessed.readLeaf (.refl _ _ u)).rdThen fun _ _ h => h) (by
        intro p u c u' h one
        generalize leaf : readLeaf i x p u = r at one
        obtain ⟨r, u1⟩ := r
        cases r with
        | error e' => exact absurd (congrArg Prod.fst one) (by simp [Rd.andThen])
        | ok o =>
          obtain rfl := Except.ok.inj (congrArg Prod.fst one)
          exact readLeaf_lt s i x p u u1 o h leaf) ps s xs t1 (.refl _ _ s) read
    intro m hm
    obtain ⟨y, hy, eq⟩ := List.mem_filterMap.1 hm
    obtain ⟨f, hf, rfl⟩ := Option.map_eq_some_iff.1 eq
    exact all y hy f hf

end

end Sys2Proof.Machine
end

section
/-! PROOFS. Messages to other devices, and spread sequences. -/

set_option Elab.async false

namespace Sys2Proof.Machine

section
variable {s t : State}

theorem State.wskRoute_same (h : ∀ x : Fld, ∀ i, x.reg = .wskRoute ∨ x.reg = .wskPortstat → t.f x i = s.f x i) (d : Nat) :
    t.wskRoute d = s.wskRoute d := by
  have f : ∀ x : Fld, x.reg = .wskRoute ∨ x.reg = .wskPortstat → ∀ i, t.f x i = s.f x i := fun x hx i => h x i hx
  unfold State.wskRoute State.wskUp State.fb
  simp only [f WSK_ROUTE.EN (.inl rfl), f WSK_ROUTE.DEST_LO (.inl rfl), f WSK_ROUTE.DEST_HI (.inl rfl),
    f WSK_ROUTE.PRIMARY (.inl rfl), f WSK_ROUTE.ALT (.inl rfl), f WSK_ROUTE.ALT_EN (.inl rfl), f WSK_PORTSTAT.STATE (.inr rfl)]

theorem Accessed.wskRoute (h : Accessed s t) (d : Nat) : t.wskRoute d = s.wskRoute d :=
  State.wskRoute_same (fun x i hx => h.f_same x i (by rcases hx with e | e <;> simp [accessRegs, e])) d

/-- Cells that wait at a port go on waiting. -/
def StillWaits (s t : State) : Prop := ∀ q, ∀ y ∈ (s.wport q).localQ, y ∈ (t.wport q).localQ

theorem State.sendSpread_waits (s : State) (d : Nat) (m : SpreadMsg) : StillWaits s (s.sendSpread d m) := by
  intro q y hy
  unfold State.sendSpread State.wskOriginate
  split
  · rw [State.wskLocal, State.modWsk_wport]
    split
    · next e => subst e; exact List.mem_append_left _ hy
    · exact hy
  · rwa [State.incSat_wport]

theorem State.sendSpread_sends (s : State) (d q : Nat) (m : SpreadMsg) (h : s.wskRoute d = some q) :
    ∃ y ∈ ((s.sendSpread d m).wport q).localQ, y.dest = d ∧ y.body = .spread m := by
  unfold State.sendSpread State.wskOriginate
  rw [h]
  dsimp only
  rw [State.wskLocal, State.modWsk_wport, if_pos rfl]
  exact ⟨_, List.mem_append_right _ (List.mem_append_right _ (List.mem_singleton.2 rfl)), rfl, rfl⟩

/-- One message to each of a list of devices: each waits at the port of its route. -/
theorem State.sendSpreads_send {α : Type} (s : State) (dest : α → Nat) (msg : α → SpreadMsg) (ps : List α) :
    StillWaits s (s.each ps fun s p => s.sendSpread (dest p) (msg p))
      ∧ ∀ p ∈ ps, ∀ q, s.wskRoute (dest p) = some q →
        ∃ y ∈ ((s.each ps fun s p => s.sendSpread (dest p) (msg p)).wport q).localQ, y.dest = dest p ∧ y.body = .spread (msg p) := by
  induction ps generalizing s with
  | nil => exact ⟨fun _ _ h => h, fun p hp => absurd hp (by simp)⟩
  | cons a ps ih =>
    obtain ⟨wait, send⟩ := ih (s.sendSpread (dest a) (msg a))
    have same : Accessed s (s.sendSpread (dest a) (msg a)) := .sendSpread (.refl _ _ s)
    refine ⟨fun q y hy => wait q y (s.sendSpread_waits _ _ q y hy), fun p hp q route => ?_⟩
    rcases List.mem_cons.1 hp with rfl | hp
    · obtain ⟨y, hy, d, b⟩ := s.sendSpread_sends (dest p) q (msg p) route
      exact ⟨y, wait q y hy, d, b⟩
    · exact send p hp q ((same.wskRoute _).trans route)

/-- What an admission may change beside its job. -/
def seqParts : List Part := .ctxs :: .refc :: accessParts
def seqRegs (i : Nat) (r : Reg) (k : Nat) : Prop := shareRegs i r k ∨ attStat i r k

/-- A context of a spread sequence takes its place: contexts, counts and shared pages alone change. -/
theorem State.spreadPlace_slot (s : State) (c : Ctx) (w0 k n : Nat) (fork : Option (Nat × Nat)) (room : s.room c.inst false = .slot n) :
    Leaves seqParts (seqRegs c.inst) s (s.spreadPlace c w0 k fork)
      ∧ (fork = none → (s.spreadPlace c w0 k fork).ctx n = { c with resv := deviceFrames w0 c k }
          ∧ ∀ m, m ≠ n → (s.spreadPlace c w0 k fork).ctx m = s.ctx m) := by
  obtain ⟨here, rest, -, leaves⟩ := s.setCtx_shown n c.inst { c with resv := deviceFrames w0 c k }
  have placed : Leaves seqParts (seqRegs c.inst) s ((s.setCtx n { c with resv := deviceFrames w0 c k }).showAtt c.inst) :=
    leaves.mono (by simp [seqParts]) fun _ _ e => .inr e
  unfold State.spreadPlace
  rw [room]
  dsimp only
  cases fork with
  | none => exact ⟨placed, fun _ => ⟨here, rest⟩⟩
  | some p =>
    refine ⟨?_, fun no => by cases no⟩
    dsimp only
    split
    · exact placed
    · split
      · rename_i e
        have read := placed.accessed (.of_eq e (.mappedPages (.refl _ _ _))) (by simp [seqParts]) fun _ _ a => .inl (.inl a)
        obtain ⟨-, -, -, -, shared⟩ := State.sharePages_counts _ c.inst _ _ n
        exact read.trans (shared.mono (by simp [seqParts]) fun _ _ e => e)
      · rename_i e
        exact placed.accessed (.of_eq e (.mappedPages (.refl _ _ _))) (by simp [seqParts]) fun _ _ a => .inl (.inl a)

end

/-- The checks of a FORK: an idle parent of the same form with the prefix. -/
structure ForkFits (s : State) (i id n : Nat) (c : Ctx) (k : Nat) : Prop where
  parent : s.seqSlot i id = some k
  idle : (s.ctx k).state = 1
  layers : (s.ctx k).layers = c.layers
  kvHeads : (s.ctx k).kvHeads = c.kvHeads
  dCode : (s.ctx k).dCode = c.dCode
  len : n ≤ (s.ctx k).len
  tokens : n ≤ c.maxTokens

section
variable {s : State} {j : Nat} {x : Job}

theorem seqAdmit_local (h : s.runs j 6 x) (restore : bit (x.inl 0) 6 = false) (fork : bit (x.inl 0) 5 = false) (own : x.await = 0)
    (free : s.idFree x.inst (bits (x.inl 0) 63 32) = true) (loc : x.inl 5 = 0) : exec (.seqAdmit j) s = .next (s.admitLocal x) := by
  rw [exec_seqAdmit, execSeqAdmit, State.runningJob_runs h, if_neg (by simp [restore, fork, own]), if_neg (by simp [free]), if_pos loc]

theorem seqAdmit_spread (h : s.runs j 6 x) (restore : bit (x.inl 0) 6 = false) (fork : bit (x.inl 0) 5 = false) (own : x.await = 0)
    (free : s.idFree x.inst (bits (x.inl 0) 63 32) = true) (spread : x.inl 5 ≠ 0) :
    exec (.seqAdmit j) s = .next (s.admitSpread x (s.admitCtx x) none) := by
  rw [exec_seqAdmit, execSeqAdmit, State.runningJob_runs h, if_neg (by simp [restore, fork, own]), if_neg (by simp [free]),
    if_neg spread]

theorem seqAdmit_taken (h : s.runs j 6 x) (restore : bit (x.inl 0) 6 = false) (fork : bit (x.inl 0) 5 = false) (own : x.await = 0)
    (taken : s.idFree x.inst (bits (x.inl 0) 63 32) = false) : exec (.seqAdmit j) s = .next (s.endJob j stMalformed (some 0)) := by
  rw [exec_seqAdmit, execSeqAdmit, State.runningJob_runs h, if_neg (by simp [restore, fork, own]), if_pos (by simp [taken])]

theorem seqRestore_runs (h : s.runs j 6 x) (restore : bit (x.inl 0) 6 = true)
    (free : s.idFree x.inst (bits (x.inl 0) 63 32) = true) : exec (.seqRestore j) s = .next (s.admitRestore x) := by
  rw [exec_seqRestore, execSeqRestore, State.runningJob_runs h, if_neg (by simp [restore]), if_neg (by simp [free])]

theorem seqFork_runs (h : s.runs j 6 x) (restore : bit (x.inl 0) 6 = false) (fork : bit (x.inl 0) 5 = true) (own : x.await = 0)
    (free : s.idFree x.inst (bits (x.inl 0) 63 32) = true) : exec (.seqFork j) s = .next (s.admitFork x) := by
  rw [exec_seqFork, execSeqFork, State.runningJob_runs h, if_neg (by simp [restore, fork, own]), if_neg (by simp [free])]

/-- The context that a FORK describes. -/
def State.forkCtx (s : State) (x : Job) : Ctx := { s.admitCtx x with len := bits (x.inl 4) 31 0 }

/-- The form of the conditions of `State.admitFork`. -/
theorem ForkFits.passes {c : Ctx} {i id n k : Nat} (h : ForkFits s i id n c k) :
    ((s.ctx k).state ≠ 1 || (s.ctx k).layers ≠ c.layers || (s.ctx k).kvHeads ≠ c.kvHeads || (s.ctx k).dCode ≠ c.dCode
      || (s.ctx k).len < n || c.maxTokens < n) = false := by
  simp [h.idle, h.layers, h.kvHeads, h.dCode, h.len, h.tokens]

theorem State.admitFork_spread {k : Nat} (h : ForkFits s x.inst (bits (x.inl 4) 63 32) (bits (x.inl 4) 31 0) (s.admitCtx x) k)
    (spread : x.inl 5 ≠ 0) :
    s.admitFork x = s.admitSpread x (s.forkCtx x) (some (bits (x.inl 4) 63 32, bits (x.inl 4) 31 0)) := by
  rw [State.admitFork]
  dsimp only
  rw [h.parent]
  dsimp only
  rw [if_neg (Bool.eq_false_iff.1 h.passes), if_pos (by simp [State.admitCtx, spread])]
  rfl

theorem State.admitFork_local {k : Nat} {s1 s2 : State} {ms : List ((Nat × Nat × Nat) × Nat)} {us : List Unit}
    (h : ForkFits s x.inst (bits (x.inl 4) 63 32) (bits (x.inl 4) 31 0) (s.admitCtx x) k) (loc : x.inl 5 = 0)
    (mapped : mappedPages x.inst (s.ctx k) ((s.ctx k).prefixPages (bits (x.inl 4) 31 0)) s = (.ok ms, s1))
    (checked : readAll (fun q t => gCheck x.inst ((s.forkCtx x).leafAt ((s.forkCtx x).pageVa q.1 q.2.1 q.2.2)) t)
      ((s.forkCtx x).prefixPages (bits (x.inl 4) 31 0)) s1 = (.ok us, s2)) :
    s.admitFork x = s2.takeRoom x (bits (x.inl 0) 63 32) (s.forkCtx x) fun n t => t.sharePages x.inst (s.ctx k) ms n := by
  rw [State.admitFork]
  dsimp only
  rw [h.parent]
  dsimp only
  rw [if_neg (Bool.eq_false_iff.1 h.passes), if_neg (by simp [State.admitCtx, loc]), mapped]
  dsimp only
  split
  · rename_i e
    exact absurd (e.symm.trans checked) (by simp)
  · rename_i e
    obtain ⟨-, rfl⟩ := Prod.mk.inj (e.symm.trans checked)
    rfl

/-- A spread admission whose record passes ends by the answer of its own device. -/
theorem State.admitSpread_answers {c : Ctx} {fork : Option (Nat × Nat)} {bs : List Byte} {s1 : State}
    (read : instRead s x.inst c.spreadAddr 64 = (.ok bs, s1)) (good : s.spreadBad bs = false) :
    (s.spreadAnswer c (leAt bs 0 8) 0 fork ≠ 0 → s.admitSpread x c fork = s1.spreadEnd x (s.spreadAnswer c (leAt bs 0 8) 0 fork))
      ∧ (s.spreadAnswer c (leAt bs 0 8) 0 fork = 0 → (∀ p ∈ spreadPeers bs 0, (s.wskRoute p.2.1).isSome = true) →
        s.admitSpread x c fork = ((s1.spreadPlace c (leAt bs 0 8) 0 fork).modJob x.id fun y =>
            { y with await := (spreadPeers bs 0).length, answer := 0 }).each (spreadPeers bs 0) fun s p =>
              s.sendSpread p.2.1 (.admission p.1 x.id (({ c with inst := p.2.2 } : Ctx).record 1 0) bs fork)) := by
  have acc : Accessed s s1 := .of_eq read (.instRead (.refl _ _ s))
  have still : s1.spreadBad bs = false := by
    rw [← good, State.spreadBad, State.spreadBad, acc.f_same WSK_ID.DEV_ID 0 (by simp [accessRegs, WSK_ID.DEV_ID])]
  have answer := acc.attSame.spreadAnswer c (leAt bs 0 8) 0 fork
  rw [State.admitSpread, read]
  dsimp only
  rw [if_neg (by simp [still]), answer]
  constructor
  · intro no
    split
    · contradiction
    · rfl
  · intro yes routes
    rw [yes]
    rw [if_pos (by
      rw [List.all_eq_true]
      intro p hp
      rw [acc.wskRoute, routes p hp])]
    rfl


/-- A spread admission for which its own device has room asks every other one. -/
theorem State.admitSpread_asks {c : Ctx} {fork : Option (Nat × Nat)} {bs : List Byte} {s1 : State} (held : s.job x.id = some x)
    (read : instRead s x.inst c.spreadAddr 64 = (.ok bs, s1)) (good : s.spreadBad bs = false)
    (yes : s.spreadAnswer c (leAt bs 0 8) 0 fork = 0) (routes : ∀ p ∈ spreadPeers bs 0, (s.wskRoute p.2.1).isSome = true) :
    JobTo x.id { x with await := (spreadPeers bs 0).length, answer := 0 } s (s.admitSpread x c fork)
      ∧ (fork = none → ∀ k, s.room c.inst false = .slot k →
          (s.admitSpread x c fork).ctx k = { c with resv := deviceFrames (leAt bs 0 8) c 0 }
            ∧ ∀ n, n ≠ k → (s.admitSpread x c fork).ctx n = s.ctx n)
      ∧ (∀ p ∈ spreadPeers bs 0, ∀ q, s.wskRoute p.2.1 = some q → ∃ y ∈ ((s.admitSpread x c fork).wport q).localQ,
          y.dest = p.2.1 ∧ y.body = .spread (.admission p.1 x.id (({ c with inst := p.2.2 } : Ctx).record 1 0) bs fork)) := by
  have acc : Accessed s s1 := .of_eq read (.instRead (.refl _ _ s))
  have slot : ∃ n, s.room c.inst false = .slot n := by
    unfold State.spreadAnswer at yes
    split at yes
    · exact ⟨_, by assumption⟩
    · cases yes
  obtain ⟨n, room⟩ := slot
  obtain ⟨leaves, alone⟩ := s1.spreadPlace_slot c (leAt bs 0 8) 0 n fork ((acc.room _ _).trans room)
  rw [(State.admitSpread_answers read good).2 yes routes]
  generalize hu : (s1.spreadPlace c (leAt bs 0 8) 0 fork).modJob x.id (fun y =>
    { y with await := (spreadPeers bs 0).length, answer := 0 }) = u
  have jobs : (s1.spreadPlace c (leAt bs 0 8) 0 fork).work.jobs = s.work.jobs :=
    (leaves.1 .jobs (by simp [seqParts, accessParts])).trans acc.jobs_same
  have waits : JobTo x.id { x with await := (spreadPeers bs 0).length, answer := 0 } s u := by
    rw [← hu]
    exact .after_same jobs (.of_modJob _ (fun _ => rfl) ((State.job_of_jobs jobs _).trans held))
  have ctxs : ∀ k, u.ctx k = (s1.spreadPlace c (leAt bs 0 8) 0 fork).ctx k := fun k => by rw [← hu]; rfl
  have route : ∀ d, u.wskRoute d = s.wskRoute d := fun d => by
    rw [← hu, ← acc.wskRoute]
    refine State.wskRoute_same (fun y i hy => ?_) d
    rw [State.modJob_f, leaves.f_same y i (by rcases hy with e | e <;> simp [seqRegs, shareRegs, accessRegs, attStat, oneReg, e])]
  obtain ⟨-, sends⟩ := u.sendSpreads_send (fun p : Nat × Nat × Nat => p.2.1)
    (fun p => .admission p.1 x.id (({ c with inst := p.2.2 } : Ctx).record 1 0) bs fork) (spreadPeers bs 0)
  have sent : Accessed u (u.each (spreadPeers bs 0) fun s p =>
      s.sendSpread p.2.1 (.admission p.1 x.id (({ c with inst := p.2.2 } : Ctx).record 1 0) bs fork)) :=
    .over (.refl _ _ u) fun _ _ h => h.sendSpread
  refine ⟨waits.trans_same sent.jobs_same, fun none k hk => ?_, fun p hp q hq => sends p hp q ((route _).trans hq)⟩
  obtain rfl : n = k := Room.slot.inj (room.symm.trans hk)
  obtain ⟨here, rest⟩ := alone none
  exact ⟨(sent.ctx_same _).trans ((ctxs _).trans here), fun m ne => (sent.ctx_same m).trans ((ctxs m).trans ((rest m ne).trans
    (acc.ctx_same m)))⟩

/-- A job that waits for other devices counts an answer. -/
theorem State.takeAnswer_counts {code : Nat} (held : s.job j = some x) (runs : x.phase = .running) (op : x.opcode = 6)
    (waits : 0 < x.await) : s.takeAnswer j code
      = if x.await ≤ 1 then (s.modJob j fun y => { y with await := y.await - 1, answer := worseAnswer x.answer code }).spreadSettle
          x (worseAnswer x.answer code)
        else s.modJob j fun y => { y with await := y.await - 1, answer := worseAnswer x.answer code } := by
  have own : s.awaiting j = some x := by simp [State.awaiting, held, runs, op, waits, isAttn]
  rw [State.takeAnswer, own]

/-- A spread sequence that is given up leaves its slot. -/
theorem State.spreadDrop_clears (s : State) (i id : Nat) :
    (∀ k, s.seqSlot i id = some k → (s.spreadDrop i id).ctx k = {}) ∧ (s.spreadDrop i id).work.jobs = s.work.jobs := by
  unfold State.spreadDrop
  split
  · rename_i none
    exact ⟨fun k hk => absurd (none.symm.trans hk) (by simp), rfl⟩
  · rename_i n slot
    split
    · rename_i e
      have acc : Accessed s _ := .of_eq e (.mappedPages (.refl _ _ s))
      obtain ⟨here, -, -, -, leaves⟩ := State.releaseSlot_counts _ i n _
      exact ⟨fun k hk => by obtain rfl := Option.some.inj (slot.symm.trans hk); exact here,
        (leaves.1 .jobs (by simp [accessParts])).trans acc.jobs_same⟩
    · rename_i e
      have acc : Accessed s _ := .of_eq e (.mappedPages (.refl _ _ s))
      obtain ⟨here, -, -, leaves⟩ := State.setCtx_shown _ n i {}
      exact ⟨fun k hk => by obtain rfl := Option.some.inj (slot.symm.trans hk); exact here,
        (leaves.1 .jobs (by simp)).trans acc.jobs_same⟩

end

end Sys2Proof.Machine
end

section
/-! PROOFS. Sequences are admitted, restored and released. -/

set_option Elab.async false

namespace Sys2Proof.Machine

section
variable (s : State) (j st : Nat) (d : Option Nat)

theorem State.endJob_ctx (k : Nat) : (s.endJob j st d).ctx k = s.ctx k := by rw [State.endJob, State.modJob_ctx]

theorem State.endJob_refc : (s.endJob j st d).work.refc = s.work.refc := by rw [State.endJob, State.modJob_work_refc]

theorem State.endJob_ctxs : (s.endJob j st d).work.ctxs = s.work.ctxs := by rw [State.endJob, State.modJob_work_ctxs]

theorem State.endJob_f (y : Fld) (i : Nat) : (s.endJob j st d).f y i = s.f y i := by rw [State.endJob, State.modJob_f]

theorem State.endJob_refCount (i f : Nat) : (s.endJob j st d).refCount i f = s.refCount i f := by
  rw [State.refCount, State.refCount, State.endJob_refc, State.endJob_f]

end

section
variable {s : State} {j : Nat} {x : Job}

theorem seqAdmit_unspilled {s1 : State} (h : s.runs j 6 x) (restore : bit (x.inl 0) 6 = false) (fork : bit (x.inl 0) 5 = false)
    (own : x.await = 0) (free : s.idFree x.inst (bits (x.inl 0) 63 32) = true) (loc : x.inl 5 = 0)
    (read : readSpill x.inst (bits (x.inl 0) 63 32) s = (.ok none, s1)) :
    (∀ k, s.room x.inst (bit (x.inl 0) 7) = .slot k → ∃ t, exec (.seqAdmit j) s = .next t
        ∧ JobTo j (x.over stOk (some 0xFFFFFFFF)) s t ∧ t.ctx k = s.admitCtx x ∧ (∀ n, n ≠ k → t.ctx n = s.ctx n)
        ∧ t.work.refc = s.work.refc
        ∧ Leaves (.jobs :: .ctxs :: accessParts) (fun r i => accessRegs r i ∨ (r = .attIstat ∧ i = x.inst)) s t)
      ∧ (∀ v s2, s.room x.inst (bit (x.inl 0) 7) = .spill v → spillCtx x.inst v s1 = (.ok (), s2) →
        ∃ t, exec (.seqAdmit j) s = .next t ∧ JobTo j (x.over stOk (some v.2.seqId)) s t ∧ t.ctx v.1 = s.admitCtx x
          ∧ (∀ n, n ≠ v.1 → t.ctx n = s.ctx n) ∧ t.work.refc = s.work.refc
          ∧ t.f ATT_ISPILLED.SPILLED x.inst = (s.f ATT_ISPILLED.SPILLED x.inst + 1) % 2 ^ 32)
      ∧ (s.room x.inst (bit (x.inl 0) 7) = .full → ∃ t, exec (.seqAdmit j) s = .next t
        ∧ JobTo j (x.over stSeqTableFull (some (bits (x.inl 0) 63 32))) s t ∧ t.work.ctxs = s.work.ctxs) := by
  obtain rfl := State.id_of_job h.1
  have acc : Accessed s s1 := .of_eq read (.readSpill (.refl _ _ s))
  have run : exec (.seqAdmit x.id) s = .next (s1.takeRoom x (bits (x.inl 0) 63 32) (s.admitCtx x) fun _ s => s) := by
    have eq : (s.admitCtx x).seqId = bits (x.inl 0) 63 32 := rfl
    rw [seqAdmit_local h restore fork own free loc, State.admitLocal, eq, read]
  have ends : ∀ {t : State}, t.work.jobs = s.work.jobs → ∀ st d, JobTo x.id (x.over st d) s (t.endJob x.id st d) :=
    fun same => JobTo.end_same same h.1 h.2.1
  refine ⟨fun k room => ?_, fun v s2 room spilled => ?_, fun room => ?_⟩
  · obtain ⟨here, rest, refc, leaves⟩ := s1.setCtx_shown k x.inst (s.admitCtx x)
    refine ⟨_, by rw [run, s1.takeRoom_slot ((acc.room ..).trans room)], ends ?_ _ _, ?_, fun n ne => ?_, ?_, ?_⟩
    · exact (leaves.1 .jobs (by simp)).trans acc.jobs_same
    · exact (State.endJob_ctx ..).trans here
    · exact (State.endJob_ctx ..).trans ((rest n ne).trans (acc.ctx_same n))
    · exact (State.endJob_refc ..).trans (refc.trans acc.refc_same)
    · exact .endJob (((acc.mono (fun _ m => by simp [m]) fun _ _ e => .inl e) : Leaves (.jobs :: .ctxs :: accessParts)
        (fun r i => accessRegs r i ∨ (r = .attIstat ∧ i = x.inst)) s s1).into leaves (by simp) fun _ _ e => .inr e)
  · obtain ⟨rest', refc', jobs', count⟩ := spillCtx_frees spilled
    obtain ⟨here, rest, refc, leaves⟩ := s2.setCtx_shown v.1 x.inst (s.admitCtx x)
    refine ⟨_, by rw [run, s1.takeRoom_spill ((acc.room ..).trans room) spilled], ends ?_ _ _, ?_, fun n ne => ?_, ?_, ?_⟩
    · exact (leaves.1 .jobs (by simp)).trans (jobs'.trans acc.jobs_same)
    · exact (State.endJob_ctx ..).trans here
    · exact (State.endJob_ctx ..).trans ((rest n ne).trans ((rest' n ne).trans (acc.ctx_same n)))
    · exact (State.endJob_refc ..).trans (refc.trans (refc'.trans acc.refc_same))
    · rw [State.endJob_f, leaves.f_same ATT_ISPILLED.SPILLED _ (by simp [attStat, oneReg, ATT_ISPILLED.SPILLED]), count,
        acc.f_same ATT_ISPILLED.SPILLED _ (by simp [accessRegs, ATT_ISPILLED.SPILLED])]
  · exact ⟨_, by rw [run, s1.takeRoom_full ((acc.room ..).trans room)], ends acc.jobs_same _ _, (State.endJob_ctxs ..).trans acc.ctxs_same⟩

theorem seqAdmit_spilled {s1 : State} {c : Ctx} (h : s.runs j 6 x) (restore : bit (x.inl 0) 6 = false)
    (fork : bit (x.inl 0) 5 = false) (own : x.await = 0) (free : s.idFree x.inst (bits (x.inl 0) 63 32) = true) (loc : x.inl 5 = 0)
    (read : readSpill x.inst (bits (x.inl 0) 63 32) s = (.ok (some c), s1)) :
    ∃ t, exec (.seqAdmit j) s = .next t ∧ JobTo j (x.over stMalformed (some 0)) s t ∧ t.work.ctxs = s.work.ctxs := by
  obtain rfl := State.id_of_job h.1
  have acc : Accessed s s1 := .of_eq read (.readSpill (.refl _ _ s))
  refine ⟨_, ?_, JobTo.end_same acc.jobs_same h.1 h.2.1 stMalformed (some 0),
    (State.endJob_ctxs ..).trans acc.ctxs_same⟩
  have eq : (s.admitCtx x).seqId = bits (x.inl 0) 63 32 := rfl
  rw [seqAdmit_local h restore fork own free loc, State.admitLocal, eq, read]

/-- An admission of a spread sequence, with or without FORK, goes on with the answer of its own device. -/
theorem seqSpread_asks {s1 : State} {bs : List Byte} {cmd : Instr} {c : Ctx} {fork : Option (Nat × Nat)} (h : s.runs j 6 x)
    (own : x.await = 0) (restore : bit (x.inl 0) 6 = false) (free : s.idFree x.inst (bits (x.inl 0) 63 32) = true)
    (spread : x.inl 5 ≠ 0)
    (form : cmd = .seqAdmit j ∧ bit (x.inl 0) 5 = false ∧ fork = none ∧ c = s.admitCtx x
        ∨ cmd = .seqFork j ∧ bit (x.inl 0) 5 = true ∧ fork = some (bits (x.inl 4) 63 32, bits (x.inl 4) 31 0)
          ∧ c = { s.admitCtx x with len := bits (x.inl 4) 31 0 } ∧ bits (x.inl 4) 31 0 ≤ c.maxTokens
          ∧ ∃ k, s.seqSlot x.inst (bits (x.inl 4) 63 32) = some k ∧ (s.ctx k).state = 1 ∧ (s.ctx k).layers = c.layers
              ∧ (s.ctx k).kvHeads = c.kvHeads ∧ (s.ctx k).dCode = c.dCode ∧ bits (x.inl 4) 31 0 ≤ (s.ctx k).len)
    (read : instRead s x.inst (x.inl 5) 64 = (.ok bs, s1)) (good : s.spreadBad bs = false) :
    (s.spreadAnswer c (leAt bs 0 8) 0 fork = 1 → ∃ t, exec cmd s = .next t
        ∧ JobTo j (x.over stSeqTableFull (some (bits (x.inl 0) 63 32))) s t ∧ t.work.ctxs = s.work.ctxs)
      ∧ (s.spreadAnswer c (leAt bs 0 8) 0 fork = 2 → ∃ t, exec cmd s = .next t
        ∧ JobTo j (x.over stKvDeferred (some (bits (x.inl 0) 63 32))) s t ∧ t.work.ctxs = s.work.ctxs)
      ∧ (s.spreadAnswer c (leAt bs 0 8) 0 fork = 0 → (∀ p ∈ spreadPeers bs 0, (s.wskRoute p.2.1).isSome = true) →
        ∃ t, exec cmd s = .next t
          ∧ JobTo j { x with await := (spreadPeers bs 0).length, answer := 0 } s t
          ∧ (fork = none → ∀ k, s.room x.inst false = .slot k →
              t.ctx k = { c with resv := deviceFrames (leAt bs 0 8) c 0 } ∧ ∀ n, n ≠ k → t.ctx n = s.ctx n)
          ∧ (∀ p ∈ spreadPeers bs 0, ∀ q, s.wskRoute p.2.1 = some q → ∃ y ∈ (t.wport q).localQ, y.dest = p.2.1
              ∧ y.body = .spread (.admission p.1 j (({ c with inst := p.2.2 } : Ctx).record 1 0) bs fork))) := by
  obtain rfl := State.id_of_job h.1
  have inst : c.inst = x.inst ∧ c.spreadAddr = x.inl 5 := by
    rcases form with ⟨-, -, -, rfl⟩ | ⟨-, -, -, rfl, -⟩ <;> exact ⟨rfl, rfl⟩
  have run : exec cmd s = .next (s.admitSpread x c fork) := by
    rcases form with ⟨rfl, no, rfl, rfl⟩ | ⟨rfl, yes, rfl, rfl, tokens, k, parent, idle, layers, heads, code, len⟩
    · exact seqAdmit_spread h restore no own free spread
    · rw [seqFork_runs h restore yes own free]
      exact congrArg _ (State.admitFork_spread ⟨parent, idle, layers, heads, code, len, tokens⟩ spread)
  have read' : instRead s x.inst c.spreadAddr 64 = (.ok bs, s1) := by rw [inst.2, read]
  have acc : Accessed s s1 := .of_eq read (.instRead (.refl _ _ s))
  obtain ⟨denied, -⟩ := State.admitSpread_answers (fork := fork) read' good
  refine ⟨fun one => ?_, fun two => ?_, fun zero routes => ?_⟩
  · exact ⟨_, by rw [run, denied (by omega), one, State.spreadEnd],
      JobTo.end_same acc.jobs_same h.1 h.2.1 stSeqTableFull _,
    (State.endJob_ctxs ..).trans acc.ctxs_same⟩
  · exact ⟨_, by rw [run, denied (by omega), two, State.spreadEnd],
      JobTo.end_same acc.jobs_same h.1 h.2.1 stKvDeferred _,
    (State.endJob_ctxs ..).trans acc.ctxs_same⟩
  · obtain ⟨waits, place, asked⟩ := State.admitSpread_asks h.1 read' good zero routes
    exact ⟨_, run, waits, fun none k room => place none k (by rw [inst.1]; exact room), asked⟩

/-- A spread admission that is undone: the other devices are told, and its own context goes. -/
theorem State.spreadSettle_drops (s : State) (x : Job) (code : Nat) (bad : code ≠ 0) :
    ∃ t, Accessed s t ∧ s.spreadSettle x code = (t.spreadDrop x.inst (bits (x.inl 0) 63 32)).spreadEnd x code := by
  rw [State.spreadSettle, if_neg bad]
  refine ⟨_, ?_, rfl⟩
  split
  · rename_i e
    exact (Accessed.of_eq e (.instRead (.refl _ _ _))).over fun _ _ h => h.sendSpread
  · rename_i e
    exact .of_eq e (.instRead (.refl _ _ _))

theorem takeAnswer_ends {code : Nat} (held : s.job j = some x) (runs : x.phase = .running) (op : x.opcode = 6)
    (waits : 0 < x.await) :
    (1 < x.await → (s.takeAnswer j code).job j = some { x with await := x.await - 1, answer := worseAnswer x.answer code })
      ∧ (x.await = 1 → worseAnswer x.answer code = 0 → ∃ y, (s.takeAnswer j code).job j = some y ∧ y.phase = .ended
          ∧ y.status = stOk ∧ (s.takeAnswer j code).work.ctxs = s.work.ctxs)
      ∧ (x.await = 1 → worseAnswer x.answer code = 1 → ∃ y, (s.takeAnswer j code).job j = some y ∧ y.phase = .ended
          ∧ y.status = stSeqTableFull ∧ (∀ k, s.seqSlot x.inst (bits (x.inl 0) 63 32) = some k →
              (s.takeAnswer j code).ctx k = {})) := by
  obtain rfl := State.id_of_job held
  have run := State.takeAnswer_counts (code := code) held runs op waits
  generalize hg : (fun y : Job => { y with await := y.await - 1, answer := worseAnswer x.answer code }) = g at run
  have counted : (s.modJob x.id g).job x.id = some { x with await := x.await - 1, answer := worseAnswer x.answer code } := by
    rw [State.modJob_job s x.id g (fun _ => by rw [← hg]) x held, ← hg]
  refine ⟨fun more => by rw [run, if_neg (by omega), counted], fun last zero => ?_, fun last one => ?_⟩
  · rw [run, if_pos (by omega), State.spreadSettle, if_pos zero, State.spreadEnd]
    exact ⟨_, (JobTo.of_endJob stOk _ counted (by simp [runs])).1, rfl, rfl, rfl⟩
  · obtain ⟨t, told, drop⟩ := (s.modJob x.id g).spreadSettle_drops x 1 (by decide)
    rw [run, if_pos (by omega), one, drop, State.spreadEnd]
    obtain ⟨clear, jobs⟩ := t.spreadDrop_clears x.inst (bits (x.inl 0) 63 32)
    have still := (State.job_of_jobs (jobs.trans told.jobs_same) x.id).trans counted
    refine ⟨_, (JobTo.of_endJob stSeqTableFull _ still (by simp [runs])).1, rfl, rfl, fun k hk => ?_⟩
    exact (State.endJob_ctx ..).trans (clear k ((told.attSame.seqSlot _ _).trans hk))

theorem seqRestore_restores {s1 s2 : State} {k : Nat} {c : Ctx} (h : s.runs j 6 x) (restore : bit (x.inl 0) 6 = true)
    (free : s.idFree x.inst (bits (x.inl 0) 63 32) = true)
    (read : readSpill x.inst (bits (x.inl 0) 63 32) s = (.ok (some c), s1))
    (checked : gCheck x.inst (s.spillAt x.inst (bits (x.inl 0) 63 32)) s1 = (.ok (), s2))
    (room : s.room x.inst (bit (x.inl 0) 7) = .slot k) :
    ∃ t, exec (.seqRestore j) s = .next t ∧ JobTo j (x.over stOk (some 0xFFFFFFFF)) s t
      ∧ t.ctx k = { c with state := 1, prio := bits (x.inl 0) 31 28, inst := x.inst }
      ∧ (∀ n, n ≠ k → t.ctx n = s.ctx n) ∧ t.work.refc = s.work.refc
      ∧ Leaves (.jobs :: .ctxs :: accessParts)
          (fun r i => accessRegs r i ∨ ((r = .attIstat ∨ r = .attIspilled) ∧ i = x.inst)) s t := by
  obtain rfl := State.id_of_job h.1
  have acc₁ : Accessed s s1 := .of_eq read (.readSpill (.refl _ _ s))
  have acc : Accessed s s2 := acc₁.trans (.of_eq checked (Accessed.gCheck (Leaves.refl _ _ s1)))
  obtain ⟨here, rest, refc, leaves⟩ := s2.setCtx_shown k x.inst { c with state := 1, prio := bits (x.inl 0) 31 28, inst := x.inst }
  generalize hu : (s2.setCtx k { c with state := 1, prio := bits (x.inl 0) 31 28, inst := x.inst }).showAtt x.inst = u
    at here rest refc leaves
  have cleared := u.leaves_clearSpill x.inst (bits (x.inl 0) 63 32)
  have run : exec (.seqRestore x.id) s = .next ((u.clearSpill x.inst (bits (x.inl 0) 63 32)).endJob x.id stOk (some 0xFFFFFFFF)) := by
    rw [seqRestore_runs h restore free, State.admitRestore, read]
    dsimp only
    rw [acc₁.attSame.spillAt, checked]
    dsimp only
    rw [s2.takeRoom_slot ((acc.room ..).trans room), hu]
  have ctxs : ∀ n, (u.clearSpill x.inst (bits (x.inl 0) 63 32)).ctx n = u.ctx n := fun n => by
    rw [State.ctx, State.ctx, cleared.1 .ctxs (by simp [accessParts])]
  refine ⟨_, run, .end_same ?_ h.1 h.2.1 stOk _, ?_, fun n ne => ?_, ?_, ?_⟩
  · exact (cleared.1 .jobs (by simp [accessParts])).trans ((leaves.1 .jobs (by simp)).trans acc.jobs_same)
  · exact (State.endJob_ctx ..).trans ((ctxs k).trans here)
  · exact (State.endJob_ctx ..).trans ((ctxs n).trans ((rest n ne).trans (acc.ctx_same n)))
  · exact (State.endJob_refc ..).trans ((cleared.1 .refc (by simp [accessParts])).trans (refc.trans acc.refc_same))
  · have wide : Leaves (.jobs :: .ctxs :: accessParts)
        (fun r i => accessRegs r i ∨ ((r = .attIstat ∨ r = .attIspilled) ∧ i = x.inst)) s s2 :=
      acc.mono (fun _ m => by simp [m]) fun _ _ e => .inl e
    exact .endJob ((wide.into leaves (by simp) fun _ _ e => .inr ⟨.inl e.1, e.2⟩).into cleared (fun _ m => by simp [m])
      fun _ _ e => e.elim .inl fun e => .inr ⟨.inr e.1, e.2⟩)

theorem seqRestore_unspilled {s1 : State} (h : s.runs j 6 x) (restore : bit (x.inl 0) 6 = true)
    (free : s.idFree x.inst (bits (x.inl 0) 63 32) = true) (read : readSpill x.inst (bits (x.inl 0) 63 32) s = (.ok none, s1)) :
    ∃ t, exec (.seqRestore j) s = .next t ∧ JobTo j (x.over stMalformed (some 0)) s t ∧ t.work.ctxs = s.work.ctxs := by
  obtain rfl := State.id_of_job h.1
  have acc : Accessed s s1 := .of_eq read (.readSpill (.refl _ _ s))
  refine ⟨_, ?_, JobTo.end_same acc.jobs_same h.1 h.2.1 stMalformed (some 0),
    (State.endJob_ctxs ..).trans acc.ctxs_same⟩
  rw [seqRestore_runs h restore free, State.admitRestore, read]

theorem seqRelease_releases {s1 : State} {k : Nat} {ms : List ((Nat × Nat × Nat) × Nat)} (h : s.runs j 7 x)
    (slot : s.seqSlot x.inst (bits (x.inl 0) 63 32) = some k) (idle : (s.ctx k).state ≠ 2)
    (mapped : mappedPages x.inst (s.ctx k) (s.ctx k).allPages s = (.ok ms, s1)) :
    ∃ t, exec (.seqRelease j) s = .next t ∧ JobTo j (x.over stOk (some 0)) s t ∧ t.ctx k = {}
      ∧ (∀ n, n ≠ k → t.ctx n = s.ctx n)
      ∧ ((ms.map fun m => m.2).Nodup → ∀ m ∈ ms, s.refCount x.inst m.2 ≠ 0xFFFF →
          t.refCount x.inst m.2 = s.refCount x.inst m.2 - 1)
      ∧ (∀ f, (∀ m ∈ ms, m.2 ≠ f) → t.refCount x.inst f = s.refCount x.inst f)
      ∧ Leaves (.jobs :: .ctxs :: .refc :: accessParts)
          (fun r i => accessRegs r i ∨ (r = .attIstat ∧ i = x.inst)) s t := by
  obtain rfl := State.id_of_job h.1
  have acc₁ : Accessed s s1 := .of_eq mapped (.mappedPages (.refl _ _ s))
  have acc : Accessed s (s1.tellPeers x.inst (s.ctx k) 2) := acc₁.tellPeers
  have run : exec (.seqRelease x.id) s
      = .next (((s1.tellPeers x.inst (s.ctx k) 2).releaseSlot x.inst k ms).endJob x.id stOk (some 0)) := by
    rw [exec_seqRelease, execSeqRelease, State.runningJob_runs h]
    dsimp only
    rw [slot]
    dsimp only
    rw [if_neg idle, mapped]
  generalize s1.tellPeers x.inst (s.ctx k) 2 = u at acc run
  obtain ⟨here, rest, counts, others, leaves⟩ := u.releaseSlot_counts x.inst k ms
  have small := mappedPages_lt s x.inst _ _ s1 ms mapped
  refine ⟨_, run, .end_same ?_ h.1 h.2.1 stOk _, (State.endJob_ctx ..).trans here, fun n ne => ?_, fun nd m hm open_ => ?_,
    fun f away => ?_, ?_⟩
  · exact (leaves.1 .jobs (by simp [accessParts])).trans acc.jobs_same
  · exact (State.endJob_ctx ..).trans ((rest n ne).trans (acc.ctx_same n))
  · rw [State.endJob_refCount, counts nd (fun m hm => by rw [acc.f_same ATT_IFRAMES.FRAMES _ (by simp [accessRegs, ATT_IFRAMES.FRAMES])]; exact small m hm) m hm,
      acc.attSame.refCount, countDown, if_neg open_]
  · rw [State.endJob_refCount, others f away, acc.attSame.refCount]
  · have wide : Leaves (.jobs :: .ctxs :: .refc :: accessParts) (fun r i => accessRegs r i ∨ (r = .attIstat ∧ i = x.inst)) s u :=
      acc.mono (fun _ m => by simp [m]) fun _ _ e => .inl e
    exact .endJob (wide.into leaves (fun _ m => .tail _ m) fun _ _ e => e)

theorem seqFork_shares {s1 s2 : State} {k k' : Nat} {ms : List ((Nat × Nat × Nat) × Nat)} {us : List Unit} (h : s.runs j 6 x)
    (restore : bit (x.inl 0) 6 = false) (fork : bit (x.inl 0) 5 = true) (own : x.await = 0) (loc : x.inl 5 = 0)
    (free : s.idFree x.inst (bits (x.inl 0) 63 32) = true)
    (fits : ForkFits s x.inst (bits (x.inl 4) 63 32) (bits (x.inl 4) 31 0) (s.admitCtx x) k)
    (mapped : mappedPages x.inst (s.ctx k) ((s.ctx k).prefixPages (bits (x.inl 4) 31 0)) s = (.ok ms, s1))
    (checked : readAll (fun q t => gCheck x.inst ((s.forkCtx x).leafAt ((s.forkCtx x).pageVa q.1 q.2.1 q.2.2)) t)
      ((s.forkCtx x).prefixPages (bits (x.inl 4) 31 0)) s1 = (.ok us, s2))
    (room : s.room x.inst (bit (x.inl 0) 7) = .slot k') :
    ∃ t, exec (.seqFork j) s = .next t ∧ JobTo j (x.over stOk (some 0xFFFFFFFF)) s t
      ∧ t.ctx k' = { s.forkCtx x with pages := ms.length } ∧ (∀ n, n ≠ k' → t.ctx n = s.ctx n)
      ∧ ((ms.map fun m => m.2).Nodup → ∀ m ∈ ms, t.refCount x.inst m.2 = min (s.refCount x.inst m.2 + 1) 0xFFFF
          ∨ 0xFFFF < s.refCount x.inst m.2)
      ∧ (∀ f, (∀ m ∈ ms, m.2 ≠ f) → t.refCount x.inst f = s.refCount x.inst f)
      ∧ Leaves (.jobs :: .ctxs :: .refc :: accessParts)
          (fun r i => accessRegs r i ∨ ((r = .attIstat ∨ r = .attIctrl) ∧ i = x.inst)) s t := by
  obtain rfl := State.id_of_job h.1
  have acc₁ : Accessed s s1 := .of_eq mapped (.mappedPages (.refl _ _ s))
  have acc : Accessed s s2 := acc₁.trans (.of_eq checked (Accessed.readAll (Leaves.refl _ _ s1) fun _ _ h => h.gCheck))
  obtain ⟨first, rest₁, refc, leaves₁⟩ := s2.setCtx_shown k' x.inst (s.forkCtx x)
  generalize hu : (s2.setCtx k' (s.forkCtx x)).showAtt x.inst = u at first rest₁ refc leaves₁
  have run : exec (.seqFork x.id) s = .next ((u.sharePages x.inst (s.ctx k) ms k').endJob x.id stOk (some 0xFFFFFFFF)) := by
    rw [seqFork_runs h restore fork own free, State.admitFork_local fits loc mapped checked,
      s2.takeRoom_slot ((acc.room ..).trans room), hu]
  obtain ⟨here, rest, counts, others, leaves⟩ := u.sharePages_counts x.inst (s.ctx k) ms k'
  have small := mappedPages_lt s x.inst _ _ s1 ms mapped
  have reg : ∀ y : Fld, y.reg = .attIframes → u.f y x.inst = s.f y x.inst := fun y hy =>
    (leaves₁.f_same y _ (by simp [attStat, oneReg, hy])).trans (acc.f_same y _ (by simp [accessRegs, hy]))
  have before : ∀ f, u.refCount x.inst f = s.refCount x.inst f := fun f => by
    rw [State.refCount, State.refCount, refc, acc.refc_same, reg ATT_IFRAMES.RC_BASE rfl]
  refine ⟨_, run, .end_same ?_ h.1 h.2.1 stOk _, ?_, fun n ne => ?_, fun nd m hm => ?_, fun f away => ?_, ?_⟩
  · exact (leaves.1 .jobs (by simp [accessParts])).trans ((leaves₁.1 .jobs (by simp)).trans acc.jobs_same)
  · rw [← first]
    exact (State.endJob_ctx ..).trans here
  · exact (State.endJob_ctx ..).trans ((rest n ne).trans ((rest₁ n ne).trans (acc.ctx_same n)))
  · rw [State.endJob_refCount, counts nd (fun m hm => by rw [reg ATT_IFRAMES.FRAMES rfl]; exact small m hm) m hm, before, countUp]
    split <;> omega
  · rw [State.endJob_refCount, others f away, before]
  · have wide : Leaves (.jobs :: .ctxs :: .refc :: accessParts)
        (fun r i => accessRegs r i ∨ ((r = .attIstat ∨ r = .attIctrl) ∧ i = x.inst)) s s2 :=
      acc.mono (fun _ m => by simp [m]) fun _ _ e => .inl e
    exact .endJob ((wide.into leaves₁ (by simp) fun _ _ e => .inr ⟨.inl e.1, e.2⟩).into leaves (fun _ m => .tail _ m)
      fun _ _ e => e.elim (fun e => e.elim .inl fun e => .inr ⟨.inr e.1, e.2⟩) fun e => .inr ⟨.inl e.1, e.2⟩)

end

/-- Settles O29: local sequences by `takeRoom`, spread ones by the answers of the devices. -/
theorem sequencesAreAdmittedRestoredAndReleased : Obligations.SequencesAreAdmittedRestoredAndReleased := by
  refine ⟨⟨fun _ _ _ _ => seqAdmit_unspilled, fun _ _ _ _ _ => seqAdmit_spilled, fun s j x h restore fork own taken => ?_,
    fun _ _ _ _ _ _ _ _ => seqSpread_asks, fun _ _ _ _ => takeAnswer_ends⟩, fun _ _ _ _ _ _ _ => seqRestore_restores,
    fun _ _ _ _ => seqRestore_unspilled, fun s s1 s2 j k k' x ms us => ?_, fun _ _ _ _ _ _ => seqRelease_releases,
    fun s j k x h slot busy => ?_, fun s j x h none past => ?_⟩
  · exact ⟨_, seqAdmit_taken h restore fork own taken, .of_endJob _ _ h.1 (by rw [h.2.1]; decide), .endJob (.refl _ _ s)⟩
  · intro n c p h restore fork own loc free parent idle layers heads code len tokens mapped checked room
    exact seqFork_shares h restore fork own loc free ⟨parent, idle, layers, heads, code, len, tokens⟩ mapped checked room
  · rw [exec_seqRelease, execSeqRelease, State.runningJob_runs h]
    dsimp only
    rw [slot]
    dsimp only
    rw [if_pos busy]
  · refine ⟨_, ?_, .of_endJob stMalformed (some 0) h.1 (by rw [h.2.1]; decide), .endJob (.refl _ _ s)⟩
    rw [exec_seqRelease, execSeqRelease, State.runningJob_runs h]
    dsimp only
    rw [none]
    dsimp only
    rw [if_neg (by omega)]

end Sys2Proof.Machine
end

section
/-! PROOFS. A job of an open step whose table lists a slot twice. -/

set_option Elab.async false

namespace Sys2Proof.Machine

/-- An ATTN_STEP job of instance 0 that is neither FIRST nor LAST. -/
def midStep : Job := { id := 0, queue := 0, ringIdx := 0, desc := [5 * 2 ^ 56], phase := .running }

/-- An open step of instance 0 over one sequence. -/
def openStep : OpenRun := { inst := 0, prefill := false, batch := 0, entries := 0, ntok := 0, run := [(0, 7)], ids := [] }

/-- The table lists slot 0 twice: the local sequence of instance 0 is found under the second entry, but what slot 0 holds
is the first one, a spread sequence of instance 5. Its record cannot be read, so the entry leaves the run set. -/
def twiceListed : State :=
  { State.reset with
    work.jobs := [midStep]
    work.runs := [openStep]
    work.ctxs := [(0, { inst := 5, spread := true, seqId := 7 }), (0, { state := 2, seqId := 7 })] }

/-- The open steps and prefills after a command. -/
def runsAfter : Res → List OpenRun
  | .next t => t.work.runs
  | _ => []

set_option maxRecDepth 10000 in
theorem runsAfter_twiceListed : runsAfter (exec (.attnStep 0) twiceListed) ≠ [openStep] := by decide

/-- The run-set entry of `openStep` is left out without an error. -/
theorem attnStep_twiceListed : twiceListed.runs 0 5 midStep ∧ twiceListed.openRun midStep [] = some openStep
    ∧ openStep.batch = atBatch midStep ∧ openStep.entries = atEntries midStep ∧ atFirst midStep = false
    ∧ atLast midStep = false
    ∧ ∀ p ∈ twiceListed.work.ctxs, p.2.inst = midStep.inst → p.2.spread = false := by
  refine ⟨⟨by decide, by decide, by decide, by decide⟩, by decide, by decide, by decide, by decide, by decide, by decide⟩

/-- Refutes O30: that no context of the instance in the table is spread does not bind what its slot holds, where the table
lists a slot twice; the job then changes the open step although it is not the LAST. -/
theorem not_stepsAndPrefillsOpenRunAndClose : ¬ Obligations.StepsAndPrefillsOpenRunAndClose := by
  unfold Obligations.StepsAndPrefillsOpenRunAndClose
  rintro ⟨-, -, -, rows, -, -⟩
  obtain ⟨runs, run, batch, entries, first, last, local_⟩ := attnStep_twiceListed
  obtain ⟨t, y, ran, -, -, -, -, -, kept, -, -⟩ :=
    rows twiceListed 0 midStep openStep (.inl runs) rfl first run (.inl runs.2.2.1) batch entries local_
  rw [if_pos runs.2.2.1] at ran
  exact runsAfter_twiceListed (by rw [ran]; exact (kept last).2)

end Sys2Proof.Machine
end

section
/-! PROOFS. Frame pools are swept, enabled and disabled. -/

set_option Elab.async false

namespace Sys2Proof.Machine

section
variable {b s : State}

theorem Accessed.foldlSnd {α β : Type} {xs : List α} {g : β × State → α → β × State} {a : β × State} (h : Accessed b a.2)
    (hg : ∀ x t, Accessed b t.2 → Accessed b (g t x).2) : Accessed b (xs.foldl g a).2 := by
  induction xs generalizing a with
  | nil => exact h
  | cons x xs ih => exact ih (hg x a h)

theorem Accessed.foldlSnd₂ {α β γ : Type} {xs : List α} {g : γ × β × State → α → γ × β × State} {a : γ × β × State}
    (h : Accessed b a.2.2) (hg : ∀ x t, Accessed b t.2.2 → Accessed b (g t x).2.2) : Accessed b (xs.foldl g a).2.2 := by
  induction xs generalizing a with
  | nil => exact h
  | cons x xs ih => exact ih (hg x a h)

theorem Accessed.recountCtx {i : Nat} {x : Ctx} {acc : NMap Nat × State} (h : Accessed b acc.2) :
    Accessed b (recountCtx i x acc).2 := by
  unfold Machine.recountCtx
  refine .foldlSnd h ?_
  intro _ _ h₁
  split
  · rename_i e
    exact h₁.readLeaf.of_eq e
  · rename_i e
    exact h₁.readLeaf.of_eq e

theorem Accessed.adoptSpill {i id : Nat} {acc : NMap Nat × Nat × State} (h : Accessed b acc.2.2) :
    Accessed b (adoptSpill i acc id).2.2 := by
  unfold Machine.adoptSpill
  dsimp only
  split
  · rename_i e
    split
    · exact ((h.gRead.of_eq e).recountCtx).gPut
    · exact h.gRead.of_eq e
  · rename_i e
    exact h.gRead.of_eq e

end

/-- A map keeps what it holds under a key when entries of other keys are filtered away. -/
theorem NMap.get_filter {α : Type} (m : NMap α) (d : α) (p : Nat × α → Bool) (k : Nat) (keep : ∀ v, p (k, v) = true) :
    NMap.get (m.filter p) d k = NMap.get m d k := by
  induction m with
  | nil => rfl
  | cons a m ih =>
    obtain ⟨n, v⟩ := a
    by_cases e : k = n
    · subst e
      rw [List.filter_cons_of_pos (keep v)]
      simp [NMap.get, NMap.find]
    · have tail : NMap.get ((n, v) :: m) d k = NMap.get m d k := by simp [NMap.get, NMap.find, e]
      rw [tail, ← ih, List.filter_cons]
      split
      · simp [NMap.get, NMap.find, e]
      · rfl

/-- A map keeps what it holds under a key when entries of other keys are set. -/
theorem NMap.get_sets (xs : List (Nat × Nat)) (key : Nat × Nat → Nat) (m : NMap Nat) (k : Nat)
    (apart : ∀ p ∈ xs, k ≠ key p) :
    NMap.get (xs.foldl (fun m p => NMap.set m 0 (key p) p.2) m) 0 k = NMap.get m 0 k := by
  induction xs generalizing m with
  | nil => rfl
  | cons a xs ih =>
    rw [List.foldl_cons, ih _ fun p hp => apart p (by simp [hp]), NMap.get_set, if_neg (apart a (by simp))]

section
variable (s : State) (i : Nat)

/-- What the end of a sweep reads and adopts, and the counts that it then writes. -/
theorem State.sweepEnd_ends (h : i ∈ s.work.sweeping) :
    ∃ u new n, Accessed s u ∧ s.sweepEnd i
        = ((({ u with work.refc := new, work.sweeping := u.work.sweeping.filter (· != i) }).setF ATT_ISPILLED.SPILLED i n).setF
            ATT_ICTRL.SWEEP i 0).showAtt i
      ∧ ∀ k, k < s.f ATT_IFRAMES.RC_BASE i ∨ s.f ATT_IFRAMES.RC_BASE i + s.f ATT_IFRAMES.FRAMES i ≤ k →
          NMap.get new 0 k = NMap.get s.work.refc 0 k := by
  unfold State.sweepEnd
  rw [if_neg (by simpa using h)]
  dsimp only
  generalize hr : List.foldl (adoptSpill i) _ _ = r
  have acc : Accessed s r.2.2 := by
    subst hr
    exact .foldlSnd₂ (.foldlSnd (.refl _ _ s) fun _ _ h => h.recountCtx) fun _ _ h => h.adoptSpill
  refine ⟨r.2.2, _, r.2.1, acc, rfl, fun k away => ?_⟩
  have reg : ∀ y : Fld, y.reg = .attIframes → r.2.2.f y i = s.f y i := fun y hy => acc.f_same y i (by simp [accessRegs, hy])
  rw [reg ATT_IFRAMES.RC_BASE rfl, reg ATT_IFRAMES.FRAMES rfl, acc.refc_same]
  rw [NMap.get_sets _ (fun p => s.f ATT_IFRAMES.RC_BASE i + p.1), NMap.get_filter]
  · intro v
    simpa using away
  · intro p hp
    have small := (List.mem_filter.1 hp).2
    simp only [decide_eq_true_eq] at small
    omega

theorem sweepDone_ends (hi : i < 256) (h : i ∈ s.work.sweeping) :
    ∃ t, exec (.sweepDone i) s = .next t ∧ i ∉ t.work.sweeping ∧ t.fb ATT_ICTRL.SWEEP i = false
      ∧ (∀ k ∈ s.work.sweeping, k ≠ i → k ∈ t.work.sweeping)
      ∧ (∀ k, k < s.f ATT_IFRAMES.RC_BASE i ∨ s.f ATT_IFRAMES.RC_BASE i + s.f ATT_IFRAMES.FRAMES i ≤ k →
          NMap.get t.work.refc 0 k = NMap.get s.work.refc 0 k)
      ∧ Leaves (.refc :: .sweeping :: accessParts)
          (fun r k => accessRegs r k ∨ ((r = .attIctrl ∨ r = .attIspilled ∨ r = .attIstat) ∧ k = i)) s t := by
  obtain ⟨u, new, n, acc, run, counts⟩ := s.sweepEnd_ends i h
  have swept : u.work.sweeping = s.work.sweeping := acc.1 .sweeping (by simp [accessParts])
  refine ⟨_, by rw [exec_sweepDone, execSweepDone, decide_eq_true hi, unit_true, run], ?_, ?_, fun k hk ne => ?_, fun k away => ?_, ?_⟩
  · rw [State.showAtt_work, State.setF_work, State.setF_work]
    simp
  · rw [State.fb, State.showAtt_f _ _ _ _ (by decide), State.setF_f_same _ ATT_ICTRL.SWEEP i 0 (by decide)]
    rfl
  · rw [State.showAtt_work, State.setF_work, State.setF_work]
    simp [swept, hk, ne]
  · rw [State.showAtt_work, State.setF_work, State.setF_work]
    exact counts k away
  · have wide : Leaves (.refc :: .sweeping :: accessParts)
        (fun r k => accessRegs r k ∨ ((r = .attIctrl ∨ r = .attIspilled ∨ r = .attIstat) ∧ k = i)) s u :=
      acc.mono (fun _ m => by simp [m]) fun _ _ e => .inl e
    have beside : Leaves (.refc :: .sweeping :: accessParts)
        (fun r k => accessRegs r k ∨ ((r = .attIctrl ∨ r = .attIspilled ∨ r = .attIstat) ∧ k = i)) s
        { u with work.refc := new, work.sweeping := u.work.sweeping.filter (· != i) } :=
      wide.parts (fun p hp => by cases p <;> first | rfl | simp at hp) rfl
    exact .showAtt (.setF (.setF beside (.inr ⟨.inr (.inl rfl), rfl⟩)) (.inr ⟨.inl rfl, rfl⟩)) (.inr ⟨.inr (.inr rfl), rfl⟩)

end

section
variable (s : State) (m : Master) (i : Nat) (v : Word)

/-- The instance is swept. -/
def State.sweeps : State := { s with work.sweeping := insNat s.work.sweeping i }

theorem State.leaves_sweeps : Leaves [.sweeping] noReg s (s.sweeps i) := .beside (.refl _ _ s)

theorem State.mem_sweeps (k : Nat) : k ∈ (s.sweeps i).work.sweeping ↔ k ∈ s.work.sweeping ∨ k = i := mem_insNat _ _ _

theorem sweep_sets (hi : i < 256) (acc : s.accepts .attIctrl i m .whole (withBit v 63)) :
    exec (.sweep m i v) s = .next ((s.wrote i (withBit v 63) .attIctrl).sweeps i) := by
  rw [exec_sweep, execSweep, isInst, decide_eq_true hi, unit_true, State.regWrite_whole s .attIctrl i _ m acc (by decide)
    (by simp [State.hitsLock, Reg.fieldsAt, Reg.fields]) rfl, State.afterWrite, bit_withBit, if_pos rfl, State.sweeps]

/-- EN rises where a write that sets it is taken. -/
theorem State.accepts_rises (acc : s.accepts .attIpool i m .whole (withBit v 0)) :
    rises (s.r .attIpool i) (s.merged .attIpool i .whole (withBit v 0)) 0 = true := by
  have new : bit (s.merged .attIpool i .whole (withBit v 0)) 0 = true := by
    have := State.merged_rw s .attIpool i .whole (withBit v 0) 0 0 (by simp [Reg.fieldsAt, Reg.fields])
    simp only [bit, this, joined, bits_withBit, beq_self_eq_true]
  have off := acc.2.2.2.2.1
  simp only [State.enBusy, enField, guardField, Bool.or_false, ATT_IPOOL.EN, State.newValue, new, Bool.and_true] at off
  simp only [Sys2Proof.Machine.rises, new, Bool.and_true, Bool.not_eq_true']
  exact off

theorem poolEnable_sets (hi : i < 256) (acc : s.accepts .attIpool i m .whole (withBit v 0)) :
    exec (.poolEnable m i v) s = .next (((s.wrote i (withBit v 0) .attIpool).incWrap ATT_ISPILLED.EPOCH i 1).showAtt i) := by
  rw [exec_poolEnable, execPoolEnable, isInst, decide_eq_true hi, unit_true, State.regWrite_whole s .attIpool i _ m acc
    (by decide) (by simp [State.hitsLock, Reg.fieldsAt, Reg.fields]) rfl, State.afterWrite, s.accepts_rises m i v acc, if_pos rfl]

/-- The clearing write of a pool clears EN and shows the instance. -/
theorem poolDisable_clears (hi : i < 256) (clears : s.clears .attIpool i m .whole (withoutBit v 0) ATT_IPOOL.EN) :
    exec (.poolDisable m i v) s = .next ((s.setF ATT_IPOOL.EN i 0).showAtt i) := by
  have on : s.fb ATT_IPOOL.EN i = true := by
    have := clears.2.2.2.1
    unfold State.clearsEn at this
    simp only [enField] at this
    split at this
    · rename_i h
      exact (Bool.and_eq_true_iff.mp h).1
    · cases this
  have off : bit (putBits (s.r .attIpool i) 0 0 0) 0 = false := by simp [bit, bits_putBits]
  have fell : falls (s.r .attIpool i) (putBits (s.r .attIpool i) 0 0 0) 0 = true := by
    simp only [falls, off, Bool.not_false, Bool.and_true]
    exact on
  have norise : rises (s.r .attIpool i) (putBits (s.r .attIpool i) 0 0 0) 0 = false := by
    simp only [rises, off, Bool.and_false]
  rw [exec_poolDisable, execPoolDisable, isInst, decide_eq_true hi, unit_true,
    State.regWrite_clears s .attIpool i m .whole _ _ (by decide) (by decide) clears]
  simp only [ATT_IPOOL.EN, State.afterWrite, fell, norise, Bool.false_eq_true, if_false, if_true, State.setF]

/-- A pool with contexts or spilled sequences is not disabled. -/
theorem poolDisable_refused (hi : i < 256) (live : s.live) (may : s.permits .attIpool i m true 0 = true)
    (unlocked : s.lockedBy .attIpool i = none) (on : s.fb ATT_IPOOL.EN i = true)
    (used : s.f ATT_ISTAT.CTX_USED i ≠ 0 ∨ s.f ATT_ISPILLED.SPILLED i ≠ 0) :
    exec (.poolDisable m i v) s = .next (s.refuseWrite .attIpool i m .whole) := by
  have may' : s.permits .attIpool i m true (s.camPort .attIpool i .whole (withoutBit v 0)) = true := may
  have new : bit (s.merged .attIpool i .whole (withoutBit v 0)) 0 = false := by
    have := State.merged_rw s .attIpool i .whole (withoutBit v 0) 0 0 (by simp [Reg.fieldsAt, Reg.fields])
    simp [bit, this, joined, bits_withoutBit]
  have clears : s.clearsEn .attIpool i (s.newValue .attIpool i .whole (withoutBit v 0)) = some ATT_IPOOL.EN := by
    simp [State.clearsEn, enField, State.newValue, ATT_IPOOL.EN, new]
    exact on
  have judged : s.regWrite .attIpool i m .whole (withoutBit v 0) = s.judgeWrite .attIpool i m .whole (withoutBit v 0) := by
    unfold State.regWrite
    rw [if_neg (by simp [live.1]), State.live_open s _ live, if_neg (by simp), may']
    simp only [Bool.not_true, Bool.false_eq_true, if_false]
  rw [exec_poolDisable, execPoolDisable, isInst, decide_eq_true hi, unit_true, judged, State.judgeWrite]
  simp only [unlocked, clears]
  rw [if_pos (by simpa [State.clearBad] using used)]

end

section
variable (s : State) (i : Nat) (v : Word)

/-- The state after the write that enables a pool. -/
def State.poolOpened : State := ((s.wrote i (withBit v 0) .attIpool).incWrap ATT_ISPILLED.EPOCH i 1).showAtt i

theorem bits_withBit_above (hi lo : Nat) (h : 0 < lo) : bits (withBit v 0) hi lo = bits v.toNat hi lo :=
  bits_putBits_above _ _ _ _ _ _ (by omega) h

theorem State.poolOpened_pool (x : Fld) (hx : x.reg = .attIpool) (hm : (x.hi, x.lo, FKind.rw) ∈ x.reg.fieldsAt i) :
    (s.poolOpened i v).f x i = bits (withBit v 0) x.hi x.lo := by
  have after : Leaves [] (fun r _ => r = .attIspilled ∨ r = .attIstat) (s.wrote i (withBit v 0) .attIpool) (s.poolOpened i v) :=
    .showAtt (.incWrap (.refl _ _ _) (.inl rfl)) (.inr rfl)
  rw [after.f_same x i (by simp [hx]), ← hx, s.wrote_rw i _ x hm]

theorem State.poolOpened_epoch : (s.poolOpened i v).f ATT_ISPILLED.EPOCH i = (s.f ATT_ISPILLED.EPOCH i + 1) % 65536 := by
  rw [State.poolOpened, State.showAtt_f _ _ _ _ (by decide), State.incWrap, State.setF_f_same _ ATT_ISPILLED.EPOCH i _ (by decide),
    s.wrote_f i _ .attIpool ATT_ISPILLED.EPOCH i (by decide)]
  rfl

theorem State.poolOpened_spilled : (s.poolOpened i v).f ATT_ISPILLED.SPILLED i = s.f ATT_ISPILLED.SPILLED i := by
  rw [State.poolOpened, State.showAtt_f _ _ _ _ (by decide), State.incWrap,
    State.setF_f_apart _ ATT_ISPILLED.EPOCH ATT_ISPILLED.SPILLED _ _ _ (by decide) (by decide),
    s.wrote_f i _ .attIpool ATT_ISPILLED.SPILLED i (by decide)]

theorem State.leaves_poolOpened :
    Leaves [] (fun r k => (r = .attIpool ∨ r = .attIspilled ∨ r = .attIstat) ∧ k = i) s (s.poolOpened i v) :=
  .showAtt (.incWrap ((s.leaves_wrote i _ .attIpool).mono (by simp) fun _ _ e => ⟨.inl e.1, e.2⟩) ⟨.inr (.inl rfl), rfl⟩)
    ⟨.inr (.inr rfl), rfl⟩

/-- SAT_PINNED takes what the write that sets SWEEP holds for it. -/
theorem State.wrote_satPinned : (s.wrote i (withBit v 63) .attIctrl).f ATT_ICTRL.SAT_PINNED i = bits v.toNat 15 0 := by
  change (s.wrote i (withBit v 63) ATT_ICTRL.SAT_PINNED.reg).f ATT_ICTRL.SAT_PINNED i = _
  rw [s.wrote_rw i _ ATT_ICTRL.SAT_PINNED (by simp [Reg.fieldsAt, Reg.fields, ATT_ICTRL.SAT_PINNED])]
  exact bits_withBit_below v 15 0 (by decide)

theorem State.poolClosed_en : ((s.setF ATT_IPOOL.EN i 0).showAtt i).fb ATT_IPOOL.EN i = false := by
  rw [State.fb, State.showAtt_f _ _ _ _ (by decide), State.setF_f_same _ ATT_IPOOL.EN i 0 (by decide)]
  rfl

theorem State.poolClosed_rest : bits (((s.setF ATT_IPOOL.EN i 0).showAtt i).r .attIpool i) 63 14 = bits (s.r .attIpool i) 63 14 := by
  rw [(State.leaves_showAtt _ i).2 .attIpool i (by simp [attStat, oneReg])]
  have written := State.setF_r_same s ATT_IPOOL.EN i 0 (by decide)
  exact (congrArg (bits · 63 14) written).trans (bits_putBits_above _ _ _ _ _ _ (by decide) (by decide))

end

/-- Settles O31: register writes by `regWrite_whole` and `regWrite_clears`, the end of a sweep by `sweepEnd_ends`. -/
theorem poolsAreEnabledSweptAndDisabled : Obligations.PoolsAreEnabledSweptAndDisabled := by
  refine ⟨fun s m i v hi acc => ?_, sweepDone_ends, fun s i hi idle => ?_, fun s m i v hi acc => ?_, fun s m i v hi clears => ?_,
    fun s m i v hi live may unlocked on used => ?_⟩
  · have sweeping : (s.wrote i (withBit v 63) .attIctrl).work.sweeping = s.work.sweeping :=
      (s.leaves_wrote i (withBit v 63) .attIctrl).1 .sweeping (by simp)
    have on := s.wrote_w1s i _ ATT_ICTRL.SWEEP rfl (by simp [Reg.fieldsAt, Reg.fields, ATT_ICTRL.SWEEP]) (bit_withBit v 63)
    have after := (s.wrote i (withBit v 63) .attIctrl).leaves_sweeps i
    refine ⟨_, sweep_sets s m i v hi acc, (State.mem_sweeps _ i i).2 (.inr rfl),
      fun k hk => (State.mem_sweeps _ i k).2 (.inl (by rw [sweeping]; exact hk)), ?_, ?_,
      ((s.leaves_wrote i _ .attIctrl).mono (by simp) fun _ _ e => e).into after (by simp) fun _ _ no => no.elim⟩
    · rw [State.fb, after.f_same _ _ (by simp [noReg])]
      exact on
    · rw [after.f_same _ _ (by simp [noReg]), s.wrote_satPinned i v]
  · rw [exec_sweepDone, execSweepDone, decide_eq_true hi, unit_true, State.sweepEnd, if_pos (by simpa using idle)]
  · refine ⟨s.poolOpened i v, poolEnable_sets s m i v hi acc, State.fb_of_f ?_, ?_, ?_, s.poolOpened_epoch i v,
      s.poolOpened_spilled i v, s.leaves_poolOpened i v⟩
    · rw [s.poolOpened_pool i v ATT_IPOOL.EN rfl (by simp [Reg.fieldsAt, Reg.fields, ATT_IPOOL.EN])]
      exact bits_withBit v 0
    · rw [s.poolOpened_pool i v ATT_IPOOL.POOL_BASE rfl (by simp [Reg.fieldsAt, Reg.fields, ATT_IPOOL.POOL_BASE])]
      exact bits_withBit_above v 63 16 (by decide)
    · rw [s.poolOpened_pool i v ATT_IPOOL.PAGE_CODE rfl (by simp [Reg.fieldsAt, Reg.fields, ATT_IPOOL.PAGE_CODE])]
      exact bits_withBit_above v 15 14 (by decide)
  · exact ⟨_, poolDisable_clears s m i v hi clears, s.poolClosed_en i, s.poolClosed_rest i,
      .showAtt (.setF (.refl _ _ s) ⟨.inl rfl, rfl⟩) ⟨.inr rfl, rfl⟩⟩
  · obtain ⟨flag, -⟩ := s.regFlag_raised SYS_REGERR.REFUSED m (Reg.attIpool.offset i + halfOff .whole) false Reg.attIpool.inDoor (.inr rfl)
    exact ⟨_, poolDisable_refused s m i v hi live may unlocked on used, flag, leaves_regFlag s _ _ _ _ _ rfl⟩

end Sys2Proof.Machine
end

section
/-! PROOFS. Executions of recast pairs are aborted (R137, R139). -/

set_option Elab.async false

namespace Sys2Proof.Machine

theorem pairUnit_arr {a : Nat} (h : a < 34) : pairUnit a = (false, a) := by rw [pairUnit, if_pos h]

theorem pairUnit_vec {a : Nat} (h : 34 ≤ a) : pairUnit a = (true, a - 34) := by rw [pairUnit, if_neg (by omega)]

/-- The registers that an abort of a unit of a pair may change. -/
def unitRegs (vec : Bool) (u : Nat) (r : Reg) (i : Nat) : Prop :=
  r = .sysFlshare ∨ (vec = false ∧ (r = .arrStatus ∨ r = .arrPerf) ∧ i = u) ∨ (vec = true ∧ r = .vecStatus ∧ i = u)

/-- The same by the number of the unit. -/
theorem unitRegs_number {a : Nat} {r : Reg} {i : Nat} (h : unitRegs (pairUnit a).1 (pairUnit a).2 r i) :
    r = .sysFlshare ∨ ((r = .arrStatus ∨ r = .arrPerf) ∧ i = a) ∨ (r = .vecStatus ∧ i + 34 = a) := by
  rcases Nat.lt_or_ge a 34 with small | large
  · rw [pairUnit_arr small] at h
    rcases h with e | ⟨-, e⟩ | ⟨no, -⟩
    · exact .inl e
    · exact .inr (.inl e)
    · cases no
  · rw [pairUnit_vec large] at h
    rcases h with e | ⟨no, -⟩ | ⟨-, e, at_⟩
    · exact .inl e
    · cases no
    · exact .inr (.inr ⟨e, by omega⟩)

/-- The parts that an abort of a unit may change. -/
def unitParts : List Part := [.arrays, .vecs, .flasks, .jobs, .freeCtr]

section
variable (s : State) (vec : Bool) (u : Nat)

theorem State.chargeRun_cmpFault (a f : Nat) : ((s.chargeRun a).flask f).cmpFault = (s.flask f).cmpFault := by
  have charged : ∀ (t : State) (g j ns : Nat), ((t.charge g j ns).flask f).cmpFault = (t.flask f).cmpFault := by
    intro t g j ns
    rw [State.charge, State.modJob_flask, State.incWrap_flask, State.modFlask_flask]
    split
    · next e => rw [e]
    · rfl
  unfold State.chargeRun
  split
  · rfl
  · split
    · rfl
    · dsimp only
      split
      · rw [State.modArr_flask, State.lendCharge, State.modFlask_flask]
        split
        · next e => rw [← e]; exact (congrArg FlaskSt.cmpFault (State.modArr_flask ..)).trans (charged ..)
        · exact (congrArg FlaskSt.cmpFault (State.modArr_flask ..)).trans (charged ..)
      · exact (congrArg FlaskSt.cmpFault (State.modArr_flask ..)).trans (charged ..)

theorem State.leaves_abortUnit : Leaves unitParts (unitRegs vec u) s (s.abortUnit vec u) := by
  unfold State.abortUnit
  cases vec with
  | true => exact .setF (.modVec (.refl _ _ s) (by simp [unitParts])) (.inr (.inr ⟨rfl, rfl, rfl⟩))
  | false =>
    exact ((s.leaves_chargeRun u).mono (by simp [unitParts]) fun _ _ e => .inl e).into ((s.chargeRun u).leaves_abortArr u)
      (by simp [unitParts]) fun _ _ e => .inr (.inl ⟨rfl, e⟩)

theorem State.abortUnit_pairs : (s.abortUnit vec u).units.pairs = s.units.pairs :=
  (s.leaves_abortUnit vec u).1 .pairs (by simp [unitParts])

theorem State.abortUnit_state : (s.abortUnit false u).f ARR_STATUS.STATE u = 3 := (s.chargeRun u).abortArr_state u

theorem State.abortUnit_item : ((s.abortUnit true u).vec u).item = none := by
  rw [State.abortUnit, if_pos rfl, State.setF_vec, State.modVec_vec, if_pos rfl]

theorem State.abortUnit_cmpFault (f : Nat) : ((s.abortUnit vec u).flask f).cmpFault = (s.flask f).cmpFault := by
  cases vec with
  | true =>
    rw [State.abortUnit, if_pos rfl, State.setF_flask, State.modVec_flask]
  | false =>
    have arr := ((s.chargeRun u).leaves_abortArr u).1 .flasks (by simp)
    rw [State.abortUnit, if_neg (by decide), State.flask, arr]
    exact s.chargeRun_cmpFault u f

theorem State.pairOf_same {s t : State} (h : t.units.pairs = s.units.pairs) (vec : Bool) (u : Nat) : t.pairOf vec u = s.pairOf vec u := by
  rw [State.pairOf, State.pairOf, h]

theorem State.unit_of_pairOf {p : Pair} (h : s.pairOf vec u = some p) : p.vec = vec ∧ (p.pri = u ∨ p.rc = u) := by
  have := List.find?_some h
  simpa using this

theorem bit_eq_testBit (n k : Nat) : bit n k = n.testBit k := by
  rw [Nat.testBit_eq_decide_div_mod_eq, bit, bits, (by omega : k + 1 - k = 1)]
  rfl

theorem bit_lor (n m k : Nat) : bit (Nat.lor n m) k = (bit n k || bit m k) := by
  simp only [bit_eq_testBit]
  exact Nat.testBit_lor n m k

/-- The first overrun of a pair neither of whose executions has ended. -/
theorem Pair.not_bothEnded_overran (p : Pair) (ne : p.pri ≠ p.rc) (pri : p.openFor p.pri = true)
    (rc : p.openFor p.rc = true) :
    ({ p with overran := Nat.lor p.overran (if p.pri = u then 1 else 2) } : Pair).bothEnded = false := by
  rw [Pair.openFor, if_pos rfl] at pri
  rw [Pair.openFor, if_neg ne] at rc
  simp only [Bool.and_eq_true, Bool.not_eq_true'] at pri rc
  obtain ⟨priEnd, priBit⟩ := pri
  obtain ⟨rcEnd, rcBit⟩ := rc
  unfold Pair.bothEnded
  by_cases e : p.pri = u
  · rw [if_pos e]
    simp only [bit_lor, rcBit, (by decide : bit 1 1 = false), Option.isNone_iff_eq_none.1 rcEnd, Option.isSome_none, Bool.or_self,
      Bool.and_false]
  · rw [if_neg e]
    simp only [bit_lor, priBit, (by decide : bit 2 0 = false), Option.isNone_iff_eq_none.1 priEnd, Option.isSome_none, Bool.or_self,
      Bool.false_and]

/-- An overrun is noted in the pair, and the pair waits for its other execution. -/
theorem State.overrunUnit_notes {p : Pair} (hp : s.pairOf vec u = some p) (ne : p.pri ≠ p.rc) (pri : p.openFor p.pri = true)
    (rc : p.openFor p.rc = true) :
    s.overrunUnit vec u p = (s.abortUnit vec u).modPair vec u (fun q => { q with overran := Nat.lor q.overran (if p.pri = u then 1 else 2) })
      ∧ (s.overrunUnit vec u p).pairOf vec u = some { p with overran := Nat.lor p.overran (if p.pri = u then 1 else 2) } := by
  have noted : ((s.abortUnit vec u).modPair vec u fun q => { q with overran := Nat.lor q.overran (if p.pri = u then 1 else 2) }).pairOf
      vec u = some { p with overran := Nat.lor p.overran (if p.pri = u then 1 else 2) } :=
    State.modPair_pairOf _ vec u _ p ((State.pairOf_same (s.abortUnit_pairs vec u) vec u).trans hp) fun _ => ⟨rfl, rfl, rfl⟩
  have run : s.overrunUnit vec u p
      = (s.abortUnit vec u).modPair vec u (fun q => { q with overran := Nat.lor q.overran (if p.pri = u then 1 else 2) }) := by
    unfold State.overrunUnit
    dsimp only
    rw [noted]
    dsimp only
    rw [p.not_bothEnded_overran u ne pri rc, if_neg (by decide)]
  exact ⟨run, by rw [run, noted]⟩

/-! ### The outcome of a re-execution that is aborted -/

theorem State.settle_pairOf {p : Pair} (outcome : Nat) (hp : s.pairOf vec u = some p) :
    (s.settle vec u outcome).pairOf vec u
      = some { p with outcome := outcome, phase := if outcome = 1 then .release else .faultOut } :=
  State.modPair_pairOf s vec u _ p hp fun _ => ⟨rfl, rfl, rfl⟩

theorem State.reexecEnd_none {p : Pair} (hp : s.pairOf vec u = some p) :
    ((s.flask p.flask).cmpFault = true → s.reexecEnd vec u none = s.splitPair p)
      ∧ ((s.flask p.flask).cmpFault = false → p.overran = 0 →
          s.reexecEnd vec u none = (s.settle vec u 1).foundFaulty vec p.rc 1)
      ∧ ((s.flask p.flask).cmpFault = false → p.overran ≠ 0 → s.reexecEnd vec u none = s.settle vec u 2) := by
  unfold State.reexecEnd
  rw [hp]
  dsimp only
  refine ⟨fun torn => by rw [if_pos torn], fun whole zero => ?_, fun whole some => ?_⟩
  · rw [if_neg (by simp [whole])]
    simp only [zero, sigsMatch, Bool.false_eq_true, if_false]
  · rw [if_neg (by simp [whole])]
    split
    · contradiction
    · simp only [sigsMatch, Bool.false_eq_true, if_false]
    · simp only [sigsMatch, Bool.false_eq_true, if_false]

/-- What finding a unit faulty changes. -/
theorem State.leaves_foundFaulty (how : Nat) :
    Leaves [.arrays, .freeCtr, .keptIrqs, .outbox, .safePins, .record, .vecs]
      (fun r i => (r = .arrRcstat ∧ i = u) ∨ (r = .sysSafestat ∧ i = 0)) s (s.foundFaulty vec u how) := by
  unfold State.foundFaulty
  refine .safety ?_ rfl (by decide) (.inr ⟨rfl, rfl⟩)
  split
  · exact .modVec (.modRec (.refl _ _ s) (by simp))
  · refine .modArr (.setF (.incSat (.refl _ _ s) ?_) (.inl ⟨rfl, rfl⟩))
    split <;> exact .inl ⟨rfl, rfl⟩

theorem State.foundFaulty_isolated (how : Nat) : (s.foundFaulty vec u how).fb SYS_SAFESTAT.ISOLATED 0 = true :=
  State.fb_of_f (State.safety_f _ _ _ _ (by decide) (by decide) (by decide) (by decide))

/-- A recast array that is found faulty. -/
theorem State.foundFaulty_array :
    (s.foundFaulty false u 1).fb ARR_RCSTAT.FAULTY u = true
      ∧ (s.foundFaulty false u 1).f ARR_RCSTAT.ISO_RC u = min (s.f ARR_RCSTAT.ISO_RC u + 1) ARR_RCSTAT.ISO_RC.top
      ∧ ((s.foundFaulty false u 1).arr u).retireDue = some 1 := by
  have run : s.foundFaulty false u 1 = (((s.incSat ARR_RCSTAT.ISO_RC u 1).setF ARR_RCSTAT.FAULTY u 1).modArr u
      fun x => { x with retireDue := some 1 }).safety SYS_SAFESTAT.ISOLATED u 1 := by
    unfold State.foundFaulty
    rfl
  rw [run]
  generalize ht : (((s.incSat ARR_RCSTAT.ISO_RC u 1).setF ARR_RCSTAT.FAULTY u 1).modArr u
      fun x => { x with retireDue := some 1 }) = t
  have after : Leaves safetyParts (oneReg .sysSafestat 0) t (t.safety SYS_SAFESTAT.ISOLATED u 1) :=
    .safety (.refl _ _ t) rfl (List.Subset.refl _)
  refine ⟨State.fb_of_f ?_, ?_, ?_⟩
  · rw [after.f_same ARR_RCSTAT.FAULTY u (by simp [oneReg, ARR_RCSTAT.FAULTY]), ← ht, State.modArr_f,
      State.setF_f_same _ ARR_RCSTAT.FAULTY u 1 (by decide)]
    rfl
  · rw [after.f_same ARR_RCSTAT.ISO_RC u (by simp [oneReg, ARR_RCSTAT.ISO_RC]), ← ht, State.modArr_f,
      State.setF_f_apart _ ARR_RCSTAT.FAULTY ARR_RCSTAT.ISO_RC _ _ _ (by decide) (by decide)]
    exact State.incSat_f_same s ARR_RCSTAT.ISO_RC u 1 (by decide)
  · rw [after.arr_same (by decide) u, ← ht, State.modArr_arr, if_pos rfl]

theorem State.foundFaulty_vec (how : Nat) : (s.foundFaulty true u how).vec u = { s.vec u with withdrawDue := true } := by
  have run : s.foundFaulty true u how = ((s.modRec fun r => { r with
      vecs := satAdd32 r.vecs (4 * u + (if how = 1 then 1 else 0)) 1 }).modVec u
        fun v => { v with withdrawDue := true }).safety SYS_SAFESTAT.ISOLATED u how := by
    unfold State.foundFaulty
    rfl
  rw [run]
  generalize ht : ((s.modRec fun r => { r with vecs := satAdd32 r.vecs (4 * u + (if how = 1 then 1 else 0)) 1 }).modVec u
      fun v => { v with withdrawDue := true }) = t
  have after : Leaves safetyParts (oneReg .sysSafestat 0) t (t.safety SYS_SAFESTAT.ISOLATED u how) :=
    .safety (.refl _ _ t) rfl (List.Subset.refl _)
  have vecs : (t.safety SYS_SAFESTAT.ISOLATED u how).vec u = t.vec u := by
    rw [State.vec, State.vec, after.1 .vecs (by decide)]
  rw [vecs, ← ht, State.modVec_vec, if_pos rfl, State.modRec_vec]

end

end Sys2Proof.Machine
end

section
/-! PROOFS. Overruns and isolation deadlines (R137, R139, R142). -/

set_option Elab.async false

namespace Sys2Proof.Machine

section
variable (s : State) (vec : Bool) (u : Nat)

/-- The execution of a unit, if it runs one, is aborted. -/
def State.stopUnit : State := (s.execStart vec u).elim s fun _ => s.abortUnit vec u

theorem State.stopUnit_cases : s.stopUnit vec u = s ∧ s.execStart vec u = none ∨ s.stopUnit vec u = s.abortUnit vec u := by
  unfold State.stopUnit
  cases s.execStart vec u with
  | none => exact .inl ⟨rfl, rfl⟩
  | some t => exact .inr rfl

theorem State.leaves_stopUnit : Leaves unitParts (unitRegs vec u) s (s.stopUnit vec u) := by
  rcases s.stopUnit_cases vec u with ⟨e, -⟩ | e <;> rw [e]
  · exact .refl _ _ s
  · exact s.leaves_abortUnit vec u

theorem State.stopUnit_pairOf : (s.stopUnit vec u).pairOf vec u = s.pairOf vec u :=
  State.pairOf_same ((s.leaves_stopUnit vec u).1 .pairs (by simp [unitParts])) vec u

theorem State.stopUnit_cmpFault (f : Nat) : ((s.stopUnit vec u).flask f).cmpFault = (s.flask f).cmpFault := by
  rcases s.stopUnit_cases vec u with ⟨e, -⟩ | e <;> rw [e]
  exact s.abortUnit_cmpFault vec u f

theorem State.stopUnit_state (h : (s.execStart false u).isSome = true) : (s.stopUnit false u).f ARR_STATUS.STATE u = 3 := by
  rcases s.stopUnit_cases false u with ⟨-, e⟩ | e
  · rw [e] at h
    cases h
  · rw [e]
    exact s.abortUnit_state u

theorem State.stopUnit_item : ((s.stopUnit true u).vec u).item = none := by
  rcases s.stopUnit_cases true u with ⟨e, idle⟩ | e <;> rw [e]
  · simpa [State.execStart] using idle
  · exact s.abortUnit_item u

end

theorem State.leaves_settle (s : State) (vec : Bool) (u outcome : Nat) : Leaves [.pairs] noReg s (s.settle vec u outcome) :=
  .modPair (.refl _ _ s)

section
variable {s : State} {a : Nat} {p : Pair}

theorem overrunGo_runs {vec : Bool} {u t0 : Nat} (unit : pairUnit a = (vec, u)) (hp : s.pairOf vec u = some p)
    (start : s.execStart vec u = some t0) : overrunGo a s
      = if p.phase = .running && p.openFor u && reached s.now (t0 + 8000) then s.overrunUnit vec u p else s := by
  unfold overrunGo
  rw [unit]
  dsimp only
  rw [hp, start]

theorem overrun_runs {vec : Bool} {u t0 : Nat} (ha : a < 50) (unit : pairUnit a = (vec, u)) (hp : s.pairOf vec u = some p)
    (start : s.execStart vec u = some t0) : exec (.overrun a) s
      = .next (if p.phase = .running && p.openFor u && reached s.now (t0 + 8000) then s.overrunUnit vec u p else s) := by
  rw [exec_overrun, execOverrun, isPairUnit, decide_eq_true ha, unit_true, overrunGo_runs unit hp start]

theorem isoDeadlineGo_stops {vec : Bool} {u : Nat} (unit : pairUnit a = (vec, u)) (hp : s.pairOf vec u = some p)
    (again : p.phase = .reexec) (here : p.again = u) (agree : p.split = false)
    (late : reached s.now (p.laterStart + 17000) = true) : isoDeadlineGo a s = (s.stopUnit vec u).reexecEnd vec u none := by
  unfold isoDeadlineGo
  rw [unit]
  dsimp only
  rw [hp]
  dsimp only
  rw [if_pos (by simp [again, here, agree, late]), State.stopUnit]

theorem isolationDeadline_runs {vec : Bool} {u : Nat} (ha : a < 50) (unit : pairUnit a = (vec, u)) (hp : s.pairOf vec u = some p)
    (again : p.phase = .reexec) (here : p.again = u) (agree : p.split = false)
    (late : reached s.now (p.laterStart + 17000) = true) :
    exec (.isolationDeadline a) s = .next ((s.stopUnit vec u).reexecEnd vec u none) := by
  rw [exec_isolationDeadline, execIsolationDeadline, isPairUnit, decide_eq_true ha, unit_true,
    isoDeadlineGo_stops unit hp again here agree late]

theorem isolationDeadline_early {vec : Bool} {u : Nat} (unit : pairUnit a = (vec, u)) (hp : s.pairOf vec u = some p)
    (not : p.phase ≠ .reexec ∨ p.again ≠ u ∨ p.split = true ∨ reached s.now (p.laterStart + 17000) = false) :
    isoDeadlineGo a s = s := by
  unfold isoDeadlineGo
  rw [unit]
  dsimp only
  rw [hp]
  dsimp only
  rw [if_neg]
  rcases not with e | e | e | e <;> simp [e]

theorem unit_same (c : Bool) : unit s c s = .next s := by
  cases c <;> rfl

/-- The registers that an abort of unit `a` of a pair may change, by the unit's number. -/
def stopRegs (a : Nat) (r : Reg) (i : Nat) : Prop :=
  r = .sysFlshare ∨ ((r = .arrStatus ∨ r = .arrPerf) ∧ i = a) ∨ (r = .vecStatus ∧ i + 34 = a)

theorem stopRegs_of {vec : Bool} {u : Nat} (unit : pairUnit a = (vec, u)) {r : Reg} {i : Nat} (h : unitRegs vec u r i) :
    stopRegs a r i := by
  refine unitRegs_number ?_
  rw [unit]
  exact h

theorem arr_of_unit {vec : Bool} {u : Nat} (unit : pairUnit a = (vec, u)) (h : a < 34) : vec = false ∧ u = a := by
  rw [pairUnit_arr h] at unit
  cases unit
  exact ⟨rfl, rfl⟩

theorem vec_of_unit {vec : Bool} {u : Nat} (unit : pairUnit a = (vec, u)) (h : 34 ≤ a) : vec = true ∧ u = a - 34 := by
  rw [pairUnit_vec h] at unit
  cases unit
  exact ⟨rfl, rfl⟩

/-- The first execution that overruns. -/
theorem overrun_aborts {vec : Bool} {u t0 : Nat} (ha : a < 50) (unit : pairUnit a = (vec, u)) (hp : s.pairOf vec u = some p)
    (start : s.execStart vec u = some t0) (runs : p.phase = .running) (ne : p.pri ≠ p.rc)
    (pri : p.openFor p.pri = true) (rc : p.openFor p.rc = true) (late : reached s.now (t0 + 8000) = true) :
    ∃ t, exec (.overrun a) s = .next t
        ∧ t.pairOf vec u = some { p with overran := Nat.lor p.overran (if p.pri = u then 1 else 2) }
        ∧ (a < 34 → t.f ARR_STATUS.STATE a = 3) ∧ (34 ≤ a → (t.vec (a - 34)).item = none)
        ∧ Leaves [.pairs, .arrays, .vecs, .flasks, .jobs, .freeCtr] (stopRegs a) s t := by
  have opened : p.openFor u = true := by
    rcases (s.unit_of_pairOf _ _ hp).2 with e | e <;> rw [← e]
    · exact pri
    · exact rc
  obtain ⟨run, noted⟩ := s.overrunUnit_notes _ _ hp ne pri rc
  have noting : ∀ g, Leaves [.pairs] noReg (s.abortUnit vec u) ((s.abortUnit vec u).modPair vec u g) := fun _ => .modPair (.refl _ _ _)
  have cond : (decide (p.phase = .running) && p.openFor u && reached s.now (t0 + 8000)) = true := by simp [runs, opened, late]
  refine ⟨_, by rw [overrun_runs ha unit hp start, if_pos cond], noted, fun small => ?_, fun large => ?_, ?_⟩
  · obtain ⟨rfl, rfl⟩ := arr_of_unit unit small
    rw [run, (noting _).f_same ARR_STATUS.STATE _ (by simp [noReg])]
    exact s.abortUnit_state u
  · obtain ⟨rfl, rfl⟩ := vec_of_unit unit large
    rw [run, State.vec, (noting _).1 .vecs (by simp)]
    exact s.abortUnit_item (a - 34)
  · rw [run]
    exact .modPair (((s.leaves_abortUnit _ _).mono (by simp [unitParts])) fun _ _ e => stopRegs_of unit e)

/-- One that has ended, or is not late. -/
theorem overrun_waits {vec : Bool} {u t0 : Nat} (ha : a < 50) (unit : pairUnit a = (vec, u)) (hp : s.pairOf vec u = some p)
    (start : s.execStart vec u = some t0)
    (not : p.phase ≠ .running ∨ p.openFor u = false ∨ reached s.now (t0 + 8000) = false) : exec (.overrun a) s = .next s := by
  rw [overrun_runs ha unit hp start, if_neg]
  rcases not with e | e | e <;> simp [e]

/-- What the abort of a unit and the outcome of its pair leave. -/
theorem stopped_settled {vec : Bool} {u : Nat} (unit : pairUnit a = (vec, u)) (outcome : Nat) :
    Leaves [.pairs, .arrays, .vecs, .flasks, .jobs, .freeCtr] (stopRegs a) s ((s.stopUnit vec u).settle vec u outcome) :=
  (((s.leaves_stopUnit vec u).mono (by simp [unitParts])) fun _ _ e => stopRegs_of unit e).into
    (State.leaves_settle _ vec u outcome) (by simp) fun _ _ no => no.elim

/-- A re-execution that is aborted at its deadline, where both executions had ended: the recast unit is faulty. -/
theorem isolationDeadline_recast {vec : Bool} {u : Nat} (ha : a < 50) (unit : pairUnit a = (vec, u))
    (hp : s.pairOf vec u = some p) (again : p.phase = .reexec)
    (here : p.again = u) (agree : p.split = false) (late : reached s.now (p.laterStart + 17000) = true)
    (whole : (s.flask p.flask).cmpFault = false) (none_ : p.overran = 0) :
    ∃ t, exec (.isolationDeadline a) s = .next t
        ∧ t.pairOf vec u = some { p with outcome := 1, phase := .release }
        ∧ t.fb SYS_SAFESTAT.ISOLATED 0 = true
        ∧ (a < 34 → t.fb ARR_RCSTAT.FAULTY p.rc = true
            ∧ t.f ARR_RCSTAT.ISO_RC p.rc = min (s.f ARR_RCSTAT.ISO_RC p.rc + 1) ARR_RCSTAT.ISO_RC.top
            ∧ (t.arr p.rc).retireDue = some 1)
        ∧ (34 ≤ a → (t.vec (a - 34)).item = none ∧ (t.vec p.rc).withdrawDue = true)
        ∧ (a < 34 → (s.execStart false a).isSome = true → t.f ARR_STATUS.STATE a = 3)
        ∧ Leaves [.arrays, .flasks, .freeCtr, .jobs, .keptIrqs, .outbox, .pairs, .safePins, .record, .vecs]
            (fun r i => r = .sysFlshare ∨ ((r = .arrStatus ∨ r = .arrPerf) ∧ i = a) ∨ (r = .vecStatus ∧ i + 34 = a)
              ∨ (r = .arrRcstat ∧ i = p.rc) ∨ (r = .sysSafestat ∧ i = 0)) s t := by
  have pair := (s.stopUnit_pairOf vec u).trans hp
  have run := (State.reexecEnd_none _ _ _ pair).2.1 ((s.stopUnit_cmpFault _ _ _).trans whole) none_
  have settled := State.settle_pairOf _ _ _ 1 pair
  have outcome := State.leaves_settle (s.stopUnit vec u) vec u 1
  have leaves := stopped_settled (s := s) unit 1
  generalize (s.stopUnit vec u).settle vec u 1 = t at run settled outcome leaves
  have faulty := t.leaves_foundFaulty vec p.rc 1
  refine ⟨_, by rw [isolationDeadline_runs ha unit hp again here agree late, run], ?_, t.foundFaulty_isolated _ _ _, fun small => ?_,
    fun large => ?_, fun small runs => ?_, ?_⟩
  · rw [State.pairOf_same (faulty.1 .pairs (by simp)), settled]
    rfl
  · obtain ⟨rfl, rfl⟩ := arr_of_unit unit small
    have iso : t.f ARR_RCSTAT.ISO_RC p.rc = s.f ARR_RCSTAT.ISO_RC p.rc :=
      leaves.f_same _ _ (by simp [stopRegs, ARR_RCSTAT.ISO_RC])
    have found := t.foundFaulty_array p.rc
    rw [iso] at found
    exact found
  · obtain ⟨rfl, rfl⟩ := vec_of_unit unit large
    have unit : p.rc = a - 34 := by
      rwa [Pair.again, if_neg (by omega)] at here
    have due := t.foundFaulty_vec p.rc 1
    have idle := s.stopUnit_item (a - 34)
    rw [← unit] at idle outcome ⊢
    have vec : t.vec p.rc = (s.stopUnit true p.rc).vec p.rc := by
      rw [State.vec, State.vec, outcome.1 .vecs (by simp)]
    rw [due]
    exact ⟨(congrArg VecSt.item vec).trans idle, rfl⟩
  · obtain ⟨rfl, rfl⟩ := arr_of_unit unit small
    rw [faulty.f_same _ _ (by simp [ARR_STATUS.STATE]), outcome.f_same _ _ (by simp [noReg])]
    exact s.stopUnit_state u runs
  · refine (leaves.mono (by simp) fun _ _ e => ?_).into faulty (by simp) fun _ _ e => .inr (.inr (.inr e))
    rcases e with e | e | e
    · exact .inl e
    · exact .inr (.inl e)
    · exact .inr (.inr (.inl e))

/-- One where an execution had overrun: the job is lost. -/
theorem isolationDeadline_lost {vec : Bool} {u : Nat} (ha : a < 50) (unit : pairUnit a = (vec, u))
    (hp : s.pairOf vec u = some p) (again : p.phase = .reexec)
    (here : p.again = u) (agree : p.split = false) (late : reached s.now (p.laterStart + 17000) = true)
    (whole : (s.flask p.flask).cmpFault = false) (some_ : p.overran ≠ 0) :
    ∃ t, exec (.isolationDeadline a) s = .next t
        ∧ t.pairOf vec u = some { p with outcome := 2, phase := .faultOut }
        ∧ (a < 34 → (s.execStart false a).isSome = true → t.f ARR_STATUS.STATE a = 3)
        ∧ Leaves [.pairs, .arrays, .vecs, .flasks, .jobs, .freeCtr] (stopRegs a) s t := by
  have pair := (s.stopUnit_pairOf vec u).trans hp
  have run := (State.reexecEnd_none _ _ _ pair).2.2 ((s.stopUnit_cmpFault _ _ _).trans whole) some_
  refine ⟨_, by rw [isolationDeadline_runs ha unit hp again here agree late, run], ?_, fun small runs => ?_,
    stopped_settled unit 2⟩
  · rw [State.settle_pairOf _ _ _ 2 pair]
    rfl
  · obtain ⟨rfl, rfl⟩ := arr_of_unit unit small
    rw [(State.leaves_settle _ _ _ _).f_same _ _ (by simp [noReg])]
    exact s.stopUnit_state u runs

/-- Changing the pairs of one unit of a pair that was found by the other unit. -/
theorem find?_map_modify_other {α : Type} (c d : α → Bool) (g : α → α) (hg : ∀ q, c (g q) = c q) (xs : List α) (p : α)
    (hp : xs.find? c = some p) (hd : d p = true) : (xs.map fun p => if d p then g p else p).find? c = some (g p) := by
  induction xs with
  | nil => cases hp
  | cons q qs ih =>
    rw [List.map_cons]
    by_cases hq : c q = true
    · rw [List.find?_cons_of_pos hq] at hp
      cases hp
      rw [if_pos hd, List.find?_cons_of_pos (by rw [hg, hq])]
    · rw [List.find?_cons_of_neg hq] at hp
      rw [List.find?_cons_of_neg]
      · exact ih hp
      · split
        · rwa [hg]
        · exact hq

theorem State.modPair_pairOf_other {vec : Bool} {u : Nat} (v : Nat) (g : Pair → Pair) (hp : s.pairOf vec u = some p)
    (hv : p.pri = v ∨ p.rc = v) (hg : ∀ q, (g q).vec = q.vec ∧ (g q).pri = q.pri ∧ (g q).rc = q.rc) :
    (s.modPair p.vec v g).pairOf vec u = some (g p) := by
  refine find?_map_modify_other (fun p : Pair => p.vec == vec && (p.pri == u || p.rc == u))
    (fun q : Pair => q.vec == p.vec && (q.pri == v || q.rc == v)) g (fun q => ?_) s.units.pairs p hp ?_
  · obtain ⟨v, pri, rc⟩ := hg q
    rw [v, pri, rc]
  · rcases hv with e | e <;> simp [e]

/-- The copies of the flask's comparator agree again, and the pair's decision is split. -/
def State.splitNoted (s : State) (p : Pair) : State :=
  (s.modFlask p.flask fun x => { x with cmpFault := false }).modPair p.vec p.pri fun q => { q with split := true }

theorem State.splitNoted_pairOf {vec : Bool} {u : Nat} (hp : s.pairOf vec u = some p) :
    (s.splitNoted p).pairOf vec u = some { p with split := true } :=
  State.modPair_pairOf_other p.pri (fun q => { q with split := true })
    ((State.pairOf_same (s := s) (t := s.modFlask p.flask fun x => { x with cmpFault := false }) rfl vec u).trans hp)
    (.inl rfl) fun _ => ⟨rfl, rfl, rfl⟩

theorem State.splitNoted_cmpFault : ((s.splitNoted p).flask p.flask).cmpFault = false := by
  have noted : (s.splitNoted p).flask p.flask = (s.modFlask p.flask fun x => { x with cmpFault := false }).flask p.flask := rfl
  rw [noted, State.modFlask_flask, if_pos rfl]

/-- R142: the comparator copies disagree, and no outcome is taken. -/
theorem isolationDeadline_split {vec : Bool} {u : Nat} (ha : a < 50) (unit : pairUnit a = (vec, u))
    (hp : s.pairOf vec u = some p) (again : p.phase = .reexec)
    (here : p.again = u) (agree : p.split = false) (late : reached s.now (p.laterStart + 17000) = true)
    (torn : (s.flask p.flask).cmpFault = true) :
    ∃ t, exec (.isolationDeadline a) s = .next t
        ∧ t.pairOf vec u = some { p with split := true } ∧ t.fb SYS_SAFESTAT.CMP_DUP 0 = true
        ∧ (t.flask p.flask).cmpFault = false := by
  have pair := (s.stopUnit_pairOf vec u).trans hp
  have run := (State.reexecEnd_none _ _ _ pair).1 ((s.stopUnit_cmpFault _ _ _).trans torn)
  have steps := isolationDeadline_runs ha unit hp again here agree late
  generalize s.stopUnit vec u = t at pair run steps
  have noted := State.splitNoted_pairOf pair
  have cleared := State.splitNoted_cmpFault (s := t) (p := p)
  have split : t.splitPair p = (t.splitNoted p).safety SYS_SAFESTAT.CMP_DUP p.flask 0 := rfl
  have safe : Leaves safetyParts (oneReg .sysSafestat 0) (t.splitNoted p) ((t.splitNoted p).safety SYS_SAFESTAT.CMP_DUP p.flask 0) :=
    .safety (.refl _ _ _) rfl (List.Subset.refl _)
  refine ⟨_, by rw [steps, run, split], ?_,
    State.fb_of_f (State.safety_f _ _ _ _ (by decide) (by decide) (by decide) (by decide)), ?_⟩
  · exact (State.pairOf_same (safe.1 .pairs (by decide)) vec u).trans noted
  · rw [State.flask, safe.1 .flasks (by decide)]
    exact cleared

end

end Sys2Proof.Machine
end

section
/-! PROOFS. What the job boundary of a unit of a pair changes (R139, R148, R151, R206). -/

set_option Elab.async false

namespace Sys2Proof.Machine

section
variable {s t u : State}

theorem SameJob.refl (k : Nat) (s : State) : SameJob k s s := rfl

theorem SameJob.trans {k : Nat} (h : SameJob k s t) (g : SameJob k t u) : SameJob k s u := Eq.trans g h

theorem SameJob.of_jobs {k : Nat} (h : t.work.jobs = s.work.jobs) : SameJob k s t := by
  rw [SameJob, State.job_of_jobs h]

/-- Changing the ladles of a job alone. -/
theorem SameJob.of_modJob (k j : Nat) (g : Job → Job) (hg : ∀ x, ∃ n, g x = { x with ladles := n }) : SameJob k s (s.modJob j g) := by
  have id : ∀ x, (g x).id = x.id := fun x => by
    obtain ⟨n, e⟩ := hg x
    rw [e]
  by_cases hk : k = j
  · subst hk
    cases h : s.job k with
    | some x =>
      obtain ⟨n, e⟩ := hg x
      rw [SameJob, s.modJob_job k g id x h, h, Option.map_some, Option.map_some, e]
    | none =>
      have gone : (s.modJob k g).job k = none := by
        rw [State.job, List.find?_eq_none] at h ⊢
        intro y hy
        obtain ⟨x, hx, rfl⟩ := List.mem_map.1 hy
        have := h x hx
        split
        · rwa [id]
        · exact this
      rw [SameJob, gone, h]
  · rw [SameJob, s.modJob_job_ne j k g id hk]

/-- A job that changed in its ladles alone. -/
theorem SameJob.some {k : Nat} {x : Job} (h : SameJob k s t) (hx : s.job k = some x) : ∃ n, t.job k = some { x with ladles := n } := by
  rw [SameJob, hx, Option.map_some, Option.map_eq_some_iff] at h
  obtain ⟨y, hy, e⟩ := h
  refine ⟨y.ladles, hy.trans (congrArg Option.some ?_)⟩
  cases x
  cases y
  cases e
  rfl

/-- Dealing ladles changes jobs in their ladles alone. -/
theorem State.dealLadles_jobs (s : State) (k : Nat) : SameJob k s s.dealLadles := by
  have give : ∀ (v : State) (m : Move), SameJob k v (v.giveLadle m) := by
    intro v m
    unfold State.giveLadle
    split
    · exact .of_jobs rfl
    · exact .refl k v
  have gives : ∀ (v : State) (x : Job), SameJob k v (v.giveLadles x) := by
    intro v x
    unfold State.giveLadles
    refine List.foldlRecOn (motive := fun w => SameJob k v w) _ _ (.refl k v) fun w hw _ _ => ?_
    split
    · exact hw.trans (.of_modJob k _ _ fun y => ⟨_, rfl⟩)
    · exact hw
  unfold State.dealLadles
  dsimp only
  exact List.foldlRecOn (motive := fun w => SameJob k s w) _ _
    (List.foldlRecOn (motive := fun w => SameJob k s w) _ _ (.refl k s) fun w hw m _ => hw.trans (give w m))
    fun w hw x _ => hw.trans (gives w x)

theorem State.addMove_jobs (s : State) (m : Move) (k : Nat) : SameJob k s (s.addMove m) :=
  .trans (.of_jobs rfl) (State.dealLadles_jobs _ k)

end

/-! ## The job boundary -/

/-- The registers and parts that a job boundary may change. -/
def boundaryRegs (r : Reg) (i : Nat) : Prop :=
  (r = .sysSafestat ∧ i = 0) ∨ r = .vecStatus ∨ r = .arrStatus ∨ r = .arrProg ∨ r = .arrResident ∨ r = .arrSatwin

def boundaryParts : List Part :=
  [.arrays, .freeCtr, .jobs, .keptIrqs, .moves, .nextMove, .outbox, .safePins, .record, .vecs]

/-- What a job boundary leaves of a state: its jobs, but for their ladles, and the cause of a lost job. -/
structure Passed (s t : State) : Prop where
  leaves : Leaves boundaryParts boundaryRegs s t
  jobs : ∀ k, SameJob k s t
  lost : t.f SYS_SAFESTAT.RECAST_UNRES 0 = s.f SYS_SAFESTAT.RECAST_UNRES 0

section
variable {s t u : State}

theorem Passed.refl (s : State) : Passed s s := ⟨.refl _ _ s, fun k => .refl k s, rfl⟩

theorem Passed.trans (h : Passed s t) (g : Passed t u) : Passed s u :=
  ⟨h.leaves.trans g.leaves, fun k => (h.jobs k).trans (g.jobs k), g.lost.trans h.lost⟩

/-- A change beside the jobs and the safety causes. -/
theorem Passed.quiet {ps : List Part} {q : Reg → Nat → Prop} (h : Leaves ps q s t) (hp : ps ⊆ boundaryParts := by simp [boundaryParts])
    (hj : .jobs ∉ ps := by simp) (hq : ∀ r i, q r i → r ≠ .sysSafestat ∧ boundaryRegs r i) : Passed s t :=
  ⟨h.mono hp fun r i e => (hq r i e).2, fun _ => .of_jobs (h.1 .jobs hj),
    h.f_same SYS_SAFESTAT.RECAST_UNRES 0 fun e => (hq _ _ e).1 rfl⟩

/-- What the boundary may change without a safety cause. -/
def quietRegs (r : Reg) (i : Nat) : Prop := r ≠ .sysSafestat ∧ boundaryRegs r i

theorem Passed.safety (s : State) (u d : Nat) : Passed s (s.safety SYS_SAFESTAT.SPARE_OUT u d) := by
  have leaves : Leaves safetyParts (oneReg .sysSafestat 0) s (s.safety SYS_SAFESTAT.SPARE_OUT u d) :=
    .safety (.refl _ _ s) rfl (List.Subset.refl _)
  exact ⟨leaves.mono (by decide) fun _ _ e => .inl e, fun _ => .of_jobs (leaves.1 .jobs (by decide)),
    s.safety_f_apart _ _ _ _ (by decide) (by decide) (by decide) (by decide)⟩

theorem Passed.addMove (s : State) (m : Move) : Passed s (s.addMove m) := by
  have leaves : Leaves [.moves, .nextMove, .jobs] noReg s (s.addMove m) := .addMove (.refl _ _ s)
  exact ⟨leaves.mono (by simp [boundaryParts]) fun _ _ no => no.elim, s.addMove_jobs m, leaves.f_same _ _ (by simp [noReg])⟩

/-- The quiet changes of a boundary, one after the other. -/
abbrev QuietTo (s t : State) : Prop := Leaves [.arrays, .freeCtr, .record, .vecs] quietRegs s t

theorem Passed.of_quiet (h : QuietTo s t) : Passed s t := .quiet h (by simp [boundaryParts]) (by simp) fun _ _ e => e

theorem quietRegs_of {r : Reg} {i : Nat} (h : r = .vecStatus ∨ r = .arrStatus ∨ r = .arrProg ∨ r = .arrResident ∨ r = .arrSatwin) :
    quietRegs r i := ⟨by rintro rfl; simp at h, .inr h⟩

theorem QuietTo.takeProgram (s : State) (a : Nat) : QuietTo s (s.takeProgram a) := by
  have regs : ∀ r i, progRegs a r i → quietRegs r i := by
    rintro r i ⟨e | e, -⟩
    · exact quietRegs_of (.inr (.inr (.inl e)))
    · exact quietRegs_of (.inr (.inl e))
  cases valid : s.fb ARR_PROG.NEXT_VALID a with
  | true => exact (s.takeProgram_next a valid).2.2.2.2.2.2.mono (by simp) regs
  | false => exact (s.takeProgram_idle a valid).2.2.2.mono (by simp) regs

theorem QuietTo.shakeArray (h : QuietTo s t) (a : Nat) : QuietTo s (t.shakeArray a) :=
  .setF (.setF h.modArr (quietRegs_of (by decide))) (quietRegs_of (by decide))

theorem QuietTo.mapSpare (s : State) (a sp cause : Nat) : QuietTo s (s.mapSpare a sp cause false) := by
  have status : ∀ i, quietRegs .arrStatus i := fun _ => quietRegs_of (.inr (.inl rfl))
  have window : ∀ i, quietRegs .arrSatwin i := fun _ => quietRegs_of (by decide)
  unfold State.mapSpare
  dsimp only
  rw [Bool.false_and, if_neg (by decide)]
  exact .setF (.setF (.modRec (.setF (.setF (.setR (g := .arrResident) (.setF (.setF (.setF (.refl _ _ s) (status _)) (status _))
    (status _)) (quietRegs_of (by decide))) (status _)) (status _)) (by simp)) (window _)) (window _)

theorem Passed.replaceArray (s : State) (a cause : Nat) : Passed s (s.replaceArray a 5 cause false) := by
  unfold State.replaceArray
  split
  · dsimp only
    rw [if_neg (by decide)]
    exact .of_quiet (QuietTo.shakeArray (.setF (QuietTo.mapSpare s a _ cause) (quietRegs_of (.inr (.inl rfl)))) a)
  · exact .safety s a cause

theorem Passed.boundaryWithdraw (s : State) (a : Nat) : Passed s (s.boundaryWithdraw a) := by
  unfold State.boundaryWithdraw
  split
  · next c _ =>
    have cleared : QuietTo s (s.modArr a fun x => { x with withdrawDue := none }) := .modArr (.refl _ _ s)
    split
    · exact .refl s
    · dsimp only
      split
      · exact (Passed.of_quiet cleared).trans (.replaceArray _ a c)
      · refine Passed.trans (t := if s.f ARR_STATUS.FLASK a = 15 then s.modArr a fun x => { x with withdrawDue := none }
          else (s.modArr a fun x => { x with withdrawDue := none }).safety SYS_SAFESTAT.SPARE_OUT a c) ?_ ?_
        · split
          · exact .of_quiet cleared
          · exact (Passed.of_quiet cleared).trans (.safety _ a c)
        · exact .of_quiet (.setF (.setF (.setF (QuietTo.shakeArray (.refl _ _ _) a) (quietRegs_of (.inr (.inl rfl))))
            (quietRegs_of (.inr (.inl rfl)))) (quietRegs_of (.inr (.inl rfl))))
  · exact .refl s

theorem Passed.startBar (s : State) (a : Nat) : Passed s (s.startBar a) := by
  unfold State.startBar State.barMove
  exact (Passed.of_quiet (.setF (.modArr (.mouldRead (.refl _ _ s)))
    (quietRegs_of (.inr (.inl rfl))))).trans (.addMove _ _)

theorem Passed.passBoundary (s : State) (a : Nat) : Passed s (s.passBoundary a) := by
  have prog : ∀ i, quietRegs .arrProg i := fun _ => quietRegs_of (by decide)
  refine (Passed.boundaryWithdraw s a).trans ?_
  unfold State.passBoundary
  dsimp only
  generalize s.boundaryWithdraw a = t
  split
  · exact .of_quiet (.setF (.modArr (.refl _ _ t)) (prog _))
  · split
    · have idle : Passed t (((t.modArr a fun x => { x.fresh with job := none }).setF ARR_PROG.CUR_VALID a 0).setF ARR_STATUS.STATE a 0) :=
        .of_quiet (.setF (.setF (.modArr (.refl _ _ t)) (prog _)) (quietRegs_of (.inr (.inl rfl))))
      split
      · exact idle.trans (.startBar _ a)
      · exact idle
    · exact .of_quiet (QuietTo.takeProgram t a)

theorem Passed.passUnit (s : State) (vec : Bool) (u : Nat) : Passed s (s.passUnit vec u) := by
  unfold State.passUnit
  split
  · exact .of_quiet (.setF (.modVec (.refl _ _ s)) (quietRegs_of (.inl rfl)))
  · split
    · exact .of_quiet (.modArr (.refl _ _ s))
    · exact .passBoundary s u

end

end Sys2Proof.Machine
end

section
/-! PROOFS. The end of an isolation (R139, R171, R172), and what O32 says. -/

set_option Elab.async false

namespace Sys2Proof.Machine

section
variable (s : State) (f delta : Nat)

/-- What the rise of a lag changes. -/
theorem State.leaves_riseLag : Leaves [.freeCtr, .record, .safePins, .keptIrqs, .outbox]
    (fun r i => (r = .pourFlag ∧ i = f) ∨ (r = .sysSafestat ∧ i = 0)) s (s.riseLag f delta) := by
  have lag : ∀ ps, Leaves ps (fun r i => (r = .pourFlag ∧ i = f) ∨ (r = .sysSafestat ∧ i = 0)) s
      ((s.setF POUR_FLAG.LAG f (min (s.f POUR_FLAG.LAG f + delta) 4095)).incSat POUR_FLAG.LAG_EVENTS f 1) := fun ps =>
    .incSat (.setF (.refl _ _ s) (.inl ⟨rfl, rfl⟩)) (.inl ⟨rfl, rfl⟩)
  unfold State.riseLag
  dsimp only
  split
  · exact .refl _ _ s
  · split
    · exact .safety (lag _) rfl (by decide) (.inr ⟨rfl, rfl⟩)
    · exact lag _

/-- The lag rises, to 4095 at most. -/
theorem State.riseLag_lag : (s.riseLag f delta).f POUR_FLAG.LAG f = min (s.f POUR_FLAG.LAG f + delta) 4095 := by
  have low : s.f POUR_FLAG.LAG f < 2 ^ 12 := s.f_lt POUR_FLAG.LAG f
  have set : ((s.setF POUR_FLAG.LAG f (min (s.f POUR_FLAG.LAG f + delta) 4095)).incSat POUR_FLAG.LAG_EVENTS f 1).f POUR_FLAG.LAG f
      = min (s.f POUR_FLAG.LAG f + delta) 4095 := by
    rw [State.incSat, State.setF_f_apart _ _ _ _ _ _ (by decide) (by decide), State.setF_f_width _ _ _ _ 12 (by decide) rfl]
    exact Nat.mod_eq_of_lt (by omega)
  unfold State.riseLag
  dsimp only
  split
  · next e => omega
  · split
    · generalize (s.setF POUR_FLAG.LAG f (min (s.f POUR_FLAG.LAG f + delta) 4095)).incSat POUR_FLAG.LAG_EVENTS f 1 = t at set ⊢
      have safe : Leaves safetyParts (oneReg .sysSafestat 0) t (t.safety SYS_SAFESTAT.POUR_LATE f 1) :=
        .safety (.refl _ _ t) rfl (List.Subset.refl _)
      exact (safe.f_same POUR_FLAG.LAG f (by simp [oneReg, POUR_FLAG.LAG])).trans set
    · exact set

end

section
variable (s : State) (j part total : Nat)

/-- A part of a job is done, and the job's other words stay. -/
theorem State.finishPart_done {x : Job} (hx : s.job j = some x) :
    ∃ y, (s.finishPart j part total).job j = some y ∧ y.cflags = x.cflags ∧ part ∈ y.doneParts := by
  have here : part ∈ insNat x.doneParts part := (mem_insNat _ _ _).mpr (.inr rfl)
  have marked : (s.modJob j fun x => { x with doneParts := insNat x.doneParts part }).job j
      = some { x with doneParts := insNat x.doneParts part } :=
    s.modJob_job j (fun x => { x with doneParts := insNat x.doneParts part }) (fun _ => rfl) x hx
  unfold State.finishPart
  dsimp only
  rw [marked]
  dsimp only
  split
  · refine ⟨_, State.modJob_job _ j _ (fun y => ?_) _ marked, ?_, ?_⟩
    · split <;> rfl
    · dsimp only
      split <;> rfl
    · dsimp only
      split <;> exact here
  · exact ⟨_, marked, rfl, here⟩

theorem State.finishPart_others {k : Nat} (hk : k ≠ j) : (s.finishPart j part total).job k = s.job k := by
  have marked : (s.modJob j fun x => { x with doneParts := insNat x.doneParts part }).job k = s.job k :=
    s.modJob_job_ne j k (fun x => { x with doneParts := insNat x.doneParts part }) (fun _ => rfl) hk
  unfold State.finishPart
  dsimp only
  split
  · split
    · refine (State.modJob_job_ne _ j k _ (fun y => ?_) hk).trans marked
      split <;> rfl
    · exact marked
  · exact marked

theorem State.endJob_others {k st : Nat} {d : Option Nat} (hk : k ≠ j) : (s.endJob j st d).job k = s.job k := by
  refine State.modJob_job_ne _ j k _ (fun y => ?_) hk
  split <;> rfl

end

section
variable (s : State) (f : Nat) (p : Pair)

/-- A pair is no longer one. -/
def State.withoutPair : State := { s with units.pairs := s.units.pairs.filter fun q => q != p }

theorem State.leaves_withoutPair : Leaves [.pairs] noReg s (s.withoutPair p) := .one .pairs (.refl _ _ s) (by simp)

theorem State.withoutPair_pairs : (s.withoutPair p).units.pairs = s.units.pairs.filter fun q => q != p := rfl

/-- The lag has risen, and the pair is no longer one. -/
def State.isoRisen : State := (s.riseLag f (cdiv (s.since p.releaseNs) 1000)).withoutPair p

/-- The tile is released, or its job is lost. -/
def State.isoDecided : State :=
  if p.outcome = 1 then ((s.isoRisen f p).cflag p.job 2).finishPart p.job p.tile ((((s.riseLag f (cdiv (s.since p.releaseNs) 1000)).job p.job).map
    fun x => x.tiles.length).getD 0)
  else ((s.isoRisen f p).endJob p.job stJobLost (some p.tile)).safety SYS_SAFESTAT.RECAST_UNRES f p.tile

/-- The units of the pair pass their boundaries. -/
def State.isoFreed : State := ((s.isoDecided f p).passUnit p.vec p.pri).passUnit p.vec p.rc

/-- The flask's isolation ends, where no other pair of it is isolated. -/
def State.isoDone : State :=
  (s.isoFreed f p).modFlask f fun x =>
    { x with isolating := (s.isoFreed f p).units.pairs.any fun q => q.flask == f && decide (q.phase ≠ .running), isoEndNs := s.now }

theorem State.isoRisen_leaves : Leaves [.freeCtr, .record, .safePins, .keptIrqs, .outbox, .pairs]
    (fun r i => (r = .pourFlag ∧ i = f) ∨ (r = .sysSafestat ∧ i = 0)) s (s.isoRisen f p) :=
  ((s.leaves_riseLag f _).mono (by simp) fun _ _ e => e).into (State.leaves_withoutPair _ p) (by simp) fun _ _ no => no.elim

theorem State.isoRisen_pairs : (s.isoRisen f p).units.pairs = s.units.pairs.filter fun q => q != p := by
  rw [State.isoRisen, State.withoutPair_pairs, (s.leaves_riseLag f _).1 .pairs (by simp)]

theorem State.isoRisen_job (k : Nat) : (s.isoRisen f p).job k = s.job k :=
  State.job_of_jobs ((s.isoRisen_leaves f p).1 .jobs (by simp)) k

theorem State.isoRisen_lag :
    (s.isoRisen f p).f POUR_FLAG.LAG f = min (s.f POUR_FLAG.LAG f + cdiv (s.since p.releaseNs) 1000) 4095 := by
  rw [State.isoRisen, (State.leaves_withoutPair _ p).f_same POUR_FLAG.LAG f (by simp [noReg]), State.riseLag_lag]

/-- The registers and parts that the decision may change. -/
theorem State.isoDecided_leaves : Leaves [.freeCtr, .record, .safePins, .keptIrqs, .outbox, .jobs]
    (oneReg .sysSafestat 0) (s.isoRisen f p) (s.isoDecided f p) := by
  unfold State.isoDecided
  split
  · exact (Leaves.modJob (.refl _ _ _)).into (State.leaves_finishPart _ _ _ _) (by simp) fun _ _ no => no.elim
  · exact .safety (.endJob (.refl _ _ _)) rfl (by decide)

theorem State.isoDecided_others (k : Nat) (hk : k ≠ p.job) : (s.isoDecided f p).job k = s.job k := by
  rw [← s.isoRisen_job f p k]
  unfold State.isoDecided
  split
  · rw [State.finishPart_others _ _ _ _ hk, State.cflag,
      State.modJob_job_ne _ _ _ (fun x => { x with cflags := Nat.lor x.cflags 2 }) (fun _ => rfl) hk]
  · generalize ht : (s.isoRisen f p).endJob p.job stJobLost (some p.tile) = t
    have safe : Leaves safetyParts (oneReg .sysSafestat 0) t (t.safety SYS_SAFESTAT.RECAST_UNRES f p.tile) :=
      .safety (.refl _ _ t) rfl (List.Subset.refl _)
    rw [State.job_of_jobs (safe.1 .jobs (by decide)), ← ht]
    exact State.endJob_others _ _ hk

theorem State.isoDecided_released (released : p.outcome = 1) {x : Job} (hx : s.job p.job = some x) :
    ∃ y, (s.isoDecided f p).job p.job = some y ∧ bit y.cflags 1 = true ∧ p.tile ∈ y.doneParts := by
  have flagged : ((s.isoRisen f p).cflag p.job 2).job p.job = some { x with cflags := Nat.lor x.cflags 2 } :=
    State.modJob_job _ _ (fun y => { y with cflags := Nat.lor y.cflags 2 }) (fun _ => rfl) x ((s.isoRisen_job f p _).trans hx)
  obtain ⟨y, job, flags, done⟩ := State.finishPart_done _ p.job p.tile _ flagged
  refine ⟨y, ?_, ?_, done⟩
  · rw [State.isoDecided, if_pos released]
    exact job
  · rw [flags]
    exact (bit_lor _ _ _).trans (by rw [(by decide : bit 2 1 = true), Bool.or_true])

theorem State.isoDecided_lost (lost : p.outcome ≠ 1) :
    (s.isoDecided f p).f SYS_SAFESTAT.RECAST_UNRES 0 = 1
      ∧ ∀ x, s.job p.job = some x → x.phase ≠ .ended → (s.isoDecided f p).job p.job = some (x.over stJobLost (some p.tile)) := by
  rw [State.isoDecided, if_neg lost]
  refine ⟨State.safety_f _ _ _ _ (by decide) (by decide) (by decide) (by decide), fun x hx open_ => ?_⟩
  have ended := (JobTo.of_endJob stJobLost (some p.tile) ((s.isoRisen_job f p _).trans hx) open_).1
  generalize (s.isoRisen f p).endJob p.job stJobLost (some p.tile) = t at ended
  have safe : Leaves safetyParts (oneReg .sysSafestat 0) t (t.safety SYS_SAFESTAT.RECAST_UNRES f p.tile) :=
    .safety (.refl _ _ t) rfl (List.Subset.refl _)
  rw [State.job_of_jobs (safe.1 .jobs (by decide)), ended]

theorem State.isoFreed_passed : Passed (s.isoDecided f p) (s.isoFreed f p) :=
  (Passed.passUnit _ _ _).trans (Passed.passUnit _ _ _)

/-- What the end of an isolation moves. -/
abbrev isoEndRegs (r : Reg) (i : Nat) : Prop :=
  (r = .pourFlag ∧ i = f) ∨ r = .sysSafestat ∨ r = .vecStatus ∨ r = .arrStatus ∨ r = .arrProg ∨ r = .arrResident ∨ r = .arrSatwin

theorem State.isoDone_leaves :
    Leaves [.arrays, .flasks, .freeCtr, .jobs, .keptIrqs, .moves, .nextMove, .outbox, .pairs, .safePins, .record, .vecs]
      (isoEndRegs f) s (s.isoDone f p) := by
  have risen : Leaves [.arrays, .flasks, .freeCtr, .jobs, .keptIrqs, .moves, .nextMove, .outbox, .pairs, .safePins, .record, .vecs]
      (isoEndRegs f) s (s.isoRisen f p) := (s.isoRisen_leaves f p).mono (by simp) fun _ _ e => by
    rcases e with e | e
    · exact .inl e
    · exact .inr (.inl e.1)
  exact .modFlask ((risen.into (s.isoDecided_leaves f p) (by simp) fun _ _ e => .inr (.inl e.1)).into (s.isoFreed_passed f p).leaves
    (by simp [boundaryParts]) fun _ _ e => .inr (e.imp_left And.left))

theorem State.isoDone_job (k : Nat) : SameJob k (s.isoDecided f p) (s.isoDone f p) :=
  ((s.isoFreed_passed f p).jobs k).trans (.of_jobs rfl)

theorem State.isoDone_pairs : (s.isoDone f p).units.pairs = s.units.pairs.filter fun q => q != p := by
  have freed := ((s.isoFreed_passed f p).leaves.1 .pairs (by simp [boundaryParts])).trans
    ((s.isoDecided_leaves f p).1 .pairs (by simp))
  exact Eq.trans freed (s.isoRisen_pairs f p)

theorem State.isoDone_lag :
    (s.isoDone f p).f POUR_FLAG.LAG f = min (s.f POUR_FLAG.LAG f + cdiv (s.since p.releaseNs) 1000) 4095 := by
  have last : Leaves [.flasks] noReg (s.isoFreed f p) (s.isoDone f p) := .modFlask (.refl _ _ _)
  rw [last.f_same POUR_FLAG.LAG f (by simp [noReg]),
    (s.isoFreed_passed f p).leaves.f_same POUR_FLAG.LAG f (by simp [boundaryRegs, POUR_FLAG.LAG]),
    (s.isoDecided_leaves f p).f_same POUR_FLAG.LAG f (by simp [oneReg, POUR_FLAG.LAG]), s.isoRisen_lag]

theorem State.isoDone_unres : (s.isoDone f p).f SYS_SAFESTAT.RECAST_UNRES 0 = (s.isoDecided f p).f SYS_SAFESTAT.RECAST_UNRES 0 := by
  have last : Leaves [.flasks] noReg (s.isoFreed f p) (s.isoDone f p) := .modFlask (.refl _ _ _)
  rw [last.f_same SYS_SAFESTAT.RECAST_UNRES 0 (by simp [noReg]), (s.isoFreed_passed f p).lost]

end

section
variable {s : State} {f : Nat} {p : Pair}

theorem isolationEnd_done (hf : f < 8) (h : s.settled f = some p) : exec (.isolationEnd f) s = .next (s.isoDone f p) := by
  rw [exec_isolationEnd, execIsolationEnd, decide_eq_true hf, unit_true]
  unfold isolationEndGo
  rw [h]
  rfl

theorem isolationEnd_waits (h : s.settled f = none) : exec (.isolationEnd f) s = .next s := by
  rw [exec_isolationEnd, execIsolationEnd]
  unfold isolationEndGo
  rw [h]
  exact unit_same _

/-- Settles O32. -/
theorem executionsAreAbortedAndIsolationsEnd : Obligations.ExecutionsAreAbortedAndIsolationsEnd := by
  unfold Obligations.ExecutionsAreAbortedAndIsolationsEnd
  refine ⟨⟨?_, ?_, ?_, ?_, ?_, ?_⟩, ?_, ?_⟩
  · intro s a t0 p ha hp start runs ne pri rc late
    exact overrun_aborts ha rfl hp start runs ne pri rc late
  · intro s a t0 p ha hp start not
    exact overrun_waits ha rfl hp start not
  · intro s a p ha hp again here agree late whole none_
    exact isolationDeadline_recast ha rfl hp again here agree late whole none_
  · intro s a p ha hp again here agree late whole some_
    exact isolationDeadline_lost ha rfl hp again here agree late whole some_
  · intro s a p ha hp again here agree late torn
    exact isolationDeadline_split ha rfl hp again here agree late torn
  · intro s a p ha hp not
    rw [exec_isolationDeadline, execIsolationDeadline, isolationDeadline_early rfl hp not, unit_same]
  · intro s f p hf h
    have pairs := s.isoDone_pairs f p
    refine ⟨_, isolationEnd_done hf h, s.isoDone_lag f p, ?_, fun q hq ne => ?_, ?_, fun released x hx => ?_, fun lost => ?_,
      fun k hk => ?_, s.isoDone_leaves f p⟩
    · rw [pairs]
      simp
    · rw [pairs]
      exact List.mem_filter.2 ⟨hq, by simpa using ne⟩
    · rw [State.isoDone, State.modFlask_flask, if_pos rfl]
    · obtain ⟨y, job, flag, done⟩ := s.isoDecided_released f p released hx
      obtain ⟨n, job⟩ := (s.isoDone_job f p p.job).some job
      exact ⟨_, job, flag, done⟩
    · obtain ⟨unres, ended⟩ := s.isoDecided_lost f p lost
      refine ⟨State.fb_of_f ((s.isoDone_unres f p).trans unres), fun x hx open_ => ?_⟩
      obtain ⟨n, job⟩ := (s.isoDone_job f p p.job).some (ended x hx open_)
      exact ⟨_, job, rfl, rfl, rfl⟩
    · have := s.isoDone_job f p k
      rwa [SameJob, s.isoDecided_others f p k hk] at this
  · intro s f hf h
    exact isolationEnd_waits h

end

end Sys2Proof.Machine
end

section
/-! PROOFS. Real-time tasks (R145 to R147), and what O33 says. -/

set_option Elab.async false

namespace Sys2Proof.Machine

section
variable {s : State} {c tk i p kind t0 f : Nat} {l : FirstRun} {steps : List RtStep}

/-- The flag of the manager's log copy of a core. -/
theorem inputLog_moves : (s.mem.moves.any fun m => m.kind == .inputLog c) = true ↔ ∃ m ∈ s.mem.moves, m.kind = .inputLog c := by
  simp [List.any_eq_true]

theorem inputLogCopyDone_starts (hc : c < 8) (task : (s.rt c).task.isSome = true) (idle : (s.rt c).started = false)
    (copied : ∀ m ∈ s.mem.moves, m.kind ≠ .inputLog c) : exec (.inputLogCopyDone c) s = .next (s.startTask c) := by
  have none : (s.mem.moves.any fun m => m.kind == .inputLog c) = false :=
    Bool.eq_false_iff.2 fun h => by
      obtain ⟨m, hm, e⟩ := inputLog_moves.1 h
      exact copied m hm e
  rw [exec_inputLogCopyDone, execInputLogCopyDone, isRt, decide_eq_true hc, unit_true, logCopyGo, task, idle, none]
  rfl

theorem inputLogCopyDone_waits
    (not : (s.rt c).task = none ∨ (s.rt c).started = true ∨ ∃ m ∈ s.mem.moves, m.kind = .inputLog c) :
    exec (.inputLogCopyDone c) s = .next s := by
  rw [exec_inputLogCopyDone, execInputLogCopyDone, logCopyGo, if_neg, unit_same]
  rcases not with e | e | e
  · simp [e]
  · simp [e]
  · rw [inputLog_moves.2 e]
    simp

/-- The core whose first execution a task's end looks at. -/
def firstCore (c p kind : Nat) : Nat := if kind = 4 then c else p

/-- What a task has done once it has retired its instructions. -/
def State.rtRun (s : State) (c : Nat) (l : FirstRun) (steps : List RtStep) : RtRun :=
  steps.foldl (RtRun.step l) { reg := (s.rt c).reg, data := (s.rt c).data }

/-- The task of a core has ended with what it did. -/
def State.rtOver (s : State) (c : Nat) (r : RtRun) : State :=
  s.modRt c fun x => { x with task := none, started := false, reg := r.reg, data := r.data }

theorem State.rtOver_rt (r : RtRun) (k : Nat) : (s.rtOver c r).rt k
    = if k = c then { s.rt c with task := none, started := false, reg := r.reg, data := r.data } else s.rt k := State.modRt_rt ..

theorem rtTaskEnd_found (hc : c < 8) (task : (s.rt c).task = some (tk, i, p, kind, t0)) (runs : (s.rt c).started = true)
    (first : s.firstOf (if kind = 4 then c else p) tk = some l) : exec (.rtTaskEnd c steps) s
      = .next (if kind = 4 then (s.rtOver c (s.rtRun c l steps)).modRt c fun x => { x with
            firsts := x.firsts.map fun q => if q.task = tk
              then { q with ended := some (crc32Final (s.rtRun c l steps).sig, (s.rtRun c l steps).count) } else q }
        else if l.ended = some (crc32Final (s.rtRun c l steps).sig, (s.rtRun c l steps).count)
          then (s.rtOver c (s.rtRun c l steps)).modRt p fun y => { y with firsts := y.firsts.filter fun q => q.task != tk }
          else (s.rtOver c (s.rtRun c l steps)).rtFail ((s.rt c).flask.getD 0) [c, p]) := by
  rw [exec_rtTaskEnd, execRtTaskEnd, isRt, decide_eq_true hc, unit_true]
  unfold rtEndGo
  dsimp only
  rw [task]
  dsimp only
  rw [runs, first]
  rfl

theorem rtTaskEnd_lost (hc : c < 8) (task : (s.rt c).task = some (tk, i, p, kind, t0)) (runs : (s.rt c).started = true)
    (first : s.firstOf (if kind = 4 then c else p) tk = none) :
    exec (.rtTaskEnd c steps) s = .next (s.rtFail ((s.rt c).flask.getD 0) [c]) := by
  rw [exec_rtTaskEnd, execRtTaskEnd, isRt, decide_eq_true hc, unit_true]
  unfold rtEndGo
  dsimp only
  rw [task]
  dsimp only
  rw [runs, first]
  rfl

theorem rtTaskEnd_idle (not : (s.rt c).task = none ∨ (s.rt c).started = false) : exec (.rtTaskEnd c steps) s = .next s := by
  have same : rtEndGo c steps s = s := by
    unfold rtEndGo
    rcases not with e | e
    · dsimp only
      rw [e]
    · dsimp only
      rw [e]
      split <;> rfl
  rw [exec_rtTaskEnd, execRtTaskEnd, same, unit_same]

end

/-! ## A failed comparison -/

section
variable (s : State) (f : Nat) (cores : List Nat)

/-- The task of one core has failed. -/
def State.rtFailed (s : State) (c : Nat) : State :=
  (s.modRt c fun x =>
    { x with task := none, started := false, extra := true
             firsts := x.firsts.filter fun r => !(x.task.any fun k => k.1 == r.task) }).modRec
    fun r => { r with rts := satAdd32 r.rts (4 * c) 1 }

theorem State.leaves_rtFailed (c : Nat) : Leaves [.rts, .record] noReg s (s.rtFailed c) := .modRec (.modRt (.refl _ _ s)) (by simp)

theorem State.rtFailed_rt (c k : Nat) : (k = c → ((s.rtFailed c).rt k).task = none ∧ ((s.rtFailed c).rt k).started = false
      ∧ ((s.rtFailed c).rt k).extra = true) ∧ (k ≠ c → (s.rtFailed c).rt k = s.rt k) := by
  rw [State.rtFailed, State.modRec_rt, State.modRt_rt]
  constructor
  · intro e
    rw [if_pos e]
    exact ⟨rfl, rfl, rfl⟩
  · intro e
    rw [if_neg e]

/-- The extra test bars of cores are due in a flask. -/
def State.extraBars (s : State) (f : Nat) (cores : List Nat) : State :=
  s.modFlask f fun x => { x with extraBars := x.extraBars ++ cores.map TBUnit.rt }

theorem State.rtFail_eq : s.rtFail f cores
    = ((s.each cores fun s c => s.rtFailed c).extraBars f cores).safety SYS_SAFESTAT.RT_MISMATCH (cores.headD 0) 0 := (rfl)

theorem State.leaves_rtFails : Leaves [.rts, .record] noReg s (s.each cores fun s c => s.rtFailed c) :=
  .over (.refl _ _ s) fun c t h => h.trans (t.leaves_rtFailed c)

/-- What a failed comparison changes. -/
theorem State.leaves_rtFail : Leaves [.flasks, .freeCtr, .keptIrqs, .outbox, .safePins, .record, .rts] (oneReg .sysSafestat 0) s
    (s.rtFail f cores) := by
  rw [State.rtFail_eq]
  exact .safety (.modFlask ((s.leaves_rtFails cores).mono (by simp) fun _ _ no => no.elim)) rfl (by decide)

theorem State.rtFail_flag : (s.rtFail f cores).fb SYS_SAFESTAT.RT_MISMATCH 0 = true := by
  rw [State.rtFail_eq]
  exact State.fb_of_f (State.safety_f _ _ _ _ (by decide) (by decide) (by decide) (by decide))

theorem State.rtFail_rt (k : Nat) : (s.rtFail f cores).rt k = (s.each cores fun s c => s.rtFailed c).rt k := by
  rw [State.rtFail_eq]
  generalize s.each cores (fun s c => s.rtFailed c) = t
  have safe : Leaves safetyParts (oneReg .sysSafestat 0) (t.extraBars f cores)
      ((t.extraBars f cores).safety SYS_SAFESTAT.RT_MISMATCH (cores.headD 0) 0) := .safety (.refl _ _ _) rfl (List.Subset.refl _)
  rw [State.rt, safe.1 .rts (by decide)]
  exact State.modFlask_rt ..

theorem State.rtFail_flask : ((s.rtFail f cores).flask f).extraBars = (s.flask f).extraBars ++ cores.map TBUnit.rt := by
  have same := (s.leaves_rtFails cores).1 .flasks (by simp)
  rw [State.rtFail_eq]
  generalize s.each cores (fun s c => s.rtFailed c) = t at same
  have safe : Leaves safetyParts (oneReg .sysSafestat 0) (t.extraBars f cores)
      ((t.extraBars f cores).safety SYS_SAFESTAT.RT_MISMATCH (cores.headD 0) 0) := .safety (.refl _ _ _) rfl (List.Subset.refl _)
  rw [State.flask, safe.1 .flasks (by decide)]
  have bars : ((t.extraBars f cores).flask f).extraBars = (t.flask f).extraBars ++ cores.map TBUnit.rt := by
    rw [State.extraBars, State.modFlask_flask, if_pos rfl]
  exact bars.trans (by rw [State.flask, same]; rfl)

/-- R147: a core whose task failed has none, and its extra test bar is due. -/
theorem State.rtFail_one (c k : Nat) : (k = c → ((s.rtFail f [c]).rt k).task = none ∧ ((s.rtFail f [c]).rt k).started = false
      ∧ ((s.rtFail f [c]).rt k).extra = true) ∧ (k ≠ c → (s.rtFail f [c]).rt k = s.rt k) := by
  rw [State.rtFail_rt]
  exact s.rtFailed_rt c k

theorem State.rtFail_two (c p k : Nat) : (k = c ∨ k = p → ((s.rtFail f [c, p]).rt k).task = none
      ∧ ((s.rtFail f [c, p]).rt k).started = false ∧ ((s.rtFail f [c, p]).rt k).extra = true)
    ∧ (k ≠ c → k ≠ p → (s.rtFail f [c, p]).rt k = s.rt k) := by
  have first := s.rtFailed_rt c k
  have second := (s.rtFailed c).rtFailed_rt p k
  rw [State.rtFail_rt]
  change (k = c ∨ k = p → (((s.rtFailed c).rtFailed p).rt k).task = none ∧ (((s.rtFailed c).rtFailed p).rt k).started = false
    ∧ (((s.rtFailed c).rtFailed p).rt k).extra = true) ∧ (k ≠ c → k ≠ p → ((s.rtFailed c).rtFailed p).rt k = s.rt k)
  refine ⟨fun e => ?_, fun hc hp => (second.2 hp).trans (first.2 hc)⟩
  by_cases h : k = p
  · exact second.1 h
  · rw [second.2 h]
    exact first.1 (e.resolve_right h)

end

/-! ## The records of first executions -/

section
variable (xs : List FirstRun) (tk : Nat)

theorem firsts_end {l : FirstRun} (res : Nat × Nat) (h : (xs.find? fun r => r.task == tk) = some l) :
    ((xs.map fun q => if q.task = tk then { q with ended := some res } else q).find? fun r => r.task == tk)
      = some { l with ended := some res } := by
  have := find?_map_modify (fun r : FirstRun => r.task == tk) (fun q => { q with ended := some res }) (fun _ => rfl) xs l h
  simpa using this

theorem firsts_end_others (res : Nat × Nat) {k : Nat} (hk : k ≠ tk) :
    ((xs.map fun q => if q.task = tk then { q with ended := some res } else q).find? fun r => r.task == k)
      = xs.find? fun r => r.task == k := by
  induction xs with
  | nil => rfl
  | cons q qs ih =>
    rw [List.map_cons, List.find?_cons, List.find?_cons, ih]
    by_cases hq : q.task = tk
    · have other : (q.task == k) = false := by simp [hq, Ne.symm hk]
      rw [if_pos hq]
      simp only [other]
    · rw [if_neg hq]

theorem firsts_drop : ((xs.filter fun q => q.task != tk).find? fun r => r.task == tk) = none := by
  simp [List.find?_eq_none]

theorem firsts_drop_others {k : Nat} (hk : k ≠ tk) :
    ((xs.filter fun q => q.task != tk).find? fun r => r.task == k) = xs.find? fun r => r.task == k := by
  rw [List.find?_filter]
  congr 1
  funext q
  by_cases h : q.task = k
  · simp [h, hk]
  · simp [h]

end

section
variable {s : State} {c tk i p kind t0 : Nat} {l : FirstRun} {steps : List RtStep}

/-- R146: the first execution keeps its signature and its count. -/
theorem rtTaskEnd_first (hc : c < 8) (task : (s.rt c).task = some (tk, i, p, kind, t0)) (runs : (s.rt c).started = true)
    (first : s.firstOf (if kind = 4 then c else p) tk = some l) (hkind : kind = 4) :
    ∃ t, exec (.rtTaskEnd c steps) s = .next t ∧ s.firstOf c tk = some l
      ∧ t.firstOf c tk = some { l with ended := some (crc32Final (s.rtRun c l steps).sig, (s.rtRun c l steps).count) }
      ∧ (∀ k, k ≠ tk → t.firstOf c k = s.firstOf c k)
      ∧ t.rt c = { s.rt c with task := none, started := false, reg := (s.rtRun c l steps).reg, data := (s.rtRun c l steps).data
                               firsts := (t.rt c).firsts }
      ∧ (∀ k, k ≠ c → t.rt k = s.rt k) ∧ Leaves [.rts] noReg s t := by
  refine ⟨_, by rw [rtTaskEnd_found hc task runs first, if_pos hkind], ?_⟩
  rw [if_pos hkind] at first
  generalize ht : (s.rtOver c (s.rtRun c l steps)).modRt c _ = t
  have here : t.rt c = { s.rt c with
      task := none, started := false, reg := (s.rtRun c l steps).reg, data := (s.rtRun c l steps).data
      firsts := (s.rt c).firsts.map fun q => if q.task = tk
        then { q with ended := some (crc32Final (s.rtRun c l steps).sig, (s.rtRun c l steps).count) } else q } := by
    rw [← ht, State.modRt_rt, if_pos rfl, State.rtOver_rt, if_pos rfl]
  refine ⟨first, ?_, fun k hk => ?_, ?_, fun k hk => ?_, ?_⟩
  · rw [State.firstOf, here]
    exact firsts_end _ tk _ first
  · rw [State.firstOf, here]
    exact firsts_end_others _ tk _ hk
  · rw [here]
  · rw [← ht, State.modRt_rt, if_neg hk, State.rtOver_rt, if_neg hk]
  · rw [← ht]
    exact .modRt (.modRt (.refl _ _ s))

/-- A second execution that gives the same ends quietly. -/
theorem rtTaskEnd_agrees (hc : c < 8) (hp : p ≠ c) (task : (s.rt c).task = some (tk, i, p, kind, t0))
    (runs : (s.rt c).started = true) (first : s.firstOf (if kind = 4 then c else p) tk = some l) (hkind : kind ≠ 4)
    (same : l.ended = some (crc32Final (s.rtRun c l steps).sig, (s.rtRun c l steps).count)) :
    ∃ t, exec (.rtTaskEnd c steps) s = .next t
      ∧ t.rt c = { s.rt c with task := none, started := false, reg := (s.rtRun c l steps).reg, data := (s.rtRun c l steps).data }
      ∧ t.firstOf p tk = none ∧ (∀ k, k ≠ tk → t.firstOf p k = s.firstOf p k)
      ∧ t.rt p = { s.rt p with firsts := (t.rt p).firsts }
      ∧ (∀ k, k ≠ c → k ≠ p → t.rt k = s.rt k) ∧ Leaves [.rts] noReg s t := by
  refine ⟨_, by rw [rtTaskEnd_found hc task runs first, if_neg hkind, if_pos same], ?_⟩
  generalize ht : (s.rtOver c (s.rtRun c l steps)).modRt p _ = t
  have there : t.rt p = { s.rt p with firsts := (s.rt p).firsts.filter fun q => q.task != tk } := by
    rw [← ht, State.modRt_rt, if_pos rfl, State.rtOver_rt, if_neg hp]
  refine ⟨?_, ?_, fun k hk => ?_, ?_, fun k hk hkp => ?_, ?_⟩
  · rw [← ht, State.modRt_rt, if_neg (Ne.symm hp), State.rtOver_rt, if_pos rfl]
  · rw [State.firstOf, there]
    exact firsts_drop _ tk
  · rw [State.firstOf, there]
    exact firsts_drop_others _ tk hk
  · rw [there]
  · rw [← ht, State.modRt_rt, if_neg hkp, State.rtOver_rt, if_neg hk]
  · rw [← ht]
    exact .modRt (.modRt (.refl _ _ s))

/-- R147: one that does not is a mismatch. -/
theorem rtTaskEnd_differs (hc : c < 8) (task : (s.rt c).task = some (tk, i, p, kind, t0))
    (runs : (s.rt c).started = true) (first : s.firstOf (if kind = 4 then c else p) tk = some l) (hkind : kind ≠ 4)
    (differ : l.ended ≠ some (crc32Final (s.rtRun c l steps).sig, (s.rtRun c l steps).count)) :
    ∃ t, exec (.rtTaskEnd c steps) s = .next t
      ∧ t.fb SYS_SAFESTAT.RT_MISMATCH 0 = true
      ∧ (∀ k, k = c ∨ k = p → (t.rt k).task = none ∧ (t.rt k).started = false ∧ (t.rt k).extra = true)
      ∧ (∀ k, k ≠ c → k ≠ p → t.rt k = s.rt k)
      ∧ (t.flask ((s.rt c).flask.getD 0)).extraBars = (s.flask ((s.rt c).flask.getD 0)).extraBars ++ [.rt c, .rt p]
      ∧ Leaves [.flasks, .freeCtr, .keptIrqs, .outbox, .safePins, .record, .rts] (oneReg .sysSafestat 0) s t := by
  have ended : Leaves [.rts] noReg s (s.rtOver c (s.rtRun c l steps)) := .modRt (.refl _ _ s)
  have rts := State.rtOver_rt (s := s) (c := c) (s.rtRun c l steps)
  refine ⟨_, by rw [rtTaskEnd_found hc task runs first, if_neg hkind, if_neg differ], ?_⟩
  generalize s.rtOver c (s.rtRun c l steps) = u at ended rts
  refine ⟨u.rtFail_flag _ _, fun k hk => (u.rtFail_two _ c p k).1 hk, fun k hk hkp => ?_, ?_, ?_⟩
  · rw [(u.rtFail_two _ c p k).2 hk hkp, rts, if_neg hk]
  · rw [u.rtFail_flask, State.flask, ended.1 .flasks (by simp)]
    rfl
  · exact (ended.mono (by simp) fun _ _ no => no.elim).into (u.leaves_rtFail _ _) (by simp) fun _ _ e => e

/-- Settles O33. -/
theorem realTimeTasksRunTwiceAndAreCompared : Obligations.RealTimeTasksRunTwiceAndAreCompared := by
  unfold Obligations.RealTimeTasksRunTwiceAndAreCompared
  refine ⟨?_, ?_, ?_, ?_, ?_, ?_⟩
  · intro s c hc task idle copied
    refine ⟨_, inputLogCopyDone_starts hc task idle copied, ?_, fun k hk => ?_, .modRt (.refl _ _ s)⟩
    · rw [State.startTask, State.modRt_rt, if_pos rfl]
    · rw [State.startTask, State.modRt_rt, if_neg hk]
  · intro s c _ not
    exact inputLogCopyDone_waits not
  · intro s c tk i p kind t0 l steps hc _ hp task runs first
    exact ⟨fun k => rtTaskEnd_first hc task runs first k, fun k same => rtTaskEnd_agrees hc hp task runs first k same,
      fun k differ => rtTaskEnd_differs hc task runs first k differ⟩
  · intro s c tk i p kind t0 steps hc task runs first
    obtain ⟨none, -, extra⟩ := (s.rtFail_one ((s.rt c).flask.getD 0) c c).1 rfl
    exact ⟨_, rtTaskEnd_lost hc task runs first, s.rtFail_flag _ _, none, extra,
      fun k hk => (s.rtFail_one ((s.rt c).flask.getD 0) c k).2 hk⟩
  · intro s c steps _ not
    exact rtTaskEnd_idle not
  · intro l r d v off n bs hd
    refine ⟨?_, ?_, rfl, rfl, rfl, rfl, rfl⟩
    · simp only [RtRun.step, RtRun.wr, if_neg (Nat.ne_of_gt hd)]
    · simp only [RtRun.step, RtRun.wr, if_pos]

end

end Sys2Proof.Machine
end

section
/-! PROOFS. Test bars start (R148, R150, R152). -/

set_option Elab.async false

namespace Sys2Proof.Machine

/-- A queued move is among the moves, with or without a ladle. -/
theorem State.mem_addMove (s : State) (m : Move) :
    ∃ mv ∈ (s.addMove m).mem.moves, ({ mv with ladle := false } : Move) = { m with id := s.mem.nextMove, ladle := false } := by
  have all := s.addMove_moves m
  have last : ({ m with id := s.mem.nextMove, ladle := false } : Move) ∈ (s.addMove m).unladled := by
    rw [all]
    exact List.mem_append_right _ (List.mem_singleton.2 rfl)
  exact List.mem_map.1 last

section
variable (s : State) (a : Nat)

/-- A test bar of an array that has been set up, before its save is handed over. -/
def State.barSetUp : State :=
  ((s.mouldRead a barMould barBytes none).2.modArr a fun x =>
    { x with testBar := some s.now, testBarDue := false, barSpare := s.f ARR_STATUS.STATE a == 7, barPhase := .save
             barPair := barPairing (s.f POUR_STAT.FRAME 0), barRuns := [] }).setF ARR_STATUS.STATE a 4

theorem State.startBar_eq : s.startBar a
    = (s.barSetUp a).barMove a (.barSave a) true (s.barArea a) (s.mouldRead a barMould barBytes none).1 := (rfl)

theorem State.leaves_barSetUp : Leaves [.arrays, .freeCtr] (oneReg .arrStatus a) s (s.barSetUp a) :=
  .setF (.modArr (.mouldRead (.refl _ _ s))) ⟨rfl, rfl⟩

theorem State.barSetUp_arr (b : Nat) : (s.barSetUp a).arr b
    = if b = a then { s.arr a with
        testBar := some s.now, testBarDue := false, barSpare := s.f ARR_STATUS.STATE a == 7, barPhase := .save
        barPair := barPairing (s.f POUR_STAT.FRAME 0), barRuns := [] } else s.arr b := by
  have read : Leaves [.freeCtr] noReg s (s.mouldRead a barMould barBytes none).2 := .mouldRead (.refl _ _ s)
  rw [State.barSetUp, State.setF_arr, State.modArr_arr, read.arr_same (by simp), read.arr_same (by simp)]

theorem State.leaves_barMove {k : MoveKind} {toMem : Bool} {pa : Nat} {data : List Byte} :
    Leaves [.moves, .nextMove, .jobs] noReg s (s.barMove a k toMem pa data) := .addMove (.refl _ _ s)

/-- R148: the test bar of an array begins. -/
theorem State.startBar_begins : BarBegins a s (s.startBar a) := by
  have setUp := s.leaves_barSetUp a
  have arrs := s.barSetUp_arr a
  have state : (s.barSetUp a).f ARR_STATUS.STATE a = 4 := State.setF_f_width _ _ _ _ 4 (by decide) rfl
  rw [State.startBar_eq]
  generalize s.barSetUp a = u at setUp arrs state
  have moved := u.leaves_barMove a (k := .barSave a) (toMem := true) (pa := s.barArea a)
    (data := (s.mouldRead a barMould barBytes none).1)
  obtain ⟨mv, hmv, e⟩ := u.mem_addMove { id := 0, kind := .barSave a, part := u.f ARR_STATUS.FLASK a, inst := 0, toMem := true
                                         va := s.barArea a, maddr := barMould, len := barBytes
                                         data := (s.mouldRead a barMould barBytes none).1 }
  refine ⟨(moved.f_same ARR_STATUS.STATE a (by simp [noReg])).trans state, fun b hb => ?_, ?_, ⟨mv, hmv, ?_⟩, fun k => ?_, ?_⟩
  · rw [moved.arr_same (by simp), arrs, if_neg hb]
  · rw [moved.arr_same (by simp), arrs, if_pos rfl]
    rfl
  · exact ⟨congrArg Move.kind e, congrArg Move.toMem e, congrArg Move.va e, congrArg Move.maddr e, congrArg Move.len e,
      congrArg Move.data e⟩
  · exact (SameJob.of_jobs (setUp.1 .jobs (by simp))).trans (u.addMove_jobs _ k)
  · exact (setUp.mono (by simp) fun _ _ e => e).into moved (by simp) fun _ _ no => no.elim

end

/-! ## TEST_BAR_DUE -/

section
variable {s : State} {a b e c : Nat}

theorem testBarDue_array (ha : a < 34) (runs : s.units.tbStopped = false) (lock : s.fb SYS_LOCK.MGR 0 = true) :
    exec (.testBarDue (.array a)) s = .next (if (s.arr a).testBarDue then s.nextBar
      else if !s.arrayBarDue a then s
      else if s.atTile a && s.barMay a then s.startBar a
      else s.modArr a fun x => { x with testBarDue := true }) := by
  rw [exec_testBarDue, execTestBarDue, isTBUnit, isArray, decide_eq_true ha, unit_true, testBarDueGo, runs, lock]
  rfl

theorem testBarDue_stopped (u : TBUnit) (stopped : s.units.tbStopped = true ∨ s.fb SYS_LOCK.MGR 0 = false) :
    exec (.testBarDue u) s = .next s := by
  rw [exec_testBarDue, execTestBarDue]
  unfold testBarDueGo
  rw [if_pos, unit_same]
  rcases stopped with e | e <;> simp [e]

/-- R150: a test bar that is due starts on an array at its boundary, or waits. -/
theorem testBarDue_new (ha : a < 34) (runs : s.units.tbStopped = false) (lock : s.fb SYS_LOCK.MGR 0 = true)
    (due : s.arrayBarDue a = true) : exec (.testBarDue (.array a)) s
      = .next (if s.atTile a && s.barMay a then s.startBar a else s.modArr a fun x => { x with testBarDue := true }) := by
  have fresh : (s.arr a).testBarDue = false := by
    have := due
    simp only [State.arrayBarDue, Bool.and_eq_true, Bool.not_eq_true'] at this
    exact this.2
  rw [testBarDue_array ha runs lock, fresh, due]
  rfl

/-- The lowest array whose due test bar may start. -/
theorem State.nextBar_starts (hb : b < 34) (due : (s.arr b).testBarDue = true) (tile : s.atTile b = true) (may : s.barMay b = true)
    (first : ∀ k, k < b → ((s.arr k).testBarDue && s.atTile k && s.barMay k) = false) : s.nextBar = s.startBar b := by
  have found : (arrayIds.find? fun a => (s.arr a).testBarDue && s.atTile a && s.barMay a) = some b := by
    rw [arrayIds, List.find?_range_eq_some]
    refine ⟨by rw [due, tile, may]; rfl, List.mem_range.2 hb, fun k hk => ?_⟩
    rw [first k hk]
    rfl
  rw [State.nextBar, found]

/-- Without one that is due none starts. -/
theorem State.nextBar_none (h : ∀ b, b < 34 → (s.arr b).testBarDue = false) : s.nextBar = s := by
  have none : (arrayIds.find? fun a => (s.arr a).testBarDue && s.atTile a && s.barMay a) = Option.none := by
    rw [List.find?_eq_none]
    intro b hb
    rw [h b (List.mem_range.1 hb)]
    simp
  rw [State.nextBar, none]

theorem testBarDue_next (ha : a < 34) (hb : b < 34) (runs : s.units.tbStopped = false) (lock : s.fb SYS_LOCK.MGR 0 = true)
    (waits : (s.arr a).testBarDue = true) (due : (s.arr b).testBarDue = true) (tile : s.atTile b = true) (may : s.barMay b = true)
    (first : ∀ k, k < b → ((s.arr k).testBarDue && s.atTile k && s.barMay k) = false) :
    exec (.testBarDue (.array a)) s = .next (s.startBar b) := by
  rw [testBarDue_array ha runs lock, waits, s.nextBar_starts hb due tile may first]
  rfl

/-- R152: the test bar of an engine saves a part of its vector store and begins. -/
theorem State.leaves_startVecBar (s : State) (e : Nat) :
    Leaves (.vecs :: accessParts) (fun r i => accessRegs r i ∨ (r = .vecStatus ∧ i = e)) s (s.startVecBar e) := by
  unfold State.startVecBar
  dsimp only
  exact .setF (.modVec (.physWrite (Leaves.one .freeCtr (.refl _ _ s) (by simp [accessParts])) (by simp [accessParts])
    fun _ _ a => .inl a) (by simp)) (.inr ⟨rfl, rfl⟩)

theorem State.startVecBar_vec (s : State) (e k : Nat) : (s.startVecBar e).vec k
    = if k = e then { s.vec e with testBar := true, testBarDue := false } else s.vec k := by
  have saved : ∀ bs, Leaves accessParts accessRegs s
      (physWrite (s.storeBytes (s.vec e) 0 vecBarBytes).2 (s.f VEC_STATUS.FLASK e) (s.vecBarArea e) bs).2 := fun bs =>
    .physWrite (Leaves.one .freeCtr (.refl _ _ s) (by simp [accessParts])) (List.Subset.refl _) fun _ _ a => a
  have vecs : ∀ bs k, (physWrite (s.storeBytes (s.vec e) 0 vecBarBytes).2 (s.f VEC_STATUS.FLASK e) (s.vecBarArea e) bs).2.vec k
      = s.vec k := fun bs k => by rw [State.vec, (saved bs).1 .vecs (by simp [accessParts])]; rfl
  unfold State.startVecBar
  generalize s.storeBytes (s.vec e) 0 vecBarBytes = r at vecs ⊢
  obtain ⟨bs, s1⟩ := r
  dsimp only at vecs ⊢
  rw [State.setF_vec, State.modVec_vec, vecs, vecs]

theorem State.startVecBar_state (s : State) (e : Nat) : (s.startVecBar e).f VEC_STATUS.STATE e = 4 := by
  unfold State.startVecBar
  exact State.setF_f_width _ _ _ _ 4 (by decide) rfl

theorem testBarDue_vec (he : e < 16) (runs : s.units.tbStopped = false) (lock : s.fb SYS_LOCK.MGR 0 = true)
    (idle : s.f VEC_STATUS.STATE e = 0) (free : (s.vec e).item = none)
    (due : reached s.now ((s.vec e).lastBarNs + s.tbPeriodNs) = true)
    (untimed : s.f VEC_STATUS.FLASK e = 15 ∨ s.timed (s.f VEC_STATUS.FLASK e) = false) :
    exec (.testBarDue (.vec e)) s = .next (s.startVecBar e) := by
  have shared : (s.f VEC_STATUS.FLASK e != 15 && s.timed (s.f VEC_STATUS.FLASK e)) = false := by
    rcases untimed with h | h <;> simp [h]
  rw [exec_testBarDue, execTestBarDue, isTBUnit, isVec, decide_eq_true he, unit_true, testBarDueGo, runs, lock]
  rw [shared, idle, due, free]
  rfl

theorem testBarDue_rt (hc : c < 8) (runs : s.units.tbStopped = false) (lock : s.fb SYS_LOCK.MGR 0 = true)
    (untimed : ∀ f, (s.rt c).flask = some f → s.timed f = false) (serves : (s.rt c).withdrawn = false)
    (idle : (s.rt c).task = none) (due : reached s.now ((s.rt c).lastBarNs + s.tbPeriodNs) = true) :
    exec (.testBarDue (.rt c)) s = .next (s.modRt c fun x => { x with testBar := true }) := by
  have shared : ((s.rt c).flask.any fun f => s.timed f) = false := by
    cases h : (s.rt c).flask with
    | none => rfl
    | some f => exact untimed f h
  rw [exec_testBarDue, execTestBarDue, isTBUnit, isRt, decide_eq_true hc, unit_true, testBarDueGo, runs, lock]
  rw [shared, serves, idle, due]
  rfl

end

end Sys2Proof.Machine
end

section
/-! PROOFS. Test bars run and end (R148, R151, R152). -/

set_option Elab.async false

namespace Sys2Proof.Machine

section
variable (s : State) (a : Nat)

/-! ## The runs of an array's test bar -/

theorem State.barRun_arr (desc : List Nat) (transformed : Bool) (b : Nat) : (s.barRun a desc transformed).arr b
    = if b = a then { (s.arr a).fresh with
        accum := [], active := {}, shadow := {}, barPhase := .run
        job := some { job := barJob a, tile := 0, desc := desc, role := .testBar transformed, startNs := s.now,
                      flask := s.f ARR_STATUS.FLASK a, inst := 0 } } else s.arr b := by
  rw [State.barRun, State.showPc, State.setF_arr, State.modArr_arr]

theorem State.leaves_barRun (desc : List Nat) (transformed : Bool) :
    Leaves [.arrays] (oneReg .arrStatus a) s (s.barRun a desc transformed) := .setF (.modArr (.refl _ _ s)) ⟨rfl, rfl⟩

/-- An array whose saved mould range is about to be restored. -/
def State.barIdle : State :=
  ((s.modArr a fun x => { x.fresh with job := none, barPhase := .restore }).setF ARR_PROG.CUR_VALID a 0).showPc a

theorem State.barBack_eq : s.barBack a = (s.barIdle a).barMove a (.barRestore a) false (s.barArea a) [] := (rfl)

theorem State.leaves_barIdle : Leaves [.arrays] (progRegs a) s (s.barIdle a) :=
  .setF (.setF (.modArr (.refl _ _ s)) ⟨.inl rfl, rfl⟩) ⟨.inr rfl, rfl⟩

theorem State.barBack_arr (b : Nat) : (s.barBack a).arr b
    = if b = a then { (s.arr a).fresh with job := none, barPhase := .restore } else s.arr b := by
  rw [State.barBack_eq, (State.leaves_barMove _ a).arr_same (by simp), State.barIdle, State.showPc, State.setF_arr, State.setF_arr,
    State.modArr_arr]

theorem State.leaves_barBack : Leaves [.arrays, .moves, .nextMove, .jobs] (progRegs a) s (s.barBack a) := by
  rw [State.barBack_eq]
  exact ((s.leaves_barIdle a).mono (by simp) fun _ _ e => e).into (State.leaves_barMove _ a) (by simp) fun _ _ no => no.elim

theorem State.barBack_jobs (k : Nat) : SameJob k s (s.barBack a) := by
  rw [State.barBack_eq]
  exact (SameJob.of_jobs ((s.leaves_barIdle a).1 .jobs (by simp))).trans (State.addMove_jobs _ _ k)

theorem State.barBack_move : ∃ mv ∈ (s.barBack a).mem.moves, mv.kind = .barRestore a ∧ mv.toMem = false ∧ mv.va = s.barArea a
    ∧ mv.maddr = barMould ∧ mv.len = barBytes := by
  obtain ⟨mv, hmv, e⟩ := (s.barIdle a).mem_addMove { id := 0, kind := .barRestore a, part := (s.barIdle a).f ARR_STATUS.FLASK a
                                                     inst := 0, toMem := false, va := s.barArea a, maddr := barMould
                                                     len := barBytes, data := [] }
  refine ⟨mv, hmv, congrArg Move.kind e, congrArg Move.toMem e, congrArg Move.va e, congrArg Move.maddr e, congrArg Move.len e⟩

end

section
variable {s : State} {a flip w : Nat} {dup : Bool} {r : RunJob}

/-- The signatures of a run of a test bar are kept. -/
def State.barSigned (s : State) (a flip : Nat) : State :=
  s.modArr a fun x => { x with barRuns := x.barRuns ++ [some ((s.arr a).sigs, Nat.xor (crc32Final (s.arr a).outCrc) flip)] }

theorem State.barSigned_arr (flip : Nat) : (s.barSigned a flip).arr a
    = { s.arr a with barRuns := (s.arr a).barRuns ++ [some ((s.arr a).sigs, Nat.xor (crc32Final (s.arr a).outCrc) flip)] } := by
  rw [State.barSigned, State.modArr_arr, if_pos rfl]

theorem State.endRun_bar (job : (s.arr a).job = some r) (bar : r.bar = true) : s.endRun a flip dup
    = match r.role with
      | .testBar false => (s.barSigned a flip).barRun a r.desc true
      | _ => (s.barSigned a flip).barBack a := by
  unfold State.endRun
  rw [job]
  dsimp only
  rw [if_pos bar]
  rfl

theorem endProg_bar (h : s.atIssue a 0x0E 111 false w) (idle : (s.arr a).async = []) (job : (s.arr a).job = some r)
    (bar : r.bar = true) :
    ∃ t, exec (.endProg a flip dup) s = .next t
        ∧ (t.arr a).barRuns
            = (s.arr a).barRuns ++ [some ((s.arr a).sigs, Nat.xor (crc32Final (s.arr a).outCrc) flip)]
        ∧ (r.role = .testBar false → (t.arr a).pc = 0 ∧ (t.arr a).accum = [] ∧ (t.arr a).active = {}
            ∧ (t.arr a).shadow = {} ∧ t.mem.moves = s.mem.moves
            ∧ (t.arr a).job = some { job := barJob a, tile := 0, desc := r.desc, role := .testBar true, startNs := s.now,
                                     flask := s.f ARR_STATUS.FLASK a, inst := 0 })
        ∧ (r.role ≠ .testBar false → (t.arr a).barPhase = .restore ∧ (t.arr a).job = none
            ∧ ∃ mv ∈ t.mem.moves, mv.kind = .barRestore a ∧ mv.toMem = false ∧ mv.va = s.barArea a
                ∧ mv.maddr = barMould ∧ mv.len = barBytes)
        ∧ t.f ARR_PERF.TILES a = s.f ARR_PERF.TILES a ∧ ∀ k, SameJob k s t := by
  have signed : Leaves [.arrays] noReg s (s.barSigned a flip) := .modArr (.refl _ _ s)
  have runs := s.barSigned_arr (a := a) flip
  have run := endProg_ends (flip := flip) (dup := dup) h idle
  rw [s.endRun_bar job bar] at run
  have now : (s.barSigned a flip).now = s.now := rfl
  have jobs : ∀ k, SameJob k s (s.barSigned a flip) := fun _ => .of_jobs rfl
  generalize s.barSigned a flip = u at signed runs run now jobs
  by_cases role : r.role = .testBar false
  · rw [role] at run
    have arr := u.barRun_arr a r.desc true a
    have leaves := u.leaves_barRun a r.desc true
    rw [if_pos rfl, runs, now, signed.f_same ARR_STATUS.FLASK a (by simp [noReg])] at arr
    refine ⟨_, run, by rw [arr]; rfl, fun _ => ?_, fun no => absurd role no, ?_, fun k => ?_⟩
    · rw [arr]
      exact ⟨rfl, rfl, rfl, rfl, (leaves.1 .moves (by simp)).trans (signed.1 .moves (by simp)), rfl⟩
    · rw [leaves.f_same ARR_PERF.TILES a (by simp [oneReg, ARR_PERF.TILES]), signed.f_same ARR_PERF.TILES a (by simp [noReg])]
    · exact (jobs k).trans (.of_jobs (leaves.1 .jobs (by simp)))
  · have back : exec (.endProg a flip dup) s = .next (u.barBack a) := by
      rw [run]
      split
      · next e => exact absurd e role
      · rfl
    have arr := u.barBack_arr a a
    have area : u.barArea a = s.barArea a := by
      rw [State.barArea, State.barArea, State.tbBase, State.tbBase, signed.f_same SYS_TBBASE.TB_BASE 0 (by simp [noReg])]
    have move := u.barBack_move a
    rw [area] at move
    rw [if_pos rfl, runs] at arr
    refine ⟨_, back, by rw [arr]; rfl, fun yes => absurd yes role, fun _ => ⟨by rw [arr], by rw [arr], move⟩, ?_,
      fun k => (jobs k).trans (u.barBack_jobs a k)⟩
    rw [(u.leaves_barBack a).f_same ARR_PERF.TILES a (by simp [progRegs, ARR_PERF.TILES]),
      signed.f_same ARR_PERF.TILES a (by simp [noReg])]

end

/-! ## The verdict -/

section
variable (s : State) (a : Nat)

theorem State.accessed_barPassed : Accessed s (s.barPassed a).2 := by
  have read := accessed_physRead s (s.f ARR_STATUS.FLASK a) (s.tbBase + 0x9000 + 128 * (s.arr a).barPair) 128
  unfold State.barPassed
  split <;> next e => rw [e] at read; exact read

/-- A failed test bar of an array counts, marks the array and raises TB_FAIL. -/
def State.barCounted : State :=
  ((s.incSat ARR_RCSTAT.TB_FAIL a 1).setF ARR_RCSTAT.FAULTY a 1).safety SYS_SAFESTAT.TB_FAIL a 0

theorem State.leaves_barCounted : Leaves safetyParts (fun r i => (r = .arrRcstat ∧ i = a) ∨ (r = .sysSafestat ∧ i = 0)) s (s.barCounted a) :=
  .safety (.setF (.incSat (.refl _ _ s) (.inl ⟨rfl, rfl⟩)) (.inl ⟨rfl, rfl⟩)) rfl (List.Subset.refl _) (.inr ⟨rfl, rfl⟩)

theorem State.barCounted_flags : (s.barCounted a).fb ARR_RCSTAT.FAULTY a = true ∧ (s.barCounted a).fb SYS_SAFESTAT.TB_FAIL 0 = true
    ∧ (s.barCounted a).f ARR_RCSTAT.TB_FAIL a = min (s.f ARR_RCSTAT.TB_FAIL a + 1) ARR_RCSTAT.TB_FAIL.top := by
  have faulty : ((s.incSat ARR_RCSTAT.TB_FAIL a 1).setF ARR_RCSTAT.FAULTY a 1).f ARR_RCSTAT.FAULTY a = 1 :=
    State.setF_f_width _ _ _ _ 1 (by decide) rfl
  have count : ((s.incSat ARR_RCSTAT.TB_FAIL a 1).setF ARR_RCSTAT.FAULTY a 1).f ARR_RCSTAT.TB_FAIL a
      = min (s.f ARR_RCSTAT.TB_FAIL a + 1) ARR_RCSTAT.TB_FAIL.top := by
    rw [State.setF_f_apart _ ARR_RCSTAT.FAULTY ARR_RCSTAT.TB_FAIL _ _ _ (by decide) (by decide)]
    exact s.incSat_f_same ARR_RCSTAT.TB_FAIL a 1 (by decide)
  unfold State.barCounted
  generalize (s.incSat ARR_RCSTAT.TB_FAIL a 1).setF ARR_RCSTAT.FAULTY a 1 = t at faulty count
  have safe : Leaves safetyParts (oneReg .sysSafestat 0) t (t.safety SYS_SAFESTAT.TB_FAIL a 0) :=
    .safety (.refl _ _ t) rfl (List.Subset.refl _)
  exact ⟨State.fb_of_f ((safe.f_same ARR_RCSTAT.FAULTY a (by simp [oneReg, ARR_RCSTAT.FAULTY])).trans faulty),
    State.fb_of_f (State.safety_f _ _ _ _ (by decide) (by decide) (by decide) (by decide)),
    (safe.f_same ARR_RCSTAT.TB_FAIL a (by simp [oneReg, ARR_RCSTAT.TB_FAIL])).trans count⟩

/-- The verdict of a test bar has been read, and the array no longer runs one. -/
def State.barRead : State :=
  ((s.barPassed a).2.modArr a fun x => { x with testBar := none, lastBarNs := s.now }).setF ARR_STATUS.STATE a
    (if (s.arr a).barSpare then 7 else 0)

theorem State.leaves_barRead : Leaves (.arrays :: accessParts) (fun r i => accessRegs r i ∨ (r = .arrStatus ∧ i = a)) s (s.barRead a) :=
  .setF (.modArr ((s.accessed_barPassed a).mono (by simp) fun _ _ e => .inl e)) (.inr ⟨rfl, rfl⟩)

theorem State.barRead_arr (b : Nat) : (s.barRead a).arr b
    = if b = a then { s.arr a with testBar := none, lastBarNs := s.now } else s.arr b := by
  have read := s.accessed_barPassed a
  rw [State.barRead, State.setF_arr, State.modArr_arr, read.arr_same (by simp [accessParts]), read.arr_same (by simp [accessParts])]

theorem State.barRead_state : (s.barRead a).f ARR_STATUS.STATE a = if (s.arr a).barSpare then 7 else 0 := by
  rw [State.barRead, State.setF_f_width _ _ _ _ 4 (by decide) rfl]
  split <;> rfl

/-- The next test bar changes an array of its own. -/
theorem State.nextBar_keeps (free : (s.arr a).testBarDue = false) : s.nextBar.arr a = s.arr a
    ∧ Leaves [.arrays, .jobs, .moves, .nextMove, .freeCtr] (fun r i => r = .arrStatus ∧ i ≠ a) s s.nextBar := by
  unfold State.nextBar
  split
  · next b found =>
    have due := List.find?_some found
    have other : b ≠ a := by
      rintro rfl
      simp [free] at due
    obtain ⟨-, others, -, -, -, leaves⟩ := s.startBar_begins b
    exact ⟨others a (Ne.symm other), leaves.mono (by simp) fun r i e => ⟨e.1, e.2 ▸ other⟩⟩
  · exact ⟨rfl, .refl _ _ s⟩

end

section
variable {s : State} {a : Nat} {pass : Bool}

theorem testBarDone_array (ha : a < 34) : exec (.testBarDone (.array a) pass) s = .next (s.arrayBarDone a) := by
  rw [exec_testBarDone, execTestBarDone, isTBUnit, isArray, decide_eq_true ha, unit_true, testBarDoneGo]

theorem testBarDone_waits (ha : a < 34) (not : (s.arr a).testBar = none ∨ (s.arr a).barPhase ≠ .over) :
    exec (.testBarDone (.array a) pass) s = .next s := by
  rw [testBarDone_array ha, State.arrayBarDone, if_pos]
  rcases not with e | e <;> simp [e]

theorem State.arrayBarDone_reads (runs : (s.arr a).testBar.isSome = true) (over_ : (s.arr a).barPhase = .over) :
    s.arrayBarDone a
      = State.nextBar (if (s.arr a).barSpare
          then (if (s.barPassed a).1 || s.units.tbStopped then s.barRead a else (s.barRead a).arrayBarFail a).modArr a
            fun x => { x with barSpare := false }
          else (if (s.barPassed a).1 || s.units.tbStopped then s.barRead a else (s.barRead a).arrayBarFail a).passBoundary a) := by
  have on : (s.arr a).testBar.isNone = false := by
    rw [← Option.not_isSome, runs]
    rfl
  unfold State.arrayBarDone
  rw [on, over_, if_neg (by decide)]
  rfl

/-- R151: the test bar of a spare. -/
theorem testBarDone_spare (ha : a < 34) (runs : (s.arr a).testBar.isSome = true) (over_ : (s.arr a).barPhase = .over)
    (spare : (s.arr a).barSpare = true) (going : s.units.tbStopped = false) (none_ : ∀ b, b < 34 → (s.arr b).testBarDue = false) :
    ∃ t, exec (.testBarDone (.array a) pass) s = .next t ∧ (t.arr a).testBar = none ∧ (t.arr a).lastBarNs = s.now
        ∧ t.f ARR_STATUS.STATE a = (if (s.barPassed a).1 then 7 else 6)
        ∧ ((s.barPassed a).1 = true →
            Leaves (.arrays :: accessParts) (fun r i => accessRegs r i ∨ (r = .arrStatus ∧ i = a)) s t)
        ∧ ((s.barPassed a).1 = false → t.fb ARR_RCSTAT.FAULTY a = true ∧ t.fb SYS_SAFESTAT.TB_FAIL 0 = true
            ∧ t.f ARR_RCSTAT.TB_FAIL a = min (s.f ARR_RCSTAT.TB_FAIL a + 1) ARR_RCSTAT.TB_FAIL.top
            ∧ a ∈ t.sys.record.retired) := by
  have run := testBarDone_array (s := s) (pass := pass) ha
  rw [State.arrayBarDone_reads runs over_, if_pos spare, going] at run
  have read := s.leaves_barRead a
  have arrs := s.barRead_arr a
  have state := s.barRead_state a
  rw [if_pos spare] at state
  have same : ∀ (u : State), (∀ b, u.arr b = (s.barRead a).arr b) → (u.modArr a fun x => { x with barSpare := false }).nextBar
      = u.modArr a fun x => { x with barSpare := false } := fun u hu => by
    refine State.nextBar_none fun b hb => ?_
    rw [State.modArr_arr]
    by_cases e : b = a
    · rw [if_pos e, hu, arrs, if_pos rfl]
      exact none_ a ha
    · rw [if_neg e, hu, arrs, if_neg e]
      exact none_ b hb
  have here : ∀ (u : State), (∀ b, u.arr b = (s.barRead a).arr b) → ((u.modArr a fun x => { x with barSpare := false }).arr a).testBar = none
      ∧ ((u.modArr a fun x => { x with barSpare := false }).arr a).lastBarNs = s.now := fun u hu => by
    rw [State.modArr_arr, if_pos rfl, hu, arrs, if_pos rfl]
    exact ⟨rfl, rfl⟩
  cases verdict : (s.barPassed a).1 with
  | true =>
    rw [verdict, Bool.true_or, if_pos rfl, same _ fun _ => rfl] at run
    obtain ⟨off, last⟩ := here (s.barRead a) fun _ => rfl
    exact ⟨_, run, off, last, by rw [State.modArr_f, state, if_pos rfl], fun _ => read.modArr, nofun⟩
  | false =>
    have fail : (s.barRead a).arrayBarFail a
        = (((s.barRead a).barCounted a).setF ARR_STATUS.STATE a 6).modRec fun r => { r with retired := insNat r.retired a } := by
      unfold State.arrayBarFail
      rw [arrs a, if_pos rfl]
      exact if_pos spare
    have counted := (s.barRead a).leaves_barCounted a
    obtain ⟨faulty, flag, count⟩ := (s.barRead a).barCounted_flags a
    rw [verdict, Bool.false_or, if_neg (by decide), fail] at run
    have arrsU : ∀ b, ((((s.barRead a).barCounted a).setF ARR_STATUS.STATE a 6).modRec
        fun r => { r with retired := insNat r.retired a }).arr b = (s.barRead a).arr b := fun b => by
      rw [State.modRec_arr, State.setF_arr, counted.arr_same (by decide)]
    rw [same _ arrsU] at run
    obtain ⟨off, last⟩ := here _ arrsU
    refine ⟨_, run, off, last, ?_, nofun, fun _ => ⟨?_, ?_, ?_, ?_⟩⟩
    · rw [State.modArr_f, State.modRec_f]
      exact State.setF_f_width _ _ _ _ 4 (by decide) rfl
    all_goals generalize (s.barRead a).barCounted a = u at *
    · rw [State.modArr_fb, State.modRec_fb, State.fb_eq, State.setF_f_apart _ _ _ _ _ _ (by decide) (by decide), ← State.fb_eq]
      exact faulty
    · rw [State.modArr_fb, State.modRec_fb, State.fb_eq, State.setF_f_apart _ _ _ _ _ _ (by decide) (by decide), ← State.fb_eq]
      exact flag
    · rw [State.modArr_f, State.modRec_f, State.setF_f_apart _ _ _ _ _ _ (by decide) (by decide), count,
        read.f_same ARR_RCSTAT.TB_FAIL a (by simp [accessRegs, ARR_RCSTAT.TB_FAIL])]
    · exact (mem_insNat _ _ _).mpr (.inr rfl)

/-- R151: a failed test bar of an array of a timed flask marks the array for retirement. -/
theorem testBarDone_timed (ha : a < 34) (runs : (s.arr a).testBar.isSome = true) (over_ : (s.arr a).barPhase = .over)
    (own : (s.arr a).barSpare = false) (free : (s.arr a).testBarDue = false) (timed : s.timed (s.f ARR_STATUS.FLASK a) = true)
    (flask : s.f ARR_STATUS.FLASK a < 8) (going : s.units.tbStopped = false) (failed : (s.barPassed a).1 = false) :
    ∃ t, exec (.testBarDone (.array a) pass) s = .next t ∧ (t.arr a).testBar = none
        ∧ (t.arr a).retireDue = some 2 ∧ t.fb ARR_RCSTAT.FAULTY a = true ∧ t.fb SYS_SAFESTAT.TB_FAIL 0 = true := by
  have run := testBarDone_array (s := s) (pass := pass) ha
  have read := s.leaves_barRead a
  have arrs := s.barRead_arr a
  have state := s.barRead_state a
  rw [if_neg (by simp [own])] at state
  have counted := (s.barRead a).leaves_barCounted a
  obtain ⟨faulty, flag, -⟩ := (s.barRead a).barCounted_flags a
  have flaskRead : (s.barRead a).f ARR_STATUS.FLASK a = s.f ARR_STATUS.FLASK a := by
    have access := s.accessed_barPassed a
    rw [State.barRead, State.setF_f_apart _ _ _ _ _ _ (by decide) (by decide), State.modArr_f,
      access.f_same ARR_STATUS.FLASK a (by simp [accessRegs, ARR_STATUS.FLASK])]
  have timedRead : (s.barRead a).timed (s.f ARR_STATUS.FLASK a) = true := by
    rw [State.timed, State.fb_eq, read.f_same SYS_FLCTRL.TIMED _ (by simp [accessRegs, SYS_FLCTRL.TIMED])]
    exact timed
  have fail : (s.barRead a).arrayBarFail a = ((s.barRead a).barCounted a).modArr a fun x => { x with retireDue := some 2 } := by
    unfold State.arrayBarFail
    rw [arrs a, if_pos rfl]
    dsimp only
    rw [own, if_neg (by decide), flaskRead, timedRead, if_pos (by simp; omega)]
    rfl
  rw [State.arrayBarDone_reads runs over_, own, if_neg (by decide), going, failed, Bool.or_self, if_neg (by decide), fail] at run
  have arrU : (((s.barRead a).barCounted a).modArr a fun x => { x with retireDue := some 2 }).arr a
      = { s.arr a with testBar := none, lastBarNs := s.now, retireDue := some 2 } := by
    rw [State.modArr_arr, if_pos rfl, counted.arr_same (by decide), arrs, if_pos rfl]
  have flaskU : (((s.barRead a).barCounted a).modArr a fun x => { x with retireDue := some 2 }).f ARR_STATUS.FLASK a
      = s.f ARR_STATUS.FLASK a := by
    rw [State.modArr_f, counted.f_same ARR_STATUS.FLASK a (by simp [ARR_STATUS.FLASK]), flaskRead]
  have timedU : (((s.barRead a).barCounted a).modArr a fun x => { x with retireDue := some 2 }).timed (s.f ARR_STATUS.FLASK a) = true := by
    rw [State.timed, State.modArr_fb, State.fb_eq, counted.f_same SYS_FLCTRL.TIMED _ (by simp [SYS_FLCTRL.TIMED])]
    exact timedRead
  have stateU : (((s.barRead a).barCounted a).modArr a fun x => { x with retireDue := some 2 }).f ARR_STATUS.STATE a = 0 := by
    rw [State.modArr_f, counted.f_same ARR_STATUS.STATE a (by simp [ARR_STATUS.STATE]), state]
  have faultyU : (((s.barRead a).barCounted a).modArr a fun x => { x with retireDue := some 2 }).f ARR_RCSTAT.FAULTY a = 1 := by
    rw [State.modArr_f]
    exact beq_iff_eq.1 faulty
  have flagU : (((s.barRead a).barCounted a).modArr a fun x => { x with retireDue := some 2 }).f SYS_SAFESTAT.TB_FAIL 0 = 1 := by
    rw [State.modArr_f]
    exact beq_iff_eq.1 flag
  generalize ((s.barRead a).barCounted a).modArr a (fun x => { x with retireDue := some 2 }) = u at *
  have stays : u.boundaryWithdraw a = u := by
    unfold State.boundaryWithdraw
    split
    · rw [if_pos]
      rw [flaskU, timedU]
      simp
      omega
    · rfl
  have passes : u.passBoundary a = u.takeProgram a := by
    unfold State.passBoundary
    dsimp only
    rw [stays, if_neg (by simp [State.arrServing, stateU]), arrU, if_neg (by simp [free])]
  rw [passes] at run
  have taken : ((u.takeProgram a).arr a).testBar = none ∧ ((u.takeProgram a).arr a).retireDue = some 2
      ∧ ((u.takeProgram a).arr a).testBarDue = false := by
    cases valid : u.fb ARR_PROG.NEXT_VALID a with
    | true =>
      obtain ⟨-, -, -, -, -, arr, -⟩ := u.takeProgram_next a valid
      rw [arr, if_pos rfl, arrU]
      exact ⟨rfl, rfl, free⟩
    | false =>
      obtain ⟨-, -, arr, -⟩ := u.takeProgram_idle a valid
      rw [arr, if_pos rfl, arrU]
      exact ⟨rfl, rfl, free⟩
  obtain ⟨off, due, none_⟩ := taken
  have took := QuietTo.takeProgram u a
  obtain ⟨same, leaves⟩ := (u.takeProgram a).nextBar_keeps a none_
  refine ⟨_, run, by rw [same]; exact off, by rw [same]; exact due, State.fb_of_f ?_, State.fb_of_f ?_⟩
  · rw [leaves.f_same ARR_RCSTAT.FAULTY a (by simp [ARR_RCSTAT.FAULTY]),
      took.f_same ARR_RCSTAT.FAULTY a (by simp [quietRegs, boundaryRegs, ARR_RCSTAT.FAULTY]), faultyU]
  · rw [leaves.f_same SYS_SAFESTAT.TB_FAIL 0 (by simp [SYS_SAFESTAT.TB_FAIL]),
      took.f_same SYS_SAFESTAT.TB_FAIL 0 (by simp [quietRegs, SYS_SAFESTAT.TB_FAIL]), flagU]

end

/-! ## The runner's test bar -/

section
variable (s : State)

/-- The runner is free of its test bar, and its node cache is empty. -/
def State.runnerFreed : State := (s.setF RUN_STAT.STATE 0 0).dropNodes

theorem State.leaves_dropNodes : Leaves [.nodes] noReg s s.dropNodes := Leaves.one .nodes (.refl _ _ s) (by simp)

theorem State.dropNodes_nodes : s.dropNodes.pix.nodes = [] := rfl

theorem State.leaves_runnerFreed : Leaves [.nodes] (oneReg .runStat 0) s s.runnerFreed :=
  Leaves.into (.setF (.refl _ _ s) ⟨rfl, rfl⟩) (State.leaves_dropNodes _) (List.Subset.refl _) fun _ _ no => no.elim

theorem State.runnerFreed_state : s.runnerFreed.f RUN_STAT.STATE 0 = 0 := by
  rw [State.runnerFreed, (State.leaves_dropNodes _).f_same RUN_STAT.STATE 0 (by simp [noReg]),
    State.setF_f_same _ _ _ _ (by decide), Nat.zero_mod]

/-- A failed test bar of the runner is counted. -/
def State.runnerCounted : State := s.runnerFreed.modRec fun r => { r with runner := satAdd32 r.runner 0 1 }

/-- The runner is to be withdrawn at the next frame boundary. -/
def State.runnerMarked : State := { s with units.runnerDue := true }

/-- A failed test bar raises TB_FAIL and marks the runner for withdrawal. -/
def State.runnerFailed : State := (s.runnerCounted.safety SYS_SAFESTAT.TB_FAIL 58 0).runnerMarked

theorem testBarDone_runner (bar : s.f RUN_STAT.STATE 0 = 6) (pass : Bool) :
    exec (.testBarDone .runner pass) s = .next (if pass then s.runnerFreed else s.runnerFailed) := by
  rw [exec_testBarDone, execTestBarDone, isTBUnit, unit_true, testBarDoneGo]
  unfold State.runnerBarDone
  rw [bar]
  rfl

theorem State.leaves_runnerCounted : Leaves [.nodes, .record] (oneReg .runStat 0) s s.runnerCounted :=
  .modRec (s.leaves_runnerFreed.mono (by simp) fun _ _ e => e) (by simp)

theorem State.runnerCounted_count : NMap.get s.runnerCounted.sys.record.runner 0 0
    = min (NMap.get s.sys.record.runner 0 0 + 1) 0xFFFFFFFF := by
  have same : s.runnerFreed.sys.record = s.sys.record := s.leaves_runnerFreed.1 .record (by simp)
  have counted : s.runnerCounted.sys.record.runner = satAdd32 s.runnerFreed.sys.record.runner 0 1 := rfl
  rw [counted, same, satAdd32, NMap.get_set, if_pos rfl]
  rfl

/-- The field record without its event log. -/
def FieldRecord.counted (r : FieldRecord) : FieldRecord := { r with log := [], logIdx := 0 }

theorem State.logEvent_counted (c u d : Nat) : (s.logEvent c u d).sys.record.counted = s.sys.record.counted := rfl

/-- Of the field record a cause changes the event log alone. -/
theorem State.safety_counted (x : Fld) (u d : Nat) : (s.safety x u d).sys.record.counted = s.sys.record.counted := by
  have asserted : ∀ t : State, t.assertFlt.sys.record.counted = t.sys.record.counted := fun t => by
    unfold State.assertFlt
    split
    · rfl
    · have pin : Leaves [.outbox, .safePins] (fun _ _ => True) t (((t.setF SYS_SAFESTAT.FLT 0 1).modPower
          fun p => { p with safeFlt := true }).safePin "SAFE_FLT_N" false) :=
        .safePin (.pins (.setF (.refl _ _ t) trivial) (fun _ => rfl) (by simp)) (by simp)
      rw [State.logEvent_counted, pin.1 .record (by simp)]
  unfold State.safety
  simp only [State.emit_sys, State.mgrIrq_record]
  split <;> split
  · rw [asserted, State.logEvent_counted, State.setF_sys]
  · rw [asserted, State.logEvent_counted]
    exact congrArg (fun y : SysSt => y.record.counted) (State.setF_sys s x 0 1)
  · rw [State.updateWarn_record, State.logEvent_counted, State.setF_sys]
  · rw [State.updateWarn_record, State.logEvent_counted]
    exact congrArg (fun y : SysSt => y.record.counted) (State.setF_sys s x 0 1)

theorem State.leaves_runnerMarked : Leaves [.runnerDue] noReg s s.runnerMarked := Leaves.one .runnerDue (.refl _ _ s) (by simp)

/-- R152: what a failed test bar of the runner leads to. -/
theorem State.runnerFailed_shows : s.runnerFailed.f RUN_STAT.STATE 0 = 0 ∧ s.runnerFailed.pix.nodes = []
    ∧ s.runnerFailed.fb SYS_SAFESTAT.TB_FAIL 0 = true ∧ s.runnerFailed.units.runnerDue = true
    ∧ NMap.get s.runnerFailed.sys.record.runner 0 0 = min (NMap.get s.sys.record.runner 0 0 + 1) 0xFFFFFFFF
    ∧ Leaves [.freeCtr, .keptIrqs, .nodes, .outbox, .safePins, .record, .runnerDue]
        (fun r i => (r = .runStat ∨ r = .sysSafestat) ∧ i = 0) s s.runnerFailed := by
  have counted := s.leaves_runnerCounted
  have state : s.runnerCounted.f RUN_STAT.STATE 0 = 0 := by rw [State.runnerCounted, State.modRec_f, s.runnerFreed_state]
  have nodes : s.runnerCounted.pix.nodes = [] := by
    rw [State.runnerCounted, State.modRec_pix, State.runnerFreed, State.dropNodes_nodes]
  have count := s.runnerCounted_count
  unfold State.runnerFailed
  generalize s.runnerCounted = t at counted state nodes count
  have safe : Leaves safetyParts (oneReg .sysSafestat 0) t (t.safety SYS_SAFESTAT.TB_FAIL 58 0) :=
    .safety (.refl _ _ t) rfl (List.Subset.refl _)
  have flag := State.fb_of_f (t.safety_f SYS_SAFESTAT.TB_FAIL 58 0 (by decide) (by decide) (by decide) (by decide))
  have record := congrArg FieldRecord.runner (t.safety_counted SYS_SAFESTAT.TB_FAIL 58 0)
  generalize t.safety SYS_SAFESTAT.TB_FAIL 58 0 = u at safe flag record
  have marked := u.leaves_runnerMarked
  refine ⟨?_, ?_, ?_, rfl, ?_, ?_⟩
  · rw [marked.f_same RUN_STAT.STATE 0 (by simp [noReg]), safe.f_same RUN_STAT.STATE 0 (by simp [oneReg, RUN_STAT.STATE]), state]
  · rw [marked.1 .nodes (by simp), safe.1 .nodes (by decide), nodes]
  · rw [State.fb_eq, marked.f_same SYS_SAFESTAT.TB_FAIL 0 (by simp [noReg]), ← State.fb_eq]
    exact flag
  · rw [marked.1 .record (by simp), ← count]
    exact congrArg (fun m => NMap.get m 0 0) record
  · exact ((counted.mono (by simp) fun _ _ e => ⟨.inl e.1, e.2⟩).into safe (by decide) fun _ _ e => ⟨.inr e.1, e.2⟩).into marked
      (by simp) fun _ _ no => no.elim

end

end Sys2Proof.Machine
end

section
/-! PROOFS. The test-bar image guards the manager lock (R149, R349), and what O34 says. -/

set_option Elab.async false

namespace Sys2Proof.Machine

/-- An operation on one unit after another, each of which changes its own unit alone, does its work on every one of them. -/
theorem State.each_units {α β : Type} {v : State → α → β} {g : State → α → State} {P : β → β → Prop}
    (others : ∀ u a b, b ≠ a → v (g u a) b = v u b) (here : ∀ u a, P (v u a) (v (g u a) a)) {xs : List α} (distinct : xs.Nodup)
    (s : State) (b : α) : (b ∈ xs → P (v s b) (v (s.each xs g) b)) ∧ (b ∉ xs → v (s.each xs g) b = v s b) := by
  induction xs generalizing s with
  | nil => exact ⟨nofun, fun _ => rfl⟩
  | cons a as ih =>
    obtain ⟨fresh, rest⟩ := List.nodup_cons.1 distinct
    obtain ⟨hit, missed⟩ := ih rest (g s a)
    have step : s.each (a :: as) g = (g s a).each as g := rfl
    rw [step]
    refine ⟨fun h => ?_, fun h => ?_⟩
    · rcases List.mem_cons.1 h with rfl | h
      · rw [missed fresh]
        exact here s b
      · have other : b ≠ a := fun e => fresh (e ▸ h)
        rw [← others s a b other]
        exact hit h
    · obtain ⟨other, h⟩ := not_or.1 (List.mem_cons.not.1 h)
      rw [missed h, others s a b other]

section
variable {ps : List Part} {q : Reg → Nat → Prop} {s t : State}

theorem Leaves.vec_same (h : Leaves ps q s t) (hp : .vecs ∉ ps) (e : Nat) : t.vec e = s.vec e := by
  rw [State.vec, State.vec, h.1 .vecs hp]

theorem Leaves.rt_same (h : Leaves ps q s t) (hp : .rts ∉ ps) (c : Nat) : t.rt c = s.rt c := by
  rw [State.rt, State.rt, h.1 .rts hp]

theorem Leaves.flask_same (h : Leaves ps q s t) (hp : .flasks ∉ ps) (f : Nat) : t.flask f = s.flask f := by
  rw [State.flask, State.flask, h.1 .flasks hp]

end

section
variable (s : State) (a : Nat)

/-! ## The lock -/

/-- A write of the register that keeps the bit of MGR. -/
theorem State.setR_lock (w : Nat) : (s.setR .sysLock 0 (putBits w 62 62 (bits (s.r .sysLock 0) 62 62))).fb SYS_LOCK.MGR 0
    = s.fb SYS_LOCK.MGR 0 := by
  have stored : (s.setR .sysLock 0 (putBits w 62 62 (bits (s.r .sysLock 0) 62 62))).f SYS_LOCK.MGR 0
      = bits (putBits w 62 62 (bits (s.r .sysLock 0) 62 62) % 2 ^ 64) 62 62 := by
    rw [State.f, State.setR_r, if_pos ⟨rfl, rfl⟩]
    rfl
  have same : bits (putBits w 62 62 (bits (s.r .sysLock 0) 62 62) % 2 ^ 64) 62 62 = bits (s.r .sysLock 0) 62 62 := by
    have one := bits_putBits w 62 62 (bits (s.r .sysLock 0) 62 62) (by omega)
    have small : bits (s.r .sysLock 0) 62 62 < 2 := bits_lt _ 62 62
    simp only [bits] at one small ⊢
    omega
  rw [State.fb_eq, State.fb_eq, stored, same]
  rfl

/-- The test-bar image is being verified. -/
def State.verifying : State := { s with units.tbVerifying := true }

theorem State.leaves_verifying : Leaves [.tbVerifying] noReg s s.verifying := Leaves.one .tbVerifying (.refl _ _ s) (by simp)

/-- R149: a set of MGR starts the verification, and MGR stays clear until it has ended. -/
theorem mgrLockSet_sets (m : Master) (v : Word) (acc : s.accepts .sysLock 0 m .whole (withBit v 62)) (clear : s.fb SYS_LOCK.MGR 0 = false) :
    ∃ t, exec (.mgrLockSet m v) s = .next t ∧ t.fb SYS_LOCK.MGR 0 = false ∧ t.units.tbVerifying = true
      ∧ (∀ r, r ≠ .sysLock → r ≠ .sysRegerr → ∀ i, t.r r i = s.r r i) := by
  have run : exec (.mgrLockSet m v) s = .next ((s.setR .sysLock 0 (s.newValue .sysLock 0 .whole (withBit v 62))).afterWrite .sysLock 0 m
      (s.r .sysLock 0) (s.newValue .sysLock 0 .whole (withBit v 62)) (halfOf .whole (withBit v 62))) := by
    rw [exec_mgrLockSet, execMgrLockSet, State.regWrite_accepted s .sysLock 0 m .whole _ (by decide) (by decide) acc,
      State.takeWrite_plain s .sysLock 0 m .whole _ _ _ (by simp [State.hitsLock, Reg.fieldsAt, Reg.fields])]
  have kept := (s.setR_lock (s.merged .sysLock 0 .whole (withBit v 62))).trans clear
  have value : s.newValue .sysLock 0 .whole (withBit v 62)
      = putBits (s.merged .sysLock 0 .whole (withBit v 62)) 62 62 (bits (s.r .sysLock 0) 62 62) := by
    unfold State.newValue
    rfl
  rw [← value] at kept
  have written : Leaves [] (oneReg .sysLock 0) s (s.setR .sysLock 0 (s.newValue .sysLock 0 .whole (withBit v 62))) :=
    .setR (.refl _ _ s) ⟨rfl, rfl⟩
  generalize s.setR .sysLock 0 (s.newValue .sysLock 0 .whole (withBit v 62)) = u at run kept written
  have starts : u.afterWrite .sysLock 0 m (s.r .sysLock 0) (s.newValue .sysLock 0 .whole (withBit v 62))
      (halfOf .whole (withBit v 62)) = u.verifying := by
    unfold State.afterWrite
    refine if_pos ?_
    rw [kept]
    exact Bool.and_eq_true_iff.2 ⟨bit_withBit v 62, rfl⟩
  rw [starts] at run
  have started := u.leaves_verifying
  refine ⟨_, run, ?_, rfl, fun r hl _ i => ?_⟩
  · rw [State.fb_eq, started.f_same SYS_LOCK.MGR 0 (by simp [noReg]), ← State.fb_eq]
    exact kept
  · rw [started.2 r i (by simp [noReg]), written.2 r i (by simp [oneReg, hl])]

/-- The verification of the image has ended. -/
def State.verified (ok : Bool) : State := { s with units.tbVerifying := false, units.tbFailed := !ok }

theorem State.leaves_verified (ok : Bool) : Leaves [.tbFailed, .tbVerifying] noReg s (s.verified ok) := .beside (.refl _ _ s)

/-- The spare area exists. -/
def State.spareMade : State := { s with mem.spareArea := true }

theorem State.leaves_spareMade : Leaves [.spareArea] noReg s s.spareMade := Leaves.one .spareArea (.refl _ _ s) (by simp)

/-- MGR is set, and the spare area exists. -/
def State.spareOpened : State := (s.setF SYS_LOCK.MGR 0 1).spareMade

theorem State.leaves_spareOpened : Leaves [.spareArea] (oneReg .sysLock 0) s s.spareOpened :=
  .into (.setF (.refl _ _ s) ⟨rfl, rfl⟩) (State.leaves_spareMade _) (List.Subset.refl _) fun _ _ no => no.elim

theorem State.spareOpened_lock : s.spareOpened.fb SYS_LOCK.MGR 0 = true := by
  rw [State.spareOpened, State.fb_eq, (State.leaves_spareMade _).f_same SYS_LOCK.MGR 0 (by simp [noReg]),
    State.setF_f_width _ SYS_LOCK.MGR 0 1 1 (by decide) rfl]
  rfl

theorem tbImageVerified_ends (ok : Bool) (runs : s.units.tbVerifying = true) : exec (.tbImageVerified ok) s
    = .next (if ok && !s.spareClash then (s.verified ok).spareOpened
        else (s.verified ok).regFlag SYS_REGERR.REFUSED .manager 0x10 false false) := by
  rw [exec_tbImageVerified, execTbImageVerified]
  unfold tbVerifiedGo
  rw [runs]
  rfl

theorem tbImageVerified_idle (ok : Bool) (idle : s.units.tbVerifying = false) : exec (.tbImageVerified ok) s = .next s := by
  rw [exec_tbImageVerified, execTbImageVerified]
  unfold tbVerifiedGo
  rw [idle]
  rfl

theorem tbImageVerified_good (runs : s.units.tbVerifying = true) (clear : s.spareClash = false) :
    ∃ t, exec (.tbImageVerified true) s = .next t ∧ t.fb SYS_LOCK.MGR 0 = true ∧ t.units.tbVerifying = false
        ∧ t.units.tbFailed = false ∧ t.mem.spareArea = true
        ∧ Leaves [.spareArea, .tbFailed, .tbVerifying] (oneReg .sysLock 0) s t := by
  have run := tbImageVerified_ends s true runs
  rw [clear, if_pos (by decide)] at run
  refine ⟨_, run, State.spareOpened_lock _, ?_, ?_, rfl, ?_⟩
  · rw [(State.leaves_spareOpened _).1 .tbVerifying (by simp)]
    rfl
  · rw [(State.leaves_spareOpened _).1 .tbFailed (by simp)]
    rfl
  · exact ((s.leaves_verified true).mono (by simp) fun _ _ no => no.elim).into (State.leaves_spareOpened _) (by simp) fun _ _ e => e

theorem tbImageVerified_bad (runs : s.units.tbVerifying = true) :
    ∃ t, exec (.tbImageVerified false) s = .next t ∧ t.units.tbVerifying = false ∧ t.units.tbFailed = true
        ∧ t.f SYS_REGERR.REFUSED 0 = 1
        ∧ Leaves [.keptIrqs, .outbox, .tbFailed, .tbVerifying] (oneReg .sysRegerr 0) s t := by
  have run := tbImageVerified_ends s false runs
  rw [Bool.false_and, if_neg (by decide)] at run
  have flagged := leaves_regFlag (s.verified false) SYS_REGERR.REFUSED .manager 0x10 false false rfl
  refine ⟨_, run, ?_, ?_, (State.regFlag_raised _ _ _ _ _ _ (.inr rfl)).1, ?_⟩
  · rw [flagged.1 .tbVerifying (by simp)]
    rfl
  · rw [flagged.1 .tbFailed (by simp)]
    rfl
  · exact ((s.leaves_verified false).mono (by simp) fun _ _ no => no.elim).into flagged (by simp) fun _ _ e => e

/-! ## Every test bar stops -/

/-- What the stop of a test bar leaves of its array. -/
def BarStopped (x y : ArraySt) : Prop :=
  y.testBarDue = false ∧ (x.testBar = none → y.testBar = none)
    ∧ (x.testBar.isSome = true → y.barPhase = if x.barPhase = .save ∨ x.barPhase = .over then .over else .restore)

theorem State.dropMove_keeps (m : Move) : Leaves [.moves, .jobs] noReg s (s.dropMove m) ∧ ∀ k, SameJob k s (s.dropMove m) := by
  unfold State.dropMove
  generalize hu : ({ s with mem.moves := s.mem.moves.filter fun x => x.id != m.id } : State) = u
  have removed : Leaves [.moves] noReg s u := hu ▸ Leaves.one .moves (.refl _ _ s) (by simp)
  exact ⟨(removed.mono (by simp) fun _ _ e => e).into u.dealLadles_keeps.2 (by simp) fun _ _ e => e,
    fun k => (SameJob.of_jobs (removed.1 .jobs (by simp))).trans (u.dealLadles_jobs k)⟩

theorem State.dropMoves_keeps (ms : List Move) : Leaves [.moves, .jobs] noReg s (s.each ms State.dropMove)
    ∧ ∀ k, SameJob k s (s.each ms State.dropMove) :=
  State.each_keeps (P := fun t => Leaves [.moves, .jobs] noReg s t ∧ ∀ k, SameJob k s t) ⟨.refl _ _ s, fun k => .refl k s⟩
    fun t m _ h => ⟨h.1.trans (t.dropMove_keeps m).1, fun k => (h.2 k).trans ((t.dropMove_keeps m).2 k)⟩

/-- Dropping what an array writes leaves its test bar. -/
theorem State.dropAsync_bar : ((s.dropAsync a).arr a).testBarDue = (s.arr a).testBarDue
    ∧ ((s.dropAsync a).arr a).testBar = (s.arr a).testBar := by
  have freed : ∀ (t : State) (lo n : Nat), ((t.mouldFree a lo n).arr a).testBarDue = (t.arr a).testBarDue
      ∧ ((t.mouldFree a lo n).arr a).testBar = (t.arr a).testBar := fun t lo n => by
    unfold State.mouldFree State.mouldWrite
    rw [State.modArr_arr, if_pos rfl]
    exact ⟨rfl, rfl⟩
  unfold State.dropAsync
  rw [State.modArr_arr, if_pos rfl]
  exact State.each_keeps (P := fun t => (t.arr a).testBarDue = (s.arr a).testBarDue ∧ (t.arr a).testBar = (s.arr a).testBar) ⟨rfl, rfl⟩
    fun t r _ h => ⟨(freed t _ _).1.trans h.1, (freed t _ _).2.trans h.2⟩

/-- What the stop of test bars may change. -/
abbrev stopParts : List Part := [.arrays, .freeCtr, .jobs, .moves, .nextMove]
abbrev stopBarRegs (r : Reg) (_ : Nat) : Prop := r = .arrProg ∨ r = .arrStatus

theorem State.stopBar_stops : BarStopped (s.arr a) ((s.stopBar a).arr a) ∧ (∀ b, b ≠ a → (s.stopBar a).arr b = s.arr b)
    ∧ Leaves stopParts stopBarRegs s (s.stopBar a) ∧ ∀ k, SameJob k s (s.stopBar a) := by
  have cleared : Leaves [.arrays] noReg s (s.modArr a fun x => { x with testBarDue := false }) := .modArr (.refl _ _ s)
  have arrs : ∀ b, (s.modArr a fun x => { x with testBarDue := false }).arr b
      = if b = a then { s.arr a with testBarDue := false } else s.arr b := fun b => State.modArr_arr ..
  unfold State.stopBar
  dsimp only
  generalize s.modArr a (fun x => { x with testBarDue := false }) = u at cleared arrs
  have base : Leaves stopParts stopBarRegs s u := cleared.mono (by simp) fun _ _ no => no.elim
  have jobs : ∀ k, SameJob k s u := fun k => .of_jobs (cleared.1 .jobs (by simp))
  split
  · next early =>
    refine ⟨?_, fun b hb => by rw [arrs, if_neg hb], base, jobs⟩
    rw [arrs, if_pos rfl]
    refine ⟨rfl, fun h => h, fun on => ?_⟩
    have phase : (s.arr a).barPhase = .restore ∨ (s.arr a).barPhase = .over := by
      rw [← Option.not_isSome, on] at early
      simpa using early
    rcases phase with e | e <;> simp [e]
  · next busy =>
    have on : (s.arr a).testBar ≠ none ∧ (s.arr a).barPhase ≠ .restore ∧ (s.arr a).barPhase ≠ .over := by
      simpa [and_assoc] using busy
    obtain ⟨on, notBack, notOver⟩ := on
    generalize u.mem.moves.filter (fun m => m.kind == .barSave a || m.kind == .barLoad a) = ms
    obtain ⟨dropped, dropJobs⟩ := u.dropMoves_keeps ms
    generalize u.each ms State.dropMove = v at dropped dropJobs
    have arrV : ∀ b, v.arr b = if b = a then { s.arr a with testBarDue := false } else s.arr b := fun b => by
      rw [dropped.arr_same (by simp), arrs]
    have baseV : Leaves stopParts stopBarRegs s v := base.into dropped (by simp) fun _ _ no => no.elim
    have jobsV : ∀ k, SameJob k s v := fun k => (jobs k).trans (dropJobs k)
    split
    · next saving =>
      have saving : (s.arr a).barPhase = .save := beq_iff_eq.1 saving
      refine ⟨?_, fun b hb => by rw [State.modArr_arr, if_neg hb, arrV, if_neg hb], baseV.modArr,
        fun k => (jobsV k).trans (.of_jobs rfl)⟩
      rw [State.modArr_arr, if_pos rfl, arrV, if_pos rfl]
      exact ⟨rfl, fun h => absurd h on, fun _ => by rw [if_pos (.inl saving)]⟩
    · next moved =>
      have moved : (s.arr a).barPhase ≠ .save := fun e => moved (beq_iff_eq.2 e)
      obtain ⟨due, -⟩ := v.dropAsync_bar a
      rw [arrV, if_pos rfl] at due
      have gone : Leaves [.arrays, .freeCtr] noReg v (v.dropAsync a) := .dropAsync (.refl _ _ v)
      refine ⟨?_, fun b hb => ?_, ?_, fun k => ?_⟩
      · rw [State.barBack_arr, if_pos rfl]
        refine ⟨due, fun h => absurd h on, fun _ => ?_⟩
        rw [if_neg (by simp [moved, notOver])]
      · rw [State.barBack_arr, if_neg hb, State.dropAsync_arr_ne _ _ _ hb, arrV, if_neg hb]
      · exact (baseV.into gone (by simp) fun _ _ no => no.elim).into (State.leaves_barBack _ a) (by simp) fun _ _ e => by
          rcases e.1 with e | e
          · exact .inl e
          · exact .inr e
      · exact ((jobsV k).trans (.of_jobs (gone.1 .jobs (by simp)))).trans (State.barBack_jobs _ a k)

/-- The test bar of an engine is stopped. -/
def State.stopVecBar (e : Nat) : State :=
  let s' := s.modVec e fun v => { v with testBarDue := false }
  if (s.vec e).testBar then s'.vecBarBack e else s'

theorem State.vecBarBack_keeps (e : Nat) : ((s.vecBarBack e).vec e).testBar = false
    ∧ ((s.vecBarBack e).vec e).testBarDue = (s.vec e).testBarDue ∧ (∀ k, k ≠ e → (s.vecBarBack e).vec k = s.vec k)
    ∧ Leaves (.vecs :: accessParts) (fun r i => accessRegs r i ∨ vecStat r i) s (s.vecBarBack e) := by
  have read := accessed_physRead s (s.f VEC_STATUS.FLASK e) (s.vecBarArea e) vecBarBytes
  unfold State.vecBarBack
  generalize physRead s (s.f VEC_STATUS.FLASK e) (s.vecBarArea e) vecBarBytes = r at read ⊢
  have vecs : ∀ k, r.2.vec k = s.vec k := fun k => by rw [State.vec, read.1 .vecs (by simp [accessParts])]; rfl
  dsimp only
  refine ⟨?_, ?_, fun k hk => ?_, .setF (.modVec (read.mono (by simp) fun _ _ e => .inl e) (by simp)) (.inr rfl)⟩
  · rw [State.setF_vec, State.modVec_vec, if_pos rfl]
  · rw [State.setF_vec, State.modVec_vec, if_pos rfl, vecs]
  · rw [State.setF_vec, State.modVec_vec, if_neg hk, vecs]

theorem State.stopVecBar_stops (e : Nat) : (((s.stopVecBar e).vec e).testBar = false ∧ ((s.stopVecBar e).vec e).testBarDue = false)
    ∧ (∀ k, k ≠ e → (s.stopVecBar e).vec k = s.vec k)
    ∧ Leaves (.vecs :: accessParts) (fun r i => accessRegs r i ∨ vecStat r i) s (s.stopVecBar e) := by
  have vecs := fun k => State.modVec_vec s e k fun v => { v with testBarDue := false }
  have cleared : Leaves [.vecs] noReg s (s.modVec e fun v => { v with testBarDue := false }) := .modVec (.refl _ _ s)
  unfold State.stopVecBar
  dsimp only
  generalize s.modVec e (fun v => { v with testBarDue := false }) = u at vecs cleared
  have base : Leaves (.vecs :: accessParts) (fun r i => accessRegs r i ∨ vecStat r i) s u :=
    cleared.mono (by simp) fun _ _ no => no.elim
  cases on : (s.vec e).testBar with
  | true =>
    obtain ⟨off, due, others, leaves⟩ := u.vecBarBack_keeps e
    rw [if_pos rfl]
    rw [vecs, if_pos rfl] at due
    exact ⟨⟨off, due⟩, fun k hk => (others k hk).trans (by rw [vecs, if_neg hk]), base.trans leaves⟩
  | false =>
    rw [if_neg (by decide)]
    refine ⟨?_, fun k hk => by rw [vecs, if_neg hk], base⟩
    rw [vecs, if_pos rfl]
    exact ⟨on, rfl⟩

/-! ## The hourly check of the image -/

/-- Every test bar is stopped until reset. -/
def State.barsStopped : State := { s with units.tbStopped := true }

theorem State.leaves_barsStopped : Leaves [.tbStopped] noReg s s.barsStopped := Leaves.one .tbStopped (.refl _ _ s) (by simp)

/-- The test bars of the arrays are stopped. -/
def State.arraysStopped : State := s.barsStopped.each arrayIds State.stopBar

/-- Those of the engines, too. -/
def State.vecsStopped : State :=
  s.arraysStopped.each (vecIds.filter fun e => (s.vec e).testBar || (s.vec e).testBarDue) State.stopVecBar

/-- And those of the cores. -/
def State.rtsStopped : State := s.vecsStopped.each rtIds fun s c => s.modRt c fun x => { x with testBar := false }

/-- The extra test bars of the flasks are no longer due. -/
def State.extrasStopped : State := s.rtsStopped.each (List.range 8) fun s f => s.modFlask f fun x => { x with extraBars := [] }

/-- The test bar of the runner ends. -/
def State.runnerStopped : State :=
  if s.extrasStopped.f RUN_STAT.STATE 0 = 6 then s.extrasStopped.setF RUN_STAT.STATE 0 0 else s.extrasStopped

theorem tbImageRecheck_stops (lock : s.fb SYS_LOCK.MGR 0 = true) :
    exec (.tbImageRecheck false) s = .next (s.runnerStopped.safety SYS_SAFESTAT.TB_FAIL 59 0) := by
  rw [exec_tbImageRecheck, execTbImageRecheck]
  unfold tbRecheckGo
  rw [lock]
  rfl

theorem State.arraysStopped_leaves : Leaves (.tbStopped :: stopParts) stopBarRegs s s.arraysStopped
    ∧ ∀ k, SameJob k s s.arraysStopped := by
  have start := s.leaves_barsStopped
  refine State.each_keeps (P := fun t => Leaves (.tbStopped :: stopParts) stopBarRegs s t ∧ ∀ k, SameJob k s t)
    ⟨start.mono (by simp) fun _ _ no => no.elim, fun _ => .of_jobs rfl⟩ fun t a _ h => ?_
  obtain ⟨-, -, leaves, jobs⟩ := t.stopBar_stops a
  exact ⟨h.1.into leaves (by simp) fun _ _ e => e, fun k => (h.2 k).trans (jobs k)⟩

theorem State.stopBar_stopped (stopped : s.units.tbStopped = true) : (s.stopBar a).units.tbStopped = true := by
  rw [(s.stopBar_stops a).2.2.1.1 .tbStopped (by simp), stopped]

theorem State.arraysStopped_stopped : s.arraysStopped.units.tbStopped = true := by
  unfold State.arraysStopped
  generalize arrayIds = xs
  exact State.each_keeps (P := fun t => t.units.tbStopped = true) rfl fun t a _ h => t.stopBar_stopped a h

theorem State.arraysStopped_arr (ha : a < 34) : BarStopped (s.arr a) (s.arraysStopped.arr a) :=
  (State.each_units (v := State.arr) (P := BarStopped) (fun u a b hb => (u.stopBar_stops a).2.1 b hb)
    (fun u a => (u.stopBar_stops a).1) List.nodup_range s.barsStopped a).1 (List.mem_range.2 ha)

theorem State.vecsStopped_leaves : Leaves (.vecs :: accessParts) (fun r i => accessRegs r i ∨ vecStat r i) s.arraysStopped s.vecsStopped :=
  .over (.refl _ _ _) fun e t h => h.trans (t.stopVecBar_stops e).2.2

theorem State.vecsStopped_vec (e : Nat) (he : e < 16) : (s.vecsStopped.vec e).testBar = false ∧ (s.vecsStopped.vec e).testBarDue = false := by
  have before := s.arraysStopped_leaves.1.vec_same (by simp)
  have done := State.each_units (v := State.vec) (g := State.stopVecBar) (P := fun _ y => y.testBar = false ∧ y.testBarDue = false)
    (fun u a b hb => (u.stopVecBar_stops a).2.1 b hb) (fun u a => (u.stopVecBar_stops a).1)
    (List.Nodup.filter (fun e => (s.vec e).testBar || (s.vec e).testBarDue) (List.nodup_range (n := 16))) s.arraysStopped e
  by_cases due : ((s.vec e).testBar || (s.vec e).testBarDue) = true
  · exact done.1 (List.mem_filter.2 ⟨List.mem_range.2 he, due⟩)
  · have idle : (s.vec e).testBar = false ∧ (s.vec e).testBarDue = false := by simpa using due
    have same := done.2 fun h => due (List.mem_filter.1 h).2
    rw [State.vecsStopped, vecIds, same, before]
    exact idle

theorem State.rtsStopped_leaves : Leaves [.rts] noReg s.vecsStopped s.rtsStopped := .over (.refl _ _ _) fun _ _ h => h.modRt

theorem State.rtsStopped_rt (c : Nat) (hc : c < 8) : (s.rtsStopped.rt c).testBar = false :=
  (State.each_units (v := State.rt) (g := fun s c => s.modRt c fun x => { x with testBar := false }) (P := fun _ y => y.testBar = false)
    (fun u a b hb => by rw [State.modRt_rt, if_neg hb]) (fun u a => by rw [State.modRt_rt, if_pos rfl]) List.nodup_range
    s.vecsStopped c).1 (List.mem_range.2 hc)

theorem State.extrasStopped_leaves : Leaves [.flasks] noReg s.rtsStopped s.extrasStopped := .over (.refl _ _ _) fun _ _ h => h.modFlask

theorem State.extrasStopped_flask (f : Nat) (hf : f < 8) : (s.extrasStopped.flask f).extraBars = [] :=
  (State.each_units (v := State.flask) (g := fun s f => s.modFlask f fun x => { x with extraBars := [] }) (P := fun _ y => y.extraBars = [])
    (fun u a b hb => by rw [State.modFlask_flask, if_neg hb]) (fun u a => by rw [State.modFlask_flask, if_pos rfl]) List.nodup_range
    s.rtsStopped f).1 (List.mem_range.2 hf)

theorem State.runnerStopped_leaves : Leaves [] (oneReg .runStat 0) s.extrasStopped s.runnerStopped :=
  .ite (.setF (.refl _ _ _) ⟨rfl, rfl⟩) (.refl _ _ _)

/-- Any register. -/
def anyReg (_ : Reg) (_ : Nat) : Prop := True

/-- R149: a mismatch of the image stops every test bar. -/
theorem tbImageRecheck_bad (lock : s.fb SYS_LOCK.MGR 0 = true) :
    ∃ t, exec (.tbImageRecheck false) s = .next t ∧ t.units.tbStopped = true ∧ t.fb SYS_SAFESTAT.TB_FAIL 0 = true
        ∧ (∀ a, a < 34 → (t.arr a).testBarDue = false ∧ ((s.arr a).testBar = none → (t.arr a).testBar = none)
            ∧ ((s.arr a).testBar.isSome = true →
                (t.arr a).barPhase = (if (s.arr a).barPhase = .save ∨ (s.arr a).barPhase = .over then .over else .restore)))
        ∧ (∀ e, e < 16 → (t.vec e).testBar = false ∧ (t.vec e).testBarDue = false)
        ∧ (∀ c, c < 8 → (t.rt c).testBar = false) ∧ (∀ f, f < 8 → (t.flask f).extraBars = [])
        ∧ ∀ k, SameJob k s t := by
  obtain ⟨arrays, jobs⟩ := s.arraysStopped_leaves
  have stopped := s.arraysStopped_stopped
  have safe : Leaves safetyParts (oneReg .sysSafestat 0) s.runnerStopped (s.runnerStopped.safety SYS_SAFESTAT.TB_FAIL 59 0) :=
    .safety (.refl _ _ _) rfl (List.Subset.refl _)
  have flag := State.fb_of_f (s.runnerStopped.safety_f SYS_SAFESTAT.TB_FAIL 59 0 (by decide) (by decide) (by decide) (by decide))
  have afterFlasks : Leaves safetyParts (fun r i => r = .runStat ∨ oneReg .sysSafestat 0 r i) s.extrasStopped
      (s.runnerStopped.safety SYS_SAFESTAT.TB_FAIL 59 0) :=
    (s.runnerStopped_leaves.mono (by simp) fun _ _ e => .inl e.1).into safe (List.Subset.refl _) fun _ _ e => .inr e
  have afterRts : Leaves (.flasks :: safetyParts) anyReg s.rtsStopped (s.runnerStopped.safety SYS_SAFESTAT.TB_FAIL 59 0) :=
    (s.extrasStopped_leaves.mono (by simp) fun _ _ no => no.elim).into afterFlasks (by simp) fun _ _ _ => trivial
  have afterVecs : Leaves (.rts :: .flasks :: safetyParts) anyReg s.vecsStopped (s.runnerStopped.safety SYS_SAFESTAT.TB_FAIL 59 0) :=
    (s.rtsStopped_leaves.mono (by simp) fun _ _ no => no.elim).into afterRts (by simp) fun _ _ e => e
  have afterArrays : Leaves (.rts :: .flasks :: .vecs :: accessParts) anyReg s.arraysStopped
      (s.runnerStopped.safety SYS_SAFESTAT.TB_FAIL 59 0) :=
    (s.vecsStopped_leaves.mono (by simp) fun _ _ _ => trivial).into afterVecs (by decide) fun _ _ e => e
  refine ⟨_, tbImageRecheck_stops s lock, ?_, flag, fun a ha => ?_, fun e he => ?_, fun c hc => ?_, fun f hf => ?_, fun k => ?_⟩
  · rw [afterArrays.1 .tbStopped (by decide), stopped]
  · rw [afterArrays.arr_same (by decide)]
    exact s.arraysStopped_arr a ha
  · rw [afterVecs.vec_same (by decide)]
    exact s.vecsStopped_vec e he
  · rw [afterRts.rt_same (by decide)]
    exact s.rtsStopped_rt c hc
  · rw [afterFlasks.flask_same (by decide)]
    exact s.extrasStopped_flask f hf
  · exact (jobs k).trans (.of_jobs (afterArrays.1 .jobs (by decide)))

end

/-- Settles O34: starts by `startBar_begins`, verdicts by `arrayBarDone_reads`, the image by the lemmas on the lock. -/
theorem testBarsRunAndGuardTheManagerLock : Obligations.TestBarsRunAndGuardTheManagerLock := by
  unfold Obligations.TestBarsRunAndGuardTheManagerLock
  refine ⟨⟨?_, ?_, ?_, ?_, ?_, ?_, ?_, ?_, ?_, ?_⟩, ?_, ?_, ?_, ?_, ?_, ?_⟩
  · intro s a ha runs lock due
    have run := testBarDue_new ha runs lock due
    refine ⟨fun tile may => ⟨_, by rw [run, tile, may]; rfl, s.startBar_begins a⟩, fun waits => ?_⟩
    rw [waits, if_neg (by decide)] at run
    exact ⟨_, run, by rw [State.modArr_arr, if_pos rfl], fun b hb => by rw [State.modArr_arr, if_neg hb], .modArr (.refl _ _ s)⟩
  · intro s a b ha hb runs lock waits due tile may first
    exact ⟨_, testBarDue_next ha hb runs lock waits due tile may first, s.startBar_begins b⟩
  · intro s e he runs lock idle free due untimed
    have vecs := s.startVecBar_vec e
    exact ⟨_, testBarDue_vec he runs lock idle free due untimed, s.startVecBar_state e, (vecs e).trans (if_pos rfl),
      fun k hk => (vecs k).trans (if_neg hk), s.leaves_startVecBar e⟩
  · intro s c hc runs lock untimed serves idle due
    exact ⟨_, testBarDue_rt hc runs lock untimed serves idle due, by rw [State.modRt_rt, if_pos rfl],
      fun k hk => by rw [State.modRt_rt, if_neg hk], .modRt (.refl _ _ s)⟩
  · intro s u _ stopped
    exact testBarDue_stopped u stopped
  · intro s a flip w dup r h idle job bar
    exact endProg_bar h idle job bar
  · intro s a pass ha runs ended spare going none_
    exact testBarDone_spare ha runs ended spare going none_
  · intro s a pass ha runs ended own free timed flask going failed
    exact testBarDone_timed ha runs ended own free timed flask going failed
  · intro s a pass ha not
    exact testBarDone_waits ha not
  · intro s pass bar
    have run := testBarDone_runner s bar pass
    cases pass with
    | true =>
      exact ⟨_, run, s.runnerFreed_state, State.dropNodes_nodes _, fun _ => s.leaves_runnerFreed, nofun⟩
    | false =>
      obtain ⟨state, nodes, flag, due, count, leaves⟩ := s.runnerFailed_shows
      exact ⟨_, run, state, nodes, nofun, fun _ => ⟨flag, due, count, leaves⟩⟩
  · intro s m v acc clear
    exact mgrLockSet_sets s m v acc clear
  · intro s runs clear
    exact tbImageVerified_good s runs clear
  · intro s runs
    exact tbImageVerified_bad s runs
  · intro s ok idle
    exact tbImageVerified_idle s ok idle
  · intro s lock
    exact tbImageRecheck_bad s lock
  · intro s
    rw [exec_tbImageRecheck, execTbImageRecheck]
    rfl

end Sys2Proof.Machine
end

section
/-! PROOFS. The field record (R156, R157, R339), and what O35 says. -/

set_option Elab.async false

namespace Sys2Proof.Machine

theorem NMap.get_satAdd32 (m : NMap Nat) (k n j : Nat) :
    NMap.get (satAdd32 m k n) 0 j = if j = k then min (NMap.get m 0 k + n) (2 ^ 32 - 1) else NMap.get m 0 j := by
  rw [satAdd32, NMap.get_set]

/-! ## A fold of the arrays' counters -/

/-- The rise of a counter since the last fold. -/
def riseSince (old cur : Nat) : Nat := if old ≤ cur then cur - old else cur

section
variable (s : State) (a k cur : Nat)

theorem State.foldArr_arrays (j : Nat) : NMap.get (s.foldArr a k cur).sys.record.arrays 0 j
    = if j = 8 * a + k then min (NMap.get s.sys.record.arrays 0 (8 * a + k) + riseSince (NMap.get s.sys.store.folded 0 (8 * a + k)) cur)
        (2 ^ 32 - 1) else NMap.get s.sys.record.arrays 0 j := NMap.get_satAdd32 ..

theorem State.foldArr_folded (j : Nat) : NMap.get (s.foldArr a k cur).sys.store.folded 0 j
    = if j = 8 * a + k then cur else NMap.get s.sys.store.folded 0 j := NMap.get_set ..

theorem State.leaves_foldArr : Leaves [.record, .store] noReg s (s.foldArr a k cur) := by
  unfold State.foldArr State.foldDelta
  exact .modRec (Leaves.one .store (.refl _ _ s) (by simp)) (by simp)

theorem State.foldArr_bytes : (s.foldArr a k cur).sys.record.bytes = s.sys.record.bytes := (rfl)

end

/-- The counters of an array that a fold adds, by their word of the array's entry. -/
abbrev foldedCounters : List (Nat × Fld) :=
  [(0, ARR_RCSTAT.ISO_PRI), (1, ARR_RCSTAT.ISO_RC), (2, ARR_RCSTAT.TB_FAIL), (3, ARR_RCSTAT.OVERRUN), (5, ARR_SATCNT.DRIFT_EVENTS)]

section
variable (s : State) (a : Nat)

/-- The counters of one array are folded. -/
def State.foldCounters : State :=
  ((((s.foldArr a 0 (s.f ARR_RCSTAT.ISO_PRI a)).foldArr a 1 (s.f ARR_RCSTAT.ISO_RC a)).foldArr a 2
    (s.f ARR_RCSTAT.TB_FAIL a)).foldArr a 3 (s.f ARR_RCSTAT.OVERRUN a)).foldArr a 5 (s.f ARR_SATCNT.DRIFT_EVENTS a)

/-- And its STATE. -/
def State.foldArray : State :=
  (s.foldCounters a).modRec fun r => { r with arrays := NMap.set r.arrays 0 (8 * a + 6) (s.f ARR_STATUS.STATE a) }

theorem State.leaves_foldCounters : Leaves [.record, .store] noReg s (s.foldCounters a) := by
  unfold State.foldCounters
  exact ((((s.leaves_foldArr a 0 _).trans (State.leaves_foldArr _ a 1 _)).trans (State.leaves_foldArr _ a 2 _)).trans
    (State.leaves_foldArr _ a 3 _)).trans (State.leaves_foldArr _ a 5 _)

theorem State.leaves_foldArray : Leaves [.record, .store] noReg s (s.foldArray a) := by
  unfold State.foldArray
  exact .modRec (s.leaves_foldCounters a) (by simp)

theorem State.foldCounters_bytes : (s.foldCounters a).sys.record.bytes = s.sys.record.bytes := by
  unfold State.foldCounters
  simp only [State.foldArr_bytes]

theorem State.foldArray_bytes : (s.foldArray a).sys.record.bytes = s.sys.record.bytes := s.foldCounters_bytes a

/-- What the field record and the last fold hold of an array, and what its registers say. -/
structure FoldView where
  sum : Nat → Nat
  last : Nat → Nat
  reg : Fld → Nat

/-- The words 0 to 7 of an array's entry. -/
def State.foldView : FoldView where
  sum k := if k < 8 then NMap.get s.sys.record.arrays 0 (8 * a + k) else 0
  last k := if k < 8 then NMap.get s.sys.store.folded 0 (8 * a + k) else 0
  reg x := s.f x a

/-- A fold adds the rise of every counter, and takes the STATE. -/
def FoldView.Folded (x y : FoldView) : Prop :=
  (∀ k g, (k, g) ∈ foldedCounters → y.sum k = min (x.sum k + riseSince (x.last k) (x.reg g)) (2 ^ 32 - 1) ∧ y.last k = x.reg g)
    ∧ y.sum 6 = x.reg ARR_STATUS.STATE

theorem State.foldArray_folds : FoldView.Folded (s.foldView a) ((s.foldArray a).foldView a) := by
  have counters : ∀ j, NMap.get (s.foldArray a).sys.record.arrays 0 j
      = if j = 8 * a + 6 then s.f ARR_STATUS.STATE a else NMap.get (s.foldCounters a).sys.record.arrays 0 j := fun j =>
    NMap.get_set ..
  have last : (s.foldArray a).sys.store.folded = (s.foldCounters a).sys.store.folded := rfl
  refine ⟨fun k g mem => ?_, ?_⟩
  · simp only [foldedCounters, List.mem_cons, List.not_mem_nil, or_false, Prod.mk.injEq] at mem
    unfold State.foldView
    dsimp only
    rw [last, counters]
    unfold State.foldCounters
    simp only [State.foldArr_arrays, State.foldArr_folded]
    rcases mem with ⟨rfl, rfl⟩ | ⟨rfl, rfl⟩ | ⟨rfl, rfl⟩ | ⟨rfl, rfl⟩ | ⟨rfl, rfl⟩ <;> simp
  · unfold State.foldView
    dsimp only
    rw [counters, if_pos rfl]
    rfl

theorem State.foldArray_others (b : Nat) (hb : b ≠ a) : (s.foldArray a).foldView b = s.foldView b := by
  have apart : ∀ k j, k < 8 → j < 8 → ¬ 8 * b + k = 8 * a + j := fun k j hk hj => by omega
  have counters : ∀ j, NMap.get (s.foldArray a).sys.record.arrays 0 j
      = if j = 8 * a + 6 then s.f ARR_STATUS.STATE a else NMap.get (s.foldCounters a).sys.record.arrays 0 j := fun j =>
    NMap.get_set ..
  have last : (s.foldArray a).sys.store.folded = (s.foldCounters a).sys.store.folded := rfl
  have regs : ∀ x, (s.foldArray a).f x b = s.f x b := fun x => (s.leaves_foldArray a).f_same x b (by simp [noReg])
  unfold State.foldView
  rw [FoldView.mk.injEq]
  refine ⟨?_, ?_, funext regs⟩
  · funext k
    split
    · next hk =>
      rw [counters, if_neg (apart k 6 hk (by omega)), State.foldCounters]
      simp only [State.foldArr_arrays, if_neg (apart k _ hk (by omega : 0 < 8)), if_neg (apart k _ hk (by omega : 1 < 8)),
        if_neg (apart k _ hk (by omega : 2 < 8)), if_neg (apart k _ hk (by omega : 3 < 8)), if_neg (apart k _ hk (by omega : 5 < 8))]
    · rfl
  · funext k
    split
    · next hk =>
      rw [last, State.foldCounters]
      simp only [State.foldArr_folded, if_neg (apart k _ hk (by omega : 0 < 8)), if_neg (apart k _ hk (by omega : 1 < 8)),
        if_neg (apart k _ hk (by omega : 2 < 8)), if_neg (apart k _ hk (by omega : 3 < 8)), if_neg (apart k _ hk (by omega : 5 < 8))]
    · rfl

/-- The doze counters of one port are folded (R319). -/
def State.foldPort (p : Nat) : State :=
  let (d, s2) := s.foldDelta (1000 + p) (s.f WSK_PORTSTAT.MISSES p)
  s2.modRec fun r =>
    { r with doze := NMap.set (satAdd32 r.doze p d) 0 (4 + p) (max (NMap.get r.doze 0 (4 + p)) (s.wport p).drift) }

theorem State.fold_eq : s.fold = (s.each allArrays State.foldArray).each (List.range 4) State.foldPort := (rfl)

theorem State.leaves_foldPort (p : Nat) : Leaves [.record, .store] noReg s (s.foldPort p) := by
  unfold State.foldPort State.foldDelta
  exact .modRec (Leaves.one .store (.refl _ _ s) (by simp)) (by simp)

theorem State.foldPort_bytes (p : Nat) : (s.foldPort p).sys.record.bytes = s.sys.record.bytes := (rfl)

/-- A fold of a port leaves what is held of an array. -/
theorem State.foldPort_view (p : Nat) (ha : a < 34) : (s.foldPort p).foldView a = s.foldView a := by
  have folded : ∀ j, NMap.get (s.foldPort p).sys.store.folded 0 j
      = if j = 1000 + p then s.f WSK_PORTSTAT.MISSES p else NMap.get s.sys.store.folded 0 j := fun j => NMap.get_set ..
  have arrays : (s.foldPort p).sys.record.arrays = s.sys.record.arrays := rfl
  have regs : ∀ x, (s.foldPort p).f x a = s.f x a := fun x => (s.leaves_foldPort p).f_same x a (by simp [noReg])
  unfold State.foldView
  rw [FoldView.mk.injEq, arrays]
  refine ⟨rfl, ?_, funext regs⟩
  funext k
  split
  · rw [folded, if_neg (by omega)]
  · rfl

theorem State.leaves_fold : Leaves [.record, .store] noReg s s.fold := by
  rw [State.fold_eq]
  exact .over (.over (.refl _ _ s) fun a t h => h.trans (t.leaves_foldArray a)) fun p t h => h.trans (t.leaves_foldPort p)

theorem State.fold_bytes : s.fold.sys.record.bytes = s.sys.record.bytes := by
  rw [State.fold_eq]
  exact State.each_keeps (P := fun t => t.sys.record.bytes = s.sys.record.bytes)
    (State.each_keeps (P := fun t => t.sys.record.bytes = s.sys.record.bytes) rfl fun t a _ h => (t.foldArray_bytes a).trans h)
    fun t p _ h => (t.foldPort_bytes p).trans h

/-- R157: a fold of the device folds every array. -/
theorem State.fold_folds (ha : a < 34) : FoldView.Folded (s.foldView a) (s.fold.foldView a) := by
  have each := (State.each_units (v := State.foldView) (P := FoldView.Folded) (fun u a b hb => u.foldArray_others a b hb)
    (fun u a => u.foldArray_folds a) List.nodup_range s a).1 (List.mem_range.2 ha)
  rw [State.fold_eq]
  generalize hu : s.each allArrays State.foldArray = u
  rw [allArrays] at hu
  rw [hu] at each
  rwa [State.each_keeps (P := fun t => t.foldView a = u.foldView a) rfl fun t p _ h => (t.foldPort_view a p ha).trans h]

/-! ## The billet's bytes -/

theorem State.leaves_updateLife : Leaves [.keptIrqs, .outbox] (oneReg .sysBillet 0) s s.updateLife :=
  .ite (.mgrIrq (.setF (.setF (.refl _ _ s) ⟨rfl, rfl⟩) ⟨rfl, rfl⟩)) (.setF (.refl _ _ s) ⟨rfl, rfl⟩)

theorem State.leaves_foldUfs (n : Nat) : Leaves [.keptIrqs, .outbox, .record] (oneReg .sysBillet 0) s (s.foldUfs n) :=
  .ite ((Leaves.modRec (.refl _ _ s) (by simp)).into (State.leaves_updateLife _) (by simp) fun _ _ e => e) (.refl _ _ s)

theorem State.foldUfs_bytes (n : Nat) : (s.foldUfs n).sys.record.bytes = s.sys.record.bytes + if s.billetLive then n else 0 := by
  unfold State.foldUfs
  cases live : s.billetLive with
  | false => rfl
  | true =>
    by_cases hn : n = 0
    · rw [if_neg (by simp [hn]), if_pos rfl, hn]
      rfl
    · rw [if_pos (by simp [hn]), (State.leaves_updateLife _).1 .record (by simp)]
      rfl

theorem State.foldUfs_arrays (n : Nat) : (s.foldUfs n).sys.record.arrays = s.sys.record.arrays := by
  unfold State.foldUfs
  split
  · rw [(State.leaves_updateLife _).1 .record (by simp)]
    rfl
  · rfl

theorem State.foldUfs_idle (n : Nat) (idle : s.billetLive = false ∨ n = 0) : s.foldUfs n = s := by
  rw [State.foldUfs, if_neg]
  rcases idle with e | e <;> simp [e]

theorem State.billetLive_same {t : State} {ps : List Part} {q : Reg → Nat → Prop} (h : Leaves ps q s t) (hp : .power ∉ ps)
    (hq : ¬ q .sysBillet 0) : t.billetLive = s.billetLive := by
  have power := congrArg PowerSt.billetPwrEn (h.1 .power hp)
  have same : t.sys.power.billetPwrEn = s.sys.power.billetPwrEn := power
  rw [State.billetLive, State.billetLive, h.f_same SYS_BILLET.STATE 0 hq, same]

/-- R157, R339: what a fold leaves. -/
theorem counterFold_folds (ufs : Nat) (up : s.cupolaUp = true) : exec (.counterFold ufs) s = .next (s.fold.foldUfs ufs) := by
  rw [exec_counterFold, execCounterFold, up]
  rfl

end

end Sys2Proof.Machine
end

section
/-! PROOFS. Sensor samples and checkpoints (R156, R157, R339), and what O35 says. -/

set_option Elab.async false

namespace Sys2Proof.Machine

/-! ## Samples -/

theorem tempBin_lt (c : Int) : tempBin c < 16 := by
  unfold tempBin
  split
  · omega
  · split <;> omega

/-- One reading counts a second in its sensor's bin. -/
def binTemp (m : NMap Nat) (p : Int × Nat) : NMap Nat := satAdd32 m (16 * p.2 + tempBin p.1) 1

/-- The bins of the sensors below the readings stay. -/
theorem binTemps_below (xs : List Int) (n : Nat) (m : NMap Nat) (j : Nat) (hj : j < 16 * n) :
    NMap.get ((xs.zipIdx n).foldl binTemp m) 0 j = NMap.get m 0 j := by
  induction xs generalizing n m with
  | nil => rfl
  | cons x xs ih =>
    rw [List.zipIdx_cons, List.foldl_cons, ih _ _ (by omega), binTemp, NMap.get_satAdd32, if_neg (by omega)]

theorem binTemps_at (xs : List Int) (n : Nat) (m : NMap Nat) (k : Nat) (c : Int) (hc : xs[k]? = some c) :
    NMap.get ((xs.zipIdx n).foldl binTemp m) 0 (16 * (n + k) + tempBin c)
      = min (NMap.get m 0 (16 * (n + k) + tempBin c) + 1) (2 ^ 32 - 1) := by
  have small := tempBin_lt c
  induction xs generalizing n m k with
  | nil => cases hc
  | cons x xs ih =>
    rw [List.zipIdx_cons, List.foldl_cons]
    cases k with
    | zero =>
      obtain rfl : x = c := by simpa using hc
      rw [binTemps_below _ _ _ _ (by omega), binTemp, Nat.add_zero, NMap.get_satAdd32, if_pos rfl]
    | succ k =>
      have bin := tempBin_lt x
      have shifted := ih (n + 1) (binTemp m (x, n)) k (by simpa using hc)
      rw [(by omega : n + (k + 1) = n + 1 + k), shifted, binTemp, NMap.get_satAdd32, if_neg (by dsimp only; omega)]

/-- The largest reading. -/
theorem foldl_max_eq (xs : List Int) (b c : Int) (le : ∀ d ∈ xs, d ≤ c) (start : b ≤ c) (mem : c ∈ xs ∨ b = c) :
    xs.foldl max b = c := by
  induction xs generalizing b with
  | nil => exact mem.resolve_left (by simp)
  | cons x xs ih =>
    rw [List.foldl_cons]
    have hx := le x (by simp)
    refine ih _ (fun d hd => le d (by simp [hd])) (max_le start hx) ?_
    rcases mem with mem | rfl
    · rcases List.mem_cons.1 mem with rfl | mem
      · exact .inr (max_eq_right start)
      · exact .inl mem
    · exact .inr (max_eq_left hx)

/-- The largest reading of a sample is the one its bins count. -/
theorem hottest_eq (temps : List Int) (c : Int) (mem : c ∈ temps) (le : ∀ d ∈ temps, d ≤ c) :
    temps.foldl max (temps.headD 0) = c := by
  refine foldl_max_eq temps _ c le ?_ (.inl mem)
  cases temps with
  | nil => cases mem
  | cons x xs => exact le x (by simp)

section
variable (s : State)

/-- The record after a sample. -/
def FieldRecord.sampled (r0 : FieldRecord) (temps : List Int) (droops : List (Nat × Nat)) : FieldRecord :=
  let r := droops.foldl FieldRecord.addDroop r0
  { r with
    poh := r.poh + 1
    temp := temps.zipIdx.foldl binTemp r.temp
    hot := satAdd32 r.hot (tempBin (temps.foldl max (temps.headD 0))) 1 }

theorem sensorSample_samples (temps : List Int) (droops : List (Nat × Nat)) (up : s.cupolaUp = true) (all : temps.length = 32) :
    exec (.sensorSample temps droops) s = .next (s.modRec fun r => r.sampled temps droops) := by
  rw [exec_sensorSample, execSensorSample, up, all]
  rfl

/-- Droop events change the droop bins alone. -/
theorem FieldRecord.addDroops (r : FieldRecord) (droops : List (Nat × Nat)) :
    ∃ d, droops.foldl FieldRecord.addDroop r = { r with droop := d } := by
  induction droops generalizing r with
  | nil => exact ⟨r.droop, rfl⟩
  | cons e es ih =>
    obtain ⟨d, one⟩ : ∃ d, r.addDroop e = { r with droop := d } := by
      unfold FieldRecord.addDroop
      split
      · exact ⟨_, rfl⟩
      · exact ⟨r.droop, rfl⟩
    obtain ⟨d', rest⟩ := ih (r.addDroop e)
    exact ⟨d', by rw [List.foldl_cons, rest, one]⟩

/-- What a sample counts. -/
theorem FieldRecord.sampled_counts (r : FieldRecord) (temps : List Int) (droops : List (Nat × Nat)) :
    (r.sampled temps droops).poh = r.poh + 1
      ∧ (∀ k c, temps[k]? = some c → NMap.get (r.sampled temps droops).temp 0 (16 * k + tempBin c)
          = min (NMap.get r.temp 0 (16 * k + tempBin c) + 1) 0xFFFFFFFF)
      ∧ (∀ c, c ∈ temps → (∀ d ∈ temps, d ≤ c) → NMap.get (r.sampled temps droops).hot 0 (tempBin c)
          = min (NMap.get r.hot 0 (tempBin c) + 1) 0xFFFFFFFF) := by
  obtain ⟨d, same⟩ := r.addDroops droops
  unfold FieldRecord.sampled
  dsimp only
  rw [same]
  refine ⟨rfl, fun k c hc => ?_, fun c mem le => ?_⟩
  · have bins := binTemps_at temps 0 r.temp k c hc
    rw [Nat.zero_add] at bins
    exact bins
  · dsimp only
    rw [hottest_eq temps c mem le, NMap.get_satAdd32, if_pos rfl]
    rfl

/-- A droop event counts in its rail's bin. -/
theorem FieldRecord.sampled_droop (r : FieldRecord) (temps : List Int) (k v : Nat) (hk : k < 8) (hv : v < 98) :
    NMap.get (r.sampled temps [(k, v)]).droop 0 (16 * k + min 15 (97 - v))
      = min (NMap.get r.droop 0 (16 * k + min 15 (97 - v)) + 1) 0xFFFFFFFF := by
  have one : (r.sampled temps [(k, v)]).droop = satAdd32 r.droop (16 * k + min 15 (97 - v)) 1 := by
    unfold FieldRecord.sampled
    simp only [List.foldl_cons, List.foldl_nil, FieldRecord.addDroop, decide_eq_true hk, decide_eq_true hv, Bool.and_self, if_pos]
  rw [one, NMap.get_satAdd32, if_pos rfl]
  rfl

/-! ## Checkpoints -/

/-- The bytes of a checkpoint count in the billet's life. -/
def State.lifeCounted : State :=
  if s.billetLive then (s.modRec fun r => { r with bytes := r.bytes + checkpointBytes }).updateLife else s

/-- The record of a checkpoint. -/
def State.checkpointRecord (reason : Nat) : State :=
  s.lifeCounted.modRec fun r => { r with seq := r.seq + 1, reason := reason, time := s.now }

theorem State.leaves_lifeCounted : Leaves [.keptIrqs, .outbox, .record] (oneReg .sysBillet 0) s s.lifeCounted :=
  .ite ((Leaves.modRec (.refl _ _ s) (by simp)).into (State.leaves_updateLife _) (by simp) fun _ _ e => e) (.refl _ _ s)

theorem State.lifeCounted_record : s.lifeCounted.sys.record
    = { s.sys.record with bytes := s.sys.record.bytes + if s.billetLive then 65536 else 0 } := by
  unfold State.lifeCounted
  split
  · next live =>
    rw [(State.leaves_updateLife _).1 .record (by simp)]
    rfl
  · next off => rfl

theorem State.leaves_checkpointRecord (reason : Nat) :
    Leaves [.keptIrqs, .outbox, .record] (oneReg .sysBillet 0) s (s.checkpointRecord reason) :=
  .modRec s.leaves_lifeCounted (by simp)

theorem State.checkpointRecord_record (reason : Nat) : (s.checkpointRecord reason).sys.record
    = { s.sys.record with
        bytes := s.sys.record.bytes + if s.billetLive then 65536 else 0
        seq := s.sys.record.seq + 1, reason := reason, time := s.now } := by
  have written : (s.checkpointRecord reason).sys.record
      = { s.lifeCounted.sys.record with seq := s.lifeCounted.sys.record.seq + 1, reason := reason, time := s.now } := rfl
  rw [written, s.lifeCounted_record]

/-- What is stored at a checkpoint. -/
def RecordStore.checkpointed (st : RecordStore) (r : FieldRecord) (live copy : Bool) : RecordStore :=
  let st1 := if live then
      if st.nextSlot = 0 then { st with slot0 := some r, nextSlot := 1 } else { st with slot1 := some r, nextSlot := 0 }
    else st
  { st1 with summary := some r, summaryIdx := (st.summaryIdx + 1) % 512, lastPoh := r.poh
             norCopy := if copy then some r else st1.norCopy }

/-- What the device has stored is replaced. -/
def State.setStore (x : RecordStore) : State := { s with sys.store := x }

theorem State.leaves_setStore (x : RecordStore) : Leaves [.store] noReg s (s.setStore x) := Leaves.one .store (.refl _ _ s) (by simp)

theorem State.setStore_store (x : RecordStore) : (s.setStore x).sys.store = x := rfl

theorem State.checkpoint_eq (reason : Nat) (copy : Bool) : s.checkpoint reason copy
    = (s.checkpointRecord reason).setStore
        ((s.checkpointRecord reason).sys.store.checkpointed (s.checkpointRecord reason).sys.record s.billetLive copy) := (rfl)

theorem checkpoint_writes (up : s.cupolaUp = true) (due : s.sys.store.lastPoh + 600 ≤ s.sys.record.poh) :
    exec .checkpoint s = .next (s.checkpoint 1 false) := by
  rw [exec_checkpoint, execCheckpoint, up, if_pos (by simpa using due)]

theorem checkpoint_waits (not : s.cupolaUp = false ∨ s.sys.record.poh < s.sys.store.lastPoh + 600) : exec .checkpoint s = .next s := by
  rw [exec_checkpoint, execCheckpoint, if_neg]
  rcases not with e | e
  · simp [e]
  · simp
    omega

end

/-- Settles O35. -/
theorem theFieldRecordCountsAndIsStored : Obligations.TheFieldRecordCountsAndIsStored := by
  unfold Obligations.TheFieldRecordCountsAndIsStored
  refine ⟨?_, ?_, ?_, ?_, ?_⟩
  · intro s ufs up
    have folds := fun a ha => s.fold_folds a ha
    have leaves := s.leaves_fold
    have bytes := s.fold_bytes
    have run := counterFold_folds s ufs up
    have live : s.fold.billetLive = s.billetLive := s.billetLive_same leaves (by simp) (by simp [noReg])
    generalize s.fold = u at folds leaves bytes run live
    have ufsLeaves := u.leaves_foldUfs ufs
    have arrays := u.foldUfs_arrays ufs
    have store : (u.foldUfs ufs).sys.store = u.sys.store := ufsLeaves.1 .store (by simp)
    refine ⟨_, run, fun a ha k x mem => ?_, fun a ha => ?_, ?_, fun idle => ?_, ?_⟩
    · obtain ⟨sum, last⟩ := (folds a ha).1 k x mem
      have hk : k < 8 := by
        simp only [List.mem_cons, List.not_mem_nil, or_false, Prod.mk.injEq] at mem
        omega
      simp only [State.foldView, if_pos hk] at sum last
      rw [arrays, store]
      exact ⟨sum, last⟩
    · have state := (folds a ha).2
      simp only [State.foldView, if_pos (by omega : 6 < 8)] at state
      rw [arrays]
      exact state
    · rw [u.foldUfs_bytes, bytes, live]
    · rw [u.foldUfs_idle ufs (by rwa [live])]
      exact leaves
    · exact (leaves.mono (by simp) fun _ _ no => no.elim).into ufsLeaves (by simp) fun _ _ e => e
  · intro s ufs down
    rw [exec_counterFold, execCounterFold, down]
    rfl
  · intro s temps droops up all
    obtain ⟨poh, temp, hot⟩ := s.sys.record.sampled_counts temps droops
    refine ⟨_, sensorSample_samples s temps droops up all, poh, temp, hot, fun e => ?_, fun k v e hk hv => ?_, .modRec (.refl _ _ s) (by simp)⟩
    · rw [e]
      rfl
    · rw [e]
      exact s.sys.record.sampled_droop temps k v hk hv
  · intro s up due
    have run := checkpoint_writes s up due
    have record := s.checkpointRecord_record 1
    have leaves := s.leaves_checkpointRecord 1
    have store : (s.checkpointRecord 1).sys.store = s.sys.store := leaves.1 .store (by simp)
    rw [State.checkpoint_eq, store] at run
    generalize s.checkpointRecord 1 = u at run record leaves store
    have stored := u.leaves_setStore (s.sys.store.checkpointed u.sys.record s.billetLive false)
    have kept : (u.setStore (s.sys.store.checkpointed u.sys.record s.billetLive false)).sys.record = u.sys.record :=
      stored.1 .record (by simp)
    refine ⟨_, run, ?_, ?_, ?_, ?_, ?_, fun live => ?_, fun off => ?_,
      (leaves.mono (by simp) fun _ _ e => e).into stored (by simp) fun _ _ no => no.elim⟩
    · rw [kept, record]
    · rw [kept, record]
    · rw [kept, record]
    · rw [kept, State.setStore_store]
      rfl
    · rw [State.setStore_store, RecordStore.checkpointed, record]
    · rw [kept, State.setStore_store, RecordStore.checkpointed, live]
      refine ⟨by rw [record, live]; rfl, ?_⟩
      by_cases next : s.sys.store.nextSlot = 0
      · simp only [next, if_true]
      · simp only [next, if_true, if_false]
    · rw [State.setStore_store, RecordStore.checkpointed, off]
      exact ⟨rfl, rfl⟩
  · intro s not
    exact checkpoint_waits s not

end Sys2Proof.Machine
end

section
/-! PROOFS. Flasks are built, created and given up (R160, R161). -/

set_option Elab.async false

namespace Sys2Proof.Machine

/-- An operation on one listed thing after another, each of which changes the unit that it names alone. -/
theorem State.each_named {α ι β : Type} [DecidableEq ι] {v : State → ι → β} {g : State → α → State} {P : α → β → β → Prop} {key : α → ι}
    (others : ∀ u x b, b ≠ key x → v (g u x) b = v u b) (here : ∀ u x, P x (v u (key x)) (v (g u x) (key x))) {xs : List α}
    (distinct : (xs.map key).Nodup) (s : State) :
    (∀ x ∈ xs, P x (v s (key x)) (v (s.each xs g) (key x))) ∧ (∀ b, b ∉ xs.map key → v (s.each xs g) b = v s b) := by
  induction xs generalizing s with
  | nil => exact ⟨nofun, fun _ _ => rfl⟩
  | cons a as ih =>
    rw [List.map_cons, List.nodup_cons] at distinct
    obtain ⟨hit, missed⟩ := ih distinct.2 (g s a)
    have step : s.each (a :: as) g = (g s a).each as g := rfl
    rw [step]
    refine ⟨fun x h => ?_, fun b h => ?_⟩
    · rcases List.mem_cons.1 h with rfl | h
      · rw [missed _ distinct.1]
        exact here s x
      · have other : key x ≠ key a := fun e => distinct.1 (e ▸ List.mem_map_of_mem h)
        rw [← others s a _ other]
        exact hit x h
    · rw [List.map_cons, List.mem_cons, not_or] at h
      rw [missed b h.2, others s a b h.1]

theorem bits_withBit_apart (v : Word) (k hi lo : Nat) (h : hi < k ∨ k < lo) : bits (withBit v k) hi lo = bits v.toNat hi lo := by
  rcases h with h | h
  · exact bits_putBits_below _ _ _ _ _ _ (by omega) h
  · exact bits_putBits_above _ _ _ _ _ _ (by omega) h

theorem bit_withBit_ne (v : Word) (k j : Nat) (h : j ≠ k) : bit (withBit v k) j = bit v.toNat j := by
  rw [bit, bit, bits_withBit_apart v k j j (by omega)]

theorem State.wrote_ro (s : State) (i v : Nat) (x : Fld) (hm : (x.hi, x.lo, FKind.ro) ∈ x.reg.fieldsAt i) :
    (s.wrote i v x.reg).f x i = s.f x i := by
  rw [State.wrote, State.setR_f _ _ _ _ (s.merged_lt _ _ _ _), State.merged_ro s _ i .whole _ _ _ hm]
  rfl

section
variable (s : State) (m : Master) (f : Nat) (v : Word)

/-! ## SYS_FLRES -/

theorem flresWrite_takes (hf : f < 8) (acc : s.accepts .sysFlres f m .whole v.toNat) : exec (.flresWrite m f v) s
    = .next (if (s.wrote f v.toNat .sysFlres).f SYS_FLCTRL.STATE f = 0 then (s.wrote f v.toNat .sysFlres).setF SYS_FLCTRL.STATE f 1
        else s.wrote f v.toNat .sysFlres) := by
  rw [exec_flresWrite, execFlresWrite, isFlask, decide_eq_true hf, unit_true, State.regWrite_whole s .sysFlres f _ m acc (by decide)
    (by simp [State.hitsLock, Reg.fieldsAt, Reg.fields]) rfl]
  rfl

/-- R160: naming resources builds a flask. -/
theorem flresWrite_builds (hf : f < 8) (acc : s.accepts .sysFlres f m .whole v.toNat) (new : s.f SYS_FLCTRL.STATE f ≤ 1) :
    ∃ t, exec (.flresWrite m f v) s = .next t ∧ t.f SYS_FLCTRL.STATE f = 1
        ∧ t.f SYS_FLRES.ARRAYS f = bits v.toNat 63 30 ∧ t.f SYS_FLRES.VECS f = bits v.toNat 29 14
        ∧ t.f SYS_FLRES.RTCORES f = bits v.toNat 13 6 ∧ t.f SYS_FLRES.RUNNER f = bits v.toNat 5 5
        ∧ Leaves [] (fun r i => (r = .sysFlres ∨ r = .sysFlctrl) ∧ i = f) s t := by
  have run := flresWrite_takes s m f v hf acc
  have written := s.leaves_wrote f v.toNat .sysFlres
  have state : (s.wrote f v.toNat .sysFlres).f SYS_FLCTRL.STATE f = s.f SYS_FLCTRL.STATE f := s.wrote_f f _ _ _ _ (by decide)
  have fields : ∀ x : Fld, x.reg = .sysFlres → (x.hi, x.lo, FKind.rw) ∈ Reg.fieldsAt .sysFlres f →
      (s.wrote f v.toNat .sysFlres).f x f = bits v.toNat x.hi x.lo := fun x hx hm => by
    rw [← hx, s.wrote_rw f _ x (hx ▸ hm)]
  have all : ∀ t, Leaves [] (oneReg .sysFlctrl f) (s.wrote f v.toNat .sysFlres) t → t.f SYS_FLRES.ARRAYS f = bits v.toNat 63 30
      ∧ t.f SYS_FLRES.VECS f = bits v.toNat 29 14 ∧ t.f SYS_FLRES.RTCORES f = bits v.toNat 13 6
      ∧ t.f SYS_FLRES.RUNNER f = bits v.toNat 5 5 ∧ Leaves [] (fun r i => (r = .sysFlres ∨ r = .sysFlctrl) ∧ i = f) s t := by
    intro t after
    have same : ∀ x : Fld, x.reg = .sysFlres → t.f x f = (s.wrote f v.toNat .sysFlres).f x f := fun x hx =>
      after.f_same x f (by simp [oneReg, hx])
    refine ⟨?_, ?_, ?_, ?_, (written.mono (by simp) fun _ _ e => ⟨.inl e.1, e.2⟩).into after (by simp) fun _ _ e => ⟨.inr e.1, e.2⟩⟩
    all_goals rw [same _ rfl]; exact fields _ rfl (by simp [Reg.fieldsAt, Reg.fields, SYS_FLRES.ARRAYS, SYS_FLRES.VECS,
      SYS_FLRES.RTCORES, SYS_FLRES.RUNNER])
  by_cases zero : s.f SYS_FLCTRL.STATE f = 0
  · rw [if_pos (state.trans zero)] at run
    exact ⟨_, run, State.setF_f_width _ _ _ _ 4 (by decide) rfl, all _ (.setF (.refl _ _ _) ⟨rfl, rfl⟩)⟩
  · rw [if_neg (by rw [state]; exact zero)] at run
    exact ⟨_, run, by rw [state]; omega, all _ (.refl _ _ _)⟩

/-- R160: a flask that is not being built keeps its resources. -/
theorem flresWrite_refused (hf : f < 8) (hl : s.live) (hp : s.permits .sysFlres f m true 0 = true)
    (hk : s.lockedBy .sysFlres f = none) (built : 2 ≤ s.f SYS_FLCTRL.STATE f)
    (other : s.merged .sysFlres f .whole v.toNat ≠ s.r .sysFlres f) :
    ∃ t, exec (.flresWrite m f v) s = .next t ∧ t.f SYS_REGERR.REFUSED 0 = 1 ∧ Leaves [.outbox, .keptIrqs] (oneReg .sysRegerr 0) s t := by
  have value : s.newValue .sysFlres f .whole v.toNat = s.merged .sysFlres f .whole v.toNat := rfl
  have refuses : s.refuses .sysFlres f m (s.r .sysFlres f) (s.newValue .sysFlres f .whole v.toNat) (halfOf .whole v.toNat) = true := by
    unfold State.refuses
    exact Bool.and_eq_true_iff.2 ⟨decide_eq_true built, bne_iff_ne.2 (value ▸ other)⟩
  refine ⟨_, by rw [exec_flresWrite, execFlresWrite, isFlask, decide_eq_true hf, unit_true, State.regWrite_refused s .sysFlres f m .whole
    _ hl (by decide) (by decide) hp hk rfl (.inr refuses), State.refuseWrite], (State.regFlag_raised _ _ _ _ _ _ (.inr rfl)).1, leaves_regFlag _ _ _ _ _ _ rfl⟩

/-! ## CREATE -/

/-- One array gets its logical number in the flask. -/
def State.createArray (s : State) (f : Nat) (p : Nat × Nat) : State :=
  ((((s.giveBack p.1).setF ARR_STATUS.FLASK p.1 f).setF ARR_STATUS.LOGICAL p.1 p.2).setF ARR_SATWIN.WIN_VALUES p.1 0).setF
    ARR_SATWIN.WIN_SAT p.1 0

/-- One engine gets its logical number. -/
def State.createVec (s : State) (f : Nat) (p : Nat × Nat) : State :=
  (s.setF VEC_STATUS.FLASK p.1 f).setF VEC_STATUS.LOGICAL p.1 p.2

/-- One core gets its logical number. -/
def State.createRt (s : State) (f : Nat) (p : Nat × Nat) : State :=
  s.modRt p.1 fun x => { x with flask := some f, logical := p.2 }

/-- The flask is created, before its units. -/
def State.createMarked : State := (s.setF SYS_FLCTRL.CREATE f 0).setF SYS_FLCTRL.STATE f 2

/-- Its arrays have their numbers. -/
def State.createdArrays : State :=
  (s.createMarked f).each (s.namedArrays f).zipIdx fun s p => s.createArray f p

/-- Its engines have their numbers. -/
def State.createdVecs : State :=
  (s.createdArrays f).each (s.namedVecs f).zipIdx fun s p => s.createVec f p

/-- Its cores have their numbers. -/
def State.createdRts : State :=
  (s.createdVecs f).each (s.namedRts f).zipIdx fun s p => s.createRt f p

theorem State.createFlask_eq : s.createFlask f = (s.createdRts f).modFlask f fun x => { x with fwClear := false } := (rfl)

theorem zipIdx_keys (xs : List Nat) : xs.zipIdx.map Prod.fst = xs := by simp

theorem mem_zipIdx_of {xs : List Nat} {k a : Nat} (h : xs[k]? = some a) : (a, k) ∈ xs.zipIdx := List.mem_zipIdx_iff_getElem?.2 h

theorem fst_mem_of_zipIdx {xs : List Nat} {p : Nat × Nat} (h : p ∈ xs.zipIdx) : p.1 ∈ xs := by
  have := List.mem_map_of_mem (f := Prod.fst) h
  rwa [zipIdx_keys] at this

/-- What a lent tile that goes back changes. -/
theorem State.giveBack_keeps (a : Nat) : Leaves [.arrays, .flasks] noReg s (s.giveBack a)
    ∧ (∀ b, b ≠ a → (s.giveBack a).arr b = s.arr b) ∧ ((s.arr a).nextJob = none → s.giveBack a = s) := by
  unfold State.giveBack
  dsimp only
  split
  · next r hr =>
    split
    · exact ⟨.refl _ _ s, fun _ _ => rfl, fun _ => rfl⟩
    · refine ⟨.modArr (.modFlask (.refl _ _ s)), fun b hb => ?_, fun no => ?_⟩
      · rw [State.modArr_arr, if_neg hb, State.modFlask_arr]
      · rw [no] at hr
        cases hr
  · exact ⟨.refl _ _ s, fun _ _ => rfl, fun _ => rfl⟩

/-- What CREATE looks at and changes of an array. -/
structure ArrView where
  flask : Nat
  logical : Nat
  values : Nat
  sat : Nat
  arr : ArraySt

def State.arrView (a : Nat) : ArrView where
  flask := s.f ARR_STATUS.FLASK a
  logical := s.f ARR_STATUS.LOGICAL a
  values := s.f ARR_SATWIN.WIN_VALUES a
  sat := s.f ARR_SATWIN.WIN_SAT a
  arr := s.arr a

theorem State.leaves_createArray (p : Nat × Nat) :
    Leaves [.arrays, .flasks] (fun r i => (r = .arrStatus ∨ r = .arrSatwin) ∧ i = p.1) s (s.createArray f p) := by
  unfold State.createArray
  exact .setF (.setF (.setF (.setF ((s.giveBack_keeps p.1).1.mono (by simp) fun _ _ no => no.elim) ⟨.inl rfl, rfl⟩) ⟨.inl rfl, rfl⟩)
    ⟨.inr rfl, rfl⟩) ⟨.inr rfl, rfl⟩

theorem State.createArray_others (p : Nat × Nat) (b : Nat) (hb : b ≠ p.1) : (s.createArray f p).arrView b = s.arrView b := by
  have same : ∀ x : Fld, (s.createArray f p).f x b = s.f x b := fun x => (s.leaves_createArray f p).f_same x b fun e => hb e.2
  have arr : (s.createArray f p).arr b = s.arr b := by
    rw [State.createArray, State.setF_arr, State.setF_arr, State.setF_arr, State.setF_arr, (s.giveBack_keeps p.1).2.1 b hb]
  unfold State.arrView
  rw [same, same, same, same, arr]

/-- A created array is the flask's, under its number, with a new window. -/
def ArrView.Created (f : Nat) (p : Nat × Nat) (x y : ArrView) : Prop :=
  y.flask = f % 2 ^ 4 ∧ y.logical = p.2 % 2 ^ 8 ∧ y.values = 0 ∧ y.sat = 0 ∧ (x.arr.nextJob = none → y.arr = x.arr)

theorem State.createArray_here (p : Nat × Nat) : ArrView.Created f p (s.arrView p.1) ((s.createArray f p).arrView p.1) := by
  unfold State.createArray ArrView.Created State.arrView
  dsimp only
  refine ⟨?_, ?_, ?_, ?_, fun none => ?_⟩
  · rw [State.setF_f_apart _ _ _ _ _ _ (by decide) (by decide), State.setF_f_apart _ _ _ _ _ _ (by decide) (by decide),
      State.setF_f_apart _ _ _ _ _ _ (by decide) (by decide), State.setF_f_width _ _ _ _ 4 (by decide) rfl]
  · rw [State.setF_f_apart _ _ _ _ _ _ (by decide) (by decide), State.setF_f_apart _ _ _ _ _ _ (by decide) (by decide),
      State.setF_f_width _ _ _ _ 8 (by decide) rfl]
  · rw [State.setF_f_apart _ _ _ _ _ _ (by decide) (by decide), State.setF_f_same _ _ _ _ (by decide), Nat.zero_mod]
  · rw [State.setF_f_same _ _ _ _ (by decide), Nat.zero_mod]
  · rw [State.setF_arr, State.setF_arr, State.setF_arr, State.setF_arr, (s.giveBack_keeps p.1).2.2 none]

theorem State.leaves_createVec (p : Nat × Nat) : Leaves [] (oneReg .vecStatus p.1) s (s.createVec f p) :=
  .setF (.setF (.refl _ _ s) ⟨rfl, rfl⟩) ⟨rfl, rfl⟩

/-- The number of an engine and its flask. -/
def State.vecView (e : Nat) : Nat × Nat := (s.f VEC_STATUS.FLASK e, s.f VEC_STATUS.LOGICAL e)

theorem State.createVec_others (p : Nat × Nat) (b : Nat) (hb : b ≠ p.1) : (s.createVec f p).vecView b = s.vecView b := by
  have same : ∀ x : Fld, (s.createVec f p).f x b = s.f x b := fun x => (s.leaves_createVec f p).f_same x b fun e => hb e.2
  rw [State.vecView, State.vecView, same, same]

theorem State.createVec_here (p : Nat × Nat) : (s.createVec f p).vecView p.1 = (f % 2 ^ 4, p.2 % 2 ^ 8) := by
  rw [State.vecView, State.createVec, State.setF_f_width _ VEC_STATUS.LOGICAL _ _ 8 (by decide) rfl,
    State.setF_f_apart _ _ _ _ _ _ (by decide) (by decide), State.setF_f_width _ VEC_STATUS.FLASK _ _ 4 (by decide) rfl]

theorem State.namedArrays_same {t : State} (h : t.f SYS_FLRES.ARRAYS f = s.f SYS_FLRES.ARRAYS f) : t.namedArrays f = s.namedArrays f := by
  rw [State.namedArrays, State.namedArrays, h]

theorem State.namedVecs_same {t : State} (h : t.f SYS_FLRES.VECS f = s.f SYS_FLRES.VECS f) : t.namedVecs f = s.namedVecs f := by
  rw [State.namedVecs, State.namedVecs, h]

theorem State.namedRts_same {t : State} (h : t.f SYS_FLRES.RTCORES f = s.f SYS_FLRES.RTCORES f) : t.namedRts f = s.namedRts f := by
  rw [State.namedRts, State.namedRts, h]

theorem State.leaves_createMarked : Leaves [] (oneReg .sysFlctrl f) s (s.createMarked f) :=
  .setF (.setF (.refl _ _ s) ⟨rfl, rfl⟩) ⟨rfl, rfl⟩

/-- The registers and parts of a CREATE. -/
abbrev createRegs (f : Nat) (arrays vecs : List Nat) (r : Reg) (i : Nat) : Prop :=
  (r = .sysFlctrl ∧ i = f) ∨ ((r = .arrStatus ∨ r = .arrSatwin) ∧ i ∈ arrays) ∨ (r = .vecStatus ∧ i ∈ vecs)

theorem State.namedArrays_nodup : (s.namedArrays f).Nodup := List.Nodup.filter _ List.nodup_range
theorem State.namedVecs_nodup : (s.namedVecs f).Nodup := List.Nodup.filter _ List.nodup_range
theorem State.namedRts_nodup : (s.namedRts f).Nodup := List.Nodup.filter _ List.nodup_range

theorem State.createdArrays_leaves : Leaves [.arrays, .flasks] (fun r i => (r = .arrStatus ∨ r = .arrSatwin) ∧ i ∈ s.namedArrays f)
    (s.createMarked f) (s.createdArrays f) := by
  unfold State.createdArrays
  refine State.each_keeps (P := fun t => Leaves [.arrays, .flasks] (fun r i => (r = .arrStatus ∨ r = .arrSatwin) ∧ i ∈ s.namedArrays f)
    (s.createMarked f) t) (.refl _ _ _) fun t p hp h => h.into (t.leaves_createArray f p) (by simp) fun r i e => ⟨e.1, ?_⟩
  rw [e.2]
  exact fst_mem_of_zipIdx hp

/-- Every named array is created, and no other one changes. -/
theorem State.createdArrays_views :
    (∀ p ∈ (s.namedArrays f).zipIdx, ArrView.Created f p ((s.createMarked f).arrView p.1) ((s.createdArrays f).arrView p.1))
      ∧ ∀ b, b ∉ s.namedArrays f → (s.createdArrays f).arrView b = (s.createMarked f).arrView b := by
  have each := State.each_named (v := State.arrView) (g := fun s p => s.createArray f p) (P := ArrView.Created f) (key := Prod.fst)
    (fun u x b hb => u.createArray_others f x b hb) (fun u x => u.createArray_here f x)
    (by rw [zipIdx_keys]; exact s.namedArrays_nodup f) (s.createMarked f)
  rw [zipIdx_keys] at each
  exact each

theorem State.createdVecs_leaves : Leaves [] (fun r i => r = .vecStatus ∧ i ∈ s.namedVecs f) (s.createdArrays f) (s.createdVecs f) := by
  unfold State.createdVecs
  refine State.each_keeps (P := fun t => Leaves [] (fun r i => r = .vecStatus ∧ i ∈ s.namedVecs f) (s.createdArrays f) t)
    (.refl _ _ _) fun t p hp h => h.into (t.leaves_createVec f p) (by simp) fun r i e => ⟨e.1, ?_⟩
  rw [e.2]
  exact fst_mem_of_zipIdx hp

theorem State.createdVecs_views : ∀ p ∈ (s.namedVecs f).zipIdx, (s.createdVecs f).vecView p.1 = (f % 2 ^ 4, p.2 % 2 ^ 8) := by
  have each := State.each_named (v := State.vecView) (g := fun s p => s.createVec f p) (P := fun p _ y => y = (f % 2 ^ 4, p.2 % 2 ^ 8))
    (key := Prod.fst) (fun u x b hb => u.createVec_others f x b hb) (fun u x => u.createVec_here f x)
    (by rw [zipIdx_keys]; exact s.namedVecs_nodup f) (s.createdArrays f)
  unfold State.createdVecs
  exact each.1

theorem State.createdRts_leaves : Leaves [.rts] noReg (s.createdVecs f) (s.createdRts f) := .over (.refl _ _ _) fun _ _ h => h.modRt

theorem State.createdRts_rts :
    (∀ p ∈ (s.namedRts f).zipIdx, ((s.createdRts f).rt p.1).flask = some f ∧ ((s.createdRts f).rt p.1).logical = p.2)
      ∧ ∀ c, c ∉ s.namedRts f → (s.createdRts f).rt c = s.rt c := by
  have each := State.each_named (v := State.rt) (g := fun s p => s.createRt f p) (P := fun p _ y => y.flask = some f ∧ y.logical = p.2)
    (key := Prod.fst) (fun u x b hb => by rw [State.createRt, State.modRt_rt, if_neg hb])
    (fun u x => by rw [State.createRt, State.modRt_rt, if_pos rfl]; exact ⟨rfl, rfl⟩)
    (by rw [zipIdx_keys]; exact s.namedRts_nodup f) (s.createdVecs f)
  rw [zipIdx_keys] at each
  have rts : ∀ c, (s.createdVecs f).rt c = s.rt c := fun c => by
    rw [(s.createdVecs_leaves f).rt_same (by simp), (s.createdArrays_leaves f).rt_same (by simp), (s.leaves_createMarked f).rt_same (by simp)]
  unfold State.createdRts
  exact ⟨each.1, fun c hc => (each.2 c hc).trans (rts c)⟩

/-- R160: what an accepted CREATE leaves. -/
theorem State.createFlask_creates (hf : f < 8) :
    (s.createFlask f).f SYS_FLCTRL.STATE f = 2 ∧ (s.createFlask f).fb SYS_FLCTRL.CREATE f = false
        ∧ (s.createFlask f).fb SYS_FLCTRL.TIMED f = s.fb SYS_FLCTRL.TIMED f
        ∧ (∀ k a, (s.namedArrays f)[k]? = some a →
            (s.createFlask f).f ARR_STATUS.FLASK a = f ∧ (s.createFlask f).f ARR_STATUS.LOGICAL a = k)
        ∧ (∀ k e, (s.namedVecs f)[k]? = some e →
            (s.createFlask f).f VEC_STATUS.FLASK e = f ∧ (s.createFlask f).f VEC_STATUS.LOGICAL e = k)
        ∧ (∀ k c, (s.namedRts f)[k]? = some c → ((s.createFlask f).rt c).flask = some f ∧ ((s.createFlask f).rt c).logical = k)
        ∧ (∀ c, c ∉ s.namedRts f → (s.createFlask f).rt c = s.rt c)
        ∧ (∀ a ∈ s.namedArrays f, (s.createFlask f).f ARR_SATWIN.WIN_VALUES a = 0 ∧ (s.createFlask f).f ARR_SATWIN.WIN_SAT a = 0)
        ∧ (∀ a, (a ∉ s.namedArrays f ∨ (s.arr a).nextJob = none) → (s.createFlask f).arr a = s.arr a)
        ∧ Leaves [.arrays, .flasks, .rts] (createRegs f (s.namedArrays f) (s.namedVecs f)) s (s.createFlask f) := by
  have last : Leaves [.flasks, .rts] noReg (s.createdVecs f) (s.createFlask f) := by
    rw [State.createFlask_eq]
    exact .modFlask ((s.createdRts_leaves f).mono (by simp) fun _ _ e => e)
  have rts : ∀ c, (s.createFlask f).rt c = (s.createdRts f).rt c := fun c => by rw [State.createFlask_eq, State.modFlask_rt]
  have afterArrays : Leaves [.flasks, .rts] (fun r i => r = .vecStatus ∧ i ∈ s.namedVecs f) (s.createdArrays f) (s.createFlask f) :=
    ((s.createdVecs_leaves f).mono (by simp) fun _ _ e => e).into last (by simp) fun _ _ no => no.elim
  have afterMarked : Leaves [.arrays, .flasks, .rts] (createRegs f (s.namedArrays f) (s.namedVecs f)) (s.createMarked f) (s.createFlask f) :=
    ((s.createdArrays_leaves f).mono (by simp) fun _ _ e => .inr (.inl e)).into afterArrays (by simp) fun _ _ e => .inr (.inr e)
  have ctrl : ∀ x : Fld, x.reg = .sysFlctrl → (s.createFlask f).f x f = (s.createMarked f).f x f := fun x hx => by
    rw [afterArrays.f_same x f (by simp [hx]), (s.createdArrays_leaves f).f_same x f (by simp [hx])]
  obtain ⟨hit, missed⟩ := s.createdArrays_views f
  obtain ⟨rtHit, rtMissed⟩ := s.createdRts_rts f
  have small : f % 2 ^ 4 = f := Nat.mod_eq_of_lt (by omega)
  have number : ∀ (xs : List Nat) (n k a : Nat), xs.length ≤ n → n < 256 → xs[k]? = some a → k % 2 ^ 8 = k := by
    intro xs n k a le lt h
    have := (List.getElem?_eq_some_iff.1 h).1
    exact Nat.mod_eq_of_lt (by omega)
  refine ⟨?_, ?_, ?_, fun k a h => ?_, fun k e h => ?_, fun k c h => ?_, fun c hc => ?_, fun a ha => ?_, fun a h => ?_, ?_⟩
  · rw [ctrl _ rfl]
    exact State.setF_f_width _ _ _ _ 4 (by decide) rfl
  · rw [State.fb_eq, ctrl _ rfl, State.createMarked, State.setF_f_apart _ _ _ _ _ _ (by decide) (by decide),
      State.setF_f_same _ _ _ _ (by decide), Nat.zero_mod]
    rfl
  · rw [State.fb_eq, State.fb_eq, ctrl _ rfl, State.createMarked, State.setF_f_apart _ _ _ _ _ _ (by decide) (by decide),
      State.setF_f_apart _ _ _ _ _ _ (by decide) (by decide)]
  · obtain ⟨flask, logical, -, -, -⟩ := hit (a, k) (mem_zipIdx_of h)
    have len : (s.namedArrays f).length ≤ 34 := (List.length_filter_le _ _).trans (by rw [arrayIds, List.length_range])
    rw [afterArrays.f_same ARR_STATUS.FLASK a (by simp [ARR_STATUS.FLASK]), afterArrays.f_same ARR_STATUS.LOGICAL a
      (by simp [ARR_STATUS.LOGICAL])]
    exact ⟨flask.trans small, logical.trans (number _ 34 k a len (by omega) h)⟩
  · have view := s.createdVecs_views f (e, k) (mem_zipIdx_of h)
    have len : (s.namedVecs f).length ≤ 16 := (List.length_filter_le _ _).trans (by rw [vecIds, List.length_range])
    rw [State.vecView, Prod.mk.injEq] at view
    rw [last.f_same VEC_STATUS.FLASK e (by simp [noReg]), last.f_same VEC_STATUS.LOGICAL e (by simp [noReg])]
    exact ⟨view.1.trans small, view.2.trans (number _ 16 k e len (by omega) h)⟩
  · rw [rts]
    exact rtHit (c, k) (mem_zipIdx_of h)
  · rw [rts]
    exact rtMissed c hc
  · obtain ⟨k, hk⟩ := List.mem_iff_getElem?.1 ha
    obtain ⟨-, -, values, sat, -⟩ := hit (a, k) (mem_zipIdx_of hk)
    rw [afterArrays.f_same ARR_SATWIN.WIN_VALUES a (by simp [ARR_SATWIN.WIN_VALUES]), afterArrays.f_same ARR_SATWIN.WIN_SAT a
      (by simp [ARR_SATWIN.WIN_SAT])]
    exact ⟨values, sat⟩
  · have marked : (s.createMarked f).arr a = s.arr a := (s.leaves_createMarked f).arr_same (by simp) a
    rw [afterArrays.arr_same (by simp)]
    by_cases named : a ∈ s.namedArrays f
    · obtain ⟨k, hk⟩ := List.mem_iff_getElem?.1 named
      obtain ⟨-, -, -, -, same⟩ := hit (a, k) (mem_zipIdx_of hk)
      have free := h.resolve_left (not_not.2 named)
      rw [← marked]
      refine same ?_
      rw [← marked] at free
      exact free
    · rw [← marked]
      exact congrArg ArrView.arr (missed a named)
  · exact ((s.leaves_createMarked f).mono (by simp) fun _ _ e => .inl e).into afterMarked (by simp) fun _ _ e => e

theorem flctrl_wrote (w : Nat) (acc : s.accepts .sysFlctrl f m .whole w) :
    s.regWrite .sysFlctrl f m .whole w = (s.wrote f w .sysFlctrl).flaskCmd f w := by
  rw [State.regWrite_whole s .sysFlctrl f _ m acc (by decide) (by simp [State.hitsLock, Reg.fieldsAt, Reg.fields]) rfl]
  rfl

theorem State.flaskCmd_create (w : Nat) (yes : bit w 59 = true) (no : bit w 58 = false) : s.flaskCmd f w = s.createFlask f := by
  unfold State.flaskCmd
  rw [yes, no]
  rfl

theorem State.flaskCmd_destroy (w : Nat) (no : bit w 59 = false) (yes : bit w 58 = true) : s.flaskCmd f w = s.destroyFlask f := by
  unfold State.flaskCmd
  dsimp only
  rw [yes, no, if_pos rfl, if_neg (by decide)]

theorem flaskCreate_creates (hf : f < 8) (acc : s.accepts .sysFlctrl f m .whole (withBit v 59)) (no : bit v.toNat 58 = false) :
    exec (.flaskCreate m f v) s = .next ((s.wrote f (withBit v 59) .sysFlctrl).createFlask f) := by
  rw [exec_flaskCreate, execFlaskCreate, isFlask, decide_eq_true hf, unit_true, flctrl_wrote s m f _ acc,
    State.flaskCmd_create _ _ _ (bit_withBit v 59) ((bit_withBit_ne v 59 58 (by decide)).trans no)]

/-! ## DESTROY -/

theorem flaskDestroy_destroys (hf : f < 8) (acc : s.accepts .sysFlctrl f m .whole (withBit v 58)) (no : bit v.toNat 59 = false) :
    exec (.flaskDestroy m f v) s = .next ((s.wrote f (withBit v 58) .sysFlctrl).destroyFlask f) := by
  rw [exec_flaskDestroy, execFlaskDestroy, isFlask, decide_eq_true hf, unit_true, flctrl_wrote s m f _ acc,
    State.flaskCmd_destroy _ _ _ ((bit_withBit_ne v 58 59 (by decide)).trans no) (bit_withBit v 58)]

/-- The registers of a flask that is given up. -/
abbrev freeRegs (f : Nat) (r : Reg) (i : Nat) : Prop := (r = .sysFlctrl ∨ r = .sysFlres ∨ r = .memCways ∨ r = .attFslice) ∧ i = f

theorem State.leaves_freeFlask : Leaves [] (freeRegs f) s (s.freeFlask f) :=
  .setF (.setF (.setF (.setF (.setR (.refl _ _ s) ⟨.inr (.inl rfl), rfl⟩) ⟨.inr (.inr (.inl rfl)), rfl⟩) ⟨.inr (.inr (.inr rfl)), rfl⟩)
    ⟨.inl rfl, rfl⟩) ⟨.inl rfl, rfl⟩

theorem State.freeFlask_frees : (s.freeFlask f).f SYS_FLCTRL.STATE f = 0 ∧ (s.freeFlask f).r .sysFlres f = 0
    ∧ (s.freeFlask f).f MEM_CWAYS.WAYS f = 0 := by
  have zero : (s.setR .sysFlres f 0).r .sysFlres f = 0 := by rw [State.setR_r, if_pos ⟨rfl, rfl⟩]; rfl
  have ways : ((s.setR .sysFlres f 0).setF MEM_CWAYS.WAYS f 0).f MEM_CWAYS.WAYS f = 0 := by
    rw [State.setF_f_same _ _ _ _ (by decide), Nat.zero_mod]
  have first : Leaves [] (oneReg .memCways f) (s.setR .sysFlres f 0) ((s.setR .sysFlres f 0).setF MEM_CWAYS.WAYS f 0) :=
    .setF (.refl _ _ _) ⟨rfl, rfl⟩
  unfold State.freeFlask
  generalize (s.setR .sysFlres f 0).setF MEM_CWAYS.WAYS f 0 = t at ways first
  have rest : Leaves [] (fun r i => (r = .sysFlctrl ∨ r = .attFslice) ∧ i = f) t
      (((t.setF ATT_FSLICE.CTX_COUNT f 0).setF SYS_FLCTRL.DESTROY f 0).setF SYS_FLCTRL.STATE f 0) :=
    .setF (.setF (.setF (.refl _ _ t) ⟨.inr rfl, rfl⟩) ⟨.inl rfl, rfl⟩) ⟨.inl rfl, rfl⟩
  refine ⟨by rw [State.setF_f_same _ _ _ _ (by decide), Nat.zero_mod], ?_, ?_⟩
  · rw [rest.2 .sysFlres f (by simp), first.2 .sysFlres f (by simp [oneReg]), zero]
  · rw [rest.f_same MEM_CWAYS.WAYS f (by simp [MEM_CWAYS.WAYS]), ways]

/-- R161: what DESTROY leaves. -/
theorem flaskDestroy_leaves (hf : f < 8) (acc : s.accepts .sysFlctrl f m .whole (withBit v 58)) (no : bit v.toNat 59 = false) :
    ∃ t, exec (.flaskDestroy m f v) s = .next t
        ∧ (s.f SYS_FLCTRL.STATE f = 1 → t.f SYS_FLCTRL.STATE f = 0 ∧ t.r .sysFlres f = 0 ∧ t.f MEM_CWAYS.WAYS f = 0)
        ∧ (s.f SYS_FLCTRL.STATE f ≠ 1 → t.f SYS_FLCTRL.STATE f = 4 ∧ t.r .sysFlres f = s.r .sysFlres f)
        ∧ Leaves [] (freeRegs f) s t := by
  have run := flaskDestroy_destroys s m f v hf acc no
  have written := s.leaves_wrote f (withBit v 58) .sysFlctrl
  have state : (s.wrote f (withBit v 58) .sysFlctrl).f SYS_FLCTRL.STATE f = s.f SYS_FLCTRL.STATE f :=
    s.wrote_ro f _ SYS_FLCTRL.STATE (by simp [Reg.fieldsAt, Reg.fields, SYS_FLCTRL.STATE])
  rw [State.destroyFlask, state] at run
  generalize s.wrote f (withBit v 58) .sysFlctrl = u at run written
  have base : Leaves [] (freeRegs f) s u := written.mono (by simp) fun _ _ e => ⟨.inl e.1, e.2⟩
  by_cases built : s.f SYS_FLCTRL.STATE f = 1
  · rw [if_pos built] at run
    exact ⟨_, run, fun _ => u.freeFlask_frees f, fun no => absurd built no, base.trans (u.leaves_freeFlask f)⟩
  · rw [if_neg built] at run
    refine ⟨_, run, fun yes => absurd yes built, fun _ => ⟨State.setF_f_width _ _ _ _ 4 (by decide) rfl, ?_⟩,
      base.setF ⟨.inl rfl, rfl⟩⟩
    have set : Leaves [] (oneReg .sysFlctrl f) u (u.setF SYS_FLCTRL.STATE f 4) := .setF (.refl _ _ u) ⟨rfl, rfl⟩
    rw [set.2 .sysFlres f (by simp [oneReg]), written.2 .sysFlres f (by simp [oneReg])]

end

end Sys2Proof.Machine
end

section
/-! PROOFS. Shakeout and firmware clearing (R219, R220), and what O36 says. -/

set_option Elab.async false

namespace Sys2Proof.Machine

section
variable (s : State) (f a e c : Nat)

/-! ## The compute state of one unit -/

theorem State.leaves_shakeArray : Leaves [.arrays] (oneReg .arrSatwin a) s (s.shakeArray a) :=
  .setF (.setF (.modArr (.refl _ _ s)) ⟨rfl, rfl⟩) ⟨rfl, rfl⟩

/-- The compute state of an array is clear. -/
def ArraySt.Shaken (x : ArraySt) : Prop :=
  x.mould = [] ∧ x.store = [] ∧ x.accum = [] ∧ x.active = {} ∧ x.shadow = {} ∧ x.ev = []

/-- An array with its saturation window. -/
def State.shakeView : ArraySt × Nat := (s.arr a, s.f ARR_SATWIN.WIN_VALUES a)

theorem State.shakeArray_here : ((s.shakeArray a).shakeView a).1.Shaken ∧ ((s.shakeArray a).shakeView a).2 = 0
    ∧ ((s.shakeArray a).arr a).clearing = (s.arr a).clearing := by
  have arr : (s.shakeArray a).arr a = { s.arr a with
      mould := [], store := [], active := {}, shadow := {}, accum := [], ev := [], loops := [],
      post := {}, hist := [], streams := [], armSwap := false, armAcc := none } := by
    rw [State.shakeArray, State.setF_arr, State.setF_arr, State.modArr_arr, if_pos rfl]
  refine ⟨?_, ?_, by rw [arr]⟩
  · rw [State.shakeView, arr]
    exact ⟨rfl, rfl, rfl, rfl, rfl, rfl⟩
  · rw [State.shakeView, State.shakeArray, State.setF_f_apart _ _ _ _ _ _ (by decide) (by decide), State.setF_f_same _ _ _ _ (by decide),
      Nat.zero_mod]

theorem State.shakeArray_others (b : Nat) (hb : b ≠ a) : (s.shakeArray a).shakeView b = s.shakeView b := by
  have arr : (s.shakeArray a).arr b = s.arr b := by
    rw [State.shakeArray, State.setF_arr, State.setF_arr, State.modArr_arr, if_neg hb]
  rw [State.shakeView, State.shakeView, arr, (s.leaves_shakeArray a).f_same ARR_SATWIN.WIN_VALUES b fun e => hb e.2]

/-- An engine with what the caches hold for it. -/
def State.engineView : VecSt × Prop := (s.vec e, ∀ h ∈ s.mem.holders, h.who ≠ .vec e)

/-- The compute state of an engine is clear. -/
def VecSt.Shaken (v : VecSt) : Prop := v.vreg = [] ∧ v.store = [] ∧ v.xreg = [] ∧ v.freg = [] ∧ v.csr = []

theorem State.leaves_shakeVec : Leaves [.vecs, .holders] noReg s (s.shakeVec e) := .shakeVec (.refl _ _ s) (List.Subset.refl _)

theorem State.shakeVec_holders : (s.shakeVec e).mem.holders = s.mem.holders.filter fun h => h.who != .vec e := rfl

/-- An engine whose compute state is clear. -/
def VecSt.shaken (v : VecSt) : VecSt :=
  { v with vreg := [], xreg := [], freg := [], csr := [], pc := 0, user := false, store := [], sew := 32, vl := 64
           lmul := 1, fmt := 0, outs := [], sig := crc32Init }

theorem State.shakeVec_vec (k : Nat) : (s.shakeVec e).vec k = if k = e then (s.vec e).shaken else s.vec k :=
  (State.modVec_vec s e k VecSt.shaken :)

theorem State.shakeVec_here : ((s.shakeVec e).engineView e).1.Shaken ∧ ((s.shakeVec e).engineView e).2 := by
  refine ⟨?_, fun h hh => ?_⟩
  · rw [State.engineView, State.shakeVec_vec, if_pos rfl]
    exact ⟨rfl, rfl, rfl, rfl, rfl⟩
  · rw [State.shakeVec_holders] at hh
    simpa using (List.mem_filter.1 hh).2

theorem State.shakeVec_others (b : Nat) (hb : b ≠ e) : (s.shakeVec e).engineView b = s.engineView b := by
  have vec : (s.shakeVec e).vec b = s.vec b := by rw [State.shakeVec_vec, if_neg hb]
  have free : (∀ h ∈ (s.shakeVec e).mem.holders, h.who ≠ .vec b) = ∀ h ∈ s.mem.holders, h.who ≠ .vec b := by
    rw [State.shakeVec_holders]
    refine propext ⟨fun all h hh own => ?_, fun all h hh => all h (List.mem_filter.1 hh).1⟩
    refine all h (List.mem_filter.2 ⟨hh, ?_⟩) own
    rw [own]
    simpa using hb
  rw [State.engineView, State.engineView, vec, free]

/-! ## The compute state of a flask -/

/-- The arrays of a flask are clear. -/
def State.arraysShaken : State := s.each (s.heldArrays f) State.shakeArray

/-- Its engines, too. -/
def State.enginesShaken : State := (s.arraysShaken f).each (s.engines f) State.shakeVec

/-- And its cores. -/
def State.coresShaken : State :=
  (s.enginesShaken f).each (s.heldRts f) fun t c => t.shakeRt (s.f SYS_FLCTRL.STATE f == 4) c

/-- The saved contexts of its jobs are gone. -/
def State.savedShaken : State :=
  { s with units.saved := s.units.saved.filter fun k => !(s.job k.it.job).any fun x => s.jobFlask x == f }

theorem State.shakeFlask_eq : s.shakeFlask f
    = (if ((s.coresShaken f).savedShaken f).fb SYS_FLRES.RUNNER f then ((s.coresShaken f).savedShaken f).shakeRunner
        else (s.coresShaken f).savedShaken f).shakeWays f := (rfl)

theorem State.leaves_savedShaken : Leaves [.saved] noReg s (s.savedShaken f) := Leaves.one .saved (.refl _ _ s) (by simp)

theorem State.leaves_shakeRunner : Leaves [.planCount, .nodes, .runKept] noReg s s.shakeRunner := .beside (.refl _ _ s)

theorem State.leaves_shakeWays : Leaves [.cache] (fun r _ => r = .memCways) s (s.shakeWays f) := by
  unfold State.shakeWays State.updateOcc
  exact .over (Leaves.one .cache (.refl _ _ s) (by simp)) fun _ _ h => h.setF rfl

theorem State.arraysShaken_leaves : Leaves [.arrays] (fun r i => r = .arrSatwin ∧ i ∈ s.heldArrays f) s (s.arraysShaken f) :=
  State.each_keeps (P := fun t => Leaves [.arrays] (fun r i => r = .arrSatwin ∧ i ∈ s.heldArrays f) s t) (.refl _ _ s)
    fun t a ha h => h.into (t.leaves_shakeArray a) (List.Subset.refl _) fun _ _ e => ⟨e.1, e.2 ▸ ha⟩

theorem State.enginesShaken_leaves : Leaves [.vecs, .holders] noReg (s.arraysShaken f) (s.enginesShaken f) :=
  .over (.refl _ _ _) fun e t h => h.trans (t.leaves_shakeVec e)

theorem State.coresShaken_leaves : Leaves [.rts] noReg (s.enginesShaken f) (s.coresShaken f) :=
  .over (.refl _ _ _) fun _ _ h => h.modRt

/-- The stores and the saved contexts, after the units. -/
theorem State.unitsShaken_leaves : Leaves [.saved, .planCount, .nodes, .runKept, .cache] (fun r _ => r = .memCways) (s.coresShaken f)
    (s.shakeFlask f) := by
  rw [State.shakeFlask_eq]
  have saved : Leaves [.saved, .planCount, .nodes, .runKept, .cache] (fun r _ => r = .memCways) (s.coresShaken f)
      ((s.coresShaken f).savedShaken f) := (State.leaves_savedShaken _ f).mono (by simp) fun _ _ no => no.elim
  refine Leaves.into (.ite (saved.into (State.leaves_shakeRunner _) (by simp) fun _ _ no => no.elim) saved)
    (State.leaves_shakeWays _ f) (by simp) fun _ _ e => e

/-- The registers and parts of a shakeout. -/
abbrev shakeParts : List Part := [.arrays, .cache, .holders, .nodes, .planCount, .runKept, .rts, .saved, .vecs]
abbrev shakeRegs (arrays : List Nat) (r : Reg) (i : Nat) : Prop := r = .memCways ∨ (r = .arrSatwin ∧ i ∈ arrays)

theorem State.leaves_shakeFlask : Leaves shakeParts (shakeRegs (s.heldArrays f)) s (s.shakeFlask f) :=
  ((((s.arraysShaken_leaves f).mono (by simp) fun _ _ e => .inr e).into (s.enginesShaken_leaves f) (by simp) fun _ _ no => no.elim).into
    (s.coresShaken_leaves f) (by simp) fun _ _ no => no.elim).into (s.unitsShaken_leaves f) (by simp) fun _ _ e => .inl e

theorem State.heldArrays_nodup : (s.heldArrays f).Nodup := List.Nodup.filter _ List.nodup_range
theorem State.engines_nodup : (s.engines f).Nodup := List.Nodup.filter _ List.nodup_range
theorem State.heldRts_nodup : (s.heldRts f).Nodup := List.Nodup.filter _ List.nodup_range

theorem State.shakeFlask_arr : (a ∈ s.heldArrays f → ((s.shakeFlask f).arr a).Shaken ∧ (s.shakeFlask f).f ARR_SATWIN.WIN_VALUES a = 0)
    ∧ (a ∉ s.heldArrays f → (s.shakeFlask f).arr a = s.arr a) := by
  have each : (a ∈ s.heldArrays f → ((s.arraysShaken f).shakeView a).1.Shaken ∧ ((s.arraysShaken f).shakeView a).2 = 0)
      ∧ (a ∉ s.heldArrays f → (s.arraysShaken f).shakeView a = s.shakeView a) :=
    State.each_units (v := State.shakeView) (g := State.shakeArray) (P := fun _ y => y.1.Shaken ∧ y.2 = 0)
      (fun u a b hb => u.shakeArray_others a b hb) (fun u a => ⟨(u.shakeArray_here a).1, (u.shakeArray_here a).2.1⟩)
      (s.heldArrays_nodup f) s a
  have later : Leaves (.vecs :: .holders :: .rts :: [.saved, .planCount, .nodes, .runKept, .cache]) (fun r _ => r = .memCways)
      (s.arraysShaken f) (s.shakeFlask f) :=
    (((s.enginesShaken_leaves f).mono (by simp) fun _ _ no => no.elim).into (s.coresShaken_leaves f) (by simp) fun _ _ no => no.elim).into
      (s.unitsShaken_leaves f) (by simp) fun _ _ e => e
  rw [State.shakeView, State.shakeView, Prod.mk.injEq] at each
  rw [later.arr_same (by simp), later.f_same ARR_SATWIN.WIN_VALUES a (by simp [ARR_SATWIN.WIN_VALUES])]
  exact ⟨each.1, fun h => (each.2 h).1⟩

theorem State.shakeFlask_engine (he : e ∈ s.engines f) :
    ((s.shakeFlask f).vec e).Shaken ∧ ∀ h ∈ (s.shakeFlask f).mem.holders, h.who ≠ .vec e := by
  have each : ((s.enginesShaken f).engineView e).1.Shaken ∧ ((s.enginesShaken f).engineView e).2 :=
    (State.each_units (v := State.engineView) (g := State.shakeVec) (P := fun _ y => y.1.Shaken ∧ y.2)
      (fun u a b hb => u.shakeVec_others a b hb) (fun u a => u.shakeVec_here a) (s.engines_nodup f) (s.arraysShaken f) e).1 he
  have later : Leaves (.rts :: [.saved, .planCount, .nodes, .runKept, .cache]) (fun r _ => r = .memCways) (s.enginesShaken f)
      (s.shakeFlask f) :=
    ((s.coresShaken_leaves f).mono (by simp) fun _ _ no => no.elim).into (s.unitsShaken_leaves f) (by simp) fun _ _ e => e
  rw [later.vec_same (by simp), later.1 .holders (by simp)]
  exact each

/-- The compute state of a core is clear. -/
def RtSt.Shaken (x : RtSt) : Prop := x.reg = [] ∧ x.data = [] ∧ x.firsts = [] ∧ x.task = none

theorem State.shakeFlask_rt : (c ∈ s.heldRts f → ((s.shakeFlask f).rt c).Shaken) ∧ ((s.shakeFlask f).rt c).flask = (s.rt c).flask := by
  have cleared : ∀ (u : State) (d : Bool) (k : Nat), (u.shakeRt d k).rt c = if c = k then
      { u.rt k with task := none, started := false, firsts := [], reg := [], data := [], tcm := if d then none else (u.rt k).tcm }
      else u.rt c := fun u d k => State.modRt_rt ..
  have each := (State.each_units (v := State.rt) (g := fun t c => t.shakeRt (s.f SYS_FLCTRL.STATE f == 4) c) (P := fun _ y => y.Shaken)
    (fun u a b hb => by rw [State.shakeRt, State.modRt_rt, if_neg hb])
    (fun u a => by rw [State.shakeRt, State.modRt_rt, if_pos rfl]; exact ⟨rfl, rfl, rfl, rfl⟩) (s.heldRts_nodup f) (s.enginesShaken f) c).1
  have kept : ((s.coresShaken f).rt c).flask = ((s.enginesShaken f).rt c).flask :=
    State.each_keeps (P := fun t => (t.rt c).flask = ((s.enginesShaken f).rt c).flask) rfl fun t k _ h => by
      rw [cleared]
      split
      · next e => exact e ▸ h
      · exact h
  have before : (s.enginesShaken f).rt c = s.rt c := by
    rw [(s.enginesShaken_leaves f).rt_same (by simp), (s.arraysShaken_leaves f).rt_same (by simp)]
  rw [(s.unitsShaken_leaves f).rt_same (by simp)]
  exact ⟨each, kept.trans (by rw [before])⟩

theorem State.shakeFlask_runner (own : s.fb SYS_FLRES.RUNNER f = true) :
    (s.shakeFlask f).pix.nodes = [] ∧ (s.shakeFlask f).pix.planCount = 0 := by
  have same : ((s.coresShaken f).savedShaken f).fb SYS_FLRES.RUNNER f = true := by
    rw [State.fb_eq, (State.leaves_savedShaken _ f).f_same SYS_FLRES.RUNNER f (by simp [noReg]),
      (s.coresShaken_leaves f).f_same SYS_FLRES.RUNNER f (by simp [noReg]),
      (s.enginesShaken_leaves f).f_same SYS_FLRES.RUNNER f (by simp [noReg]),
      (s.arraysShaken_leaves f).f_same SYS_FLRES.RUNNER f (by simp [SYS_FLRES.RUNNER]), ← State.fb_eq, own]
  have ways := (((s.coresShaken f).savedShaken f).shakeRunner).leaves_shakeWays f
  rw [State.shakeFlask_eq, if_pos same, ways.1 .nodes (by simp), ways.1 .planCount (by simp)]
  exact ⟨rfl, rfl⟩

theorem State.shakeFlask_held (u : TBUnit) : (s.shakeFlask f).unitHeld f u = s.unitHeld f u := by
  have all := s.leaves_shakeFlask f
  cases u with
  | array a => rw [State.unitHeld, State.unitHeld, all.f_same ARR_STATUS.FLASK a (by simp [shakeRegs, ARR_STATUS.FLASK])]
  | vec e => rw [State.unitHeld, State.unitHeld, all.f_same VEC_STATUS.FLASK e (by simp [shakeRegs, VEC_STATUS.FLASK])]
  | rt c => rw [State.unitHeld, State.unitHeld, (s.shakeFlask_rt f c).2]
  | runner => rw [State.unitHeld, State.unitHeld, State.fb_eq, State.fb_eq, all.f_same SYS_FLRES.RUNNER f (by simp [shakeRegs, SYS_FLRES.RUNNER])]

/-! ## The end of a shakeout -/

/-- The arrays of a flask return to the pool. -/
def State.arraysReturned : State := s.each (s.heldArrays f) fun s a => (s.setF ARR_STATUS.FLASK a 15).setF ARR_STATUS.LOGICAL a 0xFF

/-- Its engines, too. -/
def State.enginesReturned : State :=
  (s.arraysReturned f).each ((s.arraysReturned f).engines f) fun s e => (s.setF VEC_STATUS.FLASK e 15).setF VEC_STATUS.LOGICAL e 0xFF

theorem State.returnUnits_eq : s.returnUnits f
    = (s.enginesReturned f).each ((s.enginesReturned f).heldRts f) fun s c => s.modRt c fun x => { x with flask := none, logical := 0 } := (rfl)

theorem State.arraysReturned_leaves : Leaves [] (fun r _ => r = .arrStatus) s (s.arraysReturned f) :=
  .over (.refl _ _ s) fun _ _ h => .setF (.setF h rfl) rfl

theorem State.enginesReturned_leaves : Leaves [] (fun r _ => r = .vecStatus) (s.arraysReturned f) (s.enginesReturned f) :=
  .over (.refl _ _ _) fun _ _ h => .setF (.setF h rfl) rfl

theorem State.returnUnits_rts : Leaves [.rts] noReg (s.enginesReturned f) (s.returnUnits f) := by
  rw [State.returnUnits_eq]
  exact .over (.refl _ _ _) fun _ _ h => h.modRt

theorem State.leaves_returnUnits : Leaves [.rts] (fun r _ => r = .arrStatus ∨ r = .vecStatus) s (s.returnUnits f) :=
  (((s.arraysReturned_leaves f).mono (by simp) fun _ _ e => .inl e).into (s.enginesReturned_leaves f) (by simp) fun _ _ e => .inr e).into
    (s.returnUnits_rts f) (by simp) fun _ _ no => no.elim

/-- The arrays that the flask held are free, and the status of no other one changes. -/
theorem State.returnUnits_arrays :
    (a ∈ s.heldArrays f → (s.returnUnits f).f ARR_STATUS.FLASK a = 15 ∧ (s.returnUnits f).f ARR_STATUS.LOGICAL a = 0xFF)
      ∧ (a ∉ s.heldArrays f → (s.returnUnits f).r .arrStatus a = s.r .arrStatus a) := by
  have each : (a ∈ s.heldArrays f → bits ((s.arraysReturned f).r .arrStatus a) ARR_STATUS.FLASK.hi ARR_STATUS.FLASK.lo = 15
        ∧ bits ((s.arraysReturned f).r .arrStatus a) ARR_STATUS.LOGICAL.hi ARR_STATUS.LOGICAL.lo = 0xFF)
      ∧ (a ∉ s.heldArrays f → (s.arraysReturned f).r .arrStatus a = s.r .arrStatus a) :=
    State.each_units (v := fun s a => s.r .arrStatus a) (g := fun s a => (s.setF ARR_STATUS.FLASK a 15).setF ARR_STATUS.LOGICAL a 0xFF)
      (P := fun _ y => bits y ARR_STATUS.FLASK.hi ARR_STATUS.FLASK.lo = 15 ∧ bits y ARR_STATUS.LOGICAL.hi ARR_STATUS.LOGICAL.lo = 0xFF)
      (fun u a b hb => by
        have set : Leaves [] (oneReg .arrStatus a) u ((u.setF ARR_STATUS.FLASK a 15).setF ARR_STATUS.LOGICAL a 0xFF) :=
          .setF (.setF (.refl _ _ u) ⟨rfl, rfl⟩) ⟨rfl, rfl⟩
        exact set.2 .arrStatus b fun e => hb e.2)
      (fun u a => by
        have flask : ((u.setF ARR_STATUS.FLASK a 15).setF ARR_STATUS.LOGICAL a 0xFF).f ARR_STATUS.FLASK a = 15 := by
          rw [State.setF_f_apart _ _ _ _ _ _ (by decide) (by decide)]
          exact State.setF_f_width _ _ _ _ 4 (by decide) rfl
        have logical : ((u.setF ARR_STATUS.FLASK a 15).setF ARR_STATUS.LOGICAL a 0xFF).f ARR_STATUS.LOGICAL a = 0xFF :=
          State.setF_f_width _ _ _ _ 8 (by decide) rfl
        exact ⟨flask, logical⟩)
      (s.heldArrays_nodup f) s a
  have same : (s.returnUnits f).r .arrStatus a = (s.arraysReturned f).r .arrStatus a := by
    rw [(s.returnUnits_rts f).2 .arrStatus a (by simp [noReg]), (s.enginesReturned_leaves f).2 .arrStatus a (by simp)]
  have fields : ∀ x : Fld, x.reg = .arrStatus → (s.returnUnits f).f x a = bits ((s.arraysReturned f).r .arrStatus a) x.hi x.lo :=
    fun x hx => by rw [State.f, hx, same]
  rw [fields ARR_STATUS.FLASK rfl, fields ARR_STATUS.LOGICAL rfl, same]
  exact each

/-- A core keeps all but its flask and number. -/
theorem State.returnUnits_rt : ∃ fl lg, (s.returnUnits f).rt c = { s.rt c with flask := fl, logical := lg } := by
  have before : (s.enginesReturned f).rt c = s.rt c := by
    rw [(s.enginesReturned_leaves f).rt_same (by simp), (s.arraysReturned_leaves f).rt_same (by simp)]
  rw [State.returnUnits_eq]
  refine State.each_keeps (P := fun t => ∃ fl lg, t.rt c = { s.rt c with flask := fl, logical := lg }) ⟨_, _, before⟩ fun t k _ h => ?_
  obtain ⟨fl, lg, e⟩ := h
  rw [State.modRt_rt]
  split
  · next same =>
    subst same
    exact ⟨none, 0, by rw [e]⟩
  · exact ⟨fl, lg, e⟩

/-- A destroyed flask before it is free. -/
def State.destroyed : State := (((s.returnUnits f).modFlask f fun _ => {}).setF SYS_FLSHARE.ACCT f 0).setF POUR_FLAG.LAG f 0

theorem State.endDestroy_eq : s.endDestroy f = (s.destroyed f).freeFlask f := (rfl)

theorem State.destroyed_leaves : Leaves [.flasks] (fun r i => (r = .sysFlshare ∨ r = .pourFlag) ∧ i = f) (s.returnUnits f) (s.destroyed f) :=
  .setF (.setF (.modFlask (.refl _ _ _)) ⟨.inl rfl, rfl⟩) ⟨.inr rfl, rfl⟩

/-- The registers of a flask that the end of its shakeout may clear. -/
abbrev flaskRegs (f : Nat) (r : Reg) (i : Nat) : Prop :=
  (r = .sysFlctrl ∨ r = .sysFlres ∨ r = .sysFlshare ∨ r = .attFslice ∨ r = .pourFlag) ∧ i = f

abbrev endRegsOf (f : Nat) (destroy : Prop) (r : Reg) (i : Nat) : Prop :=
  flaskRegs f r i ∨ r = .memCways ∨ (destroy ∧ (r = .arrStatus ∨ r = .vecStatus))

theorem State.freed_regs {p : Prop} {r : Reg} {i : Nat} (h : freeRegs f r i) : endRegsOf f p r i := by
  obtain ⟨h | h | h | h, at_⟩ := h
  · exact .inl ⟨.inl h, at_⟩
  · exact .inl ⟨.inr (.inl h), at_⟩
  · exact .inr (.inl h)
  · exact .inl ⟨.inr (.inr (.inr (.inl h))), at_⟩

theorem State.leaves_endShake : Leaves [.flasks, .rts] (endRegsOf f (s.f SYS_FLCTRL.STATE f ≠ 2)) s (s.endShake f) := by
  unfold State.endShake
  split
  · exact .setF (.refl _ _ s) (.inl ⟨.inl rfl, rfl⟩)
  · next other =>
    rw [State.endDestroy_eq]
    exact (((s.leaves_returnUnits f).mono (by simp) fun _ _ e => .inr (.inr ⟨other, e⟩)).into (s.destroyed_leaves f) (by simp)
      fun _ _ e => by
        obtain ⟨e | e, at_⟩ := e
        · exact .inl ⟨.inr (.inr (.inl e)), at_⟩
        · exact .inl ⟨.inr (.inr (.inr (.inr e))), at_⟩).into (State.leaves_freeFlask _ f) (by simp) fun _ _ e => State.freed_regs f e

theorem State.endShake_state : (s.endShake f).f SYS_FLCTRL.STATE f = if s.f SYS_FLCTRL.STATE f = 2 then 3 else 0 := by
  unfold State.endShake
  split
  · exact State.setF_f_width _ _ _ _ 4 (by decide) rfl
  · exact (State.freeFlask_frees _ f).1

theorem State.endShake_rt : ∃ fl lg, (s.endShake f).rt c = { s.rt c with flask := fl, logical := lg } := by
  unfold State.endShake
  split
  · exact ⟨_, _, State.setF_rt ..⟩
  · obtain ⟨fl, lg, e⟩ := s.returnUnits_rt f c
    refine ⟨fl, lg, ?_⟩
    rw [State.endDestroy_eq, (State.leaves_freeFlask _ f).rt_same (by simp), (s.destroyed_leaves f).rt_same (by simp), e]

/-- An array that the flask does not hold keeps its status. -/
theorem State.endShake_other (free : a ∉ s.heldArrays f) : (s.endShake f).r .arrStatus a = s.r .arrStatus a := by
  unfold State.endShake
  split
  · have set : Leaves [] (oneReg .sysFlctrl f) s (s.setF SYS_FLCTRL.STATE f 3) := .setF (.refl _ _ s) ⟨rfl, rfl⟩
    exact set.2 .arrStatus a (by simp [oneReg])
  · rw [State.endDestroy_eq, (State.leaves_freeFlask _ f).2 .arrStatus a (by simp [freeRegs]),
      (s.destroyed_leaves f).2 .arrStatus a (by simp), (s.returnUnits_arrays f a).2 free]

/-- R161: the end of a DESTROY. -/
theorem State.endShake_destroyed (destroy : s.f SYS_FLCTRL.STATE f ≠ 2) :
    (∀ a ∈ s.heldArrays f, (s.endShake f).f ARR_STATUS.FLASK a = 15 ∧ (s.endShake f).f ARR_STATUS.LOGICAL a = 0xFF)
      ∧ (s.endShake f).flask f = {} ∧ (s.endShake f).r .sysFlres f = 0 ∧ (s.endShake f).f SYS_FLSHARE.ACCT f = 0
      ∧ (s.endShake f).f POUR_FLAG.LAG f = 0 := by
  have free := (s.destroyed f).leaves_freeFlask f
  have zero : (s.destroyed f).f SYS_FLSHARE.ACCT f = 0 ∧ (s.destroyed f).f POUR_FLAG.LAG f = 0 := by
    unfold State.destroyed
    refine ⟨?_, by rw [State.setF_f_same _ _ _ _ (by decide), Nat.zero_mod]⟩
    rw [State.setF_f_apart _ _ _ _ _ _ (by decide) (by decide), State.setF_f_same _ _ _ _ (by decide), Nat.zero_mod]
  have flask : (s.destroyed f).flask f = {} := by
    rw [State.destroyed, State.setF_flask, State.setF_flask, State.modFlask_flask, if_pos rfl]
  rw [State.endShake, if_neg destroy, State.endDestroy_eq]
  refine ⟨fun a ha => ?_, ?_, ((s.destroyed f).freeFlask_frees f).2.1, ?_, ?_⟩
  · rw [free.f_same ARR_STATUS.FLASK a (by simp [freeRegs, ARR_STATUS.FLASK]), free.f_same ARR_STATUS.LOGICAL a
      (by simp [freeRegs, ARR_STATUS.LOGICAL]), (s.destroyed_leaves f).f_same ARR_STATUS.FLASK a (by simp [ARR_STATUS.FLASK]),
      (s.destroyed_leaves f).f_same ARR_STATUS.LOGICAL a (by simp [ARR_STATUS.LOGICAL])]
    exact (s.returnUnits_arrays f a).1 ha
  · rw [free.flask_same (by simp), flask]
  · rw [free.f_same SYS_FLSHARE.ACCT f (by simp [freeRegs, SYS_FLSHARE.ACCT]), zero.1]
  · rw [free.f_same POUR_FLAG.LAG f (by simp [freeRegs, POUR_FLAG.LAG]), zero.2]

theorem State.endShake_fwClear (clear : (s.flask f).fwClear = false) : ((s.endShake f).flask f).fwClear = false := by
  by_cases create : s.f SYS_FLCTRL.STATE f = 2
  · rw [State.endShake, if_pos create, State.setF_flask, clear]
  · rw [(s.endShake_destroyed f create).2.1]

end

end Sys2Proof.Machine
end

section
/-! PROOFS. The commands of shakeout, and what O36 says (R219, R220). -/

set_option Elab.async false

namespace Sys2Proof.Machine

section
variable (s : State) (f a : Nat) (bad : List TBUnit)

theorem shakeoutDone_flask (hf : f < 8) : exec (.shakeoutDone f bad) s = .next (s.flaskShakeout f bad) := by
  rw [exec_shakeoutDone, execShakeoutDone, isFlask, decide_eq_true hf, Bool.true_or, unit_true, if_neg (by omega)]

theorem firmwareClearDone_flask (hf : f < 8) (up : s.cupolaUp = true) :
    exec (.firmwareClearDone f bad) s = .next (s.flaskClear f bad) := by
  rw [exec_firmwareClearDone, execFirmwareClearDone, isFlask, decide_eq_true hf, Bool.true_or, unit_true, up, if_neg (by decide),
    if_neg (by omega)]

/-- A flask that shakes out is being created or destroyed. -/
theorem State.state_of_shaking (h : s.shaking f = true) : s.f SYS_FLCTRL.STATE f = 2 ∨ s.f SYS_FLCTRL.STATE f = 4 := by
  rw [State.shaking, Bool.and_eq_true, Bool.or_eq_true] at h
  exact h.1.imp beq_iff_eq.1 beq_iff_eq.1

theorem State.shakeFlask_state : (s.shakeFlask f).f SYS_FLCTRL.STATE f = s.f SYS_FLCTRL.STATE f :=
  (s.leaves_shakeFlask f).f_same SYS_FLCTRL.STATE f (by simp [shakeRegs, SYS_FLCTRL.STATE])

theorem State.shakeFlask_arrays : (s.shakeFlask f).heldArrays f = s.heldArrays f := by
  have same : ∀ a, (s.shakeFlask f).f ARR_STATUS.FLASK a = s.f ARR_STATUS.FLASK a := fun a =>
    (s.leaves_shakeFlask f).f_same ARR_STATUS.FLASK a (by simp [shakeRegs, ARR_STATUS.FLASK])
  simp only [State.heldArrays, same]

/-- A shakeout whose units all read back as zero. -/
theorem State.flaskShakeout_ends (shaking : s.shaking f = true) (hw : (s.flask f).fwClear = false)
    (good : ∀ u ∈ bad, s.unitHeld f u = false) : s.flaskShakeout f bad = (s.shakeFlask f).endShake f := by
  have none : bad.any ((s.shakeFlask f).unitHeld f) = false := by
    rw [List.any_eq_false]
    intro u hu
    rw [s.shakeFlask_held f u, good u hu]
    decide
  unfold State.flaskShakeout
  rw [shaking, hw, if_neg (by decide)]
  dsimp only
  rw [none, if_neg (by decide)]

/-- One with a unit that does not. -/
theorem State.flaskShakeout_fails (shaking : s.shaking f = true) (hw : (s.flask f).fwClear = false)
    (fails : ∃ u ∈ bad, s.unitHeld f u = true) :
    s.flaskShakeout f bad = (s.shakeFlask f).modFlask f fun x => { x with fwClear := true } := by
  obtain ⟨u, hu, held⟩ := fails
  have some : bad.any ((s.shakeFlask f).unitHeld f) = true :=
    List.any_eq_true.2 ⟨u, hu, (s.shakeFlask_held f u).trans held⟩
  unfold State.flaskShakeout
  rw [shaking, hw, if_neg (by decide)]
  dsimp only
  rw [some, if_pos rfl]

/-- What the end of a shakeout shows. -/
theorem State.shaken_ends (shaking : s.shaking f = true) :
    ((s.shakeFlask f).endShake f).f SYS_FLCTRL.STATE f = (if s.f SYS_FLCTRL.STATE f = 2 then 3 else 0)
        ∧ (∀ a ∈ s.heldArrays f, (((s.shakeFlask f).endShake f).arr a).Shaken
            ∧ ((s.shakeFlask f).endShake f).f ARR_SATWIN.WIN_VALUES a = 0)
        ∧ (∀ e ∈ s.engines f, (((s.shakeFlask f).endShake f).vec e).Shaken
            ∧ ∀ h ∈ ((s.shakeFlask f).endShake f).mem.holders, h.who ≠ .vec e)
        ∧ (∀ c ∈ s.heldRts f, (((s.shakeFlask f).endShake f).rt c).Shaken)
        ∧ (s.fb SYS_FLRES.RUNNER f = true →
            ((s.shakeFlask f).endShake f).pix.nodes = [] ∧ ((s.shakeFlask f).endShake f).pix.planCount = 0)
        ∧ (∀ a, a ∉ s.heldArrays f → ((s.shakeFlask f).endShake f).arr a = s.arr a
            ∧ ((s.shakeFlask f).endShake f).r .arrStatus a = s.r .arrStatus a)
        ∧ (s.f SYS_FLCTRL.STATE f = 4 → (∀ a ∈ s.heldArrays f, ((s.shakeFlask f).endShake f).f ARR_STATUS.FLASK a = 15
              ∧ ((s.shakeFlask f).endShake f).f ARR_STATUS.LOGICAL a = 0xFF)
            ∧ ((s.shakeFlask f).endShake f).flask f = {} ∧ ((s.shakeFlask f).endShake f).r .sysFlres f = 0
            ∧ ((s.shakeFlask f).endShake f).f SYS_FLSHARE.ACCT f = 0 ∧ ((s.shakeFlask f).endShake f).f POUR_FLAG.LAG f = 0)
        ∧ Leaves [.arrays, .cache, .flasks, .holders, .nodes, .planCount, .runKept, .rts, .saved, .vecs]
            (fun r i => ((r = .sysFlctrl ∨ r = .sysFlres ∨ r = .sysFlshare ∨ r = .attFslice ∨ r = .pourFlag) ∧ i = f)
              ∨ r = .memCways ∨ (r = .arrSatwin ∧ i ∈ s.heldArrays f)
              ∨ (s.f SYS_FLCTRL.STATE f = 4 ∧ (r = .arrStatus ∨ r = .vecStatus))) s ((s.shakeFlask f).endShake f) := by
  have shook := s.leaves_shakeFlask f
  have state := s.shakeFlask_state f
  have held := s.shakeFlask_arrays f
  have arrs := s.shakeFlask_arr f
  have engines := fun e => s.shakeFlask_engine f e
  have rts := s.shakeFlask_rt f
  have runner := s.shakeFlask_runner f
  generalize s.shakeFlask f = u at shook state held arrs engines rts runner
  have ended := u.leaves_endShake f
  refine ⟨(u.endShake_state f).trans (by rw [state]), fun a ha => ?_, fun e he => ?_, fun c hc => ?_, fun own => ?_, fun a ha => ?_,
    fun destroy => ?_, ?_⟩
  · rw [ended.arr_same (by simp), ended.f_same ARR_SATWIN.WIN_VALUES a (by simp [endRegsOf, flaskRegs, ARR_SATWIN.WIN_VALUES])]
    exact (arrs a).1 ha
  · rw [ended.vec_same (by simp), ended.1 .holders (by simp)]
    exact engines e he
  · obtain ⟨fl, lg, e⟩ := u.endShake_rt f c
    rw [e]
    exact (rts c).1 hc
  · rw [ended.1 .nodes (by simp), ended.1 .planCount (by simp)]
    exact runner own
  · rw [ended.arr_same (by simp), u.endShake_other f a (by rw [held]; exact ha), shook.2 .arrStatus a (by simp [shakeRegs])]
    exact ⟨(arrs a).2 ha, rfl⟩
  · have returned := u.endShake_destroyed f (by rw [state, destroy]; decide)
    rwa [held] at returned
  · refine Leaves.into (shook.mono (by simp) fun r i e => ?_) ended (by simp) fun r i e => ?_
    · rcases e with e | e
      · exact .inr (.inl e)
      · exact .inr (.inr (.inl e))
    · rcases e with e | e | ⟨other, e⟩
      · exact .inl e
      · exact .inr (.inl e)
      · exact .inr (.inr (.inr ⟨(s.state_of_shaking f shaking).resolve_left (state ▸ other), e⟩))

/-! ## Firmware clearing -/

/-- The flask no longer waits for the firmware. -/
def State.fwCleared : State := s.modFlask f fun x => { x with fwClear := false }

theorem State.leaves_fwCleared : Leaves [.flasks] noReg s (s.fwCleared f) := .modFlask (.refl _ _ s)

theorem State.fwCleared_flask : ((s.fwCleared f).flask f).fwClear = false := by
  rw [State.fwCleared, State.modFlask_flask, if_pos rfl]

theorem State.flaskClear_good (shaking : s.shaking f = true) (hw : (s.flask f).fwClear = true)
    (good : ∀ u ∈ bad, s.unitHeld f u = false) : s.flaskClear f bad = (s.fwCleared f).endShake f := by
  have none : bad.filter (s.unitHeld f) = [] := by
    rw [List.filter_eq_nil_iff]
    intro u hu
    rw [good u hu]
    decide
  unfold State.flaskClear
  rw [shaking, hw, if_neg (by decide)]
  dsimp only
  rw [none]
  rfl

/-- An array that the firmware could not clear is withdrawn. -/
theorem State.withdrawUnit_array (working : s.f ARR_STATUS.STATE a ≠ 6) :
    (s.withdrawUnit (.array a)).f ARR_STATUS.STATE a = 5 ∧ (s.withdrawUnit (.array a)).f ARR_STATUS.FLASK a = 15
      ∧ (s.withdrawUnit (.array a)).f ARR_STATUS.LOGICAL a = 0xFF
      ∧ Leaves [.freeCtr, .record] (oneReg .arrStatus a) s (s.withdrawUnit (.array a)) := by
  unfold State.withdrawUnit
  dsimp only
  rw [if_neg working]
  have fresh : Leaves [.freeCtr, .record] (oneReg .arrStatus a) s s.fresh.2 := .fresh (.refl _ _ s)
  generalize s.fresh.2 = u at fresh
  refine ⟨?_, ?_, ?_, .modRec (.setF (.setF (.setF fresh ⟨rfl, rfl⟩) ⟨rfl, rfl⟩) ⟨rfl, rfl⟩) (by simp)⟩
  · rw [State.logEvent_f, State.setF_f_apart _ _ _ _ _ _ (by decide) (by decide), State.setF_f_apart _ _ _ _ _ _ (by decide) (by decide)]
    exact State.setF_f_width _ _ _ _ 4 (by decide) rfl
  · rw [State.logEvent_f, State.setF_f_apart _ _ _ _ _ _ (by decide) (by decide)]
    exact State.setF_f_width _ _ _ _ 4 (by decide) rfl
  · rw [State.logEvent_f]
    exact State.setF_f_width _ _ _ _ 8 (by decide) rfl

theorem State.flaskClear_array (shaking : s.shaking f = true) (hw : (s.flask f).fwClear = true)
    (held : s.f ARR_STATUS.FLASK a = f) : s.flaskClear f [.array a]
      = if ((s.fwCleared f).withdrawUnit (.array a)).f SYS_FLCTRL.STATE f = 2
        then (((s.fwCleared f).withdrawUnit (.array a)).returnUnits f).setF SYS_FLCTRL.STATE f 1
        else ((s.fwCleared f).withdrawUnit (.array a)).endShake f := by
  have own : s.unitHeld f (.array a) = true := by
    rw [State.unitHeld, held]
    exact beq_self_eq_true f
  have one : [TBUnit.array a].filter (s.unitHeld f) = [.array a] := by rw [List.filter_cons, own]; rfl
  unfold State.flaskClear
  rw [shaking, hw, if_neg (by decide)]
  dsimp only
  rw [one, if_neg (by simp), State.each, List.foldl_cons, List.foldl_nil, ← State.fwCleared]

/-- R220: a flask that gives up an array that the firmware could not clear. -/
theorem firmwareClearDone_withdraws (hf : f < 8) (shaking : s.shaking f = true) (hw : (s.flask f).fwClear = true)
    (up : s.cupolaUp = true) (held : s.f ARR_STATUS.FLASK a = f) (working : s.f ARR_STATUS.STATE a ≠ 6) :
    ∃ t, exec (.firmwareClearDone f [.array a]) s = .next t ∧ (t.flask f).fwClear = false
        ∧ t.f SYS_FLCTRL.STATE f = (if s.f SYS_FLCTRL.STATE f = 2 then 1 else 0)
        ∧ t.f ARR_STATUS.STATE a = 5 ∧ t.f ARR_STATUS.FLASK a = 15 ∧ t.f ARR_STATUS.LOGICAL a = 0xFF := by
  have run := firmwareClearDone_flask s f [.array a] hf up
  rw [s.flaskClear_array f a shaking hw held] at run
  have cleared := s.leaves_fwCleared f
  have clear := s.fwCleared_flask f
  obtain ⟨gone, pool, number, withdrew⟩ := (s.fwCleared f).withdrawUnit_array a
    (by rw [cleared.f_same ARR_STATUS.STATE a (by simp [noReg])]; exact working)
  have state : ((s.fwCleared f).withdrawUnit (.array a)).f SYS_FLCTRL.STATE f = s.f SYS_FLCTRL.STATE f := by
    rw [withdrew.f_same SYS_FLCTRL.STATE f (by simp [oneReg, SYS_FLCTRL.STATE]), cleared.f_same SYS_FLCTRL.STATE f (by simp [noReg])]
  have clear' : (((s.fwCleared f).withdrawUnit (.array a)).flask f).fwClear = false := by
    rw [withdrew.flask_same (by simp), clear]
  generalize (s.fwCleared f).withdrawUnit (.array a) = u at run gone pool number state clear'
  have free : a ∉ u.heldArrays f := fun mem => by
    have := (List.mem_filter.1 mem).2
    rw [pool, beq_iff_eq] at this
    omega
  have fields : ∀ t : State, t.r .arrStatus a = u.r .arrStatus a → t.f ARR_STATUS.STATE a = 5 ∧ t.f ARR_STATUS.FLASK a = 15
      ∧ t.f ARR_STATUS.LOGICAL a = 0xFF := fun t same => by
    have all : ∀ x : Fld, x.reg = .arrStatus → t.f x a = u.f x a := fun x hx => by rw [State.f, State.f, hx, same]
    rw [all _ rfl, all _ rfl, all _ rfl]
    exact ⟨gone, pool, number⟩
  rw [state] at run
  by_cases create : s.f SYS_FLCTRL.STATE f = 2
  · rw [if_pos create] at run
    have set : Leaves [] (oneReg .sysFlctrl f) (u.returnUnits f) ((u.returnUnits f).setF SYS_FLCTRL.STATE f 1) :=
      .setF (.refl _ _ _) ⟨rfl, rfl⟩
    refine ⟨_, run, ?_, ?_, fields _ ?_⟩
    · rw [State.setF_flask, (u.leaves_returnUnits f).flask_same (by simp), clear']
    · rw [if_pos create]
      exact State.setF_f_width _ _ _ _ 4 (by decide) rfl
    · rw [set.2 .arrStatus a (by simp [oneReg]), (u.returnUnits_arrays f a).2 free]
  · rw [if_neg create] at run
    refine ⟨_, run, u.endShake_fwClear f clear', ?_, fields _ (u.endShake_other f a free)⟩
    rw [u.endShake_state f, state, if_neg create, if_neg create]

/-! ## Arrays that no flask owns -/

/-- R220: the read-back of an array of the pool failed. -/
theorem shakeoutDone_pool (ha : a < 34) (pool : s.f ARR_STATUS.FLASK a = 15) (idle : (s.arr a).job = none)
    (empty : s.fb ARR_PROG.NEXT_VALID a = false) : exec (.shakeoutDone 15 [.array a]) s
      = .next ((s.giveBack a).modArr a fun x => { x with slice := none, lastFlask := none, clearing := true }) := by
  have one : s.clearedArrays [.array a] = [a] := by
    simp [State.clearedArrays, ha, pool, idle, empty]
  rw [exec_shakeoutDone, execShakeoutDone, (by decide : (isFlask 15 || (15 : Nat) == 15) = true), unit_true, if_pos rfl, State.poolShakeout,
    one]
  rfl

/-- An array of the pool that the firmware has cleared. -/
def State.poolCleared : State := (s.shakeArray a).modArr a fun x => { x with clearing := false }

theorem firmwareClearDone_pool (up : s.cupolaUp = true) : exec (.firmwareClearDone 15 []) s
    = .next (s.each (arrayIds.filter fun a => (s.arr a).clearing) State.poolCleared) := by
  rw [exec_firmwareClearDone, execFirmwareClearDone, (by decide : (isFlask 15 || (15 : Nat) == 15) = true), unit_true, up,
    if_neg (by decide), if_pos rfl]
  rfl

theorem State.poolCleared_arr : (∀ b, b ≠ a → (s.poolCleared a).arr b = s.arr b)
    ∧ ((s.poolCleared a).arr a).clearing = false ∧ ((s.poolCleared a).arr a).mould = [] ∧ ((s.poolCleared a).arr a).accum = [] := by
  obtain ⟨mould, -, accum, -⟩ := (s.shakeArray_here a).1
  refine ⟨fun b hb => ?_, ?_, ?_, ?_⟩
  · rw [State.poolCleared, State.modArr_arr, if_neg hb]
    exact congrArg Prod.fst (s.shakeArray_others a b hb)
  · rw [State.poolCleared, State.modArr_arr, if_pos rfl]
  · rw [State.poolCleared, State.modArr_arr, if_pos rfl]
    exact mould
  · rw [State.poolCleared, State.modArr_arr, if_pos rfl]
    exact accum

end

/-- Settles O36: the frames of CREATE by `createFlask_creates`, shakeouts by `shaken_ends` and `endShake_destroyed`. -/
theorem flasksAreBuiltClearedAndDestroyed : Obligations.FlasksAreBuiltClearedAndDestroyed := by
  unfold Obligations.FlasksAreBuiltClearedAndDestroyed
  refine ⟨⟨?_, ?_, ?_, ?_⟩, ?_, ?_, ?_, ?_, ?_, ?_, ?_⟩
  · intro s m f v hf acc new
    exact flresWrite_builds s m f v hf acc new
  · intro s m f v hf hl hp hk built other
    exact flresWrite_refused s m f v hf hl hp hk built other
  · intro s m f v hf acc no
    have written := s.leaves_wrote f (withBit v 59) .sysFlctrl
    obtain ⟨state, create, timed, arrays, vecs, rts, rtsKept, windows, arrs, leaves⟩ :=
      (s.wrote f (withBit v 59) .sysFlctrl).createFlask_creates f hf
    have timedWritten : (s.wrote f (withBit v 59) .sysFlctrl).fb SYS_FLCTRL.TIMED f = bit v.toNat 57 := by
      have field := s.wrote_rw f (withBit v 59) SYS_FLCTRL.TIMED (by simp [Reg.fieldsAt, Reg.fields, SYS_FLCTRL.TIMED])
      rw [State.fb_eq]
      exact (congrArg (· == 1) field).trans (bit_withBit_ne v 59 57 (by decide))
    rw [s.namedArrays_same f (s.wrote_f f _ .sysFlctrl SYS_FLRES.ARRAYS f (by decide))] at arrays windows arrs leaves
    rw [s.namedVecs_same f (s.wrote_f f _ .sysFlctrl SYS_FLRES.VECS f (by decide))] at vecs leaves
    rw [s.namedRts_same f (s.wrote_f f _ .sysFlctrl SYS_FLRES.RTCORES f (by decide))] at rts rtsKept
    refine ⟨_, flaskCreate_creates s m f v hf acc no, state, create, timed.trans timedWritten, arrays, vecs, rts, fun c hc => ?_, windows,
      fun a h => ?_, (written.mono (by simp) fun _ _ e => .inl e).into leaves (by simp) fun _ _ e => e⟩
    · rw [rtsKept c hc, written.rt_same (by simp)]
    · have same := written.arr_same (by simp) a
      rw [← same]
      exact arrs a (by rwa [same])
  · intro s m f v hf acc no
    exact flaskDestroy_leaves s m f v hf acc no
  · intro s f bad hf shaking hw good
    obtain ⟨state, arrays, engines, cores, runner, others, destroyed, leaves⟩ := s.shaken_ends f shaking
    refine ⟨_, by rw [shakeoutDone_flask s f bad hf, s.flaskShakeout_ends f bad shaking hw good], state, fun a ha => ?_, fun e he => ?_,
      cores, runner, others, destroyed, leaves⟩
    · obtain ⟨⟨mould, store, accum, active, shadow, ev⟩, window⟩ := arrays a ha
      exact ⟨mould, store, accum, active, shadow, ev, window⟩
    · obtain ⟨⟨vreg, store, xreg, freg, csr⟩, free⟩ := engines e he
      exact ⟨vreg, store, xreg, freg, csr, free⟩
  · intro s f bad hf shaking hw fails
    refine ⟨_, by rw [shakeoutDone_flask s f bad hf, s.flaskShakeout_fails f bad shaking hw fails], ?_, ?_⟩
    · rw [State.modFlask_flask, if_pos rfl]
    · rw [State.modFlask_f]
      exact s.shakeFlask_state f
  · intro s f bad hf not
    rw [shakeoutDone_flask s f bad hf, State.flaskShakeout, if_pos]
    rcases not with e | e <;> simp [e]
  · intro s f bad hf shaking hw up good
    have cleared := s.leaves_fwCleared f
    have state : (s.fwCleared f).f SYS_FLCTRL.STATE f = s.f SYS_FLCTRL.STATE f := cleared.f_same SYS_FLCTRL.STATE f (by simp [noReg])
    refine ⟨_, by rw [firmwareClearDone_flask s f bad hf up, s.flaskClear_good f bad shaking hw good],
      (s.fwCleared f).endShake_fwClear f (s.fwCleared_flask f), ?_, ?_⟩
    · rw [(s.fwCleared f).endShake_state f, state]
    · rw [((s.fwCleared f).leaves_endShake f).1 .record (by simp), cleared.1 .record (by simp)]
  · intro s f a hf _ shaking hw up held working
    exact firmwareClearDone_withdraws s f a hf shaking hw up held working
  · intro s a ha pool idle empty
    obtain ⟨leaves, others, -⟩ := s.giveBack_keeps a
    refine ⟨_, shakeoutDone_pool s a ha pool idle empty, ?_, ?_, fun b hb => ?_, .modArr (leaves)⟩
    · rw [State.modArr_arr, if_pos rfl]
    · unfold State.arrFree
      rw [State.modArr_arr, if_pos rfl]
      simp
    · rw [State.modArr_arr, if_neg hb, others b hb]
  · intro s up
    have each := State.each_units (v := State.arr) (g := State.poolCleared)
      (P := fun _ y => y.clearing = false ∧ y.mould = [] ∧ y.accum = [])
      (fun u a b hb => (u.poolCleared_arr a).1 b hb) (fun u a => (u.poolCleared_arr a).2)
      (List.Nodup.filter (fun a => (s.arr a).clearing) (List.nodup_range (n := 34))) s
    refine ⟨_, firmwareClearDone_pool s up, fun a ha => ?_, fun a clear => ?_, ?_⟩
    · by_cases due : (s.arr a).clearing = true
      · obtain ⟨off, mould, accum⟩ := (each a).1 (List.mem_filter.2 ⟨List.mem_range.2 ha, due⟩)
        exact ⟨off, fun _ => ⟨mould, accum⟩⟩
      · have same := (each a).2 fun h => due (List.mem_filter.1 h).2
        rw [arrayIds, same]
        exact ⟨by simpa using due, fun yes => absurd yes due⟩
    · exact (each a).2 fun h => by
        have := (List.mem_filter.1 h).2
        rw [clear] at this
        cases this
    · exact .over (.refl _ _ s) fun a t h => h.trans (.modArr ((t.leaves_shakeArray a).mono (by simp) fun _ _ e => e.1))

end Sys2Proof.Machine
end

section
/-! PROOFS. The banks of the pour table and the frame boundary, and what O37 says (R164, R165). -/

set_option Elab.async false

namespace Sys2Proof.Machine

/-! ## SWAP -/

section
variable (s : State) (m : Master) (v : Word)

/-- The register as a set of SWAP leaves it. -/
abbrev State.swapWrote : State := s.wrote 0 (withBit v 63) .pourCtrl

/-- What a set of SWAP starts: the validation begins anew, unless SWAP stood already. -/
def State.swapStarts (s : State) (old w : Nat) : State :=
  if (bit w 63 && !bit old 63) = true then s.modPour fun p => { p with validated := false } else s

theorem pourCtrl_wrote (w : Nat) (acc : s.accepts .pourCtrl 0 m .whole w) :
    s.regWrite .pourCtrl 0 m .whole w = (s.wrote 0 w .pourCtrl).swapStarts (s.r .pourCtrl 0) w := by
  rw [State.regWrite_whole s .pourCtrl 0 _ m acc (by decide) (by simp [State.hitsLock, Reg.fieldsAt, Reg.fields]) rfl]
  rfl

theorem swap_wrote (acc : s.accepts .pourCtrl 0 m .whole (withBit v 63)) : exec (.swap m v) s
    = .next (if s.fb POUR_CTRL.SWAP 0 = true then s.swapWrote v
        else (s.swapWrote v).modPour fun p => { p with validated := false }) := by
  have old : bit (s.r .pourCtrl 0) 63 = s.fb POUR_CTRL.SWAP 0 := by
    rw [State.fb, State.f, bit]
    rfl
  rw [exec_swap, execSwap, pourCtrl_wrote s m _ acc, State.swapStarts, bit_withBit v 63, old]
  cases s.fb POUR_CTRL.SWAP 0
  · rw [if_pos (by decide), if_neg (by decide)]
  · rw [if_neg (by decide), if_pos rfl]

theorem State.swapWrote_fields : (s.swapWrote v).fb POUR_CTRL.SWAP 0 = true ∧ (s.swapWrote v).fb POUR_CTRL.EN 0 = bit v.toNat 60
    ∧ (s.swapWrote v).f POUR_CTRL.SHADOW_FRAME_US 0 = bits v.toNat 59 40
    ∧ (s.swapWrote v).f POUR_CTRL.ACTIVE_BANK 0 = s.f POUR_CTRL.ACTIVE_BANK 0
    ∧ (s.swapWrote v).f POUR_CTRL.FRAME_US 0 = s.f POUR_CTRL.FRAME_US 0 := by
  refine ⟨s.wrote_w1s 0 _ POUR_CTRL.SWAP rfl (by simp [Reg.fieldsAt, Reg.fields, POUR_CTRL.SWAP]) (bit_withBit v 63), ?_, ?_,
    s.wrote_ro 0 _ POUR_CTRL.ACTIVE_BANK (by simp [Reg.fieldsAt, Reg.fields, POUR_CTRL.ACTIVE_BANK]),
    s.wrote_ro 0 _ POUR_CTRL.FRAME_US (by simp [Reg.fieldsAt, Reg.fields, POUR_CTRL.FRAME_US])⟩
  · have field := s.wrote_rw 0 (withBit v 63) POUR_CTRL.EN (by simp [Reg.fieldsAt, Reg.fields, POUR_CTRL.EN])
    rw [State.fb_eq]
    exact (congrArg (· == 1) field).trans (bit_withBit_ne v 63 60 (by decide))
  · exact (s.wrote_rw 0 (withBit v 63) POUR_CTRL.SHADOW_FRAME_US
      (by simp [Reg.fieldsAt, Reg.fields, POUR_CTRL.SHADOW_FRAME_US])).trans (bits_withBit_below v 59 40 (by decide))

end

/-! ## The validation -/

section
variable (s : State)

theorem State.bankError_lt (e : Nat) (h : s.bankError = some e) : e < 2 ^ 13 := by
  unfold State.bankError at h
  dsimp only at h
  split at h
  · have := Option.some.inj h
    omega
  · split at h
    · have := Option.some.inj h
      omega
    · cases h

/-- The register after a validation that failed. -/
def State.swapRefused (e : Nat) : State :=
  ((s.setF POUR_CTRL.SWAP 0 0).setF POUR_CTRL.SWAP_REFUSED 0 1).setF POUR_CTRL.BAD_ENTRY 0 e

theorem State.swapRefused_fields (e : Nat) (he : e < 2 ^ 13) : (s.swapRefused e).fb POUR_CTRL.SWAP 0 = false
    ∧ (s.swapRefused e).fb POUR_CTRL.SWAP_REFUSED 0 = true ∧ (s.swapRefused e).f POUR_CTRL.BAD_ENTRY 0 = e
    ∧ Leaves [] (oneReg .pourCtrl 0) s (s.swapRefused e) := by
  refine ⟨?_, ?_, ?_, .setF (.setF (.setF (.refl _ _ s) ⟨rfl, rfl⟩) ⟨rfl, rfl⟩) ⟨rfl, rfl⟩⟩
  · rw [State.fb_eq, State.swapRefused, State.setF_f_apart _ _ _ _ _ _ (by decide) (by decide),
      State.setF_f_apart _ _ _ _ _ _ (by decide) (by decide), State.setF_f_same _ _ _ _ (by decide)]
    rfl
  · refine State.fb_of_f ?_
    rw [State.swapRefused, State.setF_f_apart _ _ _ _ _ _ (by decide) (by decide)]
    exact State.setF_f_width _ _ _ _ 1 (by decide) rfl
  · exact (State.setF_f_width _ POUR_CTRL.BAD_ENTRY 0 e 13 (by decide) rfl).trans (Nat.mod_eq_of_lt he)

theorem swapValidated_passes (set : s.fb POUR_CTRL.SWAP 0 = true) (new : s.units.pour.validated = false) (good : s.bankError = none) :
    exec .swapValidated s = .next (s.modPour fun p => { p with validated := true }) := by
  rw [exec_swapValidated, execSwapValidated, swapValidatedGo, set, new, if_neg (by decide), good]

theorem swapValidated_fails (set : s.fb POUR_CTRL.SWAP 0 = true) (new : s.units.pour.validated = false) (e : Nat)
    (bad : s.bankError = some e) : exec .swapValidated s = .next (s.swapRefused e) := by
  rw [exec_swapValidated, execSwapValidated, swapValidatedGo, set, new, if_neg (by decide), bad, State.swapRefused]

/-! ## The work of a frame boundary -/

theorem State.incWrap_f_same (x : Fld) (i n : Nat) (h : x.fits) :
    (s.incWrap x i n).f x i = (s.f x i + n) % 2 ^ (x.hi + 1 - x.lo) := by
  rw [State.incWrap, State.setF_f_same _ _ _ _ h]

/-- The frame that begins: its time, and while the pour table is enabled its number. -/
def State.framed : State :=
  if s.fb POUR_CTRL.EN 0 = true then s.newFrame s.boundaryNs else s.modPour fun p => { p with frameNs := s.boundaryNs }

theorem State.leaves_framed : Leaves [.pour] (oneReg .pourStat 0) s s.framed := by
  unfold State.framed State.newFrame
  exact .ite (.incWrap (.modPour (.refl _ _ s)) ⟨rfl, rfl⟩) (.modPour (.refl _ _ s))

theorem State.framed_on (on : s.fb POUR_CTRL.EN 0 = true) : s.framed = s.newFrame s.boundaryNs := if_pos on

theorem State.framed_pour : s.framed.units.pour.frameNs = s.boundaryNs ∧ s.framed.units.pour.validated = s.units.pour.validated
    ∧ (s.fb POUR_CTRL.EN 0 = true → s.framed.units.pour.started = []) := by
  cases on : s.fb POUR_CTRL.EN 0 with
  | true =>
    rw [s.framed_on on, State.newFrame, State.incWrap_units, State.modPour_pour]
    exact ⟨rfl, rfl, fun _ => rfl⟩
  | false =>
    rw [State.framed, on, if_neg (by decide), State.modPour_pour]
    exact ⟨rfl, rfl, nofun⟩

theorem State.framed_frame : s.framed.f POUR_STAT.FRAME 0
    = if s.fb POUR_CTRL.EN 0 = true then (s.f POUR_STAT.FRAME 0 + 1) % 2 ^ 32 else s.f POUR_STAT.FRAME 0 := by
  cases on : s.fb POUR_CTRL.EN 0 with
  | true =>
    rw [s.framed_on on, State.newFrame, State.incWrap_f_same _ _ _ _ (by decide), if_pos rfl, State.modPour_f]
    exact congrArg _ (by decide)
  | false => rw [State.framed, on, if_neg (by decide), if_neg (by decide), State.modPour_f]

theorem State.exchangeBanks_none (h : s.units.pour.validated = false) : s.exchangeBanks = s := by
  rw [State.exchangeBanks, h]
  rfl

theorem State.leaves_exchangeBanks : Leaves [.pour] (oneReg .pourCtrl 0) s s.exchangeBanks := by
  unfold State.exchangeBanks
  exact .ite (.refl _ _ s) (.modPour (.setF (.setF (.setF (.refl _ _ s) ⟨rfl, rfl⟩) ⟨rfl, rfl⟩) ⟨rfl, rfl⟩))

theorem State.exchangeBanks_pour : s.exchangeBanks.units.pour = { s.units.pour with validated := false } := by
  cases h : s.units.pour.validated with
  | true =>
    rw [State.exchangeBanks, h, if_neg (by decide), State.modPour_pour, State.setF_units, State.setF_units, State.setF_units]
  | false => rw [s.exchangeBanks_none h, ← h]

theorem State.exchangeBanks_fields (h : s.units.pour.validated = true) :
    s.exchangeBanks.f POUR_CTRL.ACTIVE_BANK 0 = 1 - s.f POUR_CTRL.ACTIVE_BANK 0
      ∧ s.exchangeBanks.f POUR_CTRL.FRAME_US 0 = s.f POUR_CTRL.SHADOW_FRAME_US 0 ∧ s.exchangeBanks.fb POUR_CTRL.SWAP 0 = false := by
  rw [State.exchangeBanks, h, if_neg (by decide)]
  refine ⟨?_, ?_, ?_⟩
  · rw [State.modPour_f, State.setF_f_apart _ _ _ _ _ _ (by decide) (by decide), State.setF_f_apart _ _ _ _ _ _ (by decide) (by decide)]
    exact (State.setF_f_width _ POUR_CTRL.ACTIVE_BANK 0 _ 1 (by decide) rfl).trans (Nat.mod_eq_of_lt (by omega))
  · rw [State.modPour_f, State.setF_f_apart _ _ _ _ _ _ (by decide) (by decide)]
    exact (State.setF_f_width _ POUR_CTRL.FRAME_US 0 _ 20 (by decide) rfl).trans
      (Nat.mod_eq_of_lt (s.f_lt POUR_CTRL.SHADOW_FRAME_US 0))
  · rw [State.fb_eq, State.modPour_f, State.setF_f_same _ _ _ _ (by decide)]
    rfl

/-- What the rest of the boundary may change. -/
def laterRegs (r : Reg) (i : Nat) : Prop := boundaryRegs r i ∨ r = .arrRate

def laterParts : List Part :=
  [.arrays, .flasks, .freeCtr, .holders, .jobs, .keptIrqs, .moves, .nextMove, .outbox, .safePins, .record, .rts,
    .runnerDue, .runnerOut, .vecs]

/-- A step of the boundary's work after the banks: the pairs are not among what it may change. -/
abbrev LaterTo (s t : State) : Prop := Leaves laterParts laterRegs s t

end

section
variable {s t : State}

theorem LaterTo.passed (h : Passed s t) : LaterTo s t :=
  h.leaves.mono (by simp [boundaryParts, laterParts]) fun _ _ e => .inl e

theorem LaterTo.quiet {ps : List Part} {q : Reg → Nat → Prop} (h : Leaves ps q s t) (hp : ps ⊆ laterParts := by simp [laterParts])
    (hq : ∀ r i, q r i → laterRegs r i) : LaterTo s t := h.mono hp hq

theorem laterRegs_status (i : Nat) : laterRegs .arrStatus i := .inl (.inr (.inr (.inl rfl)))
theorem laterRegs_rate (i : Nat) : laterRegs .arrRate i := .inr rfl

theorem LaterTo.safety (s : State) (u d : Nat) : LaterTo s (s.safety SYS_SAFESTAT.SPARE_OUT u d) := LaterTo.passed (.safety s u d)

theorem LaterTo.mapSpare (s : State) (a sp cause : Nat) (image : Bool) : LaterTo s (s.mapSpare a sp cause image) := by
  have quiet := LaterTo.passed (.of_quiet (QuietTo.mapSpare s a sp cause))
  cases image with
  | false => exact quiet
  | true =>
    by_cases pages : 0 < s.f ARR_RESIDENT.IMG_PAGES a
    · have same : s.mapSpare a sp cause true
          = ((s.mapSpare a sp cause false).addMove
            { id := 0, kind := .spareImage sp, part := s.f ARR_STATUS.FLASK a, inst := 0, toMem := false
              va := (s.mapSpare a sp cause false).f ARR_RESIDENT.IMG_ADDR sp * 2 ^ 22, maddr := 0
              len := s.f ARR_RESIDENT.IMG_PAGES a * 4096 }).modArr sp fun x => { x with copying := true } := by
        simp only [State.mapSpare, Bool.true_and, decide_eq_true pages, Bool.false_and, if_true, Bool.false_eq_true, if_false]
      rw [same]
      exact .modArr (quiet.trans (LaterTo.passed (.addMove _ _))) (by simp [laterParts])
    · have same : s.mapSpare a sp cause true = s.mapSpare a sp cause false := by
        simp only [State.mapSpare, Bool.true_and, decide_eq_false pages, Bool.false_and]
      rw [same]
      exact quiet

theorem LaterTo.replaceArray (s : State) (a st cause : Nat) (image : Bool) : LaterTo s (s.replaceArray a st cause image) := by
  unfold State.replaceArray
  split
  · next sp _ =>
    have shaken : LaterTo s (((s.mapSpare a sp cause image).setF ARR_STATUS.STATE a st).shakeArray a) :=
      (Leaves.setF (LaterTo.mapSpare s a sp cause image) (laterRegs_status a)).trans
        (LaterTo.passed (.of_quiet (QuietTo.shakeArray (.refl _ _ _) a)))
    exact .ite (.modRec (.modRec shaken (by simp [laterParts])) (by simp [laterParts])) shaken
  · exact LaterTo.safety s a cause

theorem LaterTo.withdrawSlow (s : State) (a : Nat) : LaterTo s (s.withdrawSlow a) := by
  have cleared : LaterTo s (s.modArr a fun x => { x with withdrawDue := none }) := .modArr (.refl _ _ s) (by simp [laterParts])
  unfold State.withdrawSlow
  dsimp only
  split
  · exact cleared.trans (LaterTo.replaceArray _ a 5 3 true)
  · exact .emit (.fresh cleared (by simp [laterParts])) (by simp [laterParts])

theorem LaterTo.monitorFrame (s : State) (a : Nat) : LaterTo s (s.monitorFrame a) := by
  have ratio : ∀ n, LaterTo s ((s.setF ARR_RATE.RATIO a n).modArr a fun x => { x with estSum := 0, busySum := 0 }) := fun n =>
    .modArr (.setF (.refl _ _ s) (laterRegs_rate a)) (by simp [laterParts])
  unfold State.monitorFrame
  dsimp only
  refine .ite (.refl _ _ s) (.ite (.setF (ratio _) (laterRegs_rate a)) (.ite (.modArr (.modRec (.setF (.incSat (ratio _)
    (laterRegs_rate a)) (laterRegs_status a)) (by simp [laterParts])) (by simp [laterParts])) (.incSat (ratio _) (laterRegs_rate a))))

theorem LaterTo.withdrawRt (s : State) (c : Nat) : LaterTo s (s.withdrawRt c) := by
  unfold State.withdrawRt
  dsimp only
  have out : ∀ g h, LaterTo s ((s.modRt c g).modRec h) := fun g h => .modRec (.modRt (.refl _ _ s) (by simp [laterParts])) (by simp [laterParts])
  refine .ite (out _ _) ?_
  split
  · exact .modRt (out _ _) (by simp [laterParts])
  · exact (out _ _).trans (LaterTo.safety _ c 2)

theorem LaterTo.boundaryArrays (s : State) : LaterTo s s.boundaryArrays := by
  unfold State.boundaryArrays
  refine .over (.over (.over (.refl _ _ s) fun a t h => ?_) fun a t h => ?_) fun a t h => ?_
  · exact h.trans ((Leaves.modArr (.refl _ _ t) (by simp [laterParts])).trans (LaterTo.replaceArray _ a 6 _ true))
  · exact h.trans (LaterTo.withdrawSlow t a)
  · exact h.trans (LaterTo.monitorFrame t a)

/-- The runner that failed its test bar is withdrawn. -/
def State.runnerGone (s : State) : State := { s with units.runnerDue := false, units.runnerOut := true }

theorem LaterTo.runnerGone (s : State) : LaterTo s s.runnerGone :=
  .parts (.refl _ _ s) (fun p hp => by cases p <;> first | rfl | simp [laterParts] at hp)

theorem LaterTo.boundaryOthers (s : State) : LaterTo s s.boundaryOthers := by
  have others : ∀ t, LaterTo s t → LaterTo s (if t.units.runnerDue = true then t.runnerGone else t) := fun t h =>
    .ite (h.trans (LaterTo.runnerGone t)) h
  unfold State.boundaryOthers
  refine others _ (.over (.over (.refl _ _ s) fun e t h => ?_) fun c t h => ?_)
  · exact (h.withdrawVec (by simp [laterParts]) (.inl (.inr (.inl rfl)))).trans (LaterTo.safety _ _ _)
  · exact h.trans (LaterTo.withdrawRt t c)

theorem LaterTo.jobs (h : Leaves [.jobs] noReg s t) : LaterTo s t := h.mono (by simp [laterParts]) fun _ _ no => no.elim

theorem leaves_bindList (frame pos : Nat) (js : List Nat) (s : State) : Leaves [.jobs] noReg s (bindList frame pos js s) := by
  induction js generalizing pos s with
  | nil => exact .refl _ _ s
  | cons j js ih => exact (Leaves.modJob (.refl _ _ s)).trans (ih (pos + 1) _)

theorem State.leaves_bindFrame (s : State) (frame : Nat) : Leaves [.jobs] noReg s (s.bindFrame frame) :=
  .over (.refl _ _ s) fun _ _ h => (Leaves.over h fun _ _ g => .endJob g).trans (leaves_bindList frame 0 _ _)

theorem State.leaves_loseBound (s : State) : Leaves [.jobs] noReg s s.loseBound := .over (.refl _ _ s) fun _ _ h => .endJob h

/-! ### Pairs on which the comparator copies disagreed -/

/-- A pair is given up: the others stay. -/
theorem State.dropSplit_drops (s : State) (p : Pair) :
    Leaves (.pairs :: laterParts) laterRegs s (s.dropSplit p)
      ∧ (s.dropSplit p).units.pairs = s.units.pairs.filter fun q => !(q.vec == p.vec && (q.pri == p.pri || q.rc == p.pri)) := by
  have dropped : Leaves [.pairs] noReg s (s.dropPair p.vec p.pri) := .one .pairs (.refl _ _ s) (by simp)
  have ended : LaterTo (s.dropPair p.vec p.pri) ((s.dropPair p.vec p.pri).endJob p.job stJobLost (some p.tile)) :=
    LaterTo.jobs (.endJob (.refl _ _ _))
  have rest : LaterTo (s.dropPair p.vec p.pri) (s.dropSplit p) := by
    unfold State.dropSplit
    exact .modFlask ((ended.trans (LaterTo.passed (.passUnit _ p.vec p.pri))).trans (LaterTo.passed (.passUnit _ p.vec p.rc))) (by simp [laterParts])
  exact ⟨(dropped.mono (by simp) fun _ _ no => no.elim).into rest (by simp [laterParts]) fun _ _ e => e,
    rest.1 .pairs (by simp [laterParts])⟩

/-- What giving up the pairs of a list leaves. -/
theorem State.dropSplits_drop (ps : List Pair) (s : State) :
    Leaves (.pairs :: laterParts) laterRegs s (ps.foldl State.dropSplit s)
      ∧ ∀ q ∈ (ps.foldl State.dropSplit s).units.pairs, q ∈ s.units.pairs ∧ q ∉ ps := by
  induction ps generalizing s with
  | nil => exact ⟨.refl _ _ s, fun q hq => ⟨hq, List.not_mem_nil⟩⟩
  | cons p ps ih =>
    obtain ⟨leaves, pairs⟩ := s.dropSplit_drops p
    obtain ⟨leaves', kept⟩ := ih (s.dropSplit p)
    refine ⟨leaves.trans leaves', fun q hq => ?_⟩
    obtain ⟨mem, apart⟩ := kept q hq
    rw [pairs, List.mem_filter] at mem
    refine ⟨mem.1, fun here => ?_⟩
    rcases List.mem_cons.1 here with e | e
    · have := mem.2
      rw [e] at this
      simp at this
    · exact apart e

theorem State.loseSplit_loses (s : State) : Leaves (.pairs :: laterParts) laterRegs s s.loseSplit
    ∧ ∀ p ∈ s.loseSplit.units.pairs, p ∈ s.units.pairs ∧ p.split = false := by
  obtain ⟨leaves, kept⟩ := State.dropSplits_drop (s.units.pairs.filter Pair.split) s
  refine ⟨leaves, fun p hp => ?_⟩
  obtain ⟨mem, apart⟩ := kept p hp
  refine ⟨mem, ?_⟩
  cases split : p.split with
  | true => exact absurd (List.mem_filter.2 ⟨mem, split⟩) apart
  | false => rfl

end

section
variable (s : State)

/-- The state when the frame and the banks have been exchanged. -/
def State.exchanged : State := s.framed.exchangeBanks

theorem frameBoundary_none (no : s.atBoundary = false) : exec .frameBoundary s = .next s := by
  rw [exec_frameBoundary, execFrameBoundary, frameBoundaryGo, no]
  rfl

/-- What follows the exchange. -/
theorem frameBoundary_runs (yes : s.atBoundary = true) : ∃ t, exec .frameBoundary s = .next t
    ∧ Leaves (.pairs :: laterParts) laterRegs s.exchanged t ∧ ∀ p ∈ t.units.pairs, p ∈ s.units.pairs ∧ p.split = false := by
  obtain ⟨lost, pairs⟩ := s.exchanged.loseSplit_loses
  have bound : LaterTo s.exchanged.loseSplit s.exchanged.loseSplit.loseBound := LaterTo.jobs (State.leaves_loseBound _)
  have binds : LaterTo s.exchanged.loseSplit (if s.fb POUR_CTRL.EN 0 = true
      then s.exchanged.loseSplit.loseBound.bindFrame (s.exchanged.loseSplit.loseBound.f POUR_STAT.FRAME 0)
      else s.exchanged.loseSplit.loseBound) :=
    .ite (bound.trans (LaterTo.jobs (State.leaves_bindFrame _ _))) bound
  have rest := (binds.trans (LaterTo.boundaryArrays _)).trans (LaterTo.boundaryOthers _)
  refine ⟨_, ?_, lost.into rest (by simp [laterParts]) fun _ _ e => e, ?_⟩
  · rw [exec_frameBoundary, execFrameBoundary, frameBoundaryGo, yes, if_neg (by decide)]
    dsimp only
    rw [← State.framed, ← State.exchanged]
  · have before : s.exchanged.units.pairs = s.units.pairs :=
      ((s.framed.leaves_exchangeBanks).1 .pairs (by simp)).trans ((s.leaves_framed).1 .pairs (by simp))
    rw [rest.1 .pairs (by simp [laterParts]), ← before]
    exact pairs

/-- What is seen of the frame and the banks after a boundary. -/
theorem State.exchanged_shows : s.exchanged.units.pour.frameNs = s.boundaryNs
    ∧ (s.fb POUR_CTRL.EN 0 = true → s.exchanged.units.pour.started = []) ∧ s.exchanged.units.pour.validated = false
    ∧ s.exchanged.f POUR_STAT.FRAME 0
      = (if s.fb POUR_CTRL.EN 0 = true then (s.f POUR_STAT.FRAME 0 + 1) % 2 ^ 32 else s.f POUR_STAT.FRAME 0)
    ∧ Leaves [.pour] (fun r i => (r = .pourCtrl ∨ r = .pourStat) ∧ i = 0) s s.exchanged := by
  obtain ⟨time, -, started⟩ := s.framed_pour
  have pour := s.framed.exchangeBanks_pour
  have leaves := s.framed.leaves_exchangeBanks
  refine ⟨?_, fun on => ?_, ?_, ?_, ?_⟩
  · rw [State.exchanged, pour, time]
  · rw [State.exchanged, pour, started on]
  · rw [State.exchanged, pour]
  · rw [State.exchanged, leaves.f_same POUR_STAT.FRAME 0 (by simp [oneReg, POUR_STAT.FRAME]), s.framed_frame]
  · exact ((s.leaves_framed).mono (by simp) fun _ _ e => ⟨.inr e.1, e.2⟩).into leaves (by simp) fun _ _ e => ⟨.inl e.1, e.2⟩

theorem State.exchanged_swaps (ready : s.units.pour.validated = true) :
    s.exchanged.f POUR_CTRL.ACTIVE_BANK 0 = 1 - s.f POUR_CTRL.ACTIVE_BANK 0
      ∧ s.exchanged.f POUR_CTRL.FRAME_US 0 = s.f POUR_CTRL.SHADOW_FRAME_US 0 ∧ s.exchanged.fb POUR_CTRL.SWAP 0 = false := by
  have framed := s.leaves_framed
  obtain ⟨bank, frame, swap⟩ := s.framed.exchangeBanks_fields (s.framed_pour.2.1.trans ready)
  rw [framed.f_same POUR_CTRL.ACTIVE_BANK 0 (by simp [oneReg, POUR_CTRL.ACTIVE_BANK])] at bank
  rw [framed.f_same POUR_CTRL.SHADOW_FRAME_US 0 (by simp [oneReg, POUR_CTRL.SHADOW_FRAME_US])] at frame
  exact ⟨bank, frame, swap⟩

theorem State.exchanged_keeps (not : s.units.pour.validated = false) : s.exchanged.r .pourCtrl 0 = s.r .pourCtrl 0 := by
  rw [State.exchanged, s.framed.exchangeBanks_none (s.framed_pour.2.1.trans not), s.leaves_framed.2 .pourCtrl 0 (by simp [oneReg])]

theorem laterRegs_pour {r : Reg} {i : Nat} (h : r = .pourCtrl ∨ r = .pourStat) : ¬ laterRegs r i := by
  rcases h with e | e <;> simp [e, laterRegs, boundaryRegs]

/-! ## SPARE_COPY_DONE -/

theorem spareCopyDone_runs (a : Nat) (ha : a < 34) : exec (.spareCopyDone a) s
    = .next (if (s.mem.moves.any fun m => m.kind == .spareImage a) = true then s else s.modArr a fun x => { x with copying := false }) := by
  rw [exec_spareCopyDone, execSpareCopyDone, isArray, decide_eq_true ha, unit_true, spareCopyGo]

end

/-- Settles O37: the boundary by `frameBoundary_runs` over the state with exchanged banks (`exchanged_shows`). -/
theorem banksAreValidatedAndExchangedAtABoundary : Obligations.BanksAreValidatedAndExchangedAtABoundary := by
  unfold Obligations.BanksAreValidatedAndExchangedAtABoundary
  refine ⟨?_, ?_, ?_, ?_, ?_, ?_⟩
  · intro s m v acc
    have run := swap_wrote s m v acc
    obtain ⟨swap, en, frame, bank, grid⟩ := s.swapWrote_fields v
    have wrote : Leaves [.pour] (oneReg .pourCtrl 0) s (s.swapWrote v) := (s.leaves_wrote 0 _ .pourCtrl).mono (by simp) fun _ _ e => e
    cases set : s.fb POUR_CTRL.SWAP 0 with
    | true =>
      rw [set, if_pos rfl] at run
      exact ⟨_, run, swap, en, frame, bank, grid, nofun, wrote⟩
    | false =>
      rw [set, if_neg (by decide)] at run
      have kept : (s.swapWrote v).units.pour = s.units.pour := (s.leaves_wrote 0 _ .pourCtrl).1 .pour (by simp)
      refine ⟨_, run, ?_, ?_, ?_, ?_, ?_, fun _ => by rw [State.modPour_pour, kept], .modPour wrote⟩
      · rw [State.fb, State.modPour_f, ← State.fb, swap]
      · rw [State.fb, State.modPour_f, ← State.fb, en]
      · rw [State.modPour_f, frame]
      · rw [State.modPour_f, bank]
      · rw [State.modPour_f, grid]
  · intro s set new
    exact ⟨fun good => ⟨_, swapValidated_passes s set new good, rfl, .modPour (.refl _ _ s)⟩,
      fun e bad => ⟨_, swapValidated_fails s set new e bad, s.swapRefused_fields e (s.bankError_lt e bad)⟩⟩
  · intro s h
    rw [exec_swapValidated, execSwapValidated, swapValidatedGo, if_pos]
    rcases h with e | e <;> simp [e]
  · intro s yes
    obtain ⟨t, run, later, pairs⟩ := frameBoundary_runs s yes
    obtain ⟨time, started, validated, frame, leaves⟩ := s.exchanged_shows
    have pour := later.1 .pour (by simp [laterParts])
    have stat : t.f POUR_STAT.FRAME 0 = s.exchanged.f POUR_STAT.FRAME 0 := later.f_same _ _ (laterRegs_pour (.inr rfl))
    have ctrl : t.r .pourCtrl 0 = s.exchanged.r .pourCtrl 0 := later.2 _ _ (laterRegs_pour (.inl rfl))
    have ctrlF : ∀ x : Fld, x.reg = .pourCtrl → t.f x 0 = s.exchanged.f x 0 := fun x hx => by rw [State.f, State.f, hx, ctrl]
    rw [← stat] at frame
    refine ⟨t, run, by rw [pour, time], fun on => ⟨by rw [frame, if_pos on], by rw [pour, started on]⟩,
      fun off => by rw [frame, off, if_neg (by decide)], fun ready => ?_, fun not => ctrl.trans (s.exchanged_keeps not), pairs, ?_⟩
    · obtain ⟨bank, grid, swap⟩ := s.exchanged_swaps ready
      exact ⟨(ctrlF _ rfl).trans bank, (ctrlF _ rfl).trans grid, by rw [State.fb_eq, ctrlF _ rfl, ← State.fb_eq, swap], by rw [pour, validated]⟩
    · refine Leaves.into (leaves.mono (by simp) fun r i e => .inl ⟨?_, e.2⟩) later (by simp [laterParts]) fun r i e => ?_
      · exact e.1.elim .inl fun h => .inr (.inl h)
      · rcases e with (⟨e, zero⟩ | e | e | e | e | e) | e
        · exact .inl ⟨.inr (.inr e), zero⟩
        all_goals simp [e]
  · exact frameBoundary_none
  · intro s a ha
    have run := spareCopyDone_runs s a ha
    refine ⟨fun no => ?_, fun ⟨m, hm, kind⟩ => ?_⟩
    · rw [if_neg] at run
      · exact ⟨_, run, by rw [State.modArr_arr, if_pos rfl], fun b hb => by rw [State.modArr_arr, if_neg hb], .modArr (.refl _ _ s)⟩
      · rw [List.any_eq_true]
        rintro ⟨m, hm, kind⟩
        exact no m hm (beq_iff_eq.1 kind)
    · rw [if_pos] at run
      · exact run
      · rw [List.any_eq_true]
        exact ⟨m, hm, beq_iff_eq.2 kind⟩

end Sys2Proof.Machine
end

section
/-! PROOFS. What the end of an entry and the start of an execution change (R135 to R139, R170). -/

set_option Elab.async false

namespace Sys2Proof.Machine

/-! ## An execution ends -/

/-- The parts that the end of an execution may change: the pour table is not among them. -/
def endParts : List Part :=
  [.arrays, .flasks, .freeCtr, .jobs, .keptIrqs, .moves, .nextMove, .outbox, .pairs, .safePins, .record, .rts, .vecs]

abbrev EndsTo (s t : State) : Prop := Leaves endParts anyReg s t

section
variable (s : State)

theorem EndsTo.of {ps : List Part} {q : Reg → Nat → Prop} {s t : State} (h : Leaves ps q s t) (hp : ps ⊆ endParts := by simp [endParts]) :
    EndsTo s t := h.mono hp fun _ _ _ => trivial

theorem EndsTo.passUnits (p : Pair) : EndsTo s ((s.passUnit p.vec p.pri).passUnit p.vec p.rc) :=
  EndsTo.of ((Passed.passUnit s p.vec p.pri).trans (.passUnit _ p.vec p.rc)).leaves (by simp [boundaryParts, endParts])

theorem EndsTo.safety (x : Fld) (u d : Nat) (hx : x.reg = .sysSafestat) : EndsTo s (s.safety x u d) := by
  have safe : Leaves safetyParts (oneReg .sysSafestat 0) s (s.safety x u d) := .safety (.refl _ _ s) hx (List.Subset.refl _)
  exact EndsTo.of safe (by simp [safetyParts, endParts])

theorem EndsTo.dropPair (vec : Bool) (u : Nat) : EndsTo s (s.dropPair vec u) := .one .pairs (.refl _ _ s) (by simp [endParts])

theorem EndsTo.faultJob (j st tile : Nat) : EndsTo s (s.faultJob j st tile) := by
  unfold State.faultJob
  split
  · exact .refl _ _ s
  · dsimp only
    generalize s.lostJobs j = lost
    generalize s.involved j = stopped
    have ended : ∀ f, EndsTo s (((s.endJob j st (some tile)).dropTiles f j).each lost fun t k =>
        (t.endJob k stJobLost none).dropTiles f k) := fun f =>
      EndsTo.of (ps := [.jobs, .flasks]) (q := noReg) (.over (.dropTiles (.endJob (.refl _ _ s))) fun _ _ h => .dropTiles (.endJob h))
    exact .ite (ended _) ((ended _).trans (EndsTo.of (State.leaves_stopArrays _ stopped)))

theorem EndsTo.splitPair (p : Pair) : EndsTo s (s.splitPair p) := by
  have noted : Leaves [.flasks, .pairs] noReg s ((s.modFlask p.flask fun x => { x with cmpFault := false }).modPair p.vec p.pri
      fun q => { q with split := true }) := .modPair (.modFlask (.refl _ _ s))
  exact (EndsTo.of noted).trans (EndsTo.safety _ SYS_SAFESTAT.CMP_DUP p.flask 0 rfl)

theorem EndsTo.rerun (vec : Bool) (u : Nat) (transformed : Bool) : EndsTo s (s.rerun vec u transformed) := by
  have left : Leaves [.vecs, .arrays] anyReg s (s.rerun vec u transformed) := by
    unfold State.rerun
    exact .ite (.setF (.modVec (.refl _ _ s)) trivial) (.setF (.setF (.modArr (.refl _ _ s)) trivial) trivial)
  exact EndsTo.of left

theorem EndsTo.reexecute (f : Nat) (vec : Bool) (u : Nat) (transformed : Bool) :
    EndsTo s ((s.startIsolation f).reexecute vec u transformed) := by
  have marked : Leaves [.flasks, .pairs] noReg s ((s.startIsolation f).modPair vec u fun p => { p with phase := .reexec }) :=
    .modPair (.modFlask (.refl _ _ s))
  exact .ite (EndsTo.of marked) ((EndsTo.of marked).trans (EndsTo.rerun _ vec u transformed))

theorem EndsTo.releasePair (p : Pair) : EndsTo s (s.releasePair p) :=
  ((EndsTo.dropPair s p.vec p.pri).trans (EndsTo.of (State.leaves_finishPart _ p.job p.tile _))).trans (EndsTo.passUnits _ p)

theorem EndsTo.comparePair (p : Pair) : EndsTo s (s.comparePair p) := by
  have again := fun u transformed => EndsTo.reexecute s p.flask p.vec u transformed
  unfold State.comparePair
  refine .ite (EndsTo.splitPair s p) ?_
  split
  · split
    · refine .ite ?_ (again _ _)
      exact ((EndsTo.dropPair s p.vec p.pri).trans (EndsTo.faultJob _ p.job _ p.tile)).trans (EndsTo.passUnits _ p)
    · exact .ite (EndsTo.releasePair s p) (again _ _)
    · exact again _ _
  · exact again _ _
  · exact again _ _
  · exact EndsTo.of (ps := [.flasks, .pairs]) (q := noReg) (.modPair (.modFlask (.refl _ _ s)))

theorem EndsTo.overrunUnit (vec : Bool) (u : Nat) (p : Pair) : EndsTo s (s.overrunUnit vec u p) := by
  have noted : EndsTo s ((s.abortUnit vec u).modPair vec u fun q => { q with overran := Nat.lor q.overran (if p.pri = u then 1 else 2) }) :=
    .modPair (EndsTo.of (s.leaves_abortUnit vec u) (by simp [unitParts, endParts])) (by simp [endParts])
  unfold State.overrunUnit
  dsimp only
  split
  · exact .ite (noted.trans (EndsTo.comparePair _ _)) noted
  · exact noted

theorem EndsTo.rtFail (f : Nat) (cores : List Nat) : EndsTo s (s.rtFail f cores) := EndsTo.of (s.leaves_rtFail f cores)

/-- What the end of an entry does to the unit that still runs. -/
theorem EndsTo.endKind (r : Running) : EndsTo s (s.endKind r) := by
  unfold State.endKind
  dsimp only
  split
  · exact .refl _ _ s
  · refine .ite ?_ (.ite (.ite (EndsTo.rtFail s _ _) (.refl _ _ s)) (.ite ?_ (.refl _ _ s)))
    · split
      · exact .ite (EndsTo.overrunUnit s _ _ _) (.refl _ _ s)
      · exact .refl _ _ s
    · split
      · exact .ite (EndsTo.rtFail s _ _) (.refl _ _ s)
      · exact .refl _ _ s

end

/-! ## An execution starts -/

section
variable (s : State)

/-- What a start of a job may change: its record, its queue and what its accesses change. -/
theorem State.leaves_startJob (j : Nat) : Leaves (.jobs :: .queues :: accessParts) accessRegs s (s.startJob j) := by
  have waited : ∀ x : Job, Leaves (.jobs :: .queues :: accessParts) accessRegs s (s.waitDone x).2 := fun x => by
    have read : Leaves (.jobs :: .queues :: accessParts) accessRegs s (instRead s x.inst x.waitAddr 8).2 :=
      (accessed_instRead s x.inst x.waitAddr 8).mono (fun _ m => .tail _ (.tail _ m)) fun _ _ e => e
    unfold State.waitDone
    refine .iteSnd (.refl _ _ s) ?_
    split
    · next e => exact .of_eq e read
    · next e => exact .of_eq e read
  have begun : ∀ (x : Job) (t : State), Leaves (.jobs :: .queues :: accessParts) accessRegs s t →
      Leaves (.jobs :: .queues :: accessParts) accessRegs s (t.beginJob x) := fun x t h => by
    unfold State.beginJob State.stageFlag
    refine .modJob (.modQ ?_)
    exact .iteSnd (h.fresh (by simp [accessParts])) h
  unfold State.startJob
  split
  · exact .refl _ _ s
  · next x _ =>
    have wait := waited x
    refine .ite (.refl _ _ s) (.ite (.endJob (.refl _ _ s)) (.ite (.refl _ _ s) ?_))
    split
    · next e => exact .endJob (.of_eq e wait)
    · next e => exact .of_eq e wait
    · next e =>
      have left := Leaves.of_eq e wait
      exact .ite (.endJob left) (.ite (begun x _ left) left)

/-- A pair as a start leaves it: it goes on, or the execution has ended at once because its program cannot be read. -/
def Pair.Goes (p q : Pair) : Prop := q = p ∨ ∃ u now fault, q = p.oneEnded u now none fault

theorem Pair.Goes.keeps {p q : Pair} (h : p.Goes q) : q.job = p.job ∧ q.tile = p.tile ∧ q.pri = p.pri ∧ q.rc = p.rc
    ∧ q.phase = p.phase ∧ q.laterStart = p.laterStart ∧ q.firstEnd = p.firstEnd ∧ q.releaseNs = p.releaseNs := by
  rcases h with rfl | ⟨u, now, fault, rfl⟩
  · simp
  · unfold Pair.oneEnded
    split <;> simp

variable (vec : Bool) (u : Nat)

theorem State.loadProgram_pair {p : Pair} {r : RunJob} (next : (s.arr u).nextJob = some r) (role : r.role = .primary ∨ r.role = .recast)
    (hp : s.pairOf false u = some p) (none : p.overran = 0) (pri : p.priEnd = Option.none) (rc : p.rcEnd = Option.none) :
    ∃ q, (s.loadProgram u).pairOf false u = some q ∧ p.Goes q := by
  unfold State.loadProgram
  rw [next]
  dsimp only
  split
  · exact ⟨p, hp, .inl rfl⟩
  · have read := accessed_instRead s r.inst (tdProg r.desc) (tdProgLen r.desc)
    split
    · next bs s1 e =>
      have loaded := Leaves.of_eq e read
      refine ⟨p, (State.pairOf_same (s := s) ?_ false u).trans hp, .inl rfl⟩
      have stored : Leaves (.vecs :: .arrays :: accessParts) anyReg s ((((s1.modArr u fun x =>
          { x with store := putStore x.store (2048 * (1 - s1.f ARR_PROG.CUR_HALF u)) (programWords bs) }).setF
          ARR_PROG.NEXT_HALF u (1 - s1.f ARR_PROG.CUR_HALF u)).setF ARR_PROG.NEXT_LEN u (tdProgLen r.desc / 16)).setF
          ARR_PROG.NEXT_VALID u 1) :=
        .setF (.setF (.setF (.modArr (loaded.mono (fun _ m => .tail _ (.tail _ m)) fun _ _ _ => trivial)) trivial) trivial) trivial
      have took := stored.into (QuietTo.takeProgram _ u) (by simp [accessParts]) fun _ _ _ => trivial
      split
      · exact took.1 .pairs (by simp [accessParts])
      · exact stored.1 .pairs (by simp [accessParts])
    · next e s1 _ eq =>
      have loaded := Leaves.of_eq eq read
      have dropped : Leaves (.arrays :: accessParts) anyReg s (s1.modArr u fun x => { x with nextJob := Option.none }) :=
        .modArr (loaded.mono (fun _ m => .tail _ m) fun _ _ _ => trivial)
      obtain ⟨ends, found⟩ := (s1.modArr u fun x => { x with nextJob := Option.none }).pairEnd_first false u Option.none
        (some (e.status, 0)) p ((State.pairOf_same (dropped.1 .pairs (by simp [accessParts])) false u).trans hp) none pri rc
      rcases role with is | is <;>
      · rw [is]
        dsimp only
        rw [ends]
        exact ⟨_, found, .inr ⟨_, _, _, rfl⟩⟩

/-- A pair of which neither execution has ended goes on when a unit starts one. -/
theorem State.startExec_pair {p : Pair} (x : Job) (tile : Nat) (td : List Nat) (rcd : Bool) (hp : s.pairOf vec u = some p)
    (none : p.overran = 0) (pri : p.priEnd = Option.none) (rc : p.rcEnd = Option.none) :
    ∃ q, (s.startExec vec u x tile td rcd).pairOf vec u = some q ∧ p.Goes q := by
  cases vec with
  | true =>
    have given : Leaves [.vecs, .freeCtr] anyReg s (s.giveItem u { job := x.id, item := tile, startNs := s.now }) :=
      .giveItem (.refl _ _ s) trivial
    exact ⟨p, (State.pairOf_same (given.1 .pairs (by simp)) true u).trans hp, .inl rfl⟩
  | false =>
    have role : ∀ b : Bool, (if b then Role.recast else .primary) = .primary ∨ (if b then Role.recast else .primary) = .recast := by
      intro b
      cases b
      · exact .inl rfl
      · exact .inr rfl
    refine State.loadProgram_pair _ u (r := { job := x.id, tile := tile, desc := td, role := if rcd then .recast else .primary
                                              startNs := s.now, flask := s.jobFlask x, inst := x.inst }) ?_ (role rcd) hp none pri rc
    rw [State.modArr_arr, if_pos rfl]

end

end Sys2Proof.Machine
end

section
/-! PROOFS. The entries of the pour table, and what O38 says (R168 to R175). -/

set_option Elab.async false

namespace Sys2Proof.Machine

section
variable (s : State) (e : Nat) (d : Due)

/-! ## When an entry starts -/

theorem pourEntryStart_runs (he : e < 4096) : exec (.pourEntryStart e) s = .next (entryStartGo e s) := by
  rw [exec_pourEntryStart, execPourEntryStart, decide_eq_true he, unit_true]

/-- An entry that starts in time. -/
theorem pourEntryStart_starts (he : e < 4096) (due : s.nextDue e = some d) (en : s.fb POUR_CTRL.EN 0 = true)
    (now : reached s.now (s.dueNs d) = true) (early : reached s.now (s.monitorNs d + 2001) = false)
    (free : (s.flask d.ent.flask).isolating = false) : exec (.pourEntryStart e) s = .next (s.startKind d) := by
  rw [pourEntryStart_runs s e he, entryStartGo, due]
  dsimp only
  rw [en, now, if_neg (by decide), free, if_neg (by decide), early, if_neg (by decide)]

theorem pourEntryStart_waits (he : e < 4096) (h : s.nextDue e = none ∨ s.fb POUR_CTRL.EN 0 = false
    ∨ ∃ d, s.nextDue e = some d ∧ reached s.now (s.dueNs d) = false) : exec (.pourEntryStart e) s = .next s := by
  rw [pourEntryStart_runs s e he, entryStartGo]
  cases due : s.nextDue e with
  | none => rfl
  | some d =>
    dsimp only
    rw [if_pos]
    rcases h with no | off | ⟨c, hc, early⟩
    · rw [due] at no
      cases no
    · rw [off]
      rfl
    · obtain rfl := Option.some.inj (due.symm.trans hc)
      rw [early]
      simp

/-- The entry that is to start next under a number. -/
theorem State.nextDue_from (due : s.nextDue e = some d) : (d ∈ s.units.pour.carried ∧ d.idx % 4096 = e)
    ∨ (d.idx = 4096 * s.f POUR_CTRL.ACTIVE_BANK 0 + e ∧ d.ent = ⟨s.r .pourEnt0 d.idx, s.r .pourEnt1 d.idx⟩
        ∧ d.frame = s.f POUR_STAT.FRAME 0 ∧ d.startNs = s.units.pour.frameNs + 1000 * bits (s.r .pourEnt0 d.idx) 63 44) := by
  unfold State.nextDue at due
  dsimp only at due
  split at due
  · next c found =>
    obtain rfl := Option.some.inj due
    exact .inl ⟨List.mem_of_find?_eq_some found, by simpa using List.find?_some found⟩
  · split at due
    · obtain rfl := Option.some.inj due
      exact .inr ⟨rfl, rfl, rfl, rfl⟩
    · cases due

/-! ## What every start notes -/

/-- The record of an entry that runs. -/
abbrev State.entryRun (empty : Bool) (absorbed : Nat) : Running :=
  { entry := d.idx, ent := d.ent, frame := d.frame, dueNs := s.dueNs d, empty := empty, absorbed := absorbed }

theorem State.leaves_noteStart (empty : Bool) (absorbed : Nat) : Leaves [.flasks, .pour] noReg s (s.noteStart d empty absorbed) :=
  .modFlask (.modPour (.refl _ _ s))

theorem State.noteStart_running (empty : Bool) (absorbed : Nat) :
    (s.noteStart d empty absorbed).units.pour.running = s.units.pour.running ++ [s.entryRun d empty absorbed] := by
  rw [State.noteStart, State.modFlask_units_pour, State.modPour_pour]

theorem State.noteStart_flask (empty : Bool) (absorbed f : Nat) : ((s.noteStart d empty absorbed).flask f).extraBars = (s.flask f).extraBars := by
  rw [State.noteStart, State.modFlask_flask]
  split
  · next h => rw [h]; rfl
  · rfl

theorem State.noteStart_pairOf (empty : Bool) (absorbed : Nat) (vec : Bool) (u : Nat) :
    (s.noteStart d empty absorbed).pairOf vec u = s.pairOf vec u :=
  State.pairOf_same ((s.leaves_noteStart d empty absorbed).1 .pairs (by simp)) vec u

theorem State.noteStart_rt (empty : Bool) (absorbed c : Nat) : (s.noteStart d empty absorbed).rt c = s.rt c :=
  (s.leaves_noteStart d empty absorbed).rt_same (by simp) c

/-! ## Empty and recovery entries -/

theorem State.emptyEntry_empty : (s.emptyEntry d).f POUR_STAT.EMPTY 0 = min (s.f POUR_STAT.EMPTY 0 + 1) POUR_STAT.EMPTY.top
    ∧ (s.emptyEntry d).units.pour.running = s.units.pour.running ++ [s.entryRun d true 0]
    ∧ Leaves [.flasks, .pour] (oneReg .pourStat 0) s (s.emptyEntry d) := by
  have noted := s.leaves_noteStart d true 0
  have running := s.noteStart_running d true 0
  unfold State.emptyEntry
  generalize s.noteStart d true 0 = t at noted running
  refine ⟨?_, ?_, .incSat (noted.mono (by simp) fun _ _ no => no.elim) ⟨rfl, rfl⟩⟩
  · rw [State.incSat_f_same _ _ _ _ (by decide), noted.f_same _ _ (by simp [noReg])]
  · rw [State.incSat_units, running]

/-- What the extra test bars of R147 may change. -/
def extraParts : List Part :=
  [.arrays, .cache, .cells, .chkFlips, .dtuContexts, .dtuFaults, .dtuTlb, .flips, .freeCtr, .gateQ, .gates, .holders, .jobs, .keptIrqs,
    .moves, .nextMove, .nextTag, .outbox, .poison, .record, .rts, .safePins, .useClock, .vecs, .wsk]

def extraRegs (r : Reg) (i : Nat) : Prop := accessRegs r i ∨ boundaryRegs r i ∨ r = .runStat

theorem State.leaves_extraBar (u : TBUnit) : Leaves extraParts extraRegs s (s.extraBar u) := by
  unfold State.extraBar
  refine .ite (.refl _ _ s) ?_
  cases u with
  | rt c => exact .modRt (.refl _ _ s) (by simp [extraParts])
  | vec e =>
    exact (s.leaves_startVecBar e).mono (by simp [extraParts, accessParts]) fun r i h =>
      h.elim .inl fun v => .inr (.inl (.inr (.inl v.1)))
  | array n => exact (Passed.startBar s n).leaves.mono (by simp [extraParts, boundaryParts]) fun _ _ h => .inr (.inl h)
  | runner => exact .setF (.refl _ _ s) (.inr (.inr rfl))

/-- The state of a recovery entry that has absorbed its part of the lag. -/
def State.absorbed : State :=
  (s.noteStart d false (min (s.f POUR_FLAG.LAG d.ent.flask) d.ent.len)).setF POUR_FLAG.LAG d.ent.flask
    (s.f POUR_FLAG.LAG d.ent.flask - min (s.f POUR_FLAG.LAG d.ent.flask) d.ent.len)

theorem State.absorbed_lag : (s.absorbed d).f POUR_FLAG.LAG d.ent.flask = s.f POUR_FLAG.LAG d.ent.flask - d.ent.len := by
  have small : s.f POUR_FLAG.LAG d.ent.flask < 2 ^ 12 := s.f_lt POUR_FLAG.LAG d.ent.flask
  rw [State.absorbed, (State.setF_f_width _ POUR_FLAG.LAG _ _ 12 (by decide) rfl), Nat.mod_eq_of_lt (by omega)]
  omega

theorem State.leaves_absorbed : Leaves [.flasks, .pour] (oneReg .pourFlag d.ent.flask) s (s.absorbed d) :=
  .setF ((s.leaves_noteStart d false _).mono (by simp) fun _ _ no => no.elim) ⟨rfl, rfl⟩

theorem State.absorbed_running : (s.absorbed d).units.pour.running
    = s.units.pour.running ++ [s.entryRun d false (min (s.f POUR_FLAG.LAG d.ent.flask) d.ent.len)] := by
  rw [State.absorbed, State.setF_units, s.noteStart_running]

theorem State.startRecovery_eq : s.startRecovery d
    = if d.ent.len < s.f POUR_FLAG.LAG d.ent.flask then
        (s.absorbed d).modPour fun p => { p with running := p.running.filter fun r => !(r.entry == d.idx && r.frame == d.frame) }
      else (((s.absorbed d).flask d.ent.flask).extraBars.foldl State.extraBar (s.absorbed d)).modFlask d.ent.flask
        fun x => { x with extraBars := [] } := by
  unfold State.startRecovery State.absorbed
  rfl

/-- R172: a recovery entry that cannot absorb the whole lag. -/
theorem State.startRecovery_part (h : d.ent.len < s.f POUR_FLAG.LAG d.ent.flask) :
    (s.startRecovery d).f POUR_FLAG.LAG d.ent.flask = s.f POUR_FLAG.LAG d.ent.flask - d.ent.len
      ∧ ((s.startRecovery d).flask d.ent.flask).extraBars = (s.flask d.ent.flask).extraBars
      ∧ Leaves [.flasks, .pour] (oneReg .pourFlag d.ent.flask) s (s.startRecovery d) := by
  have bars : ((s.absorbed d).flask d.ent.flask).extraBars = (s.flask d.ent.flask).extraBars := by
    rw [State.absorbed, State.setF_flask, s.noteStart_flask]
  rw [s.startRecovery_eq d, if_pos h]
  exact ⟨by rw [State.modPour_f, s.absorbed_lag d], by rw [State.modPour_flask, bars], .modPour (s.leaves_absorbed d)⟩

/-- R172, R147: one that absorbs all of it runs the extra test bars. -/
theorem State.startRecovery_whole (h : s.f POUR_FLAG.LAG d.ent.flask ≤ d.ent.len) :
    (s.startRecovery d).f POUR_FLAG.LAG d.ent.flask = s.f POUR_FLAG.LAG d.ent.flask - d.ent.len
      ∧ ((s.startRecovery d).flask d.ent.flask).extraBars = []
      ∧ (s.startRecovery d).units.pour.running
        = s.units.pour.running ++ [s.entryRun d false (s.f POUR_FLAG.LAG d.ent.flask)] := by
  have lag := s.absorbed_lag d
  have running := s.absorbed_running d
  rw [s.startRecovery_eq d, if_neg (by omega)]
  generalize s.absorbed d = t at lag running
  have ran : Leaves extraParts extraRegs t ((t.flask d.ent.flask).extraBars.foldl State.extraBar t) :=
    .over' (.refl _ _ t) fun u v g => g.trans (v.leaves_extraBar u)
  generalize (t.flask d.ent.flask).extraBars.foldl State.extraBar t = v at ran
  refine ⟨?_, ?_, ?_⟩
  · rw [State.modFlask_f, ran.f_same POUR_FLAG.LAG _ (by simp [extraRegs, accessRegs, boundaryRegs, POUR_FLAG.LAG]), lag]
  · rw [State.modFlask_flask, if_pos rfl]
  · rw [State.modFlask_units_pour, ran.1 .pour (by simp [extraParts]), running, Nat.min_eq_left h]

/-! ## Real-time entries -/

theorem State.startFirst_nolog (c : Nat) (none : d.ent.log = 0xFFF) : ((s.startFirst d c).rt c).started = true
    ∧ (s.startFirst d c).firstOf c d.ent.task = some { task := d.ent.task, logTime := s.now }
    ∧ ((s.startFirst d c).rt c).task = some (d.ent.task, d.ent.inst, 0xFFF, 4, s.now)
    ∧ (∀ k, k ≠ c → (s.startFirst d c).rt k = s.rt k) ∧ Leaves [.flasks, .pour, .rts] noReg s (s.startFirst d c) := by
  have noted := s.leaves_noteStart d false 0
  have same := s.noteStart_rt d false 0
  unfold State.startFirst State.startTask
  dsimp only
  rw [if_pos none]
  generalize s.noteStart d false 0 = t at noted same
  refine ⟨?_, ?_, ?_, fun k hk => ?_, .modRt (.modRt (noted.mono (by simp) fun _ _ no => no.elim))⟩
  · rw [State.modRt_rt, if_pos rfl]
  · rw [State.firstOf, State.modRt_rt, if_pos rfl, State.modRt_rt, if_pos rfl, List.find?_cons_of_pos (by simp)]
    rfl
  · rw [State.modRt_rt, if_pos rfl, State.modRt_rt, if_pos rfl, none]
  · rw [State.modRt_rt, if_neg hk, State.modRt_rt, if_neg hk, same]

theorem State.firstOf_any (p k : Nat) : ((s.rt p).firsts.any fun r => r.task == k) = (s.firstOf p k).isSome := by
  rw [State.firstOf, List.isSome_find?]

theorem State.startSecond_pairs (c p : Nat) (partner : s.unitOf d.ent.flask 2 d.ent.partner = some p)
    (first : (s.firstOf p d.ent.task).isSome = true) :
    (s.startSecond d c).rt c = { s.rt c with task := some (d.ent.task, d.ent.inst, p, 5, s.now), started := true }
      ∧ (∀ k, k ≠ c → (s.startSecond d c).rt k = s.rt k) ∧ Leaves [.flasks, .pour, .rts] noReg s (s.startSecond d c) := by
  have noted := s.leaves_noteStart d false 0
  have same := s.noteStart_rt d false 0
  have paired : s.startSecond d c = ((s.noteStart d false 0).modRt c fun x =>
      { x with task := some (d.ent.task, d.ent.inst, p, 5, s.now) }).startTask c := by
    unfold State.startSecond
    dsimp only
    rw [partner]
    dsimp only
    rw [same p, s.firstOf_any, if_pos first]
  rw [paired]
  unfold State.startTask
  generalize s.noteStart d false 0 = t at noted same
  refine ⟨?_, fun k hk => ?_, .modRt (.modRt (noted.mono (by simp) fun _ _ no => no.elim))⟩
  · rw [State.modRt_rt, if_pos rfl, State.modRt_rt, if_pos rfl, same]
  · rw [State.modRt_rt, if_neg hk, State.modRt_rt, if_neg hk, same]

theorem State.startSecond_fails (c p : Nat) (partner : s.unitOf d.ent.flask 2 d.ent.partner = some p)
    (no : s.firstOf p d.ent.task = none) : (s.startSecond d c).fb SYS_SAFESTAT.RT_MISMATCH 0 = true
      ∧ ((s.startSecond d c).rt c).task = none ∧ ((s.startSecond d c).rt c).extra = true := by
  have same := s.noteStart_rt d false 0
  have failed : s.startSecond d c = (s.noteStart d false 0).rtFail d.ent.flask [c] := by
    unfold State.startSecond
    dsimp only
    rw [partner]
    dsimp only
    rw [same p, s.firstOf_any, no, if_neg (by decide)]
  obtain ⟨task, -, extra⟩ := ((s.noteStart d false 0).rtFail_one d.ent.flask c c).1 rfl
  rw [failed]
  exact ⟨State.rtFail_flag _ _ _, task, extra⟩

/-! ## Entries of tiles -/

theorem State.startKind_tile (h : d.ent.kind ≤ 1) : s.startKind d = s.startTile d := by
  obtain k | k : d.ent.kind = 0 ∨ d.ent.kind = 1 := by omega
  · simp only [State.startKind, k]
  · simp only [State.startKind, k]

theorem State.startTile_empty (h : s.entryTile d = none) : s.startTile d = s.emptyEntry d := by
  unfold State.startTile
  dsimp only
  rw [h]
  split
  · next heq => cases heq
  · rfl

/-- The pair that a unit would join. -/
def Pair.mine (vec rc : Bool) (job tile u : Nat) (p : Pair) : Bool :=
  p.vec == vec && p.job == job && p.tile == tile && (if rc then p.rc else p.pri) == u

theorem Pair.mine_of {vec rc : Bool} {job tile u : Nat} {p : Pair} (h : p.mine vec rc job tile u = true) :
    (p.vec == vec && (p.pri == u || p.rc == u)) = true := by
  unfold Pair.mine at h
  cases rc <;> simp_all

/-- A pair is formed. -/
def State.pairFormed (p : Pair) : State := { s with units.pairs := s.units.pairs ++ [p] }

theorem State.pairFormed_pairOf (p : Pair) {vec : Bool} {u : Nat} (none : s.pairOf vec u = none)
    (mine : (p.vec == vec && (p.pri == u || p.rc == u)) = true) : (s.pairFormed p).pairOf vec u = some p := by
  unfold State.pairOf at none ⊢
  rw [State.pairFormed, List.find?_append, none, Option.none_or, List.find?_cons_of_pos (by exact mine)]

/-- The pair that the first of its entries forms. -/
def State.newPair (job : Nat) (u v : Nat) (o : Ent) : Pair :=
  { flask := d.ent.flask, vec := d.ent.ty == 1, job := job, tile := d.ent.tile, pri := if d.ent.kind == 1 then v else u
    rc := if d.ent.kind == 1 then u else v, laterStart := s.now, firstEnd := s.endNs d
    releaseNs := later (s.endNs d)
      (d.startNs - 1000 * d.ent.start + 1000 * (o.start + s.f POUR_FLAG.LAG d.ent.flask + o.len)) + 200 }

theorem State.startTile_forms {u v : Nat} {o : Ent} {x : Job} {td : List Nat} (unit : s.unitOf d.ent.flask d.ent.ty d.ent.unit = some u)
    (tile : s.entryTile d = some (x, td)) (none : s.pairOf (d.ent.ty == 1) u = none) (other : s.partnerEntry d td = some o)
    (hv : s.unitOf d.ent.flask o.ty o.unit = some v) (go : x.stop = false) (open_ : d.ent.tile ∉ x.doneParts)
    (idle : s.unitIdle (d.ent.ty == 1) u = true)
    (runs : (((s.startJob x.id).job x.id).any fun y => decide (y.phase = .running)) = true) :
    s.startTile d = (((s.startJob x.id).noteStart d false 0).pairFormed (s.newPair d x.id u v o)).startExec (d.ent.ty == 1) u x
      d.ent.tile td (d.ent.kind == 1) := by
  have pairs : ((s.startJob x.id).noteStart d false 0).units.pairs = (s.startJob x.id).units.pairs :=
    ((s.startJob x.id).leaves_noteStart d false 0).1 .pairs (by simp)
  have nobody : s.units.pairs.find? (fun p => p.vec == (d.ent.ty == 1) && p.job == x.id && p.tile == d.ent.tile
      && (if (d.ent.kind == 1) = true then p.rc else p.pri) == u) = Option.none := by
    rw [List.find?_eq_none]
    intro p hp h
    exact List.find?_eq_none.1 none p hp (Pair.mine_of h)
  unfold State.startTile
  dsimp only
  rw [unit, tile]
  dsimp only
  rw [nobody]
  dsimp only
  rw [other]
  dsimp only
  rw [hv]
  dsimp only
  rw [go, if_neg (by simpa using open_), idle, if_neg (by decide), if_pos runs, State.pairFormed, State.newPair, pairs]

theorem State.startTile_joins {u : Nat} {q : Pair} {x : Job} {td : List Nat} (unit : s.unitOf d.ent.flask d.ent.ty d.ent.unit = some u)
    (tile : s.entryTile d = some (x, td)) (hq : s.pairOf (d.ent.ty == 1) u = some q) (job : q.job = x.id) (hk : q.tile = d.ent.tile)
    (side : (if (d.ent.kind == 1) = true then q.rc else q.pri) = u) (idle : s.unitIdle (d.ent.ty == 1) u = true) :
    s.startTile d = ((s.noteStart d false 0).modPair (d.ent.ty == 1) u fun p =>
      { p with laterStart := s.now, releaseNs := later p.firstEnd (s.endNs d) + 200 }).startExec (d.ent.ty == 1) u x
        d.ent.tile td (d.ent.kind == 1) := by
  obtain ⟨r, found⟩ : ∃ r, s.units.pairs.find? (fun p => p.vec == (d.ent.ty == 1) && p.job == x.id && p.tile == d.ent.tile
      && (if (d.ent.kind == 1) = true then p.rc else p.pri) == u) = some r := by
    have vec := List.find?_some hq
    rw [Bool.and_eq_true] at vec
    refine Option.isSome_iff_exists.1 (List.find?_isSome.2 ⟨q, List.mem_of_find?_eq_some hq, ?_⟩)
    rw [vec.1, job, hk, side]
    simp
  unfold State.startTile
  dsimp only
  rw [unit, tile]
  dsimp only
  rw [found]
  dsimp only
  rw [idle, if_neg (by decide)]

end

/-! ## The end of an entry -/

section
variable (s : State) (e : Nat) (r : Running)

theorem pourEntryEnd_runs (he : e < 4096) : exec (.pourEntryEnd e) s = .next (entryEndGo e s) := by
  rw [exec_pourEntryEnd, execPourEntryEnd, decide_eq_true he, unit_true]

/-- The entry leaves. -/
def State.entryGone : State :=
  ((if r.empty = true then s else s.endKind r).modPour fun p => { p with running := p.running.filter fun q => q != r }).loseBound

theorem pourEntryEnd_waits (he : e < 4096) (found : s.units.pour.running.find? (fun r => r.entry % 4096 == e) = some r)
    (early : reached s.now r.endNs = false) : exec (.pourEntryEnd e) s = .next s := by
  rw [pourEntryEnd_runs s e he, entryEndGo, found]
  dsimp only
  rw [early]
  rfl

theorem pourEntryEnd_ends (he : e < 4096) (found : s.units.pour.running.find? (fun r => r.entry % 4096 == e) = some r)
    (now : reached s.now r.endNs = true) : exec (.pourEntryEnd e) s = .next (s.entryGone r) := by
  rw [pourEntryEnd_runs s e he, entryEndGo, found]
  dsimp only
  rw [now, if_neg (by decide), State.entryGone]

theorem State.entryGone_running (q : Running) : q ∈ (s.entryGone r).units.pour.running ↔ q ∈ s.units.pour.running ∧ q ≠ r := by
  have before : (if r.empty = true then s else s.endKind r).units.pour = s.units.pour := by
    split
    · rfl
    · exact (EndsTo.endKind s r).1 .pour (by simp [endParts])
  rw [State.entryGone, (State.leaves_loseBound _).1 .pour (by simp), State.modPour_pour, before, List.mem_filter]
  simp

theorem State.leaves_entryGone (empty : r.empty = true) : Leaves [.pour, .jobs] noReg s (s.entryGone r) := by
  rw [State.entryGone, if_pos empty]
  exact Leaves.into (.modPour (.refl _ _ s)) (State.leaves_loseBound _) (by simp) fun _ _ e => e

/-! ## The monitor (R174) -/

theorem pourLate_counts (d : Due) (he : e < 4096) (due : s.nextDue e = some d) (en : s.fb POUR_CTRL.EN 0 = true)
    (free : (s.flask d.ent.flask).isolating = false) (late : reached s.now (s.monitorNs d + 2000) = true) :
    exec (.pourLate e) s = .next (s.countLate d) := by
  rw [exec_pourLate, execPourLate, decide_eq_true he, unit_true, pourLateGo, due]
  dsimp only
  rw [en, free, late]
  rfl

/-- The entry is among those that have been counted. -/
def State.lateNoted (d : Due) : State := s.modPour fun p => { p with lateSeen := (d.idx, d.frame) :: p.lateSeen }

theorem State.countLate_counts (d : Due) (new : (d.idx, d.frame) ∉ s.units.pour.lateSeen) :
    (s.countLate d).f POUR_STAT.LATE 0 = min (s.f POUR_STAT.LATE 0 + 1) POUR_STAT.LATE.top
      ∧ (s.countLate d).fb SYS_SAFESTAT.POUR_LATE 0 = true ∧ (d.idx, d.frame) ∈ (s.countLate d).units.pour.lateSeen
      ∧ Leaves [.freeCtr, .keptIrqs, .outbox, .pour, .safePins, .record] (fun r i => (r = .pourStat ∨ r = .sysSafestat) ∧ i = 0) s
        (s.countLate d) := by
  have counted : s.countLate d = ((s.incSat POUR_STAT.LATE 0 1).safety SYS_SAFESTAT.POUR_LATE (d.idx % 4096) 0).lateNoted d := by
    rw [State.countLate, if_neg (by simpa using new), State.lateNoted]
  have up : (s.incSat POUR_STAT.LATE 0 1).f POUR_STAT.LATE 0 = min (s.f POUR_STAT.LATE 0 + 1) POUR_STAT.LATE.top :=
    State.incSat_f_same _ _ _ _ (by decide)
  have first : Leaves [] (oneReg .pourStat 0) s (s.incSat POUR_STAT.LATE 0 1) := .incSat (.refl _ _ s) ⟨rfl, rfl⟩
  rw [counted]
  generalize s.incSat POUR_STAT.LATE 0 1 = t at up first
  have safe : Leaves safetyParts (oneReg .sysSafestat 0) t (t.safety SYS_SAFESTAT.POUR_LATE (d.idx % 4096) 0) :=
    .safety (.refl _ _ t) rfl (List.Subset.refl _)
  refine ⟨?_, ?_, ?_, .modPour ((first.mono (by simp) fun _ _ e => ⟨.inl e.1, e.2⟩).into safe (by decide) fun _ _ e => ⟨.inr e.1, e.2⟩)⟩
  · rw [State.lateNoted, State.modPour_f, safe.f_same POUR_STAT.LATE 0 (by simp [oneReg, POUR_STAT.LATE]), up]
  · rw [State.lateNoted, State.fb, State.modPour_f, ← State.fb]
    exact State.fb_of_f (State.safety_f _ _ _ _ (by decide) (by decide) (by decide) (by decide))
  · rw [State.lateNoted, State.modPour_pour]
    exact List.mem_cons_self

end

/-- Settles O38: the starts by `startTile_forms`, `startTile_joins`, `startRecovery_whole` and the real-time rules, the end
by `entryGone_running`. -/
theorem entriesStartWhenDueAndAreCounted : Obligations.EntriesStartWhenDueAndAreCounted := by
  unfold Obligations.EntriesStartWhenDueAndAreCounted
  refine ⟨fun s e he h => pourEntryStart_waits s e he h, fun s e d _ due => ⟨s.nextDue_from e d due, rfl⟩, ?_, ?_, ?_, ?_, ?_⟩
  · intro s e d he due en now held
    refine ⟨s.modFlask d.ent.flask fun x => { x with held := insNat x.held d.idx }, ?_, ?_, .modFlask (.refl _ _ s)⟩
    · rw [pourEntryStart_runs s e he, entryStartGo, due]
      dsimp only
      rw [en, now, if_neg (by decide), if_pos held]
    · rw [State.modFlask_flask, if_pos rfl]
      exact (mem_insNat _ _ _).2 (.inr rfl)
  · intro s e d he due en now early free lag run
    have start := pourEntryStart_starts s e d he due en now early free
    refine ⟨fun kind => ?_, fun kind => ?_, fun kind none => ?_, fun c kind unit none => ?_, fun c p kind unit partner => ?_, ?_, ?_⟩
    · refine ⟨_, start, ?_, ?_⟩
      · simp only [State.startKind, kind]
        exact s.noteStart_running d false 0
      · simp only [State.startKind, kind]
        exact s.leaves_noteStart d false 0
    · have recovery : s.startKind d = s.startRecovery d := by simp only [State.startKind, kind]
      rw [recovery] at start
      by_cases h : d.ent.len < lag
      · obtain ⟨left, bars, leaves⟩ := s.startRecovery_part d h
        exact ⟨_, start, left, fun whole => absurd h (by omega), fun _ => ⟨bars, leaves⟩⟩
      · obtain ⟨left, bars, running⟩ := s.startRecovery_whole d (by omega)
        exact ⟨_, start, left, fun _ => ⟨bars, running⟩, fun part => absurd part h⟩
    · rw [s.startKind_tile d kind, s.startTile_empty d none] at start
      exact ⟨_, start, s.emptyEntry_empty d⟩
    · have first : s.startKind d = s.startFirst d c := by simp only [State.startKind, kind, unit]
      rw [first] at start
      exact ⟨_, start, s.startFirst_nolog d c none⟩
    · have second : s.startKind d = s.startSecond d c := by simp only [State.startKind, kind, unit]
      rw [second] at start
      exact ⟨fun some => ⟨_, start, s.startSecond_pairs d c p partner some⟩, fun none => ⟨_, start, s.startSecond_fails d c p partner none⟩⟩
    · intro u v o x td vec rc kind unit tile none other hv go open_ idle runs
      rw [s.startKind_tile d kind, s.startTile_forms d unit tile none other hv go open_ idle runs] at start
      have before : ((s.startJob x.id).noteStart d false 0).pairOf vec u = Option.none := by
        rw [State.noteStart_pairOf, State.pairOf_same ((s.leaves_startJob x.id).1 .pairs (by simp [accessParts])) vec u, none]
      have mine : ((s.newPair d x.id u v o).vec == vec && ((s.newPair d x.id u v o).pri == u || (s.newPair d x.id u v o).rc == u))
          = true := by
        show ((d.ent.ty == 1) == (d.ent.ty == 1) && ((if (d.ent.kind == 1) = true then v else u) == u
          || (if (d.ent.kind == 1) = true then u else v) == u)) = true
        split <;> simp
      obtain ⟨q, found, goes⟩ := State.startExec_pair _ vec u x d.ent.tile td rc
        (State.pairFormed_pairOf _ (s.newPair d x.id u v o) before mine) rfl rfl rfl
      obtain ⟨job, tileQ, pri, rcQ, phase, laterStart, firstEnd, release⟩ := goes.keeps
      exact ⟨_, q, start, found, job, tileQ, pri, rcQ, phase, laterStart, firstEnd, release⟩
    · intro u q x td vec rc kind unit tile hq job hk side none none' zero idle
      rw [s.startKind_tile d kind, s.startTile_joins d unit tile hq job hk side idle] at start
      have joined := State.modPair_pairOf (s.noteStart d false 0) vec u (fun p =>
        { p with laterStart := s.now, releaseNs := later p.firstEnd (s.endNs d) + 200 }) q
        ((s.noteStart_pairOf d false 0 vec u).trans hq) fun _ => ⟨rfl, rfl, rfl⟩
      obtain ⟨p, found, goes⟩ := State.startExec_pair _ vec u x d.ent.tile td rc joined zero none none'
      obtain ⟨-, -, pri, rcQ, phase, laterStart, -, release⟩ := goes.keeps
      exact ⟨_, p, start, found, laterStart, phase, pri, rcQ, release⟩
  · intro s e r he found
    exact ⟨fun early => pourEntryEnd_waits s e r he found early,
      fun now => ⟨_, pourEntryEnd_ends s e r he found now, s.entryGone_running r, s.leaves_entryGone r⟩⟩
  · intro s e he none
    rw [pourEntryEnd_runs s e he, entryEndGo, none]
  · intro s e d he due en free late
    have run := pourLate_counts s e d he due en free late
    refine ⟨fun seen => ?_, fun new => ⟨_, run, s.countLate_counts d new⟩⟩
    rw [run, State.countLate, if_pos (by simpa using seen)]

end Sys2Proof.Machine
end

section
/-! PROOFS. The gates, and what O39 says (R162, R184 to R186). -/

set_option Elab.async false

namespace Sys2Proof.Machine

/-! ## The buckets of one gate -/

section
variable (s : State) (g : Nat)

theorem State.setGate_gate (x : Nat × Nat × Nat × Bool) (k : Nat) : (s.setGate g x).gate k = if k = g then x else s.gate k :=
  NMap.get_set ..

theorem State.setGateWait_wait (x : List Nat) (k : Nat) : (s.setGateWait g x).gateWait k = if k = g then x else s.gateWait k :=
  NMap.get_set ..

theorem State.leaves_setGate (x : Nat × Nat × Nat × Bool) : Leaves [.gates] noReg s (s.setGate g x) :=
  .one .gates (.refl _ _ s) (by simp)

theorem State.leaves_setGateWait (x : List Nat) : Leaves [.gateQ] noReg s (s.setGateWait g x) := .one .gateQ (.refl _ _ s) (by simp)

theorem State.leaves_loadGate : Leaves [.gateCfg] noReg s (s.loadGate g) := .one .gateCfg (.refl _ _ s) (by simp)

theorem State.leaves_loadRt (m : Nat) : Leaves [.rtCfg] noReg s (s.loadRt m) := .one .rtCfg (.refl _ _ s) (by simp)

theorem State.leaves_loadWin : Leaves [.winCfg] noReg s (s.loadWin g) := .one .winCfg (.refl _ _ s) (by simp)

/-- What a request that leaves is charged. -/
def gateCharge (x : Nat × Nat × Nat × Bool) (c : Nat) : Nat × Nat × Nat × Bool :=
  if c ≤ x.1 then (x.1 - c, x.2.1 - c, x.2.2.1 + c, x.2.2.2) else (x.1, x.2.1 - c, x.2.2)

theorem State.gateLeave_eq (c : Nat) : s.gateLeave g c = s.setGate g (gateCharge (s.gate g) c) := by
  unfold State.gateLeave gateCharge
  dsimp only
  split <;> rfl

theorem State.gate_of {s t : State} (h : t.mem.gates = s.mem.gates) (k : Nat) : t.gate k = s.gate k := by rw [State.gate, State.gate, h]

theorem State.gateWait_of {s t : State} (h : t.mem.gateQ = s.mem.gateQ) (k : Nat) : t.gateWait k = s.gateWait k := by
  rw [State.gateWait, State.gateWait, h]

theorem State.gateF_of {s t : State} (h : t.mem.gateCfg = s.mem.gateCfg) (x : Fld) (k : Nat) : t.gateF x k = s.gateF x k := by
  rw [State.gateF, State.gateF, h]

/-- What the requests that leave change: the buckets of their gate and its queue. -/
structure DrainsOnly (g : Nat) (s t : State) : Prop where
  leaves : Leaves [.gates, .gateQ] noReg s t
  gates : ∀ k, k ≠ g → t.gate k = s.gate k
  waits : ∀ k, k ≠ g → t.gateWait k = s.gateWait k

theorem DrainsOnly.trans {s t u : State} (h : DrainsOnly g s t) (i : DrainsOnly g t u) : DrainsOnly g s u :=
  ⟨h.leaves.trans i.leaves, fun k hk => (i.gates k hk).trans (h.gates k hk), fun k hk => (i.waits k hk).trans (h.waits k hk)⟩

theorem DrainsOnly.refl : DrainsOnly g s s := ⟨.refl _ _ s, fun _ _ => rfl, fun _ _ => rfl⟩

theorem DrainsOnly.setGate (x : Nat × Nat × Nat × Bool) : DrainsOnly g s (s.setGate g x) :=
  ⟨(s.leaves_setGate g x).mono (by simp) fun _ _ e => e, fun k hk => by rw [s.setGate_gate, if_neg hk], fun _ _ => rfl⟩

theorem DrainsOnly.setGateWait (x : List Nat) : DrainsOnly g s (s.setGateWait g x) :=
  ⟨(s.leaves_setGateWait g x).mono (by simp) fun _ _ e => e, fun _ _ => rfl, fun k hk => by rw [s.setGateWait_wait, if_neg hk]⟩

theorem DrainsOnly.gateDrain (cs : List Nat) (s : State) : DrainsOnly g s (gateDrain g cs s) := by
  induction cs generalizing s with
  | nil => exact .setGateWait s g []
  | cons c cs ih =>
    unfold Machine.gateDrain
    split
    · rw [s.gateLeave_eq]
      exact (DrainsOnly.setGate s g _).trans g (ih _)
    · exact .setGateWait s g _

/-! ## A refill -/

/-- The buckets after they have risen. -/
def State.risen : State :=
  (s.loadGate g).setGate g (min ((s.gate g).1 + (s.loadGate g).gateF GATE_CFG.GUAR g) ((s.loadGate g).gateDepth g),
    min ((s.gate g).2.1 + (s.loadGate g).gateF GATE_CFG.CEIL g) ((s.loadGate g).gateDepth g), (s.gate g).2.2.1,
    (s.gate g).2.2.2 || min ((s.gate g).1 + (s.loadGate g).gateF GATE_CFG.GUAR g) ((s.loadGate g).gateDepth g)
      == (s.loadGate g).gateDepth g)

theorem State.loadGate_gateF (x : Fld) (hx : x.reg = .gateCfg) (k : Nat) : (s.loadGate g).gateF x k
    = if k = g then s.f x k else s.gateF x k := by
  unfold State.gateF State.loadGate State.f
  dsimp only
  rw [NMap.get_set, hx]
  split
  · next e => rw [e]
  · rfl

theorem State.refillGate_eq : s.refillGate g
    = if (s.gateWait g).isEmpty = true then s.risen g else gateDrain g (s.gateWait g) (s.risen g) := by
  unfold State.refillGate State.risen
  rfl

/-- What a gate holds after they have risen under the setting as written. -/
def State.risenLevel : Nat × Nat × Nat × Bool :=
  (min ((s.gate g).1 + s.f GATE_CFG.GUAR g) (s.f GATE_CFG.DEPTH g * 64),
    min ((s.gate g).2.1 + s.f GATE_CFG.CEIL g) (s.f GATE_CFG.DEPTH g * 64), (s.gate g).2.2.1,
    (s.gate g).2.2.2 || min ((s.gate g).1 + s.f GATE_CFG.GUAR g) (s.f GATE_CFG.DEPTH g * 64) == s.f GATE_CFG.DEPTH g * 64)

theorem State.risen_gate : (s.risen g).gate g = s.risenLevel g := by
  rw [State.risenLevel, State.risen, State.setGate_gate, if_pos rfl, State.gateDepth, s.loadGate_gateF g _ rfl, s.loadGate_gateF g _ rfl,
    s.loadGate_gateF g _ rfl, if_pos rfl, if_pos rfl, if_pos rfl]

theorem State.risen_leaves : Leaves [.gateCfg, .gates] noReg s (s.risen g) :=
  ((s.leaves_loadGate g).mono (by simp) fun _ _ e => e).into ((s.loadGate g).leaves_setGate g _) (by simp) fun _ _ e => e

theorem State.risen_others (k : Nat) (hk : k ≠ g) : (s.risen g).gate k = s.gate k := by
  rw [State.risen, State.setGate_gate, if_neg hk]
  exact State.gate_of rfl k

theorem State.risen_gateF (x : Fld) (hx : x.reg = .gateCfg) (k : Nat) : (s.risen g).gateF x k
    = if k = g then s.f x k else s.gateF x k := by
  rw [← s.loadGate_gateF g x hx k]
  exact State.gateF_of (((s.loadGate g).leaves_setGate g _).1 .gateCfg (by simp)) x k

/-- What follows the rise changes the buckets and the queue of the gate alone. -/
theorem State.refillGate_drains : DrainsOnly g (s.risen g) (s.refillGate g) := by
  rw [s.refillGate_eq]
  split
  · exact .refl _ g
  · exact .gateDrain g _ _

theorem State.leaves_refillGate : Leaves [.gates, .gateQ, .gateCfg] noReg s (s.refillGate g) :=
  ((s.risen_leaves g).mono (by simp) fun _ _ e => e).into (s.refillGate_drains g).leaves (by simp) fun _ _ e => e

theorem State.gateHolds_iff (c : Nat) : s.gateHolds g c = true ↔ s.gateF GATE_CFG.CEIL g = 0xFFFFF ∨ c ≤ (s.gate g).2.1 := by
  simp [State.gateHolds]

/-- What a refill of a gate does: the setting as written takes effect, both buckets rise, and what waits leaves. -/
structure GateFilled (s t : State) (g : Nat) : Prop where
  cfg : ∀ x : Fld, x.reg = .gateCfg → t.gateF x g = s.f x g
  free : s.gateWait g = [] → t.gateWait g = [] ∧ t.gate g = s.risenLevel g
  held : ∀ c cs, s.gateWait g = c :: cs → s.f GATE_CFG.CEIL g ≠ 0xFFFFF → (s.risenLevel g).2.1 < c →
    t.gateWait g = s.gateWait g ∧ t.gate g = s.risenLevel g
  one : ∀ c, s.gateWait g = [c] → (s.f GATE_CFG.CEIL g = 0xFFFFF ∨ c ≤ (s.risenLevel g).2.1) →
    t.gateWait g = [] ∧ t.gate g = gateCharge (s.risenLevel g) c

theorem State.refillGate_fills : GateFilled s (s.refillGate g) g := by
  have cfg : ∀ x : Fld, x.reg = .gateCfg → (s.risen g).gateF x g = s.f x g := fun x hx => by rw [s.risen_gateF g x hx, if_pos rfl]
  have wait : (s.risen g).gateWait g = s.gateWait g := State.gateWait_of ((s.risen_leaves g).1 .gateQ (by simp)) g
  have run := s.refillGate_eq g
  constructor
  · intro x hx
    rw [State.gateF_of ((s.refillGate_drains g).leaves.1 .gateCfg (by simp)), cfg x hx]
  · intro none
    rw [run, none]
    exact ⟨wait.trans none, s.risen_gate g⟩
  · intro c cs queue ceiling low
    have full : (s.risen g).gateHolds g c = false := by
      rw [Bool.eq_false_iff]
      intro h
      rcases ((s.risen g).gateHolds_iff g c).1 h with e | e
      · exact ceiling ((cfg _ rfl).symm.trans e)
      · rw [s.risen_gate] at e
        omega
    rw [queue, List.isEmpty_cons, if_neg (by decide), Machine.gateDrain, full, if_neg (by decide)] at run
    rw [run, queue]
    exact ⟨by rw [State.setGateWait_wait, if_pos rfl], s.risen_gate g⟩
  · intro c queue room
    have holds : (s.risen g).gateHolds g c = true := ((s.risen g).gateHolds_iff g c).2 (by rwa [cfg _ rfl, s.risen_gate])
    rw [queue, List.isEmpty_cons, if_neg (by decide), Machine.gateDrain, holds, if_pos rfl, Machine.gateDrain, State.gateLeave_eq, s.risen_gate] at run
    rw [run]
    refine ⟨by rw [State.setGateWait_wait, if_pos rfl], ?_⟩
    exact (State.gate_of (((s.risen g).setGate g _).leaves_setGateWait g [] |>.1 .gates (by simp)) g).trans
      (by rw [State.setGate_gate, if_pos rfl])

end

/-! ## Every gate -/

section

/-- Gate g stands in t as in s, and so does its setting as written. -/
structure GateSame (s t : State) (g : Nat) : Prop where
  cfg : NMap.get t.mem.gateCfg (Reg.resetNat .gateCfg) g = NMap.get s.mem.gateCfg (Reg.resetNat .gateCfg) g
  wait : t.gateWait g = s.gateWait g
  gate : t.gate g = s.gate g
  reg : t.r .gateCfg g = s.r .gateCfg g

variable {s t u : State} {g : Nat}

theorem GateSame.refl (s : State) (g : Nat) : GateSame s s g := ⟨rfl, rfl, rfl, rfl⟩

theorem GateSame.trans (h : GateSame s t g) (i : GateSame t u g) : GateSame s u g :=
  ⟨i.cfg.trans h.cfg, i.wait.trans h.wait, i.gate.trans h.gate, i.reg.trans h.reg⟩

theorem GateSame.gateF (h : GateSame s t g) (x : Fld) : t.gateF x g = s.gateF x g := by rw [State.gateF, State.gateF, h.cfg]

theorem GateSame.f (h : GateSame s t g) (x : Fld) (hx : x.reg = .gateCfg) : t.f x g = s.f x g := by rw [State.f, State.f, hx, h.reg]

theorem GateSame.level (h : GateSame s t g) : t.risenLevel g = s.risenLevel g := by
  rw [State.risenLevel, State.risenLevel, h.gate, h.f _ rfl, h.f _ rfl, h.f _ rfl]

/-- A refill between two states at which the gate stands unchanged. -/
theorem GateFilled.between {v : State} (before : GateSame s t g) (fill : GateFilled t u g) (after : GateSame u v g) :
    GateFilled s v g := by
  have ceiling := before.f GATE_CFG.CEIL rfl
  constructor
  · intro x hx
    rw [after.gateF, fill.cfg x hx, before.f x hx]
  · intro none
    rw [after.wait, after.gate, ← before.level]
    exact fill.free (before.wait.trans none)
  · intro c cs queue cap low
    rw [after.wait, after.gate, ← before.level, ← before.wait]
    exact fill.held c cs (before.wait.trans queue) (by rwa [ceiling]) (by rwa [before.level])
  · intro c queue room
    rw [after.wait, after.gate, ← before.level]
    exact fill.one c (before.wait.trans queue) (by rwa [ceiling, before.level])

/-- The refill of one gate leaves the others. -/
theorem State.refillGate_others (s : State) (g k : Nat) (hk : k ≠ g) : GateSame s (s.refillGate g) k := by
  have drains := s.refillGate_drains g
  refine ⟨?_, ?_, ?_, (s.leaves_refillGate g).2 .gateCfg k (by simp [noReg])⟩
  · rw [drains.leaves.1 .gateCfg (by simp)]
    exact (NMap.get_set _ _ _ _ _).trans (if_neg hk)
  · rw [drains.waits k hk, State.gateWait_of ((s.risen_leaves g).1 .gateQ (by simp))]
  · rw [drains.gates k hk, s.risen_others g k hk]

theorem State.refills (xs : List Nat) (distinct : xs.Nodup) (s : State) (k : Nat) :
    (k ∈ xs → GateFilled s (s.each xs State.refillGate) k) ∧ (k ∉ xs → GateSame s (s.each xs State.refillGate) k) := by
  induction xs generalizing s with
  | nil => exact ⟨nofun, fun _ => ⟨rfl, rfl, rfl, rfl⟩⟩
  | cons g gs ih =>
    obtain ⟨fresh, rest⟩ := List.nodup_cons.1 distinct
    obtain ⟨fills, keeps⟩ := ih rest (s.refillGate g)
    have step : s.each (g :: gs) State.refillGate = (s.refillGate g).each gs State.refillGate := rfl
    rw [step]
    refine ⟨fun here => ?_, fun no => ?_⟩
    · rcases List.mem_cons.1 here with rfl | later
      · exact .between (.refl s k) (s.refillGate_fills k) (keeps fresh)
      · exact .between (s.refillGate_others g k fun e => fresh (e ▸ later)) (fills later) (.refl _ k)
    · exact (s.refillGate_others g k fun e => no (e ▸ List.mem_cons_self)).trans (keeps fun m => no (List.mem_cons_of_mem _ m))

end

/-! ## The commands of the gates -/

section
variable (s : State)

/-- The gates and masters after a refill. -/
def State.gatesFilled : State := s.each (List.range 9) State.refillGate
def State.rtLoaded : State := s.each (List.range 14) State.loadRt
def State.newPeriod : State := { s with units.rtUsed := [] }

theorem gateRefill_fills : exec .gateRefill s = .next s.gatesFilled.rtLoaded.newPeriod := by
  rw [exec_gateRefill, execGateRefill, State.newPeriod, State.rtLoaded, State.gatesFilled]

theorem State.leaves_gatesFilled : Leaves [.gates, .gateQ, .gateCfg] noReg s s.gatesFilled :=
  .over (.refl _ _ s) fun g t h => h.trans (t.leaves_refillGate g)

theorem State.leaves_rtLoaded : Leaves [.rtCfg] noReg s s.rtLoaded := .over (.refl _ _ s) fun m t h => h.trans (t.leaves_loadRt m)

theorem State.leaves_newPeriod : Leaves [.rtUsed] noReg s s.newPeriod := .one .rtUsed (.refl _ _ s) (by simp)

theorem State.loadRt_rtF (m k : Nat) (x : Fld) (hx : x.reg = .gateRt) : (s.loadRt m).rtF x k = if k = m then s.f x k else s.rtF x k := by
  unfold State.rtF State.loadRt State.f
  dsimp only
  rw [NMap.get_set, hx]
  split
  · next e => rw [e]
  · rfl

theorem State.rtLoaded_rtF (m : Nat) (hm : m < 14) (x : Fld) (hx : x.reg = .gateRt) : s.rtLoaded.rtF x m = s.f x m := by
  have each := State.each_units (v := fun (t : State) (m : Nat) => (t.rtF x m, t.f x m)) (g := State.loadRt)
    (P := fun a b => b = (a.2, a.2)) (fun u a b hb => by
      rw [u.loadRt_rtF a b x hx, if_neg hb, (u.leaves_loadRt a).f_same x b (by simp [noReg])])
    (fun u a => by rw [u.loadRt_rtF a a x hx, if_pos rfl, (u.leaves_loadRt a).f_same x a (by simp [noReg])])
    (List.nodup_range (n := 14)) s m
  exact congrArg Prod.fst (each.1 (List.mem_range.2 hm))

/-- R162, R184: what a refill shows of a gate. -/
theorem State.refilled_gate (g : Nat) (hg : g < 9) : GateFilled s s.gatesFilled.rtLoaded.newPeriod g := by
  have later : Leaves [.rtCfg, .rtUsed] noReg s.gatesFilled s.gatesFilled.rtLoaded.newPeriod :=
    (s.gatesFilled.leaves_rtLoaded.mono (by simp) fun _ _ e => e).into (State.leaves_newPeriod _) (by simp) fun _ _ e => e
  have fill : GateFilled s s.gatesFilled g := by
    unfold State.gatesFilled
    exact (State.refills (List.range 9) List.nodup_range s g).1 (List.mem_range.2 hg)
  generalize s.gatesFilled = t at later fill
  refine .between (.refl s g) fill ⟨?_, ?_, ?_, ?_⟩
  · rw [later.1 .gateCfg (by simp)]
  · exact State.gateWait_of (later.1 .gateQ (by simp)) g
  · exact State.gate_of (later.1 .gates (by simp)) g
  · exact later.2 _ _ (by simp [noReg])

theorem State.refilled_rt (m : Nat) (hm : m < 14) (x : Fld) (hx : x.reg = .gateRt) :
    s.gatesFilled.rtLoaded.newPeriod.rtF x m = s.f x m := by
  have same : s.gatesFilled.rtLoaded.newPeriod.rtF x m = s.gatesFilled.rtLoaded.rtF x m := by
    rw [State.rtF, (State.leaves_newPeriod _).1 .rtCfg (by simp), State.rtF]
  rw [same, s.gatesFilled.rtLoaded_rtF m hm x hx, s.leaves_gatesFilled.f_same x m (by simp [noReg])]

/-! ### Requests -/

variable (g n : Nat)

theorem gateRequest_gate (hg : g < 9) : exec (.gateRequest g n) s = .next (s.gateReq g n) := by
  rw [exec_gateRequest, execGateRequest, decide_eq_true (by omega : g < 23), unit_true, isGate, decide_eq_true hg, if_pos rfl]

theorem gateRequest_rt (m : Nat) (hm : m < 14) : exec (.gateRequest (9 + m) n) s = .next (rtRequest m n s) := by
  rw [exec_gateRequest, execGateRequest, decide_eq_true (by omega : 9 + m < 23), unit_true, isGate,
    decide_eq_false (by omega : ¬ 9 + m < 9), if_neg (by decide), Nat.add_sub_cancel_left]

theorem State.gateReq_waits (hg : g < 9) (h : s.gateWait g ≠ [] ∨ ¬ s.gateHolds g (cdiv n 64 * 64) = true) :
    s.gateReq g n = s.setGateWait g (s.gateWait g ++ [cdiv n 64 * 64]) := by
  unfold State.gateReq
  dsimp only
  rw [isGate, decide_eq_true hg, if_neg (by decide), if_neg]
  rw [Bool.and_eq_true, List.isEmpty_iff]
  rintro ⟨empty, holds⟩
  exact h.elim (fun no => no empty) fun no => no holds

theorem State.gateReq_leaves (hg : g < 9) (empty : s.gateWait g = []) (holds : s.gateHolds g (cdiv n 64 * 64) = true) :
    s.gateReq g n = s.setGate g (gateCharge (s.gate g) (cdiv n 64 * 64)) := by
  unfold State.gateReq
  dsimp only
  rw [isGate, decide_eq_true hg, if_neg (by decide), empty, holds, if_pos (by decide), s.gateLeave_eq]

/-! ### Misses -/

/-- A miss is flagged and counted, and the manager is told. -/
def State.missed (miss count : Fld) (i u : Nat) : State := ((s.setF miss i 1).incSat count i 1).mgrIrq 5 u

theorem State.missed_shows (miss count : Fld) (i u : Nat) (same : miss.reg = count.reg) (fits : miss.fits) (fits' : count.fits)
    (one : miss.hi + 1 - miss.lo = 1) (apart : count.apart miss) (other : miss.apart count) (en : SYS_IRQCFG.EN.reg ≠ miss.reg) :
    (s.missed miss count i u).fb miss i = true ∧ (s.missed miss count i u).f count i = min (s.f count i + 1) count.top
      ∧ (s.fb SYS_IRQCFG.EN 0 = true → .mgrIrq 5 u ∈ (s.missed miss count i u).outbox)
      ∧ Leaves [.outbox, .keptIrqs] (oneReg miss.reg i) s (s.missed miss count i u) := by
  have counted : Leaves [] (oneReg miss.reg i) s ((s.setF miss i 1).incSat count i 1) :=
    .incSat (.setF (.refl _ _ s) ⟨rfl, rfl⟩) ⟨same.symm, rfl⟩
  refine ⟨?_, ?_, fun on => State.mem_mgrIrq _ _ _ _ (.inr ⟨?_, rfl⟩), .mgrIrq (counted.mono (by simp) fun _ _ e => e)⟩
  · refine State.fb_of_f ?_
    rw [State.missed, State.mgrIrq_f, State.incSat_eq, State.setF_f_apart _ _ _ _ _ _ fits' apart, State.setF_f_same _ _ _ _ fits, one,
      Nat.mod_eq_of_lt (by decide)]
  · rw [State.missed, State.mgrIrq_f, State.incSat_f_same _ _ _ _ fits', State.setF_f_apart _ _ _ _ _ _ fits other]
  · rw [State.fb, counted.f_same SYS_IRQCFG.EN 0 fun e => en e.1, ← State.fb, on]

/-! ### Windows -/

/-- What a window that ends counts, and the setting of the next one. -/
def State.windowCounted (g : Nat) : State :=
  (if s.windowShort g = true then s.missed GATE_STAT.MISS GATE_STAT.MISSED g g else s).loadWin g

theorem guaranteeWindowEnd_ends (hg : g < 9) : exec (.guaranteeWindowEnd g) s = .next ((s.windowCounted g).setGate g
    (((s.windowCounted g).gate g).1, ((s.windowCounted g).gate g).2.1, 0,
      ((s.windowCounted g).gate g).1 == (s.windowCounted g).gateDepth g)) := by
  rw [exec_guaranteeWindowEnd, execGuaranteeWindowEnd, isGate, decide_eq_true hg, unit_true, windowEndGo, State.windowCounted, State.missed]

theorem State.missed_window : (s.missed GATE_STAT.MISS GATE_STAT.MISSED g g).f GATE_STAT.WIN_US g = s.f GATE_STAT.WIN_US g := by
  rw [State.missed, State.mgrIrq_f, State.incSat_eq, State.setF_f_apart _ _ _ _ _ _ (by decide) (by decide),
    State.setF_f_apart _ _ _ _ _ _ (by decide) (by decide)]

theorem State.loadWin_win (x : Fld) (hx : x.reg = .gateStat) : (s.loadWin g).winF x g = s.f x g := by
  unfold State.winF State.loadWin State.f
  dsimp only
  rw [NMap.get_set, if_pos rfl, hx]

theorem State.windowCounted_win : (s.windowCounted g).winF GATE_STAT.WIN_US g = s.f GATE_STAT.WIN_US g := by
  rw [State.windowCounted, State.loadWin_win _ _ _ rfl]
  split
  · exact s.missed_window g
  · rfl

end

/-- Settles O39: the refill by `refilled_gate`, requests by `gateReq_leaves`, misses by `missed_shows`. -/
theorem gatesChargeRequestsAndReportMisses : Obligations.GatesChargeRequestsAndReportMisses := by
  unfold Obligations.GatesChargeRequestsAndReportMisses
  refine ⟨fun s => ?_, ?_, ?_, ?_, ?_⟩
  · refine ⟨_, gateRefill_fills s, rfl, fun g hg => ?_, fun m x hm hx => s.refilled_rt m hm x hx, ?_⟩
    · obtain ⟨cfg, free, held, one⟩ := s.refilled_gate g hg
      generalize s.gatesFilled.rtLoaded.newPeriod = t at cfg free held one
      refine ⟨cfg, fun none => ?_, fun c cs queue cap low => ?_, fun c queue room => ?_⟩
      · obtain ⟨wait, level⟩ := free none
        rw [level]
        exact ⟨wait, rfl, rfl, rfl⟩
      · obtain ⟨wait, level⟩ := held c cs queue cap low
        rw [level]
        exact ⟨wait, rfl, rfl⟩
      · obtain ⟨wait, level⟩ := one c queue room
        rw [level]
        refine ⟨wait, ?_, ?_⟩
        · unfold gateCharge State.risenLevel
          split <;> rfl
        · unfold gateCharge State.risenLevel
          split <;> rfl
    · exact ((s.leaves_gatesFilled.mono (by simp) fun _ _ e => e).into (State.leaves_rtLoaded _) (by simp) fun _ _ e => e).into
        (State.leaves_newPeriod _) (by simp) fun _ _ e => e
  · intro s g n hg c x holds
    have iff := s.gateHolds_iff g c
    refine ⟨fun h => ?_, fun empty room => ?_⟩
    · have run := (gateRequest_gate s g n hg).trans (congrArg _ (s.gateReq_waits g n hg (h.imp_right fun no yes => no (iff.1 yes))))
      exact ⟨_, run, (s.setGateWait_wait g _ g).trans (if_pos rfl), fun k hk => (s.setGateWait_wait g _ k).trans (if_neg hk),
        s.leaves_setGateWait g _⟩
    · have run := (gateRequest_gate s g n hg).trans (congrArg _ (s.gateReq_leaves g n hg empty (iff.2 room)))
      exact ⟨_, run, (s.setGate_gate g _ g).trans (if_pos rfl), fun k hk => (s.setGate_gate g _ k).trans (if_neg hk),
        s.leaves_setGate g _⟩
  · intro s m n hm used
    have run := gateRequest_rt s n m hm
    unfold rtRequest at run
    dsimp only at run
    refine ⟨fun room => ?_, fun cap full => ?_⟩
    · rw [if_pos (by simpa using room)] at run
      exact ⟨_, run, (NMap.get_set _ _ _ _ _).trans (if_pos rfl), .one .rtUsed (.refl _ _ s) (by simp)⟩
    · have no : ¬ ((decide (s.rtF GATE_RT.CAP m = 0) || decide (NMap.get s.units.rtUsed 0 m < s.rtF GATE_RT.CAP m)) = true) := by
        rw [Bool.or_eq_true, decide_eq_true_eq, decide_eq_true_eq]
        rintro (e | e)
        · exact cap e
        · exact absurd e (Nat.not_lt.2 full)
      rw [if_neg no] at run
      exact ⟨_, run, State.fb_of_f (State.setF_f_width _ _ _ _ 1 (by decide) rfl), .setF (.refl _ _ s) ⟨rfl, rfl⟩⟩
  · intro s m n hm
    have run : exec (.rtBoundExceeded m n) s
        = .next (if s.rtF GATE_RT.BOUND_NS m < n then s.missed GATE_RT.MISS GATE_RT.MISSED m (9 + m) else s) := by
      rw [exec_rtBoundExceeded, execRtBoundExceeded, isRtm, decide_eq_true hm, unit_true, State.missed]
    refine ⟨fun small => ?_, fun big => ?_⟩
    · rw [run, if_neg (by omega)]
    · rw [if_pos big] at run
      exact ⟨_, run, s.missed_shows GATE_RT.MISS GATE_RT.MISSED m (9 + m) rfl (by decide) (by decide) rfl (by decide) (by decide) (by decide)⟩
  · intro s g hg
    have run := guaranteeWindowEnd_ends s g hg
    obtain ⟨miss, count, told, left⟩ := s.missed_shows GATE_STAT.MISS GATE_STAT.MISSED g g rfl (by decide) (by decide) rfl (by decide)
      (by decide) (by decide)
    have win := s.missed_window g
    have before : Leaves [.winCfg, .outbox, .keptIrqs] (oneReg .gateStat g) s (s.windowCounted g) := by
      unfold State.windowCounted
      split
      · exact (left.mono (by simp) fun _ _ e => e).into (State.leaves_loadWin _ g) (by simp) fun _ _ no => no.elim
      · exact Leaves.into (.refl _ _ s) (State.leaves_loadWin _ g) (by simp) fun _ _ no => no.elim
    have gates := State.gate_of (before.1 .gates (by simp))
    have set := (s.windowCounted g).leaves_setGate g
      (((s.windowCounted g).gate g).1, ((s.windowCounted g).gate g).2.1, 0,
        ((s.windowCounted g).gate g).1 == (s.windowCounted g).gateDepth g)
    have level := (s.windowCounted g).setGate_gate g
      (((s.windowCounted g).gate g).1, ((s.windowCounted g).gate g).2.1, 0,
        ((s.windowCounted g).gate g).1 == (s.windowCounted g).gateDepth g)
    refine ⟨_, run, ?_, ?_, ?_, fun k hk => ?_, fun short => ?_, ?_, fun enough => ?_, ?_⟩
    · rw [level, if_pos rfl, gates]
    · rw [level, if_pos rfl, gates]
    · rw [level, if_pos rfl]
    · rw [level, if_neg hk, gates]
    · have counted : s.windowCounted g = (s.missed GATE_STAT.MISS GATE_STAT.MISSED g g).loadWin g := by
        rw [State.windowCounted, if_pos short]
      have loaded := (s.missed GATE_STAT.MISS GATE_STAT.MISSED g g).leaves_loadWin g
      rw [← counted] at loaded
      refine ⟨?_, ?_, fun on => ?_⟩
      · rw [State.fb, set.f_same _ _ (by simp [noReg]), loaded.f_same _ _ (by simp [noReg]), ← State.fb, miss]
      · rw [set.f_same _ _ (by simp [noReg]), loaded.f_same _ _ (by simp [noReg]), count]
      · rw [set.1 .outbox (by simp), loaded.1 .outbox (by simp)]
        exact told on
    · rw [State.winF, set.1 .winCfg (by simp), ← State.winF, s.windowCounted_win g]
    · have counted : s.windowCounted g = s.loadWin g := by rw [State.windowCounted, enough, if_neg (by decide)]
      rw [counted] at set ⊢
      exact ((s.leaves_loadWin g).mono (by simp) fun _ _ e => e).into set (by simp) fun _ _ e => e
    · exact (before.mono (by simp) fun _ _ e => e).into set (by simp) fun _ _ no => no.elim

end Sys2Proof.Machine
end

section
/-! PROOFS. Lines in memory and in the system cache: what is stored beside the bytes of a request (R193 to R197, R200). -/

set_option Elab.async false

namespace Sys2Proof.Machine

/-! ## Regions -/

/-- The regions of two states are the same. -/
def SameRegions (s t : State) : Prop := ∀ (x : Fld) (i : Nat), x.reg = .memRgn0 ∨ x.reg = .memRgn1 → t.f x i = s.f x i

section
variable {s t u : State}

theorem SameRegions.refl (s : State) : SameRegions s s := fun _ _ _ => rfl

theorem SameRegions.trans (h : SameRegions s t) (g : SameRegions t u) : SameRegions s u := fun x i hx => (g x i hx).trans (h x i hx)

theorem SameRegions.of_leaves {ps : List Part} {q : Reg → Nat → Prop} (h : Leaves ps q s t)
    (hq : ∀ i, ¬ q .memRgn0 i ∧ ¬ q .memRgn1 i := by simp [occOnly, noReg]) : SameRegions s t := fun x i hx =>
  h.f_same x i (by rcases hx with e | e <;> rw [e]; exacts [(hq i).1, (hq i).2])

theorem SameRegions.fb (h : SameRegions s t) (x : Fld) (i : Nat) (hx : x.reg = .memRgn0 ∨ x.reg = .memRgn1) : t.fb x i = s.fb x i := by
  rw [State.fb, State.fb, h x i hx]

theorem SameRegions.regionOf (h : SameRegions s t) (a : Nat) : t.regionOf a = s.regionOf a := by
  have en := fun n => h.fb MEM_RGN1.EN n (.inr rfl)
  have base := fun n => h MEM_RGN0.BASE n (.inl rfl)
  have limit := fun n => h MEM_RGN1.LIMIT n (.inr rfl)
  unfold State.regionOf
  simp only [en, base, limit]

theorem SameRegions.regionBytes (h : SameRegions s t) (n : Nat) : t.regionBytes n = s.regionBytes n := by
  unfold State.regionBytes
  rw [h MEM_RGN0.BASE n (.inl rfl), h MEM_RGN1.LIMIT n (.inr rfl)]

theorem SameRegions.tagRegion (h : SameRegions s t) (l : Nat) : t.tagRegion l = s.tagRegion l := by
  have tag := fun n => h.fb MEM_RGN1.TAG n (.inr rfl)
  unfold State.tagRegion
  simp only [h.regionOf, tag]

theorem SameRegions.tagAddr (h : SameRegions s t) (n l : Nat) : t.tagAddr n l = s.tagAddr n l := by
  unfold State.tagAddr
  rw [h MEM_RGN0.BASE n (.inl rfl), h.regionBytes]

theorem SameRegions.copyLine (h : SameRegions s t) (l : Nat) : t.copyLine? l = s.copyLine? l := by
  have mirror := fun n => h.fb MEM_RGN1.MIRROR n (.inr rfl)
  have base := fun n => h MEM_RGN0.BASE n (.inl rfl)
  unfold State.copyLine?
  simp only [h.regionOf, mirror, base, h.regionBytes]

theorem SameRegions.hwByte (h : SameRegions s t) (k : Nat) : t.hwByte k ↔ s.hwByte k := by
  unfold State.hwByte
  simp only [h.tagRegion, h.tagAddr, h.copyLine]

end

/-! ## Bytes -/

section
variable (s : State)

theorem State.bytes_length (a n : Nat) : (s.bytes a n).length = n := by
  induction n generalizing a with
  | zero => rfl
  | succ n ih => rw [State.bytes, List.length_cons, ih]

theorem State.byte_of_cells {s t : State} (h : t.mem.cells = s.mem.cells) (k : Nat) : t.byte k = s.byte k := by
  rw [State.byte, State.byte, h]

theorem State.bytes_of_cells {s t : State} (h : t.mem.cells = s.mem.cells) (a n : Nat) : t.bytes a n = s.bytes a n := by
  induction n generalizing a with
  | zero => rfl
  | succ n ih => rw [State.bytes, State.bytes, ih, State.byte_of_cells h]

end

/-! ## What the hardware stores beside a line -/

/-- The parts that a line in memory or in the cache may change. -/
def slotParts : List Part := [.cells, .cache, .useClock, .poison, .flips, .chkFlips]

/-- From `s` to `t` lines have been moved between the cache and memory: beside the bytes that the hardware keeps itself,
memory holds what it held. -/
structure Homed (s t : State) : Prop where
  leaves : Leaves slotParts occOnly s t
  bytes : ∀ k, ¬ s.hwByte k → t.byte k = s.byte k

section
variable {s t u : State}

theorem Homed.refl (s : State) : Homed s s := ⟨.refl _ _ s, fun _ _ => rfl⟩

theorem Homed.trans (h : Homed s t) (g : Homed t u) : Homed s u :=
  ⟨h.leaves.trans g.leaves, fun k hk => (g.bytes k fun hw => hk (((SameRegions.of_leaves h.leaves).hwByte k).1 hw)).trans (h.bytes k hk)⟩

/-- A change beside the bytes of memory. -/
theorem Homed.of_leaves {ps : List Part} {q : Reg → Nat → Prop} (h : Leaves ps q s t) (hp : ps ⊆ slotParts) (hc : .cells ∉ ps)
    (hq : ∀ r i, q r i → occOnly r i := by exact fun _ _ no => no.elim) : Homed s t :=
  ⟨h.mono hp hq, fun k _ => State.byte_of_cells (h.1 .cells hc) k⟩

/-- The hardware stores bytes of its own. -/
theorem Homed.store {a : Nat} {bs : List Byte} (h : ∀ k, a ≤ k → k < a + bs.length → s.hwByte k) : Homed s (s.store a bs) := by
  refine ⟨.one .cells (.refl _ _ s) (by simp [slotParts]), fun k hk => ?_⟩
  exact s.store_byte_outside a bs k fun ⟨lo, hi⟩ => hk (h k lo hi)

theorem Homed.freshLine (s : State) (l : Nat) : Homed s (s.freshLine l) := by
  have left : Leaves [.poison, .flips, .chkFlips] noReg s (s.freshLine l) := .parts (.refl _ _ s)
  exact .of_leaves left (by simp [slotParts]) (by simp)

theorem Homed.lineStored (s : State) (l : Nat) : Homed s (s.lineStored l) := by
  have fresh := Homed.freshLine s l
  have stored : Homed (s.freshLine l) (s.lineStored l) := by
    unfold State.lineStored
    dsimp only
    generalize s.freshLine l = t
    split
    · next n tag =>
      refine .store fun k lo hi => .inl ⟨l, n, tag, lo, ?_⟩
      rwa [State.tagOf, length_toLE] at hi
    · split
      · next c copy =>
        refine Homed.trans (.store fun k lo hi => .inr ⟨l, c, copy, lo, ?_⟩) (.freshLine _ c)
        rwa [State.lineBytes, State.bytes_length] at hi
      · exact .refl t
  exact fresh.trans stored

/-- The cache after a change of its lines. -/
def State.withCache (s : State) (c : List CacheLine) : State := { s with mem.cache := c }
/-- The clock of use has advanced. -/
def State.usedNow (s : State) : State := { s with mem.useClock := s.mem.useClock + 1 }

theorem Homed.withCache (s : State) (c : List CacheLine) : Homed s (s.withCache c) :=
  .of_leaves (ps := [.cache]) (q := noReg) (.one .cache (.refl _ _ s) (by simp)) (by simp [slotParts]) (by simp)

theorem Homed.usedNow (s : State) : Homed s s.usedNow :=
  .of_leaves (ps := [.useClock]) (q := noReg) (.one .useClock (.refl _ _ s) (by simp)) (by simp [slotParts]) (by simp)

theorem Homed.evict (s : State) (l : Nat) : Homed s (s.evict l) := by
  unfold State.evict
  split
  · exact .refl s
  · dsimp only
    split
    · exact (Homed.withCache s _).trans (.lineStored _ l)
    · exact .withCache s _

theorem Homed.updateOcc (s : State) : Homed s s.updateOcc := by
  have left : Leaves [] occOnly s s.updateOcc := .over (.refl _ _ s) fun _ _ h => .setF h rfl
  exact .of_leaves left (by simp) (by simp) fun _ _ e => e

theorem Homed.touch (s : State) (part l : Nat) (dirty : Bool) : Homed s (s.touch part l dirty) := by
  have used := Homed.usedNow s
  unfold State.touch
  dsimp only
  split
  · exact used.trans (.withCache s.usedNow _)
  · split
    · split
      · exact used.trans (.lineStored s.usedNow l)
      · exact used
    · refine Homed.trans ?_ (.updateOcc _)
      split
      · exact (used.trans (.evict s.usedNow _)).trans (.withCache _ _)
      · exact used.trans (.withCache s.usedNow _)

end

end Sys2Proof.Machine
end

section
/-! PROOFS. Requests of masters at the home slices (R190, R193, R197, R202, R204). -/

set_option Elab.async false

namespace Sys2Proof.Machine

/-! ## The way to the home slice -/

section
variable (s : State)

/-- A request has passed its gate, and a store may have folded into its item's signature. -/
def State.onTheWay (a : NMap (Nat × Nat × Nat × Bool)) (b : NMap (List Nat)) (v : NMap VecSt) : State :=
  { s with mem.gates := a, mem.gateQ := b, units.vecs := v }

theorem State.gateReq_way (g n : Nat) : ∃ a b, s.gateReq g n = s.onTheWay a b s.units.vecs := by
  unfold State.gateReq
  dsimp only
  split
  · exact ⟨_, _, rfl⟩
  · split
    · rw [s.gateLeave_eq]
      exact ⟨_, _, rfl⟩
    · exact ⟨_, _, rfl⟩

theorem State.foldStore_way (m : Master) (a : Nat) (bs : List Byte) : ∃ v, s.foldStore m a bs = s.onTheWay s.mem.gates s.mem.gateQ v
    ∧ (masterVec m = none → v = s.units.vecs) := by
  unfold State.foldStore
  split
  · next e h => exact ⟨_, rfl, fun no => by rw [h] at no; cases no⟩
  · exact ⟨_, rfl, fun _ => rfl⟩

theorem State.leaves_onTheWay (a b v) : Leaves [.gates, .gateQ, .vecs] noReg s (s.onTheWay a b v) := .parts (.refl _ _ s)

theorem State.found_none (l : Nat) : s.found l {} = s := by
  have none : ∀ k, s.addFlips k [] [] = s := fun k => by
    unfold State.addFlips
    dsimp only
    rw [List.filterMap_nil, List.map_nil, List.append_nil, List.append_nil]
  unfold State.found
  dsimp only
  rw [none]
  split
  · exact none _
  · rfl

/-- A request over clocks that run to a line that no carve-out holds. -/
theorem State.dramReq_arrives (q : HomeReq) (fclk : s.clockLost .fclk = false) (clock : (masterDomain q.m).any s.clockLost = false)
    (free : s.carved (q.addr - dramBase) = false) : s.dramReq q {} = (s.gateReq (s.partOf q.m) q.bytes).arrive q := by
  unfold State.dramReq
  rw [fclk, clock, if_neg (by decide), free, if_neg (by decide), State.found_none]

/-- A request waits at its home. -/
def State.waits (q : HomeReq) : State := { s with mem.homeQ := s.mem.homeQ ++ [q] }
/-- A request holds a tracker for the snoop of a holder. -/
def State.snoops (q : HomeReq) (c : Cacher) : State :=
  { s with mem.snoops := s.mem.snoops ++ [{ target := c, line := q.line, req := q }] }

theorem State.leaves_waits (q : HomeReq) : Leaves [.homeQ] noReg s (s.waits q) := .one .homeQ (.refl _ _ s) (by simp)
theorem State.leaves_snoops (q : HomeReq) (c : Cacher) : Leaves [.snoops] noReg s (s.snoops q c) := .one .snoops (.refl _ _ s) (by simp)

theorem State.arrive_eq (q : HomeReq) : s.arrive q
    = if ((s.mem.snoops.any fun x => x.line == q.line) || s.mem.homeQ.any fun x => x.line == q.line) = true then s.waits q
      else match s.snoopFor q with
        | none => s.serve q
        | some c => if s.trackerFree (s.chanFor (128 * q.line)) = true then s.snoops q c else s.waits q := rfl

/-- One behind a request of its line waits. -/
theorem State.arrive_behind (q : HomeReq) (behind : (∃ x ∈ s.mem.snoops, x.line = q.line) ∨ ∃ x ∈ s.mem.homeQ, x.line = q.line) :
    s.arrive q = s.waits q := by
  rw [s.arrive_eq, if_pos]
  rw [Bool.or_eq_true, List.any_eq_true, List.any_eq_true]
  exact behind.imp (fun ⟨x, hx, e⟩ => ⟨x, hx, by simpa using e⟩) fun ⟨x, hx, e⟩ => ⟨x, hx, by simpa using e⟩

/-- No other request of the line is under way. -/
def State.lineFree (l : Nat) : Prop := (∀ x ∈ s.mem.snoops, x.line ≠ l) ∧ ∀ x ∈ s.mem.homeQ, x.line ≠ l

theorem State.lineFree_none (l : Nat) (free : s.lineFree l) :
    ((s.mem.snoops.any fun x => x.line == l) || s.mem.homeQ.any fun x => x.line == l) = false := by
  rw [Bool.or_eq_false_iff, List.any_eq_false, List.any_eq_false]
  exact ⟨fun x hx => by simpa using free.1 x hx, fun x hx => by simpa using free.2 x hx⟩

theorem State.arrive_serves (q : HomeReq) (free : s.lineFree q.line) (none : s.snoopFor q = none) : s.arrive q = s.serve q := by
  rw [s.arrive_eq, s.lineFree_none _ free, none]
  rfl

theorem State.arrive_snoops (q : HomeReq) (c : Cacher) (free : s.lineFree q.line) (holder : s.snoopFor q = some c) :
    s.arrive q = if s.trackerFree (s.chanFor (128 * q.line)) = true then s.snoops q c else s.waits q := by
  rw [s.arrive_eq, s.lineFree_none _ free, holder]
  rfl

/-! ## A line that can be used -/

theorem State.intact_of (l : Nat) (data : ∀ f ∈ s.mem.flips, blockOf f.line ≠ blockOf l) (check : ∀ f ∈ s.mem.chkFlips, f.line ≠ blockOf l) :
    s.intact l = true := by
  unfold State.intact
  rw [Bool.not_eq_true', Bool.or_eq_false_iff, List.any_eq_false, List.any_eq_false]
  exact ⟨fun f hf => by simpa using data f hf, fun f hf => by simpa using check f hf⟩

theorem State.dramLine_intact (l : Nat) (intact : s.intact l = true) : s.dramLine l = (some (s.lineBytes l), s) := by
  unfold State.dramLine State.eccRead
  rw [if_pos intact]
  dsimp only
  rw [if_pos intact]

theorem State.fetchLine_good (part l : Nat) (clean : l ∉ s.mem.poison) (intact : s.intact l = true)
    (good : s.tagGood l (s.lineBytes l) = true) : s.fetchLine part l = (.good, s) := by
  unfold State.fetchLine
  rw [if_neg (by simpa using clean), s.dramLine_intact l intact]
  dsimp only
  rw [if_pos good]

theorem State.dramGet_ready (part pa n l : Nat) (ready : s.lineReady l) : s.dramGet part pa n l = (.ok (s.bytes pa n), s.touch part l false) := by
  unfold State.dramGet
  rcases ready with hit | ⟨clock, clean, data, check, good⟩
  · rw [if_pos hit]
  · split
    · rfl
    · rw [clock, if_neg (by decide), s.fetchLine_good part l clean (s.intact_of l data check) good]

theorem State.dramPut_ready (part pa : Nat) (bs : List Byte) (l : Nat) (ready : bs.length = 128 ∧ pa % 128 = 0 ∨ s.lineReady l) :
    s.dramPut part pa bs l = (.ok [], ((s.dropHolders l).store pa bs).touch part l true) := by
  unfold State.dramPut
  dsimp only
  rcases ready with ⟨whole, start⟩ | hit | ⟨clock, clean, data, check, good⟩
  · rw [whole, start, if_pos (by simp)]
  · rw [hit, if_pos (by simp)]
  · split
    · rfl
    · rw [clock, if_neg (by decide), s.fetchLine_good part l clean (s.intact_of l data check) good]

/-! ## A request is served -/

variable (q : HomeReq)

theorem State.serve_read (read : q.write = none) (ready : s.lineReady q.line) : s.serve q
    = ((s.touch (s.partOf q.m) q.line false).emit (.memData q.m (s.bytes q.addr q.bytes))).fillHolder q.m q.line := by
  unfold State.serve
  dsimp only
  rw [read]
  dsimp only
  rw [s.dramGet_ready _ _ _ _ ready]

theorem State.serve_write {bs : List Byte} (write : q.write = some bs) (ready : bs.length = 128 ∧ q.addr % 128 = 0 ∨ s.lineReady q.line) :
    s.serve q = (((s.dropHolders q.line).store q.addr bs).touch (s.partOf q.m) q.line true).emit (.done q.m) := by
  unfold State.serve
  dsimp only
  rw [write]
  dsimp only
  rw [s.dramPut_ready _ _ _ _ ready]

theorem State.leaves_fillHolder (m : Master) (l : Nat) : Leaves [.holders] noReg s (s.fillHolder m l) := by
  unfold State.fillHolder
  split
  · split
    · exact .refl _ _ s
    · exact .one .holders (.refl _ _ s) (by simp)
  · exact .refl _ _ s

theorem State.fillHolder_holds (m : Master) (l : Nat) (c : Cacher) (hc : masterCacher m = some c) :
    ∃ h ∈ (s.fillHolder m l).mem.holders, h.who = c ∧ h.line = l := by
  unfold State.fillHolder
  rw [hc]
  dsimp only
  split
  · next yes =>
    obtain ⟨h, hh, e⟩ := List.any_eq_true.1 yes
    rw [Bool.and_eq_true, beq_iff_eq, beq_iff_eq] at e
    exact ⟨h, hh, e.2, e.1⟩
  · exact ⟨_, List.mem_cons_self, rfl, rfl⟩

/-- What a read that is served does. -/
theorem State.serve_reads (read : q.write = none) (ready : s.lineReady q.line) :
    (s.serve q).outbox = .memData q.m (s.bytes q.addr q.bytes) :: s.outbox
      ∧ (∀ k, ¬ s.hwByte k → (s.serve q).byte k = s.byte k)
      ∧ (∀ c, masterCacher q.m = some c → ∃ h ∈ (s.serve q).mem.holders, h.who = c ∧ h.line = q.line)
      ∧ Leaves (.outbox :: .holders :: slotParts) occOnly s (s.serve q) := by
  have touched := Homed.touch s (s.partOf q.m) q.line false
  rw [s.serve_read q read ready]
  generalize s.touch (s.partOf q.m) q.line false = t at touched
  have filled := (t.emit (.memData q.m (s.bytes q.addr q.bytes))).leaves_fillHolder q.m q.line
  refine ⟨?_, fun k hk => ?_, fun c hc => State.fillHolder_holds _ _ _ c hc, ?_⟩
  · rw [filled.1 .outbox (by simp)]
    exact congrArg _ (touched.leaves.1 .outbox (by simp [slotParts]))
  · rw [State.byte_of_cells (filled.1 .cells (by simp))]
    exact touched.bytes k hk
  · exact Leaves.into (.emit (touched.leaves.mono (fun _ m => .tail _ (.tail _ m)) fun _ _ e => e)) filled (by simp)
      fun _ _ no => no.elim

/-- What a write that is served does. -/
theorem State.serve_writes {bs : List Byte} (write : q.write = some bs)
    (ready : bs.length = 128 ∧ q.addr % 128 = 0 ∨ s.lineReady q.line) :
    (s.serve q).outbox = .done q.m :: s.outbox
      ∧ (∀ k, ¬ s.hwByte k → (s.serve q).byte k
          = if q.addr ≤ k ∧ k < q.addr + bs.length then bs.getD (k - q.addr) 0 else s.byte k)
      ∧ (∀ h ∈ (s.serve q).mem.holders, h.line ≠ q.line)
      ∧ Leaves (.outbox :: .holders :: slotParts) occOnly s (s.serve q) := by
  have dropped : Leaves (.holders :: slotParts) occOnly s (s.dropHolders q.line) := .one .holders (.refl _ _ s) (by simp)
  have stored : Leaves (.holders :: slotParts) occOnly s ((s.dropHolders q.line).store q.addr bs) :=
    .one .cells dropped (by simp [slotParts])
  have bytes : ∀ k, ((s.dropHolders q.line).store q.addr bs).byte k
      = if q.addr ≤ k ∧ k < q.addr + bs.length then bs.getD (k - q.addr) 0 else s.byte k := fun k => by
    rw [State.store_byte]
    exact if_congr Iff.rfl rfl rfl
  have gone : ∀ h ∈ ((s.dropHolders q.line).store q.addr bs).mem.holders, h.line ≠ q.line := fun h hh => by
    simpa using (List.mem_filter.1 hh).2
  rw [s.serve_write q write ready]
  generalize (s.dropHolders q.line).store q.addr bs = t at stored bytes gone
  have touched := Homed.touch t (s.partOf q.m) q.line true
  generalize t.touch (s.partOf q.m) q.line true = u at touched
  have whole : Leaves (.holders :: slotParts) occOnly s u := stored.into touched.leaves (by simp) fun _ _ e => e
  refine ⟨?_, fun k hk => ?_, ?_, .emit (whole.mono (fun _ m => .tail _ m) fun _ _ e => e)⟩
  · exact congrArg _ (whole.1 .outbox (by simp [slotParts]))
  · rw [← bytes k]
    exact touched.bytes k fun hw => hk (((SameRegions.of_leaves stored).hwByte k).1 hw)
  · rw [State.emit_mem, touched.leaves.1 .holders (by simp [slotParts])]
    exact gone

end

end Sys2Proof.Machine
end

section
/-! PROOFS. What a master's reads and writes of memory do, and what O40 says (R190 to R197, R202, R204, R210). -/

set_option Elab.async false

namespace Sys2Proof.Machine

section
variable (s s1 : State) (m : Master) (a pa n : Nat)

/-! ## Accesses that reach a physical address -/

theorem memoryRead_at (errs : BurstErrs) (on : s.sys.power.mode = .on) (reach : s.reach m a false = (.phys pa, s1)) :
    exec (.memoryRead m a n errs) s = .next (match s1.place pa with
      | .dram _ => s1.dramRead m pa n errs
      | _ => s1.otherRead m pa n) := by
  rw [exec_memoryRead, execMemoryRead, memRead, if_neg (by rw [on]; decide), reach] <;> rfl

theorem memWrite_at (bs : List Byte) (errs : BurstErrs) (on : s.sys.power.mode = .on) (free : s.storesHeld m = none)
    (reach : s.reach m a true = (.phys pa, s1)) :
    memWrite m a bs errs s = (s1.foldStore m a (bs.take (128 - a % 128))).physStore m pa bs errs := by
  rw [memWrite, if_neg (by rw [on]; decide), free, reach]

/-- The request of a read. -/
abbrev readReq (m : Master) (pa n : Nat) : HomeReq := { m := m, addr := pa, bytes := min n (128 - pa % 128) }
/-- The request of a write within a line. -/
abbrev writeReq (m : Master) (pa : Nat) (bs : List Byte) : HomeReq := { m := m, addr := pa, bytes := bs.length, write := some bs }

theorem writeReq_line (m : Master) (pa : Nat) (bs : List Byte) : (writeReq m pa bs).line = (pa - dramBase) / 128 := by rw [HomeReq.line]

theorem memoryRead_dram (on : s.sys.power.mode = .on) (reach : s.reach m a false = (.phys pa, s1))
    (dram : s1.place pa = .dram (pa - dramBase)) (errs : BurstErrs) :
    exec (.memoryRead m a n errs) s = .next (s1.dramReq (readReq m pa n) errs) := by
  rw [memoryRead_at s s1 m a pa n errs on reach, dram]
  rfl

/-! ## At the home slice -/

/-- The request arrives, with its charge and its fold made. -/
theorem State.home_way (q : HomeReq) (bs : Option (List Byte)) (hm : q.m = m) (home : s.atHome m q.addr) :
    ∃ u x y v, u = s.onTheWay x y v ∧ (match bs with | none => s | some d => s.foldStore m a d).dramReq q {} = u.arrive q
      ∧ (bs = none ∨ masterVec m = none → v = s.units.vecs) ∧ u.lineFree q.line := by
  obtain ⟨-, fclk, clock, carved, snoops, queue⟩ := home
  subst hm
  cases bs with
  | none =>
    obtain ⟨x, y, way⟩ := s.gateReq_way (s.partOf q.m) q.bytes
    exact ⟨_, x, y, s.units.vecs, rfl, by rw [← way]; exact s.dramReq_arrives q fclk clock carved, fun _ => rfl, snoops, queue⟩
  | some d =>
    obtain ⟨w, folded, same⟩ := s.foldStore_way q.m a d
    dsimp only
    rw [folded]
    obtain ⟨x, y, way⟩ := (s.onTheWay s.mem.gates s.mem.gateQ w).gateReq_way ((s.onTheWay s.mem.gates s.mem.gateQ w).partOf q.m) q.bytes
    refine ⟨_, x, y, w, rfl, ?_, fun h => same (h.resolve_left (by simp)), snoops, queue⟩
    have arrives := State.dramReq_arrives (s.onTheWay s.mem.gates s.mem.gateQ w) q fclk clock carved
    rw [way] at arrives
    exact arrives

theorem State.onTheWay_ready (x y v) (l : Nat) (ready : s.lineReady l) : (s.onTheWay x y v).lineReady l := by
  have leaves := s.leaves_onTheWay x y v
  have regions := SameRegions.of_leaves leaves
  have good : ∀ bs, (s.onTheWay x y v).tagGood l bs = s.tagGood l bs := fun bs => by
    have same : ∀ k j, (s.onTheWay x y v).bytes k j = s.bytes k j := State.bytes_of_cells (leaves.1 .cells (by simp))
    unfold State.tagGood
    simp only [regions.tagRegion, regions.tagAddr, same]
    rfl
  refine ready.imp (fun hit => hit) fun ⟨clock, clean, data, check, tag⟩ => ⟨clock, clean, data, check, ?_⟩
  rw [good, State.lineBytes, State.bytes_of_cells (leaves.1 .cells (by simp))]
  exact tag

theorem State.onTheWay_bytes (x y v) (k j : Nat) : (s.onTheWay x y v).bytes k j = s.bytes k j :=
  State.bytes_of_cells ((s.leaves_onTheWay x y v).1 .cells (by simp)) k j

theorem State.onTheWay_hw (x y v) (k : Nat) : (s.onTheWay x y v).hwByte k ↔ s.hwByte k :=
  (SameRegions.of_leaves (s.leaves_onTheWay x y v)).hwByte k

theorem State.leaves_onTheWay_gates (x y v) (same : v = s.units.vecs) : Leaves [.gates, .gateQ] noReg s (s.onTheWay x y v) := by
  subst same
  exact .parts (.refl _ _ s)

/-! ## Reads -/

theorem memoryRead_serves (on : s.sys.power.mode = .on) (reach : s.reach m a false = (.phys pa, s1)) (home : s1.atHome m pa)
    (none : s1.snoopTarget m ((pa - dramBase) / 128) = none) (ready : s1.lineReady ((pa - dramBase) / 128)) :
    ∃ t, exec (.memoryRead m a n {}) s = .next t
      ∧ t.outbox = .memData m (s1.bytes pa (min n (128 - pa % 128))) :: s1.outbox
      ∧ (∀ k, ¬ s1.hwByte k → t.byte k = s1.byte k)
      ∧ (∀ c, masterCacher m = some c → ∃ h ∈ t.mem.holders, h.who = c ∧ h.line = (pa - dramBase) / 128)
      ∧ Leaves (.outbox :: lineParts) occOnly s1 t := by
  obtain ⟨u, x, y, v, rfl, arrives, vecs, free⟩ := s1.home_way m a (readReq m pa n) Option.none rfl home
  have way := s1.leaves_onTheWay_gates x y v (vecs (.inl rfl))
  obtain ⟨out, bytes, holds, leaves⟩ := (s1.onTheWay x y v).serve_reads (readReq m pa n) rfl (s1.onTheWay_ready x y v _ ready)
  have served : (s1.onTheWay x y v).arrive (readReq m pa n) = (s1.onTheWay x y v).serve (readReq m pa n) :=
    State.arrive_serves _ _ free none
  refine ⟨_, (memoryRead_dram s s1 m a pa n on reach home.1 {}).trans (congrArg _ (arrives.trans served)), ?_, fun k hk => ?_, holds, ?_⟩
  · rw [out, s1.onTheWay_bytes]
    rfl
  · rw [bytes k fun hw => hk ((s1.onTheWay_hw x y v k).1 hw)]
    exact State.byte_of_cells rfl k
  · exact (way.mono (by simp [lineParts]) fun _ _ no => no.elim).into leaves (by simp [lineParts, slotParts]) fun _ _ e => e

/-- R202, R204: a read of a line that another cache holds in M or E. -/
theorem memoryRead_snoops (c : Cacher) (on : s.sys.power.mode = .on) (reach : s.reach m a false = (.phys pa, s1))
    (home : s1.atHome m pa) (holder : s1.snoopTarget m ((pa - dramBase) / 128) = some c) :
    ∃ t, exec (.memoryRead m a n {}) s = .next t
      ∧ (s1.trackerFree (s1.chanFor (128 * (readReq m pa n).line)) = true →
          t.mem.snoops = s1.mem.snoops ++ [{ target := c, line := (readReq m pa n).line, req := readReq m pa n }]
            ∧ t.mem.homeQ = s1.mem.homeQ)
      ∧ (s1.trackerFree (s1.chanFor (128 * (readReq m pa n).line)) = false →
          t.mem.homeQ = s1.mem.homeQ ++ [readReq m pa n] ∧ t.mem.snoops = s1.mem.snoops)
      ∧ Leaves [.snoops, .homeQ, .gates, .gateQ] noReg s1 t := by
  obtain ⟨u, x, y, v, rfl, arrives, vecs, free⟩ := s1.home_way m a (readReq m pa n) none rfl home
  have way := s1.leaves_onTheWay_gates x y v (vecs (.inl rfl))
  have tracker : (s1.onTheWay x y v).trackerFree ((s1.onTheWay x y v).chanFor (128 * (readReq m pa n).line))
      = s1.trackerFree (s1.chanFor (128 * (readReq m pa n).line)) := rfl
  have goes := (s1.onTheWay x y v).arrive_snoops (readReq m pa n) c free holder
  rw [tracker] at goes
  have run := (memoryRead_dram s s1 m a pa n on reach home.1 {}).trans (congrArg _ (arrives.trans goes))
  cases room : s1.trackerFree (s1.chanFor (128 * (readReq m pa n).line)) with
  | true =>
    rw [room, if_pos rfl] at run
    exact ⟨_, run, fun _ => ⟨rfl, rfl⟩, nofun, (way.mono (by simp) fun _ _ e => e).into (State.leaves_snoops _ _ c) (by simp) fun _ _ e => e⟩
  | false =>
    rw [room, if_neg (by decide)] at run
    exact ⟨_, run, nofun, fun _ => ⟨rfl, rfl⟩, (way.mono (by simp) fun _ _ e => e).into (State.leaves_waits _ _) (by simp) fun _ _ e => e⟩

/-- One behind a request of its line. -/
theorem memoryRead_waits (on : s.sys.power.mode = .on) (reach : s.reach m a false = (.phys pa, s1))
    (dram : s1.place pa = .dram (pa - dramBase)) (fclk : s1.clockLost .fclk = false) (clock : (masterDomain m).any s1.clockLost = false)
    (free : s1.carved (pa - dramBase) = false)
    (behind : (∃ q ∈ s1.mem.snoops, q.line = (pa - dramBase) / 128) ∨ ∃ q ∈ s1.mem.homeQ, q.line = (pa - dramBase) / 128) :
    ∃ t, exec (.memoryRead m a n {}) s = .next t ∧ t.mem.homeQ = s1.mem.homeQ ++ [readReq m pa n]
      ∧ Leaves [.homeQ, .gates, .gateQ] noReg s1 t := by
  obtain ⟨x, y, way⟩ := s1.gateReq_way (s1.partOf m) (readReq m pa n).bytes
  have arrives := s1.dramReq_arrives (readReq m pa n) fclk clock free
  have left := s1.leaves_onTheWay_gates x y _ rfl
  have waits := (s1.onTheWay x y s1.units.vecs).arrive_behind (readReq m pa n) behind
  rw [way, waits] at arrives
  exact ⟨_, (memoryRead_dram s s1 m a pa n on reach dram {}).trans (congrArg _ arrives), rfl,
    (left.mono (by simp) fun _ _ e => e).into (State.leaves_waits _ _) (by simp) fun _ _ e => e⟩

theorem memoryRead_hole (errs : BurstErrs) (on : s.sys.power.mode = .on) (reach : s.reach m a false = (.phys pa, s1))
    (hole : s1.place pa = .hole) : exec (.memoryRead m a n errs) s = .next (s1.emit (faultAt m)) := by
  rw [memoryRead_at s s1 m a pa n errs on reach, hole]
  dsimp only
  rw [State.otherRead, hole]

theorem memoryRead_carved (errs : BurstErrs) (on : s.sys.power.mode = .on) (reach : s.reach m a false = (.phys pa, s1))
    (dram : s1.place pa = .dram (pa - dramBase)) (fclk : s1.clockLost .fclk = false) (clock : (masterDomain m).any s1.clockLost = false)
    (carved : s1.carved (pa - dramBase) = true) : exec (.memoryRead m a n errs) s = .next (s1.emit (.xlateFault m)) := by
  rw [memoryRead_dram s s1 m a pa n on reach dram, State.dramReq, fclk, clock, if_neg (by decide), carved, if_pos rfl]

/-! ## Writes -/

variable (bs : List Byte)

/-- A write within a line reaches its home. -/
theorem memWrite_arrives (on : s.sys.power.mode = .on) (held : s.storesHeld m = none) (reach : s.reach m a true = (.phys pa, s1))
    (home : s1.atHome m pa) : ∃ x y v, memWrite m a bs {} s = (s1.onTheWay x y v).arrive (writeReq m pa (bs.take (128 - pa % 128)))
      ∧ (masterVec m = none → v = s1.units.vecs)
      ∧ (s1.onTheWay x y v).lineFree (writeReq m pa (bs.take (128 - pa % 128))).line := by
  obtain ⟨u, x, y, v, rfl, arrives, vecs, free⟩ := s1.home_way m a (writeReq m pa (bs.take (128 - pa % 128))) (some (bs.take (128 - a % 128)))
    rfl home
  refine ⟨x, y, v, ?_, fun h => vecs (.inr h), free⟩
  have dram : (s1.foldStore m a (bs.take (128 - a % 128))).place pa = .dram (pa - dramBase) := by
    obtain ⟨w, folded, -⟩ := s1.foldStore_way m a (bs.take (128 - a % 128))
    rw [folded]
    exact home.1
  rw [memWrite_at s s1 m a pa bs {} on held reach, State.physStore, dram]
  exact arrives

/-- R193, R197: a write that its line serves. -/
theorem memWrite_serves (on : s.sys.power.mode = .on) (held : s.storesHeld m = none) (reach : s.reach m a true = (.phys pa, s1))
    (home : s1.atHome m pa) (fits : pa % 128 + bs.length ≤ 128)
    (ready : bs.length = 128 ∧ pa % 128 = 0
      ∨ bs.length < 128 ∧ s1.snoopTarget m ((pa - dramBase) / 128) = none ∧ s1.lineReady ((pa - dramBase) / 128)) :
    (memWrite m a bs {} s).outbox = .done m :: s1.outbox
      ∧ (∀ k, ¬ s1.hwByte k → (memWrite m a bs {} s).byte k
          = if pa ≤ k ∧ k < pa + bs.length then bs.getD (k - pa) 0 else s1.byte k)
      ∧ (∀ h ∈ (memWrite m a bs {} s).mem.holders, h.line ≠ (pa - dramBase) / 128)
      ∧ (masterVec m = none → (memWrite m a bs {} s).units.vecs = s1.units.vecs)
      ∧ Leaves (.outbox :: .vecs :: lineParts) occOnly s1 (memWrite m a bs {} s) := by
  obtain ⟨x, y, v, run, vecs, free⟩ := memWrite_arrives s s1 m a pa bs on held reach home
  have all : bs.take (128 - pa % 128) = bs := List.take_of_length_le (by omega)
  have way := s1.leaves_onTheWay x y v
  have target : (s1.onTheWay x y v).snoopFor (writeReq m pa bs) = none := by
    unfold State.snoopFor
    rw [Option.any_some]
    rcases ready with ⟨whole, -⟩ | ⟨part, none, -⟩
    · rw [if_pos (by simpa using whole)]
    · rw [if_neg (by simp; omega)]
      exact none
  rw [all] at run free
  have served := (s1.onTheWay x y v).arrive_serves (writeReq m pa bs) free target
  rw [served] at run
  obtain ⟨out, bytes, holders, leaves⟩ := (s1.onTheWay x y v).serve_writes (writeReq m pa bs) rfl
    (ready.imp_right fun h => s1.onTheWay_ready x y v _ h.2.2)
  rw [run]
  refine ⟨out, fun k hk => ?_, holders, fun h => ?_, ?_⟩
  · rw [bytes k fun hw => hk ((s1.onTheWay_hw x y v k).1 hw)]
    exact if_congr Iff.rfl rfl (State.byte_of_cells (way.1 .cells (by simp)) k)
  · rw [leaves.1 .vecs (by simp [slotParts]), ← vecs h]
    rfl
  · exact (way.mono (by simp [lineParts]) fun _ _ no => no.elim).into leaves (by simp [lineParts, slotParts]) fun _ _ e => e

/-- R192: a part of a poisoned line is not written. -/
theorem memWrite_poisoned (on : s.sys.power.mode = .on) (held : s.storesHeld m = none) (reach : s.reach m a true = (.phys pa, s1))
    (home : s1.atHome m pa) (part : bs.length < 128) (none : s1.snoopTarget m ((pa - dramBase) / 128) = none)
    (miss : s1.cached ((pa - dramBase) / 128) = false) (mclk : s1.clockLost .mclk = false)
    (bad : (pa - dramBase) / 128 ∈ s1.mem.poison) :
    .poisoned m ∈ (memWrite m a bs {} s).outbox ∧ (memWrite m a bs {} s).mem.cells = s1.mem.cells := by
  obtain ⟨x, y, v, run, -, free⟩ := memWrite_arrives s s1 m a pa bs on held reach home
  have short : ((bs.take (128 - pa % 128)).length == 128) = false := by simp; omega
  have target : (s1.onTheWay x y v).snoopFor (writeReq m pa (bs.take (128 - pa % 128))) = Option.none := by
    unfold State.snoopFor
    rw [Option.any_some, short, if_neg (by decide)]
    exact none
  have fetch : ∀ p, (s1.onTheWay x y v).fetchLine p ((pa - dramBase) / 128) = (.bad, s1.onTheWay x y v) := fun p => by
    unfold State.fetchLine
    rw [if_pos]
    exact List.contains_iff_mem.2 bad
  have put : ∀ p, (s1.onTheWay x y v).dramPut p pa (bs.take (128 - pa % 128)) ((pa - dramBase) / 128)
      = (.integ, (s1.onTheWay x y v).integrityFail ((pa - dramBase) / 128) p) := fun p => by
    have miss' : (s1.onTheWay x y v).cached ((pa - dramBase) / 128) = false := miss
    have mclk' : (s1.onTheWay x y v).clockLost .mclk = false := mclk
    unfold State.dramPut
    dsimp only
    rw [miss', short, Bool.false_and, Bool.or_false, mclk', if_neg (by decide), if_neg (by decide), fetch]
  have served : (s1.onTheWay x y v).serve (writeReq m pa (bs.take (128 - pa % 128)))
      = ((s1.onTheWay x y v).integrityFail ((pa - dramBase) / 128) ((s1.onTheWay x y v).partOf m)).emit (.poisoned m) := by
    unfold State.serve
    dsimp only
    rw [writeReq_line, put]
  have goes := (s1.onTheWay x y v).arrive_serves (writeReq m pa (bs.take (128 - pa % 128))) free target
  rw [run, goes, served]
  refine ⟨List.mem_cons_self, ?_⟩
  rw [State.emit_mem, State.integrityFail, State.mgrIrq_mem]
  rfl

end

/-! ## Initialisation -/

section
variable (s : State) (m : Master) (v w : Word)

/-- A write of MEM_CTRL that is taken. -/
theorem memCtrl_wrote (k : Nat) (acc : s.accepts .memCtrl 0 m .whole k) : ∃ u, s.regWrite .memCtrl 0 m .whole k
      = u.afterWrite .memCtrl 0 m (s.r .memCtrl 0) (s.merged .memCtrl 0 .whole k) k
    ∧ u.r .memCtrl 0 = s.merged .memCtrl 0 .whole k
    ∧ Leaves [.outbox, .keptIrqs] (fun r i => (r = .memCtrl ∨ r = .sysRegerr) ∧ i = 0) s u := by
  have stored : (s.setR .memCtrl 0 (s.merged .memCtrl 0 .whole k)).r .memCtrl 0 = s.merged .memCtrl 0 .whole k := by
    rw [State.setR_r, if_pos ⟨rfl, rfl⟩, Nat.mod_eq_of_lt (s.merged_lt _ _ _ _)]
  have written : Leaves [.outbox, .keptIrqs] (fun r i => (r = .memCtrl ∨ r = .sysRegerr) ∧ i = 0) s
      (s.setR .memCtrl 0 (s.merged .memCtrl 0 .whole k)) := .setR (.refl _ _ s) ⟨.inl rfl, rfl⟩
  refine ⟨if s.hitsLock .memCtrl 0 .whole = true then (s.setR .memCtrl 0 (s.merged .memCtrl 0 .whole k)).regFlag SYS_REGERR.LOCKED m
    (Reg.memCtrl.offset 0 + halfOff .whole) false Reg.memCtrl.inDoor else s.setR .memCtrl 0 (s.merged .memCtrl 0 .whole k), ?_, ?_, ?_⟩
  · rw [State.regWrite_accepted s .memCtrl 0 m .whole k (by decide) (by decide) acc]
    rfl
  · split
    · rw [State.regFlag_r _ _ _ _ _ _ _ _ rfl (.inl (by decide)), stored]
    · exact stored
  · split
    · exact written.into (leaves_regFlag _ _ _ _ _ _ rfl) (by simp) fun _ _ e => ⟨.inr e.1, e.2⟩
    · exact written

theorem State.afterWrite_memCtrl (old new k : Nat) (only : bit k 56 = true) (no : bit k 51 = false) :
    s.afterWrite .memCtrl 0 m old new k = s.setF MEM_CTRL.READY 0 0 := by
  unfold State.afterWrite
  dsimp only
  rw [only, no, if_pos rfl, if_neg (by decide)]

/-- R210: INIT makes memory unusable. -/
theorem memoryInit_starts (acc : s.accepts .memCtrl 0 m .whole (withBit v 56)) (no : bit v.toNat 51 = false) :
    ∃ t, exec (.memoryInit m v) s = .next t ∧ t.fb MEM_CTRL.INIT 0 = true ∧ t.fb MEM_CTRL.READY 0 = false
      ∧ t.f MEM_CTRL.BORROW_MAX 0 = bits v.toNat 49 38
      ∧ Leaves [.outbox, .keptIrqs] (fun r i => (r = .memCtrl ∨ r = .sysRegerr) ∧ i = 0) s t := by
  obtain ⟨u, run, value, left⟩ := memCtrl_wrote s m _ acc
  rw [State.afterWrite_memCtrl u m _ _ _ (bit_withBit v 56) ((bit_withBit_ne v 56 51 (by decide)).trans no)] at run
  refine ⟨u.setF MEM_CTRL.READY 0 0, by rw [exec_memoryInit, execMemoryInit, run], ?_, ?_, ?_, .setF left ⟨.inl rfl, rfl⟩⟩
  · refine State.fb_of_f ?_
    rw [State.setF_f_apart _ _ _ _ _ _ (by decide) (by decide), State.f]
    exact (congrArg (fun w => bits w 56 56) value).trans ((s.merged_w1s .memCtrl 0 .whole _ 56 (by simp [Reg.fieldsAt, Reg.fields])).trans
      (if_pos (bit_withBit v 56)))
  · rw [State.fb, State.setF_f_same _ _ _ _ (by decide)]
    rfl
  · rw [State.setF_f_apart _ _ _ _ _ _ (by decide) (by decide), State.f]
    exact (congrArg (fun w => bits w 49 38) value).trans ((s.merged_rw .memCtrl 0 .whole _ 49 38 (by simp [Reg.fieldsAt, Reg.fields])).trans
      (bits_withBit_apart v 56 49 38 (.inl (by decide))))

theorem memoryReady_ends (init : s.fb MEM_CTRL.INIT 0 = true) :
    exec .memoryReady s = .next ((s.setF MEM_CTRL.READY 0 1).setF MEM_CTRL.INIT 0 0) := by
  rw [exec_memoryReady, execMemoryReady, init, if_pos rfl]

end

/-- Settles O40: reads by `memoryRead_serves` and `memoryRead_snoops`, writes by `memWrite_serves`. -/
theorem masterAccessesReadAndWriteMemory : Obligations.MasterAccessesReadAndWriteMemory := by
  unfold Obligations.MasterAccessesReadAndWriteMemory
  refine ⟨?_, ?_, ?_, ?_, ?_, ?_, ?_, ?_, ?_, ?_⟩
  · intro s s1 m a pa n on reach home none ready
    exact memoryRead_serves s s1 m a pa n on reach home none ready
  · intro s s1 m a pa n c on reach home holder
    exact memoryRead_snoops s s1 m a pa n c on reach home holder
  · intro s s1 m a pa n on reach dram fclk clock free behind
    exact memoryRead_waits s s1 m a pa n on reach dram fclk clock free behind
  · intro s s1 m a pa n errs on reach
    exact ⟨fun hole => ⟨_, memoryRead_hole s s1 m a pa n errs on reach hole, rfl, .emit (.refl _ _ s1)⟩,
      fun dram fclk clock carved => ⟨_, memoryRead_carved s s1 m a pa n errs on reach dram fclk clock carved, rfl, .emit (.refl _ _ s1)⟩⟩
  · intro s s1 m a pa bs on held reach home length start _
    obtain ⟨out, bytes, holders, vecs, leaves⟩ := memWrite_serves s s1 m a pa bs on held reach home (by omega) (.inl ⟨length, start⟩)
    rw [length] at bytes
    exact ⟨_, by rw [exec_memoryWrite, execMemoryWrite], out, bytes, holders, vecs, leaves⟩
  · intro s s1 m a pa bs on held reach home part fits none ready
    obtain ⟨out, bytes, -, vecs, leaves⟩ := memWrite_serves s s1 m a pa bs on held reach home fits (.inr ⟨part, none, ready⟩)
    exact ⟨_, by rw [exec_partialWrite, execPartialWrite], out, bytes, vecs, leaves⟩
  · intro s s1 m a pa bs on held reach home part none miss mclk bad
    exact ⟨_, by rw [exec_partialWrite, execPartialWrite], memWrite_poisoned s s1 m a pa bs on held reach home part none miss mclk bad⟩
  · intro s m v acc no
    exact memoryInit_starts s m v acc no
  · intro s init
    refine ⟨_, memoryReady_ends s init, ?_, ?_, .setF (.setF (.refl _ _ s) ⟨rfl, rfl⟩) ⟨rfl, rfl⟩⟩
    · refine State.fb_of_f ?_
      rw [State.setF_f_apart _ _ _ _ _ _ (by decide) (by decide)]
      exact State.setF_f_width _ _ _ _ 1 (by decide) rfl
    · rw [State.fb, State.setF_f_same _ _ _ _ (by decide)]
      rfl
  · intro s no
    rw [exec_memoryReady, execMemoryReady, no, if_neg (by decide)]

end Sys2Proof.Machine
end

section
/-! PROOFS. A patrol of a block whose memory lists a byte that reads as an unlisted one. -/

set_option Elab.async false

namespace Sys2Proof.Machine

/-- Memory is ready, and its first byte is listed as 00h. -/
def listedZero : State := ({ State.reset with mem.cells := [(dramBase, 0)] }).setF MEM_CTRL.READY 0 1

/-- The errors that the patrol finds: the first bit of the first burst of block 0 is turned over. -/
def firstBit : BurstErrs := { data := [(dataLine 0, 0, 1)] }

/-- The state after the patrol of the block's first line. -/
def firstScrubbed : State := ((listedZero.found 0 firstBit).dramLine 0).2

set_option maxRecDepth 100000 in
theorem blockLines_listedZero : listedZero.blockLines 0 = [0, 1, 2, 3, 4, 5, 6] := by decide

set_option maxRecDepth 100000 in
theorem burstFails_firstBit : listedZero.burstFails { line := 0, sub := 0, mask := 1 } = true := by decide

/-- The line is written back byte by byte, and none of its bytes is listed any more. -/
theorem firstScrubbed_mem : firstScrubbed.mem.cells = [] ∧ firstScrubbed.mem.flips = [] ∧ firstScrubbed.mem.chkFlips = [] := by
  decide +kernel

/-- The patrol leaves lines alone in which nothing is turned over. -/
theorem State.patrol_intact (s : State) (lines : List Nat) (data : s.mem.flips = []) (check : s.mem.chkFlips = []) :
    s.each lines (fun s k => if s.mem.poison.contains k then s else (s.dramLine k).2) = s :=
  State.each_keeps (P := fun t => t = s) rfl fun t k _ same => by
    subst same
    have intact := t.intact_of k (by rw [data]; nofun) (by rw [check]; nofun)
    rw [State.dramLine, State.eccRead, if_pos intact]
    dsimp only
    rw [if_pos intact, ite_self]

theorem patrolScrub_listedZero : exec (.patrolScrub 0 firstBit) listedZero = .next firstScrubbed := by
  have clean : (listedZero.found 0 firstBit).mem.poison.contains 0 = false := by decide
  obtain ⟨-, data, check⟩ := firstScrubbed_mem
  have rest := firstScrubbed.patrol_intact [1, 2, 3, 4, 5, 6] data check
  rw [exec_patrolScrub, execPatrolScrub, blockLines_listedZero, if_neg (by decide)]
  dsimp only [State.each]
  rw [List.foldl_cons, if_neg (by rw [clean]; decide)]
  exact congrArg _ rest

/-- Refutes O41: the patrol writes the line of a corrected burst back, and a byte that memory lists as 00h leaves the list
of bytes there: the step changes the memory's list, although it keeps the value of every byte. -/
theorem not_scrubsAndWriteBacksKeepMemoryCoherent : ¬ Obligations.ScrubsAndWriteBacksKeepMemoryCoherent := by
  unfold Obligations.ScrubsAndWriteBacksKeepMemoryCoherent
  rintro ⟨-, scrubs, -⟩
  have first : 0 ∈ listedZero.blockLines 0 := by rw [blockLines_listedZero]; exact List.mem_cons_self
  obtain ⟨t, ran, -, leaves⟩ := (scrubs listedZero 0 0 0 1 (by decide) (by decide) (by decide)
    first (by decide) nofun nofun).1 (by decide) burstFails_firstBit
  have same : t = firstScrubbed := Host.Outcome.next.inj (ran.symm.trans patrolScrub_listedZero)
  rw [same] at leaves
  have kept : firstScrubbed.mem.cells = [(dramBase, 0)] := leaves.1 .cells (by decide)
  exact absurd (kept.symm.trans firstScrubbed_mem.1) (by decide)

end Sys2Proof.Machine
end

section
/-! PROOFS. Writes that set or clear an EN (R373). -/

set_option Elab.async false

namespace Sys2Proof.Machine

section
variable (s : State) (r : Reg) (i v : Nat) (m : Master) (x : Fld)

/-- A write that is taken and sets EN finds it clear. -/
theorem State.accepts_sets (acc : s.accepts r i m .whole v) (en : enField r = some x) (reg : x.reg = r) (one : x.hi = x.lo)
    (plain : s.newValue r i .whole v = s.merged r i .whole v) (on : bit (s.merged r i .whole v) x.lo = true) :
    rises (s.r r i) (s.merged r i .whole v) x.lo = true := by
  obtain ⟨-, -, -, -, quiet, -⟩ := acc
  unfold State.enBusy at quiet
  rw [plain, en] at quiet
  have off := (Bool.or_eq_false_iff.1 quiet).1
  dsimp only at off
  rw [on, Bool.and_true, State.fb, State.f, reg, one] at off
  have clear : bit (s.r r i) x.lo = false := off
  rw [rises, on, clear]
  rfl

/-- A write that clears EN finds it set. -/
theorem State.clears_falls (clears : s.clears r i m .whole v x) (reg : x.reg = r) (one : x.hi = x.lo) :
    falls (s.r r i) (putBits (s.r r i) x.lo x.lo 0) x.lo = true ∧ rises (s.r r i) (putBits (s.r r i) x.lo x.lo 0) x.lo = false := by
  have off : bit (putBits (s.r r i) x.lo x.lo 0) x.lo = false := by simp [bit, bits_putBits]
  have found := clears.2.2.2.1
  unfold State.clearsEn at found
  split at found
  · next y en =>
    split at found
    · next h =>
      obtain rfl := Option.some.inj found
      have on := (Bool.and_eq_true_iff.1 h).1
      rw [State.fb, State.f, reg, one] at on
      have set : bit (s.r r i) y.lo = true := on
      rw [falls, rises, off, set]
      exact ⟨rfl, rfl⟩
    · exact nomatch found
  · exact nomatch found

end

end Sys2Proof.Machine
end
section
/-! PROOFS. Ways, regions and channels, and what O42 says (R195, R198, R201, R205). -/

set_option Elab.async false

namespace Sys2Proof.Machine

/-! ## Ways -/

/-- The parts that a line leaving the cache may change. -/
abbrev evictParts : List Part := [.cache, .cells, .poison, .flips, .chkFlips]

section
variable (s : State) (l : Nat)

theorem State.leaves_freshLine : Leaves [.poison, .flips, .chkFlips] noReg s (s.freshLine l) := .parts (.refl _ _ s)

theorem State.leaves_lineStored : Leaves [.cells, .poison, .flips, .chkFlips] noReg s (s.lineStored l) := by
  have fresh : ∀ (u : State) (k : Nat), Leaves [.cells, .poison, .flips, .chkFlips] noReg u (u.freshLine k) := fun u k =>
    (u.leaves_freshLine k).mono (by simp) fun _ _ e => e
  have store : ∀ (u : State) (a : Nat) (bs : List Byte), Leaves [.cells, .poison, .flips, .chkFlips] noReg u (u.store a bs) :=
    fun u a bs => .one .cells (.refl _ _ u) (by simp)
  unfold State.lineStored
  dsimp only
  split
  · exact (fresh s l).trans (store _ _ _)
  · split
    · exact ((fresh s l).trans (store _ _ _)).trans (fresh _ _)
    · exact fresh s l

theorem State.leaves_evict : Leaves evictParts noReg s (s.evict l) := by
  unfold State.evict
  have out : Leaves evictParts noReg s { s with mem.cache := s.mem.cache.filter (fun c => c.line != l) } :=
    .one .cache (.refl _ _ s) (by simp)
  split
  · exact .refl _ _ s
  · exact .ite (out.into (State.leaves_lineStored _ l) (by simp) fun _ _ e => e) out

/-- An evicted line has left the cache, and no other line has come or gone. -/
theorem State.evict_cache : (s.evict l).mem.cache = s.mem.cache.filter (fun c => c.line != l) := by
  unfold State.evict
  split
  · next none => exact (List.filter_eq_self.2 fun c hc => by simpa using List.find?_eq_none.1 none c hc).symm
  · dsimp only
    split
    · exact (State.leaves_lineStored _ l).1 .cache (by simp)
    · rfl

/-- The lines of a list are evicted. -/
theorem State.evicts (lines : List CacheLine) : Homed s (s.each lines fun s c => s.evict c.line)
    ∧ Leaves evictParts noReg s (s.each lines fun s c => s.evict c.line)
    ∧ ∀ c ∈ (s.each lines fun s c => s.evict c.line).mem.cache, c ∈ s.mem.cache ∧ c ∉ lines := by
  unfold State.each
  induction lines generalizing s with
  | nil => exact ⟨.refl s, .refl _ _ s, fun c hc => ⟨hc, List.not_mem_nil⟩⟩
  | cons c cs ih =>
    obtain ⟨homed, leaves, left⟩ := ih (s.evict c.line)
    rw [s.evict_cache] at left
    refine ⟨(Homed.evict s _).trans homed, (s.leaves_evict _).trans leaves, fun k hk => ?_⟩
    obtain ⟨kept, rest⟩ := left k hk
    obtain ⟨mem, other⟩ := List.mem_filter.1 kept
    refine ⟨mem, fun e => ?_⟩
    rcases List.mem_cons.1 e with rfl | e
    · simp at other
    · exact rest e

theorem State.leaves_updateOcc : Leaves [] occOnly s s.updateOcc := .over (.refl _ _ s) fun _ _ h => .setF h rfl

theorem State.updateOcc_ways (p : Nat) : s.updateOcc.f MEM_CWAYS.WAYS p = s.f MEM_CWAYS.WAYS p :=
  State.each_keeps (P := fun t => t.f MEM_CWAYS.WAYS p = s.f MEM_CWAYS.WAYS p) rfl fun t q _ h =>
    (State.setF_f_apart t _ _ _ _ _ (by decide) (by decide)).trans h

end

section
variable (s : State) (m : Master) (p n : Nat) (v : Word)

theorem cacheWaysWrite_changes (hp : p < 9) (acc : s.accepts .memCways p m .whole v.toNat) :
    exec (.cacheWaysWrite m p v) s
      = .next ((s.wrote p v.toNat .memCways).changeWays p (s.r .memCways p) (s.merged .memCways p .whole v.toNat)) := by
  rw [exec_cacheWaysWrite, execCacheWaysWrite, decide_eq_true hp, unit_true, State.regWrite_whole s .memCways p _ m acc
    (by decide) (by simp [State.hitsLock, Reg.fieldsAt, Reg.fields]) rfl, State.afterWrite]

theorem State.wrote_ways : (s.wrote p v.toNat .memCways).f MEM_CWAYS.WAYS p = bits v.toNat 63 48 :=
  s.wrote_rw p _ MEM_CWAYS.WAYS (by simp [Reg.fieldsAt, Reg.fields, MEM_CWAYS.WAYS])

theorem State.wrote_ways_ne (q : Nat) (hq : q ≠ p) : (s.wrote p v.toNat .memCways).f MEM_CWAYS.WAYS q = s.f MEM_CWAYS.WAYS q :=
  (s.leaves_wrote p _ .memCways).f_same MEM_CWAYS.WAYS q fun h => hq h.2

/-- Lines leave the ways that partition 8 gives up, and what leaves the cache is stored. -/
theorem State.changeWays_goes (u : State) (old new : Nat) : Homed u (u.changeWays p old new)
    ∧ Leaves evictParts (fun r _ => r = .memCways) u (u.changeWays p old new)
    ∧ (∀ q, (u.changeWays p old new).f MEM_CWAYS.WAYS q = u.f MEM_CWAYS.WAYS q)
    ∧ (p ≠ 8 → (u.changeWays p old new).mem.cache = u.mem.cache ∧ Leaves [] (fun r _ => r = .memCways) u (u.changeWays p old new))
    ∧ (p = 8 → ∀ c ∈ (u.changeWays p old new).mem.cache, c ∈ u.mem.cache
        ∧ ¬(bit (bits old 63 48) c.way = true ∧ bit (bits new 63 48) c.way = false)) := by
  unfold State.changeWays
  dsimp only
  by_cases h : p = 8
  · rw [if_pos h]
    obtain ⟨homed, leaves, left⟩ := u.evicts (u.mem.cache.filter fun c => bit (bits old 63 48) c.way && !bit (bits new 63 48) c.way)
    revert homed leaves left
    generalize (u.each (u.mem.cache.filter fun c => bit (bits old 63 48) c.way && !bit (bits new 63 48) c.way)
      fun s c => s.evict c.line) = w
    intro homed leaves left
    refine ⟨homed.trans (.updateOcc w), ?_, fun q => ?_, fun ne => absurd h ne, fun _ c hc => ?_⟩
    · exact (leaves.mono (List.Subset.refl _) fun _ _ no => no.elim).into w.leaves_updateOcc (by simp) fun _ _ e => e
    · rw [w.updateOcc_ways, leaves.f_same _ _ id]
    · rw [w.leaves_updateOcc.1 .cache (by simp)] at hc
      obtain ⟨mem, stays⟩ := left c hc
      exact ⟨mem, fun ⟨was, now⟩ => stays (List.mem_filter.2 ⟨mem, by rw [was, now]; rfl⟩)⟩
  · rw [if_neg h]
    refine ⟨.updateOcc u, u.leaves_updateOcc.mono (by simp) fun _ _ e => e, u.updateOcc_ways, fun _ => ?_, fun e => absurd e h⟩
    exact ⟨u.leaves_updateOcc.1 .cache (by simp), u.leaves_updateOcc.mono (by simp) fun _ _ e => e⟩

theorem cacheWaysWrite_goes (hp : p < 9) (acc : s.accepts .memCways p m .whole v.toNat) :
    ∃ t, exec (.cacheWaysWrite m p v) s = .next t ∧ t.f MEM_CWAYS.WAYS p = bits v.toNat 63 48
      ∧ (∀ q, q ≠ p → t.f MEM_CWAYS.WAYS q = s.f MEM_CWAYS.WAYS q)
      ∧ (p ≠ 8 → t.mem.cache = s.mem.cache ∧ Leaves [] (fun r _ => r = .memCways) s t)
      ∧ (p = 8 → ∀ c ∈ t.mem.cache, c ∈ s.mem.cache
          ∧ ¬(bit (s.f MEM_CWAYS.WAYS 8) c.way = true ∧ bit (bits v.toNat 63 48) c.way = false))
      ∧ (∀ k, ¬ s.hwByte k → t.byte k = s.byte k)
      ∧ Leaves [.cache, .cells, .poison, .flips, .chkFlips] (fun r _ => r = .memCways) s t := by
  have written : Leaves [] (fun r _ => r = .memCways) s (s.wrote p v.toNat .memCways) :=
    (s.leaves_wrote p _ .memCways).mono (List.Subset.refl _) fun _ _ e => e.1
  have value : bits (s.merged .memCways p .whole v.toNat) 63 48 = bits v.toNat 63 48 :=
    (s.merged_rw .memCways p .whole _ 63 48 (by simp [Reg.fieldsAt, Reg.fields])).trans rfl
  obtain ⟨homed, leaves, ways, other, eight⟩ := State.changeWays_goes p (s.wrote p v.toNat .memCways) (s.r .memCways p)
    (s.merged .memCways p .whole v.toNat)
  refine ⟨_, cacheWaysWrite_changes s m p v hp acc, ?_, fun q hq => ?_, fun h => ?_, fun h => ?_, fun k hk => ?_, ?_⟩
  · rw [ways, s.wrote_ways]
  · rw [ways, s.wrote_ways_ne p v q hq]
  · obtain ⟨cache, left⟩ := other h
    exact ⟨cache.trans (written.1 .cache (by simp)), written.trans left⟩
  · have gone := eight h
    rw [value] at gone
    rw [written.1 .cache (by simp), h] at gone
    rw [h]
    exact gone
  · exact (homed.bytes k fun hw => hk (((SameRegions.of_leaves written (by simp)).hwByte k).1 hw)).trans
      (State.byte_of_cells (written.1 .cells (by simp)) k)
  · exact (written.mono (by simp) fun _ _ e => e).trans leaves

/-! ## Regions -/

theorem regionEnable_draws (hn : n < 32) (acc : s.accepts .memRgn1 n m .whole (withBit v 20)) :
    s.fb MEM_RGN1.EN n = false ∧ exec (.regionEnable m n v) s = .next
      (if bit v.toNat 19 then (s.wrote n (withBit v 20) .memRgn1).drawKey n else s.wrote n (withBit v 20) .memRgn1) := by
  have tagBit : bit (s.merged .memRgn1 n .whole (withBit v 20)) 19 = bit v.toNat 19 := by
    rw [bit, s.merged_rw .memRgn1 n .whole _ 19 19 (by simp [Reg.fieldsAt, Reg.fields])]
    exact congrArg (· == 1) (bits_withBit_apart v 20 19 19 (.inl (by decide)))
  have on : bit (s.merged .memRgn1 n .whole (withBit v 20)) 20 = true := by
    rw [bit, s.merged_rw .memRgn1 n .whole _ 20 20 (by simp [Reg.fieldsAt, Reg.fields])]
    exact beq_iff_eq.2 (bits_withBit v 20)
  have rise := s.accepts_sets .memRgn1 n _ m MEM_RGN1.EN acc rfl rfl rfl rfl on
  have was : bit (s.r .memRgn1 n) 20 = false := by
    have off := (Bool.and_eq_true_iff.1 rise).1
    exact (Bool.not_eq_true' _).mp off
  refine ⟨was, ?_⟩
  rw [exec_regionEnable, execRegionEnable, decide_eq_true hn, unit_true, State.regWrite_whole s .memRgn1 n _ m acc
    (by decide) (by simp [State.hitsLock, Reg.fieldsAt, Reg.fields]) rfl, State.afterWrite, tagBit]
  exact congrArg _ (if_pos rise)

theorem State.leaves_drawKey : Leaves [.keys, .freeCtr] noReg s (s.drawKey n) := .parts (.refl _ _ s)

theorem State.drawKey_keys : (s.drawKey n).mem.keys = NMap.insert s.mem.keys n (Config.freeNat s.freeCtr) := (rfl)

theorem regionEnable_sets (hn : n < 32) (acc : s.accepts .memRgn1 n m .whole (withBit v 20)) :
    ∃ t, exec (.regionEnable m n v) s = .next t ∧ t.fb MEM_RGN1.EN n = true
      ∧ t.f MEM_RGN1.LIMIT n = bits v.toNat 63 21 ∧ t.fb MEM_RGN1.TAG n = bit v.toNat 19
      ∧ t.fb MEM_RGN1.MIRROR n = bit v.toNat 18 ∧ t.f MEM_RGN1.OWNER n = bits v.toNat 17 14
      ∧ (s.fb MEM_RGN1.EN n = false → bit v.toNat 19 = true → NMap.find t.mem.keys n = some (Config.freeNat s.freeCtr))
      ∧ (∀ k, k ≠ n → NMap.find t.mem.keys k = NMap.find s.mem.keys k)
      ∧ Leaves [.keys, .freeCtr] (oneReg .memRgn1 n) s t := by
  obtain ⟨-, run⟩ := regionEnable_draws s m n v hn acc
  have written : Leaves [.keys, .freeCtr] (oneReg .memRgn1 n) s (s.wrote n (withBit v 20) .memRgn1) :=
    (s.leaves_wrote n _ .memRgn1).mono (by simp) fun _ _ e => e
  have field : ∀ x : Fld, x.reg = .memRgn1 → (x.hi, x.lo, FKind.rw) ∈ x.reg.fieldsAt n → (x.hi < 20 ∨ 20 < x.lo) →
      (s.wrote n (withBit v 20) .memRgn1).f x n = bits v.toNat x.hi x.lo := fun x hx hm apart => by
    rw [← hx, s.wrote_rw n _ x hm, bits_withBit_apart v 20 _ _ apart]
  have keys : (s.wrote n (withBit v 20) .memRgn1).mem.keys = s.mem.keys := (s.leaves_wrote n _ .memRgn1).1 .keys (by simp)
  have free : (s.wrote n (withBit v 20) .memRgn1).freeCtr = s.freeCtr := (s.leaves_wrote n _ .memRgn1).1 .freeCtr (by simp)
  have enBit : ∀ w, bits w MEM_RGN1.EN.hi MEM_RGN1.EN.lo = bits w 20 20 := fun _ => rfl
  have en : (s.wrote n (withBit v 20) .memRgn1).fb MEM_RGN1.EN n = true :=
    State.fb_of_f ((s.wrote_rw n _ MEM_RGN1.EN (by simp [Reg.fieldsAt, Reg.fields, MEM_RGN1.EN])).trans (by rw [enBit, bits_withBit]))
  have limit := field MEM_RGN1.LIMIT rfl (by simp [Reg.fieldsAt, Reg.fields, MEM_RGN1.LIMIT]) (by decide)
  have tag := field MEM_RGN1.TAG rfl (by simp [Reg.fieldsAt, Reg.fields, MEM_RGN1.TAG]) (by decide)
  have mirror := field MEM_RGN1.MIRROR rfl (by simp [Reg.fieldsAt, Reg.fields, MEM_RGN1.MIRROR]) (by decide)
  have owner := field MEM_RGN1.OWNER rfl (by simp [Reg.fieldsAt, Reg.fields, MEM_RGN1.OWNER]) (by decide)
  have tagBit : (s.wrote n (withBit v 20) .memRgn1).fb MEM_RGN1.TAG n = bit v.toNat 19 := by rw [State.fb, tag]; rfl
  have mirrorBit : (s.wrote n (withBit v 20) .memRgn1).fb MEM_RGN1.MIRROR n = bit v.toNat 18 := by rw [State.fb, mirror]; rfl
  clear field tag mirror
  revert run written en limit tagBit mirrorBit owner keys free
  generalize s.wrote n (withBit v 20) .memRgn1 = w
  intro run written keys free en limit owner tagBit mirrorBit
  by_cases key : bit v.toNat 19 = true
  · rw [if_pos key] at run
    have field : ∀ x, (w.drawKey n).f x n = w.f x n := fun x => (w.leaves_drawKey n).f_same x n id
    refine ⟨_, run, by rw [State.fb, field]; exact en, by rw [field, limit]; rfl, by rw [State.fb, field]; exact tagBit,
      by rw [State.fb, field]; exact mirrorBit, by rw [field, owner]; rfl, fun _ _ => ?_, fun k hk => ?_,
      written.into (State.leaves_drawKey _ n) (List.Subset.refl _) fun _ _ no => no.elim⟩
    · rw [w.drawKey_keys, NMap.find_insert, if_pos rfl, free]
    · rw [w.drawKey_keys, NMap.find_insert, if_neg hk, keys]
  · rw [if_neg key] at run
    exact ⟨_, run, en, limit, tagBit, mirrorBit, owner, fun _ on => absurd on key, fun _ _ => by rw [keys], written⟩

theorem regionDisable_drops (hn : n < 32) (clears : s.clears .memRgn1 n m .whole (withoutBit v 20) MEM_RGN1.EN) :
    exec (.regionDisable m n v) s = .next ((s.setF MEM_RGN1.EN n 0).dropKey n) := by
  obtain ⟨fell, norise⟩ := s.clears_falls .memRgn1 n _ m MEM_RGN1.EN clears rfl rfl
  rw [exec_regionDisable, execRegionDisable, decide_eq_true hn, unit_true,
    State.regWrite_clears s .memRgn1 n m .whole _ _ (by decide) (by decide) clears, State.afterWrite]
  exact congrArg _ ((if_neg (ne_true_of_eq_false norise)).trans (if_pos fell))

theorem State.dropKey_keys : (s.dropKey n).mem.keys = NMap.erase s.mem.keys n := (rfl)

theorem State.leaves_dropKey : Leaves [.keys] noReg s (s.dropKey n) := .one .keys (.refl _ _ _) (by simp)

theorem regionDisable_clears (hn : n < 32) (clears : s.clears .memRgn1 n m .whole (withoutBit v 20) MEM_RGN1.EN) :
    ∃ t, exec (.regionDisable m n v) s = .next t ∧ t.fb MEM_RGN1.EN n = false
      ∧ t.f MEM_RGN1.LIMIT n = s.f MEM_RGN1.LIMIT n ∧ t.f MEM_RGN1.OWNER n = s.f MEM_RGN1.OWNER n
      ∧ NMap.find t.mem.keys n = none ∧ (∀ k, k ≠ n → NMap.find t.mem.keys k = NMap.find s.mem.keys k)
      ∧ Leaves [.keys] (oneReg .memRgn1 n) s t := by
  have off : Leaves [] (oneReg .memRgn1 n) s (s.setF MEM_RGN1.EN n 0) := .setF (.refl _ _ s) ⟨rfl, rfl⟩
  have dropped : Leaves [.keys] noReg (s.setF MEM_RGN1.EN n 0) ((s.setF MEM_RGN1.EN n 0).dropKey n) := State.leaves_dropKey _ n
  have apart : ∀ x : Fld, MEM_RGN1.EN.apart x → (s.setF MEM_RGN1.EN n 0).f x n = s.f x n := fun x hx =>
    State.setF_f_apart s _ _ _ _ _ (by decide) hx
  have keys : (s.setF MEM_RGN1.EN n 0).mem.keys = s.mem.keys := off.1 .keys (by simp)
  have clear : (s.setF MEM_RGN1.EN n 0).fb MEM_RGN1.EN n = false := by
    rw [State.fb, State.setF_f_same s _ _ _ (by decide)]
    rfl
  refine ⟨_, regionDisable_drops s m n v hn clears, ?_, (dropped.f_same _ _ id).trans (apart _ (by decide)),
    (dropped.f_same _ _ id).trans (apart _ (by decide)), ?_, fun k hk => ?_,
    (off.mono (by simp) fun _ _ e => e).into dropped (List.Subset.refl _) fun _ _ no => no.elim⟩
  · rw [State.fb, dropped.f_same _ _ id]
    exact clear
  · rw [State.dropKey_keys, NMap.find_erase, if_pos rfl]
  · rw [State.dropKey_keys, NMap.find_erase, if_neg hk, keys]

/-! ## Channels -/

/-- The move that copies a channel's granules. -/
def retireMove (ch len : Nat) : Move :=
  { id := 0, kind := .retire ch, part := 15, inst := 0, toMem := true, va := 0, maddr := 0, len := len }

/-- The channel that is retired is recorded. -/
def State.withRetCh (ch : Nat) : State := { s with mem.retCh := some ch }

/-- The registers of a retirement. -/
abbrev retireRegs (r : Reg) (i : Nat) : Prop := (r = .memCtrl ∨ r = .sysRegerr) ∧ i = 0

theorem State.startRetire_atOnce (none : ∀ n, n < 32 → s.fb MEM_RGN1.EN n = false) :
    s.startRetire = ((s.withRetCh (s.f MEM_CTRL.RETIRE_CH 0)).setF MEM_CTRL.RETIRED 0 1).setF MEM_CTRL.RETIRE 0 0 := by
  unfold State.startRetire
  dsimp only
  rw [if_neg]
  · rfl
  · intro any
    obtain ⟨k, hk, on⟩ := List.any_eq_true.1 any
    exact absurd on (by rw [none k (List.mem_range.1 hk)]; decide)

theorem State.startRetire_copies (some : ∃ n, n < 32 ∧ s.fb MEM_RGN1.EN n = true) :
    s.startRetire = (s.withRetCh (s.f MEM_CTRL.RETIRE_CH 0)).addMove
      (retireMove (s.f MEM_CTRL.RETIRE_CH 0) (4096 * s.granules)) := by
  obtain ⟨k, hk, on⟩ := some
  unfold State.startRetire
  dsimp only
  rw [if_pos (List.any_eq_true.2 ⟨k, List.mem_range.2 hk, on⟩)]
  rfl

/-- A move that was queued stands in the queue, with a ladle or without. -/
theorem State.addMove_queued (mv : Move) : ∃ x ∈ (s.addMove mv).mem.moves, x.kind = mv.kind ∧ x.len = mv.len ∧ x.done = mv.done := by
  have queued : { mv with id := s.mem.nextMove, ladle := false } ∈ (s.addMove mv).unladled := by
    rw [s.addMove_moves]
    exact List.mem_append_right _ List.mem_cons_self
  obtain ⟨x, hx, e⟩ := List.mem_map.1 queued
  exact ⟨x, hx, by injection e, by injection e, by injection e⟩

theorem State.addMove_granules (mv : Move) : (s.addMove mv).granules = s.granules := by
  have added : Leaves [.moves, .nextMove, .jobs] noReg s (s.addMove mv) := .addMove (.refl _ _ _)
  rw [State.granules, State.granules, State.usable, State.usable, added.f_same _ _ id]

theorem State.leaves_withRetCh (ch : Nat) : Leaves [.retCh] noReg s (s.withRetCh ch) := .one .retCh (.refl _ _ s) (by simp)

theorem State.withRetCh_retCh (ch : Nat) : (s.withRetCh ch).mem.retCh = some ch := (rfl)

theorem State.withRetCh_granules (ch : Nat) : (s.withRetCh ch).granules = s.granules := by
  rw [State.granules, State.granules, State.usable, State.usable, (s.leaves_withRetCh ch).f_same _ _ id]

theorem retire_starts (acc : s.accepts .memCtrl 0 m .whole (withBit v 51)) (no : bit v.toNat 56 = false) :
    ∃ u, exec (.retire m v) s = .next u.startRetire ∧ u.f MEM_CTRL.RETIRE_CH 0 = bits v.toNat 54 52
      ∧ u.fb MEM_CTRL.RETIRE 0 = true ∧ u.fb MEM_CTRL.RETIRED 0 = s.fb MEM_CTRL.RETIRED 0
      ∧ Leaves [.outbox, .keptIrqs] retireRegs s u := by
  obtain ⟨u, run, value, left⟩ := memCtrl_wrote s m _ acc
  refine ⟨u, ?_, ?_, ?_, ?_, left⟩
  · unfold State.afterWrite at run
    dsimp only at run
    rw [(bit_withBit_ne v 51 56 (by decide)).trans no, bit_withBit v 51, if_pos rfl, if_neg (by decide)] at run
    rw [exec_retire, execRetire, run]
  · exact (congrArg (fun w => bits w 54 52) value).trans ((s.merged_rw .memCtrl 0 .whole _ 54 52 (by simp [Reg.fieldsAt, Reg.fields])).trans
      (bits_withBit_apart v 51 54 52 (.inr (by decide))))
  · exact State.fb_of_f ((congrArg (fun w => bits w 51 51) value).trans
      ((s.merged_w1s .memCtrl 0 .whole _ 51 (by simp [Reg.fieldsAt, Reg.fields])).trans (if_pos (bit_withBit v 51))))
  · exact congrArg (· == 1) ((congrArg (fun w => bits w 50 50) value).trans
      (s.merged_ro .memCtrl 0 .whole _ 50 50 (by simp [Reg.fieldsAt, Reg.fields])))

theorem retire_goes (acc : s.accepts .memCtrl 0 m .whole (withBit v 51)) (no : bit v.toNat 56 = false) :
    ∃ t, exec (.retire m v) s = .next t ∧ t.f MEM_CTRL.RETIRE_CH 0 = bits v.toNat 54 52
      ∧ ((∀ n, n < 32 → s.fb MEM_RGN1.EN n = false) → t.fb MEM_CTRL.RETIRED 0 = true ∧ t.fb MEM_CTRL.RETIRE 0 = false)
      ∧ ((∃ n, n < 32 ∧ s.fb MEM_RGN1.EN n = true) → t.fb MEM_CTRL.RETIRE 0 = true
          ∧ t.fb MEM_CTRL.RETIRED 0 = s.fb MEM_CTRL.RETIRED 0
          ∧ ∃ mv ∈ t.mem.moves, mv.kind = .retire (bits v.toNat 54 52) ∧ mv.len = 4096 * t.granules ∧ mv.done = 0)
      ∧ t.mem.retCh = some (bits v.toNat 54 52) ∧ (∀ k, SameJob k s t)
      ∧ Leaves [.outbox, .keptIrqs, .retCh, .moves, .nextMove, .jobs] (fun r i => (r = .memCtrl ∨ r = .sysRegerr) ∧ i = 0) s t := by
  obtain ⟨u, run, ch, retire, retired, left⟩ := retire_starts s m v acc no
  have regions : ∀ n, u.fb MEM_RGN1.EN n = s.fb MEM_RGN1.EN n := fun n => congrArg (· == 1) (left.f_same MEM_RGN1.EN n (by simp [MEM_RGN1.EN]))
  have chosen : Leaves [.outbox, .keptIrqs, .retCh, .moves, .nextMove, .jobs] retireRegs s (u.withRetCh (bits v.toNat 54 52)) :=
    (left.mono (by simp) fun _ _ e => e).into (u.leaves_withRetCh _) (by simp) fun _ _ no => no.elim
  have jobs : ∀ k, SameJob k s (u.withRetCh (bits v.toNat 54 52)) := fun k => .of_jobs (left.1 .jobs (by simp))
  by_cases any : ∃ n, n < 32 ∧ s.fb MEM_RGN1.EN n = true
  · rw [u.startRetire_copies (any.imp fun n h => ⟨h.1, (regions n).trans h.2⟩), ch] at run
    have added : Leaves [.moves, .nextMove, .jobs] noReg (u.withRetCh (bits v.toNat 54 52))
        ((u.withRetCh (bits v.toNat 54 52)).addMove (retireMove (bits v.toNat 54 52) (4096 * u.granules))) := .addMove (.refl _ _ _)
    have field : ∀ x : Fld, ((u.withRetCh (bits v.toNat 54 52)).addMove
        (retireMove (bits v.toNat 54 52) (4096 * u.granules))).f x 0 = u.f x 0 := fun x =>
      (added.f_same x 0 id).trans ((u.leaves_withRetCh _).f_same x 0 id)
    obtain ⟨x, hx, kind, len, done⟩ := (u.withRetCh (bits v.toNat 54 52)).addMove_queued
      (retireMove (bits v.toNat 54 52) (4096 * u.granules))
    refine ⟨_, run, (field _).trans ch, fun none => ?_, fun _ => ⟨?_, ?_, x, hx, kind, len.trans ?_, done⟩, ?_, fun k => ?_,
      chosen.into added (by simp) fun _ _ no => no.elim⟩
    · obtain ⟨n, hn, on⟩ := any
      exact absurd on (by rw [none n hn]; decide)
    · rw [State.fb, field]
      exact retire
    · rw [State.fb, field]
      exact retired
    · rw [State.addMove_granules, u.withRetCh_granules, retireMove]
    · exact (added.1 .retCh (by simp)).trans (u.withRetCh_retCh _)
    · exact (jobs k).trans (State.addMove_jobs _ _ k)
  · have none : ∀ n, n < 32 → s.fb MEM_RGN1.EN n = false := fun n hn => Bool.eq_false_iff.2 fun on => any ⟨n, hn, on⟩
    rw [u.startRetire_atOnce fun n hn => (regions n).trans (none n hn), ch] at run
    have set : Leaves [] retireRegs (u.withRetCh (bits v.toNat 54 52))
        (((u.withRetCh (bits v.toNat 54 52)).setF MEM_CTRL.RETIRED 0 1).setF MEM_CTRL.RETIRE 0 0) :=
      .setF (.setF (.refl _ _ _) ⟨.inl rfl, rfl⟩) ⟨.inl rfl, rfl⟩
    refine ⟨_, run, ?_, fun _ => ⟨State.fb_of_f ?_, ?_⟩, fun h => absurd h any, set.1 .retCh (by simp), fun k => ?_,
      chosen.into set (by simp) fun _ _ e => e⟩
    · rw [State.setF_f_apart _ _ _ _ _ _ (by decide) (by decide), State.setF_f_apart _ _ _ _ _ _ (by decide) (by decide),
        (u.leaves_withRetCh _).f_same _ _ id, ch]
    · rw [State.setF_f_apart _ _ _ _ _ _ (by decide) (by decide), State.setF_f_same _ _ _ _ (by decide)]
      rfl
    · rw [State.fb, State.setF_f_same _ _ _ _ (by decide)]
      rfl
    · exact (jobs k).trans (.of_jobs (set.1 .jobs (by simp)))

end

/-- Settles O42: ways by `State.evicts`, regions by what sets and clears EN, retirement by `State.addMove_queued`. -/
theorem waysRegionsAndChannelsAreConfigured : Obligations.WaysRegionsAndChannelsAreConfigured := by
  unfold Obligations.WaysRegionsAndChannelsAreConfigured
  refine ⟨fun s m p v hp acc => cacheWaysWrite_goes s m p v hp acc, fun s m n v hn acc => regionEnable_sets s m n v hn acc,
    fun s m n v hn clears => regionDisable_clears s m n v hn clears, fun s m v acc no => retire_goes s m v acc no,
    fun s on done => ?_, fun s stays => ?_⟩
  · refine ⟨(s.setF MEM_CTRL.RETIRED 0 1).setF MEM_CTRL.RETIRE 0 0, ?_, State.fb_of_f ?_, ?_, .setF (.setF (.refl _ _ s) ⟨rfl, rfl⟩) ⟨rfl, rfl⟩⟩
    · rw [exec_retireDone, execRetireDone, on, done, if_pos (by decide)]
    · rw [State.setF_f_apart _ _ _ _ _ _ (by decide) (by decide), State.setF_f_same _ _ _ _ (by decide)]
      rfl
    · rw [State.fb, State.setF_f_same _ _ _ _ (by decide)]
      rfl
  · rw [exec_retireDone, execRetireDone, if_neg]
    rcases stays with off | on
    · rw [off, Bool.false_and]
      decide
    · rw [on, Bool.not_true, Bool.and_false]
      decide

end Sys2Proof.Machine
end

section
/-! PROOFS. Pieces of moves (R206, R207). -/

set_option Elab.async false

namespace Sys2Proof.Machine

/-! ## Dealing ladles -/

/-- The moves of `t` are those of `s`, some of which have taken a ladle. -/
def MovesDealt (s t : State) : Prop :=
  ∃ f : Move → Move, (∀ m, f m = m ∨ f m = { m with ladle := true }) ∧ t.mem.moves = s.mem.moves.map f

section
variable {s t u : State}

theorem MovesDealt.refl (s : State) : MovesDealt s s := ⟨id, fun _ => .inl rfl, (List.map_id _).symm⟩

theorem MovesDealt.trans (h : MovesDealt s t) (g : MovesDealt t u) : MovesDealt s u := by
  obtain ⟨f, hf, same⟩ := h
  obtain ⟨e, he, next⟩ := g
  refine ⟨e ∘ f, fun m => ?_, by rw [next, same, List.map_map]⟩
  rcases hf m with hm | hm <;> rcases he (f m) with hn | hn <;> rw [Function.comp, hn, hm]
  · exact .inl rfl
  · exact .inr rfl
  · exact .inr rfl
  · exact .inr rfl

theorem MovesDealt.of_same (h : t.mem.moves = s.mem.moves) : MovesDealt s t := ⟨id, fun _ => .inl rfl, by rw [h, List.map_id]⟩

/-- The first move of a number, after ladles were dealt. -/
theorem MovesDealt.find (h : MovesDealt s t) {k : Nat} {v : Move} (first : s.mem.moves.find? (fun x => x.id == k) = some v) :
    ∃ w, t.mem.moves.find? (fun x => x.id == k) = some w ∧ (w = v ∨ w = { v with ladle := true }) := by
  obtain ⟨f, hf, same⟩ := h
  have number : ∀ m, (f m).id = m.id := fun m => by rcases hf m with e | e <;> rw [e]
  refine ⟨f v, ?_, hf v⟩
  rw [same, List.find?_map, show (fun x : Move => x.id == k) ∘ f = fun x => x.id == k from funext fun m => by rw [Function.comp, number], first]
  rfl

theorem MovesDealt.find_held (h : MovesDealt s t) {k : Nat} {v : Move} (first : s.mem.moves.find? (fun x => x.id == k) = some v)
    (held : v.ladle = true) : t.mem.moves.find? (fun x => x.id == k) = some v := by
  obtain ⟨w, found, rfl | rfl⟩ := h.find first
  · exact found
  · rw [found]
    exact congrArg some (by rw [← held])

theorem MovesDealt.find_none (h : MovesDealt s t) {k : Nat} (none : ∀ x ∈ s.mem.moves, x.id ≠ k) : ∀ x ∈ t.mem.moves, x.id ≠ k := by
  obtain ⟨f, hf, same⟩ := h
  rw [same]
  rintro x hx
  obtain ⟨m, hm, rfl⟩ := List.mem_map.1 hx
  rcases hf m with e | e <;> rw [e] <;> exact none m hm

end

section
variable (s : State)

theorem State.dealLadles_moves : MovesDealt s s.dealLadles := by
  have give : ∀ (u : State) (m : Move), MovesDealt u (u.giveLadle m) := fun u m => by
    unfold State.giveLadle
    split
    · exact ⟨_, fun x => by by_cases h : x.id = m.id <;> simp [h], rfl⟩
    · exact .refl u
  have gives : ∀ (u : State) (x : Job), MovesDealt u (u.giveLadles x) := fun u x => by
    unfold State.giveLadles
    refine List.foldlRecOn (motive := fun v => MovesDealt u v) _ _ (.refl u) fun v hv _ _ => ?_
    split
    · exact hv.trans (.of_same rfl)
    · exact hv
  unfold State.dealLadles
  dsimp only
  exact List.foldlRecOn (motive := fun v => MovesDealt s v) _ _
    (List.foldlRecOn (motive := fun v => MovesDealt s v) _ _ (.refl s) fun v hv m _ => hv.trans (give v m))
    fun v hv x _ => hv.trans (gives v x)

/-- A job keeps the ladles that it holds while ladles are dealt. -/
theorem State.dealLadles_ladles (j : Nat) (x : Job) (hx : s.job j = some x) :
    ∃ n, x.ladles ≤ n ∧ s.dealLadles.job j = some { x with ladles := n } := by
  have gives : ∀ (u : State) (y : Job), (∃ n, x.ladles ≤ n ∧ u.job j = some { x with ladles := n }) →
      ∃ n, x.ladles ≤ n ∧ (u.giveLadles y).job j = some { x with ladles := n } := fun u y h => by
    unfold State.giveLadles
    refine List.foldlRecOn (motive := fun (v : State) => ∃ n, x.ladles ≤ n ∧ v.job j = some { x with ladles := n }) _ _ h fun v hv _ _ => ?_
    split
    · obtain ⟨n, le, hn⟩ := hv
      by_cases e : y.id = j
      · subst e
        exact ⟨n + 1, by omega, v.modJob_job y.id (fun y => { y with ladles := y.ladles + 1 }) (fun _ => rfl) _ hn⟩
      · exact ⟨n, le, (v.modJob_job_ne _ _ (fun y => { y with ladles := y.ladles + 1 }) (fun _ => rfl) (Ne.symm e)).trans hn⟩
    · exact hv
  have give : ∀ (u : State) (m : Move), (∃ n, x.ladles ≤ n ∧ u.job j = some { x with ladles := n }) →
      ∃ n, x.ladles ≤ n ∧ (u.giveLadle m).job j = some { x with ladles := n } := fun u m h => by
    unfold State.giveLadle
    split
    · exact h
    · exact h
  unfold State.dealLadles
  dsimp only
  exact List.foldlRecOn (motive := fun (v : State) => ∃ n, x.ladles ≤ n ∧ v.job j = some { x with ladles := n }) _ _
    (List.foldlRecOn (motive := fun (v : State) => ∃ n, x.ladles ≤ n ∧ v.job j = some { x with ladles := n }) _ _
      ⟨x.ladles, Nat.le_refl _, hx⟩ fun v hv m _ => give v m hv) fun (v : State) hv y _ => gives v y hv

theorem State.dealLadles_only : DealsOnly s s.dealLadles := ⟨s.dealLadles_keeps.1, s.dealLadles_jobs, s.dealLadles_keeps.2⟩

/-- A move that holds a ladle is the one whose piece ends. -/
theorem pieceDone_held {k : Nat} {v : Move} (first : s.mem.moves.find? (fun x => x.id == k) = some v) (held : v.ladle = true) :
    pieceDone k s = s.ladlePiece v := by
  have found : s.mem.moves.find? (fun x => x.id == k && x.ladle) = some v := by
    obtain ⟨is, xs, ys, split, none⟩ := List.find?_eq_some_iff_append.1 first
    refine List.find?_eq_some_iff_append.2 ⟨by rw [held, Bool.and_true]; exact is, xs, ys, split, fun y hy => ?_⟩
    have no := none y hy
    rw [Bool.not_eq_true'] at no ⊢
    rw [no, Bool.false_and]
  rw [pieceDone, found]

theorem ladlePieceDone_held {k : Nat} {v : Move} (first : s.mem.moves.find? (fun x => x.id == k) = some v) (held : v.ladle = true) :
    exec (.ladlePieceDone k) s = .next (s.dealLadles.ladlePiece v) := by
  rw [exec_ladlePieceDone, execLadlePieceDone, pieceDone_held _ (s.dealLadles_moves.find_held first held) held]

theorem ladlePieceDone_none {k : Nat} (none : s.mem.moves.find? (fun x => x.id == k) = none) :
    exec (.ladlePieceDone k) s = .next s.dealLadles := by
  have gone := s.dealLadles_moves.find_none (k := k) fun x hx => by simpa using List.find?_eq_none.1 none x hx
  rw [exec_ladlePieceDone, execLadlePieceDone, pieceDone]
  rw [List.find?_eq_none.2 fun x hx => by simp [gone x hx]]

/-! ## A piece has ended -/

/-- The state after a move's progress is recorded with the array whose transfer it is. -/
def State.pieceCounted (m : Move) (n : Nat) : State :=
  match m.kind with
  | .pour a k => (s.modMove m.id fun x => { x with done := x.done + n }).modArr a fun x =>
      { x with async := x.async.map fun (o : AsyncOp) =>
          if o.serial = k then { o with written := o.written + n, finished := o.finished || decide (m.len ≤ m.done + n) } else o }
  | _ => s.modMove m.id fun x => { x with done := x.done + n }

theorem State.pieceOn_eq (m : Move) (n : Nat) : s.pieceOn m n
    = if m.len ≤ m.done + n then (s.pieceCounted m n).dropMove m else (s.pieceCounted m n).pieceBoundary m := by
  unfold State.pieceOn State.pieceCounted
  cases m.kind <;> rfl

theorem State.pieceCounted_moves (m : Move) (n : Nat) :
    (s.pieceCounted m n).mem.moves = s.mem.moves.map fun x => if x.id = m.id then { x with done := x.done + n } else x := by
  unfold State.pieceCounted
  split <;> rfl

theorem State.leaves_pieceCounted (m : Move) (n : Nat) : Leaves [.moves, .arrays] noReg s (s.pieceCounted m n) := by
  unfold State.pieceCounted
  split
  · exact .modArr (.modMove (.refl _ _ s))
  · exact .modMove (.refl _ _ s)

theorem State.pieceBoundary_keeps (m : Move) : Leaves [.moves, .jobs] noReg s (s.pieceBoundary m)
    ∧ (∀ k, SameJob k s (s.pieceBoundary m)) ∧ ∃ f : Move → Move, (∀ x, (f x).id = x.id ∧ { f x with ladle := true } = { x with ladle := true })
      ∧ (s.pieceBoundary m).mem.moves = s.mem.moves.map f := by
  unfold State.pieceBoundary
  split
  · have freed : Leaves [.moves] noReg s (s.modMove m.id fun x => { x with ladle := false }) := .modMove (.refl _ _ s)
    have jobs := freed.1 .jobs (by simp)
    have moves : (s.modMove m.id fun x => { x with ladle := false }).mem.moves
        = s.mem.moves.map fun x => if x.id = m.id then { x with ladle := false } else x := rfl
    revert freed jobs moves
    generalize s.modMove m.id (fun x => { x with ladle := false }) = u
    intro freed jobs moves
    obtain ⟨f, hf, dealt⟩ := u.dealLadles_moves
    refine ⟨(freed.mono (by simp) fun _ _ e => e).trans u.dealLadles_keeps.2,
      fun k => (SameJob.of_jobs jobs).trans (u.dealLadles_jobs k), _, fun x => ?_, by rw [dealt, moves, List.map_map]⟩
    dsimp only [Function.comp]
    split
    · rcases hf { x with ladle := false } with e | e <;> rw [e] <;> exact ⟨rfl, rfl⟩
    · rcases hf x with e | e <;> rw [e] <;> exact ⟨rfl, rfl⟩
  · exact ⟨.refl _ _ s, fun k => .refl k s, id, fun _ => ⟨rfl, rfl⟩, (List.map_id _).symm⟩

/-- What a piece of a move leaves: the move has left, or it has gone on. -/
structure PieceOn (k : Nat) (v : Move) (n : Nat) (s t : State) : Prop where
  gone : v.len ≤ v.done + n → ∀ y ∈ t.mem.moves, y.id ≠ k
  on : v.done + n < v.len → (t.mem.moves.find? (fun x => x.id == k)).map (fun m => { m with ladle := true })
    = some { v with done := v.done + n }
  jobs : ∀ j, SameJob j s t
  left : Leaves [.moves, .jobs] noReg (s.pieceCounted v n) t

theorem PieceOn.leaves {k n : Nat} {v : Move} {s t : State} (h : PieceOn k v n s t) : Leaves [.arrays, .moves, .jobs] noReg s t :=
  ((s.leaves_pieceCounted v n).mono (by simp) fun _ _ e => e).into h.left (by simp) fun _ _ e => e

theorem PieceOn.counted {k n : Nat} {v : Move} {s t : State} (h : PieceOn k v n s t) (a : Nat) :
    t.arr a = (s.pieceCounted v n).arr a := h.left.arr_same (by simp) a

theorem State.pieceOn_goes {k : Nat} {v : Move} (n : Nat) (first : s.mem.moves.find? (fun x => x.id == k) = some v)
    (held : v.ladle = true) : PieceOn k v n s (s.pieceOn v n) := by
  have number : v.id = k := by simpa using List.find?_some first
  have counted := s.leaves_pieceCounted v n
  have moves := s.pieceCounted_moves v n
  have jobs : ∀ j, SameJob j s (s.pieceCounted v n) := fun j => .of_jobs (counted.1 .jobs (by simp))
  rw [s.pieceOn_eq]
  revert counted moves jobs
  generalize hu : s.pieceCounted v n = u
  intro counted moves jobs
  by_cases whole : v.len ≤ v.done + n
  · rw [if_pos whole]
    obtain ⟨left, same⟩ := u.dropMove_keeps v
    refine ⟨fun _ => ?_, fun h => by omega, fun j => (jobs j).trans (same j), hu ▸ left⟩
    unfold State.dropMove
    refine (State.dealLadles_moves _).find_none fun x hx => ?_
    have other := (List.mem_filter.1 hx).2
    rw [number] at other
    simpa using other
  · rw [if_neg whole]
    obtain ⟨left, same, f, hf, after⟩ := u.pieceBoundary_keeps v
    refine ⟨fun h => absurd h whole, fun _ => ?_, fun j => (jobs j).trans (same j), hu ▸ left⟩
    have ids : (fun x : Move => x.id == k) ∘ (f ∘ fun x => if x.id = v.id then { x with done := x.done + n } else x) = fun x => x.id == k := by
      funext x
      dsimp only [Function.comp]
      rw [(hf _).1]
      split <;> rfl
    rw [after, moves, List.map_map, List.find?_map, ids, first, Option.map_some, Option.map_some]
    dsimp only [Function.comp]
    rw [(hf _).2, if_pos rfl]
    exact congrArg some (by rw [← held])

/-- What a piece leaves of an array whose transfer does not move. -/
theorem State.pieceCounted_mould (m : Move) (n a : Nat) : ((s.pieceCounted m n).arr a).mould = (s.arr a).mould := by
  unfold State.pieceCounted
  split
  · rw [State.modArr_arr]
    split
    · next e => rw [e]; rfl
    · rfl
  · rfl

theorem State.pieceCounted_arr_ne {a b c : Nat} (m : Move) (n : Nat) (pour : m.kind = .pour a c) (hb : b ≠ a) :
    (s.pieceCounted m n).arr b = s.arr b := by
  unfold State.pieceCounted
  rw [pour]
  dsimp only
  rw [State.modArr_arr, if_neg hb]
  rfl

end

/-! ## Moves of arrays, and of a retirement -/

section
variable (s s1 : State) (k a c : Nat) (v : Move)

theorem ladlePieceDone_in (bs : List Byte) (first : s.mem.moves.find? (fun x => x.id == k) = some v) (held : v.ladle = true)
    (pour : v.kind = .pour a c) (fromMem : v.toMem = false) (plain : v.key = 0) (form : v.form = 0) (on : s.f ARR_STATUS.STATE a ≠ 3)
    (mine : ∃ o ∈ (s.arr a).async, o.serial = c)
    (read : instRead s.dealLadles v.inst (v.va + v.done) (min pieceBytes (v.len - v.done)) = (.ok bs, s1)) :
    exec (.ladlePieceDone k) s
      = .next ((s1.mouldWrite a (v.maddr + v.done) bs).pieceOn v (min pieceBytes (v.len - v.done))) := by
  have dealt := s.dealLadles_keeps.2
  have live : ((s.dealLadles.arr a).async.any (fun o => o.serial == c) && s.dealLadles.f ARR_STATUS.STATE a != 3) = true := by
    rw [dealt.arr_same (by simp), dealt.f_same _ _ id, Bool.and_eq_true]
    exact ⟨List.any_eq_true.2 (mine.imp fun o h => ⟨h.1, beq_iff_eq.2 h.2⟩), bne_iff_ne.2 on⟩
  have piece : s.dealLadles.pieceIn v (min pieceBytes (v.len - v.done)) = (.ok bs, s1) := by
    unfold State.pieceIn
    rw [plain, form, read]
    rfl
  rw [ladlePieceDone_held s first held]
  generalize s.dealLadles = d at live piece
  unfold State.ladlePiece
  dsimp only
  rw [pour]
  dsimp only
  rw [fromMem, if_neg (by decide), piece]
  dsimp only
  rw [if_pos live]

theorem ladlePieceDone_out (first : s.mem.moves.find? (fun x => x.id == k) = some v) (held : v.ladle = true)
    (pour : v.kind = .pour a c) (toMem : v.toMem = true) (plain : v.key = 0) (form : v.form ≠ 2)
    (wrote : instWrite s.dealLadles v.inst (v.va + v.done) ((v.data.drop v.done).take (min pieceBytes (v.len - v.done))) = (.ok [], s1)) :
    exec (.ladlePieceDone k) s = .next (s1.pieceOn v (min pieceBytes (v.len - v.done))) := by
  have piece : s.dealLadles.pieceOut v (min pieceBytes (v.len - v.done)) = (0, s1) := by
    unfold State.pieceOut
    dsimp only
    rw [plain, if_neg (by decide), if_neg form, wrote]
    rfl
  rw [ladlePieceDone_held s first held]
  generalize s.dealLadles = d at piece
  unfold State.ladlePiece
  dsimp only
  rw [pour]
  dsimp only
  rw [toMem, if_pos rfl, piece]
  rfl

/-- The parts of a piece that moves an array's bytes. -/
abbrev pieceParts : List Part := .arrays :: .jobs :: .moves :: accessParts

theorem accessParts_subset_pieceParts : accessParts ⊆ pieceParts := fun _ h =>
  List.mem_cons_of_mem _ (List.mem_cons_of_mem _ (List.mem_cons_of_mem _ h))

theorem pieceIn_goes (bs : List Byte) (first : s.mem.moves.find? (fun x => x.id == k) = some v) (held : v.ladle = true)
    (pour : v.kind = .pour a c) (fromMem : v.toMem = false) (plain : v.key = 0) (form : v.form = 0) (on : s.f ARR_STATUS.STATE a ≠ 3)
    (mine : ∃ o ∈ (s.arr a).async, o.serial = c)
    (read : instRead s.dealLadles v.inst (v.va + v.done) (min pieceBytes (v.len - v.done)) = (.ok bs, s1)) :
    ∃ t, exec (.ladlePieceDone k) s = .next t
      ∧ (∀ i, NMap.get (t.arr a).mould 0 i = if v.maddr + v.done ≤ i ∧ i < v.maddr + v.done + bs.length
          then bs.getD (i - (v.maddr + v.done)) 0 else NMap.get (s.arr a).mould 0 i)
      ∧ (v.len ≤ v.done + min pieceBytes (v.len - v.done) → ∀ y ∈ t.mem.moves, y.id ≠ k)
      ∧ (v.done + min pieceBytes (v.len - v.done) < v.len →
          (t.mem.moves.find? (fun x => x.id == k)).map (fun m => { m with ladle := true })
            = some { v with done := v.done + min pieceBytes (v.len - v.done) })
      ∧ (∀ b, b ≠ a → t.arr b = s.arr b) ∧ (∀ j, SameJob j s t) ∧ Leaves pieceParts accessRegs s t := by
  have run := ladlePieceDone_in s s1 k a c v bs first held pour fromMem plain form on mine read
  have reached : Accessed s.dealLadles s1 := by
    have := accessed_instRead s.dealLadles v.inst (v.va + v.done) (min pieceBytes (v.len - v.done))
    rwa [read] at this
  have dealt := s.dealLadles_keeps.2
  have arrays : ∀ b, s1.arr b = s.arr b := fun b =>
    (Leaves.arr_same reached (by simp [accessParts]) b).trans (Leaves.arr_same dealt (by simp) b)
  have written : Leaves [.arrays] noReg s1 (s1.mouldWrite a (v.maddr + v.done) bs) := .modArr (.refl _ _ s1)
  have stored : ∀ b, (s1.mouldWrite a (v.maddr + v.done) bs).arr b
      = if b = a then { s1.arr a with mould := putMould (s1.arr a).mould (v.maddr + v.done) bs } else s1.arr b := fun b => by
    rw [State.mouldWrite, State.modArr_arr]
  have here : (s1.mouldWrite a (v.maddr + v.done) bs).mem.moves.find? (fun x => x.id == k) = some v := by
    rw [written.1 .moves (by simp), reached.1 .moves (by simp [accessParts])]
    exact s.dealLadles_moves.find_held first held
  revert run written stored here
  generalize s1.mouldWrite a (v.maddr + v.done) bs = w
  intro run written stored here
  have piece := w.pieceOn_goes (min pieceBytes (v.len - v.done)) here held
  have before : Leaves pieceParts accessRegs s w :=
    ((dealt.mono (by simp) fun _ _ no => no.elim).trans (reached.mono accessParts_subset_pieceParts fun _ _ e => e)).into written (by simp) fun _ _ no => no.elim
  refine ⟨_, run, fun i => ?_, piece.gone, piece.on, fun b hb => ?_, fun j => ?_, before.into piece.leaves (by simp) fun _ _ no => no.elim⟩
  · rw [piece.counted, w.pieceCounted_mould, stored, if_pos rfl, putMould_get, arrays]
  · rw [piece.counted, w.pieceCounted_arr_ne v _ pour hb, stored, if_neg hb, arrays]
  · exact ((s.dealLadles_jobs j).trans (.of_jobs ((written.1 .jobs (by simp)).trans (reached.1 .jobs (by simp [accessParts]))))).trans (piece.jobs j)

theorem pieceOut_goes (first : s.mem.moves.find? (fun x => x.id == k) = some v) (held : v.ladle = true)
    (pour : v.kind = .pour a c) (toMem : v.toMem = true) (plain : v.key = 0) (form : v.form ≠ 2)
    (wrote : instWrite s.dealLadles v.inst (v.va + v.done) ((v.data.drop v.done).take (min pieceBytes (v.len - v.done))) = (.ok [], s1)) :
    ∃ t, exec (.ladlePieceDone k) s = .next t ∧ t.mem.cells = s1.mem.cells ∧ (t.arr a).mould = (s.arr a).mould
      ∧ (∀ j, SameJob j s t) ∧ Leaves pieceParts accessRegs s t := by
  have run := ladlePieceDone_out s s1 k a c v first held pour toMem plain form wrote
  have reached : Accessed s.dealLadles s1 := by
    have := accessed_instWrite s.dealLadles v.inst (v.va + v.done) ((v.data.drop v.done).take (min pieceBytes (v.len - v.done)))
    rwa [wrote] at this
  have dealt := s.dealLadles_keeps.2
  have here : s1.mem.moves.find? (fun x => x.id == k) = some v := by
    rw [reached.1 .moves (by simp [accessParts])]
    exact s.dealLadles_moves.find_held first held
  have piece := s1.pieceOn_goes (min pieceBytes (v.len - v.done)) here held
  refine ⟨_, run, piece.leaves.1 .cells (by simp), ?_, fun j => ?_, ?_⟩
  · rw [piece.counted, s1.pieceCounted_mould, Leaves.arr_same reached (by simp [accessParts]), Leaves.arr_same dealt (by simp)]
  · exact ((s.dealLadles_jobs j).trans (.of_jobs (reached.1 .jobs (by simp [accessParts])))).trans (piece.jobs j)
  · exact ((dealt.mono (by simp) fun _ _ no => no.elim).trans (reached.mono accessParts_subset_pieceParts fun _ _ e => e)).into piece.leaves (by simp)
      fun _ _ no => no.elim

theorem retirePiece_goes (first : s.mem.moves.find? (fun x => x.id == k) = some v) (held : v.ladle = true) (retires : v.kind = .retire c) :
    ∃ t, exec (.ladlePieceDone k) s = .next t ∧ (∀ j, SameJob j s t) ∧ Leaves [.moves, .jobs] noReg s t
      ∧ (v.len ≤ v.done + min pieceBytes (v.len - v.done) → ∀ y ∈ t.mem.moves, y.id ≠ k)
      ∧ (v.done + min pieceBytes (v.len - v.done) < v.len →
          (t.mem.moves.find? (fun x => x.id == k)).map (fun m => { m with ladle := true })
            = some { v with done := v.done + min pieceBytes (v.len - v.done) }) := by
  have here := s.dealLadles_moves.find_held first held
  have piece := s.dealLadles.pieceOn_goes (min pieceBytes (v.len - v.done)) here held
  have run : exec (.ladlePieceDone k) s = .next (s.dealLadles.pieceOn v (min pieceBytes (v.len - v.done))) := by
    rw [ladlePieceDone_held s first held, State.ladlePiece]
    dsimp only
    rw [retires]
  have moved : Leaves [.moves, .jobs] noReg s.dealLadles (s.dealLadles.pieceCounted v (min pieceBytes (v.len - v.done))) := by
    unfold State.pieceCounted
    rw [retires]
    exact .modMove (.refl _ _ _)
  exact ⟨_, run, fun j => (s.dealLadles_jobs j).trans (piece.jobs j), (s.dealLadles_keeps.2.trans moved).trans piece.left,
    piece.gone, piece.on⟩

end

end Sys2Proof.Machine
end

section
/-! PROOFS. Lines that an instance writes and reads where the DTU is in Bare mode (R190, R197, R200, R211). -/

set_option Elab.async false

namespace Sys2Proof.Machine

/-! ## Bytes of a range -/

section
variable (s : State)

theorem State.bytes_congr {s t : State} (a n : Nat) (same : ∀ k, a ≤ k → k < a + n → t.byte k = s.byte k) : t.bytes a n = s.bytes a n := by
  induction n generalizing a with
  | zero => rfl
  | succ n ih =>
    rw [State.bytes, State.bytes, same a (Nat.le_refl _) (by omega), ih (a + 1) fun k lo hi => same k (by omega) (by omega)]

theorem State.bytes_append (a n m : Nat) : s.bytes a n ++ s.bytes (a + n) m = s.bytes a (n + m) := by
  induction n generalizing a with
  | zero => rw [State.bytes, List.nil_append, Nat.add_zero, Nat.zero_add]
  | succ n ih =>
    rw [show n + 1 + m = n + m + 1 by omega, State.bytes, State.bytes, List.cons_append, ← ih, show a + (n + 1) = a + 1 + n by omega]

theorem State.bytes_getD (a n i : Nat) (h : i < n) : (s.bytes a n).getD i 0 = s.byte (a + i) := by
  induction n generalizing a i with
  | zero => exact absurd h (Nat.not_lt_zero _)
  | succ n ih =>
    cases i with
    | zero => rw [State.bytes, List.getD_cons_zero, Nat.add_zero]
    | succ i => rw [State.bytes, List.getD_cons_succ, ih _ _ (by omega), show a + 1 + i = a + (i + 1) by omega]

end

/-! ## Lines that become no worse -/

/-- Nothing more is turned over in memory, and no further line is poisoned. -/
structure Cleaner (s t : State) : Prop where
  flips : ∀ f ∈ t.mem.flips, f ∈ s.mem.flips
  check : ∀ f ∈ t.mem.chkFlips, f ∈ s.mem.chkFlips
  poison : ∀ l ∈ t.mem.poison, l ∈ s.mem.poison

section
variable {s t u : State}

theorem Cleaner.refl (s : State) : Cleaner s s := ⟨fun _ h => h, fun _ h => h, fun _ h => h⟩

theorem Cleaner.trans (h : Cleaner s t) (g : Cleaner t u) : Cleaner s u :=
  ⟨fun f m => h.flips f (g.flips f m), fun f m => h.check f (g.check f m), fun l m => h.poison l (g.poison l m)⟩

theorem Cleaner.of_same (flips : t.mem.flips = s.mem.flips) (check : t.mem.chkFlips = s.mem.chkFlips) (poison : t.mem.poison = s.mem.poison) :
    Cleaner s t := ⟨fun _ h => flips ▸ h, fun _ h => check ▸ h, fun _ h => poison ▸ h⟩

theorem Cleaner.of_leaves {ps : List Part} {q : Reg → Nat → Prop} (h : Leaves ps q s t) (hf : .flips ∉ ps := by simp)
    (hc : .chkFlips ∉ ps := by simp) (hp : .poison ∉ ps := by simp) : Cleaner s t :=
  .of_same (h.1 .flips hf) (h.1 .chkFlips hc) (h.1 .poison hp)

theorem Cleaner.freshLine (s : State) (l : Nat) : Cleaner s (s.freshLine l) :=
  ⟨fun _ h => (List.mem_filter.1 h).1, fun _ h => (List.mem_filter.1 h).1, fun _ h => (List.mem_filter.1 h).1⟩

theorem Cleaner.store (s : State) (a : Nat) (bs : List Byte) : Cleaner s (s.store a bs) := .of_same rfl rfl rfl

theorem Cleaner.lineStored (s : State) (l : Nat) : Cleaner s (s.lineStored l) := by
  have fresh := Cleaner.freshLine s l
  unfold State.lineStored
  dsimp only
  split
  · exact fresh.trans (.store _ _ _)
  · split
    · exact (fresh.trans (.store _ _ _)).trans (.freshLine _ _)
    · exact fresh

theorem Cleaner.evict (s : State) (l : Nat) : Cleaner s (s.evict l) := by
  unfold State.evict
  have out : Cleaner s (s.withCache (s.mem.cache.filter fun c => c.line != l)) := .of_same rfl rfl rfl
  split
  · exact .refl s
  · dsimp only
    split
    · exact out.trans (.lineStored _ l)
    · exact out

theorem Cleaner.touch (s : State) (part l : Nat) (dirty : Bool) : Cleaner s (s.touch part l dirty) := by
  have used : Cleaner s s.usedNow := .of_same rfl rfl rfl
  have cached : ∀ (u : State) (c : List CacheLine), Cleaner u (u.withCache c) := fun _ _ => .of_same rfl rfl rfl
  unfold State.touch
  dsimp only
  split
  · exact used.trans (cached s.usedNow _)
  · split
    · split
      · exact used.trans (.lineStored s.usedNow l)
      · exact used
    · refine Cleaner.trans ?_ (.of_leaves (State.leaves_updateOcc _))
      split
      · exact (used.trans (.evict s.usedNow _)).trans (cached _ _)
      · exact used.trans (cached s.usedNow _)

end

/-! ## Bytes that have been filled -/

/-- From `s` to `t` the bytes from `lo` up to `hi` have taken values, beside what the hardware keeps with the lines. -/
structure Filled (val : Nat → Byte) (lo hi : Nat) (s t : State) : Prop where
  leaves : Leaves lineParts occOnly s t
  bytes : ∀ k, ¬ s.hwByte k → t.byte k = if lo ≤ k ∧ k < hi then val k else s.byte k
  cleaner : Cleaner s t

section
variable {s t u : State} {val : Nat → Byte} {lo mid hi : Nat}

theorem Filled.refl (val : Nat → Byte) (lo : Nat) (s : State) : Filled val lo lo s s :=
  ⟨.refl _ _ s, fun k _ => by rw [if_neg (by omega)], .refl s⟩

theorem Filled.append (h : Filled val lo mid s t) (g : Filled val mid hi t u) (le : lo ≤ mid) (le' : mid ≤ hi) : Filled val lo hi s u := by
  refine ⟨h.leaves.trans g.leaves, fun k hk => ?_, h.cleaner.trans g.cleaner⟩
  rw [g.bytes k fun hw => hk (((SameRegions.of_leaves h.leaves).hwByte k).1 hw), h.bytes k hk]
  by_cases first : lo ≤ k ∧ k < mid
  · rw [if_neg (by omega), if_pos first, if_pos (by omega)]
  · by_cases second : mid ≤ k ∧ k < hi
    · rw [if_pos second, if_pos (by omega)]
    · rw [if_neg second, if_neg first, if_neg (by omega)]

theorem Filled.congr {val' : Nat → Byte} (h : Filled val' lo hi s t) (same : ∀ k, lo ≤ k → k < hi → val' k = val k) : Filled val lo hi s t := by
  refine ⟨h.leaves, fun k hk => ?_, h.cleaner⟩
  rw [h.bytes k hk]
  split
  · next range => exact same k range.1 range.2
  · rfl

/-- A loop fills line after line. -/
theorem State.each_range {P : Nat → State → Prop} (g : State → Nat → State) (m : Nat) (start : P 0 s)
    (step : ∀ k < m, ∀ t, P k t → P (k + 1) (g t k)) : P m (s.each (List.range m) g) := by
  unfold State.each
  induction m with
  | zero => exact start
  | succ m ih =>
    rw [List.range_succ, List.foldl_append, List.foldl_cons, List.foldl_nil]
    exact step m (Nat.lt_succ_self m) _ (ih fun k hk => step k (by omega))

end

/-! ## What an instance reaches -/

/-- FCLK runs, and the DTU passes addresses on as they are. -/
def State.bare (s : State) : Prop := bits (s.r .dtuIommu 2) 3 0 = 1 ∧ s.clockLost .fclk = false

/-- The address lies in DRAM, and the instance may reach it. -/
def State.reaches (s : State) (inst a : Nat) : Prop := s.place a = .dram (a - dramBase) ∧ s.outOk (s.instFlask inst) a = true

section
variable {s t : State} {inst a : Nat} {ps : List Part} {q : Reg → Nat → Prop}

/-- A change beside clocks, regions and the memory's registers. -/
structure Beside (s t : State) : Prop where
  lost : t.sys.power.lost = s.sys.power.lost
  spare : t.mem.spareArea = s.mem.spareArea
  regs : ∀ r i, r ≠ .memCways → t.r r i = s.r r i

theorem Leaves.reg_beside (h : Leaves ps q s t) (hp : .power ∉ ps := by simp) (hs : .spareArea ∉ ps := by simp)
    (hq : ∀ r i, q r i → r = .memCways := by exact fun _ _ no => no.elim) : Beside s t := by
  have calm : t.sys.power.calm = s.sys.power.calm := h.1 .power hp
  have lost := congrArg PowerSt.lost calm
  exact ⟨lost, h.1 .spareArea hs, fun r i hr => h.2 r i fun e => hr (hq r i e)⟩

theorem Beside.f (h : Beside s t) (x : Fld) (i : Nat) (hx : x.reg ≠ .memCways := by decide) : t.f x i = s.f x i := by
  rw [State.f, State.f, h.regs _ _ hx]

theorem Beside.fb (h : Beside s t) (x : Fld) (i : Nat) (hx : x.reg ≠ .memCways := by decide) : t.fb x i = s.fb x i := by
  rw [State.fb, State.fb, h.f x i hx]

theorem Beside.clockLost (h : Beside s t) (d : Domain) : t.clockLost d = s.clockLost d := by
  rw [State.clockLost, State.clockLost, h.lost]

theorem Beside.regions (h : Beside s t) : SameRegions s t := fun x i hx => h.f x i (by rcases hx with e | e <;> rw [e] <;> decide)

theorem Beside.usable (h : Beside s t) : t.usable = s.usable := by rw [State.usable, State.usable, h.f MEM_CTRL.CH_CAP]

theorem Beside.place (h : Beside s t) (a : Nat) : t.place a = s.place a := by
  unfold State.place
  rw [h.usable, h.fb MEM_CTRL.READY]

theorem Beside.carved (h : Beside s t) (a : Nat) : t.carved a = s.carved a := by
  have tag := fun n => h.fb MEM_RGN1.TAG n
  have mirror := fun n => h.fb MEM_RGN1.MIRROR n
  have base := fun n => h.f MEM_RGN0.BASE n
  have spare : t.inSpare a = s.inSpare a := by rw [State.inSpare, State.inSpare, h.spare, h.usable, h.f MEM_SPARE.SPARE_BASE]
  unfold State.carved
  simp only [spare, h.regions.regionOf, h.regions.regionBytes, tag, mirror, base]

theorem Beside.outOk (h : Beside s t) (f a : Nat) : t.outOk f a = s.outOk f a := by
  have owner := fun n => h.f MEM_RGN1.OWNER n
  unfold State.outOk
  simp only [h.place, h.carved, h.regions.regionOf, owner]

theorem Beside.reaches (h : Beside s t) (r : s.reaches inst a) : t.reaches inst a :=
  ⟨(h.place a).trans r.1, by rw [State.instFlask, h.f SYS_INST.FLASK, h.outOk]; exact r.2⟩

theorem Beside.bare (h : Beside s t) (b : s.bare) : t.bare := ⟨by rw [h.regs _ _ (by decide)]; exact b.1, (h.clockLost _).trans b.2⟩

theorem State.reaches.free (r : s.reaches inst a) : s.carved (a - dramBase) = false := by
  obtain ⟨place, ok⟩ := r
  unfold State.outOk at ok
  rw [place] at ok
  exact (Bool.not_eq_true' _).mp (Bool.and_eq_true_iff.1 ok).1

theorem State.xlate_bare (w : Bool) (b : s.bare) (r : s.reaches inst a) : s.xlate inst a w = (some a, s) := by
  have raw : s.rawXlate inst a w = (.ok a, s) := by
    unfold State.rawXlate
    dsimp only
    rw [b.1]
    rfl
  unfold State.xlate
  rw [raw]
  dsimp only
  rw [if_pos r.2]

end

theorem Filled.beside {s t : State} {val : Nat → Byte} {lo hi : Nat} (h : Filled val lo hi s t) : Beside s t :=
  h.leaves.reg_beside (by simp [lineParts]) (by simp [lineParts]) fun _ _ e => e

/-! ## Whole lines are written, lines are read -/

section
variable (s : State) (part a : Nat) (bs : List Byte) (who : Option Nat)

theorem lineWrite_whole (inst : Nat) (b : s.bare) (r : s.reaches inst a) (start : a % 128 = 0) (whole : bs.length = 128) :
    ∃ t, lineWrite s part a bs who = (.ok [], t) ∧ Filled (fun k => bs.getD (k - a) 0) a (a + 128) s t := by
  obtain ⟨x, y, way⟩ := s.gateReq_way part bs.length
  have passed := s.leaves_onTheWay_gates x y _ rfl
  have cells : ∀ k, (s.onTheWay x y s.units.vecs).byte k = s.byte k := State.byte_of_cells rfl
  unfold lineWrite
  rw [r.1]
  dsimp only
  rw [b.2, if_neg (by decide), r.free, if_neg (by decide), way, State.dramPut_ready _ _ _ _ _ (.inl ⟨whole, start⟩)]
  refine ⟨_, rfl, ?_⟩
  revert passed cells
  generalize s.onTheWay x y s.units.vecs = w
  intro passed cells
  have stored : Leaves [.cells, .holders] noReg w ((w.dropHolders ((a - dramBase) / 128)).store a bs) :=
    .parts (.refl _ _ w)
  have bytes : ∀ k, ((w.dropHolders ((a - dramBase) / 128)).store a bs).byte k = if a ≤ k ∧ k < a + 128 then bs.getD (k - a) 0 else s.byte k :=
    fun k => by rw [State.store_byte, whole, ← cells]; rfl
  have clean : Cleaner w ((w.dropHolders ((a - dramBase) / 128)).store a bs) := .of_leaves stored
  revert stored bytes clean
  generalize (w.dropHolders ((a - dramBase) / 128)).store a bs = v
  intro stored bytes clean
  have homed := Homed.touch v part ((a - dramBase) / 128) true
  have before : Leaves lineParts occOnly s v :=
    (passed.mono (by simp [lineParts]) fun _ _ no => no.elim).trans (stored.mono (by simp [lineParts]) fun _ _ no => no.elim)
  refine ⟨before.trans (homed.leaves.mono (by simp [slotParts, lineParts]) fun _ _ e => e), fun k hk => ?_,
    ((Cleaner.of_leaves passed).trans clean).trans (.touch v _ _ _)⟩
  rw [homed.bytes k fun hw => hk (((SameRegions.of_leaves before).hwByte k).1 hw), bytes]

/-- A line outside the tagged regions in which nothing is wrong. -/
def State.lineClean (l : Nat) : Prop :=
  s.clockLost .mclk = false ∧ l ∉ s.mem.poison ∧ s.mem.flips = [] ∧ s.mem.chkFlips = [] ∧ s.tagRegion l = none

theorem State.lineClean.ready {l : Nat} (h : s.lineClean l) : s.lineReady l := by
  obtain ⟨clock, clean, data, check, tag⟩ := h
  refine .inr ⟨clock, clean, by rw [data]; nofun, by rw [check]; nofun, ?_⟩
  rw [State.tagGood, tag]

theorem State.lineClean.of_beside {t : State} {l : Nat} (h : s.lineClean l) (beside : Beside s t) (clean : Cleaner s t) : t.lineClean l := by
  obtain ⟨clock, good, data, check, tag⟩ := h
  refine ⟨(beside.clockLost _).trans clock, fun bad => good (clean.poison l bad), ?_, ?_, (beside.regions.tagRegion l).trans tag⟩
  · exact List.eq_nil_iff_forall_not_mem.2 fun f hf => List.not_mem_nil (data ▸ clean.flips f hf)
  · exact List.eq_nil_iff_forall_not_mem.2 fun f hf => List.not_mem_nil (check ▸ clean.check f hf)

theorem lineRead_clean (inst n : Nat) (val : Nat → Byte) (m : Nat) (b : s.bare) (r : s.reaches inst a)
    (clean : s.lineClean ((a - dramBase) / 128)) :
    ∃ t, lineRead s part a n who = (.ok (s.bytes a n), t) ∧ Filled val m m s t := by
  obtain ⟨x, y, way⟩ := s.gateReq_way part n
  have passed := s.leaves_onTheWay_gates x y _ rfl
  have shared : Leaves [.holders] noReg (s.onTheWay x y s.units.vecs) ((s.onTheWay x y s.units.vecs).shareLine ((a - dramBase) / 128)) := by
    unfold State.shareLine
    split
    · exact .one .holders (.refl _ _ _) (by simp)
    · exact .refl _ _ _
  have before : Leaves [.gates, .gateQ, .holders] noReg s ((s.onTheWay x y s.units.vecs).shareLine ((a - dramBase) / 128)) :=
    (passed.mono (by simp) fun _ _ e => e).into shared (by simp) fun _ _ e => e
  unfold lineRead
  rw [r.1]
  dsimp only
  rw [b.2, if_neg (by decide), r.free, if_neg (by decide), way]
  revert before
  generalize (s.onTheWay x y s.units.vecs).shareLine ((a - dramBase) / 128) = w
  intro before
  have ready := (clean.of_beside s before.reg_beside (.of_leaves before)).ready
  rw [w.dramGet_ready part a n _ ready, State.bytes_of_cells (before.1 .cells (by simp))]
  have homed := Homed.touch w part ((a - dramBase) / 128) false
  refine ⟨_, rfl, ⟨(before.mono (by simp [lineParts]) fun _ _ no => no.elim).trans
    (homed.leaves.mono (by simp [slotParts, lineParts]) fun _ _ e => e), fun k hk => ?_, (Cleaner.of_leaves before).trans (.touch w _ _ _)⟩⟩
  rw [if_neg (by omega), homed.bytes k fun hw => hk (((SameRegions.of_leaves before).hwByte k).1 hw)]
  exact State.byte_of_cells (before.1 .cells (by simp)) k

/-- A piece of a line is one access. -/
theorem chunksOf_one (n : Nat) (some : 0 < n) (fits : a % 128 + n ≤ 128) : chunksOf a n = [(a, n)] := by
  have cut : min n (128 - a % 128) = n := by omega
  rw [chunksOf, lineChunks, if_neg (by omega)]
  dsimp only
  rw [cut, Nat.sub_self]
  cases n / 128 + 1 with
  | zero => rw [lineChunks]
  | succ f => rw [lineChunks, if_pos rfl]

/-- Whole lines are taken one by one. -/
theorem chunksOf_lines (m : Nat) (start : a % 128 = 0) : chunksOf a (128 * m) = (List.range m).map fun k => (a + 128 * k, 128) := by
  have fuel : ∀ f a, a % 128 = 0 → m < f → lineChunks f a (128 * m) = (List.range m).map fun k => (a + 128 * k, 128) := by
    induction m with
    | zero =>
      intro f a _ hf
      cases f with
      | zero => rfl
      | succ f => rw [lineChunks, if_pos rfl]; rfl
    | succ m ih =>
      intro f a ha hf
      cases f with
      | zero => exact absurd hf (Nat.not_lt_zero _)
      | succ f =>
        have cut : min (128 * (m + 1)) (128 - a % 128) = 128 := by omega
        rw [lineChunks, if_neg (by omega)]
        dsimp only
        rw [cut, show 128 * (m + 1) - 128 = 128 * m by omega, ih f (a + 128) (by omega) (by omega), List.range_succ_eq_map, List.map_cons,
          List.map_map]
        refine congrArg₂ _ rfl (List.map_congr_left fun k _ => ?_)
        dsimp only [Function.comp]
        rw [show a + 128 + 128 * k = a + 128 * (k + 1) by omega]
  exact fuel _ a start (by omega)

theorem instRead_clean (inst n : Nat) (val : Nat → Byte) (m : Nat) (b : s.bare) (r : s.reaches inst a)
    (clean : s.lineClean ((a - dramBase) / 128)) (some : 0 < n) (fits : a % 128 + n ≤ 128) :
    ∃ t, instRead s inst a n = (.ok (s.bytes a n), t) ∧ Filled val m m s t := by
  obtain ⟨t, read, filled⟩ := lineRead_clean s (s.instFlask inst) a (.some inst) inst n val m b r clean
  refine ⟨t, ?_, filled⟩
  rw [instRead, chunksOf_one a n some fits, instReadL, s.xlate_bare false b r]
  dsimp only
  rw [read]
  dsimp only
  rw [instReadL]
  dsimp only
  rw [List.append_nil]

end

end Sys2Proof.Machine
end

section
/-! PROOFS. Pieces of XFER jobs, and what O43 says (R206 to R209). -/

set_option Elab.async false

namespace Sys2Proof.Machine

/-! ## Lines of a destination -/

section
variable {s u : State} {val : Nat → Byte} {lo a inst : Nat}

theorem Filled.bare (h : Filled val lo a s u) (b : s.bare) : u.bare := h.beside.bare b
theorem Filled.reaches {k : Nat} (h : Filled val lo a s u) (r : s.reaches inst k) : u.reaches inst k := h.beside.reaches r

/-- The next line of a destination is written. -/
theorem Filled.xferPut (h : Filled val lo a s u) (j o : Nat) (bs : List Byte) (b : s.bare) (r : s.reaches inst a) (start : a % 128 = 0)
    (whole : bs.length = 128) (le : lo ≤ a) (value : ∀ k, a ≤ k → k < a + 128 → bs.getD (k - a) 0 = val k) :
    Filled val lo (a + 128) s (u.xferPut j inst o a bs) := by
  have place := (h.reaches r).1
  obtain ⟨t, wrote, filled⟩ := lineWrite_whole u (u.instFlask inst) a bs (some inst) inst (h.bare b) (h.reaches r) start whole
  have put : u.xferPut j inst o a bs = t := by
    unfold State.xferPut
    rw [u.xlate_bare true (h.bare b) (h.reaches r)]
    dsimp only
    rw [place]
    dsimp only
    rw [wrote]
  rw [put]
  exact h.append (filled.congr value) le (by omega)

end

/-- The bytes of a fill. -/
theorem fillBytes_getD (w i : Nat) (hi : i < 128) : ((List.range 16).flatMap fun _ => toLE 8 w).getD i 0 = (toLE 8 w).getD (i % 8) 0 := by
  have length : (toLE 8 w).length = 8 := length_toLE 8 w
  have unit : ∀ (n i : Nat), i < 8 * n → ((List.range n).flatMap fun _ => toLE 8 w).getD i 0 = (toLE 8 w).getD (i % 8) 0 := by
    intro n
    induction n with
    | zero => exact fun i h => absurd h (Nat.not_lt_zero _)
    | succ n ih =>
      intro i h
      rw [List.range_succ_eq_map, List.flatMap_cons, List.flatMap_map]
      by_cases first : i < 8
      · rw [List.getD_append _ _ _ _ (by omega), Nat.mod_eq_of_lt first]
      · rw [List.getD_append_right _ _ _ _ (by omega), length]
        exact (ih (i - 8) (by omega)).trans (by rw [show (i - 8) % 8 = i % 8 by omega])
  exact unit 16 i hi

theorem fillBytes_length (w : Nat) : ((List.range 16).flatMap fun _ => toLE 8 w).length = 128 := by
  simp [List.length_flatMap, length_toLE]

/-! ## Units -/

section
variable (s u : State) (x : Job) (o : Nat)

/-- Translations of a range whose ends the instance reaches all pass. -/
theorem State.xlateOk_bare (inst va n : Nat) (w : Bool) (b : s.bare) (first : s.reaches inst va) (last : s.reaches inst (va + n - 1)) :
    s.xlateOk inst va n w = (true, s) := by
  unfold State.xlateOk
  rw [s.xlate_bare w b first]
  dsimp only
  rw [s.xlate_bare w b last, ite_self]

/-- What a plain XFER job may write: whole lines of DRAM, over an FCLK that runs. -/
structure Writes (s : State) (x : Job) : Prop where
  bare : s.bare
  dst : ∀ a, xfDst x ≤ a → a < xfDst x + xfLen x → s.reaches x.inst a
  start : xfDst x % 128 = 0
  whole : xfLen x % 128 = 0

/-- The value of a filled byte. -/
def fillValue (x : Job) (k : Nat) : Byte := (toLE 8 (xfFill x)).getD ((k - xfDst x) % 8) 0

variable {s u x o} {lo : Nat}

theorem State.fillUnit_fills (w : Writes s x) (ho : o < xfLen x) (line : o % 128 = 0) (le : lo ≤ xfDst x + o)
    (h : Filled (fillValue x) lo (xfDst x + o) s u) :
    Filled (fillValue x) lo (xfDst x + o + min 4096 (xfLen x - o)) s (u.fillUnit x o) := by
  obtain ⟨m, hm⟩ : ∃ m, min 4096 (xfLen x - o) = 128 * m := ⟨min 4096 (xfLen x - o) / 128, by have := w.whole; omega⟩
  have ok : u.xlateOk x.inst (xfDst x + o) (min 4096 (xfLen x - o)) true = (true, u) :=
    u.xlateOk_bare _ _ _ _ (h.bare w.bare) (h.reaches (w.dst _ (by omega) (by omega))) (h.reaches (w.dst _ (by omega) (by omega)))
  unfold State.fillUnit
  dsimp only
  rw [ok]
  dsimp only
  rw [hm, Nat.mul_div_cancel_left m (by decide)]
  refine State.each_range (P := fun k t => Filled (fillValue x) lo (xfDst x + o + 128 * k) s t) _ m h fun k hk t ht => ?_
  have := ht.xferPut (inst := x.inst) x.id (o + 128 * k) _ w.bare (w.dst _ (by omega) (by omega)) (by have := w.start; omega)
    (fillBytes_length (xfFill x)) (by omega) fun i lo hi => by
      rw [fillBytes_getD _ _ (by omega), fillValue, show (i - (xfDst x + o + 128 * k)) % 8 = (i - xfDst x) % 8 by omega]
  rwa [show xfDst x + o + 128 * k + 128 = xfDst x + o + 128 * (k + 1) by omega] at this

/-- What a plain copy may read: clean lines of DRAM beside its destination, over an MCLK that runs. -/
structure Copies (s : State) (x : Job) : Prop where
  writes : Writes s x
  mclk : s.clockLost .mclk = false
  flips : s.mem.flips = []
  check : s.mem.chkFlips = []
  src : ∀ a, xfSrc x ≤ a → a < xfSrc x + xfLen x → s.reaches x.inst a ∧ (a - dramBase) / 128 ∉ s.mem.poison
    ∧ s.taggedAt (a - dramBase) = false ∧ ¬ s.hwByte a
  start : xfSrc x % 64 = 0
  apart : xfSrc x + xfLen x ≤ xfDst x ∨ xfDst x + xfLen x ≤ xfSrc x

theorem State.tagRegion_none {k : Nat} (untagged : s.taggedAt k = false) : s.tagRegion (k / 128) = none := by
  have same : s.regionOf (128 * (k / 128)) = s.regionOf k := by
    unfold State.regionOf
    rw [show 128 * (k / 128) / 2 ^ 21 = k / 2 ^ 21 by omega]
  unfold State.taggedAt at untagged
  unfold State.tagRegion
  rw [same]
  split at untagged
  · next none => rw [none]
  · next n found =>
    rw [found]
    dsimp only
    rw [untagged, if_neg (by decide)]

theorem Copies.clean (c : Copies s x) {a : Nat} (lo : xfSrc x ≤ a) (hi : a < xfSrc x + xfLen x) : s.lineClean ((a - dramBase) / 128) := by
  obtain ⟨-, good, untagged, -⟩ := c.src a lo hi
  exact ⟨c.mclk, good, c.flips, c.check, State.tagRegion_none untagged⟩

/-- The value of a copied byte. -/
def State.copyValue (s : State) (x : Job) (k : Nat) : Byte := s.byte (xfSrc x + (k - xfDst x))

/-- A copied byte is read from the source as it was before the job. -/
theorem Filled.source {a k : Nat} (h : Filled (s.copyValue x) lo a s u) (c : Copies s x) (le : xfDst x ≤ lo) (le' : a ≤ xfDst x + xfLen x)
    (src : xfSrc x ≤ k) (src' : k < xfSrc x + xfLen x) : u.byte k = s.byte k := by
  obtain ⟨-, -, -, own⟩ := c.src k src src'
  have := c.apart
  rw [h.bytes k own, if_neg (by omega)]

/-- A half line of the source is read. -/
theorem Filled.readHalf {a : Nat} (h : Filled (s.copyValue x) lo a s u) (c : Copies s x) (le : xfDst x ≤ lo) (le' : a ≤ xfDst x + xfLen x)
    (off : Nat) (half : off % 64 = 0) (inside : off < xfLen x) :
    ∃ t, instRead u x.inst (xfSrc x + off) 64 = (.ok (s.bytes (xfSrc x + off) 64), t) ∧ Filled (s.copyValue x) lo a s t := by
  have whole := c.writes.whole
  have start := c.start
  have clean := (c.clean (a := xfSrc x + off) (by omega) (by omega)).of_beside s h.beside h.cleaner
  obtain ⟨t, read, filled⟩ := instRead_clean u (xfSrc x + off) x.inst 64 (s.copyValue x) a (h.bare c.writes.bare)
    (h.reaches (c.src _ (by omega) (by omega)).1) clean (by decide) (by omega)
  rw [State.bytes_congr (s := s) (xfSrc x + off) 64 fun k lo hi => h.source c le le' (by omega) (by omega)] at read
  refine ⟨t, read, ?_⟩
  by_cases some : lo ≤ a
  · exact h.append filled some (Nat.le_refl _)
  · refine ⟨h.leaves.trans filled.leaves, fun k hk => ?_, h.cleaner.trans filled.cleaner⟩
    rw [filled.bytes k fun hw => hk (((SameRegions.of_leaves h.leaves).hwByte k).1 hw), if_neg (by omega), h.bytes k hk]

theorem State.copyLine_fills {off : Nat} (c : Copies s x) (ho : off < xfLen x) (line : off % 128 = 0) (le : xfDst x ≤ lo)
    (le' : lo ≤ xfDst x + off) (h : Filled (s.copyValue x) lo (xfDst x + off) s u) :
    Filled (s.copyValue x) lo (xfDst x + off + 128) s (u.copyLine x.id x.inst (xfSrc x) (xfDst x) (xfDst x + off, 128)) := by
  have whole := c.writes.whole
  obtain ⟨t, first, ht⟩ := h.readHalf c le (by omega) off (by omega) ho
  obtain ⟨v, second, hv⟩ := ht.readHalf c le (by omega) (off + 64) (by omega) (by omega)
  have bytes : s.bytes (xfSrc x + off) 64 ++ s.bytes (xfSrc x + (off + 64)) 64 = s.bytes (xfSrc x + off) 128 := by
    rw [show xfSrc x + (off + 64) = xfSrc x + off + 64 by omega, State.bytes_append]
  have reads : u.copyLine x.id x.inst (xfSrc x) (xfDst x) (xfDst x + off, 128)
      = v.xferPut x.id x.inst off (xfDst x + off) (s.bytes (xfSrc x + off) 128) := by
    unfold State.copyLine
    dsimp only
    rw [Nat.add_sub_cancel_left, show (List.range (128 / 64)).map (fun k => 64 * k) = [0, 64] from rfl, List.foldl_cons, List.foldl_cons,
      List.foldl_nil]
    dsimp only
    rw [Nat.add_zero, first]
    dsimp only
    rw [show xfSrc x + off + 64 = xfSrc x + (off + 64) by omega, second]
    dsimp only
    rw [List.nil_append, bytes]
  rw [reads]
  refine hv.xferPut x.id off _ c.writes.bare (c.writes.dst _ (by omega) (by omega)) (by have := c.writes.start; omega)
    (s.bytes_length _ _) (by omega) fun k lo hi => ?_
  rw [s.bytes_getD _ _ _ (by omega), State.copyValue]
  exact congrArg _ (by omega)

theorem State.copyUnit_fills (c : Copies s x) (ho : o < xfLen x) (line : o % 128 = 0) (le : xfDst x ≤ lo) (le' : lo ≤ xfDst x + o)
    (h : Filled (s.copyValue x) lo (xfDst x + o) s u) :
    Filled (s.copyValue x) lo (xfDst x + o + min 4096 (xfLen x - o)) s (u.copyUnit x o) := by
  have whole := c.writes.whole
  obtain ⟨m, hm⟩ : ∃ m, min 4096 (xfLen x - o) = 128 * m := ⟨min 4096 (xfLen x - o) / 128, by omega⟩
  have read : u.xlateOk x.inst (xfSrc x + o) (min 4096 (xfLen x - o)) false = (true, u) :=
    u.xlateOk_bare _ _ _ _ (h.bare c.writes.bare) (h.reaches (c.src _ (by omega) (by omega)).1) (h.reaches (c.src _ (by omega) (by omega)).1)
  have write : u.xlateOk x.inst (xfDst x + o) (min 4096 (xfLen x - o)) true = (true, u) :=
    u.xlateOk_bare _ _ _ _ (h.bare c.writes.bare) (h.reaches (c.writes.dst _ (by omega) (by omega)))
      (h.reaches (c.writes.dst _ (by omega) (by omega)))
  unfold State.copyUnit
  dsimp only
  rw [read]
  dsimp only
  rw [write]
  dsimp only
  rw [hm, chunksOf_lines _ _ (by have := c.writes.start; omega), State.each, List.foldl_map]
  refine State.each_range (P := fun k t => Filled (s.copyValue x) lo (xfDst x + o + 128 * k) s t)
    (fun t k => t.copyLine x.id x.inst (xfSrc x) (xfDst x) (xfDst x + o + 128 * k, 128)) m h fun k hk t ht => ?_
  rw [Nat.add_assoc] at ht
  have := State.copyLine_fills c (by omega) (by omega) le (by omega) ht
  rwa [show xfDst x + (o + 128 * k) + 128 = xfDst x + o + 128 * (k + 1) by omega, ← Nat.add_assoc] at this

/-! ## Pieces -/

/-- A piece takes its units in order. -/
theorem State.each_units_fill {val : Nat → Byte} {g : State → Nat → State} {p : Nat} (hp : xferPiece * p < xfLen x)
    (unit : ∀ o t, o < xfLen x → o % 128 = 0 → xferPiece * p ≤ o → Filled val (xfDst x + xferPiece * p) (xfDst x + o) s t →
      Filled val (xfDst x + xferPiece * p) (xfDst x + o + min 4096 (xfLen x - o)) s (g t o)) :
    Filled val (xfDst x + xferPiece * p) (xfDst x + min (xfLen x) (xferPiece * (p + 1))) s
      (s.each (unitsOf (xferPiece * p) (min (xfLen x) (xferPiece * (p + 1)))) g) := by
  have size : xferPiece = 65536 := rfl
  rw [size] at hp unit ⊢
  have := State.each_range (s := s)
    (P := fun k t => Filled val (xfDst x + 65536 * p) (xfDst x + min (65536 * p + 4096 * k) (min (xfLen x) (65536 * (p + 1)))) s t)
    (fun t k => g t (65536 * p + 4096 * k)) (cdiv (min (xfLen x) (65536 * (p + 1)) - 65536 * p) 4096)
    (by rw [show min (65536 * p + 4096 * 0) (min (xfLen x) (65536 * (p + 1))) = 65536 * p by omega]; exact .refl _ _ s)
    fun k hk t ht => by
      rw [cdiv] at hk
      rw [show min (65536 * p + 4096 * k) (min (xfLen x) (65536 * (p + 1))) = 65536 * p + 4096 * k by omega] at ht
      have next := unit (65536 * p + 4096 * k) t (by omega) (by omega) (by omega) ht
      rwa [show xfDst x + (65536 * p + 4096 * k) + min 4096 (xfLen x - (65536 * p + 4096 * k))
        = xfDst x + min (65536 * p + 4096 * (k + 1)) (min (xfLen x) (65536 * (p + 1))) by omega] at next
  rw [show min (65536 * p + 4096 * cdiv (min (xfLen x) (65536 * (p + 1)) - 65536 * p) 4096) (min (xfLen x) (65536 * (p + 1)))
    = min (xfLen x) (65536 * (p + 1)) by rw [cdiv]; omega] at this
  rw [unitsOf, State.each, List.foldl_map]
  exact this

/-- What the end of a piece leaves of its job. -/
structure PieceEnded (s t : State) (x : Job) (p : Nat) : Prop where
  job : ∃ y, t.job x.id = some y ∧ p ∈ y.doneParts
    ∧ (cdiv (xfLen x) xferPiece ≤ (insNat x.doneParts p).length → y.phase = .ended ∧ y.status = x.xferStatus.1)
    ∧ ((insNat x.doneParts p).length < cdiv (xfLen x) xferPiece → y.phase = .running)
  others : ∀ k, k ≠ x.id → SameJob k s t
  leaves : Leaves [.jobs, .moves] noReg s t

theorem State.pieceEnd_ends (p : Nat) (hx : s.job x.id = some x) (running : x.phase = .running) :
    PieceEnded s ((s.modJob x.id fun y => { y with ladles := y.ladles - 1 }).pieceEnd x.id p (cdiv (xfLen x) xferPiece)).dealLadles x p := by
  have freed : JobTo x.id { x with ladles := x.ladles - 1 } s (s.modJob x.id fun y => { y with ladles := y.ladles - 1 }) :=
    .of_modJob _ (fun _ => rfl) hx
  have left : Leaves [.jobs, .moves] noReg s (s.modJob x.id fun y => { y with ladles := y.ladles - 1 }) := .modJob (.refl _ _ s)
  revert freed left
  generalize (s.modJob x.id fun y => { y with ladles := y.ladles - 1 }) = u
  intro freed left
  have done : JobTo x.id { x with ladles := x.ladles - 1, doneParts := insNat x.doneParts p } u
      (u.modJob x.id fun y => { y with doneParts := insNat y.doneParts p }) :=
    .of_modJob (fun y => { y with doneParts := insNat y.doneParts p }) (fun _ => rfl) freed.1
  have left2 : Leaves [.jobs, .moves] noReg u (u.modJob x.id fun y => { y with doneParts := insNat y.doneParts p }) := .modJob (.refl _ _ u)
  have ended : ∃ w y, (u.pieceEnd x.id p (cdiv (xfLen x) xferPiece)) = w ∧ JobTo x.id y s w ∧ p ∈ y.doneParts
      ∧ (cdiv (xfLen x) xferPiece ≤ (insNat x.doneParts p).length → y.phase = .ended ∧ y.status = x.xferStatus.1)
      ∧ ((insNat x.doneParts p).length < cdiv (xfLen x) xferPiece → y.phase = .running) ∧ Leaves [.jobs, .moves] noReg s w := by
    have mem : p ∈ insNat x.doneParts p := (mem_insNat _ _ _).2 (.inr rfl)
    unfold State.pieceEnd
    dsimp only
    rw [done.1]
    dsimp only
    by_cases all : cdiv (xfLen x) xferPiece ≤ (insNat x.doneParts p).length
    · rw [if_pos all]
      have ends := JobTo.of_endJob x.xferStatus.1 x.xferStatus.2 done.1 (by rw [running]; decide)
      exact ⟨_, _, rfl, ⟨ends.1, fun k hk => (ends.2 k hk).trans ((done.2 k hk).trans (freed.2 k hk))⟩, mem, fun _ => ⟨rfl, rfl⟩,
        fun h => by omega, .endJob (left.trans left2)⟩
    · rw [if_neg all]
      exact ⟨_, _, rfl, ⟨done.1, fun k hk => (done.2 k hk).trans (freed.2 k hk)⟩, mem, fun h => absurd h all, fun _ => running, left.trans left2⟩
  obtain ⟨w, y, e, same, mem, all, some, leaves⟩ := ended
  rw [e]
  obtain ⟨n, hn⟩ := (w.dealLadles_jobs x.id).some same.1
  refine ⟨⟨_, hn, mem, all, some⟩, fun k hk => ?_, leaves.trans (w.dealLadles_keeps.2.mono (by simp) fun _ _ e => e)⟩
  have kept : SameJob k s w := by rw [SameJob, same.2 k hk]
  exact kept.trans (w.dealLadles_jobs k)

/-- A piece that holds a ladle fills its part of the destination. -/
theorem State.xferGo_fills {val : Nat → Byte} {g : State → Nat → State} {p : Nat} (op : Nat) (hx : s.job x.id = some x)
    (running : x.phase = .running) (held : 0 < x.ladles) (hop : xfOp x = op) (plain : xfCrypt x = 0) (open_ : p ∉ x.doneParts)
    (hp : p < cdiv (xfLen x) xferPiece)
    (unit : ∀ o t, o < xfLen x → o % 128 = 0 → xferPiece * p ≤ o → Filled val (xfDst x + xferPiece * p) (xfDst x + o) s t →
      Filled val (xfDst x + xferPiece * p) (xfDst x + o + min 4096 (xfLen x - o)) s (g t o)) :
    ∃ u, Filled val (xfDst x + xferPiece * p) (xfDst x + min (xfLen x) (xferPiece * (p + 1))) s u ∧ PieceEnded u (s.xferGo x op p g) x p := by
  have size : xferPiece = 65536 := rfl
  have inside : xferPiece * p < xfLen x := by
    rw [cdiv] at hp
    rw [size] at hp ⊢
    omega
  have filled := State.each_units_fill inside unit
  refine ⟨_, filled, ?_⟩
  have go : s.xferGo x op p g = (((s.each (unitsOf (xferPiece * p) (min (xfLen x) (xferPiece * (p + 1)))) g).modJob x.id fun y =>
      { y with ladles := y.ladles - 1 }).pieceEnd x.id p (cdiv (xfLen x) xferPiece)).dealLadles := by
    unfold State.xferGo
    dsimp only
    have open' : x.doneParts.contains p = false := by simpa using open_
    have ladle : (x.ladles == 0) = false := by simpa using Nat.ne_of_gt held
    rw [hop, open', ladle, plain, decide_eq_false (Nat.not_le.2 hp), if_neg (by simp)]
  rw [go]
  exact State.pieceEnd_ends p ((State.job_of_jobs (filled.leaves.1 .jobs (by simp [lineParts])) _).trans hx) running

end

/-! ## The commands -/

section
variable (s : State) (j p : Nat) (x : Job)

/-- Ladles are dealt before a piece runs; the job runs on. -/
theorem State.dealLadles_runs (runs : s.runs j 9 x) : ∃ n, x.ladles ≤ n ∧ s.dealLadles.runs j 9 { x with ladles := n } := by
  obtain ⟨job, phase, opcode, sweep⟩ := runs
  obtain ⟨n, le, dealt⟩ := s.dealLadles_ladles j x job
  refine ⟨n, le, dealt, phase, opcode, ?_⟩
  rw [s.dealLadles_keeps.2.1 .sweeping (by simp)]
  exact sweep

theorem xferCopy_runs {y : Job} (runs : s.dealLadles.runs j 9 y) :
    exec (.xferCopy j p) s = .next (s.dealLadles.xferGo y 0 p fun t o => t.xferUnit y o) := by
  rw [exec_xferCopy, execXferCopy, xferPieceGo, State.runningJob_runs runs]

theorem xferFill_runs {y : Job} (runs : s.dealLadles.runs j 9 y) :
    exec (.xferFill j p) s = .next (s.dealLadles.xferGo y 1 p fun t o => t.fillUnit y o) := by
  rw [exec_xferFill, execXferFill, xferPieceGo, State.runningJob_runs runs]

/-- A piece that is not open, or without a ladle, does not run. -/
theorem xferCopy_idle (runs : s.dealLadles.runs j 9 x)
    (no : xfOp x ≠ 0 ∨ p ∈ x.doneParts ∨ cdiv (xfLen x) xferPiece ≤ p ∨ x.ladles = 0) : exec (.xferCopy j p) s = .next s.dealLadles := by
  rw [xferCopy_runs s j p runs, State.xferGo, if_pos]
  rcases no with h | h | h | h <;> simp [h]

/-- The parts that a piece of an XFER job may change. -/
abbrev xferParts : List Part := .jobs :: .moves :: accessParts

theorem lineParts_subset_xferParts : lineParts ⊆ xferParts := by simp [lineParts, xferParts, accessParts]

/-- What a piece that fills its part of a destination leaves. -/
theorem PieceEnded.from_dealt {val : Nat → Byte} {lo hi n : Nat} {u t : State} (jx : x.id = j)
    (filled : Filled val lo hi s.dealLadles u) (ended : PieceEnded u t { x with ladles := n } p) :
    (∃ y, t.job j = some y ∧ p ∈ y.doneParts
      ∧ (cdiv (xfLen x) xferPiece ≤ (insNat x.doneParts p).length → y.phase = .ended ∧ y.status = x.xferStatus.1)
      ∧ ((insNat x.doneParts p).length < cdiv (xfLen x) xferPiece → y.phase = .running))
    ∧ (∀ a, ¬ s.hwByte a → t.byte a = if lo ≤ a ∧ a < hi then val a else s.byte a)
    ∧ (∀ k, k ≠ j → SameJob k s t) ∧ Leaves xferParts accessRegs s t := by
  obtain ⟨⟨y, hy⟩, others, left⟩ := ended
  have dealt := s.dealLadles_keeps.2
  subst jx
  refine ⟨⟨y, hy⟩, fun a ha => ?_, fun k hk => ?_, ?_⟩
  · rw [State.byte_of_cells (left.1 .cells (by simp)), filled.bytes a fun hw => ha (((SameRegions.of_leaves dealt).hwByte a).1 hw),
      State.byte_of_cells (dealt.1 .cells (by simp))]
  · exact ((s.dealLadles_jobs k).trans (.of_jobs (filled.leaves.1 .jobs (by simp [lineParts])))).trans (others k hk)
  · have first : Leaves xferParts accessRegs s s.dealLadles := dealt.mono (by simp) fun _ _ no => no.elim
    have second : Leaves xferParts accessRegs s.dealLadles u :=
      filled.leaves.mono lineParts_subset_xferParts fun r i e => .inr (.inr (.inr (.inl e)))
    exact (first.trans second).into left (by simp) fun _ _ no => no.elim

/-- What the commands of a job and of its state say of the state in which ladles have been dealt. -/
theorem Writes.dealt (w : Writes s x) (n : Nat) : Writes s.dealLadles { x with ladles := n } := by
  have beside : Beside s s.dealLadles := s.dealLadles_keeps.2.reg_beside
  exact ⟨beside.bare w.bare, fun a lo hi => beside.reaches (w.dst a lo hi), w.start, w.whole⟩

theorem Beside.taggedAt {t : State} (h : Beside s t) (a : Nat) : t.taggedAt a = s.taggedAt a := by
  have tag := fun n => h.fb MEM_RGN1.TAG n
  unfold State.taggedAt
  simp only [h.regions.regionOf, tag]

theorem Copies.dealt (c : Copies s x) (n : Nat) : Copies s.dealLadles { x with ladles := n } := by
  have dealt := s.dealLadles_keeps.2
  have beside : Beside s s.dealLadles := dealt.reg_beside
  refine ⟨c.writes.dealt s x n, (beside.clockLost _).trans c.mclk, (dealt.1 .flips (by simp)).trans c.flips,
    (dealt.1 .chkFlips (by simp)).trans c.check, fun a lo hi => ?_, c.start, c.apart⟩
  obtain ⟨reach, good, untagged, own⟩ := c.src a lo hi
  have poison : s.dealLadles.mem.poison = s.mem.poison := dealt.1 .poison (by simp)
  exact ⟨beside.reaches reach, by rw [poison]; exact good, (beside.taggedAt s _).trans untagged,
    fun hw => own ((beside.regions.hwByte a).1 hw)⟩

theorem xferFill_fills (runs : s.runs j 9 x) (held : 0 < x.ladles) (hop : xfOp x = 1) (plain : xfCrypt x = 0) (open_ : p ∉ x.doneParts)
    (hp : p < cdiv (xfLen x) xferPiece) (w : Writes s x) :
    ∃ t y, exec (.xferFill j p) s = .next t ∧ t.job j = some y ∧ p ∈ y.doneParts
      ∧ (cdiv (xfLen x) xferPiece ≤ (insNat x.doneParts p).length → y.phase = .ended ∧ y.status = x.xferStatus.1)
      ∧ ((insNat x.doneParts p).length < cdiv (xfLen x) xferPiece → y.phase = .running)
      ∧ (∀ a, ¬ s.hwByte a → t.byte a
          = if xfDst x + xferPiece * p ≤ a ∧ a < xfDst x + min (xfLen x) (xferPiece * (p + 1)) then fillValue x a else s.byte a)
      ∧ (∀ k, k ≠ j → SameJob k s t) ∧ Leaves xferParts accessRegs s t := by
  have jx : x.id = j := State.id_of_job runs.1
  obtain ⟨n, le, dealt⟩ := s.dealLadles_runs j x runs
  have here : s.dealLadles.job x.id = some { x with ladles := n } := (congrArg _ jx).trans dealt.1
  have writes := w.dealt s x n
  obtain ⟨u, filled, ended⟩ := State.xferGo_fills (s := s.dealLadles) (x := { x with ladles := n }) (p := p)
    (g := fun t o => t.fillUnit { x with ladles := n } o) 1 here dealt.2.1 (Nat.lt_of_lt_of_le held le) hop plain
    open_ hp fun o t ho line lo h => State.fillUnit_fills writes ho line (Nat.add_le_add_left lo _) h
  obtain ⟨⟨y, job, mem, all, some⟩, bytes, others, leaves⟩ := ended.from_dealt s j p x jx filled
  exact ⟨_, y, xferFill_runs s j p dealt, job, mem, all, some, bytes, others, leaves⟩

theorem xferCopy_copies (runs : s.runs j 9 x) (held : 0 < x.ladles) (hop : xfOp x = 0) (plain : xfCrypt x = 0) (going : x.stop = false)
    (open_ : p ∉ x.doneParts) (hp : p < cdiv (xfLen x) xferPiece) (c : Copies s x) :
    ∃ t y, exec (.xferCopy j p) s = .next t ∧ t.job j = some y ∧ p ∈ y.doneParts
      ∧ (cdiv (xfLen x) xferPiece ≤ (insNat x.doneParts p).length → y.phase = .ended ∧ y.status = x.xferStatus.1)
      ∧ (∀ a, ¬ s.hwByte a → t.byte a
          = if xfDst x + xferPiece * p ≤ a ∧ a < xfDst x + min (xfLen x) (xferPiece * (p + 1)) then s.copyValue x a else s.byte a)
      ∧ (∀ k, k ≠ j → SameJob k s t) ∧ Leaves xferParts accessRegs s t := by
  have jx : x.id = j := State.id_of_job runs.1
  obtain ⟨n, le, dealt⟩ := s.dealLadles_runs j x runs
  have here : s.dealLadles.job x.id = some { x with ladles := n } := (congrArg _ jx).trans dealt.1
  have copies := c.dealt s x n
  have unit : ∀ o t, o < xfLen x → o % 128 = 0 → xferPiece * p ≤ o →
      Filled (s.dealLadles.copyValue { x with ladles := n }) (xfDst x + xferPiece * p) (xfDst x + o) s.dealLadles t →
      Filled (s.dealLadles.copyValue { x with ladles := n }) (xfDst x + xferPiece * p) (xfDst x + o + min 4096 (xfLen x - o)) s.dealLadles
        (t.xferUnit { x with ladles := n } o) := fun o t ho line lo h => by
    have job : t.job x.id = some { x with ladles := n } := by
      rw [State.job_of_jobs (h.leaves.1 .jobs (by simp [lineParts])), here]
    have goes : ((t.job x.id).any fun y => y.stop || y.phase != .running) = false := by
      rw [job, Option.any_some, going, dealt.2.1]
      rfl
    unfold State.xferUnit
    rw [goes, if_neg (by decide), show xfCrypt { x with ladles := n } = 0 from plain, if_pos (by decide)]
    exact State.copyUnit_fills copies ho line (Nat.le_add_right _ _) (Nat.add_le_add_left lo _) h
  obtain ⟨u, filled, ended⟩ := State.xferGo_fills (s := s.dealLadles) (x := { x with ladles := n }) (p := p)
    (g := fun t o => t.xferUnit { x with ladles := n } o) 0 here dealt.2.1 (Nat.lt_of_lt_of_le held le) hop plain
    open_ hp unit
  obtain ⟨⟨y, job, mem, all, -⟩, bytes, others, leaves⟩ := ended.from_dealt s j p x jx filled
  refine ⟨_, y, xferCopy_runs s j p dealt, job, mem, all, fun a ha => ?_, others, leaves⟩
  rw [bytes a ha]
  exact congrArg (fun v => if xfDst x + xferPiece * p ≤ a ∧ a < xfDst x + min (xfLen x) (xferPiece * (p + 1)) then v else s.byte a)
    (State.byte_of_cells (s.dealLadles_keeps.2.1 .cells (by simp)) _)

end

/-- Settles O43: pieces of moves by `State.pieceOn_goes`, pieces of XFER jobs by `State.xferGo_fills`. -/
theorem ladlesAndXferJobsMoveBytes : Obligations.LadlesAndXferJobsMoveBytes := by
  unfold Obligations.LadlesAndXferJobsMoveBytes
  refine ⟨fun s k none => ⟨_, ladlePieceDone_none s none, s.dealLadles_only⟩, ?_, ?_, ?_, ?_, ?_, ?_⟩
  · intro s s1 k a c v bs first held pour fromMem plain form on mine read
    exact pieceIn_goes s s1 k a c v bs first held pour fromMem plain form on mine read
  · intro s s1 k a c v first held pour toMem plain form wrote
    exact pieceOut_goes s s1 k a c v first held pour toMem plain form wrote
  · intro s k c v first held retires
    exact retirePiece_goes s k c v first held retires
  · intro s j p x runs no
    exact ⟨_, xferCopy_idle s j p x runs no, s.dealLadles_only⟩
  · intro s j p x runs held hop plain open_ hp start whole bare fclk dst
    exact xferFill_fills s j p x runs held hop plain open_ hp ⟨⟨bare, fclk⟩, dst, start, whole⟩
  · intro s j p x runs held hop plain going open_ hp start src whole fclk mclk bare flips check dst reads apart
    refine xferCopy_copies s j p x runs held hop plain going open_ hp ⟨⟨⟨bare, fclk⟩, dst, start, whole⟩, mclk, flips, check,
      fun a lo hi => ?_, src, apart⟩
    obtain ⟨place, ok, good, untagged, own⟩ := reads a lo hi
    exact ⟨⟨place, ok⟩, good, untagged, own⟩

end Sys2Proof.Machine
end

section
/-! PROOFS. What an access of a physical address leaves: the DTU's caches, its faults and its registers. -/

set_option Elab.async false

namespace Sys2Proof.Machine

/-- The parts and registers that an access of a physical address may change. -/
def physParts : List Part :=
  [.outbox, .freeCtr, .cells, .poison, .flips, .chkFlips, .cache, .holders, .useClock, .gates, .gateQ, .wsk, .nextTag, .record,
    .safePins, .keptIrqs]
def physRegs (r : Reg) (_ : Nat) : Prop := r = .memCways ∨ r = .memChstat ∨ r = .sysSafestat ∨ r = .wskStat

/-- From `s` to `t` at most what an access of a physical address may change has changed. -/
abbrev Phys (s t : State) : Prop := Leaves physParts physRegs s t

section
variable (s : State) (part l : Nat)

theorem Phys.of {ps : List Part} {q : Reg → Nat → Prop} {s t : State} (h : Leaves ps q s t) (hp : ps ⊆ physParts := by simp [physParts])
    (hq : ∀ r i, q r i → physRegs r i := by exact fun _ _ no => no.elim) : Phys s t := h.mono hp hq

theorem Phys.mgrIrq (n k : Nat) : Phys s (s.mgrIrq n k) := Leaves.mgrIrq (.refl _ _ s) (by simp [physParts]) (by simp [physParts])

theorem Phys.countCorrected (ch sub : Nat) : Phys s (s.countCorrected ch sub) := by
  have counted : Phys s (s.incWrap MEM_CHSTAT.CORRECTED ch 1) := .incWrap (.refl _ _ s) (.inr (.inl rfl))
  exact Leaves.modRec (counted.fresh (by simp [physParts])) (by simp [physParts])

theorem Phys.countUncorr (ch sub : Nat) : Phys s (s.countUncorr ch sub) := by
  have counted : Phys s (s.incSat MEM_CHSTAT.UNCORR ch 1) := .incSat (.refl _ _ s) (.inr (.inl rfl))
  exact Leaves.safety (Leaves.modRec counted (by simp [physParts])) rfl (by decide) (.inr (.inr (.inl rfl)))

theorem Phys.eccRead : Phys s (s.eccRead l).2 := by
  unfold State.eccRead
  split
  · exact .refl _ _ s
  · dsimp only
    split
    · exact Phys.countUncorr s _ _
    · have mended : ∀ t : State, Phys t (t.mended l) := fun t => Phys.of (ps := [.flips, .chkFlips]) (q := noReg) (.parts (.refl _ _ t))
      exact Leaves.trans (List.foldlRecOn (motive := fun t => Phys s t) _ _ (.refl _ _ s) fun t ht f _ => ht.trans (Phys.countCorrected t _ _))
        (mended _)

theorem Phys.poisonLine : Phys s (s.poisonLine l) := Phys.of (ps := [.poison]) (q := noReg) (.one .poison (.refl _ _ s) (by simp))

theorem Phys.store (a : Nat) (bs : List Byte) : Phys s (s.store a bs) := Phys.of (ps := [.cells]) (q := noReg) (.one .cells (.refl _ _ s) (by simp))

theorem Phys.dramLine : Phys s (s.dramLine l).2 := by
  have read := Phys.eccRead s l
  unfold State.dramLine
  split <;> rename_i e <;> rw [e] at read
  · dsimp only
    split
    · exact read
    · exact read.trans (Phys.store _ _ _)
  · rename_i s1
    split
    · exact read.trans (Phys.poisonLine s1 l)
    · rename_i c _
      have copy : Phys s1 (if s1.mem.poison.contains c then (none, s1) else s1.eccRead c).2 := by
        split
        · exact .refl _ _ s1
        · exact Phys.eccRead s1 c
      split <;> rename_i e2 <;> rw [e2] at copy
      · exact (read.trans copy).trans (Phys.poisonLine _ l)
      · exact (Leaves.trans (Leaves.modRec (read.trans copy) (by simp [physParts])) (Phys.store _ _ _)).trans (Phys.of (State.leaves_freshLine _ _))

theorem Phys.integrityFail : Phys s (s.integrityFail l part) := (Phys.poisonLine s l).trans (Phys.mgrIrq _ _ _)

theorem Phys.fetchLine : Phys s (s.fetchLine part l).2 := by
  have read := Phys.dramLine s l
  unfold State.fetchLine
  split
  · exact .refl _ _ s
  · split <;> rename_i e <;> rw [e] at read
    · exact read
    · split
      · exact read
      · exact read.trans (Phys.integrityFail _ part l)

theorem Phys.touch (dirty : Bool) : Phys s (s.touch part l dirty) :=
  Phys.of (Homed.touch s part l dirty).leaves (by simp [slotParts, physParts]) fun _ _ e => .inl e

theorem Phys.dramGet (pa n : Nat) : Phys s (s.dramGet part pa n l).2 := by
  have read := Phys.fetchLine s part l
  unfold State.dramGet
  split
  · exact Phys.touch s part l _
  · split
    · exact .refl _ _ s
    · split <;> rename_i e <;> rw [e] at read
      · exact read.trans (Phys.touch _ part l _)
      · exact read

theorem Phys.dramPut (pa : Nat) (bs : List Byte) : Phys s (s.dramPut part pa bs l).2 := by
  have put : ∀ t : State, Phys t (((t.dropHolders l).store pa bs).touch part l true) := fun t =>
    ((Phys.of (ps := [.holders]) (q := noReg) (.one .holders (.refl _ _ t) (by simp))).trans (Phys.store _ _ _)).trans (Phys.touch _ part l _)
  have read := Phys.fetchLine s part l
  unfold State.dramPut
  dsimp only
  split
  · exact put s
  · split
    · exact .refl _ _ s
    · split <;> rename_i e <;> rw [e] at read
      · exact read.trans (put _)
      · exact read.trans (Phys.integrityFail _ part l)
      · exact read

theorem Phys.gateReq (n : Nat) : Phys s (s.gateReq part n) := by
  obtain ⟨x, y, way⟩ := s.gateReq_way part n
  rw [way]
  exact Phys.of (s.leaves_onTheWay_gates x y _ rfl)

theorem Phys.shareLine : Phys s (s.shareLine l) := by
  unfold State.shareLine
  split
  · exact Phys.of (ps := [.holders]) (q := noReg) (.one .holders (.refl _ _ s) (by simp))
  · exact .refl _ _ s

theorem Phys.farSend (n pa k tag : Nat) (d : Option (List Byte)) (np : Bool) (who : Option Nat) :
    Phys s (s.farSend n pa d k np tag who) := by
  have cell : ∀ (dest vc : Nat) (b : CellBody), Phys s (s.wskOriginate dest vc b) := fun dest vc b => by
    unfold State.wskOriginate State.wskLocal
    split
    · exact .modWsk (.refl _ _ s) (by simp [physParts])
    · exact .incSat (.refl _ _ s) (.inr (.inr (.inr rfl)))
  unfold State.farSend
  dsimp only
  split <;> split
  · exact cell _ _ _
  · exact cell _ _ _
  · exact .emit (.emit (.refl _ _ s) (by simp [physParts])) (by simp [physParts])
  · exact .emit (.refl _ _ s) (by simp [physParts])

theorem Phys.lineRead (pa n : Nat) (who : Option Nat) : Phys s (lineRead s part pa n who).2 := by
  unfold Machine.lineRead
  split
  · split
    · exact .refl _ _ s
    · split
      · exact .refl _ _ s
      · exact ((Phys.gateReq s part _).trans (Phys.shareLine _ _)).trans (Phys.dramGet _ part _ _ _)
  · split
    · next w _ =>
      split
      · exact .refl _ _ s
      · split
        · exact .refl _ _ s
        · have sent := Leaves.freshBytes (n := n) ((Phys.gateReq s part n).trans (Phys.farSend _ w pa n s.net.nextTag none true who)) (by simp [physParts])
          exact sent.one .nextTag (by simp [physParts])
    · exact .refl _ _ s
  · exact .refl _ _ s

theorem Phys.lineWrite (pa : Nat) (bs : List Byte) (who : Option Nat) : Phys s (lineWrite s part pa bs who).2 := by
  unfold Machine.lineWrite
  split
  · split
    · exact .refl _ _ s
    · split
      · exact .refl _ _ s
      · exact (Phys.gateReq s part _).trans (Phys.dramPut _ part _ _ _)
  · split
    · split
      · exact .refl _ _ s
      · split
        · exact .refl _ _ s
        · exact (Phys.gateReq s part _).trans (Phys.farSend _ _ _ _ _ _ _ _)
    · exact .refl _ _ s
  · exact .refl _ _ s

theorem Phys.physReadL (cs : List (Nat × Nat)) : Phys s (physReadL part cs s).2 := by
  induction cs generalizing s with
  | nil => exact .refl _ _ s
  | cons c cs ih =>
    unfold Machine.physReadL
    have first := Phys.lineRead s part c.1 c.2 none
    split
    · rename_i bs s1 e
      rw [e] at first
      have rest := ih s1
      split
      · rename_i e2
        rw [e2] at rest
        exact first.trans rest
      · exact first.trans rest
    · exact first

theorem Phys.physRead (a n : Nat) : Phys s (physRead s part a n).2 := Phys.physReadL s part _

theorem Phys.physWriteL (cs : List (Nat × Nat)) (bs : List Byte) : Phys s (physWriteL part cs bs s).2 := by
  induction cs generalizing bs s with
  | nil => exact .refl _ _ s
  | cons c cs ih =>
    unfold Machine.physWriteL
    have first := Phys.lineWrite s part c.1 (bs.take c.2) none
    split
    · rename_i e
      rw [e] at first
      exact first.trans (ih _ _)
    · exact first

theorem Phys.physWrite (a : Nat) (bs : List Byte) : Phys s (physWrite s part a bs).2 := Phys.physWriteL s part _ _

end

theorem Phys.accessed {s t : State} (h : Phys s t) : Accessed s t :=
  h.mono (by simp [physParts, accessParts]) fun r _ e => by
    rcases e with e | e | e | e <;> simp [accessRegs, e]

end Sys2Proof.Machine
end

section
/-! PROOFS. Walks, faults and the command queue of the DTU, and what O44 says (R211 to R214). -/

set_option Elab.async false

namespace Sys2Proof.Machine

/-! ## Walks -/

section
variable (s s1 : State) (i va pa : Nat) (w : Bool)

theorem pageWalk_done (hi : i < 256) (walk : s.xlate i va w = (some pa, s1)) :
    exec (.pageWalk i va w) s = .next (s1.emit (.done (.inst i))) := by
  rw [exec_pageWalk, execPageWalk, isInst, decide_eq_true hi, unit_true, walk]

theorem pageWalk_fault (hi : i < 256) (walk : s.xlate i va w = (none, s1)) :
    exec (.pageWalk i va w) s = .next (s1.emit (.xlateFault (.inst i))) := by
  rw [exec_pageWalk, execPageWalk, isInst, decide_eq_true hi, unit_true, walk]

theorem accessed_of_xlate {r : Option Nat} (walk : s.xlate i va w = (r, s1)) : Accessed s s1 := by
  have := accessed_xlate s i va w
  rwa [walk] at this

/-- A fault is recorded before those that stand. -/
theorem State.dtuFault_faults (e : XFault) :
    (s.dtuFault i va w e).dtu.faults = { inst := i, va := va, write := w, cause := e.cause } :: s.dtu.faults := by
  have irq : ∀ (t : State) (n k : Nat), (t.mgrIrq n k).dtu.faults = t.dtu.faults := fun t n k =>
    (leaves_mgrIrq t n k).1 .dtuFaults (by simp)
  have wrote : ∀ (t : State) (a : Nat) (bs : List Byte), (physWrite t 8 a bs).2.dtu.faults = t.dtu.faults := fun t a bs =>
    (Phys.physWrite t 8 a bs).1 .dtuFaults (by simp [physParts])
  have set : ∀ (t : State) (g : Reg) (k v : Nat), (t.setR g k v).dtu.faults = t.dtu.faults := fun _ _ _ _ => rfl
  have first : ∀ l, ({ s with dtu.faults := l } : State).dtu.faults = l := fun _ => rfl
  unfold State.dtuFault
  dsimp only
  rw [irq]
  split
  · exact first _
  · split
    · rw [set]
    · generalize hr : physWrite _ _ _ _ = r
      have stored : r.2.dtu.faults = { inst := i, va := va, write := w, cause := e.cause } :: s.dtu.faults := by
        rw [← hr, wrote]
      obtain ⟨m, t⟩ := r
      split
      · next _ h => rw [set, ← stored, ← (Prod.mk.inj h).2]
      · next _ _ h => rw [set, ← stored, ← (Prod.mk.inj h).2]

/-- A DTU that is off, or whose output check fails in Bare mode, refuses. -/
theorem State.xlate_refused (no : bits (s.r .dtuIommu 2) 3 0 = 0 ∨ (bits (s.r .dtuIommu 2) 3 0 = 1 ∧ s.outOk (s.instFlask i) va = false)) :
    ∃ e : XFault, s.xlate i va w = (none, s.dtuFault i va w e)
      ∧ e.cause = if bits (s.r .dtuIommu 2) 3 0 = 0 then 256 else if w then 7 else 5 := by
  rcases no with off | ⟨bare, bad⟩
  · have raw : s.rawXlate i va w = (.error ({ cause := 256 }, true), s) := by
      unfold State.rawXlate
      dsimp only
      rw [off]
      rfl
    refine ⟨{ cause := 256 }, ?_, by rw [off, if_pos rfl]⟩
    rw [State.xlate, raw]
    dsimp only
    rw [if_pos rfl]
  · have raw : s.rawXlate i va w = (.ok va, s) := by
      unfold State.rawXlate
      dsimp only
      rw [bare]
      rfl
    refine ⟨{ cause := accessCause w }, ?_, by rw [bare, if_neg (by decide), accessCause]⟩
    rw [State.xlate, raw]
    dsimp only
    rw [bad, if_neg (by decide)]

end

/-! ## Commands -/

section
variable (s s1 : State) (bs : List Byte) (w0 w1 : Nat) (go : State → State)

theorem State.cqTake_off (off : s.cqRuns = false) : s.cqTake w0 w1 go = s := by
  rw [State.cqTake, off, if_pos (by decide)]

theorem State.cqTake_takes (on : s.cqRuns = true) (read : physRead s 8 s.cqAddr 16 = (.ok bs, s1)) (legal : cqLegal (leAt bs 0 8) = true)
    (h0 : leAt bs 0 8 = w0) (h1 : leAt bs 8 8 = w1) : s.cqTake w0 w1 go = (go s1).cqNext := by
  rw [State.cqTake, on, if_neg (by decide), read]
  dsimp only
  rw [legal, if_neg (by decide), h0, h1, if_pos (by simp)]

theorem State.cqTake_illegal (on : s.cqRuns = true) (read : physRead s 8 s.cqAddr 16 = (.ok bs, s1)) (bad : cqLegal (leAt bs 0 8) = false) :
    s.cqTake w0 w1 go = s1.setR .dtuIommu 9 (putBits (s1.r .dtuIommu 9) 10 10 1) := by
  rw [State.cqTake, on, if_neg (by decide), read]
  dsimp only
  rw [bad, if_pos (by decide)]

theorem phys_of_read (read : physRead s 8 s.cqAddr 16 = (.ok bs, s1)) : Phys s s1 := by
  have := Phys.physRead s 8 s.cqAddr 16
  rwa [read] at this

/-- The head of the queue advances by the registers that the command found. -/
theorem State.cqNext_head {u : State} (same : ∀ k, u.r .dtuIommu k = s.r .dtuIommu k) :
    u.cqNext.r .dtuIommu 4 = s.cqNext.r .dtuIommu 4 := by
  rw [State.cqNext, State.cqNext]
  rw [State.setR_r, State.setR_r, same, same]

theorem State.leaves_cqNext : Leaves [] accessRegs s s.cqNext := .setR (.refl _ _ s) (.inr (.inr (.inl rfl)))

/-- The caches of the DTU after an invalidation. -/
def State.withCaches (tlb : List Tlb) (ddtc : NMap DevCtx) : State := { s with dtu.tlb := tlb, dtu.ddtc := ddtc }

theorem State.leaves_withCaches (tlb : List Tlb) (ddtc : NMap DevCtx) : Leaves [.dtuTlb, .dtuContexts] noReg s (s.withCaches tlb ddtc) :=
  .parts (.refl _ _ s)

/-- The parts of a command of the DTU's queue. -/
abbrev cqParts : List Part := .dtuTlb :: .dtuContexts :: accessParts

/-- What an invalidation at the head of the queue does. -/
theorem State.cqNext_invalidates (tlb : List Tlb) (ddtc : NMap DevCtx) (reached : Phys s s1) :
    (s1.withCaches tlb ddtc).cqNext.dtu.tlb = tlb ∧ (s1.withCaches tlb ddtc).cqNext.dtu.ddtc = ddtc
      ∧ (s1.withCaches tlb ddtc).cqNext.r .dtuIommu 4 = s.cqNext.r .dtuIommu 4
      ∧ Leaves cqParts accessRegs s (s1.withCaches tlb ddtc).cqNext := by
  have forgot := s1.leaves_withCaches tlb ddtc
  have regs : ∀ k, (s1.withCaches tlb ddtc).r .dtuIommu k = s.r .dtuIommu k := fun k =>
    (forgot.2 _ _ id).trans (reached.2 _ _ (by simp [physRegs]))
  have caches : (s1.withCaches tlb ddtc).dtu.tlb = tlb ∧ (s1.withCaches tlb ddtc).dtu.ddtc = ddtc := ⟨rfl, rfl⟩
  revert forgot regs caches
  generalize s1.withCaches tlb ddtc = u
  intro forgot regs caches
  have next := u.leaves_cqNext
  refine ⟨(next.1 .dtuTlb (by simp)).trans caches.1, (next.1 .dtuContexts (by simp)).trans caches.2, s.cqNext_head regs, ?_⟩
  have first : Leaves cqParts accessRegs s s1 := reached.accessed.mono (fun _ h => List.mem_cons_of_mem _ (List.mem_cons_of_mem _ h)) fun _ _ e => e
  exact (first.into forgot (by simp) fun _ _ no => no.elim).into next (by simp) fun _ _ e => e

/-- cmd_ill is a bit of the field that stops the queue. -/
theorem errorField_of_cmdIll (w : Nat) (set : bits w 10 10 = 1) : bits w 10 8 ≠ 0 := by
  unfold bits at *
  omega

theorem selPage_iff (o : Option Nat) (page level : Nat) :
    selPage o page level = true ↔ ∀ a, o = some a → a / 4096 / 512 ^ level = page / 512 ^ level := by
  cases o with
  | none => simp [selPage, sel]
  | some a => simp [selPage, sel]

end

section
variable (s s1 : State) (bs : List Byte) (on : s.cqRuns = true) (read : physRead s 8 s.cqAddr 16 = (.ok bs, s1))
include on read

theorem iotinvalVma_forgets (g p va : Option Nat)
    (h0 : leAt bs 0 8 = 1 + cqField va 10 64 % 2 ^ 64 + cqField p 32 12 + cqField g 33 44)
    (h1 : leAt bs 8 8 = va.getD 0 / 4096 * 1024) (legal : cqLegal (leAt bs 0 8) = true) :
    ∃ t, exec (.iotinvalVma g p va) s = .next t
      ∧ (∀ e, e ∈ t.dtu.tlb ↔ e ∈ s.dtu.tlb ∧ ¬(sel g e.gscid = true ∧ sel p e.pscid = true
          ∧ (∀ a, va = some a → a / 4096 / 512 ^ e.slv = e.vpn / 512 ^ e.slv)))
      ∧ t.r .dtuIommu 4 = s.cqNext.r .dtuIommu 4 ∧ Leaves cqParts accessRegs s t := by
  have reached := phys_of_read s s1 bs read
  have tlb : s1.dtu.tlb = s.dtu.tlb := reached.1 .dtuTlb (by simp [physParts])
  obtain ⟨cache, -, head, leaves⟩ := s.cqNext_invalidates s1
    (s1.dtu.tlb.filter fun t => !(sel g t.gscid && sel p t.pscid && selPage va t.vpn t.slv)) s1.dtu.ddtc reached
  refine ⟨_, ?_, fun e => ?_, head, leaves⟩
  · rw [exec_iotinvalVma, execIotinvalVma, s.cqTake_takes s1 bs _ _ _ on read legal h0 h1]
    rfl
  · rw [cache, tlb, List.mem_filter, Bool.not_eq_true', Bool.eq_false_iff, ne_eq, Bool.and_eq_true, Bool.and_eq_true, selPage_iff, and_assoc]

theorem iotinvalGvma_forgets (g a : Option Nat)
    (h0 : leAt bs 0 8 = 1 + 128 + cqField a 10 64 % 2 ^ 64 + cqField g 33 44)
    (h1 : leAt bs 8 8 = a.getD 0 / 4096 * 1024) (legal : cqLegal (leAt bs 0 8) = true) :
    ∃ t, exec (.iotinvalGvma g a) s = .next t
      ∧ (∀ e, e ∈ t.dtu.tlb ↔ e ∈ s.dtu.tlb ∧ ¬(sel g e.gscid = true
          ∧ (∀ p, a = some p → p / 4096 / 512 ^ e.glv = e.gpn / 512 ^ e.glv)))
      ∧ t.r .dtuIommu 4 = s.cqNext.r .dtuIommu 4 ∧ Leaves cqParts accessRegs s t := by
  have reached := phys_of_read s s1 bs read
  have tlb : s1.dtu.tlb = s.dtu.tlb := reached.1 .dtuTlb (by simp [physParts])
  obtain ⟨cache, -, head, leaves⟩ := s.cqNext_invalidates s1
    (s1.dtu.tlb.filter fun t => !(sel g t.gscid && selPage a t.gpn t.glv)) s1.dtu.ddtc reached
  refine ⟨_, ?_, fun e => ?_, head, leaves⟩
  · rw [exec_iotinvalGvma, execIotinvalGvma, s.cqTake_takes s1 bs _ _ _ on read legal h0 h1]
    rfl
  · rw [cache, tlb, List.mem_filter, Bool.not_eq_true', Bool.eq_false_iff, ne_eq, Bool.and_eq_true, selPage_iff]

/-- The contexts of instances whose interfaces are not locked are forgotten, and nothing is compared. -/
theorem iodirInvalDdt_forgets (d : Option Nat) (h0 : leAt bs 0 8 = 3 + cqField d 33 40) (h1 : leAt bs 8 8 = 0)
    (legal : cqLegal (leAt bs 0 8) = true) (open_ : ∀ i, i < 256 → sel d i = true → s.tdiLocked i = false) :
    ∃ t, exec (.iodirInvalDdt d) s = .next t
      ∧ (∀ e, e ∈ t.dtu.tlb ↔ e ∈ s.dtu.tlb ∧ sel d e.inst = false)
      ∧ (∀ e, e ∈ t.dtu.ddtc ↔ e ∈ s.dtu.ddtc ∧ sel d e.1 = false)
      ∧ t.r .dtuIommu 4 = s.cqNext.r .dtuIommu 4 ∧ Leaves cqParts accessRegs s t := by
  have reached := phys_of_read s s1 bs read
  have tlb : s1.dtu.tlb = s.dtu.tlb := reached.1 .dtuTlb (by simp [physParts])
  have ddtc : s1.dtu.ddtc = s.dtu.ddtc := reached.1 .dtuContexts (by simp [physParts])
  obtain ⟨cache, dirs, head, leaves⟩ := s.cqNext_invalidates s1 (s1.dtu.tlb.filter fun t => !sel d t.inst)
    (s1.dtu.ddtc.filter fun e => !sel d e.1) reached
  have forgot := s1.leaves_withCaches (s1.dtu.tlb.filter fun t => !sel d t.inst) (s1.dtu.ddtc.filter fun e => !sel d e.1)
  refine ⟨_, ?_, fun e => ?_, fun e => ?_, head, leaves⟩
  · rw [exec_iodirInvalDdt, execIodirInvalDdt, s.cqTake_takes s1 bs _ _ _ on read legal h0 h1]
    refine congrArg (fun u : State => Host.Outcome.next u.cqNext) (State.each_keeps
      (P := fun u => u = s1.withCaches (s1.dtu.tlb.filter fun t => !sel d t.inst) (s1.dtu.ddtc.filter fun e => !sel d e.1))
      rfl fun u i hi same => ?_)
    obtain ⟨range, chosen⟩ := List.mem_filter.1 hi
    have unlocked : u.tdiLocked i = false := by
      rw [same, State.tdiLocked, forgot.f_same _ _ id, reached.f_same _ _ (by simp [physRegs, SYS_INST.TDI])]
      exact open_ i (List.mem_range.1 range) chosen
    rw [State.recheckTdi, unlocked, if_pos (by decide), same]
  · rw [cache, tlb, List.mem_filter, Bool.not_eq_true']
  · rw [dirs, ddtc, List.mem_filter, Bool.not_eq_true']

theorem iofenceC_passes (h0 : leAt bs 0 8 = 2) (h1 : leAt bs 8 8 = 0) (d : Nat) :
    ∃ t, exec (.iofenceC none d) s = .next t ∧ t.r .dtuIommu 4 = s.cqNext.r .dtuIommu 4 ∧ t.mem.cells = s1.mem.cells
      ∧ Leaves accessParts accessRegs s t := by
  have reached := phys_of_read s s1 bs read
  refine ⟨s1.cqNext, ?_, s.cqNext_head fun k => reached.2 _ _ (by simp [physRegs]), s1.leaves_cqNext.1 .cells (by simp),
    reached.accessed.into s1.leaves_cqNext (by simp) fun _ _ e => e⟩
  rw [exec_iofenceC, execIofenceC]
  exact congrArg _ (s.cqTake_takes s1 bs _ _ _ on read (by rw [h0]; decide) h0 h1)

theorem iofenceC_writes (s2 : State) (a d : Nat) (h0 : leAt bs 0 8 = 2 + 2 ^ 10 + d * 2 ^ 32) (h1 : leAt bs 8 8 = a / 4)
    (legal : cqLegal (leAt bs 0 8) = true) (wrote : physWrite s1 8 a (toLE 4 d) = (.ok [], s2)) :
    ∃ t, exec (.iofenceC (some a) d) s = .next t ∧ t.mem.cells = s2.mem.cells
      ∧ t.r .dtuIommu 4 = s.cqNext.r .dtuIommu 4 ∧ Leaves accessParts accessRegs s t := by
  have reached : Phys s s2 := by
    have second := Phys.physWrite s1 8 a (toLE 4 d)
    rw [wrote] at second
    exact (phys_of_read s s1 bs read).trans second
  refine ⟨s2.cqNext, ?_, s2.leaves_cqNext.1 .cells (by simp), s.cqNext_head fun k => reached.2 _ _ (by simp [physRegs]),
    reached.accessed.into s2.leaves_cqNext (by simp) fun _ _ e => e⟩
  rw [exec_iofenceC, execIofenceC]
  refine congrArg _ ((s.cqTake_takes s1 bs _ _ _ on read legal (h0.trans (Nat.add_assoc _ _ _)) h1).trans ?_)
  dsimp only
  rw [wrote]

theorem iofenceC_stops (bad : cqLegal (leAt bs 0 8) = false) (d : Nat) :
    ∃ t, exec (.iofenceC none d) s = .next t ∧ bit (t.r .dtuIommu 9) 10 = true ∧ t.r .dtuIommu 4 = s.r .dtuIommu 4
      ∧ t.cqRuns = false := by
  have reached := phys_of_read s s1 bs read
  have word : (s1.setR .dtuIommu 9 (putBits (s1.r .dtuIommu 9) 10 10 1)).r .dtuIommu 9 = putBits (s1.r .dtuIommu 9) 10 10 1 := by
    rw [State.setR_r, if_pos ⟨rfl, rfl⟩, Nat.mod_eq_of_lt (putBits_lt _ 10 10 _ (by decide) (by decide) (s1.r_lt _ _))]
  refine ⟨_, by rw [exec_iofenceC, execIofenceC, s.cqTake_illegal s1 bs _ _ _ on read bad], ?_, ?_, ?_⟩
  · rw [word]
    simp [bit, bits_putBits]
  · rw [State.setR_r, if_neg (by decide), reached.2 _ _ (by simp [physRegs])]
  · rw [State.cqRuns]
    rw [word, Bool.and_assoc]
    refine Bool.and_eq_false_iff.2 (.inr (Bool.and_eq_false_iff.2 (.inl ?_)))
    have set : bits (putBits (s1.r .dtuIommu 9) 10 10 1) 10 10 = 1 := bits_putBits _ 10 10 1 (by decide)
    exact beq_false_of_ne fun zero => errorField_of_cmdIll _ set zero

end

/-- Settles O44: walks by the translation, commands by `State.cqTake_takes` and `State.cqNext_invalidates`. -/
theorem walksAnswerAndInvalidationsForget : Obligations.WalksAnswerAndInvalidationsForget := by
  unfold Obligations.WalksAnswerAndInvalidationsForget
  refine ⟨?_, ?_, ?_, ?_, ?_⟩
  · intro s s1 i va pa w hi walk
    have left : Leaves [.outbox] noReg s1 (s1.emit (.done (.inst i))) := .emit (.refl _ _ s1)
    exact ⟨_, pageWalk_done s s1 i va pa w hi walk, rfl, left.1 .dtuTlb (by simp), left.1 .cells (by simp),
      (accessed_of_xlate s s1 i va w walk).into left (by simp [accessParts]) fun _ _ no => no.elim⟩
  · intro s i va w hi bare ok
    have raw : s.rawXlate i va w = (.ok va, s) := by
      unfold State.rawXlate
      dsimp only
      rw [bare]
      rfl
    have walk : s.xlate i va w = (some va, s) := by
      rw [State.xlate, raw]
      dsimp only
      rw [if_pos ok]
    exact ⟨_, pageWalk_done s s i va va w hi walk, rfl, .emit (.refl _ _ s)⟩
  · intro s i va w hi no
    obtain ⟨e, walk, cause⟩ := s.xlate_refused i va w no
    have left : Leaves [.outbox] noReg (s.dtuFault i va w e) ((s.dtuFault i va w e).emit (.xlateFault (.inst i))) := .emit (.refl _ _ _)
    refine ⟨_, pageWalk_fault s _ i va w hi walk, rfl, ?_,
      (accessed_of_xlate s _ i va w walk).into left (by simp [accessParts]) fun _ _ no => no.elim⟩
    rw [show _ = (s.dtuFault i va w e).dtu.faults from left.1 .dtuFaults (by simp), s.dtuFault_faults, cause]
  · intro s s1 bs on read
    exact ⟨fun g p va h0 h1 legal => iotinvalVma_forgets s s1 bs on read g p va h0 h1 legal,
      fun g a h0 h1 legal => iotinvalGvma_forgets s s1 bs on read g a h0 h1 legal,
      fun d h0 h1 legal free => iodirInvalDdt_forgets s s1 bs on read d h0 h1 legal free,
      fun h0 h1 d => iofenceC_passes s s1 bs on read h0 h1 d,
      fun s2 a d h0 h1 legal wrote => iofenceC_writes s s1 bs on read s2 a d h0 h1 legal wrote,
      fun bad d => iofenceC_stops s s1 bs on read bad d⟩
  · intro s g p va d a n off
    refine ⟨?_, ?_, ?_, ?_⟩
    · rw [exec_iotinvalVma, execIotinvalVma, s.cqTake_off _ _ _ off]
    · rw [exec_iotinvalGvma, execIotinvalGvma, s.cqTake_off _ _ _ off]
    · rw [exec_iodirInvalDdt, execIodirInvalDdt, s.cqTake_off _ _ _ off]
    · rw [exec_iofenceC, execIofenceC]
      exact congrArg _ (s.cqTake_off _ _ _ off)

end Sys2Proof.Machine
end

section
/-! PROOFS. The commands of SYS_INST (R215): the write of one command bit. -/

set_option Elab.async false

namespace Sys2Proof.Machine

/-- A work list brings about what each item brings about and every other item keeps. -/
theorem State.each_reaches {α : Type} {start done : State → Prop} {g : State → α → State} {x : α}
    (keep : ∀ t y, start t → start (g t y) ∨ done (g t y)) (stay : ∀ t y, done t → done (g t y)) (hit : ∀ t, start t → done (g t x))
    {xs : List α} {s : State} (here : x ∈ xs) (h : start s ∨ done s) : done (s.each xs g) := by
  induction xs generalizing s with
  | nil => cases here
  | cons y ys ih =>
    rcases List.mem_cons.1 here with same | later
    · rw [← same]
      exact State.each_keeps (P := done) (xs := ys) (h.elim (hit s) (stay s x)) fun t z _ => stay t z
    · exact ih later (h.elim (keep s y) fun d => .inr (stay s y d))

section
variable (s : State) (m : Master) (i : Nat) (v : Word) (k : Nat)

/-- SYS_INST after the write of one command bit, before the command. -/
abbrev State.instWrote : State := s.wrote i (withBit v k) .sysInst

theorem State.instWrote_state : (s.instWrote i v k).f SYS_INST.STATE i = s.f SYS_INST.STATE i := s.wrote_ro i _ SYS_INST.STATE (by simp [Reg.fieldsAt, Reg.fields, SYS_INST.STATE])

theorem State.instWrote_tdi : (s.instWrote i v k).f SYS_INST.TDI i = s.f SYS_INST.TDI i := s.wrote_ro i _ SYS_INST.TDI (by simp [Reg.fieldsAt, Reg.fields, SYS_INST.TDI])

theorem State.leaves_instWrote : Leaves [] (oneReg .sysInst i) s (s.instWrote i v k) := s.leaves_wrote _ _ _

variable {s m i v k}

theorem instCmds_one (hk : k ∈ [59, 58, 57, 56, 55, 54]) (few : (instCmds (withBit v k)).length ≤ 1) : instCmds (withBit v k) = [k] := by
  have mine : k ∈ instCmds (withBit v k) := List.mem_filter.2 ⟨hk, bit_withBit v k⟩
  match found : instCmds (withBit v k), mine, few with
  | [j], mine, _ => rw [List.mem_singleton.1 mine]

/-- A write that sets one command bit and is taken runs that command alone, where STATE permits it. -/
theorem sysInst_command (hk : k ∈ [59, 58, 57, 56, 55, 54]) (acc : s.accepts .sysInst i m .whole (withBit v k)) :
    s.regWrite .sysInst i m .whole (withBit v k) = (s.instWrote i v k).instCmd i k
      ∧ ∃ flask, s.instCmdBad i flask k = false := by
  have quiet : s.instBad (s.setR .sysInst i (s.newValue .sysInst i .whole (withBit v k))) i (withBit v k) = false := acc.2.2.2.2.2
  unfold State.instBad at quiet
  rw [Bool.or_eq_false_iff, Bool.or_eq_false_iff, decide_eq_false_iff_not] at quiet
  obtain ⟨⟨few, -⟩, good⟩ := quiet
  have one := instCmds_one hk (Nat.not_lt.1 few)
  rw [one, List.any_cons, List.any_nil, Bool.or_false] at good
  refine ⟨?_, _, good⟩
  rw [State.regWrite_whole s .sysInst i _ m acc (by decide) (by simp [State.hitsLock, Reg.fieldsAt, Reg.fields]) rfl]
  have cmd : ∀ (u : State) (o n : Nat), u.afterWrite .sysInst i m o n (withBit v k)
      = u.each (instCmds (withBit v k)) fun s k => s.instCmd i k := fun _ _ _ => rfl
  rw [cmd, one]
  rfl

/-- The STATE in which an instance takes a command (R215). -/
def instFrom (k : Nat) : Nat :=
  match k with
  | 59 => 0
  | 58 => 1
  | _ => 3

theorem State.instCmdBad_state {flask : Nat} (good : s.instCmdBad i flask k = false) : s.f SYS_INST.STATE i = instFrom k := by
  unfold instFrom
  unfold State.instCmdBad at good
  dsimp only at good
  split at good
  · simpa using (Bool.or_eq_false_iff.1 good).1
  · simpa using good
  · simpa using (Bool.or_eq_false_iff.1 good).1
  · next h59 h58 _ =>
    split
    · exact absurd rfl h59
    · exact absurd rfl h58
    · simpa using good

end

end Sys2Proof.Machine
end

section
/-! PROOFS. A quiesce (R216): the queues stop, and what has not started ends ABORTED. -/

set_option Elab.async false

namespace Sys2Proof.Machine

/-! ## The queues -/

section
variable (s : State) (i : Nat)

/-- A queue takes STATE 04h and leaves the sprue. -/
def State.quiesceQueue (s : State) (n : Nat) : State :=
  ((s.clearSprue n).modQ n fun q => { q with preQuiesce := s.f SPR_QSTAT.STATE n }).setF SPR_QSTAT.STATE n 4

theorem State.quiesceQueues_eq : s.quiesceQueues i = s.each (instQueues i) State.quiesceQueue := (rfl)

/-- A queue is quiesced. -/
def State.quiesced (s : State) (n : Nat) : Prop := s.f SPR_QSTAT.STATE n = 4 ∧ n ∉ s.work.sprue.pending ∧ n ∉ s.work.sprue.round
  ∧ n ∉ s.work.sprue.ready

theorem State.leaves_quiesceQueue (n : Nat) : Leaves [.sprue, .queues] (oneReg .sprQstat n) s (s.quiesceQueue n) :=
  .setF (.modQ (.clearSprue (.refl _ _ s))) ⟨rfl, rfl⟩

theorem State.quiesceQueue_sprue (n : Nat) : (s.quiesceQueue n).work.sprue = { s.work.sprue with
    pending := delNat s.work.sprue.pending n, round := delNat s.work.sprue.round n, ready := delNat s.work.sprue.ready n } := (rfl)

theorem State.quiesceQueue_quiesced (n : Nat) : (s.quiesceQueue n).quiesced n := by
  rw [State.quiesced, State.quiesceQueue_sprue]
  refine ⟨State.setF_f_width _ _ _ _ 8 (by decide) rfl, ?_, ?_, ?_⟩ <;> simp [mem_delNat]

theorem State.quiesceQueue_keeps {n k : Nat} (h : s.quiesced n) : (s.quiesceQueue k).quiesced n := by
  by_cases same : n = k
  · rw [same]
    exact s.quiesceQueue_quiesced k
  obtain ⟨state, pending, round, ready⟩ := h
  rw [State.quiesced, State.quiesceQueue_sprue, (s.leaves_quiesceQueue k).f_same SPR_QSTAT.STATE n fun e => same e.2]
  refine ⟨state, ?_, ?_, ?_⟩ <;> simp [mem_delNat, pending, round, ready]

theorem State.quiesceQueues_quiesced {n : Nat} (hn : n ∈ instQueues i) : (s.quiesceQueues i).quiesced n := by
  rw [State.quiesceQueues_eq]
  exact State.each_reaches (start := fun _ => True) (done := fun t => t.quiesced n) (fun _ _ _ => .inl trivial)
    (fun t k h => State.quiesceQueue_keeps t (k := k) h) (fun t _ => t.quiesceQueue_quiesced n) hn (.inl trivial)

theorem State.leaves_quiesceQueues : Leaves [.sprue, .queues] (fun r k => r = .sprQstat ∧ k ∈ instQueues i) s (s.quiesceQueues i) := by
  rw [State.quiesceQueues_eq]
  exact State.each_keeps (P := Leaves [.sprue, .queues] (fun r k => r = .sprQstat ∧ k ∈ instQueues i) s) (.refl _ _ s)
    fun t n hn h => h.into (t.leaves_quiesceQueue n) (by simp) fun r k e => ⟨e.1, e.2 ▸ hn⟩

end

/-! ## The jobs -/

/-- The parts of the state that hold work of a job that has not started. -/
abbrev quitParts : List Part := [.flasks, .arrays, .saved, .vecs] ++ accessParts

/-- The registers that dropping such work may change. -/
abbrev quitRegs (r : Reg) (k : Nat) : Prop := r = .arrProg ∨ accessRegs r k ∨ vecStat r k

section
variable (s : State)

theorem State.leaves_stopWork (x : Job) : Leaves quitParts quitRegs s (s.stopWork x) := by
  unfold State.stopWork
  dsimp only
  refine .ite (.refl _ _ s) (.dropItems (.over (.dropTiles (.refl _ _ s) (by simp [quitParts])) fun t a h =>
    h.dropNext (.inl rfl) (by simp [quitParts])) (by simp [quitParts, accessParts]) fun r k h => .inr h)

theorem State.stopWork_job (x : Job) (b : Nat) : ((s.stopWork x).arr b).job = (s.arr b).job := by
  unfold State.stopWork
  split
  · rfl
  · dsimp only
    have items : ∀ (u : State) (j : Nat), Leaves (.saved :: .vecs :: accessParts) (fun r k => accessRegs r k ∨ vecStat r k) u (u.dropItems j) :=
      fun u j => Leaves.dropItems (.refl _ _ u) (fun _ m => m) fun _ _ h => h
    rw [(items _ _).arr_same (by simp [accessParts])]
    exact State.each_keeps (P := fun t => (t.arr b).job = (s.arr b).job) rfl fun t a _ h => (t.job_dropNext a b).trans h

/-- No unit still runs or decides work of the job. -/
def State.offUnits (s : State) (j : Nat) : Prop := s.jobOnArray j = false ∧ s.jobInPair j = false

theorem State.stopWork_offUnits {x : Job} {j : Nat} (h : s.offUnits j) : (s.stopWork x).offUnits j := by
  obtain ⟨arrays, pairs⟩ := h
  constructor
  · rw [← arrays]
    unfold State.jobOnArray
    simp only [s.stopWork_job x]
  · rw [← pairs, State.jobInPair, State.jobInPair, (s.leaves_stopWork x).1 .pairs (by simp [quitParts, accessParts])]

/-- A quiesce of one job: what runs goes on to its end, and what has not started ends ABORTED. -/
def State.quiesceJob (s : State) (x : Job) : State :=
  let s' := s.stopWork x
  if s'.keepsRunning x then s'.modJob x.id fun y => { y with stop := true } else s'.endJob x.id stAborted none

theorem State.startQuiesce_eq (i : Nat) : s.startQuiesce i
    = ((((s.setF SYS_INST.STATE i 2).quiesceQueues i).each ((((s.setF SYS_INST.STATE i 2).quiesceQueues i).instJobs i).filter
        fun x => x.phase != .ended) State.quiesceJob).closeRuns i) := (rfl)

theorem State.leaves_quiesceJob (x : Job) : Leaves (.jobs :: quitParts) quitRegs s (s.quiesceJob x) := by
  have first : Leaves (.jobs :: quitParts) quitRegs s (s.stopWork x) := (s.leaves_stopWork x).mono (by simp) fun _ _ e => e
  unfold State.quiesceJob
  exact .ite first.modJob first.endJob

theorem State.quiesceJob_offUnits {x : Job} {j : Nat} (h : s.offUnits j) : (s.quiesceJob x).offUnits j := by
  have first := s.stopWork_offUnits (x := x) h
  unfold State.quiesceJob
  dsimp only
  split <;> exact first

theorem State.quiesceJob_others {x : Job} {j : Nat} (other : j ≠ x.id) : (s.quiesceJob x).job j = s.job j := by
  have same := State.job_of_jobs ((s.leaves_stopWork x).1 .jobs (by simp [quitParts, accessParts])) j
  rw [← same]
  unfold State.quiesceJob
  dsimp only
  split
  · exact State.modJob_job_ne _ _ _ _ (fun _ => rfl) other
  · exact State.endJob_others _ _ other

/-- Job `j` has not ended, and no unit runs it. -/
def State.unstarted (s : State) (j : Nat) : Prop := (∃ y, s.job j = some y ∧ y.phase ≠ .ended) ∧ s.offUnits j

/-- Job `j` has ended ABORTED. -/
def State.aborted (s : State) (j : Nat) : Prop := ∃ y, s.job j = some y ∧ y.phase = .ended ∧ y.status = stAborted


theorem State.aborted_of_over {u : State} {y : Job} {j : Nat} (held : s.job j = some y) (h : y.phase ≠ .ended ∨ y.status = stAborted)
    (eq : u = s.endJob j stAborted none) : u.aborted j := by
  subst eq
  refine ⟨_, s.modJob_job j (fun x => if x.phase = .ended then x else { x with phase := .ended, status := stAborted, detail := none })
    (fun x => by split <;> rfl) y held, ?_⟩
  split
  · next ended => exact ⟨ended, h.resolve_left fun no => no ended⟩
  · exact ⟨rfl, rfl⟩

theorem State.quiesceJob_aborts {x : Job} {j : Nat} (h : s.unstarted j) (mine : x.id = j) (op : x.opcode ≠ 8) :
    (s.quiesceJob x).aborted j := by
  obtain ⟨⟨y, held, open_⟩, off⟩ := h
  obtain ⟨arrays, pairs⟩ := s.stopWork_offUnits (x := x) off
  have stops : (s.stopWork x).keepsRunning x = false := by
    rw [State.keepsRunning, mine, arrays, pairs, State.runnerTakes]
    simp [op]
  have here : (s.stopWork x).job j = some y := by
    rw [State.job_of_jobs ((s.leaves_stopWork x).1 .jobs (by simp [quitParts, accessParts])) j, held]
  refine (s.stopWork x).aborted_of_over here (.inl open_) ?_
  unfold State.quiesceJob
  dsimp only
  rw [stops, if_neg (by decide), mine]

theorem State.quiesceJob_keeps {x : Job} {j : Nat} (h : s.unstarted j) : (s.quiesceJob x).unstarted j ∨ (s.quiesceJob x).aborted j := by
  obtain ⟨⟨y, held, open_⟩, off⟩ := h
  by_cases mine : j = x.id
  · have here : (s.stopWork x).job j = some y := by
      rw [State.job_of_jobs ((s.leaves_stopWork x).1 .jobs (by simp [quitParts, accessParts])) j, held]
    by_cases runs : (s.stopWork x).keepsRunning x = true
    · refine .inl ⟨⟨{ y with stop := true }, ?_, open_⟩, s.quiesceJob_offUnits off⟩
      unfold State.quiesceJob
      dsimp only
      rw [if_pos runs, ← mine]
      exact State.modJob_job _ j (fun z => { z with stop := true }) (fun _ => rfl) y here
    · refine .inr ((s.stopWork x).aborted_of_over here (.inl open_) ?_)
      unfold State.quiesceJob
      dsimp only
      rw [if_neg runs, mine]
  · exact .inl ⟨⟨y, (s.quiesceJob_others mine).trans held, open_⟩, s.quiesceJob_offUnits off⟩

theorem State.quiesceJob_stays {x : Job} {j : Nat} (h : s.aborted j) : (s.quiesceJob x).aborted j := by
  obtain ⟨y, held, ended, status⟩ := h
  by_cases mine : j = x.id
  · have here : (s.stopWork x).job j = some y := by
      rw [State.job_of_jobs ((s.leaves_stopWork x).1 .jobs (by simp [quitParts, accessParts])) j, held]
    unfold State.quiesceJob
    dsimp only
    split
    · rw [← mine]
      exact ⟨{ y with stop := true }, State.modJob_job _ j (fun z => { z with stop := true }) (fun _ => rfl) y here, ended, status⟩
    · exact (s.stopWork x).aborted_of_over here (.inr status) (by rw [mine])
  · exact ⟨y, (s.quiesceJob_others mine).trans held, ended, status⟩

theorem State.leaves_closeRun (r : OpenRun) (n : Nat) : Leaves [.ctxs, .runs] (fun q _ => q = .attIstat) s (s.closeRun r n) := by
  unfold State.closeRun
  refine Leaves.showAtt (Leaves.parts (Leaves.over (.refl _ _ s) fun e t h => ?_)) rfl
  dsimp only
  split
  · exact h.parts
  · exact h

theorem State.leaves_closeRuns (i : Nat) : Leaves [.ctxs, .runs] (fun q _ => q = .attIstat) s (s.closeRuns i) := by
  unfold State.closeRuns
  exact .over (.refl _ _ s) fun r t h => h.into (t.leaves_closeRun r 0) (fun _ m => m) fun _ _ e => e

/-! ## The quiesce of an instance -/

variable (i : Nat)

/-- The state in which the jobs of a quiesced instance are stopped. -/
def State.stopping : State := (s.setF SYS_INST.STATE i 2).quiesceQueues i

/-- The jobs that a quiesce stops. -/
def State.stopped : State := (s.stopping i).each (((s.stopping i).instJobs i).filter fun x => x.phase != .ended) State.quiesceJob

theorem State.startQuiesce_stopped : s.startQuiesce i = (s.stopped i).closeRuns i := (rfl)

theorem State.leaves_stopping : Leaves [.sprue, .queues] (fun r k => (r = .sysInst ∧ k = i) ∨ (r = .sprQstat ∧ k ∈ instQueues i)) s
    (s.stopping i) :=
  (Leaves.setF (.refl _ _ s) (.inl ⟨rfl, rfl⟩)).into (State.leaves_quiesceQueues _ i) (fun _ m => m) fun _ _ e => .inr e

theorem State.leaves_stopped : Leaves (.jobs :: quitParts) quitRegs (s.stopping i) (s.stopped i) :=
  .over (.refl _ _ _) fun x t h => h.into (t.leaves_quiesceJob x) (fun _ m => m) fun _ _ e => e

theorem State.stopped_quiesces : Leaves ([.jobs, .ctxs, .runs] ++ quitParts) (fun r k => r = .attIstat ∨ quitRegs r k) (s.stopping i)
    (s.startQuiesce i) := by
  rw [State.startQuiesce_stopped]
  exact ((s.leaves_stopped i).mono (List.cons_subset.2 ⟨by simp, List.subset_append_right _ _⟩) fun _ _ e => .inr e).into (State.leaves_closeRuns _ i) (by simp) fun _ _ e => .inl e

theorem State.startQuiesce_f (x : Fld) (k : Nat) (hx : x.reg = .sysInst ∨ x.reg = .sprQstat) :
    (s.startQuiesce i).f x k = (s.stopping i).f x k :=
  (s.stopped_quiesces i).f_same x k (by rcases hx with e | e <;> simp [e, accessRegs, vecStat])

theorem State.startQuiesce_queues {n : Nat} (hn : n ∈ instQueues i) : (s.startQuiesce i).quiesced n := by
  have q : (s.stopping i).quiesced n := State.quiesceQueues_quiesced _ i hn
  rw [State.quiesced, (s.stopped_quiesces i).1 .sprue (by simp [accessParts]), s.startQuiesce_f i SPR_QSTAT.STATE n (.inr rfl)]
  exact q

theorem State.startQuiesce_state : (s.startQuiesce i).f SYS_INST.STATE i = 2 := by
  rw [s.startQuiesce_f i SYS_INST.STATE i (.inl rfl), State.stopping,
    (State.leaves_quiesceQueues _ i).f_same SYS_INST.STATE i (by simp [SYS_INST.STATE])]
  exact State.setF_f_width _ _ _ _ 4 (by decide) rfl

theorem State.startQuiesce_sysInst (x : Fld) (hx : x.reg = .sysInst) (apart : SYS_INST.STATE.apart x) :
    (s.startQuiesce i).f x i = s.f x i := by
  rw [s.startQuiesce_f i x i (.inl hx), State.stopping, (State.leaves_quiesceQueues _ i).f_same x i (by simp [hx])]
  exact State.setF_f_apart _ _ _ _ _ _ (by decide) apart

theorem State.startQuiesce_job (k : Nat) : (s.startQuiesce i).job k = (s.stopped i).job k := by
  rw [State.startQuiesce_stopped]
  exact State.job_of_jobs ((State.leaves_closeRuns _ i).1 .jobs (by simp)) k

theorem State.stopping_jobs : (s.stopping i).work.jobs = s.work.jobs := (s.leaves_stopping i).1 .jobs (by simp)

theorem State.startQuiesce_aborts {j : Nat} {x : Job} (held : s.job j = some x) (mine : x.inst = i) (open_ : x.phase ≠ .ended)
    (op : x.opcode ≠ 8) (off : s.offUnits j) : (s.startQuiesce i).aborted j := by
  have here : (s.stopping i).job j = some x := (State.job_of_jobs (s.stopping_jobs i) j).trans held
  have still : (s.stopping i).offUnits j := by
    obtain ⟨arrays, pairs⟩ := off
    have same := s.leaves_stopping i
    constructor
    · rw [← arrays, State.jobOnArray, State.jobOnArray]
      simp only [same.arr_same (show Part.arrays ∉ _ by simp)]
    · rw [← pairs, State.jobInPair, State.jobInPair, same.1 .pairs (by simp)]
  have listed : x ∈ ((s.stopping i).instJobs i).filter fun x => x.phase != .ended :=
    List.mem_filter.2 ⟨List.mem_filter.2 ⟨List.mem_of_find?_eq_some here, by simpa using mine⟩, by simpa using open_⟩
  have ended : (s.stopped i).aborted j := by
    unfold State.stopped
    exact State.each_reaches (g := State.quiesceJob) (start := fun t => t.unstarted j) (done := fun t => t.aborted j)
      (fun t _ h => t.quiesceJob_keeps h) (fun t _ h => t.quiesceJob_stays h)
      (fun t h => t.quiesceJob_aborts h (State.id_of_job held) op) listed (.inl ⟨⟨x, here, open_⟩, still⟩)
  rwa [State.aborted, s.startQuiesce_job i j]

theorem State.startQuiesce_others (distinct : (s.work.jobs.map Job.id).Nodup) {j : Nat} {x : Job} (held : s.job j = some x)
    (other : x.inst ≠ i) : (s.startQuiesce i).job j = some x := by
  rw [s.startQuiesce_job i j]
  refine State.each_keeps (P := fun t => t.job j = some x) ((State.job_of_jobs (s.stopping_jobs i) j).trans held) fun t y hy h => ?_
  refine (t.quiesceJob_others fun same => other ?_).trans h
  obtain ⟨hy, -⟩ := List.mem_filter.1 hy
  obtain ⟨hy, inst⟩ := List.mem_filter.1 hy
  rw [s.stopping_jobs i] at hy
  have one : x = y := List.inj_on_of_nodup_map distinct (List.mem_of_find?_eq_some held) hy ((State.id_of_job held).trans same)
  rw [one]
  simpa using inst

end

end Sys2Proof.Machine
end

section
/-! PROOFS. A quiesce that is done, RESUME, and the steps of a reset (R216, R217). -/

set_option Elab.async false

namespace Sys2Proof.Machine

section
variable (s : State) (i : Nat)

/-! ## QUIESCE_DONE -/

/-- What is left of the jobs of a quiesced instance ends ABORTED. -/
def State.jobsAborted : State := s.each ((s.instJobs i).filter fun x => x.phase != .ended) fun s x => s.endJob x.id stAborted none

theorem quiesceDone_ends (hi : i < 256) (state : s.f SYS_INST.STATE i = 2) (drained : s.draining i = false) :
    exec (.quiesceDone i) s = .next (if ((s.jobsAborted i).instJobs i).isEmpty
      then ((s.jobsAborted i).setF SYS_INST.QUIESCE i 0).setF SYS_INST.STATE i 3 else s.jobsAborted i) := by
  rw [exec_quiesceDone, execQuiesceDone, isInst, decide_eq_true hi, unit_true, drained, Bool.or_false, if_neg (by simp [state])]
  rfl

theorem quiesceDone_waits (hi : i < 256) (h : s.f SYS_INST.STATE i ≠ 2 ∨ s.draining i = true) : exec (.quiesceDone i) s = .next s := by
  rw [exec_quiesceDone, execQuiesceDone, isInst, decide_eq_true hi, unit_true, if_pos (by simpa using h)]

theorem State.leaves_jobsAborted : Leaves [.jobs] noReg s (s.jobsAborted i) := .over (.refl _ _ s) fun _ _ h => h.endJob

/-- Job `j` has ended. -/
def State.hasEnded (s : State) (j : Nat) : Prop := ∃ y, s.job j = some y ∧ y.phase = .ended

theorem State.endJob_ended {s : State} {j k : Nat} (h : ∃ y, s.job j = some y) (st : Nat) (d : Option Nat) (mine : k = j ∨ s.hasEnded j) :
    (s.endJob k st d).hasEnded j := by
  by_cases same : j = k
  · obtain ⟨y, held⟩ := h
    subst same
    refine ⟨_, s.modJob_job j (fun x => if x.phase = .ended then x else { x with phase := .ended, status := st, detail := d })
      (fun x => by split <;> rfl) y held, ?_⟩
    split
    · assumption
    · rfl
  · obtain ⟨y, held, ended⟩ := mine.resolve_left fun e => same e.symm
    exact ⟨y, (State.endJob_others _ _ same).trans held, ended⟩

theorem State.endJob_held {s : State} {j k st : Nat} {d : Option Nat} (h : ∃ y, s.job j = some y) : ∃ y, (s.endJob k st d).job j = some y := by
  by_cases same : k = j
  · obtain ⟨y, held, -⟩ := State.endJob_ended h st d (.inl same)
    exact ⟨y, held⟩
  · obtain ⟨y, held⟩ := h
    exact ⟨y, (State.endJob_others _ _ (Ne.symm same)).trans held⟩

theorem State.jobsAborted_ends {j : Nat} {x : Job} (held : s.job j = some x) (mine : x.inst = i) : (s.jobsAborted i).hasEnded j := by
  have stay : ∀ (t : State) (y : Job), t.hasEnded j → (t.endJob y.id stAborted none).hasEnded j := fun t y h =>
    State.endJob_ended ⟨_, h.choose_spec.1⟩ _ _ (.inr h)
  by_cases ended : x.phase = .ended
  · exact State.each_keeps (P := fun t => t.hasEnded j) ⟨x, held, ended⟩ fun t y _ => stay t y
  · have listed : x ∈ (s.instJobs i).filter fun x => x.phase != .ended :=
      List.mem_filter.2 ⟨List.mem_filter.2 ⟨List.mem_of_find?_eq_some held, by simpa using mine⟩, by simpa using ended⟩
    exact State.each_reaches (g := fun s x => s.endJob x.id stAborted none) (start := fun t => ∃ y, t.job j = some y)
      (done := fun t => t.hasEnded j) (fun t y h => .inl (State.endJob_held h)) stay
      (fun t h => State.endJob_ended h _ _ (.inl (State.id_of_job held))) listed (.inl ⟨x, held⟩)

theorem State.instJobs_endJob (j st : Nat) (d : Option Nat) : ((s.endJob j st d).instJobs i = [] ↔ s.instJobs i = []) := by
  unfold State.instJobs State.endJob State.modJob
  dsimp only
  rw [List.filter_eq_nil_iff, List.filter_eq_nil_iff]
  simp only [List.forall_mem_map]
  refine forall₂_congr fun x _ => ?_
  split
  · split <;> rfl
  · rfl

theorem State.jobsAborted_instJobs : (s.jobsAborted i).instJobs i = [] ↔ s.instJobs i = [] :=
  State.each_keeps (P := fun t => t.instJobs i = [] ↔ s.instJobs i = []) Iff.rfl fun t _ _ h => (t.instJobs_endJob i _ _ _).trans h

/-! ## RESUME -/

variable {n : Nat}

theorem State.leaves_resumeQueue : Leaves [.sprue] (oneReg .sprQstat n) s (s.resumeQueue n) := by
  unfold State.resumeQueue
  dsimp only
  exact .ite (.setF (.refl _ _ s) ⟨rfl, rfl⟩) (.ite (.showQueue (.setPending (.setF (.refl _ _ s) ⟨rfl, rfl⟩)) ⟨rfl, rfl⟩)
    (.showQueue (.setF (.refl _ _ s) ⟨rfl, rfl⟩) ⟨rfl, rfl⟩))

/-- The queue stays in error at a resume (R44). -/
def State.staysInError (n : Nat) : Prop := (s.q n).preQuiesce = 3 ∨ s.f SPR_QSTAT.STATE n = 3

theorem State.showQueue_low (h : s.f SPR_QSTAT.STATE n = 0) : (s.showQueue n).f SPR_QSTAT.STATE n ≤ 2 := by
  unfold State.showQueue
  dsimp only
  rw [h, if_neg (by decide), State.setF_f_width _ _ _ _ 8 (by decide) rfl]
  split
  · decide
  · split <;> decide

theorem State.resumeQueue_error (h : s.staysInError n) : (s.resumeQueue n).f SPR_QSTAT.STATE n = 3 := by
  unfold State.resumeQueue
  rw [if_pos (by simpa [State.staysInError] using h)]
  exact State.setF_f_width _ _ _ _ 8 (by decide) rfl

theorem State.resumeQueue_resumes (h : ¬ s.staysInError n) : (s.resumeQueue n).f SPR_QSTAT.STATE n ≤ 2 := by
  have zero : (s.setF SPR_QSTAT.STATE n 0).f SPR_QSTAT.STATE n = 0 := State.setF_f_width _ _ _ _ 8 (by decide) rfl
  have pend : ∀ u : State, (u.setPending n).f SPR_QSTAT.STATE n = u.f SPR_QSTAT.STATE n := fun u =>
    (Leaves.setPending (ps := [.sprue]) (q := noReg) (.refl _ _ u)).f_same _ _ id
  unfold State.resumeQueue
  rw [if_neg (by simpa [State.staysInError] using h)]
  dsimp only
  split
  · exact State.showQueue_low _ ((pend _).trans zero)
  · exact State.showQueue_low _ zero

/-- What a resume makes of a queue. -/
def State.resumed (s t : State) (n : Nat) : Prop :=
  t.q n = s.q n ∧ (s.staysInError n → t.f SPR_QSTAT.STATE n = 3) ∧ (¬ s.staysInError n → t.f SPR_QSTAT.STATE n ≤ 2)

theorem State.resumeQueue_q (k : Nat) : (s.resumeQueue k).q n = s.q n := by
  rw [State.q, State.q, s.leaves_resumeQueue.1 .queues (by simp)]

theorem State.resumeQueue_hits {t : State} (q : t.q n = s.q n) (state : t.f SPR_QSTAT.STATE n = s.f SPR_QSTAT.STATE n) :
    s.resumed (t.resumeQueue n) n := by
  have same : t.staysInError n ↔ s.staysInError n := by rw [State.staysInError, State.staysInError, q, state]
  exact ⟨(t.resumeQueue_q n).trans q, fun h => t.resumeQueue_error (same.2 h), fun h => t.resumeQueue_resumes fun e => h (same.1 e)⟩

theorem State.resumeQueue_again {t : State} (h : s.resumed t n) : s.resumed (t.resumeQueue n) n := by
  obtain ⟨q, error, low⟩ := h
  refine ⟨(t.resumeQueue_q n).trans q, fun h => t.resumeQueue_error (.inr (error h)), fun h => t.resumeQueue_resumes fun e => ?_⟩
  rcases e with e | e
  · exact h (.inl (by rw [← q, e]))
  · have := low h
    omega

theorem State.resumeQueues_resumes {xs : List Nat} (hn : n ∈ xs) : s.resumed (s.each xs State.resumeQueue) n := by
  have other : ∀ (t : State) (k : Nat), n ≠ k → (t.resumeQueue k).f SPR_QSTAT.STATE n = t.f SPR_QSTAT.STATE n := fun t k ne =>
    t.leaves_resumeQueue.f_same _ _ fun e => ne e.2
  refine State.each_reaches (g := State.resumeQueue) (start := fun t => t.q n = s.q n ∧ t.f SPR_QSTAT.STATE n = s.f SPR_QSTAT.STATE n)
    (done := fun t => s.resumed t n) (fun t k h => ?_) (fun t k h => ?_) (fun t h => s.resumeQueue_hits h.1 h.2) hn (.inl ⟨rfl, rfl⟩)
  · by_cases same : n = k
    · exact .inr (same ▸ s.resumeQueue_hits h.1 h.2)
    · exact .inl ⟨(t.resumeQueue_q k).trans h.1, (other t k same).trans h.2⟩
  · by_cases same : n = k
    · exact same ▸ s.resumeQueue_again h
    · obtain ⟨q, error, low⟩ := h
      rw [State.resumed, other t k same, t.resumeQueue_q k]
      exact ⟨q, error, low⟩

theorem State.leaves_resumeInst : Leaves [.sprue] (fun r k => (r = .sysInst ∧ k = i) ∨ (r = .sprQstat ∧ k ∈ instQueues i)) s
    (s.resumeInst i) := by
  unfold State.resumeInst
  exact State.each_keeps (P := Leaves [.sprue] (fun r k => (r = .sysInst ∧ k = i) ∨ (r = .sprQstat ∧ k ∈ instQueues i)) s)
    (.setF (.setF (.refl _ _ s) (.inl ⟨rfl, rfl⟩)) (.inl ⟨rfl, rfl⟩))
    fun t n hn h => h.into t.leaves_resumeQueue (by simp) fun r k e => .inr ⟨e.1, e.2 ▸ hn⟩

end

end Sys2Proof.Machine
end

section
/-! PROOFS. A reset and a removal clear an instance's work, and SPILL_ALL spills its contexts (R217, R218, R223). -/

set_option Elab.async false

namespace Sys2Proof.Machine

/-! ## The steps of a reset -/

/-- A map without the entries of a key reads as unlisted there. -/
theorem NMap.get_filter_out {α : Type} (m : NMap α) (d : α) (p : Nat × α → Bool) (k : Nat) (gone : ∀ v, p (k, v) = false) :
    NMap.get (m.filter p) d k = d := by
  induction m with
  | nil => rfl
  | cons a m ih =>
    obtain ⟨n, v⟩ := a
    rw [List.filter_cons]
    split
    · next kept =>
      have ne : k ≠ n := fun e => by rw [← e, gone] at kept; cases kept
      have tail : NMap.get ((n, v) :: m.filter p) d k = NMap.get (m.filter p) d k := by simp [NMap.get, NMap.find, ne]
      exact tail.trans ih
    · exact ih

section
variable (s : State) (i : Nat)

/-- The queue is out of use, its doorbell and status registers clear. -/
def State.resetQueue (s : State) (n : Nat) : State :=
  ((((s.clearSprue n).setF SPR_QCFG.EN n 0).setR .sprDb n 0).setR .sprQstat n 0).setF SPR_QRESTORE1.VALID n 0

/-- The registers of the queues of an instance that a reset clears. -/
abbrev queueRegs (i : Nat) (r : Reg) (k : Nat) : Prop :=
  (r = .sprQcfg ∨ r = .sprDb ∨ r = .sprQstat ∨ r = .sprQrestore1) ∧ k ∈ instQueues i

/-- The queues of an instance are out of use. -/
def State.queuesReset : State := (s.each (instQueues i) State.resetQueue).each (instQueues i) fun s n => s.modQ n fun _ => {}

/-- The contexts, reference counts and cached translations of an instance are gone. -/
def State.memoryReset : State := { s with
  work.ctxs := s.work.ctxs.filter fun p => p.2.inst != i || p.2.state == 0
  work.refc := s.work.refc.filter fun p => !(decide (s.f ATT_IFRAMES.RC_BASE i ≤ p.1)
    && decide (p.1 < s.f ATT_IFRAMES.RC_BASE i + s.f ATT_IFRAMES.FRAMES i))
  dtu.tlb := s.dtu.tlb.filter fun t => t.inst != i }

/-- The pool of an instance is disabled. -/
def State.poolReset : State := ((s.setF ATT_ISPILLED.SPILLED i 0).setF ATT_IPOOL.EN i 0).showAtt i

theorem State.resetWork_eq : s.resetWork i = ((s.queuesReset i).memoryReset i).poolReset i := (rfl)

/-- A queue that a reset has put out of use. -/
def State.outOfUse (s : State) (n : Nat) : Prop := s.fb SPR_QCFG.EN n = false ∧ s.r .sprDb n = 0 ∧ s.r .sprQstat n = 0

theorem State.leaves_resetQueue (n : Nat) : Leaves [.sprue] (fun r k => (r = .sprQcfg ∨ r = .sprDb ∨ r = .sprQstat ∨ r = .sprQrestore1) ∧ k = n)
    s (s.resetQueue n) :=
  .setF (.setR (.setR (.setF (.clearSprue (.refl _ _ s)) ⟨.inl rfl, rfl⟩) ⟨.inr (.inl rfl), rfl⟩) ⟨.inr (.inr (.inl rfl)), rfl⟩)
    ⟨.inr (.inr (.inr rfl)), rfl⟩

theorem State.resetQueue_resets (n : Nat) : (s.resetQueue n).outOfUse n := by
  unfold State.resetQueue
  generalize en : (s.clearSprue n).setF SPR_QCFG.EN n 0 = u
  have off : u.f SPR_QCFG.EN n = 0 := by rw [← en]; exact State.setF_f_width _ _ _ _ 1 (by decide) rfl
  have last : Leaves [] (oneReg .sprQrestore1 n) ((u.setR .sprDb n 0).setR .sprQstat n 0)
      (((u.setR .sprDb n 0).setR .sprQstat n 0).setF SPR_QRESTORE1.VALID n 0) := .setF (.refl _ _ _) ⟨rfl, rfl⟩
  have stat : Leaves [] (oneReg .sprQstat n) (u.setR .sprDb n 0) ((u.setR .sprDb n 0).setR .sprQstat n 0) := .setR (.refl _ _ _) ⟨rfl, rfl⟩
  have db : Leaves [] (oneReg .sprDb n) u (u.setR .sprDb n 0) := .setR (.refl _ _ _) ⟨rfl, rfl⟩
  refine ⟨?_, ?_, ?_⟩
  · rw [State.fb_eq, last.f_same SPR_QCFG.EN n (by simp [oneReg, SPR_QCFG.EN]), stat.f_same SPR_QCFG.EN n (by simp [oneReg, SPR_QCFG.EN]),
      db.f_same SPR_QCFG.EN n (by simp [oneReg, SPR_QCFG.EN]), off]
    rfl
  · rw [last.2 .sprDb n (by simp [oneReg]), stat.2 .sprDb n (by simp [oneReg]), State.setR_r, if_pos ⟨rfl, rfl⟩]
    rfl
  · rw [last.2 .sprQstat n (by simp [oneReg]), State.setR_r, if_pos ⟨rfl, rfl⟩]
    rfl

theorem State.outOfUse_of_regs {s t : State} {n : Nat} (h : s.outOfUse n)
    (same : ∀ r, r = .sprQcfg ∨ r = .sprDb ∨ r = .sprQstat → t.r r n = s.r r n) : t.outOfUse n := by
  obtain ⟨en, db, stat⟩ := h
  refine ⟨?_, (same _ (.inr (.inl rfl))).trans db, (same _ (.inr (.inr rfl))).trans stat⟩
  have cfg : t.r SPR_QCFG.EN.reg n = s.r SPR_QCFG.EN.reg n := same _ (.inl rfl)
  rw [← en, State.fb, State.fb, State.f, State.f, cfg]

theorem State.leaves_queuesReset : Leaves [.sprue, .queues] (queueRegs i) s (s.queuesReset i) := by
  have first : Leaves [.sprue, .queues] (queueRegs i) s (s.each (instQueues i) State.resetQueue) :=
    State.each_keeps (P := Leaves [.sprue, .queues] (queueRegs i) s) (.refl _ _ s) fun t n hn h =>
      h.into (t.leaves_resetQueue n) (by simp) fun r k e => ⟨e.1, e.2 ▸ hn⟩
  exact State.each_keeps (P := Leaves [.sprue, .queues] (queueRegs i) s) first fun t n _ h => h.modQ

theorem State.queuesReset_resets {n : Nat} (hn : n ∈ instQueues i) : (s.queuesReset i).outOfUse n := by
  have first : (s.each (instQueues i) State.resetQueue).outOfUse n :=
    State.each_reaches (g := State.resetQueue) (start := fun _ => True) (done := fun t => t.outOfUse n) (fun _ _ _ => .inl trivial)
      (fun t k h => by
        by_cases same : n = k
        · rw [same]
          exact t.resetQueue_resets k
        · exact State.outOfUse_of_regs h fun r _ => (t.leaves_resetQueue k).2 r n fun e => same e.2)
      (fun t _ => t.resetQueue_resets n) hn (.inl trivial)
  exact State.each_keeps (P := fun t => t.outOfUse n) first fun t k _ h => State.outOfUse_of_regs h fun _ _ => rfl

theorem State.leaves_memoryReset : Leaves [.ctxs, .refc, .dtuTlb] noReg s (s.memoryReset i) := .parts (.refl _ _ s)

theorem State.leaves_poolReset : Leaves [] (fun r k => (r = .attIspilled ∨ r = .attIpool ∨ r = .attIstat) ∧ k = i) s (s.poolReset i) :=
  .showAtt (.setF (.setF (.refl _ _ s) ⟨.inl rfl, rfl⟩) ⟨.inr (.inl rfl), rfl⟩) ⟨.inr (.inr rfl), rfl⟩

theorem State.poolReset_off : (s.poolReset i).fb ATT_IPOOL.EN i = false ∧ (s.poolReset i).f ATT_ISPILLED.SPILLED i = 0 := by
  have shown : ∀ u : State, Leaves [] (oneReg .attIstat i) u (u.showAtt i) := fun u => .showAtt (.refl _ _ u) ⟨rfl, rfl⟩
  unfold State.poolReset
  refine ⟨?_, ?_⟩
  · rw [State.fb_eq, (shown _).f_same ATT_IPOOL.EN i (by simp [oneReg, ATT_IPOOL.EN]), State.setF_f_same _ _ _ _ (by decide), Nat.zero_mod]
    rfl
  · rw [(shown _).f_same ATT_ISPILLED.SPILLED i (by simp [oneReg, ATT_ISPILLED.SPILLED])]
    exact (State.setF_f_apart _ ATT_IPOOL.EN ATT_ISPILLED.SPILLED i i 0 (by decide) (by decide)).trans
      (State.setF_f_width _ _ _ _ 32 (by decide) rfl)

/-- The work of an instance is gone: its queues are out of use, its pool is disabled, and no translation, context or
reference of it is left. -/
structure WorkGone (i : Nat) (s t : State) : Prop where
  queues : ∀ n ∈ instQueues i, t.outOfUse n
  tlb : ∀ e ∈ t.dtu.tlb, e.inst ≠ i
  pool : t.fb ATT_IPOOL.EN i = false
  spilled : t.f ATT_ISPILLED.SPILLED i = 0
  counts : ∀ k, s.f ATT_IFRAMES.RC_BASE i ≤ k → k < s.f ATT_IFRAMES.RC_BASE i + s.f ATT_IFRAMES.FRAMES i → NMap.get t.work.refc 0 k = 0
  leaves : Leaves [.sprue, .queues, .ctxs, .refc, .dtuTlb]
    (fun r k => queueRegs i r k ∨ (r = .attIspilled ∨ r = .attIpool ∨ r = .attIstat) ∧ k = i) s t

theorem State.resetWork_gone : WorkGone i s (s.resetWork i) := by
  rw [State.resetWork_eq]
  have queues := s.leaves_queuesReset i
  have memory := (s.queuesReset i).leaves_memoryReset i
  have pool := ((s.queuesReset i).memoryReset i).leaves_poolReset i
  refine ⟨fun n hn => ?_, fun e he => ?_, (State.poolReset_off _ i).1, (State.poolReset_off _ i).2, fun k lo hi => ?_, ?_⟩
  · refine State.outOfUse_of_regs (s.queuesReset_resets i hn) fun r hr => ?_
    rw [pool.2 r n (by rcases hr with e | e | e <;> simp [e]), memory.2 r n id]
  · rw [pool.1 .dtuTlb (by simp)] at he
    simpa using (List.mem_filter.1 he).2
  · rw [pool.1 .refc (by simp)]
    refine NMap.get_filter_out _ _ _ _ fun v => ?_
    rw [queues.f_same ATT_IFRAMES.RC_BASE i (by simp [ATT_IFRAMES.RC_BASE]), queues.f_same ATT_IFRAMES.FRAMES i (by simp [ATT_IFRAMES.FRAMES])]
    simp [lo, hi]
  · exact ((queues.mono (by simp) fun _ _ e => .inl e).into memory (by simp) fun _ _ no => no.elim).into pool (by simp)
      fun _ _ e => .inr e

end

/-! ## REMOVE_DONE -/

section
variable (s : State) (f : Nat)

/-- The dirty lines of a flask's ways stand in memory. -/
def State.waysStored : State :=
  s.each (s.mem.cache.filter fun c => bit (s.f MEM_CWAYS.WAYS f) c.way && c.dirty) fun s c => s.lineStored c.line

theorem State.leaves_waysStored : Leaves [.cells, .poison, .flips, .chkFlips] noReg s (s.waysStored f) :=
  .over (.refl _ _ s) fun _ t h => h.trans (t.leaves_lineStored _)

theorem State.waysStored_homed : Homed s (s.waysStored f) :=
  State.each_keeps (P := Homed s) (.refl s) fun t _ _ h => h.trans (.lineStored t _)

theorem State.cleanWays_parts : ∃ c h, s.cleanWays f = { s.waysStored f with mem.cache := c, mem.holders := h } := ⟨_, _, rfl⟩

theorem State.leaves_cleanWays : Leaves [.cache, .cells, .holders, .poison, .flips, .chkFlips] noReg s (s.cleanWays f) := by
  obtain ⟨c, h, eq⟩ := s.cleanWays_parts f
  rw [eq]
  exact .parts ((s.leaves_waysStored f).mono (by simp) fun _ _ e => e)

theorem State.cleanWays_cells : (s.cleanWays f).mem.cells = (s.waysStored f).mem.cells := (rfl)

theorem State.cleanWays_bytes {k : Nat} (hk : ¬ s.hwByte k) : (s.cleanWays f).byte k = s.byte k :=
  (State.byte_of_cells (s.cleanWays_cells f) k).trans ((s.waysStored_homed f).bytes k hk)

theorem State.cleanWays_cache : (s.cleanWays f).mem.cache
    = (s.waysStored f).mem.cache.map fun c => if bit (s.f MEM_CWAYS.WAYS f) c.way then { c with dirty := false } else c := (rfl)

theorem State.cleanWays_clean {c : CacheLine} (hc : c ∈ (s.cleanWays f).mem.cache) (mine : bit (s.f MEM_CWAYS.WAYS f) c.way = true) :
    c.dirty = false := by
  rw [State.cleanWays_cache] at hc
  obtain ⟨d, -, rfl⟩ := List.mem_map.1 hc
  revert mine
  split
  · exact fun _ => rfl
  · exact fun mine => absurd mine ‹_›

theorem State.cleanWays_holders : (s.cleanWays f).mem.holders = (s.waysStored f).mem.holders.map fun h =>
    if h.st = .m && (s.engines f).any (fun e => h.who == Cacher.vec e) then { h with st := .e } else h := (rfl)

theorem State.cleanWays_flushes {h : Holder} (hh : h ∈ (s.cleanWays f).mem.holders) (dirty : h.st = .m) {e : Nat} (he : e ∈ s.engines f) :
    h.who ≠ .vec e := by
  rw [State.cleanWays_holders] at hh
  obtain ⟨g, -, rfl⟩ := List.mem_map.1 hh
  revert dirty
  split
  · exact fun no => nomatch no
  · next kept =>
    intro dirty who
    exact kept (by simpa [dirty] using ⟨e, he, who⟩)

variable (i : Nat)

theorem State.leaves_unbind : Leaves [] (fun r _ => r = .sysVfmap) s (s.unbind i) := .over (.refl _ _ s) fun _ _ h => h.setR rfl

theorem State.unbind_clears {k : Nat} (hk : k < 512) (mine : s.f SYS_VFMAP.INSTANCE k = i) : (s.unbind i).r .sysVfmap k = 0 := by
  have clears : ∀ (t : State) (n : Nat), t.r .sysVfmap k = 0 ∨ k = n → (t.setR .sysVfmap n 0).r .sysVfmap k = 0 := fun t n h => by
    rw [State.setR_r]
    split
    · rfl
    · next ne => exact h.resolve_right fun e => ne ⟨rfl, e⟩
  exact State.each_reaches (g := fun s k => s.setR .sysVfmap k 0) (start := fun _ => True) (done := fun t => t.r .sysVfmap k = 0)
    (fun _ _ _ => .inl trivial) (fun t n h => clears t n (.inl h)) (fun t _ => clears t k (.inr rfl))
    (List.mem_filter.2 ⟨List.mem_range.2 hk, by simpa using mine⟩) (.inl trivial)

/-- An instance whose removal is done. -/
def State.removed : State :=
  ((((s.cleanWays (s.instFlask i)).unbind i).setF SYS_INST.TDI i 0).setF SYS_INST.REMOVE i 0).setF SYS_INST.STATE i 0

theorem removeDone_removes (hi : i < 256) (state : s.f SYS_INST.STATE i = 5) : exec (.removeDone i) s = .next (s.removed i) := by
  rw [exec_removeDone, execRemoveDone, isInst, decide_eq_true hi, unit_true, if_neg (not_not_intro state)]
  rfl

theorem removeDone_waits (hi : i < 256) (h : s.f SYS_INST.STATE i ≠ 5) : exec (.removeDone i) s = .next s := by
  rw [exec_removeDone, execRemoveDone, isInst, decide_eq_true hi, unit_true, if_pos h]

theorem State.removed_after : Leaves [] (fun r k => (r = .sysInst ∧ k = i) ∨ r = .sysVfmap) (s.cleanWays (s.instFlask i)) (s.removed i) :=
  .setF (.setF (.setF ((State.leaves_unbind _ i).mono (List.Subset.refl _) fun _ _ e => .inr e) (.inl ⟨rfl, rfl⟩)) (.inl ⟨rfl, rfl⟩))
    (.inl ⟨rfl, rfl⟩)

theorem State.removed_fields : (s.removed i).f SYS_INST.STATE i = 0 ∧ (s.removed i).fb SYS_INST.REMOVE i = false
    ∧ (s.removed i).f SYS_INST.TDI i = 0 := by
  unfold State.removed
  generalize (s.cleanWays (s.instFlask i)).unbind i = u
  refine ⟨State.setF_f_width _ _ _ _ 4 (by decide) rfl, ?_, ?_⟩
  · rw [State.fb_eq, State.setF_f_apart _ _ _ _ _ _ (by decide) (by decide), State.setF_f_same _ _ _ _ (by decide), Nat.zero_mod]
    rfl
  · rw [State.setF_f_apart _ _ _ _ _ _ (by decide) (by decide), State.setF_f_apart _ _ _ _ _ _ (by decide) (by decide),
      State.setF_f_same _ _ _ _ (by decide), Nat.zero_mod]

theorem State.removed_unbound {k : Nat} (hk : k < 512) (mine : s.f SYS_VFMAP.INSTANCE k = i) : (s.removed i).r .sysVfmap k = 0 := by
  have last : Leaves [] (oneReg .sysInst i) ((s.cleanWays (s.instFlask i)).unbind i) (s.removed i) :=
    .setF (.setF (.setF (.refl _ _ _) ⟨rfl, rfl⟩) ⟨rfl, rfl⟩) ⟨rfl, rfl⟩
  rw [last.2 .sysVfmap k (by simp [oneReg])]
  exact State.unbind_clears _ i hk (((s.leaves_cleanWays _).f_same _ _ id).trans mine)

end

/-! ## SPILL_ALL -/

section
variable (s : State) (i : Nat)

/-- The registers that a spill may change. -/
abbrev spillRegs (r : Reg) (k : Nat) : Prop := accessRegs r k ∨ r = .attIspilled ∨ r = .attIcnt ∨ r = .attIstat

theorem State.leaves_spillCtx (p : Nat × Ctx) : Leaves (.ctxs :: accessParts) spillRegs s (spillCtx i p s).2 := by
  unfold spillCtx
  generalize written : gWrite i _ _ s = w
  obtain ⟨r, s1⟩ := w
  have acc : Leaves (.ctxs :: accessParts) spillRegs s s1 :=
    (Accessed.of_eq written (.gWrite (.refl _ _ s))).mono (by simp) fun _ _ e => .inl e
  cases r with
  | error e => exact acc
  | ok u => exact .showAtt (.incSat (.setF (.setCtx acc) (.inr (.inl rfl))) (.inr (.inr (.inl rfl)))) (.inr (.inr (.inr rfl)))

theorem spillCtx_ctx (p : Nat × Ctx) (k : Nat) : (spillCtx i p s).2.ctx k = s.ctx k ∨ k = p.1 ∧ (spillCtx i p s).2.ctx k = {} := by
  unfold spillCtx
  generalize written : gWrite i _ _ s = w
  obtain ⟨r, s1⟩ := w
  have same : s1.ctx k = s.ctx k := (Accessed.of_eq written (.gWrite (.refl _ _ s))).ctx_same k
  cases r with
  | error e => exact .inl same
  | ok u =>
    simp only [Rd.andThen]
    rw [State.showAtt_ctx, State.incSat_ctx, State.setF_ctx, State.setCtx_ctx]
    split
    · next e => exact .inr ⟨e, rfl⟩
    · exact .inl same

/-- The contexts that SPILL_ALL spills. -/
def State.toSpill : List (Nat × Ctx) := s.work.ctxs.filter fun p => p.2.state == 1 && p.2.inst == i && !p.2.spread

/-- Every context of the list is spilled. -/
def State.spilled (xs : List (Nat × Ctx)) : State := s.each xs fun s p => (spillCtx i p s).2

theorem State.spillAll_eq : s.spillAll i = (s.spilled i (s.toSpill i)).setF SYS_INST.SPILL_ALL i 0 := (rfl)

theorem State.leaves_spilled (xs : List (Nat × Ctx)) : Leaves (.ctxs :: accessParts) spillRegs s (s.spilled i xs) :=
  .over (.refl _ _ s) fun p t h => h.trans (t.leaves_spillCtx i p)

theorem State.spilled_ctx (xs : List (Nat × Ctx)) (k : Nat) : (s.spilled i xs).ctx k = s.ctx k ∨ (s.spilled i xs).ctx k = {} :=
  State.each_keeps (P := fun t => t.ctx k = s.ctx k ∨ t.ctx k = {}) (.inl rfl) fun t p _ h =>
    (spillCtx_ctx t i p k).elim (fun e => by rwa [e]) fun e => .inr e.2

theorem State.spilled_keeps (xs : List (Nat × Ctx)) (k : Nat) (other : ∀ p ∈ xs, p.1 ≠ k) : (s.spilled i xs).ctx k = s.ctx k :=
  State.each_keeps (P := fun t => t.ctx k = s.ctx k) rfl fun t p hp h =>
    (spillCtx_ctx t i p k).elim (fun e => e.trans h) fun e => absurd e.1.symm (other p hp)

end

end Sys2Proof.Machine
end

section
/-! PROOFS. What O45 says: the life of an instance (R215 to R218, R223). -/

set_option Elab.async false

namespace Sys2Proof.Machine

section
variable {s : State} {m : Master} {i : Nat} {v : Word}

theorem instanceCreate_creates (hi : i < 256) (acc : s.accepts .sysInst i m .whole (withBit v 59)) :
    ∃ t, exec (.instanceCreate m i v) s = .next t ∧ t.f SYS_INST.STATE i = 1 ∧ t.fb SYS_INST.CREATE i = false
      ∧ t.f SYS_INST.FLASK i = bits v.toNat 53 51 ∧ Leaves [] (oneReg .sysInst i) s t := by
  obtain ⟨write, -⟩ := sysInst_command (by simp) acc
  refine ⟨((s.instWrote i v 59).setF SYS_INST.CREATE i 0).setF SYS_INST.STATE i 1, ?_, State.setF_f_width _ _ _ _ 4 (by decide) rfl,
    ?_, ?_, .setF (.setF (s.leaves_instWrote i v 59) ⟨rfl, rfl⟩) ⟨rfl, rfl⟩⟩
  · rw [exec_instanceCreate, execInstanceCreate, isInst, decide_eq_true hi, unit_true, write]
    rfl
  · rw [State.fb_eq, State.setF_f_apart _ _ _ _ _ _ (by decide) (by decide), State.setF_f_same _ _ _ _ (by decide), Nat.zero_mod]
    rfl
  · rw [State.setF_f_apart _ _ _ _ _ _ (by decide) (by decide), State.setF_f_apart _ _ _ _ _ _ (by decide) (by decide)]
    exact (s.wrote_rw i _ SYS_INST.FLASK (by simp [Reg.fieldsAt, Reg.fields, SYS_INST.FLASK])).trans
      (bits_withBit_apart v 59 53 51 (by omega))

/-! ## QUIESCE -/

/-- The state in which a quiesce starts: a locked TDI has entered ERROR. -/
def State.toQuiesce (s : State) (i : Nat) : State :=
  if s.tdiLocked i then (s.setF SYS_INST.TDI i 4).setF SYS_INST.QUIESCE i 1 else s

theorem State.leaves_toQuiesce (s : State) (i : Nat) : Leaves [] (oneReg .sysInst i) s (s.toQuiesce i) :=
  .ite (.setF (.setF (.refl _ _ s) ⟨rfl, rfl⟩) ⟨rfl, rfl⟩) (.refl _ _ s)

theorem State.instCmd_quiesce (s : State) (i : Nat) (state : s.f SYS_INST.STATE i = 1) : s.instCmd i 58 = (s.toQuiesce i).startQuiesce i := by
  have cmd : s.instCmd i 58 = if s.tdiLocked i then s.tdiError i else s.startQuiesce i := rfl
  rw [cmd, State.toQuiesce]
  split
  · have still : (s.setF SYS_INST.TDI i 4).f SYS_INST.STATE i = 1 := by
      rw [State.setF_f_apart _ _ _ _ _ _ (by decide) (by decide), state]
    rw [State.tdiError, if_pos still]
  · rfl

theorem State.toQuiesce_quiesce (s : State) (i : Nat) (set : s.fb SYS_INST.QUIESCE i = true) :
    (s.toQuiesce i).fb SYS_INST.QUIESCE i = true := by
  unfold State.toQuiesce
  split
  · rw [State.fb_eq, State.setF_f_width _ _ _ _ 1 (by decide) rfl]
    rfl
  · exact set

theorem State.toQuiesce_tdi (s : State) (i : Nat) (locked : s.tdiLocked i = true) : (s.toQuiesce i).f SYS_INST.TDI i = 4 := by
  rw [State.toQuiesce, if_pos locked, State.setF_f_apart _ _ _ _ _ _ (by decide) (by decide)]
  exact State.setF_f_width _ _ _ _ 3 (by decide) rfl

theorem quiesce_quiesces (hi : i < 256) (acc : s.accepts .sysInst i m .whole (withBit v 58)) :
    ∃ t, exec (.quiesce m i v) s = .next t ∧ t.f SYS_INST.STATE i = 2 ∧ t.fb SYS_INST.QUIESCE i = true
      ∧ (s.tdiLocked i = true → t.f SYS_INST.TDI i = 4) ∧ (∀ q ∈ instQueues i, t.quiesced q)
      ∧ (∀ j x, s.job j = some x → x.inst = i → x.phase ≠ .ended → x.opcode ≠ 8 → s.jobOnArray j = false →
          s.jobInPair j = false → t.aborted j)
      ∧ ((s.work.jobs.map Job.id).Nodup → ∀ j x, s.job j = some x → x.inst ≠ i → t.job j = some x) := by
  obtain ⟨write, flask, good⟩ := sysInst_command (by simp) acc
  have state : (s.instWrote i v 58).f SYS_INST.STATE i = 1 := (s.instWrote_state i v 58).trans (State.instCmdBad_state good)
  have tdi : (s.instWrote i v 58).tdiLocked i = s.tdiLocked i := by rw [State.tdiLocked, State.tdiLocked, s.instWrote_tdi i v 58]
  have set : (s.instWrote i v 58).fb SYS_INST.QUIESCE i = true :=
    s.wrote_w1s i _ SYS_INST.QUIESCE rfl (by simp [Reg.fieldsAt, Reg.fields, SYS_INST.QUIESCE]) (bit_withBit v 58)
  have before : Leaves [] (oneReg .sysInst i) s ((s.instWrote i v 58).toQuiesce i) :=
    (s.leaves_instWrote i v 58).trans (State.leaves_toQuiesce _ i)
  have raised := State.toQuiesce_quiesce _ i set
  have error := State.toQuiesce_tdi (s.instWrote i v 58) i
  have run : exec (.quiesce m i v) s = .next (((s.instWrote i v 58).toQuiesce i).startQuiesce i) := by
    rw [exec_quiesce, execQuiesce, isInst, decide_eq_true hi, unit_true, write, State.instCmd_quiesce _ i state]
  rw [tdi] at error
  revert run before raised error
  generalize (s.instWrote i v 58).toQuiesce i = u
  intro before raised error run
  have jobs : u.work.jobs = s.work.jobs := before.1 .jobs (by simp)
  refine ⟨_, run, u.startQuiesce_state i, ?_, fun locked => ?_, fun q hq => u.startQuiesce_queues i hq,
    fun j x held mine open_ op arrays pairs => ?_, fun distinct j x held other => ?_⟩
  · rw [State.fb_eq, u.startQuiesce_sysInst i SYS_INST.QUIESCE rfl (by decide), ← State.fb_eq, raised]
  · rw [u.startQuiesce_sysInst i SYS_INST.TDI rfl (by decide), error locked]
  · refine u.startQuiesce_aborts i ((State.job_of_jobs jobs j).trans held) mine open_ op ⟨?_, ?_⟩
    · rw [← arrays, State.jobOnArray, State.jobOnArray]
      simp only [before.arr_same (show Part.arrays ∉ _ by simp)]
    · rw [← pairs, State.jobInPair, State.jobInPair, before.1 .pairs (by simp)]
  · exact u.startQuiesce_others i (by rw [jobs]; exact distinct) ((State.job_of_jobs jobs j).trans held) other

theorem quiesceDone_finishes (hi : i < 256) (state : s.f SYS_INST.STATE i = 2) (drained : s.draining i = false) :
    ∃ t, exec (.quiesceDone i) s = .next t
      ∧ (s.instJobs i = [] → t.f SYS_INST.STATE i = 3 ∧ t.fb SYS_INST.QUIESCE i = false)
      ∧ (s.instJobs i ≠ [] → t.f SYS_INST.STATE i = 2)
      ∧ (∀ j x, s.job j = some x → x.inst = i → t.hasEnded j)
      ∧ Leaves [.jobs] (oneReg .sysInst i) s t := by
  have jobs : Leaves [.jobs] (oneReg .sysInst i) s (s.jobsAborted i) := (s.leaves_jobsAborted i).mono (by simp) fun _ _ no => no.elim
  have none := s.jobsAborted_instJobs i
  have ended := fun j x => s.jobsAborted_ends i (j := j) (x := x)
  have run := quiesceDone_ends s i hi state drained
  have two : (s.jobsAborted i).f SYS_INST.STATE i = 2 := ((s.leaves_jobsAborted i).f_same _ _ id).trans state
  revert jobs none ended run two
  generalize s.jobsAborted i = u
  intro jobs none ended run two
  by_cases empty : s.instJobs i = []
  · rw [none.2 empty, if_pos (by simp)] at run
    refine ⟨_, run, fun _ => ⟨State.setF_f_width _ _ _ _ 4 (by decide) rfl, ?_⟩, fun no => absurd empty no, fun j x held mine => ?_,
      .setF (.setF jobs ⟨rfl, rfl⟩) ⟨rfl, rfl⟩⟩
    · rw [State.fb_eq, State.setF_f_apart _ _ _ _ _ _ (by decide) (by decide), State.setF_f_same _ _ _ _ (by decide), Nat.zero_mod]
      rfl
    · have mem : x ∈ s.instJobs i := List.mem_filter.2 ⟨List.mem_of_find?_eq_some held, by simpa using mine⟩
      rw [empty] at mem
      cases mem
  · have left : u.instJobs i ≠ [] := fun no => empty (none.1 no)
    rw [if_neg (by simpa using left)] at run
    exact ⟨u, run, fun no => absurd no empty, fun _ => two, ended, jobs⟩

/-! ## RESUME, RESET, REMOVE and SPILL_ALL -/

theorem resume_resumes (hi : i < 256) (acc : s.accepts .sysInst i m .whole (withBit v 57)) :
    ∃ t, exec (.resume m i v) s = .next t ∧ t.f SYS_INST.STATE i = 1 ∧ t.fb SYS_INST.RESUME i = false
      ∧ (∀ q ∈ instQueues i, if (s.q q).preQuiesce = 3 ∨ s.f SPR_QSTAT.STATE q = 3 then t.f SPR_QSTAT.STATE q = 3
          else t.f SPR_QSTAT.STATE q ≤ 2)
      ∧ Leaves [.sprue] (fun r k => (r = .sysInst ∧ k = i) ∨ (r = .sprQstat ∧ k ∈ instQueues i)) s t := by
  obtain ⟨write, -⟩ := sysInst_command (by simp) acc
  have run : exec (.resume m i v) s = .next ((s.instWrote i v 57).resumeInst i) := by
    rw [exec_resume, execResume, isInst, decide_eq_true hi, unit_true, write]
    rfl
  have wrote := s.leaves_instWrote i v 57
  have before : Leaves [] (oneReg .sysInst i) s (((s.instWrote i v 57).setF SYS_INST.RESUME i 0).setF SYS_INST.STATE i 1) :=
    .setF (.setF wrote ⟨rfl, rfl⟩) ⟨rfl, rfl⟩
  have after : Leaves [.sprue] (fun r k => r = .sprQstat ∧ k ∈ instQueues i)
      (((s.instWrote i v 57).setF SYS_INST.RESUME i 0).setF SYS_INST.STATE i 1) ((s.instWrote i v 57).resumeInst i) :=
    State.each_keeps (P := Leaves [.sprue] (fun r k => r = .sprQstat ∧ k ∈ instQueues i) _) (.refl _ _ _)
      fun t n hn h => h.into t.leaves_resumeQueue (by simp) fun r k e => ⟨e.1, e.2 ▸ hn⟩
  have inst : ∀ x : Fld, x.reg = .sysInst → ((s.instWrote i v 57).resumeInst i).f x i
      = (((s.instWrote i v 57).setF SYS_INST.RESUME i 0).setF SYS_INST.STATE i 1).f x i := fun x hx => after.f_same x i (by simp [hx])
  refine ⟨_, run, ?_, ?_, fun q hq => ?_, ?_⟩
  · rw [inst _ rfl]
    exact State.setF_f_width _ _ _ _ 4 (by decide) rfl
  · rw [State.fb_eq, inst _ rfl, State.setF_f_apart _ _ _ _ _ _ (by decide) (by decide), State.setF_f_same _ _ _ _ (by decide),
      Nat.zero_mod]
    rfl
  · obtain ⟨-, error, low⟩ := State.resumeQueues_resumes (((s.instWrote i v 57).setF SYS_INST.RESUME i 0).setF SYS_INST.STATE i 1) hq
    have same : (((s.instWrote i v 57).setF SYS_INST.RESUME i 0).setF SYS_INST.STATE i 1).staysInError q ↔ s.staysInError q := by
      rw [State.staysInError, State.staysInError, before.f_same SPR_QSTAT.STATE q (by simp [oneReg, SPR_QSTAT.STATE]), State.q, State.q,
        before.1 .queues (by simp)]
    rw [same] at error low
    split
    · next h => exact error h
    · next h => exact low h
  · exact (wrote.mono (by simp) fun _ _ e => .inl e).trans (State.leaves_resumeInst _ i)

theorem WorkGone.before {t u : State} (before : Leaves [] (oneReg .sysInst i) s u) (h : WorkGone i u t) :
    (∀ k, s.f ATT_IFRAMES.RC_BASE i ≤ k → k < s.f ATT_IFRAMES.RC_BASE i + s.f ATT_IFRAMES.FRAMES i → NMap.get t.work.refc 0 k = 0)
      ∧ t.work.jobs = s.work.jobs ∧ t.mem.cells = s.mem.cells := by
  refine ⟨fun k lo hi => h.counts k ?_ ?_, (h.leaves.1 .jobs (by simp)).trans (before.1 .jobs (by simp)),
    (h.leaves.1 .cells (by simp)).trans (before.1 .cells (by simp))⟩
  · rwa [before.f_same ATT_IFRAMES.RC_BASE i (by simp [oneReg, ATT_IFRAMES.RC_BASE])]
  · rwa [before.f_same ATT_IFRAMES.RC_BASE i (by simp [oneReg, ATT_IFRAMES.RC_BASE]),
      before.f_same ATT_IFRAMES.FRAMES i (by simp [oneReg, ATT_IFRAMES.FRAMES])]

theorem WorkGone.sysInst {t : State} (h : WorkGone i s t) (x : Fld) (hx : x.reg = .sysInst) : t.f x i = s.f x i :=
  h.leaves.f_same x i (by simp [hx])

theorem instanceReset_resets (hi : i < 256) (acc : s.accepts .sysInst i m .whole (withBit v 56)) :
    ∃ t, exec (.instanceReset m i v) s = .next t ∧ t.f SYS_INST.STATE i = 4 ∧ t.fb SYS_INST.RESET i = true
      ∧ ∃ u, Leaves [] (oneReg .sysInst i) s u ∧ WorkGone i u t := by
  obtain ⟨write, -⟩ := sysInst_command (by simp) acc
  have run : exec (.instanceReset m i v) s = .next (((s.instWrote i v 56).setF SYS_INST.STATE i 4).resetWork i) := by
    rw [exec_instanceReset, execInstanceReset, isInst, decide_eq_true hi, unit_true, write]
    rfl
  have gone := ((s.instWrote i v 56).setF SYS_INST.STATE i 4).resetWork_gone i
  refine ⟨_, run, ?_, ?_, _, .setF (s.leaves_instWrote i v 56) ⟨rfl, rfl⟩, gone⟩
  · rw [gone.sysInst _ rfl]
    exact State.setF_f_width _ _ _ _ 4 (by decide) rfl
  · rw [State.fb_eq, gone.sysInst _ rfl, State.setF_f_apart _ _ _ _ _ _ (by decide) (by decide), ← State.fb_eq]
    exact s.wrote_w1s i _ SYS_INST.RESET rfl (by simp [Reg.fieldsAt, Reg.fields, SYS_INST.RESET]) (bit_withBit v 56)

theorem instanceResetDone_finishes (hi : i < 256) (state : s.f SYS_INST.STATE i = 4) : ∃ t, exec (.instanceResetDone i) s = .next t
    ∧ t.f SYS_INST.STATE i = 1 ∧ t.fb SYS_INST.RESET i = false ∧ Leaves [] (oneReg .sysInst i) s t := by
  refine ⟨(s.setF SYS_INST.RESET i 0).setF SYS_INST.STATE i 1, ?_, State.setF_f_width _ _ _ _ 4 (by decide) rfl, ?_,
    .setF (.setF (.refl _ _ s) ⟨rfl, rfl⟩) ⟨rfl, rfl⟩⟩
  · rw [exec_instanceResetDone, execInstanceResetDone, isInst, decide_eq_true hi, unit_true, if_pos state]
  · rw [State.fb_eq, State.setF_f_apart _ _ _ _ _ _ (by decide) (by decide), State.setF_f_same _ _ _ _ (by decide), Nat.zero_mod]
    rfl

theorem instanceResetDone_waits (hi : i < 256) (state : s.f SYS_INST.STATE i ≠ 4) : exec (.instanceResetDone i) s = .next s := by
  rw [exec_instanceResetDone, execInstanceResetDone, isInst, decide_eq_true hi, unit_true, if_neg state]

theorem remove_removes (hi : i < 256) (acc : s.accepts .sysInst i m .whole (withBit v 55)) :
    ∃ t, exec (.remove m i v) s = .next t ∧ t.f SYS_INST.STATE i = 5 ∧ t.fb SYS_INST.REMOVE i = true
      ∧ ∃ u, Leaves [] (oneReg .sysInst i) s u ∧ WorkGone i u t := by
  obtain ⟨write, -⟩ := sysInst_command (by simp) acc
  have run : exec (.remove m i v) s = .next (((s.instWrote i v 55).setF SYS_INST.STATE i 5).resetWork i) := by
    rw [exec_remove, execRemove, isInst, decide_eq_true hi, unit_true, write]
    rfl
  have gone := ((s.instWrote i v 55).setF SYS_INST.STATE i 5).resetWork_gone i
  refine ⟨_, run, ?_, ?_, _, .setF (s.leaves_instWrote i v 55) ⟨rfl, rfl⟩, gone⟩
  · rw [gone.sysInst _ rfl]
    exact State.setF_f_width _ _ _ _ 4 (by decide) rfl
  · rw [State.fb_eq, gone.sysInst _ rfl, State.setF_f_apart _ _ _ _ _ _ (by decide) (by decide), ← State.fb_eq]
    exact s.wrote_w1s i _ SYS_INST.REMOVE rfl (by simp [Reg.fieldsAt, Reg.fields, SYS_INST.REMOVE]) (bit_withBit v 55)

theorem spillAll_spills (hi : i < 256) (acc : s.accepts .sysInst i m .whole (withBit v 54)) :
    ∃ t, exec (.spillAll m i v) s = .next t ∧ t.fb SYS_INST.SPILL_ALL i = false ∧ t.f SYS_INST.STATE i = 3
      ∧ (∀ k, (∀ p ∈ s.work.ctxs, p.1 = k → p.2.state ≠ 1 ∨ p.2.inst ≠ i ∨ p.2.spread = true) → t.ctx k = s.ctx k)
      ∧ (∀ k, t.ctx k = s.ctx k ∨ t.ctx k = {}) ∧ t.work.jobs = s.work.jobs := by
  obtain ⟨write, flask, good⟩ := sysInst_command (by simp) acc
  have run : exec (.spillAll m i v) s = .next ((s.instWrote i v 54).spillAll i) := by
    rw [exec_spillAll, execSpillAll, isInst, decide_eq_true hi, unit_true, write]
    rfl
  have state : (s.instWrote i v 54).f SYS_INST.STATE i = 3 := (s.instWrote_state i v 54).trans (State.instCmdBad_state good)
  have wrote := s.leaves_instWrote i v 54
  revert run state wrote
  generalize s.instWrote i v 54 = u
  intro run state wrote
  rw [State.spillAll_eq] at run
  have ctx : ∀ k, u.ctx k = s.ctx k := fun k => by rw [State.ctx, State.ctx, wrote.1 .ctxs (by simp)]
  have left := u.leaves_spilled i (u.toSpill i)
  refine ⟨_, run, ?_, ?_, fun k other => ?_, fun k => ?_, ?_⟩
  · rw [State.fb_eq, State.setF_f_same _ _ _ _ (by decide), Nat.zero_mod]
    rfl
  · rw [State.setF_f_apart _ _ _ _ _ _ (by decide) (by decide), left.f_same SYS_INST.STATE i (by simp [accessRegs, SYS_INST.STATE]), state]
  · rw [State.setF_ctx, u.spilled_keeps i _ k, ctx]
    intro p hp same
    obtain ⟨hp, mine⟩ := List.mem_filter.1 hp
    rw [wrote.1 .ctxs (by simp)] at hp
    have no := other p hp same
    simp at mine
    obtain ⟨⟨idle, inst⟩, here⟩ := mine
    rcases no with no | no | no
    · exact no idle
    · exact no inst
    · rw [no] at here
      cases here
  · rw [State.setF_ctx, ← ctx]
    exact u.spilled_ctx i _ k
  · rw [State.setF_work, left.1 .jobs (by simp [accessParts]), wrote.1 .jobs (by simp)]

end

/-- Settles O45: a write of one command bit of SYS_INST that is taken runs that command alone; the work of an instance ends or
is cleared over its lists of queues, jobs, contexts and lines. -/
theorem instancesLiveByTheirCommands : Obligations.InstancesLiveByTheirCommands := by
  unfold Obligations.InstancesLiveByTheirCommands
  refine ⟨fun s m i v hi acc => instanceCreate_creates hi acc, fun s m i v hi acc => quiesce_quiesces hi acc,
    fun s i hi state drained => quiesceDone_finishes hi state drained, fun s i hi h => quiesceDone_waits s i hi h,
    fun s m i v hi acc => resume_resumes hi acc, fun s m i v hi acc => ?_, fun s i hi state => instanceResetDone_finishes hi state,
    fun s i hi state => instanceResetDone_waits hi state, fun s m i v hi acc => ?_, fun s i hi state => ?_,
    fun s i hi state => removeDone_waits s i hi state, fun s m i v hi acc => spillAll_spills hi acc⟩
  · obtain ⟨t, run, state, set, u, before, gone⟩ := instanceReset_resets hi acc
    obtain ⟨counts, jobs, cells⟩ := gone.before before
    exact ⟨t, run, state, set, gone.queues, gone.tlb, gone.pool, gone.spilled, counts, jobs, cells⟩
  · obtain ⟨t, run, state, set, u, before, gone⟩ := remove_removes hi acc
    obtain ⟨-, -, cells⟩ := gone.before before
    exact ⟨t, run, state, set, fun q hq => (gone.queues q hq).1, gone.tlb, cells⟩
  · have after := s.removed_after i
    obtain ⟨free, removed, tdi⟩ := s.removed_fields i
    refine ⟨_, removeDone_removes s i hi state, free, removed, tdi, fun k hk mine => s.removed_unbound i hk mine, fun c hc mine => ?_,
      fun k hk => ?_, fun h hh dirty e he => ?_, ?_⟩
    · rw [after.1 .cache (by simp)] at hc
      exact s.cleanWays_clean _ hc mine
    · exact (State.byte_of_cells (after.1 .cells (by simp)) k).trans (s.cleanWays_bytes _ hk)
    · rw [after.1 .holders (by simp)] at hh
      exact s.cleanWays_flushes _ hh dirty he
    · exact ((s.leaves_cleanWays _).mono (List.Subset.refl _) fun _ _ no => no.elim).into after (by simp) fun _ _ e => e

end Sys2Proof.Machine
end

section
/-! PROOFS. The pages of mailbox channels, and requests of TDISP (R227) and calls of the monitor (R229). -/

set_option Elab.async false

namespace Sys2Proof.Machine

/-! ## Pages -/

theorem NMap.get_putMbx (m : NMap Byte) (a k : Nat) (bs : List Byte) :
    NMap.get (putMbx m a bs) 0 k = if a ≤ k ∧ k < a + bs.length then bs.getD (k - a) 0 else NMap.get m 0 k := by
  induction bs generalizing m a with
  | nil => rw [if_neg (by simp)]; rfl
  | cons b bs ih =>
    have step : putMbx m a (b :: bs) = putMbx (NMap.set m 0 a b) (a + 1) bs := rfl
    rw [step, ih, NMap.get_set, List.length_cons]
    by_cases here : k = a
    · rw [if_neg (by omega), if_pos here, if_pos (by omega), here, Nat.sub_self]
      rfl
    · rw [if_neg here]
      by_cases later : a + 1 ≤ k ∧ k < a + 1 + bs.length
      · rw [if_pos later, if_pos (by omega), show k - a = k - (a + 1) + 1 by omega]
        rfl
      · rw [if_neg later, if_neg (by omega)]

/-- A state whose mailbox pages hold bytes at an offset of a channel's page. -/
def State.paged (s : State) (ch off : Nat) (bs : List Byte) : State := { s with mem.mbx := putMbx s.mem.mbx (4096 * ch + off) bs }

section
variable (s : State) (ch off : Nat) (bs : List Byte)

theorem State.leaves_paged : Leaves [.mbx] noReg s (s.paged ch off bs) := .parts (.refl _ _ s)

theorem State.paged_bytes (n : Nat) (fits : n ≤ bs.length) : (s.paged ch off bs).mbxBytes ch off n = bs.take n := by
  refine List.ext_getElem (by simp [State.mbxBytes, fits]) fun k lo hi => ?_
  have small : k < n := by simpa [State.mbxBytes] using lo
  have page : (s.paged ch off bs).mem.mbx = putMbx s.mem.mbx (4096 * ch + off) bs := rfl
  simp only [State.mbxBytes, List.getElem_map, List.getElem_range, List.getElem_take, page, NMap.get_putMbx]
  rw [if_pos (by omega), show 4096 * ch + off + k - (4096 * ch + off) = k by omega, List.getD_eq_getElem?_getD,
    List.getElem?_eq_getElem (by omega)]
  rfl

end

/-! ## TDISP -/

section
variable {s : State} {p vf i : Nat}

theorem isVf_true (hp : p < 2) (hv : vf < 256) : isVf p vf = true := by
  rw [isVf, decide_eq_true hp, decide_eq_true hv]
  rfl

/-- No other active instance shares the flask. -/
def State.alone (s : State) (i : Nat) : Bool :=
  !(List.range 256).any fun k => k != i && s.f SYS_INST.STATE k != 0 && s.instFlask k == s.instFlask i

theorem State.alone_true (h : ∀ k, k < 256 → k ≠ i → s.f SYS_INST.STATE k = 0 ∨ s.instFlask k ≠ s.instFlask i) :
    s.alone i = true := by
  rw [State.alone, Bool.not_eq_true', List.any_eq_false]
  intro k hk busy
  simp at busy
  obtain ⟨⟨ne, active⟩, same⟩ := busy
  rcases h k (by simpa using hk) ne with no | no
  · exact active no
  · exact no same

theorem State.lockRequest_bound (bound : s.boundTo p vf = some i) : s.lockRequest p vf
    = if s.alone i && s.f SYS_INST.TDI i == 1 then (s.lockTdi i).emit (.spdm (vfNo p vf) true [])
      else s.emit (.spdm (vfNo p vf) false []) := by
  unfold State.lockRequest
  rw [bound]
  rfl

/-- A refused request changes nothing but what has left the device. -/
theorem State.leaves_emit (o : Out) : Leaves [.outbox] noReg s (s.emit o) := .emit (.refl _ _ s)

theorem State.lockTdi_locks (s : State) (i : Nat) : (s.lockTdi i).f SYS_INST.TDI i = 2
    ∧ NMap.find (s.lockTdi i).sys.trust.tdiSnap i = some (ctxWords (s.readDc (s.instFlask i) i).1)
    ∧ Leaves (.trust :: accessParts) (fun r k => accessRegs r k ∨ (r = .sysInst ∧ k = i)) s (s.lockTdi i) := by
  have acc := accessed_readDc s (s.instFlask i) i
  unfold State.lockTdi
  generalize s.readDc (s.instFlask i) i = d at acc ⊢
  obtain ⟨dc, s1⟩ := d
  refine ⟨?_, ?_, ?_⟩
  · rw [State.modTrust_f]
    exact State.setF_f_width s1 SYS_INST.TDI i 2 3 (by decide) rfl
  · rw [State.modTrust_trust]
    exact (NMap.find_insert _ i i _).trans (if_pos rfl)
  · exact .modTrust (.setF (acc.mono (by simp) fun _ _ e => .inl e) (.inr ⟨rfl, rfl⟩))

theorem lockInterfaceRequest_locks (hp : p < 2) (hv : vf < 256) (up : s.crucibleUp = true) (bound : s.boundTo p vf = some i)
    (alone : ∀ k, k < 256 → k ≠ i → s.f SYS_INST.STATE k = 0 ∨ s.instFlask k ≠ s.instFlask i) (tdi : s.f SYS_INST.TDI i = 1) :
    ∃ t, exec (.lockInterfaceRequest p vf) s = .next t ∧ t.f SYS_INST.TDI i = 2
      ∧ t.outbox.head? = some (.spdm (vfNo p vf) true [])
      ∧ NMap.find t.sys.trust.tdiSnap i = some (ctxWords (s.readDc (s.instFlask i) i).1)
      ∧ Leaves (.trust :: accessParts) (fun r k => accessRegs r k ∨ (r = .sysInst ∧ k = i)) s t := by
  have run : exec (.lockInterfaceRequest p vf) s = .next ((s.lockTdi i).emit (.spdm (vfNo p vf) true [])) := by
    rw [exec_lockInterfaceRequest, execLockInterfaceRequest, isVf_true hp hv, unit_true, if_pos up, State.lockRequest_bound bound,
      State.alone_true alone, if_pos (by rw [tdi]; rfl)]
  obtain ⟨tdi, snap, leaves⟩ := s.lockTdi_locks i
  refine ⟨_, run, ?_, rfl, ?_, .emit leaves (by simp [accessParts])⟩
  · rw [State.emit_f, tdi]
  · rw [State.emit_sys, snap]

theorem lockInterfaceRequest_refuses (hp : p < 2) (hv : vf < 256) (up : s.crucibleUp = true)
    (h : s.boundTo p vf = none ∨ ∃ i, s.boundTo p vf = some i ∧ s.f SYS_INST.TDI i ≠ 1) :
    exec (.lockInterfaceRequest p vf) s = .next (s.emit (.spdm (vfNo p vf) false [])) := by
  rw [exec_lockInterfaceRequest, execLockInterfaceRequest, isVf_true hp hv, unit_true, if_pos up]
  rcases h with none | ⟨i, bound, tdi⟩
  · unfold State.lockRequest
    rw [none]
  · rw [State.lockRequest_bound bound, if_neg (by simp [tdi])]

theorem startInterfaceRequest_runs (hp : p < 2) (hv : vf < 256) (up : s.crucibleUp = true) (bound : s.boundTo p vf = some i) :
    exec (.startInterfaceRequest p vf) s = .next (if s.f SYS_INST.TDI i = 2
      then (s.setF SYS_INST.TDI i 3).emit (.spdm (vfNo p vf) true []) else s.emit (.spdm (vfNo p vf) false [])) := by
  rw [exec_startInterfaceRequest, execStartInterfaceRequest, isVf_true hp hv, unit_true, if_pos up, State.startRequest, bound]

theorem getDeviceInterfaceReport_answers (hp : p < 2) (hv : vf < 256) (up : s.crucibleUp = true) (bound : s.boundTo p vf = some i) :
    exec (.getDeviceInterfaceReport p vf) s = .next (if s.tdiLocked i
      then s.emit (.spdm (vfNo p vf) true (natBytes s.unitReport)) else s.emit (.spdm (vfNo p vf) false [])) := by
  rw [exec_getDeviceInterfaceReport, execGetDeviceInterfaceReport, isVf_true hp hv, unit_true, if_pos up, State.tdiReport, bound]

theorem tdisp_waits (hp : p < 2) (hv : vf < 256) (up : s.crucibleUp = false) : exec (.lockInterfaceRequest p vf) s = .next s
    ∧ exec (.startInterfaceRequest p vf) s = .next s ∧ exec (.getDeviceInterfaceReport p vf) s = .next s := by
  rw [exec_lockInterfaceRequest, execLockInterfaceRequest, exec_startInterfaceRequest, execStartInterfaceRequest,
    exec_getDeviceInterfaceReport, execGetDeviceInterfaceReport, isVf_true hp hv, unit_true, unit_true, unit_true, up]
  exact ⟨rfl, rfl, rfl⟩

end

/-! ## Calls of the monitor -/

section
variable {s : State} {core : Nat} {a7 : Word} {args : List Word}

theorem monitorCall_serves (hc : core < 16) (six : args.length = 6) (on : s.sys.power.mode = .on) (entry : s.sys.power.entry = 1)
    (call : a7.toNat = 0x47570001) : exec (.monitorCall core a7 args) s = .next (s.monitorServe core args) := by
  rw [exec_monitorCall, execMonitorCall, decide_eq_true hc, six, beq_self_eq_true, Bool.and_true, unit_true, entry, call, on]
  rfl

theorem monitorCall_ignored (hc : core < 16) (six : args.length = 6) (h : s.sys.power.entry ≠ 1 ∨ a7.toNat ≠ 0x47570001) :
    exec (.monitorCall core a7 args) s = .next s := by
  rw [exec_monitorCall, execMonitorCall, decide_eq_true hc, six, beq_self_eq_true, Bool.and_true, unit_true, if_neg]
  rcases h with no | no <;> simp [no]

theorem State.respond_call (st : Nat) (bs : List Byte) : s.respond (monitorChan core) st bs = s.respondCall core st := by
  rw [State.respond, if_neg (by rw [monitorChan]; omega), monitorChan, Nat.add_sub_cancel_left]

theorem State.respondCall_restarting : ∃ a1, (s.respondCall core mbRestarting).outbox = .monitorReply core mbRestarting a1 :: s.outbox
    ∧ Leaves [.freeCtr, .outbox] noReg s (s.respondCall core mbRestarting) :=
  ⟨_, rfl, .emit (.fresh (.refl _ _ s))⟩

theorem State.respondCall_other {st : Nat} (h : st ≠ mbRestarting) : ∃ a0 a1,
    (s.respondCall core st).outbox = .monitorReply core a0 a1 :: s.outbox
      ∧ Leaves [.freeCtr, .outbox] noReg s (s.respondCall core st) := by
  unfold State.respondCall
  dsimp only
  rw [if_neg h]
  exact ⟨_, _, rfl, .emit (.fresh (.fresh (.refl _ _ s)))⟩

theorem State.respondCall_mbx (st : Nat) : (s.respondCall core st).mem.mbx = s.mem.mbx := by
  unfold State.respondCall
  dsimp only
  split <;> rfl

/-- The page in which a call is served: its message to the Crucible. -/
def callPage (msg : Nat) (bs : List Byte) : List Byte :=
  toLE 8 (2 ^ 56 + 2 * 2 ^ 40 + msg % 2 ^ 16 * 2 ^ 16) ++ toLE 8 (bs.length * 2 ^ 48) ++ bs.take 2016

theorem State.monitorServe_message {msg : Nat} {bs : List Byte} (call : Config.monitorMsg args = some (msg, bs)) :
    s.monitorServe core args = match (s.paged (monitorChan core) 0 (callPage msg bs)).msgServe .manager (monitorChan core) true with
      | (.now st _, s1) => { s1 with mem.mbx := s.mem.mbx }.respond (monitorChan core) st []
      | (.busy _, s1) => { s1 with mem.mbx := s.mem.mbx }
      | (.later, s1) => { s1 with mem.mbx := s.mem.mbx } := by
  unfold State.monitorServe
  rw [call]
  rfl

theorem State.callPage_target (msg : Nat) (bs : List Byte) : (s.paged core 0 (callPage msg bs)).mbxTarget core = 2 := by
  have word : (s.paged core 0 (callPage msg bs)).mbxW0 core = 2 ^ 56 + 2 * 2 ^ 40 + msg % 2 ^ 16 * 2 ^ 16 := by
    have take : (callPage msg bs).take 8 = toLE 8 (2 ^ 56 + 2 * 2 ^ 40 + msg % 2 ^ 16 * 2 ^ 16) := by
      rw [callPage, List.append_assoc, List.take_left' (length_toLE _ _)]
    rw [State.mbxW0, s.paged_bytes core 0 _ 8 (by simp [callPage, length_toLE]), take, leNat_toLE]
    have : msg % 2 ^ 16 < 2 ^ 16 := Nat.mod_lt _ (by decide)
    omega
  rw [State.mbxTarget, word, bits]
  have : msg % 2 ^ 16 < 2 ^ 16 := Nat.mod_lt _ (by decide)
  omega

theorem State.msgServe_restarting {ch : Nat} {m : Master} {ok : Bool} (lo : 1 ≤ s.mbxTarget ch) (hi : s.mbxTarget ch ≤ 6)
    (down : (s.fwp (s.mbxTarget ch)).running = false) : s.msgServe m ch ok = (.now mbRestarting [], s) := by
  unfold State.msgServe
  dsimp only
  rw [if_neg (by simp; omega), down]
  rfl

theorem State.monitorServe_down (down : (s.fwp 2).running = false) : s.monitorServe core args = s.respondCall core mbRestarting := by
  cases call : Config.monitorMsg args with
  | none =>
    unfold State.monitorServe
    rw [call]
    dsimp only
    rw [State.respond_call, down]
    rfl
  | some c =>
    obtain ⟨msg, bs⟩ := c
    have target : (s.paged (monitorChan core) 0 (callPage msg bs)).mbxTarget (monitorChan core) = 2 := State.callPage_target msg bs
    rw [State.monitorServe_message call, State.msgServe_restarting (by rw [target]; decide) (by rw [target]; decide)
      (by rw [target]; exact down)]
    exact State.respond_call mbRestarting []

theorem State.monitorServe_none (call : Config.monitorMsg args = none) (running : (s.fwp 2).running = true) :
    s.monitorServe core args = s.respondCall core mbBadMsg := by
  unfold State.monitorServe
  rw [call]
  dsimp only
  rw [State.respond_call, running]
  rfl

theorem State.monitorServe_mbx : (s.monitorServe core args).mem.mbx = s.mem.mbx := by
  cases call : Config.monitorMsg args with
  | none =>
    unfold State.monitorServe
    rw [call]
    exact (congrArg (fun u : State => u.mem.mbx) (State.respond_call _ _)).trans (State.respondCall_mbx _)
  | some c =>
    rw [State.monitorServe_message call]
    split
    · rw [State.respond_call, State.respondCall_mbx]
    · rfl
    · rfl

end

end Sys2Proof.Machine
end

section
/-! PROOFS. Sessions, keys and debug consent (R231, R232, R236). -/

set_option Elab.async false

namespace Sys2Proof.Machine

/-! ## Key slots -/

/-- The key that a list of delivered keys holds under a tenant and a KEY_ID. -/
def heldIn (ks : List HeldKey) (tenant keyId : Nat) : Option HeldKey := ks.find? fun k => k.tenant == tenant && k.pol.keyId == keyId

theorem heldIn_names {ks : List HeldKey} {n i : Nat} {k : HeldKey} (h : heldIn ks n i = some k) : k.tenant = n ∧ k.pol.keyId = i := by
  simpa using List.find?_some h

/-- A flask without the slots whose key a test selects. -/
def FlaskSt.emptied (x : FlaskSt) (ks : List HeldKey) (g : HeldKey → Bool) : FlaskSt :=
  { x with slots := x.slots.filter fun e => !(heldIn ks e.2.tenant e.2.keyId).any g }

section
variable (s : State)

theorem State.heldKey_in (n i : Nat) : s.heldKey n i = heldIn s.sys.trust.keys n i := (rfl)

theorem State.leaves_emptySlots (f : Option Nat) (g : HeldKey → Bool) : Leaves [.flasks] noReg s (s.emptySlots f g) :=
  .over (.refl _ _ s) fun _ _ h => h.modFlask

theorem State.emptySlots_flask (f : Option Nat) (g : HeldKey → Bool) (k : Nat) :
    (s.emptySlots f g).flask k = if k < 8 ∧ f.all (fun x => x == k) = true then (s.flask k).emptied s.sys.trust.keys g else s.flask k := by
  have distinct : ((List.range 8).filter fun k => f.all fun x => x == k).Nodup := List.nodup_range.filter _
  obtain ⟨hit, missed⟩ := State.each_units (v := fun (u : State) (a : Nat) => (u.flask a, u.sys.trust.keys))
    (g := fun u k => u.modFlask k fun x => { x with slots := x.slots.filter fun e => !(u.heldKey e.2.tenant e.2.keyId).any g })
    (P := fun x y => y.1 = x.1.emptied x.2 g) (fun u a b ne => by rw [State.modFlask_flask, if_neg ne]; rfl)
    (fun u a => by rw [State.modFlask_flask, if_pos rfl]; rfl) distinct s k
  have listed : k ∈ ((List.range 8).filter fun k => f.all fun x => x == k) ↔ k < 8 ∧ f.all (fun x => x == k) = true := by
    rw [List.mem_filter, List.mem_range]
  split
  · next h => exact hit (listed.2 h)
  · next h => exact congrArg Prod.fst (missed fun m => h (listed.1 m))

theorem FlaskSt.mem_emptied (x : FlaskSt) (ks : List HeldKey) (g : HeldKey → Bool) (e : Nat × KeySlot) :
    e ∈ (x.emptied ks g).slots ↔ e ∈ x.slots ∧ ∀ k, heldIn ks e.2.tenant e.2.keyId = some k → g k = false := by
  rw [FlaskSt.emptied, List.mem_filter]
  cases heldIn ks e.2.tenant e.2.keyId <;> simp

end

/-! ## Sessions and keys -/

section
variable {s : State} {n i : Nat}

theorem keyExchange_opens (up : s.crucibleUp = true) : ∃ t, exec (.keyExchange n) s = .next t
    ∧ t.session n = some s.sys.trust.nextSession ∧ t.sys.trust.nextSession = s.sys.trust.nextSession + 1
    ∧ (∀ m, m ≠ n → t.session m = s.session m) ∧ t.sys.trust.keys = s.sys.trust.keys
    ∧ t.outbox = .spdm n true [] :: s.outbox ∧ Leaves [.outbox, .trust] noReg s t := by
  have run : exec (.keyExchange n) s = .next ((s.modTrust fun t =>
      { t with sessions := NMap.insert t.sessions n t.nextSession, nextSession := t.nextSession + 1 }).emit (.spdm n true [])) := by
    rw [exec_keyExchange, execKeyExchange, if_pos up]
  refine ⟨_, run, ?_, rfl, fun m hm => ?_, rfl, rfl, .emit (.modTrust (.refl _ _ s))⟩
  · exact (NMap.find_insert _ n n _).trans (if_pos rfl)
  · exact (NMap.find_insert _ n m _).trans (if_neg hm)

/-- A key as it is delivered. -/
abbrev State.deliveredKey (s : State) (n v : Nat) (p : KeyPolicy) : HeldKey := { tenant := n, session := v, pol := p, digests := s.digests }

theorem heldIn_append_new {ks : List HeldKey} {k : HeldKey} (fresh : heldIn ks k.tenant k.pol.keyId = none) :
    heldIn (ks ++ [k]) k.tenant k.pol.keyId = some k := by
  rw [heldIn, List.find?_append]
  rw [heldIn] at fresh
  simp [fresh]

theorem heldIn_append_other {ks : List HeldKey} {k : HeldKey} {m j : Nat} (other : m ≠ k.tenant ∨ j ≠ k.pol.keyId) :
    heldIn (ks ++ [k]) m j = heldIn ks m j := by
  rw [heldIn, List.find?_append, heldIn, List.find?_singleton, if_neg, Option.or_none]
  intro same
  simp at same
  rcases other with no | no
  · exact no same.1.symm
  · exact no same.2.symm

variable {p : KeyPolicy}

theorem keyDeliver_keeps {v : Nat} (up : s.crucibleUp = true) (session : s.session n = some v) (flask : p.flask < 8)
    (room : s.sys.trust.keys.length < 1024) (fresh : s.heldKey n p.keyId = none) :
    ∃ t, exec (.keyDeliver n p) s = .next t ∧ t.sys.trust.keys = s.sys.trust.keys ++ [s.deliveredKey n v p]
      ∧ t.heldKey n p.keyId = some (s.deliveredKey n v p)
      ∧ (∀ m i, (m ≠ n ∨ i ≠ p.keyId) → t.heldKey m i = s.heldKey m i) ∧ t.sys.trust.sessions = s.sys.trust.sessions
      ∧ t.outbox = .spdm n true [] :: s.outbox ∧ Leaves [.outbox, .trust] noReg s t := by
  have run : exec (.keyDeliver n p) s = .next ((s.modTrust fun t => { t with keys := t.keys ++ [s.deliveredKey n v p] }).emit
      (.spdm n true [])) := by
    rw [exec_keyDeliver, execKeyDeliver, if_pos up, State.keyDeliver, session]
    dsimp only
    rw [if_neg]
    simp [isFlask, flask, room, fresh]
  refine ⟨_, run, rfl, ?_, fun m j other => ?_, rfl, rfl, .emit (.modTrust (.refl _ _ s))⟩
  · exact heldIn_append_new (k := s.deliveredKey n v p) fresh
  · exact heldIn_append_other (k := s.deliveredKey n v p) other

theorem keyDeliver_refuses (up : s.crucibleUp = true)
    (bad : s.session n = none ∨ 8 ≤ p.flask ∨ 1024 ≤ s.sys.trust.keys.length ∨ (s.heldKey n p.keyId).isSome = true) :
    exec (.keyDeliver n p) s = .next (s.emit (.spdm n false [])) := by
  rw [exec_keyDeliver, execKeyDeliver, if_pos up, State.keyDeliver]
  cases session : s.session n with
  | none => rfl
  | some v =>
    rw [session] at bad
    dsimp only
    rw [if_pos]
    rcases bad with no | far | full | held
    · cases no
    · simp [isFlask, Nat.not_lt.2 far]
    · simp [full]
    · simp [held]

variable {k : Nat}

/-- A key of the tenant. -/
abbrev ownKey (n k : Nat) (x : HeldKey) : Bool := x.tenant == n && x.pol.keyId == k

theorem heldIn_revoked (ks : List HeldKey) (n k : Nat) : heldIn (ks.filter fun x => !ownKey n k x) n k = none := by
  rw [heldIn, List.find?_eq_none]
  intro x hx mine
  have other := (List.mem_filter.1 hx).2
  rw [ownKey, mine] at other
  cases other

theorem heldIn_others (ks : List HeldKey) {n k m j : Nat} (other : m ≠ n ∨ j ≠ k) :
    heldIn (ks.filter fun x => !ownKey n k x) m j = heldIn ks m j := by
  rw [heldIn, heldIn, List.find?_filter]
  congr 1
  funext x
  by_cases mine : ownKey m j x = true
  · simp only [ownKey, Bool.and_eq_true, beq_iff_eq] at mine
    obtain ⟨rfl, rfl⟩ := mine
    simpa [ownKey, ← imp_iff_not_or] using other
  · simp only [ownKey, Bool.not_eq_true] at mine
    simp [mine]

theorem keyRevoke_revokes (up : s.crucibleUp = true) (session : (s.session n).isSome = true) (held : (s.heldKey n k).isSome = true) :
    ∃ t, exec (.keyRevoke n k) s = .next t
      ∧ t.heldKey n k = none ∧ (∀ m i, (m ≠ n ∨ i ≠ k) → t.heldKey m i = s.heldKey m i)
      ∧ (∀ f, f < 8 → ∀ e, e ∈ (t.flask f).slots ↔ e ∈ (s.flask f).slots ∧ ¬(e.2.tenant = n ∧ e.2.keyId = k))
      ∧ t.outbox = .spdm n true [] :: s.outbox ∧ Leaves [.flasks, .outbox, .trust] noReg s t := by
  have emptied := s.leaves_emptySlots none (ownKey n k)
  have flasks := s.emptySlots_flask none (ownKey n k)
  have run : exec (.keyRevoke n k) s = .next (((s.emptySlots none (ownKey n k)).modTrust fun t =>
      { t with keys := t.keys.filter fun x => !ownKey n k x }).emit (.spdm n true [])) := by
    rw [exec_keyRevoke, execKeyRevoke, if_pos up, State.keyRevoke, if_neg (by simp [Option.isSome_iff_ne_none.1 session,
      Option.isSome_iff_ne_none.1 held])]
  revert run emptied flasks
  generalize s.emptySlots none (ownKey n k) = u
  intro emptied flasks run
  have keys : u.sys.trust.keys = s.sys.trust.keys := congrArg TrustSt.keys (emptied.1 .trust (by simp))
  refine ⟨_, run, ?_, fun m j other => ?_, fun f hf e => ?_, ?_, .emit (.modTrust (emptied.mono (by simp) fun _ _ no => no))⟩
  · exact heldIn_revoked _ n k
  · refine (heldIn_others u.sys.trust.keys other).trans ?_
    rw [keys]
    rfl
  · rw [State.emit_flask, State.modTrust_flask, flasks f, if_pos ⟨hf, rfl⟩, FlaskSt.mem_emptied]
    refine and_congr_right fun _ => ⟨fun none ⟨tenant, key⟩ => ?_, fun other x hx => ?_⟩
    · obtain ⟨x, hx⟩ := Option.isSome_iff_exists.1 held
      have mine := none x (by rw [tenant, key]; exact hx)
      obtain ⟨rfl, rfl⟩ := heldIn_names hx
      simp [ownKey] at mine
    · obtain ⟨tenant, key⟩ := heldIn_names hx
      rw [ownKey, tenant, key]
      simpa using other
  · rw [State.emit_outbox, State.modTrust_outbox, emptied.1 .outbox (by simp)]

theorem keyRevoke_refuses (up : s.crucibleUp = true) (bad : (s.session n).isNone = true ∨ (s.heldKey n k).isNone = true) :
    exec (.keyRevoke n k) s = .next (s.emit (.spdm n false [])) := by
  rw [exec_keyRevoke, execKeyRevoke, if_pos up, State.keyRevoke, if_pos]
  rcases bad with no | no <;> simp [no]

/-! ## Debug consent -/

variable {f sc dev hour key dig : Nat} {ok : Bool}

theorem consentInstall_installs (hf : f < 8) (up : s.crucibleUp = true) (signed : s.consentKey n key = true) (some_ : sc % 4 ≠ 0) :
    ∃ t, exec (.consentInstall n f sc s.sys.trust.deviceId hour key dig true) s = .next t
      ∧ (t.flask f).consent = some { scope := sc, lastHour := hour, digest := dig }
      ∧ (∀ e, e ∈ (t.flask f).slots ↔ e ∈ (s.flask f).slots
          ∧ ∀ k, s.heldKey e.2.tenant e.2.keyId = some k → k.pol.debugOk = true)
      ∧ t.outbox = .spdm n true [] :: s.outbox
      ∧ (∀ g, g ≠ f → t.flask g = s.flask g) ∧ Leaves [.flasks, .outbox] noReg s t := by
  let u := s.modFlask f fun x => { x with consent := some { scope := sc, lastHour := hour, digest := dig } }
  have run : exec (.consentInstall n f sc s.sys.trust.deviceId hour key dig true) s
      = .next ((u.emptySlots (some f) fun p => !p.pol.debugOk).emit (.spdm n true [])) := by
    rw [exec_consentInstall, execConsentInstall, if_pos up, State.consentInstall, if_neg (by simp [signed, isFlask, hf]), if_neg some_]
  have own : (u.emptySlots (some f) fun p => !p.pol.debugOk).flask f
      = (u.flask f).emptied u.sys.trust.keys fun p => !p.pol.debugOk := by
    rw [u.emptySlots_flask, if_pos ⟨hf, by simp⟩]
  have here : u.flask f = { s.flask f with consent := some { scope := sc, lastHour := hour, digest := dig } } := by
    rw [State.modFlask_flask, if_pos rfl]
  have emptied := u.leaves_emptySlots (some f) fun p => !p.pol.debugOk
  refine ⟨_, run, ?_, fun e => ?_, ?_, fun g ne => ?_, .emit (((Leaves.modFlask (.refl _ _ s)).trans emptied).mono (by simp) fun _ _ no => no)⟩
  · rw [State.emit_flask, own, here]
    rfl
  · rw [State.emit_flask, own, FlaskSt.mem_emptied, here]
    refine and_congr_right fun _ => forall_congr' fun k => imp_congr Iff.rfl ?_
    simp
  · rw [State.emit_outbox, emptied.1 .outbox (by simp), State.modFlask_outbox]
  · rw [State.emit_flask, u.emptySlots_flask, if_neg (by simpa using fun _ => Ne.symm ne), State.modFlask_flask, if_neg ne]

theorem consentInstall_ends (hf : f < 8) (up : s.crucibleUp = true) (signed : s.consentKey n key = true) (empty : sc % 4 = 0) :
    exec (.consentInstall n f sc s.sys.trust.deviceId hour key dig true) s
      = .next ((s.modFlask f fun x => { x with consent := none }).emit (.spdm n true [])) := by
  rw [exec_consentInstall, execConsentInstall, if_pos up, State.consentInstall, if_neg (by simp [signed, isFlask, hf]), if_pos empty]

theorem consentInstall_refuses (up : s.crucibleUp = true)
    (bad : ok = false ∨ s.consentKey n key = false ∨ dev ≠ s.sys.trust.deviceId ∨ 8 ≤ f) :
    exec (.consentInstall n f sc dev hour key dig ok) s = .next (s.emit (.spdm n false [])) := by
  rw [exec_consentInstall, execConsentInstall, if_pos up, State.consentInstall, if_pos]
  rcases bad with no | no | no | no
  · simp [no]
  · simp [no]
  · simp [no]
  · simp [isFlask, Nat.not_lt.2 no]

theorem consentExpiry_ends {c : Consent} (hf : f < 8) (consent : (s.flask f).consent = some c) (over_ : c.lastHour < s.sys.record.poh / 3600) :
    exec (.consentExpiry f) s = .next (s.modFlask f fun x => { x with consent := none }) := by
  rw [exec_consentExpiry, execConsentExpiry, isFlask, decide_eq_true hf, unit_true, consent, if_pos (by simpa using over_)]

theorem consentExpiry_waits {c : Consent} (hf : f < 8) (consent : (s.flask f).consent = some c) (lasts : s.sys.record.poh / 3600 ≤ c.lastHour) :
    exec (.consentExpiry f) s = .next s := by
  rw [exec_consentExpiry, execConsentExpiry, isFlask, decide_eq_true hf, unit_true, consent, if_neg (by simpa using lasts)]

theorem debugAccess_answers (hf : f < 8) (d : DebugKind) (u : Option TBUnit) (unit_ : u.all isTBUnit = true) :
    exec (.debugAccess f d u) s = .next (s.emit (if (match u with
      | some x => s.debugUnit f d x
      | none => s.sys.trust.manufacturing) then .debugServed f else .debugRefused f)) := by
  rw [exec_debugAccess]
  unfold execDebugAccess
  rw [isFlask, decide_eq_true hf, unit_, Bool.true_and, unit_true] <;> rfl

end

end Sys2Proof.Machine
end

section
/-! PROOFS. The attestation report (R235), IDE keys (R226), and what O46 says. -/

set_option Elab.async false

namespace Sys2Proof.Machine

/-! ## The report -/

theorem List.length_flatMap_each {α β : Type} {g : α → List β} {n : Nat} (h : ∀ x, (g x).length = n) (xs : List α) :
    (xs.flatMap g).length = n * xs.length := by
  rw [List.length_flatMap, List.map_congr_left fun x _ => h x, List.map_const', List.sum_replicate, smul_eq_mul, Nat.mul_comm]

theorem List.take_drop_middle {α : Type} {bs xs ys zs : List α} {o n : Nat} (eq : bs = xs ++ (ys ++ zs)) (ho : xs.length = o)
    (hn : ys.length = n) : (bs.drop o).take n = ys := by
  rw [eq, List.drop_left' ho, List.take_left' hn]

section
variable (s : State) (nonce : Nat)

theorem State.digests_length : s.digests.length = 9 := by simp [State.digests]

theorem State.unitReport_length : s.unitReport.length = 2304 := by
  have flask : ∀ f, (s.flaskReport f).length = 32 := fun f => by simp [State.flaskReport, openBytes]
  have inst : ∀ i, (s.instReport i).length = 8 := fun i => by simp [State.instReport, openBytes]
  rw [State.unitReport, List.length_append, List.length_flatMap_each flask, List.length_flatMap_each inst, List.length_range,
    List.length_range]

/-- The bytes of a report before the nonce. -/
def reportHead : List Byte := toLE 4 0x41545354 ++ toLE 2 0x0100 ++ zeros 2

/-- The bytes of a report behind the digests. -/
def State.reportTail : List Byte :=
  toLE 16 Config.fuseState ++ toLE 8 s.debugState ++ s.unitReport
    ++ ((List.range 8).flatMap fun f => toLE 48 (((s.flask f).consent.map fun c => c.digest).getD 0))
    ++ toLE 8 s.now ++ zeros 8 ++ (s.freshBytes (96 + 3309)).1 ++ zeros 3

theorem State.report_bytes : (s.report nonce).1 = reportHead ++ (toLE 32 nonce ++ (toLE 16 s.sys.trust.deviceId ++
    (toLE 48 Config.chainDigest ++ ((s.digests.flatMap fun d => toLE 48 d) ++ s.reportTail)))) := by
  unfold State.report reportHead State.reportTail
  simp only [List.append_assoc]

theorem State.report_state : (s.report nonce).2 = (s.freshBytes (96 + 3309)).2 := (rfl)

theorem reportHead_length : reportHead.length = 8 := by simp [reportHead, length_toLE, zeros]

theorem State.digestBytes_length : (s.digests.flatMap fun d => toLE 48 d).length = 432 := by
  rw [List.length_flatMap_each (length_toLE 48), s.digests_length]

theorem State.reportTail_length : s.reportTail.length = 6136 := by
  have fresh : (s.freshBytes (96 + 3309)).1.length = 3405 := by simp [State.freshBytes]
  have consent : ((List.range 8).flatMap fun f => toLE 48 (((s.flask f).consent.map fun c => c.digest).getD 0)).length = 384 :=
    List.length_flatMap_each (fun f => length_toLE 48 _) _
  rw [State.reportTail]
  simp only [List.length_append, length_toLE, s.unitReport_length, consent, fresh, zeros, List.length_replicate]

theorem State.report_length : (s.report nonce).1.length = 6672 := by
  rw [s.report_bytes]
  simp only [List.length_append, length_toLE, reportHead_length, s.digestBytes_length, s.reportTail_length]

theorem State.report_magic : leAt (s.report nonce).1 0 4 = 0x41545354 := by
  rw [s.report_bytes, leAt_append_left _ _ _ _ (by rw [reportHead_length]; decide), reportHead,
    leAt_append_left _ _ _ _ (by simp [length_toLE]), leAt_append_left _ _ _ _ (by simp [length_toLE]), leAt_toLE,
    Nat.mod_eq_of_lt (by decide)]

theorem State.report_nonce (fits : nonce < 2 ^ 256) : leNat (((s.report nonce).1.drop 8).take 32) = nonce := by
  rw [List.take_drop_middle (s.report_bytes nonce) reportHead_length (length_toLE _ _), leNat_toLE]
  exact Nat.mod_eq_of_lt (by rw [show (256 : Nat) ^ 32 = 2 ^ 256 by norm_num]; exact fits)

theorem State.report_digests : ((s.report nonce).1.drop 104).take 432 = s.digests.flatMap fun d => toLE 48 d := by
  have bytes : (s.report nonce).1 = (reportHead ++ toLE 32 nonce ++ toLE 16 s.sys.trust.deviceId ++ toLE 48 Config.chainDigest)
      ++ ((s.digests.flatMap fun d => toLE 48 d) ++ s.reportTail) := by
    rw [s.report_bytes]
    simp only [List.append_assoc]
  exact List.take_drop_middle bytes (by simp only [List.length_append, length_toLE, reportHead_length]) s.digestBytes_length

variable {s nonce} {n : Nat}

theorem getMeasurements_answers (up : s.crucibleUp = true) (fits : nonce < 2 ^ 256) :
    ∃ t bs, exec (.getMeasurements n nonce) s = .next t
      ∧ t.outbox = .spdm n true (natBytes bs) :: s.outbox ∧ bs.length = 6672 ∧ leAt bs 0 4 = 0x41545354
      ∧ leNat ((bs.drop 8).take 32) = nonce
      ∧ ((bs.drop 104).take 432) = (s.digests.flatMap fun d => toLE 48 d)
      ∧ Leaves [.freeCtr, .outbox] noReg s t := by
  have run : exec (.getMeasurements n nonce) s = .next ((s.report nonce).2.emit (.spdm n true (natBytes (s.report nonce).1))) := by
    rw [exec_getMeasurements, execGetMeasurements, up, if_neg (by decide)]
  refine ⟨_, _, run, ?_, s.report_length nonce, s.report_magic nonce, s.report_nonce nonce fits, s.report_digests nonce, ?_⟩
  · rw [State.emit_outbox, s.report_state]
    rfl
  · rw [s.report_state]
    exact .emit (.freshBytes (.refl _ _ s))

theorem getCertificate_answers (up : s.crucibleUp = true) (k : Nat) : exec (.getCertificate n k) s
    = .next (s.emit (.spdm n (decide (k < 2)) (if k < 2 then Config.certChain k else []))) := by
  rw [exec_getCertificate, execGetCertificate, up, if_neg (by decide)]
  split
  · next h => rw [decide_eq_true h]
  · next h => rw [decide_eq_false h]

/-! ## IDE keys -/

variable {p k key : Nat}

/-- The keys of a stream are set. -/
def State.ideKeyed (s : State) (p k key : Nat) : State := s.modTrust fun t => { t with ide := NMap.set t.ide 0 (16 * p + k) key }

theorem ideKm_runs (hp : p < 2) (up : s.crucibleUp = true) : exec (.ideKm p k key) s
    = .next (if k ≤ 8 && (s.session (portTenant p)).isSome then (s.ideKeyed p k key).emit (.spdm p true [])
      else s.emit (.spdm p false [])) := by
  rw [exec_ideKm, execIdeKm, decide_eq_true hp, unit_true, up, if_neg (by decide)]
  rfl

theorem ideKm_answers (hp : p < 2) (up : s.crucibleUp = true) (open_ : (s.session (portTenant p)).isSome = true) :
    ∃ t, exec (.ideKm p k key) s = .next t ∧ t.outbox = .spdm p (decide (k ≤ 8)) [] :: s.outbox
      ∧ (k ≤ 8 → NMap.get t.sys.trust.ide 0 (16 * p + k) = key) ∧ Leaves [.outbox, .trust] noReg s t := by
  have run := ideKm_runs (k := k) (key := key) hp up
  rw [open_, Bool.and_true] at run
  by_cases h : k ≤ 8
  · rw [if_pos (by simpa using h)] at run
    refine ⟨_, run, by rw [decide_eq_true h]; rfl, fun _ => ?_, .emit (.modTrust (.refl _ _ s))⟩
    exact (NMap.get_set _ 0 _ _ key).trans (if_pos rfl)
  · rw [if_neg (by simpa using h)] at run
    exact ⟨_, run, by rw [decide_eq_false h]; rfl, fun no => absurd no h, .emit (.refl _ _ s)⟩

end

/-! ## What O46 says -/

section
variable {s : State} {core : Nat} {a7 : Word} {args : List Word}

theorem monitorCall_answers (hc : core < 16) (six : args.length = 6) (on : s.sys.power.mode = .on) (entry : s.sys.power.entry = 1)
    (call : a7.toNat = 0x47570001) :
    ((s.fwp 2).running = false → ∃ t a1, exec (.monitorCall core a7 args) s = .next t
        ∧ t.outbox = .monitorReply core mbRestarting a1 :: s.outbox ∧ Leaves [.freeCtr, .outbox] noReg s t)
    ∧ ((s.fwp 2).running = true → Config.monitorMsg args = none → ∃ t a0 a1, exec (.monitorCall core a7 args) s = .next t
        ∧ t.outbox = .monitorReply core a0 a1 :: s.outbox ∧ Leaves [.freeCtr, .outbox] noReg s t)
    ∧ (∃ t, exec (.monitorCall core a7 args) s = .next t ∧ t.mem.mbx = s.mem.mbx) := by
  have run := monitorCall_serves hc six on entry call
  refine ⟨fun down => ?_, fun running none => ?_, _, run, State.monitorServe_mbx⟩
  · obtain ⟨a1, reply⟩ := s.respondCall_restarting (core := core)
    rw [State.monitorServe_down down] at run
    exact ⟨_, a1, run, reply⟩
  · obtain ⟨a0, a1, reply⟩ := s.respondCall_other (core := core) (st := mbBadMsg) (by decide)
    rw [State.monitorServe_none none running] at run
    exact ⟨_, a0, a1, run, reply⟩

end

/-- Settles O46: each request of the Crucible, case by case; a call of the monitor reads its message from a page of its own. -/
theorem trustRequestsAreAnswered : Obligations.TrustRequestsAreAnswered := by
  unfold Obligations.TrustRequestsAreAnswered
  have refused : ∀ (s : State) (o : Out), (s.emit o).outbox = o :: s.outbox ∧ Leaves [.outbox] noReg s (s.emit o) := fun s o =>
    ⟨rfl, State.leaves_emit o⟩
  have noConsent : ∀ (s : State) (f : Nat), (s.modFlask f fun x => { x with consent := none }).flask f = { s.flask f with consent := none }
      ∧ ∀ g, g ≠ f → (s.modFlask f fun x => { x with consent := none }).flask g = s.flask g := fun s f =>
    ⟨by rw [State.modFlask_flask, if_pos rfl], fun g ne => by rw [State.modFlask_flask, if_neg ne]⟩
  refine ⟨fun s p vf i hp hv up bound alone tdi => lockInterfaceRequest_locks hp hv up bound alone tdi,
    fun s p vf hp hv up h => ⟨_, lockInterfaceRequest_refuses hp hv up h, refused s _⟩,
    fun s p vf hp hv up => tdisp_waits hp hv up, fun s p vf i hp hv up bound => ⟨fun tdi => ?_, fun tdi => ?_, fun tdi => ?_, fun tdi => ?_⟩,
    fun s core a7 args hc six on entry call => monitorCall_answers hc six on entry call,
    fun s core a7 args hc six h => monitorCall_ignored hc six h, fun s n up => keyExchange_opens up,
    fun s n p up => ⟨fun v session flask room fresh => keyDeliver_keeps up session flask room fresh,
      fun bad => ⟨_, keyDeliver_refuses up bad, refused s _⟩⟩,
    fun s n k up => ⟨fun session held => keyRevoke_revokes up session held, fun bad => ⟨_, keyRevoke_refuses up bad, refused s _⟩⟩,
    fun s n f sc hour key dig hf up signed scope => consentInstall_installs hf up signed scope,
    fun s n f sc hour key dig hf up signed scope => ⟨_, consentInstall_ends hf up signed scope, ?_, ?_, by rw [State.emit_outbox, State.modFlask_outbox],
      .emit (.modFlask (.refl _ _ s))⟩,
    fun s n f sc dev hour key dig ok up bad => ⟨_, consentInstall_refuses up bad, refused s _⟩,
    fun s f c hf consent => ⟨fun past => ⟨_, consentExpiry_ends hf consent past, (noConsent s f).1, (noConsent s f).2, .modFlask (.refl _ _ s)⟩,
      fun lasts => consentExpiry_waits hf consent lasts⟩,
    fun s f k u hf hu => ⟨_, debugAccess_answers hf k (some u) hu, ?_, .emit (.refl _ _ s)⟩,
    fun s f k hf => ⟨_, debugAccess_answers hf k none rfl, refused s _⟩,
    fun s n nonce up fits => getMeasurements_answers up fits,
    fun s n k up => ⟨_, getCertificate_answers up k, refused s _⟩,
    fun s p k key hp up open_ => ideKm_answers hp up open_, fun s p k key hp up shut => ⟨_, ?_, refused s _⟩⟩
  · refine ⟨_, (startInterfaceRequest_runs hp hv up bound).trans (by rw [if_pos tdi]), ?_, by rw [State.emit_outbox, State.setF_outbox],
      .emit (.setF (.refl _ _ s) ⟨rfl, rfl⟩)⟩
    rw [State.emit_f]
    exact State.setF_f_width _ _ _ _ 3 (by decide) rfl
  · exact ⟨_, (startInterfaceRequest_runs hp hv up bound).trans (by rw [if_neg tdi]), refused s _⟩
  · exact ⟨_, (getDeviceInterfaceReport_answers hp hv up bound).trans (by rw [if_pos tdi]), refused s _⟩
  · exact ⟨_, (getDeviceInterfaceReport_answers hp hv up bound).trans (by rw [tdi, if_neg (by decide)]), refused s _⟩
  · rw [State.emit_flask]
    exact (noConsent s f).1
  · intro g ne
    rw [State.emit_flask]
    exact (noConsent s f).2 g ne
  · rw [State.emit_outbox]
    unfold State.debugUnit
    cases k <;> rfl
  · rw [ideKm_runs hp up, shut, Bool.and_false, if_neg (by decide)]

end Sys2Proof.Machine
end

section
/-! PROOFS. Vendor vector instructions (R239 to R242) and the instructions before them, and what O47 says. -/

set_option Elab.async false

namespace Sys2Proof.Machine

/-! ## Elements of a register group -/

theorem vkey_inj {r i j : Nat} (hi : i < 2048) (hj : j < 2048) (h : vkey r i = vkey r j) : i = j := by
  unfold vkey at h
  omega

theorem VecSt.putEls_vreg (v : VecSt) (r i : Nat) (xs : List Nat) : ∃ m, v.putEls r i xs = { v with vreg := m } := by
  induction xs generalizing v i with
  | nil => exact ⟨_, rfl⟩
  | cons x xs ih =>
    obtain ⟨m, hm⟩ := ih { v with vreg := NMap.set v.vreg 0 (vkey r i) (x % 2 ^ 32) } (i + 1)
    exact ⟨m, hm⟩

theorem VecSt.putEls_cons (v : VecSt) (r i x : Nat) (xs : List Nat) :
    v.putEls r i (x :: xs) = ({ v with vreg := NMap.set v.vreg 0 (vkey r i) (x % 2 ^ 32) } : VecSt).putEls r (i + 1) xs := (rfl)

theorem VecSt.putEls_outside (v : VecSt) (r i k : Nat) (xs : List Nat) (out : ∀ n, n < xs.length → vkey r (i + n) ≠ k) :
    NMap.get (v.putEls r i xs).vreg 0 k = NMap.get v.vreg 0 k := by
  induction xs generalizing v i with
  | nil => rfl
  | cons x xs ih =>
    rw [VecSt.putEls_cons, ih _ _ fun n hn => by simpa [Nat.add_assoc, Nat.add_comm 1 n] using out (n + 1) (by simpa using hn)]
    exact (NMap.get_set _ 0 _ _ _).trans (if_neg (Ne.symm (out 0 (by simp))))

theorem VecSt.putEls_el (v : VecSt) (r i n x : Nat) (xs : List Nat) (fits : i + xs.length ≤ 2048) (h : xs[n]? = some x) :
    (v.putEls r i xs).el r (i + n) = x % 2 ^ 32 := by
  induction xs generalizing v i n with
  | nil => simp at h
  | cons y xs ih =>
    rw [List.length_cons] at fits
    rw [VecSt.putEls_cons]
    cases n with
    | zero =>
      obtain rfl : y = x := by simpa using h
      rw [VecSt.el, VecSt.putEls_outside _ _ _ _ _ fun n hn same => absurd (vkey_inj (by omega) (by omega) same) (by omega)]
      exact (NMap.get_set _ 0 _ _ _).trans (if_pos rfl)
    | succ n =>
      rw [show i + (n + 1) = i + 1 + n by omega]
      exact ih _ _ _ (by omega) (by simpa using h)

/-! ## Vendor instructions -/

/-- From `s` to `t` engine `e` has written elements of the group at `r` and folded the group into its item's signature. -/
def Folded (e r : Nat) (s t : State) : Prop :=
  (t.vec e).sig = (({ t.vec e with sig := (s.vec e).sig } : VecSt).foldRegs r (s.vec e).lmul).sig
    ∧ (∀ k, (∀ i, i < (s.vec e).vl → vkey r i ≠ k) → NMap.get (t.vec e).vreg 0 k = NMap.get (s.vec e).vreg 0 k)
    ∧ (t.vec e).item = (s.vec e).item ∧ (t.vec e).store = (s.vec e).store
    ∧ (∀ n, n ≠ e → t.vec n = s.vec n) ∧ Leaves [.vecs] noReg s t

section
variable {s : State} {e : Nat} {w : BitVec 32}

/-- Engine `e` with the elements of a group written back. -/
def State.wroteBack (s : State) (e r : Nat) (xs : List Nat) : State := s.modVec e fun _ => (s.vec e).writeBack r xs

theorem State.wroteBack_vec (r : Nat) (xs : List Nat) : (s.wroteBack e r xs).vec e = (s.vec e).writeBack r xs := by
  rw [State.wroteBack, State.modVec_vec, if_pos rfl]

theorem State.wroteBack_folded {r : Nat} {xs : List Nat} (all : xs.length = (s.vec e).vl) : Folded e r s (s.wroteBack e r xs) := by
  obtain ⟨m, put⟩ := (s.vec e).putEls_vreg r 0 xs
  have here := s.wroteBack_vec (e := e) r xs
  have out := fun k => (s.vec e).putEls_outside r 0 k xs
  rw [VecSt.writeBack] at here
  rw [put] at here out
  refine ⟨by rw [here]; rfl, fun k far => ?_, by rw [here]; rfl, by rw [here]; rfl, fun n ne => ?_, .modVec (.refl _ _ s)⟩
  · rw [here]
    exact out k fun n hn => by rw [Nat.zero_add]; exact far n (by omega)
  · rw [State.wroteBack, State.modVec_vec, if_neg ne]

theorem State.wroteBack_el {r n x : Nat} {xs : List Nat} (small : xs.length ≤ 2048) (h : xs[n]? = some x) :
    ((s.wroteBack e r xs).vec e).el r n = x % 2 ^ 32 := by
  rw [State.wroteBack_vec]
  have put := (s.vec e).putEls_el r 0 n x xs (by omega) h
  rwa [Nat.zero_add] at put

/-- A vendor instruction on an engine that runs an item: its word is of custom-2, with funct3 0. -/
structure Vendor (s : State) (e : Nat) (w : BitVec 32) : Prop where
  small : e < 16
  item : (s.vec e).item.isSome = true
  op : bits w.toNat 6 0 = 0x5B
  f3 : bits w.toNat 14 12 = 0

theorem State.vecSteps_nil : s.vecSteps e [] = s := by
  unfold State.vecSteps
  split <;> rfl

theorem isVec_true (small : e < 16) : isVec e = true := by simp [isVec, small]

theorem Vendor.judged (h : Vendor s e w) {f6 : Nat} (row : funct6Of w = f6) (known : f6 ≤ 3) (go : VecSt → State) :
    s.vendor e w f6 go = if (s.vec e).sew != 32 then s.itemFault e stJobFault else go (s.vec e) := by
  obtain ⟨-, item, op, f3⟩ := h
  unfold State.vendor
  rw [if_neg (by simp [Option.isSome_iff_ne_none.1 item, op]), if_neg (by simp [f3, row, known]), if_neg (by simp [row])]

theorem State.vendor_other (op : (s.vec e).item = none ∨ bits w.toNat 6 0 ≠ 0x5B) (f6 : Nat) (go : VecSt → State) :
    s.vendor e w f6 go = s := by
  unfold State.vendor
  rw [if_pos]
  rcases op with none | op
  · simp [none]
  · simp [op]

theorem vexpV_go (small : e < 16) (pre : List VecStep) : exec (.vexpV e pre w) s = .next (vexpGo e w (s.vecSteps e pre)) := by
  rw [exec_vexpV, execVexpV, isVec_true small, unit_true]

theorem vlsemVv_go (small : e < 16) (pre : List VecStep) : exec (.vlsemVv e pre w) s = .next (vlsemGo e w (s.vecSteps e pre)) := by
  rw [exec_vlsemVv, execVlsemVv, isVec_true small, unit_true]

theorem vdwsVv_go (small : e < 16) (pre : List VecStep) : exec (.vdwsVv e pre w) s = .next (vdwsGo e w 2 true (s.vecSteps e pre)) := by
  rw [exec_vdwsVv, execVdwsVv, isVec_true small, unit_true]

theorem vdws0Vv_go (small : e < 16) (pre : List VecStep) :
    exec (.vdws0Vv e pre w) s = .next (vdwsGo e w 3 false (s.vecSteps e pre)) := by
  rw [exec_vdws0Vv, execVdws0Vv, isVec_true small, unit_true]

theorem Vendor.exp (h : Vendor s e w) (sew : (s.vec e).sew = 32) (few : (s.vec e).vl ≤ 2048) (row : funct6Of w = 0)
    (vs1 : vs1Of w = 0) : ∃ t, exec (.vexpV e [] w) s = .next t
      ∧ (∀ i, i < (s.vec e).vl → (t.vec e).el (vdOf w) i
          = (if vmOf w || (s.vec e).mask i then vexp ((s.vec e).el (vs2Of w) i) else (s.vec e).el (vdOf w) i) % 2 ^ 32)
      ∧ Folded e (vdOf w) s t := by
  let xs := (List.range (s.vec e).vl).map fun i =>
    if vmOf w || (s.vec e).mask i then vexp ((s.vec e).el (vs2Of w) i) else (s.vec e).el (vdOf w) i
  have len : xs.length = (s.vec e).vl := by simp [xs]
  have run : exec (.vexpV e [] w) s = .next (s.wroteBack e (vdOf w) xs) := by
    rw [vexpV_go h.small, State.vecSteps_nil, vexpGo, h.judged row (by decide), sew, if_neg (by decide), vs1, if_neg (by decide)]
    rfl
  refine ⟨_, run, fun i hi => State.wroteBack_el (by omega) ?_, State.wroteBack_folded len⟩
  rw [List.getElem?_map, List.getElem?_range hi]
  rfl

theorem Vendor.lsem (h : Vendor s e w) (sew : (s.vec e).sew = 32) (few : (s.vec e).vl ≤ 2048) (row : funct6Of w = 1)
    (vs1 : vs1Of w = 0) (vm : vmOf w = true) (apart : (s.vec e).overlap (vdOf w) (vs2Of w) = false) (three : 3 ≤ (s.vec e).vl) :
    let a := foldChunk ((s.vec e).fold (vdOf w)) ((s.vec e).fold (vs2Of w))
    ∃ t, exec (.vlsemVv e [] w) s = .next t ∧ (t.vec e).el (vdOf w) 0 = a.m % 2 ^ 32
      ∧ (t.vec e).el (vdOf w) 1 = a.l % 2 ^ 32
      ∧ (∀ i o, a.o[i]? = some o → (t.vec e).el (vdOf w) (i + 2) = o % 2 ^ 32) ∧ Folded e (vdOf w) s t := by
  intro a
  have run : exec (.vlsemVv e [] w) s = .next (s.wroteBack e (vdOf w) (a.m :: a.l :: a.o)) := by
    rw [vlsemVv_go h.small, State.vecSteps_nil, vlsemGo, h.judged row (by decide), sew, if_neg (by decide),
      if_neg (by simp [vs1, vm, apart, three])]
    rfl
  have outs : a.o.length = (s.vec e).vl - 2 := by simp [a, foldChunk, VecSt.fold]
  have len : (a.m :: a.l :: a.o).length = (s.vec e).vl := by
    rw [List.length_cons, List.length_cons, outs]
    omega
  exact ⟨_, run, State.wroteBack_el (by omega) rfl, State.wroteBack_el (by omega) rfl,
    fun i o ho => State.wroteBack_el (by omega) ho, State.wroteBack_folded len⟩

theorem length_of_mapM {α β : Type} {g : α → Option β} {xs : List α} {ys : List β} (h : xs.mapM g = some ys) :
    ys.length = xs.length := by
  induction xs generalizing ys with
  | nil =>
    obtain rfl : ([] : List β) = ys := by simpa using h
    rfl
  | cons x xs ih =>
    rw [List.mapM_cons] at h
    simp only [Option.pure_def, Option.bind_eq_bind, Option.bind_eq_some_iff, Option.some.injEq] at h
    obtain ⟨y, -, zs, hz, rfl⟩ := h
    rw [List.length_cons, List.length_cons, ih hz]

theorem VecSt.dws_length {v : VecSt} {ps : List Nat} (h : v.dws w = some ps) : ps.length = v.vl :=
  (length_of_mapM h).trans List.length_range

/-- What VDWS and VDWS0 write. -/
def VecSt.dwsValues (v : VecSt) (w : BitVec 32) (acc : Bool) (ps : List Nat) : List Nat :=
  ((List.range v.vl).zip ps).map fun p =>
    if acc then f32add (v.el (vdOf w) p.1) p.2 else if vmOf w || v.mask p.1 then p.2 else v.el (vdOf w) p.1

theorem VecSt.dwsValues_length {v : VecSt} {ps : List Nat} (acc : Bool) (h : v.dws w = some ps) : (v.dwsValues w acc ps).length = v.vl := by
  simp [VecSt.dwsValues, VecSt.dws_length h]

theorem VecSt.dwsValues_get {v : VecSt} {ps : List Nat} {i p : Nat} (acc : Bool) (h : v.dws w = some ps) (hp : ps[i]? = some p) :
    (v.dwsValues w acc ps)[i]? = some (if acc then f32add (v.el (vdOf w) i) p else if vmOf w || v.mask i then p else v.el (vdOf w) i) := by
  have len : i < v.vl := by
    rw [← VecSt.dws_length h]
    exact (List.getElem?_eq_some_iff.1 hp).1
  have pair : ((List.range v.vl).zip ps)[i]? = some (i, p) := List.getElem?_zip_eq_some.2 ⟨List.getElem?_range len, hp⟩
  rw [VecSt.dwsValues, List.getElem?_map, pair]
  rfl

theorem Vendor.dws (h : Vendor s e w) (sew : (s.vec e).sew = 32) {f6 : Nat} {acc : Bool} (known : f6 ≤ 3) (row : funct6Of w = f6)
    (vm : acc = true → vmOf w = true) {ps : List Nat} (one : bits (s.vec e).fmt 3 0 ≤ 10) (two : bits (s.vec e).fmt 7 4 ≤ 10)
    (products : (s.vec e).dws w = some ps) : vdwsGo e w f6 acc s = s.wroteBack e (vdOf w) ((s.vec e).dwsValues w acc ps) := by
  rw [vdwsGo, h.judged row known, sew, if_neg (by decide), if_neg, products]
  · rfl
  · cases acc
    · simp [one, two]
    · simp [one, two, vm rfl]

theorem Vendor.dwsBoth (h : Vendor s e w) (sew : (s.vec e).sew = 32) (few : (s.vec e).vl ≤ 2048) {ps : List Nat}
    (one : bits (s.vec e).fmt 3 0 ≤ 10) (two : bits (s.vec e).fmt 7 4 ≤ 10) (products : (s.vec e).dws w = some ps) :
    (funct6Of w = 2 → vmOf w = true → ∃ t, exec (.vdwsVv e [] w) s = .next t
        ∧ (∀ i p, ps[i]? = some p → (t.vec e).el (vdOf w) i = f32add ((s.vec e).el (vdOf w) i) p % 2 ^ 32) ∧ Folded e (vdOf w) s t)
      ∧ (funct6Of w = 3 → ∃ t, exec (.vdws0Vv e [] w) s = .next t
        ∧ (∀ i p, ps[i]? = some p → (t.vec e).el (vdOf w) i
            = (if vmOf w || (s.vec e).mask i then p else (s.vec e).el (vdOf w) i) % 2 ^ 32) ∧ Folded e (vdOf w) s t) := by
  have len := fun acc => VecSt.dwsValues_length acc products
  refine ⟨fun row vm => ⟨_, ?_, fun i p hp => State.wroteBack_el (by rw [len]; exact few) (VecSt.dwsValues_get true products hp),
      State.wroteBack_folded (len true)⟩,
    fun row => ⟨_, ?_, fun i p hp => State.wroteBack_el (by rw [len]; exact few) (VecSt.dwsValues_get false products hp),
      State.wroteBack_folded (len false)⟩⟩
  · rw [vdwsVv_go h.small, State.vecSteps_nil, h.dws sew (by decide) row (fun _ => vm) one two products]
  · rw [vdws0Vv_go h.small, State.vecSteps_nil, h.dws (acc := false) sew (by decide) row (by simp) one two products]

/-! ## Illegal instructions -/

/-- The word breaks a rule of its row. -/
def State.vendorBad (s : State) (e : Nat) (w : BitVec 32) (f6 : Nat) : Prop :=
  (s.vec e).sew ≠ 32 ∨ (0 < f6 ∧ f6 < 3 ∧ vmOf w = false) ∨ (f6 < 2 ∧ vs1Of w ≠ 0)
    ∨ (f6 = 1 ∧ ((s.vec e).overlap (vdOf w) (vs2Of w) = true ∨ (s.vec e).vl < 3))
    ∨ (1 < f6 ∧ (10 < bits (s.vec e).fmt 3 0 ∨ 10 < bits (s.vec e).fmt 7 4 ∨ (s.vec e).dws w = none))

theorem Vendor.expFault (h : Vendor s e w) (row : funct6Of w = 0) (bad : s.vendorBad e w 0) :
    vexpGo e w s = s.itemFault e stJobFault := by
  rw [vexpGo, h.judged row (by decide)]
  by_cases sew : (s.vec e).sew = 32
  · rw [if_neg (by simp [sew]), if_pos]
    simpa [State.vendorBad, sew] using bad
  · rw [if_pos (by simp [sew])]

theorem Vendor.lsemFault (h : Vendor s e w) (row : funct6Of w = 1) (bad : s.vendorBad e w 1) :
    vlsemGo e w s = s.itemFault e stJobFault := by
  rw [vlsemGo, h.judged row (by decide)]
  by_cases sew : (s.vec e).sew = 32
  · rw [if_neg (by simp [sew]), if_pos]
    simp only [State.vendorBad, sew, ne_eq, not_true, false_or, true_and, Nat.lt_irrefl, false_and, or_false] at bad
    rcases bad with ⟨-, -, vm⟩ | ⟨-, vs1⟩ | apart | few
    · simp [vm]
    · simp [vs1]
    · simp [apart]
    · simp [few]
  · rw [if_pos (by simp [sew])]

theorem Vendor.dwsFault (h : Vendor s e w) {f6 : Nat} {acc : Bool} (row : funct6Of w = f6) (two : acc = true ∧ f6 = 2 ∨ acc = false ∧ f6 = 3)
    (bad : s.vendorBad e w f6) : vdwsGo e w f6 acc s = s.itemFault e stJobFault := by
  rw [vdwsGo, h.judged row (by omega)]
  by_cases sew : (s.vec e).sew = 32
  · rw [if_neg (by simp [sew])]
    split
    · rfl
    · next good =>
      have none : (s.vec e).dws w = none := by
        simp only [Bool.or_eq_true, Bool.and_eq_true, decide_eq_true_eq, not_or, not_and] at good
        obtain ⟨⟨vm, one⟩, two_⟩ := good
        simp only [State.vendorBad, sew, ne_eq, not_true, false_or] at bad
        rcases bad with ⟨-, lt, no⟩ | ⟨lt, -⟩ | ⟨lt, -⟩ | ⟨-, far | far | none⟩
        · rcases two with ⟨acc, -⟩ | ⟨-, three⟩
          · exact absurd (by rw [no]; rfl) (vm acc)
          · omega
        · omega
        · omega
        · exact absurd far one
        · exact absurd far two_
        · exact none
      rw [none]
  · rw [if_pos (by simp [sew])]

/-- A job that ends keeps its end while its items are dropped and the engines are dealt. -/
theorem State.failItem_ends {j st item : Nat} {x : Job} (held : s.job j = some x) (open_ : x.phase ≠ .ended) :
    ∃ y, (s.failItem j st item).job j = some y ∧ y.phase = .ended ∧ y.status = st ∧ y.detail = some item := by
  have fails : s.failItem j st item = ((s.endJob j st (some item)).dropItems j).deal (s.jobFlask x) := by
    unfold State.failItem
    rw [held]
  have ended := (JobTo.of_endJob st (some item) held open_).1
  have dropped : Leaves (.saved :: .vecs :: accessParts) (fun r i => accessRegs r i ∨ vecStat r i) (s.endJob j st (some item))
      ((s.endJob j st (some item)).dropItems j) := .dropItems (.refl _ _ _) (fun _ m => m) fun _ _ a => a
  obtain ⟨n, -, job⟩ := IssuedOn.deal ((s.endJob j st (some item)).dropItems j) (s.jobFlask x) _ _
    ((State.job_of_jobs (dropped.1 .jobs (by simp [accessParts])) _).trans ended)
  rw [fails]
  exact ⟨_, job, rfl, rfl, rfl⟩

theorem State.itemFault_ends {st : Nat} {i : VItem} {x : Job} (item : (s.vec e).item = some i) (alone : s.pairOf true e = none)
    (held : s.job i.job = some x) (open_ : x.phase ≠ .ended) :
    ∃ y, (s.itemFault e st).job i.job = some y ∧ y.phase = .ended ∧ y.status = st ∧ y.detail = some i.item := by
  have fails : s.itemFault e st = s.failItem i.job st i.item := by
    unfold State.itemFault
    rw [item]
    dsimp only
    rw [alone]
  rw [fails]
  exact State.failItem_ends held open_

theorem Vendor.faults (h : Vendor s e w) (c : Instr × Nat) (row : funct6Of w = c.2) (bad : s.vendorBad e w c.2)
    (listed : c ∈ [(Instr.vexpV e [] w, 0), (.vlsemVv e [] w, 1), (.vdwsVv e [] w, 2), (.vdws0Vv e [] w, 3)]) :
    exec c.1 s = .next (s.itemFault e stJobFault) := by
  simp only [List.mem_cons, List.not_mem_nil, or_false] at listed
  rcases listed with rfl | rfl | rfl | rfl
  · rw [vexpV_go h.small, State.vecSteps_nil, h.expFault row bad]
  · rw [vlsemVv_go h.small, State.vecSteps_nil, h.lsemFault row bad]
  · rw [vdwsVv_go h.small, State.vecSteps_nil, h.dwsFault row (.inl ⟨rfl, rfl⟩) bad]
  · rw [vdws0Vv_go h.small, State.vecSteps_nil, h.dwsFault row (.inr ⟨rfl, rfl⟩) bad]

end

end Sys2Proof.Machine
end

section
/-! PROOFS. The instructions before a vendor instruction, and what O47 says (R143, R237 to R242). -/

set_option Elab.async false

namespace Sys2Proof.Machine

section
variable {s : State} {e : Nat} {p : VecStep}

/-! ## One instruction of an item -/

/-- The engine's state after one instruction. -/
def State.steppedVec (s : State) (e : Nat) (p : VecStep) : VecSt := (s.vecStep e p).vec e

theorem State.vecSteps_one (item : (s.vec e).item.isSome = true) (p : VecStep) : s.vecSteps e [p] = s.vecStep e p := by
  unfold State.vecSteps
  rw [if_neg (by simp [Option.isSome_iff_ne_none.1 item])]
  rfl

theorem State.leaves_vecStep : Leaves [.vecs] noReg s (s.vecStep e p) := .modVec (.refl _ _ s)

theorem State.vecStep_others {n : Nat} (ne : n ≠ e) : (s.vecStep e p).vec n = s.vec n := by
  rw [State.vecStep, State.modVec_vec, if_neg ne]

theorem State.vecStep_x {r a : Nat} (pos : 0 < r) (small : r < 32) (word : a < 2 ^ 64) :
    NMap.get ((s.vecStep e (.x r a)).vec e).xreg 0 r = a := by
  rw [State.vecStep, State.modVec_vec, if_pos rfl]
  dsimp only
  rw [if_neg (by omega), Nat.mod_eq_of_lt small, Nat.mod_eq_of_lt word, NMap.get_set, if_pos rfl]

theorem State.vecStep_f {r a : Nat} (small : r < 32) (word : a < 2 ^ 64) : NMap.get ((s.vecStep e (.f r a)).vec e).freg 0 r = a := by
  rw [State.vecStep, State.modVec_vec, if_pos rfl]
  dsimp only
  rw [Nat.mod_eq_of_lt small, Nat.mod_eq_of_lt word, NMap.get_set, if_pos rfl]

theorem VecSt.foldRegs_el (v : VecSt) (r n k i : Nat) : (v.foldRegs r n).el k i = v.el k i := (rfl)

theorem State.vecStep_v {r i v : Nat} {els : List Nat} (small : r < 32) (hi : i < 64) (here : els[i]? = some v) :
    ((s.vecStep e (.v r els)).vec e).el r i = v % 2 ^ 32 := by
  rw [State.vecStep, State.modVec_vec, if_pos rfl]
  dsimp only
  rw [Nat.mod_eq_of_lt small, VecSt.foldRegs_el]
  have few : (els.take 64).length ≤ 64 := by simp
  have put := (s.vec e).putEls_el r 0 i v (els.take 64) (by omega) (by rw [List.getElem?_take_of_lt hi, here])
  rwa [Nat.zero_add] at put

theorem State.vecStep_fmt {a : Nat} : ((s.vecStep e (.csr 0x800 a)).vec e).fmt = a % 256 := by
  rw [State.vecStep, State.modVec_vec, if_pos rfl]
  rfl

theorem State.vecStep_time {r : Nat} (pos : 0 < r) (small : r < 32) :
    NMap.get ((s.vecStep e (.time r)).vec e).xreg 0 r = s.clock.ns := by
  rw [State.vecStep, State.modVec_vec, if_pos rfl]
  dsimp only
  rw [if_neg (by omega), Nat.mod_eq_of_lt small, NMap.get_set, if_pos rfl]

/-- x0 takes nothing. -/
theorem State.vecStep_x0 : NMap.get ((s.vecStep e p).vec e).xreg 0 0 = NMap.get (s.vec e).xreg 0 0 := by
  rw [State.vecStep, State.modVec_vec, if_pos rfl]
  cases p with
  | x r a =>
    dsimp only
    split
    · rfl
    · next ne => exact (NMap.get_set _ 0 _ _ _).trans (if_neg (Ne.symm ne))
  | time r =>
    dsimp only
    split
    · rfl
    · next ne => exact (NMap.get_set _ 0 _ _ _).trans (if_neg (Ne.symm ne))
  | v r els =>
    obtain ⟨m, put⟩ := (s.vec e).putEls_vreg (r % 32) 0 (els.take 64)
    dsimp only
    rw [put]
    rfl
  | csr n a =>
    dsimp only
    split
    · rfl
    · split <;> rfl
  | f r a => rfl
  | vset sew vl lmul => rfl
  | pc a => rfl

/-! ## The values that VEXP fixes -/

theorem vexp_zero (c : Nat) (neg : Bool) (x : Int) (zero : ofF32 c = .fin neg 0 x) : vexp c = 0x3F800000 := by
  rw [vexp, vexpWith, zero]
  rfl

theorem vexp_inf (c : Nat) (neg : Bool) (inf : ofF32 c = .inf neg) : vexp c = if neg then 0 else inf32 false := by
  rw [vexp, vexpWith, inf]

theorem vexp_nan (c : Nat) (nan : ofF32 c = .nan) : vexp c = nan32 := by rw [vexp, vexpWith, nan]

theorem vexp_overflow (c m : Nat) (x : Int) (fin : ofF32 c = .fin false m x) (some_ : m ≠ 0) (far : 0x42B17217 < c) :
    vexp c = inf32 false := by
  rw [vexp, vexpWith, fin]
  dsimp only
  rw [if_neg some_, if_pos (by simpa using far)]

theorem vexp_underflow (c m : Nat) (x : Int) (fin : ofF32 c = .fin true m x) (some_ : m ≠ 0) (far : 0xC2CFF1B5 < c) : vexp c = 0 := by
  rw [vexp, vexpWith, fin]
  dsimp only
  rw [if_neg some_, if_neg (by simp), if_pos (by simpa using far)]

theorem vexp_fixed : vexp 0 = 0x3F800000 ∧ vexp 0x80000000 = 0x3F800000 ∧ vexp 0x7F800000 = 0x7F800000 ∧ vexp 0xFF800000 = 0
    ∧ vexp 0x42B17218 = 0x7F800000 ∧ vexp 0xC2CFF1B6 = 0 ∧ vexp 0x7F800001 = 0x7FC00000 := by
  have inf : inf32 false = 0x7F800000 := by decide
  have nan : nan32 = 0x7FC00000 := by decide
  refine ⟨vexp_zero _ false (fpVal 23 127 0).2 (by decide), vexp_zero _ true (fpVal 23 127 0).2 (by decide), ?_, ?_, ?_, ?_, ?_⟩
  · rw [vexp_inf _ false (by decide), if_neg (by decide), inf]
  · rw [vexp_inf _ true (by decide), if_pos rfl]
  · rw [vexp_overflow _ (fpVal 23 127 0x42B17218).1 (fpVal 23 127 0x42B17218).2 (by decide) (by decide) (by decide), inf]
  · exact vexp_underflow _ (fpVal 23 127 0x42CFF1B6).1 (fpVal 23 127 0x42CFF1B6).2 (by decide) (by decide) (by decide)
  · rw [vexp_nan _ (by decide), nan]

end

/-- Settles O47: a vendor instruction is judged once (`Vendor.judged`), and what it writes are elements of one group at distinct
places of the register file. -/
theorem vendorInstructionsWriteTheirGroup : Obligations.VendorInstructionsWriteTheirGroup := by
  unfold Obligations.VendorInstructionsWriteTheirGroup
  refine ⟨fun s e w small item op f3 sew few => ?_, fun s e w i x c small listed item op f3 row bad alone held open_ => ?_,
    fun s e pre w small => ⟨fun none => ?_, fun op => ?_, ?_, ?_, ?_, ?_⟩, fun s e p item => ?_, vexp_fixed⟩
  · have h : Vendor s e w := ⟨small, item, op, f3⟩
    exact ⟨fun row vs1 => h.exp sew few row vs1, fun row vs1 vm apart three => h.lsem sew few row vs1 vm apart three,
      fun ps one two products => h.dwsBoth sew few one two products⟩
  · have h : Vendor s e w := ⟨small, by rw [item]; rfl, op, f3⟩
    obtain ⟨y, job, ended, status, detail⟩ := State.itemFault_ends (st := stJobFault) item alone held open_
    exact ⟨_, y, h.faults c row bad listed, job, ended, status, detail⟩
  · have steps : s.vecSteps e pre = s := by rw [State.vecSteps, none]; rfl
    have same := fun f6 go => s.vendor_other (w := w) (.inl none) f6 go
    rw [vexpV_go small, vlsemVv_go small, vdwsVv_go small, vdws0Vv_go small, steps, vexpGo, vlsemGo, vdwsGo, vdwsGo, same, same, same, same]
    exact ⟨rfl, rfl, rfl, rfl⟩
  · have same := fun f6 go => s.vendor_other (e := e) (w := w) (.inr op) f6 go
    rw [vexpV_go small, vlsemVv_go small, vdwsVv_go small, vdws0Vv_go small, State.vecSteps_nil, vexpGo, vlsemGo, vdwsGo, vdwsGo, same,
      same, same, same]
    exact ⟨rfl, rfl, rfl, rfl⟩
  · rw [vexpV_go small, vexpV_go small, State.vecSteps_nil]
  · rw [vlsemVv_go small, vlsemVv_go small, State.vecSteps_nil]
  · rw [vdwsVv_go small, vdwsVv_go small, State.vecSteps_nil]
  · rw [vdws0Vv_go small, vdws0Vv_go small, State.vecSteps_nil]
  · rw [State.vecSteps_one item]
    refine ⟨fun n ne => State.vecStep_others ne, State.leaves_vecStep, State.vecStep_x0, fun r v hp pos lt word => ?_,
      fun r v hp lt word => ?_, fun r els hp lt i v hi here => ?_, fun v hp => ?_, fun r hp pos lt => ?_⟩ <;> subst hp
    · exact State.vecStep_x pos lt word
    · exact State.vecStep_f lt word
    · exact State.vecStep_v lt hi here
    · exact State.vecStep_fmt
    · exact State.vecStep_time pos lt

end Sys2Proof.Machine
end

section
/-! PROOFS. The engines of a flask are dealt to the end, and a saved context gives back its registers (R245, R253). -/

set_option Elab.async false

namespace Sys2Proof.Machine

/-! ## Dealing -/

section
variable {s : State} {f : Nat}

theorem State.deals_none (none : s.nextWork f = none) (es : List Nat) : es.foldl (State.dealOne f) s = s := by
  induction es with
  | nil => rfl
  | cons e es ih =>
    have step : s.dealOne f e = s := by
      rw [State.dealOne, none]
      split <;> rfl
    rw [List.foldl_cons, step, ih]

theorem State.dealOne_taken {e : Nat} {x : Job} (next : s.nextWork f = some x) : (s.dealOne f e).engFree e = false := by
  cases free : s.engFree e with
  | false => rw [s.dealOne_busy e f free, free]
  | true =>
    obtain ⟨k, run, -⟩ := s.dealOne_gives e f x free next
    rw [run, State.engFree, State.modJob_f, State.giveItem_state]
    rfl

/-- R253: once the engines are dealt, one that is still free finds no work. -/
theorem State.deals_all (es : List Nat) {e : Nat} (he : e ∈ es) (free : (es.foldl (State.dealOne f) s).engFree e = true) :
    (es.foldl (State.dealOne f) s).nextWork f = none := by
  induction es generalizing s with
  | nil => cases he
  | cons k es ih =>
    rw [List.foldl_cons] at free ⊢
    rcases List.mem_cons.1 he with same | later
    · cases next : s.nextWork f with
      | none =>
        have step : s.dealOne f k = s := State.deals_none next [k]
        rw [step, State.deals_none next, next]
      | some x =>
        obtain ⟨v, st⟩ := (s.dealOne f k).deals_vec k f es (State.dealOne_taken next)
        rw [same, State.engFree_of_same v st, State.dealOne_taken next] at free
        cases free
    · exact ih later free

theorem State.deal_plain (plain : s.timed f = false) : s.deal f = (s.engines f).foldl (State.dealOne f) s := by
  rw [State.deal, plain, if_neg (by decide)]

theorem vector_deals {j : Nat} {x : Job} (h : s.runs j 3 x) (plain : s.timed (s.jobFlask x) = false) :
    ∃ t, exec (.vector j) s = .next t
      ∧ (∀ e ∈ s.engines (s.jobFlask x), t.engFree e = true → t.nextWork (s.jobFlask x) = none)
      ∧ (∀ e, s.engFree e = false → t.vec e = s.vec e) ∧ Leaves [.freeCtr, .jobs, .vecs] (fun r _ => r = .vecStatus) s t := by
  refine ⟨s.deal (s.jobFlask x), ?_, fun e he free => ?_, fun e busy => ?_, .deal (.refl _ _ s) fun _ => rfl⟩
  · rw [exec_vector, execVector, State.runningJob_runs h]
  · rw [State.deal_plain plain] at free ⊢
    exact State.deals_all _ he free
  · rw [State.deal_plain plain]
    exact (s.deals_vec e _ _ busy).1

theorem vector_timed {j : Nat} {x : Job} (h : s.runs j 3 x) (timed : s.timed (s.jobFlask x) = true) : exec (.vector j) s = .next s := by
  rw [exec_vector, execVector, State.runningJob_runs h, State.deal, if_pos timed]

end

/-! ## The bytes of a context -/

theorem length_words (w : Nat) (g : Nat → Nat) (n : Nat) : ((List.range n).flatMap fun k => toLE w (g k)).length = w * n := by
  rw [List.length_flatMap_each (fun k => length_toLE w (g k)), List.length_range]

theorem leAt_words (w n k : Nat) (g : Nat → Nat) (hk : k < n) :
    leAt ((List.range n).flatMap fun k => toLE w (g k)) (w * k) w = g k % 256 ^ w := by
  obtain ⟨m, rfl⟩ : ∃ m, n = k + (m + 1) := ⟨n - k - 1, by omega⟩
  have split : ((List.range (k + (m + 1))).flatMap fun k => toLE w (g k))
      = ((List.range k).flatMap fun k => toLE w (g k)) ++ (toLE w (g k) ++ ((List.range m).flatMap fun i => toLE w (g (k + (i + 1))))) := by
    rw [List.range_add, List.flatMap_append, List.range_succ_eq_map, List.map_cons, List.flatMap_cons, List.map_map, List.flatMap_map]
    rfl
  rw [split, leAt_append_right _ _ _ _ (by rw [length_words]), length_words, Nat.sub_self,
    leAt_append_left _ _ _ _ (by rw [length_toLE, Nat.zero_add]), leAt_toLE]

theorem leAt_drop (bs : List Byte) (d o n : Nat) : leAt (bs.drop d) o n = leAt bs (d + o) n := by rw [leAt, leAt, List.drop_drop]

theorem NMap.get_putRegs (m : NMap Nat) (a k : Nat) (vs : List Nat) :
    NMap.get (putRegs m a vs) 0 k = if a ≤ k ∧ k < a + vs.length then vs.getD (k - a) 0 else NMap.get m 0 k := by
  induction vs generalizing m a with
  | nil => rw [if_neg (by simp)]; rfl
  | cons v vs ih =>
    have step : putRegs m a (v :: vs) = putRegs (NMap.set m 0 a v) (a + 1) vs := rfl
    rw [step, ih, NMap.get_set, List.length_cons]
    by_cases here : k = a
    · rw [if_neg (by omega), if_pos here, if_pos (by omega), here, Nat.sub_self]
      rfl
    · rw [if_neg here]
      by_cases later : a + 1 ≤ k ∧ k < a + 1 + vs.length
      · rw [if_pos later, if_pos (by omega), show k - a = k - (a + 1) + 1 by omega]
        rfl
      · rw [if_neg later, if_neg (by omega)]

theorem NMap.get_putRegs_map (a n k : Nat) (g : Nat → Nat) (lo : a ≤ k) (hi : k < a + n) :
    NMap.get (putRegs [] a ((List.range n).map g)) 0 k = g (k - a) := by
  rw [NMap.get_putRegs, if_pos (by simpa using ⟨lo, hi⟩), List.getD_eq_getElem?_getD, List.getElem?_map,
    List.getElem?_range (by omega)]
  rfl

/-! ## A context saved and restored -/

section
variable (v : VecSt) (st : List Byte)

/-- The word of the CSRs of a saved context. -/
def csrBytes (v : VecSt) : List Byte := toLE 2 v.vl ++ (toLE 2 (NMap.get v.csr 0 8) ++
  [BitVec.ofNat 8 (v.sew / 8 + 16 * v.lmul), BitVec.ofNat 8 (NMap.get v.csr 0 3), BitVec.ofNat 8 v.fmt,
    BitVec.ofNat 8 (NMap.get v.csr 0 15)])

theorem scalarBytes_parts : scalarBytes v = ((List.range 31).flatMap fun k => toLE 8 (NMap.get v.xreg 0 (k + 1)))
    ++ (((List.range 32).flatMap fun k => toLE 8 (NMap.get v.freg 0 k)) ++ csrBytes v) := by
  unfold scalarBytes csrBytes
  simp only [List.append_assoc]

theorem vregBytes_length : (vregBytes v).length = 8192 := length_words 4 _ 2048

theorem csrBytes_length : (csrBytes v).length = 8 := by simp [csrBytes, length_toLE]

/-- The bytes of a saved context. -/
abbrev contextBytes (v : VecSt) (st : List Byte) : List Byte := vregBytes v ++ scalarBytes v ++ st

theorem contextBytes_scalars : (contextBytes v st).drop 8192 = scalarBytes v ++ st := by
  rw [contextBytes, List.append_assoc, List.drop_left' (vregBytes_length v)]

theorem contextBytes_vreg {k : Nat} (hk : k < 2048) : leAt (contextBytes v st) (4 * k) 4 = NMap.get v.vreg 0 k % 2 ^ 32 := by
  rw [contextBytes, List.append_assoc, leAt_append_left _ _ _ _ (by rw [vregBytes_length]; omega)]
  exact leAt_words 4 2048 k _ hk

theorem scalars_xreg {k : Nat} (hk : k < 31) : leAt (scalarBytes v ++ st) (8 * k) 8 = NMap.get v.xreg 0 (k + 1) % 2 ^ 64 := by
  rw [scalarBytes_parts, List.append_assoc, leAt_append_left _ _ _ _ (by rw [length_words]; omega)]
  exact leAt_words 8 31 k _ hk

theorem scalars_freg {k : Nat} (hk : k < 32) : leAt (scalarBytes v ++ st) (248 + 8 * k) 8 = NMap.get v.freg 0 k % 2 ^ 64 := by
  rw [scalarBytes_parts, List.append_assoc, leAt_append_right _ _ _ _ (by rw [length_words]; omega), length_words, List.append_assoc,
    leAt_append_left _ _ _ _ (by rw [length_words]; omega), show 248 + 8 * k - 8 * 31 = 8 * k by omega]
  exact leAt_words 8 32 k _ hk

theorem scalars_csr (o n : Nat) (ho : o + n ≤ 8) : leAt ((scalarBytes v ++ st).drop 504) o n = leAt (csrBytes v) o n := by
  rw [leAt_drop, leAt_append_left _ _ _ _ (by
      rw [scalarBytes_parts, List.length_append, List.length_append, length_words, length_words, csrBytes_length]; omega),
    scalarBytes_parts, leAt_append_right _ _ _ _ (by rw [length_words]; omega), length_words,
    leAt_append_right _ _ _ _ (by rw [length_words]; omega), length_words, show 504 + o - 8 * 31 - 8 * 32 = o by omega]

theorem csrBytes_vl (hv : v.vl < 65536) : leAt (csrBytes v) 0 2 = v.vl := by
  rw [csrBytes, leAt_append_left _ _ _ _ (by rw [length_toLE]), leAt_toLE]
  exact Nat.mod_eq_of_lt hv

theorem csrBytes_shape (hs : v.sew / 8 < 16) (hl : v.lmul < 16) : leAt (csrBytes v) 4 1 = v.sew / 8 + 16 * v.lmul := by
  rw [csrBytes, leAt_append_right _ _ _ _ (by rw [length_toLE]; decide), length_toLE,
    leAt_append_right _ _ _ _ (by rw [length_toLE]), length_toLE]
  simp only [leAt, List.drop_zero, Nat.sub_self, List.take_succ_cons, List.take_zero, leNat, BitVec.toNat_ofNat]
  omega

theorem csrBytes_fmt (hf : v.fmt < 256) : leAt (csrBytes v) 6 1 = v.fmt := by
  rw [csrBytes, leAt_append_right _ _ _ _ (by rw [length_toLE]; decide), length_toLE,
    leAt_append_right _ _ _ _ (by rw [length_toLE]; decide), length_toLE]
  simp only [leAt, List.drop_succ_cons, List.drop_zero, List.take_succ_cons, List.take_zero, leNat, BitVec.toNat_ofNat]
  omega

section
variable (o : VecSt) (bs : List Byte)

theorem VecSt.restore_vreg : (o.restore bs).vreg = putRegs [] 0 ((List.range 2048).map fun k => leAt bs (4 * k) 4) := by
  rw [VecSt.restore]
theorem VecSt.restore_xreg : (o.restore bs).xreg = putRegs [] 1 ((List.range 31).map fun k => leAt (bs.drop 8192) (8 * k) 8) := by
  unfold VecSt.restore
  rfl
theorem VecSt.restore_freg : (o.restore bs).freg
    = putRegs [] 0 ((List.range 32).map fun k => leAt (bs.drop 8192) (248 + 8 * k) 8) := by
  unfold VecSt.restore
  rfl
theorem VecSt.restore_vl : (o.restore bs).vl = leAt ((bs.drop 8192).drop 504) 0 2 := by
  unfold VecSt.restore
  rfl
theorem VecSt.restore_sew : (o.restore bs).sew = 8 * (leAt ((bs.drop 8192).drop 504) 4 1 % 16) := by
  unfold VecSt.restore
  rfl
theorem VecSt.restore_lmul : (o.restore bs).lmul = leAt ((bs.drop 8192).drop 504) 4 1 / 16 := by
  unfold VecSt.restore
  rfl
theorem VecSt.restore_fmt : (o.restore bs).fmt = leAt ((bs.drop 8192).drop 504) 6 1 := by
  unfold VecSt.restore
  rfl

end

/-- A context that is saved and restored holds its registers again. -/
theorem VecSt.restore_context (o : VecSt) (hs : v.sew / 8 < 16) (hl : v.lmul < 16) (hv : v.vl < 65536) (hf : v.fmt < 256) :
    (∀ k, k < 2048 → NMap.get (o.restore (contextBytes v st)).vreg 0 k = NMap.get v.vreg 0 k % 2 ^ 32)
      ∧ (∀ k, 0 < k → k < 32 → NMap.get (o.restore (contextBytes v st)).xreg 0 k = NMap.get v.xreg 0 k % 2 ^ 64)
      ∧ (∀ k, k < 32 → NMap.get (o.restore (contextBytes v st)).freg 0 k = NMap.get v.freg 0 k % 2 ^ 64)
      ∧ (o.restore (contextBytes v st)).vl = v.vl ∧ (o.restore (contextBytes v st)).sew = 8 * (v.sew / 8) ∧ (o.restore (contextBytes v st)).lmul = v.lmul ∧ (o.restore (contextBytes v st)).fmt = v.fmt := by
  have sc := contextBytes_scalars v st
  have shape := csrBytes_shape v hs hl
  refine ⟨fun k hk => ?_, fun k lo hi => ?_, fun k hk => ?_, ?_, ?_, ?_, ?_⟩
  · rw [VecSt.restore_vreg, NMap.get_putRegs_map 0 2048 k _ (by omega) (by omega), Nat.sub_zero, contextBytes_vreg v st hk]
  · rw [VecSt.restore_xreg, NMap.get_putRegs_map 1 31 k _ lo (by omega), sc, scalars_xreg v st (by omega), Nat.sub_add_cancel lo]
  · rw [VecSt.restore_freg, NMap.get_putRegs_map 0 32 k _ (by omega) (by omega), sc, Nat.sub_zero, scalars_freg v st hk]
  · rw [VecSt.restore_vl, sc, scalars_csr v st 0 2 (by decide), csrBytes_vl v hv]
  · rw [VecSt.restore_sew, sc, scalars_csr v st 4 1 (by decide), shape]
    omega
  · rw [VecSt.restore_lmul, sc, scalars_csr v st 4 1 (by decide), shape]
    omega
  · rw [VecSt.restore_fmt, sc, scalars_csr v st 6 1 (by decide), csrBytes_fmt v hf]

end

end Sys2Proof.Machine
end

section
/-! PROOFS. Work items end, fault, are preempted and resume, and what O48 says (R143, R181, R243 to R245). -/

set_option Elab.async false

namespace Sys2Proof.Machine

section
variable {s : State} {e : Nat}

/-! ## Boundaries -/

/-- The parts and registers that an engine's boundary may change: beside the engines, what a physical access may. -/
abbrev passRegs (r : Reg) (i : Nat) : Prop := physRegs r i ∨ vecStat r i

theorem State.leaves_boundary (s : State) (e : Nat) : Leaves (.vecs :: physParts) passRegs s (s.vecBoundary e) := by
  have left : Leaves (.vecs :: physParts) passRegs s ((s.modVec e fun v => { v with item := none }).setF VEC_STATUS.STATE e 0) :=
    .setF (.modVec (.refl _ _ s)) (.inr rfl)
  have save : ∀ (t : State) (p a : Nat) (bs : List Byte), Leaves (.vecs :: physParts) passRegs t (physWrite t p a bs).2 :=
    fun t p a bs => (Phys.physWrite t p a bs).mono (by simp) fun _ _ h => .inl h
  unfold State.vecBoundary
  refine .ite (left.withdrawVec (by simp [physParts]) (.inr rfl)) (.ite ?_ left)
  unfold State.startVecBar
  dsimp only
  exact .setF (.modVec ((left.one .freeCtr (by simp [physParts])).trans (save _ _ _ _))) (.inr rfl)

theorem State.leaves_dropItems (s : State) (j : Nat) : Leaves (.saved :: .vecs :: physParts) passRegs s (s.dropItems j) :=
  Leaves.over (Leaves.one (s := s) .saved (.refl _ _ s) (by simp)) fun e t h =>
    h.trans ((t.leaves_boundary e).mono (by simp) fun _ _ h => h)

theorem State.dropItems_saved (s : State) (j : Nat) : (s.dropItems j).units.saved = s.units.saved.filter fun k => k.it.job != j := by
  refine (State.each_keeps (P := fun t => t.units.saved = s.units.saved.filter fun k => k.it.job != j)
    (g := State.vecBoundary) (s := { s with units.saved := s.units.saved.filter fun k => k.it.job != j }) rfl fun t e _ h => ?_)
  exact ((t.leaves_boundary e).1 .saved (by simp [physParts])).trans h

theorem State.leaves_failItem (s : State) (j st item : Nat) :
    Leaves (.jobs :: .saved :: .vecs :: physParts) passRegs s (s.failItem j st item) := by
  unfold State.failItem
  split
  · exact .refl _ _ s
  · exact .deal (.trans (.endJob (.refl _ _ s)) ((State.leaves_dropItems _ j).mono (by simp) fun _ _ h => h)) (fun _ => .inr rfl)
      (by simp [physParts])

/-! ## The end of an item -/

theorem itemEnd_goes (small : e < 16) (pre : List VecStep) (how : ItemEnd) (flip : Nat) (dup : Bool) :
    exec (.itemEnd e pre how flip dup) s = .next (itemEndGo e how flip dup (s.vecSteps e pre)) := by
  rw [exec_itemEnd, execItemEnd, isVec_true small, unit_true]

theorem itemEndGo_none (none : (s.vec e).item = none) (how : ItemEnd) (flip : Nat) (dup : Bool) : itemEndGo e how flip dup s = s := by
  unfold itemEndGo
  rw [none]

variable {i : VItem} {x : Job}

theorem itemEndGo_done (item : (s.vec e).item = some i) (alone : s.pairOf true e = none) (kind : i.kind = 0) (flip : Nat) (dup : Bool) :
    itemEndGo e (.ecall 0) flip dup s = s.itemDone e i := by
  unfold itemEndGo
  rw [item, alone]
  exact if_neg (by omega)

theorem itemEndGo_fault (item : (s.vec e).item = some i) {how : ItemEnd} (bad : how = .exception ∨ how = .ecall 1) (flip : Nat)
    (dup : Bool) : itemEndGo e how flip dup s = s.itemFault e stJobFault := by
  unfold itemEndGo
  rw [item]
  rcases bad with rfl | rfl <;> rfl

theorem itemEndGo_xlate (item : (s.vec e).item = some i) (held : s.job i.job = some x) (va flip : Nat) (dup : Bool) :
    itemEndGo e (.xlate va) flip dup s
      = (s.dtuFault x.inst va false { cause := accessCause false }).itemFault e stXlate := by
  unfold itemEndGo
  rw [item]
  dsimp only
  rw [held]
  rfl

/-- A part of a VECTOR job is done: its record counts it, and it ends OK with the last part. -/
theorem State.itemDone_job (held : s.job i.job = some x) (runs : x.phase = .running) (op : x.opcode = 3) :
    ∃ y, (s.itemDone e i).job i.job = some y ∧ y.doneParts = insNat x.doneParts i.item
      ∧ (vcItems x ≤ (insNat x.doneParts i.item).length → y.phase = .ended ∧ y.status = stOk)
      ∧ ((insNat x.doneParts i.item).length < vcItems x → y.phase = .running) := by
  have now : x.itemsNow = vcItems x := by rw [Job.itemsNow, if_pos op]
  have before : (s.vecBoundary e).job i.job = some x :=
    (State.job_of_jobs ((s.leaves_boundary e).1 .jobs (by simp [physParts])) _).trans held
  obtain ⟨all, some_⟩ := (s.vecBoundary e).finishPart_job i.job i.item x.itemsNow x before runs
  have run : s.itemDone e i = ((s.vecBoundary e).finishPart i.job i.item x.itemsNow).deal
      (((s.vecBoundary e).finishPart i.job i.item x.itemsNow).jobFlask x) := by
    unfold State.itemDone
    rw [held]
    exact congrArg (fun t : State => t.deal (t.jobFlask x)) (if_neg (by omega))
  rw [run, ← now]
  generalize (s.vecBoundary e).finishPart i.job i.item x.itemsNow = t at all some_ ⊢
  rcases Nat.lt_or_ge (insNat x.doneParts i.item).length x.itemsNow with less | least
  · obtain ⟨n, -, job⟩ := IssuedOn.deal t (t.jobFlask x) _ _ (some_ less)
    exact ⟨_, job, rfl, fun no => absurd no (by omega), fun _ => runs⟩
  · obtain ⟨n, -, job⟩ := IssuedOn.deal t (t.jobFlask x) _ _ (all least)
    exact ⟨_, job, rfl, fun _ => ⟨rfl, rfl⟩, fun no => absurd no (by omega)⟩

theorem State.itemFault_fails (item : (s.vec e).item = some i) (alone : s.pairOf true e = none) (st : Nat) :
    s.itemFault e st = s.failItem i.job st i.item := by
  unfold State.itemFault
  rw [item]
  dsimp only
  rw [alone]

/-- R244: an access that does not translate ends the job, and its fault is reported. -/
theorem State.itemXlate_ends (item : (s.vec e).item = some i) (alone : s.pairOf true e = none) (held : s.job i.job = some x)
    (open_ : x.phase ≠ .ended) (va : Nat) : ∃ y,
    ((s.dtuFault x.inst va false { cause := accessCause false }).itemFault e stXlate).job i.job = some y ∧ y.phase = .ended
      ∧ y.status = stXlate ∧ y.detail = some i.item
      ∧ ((s.dtuFault x.inst va false { cause := accessCause false }).itemFault e stXlate).dtu.faults
        = { inst := x.inst, va := va, write := false, cause := accessCause false } :: s.dtu.faults := by
  have reported := s.dtuFault_faults x.inst va false { cause := accessCause false }
  have acc : Accessed s (s.dtuFault x.inst va false { cause := accessCause false }) := .dtuFault (.refl _ _ s)
  revert reported acc
  generalize s.dtuFault x.inst va false { cause := accessCause false } = u
  intro reported acc
  have item' : (u.vec e).item = some i := by rw [acc.vec_same (by simp [accessParts]), item]
  have alone' : u.pairOf true e = none := by rw [State.pairOf, acc.1 .pairs (by simp [accessParts])]; exact alone
  have held' : u.job i.job = some x := (State.job_of_jobs (acc.1 .jobs (by simp [accessParts])) _).trans held
  obtain ⟨y, job, ended, status, detail⟩ := State.itemFault_ends (st := stXlate) item' alone' held' open_
  refine ⟨y, job, ended, status, detail, ?_⟩
  rw [State.itemFault_fails item' alone', (u.leaves_failItem _ _ _).1 .dtuFaults (by simp [physParts]), reported]

theorem itemTimeout_goes (small : e < 16) : exec (.itemTimeout e) s = .next (timeoutGo e s) := by
  rw [exec_itemTimeout, execItemTimeout, isVec_true small, unit_true]

theorem timeoutGo_late (item : (s.vec e).item = some i) (held : s.job i.job = some x) (kind : i.kind = 0) (op : x.opcode = 3)
    (set : vcItemUs x ≠ 0) (late : reached s.now (i.startNs + 1000 * vcItemUs x + 1) = true) :
    timeoutGo e s = s.itemFault e stJobFault := by
  unfold timeoutGo
  rw [item]
  dsimp only
  rw [held]
  exact if_pos (by simp [kind, op, set, late])

theorem timeoutGo_early (item : (s.vec e).item = some i) (held : s.job i.job = some x)
    (early : vcItemUs x = 0 ∨ reached s.now (i.startNs + 1000 * vcItemUs x + 1) = false) : timeoutGo e s = s := by
  unfold timeoutGo
  rw [item]
  dsimp only
  rw [held]
  exact if_neg (by rcases early with no | no <;> simp [no])

theorem timeoutGo_none (none : (s.vec e).item = none) : timeoutGo e s = s := by
  unfold timeoutGo
  rw [none]

theorem State.vecPairEnd_running {p : Pair} (runs : p.phase = .running) (sig : Nat) :
    s.vecPairEnd e p (.ok sig) = s.pairEnd true e (some ([], sig)) none := by
  unfold State.vecPairEnd
  rw [runs]

/-- R143: the end of an item of a pair whose other execution goes on gives its signature. -/
theorem itemEndGo_pair {p : Pair} (item : (s.vec e).item = some i) (pair : s.pairOf true e = some p) (runs : p.phase = .running)
    (pri : p.pri = e) (other : p.rcEnd = none) (stays : bit p.overran 1 = false) (flip : Nat) (dup : Bool) :
    (itemEndGo e (.ecall 0) flip dup s).pairOf true e = some { p with
      priEnd := some s.now, faultP := none, sigP := some ([], Nat.xor (crc32Final (s.vec e).sig) flip) } := by
  have planted : Leaves [.flasks] noReg s (s.plantFault p.flask dup) := .ite (.modFlask (.refl _ _ s)) (.refl _ _ s)
  have ends : itemEndGo e (.ecall 0) flip dup s
      = (s.plantFault p.flask dup).pairEnd true e (some ([], Nat.xor (crc32Final (s.vec e).sig) flip)) none := by
    unfold itemEndGo
    rw [item, pair]
    exact State.vecPairEnd_running runs _
  have there : (s.plantFault p.flask dup).pairOf true e = some p := by rw [State.pairOf, planted.1 .pairs (by simp)]; exact pair
  have now : (s.plantFault p.flask dup).now = s.now := by rw [State.now, State.now, planted.1 .clock (by simp)]
  rw [ends]
  revert there now
  generalize s.plantFault p.flask dup = u
  generalize Nat.xor (crc32Final (s.vec e).sig) flip = sig
  intro there now
  have found := u.modPair_pairOf true e (fun p => p.oneEnded e u.now (some ([], sig)) none) p there fun q => by
    unfold Pair.oneEnded
    split <;> exact ⟨rfl, rfl, rfl⟩
  have mine : p.oneEnded e u.now (some ([], sig)) none = { p with priEnd := some s.now, faultP := none, sigP := some ([], sig) } := by
    rw [Pair.oneEnded, if_pos pri, now]
  rw [mine] at found
  have first : u.pairEnd true e (some ([], sig)) none = u.modPair true e fun p => p.oneEnded e u.now (some ([], sig)) none := by
    have matched : (u.modPair true e fun p => if p.pri = e then { p with priEnd := some u.now, sigP := some ([], sig), faultP := none }
        else { p with rcEnd := some u.now, sigR := some ([], sig), faultR := none })
        = u.modPair true e fun p => p.oneEnded e u.now (some ([], sig)) none := rfl
    unfold State.pairEnd
    dsimp only
    rw [matched, found]
    dsimp only
    rw [Pair.bothEnded, other, stays, if_neg (by simp)]
  rw [first, found]

/-! ## Preemption -/

theorem vectorPreempt_goes (small : e < 16) : exec (.vectorPreempt e) s = .next (preemptGo e s) := by
  rw [exec_vectorPreempt, execVectorPreempt, isVec_true small, unit_true]

theorem preemptGo_none (none : (s.vec e).item = none) : preemptGo e s = s := by
  unfold preemptGo
  rw [none]

theorem preemptGo_item (item : (s.vec e).item = some i) (held : s.job i.job = some x) : preemptGo e s
    = if s.timed (s.f VEC_STATUS.FLASK e) then s
      else if s.preemptQuiesce x then ((s.endJob x.id stAborted none).dropItems x.id).deal (s.f VEC_STATUS.FLASK e)
      else if s.preemptDisplay (s.f VEC_STATUS.FLASK e) x || s.preemptPrio (s.f VEC_STATUS.FLASK e) x.prio then s.saveItem e x i
      else s := by
  unfold preemptGo
  rw [item]
  dsimp only
  rw [held]

/-- What is kept of a preempted item. -/
abbrev State.keptItem (s : State) (e : Nat) (i : VItem) (slot : Nat) (ctx : Option VecSt) : SavedItem :=
  { it := { i with startNs := s.since i.startNs }, slot := slot, pc := (s.vec e).pc, ctx := ctx }

/-- One more saved item. -/
def State.alsoSaved (s : State) (k : SavedItem) : State := { s with units.saved := s.units.saved ++ [k] }

theorem State.alsoSaved_vec (k : SavedItem) : (s.alsoSaved k).vec e = s.vec e := (rfl)

/-- A preempted item's context is kept, and the engine passes its boundary. -/
def State.keepItem (s : State) (e : Nat) (k : SavedItem) : State := (s.alsoSaved k).vecBoundary e

theorem State.keepItem_saved (k : SavedItem) : (s.keepItem e k).units.saved = s.units.saved ++ [k] :=
  (State.leaves_boundary _ e).1 .saved (by simp [physParts])

theorem State.keepItem_cells (idle : (s.vec e).testBarDue = false) (k : SavedItem) : (s.keepItem e k).mem.cells = s.mem.cells :=
  (State.vecBoundary_plain (s.alsoSaved k) e (by rw [State.alsoSaved_vec, idle])).1 .cells (by simp)

theorem State.leaves_deal (s : State) (f : Nat) : Leaves [.jobs, .vecs, .freeCtr] vecStat s (s.deal f) := .deal (.refl _ _ s) fun _ => rfl

theorem State.saveItem_kept (kind : i.kind ≠ 0) : s.saveItem e x i
    = (s.keepItem e (s.keptItem e i 0 (some (s.vec e)))).deal (s.jobFlask x) := by
  unfold State.saveItem
  dsimp only
  rw [if_neg kind]
  rfl

theorem State.saveItem_written {s1 s2 : State} {bs : List Byte} (kind : i.kind = 0)
    (store : s.storeBytes (s.vec e) 0 (vcStoreKb x * 1024) = (bs, s1))
    (written : instWrite s1 x.inst (vcCtx x + s1.freeSave x.id (vcEngines x) * vcSlotBytes x)
        (vregBytes (s.vec e) ++ scalarBytes (s.vec e) ++ bs) = (.ok [], s2)) :
    s.saveItem e x i = (s2.keepItem e (s.keptItem e i (s1.freeSave x.id (vcEngines x)) none)).deal (s2.jobFlask x) := by
  unfold State.saveItem
  dsimp only
  rw [if_pos kind, store]
  dsimp only
  rw [written]
  rfl

theorem State.preempted_saved {s1 s2 : State} {bs : List Byte} (kind : i.kind = 0) (idle : (s.vec e).testBarDue = false)
    (store : s.storeBytes (s.vec e) 0 (vcStoreKb x * 1024) = (bs, s1))
    (written : instWrite s1 x.inst (vcCtx x + s1.freeSave x.id (vcEngines x) * vcSlotBytes x)
        (vregBytes (s.vec e) ++ scalarBytes (s.vec e) ++ bs) = (.ok [], s2)) :
    (s.saveItem e x i).units.saved = s.units.saved ++ [s.keptItem e i (s.freeSave x.id (vcEngines x)) none]
      ∧ (s.saveItem e x i).mem.cells = s2.mem.cells := by
  have drawn : Leaves [.freeCtr] noReg s s1 := by
    have : s1 = (s.storeBytes (s.vec e) 0 (vcStoreKb x * 1024)).2 := by rw [store]
    rw [this]
    exact .one .freeCtr (.refl _ _ s) (by simp)
  have acc : Accessed s1 s2 := .of_eq written (.instWrite (.refl _ _ s1))
  have saved : s2.units.saved = s.units.saved := (acc.1 .saved (by simp [accessParts])).trans (drawn.1 .saved (by simp))
  have slot : s1.freeSave x.id (vcEngines x) = s.freeSave x.id (vcEngines x) := by
    rw [State.freeSave, State.freeSave, drawn.1 .saved (by simp)]
  have idle2 : (s2.vec e).testBarDue = false := by rw [acc.vec_same (by simp [accessParts]), drawn.vec_same (by simp), idle]
  rw [State.saveItem_written kind store written, slot]
  constructor
  · rw [(State.leaves_deal _ _).1 .saved (by simp), State.keepItem_saved, saved]
  · rw [(State.leaves_deal _ _).1 .cells (by simp), State.keepItem_cells idle2]

/-- R216: under a quiesce the job ends ABORTED and nothing of it is kept. -/
theorem State.preempted_aborts (held : s.job i.job = some x) (open_ : x.phase ≠ .ended) (f : Nat) :
    ∃ y, (((s.endJob x.id stAborted none).dropItems x.id).deal f).job i.job = some y ∧ y.phase = .ended ∧ y.status = stAborted
      ∧ ∀ k ∈ (((s.endJob x.id stAborted none).dropItems x.id).deal f).units.saved, k.it.job ≠ i.job := by
  have id : x.id = i.job := State.id_of_job held
  rw [id]
  have ended := (JobTo.of_endJob stAborted none held open_).1
  obtain ⟨n, -, job⟩ := IssuedOn.deal ((s.endJob i.job stAborted none).dropItems i.job) f _ _
    ((State.job_of_jobs ((State.leaves_dropItems _ _).1 .jobs (by simp [physParts])) _).trans ended)
  refine ⟨_, job, rfl, rfl, fun k hk => ?_⟩
  rw [(State.leaves_deal _ _).1 .saved (by simp), State.dropItems_saved] at hk
  simpa using (List.mem_filter.1 hk).2

/-! ## Resumption -/

variable {j n : Nat} {k : SavedItem}

/-- A saved item leaves the saved ones. -/
def State.unsaved (s : State) (j n : Nat) : State :=
  { s with units.saved := s.units.saved.filter fun y => !(y.it.job == j && y.it.item == n) }

/-- A saved item as it goes on. -/
abbrev State.resumedItem (s : State) (k : SavedItem) : VItem := { k.it with startNs := uint 64 ((s.now : Int) - k.it.startNs) }

theorem State.leaves_unsaved : Leaves [.saved] noReg s (s.unsaved j n) := .one .saved (.refl _ _ s) (by simp)

theorem State.unsaved_saved : ∀ y ∈ (s.unsaved j n).units.saved, ¬(y.it.job = j ∧ y.it.item = n) := fun y hy ⟨mine, here⟩ => by
  have left := (List.mem_filter.1 hy).2
  simp [mine, here] at left

theorem vectorResume_goes (small : e < 16) : exec (.vectorResume e j n) s = .next (resumeGo e j n s) := by
  rw [exec_vectorResume, execVectorResume, isVec_true small, unit_true]

/-- The engine on which a saved item resumes with its context. -/
def State.resumedVec (s : State) (e : Nat) (g : VecSt → VecSt) : State := (s.modVec e g).setF VEC_STATUS.STATE e 1

theorem State.resumedVec_resumes (g : VecSt → VecSt) : (s.resumedVec e g).f VEC_STATUS.STATE e = 1 ∧ (s.resumedVec e g).vec e = g (s.vec e)
    ∧ (∀ q, q ≠ e → (s.resumedVec e g).vec q = s.vec q) ∧ Leaves [.vecs] (oneReg .vecStatus e) s (s.resumedVec e g) := by
  refine ⟨State.setF_f_same _ _ _ _ (by decide), ?_, fun q ne => ?_, .setF (.modVec (.refl _ _ s)) ⟨rfl, rfl⟩⟩
  · rw [State.resumedVec, State.setF_vec, State.modVec_vec, if_pos rfl]
  · rw [State.resumedVec, State.setF_vec, State.modVec_vec, if_neg ne]

theorem resumeGo_read {s1 : State} {bs : List Byte} (held : s.job j = some x)
    (saved : s.units.saved.find? (fun k => k.it.job == j && k.it.item == n) = some k) (free : s.engFree e = true)
    (mine : s.f VEC_STATUS.FLASK e = s.jobFlask x) (runs : x.phase = .running) (ctx : k.ctx = none)
    (few : s.heldBy j < vcEngines x)
    (read : instRead (s.unsaved j n) x.inst (vcCtx x + k.slot * vcSlotBytes x) (vcSlotBytes x) = (.ok bs, s1)) :
    resumeGo e j n s = s1.resumedVec e fun v => { v.restore bs with item := some (s.resumedItem k), user := true, pc := k.pc } := by
  unfold State.unsaved at read
  unfold resumeGo
  rw [held, saved]
  dsimp only
  rw [if_neg (by simp [free, mine, runs]), ctx]
  dsimp only
  rw [if_neg (by simp [few]), read]
  rfl

theorem resumeGo_kept {v : VecSt} (held : s.job j = some x)
    (saved : s.units.saved.find? (fun k => k.it.job == j && k.it.item == n) = some k) (free : s.engFree e = true)
    (mine : s.f VEC_STATUS.FLASK e = s.jobFlask x) (runs : x.phase = .running) (ctx : k.ctx = some v) :
    resumeGo e j n s = (s.unsaved j n).resumedVec e fun y =>
      { v with item := some (s.resumedItem k), testBar := y.testBar, testBarDue := y.testBarDue, withdrawDue := y.withdrawDue
               lastBarNs := y.lastBarNs } := by
  unfold resumeGo
  rw [held, saved]
  dsimp only
  rw [if_neg (by simp [free, mine, runs]), ctx]
  rfl

theorem resumeGo_waits (h : s.job j = none ∨ s.engFree e = false) : resumeGo e j n s = s := by
  unfold resumeGo
  split
  · next held _ =>
    have busy : s.engFree e = false := h.resolve_left fun no => by rw [held] at no; cases no
    dsimp only
    rw [if_pos (by simp [busy])]
  · rfl

end

end Sys2Proof.Machine
end

section
/-! PROOFS. What O48 says: vector items are dealt, ended and preempted (R143, R181, R216, R243 to R245, R253). -/

set_option Elab.async false

namespace Sys2Proof.Machine

section
variable {s : State} {e : Nat} {i : VItem} {x : Job}

/-- The ends of an item outside a pair. -/
theorem itemEnds (small : e < 16) (item : (s.vec e).item = some i) (alone : s.pairOf true e = none) (held : s.job i.job = some x)
    (runs : x.phase = .running) (flip : Nat) (dup : Bool) :
    (x.opcode = 3 → i.kind = 0 → ∃ t y, exec (.itemEnd e [] (.ecall 0) flip dup) s = .next t ∧ t.job i.job = some y
      ∧ y.doneParts = insNat x.doneParts i.item
      ∧ (vcItems x ≤ (insNat x.doneParts i.item).length → y.phase = .ended ∧ y.status = stOk)
      ∧ ((insNat x.doneParts i.item).length < vcItems x → y.phase = .running))
    ∧ (∀ how, how = .exception ∨ how = .ecall 1 → ∃ t y, exec (.itemEnd e [] how flip dup) s = .next t
      ∧ t.job i.job = some y ∧ y.phase = .ended ∧ y.status = stJobFault ∧ y.detail = some i.item)
    ∧ (∀ va, ∃ t y, exec (.itemEnd e [] (.xlate va) flip dup) s = .next t ∧ t.job i.job = some y ∧ y.phase = .ended
      ∧ y.status = stXlate ∧ y.detail = some i.item
      ∧ t.dtu.faults = { inst := x.inst, va := va, write := false, cause := accessCause false } :: s.dtu.faults)
    ∧ (i.kind = 0 → x.opcode = 3 → vcItemUs x ≠ 0 → reached s.now (i.startNs + 1000 * vcItemUs x + 1) = true →
      ∃ t y, exec (.itemTimeout e) s = .next t ∧ t.job i.job = some y ∧ y.phase = .ended ∧ y.status = stJobFault
        ∧ y.detail = some i.item)
    ∧ ((vcItemUs x = 0 ∨ reached s.now (i.startNs + 1000 * vcItemUs x + 1) = false) → exec (.itemTimeout e) s = .next s) := by
  have open_ : x.phase ≠ .ended := by rw [runs]; decide
  obtain ⟨y, fault⟩ := State.itemFault_ends (st := stJobFault) item alone held open_
  refine ⟨fun op kind => ?_, fun how bad => ?_, fun va => ?_, fun kind op set late => ?_, fun early => ?_⟩
  · obtain ⟨z, job⟩ := State.itemDone_job (e := e) held runs op
    refine ⟨_, z, ?_, job⟩
    rw [itemEnd_goes small, State.vecSteps_nil, itemEndGo_done item alone kind]
  · refine ⟨_, y, ?_, fault⟩
    rw [itemEnd_goes small, State.vecSteps_nil, itemEndGo_fault item bad]
  · obtain ⟨z, job⟩ := State.itemXlate_ends item alone held open_ va
    refine ⟨_, z, ?_, job⟩
    rw [itemEnd_goes small, State.vecSteps_nil, itemEndGo_xlate item held]
  · refine ⟨_, y, ?_, fault⟩
    rw [itemTimeout_goes small, timeoutGo_late item held kind op set late]
  · rw [itemTimeout_goes small, timeoutGo_early item held early]

theorem vectorPreempt_runs (small : e < 16) (item : (s.vec e).item = some i) (held : s.job i.job = some x) :
    exec (.vectorPreempt e) s = .next (if s.timed (s.f VEC_STATUS.FLASK e) then s
      else if s.preemptQuiesce x then ((s.endJob x.id stAborted none).dropItems x.id).deal (s.f VEC_STATUS.FLASK e)
      else if s.preemptDisplay (s.f VEC_STATUS.FLASK e) x || s.preemptPrio (s.f VEC_STATUS.FLASK e) x.prio then s.saveItem e x i
      else s) := by rw [vectorPreempt_goes small, preemptGo_item item held]

theorem vectorPreempt_saves (small : e < 16) (item : (s.vec e).item = some i) (held : s.job i.job = some x)
    (plain : s.timed (s.f VEC_STATUS.FLASK e) = false) (live : s.preemptQuiesce x = false)
    (due : s.preemptDisplay (s.f VEC_STATUS.FLASK e) x = true ∨ s.preemptPrio (s.f VEC_STATUS.FLASK e) x.prio = true) :
    exec (.vectorPreempt e) s = .next (s.saveItem e x i) := by
  rw [vectorPreempt_runs small item held, plain, if_neg (by decide), live, if_neg (by decide), if_pos (by simpa using due)]

/-- The resumption of a saved item. -/
theorem vectorResume_resumes {j n : Nat} {k : SavedItem} (small : e < 16) (held : s.job j = some x)
    (saved : s.units.saved.find? (fun k => k.it.job == j && k.it.item == n) = some k) (free : s.engFree e = true)
    (mine : s.f VEC_STATUS.FLASK e = s.jobFlask x) (runs : x.phase = .running) :
    (k.ctx = none → s.heldBy j < vcEngines x → ∀ (s1 : State) (bs : List Byte),
      instRead (s.unsaved j n) x.inst (vcCtx x + k.slot * vcSlotBytes x) (vcSlotBytes x) = (.ok bs, s1) →
      ∃ t, exec (.vectorResume e j n) s = .next t ∧ t.f VEC_STATUS.STATE e = 1
        ∧ t.vec e = { (s.vec e).restore bs with item := some (s.resumedItem k), user := true, pc := k.pc }
        ∧ (∀ y ∈ t.units.saved, ¬(y.it.job = j ∧ y.it.item = n)) ∧ (∀ q, q ≠ e → t.vec q = s.vec q)
        ∧ Leaves (.saved :: .vecs :: accessParts) (fun r q => accessRegs r q ∨ (r = .vecStatus ∧ q = e)) s t)
    ∧ (∀ v, k.ctx = some v → ∃ t, exec (.vectorResume e j n) s = .next t ∧ t.f VEC_STATUS.STATE e = 1
        ∧ (t.vec e).item = some (s.resumedItem k) ∧ (t.vec e).vreg = v.vreg
        ∧ (t.vec e).xreg = v.xreg ∧ (t.vec e).freg = v.freg ∧ (t.vec e).store = v.store ∧ (t.vec e).pc = v.pc
        ∧ (∀ y ∈ t.units.saved, ¬(y.it.job = j ∧ y.it.item = n)) ∧ (∀ q, q ≠ e → t.vec q = s.vec q)
        ∧ Leaves [.saved, .vecs] (oneReg .vecStatus e) s t) := by
  have left : Leaves [.saved] noReg s (s.unsaved j n) := State.leaves_unsaved
  refine ⟨fun ctx few s1 bs read => ?_, fun v ctx => ?_⟩
  · have acc : Accessed (s.unsaved j n) s1 := .of_eq read (.instRead (.refl _ _ _))
    have vec : ∀ q, s1.vec q = s.vec q := fun q =>
      (acc.vec_same (by simp [accessParts]) q).trans (left.vec_same (by simp) q)
    obtain ⟨state, here, others, leaves⟩ := s1.resumedVec_resumes (e := e) fun v =>
      { v.restore bs with item := some (s.resumedItem k), user := true, pc := k.pc }
    refine ⟨_, ?_, state, by rw [here, vec], fun y hy => ?_, fun q ne => (others q ne).trans (vec q), ?_⟩
    · rw [vectorResume_goes small, resumeGo_read held saved free mine runs ctx few read]
    · rw [leaves.1 .saved (by simp), acc.1 .saved (by simp [accessParts])] at hy
      exact State.unsaved_saved y hy
    · exact ((left.mono (by simp) fun _ _ no => no.elim).into acc (by simp [accessParts]) fun _ _ h => .inl h).into leaves (by simp)
        fun _ _ h => .inr h
  · obtain ⟨state, here, others, leaves⟩ := (s.unsaved j n).resumedVec_resumes (e := e) fun y =>
      { v with item := some (s.resumedItem k), testBar := y.testBar, testBarDue := y.testBarDue, withdrawDue := y.withdrawDue
               lastBarNs := y.lastBarNs }
    refine ⟨_, ?_, state, by rw [here], by rw [here], by rw [here], by rw [here], by rw [here], by rw [here], fun y hy => ?_,
      fun q ne => (others q ne).trans (left.vec_same (by simp) q), ?_⟩
    · rw [vectorResume_goes small, resumeGo_kept held saved free mine runs ctx]
    · rw [leaves.1 .saved (by simp)] at hy
      exact State.unsaved_saved y hy
    · exact (left.mono (by simp) fun _ _ no => no.elim).into leaves (by simp) fun _ _ h => h

end

/-- Settles O48: dealing goes through the engines in turn, every end of an item ends or completes its job's part, and a saved
context gives back the registers whose bytes it is. -/
theorem vectorItemsAreDealtEndedAndPreempted : Obligations.VectorItemsAreDealtEndedAndPreempted := by
  unfold Obligations.VectorItemsAreDealtEndedAndPreempted
  refine ⟨fun s j x h plain => vector_deals h plain, fun s j x h timed => vector_timed h timed,
    fun s e flip dup i x small item alone held runs => itemEnds small item alone held runs flip dup,
    fun s e flip pre how dup small => ⟨fun none => ⟨?_, ?_, ?_⟩, ?_⟩,
    fun s e flip dup i p small item pair runs pri _ other stays => ⟨_, ?_, itemEndGo_pair item pair runs pri other stays flip dup⟩,
    fun s s1 s2 e i x bs small item held plain live kind idle due store written =>
      ⟨_, vectorPreempt_saves small item held plain live due, State.preempted_saved kind idle store written⟩,
    fun s e i x small item held plain live kind due => ⟨_, vectorPreempt_saves small item held plain live due, ?_⟩,
    fun s e i x small item held open_ plain quiet => ?_, fun s e i x small item held no => ?_,
    fun s e j n x k small held saved free mine runs => vectorResume_resumes small held saved free mine runs,
    fun o v hs hl hv hf st => VecSt.restore_context v st o hs hl hv hf, fun s e j n small no => ?_⟩
  · have steps : s.vecSteps e pre = s := by rw [State.vecSteps, none]; rfl
    rw [itemEnd_goes small, steps, itemEndGo_none none]
  · rw [itemTimeout_goes small, timeoutGo_none none]
  · rw [vectorPreempt_goes small, preemptGo_none none]
  · rw [itemEnd_goes small, itemEnd_goes small, State.vecSteps_nil]
  · rw [itemEnd_goes small, State.vecSteps_nil]
  · rw [State.saveItem_kept kind, (State.leaves_deal _ _).1 .saved (by simp), State.keepItem_saved]
  · obtain ⟨y, job⟩ := State.preempted_aborts held open_ (s.f VEC_STATUS.FLASK e)
    refine ⟨_, y, ?_, job⟩
    rw [vectorPreempt_runs small item held, plain, if_neg (by decide), quiet, if_pos rfl]
  · rw [vectorPreempt_runs small item held]
    rcases no with timed | ⟨live, display, prio⟩
    · rw [if_pos timed]
    · rw [live, display, prio]
      split <;> rfl
  · rw [vectorResume_goes small, resumeGo_waits no]

end Sys2Proof.Machine
end

section
/-! PROOFS. Camera contexts (R246 to R249, R260), and what O49 says. -/

set_option Elab.async false

namespace Sys2Proof.Machine

/-! ## Counters beside another field of their register -/

section
variable (s : State) (x y : Fld) (i n : Nat)

theorem State.incSat_f_beside (j : Nat) (fits : x.fits) (apart : x.apart y) : (s.incSat x i n).f y j = s.f y j :=
  State.setF_f_apart _ _ _ _ _ _ fits apart

theorem State.incWrap_f_beside (j : Nat) (fits : x.fits) (apart : x.apart y) : (s.incWrap x i n).f y j = s.f y j :=
  State.setF_f_apart _ _ _ _ _ _ fits apart

end

/-! ## Accesses of a real-time master -/

section
variable (s : State) (m n : Nat)

theorem rtRequest_uses : Leaves [.rtUsed] (fun r _ => r = .gateRt) s (rtRequest m n s) := by
  unfold rtRequest
  dsimp only
  exact .ite (.one .rtUsed (.refl _ _ s) (by simp)) (.setF (.refl _ _ s) rfl)

theorem rtRequests_uses : Leaves [.rtUsed] (fun r _ => r = .gateRt) s (rtRequests m n s) :=
  .over (.refl _ _ s) fun _ t h => h.trans (rtRequest_uses t m _)

theorem State.rtCharge_uses (t : State) : Leaves [.gates, .gateQ, .rtUsed] (fun r _ => r = .gateRt) t (t.rtCharge s m n) :=
  Leaves.trans (.parts (.refl _ _ t)) ((rtRequests_uses _ m n).mono (by simp) fun _ _ e => e)

theorem State.rtCharge_cells (t : State) : (t.rtCharge s m n).mem.cells = t.mem.cells := (s.rtCharge_uses m n t).1 .cells (by simp)

end

section
variable {s : State} {c : Nat}

theorem isCam_true (hc : c < 24) : isCam c = true := decide_eq_true hc

theorem Leaves.cam_same {ps : List Part} {q : Reg → Nat → Prop} {s t : State} (h : Leaves ps q s t) (hp : .cams ∉ ps) (k : Nat) :
    t.cam k = s.cam k := by rw [State.cam, State.cam, h.1 .cams hp]

/-! ## Enabling and disabling -/

variable {m : Master} {v : Word}

theorem cameraContextEnable_enables (hc : c < 24) (acc : s.accepts .dspCamctx0 c m .whole (withBit v 63)) :
    exec (.cameraContextEnable m c v) s = .next ((s.wrote c (withBit v 63) .dspCamctx0).camEnable c) := by
  have on : bit (s.merged .dspCamctx0 c .whole (withBit v 63)) 63 = true := by
    rw [bit, s.merged_rw .dspCamctx0 c .whole _ 63 63 (by simp [Reg.fieldsAt, Reg.fields])]
    exact beq_iff_eq.2 (bits_withBit v 63)
  have rise := s.accepts_sets .dspCamctx0 c _ m DSP_CAMCTX0.EN acc rfl rfl rfl rfl on
  rw [exec_cameraContextEnable, execCameraContextEnable, isCam_true hc, unit_true, State.regWrite_whole s .dspCamctx0 c _ m acc
    (by decide) (by simp [State.hitsLock, Reg.fieldsAt, Reg.fields]) rfl, State.afterWrite]
  exact congrArg _ (if_pos rise)

/-- A context as its buffer table gives it. -/
abbrev camFrom (n : Nat) (bs : List Byte) : CamSt :=
  { recordBase := leAt bs 0 8, counterAddr := leAt bs 8 8
    bufs := (List.range n).map fun b => (leAt bs (64 + 32 * b) 8, leAt bs (72 + 32 * b) 8, leAt bs (80 + 32 * b) 8) }

theorem State.camEnable_reads {u s1 : State} {bs : List Byte}
    (read : rtRead (u.f DSP_CAMCTX0.PORT c) u (u.f DSP_CAMCTX0.INSTANCE c) (u.f DSP_CAMCTX1.TABLE_ADDR c * 64)
      (64 + 32 * u.f DSP_CAMCTX0.BUFS c) = (.ok bs, s1)) :
    u.camEnable c = s1.modCam c fun _ => camFrom (u.f DSP_CAMCTX0.BUFS c) bs := by
  unfold State.camEnable
  dsimp only
  rw [read]

theorem cameraContextEnable_reads {s1 : State} {bs : List Byte} (hc : c < 24) (acc : s.accepts .dspCamctx0 c m .whole (withBit v 63))
    (read : rtRead (bits v.toNat 62 60) (s.setR .dspCamctx0 c (s.newValue .dspCamctx0 c .whole (withBit v 63))) (bits v.toNat 45 38)
      (s.f DSP_CAMCTX1.TABLE_ADDR c * 64) (64 + 32 * bits v.toNat 49 46) = (.ok bs, s1)) :
    ∃ t, exec (.cameraContextEnable m c v) s = .next t ∧ t.fb DSP_CAMCTX0.EN c = true
      ∧ t.cam c = camFrom (bits v.toNat 49 46) bs ∧ (∀ k, k ≠ c → t.cam k = s.cam k) := by
  have run := cameraContextEnable_enables hc acc
  have wrote := s.leaves_wrote c (withBit v 63) .dspCamctx0
  have field : ∀ x : Fld, x.reg = .dspCamctx0 → (x.hi, x.lo, FKind.rw) ∈ x.reg.fieldsAt c → x.hi < 63 →
      (s.wrote c (withBit v 63) .dspCamctx0).f x c = bits v.toNat x.hi x.lo := fun x hx hm low => by
    rw [← hx, s.wrote_rw c _ x hm, bits_withBit_apart v 63 _ _ (.inl low)]
  have port : (s.wrote c (withBit v 63) .dspCamctx0).f DSP_CAMCTX0.PORT c = bits v.toNat 62 60 :=
    field DSP_CAMCTX0.PORT rfl (by simp [Reg.fieldsAt, Reg.fields, DSP_CAMCTX0.PORT]) (by decide)
  have inst : (s.wrote c (withBit v 63) .dspCamctx0).f DSP_CAMCTX0.INSTANCE c = bits v.toNat 45 38 :=
    field DSP_CAMCTX0.INSTANCE rfl (by simp [Reg.fieldsAt, Reg.fields, DSP_CAMCTX0.INSTANCE]) (by decide)
  have bufs : (s.wrote c (withBit v 63) .dspCamctx0).f DSP_CAMCTX0.BUFS c = bits v.toNat 49 46 :=
    field DSP_CAMCTX0.BUFS rfl (by simp [Reg.fieldsAt, Reg.fields, DSP_CAMCTX0.BUFS]) (by decide)
  have table : (s.wrote c (withBit v 63) .dspCamctx0).f DSP_CAMCTX1.TABLE_ADDR c = s.f DSP_CAMCTX1.TABLE_ADDR c :=
    s.wrote_f c _ .dspCamctx0 DSP_CAMCTX1.TABLE_ADDR c (by decide)
  have enBit : ∀ w, bits w DSP_CAMCTX0.EN.hi DSP_CAMCTX0.EN.lo = bits w 63 63 := fun _ => rfl
  have en : (s.wrote c (withBit v 63) .dspCamctx0).fb DSP_CAMCTX0.EN c = true := State.fb_of_f
    ((s.wrote_rw c _ DSP_CAMCTX0.EN (by simp [Reg.fieldsAt, Reg.fields, DSP_CAMCTX0.EN])).trans (by rw [enBit, bits_withBit]))
  have read' : rtRead (bits v.toNat 62 60) (s.wrote c (withBit v 63) .dspCamctx0) (bits v.toNat 45 38)
      (s.f DSP_CAMCTX1.TABLE_ADDR c * 64) (64 + 32 * bits v.toNat 49 46) = (.ok bs, s1) := read
  revert run wrote port inst bufs table en read'
  generalize s.wrote c (withBit v 63) .dspCamctx0 = u
  intro run wrote port inst bufs table en read'
  have acc : Leaves rtParts rtRegs u s1 := by
    have := leaves_rtRead (bits v.toNat 62 60) u (bits v.toNat 45 38) (s.f DSP_CAMCTX1.TABLE_ADDR c * 64) (64 + 32 * bits v.toNat 49 46)
    rwa [read'] at this
  have enabled := State.camEnable_reads (u := u) (c := c) (s1 := s1) (bs := bs) (by rw [port, inst, table, bufs, read'])
  rw [bufs] at enabled
  rw [enabled] at run
  refine ⟨_, run, ?_, by rw [State.modCam_cam, if_pos rfl], fun k ne => ?_⟩
  · rw [State.fb_eq, State.modCam_f, acc.f_same DSP_CAMCTX0.EN c (by simp [rtRegs, accessRegs, DSP_CAMCTX0.EN]), ← State.fb_eq, en]
  · rw [State.modCam_cam, if_neg ne, acc.cam_same (by simp [rtParts, accessParts]), wrote.cam_same (by simp)]

/-- What the fall of EN does to the context. -/
theorem State.afterWrite_dspCamctx0_falls {u : State} {o n w : Nat} (norise : rises o n DSP_CAMCTX0.EN.lo = false)
    (fell : falls o n DSP_CAMCTX0.EN.lo = true) : u.afterWrite .dspCamctx0 c m o n w
      = if (u.cam c).active then u.modCam c fun k => { k with stopping := true } else u := by
  have cmd : u.afterWrite .dspCamctx0 c m o n w = if rises o n DSP_CAMCTX0.EN.lo then u.camEnable c
      else if falls o n DSP_CAMCTX0.EN.lo && (u.cam c).active then u.modCam c fun k => { k with stopping := true } else u := rfl
  rw [cmd, norise, fell, Bool.true_and, if_neg (by decide)]

theorem cameraContextDisable_stops (hc : c < 24) (clears : s.clears .dspCamctx0 c m .whole (withoutBit v 63) DSP_CAMCTX0.EN) :
    ∃ t, exec (.cameraContextDisable m c v) s = .next t ∧ t.fb DSP_CAMCTX0.EN c = false
      ∧ t.cam c = (if (s.cam c).active then { s.cam c with stopping := true } else s.cam c)
      ∧ (∀ k, k ≠ c → t.cam k = s.cam k) ∧ Leaves [.cams] (oneReg .dspCamctx0 c) s t := by
  obtain ⟨fell, norise⟩ := s.clears_falls .dspCamctx0 c _ m DSP_CAMCTX0.EN clears rfl rfl
  have run : exec (.cameraContextDisable m c v) s = .next (if (s.cam c).active
      then (s.setF DSP_CAMCTX0.EN c 0).modCam c fun k => { k with stopping := true } else s.setF DSP_CAMCTX0.EN c 0) := by
    have set : s.setR .dspCamctx0 c (putBits (s.r .dspCamctx0 c) DSP_CAMCTX0.EN.lo DSP_CAMCTX0.EN.lo 0)
        = s.setF DSP_CAMCTX0.EN c 0 := rfl
    rw [exec_cameraContextDisable, execCameraContextDisable, isCam_true hc, unit_true,
      State.regWrite_clears s .dspCamctx0 c m .whole _ _ (by decide) (by decide) clears, State.afterWrite_dspCamctx0_falls norise fell, set, State.setF_cam]
  have off : (s.setF DSP_CAMCTX0.EN c 0).fb DSP_CAMCTX0.EN c = false := by
    rw [State.fb_eq, State.setF_f_same _ _ _ _ (by decide), Nat.zero_mod]
    rfl
  have left : Leaves [.cams] (oneReg .dspCamctx0 c) s (s.setF DSP_CAMCTX0.EN c 0) := .setF (.refl _ _ s) ⟨rfl, rfl⟩
  by_cases active : (s.cam c).active = true
  · rw [if_pos active] at run ⊢
    refine ⟨_, run, ?_, ?_, fun k ne => ?_, .modCam left⟩
    · rw [State.fb_eq, State.modCam_f, ← State.fb_eq, off]
    · rw [State.modCam_cam, if_pos rfl, State.setF_cam]
    · rw [State.modCam_cam, if_neg ne, State.setF_cam]
  · rw [if_neg active] at run ⊢
    exact ⟨_, run, off, State.setF_cam _ _ _ _ _, fun k _ => State.setF_cam _ _ _ _ _, left⟩

/-! ## Frames -/

theorem frameStart_goes (hc : c < 24) : exec (.frameStart c) s = .next (frameStartGo c s) := by
  rw [exec_frameStart, execFrameStart, isCam_true hc, unit_true]

theorem State.ingestRecord_none (none : (s.cam c).recordDue = false) : s.ingestRecord c = s := by
  unfold State.ingestRecord
  dsimp only
  rw [none]
  rfl

/-- A context whose frame has begun. -/
def State.frameBegun (s : State) (c : Nat) : State :=
  (s.incWrap DSP_CAMSTAT.FRAMES c 1).modCam c fun k =>
    { k with active := true, buf := some (s.cam c).next, frame := s.f DSP_CAMSTAT.FRAMES c, lines := 0, flags := 0, tSof := s.now
             dead := false }

theorem State.frameBegun_cam (k : Nat) : (s.frameBegun c).cam k = if k = c then { s.cam c with
    active := true, buf := some (s.cam c).next, frame := s.f DSP_CAMSTAT.FRAMES c, lines := 0, flags := 0, tSof := s.now, dead := false }
      else s.cam k := by rw [State.frameBegun, State.modCam_cam, State.incWrap_cam, State.incWrap_cam]

theorem State.leaves_frameBegun : Leaves [.cams] (oneReg .dspCamstat c) s (s.frameBegun c) := .modCam (.incWrap (.refl _ _ s) ⟨rfl, rfl⟩)

theorem State.frameBegun_frames : (s.frameBegun c).f DSP_CAMSTAT.FRAMES c = (s.f DSP_CAMSTAT.FRAMES c + 1) % 2 ^ 32 := by
  rw [State.frameBegun, State.modCam_f, State.incWrap_f_same _ _ _ _ (by decide)]
  rfl

theorem State.frameBegun_dropped : (s.frameBegun c).f DSP_CAMSTAT.FRAMES_DROPPED c = s.f DSP_CAMSTAT.FRAMES_DROPPED c := by
  rw [State.frameBegun, State.modCam_f, State.incWrap_f_beside _ _ _ _ _ _ (by decide) (by decide)]

theorem State.frameBegun_locked (b : Nat) : (s.frameBegun c).bufLocked c b = s.bufLocked c b := by
  have left := s.leaves_frameBegun (c := c)
  have bufs : ((s.frameBegun c).cam c).bufs = (s.cam c).bufs := by rw [State.frameBegun_cam, if_pos rfl]
  unfold State.bufLocked
  rw [bufs, left.1 .jobs (by simp), left.f_same DSP_CAMCTX0.INSTANCE c (by simp [oneReg, DSP_CAMCTX0.INSTANCE])]

theorem frameStartGo_begins (en : s.fb DSP_CAMCTX0.EN c = true) (idle : (s.cam c).active = false) (none : (s.cam c).recordDue = false) :
    frameStartGo c s = if s.bufLocked c (s.cam c).next then (s.frameBegun c).dropFrame c else s.frameBegun c := by
  have begun : frameStartGo c s
      = if (s.frameBegun c).bufLocked c (s.cam c).next then (s.frameBegun c).dropFrame c else s.frameBegun c := by
    unfold frameStartGo
    rw [en, idle, if_neg (by decide)]
    dsimp only
    rw [State.ingestRecord_none none]
    rfl
  rw [begun, State.frameBegun_locked]

theorem frameStart_begins (hc : c < 24) (en : s.fb DSP_CAMCTX0.EN c = true) (idle : (s.cam c).active = false)
    (none : (s.cam c).recordDue = false) :
    ∃ t, exec (.frameStart c) s = .next t ∧ (t.cam c).active = true ∧ (t.cam c).frame = s.f DSP_CAMSTAT.FRAMES c
      ∧ (t.cam c).tSof = s.now ∧ (t.cam c).lines = 0
      ∧ t.f DSP_CAMSTAT.FRAMES c = (s.f DSP_CAMSTAT.FRAMES c + 1) % 2 ^ 32
      ∧ (s.bufLocked c (s.cam c).next = false → (t.cam c).buf = some (s.cam c).next
          ∧ t.f DSP_CAMSTAT.FRAMES_DROPPED c = s.f DSP_CAMSTAT.FRAMES_DROPPED c)
      ∧ (s.bufLocked c (s.cam c).next = true → (t.cam c).buf = .none ∧ bit (t.cam c).flags 0 = true
          ∧ t.f DSP_CAMSTAT.FRAMES_DROPPED c
              = min (s.f DSP_CAMSTAT.FRAMES_DROPPED c + 1) DSP_CAMSTAT.FRAMES_DROPPED.top)
      ∧ (∀ k, k ≠ c → t.cam k = s.cam k) ∧ Leaves [.cams] (oneReg .dspCamstat c) s t := by
  have run := (frameStart_goes (s := s) hc).trans (congrArg _ (frameStartGo_begins en idle none))
  have begun := State.frameBegun_cam (s := s) (c := c)
  have left := State.leaves_frameBegun (s := s) (c := c)
  have frames := State.frameBegun_frames (s := s) (c := c)
  have dropped := State.frameBegun_dropped (s := s) (c := c)
  revert run begun left frames dropped
  generalize s.frameBegun c = u
  intro run begun left frames dropped
  have here := begun c
  rw [if_pos rfl] at here
  cases locked : s.bufLocked c (s.cam c).next with
  | false =>
    rw [locked, if_neg (by decide)] at run
    refine ⟨u, run, by rw [here], by rw [here], by rw [here], by rw [here], frames, fun _ => ⟨by rw [here], dropped⟩, nofun,
      fun k ne => (begun k).trans (if_neg ne), left⟩
  | true =>
    rw [locked, if_pos rfl] at run
    have cam : ∀ k, (u.dropFrame c).cam k = if k = c then { u.cam c with buf := .none, flags := Nat.lor (u.cam c).flags 1 } else u.cam k :=
      fun k => by rw [State.dropFrame, State.modCam_cam, State.incSat_cam, State.incSat_cam]
    have mine := cam c
    rw [if_pos rfl, here] at mine
    refine ⟨_, run, by rw [mine], by rw [mine], by rw [mine], by rw [mine], ?_, nofun, fun _ => ⟨by rw [mine], by rw [mine]; rw [bit_lor, (by decide : bit 1 0 = true), Bool.or_true], ?_⟩,
      fun k ne => ((cam k).trans (if_neg ne)).trans ((begun k).trans (if_neg ne)), .modCam (.incSat left ⟨rfl, rfl⟩)⟩
    · rw [State.dropFrame, State.modCam_f, State.incSat_f_beside _ _ _ _ _ _ (by decide) (by decide), frames]
    · rw [State.dropFrame, State.modCam_f, State.incSat_f_same _ _ _ _ (by decide), dropped]

theorem frameStart_ignored (hc : c < 24) (h : s.fb DSP_CAMCTX0.EN c = false ∨ (s.cam c).active = true) :
    exec (.frameStart c) s = .next s := by
  rw [frameStart_goes hc, frameStartGo, if_pos]
  rcases h with off | busy
  · simp [off]
  · simp [busy]

/-! ## Packets -/

variable {p : CamPacket}

theorem cameraPacket_goes (hc : c < 24) : exec (.cameraPacket c p) s = .next (packetGo c p s) := by
  rw [exec_cameraPacket, execCameraPacket, isCam_true hc, unit_true]

/-- A packet of another data type. -/
abbrev State.otherType (s : State) (c : Nat) (p : CamPacket) : Bool := (camBytes p.dt).isNone || p.dt != s.f DSP_CAMCTX0.DT c

theorem packetGo_off (idle : (s.cam c).active = false) (off : s.fb DSP_CAMCTX0.EN c = false) : packetGo c p s = s := by
  rw [packetGo, idle, off, if_pos (by decide)]

/-- A packet whose header was not corrected reaches its context. -/
theorem packetGo_judged (on : (s.cam c).active = true ∨ s.fb DSP_CAMCTX0.EN c = true) (corr : p.hdrCorr = false) : packetGo c p s
    = if p.hdrErr then s.modCam c fun k => if (s.cam c).active then { k with flags := Nat.lor k.flags 0x10 } else k
      else if p.frameEnd then s.whenB (s.cam c).active fun s => s.camEnd c
      else if s.otherType c p then s.incSat DSP_CAMSTAT.OTHER_DT c 1
      else if !(s.cam c).active then s
      else (if p.crcErr then (s.incSat DSP_CAMPORT.CRC_ERR (s.f DSP_CAMCTX0.PORT c) 1).modCam c fun k =>
          { k with flags := Nat.lor k.flags 8 } else s).camStore c p.pixels := by
  have reaches : (!(s.cam c).active && !s.fb DSP_CAMCTX0.EN c) = false := by
    rcases on with on | on <;> simp [on]
  unfold packetGo
  rw [reaches, if_neg (by decide), State.otherType]
  simp only [corr, Bool.false_eq_true, if_false]

theorem packet_other (on : (s.cam c).active = true ∨ s.fb DSP_CAMCTX0.EN c = true) (corr : p.hdrCorr = false) (hdr : p.hdrErr = false)
    (goes : p.frameEnd = false) (other : p.dt ≠ s.f DSP_CAMCTX0.DT c) : packetGo c p s = s.incSat DSP_CAMSTAT.OTHER_DT c 1 := by
  rw [packetGo_judged on corr, hdr, if_neg (by decide), goes, if_neg (by decide), if_pos (by simp [State.otherType, other])]

theorem State.otherCounted : (s.incSat DSP_CAMSTAT.OTHER_DT c 1).f DSP_CAMSTAT.OTHER_DT c
      = min (s.f DSP_CAMSTAT.OTHER_DT c + 1) DSP_CAMSTAT.OTHER_DT.top
    ∧ Leaves [] (oneReg .dspCamstat c) s (s.incSat DSP_CAMSTAT.OTHER_DT c 1) :=
  ⟨State.incSat_f_same _ _ _ _ (by decide), .incSat (.refl _ _ s) ⟨rfl, rfl⟩⟩

theorem packet_idle (en : s.fb DSP_CAMCTX0.EN c = true) (idle : (s.cam c).active = false) (corr : p.hdrCorr = false)
    (hdr : p.hdrErr = false) (goes : p.frameEnd = false) (same : p.dt = s.f DSP_CAMCTX0.DT c) (known : (camBytes p.dt).isSome = true) :
    packetGo c p s = s := by
  have mine : s.otherType c p = false := by
    rw [State.otherType, same, bne_self_eq_false, Bool.or_false, ← same]
    simpa [Option.isSome_iff_ne_none] using known
  rw [packetGo_judged (.inr en) corr, hdr, if_neg (by decide), goes, if_neg (by decide), mine, if_neg (by decide), idle, if_pos (by decide)]

/-- The end of a frame makes its record due. -/
theorem State.camEnd_ends : ((s.camEnd c).cam c).active = false ∧ ((s.camEnd c).cam c).recordDue = true ∧ ((s.camEnd c).cam c).tEof = s.now
    ∧ ((s.cam c).lines < s.f DSP_CAMCTX0.HEIGHT c → bit ((s.camEnd c).cam c).flags 1 = true)
    ∧ (∀ b, (s.cam c).buf = some b → ((s.camEnd c).cam c).next = (b + 1) % max 1 (s.cam c).bufs.length)
    ∧ Leaves [.cams] noReg s (s.camEnd c) := by
  unfold State.camEnd
  dsimp only
  refine ⟨?_, ?_, ?_, fun short => ?_, fun b buf => ?_, .modCam (.refl _ _ s)⟩ <;> rw [State.modCam_cam, if_pos rfl]
  · dsimp only
    rw [if_pos short]
    rw [bit_lor, (by decide : bit 2 1 = true), Bool.or_true]
  · dsimp only
    rw [buf]

/-- One line of a frame that has a buffer and room is written there. -/
theorem State.camStore_writes {b : Nat} {s1 : State} {px : List Nat} {us : List Byte} (room : (s.cam c).lines < s.f DSP_CAMCTX0.HEIGHT c)
    (buf : (s.cam c).buf = some b) (live : (s.cam c).dead = false)
    (written : writeAll (s.f DSP_CAMCTX0.INSTANCE c) (camLine (s.f DSP_CAMCTX0.DT c) (s.f DSP_CAMCTX0.WIDTH c) (s.cam c).lines
        (((s.cam c).bufs[b]?).getD (0, 0, 0)) px) (s.modCam c fun k => { k with lines := k.lines + 1 }) = (.ok us, s1)) :
    (s.camStore c px).mem.cells = s1.mem.cells ∧ (s.camStore c px).cam c = { s.cam c with lines := (s.cam c).lines + 1 }
      ∧ Leaves (.cams :: rtParts) rtRegs s (s.camStore c px) := by
  have acc : Accessed (s.modCam c fun k => { k with lines := k.lines + 1 }) s1 := .of_eq written (.writeAll (.refl _ _ _))
  have here : s1.cam c = { s.cam c with lines := (s.cam c).lines + 1 } := by
    rw [acc.cam_same (by simp [accessParts]), State.modCam_cam, if_pos rfl]
  have run : s.camStore c px = s1.rtCharge (s.modCam c fun k => { k with lines := k.lines + 1 }) (s.f DSP_CAMCTX0.PORT c)
      ((camLine (s.f DSP_CAMCTX0.DT c) (s.f DSP_CAMCTX0.WIDTH c) (s.cam c).lines (((s.cam c).bufs[b]?).getD (0, 0, 0)) px).map
        fun p => p.2.length).sum := by
    unfold State.camStore
    dsimp only
    rw [if_neg (by omega), buf]
    dsimp only
    rw [live, if_neg (by decide), written]
  rw [run]
  refine ⟨State.rtCharge_cells _ _ _ _, ((State.rtCharge_uses _ _ _ _).cam_same (by simp) c).trans here, ?_⟩
  exact Leaves.trans (.modCam (.refl _ _ s)) ((leaves_rtCharge _ _ acc).mono (by simp) fun _ _ e => e)

/-! ## The ingest record -/

theorem ingestRecord_goes (hc : c < 24) : exec (.ingestRecord c) s = .next (s.ingestRecord c) := by
  rw [exec_ingestRecord, execIngestRecord, isCam_true hc, unit_true]

theorem ingestRecord_writes {s1 s2 s3 : State} {v : Nat} {r r' : MRes} (hc : c < 24) (due : (s.cam c).recordDue = true)
    (record : rtWrite (s.f DSP_CAMCTX0.PORT c) s (s.f DSP_CAMCTX0.INSTANCE c) ((s.cam c).recordBase + (s.cam c).frame % 16 * 32)
      (toLE 8 (s.cam c).frame ++ toLE 8 (s.cam c).tSof ++ toLE 8 (s.cam c).tEof
      ++ toLE 8 ((s.cam c).buf.getD 0xFF * 2 ^ 56 + (s.cam c).lines % 2 ^ 16 * 2 ^ 32 + (s.cam c).flags % 2 ^ 16)) = (r, s1))
    (counter : rtRead64 (s.f DSP_CAMCTX0.PORT c) s1 (s.f DSP_CAMCTX0.INSTANCE c) (s.cam c).counterAddr = (some v, s2))
    (advanced : rtWrite (s.f DSP_CAMCTX0.PORT c) s2 (s.f DSP_CAMCTX0.INSTANCE c) (s.cam c).counterAddr (toLE 8 (v + 1)) = (r', s3)) :
    ∃ t, exec (.ingestRecord c) s = .next t ∧ t.mem.cells = s3.mem.cells
      ∧ t.cam c = { s.cam c with recordDue := false } ∧ Leaves (.cams :: rtParts) rtRegs s t := by
  have first : Leaves rtParts rtRegs s s1 := .of_eq record (leaves_rtWrite _ _ _ _ _)
  have second : Leaves rtParts rtRegs s1 s2 := by
    unfold rtRead64 at counter
    split at counter
    · next e =>
      obtain rfl := (Prod.mk.inj counter).2
      exact .of_eq e (leaves_rtRead _ _ _ _ _)
    · cases (Prod.mk.inj counter).1
  have third : Leaves rtParts rtRegs s2 s3 := .of_eq advanced (leaves_rtWrite _ _ _ _ _)
  have all := (first.trans second).trans third
  have run : s.ingestRecord c = s3.modCam c fun k => { k with recordDue := false } := by
    unfold State.ingestRecord
    dsimp only
    rw [due, if_neg (by decide), record]
    dsimp only
    rw [counter]
    dsimp only
    rw [advanced]
  refine ⟨_, (ingestRecord_goes hc).trans (congrArg _ run), congrArg MemSt.cells (State.modCam_mem ..), ?_, .modCam (all.mono (by simp) fun _ _ e => e)⟩
  rw [State.modCam_cam, if_pos rfl, all.cam_same (by simp [rtParts, accessParts])]

end

/-- Settles O49: a context reads its buffers where its EN rises, and each packet is judged once (`packetGo_judged`). -/
theorem cameraContextsIngestFrames : Obligations.CameraContextsIngestFrames := by
  unfold Obligations.CameraContextsIngestFrames
  refine ⟨fun s s1 m c v bs hc acc read => ?_, fun s m c v hc clears => cameraContextDisable_stops hc clears,
    fun s c hc en idle none => frameStart_begins hc en idle none, fun s c hc h => frameStart_ignored hc h,
    fun s c p hc idle => ⟨fun off => ?_, fun en hdr corr goes => ⟨fun same known => ?_, fun other => ?_⟩⟩,
    fun s c p hc on hdr corr => ?_, fun s c p hc on hdr corr => ⟨fun ends => ?_, fun goes other => ?_,
      fun b s1 us goes crc same known room buf live written => ?_⟩,
    fun s c hc none => ?_, fun s s1 s2 s3 c v r r' hc due record counter advanced => ingestRecord_writes hc due record counter advanced⟩
  · obtain ⟨t, run, en, cam, others⟩ := cameraContextEnable_reads hc acc read
    exact ⟨t, run, en, by rw [cam], by rw [cam], by rw [cam], by rw [cam], others⟩
  · rw [cameraPacket_goes hc, packetGo_off idle off]
  · rw [cameraPacket_goes hc, packet_idle en idle corr hdr goes same known]
  · exact ⟨_, (cameraPacket_goes hc).trans (congrArg _ (packet_other (.inr en) corr hdr goes other)), State.otherCounted⟩
  · have run := (cameraPacket_goes (p := p) hc).trans (congrArg _ (packetGo_judged (.inl on) corr))
    rw [hdr, if_pos rfl, on] at run
    exact ⟨_, run, by rw [State.modCam_cam, if_pos rfl, if_pos rfl], .modCam (.refl _ _ s)⟩
  · have run := (cameraPacket_goes (p := p) hc).trans (congrArg _ (packetGo_judged (.inl on) corr))
    rw [hdr, if_neg (by decide), ends, if_pos rfl, on] at run
    exact ⟨_, run, State.camEnd_ends⟩
  · exact ⟨_, (cameraPacket_goes hc).trans (congrArg _ (packet_other (.inl on) corr hdr goes other)), State.otherCounted⟩
  · have mine : s.otherType c p = false := by
      rw [State.otherType, ← same, bne_self_eq_false, Bool.or_false]
      simpa [Option.isSome_iff_ne_none] using known
    have run := (cameraPacket_goes (p := p) hc).trans (congrArg _ (packetGo_judged (.inl on) corr))
    rw [hdr, if_neg (by decide), goes, if_neg (by decide), mine, if_neg (by decide), on, if_neg (by decide), crc, if_neg (by decide)] at run
    rw [same] at written
    exact ⟨_, run, State.camStore_writes room buf live written⟩
  · rw [ingestRecord_goes hc, State.ingestRecord_none none]

end Sys2Proof.Machine
end

section
/-! PROOFS. O50: the posting of a real-time core, which acts for its task's instance. -/

set_option Elab.async false

namespace Sys2Proof.Machine

/-- Output 0 belongs to flask 0, and core 0 of that flask runs task 0 of instance 0. -/
def taskRuns : State :=
  (((State.reset.setF SYS_INST.FLASK 0 0).setF SYS_FLCTRL.STATE 0 3).setR .sysAssign 8 0).modRt 0 fun c => { c with flask := some 0, task := some (0, 0, 0, 0, 0), started := true }

set_option maxRecDepth 100000 in
theorem taskPosts_accepted : taskRuns.accepts .dspFlip (8 * 0 + 0) (.rt 0) .whole (withBit 0x40 5) :=
  ⟨⟨by decide, by decide, by decide⟩, by decide, by decide, by decide, by decide, by decide⟩

/-- What plane 0 of output 0 holds as its posting master once the core has posted. -/
def postedBy (r : Res) : Option Nat :=
  match r with
  | .next t => some (NMap.get (t.disp 0).posted 0 0)
  | _ => none

set_option maxRecDepth 100000 in
theorem postedBy_task : postedBy (exec (.planePost (.rt 0) 0 0 0x40) taskRuns) = some 1 := by decide +kernel

/-- Refutes O50: a real-time core that posts a plane acts for the instance of its task, and the plane keeps that instance
as its posting master, where the statement asks for the manager. -/
theorem not_displaysLatchCompareAndEscalate : ¬ Obligations.DisplaysLatchCompareAndEscalate := by
  unfold Obligations.DisplaysLatchCompareAndEscalate
  rintro ⟨posts, -⟩
  obtain ⟨t, ran, -, -, none, -⟩ := posts taskRuns (.rt 0) 0 0 0x40 (by decide) (by decide) taskPosts_accepted
  have one := postedBy_task
  rw [ran] at one
  exact absurd (none.symm.trans (Option.some.inj one)) (by decide)

end Sys2Proof.Machine
end

section
/-! PROOFS. What the computations of a RUNNER job change (R264 to R274): while it computes its accesses, its counters,
the node cache and the plan count; a publication moreover RUN_STAT and the hand-over of the trajectory. -/

set_option Elab.async false

namespace Sys2Proof.Machine

/-- What a computation of the runner changes before it publishes. -/
def calcParts : List Part := .planCount :: .nodes :: accessParts
def calcRegs (r : Reg) (i : Nat) : Prop := accessRegs r i ∨ r = .runCnt ∨ r = .runCnt2

/-- What it changes when it publishes. -/
def pubParts : List Part := .planCount :: .nodes :: .traj :: .bridge :: accessParts
def pubRegs (r : Reg) (i : Nat) : Prop := accessRegs r i ∨ r = .runStat ∨ r = .runCnt ∨ r = .runCnt2

abbrev Calc (b s : State) : Prop := Leaves calcParts calcRegs b s
abbrev Pub (b s : State) : Prop := Leaves pubParts pubRegs b s

section
variable {b s t : State}

theorem Calc.of_accessed (h : Accessed b s) : Calc b s :=
  h.mono (fun _ hp => .tail _ (.tail _ hp)) fun _ _ => .inl

theorem Pub.of_calc (h : Calc b s) : Pub b s :=
  h.mono (fun _ hp => by simp only [calcParts, pubParts, List.mem_cons] at hp ⊢; tauto) fun _ _ hr => hr.elim .inl fun hr => .inr (.inr hr)

theorem Pub.of_accessed (h : Accessed b s) : Pub b s := .of_calc (.of_accessed h)

theorem Calc.counted (h : Calc b s) (x : Fld) (n : Nat) (hx : x.reg = .runCnt ∨ x.reg = .runCnt2) : Calc b (s.incSat x 0 n) :=
  .incSat h (.inr hx)

/-! ## Computations that may fail -/

section
variable {α β : Type} {ps : List Part} {q : Reg → Nat → Prop}

theorem Leaves.rsThen {r : Rs α} {g : α → State → Rs β} (h : Leaves ps q b r.2)
    (hg : ∀ x t, Leaves ps q b t → Leaves ps q b (g x t).2) : Leaves ps q b (r.andThen g).2 := by
  unfold Rs.andThen
  split
  · exact hg _ _ h
  · exact h

theorem Leaves.vAll {g : α → State → Rs β} {xs : List α} (h : Leaves ps q b s)
    (hg : ∀ x t, Leaves ps q b t → Leaves ps q b (g x t).2) : Leaves ps q b (vAll g xs s).2 := by
  induction xs generalizing s with
  | nil => exact h
  | cons x xs ih => exact (hg x s h).rsThen fun _ _ h₁ => (ih h₁).rsThen fun _ _ h₂ => h₂

theorem Rs.andThen_ok {r : Rs α} {a : α} {g : α → State → Rs β} (h : r = (.ok a, s)) : r.andThen g = g a s := by rw [h, Rs.andThen]

end

theorem Calc.rsThen {α β : Type} {r : Rs α} {g : α → State → Rs β} (h : Calc b r.2) (hg : ∀ x t, Calc b t → Calc b (g x t).2) :
    Calc b (r.andThen g).2 := Leaves.rsThen h hg

theorem Calc.vAll {α β : Type} {g : α → State → Rs β} {xs : List α} (h : Calc b s) (hg : ∀ x t, Calc b t → Calc b (g x t).2) :
    Calc b (vAll g xs s).2 := Leaves.vAll h hg

theorem Calc.vBytes {inst va n : Nat} (h : Calc b s) : Calc b (vBytes inst va n s).2 :=
  h.trans (Calc.of_accessed (.vBytes (.refl _ _ s)))

theorem Calc.instWrite {inst va : Nat} {bs : List Byte} (h : Calc b s) : Calc b (instWrite s inst va bs).2 :=
  h.trans (Calc.of_accessed (.instWrite (.refl _ _ s)))

theorem Calc.dropNodes (h : Calc b s) : Calc b s.dropNodes := h.one .nodes (by simp [calcParts])

theorem Calc.fresh (h : Calc b s) : Calc b s.fresh.2 := Leaves.fresh h (by simp [calcParts, accessParts])

theorem Calc.freePoints {dt n : Nat} (h : Calc b s) : Calc b (freePoints dt n s).2 :=
  Leaves.freshBytes h (by simp [calcParts, accessParts])

/-! ## The tree -/

theorem Calc.nodeRead {inst va : Nat} (h : Calc b s) : Calc b (nodeRead inst va s).2 := by
  unfold Machine.nodeRead
  split
  · exact h
  · exact Calc.rsThen h.vBytes fun _ _ h₁ => h₁.one .nodes (by simp [calcParts])

theorem Calc.loadTree {inst base lv : Nat} {front : List (Nat × Nat)} (h : Calc b s) : Calc b (loadTree inst base lv front s).2 := by
  induction lv generalizing front s with
  | zero =>
    unfold Machine.loadTree
    exact Calc.rsThen (h.vAll fun _ _ h₁ => Calc.rsThen h₁.nodeRead fun _ _ h₂ => h₂) fun _ _ h₁ => h₁
  | succ lv ih =>
    unfold Machine.loadTree
    refine Calc.rsThen (h.vAll fun _ _ h₁ => Calc.rsThen h₁.nodeRead fun _ _ h₂ => h₂) fun _ _ h₁ => ?_
    dsimp only
    split
    · exact h₁
    · exact Calc.rsThen (ih h₁) fun _ _ h₂ => h₂

theorem Calc.runTree {x : Job} (h : Calc b s) : Calc b (runTree x s).2 := h.loadTree

theorem Calc.predState {x : Job} (h : Calc b s) : Calc b (predState x s).2 := by
  unfold Machine.predState
  split
  · exact h
  · refine Calc.rsThen h.vBytes fun _ _ h₁ => ?_
    dsimp only
    split
    · exact h₁
    · exact h₁.counted _ _ (.inr rfl)

theorem Calc.applyUpdates {x : Job} (h : Calc b s) : Calc b (applyUpdates x s).2 := by
  unfold Machine.applyUpdates
  dsimp only
  refine Calc.rsThen ?_ fun _ _ h₁ => Calc.rsThen h₁.vBytes fun bs u h₂ => ?_
  · split
    · exact h
    · exact h.dropNodes.runTree
  · generalize List.foldl _ _ _ = r
    obtain ⟨t1, full, bad⟩ := r
    have counted := ((h₂.counted RUN_CNT2.NODE_FULL full (.inr rfl)).counted RUN_CNT2.BAD_REC bad (.inr rfl)).instWrite
      (inst := x.inst) (va := x.rnTree) (bs := storeTree (settleTree (x.rnFrame % 65536) t1))
    dsimp only
    split
    · rename_i e
      exact Calc.dropNodes (Leaves.of_eq e counted)
    · rename_i e
      exact Calc.dropNodes (Leaves.of_eq e counted)

/-! ## Plans -/

theorem Calc.newestPlan {x : Job} (h : Calc b s) : Calc b (newestPlan x s).2 := by
  unfold Machine.newestPlan
  refine Calc.rsThen h.vBytes fun _ _ h₁ => ?_
  dsimp only
  split
  · exact h₁
  · exact Calc.rsThen h₁.vBytes fun _ _ h₂ => Calc.rsThen h₂.vBytes fun _ _ h₃ => h₃

theorem Calc.stopPlan {lim : List Byte} {w : List Nat} {reuse flags : Nat} (h : Calc b s) : Calc b (stopPlan lim w reuse flags s).2 :=
  Calc.freePoints (dt := leAt lim 0x28 2 * 1000) h.fresh.fresh.fresh

theorem Calc.latePlan {x : Job} {lim : List Byte} {flags : Nat} {p : Option (List Nat × List (List Byte))} (h : Calc b s) :
    Calc b (latePlan x lim flags p s).2 := by
  unfold Machine.latePlan
  dsimp only
  split
  · exact h
  · split
    · exact h
    · split
      · exact h
      · exact h.stopPlan

theorem Calc.planHead {x : Job} (h : Calc b s) : Calc b (planHead x s).2 := by
  unfold Machine.planHead
  refine Calc.rsThen h.vBytes fun _ _ h₁ => ?_
  split
  · exact h₁
  · exact Calc.rsThen h₁.predState fun _ _ h₂ => h₂

theorem Calc.checkCand {x : Job} {e : RunEnv} {list k : Nat} (h : Calc b s) : Calc b (checkCand x e list k s).2 := by
  unfold Machine.checkCand
  refine Calc.rsThen h.vBytes fun bs u h₁ => ?_
  have written := h₁.instWrite (inst := x.inst) (va := x.rnOut + 16 * k) (bs := (e.result (candOf bs)).bytes)
  dsimp only
  split
  · rename_i e
    exact Leaves.of_eq e written
  · rename_i e
    exact Leaves.of_eq e written

theorem Calc.storedRes {x : Job} {k : Nat} (h : Calc b s) : Calc b (storedRes x k s).2 := Calc.rsThen h.vBytes fun _ _ h₁ => h₁

theorem Calc.confirmReject (h : Calc b s) : Calc b s.confirmReject :=
  .safety (.modRec (h.counted _ _ (.inl rfl)) (by simp [calcParts, accessParts])) rfl (by simp [calcParts, accessParts, safetyParts])
    (.inl (by simp [accessRegs]))

theorem Calc.newPoints {e : RunEnv} {n : Nat} (h : Calc b s) : Calc b (newPoints e n s).2 := by
  have points := h.freePoints (dt := leAt e.lim 0x28 2 * 1000) (n := n)
  unfold Machine.newPoints
  dsimp only
  split <;> exact points

/-! ## The hand-over of a trajectory -/

/-- What the hand-over of a trajectory changes. -/
def handParts : List Part := .traj :: .bridge :: accessParts

theorem State.leaves_forwardPlan {fr : Nat} {plan : List Byte} : Leaves handParts accessRegs s (s.forwardPlan fr plan) := by
  have out : Part.outbox ∈ handParts := by simp [handParts, accessParts]
  unfold State.forwardPlan
  dsimp only
  split
  · exact .emit (.refl _ _ s) out
  · split
    · unfold State.trajCompare
      have own : ∀ g, Leaves handParts accessRegs s (s.modTraj g) := fun _ => .modTraj (.refl _ _ s) (by simp [handParts])
      exact .ite (.modRec (own _) (by simp [handParts, accessParts])) (own _)
    · split
      · exact .emit (.refl _ _ s) out
      · have dropped : Leaves handParts accessRegs s s.dropForward := .one .bridge (.refl _ _ s) (by simp [handParts])
        have left := Leaves.fresh dropped (by simp [handParts, accessParts])
        refine .modTraj (.trans ?_ (Leaves.mono (accessed_wskOriginate _ _ _ _) (fun _ hp => .tail _ (.tail _ hp)) fun _ _ => id))
          (by simp [handParts])
        refine left.parts (fun p hp => ?_) rfl
        cases p <;> first | rfl | simp [handParts, accessParts] at hp

theorem Pub.forwardPlan {fr : Nat} {plan : List Byte} (h : Pub b s) : Pub b (s.forwardPlan fr plan) :=
  Leaves.trans h (State.leaves_forwardPlan.mono
    (fun _ hp => by simp only [handParts, pubParts, List.mem_cons] at hp ⊢; tauto) fun _ _ => .inl)

/-- A plan's counters. -/
theorem Pub.sourceCounted {k : Nat} (h : Pub b s) : Pub b (match sourceCnt k with
    | some c => s.incSat c 0 1
    | none => s) := by
  split
  · rename_i c hc
    refine .incSat h ?_
    unfold sourceCnt at hc
    split at hc <;> first | (cases hc; exact .inr (.inr (.inl rfl))) | cases hc
  · exact h

theorem Pub.publish {x : Job} {p : PlanOut} (h : Pub b s) : Pub b (publish x p s).2 := by
  unfold Machine.publish
  dsimp only
  refine Leaves.rsThen (Leaves.trans h (Pub.of_accessed (.vBytes (.refl _ _ s)))) fun c u h₁ => ?_
  generalize planBytes _ _ _ = bs
  have first := Leaves.trans h₁ (Pub.of_accessed (.instWrite (.refl _ _ u) (inst := x.inst) (va := slotAddr x (leNat c)) (bs := bs)))
  split
  · rename_i s2 e
    have two := Leaves.of_eq e first
    have second := Leaves.trans two (Pub.of_accessed (.instWrite (.refl _ _ s2) (inst := x.inst) (va := x.rnPlan) (bs := toLE 8 (leNat c + 1))))
    split
    · rename_i e
      have counted := Pub.sourceCounted (k := p.source) (Leaves.setF (v := p.reuse) (Leaves.setF (v := p.source) (Leaves.incWrap (Leaves.of_eq e second)
        (x := RUN_STAT.PUBLISHED) (i := 0) (n := 1) (.inr (.inl rfl))) (x := RUN_STAT.LAST_SOURCE) (i := 0) (.inr (.inl rfl)))
        (x := RUN_STAT.REUSE) (i := 0) (.inr (.inl rfl)))
      split
      · exact counted.forwardPlan
      · exact counted
    · rename_i e
      exact Leaves.of_eq e second
  · rename_i e
    exact Leaves.of_eq e first

end

end Sys2Proof.Machine
end

section
/-! PROOFS. O51: how a RUNNER job ends, and what its publication shows (R264 to R274). -/

set_option Elab.async false

namespace Sys2Proof.Machine

/-! ## The end of the job -/

/-- A job that ends with OK, with STALE where the flag says so. -/
def Job.okEnd (x : Job) (stale : Bool) (d : Option Nat) : Job :=
  (if stale then { x with cflags := Nat.lor x.cflags 1 } else x).over stOk d

/-- The state in which it has ended. -/
def State.okEnd (s : State) (j : Nat) (stale : Bool) (d : Option Nat) : State := (if stale then s.cflag j 1 else s).endJob j stOk d

/-- A runner's computation ends its job OK, or leaves it to the status of an error. -/
def RunEnds (j : Nat) (s : State) (w : Rs Unit) : Prop :=
  ∃ u, Pub s u ∧ ((∃ st, w = (.error st, u)) ∨ ∃ stale d, w = (.ok (), u.okEnd j stale d))

section
variable {s t u : State} {j : Nat} {x : Job}

theorem State.okEnd_jobTo (stale : Bool) (d : Option Nat) (h : s.job j = some x) (open_ : x.phase ≠ .ended) :
    JobTo j (x.okEnd stale d) s (s.okEnd j stale d) := by
  cases stale with
  | false => exact .of_endJob _ _ h open_
  | true =>
    have flagged : JobTo j { x with cflags := Nat.lor x.cflags 1 } s (s.cflag j 1) := .of_modJob _ (fun _ => rfl) h
    have ended := JobTo.of_endJob stOk d flagged.1 open_
    exact ⟨ended.1, fun k hk => (ended.2 k hk).trans (flagged.2 k hk)⟩

theorem State.leaves_okEnd (stale : Bool) (d : Option Nat) : Leaves [.jobs] noReg s (s.okEnd j stale d) := by
  unfold State.okEnd
  exact .endJob (.ite (.modJob (.refl _ _ s)) (.refl _ _ s))

theorem State.okEnd_f (stale : Bool) (d : Option Nat) (y : Fld) (i : Nat) : (s.okEnd j stale d).f y i = s.f y i :=
  (State.leaves_okEnd stale d).f_same y i id

theorem Pub.jobs (h : Pub s t) : t.work.jobs = s.work.jobs := h.1 .jobs (by simp [pubParts, accessParts])

/-- The parts and registers of the whole job. -/
def runParts : List Part := .jobs :: .planCount :: .nodes :: .traj :: .bridge :: accessParts

theorem RunEnds.closed {w : Rs Unit} (h : RunEnds j s w) (held : s.job j = some x) (open_ : x.phase ≠ .ended) :
    ∃ y, JobTo j y s (w.close j) ∧ y.phase = .ended ∧ (w.1 = .ok () → y.status = stOk) ∧ (∀ st, w.1 = .error st → y.status = st)
      ∧ Leaves runParts pubRegs s (w.close j) := by
  obtain ⟨u, left, h⟩ := h
  have same : u.job j = some x := (State.job_of_jobs left.jobs j).trans held
  have through : ∀ v, Leaves [.jobs] noReg u v → Leaves runParts pubRegs s v := fun v hv =>
    (left.mono (fun _ hp => .tail _ hp) fun _ _ => id).trans (hv.mono (fun p hp => (List.mem_singleton.1 hp) ▸ .head _) nofun)
  rcases h with ⟨st, rfl⟩ | ⟨stale, d, rfl⟩
  · exact ⟨x.over st none, .after_same left.jobs (.of_endJob st none same open_), rfl, nofun, fun _ e => Except.error.inj e,
      through _ (.endJob (.refl _ _ u))⟩
  · refine ⟨x.okEnd stale d, .after_same left.jobs (State.okEnd_jobTo stale d same open_), ?_, fun _ => ?_, nofun,
      through _ (State.leaves_okEnd stale d)⟩ <;> rfl

/-! ## Computations that end it -/

theorem RunEnds.andThen {α : Type} {r : Rs α} {g : α → State → Rs Unit} (h : Pub s r.2) (hg : ∀ a u, Pub s u → RunEnds j s (g a u)) :
    RunEnds j s (r.andThen g) := by
  obtain ⟨r, u⟩ := r
  cases r with
  | ok a => exact hg a u h
  | error st => exact ⟨u, h, .inl ⟨st, rfl⟩⟩

theorem RunEnds.ok (h : Pub s u) (stale : Bool) (d : Option Nat) : RunEnds j s (.ok (), u.okEnd j stale d) := ⟨u, h, .inr ⟨stale, d, rfl⟩⟩

theorem RunEnds.ite {c : Prop} [Decidable c] {w w' : Rs Unit} (h : RunEnds j s w) (h' : RunEnds j s w') :
    RunEnds j s (if c then w else w') := by
  split
  · exact h
  · exact h'

theorem Pub.calc (h : Pub s u) (g : Calc u t) : Pub s t := Leaves.trans h (Pub.of_calc g)

theorem updateGo_ends : RunEnds x.id s (updateGo x s) := by
  unfold updateGo
  refine .andThen (.of_calc (.predState (.refl _ _ s))) fun p u left => ?_
  split
  · exact .ok left true none
  · exact .andThen (left.calc (.applyUpdates (.refl _ _ u))) fun _ v left' => .ok left' p.2 none

theorem lateRule_ends {lim : List Byte} {fl : Nat} (h : Pub s u) : RunEnds x.id s (lateRule x lim fl u) := by
  unfold lateRule
  refine .andThen (h.calc (.newestPlan (.refl _ _ u))) fun p v left => ?_
  exact .andThen (Pub.publish (left.calc (.latePlan (.refl _ _ v)))) fun _ _ left' => .ok left' true none

theorem confirmPublish_ends {e : RunEnv} {disagree : Bool} {extra k : Nat} {c : Cand} {r : CandRes} {d : Option Nat} (h : Pub s u) :
    RunEnds x.id s (confirmPublish x e disagree extra k c r d u) := by
  unfold confirmPublish
  split
  · exact lateRule_ends (h.calc (.confirmReject (.refl _ _ u)))
  · split
    · exact lateRule_ends h
    · exact .andThen (Pub.publish (h.calc (.newPoints (.refl _ _ u)))) fun _ _ left => .ok left false d

/-- Free values that the checks of candidates draw. -/
theorem Pub.drawn (h : Pub s u) (n : Nat) : Pub s { u with freeCtr := n } :=
  h.one .freeCtr (by simp [pubParts, accessParts])

theorem planWork_ends {lim : List Byte} {disagree : Bool} (h : Pub s u) : RunEnds x.id s (planWork x lim disagree u) := by
  unfold planWork
  refine .andThen (h.calc (.vBytes (.refl _ _ u))) fun veh u1 h1 => .andThen (h1.calc (.runTree (.refl _ _ u1))) fun tr u2 h2 => ?_
  refine .andThen ((h2.drawn _).calc (.vAll (.refl _ _ _) fun _ _ => .checkCand)) fun rs u3 h3 => ?_
  have counted : Pub s { u3 with pix.planCount := x.rnCount } := h3.one .planCount (by simp [pubParts])
  dsimp only
  split
  · exact lateRule_ends counted
  · split
    · exact lateRule_ends counted
    · exact confirmPublish_ends counted

theorem repairWork_ends {lim : List Byte} {disagree : Bool} (h : Pub s u) : RunEnds x.id s (repairWork x lim disagree u) := by
  unfold repairWork
  refine .andThen (h.calc (.applyUpdates (.refl _ _ u))) fun tr u1 h1 => ?_
  refine .andThen (h1.calc (.newestPlan (.refl _ _ u1))) fun p u2 h2 => ?_
  refine .andThen (h2.calc (.vBytes (.refl _ _ u2))) fun veh u3 h3 => ?_
  refine .andThen (h3.calc (.vAll (.refl _ _ u3) fun _ _ => .storedRes)) fun old u4 h4 => ?_
  refine .andThen ((h4.drawn _).calc (.vAll (.refl _ _ _) fun _ _ => .checkCand)) fun rs u5 h5 => ?_
  refine .ite (.ok h5 false (some 0)) ?_
  generalize bestOf _ = best
  cases best with
  | some b =>
    dsimp only
    split
    · exact confirmPublish_ends h5
    · exact lateRule_ends h5
  | none =>
    cases p with
    | none => exact lateRule_ends h5
    | some p =>
      have stop := h5.calc (Calc.stopPlan (lim := lim) (w := p.1) (reuse := min 255 (bits (wordAt p.1 0) 23 16 + 1))
        (flags := pfNoCandidate) (.refl _ _ u5))
      exact .ite (lateRule_ends h5) (.andThen stop.publish fun _ _ left => .ok left true none)

theorem planGo_ends {work : Job → List Byte → Bool → State → Rs Unit} {disagree : Bool}
    (works : ∀ lim u, Pub s u → RunEnds x.id s (work x lim disagree u)) : RunEnds x.id s (planGo work x disagree s) := by
  unfold planGo
  refine .andThen (.of_calc (.planHead (.refl _ _ s))) fun h u left => ?_
  split
  · exact lateRule_ends left
  · split
    · exact lateRule_ends left
    · exact works _ _ left

theorem publishAtGo_ends : RunEnds x.id s ((planHead x s).andThen fun h s1 => lateRule x h.1 (h.2 + pfLate) s1) :=
  .andThen (.of_calc (.planHead (.refl _ _ s))) fun _ _ left => lateRule_ends left

/-! ## The commands -/

theorem State.runnerJob_takes {ops : List Nat} {g : Job → State} (held : s.job j = some x) (takes : s.runnerTakes x = true)
    (op : x.rnOp ∈ ops) : s.runnerJob j ops g = g x := by
  rw [State.runnerJob, held]
  exact if_pos (by simpa [takes] using op)

theorem State.runnerJob_waits {ops : List Nat} {g : Job → State} (held : s.job j = some x) (waits : s.runnerTakes x = false) :
    s.runnerJob j ops g = s := by
  rw [State.runnerJob, held]
  exact if_neg (by simp [waits])

section
variable (held : s.job j = some x) (takes : s.runnerTakes x = true)
include held takes

theorem update_runs (op : x.rnOp = 1) : exec (.update j) s = .next ((updateGo x s).close j) := by
  rw [exec_update, execUpdate, State.runnerJob_takes held takes (by simp [op])]

theorem plan_runs (op : x.rnOp = 2) (d : Bool) : exec (.plan j d) s = .next ((planGo planWork x d s).close j) := by
  rw [exec_plan, execPlan, State.runnerJob_takes held takes (by simp [op])]

theorem repair_runs (op : x.rnOp = 3) (d : Bool) : exec (.repair j d) s = .next ((planGo repairWork x d s).close j) := by
  rw [exec_repair, execRepair, State.runnerJob_takes held takes (by simp [op])]

theorem publishAt_runs (op : x.rnOp = 2 ∨ x.rnOp = 3) (due : reached s.now x.rnPublishAt = true) :
    exec (.publishAt j) s = .next (((planHead x s).andThen fun h s1 => lateRule x h.1 (h.2 + pfLate) s1).close j) := by
  rw [exec_publishAt, execPublishAt, State.runnerJob_takes held takes (by simpa using op), if_pos due]

theorem publishAt_early (op : x.rnOp = 2 ∨ x.rnOp = 3) (early : reached s.now x.rnPublishAt = false) :
    exec (.publishAt j) s = .next s := by
  rw [exec_publishAt, execPublishAt, State.runnerJob_takes held takes (by simpa using op), early]
  rfl

omit held in
theorem runnerTakes_running : x.phase = .running := by
  unfold State.runnerTakes at takes
  simp only [Bool.and_eq_true, decide_eq_true_eq] at takes
  exact takes.1.1.1.1.1.1

end

end

end Sys2Proof.Machine
end

section
/-! PROOFS. O51: what a publication shows in RUN_STAT, and the runner's operations one by one (R264, R269 to R274). -/

set_option Elab.async false

namespace Sys2Proof.Machine

/-! ## A publication -/

/-- RUN_STAT once a plan stands published. -/
def State.published (s : State) (p : PlanOut) : State :=
  ((s.incWrap RUN_STAT.PUBLISHED 0 1).setF RUN_STAT.LAST_SOURCE 0 p.source).setF RUN_STAT.REUSE 0 p.reuse

/-- What follows the count of a publication. -/
abbrev afterRegs (r : Reg) (i : Nat) : Prop := accessRegs r i ∨ r = .runCnt

section
variable {s t u : State} {x : Job} {p : PlanOut}

theorem State.published_f (source : p.source < 16) (reuse : p.reuse < 256) :
    (s.published p).f RUN_STAT.PUBLISHED 0 = (s.f RUN_STAT.PUBLISHED 0 + 1) % 2 ^ 32
      ∧ (s.published p).f RUN_STAT.LAST_SOURCE 0 = p.source ∧ (s.published p).f RUN_STAT.REUSE 0 = p.reuse := by
  unfold State.published
  refine ⟨?_, ?_, ?_⟩
  · rw [State.setF_f_apart _ _ _ _ _ _ (by decide) (by decide), State.setF_f_apart _ _ _ _ _ _ (by decide) (by decide),
      State.incWrap_f_same _ _ _ _ (by decide)]
    rfl
  · rw [State.setF_f_apart _ _ _ _ _ _ (by decide) (by decide), State.setF_f_same _ _ _ _ (by decide)]
    exact Nat.mod_eq_of_lt source
  · rw [State.setF_f_same _ _ _ _ (by decide)]
    exact Nat.mod_eq_of_lt reuse

theorem State.leaves_sourceCounted (k : Nat) : Leaves handParts afterRegs s (match sourceCnt k with
    | some c => s.incSat c 0 1
    | none => s) := by
  split
  · rename_i c hc
    refine .incSat (.refl _ _ s) (.inr ?_)
    unfold sourceCnt at hc
    split at hc <;> cases hc <;> rfl
  · exact .refl _ _ s

/-- A publication that succeeds: its accesses, RUN_STAT, the counter of its source and the hand-over. -/
theorem publish_shows (h : publish x p s = (.ok (), u)) : ∃ v, Accessed s v ∧ Leaves handParts afterRegs (v.published p) u := by
  have count : Accessed s (vBytes x.inst x.rnPlan 8 s).2 := .vBytes (.refl _ _ s)
  unfold publish at h
  generalize vBytes x.inst x.rnPlan 8 s = r at h count
  obtain ⟨r, s1⟩ := r
  cases r with
  | error st => cases h
  | ok c =>
    dsimp only [Rs.andThen] at h
    split at h
    · rename_i e
      have first := Accessed.of_eq e (.instWrite count)
      split at h
      · rename_i s2 _ _ s3 e
        have second := Accessed.of_eq e (.instWrite first)
        refine ⟨s3, second, ?_⟩
        have counted : Leaves handParts afterRegs (s3.published p) _ := State.leaves_sourceCounted p.source
        have ended := congrArg Prod.snd h
        dsimp only at ended
        rw [← ended]
        split
        · exact .trans counted (State.leaves_forwardPlan.mono (fun _ h => h) fun _ _ => .inl)
        · exact counted
      · cases h
    · cases h

theorem publish_stat (h : publish x p s = (.ok (), u)) (source : p.source < 16) (reuse : p.reuse < 256) :
    u.f RUN_STAT.PUBLISHED 0 = (s.f RUN_STAT.PUBLISHED 0 + 1) % (RUN_STAT.PUBLISHED.top + 1)
      ∧ u.f RUN_STAT.LAST_SOURCE 0 = p.source ∧ u.f RUN_STAT.REUSE 0 = p.reuse ∧ u.pix.planCount = s.pix.planCount
      ∧ u.work.jobs = s.work.jobs := by
  obtain ⟨v, acc, after⟩ := publish_shows h
  have stat : ∀ y : Fld, y.reg = .runStat → u.f y 0 = (v.published p).f y 0 := fun y hy =>
    after.f_same y 0 (by rw [hy]; simp [accessRegs])
  have set : Leaves [] (fun r _ => r = .runStat) v (v.published p) := .setF (.setF (.incWrap (.refl _ _ v) rfl) rfl) rfl
  obtain ⟨count, source', reuse'⟩ := v.published_f source reuse
  refine ⟨?_, (stat _ rfl).trans source', (stat _ rfl).trans reuse', ?_, ?_⟩
  · rw [stat _ rfl, count, acc.f_same _ _ (by simp [accessRegs, RUN_STAT.PUBLISHED])]
    rfl
  · exact (after.1 .planCount (by simp [handParts, accessParts])).trans ((set.1 .planCount (by simp)).trans
      (acc.1 .planCount (by simp [accessParts])))
  · exact (after.1 .jobs (by simp [handParts, accessParts])).trans ((set.1 .jobs (by simp)).trans (acc.1 .jobs (by simp [accessParts])))

/-! ## What a computation keeps -/

theorem Calc.jobs (h : Calc s t) : t.work.jobs = s.work.jobs := h.1 .jobs (by simp [calcParts, accessParts])

theorem Calc.stat (h : Calc s t) (y : Fld) (hy : y.reg = .runStat) (i : Nat) : t.f y i = s.f y i :=
  h.f_same y i (by rw [hy]; simp [calcRegs, accessRegs])

/-! ## UPDATE -/

theorem Rs.ok_of_andThen {α β : Type} {r : Rs α} {g : α → State → Rs β} {b : β} (h : r.andThen g = (.ok b, t)) :
    ∃ a s1, r = (.ok a, s1) ∧ g a s1 = (.ok b, t) := by
  obtain ⟨r, s1⟩ := r
  cases r with
  | ok a => exact ⟨a, s1, rfl, h⟩
  | error st => cases h

theorem applyUpdates_nodes {tr : OTree} (h : applyUpdates x s = (.ok tr, t)) : t.pix.nodes = [] := by
  unfold applyUpdates at h
  obtain ⟨tree, s1, -, h⟩ := Rs.ok_of_andThen h
  obtain ⟨bs, s2, -, h⟩ := Rs.ok_of_andThen h
  dsimp only at h
  split at h
  · have same := congrArg Prod.snd h
    dsimp only at same
    rw [← same]
    rfl
  · cases h

theorem updateGo_absent {stale : Bool} (pred : predState x s = (.ok (true, stale), t)) : updateGo x s = (.ok (), t.okEnd x.id true none) := by
  rw [updateGo, Rs.andThen_ok pred, if_pos rfl]
  rfl

theorem updateGo_stands {stale : Bool} {tr : OTree} (pred : predState x s = (.ok (false, stale), t)) (applied : applyUpdates x t = (.ok tr, u)) :
    updateGo x s = (.ok (), u.okEnd x.id stale none) := by
  rw [updateGo, Rs.andThen_ok pred, if_neg Bool.false_ne_true, Rs.andThen_ok applied]
  rfl

theorem updateGo_nodes {b : Bool} {j : Nat} (pred : (predState x s).1 = .ok (false, b)) (ok : (updateGo x s).1 = .ok ()) :
    ((updateGo x s).close j).pix.nodes = [] := by
  generalize hp : predState x s = r at pred
  obtain ⟨r, t⟩ := r
  subst pred
  generalize ha : applyUpdates x t = a
  obtain ⟨a, u⟩ := a
  cases a with
  | ok tr =>
    rw [updateGo_stands hp ha, Rs.close, (State.leaves_okEnd b none).1 .nodes (by simp), applyUpdates_nodes ha]
  | error st =>
    rw [updateGo, Rs.andThen_ok hp, if_neg Bool.false_ne_true, ha] at ok
    cases ok

/-! ## PLAN, REPAIR and PUBLISH_AT -/

theorem newPoints_planCount {e : RunEnv} {n : Nat} : (newPoints e n s).2.pix.planCount = s.pix.planCount := by
  unfold newPoints
  dsimp only
  split <;> rfl

theorem lateRule_none {lim : List Byte} {fl : Nat} {v : State} (newest : newestPlan x s = (.ok none, t))
    (published : publish x { source := 3, reuse := 1, tBase := 0, chosen := 0xFFFF, flags := fl, cost := 0, points := [] } t = (.ok (), v)) :
    lateRule x lim fl s = (.ok (), v.okEnd x.id true none) := by
  have late : latePlan x lim fl none t
      = ({ source := 3, reuse := 1, tBase := 0, chosen := 0xFFFF, flags := fl, cost := 0, points := [] }, t) := rfl
  rw [lateRule, Rs.andThen_ok newest, late]
  exact (Rs.andThen_ok published).trans rfl

/-- A plan published late, from the state before the job's reads. -/
theorem lateStat {out : PlanOut} {v : State} (source : out.source = 3) (reuse : out.reuse = 1) (reads : Calc s t)
    (published : publish x out t = (.ok (), v)) : v.f RUN_STAT.LAST_SOURCE 0 = 3 ∧ v.f RUN_STAT.REUSE 0 = 1
      ∧ v.f RUN_STAT.PUBLISHED 0 = (s.f RUN_STAT.PUBLISHED 0 + 1) % (RUN_STAT.PUBLISHED.top + 1) ∧ v.work.jobs = s.work.jobs := by
  obtain ⟨count, src, re, -, jobs⟩ := publish_stat published (by rw [source]; decide) (by rw [reuse]; decide)
  exact ⟨src.trans source, re.trans reuse, count.trans (by rw [reads.stat _ rfl]), jobs.trans reads.jobs⟩

theorem planGo_late {work : Job → List Byte → Bool → State → Rs Unit} {d : Bool} {lim : List Byte} {fl : Nat}
    (head : planHead x s = (.ok (lim, fl), t)) (late : reached t.now x.rnPublishAt = true ∨ fl ≠ 0) :
    planGo work x d s = lateRule x lim (if reached t.now x.rnPublishAt then fl + pfLate else fl) t := by
  rw [planGo, Rs.andThen_ok head]
  cases due : reached t.now x.rnPublishAt with
  | true => rfl
  | false => exact if_pos (late.resolve_left (by simp [due]))

theorem planGo_works {work : Job → List Byte → Bool → State → Rs Unit} {d : Bool} {lim : List Byte}
    (head : planHead x s = (.ok (lim, 0), t)) (early : reached t.now x.rnPublishAt = false) : planGo work x d s = work x lim d t := by
  rw [planGo, Rs.andThen_ok head, early]
  rfl

/-- A computation that ends its job with OK. -/
theorem State.closed_ok {j : Nat} {v : State} {stale : Bool} {d : Option Nat} {w : Rs Unit} (held : s.job j = some x) (open_ : x.phase ≠ .ended)
    (jobs : v.work.jobs = s.work.jobs) (run : w = (.ok (), v.okEnd x.id stale d)) :
    JobTo j (x.okEnd stale d) s (w.close j) ∧ w.close j = v.okEnd x.id stale d := by
  rw [run, Rs.close]
  refine ⟨?_, rfl⟩
  rw [State.id_of_job held]
  exact .after_same jobs (State.okEnd_jobTo stale d ((State.job_of_jobs jobs j).trans held) open_)

end

section
variable {s : State} {j : Nat} {x : Job}

/-- The work of a command of a RUNNER job. -/
def runnerWork (x : Job) (s : State) : Instr → Rs Unit
  | .update _ => updateGo x s
  | .plan _ d => planGo planWork x d s
  | .repair _ d => planGo repairWork x d s
  | _ => (planHead x s).andThen fun h s1 => lateRule x h.1 (h.2 + pfLate) s1

/-- The command that the job's operation takes runs that work, and the work ends the job. -/
theorem runnerWork_runs {d : Bool} {c : Instr} (held : s.job j = some x) (takes : s.runnerTakes x = true)
    (op : (c = .update j ∧ x.rnOp = 1) ∨ (c = .plan j d ∧ x.rnOp = 2) ∨ (c = .repair j d ∧ x.rnOp = 3)
      ∨ (c = .publishAt j ∧ (x.rnOp = 2 ∨ x.rnOp = 3) ∧ reached s.now x.rnPublishAt = true)) :
    exec c s = .next ((runnerWork x s c).close j) ∧ RunEnds j s (runnerWork x s c) := by
  rw [← State.id_of_job held] at op ⊢
  have held' : s.job x.id = some x := (State.id_of_job held).symm ▸ held
  rcases op with ⟨rfl, op⟩ | ⟨rfl, op⟩ | ⟨rfl, op⟩ | ⟨rfl, op, due⟩
  · exact ⟨update_runs held' takes op, updateGo_ends⟩
  · exact ⟨plan_runs held' takes op d, planGo_ends fun _ _ => planWork_ends⟩
  · exact ⟨repair_runs held' takes op d, planGo_ends fun _ _ => repairWork_ends⟩
  · exact ⟨publishAt_runs held' takes op due, publishAtGo_ends⟩

theorem planWork_publishes {s2 s3 s4 s6 : State} {lim veh : List Byte} {tr : OTree} {rs : List (Nat × Cand × CandRes)}
    {q : Nat × Cand × CandRes} {k n : Nat} {r : CandRes} {pl : List (List Byte) × State}
    (vehicle : vBytes x.inst x.rnVeh 128 s = (.ok veh, s2)) (tree : runTree x s2 = (.ok tr, s3))
    (checked : vAll (checkCand x (runEnv x lim veh tr s3.freeCtr) x.rnIn) (List.range x.rnCount)
      { s3 with freeCtr := s3.freeCtr + 2 } = (.ok rs, s4))
    (best : bestOf (rs.map fun q => (q.1, q.2.2)) = some (k, r)) (chosen : rs[k]? = some q)
    (shape : (runEnv x lim veh tr s3.freeCtr).shape q.2.1 = some n)
    (points : newPoints (runEnv x lim veh tr s3.freeCtr) n { s4 with pix.planCount := x.rnCount } = pl)
    (published : publish x { source := 0, reuse := 0, tBase := leAt veh 0x20 8, chosen := k, flags := 0, cost := r.cost,
                             points := pl.1 } pl.2 = (.ok (), s6)) :
    planWork x lim false s = (.ok (), s6.okEnd x.id false none) := by
  rw [planWork, Rs.andThen_ok vehicle, Rs.andThen_ok tree, Rs.andThen_ok checked]
  dsimp only
  rw [best]
  dsimp only
  rw [chosen]
  dsimp only
  rw [confirmPublish, if_neg Bool.false_ne_true, shape]
  dsimp only
  rw [points]
  exact (Rs.andThen_ok published).trans rfl

theorem repairWork_stands {s2 s3 s4 s5 s6 : State} {lim veh : List Byte} {tr : OTree} {h : List Nat} {ps : List (List Byte)}
    {old : List (Nat × CandRes)} {rs : List (Nat × Cand × CandRes)} {d : Bool} (applied : applyUpdates x s = (.ok tr, s2))
    (newest : newestPlan x s2 = (.ok (some (h, ps)), s3)) (vehicle : vBytes x.inst x.rnVeh 128 s3 = (.ok veh, s4))
    (stored : vAll (storedRes x) (List.range s4.pix.planCount) s4 = (.ok old, s5))
    (checked : vAll (checkCand x (runEnv x lim veh tr s5.freeCtr) x.rnAux) (repairSet (bits (wordAt h 3) 63 48) x.rnRepairK old)
      { s5 with freeCtr := s5.freeCtr + 2 } = (.ok rs, s6))
    (stands : ∃ q ∈ rs, q.1 = bits (wordAt h 3) 63 48 ∧ q.2.2.bits0 = 0) :
    repairWork x lim d s = (.ok (), s6.okEnd x.id false (some 0)) := by
  rw [repairWork, Rs.andThen_ok applied, Rs.andThen_ok newest, Rs.andThen_ok vehicle, Rs.andThen_ok stored]
  dsimp only
  rw [Rs.andThen_ok checked, if_pos (by simpa using stands)]
  rfl

end

/-- Settles O51: every computation of a RUNNER job keeps the jobs until it ends its own (`RunEnds`), and a publication is
the only one that touches RUN_STAT (`publish_shows`). -/
theorem runnerJobsUpdateAndPublish : Obligations.RunnerJobsUpdateAndPublish := by
  unfold Obligations.RunnerJobsUpdateAndPublish
  refine ⟨?_, ?_, ?_, ?_, ?_, ?_, ?_⟩
  · intro s j x d c held takes op w
    have same : w = runnerWork x s c := by rcases op with ⟨rfl, -⟩ | ⟨rfl, -⟩ | ⟨rfl, -⟩ | ⟨rfl, -⟩ <;> rfl
    clear_value w
    subst same
    have running := runnerTakes_running takes
    obtain ⟨run, ends⟩ := runnerWork_runs held takes op
    obtain ⟨y, job, ended, ok, err, left⟩ := ends.closed held (by simp [running])
    refine ⟨_, y, run, job.1, ended, ok, err, job.2, fun b hc pred good => ?_, left⟩
    subst hc
    exact updateGo_nodes pred good
  · intro s s1 j x st held takes op
    have open_ : x.phase ≠ .ended := by simp [runnerTakes_running takes]
    refine ⟨fun pred => ?_, fun s2 tr pred applied => ?_⟩
    · have reads : Calc s s1 := Leaves.of_eq pred (Calc.predState (.refl _ _ s))
      obtain ⟨job, closed⟩ := State.closed_ok held open_ reads.jobs (updateGo_absent pred)
      refine ⟨_, _, update_runs held takes op, job.1, rfl, rfl, ?_, ?_⟩
      · exact (bit_lor _ _ _).trans (by rw [(by decide : bit 1 0 = true), Bool.or_true])
      · rw [closed, (State.leaves_okEnd true none).1 .cells (by simp)]
    · have reads : Calc s s2 := Leaves.of_eq applied (Calc.applyUpdates (Leaves.of_eq pred (Calc.predState (.refl _ _ s))))
      obtain ⟨job, closed⟩ := State.closed_ok held open_ reads.jobs (updateGo_stands pred applied)
      refine ⟨_, _, update_runs held takes op, job.1, rfl, rfl, ?_, ?_, ?_, job.2⟩
      · rintro rfl
        exact (bit_lor _ _ _).trans (by rw [(by decide : bit 1 0 = true), Bool.or_true])
      · rintro rfl
        rfl
      · rw [closed, (State.leaves_okEnd st none).1 .cells (by simp)]
  · intro s j x d held waits
    refine ⟨?_, ?_, ?_, ?_⟩
    · rw [exec_update, execUpdate, State.runnerJob_waits held waits]
    · rw [exec_plan, execPlan, State.runnerJob_waits held waits]
    · rw [exec_repair, execRepair, State.runnerJob_waits held waits]
    · rw [exec_publishAt, execPublishAt, State.runnerJob_waits held waits]
  · intro s s1 s2 s3 s4 j k n x lim veh tr rs q r e s5 pl held takes op head early vehicle tree checked best chosen shape ⟨s6, published⟩
    have open_ : x.phase ≠ .ended := by simp [runnerTakes_running takes]
    have upTo3 : Calc s s3 := Leaves.of_eq tree (Calc.runTree (Leaves.of_eq vehicle (Calc.vBytes (Leaves.of_eq head (Calc.planHead (.refl _ _ s))))))
    have drawn : Calc s { s3 with freeCtr := s3.freeCtr + 2 } := Leaves.one .freeCtr upTo3 (by simp [calcParts, accessParts])
    have upTo4 : Calc s s4 := Leaves.of_eq checked (Calc.vAll drawn fun _ _ => .checkCand)
    have upTo5 : Calc s s5 := Leaves.one .planCount upTo4 (by simp [calcParts])
    have points : Calc s5 pl.2 := .newPoints (.refl _ _ s5)
    have reads : Calc s pl.2 := .newPoints upTo5
    obtain ⟨count, source, -, plans, jobs⟩ := publish_stat published (Nat.zero_lt_succ _) (Nat.zero_lt_succ _)
    have run := (planGo_works (d := false) head early).trans (planWork_publishes vehicle tree checked best chosen shape rfl published)
    obtain ⟨job, closed⟩ := State.closed_ok held open_ (jobs.trans reads.jobs) run
    refine ⟨_, _, plan_runs held takes op false, job.1, rfl, rfl, rfl, ?_, ?_, ?_⟩
    · rw [closed, State.okEnd_f, source]
    · rw [closed, State.okEnd_f, count, reads.stat _ rfl]
    · rw [closed, (State.leaves_okEnd false none).1 .planCount (by simp), plans]
      exact newPoints_planCount
  · intro s s1 s2 j fl x lim c late out held takes op head waits newest ⟨s3, published⟩
    have open_ : x.phase ≠ .ended := by simp [runnerTakes_running takes]
    have reads : Calc s s2 := Leaves.of_eq newest (Calc.newestPlan (Leaves.of_eq head (Calc.planHead (.refl _ _ s))))
    obtain ⟨source, reuse, count, jobs⟩ := lateStat (s := s) rfl rfl reads published
    have ran : ∀ work d, (planGo work x d s) = (.ok (), s3.okEnd x.id true none) := fun work d =>
      (planGo_late head waits).trans (lateRule_none newest published)
    have run : ∃ w : Rs Unit, exec c s = .next (w.close j) ∧ w = (.ok (), s3.okEnd x.id true none) := by
      simp only [List.mem_cons, List.not_mem_nil, or_false, Prod.mk.injEq] at op
      rcases op with ⟨rfl, op⟩ | ⟨rfl, op⟩
      · exact ⟨_, plan_runs held takes op false, ran _ _⟩
      · exact ⟨_, repair_runs held takes op false, ran _ _⟩
    obtain ⟨w, run, ok⟩ := run
    obtain ⟨job, closed⟩ := State.closed_ok held open_ jobs ok
    refine ⟨_, _, run, job.1, rfl, rfl, ?_, ?_, ?_, ?_⟩
    · exact (bit_lor _ _ _).trans (by rw [(by decide : bit 1 0 = true), Bool.or_true])
    · rw [closed, State.okEnd_f, source]
    · rw [closed, State.okEnd_f, reuse]
    · rw [closed, State.okEnd_f, count]
  · intro s s1 s2 j fl x lim out held takes op
    refine ⟨publishAt_early held takes op, fun due head newest ⟨s3, published⟩ => ?_⟩
    have open_ : x.phase ≠ .ended := by simp [runnerTakes_running takes]
    have reads : Calc s s2 := Leaves.of_eq newest (Calc.newestPlan (Leaves.of_eq head (Calc.planHead (.refl _ _ s))))
    obtain ⟨source, -, -, jobs⟩ := lateStat (s := s) rfl rfl reads published
    obtain ⟨job, closed⟩ := State.closed_ok held open_ jobs
      ((Rs.andThen_ok (g := fun h s1 => lateRule x h.1 (h.2 + pfLate) s1) head).trans (lateRule_none (fl := fl + pfLate) newest published))
    refine ⟨_, _, publishAt_runs held takes op due, job.1, rfl, rfl, ?_, ?_⟩
    · exact (bit_lor _ _ _).trans (by rw [(by decide : bit 1 0 = true), Bool.or_true])
    · rw [closed, State.okEnd_f, source]
  · intro s s1 s2 s3 s4 s5 s6 j x lim veh tr h ps old rs d e chosen held takes op head early applied newest vehicle stored checked stands
    have open_ : x.phase ≠ .ended := by simp [runnerTakes_running takes]
    have upTo2 : Calc s s2 := Leaves.of_eq applied (Calc.applyUpdates (Leaves.of_eq head (Calc.planHead (.refl _ _ s))))
    have upTo4 : Calc s s4 := Leaves.of_eq vehicle (Calc.vBytes (Leaves.of_eq newest (Calc.newestPlan upTo2)))
    have upTo5 : Calc s s5 := Leaves.of_eq stored (Calc.vAll upTo4 fun _ _ => .storedRes)
    have drawn : Calc s { s5 with freeCtr := s5.freeCtr + 2 } := Leaves.one .freeCtr upTo5 (by simp [calcParts, accessParts])
    have reads : Calc s s6 := Leaves.of_eq checked (Calc.vAll drawn fun _ _ => .checkCand)
    have run := (planGo_works (d := d) head early).trans (repairWork_stands (d := d) applied newest vehicle stored checked stands)
    obtain ⟨job, closed⟩ := State.closed_ok held open_ reads.jobs run
    refine ⟨_, _, repair_runs held takes op d, job.1, rfl, rfl, rfl, rfl, ?_⟩
    rw [closed, State.okEnd_f, reads.stat _ rfl]

end Sys2Proof.Machine
end

section
/-! PROOFS. What frames leave of the switch's settings, and the write-back of a ring's descriptor (R286 to R291). -/

set_option Elab.async false

namespace Sys2Proof.Machine

/-! ## The settings of the switch -/

/-- The time and the settings of the switch are the same in both states. -/
structure SameSwitch (s t : State) : Prop where
  clock : t.clock = s.clock
  items : t.net.ethItems = s.net.ethItems
  gates : t.net.gateEngs = s.net.gateEngs
  keys : t.net.macSak = s.net.macSak

section
variable {s t u : State}

theorem SameSwitch.trans (h : SameSwitch s t) (g : SameSwitch t u) : SameSwitch s u :=
  ⟨g.clock.trans h.clock, g.items.trans h.items, g.gates.trans h.gates, g.keys.trans h.keys⟩

theorem Leaves.switch {ps : List Part} {q : Reg → Nat → Prop} (h : Leaves ps q s t) (clock : .clock ∉ ps) (items : .ethItems ∉ ps)
    (gates : .gateEngs ∉ ps) (keys : .macSak ∉ ps) : SameSwitch s t :=
  ⟨h.1 .clock clock, h.1 .ethItems items, h.1 .gateEngs gates, h.1 .macSak keys⟩

/-- What the forwarding of a frame may change leaves the settings. -/
theorem switch_of_parts {ps : List Part} {q : Reg → Nat → Prop} (h : Leaves ps q s t) (few : ps ⊆ switchParts) : SameSwitch s t :=
  h.switch (fun m => absurd (few m) (by decide)) (fun m => absurd (few m) (by decide)) (fun m => absurd (few m) (by decide))
    (fun m => absurd (few m) (by decide))

section
variable (h : SameSwitch s t)
include h

theorem SameSwitch.now : t.now = s.now := by rw [State.now, State.now, h.clock]

theorem SameSwitch.since (k : Nat) : t.since k = s.since k := by rw [State.since, State.since, h.now]

theorem SameSwitch.ethItem (p k i : Nat) : t.ethItem p k i = s.ethItem p k i := by rw [State.ethItem, State.ethItem, h.items]

theorem SameSwitch.ethField (p k i o n : Nat) : t.ethField p k i o n = s.ethField p k i o n := by
  unfold State.ethField
  rw [h.ethItem]

theorem SameSwitch.ethUp (p : Nat) : t.ethUp p = s.ethUp p := by rw [State.ethUp, State.ethUp, h.ethField]

theorem SameSwitch.macOn (p c : Nat) : t.macOn p c = s.macOn p c := by rw [State.macOn, State.macOn, h.ethField, h.keys]

theorem SameSwitch.gateEng (n : Nat) : t.gateEng n = s.gateEng n := by rw [State.gateEng, State.gateEng, h.gates]

theorem SameSwitch.gateOpen (p c n : Nat) : t.gateOpen p c n = s.gateOpen p c n := by
  unfold State.gateOpen
  rw [h.gateEng, h.now, h.ethField]

theorem SameSwitch.frameNs (p n : Nat) : t.frameNs p n = s.frameNs p n := by rw [State.frameNs, State.frameNs, h.ethField]

theorem SameSwitch.shaped (p c : Nat) : t.shaped p c = s.shaped p c := by rw [State.shaped, State.shaped, h.ethField]

theorem SameSwitch.member (p v : Nat) : t.member p v = s.member p v := by
  rw [State.member, State.member, h.ethField, h.items]

theorem SameSwitch.egressForm (p v c : Nat) (bs : List Byte) : t.egressForm p v c bs = s.egressForm p v c bs := by
  simp only [State.egressForm, h.ethItem, h.ethField]

theorem SameSwitch.classOf (p : Nat) (bs : List Byte) : t.classOf p bs = s.classOf p bs := by
  simp only [State.classOf, h.ethField]

theorem SameSwitch.streamOf (bs : List Byte) (v : Nat) : t.streamOf bs v = s.streamOf bs v := by
  rw [State.streamOf, State.streamOf, h.items]

theorem SameSwitch.filterOpen (n k : Nat) : t.filterOpen n k = s.filterOpen n k := by
  simp only [State.filterOpen, h.ethField, h.gateEng]

theorem SameSwitch.cbOf (b : Bool) (n : Nat) : t.cbOf b n = s.cbOf b n := by rw [State.cbOf, State.cbOf, h.items]

theorem SameSwitch.fdb (m : List Byte) (v : Nat) : t.fdb m v = s.fdb m v := by rw [State.fdb, State.fdb, h.items]

theorem SameSwitch.fdbPorts (p : Nat) (bs : List Byte) (v : Nat) : t.fdbPorts p bs v = s.fdbPorts p bs v := by
  unfold State.fdbPorts
  simp only [h.fdb, h.member]

theorem SameSwitch.macPn (same : t.net.macPns = s.net.macPns) (p c : Nat) : t.macPn p c = s.macPn p c := by
  rw [State.macPn, State.macPn, h.ethField, same]

theorem SameSwitch.macsecTx (p : Nat) (same : t.macPn p 0 = s.macPn p 0) : t.macsecTx p = s.macsecTx p := by
  rw [State.macsecTx, State.macsecTx, h.macOn, h.ethField, h.ethField, same]

theorem SameSwitch.credit (p c : Nat) (same : t.shaper p c = s.shaper p c) : t.credit p c = s.credit p c := by
  simp only [State.credit, same, h.ethField, h.since]

theorem SameSwitch.mayStart (p c n : Nat) (same : t.shaper p c = s.shaper p c) : t.mayStart p c n = s.mayStart p c n := by
  rw [State.mayStart, State.mayStart, h.gateOpen, h.shaped, h.credit p c same]

end

theorem State.shaper_of (h : t.net.shapers = s.net.shapers) (p c : Nat) : t.shaper p c = s.shaper p c := by
  rw [State.shaper, State.shaper, h]

theorem State.egress_of (h : t.net.egress = s.net.egress) (p : Nat) : t.egress p = s.egress p := by
  rw [State.egress, State.egress, h]

end

/-! ## Rings -/

section
variable {s t u : State} {k : Bool} {r : Nat}

/-- The registers of the rings are none that an access of a real-time master changes. -/
theorem rings_apart (x : Fld) (hx : x.reg ∈ [Reg.ethRingcfg0, .ethRingcfg1, .ethRingdb, .canRingcfg0, .canRingcfg1, .canRingdb, .ethHostcfg])
    (i : Nat) : ¬ rtRegs x.reg i := by
  simp only [List.mem_cons, List.not_mem_nil, or_false] at hx
  rcases hx with e | e | e | e | e | e | e <;> rw [e] <;> simp [rtRegs, accessRegs]

/-- The registers of a ring are the same. -/
structure SameRing (k : Bool) (r : Nat) (s t : State) : Prop where
  inst : t.f (rgInst k) r = s.f (rgInst k) r
  base : t.f (rgBase k) r = s.f (rgBase k) r
  size : t.f (rgSize k) r = s.f (rgSize k) r
  cons : t.f (rgCons k) r = s.f (rgCons k) r
  vec : t.f (rgVec k) r = s.f (rgVec k) r

theorem sameRing_of {ps : List Part} {q : Reg → Nat → Prop} (h : Leaves ps q s t)
    (hq : ∀ x ∈ [Reg.ethRingcfg0, .ethRingcfg1, .ethRingdb, .canRingcfg0, .canRingcfg1, .canRingdb], ¬ q x r) : SameRing k r s t := by
  constructor <;> cases k <;> exact h.f_same _ _ (hq _ (by simp [rgInst, rgBase, rgSize, rgCons, rgVec, ETH_RINGCFG0.INSTANCE,
    ETH_RINGCFG1.BASE, ETH_RINGCFG0.SIZE_LOG2, ETH_RINGDB.CONS, ETH_RINGCFG0.IRQ_VEC, CAN_RINGCFG0.INSTANCE, CAN_RINGCFG1.BASE,
    CAN_RINGCFG0.SIZE_LOG2, CAN_RINGDB.CONS, CAN_RINGCFG0.IRQ_VEC]))

theorem sameRing_rt {ps : List Part} (h : Leaves ps rtRegs s t) : SameRing k r s t := by
  refine sameRing_of h fun x hx => ?_
  simp only [List.mem_cons, List.not_mem_nil, or_false] at hx
  rcases hx with rfl | rfl | rfl | rfl | rfl | rfl <;> simp [rtRegs, accessRegs]

theorem SameRing.descAt (h : SameRing k r s t) (i : Nat) : t.descAt k r i = s.descAt k r i := by
  simp only [State.descAt, State.ringSize, h.base, h.size]

theorem rtCons_fits : (rgCons k).fits := by cases k <;> decide

/-- The pieces of a write-back, with the address taken anew at each. -/
theorem State.each_pieces (ps : List (Nat × List Byte)) (same : SameRing k r s t) :
    (t.each ps fun t p => (rtWrite (rgMaster k) t (s.f (rgInst k) r) (s.descAt k r (s.f (rgCons k) r) + p.1) p.2).2)
      = t.each ps fun t p => (rtWrite (rgMaster k) t (t.f (rgInst k) r) (t.descAt k r (t.f (rgCons k) r) + p.1) p.2).2 := by
  induction ps generalizing t with
  | nil => rw [State.each, State.each, List.foldl_nil, List.foldl_nil]
  | cons p ps ih =>
    have wrote := leaves_rtWrite (rgMaster k) t (s.f (rgInst k) r) (s.descAt k r (s.f (rgCons k) r) + p.1) p.2
    have after : SameRing k r t _ := sameRing_rt wrote
    have here : SameRing k r s _ := ⟨after.inst.trans same.inst, after.base.trans same.base, after.size.trans same.size,
      after.cons.trans same.cons, after.vec.trans same.vec⟩
    have rest := ih here
    unfold State.each at rest ⊢
    simp only [List.foldl_cons]
    rw [rest, same.inst, same.cons, same.descAt]

theorem State.leaves_pieces (a i : Nat) (ps : List (Nat × List Byte)) :
    Leaves rtParts rtRegs s (s.each ps fun s p => (rtWrite (rgMaster k) s i (a + p.1) p.2).2) :=
  Leaves.each _ (fun _ _ => leaves_rtWrite _ _ _ _ _) _ s

/-- A write-back consumes the descriptor. -/
theorem State.writeBack_consumed (ps : List (Nat × List Byte)) : Consumed k r ps s (s.writeBack k r ps) := by
  have wrote : Leaves rtParts rtRegs s _ := State.leaves_pieces (k := k) (s.descAt k r (s.f (rgCons k) r)) (s.f (rgInst k) r) ps
  have same : SameRing k r s _ := sameRing_rt wrote
  refine ⟨?_, ?_, ?_⟩
  · rw [State.writeBack, State.emit_f, State.incWrap_f_same _ _ _ _ rtCons_fits, same.cons]
    cases k <;> rfl
  · rw [State.writeBack, same.vec]
    rfl
  · rw [← State.each_pieces ps (t := s) ⟨rfl, rfl, rfl, rfl, rfl⟩, State.writeBack, State.emit_mem, State.incWrap_mem]

/-- The registers that a write-back of a ring changes. -/
abbrev ringRegs (k : Bool) (n : Nat) (r : Reg) (i : Nat) : Prop := rtRegs r i ∨ (r = (rgCons k).reg ∧ i = n)

theorem State.leaves_writeBack (ps : List (Nat × List Byte)) : Leaves rtParts (ringRegs k r) s (s.writeBack k r ps) :=
  .emit (.incWrap ((State.leaves_pieces _ _ ps).mono (fun _ h => h) fun _ _ => .inl) (.inr ⟨rfl, rfl⟩)) (by simp [rtParts, accessParts])

theorem State.leaves_headDesc : Leaves rtParts rtRegs s (s.headDesc k r).2 := by
  have read := leaves_rtRead (rgMaster k) s (s.f (rgInst k) r) (s.descAt k r (s.f (rgCons k) r)) 32
  unfold State.headDesc
  split
  · rename_i e
    exact Leaves.of_eq e read
  · rename_i e
    exact Leaves.of_eq e read

theorem Leaves.rt_switch (h : Leaves rtParts (fun _ _ => True) s t) : SameSwitch s t :=
  switch_of_parts h (fun _ hp => List.mem_append_right _ hp)

end

end Sys2Proof.Machine
end

section
/-! PROOFS. Frames that leave a transmit ring (R288, R290, R291). -/

set_option Elab.async false

namespace Sys2Proof.Machine

section
variable {s t : State} {r : Nat} {d : List Nat}

/-- The write-back of a transmit descriptor. -/
def txDone (st q ts fr : Nat) : List (Nat × List Byte) :=
  [(0, toLE 8 ts ++ toLE 8 (fr * 2 ^ 48 + st * 2 ^ 40 + q * 2 ^ 36) ++ toLE 8 0)]

theorem State.ethWb_done (ts fr st q : Nat) : s.ethWb r ts fr st q 0 0 none = s.writeBack false r (txDone st q ts fr) := by
  have word : fr * 2 ^ 48 + st * 2 ^ 40 + q * 2 ^ 36 + 0 * 2 ^ 22 + 0 % 4096 * 2 ^ 10 + (Option.getD (none : Option Nat) 0) % 1024
      = fr * 2 ^ 48 + st * 2 ^ 40 + q * 2 ^ 36 := by
    rw [Option.getD_none]
    omega
  rw [State.ethWb, word, txDone]
  rfl

theorem State.txEnd_done (st q : Nat) : s.txEnd r st q = s.writeBack false r (txDone st q 0 0) := State.ethWb_done 0 0 st q

/-! ## The descriptor at the head -/

theorem State.headDesc_leaves {k : Bool} {o : Option (List Nat)} (head : s.headDesc k r = (o, t)) : Leaves rtParts rtRegs s t :=
  Leaves.of_eq head State.leaves_headDesc

theorem rt_switch (h : Leaves rtParts rtRegs s t) : SameSwitch s t := switch_of_parts h fun _ hp => List.mem_append_right _ hp

theorem SameSwitch.eligible (h : SameSwitch s t) (k : Bool) : t.eligible k d = s.eligible k d := by
  unfold State.eligible
  rw [h.now]

theorem SameSwitch.isLate (h : SameSwitch s t) {k : Bool} (same : t.f (rgLate k) r = s.f (rgLate k) r) : t.isLate k r d = s.isLate k r d := by
  unfold State.isLate
  rw [h.now, same]

theorem late_same {k : Bool} (h : Leaves rtParts rtRegs s t) : t.isLate k r d = s.isLate k r d :=
  (rt_switch h).isLate (by cases k <;> exact h.f_same _ _ (by simp [rgLate, ETH_RINGCFG0.LATE_US, CAN_RINGCFG0.LATE_US, rtRegs, accessRegs]))

theorem frameTransmit_idle (hr : r < 128) (has : s.ringHas false r = false) : exec (.frameTransmit r) s = .next s := by
  rw [exec_frameTransmit, execFrameTransmit, decide_eq_true hr, unit_true, has, if_pos (by decide)]

theorem launchLate_idle (hr : r < 128) (has : s.ringHas false r = false) : exec (.launchLate none r) s = .next s := by
  rw [exec_launchLate, execLaunchLate, decide_eq_true hr, unit_true, has, if_pos (by decide)]

theorem frameTransmit_takes (hr : r < 128) (has : s.ringHas false r = true) (head : s.headDesc false r = (some d, t)) :
    exec (.frameTransmit r) s = .next (t.transmit r d) := by
  rw [exec_frameTransmit, execFrameTransmit, decide_eq_true hr, unit_true, has, if_neg (by decide), head]

theorem launchLate_judges (hr : r < 128) (has : s.ringHas false r = true) (head : s.headDesc false r = (some d, t)) :
    exec (.launchLate none r) s = .next (if s.isLate false r d then t.txEnd r rsLate (txPort d) else t) := by
  rw [exec_launchLate, execLaunchLate, decide_eq_true hr, unit_true, has, if_neg (by decide), head]
  dsimp only
  rw [late_same (State.headDesc_leaves head)]

theorem canLaunchLate_idle {c q : Nat} (hc : c < 20) (hq : q < 8) (has : s.ringHas true (canRing c q) = false) :
    exec (.launchLate (some c) q) s = .next s := by
  rw [exec_launchLate, execLaunchLate, decide_eq_true hc, decide_eq_true hq, Bool.and_self, unit_true]
  dsimp only
  rw [has, if_pos (by decide)]

theorem canLaunchLate_judges {c q : Nat} (hc : c < 20) (hq : q < 8) (has : s.ringHas true (canRing c q) = true)
    (head : s.headDesc true (canRing c q) = (some d, t)) :
    exec (.launchLate (some c) q) s
      = .next (if s.isLate true (canRing c q) d then t.canWb (canRing c q) d rsLate 0 0 else t) := by
  rw [exec_launchLate, execLaunchLate, decide_eq_true hc, decide_eq_true hq, Bool.and_self, unit_true]
  dsimp only
  rw [has, if_neg (by decide), head]
  dsimp only
  rw [late_same (State.headDesc_leaves head)]

/-! ## The forms of a transmission -/

theorem State.transmit_bad (bad : txBad d = true) : s.transmit r d = s.txEnd r rsBadDesc 0 := by
  unfold State.transmit
  exact if_pos bad

section
variable (good : txBad d = false)
include good

theorem State.transmit_waits (soon : s.eligible false d = false) : s.transmit r d = s := by
  unfold State.transmit
  dsimp only
  rw [good, if_neg Bool.false_ne_true, soon]
  rfl

variable (due : s.eligible false d = true)
include due

theorem State.transmit_late (late : s.isLate false r d = true) : s.transmit r d = s.txEnd r rsLate (txPort d) := by
  unfold State.transmit
  dsimp only
  rw [good, if_neg Bool.false_ne_true, due, if_neg (by decide), if_pos late]

variable (early : s.isLate false r d = false)
include early

theorem State.transmit_down (port : txPort d < 12) (down : (s.ethUp (txPort d) && s.macsecTx (txPort d)) = false) :
    s.transmit r d = s.txEnd r rsDropped (txPort d) := by
  unfold State.transmit
  dsimp only
  rw [good, if_neg Bool.false_ne_true, due, if_neg (by decide), early, if_neg Bool.false_ne_true, if_pos (by simp [port, down])]

variable (up : txPort d < 12 → (s.ethUp (txPort d) && s.macsecTx (txPort d)) = true)
include up

theorem State.transmit_holds (port : txPort d < 12) (shut : s.mayStart (txPort d) (txPcp d) (txLen d) = false) :
    s.transmit r d = s.lookShaper (txPort d) (txPcp d) true := by
  unfold State.transmit
  dsimp only
  rw [good, if_neg Bool.false_ne_true, due, if_neg (by decide), early, if_neg Bool.false_ne_true, if_neg (by simp [up port]),
    if_pos (by simp [port, shut])]

theorem State.transmit_reads {bs : List Byte} (starts : txPort d < 12 → s.mayStart (txPort d) (txPcp d) (txLen d) = true)
    (read : rtRead rtEther s (s.f ETH_RINGCFG0.INSTANCE r) (wordAt d 0) (txLen d) = (.ok bs, t)) :
    s.transmit r d = if txPort d < 12 then t.transmitTo r d bs
      else (t.switchFrame 16 bs).2.txEnd r (if (t.switchFrame 16 bs).1 then rsOk else rsDropped) (txPort d) := by
  generalize forwarded : t.switchFrame 16 bs = w
  obtain ⟨ok, s2⟩ := w
  unfold State.transmit
  dsimp only
  rw [good, if_neg Bool.false_ne_true, due, if_neg (by decide), early, if_neg Bool.false_ne_true,
    if_neg (by simpa using fun port => by simpa using up port), if_neg (by simpa using starts), read]
  dsimp only
  rw [forwarded]

end

/-! ## A frame through an external port -/

/-- What the filter of a ring's frame decides. -/
def State.policed (s : State) (bs : List Byte) : Bool × State :=
  match s.streamOf bs (s.classOf 16 bs).1 with
  | some n => s.filterPass n bs.length
  | none => (true, s)

/-- The state of a meter is kept. -/
def State.withMeter (s : State) (n : Nat) (m : MeterSt) : State := { s with net.meters := NMap.insert s.net.meters n m }

theorem State.leaves_withMeter (n : Nat) (m : MeterSt) : Leaves [.meters] noReg s (s.withMeter n m) := .one .meters (.refl _ _ s) (by simp)

theorem State.meterPass_eq (n len : Nat) : s.meterPass n len = if len * 8000000 ≤ (s.meterNow n).c then
      (true, s.withMeter n { s.meterNow n with c := (s.meterNow n).c - len * 8000000 })
    else if len * 8000000 ≤ (s.meterNow n).e then
      (!bit (s.ethField 0 8 n 0x10 1) 1, s.withMeter n { s.meterNow n with e := (s.meterNow n).e - len * 8000000 })
    else (false, s.withMeter n (s.meterNow n)) := (rfl)

theorem State.leaves_meterPass (n len : Nat) : Leaves [.meters] noReg s (s.meterPass n len).2 := by
  rw [State.meterPass_eq]
  split
  · exact State.leaves_withMeter _ _
  · split <;> exact State.leaves_withMeter _ _

theorem State.leaves_filterPass (n len : Nat) : Leaves [.meters] noReg s (s.filterPass n len).2 := by
  unfold State.filterPass
  dsimp only
  split
  · exact .refl _ _ s
  · split
    · exact .refl _ _ s
    · exact State.leaves_meterPass _ _

theorem State.leaves_policed (bs : List Byte) : Leaves [.meters] noReg s (s.policed bs).2 := by
  unfold State.policed
  split
  · exact State.leaves_filterPass _ _
  · exact .refl _ _ s

theorem State.leaves_usePn (p : Nat) : Leaves [.macPns] noReg s (s.usePn p) := by
  unfold State.usePn
  exact .ite (.one .macPns (.refl _ _ s) (by simp)) (.refl _ _ s)

theorem Leaves.setShaper {ps : List Part} {q : Reg → Nat → Prop} {b : State} {p c : Nat} {x : ShaperSt} (h : Leaves ps q b s)
    (hp : .shapers ∈ ps := by simp) : Leaves ps q b (s.setShaper p c x) := h.one .shapers hp

theorem State.leaves_lookShaper (p c : Nat) (w : Bool) : Leaves [.shapers] noReg s (s.lookShaper p c w) := by
  unfold State.lookShaper
  exact .ite (.setShaper (.refl _ _ s)) (.refl _ _ s)

theorem State.leaves_startFrame (p c : Nat) (bs : List Byte) : Leaves [.shapers, .macPns, .outbox] noReg s (s.startFrame p c bs) := by
  unfold State.startFrame
  exact .emit (.trans (.ite (.setShaper (.refl _ _ s)) (.refl _ _ s)) ((State.leaves_usePn p).mono (by simp) fun _ _ => id))

theorem State.setShaper_shaper (p c k : Nat) (x : ShaperSt) : (s.setShaper p c x).shaper p k = if k = c then x else s.shaper p k := by
  unfold State.shaper State.setShaper
  rw [NMap.get_set]
  simp only [Nat.add_left_cancel_iff]

/-- The credit that a frame of a length costs its shaper. -/
def State.paid (s : State) (p c n : Nat) : State :=
  if s.shaped p c then
    s.setShaper p c { credit := max (sint 32 (s.ethField p 5 c 0x10 4) * 1000000)
                        (s.credit p c + sint 32 (s.ethField p 5 c 8 4) * (s.frameNs p n : Int)), ns := (s.now + s.frameNs p n) % 2 ^ 64 }
  else s

theorem State.leaves_paid (p c n : Nat) : Leaves [.shapers] noReg s (s.paid p c n) := by
  unfold State.paid
  exact .ite (.setShaper (.refl _ _ s)) (.refl _ _ s)

theorem State.startFrame_eq (p c : Nat) (bs : List Byte) :
    s.startFrame p c bs = ((s.paid p c bs.length).usePn p).emit (.ethFrame p bs) := (rfl)

/-- A frame that starts is recorded as sent, uses up a packet number, and costs its shaper's credit. -/
theorem State.startFrame_starts (p c : Nat) (bs : List Byte) : .ethFrame p bs ∈ (s.startFrame p c bs).outbox
    ∧ (s.macOn p 0 = true → (s.startFrame p c bs).macPn p 0 = s.macPn p 0 + 1)
    ∧ (s.shaped p c = true → ((s.startFrame p c bs).shaper p c).credit
        = max (sint 32 (s.ethField p 5 c 0x10 4) * 1000000) (s.credit p c + sint 32 (s.ethField p 5 c 8 4) * (s.frameNs p bs.length : Int))) := by
  refine ⟨List.mem_cons_self, fun on => ?_, fun shaped => ?_⟩
  · have item : ∀ v : State, SameSwitch s v → v.net.macPns = s.net.macPns → (v.usePn p).macPn p 0 = s.macPn p 0 + 1 := fun v same pns => by
      rw [State.usePn, same.macOn, if_pos on, same.macPn pns]
      unfold State.macPn
      dsimp only
      rw [NMap.find_insert, if_pos (Nat.add_zero _)]
      rfl
    exact item _ (switch_of_parts (s.leaves_paid p c bs.length) (by decide)) ((s.leaves_paid p c bs.length).1 .macPns (by decide))
  · have kept : (s.startFrame p c bs).shaper p c = (s.paid p c bs.length).shaper p c :=
      State.shaper_of (((State.leaves_usePn p).1 .shapers (by decide))) p c
    rw [kept, State.paid, if_pos shaped, State.setShaper_shaper, if_pos rfl]

theorem State.transmitTo_dropped {bs : List Byte} (dropped : (s.policed bs).1 = false) :
    s.transmitTo r d bs = (s.policed bs).2.txEnd r rsDropped (txPort d) := by
  have form : s.transmitTo r d bs = if !(s.policed bs).1 then (s.policed bs).2.txEnd r rsDropped (txPort d)
      else ((s.policed bs).2.startFrame (txPort d) (txPcp d) bs).ethWb r
        (if txTs d then ((s.policed bs).2.startFrame (txPort d) (txPcp d) bs).now else 0)
        (if txTs d then ((s.policed bs).2.startFrame (txPort d) (txPcp d) bs).clock.frac else 0) rsOk (txPort d) 0 0 none := by
    unfold State.transmitTo
    cases txTs d <;> rfl
  rw [form, dropped]
  rfl

theorem State.transmitTo_sent {bs : List Byte} (passed : (s.policed bs).1 = true) :
    s.transmitTo r d bs = ((s.policed bs).2.startFrame (txPort d) (txPcp d) bs).writeBack false r
      (txDone rsOk (txPort d) (if txTs d then s.now else 0) (if txTs d then s.clock.frac else 0)) := by
  have clock : ((s.policed bs).2.startFrame (txPort d) (txPcp d) bs).clock = s.clock :=
    ((State.leaves_startFrame _ _ _).1 .clock (by decide)).trans ((State.leaves_policed bs).1 .clock (by decide))
  have form : s.transmitTo r d bs = if !(s.policed bs).1 then (s.policed bs).2.txEnd r rsDropped (txPort d)
      else ((s.policed bs).2.startFrame (txPort d) (txPcp d) bs).ethWb r
        (if txTs d then ((s.policed bs).2.startFrame (txPort d) (txPcp d) bs).now else 0)
        (if txTs d then ((s.policed bs).2.startFrame (txPort d) (txPcp d) bs).clock.frac else 0) rsOk (txPort d) 0 0 none := by
    unfold State.transmitTo
    cases txTs d <;> rfl
  rw [form, passed, if_neg (by decide), State.ethWb_done, State.now, clock]
  rfl

end

end Sys2Proof.Machine
end

section
/-! PROOFS. The external ports of the switch: what waits there, and what starts (R287, R288). -/

set_option Elab.async false

namespace Sys2Proof.Machine

section
variable {b s t : State}

theorem Leaves.setEgress {ps : List Part} {q : Reg → Nat → Prop} {p : Nat} {x : List (Nat × List Byte)} (h : Leaves ps q b s)
    (hp : .egress ∈ ps := by simp) : Leaves ps q b (s.setEgress p x) := h.one .egress hp

theorem State.setEgress_egress (p k : Nat) (x : List (Nat × List Byte)) : (s.setEgress p x).egress k = if k = p then x else s.egress k :=
  NMap.get_set _ _ _ _ _

theorem State.startFrame_egress (p c k : Nat) (bs : List Byte) : (s.startFrame p c bs).egress k = s.egress k :=
  State.egress_of ((State.leaves_startFrame p c bs).1 .egress (by decide)) k

/-! ## Looking at the shapers -/

/-- The frames that wait at a port are noted with its shapers. -/
def State.lookAll (s : State) (p : Nat) : State :=
  s.each (List.range 8) fun s c => s.lookShaper p c ((s.egress p).any fun x => x.1 == c)

theorem State.drainPort_zero (p : Nat) : s.drainPort p 0 = s.lookAll p := by
  unfold State.drainPort State.lookAll
  rfl

theorem State.drainPort_starts {p n : Nat} {x : Nat × List Byte} (next : s.nextClass p = some x) :
    s.drainPort p (n + 1) = ((s.setEgress p ((s.egress p).erase x)).startFrame p x.1 x.2).drainPort p n := by
  conv_lhs => unfold State.drainPort
  rw [next]

theorem State.drainPort_stops {p n : Nat} (next : s.nextClass p = none) : s.drainPort p (n + 1) = s.lookAll p := by
  conv_lhs => unfold State.drainPort
  rw [next]
  exact State.drainPort_zero p

theorem State.leaves_lookAll (p : Nat) : Leaves [.shapers] noReg s (s.lookAll p) :=
  .over (.refl _ _ s) fun _ t h => h.trans (t.leaves_lookShaper p _ _)

theorem State.setShaper_credit {p c : Nat} {x : ShaperSt} (since : s.since x.ns = 0) : (s.setShaper p c x).credit p c
    = min (if x.waits then max 0 (sint 32 (s.ethField p 5 c 0xC 4)) * 1000000 else 0) x.credit := by
  have same : SameSwitch s (s.setShaper p c x) := switch_of_parts (Leaves.setShaper (.refl [.shapers] noReg s)) (by decide)
  unfold State.credit
  dsimp only
  rw [State.setShaper_shaper, if_pos rfl, same.since, same.ethField, same.ethField, since, Nat.mul_zero, Nat.cast_zero, add_zero]

/-- The moment that a look sets does not lie before now. -/
theorem State.since_looked (ns : Nat) : s.since (if reached s.now ns then s.now else ns) = 0 := by
  cases hr : reached s.now ns with
  | true =>
    have zero : (s.now + 2 ^ 64 - s.now % 2 ^ 64) % 2 ^ 64 = 0 := by omega
    rw [if_pos rfl, State.since, zero]
    rfl
  | false =>
    rw [if_neg (by decide), State.since]
    unfold reached at hr
    exact Int.toNat_of_nonpos (le_of_lt (by simpa using hr))

/-- A look at a shaper keeps the sign of its credit. -/
theorem State.lookShaper_sign (p c : Nat) (w : Bool) : 0 ≤ (s.lookShaper p c w).credit p c ↔ 0 ≤ s.credit p c := by
  unfold State.lookShaper
  split
  · have cap : 0 ≤ (if w then max 0 (sint 32 (s.ethField p 5 c 0xC 4)) * 1000000 else 0) := by
      split
      · exact mul_nonneg (le_max_left _ _) (by decide)
      · exact le_refl _
    generalize s.credit p c = k
    have looked := State.setShaper_credit (p := p) (c := c) (x := { credit := k, waits := w, ns := if reached s.now (s.shaper p c).ns
      then s.now else (s.shaper p c).ns }) (s.since_looked _)
    rw [looked, le_min_iff, and_iff_right cap]
  · exact Iff.rfl

theorem State.lookShaper_other (p c k : Nat) (w : Bool) (hk : k ≠ c) : (s.lookShaper p c w).shaper p k = s.shaper p k := by
  unfold State.lookShaper
  split
  · rw [State.setShaper_shaper, if_neg hk]
  · rfl

theorem State.mayStart_of_sign {p c n : Nat} (same : SameSwitch s t) (sign : 0 ≤ t.credit p c ↔ 0 ≤ s.credit p c) :
    t.mayStart p c n = s.mayStart p c n := by
  rw [State.mayStart, State.mayStart, same.gateOpen, same.shaped, decide_eq_decide.2 sign]

theorem State.lookAll_mayStart (p c n : Nat) : (s.lookAll p).mayStart p c n = s.mayStart p c n := by
  have all := State.each_keeps (P := fun t => SameSwitch s t ∧ (0 ≤ t.credit p c ↔ 0 ≤ s.credit p c)) (s := s)
    (xs := List.range 8) (g := fun s c => s.lookShaper p c ((s.egress p).any fun x => x.1 == c)) ⟨⟨rfl, rfl, rfl, rfl⟩, Iff.rfl⟩
    fun t k _ ⟨same, sign⟩ => by
      have looked := t.leaves_lookShaper p k ((t.egress p).any fun x => x.1 == k)
      have here : SameSwitch t _ := switch_of_parts looked (by decide)
      refine ⟨same.trans here, ?_⟩
      by_cases hk : c = k
      · subst hk
        exact (State.lookShaper_sign p c _).trans sign
      · rw [here.credit p c (State.lookShaper_other p k c _ hk)]
        exact sign
  exact State.mayStart_of_sign all.1 all.2

/-! ## The frame that starts next -/

theorem State.nextClass_congr {p : Nat} (egress : t.egress p = s.egress p) (starts : ∀ c n, t.mayStart p c n = s.mayStart p c n) :
    t.nextClass p = s.nextClass p := by
  simp only [State.nextClass, egress, starts]

theorem State.nextClass_empty {p : Nat} (empty : s.egress p = []) : s.nextClass p = none := by
  unfold State.nextClass
  rw [empty]
  rfl

theorem State.lookAll_egress (p k : Nat) : (s.lookAll p).egress k = s.egress k :=
  State.egress_of ((State.leaves_lookAll p).1 .egress (by decide)) k

theorem State.lookAll_nextClass (p : Nat) : (s.lookAll p).nextClass p = s.nextClass p :=
  State.nextClass_congr (State.lookAll_egress p p) fun c n => State.lookAll_mayStart p c n

theorem State.nextClass_mem {p : Nat} {x : Nat × List Byte} (next : s.nextClass p = some x) : x ∈ s.egress p := by
  have := List.mem_of_find?_eq_some next
  obtain ⟨c, -, hc⟩ := List.mem_filterMap.1 this
  exact List.mem_of_find?_eq_some hc

theorem State.nextClass_single {p c : Nat} {bs : List Byte} (hc : c < 8) (egress : s.egress p = [(c, bs)]) :
    s.nextClass p = if s.mayStart p c bs.length then some (c, bs) else none := by
  have heads : ((List.range 8).reverse.filterMap fun k => ([(c, bs)] : List (Nat × List Byte)).find? fun x => x.1 == k) = [(c, bs)] := by
    interval_cases c <;> rfl
  unfold State.nextClass
  rw [egress, heads, List.find?_singleton]

/-! ## Draining a port -/

/-- The parts that the frames of a port change as they start. -/
def portParts : List Part := [.egress, .shapers, .macPns, .outbox]

theorem State.leaves_drainPort (p n : Nat) : Leaves portParts noReg s (s.drainPort p n) := by
  have looked : ∀ u : State, Leaves portParts noReg u (u.lookAll p) := fun u => (State.leaves_lookAll p).mono (by decide) fun _ _ => id
  induction n generalizing s with
  | zero => rw [State.drainPort_zero]; exact looked s
  | succ n ih =>
    cases next : s.nextClass p with
    | none => rw [State.drainPort_stops next]; exact looked s
    | some x =>
      rw [State.drainPort_starts next]
      exact .trans (.trans (.setEgress (.refl _ _ s) (by decide)) ((State.leaves_startFrame _ _ _).mono (by decide) fun _ _ => id)) ih

/-- The frames of a port start as far as they may: those that have not started wait. -/
theorem State.drainPort_drains {p n : Nat} (enough : (s.egress p).length ≤ n) : (s.drainPort p n).nextClass p = none
    ∧ (∀ x ∈ (s.drainPort p n).egress p, x ∈ s.egress p)
    ∧ ∀ x ∈ s.egress p, x ∈ (s.drainPort p n).egress p ∨ .ethFrame p x.2 ∈ (s.drainPort p n).outbox := by
  have stops : s.nextClass p = none → (s.lookAll p).nextClass p = none ∧ (∀ x ∈ (s.lookAll p).egress p, x ∈ s.egress p)
      ∧ ∀ x ∈ s.egress p, x ∈ (s.lookAll p).egress p ∨ .ethFrame p x.2 ∈ (s.lookAll p).outbox := fun next => by
    rw [State.lookAll_nextClass, State.lookAll_egress]
    exact ⟨next, fun _ => id, fun _ => .inl⟩
  induction n generalizing s with
  | zero => rw [State.drainPort_zero]; exact stops (State.nextClass_empty (List.length_eq_zero_iff.1 (Nat.le_zero.1 enough)))
  | succ n ih =>
    cases next : s.nextClass p with
    | none => rw [State.drainPort_stops next]; exact stops next
    | some x =>
      rw [State.drainPort_starts next]
      have here := State.nextClass_mem next
      have left : ((s.setEgress p ((s.egress p).erase x)).startFrame p x.1 x.2).egress p = (s.egress p).erase x := by
        rw [State.startFrame_egress, State.setEgress_egress, if_pos rfl]
      have fewer : (((s.setEgress p ((s.egress p).erase x)).startFrame p x.1 x.2).egress p).length ≤ n := by
        rw [left, List.length_erase_of_mem here]
        omega
      have sent := ((s.setEgress p ((s.egress p).erase x)).startFrame_starts p x.1 x.2).1
      revert left fewer sent
      generalize (s.setEgress p ((s.egress p).erase x)).startFrame p x.1 x.2 = u
      intro left fewer sent
      obtain ⟨none', waits, all⟩ := ih fewer fun next => by
        rw [State.lookAll_nextClass, State.lookAll_egress]
        exact ⟨next, fun _ => id, fun _ => .inl⟩
      rw [left] at waits all
      have record : u.outbox <:+ (u.drainPort p n).outbox := (Keeps.drainPort (φ := False) (.refl u)).record
      refine ⟨none', fun y hy => List.mem_of_mem_erase (waits y hy), fun y hy => ?_⟩
      by_cases same : y = x
      · subst same
        exact .inr (record.subset sent)
      · exact all y ((List.mem_erase_of_ne same).2 hy)

end

end Sys2Proof.Machine
end

section
/-! PROOFS. What the forwarding of a frame changes (R287 to R291, R299). -/

set_option Elab.async false

namespace Sys2Proof.Machine

section
variable {b s t : State}

/-! ## Delivery to a ring -/

/-- The registers that a delivery to a ring changes. -/
abbrev deliverRegs (n : Nat) (r : Reg) (i : Nat) : Prop := rtRegs r i ∨ ((r = .ethRingdb ∨ r = .ethRingcfg0) ∧ i = n)

theorem State.leaves_ethWb (r ts fr st q n v : Nat) (stream : Option Nat) :
    Leaves rtParts (ringRegs false r) s (s.ethWb r ts fr st q n v stream) := State.leaves_writeBack _

theorem ringRegs_deliver {n : Nat} (r : Reg) (i : Nat) (h : ringRegs false n r i) : deliverRegs n r i :=
  h.imp id fun ⟨e, hi⟩ => ⟨.inl e, hi⟩

theorem State.leaves_toRing (r port v : Nat) (stream : Option Nat) (bs : List Byte) :
    Leaves rtParts (deliverRegs r) s (s.toRing r port v stream bs) := by
  have read : Leaves rtParts (deliverRegs r) s (s.headDesc false r).2 := State.leaves_headDesc.mono (fun _ h => h) fun _ _ => .inl
  have back : ∀ (u w : State), Leaves rtParts (deliverRegs r) s u → Leaves rtParts (ringRegs false r) u w → Leaves rtParts (deliverRegs r) s w :=
    fun _ _ h g => .trans h (g.mono (fun _ h => h) ringRegs_deliver)
  unfold State.toRing
  dsimp only
  split
  · exact .incSat (.refl _ _ s) (.inr ⟨.inr rfl, rfl⟩)
  · split
    · rename_i e
      exact .incSat (Leaves.of_eq e read) (.inr ⟨.inr rfl, rfl⟩)
    · rename_i d s1 e
      have here := Leaves.of_eq e read
      split
      · exact back _ _ here (State.leaves_ethWb _ _ _ _ _ _ _ _)
      · have wrote : Leaves rtParts (deliverRegs r) s (rtWrite rtEther s1 (s1.f ETH_RINGCFG0.INSTANCE r) (wordAt d 0)
            (bs.take (bits (wordAt d 1) 63 50))).2 :=
          .trans here ((leaves_rtWrite _ _ _ _ _).mono (fun _ h => h) fun _ _ => .inl)
        split
        · rename_i e
          exact back _ _ (Leaves.of_eq e wrote) (State.leaves_ethWb _ _ _ _ _ _ _ _)
        · rename_i e
          exact back _ _ (Leaves.of_eq e wrote) (State.leaves_ethWb _ _ _ _ _ _ _ _)

theorem rt_in_switch : rtParts ⊆ switchParts := fun _ h => List.mem_append_right _ h

theorem deliver_in_switch {n : Nat} (r : Reg) (i : Nat) (h : deliverRegs n r i) : switchRegs r i := by
  rcases h with h | ⟨h | h, -⟩
  · exact .inl h
  · exact .inr (.inl h)
  · exact .inr (.inr (.inl h))

theorem State.leaves_toHost (h port v : Nat) (stream : Option Nat) (bs : List Byte) :
    Leaves rtParts switchRegs s (s.toHost h port v stream bs) := by
  unfold State.toHost
  split
  · exact (State.leaves_toRing _ _ _ _ _).mono (fun _ h => h) deliver_in_switch
  · dsimp only
    split
    · exact (State.leaves_toRing _ _ _ _ _).mono (fun _ h => h) deliver_in_switch
    · exact .incSat (.refl _ _ s) (.inr (.inr (.inr (.inl rfl))))

/-! ## The other ports -/

theorem State.leaves_weskaFrame (dev : Option Nat) (bs : List Byte) : Leaves accessParts accessRegs s (s.weskaFrame dev bs) := by
  unfold State.weskaFrame
  split
  · exact accessed_wskOriginate _ _ _ _
  · exact .over (.refl _ _ s) fun _ _ h => h.modWsk (by simp [accessParts])

theorem State.leaves_offer (p c : Nat) (bs : List Byte) : Leaves portParts noReg s (s.offer p c bs) := by
  unfold State.offer
  dsimp only
  exact .ite (.trans (.setEgress (.refl _ _ s) (by decide)) (State.leaves_drainPort _ _)) (.refl _ _ s)

theorem port_in_switch : portParts ⊆ switchParts := by decide

theorem State.leaves_sendPort (q src v pcp : Nat) (stream dev : Option Nat) (bs : List Byte) :
    Leaves switchParts switchRegs s (s.sendPort q src v pcp stream dev bs) := by
  unfold State.sendPort
  split
  · exact (State.leaves_weskaFrame dev bs).mono (fun _ h => rt_in_switch (.tail _ h)) fun _ _ h => .inl (.inl h)
  · split
    · exact (State.leaves_toHost _ _ _ _ _).mono rt_in_switch fun _ _ => id
    · split
      · exact .refl _ _ s
      · exact (State.leaves_offer _ _ _).mono port_in_switch nofun

/-! ## Sequence functions -/

theorem State.leaves_recoverSeq (i : EthItem) (n : Nat) : Leaves [.cbs] noReg s (s.recoverSeq i n).2 := .setCb (.refl _ _ s)

theorem State.leaves_cbNumber (stream : Option Nat) : Leaves [.cbs] noReg s (s.cbNumber stream).2 := by
  unfold State.cbNumber
  split
  · exact .refl _ _ s
  · exact .setCb (.refl _ _ s)

theorem State.leaves_cbAt (p : Nat) (stream : Option Nat) (num : Option (Nat × Nat)) (bs : List Byte) :
    Leaves [.cbs] noReg s (s.cbAt p stream num bs).2 := by
  unfold State.cbAt
  dsimp only
  split
  · split
    · rename_i e
      exact Leaves.of_eq e (State.leaves_recoverSeq _ _)
    · rename_i e
      exact Leaves.of_eq e (State.leaves_recoverSeq _ _)
  · exact .refl _ _ s

/-! ## Frames at the switch -/

/-- What the filter of a frame at port `src` decides. -/
def State.judged (s : State) (src : Nat) (bs : List Byte) : Bool × State :=
  match s.streamOf bs (s.classOf src bs).1 with
  | some n => s.filterPass n bs.length
  | none => (true, s)

theorem State.leaves_judged (src : Nat) (bs : List Byte) : Leaves [.meters] noReg s (s.judged src bs).2 := by
  unfold State.judged
  split
  · exact State.leaves_filterPass _ _
  · exact .refl _ _ s

/-- A frame reaches one port. -/
def State.portStep (src v pcp : Nat) (stream : Option Nat) (num : Option (Nat × Nat)) (dev : Option Nat) (bs : List Byte) (s : State)
    (q : Nat) : State :=
  match s.cbAt q stream num bs with
  | (some out, s') => s'.sendPort q src v pcp stream dev out
  | (none, s') => s'

theorem State.leaves_portStep (src v pcp q : Nat) (stream : Option Nat) (num : Option (Nat × Nat)) (dev : Option Nat) (bs : List Byte) :
    Leaves switchParts switchRegs s (s.portStep src v pcp stream num dev bs q) := by
  have at_ : Leaves switchParts switchRegs s (s.cbAt q stream num bs).2 := (State.leaves_cbAt q stream num bs).mono (by decide) nofun
  unfold State.portStep
  split
  · rename_i e
    exact .trans (Leaves.of_eq e at_) (State.leaves_sendPort _ _ _ _ _ _ _)
  · rename_i e
    exact Leaves.of_eq e at_

/-- A frame that its filter passes takes its number and reaches the ports of its address. -/
theorem State.switchFrame_form (src : Nat) (bs : List Byte) : s.switchFrame src bs = if !(s.judged src bs).1 then (false, (s.judged src bs).2) else
    (true, (((s.judged src bs).2.cbNumber (s.streamOf bs (s.classOf src bs).1)).2).each
      ((((s.judged src bs).2.cbNumber (s.streamOf bs (s.classOf src bs).1)).2.fdbPorts src bs (s.classOf src bs).1).1)
      (State.portStep src (s.classOf src bs).1 (s.classOf src bs).2
    (s.streamOf bs (s.classOf src bs).1) ((s.judged src bs).2.cbNumber (s.streamOf bs (s.classOf src bs).1)).1
      ((((s.judged src bs).2.cbNumber (s.streamOf bs (s.classOf src bs).1)).2.fdbPorts src bs (s.classOf src bs).1).2) bs)) := (rfl)

theorem State.switchFrame_dropped {src : Nat} {bs : List Byte} (dropped : (s.judged src bs).1 = false) :
    s.switchFrame src bs = (false, (s.judged src bs).2) := by
  rw [State.switchFrame_form, if_pos (by rw [dropped]; rfl)]

theorem State.switchFrame_passed {src : Nat} {bs : List Byte} (passed : (s.judged src bs).1 = true) :
    let u := ((s.judged src bs).2.cbNumber (s.streamOf bs (s.classOf src bs).1)).2
    let to_ := u.fdbPorts src bs (s.classOf src bs).1
    s.switchFrame src bs = (true, u.each to_.1 (State.portStep src (s.classOf src bs).1 (s.classOf src bs).2
      (s.streamOf bs (s.classOf src bs).1) ((s.judged src bs).2.cbNumber (s.streamOf bs (s.classOf src bs).1)).1 to_.2 bs)) := by
  dsimp only
  rw [State.switchFrame_form, if_neg (by rw [passed]; decide)]

theorem State.leaves_switchFrame (src : Nat) (bs : List Byte) : Leaves switchParts switchRegs s (s.switchFrame src bs).2 := by
  have judged : Leaves switchParts switchRegs s (s.judged src bs).2 := (State.leaves_judged src bs).mono (by decide) nofun
  cases h : (s.judged src bs).1 with
  | false => rw [State.switchFrame_dropped h]; exact judged
  | true =>
    rw [State.switchFrame_passed h]
    exact .over (.trans judged ((State.leaves_cbNumber _).mono (by decide) nofun)) fun q t g => .trans g (State.leaves_portStep _ _ _ _ _ _ _ _)

end

end Sys2Proof.Machine
end

section
/-! PROOFS. One port beside the others as a frame is forwarded (R287 to R289, R299). -/

set_option Elab.async false

namespace Sys2Proof.Machine

section
variable {s t u : State}

/-! ## Packet numbers -/

/-- The packet numbers with keys of a kind are the same. -/
def Pns (P : Nat → Prop) (s t : State) : Prop := ∀ k, P k → NMap.find t.net.macPns k = NMap.find s.net.macPns k

theorem Pns.refl (P : Nat → Prop) (s : State) : Pns P s s := fun _ _ => rfl

theorem Pns.trans {P : Nat → Prop} (h : Pns P s t) (g : Pns P t u) : Pns P s u := fun k hk => (g k hk).trans (h k hk)

theorem Pns.of_leaves {P : Nat → Prop} {ps : List Part} {q : Reg → Nat → Prop} (h : Leaves ps q s t) (hp : .macPns ∉ ps) : Pns P s t :=
  fun k _ => by rw [h.1 .macPns hp]

theorem Pns.mono {P Q : Nat → Prop} (h : Pns P s t) (hq : ∀ k, Q k → P k) : Pns Q s t := fun k hk => h k (hq k hk)

theorem Pns.macPn {P : Nat → Prop} (h : Pns P s t) (same : SameSwitch s t) {p c : Nat} (hp : P (16 * p + c)) : t.macPn p c = s.macPn p c := by
  rw [State.macPn, State.macPn, same.ethField, h _ hp]

theorem State.startFrame_pns (p c : Nat) (bs : List Byte) : Pns (· ≠ 16 * p) s (s.startFrame p c bs) := by
  rw [State.startFrame_eq]
  refine .trans (.of_leaves (State.leaves_paid p c bs.length) (by decide)) fun k hk => ?_
  rw [State.emit_net, State.usePn]
  split
  · exact (NMap.find_insert _ _ _ _).trans (if_neg hk)
  · rfl

theorem State.drainPort_pns (p n : Nat) : Pns (· ≠ 16 * p) s (s.drainPort p n) := by
  have looked : ∀ u : State, Pns (· ≠ 16 * p) u (u.lookAll p) := fun u => .of_leaves (State.leaves_lookAll p) (by decide)
  induction n generalizing s with
  | zero => rw [State.drainPort_zero]; exact looked s
  | succ n ih =>
    cases next : s.nextClass p with
    | none => rw [State.drainPort_stops next]; exact looked s
    | some x =>
      rw [State.drainPort_starts next]
      have set : Leaves [.egress] noReg s (s.setEgress p ((s.egress p).erase x)) := .setEgress (.refl _ _ s)
      exact ((Pns.of_leaves set (by decide)).trans (State.startFrame_pns _ _ _)).trans ih

theorem State.offer_pns (p c : Nat) (bs : List Byte) : Pns (· ≠ 16 * p) s (s.offer p c bs) := by
  unfold State.offer
  dsimp only
  split
  · have set : Leaves [.egress] noReg s (s.setEgress p (s.egress p ++ [(c, bs)])) := .setEgress (.refl _ _ s)
    exact (Pns.of_leaves set (by decide)).trans (State.drainPort_pns _ _)
  · exact .refl _ s

/-! ## A port while a frame goes to the others -/

/-- What waits at port `q`, its shapers and its packet numbers are the same. -/
structure PortKept (q : Nat) (s t : State) : Prop where
  egress : t.egress q = s.egress q
  shaper : ∀ c, c < 8 → t.shaper q c = s.shaper q c
  pns : Pns (fun k => 16 * q ≤ k ∧ k < 16 * q + 16) s t

theorem PortKept.refl (q : Nat) (s : State) : PortKept q s s := ⟨rfl, fun _ _ => rfl, .refl _ s⟩

theorem PortKept.trans {q : Nat} (h : PortKept q s t) (g : PortKept q t u) : PortKept q s u :=
  ⟨g.egress.trans h.egress, fun c hc => (g.shaper c hc).trans (h.shaper c hc), h.pns.trans g.pns⟩

theorem PortKept.of_leaves {q : Nat} {ps : List Part} {k : Reg → Nat → Prop} (h : Leaves ps k s t) (egress : .egress ∉ ps)
    (shapers : .shapers ∉ ps) (pns : .macPns ∉ ps) : PortKept q s t :=
  ⟨State.egress_of (h.1 .egress egress) q, fun c _ => State.shaper_of (h.1 .shapers shapers) q c, .of_leaves h pns⟩

theorem apart_keys {p q : Nat} (ne : q ≠ p) (k : Nat) (hk : 16 * q ≤ k ∧ k < 16 * q + 16) : k ≠ 16 * p := by omega

theorem State.setShaper_beside {p q c : Nat} {x : ShaperSt} (ne : q ≠ p) (hc : c < 8) : PortKept q s (s.setShaper p c x) := by
  have set : Leaves [.shapers] noReg s (s.setShaper p c x) := .setShaper (.refl _ _ s)
  refine ⟨State.egress_of (set.1 .egress (by decide)) q, fun k hk => ?_, .of_leaves set (by decide)⟩
  unfold State.shaper State.setShaper
  rw [NMap.get_set]
  exact if_neg (by omega)

theorem State.lookAll_beside {p q : Nat} (ne : q ≠ p) : PortKept q s (s.lookAll p) :=
  State.each_keeps (P := PortKept q s) (.refl q s) fun t c hc h => h.trans (by
    unfold State.lookShaper
    split
    · exact State.setShaper_beside ne (List.mem_range.1 hc)
    · exact .refl q t)

theorem State.startFrame_beside {p q c : Nat} (ne : q ≠ p) (hc : c < 8) (bs : List Byte) : PortKept q s (s.startFrame p c bs) := by
  refine ⟨State.startFrame_egress p c q bs, fun k hk => ?_, (State.startFrame_pns p c bs).mono (apart_keys ne)⟩
  rw [State.startFrame_eq]
  have used : Leaves [.macPns, .outbox] noReg (s.paid p c bs.length) (((s.paid p c bs.length).usePn p).emit (.ethFrame p bs)) :=
    .emit ((State.leaves_usePn p).mono (by decide) fun _ _ => id)
  rw [State.shaper_of (used.1 .shapers (by decide)), State.paid]
  split
  · exact (State.setShaper_beside ne hc).shaper k hk
  · rfl

theorem State.nextClass_lt {p : Nat} {x : Nat × List Byte} (next : s.nextClass p = some x) : x.1 < 8 := by
  obtain ⟨c, hc, found⟩ := List.mem_filterMap.1 (List.mem_of_find?_eq_some next)
  have same : x.1 = c := by simpa using List.find?_some found
  rw [same]
  exact List.mem_range.1 (List.mem_reverse.1 hc)

theorem State.setEgress_beside {p q : Nat} {x : List (Nat × List Byte)} (ne : q ≠ p) : PortKept q s (s.setEgress p x) := by
  have set : Leaves [.egress] noReg s (s.setEgress p x) := .setEgress (.refl _ _ s)
  exact ⟨by rw [State.setEgress_egress, if_neg ne], fun c _ => State.shaper_of (set.1 .shapers (by decide)) q c, .of_leaves set (by decide)⟩

theorem State.drainPort_beside {p q : Nat} (ne : q ≠ p) (n : Nat) : PortKept q s (s.drainPort p n) := by
  induction n generalizing s with
  | zero => rw [State.drainPort_zero]; exact State.lookAll_beside ne
  | succ n ih =>
    cases next : s.nextClass p with
    | none => rw [State.drainPort_stops next]; exact State.lookAll_beside ne
    | some x =>
      rw [State.drainPort_starts next]
      exact ((State.setEgress_beside ne).trans (State.startFrame_beside ne (State.nextClass_lt next) _)).trans ih

theorem State.offer_beside {p q : Nat} (ne : q ≠ p) (c : Nat) (bs : List Byte) : PortKept q s (s.offer p c bs) := by
  unfold State.offer
  dsimp only
  split
  · exact (State.setEgress_beside ne).trans (State.drainPort_beside ne _)
  · exact .refl q s

/-! ## A frame reaches another port -/

theorem State.sendPort_external {q src v pcp : Nat} {stream dev : Option Nat} {bs : List Byte} (hq : q < 12) :
    s.sendPort q src v pcp stream dev bs = s.offer q (s.classFor stream pcp) (s.egressForm q v pcp bs) := by
  unfold State.sendPort
  rw [if_neg (by omega), if_neg (by simp; omega), if_neg (by omega)]

theorem State.sendPort_host {q src v pcp : Nat} {stream dev : Option Nat} {bs : List Byte} (hq : q = 12 ∨ q = 13) :
    s.sendPort q src v pcp stream dev bs = s.toHost (q - 12) src v stream bs := by
  unfold State.sendPort
  rw [if_neg (by omega), if_pos (by simpa using hq)]

/-- A port that is no external one changes none of what belongs to one. -/
theorem State.sendPort_internal {q src v pcp : Nat} {stream dev : Option Nat} {bs : List Byte} (hq : 12 ≤ q) (le : q < 16) :
    Leaves rtParts switchRegs s (s.sendPort q src v pcp stream dev bs) := by
  unfold State.sendPort
  split
  · exact (State.leaves_weskaFrame dev bs).mono (fun _ h => .tail _ h) fun _ _ h => .inl (.inl h)
  · split
    · exact State.leaves_toHost _ _ _ _ _
    · rename_i no
      rw [if_pos (by simp at no; omega)]
      exact .refl _ _ s

theorem State.sendPort_beside {q k src v pcp : Nat} {stream dev : Option Nat} {bs : List Byte} (hq : q < 16) (ne : k ≠ q) :
    PortKept k s (s.sendPort q src v pcp stream dev bs) := by
  by_cases ext : q < 12
  · rw [State.sendPort_external ext]
    exact State.offer_beside ne _ _
  · exact .of_leaves (State.sendPort_internal (by omega) hq) (by decide) (by decide) (by decide)

theorem State.sendPort_pns {q src v pcp : Nat} {stream dev : Option Nat} {bs : List Byte} (hq : q < 16) :
    Pns (fun k => k % 16 ≠ 0) s (s.sendPort q src v pcp stream dev bs) := by
  by_cases ext : q < 12
  · rw [State.sendPort_external ext]
    exact (State.offer_pns _ _ _).mono fun k hk => by omega
  · exact .of_leaves (State.sendPort_internal (by omega) hq) (by decide)

theorem State.portStep_pns {src v pcp q : Nat} {stream : Option Nat} {num : Option (Nat × Nat)} {dev : Option Nat} {bs : List Byte} (hq : q < 16) :
    Pns (fun k => k % 16 ≠ 0) s (s.portStep src v pcp stream num dev bs q) := by
  have at_ : Pns (fun k => k % 16 ≠ 0) s (s.cbAt q stream num bs).2 := .of_leaves (State.leaves_cbAt q stream num bs) (by decide)
  revert at_
  unfold State.portStep
  split <;> rename_i e <;> rw [e] <;> intro at_
  · exact at_.trans (State.sendPort_pns hq)
  · exact at_

/-! ## The ports of a frame -/

theorem State.fdbPorts_lt {src v q : Nat} {bs : List Byte} (here : q ∈ (s.fdbPorts src bs v).1) : q < 16 := by
  unfold State.fdbPorts at here
  split at here
  · exact List.mem_range.1 (List.mem_filter.1 here).1
  · have := (List.mem_filter.1 here).1
    simp only [List.mem_append, List.mem_range] at this
    split at this <;> simp at this <;> omega

theorem State.fdbPorts_nodup (src v : Nat) (bs : List Byte) : (s.fdbPorts src bs v).1.Nodup := by
  unfold State.fdbPorts
  split
  · exact List.nodup_range.filter _
  · refine List.Nodup.filter _ ?_
    split <;> decide

theorem State.switchFrame_pns (src : Nat) (bs : List Byte) : Pns (fun k => k % 16 ≠ 0) s (s.switchFrame src bs).2 := by
  have judged : Pns (fun k => k % 16 ≠ 0) s (s.judged src bs).2 := .of_leaves (State.leaves_judged src bs) (by decide)
  cases h : (s.judged src bs).1 with
  | false => rw [State.switchFrame_dropped h]; exact judged
  | true =>
    rw [State.switchFrame_passed h]
    have numbered := judged.trans (.of_leaves (State.leaves_cbNumber (s.streamOf bs (s.classOf src bs).1)) (by decide))
    exact State.each_keeps numbered fun t q hq g => g.trans (State.portStep_pns (State.fdbPorts_lt hq))

end

end Sys2Proof.Machine
end

section
/-! PROOFS. A received frame on its way (R288, R289, R299). -/

set_option Elab.async false

namespace Sys2Proof.Machine

section
variable {s t u : State} {f : EthFrame}

/-! ## Admission -/

theorem State.receive_refused (hp : f.port < 12) (no : ¬ s.admits f) : s.receive f = s := by
  unfold State.receive
  refine if_pos ?_
  unfold State.admits at no
  simp only [hp, decide_true, Bool.true_and, Bool.not_eq_true', Bool.and_eq_false_iff]
  by_contra all
  simp only [not_or, Bool.not_eq_false] at all
  exact no ⟨hp, all.1.1, all.1.2, all.2⟩

theorem State.receive_admitted (yes : s.admits f) : s.receive f = ((s.notePn f.port f.pn).switchFrame f.port f.bytes).2 := by
  obtain ⟨hp, up, rx, member⟩ := yes
  unfold State.receive
  rw [if_neg (by simp [up, rx, member]), if_pos hp]

theorem frameReceive_runs (hp : f.port < 12) : exec (.frameReceive f) s = .next (s.receive f) := by
  rw [exec_frameReceive, execFrameReceive, decide_eq_true hp, unit_true]

theorem frameReceive_admitted (yes : s.admits f) :
    exec (.frameReceive f) s = .next ((s.notePn f.port f.pn).switchFrame f.port f.bytes).2 := by
  rw [frameReceive_runs yes.1, State.receive_admitted yes]

theorem State.leaves_notePn (p : Nat) (pn : Option (Nat × Nat)) : Leaves [.macPns] noReg s (s.notePn p pn) := by
  unfold State.notePn
  split
  · exact .refl _ _ s
  · exact .one .macPns (.refl _ _ s) (by simp)

theorem State.notePn_switch (p : Nat) (pn : Option (Nat × Nat)) : SameSwitch s (s.notePn p pn) :=
  switch_of_parts (State.leaves_notePn p pn) (by decide)

theorem State.notePn_notes {p ch n : Nat} : (s.notePn p (some (ch, n))).macPn p ch = max (s.macPn p ch) (n + 1) := by
  unfold State.macPn State.notePn
  dsimp only
  rw [NMap.find_insert, if_pos rfl]
  rfl

/-- An admitted frame's channel is one of those that receive. -/
theorem State.admits_channel {ch n : Nat} (yes : s.admits f) (pn : f.pn = some (ch, n)) : 1 ≤ ch ∧ ch ≤ 8 := by
  obtain ⟨-, -, rx, -⟩ := yes
  rw [pn, State.macsecRx] at rx
  simp only [Bool.and_eq_true, decide_eq_true_eq] at rx
  exact rx.1.1

/-- An admitted frame leaves the packet numbers of channel 0 alone. -/
theorem State.notePn_sends (yes : s.admits f) (q : Nat) : (s.notePn f.port f.pn).macPn q 0 = s.macPn q 0 := by
  have kept : Pns (fun k => k % 16 = 0) s (s.notePn f.port f.pn) := by
    cases pn : f.pn with
    | none => exact .refl _ s
    | some p =>
      obtain ⟨ch, n⟩ := p
      have chan := State.admits_channel yes pn
      exact fun k hk => (NMap.find_insert _ _ _ _).trans (if_neg (by omega))
  exact kept.macPn (State.notePn_switch _ _) (by omega)

theorem State.receive_macPn {ch n : Nat} (yes : s.admits f) (pn : f.pn = some (ch, n)) :
    ((s.notePn f.port f.pn).switchFrame f.port f.bytes).2.macPn f.port ch = max (s.macPn f.port ch) (n + 1) := by
  have chan := State.admits_channel yes pn
  have switched : SameSwitch (s.notePn f.port f.pn) _ := switch_of_parts (State.leaves_switchFrame f.port f.bytes) (List.Subset.refl _)
  rw [(State.switchFrame_pns f.port f.bytes).macPn switched (by omega : (16 * f.port + ch) % 16 ≠ 0), pn, State.notePn_notes]

theorem State.leaves_receive : Leaves switchParts switchRegs s ((s.notePn f.port f.pn).switchFrame f.port f.bytes).2 :=
  .trans ((State.leaves_notePn _ _).mono (by decide) nofun) (State.leaves_switchFrame _ _)

/-- What the filter decides of a received frame, in the terms of the state before it. -/
theorem State.judged_note (p : Nat) (pn : Option (Nat × Nat)) (bs : List Byte) : (s.notePn p pn).judged p bs
    = match s.streamOf bs (s.classOf p bs).1 with
      | some n => (s.notePn p pn).filterPass n bs.length
      | none => (true, s.notePn p pn) := by
  have same := s.notePn_switch p pn
  unfold State.judged
  rw [same.streamOf, same.classOf] <;> rfl

/-! ## Frames without sequence functions -/

theorem State.cbNumber_free {stream : Option Nat} (free : ∀ n, stream = some n → s.cbOf false n = []) : s.cbNumber stream = (none, s) := by
  unfold State.cbNumber
  cases stream with
  | none => rfl
  | some n => rw [Option.bind_some, free n rfl]; rfl

theorem State.portStep_free {src v pcp q : Nat} {stream dev : Option Nat} {bs : List Byte} (free : ∀ n, stream = some n → s.cbOf true n = []) :
    s.portStep src v pcp stream none dev bs q = s.sendPort q src v pcp stream dev bs := by
  have at_ : s.cbAt q stream none bs = (some bs, s) := by
    unfold State.cbAt
    cases stream with
    | none => rfl
    | some n => rw [Option.bind_some, free n rfl]; rfl
  rw [State.portStep, at_]

/-- A frame that passes and has no sequence function goes to its ports as it is. -/
theorem State.switchFrame_free {src : Nat} {bs : List Byte} (passed : (s.judged src bs).1 = true)
    (free : ∀ n b, s.streamOf bs (s.classOf src bs).1 = some n → s.cbOf b n = []) :
    (s.switchFrame src bs).2 = (s.judged src bs).2.each (s.fdbPorts src bs (s.classOf src bs).1).1
      (State.portStep src (s.classOf src bs).1 (s.classOf src bs).2 (s.streamOf bs (s.classOf src bs).1) none
        (s.fdbPorts src bs (s.classOf src bs).1).2 bs) := by
  have same : SameSwitch s (s.judged src bs).2 := switch_of_parts (State.leaves_judged src bs) (by decide)
  rw [State.switchFrame_passed passed, State.cbNumber_free fun n hn => by rw [same.cbOf, free n false hn]]
  dsimp only
  rw [same.fdbPorts]

theorem State.judged_open {src : Nat} {bs : List Byte} (open_ : s.streamOf bs (s.classOf src bs).1 = none) : s.judged src bs = (true, s) := by
  rw [State.judged, open_]

/-- A frame at port `src` with one way out has one port. -/
theorem State.fdbPorts_oneWay {src q : Nat} {bs : List Byte} (way : s.oneWay src q bs) (hq : q < 16) :
    ∃ dev, s.fdbPorts src bs (s.classOf src bs).1 = ([q], dev) := by
  obtain ⟨ne, member, ps, d, entry, only⟩ := way
  refine ⟨some d, ?_⟩
  unfold State.fdbPorts
  rw [entry]
  have one : (List.range 16).filter (fun p => bit ps p && p != src && s.member p (s.classOf src bs).1) = [q] := by
    have same : (List.range 16).filter (fun p => bit ps p && p != src && s.member p (s.classOf src bs).1) = (List.range 16).filter (· == q) := by
      refine List.filter_congr fun p hp => ?_
      by_cases hpq : p = q
      · subst hpq
        simp [(only p (List.mem_range.1 hp)).2 rfl, ne, member]
      · have off : bit ps p = false := Bool.eq_false_iff.2 fun on => hpq ((only p (List.mem_range.1 hp)).1 on)
        simp [off, hpq]
    rw [same]
    interval_cases q <;> rfl
  dsimp only
  rw [one]

theorem State.switchFrame_oneWay {src q : Nat} {bs : List Byte} (passed : (s.judged src bs).1 = true)
    (free : ∀ n b, s.streamOf bs (s.classOf src bs).1 = some n → s.cbOf b n = []) (way : s.oneWay src q bs) (hq : q < 16) :
    ∃ dev, (s.switchFrame src bs).2 = (s.judged src bs).2.sendPort q src (s.classOf src bs).1 (s.classOf src bs).2
      (s.streamOf bs (s.classOf src bs).1) dev bs := by
  obtain ⟨dev, ports⟩ := State.fdbPorts_oneWay way hq
  refine ⟨dev, ?_⟩
  have same : SameSwitch s (s.judged src bs).2 := switch_of_parts (State.leaves_judged src bs) (by decide)
  rw [State.switchFrame_free passed free, ports, State.each, List.foldl_cons, List.foldl_nil,
    State.portStep_free fun n hn => by rw [same.cbOf, free n true hn]]

/-! ## An external port -/

theorem State.portTakes_same {q c n : Nat} (same : SameSwitch s t) (pn : t.macPn q 0 = s.macPn q 0) (egress : t.egress q = s.egress q)
    (takes : s.portTakes q c n) : t.portTakes q c n := by
  obtain ⟨ext, hc, up, tx, fits, empty⟩ := takes
  exact ⟨ext, hc, (same.ethUp q).trans up, (same.macsecTx q pn).trans tx, by rwa [same.ethField], egress.trans empty⟩

theorem State.offer_alone {q c : Nat} {bs : List Byte} (takes : s.portTakes q c bs.length) :
    s.offer q c bs = (s.setEgress q [(c, bs)]).drainPort q 1 := by
  obtain ⟨ext, hc, up, tx, fits, empty⟩ := takes
  unfold State.offer
  dsimp only
  rw [if_pos (by simp [up, tx, fits]), empty, State.setEgress_egress, if_pos rfl]
  rfl

theorem State.setEgress_next {q c : Nat} {bs : List Byte} (hc : c < 8) :
    (s.setEgress q [(c, bs)]).nextClass q = if s.mayStart q c bs.length then some (c, bs) else none := by
  have set : Leaves [.egress] noReg s (s.setEgress q [(c, bs)]) := .setEgress (.refl _ _ s)
  rw [State.nextClass_single hc (by rw [State.setEgress_egress, if_pos rfl]),
    (switch_of_parts set (by decide)).mayStart _ _ _ (State.shaper_of (set.1 .shapers (by decide)) _ _)]

/-- A frame that may start leaves at once. -/
theorem State.offer_starts {q c : Nat} {bs : List Byte} (takes : s.portTakes q c bs.length) (starts : s.mayStart q c bs.length = true) :
    .ethFrame q bs ∈ (s.offer q c bs).outbox ∧ (s.offer q c bs).egress q = [] := by
  rw [State.offer_alone takes, State.drainPort_starts ((State.setEgress_next takes.2.1).trans (if_pos starts)), State.drainPort_zero]
  have sent := (((s.setEgress q [(c, bs)]).setEgress q (((s.setEgress q [(c, bs)]).egress q).erase (c, bs))).startFrame_starts q c bs).1
  refine ⟨?_, ?_⟩
  · rw [(State.leaves_lookAll q).1 .outbox (by decide)]
    exact sent
  · rw [State.lookAll_egress, State.startFrame_egress, State.setEgress_egress, if_pos rfl, State.setEgress_egress, if_pos rfl]
    exact List.erase_cons_head _ _

/-- A frame that may not start waits. -/
theorem State.offer_waits {q c : Nat} {bs : List Byte} (takes : s.portTakes q c bs.length) (shut : s.mayStart q c bs.length = false) :
    (s.offer q c bs).egress q = [(c, bs)] ∧ (∀ k, k ≠ q → (s.offer q c bs).egress k = s.egress k)
      ∧ Leaves [.egress, .shapers] noReg s (s.offer q c bs) := by
  rw [State.offer_alone takes, State.drainPort_stops ((State.setEgress_next takes.2.1).trans (if_neg (by rw [shut]; decide)))]
  refine ⟨by rw [State.lookAll_egress, State.setEgress_egress, if_pos rfl], fun k hk => by rw [State.lookAll_egress, State.setEgress_egress, if_neg hk], ?_⟩
  exact .trans (.setEgress (.refl _ _ s)) ((State.leaves_lookAll q).mono (by decide) fun _ _ => id)

end

end Sys2Proof.Machine
end

section
/-! PROOFS. What becomes of a received frame at its ports (R288, R289, R299). -/

set_option Elab.async false

namespace Sys2Proof.Machine

section
variable {s t u : State} {f : EthFrame}

/-- A work list visits one of its items between the others. -/
theorem State.each_between {α : Type} {xs : List α} {x : α} (g : State → α → State) (here : x ∈ xs) (nodup : xs.Nodup) :
    ∃ as bs : List α, s.each xs g = (g (s.each as g) x).each bs g ∧ (∀ y ∈ as, y ∈ xs ∧ x ≠ y) ∧ ∀ y ∈ bs, y ∈ xs ∧ x ≠ y := by
  obtain ⟨as, bs, rfl⟩ := List.append_of_mem here
  have parts := List.nodup_append.1 nodup
  refine ⟨as, bs, ?_, fun y hy => ⟨List.mem_append_left _ hy, fun e => parts.2.2 y hy x List.mem_cons_self e.symm⟩, fun y hy =>
    ⟨List.mem_append_right _ (.tail _ hy), fun e => ?_⟩⟩
  · rw [State.each, List.foldl_append, List.foldl_cons]
    rfl
  · exact (List.nodup_cons.1 parts.2.1).1 (e ▸ hy)

/-- Ports that a frame without sequence functions visits leave port `q` as it was. -/
theorem State.each_ports_kept {src v pcp q : Nat} {dev : Option Nat} {bs : List Byte} {ps : List Nat} (apart : ∀ p ∈ ps, p < 16 ∧ q ≠ p) :
    PortKept q s (s.each ps (State.portStep src v pcp none none dev bs)) ∧ SameSwitch s (s.each ps (State.portStep src v pcp none none dev bs))
      ∧ s.outbox <:+ (s.each ps (State.portStep src v pcp none none dev bs)).outbox := by
  refine State.each_keeps (P := fun t => PortKept q s t ∧ SameSwitch s t ∧ s.outbox <:+ t.outbox)
    ⟨.refl q s, ⟨rfl, rfl, rfl, rfl⟩, List.suffix_refl _⟩ fun t p hp ⟨kept, same, record⟩ => ?_
  obtain ⟨lt, ne⟩ := apart p hp
  rw [State.portStep_free (stream := none) nofun]
  exact ⟨kept.trans (State.sendPort_beside lt ne), same.trans (switch_of_parts (State.leaves_sendPort _ _ _ _ _ _ _) (List.Subset.refl _)),
    record.trans (Keeps.sendPort (φ := False) (.refl t)).record⟩

theorem State.mem_fdbPorts {src v q : Nat} {bs : List Byte} (ext : q < 12) (ne : q ≠ src) (member : s.member q v = true)
    (listed : (∃ ps d, s.fdb (bs.take 6) v = some (ps, d) ∧ bit ps q = true) ∨ s.fdb (bs.take 6) v = none) :
    q ∈ (s.fdbPorts src bs v).1 := by
  unfold State.fdbPorts
  rcases listed with ⟨ps, d, entry, on⟩ | entry <;> rw [entry]
  · exact List.mem_filter.2 ⟨List.mem_range.2 (by omega), by simp [on, ne, member]⟩
  · exact List.mem_filter.2 ⟨List.mem_append_left _ (List.mem_range.2 ext), by simp [ne, member]⟩

theorem State.classFor_none (pcp : Nat) : s.classFor none pcp = pcp := (rfl)

section
variable {q : Nat} (yes : s.admits f) (open_ : s.streamOf f.bytes (s.classOf f.port f.bytes).1 = none)
include yes open_

/-- The frame that a port offers, in the terms of the state before the command. -/
theorem State.receive_sends (ne : q ≠ f.port) (member : s.member q (s.classOf f.port f.bytes).1 = true)
    (takes : s.portTakes q (s.classOf f.port f.bytes).2
      (s.egressForm q (s.classOf f.port f.bytes).1 (s.classOf f.port f.bytes).2 f.bytes).length)
    (starts : s.mayStart q (s.classOf f.port f.bytes).2
      (s.egressForm q (s.classOf f.port f.bytes).1 (s.classOf f.port f.bytes).2 f.bytes).length = true)
    (listed : (∃ ps d, s.fdb (f.bytes.take 6) (s.classOf f.port f.bytes).1 = some (ps, d) ∧ bit ps q = true)
      ∨ s.fdb (f.bytes.take 6) (s.classOf f.port f.bytes).1 = none) :
    .ethFrame q (s.egressForm q (s.classOf f.port f.bytes).1 (s.classOf f.port f.bytes).2 f.bytes)
        ∈ ((s.notePn f.port f.pn).switchFrame f.port f.bytes).2.outbox
      ∧ ((s.notePn f.port f.pn).switchFrame f.port f.bytes).2.egress q = [] := by
  have note := s.notePn_switch f.port f.pn
  have noted := s.leaves_notePn f.port f.pn
  have sends := s.notePn_sends yes q
  revert note noted sends
  generalize s.notePn f.port f.pn = u
  intro note noted sends
  have judged : u.judged f.port f.bytes = (true, u) := State.judged_open (by rw [note.streamOf, note.classOf, open_])
  rw [State.switchFrame_free (by rw [judged]) (by rw [note.streamOf, note.classOf, open_]; nofun), judged, note.streamOf, note.classOf,
    open_, note.fdbPorts]
  obtain ⟨before, after, split, hb, ha⟩ := State.each_between (s := u) (State.portStep f.port (s.classOf f.port f.bytes).1
    (s.classOf f.port f.bytes).2 none none (s.fdbPorts f.port f.bytes (s.classOf f.port f.bytes).1).2 f.bytes)
    (State.mem_fdbPorts takes.1 ne member listed) (State.fdbPorts_nodup f.port _ f.bytes)
  dsimp only
  rw [split]
  obtain ⟨kept, same, -⟩ := State.each_ports_kept (s := u) (src := f.port) (v := (s.classOf f.port f.bytes).1) (pcp := (s.classOf f.port f.bytes).2)
    (dev := (s.fdbPorts f.port f.bytes (s.classOf f.port f.bytes).1).2) (bs := f.bytes) fun p hp =>
      ⟨State.fdbPorts_lt (hb p hp).1, (hb p hp).2⟩
  revert kept same
  generalize u.each before _ = v
  intro kept same
  have whole := note.trans same
  rw [State.portStep_free (stream := none) nofun, State.sendPort_external takes.1, State.classFor_none, whole.egressForm]
  have pn : v.macPn q 0 = s.macPn q 0 := (kept.pns.macPn same (by omega)).trans sends
  have egress : v.egress q = s.egress q := kept.egress.trans (State.egress_of (noted.1 .egress (by decide)) q)
  have shaper : v.shaper q (s.classOf f.port f.bytes).2 = s.shaper q (s.classOf f.port f.bytes).2 :=
    (kept.shaper _ takes.2.1).trans (State.shaper_of (noted.1 .shapers (by decide)) q _)
  obtain ⟨sent, empty⟩ := State.offer_starts (State.portTakes_same whole pn egress takes) ((whole.mayStart _ _ _ shaper).trans starts)
  revert sent empty
  generalize v.offer _ _ _ = w
  intro sent empty
  obtain ⟨kept, -, record⟩ := State.each_ports_kept (s := w) (src := f.port) (v := (s.classOf f.port f.bytes).1) (pcp := (s.classOf f.port f.bytes).2)
    (dev := (s.fdbPorts f.port f.bytes (s.classOf f.port f.bytes).1).2) (bs := f.bytes) fun p hp =>
      ⟨State.fdbPorts_lt (ha p hp).1, (ha p hp).2⟩
  exact ⟨record.subset sent, kept.egress.trans empty⟩

theorem State.receive_waits (way : s.oneWay f.port q f.bytes)
    (takes : s.portTakes q (s.classOf f.port f.bytes).2
      (s.egressForm q (s.classOf f.port f.bytes).1 (s.classOf f.port f.bytes).2 f.bytes).length)
    (shut : s.mayStart q (s.classOf f.port f.bytes).2
      (s.egressForm q (s.classOf f.port f.bytes).1 (s.classOf f.port f.bytes).2 f.bytes).length = false) :
    ((s.notePn f.port f.pn).switchFrame f.port f.bytes).2.egress q
        = [((s.classOf f.port f.bytes).2, s.egressForm q (s.classOf f.port f.bytes).1 (s.classOf f.port f.bytes).2 f.bytes)]
      ∧ (∀ k, k ≠ q → ((s.notePn f.port f.pn).switchFrame f.port f.bytes).2.egress k = s.egress k)
      ∧ Leaves [.macPns, .egress, .shapers] noReg s ((s.notePn f.port f.pn).switchFrame f.port f.bytes).2 := by
  have note := s.notePn_switch f.port f.pn
  have noted := s.leaves_notePn f.port f.pn
  have sends := s.notePn_sends yes q
  revert note noted sends
  generalize s.notePn f.port f.pn = u
  intro note noted sends
  have judged : u.judged f.port f.bytes = (true, u) := State.judged_open (by rw [note.streamOf, note.classOf, open_])
  have way' : u.oneWay f.port q f.bytes := by
    unfold State.oneWay
    rw [note.classOf, note.member, note.fdb]
    exact way
  obtain ⟨dev, run⟩ := State.switchFrame_oneWay (by rw [judged]) (by rw [note.streamOf, note.classOf, open_]; nofun) way' (by have := takes.1; omega)
  rw [run, judged, note.streamOf, note.classOf, open_]
  dsimp only
  rw [State.sendPort_external takes.1, State.classFor_none, note.egressForm]
  have pnSame : u.macPn q 0 = s.macPn q 0 := sends
  have egress : u.egress q = s.egress q := State.egress_of (noted.1 .egress (by decide)) q
  obtain ⟨waits, others, left⟩ := State.offer_waits (State.portTakes_same note pnSame egress takes)
    ((note.mayStart _ _ _ (State.shaper_of (noted.1 .shapers (by decide)) q _)).trans shut)
  exact ⟨waits, fun k hk => (others k hk).trans (State.egress_of (noted.1 .egress (by decide)) k),
    .trans (noted.mono (by decide) fun _ _ => id) (left.mono (by decide) fun _ _ => id)⟩

end

/-! ## Host ports -/

/-- A frame for a host port, with its filter passed and no sequence function. -/
theorem State.receive_host {q : Nat} (way : s.oneWay f.port q f.bytes) (hq : q = 12 ∨ q = 13)
    (passed : ((s.notePn f.port f.pn).judged f.port f.bytes).1 = true)
    (free : ∀ n b, s.streamOf f.bytes (s.classOf f.port f.bytes).1 = some n → s.cbOf b n = []) :
    ((s.notePn f.port f.pn).switchFrame f.port f.bytes).2 = ((s.notePn f.port f.pn).judged f.port f.bytes).2.toHost (q - 12) f.port
      (s.classOf f.port f.bytes).1 (s.streamOf f.bytes (s.classOf f.port f.bytes).1) f.bytes := by
  have note := s.notePn_switch f.port f.pn
  revert passed note
  generalize s.notePn f.port f.pn = u
  intro passed note
  have way' : u.oneWay f.port q f.bytes := by
    unfold State.oneWay
    rw [note.classOf, note.member, note.fdb]
    exact way
  obtain ⟨dev, run⟩ := State.switchFrame_oneWay passed (fun n b hn => by
    rw [note.cbOf]
    rw [note.streamOf, note.classOf] at hn
    exact free n b hn) way' (by omega)
  rw [run, State.sendPort_host hq, note.streamOf, note.classOf]

/-- No ring takes what DEFAULT does not name. -/
theorem State.toHost_drops {h port v : Nat} {bs : List Byte}
    (off : s.fb ETH_HOSTCFG.DEFAULT_EN h = false ∨ s.fb ETH_RINGCFG0.EN (s.f ETH_HOSTCFG.DEFAULT_RING h) = false) :
    s.toHost h port v none bs = s.incSat ETH_HOSTCFG.NOMATCH_DROPS h 1 := by
  unfold State.toHost
  dsimp only
  exact if_neg (by rcases off with off | off <;> simp [off])

theorem State.toRing_drops {r port v : Nat} {stream : Option Nat} {bs : List Byte} (none' : s.ringHas false r = false) :
    s.toRing r port v stream bs = s.incSat ETH_RINGCFG0.DROPS r 1 := by
  unfold State.toRing
  rw [none', if_pos (by decide)]

theorem State.toRing_delivers {r port v : Nat} {stream : Option Nat} {bs xs : List Byte} {d : List Nat} {s1 s2 : State}
    (has : s.ringHas false r = true) (head : s.headDesc false r = (some d, s1)) (lo : 64 ≤ bits (wordAt d 1) 63 50)
    (hi : bits (wordAt d 1) 63 50 ≤ 9600)
    (write : rtWrite rtEther s1 (s.f ETH_RINGCFG0.INSTANCE r) (wordAt d 0) (bs.take (bits (wordAt d 1) 63 50)) = (.ok xs, s2)) :
    s.toRing r port v stream bs = s2.writeBack false r [(0, toLE 8 s.now ++ toLE 8 (s.clock.frac * 2 ^ 48
      + (if bits (wordAt d 1) 63 50 < bs.length then rsTruncated else rsOk) * 2 ^ 40 + port * 2 ^ 36
      + min (bits (wordAt d 1) 63 50) bs.length * 2 ^ 22 + v % 4096 * 2 ^ 10 + (stream.getD 0) % 1024)
      ++ toLE 8 (if stream.isSome then 2 ^ 63 else 0))] := by
  have read := State.headDesc_leaves head
  have wrote : Leaves rtParts rtRegs s1 s2 := Leaves.of_eq write (leaves_rtWrite _ _ _ _ _)
  have inst : s1.f ETH_RINGCFG0.INSTANCE r = s.f ETH_RINGCFG0.INSTANCE r := (sameRing_rt (k := false) (r := r) read).inst
  have clock : s2.clock = s.clock := ((rt_switch read).trans (rt_switch wrote)).clock
  unfold State.toRing
  rw [has, if_neg (by decide), head]
  dsimp only
  rw [if_neg (by simp; omega), inst, write]
  dsimp only
  rw [State.ethWb, State.now, clock, List.length_take]
  rfl

theorem State.toHost_ring {h port v r : Nat} {stream : Option Nat} {bs : List Byte}
    (ring : (stream = none ∧ s.fb ETH_HOSTCFG.DEFAULT_EN h = true ∧ r = s.f ETH_HOSTCFG.DEFAULT_RING h ∧ s.fb ETH_RINGCFG0.EN r = true)
      ∨ ∃ n, stream = some n ∧ r = s.ethField 0 6 n 0x10 1) :
    s.toHost h port v stream bs = s.toRing r port v stream bs := by
  unfold State.toHost
  rcases ring with ⟨rfl, on, rfl, en⟩ | ⟨n, rfl, rfl⟩
  · dsimp only
    exact if_pos (by simp [on, en])
  · rfl

end

end Sys2Proof.Machine
end

section
/-! PROOFS. O52: sequence recovery, meters and gate lists (R281, R287, R288). -/

set_option Elab.async false

namespace Sys2Proof.Machine

/-! ## Sequence recovery -/

section
variable {s t : State}

theorem sint_zero (n : Nat) : sint n 0 = 0 := by
  have : (0 : Nat) < 2 ^ (n - 1) := Nat.two_pow_pos _
  simp [sint]

theorem bit_one_zero : bit 1 0 = true := by decide

/-- The match algorithm refuses the number that it has just taken. -/
theorem matchAccept_again {x : CbSt} {seq : Nat} (ok : (matchAccept x seq).1 = true) (ns : Nat) :
    (matchAccept { (matchAccept x seq).2 with ns := ns } seq).1 = false ∧ (matchAccept x seq).2.takeAny = false := by
  unfold matchAccept at ok ⊢
  split at ok
  · cases ok
  · rename_i h
    rw [if_neg h]
    simp

theorem vectorAccept_any {x : CbSt} {len seq : Nat} (any : x.takeAny = true) :
    vectorAccept x len seq = (true, { x with seq := seq, hist := 1, takeAny := false }) := by
  unfold vectorAccept
  exact if_pos any

/-- How far a number lies from the last one. -/
def seqGap (x : CbSt) (seq : Nat) : Int := sint 16 ((seq + 65536 - x.seq) % 65536)

theorem seqGap_self {x : CbSt} {seq : Nat} (h : x.seq = seq) : seqGap x seq = 0 := by
  rw [seqGap, h, Nat.add_sub_cancel_left]
  exact sint_zero 16

theorem vectorAccept_some {x : CbSt} {len seq : Nat} (some_ : x.takeAny = false) : vectorAccept x len seq
    = if (len : Int) ≤ seqGap x seq || seqGap x seq ≤ -(len : Int) then (false, x)
      else if 0 < seqGap x seq then (true, { x with seq := seq, hist := x.hist * 2 ^ (seqGap x seq).toNat % 2 ^ len + 1 })
      else if bit x.hist (-seqGap x seq).toNat then (false, x)
      else (true, { x with hist := x.hist + 2 ^ (-seqGap x seq).toNat }) := by
  unfold vectorAccept
  dsimp only
  rw [if_neg (by simp [some_])]
  rfl

/-- A number whose place in the history is marked is refused. -/
theorem vectorAccept_marked {x : CbSt} {len seq : Nat} (some_ : x.takeAny = false) (back : seqGap x seq ≤ 0)
    (marked : bit x.hist (-seqGap x seq).toNat = true) : (vectorAccept x len seq).1 = false := by
  rw [vectorAccept_some some_]
  split
  · rfl
  · rw [if_neg (not_lt.2 back)]

theorem bit_shifted (h d len : Nat) (hd : 0 < d) (hl : 0 < len) : bit (h * 2 ^ d % 2 ^ len + 1) 0 = true := by
  have shift : 2 ∣ h * 2 ^ d := Dvd.dvd.mul_left (dvd_pow_self 2 (by omega)) h
  have even : 2 ∣ h * 2 ^ d % 2 ^ len := (Nat.dvd_mod_iff (dvd_pow_self 2 (by omega))).2 shift
  obtain ⟨k, hk⟩ := even
  rw [hk, bit_eq_testBit, Nat.testBit_zero]
  simp

theorem bit_added {h k : Nat} (off : bit h k = false) : bit (h + 2 ^ k) k = true := by
  rw [bit_eq_testBit] at off ⊢
  rw [Nat.add_comm, Nat.testBit_two_pow_add_eq, off]
  rfl

/-- The vector algorithm refuses the number that it has just taken. -/
theorem vectorAccept_again {x : CbSt} {len seq : Nat} (ok : (vectorAccept x len seq).1 = true) (ns : Nat) :
    (vectorAccept { (vectorAccept x len seq).2 with ns := ns } len seq).1 = false ∧ (vectorAccept x len seq).2.takeAny = false := by
  cases any : x.takeAny with
  | true =>
    rw [vectorAccept_any any]
    have gap : seqGap { x with seq := seq, hist := 1, takeAny := false, ns := ns } seq = 0 := seqGap_self rfl
    exact ⟨vectorAccept_marked rfl (by rw [gap]) (by rw [gap]; exact bit_one_zero), rfl⟩
  | false =>
    rw [vectorAccept_some any] at ok ⊢
    split at ok
    · cases ok
    · rename_i near
      rw [if_neg near]
      split at ok
      · rename_i ahead
        rw [if_pos ahead]
        have gap : seqGap { x with seq := seq, hist := x.hist * 2 ^ (seqGap x seq).toNat % 2 ^ len + 1, ns := ns } seq = 0 := seqGap_self rfl
        refine ⟨vectorAccept_marked any (by rw [gap]) ?_, any⟩
        rw [gap]
        exact bit_shifted _ _ _ (by omega) (by simp at near; omega)
      · rename_i behind
        rw [if_neg behind]
        split at ok
        · cases ok
        · rename_i off
          rw [if_neg off]
          refine ⟨vectorAccept_marked any (by change seqGap x seq ≤ 0; omega) ?_, any⟩
          exact bit_added (Bool.eq_false_iff.2 off)

/-- The state of a recovery function as a number finds it. -/
def State.cbLook (s : State) (i : EthItem) : CbSt :=
  if leAt i.bs 8 2 * 1000000 ≤ s.since (s.cb i.idx).ns then { s.cb i.idx with takeAny := true } else s.cb i.idx

/-- What a recovery function makes of a number. -/
def EthItem.accepts (i : EthItem) (x : CbSt) (seq : Nat) : Bool × CbSt :=
  if leAt i.bs 1 1 = 1 then matchAccept x seq else vectorAccept x (leAt i.bs 2 1) seq

theorem EthItem.accepts_again {i : EthItem} {x : CbSt} {seq : Nat} (ok : (i.accepts x seq).1 = true) (ns : Nat) :
    (i.accepts { (i.accepts x seq).2 with ns := ns } seq).1 = false ∧ (i.accepts x seq).2.takeAny = false := by
  unfold EthItem.accepts at ok ⊢
  split at ok <;> rename_i mode
  · rw [if_pos mode, if_pos mode]
    exact matchAccept_again ok ns
  · rw [if_neg mode, if_neg mode]
    exact vectorAccept_again ok ns

theorem State.recoverSeq_eq (i : EthItem) (seq : Nat) : s.recoverSeq i seq = ((i.accepts (s.cbLook i) seq).1,
    s.setCb i.idx (if (i.accepts (s.cbLook i) seq).1 then { (i.accepts (s.cbLook i) seq).2 with ns := s.now }
      else (i.accepts (s.cbLook i) seq).2)) := (rfl)

theorem State.setCb_cb (k : Nat) (x : CbSt) : (s.setCb k x).cb k = x := by
  unfold State.cb State.setCb
  exact (NMap.get_set _ _ _ _ _).trans (if_pos rfl)

theorem State.since_now : s.since s.now = 0 := by
  have zero : (s.now + 2 ^ 64 - s.now % 2 ^ 64) % 2 ^ 64 = 0 := by omega
  rw [State.since, zero]
  rfl

theorem State.recoverSeq_again {i : EthItem} {seq : Nat} (timed : 0 < leAt i.bs 8 2) (ok : (s.recoverSeq i seq).1 = true) :
    ((s.recoverSeq i seq).2.recoverSeq i seq).1 = false := by
  rw [State.recoverSeq_eq (s := s)] at ok ⊢
  dsimp only at ok ⊢
  rw [if_pos ok]
  obtain ⟨refused, -⟩ := i.accepts_again ok s.now
  generalize hy : ({ (i.accepts (s.cbLook i) seq).2 with ns := s.now } : CbSt) = y at refused ⊢
  have moment : y.ns = s.now := by rw [← hy]
  have look : (s.setCb i.idx y).cbLook i = y := by
    unfold State.cbLook
    have same : SameSwitch s (s.setCb i.idx y) := switch_of_parts (Leaves.setCb (.refl [.cbs] noReg s)) (by decide)
    rw [State.setCb_cb, same.since, moment, State.since_now, if_neg (by omega)]
  rw [State.recoverSeq_eq, look]
  exact refused

/-! ## Meters -/

theorem State.meterNow_le (n : Nat) : (s.meterNow n).c ≤ s.ethField 0 8 n 4 4 * 8000000 ∧ (s.meterNow n).ns = s.now := by
  unfold State.meterNow
  cases NMap.find s.net.meters n with
  | none => exact ⟨le_refl _, rfl⟩
  | some m => exact ⟨Nat.min_le_left _ _, rfl⟩

theorem State.withMeter_c {n : Nat} {m : MeterSt} (now : m.ns = s.now) :
    ((s.withMeter n m).meterNow n).c = min (s.ethField 0 8 n 4 4 * 8000000) m.c := by
  have same : SameSwitch s (s.withMeter n m) := switch_of_parts (State.leaves_withMeter n m) (by decide)
  unfold State.meterNow
  have found : NMap.find (s.withMeter n m).net.meters n = some m := (NMap.find_insert _ _ _ _).trans (if_pos rfl)
  rw [found]
  dsimp only
  rw [same.since, now, State.since_now, same.ethField, Nat.mul_zero, Nat.add_zero]

theorem State.meterPass_green {n len : Nat} (covers : len * 8000000 ≤ (s.meterNow n).c) : (s.meterPass n len).1 = true
    ∧ ((s.meterPass n len).2.meterNow n).c = (s.meterNow n).c - len * 8000000 := by
  obtain ⟨most, now⟩ := s.meterNow_le n
  rw [State.meterPass_eq, if_pos covers]
  refine ⟨rfl, ?_⟩
  dsimp only
  generalize len * 8000000 = w at covers ⊢
  generalize hm : s.meterNow n = m at covers most now ⊢
  have kept := State.withMeter_c (s := s) (n := n) (m := { m with c := m.c - w }) now
  rw [kept, Nat.min_eq_right (Nat.le_trans (Nat.sub_le _ _) most)]

theorem State.meterPass_red {n len : Nat} (c : (s.meterNow n).c < len * 8000000) (e : (s.meterNow n).e < len * 8000000) :
    (s.meterPass n len).1 = false := by
  rw [State.meterPass_eq, if_neg (Nat.not_le.2 c), if_neg (Nat.not_le.2 e)]

end

end Sys2Proof.Machine
end

section
/-! PROOFS. O52: gate lists (R281), and the rings of the hosts together (R286 to R291, R299). -/

set_option Elab.async false

namespace Sys2Proof.Machine

section
variable {s t : State}

theorem Leaves.modGate {ps : List Part} {q : Reg → Nat → Prop} {b : State} {n : Nat} {g : GateEng → GateEng} (h : Leaves ps q b s)
    (hp : .gateEngs ∈ ps := by simp) : Leaves ps q b (s.modGate n g) := h.one .gateEngs hp

theorem State.modGate_gateEng (n k : Nat) (g : GateEng → GateEng) :
    (s.modGate n g).gateEng k = if k = n then g (s.gateEng n) else s.gateEng k := NMap.get_set _ _ _ _ _

theorem State.modGate_ne {n k : Nat} (g : GateEng → GateEng) (hk : k ≠ n) : (s.modGate n g).gateEng k = s.gateEng k := by
  rw [State.modGate_gateEng, if_neg hk]

/-! ## The list of a port -/

theorem State.leaves_portGate (p : Nat) : Leaves [.gateEngs] noReg s (s.portGate p) := by
  have moved : Leaves [.gateEngs] noReg s (s.modGate p GateEng.advance) := .modGate (.refl _ _ s)
  unfold State.portGate
  dsimp only
  split
  · split
    · exact .modGate (.refl _ _ s)
    · exact .ite moved (.refl _ _ s)
  · exact .ite moved (.refl _ _ s)

theorem gateListEvent_port {p : Nat} (hp : p < 12) : exec (.gateListEvent 0 p) s = .next (if ((s.portGate p).egress p).isEmpty then s.portGate p
    else (s.portGate p).drainPort p ((s.portGate p).egress p).length) := by
  rw [exec_gateListEvent, execGateListEvent, decide_eq_true hp, unit_true]

theorem State.portGate_egress (p k : Nat) : (s.portGate p).egress k = s.egress k :=
  State.egress_of ((State.leaves_portGate p).1 .egress (by decide)) k

theorem gateListEvent_drains {p : Nat} (hp : p < 12) (waits : s.egress p ≠ []) : ∃ t, exec (.gateListEvent 0 p) s = .next t
    ∧ t.nextClass p = none ∧ (∀ x ∈ t.egress p, x ∈ s.egress p) ∧ (∀ q, q ≠ p → t.egress q = s.egress q)
    ∧ (∀ x ∈ s.egress p, x ∈ t.egress p ∨ .ethFrame p x.2 ∈ t.outbox)
    ∧ Leaves [.gateEngs, .egress, .shapers, .macPns, .outbox] noReg s t := by
  refine ⟨_, (gateListEvent_port hp).trans (congrArg _ (if_neg (by rw [State.portGate_egress]; simpa using waits))), ?_⟩
  obtain ⟨next, left, all⟩ := State.drainPort_drains (s := s.portGate p) (p := p) (le_refl _)
  refine ⟨next, fun x hx => ?_, fun q hq => ?_, fun x hx => all x ?_, ?_⟩
  · rw [← State.portGate_egress (s := s) p p]
    exact left x hx
  · rw [(State.drainPort_beside hq _).egress, State.portGate_egress]
  · rwa [State.portGate_egress]
  · exact .trans ((State.leaves_portGate p).mono (by decide) fun _ _ => id) ((State.leaves_drainPort _ _).mono (by decide) fun _ _ => id)

theorem gateListEvent_still {p : Nat} (hp : p < 12) (empty : s.egress p = []) : exec (.gateListEvent 0 p) s = .next (s.portGate p) :=
  (gateListEvent_port hp).trans (congrArg _ (if_pos (by rw [State.portGate_egress, empty]; rfl)))

theorem State.portGate_loads {p b : Nat} (base : (s.gateEng p).base = some b) (due : reached s.now b = true) : s.portGate p = s.loadGates p b := by
  unfold State.portGate
  dsimp only
  rw [base]
  exact if_pos due

theorem State.portGate_runs {p : Nat} (later_ : ∀ b, (s.gateEng p).base = some b → reached s.now b = false) :
    s.portGate p = if (s.gateEng p).running && localFire s.now (s.gateEng p).target then s.modGate p GateEng.advance else s := by
  unfold State.portGate
  dsimp only
  cases base : (s.gateEng p).base with
  | none => rfl
  | some b => exact if_neg (by rw [later_ b base]; decide)

/-- The list that a port's table holds, in force from its base. -/
theorem State.loadGates_engine (p b : Nat) : ((s.loadGates p b).gateEng p).base = none ∧ ((s.loadGates p b).gateEng p).start = b
    ∧ ((s.loadGates p b).gateEng p).idx = 0 ∧ ((s.loadGates p b).gateEng p).cycle = s.ethField p 3 0 8 4
    ∧ ((s.loadGates p b).gateEng p).ops.length = s.ethField p 3 0 0x10 2
    ∧ (0 < s.ethField p 3 0 0x10 2 → ((s.loadGates p b).gateEng p).open_ = s.ethField p 4 0 0 1) := by
  unfold State.loadGates
  dsimp only
  rw [State.modGate_gateEng, if_pos rfl]
  refine ⟨rfl, rfl, rfl, rfl, ?_, fun some_ => ?_⟩
  · exact (List.length_map _).trans List.length_range
  · dsimp only
    obtain ⟨n, hn⟩ : ∃ n, s.ethField p 3 0 0x10 2 = n + 1 := ⟨_, (Nat.succ_pred_eq_of_pos some_).symm⟩
    rw [hn, List.range_succ_eq_map, List.map_cons]
    rfl

theorem GateEng.advance_next {g : GateEng} (more : g.idx + 1 < g.ops.length) (time : g.target < g.start + g.cycle) :
    g.advance.idx = g.idx + 1 ∧ g.advance.start = g.start ∧ g.advance.open_ = (g.ops.getD (g.idx + 1) (0xFF, 0)).1 := by
  unfold GateEng.advance
  rw [if_pos (by simp [more, time])]
  exact ⟨rfl, rfl, rfl⟩

theorem GateEng.advance_wraps {g : GateEng} (ends : g.ops.length ≤ g.idx + 1 ∨ g.start + g.cycle ≤ g.target) :
    g.advance.idx = 0 ∧ g.advance.start = g.start + g.cycle ∧ g.advance.open_ = (g.ops.getD 0 (0xFF, 0)).1 := by
  unfold GateEng.advance
  rw [if_neg (by simp; omega)]
  exact ⟨rfl, rfl, rfl⟩

/-! ## Stream gates -/

theorem gateListEvent_stream {n : Nat} (hn : n < 256) : exec (.gateListEvent 1 n) s
    = .next (if !(s.gateEng (16 + n)).running || localFire s.now (s.gateEng (16 + n)).target then s.streamGate n else s) := by
  rw [exec_gateListEvent, execGateListEvent]
  · rw [decide_eq_true hn, decide_eq_true rfl, Bool.and_self, unit_true]
  · nofun

theorem State.streamGate_off {n : Nat} (off : s.ethField 0 7 n 0 1 ≠ 1 ∨ s.ethField 0 7 n 4 4 = 0 ∨ reached s.now (s.ethField 0 7 n 8 8) = false) :
    s.streamGate n = s := by
  unfold State.streamGate
  dsimp only
  rw [if_pos (by rcases off with h | h | h <;> simp [h])]

theorem State.streamGate_on {n : Nat} (en : s.ethField 0 7 n 0 1 = 1) (cyc : s.ethField 0 7 n 4 4 ≠ 0)
    (due : reached s.now (s.ethField 0 7 n 8 8) = true) :
    ((s.streamGate n).gateEng (16 + n)).open_ = (((List.range 4).map fun k => s.ethField 0 7 n (0x10 + 4 * k) 4).filter fun x =>
        x != 0xFFFFFFFF && decide (x ≤ (s.now + 2 ^ 64 - s.ethField 0 7 n 8 8) % 2 ^ 64 % s.ethField 0 7 n 4 4)).length % 2
      ∧ ((s.streamGate n).gateEng (16 + n)).running = true ∧ (∀ q, q ≠ 16 + n → (s.streamGate n).gateEng q = s.gateEng q)
      ∧ Leaves [.gateEngs] noReg s (s.streamGate n) := by
  unfold State.streamGate
  dsimp only
  rw [if_neg (by simp [en, cyc, due])]
  refine ⟨?_, ?_, fun q hq => State.modGate_ne _ hq, .modGate (.refl _ _ s)⟩
  · rw [State.modGate_gateEng, if_pos rfl]
    dsimp only
    rw [List.filter_filter]
    exact congrArg (fun l : List Nat => l.length % 2) (List.filter_congr fun x _ => Bool.and_comm _ _)
  · rw [State.modGate_gateEng, if_pos rfl]

/-! ## The doorbell of a ring -/

theorem ethRingDoorbell_sets {m : Master} {r : Nat} {v : Word} (hr : r < 256) (acc : s.accepts .ethRingdb r m .whole v.toNat) :
    exec (.ethRingDoorbell m r v) s = .next (s.wrote r v.toNat .ethRingdb) := by
  rw [exec_ethRingDoorbell, execEthRingDoorbell, decide_eq_true hr, unit_true, State.regWrite_whole s .ethRingdb r _ m acc
    (by decide) (by simp [State.hitsLock, Reg.fieldsAt, Reg.fields]) rfl]
  rfl

end

end Sys2Proof.Machine
end

section
/-! PROOFS. O52: a transmit ring's descriptor, form by form (R288, R290, R291). -/

set_option Elab.async false

namespace Sys2Proof.Machine

section
variable {s s1 : State} {r : Nat} {d : List Nat}

/-- The port of a descriptor can take its frame. -/
abbrev State.txUsable (s : State) (p : Nat) : Prop := p = 15 ∨ (s.ethUp p = true ∧ s.macsecTx p = true)

/-- The frame of a descriptor is due. -/
abbrev State.txReady (s : State) (r : Nat) (d : List Nat) : Prop := txBad d = false ∧ s.eligible false d = true ∧ s.isLate false r d = false

theorem txPort_external (good : txBad d = false) (ne : txPort d ≠ 15) : txPort d < 12 := by
  unfold txBad at good
  simp only [Bool.or_eq_false_iff, Bool.and_eq_false_iff, decide_eq_false_iff_not, bne_eq_false_iff_eq] at good
  omega

section
variable (head : s.headDesc false r = (some d, s1))
include head

theorem headDesc_switch : SameSwitch s s1 := rt_switch (State.headDesc_leaves head)

theorem headDesc_eligible : s1.eligible false d = s.eligible false d := (headDesc_switch head).eligible false

theorem headDesc_late : s1.isLate false r d = s.isLate false r d := late_same (State.headDesc_leaves head)

theorem headDesc_usable (p : Nat) : (s1.ethUp p && s1.macsecTx p) = (s.ethUp p && s.macsecTx p) := by
  have same := headDesc_switch head
  rw [same.ethUp, same.macsecTx p (same.macPn ((State.headDesc_leaves head).1 .macPns (by decide)) p 0)]

theorem headDesc_mayStart (p c n : Nat) : s1.mayStart p c n = s.mayStart p c n :=
  (headDesc_switch head).mayStart p c n (State.shaper_of ((State.headDesc_leaves head).1 .shapers (by decide)) p c)

variable (hr : r < 128) (has : s.ringHas false r = true)
include hr has

theorem frameTransmit_waits (good : txBad d = false) (soon : s.eligible false d = false) : exec (.frameTransmit r) s = .next s1 := by
  rw [frameTransmit_takes hr has head, State.transmit_waits good ((headDesc_eligible head).trans soon)]

omit hr has in
theorem usable_external (use : s.txUsable (txPort d)) (ext : txPort d < 12) : (s1.ethUp (txPort d) && s1.macsecTx (txPort d)) = true := by
  rw [headDesc_usable head]
  rcases use with p15 | ⟨up, tx⟩
  · omega
  · rw [up, tx]
    rfl

theorem frameTransmit_holds (ready : s.txReady r d) (use : s.txUsable (txPort d)) (ext : txPort d < 12)
    (shut : s.mayStart (txPort d) (txPcp d) (txLen d) = false) :
    ∃ t, exec (.frameTransmit r) s = .next t ∧ Leaves [.shapers] noReg s1 t := by
  obtain ⟨good, due, early⟩ := ready
  have run := State.transmit_holds good ((headDesc_eligible head).trans due) ((headDesc_late head).trans early)
    (usable_external head use) ext ((headDesc_mayStart head _ _ _).trans shut)
  exact ⟨_, (frameTransmit_takes hr has head).trans (congrArg _ run), State.leaves_lookShaper _ _ _⟩

/-- A descriptor that completes without its frame. -/
theorem frameTransmit_ends {st q : Nat} (why : (txBad d = true ∧ st = rsBadDesc ∧ q = 0)
      ∨ (txBad d = false ∧ s.eligible false d = true ∧ s.isLate false r d = true ∧ st = rsLate ∧ q = txPort d)
      ∨ (s.txReady r d ∧ ¬ s.txUsable (txPort d) ∧ st = rsDropped ∧ q = txPort d)) :
    ∃ t, exec (.frameTransmit r) s = .next t ∧ Consumed false r (txDone st q 0 0) s1 t ∧ Leaves rtParts (ringRegs false r) s t := by
  have run : s1.transmit r d = s1.txEnd r st q := by
    rcases why with ⟨bad, rfl, rfl⟩ | ⟨good, due, late, rfl, rfl⟩ | ⟨⟨good, due, early⟩, unusable, rfl, rfl⟩
    · exact State.transmit_bad bad
    · exact State.transmit_late good ((headDesc_eligible head).trans due) ((headDesc_late head).trans late)
    · have ext := txPort_external good fun p15 => unusable (.inl p15)
      refine State.transmit_down good ((headDesc_eligible head).trans due) ((headDesc_late head).trans early) ext ?_
      rw [headDesc_usable head]
      exact Bool.eq_false_iff.2 fun up => unusable (.inr (by simpa using up))
  refine ⟨_, (frameTransmit_takes hr has head).trans (congrArg _ run), ?_, ?_⟩
  · rw [State.txEnd_done]
    exact State.writeBack_consumed _
  · rw [State.txEnd_done]
    exact .trans ((State.headDesc_leaves head).mono (fun _ h => h) fun _ _ => .inl) (State.leaves_writeBack _)

section
variable {bs : List Byte} {s2 : State} (ready : s.txReady r d) (use : s.txUsable (txPort d))
  (starts : txPort d < 12 → s.mayStart (txPort d) (txPcp d) (txLen d) = true)
  (read : rtRead rtEther s1 (s.f ETH_RINGCFG0.INSTANCE r) (wordAt d 0) (txLen d) = (.ok bs, s2))
include ready use starts read

theorem frameTransmit_reads : exec (.frameTransmit r) s = .next (if txPort d < 12 then s2.transmitTo r d bs
    else (s2.switchFrame 16 bs).2.txEnd r (if (s2.switchFrame 16 bs).1 then rsOk else rsDropped) (txPort d)) := by
  obtain ⟨good, due, early⟩ := ready
  have inst : s1.f ETH_RINGCFG0.INSTANCE r = s.f ETH_RINGCFG0.INSTANCE r := (sameRing_rt (k := false) (r := r) (State.headDesc_leaves head)).inst
  rw [frameTransmit_takes hr has head, State.transmit_reads (t := s2) (bs := bs) good ((headDesc_eligible head).trans due)
    ((headDesc_late head).trans early) (usable_external head use) (fun ext => (headDesc_mayStart head _ _ _).trans (starts ext))
    (by rw [inst, read])]

omit hr has ready use starts in
theorem frameTransmit_read : Leaves rtParts rtRegs s s2 := .trans (State.headDesc_leaves head) (Leaves.of_eq read (leaves_rtRead _ _ _ _ _))

theorem frameTransmit_sends (ext : txPort d < 12) (passed : (s2.policed bs).1 = true) : ∃ t, exec (.frameTransmit r) s = .next t
    ∧ .ethFrame (txPort d) bs ∈ t.outbox
    ∧ Consumed false r (txDone rsOk (txPort d) (if txTs d then s.now else 0) (if txTs d then s.clock.frac else 0))
        ((s2.policed bs).2.startFrame (txPort d) (txPcp d) bs) t
    ∧ (s.macOn (txPort d) 0 = true → t.macPn (txPort d) 0 = s.macPn (txPort d) 0 + 1)
    ∧ (s.shaped (txPort d) (txPcp d) = true → (t.shaper (txPort d) (txPcp d)).credit
        = max (sint 32 (s.ethField (txPort d) 5 (txPcp d) 0x10 4) * 1000000) (s.credit (txPort d) (txPcp d)
            + sint 32 (s.ethField (txPort d) 5 (txPcp d) 8 4) * (s.frameNs (txPort d) bs.length : Int)))
    ∧ Leaves switchParts (ringRegs false r) s t := by
  have toRead := frameTransmit_read head read
  have clock := (rt_switch toRead).clock
  have run := frameTransmit_reads head hr has ready use starts read
  rw [if_pos ext, State.transmitTo_sent passed, State.now, clock] at run
  have police := s2.leaves_policed bs
  have begun := (s2.policed bs).2.leaves_startFrame (txPort d) (txPcp d) bs
  obtain ⟨sent, pn, paid⟩ := (s2.policed bs).2.startFrame_starts (txPort d) (txPcp d) bs
  have same : SameSwitch s (s2.policed bs).2 := (rt_switch toRead).trans (switch_of_parts police (by decide))
  have pns : (s2.policed bs).2.net.macPns = s.net.macPns := (police.1 .macPns (by decide)).trans (toRead.1 .macPns (by decide))
  have shaper : (s2.policed bs).2.shaper (txPort d) (txPcp d) = s.shaper (txPort d) (txPcp d) :=
    State.shaper_of ((police.1 .shapers (by decide)).trans (toRead.1 .shapers (by decide))) _ _
  have upTo : Leaves switchParts (ringRegs false r) s ((s2.policed bs).2.startFrame (txPort d) (txPcp d) bs) :=
    .trans (.trans (toRead.mono rt_in_switch fun _ _ => .inl) (police.mono (by decide) nofun)) (begun.mono (by decide) nofun)
  revert run sent pn paid upTo
  generalize (s2.policed bs).2.startFrame (txPort d) (txPcp d) bs = v
  intro run sent pn paid upTo
  generalize hps : txDone rsOk (txPort d) (if txTs d then s.clock.ns else 0) (if txTs d then s.clock.frac else 0) = ps at run
  have back := v.leaves_writeBack (k := false) (r := r) ps
  have here : SameSwitch v (v.writeBack false r ps) := switch_of_parts back rt_in_switch
  refine ⟨_, run, (Keeps.writeBack (φ := False) (.refl v)).record.subset sent, ?_, fun on => ?_, fun shaped => ?_, .trans upTo (back.mono rt_in_switch fun _ _ => id)⟩
  · rw [← hps]
    exact State.writeBack_consumed _
  · rw [here.macPn (back.1 .macPns (by decide)), pn (by rwa [same.macOn]), same.macPn pns]
  · rw [State.shaper_of (back.1 .shapers (by decide)), paid (by rwa [same.shaped]), same.ethField, same.ethField,
      same.credit _ _ shaper, same.frameNs]

theorem frameTransmit_polices (ext : txPort d < 12) (dropped : (s2.policed bs).1 = false) :
    ∃ t, exec (.frameTransmit r) s = .next t ∧ Consumed false r (txDone rsDropped (txPort d) 0 0) (s2.policed bs).2 t := by
  have run := frameTransmit_reads head hr has ready use starts read
  rw [if_pos ext, State.transmitTo_dropped dropped, State.txEnd_done] at run
  exact ⟨_, run, State.writeBack_consumed _⟩

theorem frameTransmit_switches (p15 : txPort d = 15) : ∃ t, exec (.frameTransmit r) s = .next t
    ∧ Consumed false r (txDone (if (s2.switchFrame 16 bs).1 then rsOk else rsDropped) (txPort d) 0 0) (s2.switchFrame 16 bs).2 t
    ∧ Leaves switchParts switchRegs s t := by
  have toRead := frameTransmit_read head read
  have run := frameTransmit_reads head hr has ready use starts read
  rw [if_neg (by omega), State.txEnd_done] at run
  refine ⟨_, run, State.writeBack_consumed _, .trans (.trans (toRead.mono rt_in_switch fun _ _ => .inl) (State.leaves_switchFrame 16 bs)) ?_⟩
  exact (State.leaves_writeBack _).mono rt_in_switch fun r i h => deliver_in_switch r i (ringRegs_deliver r i h)

end

theorem launchLate_ends (late : s.isLate false r d = true) :
    ∃ t, exec (.launchLate none r) s = .next t ∧ Consumed false r (txDone rsLate (txPort d) 0 0) s1 t := by
  refine ⟨_, (launchLate_judges hr has head).trans (congrArg _ (if_pos late)), ?_⟩
  rw [State.txEnd_done]
  exact State.writeBack_consumed _

end

end

end Sys2Proof.Machine
end

section
/-! PROOFS. O52: rings, switch and gate lists together. -/

set_option Elab.async false

namespace Sys2Proof.Machine

section
variable {s : State} {f : EthFrame}

theorem State.ringHas_same {ps : List Part} {k : Bool} {r : Nat} {t : State} (left : Leaves ps noReg s t) :
    t.ringHas k r = s.ringHas k r := by
  simp only [State.ringHas, State.fb_eq, left.f_same _ _ id]

/-- A received frame that its filter drops. -/
theorem frameReceive_filtered (yes : s.admits f) (dropped : ((s.notePn f.port f.pn).judged f.port f.bytes).1 = false) :
    ∃ t, exec (.frameReceive f) s = .next t ∧ Leaves [.macPns, .meters] noReg s t := by
  refine ⟨_, frameReceive_admitted yes, ?_⟩
  rw [State.switchFrame_dropped dropped]
  exact .trans ((State.leaves_notePn _ _).mono (by decide) fun _ _ => id) ((State.leaves_judged _ _).mono (by decide) fun _ _ => id)

section
variable {q : Nat} (yes : s.admits f) (way : s.oneWay f.port q f.bytes) (hq : q = 12 ∨ q = 13)
  (passed : ((s.notePn f.port f.pn).judged f.port f.bytes).1 = true)
include yes way hq passed

/-- The state in which a frame that has passed its filter reaches its port. -/
theorem frameReceive_host (free : ∀ n b, s.streamOf f.bytes (s.classOf f.port f.bytes).1 = some n → s.cbOf b n = []) :
    exec (.frameReceive f) s = .next (((s.notePn f.port f.pn).judged f.port f.bytes).2.toHost (q - 12) f.port
      (s.classOf f.port f.bytes).1 (s.streamOf f.bytes (s.classOf f.port f.bytes).1) f.bytes)
    ∧ Leaves [.macPns, .meters] noReg s ((s.notePn f.port f.pn).judged f.port f.bytes).2 :=
  ⟨(frameReceive_admitted yes).trans (congrArg _ (State.receive_host way hq passed free)),
    .trans ((State.leaves_notePn _ _).mono (by decide) fun _ _ => id) ((State.leaves_judged _ _).mono (by decide) fun _ _ => id)⟩

omit passed in
theorem frameReceive_unmatched (open_ : s.streamOf f.bytes (s.classOf f.port f.bytes).1 = none)
    (off : s.fb ETH_HOSTCFG.DEFAULT_EN (q - 12) = false ∨ s.fb ETH_RINGCFG0.EN (s.f ETH_HOSTCFG.DEFAULT_RING (q - 12)) = false) :
    ∃ t, exec (.frameReceive f) s = .next t
      ∧ t.f ETH_HOSTCFG.NOMATCH_DROPS (q - 12) = min (s.f ETH_HOSTCFG.NOMATCH_DROPS (q - 12) + 1) 0xFFFF
      ∧ Leaves [.macPns] (oneReg .ethHostcfg (q - 12)) s t := by
  have note := s.notePn_switch f.port f.pn
  have judged : (s.notePn f.port f.pn).judged f.port f.bytes = (true, s.notePn f.port f.pn) :=
    State.judged_open (by rw [note.streamOf, note.classOf, open_])
  obtain ⟨run, -⟩ := frameReceive_host yes way hq (by rw [judged]) (by rw [open_]; nofun)
  have noted := s.leaves_notePn f.port f.pn
  have same : ∀ (x : Fld) (i : Nat), (s.notePn f.port f.pn).f x i = s.f x i := fun x i => noted.f_same x i id
  rw [judged, open_, State.toHost_drops (by rw [State.fb_eq, State.fb_eq, same, same, same, ← State.fb_eq, ← State.fb_eq]; exact off)] at run
  refine ⟨_, run, ?_, .incSat (noted.mono (fun _ h => h) nofun) ⟨rfl, rfl⟩⟩
  rw [State.incSat_f_same _ _ _ _ (by decide), same]
  rfl

variable {r : Nat}
  (ring : (s.streamOf f.bytes (s.classOf f.port f.bytes).1 = none ∧ s.fb ETH_HOSTCFG.DEFAULT_EN (q - 12) = true
      ∧ r = s.f ETH_HOSTCFG.DEFAULT_RING (q - 12) ∧ s.fb ETH_RINGCFG0.EN r = true)
    ∨ ∃ n, s.streamOf f.bytes (s.classOf f.port f.bytes).1 = some n ∧ r = s.ethField 0 6 n 0x10 1 ∧ ∀ b, s.cbOf b n = [])
include ring

theorem frameReceive_ring : exec (.frameReceive f) s = .next (((s.notePn f.port f.pn).judged f.port f.bytes).2.toRing r f.port
    (s.classOf f.port f.bytes).1 (s.streamOf f.bytes (s.classOf f.port f.bytes).1) f.bytes) := by
  have free : ∀ n b, s.streamOf f.bytes (s.classOf f.port f.bytes).1 = some n → s.cbOf b n = [] := fun n b hn => by
    rcases ring with ⟨open_, -⟩ | ⟨k, stream, -, free⟩
    · rw [open_] at hn
      cases hn
    · rw [stream] at hn
      cases hn
      exact free b
  obtain ⟨run, left⟩ := frameReceive_host yes way hq passed free
  have same := switch_of_parts left (by decide)
  rw [run, State.toHost_ring]
  rcases ring with ⟨open_, on, rfl, en⟩ | ⟨k, stream, rfl, -⟩
  · refine .inl ⟨open_, ?_, (left.f_same _ _ id).symm, ?_⟩ <;> rw [State.fb_eq, left.f_same _ _ id, ← State.fb_eq]
    · exact on
    · exact en
  · exact .inr ⟨k, stream, (same.ethField _ _ _ _ _).symm⟩

theorem frameReceive_drops (none' : s.ringHas false r = false) : ∃ t, exec (.frameReceive f) s = .next t
    ∧ t.f ETH_RINGCFG0.DROPS r = min (s.f ETH_RINGCFG0.DROPS r + 1) 0xFFFF
    ∧ Leaves [.macPns, .meters] (oneReg .ethRingcfg0 r) s t := by
  have run := frameReceive_ring yes way hq passed ring
  have left : Leaves [.macPns, .meters] noReg s ((s.notePn f.port f.pn).judged f.port f.bytes).2 :=
    .trans ((State.leaves_notePn _ _).mono (by decide) fun _ _ => id) ((State.leaves_judged _ _).mono (by decide) fun _ _ => id)
  revert run left
  generalize ((s.notePn f.port f.pn).judged f.port f.bytes).2 = u
  intro run left
  have has : u.ringHas false r = false := by
    rw [State.ringHas_same left, none']
  rw [State.toRing_drops has] at run
  refine ⟨_, run, ?_, .incSat (left.mono (fun _ h => h) nofun) ⟨rfl, rfl⟩⟩
  rw [State.incSat_f_same _ _ _ _ (by decide), left.f_same _ _ id]
  rfl

theorem frameReceive_delivers {d : List Nat} {s1 s2 : State} {xs : List Byte} (has : s.ringHas false r = true)
    (head : ((s.notePn f.port f.pn).judged f.port f.bytes).2.headDesc false r = (some d, s1)) (lo : 64 ≤ bits (wordAt d 1) 63 50)
    (hi : bits (wordAt d 1) 63 50 ≤ 9600)
    (write : rtWrite rtEther s1 (s.f ETH_RINGCFG0.INSTANCE r) (wordAt d 0) (f.bytes.take (bits (wordAt d 1) 63 50)) = (.ok xs, s2)) :
    ∃ t, exec (.frameReceive f) s = .next t
      ∧ Consumed false r [(0, toLE 8 s.now ++ toLE 8 (s.clock.frac * 2 ^ 48
          + (if bits (wordAt d 1) 63 50 < f.bytes.length then rsTruncated else rsOk) * 2 ^ 40 + f.port * 2 ^ 36
          + min (bits (wordAt d 1) 63 50) f.bytes.length * 2 ^ 22 + (s.classOf f.port f.bytes).1 % 4096 * 2 ^ 10
          + ((s.streamOf f.bytes (s.classOf f.port f.bytes).1).getD 0) % 1024)
          ++ toLE 8 (if (s.streamOf f.bytes (s.classOf f.port f.bytes).1).isSome then 2 ^ 63 else 0))] s2 t
      ∧ Leaves switchParts (ringRegs false r) s t := by
  have run := frameReceive_ring yes way hq passed ring
  have left : Leaves [.macPns, .meters] noReg s ((s.notePn f.port f.pn).judged f.port f.bytes).2 :=
    .trans ((State.leaves_notePn _ _).mono (by decide) fun _ _ => id) ((State.leaves_judged _ _).mono (by decide) fun _ _ => id)
  revert run left head
  generalize ((s.notePn f.port f.pn).judged f.port f.bytes).2 = u
  intro head run left
  have has' : u.ringHas false r = true := by
    rw [State.ringHas_same left, has]
  have clock : u.clock = s.clock := left.1 .clock (by decide)
  rw [State.toRing_delivers has' head lo hi (by rw [left.f_same _ _ id, write]), State.now, clock, ← State.now] at run
  have wrote : Leaves rtParts rtRegs s1 s2 := Leaves.of_eq write (leaves_rtWrite _ _ _ _ _)
  have upTo : Leaves switchParts (ringRegs false r) s s2 := .trans (left.mono (by decide) nofun)
    (.mono (.trans (State.headDesc_leaves head) wrote) rt_in_switch fun _ _ => .inl)
  exact ⟨_, run, State.writeBack_consumed _, .trans upTo ((State.leaves_writeBack _).mono rt_in_switch fun _ _ => id)⟩

end

end

/-- Settles O52: a write-back consumes its descriptor (`State.writeBack_consumed`), a frame reaches each of its ports beside
the others (`PortKept`), and what waits at a port starts in turn (`State.drainPort_drains`). -/
theorem ringsSendReceiveAndWriteBack : Obligations.RingsSendReceiveAndWriteBack := by
  unfold Obligations.RingsSendReceiveAndWriteBack
  refine ⟨?_, fun s r hr has => ⟨frameTransmit_idle hr has, launchLate_idle hr has⟩, ?_, fun s c q hc hq has => canLaunchLate_idle hc hq has,
    ?_, ?_, ?_, fun s i seq timed ok => State.recoverSeq_again timed ok, ?_, fun s p hp waits => gateListEvent_drains hp waits, ?_, ?_⟩
  · intro s m r v hr acc
    refine ⟨_, ethRingDoorbell_sets hr acc, ?_, ?_, State.leaves_wrote _ _ _ _⟩
    · exact s.wrote_rw r _ ETH_RINGDB.PROD (by simp [Reg.fieldsAt, Reg.fields, ETH_RINGDB.PROD])
    · exact s.wrote_ro r _ ETH_RINGDB.CONS (by simp [Reg.fieldsAt, Reg.fields, ETH_RINGDB.CONS])
  · intro s s1 r d p ready usable done hr has head
    refine ⟨frameTransmit_waits head hr has, fun rdy use ext shut => frameTransmit_holds head hr has rdy use ext shut,
      fun st q why => frameTransmit_ends head hr has why, fun bs s2 rdy use starts read => ?_,
      fun late => launchLate_ends head hr has late, fun early => ?_⟩
    · intro w
      have police : w = s2.policed bs := rfl
      clear_value w
      subst police
      exact ⟨frameTransmit_sends head hr has rdy use starts read, frameTransmit_polices head hr has rdy use starts read,
        frameTransmit_switches head hr has rdy use starts read⟩
    · exact (launchLate_judges hr has head).trans (congrArg _ (if_neg (by rw [early]; decide)))
  · intro s s1 c q d hc hq has head
    refine ⟨fun early => (canLaunchLate_judges hc hq has head).trans (congrArg _ (if_neg (by rw [early]; decide))), fun late =>
      ⟨_, (canLaunchLate_judges hc hq has head).trans (congrArg _ (if_pos late)), ?_⟩⟩
    have done : s1.canWb (canRing c q) d rsLate 0 0 = s1.writeBack true (canRing c q) [(0, toLE 8 0),
        (16, toLE 8 (bits (wordAt d 2) 63 32 * 2 ^ 32 + rsLate * 2 ^ 8 + wordAt d 2 % 256))] := by
      rw [State.canWb, Nat.zero_mul, Nat.add_zero]
    rw [done]
    exact State.writeBack_consumed _
  · intro s f hp
    exact ⟨fun no => (frameReceive_runs hp).trans (congrArg _ (State.receive_refused hp no)), fun yes =>
      ⟨_, frameReceive_admitted yes, State.leaves_receive, fun ch n pn => State.receive_macPn yes pn⟩⟩
  · intro s f v st w yes
    have judged : w = (s.notePn f.port f.pn).judged f.port f.bytes := (State.judged_note f.port f.pn f.bytes).symm
    clear_value w
    subst judged
    have open_passes : st = none → ((s.notePn f.port f.pn).judged f.port f.bytes).1 = true := fun open_ => by
      rw [State.judged_open (by rw [(s.notePn_switch f.port f.pn).streamOf, (s.notePn_switch f.port f.pn).classOf]; exact open_)]
    refine ⟨fun dropped => frameReceive_filtered yes dropped, fun q open_ ne member _ takes starts listed => ?_,
      fun q open_ way takes shut => ?_, fun q open_ way hq off => frameReceive_unmatched yes way hq open_ off, fun q r passed way hq ring => ?_⟩
    · exact ⟨_, frameReceive_admitted yes, State.receive_sends yes open_ ne member takes starts listed⟩
    · exact ⟨_, frameReceive_admitted yes, State.receive_waits yes open_ way takes shut⟩
    · exact ⟨fun none' => frameReceive_drops yes way hq passed ring none', fun d s1 s2 xs has head lo hi write =>
        frameReceive_delivers yes way hq passed ring has head lo hi write⟩
  · intro s n len m
    exact ⟨fun covers => State.meterPass_green covers, fun c e => State.meterPass_red c e⟩
  · intro s p hp empty g due
    refine ⟨fun b base now_ => ?_, fun later_ idle => ?_, fun later_ fires => ?_⟩
    · obtain ⟨gone, start, idx, cycle, ops, open_⟩ := s.loadGates_engine p b
      refine ⟨_, (gateListEvent_still hp empty).trans (congrArg _ (State.portGate_loads base now_)), gone, start, idx, cycle, ops, open_,
        fun q hq => State.modGate_ne _ hq, .modGate (.refl _ _ s)⟩
    · rw [gateListEvent_still hp empty, State.portGate_runs later_, if_neg (by simpa [due] using idle)]
    · refine ⟨_, (gateListEvent_still hp empty).trans (congrArg _ ((State.portGate_runs later_).trans (if_pos (by simpa [due] using fires)))), ?_⟩
      rw [State.modGate_gateEng, if_pos rfl]
      exact ⟨fun more time => GateEng.advance_next more time, fun ends => GateEng.advance_wraps ends, fun q hq => State.modGate_ne _ hq,
        .modGate (.refl _ _ s)⟩
  · intro s n hn base cyc on
    refine ⟨fun off => ?_, fun ⟨en, some_, due, fires⟩ => ?_⟩
    · rw [gateListEvent_stream hn]
      by_cases fires : (s.gateEng (16 + n)).running = false ∨ localFire s.now (s.gateEng (16 + n)).target = true
      · rw [if_pos (by simpa using fires), State.streamGate_off]
        by_contra all
        simp only [not_or, not_not, Bool.not_eq_false] at all
        exact off ⟨all.1, all.2.1, all.2.2, fires⟩
      · rw [if_neg (by simpa using fires)]
    · exact ⟨_, (gateListEvent_stream hn).trans (congrArg _ (if_pos (by simpa using fires))), State.streamGate_on en some_ due⟩

end Sys2Proof.Machine
end

section
/-! PROOFS. What a CAN controller offers and sends (R293, R295). -/

set_option Elab.async false

namespace Sys2Proof.Machine

section
variable {s t : State} {c q : Nat} {d : List Nat} {f : CanFrame}

/-! ## A controller's own state -/

theorem State.modCan_canc_same (c : Nat) (g : CanSt → CanSt) : (s.modCan c g).canc c = g (s.canc c) := by
  rw [State.modCan_canc, if_pos rfl]

theorem State.modCan_canc_ne {k : Nat} (g : CanSt → CanSt) (ne : k ≠ c) : (s.modCan c g).canc k = s.canc k := by
  rw [State.modCan_canc, if_neg ne]

theorem Leaves.canc_same {ps : List Part} {p : Reg → Nat → Prop} (h : Leaves ps p s t) (hp : .can ∉ ps) (k : Nat) : t.canc k = s.canc k := by
  rw [State.canc, State.canc, h.1 .can hp]

theorem Leaves.tun_same {ps : List Part} {p : Reg → Nat → Prop} (h : Leaves ps p s t) (hp : .tunnels ∉ ps) (k : Nat) : t.tun k = s.tun k := by
  rw [State.tun, State.tun, h.1 .tunnels hp]

theorem State.busOff_eq (live : s.f CAN_CTRL.FC_STATE c ≠ 2) : s.busOff c = false := by
  simpa [State.busOff] using live

/-! ## The queues -/

/-- The registers that the heads of a controller's queues change as they complete. -/
abbrev canQueues (c : Nat) (r : Reg) (i : Nat) : Prop := rtRegs r i ∨ (r = .canRingdb ∧ ∃ q, q < 8 ∧ i = canRing c q)

theorem State.leaves_canWb {r : Nat} (st ts frac : Nat) : Leaves rtParts (ringRegs true r) s (s.canWb r d st ts frac) :=
  State.leaves_writeBack _

theorem State.leaves_dropLost (n : Nat) : Leaves rtParts (ringRegs true (canRing c q)) s (s.dropLost c q n) := by
  induction n generalizing s with
  | zero => exact .refl _ _ s
  | succ n ih =>
    have head : Leaves rtParts (ringRegs true (canRing c q)) s _ :=
      (s.leaves_headDesc (k := true) (r := canRing c q)).mono (List.Subset.refl _) fun _ _ h => .inl h
    unfold State.dropLost
    refine .ite (.refl _ _ s) ?_
    split <;> rename_i e <;> rw [e] at head
    · exact .ite ((head.trans (State.leaves_canWb _ _ _)).trans ih) head
    · exact head

theorem State.dropLost_empty (empty : s.ringHas true (canRing c q) = false) (n : Nat) : s.dropLost c q n = s := by
  cases n with
  | zero => rfl
  | succ n =>
    unfold State.dropLost
    rw [empty, if_pos (by decide)]

theorem State.queueHead_empty (empty : s.ringHas true (canRing c q) = false) : s.queueHead c q = (none, s) := by
  unfold State.queueHead
  dsimp only
  rw [State.dropLost_empty empty, empty, if_pos (by decide)]

theorem State.leaves_queueHead : Leaves rtParts (ringRegs true (canRing c q)) s (s.queueHead c q).2 := by
  have lost : Leaves rtParts (ringRegs true (canRing c q)) s _ := s.leaves_dropLost (s.ringSize true (canRing c q))
  unfold State.queueHead
  dsimp only
  refine .iteSnd lost ?_
  have head := lost.trans ((State.leaves_headDesc (k := true) (r := canRing c q)).mono (List.Subset.refl _) fun _ _ => .inl)
  split <;> rename_i e <;> rw [e] at head
  · exact head
  · exact .iteSnd head (.iteSnd (head.trans (State.leaves_canWb _ _ _)) (.iteSnd (head.trans (State.leaves_canWb _ _ _)) head))

/-! ## The offers -/

/-- A queue adds its head to the offers. -/
def offerStep (c : Nat) (acc : List (CanSrc × List Nat × CanFrame) × State) (q : Nat) : List (CanSrc × List Nat × CanFrame) × State :=
  match acc.2.queueHead c q with
  | (some (d, f), s') => (acc.1 ++ [(.queue q, d, f)], s')
  | (none, s') => (acc.1, s')

/-- What a controller offers beside its queues: the head of its route queue and its next claim. -/
def CanSt.offers (x : CanSt) : List (CanSrc × List Nat × CanFrame) :=
  (x.route.head?.map fun f => (CanSrc.route, ([] : List Nat), f)).toList ++ (x.claims.head?.map fun f => (CanSrc.claim, ([] : List Nat), f)).toList

theorem State.canOffers_eq : s.canOffers c = (((List.range 8).foldl (offerStep c) ([], s)).1
    ++ (((List.range 8).foldl (offerStep c) ([], s)).2.canc c).offers, ((List.range 8).foldl (offerStep c) ([], s)).2) := by
  have form : s.canOffers c = (((List.range 8).foldl (offerStep c) ([], s)).1
    ++ ((((List.range 8).foldl (offerStep c) ([], s)).2.canc c).route.head?.map fun f => (CanSrc.route, ([] : List Nat), f)).toList
    ++ ((((List.range 8).foldl (offerStep c) ([], s)).2.canc c).claims.head?.map fun f => (CanSrc.claim, ([] : List Nat), f)).toList,
      ((List.range 8).foldl (offerStep c) ([], s)).2) := rfl
  rw [form, CanSt.offers, List.append_assoc]

theorem offerStep_leaves (acc : List (CanSrc × List Nat × CanFrame) × State) (hq : q < 8) :
    Leaves rtParts (canQueues c) acc.2 (offerStep c acc q).2 := by
  have head : Leaves rtParts (canQueues c) acc.2 (acc.2.queueHead c q).2 :=
    State.leaves_queueHead.mono (List.Subset.refl _) fun _ _ h => h.imp id fun ⟨r, i⟩ => ⟨r, q, hq, i⟩
  unfold offerStep
  split <;> rename_i e <;> rw [e] at head <;> exact head

theorem offerSteps_leave (acc : List (CanSrc × List Nat × CanFrame) × State) (qs : List Nat) (small : ∀ q ∈ qs, q < 8) :
    Leaves rtParts (canQueues c) acc.2 (qs.foldl (offerStep c) acc).2 := by
  induction qs generalizing acc with
  | nil => exact .refl _ _ _
  | cons q qs ih =>
    exact (offerStep_leaves acc (small q List.mem_cons_self)).trans (ih _ fun p hp => small p (.tail _ hp))

theorem State.leaves_canOffers {os : List (CanSrc × List Nat × CanFrame)} (offers : s.canOffers c = (os, t)) : Leaves rtParts (canQueues c) s t := by
  refine .of_eq offers ?_
  rw [State.canOffers_eq]
  exact offerSteps_leave ([], s) _ fun q hq => List.mem_range.1 hq

theorem offerSteps_empty (acc : List (CanSrc × List Nat × CanFrame) × State) (qs : List Nat)
    (empty : ∀ q ∈ qs, acc.2.ringHas true (canRing c q) = false) : qs.foldl (offerStep c) acc = acc := by
  induction qs with
  | nil => rfl
  | cons q qs ih =>
    rw [List.foldl_cons, offerStep, State.queueHead_empty (empty q List.mem_cons_self)]
    exact ih fun p hp => empty p (.tail _ hp)

theorem State.canOffers_empty (empty : ∀ q, q < 8 → s.ringHas true (canRing c q) = false) : s.canOffers c = ((s.canc c).offers, s) := by
  rw [State.canOffers_eq, offerSteps_empty ([], s) _ fun q hq => empty q (List.mem_range.1 hq), List.nil_append]

/-- The offer below all others wins. -/
theorem lowestOffer_least {o : CanSrc × List Nat × CanFrame} {os : List (CanSrc × List Nat × CanFrame)} (here : o ∈ os)
    (least : ∀ p ∈ os, p = o ∨ busKey o.2.2 < busKey p.2.2) : lowestOffer os = some o := by
  have winner : ∀ (a : CanSrc × List Nat × CanFrame) (xs : List (CanSrc × List Nat × CanFrame)), o = a ∨ o ∈ xs →
      (∀ p ∈ a :: xs, p = o ∨ busKey o.2.2 < busKey p.2.2) →
      xs.foldl (fun a b => if busKey b.2.2 < busKey a.2.2 then b else a) a = o := by
    intro a xs
    induction xs generalizing a with
    | nil =>
      intro h _
      rcases h with rfl | h
      · rfl
      · cases h
    | cons b xs ih =>
      intro h low
      rw [List.foldl_cons]
      have la := low a List.mem_cons_self
      have lb := low b (.tail _ List.mem_cons_self)
      have rest : ∀ p ∈ xs, p = o ∨ busKey o.2.2 < busKey p.2.2 := fun p hp => low p (.tail _ (.tail _ hp))
      split <;> rename_i lt
      · refine ih b ?_ fun p hp => (List.mem_cons.1 hp).elim (fun e => e ▸ lb) (rest p)
        rcases h with rfl | h
        · exact .inl (lb.elim Eq.symm fun gt => absurd lt (by omega))
        · exact (List.mem_cons.1 h).imp id id
      · refine ih a ?_ fun p hp => (List.mem_cons.1 hp).elim (fun e => e ▸ la) (rest p)
        rcases h with h | h
        · exact .inl h
        · rcases List.mem_cons.1 h with rfl | h
          · exact .inl (la.elim Eq.symm fun gt => absurd gt lt)
          · exact .inr h
  cases os with
  | nil => cases here
  | cons a xs => exact congrArg some (winner a xs (List.mem_cons.1 here) least)

/-! ## An arbitration -/

theorem canArbitration_off (hc : c < 20) (off : s.fb CAN_CTRL.EN c = false ∨ s.f CAN_CTRL.FC_STATE c = 2 ∨ 3 < s.f CAN_CTRL.MODE c) :
    exec (.canArbitration c) s = .next s := by
  rw [exec_canArbitration, execCanArbitration, decide_eq_true hc, unit_true, if_pos]
  simp only [State.busOff, Bool.or_eq_true, Bool.not_eq_true', beq_iff_eq, decide_eq_true_eq]
  rcases off with h | h | h
  · exact .inl (.inl h)
  · exact .inl (.inr h)
  · exact .inr h

section
variable {os : List (CanSrc × List Nat × CanFrame)} (hc : c < 20) (en : s.fb CAN_CTRL.EN c = true) (live : s.f CAN_CTRL.FC_STATE c ≠ 2)
  (sends : s.f CAN_CTRL.MODE c ≤ 3) (offers : s.canOffers c = (os, t))
include hc en live sends offers

/-- A controller that sends offers what it has. -/
theorem canArbitration_sends {o : CanSrc × List Nat × CanFrame} (low : lowestOffer os = some o) :
    exec (.canArbitration c) s = .next (t.sendOffer c o) := by
  have on : (!s.fb CAN_CTRL.EN c || s.busOff c || decide (3 < s.f CAN_CTRL.MODE c)) = false := by
    simp [State.busOff_eq live, en, sends]
  rw [exec_canArbitration, execCanArbitration, decide_eq_true hc, unit_true, on, if_neg (by decide), offers]
  dsimp only
  rw [low]

theorem canArbitration_idle (none : os = []) : exec (.canArbitration c) s = .next t := by
  have on : (!s.fb CAN_CTRL.EN c || s.busOff c || decide (3 < s.f CAN_CTRL.MODE c)) = false := by
    simp [State.busOff_eq live, en, sends]
  rw [exec_canArbitration, execCanArbitration, decide_eq_true hc, unit_true, on, if_neg (by decide), offers, none]
  rfl

end

theorem State.sendOffer_route (d : List Nat) : s.sendOffer c (.route, d, f)
    = (s.modCan c fun x => { x with route := x.route.drop 1 }).emit (.canFrame c f) := (rfl)

theorem State.sendOffer_claim (d : List Nat) : s.sendOffer c (.claim, d, f)
    = (s.modCan c fun x => { x with claims := x.claims.drop 1 }).emit (.canFrame c f) := (rfl)

theorem State.sendOffer_queue {bs : List Byte}
    (read : rtRead rtCan s (s.f CAN_RINGCFG0.INSTANCE (canRing c q)) (wordAt d 3) (canLen d) = (.ok bs, t)) :
    s.sendOffer c (.queue q, d, f) = (t.emit (.canFrame c { f with data := bs })).canWb (canRing c q) d rsOk t.now t.clock.frac := by
  unfold State.sendOffer
  dsimp only
  rw [read]

/-- A frame of a queue is sent with the data it points to, and its record is written back. -/
theorem State.sendOffer_sends {bs : List Byte}
    (read : rtRead rtCan s (s.f CAN_RINGCFG0.INSTANCE (canRing c q)) (wordAt d 3) (canLen d) = (.ok bs, t)) :
    .canFrame c { f with data := bs } ∈ (s.sendOffer c (.queue q, d, f)).outbox
      ∧ Consumed true (canRing c q) [(0, toLE 8 s.now), (16, toLE 8 (bits (wordAt d 2) 63 32 * 2 ^ 32
          + s.clock.frac * 2 ^ 16 + wordAt d 2 % 256))] (t.emit (.canFrame c { f with data := bs })) (s.sendOffer c (.queue q, d, f))
      ∧ Leaves rtParts (fun x i => rtRegs x i ∨ (x = .canRingdb ∧ i = canRing c q)) s (s.sendOffer c (.queue q, d, f)) := by
  have left : Leaves rtParts rtRegs s t := .of_eq read (leaves_rtRead ..)
  have same := rt_switch left
  rw [State.sendOffer_queue read]
  refine ⟨(Keeps.canWb (.refl _)).record.subset List.mem_cons_self, ?_, ?_⟩
  · have form : (t.emit (.canFrame c { f with data := bs })).canWb (canRing c q) d rsOk t.now t.clock.frac
        = (t.emit (.canFrame c { f with data := bs })).writeBack true (canRing c q) [(0, toLE 8 s.now),
          (16, toLE 8 (bits (wordAt d 2) 63 32 * 2 ^ 32 + s.clock.frac * 2 ^ 16 + wordAt d 2 % 256))] := by
      rw [State.canWb, same.now, same.clock, rsOk, Nat.zero_mul, Nat.add_zero]
    rw [form]
    exact State.writeBack_consumed _
  · exact ((left.mono (List.Subset.refl _) fun _ _ => .inl).emit (by simp [rtParts, accessParts])).trans (State.leaves_canWb _ _ _)

end

end Sys2Proof.Machine
end

section
/-! PROOFS. What a received CAN frame starts (R294, R295, R297). -/

set_option Elab.async false

namespace Sys2Proof.Machine

section
variable {s t : State} {c : Nat} {f : CanFrame}

/-! ## The entry of a frame -/

theorem canFrameReceive_off (hc : c < 20) (off : s.fb CAN_CTRL.EN c = false ∨ s.f CAN_CTRL.FC_STATE c = 2) :
    exec (.canFrameReceive c f) s = .next s := by
  rw [exec_canFrameReceive, execCanFrameReceive, decide_eq_true hc, unit_true, if_pos]
  simpa [State.busOff] using off

theorem canFrameReceive_takes (hc : c < 20) (en : s.fb CAN_CTRL.EN c = true) (live : s.f CAN_CTRL.FC_STATE c ≠ 2) :
    exec (.canFrameReceive c f) s = .next (s.canReceive c f) := by
  rw [exec_canFrameReceive, execCanFrameReceive, decide_eq_true hc, unit_true, if_neg]
  simp [State.busOff_eq live, en]

theorem State.j1939Receive_off (off : s.fb CAN_CTRL.J1939 c = false) : s.j1939Receive c f = s := by
  have none : s.liveSlots c = [] := by rw [State.liveSlots, off, if_neg Bool.false_ne_true]
  unfold State.j1939Receive State.answerRequest
  rw [none]
  split <;> [rfl; split]
  · rfl
  · split <;> rfl

/-- The entries of a controller's range, as its numbers from BASE on. -/
theorem State.fltrFor_eq : s.fltrFor c f = ((List.range (s.f CAN_FLTRNG.COUNT c)).find? fun k => s.fltrMatch (s.f CAN_FLTRNG.BASE c + k) f).map
    fun k => s.f CAN_FLTRNG.BASE c + k := by
  rw [State.fltrFor, List.find?_map]
  rfl

theorem State.fltrFor_first {e : Nat} (base : s.f CAN_FLTRNG.BASE c ≤ e) (count : e < s.f CAN_FLTRNG.BASE c + s.f CAN_FLTRNG.COUNT c)
    (here : s.fltrMatch e f = true) (first : ∀ k, s.f CAN_FLTRNG.BASE c ≤ k → k < e → s.fltrMatch k f = false) : s.fltrFor c f = some e := by
  have found : (List.range (s.f CAN_FLTRNG.COUNT c)).find? (fun k => s.fltrMatch (s.f CAN_FLTRNG.BASE c + k) f)
      = some (e - s.f CAN_FLTRNG.BASE c) := by
    rw [List.find?_range_eq_some]
    refine ⟨by rwa [Nat.add_sub_cancel' base], List.mem_range.2 (by omega), fun k hk => ?_⟩
    rw [first _ (Nat.le_add_right _ _) (by omega)]
    rfl
  rw [State.fltrFor_eq, found, Option.map_some, Nat.add_sub_cancel' base]

theorem State.fltrFor_none (none : ∀ k, s.f CAN_FLTRNG.BASE c ≤ k → k < s.f CAN_FLTRNG.BASE c + s.f CAN_FLTRNG.COUNT c → s.fltrMatch k f = false) :
    s.fltrFor c f = .none := by
  have found : (List.range (s.f CAN_FLTRNG.COUNT c)).find? (fun k => s.fltrMatch (s.f CAN_FLTRNG.BASE c + k) f) = Option.none := by
    refine List.find?_eq_none.2 fun k hk => ?_
    rw [none _ (Nat.le_add_right _ _) (Nat.add_lt_add_left (List.mem_range.1 hk) _)]
    exact Bool.false_ne_true
  rw [State.fltrFor_eq, found, Option.map_none]

/-- The action of the entry that matches. -/
def State.entryAction (s : State) (c e : Nat) (f : CanFrame) : State :=
  s.canAction c (s.f CAN_FLTR1.ACTION e) (s.f CAN_FLTR1.RING e) (s.f CAN_FLTR1.DEST e) (s.f CAN_FLTR1.TUNNEL e) f

/-- The default action, with free values for a route and a tunnel. -/
def State.defaultAction (s : State) (c : Nat) (f : CanFrame) : State :=
  s.fresh.2.fresh.2.canAction c (s.f CAN_CTRL.DEFAULT c) (s.f CAN_CTRL.DEFAULT_RING c) (s.fresh.1 % 20) (s.fresh.2.fresh.1 % 64) f

theorem State.canReceive_entry {e : Nat} (judged : s.j1939Receive c f = t) (found : t.fltrFor c f = some e) : s.canReceive c f = t.entryAction c e f := by
  unfold State.canReceive
  dsimp only
  rw [judged, found]
  rfl

theorem State.canReceive_default (judged : s.j1939Receive c f = t) (none : t.fltrFor c f = none) : s.canReceive c f = t.defaultAction c f := by
  unfold State.canReceive
  dsimp only
  rw [judged, none]
  rfl

/-! ## The actions -/

theorem State.canAction_drops (ring dest tunnel : Nat) : s.canAction c 0 ring dest tunnel f = s := (rfl)

theorem State.canAction_delivers (ring dest tunnel : Nat) : s.canAction c 1 ring dest tunnel f = s.canDeliver c ring f := (rfl)

theorem State.canAction_routes (ring dest tunnel : Nat) : s.canAction c 4 ring dest tunnel f = s.routeTo dest f := (rfl)

theorem State.canAction_untunneled (ring dest tunnel : Nat) (xl : f.fmt = 4) :
    s.canAction c 2 ring dest tunnel f = s.incSat CAN_STAT.XL_UNTUN c 1 := by
  unfold State.canAction
  dsimp only
  rw [xl]
  rfl

theorem State.canAction_tunnels (ring dest tunnel : Nat) (short : f.fmt ≠ 4) :
    s.canAction c 2 ring dest tunnel f = s.tunnelMsg tunnel (s.acfOf c f) := by
  unfold State.canAction
  dsimp only
  rw [if_neg (by simpa using short)]
  rfl

section
variable {ring : Nat} (small : ring < 8) (en : s.fb CAN_RINGCFG0.EN (canRing c (8 + ring)) = true)
include small en

theorem State.canDeliver_full (none : s.ringHas true (canRing c (8 + ring)) = false) :
    s.canDeliver c ring f = s.incSat CAN_RINGCFG0.DROPS (canRing c (8 + ring)) 1 := by
  unfold State.canDeliver
  dsimp only
  rw [if_neg (by omega), en, if_neg (by decide), none, if_pos (by decide)]

end

/-- A frame fills the descriptor of its ring. -/
theorem State.canDeliver_fills {ring : Nat} {s1 s2 : State} {d : List Nat} {xs : List Byte} (small : ring < 8)
    (has : s.ringHas true (canRing c (8 + ring)) = true) (head : s.headDesc true (canRing c (8 + ring)) = (some d, s1))
    (wrote : rtWrite rtCan s1 (s.f CAN_RINGCFG0.INSTANCE (canRing c (8 + ring))) (wordAt d 3) f.data = (.ok xs, s2)) :
    s.canDeliver c ring f = s2.writeBack true (canRing c (8 + ring)) [(0, toLE 8 s.now ++ toLE 8 (canWord1 f)
      ++ toLE 8 (f.af % 2 ^ 32 * 2 ^ 32 + s.clock.frac * 2 ^ 16))] := by
  have read : Leaves rtParts rtRegs s s1 := State.headDesc_leaves head
  have inst : s1.f CAN_RINGCFG0.INSTANCE (canRing c (8 + ring)) = s.f CAN_RINGCFG0.INSTANCE (canRing c (8 + ring)) := 
    (sameRing_rt (k := true) read).inst
  have same := rt_switch (read.trans (.of_eq wrote (leaves_rtWrite ..)))
  have en : s.fb CAN_RINGCFG0.EN (canRing c (8 + ring)) = true := by
    rw [State.ringHas, Bool.and_eq_true] at has
    exact has.1
  unfold State.canDeliver
  dsimp only
  rw [if_neg (by omega), en, if_neg (by decide), has, if_neg (by decide), head]
  dsimp only
  rw [inst, wrote]
  dsimp only
  rw [same.now, same.clock, rsOk, Nat.zero_mul, Nat.add_zero]

/-- The first message of an AVTPDU waits in its tunnel entry. -/
theorem State.tunnelMsg_begins {k : Nat} {m : AcfMsg} (en : s.fb CAN_TUNCFG.EN 0 = true) (out : (s.tun k).inbound = false) (none : (s.tun k).msgs = [])
    (fits : m.frame.data.length ≤ 1464) (more : 1 < (s.tun k).maxMsgs) (waits : (s.tun k).maxWaitUs ≠ 0) :
    s.tunnelMsg k m = s.modTun k fun x => { x with msgs := [m], firstNs := s.now } := by
  have short : ¬ 1480 < ((s.tun k).msgs.map acfBytes).sum + acfBytes m := by
    rw [none, acfBytes]
    simp only [List.map_nil, List.sum_nil]
    omega
  have entered : (s.modTun k fun x => { x with msgs := x.msgs ++ [m], firstNs := if x.msgs.isEmpty then s.now else x.firstNs })
      = s.modTun k fun x => { x with msgs := [m], firstNs := s.now } := by
    rw [State.modTun, State.modTun, none]
    rfl
  unfold State.tunnelMsg
  dsimp only
  rw [en, out, if_neg (by decide), if_neg short, entered, if_neg]
  simp only [State.modTun_tun, if_pos, List.length_singleton, Bool.or_eq_true, decide_eq_true_eq]
  omega

theorem State.routeTo_enters {b : Nat} (room : (s.canc b).route.length < 32) (live : s.f CAN_CTRL.FC_STATE b ≠ 2) (carries : s.carries b f.fmt = true)
    (en : s.fb CAN_CTRL.EN b = true) (hb : b < 20) : s.routeTo b f = s.modCan b fun x => { x with route := x.route ++ [f] } := by
  unfold State.routeTo
  rw [if_neg]
  simp [State.busOff_eq live, carries, en]
  omega

theorem State.routeTo_drops {b : Nat} (no : 32 ≤ (s.canc b).route.length ∨ s.f CAN_CTRL.FC_STATE b = 2 ∨ s.carries b f.fmt = false) :
    s.routeTo b f = s.incSat CAN_STAT.ROUTE_DROP b 1 := by
  unfold State.routeTo
  rw [if_pos]
  rcases no with h | h | h <;> simp [State.busOff, h]

theorem counted (x : Fld) (i : Nat) (fits : x.fits) (top : x.top = 0xFFFF) : (s.incSat x i 1).f x i = min (s.f x i + 1) 0xFFFF := by
  rw [State.incSat_f_same _ _ _ _ fits, top]

end

end Sys2Proof.Machine
end

section
/-! PROOFS. Address claims and bus-off (R292, R296). -/

set_option Elab.async false

namespace Sys2Proof.Machine

section
variable {s t u : State} {c n : Nat} {f : CanFrame} {v : Word}

theorem slotNo_div (hn : n < 8) : slotNo c n / 8 = c := by
  unfold slotNo
  omega

theorem slotNo_mod (hn : n < 8) : slotNo c n % 8 = n := by
  unfold slotNo
  omega

/-! ## What the claim logic keeps -/

/-- The claims and the slots of every controller are the same. -/
structure ClaimsKept (s t : State) : Prop where
  claims : ∀ k, (t.canc k).claims = (s.canc k).claims
  owe : ∀ k, (t.canc k).owe = (s.canc k).owe
  slots : ∀ k, t.r .canJ19391 k = s.r .canJ19391 k

theorem ClaimsKept.refl (s : State) : ClaimsKept s s := ⟨fun _ => rfl, fun _ => rfl, fun _ => rfl⟩

theorem ClaimsKept.trans (h : ClaimsKept s t) (g : ClaimsKept t u) : ClaimsKept s u :=
  ⟨fun k => (g.claims k).trans (h.claims k), fun k => (g.owe k).trans (h.owe k), fun k => (g.slots k).trans (h.slots k)⟩

theorem ClaimsKept.of_leaves {ps : List Part} {q : Reg → Nat → Prop} (h : Leaves ps q s t) (hp : .can ∉ ps) (hq : ∀ k, ¬ q .canJ19391 k) :
    ClaimsKept s t :=
  ⟨fun k => by rw [h.canc_same hp], fun k => by rw [h.canc_same hp], fun k => h.2 _ _ (hq k)⟩

theorem State.leaves_sendPdu (k : Nat) : Leaves [.tunnels, .outbox] noReg s (s.sendPdu k) := by
  unfold State.sendPdu
  exact .ite (.refl _ _ s) (.modTun (.emit (.refl _ _ s)))

theorem State.leaves_tunnelMsg (k : Nat) (m : AcfMsg) : Leaves [.tunnels, .outbox] noReg s (s.tunnelMsg k m) := by
  unfold State.tunnelMsg
  dsimp only
  refine .ite (.refl _ _ s) ?_
  have sent : Leaves [.tunnels, .outbox] noReg s (if 1480 < ((s.tun k).msgs.map acfBytes).sum + acfBytes m then s.sendPdu k else s) :=
    .ite (State.leaves_sendPdu k) (.refl _ _ s)
  exact .ite (.trans (.modTun sent) (State.leaves_sendPdu k)) (.modTun sent)

/-- The registers that a delivery to a receive ring of a controller changes. -/
abbrev canDelivers (r : Reg) (_ : Nat) : Prop := accessRegs r 0 ∨ r = .gateRt ∨ r = .canRingdb ∨ r = .canRingcfg0

theorem State.leaves_canDeliver (ring : Nat) : Leaves rtParts canDelivers s (s.canDeliver c ring f) := by
  have head : Leaves rtParts canDelivers s (s.headDesc true (canRing c (8 + ring))).2 :=
    State.leaves_headDesc.mono (List.Subset.refl _) fun _ _ h => h.imp id .inl
  unfold State.canDeliver
  dsimp only
  refine .ite (.refl _ _ s) (.ite (.refl _ _ s) (.ite (.incSat (.refl _ _ s) (.inr (.inr (.inr rfl)))) ?_))
  have back : ∀ {b : State} ps, Leaves rtParts canDelivers b (b.writeBack true (canRing c (8 + ring)) ps) := fun ps =>
    (State.leaves_writeBack ps).mono (List.Subset.refl _) fun _ _ h => h.elim (fun h => h.imp id .inl) fun h => .inr (.inr (.inl h.1))
  split <;> rename_i e <;> rw [e] at head
  · exact .incSat head (.inr (.inr (.inr rfl)))
  · rename_i d s1
    have wrote : Leaves rtParts canDelivers s (rtWrite rtCan s1 (s1.f CAN_RINGCFG0.INSTANCE (canRing c (8 + ring))) (wordAt d 3) f.data).2 :=
      head.trans ((leaves_rtWrite ..).mono (List.Subset.refl _) fun _ _ h => h.imp id .inl)
    split <;> rename_i e' <;> rw [e'] at wrote <;> exact wrote.trans (back _)

theorem State.routeTo_keeps (b : Nat) : ClaimsKept s (s.routeTo b f) := by
  unfold State.routeTo
  split
  · exact .of_leaves (ps := []) (.incSat (q := oneReg .canStat b) (.refl _ _ s) ⟨rfl, rfl⟩) (by simp) (by simp [oneReg])
  · refine ⟨fun k => ?_, fun k => ?_, fun _ => rfl⟩ <;> rw [State.modCan_canc]
    · by_cases e : k = b
      · rw [if_pos e, e]
      · rw [if_neg e]
    · by_cases e : k = b
      · rw [if_pos e, e]
      · rw [if_neg e]

theorem State.tunnelMsg_keeps (k : Nat) (m : AcfMsg) : ClaimsKept s (s.tunnelMsg k m) :=
  .of_leaves (State.leaves_tunnelMsg k m) (by simp) (by simp [noReg])

theorem State.canDeliver_keeps (ring : Nat) : ClaimsKept s (s.canDeliver c ring f) :=
  .of_leaves (State.leaves_canDeliver ring) (by simp [rtParts, accessParts]) (by simp [canDelivers, accessRegs])

theorem State.untunneled_keeps : ClaimsKept s (s.incSat CAN_STAT.XL_UNTUN c 1) :=
  .of_leaves (ps := []) (.incSat (q := oneReg .canStat c) (.refl _ _ s) ⟨rfl, rfl⟩) (by simp) (by simp [oneReg])

theorem State.canAction_keeps (act ring dest k : Nat) : ClaimsKept s (s.canAction c act ring dest k f) := by
  unfold State.canAction
  dsimp only
  split
  · exact State.canDeliver_keeps ring
  · split
    · exact State.untunneled_keeps
    · exact State.tunnelMsg_keeps _ _
  · split
    · exact (State.canDeliver_keeps ring).trans State.untunneled_keeps
    · exact (State.canDeliver_keeps ring).trans (State.tunnelMsg_keeps _ _)
  · exact State.routeTo_keeps dest
  · exact .refl s

/-- A frame goes through the claim logic first; its action leaves that alone. -/
theorem State.canReceive_keeps : ClaimsKept (s.j1939Receive c f) (s.canReceive c f) := by
  cases found : (s.j1939Receive c f).fltrFor c f with
  | some e =>
    rw [State.canReceive_entry rfl found]
    exact State.canAction_keeps ..
  | none =>
    rw [State.canReceive_default rfl found]
    exact .trans (.of_leaves (ps := [.freeCtr]) (q := noReg) (.fresh (.fresh (.refl _ _ _))) (by simp) (by simp [noReg])) (State.canAction_keeps ..)

/-! ## A competing claim (R296) -/

theorem State.j1939Receive_claim (ext : isExt f.fmt = true) (pgn : f.id / 256 % 2 ^ 18 = 0xEEFF)
    (found : ((s.liveSlots c).find? fun n => s.f CAN_J19391.ADDR (slotNo c n) == f.id % 256 && s.f CAN_J19391.STATE (slotNo c n) != 3) = some n) :
    s.j1939Receive c f = s.compete c n f := by
  unfold State.j1939Receive
  rw [ext, if_neg (by decide), if_pos pgn, found]

theorem State.j1939Receive_request (ext : isExt f.fmt = true) (other : f.id / 256 % 2 ^ 18 ≠ 0xEEFF) (pgn : f.id / 65536 % 1024 = 0xEA)
    (asks : leAt f.data 0 3 = 0xEE00) : s.j1939Receive c f = s.answerRequest c (f.id / 256 % 256) := by
  unfold State.j1939Receive
  rw [ext, if_neg (by decide), if_neg other, if_pos (by simp [pgn, asks])]

theorem State.mem_liveSlots (on : s.fb CAN_CTRL.J1939 c = true) (k : Nat) : k ∈ s.liveSlots c ↔ k < 8 ∧ s.fb CAN_J19391.EN (slotNo c k) = true := by
  rw [State.liveSlots, if_pos on, List.mem_filter, List.mem_range]

/-- The slot alone with its address is the one that a claim competes with. -/
theorem State.find_slot {p : Nat → Bool} (on : s.fb CAN_CTRL.J1939 c = true) (hn : n < 8) (en : s.fb CAN_J19391.EN (slotNo c n) = true) (hp : p n = true)
    (alone : ∀ k, k < 8 → k ≠ n → s.fb CAN_J19391.EN (slotNo c k) = true → p k = false) : (s.liveSlots c).find? p = some n := by
  cases found : (s.liveSlots c).find? p with
  | none => exact absurd hp (List.find?_eq_none.1 found n ((State.mem_liveSlots on n).2 ⟨hn, en⟩))
  | some k =>
    by_cases ne : k = n
    · rw [ne]
    · obtain ⟨hk, enk⟩ := (State.mem_liveSlots on k).1 (List.mem_of_find?_eq_some found)
      have no := alone k hk ne enk
      rw [List.find?_some found] at no
      cases no

theorem State.compete_wins (lower : s.r .canJ19390 (slotNo c n) < leNat f.data) :
    s.compete c n f = s.modCan c fun x => { x with claims := x.claims ++ [s.claimFrame (slotNo c n)] } := by
  unfold State.compete
  exact if_pos lower

/-- A slot that loses its address. -/
def State.slotLost (s : State) (c n : Nat) : State :=
  ((s.setF CAN_J19391.STATE (slotNo c n) 3).setF CAN_J19391.LOST (slotNo c n) 1).modCan c fun x =>
    { x with claims := x.claims.filter fun g => g.id != claimId (s.f CAN_J19391.ADDR (slotNo c n))
             owe := if s.fb CAN_J19391.ARB_CAPABLE (slotNo c n) then x.owe else insNat x.owe n }

theorem State.compete_loses (no : leNat f.data ≤ s.r .canJ19390 (slotNo c n)) : s.compete c n f
    = ((s.slotLost c n).each (List.range 8) fun s q => s.dropLost c q (s.ringSize true (canRing c q))).ownerIrq := by
  unfold State.compete
  exact if_neg (Nat.not_lt.2 no)

theorem State.compete_lost (no : leNat f.data ≤ s.r .canJ19390 (slotNo c n)) : ClaimsKept (s.slotLost c n) (s.compete c n f) := by
  rw [State.compete_loses no]
  refine .trans (t := (s.slotLost c n).each (List.range 8) fun s q => s.dropLost c q (s.ringSize true (canRing c q))) ?_ ?_
  · refine .of_leaves (ps := rtParts) (q := fun r i => rtRegs r i ∨ r = .canRingdb) (.each _ (fun u q => ?_) _ _) (by simp [rtParts, accessParts])
      (by simp [rtRegs, accessRegs])
    exact (State.leaves_dropLost _).mono (List.Subset.refl _) fun _ _ h => h.imp id And.left
  · exact .of_leaves (ps := [.freeCtr, .outbox]) (q := noReg) (.emit (.fresh (.fresh (.refl _ _ _)))) (by simp) (by simp [noReg])

theorem State.slotLost_fields : (s.slotLost c n).f CAN_J19391.STATE (slotNo c n) = 3 ∧ (s.slotLost c n).fb CAN_J19391.LOST (slotNo c n) = true
    ∧ (s.fb CAN_J19391.ARB_CAPABLE (slotNo c n) = false → n ∈ ((s.slotLost c n).canc c).owe) := by
  refine ⟨?_, State.fb_of_f ?_, fun no => ?_⟩
  · rw [State.slotLost, State.modCan_f, State.setF_f_apart _ _ _ _ _ _ (by decide) (by decide), State.setF_f_same _ _ _ _ (by decide)]
    rfl
  · rw [State.slotLost, State.modCan_f, State.setF_f_same _ _ _ _ (by decide)]
    rfl
  · rw [State.slotLost, State.modCan_canc_same, no]
    exact (mem_insNat _ _ _).2 (.inr rfl)

/-! ## A request for claims (R296) -/

/-- What a slot answers to a request. -/
def State.claimAnswer (s : State) (k : Nat) : CanFrame := if s.f CAN_J19391.STATE k = 3 then s.cannotFrame k else s.claimFrame k

/-- The answer of one slot. -/
def State.answerSlot (c dest : Nat) (s : State) (n : Nat) : State :=
  if dest != 0xFF && dest != s.f CAN_J19391.ADDR (slotNo c n) then s
  else s.modCan c fun x => { x with claims := x.claims ++ [s.claimAnswer (slotNo c n)] }

theorem State.answerRequest_eq (dest : Nat) : s.answerRequest c dest = s.each (s.liveSlots c) (State.answerSlot c dest) := (rfl)

theorem State.answerSlot_regs (dest : Nat) : (State.answerSlot c dest s n).regs = s.regs := by
  unfold State.answerSlot
  split <;> rfl

theorem State.answerSlot_claims (dest : Nat) : (s.canc c).claims <+: ((State.answerSlot c dest s n).canc c).claims := by
  unfold State.answerSlot
  split
  · exact List.prefix_refl _
  · rw [State.modCan_canc_same]
    exact List.prefix_append _ _

theorem State.claimAnswer_of (h : t.regs = s.regs) (k : Nat) : t.claimAnswer k = s.claimAnswer k := by
  unfold State.claimAnswer State.cannotFrame State.claimFrame State.f State.r
  rw [h]

theorem State.answerRequest_answers {dest : Nat} (here : n ∈ s.liveSlots c) (asked : dest = 0xFF ∨ dest = s.f CAN_J19391.ADDR (slotNo c n)) :
    s.claimAnswer (slotNo c n) ∈ ((s.answerRequest c dest).canc c).claims := by
  rw [State.answerRequest_eq]
  have prefixes : ∀ (xs : List Nat) (u : State), (u.each xs (State.answerSlot c dest)).regs = u.regs
      ∧ (u.canc c).claims <+: ((u.each xs (State.answerSlot c dest)).canc c).claims := fun xs u =>
    State.each_keeps (P := fun v => v.regs = u.regs ∧ (u.canc c).claims <+: (v.canc c).claims) ⟨rfl, List.prefix_refl _⟩
      fun v k _ ⟨r, p⟩ => ⟨(State.answerSlot_regs dest).trans r, p.trans (State.answerSlot_claims dest)⟩
  obtain ⟨as, bs, e⟩ := List.append_of_mem here
  have parts : s.each (s.liveSlots c) (State.answerSlot c dest)
      = (State.answerSlot c dest (s.each as (State.answerSlot c dest)) n).each bs (State.answerSlot c dest) := by
    rw [e, State.each, List.foldl_append, List.foldl_cons]
    rfl
  obtain ⟨regs, -⟩ := prefixes as s
  rw [parts]
  refine (prefixes bs _).2.subset ?_
  have addr : (s.each as (State.answerSlot c dest)).f CAN_J19391.ADDR (slotNo c n) = s.f CAN_J19391.ADDR (slotNo c n) := by
    unfold State.f State.r
    rw [regs]
  rw [State.answerSlot, if_neg (by rw [addr]; rcases asked with h | h <;> simp [h]), State.modCan_canc_same, State.claimAnswer_of regs]
  exact List.mem_append_right _ List.mem_cons_self

end

end Sys2Proof.Machine
end

section
/-! PROOFS. What O53 says: CAN frames are offered, filtered and routed, and addresses are claimed (R292 to R296). -/

set_option Elab.async false

namespace Sys2Proof.Machine

section
variable {s t : State} {c n : Nat} {f : CanFrame}

/-! ## Bus-off (R292) -/

/-- What a ring's flush looks at and moves. -/
structure RingView where
  prod : Nat
  cons : Nat
  size : Nat
  en : Bool

/-- The view of a queue of a CAN controller. -/
def State.ringView (s : State) (r : Nat) : RingView := ⟨s.f CAN_RINGDB.PROD r, s.f CAN_RINGDB.CONS r, s.ringSize true r, s.fb CAN_RINGCFG0.EN r⟩

/-- The view after a descriptor was consumed. -/
def RingView.next (v : RingView) : RingView := { v with cons := (v.cons + 1) % 2 ^ 32 }

theorem State.ringView_rt {ps : List Part} {r : Nat} (h : Leaves ps rtRegs s t) : t.ringView r = s.ringView r := by
  have same : ∀ x : Fld, x.reg ∈ [Reg.canRingcfg0, .canRingdb] → t.f x r = s.f x r := fun x hx =>
    h.f_same x r (rings_apart x (by simp only [List.mem_cons, List.not_mem_nil, or_false] at hx ⊢; tauto) r)
  have size : t.ringSize true r = s.ringSize true r := by
    rw [State.ringSize, State.ringSize, (sameRing_rt (k := true) h).size]
  rw [State.ringView, State.ringView, same CAN_RINGDB.PROD (by decide), same CAN_RINGDB.CONS (by decide), size, State.fb_eq,
    same CAN_RINGCFG0.EN (by decide), State.fb_eq]

theorem State.ringView_consumes (r : Nat) : (s.incWrap CAN_RINGDB.CONS r 1).ringView r = (s.ringView r).next := by
  have size : (s.incWrap CAN_RINGDB.CONS r 1).ringSize true r = s.ringSize true r := by
    rw [State.ringSize, State.ringSize]
    exact congrArg (fun n => 2 ^ (n + 6)) (State.incWrap_f_beside _ _ _ _ _ r (by decide) (by decide))
  rw [State.ringView, State.incWrap_f_beside _ _ _ _ _ r (by decide) (by decide), State.incWrap_f_same _ _ _ _ (by decide), size, State.fb_eq,
    State.incWrap_f_beside _ _ _ _ _ r (by decide) (by decide)]
  rfl

theorem State.emit_ringView (o : Out) (r : Nat) : (s.emit o).ringView r = s.ringView r := (rfl)

theorem State.ringView_canWb {r : Nat} {d : List Nat} (st ts frac : Nat) : (s.canWb r d st ts frac).ringView r = (s.ringView r).next := by
  have wrote := State.leaves_pieces (s := s) (k := true) (s.descAt true r (s.f (rgCons true) r)) (s.f (rgInst true) r)
    [(0, toLE 8 ts), (16, toLE 8 (bits (wordAt d 2) 63 32 * 2 ^ 32 + frac * 2 ^ 16 + st * 2 ^ 8 + wordAt d 2 % 256))]
  rw [State.canWb, State.writeBack, State.emit_ringView, ← State.ringView_rt wrote]
  exact State.ringView_consumes r

/-- A flush brings CONS to PROD where it may take that many records. -/
theorem State.flushQueue_flushes (r st m : Nat) (few : dist32 (s.ringView r).prod (s.ringView r).cons ≤ m) :
    ((s.flushQueue r st m).ringView r).cons = (s.ringView r).prod := by
  have limits : ∀ u : State, (u.ringView r).prod < 2 ^ 32 ∧ (u.ringView r).cons < 2 ^ 32 := fun u =>
    ⟨u.f_lt CAN_RINGDB.PROD r, u.f_lt CAN_RINGDB.CONS r⟩
  induction m generalizing s with
  | zero =>
    obtain ⟨p, q⟩ := limits s
    unfold dist32 at few
    rw [State.flushQueue]
    omega
  | succ m ih =>
    unfold State.flushQueue
    by_cases done : s.f CAN_RINGDB.PROD r = s.f CAN_RINGDB.CONS r
    · rw [if_pos done]
      exact done.symm
    · rw [if_neg done]
      have goes : ∀ u : State, u.ringView r = (s.ringView r).next → ((u.flushQueue r st m).ringView r).cons = (s.ringView r).prod := fun u hu => by
        rw [ih, hu, RingView.next]
        rw [hu, RingView.next]
        obtain ⟨p, q⟩ := limits s
        have ne : (s.ringView r).prod ≠ (s.ringView r).cons := done
        unfold dist32 at few ⊢
        dsimp only
        omega
      have head := s.leaves_headDesc (k := true) (r := r)
      split <;> rename_i e <;> rw [e] at head
      · exact goes _ ((State.ringView_canWb _ _ _).trans (congrArg RingView.next (State.ringView_rt head)))
      · exact goes _ ((State.ringView_consumes r).trans (congrArg RingView.next (State.ringView_rt head)))

theorem State.leaves_flushQueue (r st m : Nat) : Leaves rtParts (ringRegs true r) s (s.flushQueue r st m) := by
  induction m generalizing s with
  | zero => exact .refl _ _ s
  | succ m ih =>
    have head : Leaves rtParts (ringRegs true r) s _ := (s.leaves_headDesc (k := true) (r := r)).mono (List.Subset.refl _) fun _ _ h => .inl h
    unfold State.flushQueue
    refine .ite (.refl _ _ s) ?_
    split <;> rename_i e <;> rw [e] at head
    · exact (head.trans (State.leaves_canWb _ _ _)).trans ih
    · exact .trans (.incWrap head (.inr ⟨rfl, rfl⟩)) ih

/-- The flush of one queue. -/
def State.flushOne (c : Nat) (s : State) (q : Nat) : State :=
  if s.fb CAN_RINGCFG0.EN (canRing c q) then s.flushQueue (canRing c q) rsBusOff (s.ringSize true (canRing c q)) else s

theorem State.leaves_flushOne (q : Nat) : Leaves rtParts (ringRegs true (canRing c q)) s (State.flushOne c s q) := by
  unfold State.flushOne
  exact .ite (State.leaves_flushQueue _ _ _) (.refl _ _ s)

theorem State.flushOne_beside {q b : Nat} (ne : b ≠ q) : (State.flushOne c s q).ringView (canRing c b) = s.ringView (canRing c b) := by
  have left := State.leaves_flushOne (s := s) (c := c) q
  have apart : canRing c b ≠ canRing c q := by
    unfold canRing
    omega
  have same : ∀ x : Fld, x.reg ∈ [Reg.canRingcfg0, .canRingdb] → (State.flushOne c s q).f x (canRing c b) = s.f x (canRing c b) := fun x hx =>
    left.f_same x _ fun h => h.elim
      (rings_apart x (by simp only [List.mem_cons, List.not_mem_nil, or_false] at hx ⊢; tauto) _) fun h => apart h.2
  have size : (State.flushOne c s q).ringSize true (canRing c b) = s.ringSize true (canRing c b) := by
    rw [State.ringSize, State.ringSize]
    exact congrArg (fun n => 2 ^ (n + 6)) (same CAN_RINGCFG0.SIZE_LOG2 (by decide))
  rw [State.ringView, State.ringView, same CAN_RINGDB.PROD (by decide), same CAN_RINGDB.CONS (by decide), size, State.fb_eq,
    same CAN_RINGCFG0.EN (by decide), State.fb_eq]

/-- A controller that has gone bus-off. -/
def State.goneOff (s : State) (c : Nat) : State := (s.setF CAN_CTRL.FC_STATE c 2).incSat CAN_STAT.BUSOFF c 1

theorem busOff_runs (hc : c < 20) (en : s.fb CAN_CTRL.EN c = true) (live : s.f CAN_CTRL.FC_STATE c ≠ 2) :
    exec (.busOff c) s = .next ((s.goneOff c).each (List.range 8) (State.flushOne c)) := by
  rw [exec_busOff, execBusOff, decide_eq_true hc, unit_true, if_neg]
  · rfl
  · simp [State.busOff_eq live, en]

theorem busOff_ignored (hc : c < 20) (off : s.fb CAN_CTRL.EN c = false ∨ s.f CAN_CTRL.FC_STATE c = 2) : exec (.busOff c) s = .next s := by
  rw [exec_busOff, execBusOff, decide_eq_true hc, unit_true, if_pos]
  simpa [State.busOff] using off

theorem State.leaves_goneOff : Leaves [] (fun r i => (r = .canCtrl ∨ r = .canStat) ∧ i = c) s (s.goneOff c) :=
  .incSat (.setF (.refl _ _ s) ⟨.inl rfl, rfl⟩) ⟨.inr rfl, rfl⟩

theorem State.goneOff_same (x : Fld) (hx : x.reg ∈ [Reg.canRingcfg0, .canRingdb]) (k : Nat) : (s.goneOff c).f x k = s.f x k := by
  refine State.leaves_goneOff.f_same x k fun h => ?_
  simp only [List.mem_cons, List.not_mem_nil, or_false] at hx
  rcases hx with e | e <;> simp [e] at h

theorem State.goneOff_view (r : Nat) : (s.goneOff c).ringView r = s.ringView r := by
  have size : (s.goneOff c).ringSize true r = s.ringSize true r := by
    rw [State.ringSize, State.ringSize]
    exact congrArg (fun n => 2 ^ (n + 6)) (State.goneOff_same CAN_RINGCFG0.SIZE_LOG2 (by decide) r)
  rw [State.ringView, State.ringView, State.goneOff_same CAN_RINGDB.PROD (by decide), State.goneOff_same CAN_RINGDB.CONS (by decide), size,
    State.fb_eq, State.goneOff_same CAN_RINGCFG0.EN (by decide), State.fb_eq]

theorem State.goneOff_flushed {q : Nat} (hq : q < 8) (en : (s.ringView (canRing c q)).en = true)
    (few : dist32 (s.ringView (canRing c q)).prod (s.ringView (canRing c q)).cons ≤ (s.ringView (canRing c q)).size) :
    (((s.goneOff c).each (List.range 8) (State.flushOne c)).ringView (canRing c q)).cons = (s.ringView (canRing c q)).prod := by
  have flushed := (State.each_named (v := fun u b => u.ringView (canRing c b)) (g := State.flushOne c) (key := id) (xs := List.range 8)
    (P := fun _ x y => x.en = true → dist32 x.prod x.cons ≤ x.size → y.cons = x.prod) (fun u x b hb => State.flushOne_beside hb)
    (fun u x on few => by
      rw [State.flushOne, if_pos (show u.fb CAN_RINGCFG0.EN (canRing c x) = true from on)]
      exact State.flushQueue_flushes _ _ _ few)
    (by rw [List.map_id]; exact List.nodup_range) (s.goneOff c)).1 q (List.mem_range.2 hq)
  rw [id, State.goneOff_view] at flushed
  exact flushed en few

/-- The registers that bus-off changes. -/
abbrev busOffRegs (s : State) (c : Nat) (x : Reg) (i : Nat) : Prop := rtRegs x i ∨ ((x = .canCtrl ∨ x = .canStat) ∧ i = c)
  ∨ (x = .canRingdb ∧ ∃ q, q < 8 ∧ i = canRing c q ∧ s.fb CAN_RINGCFG0.EN i = true)

theorem State.leaves_flushed : Leaves rtParts (fun x i => rtRegs x i ∨ (x = .canRingdb ∧ ∃ q, q < 8 ∧ i = canRing c q ∧ s.fb CAN_RINGCFG0.EN i = true))
    (s.goneOff c) ((s.goneOff c).each (List.range 8) (State.flushOne c)) := by
  refine (State.each_keeps (P := fun t => Leaves rtParts (fun x i => rtRegs x i ∨ (x = .canRingdb ∧ ∃ q, q < 8 ∧ i = canRing c q
    ∧ s.fb CAN_RINGCFG0.EN i = true)) (s.goneOff c) t) (.refl _ _ _) fun t q hq left => ?_)
  by_cases on : t.fb CAN_RINGCFG0.EN (canRing c q) = true
  · have was : s.fb CAN_RINGCFG0.EN (canRing c q) = true := by
      rw [State.fb_eq, left.f_same CAN_RINGCFG0.EN _ (by simp [CAN_RINGCFG0.EN, rtRegs, accessRegs]), State.goneOff_same _ (by decide), ← State.fb_eq] at on
      exact on
    refine left.trans ((State.leaves_flushOne q).mono (List.Subset.refl _) fun _ _ h => h.imp id fun ⟨r, i⟩ => ⟨r, q, List.mem_range.1 hq, i, i ▸ was⟩)
  · rw [State.flushOne, if_neg on]
    exact left

theorem State.busOff_leaves : Leaves rtParts (busOffRegs s c) s ((s.goneOff c).each (List.range 8) (State.flushOne c)) :=
  (State.leaves_goneOff.mono (by simp) fun _ _ h => .inr (.inl h)).trans
    (State.leaves_flushed.mono (List.Subset.refl _) fun _ _ h => h.imp id fun h => .inr h)

theorem State.busOff_fields : ((s.goneOff c).each (List.range 8) (State.flushOne c)).f CAN_CTRL.FC_STATE c = 2
    ∧ ((s.goneOff c).each (List.range 8) (State.flushOne c)).f CAN_STAT.BUSOFF c = min (s.f CAN_STAT.BUSOFF c + 1) 0xFFFF := by
  constructor
  · rw [State.leaves_flushed.f_same CAN_CTRL.FC_STATE c (by simp [CAN_CTRL.FC_STATE, rtRegs, accessRegs]), State.goneOff,
      State.incSat_f_beside _ _ _ _ _ c (by decide) (by decide), State.setF_f_same _ _ _ _ (by decide)]
    rfl
  · rw [State.leaves_flushed.f_same CAN_STAT.BUSOFF c (by simp [CAN_STAT.BUSOFF, rtRegs, accessRegs]), State.goneOff,
      counted _ _ (by decide) (by decide), State.setF_f_apart _ _ _ _ _ _ (by decide) (by decide)]

/-- A controller that rejoins is error active, with its error counts at zero. -/
theorem busOffRecovery_rejoins (hc : c < 20) (off : s.f CAN_CTRL.FC_STATE c = 2) (auto : s.fb CAN_CTRL.AUTO_RECOVER c = true) :
    ∃ t, exec (.busOffRecovery c) s = .next t ∧ t.f CAN_CTRL.FC_STATE c = 0 ∧ t.f CAN_CTRL.TEC c = 0 ∧ t.f CAN_CTRL.REC c = 0
      ∧ Leaves [] (oneReg .canCtrl c) s t := by
  refine ⟨((s.setF CAN_CTRL.FC_STATE c 0).setF CAN_CTRL.TEC c 0).setF CAN_CTRL.REC c 0, ?_, ?_, ?_, ?_,
    .setF (.setF (.setF (.refl _ _ s) ⟨rfl, rfl⟩) ⟨rfl, rfl⟩) ⟨rfl, rfl⟩⟩
  · rw [exec_busOffRecovery, execBusOffRecovery, decide_eq_true hc, unit_true, if_pos (by simp [State.busOff, off, auto])]
  · rw [State.setF_f_apart _ _ _ _ _ _ (by decide) (by decide), State.setF_f_apart _ _ _ _ _ _ (by decide) (by decide),
      State.setF_f_same _ _ _ _ (by decide), Nat.zero_mod]
  · rw [State.setF_f_apart _ _ _ _ _ _ (by decide) (by decide), State.setF_f_same _ _ _ _ (by decide), Nat.zero_mod]
  · rw [State.setF_f_same _ _ _ _ (by decide), Nat.zero_mod]

theorem busOffRecovery_waits (hc : c < 20) (no : s.f CAN_CTRL.FC_STATE c ≠ 2 ∨ s.fb CAN_CTRL.AUTO_RECOVER c = false) :
    exec (.busOffRecovery c) s = .next s := by
  rw [exec_busOffRecovery, execBusOffRecovery, decide_eq_true hc, unit_true, if_neg]
  rcases no with h | h <;> simp [State.busOff, h]

end

end Sys2Proof.Machine
end

section
/-! PROOFS. What O53 says: CAN frames are offered, filtered and routed, and addresses are claimed (R292 to R296). -/

set_option Elab.async false

namespace Sys2Proof.Machine

section
variable {s t : State} {c n : Nat} {f : CanFrame} {v : Word} {m : Master}

/-! ## Claims of a slot (R296) -/

theorem bits_withBit_addr : bits (withBit v 55) 63 56 = bits v.toNat 63 56 := bits_putBits_above _ _ _ _ _ _ (by omega) (by omega)

/-- A slot that claims: its claim is queued, and its hold time runs. -/
def State.slotClaims (s : State) (c n : Nat) : State :=
  (s.setF CAN_J19391.STATE (slotNo c n) 1).modCan c fun x =>
    { x with claimNs := NMap.insert x.claimNs n s.now, owe := delNat x.owe n
             claims := x.claims ++ [s.claimFrame (slotNo c n)] }

theorem State.claimWrite_claims {u : State} {old new : Nat} (hn : n < 8) (on : bit new 55 = true)
    (news : bit old 55 = false ∨ bits old 63 56 ≠ bits new 63 56) : u.claimWrite (slotNo c n) old new = u.slotClaims c n := by
  unfold State.claimWrite
  dsimp only
  rw [if_pos (by rcases news with h | h <;> simp [on, h]), slotNo_div hn, slotNo_mod hn]
  rfl

/-- The write that enables a slot or changes its address starts a claim. -/
theorem addressClaim_claims (hc : c < 20) (hn : n < 8) (acc : s.accepts .canJ19391 (slotNo c n) m .whole (withBit v 55))
    (news : s.fb CAN_J19391.EN (slotNo c n) = false ∨ s.f CAN_J19391.ADDR (slotNo c n) ≠ bits v.toNat 63 56) :
    exec (.addressClaim m c n v) s = .next ((s.wrote (slotNo c n) (withBit v 55) .canJ19391).slotClaims c n) := by
  have on : bit (s.merged .canJ19391 (slotNo c n) .whole (withBit v 55)) 55 = true := by
    rw [bit, s.merged_rw .canJ19391 (slotNo c n) .whole _ 55 55 (by simp [Reg.fieldsAt, Reg.fields])]
    exact beq_iff_eq.2 (bits_withBit v 55)
  have addr : bits (s.merged .canJ19391 (slotNo c n) .whole (withBit v 55)) 63 56 = bits v.toNat 63 56 := by
    rw [s.merged_rw .canJ19391 (slotNo c n) .whole _ 63 56 (by simp [Reg.fieldsAt, Reg.fields])]
    exact bits_withBit_addr
  rw [exec_addressClaim, execAddressClaim, decide_eq_true hc, decide_eq_true hn, Bool.and_self, unit_true,
    State.regWrite_whole s .canJ19391 (slotNo c n) _ m acc (by decide) (by simp [State.hitsLock, Reg.fieldsAt, Reg.fields]) rfl,
    State.afterWrite]
  exact congrArg _ (State.claimWrite_claims hn on (news.imp id fun ne => by rw [addr]; exact ne))

theorem addressClaim_starts (hc : c < 20) (hn : n < 8) (acc : s.accepts .canJ19391 (slotNo c n) m .whole (withBit v 55))
    (news : s.fb CAN_J19391.EN (slotNo c n) = false ∨ s.f CAN_J19391.ADDR (slotNo c n) ≠ bits v.toNat 63 56) :
    ∃ t, exec (.addressClaim m c n v) s = .next t ∧ t.f CAN_J19391.STATE (slotNo c n) = 1
      ∧ t.fb CAN_J19391.EN (slotNo c n) = true ∧ t.f CAN_J19391.ADDR (slotNo c n) = bits v.toNat 63 56
      ∧ (t.canc c).claims = (s.canc c).claims
          ++ [{ id := 0x18EEFF00 + bits v.toNat 63 56, fmt := 1, data := toLE 8 (s.r .canJ19390 (slotNo c n)) }]
      ∧ NMap.get (t.canc c).claimNs 0 n = s.now ∧ Leaves [.can] (oneReg .canJ19391 (slotNo c n)) s t := by
  have addr : (s.wrote (slotNo c n) (withBit v 55) .canJ19391).f CAN_J19391.ADDR (slotNo c n) = bits v.toNat 63 56 :=
    (s.wrote_rw (slotNo c n) _ CAN_J19391.ADDR (by simp [Reg.fieldsAt, Reg.fields, CAN_J19391.ADDR])).trans bits_withBit_addr
  have en : (s.wrote (slotNo c n) (withBit v 55) .canJ19391).f CAN_J19391.EN (slotNo c n) = 1 :=
    (s.wrote_rw (slotNo c n) _ CAN_J19391.EN (by simp [Reg.fieldsAt, Reg.fields, CAN_J19391.EN])).trans (bits_withBit v 55)
  have name : (s.wrote (slotNo c n) (withBit v 55) .canJ19391).r .canJ19390 (slotNo c n) = s.r .canJ19390 (slotNo c n) :=
    (s.leaves_wrote (slotNo c n) (withBit v 55) .canJ19391).2 _ _ fun h => by cases h.1
  refine ⟨_, addressClaim_claims hc hn acc news, ?_, State.fb_of_f ?_, ?_, ?_, ?_,
    .modCan (.setF ((s.leaves_wrote _ _ _).mono (by simp) fun _ _ h => h) ⟨rfl, rfl⟩)⟩
  · rw [State.slotClaims, State.modCan_f, State.setF_f_same _ _ _ _ (by decide)]
    rfl
  · rw [State.slotClaims, State.modCan_f, State.setF_f_apart _ _ _ _ _ _ (by decide) (by decide), en]
  · rw [State.slotClaims, State.modCan_f, State.setF_f_apart _ _ _ _ _ _ (by decide) (by decide), addr]
  · rw [State.slotClaims, State.modCan_canc_same, State.setF_canc, (s.leaves_wrote _ _ _).canc_same (by simp), State.claimFrame, claimId, addr, name]
  · rw [State.slotClaims, State.modCan_canc_same, NMap.get_insert, if_pos rfl, State.wrote, State.setR_now]

section
variable (hc : c < 20) (hn : n < 8)
include hc hn

theorem claimHoldExpiry_holds (claims : s.f CAN_J19391.STATE (slotNo c n) = 1)
    (due : reached s.now (NMap.get (s.canc c).claimNs 0 n + 250000000) = true) :
    exec (.claimHoldExpiry c n) s = .next (s.setF CAN_J19391.STATE (slotNo c n) 2) := by
  rw [exec_claimHoldExpiry, execClaimHoldExpiry, decide_eq_true hc, decide_eq_true hn, Bool.and_self, unit_true]
  dsimp only
  rw [claims, due]
  rfl

theorem claimHoldExpiry_waits (no : s.f CAN_J19391.STATE (slotNo c n) ≠ 1 ∨ reached s.now (NMap.get (s.canc c).claimNs 0 n + 250000000) = false) :
    exec (.claimHoldExpiry c n) s = .next s := by
  rw [exec_claimHoldExpiry, execClaimHoldExpiry, decide_eq_true hc, decide_eq_true hn, Bool.and_self, unit_true]
  dsimp only
  rcases no with h | h
  · rw [decide_eq_false h]
    rfl
  · rw [h, Bool.and_false]
    rfl

theorem cannotClaim_sends (owes : n ∈ (s.canc c).owe) : exec (.cannotClaim c n) s
    = .next (s.modCan c fun x => { x with owe := delNat x.owe n, claims := x.claims ++ [s.cannotFrame (slotNo c n)] }) := by
  rw [exec_cannotClaim, execCannotClaim, decide_eq_true hc, decide_eq_true hn, Bool.and_self, unit_true, List.contains_iff_mem.2 owes, if_pos rfl]

theorem cannotClaim_idle (no : n ∉ (s.canc c).owe) : exec (.cannotClaim c n) s = .next s := by
  rw [exec_cannotClaim, execCannotClaim, decide_eq_true hc, decide_eq_true hn, Bool.and_self, unit_true, if_neg]
  rwa [List.contains_iff_mem]

end

/-- A claim of the address of the only slot that holds it. -/
theorem canFrameReceive_competes (hc : c < 20) (en : s.fb CAN_CTRL.EN c = true) (live : s.f CAN_CTRL.FC_STATE c ≠ 2) (on : s.fb CAN_CTRL.J1939 c = true)
    (hn : n < 8) (enabled : s.fb CAN_J19391.EN (slotNo c n) = true) (ext : isExt f.fmt = true)
    (id : f.id = 0x18EEFF00 + s.f CAN_J19391.ADDR (slotNo c n)) (held : s.f CAN_J19391.STATE (slotNo c n) ≠ 3)
    (alone : ∀ k, k < 8 → k ≠ n → s.fb CAN_J19391.EN (slotNo c k) = true → s.f CAN_J19391.ADDR (slotNo c k) ≠ s.f CAN_J19391.ADDR (slotNo c n)) :
    ∃ t, exec (.canFrameReceive c f) s = .next t ∧ ClaimsKept (s.compete c n f) t := by
  have small : s.f CAN_J19391.ADDR (slotNo c n) < 256 := State.f_lt ..
  have source : f.id % 256 = s.f CAN_J19391.ADDR (slotNo c n) := by omega
  have judged : s.j1939Receive c f = s.compete c n f := by
    refine State.j1939Receive_claim ext (by omega) (State.find_slot on hn enabled (by simp [source, held]) fun k hk ne enk => ?_)
    simp only [source, beq_eq_false_iff_ne.2 (alone k hk ne enk), Bool.false_and]
  exact ⟨_, canFrameReceive_takes hc en live, judged ▸ State.canReceive_keeps⟩

/-- A request for claims to every address, or to that of the slot. -/
theorem canFrameReceive_requests (hc : c < 20) (en : s.fb CAN_CTRL.EN c = true) (live : s.f CAN_CTRL.FC_STATE c ≠ 2) (on : s.fb CAN_CTRL.J1939 c = true)
    (hn : n < 8) (enabled : s.fb CAN_J19391.EN (slotNo c n) = true) (ext : isExt f.fmt = true) (pgn : f.id / 65536 % 1024 = 0xEA)
    (asks : leAt f.data 0 3 = 0xEE00) (asked : f.id / 256 % 256 = 0xFF ∨ f.id / 256 % 256 = s.f CAN_J19391.ADDR (slotNo c n)) :
    ∃ t, exec (.canFrameReceive c f) s = .next t ∧ s.claimAnswer (slotNo c n) ∈ (t.canc c).claims := by
  have judged : s.j1939Receive c f = s.answerRequest c (f.id / 256 % 256) := State.j1939Receive_request ext (by omega) pgn asks
  have kept : ClaimsKept (s.answerRequest c (f.id / 256 % 256)) (s.canReceive c f) := judged ▸ State.canReceive_keeps
  refine ⟨_, canFrameReceive_takes hc en live, ?_⟩
  rw [kept.claims]
  exact State.answerRequest_answers ((State.mem_liveSlots on n).2 ⟨hn, enabled⟩) asked

end

/-- Settles O53: the lowest identifier wins as the fold over the offers keeps it, the claim logic runs before a frame's action and is
left alone by it, and a flush consumes one record of its own queue at a time. -/
theorem canFramesAreOfferedFilteredAndRouted : Obligations.CanFramesAreOfferedFilteredAndRouted := by
  unfold Obligations.CanFramesAreOfferedFilteredAndRouted
  refine ⟨fun s c f hc => ⟨fun off => ⟨canArbitration_off hc (off.imp id .inl), canFrameReceive_off hc off, busOff_ignored hc off⟩,
      fun mode => canArbitration_off hc (.inr (.inr mode))⟩,
    fun s s1 c os hc en live sends offers => ⟨canArbitration_idle hc en live sends offers, fun src d f here least => ?_⟩,
    fun s c f fs hc en live sends empty route claims => ?_, fun s c act ring f hc en live off first => ?_,
    fun s s1 s2 c e f d xs hc en live off base count here first => ?_,
    fun s c n f hc en live on hn enabled ext => ⟨fun id held alone => ?_, fun pgn asks asked => ?_⟩,
    fun s c hc en live => ⟨_, busOff_runs hc en live, State.busOff_fields.1, State.busOff_fields.2,
      fun q hq on few => State.goneOff_flushed hq on few, State.busOff_leaves⟩,
    fun s c hc => ⟨busOffRecovery_rejoins hc, busOffRecovery_waits hc⟩,
    fun s m c n v hc hn acc news => addressClaim_starts hc hn acc news,
    fun s c n hc hn => ⟨fun claims due => ⟨_, claimHoldExpiry_holds hc hn claims due, ?_, ?_, .setF (.refl _ _ s) ⟨rfl, rfl⟩⟩,
      claimHoldExpiry_waits hc hn, fun owes => ⟨_, cannotClaim_sends hc hn owes, ?_, ?_, .modCan (.refl _ _ s)⟩, cannotClaim_idle hc hn⟩⟩
  · have run := canArbitration_sends hc en live sends offers (lowestOffer_least here least)
    have left := State.leaves_canOffers offers
    have same : SameSwitch s s1 := switch_of_parts left fun _ hp => List.mem_append_right _ hp
    refine ⟨fun from_ => ⟨_, run, ?_⟩, fun from_ => ⟨_, run, ?_⟩, fun q bs s2 from_ read => ⟨_, run, ?_⟩⟩ <;> subst from_
    · rw [State.sendOffer_route]
      exact ⟨rfl, by rw [State.emit_canc, State.modCan_canc_same], .emit (.modCan (.refl _ _ s1))⟩
    · rw [State.sendOffer_claim]
      exact ⟨rfl, by rw [State.emit_canc, State.modCan_canc_same], .emit (.modCan (.refl _ _ s1))⟩
    · rw [← same.now, ← same.clock]
      exact State.sendOffer_sends read
  · have offers : s.canOffers c = ([(.route, [], f)], s) := by
      rw [State.canOffers_empty empty, CanSt.offers, route, claims]
      rfl
    refine ⟨_, canArbitration_sends hc en live sends offers (o := (.route, [], f)) rfl, ?_⟩
    rw [State.sendOffer_route]
    refine ⟨rfl, by rw [State.emit_canc, State.modCan_canc_same, route]; rfl, fun k ne => ?_, .emit (.modCan (.refl _ _ s))⟩
    rw [State.emit_canc, State.modCan_canc_ne _ ne]
  · have judged : s.j1939Receive c f = s := State.j1939Receive_off off
    have run := canFrameReceive_takes (f := f) hc en live
    obtain ⟨u, left, acts⟩ : ∃ u, Leaves [.freeCtr] noReg s u
        ∧ ∃ dest k, s.canReceive c f = u.canAction c act ring dest k f := by
      rcases first with ⟨e, lo, hi, here, before, ha, hr⟩ | ⟨none, ha, hr⟩
      · exact ⟨s, .refl _ _ s, _, _, by rw [State.canReceive_entry judged (State.fltrFor_first lo hi here before), State.entryAction, ha, hr]⟩
      · exact ⟨_, .fresh (.fresh (.refl _ _ s)), _, _, by rw [State.canReceive_default judged (State.fltrFor_none none), State.defaultAction, ha, hr]⟩
    obtain ⟨dest, k, acts⟩ := acts
    refine ⟨fun zero => ⟨_, run, ?_⟩, fun two xl => ⟨_, run, ?_, ?_⟩, fun one small on full => ⟨_, run, ?_, ?_⟩⟩
    · rw [acts, zero, State.canAction_drops]
      exact left
    · rw [acts, two, State.canAction_untunneled _ _ _ xl, counted _ _ (by decide) (by decide), left.f_same _ _ (fun h => h)]
    · rw [acts, two, State.canAction_untunneled _ _ _ xl]
      exact .incSat (left.mono (List.Subset.refl _) fun _ _ no => no.elim) ⟨rfl, rfl⟩
    all_goals
      have on' : u.fb CAN_RINGCFG0.EN (canRing c (8 + ring)) = true := by rw [State.fb_eq, left.f_same _ _ (fun h => h), ← State.fb_eq]; exact on
      have full' : u.ringHas true (canRing c (8 + ring)) = false := by
        rw [State.ringHas, State.fb_eq, left.f_same _ _ (fun h => h), left.f_same _ _ (fun h => h), left.f_same _ _ (fun h => h), ← State.fb_eq]
        exact full
      rw [acts, one, State.canAction_delivers, State.canDeliver_full small on' full']
    · rw [counted _ _ (by decide) (by decide), left.f_same _ _ (fun h => h)]
    · exact .incSat (left.mono (List.Subset.refl _) fun _ _ no => no.elim) ⟨rfl, rfl⟩
  · have run := canFrameReceive_takes (f := f) hc en live
    have acts := State.canReceive_entry (State.j1939Receive_off (f := f) off) (State.fltrFor_first base count here first)
    refine ⟨fun one small head has wrote => ⟨_, run, ?_⟩, fun two short tun out none fits more waits => ⟨_, run, ?_⟩,
      fun b four dest hb => ⟨fun room bus carries on => ⟨_, run, ?_⟩, fun no => ⟨_, run, ?_⟩⟩⟩
    · rw [acts, State.entryAction, one, State.canAction_delivers, State.canDeliver_fills small has head wrote]
      exact State.writeBack_consumed _
    · rw [acts, State.entryAction, two, State.canAction_tunnels _ _ _ short, State.tunnelMsg_begins tun out none fits more waits]
      exact ⟨by rw [State.modTun_tun, if_pos rfl]; rfl, .modTun (.refl _ _ s)⟩
    · rw [acts, State.entryAction, four, State.canAction_routes, ← dest, State.routeTo_enters room bus carries on hb]
      exact ⟨State.modCan_canc_same _ _, fun k ne => State.modCan_canc_ne _ ne, .modCan (.refl _ _ s)⟩
    · rw [acts, State.entryAction, four, State.canAction_routes, ← dest, State.routeTo_drops no]
      exact ⟨counted _ _ (by decide) (by decide), .incSat (.refl _ _ s) ⟨rfl, rfl⟩⟩
  · obtain ⟨t, run, kept⟩ := canFrameReceive_competes hc en live on hn enabled ext id held alone
    refine ⟨t, run, fun lower => ?_, fun no => ?_⟩
    · rw [State.compete_wins lower] at kept
      exact ⟨kept.slots _, by rw [kept.claims, State.modCan_canc_same]⟩
    · have lost := (State.compete_lost no).trans kept
      obtain ⟨state, bit_, owes⟩ := State.slotLost_fields (s := s) (c := c) (n := n)
      have same : ∀ x : Fld, x.reg = .canJ19391 → t.f x (slotNo c n) = (s.slotLost c n).f x (slotNo c n) := fun x hx => by
        rw [State.f, State.f, hx, lost.slots]
      exact ⟨(same _ rfl).trans state, by rw [State.fb_eq, same _ rfl, ← State.fb_eq]; exact bit_, fun arb => by rw [lost.owe]; exact owes arb⟩
  · obtain ⟨t, run, answer⟩ := canFrameReceive_requests hc en live on hn enabled ext pgn asks asked
    rw [State.claimAnswer] at answer
    exact ⟨t, run, fun held => by rwa [if_neg held] at answer, fun lost => by rwa [if_pos lost] at answer⟩
  · rw [State.setF_f_same _ _ _ _ (by decide)]
    rfl
  · rw [State.setF_f_apart _ _ _ _ _ _ (by decide) (by decide)]
  · rw [State.modCan_canc_same]
    rfl
  · rw [State.modCan_canc_same]
    simp [mem_delNat]

end Sys2Proof.Machine
end

section
/-! PROOFS. O54: a tunnel table in the lower half of a mirrored region, while a line of the upper half lies written in the cache. -/

set_option Elab.async false

namespace Sys2Proof.Machine

/-- Region 0 mirrors the first 16 MB of DRAM, and the system cache holds a written line of its upper half, the copy of line 0,
in the one way of partition 8. -/
def mirrorTable : State :=
  let s := ((((((State.reset.setF MEM_CTRL.READY 0 1).setF MEM_RGN0.BASE 0 0).setF MEM_RGN1.LIMIT 0 7).setF MEM_RGN1.MIRROR 0 1).setF
    MEM_RGN1.EN 0 1).setF MEM_CWAYS.WAYS 8 1)
  { s with mem.cells := [(dramBase + 2 ^ 23 + 32, 1)]
           mem.cache := [{ line := 65536, way := 0, dirty := true, used := 0 }] }

/-- The write of CAN_TUNCFG that reads the table from the start of DRAM. -/
def tableAtStart : Word := BitVec.ofNat 64 dramBase

theorem tableAtStart_base : bits tableAtStart.toNat 63 6 * 64 = dramBase := by decide +kernel

theorem mirrorTable_accepts : mirrorTable.accepts .canTuncfg 0 .manager .whole (withBit tableAtStart 5) :=
  ⟨⟨by decide +kernel, by decide, by decide⟩, by decide +kernel, by decide +kernel, by decide +kernel, by decide +kernel, by decide +kernel⟩

section
variable {a : Nat} (from_ : dramBase ≤ a) (upTo : a < dramBase + 2048)
include from_ upTo

theorem mirrorTable_place : mirrorTable.place a = .dram (a - dramBase) := by
  have usable : mirrorTable.usable = 4 * 7 * 2 ^ 30 := by decide +kernel
  have ready : mirrorTable.fb MEM_CTRL.READY 0 = true := by decide +kernel
  unfold dramBase at from_ upTo
  unfold State.place
  rw [if_neg (by omega), if_neg (by omega), if_neg (by omega), if_neg (by omega), if_neg (by omega), if_neg (by unfold dramBase; omega),
    if_pos (by unfold dramBase; rw [usable]; omega), if_pos ready]

theorem mirrorTable_region : mirrorTable.regionOf (a - dramBase) = some 0 := by
  have en : mirrorTable.fb MEM_RGN1.EN 0 = true := by decide +kernel
  have base : mirrorTable.f MEM_RGN0.BASE 0 = 0 := by decide +kernel
  have first : List.range 32 = 0 :: List.range' 1 31 := by decide
  have low : (a - dramBase) / 2 ^ 21 = 0 := by omega
  rw [State.regionOf, first, List.find?_cons_of_pos]
  rw [en, base, low]
  simp

theorem mirrorTable_carved : mirrorTable.carved (a - dramBase) = false := by
  have spare : mirrorTable.mem.spareArea = false := by decide +kernel
  have base : mirrorTable.f MEM_RGN0.BASE 0 = 0 := by decide +kernel
  have tag : mirrorTable.fb MEM_RGN1.TAG 0 = false := by decide +kernel
  have size : mirrorTable.regionBytes 0 = 2 ^ 24 := by decide +kernel
  have low : ¬ 2 ^ 24 / 2 ≤ a - dramBase - 0 * 2 ^ 21 := by omega
  unfold State.carved
  rw [mirrorTable_region from_ upTo, State.inSpare, spare]
  dsimp only
  rw [tag, base, size, decide_eq_false low]
  simp

theorem mirrorTable_tagGood (bs : List Byte) : mirrorTable.tagGood ((a - dramBase) / 128) bs = true := by
  have tag : mirrorTable.fb MEM_RGN1.TAG 0 = false := by decide +kernel
  have region := mirrorTable_region (a := 128 * ((a - dramBase) / 128) + dramBase) (by omega) (by omega)
  rw [Nat.add_sub_cancel] at region
  have none : mirrorTable.tagRegion ((a - dramBase) / 128) = .none := by
    rw [State.tagRegion, region]
    dsimp only
    rw [tag, if_neg Bool.false_ne_true]
  rw [State.tagGood, none]

end

/-- The stream that a write has read for tunnel entry 1. -/
def streamOne (r : Res) : Option Nat :=
  match r with
  | .next t => some (t.tun 1).stream
  | _ => none

/-- The read of entry 0 takes the way of the written line, whose bytes go to memory and to line 0, from where entry 1 is read. -/
theorem streamOne_mirrorTable : streamOne (exec (.tunnelEnable .manager tableAtStart) mirrorTable) = some 1 := by decide +kernel

/-- Refutes O54: while the table is read, the system cache gives up a written line of a mirrored region's upper half, and its bytes
replace those of the table in the lower half; the entry read next holds them, not the bytes that stood there at the write. -/
theorem not_tunnelsAndBridgesCarryMessages : ¬ Obligations.TunnelsAndBridgesCarryMessages := by
  unfold Obligations.TunnelsAndBridgesCarryMessages
  rintro ⟨reads, -⟩
  have poison : mirrorTable.mem.poison = [] := by decide +kernel
  have flips : mirrorTable.mem.flips = [] := by decide +kernel
  have checks : mirrorTable.mem.chkFlips = [] := by decide +kernel
  obtain ⟨t, ran, -, -, entries, -⟩ := reads mirrorTable .manager tableAtStart mirrorTable_accepts (by decide +kernel)
    (by
      rw [tableAtStart_base, poison, flips, checks]
      exact fun a from_ upTo => ⟨mirrorTable_place from_ upTo, mirrorTable_carved from_ upTo, List.not_mem_nil, nofun, nofun,
        mirrorTable_tagGood from_ upTo _⟩)
  have one := streamOne_mirrorTable
  rw [ran] at one
  have zero : (tunnelOf (mirrorTable.bytes (bits tableAtStart.toNat 63 6 * 64 + 32 * 1) 32)).stream = 0 := by decide +kernel
  have stream := Option.some.inj one
  rw [entries 1 (by decide), zero] at stream
  cases stream

end Sys2Proof.Machine
end

section
/-! PROOFS. O59: the billet that is paired; its bytes are the two copies of the record. -/

set_option Elab.async false

namespace Sys2Proof.Machine

/-- The header of a BILLET_PAIR request to the Cupola without a payload. -/
def pairRequest : List Byte := toLE 8 (2 ^ 56 + 2 ^ 40 + 0x32 * 2 ^ 16) ++ toLE 8 0

/-- The device is up, the Cupola runs, a billet awaits its pairing, and the manager's channel carries the request for it. -/
def awaitsPairing : State :=
  let s := State.reset.setF SYS_BILLET.STATE 0 1
  { s with sys.power.mode := .on, sys.power.lost := [], sys.power.sclkLost := false
           sys.fw := [(1, { running := true })]
           mem.mbx := putMbx [] 0 pairRequest }

theorem awaitsPairing_asks : awaitsPairing.asks .manager 0 0x0032 := by
  unfold State.asks
  decide +kernel

/-- The billet's bytes in the record after a command. -/
def billetBytes (r : Res) : Option Nat :=
  match r with
  | .next t => some t.sys.record.bytes
  | _ => none

theorem billetBytes_awaitsPairing : billetBytes (exec (.billetPair .manager 0 true) awaitsPairing) = some 131072 := by
  decide +kernel

/-- Refutes O59: a BILLET_PAIR that is answered OK leaves the field record with the bytes of the two copies just stored, 131,072, not
with 0. -/
theorem not_mailboxRequestsAreAnswered : ¬ Obligations.MailboxRequestsAreAnswered := by
  unfold Obligations.MailboxRequestsAreAnswered
  rintro ⟨-, -, -, -, records, -⟩
  obtain ⟨-, -, -, pair, -⟩ := records awaitsPairing .manager 0
  obtain ⟨-, -, paired⟩ := pair true awaitsPairing_asks (by decide +kernel)
  obtain ⟨t, runs, -, -, -, -, -, none, -⟩ := paired (by decide +kernel) rfl
  have some := billetBytes_awaitsPairing
  rw [runs, billetBytes, none] at some
  exact absurd some (by decide)

end Sys2Proof.Machine
end

section
/-! PROOFS. O60: the instructions of the JTAG port. -/

set_option Elab.async false

namespace Sys2Proof.Machine

/-- The levels that an instruction which takes force drives on the two safety outputs; none where the monitors drive them and go on
to do so. -/
def State.jtagLevels (s : State) (j : Jtag) : Option (Bool × Bool) :=
  if j = .highz then some (true, true)
  else if jtagDrives j then some (s.sys.chain.getD (Config.chainPos 0) true, s.sys.chain.getD (Config.chainPos 1) true)
  else if jtagDrives s.sys.jtag then some s.safeLevels
  else none

/-- The pulses of both safety outputs at given levels, the last one first. -/
def levelPins (x : Option (Bool × Bool)) : List Out :=
  x.elim [] fun y => [.pin "SAFE_WARN_N" y.2, .pin "SAFE_FLT_N" y.1]

/-- An instruction takes force and drives its levels, and does nothing else. -/
theorem State.jtag_form (s : State) (j : Jtag) :
    s.jtag j = { s with sys.jtag := j, outbox := levelPins (s.jtagLevels j) ++ s.outbox } := by
  unfold State.jtag State.jtagLevels
  dsimp only
  by_cases high : j = .highz
  · rw [if_pos high, if_pos high]; rfl
  rw [if_neg high, if_neg high]
  by_cases drives : jtagDrives j
  · rw [if_pos drives, if_pos drives]; rfl
  rw [if_neg drives, if_neg drives]
  by_cases drove : jtagDrives s.sys.jtag
  · rw [if_pos drove, if_pos drove]; rfl
  · rw [if_neg drove, if_neg drove]; rfl

theorem jtagDrives_iff (j : Jtag) : jtagDrives j = true ↔ j = .extest ∨ j = .clamp ∨ j = .highz := by
  cases j <;> decide

/-- Where the new instruction leaves the outputs to the monitors, they are driven again if the old one did not. -/
theorem levelPins_released (s : State) {j : Jtag} (leaves : jtagDrives j = false) :
    levelPins (s.jtagLevels j) = if s.sys.jtag = .extest ∨ s.sys.jtag = .clamp ∨ s.sys.jtag = .highz then
      [.pin "SAFE_WARN_N" (!(s.sys.power.safeWarn || s.sys.power.safeHeld)),
        .pin "SAFE_FLT_N" (!(s.sys.power.safeFlt || s.sys.power.safeHeld))] else [] := by
  have low : j ≠ .highz := by rintro rfl; exact absurd leaves (by decide)
  rw [State.jtagLevels, if_neg low, if_neg (by simp [leaves])]
  simp only [← jtagDrives_iff]
  by_cases drove : jtagDrives s.sys.jtag
  · rw [if_pos drove, if_pos drove]; rfl
  · rw [if_neg drove, if_neg drove]; rfl

/-- What an instruction that takes force leaves. -/
theorem leaves_jtag (s : State) (j : Jtag) : Leaves [.jtag, .outbox] noReg s (s.jtag j) := by
  rw [State.jtag_form]
  exact (Leaves.refl _ _ s).beside

/-- The instruction and the record after an instruction that shifts out `v`. -/
theorem jtag_emit (s : State) (j : Jtag) (v : Nat) {ps : List Out} (pins : levelPins (s.jtagLevels j) = ps) :
    ((s.jtag j).emit (.tdo v)).sys.jtag = j ∧ ((s.jtag j).emit (.tdo v)).outbox = .tdo v :: ps ++ s.outbox
      ∧ Leaves [.jtag, .outbox] noReg s ((s.jtag j).emit (.tdo v)) := by
  refine ⟨?_, ?_, (leaves_jtag s j).emit⟩
  · rw [State.emit_sys, State.jtag_form]
  · rw [State.emit_outbox, State.jtag_form, pins]; rfl

/-- Settles O60: every instruction takes force by `State.jtag`, whose levels `State.jtagLevels` gives. -/
theorem boundaryScanDrivesTheSafetyPins : Obligations.BoundaryScanDrivesTheSafetyPins := by
  unfold Obligations.BoundaryScanDrivesTheSafetyPins
  intro s pins chain back
  have released {j : Jtag} (leaves : jtagDrives j = false) : levelPins (s.jtagLevels j) = back := levelPins_released s leaves
  refine ⟨⟨_, exec_bypass s, jtag_emit s _ _ (released (by decide))⟩, ⟨_, exec_idcode s, jtag_emit s _ _ (released (by decide))⟩,
    fun xs ys => ?_, ⟨_, exec_extest s, ?_, ?_, leaves_jtag s _⟩, ⟨_, exec_clamp s, jtag_emit s _ _ rfl⟩,
    ⟨_, exec_highz s, jtag_emit s _ _ rfl⟩⟩
  case refine_1 =>
    have loaded : levelPins (State.jtagLevels { s with sys.chain := ys } .sample) = back :=
      levelPins_released { s with sys.chain := ys } (by decide)
    have ⟨force, out, kept⟩ := jtag_emit { s with sys.chain := ys } .sample
      ((xs.zipIdx.map fun p => b2n p.1 * 2 ^ p.2).sum) loaded
    refine ⟨_, exec_samplePreload xs ys s, force, ?_, out, ?_⟩
    · rw [State.emit_sys, State.jtag_form]
    · exact ((Leaves.refl _ _ s).beside).into kept (by simp) fun _ _ no => no
  case refine_2 => rw [State.jtag_form]
  case refine_3 => rw [State.jtag_form]; rfl

end Sys2Proof.Machine
end

section
/-! PROOFS. Cells at a Weska port: the header, the buffers, and the ports a cell goes on through (R306 to R313). -/

set_option Elab.async false

namespace Sys2Proof.Machine

section
variable {s t : State} {p q : Nat} {c : Cell}

/-! ## The header -/

/-- A port that has taken the header of the next cell: the cell's number, its acknowledgement and its credits. -/
def WskSt.headed (w : WskSt) (c : Cell) : WskSt :=
  let k := w.unacked.findIdx fun u => u.seq == c.ack
  { w with
    rxSeq := (w.rxSeq + 1) % 256, replaying := false
    unacked := if k < w.unacked.length then w.unacked.drop (k + 1) else w.unacked
    credits := NMap.set w.credits 0 c.crVc (NMap.get w.credits 0 c.crVc + c.crCells) }

/-- The state in which a received cell takes effect. -/
def State.headed (s : State) (p : Nat) (c : Cell) : State :=
  (s.modWsk p fun w => { w with rxSeq := (w.rxSeq + 1) % 256, replaying := false }).takeHeader p c

theorem State.headed_wport : (s.headed p c).wport q = if q = p then (s.wport p).headed c else s.wport q := by
  unfold State.headed State.takeHeader
  rw [State.modWsk_wport, State.modWsk_wport, State.modWsk_wport, if_pos rfl]
  split
  · rfl
  · rfl

theorem leaves_headed : Leaves [.wsk] noReg s (s.headed p c) := (Leaves.refl _ _ s).modWsk.modWsk

/-- A cell in order at a port that is up takes effect. -/
theorem cellReceive_inOrder (lt : p < 4) (up : s.f WSK_PORTSTAT.STATE p = 2) (next : c.seq % 256 = (s.wport p).rxSeq) :
    exec (.cellReceive p c false) s = .next ((s.headed p c).accept p c) := by
  have port : isPort p = true := decide_eq_true lt
  have isUp : s.wskUp p = true := beq_iff_eq.2 up
  have same : (c.seq % 256 != (s.wport p).rxSeq) = false := by rw [next, bne_self_eq_false]
  rw [exec_cellReceive, execCellReceive, port, unit_true, isUp, same, Bool.not_true, if_neg Bool.false_ne_true, if_neg Bool.false_ne_true,
    if_neg Bool.false_ne_true]
  rfl

/-! ## Buffers -/

theorem State.owe_wport {vc : Nat} : (s.owe p vc).wport q
    = if q = p then { s.wport p with owed := NMap.set (s.wport p).owed 0 vc (NMap.get (s.wport p).owed 0 vc + 1) } else s.wport q :=
  State.modWsk_wport ..

theorem leaves_owe {vc : Nat} : Leaves [.wsk] noReg s (s.owe p vc) := (Leaves.refl _ _ s).modWsk

theorem leaves_freeBuf : Leaves [.wsk] noReg s (s.freeBuf p c) := (Leaves.refl _ _ s).ite leaves_owe

theorem State.freeBuf_wport_ne (ne : q ≠ p) : (s.freeBuf p c).wport q = s.wport q := by
  unfold State.freeBuf
  split
  · rfl
  · rw [State.owe_wport, if_neg ne]

/-- A freed buffer touches nothing of a port but the credits owed to its partner. -/
theorem State.freeBuf_apart : ∃ o, (s.freeBuf p c).wport p = { s.wport p with owed := o } := by
  unfold State.freeBuf
  split
  · exact ⟨_, rfl⟩
  · exact ⟨_, State.owe_wport.trans (if_pos rfl)⟩

/-! ## The way on -/

/-- A waiting cell takes with it the delay of the link it came through and the time of its arrival. -/
theorem State.onward_kept (delay : t.f WSK_DOZESTAT.LINK_DELAY_NS p = s.f WSK_DOZESTAT.LINK_DELAY_NS p) (time : t.clock = s.clock) :
    t.onward p c = s.onward p c := by
  unfold State.onward State.ingressBody
  rw [delay, time]

theorem State.onward_of_leaves {ps : List Part} {b : Reg → Nat → Prop} (h : Leaves ps b s t) (time : .clock ∉ ps)
    (apart : ¬b .wskDozestat p) : t.onward p c = s.onward p c :=
  State.onward_kept (h.f_same _ _ apart) (h.1 .clock time)

theorem leaves_passOn : Leaves [.wsk] (oneReg .wskStat 0) s (s.passOn p q c) :=
  ((Leaves.refl _ _ s).incSat ⟨rfl, rfl⟩).ite (Leaves.refl _ _ s).modWsk

/-- A cell with a hop left waits at its egress. -/
theorem State.passOn_waits (hops : 1 < c.ttl) :
    s.passOn p q c = s.modWsk q fun w => { w with transit := w.transit ++ [(p, s.onward p c)] } := if_neg (by omega)

/-- A cell without a hop left is counted. -/
theorem State.passOn_dropped (last : c.ttl ≤ 1) : s.passOn p q c = s.incSat WSK_STAT.TTL_DROP 0 1 := if_pos last

theorem State.passOn_wport_ne {r : Nat} (ne : r ≠ q) : (s.passOn p q c).wport r = s.wport r := by
  unfold State.passOn
  split
  · rw [State.incSat_wport]
  · rw [State.modWsk_wport, if_neg ne]

/-- Every port of a broadcast takes one copy. -/
theorem State.each_passOn_waits {ps : List Nat} (distinct : ps.Nodup) (hops : 1 < c.ttl) (here : q ∈ ps) :
    ((s.each ps fun s q => s.passOn p q c).wport q).transit = (s.wport q).transit ++ [(p, s.onward p c)] := by
  have copied := (State.each_units (v := fun u r => ((u.wport r).transit, u.onward p c)) (P := fun x y => y = (x.1 ++ [(p, x.2)], x.2))
    (g := fun s q => s.passOn p q c) (fun u a b ne => ?_) (fun u a => ?_) distinct s q).1 here
  · exact congrArg Prod.fst copied
  · exact Prod.ext (congrArg WskSt.transit (State.passOn_wport_ne ne)) (State.onward_of_leaves leaves_passOn (by simp) (by simp [oneReg]))
  · refine Prod.ext ?_ (State.onward_of_leaves leaves_passOn (by simp) (by simp [oneReg]))
    dsimp only
    rw [State.passOn_waits hops, State.modWsk_wport, if_pos rfl]

theorem State.each_passOn_wport_ne {ps : List Nat} {r : Nat} (apart : r ∉ ps) :
    (s.each ps fun s q => s.passOn p q c).wport r = s.wport r :=
  State.each_keeps (P := fun t => t.wport r = s.wport r) rfl fun t x hx same =>
    (State.passOn_wport_ne (by rintro rfl; exact apart hx)).trans same

theorem leaves_each_passOn {ps : List Nat} : Leaves [.wsk] (oneReg .wskStat 0) s (s.each ps fun s q => s.passOn p q c) :=
  (Leaves.refl _ _ s).over fun _ _ h => h.trans leaves_passOn

/-- What a broadcast cell does: it is consumed, goes on through the other ports, and its buffer may be free again. -/
theorem State.accept_broadcast (all : c.dest = 0xFFFF) :
    s.accept p c = ((s.consume c).each (s.floodOn p c) fun s q => s.passOn p q c).freeBuf p (s.onward p c) := if_pos all

/-- What a cell for this device does: it is consumed, and its buffer is free again. -/
theorem State.accept_own (one : c.dest ≠ 0xFFFF) (own : c.dest = s.f WSK_ID.DEV_ID 0) :
    s.accept p c = (s.consume c).owe p c.vc := by
  unfold State.accept
  rw [if_neg one, if_pos own]

/-- What a cell for another device does: it goes on where it has a route and a hop. -/
theorem State.accept_routed (one : c.dest ≠ 0xFFFF) (other : c.dest ≠ s.f WSK_ID.DEV_ID 0) (route : s.wskRoute c.dest = some q) :
    s.accept p c = if c.ttl ≤ 1 then (s.passOn p q c).owe p c.vc else s.passOn p q c := by
  unfold State.accept
  rw [if_neg one, if_neg other, route]

theorem State.accept_unrouted (one : c.dest ≠ 0xFFFF) (other : c.dest ≠ s.f WSK_ID.DEV_ID 0) (route : s.wskRoute c.dest = none) :
    s.accept p c = (s.incSat WSK_STAT.NO_ROUTE 0 1).owe p c.vc := by
  unfold State.accept
  rw [if_neg one, if_neg other, route]

end

end Sys2Proof.Machine
end

section
/-! PROOFS. O56: time messages on the ring, link delays, and dozing ports (R305, R312, R315 to R320). -/

set_option Elab.async false

namespace Sys2Proof.Machine

section
variable {s t : State} {p q : Nat} {c : Cell}

/-! ## Training (R305) -/

/-- A training after the first is counted, here and in the field record. -/
def State.retrained (s : State) (p : Nat) : State :=
  if (s.wport p).trained then
    (s.incSat WSK_PORTSTAT.RETRAINS p 1).modRec fun r => { r with links := satAdd32 r.links (12 + p) 1 }
  else s

theorem leaves_retrained : Leaves [.record] (oneReg .wskPortstat p) s (s.retrained p) :=
  Leaves.ite (((Leaves.refl _ _ s).incSat ⟨rfl, rfl⟩).beside) (Leaves.refl _ _ s)

theorem State.retrained_wport : (s.retrained p).wport q = s.wport q := by
  unfold State.retrained
  split
  · rw [State.modRec_wport, State.incSat_wport]
  · rfl

theorem State.retrained_retrains : (s.retrained p).f WSK_PORTSTAT.RETRAINS p
    = if (s.wport p).trained then min (s.f WSK_PORTSTAT.RETRAINS p + 1) 0xFFFF else s.f WSK_PORTSTAT.RETRAINS p := by
  unfold State.retrained
  split
  · rw [State.modRec_f, counted WSK_PORTSTAT.RETRAINS p (by decide) rfl]
  · rfl

/-- A port as its training leaves it. -/
def WskSt.fresh (w : WskSt) : WskSt :=
  { w with trained := true, credits := fullCredits, owed := [], unacked := [], txSeq := 0, rxSeq := 0
           replaying := false, replays1ms := 0 }

/-- What a training leaves. -/
structure Trained (p width peer : Nat) (s t : State) : Prop where
  state : t.f WSK_PORTSTAT.STATE p = 2
  width : t.f WSK_PORTSTAT.WIDTH p = if width = 4 then 2 else 1
  peer : t.f WSK_PORTSTAT.PEER_ID p = peer % 2 ^ 16
  retrains : t.f WSK_PORTSTAT.RETRAINS p = if (s.wport p).trained then min (s.f WSK_PORTSTAT.RETRAINS p + 1) 0xFFFF
    else s.f WSK_PORTSTAT.RETRAINS p
  ports : ∀ q, t.wport q = if q = p then (s.wport p).fresh else s.wport q
  leaves : Leaves [.wsk, .record] (oneReg .wskPortstat p) s t

theorem trained_train (s : State) (p width peer : Nat) : Trained p width peer s (s.train p width peer) := by
  have form : s.train p width peer = ((((s.retrained p).setF WSK_PORTSTAT.STATE p 2).setF WSK_PORTSTAT.WIDTH p
      (if width = 4 then 2 else 1)).setF WSK_PORTSTAT.PEER_ID p peer).modWsk p WskSt.fresh := rfl
  rw [form]
  refine ⟨?_, ?_, ?_, ?_, fun q => ?_, ?_⟩
  · rw [State.modWsk_f, State.setF_f_apart _ _ _ _ _ _ (by decide) (by decide), State.setF_f_apart _ _ _ _ _ _ (by decide) (by decide),
      State.setF_f_width _ _ _ _ 4 (by decide) rfl]
    rfl
  · rw [State.modWsk_f, State.setF_f_apart _ _ _ _ _ _ (by decide) (by decide), State.setF_f_width _ _ _ _ 2 (by decide) rfl]
    split <;> rfl
  · rw [State.modWsk_f, State.setF_f_width _ _ _ _ 16 (by decide) rfl]
  · rw [State.modWsk_f, State.setF_f_apart _ _ _ _ _ _ (by decide) (by decide), State.setF_f_apart _ _ _ _ _ _ (by decide) (by decide),
      State.setF_f_apart _ _ _ _ _ _ (by decide) (by decide), State.retrained_retrains]
  · simp only [State.modWsk_wport, State.setF_wport, State.retrained_wport]
  · exact (((((leaves_retrained (s := s)).mono (by simp) fun _ _ h => h).setF ⟨rfl, rfl⟩).setF ⟨rfl, rfl⟩).setF ⟨rfl, rfl⟩).modWsk

theorem uint_lt (n : Nat) (d : Int) : uint n d < 2 ^ n := by
  have positive : ((2 ^ n : Nat) : Int) > 0 := by exact_mod_cast Nat.two_pow_pos n
  have below := Int.emod_lt_of_pos d positive
  unfold uint
  omega

/-! ## Time (R315) -/

/-- The cell with which a time source begins. -/
def State.timeCell (s : State) : Cell :=
  { dest := 0xFFFF, src := s.f WSK_ID.DEV_ID 0, vc := 0, ttl := s.f WSK_ID.FLOOD_TTL 0, body := .time s.now 0 }

/-- A time source's message waits at the enabled ports alone. -/
theorem timeMessageSend_waits (source : s.fb WSK_ID.TIME_SRC 0 = true) : ∃ t, exec .timeMessageSend s = .next t
    ∧ (∀ p, t.wport p = if p < 4 ∧ s.fb WSK_PORTCFG.EN p = true then
        { s.wport p with localQ := (s.wport p).localQ ++ [s.timeCell] } else s.wport p)
    ∧ Leaves [.wsk] noReg s t := by
  refine ⟨s.each ((List.range 4).filter fun p => s.fb WSK_PORTCFG.EN p) fun s p => s.wskLocal p s.timeCell, ?_, fun p => ?_, ?_⟩
  · rw [exec_timeMessageSend, execTimeMessageSend, source, Bool.not_true, if_neg Bool.false_ne_true]
    rfl
  · have listed : p ∈ (List.range 4).filter (fun p => s.fb WSK_PORTCFG.EN p) ↔ p < 4 ∧ s.fb WSK_PORTCFG.EN p = true := by
      rw [List.mem_filter, List.mem_range]
    have each := State.each_units (v := fun u r => (u.wport r, u.timeCell)) (g := fun s p => s.wskLocal p s.timeCell)
      (P := fun x y => y = ({ x.1 with localQ := x.1.localQ ++ [x.2] }, x.2)) (fun u a b ne => ?_) (fun u a => ?_)
      ((List.nodup_range (n := 4)).filter fun p => s.fb WSK_PORTCFG.EN p) s p
    · by_cases on : p < 4 ∧ s.fb WSK_PORTCFG.EN p = true
      · rw [if_pos on]
        exact congrArg Prod.fst (each.1 (listed.2 on))
      · rw [if_neg on]
        exact congrArg Prod.fst (each.2 (mt listed.1 on))
    · exact Prod.ext ((State.modWsk_wport ..).trans (if_neg ne)) rfl
    · exact Prod.ext ((State.modWsk_wport ..).trans (if_pos rfl)) rfl
  · exact (Leaves.refl _ _ s).over fun _ _ h => h.modWsk

/-- What a time message does at a device that takes it. -/
theorem State.inTime_servo {src stamp : Nat} {k : Int} (other : s.fb WSK_ID.TIME_SRC 0 = false)
    (one : s.net.timeSrcs = [] ∨ s.net.timeSrcs = [src]) :
    s.inTime src stamp k = ({ s with net.timeSrcs := [src] }).emit (.timeToServo stamp k s.now) := by
  have seen : (if s.net.timeSrcs.contains src then s.net.timeSrcs else src :: s.net.timeSrcs) = [src] := by
    rcases one with none | one
    · rw [none]; rfl
    · rw [one, List.contains_cons, beq_self_eq_true, Bool.true_or, if_pos rfl]
  unfold State.inTime
  dsimp only
  rw [seen, other, if_neg Bool.false_ne_true, if_neg (by simp), if_neg (by simp)]

/-- A time source takes the message of another one as a conflict. -/
theorem State.inTime_conflict {src stamp : Nat} {k : Int} (source : s.fb WSK_ID.TIME_SRC 0 = true) (ne : src ≠ s.f WSK_ID.DEV_ID 0) :
    (s.inTime src stamp k).f WSK_STAT.TIME_CONFLICT 0 = min (s.f WSK_STAT.TIME_CONFLICT 0 + 1) 0xFFFF
      ∧ (s.inTime src stamp k).outbox = s.outbox := by
  unfold State.inTime
  dsimp only
  rw [source, if_pos rfl, if_pos (by simpa using ne.symm), counted WSK_STAT.TIME_CONFLICT 0 (by decide) rfl, State.incSat_outbox]
  exact ⟨rfl, rfl⟩

theorem leaves_inTime {src stamp : Nat} {k : Int} : Leaves [.timeSrcs, .outbox] (oneReg .wskStat 0) s (s.inTime src stamp k) :=
  Leaves.ite ((Leaves.refl _ _ s).beside.incSat ⟨rfl, rfl⟩)
    (Leaves.ite (Leaves.refl _ _ s).beside (Leaves.refl _ _ s).beside.emit)

/-- The count of the cells of a broadcast's packet, back at 0. -/
def State.partsDone (s : State) (k : Nat) : State := { s with net.parts := NMap.set s.net.parts 0 k 0 }

theorem State.partsDone_f (k : Nat) (x : Fld) (i : Nat) : (s.partsDone k).f x i = s.f x i := (rfl)

theorem State.partsDone_outbox (k : Nat) : (s.partsDone k).outbox = s.outbox := (rfl)

/-- A time message is one cell. -/
theorem State.consume_time {stamp : Nat} {k : Int} (all : c.dest = 0xFFFF) (body : c.body = .time stamp k)
    (first : NMap.get s.net.parts 0 (16 * c.src + 2 * c.vc + 1) = 0) :
    s.consume c = (s.partsDone (16 * c.src + 2 * c.vc + 1)).inTime c.src stamp k := by
  have key : 16 * c.src + 2 * c.vc + b2n (c.dest == 0xFFFF) = 16 * c.src + 2 * c.vc + 1 := by rw [all]; rfl
  unfold State.consume State.takePacket
  dsimp only
  rw [key, first, body]
  rfl

theorem State.floodOn_time {stamp : Nat} {k : Int} (body : c.body = .time stamp k) :
    s.floodOn p c = if s.fb WSK_ID.TIME_SRC 0 then [] else s.floodPorts.filter fun q => q != p := by
  unfold State.floodOn
  rw [body]

theorem State.floodPorts_nodup : s.floodPorts.Nodup := List.nodup_range.filter _

/-- A time message that arrives in order. -/
theorem timeMessage_taken {stamp : Nat} {k : Int} (lt : p < 4) (up : s.f WSK_PORTSTAT.STATE p = 2)
    (next : c.seq % 256 = (s.wport p).rxSeq) (all : c.dest = 0xFFFF) (body : c.body = .time stamp k)
    (first : NMap.get s.net.parts 0 (16 * c.src + 2 * c.vc + 1) = 0) :
    ∃ t, exec (.cellReceive p c false) s = .next t
      ∧ (s.fb WSK_ID.TIME_SRC 0 = false → s.net.timeSrcs = [] ∨ s.net.timeSrcs = [c.src] →
          t.outbox = .timeToServo stamp k s.now :: s.outbox
          ∧ ∀ q, q < 4 → q ≠ p → bit (s.f WSK_ID.FLOOD_PORTS 0) q = true → 1 < c.ttl →
              (t.wport q).transit = (s.wport q).transit ++ [(p, s.onward p c)])
      ∧ (s.fb WSK_ID.TIME_SRC 0 = true → c.src ≠ s.f WSK_ID.DEV_ID 0 →
          t.f WSK_STAT.TIME_CONFLICT 0 = min (s.f WSK_STAT.TIME_CONFLICT 0 + 1) 0xFFFF ∧ t.outbox = s.outbox
          ∧ ∀ q, q ≠ p → t.wport q = s.wport q)
      ∧ Leaves [.wsk, .parts, .timeSrcs, .outbox] (oneReg .wskStat 0) s t := by
  refine ⟨_, cellReceive_inOrder lt up next, ?_⟩
  have consumed : (s.headed p c).consume c = ((s.headed p c).partsDone (16 * c.src + 2 * c.vc + 1)).inTime c.src stamp k :=
    State.consume_time all body first
  rw [State.accept_broadcast all, consumed]
  generalize onward : (s.headed p c).onward p c = o
  generalize key : 16 * c.src + 2 * c.vc + 1 = part
  have headed : Leaves [.wsk, .parts, .timeSrcs, .outbox] (oneReg .wskStat 0) s (s.headed p c) :=
    leaves_headed.mono (by simp) fun _ _ no => no.elim
  have done : Leaves [.wsk, .parts, .timeSrcs, .outbox] (oneReg .wskStat 0) s ((s.headed p c).partsDone part) := headed.beside
  have taken : Leaves [.wsk, .parts, .timeSrcs, .outbox] (oneReg .wskStat 0) s (((s.headed p c).partsDone part).inTime c.src stamp k) :=
    done.into leaves_inTime (by simp) fun _ _ h => h
  have ports (q : Nat) (ne : q ≠ p) : (((s.headed p c).partsDone part).inTime c.src stamp k).wport q = s.wport q := by
    have same : (((s.headed p c).partsDone part).inTime c.src stamp k).net.wsk = (s.headed p c).net.wsk :=
      leaves_inTime.1 .wsk (by simp)
    rw [State.wport, same, ← State.wport, State.headed_wport, if_neg ne]
  have source : (s.headed p c).fb WSK_ID.TIME_SRC 0 = s.fb WSK_ID.TIME_SRC 0 := by
    rw [State.fb_eq, leaves_headed.f_same _ _ nofun, State.fb_eq]
  have number : (s.headed p c).f WSK_ID.DEV_ID 0 = s.f WSK_ID.DEV_ID 0 := leaves_headed.f_same _ _ nofun
  have sources : (s.headed p c).net.timeSrcs = s.net.timeSrcs := leaves_headed.1 .timeSrcs (by simp)
  have out : (s.headed p c).outbox = s.outbox := leaves_headed.1 .outbox (by simp)
  have now : (s.headed p c).now = s.now := congrArg ClockSt.ns (leaves_headed.1 .clock (by simp))
  refine ⟨fun other one => ⟨?_, fun q ltq ne flood hops => ?_⟩, fun self away => ?_, ?_⟩
  · rw [leaves_freeBuf.1 .outbox (by simp), leaves_each_passOn.1 .outbox (by simp),
      State.inTime_servo (s := (s.headed p c).partsDone part) (source.trans other) (by rwa [State.partsDone, sources]),
      State.emit_outbox, ← out, ← now]
    rfl
  · have flooded : (s.headed p c).floodOn p c = s.floodPorts.filter fun q => q != p := by
      rw [State.floodOn_time body, source, other, if_neg Bool.false_ne_true]
      rfl
    have here : q ∈ s.floodPorts.filter fun q => q != p := by
      rw [List.mem_filter, State.floodPorts, List.mem_filter, List.mem_range]
      exact ⟨⟨ltq, flood⟩, by simpa using ne⟩
    rw [State.freeBuf_wport_ne ne, flooded, State.each_passOn_waits (State.floodPorts_nodup.filter _) hops here, ports q ne,
      State.onward_of_leaves taken (by simp) (by simp [oneReg])]
  · obtain ⟨conflict, silent⟩ := State.inTime_conflict (s := (s.headed p c).partsDone part) (stamp := stamp) (k := k)
      (source.trans self) (fun e => away (e.trans number))
    have ends : (s.headed p c).floodOn p c = [] := by rw [State.floodOn_time body, source, self, if_pos rfl]
    rw [ends, State.each, List.foldl_nil]
    refine ⟨?_, ?_, fun q ne => (State.freeBuf_wport_ne ne).trans (ports q ne)⟩
    · rw [leaves_freeBuf.f_same _ _ nofun, conflict, State.partsDone_f, leaves_headed.f_same _ _ nofun]
    · rw [leaves_freeBuf.1 .outbox (by simp), silent, State.partsDone_outbox, out]
  · exact (taken.into leaves_each_passOn (by simp) fun _ _ h => h).into leaves_freeBuf (by simp) fun _ _ no => no.elim

/-! ## The power state, in its two parts -/

theorem PowerSt.eq_of_parts {x y : PowerSt} (calm : x.calm = y.calm) (pins : x.pins = y.pins) : x = y := by
  cases x
  cases y
  simp only [PowerSt.calm, PowerSt.mk.injEq, PowerSt.pins, Prod.mk.injEq] at calm pins ⊢
  tauto

/-- The power state is the same where neither of its parts may change. -/
theorem Leaves.power_same {ps : List Part} {b : Reg → Nat → Prop} (h : Leaves ps b s t) (hp : .power ∉ ps) (hs : .safePins ∉ ps) :
    t.sys.power = s.sys.power :=
  PowerSt.eq_of_parts (h.1 .power hp) (h.1 .safePins hs)

/-- A change of the power state beside the two latches. -/
theorem Leaves.modPower {ps : List Part} {b : Reg → Nat → Prop} {g : PowerSt → PowerSt} (h : Leaves ps b s t)
    (hg : ∀ p, (g p).pins = p.pins) (hp : .power ∈ ps := by simp) : Leaves ps b s (t.modPower g) := by
  refine h.parts (fun p hnot => ?_)
  cases p
  case power => exact absurd hp hnot
  case safePins => exact hg _
  all_goals rfl

/-! ## Wakes (R325) -/

/-- What the first wake of a STANDBY leaves. -/
structure Woken (cause n : Nat) (s t : State) : Prop where
  cause : t.f SYS_PWRSTAT.WAKE_CAUSE 0 = cause % 16
  unit : t.f SYS_PWRSTAT.WAKE_UNIT 0 = n % 16
  other : t.f SYS_PWRSTAT.WAKE_OTHER 0 = 0
  seen : t.sys.power.wakeSeen = true
  power : t.sys.power.socPwrEn = true
  pin : s.sys.power.socPwrEn = false → t.outbox = .pin "SOC_PWR_EN" true :: s.outbox
  leaves : Leaves [.outbox, .power] (oneReg .sysPwrstat 0) s t

theorem State.wake_awake {k n : Nat} (awake : s.sys.power.mode ≠ .standby) : s.wake k n = s := if_pos awake

theorem leaves_socPower {on : Bool} : Leaves [.outbox, .power] noReg s (s.socPower on) :=
  Leaves.ite (Leaves.refl _ _ s) ((Leaves.refl _ _ s).beside.emit)

theorem State.socPower_en {on : Bool} : (s.socPower on).sys.power = { s.sys.power with socPwrEn := on } := by
  unfold State.socPower
  split
  · rename_i same
    rw [← beq_iff_eq.1 same]
  · rfl

/-- The state that has noted its first wake. -/
def State.wakeNoted (s : State) (k n : Nat) : State :=
  (((s.setF SYS_PWRSTAT.WAKE_CAUSE 0 k).setF SYS_PWRSTAT.WAKE_UNIT 0 n).setF SYS_PWRSTAT.WAKE_OTHER 0 0).modPower
    fun p => { p with wakeSeen := true }

theorem State.wake_first {k n : Nat} (standby : s.sys.power.mode = .standby) (first : s.sys.power.wakeSeen = false) :
    s.wake k n = (s.wakeNoted k n).socPower true := by
  unfold State.wake
  rw [if_neg (fun ne => ne standby), first, if_neg Bool.false_ne_true, State.wakeNoted]

theorem leaves_wakeNoted {k n : Nat} : Leaves [.power] (oneReg .sysPwrstat 0) s (s.wakeNoted k n) := by
  have noted : Leaves [.power] (oneReg .sysPwrstat 0) s
      (((s.setF SYS_PWRSTAT.WAKE_CAUSE 0 k).setF SYS_PWRSTAT.WAKE_UNIT 0 n).setF SYS_PWRSTAT.WAKE_OTHER 0 0) :=
    (((Leaves.refl _ _ s).setF ⟨rfl, rfl⟩).setF ⟨rfl, rfl⟩).setF ⟨rfl, rfl⟩
  exact noted.modPower fun _ => rfl

theorem State.wakeNoted_power {k n : Nat} : (s.wakeNoted k n).sys.power = { s.sys.power with wakeSeen := true } := by
  rw [State.wakeNoted, State.modPower_power, State.setF_sys, State.setF_sys, State.setF_sys]

theorem woken_wake {k n : Nat} (standby : s.sys.power.mode = .standby) (first : s.sys.power.wakeSeen = false) :
    Woken k n s (s.wake k n) := by
  have same (x : Fld) : ((s.wakeNoted k n).socPower true).f x 0 = (s.wakeNoted k n).f x 0 := leaves_socPower.f_same _ _ nofun
  have noted := leaves_wakeNoted (s := s) (k := k) (n := n)
  have noted_power := State.wakeNoted_power (s := s) (k := k) (n := n)
  rw [State.wake_first standby first]
  refine ⟨(same _).trans ?_, (same _).trans ?_, (same _).trans ?_, ?_, ?_, fun off => ?_, ?_⟩
  · rw [State.wakeNoted, State.modPower_f, State.setF_f_apart _ _ _ _ _ _ (by decide) (by decide),
      State.setF_f_apart _ _ _ _ _ _ (by decide) (by decide), State.setF_f_width _ _ _ _ 4 (by decide) rfl]
    rfl
  · rw [State.wakeNoted, State.modPower_f, State.setF_f_apart _ _ _ _ _ _ (by decide) (by decide),
      State.setF_f_width _ _ _ _ 4 (by decide) rfl]
    rfl
  · rw [State.wakeNoted, State.modPower_f, State.setF_f_width _ _ _ _ 5 (by decide) rfl]
    rfl
  · rw [State.socPower_en, noted_power]
  · rw [State.socPower_en]
  · unfold State.socPower
    rw [noted_power]
    dsimp only
    rw [off, if_neg (by decide), State.emit_outbox, State.modPower_outbox, noted.1 .outbox (by simp)]
  · exact (noted.mono (by simp) fun _ _ h => h).into leaves_socPower (by simp) fun _ _ no => no.elim

/-! ## Doze (R317 to R320) -/

theorem State.higherId_eq : s.higherId p = decide (s.f WSK_PORTSTAT.PEER_ID p < s.f WSK_ID.DEV_ID 0) := rfl

/-- The registers of a port's state and doze. -/
def dozeRegs (p : Nat) (r : Reg) (i : Nat) : Prop := (r = .wskPortstat ∨ r = .wskDozestat) ∧ i = p

theorem leaves_alignDoze {d : Int} : Leaves [.wsk] (oneReg .wskDozestat p) s (s.alignDoze p d) :=
  Leaves.ite ((Leaves.refl _ _ s).setF ⟨rfl, rfl⟩).modWsk (Leaves.refl _ _ s)

/-- The partner with the higher number records the offset and keeps the greatest one. -/
theorem State.alignDoze_records {d : Int} (higher : s.f WSK_PORTSTAT.PEER_ID p < s.f WSK_ID.DEV_ID 0) :
    (s.alignDoze p d).f WSK_DOZESTAT.LAST_DRIFT_NS p = uint 32 d
      ∧ ((s.alignDoze p d).wport p).drift = max (s.wport p).drift d.natAbs := by
  have form : s.alignDoze p d = (s.setF WSK_DOZESTAT.LAST_DRIFT_NS p (uint 32 d)).modWsk p fun w =>
    { w with drift := max w.drift d.natAbs } := if_pos (decide_eq_true higher)
  rw [form]
  constructor
  · rw [State.modWsk_f, State.setF_f_width _ _ _ _ 32 (by decide) rfl]
    exact Nat.mod_eq_of_lt (uint_lt 32 d)
  · rw [State.modWsk_wport, if_pos rfl, State.setF_wport]

theorem State.alignDoze_lower {d : Int} (lower : s.f WSK_ID.DEV_ID 0 ≤ s.f WSK_PORTSTAT.PEER_ID p) : s.alignDoze p d = s :=
  if_neg (by rw [State.higherId_eq, decide_eq_true_iff]; omega)

/-- An alignment moves nothing of a port but its greatest offset. -/
theorem State.alignDoze_apart {d : Int} : ∃ x, (s.alignDoze p d).wport p = { s.wport p with drift := x } := by
  unfold State.alignDoze
  split
  · exact ⟨_, by rw [State.modWsk_wport, if_pos rfl, State.setF_wport]⟩
  · exact ⟨_, rfl⟩

/-- A port that leaves its doze or its search trains with its partner. -/
def State.dozeTrained (s : State) (p : Nat) : State :=
  (s.train p (if s.f WSK_PORTSTAT.WIDTH p = 1 then 2 else 4) (s.f WSK_PORTSTAT.PEER_ID p)).modWsk p fun w => { w with sawLow := true }

/-- A port that leaves its doze or its search: it trains, and the offset is measured. -/
theorem dozeTrained_trains {d : Int} : 
    ((s.dozeTrained p).alignDoze p d).f WSK_PORTSTAT.STATE p = 2
      ∧ (((s.dozeTrained p).alignDoze p d).wport p).trained = true ∧ (((s.dozeTrained p).alignDoze p d).wport p).sawLow = true
      ∧ (s.f WSK_PORTSTAT.PEER_ID p < s.f WSK_ID.DEV_ID 0 →
          ((s.dozeTrained p).alignDoze p d).f WSK_DOZESTAT.LAST_DRIFT_NS p = uint 32 d)
      ∧ Leaves [.wsk, .record] (dozeRegs p) s ((s.dozeTrained p).alignDoze p d) := by
  have trained := trained_train s p (if s.f WSK_PORTSTAT.WIDTH p = 1 then 2 else 4) (s.f WSK_PORTSTAT.PEER_ID p)
  obtain ⟨x, port⟩ := State.alignDoze_apart (s := s.dozeTrained p) (p := p) (d := d)
  have here : (s.dozeTrained p).wport p = { (s.wport p).fresh with sawLow := true } := by
    rw [State.dozeTrained, State.modWsk_wport, if_pos rfl, trained.ports, if_pos rfl]
  have saw : Leaves [.wsk, .record] (oneReg .wskPortstat p) s (s.dozeTrained p) := trained.leaves.modWsk
  have peer : (s.dozeTrained p).f WSK_PORTSTAT.PEER_ID p = s.f WSK_PORTSTAT.PEER_ID p := by
    rw [State.dozeTrained, State.modWsk_f, trained.peer]
    exact Nat.mod_eq_of_lt (s.f_lt WSK_PORTSTAT.PEER_ID p)
  refine ⟨?_, ?_, ?_, fun higher => (State.alignDoze_records ?_).1, ?_⟩
  · rw [leaves_alignDoze.f_same _ _ fun h => absurd h.1 (by decide), State.dozeTrained, State.modWsk_f, trained.state]
  · rw [port, here]
    rfl
  · rw [port, here]
  · rwa [peer, saw.f_same _ _ fun h => absurd h.1 (by decide)]
  · exact (saw.mono (List.Subset.refl _) fun _ _ h => ⟨.inl h.1, h.2⟩).into leaves_alignDoze (by simp) fun _ _ h => ⟨.inr h.1, h.2⟩

/-- A port that is not to doze hears no rendezvous. -/
theorem rendezvous_idle {caught : Option Int} (lt : p < 4)
    (idle : ¬(s.sys.power.mode = .standby ∧ s.fb WSK_PORTCFG.DOZE_EN p = true) ∨ s.f WSK_PORTSTAT.STATE p ≤ 1) :
    exec (.rendezvous p caught) s = .next s := by
  have port : isPort p = true := decide_eq_true lt
  rw [exec_rendezvous, execRendezvous, port, unit_true]
  split
  · rfl
  · rename_i dozes
    have low : s.f WSK_PORTSTAT.STATE p ≤ 1 := idle.resolve_left fun no => dozes (by
      rw [not_and_or] at no
      simpa using no)
    rw [if_neg (by omega), if_neg (by simp; omega)]

section
variable (lt : p < 4) (standby : s.sys.power.mode = .standby) (may : s.fb WSK_PORTCFG.DOZE_EN p = true)
include lt standby may

/-- A trained port falls back into its doze. -/
theorem rendezvous_dozes {caught : Option Int} (up : s.f WSK_PORTSTAT.STATE p = 2) :
    exec (.rendezvous p caught) s = .next ((s.setF WSK_PORTSTAT.STATE p 3).emit (.burst p)) := by
  have port : isPort p = true := decide_eq_true lt
  rw [exec_rendezvous, execRendezvous, port, unit_true, if_neg (by simp [standby, may]), if_pos up]

theorem rendezvous_caught {d : Int} (doze : s.f WSK_PORTSTAT.STATE p = 3 ∨ s.f WSK_PORTSTAT.STATE p = 4) :
    exec (.rendezvous p (some d)) s = .next (((s.emit (.burst p)).setF WSK_PORTSTAT.STATE p 3).alignDoze p (toMicro d)) := by
  have port : isPort p = true := decide_eq_true lt
  rw [exec_rendezvous, execRendezvous, port, unit_true, if_neg (by simp [standby, may]), if_neg (by omega), if_pos (by simpa using doze)]

theorem rendezvous_missed (doze : s.f WSK_PORTSTAT.STATE p = 3 ∨ s.f WSK_PORTSTAT.STATE p = 4) :
    exec (.rendezvous p none) s = .next ((s.emit (.burst p)).missDoze p) := by
  have port : isPort p = true := decide_eq_true lt
  rw [exec_rendezvous, execRendezvous, port, unit_true, if_neg (by simp [standby, may]), if_neg (by omega), if_pos (by simpa using doze)]

end

/-- What a rendezvous that caught the partner's burst leaves. -/
theorem caught_dozes {d : Int} : ∀ t, t = ((s.emit (.burst p)).setF WSK_PORTSTAT.STATE p 3).alignDoze p d →
    t.f WSK_PORTSTAT.STATE p = 3 ∧ t.f WSK_PORTSTAT.MISSES p = s.f WSK_PORTSTAT.MISSES p ∧ t.outbox = .burst p :: s.outbox
      ∧ (s.f WSK_PORTSTAT.PEER_ID p < s.f WSK_ID.DEV_ID 0 → t.f WSK_DOZESTAT.LAST_DRIFT_NS p = uint 32 d
          ∧ (t.wport p).drift = max (s.wport p).drift d.natAbs)
      ∧ (s.f WSK_ID.DEV_ID 0 ≤ s.f WSK_PORTSTAT.PEER_ID p → t.net.wsk = s.net.wsk ∧ t.r .wskDozestat p = s.r .wskDozestat p)
      ∧ Leaves [.outbox, .wsk] (dozeRegs p) s t := by
  intro t made
  have dozing : Leaves [.outbox, .wsk] (oneReg .wskPortstat p) s ((s.emit (.burst p)).setF WSK_PORTSTAT.STATE p 3) :=
    (Leaves.refl _ _ s).emit.setF ⟨rfl, rfl⟩
  have peer : ((s.emit (.burst p)).setF WSK_PORTSTAT.STATE p 3).f WSK_PORTSTAT.PEER_ID p = s.f WSK_PORTSTAT.PEER_ID p :=
    State.setF_f_apart _ _ _ _ _ _ (by decide) (by decide)
  have self : ((s.emit (.burst p)).setF WSK_PORTSTAT.STATE p 3).f WSK_ID.DEV_ID 0 = s.f WSK_ID.DEV_ID 0 :=
    State.setF_f_apart _ _ _ _ _ _ (by decide) (by decide)
  subst made
  refine ⟨?_, ?_, ?_, fun higher => ?_, fun lower => ?_, ?_⟩
  · rw [leaves_alignDoze.f_same _ _ fun h => absurd h.1 (by decide), State.setF_f_width _ _ _ _ 4 (by decide) rfl]
    rfl
  · rw [leaves_alignDoze.f_same _ _ fun h => absurd h.1 (by decide), State.setF_f_apart _ _ _ _ _ _ (by decide) (by decide),
      State.emit_f]
  · rw [leaves_alignDoze.1 .outbox (by simp), State.setF_outbox, State.emit_outbox]
  · have records := State.alignDoze_records (s := (s.emit (.burst p)).setF WSK_PORTSTAT.STATE p 3) (p := p) (d := d)
      (by rwa [peer, self])
    rwa [State.setF_wport, State.emit_wport] at records
  · rw [State.alignDoze_lower (by rwa [peer, self])]
    exact ⟨by rw [State.setF_net, State.emit_net], dozing.2 _ _ (by simp [oneReg])⟩
  · exact (dozing.mono (List.Subset.refl _) fun _ _ h => ⟨.inl h.1, h.2⟩).into leaves_alignDoze (by simp) fun _ _ h => ⟨.inr h.1, h.2⟩

/-- The search that a first miss begins. -/
def WskSt.searching (w : WskSt) : WskSt := { w with searchLeft := 4, sawLow := false }

/-- A search with one rendezvous less to go. -/
def WskSt.searched (w : WskSt) : WskSt := { w with searchLeft := w.searchLeft - 1 }

theorem State.missDoze_first (doze : s.f WSK_PORTSTAT.STATE p = 3) :
    s.missDoze p = (((s.incSat WSK_PORTSTAT.MISSES p 1).setF WSK_PORTSTAT.STATE p 4).modWsk p WskSt.searching) := by
  have still : (s.incSat WSK_PORTSTAT.MISSES p 1).f WSK_PORTSTAT.STATE p = 3 :=
    (State.incSat_f_beside _ _ _ _ _ p (by decide) (by decide)).trans doze
  unfold State.missDoze
  dsimp only
  rw [if_pos still]
  rfl

theorem State.missDoze_again (search : s.f WSK_PORTSTAT.STATE p = 4) :
    s.missDoze p = if (s.wport p).searchLeft = 1 ∧ (s.wport p).sawLow = false then
        ((s.incSat WSK_PORTSTAT.MISSES p 1).modWsk p WskSt.searched).emit (.wakePull p 4)
      else (s.incSat WSK_PORTSTAT.MISSES p 1).modWsk p WskSt.searched := by
  have still : (s.incSat WSK_PORTSTAT.MISSES p 1).f WSK_PORTSTAT.STATE p = 4 :=
    (State.incSat_f_beside _ _ _ _ _ p (by decide) (by decide)).trans search
  unfold State.missDoze
  dsimp only
  rw [if_neg (by omega), State.incSat_wport]
  simp only [Bool.and_eq_true, decide_eq_true_eq, Bool.not_eq_true']
  rfl

/-- What a missed rendezvous leaves. -/
theorem missed_searches (doze : s.f WSK_PORTSTAT.STATE p = 3 ∨ s.f WSK_PORTSTAT.STATE p = 4) : ∀ t, t = (s.emit (.burst p)).missDoze p →
    t.f WSK_PORTSTAT.STATE p = 4 ∧ t.f WSK_PORTSTAT.MISSES p = min (s.f WSK_PORTSTAT.MISSES p + 1) 0xFF
      ∧ (s.f WSK_PORTSTAT.STATE p = 3 → (t.wport p).searchLeft = 4 ∧ t.outbox = .burst p :: s.outbox)
      ∧ (s.f WSK_PORTSTAT.STATE p = 4 → (t.wport p).searchLeft = (s.wport p).searchLeft - 1
          ∧ t.outbox = (if (s.wport p).searchLeft = 1 ∧ (s.wport p).sawLow = false then [.wakePull p 4] else [])
              ++ .burst p :: s.outbox)
      ∧ Leaves [.outbox, .wsk] (oneReg .wskPortstat p) s t := by
  intro t made
  have burst : Leaves [.outbox, .wsk] (oneReg .wskPortstat p) s ((s.emit (.burst p)).incSat WSK_PORTSTAT.MISSES p 1) :=
    (Leaves.refl _ _ s).emit.incSat ⟨rfl, rfl⟩
  have misses : ((s.emit (.burst p)).incSat WSK_PORTSTAT.MISSES p 1).f WSK_PORTSTAT.MISSES p
      = min (s.f WSK_PORTSTAT.MISSES p + 1) 0xFF := State.incSat_f_same _ _ _ _ (by decide)
  rcases doze with doze | search
  · rw [State.missDoze_first (s := s.emit (.burst p)) doze] at made
    subst made
    refine ⟨?_, ?_, fun _ => ⟨?_, rfl⟩, fun search => by omega, (burst.setF ⟨rfl, rfl⟩).modWsk⟩
    · rw [State.modWsk_f, State.setF_f_width _ _ _ _ 4 (by decide) rfl]
      rfl
    · rw [State.modWsk_f, State.setF_f_apart _ _ _ _ _ _ (by decide) (by decide), misses]
    · rw [State.modWsk_wport, if_pos rfl]
      rfl
  · rw [State.missDoze_again (s := s.emit (.burst p)) search] at made
    have state : ((s.emit (.burst p)).incSat WSK_PORTSTAT.MISSES p 1).f WSK_PORTSTAT.STATE p = 4 :=
      (State.incSat_f_beside _ _ _ _ _ p (by decide) (by decide)).trans search
    have left : ((((s.emit (.burst p)).incSat WSK_PORTSTAT.MISSES p 1).modWsk p WskSt.searched).wport p).searchLeft
        = (s.wport p).searchLeft - 1 := by
      rw [State.modWsk_wport, if_pos rfl]
      rfl
    have first : s.f WSK_PORTSTAT.STATE p ≠ 3 := by omega
    by_cases pull : (s.wport p).searchLeft = 1 ∧ (s.wport p).sawLow = false
    · rw [State.emit_wport, if_pos pull] at made
      subst made
      refine ⟨state, misses, fun no => absurd no first, fun _ => ⟨left, ?_⟩, burst.modWsk.emit⟩
      rw [if_pos pull]
      rfl
    · rw [State.emit_wport, if_neg pull] at made
      subst made
      refine ⟨state, misses, fun no => absurd no first, fun _ => ⟨left, ?_⟩, burst.modWsk⟩
      rw [if_neg pull]
      rfl

/-! ## Wake pulses (R319, R320) -/

/-- The state after a pulse, before it may wake the device: a port in doze or search trains. -/
def State.pulsed (s : State) (p : Nat) (d : Int) : State :=
  if s.f WSK_PORTSTAT.STATE p = 3 ∨ s.f WSK_PORTSTAT.STATE p = 4 then (s.dozeTrained p).alignDoze p (toMicro d) else s

theorem leaves_pulsed {d : Int} : Leaves [.wsk, .record] (dozeRegs p) s (s.pulsed p d) :=
  Leaves.ite dozeTrained_trains.2.2.2.2 (Leaves.refl _ _ s)

theorem leaves_pulsed_power {d : Int} : (s.pulsed p d).sys.power = s.sys.power :=
  leaves_pulsed.power_same (by simp) (by simp)

theorem wskWakePulse_eq {ticks : Nat} {d : Int} (lt : p < 4) : exec (.wskWakePulse p ticks d) s
    = .next (if 16 ≤ ticks ∧ s.fb WSK_PORTCFG.EN p = true then (s.pulsed p d).wake 3 p else s.pulsed p d) := by
  have port : isPort p = true := decide_eq_true lt
  have en : (s.pulsed p d).fb WSK_PORTCFG.EN p = s.fb WSK_PORTCFG.EN p := by
    rw [State.fb_eq, leaves_pulsed.f_same _ _ fun h => absurd h.1 (by decide), State.fb_eq]
  have form : (if s.f WSK_PORTSTAT.STATE p = 3 || s.f WSK_PORTSTAT.STATE p = 4 then
      ((s.train p (if s.f WSK_PORTSTAT.WIDTH p = 1 then 2 else 4) (s.f WSK_PORTSTAT.PEER_ID p)).modWsk p fun w =>
        { w with sawLow := true }).alignDoze p (toMicro d) else s) = s.pulsed p d := by
    simp only [Bool.or_eq_true, decide_eq_true_eq]
    rfl
  rw [exec_wskWakePulse, execWskWakePulse, port, unit_true]
  dsimp only
  rw [form, en]
  simp only [Bool.and_eq_true, decide_eq_true_eq]

/-- A pulse that is too short, or finds its port disabled or the device awake, only trains. -/
theorem wskWakePulse_trains {ticks : Nat} {d : Int} (lt : p < 4)
    (no : ¬(16 ≤ ticks ∧ s.fb WSK_PORTCFG.EN p = true ∧ s.sys.power.mode = .standby)) :
    exec (.wskWakePulse p ticks d) s = .next (s.pulsed p d) := by
  have power : (s.pulsed p d).sys.power = s.sys.power := leaves_pulsed_power
  rw [wskWakePulse_eq lt]
  split
  · rename_i long
    rw [State.wake_awake]
    rw [power]
    exact fun standby => no ⟨long.1, long.2, standby⟩
  · rfl

end

/-- Settles O56: a lemma for each kind of command gives the state that it leaves. -/
theorem ringTimeAndDozeKeepPartnersAligned : Obligations.RingTimeAndDozeKeepPartnersAligned := by
  unfold Obligations.RingTimeAndDozeKeepPartnersAligned
  refine ⟨fun s other => ?_, fun s => timeMessageSend_waits, fun s p c stamp k lt up next all body first => ?_,
    fun s p a b lt => ⟨fun up => ?_, fun down => ?_⟩, fun s p caught lt => ?_, fun s p ticks d lt => ?_⟩
  · rw [exec_timeMessageSend, execTimeMessageSend, other, Bool.not_false, if_pos rfl]
  · obtain ⟨t, runs, servo, conflict, leaves⟩ := timeMessage_taken lt up next all body first
    refine ⟨t, runs, fun other one => ?_, conflict, leaves⟩
    obtain ⟨out, on⟩ := servo other one
    refine ⟨out, fun q ltq ne flood hops => ?_⟩
    rw [on q ltq ne flood hops, State.onward, body]
    rfl
  · have port : isPort p = true := decide_eq_true lt
    have isUp : s.wskUp p = true := beq_iff_eq.2 up
    refine ⟨_, ?_, State.setF_f_width _ _ _ _ 16 (by decide) rfl, State.setF_f_apart _ _ _ _ _ _ (by decide) (by decide),
      (Leaves.refl _ _ s).setF ⟨rfl, rfl⟩⟩
    rw [exec_linkDelayMeasure, execLinkDelayMeasure, port, unit_true, isUp, if_pos rfl]
  · have port : isPort p = true := decide_eq_true lt
    have isDown : s.wskUp p = false := beq_eq_false_iff_ne.2 down
    rw [exec_linkDelayMeasure, execLinkDelayMeasure, port, unit_true, isDown, if_neg Bool.false_ne_true]
  · refine ⟨rendezvous_idle lt, fun ⟨standby, may⟩ up => ⟨_, rendezvous_dozes lt standby may up, ?_, ?_, ?_⟩,
      fun d ⟨standby, may⟩ doze seen => ?_, fun ⟨standby, may⟩ doze seen => ?_⟩
    · rw [State.emit_f, State.setF_f_width _ _ _ _ 4 (by decide) rfl]
      rfl
    · rw [State.emit_outbox, State.setF_outbox]
    · exact ((Leaves.refl _ _ s).setF ⟨rfl, rfl⟩).emit
    · subst seen
      have runs := rendezvous_caught lt standby may (d := d) doze
      rw [toMicro] at runs
      exact ⟨_, runs, caught_dozes _ rfl⟩
    · subst seen
      exact ⟨_, rendezvous_missed lt standby may doze, missed_searches doze _ rfl⟩
  · have power : (s.pulsed p d).sys.power = s.sys.power := leaves_pulsed_power
    refine ⟨fun three four no => ?_, fun doze no => ⟨_, wskWakePulse_trains lt no, ?_⟩, fun ⟨long, en, standby⟩ first => ?_⟩
    · rw [wskWakePulse_trains lt no, State.pulsed, if_neg (by omega)]
    · obtain ⟨state, trained, saw, drift, leaves⟩ := dozeTrained_trains (s := s) (p := p) (d := toMicro d)
      rw [State.pulsed, if_pos doze]
      exact ⟨state, trained, saw, drift, leaves.power_same (by simp) (by simp), leaves⟩
    · have woken := woken_wake (s := s.pulsed p d) (k := 3) (n := p) (by rw [power, standby]) (by rw [power, first])
      refine ⟨_, (wskWakePulse_eq lt).trans (by rw [if_pos ⟨long, en⟩]), woken.cause, woken.unit.trans (Nat.mod_eq_of_lt (by omega)),
        woken.power⟩

end Sys2Proof.Machine
end

section
/-! PROOFS. O58: wakes, the power-fail warning, retrains, the billet, and the Cupola's watchdog (R156, R325 to R340, R359). -/

set_option Elab.async false

namespace Sys2Proof.Machine

section
variable {s t : State}

/-! ## Later wakes (R325) -/

theorem State.wake_later {k n : Nat} (standby : s.sys.power.mode = .standby) (later : s.sys.power.wakeSeen = true) :
    s.wake k n = s.setF SYS_PWRSTAT.WAKE_OTHER 0 (Nat.lor (s.f SYS_PWRSTAT.WAKE_OTHER 0) (2 ^ (k - 1))) := by
  unfold State.wake
  rw [if_neg (fun ne => ne standby), later, if_pos rfl]

/-- A later wake is added to the others. -/
theorem State.wake_others {k n : Nat} (small : k ≤ 5) (standby : s.sys.power.mode = .standby) (later : s.sys.power.wakeSeen = true) :
    (s.wake k n).f SYS_PWRSTAT.WAKE_CAUSE 0 = s.f SYS_PWRSTAT.WAKE_CAUSE 0
      ∧ (s.wake k n).f SYS_PWRSTAT.WAKE_OTHER 0 = Nat.lor (s.f SYS_PWRSTAT.WAKE_OTHER 0) (2 ^ (k - 1))
      ∧ Leaves [] (oneReg .sysPwrstat 0) s (s.wake k n) := by
  rw [State.wake_later standby later]
  refine ⟨State.setF_f_apart _ _ _ _ _ _ (by decide) (by decide), ?_, (Leaves.refl _ _ s).setF ⟨rfl, rfl⟩⟩
  have one : 2 ^ (k - 1) < 2 ^ 5 := Nat.pow_lt_pow_right (by omega) (by omega)
  rw [State.setF_f_width _ _ _ _ 5 (by decide) rfl]
  exact Nat.mod_eq_of_lt (Nat.or_lt_two_pow (s.f_lt SYS_PWRSTAT.WAKE_OTHER 0) one)

/-- A source whose wake is enabled wakes with its cause and its unit. -/
theorem wake_wakes {w : WakeSource} {cause n : Nat} (enabled :
    (∃ c, w = .can c ∧ c < 20 ∧ cause = 1 ∧ n = c ∧ bit (s.f SYS_PWRCTRL.WAKE_CAN 0) c = true)
      ∨ (∃ p, w = .eth p ∧ 2 ≤ p ∧ p < 12 ∧ cause = 2 ∧ n = p ∧ bit (s.f SYS_PWRCTRL.WAKE_ETH 0) (p - 2) = true)
      ∨ (∃ p, w = .weska p ∧ p < 4 ∧ cause = 3 ∧ n = p ∧ s.fb WSK_PORTCFG.EN p = true)
      ∨ (w = .wakeIn ∧ cause = 5 ∧ n = 0 ∧ s.fb SYS_PWRCTRL.WAKE_IN_EN 0 = true)) :
    exec (.wake w) s = .next (s.wake cause n) ∧ cause ≤ 5 := by
  rcases enabled with ⟨c, rfl, lt, rfl, rfl, on⟩ | ⟨p, rfl, from_, lt, rfl, rfl, on⟩ | ⟨p, rfl, lt, rfl, rfl, on⟩ | ⟨rfl, rfl, rfl, on⟩
  · rw [exec_wake, execWake, decide_eq_true lt, unit_true, if_pos on]
    exact ⟨rfl, by decide⟩
  · rw [exec_wake, execWake, decide_eq_true lt, decide_eq_true from_, Bool.and_self, unit_true, if_pos on]
    exact ⟨rfl, by decide⟩
  · have port : isPort n = true := decide_eq_true lt
    rw [exec_wake, execWake, port, unit_true, if_pos on]
    exact ⟨rfl, by decide⟩
  · rw [exec_wake, execWake, if_pos on]
    exact ⟨rfl, by decide⟩

/-! ## The power-fail warning (R327, R328) -/

/-- The state that shows the warning. -/
def State.warned (s : State) : State := s.setF SYS_PWRSTAT.PFW 0 1

theorem leaves_warned : Leaves [] (oneReg .sysPwrstat 0) s s.warned := (Leaves.refl _ _ s).setF ⟨rfl, rfl⟩

theorem State.warned_pfw : s.warned.fb SYS_PWRSTAT.PFW 0 = true :=
  State.fb_of_f (State.setF_f_width _ _ _ _ 1 (by decide) rfl)

theorem State.warned_fwp (p : Nat) : s.warned.fwp p = s.fwp p := State.setF_fwp ..

theorem State.warned_power : s.warned.sys.power = s.sys.power := by rw [State.warned, State.setF_sys]

theorem State.warned_now : s.warned.now = s.now := State.setF_now ..

theorem full_eq : 2 ^ 32 - 1 = 0xFFFFFFFF := by norm_num

/-- The event of a warning stands in the field record. -/
def State.pfwCounted (s : State) : State := (s.recCount 2).logEvent 11 0 0

theorem leaves_pfwCounted : Leaves [.record] noReg s s.pfwCounted := ((Leaves.refl _ _ s).modRec (by simp)).modRec (by simp)

theorem State.pfwCounted_counts : NMap.get s.pfwCounted.sys.record.counts 0 2 = min (NMap.get s.sys.record.counts 0 2 + 1) 0xFFFFFFFF := by
  have counts : s.pfwCounted.sys.record.counts = satAdd32 s.sys.record.counts 2 1 := rfl
  rw [counts, NMap.get_satAdd32, if_pos rfl, full_eq]

theorem State.pfwCounted_seq : s.pfwCounted.sys.record.seq = s.sys.record.seq := (rfl)

/-- A warning within a second of the last checkpoint is counted alone. -/
theorem State.pfwServe_recent {x : Nat} (last : s.sys.power.lastPfwNs = some x) (recent : reached s.now (x + 1000000000) = false) :
    s.pfwServe = s.pfwCounted := by
  have soon : (s.sys.power.lastPfwNs.any fun t => !reached s.now (t + 1000000000)) = true := by rw [last, Option.any_some, recent]; rfl
  unfold State.pfwServe
  dsimp only
  rw [soon, if_pos rfl]
  rfl

/-- A warning later than that is written. -/
theorem State.pfwServe_writes (due : ∀ x, s.sys.power.lastPfwNs = some x → reached s.now (x + 1000000000) = true) :
    s.pfwServe = (s.pfwCounted.checkpoint 2 false).modPower fun p => { p with lastPfwNs := some s.now } := by
  have late : (s.sys.power.lastPfwNs.any fun t => !reached s.now (t + 1000000000)) = false := by
    cases last : s.sys.power.lastPfwNs with
    | none => rfl
    | some x => rw [Option.any_some, due x last]; rfl
  unfold State.pfwServe
  dsimp only
  rw [late, if_neg Bool.false_ne_true]
  rfl

/-- What a checkpoint to a billet slot leaves. -/
structure Checkpointed (reason : Nat) (s t : State) : Prop where
  reason : t.sys.record.reason = reason
  seq : t.sys.record.seq = s.sys.record.seq + 1
  counts : t.sys.record.counts = s.sys.record.counts
  retired : t.sys.record.retired = s.sys.record.retired
  summary : t.sys.store.summary = some t.sys.record
  slots : s.billetLive = true → s.sys.store.nextSlot = 0 →
    t.sys.store.slot0 = some t.sys.record ∧ t.sys.store.slot1 = s.sys.store.slot1
  leaves : Leaves [.keptIrqs, .outbox, .record, .store] (oneReg .sysBillet 0) s t

theorem checkpointed_checkpoint (s : State) (reason : Nat) (copy : Bool) : Checkpointed reason s (s.checkpoint reason copy) := by
  have record := s.checkpointRecord_record reason
  have leaves := s.leaves_checkpointRecord reason
  have store : (s.checkpointRecord reason).sys.store = s.sys.store := leaves.1 .store (by simp)
  rw [State.checkpoint_eq, store]
  generalize s.checkpointRecord reason = u at record leaves store
  have stored := u.leaves_setStore (s.sys.store.checkpointed u.sys.record s.billetLive copy)
  have kept : (u.setStore (s.sys.store.checkpointed u.sys.record s.billetLive copy)).sys.record = u.sys.record :=
    stored.1 .record (by simp)
  refine ⟨?_, ?_, ?_, ?_, ?_, fun live first => ?_, (leaves.mono (by simp) fun _ _ e => e).into stored (by simp) fun _ _ no => no.elim⟩
  · rw [kept, record]
  · rw [kept, record]
  · rw [kept, record]
  · rw [kept, record]
  · rw [kept, State.setStore_store]
    rfl
  · rw [kept, State.setStore_store, RecordStore.checkpointed, live, if_pos rfl, if_pos first]
    exact ⟨rfl, rfl⟩

/-- What a warning that is written leaves. -/
theorem pfwServe_checkpoints (due : ∀ x, s.sys.power.lastPfwNs = some x → reached s.now (x + 1000000000) = true) :
    s.pfwServe.sys.record.reason = 2 ∧ s.pfwServe.sys.record.seq = s.sys.record.seq + 1
      ∧ NMap.get s.pfwServe.sys.record.counts 0 2 = min (NMap.get s.sys.record.counts 0 2 + 1) 0xFFFFFFFF
      ∧ s.pfwServe.sys.store.summary = some s.pfwServe.sys.record ∧ s.pfwServe.sys.power.lastPfwNs = some s.now
      ∧ (s.billetLive = true → s.sys.store.nextSlot = 0 → s.pfwServe.sys.store.slot0 = some s.pfwServe.sys.record
          ∧ s.pfwServe.sys.store.slot1 = s.sys.store.slot1)
      ∧ Leaves [.keptIrqs, .outbox, .power, .record, .store] (oneReg .sysBillet 0) s s.pfwServe := by
  have counted := leaves_pfwCounted (s := s)
  have counts := State.pfwCounted_counts (s := s)
  have seq := State.pfwCounted_seq (s := s)
  have store : s.pfwCounted.sys.store = s.sys.store := counted.1 .store (by simp)
  have live : s.pfwCounted.billetLive = s.billetLive := State.billetLive_same s counted (by simp) nofun
  have written := checkpointed_checkpoint s.pfwCounted 2 false
  rw [State.pfwServe_writes due]
  generalize s.pfwCounted = u at *
  generalize u.checkpoint 2 false = v at *
  rw [State.modPower_power]
  refine ⟨written.reason, written.seq.trans (by rw [seq]), ?_, written.summary, rfl, fun on first => ?_, ?_⟩
  · exact (congrArg (fun m => NMap.get m 0 2) written.counts).trans counts
  · have slots := written.slots (live.trans on) (by rw [store, first])
    exact ⟨slots.1, slots.2.trans (by rw [store])⟩
  · have first : Leaves [.keptIrqs, .outbox, .power, .record, .store] (oneReg .sysBillet 0) s u :=
      counted.mono (by simp) fun _ _ no => no.elim
    exact (first.into written.leaves (by simp) fun _ _ e => e).modPower fun _ => rfl

/-- A warning that the Cupola serves. -/
theorem powerFailWarning_serves (on : s.sys.power.mode = .on) (up : (s.fwp 1).restarting = false) (runs : (s.fwp 1).running = true) :
    exec .powerFailWarning s = .next s.warned.pfwServe := by
  have cupola : s.warned.cupolaUp = true := by rw [State.cupolaUp, State.warned_fwp, runs]
  have stays : ((s.setF SYS_PWRSTAT.PFW 0 1).fwp 1).restarting = false := by rw [← State.warned, State.warned_fwp, up]
  rw [exec_powerFailWarning, execPowerFailWarning, if_neg (fun off => off on)]
  dsimp only
  rw [stays, ← State.warned, cupola, if_neg Bool.false_ne_true, if_pos rfl]

/-- The state in which the warning is served. -/
theorem State.warned_due (due : ∀ x, s.sys.power.lastPfwNs = some x → reached s.now (x + 1000000000) = true) :
    ∀ x, s.warned.sys.power.lastPfwNs = some x → reached s.warned.now (x + 1000000000) = true := by
  rwa [State.warned_power, State.warned_now]

theorem State.warned_record : s.warned.sys.record = s.sys.record := by rw [State.warned, State.setF_sys]

theorem State.warned_store : s.warned.sys.store = s.sys.store := by rw [State.warned, State.setF_sys]

/-- A warning that finds the Cupola restarting is latched. -/
theorem powerFailWarning_latched (on : s.sys.power.mode = .on) (down : (s.fwp 1).restarting = true) :
    exec .powerFailWarning s = .next (s.warned.modPower fun p => { p with pfwLatched := true }) := by
  have stays : ((s.setF SYS_PWRSTAT.PFW 0 1).fwp 1).restarting = true := by rw [← State.warned, State.warned_fwp, down]
  rw [exec_powerFailWarning, execPowerFailWarning, if_neg (fun off => off on)]
  dsimp only
  rw [stays, if_pos rfl, State.warned]

/-! ## The billet (R340) -/

/-- What is known of the module after a change; `same` where it is the module known before. -/
def PowerSt.changed (p : PowerSt) (fit same : Bool) (serial endu : Nat) (frn : Bool) : PowerSt :=
  if fit then
    { p with billetFitted := true, billetSerial := serial, billetEndurance := endu, billetForeign := frn
             billetBound := p.billetBound && same && !frn }
  else { p with billetFitted := false }

/-- The device after a change of the module, beside what its state shows. -/
def State.billetChanged (s : State) (fit same : Bool) (serial endu : Nat) (frn : Bool) : State :=
  if fit && !same then
    (s.modPower fun p => p.changed fit same serial endu frn).setStore { s.sys.store with slot0 := none, slot1 := none }
  else s.modPower fun p => p.changed fit same serial endu frn

theorem billetChange_eq (fit frn : Bool) (serial endu : Nat) : exec (.billetChange fit serial endu frn) s
    = .next (if s.sys.power.mode = .on then
        (s.billetChanged fit (s.sys.power.billetSerial == serial) serial endu frn).setF SYS_BILLET.STATE 0
          (if !fit then 0 else if frn then 3 else 1)
      else s.billetChanged fit (s.sys.power.billetSerial == serial) serial endu frn) := by
  rw [exec_billetChange, execBilletChange]
  generalize (s.sys.power.billetSerial == serial) = same
  cases fit with
  | false => rfl
  | true => cases same <;> rfl

theorem State.billetChanged_power (fit same frn : Bool) (serial endu : Nat) :
    (s.billetChanged fit same serial endu frn).sys.power = s.sys.power.changed fit same serial endu frn := by
  unfold State.billetChanged
  split <;> rfl

theorem leaves_billetChanged (fit same frn : Bool) (serial endu : Nat) :
    Leaves [.power, .store] noReg s (s.billetChanged fit same serial endu frn) := by
  have known : Leaves [.power, .store] noReg s (s.modPower fun p => p.changed fit same serial endu frn) :=
    (Leaves.refl _ _ s).modPower fun p => by cases fit <;> rfl
  unfold State.billetChanged
  split
  · exact known.into (State.leaves_setStore _ _) (by simp) fun _ _ no => no
  · exact known

/-- The slots of the module stay where it is the one known before, or is taken out. -/
theorem State.billetChanged_store (fit same frn : Bool) (serial endu : Nat) (kept : fit = false ∨ same = true) :
    (s.billetChanged fit same serial endu frn).sys.store = s.sys.store := by
  unfold State.billetChanged
  rw [if_neg]
  · rfl
  · rcases kept with rfl | rfl <;> simp

/-! ## The Cupola's watchdog (R336) -/

/-- The state after a taken kick. -/
theorem kick_kicks {m : Master} {v : Word} (acc : s.accepts .cupWdog 0 m .whole (withBit v 63)) : exec (.kick m v) s
    = .next (((s.wrote 0 (withBit v 63) .cupWdog).setF CUP_WDOG.KICK 0 0).modPower fun p => { p with kickNs := s.now }) := by
  rw [exec_kick, execKick, State.regWrite_whole s .cupWdog 0 _ m acc (by decide) rfl rfl, State.afterWrite, bit_withBit, if_pos rfl, State.wrote]
  simp only [State.setR_now]

/-- The state after the watchdog has expired. -/
def State.watchdogNoted (s : State) : State :=
  ((s.incSat CUP_WDOG.RESTARTS 0 1).recCount 5).logEvent 10 0 0

theorem leaves_watchdogNoted : Leaves [.record] (oneReg .cupWdog 0) s s.watchdogNoted :=
  (((Leaves.refl _ _ s).incSat ⟨rfl, rfl⟩).modRec (by simp)).modRec (by simp)

theorem State.watchdogNoted_restarts : s.watchdogNoted.f CUP_WDOG.RESTARTS 0 = min (s.f CUP_WDOG.RESTARTS 0 + 1) 0xFFFF := by
  rw [State.watchdogNoted, State.logEvent_f, State.recCount, State.modRec_f, counted CUP_WDOG.RESTARTS 0 (by decide) rfl]

/-- The Cupola without a kick in time. -/
theorem cupolaWatchdog_restarts (runs : (s.fwp 1).running = true)
    (late : reached s.now (s.sys.power.kickNs + s.f CUP_WDOG.TIMEOUT_MS 0 * 1000000) = true) :
    exec .cupolaWatchdog s = .next (s.watchdogNoted.modFw 1 fun x =>
      { x with running := false, restarting := true, nextImage := (s.fwp 1).image, waiter := none }) := by
  rw [exec_cupolaWatchdog, execCupolaWatchdog, runs, late, if_neg (by decide), State.stopFw]
  rfl

theorem cupolaWatchdog_waits (no : ¬((s.fwp 1).running = true
    ∧ reached s.now (s.sys.power.kickNs + s.f CUP_WDOG.TIMEOUT_MS 0 * 1000000) = true)) : exec .cupolaWatchdog s = .next s := by
  rw [exec_cupolaWatchdog, execCupolaWatchdog, if_pos]
  rw [not_and_or] at no
  simpa using no

/-! ## Kept causes (R359) -/

/-- The write of EN does not touch what keeps a cause standing. -/
theorem State.causeStands_wrote (v : Nat) (k : Nat × Nat) : (s.wrote 0 v .sysIrqcfg).causeStands k = s.causeStands k := by
  have f (x : Fld) (i : Nat) (ne : x.reg ≠ .sysIrqcfg) : (s.wrote 0 v .sysIrqcfg).f x i = s.f x i := s.wrote_f 0 v .sysIrqcfg x i ne
  have r (g : Reg) (i : Nat) (ne : g ≠ .sysIrqcfg) : (s.wrote 0 v .sysIrqcfg).r g i = s.r g i :=
    (s.leaves_wrote 0 v .sysIrqcfg).2 g i fun h => ne h.1
  unfold State.causeStands
  simp (disch := decide) only [State.fb, f, r]

theorem State.fb_of_regs {x : Fld} {i : Nat} (regs : t.regs = s.regs) : t.fb x i = s.fb x i := by
  unfold State.fb State.f State.r
  rw [regs]

/-- The causes of a list leave once EN is set, the last one first. -/
theorem State.each_mgrIrq (ks : List (Nat × Nat)) (en : s.fb SYS_IRQCFG.EN 0 = true) :
    (s.each ks fun s k => s.mgrIrq k.1 k.2).outbox = (ks.map fun k => Out.mgrIrq k.1 k.2).reverse ++ s.outbox
      ∧ Leaves [.outbox] noReg s (s.each ks fun s k => s.mgrIrq k.1 k.2) := by
  induction ks generalizing s with
  | nil => exact ⟨rfl, .refl _ _ s⟩
  | cons k ks ih =>
    have sent : s.mgrIrq k.1 k.2 = s.emit (.mgrIrq k.1 k.2) := if_pos en
    have first : (s.each (k :: ks) fun s k => s.mgrIrq k.1 k.2) = (s.mgrIrq k.1 k.2).each ks fun s k => s.mgrIrq k.1 k.2 := rfl
    obtain ⟨out, leaves⟩ := ih (s := s.emit (.mgrIrq k.1 k.2)) (by rw [State.emit_fb, en])
    rw [first, sent, List.map_cons, List.reverse_cons, List.append_assoc]
    exact ⟨out, (Leaves.refl _ _ s).emit.trans leaves⟩

/-- No cause is kept any more. -/
def State.noneKept (s : State) : State := { s with sys.keptIrqs := [] }

theorem leaves_noneKept : Leaves [.keptIrqs] noReg s s.noneKept := (Leaves.refl _ _ s).beside

theorem State.noneKept_fb {x : Fld} {i : Nat} : s.noneKept.fb x i = s.fb x i := State.fb_of_regs rfl

/-- The kept causes that stand leave, and none is kept. -/
theorem sendKept_sends (en : s.fb SYS_IRQCFG.EN 0 = true) : s.sendKept.sys.keptIrqs = []
    ∧ s.sendKept.outbox = ((s.sys.keptIrqs.filter s.causeStands).map fun k => Out.mgrIrq k.1 k.2).reverse ++ s.outbox
    ∧ Leaves [.keptIrqs, .outbox] noReg s s.sendKept := by
  have form : s.sendKept = s.noneKept.each (s.sys.keptIrqs.filter s.causeStands) fun s k => s.mgrIrq k.1 k.2 := rfl
  obtain ⟨out, leaves⟩ := State.each_mgrIrq (s := s.noneKept) (s.sys.keptIrqs.filter s.causeStands) (by rw [State.noneKept_fb, en])
  rw [form]
  exact ⟨leaves.1 .keptIrqs (by simp), out, (leaves_noneKept.mono (by simp) fun _ _ no => no).into leaves (by simp) fun _ _ no => no⟩

/-- What the setting of EN leaves where it was clear, and where it was set. -/
theorem irqEnable_sends {m : Master} {v : Word} (acc : s.accepts .sysIrqcfg 0 m .whole (withBit v 0)) : ∃ t,
    exec (.irqEnable m v) s = .next t ∧ t.fb SYS_IRQCFG.EN 0 = true
      ∧ (s.fb SYS_IRQCFG.EN 0 = false → t.sys.keptIrqs = []
          ∧ t.outbox = ((s.sys.keptIrqs.filter s.causeStands).map fun k => Out.mgrIrq k.1 k.2).reverse ++ s.outbox)
      ∧ (s.fb SYS_IRQCFG.EN 0 = true → t.sys.keptIrqs = s.sys.keptIrqs ∧ t.outbox = s.outbox)
      ∧ Leaves [.keptIrqs, .outbox] (oneReg .sysIrqcfg 0) s t := by
  have rw : (0, 0, FKind.rw) ∈ Reg.fieldsAt .sysIrqcfg 0 := by decide
  have merged : bits (s.merged .sysIrqcfg 0 .whole (withBit v 0)) 0 0 = 1 :=
    (State.merged_rw s .sysIrqcfg 0 .whole _ 0 0 rw).trans (bits_withBit v 0)
  have on : (s.wrote 0 (withBit v 0) .sysIrqcfg).fb SYS_IRQCFG.EN 0 = true :=
    State.fb_of_f ((s.wrote_rw 0 _ SYS_IRQCFG.EN rw).trans (bits_withBit v 0))
  have wrote : Leaves [.keptIrqs, .outbox] (oneReg .sysIrqcfg 0) s (s.wrote 0 (withBit v 0) .sysIrqcfg) :=
    (s.leaves_wrote 0 (withBit v 0) .sysIrqcfg).mono (by simp) fun _ _ e => e
  have run := State.regWrite_whole s .sysIrqcfg 0 _ m acc (by decide) (by simp [State.hitsLock, Reg.fieldsAt, Reg.fields]) rfl
  have stands : (s.wrote 0 (withBit v 0) .sysIrqcfg).causeStands = s.causeStands := funext (s.causeStands_wrote (withBit v 0))
  have kept : (s.wrote 0 (withBit v 0) .sysIrqcfg).sys.keptIrqs = s.sys.keptIrqs :=
    (s.leaves_wrote 0 (withBit v 0) .sysIrqcfg).1 .keptIrqs (by simp)
  have out : (s.wrote 0 (withBit v 0) .sysIrqcfg).outbox = s.outbox := (s.leaves_wrote 0 (withBit v 0) .sysIrqcfg).1 .outbox (by simp)
  have rise : rises (s.r .sysIrqcfg 0) (s.merged .sysIrqcfg 0 .whole (withBit v 0)) 0 = !s.fb SYS_IRQCFG.EN 0 := by
    rw [rises, bit, bit, merged, beq_self_eq_true, Bool.and_true, State.fb, State.f]
    rfl
  rw [State.afterWrite, rise] at run
  generalize s.wrote 0 (withBit v 0) .sysIrqcfg = u at *
  refine ⟨_, (exec_irqEnable m v s).trans (congrArg Host.Outcome.next run), ?_⟩
  cases was : s.fb SYS_IRQCFG.EN 0 with
  | true =>
    rw [Bool.not_true, if_neg Bool.false_ne_true]
    exact ⟨on, nofun, fun _ => ⟨kept, out⟩, wrote⟩
  | false =>
    obtain ⟨none, sent, leaves⟩ := sendKept_sends on
    rw [Bool.not_false, if_pos rfl]
    refine ⟨?_, fun _ => ⟨none, ?_⟩, nofun, wrote.into leaves (by simp) fun _ _ no => no.elim⟩
    · rw [State.fb, leaves.f_same _ _ nofun, ← State.fb, on]
    · rw [sent, stands, kept, out]

end

/-- Settles O58: a lemma for each kind of command gives the state that it leaves. -/
theorem wakesAndWarningsAreRecorded : Obligations.WakesAndWarningsAreRecorded := by
  unfold Obligations.WakesAndWarningsAreRecorded
  refine ⟨fun s w cause n enabled => ?_, fun s => ?_, fun s => ⟨fun awake => ?_, fun standby => ?_⟩, fun s => ?_, fun s => ?_,
    fun s l ok => ?_, fun s fit frn serial endu => ?_, fun s m v acc => ?_, fun s => ⟨cupolaWatchdog_waits, fun ⟨runs, late⟩ => ?_⟩,
    fun s m v => irqEnable_sends⟩
  · obtain ⟨run, small⟩ := wake_wakes enabled
    refine ⟨fun awake => ?_, fun standby first => ?_, fun standby later => ⟨_, run, State.wake_others small standby later⟩⟩
    · rw [run, State.wake_awake awake]
    · have woken := woken_wake (k := cause) (n := n) standby first
      exact ⟨_, run, woken.cause.trans (Nat.mod_eq_of_lt (by omega)), woken.unit, woken.other, woken.seen, woken.power, woken.pin, woken.leaves⟩
  · refine ⟨fun no => ?_, fun set due standby first => ?_⟩
    · rw [exec_wakeTimer, execWakeTimer]
      split
      · rename_i wakes
        rw [Bool.and_eq_true, decide_eq_true_iff, decide_eq_true_iff] at wakes
        rw [State.wake_awake]
        exact (no.resolve_left (by omega)).resolve_left (by omega)
      · rfl
    · have woken := woken_wake (k := 4) (n := 0) standby first
      refine ⟨_, ?_, woken.cause, woken.power, woken.leaves⟩
      rw [exec_wakeTimer, execWakeTimer, if_pos (by rw [Bool.and_eq_true, decide_eq_true_iff, decide_eq_true_iff]; omega)]
  · rw [exec_standbySecond, execStandbySecond, if_neg awake]
  · refine ⟨_, ?_, State.incSat_f_same _ _ _ _ (by decide), (Leaves.refl _ _ s).incSat ⟨rfl, rfl⟩⟩
    rw [exec_standbySecond, execStandbySecond, if_pos standby]
  · refine ⟨fun off => ?_, fun on down => ⟨_, powerFailWarning_latched on down, ?_, rfl, ?_⟩, fun on up runs due => ?_,
      fun x on up runs last recent => ?_⟩
    · rw [exec_powerFailWarning, execPowerFailWarning, if_pos off]
    · rw [State.modPower_fb, State.warned_pfw]
    · exact (leaves_warned.mono (by simp) fun _ _ e => e).modPower fun _ => rfl
    · obtain ⟨reason, seq, counts, summary, last, slots, leaves⟩ := pfwServe_checkpoints (s.warned_due due)
      have shown : Leaves [.keptIrqs, .outbox, .power, .record, .store] (fun r i => (r = .sysBillet ∨ r = .sysPwrstat) ∧ i = 0) s
          s.warned := leaves_warned.mono (by simp) fun _ _ e => ⟨.inr e.1, e.2⟩
      have live : s.warned.billetLive = s.billetLive := State.billetLive_same s leaves_warned (by simp) fun e => absurd e.1 (by decide)
      refine ⟨_, powerFailWarning_serves on up runs, ?_, reason, ?_, ?_, summary, ?_, fun paired powered first => ?_,
        shown.into leaves (by simp) fun _ _ e => ⟨.inl e.1, e.2⟩⟩
      · rw [State.fb, leaves.f_same _ _ fun e => absurd e.1 (by decide), ← State.fb, State.warned_pfw]
      · rw [seq, State.warned_record]
      · rw [counts, State.warned_record]
      · rw [last, State.warned_now]
      · have both : s.billetLive = true := by rw [State.billetLive, paired, powered]; rfl
        have stored := slots (live.trans both) (by rw [State.warned_store, first])
        rwa [State.warned_store] at stored
    · have recent' : s.warned.pfwServe = s.warned.pfwCounted :=
        State.pfwServe_recent (by rw [State.warned_power, last]) (by rw [State.warned_now, recent])
      refine ⟨_, (powerFailWarning_serves on up runs).trans (by rw [recent']), ?_, ?_, ?_, ?_⟩
      · rw [leaves_pfwCounted.1 .store (by simp), State.warned_store]
      · rw [State.pfwCounted_seq, State.warned_record]
      · rw [State.pfwCounted_counts, State.warned_record]
      · exact (leaves_warned.mono (by simp) fun _ _ e => e).into leaves_pfwCounted (by simp) fun _ _ no => no.elim
  · refine ⟨_, exec_powerFailWarningEnd s, ?_, (Leaves.refl _ _ s).setF ⟨rfl, rfl⟩⟩
    rw [State.fb, State.setF_f_width _ _ _ _ 1 (by decide) rfl]
    rfl
  · refine ⟨_, by rw [exec_linkRetrain, execLinkRetrain, ok, unit_true], fun k => ?_, (Leaves.refl _ _ s).modRec (by simp)⟩
    · rw [State.modRec_record]
      dsimp only
      rw [NMap.get_satAdd32, full_eq]
      split
      · rename_i same
        rw [same]
      · rfl
  · have changed := leaves_billetChanged (s := s) fit (s.sys.power.billetSerial == serial) frn serial endu
    have power := s.billetChanged_power fit (s.sys.power.billetSerial == serial) frn serial endu
    have store := s.billetChanged_store fit (s.sys.power.billetSerial == serial) frn serial endu
    have run := billetChange_eq (s := s) fit frn serial endu
    generalize s.billetChanged fit (s.sys.power.billetSerial == serial) serial endu frn = u at *
    have fitted : u.sys.power.billetFitted = fit := by
      rw [power, PowerSt.changed]
      cases fit <;> rfl
    have known : fit = true → u.sys.power.billetSerial = serial ∧ u.sys.power.billetEndurance = endu := by
      rintro rfl
      rw [power, PowerSt.changed, if_pos rfl]
      exact ⟨rfl, rfl⟩
    have kept : fit = false ∨ s.sys.power.billetSerial = serial → u.sys.store = s.sys.store := fun e =>
      store (e.imp_right beq_iff_eq.2)
    have leaves : Leaves [.power, .store] (oneReg .sysBillet 0) s u := changed.mono (by simp) fun _ _ no => no.elim
    by_cases on : s.sys.power.mode = .on
    · rw [if_pos on] at run
      refine ⟨_, run, ?_, fun _ => ?_, fun e => ?_, fun e => ?_, leaves.setF ⟨rfl, rfl⟩⟩
      · rw [State.setF_sys, fitted]
      · rw [State.setF_f_width _ _ _ _ 2 (by decide) rfl]
        cases fit <;> cases frn <;> rfl
      · rw [State.setF_sys]
        exact known e
      · rw [State.setF_sys, kept e]
    · rw [if_neg on] at run
      exact ⟨u, run, fitted, fun e => absurd e on, known, kept, leaves⟩
  · have wrote := s.leaves_wrote 0 (withBit v 63) .cupWdog
    refine ⟨_, kick_kicks acc, ?_, ?_, ?_, ?_⟩
    · rw [State.modPower_power]
    · rw [State.modPower_fb, State.fb, State.setF_f_width _ _ _ _ 1 (by decide) rfl]
      rfl
    · rw [State.modPower_f, State.setF_f_apart _ _ _ _ _ _ (by decide) (by decide),
        ← bits_withBit_below v 62 53 (by decide)]
      exact s.wrote_rw 0 _ CUP_WDOG.TIMEOUT_MS (by decide)
    · exact ((wrote.mono (by simp) fun _ _ e => e).setF ⟨rfl, rfl⟩).modPower fun _ => rfl
  · have others : s.watchdogNoted.sys.fw = s.sys.fw := leaves_watchdogNoted.1 .fw (by simp)
    refine ⟨_, cupolaWatchdog_restarts runs late, ?_, ?_, ?_, fun p ne => ?_, ?_, ?_⟩
    · rw [State.modFw_fwp, if_pos rfl]
    · rw [State.modFw_fwp, if_pos rfl]
    · rw [State.modFw_fwp, if_pos rfl]
    · rw [State.modFw_fwp, if_neg ne, State.fwp, others, ← State.fwp]
    · rw [State.modFw_f, State.watchdogNoted_restarts]
    · exact (leaves_watchdogNoted.mono (by simp) fun _ _ e => e).modFw

end Sys2Proof.Machine
end

section
/-! PROOFS. Power modes: what a reset takes and keeps, and how the rails and trips move the device (R141, R323 to R325, R350, R363,
R369). -/

set_option Elab.async false

namespace Sys2Proof.Machine

section
variable {s t u : State}

/-! ## What a reset takes -/

/-- A map filtered by its keys reads as before where its key stays, and as unlisted elsewhere. -/
theorem NMap.get_filter_keys {α : Type} (m : NMap α) (d : α) (p : Nat → Bool) (k : Nat) :
    NMap.get (m.filter fun e => p e.1) d k = if p k then NMap.get m d k else d := by
  cases stays : p k with
  | true => rw [if_pos rfl]; exact NMap.get_filter _ _ _ _ fun _ => stays
  | false => rw [if_neg Bool.false_ne_true]; exact NMap.get_filter_out _ _ _ _ fun _ => stays

/-- The registers of VDD_AON (R350). -/
def aonHolds (r : Reg) (i : Nat) : Prop := (r = .sysPwrctrl ∨ r = .sysPwrstat ∨ r = .sysStbytime) ∧ i = 0

theorem aonReg_iff (r : Reg) (i : Nat) : aonReg (r.key i) = true ↔ aonHolds r i := by
  unfold aonReg aonHolds
  simp only [Bool.or_eq_true, beq_iff_eq, Reg.key_inj, or_and_right, or_assoc]

/-- A register after a reset without doze. -/
theorem State.wipe_r (cold : Bool) (r : Reg) (i : Nat) (Q : Prop) [Decidable Q] (holds : Q ↔ aonHolds r i) :
    (s.wipe false cold).r r i = if cold = false ∧ Q then s.r r i else State.reset.r r i := by
  have read (m : State) : m.r r i = (NMap.get m.regs (r.reset i) (r.key i)).toNat := rfl
  cases cold with
  | true =>
    rw [if_neg (by simp)]
    rfl
  | false =>
    have regs : (s.wipe false false).regs = s.regs.filter fun e => aonReg e.1 || (false && wskReg e.1) := rfl
    simp only [Bool.false_and, Bool.or_false] at regs
    rw [read, regs, NMap.get_filter_keys, read, State.reset_r]
    by_cases here : Q
    · rw [if_pos ((aonReg_iff r i).2 (holds.1 here)), if_pos ⟨rfl, here⟩]
    · rw [if_neg (fun e => here (holds.2 ((aonReg_iff r i).1 e))), if_neg (fun e => here e.2)]

/-- The state beside its power state and the record of what has left. -/
structure Still (s t : State) : Prop where
  regs : t.regs = s.regs
  mem : t.mem = s.mem
  work : t.work = s.work
  units : t.units = s.units
  store : t.sys.store = s.sys.store
  record : t.sys.record = s.sys.record
  fw : t.sys.fw = s.sys.fw
  trust : t.sys.trust = s.sys.trust

theorem Still.refl (s : State) : Still s s := ⟨rfl, rfl, rfl, rfl, rfl, rfl, rfl, rfl⟩

theorem Still.trans (h : Still s t) (g : Still t u) : Still s u :=
  ⟨g.regs.trans h.regs, g.mem.trans h.mem, g.work.trans h.work, g.units.trans h.units, g.store.trans h.store,
    g.record.trans h.record, g.fw.trans h.fw, g.trust.trans h.trust⟩

theorem Still.emit (h : Still s t) (o : Out) : Still s (t.emit o) := h.trans ⟨rfl, rfl, rfl, rfl, rfl, rfl, rfl, rfl⟩

theorem Still.modPower (h : Still s t) (g : PowerSt → PowerSt) : Still s (t.modPower g) := h.trans ⟨rfl, rfl, rfl, rfl, rfl, rfl, rfl, rfl⟩

theorem Still.safePin (h : Still s t) (n : String) (level : Bool) : Still s (t.safePin n level) := by
  unfold State.safePin
  split
  · exact h
  · exact h.emit _

theorem Still.holdSafe (h : Still s t) : Still s t.holdSafe := by
  unfold State.holdSafe
  split
  · exact h
  · exact ((h.modPower _).safePin _ _).safePin _ _

theorem Still.releaseSafe (h : Still s t) : Still s t.releaseSafe := by
  unfold State.releaseSafe
  split
  · exact ((h.modPower _).safePin _ _).safePin _ _
  · exact h

theorem Still.socPower (h : Still s t) (on : Bool) : Still s (t.socPower on) := by
  unfold State.socPower
  split
  · exact h
  · exact (h.modPower _).emit _

theorem Still.r_same (h : Still s t) (r : Reg) (i : Nat) : t.r r i = s.r r i := by
  unfold State.r
  rw [h.regs]

theorem Still.f_same (h : Still s t) (x : Fld) (i : Nat) : t.f x i = s.f x i := by
  unfold State.f
  rw [h.r_same]

/-! ## The safety outputs held and released (R363) -/

/-- The power state with its outputs held. -/
def PowerSt.held (p : PowerSt) : PowerSt := if p.safeHeld then p else { p with safeHeld := true, safeFlt := false, safeWarn := false }

/-- The power state with its outputs released. -/
def PowerSt.released (p : PowerSt) : PowerSt := { p with safeHeld := false }

theorem State.holdSafe_power : s.holdSafe.sys.power = s.sys.power.held := by
  unfold State.holdSafe PowerSt.held
  split
  · rfl
  · rw [State.safePin_power, State.safePin_power, State.modPower_power]

theorem State.releaseSafe_power : s.releaseSafe.sys.power = s.sys.power.released := by
  unfold State.releaseSafe PowerSt.released
  split
  · rw [State.safePin_power, State.safePin_power, State.modPower_power]
  · rename_i off
    rw [← Bool.eq_false_of_not_eq_true off]

theorem PowerSt.held_holds (p : PowerSt) : p.held.safeHeld = true := by
  unfold PowerSt.held
  split
  · assumption
  · rfl

/-- What holding the outputs leaves of the power state. -/
theorem PowerSt.held_keeps (p : PowerSt) : p.held.mode = p.mode ∧ p.held.booted = p.booted ∧ p.held.railsUp = p.railsUp
    ∧ p.held.coldNext = p.coldNext ∧ p.held.socPwrEn = p.socPwrEn := by
  unfold PowerSt.held
  split <;> exact ⟨rfl, rfl, rfl, rfl, rfl⟩

/-! ## The device in reset (R350) -/

/-- What a reset leaves, beside the registers. -/
structure Wiped (s t : State) : Prop where
  mem : t.mem = {}
  work : t.work = {}
  units : t.units = {}
  store : t.sys.store = { s.sys.store with retired := s.sys.record.retired.foldl insNat s.sys.store.retired }
  record : t.sys.record = {}
  fw : t.sys.fw = []
  keys : t.sys.trust.keys = []

theorem wiped_wipe (s : State) (doze cold : Bool) : Wiped s (s.wipe doze cold) := ⟨rfl, rfl, rfl, rfl, rfl, rfl, rfl⟩

theorem Wiped.still (h : Wiped s t) (g : Still t u) : Wiped s u :=
  ⟨g.mem.trans h.mem, g.work.trans h.work, g.units.trans h.units, g.store.trans h.store, g.record.trans h.record, g.fw.trans h.fw,
    (congrArg TrustSt.keys g.trust).trans h.keys⟩

theorem still_toReset (s : State) (cold : Bool) : Still (s.wipe false cold) (s.toReset cold) := ((Still.refl _).modPower _).holdSafe

theorem State.toReset_power (cold : Bool) :
    (s.toReset cold).sys.power = ({ s.sys.power with mode := .reset, booted := false } : PowerSt).held := by
  rw [State.toReset, State.holdSafe_power, State.modPower_power]
  rfl

theorem State.toReset_r (cold : Bool) (r : Reg) (i : Nat) (Q : Prop) [Decidable Q] (holds : Q ↔ aonHolds r i) :
    (s.toReset cold).r r i = if cold = false ∧ Q then s.r r i else State.reset.r r i := by
  rw [(still_toReset s cold).r_same, State.wipe_r cold r i Q holds]

/-- A field of VDD_AON survives a warm reset. -/
theorem State.toReset_f (x : Fld) (holds : aonHolds x.reg 0) : (s.toReset false).f x 0 = s.f x 0 := by
  have stays := s.toReset_r false x.reg 0 True (iff_of_true trivial holds)
  unfold State.f
  rw [stays, if_pos ⟨rfl, trivial⟩]

/-- What a reset leaves of the power state. -/
theorem State.toReset_modes (cold : Bool) : (s.toReset cold).sys.power.mode = .reset ∧ (s.toReset cold).sys.power.booted = false
    ∧ (s.toReset cold).sys.power.safeHeld = true ∧ (s.toReset cold).sys.power.coldNext = s.sys.power.coldNext
    ∧ (s.toReset cold).sys.power.socPwrEn = s.sys.power.socPwrEn := by
  rw [State.toReset_power]
  obtain ⟨mode, booted, -, coldNext, soc⟩ := PowerSt.held_keeps { s.sys.power with mode := .reset, booted := false }
  exact ⟨mode, booted, PowerSt.held_holds _, coldNext, soc⟩

theorem wiped_toReset (s : State) (cold : Bool) : Wiped s (s.toReset cold) := (wiped_wipe s false cold).still (still_toReset s cold)

/-! ## Rails and trips -/

/-- The rails rise from OFF. -/
theorem powerUp_resets (off : s.sys.power.mode = .off) : ∃ t, exec .powerUp s = .next t ∧ t.sys.power.mode = .reset
    ∧ t.sys.power.railsUp = true ∧ t.sys.power.coldNext = true ∧ t.sys.power.socPwrEn = true ∧ t.sys.power.safeHeld = true
    ∧ t.regs = [] ∧ Wiped s t := by
  have still := (((still_toReset s true).modPower fun p => { p with railsUp := true, coldNext := true })).socPower true
  obtain ⟨mode, -, held, -, -⟩ := s.toReset_modes true
  refine ⟨_, by rw [exec_powerUp, execPowerUp, if_pos off], ?_⟩
  rw [State.socPower_en, State.modPower_power]
  exact ⟨mode, rfl, rfl, rfl, held, still.regs, (wiped_wipe s false true).still still⟩

/-- A power-off takes everything. -/
theorem powerOff_wipes : ∃ t, exec .powerOff s = .next t ∧ t.sys.power.mode = .off ∧ t.regs = [] ∧ t.sys.power.railsUp = false
    ∧ t.sys.power.coldNext = true ∧ t.sys.power.socPwrEn = false ∧ t.sys.power.safeHeld = true ∧ Wiped s t := by
  have still := ((((Still.refl (s.wipe false true)).modPower fun p =>
    { p with mode := .off, booted := false, railsUp := false, coldNext := true, brownNew := false })).holdSafe).socPower false
  refine ⟨_, exec_powerOff s, ?_⟩
  rw [State.socPower_en, State.holdSafe_power, State.modPower_power]
  obtain ⟨mode, -, rails, coldNext, -⟩ := PowerSt.held_keeps
    { (s.wipe false true).sys.power with mode := .off, booted := false, railsUp := false, coldNext := true, brownNew := false }
  exact ⟨mode, still.regs, rails, coldNext, rfl, PowerSt.held_holds _, (wiped_wipe s false true).still still⟩

/-- A brown-out of VDD_AON. -/
theorem brownOut_aon (on : s.sys.power.mode ≠ .off) : ∃ t, exec (.brownOut 0) s = .next t ∧ t.sys.power.mode = .reset
    ∧ t.sys.power.coldNext = true ∧ t.regs = [] ∧ t.mem = {} ∧ t.sys.power.safeHeld = true := by
  obtain ⟨mode, -, held, -, -⟩ := s.toReset_modes true
  have still := (still_toReset s true).modPower fun p => { p with coldNext := true, brownNew := false }
  refine ⟨_, by rw [exec_brownOut, execBrownOut, decide_eq_true (by decide : 0 < 8), unit_true, if_neg on, if_pos rfl], ?_⟩
  rw [State.modPower_power]
  exact ⟨mode, rfl, still.regs, still.mem, held⟩

/-- A brown-out of VDD_SOC outside STANDBY. -/
theorem brownOut_soc (on : s.sys.power.mode ≠ .off) (awake : s.sys.power.mode ≠ .standby) : ∃ t,
    exec (.brownOut 2) s = .next t ∧ t.sys.power.mode = .reset ∧ t.fb SYS_PWRSTAT.BROWNOUT 0 = true
      ∧ t.sys.power.coldNext = s.sys.power.coldNext ∧ t.mem = {}
      ∧ t.f SYS_PWRSTAT.WAKE_CAUSE 0 = s.f SYS_PWRSTAT.WAKE_CAUSE 0 := by
  obtain ⟨mode, -, -, coldNext, -⟩ := s.toReset_modes false
  refine ⟨_, by rw [exec_brownOut, execBrownOut, decide_eq_true (by decide : 2 < 8), unit_true, if_neg on, if_neg (by decide),
    if_pos (by simpa using awake)], ?_⟩
  rw [State.modPower_power, State.setF_sys, State.modPower_f, State.modPower_fb, State.modPower_mem, State.setF_mem]
  refine ⟨mode, State.fb_of_f (State.setF_f_width _ _ _ _ 1 (by decide) rfl), coldNext, (still_toReset s false).mem, ?_⟩
  rw [State.setF_f_apart _ _ _ _ _ _ (by decide) (by decide), State.toReset_f _ ⟨.inr (.inl rfl), rfl⟩]

/-- No other rail's fall is a brown-out, nor that of VDD_SOC in STANDBY. -/
theorem brownOut_none {r : Nat} (lt : r < 8) (none : s.sys.power.mode = .off ∨ (r ≠ 0 ∧ (r ≠ 2 ∨ s.sys.power.mode = .standby))) :
    exec (.brownOut r) s = .next s := by
  rw [exec_brownOut, execBrownOut, decide_eq_true lt, unit_true]
  split
  · rfl
  · rename_i on
    obtain ⟨rail, soc⟩ := none.resolve_left on
    rw [if_neg rail, if_neg]
    rcases soc with ne | standby
    · simp [ne]
    · simp [standby]

/-- Too hot, the device goes into reset without VDD_SOC. -/
theorem thermalShutdown_trips {n : Nat} {c : Int} (lt : n < 32) (on : s.sys.power.mode = .on) (hot : 140 < c) : ∃ t,
    exec (.thermalShutdown n c) s = .next t ∧ t.sys.power.mode = .reset ∧ t.fb SYS_PWRSTAT.THERMAL 0 = true
      ∧ t.sys.power.socPwrEn = false ∧ t.sys.power.safeHeld = true ∧ Wiped s t := by
  refine ⟨((s.setF SYS_PWRSTAT.THERMAL 0 1).socPower false).toReset false, ?_, ?_⟩
  · rw [exec_thermalShutdown, execThermalShutdown, decide_eq_true lt, unit_true, if_neg]
    simp [on]
    omega
  · obtain ⟨mode, -, held, -, soc⟩ := ((s.setF SYS_PWRSTAT.THERMAL 0 1).socPower false).toReset_modes false
    have tripped := (Still.refl (s.setF SYS_PWRSTAT.THERMAL 0 1)).socPower false
    have wiped := wiped_toReset ((s.setF SYS_PWRSTAT.THERMAL 0 1).socPower false) false
    refine ⟨mode, State.fb_of_f ?_, soc.trans (by rw [State.socPower_en]), held, ⟨wiped.mem, wiped.work, wiped.units, ?_, wiped.record,
      wiped.fw, wiped.keys⟩⟩
    · rw [State.toReset_f _ ⟨.inr (.inl rfl), rfl⟩, tripped.f_same, State.setF_f_width _ _ _ _ 1 (by decide) rfl]
      rfl
    · rw [wiped.store, tripped.store, tripped.record, State.setF_sys]

end

end Sys2Proof.Machine
end

section
/-! PROOFS. The boot: the images that a slot's configuration writes (R230, R329). -/

set_option Elab.async false

namespace Sys2Proof.Machine

section
variable {s t u : State}

/-! ## The assignment table (R230) -/

theorem State.owner_setOwner (cls idx o : Nat) : (s.setOwner cls idx o).owner cls idx = o % 16 := by
  have nibble : idx % 16 < 16 := Nat.mod_lt _ (by decide)
  have fits : putBits (s.r .sysAssign (2 * cls + idx / 16)) (4 * (idx % 16) + 3) (4 * (idx % 16)) o < 2 ^ 64 :=
    putBits_lt _ _ _ _ (by omega) (by omega) (s.r_lt _ _)
  have width : 4 * (idx % 16) + 3 + 1 - 4 * (idx % 16) = 4 := by omega
  unfold State.owner State.setOwner
  dsimp only
  rw [State.setR_r, if_pos ⟨rfl, rfl⟩, Nat.mod_eq_of_lt fits, bits_putBits _ _ _ _ (by omega), width]
  rfl

/-- A resource keeps its owner when another one of the device's gets one. -/
theorem State.setOwner_owner {c i cls idx o : Nat} (hi : i < 32) (hidx : idx < 32) (ne : (c, i) ≠ (cls, idx)) :
    (s.setOwner cls idx o).owner c i = s.owner c i := by
  have nibble : idx % 16 < 16 := Nat.mod_lt _ (by decide)
  have fits : putBits (s.r .sysAssign (2 * cls + idx / 16)) (4 * (idx % 16) + 3) (4 * (idx % 16)) o < 2 ^ 64 :=
    putBits_lt _ _ _ _ (by omega) (by omega) (s.r_lt _ _)
  unfold State.owner State.setOwner
  dsimp only
  rw [State.setR_r]
  by_cases same : 2 * c + i / 16 = 2 * cls + idx / 16
  · have apart : i % 16 ≠ idx % 16 := fun e => ne (Prod.ext (by omega) (by omega))
    rw [if_pos ⟨rfl, same⟩, Nat.mod_eq_of_lt fits, same]
    rcases Nat.lt_or_gt_of_ne apart with lower | upper
    · exact bits_putBits_below _ _ _ _ _ _ (by omega) (by omega)
    · exact bits_putBits_above _ _ _ _ _ _ (by omega) (by omega)
  · rw [if_neg fun e => same e.2]

/-- The table as it stands in the registers. -/
def State.assigned (s : State) (es : List (Nat × Nat × Nat)) : State := s.each es fun s e => s.setOwner e.1 e.2.1 e.2.2

theorem classSize_le (cls : Nat) : classSize cls ≤ 20 := by
  unfold classSize
  split <;> decide

/-- Every entry of a good table names its resource's owner. -/
theorem State.assigned_owner {c : BootConfig} (good : assignBad c = false) {e : Nat × Nat × Nat} (here : e ∈ c.assign) :
    (s.assigned c.assign).owner e.1 e.2.1 = e.2.2 := by
  simp only [assignBad, Bool.or_eq_false_iff, List.any_eq_false, Bool.not_eq_false', decide_eq_true_eq, Bool.or_eq_true, not_or,
    Nat.not_le, Nat.not_lt] at good
  obtain ⟨⟨-, known⟩, distinct⟩ := good
  have small (y : Nat × Nat × Nat) (hy : y ∈ c.assign) : y.2.1 < 32 := by
    have := (known y hy).1
    have := classSize_le y.1
    omega
  obtain ⟨as, bs, form, -, later⟩ := State.each_between (s := s) (fun s e => s.setOwner e.1 e.2.1 e.2.2) here distinct.of_map
  rw [State.assigned, form]
  refine State.each_keeps (P := fun t => t.owner e.1 e.2.1 = e.2.2) ?_ fun t y hy kept => ?_
  · rw [State.owner_setOwner, Nat.mod_eq_of_lt (by have := (known e here).2; omega)]
  · obtain ⟨listed, ne⟩ := later y hy
    rw [State.setOwner_owner (small e here) (small y listed) fun same => ne (List.inj_on_of_nodup_map distinct here listed same), kept]

/-! ## The images (R329) -/

/-- The registers that the images write. -/
def imageRegs (r : Reg) (_ : Nat) : Prop := r ∈ [Reg.sysAssign, .memCtrl, .sysSafecfg, .wskId, .dspTtcfg, .sysLock]

/-- One entry of the tell-tale image. -/
def State.ttWritten (s : State) (e : (Nat × Bool × Nat × Nat) × Nat) : State :=
  (((s.setF DSP_TTCFG.DESC_ADDR e.2 (e.1.1 / 64)).setF DSP_TTCFG.EN e.2 (b2n e.1.2.1)).setF DSP_TTCFG.TT_LIMIT e.2
    e.1.2.2.1).modDisp e.2 fun d => { d with ownerInst := e.1.2.2.2 }

theorem leaves_ttWritten {e : (Nat × Bool × Nat × Nat) × Nat} : Leaves [.disps] (fun r _ => r = .dspTtcfg) s (s.ttWritten e) :=
  ((((Leaves.refl _ _ s).setF rfl).setF rfl).setF rfl).modDisp

/-- The registers beside the table and the tell-tale image. -/
def State.settings (s : State) (c : BootConfig) : State :=
  ((((((s.setF MEM_CTRL.RATE 0 c.rate).setF MEM_CTRL.CH_CAP 0 c.chCap).setF MEM_CTRL.RANKS 0 c.ranks).setF
    SYS_SAFECFG.ROT 0 c.rot).setF SYS_SAFECFG.TB_PERIOD 0 c.tbPeriod).setF WSK_ID.DEV_ID 0 c.devId).setF
    WSK_ID.TIME_SRC 0 (b2n c.timeSrc)

theorem leaves_settings {c : BootConfig} :
    Leaves [] (fun r _ => r ∈ [Reg.memCtrl, .sysSafecfg, .wskId]) s (s.settings c) :=
  (((((((Leaves.refl _ _ s).setF (by decide)).setF (by decide)).setF (by decide)).setF (by decide)).setF (by decide)).setF
    (by decide)).setF (by decide)

theorem State.settings_devId (c : BootConfig) : (s.settings c).f WSK_ID.DEV_ID 0 = c.devId % 2 ^ 16 := by
  rw [State.settings, State.setF_f_apart _ _ _ _ _ _ (by decide) (by decide), State.setF_f_width _ _ _ _ 16 (by decide) rfl]

theorem State.settings_timeSrc (c : BootConfig) : (s.settings c).fb WSK_ID.TIME_SRC 0 = c.timeSrc := by
  rw [State.settings, State.fb, State.setF_f_width _ _ _ _ 1 (by decide) rfl]
  cases c.timeSrc <;> rfl

/-- The four tell-tale images. -/
def State.tellTales (s : State) (c : BootConfig) : State := s.each (c.tt.take 4).zipIdx State.ttWritten

theorem leaves_tellTales {c : BootConfig} : Leaves [.disps] (fun r _ => r = .dspTtcfg) s (s.tellTales c) :=
  (Leaves.refl _ _ s).over fun _ _ h => h.trans leaves_ttWritten

theorem State.writeImages_eq (c : BootConfig) : s.writeImages c
    = ((((s.assigned c.assign).settings c).tellTales c).setF SYS_LOCK.BOOT 0 1).modPower fun p => { p with entry := c.entry } := (rfl)

/-- What the images leave. -/
structure Imaged (c : BootConfig) (s t : State) : Prop where
  owners : assignBad c = false → ∀ e ∈ c.assign, t.owner e.1 e.2.1 = e.2.2
  devId : t.f WSK_ID.DEV_ID 0 = c.devId % 2 ^ 16
  timeSrc : t.fb WSK_ID.TIME_SRC 0 = c.timeSrc
  locked : t.fb SYS_LOCK.BOOT 0 = true
  mgr : t.f SYS_LOCK.MGR 0 = s.f SYS_LOCK.MGR 0
  power : t.sys.power = { s.sys.power with entry := c.entry }
  leaves : Leaves [.power, .disps] imageRegs s t

theorem leaves_assigned {es : List (Nat × Nat × Nat)} : Leaves [] (fun r _ => r = .sysAssign) s (s.assigned es) :=
  (Leaves.refl _ _ s).over fun _ _ h => h.setR rfl

theorem State.owner_of_leaves {ps : List Part} {b : Reg → Nat → Prop} (h : Leaves ps b s t) (apart : ∀ i, ¬b .sysAssign i) (c i : Nat) :
    t.owner c i = s.owner c i := by
  unfold State.owner
  rw [h.2 _ _ (apart _)]

theorem imaged_writeImages (s : State) (c : BootConfig) : Imaged c s (s.writeImages c) := by
  have table := leaves_assigned (s := s) (es := c.assign)
  have set := leaves_settings (s := s.assigned c.assign) (c := c)
  have shown := leaves_tellTales (s := (s.assigned c.assign).settings c) (c := c)
  have owner := fun good (e : Nat × Nat × Nat) => State.assigned_owner (s := s) (c := c) good (e := e)
  have devId := (s.assigned c.assign).settings_devId c
  have timeSrc := (s.assigned c.assign).settings_timeSrc c
  have tableAll : Leaves [.power, .disps] imageRegs s (s.assigned c.assign) :=
    table.mono (List.nil_subset _) fun _ _ e => by simp [imageRegs, e]
  have setAll : Leaves [.power, .disps] imageRegs s ((s.assigned c.assign).settings c) :=
    tableAll.into set (by simp) fun r _ h => by simp only [imageRegs, List.mem_cons, List.not_mem_nil, or_false] at h ⊢; tauto
  have all : Leaves [.power, .disps] imageRegs s (((s.assigned c.assign).settings c).tellTales c) :=
    setAll.into shown (by simp) fun _ _ e => by simp [imageRegs, e]
  have mgr : (((s.assigned c.assign).settings c).tellTales c).f SYS_LOCK.MGR 0 = s.f SYS_LOCK.MGR 0 := by
    rw [shown.f_same _ _ (by decide), set.f_same _ _ (by decide), table.f_same _ _ (by decide)]
  have power : (((s.assigned c.assign).settings c).tellTales c).sys.power = s.sys.power := by
    rw [shown.power_same (by simp) (by simp), set.power_same (by simp) (by simp), table.power_same (by simp) (by simp)]
  have ttOwner := State.owner_of_leaves shown fun _ => by decide
  have setOwner := State.owner_of_leaves set fun _ => by decide
  have ttDev : (((s.assigned c.assign).settings c).tellTales c).f WSK_ID.DEV_ID 0 = c.devId % 2 ^ 16 :=
    (shown.f_same _ _ (by decide)).trans devId
  have ttSrc : (((s.assigned c.assign).settings c).tellTales c).fb WSK_ID.TIME_SRC 0 = c.timeSrc := by
    rw [State.fb, shown.f_same _ _ (by decide), ← State.fb, timeSrc]
  rw [State.writeImages_eq]
  generalize ((s.assigned c.assign).settings c).tellTales c = v at *
  refine ⟨fun good e here => ?_, ?_, ?_, ?_, ?_, ?_, (all.setF (by unfold imageRegs; decide)).modPower fun _ => rfl⟩
  · have lock : Leaves [.power] (fun r _ => r = .sysLock) v ((v.setF SYS_LOCK.BOOT 0 1).modPower fun p => { p with entry := c.entry }) :=
      ((Leaves.refl _ _ v).setF rfl).modPower fun _ => rfl
    rw [State.owner_of_leaves lock fun _ => by decide, ttOwner, setOwner, owner good e here]
  · rw [State.modPower_f, State.setF_f_apart _ _ _ _ _ _ (by decide) (by decide), ttDev]
  · rw [State.modPower_fb, State.fb, State.setF_f_apart _ _ _ _ _ _ (by decide) (by decide), ← State.fb, ttSrc]
  · rw [State.modPower_fb]
    exact State.fb_of_f (State.setF_f_width _ _ _ _ 1 (by decide) rfl)
  · rw [State.modPower_f, State.setF_f_apart _ _ _ _ _ _ (by decide) (by decide), mgr]
  · rw [State.modPower_power, State.setF_sys, power]

end

end Sys2Proof.Machine
end

section
/-! PROOFS. The boot after its images: firmware, field record, billet, and retired arrays (R141, R158, R329, R338, R340). -/

set_option Elab.async false

namespace Sys2Proof.Machine

section
variable {s t u : State}

/-! ## The field record -/

theorem mem_foldl_insNat (xs acc : List Nat) (y : Nat) : y ∈ xs.foldl insNat acc ↔ y ∈ acc ∨ y ∈ xs := by
  induction xs generalizing acc with
  | nil => simp
  | cons x xs ih => rw [List.foldl_cons, ih, mem_insNat, List.mem_cons, or_assoc]

/-- What a boot asks of the field record. -/
def FieldRecord.lasting (r : FieldRecord) : List Nat × NMap Nat := (r.retired, r.counts)

/-- The record that the Cupola finds, with the retirements of the time before. -/
theorem State.takeRecord_takes (rec : RecordSource) : ∃ r : FieldRecord, s.takeRecord rec = { s with sys.record := r }
    ∧ (∀ k ∈ s.sys.store.retired, k ∈ r.retired) ∧ (rec = .none → r.counts = s.sys.record.counts) := by
  have joins (r : FieldRecord) : ∀ k ∈ s.sys.store.retired, k ∈ s.sys.store.retired.foldl insNat r.retired := fun k hk =>
    (mem_foldl_insNat _ _ _).2 (.inr hk)
  cases rec with
  | none => exact ⟨_, rfl, joins _, fun _ => rfl⟩
  | billet reason => exact ⟨_, rfl, joins _, nofun⟩
  | summary => exact ⟨_, rfl, joins _, nofun⟩
  | norCopy => exact ⟨_, rfl, joins _, nofun⟩

/-! ## The billet (R338, R340) -/

/-- The modes of the power state, with what the next start is to count. -/
def PowerSt.modes (p : PowerSt) : PMode × Bool × Bool × Bool × Bool := (p.mode, p.safeHeld, p.socPwrEn, p.coldNext, p.brownNew)

/-- What a step of the boot leaves alone. -/
structure BootStep (s t : State) : Prop where
  modes : t.sys.power.modes = s.sys.power.modes
  lasting : t.sys.record.lasting = s.sys.record.lasting
  leaves : Leaves [.keptIrqs, .outbox, .power, .record, .store] (oneReg .sysBillet 0) s t

theorem BootStep.trans (h : BootStep s t) (g : BootStep t u) : BootStep s u :=
  ⟨g.modes.trans h.modes, g.lasting.trans h.lasting, h.leaves.trans g.leaves⟩

theorem BootStep.refl (s : State) : BootStep s s := ⟨rfl, rfl, .refl _ _ s⟩

theorem BootStep.billetState (h : BootStep s t) (v : Nat) : BootStep s (t.setF SYS_BILLET.STATE 0 v) :=
  ⟨by rw [State.setF_sys, h.modes], by rw [State.setF_sys, h.lasting], h.leaves.setF ⟨rfl, rfl⟩⟩

theorem BootStep.modPower {g : PowerSt → PowerSt} (h : BootStep s t) (modes : ∀ p, (g p).modes = p.modes)
    (pins : ∀ p, (g p).pins = p.pins) : BootStep s (t.modPower g) :=
  ⟨by rw [State.modPower_power, modes, h.modes], h.lasting, h.leaves.modPower pins⟩

theorem BootStep.modRec {g : FieldRecord → FieldRecord} (h : BootStep s t) (lasting : ∀ r, (g r).lasting = r.lasting) :
    BootStep s (t.modRec g) :=
  ⟨h.modes, by rw [State.modRec_record, lasting, h.lasting], h.leaves.modRec (by simp)⟩

theorem BootStep.updateLife (h : BootStep s t) : BootStep s t.updateLife := by
  have life := State.leaves_updateLife t
  refine ⟨?_, ?_, h.leaves.into life (by simp) fun _ _ e => e⟩
  · rw [life.power_same (by simp) (by simp), h.modes]
  · rw [life.1 .record (by simp), h.lasting]

theorem BootStep.setStore (h : BootStep s t) (x : RecordStore) : BootStep s (t.setStore x) :=
  ⟨h.modes, h.lasting, h.leaves.into (State.leaves_setStore t x) (by simp) fun _ _ no => no.elim⟩

/-- The record with the fields of a new module. -/
def State.moduleNoted (s : State) : State :=
  (s.modRec fun r => { r with replacements := r.replacements + 1, serial := s.sys.power.billetSerial, bytes := 0
                              endurance := s.sys.power.billetEndurance }).logEvent 12 0 0

theorem BootStep.moduleNoted (h : BootStep s t) : BootStep s t.moduleNoted := by
  rw [State.moduleNoted, State.logEvent]
  refine (h.modRec ?_).modRec ?_
  · exact fun _ => rfl
  · exact fun _ => rfl

theorem State.pairBillet_eq : s.pairBillet = ((((s.moduleNoted.setStore { s.moduleNoted.sys.store with
    slot0 := some s.moduleNoted.sys.record, slot1 := some s.moduleNoted.sys.record, nextSlot := 0 }).setF SYS_BILLET.STATE
    0 2).modPower fun q => { q with billetBound := true, billetPwrEn := true }).modRec fun r =>
      { r with bytes := 2 * checkpointBytes }).updateLife := (rfl)

theorem BootStep.pairBillet (h : BootStep s t) : BootStep s t.pairBillet := by
  rw [State.pairBillet_eq]
  refine ((((h.moduleNoted.setStore _).billetState 2).modPower ?_ ?_).modRec ?_).updateLife
  · exact fun _ => rfl
  · exact fun _ => rfl
  · exact fun _ => rfl

theorem BootStep.startBillet (h : BootStep s t) : BootStep s t.startBillet := by
  unfold State.startBillet
  dsimp only
  split
  · exact h.billetState 0
  split
  · exact h.billetState 3
  split
  · refine ((h.billetState 2).modPower ?_ ?_).updateLife
    · exact fun _ => rfl
    · exact fun _ => rfl
  · exact h.pairBillet

theorem BootStep.signPfw (h : BootStep s t) : BootStep s t.signPfw := by
  unfold State.signPfw
  split
  · have written := checkpointed_checkpoint t 1 false
    refine ⟨?_, ?_, h.leaves.into written.leaves (by simp) fun _ _ e => e⟩
    · rw [written.leaves.power_same (by simp) (by simp), h.modes]
    · rw [FieldRecord.lasting, written.retired, written.counts]
      exact h.lasting
  · exact h

/-! ## The counts of a start (R324, R325, R369) -/

/-- The registers of VDD_AON that a start resets. -/
def startRegs (r : Reg) (i : Nat) : Prop := (r = .sysPwrstat ∨ r = .sysStbytime) ∧ i = 0

/-- What the counts of a start leave. -/
structure Started (s t : State) : Prop where
  modes : t.sys.power.modes = (s.sys.power.mode, s.sys.power.safeHeld, s.sys.power.socPwrEn, false, false)
  retired : t.sys.record.retired = s.sys.record.retired
  starts : NMap.get t.sys.record.counts 0 0 = if s.sys.power.coldNext then min (NMap.get s.sys.record.counts 0 0 + 1) 0xFFFFFFFF
    else NMap.get s.sys.record.counts 0 0
  cause : t.f SYS_PWRSTAT.WAKE_CAUSE 0 = s.f SYS_PWRSTAT.WAKE_CAUSE 0
  leaves : Leaves [.record, .power] startRegs s t

/-- The step that counts the start, and a brown-out before it. -/
def State.startCounted (s : State) : State :=
  let s1 := if s.sys.power.coldNext then s.recCount 0 else s
  if s.sys.power.brownNew then s1.recCount 3 else s1

/-- The step that counts a thermal trip. -/
def State.tripCounted (s : State) : State :=
  if s.fb SYS_PWRSTAT.THERMAL 0 then (s.recCount 4).setF SYS_PWRSTAT.THERMAL 0 0 else s

theorem State.startCounts_eq : s.startCounts = ((s.startCounted.tripCounted.modRec fun r =>
    { r with stby := r.stby + s.startCounted.tripCounted.f SYS_STBYTIME.STBY_SEC 0 }).setF SYS_STBYTIME.STBY_SEC 0 0).modPower
      fun p => { p with coldNext := false, brownNew := false } := (rfl)

theorem State.startCounted_starts : NMap.get s.startCounted.sys.record.counts 0 0
    = if s.sys.power.coldNext then min (NMap.get s.sys.record.counts 0 0 + 1) 0xFFFFFFFF else NMap.get s.sys.record.counts 0 0 := by
  have step (u : State) (k : Nat) : NMap.get (u.recCount k).sys.record.counts 0 0
      = if 0 = k then min (NMap.get u.sys.record.counts 0 k + 1) 0xFFFFFFFF else NMap.get u.sys.record.counts 0 0 := by
    have counts : (u.recCount k).sys.record.counts = satAdd32 u.sys.record.counts k 1 := rfl
    rw [counts, NMap.get_satAdd32, full_eq]
  unfold State.startCounted
  cases s.sys.power.coldNext <;> cases s.sys.power.brownNew <;> simp [step]

/-- The steps that count leave everything but the counts. -/
theorem State.startCounted_keeps : s.startCounted.sys.record.retired = s.sys.record.retired ∧ Leaves [.record] noReg s s.startCounted := by
  have step {u : State} (k : Nat) (h : u.sys.record.retired = s.sys.record.retired ∧ Leaves [.record] noReg s u) :
      (u.recCount k).sys.record.retired = s.sys.record.retired ∧ Leaves [.record] noReg s (u.recCount k) :=
    ⟨h.1, h.2.modRec (by simp)⟩
  have start : s.sys.record.retired = s.sys.record.retired ∧ Leaves [.record] noReg s s := ⟨rfl, .refl _ _ s⟩
  unfold State.startCounted
  cases s.sys.power.coldNext <;> cases s.sys.power.brownNew
  · exact start
  · exact step 3 start
  · exact step 0 start
  · exact step 3 (step 0 start)

theorem State.tripCounted_keeps : s.tripCounted.sys.record.retired = s.sys.record.retired
    ∧ NMap.get s.tripCounted.sys.record.counts 0 0 = NMap.get s.sys.record.counts 0 0
    ∧ s.tripCounted.f SYS_PWRSTAT.WAKE_CAUSE 0 = s.f SYS_PWRSTAT.WAKE_CAUSE 0 ∧ Leaves [.record] startRegs s s.tripCounted := by
  unfold State.tripCounted
  split
  · have counts : (s.recCount 4).sys.record.counts = satAdd32 s.sys.record.counts 4 1 := rfl
    rw [State.setF_sys, State.setF_f_apart _ _ _ _ _ _ (by decide) (by decide), State.recCount, State.modRec_f, ← State.recCount, counts,
      NMap.get_satAdd32, if_neg (by decide)]
    exact ⟨rfl, rfl, rfl, ((Leaves.refl _ _ s).modRec (by simp)).setF ⟨.inl rfl, rfl⟩⟩
  · exact ⟨rfl, rfl, rfl, .refl _ _ s⟩

/-- The step that adds the time in STANDBY. -/
def State.standbyAdded (s : State) (n : Nat) : State :=
  (s.modRec fun r => { r with stby := r.stby + n }).setF SYS_STBYTIME.STBY_SEC 0 0

theorem started_startCounts (s : State) : Started s s.startCounts := by
  obtain ⟨retired, leaves⟩ := s.startCounted_keeps
  obtain ⟨retired', counts', cause', leaves'⟩ := s.startCounted.tripCounted_keeps
  have power : s.startCounted.tripCounted.sys.power = s.sys.power := by
    rw [leaves'.power_same (by simp) (by simp), leaves.power_same (by simp) (by simp)]
  have cause : s.startCounted.f SYS_PWRSTAT.WAKE_CAUSE 0 = s.f SYS_PWRSTAT.WAKE_CAUSE 0 := leaves.f_same _ _ nofun
  have all : Leaves [.record, .power] startRegs s s.startCounted.tripCounted :=
    (leaves.mono (by simp) fun _ _ no => no.elim).into leaves' (by simp) fun _ _ e => e
  have form : s.startCounts = (s.startCounted.tripCounted.standbyAdded (s.startCounted.tripCounted.f SYS_STBYTIME.STBY_SEC 0)).modPower
      fun p => { p with coldNext := false, brownNew := false } := s.startCounts_eq
  have starts := s.startCounted_starts
  rw [form]
  generalize s.startCounted.tripCounted.f SYS_STBYTIME.STBY_SEC 0 = n
  generalize s.startCounted.tripCounted = v at *
  refine ⟨?_, ?_, ?_, ?_, ((all.modRec (by simp)).setF ⟨.inr rfl, rfl⟩).modPower fun _ => rfl⟩
  · rw [State.modPower_power, State.standbyAdded, State.setF_sys, State.modRec_sys_power, power]
    rfl
  · rw [State.modPower_sys_record, State.standbyAdded, State.setF_sys, State.modRec_record, ← retired, ← retired']
  · rw [State.modPower_sys_record, State.standbyAdded, State.setF_sys, State.modRec_record, ← starts, ← counts']
  · rw [State.modPower_f, State.standbyAdded, State.setF_f_apart _ _ _ _ _ _ (by decide) (by decide), State.modRec_f, cause', cause]

/-! ## The retired arrays (R141) -/

/-- The arrays left as spares: the highest-numbered ones that are not retired, beyond the 32 that serve. -/
def sparesOf (retired : List Nat) : List Nat :=
  (allArrays.reverse.filter fun a => !retired.contains a).take ((allArrays.reverse.filter fun a => !retired.contains a).length - 32)

theorem sparesOf_length (retired : List Nat) : (sparesOf retired).length ≤ 2 := by
  have few : (allArrays.reverse.filter fun a => !retired.contains a).length ≤ 34 := by
    refine (List.length_filter_le _ _).trans ?_
    rw [List.length_reverse, allArrays, List.length_range]
  rw [sparesOf, List.length_take]
  omega

theorem sparesOf_good (retired : List Nat) (k : Nat) (spare : k ∈ sparesOf retired) : k ∉ retired := by
  have good := (List.mem_filter.1 (List.mem_of_mem_take spare)).2
  simpa using good

theorem sparesOf_nodup (retired : List Nat) : (sparesOf retired).Nodup :=
  ((List.nodup_reverse.2 List.nodup_range).filter _).sublist (List.take_sublist _ _)

/-- An array that is retired shows it. -/
def State.retireShown (s : State) (retired : List Nat) (a : Nat) : State :=
  if retired.contains a then s.setF ARR_STATUS.STATE a 6 else s

/-- An array shows a state. -/
def State.arrShown (s : State) (v a : Nat) : State := s.setF ARR_STATUS.STATE a v

theorem State.setF_f_beside (x : Fld) {i j v : Nat} (ne : j ≠ i) : (s.setF x i v).f x j = s.f x j := by
  unfold State.f State.setF
  rw [State.setR_r, if_neg fun e => ne e.2]

theorem State.arrShown_state (v a : Nat) (small : v < 16) : (s.arrShown v a).f ARR_STATUS.STATE a = v := by
  rw [State.arrShown, State.setF_f_width _ _ _ _ 4 (by decide) rfl]
  exact Nat.mod_eq_of_lt small

theorem State.arrShown_others (v a b : Nat) (ne : b ≠ a) : (s.arrShown v a).f ARR_STATUS.STATE b = s.f ARR_STATUS.STATE b :=
  State.setF_f_beside _ ne

/-- The spares are named. -/
def State.sparesNamed (s : State) (xs : List Nat) : State := { s with units.spares := xs }

theorem State.applyRetired_eq : s.applyRetired
    = ((s.each allArrays fun t a => t.retireShown s.sys.record.retired a).each (sparesOf s.sys.record.retired) fun t a =>
        t.arrShown 7 a).sparesNamed (sparesOf s.sys.record.retired) := (rfl)

/-- What the map of retired arrays leaves. -/
structure Retired (s t : State) : Prop where
  dead : ∀ k < 34, k ∈ s.sys.record.retired → t.f ARR_STATUS.STATE k = 6
  spare : ∀ k ∈ t.units.spares, t.f ARR_STATUS.STATE k = 7
  few : t.units.spares.length ≤ 2
  leaves : Leaves [.spares] (fun r _ => r = .arrStatus) s t

theorem leaves_arrShown {v a : Nat} : Leaves [.spares] (fun r _ => r = .arrStatus) s (s.arrShown v a) := (Leaves.refl _ _ s).setF rfl

theorem leaves_retireShown {xs : List Nat} {a : Nat} : Leaves [.spares] (fun r _ => r = .arrStatus) s (s.retireShown xs a) :=
  Leaves.ite leaves_arrShown (Leaves.refl _ _ s)

theorem State.sparesNamed_f (xs : List Nat) (x : Fld) (i : Nat) : (s.sparesNamed xs).f x i = s.f x i := (rfl)

theorem retired_applyRetired (s : State) : Retired s s.applyRetired := by
  have dead := State.each_named (v := fun u k => u.f ARR_STATUS.STATE k) (g := fun t a => t.retireShown s.sys.record.retired a)
    (P := fun a _ new => a ∈ s.sys.record.retired → new = 6) (key := id) (xs := allArrays) (fun u a b ne => ?_) (fun u a listed => ?_)
    (by rw [List.map_id]; exact List.nodup_range) s
  · have shown : Leaves [.spares] (fun r _ => r = .arrStatus) s
        (s.each allArrays fun t a => t.retireShown s.sys.record.retired a) := (Leaves.refl _ _ s).over fun _ _ h => h.trans leaves_retireShown
    rw [State.applyRetired_eq]
    generalize s.each allArrays (fun t a => t.retireShown s.sys.record.retired a) = u at *
    have spare := State.each_named (v := fun u k => u.f ARR_STATUS.STATE k) (g := fun t a => t.arrShown 7 a)
      (P := fun _ _ new => new = 7) (key := id) (xs := sparesOf s.sys.record.retired) (fun u a b ne => u.arrShown_others 7 a b ne) (fun u a => u.arrShown_state 7 a (by decide))
      (by rw [List.map_id]; exact sparesOf_nodup s.sys.record.retired) u
    have named : Leaves [.spares] (fun r _ => r = .arrStatus) u (u.each (sparesOf s.sys.record.retired) fun t a => t.arrShown 7 a) :=
      (Leaves.refl _ _ u).over fun _ _ h => h.trans leaves_arrShown
    refine ⟨fun k lt listed => ?_, fun k here => ?_, sparesOf_length _, (shown.trans named).beside⟩
    · rw [State.sparesNamed_f]
      exact (spare.2 k (by rw [List.map_id]; exact fun no => sparesOf_good _ k no listed)).trans
        (dead.1 k (List.mem_range.2 lt) listed)
    · rw [State.sparesNamed_f]
      exact spare.1 k here
  · unfold State.retireShown
    split
    · exact u.arrShown_others 6 a b ne
    · rfl
  · dsimp only [id] at listed ⊢
    unfold State.retireShown
    rw [if_pos (by simpa using listed)]
    exact u.arrShown_state 6 a (by decide)

end

end Sys2Proof.Machine
end

section
/-! PROOFS. O57: what a boot leaves (R320, R329), and the power modes together. -/

set_option Elab.async false

namespace Sys2Proof.Machine

section
variable {s t u v : State}

/-! ## After the images (R329) -/

/-- The firmware of a slot runs, and its digests are recorded. -/
def State.firmwareLoaded (s : State) (x : BootSlot) : State :=
  ({ s with sys.fw := [(1, { running := true, image := { digest := x.cupolaDigest } }),
                       (2, { running := true, image := { digest := x.crucibleDigest } })] }).modTrust
    fun t => { t with digests := slotDigests x }

/-- The fold of the counters begins anew. -/
def State.foldTidied (s : State) : State :=
  { s with sys.store := { s.sys.store with folded := [], lastPoh := s.sys.record.poh } }

theorem State.bootRest_eq (x : BootSlot) (rec : RecordSource) : s.bootRest x rec
    = ((((s.firmwareLoaded x).takeRecord rec).startBillet.signPfw.startCounts.applyRetired.foldTidied).setF MEM_CTRL.READY
        0 1).modPower fun p => { p with booted := true } := (rfl)

/-- The registers that the rest of a boot changes. -/
def restRegs (r : Reg) (_ : Nat) : Prop := r ∈ [Reg.sysBillet, .sysPwrstat, .sysStbytime, .arrStatus, .memCtrl]

/-- What the rest of a boot leaves. -/
structure Rested (x : BootSlot) (rec : RecordSource) (s t : State) : Prop where
  booted : t.sys.power.booted = true
  mode : t.sys.power.mode = s.sys.power.mode
  held : t.sys.power.safeHeld = s.sys.power.safeHeld
  soc : t.sys.power.socPwrEn = s.sys.power.socPwrEn
  ready : t.fb MEM_CTRL.READY 0 = true
  fw : t.sys.fw = (s.firmwareLoaded x).sys.fw
  trust : t.sys.trust = { s.sys.trust with digests := slotDigests x }
  dead : ∀ k < 34, k ∈ s.sys.store.retired → t.f ARR_STATUS.STATE k = 6
  spare : ∀ k ∈ t.units.spares, t.f ARR_STATUS.STATE k = 7
  few : t.units.spares.length ≤ 2
  starts : rec = .none → NMap.get t.sys.record.counts 0 0 = if s.sys.power.coldNext then
    min (NMap.get s.sys.record.counts 0 0 + 1) 0xFFFFFFFF else NMap.get s.sys.record.counts 0 0
  cause : t.f SYS_PWRSTAT.WAKE_CAUSE 0 = s.f SYS_PWRSTAT.WAKE_CAUSE 0
  regs : SameRegs restRegs s t

theorem leaves_firmwareLoaded {x : BootSlot} : Leaves [.fw, .trust] noReg s (s.firmwareLoaded x) := (Leaves.refl _ _ s).beside.modTrust

theorem leaves_foldTidied : Leaves [.store] noReg s s.foldTidied := (Leaves.refl _ _ s).beside

/-- What the rest of a boot may change beside the registers. -/
def bootParts : List Part := [.record, .keptIrqs, .outbox, .power, .store, .spares]

theorem rested_bootRest (x : BootSlot) (rec : RecordSource) (s : State) : Rested x rec s (s.bootRest x rec) := by
  have loaded := leaves_firmwareLoaded (s := s) (x := x)
  have power : (s.firmwareLoaded x).sys.power = s.sys.power := loaded.power_same (by simp) (by simp)
  have record : (s.firmwareLoaded x).sys.record = s.sys.record := loaded.1 .record (by simp)
  have store : (s.firmwareLoaded x).sys.store = s.sys.store := loaded.1 .store (by simp)
  have trust : (s.firmwareLoaded x).sys.trust = { s.sys.trust with digests := slotDigests x } := rfl
  rw [State.bootRest_eq]
  generalize hfw : s.firmwareLoaded x = a at *
  obtain ⟨r, took, joined, counts⟩ := a.takeRecord_takes rec
  have taken : Leaves [.record] noReg a (a.takeRecord rec) := by
    rw [took]
    exact (Leaves.refl _ _ a).beside
  have recordB : (a.takeRecord rec).sys.record = r := by rw [took]
  have powerB : (a.takeRecord rec).sys.power = a.sys.power := taken.power_same (by simp) (by simp)
  generalize a.takeRecord rec = b at *
  have step := (BootStep.refl b).startBillet.signPfw
  generalize b.startBillet.signPfw = c at *
  have started := started_startCounts c
  generalize c.startCounts = d at *
  have retired := retired_applyRetired d
  generalize d.applyRetired = e at *
  have tidied := leaves_foldTidied (s := e)
  have unitsW : e.foldTidied.units = e.units := rfl
  generalize e.foldTidied = w at *
  have toC : Leaves bootParts restRegs a c := (taken.mono (by decide) fun _ _ no => no.elim).into step.leaves (by decide) fun r i h => by
    rw [h.1]
    unfold restRegs
    decide
  have toD : Leaves bootParts restRegs a d := toC.into started.leaves (by decide) fun r i h => by
    rcases h.1 with e | e <;> rw [e] <;> unfold restRegs <;> decide
  have toE : Leaves bootParts restRegs a e := toD.into retired.leaves (by decide) fun r i h => by
    rw [h]
    unfold restRegs
    decide
  have toW : Leaves bootParts restRegs a w := toE.into tidied (by decide) fun _ _ no => no.elim
  have toT : Leaves bootParts restRegs a ((w.setF MEM_CTRL.READY 0 1).modPower fun p => { p with booted := true }) :=
    (toW.setF (by unfold restRegs; decide)).modPower (fun _ => rfl) (by decide)
  have modes : w.sys.power.modes = (s.sys.power.mode, s.sys.power.safeHeld, s.sys.power.socPwrEn, false, false) := by
    have before : c.sys.power.modes = s.sys.power.modes := by rw [step.modes, powerB, power]
    simp only [PowerSt.modes, Prod.mk.injEq] at before
    obtain ⟨mode, held, soc, -, -⟩ := before
    rw [tidied.power_same (by simp) (by simp), retired.leaves.power_same (by simp) (by simp), started.modes, mode, held, soc]
  simp only [PowerSt.modes, Prod.mk.injEq] at modes
  obtain ⟨mode, held, soc, -, -⟩ := modes
  have cold : c.sys.power.coldNext = s.sys.power.coldNext := by
    have before := step.modes
    simp only [PowerSt.modes, Prod.mk.injEq] at before
    rw [before.2.2.2.1, powerB, power]
  have lasting := step.lasting
  simp only [FieldRecord.lasting, Prod.mk.injEq] at lasting
  have recordW : w.sys.record = d.sys.record := by rw [tidied.1 .record (by simp), retired.leaves.1 .record (by simp)]
  have stays (y : Fld) (k : Nat) (apart : y.reg ≠ .memCtrl) :
      ((w.setF MEM_CTRL.READY 0 1).modPower fun p => { p with booted := true }).f y k = e.f y k := by
    rw [State.modPower_f, ((Leaves.refl [] (oneReg .memCtrl 0) w).setF ⟨rfl, rfl⟩).f_same _ _ fun h => apart h.1, tidied.f_same _ _ nofun]
  refine ⟨?_, ?_, ?_, ?_, ?_, (toT.1 .fw (by decide)).trans (congrArg (fun a : State => a.sys.fw) hfw.symm), (toT.1 .trust (by decide)).trans trust, fun k lt listed => ?_, fun k here => ?_, ?_,
    fun none => ?_, ?_, fun r i apart => ?_⟩
  · rw [State.modPower_power]
  · rw [State.modPower_power, State.setF_sys, mode]
  · rw [State.modPower_power, State.setF_sys, held]
  · rw [State.modPower_power, State.setF_sys, soc]
  · rw [State.modPower_fb]
    exact State.fb_of_f (State.setF_f_width _ _ _ _ 1 (by decide) rfl)
  · rw [stays _ _ (by decide)]
    refine retired.dead k lt ?_
    rw [started.retired, lasting.1, recordB]
    exact joined k (by rwa [store])
  · rw [State.modPower_units, State.setF_units, unitsW] at here
    rw [stays _ _ (by decide)]
    exact retired.spare k here
  · rw [State.modPower_units, State.setF_units, unitsW]
    exact retired.few
  · rw [State.modPower_sys_record, State.setF_sys, recordW, started.starts, cold, lasting.2, recordB, counts none, record]
  · rw [stays _ _ (by decide), retired.leaves.f_same _ _ (by decide), started.cause, step.leaves.f_same _ _ fun h => absurd h.1 (by decide),
      taken.f_same _ _ nofun, loaded.f_same _ _ nofun]
  · rw [toT.2 r i apart, loaded.2 r i nofun]

/-! ## The state in which RESET_N rises -/

/-- The power state of a device that begins its boot. -/
def PowerSt.risen (p : PowerSt) : PowerSt :=
  { p with mode := .on, booted := false, lost := [], sclkLost := false, lastPfwNs := none, pfwLatched := false, wakeSeen := false
           safeFlt := false, safeWarn := false, kickNs := 0, safeHeld := false, socPwrEn := true }

/-- The device after its partners were woken. -/
def State.partnersWoken (s : State) : State := if s.sys.power.mode = .standby then s.wakePorts else s

theorem State.partnersWoken_still : Still s s.partnersWoken ∧ s.partnersWoken.sys.power = s.sys.power := by
  unfold State.partnersWoken
  split
  · exact State.each_keeps (P := fun t => Still s t ∧ t.sys.power = s.sys.power) ⟨.refl s, rfl⟩ fun t p _ h => ⟨h.1.emit _, h.2⟩
  · exact ⟨.refl s, rfl⟩

/-- What a boot begins with; `bad` where slot A does not verify. -/
structure Entered (bad : Bool) (s v : State) : Prop where
  mode : v.sys.power.mode = .on
  held : v.sys.power.safeHeld = false
  soc : v.sys.power.socPwrEn = true
  booted : v.sys.power.booted = false
  cold : v.sys.power.coldNext = s.sys.power.coldNext
  aBad : v.fb SYS_BOOTSTAT.SLOT_A_BAD 0 = bad
  slot : v.fb SYS_BOOTSTAT.SLOT 0 = bad
  err : v.f SYS_BOOTSTAT.BOOT_ERR 0 = 0
  mgr : v.f SYS_LOCK.MGR 0 = 0
  cause : s.sys.power.coldNext = false → v.f SYS_PWRSTAT.WAKE_CAUSE 0 = s.f SYS_PWRSTAT.WAKE_CAUSE 0
  wiped : Wiped s v

theorem still_rise : Still (s.partnersWoken.wipe false s.sys.power.coldNext) s.rise :=
  (((Still.refl _).modPower _).releaseSafe).socPower true

theorem State.rise_power : s.rise.sys.power = s.sys.power.risen := by
  have woken := (State.partnersWoken_still (s := s)).2
  have form : s.rise = (((s.partnersWoken.wipe false s.sys.power.coldNext).modPower fun p =>
    { p with mode := .on, booted := false, lost := [], sclkLost := false, lastPfwNs := none, pfwLatched := false, wakeSeen := false
             safeFlt := false, safeWarn := false, kickNs := 0 }).releaseSafe.socPower true) := rfl
  rw [form, State.socPower_en, State.releaseSafe_power, State.modPower_power]
  have kept : (s.partnersWoken.wipe false s.sys.power.coldNext).sys.power = s.partnersWoken.sys.power := rfl
  rw [kept, woken]
  rfl

/-- A register outside VDD_AON after the rise. -/
theorem State.rise_f (x : Fld) (i : Nat) (apart : ¬aonHolds x.reg i) : s.rise.f x i = State.reset.f x i := by
  have read := s.partnersWoken.wipe_r s.sys.power.coldNext x.reg i False (iff_of_false id apart)
  rw [still_rise.f_same]
  unfold State.f
  rw [read, if_neg fun h => h.2]

/-- A register of VDD_AON after a warm rise. -/
theorem State.rise_aon (x : Fld) (holds : aonHolds x.reg 0) (warm : s.sys.power.coldNext = false) : s.rise.f x 0 = s.f x 0 := by
  have read := s.partnersWoken.wipe_r s.sys.power.coldNext x.reg 0 True (iff_of_true trivial holds)
  rw [still_rise.f_same]
  unfold State.f
  rw [read, if_pos ⟨warm, trivial⟩, (State.partnersWoken_still (s := s)).1.r_same]

theorem wiped_rise : Wiped s s.rise := by
  have woken := (State.partnersWoken_still (s := s)).1
  have wiped := (wiped_wipe s.partnersWoken false s.sys.power.coldNext).still still_rise
  exact ⟨wiped.mem, wiped.work, wiped.units, by rw [wiped.store, woken.store, woken.record], wiped.record, wiped.fw, wiped.keys⟩

theorem aonHolds_not {x : Fld} (apart : x.reg ∉ [Reg.sysPwrctrl, .sysPwrstat, .sysStbytime]) (i : Nat) : ¬aonHolds x.reg i := fun h =>
  apart (by simpa using h.1)

theorem entered_rise (s : State) : Entered false s s.rise := by
  have power := s.rise_power
  refine ⟨by rw [power]; rfl, by rw [power]; rfl, by rw [power]; rfl, by rw [power]; rfl, by rw [power]; rfl, ?_, ?_, ?_, ?_,
    s.rise_aon _ ⟨.inr (.inl rfl), rfl⟩, wiped_rise⟩
  · rw [State.fb, s.rise_f _ _ (aonHolds_not (by decide) _)]
    decide
  · rw [State.fb, s.rise_f _ _ (aonHolds_not (by decide) _)]
    decide
  · rw [s.rise_f _ _ (aonHolds_not (by decide) _)]
    decide
  · rw [s.rise_f _ _ (aonHolds_not (by decide) _)]
    decide

/-! ## The slot that the ROM takes -/

/-- The registers after slot A did not verify. -/
def State.slotABad (s : State) : State := s.setF SYS_BOOTSTAT.SLOT_A_BAD 0 1

/-- The registers once slot B is taken. -/
def State.slotBTaken (s : State) : State := s.slotABad.setF SYS_BOOTSTAT.SLOT 0 1

theorem entered_slotBTaken (h : Entered false s v) : Entered true s v.slotBTaken := by
  have regs : Leaves [] (oneReg .sysBootstat 0) v v.slotBTaken := ((Leaves.refl _ _ v).setF ⟨rfl, rfl⟩).setF ⟨rfl, rfl⟩
  have power : v.slotBTaken.sys = v.sys := by rw [State.slotBTaken, State.setF_sys, State.slotABad, State.setF_sys]
  have mem : v.slotBTaken.mem = v.mem := by rw [State.slotBTaken, State.setF_mem, State.slotABad, State.setF_mem]
  have work : v.slotBTaken.work = v.work := by rw [State.slotBTaken, State.setF_work, State.slotABad, State.setF_work]
  have units : v.slotBTaken.units = v.units := by rw [State.slotBTaken, State.setF_units, State.slotABad, State.setF_units]
  refine ⟨by rw [power, h.mode], by rw [power, h.held], by rw [power, h.soc], by rw [power, h.booted], by rw [power, h.cold], ?_, ?_, ?_,
    ?_, fun warm => ?_, ⟨by rw [mem, h.wiped.mem], by rw [work, h.wiped.work], by rw [units, h.wiped.units], by rw [power, h.wiped.store],
      by rw [power, h.wiped.record], by rw [power, h.wiped.fw], by rw [power, h.wiped.keys]⟩⟩
  · rw [State.slotBTaken, State.fb, State.setF_f_apart _ _ _ _ _ _ (by decide) (by decide), State.slotABad,
      State.setF_f_width _ _ _ _ 1 (by decide) rfl]
    rfl
  · rw [State.slotBTaken, State.fb, State.setF_f_width _ _ _ _ 1 (by decide) rfl]
    rfl
  · rw [State.slotBTaken, State.setF_f_apart _ _ _ _ _ _ (by decide) (by decide), State.slotABad,
      State.setF_f_apart _ _ _ _ _ _ (by decide) (by decide), h.err]
  · rw [regs.f_same _ _ fun e => absurd e.1 (by decide), h.mgr]
  · rw [regs.f_same _ _ fun e => absurd e.1 (by decide), h.cause warm]

/-- What a boot that stops in the ROM leaves. -/
structure Stopped (err : Nat) (s t : State) : Prop where
  err : t.f SYS_BOOTSTAT.BOOT_ERR 0 = err % 256
  power : t.sys.power = { s.sys.power with safeFlt := true }
  fw : t.sys.fw = s.sys.fw
  others : ∀ x : Fld, x.reg ≠ .sysBootstat → x.reg ≠ .sysSafestat → ∀ i, t.f x i = s.f x i
  slots : ∀ x : Fld, x.reg = .sysBootstat → SYS_BOOTSTAT.BOOT_ERR.apart x → t.f x 0 = s.f x 0

theorem State.assertFlt_power : s.assertFlt.sys.power = { s.sys.power with safeFlt := true } := by
  unfold State.assertFlt
  split
  · rename_i set
    rw [← set]
  · rw [State.logEvent_power, State.safePin_power, State.modPower_power, State.setF_sys]

theorem stopped_bootStop (s : State) (err : Nat) : Stopped err s (s.bootStop err) := by
  have asserted : Leaves safetyParts (oneReg .sysSafestat 0) (s.setF SYS_BOOTSTAT.BOOT_ERR 0 err) (s.bootStop err) :=
    (Leaves.refl _ _ _).assertFlt (List.Subset.refl _) ⟨rfl, rfl⟩
  refine ⟨?_, ?_, ?_, fun x boot safe i => ?_, fun x boot apart => ?_⟩
  · rw [asserted.f_same _ _ fun e => absurd e.1 (by decide), State.setF_f_width _ _ _ _ 8 (by decide) rfl]
    rfl
  · rw [State.bootStop, State.assertFlt_power, State.setF_sys]
  · rw [asserted.1 .fw (by decide), State.setF_sys]
  · rw [asserted.f_same _ _ fun e => safe e.1, ((Leaves.refl [] (oneReg .sysBootstat 0) s).setF ⟨rfl, rfl⟩).f_same _ _ fun e => boot e.1]
  · rw [asserted.f_same _ _ fun e => by rw [boot] at e; exact absurd e.1 (by decide), State.setF_f_apart _ _ _ _ _ _ (by decide) apart]

end

end Sys2Proof.Machine
end

section
/-! PROOFS. What O57 says of a boot, and of the power modes (R141, R230, R235, R323 to R329, R350, R363, R369). -/

set_option Elab.async false

namespace Sys2Proof.Machine

section
variable {s v : State} {bad : Bool} {x : BootSlot} {rec : RecordSource}

/-- What every boot leaves, whatever the slot holds. -/
structure Entry (bad : Bool) (s t : State) : Prop where
  mode : t.sys.power.mode = .on
  held : t.sys.power.safeHeld = false
  soc : t.sys.power.socPwrEn = true
  aBad : t.fb SYS_BOOTSTAT.SLOT_A_BAD 0 = bad
  slot : t.fb SYS_BOOTSTAT.SLOT 0 = bad
  cause : s.sys.power.coldNext = false → t.f SYS_PWRSTAT.WAKE_CAUSE 0 = s.f SYS_PWRSTAT.WAKE_CAUSE 0

/-- A boot that stops in the ROM shows its cause and holds the fault output. -/
theorem bootStop_stops (h : Entered bad s v) (err : Nat) : Entry bad s (v.bootStop err)
    ∧ (v.bootStop err).f SYS_BOOTSTAT.BOOT_ERR 0 = err % 256 ∧ (v.bootStop err).sys.power.safeFlt = true
    ∧ (v.bootStop err).sys.power.booted = false := by
  have stopped := stopped_bootStop v err
  have power := stopped.power
  refine ⟨⟨by rw [power]; exact h.mode, by rw [power]; exact h.held, by rw [power]; exact h.soc, ?_, ?_, fun warm => ?_⟩, stopped.err,
    by rw [power], by rw [power]; exact h.booted⟩
  · rw [State.fb, stopped.slots _ rfl (by decide), ← State.fb, h.aBad]
  · rw [State.fb, stopped.slots _ rfl (by decide), ← State.fb, h.slot]
  · rw [stopped.others _ (by decide) (by decide), h.cause warm]

/-- What a boot whose images are written leaves. -/
structure Booted (x : BootSlot) (rec : RecordSource) (s t : State) : Prop where
  booted : t.sys.power.booted = true
  err : t.f SYS_BOOTSTAT.BOOT_ERR 0 = 0
  locked : t.fb SYS_LOCK.BOOT 0 = true
  mgr : t.fb SYS_LOCK.MGR 0 = false
  owners : ∀ e ∈ x.config.assign, t.owner e.1 e.2.1 = e.2.2
  devId : t.f WSK_ID.DEV_ID 0 = x.config.devId % 2 ^ 16
  timeSrc : t.fb WSK_ID.TIME_SRC 0 = x.config.timeSrc
  ready : t.fb MEM_CTRL.READY 0 = true
  cupola : (t.fwp 1).running = true ∧ (t.fwp 1).image.digest = x.cupolaDigest
  crucible : (t.fwp 2).running = true
  others : ∀ p, p ≠ 1 → p ≠ 2 → (t.fwp p).running = false
  digests : t.sys.trust.digests = slotDigests x
  keys : t.sys.trust.keys = []
  dead : ∀ k, k < 34 → (k ∈ s.sys.store.retired ∨ k ∈ s.sys.record.retired) → t.f ARR_STATUS.STATE k = 6
  spare : ∀ k ∈ t.units.spares, t.f ARR_STATUS.STATE k = 7
  few : t.units.spares.length ≤ 2
  starts : rec = .none → NMap.get t.sys.record.counts 0 0 = b2n s.sys.power.coldNext

/-- The processors that a boot starts. -/
theorem State.firmwareLoaded_fw (t : State) (loaded : t.sys.fw = (s.firmwareLoaded x).sys.fw) (p : Nat) : t.fwp p
    = if p = 1 then { running := true, image := { digest := x.cupolaDigest } }
      else if p = 2 then { running := true, image := { digest := x.crucibleDigest } } else {} := by
  have list : (s.firmwareLoaded x).sys.fw = [(1, { running := true, image := { digest := x.cupolaDigest } }),
    (2, { running := true, image := { digest := x.crucibleDigest } })] := rfl
  unfold State.fwp
  rw [loaded, list, NMap.get, NMap.find, NMap.find, NMap.find]
  split
  · rfl
  split
  · rfl
  · rfl

theorem bootSlot_boots (h : Entered bad s v) (good : assignBad x.config = false) :
    Entry bad s ((v.writeImages x.config).bootRest x rec) ∧ Booted x rec s ((v.writeImages x.config).bootRest x rec) := by
  have imaged := imaged_writeImages v x.config
  have images := imaged.leaves
  generalize v.writeImages x.config = w at *
  have rested := rested_bootRest x rec w
  generalize w.bootRest x rec = t at *
  have power := imaged.power
  have store : w.sys.store = v.sys.store := images.1 .store (by decide)
  have record : w.sys.record = {} := (images.1 .record (by decide) : w.sys.record = v.sys.record).trans h.wiped.record
  have cold : w.sys.power.coldNext = s.sys.power.coldNext := by
    rw [power]
    exact h.cold
  have rest (y : Fld) (i : Nat) (apart : ¬restRegs y.reg i) : t.f y i = w.f y i := by
    unfold State.f
    rw [rested.regs _ _ apart]
  have both (y : Fld) (i : Nat) (apart : ¬restRegs y.reg i) (beside : ¬imageRegs y.reg i) : t.f y i = v.f y i :=
    (rest y i apart).trans (images.f_same y i beside)
  have fw := State.firmwareLoaded_fw t rested.fw
  have keys : t.sys.trust.keys = [] := by
    rw [rested.trust]
    exact (congrArg TrustSt.keys (images.1 .trust (by decide))).trans h.wiped.keys
  refine ⟨⟨by rw [rested.mode, power]; exact h.mode, by rw [rested.held, power]; exact h.held, by rw [rested.soc, power]; exact h.soc, ?_, ?_,
      fun warm => ?_⟩,
    ⟨rested.booted, ?_, ?_, ?_, fun e here => ?_, ?_, ?_, rested.ready, ?_, ?_, fun p one two => ?_, by rw [rested.trust], keys,
      fun k lt listed => rested.dead k lt ?_, rested.spare, rested.few, fun none => ?_⟩⟩
  · rw [State.fb, both _ _ (by unfold restRegs; decide) (by unfold imageRegs; decide), ← State.fb, h.aBad]
  · rw [State.fb, both _ _ (by unfold restRegs; decide) (by unfold imageRegs; decide), ← State.fb, h.slot]
  · rw [rested.cause, images.f_same _ _ (by unfold imageRegs; decide), h.cause warm]
  · rw [both _ _ (by unfold restRegs; decide) (by unfold imageRegs; decide), h.err]
  · rw [State.fb, rest _ _ (by unfold restRegs; decide), ← State.fb, imaged.locked]
  · rw [State.fb, rest _ _ (by unfold restRegs; decide), imaged.mgr, h.mgr]
    rfl
  · have same : t.owner e.1 e.2.1 = w.owner e.1 e.2.1 := by
      unfold State.owner
      rw [rested.regs _ _ (by unfold restRegs; decide)]
    rw [same, imaged.owners good e here]
  · rw [rest _ _ (by unfold restRegs; decide), imaged.devId]
  · rw [State.fb, rest _ _ (by unfold restRegs; decide), ← State.fb, imaged.timeSrc]
  · rw [fw 1, if_pos rfl]
    exact ⟨rfl, rfl⟩
  · rw [fw 2, if_neg (by decide), if_pos rfl]
  · rw [fw p, if_neg one, if_neg two]
  · rw [store, h.wiped.store]
    exact (mem_foldl_insNat _ _ _).2 listed
  · rw [rested.starts none, cold, record]
    cases s.sys.power.coldNext <;> rfl

/-! ## The slots -/

theorem boot_first {a b : BootSlot} (may : s.mayBoot = true) (first : slotVerifies a = true) :
    exec (.boot a b rec) s = .next (s.rise.bootSlot a rec) := by
  rw [exec_boot, execBoot, may, Bool.not_true, if_neg Bool.false_ne_true]
  dsimp only
  rw [if_pos first]

theorem boot_second {a b : BootSlot} (may : s.mayBoot = true) (first : slotVerifies a = false) (second : slotVerifies b = true) :
    exec (.boot a b rec) s = .next (s.rise.slotBTaken.bootSlot b rec) := by
  rw [exec_boot, execBoot, may, Bool.not_true, if_neg Bool.false_ne_true]
  dsimp only
  rw [first, if_neg Bool.false_ne_true, if_pos second]
  rfl

theorem boot_none {a b : BootSlot} (may : s.mayBoot = true) (first : slotVerifies a = false) (second : slotVerifies b = false) :
    exec (.boot a b rec) s = .next (s.rise.slotABad.bootStop b.err) := by
  rw [exec_boot, execBoot, may, Bool.not_true, if_neg Bool.false_ne_true]
  dsimp only
  rw [first, if_neg Bool.false_ne_true, second, if_neg Bool.false_ne_true]
  rfl

/-- What the ROM does with the slot that it takes. -/
theorem bootSlot_ends (h : Entered bad s v) : Entry bad s (v.bootSlot x rec)
    ∧ (x.err ≠ 0 → (v.bootSlot x rec).f SYS_BOOTSTAT.BOOT_ERR 0 = x.err % 256 ∧ (v.bootSlot x rec).sys.power.safeFlt = true
        ∧ (v.bootSlot x rec).sys.power.booted = false)
    ∧ (x.err = 0 → assignBad x.config = true → (v.bootSlot x rec).f SYS_BOOTSTAT.BOOT_ERR 0 = 0x12
        ∧ (v.bootSlot x rec).sys.power.safeFlt = true ∧ (v.bootSlot x rec).sys.power.booted = false)
    ∧ (x.err = 0 → assignBad x.config = false → Booted x rec s (v.bootSlot x rec)) := by
  unfold State.bootSlot
  by_cases err : x.err = 0
  · rw [if_neg (fun ne => ne err)]
    cases table : assignBad x.config with
    | true =>
      rw [if_pos rfl]
      obtain ⟨entry, code, fault, off⟩ := bootStop_stops h 0x12
      exact ⟨entry, fun ne => absurd err ne, fun _ _ => ⟨code, fault, off⟩, fun _ => nofun⟩
    | false =>
      rw [if_neg Bool.false_ne_true]
      have booted := bootSlot_boots (rec := rec) h table
      exact ⟨booted.1, fun ne => absurd err ne, fun _ => nofun, fun _ _ => booted.2⟩
  · rw [if_pos err]
    obtain ⟨entry, code, fault, off⟩ := bootStop_stops h x.err
    exact ⟨entry, fun _ => ⟨code, fault, off⟩, fun e => absurd e err, fun e => absurd e err⟩

/-- The slot that a boot takes, and the state in which it does. -/
theorem boot_takes {a b : BootSlot} (may : s.mayBoot = true)
    (takes : (slotVerifies a = true ∧ x = a) ∨ (slotVerifies a = false ∧ slotVerifies b = true ∧ x = b)) :
    ∃ v, exec (.boot a b rec) s = .next (v.bootSlot x rec) ∧ Entered (!(slotVerifies a)) s v := by
  rcases takes with ⟨first, rfl⟩ | ⟨first, second, rfl⟩
  · exact ⟨_, boot_first may first, by rw [first]; exact entered_rise s⟩
  · exact ⟨_, boot_second may first second, by rw [first]; exact entered_slotBTaken (entered_rise s)⟩

end

/-- Settles O57: the rails and trips by what `State.toReset` leaves, a boot by `bootSlot_ends` from the state in which RESET_N rises. -/
theorem powerModesFollowTheRails : Obligations.PowerModesFollowTheRails := by
  unfold Obligations.PowerModesFollowTheRails
  intro kept
  refine ⟨fun s off => ?_, fun s on => ?_, fun s on => ?_, fun s off => ?_, fun s a b rec no => ?_, fun s a b x rec may takes => ?_,
    fun s a b rec may first second => ?_, fun s on => ⟨brownOut_aon on, brownOut_soc on, fun standby => ?_, fun r lt aon soc => ?_⟩,
    fun s r lt off => brownOut_none lt (.inl off), fun s n c lt => ⟨fun cool => ?_, fun on hot => ?_⟩, fun s => ?_⟩
  · obtain ⟨t, run, mode, rails, cold, soc, held, regs, wiped⟩ := powerUp_resets off
    exact ⟨t, run, mode, rails, cold, soc, held, regs, wiped.mem, wiped.work, wiped.store⟩
  · rw [exec_powerUp, execPowerUp, if_neg on]
  · obtain ⟨mode, booted, held, -, -⟩ := s.toReset_modes false
    have wiped := wiped_toReset s false
    refine ⟨_, by rw [exec_resetAssert, execResetAssert, if_neg on], mode, booted, held, fun r i => ?_, wiped.mem, wiped.work, wiped.units,
      wiped.store, wiped.record⟩
    rw [s.toReset_r false r i ((r = .sysPwrctrl ∨ r = .sysPwrstat ∨ r = .sysStbytime) ∧ i = 0) Iff.rfl]
    simp only [true_and]
  · rw [exec_resetAssert, execResetAssert, if_pos off]
  · rw [exec_boot, execBoot, no, Bool.not_false, if_pos rfl]
  · obtain ⟨v, run, entered⟩ := boot_takes (rec := rec) may takes
    obtain ⟨entry, stop, table, good⟩ := bootSlot_ends (rec := rec) (x := x) entered
    refine ⟨_, run, entry.mode, entry.held, entry.soc, entry.aBad, entry.slot, stop, table, fun err ok => ?_, entry.cause⟩
    have up := good err ok
    exact ⟨up.booted, up.err, up.locked, up.mgr, up.owners, up.devId, up.timeSrc, up.ready, up.cupola.1, up.cupola.2, up.crucible,
      up.others, up.digests, up.keys, up.dead, up.spare, up.few, up.starts⟩
  · have entered := entered_rise s
    have stopped := stopped_bootStop s.rise.slotABad b.err
    have power : s.rise.slotABad.sys = s.rise.sys := by rw [State.slotABad, State.setF_sys]
    refine ⟨_, boot_none may first second, ?_, ?_, stopped.err, ?_, ?_⟩
    · rw [stopped.power, power]
      exact entered.mode
    · rw [stopped.power, power]
      exact entered.booted
    · rw [stopped.power]
    · rw [stopped.fw, power, entered.wiped.fw]
  · exact brownOut_none (by decide) (.inr ⟨by decide, .inr standby⟩)
  · exact brownOut_none lt (.inr ⟨aon, .inl soc⟩)
  · rw [exec_thermalShutdown, execThermalShutdown, decide_eq_true lt, unit_true, if_pos (by simpa using cool)]
  · obtain ⟨t, run, mode, trip, soc, held, wiped⟩ := thermalShutdown_trips lt on hot
    exact ⟨t, run, mode, trip, soc, held, wiped.store, wiped.mem⟩
  · obtain ⟨t, run, mode, regs, rails, cold, soc, held, wiped⟩ := powerOff_wipes (s := s)
    exact ⟨t, run, mode, regs, wiped.mem, wiped.work, rails, cold, soc, held, wiped.store⟩

end Sys2Proof.Machine
end

section
/-! PROOFS. Weska ports that come down: what is lost, what takes its route again, and replays (R301, R305, R307, R313). -/

set_option Elab.async false

namespace Sys2Proof.Machine

section
variable {s t u : State} {p q st : Nat} {c : Cell}

/-! ## Lost cells (R301, R313) -/

theorem leaves_postedError {n : Nat} : Leaves [.freeCtr, .keptIrqs, .outbox] (oneReg .sysBrwin0 n) s (s.postedError n) := by
  have count : Leaves [.freeCtr, .keptIrqs, .outbox] (oneReg .sysBrwin0 n) s (s.incSat SYS_BRWIN0.ERRS n 1) :=
    (Leaves.refl _ _ s).incSat ⟨rfl, rfl⟩
  exact Leaves.ite count.mgrIrq count.fresh.fresh.emit

/-- An error of a posted write counts in its window. -/
theorem State.postedError_errs (n : Nat) : (s.postedError n).f SYS_BRWIN0.ERRS n = min (s.f SYS_BRWIN0.ERRS n + 1) 0xFFFF := by
  rw [← counted SYS_BRWIN0.ERRS n (by decide) rfl]
  unfold State.postedError
  dsimp only
  split
  · rw [State.mgrIrq_f]
  · rfl

theorem leaves_loseCell : Leaves [.freeCtr, .keptIrqs, .outbox] (fun r _ => r = .sysBrwin0) s (s.loseCell c) := by
  unfold State.loseCell
  split
  · exact .refl _ _ s
  split
  · exact leaves_postedError.mono (List.Subset.refl _) fun _ _ e => e.1
  · exact .refl _ _ s

/-- One lost cell stands for one lost packet, whether its packet is whole or not. -/
theorem lostPackets_one (channel : c.vc < 5) : lostPackets [c] = [c] := by
  have five : List.range 5 = [0, 1, 2, 3, 4] := rfl
  obtain ⟨dest, src, vc, ttl, seq, ack, crVc, crCells, body⟩ := c
  have some_vc : vc = 0 ∨ vc = 1 ∨ vc = 2 ∨ vc = 3 ∨ vc = 4 := by
    have : vc < 5 := channel
    omega
  unfold lostPackets
  rw [five]
  cases body <;> rcases some_vc with rfl | rfl | rfl | rfl | rfl <;> rfl

theorem State.postedWin_same (same : ∀ x : Fld, ∀ i, x.reg = .sysBrwin0 ∨ x.reg = .sysBrwin1 ∨ x.reg = .sysBrwin2 → t.f x i = s.f x i) :
    t.postedWin c = s.postedWin c := by
  have f0 (x : Fld) (i : Nat) (e : x.reg = .sysBrwin0) : t.f x i = s.f x i := same x i (.inl e)
  have f1 (x : Fld) (i : Nat) (e : x.reg = .sysBrwin1) : t.f x i = s.f x i := same x i (.inr (.inl e))
  have f2 (x : Fld) (i : Nat) (e : x.reg = .sysBrwin2) : t.f x i = s.f x i := same x i (.inr (.inr e))
  unfold State.postedWin
  simp (disch := decide) only [State.fb, f0, f1, f2]

/-! ## Routes -/

/-- A route leads through a port that is up. -/
theorem State.wskRoute_up {d : Nat} (route : s.wskRoute d = some q) : s.f WSK_PORTSTAT.STATE q = 2 := by
  have up {x : Nat} (h : s.wskUp x = true) : s.f WSK_PORTSTAT.STATE x = 2 := beq_iff_eq.1 h
  unfold State.wskRoute at route
  split at route
  · cases route
  split at route
  · rename_i first
    cases route
    exact up first
  split at route
  · rename_i second
    cases route
    exact up (Bool.and_eq_true_iff.1 second).2
  · cases route

/-- A cell that waited where it was injected takes its route again. -/
theorem State.reroute_local (one : c.dest ≠ 0xFFFF) (route : s.wskRoute c.dest = some q) :
    s.reroute none c = s.modWsk q fun w => { w with localQ := w.localQ ++ [c] } := by
  unfold State.reroute
  dsimp only
  rw [if_neg one, route]

theorem State.reroute_lost (one : c.dest ≠ 0xFFFF) (route : s.wskRoute c.dest = none) :
    s.reroute none c = s.incSat WSK_STAT.NO_ROUTE 0 1 := by
  unfold State.reroute
  dsimp only
  rw [if_neg one, route]

theorem leaves_reroute {i : Option Nat} : Leaves [.wsk] (oneReg .wskStat 0) s (s.reroute i c) := by
  have count : Leaves [.wsk] (oneReg .wskStat 0) s (s.incSat WSK_STAT.NO_ROUTE 0 1) := (Leaves.refl _ _ s).incSat ⟨rfl, rfl⟩
  have freed {t : State} (h : Leaves [.wsk] (oneReg .wskStat 0) s t) (k : Nat) : Leaves [.wsk] (oneReg .wskStat 0) s (t.freeBuf k c) :=
    h.into leaves_freeBuf (by simp) fun _ _ no => no.elim
  unfold State.reroute
  dsimp only
  split
  · cases i with
    | none => exact .refl _ _ s
    | some k => exact freed (.refl _ _ s) k
  split
  · cases i with
    | none => exact count
    | some k => exact freed count k
  · exact (Leaves.refl _ _ s).modWsk

/-- What a port that is down keeps while the cells that waited take their routes again. -/
theorem State.reroute_port {i : Option Nat} (down : s.f WSK_PORTSTAT.STATE p ≠ 2) :
    ∃ o, (s.reroute i c).wport p = { s.wport p with owed := o } := by
  have freed (t : State) (same : t.wport p = s.wport p) (k : Nat) : ∃ o, (t.freeBuf k c).wport p = { s.wport p with owed := o } := by
    by_cases here : p = k
    · rw [← here, ← same]
      exact State.freeBuf_apart
    · rw [State.freeBuf_wport_ne here, same]
      exact ⟨_, rfl⟩
  unfold State.reroute
  dsimp only
  split
  · cases i with
    | none => exact ⟨_, rfl⟩
    | some k => exact freed s rfl k
  split
  · cases i with
    | none => exact ⟨_, by rw [State.incSat_wport]⟩
    | some k => exact freed _ (State.incSat_wport ..) k
  · rename_i route
    rw [State.modWsk_wport, if_neg fun e => down (by rw [e]; exact State.wskRoute_up route)]
    exact ⟨_, rfl⟩

/-! ## A port that leaves STATE 2h (R313) -/

/-- A port with no cell left. -/
def WskSt.closed (w : WskSt) : WskSt := { w with unacked := [], transit := [], localQ := [], replaying := false }

/-- The state in which a port has left STATE 2h, before its cells are dealt with. -/
def State.portClosed (s : State) (p st : Nat) : State :=
  ((s.setF WSK_PORTSTAT.STATE p st).setF WSK_PORTSTAT.WIDTH p 0).modWsk p WskSt.closed

/-- The state in which the unacknowledged cells of a port that is down are lost. -/
def State.portLost (s : State) (p st : Nat) : State :=
  (s.portClosed p st).each (lostPackets (s.wport p).unacked) fun s c => s.loseCell c

theorem State.portDown_eq : s.portDown p st
    = ((s.portLost p st).each (s.wport p).transit fun s q => s.reroute (some q.1) q.2).each (s.wport p).localQ
        fun s c => s.reroute none c := (rfl)

/-- The registers that a port which comes down may change. -/
def downRegs (p : Nat) (r : Reg) (i : Nat) : Prop := (r = .wskPortstat ∧ i = p) ∨ r = .sysBrwin0 ∨ r = .wskStat

/-- What a port that comes down has left from `s` to `t`. -/
structure Shut (p st : Nat) (s t : State) : Prop where
  state : t.f WSK_PORTSTAT.STATE p = st
  width : t.f WSK_PORTSTAT.WIDTH p = 0
  retrains : t.f WSK_PORTSTAT.RETRAINS p = s.f WSK_PORTSTAT.RETRAINS p
  port : ∃ o, t.wport p = { (s.wport p).closed with owed := o }
  leaves : Leaves [.wsk, .freeCtr, .keptIrqs, .outbox] (downRegs p) s t

/-- What a port that comes down leaves stands while its registers and its own cells stay as they are. -/
theorem Shut.into {ps : List Part} {b : Reg → Nat → Prop} (h : Shut p st s t) (g : Leaves ps b t u) (apart : ∀ i, ¬b .wskPortstat i)
    (port : ∃ o, u.wport p = { t.wport p with owed := o }) (parts : ps ⊆ [.wsk, .freeCtr, .keptIrqs, .outbox])
    (regs : ∀ r i, b r i → downRegs p r i) : Shut p st s u := by
  obtain ⟨o, was⟩ := h.port
  obtain ⟨x, now⟩ := port
  refine ⟨?_, ?_, ?_, ⟨x, by rw [now, was]⟩, h.leaves.into g parts regs⟩
  · rw [g.f_same _ _ (apart p), h.state]
  · rw [g.f_same _ _ (apart p), h.width]
  · rw [g.f_same _ _ (apart p), h.retrains]

theorem Shut.loseCell (h : Shut p st s t) : Shut p st s (t.loseCell c) := by
  have wsk : (t.loseCell c).net.wsk = t.net.wsk := leaves_loseCell.1 .wsk (by simp)
  have port : (t.loseCell c).wport p = t.wport p := by rw [State.wport, wsk, ← State.wport]
  exact h.into leaves_loseCell (fun _ => nofun) ⟨_, by rw [port]⟩ (by simp) fun _ _ e => .inr (.inl e)

theorem Shut.reroute {i : Option Nat} (h : Shut p st s t) (low : st ≠ 2) : Shut p st s (t.reroute i c) :=
  h.into leaves_reroute (fun _ => by simp [oneReg]) (State.reroute_port (by rwa [h.state])) (by simp) fun _ _ e => .inr (.inr e.1)

theorem shut_portClosed (low : st < 16) : Shut p st s (s.portClosed p st) := by
  refine ⟨?_, ?_, ?_, ⟨(s.wport p).owed, ?_⟩, ?_⟩
  · rw [State.portClosed, State.modWsk_f, State.setF_f_apart _ _ _ _ _ _ (by decide) (by decide),
      State.setF_f_width _ _ _ _ 4 (by decide) rfl]
    exact Nat.mod_eq_of_lt low
  · rw [State.portClosed, State.modWsk_f, State.setF_f_width _ _ _ _ 2 (by decide) rfl]
    rfl
  · rw [State.portClosed, State.modWsk_f, State.setF_f_apart _ _ _ _ _ _ (by decide) (by decide),
      State.setF_f_apart _ _ _ _ _ _ (by decide) (by decide)]
  · rw [State.portClosed, State.modWsk_wport, if_pos rfl, State.setF_wport, State.setF_wport]
    rfl
  · exact (((Leaves.refl _ _ s).setF (.inl ⟨rfl, rfl⟩)).setF (.inl ⟨rfl, rfl⟩)).modWsk

theorem State.portClosed_wport_ne (ne : q ≠ p) : (s.portClosed p st).wport q = s.wport q := by
  rw [State.portClosed, State.modWsk_wport, if_neg ne, State.setF_wport, State.setF_wport]

theorem leaves_portClosed : Leaves [.wsk] (oneReg .wskPortstat p) s (s.portClosed p st) :=
  (((Leaves.refl _ _ s).setF ⟨rfl, rfl⟩).setF ⟨rfl, rfl⟩).modWsk

theorem leaves_lost : Leaves [.freeCtr, .keptIrqs, .outbox] (fun r _ => r = .sysBrwin0) (s.portClosed p st) (s.portLost p st) :=
  (Leaves.refl _ _ _).over fun _ _ h => h.trans leaves_loseCell

theorem shut_portLost (low : st < 16) : Shut p st s (s.portLost p st) :=
  State.each_keeps (P := Shut p st s) (shut_portClosed low) fun _ _ _ h => h.loseCell

theorem shut_portDown (low : st < 2) : Shut p st s (s.portDown p st) := by
  rw [State.portDown_eq]
  refine State.each_keeps (P := Shut p st s) (State.each_keeps (P := Shut p st s) (shut_portLost (by omega)) fun _ _ _ h => ?_)
    fun _ _ _ h => ?_
  · exact h.reroute (by omega)
  · exact h.reroute (by omega)

/-- The cells that waited at a port that is down change no register but the counter of cells without a route. -/
theorem leaves_rerouted : Leaves [.wsk] (oneReg .wskStat 0) (s.portLost p st) (s.portDown p st) := by
  rw [State.portDown_eq]
  exact ((Leaves.refl _ _ _).over fun _ _ h => h.trans leaves_reroute).over fun _ _ h => h.trans leaves_reroute

/-- A posted write that was not acknowledged counts in its window. -/
theorem State.portDown_errs {n : Nat} (one : (s.wport p).unacked = [c]) (channel : c.vc < 5) (own : c.src = s.f WSK_ID.DEV_ID 0)
    (win : s.postedWin c = some n) : (s.portDown p st).f SYS_BRWIN0.ERRS n = min (s.f SYS_BRWIN0.ERRS n + 1) 0xFFFF := by
  have same (x : Fld) (i : Nat) (ne : x.reg ≠ .wskPortstat) : (s.portClosed p st).f x i = s.f x i :=
    leaves_portClosed.f_same x i fun e => ne e.1
  have window : (s.portClosed p st).postedWin c = some n := by
    rw [← win]
    exact State.postedWin_same fun x i e => same x i (by rcases e with e | e | e <;> rw [e] <;> decide)
  have self : (c.src != (s.portClosed p st).f WSK_ID.DEV_ID 0) = false := by
    rw [same _ _ (by decide), own, bne_self_eq_false]
  have lost : s.portLost p st = (s.portClosed p st).postedError n := by
    unfold State.portLost
    rw [one, lostPackets_one channel, State.each, List.foldl_cons, List.foldl_nil, State.loseCell, self, if_neg Bool.false_ne_true, window]
  rw [leaves_rerouted.f_same _ _ fun e => absurd e.1 (by decide), lost, State.postedError_errs, same _ _ (by decide)]

/-! ## The hand-over when no path is left (R23) -/

theorem leaves_partnerLost : Leaves [.outbox, .traj, .bridge] noReg s s.partnerLost := by
  unfold State.partnerLost
  split
  · exact Leaves.ite ((State.leaves_releaseTraj s _).mono (by simp) fun _ _ no => no.elim) (Leaves.refl _ _ s)
  · exact .refl _ _ s

theorem State.partnerLost_wport : s.partnerLost.wport p = s.wport p := by
  have wsk : s.partnerLost.net.wsk = s.net.wsk := leaves_partnerLost.1 .wsk (by simp)
  rw [State.wport, wsk, ← State.wport]

theorem State.partnerLost_f {x : Fld} {i : Nat} : s.partnerLost.f x i = s.f x i := leaves_partnerLost.f_same _ _ nofun

theorem State.partnerLost_wskRoute {d : Nat} : s.partnerLost.wskRoute d = s.wskRoute d :=
  State.wskRoute_same (fun _ _ _ => State.partnerLost_f) d

theorem State.partnerLost_upPorts : s.partnerLost.upPorts = s.upPorts := by
  unfold State.upPorts State.wskUp
  simp only [State.partnerLost_f]

/-- The trajectory that waits is released when no path is left. -/
theorem State.partnerLost_releases {fr : Nat} (waits : s.net.traj.waiting = some fr) (lost : s.upPorts = []) :
    s.partnerLost.net.traj.waiting = none ∧ s.partnerLost.net.traj.released = true := by
  have gone : s.partnerLost = s.releaseTraj fr := by
    unfold State.partnerLost
    rw [waits]
    dsimp only
    rw [lost]
    rfl
  rw [gone, State.releaseTraj_traj]
  exact ⟨rfl, rfl⟩

/-- A cell injected here that waited alone takes its route again, or is counted. -/
theorem State.portDown_reroutes (low : st < 2) (none_ : (s.wport p).transit = []) (alone : (s.wport p).localQ = [c]) (one : c.dest ≠ 0xFFFF) :
    ((s.portDown p st).wskRoute c.dest = none → (s.portDown p st).f WSK_STAT.NO_ROUTE 0 = min (s.f WSK_STAT.NO_ROUTE 0 + 1) 0xFFFF)
      ∧ ∀ q, (s.portDown p st).wskRoute c.dest = some q → ((s.portDown p st).wport q).localQ = (s.wport q).localQ ++ [c] := by
  have down : s.portDown p st = (s.portLost p st).reroute none c := by
    rw [State.portDown_eq, none_, alone]
    rfl
  have routes : (s.portDown p st).wskRoute c.dest = (s.portLost p st).wskRoute c.dest :=
    State.wskRoute_same (fun x i e => leaves_rerouted.f_same x i fun h => by rcases e with e | e <;> exact absurd (e.symm.trans h.1) (by decide))
      c.dest
  have wsk : (s.portLost p st).net.wsk = (s.portClosed p st).net.wsk := leaves_lost.1 .wsk (by simp)
  have shut : Shut p st s (s.portLost p st) := shut_portLost (by omega)
  rw [routes]
  refine ⟨fun route => ?_, fun q route => ?_⟩
  · rw [down, State.reroute_lost one route, counted WSK_STAT.NO_ROUTE 0 (by decide) rfl,
      leaves_lost.f_same _ _ (fun e => absurd e (by decide)), leaves_portClosed.f_same _ _ fun e => absurd e.1 (by decide)]
  · have ne : q ≠ p := by
      intro here
      have up := State.wskRoute_up route
      rw [here, shut.state] at up
      omega
    have was : (s.portLost p st).wport q = s.wport q := by
      rw [State.wport, wsk, ← State.wport, State.portClosed_wport_ne ne]
    rw [down, State.reroute_local one route, State.modWsk_wport, if_pos rfl, was]

end

end Sys2Proof.Machine
end

section
/-! PROOFS. Trainings, ports that come down, and replays (R305, R307, R313). -/

set_option Elab.async false

namespace Sys2Proof.Machine

section
variable {s t : State} {p : Nat} {c : Cell}

/-! ## Training (R305) -/

/-- The state in which a training begins: a port that was up comes down first. -/
def State.untrained (s : State) (p : Nat) : State := if s.wskUp p then s.portDown p 1 else s

theorem linkTraining_disabled {width peer : Nat} (lt : p < 4) (widths : width = 4 ∨ width = 2) (off : s.fb WSK_PORTCFG.EN p = false) :
    exec (.linkTraining p width peer) s = .next s := by
  have port : isPort p = true := decide_eq_true lt
  have ok : (width == 4 || width == 2) = true := by rcases widths with e | e <;> rw [e] <;> rfl
  rw [exec_linkTraining, execLinkTraining, port, ok, Bool.and_true, unit_true, off, Bool.not_false, if_pos rfl]

theorem linkTraining_trains {width peer : Nat} (lt : p < 4) (widths : width = 4 ∨ width = 2) (on : s.fb WSK_PORTCFG.EN p = true) :
    exec (.linkTraining p width peer) s = .next ((s.untrained p).train p width peer) := by
  have port : isPort p = true := decide_eq_true lt
  have ok : (width == 4 || width == 2) = true := by rcases widths with e | e <;> rw [e] <;> rfl
  rw [exec_linkTraining, execLinkTraining, port, ok, Bool.and_true, unit_true, on, Bool.not_true, if_neg Bool.false_ne_true]
  rfl

/-- What a training finds: the port's record of trainings, and all else but what a port that comes down changes. -/
theorem untrained_kept : ((s.untrained p).wport p).trained = (s.wport p).trained
    ∧ (s.untrained p).f WSK_PORTSTAT.RETRAINS p = s.f WSK_PORTSTAT.RETRAINS p
    ∧ Leaves [.wsk, .freeCtr, .keptIrqs, .outbox] (downRegs p) s (s.untrained p) := by
  unfold State.untrained
  split
  · obtain ⟨_, _, retrains, ⟨o, port⟩, leaves⟩ := shut_portDown (s := s) (p := p) (st := 1) (by decide)
    exact ⟨by rw [port]; rfl, retrains, leaves⟩
  · exact ⟨rfl, rfl, .refl _ _ s⟩

theorem State.untrained_down (down : s.f WSK_PORTSTAT.STATE p ≠ 2) : s.untrained p = s :=
  if_neg fun up => down (beq_iff_eq.1 up)

/-- What a training of an enabled port leaves. -/
theorem linkTraining_leaves {width peer : Nat} (lt : p < 4) (widths : width = 4 ∨ width = 2) (on : s.fb WSK_PORTCFG.EN p = true) :
    ∃ t, exec (.linkTraining p width peer) s = .next t
      ∧ t.f WSK_PORTSTAT.STATE p = 2 ∧ t.f WSK_PORTSTAT.WIDTH p = (if width = 4 then 2 else 1)
      ∧ t.f WSK_PORTSTAT.PEER_ID p = peer % 2 ^ 16 ∧ (t.wport p).trained = true ∧ (t.wport p).unacked = []
      ∧ (t.wport p).txSeq = 0 ∧ (t.wport p).rxSeq = 0
      ∧ [0, 1, 2, 3, 4].map (fun v => NMap.get (t.wport p).credits 0 v) = [4, 96, 96, 32, 48]
      ∧ t.f WSK_PORTSTAT.RETRAINS p = (if (s.wport p).trained then min (s.f WSK_PORTSTAT.RETRAINS p + 1) 0xFFFF
          else s.f WSK_PORTSTAT.RETRAINS p)
      ∧ (s.f WSK_PORTSTAT.STATE p ≠ 2 → (∀ q, q ≠ p → t.wport q = s.wport q)
          ∧ Leaves [.wsk, .record] (oneReg .wskPortstat p) s t)
      ∧ Leaves [.wsk, .record, .freeCtr, .keptIrqs, .outbox] (downRegs p) s t := by
  have trained := trained_train (s.untrained p) p width peer
  obtain ⟨was, retrains, before⟩ := untrained_kept (s := s) (p := p)
  have port : (((s.untrained p).train p width peer).wport p) = ((s.untrained p).wport p).fresh := (trained.ports p).trans (if_pos rfl)
  refine ⟨_, linkTraining_trains lt widths on, trained.state, trained.width, trained.peer, ?_, ?_, ?_, ?_, ?_, ?_, fun down => ?_, ?_⟩
  · rw [port]; rfl
  · rw [port]; rfl
  · rw [port]; rfl
  · rw [port]; rfl
  · rw [port]; rfl
  · rw [trained.retrains, was, retrains]
  · rw [State.untrained_down down] at trained ⊢
    exact ⟨fun q ne => (trained.ports q).trans (if_neg ne), trained.leaves⟩
  · exact (before.mono (by simp) fun _ _ h => h).into trained.leaves (by simp) fun _ _ h => .inl h

/-! ## A port that comes down (R313) -/

theorem portDown_idle (lt : p < 4) (down : s.f WSK_PORTSTAT.STATE p ≠ 2) : exec (.portDown p) s = .next s := by
  have port : isPort p = true := decide_eq_true lt
  have isDown : s.wskUp p = false := beq_eq_false_iff_ne.2 down
  rw [exec_portDown, execPortDown, port, unit_true, isDown, if_neg Bool.false_ne_true]

theorem portDown_closes (lt : p < 4) (up : s.f WSK_PORTSTAT.STATE p = 2) :
    exec (.portDown p) s = .next (s.portDown p 0).partnerLost := by
  have port : isPort p = true := decide_eq_true lt
  have isUp : s.wskUp p = true := beq_iff_eq.2 up
  rw [exec_portDown, execPortDown, port, unit_true, isUp, if_pos rfl]

/-- What a port that comes down leaves. -/
theorem portDown_leaves (lt : p < 4) (up : s.f WSK_PORTSTAT.STATE p = 2) : ∃ t, exec (.portDown p) s = .next t
    ∧ t.f WSK_PORTSTAT.STATE p = 0 ∧ t.f WSK_PORTSTAT.WIDTH p = 0
    ∧ (t.wport p).unacked = [] ∧ (t.wport p).transit = [] ∧ (t.wport p).localQ = []
    ∧ (∀ c n, (s.wport p).unacked = [c] → c.vc < 5 → c.src = s.f WSK_ID.DEV_ID 0 → s.postedWin c = some n →
        t.f SYS_BRWIN0.ERRS n = min (s.f SYS_BRWIN0.ERRS n + 1) 0xFFFF)
    ∧ (∀ c, (s.wport p).transit = [] → (s.wport p).localQ = [c] → c.dest ≠ 0xFFFF →
        (t.wskRoute c.dest = none → t.f WSK_STAT.NO_ROUTE 0 = min (s.f WSK_STAT.NO_ROUTE 0 + 1) 0xFFFF)
        ∧ (∀ q, t.wskRoute c.dest = some q → (t.wport q).localQ = (s.wport q).localQ ++ [c]))
    ∧ (∀ fr, s.net.traj.waiting = some fr → t.upPorts = [] → t.net.traj.waiting = none ∧ t.net.traj.released = true)
    ∧ Leaves [.wsk, .freeCtr, .keptIrqs, .outbox, .traj, .bridge] (downRegs p) s t := by
  obtain ⟨state, width, _, ⟨o, port⟩, leaves⟩ := shut_portDown (s := s) (p := p) (st := 0) (by decide)
  have traj : (s.portDown p 0).net.traj = s.net.traj := leaves.1 .traj (by simp)
  refine ⟨_, portDown_closes lt up, ?_⟩
  simp only [State.partnerLost_f, State.partnerLost_wport, State.partnerLost_wskRoute, State.partnerLost_upPorts]
  refine ⟨state, width, by rw [port]; rfl, by rw [port]; rfl, by rw [port]; rfl, fun c n => State.portDown_errs,
    fun c => State.portDown_reroutes (by decide), fun fr waits => State.partnerLost_releases (by rw [traj, waits]), ?_⟩
  exact (leaves.mono (by simp) fun _ _ h => h).into leaves_partnerLost (by simp) fun _ _ no => no.elim

/-! ## Replays (R307) -/

theorem cellReceive_down (lt : p < 4) (down : s.f WSK_PORTSTAT.STATE p ≠ 2) (b : Bool) : exec (.cellReceive p c b) s = .next s := by
  have port : isPort p = true := decide_eq_true lt
  have isDown : s.wskUp p = false := beq_eq_false_iff_ne.2 down
  rw [exec_cellReceive, execCellReceive, port, unit_true, isDown, Bool.not_false, if_pos rfl]

/-- A cell out of order is not taken. -/
theorem cellReceive_outOfOrder (lt : p < 4) (ne : c.seq % 256 ≠ (s.wport p).rxSeq) : exec (.cellReceive p c false) s = .next s := by
  have port : isPort p = true := decide_eq_true lt
  rw [exec_cellReceive, execCellReceive, port, unit_true, if_neg Bool.false_ne_true, if_pos (bne_iff_ne.2 ne), ite_self]

/-- The state in which a cell that cannot be corrected has been marked, where it was already being forwarded. -/
def State.marked (s : State) (c : Cell) : State :=
  if c.dest = 0xFFFF || c.dest = s.f WSK_ID.DEV_ID 0 then s
  else
    match s.wskRoute c.dest with
    | some q => s.emit (.badCell q c)
    | none => s

theorem leaves_marked : Leaves [.outbox] noReg s (s.marked c) := by
  unfold State.marked
  split
  · exact .refl _ _ s
  split
  · exact (Leaves.refl _ _ s).emit
  · exact .refl _ _ s

theorem State.marked_wport {q : Nat} : (s.marked c).wport q = s.wport q := by
  have wsk : (s.marked c).net.wsk = s.net.wsk := leaves_marked.1 .wsk (by simp)
  rw [State.wport, wsk, ← State.wport]

/-- A cell that cannot be corrected asks for a replay, unless one is under way. -/
theorem cellReceive_bad (lt : p < 4) (up : s.f WSK_PORTSTAT.STATE p = 2) (idle : (s.wport p).replaying = false) :
    exec (.cellReceive p c true) s = .next ((s.marked c).askReplay p) := by
  have port : isPort p = true := decide_eq_true lt
  have isUp : s.wskUp p = true := beq_iff_eq.2 up
  have first : ((s.marked c).wport p).replaying = false := by rw [State.marked_wport, idle]
  rw [exec_cellReceive, execCellReceive, port, unit_true, isUp, Bool.not_true, if_neg Bool.false_ne_true, if_pos rfl]
  refine congrArg Host.Outcome.next (?_ : (if ((s.marked c).wport p).replaying then s.marked c else (s.marked c).askReplay p) = _)
  rw [first, if_neg Bool.false_ne_true]

/-- A port that has asked for its replay, the `n`-th within the millisecond that began at `ns`. -/
def WskSt.asked (w : WskSt) (n ns : Nat) : WskSt := { w with replaying := true, replays1ms := n, replayNs := ns }

/-- The state in which the replay is asked for. -/
def State.replayAsked (s : State) (p n ns : Nat) : State :=
  ((s.incSat WSK_PORTSTAT.REPLAYS p 1).emit (.replay p)).modWsk p fun w => w.asked n ns

theorem leaves_replayAsked {n ns : Nat} : Leaves [.wsk, .outbox] (oneReg .wskPortstat p) s (s.replayAsked p n ns) :=
  ((Leaves.refl _ _ s).incSat ⟨rfl, rfl⟩).emit.modWsk

theorem State.askReplay_first (none_ : (s.wport p).replays1ms = 0) : s.askReplay p = s.replayAsked p 1 s.now := by
  have fresh : (decide (1000000 < s.since (s.wport p).replayNs) || (s.wport p).replays1ms == 0) = true := by
    rw [none_, beq_self_eq_true, Bool.or_true]
  unfold State.askReplay
  dsimp only
  rw [fresh, if_pos rfl, if_neg (by decide)]
  rfl

theorem State.askReplay_last (fifteen : (s.wport p).replays1ms = 15) (soon : s.since (s.wport p).replayNs ≤ 1000000) :
    ∃ u : State, s.askReplay p = (u.portDown p 1).partnerLost := by
  have fresh : (decide (1000000 < s.since (s.wport p).replayNs) || (s.wport p).replays1ms == 0) = false := by
    rw [fifteen, decide_eq_false (by omega)]
    rfl
  unfold State.askReplay
  dsimp only
  rw [fresh, if_neg Bool.false_ne_true, fifteen, if_pos (by decide)]
  exact ⟨_, rfl⟩

/-- The first replay of a millisecond is asked for and counted. -/
theorem cellReceive_asksReplay (lt : p < 4) (up : s.f WSK_PORTSTAT.STATE p = 2) (idle : (s.wport p).replaying = false)
    (none_ : (s.wport p).replays1ms = 0) : ∃ t, exec (.cellReceive p c true) s = .next t ∧ .replay p ∈ t.outbox
      ∧ (t.wport p).replaying = true ∧ (t.wport p).rxSeq = (s.wport p).rxSeq
      ∧ t.f WSK_PORTSTAT.REPLAYS p = min (s.f WSK_PORTSTAT.REPLAYS p + 1) 0xFF
      ∧ Leaves [.wsk, .outbox] (oneReg .wskPortstat p) s t := by
  have marked : Leaves [.wsk, .outbox] (oneReg .wskPortstat p) s (s.marked c) := leaves_marked.mono (by simp) fun _ _ no => no.elim
  have first : ((s.marked c).wport p).replays1ms = 0 := by rw [State.marked_wport, none_]
  have same : (s.marked c).f WSK_PORTSTAT.REPLAYS p = s.f WSK_PORTSTAT.REPLAYS p := leaves_marked.f_same _ _ nofun
  have ports : (s.marked c).wport p = s.wport p := State.marked_wport
  refine ⟨_, (cellReceive_bad lt up idle).trans (congrArg _ (State.askReplay_first first)), ?_⟩
  generalize s.marked c = u at *
  have port : (u.replayAsked p 1 u.now).wport p = (u.wport p).asked 1 u.now := by
    rw [State.replayAsked, State.modWsk_wport, if_pos rfl, State.emit_wport, State.incSat_wport]
  refine ⟨?_, by rw [port]; rfl, by rw [port, ports]; rfl, ?_, marked.into leaves_replayAsked (List.Subset.refl _) fun _ _ h => h⟩
  · rw [State.replayAsked, State.modWsk_outbox, State.emit_outbox]
    exact List.mem_cons_self
  · rw [State.replayAsked, State.modWsk_f, State.emit_f, State.incSat_f_same _ _ _ _ (by decide), same]
    rfl

/-- The sixteenth replay of a millisecond retrains the port. -/
theorem cellReceive_retrains (lt : p < 4) (up : s.f WSK_PORTSTAT.STATE p = 2) (idle : (s.wport p).replaying = false)
    (fifteen : (s.wport p).replays1ms = 15) (soon : s.since (s.wport p).replayNs ≤ 1000000) :
    ∃ t, exec (.cellReceive p c true) s = .next t ∧ t.f WSK_PORTSTAT.STATE p = 1 := by
  have clock : (s.marked c).clock = s.clock := leaves_marked.1 .clock (by simp)
  have since (x : Nat) : (s.marked c).since x = s.since x := by
    unfold State.since State.now
    rw [clock]
  obtain ⟨u, last⟩ := State.askReplay_last (s := s.marked c) (p := p) (by rw [State.marked_wport, fifteen])
    (by rwa [State.marked_wport, since])
  refine ⟨_, (cellReceive_bad lt up idle).trans (congrArg _ last), ?_⟩
  rw [State.partnerLost_f]
  exact (shut_portDown (by decide)).state

end

end Sys2Proof.Machine
end

section
/-! PROOFS. Cells that arrive in order: their header, their way on, and the packets they make up (R306, R307, R310, R314). -/

set_option Elab.async false

namespace Sys2Proof.Machine

section
variable {s t u : State} {p q : Nat} {c : Cell}

/-! ## The port that has taken a cell -/

/-- The cells that were acknowledged leave, the last of them the acknowledged one. -/
theorem WskSt.headed_acknowledged {w : WskSt} {a : Cell} (found : w.unacked.find? (fun x => x.seq == c.ack) = some a) :
    ∃ xs, w.unacked = xs ++ a :: (w.headed c).unacked := by
  obtain ⟨is, xs, ys, split, before⟩ := List.find?_eq_some_iff_append.1 found
  have none_ : xs.findIdx (fun x => x.seq == c.ack) = xs.length :=
    List.findIdx_eq_length.2 fun x mem => by simpa using before x mem
  have place : w.unacked.findIdx (fun x => x.seq == c.ack) = xs.length := by
    rw [split, List.findIdx_append, none_, if_neg (Nat.lt_irrefl _), List.findIdx_cons, is]
    exact Nat.zero_add _
  have rest : (w.headed c).unacked = ys := by
    unfold WskSt.headed
    dsimp only
    rw [place, split, if_pos (by simp), List.drop_length_add_append]
    rfl
  exact ⟨xs, by rw [rest, split]⟩

theorem WskSt.headed_unacknowledged {w : WskSt} (none_ : ∀ x ∈ w.unacked, x.seq ≠ c.ack) : (w.headed c).unacked = w.unacked := by
  have past : ¬w.unacked.findIdx (fun x => x.seq == c.ack) < w.unacked.length := by
    rw [List.findIdx_lt_length]
    rintro ⟨x, mem, same⟩
    exact none_ x mem (beq_iff_eq.1 same)
  exact if_neg past

/-- What a received cell leaves of its port. -/
theorem State.accept_port (one : c.dest ≠ 0xFFFF) :
    ∃ tr lq o, (s.accept p c).wport p = { s.wport p with transit := tr, localQ := lq, owed := o } := by
  have owed (v : State) (h : ∃ tr lq o, v.wport p = { s.wport p with transit := tr, localQ := lq, owed := o }) :
      ∃ tr lq o, (v.owe p c.vc).wport p = { s.wport p with transit := tr, localQ := lq, owed := o } := by
    obtain ⟨tr, lq, o, is⟩ := h
    exact ⟨tr, lq, _, by rw [State.owe_wport, if_pos rfl, is]⟩
  have passed (q : Nat) : ∃ tr lq o, (s.passOn p q c).wport p = { s.wport p with transit := tr, localQ := lq, owed := o } := by
    unfold State.passOn
    split
    · exact ⟨_, _, _, by rw [State.incSat_wport]⟩
    rw [State.modWsk_wport]
    split
    · rename_i here
      exact ⟨_, _, _, by rw [← here]⟩
    · exact ⟨_, _, _, rfl⟩
  unfold State.accept
  rw [if_neg one]
  split
  · have link := (Keeps.consume (c := c) (φ := True) (.refl s)).ports trivial p
    refine owed _ ⟨(s.wport p).transit, ((s.consume c).wport p).localQ, (s.wport p).owed, ?_⟩
    generalize (s.consume c).wport p = v at *
    generalize s.wport p = w at *
    cases v
    cases w
    simp only [WskSt.link, WskSt.mk.injEq] at link ⊢
    tauto
  split
  · split
    · exact owed _ (passed _)
    · exact passed _
  · exact owed _ ⟨_, _, _, by rw [State.incSat_wport]⟩

/-! ## Packets -/

theorem State.wskRoute_of_regs {d : Nat} (regs : t.regs = s.regs) : t.wskRoute d = s.wskRoute d := by
  unfold State.wskRoute State.wskUp State.fb State.f State.r
  rw [regs]

theorem State.wskIn_of_regs {src addr : Nat} (regs : t.regs = s.regs) : t.wskIn src addr = s.wskIn src addr := by
  unfold State.wskIn State.fb State.f State.r
  rw [regs]

theorem State.f_of_regs {x : Fld} {i : Nat} (regs : t.regs = s.regs) : t.f x i = s.f x i := by
  unfold State.f State.r
  rw [regs]

/-- The key under which the cells of a packet for one device are counted. -/
def cellKey (c : Cell) : Nat := 16 * c.src + 2 * c.vc

/-- The count of the cells of a packet that have come in order. -/
def State.partsAt (s : State) (k n : Nat) : State := { s with net.parts := NMap.set s.net.parts 0 k n }

theorem leaves_partsAt {k n : Nat} : Leaves [.parts] noReg s (s.partsAt k n) := (Leaves.refl _ _ s).beside

theorem State.partsAt_parts {k n : Nat} : NMap.get (s.partsAt k n).net.parts 0 k = n := by
  rw [State.partsAt, NMap.get_set, if_pos rfl]

theorem cellKey_eq (one : c.dest ≠ 0xFFFF) : 16 * c.src + 2 * c.vc + b2n (c.dest == 0xFFFF) = cellKey c := by
  rw [beq_false_of_ne one]
  rfl

/-- A cell that more cells follow is counted. -/
theorem State.consume_more {a : Option Nat} (one : c.dest ≠ 0xFFFF) (body : c.body = .more a) :
    s.consume c = s.partsAt (cellKey c) (NMap.get s.net.parts 0 (cellKey c) + 1) := by
  unfold State.consume
  dsimp only
  rw [cellKey_eq one, body]
  rfl

/-- The last cell of a packet hands it over, where all the others have come. -/
theorem State.consume_last (one : c.dest ≠ 0xFFFF) (last : ∀ a, c.body ≠ .more a) :
    s.consume c = if NMap.get s.net.parts 0 (cellKey c) + 1 = packetCells c.body then (s.partsAt (cellKey c) 0).takePacket c else s.partsAt (cellKey c) 0 := by
  unfold State.consume
  dsimp only
  rw [cellKey_eq one]
  split
  · rename_i a body
    exact absurd body (last a)
  · rfl

/-- The state in which a packet that has come whole takes effect. -/
def State.ready (s : State) (p : Nat) (c : Cell) : State := (s.headed p c).partsAt (cellKey c) 0

theorem State.ready_regs : (s.ready p c).regs = s.regs := (rfl)

theorem leaves_ready : Leaves [.wsk, .parts] noReg s (s.ready p c) :=
  (leaves_headed.mono (by simp) fun _ _ no => no).into leaves_partsAt (by simp) fun _ _ no => no.elim

theorem State.ready_localQ : ((s.ready p c).wport q).localQ = (s.wport q).localQ := by
  rw [State.ready, State.partsAt, State.wport]
  refine (congrArg WskSt.localQ (State.headed_wport (s := s) (q := q))).trans ?_
  split
  · rename_i here
    rw [here]
    rfl
  · rfl

/-! ## Cells for other devices (R310, R313) -/

section
variable (one : c.dest ≠ 0xFFFF) (other : c.dest ≠ s.f WSK_ID.DEV_ID 0)
include one other

theorem State.headed_unrouted (route : s.wskRoute c.dest = none) :
    (s.headed p c).accept p c = ((s.headed p c).incSat WSK_STAT.NO_ROUTE 0 1).owe p c.vc :=
  State.accept_unrouted one other route

theorem State.headed_routed (route : s.wskRoute c.dest = some q) :
    (s.headed p c).accept p c
      = if c.ttl ≤ 1 then ((s.headed p c).passOn p q c).owe p c.vc else (s.headed p c).passOn p q c :=
  State.accept_routed one other route

end

theorem State.headed_owed : ((s.headed p c).wport p).owed = (s.wport p).owed := by
  rw [State.headed_wport, if_pos rfl]
  rfl

theorem State.owe_owed {vc : Nat} : NMap.get ((s.owe p vc).wport p).owed 0 vc = NMap.get (s.wport p).owed 0 vc + 1 := by
  rw [State.owe_wport, if_pos rfl]
  dsimp only
  rw [NMap.get_set, if_pos rfl]

/-- A cell without a route is counted, and its buffer is free again. -/
theorem unrouted_counted (one : c.dest ≠ 0xFFFF) (other : c.dest ≠ s.f WSK_ID.DEV_ID 0) (route : s.wskRoute c.dest = none) :
    ((s.headed p c).accept p c).f WSK_STAT.NO_ROUTE 0 = min (s.f WSK_STAT.NO_ROUTE 0 + 1) 0xFFFF
      ∧ NMap.get (((s.headed p c).accept p c).wport p).owed 0 c.vc = NMap.get (s.wport p).owed 0 c.vc + 1
      ∧ Leaves [.wsk] (oneReg .wskStat 0) s ((s.headed p c).accept p c) := by
  have headed : Leaves [.wsk] (oneReg .wskStat 0) s (s.headed p c) := leaves_headed.mono (by simp) fun _ _ no => no.elim
  have counted_ : Leaves [.wsk] (oneReg .wskStat 0) s ((s.headed p c).incSat WSK_STAT.NO_ROUTE 0 1) := headed.incSat ⟨rfl, rfl⟩
  rw [State.headed_unrouted one other route]
  refine ⟨?_, ?_, counted_.into leaves_owe (by simp) fun _ _ no => no.elim⟩
  · rw [leaves_owe.f_same _ _ nofun, counted WSK_STAT.NO_ROUTE 0 (by decide) rfl, leaves_headed.f_same _ _ nofun]
  · rw [State.owe_owed, State.incSat_wport, State.headed_owed]

/-- A cell without a hop left is counted, and its buffer is free again. -/
theorem hopless_counted (one : c.dest ≠ 0xFFFF) (other : c.dest ≠ s.f WSK_ID.DEV_ID 0) (route : s.wskRoute c.dest = some q)
    (last : c.ttl ≤ 1) :
    ((s.headed p c).accept p c).f WSK_STAT.TTL_DROP 0 = min (s.f WSK_STAT.TTL_DROP 0 + 1) 0xFFFF
      ∧ NMap.get (((s.headed p c).accept p c).wport p).owed 0 c.vc = NMap.get (s.wport p).owed 0 c.vc + 1
      ∧ Leaves [.wsk] (oneReg .wskStat 0) s ((s.headed p c).accept p c) := by
  have headed : Leaves [.wsk] (oneReg .wskStat 0) s (s.headed p c) := leaves_headed.mono (by simp) fun _ _ no => no.elim
  have counted_ : Leaves [.wsk] (oneReg .wskStat 0) s ((s.headed p c).incSat WSK_STAT.TTL_DROP 0 1) := headed.incSat ⟨rfl, rfl⟩
  rw [State.headed_routed one other route, if_pos last, State.passOn_dropped last]
  refine ⟨?_, ?_, counted_.into leaves_owe (by simp) fun _ _ no => no.elim⟩
  · rw [leaves_owe.f_same _ _ nofun, counted WSK_STAT.TTL_DROP 0 (by decide) rfl, leaves_headed.f_same _ _ nofun]
  · rw [State.owe_owed, State.incSat_wport, State.headed_owed]

/-- A cell that is no time message goes on with one hop fewer. -/
theorem State.onward_plain (plain : ∀ a k, c.body ≠ .time a k) : s.onward p c = { c with ttl := c.ttl - 1 } := by
  have body : s.ingressBody p c.body = c.body := by
    unfold State.ingressBody
    split
    · rename_i a k time
      exact absurd time (plain a k)
    · rfl
  rw [State.onward, body]

/-- A cell with a hop left waits at its egress, and holds its buffer. -/
theorem routed_waits (one : c.dest ≠ 0xFFFF) (other : c.dest ≠ s.f WSK_ID.DEV_ID 0) (route : s.wskRoute c.dest = some q)
    (hops : 1 < c.ttl) (plain : ∀ a k, c.body ≠ .time a k) :
    (((s.headed p c).accept p c).wport q).transit = (s.wport q).transit ++ [(p, { c with ttl := c.ttl - 1 })]
      ∧ NMap.get (((s.headed p c).accept p c).wport p).owed 0 c.vc = NMap.get (s.wport p).owed 0 c.vc
      ∧ Leaves [.wsk] noReg s ((s.headed p c).accept p c) := by
  have transit : ((s.headed p c).wport q).transit = (s.wport q).transit := by
    rw [State.headed_wport]
    split
    · rename_i here
      rw [here]
      rfl
    · rfl
  rw [State.headed_routed one other route, if_neg (by omega), State.passOn_waits hops, State.onward_plain plain]
  refine ⟨?_, ?_, leaves_headed.modWsk⟩
  · rw [State.modWsk_wport, if_pos rfl]
    exact congrArg (· ++ _) transit
  · rw [State.modWsk_wport]
    split
    · rename_i here
      rw [← here]
      exact congrArg (NMap.get · 0 c.vc) State.headed_owed
    · rw [State.headed_owed]

/-! ## Cells for this device -/

section
variable (one : c.dest ≠ 0xFFFF) (own : c.dest = s.f WSK_ID.DEV_ID 0)
include one own

theorem State.headed_own : (s.headed p c).accept p c = ((s.headed p c).consume c).owe p c.vc := State.accept_own one own

/-- A cell for this device is consumed, and its buffer is free again. -/
theorem own_freed : NMap.get (((s.headed p c).accept p c).wport p).owed 0 c.vc = NMap.get (s.wport p).owed 0 c.vc + 1 := by
  have link := (Keeps.consume (c := c) (φ := True) (.refl (s.headed p c))).ports trivial p
  have owed : (((s.headed p c).consume c).wport p).owed = ((s.headed p c).wport p).owed := by
    simpa only [WskSt.link] using congrArg WskSt.owed link
  rw [State.headed_own one own, State.owe_owed, owed, State.headed_owed]

/-- A cell that more cells follow is counted, and nothing else happens. -/
theorem own_more {a : Option Nat} (body : c.body = .more a) :
    NMap.get ((s.headed p c).accept p c).net.parts 0 (cellKey c) = NMap.get s.net.parts 0 (cellKey c) + 1
      ∧ Leaves [.wsk, .parts] noReg s ((s.headed p c).accept p c) := by
  have was : (s.headed p c).net.parts = s.net.parts := leaves_headed.1 .parts (by simp)
  have headed : Leaves [.wsk, .parts] noReg s (s.headed p c) := leaves_headed.mono (by simp) fun _ _ no => no
  rw [State.headed_own one own, State.consume_more one body, was, leaves_owe.1 .parts (by simp), State.partsAt_parts]
  exact ⟨rfl, (headed.into leaves_partsAt (by simp) fun _ _ no => no).into leaves_owe (by simp) fun _ _ no => no⟩

section
variable (last : ∀ a, c.body ≠ .more a)
include last

/-- A packet that lacks a cell is discarded. -/
theorem own_lacks (lacks : NMap.get s.net.parts 0 (cellKey c) + 1 ≠ packetCells c.body) :
    NMap.get ((s.headed p c).accept p c).net.parts 0 (cellKey c) = 0
      ∧ Leaves [.wsk, .parts] noReg s ((s.headed p c).accept p c) := by
  have was : (s.headed p c).net.parts = s.net.parts := leaves_headed.1 .parts (by simp)
  rw [State.headed_own one own, State.consume_last one last, was, if_neg lacks, leaves_owe.1 .parts (by simp), State.partsAt_parts]
  exact ⟨rfl, leaves_ready.into leaves_owe (by simp) fun _ _ no => no⟩

/-- A packet that has come whole takes effect. -/
theorem State.headed_whole (whole : NMap.get s.net.parts 0 (cellKey c) + 1 = packetCells c.body) :
    (s.headed p c).accept p c = ((s.ready p c).takePacket c).owe p c.vc := by
  have was : (s.headed p c).net.parts = s.net.parts := leaves_headed.1 .parts (by simp)
  rw [State.headed_own one own, State.consume_last one last, was, if_pos whole]
  rfl

end

end

end

end Sys2Proof.Machine
end

section
/-! PROOFS. Packets for this device: completions, and accesses through a window (R301, R314). -/

set_option Elab.async false

namespace Sys2Proof.Machine

section
variable {s t u : State} {p q : Nat} {c : Cell}

/-! ## Completions (R301) -/

/-- A completion for a master of this device answers it, and its request leaves the bridge. -/
theorem State.complete_answers {tag : Nat} {ok : Bool} {bs : List Byte} {r : BridgeReq}
    (asked : s.net.bridge.find? (fun r => r.tag == tag) = some r) (local_ : r.forward = false) :
    s.complete tag ok bs = (s.dropReq tag).emit (if ok = false then faultAt r.master else if r.write then .done r.master
      else .memData r.master bs) := by
  unfold State.complete State.bridgeReq
  rw [asked]
  dsimp only
  rw [local_, if_neg Bool.false_ne_true]
  cases ok with
  | false => rfl
  | true =>
    rw [Bool.not_true, if_neg Bool.false_ne_true, if_neg (c := true = false) (by decide)]
    cases r.write <;> rfl

theorem State.mem_dropReq {tag : Nat} {x : BridgeReq} : x ∈ (s.dropReq tag).net.bridge ↔ x ∈ s.net.bridge ∧ x.tag ≠ tag := by
  rw [State.dropReq, List.mem_filter, bne_iff_ne]

/-! ## What this device originates (R310) -/

theorem leaves_wskOriginate {d vc : Nat} {b : CellBody} : Leaves [.wsk] (oneReg .wskStat 0) s (s.wskOriginate d vc b) := by
  unfold State.wskOriginate State.wskLocal
  split
  · exact (Leaves.refl _ _ s).modWsk
  · exact (Leaves.refl _ _ s).incSat ⟨rfl, rfl⟩

/-- A packet of this device waits at the port of its route. -/
theorem State.wskOriginate_waits {d vc : Nat} {b : CellBody} (route : s.wskRoute d = some q) :
    ((s.wskOriginate d vc b).wport q).localQ = (s.wport q).localQ
      ++ cellsOf { dest := d, src := s.f WSK_ID.DEV_ID 0, vc := vc, ttl := 63, body := b } := by
  unfold State.wskOriginate
  rw [route]
  dsimp only
  rw [State.wskLocal, State.modWsk_wport, if_pos rfl]

theorem State.owe_localQ {vc : Nat} : ((s.owe p vc).wport q).localQ = (s.wport q).localQ := by
  rw [State.owe_wport]
  split
  · rename_i here
    rw [here]
  · rfl

theorem leaves_noteTraj {bs : List Byte} : Leaves [.traj, .record] noReg s (s.noteTraj bs) := by
  unfold State.noteTraj
  split
  · exact Leaves.ite (Leaves.refl _ _ s).beside.beside (Leaves.refl _ _ s).beside
  · exact .refl _ _ s

/-- The answer to a non-posted packet waits at the port of its sender's route. -/
theorem answer_waits {k vc : Nat} {b : CellBody} (route : u.wskRoute c.src = some q) (own : u.f WSK_ID.DEV_ID 0 = c.dest) :
    (((u.wskOriginate c.src vc b).owe p k).wport q).localQ = (u.wport q).localQ
      ++ cellsOf { dest := c.src, src := c.dest, vc := vc, ttl := 63, body := b } := by
  rw [State.owe_localQ, State.wskOriginate_waits route, own]

section
variable (one : c.dest ≠ 0xFFFF) (own : c.dest = s.f WSK_ID.DEV_ID 0) (last : ∀ a, c.body ≠ .more a)
  (whole : NMap.get s.net.parts 0 (cellKey c) + 1 = packetCells c.body)
include one own last whole

theorem own_completion {tag : Nat} {ok : Bool} {bs : List Byte} {r : BridgeReq} (body : c.body = .completion tag ok bs)
    (asked : s.net.bridge.find? (fun r => r.tag == tag) = some r) (local_ : r.forward = false) :
    (∀ x, x ∈ ((s.headed p c).accept p c).net.bridge ↔ x ∈ s.net.bridge ∧ x.tag ≠ tag)
      ∧ ((s.headed p c).accept p c).outbox = (if ok = false then faultAt r.master else if r.write then .done r.master
          else .memData r.master bs) :: s.outbox
      ∧ Leaves [.wsk, .bridge, .outbox, .parts] noReg s ((s.headed p c).accept p c) := by
  have bridge : (s.ready p c).net.bridge = s.net.bridge := leaves_ready.1 .bridge (by simp)
  have out : (s.ready p c).outbox = s.outbox := leaves_ready.1 .outbox (by simp)
  have taken : (s.ready p c).takePacket c = ((s.ready p c).dropReq tag).emit (if ok = false then faultAt r.master
      else if r.write then .done r.master else .memData r.master bs) := by
    unfold State.takePacket
    rw [body]
    exact State.complete_answers (by rw [bridge, asked]) local_
  have ready : Leaves [.wsk, .bridge, .outbox, .parts] noReg s (s.ready p c) := leaves_ready.mono (by simp) fun _ _ no => no
  have dropped : Leaves [.wsk, .bridge, .outbox, .parts] noReg s ((s.ready p c).dropReq tag) := ready.beside
  rw [State.headed_whole one own last whole, taken]
  generalize (if ok = false then faultAt r.master else if r.write then Out.done r.master else .memData r.master bs) = o
  refine ⟨fun x => ?_, ?_, dropped.emit.into leaves_owe (by simp) fun _ _ no => no⟩
  · rw [leaves_owe.1 .bridge (by simp), State.emit_net, State.mem_dropReq, bridge]
  · rw [leaves_owe.1 .outbox (by simp), State.emit_outbox, State.dropReq, out]

theorem own_posted_unadmitted {a : Nat} {bs : List Byte} (body : c.body = .posted a bs)
    (none_ : s.wskIn c.src a = none) :
    ((s.headed p c).accept p c).f WSK_STAT.NO_WINDOW 0 = min (s.f WSK_STAT.NO_WINDOW 0 + 1) 0xFFFF
      ∧ Leaves [.wsk, .parts] (oneReg .wskStat 0) s ((s.headed p c).accept p c) := by
  have taken : (s.ready p c).takePacket c = (s.ready p c).incSat WSK_STAT.NO_WINDOW 0 1 := by
    unfold State.takePacket
    rw [body]
    dsimp only
    unfold State.inPosted
    rw [State.wskIn_of_regs State.ready_regs, none_]
  have ready : Leaves [.wsk, .parts] (oneReg .wskStat 0) s (s.ready p c) := leaves_ready.mono (by simp) fun _ _ no => no.elim
  have count : Leaves [.wsk, .parts] (oneReg .wskStat 0) s ((s.ready p c).incSat WSK_STAT.NO_WINDOW 0 1) := ready.incSat ⟨rfl, rfl⟩
  rw [State.headed_whole one own last whole, taken]
  refine ⟨?_, count.into leaves_owe (by simp) fun _ _ no => no.elim⟩
  rw [leaves_owe.f_same _ _ nofun, counted WSK_STAT.NO_WINDOW 0 (by decide) rfl, State.f_of_regs State.ready_regs]

theorem own_posted_written {a w : Nat} {bs : List Byte} (body : c.body = .posted a bs) (admitted : s.wskIn c.src a = some w) :
    ((s.headed p c).accept p c).mem.cells
      = (instWrite (s.ready p c) (s.f WSK_IN0.INSTANCE w) (a - s.f WSK_IN0.BASE w * 2 ^ 20) bs).2.mem.cells := by
  have taken : (s.ready p c).takePacket c
      = (instWrite (s.ready p c) (s.f WSK_IN0.INSTANCE w) (a - s.f WSK_IN0.BASE w * 2 ^ 20) bs).2 := by
    unfold State.takePacket
    rw [body]
    dsimp only
    unfold State.inPosted
    rw [State.wskIn_of_regs State.ready_regs, admitted]
    dsimp only
    rw [State.wskVa, State.f_of_regs State.ready_regs, State.f_of_regs State.ready_regs]
  rw [State.headed_whole one own last whole, taken, leaves_owe.1 .cells (by simp)]

theorem own_nonPosted_unadmitted {a tag len : Nat} {d : Option (List Byte)} (body : c.body = .nonPosted a tag len d)
    (none_ : s.wskIn c.src a = none) (route : s.wskRoute c.src = some q) :
    ((s.headed p c).accept p c).f WSK_STAT.NO_WINDOW 0 = min (s.f WSK_STAT.NO_WINDOW 0 + 1) 0xFFFF
      ∧ (((s.headed p c).accept p c).wport q).localQ = (s.wport q).localQ
          ++ cellsOf { dest := c.src, src := c.dest, vc := 1, ttl := 63, body := .completion tag false [] } := by
  have taken : (s.ready p c).takePacket c
      = ((s.ready p c).incSat WSK_STAT.NO_WINDOW 0 1).wskOriginate c.src 1 (.completion tag false []) := by
    unfold State.takePacket
    rw [body]
    dsimp only
    unfold State.inNonPosted
    rw [State.wskIn_of_regs State.ready_regs, none_]
  have count : Leaves [.wsk, .parts] (oneReg .wskStat 0) (s.ready p c) ((s.ready p c).incSat WSK_STAT.NO_WINDOW 0 1) :=
    (Leaves.refl _ _ _).incSat ⟨rfl, rfl⟩
  have known : ((s.ready p c).incSat WSK_STAT.NO_WINDOW 0 1).wskRoute c.src = some q := by
    rw [State.wskRoute_same (fun x i e => count.f_same x i fun h => by rcases e with e | e <;> exact absurd (e.symm.trans h.1) (by decide)),
      State.wskRoute_of_regs State.ready_regs, route]
  have noWindow : ((s.ready p c).incSat WSK_STAT.NO_WINDOW 0 1).f WSK_STAT.NO_WINDOW 0 = min (s.f WSK_STAT.NO_WINDOW 0 + 1) 0xFFFF := by
    rw [counted WSK_STAT.NO_WINDOW 0 (by decide) rfl, State.f_of_regs State.ready_regs]
  have self : ((s.ready p c).incSat WSK_STAT.NO_WINDOW 0 1).f WSK_ID.DEV_ID 0 = c.dest := by
    rw [count.f_same _ _ fun h => absurd h.1 (by decide), State.f_of_regs State.ready_regs, own]
  have ports : (((s.ready p c).incSat WSK_STAT.NO_WINDOW 0 1).wport q).localQ = (s.wport q).localQ := by
    rw [State.incSat_wport, State.ready_localQ]
  rw [State.headed_whole one own last whole, taken]
  refine ⟨?_, by rw [answer_waits known self, ports]⟩
  rw [leaves_owe.f_same _ _ nofun, State.wskOriginate, known]
  exact noWindow

theorem own_nonPosted_read {a tag len w : Nat} {bs : List Byte} (body : c.body = .nonPosted a tag len none)
    (admitted : s.wskIn c.src a = some w) (route : s.wskRoute c.src = some q)
    (read : instRead (s.ready p c) (s.f WSK_IN0.INSTANCE w) (a - s.f WSK_IN0.BASE w * 2 ^ 20) len = (.ok bs, u)) :
    (((s.headed p c).accept p c).wport q).localQ = (u.wport q).localQ
      ++ cellsOf { dest := c.src, src := c.dest, vc := 1, ttl := 63, body := .completion tag true bs } := by
  have accessed : Accessed (s.ready p c) u := Leaves.of_eq read (accessed_instRead _ _ _ _)
  have taken : (s.ready p c).takePacket c = u.wskOriginate c.src 1 (.completion tag true bs) := by
    unfold State.takePacket
    rw [body]
    dsimp only
    unfold State.inNonPosted
    rw [State.wskIn_of_regs State.ready_regs, admitted]
    dsimp only
    rw [State.wskVa, State.f_of_regs State.ready_regs, State.f_of_regs State.ready_regs, read]
  rw [State.headed_whole one own last whole, taken]
  refine answer_waits ?_ ?_
  · rw [accessed.wskRoute, State.wskRoute_of_regs State.ready_regs, route]
  · rw [accessed.f_same _ _ (by simp [accessRegs, WSK_ID.DEV_ID]), State.f_of_regs State.ready_regs, own]

theorem own_nonPosted_written {a tag len w : Nat} {bs xs : List Byte} (body : c.body = .nonPosted a tag len (some bs))
    (admitted : s.wskIn c.src a = some w) (route : s.wskRoute c.src = some q)
    (written : instWrite (s.ready p c) (s.f WSK_IN0.INSTANCE w) (a - s.f WSK_IN0.BASE w * 2 ^ 20) bs = (.ok xs, u)) :
    ((s.headed p c).accept p c).mem.cells = u.mem.cells
      ∧ (((s.headed p c).accept p c).wport q).localQ = (u.wport q).localQ
          ++ cellsOf { dest := c.src, src := c.dest, vc := 1, ttl := 63, body := .completion tag true [] } := by
  have accessed : Accessed (s.ready p c) u := Leaves.of_eq written (accessed_instWrite _ _ _ _)
  have noted : Leaves [.traj, .record] noReg u (u.noteTraj bs) := leaves_noteTraj
  have taken : (s.ready p c).takePacket c = (u.noteTraj bs).wskOriginate c.src 1 (.completion tag true []) := by
    unfold State.takePacket
    rw [body]
    dsimp only
    unfold State.inNonPosted
    rw [State.wskIn_of_regs State.ready_regs, admitted]
    dsimp only
    rw [State.wskVa, State.f_of_regs State.ready_regs, State.f_of_regs State.ready_regs, written]
  have wsk : (u.noteTraj bs).net.wsk = u.net.wsk := noted.1 .wsk (by simp)
  have ports : (u.noteTraj bs).wport q = u.wport q := by rw [State.wport, wsk, ← State.wport]
  rw [State.headed_whole one own last whole, taken]
  constructor
  · rw [leaves_owe.1 .cells (by simp), leaves_wskOriginate.1 .cells (by simp), noted.1 .cells (by simp)]
  · rw [answer_waits, ports]
    · rw [State.wskRoute_same fun x i _ => noted.f_same x i nofun, accessed.wskRoute, State.wskRoute_of_regs State.ready_regs, route]
    · rw [noted.f_same _ _ nofun, accessed.f_same _ _ (by simp [accessRegs, WSK_ID.DEV_ID]), State.f_of_regs State.ready_regs, own]

end

end

end Sys2Proof.Machine
end

section
/-! PROOFS. Cells that leave a Weska port (R307 to R309). -/

set_option Elab.async false

namespace Sys2Proof.Machine

section
variable {s t : State} {p vc : Nat} {c : Cell}

/-! ## The next cell of a channel (R308) -/

theorem dropFirst_length {α : Type} {g : α → Bool} {xs : List α} {x : α} (found : xs.find? g = some x) :
    (dropFirst g xs).length + 1 = xs.length := by
  induction xs with
  | nil => cases found
  | cons y ys ih =>
    unfold dropFirst
    rw [List.find?_cons] at found
    cases here : g y with
    | true => rfl
    | false =>
      rw [here] at found
      rw [if_neg Bool.false_ne_true, List.length_cons, List.length_cons, ih found]

section
variable {w : WskSt}

/-- A cell in transit is next, unless one of this device waits whose turn it is. -/
theorem WskSt.pick_transit {i : Nat} (found : w.transit.find? (fun x => x.2.vc == vc) = some (i, c)) (credit : 1 ≤ NMap.get w.credits 0 vc)
    (turn : NMap.get w.lastTransit 0 vc ≠ 1 ∨ ∀ x ∈ w.localQ, x.vc ≠ vc) : w.pick vc = some (true, i, c) := by
  unfold WskSt.pick
  dsimp only
  rw [found, Option.bind_some, if_pos credit]
  rcases turn with turn | none_
  · rw [if_neg turn]
  · rw [List.find?_eq_none.2 fun x mem => by simpa using none_ x mem, Option.bind_none]
    exact ite_self _

/-- A cell of this device is next where it is its turn, or none is in transit. -/
theorem WskSt.pick_local (found : w.localQ.find? (fun x => x.vc == vc) = some c) (credits : 2 ≤ NMap.get w.credits 0 vc)
    (turn : NMap.get w.lastTransit 0 vc = 1 ∨ ∀ x ∈ w.transit, x.2.vc ≠ vc) : w.pick vc = some (false, 0, c) := by
  unfold WskSt.pick
  dsimp only
  rw [found, Option.bind_some, if_pos credits]
  rcases turn with turn | none_
  · rw [if_pos turn]
  · rw [List.find?_eq_none.2 fun x mem => by simpa using none_ x mem, Option.bind_none]
    exact ite_self _

/-- No cell is next without its credits. -/
theorem WskSt.pick_none (transit : NMap.get w.credits 0 vc = 0 ∨ ∀ x ∈ w.transit, x.2.vc ≠ vc)
    (local_ : NMap.get w.credits 0 vc ≤ 1 ∨ ∀ x ∈ w.localQ, x.vc ≠ vc) : w.pick vc = none := by
  have noTransit : ((w.transit.find? fun x => x.2.vc == vc).bind fun x =>
      if 1 ≤ NMap.get w.credits 0 vc then some (true, x.1, x.2) else none) = none := by
    rcases transit with none_ | none_
    · exact Option.bind_eq_none_iff.2 fun _ _ => if_neg (by omega)
    · rw [List.find?_eq_none.2 fun x mem => by simpa using none_ x mem, Option.bind_none]
  have noLocal : ((w.localQ.find? fun x => x.vc == vc).bind fun x =>
      if 2 ≤ NMap.get w.credits 0 vc then some (false, 0, x) else none) = none := by
    rcases local_ with none_ | none_
    · exact Option.bind_eq_none_iff.2 fun _ _ => if_neg (by omega)
    · rw [List.find?_eq_none.2 fun x mem => by simpa using none_ x mem, Option.bind_none]
  unfold WskSt.pick
  dsimp only
  rw [noTransit, noLocal]
  exact ite_self _

/-! ## A cell that leaves -/

/-- The credits that the next cell returns: their channel, and how many. -/
def WskSt.back (w : WskSt) : Nat × Nat := ((w.owed.head?).map fun o => (o.1, min o.2 15)).getD (0, 0)

theorem WskSt.back_le : w.back.2 ≤ 15 ∧ w.back.2 ≤ NMap.get w.owed 0 w.back.1 := by
  unfold WskSt.back
  cases w.owed with
  | nil => exact ⟨Nat.zero_le _, Nat.zero_le _⟩
  | cons o os =>
    have head : NMap.get (o :: os) 0 o.1 = o.2 := by
      unfold NMap.get NMap.find
      rw [if_pos rfl, Option.getD_some]
    exact ⟨Nat.min_le_right _ _, (Nat.min_le_left _ _).trans head.ge⟩

/-- A port that a cell has left. -/
def WskSt.sent (w : WskSt) (vc : Nat) (transit : Bool) (c : Cell) : WskSt :=
  { w with
    credits := NMap.set w.credits 0 vc (NMap.get w.credits 0 vc - 1)
    owed := NMap.set w.owed 0 w.back.1 (NMap.get w.owed 0 w.back.1 - w.back.2)
    transit := if transit then dropFirst (fun q => q.2.vc == vc) w.transit else w.transit
    localQ := if transit then w.localQ else dropFirst (fun q => q.vc == vc) w.localQ
    lastTransit := NMap.set w.lastTransit 0 vc (b2n transit)
    unacked := w.unacked ++ [c], txSeq := (w.txSeq + 1) % 256 }

/-- A cell as it leaves a port, with SEQ, ACK and the credits it returns. -/
def WskSt.stamped (w : WskSt) (c : Cell) : Cell :=
  { c with seq := w.txSeq, ack := (w.rxSeq + 255) % 256, crVc := w.back.1, crCells := w.back.2 }

end

theorem State.egressBody_plain {transit : Bool} (plain : ∀ a k, c.body ≠ .time a k) : s.egressBody transit c.body = c.body := by
  unfold State.egressBody
  split
  · rename_i a k time
    exact absurd time (plain a k)
  · rfl

/-- The state that a cell has left, before its buffer is free again. -/
def State.sent (s : State) (p vc : Nat) (transit : Bool) (c : Cell) : State :=
  s.modWsk p fun w => w.sent vc transit ((s.wport p).stamped c)

theorem State.sendCell_transit {i : Nat} (plain : ∀ a k, c.body ≠ .time a k) :
    s.sendCell p vc (true, i, c) = ((s.sent p vc true c).freeBuf i c).emit (.cell p ((s.wport p).stamped c)) := by
  unfold State.sendCell
  dsimp only
  rw [State.egressBody_plain plain]
  rfl

theorem State.sendCell_local (plain : ∀ a k, c.body ≠ .time a k) :
    s.sendCell p vc (false, 0, c) = (s.sent p vc false c).emit (.cell p ((s.wport p).stamped c)) := by
  unfold State.sendCell
  dsimp only
  rw [State.egressBody_plain plain]
  rfl

theorem State.sent_wport {q : Nat} {transit : Bool} : (s.sent p vc transit c).wport q
    = if q = p then (s.wport p).sent vc transit ((s.wport p).stamped c) else s.wport q := State.modWsk_wport ..

theorem leaves_sent {transit : Bool} : Leaves [.wsk] noReg s (s.sent p vc transit c) := (Leaves.refl _ _ s).modWsk

/-- A freed buffer leaves the copies that wait as they are. -/
theorem State.freeBuf_copyWaits {i j : Nat} {d : Cell} : (s.freeBuf i c).copyWaits j d = s.copyWaits j d := by
  have transit (q : Nat) : ((s.freeBuf i c).wport q).transit = (s.wport q).transit := by
    by_cases here : q = i
    · obtain ⟨o, port⟩ := State.freeBuf_apart (s := s) (p := i) (c := c)
      rw [here, port]
    · rw [State.freeBuf_wport_ne here]
  unfold State.copyWaits
  simp only [transit]

/-- A port whose buffer is free again owes a credit, unless a copy of its broadcast still waits. -/
theorem State.freeBuf_owed {i : Nat} : NMap.get ((s.freeBuf i c).wport i).owed 0 c.vc
    = NMap.get (s.wport i).owed 0 c.vc + if s.copyWaits i c then 0 else 1 := by
  unfold State.freeBuf
  split
  · rfl
  · rw [State.owe_owed]

/-! ## The three forms of the command -/

/-- Whether a port is held: it is down, too many of its cells are unacknowledged, or a channel ahead can send. -/
def State.held (s : State) (p vc : Nat) : Bool :=
  !s.wskUp p || 128 ≤ (s.wport p).unacked.length || (List.range vc).any fun v => ((s.wport p).pick v).isSome

theorem State.held_iff : s.held p vc = true ↔ s.f WSK_PORTSTAT.STATE p ≠ 2 ∨ 128 ≤ (s.wport p).unacked.length
    ∨ ∃ v, v < vc ∧ ((s.wport p).pick v).isSome = true := by
  have down : s.wskUp p = false ↔ s.f WSK_PORTSTAT.STATE p ≠ 2 := beq_eq_false_iff_ne
  rw [← down, State.held, Bool.or_eq_true, Bool.or_eq_true, Bool.not_eq_true', decide_eq_true_iff, List.any_eq_true, or_assoc]
  simp only [List.mem_range]

/-- A port may send for a channel when it is up, its cells are acknowledged in time, and no channel ahead can send. -/
theorem State.free_of (up : s.f WSK_PORTSTAT.STATE p = 2) (few : (s.wport p).unacked.length < 128)
    (ahead : ∀ v, v < vc → (s.wport p).pick v = none) : s.held p vc = false := by
  rw [Bool.eq_false_iff, ne_eq, State.held_iff]
  rintro (down | many | ⟨v, lt, some_⟩)
  · exact down up
  · omega
  · rw [ahead v lt] at some_
    cases some_

theorem cellTransmit_eq (lt : p < 4) (five : vc < 5) : exec (.cellTransmit p vc none) s
    = .next (if s.held p vc then s else
        match (s.wport p).pick vc with
        | some x => s.sendCell p vc x
        | none => s) := by
  have port : (isPort p && decide (vc < 5)) = true := by rw [isPort, decide_eq_true lt, decide_eq_true five]; rfl
  rw [exec_cellTransmit, execCellTransmit, port, unit_true, Option.isSome_none, Bool.and_false, if_neg Bool.false_ne_true]
  rfl

/-- Nothing leaves a port that is held, or a channel without a next cell. -/
theorem cellTransmit_idle (lt : p < 4) (five : vc < 5) (no : s.held p vc = true ∨ (s.wport p).pick vc = none) :
    exec (.cellTransmit p vc none) s = .next s := by
  rw [cellTransmit_eq lt five]
  rcases no with held | none_
  · rw [if_pos held]
  · rw [none_, ite_self]

theorem cellTransmit_sends {x : Bool × Nat × Cell} (lt : p < 4) (five : vc < 5) (free : s.held p vc = false)
    (next : (s.wport p).pick vc = some x) : exec (.cellTransmit p vc none) s = .next (s.sendCell p vc x) := by
  rw [cellTransmit_eq lt five, free, next, if_neg Bool.false_ne_true]

/-- A cell in transit that leaves. -/
theorem transit_leaves {i : Nat} (plain : ∀ a k, c.body ≠ .time a k)
    (found : (s.wport p).transit.find? (fun x => x.2.vc == vc) = some (i, c)) :
    ∀ t, t = s.sendCell p vc (true, i, c) →
      (t.outbox = .cell p ((s.wport p).stamped c) :: s.outbox
        ∧ (t.wport p).unacked = (s.wport p).unacked ++ [(s.wport p).stamped c])
      ∧ NMap.get (t.wport p).credits 0 vc = NMap.get (s.wport p).credits 0 vc - 1
      ∧ (t.wport p).txSeq = ((s.wport p).txSeq + 1) % 256 ∧ (t.wport p).localQ = (s.wport p).localQ
      ∧ (t.wport p).transit.length + 1 = (s.wport p).transit.length
      ∧ (i ≠ p → NMap.get (t.wport i).owed 0 vc = NMap.get (s.wport i).owed 0 vc + if t.copyWaits i c then 0 else 1)
      ∧ Leaves [.wsk, .outbox] noReg s t := by
  intro t sent
  have channel : c.vc = vc := beq_iff_eq.1 (List.find?_some (p := fun x : Nat × Cell => x.2.vc == vc) found)
  rw [State.sendCell_transit plain] at sent
  have port : ∃ o, ((s.sent p vc true c).freeBuf i c).wport p
      = { (s.wport p).sent vc true ((s.wport p).stamped c) with owed := o } := by
    have was : (s.sent p vc true c).wport p = (s.wport p).sent vc true ((s.wport p).stamped c) := State.sent_wport.trans (if_pos rfl)
    by_cases here : p = i
    · rw [← here, ← was]
      exact State.freeBuf_apart
    · rw [State.freeBuf_wport_ne here, was]
      exact ⟨_, rfl⟩
  obtain ⟨o, port⟩ := port
  have on : t.wport p = { (s.wport p).sent vc true ((s.wport p).stamped c) with owed := o } := by
    rw [sent, State.emit_wport, port]
  have sent_ : Leaves [.wsk, .outbox] noReg s (s.sent p vc true c) := leaves_sent.mono (by simp) fun _ _ no => no
  refine ⟨⟨?_, by rw [on]; rfl⟩, ?_, by rw [on]; rfl, by rw [on]; rfl, ?_, fun ne => ?_, ?_⟩
  · rw [sent, State.emit_outbox, leaves_freeBuf.1 .outbox (by simp), leaves_sent.1 .outbox (by simp)]
  · rw [on, WskSt.sent]
    dsimp only
    rw [NMap.get_set, if_pos rfl]
  · rw [on, WskSt.sent]
    dsimp only
    rw [if_pos rfl]
    exact dropFirst_length found
  · have copies : t.copyWaits i c = (s.sent p vc true c).copyWaits i c := by
      rw [sent, ← State.freeBuf_copyWaits (s := s.sent p vc true c) (c := c) (i := i)]
      rfl
    rw [copies, sent, State.emit_wport, ← channel, State.freeBuf_owed, State.sent_wport, if_neg ne]
  · rw [sent]
    exact (sent_.into leaves_freeBuf (by simp) fun _ _ no => no).emit

/-- A cell of this device that leaves. -/
theorem local_leaves (plain : ∀ a k, c.body ≠ .time a k) (found : (s.wport p).localQ.find? (fun x => x.vc == vc) = some c) :
    ∀ t, t = s.sendCell p vc (false, 0, c) →
      (t.outbox = .cell p ((s.wport p).stamped c) :: s.outbox
        ∧ (t.wport p).unacked = (s.wport p).unacked ++ [(s.wport p).stamped c])
      ∧ NMap.get (t.wport p).credits 0 vc = NMap.get (s.wport p).credits 0 vc - 1
      ∧ (t.wport p).transit = (s.wport p).transit ∧ (t.wport p).localQ.length + 1 = (s.wport p).localQ.length
      ∧ NMap.get (t.wport p).owed 0 (s.wport p).back.1 + (s.wport p).back.2 = NMap.get (s.wport p).owed 0 (s.wport p).back.1
      ∧ (∀ q, q ≠ p → t.wport q = s.wport q) ∧ Leaves [.wsk, .outbox] noReg s t := by
  intro t sent
  rw [State.sendCell_local plain] at sent
  have on : t.wport p = (s.wport p).sent vc false ((s.wport p).stamped c) := by
    rw [sent, State.emit_wport, State.sent_wport, if_pos rfl]
  have sent_ : Leaves [.wsk, .outbox] noReg s (s.sent p vc false c) := leaves_sent.mono (by simp) fun _ _ no => no
  refine ⟨⟨?_, by rw [on]; rfl⟩, ?_, by rw [on]; rfl, ?_, ?_, fun q ne => ?_, by rw [sent]; exact sent_.emit⟩
  · rw [sent, State.emit_outbox, leaves_sent.1 .outbox (by simp)]
  · rw [on, WskSt.sent]
    dsimp only
    rw [NMap.get_set, if_pos rfl]
  · rw [on, WskSt.sent]
    dsimp only
    rw [if_neg Bool.false_ne_true]
    exact dropFirst_length found
  · have returned := (WskSt.back_le (w := s.wport p)).2
    rw [on, WskSt.sent]
    dsimp only
    rw [NMap.get_set, if_pos rfl]
    omega
  · rw [sent, State.emit_wport, State.sent_wport, if_neg ne]

/-- Cells that leave again, in order. -/
theorem State.resent (cs : List Cell) : ∀ s : State,
    (cs.foldl (fun s c => s.emit (.cell p c)) s).outbox = (cs.map fun c => Out.cell p c).reverse ++ s.outbox
      ∧ Leaves [.outbox] noReg s (cs.foldl (fun s c => s.emit (.cell p c)) s) := by
  induction cs with
  | nil => exact fun s => ⟨rfl, .refl _ _ s⟩
  | cons c cs ih =>
    intro s
    obtain ⟨out, leaves⟩ := ih (s.emit (.cell p c))
    refine ⟨?_, (Leaves.refl _ _ s).emit.trans leaves⟩
    rw [List.foldl_cons, out, State.emit_outbox, List.map_cons, List.reverse_cons, List.append_assoc]
    rfl

/-- The cells that the partner asks for leave again. -/
theorem cellTransmit_again {q : Nat} (lt : p < 4) (five : vc < 5) (up : s.f WSK_PORTSTAT.STATE p = 2) :
    exec (.cellTransmit p vc (some q)) s = .next (s.resend p q) := by
  have port : (isPort p && decide (vc < 5)) = true := by rw [isPort, decide_eq_true lt, decide_eq_true five]; rfl
  have isUp : s.wskUp p = true := beq_iff_eq.2 up
  rw [exec_cellTransmit, execCellTransmit, port, unit_true, isUp, Option.isSome_some, Bool.and_self, if_pos rfl, Option.getD_some]

end

end Sys2Proof.Machine
end

section
/-! PROOFS. O55: Weska ports (R305 to R314). -/

set_option Elab.async false

namespace Sys2Proof.Machine

/-- A write that no window admits. -/
theorem State.wskIn_none {s : State} {src addr : Nat}
    (no : ∀ w, w < 16 → ¬(s.fb WSK_IN0.EN w = true ∧ s.f WSK_IN1.SRC_ID w = src ∧ s.f WSK_IN0.BASE w ≤ addr / 2 ^ 20
      ∧ addr / 2 ^ 20 ≤ s.f WSK_IN1.LIMIT w)) : s.wskIn src addr = none := by
  refine List.find?_eq_none.2 fun w mem => ?_
  have closed := no w (List.mem_range.1 mem)
  simpa [and_assoc] using closed

/-- Settles O55: a lemma for each kind of command, and for each kind of packet, gives the state that it leaves. -/
theorem portsTrainAndCarryCells : Obligations.PortsTrainAndCarryCells := by
  unfold Obligations.PortsTrainAndCarryCells
  refine ⟨fun s p width peer lt widths => ⟨linkTraining_disabled lt widths, fun on => linkTraining_leaves lt widths on⟩,
    fun s p lt => ⟨portDown_idle lt, fun up => portDown_leaves lt up⟩,
    fun s p c lt => ⟨cellReceive_down lt, cellReceive_outOfOrder lt, cellReceive_asksReplay lt, cellReceive_retrains lt⟩,
    fun s p c lt up next one => ?_, fun s p vc lt five => ⟨fun no => ?_, fun up few ahead => ⟨fun i c found plain credit turn => ?_,
      fun c found plain credits turn => ?_⟩, fun q up => ?_⟩⟩
  · obtain ⟨tr, lq, o, port⟩ := State.accept_port (s := s.headed p c) (p := p) one
    have on : ((s.headed p c).accept p c).wport p = { (s.wport p).headed c with transit := tr, localQ := lq, owed := o } := by
      rw [port, State.headed_wport, if_pos rfl]
    refine ⟨_, cellReceive_inOrder lt up next, by rw [on]; rfl, by rw [on]; rfl, ?_, fun a found => ?_, fun none_ => ?_,
      unrouted_counted one, fun q other route => hopless_counted one other route,
      fun q other route => routed_waits one other route, own_freed one, fun a own => own_more one own, own_lacks one,
      fun tag ok bs r own whole => own_completion one own whole.1 whole.2,
      fun a bs own whole body no => own_posted_unadmitted one own whole.1 whole.2 body (State.wskIn_none no),
      fun a bs w own whole => own_posted_written one own whole.1 whole.2,
      fun a tag len d q own whole => own_nonPosted_unadmitted one own whole.1 whole.2,
      fun a tag len q w bs u own whole => own_nonPosted_read one own whole.1 whole.2,
      fun a tag len bs q w xs u own whole => own_nonPosted_written one own whole.1 whole.2⟩
    · rw [on, WskSt.headed]
      dsimp only
      rw [NMap.get_set, if_pos rfl]
    · rw [on]
      exact WskSt.headed_acknowledged found
    · rw [on]
      exact WskSt.headed_unacknowledged none_
  · refine cellTransmit_idle lt five ?_
    rw [State.held_iff]
    rcases no with down | many | ahead | none_ | ⟨noTransit, few⟩ | ⟨noTransit, noLocal⟩
    · exact .inl (.inl down)
    · exact .inl (.inr (.inl many))
    · exact .inl (.inr (.inr ahead))
    · exact .inr (WskSt.pick_none (.inl none_) (.inl (by omega)))
    · exact .inr (WskSt.pick_none (.inr noTransit) (.inl few))
    · exact .inr (WskSt.pick_none (.inr noTransit) (.inr noLocal))
  · exact ⟨_, (s.wport p).back.1, (s.wport p).back.2,
      cellTransmit_sends lt five (State.free_of up few ahead) (WskSt.pick_transit found credit turn), WskSt.back_le.1,
      transit_leaves plain found _ rfl⟩
  · exact ⟨_, (s.wport p).back.1, (s.wport p).back.2,
      cellTransmit_sends lt five (State.free_of up few ahead) (WskSt.pick_local found credits turn), WskSt.back_le.1,
      local_leaves plain found _ rfl⟩
  · exact ⟨_, cellTransmit_again lt five up, State.resent _ s⟩

end Sys2Proof.Machine
end
